-- ==== Sys2Proof/Word.lean ====
section
/-! DEFINITION. Words of the module: 32-bit registers (R34), bytes, and the widths of the sample index (72 bits, R76). -/

namespace Sys2Proof

/-- A 32-bit register word (R34). -/
abbrev Word := BitVec 32

/-- One byte of memory. -/
abbrev Byte := BitVec 8

/-- The number of values of a 72-bit sample index (R76). -/
def sixModulus : Nat := 2 ^ 72

/-- A sum of sample indices, wrapping at 72 bits (R76). -/
def sixAdd (a b : Nat) : Nat := (a + b) % sixModulus

/-- Saturating 32-bit count, as the spec's COUNT registers. -/
def satInc (max n : Nat) : Nat := if n < max then n + 1 else n

end Sys2Proof
end

