-- ==== Sys2Proof/Config.lean ====
section
/-! DEFINITION. What the spec leaves open and the model leaves free: constants without a body, so that no proof can
see their values. Each is named in an assumption log entry. A free value is applied to the counter `freeCtr` of the
state (a fresh value each time) or to the operands it depends on. -/

namespace Sys2Proof

/-- A fresh free word, by the draw number kept in the state (log entry 3). -/
opaque Config.freeWord : Nat → Word

/-- A fresh free natural number, by the draw number kept in the state (log entry 3). -/
opaque Config.freeNat : Nat → Nat

/-- What a page of the guest die identifies itself with: bits 14:0 of PG_ID.TYPE, PG_VER and PG_CAP (R40, R617, R621; log entry 73). -/
opaque Config.guestType : Nat → Nat
opaque Config.guestVer : Nat → Word
opaque Config.guestCap : Nat → Word

/-- A word that a page of the guest die returns: page key, offset, and the draw number at the read (R40; log entry 73). -/
opaque Config.guestWord : Nat → Nat → Nat → Word

/-- Whether a quotient in a datapath that is no integer is rounded up: numerator and denominator (R144, R148, R171; log entry 30). -/
opaque Config.roundUp : Int → Nat → Bool

/-- The mix of a chain: (num / 2^exp) × e^(−j2π × phase / 2^49), in the 16-bit scale after the mix, from num, exp and phase (R139, R140,
R142; log entry 30). -/
opaque Config.mix : Int → Nat → Nat → Int × Int

/-- The mix of an inset: (i + jq) × e^(−j2π × phase / 2^48), from i, q and phase (R140, R152; log entry 30). -/
opaque Config.insetMix : Int → Int → Nat → Int × Int

/-- Output of a decimating stage before saturation: the response of R142 (0 STANDARD, 1 SHARP, 2 MIN_PHASE), or 3 for the fifth-band
of R151, and the samples in its delay line by tap number. The spec does not give the taps (log entry 30). -/
opaque Config.stageOut : Nat → List (Nat × Int × Int) → Int × Int

/-- Point `n` of the 65,536-point master of window `w`, in the engine's internal precision (R162; log entry 30). -/
opaque Config.windowRom : Nat → Nat → Int

/-- Bin `k`, in increasing RF frequency, of the transform of windowed samples, with its phase referred to the frame centre (R159, R163,
R171; log entry 30). -/
opaque Config.dftBin : List (Int × Int) → Nat → Int × Int

/-- A bin times its correction factor (R165): the bin, SIZE_LOG2, WINDOW, GAIN, ATTEN, and the table's gain and phase in 2^−37 of their
units. The answer (re, im, e) is the amplitude (re + j im) / 2^e in √mW at RFIN (log entry 30). -/
opaque Config.correctBin : Int × Int → Nat → Nat → Nat → Nat → Int → Int → Int × Int × Nat

/-- Gain (0.001 dB) and phase (1/65,536 turn) of point `j` of the flatness table that a FLAT_ID names: measured values (R337; log entry
30). -/
opaque Config.flatGain : Nat → Nat → BitVec 16
opaque Config.flatPhase : Nat → Nat → BitVec 16

/-- A power of num / den mW in 1/128 dB relative to 1 mW, with the rounding that the spec does not give (R171; log entry 30). -/
opaque Config.logPower : Nat → Nat → Int

/-- A value num / den as binary32, with the rounding that the spec does not give (R171, R172; log entry 30). -/
opaque Config.binary32 : Nat → Nat → Word

/-- Whether P × 2^(−1/HL) + h of R183, from P, HL and h, is rounded up to binary32 where it is none (log entry 31). -/
opaque Config.decayUp : Word → Nat → Nat → Bool

/-- Output of a DEFLATE job of a stream: level, framing, inputs and flags of the jobs before it, its input and flags. R493 makes it
a fixed function of these; the spec does not give the search and the code construction (log entry 42). -/
opaque Config.deflate : Nat → Nat → List (List Byte × Nat) → List Byte → Nat → List Byte

/-- BURST of an Ethernet request line, in units of 64 bytes less one: the spec states only its range (R437; log entry 43). -/
opaque Config.ethBurst : Nat → Nat

/-- ST.C after SUB or CMP of two words: the spec does not say whether a borrow sets or clears it (R517; log entry 55). -/
opaque Config.subCarry : Word → Word → Bool

/-- The word of configuration space at which the MSI-X capability stands, past the header, and its pointer to the next capability (R62; log
entry 89). -/
opaque Config.msixCap : Nat

opaque Config.msixNext : Nat

/-- The factory trim of the crystal, in 10⁻¹⁴ (R67; log entry 88). -/
opaque Config.factoryTrim : Int

/-- The PTP port identity of an Ethernet port (R73; log entry 85). -/
opaque Config.ptpIdentity : Nat → Nat

/-- The windows that a guest provisioning record loads: user address and bytes; the spec does not give the record's format (R421; log
entry 60). -/
opaque Config.guestWindows : List Byte → List (Nat × Nat)

end Sys2Proof
end

