-- ==== Sys2Proof/Types.lean ====
section
/-! DEFINITION. Types of command operands. -/

namespace Sys2Proof

/-- Who sends a register command: host software through BAR0, or the module itself (Phoin and Lenuc firmware) through
its internal path (R44). -/
inductive Issuer where
  | host | module
  deriving DecidableEq, Repr

/-- A PTP message (R73): one-step and two-step Sync, Follow_Up, Delay_Resp with the port identity it answers, and Announce with its UTC
offset, the data set that master selection compares, lower being better, and its interval in ms. -/
inductive PtpKind where
  | syncOneStep | syncTwoStep | followUp
  | delayResp (requester : Nat)
  | announce (utc : Int) (dataset intervalMs : Nat)
  deriving DecidableEq, Repr

/-- A PTP message with its sender's port identity and sequence number, and the instant (SIX, FINE) at which the Delay_Req that it calls for
leaves (R73, R74). -/
structure PtpMsg where
  kind : PtpKind
  source : Nat
  seq : Nat
  egress : Nat × Nat
  deriving DecidableEq, Repr

/-- The peak of a correlation between the spare and a main converter × 10⁶, and how many frames of its window carried enough signal
(R119). -/
structure Peak where
  ppm : Nat
  frames : Nat
  deriving DecidableEq, Repr

/-- The peak of ALIGN's correlation × 10⁶, and whether the correlation ends before the next command (R130). -/
structure AlignPeak where
  ppm : Nat
  now : Bool
  deriving DecidableEq, Repr

/-- A request of a fabric source to a memory controller (R352-R354): source ID, class of R13 (0 RT, 1 ST, 2 CT, 3 BG), the
user address of a 64-byte line, and the 64 bytes of a write with the disabled ones absent; a read has no bytes. -/
structure MemReq where
  source : Nat
  cls : Nat
  addr : Nat
  bytes : Option (List (Option Byte))
  deriving DecidableEq, Repr

/-- A message to the management controller (R580): the commands of MCTP control, PLDM base and PLDM platform monitoring that it
supports, and its vendor-defined ones; `bank` B when true. -/
inductive MctpMsg where
  | setEid (eid : BitVec 8)
  | getEid | getVersions | getTypes | getVendors
  | getTid | getPldmVersion | getPldmTypes | getPldmCommands
  | getPdr (record : BitVec 32)
  | getSensor (id : BitVec 16)
  | getStateSensors (id : BitVec 16)
  | pollEvent
  | debugOpen
  | writeBank (bank : Bool) (image : List Byte)
  | other
  deriving DecidableEq, Repr

/-- A PCIe configuration request (R457): a register by its dword offset, the size of BAR2 as log2 through the Resizable BAR
capability, or the power state (D3hot when true). -/
inductive CfgReq where
  | read (dword : Fin 1024)
  | write (dword : Fin 1024) (value : BitVec 32)
  | resizeBar2 (log2 : Fin 64)
  | power (d3hot : Bool)
  deriving DecidableEq, Repr

end Sys2Proof
end

