-- ==== Sys2Proof/Syntax.lean ====
section
/-! DEFINITION. The commands of the module: one constructor per row of the table of operations and events. The
operands are what a command or event brings from outside: the page and tag of a register command, the index of an edge,
the data a host or a link delivers. -/

namespace Sys2Proof

inductive Instr where
  /-- R616: Common START opcode: moves an IDLE, enabled block to ACTIVE and completes when the block enters ACTIVE. -/
  | startCmd (who : Issuer) (key : Fin 8192) (tag : Nat) (now : Bool)
  /-- R616: Common STOP opcode: returns an ACTIVE or SUSPENDED block to IDLE at the next cell boundary. -/
  | stop (who : Issuer) (key : Fin 8192) (tag : Nat) (now : Bool)
  /-- R54: Common SUSPEND opcode: suspends the operation in progress or the block, or is rejected UNSUPPORTED or STATE. -/
  | suspend (who : Issuer) (key : Fin 8192) (tag : Nat)
  /-- R54: Common RESUME opcode: resumes a suspended operation or block; outputs are marked SETTLING until clean. -/
  | resume (who : Issuer) (key : Fin 8192) (tag : Nat)
  /-- R54: Common CANCEL opcode: ends the operation in progress CANCELLED at its next cancel point. -/
  | cancel (who : Issuer) (key : Fin 8192) (tag : Nat)
  /-- R619: Common COMMIT opcode: checks the staged values and applies them at the block's next boundary, or ends DONE when nothing is staged. -/
  | commit (who : Issuer) (key : Fin 8192) (tag : Nat)
  /-- R54: Common QUERY opcode: places a status snapshot in the result window. -/
  | query (who : Issuer) (key : Fin 8192) (tag : Nat)
  /-- R61: A write to PG_RES_ACK releases the result window, is ignored, or sets PG_ERR.ACK_SEQ; a held operation may then complete. -/
  | pgResAckWrite (who : Issuer) (key : Fin 8192) (value : BitVec 32)
  /-- R615: Writing PG_CTRL.SOFT_RESET resets the block, cancels any operation and keeps the owner and the result registers. -/
  | softReset (who : Issuer) (key : Fin 8192)
  /-- R49: Writing PG_CTRL.FREEZE to 1 freezes the block, and writing 0 returns it to its previous state with GAP_BEFORE on the next output. -/
  | freezeWrite (who : Issuer) (key : Fin 8192) (on : Bool)
  /-- R49: Writing PG_CTRL.ENABLE to 0 returns an ACTIVE or SUSPENDED block to IDLE; writing 1 permits START. -/
  | enableWrite (who : Issuer) (key : Fin 8192) (on : Bool)
  /-- R43: Writing PG_CTRL.LOCK makes the page's RWL registers read-only. -/
  | lockSet (who : Issuer) (key : Fin 8192)
  /-- R64: A write to PG_IRQ or PG_IRQ_EN may send an MSI-X message when the enabled flags stay non-zero. -/
  | pgIrqWrite (who : Issuer) (key : Fin 8192) (en : Bool) (value : BitVec 32)
  /-- R64: Unmasking an MSI-X vector sends its pending message. -/
  | msixUnmask (vector : Fin 2048)
  /-- R43: A host write to a register without behaviour of its own is range-checked and applied or staged. -/
  | registerWrite (who : Issuer) (key : Fin 8192) (index : Fin 1024) (value : BitVec 32) (full : Bool)
  /-- R33: A write to an indirect BAR0 window is honoured only while its governing page is owned by HOST. -/
  | windowWrite (who : Issuer) (addr : Fin 0x4000000) (value : BitVec 32) (full : Bool)
  /-- R35: A BAR0 access to a reserved range or unlisted page reads 0, discards writes and logs an UNMAPPED event. -/
  | unmappedAccess (addr : Fin 0x4000000)
  /-- R63: HIF ROUTE_IRQ routes one page's interrupt to an MSI-X vector. -/
  | routeIrq (who : Issuer) (tag : Nat)
  /-- R66: Assertion of PERST_N clears the MSI-X table and routes, closes the Phoin rings and pauses host rings. -/
  | perstNAssert
  /-- R49: A block reset completes and the block enters IDLE with its reset values. -/
  | blockResetComplete (key : Fin 8192)
  /-- R14: A block enters FAULT, sets PG_ERR and PG_STAT.FAULT, raises its interrupt, and Phoin re-places its tasks. -/
  | blockFault (key : Fin 8192) (bit : Fin 32)
  /-- R14: A cell corrects an error or retries the operation up to 3 times, and escalates on failure. -/
  | cellError (key : Fin 8192) (corrected : Bool)
  /-- R70: The 1 ms check of each enabled reference declares references present or lost and updates the time-base state. -/
  | refCheck (amplMv hz : Nat) (ptpOk : Bool) (target : Int) (fit : Option Int)
  /-- R72: After 10 s with the offset below 1e-9, the time base moves from ACQUIRE to LOCKED. -/
  | tbLocked
  /-- R72: A crystal or synthesiser failure puts the time base in FAULT and escalates to module level. -/
  | xtalFault
  /-- R80: At every SIX that is a multiple of 40,960,000, the time base creates a benchmark pairing SIX with absolute time. -/
  | benchmark (y : Int) (uncertainty : Nat)
  /-- R79: Reading TBS_SIX0 latches SIX into TBS_SIX1 and TBS_SIX2. -/
  | tbsSixRead
  /-- R73: A received PTP message is hardware-timestamped and processed by the slave-only clock. -/
  | ptpMessage (port domain transport : Nat) (kind : PtpMsg) (masterPs six fine : Nat)
  /-- R75: A PPS_IN edge marks the start of a second for the time base. -/
  | ppsInEdge (six fine highNs : Nat)
  /-- R75: PPS_OUT rises at each second boundary of absolute time and falls 100 µs later. -/
  | ppsOutEdge (six : Nat)
  /-- R96: TBS SET_TIME sets the seconds count, to apply at the next PPS_IN edge or benchmark. -/
  | setTime (who : Issuer) (tag : Nat)
  /-- R84: TBS ARM_SYNC awaits a SYNCIN edge, to apply a synchronising reset in ONE_SHOT or CHECK mode. -/
  | armSync (who : Issuer) (tag : Nat)
  /-- R84: TBS SYNC_NOW starts a synchronising reset from the SIX at acceptance, or drives SYNCOUT with GENERATE. -/
  | syncNow (who : Issuer) (tag : Nat)
  /-- R86: A SYNCIN edge of the selected polarity is captured, compared in CHECK mode, or counted as ignored. -/
  | syncinEdge (six fine : Nat) (falling : Bool) (heldNs : Nat)
  /-- R84: The synchronising reset applies at its index: chains are zeroed, NCOs loaded and SIX loaded when LOAD_SIX is set. -/
  | syncResetApply
  /-- R88: No edge arrives within TBS_SYNC_TIMEOUT, and ARM_SYNC ends FAILED, TIMEOUT, NO_EDGE. -/
  | armSyncTimeout
  /-- R89: With REPEAT, SYNCOUT forwards a captured SYNCIN edge 64 TBCLK cycles after capture. -/
  | syncoutRepeat
  /-- R91: TDC MEASURE waits for a start edge and records up to STOP_COUNT stop edges. -/
  | measure (who : Issuer) (tag : Nat)
  /-- R93: TDC FREQ_MEAS counts edges over a gate by reciprocal counting. -/
  | freqMeas (who : Issuer) (tag : Nat)
  /-- R92: An edge on a TDC input is taken as start or stop, reported early, or ignored under the dead time. -/
  | tdcEdge (input : Nat) (falling : Bool) (six fine : Nat)
  /-- R91: TDC_TIMEOUT elapses after the start, and MEASURE ends DONE with the stops received so far. -/
  | tdcTimeout
  /-- R92: No start edge arrives within TDC_START_WAIT, and MEASURE ends FAILED, TIMEOUT, NO_START. -/
  | tdcStartWaitExpiry
  /-- R93: The FREQ_MEAS gate ends, and the frequency is computed, or the command fails with NO_EDGES. -/
  | freqGateEnd
  /-- R131: AFE COMMIT_AT stages the front-end configuration to apply at a given sample index. -/
  | afeCommitAt (who : Issuer) (conv : Fin 5) (tag : Nat)
  /-- R101: The staged AFE configuration applies at a frame boundary, on every converter that samples the input. -/
  | afeApply (conv : Fin 5)
  /-- R101: The settle time after an AFE change elapses, and SETTLING ends. -/
  | afeSettled (conv : Fin 5)
  /-- R104: The detected level stays 6 dB above full scale for 100 ns, and OVERLOAD is set. -/
  | overload (conv : Fin 5) (level : Int) (heldNs six : Nat)
  /-- R104: AFE_DET is refreshed every 1 µs with the broadband power at the attenuator. -/
  | afeDetUpdate (conv : Fin 5) (level : Int) (heldNs : Nat)
  /-- R107: A sub-ADC fails its self-check; the converter enters FAULT and its channel moves to C4 or goes STALE. -/
  | subadcFault (conv : Fin 5) (k : Fin 64)
  /-- R109: A converter launches a 240-byte sample group of five frames as four SMP flits. -/
  | sampleGroupLaunch (conv : Fin 5) (codes : List Nat)
  /-- R27: A receive queue releases a sample frame at the fixed FCLK edge, 48 FCLK after launch. -/
  | frameRelease (conv : Fin 5) (iq insSat : Unit)
  /-- R110: A write to ADC_CFG sets the test pattern, the bond role, the phase or the alignment shift from the next frame boundary. -/
  | adcCfgWrite (who : Issuer) (conv : Fin 5) (value : BitVec 32)
  /-- R111: SCLK locks at the converter, which moves from CLOCKING to FRAME_ALIGN. -/
  | sclkLock (conv : Fin 5)
  /-- R130: The converter temperature is refreshed every 1 ms and raises TEMP_STEP or TEMP_HIGH. -/
  | adcTempUpdate (conv : Fin 5) (temp : BitVec 16)
  /-- R123: The survey controller assigns C4 to an input, and rotation enters ALIGNING. -/
  | spareAssign (conv : Fin 4)
  /-- R119: A correlation of C4 against the main converter completes; the correction is applied or verification passes and H is chosen. -/
  | alignCorrelationDone (delayFs gainMdb : Int) (corrPpm : Peak)
  /-- R123: No verification passes within 1 ms, and rotation returns to IDLE with ALIGN_FAIL. -/
  | alignTimeout
  /-- R121: SIX reaches H, and the input selector switches converters; H is recorded and logged. -/
  | handover
  /-- R122: The hand-back check of the surveyed converter completes: it passes, is retried with the previous trims, or fails to STANDING_IN. -/
  | handbackCheck (delayFs gainMdb : Int) (corrPpm : Peak)
  /-- R130: ADC ALIGN correlates this converter against a reference converter and may apply the shift and the skew trims. -/
  | align (who : Issuer) (conv : Fin 5) (tag : Nat) (shift fracFs gainMdb : Int) (corrPpm : AlignPeak)
  /-- R155: DDC COMMIT_AT stages the filter-chain configuration to apply at a given SIX. -/
  | ddcCommitAt (who : Issuer) (pipe : Fin 6) (tag : Nat)
  /-- R147: A staged DDC change applies at index A, by gain, crossfade, retune or DECIM rules. -/
  | ddcApply (pipe : Fin 6)
  /-- R149: The 256th crossfade sample ends the crossfade, and any pending target then applies. -/
  | xfadeDone (pipe : Fin 6) (inset : Option (Fin 64))
  /-- R145: The first chain output without SETTLING after a start, reset or DECIM change raises CLEAN. -/
  | chainClean (pipe : Fin 6)
  /-- R137: A write to DDC_DC_CFG sets FREEZE and SHIFT from the next frame boundary. -/
  | dcCfgWrite (who : Issuer) (pipe : Fin 6) (value : BitVec 32)
  /-- R156: INS COMMIT_AT stages the inset table and enables to apply at a given SIX. -/
  | insCommitAt (who : Issuer) (pipe : Fin 6) (tag : Nat)
  /-- R154: Staged inset changes apply at A; enabled insets start with SETTLING and disabled insets stop. -/
  | insApply (pipe : Fin 6)
  /-- R178: FFT COMMIT_AT stages the transform configuration to apply at a given SIX. -/
  | fftCommitAt (who : Issuer) (pipe : Fin 6) (tag : Nat)
  /-- R176: The staged transform configuration applies at A on a new frame grid, and the open SPECTRUM record closes. -/
  | fftApply (pipe : Fin 6)
  /-- R158: A frame completes and its corrected spectrum is delivered to the contour, the graticule and the capture writer. -/
  | spectrum (pipe : Fin 6) (bins sat : Unit)
  /-- R183: At the end of each 100 µs tick, the persistence plane decays and adds the tick's hits. -/
  | grtTick (pipe : Fin 6)
  /-- R187: At a frame boundary, the graticule snapshots its planes for readout, or merges the interval. -/
  | grtFrameBoundary (pipe : Fin 6)
  /-- R190: The readout of a graticule frame ends and its GRATICULE record is complete. -/
  | grtReadoutDone (pipe : Fin 6)
  /-- R195: GRT CLEAR clears both planes at the next frame boundary. -/
  | clear (who : Issuer) (pipe : Fin 6) (tag : Nat)
  /-- R192: Staged graticule settings apply at a frame boundary and may clear the planes. -/
  | grtApply (pipe : Fin 6)
  /-- R188: A write to GRT_MAP_SEL selects the index-map bank to apply at the next boundary. -/
  | grtMapSelWrite (who : Issuer) (pipe : Fin 6) (value : BitVec 32)
  /-- R208: An active edge on TRIG_IN, XTRIG or PPS_IN is mapped to a trigger sample with its TDC time. -/
  | extTrigEdge (input : Fin 7) (falling : Bool) (six fine heldNs : Nat)
  /-- R209: TRG SW_TRIG fires the SW source at the first label after acceptance. -/
  | swTrig (who : Issuer) (region : Fin 2) (tag : Nat)
  /-- R209: TRG SW_TRIG_AT waits to fire the SW source at a given SIX. -/
  | swTrigAt (who : Issuer) (region : Fin 2) (tag : Nat)
  /-- R209: A waiting SW_TRIG_AT reaches its SIX and fires. -/
  | swTrigAtFire (region : Fin 2)
  /-- R217: The matrix evaluates an event at trigger sample t + Λ and releases its actions. -/
  | eventEval (pipe : Fin 6) (ev : Fin 4)
  /-- R211: A SEQUENCE window passes without a B occurrence, and the event disarms. -/
  | seqWindowExpiry (pipe : Fin 6) (ev : Fin 4)
  /-- R213: The holdoff of an event ends, and it returns to IDLE. -/
  | holdoffEnd (pipe : Fin 6) (ev : Fin 4)
  /-- R220: A TRIG_OUT pulse reaches its PULSE width and ends. -/
  | trigOutPulseEnd (region : Fin 2) (six : Nat)
  /-- R228: CTR COMMIT_AT stages mask slots to apply at a given SIX. -/
  | ctrCommitAt (who : Issuer) (pipe : Fin 6) (tag : Nat)
  /-- R229: TTR COMMIT_AT stages time-domain units to apply at a given SIX. -/
  | ttrCommitAt (who : Issuer) (pipe : Fin 6) (tag : Nat)
  /-- R230: TRG COMMIT_AT stages events and outputs to apply at a given SIX. -/
  | trgCommitAt (who : Issuer) (region : Fin 2) (tag : Nat)
  /-- R224: Staged trigger registers apply and restart the changed slots, units and events. -/
  | triggerApply (region : Fin 2) (page : Fin 1024)
  /-- R232: The capture writer commits a sample and its reductions to HBM at its write count. -/
  | captureSample (pipe : Fin 6)
  /-- R246: After the record's last sample, the sheet is rewritten with READY and its final POST_LEN. -/
  | sheetReady (pipe : Fin 6)
  /-- R246: CAP RELEASE_SHEET frees a sheet entry and advances HEAD over the released run. -/
  | releaseSheet (who : Issuer) (pipe : Fin 6) (tag : Nat)
  /-- R251: CAP RESTART takes a STOPPED writer back to RUNNING when space is free. -/
  | restart (who : Issuer) (pipe : Fin 6) (tag : Nat)
  /-- R251: With AUTO_RESUME, a stopped writer resumes once a release frees space, in a new epoch. -/
  | writerAutoResume (pipe : Fin 6)
  /-- R239: A record is written to its record plane, or dropped whole when space is short. -/
  | recordPlaneWrite (pipe : Fin 6)
  /-- R239: The consumer advances RD of a record plane, which frees space. -/
  | recordPlaneRdWrite (who : Issuer) (pipe : Fin 6) (plane : Fin 3) (value : BitVec 32)
  /-- R240: A TRACE interval ends, and the trace record is formed. -/
  | traceBoundary (pipe : Fin 6)
  /-- R264: A staged CAP configuration applies at a frame boundary to sheets appended from then on. -/
  | capApply (pipe : Fin 6)
  /-- R265: A staged RED configuration applies, with TRACE changes at the next interval boundary. -/
  | redApply (pipe : Fin 6)
  /-- R253: The sheet service cuts a record from the ring, shortening or dropping it for lost samples. -/
  | sheetCut (pipe : Fin 6)
  /-- R267: A ring 0 doorbell write gives Phoin new commands, or is ignored as invalid. -/
  | phnDoorbell (count : BitVec 64) (readOk : Bool)
  /-- R267: A ring 1 doorbell write reports entries consumed, which frees completion space. -/
  | phnCqDoorbell (count : BitVec 64)
  /-- R286: Phoin SUBMIT admits and places a new task or rejects it. -/
  | submit (entry : List Byte) (ext image : Option (List Byte))
  /-- R287: Phoin MODIFY replaces a task's descriptor and re-admits it, by migration if needed. -/
  | modify (entry : List Byte) (ext image : Option (List Byte))
  /-- R287: Phoin SUSPEND suspends a task, which keeps its memory. -/
  | taskSuspend (entry : List Byte)
  /-- R287: Phoin RESUME re-admits a suspended task. -/
  | taskResume (entry : List Byte)
  /-- R287: Phoin CANCEL ends a task CANCELLED and closes its stream. -/
  | taskCancel (entry : List Byte)
  /-- R292: Phoin QUERY reports a task, or every resident task, with an optional placement report. -/
  | taskQuery (entry : List Byte)
  /-- R290: Phoin PLAN evaluates a descriptor without placing it, optionally chained. -/
  | plan (entry : List Byte) (ext image : Option (List Byte))
  /-- R287: Phoin PIN fixes a task at its present placement. -/
  | pin (entry : List Byte)
  /-- R287: Phoin UNPIN clears PINNED on a task. -/
  | unpin (entry : List Byte)
  /-- R45: Phoin RESERVE re-places the users of the named pages and hands the pages to HOST. -/
  | reserve (entry : List Byte)
  /-- R45: Phoin RELEASE returns reserved pages to their previous owner and to the capacity table. -/
  | release (entry : List Byte)
  /-- R295: Phoin REBALANCE recomputes every placement and migrates the tasks that move. -/
  | rebalance (entry : List Byte)
  /-- R296: PHN OPEN_RINGS loads the contexts of rings 0 and 1 and starts fetching. -/
  | openRings (who : Issuer) (tag : Nat)
  /-- R296: PHN CLOSE_RINGS stops fetching after the command under evaluation. -/
  | closeRings (who : Issuer) (tag : Nat)
  /-- R286: A PLACED task reaches START_SIX with its configuration applied and becomes RUNNING. -/
  | taskStart (task : BitVec 32) (image : Option (List Byte))
  /-- R286: DURATION_SIX elapses, and the task ends DONE with its outputs closed. -/
  | taskDurationEnd (task : BitVec 32)
  /-- R312: The loaded target chain starts at frame boundary A_t beside the source. -/
  | migrationTargetStart
  /-- R312: Source and target outputs are compared by check value, and H is chosen, or the attempt fails. -/
  | migrationVerify (same : Bool) (six : Nat)
  /-- R313: At H, the outputs switch from source to target and the graticule and trigger state are copied. -/
  | migrationHandover
  /-- R315: After everything before H has been delivered, the source is released and MIGRATED is notified. -/
  | migrationRelease
  /-- R314: A failed migration is retried after 10 ms, twice. -/
  | migrationRetry
  /-- R317: A cell error rate past its warning threshold migrates the block's tasks before FAULT. -/
  | predictiveFault (page : Fin 8192)
  /-- R330: A converter becomes due by temperature drift or age, and the next survey is scheduled. -/
  | surveyDue
  /-- R332: A deferred survey retries for a pipeline at least once per second. -/
  | surveyDeferredRetry
  /-- R325: A survey step completes, and the next step begins or the survey ends. -/
  | surveyStepDone (power spur level : Int) (trims : List (Int × Int × Int × Int)) (crcs : List (BitVec 32))
  /-- R328: A survey step exceeds its timeout, and the survey ends TIMEOUT and RETURN runs. -/
  | surveyStepTimeout
  /-- R334: Without the spare, INPUT CAL applies at X and the channel turns STALE. -/
  | staleBegin
  /-- R334: Without the spare, the previous input applies at Y and STALE ends. -/
  | staleEnd
  /-- R329: A failed survey is queued again 60 s after its end. -/
  | surveyRequeue (conv : Fin 5)
  /-- R333: HOLD_MS of a CALIBRATION_HOLD elapses, and the task ends DONE. -/
  | holdExpiry (task : BitVec 32)
  /-- R344: A calibration store starts when the set differs and 7,200 s have passed. -/
  | calStoreStart
  /-- R344: A calibration store finishes its read-back check and ends OK or INTEGRITY. -/
  | calStoreDone (ok : Bool)
  /-- R344: A calibration store exceeds 30 s and ends STORE_TIMEOUT. -/
  | calStoreTimeout
  /-- R352: The memory controller serves a queued request by class and age. -/
  | memRequest (stack : Fin 4) (pc : Fin 32) (arrivals : List MemReq) (caFails ecc : Nat)
  /-- R362: The 1 ms throttle of a non-RT offender ends. -/
  | throttleEnd (stack : Fin 4) (source : Nat)
  /-- R362: A new 32 ms row-activation counting window starts. -/
  | rhWindowStart (stack : Fin 4)
  /-- R355: A tREFI interval ends, and a refresh is issued or postponed. -/
  | refreshInterval (stack : Fin 4)
  /-- R358: A new temperature band is recognised after 10 ms, and a delay update is scheduled. -/
  | tempBandChange (stack : Fin 4)
  /-- R358: Firmware writes the delays of one channel when the spacing rules allow. -/
  | delayUpdate (stack : Fin 4)
  /-- R361: IDLE_US elapses with the stack idle, and self-refresh entry begins. -/
  | srIdleExpiry (stack : Fin 4)
  /-- R361: Self-refresh exit completes, and waiting requests are served. -/
  | srExitDone (stack : Fin 4)
  /-- R366: The patrol scrub reads a line at BG class, which may trigger predictive sparing. -/
  | scrubRead (stack : Fin 4) (ecc : Nat)
  /-- R368: A rank copy ends, the layer slots change and the failed rank is RETIRED. -/
  | spareCopyDone (stack : Fin 4) (unread : List Nat)
  /-- R370: The poison fill of a retired layer ends, and its new extent rejoins capacity. -/
  | layerFillDone (stack : Fin 4)
  /-- R378: A received flit is checked against its seeds, accepted, corrected or counted bad. -/
  | flitReceive (port : Fin 14) (bytes : List (BitVec 8)) (parity : List (Fin 4 × BitVec 8))
  /-- R384: At each flit slot, the transmitter sends SMP, LNK or a credited packet flit. -/
  | flitTransmit (port : Fin 14)
  /-- R382: No ACK advances within 400 ns or 200 ns, and the transmitter replays. -/
  | replayTimeout (port : Fin 14)
  /-- R388: A sideband repair message is received and answered. -/
  | repairMessage (port : Fin 14) (op lane token : Nat) (slotW : BitVec 32)
  /-- R387: At slot W, the redundant lane takes over the failed lane. -/
  | repairSwitch (port : Fin 14)
  /-- R387: No REPAIR_ACK arrives by 0.512 µs before W, and the request is cancelled and retried. -/
  | repairAckDeadline (port : Fin 14)
  /-- R390: A 1 ms or 1 s window ends, and its thresholds are evaluated. -/
  | errorWindow (port : Fin 14) (second : Bool)
  /-- R390: No flit is accepted for 2 µs, and the link retrains. -/
  | noFlitTimeout (port : Fin 14)
  /-- R392: Both ends are powered and enabled, and the link starts SB_INIT. -/
  | linkPowerOn (port : Fin 14)
  /-- R392: The sideband initialises, and the link enters MB_INIT. -/
  | sidebandInitDone (port : Fin 14)
  /-- R392: Every data lane is good after replacement, and the link enters MB_TRAIN. -/
  | mbInitDone (port : Fin 14) (faulty : List (Fin 128))
  /-- R392: The link trains at its rate and enters LINK_INIT. -/
  | mbTrainDone (port : Fin 14)
  /-- R393: A PARAM flit from the far end is accepted or puts the link in FAULT. -/
  | paramReceive (port : Fin 14)
  /-- R385: An ALIGN flit sets the sample release schedule, and the link becomes ACTIVE. -/
  | alignFlit (port : Fin 14)
  /-- R392: A bring-up or retrain state exceeds its timeout, and the link enters FAULT. -/
  | linkStateTimeout (port : Fin 14)
  /-- R396: BXE RETRAIN retrains the link from ACTIVE or FAULT. -/
  | retrain (who : Issuer) (port : Fin 14) (tag : Nat)
  /-- R392: A retrain trains within 20 µs and resumes with a replay. -/
  | retrainDone (port : Fin 14) (faulty : List (Fin 128))
  /-- R396: BXE REPAIR requests a repair of a receive lane. -/
  | repair (who : Issuer) (port : Fin 14) (tag : Nat)
  /-- R391: A link in FAULT stops and is handled as a fault of the far region. -/
  | linkFault (link : Fin 7)
  /-- R413: A received packet is consumed, forwarded by DST, discarded or denied. -/
  | packetReceive (port : Fin 14)
  /-- R410: A non-posted request without a completion times out with STATUS TIMEOUT. -/
  | npTimeout (port : Fin 14) (tag : Fin 4096) (source : BitVec 16) (space : Fin 4) (addr : BitVec 64)
  /-- R410: The quarantine of a timed-out tag ends and the tag returns to use. -/
  | tagQuarantineEnd (port : Fin 14) (tag : Fin 4096)
  /-- R411: A DOORBELL message rings a DMA channel or a ring. -/
  | msgDoorbell (source : BitVec 16) (arg0 : BitVec 64)
  /-- R411: An INTR message reports a page's interrupt flags to the hub. -/
  | msgIntr (source : BitVec 16) (arg0 : BitVec 64)
  /-- R411: A FAULT message brings a fault with its SIX to the fault collector. -/
  | msgFault (source : BitVec 16) (arg0 : BitVec 64) (line : List Byte)
  /-- R411: An EVENT message brings an advisory condition to the fault collector. -/
  | msgEvent (source : BitVec 16) (arg0 : BitVec 64) (line : List Byte)
  /-- R411: A FENCE message announces that a region fences itself. -/
  | msgFence (source : BitVec 16) (arg0 : BitVec 64)
  /-- R411: An LTR message updates the latency tolerance at a memory controller. -/
  | msgLtr (region : Fin 8) (source : BitVec 16) (arg0 : BitVec 64)
  /-- R416: A region isolates itself, fences its links and Phoin re-places its tasks. -/
  | regionIsolation (region : Fin 8)
  /-- R417: A guest domain above its limit for 1 ms is switched off with a region fault. -/
  | guestOvercurrent
  /-- R438: TRVc_CTL COMMIT checks SHADOW and makes it valid or ACTIVE. -/
  | trvCommit (who : Issuer) (chan : Fin 512)
  /-- R433: TRVc_CTL START_CHAIN fetches the first chain descriptor and runs it. -/
  | trvStartChain (who : Issuer) (chan : Fin 512)
  /-- R438: TRVc_CTL SUSPEND suspends a channel at the next packet or burst boundary. -/
  | trvSuspend (who : Issuer) (chan : Fin 512)
  /-- R438: TRVc_CTL RESUME resumes a suspended channel. -/
  | trvResume (who : Issuer) (chan : Fin 512)
  /-- R439: TRVc_CTL CANCEL discards ACTIVE and SHADOW and returns the channel to IDLE. -/
  | trvCancel (who : Issuer) (chan : Fin 512)
  /-- R425: A write to TRVc_SH fills SHADOW, or is discarded while SHADOW is busy. -/
  | trvShWrite (who : Issuer) (chan : Fin 512) (index : Fin 32) (value : BitVec 32)
  /-- R434: A channel doorbell sets DB_PEND or re-reads the tail's quarter in TAIL_WAIT. -/
  | trvDoorbell (chan : Fin 512) (value : BitVec 64)
  /-- R433: A descriptor fetch completes, and the descriptor is checked into SHADOW or the chain fails. -/
  | descFetchDone (chan : Fin 512) (ok : Bool) (bytes : List (BitVec 8))
  /-- R428: A channel issues a packet of its traverse in round-robin turn. -/
  | trvPacket (group : Fin 32) (data : List (BitVec 8)) (ok : Bool)
  /-- R432: After its last packet and FLUSH, a traverse writes back, raises its interrupt and counts. -/
  | trvComplete (chan : Fin 512)
  /-- R437: A block asserts its request line, and a burst of the PORT traverse runs. -/
  | portRequest (region : Fin 3) (line : Fin 256) (data : List (BitVec 8))
  /-- R446: RNG OPEN checks a ring's geometry and opens it. -/
  | ringOpen (who : Issuer) (tag : Nat)
  /-- R448: RNG CLOSE closes a ring not bound to a task. -/
  | ringClose (who : Issuer) (tag : Nat)
  /-- R446: RNG SUSPEND stops a ring at an entry boundary. -/
  | ringSuspend (who : Issuer) (tag : Nat)
  /-- R446: RNG RESUME resumes a SUSPENDED, PAUSED or FAULT ring. -/
  | ringResume (who : Issuer) (tag : Nat)
  /-- R445: RNG RESIZE stages growth at the next wrap or resizes an empty suspended ring. -/
  | ringResize (who : Issuer) (tag : Nat)
  /-- R443: A ring doorbell updates PROD or CONS, or is ignored and counted. -/
  | ringDoorbell (ring : Fin 32768) (value : BitVec 64)
  /-- R441: A write to a ring context is honoured only while the ring is CLOSED and host-owned. -/
  | ringContextWrite (ring : Fin 32768) (index : Fin 16) (value : BitVec 32)
  /-- R444: The module writes an entry into a HOST_CONSUMER ring, advances PROD and applies a pending growth. -/
  | ringProduce (ring : Fin 32768) (ok : Bool)
  /-- R444: The module reads an entry from a HOST_PRODUCER ring and advances CONS. -/
  | ringConsume (ring : Fin 32768) (entry : List (BitVec 8)) (ok : Bool)
  /-- R444: HOLDOFF_US elapses, and a pending ring message is sent on its vector. -/
  | ringHoldoffExpiry (ring : Fin 32768)
  /-- R452: A record becomes ready at its source and takes the next SEQ of its stream. -/
  | streamRecordReady (task : BitVec 32)
  /-- R454: A transfer unit leaves on a port whose token bucket allows it. -/
  | streamTransfer (task : BitVec 32) (port : Fin 32)
  /-- R455: The destination takes a record, and its source releases the sheet or advances RD. -/
  | recordTaken (task : BitVec 32) (port : Fin 32)
  /-- R465: An NVMe write completes with success or error, and errors lead to a reissue or a FAILED drive. -/
  | nvmeCompletion (slot : Fin 1008) (ok : Bool)
  /-- R465: An NVMe write has no completion after 5 s and is reissued. -/
  | nvmeWriteTimeout (slot : Fin 1008)
  /-- R464: A drive reads an aperture slot, served from the record bytes and legends. -/
  | apertureRead (prp : Bool) (slot : Fin 1008) (offset : BitVec 20) (len : Fin 4097)
  /-- R458: A BAR2 access reaches user memory at HIF_BAR2_BASE plus its offset. -/
  | bar2Access (offset : BitVec 37) (write : Option (List (BitVec 8))) (len : Fin 4097)
  /-- R480: An LSA ACCEPT opens the flow for DATA. -/
  | lsaAccept (port : Fin 4) (payload : List (BitVec 8))
  /-- R478: An LSA ACK frees acknowledged packets and may trigger a retransmission. -/
  | lsaAck (port : Fin 4) (payload : List (BitVec 8))
  /-- R480: An LSA CLOSED ends a closing flow. -/
  | lsaClosed (port : Fin 4) (payload : List (BitVec 8))
  /-- R480: An LSA RESET fails the flow and its task with LSA_RESET. -/
  | lsaReset (port : Fin 4) (payload : List (BitVec 8))
  /-- R478: OPEN is repeated every 10 ms until ACCEPT arrives. -/
  | lsaOpenRepeat (task : BitVec 32) (port : Fin 4)
  /-- R478: RTO_US passes since a packet's last transmission, and it is retransmitted. -/
  | lsaRtoExpiry (task : BitVec 32) (port : Fin 4) (psn : BitVec 32)
  /-- R480: No ACK arrives for DEAD_MS with data outstanding, and the flow enters STALLED. -/
  | lsaDeadTimeout (task : BitVec 32) (port : Fin 4)
  /-- R480: FAIL_S elapses in STALLED or CLOSING, and the flow fails or closes. -/
  | lsaFailTimeout (task : BitVec 32) (port : Fin 4)
  /-- R475: At least one context packet is sent per second on each port with CONTEXT_EN. -/
  | contextTimer (task : BitVec 32) (port : Fin 4)
  /-- R481: A playback record is read, checked, decrypted, inflated and stripped, or fails the task. -/
  | playbackRecord (task : BitVec 32) (streamId : BitVec 32) (record : List (BitVec 8))
  /-- R482: Playback samples are released into the pipeline at their paced time. -/
  | playbackRelease (task : BitVec 32)
  /-- R486: HIF BIND_BUFFER attaches a host data buffer to a consumer ring. -/
  | bindBuffer (who : Issuer) (tag : Nat)
  /-- R486: HIF UNBIND detaches a buffer from a ring. -/
  | unbind (who : Issuer) (tag : Nat)
  /-- R564: The PCIe link trains and comes up. -/
  | pcieLinkUp (wide : Bool) (speed : Fin 3)
  /-- R602: The 1 ms check of PE_REFCLK may take the link down after two invalid checks. -/
  | peRefclkCheck (valid : Bool)
  /-- R602: The 1 ms check of ETH_REFCLK may put every port in PCS_FAULT. -/
  | ethRefclkCheck (valid : Bool)
  /-- R463: NVI ADD_QUEUE registers an NVMe queue pair. -/
  | addQueue (who : Issuer) (tag : Nat) (record : Option (List (BitVec 8)))
  /-- R487: NVI REMOVE_QUEUE removes an NVMe queue pair. -/
  | removeQueue (who : Issuer) (tag : Nat)
  /-- R466: NVI STORE_INIT writes the superblock of a sheet store namespace. -/
  | storeInit (who : Issuer) (tag : Nat) (ok : Bool)
  /-- R469: NVI STORE_MOUNT reads a drive's superblock and extent headers. -/
  | storeMount (who : Issuer) (tag : Nat) (first last : Option (List (BitVec 8))) (headers : List (List (BitVec 8)))
  /-- R488: An Ethernet port's link goes up or down, and a staged SPEED applies at bring-up. -/
  | ethLinkChange (port : Fin 4) (up : Bool)
  /-- R496: CMP DEFLATE runs a compression job with its stream flags. -/
  | deflate (who : Issuer) (engine : Fin 8) (tag : Nat)
  /-- R496: CMP INFLATE runs a decompression job. -/
  | inflate (who : Issuer) (engine : Fin 8) (tag : Nat)
  /-- R497: A compression job ends DONE with its result, or fails whole on NOSPACE, INTEGRITY or FAULT. -/
  | cmpJobDone (engine : Fin 8) (input : List (BitVec 8)) (ok : Bool)
  /-- R510: CRC FINISH writes the check value and byte count, then reseeds. -/
  | finish (who : Issuer) (unit : Fin 12) (tag : Nat)
  /-- R506: CRC RESEED reloads the register from the seed and the fold value. -/
  | reseed (who : Issuer) (unit : Fin 12) (tag : Nat)
  /-- R507: A write to a CRC data register feeds bytes to the unit, or is discarded. -/
  | crcFeed (who : Issuer) (unit : Fin 12) (port : Fin 5) (value : BitVec 32)
  /-- R539: MC RUN starts a core at a given program address. -/
  | run (who : Issuer) (core : Fin 64) (tag : Nat)
  /-- R539: MC HALT halts a core at an interruptible point. -/
  | halt (who : Issuer) (core : Fin 64) (tag : Nat)
  /-- R539: MC STEP runs a halted core for a number of bundles. -/
  | stepCmd (who : Issuer) (core : Fin 64) (tag : Nat)
  /-- R540: MC SWINT sets the software interrupt pending. -/
  | swint (who : Issuer) (core : Fin 64) (tag : Nat)
  /-- R516: A core issues one bundle, executing its ALU, MAC and move operations. -/
  | bundleIssue (core : Fin 64)
  /-- R527: An enabled pending interrupt saves PC and ST and issues its vector. -/
  | interruptEntry (core : Fin 64)
  /-- R530: A block of input samples is delivered to a free buffer, withheld or dropped. -/
  | inputBlock (task : BitVec 32) (input : Fin 64) (samples marks : Unit)
  /-- R533: A core's fabric line read completes, and the stalled core continues. -/
  | fabReadComplete (core : Fin 64) (ok : Bool) (cycles : Nat)
  /-- R538: At each PERIOD_US boundary, a MEASURE record of the published entries is emitted. -/
  | measureRecord (task : BitVec 32)
  /-- R548: At vertical sync, scan-out latches records, applies staged changes and checks frames. -/
  | vsync (gen : Fin 2) (six : Nat) (annot : Option (List (BitVec 8))) (header image : List (BitVec 8)) (missing : List (Nat × Nat)) (loops : List (Nat × Nat × Nat × Nat)) (ltrNs : Nat)
  /-- R543: A change on DP_HPD starts training or turns the output OFF. -/
  | hpdChange (output : Fin 2) (level : Bool)
  /-- R543: DisplayPort training ends, and the output becomes ACTIVE or UNFIT. -/
  | dpTrainingDone (output : Fin 2) (rate : Fin 3) (lowref : Bool)
  /-- R543: Link status is lost, and the output retrains. -/
  | dpLinkLost (output : Fin 2)
  /-- R550: A GENLOCK_IN pulse drives acquisition, restart or trimming of generator 0. -/
  | genlockPulse (six : Nat)
  /-- R550: Two expected genlock pulses are missing, and generator 0 returns to FREE. -/
  | genlockLost
  /-- R558: DSP RELOCK restarts genlock acquisition. -/
  | relock (who : Issuer) (tag : Nat)
  /-- R552: With 20 µs of data left, scan-out refills its graticule buffer and sends an LTR. -/
  | displayRefill (gen : Fin 2) (ltrNs : Nat)
  /-- R554: In LOW_REFRESH, a check once per nominal frame period restarts frames on a change. -/
  | lowrefCheck (header : List (BitVec 8))
  /-- R559: VIN held at or above 38 V for 10 ms begins start-up. -/
  | vinStart
  /-- R559: VIN falling below 34 V triggers the power-fail sequence. -/
  | undervoltage (last : Fin 8)
  /-- R559: VIN above 80 V for more than 100 ms triggers the power-fail sequence. -/
  | overvoltage (last : Fin 8)
  /-- R563: A start-up step completes, and the next begins. -/
  | startupStep (maddr : Fin 8)
  /-- R565: A start-up step exceeds its time, and its region is isolated or the module stops. -/
  | startupTimeout (region : Fin 8)
  /-- R562: A domain's switch-off condition has held for 100 ms, and the domain is switched off. -/
  | domainOffTimer (domain : Fin 30)
  /-- R562: A domain switch-on completes, and its blocks reset. -/
  | domainOnDone (domain : Fin 30)
  /-- R562: A domain's current protection trips, and the domain switches off with a fault. -/
  | domainTrip (domain : Fin 30)
  /-- R566: PORST_N low resets the module as a cold start. -/
  | boardReset
  /-- R582: MOD MODULE_RESET resets every region except AON. -/
  | moduleReset (who : Issuer) (tag : Nat)
  /-- R567: PFW_N asserted starts the power-fail sequence. -/
  | powerFailTrigger (last : Fin 8)
  /-- R570: A die at 105 °C for 1 ms runs the power-fail sequence with cause THERMAL. -/
  | thermalTrigger (last : Fin 8)
  /-- R573: SEC FW_WRITE programs and verifies the bank not running. -/
  | fwWrite (who : Issuer) (tag : Nat) (image : Option (List Byte))
  /-- R573: SEC FW_ACTIVATE switches to the new image under an admission hold. -/
  | fwActivate (who : Issuer) (tag : Nat)
  /-- R573: The new image has not taken over 40 ms into the hold, and FW_ACTIVATE fails. -/
  | activateTimeout
  /-- R573: SEC FW_RATCHET raises the fused SVN_MIN to the running SVN. -/
  | fwRatchet (who : Issuer) (tag : Nat)
  /-- R576: SEC ATTEST writes a signed attestation report. -/
  | attest (who : Issuer) (tag : Nat) (nonce : Option (List Byte))
  /-- R575: SEC KEY_EXCHANGE derives a transport key by ECDH. -/
  | keyExchange (who : Issuer) (tag : Nat) (buffer : Option (List Byte))
  /-- R575: SEC KEY_LOAD unwraps a stream key into a slot. -/
  | keyLoad (who : Issuer) (tag : Nat) (blob : Option (List Byte))
  /-- R574: SEC KEY_CLEAR clears a key store slot. -/
  | keyClear (who : Issuer) (tag : Nat)
  /-- R577: DEBUG_OPEN zeroises the key store and opens JTAG. -/
  | debugOpen (who : Issuer) (tag : Nat) (lost : Bool)
  /-- R580: The management controller answers an MCTP, PLDM or vendor message on SMBus. -/
  | mctpMessage (msg : MctpMsg)
  /-- R581: Sensors refresh every 100 ms and raise threshold events and THERM_N. -/
  | sensorRefresh (readings : List (Fin 16 × Int))
  /-- R602: SMB_CLK held low for 35 ms makes the module release the bus. -/
  | smbusTimeout
  /-- R602: A character on UART_RX is received or discarded for bad framing. -/
  | uartRxCharacter (char : BitVec 8) (framing : Bool)
  /-- R585: A crossbar plane fails, and unconfirmed packets are resent on the other plane. -/
  | planeFailure (plane : Fin 2)
  /-- R585: One second after the failure, the failed plane runs a self-test and may rejoin. -/
  | planeSelftest (plane : Fin 2) (ok : Bool)
  /-- R586: A lockstep mismatch restarts the management cores from their checkpoint. -/
  | lockstepMismatch
  /-- R586: The management cores write a checkpoint every 10 ms. -/
  | checkpoint
  /-- R587: One second after a Phoin-owned block faults, Phoin soft-resets it. -/
  | faultAutoReset (page : Fin 8192)
  /-- R589: FLT RECOVER brings an isolated region back. -/
  | recover (who : Issuer) (tag : Nat)
  /-- R598: FLT READ_LOG places a log entry in the result window. -/
  | readLog (who : Issuer) (tag : Nat)
  /-- R598: FLT READ_FLASH_LOG places a flash log entry in the result window. -/
  | readFlashLog (who : Issuer) (tag : Nat)
  /-- R590: After a 5 µs hold, the collector releases held entries to Phoin in SIX order. -/
  | collectorRelease
  /-- R595: A module-level fault runs the safe-state sequence. -/
  | safeStateEntry
  /-- R111: SCLK lock is lost at a converter, which drops from STREAMING or PATTERN back to CLOCKING and stops sending frames. -/
  | sclkLockLost (conv : Fin 5)
  /-- R355: The HBM device temperature is refreshed every 1 ms, setting or clearing MEM_REFRESH.HOT and changing tREFI. -/
  | memTempRefresh (stack : Fin 4) (temp : BitVec 16)
  /-- R361: Once the owed refreshes of ENTERING are paid, the self-refresh entry command is issued and the stack enters SELF_REFRESH at the commit point. -/
  | srEntryCommand (stack : Fin 4)
  /-- R559: The 1 ms input monitor measures VIN and sets or clears the advisory VIN_LOW in 34–36 V and VIN_HIGH in 75–100 V. -/
  | pwrVinRefresh (vin current power peak : BitVec 16)
  /-- R602: PORST_N is recognised high, and start-up proceeds from step 2. -/
  | porstNRelease
  /-- R564: Deassertion of PERST_N starts PCIe link training, at the later of that moment and step 8 of start-up. -/
  | perstNDeassert
  /-- R457: A PCIe configuration request is answered with Request Retry Status until ready, or is served, including Resizable BAR sizing and power-state changes. -/
  | configRequest (req : CfgReq) (retry : Bool)
  /-- R410: A completion from host memory arrives over PCIe for a module read of SPACE HOST, such as a ring entry, descriptor, annotation line or key buffer. -/
  | hostReadCompletion (index : Fin 65536) (ok : Bool) (bytes : List Byte)
  /-- R573: The programming and read-back of a firmware bank end, and FW_WRITE ends with UPDATE VERIFIED or INTEGRITY. -/
  | fwWriteDone (ok : Bool)
  /-- R573: The new firmware image takes over within the hold, the boot record is committed to the new bank, and the admission hold is released. -/
  | newImageTakeover
  /-- R589: The self-test, firmware load and stack zeroing of a recovering region end, and RECOVER ends DONE with the region back in capacity, or FAILED SELF_TEST. -/
  | recoverComplete (ok : Bool)
  /-- R54: A write to PG_CMD, or to TRVc_CTL, with an undefined opcode is rejected with code UNSUPPORTED and logged. -/
  | undefinedOpcode (who : Issuer) (key : Fin 8192) (chan : Option (Fin 512)) (opcode : BitVec 16) (tag : Nat)
  /-- R511: A received Ethernet frame that is unknown, malformed or fails its LSA CHECK is discarded and counted in ETH_RX_DROP. -/
  | unknownFrame (port : Fin 4)
  deriving DecidableEq, Repr

end Sys2Proof
end

