-- ==== Sys2Proof/WellFormed.lean ====
section
/-! DEFINITION. Which commands are well formed: the widths and lengths that the spec gives their operands, where the operand's type does not
say them already. The machine takes every command; these are what a sender inside the spec sends. -/

namespace Sys2Proof

/-- TAG of PG_CMD is 8 bits (R49). -/
def tagOk (tag : Nat) : Bool := decide (tag < 256)

/-- A sample index is 72 bits (R76). -/
def sixOk (six : Nat) : Bool := decide (six < 2 ^ 72)

/-- A place in a sample period is in 1/65,536 of it (R77). -/
def fineOk (fine : Nat) : Bool := decide (fine < 65536)

/-- A byte string has the length the spec gives it. -/
def bytesOk (n : Nat) (bs : List Byte) : Bool := decide (bs.length = n)

/-- The same, of bytes that a host read delivers, when it does. -/
def optBytesOk (n : Nat) (bs : Option (List Byte)) : Bool := match bs with | some b => bytesOk n b | none => true

/-- A sample group carries 160 codes of 12 bits (R109). -/
def codesOk (codes : List Nat) : Bool := decide (codes.length = 160) && codes.all fun c => decide (c < 4096)

/-- The inputs of the TDC (R90). -/
def tdcInputOk (input : Nat) : Bool := decide (input < 9)

/-- A PTP sequence number is 16 bits, and its Delay_Req leaves at a SIX and FINE (R73).  -/
def ptpOk (m : PtpMsg) : Bool := decide (m.seq < 65536) && sixOk m.egress.1 && fineOk m.egress.2

/-- A repair message is an operation of 8 bits, a lane of 7 and a token of 16 (R388). -/
def repairOk (op lane token : Nat) : Bool := decide (op < 256) && decide (lane < 128) && decide (token < 65536)

/-- The operands of a command have the widths and lengths of the spec. -/
def Instr.wf (i : Instr) : Bool :=
  match i with
  | .startCmd _ _ tag _ => tagOk tag
  | .stop _ _ tag _ => tagOk tag
  | .suspend _ _ tag => tagOk tag
  | .resume _ _ tag => tagOk tag
  | .cancel _ _ tag => tagOk tag
  | .commit _ _ tag => tagOk tag
  | .query _ _ tag => tagOk tag
  | .pgResAckWrite _ _ _ => true
  | .softReset _ _ => true
  | .freezeWrite _ _ _ => true
  | .enableWrite _ _ _ => true
  | .lockSet _ _ => true
  | .pgIrqWrite _ _ _ _ => true
  | .msixUnmask _ => true
  | .registerWrite _ _ _ _ _ => true
  | .windowWrite _ _ _ _ => true
  | .unmappedAccess _ => true
  | .routeIrq _ tag => tagOk tag
  | .perstNAssert => true
  | .blockResetComplete _ => true
  | .blockFault _ _ => true
  | .cellError _ _ => true
  | .refCheck _ _ _ _ _ => true
  | .tbLocked => true
  | .xtalFault => true
  | .benchmark _ _ => true
  | .tbsSixRead => true
  | .ptpMessage port _ _ kind _ six fine => decide (port < 4) && ptpOk kind && sixOk six && fineOk fine
  | .ppsInEdge six fine _ => sixOk six && fineOk fine
  | .ppsOutEdge six => sixOk six
  | .setTime _ tag => tagOk tag
  | .armSync _ tag => tagOk tag
  | .syncNow _ tag => tagOk tag
  | .syncinEdge six fine _ _ => sixOk six && fineOk fine
  | .syncResetApply => true
  | .armSyncTimeout => true
  | .syncoutRepeat => true
  | .measure _ tag => tagOk tag
  | .freqMeas _ tag => tagOk tag
  | .tdcEdge input _ six fine => tdcInputOk input && sixOk six && fineOk fine
  | .tdcTimeout => true
  | .tdcStartWaitExpiry => true
  | .freqGateEnd => true
  | .afeCommitAt _ _ tag => tagOk tag
  | .afeApply _ => true
  | .afeSettled _ => true
  | .overload _ _ _ six => sixOk six
  | .afeDetUpdate _ _ _ => true
  | .subadcFault _ _ => true
  | .sampleGroupLaunch _ codes => codesOk codes
  | .frameRelease _ _ _ => true
  | .adcCfgWrite _ _ _ => true
  | .sclkLock _ => true
  | .adcTempUpdate _ _ => true
  | .spareAssign _ => true
  | .alignCorrelationDone _ _ _ => true
  | .alignTimeout => true
  | .handover => true
  | .handbackCheck _ _ _ => true
  | .align _ _ tag _ _ _ _ => tagOk tag
  | .ddcCommitAt _ _ tag => tagOk tag
  | .ddcApply _ => true
  | .xfadeDone _ _ => true
  | .chainClean _ => true
  | .dcCfgWrite _ _ _ => true
  | .insCommitAt _ _ tag => tagOk tag
  | .insApply _ => true
  | .fftCommitAt _ _ tag => tagOk tag
  | .fftApply _ => true
  | .spectrum _ _ _ => true
  | .grtTick _ => true
  | .grtFrameBoundary _ => true
  | .grtReadoutDone _ => true
  | .clear _ _ tag => tagOk tag
  | .grtApply _ => true
  | .grtMapSelWrite _ _ _ => true
  | .extTrigEdge _ _ six fine _ => sixOk six && fineOk fine
  | .swTrig _ _ tag => tagOk tag
  | .swTrigAt _ _ tag => tagOk tag
  | .swTrigAtFire _ => true
  | .eventEval _ _ => true
  | .seqWindowExpiry _ _ => true
  | .holdoffEnd _ _ => true
  | .trigOutPulseEnd _ six => sixOk six
  | .ctrCommitAt _ _ tag => tagOk tag
  | .ttrCommitAt _ _ tag => tagOk tag
  | .trgCommitAt _ _ tag => tagOk tag
  | .triggerApply _ _ => true
  | .captureSample _ => true
  | .sheetReady _ => true
  | .releaseSheet _ _ tag => tagOk tag
  | .restart _ _ tag => tagOk tag
  | .writerAutoResume _ => true
  | .recordPlaneWrite _ => true
  | .recordPlaneRdWrite _ _ _ _ => true
  | .traceBoundary _ => true
  | .capApply _ => true
  | .redApply _ => true
  | .sheetCut _ => true
  | .phnDoorbell _ _ => true
  | .phnCqDoorbell _ => true
  | .submit entry _ _ => bytesOk 256 entry
  | .modify entry _ _ => bytesOk 256 entry
  | .taskSuspend entry => bytesOk 256 entry
  | .taskResume entry => bytesOk 256 entry
  | .taskCancel entry => bytesOk 256 entry
  | .taskQuery entry => bytesOk 256 entry
  | .plan entry _ _ => bytesOk 256 entry
  | .pin entry => bytesOk 256 entry
  | .unpin entry => bytesOk 256 entry
  | .reserve entry => bytesOk 256 entry
  | .release entry => bytesOk 256 entry
  | .rebalance entry => bytesOk 256 entry
  | .openRings _ tag => tagOk tag
  | .closeRings _ tag => tagOk tag
  | .taskStart _ _ => true
  | .taskDurationEnd _ => true
  | .migrationTargetStart => true
  | .migrationVerify _ six => sixOk six
  | .migrationHandover => true
  | .migrationRelease => true
  | .migrationRetry => true
  | .predictiveFault _ => true
  | .surveyDue => true
  | .surveyDeferredRetry => true
  | .surveyStepDone _ _ _ _ _ => true
  | .surveyStepTimeout => true
  | .staleBegin => true
  | .staleEnd => true
  | .surveyRequeue _ => true
  | .holdExpiry _ => true
  | .calStoreStart => true
  | .calStoreDone _ => true
  | .calStoreTimeout => true
  | .memRequest _ _ _ _ _ => true
  | .throttleEnd _ _ => true
  | .rhWindowStart _ => true
  | .refreshInterval _ => true
  | .tempBandChange _ => true
  | .delayUpdate _ => true
  | .srIdleExpiry _ => true
  | .srExitDone _ => true
  | .scrubRead _ _ => true
  | .spareCopyDone _ _ => true
  | .layerFillDone _ => true
  | .flitReceive _ bytes _ => bytesOk 64 bytes
  | .flitTransmit _ => true
  | .replayTimeout _ => true
  | .repairMessage _ op lane token _ => repairOk op lane token
  | .repairSwitch _ => true
  | .repairAckDeadline _ => true
  | .errorWindow _ _ => true
  | .noFlitTimeout _ => true
  | .linkPowerOn _ => true
  | .sidebandInitDone _ => true
  | .mbInitDone _ _ => true
  | .mbTrainDone _ => true
  | .paramReceive _ => true
  | .alignFlit _ => true
  | .linkStateTimeout _ => true
  | .retrain _ _ tag => tagOk tag
  | .retrainDone _ _ => true
  | .repair _ _ tag => tagOk tag
  | .linkFault _ => true
  | .packetReceive _ => true
  | .npTimeout _ _ _ _ _ => true
  | .tagQuarantineEnd _ _ => true
  | .msgDoorbell _ _ => true
  | .msgIntr _ _ => true
  | .msgFault _ _ line => bytesOk 64 line
  | .msgEvent _ _ line => bytesOk 64 line
  | .msgFence _ _ => true
  | .msgLtr _ _ _ => true
  | .regionIsolation _ => true
  | .guestOvercurrent => true
  | .trvCommit _ _ => true
  | .trvStartChain _ _ => true
  | .trvSuspend _ _ => true
  | .trvResume _ _ => true
  | .trvCancel _ _ => true
  | .trvShWrite _ _ _ _ => true
  | .trvDoorbell _ _ => true
  | .descFetchDone _ _ bytes => bytesOk 128 bytes
  | .trvPacket _ _ _ => true
  | .trvComplete _ => true
  | .portRequest _ _ _ => true
  | .ringOpen _ tag => tagOk tag
  | .ringClose _ tag => tagOk tag
  | .ringSuspend _ tag => tagOk tag
  | .ringResume _ tag => tagOk tag
  | .ringResize _ tag => tagOk tag
  | .ringDoorbell _ _ => true
  | .ringContextWrite _ _ _ => true
  | .ringProduce _ _ => true
  | .ringConsume _ _ _ => true
  | .ringHoldoffExpiry _ => true
  | .streamRecordReady _ => true
  | .streamTransfer _ _ => true
  | .recordTaken _ _ => true
  | .nvmeCompletion _ _ => true
  | .nvmeWriteTimeout _ => true
  | .apertureRead _ _ _ _ => true
  | .bar2Access _ _ _ => true
  | .lsaAccept _ _ => true
  | .lsaAck _ _ => true
  | .lsaClosed _ _ => true
  | .lsaReset _ _ => true
  | .lsaOpenRepeat _ _ => true
  | .lsaRtoExpiry _ _ _ => true
  | .lsaDeadTimeout _ _ => true
  | .lsaFailTimeout _ _ => true
  | .contextTimer _ _ => true
  | .playbackRecord _ _ _ => true
  | .playbackRelease _ => true
  | .bindBuffer _ tag => tagOk tag
  | .unbind _ tag => tagOk tag
  | .pcieLinkUp _ _ => true
  | .peRefclkCheck _ => true
  | .ethRefclkCheck _ => true
  | .addQueue _ tag _ => tagOk tag
  | .removeQueue _ tag => tagOk tag
  | .storeInit _ tag _ => tagOk tag
  | .storeMount _ tag _ _ _ => tagOk tag
  | .ethLinkChange _ _ => true
  | .deflate _ _ tag => tagOk tag
  | .inflate _ _ tag => tagOk tag
  | .cmpJobDone _ _ _ => true
  | .finish _ _ tag => tagOk tag
  | .reseed _ _ tag => tagOk tag
  | .crcFeed _ _ _ _ => true
  | .run _ _ tag => tagOk tag
  | .halt _ _ tag => tagOk tag
  | .stepCmd _ _ tag => tagOk tag
  | .swint _ _ tag => tagOk tag
  | .bundleIssue _ => true
  | .interruptEntry _ => true
  | .inputBlock _ _ _ _ => true
  | .fabReadComplete _ _ _ => true
  | .measureRecord _ => true
  | .vsync _ six _ _ _ _ _ _ => sixOk six
  | .hpdChange _ _ => true
  | .dpTrainingDone _ _ _ => true
  | .dpLinkLost _ => true
  | .genlockPulse six => sixOk six
  | .genlockLost => true
  | .relock _ tag => tagOk tag
  | .displayRefill _ _ => true
  | .lowrefCheck _ => true
  | .vinStart => true
  | .undervoltage _ => true
  | .overvoltage _ => true
  | .startupStep _ => true
  | .startupTimeout _ => true
  | .domainOffTimer _ => true
  | .domainOnDone _ => true
  | .domainTrip _ => true
  | .boardReset => true
  | .moduleReset _ tag => tagOk tag
  | .powerFailTrigger _ => true
  | .thermalTrigger _ => true
  | .fwWrite _ tag _ => tagOk tag
  | .fwActivate _ tag => tagOk tag
  | .activateTimeout => true
  | .fwRatchet _ tag => tagOk tag
  | .attest _ tag nonce => tagOk tag && optBytesOk 32 nonce
  | .keyExchange _ tag _ => tagOk tag
  | .keyLoad _ tag _ => tagOk tag
  | .keyClear _ tag => tagOk tag
  | .debugOpen _ tag _ => tagOk tag
  | .mctpMessage _ => true
  | .sensorRefresh _ => true
  | .smbusTimeout => true
  | .uartRxCharacter _ _ => true
  | .planeFailure _ => true
  | .planeSelftest _ _ => true
  | .lockstepMismatch => true
  | .checkpoint => true
  | .faultAutoReset _ => true
  | .recover _ tag => tagOk tag
  | .readLog _ tag => tagOk tag
  | .readFlashLog _ tag => tagOk tag
  | .collectorRelease => true
  | .safeStateEntry => true
  | .sclkLockLost _ => true
  | .memTempRefresh _ _ => true
  | .srEntryCommand _ => true
  | .pwrVinRefresh _ _ _ _ => true
  | .porstNRelease => true
  | .perstNDeassert => true
  | .configRequest _ _ => true
  | .hostReadCompletion _ _ _ => true
  | .fwWriteDone _ => true
  | .newImageTakeover => true
  | .recoverComplete _ => true
  | .undefinedOpcode _ _ _ _ tag => tagOk tag
  | .unknownFrame _ => true

end Sys2Proof
end

