-- ==== Sys2Proof/Machine/Fields.lean ====
section
/-! DEFINITION. Register fields and their access types (R6, R43), block types and the page catalogue (R37-R41), and
the sparse maps that registers, pages and tables are kept in. -/

namespace Sys2Proof.Machine

/-! ### Sparse maps: lists of (key, value) with strictly rising keys; an unlisted key has its default. -/

/-- The value at a key; `d` gives the value of an unlisted key. -/
def mget {α : Type} (d : Nat → α) : List (Nat × α) → Nat → α
  | [], k => d k
  | (a, v) :: m, k => if k = a then v else mget d m k

/-- Write the value at a key, keeping the keys strictly rising. -/
def mput {α : Type} : List (Nat × α) → Nat → α → List (Nat × α)
  | [], k, v => [(k, v)]
  | (a, w) :: m, k, v =>
    if k < a then (k, v) :: (a, w) :: m
    else if k = a then (k, v) :: m
    else (a, w) :: mput m k v

/-- Remove a key. -/
def mdel {α : Type} : List (Nat × α) → Nat → List (Nat × α)
  | [], _ => []
  | (a, w) :: m, k => if k = a then mdel m k else (a, w) :: mdel m k

/-- The entry at a key, when the key is listed. -/
def mfind {α : Type} : List (Nat × α) → Nat → Option α
  | [], _ => none
  | (a, v) :: m, k => if k = a then some v else mfind m k

/-- The keys rise strictly from above `lo`. -/
def mrising {α : Type} : Option Nat → List (Nat × α) → Bool
  | _, [] => true
  | none, (a, _) :: m => mrising (some a) m
  | some b, (a, _) :: m => decide (b < a) && mrising (some a) m

/-! ### Bit fields of a word. -/

/-- A field of a block register: the register's offset in its page and the field's bits [hi:lo]. -/
structure RegField where
  off : Nat
  hi : Nat
  lo : Nat
  deriving DecidableEq, Repr

/-- The value of bits [hi:lo] of a natural number. -/
def bitsOf (w hi lo : Nat) : Nat := w / 2 ^ lo % 2 ^ (hi + 1 - lo)

/-- A natural number with bits [hi:lo] replaced by `v` (its low bits). -/
def setBits (w hi lo v : Nat) : Nat :=
  w - bitsOf w hi lo * 2 ^ lo + (v % 2 ^ (hi + 1 - lo)) * 2 ^ lo

/-- The value of a field of a word. -/
def wget (w : Word) (hi lo : Nat) : Nat := bitsOf w.toNat hi lo

/-- A word with a field replaced. -/
def wset (w : Word) (hi lo v : Nat) : Word := BitVec.ofNat 32 (setBits w.toNat hi lo v)

/-- Bit `i` of a natural number. -/
def nbit (w i : Nat) : Bool := w / 2 ^ i % 2 == 1

/-- Bit `i` of a word. -/
def wbit (w : Word) (i : Nat) : Bool := nbit w.toNat i

/-- A natural number with one bit set or cleared. -/
def putBit (w i : Nat) (b : Bool) : Nat := setBits w i i (if b then 1 else 0)

/-- A two's complement field of `n` bits read as an integer. -/
def signedOf (n v : Nat) : Int := if v < 2 ^ (n - 1) then (v : Int) else (v : Int) - (2 ^ n : Nat)

/-- An integer as an `n`-bit two's complement field. -/
def unsignedOf (n : Nat) (v : Int) : Nat := (v % ((2 ^ n : Nat) : Int)).toNat

/-- Is bit i of the set `m` given as a number. -/
def boolNat (b : Bool) : Nat := if b then 1 else 0

/-- Saturate an integer to a signed width. -/
def satSigned (n : Nat) (v : Int) : Int :=
  let m : Int := (2 ^ (n - 1) : Nat)
  if v ≥ m then m - 1 else if v < -m then -m else v

/-! ### Access types and register descriptions. -/

/-- The access types of R43. -/
inductive Access where
  | rw | ro | wo | w1c | w1s | rwl
  deriving DecidableEq, Repr

/-- One field of a register table: bits, access, reset value and the range of values in force (R6, R43). -/
structure FieldDesc where
  hi : Nat
  lo : Nat
  acc : Access
  reset : Nat
  min : Nat
  max : Nat
  deriving DecidableEq, Repr

/-- A register, or an array of registers, of a register table. -/
structure RegDesc where
  off : Nat
  stride : Nat
  count : Nat
  staged : Bool
  fields : List FieldDesc
  deriving DecidableEq, Repr

/-- The index of `off` in the register (array) `r`, when it lies in it. -/
def RegDesc.indexOf? (r : RegDesc) (off : Nat) : Option Nat :=
  if off < r.off then none
  else if r.count = 1 then (if off = r.off then some 0 else none)
  else if (off - r.off) % r.stride = 0 ∧ (off - r.off) / r.stride < r.count then some ((off - r.off) / r.stride)
  else none

/-! ### Blocks and pages (R37-R40). -/

/-- The block of a page. -/
inductive BlockType where
  | mod | phn | tbs | tdc | svy | sec | pwr | flt | hif | eth | nvi | str | cmp | crc | dsp | trv | rng | bxe
  | rid | ddc | ins | fft | ctr | ttr | grt | cap | red | trg | mem | mc | adc | trm | afe
  /-- A page that the catalogue does not list. -/
  | none
  deriving DecidableEq, Repr

/-- PG_OWNER.OWNER (R41). -/
inductive Owner where
  | phoin | host | firmware | guest
  deriving DecidableEq, Repr

/-- PG_STAT.STATE (R41). -/
inductive BlockState where
  | off | reset | idle | active | suspended | frozen | fault
  deriving DecidableEq, Repr

/-- The number of a block state in PG_STAT. -/
def BlockState.code : BlockState → Nat
  | .off => 0 | .reset => 1 | .idle => 2 | .active => 3 | .suspended => 4 | .frozen => 5 | .fault => 6

/-- The number of an owner in PG_OWNER. -/
def Owner.code : Owner → Nat
  | .phoin => 0 | .host => 1 | .firmware => 2 | .guest => 3

/-- The page key of R63: region index × 1,024 + page. -/
def keyOf (region page : Nat) : Nat := region * 1024 + page

/-- The region index of a page key. -/
def keyRegion (key : Nat) : Nat := key / 1024

/-- The page number of a page key. -/
def keyPage (key : Nat) : Nat := key % 1024

/-- The block of pipeline page base + n (R38). -/
def pipePage : Nat → BlockType
  | 0 => .ddc | 1 => .ins | 2 => .fft | 3 => .ctr | 4 => .ttr | 5 => .grt | 6 => .cap | 7 => .red | _ => .none

/-- The pages of region H (R37). -/
def hubBlock (p : Nat) : BlockType :=
  if p = 0x000 then .mod else if p = 0x001 then .phn else if p = 0x002 then .tbs else if p = 0x003 then .tdc
  else if p = 0x004 then .svy else if p = 0x005 then .sec else if p = 0x006 then .pwr else if p = 0x007 then .flt
  else if p = 0x008 then .hif else if 0x009 ≤ p ∧ p ≤ 0x00C then .eth else if p = 0x00D then .nvi
  else if p = 0x00E then .str else if 0x010 ≤ p ∧ p ≤ 0x017 then .cmp else if 0x018 ≤ p ∧ p ≤ 0x01B then .crc
  else if p = 0x020 then .dsp else if 0x040 ≤ p ∧ p ≤ 0x04F then .trv else if p = 0x080 then .rng
  else if 0x3F0 ≤ p ∧ p ≤ 0x3F2 then .bxe else .none

/-- The pages of an analysis region (R38). -/
def analysisBlock (p : Nat) : BlockType :=
  if p = 0x000 then .rid
  else if 0x010 ≤ p ∧ p ≤ 0x037 then pipePage (p % 16)
  else if p = 0x040 then .trg else if p = 0x050 ∨ p = 0x051 then .mem else if 0x060 ≤ p ∧ p ≤ 0x067 then .trv
  else if 0x080 ≤ p ∧ p ≤ 0x09F then .mc else if 0x0A0 ≤ p ∧ p ≤ 0x0A3 then .crc
  else if 0x3F0 ≤ p ∧ p ≤ 0x3F2 then .bxe else .none

/-- The pages of a converter region (R39). -/
def converterBlock (p : Nat) : BlockType :=
  if p = 0x000 then .rid else if p = 0x001 then .adc else if p = 0x002 then .trm else if p = 0x003 then .afe
  else if p = 0x3F0 then .bxe else .none

/-- The block of a page key (R37-R39). -/
def blockOf (key : Nat) : BlockType :=
  if keyRegion key = 0 then hubBlock (keyPage key)
  else if keyRegion key ≤ 2 then analysisBlock (keyPage key)
  else if keyRegion key ≤ 7 then converterBlock (keyPage key)
  else .none

/-- The block type code of PG_ID (R37-R39). -/
def BlockType.code : BlockType → Nat
  | .mod => 0x01 | .phn => 0x02 | .tbs => 0x03 | .tdc => 0x04 | .svy => 0x05 | .sec => 0x06 | .pwr => 0x07
  | .flt => 0x08 | .hif => 0x09 | .eth => 0x0A | .nvi => 0x0B | .str => 0x0C | .cmp => 0x0D | .crc => 0x0E
  | .dsp => 0x0F | .trv => 0x10 | .rng => 0x11 | .bxe => 0x12 | .rid => 0x20 | .ddc => 0x21 | .ins => 0x22
  | .fft => 0x23 | .ctr => 0x24 | .ttr => 0x25 | .grt => 0x26 | .cap => 0x27 | .red => 0x28 | .trg => 0x29
  | .mem => 0x2A | .mc => 0x2B | .adc => 0x30 | .trm => 0x31 | .afe => 0x32 | .none => 0

/-- The owner of a page at reset (R37-R39). -/
def ownerAtReset (key : Nat) : Owner :=
  match blockOf key with
  | .mod | .phn | .tbs | .tdc | .sec | .flt | .hif | .eth | .nvi | .rng => .host
  | .svy | .pwr | .bxe | .rid | .mem | .trm => .firmware
  | _ => .phoin

/-- The link of a BXE page key (R10). -/
def linkOf (key : Nat) : Nat :=
  if keyRegion key = 0 then 4 + keyPage key % 4
  else if keyRegion key = 1 then (if keyPage key = 0x3F2 then 5 else keyPage key % 4)
  else if keyRegion key = 2 then (if keyPage key = 0x3F2 then 6 else 2 + keyPage key % 4)
  else keyRegion key - 3

/-- The region at the far end of a BXE page's link (R10). -/
def farRegion (key : Nat) : Nat :=
  match linkOf key, keyRegion key with
  | 0, 3 => 1 | 0, _ => 3
  | 1, 4 => 1 | 1, _ => 4
  | 2, 5 => 2 | 2, _ => 5
  | 3, 6 => 2 | 3, _ => 6
  | 4, 7 => 0 | 4, _ => 7
  | 5, 1 => 0 | 5, _ => 1
  | _, 2 => 0 | _, _ => 2

/-- The BXE page key of the other end of a link (R10). -/
def farEnd (key : Nat) : Nat :=
  match linkOf key, keyRegion key with
  | 0, 3 => keyOf 1 0x3F0 | 0, _ => keyOf 3 0x3F0
  | 1, 4 => keyOf 1 0x3F1 | 1, _ => keyOf 4 0x3F0
  | 2, 5 => keyOf 2 0x3F0 | 2, _ => keyOf 5 0x3F0
  | 3, 6 => keyOf 2 0x3F1 | 3, _ => keyOf 6 0x3F0
  | 4, 7 => keyOf 0 0x3F0 | 4, _ => keyOf 7 0x3F0
  | 5, 1 => keyOf 0 0x3F1 | 5, _ => keyOf 1 0x3F2
  | _, 2 => keyOf 0 0x3F2 | _, _ => keyOf 2 0x3F2

/-- A BXE page of a wide link, BXL-W (R10). -/
def linkWide (key : Nat) : Bool := decide (5 ≤ linkOf key)

/-- The instance number of PG_ID (R37-R39). -/
def instanceOf (key : Nat) : Nat :=
  match blockOf key with
  | .eth => keyPage key - 0x009
  | .cmp => keyPage key - 0x010
  | .crc => if keyRegion key = 0 then keyPage key - 0x018 else keyPage key - 0x0A0
  | .trv => if keyRegion key = 0 then keyPage key - 0x040 else keyPage key - 0x060
  | .bxe => linkOf key
  | .ddc | .ins | .fft | .ctr | .ttr | .grt | .cap | .red => keyPage key / 16 - 1
  | .mem => 2 * (keyRegion key - 1) + (keyPage key - 0x050)
  | .mc => 32 * (keyRegion key - 1) + (keyPage key - 0x080)
  | .adc | .trm | .afe => keyRegion key - 3
  | .rid => if keyRegion key ≥ 3 then keyRegion key - 3 else 0
  | _ => 0

/-- PG_CAP bits 31:27 of a page (R617): RESERVABLE, RESULT, PROGRESS, SUSPENDABLE, LOCKABLE. -/
def pageCap (key : Nat) : Nat :=
  match blockOf key with
  | .ddc | .ins | .fft | .ctr | .ttr | .grt | .cap | .red | .trg | .mc => 0b11010
  | .cmp => 0b11100
  | .crc | .trv | .dsp | .adc => 0b11000
  | .afe => 0b11001
  | .str => 0b01000
  | .tbs => 0b01001
  | .sec | .mem => 0b01100
  | .none => 0
  | _ => 0b01000

/-- The switched power domain that supplies a page, when one does (R8, R561; log entry 12). -/
def domainOf (key : Nat) : Option Nat :=
  if keyRegion key = 0 then
    match blockOf key with
    | .hif => some 21
    | .eth => if keyPage key ≤ 0x00A then some 22 else some 23
    | .dsp => some 24
    | .cmp => some 25
    | .phn | .nvi | .str | .crc | .trv | .rng | .bxe | .svy => some 20
    | _ => Option.none
  else if keyRegion key ≤ 2 then
    let b := if keyRegion key = 1 then 10 else 15
    match blockOf key with
    | .ddc | .ins | .fft | .ctr | .ttr | .grt | .cap | .red => some (b + instanceOf key)
    | .mc => some (b + 3)
    | .mem => some (b + 4)
    | _ => Option.none
  else
    match blockOf key with
    | .afe | .trm => some (keyRegion key - 3)
    | .adc | .bxe => some (keyRegion key + 2)
    | _ => Option.none

/-- A page key in the catalogue (R63). -/
def keyListed (key : Nat) : Bool := decide (blockOf key ≠ .none)

/-! ### Page keys by name. -/

def keyMOD : Nat := keyOf 0 0x000
def keyPHN : Nat := keyOf 0 0x001
def keyTBS : Nat := keyOf 0 0x002
def keyTDC : Nat := keyOf 0 0x003
def keySVY : Nat := keyOf 0 0x004
def keySEC : Nat := keyOf 0 0x005
def keyPWR : Nat := keyOf 0 0x006
def keyFLT : Nat := keyOf 0 0x007
def keyHIF : Nat := keyOf 0 0x008
def keyETH (p : Nat) : Nat := keyOf 0 (0x009 + p)
def keyNVI : Nat := keyOf 0 0x00D
def keySTR : Nat := keyOf 0 0x00E
def keyCMP (n : Nat) : Nat := keyOf 0 (0x010 + n)
def keyDSP : Nat := keyOf 0 0x020
def keyRNG : Nat := keyOf 0 0x080

/-- Page base + n of pipeline p = 3 × (region index − 1) + pipeline number (R32, R38). -/
def keyPipe (p n : Nat) : Nat := keyOf (1 + p / 3) (0x010 + 0x010 * (p % 3) + n)
def keyDDC (p : Nat) : Nat := keyPipe p 0
def keyINS (p : Nat) : Nat := keyPipe p 1
def keyFFT (p : Nat) : Nat := keyPipe p 2
def keyCTR (p : Nat) : Nat := keyPipe p 3
def keyTTR (p : Nat) : Nat := keyPipe p 4
def keyGRT (p : Nat) : Nat := keyPipe p 5
def keyCAP (p : Nat) : Nat := keyPipe p 6
def keyRED (p : Nat) : Nat := keyPipe p 7

/-- The trigger matrix of analysis region 1 + r (R38). -/
def keyTRG (r : Nat) : Nat := keyOf (1 + r) 0x040
/-- The controller of stack m (R9). -/
def keyMEM (m : Nat) : Nat := keyOf (1 + m / 2) (0x050 + m % 2)
/-- The page of measurement core n (R32). -/
def keyMC (n : Nat) : Nat := keyOf (1 + n / 32) (0x080 + n % 32)
/-- The pages of converter c (R39). -/
def keyADC (c : Nat) : Nat := keyOf (3 + c) 0x001
def keyTRM (c : Nat) : Nat := keyOf (3 + c) 0x002
def keyAFE (c : Nat) : Nat := keyOf (3 + c) 0x003

/-- The pipeline of a pipeline page key. -/
def pipeOfKey (key : Nat) : Nat := 3 * (keyRegion key - 1) + (keyPage key / 16 - 1)

end Sys2Proof.Machine
end

