-- ==== Sys2Proof/Machine/Catalogue.lean ====
section
/-! DEFINITION. The register catalogue: the page catalogue of R37-R39 (which page key is which block, its
instance and its owner at reset), and for every block-specific register of the spec's register tables its offset,
its fields, their access types, reset values and legal ranges. One row per register of the spec, in the spec's order;
an array of registers is one row with a count and a stride. -/

namespace Sys2Proof.Machine

/-! Page TBS (chapter 03, R96). -/
def Reg.TBS_CFG.REFOUT_SEL : RegField := ⟨0x100, 7, 7⟩
def Reg.TBS_CFG.PPS_IN_EN : RegField := ⟨0x100, 6, 6⟩
def Reg.TBS_CFG.PTP_EN : RegField := ⟨0x100, 5, 5⟩
def Reg.TBS_CFG.REF_EN : RegField := ⟨0x100, 4, 4⟩
def Reg.TBS_CFG.REF_FREQ : RegField := ⟨0x100, 1, 0⟩
def Reg.TBS_STATE.PPS_PRESENT : RegField := ⟨0x104, 10, 10⟩
def Reg.TBS_STATE.PTP_LOCKED : RegField := ⟨0x104, 9, 9⟩
def Reg.TBS_STATE.REF_PRESENT : RegField := ⟨0x104, 8, 8⟩
def Reg.TBS_STATE.TIME_VALID : RegField := ⟨0x104, 7, 7⟩
def Reg.TBS_STATE.FREQ_SRC : RegField := ⟨0x104, 6, 4⟩
def Reg.TBS_STATE.TB_STATE : RegField := ⟨0x104, 2, 0⟩
def Reg.TBS_AGEING.ADJ : RegField := ⟨0x108, 23, 0⟩
def Reg.TBS_AGE_RATE : RegField := ⟨0x10c, 31, 0⟩
def Reg.TBS_STEER : RegField := ⟨0x110, 31, 0⟩
def Reg.TBS_PTP_CFG.TRANSPORT : RegField := ⟨0x114, 11, 10⟩
def Reg.TBS_PTP_CFG.PORT : RegField := ⟨0x114, 9, 8⟩
def Reg.TBS_PTP_CFG.DOMAIN : RegField := ⟨0x114, 6, 0⟩
def Reg.TBS_SYNC_CFG.EDGE : RegField := ⟨0x118, 22, 22⟩
def Reg.TBS_SYNC_CFG.SYNCOUT : RegField := ⟨0x118, 21, 20⟩
def Reg.TBS_SYNC_CFG.LOAD_SIX : RegField := ⟨0x118, 18, 18⟩
def Reg.TBS_SYNC_CFG.MODE : RegField := ⟨0x118, 17, 16⟩
def Reg.TBS_SYNC_CFG.DELAY : RegField := ⟨0x118, 15, 0⟩
def Reg.TBS_SYNC_TIMEOUT.MS : RegField := ⟨0x11c, 15, 0⟩
def Reg.TBS_SYNC_SIX0 : RegField := ⟨0x120, 31, 0⟩
def Reg.TBS_SYNC_SIX1 : RegField := ⟨0x124, 31, 0⟩
def Reg.TBS_SYNC_SIX2.SIX : RegField := ⟨0x128, 7, 0⟩
def Reg.TBS_SIX0 : RegField := ⟨0x130, 31, 0⟩
def Reg.TBS_SIX1 : RegField := ⟨0x134, 31, 0⟩
def Reg.TBS_SIX2.SIX : RegField := ⟨0x138, 7, 0⟩
def Reg.TBS_SYNC_STAT.SLIPS : RegField := ⟨0x140, 31, 16⟩
def Reg.TBS_SYNC_STAT.IGNORED : RegField := ⟨0x140, 15, 0⟩
def Reg.TBS_SYNC_EDGE0 : RegField := ⟨0x144, 31, 0⟩
def Reg.TBS_SYNC_EDGE1 : RegField := ⟨0x148, 31, 0⟩
def Reg.TBS_SYNC_EDGE2.FINE : RegField := ⟨0x14c, 31, 16⟩
def Reg.TBS_SYNC_EDGE2.SIX : RegField := ⟨0x14c, 7, 0⟩

/-- The registers of page TBS, R96. -/
def regTableTBS : List RegDesc :=
  [⟨0x100, 0x0, 1, false, [⟨7, 7, .rw, 0, 0, 1⟩, ⟨6, 6, .rw, 1, 0, 1⟩, ⟨5, 5, .rw, 0, 0, 1⟩, ⟨4, 4, .rw, 1, 0, 1⟩, ⟨1, 0, .rw, 2, 0, 2⟩]⟩,
   ⟨0x104, 0x0, 1, false, [⟨10, 10, .ro, 0, 0, 1⟩, ⟨9, 9, .ro, 0, 0, 1⟩, ⟨8, 8, .ro, 0, 0, 1⟩, ⟨7, 7, .ro, 0, 0, 1⟩, ⟨6, 4, .ro, 0, 0, 7⟩, ⟨2, 0, .ro, 0, 0, 7⟩]⟩,
   ⟨0x108, 0x0, 1, false, [⟨23, 0, .rwl, 0, 0, 16777215⟩]⟩,
   ⟨0x10c, 0x0, 1, false, [⟨31, 0, .rw, 0, 0, 4294967295⟩]⟩,
   ⟨0x110, 0x0, 1, false, [⟨31, 0, .ro, 0, 0, 4294967295⟩]⟩,
   ⟨0x114, 0x0, 1, false, [⟨11, 10, .rw, 0, 0, 2⟩, ⟨9, 8, .rw, 0, 0, 3⟩, ⟨6, 0, .rw, 0, 0, 127⟩]⟩,
   ⟨0x118, 0x0, 1, false, [⟨22, 22, .rw, 0, 0, 1⟩, ⟨21, 20, .rw, 0, 0, 2⟩, ⟨18, 18, .rw, 0, 0, 1⟩, ⟨17, 16, .rw, 0, 0, 1⟩, ⟨15, 0, .rw, 64, 16, 65535⟩]⟩,
   ⟨0x11c, 0x0, 1, false, [⟨15, 0, .rw, 1000, 1, 60000⟩]⟩,
   ⟨0x120, 0x0, 1, false, [⟨31, 0, .rw, 0, 0, 4294967295⟩]⟩,
   ⟨0x124, 0x0, 1, false, [⟨31, 0, .rw, 0, 0, 4294967295⟩]⟩,
   ⟨0x128, 0x0, 1, false, [⟨7, 0, .rw, 0, 0, 255⟩]⟩,
   ⟨0x130, 0x0, 1, false, [⟨31, 0, .ro, 0, 0, 4294967295⟩]⟩,
   ⟨0x134, 0x0, 1, false, [⟨31, 0, .ro, 0, 0, 4294967295⟩]⟩,
   ⟨0x138, 0x0, 1, false, [⟨7, 0, .ro, 0, 0, 255⟩]⟩,
   ⟨0x140, 0x0, 1, false, [⟨31, 16, .ro, 0, 0, 65535⟩, ⟨15, 0, .ro, 0, 0, 65535⟩]⟩,
   ⟨0x144, 0x0, 1, false, [⟨31, 0, .ro, 0, 0, 4294967295⟩]⟩] ++
  [⟨0x148, 0x0, 1, false, [⟨31, 0, .ro, 0, 0, 4294967295⟩]⟩,
   ⟨0x14c, 0x0, 1, false, [⟨31, 16, .ro, 0, 0, 65535⟩, ⟨7, 0, .ro, 0, 0, 255⟩]⟩]

/-! Page TDC (chapter 03, R97). -/
def Reg.TDC_CFG.STOP_COUNT : RegField := ⟨0x100, 12, 8⟩
def Reg.TDC_CFG.STOP_EDGE : RegField := ⟨0x100, 5, 5⟩
def Reg.TDC_CFG.START_EDGE : RegField := ⟨0x100, 4, 4⟩
def Reg.TDC_CFG.START_IN : RegField := ⟨0x100, 3, 0⟩
def Reg.TDC_STOP_MASK.MASK : RegField := ⟨0x104, 7, 0⟩
def Reg.TDC_TIMEOUT.UNITS : RegField := ⟨0x108, 29, 0⟩
def Reg.TDC_MISS : RegField := ⟨0x10c, 31, 0⟩
def Reg.TDC_START_WAIT.MS : RegField := ⟨0x110, 15, 0⟩
def Reg.TDC_STOP_LO (n : Nat) : RegField := ⟨0x200 + 0x8 * n, 31, 0⟩
def Reg.TDC_STOP_HI.VALID (n : Nat) : RegField := ⟨0x204 + 0x8 * n, 31, 31⟩
def Reg.TDC_STOP_HI.UNDER_RES (n : Nat) : RegField := ⟨0x204 + 0x8 * n, 29, 29⟩
def Reg.TDC_STOP_HI.EARLY (n : Nat) : RegField := ⟨0x204 + 0x8 * n, 28, 28⟩
def Reg.TDC_STOP_HI.INPUT (n : Nat) : RegField := ⟨0x204 + 0x8 * n, 19, 16⟩
def Reg.TDC_STOP_HI.INTERVAL_HI (n : Nat) : RegField := ⟨0x204 + 0x8 * n, 15, 0⟩

/-- The registers of page TDC, R97. -/
def regTableTDC : List RegDesc :=
  [⟨0x100, 0x0, 1, false, [⟨12, 8, .rw, 1, 1, 16⟩, ⟨5, 5, .rw, 0, 0, 1⟩, ⟨4, 4, .rw, 0, 0, 1⟩, ⟨3, 0, .rw, 0, 0, 7⟩]⟩,
   ⟨0x104, 0x0, 1, false, [⟨7, 0, .rw, 2, 0, 255⟩]⟩,
   ⟨0x108, 0x0, 1, false, [⟨29, 0, .rw, 100, 1, 1000000000⟩]⟩,
   ⟨0x10c, 0x0, 1, false, [⟨31, 0, .ro, 0, 0, 4294967295⟩]⟩,
   ⟨0x110, 0x0, 1, false, [⟨15, 0, .rw, 1000, 1, 60000⟩]⟩,
   ⟨0x200, 0x8, 16, false, [⟨31, 0, .ro, 0, 0, 4294967295⟩]⟩,
   ⟨0x204, 0x8, 16, false, [⟨31, 31, .ro, 0, 0, 1⟩, ⟨29, 29, .ro, 0, 0, 1⟩, ⟨28, 28, .ro, 0, 0, 1⟩, ⟨19, 16, .ro, 0, 0, 15⟩, ⟨15, 0, .ro, 0, 0, 65535⟩]⟩]

/-! Page ADC (chapter 04, R130). -/
def Reg.ADC_CFG.PATTERN : RegField := ⟨0x100, 12, 10⟩
def Reg.ADC_CFG.BOND_ROLE : RegField := ⟨0x100, 9, 8⟩
def Reg.ADC_CFG.PHASE : RegField := ⟨0x100, 7, 7⟩
def Reg.ADC_CFG.ALIGN_SHIFT : RegField := ⟨0x100, 4, 0⟩
def Reg.ADC_STAT.CONV_STATE : RegField := ⟨0x104, 15, 12⟩
def Reg.ADC_STAT.LOCKED : RegField := ⟨0x104, 8, 8⟩
def Reg.ADC_STAT.TRIMS_LOADED : RegField := ⟨0x104, 2, 2⟩
def Reg.ADC_STAT.FRAME_ALIGNED : RegField := ⟨0x104, 1, 1⟩
def Reg.ADC_STAT.SCLK_LOCK : RegField := ⟨0x104, 0, 0⟩
def Reg.ADC_TEMP.TEMP : RegField := ⟨0x108, 15, 0⟩
def Reg.ADC_OVR_COUNT : RegField := ⟨0x10c, 31, 0⟩
def Reg.ADC_SPARE_STAT.LAST_RESULT : RegField := ⟨0x110, 23, 16⟩
def Reg.ADC_SPARE_STAT.BOND_SLOT : RegField := ⟨0x110, 9, 8⟩
def Reg.ADC_SPARE_STAT.TARGET : RegField := ⟨0x110, 6, 4⟩
def Reg.ADC_SPARE_STAT.SPARE_STATE : RegField := ⟨0x110, 2, 0⟩
def Reg.ADC_HANDOVER0 : RegField := ⟨0x114, 31, 0⟩
def Reg.ADC_HANDOVER1 : RegField := ⟨0x118, 31, 0⟩
def Reg.ADC_HANDOVER2.SIX : RegField := ⟨0x11c, 7, 0⟩
def Reg.ADC_SUB_FAULT0 : RegField := ⟨0x120, 31, 0⟩
def Reg.ADC_SUB_FAULT1 : RegField := ⟨0x124, 31, 0⟩

/-- The registers of page ADC, R130. -/
def regTableADC : List RegDesc :=
  [⟨0x100, 0x0, 1, false, [⟨12, 10, .rw, 0, 0, 2⟩, ⟨9, 8, .rw, 0, 0, 2⟩, ⟨7, 7, .rw, 0, 0, 1⟩, ⟨4, 0, .rw, 0, 0, 31⟩]⟩,
   ⟨0x104, 0x0, 1, false, [⟨15, 12, .ro, 0, 0, 15⟩, ⟨8, 8, .ro, 0, 0, 1⟩, ⟨2, 2, .ro, 0, 0, 1⟩, ⟨1, 1, .ro, 0, 0, 1⟩, ⟨0, 0, .ro, 0, 0, 1⟩]⟩,
   ⟨0x108, 0x0, 1, false, [⟨15, 0, .ro, 0, 0, 65535⟩]⟩,
   ⟨0x10c, 0x0, 1, false, [⟨31, 0, .ro, 0, 0, 4294967295⟩]⟩,
   ⟨0x110, 0x0, 1, false, [⟨23, 16, .ro, 0, 0, 255⟩, ⟨9, 8, .ro, 0, 0, 3⟩, ⟨6, 4, .ro, 0, 0, 7⟩, ⟨2, 0, .ro, 0, 0, 7⟩]⟩,
   ⟨0x114, 0x0, 1, false, [⟨31, 0, .ro, 0, 0, 4294967295⟩]⟩,
   ⟨0x118, 0x0, 1, false, [⟨31, 0, .ro, 0, 0, 4294967295⟩]⟩,
   ⟨0x11c, 0x0, 1, false, [⟨7, 0, .ro, 0, 0, 255⟩]⟩,
   ⟨0x120, 0x0, 1, false, [⟨31, 0, .ro, 0, 0, 4294967295⟩]⟩,
   ⟨0x124, 0x0, 1, false, [⟨31, 0, .ro, 0, 0, 4294967295⟩]⟩]

/-! Page AFE (chapter 04, R131). -/
def Reg.AFE_CFG.PROTECT : RegField := ⟨0x100, 10, 10⟩
def Reg.AFE_CFG.INPUT : RegField := ⟨0x100, 9, 8⟩
def Reg.AFE_CFG.ZONE : RegField := ⟨0x100, 5, 4⟩
def Reg.AFE_CFG.ATTEN : RegField := ⟨0x100, 3, 0⟩
def Reg.AFE_SPARE.SEL : RegField := ⟨0x104, 2, 0⟩
def Reg.AFE_ATTEN_MIN.MIN : RegField := ⟨0x108, 3, 0⟩
def Reg.AFE_STAT.SETTLED : RegField := ⟨0x10c, 15, 15⟩
def Reg.AFE_STAT.OVERLOAD : RegField := ⟨0x10c, 14, 14⟩
def Reg.AFE_STAT.PROTECTED : RegField := ⟨0x10c, 10, 10⟩
def Reg.AFE_STAT.INPUT : RegField := ⟨0x10c, 9, 8⟩
def Reg.AFE_STAT.ZONE : RegField := ⟨0x10c, 5, 4⟩
def Reg.AFE_STAT.ATTEN : RegField := ⟨0x10c, 3, 0⟩
def Reg.AFE_DET.LEVEL : RegField := ⟨0x110, 15, 0⟩
def Reg.AFE_APPLY_SIX0 : RegField := ⟨0x114, 31, 0⟩
def Reg.AFE_APPLY_SIX1 : RegField := ⟨0x118, 31, 0⟩
def Reg.AFE_APPLY_SIX2.SIX : RegField := ⟨0x11c, 7, 0⟩

/-- The registers of page AFE, R131. -/
def regTableAFE : List RegDesc :=
  [⟨0x100, 0x0, 1, true, [⟨10, 10, .rw, 1, 0, 1⟩, ⟨9, 8, .rw, 3, 0, 3⟩, ⟨5, 4, .rw, 0, 0, 2⟩, ⟨3, 0, .rw, 15, 0, 15⟩]⟩,
   ⟨0x104, 0x0, 1, true, [⟨2, 0, .rw, 0, 0, 4⟩]⟩,
   ⟨0x108, 0x0, 1, false, [⟨3, 0, .rwl, 0, 0, 15⟩]⟩,
   ⟨0x10c, 0x0, 1, false, [⟨15, 15, .ro, 0, 0, 1⟩, ⟨14, 14, .ro, 0, 0, 1⟩, ⟨10, 10, .ro, 0, 0, 1⟩, ⟨9, 8, .ro, 3, 0, 3⟩, ⟨5, 4, .ro, 0, 0, 3⟩, ⟨3, 0, .ro, 15, 0, 15⟩]⟩,
   ⟨0x110, 0x0, 1, false, [⟨15, 0, .ro, 32768, 0, 65535⟩]⟩,
   ⟨0x114, 0x0, 1, false, [⟨31, 0, .ro, 0, 0, 4294967295⟩]⟩,
   ⟨0x118, 0x0, 1, false, [⟨31, 0, .ro, 0, 0, 4294967295⟩]⟩,
   ⟨0x11c, 0x0, 1, false, [⟨7, 0, .ro, 0, 0, 255⟩]⟩]

/-! Page DDC (chapter 05, R155). -/
def Reg.DDC_CFG.RETUNE : RegField := ⟨0x100, 19, 19⟩
def Reg.DDC_CFG.GAIN : RegField := ⟨0x100, 17, 16⟩
def Reg.DDC_CFG.DC_EN : RegField := ⟨0x100, 8, 8⟩
def Reg.DDC_CFG.DECIM : RegField := ⟨0x100, 4, 0⟩
def Reg.DDC_RESP.RESP1 : RegField := ⟨0x104, 1, 0⟩
def Reg.DDC_RESP.RESP2 : RegField := ⟨0x104, 3, 2⟩
def Reg.DDC_RESP.RESP3 : RegField := ⟨0x104, 5, 4⟩
def Reg.DDC_RESP.RESP4 : RegField := ⟨0x104, 7, 6⟩
def Reg.DDC_RESP.RESP5 : RegField := ⟨0x104, 9, 8⟩
def Reg.DDC_RESP.RESP6 : RegField := ⟨0x104, 11, 10⟩
def Reg.DDC_RESP.RESP7 : RegField := ⟨0x104, 13, 12⟩
def Reg.DDC_RESP.RESP8 : RegField := ⟨0x104, 15, 14⟩
def Reg.DDC_RESP.RESP9 : RegField := ⟨0x104, 17, 16⟩
def Reg.DDC_RESP.RESP10 : RegField := ⟨0x104, 19, 18⟩
def Reg.DDC_RESP.RESP11 : RegField := ⟨0x104, 21, 20⟩
def Reg.DDC_RESP.RESP12 : RegField := ⟨0x104, 23, 22⟩
def Reg.DDC_RESP.RESP13 : RegField := ⟨0x104, 25, 24⟩
def Reg.DDC_RESP.RESP14 : RegField := ⟨0x104, 27, 26⟩
def Reg.DDC_RESP.RESP15 : RegField := ⟨0x104, 29, 28⟩
def Reg.DDC_RESP.RESP16 : RegField := ⟨0x104, 31, 30⟩
def Reg.DDC_FTW0 : RegField := ⟨0x108, 31, 0⟩
def Reg.DDC_FTW1.W : RegField := ⟨0x10c, 15, 0⟩
def Reg.DDC_PHASE.PHASE : RegField := ⟨0x110, 15, 0⟩
def Reg.DDC_DC_CFG.FREEZE : RegField := ⟨0x114, 8, 8⟩
def Reg.DDC_DC_CFG.SHIFT : RegField := ⟨0x114, 4, 0⟩
def Reg.DDC_DC_EST.EST1 : RegField := ⟨0x118, 31, 16⟩
def Reg.DDC_DC_EST.EST0 : RegField := ⟨0x118, 15, 0⟩
def Reg.DDC_STAT.SRC : RegField := ⟨0x11c, 31, 28⟩
def Reg.DDC_STAT.CFG_STATE : RegField := ⟨0x11c, 17, 16⟩
def Reg.DDC_STAT.GANGED_SECOND : RegField := ⟨0x11c, 9, 9⟩
def Reg.DDC_STAT.BONDED : RegField := ⟨0x11c, 8, 8⟩
def Reg.DDC_STAT.DECIM : RegField := ⟨0x11c, 4, 0⟩
def Reg.DDC_SAT.GAIN : RegField := ⟨0x120, 18, 18⟩
def Reg.DDC_SAT.STAGE : RegField := ⟨0x120, 17, 2⟩
def Reg.DDC_SAT.STAGE0 : RegField := ⟨0x120, 1, 1⟩
def Reg.DDC_SAT.MIX : RegField := ⟨0x120, 0, 0⟩
def Reg.DDC_DELAY : RegField := ⟨0x124, 31, 0⟩
def Reg.DDC_SETTLE.D : RegField := ⟨0x128, 7, 0⟩
def Reg.DDC_APPLY_SIX0 : RegField := ⟨0x12c, 31, 0⟩
def Reg.DDC_APPLY_SIX1 : RegField := ⟨0x130, 31, 0⟩
def Reg.DDC_APPLY_SIX2.SIX : RegField := ⟨0x134, 7, 0⟩

/-- The registers of page DDC, R155. -/
def regTableDDC : List RegDesc :=
  [⟨0x100, 0x0, 1, true, [⟨19, 19, .rw, 1, 0, 1⟩, ⟨17, 16, .rw, 0, 0, 3⟩, ⟨8, 8, .rw, 1, 0, 1⟩, ⟨4, 0, .rw, 0, 0, 16⟩]⟩,
   ⟨0x104, 0x0, 1, true, [⟨1, 0, .rw, 0, 0, 2⟩, ⟨3, 2, .rw, 0, 0, 2⟩, ⟨5, 4, .rw, 0, 0, 2⟩, ⟨7, 6, .rw, 0, 0, 2⟩, ⟨9, 8, .rw, 0, 0, 2⟩, ⟨11, 10, .rw, 0, 0, 2⟩, ⟨13, 12, .rw, 0, 0, 2⟩, ⟨15, 14, .rw, 0, 0, 2⟩, ⟨17, 16, .rw, 0, 0, 2⟩, ⟨19, 18, .rw, 0, 0, 2⟩, ⟨21, 20, .rw, 0, 0, 2⟩, ⟨23, 22, .rw, 0, 0, 2⟩, ⟨25, 24, .rw, 0, 0, 2⟩, ⟨27, 26, .rw, 0, 0, 2⟩, ⟨29, 28, .rw, 0, 0, 2⟩, ⟨31, 30, .rw, 0, 0, 2⟩]⟩,
   ⟨0x108, 0x0, 1, true, [⟨31, 0, .rw, 0, 0, 4294967295⟩]⟩,
   ⟨0x10c, 0x0, 1, true, [⟨15, 0, .rw, 0, 0, 65535⟩]⟩,
   ⟨0x110, 0x0, 1, true, [⟨15, 0, .rw, 0, 0, 65535⟩]⟩,
   ⟨0x114, 0x0, 1, false, [⟨8, 8, .rw, 0, 0, 1⟩, ⟨4, 0, .rw, 18, 10, 26⟩]⟩,
   ⟨0x118, 0x0, 1, false, [⟨31, 16, .ro, 0, 0, 65535⟩, ⟨15, 0, .ro, 0, 0, 65535⟩]⟩,
   ⟨0x11c, 0x0, 1, false, [⟨31, 28, .ro, 15, 0, 15⟩, ⟨17, 16, .ro, 0, 0, 3⟩, ⟨9, 9, .ro, 0, 0, 1⟩, ⟨8, 8, .ro, 0, 0, 1⟩, ⟨4, 0, .ro, 0, 0, 31⟩]⟩,
   ⟨0x120, 0x0, 1, false, [⟨18, 18, .w1c, 0, 0, 1⟩, ⟨17, 2, .w1c, 0, 0, 65535⟩, ⟨1, 1, .w1c, 0, 0, 1⟩, ⟨0, 0, .w1c, 0, 0, 1⟩]⟩,
   ⟨0x124, 0x0, 1, false, [⟨31, 0, .ro, 94, 0, 4294967295⟩]⟩,
   ⟨0x128, 0x0, 1, false, [⟨7, 0, .ro, 47, 0, 255⟩]⟩,
   ⟨0x12c, 0x0, 1, false, [⟨31, 0, .ro, 0, 0, 4294967295⟩]⟩,
   ⟨0x130, 0x0, 1, false, [⟨31, 0, .ro, 0, 0, 4294967295⟩]⟩,
   ⟨0x134, 0x0, 1, false, [⟨7, 0, .ro, 0, 0, 255⟩]⟩]

/-! Page INS (chapter 05, R156). -/
def Reg.INS_EN0 : RegField := ⟨0x100, 31, 0⟩
def Reg.INS_EN1 : RegField := ⟨0x104, 31, 0⟩
def Reg.INS_RATE_STAGED : RegField := ⟨0x108, 31, 0⟩
def Reg.INS_RATE_APPLIED : RegField := ⟨0x10c, 31, 0⟩
def Reg.INS_SAT0 : RegField := ⟨0x110, 31, 0⟩
def Reg.INS_SAT1 : RegField := ⟨0x114, 31, 0⟩
def Reg.INS_APPLY_SIX0 : RegField := ⟨0x118, 31, 0⟩
def Reg.INS_APPLY_SIX1 : RegField := ⟨0x11c, 31, 0⟩
def Reg.INS_APPLY_SIX2.SIX : RegField := ⟨0x120, 7, 0⟩
def Reg.INS_ACTIVE0 : RegField := ⟨0x124, 31, 0⟩
def Reg.INS_ACTIVE1 : RegField := ⟨0x128, 31, 0⟩
def Reg.INS_REJECT.INSET : RegField := ⟨0x12c, 7, 0⟩
def Reg.INS_CFG.GAIN (n : Nat) : RegField := ⟨0x400 + 0x10 * n, 17, 16⟩
def Reg.INS_CFG.RESP (n : Nat) : RegField := ⟨0x400 + 0x10 * n, 13, 12⟩
def Reg.INS_CFG.FAMILY (n : Nat) : RegField := ⟨0x400 + 0x10 * n, 8, 8⟩
def Reg.INS_CFG.EXP (n : Nat) : RegField := ⟨0x400 + 0x10 * n, 4, 0⟩
def Reg.INS_OFF_LO (n : Nat) : RegField := ⟨0x404 + 0x10 * n, 31, 0⟩
def Reg.INS_OFF_HI.O (n : Nat) : RegField := ⟨0x408 + 0x10 * n, 15, 0⟩
def Reg.INS_PHASE.PHASE (n : Nat) : RegField := ⟨0x40c + 0x10 * n, 15, 0⟩

/-- The registers of page INS, R156. -/
def regTableINS : List RegDesc :=
  [⟨0x100, 0x0, 1, true, [⟨31, 0, .rw, 0, 0, 4294967295⟩]⟩,
   ⟨0x104, 0x0, 1, true, [⟨31, 0, .rw, 0, 0, 4294967295⟩]⟩,
   ⟨0x108, 0x0, 1, false, [⟨31, 0, .ro, 0, 0, 4294967295⟩]⟩,
   ⟨0x10c, 0x0, 1, false, [⟨31, 0, .ro, 0, 0, 4294967295⟩]⟩,
   ⟨0x110, 0x0, 1, false, [⟨31, 0, .w1c, 0, 0, 4294967295⟩]⟩,
   ⟨0x114, 0x0, 1, false, [⟨31, 0, .w1c, 0, 0, 4294967295⟩]⟩,
   ⟨0x118, 0x0, 1, false, [⟨31, 0, .ro, 0, 0, 4294967295⟩]⟩,
   ⟨0x11c, 0x0, 1, false, [⟨31, 0, .ro, 0, 0, 4294967295⟩]⟩,
   ⟨0x120, 0x0, 1, false, [⟨7, 0, .ro, 0, 0, 255⟩]⟩,
   ⟨0x124, 0x0, 1, false, [⟨31, 0, .ro, 0, 0, 4294967295⟩]⟩,
   ⟨0x128, 0x0, 1, false, [⟨31, 0, .ro, 0, 0, 4294967295⟩]⟩,
   ⟨0x12c, 0x0, 1, false, [⟨7, 0, .ro, 255, 0, 255⟩]⟩,
   ⟨0x400, 0x10, 64, true, [⟨17, 16, .rw, 0, 0, 3⟩, ⟨13, 12, .rw, 0, 0, 2⟩, ⟨8, 8, .rw, 0, 0, 1⟩, ⟨4, 0, .rw, 16, 0, 16⟩]⟩,
   ⟨0x404, 0x10, 64, true, [⟨31, 0, .rw, 0, 0, 4294967295⟩]⟩,
   ⟨0x408, 0x10, 64, true, [⟨15, 0, .rw, 0, 0, 65535⟩]⟩,
   ⟨0x40c, 0x10, 64, true, [⟨15, 0, .rw, 0, 0, 65535⟩]⟩]

/-! Page FFT (chapter 06, R178). -/
def Reg.FFT_CFG.DETECTOR : RegField := ⟨0x100, 19, 18⟩
def Reg.FFT_CFG.FLAT_EN : RegField := ⟨0x100, 16, 16⟩
def Reg.FFT_CFG.FORMAT : RegField := ⟨0x100, 13, 12⟩
def Reg.FFT_CFG.WINDOW : RegField := ⟨0x100, 11, 8⟩
def Reg.FFT_CFG.SIZE_LOG2 : RegField := ⟨0x100, 4, 0⟩
def Reg.FFT_HOP.HOP : RegField := ⟨0x104, 16, 0⟩
def Reg.FFT_BIN_FIRST.FIRST : RegField := ⟨0x108, 15, 0⟩
def Reg.FFT_BIN_COUNT.COUNT : RegField := ⟨0x10c, 16, 0⟩
def Reg.FFT_OUT.OUT_EN : RegField := ⟨0x110, 31, 31⟩
def Reg.FFT_OUT.REC_SPECTRA : RegField := ⟨0x110, 24, 16⟩
def Reg.FFT_OUT.OUT_DECIM : RegField := ⟨0x110, 15, 0⟩
def Reg.FFT_CPLX.EXP : RegField := ⟨0x114, 4, 0⟩
def Reg.FFT_STAT.CFG_STATE : RegField := ⟨0x118, 17, 16⟩
def Reg.FFT_STAT.THIN_LOG2 : RegField := ⟨0x118, 15, 12⟩
def Reg.FFT_STAT.THINNED : RegField := ⟨0x118, 8, 8⟩
def Reg.FFT_STAT.SIZE_LOG2 : RegField := ⟨0x118, 4, 0⟩
def Reg.FFT_RATE : RegField := ⟨0x11c, 31, 0⟩
def Reg.FFT_FRAMES0 : RegField := ⟨0x120, 31, 0⟩
def Reg.FFT_FRAMES1 : RegField := ⟨0x124, 31, 0⟩
def Reg.FFT_ABANDONED : RegField := ⟨0x128, 31, 0⟩
def Reg.FFT_STALE_HELD : RegField := ⟨0x12c, 31, 0⟩
def Reg.FFT_APPLY_SIX0 : RegField := ⟨0x130, 31, 0⟩
def Reg.FFT_APPLY_SIX1 : RegField := ⟨0x134, 31, 0⟩
def Reg.FFT_APPLY_SIX2.SIX : RegField := ⟨0x138, 7, 0⟩
def Reg.FFT_FLAT_ID : RegField := ⟨0x13c, 31, 0⟩

/-- The registers of page FFT, R178. -/
def regTableFFT : List RegDesc :=
  [⟨0x100, 0x0, 1, true, [⟨19, 18, .rw, 0, 0, 3⟩, ⟨16, 16, .rw, 1, 0, 1⟩, ⟨13, 12, .rw, 0, 0, 2⟩, ⟨11, 8, .rw, 1, 0, 15⟩, ⟨4, 0, .rw, 14, 6, 16⟩]⟩,
   ⟨0x104, 0x0, 1, true, [⟨16, 0, .rw, 4096, 1, 65536⟩]⟩,
   ⟨0x108, 0x0, 1, true, [⟨15, 0, .rw, 1792, 0, 65535⟩]⟩,
   ⟨0x10c, 0x0, 1, true, [⟨16, 0, .rw, 12800, 1, 65536⟩]⟩,
   ⟨0x110, 0x0, 1, true, [⟨31, 31, .rw, 0, 0, 1⟩, ⟨24, 16, .rw, 16, 1, 256⟩, ⟨15, 0, .rw, 1, 1, 65535⟩]⟩,
   ⟨0x114, 0x0, 1, true, [⟨4, 0, .rw, 0, 0, 31⟩]⟩,
   ⟨0x118, 0x0, 1, false, [⟨17, 16, .ro, 0, 0, 3⟩, ⟨15, 12, .ro, 0, 0, 15⟩, ⟨8, 8, .ro, 0, 0, 1⟩, ⟨4, 0, .ro, 14, 0, 31⟩]⟩,
   ⟨0x11c, 0x0, 1, false, [⟨31, 0, .ro, 81920, 0, 4294967295⟩]⟩,
   ⟨0x120, 0x0, 1, false, [⟨31, 0, .ro, 0, 0, 4294967295⟩]⟩,
   ⟨0x124, 0x0, 1, false, [⟨31, 0, .ro, 0, 0, 4294967295⟩]⟩,
   ⟨0x128, 0x0, 1, false, [⟨31, 0, .ro, 0, 0, 4294967295⟩]⟩,
   ⟨0x12c, 0x0, 1, false, [⟨31, 0, .ro, 0, 0, 4294967295⟩]⟩,
   ⟨0x130, 0x0, 1, false, [⟨31, 0, .ro, 0, 0, 4294967295⟩]⟩,
   ⟨0x134, 0x0, 1, false, [⟨31, 0, .ro, 0, 0, 4294967295⟩]⟩,
   ⟨0x138, 0x0, 1, false, [⟨7, 0, .ro, 0, 0, 255⟩]⟩,
   ⟨0x13c, 0x0, 1, false, [⟨31, 0, .ro, 0, 0, 4294967295⟩]⟩]

/-! Page GRT (chapter 07, R195). -/
def Reg.GRT_CFG.OUT_EN : RegField := ⟨0x100, 31, 31⟩
def Reg.GRT_CFG.FRAME_SRC : RegField := ⟨0x100, 8, 8⟩
def Reg.GRT_CFG.PLANES : RegField := ⟨0x100, 6, 4⟩
def Reg.GRT_CFG.GEOMETRY : RegField := ⟨0x100, 0, 0⟩
def Reg.GRT_BIN_FIRST.F : RegField := ⟨0x104, 16, 0⟩
def Reg.GRT_BIN_COUNT.C : RegField := ⟨0x108, 16, 0⟩
def Reg.GRT_ROWS.REF_TOP : RegField := ⟨0x10c, 31, 16⟩
def Reg.GRT_ROWS.ROW_STEP : RegField := ⟨0x10c, 13, 0⟩
def Reg.GRT_HALF_LIFE.HL : RegField := ⟨0x110, 19, 0⟩
def Reg.GRT_FRAME_PERIOD.US : RegField := ⟨0x114, 19, 0⟩
def Reg.GRT_NORM : RegField := ⟨0x118, 31, 0⟩
def Reg.GRT_DENSITY.THRESH : RegField := ⟨0x11c, 12, 0⟩
def Reg.GRT_MAP_SEL.APPLIED : RegField := ⟨0x120, 8, 8⟩
def Reg.GRT_MAP_SEL.BANK : RegField := ⟨0x120, 0, 0⟩
def Reg.GRT_STAT.CFG_STATE : RegField := ⟨0x124, 17, 16⟩
def Reg.GRT_STAT.THIN_LOG2 : RegField := ⟨0x124, 15, 12⟩
def Reg.GRT_STAT.THINNED : RegField := ⟨0x124, 8, 8⟩
def Reg.GRT_STAT.ACC_STATE : RegField := ⟨0x124, 1, 0⟩
def Reg.GRT_FRAMES : RegField := ⟨0x128, 31, 0⟩
def Reg.GRT_MERGED : RegField := ⟨0x12c, 31, 0⟩

/-- The registers of page GRT, R195. -/
def regTableGRT : List RegDesc :=
  [⟨0x100, 0x0, 1, true, [⟨31, 31, .rw, 0, 0, 1⟩, ⟨8, 8, .rw, 0, 0, 1⟩, ⟨6, 4, .rw, 4, 1, 7⟩, ⟨0, 0, .rw, 0, 0, 1⟩]⟩,
   ⟨0x104, 0x0, 1, true, [⟨16, 0, .rw, 1792, 0, 65535⟩]⟩,
   ⟨0x108, 0x0, 1, true, [⟨16, 0, .rw, 12800, 1, 65536⟩]⟩,
   ⟨0x10c, 0x0, 1, true, [⟨31, 16, .rw, 0, 0, 65535⟩, ⟨13, 0, .rw, 25, 1, 8192⟩]⟩,
   ⟨0x110, 0x0, 1, true, [⟨19, 0, .rw, 1000, 10, 600000⟩]⟩,
   ⟨0x114, 0x0, 1, true, [⟨19, 0, .rw, 16667, 4167, 1000000⟩]⟩,
   ⟨0x118, 0x0, 1, true, [⟨31, 0, .rw, 1065353216, 0, 4294967295⟩]⟩,
   ⟨0x11c, 0x0, 1, true, [⟨12, 0, .rw, 0, 0, 4096⟩]⟩,
   ⟨0x120, 0x0, 1, false, [⟨8, 8, .ro, 0, 0, 1⟩, ⟨0, 0, .rw, 0, 0, 1⟩]⟩,
   ⟨0x124, 0x0, 1, false, [⟨17, 16, .ro, 0, 0, 3⟩, ⟨15, 12, .ro, 0, 0, 15⟩, ⟨8, 8, .ro, 0, 0, 1⟩, ⟨1, 0, .ro, 0, 0, 3⟩]⟩,
   ⟨0x128, 0x0, 1, false, [⟨31, 0, .ro, 0, 0, 4294967295⟩]⟩,
   ⟨0x12c, 0x0, 1, false, [⟨31, 0, .ro, 0, 0, 4294967295⟩]⟩]

/-! Page CTR (chapter 08, R228). -/
def Reg.CTR_STAT.OUT : RegField := ⟨0x100, 31, 24⟩
def Reg.CTR_STAT.CFG_STATE : RegField := ⟨0x100, 17, 16⟩
def Reg.CTR_STAT.NOHIST : RegField := ⟨0x100, 7, 0⟩
def Reg.CTR_SKIPPED : RegField := ⟨0x104, 31, 0⟩
def Reg.CTR_LATENCY : RegField := ⟨0x108, 31, 0⟩
def Reg.CTR_MASK_CFG.CURVE (n : Nat) : RegField := ⟨0x200 + 0x10 * n, 10, 8⟩
def Reg.CTR_MASK_CFG.SIDE (n : Nat) : RegField := ⟨0x200 + 0x10 * n, 5, 4⟩
def Reg.CTR_MASK_CFG.MODE (n : Nat) : RegField := ⟨0x200 + 0x10 * n, 3, 1⟩
def Reg.CTR_MASK_CFG.EN (n : Nat) : RegField := ⟨0x200 + 0x10 * n, 0, 0⟩
def Reg.CTR_MASK_BINS.COUNT_M1 (n : Nat) : RegField := ⟨0x204 + 0x10 * n, 31, 16⟩
def Reg.CTR_MASK_BINS.FIRST (n : Nat) : RegField := ⟨0x204 + 0x10 * n, 15, 0⟩
def Reg.CTR_MASK_QUAL.MIN_M1 (n : Nat) : RegField := ⟨0x208 + 0x10 * n, 31, 16⟩
def Reg.CTR_MASK_QUAL.K_M1 (n : Nat) : RegField := ⟨0x208 + 0x10 * n, 15, 0⟩
def Reg.CTR_MASK_FIRED (n : Nat) : RegField := ⟨0x20c + 0x10 * n, 31, 0⟩

/-- The registers of page CTR, R228. -/
def regTableCTR : List RegDesc :=
  [⟨0x100, 0x0, 1, false, [⟨31, 24, .ro, 0, 0, 255⟩, ⟨17, 16, .ro, 0, 0, 3⟩, ⟨7, 0, .ro, 255, 0, 255⟩]⟩,
   ⟨0x104, 0x0, 1, false, [⟨31, 0, .ro, 0, 0, 4294967295⟩]⟩,
   ⟨0x108, 0x0, 1, false, [⟨31, 0, .ro, 51200, 0, 4294967295⟩]⟩,
   ⟨0x200, 0x10, 8, true, [⟨10, 8, .rw, 0, 0, 7⟩, ⟨5, 4, .rw, 0, 0, 2⟩, ⟨3, 1, .rw, 0, 0, 4⟩, ⟨0, 0, .rw, 0, 0, 1⟩]⟩,
   ⟨0x204, 0x10, 8, true, [⟨31, 16, .rw, 12799, 0, 65535⟩, ⟨15, 0, .rw, 1792, 0, 65535⟩]⟩,
   ⟨0x208, 0x10, 8, true, [⟨31, 16, .rw, 0, 0, 65535⟩, ⟨15, 0, .rw, 0, 0, 65535⟩]⟩,
   ⟨0x20c, 0x10, 8, false, [⟨31, 0, .ro, 0, 0, 4294967295⟩]⟩]

/-! Page TTR (chapter 08, R229). -/
def Reg.TTR_STAT.CFG_STATE : RegField := ⟨0x100, 17, 16⟩
def Reg.TTR_STAT.MET : RegField := ⟨0x100, 11, 8⟩
def Reg.TTR_STAT.UNARMED : RegField := ⟨0x100, 3, 0⟩
def Reg.TTR_SUPPRESSED : RegField := ⟨0x104, 31, 0⟩
def Reg.TTR_LATENCY : RegField := ⟨0x108, 31, 0⟩
def Reg.TTR_UNIT_CFG.WIN_LOG2 (n : Nat) : RegField := ⟨0x200 + 0x10 * n, 20, 16⟩
def Reg.TTR_UNIT_CFG.DIR (n : Nat) : RegField := ⟨0x200 + 0x10 * n, 9, 8⟩
def Reg.TTR_UNIT_CFG.COMP (n : Nat) : RegField := ⟨0x200 + 0x10 * n, 4, 4⟩
def Reg.TTR_UNIT_CFG.TYPE (n : Nat) : RegField := ⟨0x200 + 0x10 * n, 2, 0⟩
def Reg.TTR_UNIT_THRESH (n : Nat) : RegField := ⟨0x204 + 0x10 * n, 31, 0⟩
def Reg.TTR_UNIT_HYST (n : Nat) : RegField := ⟨0x208 + 0x10 * n, 31, 0⟩
def Reg.TTR_UNIT_FIRED (n : Nat) : RegField := ⟨0x20c + 0x10 * n, 31, 0⟩

/-- The registers of page TTR, R229. -/
def regTableTTR : List RegDesc :=
  [⟨0x100, 0x0, 1, false, [⟨17, 16, .ro, 0, 0, 3⟩, ⟨11, 8, .ro, 0, 0, 15⟩, ⟨3, 0, .ro, 15, 0, 15⟩]⟩,
   ⟨0x104, 0x0, 1, false, [⟨31, 0, .ro, 0, 0, 4294967295⟩]⟩,
   ⟨0x108, 0x0, 1, false, [⟨31, 0, .ro, 3277, 0, 4294967295⟩]⟩,
   ⟨0x200, 0x10, 4, true, [⟨20, 16, .rw, 0, 0, 16⟩, ⟨9, 8, .rw, 0, 0, 2⟩, ⟨4, 4, .rw, 0, 0, 1⟩, ⟨2, 0, .rw, 0, 0, 4⟩]⟩,
   ⟨0x204, 0x10, 4, true, [⟨31, 0, .rw, 0, 0, 4294967295⟩]⟩,
   ⟨0x208, 0x10, 4, true, [⟨31, 0, .rw, 0, 0, 4294967295⟩]⟩,
   ⟨0x20c, 0x10, 4, false, [⟨31, 0, .ro, 0, 0, 4294967295⟩]⟩]

/-! Page TRG (chapter 08, R230). -/
def Reg.TRG_EXT_CFG.TRIG_IN1_EDGE : RegField := ⟨0x100, 1, 1⟩
def Reg.TRG_EXT_CFG.TRIG_IN0_EDGE : RegField := ⟨0x100, 0, 0⟩
def Reg.TRG_OUT_CFG.EN : RegField := ⟨0x104, 31, 31⟩
def Reg.TRG_OUT_CFG.POLARITY : RegField := ⟨0x104, 30, 30⟩
def Reg.TRG_OUT_CFG.PULSE : RegField := ⟨0x104, 25, 16⟩
def Reg.TRG_OUT_CFG.SEL : RegField := ⟨0x104, 3, 0⟩
def Reg.TRG_XTRIG_DRV.EN3 : RegField := ⟨0x108, 28, 28⟩
def Reg.TRG_XTRIG_DRV.SEL3 : RegField := ⟨0x108, 27, 24⟩
def Reg.TRG_XTRIG_DRV.EN2 : RegField := ⟨0x108, 20, 20⟩
def Reg.TRG_XTRIG_DRV.SEL2 : RegField := ⟨0x108, 19, 16⟩
def Reg.TRG_XTRIG_DRV.EN1 : RegField := ⟨0x108, 12, 12⟩
def Reg.TRG_XTRIG_DRV.SEL1 : RegField := ⟨0x108, 11, 8⟩
def Reg.TRG_XTRIG_DRV.EN0 : RegField := ⟨0x108, 4, 4⟩
def Reg.TRG_XTRIG_DRV.SEL0 : RegField := ⟨0x108, 3, 0⟩
def Reg.TRG_EV_CFG.SAME_SAMPLE_OK (n : Nat) : RegField := ⟨0x200 + 0x20 * n, 3, 3⟩
def Reg.TRG_EV_CFG.OP (n : Nat) : RegField := ⟨0x200 + 0x20 * n, 2, 1⟩
def Reg.TRG_EV_CFG.EN (n : Nat) : RegField := ⟨0x200 + 0x20 * n, 0, 0⟩
def Reg.TRG_EV_SRC_A.SRC (n : Nat) : RegField := ⟨0x204 + 0x20 * n, 19, 0⟩
def Reg.TRG_EV_SRC_B.SRC (n : Nat) : RegField := ⟨0x208 + 0x20 * n, 19, 0⟩
def Reg.TRG_EV_WINDOW (n : Nat) : RegField := ⟨0x20c + 0x20 * n, 31, 0⟩
def Reg.TRG_EV_HOLDOFF (n : Nat) : RegField := ⟨0x210 + 0x20 * n, 31, 0⟩
def Reg.TRG_EV_LAT (n : Nat) : RegField := ⟨0x214 + 0x20 * n, 31, 0⟩
def Reg.TRG_EV_FIRED (n : Nat) : RegField := ⟨0x218 + 0x20 * n, 31, 0⟩
def Reg.TRG_EV_LOST.SEQ_EXPIRED (n : Nat) : RegField := ⟨0x21c + 0x20 * n, 31, 16⟩
def Reg.TRG_EV_LOST.HOLDOFF_SUPP (n : Nat) : RegField := ⟨0x21c + 0x20 * n, 15, 0⟩

/-- The registers of page TRG, R230. -/
def regTableTRG : List RegDesc :=
  [⟨0x100, 0x0, 1, true, [⟨1, 1, .rw, 0, 0, 1⟩, ⟨0, 0, .rw, 0, 0, 1⟩]⟩,
   ⟨0x104, 0x0, 1, true, [⟨31, 31, .rw, 0, 0, 1⟩, ⟨30, 30, .rw, 0, 0, 1⟩, ⟨25, 16, .rw, 128, 8, 1023⟩, ⟨3, 0, .rw, 0, 0, 11⟩]⟩,
   ⟨0x108, 0x0, 1, true, [⟨28, 28, .rw, 0, 0, 1⟩, ⟨27, 24, .rw, 0, 0, 11⟩, ⟨20, 20, .rw, 0, 0, 1⟩, ⟨19, 16, .rw, 0, 0, 11⟩, ⟨12, 12, .rw, 0, 0, 1⟩, ⟨11, 8, .rw, 0, 0, 11⟩, ⟨4, 4, .rw, 0, 0, 1⟩, ⟨3, 0, .rw, 0, 0, 11⟩]⟩,
   ⟨0x200, 0x20, 12, true, [⟨3, 3, .rw, 0, 0, 1⟩, ⟨2, 1, .rw, 0, 0, 2⟩, ⟨0, 0, .rw, 0, 0, 1⟩]⟩,
   ⟨0x204, 0x20, 12, true, [⟨19, 0, .rw, 0, 0, 1048575⟩]⟩,
   ⟨0x208, 0x20, 12, true, [⟨19, 0, .rw, 0, 0, 1048575⟩]⟩,
   ⟨0x20c, 0x20, 12, true, [⟨31, 0, .rw, 0, 0, 4294967295⟩]⟩,
   ⟨0x210, 0x20, 12, true, [⟨31, 0, .rw, 0, 0, 4294967295⟩]⟩,
   ⟨0x214, 0x20, 12, false, [⟨31, 0, .ro, 492, 0, 4294967295⟩]⟩,
   ⟨0x218, 0x20, 12, false, [⟨31, 0, .ro, 0, 0, 4294967295⟩]⟩,
   ⟨0x21c, 0x20, 12, false, [⟨31, 16, .ro, 0, 0, 65535⟩, ⟨15, 0, .ro, 0, 0, 65535⟩]⟩]

/-! Page CAP (chapter 09, R264). -/
def Reg.CAP_CFG.FORMAT : RegField := ⟨0x100, 17, 16⟩
def Reg.CAP_CFG.CHUNK_EN : RegField := ⟨0x100, 12, 12⟩
def Reg.CAP_CFG.SHEET_EV : RegField := ⟨0x100, 11, 8⟩
def Reg.CAP_CFG.PROTECT : RegField := ⟨0x100, 4, 4⟩
def Reg.CAP_CFG.PRE_FILL : RegField := ⟨0x100, 3, 3⟩
def Reg.CAP_CFG.AUTO_RESUME : RegField := ⟨0x100, 2, 2⟩
def Reg.CAP_CFG.POLICY : RegField := ⟨0x100, 0, 0⟩
def Reg.CAP_RING_BASE_LO.ADDR : RegField := ⟨0x104, 31, 12⟩
def Reg.CAP_RING_BASE_HI.ADDR : RegField := ⟨0x108, 15, 0⟩
def Reg.CAP_RING_LEN.LEN_K : RegField := ⟨0x10c, 23, 0⟩
def Reg.CAP_PRE_LEN : RegField := ⟨0x110, 31, 0⟩
def Reg.CAP_POST_LEN : RegField := ⟨0x114, 31, 0⟩
def Reg.CAP_CHUNK : RegField := ⟨0x118, 31, 0⟩
def Reg.CAP_MARK_BASE_LO.ADDR : RegField := ⟨0x11c, 31, 12⟩
def Reg.CAP_MARK_BASE_HI.ADDR : RegField := ⟨0x120, 15, 0⟩
def Reg.CAP_STAT.USED : RegField := ⟨0x124, 31, 19⟩
def Reg.CAP_STAT.CFG_STATE : RegField := ⟨0x124, 17, 16⟩
def Reg.CAP_STAT.PROTECTED : RegField := ⟨0x124, 8, 8⟩
def Reg.CAP_STAT.WR_STATE : RegField := ⟨0x124, 1, 0⟩
def Reg.CAP_WC0 : RegField := ⟨0x128, 31, 0⟩
def Reg.CAP_WC1 : RegField := ⟨0x12c, 31, 0⟩
def Reg.CAP_PROT_WC0 : RegField := ⟨0x130, 31, 0⟩
def Reg.CAP_PROT_WC1 : RegField := ⟨0x134, 31, 0⟩
def Reg.CAP_MISSED : RegField := ⟨0x138, 31, 0⟩
def Reg.CAP_PREFILL_WAIT : RegField := ⟨0x13c, 31, 0⟩
def Reg.CAP_SHEET_HEAD : RegField := ⟨0x140, 31, 0⟩
def Reg.CAP_SHEET_TAIL : RegField := ⟨0x144, 31, 0⟩
def Reg.CAP_SHEET_BASE_LO.ADDR : RegField := ⟨0x148, 31, 12⟩
def Reg.CAP_SHEET_BASE_HI.ADDR : RegField := ⟨0x14c, 15, 0⟩
def Reg.CAP_EPOCH_SIX0 : RegField := ⟨0x150, 31, 0⟩
def Reg.CAP_EPOCH_SIX1 : RegField := ⟨0x154, 31, 0⟩
def Reg.CAP_EPOCH_SIX2.SIX : RegField := ⟨0x158, 7, 0⟩
def Reg.CAP_EPOCH_WC0 : RegField := ⟨0x15c, 31, 0⟩
def Reg.CAP_EPOCH_WC1 : RegField := ⟨0x160, 31, 0⟩
def Reg.CAP_STOP_SIX0 : RegField := ⟨0x164, 31, 0⟩
def Reg.CAP_STOP_SIX1 : RegField := ⟨0x168, 31, 0⟩
def Reg.CAP_STOP_SIX2.SIX : RegField := ⟨0x16c, 7, 0⟩
def Reg.CAP_LOST0 : RegField := ⟨0x170, 31, 0⟩
def Reg.CAP_LOST1 : RegField := ⟨0x174, 31, 0⟩
def Reg.CAP_FIFO_LOST : RegField := ⟨0x178, 31, 0⟩
def Reg.CAP_OVERWRITTEN : RegField := ⟨0x17c, 31, 0⟩

/-- The registers of page CAP, R264. -/
def regTableCAP : List RegDesc :=
  [⟨0x100, 0x0, 1, true, [⟨17, 16, .rw, 0, 0, 2⟩, ⟨12, 12, .rw, 0, 0, 1⟩, ⟨11, 8, .rw, 0, 0, 15⟩, ⟨4, 4, .rw, 1, 0, 1⟩, ⟨3, 3, .rw, 0, 0, 1⟩, ⟨2, 2, .rw, 1, 0, 1⟩, ⟨0, 0, .rw, 0, 0, 1⟩]⟩,
   ⟨0x104, 0x0, 1, true, [⟨31, 12, .rw, 0, 0, 1048575⟩]⟩,
   ⟨0x108, 0x0, 1, true, [⟨15, 0, .rw, 0, 0, 65535⟩]⟩,
   ⟨0x10c, 0x0, 1, true, [⟨23, 0, .rw, 64, 64, 16777215⟩]⟩,
   ⟨0x110, 0x0, 1, true, [⟨31, 0, .rw, 0, 0, 268435456⟩]⟩,
   ⟨0x114, 0x0, 1, true, [⟨31, 0, .rw, 1024, 1, 268435456⟩]⟩,
   ⟨0x118, 0x0, 1, true, [⟨31, 0, .rw, 1048576, 1024, 268435456⟩]⟩,
   ⟨0x11c, 0x0, 1, true, [⟨31, 12, .rw, 0, 0, 1048575⟩]⟩,
   ⟨0x120, 0x0, 1, true, [⟨15, 0, .rw, 0, 0, 65535⟩]⟩,
   ⟨0x124, 0x0, 1, false, [⟨31, 19, .ro, 0, 0, 8191⟩, ⟨17, 16, .ro, 0, 0, 3⟩, ⟨8, 8, .ro, 0, 0, 1⟩, ⟨1, 0, .ro, 0, 0, 3⟩]⟩,
   ⟨0x128, 0x0, 1, false, [⟨31, 0, .ro, 0, 0, 4294967295⟩]⟩,
   ⟨0x12c, 0x0, 1, false, [⟨31, 0, .ro, 0, 0, 4294967295⟩]⟩,
   ⟨0x130, 0x0, 1, false, [⟨31, 0, .ro, 0, 0, 4294967295⟩]⟩,
   ⟨0x134, 0x0, 1, false, [⟨31, 0, .ro, 0, 0, 4294967295⟩]⟩,
   ⟨0x138, 0x0, 1, false, [⟨31, 0, .ro, 0, 0, 4294967295⟩]⟩,
   ⟨0x13c, 0x0, 1, false, [⟨31, 0, .ro, 0, 0, 4294967295⟩]⟩] ++
  [⟨0x140, 0x0, 1, false, [⟨31, 0, .ro, 0, 0, 4294967295⟩]⟩,
   ⟨0x144, 0x0, 1, false, [⟨31, 0, .ro, 0, 0, 4294967295⟩]⟩,
   ⟨0x148, 0x0, 1, true, [⟨31, 12, .rw, 0, 0, 1048575⟩]⟩,
   ⟨0x14c, 0x0, 1, true, [⟨15, 0, .rw, 0, 0, 65535⟩]⟩,
   ⟨0x150, 0x0, 1, false, [⟨31, 0, .ro, 0, 0, 4294967295⟩]⟩,
   ⟨0x154, 0x0, 1, false, [⟨31, 0, .ro, 0, 0, 4294967295⟩]⟩,
   ⟨0x158, 0x0, 1, false, [⟨7, 0, .ro, 0, 0, 255⟩]⟩,
   ⟨0x15c, 0x0, 1, false, [⟨31, 0, .ro, 0, 0, 4294967295⟩]⟩,
   ⟨0x160, 0x0, 1, false, [⟨31, 0, .ro, 0, 0, 4294967295⟩]⟩,
   ⟨0x164, 0x0, 1, false, [⟨31, 0, .ro, 0, 0, 4294967295⟩]⟩,
   ⟨0x168, 0x0, 1, false, [⟨31, 0, .ro, 0, 0, 4294967295⟩]⟩,
   ⟨0x16c, 0x0, 1, false, [⟨7, 0, .ro, 0, 0, 255⟩]⟩,
   ⟨0x170, 0x0, 1, false, [⟨31, 0, .ro, 0, 0, 4294967295⟩]⟩,
   ⟨0x174, 0x0, 1, false, [⟨31, 0, .ro, 0, 0, 4294967295⟩]⟩,
   ⟨0x178, 0x0, 1, false, [⟨31, 0, .ro, 0, 0, 4294967295⟩]⟩,
   ⟨0x17c, 0x0, 1, false, [⟨31, 0, .ro, 0, 0, 4294967295⟩]⟩]

/-! Page RED (chapter 09, R265). -/
def Reg.RED_CFG.CUT_POW : RegField := ⟨0x100, 9, 9⟩
def Reg.RED_CFG.CUT_ENV : RegField := ⟨0x100, 8, 8⟩
def Reg.RED_CFG.TRACE_SRC : RegField := ⟨0x100, 5, 5⟩
def Reg.RED_CFG.TRACE_DETECT : RegField := ⟨0x100, 4, 4⟩
def Reg.RED_CFG.TRACE_EN : RegField := ⟨0x100, 2, 2⟩
def Reg.RED_CFG.POW_EN : RegField := ⟨0x100, 1, 1⟩
def Reg.RED_CFG.ENV_EN : RegField := ⟨0x100, 0, 0⟩
def Reg.RED_ENV_BASE_LO.ADDR : RegField := ⟨0x104, 31, 12⟩
def Reg.RED_ENV_BASE_HI.ADDR : RegField := ⟨0x108, 15, 0⟩
def Reg.RED_POW_BASE_LO.ADDR : RegField := ⟨0x10c, 31, 12⟩
def Reg.RED_POW_BASE_HI.ADDR : RegField := ⟨0x110, 15, 0⟩
def Reg.RED_TRACE_BINS.COUNT_M1 : RegField := ⟨0x114, 31, 16⟩
def Reg.RED_TRACE_BINS.FIRST : RegField := ⟨0x114, 15, 0⟩
def Reg.RED_TRACE_POINTS.T : RegField := ⟨0x118, 19, 0⟩
def Reg.RED_TRACE_PERIOD.US : RegField := ⟨0x11c, 19, 0⟩
def Reg.RED_STAT.CFG_STATE : RegField := ⟨0x120, 17, 16⟩
def Reg.RED_STAT.TRACE_HELD : RegField := ⟨0x120, 0, 0⟩
def Reg.RED_DROPPED : RegField := ⟨0x124, 31, 0⟩
def Reg.RED_RP_BASE_LO.ADDR (n : Nat) : RegField := ⟨0x200 + 0x20 * n, 31, 12⟩
def Reg.RED_RP_BASE_HI.ADDR (n : Nat) : RegField := ⟨0x204 + 0x20 * n, 15, 0⟩
def Reg.RED_RP_LEN.PAGES (n : Nat) : RegField := ⟨0x208 + 0x20 * n, 23, 0⟩
def Reg.RED_RP_WR.OFFSET (n : Nat) : RegField := ⟨0x20c + 0x20 * n, 29, 0⟩
def Reg.RED_RP_RD.OFFSET (n : Nat) : RegField := ⟨0x210 + 0x20 * n, 29, 0⟩

/-- The registers of page RED, R265. -/
def regTableRED : List RegDesc :=
  [⟨0x100, 0x0, 1, true, [⟨9, 9, .rw, 0, 0, 1⟩, ⟨8, 8, .rw, 0, 0, 1⟩, ⟨5, 5, .rw, 0, 0, 1⟩, ⟨4, 4, .rw, 0, 0, 1⟩, ⟨2, 2, .rw, 0, 0, 1⟩, ⟨1, 1, .rw, 0, 0, 1⟩, ⟨0, 0, .rw, 0, 0, 1⟩]⟩,
   ⟨0x104, 0x0, 1, true, [⟨31, 12, .rw, 0, 0, 1048575⟩]⟩,
   ⟨0x108, 0x0, 1, true, [⟨15, 0, .rw, 0, 0, 65535⟩]⟩,
   ⟨0x10c, 0x0, 1, true, [⟨31, 12, .rw, 0, 0, 1048575⟩]⟩,
   ⟨0x110, 0x0, 1, true, [⟨15, 0, .rw, 0, 0, 65535⟩]⟩,
   ⟨0x114, 0x0, 1, true, [⟨31, 16, .rw, 12799, 0, 65535⟩, ⟨15, 0, .rw, 1792, 0, 65535⟩]⟩,
   ⟨0x118, 0x0, 1, true, [⟨19, 0, .rw, 1024, 64, 4096⟩]⟩,
   ⟨0x11c, 0x0, 1, true, [⟨19, 0, .rw, 16667, 4167, 1000000⟩]⟩,
   ⟨0x120, 0x0, 1, false, [⟨17, 16, .ro, 0, 0, 3⟩, ⟨0, 0, .ro, 0, 0, 1⟩]⟩,
   ⟨0x124, 0x0, 1, false, [⟨31, 0, .ro, 0, 0, 4294967295⟩]⟩,
   ⟨0x200, 0x20, 3, true, [⟨31, 12, .rw, 0, 0, 1048575⟩]⟩,
   ⟨0x204, 0x20, 3, true, [⟨15, 0, .rw, 0, 0, 65535⟩]⟩,
   ⟨0x208, 0x20, 3, true, [⟨23, 0, .rw, 256, 16, 16777215⟩]⟩,
   ⟨0x20c, 0x20, 3, false, [⟨29, 0, .ro, 0, 0, 1073741823⟩]⟩,
   ⟨0x210, 0x20, 3, false, [⟨29, 0, .rw, 0, 0, 1073741823⟩]⟩]

/-! Page PHN (chapter 10, R296). -/
def Reg.PHN_VER.MAJOR : RegField := ⟨0x100, 31, 24⟩
def Reg.PHN_VER.MINOR : RegField := ⟨0x100, 23, 16⟩
def Reg.PHN_VER.BUILD : RegField := ⟨0x100, 15, 0⟩
def Reg.PHN_RING0_BASE_LO.ADDR : RegField := ⟨0x104, 31, 12⟩
def Reg.PHN_RING0_BASE_HI : RegField := ⟨0x108, 31, 0⟩
def Reg.PHN_RING0_LEN.LOG2 : RegField := ⟨0x10c, 4, 0⟩
def Reg.PHN_RING1_BASE_LO.ADDR : RegField := ⟨0x110, 31, 12⟩
def Reg.PHN_RING1_BASE_HI : RegField := ⟨0x114, 31, 0⟩
def Reg.PHN_RING1_LEN.LOG2 : RegField := ⟨0x118, 4, 0⟩
def Reg.PHN_STAT.TASKS : RegField := ⟨0x11c, 28, 16⟩
def Reg.PHN_STAT.HOLD_CAUSE : RegField := ⟨0x11c, 7, 6⟩
def Reg.PHN_STAT.CHAIN : RegField := ⟨0x11c, 5, 5⟩
def Reg.PHN_STAT.HOLD : RegField := ⟨0x11c, 4, 4⟩
def Reg.PHN_STAT.RINGS : RegField := ⟨0x11c, 0, 0⟩
def Reg.PHN_EPOCH : RegField := ⟨0x120, 31, 0⟩
def Reg.PHN_CMDS : RegField := ⟨0x124, 31, 0⟩
def Reg.PHN_REJECTS : RegField := ⟨0x128, 31, 0⟩
def Reg.PHN_COALESCED : RegField := ⟨0x12c, 31, 0⟩

/-- The registers of page PHN, R296. -/
def regTablePHN : List RegDesc :=
  [⟨0x100, 0x0, 1, false, [⟨31, 24, .ro, 1, 0, 255⟩, ⟨23, 16, .ro, 0, 0, 255⟩, ⟨15, 0, .ro, 0, 0, 65535⟩]⟩,
   ⟨0x104, 0x0, 1, false, [⟨31, 12, .rw, 0, 0, 1048575⟩]⟩,
   ⟨0x108, 0x0, 1, false, [⟨31, 0, .rw, 0, 0, 4294967295⟩]⟩,
   ⟨0x10c, 0x0, 1, false, [⟨4, 0, .rw, 8, 4, 16⟩]⟩,
   ⟨0x110, 0x0, 1, false, [⟨31, 12, .rw, 0, 0, 1048575⟩]⟩,
   ⟨0x114, 0x0, 1, false, [⟨31, 0, .rw, 0, 0, 4294967295⟩]⟩,
   ⟨0x118, 0x0, 1, false, [⟨4, 0, .rw, 8, 4, 16⟩]⟩,
   ⟨0x11c, 0x0, 1, false, [⟨28, 16, .ro, 0, 0, 8191⟩, ⟨7, 6, .ro, 0, 0, 3⟩, ⟨5, 5, .ro, 0, 0, 1⟩, ⟨4, 4, .ro, 0, 0, 1⟩, ⟨0, 0, .ro, 0, 0, 1⟩]⟩,
   ⟨0x120, 0x0, 1, false, [⟨31, 0, .ro, 0, 0, 4294967295⟩]⟩,
   ⟨0x124, 0x0, 1, false, [⟨31, 0, .ro, 0, 0, 4294967295⟩]⟩,
   ⟨0x128, 0x0, 1, false, [⟨31, 0, .ro, 0, 0, 4294967295⟩]⟩,
   ⟨0x12c, 0x0, 1, false, [⟨31, 0, .ro, 0, 0, 4294967295⟩]⟩]

/-! Page SVY (chapter 12, R346). -/
def Reg.SVY_STAT.SPARELESS : RegField := ⟨0x100, 15, 15⟩
def Reg.SVY_STAT.CONV : RegField := ⟨0x100, 14, 12⟩
def Reg.SVY_STAT.STEP : RegField := ⟨0x100, 3, 0⟩
def Reg.SVY_QUEUE.DEFERRED : RegField := ⟨0x104, 12, 8⟩
def Reg.SVY_QUEUE.DUE : RegField := ⟨0x104, 4, 0⟩
def Reg.SVY_LAST.FAILS (n : Nat) : RegField := ⟨0x110 + 0x4 * n, 31, 24⟩
def Reg.SVY_LAST.STEP (n : Nat) : RegField := ⟨0x110 + 0x4 * n, 23, 20⟩
def Reg.SVY_LAST.SUB (n : Nat) : RegField := ⟨0x110 + 0x4 * n, 15, 8⟩
def Reg.SVY_LAST.CODE (n : Nat) : RegField := ⟨0x110 + 0x4 * n, 7, 0⟩
def Reg.SVY_AGE (n : Nat) : RegField := ⟨0x130 + 0x4 * n, 31, 0⟩
def Reg.SVY_TEMP (n : Nat) : RegField := ⟨0x150 + 0x4 * n, 31, 0⟩
def Reg.SVY_RESID (n : Nat) : RegField := ⟨0x170 + 0x4 * n, 31, 0⟩
def Reg.SVY_SEQ : RegField := ⟨0x190, 31, 0⟩
def Reg.SVY_COUNT_OK : RegField := ⟨0x194, 31, 0⟩
def Reg.SVY_COUNT_FAIL : RegField := ⟨0x198, 31, 0⟩
def Reg.SVY_COUNT_BUSY : RegField := ⟨0x19c, 31, 0⟩
def Reg.SVY_BANK.STORE_CODE : RegField := ⟨0x1a0, 31, 24⟩
def Reg.SVY_BANK.STORE_SUB : RegField := ⟨0x1a0, 23, 16⟩
def Reg.SVY_BANK.STORE_ACTIVE : RegField := ⟨0x1a0, 9, 9⟩
def Reg.SVY_BANK.STORE_PENDING : RegField := ⟨0x1a0, 8, 8⟩
def Reg.SVY_BANK.IN_USE : RegField := ⟨0x1a0, 5, 4⟩
def Reg.SVY_BANK.VALID : RegField := ⟨0x1a0, 2, 0⟩
def Reg.SVY_SEQ_A : RegField := ⟨0x1a4, 31, 0⟩
def Reg.SVY_SEQ_B : RegField := ⟨0x1a8, 31, 0⟩

/-- The registers of page SVY, R346. -/
def regTableSVY : List RegDesc :=
  [⟨0x100, 0x0, 1, false, [⟨15, 15, .ro, 0, 0, 1⟩, ⟨14, 12, .ro, 7, 0, 7⟩, ⟨3, 0, .ro, 0, 0, 15⟩]⟩,
   ⟨0x104, 0x0, 1, false, [⟨12, 8, .ro, 0, 0, 31⟩, ⟨4, 0, .ro, 31, 0, 31⟩]⟩,
   ⟨0x110, 0x4, 5, false, [⟨31, 24, .ro, 0, 0, 255⟩, ⟨23, 20, .ro, 0, 0, 15⟩, ⟨15, 8, .ro, 0, 0, 255⟩, ⟨7, 0, .ro, 0, 0, 255⟩]⟩,
   ⟨0x130, 0x4, 5, false, [⟨31, 0, .ro, 4294967295, 0, 4294967295⟩]⟩,
   ⟨0x150, 0x4, 5, false, [⟨31, 0, .ro, 0, 0, 4294967295⟩]⟩,
   ⟨0x170, 0x4, 5, false, [⟨31, 0, .ro, 32768, 0, 4294967295⟩]⟩,
   ⟨0x190, 0x0, 1, false, [⟨31, 0, .ro, 0, 0, 4294967295⟩]⟩,
   ⟨0x194, 0x0, 1, false, [⟨31, 0, .ro, 0, 0, 4294967295⟩]⟩,
   ⟨0x198, 0x0, 1, false, [⟨31, 0, .ro, 0, 0, 4294967295⟩]⟩,
   ⟨0x19c, 0x0, 1, false, [⟨31, 0, .ro, 0, 0, 4294967295⟩]⟩,
   ⟨0x1a0, 0x0, 1, false, [⟨31, 24, .ro, 0, 0, 255⟩, ⟨23, 16, .ro, 0, 0, 255⟩, ⟨9, 9, .ro, 0, 0, 1⟩, ⟨8, 8, .ro, 0, 0, 1⟩, ⟨5, 4, .ro, 0, 0, 3⟩, ⟨2, 0, .ro, 0, 0, 7⟩]⟩,
   ⟨0x1a4, 0x0, 1, false, [⟨31, 0, .ro, 0, 0, 4294967295⟩]⟩,
   ⟨0x1a8, 0x0, 1, false, [⟨31, 0, .ro, 0, 0, 4294967295⟩]⟩]

/-! Page TRM (chapter 12, R346). -/
def Reg.TRM_STAT.SRC : RegField := ⟨0x100, 31, 30⟩
def Reg.TRM_STAT.SURVEY : RegField := ⟨0x100, 20, 0⟩
def Reg.TRM_SUB_A.OFFSET (n : Nat) : RegField := ⟨0x400 + 0x8 * n, 27, 16⟩
def Reg.TRM_SUB_A.GAIN (n : Nat) : RegField := ⟨0x400 + 0x8 * n, 11, 0⟩
def Reg.TRM_SUB_B.BW (n : Nat) : RegField := ⟨0x404 + 0x8 * n, 23, 16⟩
def Reg.TRM_SUB_B.SKEW (n : Nat) : RegField := ⟨0x404 + 0x8 * n, 12, 0⟩
def Reg.TRM_FLAT_ID (n : Nat) : RegField := ⟨0x800 + 0x8 * n, 31, 0⟩
def Reg.TRM_FLAT_CRC (n : Nat) : RegField := ⟨0x804 + 0x8 * n, 31, 0⟩

/-- The registers of page TRM, R346. -/
def regTableTRM : List RegDesc :=
  [⟨0x100, 0x0, 1, false, [⟨31, 30, .ro, 0, 0, 3⟩, ⟨20, 0, .ro, 0, 0, 2097151⟩]⟩,
   ⟨0x400, 0x8, 64, false, [⟨27, 16, .ro, 0, 0, 4095⟩, ⟨11, 0, .ro, 0, 0, 4095⟩]⟩,
   ⟨0x404, 0x8, 64, false, [⟨23, 16, .ro, 0, 0, 255⟩, ⟨12, 0, .ro, 0, 0, 8191⟩]⟩,
   ⟨0x800, 0x8, 48, false, [⟨31, 0, .ro, 0, 0, 4294967295⟩]⟩,
   ⟨0x804, 0x8, 48, false, [⟨31, 0, .ro, 0, 0, 4294967295⟩]⟩]

/-! Page MEM (chapter 13, R370). -/
def Reg.MEM_STAT.SPARES_FREE : RegField := ⟨0x100, 23, 20⟩
def Reg.MEM_STAT.BAND : RegField := ⟨0x100, 15, 12⟩
def Reg.MEM_STAT.SHARED_PC : RegField := ⟨0x100, 10, 10⟩
def Reg.MEM_STAT.SPARING : RegField := ⟨0x100, 9, 9⟩
def Reg.MEM_STAT.RT_HELD : RegField := ⟨0x100, 8, 8⟩
def Reg.MEM_STAT.SR_STATE : RegField := ⟨0x100, 2, 0⟩
def Reg.MEM_TEMP.TEMP : RegField := ⟨0x104, 15, 0⟩
def Reg.MEM_REFRESH.HOT : RegField := ⟨0x108, 8, 8⟩
def Reg.MEM_REFRESH.OWED : RegField := ⟨0x108, 3, 0⟩
def Reg.MEM_SR_CFG.LTR_MIN_US : RegField := ⟨0x10c, 23, 16⟩
def Reg.MEM_SR_CFG.IDLE_US : RegField := ⟨0x10c, 15, 0⟩
def Reg.MEM_LTR : RegField := ⟨0x110, 31, 0⟩
def Reg.MEM_TRAIN.PENDING : RegField := ⟨0x114, 4, 4⟩
def Reg.MEM_TRAIN.BAND : RegField := ⟨0x114, 3, 0⟩
def Reg.MEM_RH_CFG.THRESH : RegField := ⟨0x118, 15, 0⟩
def Reg.MEM_RH_LAST0.SRC : RegField := ⟨0x11c, 31, 16⟩
def Reg.MEM_RH_LAST0.BANK : RegField := ⟨0x11c, 15, 12⟩
def Reg.MEM_RH_LAST0.THROTTLED : RegField := ⟨0x11c, 7, 7⟩
def Reg.MEM_RH_LAST0.RANK : RegField := ⟨0x11c, 6, 0⟩
def Reg.MEM_RH_LAST1.ROW : RegField := ⟨0x120, 13, 0⟩
def Reg.MEM_CE_LIMIT.LIMIT : RegField := ⟨0x124, 15, 0⟩
def Reg.MEM_ERR_ADDR_LO : RegField := ⟨0x128, 31, 0⟩
def Reg.MEM_ERR_ADDR_HI : RegField := ⟨0x12c, 31, 0⟩
def Reg.MEM_SPARE_STAT.SPARE : RegField := ⟨0x130, 31, 24⟩
def Reg.MEM_SPARE_STAT.DONOR : RegField := ⟨0x130, 23, 16⟩
def Reg.MEM_SPARE_STAT.FAILED : RegField := ⟨0x130, 15, 8⟩
def Reg.MEM_SPARE_STAT.KIND : RegField := ⟨0x130, 5, 4⟩
def Reg.MEM_SPARE_STAT.QUEUED : RegField := ⟨0x130, 3, 3⟩
def Reg.MEM_SPARE_STAT.STATE : RegField := ⟨0x130, 2, 0⟩
def Reg.MEM_LAYER.N3 : RegField := ⟨0x134, 31, 24⟩
def Reg.MEM_LAYER.N2 : RegField := ⟨0x134, 23, 16⟩
def Reg.MEM_LAYER.N1 : RegField := ⟨0x134, 15, 8⟩
def Reg.MEM_LAYER.N0 : RegField := ⟨0x134, 7, 0⟩
def Reg.MEM_PREEMPTS : RegField := ⟨0x140, 31, 0⟩
def Reg.MEM_SR_ENTRIES : RegField := ⟨0x144, 31, 0⟩
def Reg.MEM_SR_ABORTS : RegField := ⟨0x148, 31, 0⟩
def Reg.MEM_SR_WAITS : RegField := ⟨0x14c, 31, 0⟩
def Reg.MEM_RH_EVENTS : RegField := ⟨0x150, 31, 0⟩
def Reg.MEM_ECC_CE : RegField := ⟨0x154, 31, 0⟩
def Reg.MEM_ECC_UE : RegField := ⟨0x158, 31, 0⟩
def Reg.MEM_CA_RETRY : RegField := ⟨0x15c, 31, 0⟩
def Reg.MEM_POISON_READS : RegField := ⟨0x160, 31, 0⟩
def Reg.MEM_HOLE : RegField := ⟨0x164, 31, 0⟩
def Reg.MEM_MAP.RANK3 (n : Nat) : RegField := ⟨0x400 + 0x4 * n, 31, 24⟩
def Reg.MEM_MAP.RANK2 (n : Nat) : RegField := ⟨0x400 + 0x4 * n, 23, 16⟩
def Reg.MEM_MAP.RANK1 (n : Nat) : RegField := ⟨0x400 + 0x4 * n, 15, 8⟩
def Reg.MEM_MAP.RANK0 (n : Nat) : RegField := ⟨0x400 + 0x4 * n, 7, 0⟩
def Reg.MEM_RANK.STATE (n : Nat) : RegField := ⟨0x600 + 0x4 * n, 31, 30⟩
def Reg.MEM_RANK.CE24 (n : Nat) : RegField := ⟨0x600 + 0x4 * n, 15, 0⟩

/-- The registers of page MEM, R370. -/
def regTableMEM : List RegDesc :=
  [⟨0x100, 0x0, 1, false, [⟨23, 20, .ro, 8, 0, 15⟩, ⟨15, 12, .ro, 0, 0, 15⟩, ⟨10, 10, .ro, 0, 0, 1⟩, ⟨9, 9, .ro, 0, 0, 1⟩, ⟨8, 8, .ro, 0, 0, 1⟩, ⟨2, 0, .ro, 0, 0, 7⟩]⟩,
   ⟨0x104, 0x0, 1, false, [⟨15, 0, .ro, 0, 0, 65535⟩]⟩,
   ⟨0x108, 0x0, 1, false, [⟨8, 8, .ro, 0, 0, 1⟩, ⟨3, 0, .ro, 0, 0, 15⟩]⟩,
   ⟨0x10c, 0x0, 1, false, [⟨23, 16, .rw, 3, 3, 255⟩, ⟨15, 0, .rw, 10, 1, 65535⟩]⟩,
   ⟨0x110, 0x0, 1, false, [⟨31, 0, .ro, 4294967295, 0, 4294967295⟩]⟩,
   ⟨0x114, 0x0, 1, false, [⟨4, 4, .ro, 0, 0, 1⟩, ⟨3, 0, .ro, 0, 0, 15⟩]⟩,
   ⟨0x118, 0x0, 1, false, [⟨15, 0, .rw, 2000, 500, 65535⟩]⟩,
   ⟨0x11c, 0x0, 1, false, [⟨31, 16, .ro, 0, 0, 65535⟩, ⟨15, 12, .ro, 0, 0, 15⟩, ⟨7, 7, .ro, 0, 0, 1⟩, ⟨6, 0, .ro, 0, 0, 127⟩]⟩,
   ⟨0x120, 0x0, 1, false, [⟨13, 0, .ro, 0, 0, 16383⟩]⟩,
   ⟨0x124, 0x0, 1, false, [⟨15, 0, .rw, 4096, 1, 65535⟩]⟩,
   ⟨0x128, 0x0, 1, false, [⟨31, 0, .ro, 0, 0, 4294967295⟩]⟩,
   ⟨0x12c, 0x0, 1, false, [⟨31, 0, .ro, 0, 0, 4294967295⟩]⟩,
   ⟨0x130, 0x0, 1, false, [⟨31, 24, .ro, 255, 0, 255⟩, ⟨23, 16, .ro, 255, 0, 255⟩, ⟨15, 8, .ro, 255, 0, 255⟩, ⟨5, 4, .ro, 0, 0, 3⟩, ⟨3, 3, .ro, 0, 0, 1⟩, ⟨2, 0, .ro, 0, 0, 7⟩]⟩,
   ⟨0x134, 0x0, 1, false, [⟨31, 24, .ro, 24, 0, 255⟩, ⟨23, 16, .ro, 32, 0, 255⟩, ⟨15, 8, .ro, 32, 0, 255⟩, ⟨7, 0, .ro, 32, 0, 255⟩]⟩,
   ⟨0x140, 0x0, 1, false, [⟨31, 0, .ro, 0, 0, 4294967295⟩]⟩,
   ⟨0x144, 0x0, 1, false, [⟨31, 0, .ro, 0, 0, 4294967295⟩]⟩] ++
  [⟨0x148, 0x0, 1, false, [⟨31, 0, .ro, 0, 0, 4294967295⟩]⟩,
   ⟨0x14c, 0x0, 1, false, [⟨31, 0, .ro, 0, 0, 4294967295⟩]⟩,
   ⟨0x150, 0x0, 1, false, [⟨31, 0, .ro, 0, 0, 4294967295⟩]⟩,
   ⟨0x154, 0x0, 1, false, [⟨31, 0, .ro, 0, 0, 4294967295⟩]⟩,
   ⟨0x158, 0x0, 1, false, [⟨31, 0, .ro, 0, 0, 4294967295⟩]⟩,
   ⟨0x15c, 0x0, 1, false, [⟨31, 0, .ro, 0, 0, 4294967295⟩]⟩,
   ⟨0x160, 0x0, 1, false, [⟨31, 0, .ro, 0, 0, 4294967295⟩]⟩,
   ⟨0x164, 0x0, 1, false, [⟨31, 0, .ro, 0, 0, 4294967295⟩]⟩,
   ⟨0x400, 0x4, 32, false, [⟨31, 24, .ro, 0, 0, 255⟩, ⟨23, 16, .ro, 0, 0, 255⟩, ⟨15, 8, .ro, 0, 0, 255⟩, ⟨7, 0, .ro, 0, 0, 255⟩]⟩,
   ⟨0x600, 0x4, 128, false, [⟨31, 30, .ro, 0, 0, 3⟩, ⟨15, 0, .ro, 0, 0, 65535⟩]⟩]

/-! Page BXE (chapter 14, R396). -/
def Reg.BXE_STAT.REPAIR_PENDING : RegField := ⟨0x100, 16, 16⟩
def Reg.BXE_STAT.FAR_REGION : RegField := ⟨0x100, 14, 12⟩
def Reg.BXE_STAT.SMP_RX : RegField := ⟨0x100, 10, 10⟩
def Reg.BXE_STAT.SMP_TX : RegField := ⟨0x100, 9, 9⟩
def Reg.BXE_STAT.KIND : RegField := ⟨0x100, 8, 8⟩
def Reg.BXE_STAT.LINK_STATE : RegField := ⟨0x100, 3, 0⟩
def Reg.BXE_THRESH0.LANE_HARD : RegField := ⟨0x104, 23, 16⟩
def Reg.BXE_THRESH0.LANE_CE : RegField := ⟨0x104, 15, 0⟩
def Reg.BXE_THRESH1.RETRAIN_LIMIT : RegField := ⟨0x108, 27, 24⟩
def Reg.BXE_THRESH1.REPLAY_LIMIT : RegField := ⟨0x108, 23, 16⟩
def Reg.BXE_THRESH1.BAD_PER_MS : RegField := ⟨0x108, 15, 0⟩
def Reg.BXE_TXCRD.CPL : RegField := ⟨0x10c, 23, 16⟩
def Reg.BXE_TXCRD.NP : RegField := ⟨0x10c, 15, 8⟩
def Reg.BXE_TXCRD.P : RegField := ⟨0x10c, 7, 0⟩
def Reg.BXE_SLOT : RegField := ⟨0x110, 31, 0⟩
def Reg.BXE_RMAP_RX.G3 (n : Nat) : RegField := ⟨0x114 + 0x4 * n, 31, 24⟩
def Reg.BXE_RMAP_RX.G2 (n : Nat) : RegField := ⟨0x114 + 0x4 * n, 23, 16⟩
def Reg.BXE_RMAP_RX.G1 (n : Nat) : RegField := ⟨0x114 + 0x4 * n, 15, 8⟩
def Reg.BXE_RMAP_RX.G0 (n : Nat) : RegField := ⟨0x114 + 0x4 * n, 7, 0⟩
def Reg.BXE_RMAP_TX.G3 (n : Nat) : RegField := ⟨0x11c + 0x4 * n, 31, 24⟩
def Reg.BXE_RMAP_TX.G2 (n : Nat) : RegField := ⟨0x11c + 0x4 * n, 23, 16⟩
def Reg.BXE_RMAP_TX.G1 (n : Nat) : RegField := ⟨0x11c + 0x4 * n, 15, 8⟩
def Reg.BXE_RMAP_TX.G0 (n : Nat) : RegField := ⟨0x11c + 0x4 * n, 7, 0⟩
def Reg.BXE_BAD : RegField := ⟨0x130, 31, 0⟩
def Reg.BXE_NAKS : RegField := ⟨0x134, 31, 0⟩
def Reg.BXE_REPLAYS : RegField := ⟨0x138, 31, 0⟩
def Reg.BXE_CORR : RegField := ⟨0x13c, 31, 0⟩
def Reg.BXE_SMP_LOST : RegField := ⟨0x140, 31, 0⟩
def Reg.BXE_RETRAINS : RegField := ⟨0x144, 31, 0⟩
def Reg.BXE_REPAIRS : RegField := ⟨0x148, 31, 0⟩
def Reg.BXE_CPL_TIMEOUT : RegField := ⟨0x150, 31, 0⟩
def Reg.BXE_CPL_LATE : RegField := ⟨0x154, 31, 0⟩
def Reg.BXE_P_DISCARD : RegField := ⟨0x158, 31, 0⟩
def Reg.BXE_DENIED : RegField := ⟨0x15c, 31, 0⟩
def Reg.BXE_TAGS.LIMIT : RegField := ⟨0x160, 28, 16⟩
def Reg.BXE_TAGS.IN_FLIGHT : RegField := ⟨0x160, 12, 0⟩
def Reg.BXE_LANE_CE.COUNT (n : Nat) : RegField := ⟨0x400 + 0x4 * n, 15, 0⟩

/-- The registers of page BXE, R396. -/
def regTableBXE : List RegDesc :=
  [⟨0x100, 0x0, 1, false, [⟨16, 16, .ro, 0, 0, 1⟩, ⟨14, 12, .ro, 0, 0, 7⟩, ⟨10, 10, .ro, 0, 0, 1⟩, ⟨9, 9, .ro, 0, 0, 1⟩, ⟨8, 8, .ro, 0, 0, 1⟩, ⟨3, 0, .ro, 0, 0, 15⟩]⟩,
   ⟨0x104, 0x0, 1, false, [⟨23, 16, .rw, 64, 8, 255⟩, ⟨15, 0, .rw, 1024, 1, 65535⟩]⟩,
   ⟨0x108, 0x0, 1, false, [⟨27, 24, .rw, 3, 1, 15⟩, ⟨23, 16, .rw, 32, 4, 255⟩, ⟨15, 0, .rw, 256, 1, 65535⟩]⟩,
   ⟨0x10c, 0x0, 1, false, [⟨23, 16, .ro, 0, 0, 255⟩, ⟨15, 8, .ro, 0, 0, 255⟩, ⟨7, 0, .ro, 0, 0, 255⟩]⟩,
   ⟨0x110, 0x0, 1, false, [⟨31, 0, .ro, 0, 0, 4294967295⟩]⟩,
   ⟨0x114, 0x4, 2, false, [⟨31, 24, .ro, 0, 0, 255⟩, ⟨23, 16, .ro, 0, 0, 255⟩, ⟨15, 8, .ro, 0, 0, 255⟩, ⟨7, 0, .ro, 0, 0, 255⟩]⟩,
   ⟨0x11c, 0x4, 2, false, [⟨31, 24, .ro, 0, 0, 255⟩, ⟨23, 16, .ro, 0, 0, 255⟩, ⟨15, 8, .ro, 0, 0, 255⟩, ⟨7, 0, .ro, 0, 0, 255⟩]⟩,
   ⟨0x130, 0x0, 1, false, [⟨31, 0, .ro, 0, 0, 4294967295⟩]⟩,
   ⟨0x134, 0x0, 1, false, [⟨31, 0, .ro, 0, 0, 4294967295⟩]⟩,
   ⟨0x138, 0x0, 1, false, [⟨31, 0, .ro, 0, 0, 4294967295⟩]⟩,
   ⟨0x13c, 0x0, 1, false, [⟨31, 0, .ro, 0, 0, 4294967295⟩]⟩,
   ⟨0x140, 0x0, 1, false, [⟨31, 0, .ro, 0, 0, 4294967295⟩]⟩,
   ⟨0x144, 0x0, 1, false, [⟨31, 0, .ro, 0, 0, 4294967295⟩]⟩,
   ⟨0x148, 0x0, 1, false, [⟨31, 0, .ro, 0, 0, 4294967295⟩]⟩,
   ⟨0x150, 0x0, 1, false, [⟨31, 0, .ro, 0, 0, 4294967295⟩]⟩,
   ⟨0x154, 0x0, 1, false, [⟨31, 0, .ro, 0, 0, 4294967295⟩]⟩] ++
  [⟨0x158, 0x0, 1, false, [⟨31, 0, .ro, 0, 0, 4294967295⟩]⟩,
   ⟨0x15c, 0x0, 1, false, [⟨31, 0, .ro, 0, 0, 4294967295⟩]⟩,
   ⟨0x160, 0x0, 1, false, [⟨28, 16, .ro, 0, 0, 8191⟩, ⟨12, 0, .ro, 0, 0, 8191⟩]⟩,
   ⟨0x400, 0x4, 128, false, [⟨15, 0, .ro, 0, 0, 65535⟩]⟩]

/-! Page RNG (chapter 16, R449). -/
def Reg.RNG_OPEN : RegField := ⟨0x100, 31, 0⟩
def Reg.RNG_DB_IGNORED : RegField := ⟨0x104, 31, 0⟩
def Reg.RNG_LAST_FAULT : RegField := ⟨0x108, 31, 0⟩

/-- The registers of page RNG, R449. -/
def regTableRNG : List RegDesc :=
  [⟨0x100, 0x0, 1, false, [⟨31, 0, .ro, 0, 0, 4294967295⟩]⟩,
   ⟨0x104, 0x0, 1, false, [⟨31, 0, .ro, 0, 0, 4294967295⟩]⟩,
   ⟨0x108, 0x0, 1, false, [⟨31, 0, .ro, 4294967295, 0, 4294967295⟩]⟩]

/-! Page TRV (chapter 16, R450). -/
def Reg.TRV_BUSY : RegField := ⟨0x100, 31, 0⟩
def Reg.TRV_DB_IGNORED : RegField := ⟨0x104, 31, 0⟩
def Reg.TRV_STAT.SUB (n : Nat) : RegField := ⟨0x484 + 0xc0 * n, 23, 16⟩
def Reg.TRV_STAT.CODE (n : Nat) : RegField := ⟨0x484 + 0xc0 * n, 15, 8⟩
def Reg.TRV_STAT.DB_PEND (n : Nat) : RegField := ⟨0x484 + 0xc0 * n, 5, 5⟩
def Reg.TRV_STAT.SH_VALID (n : Nat) : RegField := ⟨0x484 + 0xc0 * n, 4, 4⟩
def Reg.TRV_STAT.CH_STATE (n : Nat) : RegField := ⟨0x484 + 0xc0 * n, 3, 0⟩
def Reg.TRV_CHAIN_LO.ADDR (n : Nat) : RegField := ⟨0x488 + 0xc0 * n, 31, 7⟩
def Reg.TRV_CHAIN_LO.SPACE (n : Nat) : RegField := ⟨0x488 + 0xc0 * n, 0, 0⟩
def Reg.TRV_CHAIN_HI.ADDR (n : Nat) : RegField := ⟨0x48c + 0xc0 * n, 15, 0⟩
def Reg.TRV_ACT_LO.ADDR (n : Nat) : RegField := ⟨0x490 + 0xc0 * n, 31, 7⟩
def Reg.TRV_ACT_LO.SPACE (n : Nat) : RegField := ⟨0x490 + 0xc0 * n, 0, 0⟩
def Reg.TRV_ACT_HI.ADDR (n : Nat) : RegField := ⟨0x494 + 0xc0 * n, 15, 0⟩
def Reg.TRV_POS (n : Nat) : RegField := ⟨0x498 + 0xc0 * n, 31, 0⟩
def Reg.TRV_DONE (n : Nat) : RegField := ⟨0x49c + 0xc0 * n, 31, 0⟩
def Reg.TRV_CHK (n : Nat) : RegField := ⟨0x4a0 + 0xc0 * n, 31, 0⟩

/-- The registers of page TRV, R450. -/
def regTableTRV : List RegDesc :=
  [⟨0x100, 0x0, 1, false, [⟨31, 0, .ro, 0, 0, 4294967295⟩]⟩,
   ⟨0x104, 0x0, 1, false, [⟨31, 0, .ro, 0, 0, 4294967295⟩]⟩,
   ⟨0x484, 0xc0, 16, false, [⟨23, 16, .ro, 0, 0, 255⟩, ⟨15, 8, .ro, 0, 0, 255⟩, ⟨5, 5, .ro, 0, 0, 1⟩, ⟨4, 4, .ro, 0, 0, 1⟩, ⟨3, 0, .ro, 0, 0, 15⟩]⟩,
   ⟨0x488, 0xc0, 16, false, [⟨31, 7, .rw, 0, 0, 33554431⟩, ⟨0, 0, .rw, 0, 0, 1⟩]⟩,
   ⟨0x48c, 0xc0, 16, false, [⟨15, 0, .rw, 0, 0, 65535⟩]⟩,
   ⟨0x490, 0xc0, 16, false, [⟨31, 7, .ro, 0, 0, 33554431⟩, ⟨0, 0, .ro, 0, 0, 1⟩]⟩,
   ⟨0x494, 0xc0, 16, false, [⟨15, 0, .ro, 0, 0, 65535⟩]⟩,
   ⟨0x498, 0xc0, 16, false, [⟨31, 0, .ro, 0, 0, 4294967295⟩]⟩,
   ⟨0x49c, 0xc0, 16, false, [⟨31, 0, .ro, 0, 0, 4294967295⟩]⟩,
   ⟨0x4a0, 0xc0, 16, false, [⟨31, 0, .ro, 0, 0, 4294967295⟩]⟩]

/-! Page STR (chapter 17, R485). -/
def Reg.STR_STAT.STREAMS : RegField := ⟨0x100, 12, 0⟩
def Reg.STR_GRANT (n : Nat) : RegField := ⟨0x110 + 0x8 * n, 31, 0⟩
def Reg.STR_RATE (n : Nat) : RegField := ⟨0x114 + 0x8 * n, 31, 0⟩
def Reg.STR_WAITS : RegField := ⟨0x140, 31, 0⟩
def Reg.STR_PB_SKIPPED : RegField := ⟨0x144, 31, 0⟩

/-- The registers of page STR, R485. -/
def regTableSTR : List RegDesc :=
  [⟨0x100, 0x0, 1, false, [⟨12, 0, .ro, 0, 0, 8191⟩]⟩,
   ⟨0x110, 0x8, 6, false, [⟨31, 0, .ro, 0, 0, 4294967295⟩]⟩,
   ⟨0x114, 0x8, 6, false, [⟨31, 0, .ro, 0, 0, 4294967295⟩]⟩,
   ⟨0x140, 0x0, 1, false, [⟨31, 0, .ro, 0, 0, 4294967295⟩]⟩,
   ⟨0x144, 0x0, 1, false, [⟨31, 0, .ro, 0, 0, 4294967295⟩]⟩]

/-! Page HIF (chapter 17, R486). -/
def Reg.HIF_LINK.FLIT : RegField := ⟨0x100, 8, 8⟩
def Reg.HIF_LINK.WIDTH : RegField := ⟨0x100, 7, 4⟩
def Reg.HIF_LINK.SPEED : RegField := ⟨0x100, 3, 0⟩
def Reg.HIF_BAR2_BASE_LO.ADDR : RegField := ⟨0x104, 31, 30⟩
def Reg.HIF_BAR2_BASE_HI.ADDR : RegField := ⟨0x108, 15, 0⟩
def Reg.HIF_BAR2_SIZE : RegField := ⟨0x10c, 31, 0⟩
def Reg.HIF_PERST_COUNT : RegField := ⟨0x110, 31, 0⟩

/-- The registers of page HIF, R486. -/
def regTableHIF : List RegDesc :=
  [⟨0x100, 0x0, 1, false, [⟨8, 8, .ro, 0, 0, 1⟩, ⟨7, 4, .ro, 0, 0, 15⟩, ⟨3, 0, .ro, 0, 0, 15⟩]⟩,
   ⟨0x104, 0x0, 1, false, [⟨31, 30, .rw, 0, 0, 3⟩]⟩,
   ⟨0x108, 0x0, 1, false, [⟨15, 0, .rw, 0, 0, 65535⟩]⟩,
   ⟨0x10c, 0x0, 1, false, [⟨31, 0, .ro, 30, 0, 4294967295⟩]⟩,
   ⟨0x110, 0x0, 1, false, [⟨31, 0, .ro, 0, 0, 4294967295⟩]⟩]

/-! Page NVI (chapter 17, R487). -/
def Reg.NVI_DRIVES : RegField := ⟨0x100, 31, 0⟩
def Reg.NVI_MOUNTED : RegField := ⟨0x104, 31, 0⟩
def Reg.NVI_FAILED : RegField := ⟨0x108, 31, 0⟩
def Reg.NVI_FULL : RegField := ⟨0x10c, 31, 0⟩
def Reg.NVI_DRV_STAT (n : Nat) : RegField := ⟨0x400 + 0x8 * n, 31, 0⟩
def Reg.NVI_DRV_ERR (n : Nat) : RegField := ⟨0x404 + 0x8 * n, 31, 0⟩

/-- The registers of page NVI, R487. -/
def regTableNVI : List RegDesc :=
  [⟨0x100, 0x0, 1, false, [⟨31, 0, .ro, 0, 0, 4294967295⟩]⟩,
   ⟨0x104, 0x0, 1, false, [⟨31, 0, .ro, 0, 0, 4294967295⟩]⟩,
   ⟨0x108, 0x0, 1, false, [⟨31, 0, .ro, 0, 0, 4294967295⟩]⟩,
   ⟨0x10c, 0x0, 1, false, [⟨31, 0, .ro, 0, 0, 4294967295⟩]⟩,
   ⟨0x400, 0x8, 32, false, [⟨31, 0, .ro, 0, 0, 4294967295⟩]⟩,
   ⟨0x404, 0x8, 32, false, [⟨31, 0, .ro, 0, 0, 4294967295⟩]⟩]

/-! Page ETH (chapter 17, R489). -/
def Reg.ETH_CFG.SPEED : RegField := ⟨0x100, 1, 0⟩
def Reg.ETH_STAT.FLOWS : RegField := ⟨0x104, 31, 16⟩
def Reg.ETH_STAT.SPEED : RegField := ⟨0x104, 2, 1⟩
def Reg.ETH_STAT.LINK_UP : RegField := ⟨0x104, 0, 0⟩
def Reg.ETH_MAC_LO : RegField := ⟨0x108, 31, 0⟩
def Reg.ETH_MAC_HI.ADDR : RegField := ⟨0x10c, 15, 0⟩
def Reg.ETH_IPV4 : RegField := ⟨0x110, 31, 0⟩
def Reg.ETH_IPV6 (n : Nat) : RegField := ⟨0x114 + 0x4 * n, 31, 0⟩
def Reg.ETH_VITA_OUI.OUI : RegField := ⟨0x124, 23, 0⟩
def Reg.ETH_TX_PKTS : RegField := ⟨0x140, 31, 0⟩
def Reg.ETH_RETX : RegField := ⟨0x144, 31, 0⟩
def Reg.ETH_RX_ACKS : RegField := ⟨0x148, 31, 0⟩
def Reg.ETH_RX_DROP : RegField := ⟨0x14c, 31, 0⟩
def Reg.ETH_PROF0.VLAN (n : Nat) : RegField := ⟨0x800 + 0x40 * n, 31, 16⟩
def Reg.ETH_PROF0.DSCP (n : Nat) : RegField := ⟨0x800 + 0x40 * n, 13, 8⟩
def Reg.ETH_PROF0.CONTEXT_EN (n : Nat) : RegField := ⟨0x800 + 0x40 * n, 4, 4⟩
def Reg.ETH_PROF0.VLAN_EN (n : Nat) : RegField := ⟨0x800 + 0x40 * n, 3, 3⟩
def Reg.ETH_PROF0.LSA_EN (n : Nat) : RegField := ⟨0x800 + 0x40 * n, 2, 2⟩
def Reg.ETH_PROF0.IPV6 (n : Nat) : RegField := ⟨0x800 + 0x40 * n, 1, 1⟩
def Reg.ETH_PROF0.VALID (n : Nat) : RegField := ⟨0x800 + 0x40 * n, 0, 0⟩
def Reg.ETH_PROF1.SAMPLES (n : Nat) : RegField := ⟨0x804 + 0x40 * n, 31, 16⟩
def Reg.ETH_PROF1.MTU (n : Nat) : RegField := ⟨0x804 + 0x40 * n, 15, 0⟩
def Reg.ETH_PROF2 (n : Nat) : RegField := ⟨0x808 + 0x40 * n, 31, 0⟩
def Reg.ETH_PROF3.DST_UDP (n : Nat) : RegField := ⟨0x80c + 0x40 * n, 31, 16⟩
def Reg.ETH_PROF3.DST_MAC45 (n : Nat) : RegField := ⟨0x80c + 0x40 * n, 15, 0⟩
def Reg.ETH_PROF4 (n : Nat) : RegField := ⟨0x810 + 0x40 * n, 31, 0⟩
def Reg.ETH_PROF5 (n : Nat) : RegField := ⟨0x814 + 0x40 * n, 31, 0⟩
def Reg.ETH_PROF6 (n : Nat) : RegField := ⟨0x818 + 0x40 * n, 31, 0⟩
def Reg.ETH_PROF7 (n : Nat) : RegField := ⟨0x81c + 0x40 * n, 31, 0⟩
def Reg.ETH_PROF8.RTO_US (n : Nat) : RegField := ⟨0x820 + 0x40 * n, 31, 16⟩
def Reg.ETH_PROF8.SRC_UDP (n : Nat) : RegField := ⟨0x820 + 0x40 * n, 15, 0⟩
def Reg.ETH_PROF9.FAIL_S (n : Nat) : RegField := ⟨0x824 + 0x40 * n, 31, 16⟩
def Reg.ETH_PROF9.DEAD_MS (n : Nat) : RegField := ⟨0x824 + 0x40 * n, 15, 0⟩

/-- The registers of page ETH, R489. -/
def regTableETH : List RegDesc :=
  [⟨0x100, 0x0, 1, false, [⟨1, 0, .rw, 0, 0, 2⟩]⟩,
   ⟨0x104, 0x0, 1, false, [⟨31, 16, .ro, 0, 0, 65535⟩, ⟨2, 1, .ro, 0, 0, 3⟩, ⟨0, 0, .ro, 0, 0, 1⟩]⟩,
   ⟨0x108, 0x0, 1, false, [⟨31, 0, .rw, 0, 0, 4294967295⟩]⟩,
   ⟨0x10c, 0x0, 1, false, [⟨15, 0, .rw, 0, 0, 65535⟩]⟩,
   ⟨0x110, 0x0, 1, false, [⟨31, 0, .rw, 0, 0, 4294967295⟩]⟩,
   ⟨0x114, 0x4, 4, false, [⟨31, 0, .rw, 0, 0, 4294967295⟩]⟩,
   ⟨0x124, 0x0, 1, false, [⟨23, 0, .rw, 0, 0, 16777215⟩]⟩,
   ⟨0x140, 0x0, 1, false, [⟨31, 0, .ro, 0, 0, 4294967295⟩]⟩,
   ⟨0x144, 0x0, 1, false, [⟨31, 0, .ro, 0, 0, 4294967295⟩]⟩,
   ⟨0x148, 0x0, 1, false, [⟨31, 0, .ro, 0, 0, 4294967295⟩]⟩,
   ⟨0x14c, 0x0, 1, false, [⟨31, 0, .ro, 0, 0, 4294967295⟩]⟩,
   ⟨0x800, 0x40, 32, false, [⟨31, 16, .rw, 0, 0, 65535⟩, ⟨13, 8, .rw, 0, 0, 63⟩, ⟨4, 4, .rw, 0, 0, 1⟩, ⟨3, 3, .rw, 0, 0, 1⟩, ⟨2, 2, .rw, 0, 0, 1⟩, ⟨1, 1, .rw, 0, 0, 1⟩, ⟨0, 0, .rw, 0, 0, 1⟩]⟩,
   ⟨0x804, 0x40, 32, false, [⟨31, 16, .rw, 0, 64, 2048⟩, ⟨15, 0, .rw, 0, 1518, 9600⟩]⟩,
   ⟨0x808, 0x40, 32, false, [⟨31, 0, .rw, 0, 0, 4294967295⟩]⟩,
   ⟨0x80c, 0x40, 32, false, [⟨31, 16, .rw, 0, 0, 65535⟩, ⟨15, 0, .rw, 0, 0, 65535⟩]⟩,
   ⟨0x810, 0x40, 32, false, [⟨31, 0, .rw, 0, 0, 4294967295⟩]⟩] ++
  [⟨0x814, 0x40, 32, false, [⟨31, 0, .rw, 0, 0, 4294967295⟩]⟩,
   ⟨0x818, 0x40, 32, false, [⟨31, 0, .rw, 0, 0, 4294967295⟩]⟩,
   ⟨0x81c, 0x40, 32, false, [⟨31, 0, .rw, 0, 0, 4294967295⟩]⟩,
   ⟨0x820, 0x40, 32, false, [⟨31, 16, .rw, 2000, 100, 65535⟩, ⟨15, 0, .rw, 0, 0, 65535⟩]⟩,
   ⟨0x824, 0x40, 32, false, [⟨31, 16, .rw, 30, 1, 3600⟩, ⟨15, 0, .rw, 1000, 10, 60000⟩]⟩]

/-! Page CMP (chapter 18, R511). -/
def Reg.CMP_CFG.LEVEL : RegField := ⟨0x100, 11, 8⟩
def Reg.CMP_CFG.FRAMING : RegField := ⟨0x100, 1, 0⟩
def Reg.CMP_IN_LO : RegField := ⟨0x104, 31, 0⟩
def Reg.CMP_IN_HI.SPACE : RegField := ⟨0x108, 17, 16⟩
def Reg.CMP_IN_HI.ADDR : RegField := ⟨0x108, 15, 0⟩
def Reg.CMP_IN_BYTES : RegField := ⟨0x10c, 31, 0⟩
def Reg.CMP_OUT_LO : RegField := ⟨0x110, 31, 0⟩
def Reg.CMP_OUT_HI.SPACE : RegField := ⟨0x114, 17, 16⟩
def Reg.CMP_OUT_HI.ADDR : RegField := ⟨0x114, 15, 0⟩
def Reg.CMP_OUT_BYTES : RegField := ⟨0x118, 31, 0⟩
def Reg.CMP_STAT.STREAM : RegField := ⟨0x11c, 8, 8⟩
def Reg.CMP_STAT.FRAMING : RegField := ⟨0x11c, 5, 4⟩
def Reg.CMP_STAT.LEVEL : RegField := ⟨0x11c, 3, 0⟩
def Reg.CMP_JOBS : RegField := ⟨0x120, 31, 0⟩
def Reg.CMP_NOSPACE : RegField := ⟨0x124, 31, 0⟩
def Reg.CMP_INT_ERR : RegField := ⟨0x128, 31, 0⟩

/-- The registers of page CMP, R511. -/
def regTableCMP : List RegDesc :=
  [⟨0x100, 0x0, 1, false, [⟨11, 8, .rw, 6, 1, 12⟩, ⟨1, 0, .rw, 1, 0, 2⟩]⟩,
   ⟨0x104, 0x0, 1, false, [⟨31, 0, .rw, 0, 0, 4294967295⟩]⟩,
   ⟨0x108, 0x0, 1, false, [⟨17, 16, .rw, 0, 0, 2⟩, ⟨15, 0, .rw, 0, 0, 65535⟩]⟩,
   ⟨0x10c, 0x0, 1, false, [⟨31, 0, .rw, 0, 0, 4294967295⟩]⟩,
   ⟨0x110, 0x0, 1, false, [⟨31, 0, .rw, 0, 0, 4294967295⟩]⟩,
   ⟨0x114, 0x0, 1, false, [⟨17, 16, .rw, 0, 0, 2⟩, ⟨15, 0, .rw, 0, 0, 65535⟩]⟩,
   ⟨0x118, 0x0, 1, false, [⟨31, 0, .rw, 4194304, 1, 4294967295⟩]⟩,
   ⟨0x11c, 0x0, 1, false, [⟨8, 8, .ro, 0, 0, 1⟩, ⟨5, 4, .ro, 0, 0, 3⟩, ⟨3, 0, .ro, 0, 0, 15⟩]⟩,
   ⟨0x120, 0x0, 1, false, [⟨31, 0, .ro, 0, 0, 4294967295⟩]⟩,
   ⟨0x124, 0x0, 1, false, [⟨31, 0, .ro, 0, 0, 4294967295⟩]⟩,
   ⟨0x128, 0x0, 1, false, [⟨31, 0, .ro, 0, 0, 4294967295⟩]⟩]

/-! Page CRC (chapter 18, R511). -/
def Reg.CRC_CFG.FOLD_EN : RegField := ⟨0x100, 8, 8⟩
def Reg.CRC_CFG.FEED : RegField := ⟨0x100, 4, 4⟩
def Reg.CRC_CFG.POLY : RegField := ⟨0x100, 1, 0⟩
def Reg.CRC_SEED : RegField := ⟨0x104, 31, 0⟩
def Reg.CRC_FOLD0 : RegField := ⟨0x108, 31, 0⟩
def Reg.CRC_FOLD1 : RegField := ⟨0x10c, 31, 0⟩
def Reg.CRC_VALUE : RegField := ⟨0x110, 31, 0⟩
def Reg.CRC_COUNT0 : RegField := ⟨0x114, 31, 0⟩
def Reg.CRC_COUNT1 : RegField := ⟨0x118, 31, 0⟩
def Reg.CRC_STAT.HALF : RegField := ⟨0x11c, 0, 0⟩

/-- The registers of page CRC, R511. -/
def regTableCRC : List RegDesc :=
  [⟨0x100, 0x0, 1, false, [⟨8, 8, .rw, 0, 0, 1⟩, ⟨4, 4, .rw, 0, 0, 1⟩, ⟨1, 0, .rw, 0, 0, 2⟩]⟩,
   ⟨0x104, 0x0, 1, false, [⟨31, 0, .rw, 4294967295, 0, 4294967295⟩]⟩,
   ⟨0x108, 0x0, 1, false, [⟨31, 0, .rw, 0, 0, 4294967295⟩]⟩,
   ⟨0x10c, 0x0, 1, false, [⟨31, 0, .rw, 0, 0, 4294967295⟩]⟩,
   ⟨0x110, 0x0, 1, false, [⟨31, 0, .ro, 0, 0, 4294967295⟩]⟩,
   ⟨0x114, 0x0, 1, false, [⟨31, 0, .ro, 0, 0, 4294967295⟩]⟩,
   ⟨0x118, 0x0, 1, false, [⟨31, 0, .ro, 0, 0, 4294967295⟩]⟩,
   ⟨0x11c, 0x0, 1, false, [⟨0, 0, .ro, 0, 0, 1⟩]⟩]

/-! Page MC (chapter 19, R540). -/
def Reg.MC_STAT.READY : RegField := ⟨0x100, 17, 16⟩
def Reg.MC_STAT.FAULT_SUB : RegField := ⟨0x100, 15, 8⟩
def Reg.MC_STAT.CORE_STATE : RegField := ⟨0x100, 2, 0⟩
def Reg.MC_PC.PC : RegField := ⟨0x104, 12, 0⟩
def Reg.MC_FAULT_PC.PC : RegField := ⟨0x108, 12, 0⟩
def Reg.MC_IN_CFG.WORDS : RegField := ⟨0x10c, 31, 16⟩
def Reg.MC_IN_CFG.BASE : RegField := ⟨0x10c, 15, 0⟩
def Reg.MC_OUT_CFG.WORDS : RegField := ⟨0x110, 31, 16⟩
def Reg.MC_OUT_CFG.BASE : RegField := ⟨0x110, 15, 0⟩
def Reg.MC_TASK : RegField := ⟨0x114, 31, 0⟩
def Reg.MC_CYCLES0 : RegField := ⟨0x120, 31, 0⟩
def Reg.MC_CYCLES1 : RegField := ⟨0x124, 31, 0⟩
def Reg.MC_STALLS : RegField := ⟨0x128, 31, 0⟩
def Reg.MC_IN_DROPPED : RegField := ⟨0x12c, 31, 0⟩
def Reg.MC_IN_STALE : RegField := ⟨0x130, 31, 0⟩
def Reg.MC_PUBLISHES : RegField := ⟨0x134, 31, 0⟩
def Reg.MC_ECC_CE : RegField := ⟨0x138, 31, 0⟩

/-- The registers of page MC, R540. -/
def regTableMC : List RegDesc :=
  [⟨0x100, 0x0, 1, false, [⟨17, 16, .ro, 0, 0, 3⟩, ⟨15, 8, .ro, 0, 0, 255⟩, ⟨2, 0, .ro, 0, 0, 7⟩]⟩,
   ⟨0x104, 0x0, 1, false, [⟨12, 0, .ro, 0, 0, 8191⟩]⟩,
   ⟨0x108, 0x0, 1, false, [⟨12, 0, .ro, 0, 0, 8191⟩]⟩,
   ⟨0x10c, 0x0, 1, false, [⟨31, 16, .rw, 0, 0, 65535⟩, ⟨15, 0, .rw, 0, 0, 65535⟩]⟩,
   ⟨0x110, 0x0, 1, false, [⟨31, 16, .rw, 0, 0, 65535⟩, ⟨15, 0, .rw, 0, 0, 65535⟩]⟩,
   ⟨0x114, 0x0, 1, false, [⟨31, 0, .ro, 0, 0, 4294967295⟩]⟩,
   ⟨0x120, 0x0, 1, false, [⟨31, 0, .ro, 0, 0, 4294967295⟩]⟩,
   ⟨0x124, 0x0, 1, false, [⟨31, 0, .ro, 0, 0, 4294967295⟩]⟩,
   ⟨0x128, 0x0, 1, false, [⟨31, 0, .ro, 0, 0, 4294967295⟩]⟩,
   ⟨0x12c, 0x0, 1, false, [⟨31, 0, .ro, 0, 0, 4294967295⟩]⟩,
   ⟨0x130, 0x0, 1, false, [⟨31, 0, .ro, 0, 0, 4294967295⟩]⟩,
   ⟨0x134, 0x0, 1, false, [⟨31, 0, .ro, 0, 0, 4294967295⟩]⟩,
   ⟨0x138, 0x0, 1, false, [⟨31, 0, .ro, 0, 0, 4294967295⟩]⟩]

/-! Page DSP (chapter 20, R558). -/
def Reg.DSP_CFG.LUT_BANK : RegField := ⟨0x100, 11, 10⟩
def Reg.DSP_CFG.LOWREF_EN : RegField := ⟨0x100, 9, 9⟩
def Reg.DSP_CFG.GENLOCK_EN : RegField := ⟨0x100, 8, 8⟩
def Reg.DSP_CFG.LAYERS : RegField := ⟨0x100, 7, 4⟩
def Reg.DSP_CFG.OUT_EN : RegField := ⟨0x100, 3, 2⟩
def Reg.DSP_CFG.MODE : RegField := ⟨0x100, 0, 0⟩
def Reg.DSP_T_H.TOTAL (n : Nat) : RegField := ⟨0x104 + 0x10 * n, 31, 16⟩
def Reg.DSP_T_H.ACTIVE (n : Nat) : RegField := ⟨0x104 + 0x10 * n, 15, 0⟩
def Reg.DSP_T_V.TOTAL (n : Nat) : RegField := ⟨0x108 + 0x10 * n, 31, 16⟩
def Reg.DSP_T_V.ACTIVE (n : Nat) : RegField := ⟨0x108 + 0x10 * n, 15, 0⟩
def Reg.DSP_T_CLK.KHZ (n : Nat) : RegField := ⟨0x10c + 0x10 * n, 31, 0⟩
def Reg.DSP_ANNOT_LO.ADDR : RegField := ⟨0x120, 31, 6⟩
def Reg.DSP_ANNOT_HI.ADDR : RegField := ⟨0x124, 15, 0⟩
def Reg.DSP_ANNOT_STRIDE : RegField := ⟨0x128, 31, 0⟩
def Reg.DSP_STAT.GL_STATE : RegField := ⟨0x130, 19, 18⟩
def Reg.DSP_STAT.GL_PRESENT : RegField := ⟨0x130, 17, 17⟩
def Reg.DSP_STAT.LOWREF_CAP : RegField := ⟨0x130, 16, 16⟩
def Reg.DSP_STAT.HPD1 : RegField := ⟨0x130, 11, 11⟩
def Reg.DSP_STAT.OUT1_STATE : RegField := ⟨0x130, 10, 8⟩
def Reg.DSP_STAT.HPD0 : RegField := ⟨0x130, 7, 7⟩
def Reg.DSP_STAT.OUT0_STATE : RegField := ⟨0x130, 6, 4⟩
def Reg.DSP_LTR : RegField := ⟨0x134, 31, 0⟩
def Reg.DSP_RETIRE_SEQ : RegField := ⟨0x138, 31, 0⟩
def Reg.DSP_RETIRE_LO : RegField := ⟨0x13c, 31, 0⟩
def Reg.DSP_RETIRE_HI : RegField := ⟨0x140, 31, 0⟩
def Reg.DSP_FRAMES : RegField := ⟨0x150, 31, 0⟩
def Reg.DSP_UNDERRUN : RegField := ⟨0x154, 31, 0⟩
def Reg.DSP_BLANKS : RegField := ⟨0x158, 31, 0⟩
def Reg.DSP_LOWREF : RegField := ⟨0x15c, 31, 0⟩
def Reg.DSP_CHECK_ERR0 : RegField := ⟨0x160, 31, 0⟩
def Reg.DSP_CHECK_ERR1 : RegField := ⟨0x164, 31, 0⟩
def Reg.DSP_CRC_RG (n : Nat) : RegField := ⟨0x170 + 0x8 * n, 31, 0⟩
def Reg.DSP_CRC_B (n : Nat) : RegField := ⟨0x174 + 0x8 * n, 31, 0⟩
def Reg.DSP_VSYNC_SIX0 : RegField := ⟨0x180, 31, 0⟩
def Reg.DSP_VSYNC_SIX1 : RegField := ⟨0x184, 31, 0⟩
def Reg.DSP_VSYNC_SIX2.SIX : RegField := ⟨0x188, 7, 0⟩

/-- The registers of page DSP, R558. -/
def regTableDSP : List RegDesc :=
  [⟨0x100, 0x0, 1, true, [⟨11, 10, .rw, 0, 0, 3⟩, ⟨9, 9, .rw, 1, 0, 1⟩, ⟨8, 8, .rw, 1, 0, 1⟩, ⟨7, 4, .rw, 0, 0, 15⟩, ⟨3, 2, .rw, 0, 0, 3⟩, ⟨0, 0, .rw, 0, 0, 1⟩]⟩,
   ⟨0x104, 0x10, 2, true, [⟨31, 16, .rw, 2000, 0, 65535⟩, ⟨15, 0, .rw, 1920, 0, 65535⟩]⟩,
   ⟨0x108, 0x10, 2, true, [⟨31, 16, .rw, 1111, 0, 65535⟩, ⟨15, 0, .rw, 1080, 0, 65535⟩]⟩,
   ⟨0x10c, 0x10, 2, true, [⟨31, 0, .rw, 133320, 100000, 1200000⟩]⟩,
   ⟨0x120, 0x0, 1, true, [⟨31, 6, .rw, 0, 0, 67108863⟩]⟩,
   ⟨0x124, 0x0, 1, true, [⟨15, 0, .rw, 0, 0, 65535⟩]⟩,
   ⟨0x128, 0x0, 1, true, [⟨31, 0, .rw, 0, 0, 4294967295⟩]⟩,
   ⟨0x130, 0x0, 1, false, [⟨19, 18, .ro, 0, 0, 3⟩, ⟨17, 17, .ro, 0, 0, 1⟩, ⟨16, 16, .ro, 0, 0, 1⟩, ⟨11, 11, .ro, 0, 0, 1⟩, ⟨10, 8, .ro, 0, 0, 7⟩, ⟨7, 7, .ro, 0, 0, 1⟩, ⟨6, 4, .ro, 0, 0, 7⟩]⟩,
   ⟨0x134, 0x0, 1, false, [⟨31, 0, .ro, 4294967295, 0, 4294967295⟩]⟩,
   ⟨0x138, 0x0, 1, false, [⟨31, 0, .ro, 0, 0, 4294967295⟩]⟩,
   ⟨0x13c, 0x0, 1, false, [⟨31, 0, .ro, 0, 0, 4294967295⟩]⟩,
   ⟨0x140, 0x0, 1, false, [⟨31, 0, .ro, 0, 0, 4294967295⟩]⟩,
   ⟨0x150, 0x0, 1, false, [⟨31, 0, .ro, 0, 0, 4294967295⟩]⟩,
   ⟨0x154, 0x0, 1, false, [⟨31, 0, .ro, 0, 0, 4294967295⟩]⟩,
   ⟨0x158, 0x0, 1, false, [⟨31, 0, .ro, 0, 0, 4294967295⟩]⟩,
   ⟨0x15c, 0x0, 1, false, [⟨31, 0, .ro, 0, 0, 4294967295⟩]⟩] ++
  [⟨0x160, 0x0, 1, false, [⟨31, 0, .ro, 0, 0, 4294967295⟩]⟩,
   ⟨0x164, 0x0, 1, false, [⟨31, 0, .ro, 0, 0, 4294967295⟩]⟩,
   ⟨0x170, 0x8, 2, false, [⟨31, 0, .ro, 0, 0, 4294967295⟩]⟩,
   ⟨0x174, 0x8, 2, false, [⟨31, 0, .ro, 0, 0, 4294967295⟩]⟩,
   ⟨0x180, 0x0, 1, false, [⟨31, 0, .ro, 0, 0, 4294967295⟩]⟩,
   ⟨0x184, 0x0, 1, false, [⟨31, 0, .ro, 0, 0, 4294967295⟩]⟩,
   ⟨0x188, 0x0, 1, false, [⟨7, 0, .ro, 0, 0, 255⟩]⟩]

/-! Page MOD (chapter 21, R582). -/
def Reg.MOD_ID.PART : RegField := ⟨0x100, 31, 16⟩
def Reg.MOD_ID.REV : RegField := ⟨0x100, 15, 8⟩
def Reg.MOD_ID.VARIANT : RegField := ⟨0x100, 7, 0⟩
def Reg.MOD_SERIAL0 : RegField := ⟨0x104, 31, 0⟩
def Reg.MOD_SERIAL1 : RegField := ⟨0x108, 31, 0⟩
def Reg.MOD_FW : RegField := ⟨0x10c, 31, 0⟩
def Reg.MOD_STAT.LAST_RESET : RegField := ⟨0x110, 31, 28⟩
def Reg.MOD_STAT.PF_CAUSE : RegField := ⟨0x110, 27, 24⟩
def Reg.MOD_STAT.PF_STEP : RegField := ⟨0x110, 23, 20⟩
def Reg.MOD_STAT.PHASE : RegField := ⟨0x110, 7, 4⟩
def Reg.MOD_STAT.RECOVERY : RegField := ⟨0x110, 3, 3⟩
def Reg.MOD_STAT.DEGRADED : RegField := ⟨0x110, 2, 2⟩
def Reg.MOD_STAT.POWER_FAIL : RegField := ⟨0x110, 1, 1⟩
def Reg.MOD_STAT.READY : RegField := ⟨0x110, 0, 0⟩
def Reg.MOD_PWR_ALLOW.CODEC : RegField := ⟨0x114, 4, 4⟩
def Reg.MOD_PWR_ALLOW.DISPLAY : RegField := ⟨0x114, 3, 3⟩
def Reg.MOD_PWR_ALLOW.ETH : RegField := ⟨0x114, 2, 2⟩
def Reg.MOD_PWR_ALLOW.CORES : RegField := ⟨0x114, 1, 1⟩
def Reg.MOD_PWR_ALLOW.PIPE : RegField := ⟨0x114, 0, 0⟩

/-- The registers of page MOD, R582. -/
def regTableMOD : List RegDesc :=
  [⟨0x100, 0x0, 1, false, [⟨31, 16, .ro, 5696, 0, 65535⟩, ⟨15, 8, .ro, 1, 0, 255⟩, ⟨7, 0, .ro, 0, 0, 255⟩]⟩,
   ⟨0x104, 0x0, 1, false, [⟨31, 0, .ro, 0, 0, 4294967295⟩]⟩,
   ⟨0x108, 0x0, 1, false, [⟨31, 0, .ro, 0, 0, 4294967295⟩]⟩,
   ⟨0x10c, 0x0, 1, false, [⟨31, 0, .ro, 0, 0, 4294967295⟩]⟩,
   ⟨0x110, 0x0, 1, false, [⟨31, 28, .ro, 0, 0, 15⟩, ⟨27, 24, .ro, 0, 0, 15⟩, ⟨23, 20, .ro, 0, 0, 15⟩, ⟨7, 4, .ro, 1, 0, 15⟩, ⟨3, 3, .ro, 0, 0, 1⟩, ⟨2, 2, .ro, 0, 0, 1⟩, ⟨1, 1, .ro, 0, 0, 1⟩, ⟨0, 0, .ro, 0, 0, 1⟩]⟩,
   ⟨0x114, 0x0, 1, false, [⟨4, 4, .rw, 0, 0, 1⟩, ⟨3, 3, .rw, 0, 0, 1⟩, ⟨2, 2, .rw, 0, 0, 1⟩, ⟨1, 1, .rw, 0, 0, 1⟩, ⟨0, 0, .rw, 0, 0, 1⟩]⟩]

/-! Page PWR (chapter 21, R582). -/
def Reg.PWR_DOMAINS.MAP : RegField := ⟨0x100, 29, 0⟩
def Reg.PWR_TRIPPED.MAP : RegField := ⟨0x104, 29, 0⟩
def Reg.PWR_VIN.HI : RegField := ⟨0x108, 31, 16⟩
def Reg.PWR_VIN.LO : RegField := ⟨0x108, 15, 0⟩
def Reg.PWR_PIN.HI : RegField := ⟨0x10c, 31, 16⟩
def Reg.PWR_PIN.LO : RegField := ⟨0x10c, 15, 0⟩
def Reg.PWR_SWITCHES : RegField := ⟨0x110, 31, 0⟩

/-- The registers of page PWR, R582. -/
def regTablePWR : List RegDesc :=
  [⟨0x100, 0x0, 1, false, [⟨29, 0, .ro, 0, 0, 1073741823⟩]⟩,
   ⟨0x104, 0x0, 1, false, [⟨29, 0, .ro, 0, 0, 1073741823⟩]⟩,
   ⟨0x108, 0x0, 1, false, [⟨31, 16, .ro, 0, 0, 65535⟩, ⟨15, 0, .ro, 0, 0, 65535⟩]⟩,
   ⟨0x10c, 0x0, 1, false, [⟨31, 16, .ro, 0, 0, 65535⟩, ⟨15, 0, .ro, 0, 0, 65535⟩]⟩,
   ⟨0x110, 0x0, 1, false, [⟨31, 0, .ro, 0, 0, 4294967295⟩]⟩]

/-! Page SEC (chapter 21, R583). -/
def Reg.SEC_STAT.SVN_MIN : RegField := ⟨0x100, 31, 24⟩
def Reg.SEC_STAT.SVN : RegField := ⟨0x100, 23, 16⟩
def Reg.SEC_STAT.UPDATE : RegField := ⟨0x100, 15, 12⟩
def Reg.SEC_STAT.OTHER_VALID : RegField := ⟨0x100, 9, 9⟩
def Reg.SEC_STAT.BANK : RegField := ⟨0x100, 8, 8⟩
def Reg.SEC_STAT.KT : RegField := ⟨0x100, 4, 4⟩
def Reg.SEC_STAT.PROVISIONED : RegField := ⟨0x100, 3, 3⟩
def Reg.SEC_STAT.ZEROISED : RegField := ⟨0x100, 2, 2⟩
def Reg.SEC_STAT.DEBUG_OPEN : RegField := ⟨0x100, 1, 1⟩
def Reg.SEC_STAT.FALLBACK : RegField := ⟨0x100, 0, 0⟩
def Reg.SEC_KEYS0 : RegField := ⟨0x104, 31, 0⟩
def Reg.SEC_KEYS1 : RegField := ⟨0x108, 31, 0⟩
def Reg.SEC_KEYS2.MAP : RegField := ⟨0x10c, 7, 0⟩
def Reg.SEC_FW_OTHER : RegField := ⟨0x110, 31, 0⟩

/-- The registers of page SEC, R583. -/
def regTableSEC : List RegDesc :=
  [⟨0x100, 0x0, 1, false, [⟨31, 24, .ro, 0, 0, 255⟩, ⟨23, 16, .ro, 0, 0, 255⟩, ⟨15, 12, .ro, 0, 0, 15⟩, ⟨9, 9, .ro, 0, 0, 1⟩, ⟨8, 8, .ro, 0, 0, 1⟩, ⟨4, 4, .ro, 0, 0, 1⟩, ⟨3, 3, .ro, 0, 0, 1⟩, ⟨2, 2, .ro, 0, 0, 1⟩, ⟨1, 1, .ro, 0, 0, 1⟩, ⟨0, 0, .ro, 0, 0, 1⟩]⟩,
   ⟨0x104, 0x0, 1, false, [⟨31, 0, .ro, 0, 0, 4294967295⟩]⟩,
   ⟨0x108, 0x0, 1, false, [⟨31, 0, .ro, 0, 0, 4294967295⟩]⟩,
   ⟨0x10c, 0x0, 1, false, [⟨7, 0, .ro, 0, 0, 255⟩]⟩,
   ⟨0x110, 0x0, 1, false, [⟨31, 0, .ro, 0, 0, 4294967295⟩]⟩]

/-! Page FLT (chapter 22, R598). -/
def Reg.FLT_STAT.FAULT_N : RegField := ⟨0x100, 16, 16⟩
def Reg.FLT_STAT.ISOLATED : RegField := ⟨0x100, 15, 8⟩
def Reg.FLT_STAT.STATE : RegField := ⟨0x100, 2, 0⟩
def Reg.FLT_HEAD : RegField := ⟨0x104, 31, 0⟩
def Reg.FLT_OLDEST : RegField := ⟨0x108, 31, 0⟩
def Reg.FLT_LOST : RegField := ⟨0x10c, 31, 0⟩
def Reg.FLT_FLASH_COUNT : RegField := ⟨0x110, 31, 0⟩
def Reg.FLT_PLANES.MISMATCH : RegField := ⟨0x114, 31, 24⟩
def Reg.FLT_PLANES.PLANE_OUT : RegField := ⟨0x114, 1, 0⟩

/-- The registers of page FLT, R598. -/
def regTableFLT : List RegDesc :=
  [⟨0x100, 0x0, 1, false, [⟨16, 16, .ro, 0, 0, 1⟩, ⟨15, 8, .ro, 0, 0, 255⟩, ⟨2, 0, .ro, 0, 0, 7⟩]⟩,
   ⟨0x104, 0x0, 1, false, [⟨31, 0, .ro, 0, 0, 4294967295⟩]⟩,
   ⟨0x108, 0x0, 1, false, [⟨31, 0, .ro, 0, 0, 4294967295⟩]⟩,
   ⟨0x10c, 0x0, 1, false, [⟨31, 0, .ro, 0, 0, 4294967295⟩]⟩,
   ⟨0x110, 0x0, 1, false, [⟨31, 0, .ro, 0, 0, 4294967295⟩]⟩,
   ⟨0x114, 0x0, 1, false, [⟨31, 24, .ro, 0, 0, 255⟩, ⟨1, 0, .ro, 0, 0, 3⟩]⟩]

/-! Page RID (chapter 15, R417). -/

/-- The registers of page RID, R417. -/
def regTableRID : List RegDesc :=
  []

/-- The block-specific registers of a block type (R41: from offset 0x100 upward). -/
def regTable : BlockType → List RegDesc
  | .tbs => regTableTBS
  | .tdc => regTableTDC
  | .adc => regTableADC
  | .afe => regTableAFE
  | .ddc => regTableDDC
  | .ins => regTableINS
  | .fft => regTableFFT
  | .grt => regTableGRT
  | .ctr => regTableCTR
  | .ttr => regTableTTR
  | .trg => regTableTRG
  | .cap => regTableCAP
  | .red => regTableRED
  | .phn => regTablePHN
  | .svy => regTableSVY
  | .trm => regTableTRM
  | .mem => regTableMEM
  | .bxe => regTableBXE
  | .rng => regTableRNG
  | .trv => regTableTRV
  | .str => regTableSTR
  | .hif => regTableHIF
  | .nvi => regTableNVI
  | .eth => regTableETH
  | .cmp => regTableCMP
  | .crc => regTableCRC
  | .mc => regTableMC
  | .dsp => regTableDSP
  | .mod => regTableMOD
  | .pwr => regTablePWR
  | .sec => regTableSEC
  | .flt => regTableFLT
  | .rid => regTableRID
  | .none => []

end Sys2Proof.Machine
end

