-- ==== Sys2Proof/Machine/State.lean ====
section
/-! DEFINITION. The state of the module: plain data, holding every register, queue, counter, mode and pin the spec
gives the ZVX-1640, and the queue of waiting commands. Registers live in their pages (`Page.regs`), as one sparse map
per page over the catalogue's reset values; what the spec describes beside the registers is held in the structures
below. -/

namespace Sys2Proof.Machine

/-- Why a step stops with a fault: no command of this hardware does. -/
inductive Fault where
  deriving DecidableEq, Repr

/-- Why a step refuses a command. -/
inductive Refusal where
  /-- Raised by the arms of `exec` that have no meaning yet, with the row's mnemonic. Safe. -/
  | notModelled (mnemonic : String)
  deriving DecidableEq, Repr

/-- An operation in progress on a page (R53): its opcode, tag and latched arguments, and whether it is SUSPENDED. -/
structure Op where
  opcode : Nat
  tag : Nat
  a0 : Nat
  a1 : Nat
  a2 : Nat
  a3 : Nat
  suspended : Bool
  deriving DecidableEq, Repr

/-- A register page: the common header of R41 and the block's own registers. -/
structure Page where
  /-- PG_OWNER: owner, owner generation, and the owner before RESERVE (R45). -/
  owner : Owner
  gen : Nat
  before : Option Owner
  /-- PG_CTRL. SOFT_RESET reads 1 while the reset it caused lasts. -/
  softRst : Bool
  enable : Bool
  freeze : Bool
  lock : Bool
  /-- PG_STAT: the state, the state before FROZEN, and the STALE and SETTLING marks. -/
  st : BlockState
  prev : BlockState
  stale : Bool
  settling : Bool
  /-- The next output legend carries GAP_BEFORE (R49). -/
  gapNext : Bool
  /-- Inputs discarded while SUSPENDED: samples of a chain, outputs or spectra of the blocks after it (R49). -/
  dropped : Nat
  err : Word
  errEn : Word
  irq : Word
  irqEn : Word
  a0 : Word
  a1 : Word
  a2 : Word
  a3 : Word
  cmdStat : Word
  progress : Word
  resSeq : Word
  resReady : Bool
  res : List Word
  /-- The operation in progress. -/
  op : Option Op
  /-- Results that wait for the window (R61): whether it is the operation's own, and its words. -/
  waiting : List (Bool × List Word)
  /-- Block-specific registers by offset: written value, or staged value of a staged register. -/
  regs : List (Nat × Word)
  /-- Values applied, of the staged registers (R619). -/
  applied : List (Nat × Word)
  deriving DecidableEq, Repr

/-- A page at reset (R41), with the owner of the catalogue. -/
def Page.ofKey (key : Nat) : Page :=
  { owner := ownerAtReset key, gen := 0, before := none, softRst := false, enable := false, freeze := false, lock := false,
    st := .reset, prev := .idle, stale := false, settling := false, gapNext := false, dropped := 0,
    err := 0, errEn := 0, irq := 0, irqEn := 0, a0 := 0, a1 := 0, a2 := 0, a3 := 0, cmdStat := 0, progress := 0,
    resSeq := 0, resReady := false, res := [0, 0, 0, 0, 0, 0, 0, 0], op := none, waiting := [], regs := [],
    applied := [] }

/-- A page at reset on a module with or without a guest die, whose pages are those of region 7 and have the owner GUEST (R40). -/
def Page.atReset (guest : Bool) (key : Nat) : Page :=
  { Page.ofKey key with owner := if guest && decide (keyRegion key = 7) then .guest else ownerAtReset key }

/-- An entry of the fault log (R591). -/
structure LogEntry where
  entry : Nat
  level : Nat
  code : Nat
  sub : Nat
  kind : Nat
  six : Nat
  source : Nat
  pageKey : Nat
  detail : Nat
  deriving DecidableEq, Repr

/-- A synchronising reset asked for by ARM_SYNC or SYNC_NOW (R84-R89): the configuration latched at acceptance. -/
structure SyncOp where
  /-- SYNC_NOW rather than ARM_SYNC. -/
  isNow : Bool
  falling : Bool
  syncout : Nat
  loadSix : Bool
  check : Bool
  delay : Nat
  sixLoad : Nat
  /-- SIX at which an ARM_SYNC without an edge times out. -/
  deadline : Nat
  /-- Elapsed SCLK periods at the first captured edge. -/
  first : Option Int
  /-- A captured edge (SIX, FINE) whose reset has not applied yet. -/
  edge : Option (Nat × Nat)
  deriving DecidableEq, Repr

/-- A benchmark (R80, R81): SIX_b, T_b in ps of the PTP epoch, FREQ_OFFSET, and the record's 32-byte payload. -/
structure Bench where
  six : Nat
  ps : Nat
  freqOff : Int
  payload : List Byte
  deriving DecidableEq, Repr

/-- The time base (R67-R89) beside the registers of the TBS page. -/
structure TimeBase where
  /-- SCLK has locked, and SIX counts (R76). -/
  running : Bool
  /-- Sum of the jumps LOAD_SIX made, so that SIX − shift is the count of SCLK periods (R87). -/
  shift : Int
  refinGood : Nat
  refinBad : Nat
  ptpGood : Nat
  ptpBad : Nat
  /-- Valid PPS_IN edges in a row, and the count of SCLK periods at the last one (R602). -/
  ppsGood : Nat
  ppsLast : Option Int
  /-- Steering of the last 10 s of checks, newest first (R69). -/
  steerHist : List Int
  /-- Count of SCLK periods at the entry into HOLDOVER, and the mean steering before it (R69). -/
  holdAt : Int
  holdSteer : Int
  /-- Frequency offset in force from the crystal's own frequency, in 10⁻¹⁴ (R67). -/
  offset : Int
  /-- The latest benchmark: SIX_b, T_b in ps of the PTP epoch, FREQ_OFFSET (R80, R83). -/
  benchSix : Nat
  benchPs : Nat
  freqOff : Int
  /-- Every benchmark, newest first (R83). -/
  benches : List Bench
  /-- SIX of the next benchmark (R80). -/
  nextBench : Nat
  /-- A change of the time mapping for the next benchmark, in ps (R82). -/
  pendStep : Option Int
  /-- SIX was loaded since the last benchmark (R81). -/
  sixLoaded : Bool
  utc : Int
  /-- Seconds of a pending SET_TIME (R96). -/
  setSecs : Option Nat
  /-- The PTP master: its port identity, its data set, and the count of SCLK periods at which its announcement lapses (R73). -/
  ptpMaster : Option (Nat × Nat × Int)
  /-- Sequence numbers of the last Sync and of the last Delay_Req. -/
  ptpSync : Nat
  ptpReq : Nat
  /-- PTP exchange in progress: t1, t2, t3 in ps (R73). -/
  ptpT1 : Option Nat
  ptpT2 : Option Nat
  ptpT3 : Option Nat
  /-- SET_TIME has set the seconds, and PPS_IN edges mark them (R71, R75). -/
  todSet : Bool
  sync : Option SyncOp
  /-- Indices at which captured edges are forwarded on SYNCOUT (R89). -/
  repeatAt : List Nat
  ppsOut : Bool
  deriving DecidableEq, Repr

/-- An edge taken by the TDC: input, polarity, and time in 1/65,536 SCLK period, counted past every LOAD_SIX (R77). -/
structure TdcEdge where
  input : Nat
  falling : Bool
  t : Int
  deriving DecidableEq, Repr

/-- What the TDC is doing (R91-R93). -/
inductive TdcMode where
  | idle | waitStart | measuring | counting
  deriving DecidableEq, Repr

/-- The interval measurement unit beside the registers of the TDC page. -/
structure Tdc where
  mode : TdcMode
  /-- Start edge of the measurement, and its SIX and FINE as it was taken. -/
  start : Int
  startAt : Nat × Nat
  /-- End of START_WAIT, TIMEOUT or the gate. -/
  deadline : Int
  /-- Edges on stop inputs: before the start while waiting, stops while measuring. -/
  edges : List TdcEdge
  /-- TDC_MISS increments during the measurement. -/
  misses : Nat
  /-- Accepted edges by input and polarity, newest first, for the dead time (R92). -/
  last : List TdcEdge
  /-- FREQ_MEAS: input, edges, first and last edge. -/
  freqIn : Nat
  freqN : Nat
  freqFirst : Int
  freqLast : Int
  /-- Stops of a result that waits for the window (R97). -/
  heldStops : Option (List TdcEdge)
  deriving DecidableEq, Repr
/-- A configuration waiting for its index (R101, R149, R177, R192, R224, R264): the index, the staged words taken at
acceptance by register offset, and whether it is a COMMIT_AT of the page or the module's own change. -/
structure PendApply where
  due : Nat
  words : List (Nat × Word)
  byOp : Bool
  /-- Nothing was staged at acceptance, so that nothing applies at the index (R619). -/
  empty : Bool := false
  deriving DecidableEq, Repr

/-- Front-end settings of a converter from an index on, and the end of the settle time they start (R101). -/
structure AfeSet where
  from0 : Nat
  settleEnd : Nat
  zone : Nat
  atten : Nat
  deriving DecidableEq, Repr

/-- What the correlation of an ALIGN finds (R130): whole samples, fs, 0.001 dB and correlation × 10⁶. -/
structure AlignRun where
  shift : Int
  fracFs : Int
  gainMdb : Int
  corrPpm : Nat
  deriving DecidableEq, Repr

/-- A converter beside the registers of its ADC, AFE and TRM pages (R98-R131). -/
structure Conv where
  /-- End of the settle time of the last AFE change (R101). -/
  settleUntil : Nat
  /-- The settings it has had, newest first. -/
  sets : List AfeSet
  /-- Steps of the PRBS-15 test pattern since the last synchronising reset (R110). -/
  prbs : Nat
  /-- Frames launched and not released, oldest first: frame number and its 32 codes (R27, R109). -/
  frames : List (Nat × List Nat)
  /-- Number of the next frame the receive queue releases, and of the next frame launched. -/
  nextFrame : Nat
  nextLaunch : Nat
  /-- The last release found no frame (R28). -/
  lost : Bool
  /-- Frames pass from this index on; earlier ones are zero-filled (R124). -/
  passFrom : Nat
  /-- ADC_CFG as it applies to samples, with the index from which it does, newest first (R105, R110, R130). -/
  cfgs : List (Nat × Word)
  /-- ALIGN in progress (R130). -/
  align : Option AlignRun
  deriving DecidableEq, Repr

/-- Rotation of the spare converter (R117-R128) beside ADC_SPARE_STAT. -/
structure Rotation where
  /-- Input the rotation serves, 0-3. -/
  input : Nat
  /-- The converter C4 stands in for. -/
  main : Nat
  /-- H chosen and not reached. -/
  h : Option Nat
  /-- The first correlation has been applied (R119). -/
  corrected : Bool
  /-- 1 ms limit of ALIGNING. -/
  deadline : Nat
  /-- Skew that alignment added to C4's trims, in 10 fs (R335). -/
  skew : Int
  /-- Hand-back is checked again with the previous trims (R122). -/
  retried : Bool
  /-- C4 stands in because a page of the main converter is reserved (R128). -/
  reserved : Bool
  /-- Rotations asked for while C4 is not IDLE (R127). -/
  queue : List Nat
  /-- The calibration tone is injected on the spare branch (R119). -/
  tone : Bool
  /-- H is to be chosen once a migration on the channel has released its source (R126). -/
  waiting : Bool
  /-- ALIGN_SHIFT and skew of C4 as last verified against each input path (R123). -/
  paths : List (Nat × Nat × Int)
  /-- Per input: the last index at which its selector switched, and the converter it passed before (R120). -/
  switched : List (Nat × Nat × Nat)
  deriving DecidableEq, Repr
/-- A DC estimate, num / 2^exp codes, exact (R136). -/
structure DcEst where
  num : Int
  exp : Nat
  deriving DecidableEq, Repr

/-- Consecutive indices or labels that carry the same marks: MARK bits of R238 (0 SETTLING, 1 STALE, 2 SATURATED,
3 GAP_BEFORE). -/
structure MarkRun where
  first : Nat
  last : Nat
  marks : Nat
  deriving DecidableEq, Repr

/-- A chain output: label, I and Q, marks, and the converter that fed the chain. -/
structure ChainSample where
  label : Nat
  i : Int
  q : Int
  marks : Nat
  src : Nat
  deriving DecidableEq, Repr

/-- What a DC-blocked sample is: num / 2^exp at an index (R136). -/
structure DcSample where
  six : Nat
  num : Int
  exp : Nat
  deriving DecidableEq, Repr

/-- A sample between two stages: its label in half SCLK periods, I and Q, and whether a stage before saturated on what it depends
on (R144). -/
structure StageIn where
  label : Nat
  i : Int
  q : Int
  sat : Bool
  deriving DecidableEq, Repr

/-- A decimating stage: the label of its next output in half periods, and its delay line, newest first (R142). -/
structure Stage where
  next : Nat
  line : List StageIn
  deriving DecidableEq, Repr

/-- What a chain and an inset share: the decimating stages after the mix, and the outputs they have computed and not emitted. -/
structure Filt where
  /-- The stages in use and their responses. -/
  stages : List Stage
  resp : Word
  /-- While a crossfade runs, the set that it leaves (R148). -/
  older : Option (Word × List Stage)
  /-- Responses that the inputs from an index on meet, and whether a crossfade begins there (R147, R148). -/
  fork : Option (Nat × Word × Bool)
  /-- Outputs of the stages in use, and of the set left, that wait for emission, oldest first. -/
  ready : List StageIn
  readyOld : List StageIn
  /-- Emission point of the last output, in half periods (R148). -/
  emitAt : Nat
  /-- Outputs with labels below an index have a GAIN of their own (R147). -/
  gainAt : Nat
  gainOld : Nat
  deriving DecidableEq, Repr

/-- Tuning of the inputs from an index on: the words W and M, the accumulator's offset, phase(s) = M × s + off, DC_EN, the zone, and
whether the outputs whose window contains the index carry SETTLING (R136, R139-R141, R147). -/
structure Tune where
  from0 : Nat
  w : Nat
  m : Nat
  off : Nat
  dcEn : Bool
  zone : Nat
  settle : Bool
  deriving DecidableEq, Repr

/-- Converter, attenuation and flatness table in force from an index on (R165, R166). -/
structure FlatEntry where
  from0 : Nat
  conv : Nat
  atten : Nat
  id : Nat
  deriving DecidableEq, Repr

/-- A pipeline's filter chain (R132-R150) beside the DDC registers. -/
structure Chain where
  /-- The main converter whose channel the input selector passes; none before a task selects one. -/
  main : Option Nat
  /-- The other pipeline of a bonded gang. -/
  partner : Option Nat
  /-- Index after the last input received. -/
  inEnd : Nat
  /-- Marks of inputs, by index in half periods (R135). -/
  inMarks : List MarkRun
  /-- Index at which the stages were last zeroed (R145). -/
  zeroAt : Nat
  /-- Label of the next output. -/
  nextLabel : Nat
  /-- Outputs that still carry SETTLING after a start, reset or DECIM change. -/
  settleLeft : Nat
  /-- CLEAN is owed, and the first clean output has been emitted (R145). -/
  wantClean : Bool
  cleanSeen : Bool
  est0 : DcEst
  est1 : DcEst
  /-- FREEZE and SHIFT from a frame boundary on, newest first (R137). -/
  dcSets : List (Nat × Bool × Nat)
  /-- DC-blocked samples that the mix has not taken: those of a gang wait for the other converter (R114). -/
  raw : List DcSample
  /-- Tunings, newest first. -/
  tunes : List Tune
  stage0 : Stage
  filt : Filt
  /-- Samples left of a crossfade, and the label from which it counts (R148). -/
  xfLeft : Nat
  xfAt : Nat
  /-- Pending target of a commit taken during a crossfade (R149). -/
  target : Option (List (Nat × Word))
  /-- Marks of recent outputs, by label. -/
  outMarks : List MarkRun
  /-- Outputs that frames of the transform engine still take, oldest first: label, I and Q (R157). -/
  outs : List (Nat × Int × Int)
  /-- Capture FIFO: outputs the writer has not committed (R235). -/
  fifo : List ChainSample
  /-- Newest first (R166). -/
  flat : List FlatEntry
  deriving DecidableEq, Repr

/-- An inset (R151-R154) beside its INS registers. -/
structure Inset where
  nextLabel : Nat
  settleLeft : Nat
  xfLeft : Nat
  xfAt : Nat
  /-- Pending target of a commit during a crossfade: its four words (R149, R154). -/
  target : Option (List Word)
  /-- Index at which the stages were last zeroed. -/
  zeroAt : Nat
  /-- Offset words and phases, newest first (R152). -/
  tunes : List Tune
  filt : Filt
  /-- An inset disabled at an index emits no output with a label from there on (R154). -/
  stopAt : Option Nat
  /-- Outputs that a core may still take, newest first: label, I, Q and marks. -/
  outs : List (Nat × Int × Int × Nat)
  /-- Samples of the recording task's chunk so far, oldest first, the label of the first, and their marks (R281). -/
  chunk : List (Int × Int)
  chunkFirst : Nat
  chunkMarks : Nat
  deriving DecidableEq, Repr
/-- A bin of a corrected spectrum: its LOG16 value, its word in the record format of R171, and its power in mW, num / den. -/
structure Bin where
  log : Int
  word : Word
  num : Nat
  den : Nat
  deriving DecidableEq, Repr

/-- A group of frames combined into one output spectrum (R172). -/
structure SpecGroup where
  num : Nat
  frames : Nat
  /-- Its spectra, oldest first. -/
  all : List (List Bin)
  marks : Nat
  lastFrame : Nat
  lastSix : Nat
  src : Nat
  flatId : Nat
  deriving DecidableEq, Repr

/-- The open SPECTRUM record (R173, R174): first frame and time, spectra so far, the OR of their marks, the table of
the first one, the header bytes, and the tags and bins. -/
structure SpecRecord where
  first : Nat
  six : Nat
  spectra : Nat
  marks : Nat
  flatId : Nat
  hop : Nat
  labelP : Nat
  words : List (Nat × Word)
  decim : Nat
  bytes : List Byte
  deriving DecidableEq, Repr

/-- A pipeline's transform engine (R157-R178) beside the FFT registers. -/
structure Engine where
  /-- Start label of the next frame. -/
  nextStart : Nat
  /-- Each A not yet passed, with the words in force for frames that start before it, oldest first (R176). -/
  old : List (Nat × List (Nat × Word))
  /-- Bins of the last spectrum without STALE (R169). -/
  held : Option (List Bin)
  group : Option SpecGroup
  record : Option SpecRecord
  /-- CLEAN is owed (R168). -/
  wantClean : Bool
  deriving DecidableEq, Repr
/-- A snapshot that a graticule reads out (R187-R190): planes, and the content of its record's header. -/
structure GrtFrame where
  six : Nat
  hits : List (Nat × Nat)
  persist : List (Nat × Word)
  flags : Nat
  intervals : Nat
  spectra : Nat
  excluded : Nat
  span : Nat
  bank : Nat
  thin : Nat
  flatId : Nat
  words : List (Nat × Word)
  /-- The index map as it was when the frame was read out; empty before that (R185). -/
  map : List Nat
  deriving DecidableEq, Repr

/-- What spectra have put into one graticule interval: hit counts by pixel, spectra applied and excluded, flags. -/
structure GrtAcc where
  hits : List (Nat × Nat)
  spectra : Nat
  excluded : Nat
  flags : Nat
  deriving DecidableEq, Repr

/-- A pipeline's graticule (R179-R195) beside the GRT registers. -/
structure Grat where
  /-- The open interval (the hit-count plane), and what is already timed after the next boundary. -/
  cur : GrtAcc
  next : GrtAcc
  /-- Hits of ticks not yet ended: tick number and pixel counts. -/
  ticks : List (Nat × List (Nat × Nat))
  /-- Persistence plane: binary32 words by pixel. -/
  persist : List (Nat × Word)
  /-- SIX of the next tick end. -/
  nextTick : Nat
  /-- SIX of the next boundary; none while FRAME_SRC is VSYNC and no sync is waiting. -/
  boundary : Option Nat
  /-- SIX at which the open intervals began, and how many they are. -/
  openSix : Nat
  intervals : Nat
  clearNext : Bool
  flatId : Nat
  readout : Option GrtFrame
  last : Option GrtFrame
  deriving DecidableEq, Repr
/-- An occurrence of a trigger source (R196, R216): source, trigger sample, exact time, and the SIX at which its
latency starts. -/
structure Occ where
  src : Nat
  sample : Nat
  six : Nat
  fine : Nat
  at0 : Nat
  deriving DecidableEq, Repr

/-- A change of a source's state at a trigger sample (R197). -/
structure SrcChange where
  src : Nat
  sample : Nat
  on : Bool
  deriving DecidableEq, Repr

/-- A time-domain unit (R204-R207) beside TTR_STAT: the last output's value and the POWER window, newest first. -/
structure TdUnit where
  prev : Option ChainSample
  window : List Nat
  prevSum : Nat
  deriving DecidableEq, Repr

/-- States of an event (R215). -/
inductive EvState where
  | idle
  | armed (at0 : Nat)
  | holdoff (until0 : Nat)
  deriving DecidableEq, Repr

/-- An event: its state and the first trigger sample not yet evaluated. -/
structure Event where
  st : EvState
  from0 : Nat
  deriving DecidableEq, Repr

/-- A pipeline's triggers (R196-R226) beside the CTR, TTR and TRG registers. -/
structure Trig where
  /-- Runs of the contour slots. -/
  runs : List Nat
  /-- Slots whose state is true (INSIDE_K, OUTSIDE_K, DENSITY). -/
  high : List Bool
  units : List TdUnit
  events : List Event
  occs : List Occ
  changes : List SrcChange
  deriving DecidableEq, Repr

/-- The trigger outputs of an analysis region: end of the TRIG_OUT pulse and of each XTRIG pulse, and the last active
edge on each external input (SIX, FINE) for the dead time (R208, R220, R221). -/
structure TrigOut where
  outEnd : Option Nat
  xtrigEnd : List (Option Nat)
  lastEdge : List (Option (Nat × Nat))
  deriving DecidableEq, Repr
/-- A record: the legend's fields that its maker fixes, and the payload (R254-R257). -/
structure Record where
  kind : Nat
  flags : Nat
  task : Nat
  source : Nat
  trigMask : Nat
  six : Nat
  fine : Nat
  pre : Nat
  post : Nat
  payload : List Byte
  /-- For records cut from the ring: first sample's place in its granule, and the marks of each granule (R474). -/
  granule : Nat × List Nat := (0, [])
  deriving DecidableEq, Repr

/-- A point of an open TRACE interval: the largest LOG16 value, and the sum of `n` powers in mW, num / den (R240). -/
structure TracePoint where
  log : Int
  num : Nat
  den : Nat
  n : Nat
  deriving DecidableEq, Repr

/-- The spectra of a TRACE interval: its points, spectra included, marks of those excluded (R240). -/
structure TraceAcc where
  pts : List TracePoint
  n : Nat
  marks : Nat
  deriving DecidableEq, Repr

/-- What the record of a sheet says of its first sample (R259, R260): its label, the label period, DECIM, bonding, the
frequency tuning word and the converter. -/
structure SheetOrigin where
  first : Nat
  labelP : Nat
  decim : Nat
  bonded : Bool
  ftw : Nat
  src : Nat
  deriving DecidableEq, Repr

/-- A sheet (R241-R248): its entry, the write count after its last sample once known, and whether it was released. -/
structure Sheet where
  ev : Nat
  six : Nat
  fine : Nat
  mask : Nat
  missed : Nat
  startWc : Nat
  pre : Nat
  post : Nat
  protect : Bool
  shortPre : Bool
  overlap : Bool
  ready : Bool
  released : Bool
  /-- The sheet has been cut, so that a stream carries its record. -/
  cut : Bool
  origin : SheetOrigin
  deriving DecidableEq, Repr

/-- A record written to a record plane and not yet consumed: plane, offset after it in 64-byte units, the record. -/
structure PlaneRec where
  plane : Nat
  endOff : Nat
  record : Record
  deriving DecidableEq, Repr

/-- An open gap of a pipeline's record stream (R251, R261, R262): reason, and the first lost label. -/
structure Gap where
  reason : Nat
  six : Nat
  deriving DecidableEq, Repr

/-- An epoch that has ended: its first label and write count, its label period and DECIM, and the write count after it (R233). -/
structure EpochSpan where
  six : Nat
  wc : Nat
  labelP : Nat
  decim : Nat
  endWc : Nat
  deriving DecidableEq, Repr

/-- A capture writer (R231-R265) beside the CAP and RED registers. -/
structure Capture where
  /-- Entries HEAD to TAIL − 1 of the sheet table. -/
  sheets : List Sheet
  /-- The missed count that the next sheet carries (R247), and the one the next record carries (R253). -/
  missed : Nat
  cutMissed : Nat
  /-- Open MARK granule: marks, MIN and MAX of |x|; open POWER granule: sum and count (R237, R238). -/
  marks : Nat
  envMin : Option Nat
  envMax : Nat
  powSum : Nat
  powN : Nat
  /-- Range of the previous trigger sheet (R245). -/
  prevRange : Option (Nat × Nat)
  /-- An epoch is to begin with the next sample, and the label period of the open epoch (R233). -/
  newEpoch : Bool
  epochP : Nat
  /-- The epoch that has ended, for events whose trigger sample lies in it (R241, R242). -/
  prevEpoch : Option EpochSpan
  /-- Label from which a stopped writer resumes, and the index of the release that has freed space for it (R251). -/
  resumeAt : Option Nat
  freedAt : Option Nat
  /-- The frame boundary at which the epoch of a writer that is being suspended ends (R262). -/
  pauseAt : Option Nat
  gap : Option Gap
  /-- The next record cut carries GAP_BEFORE (R251). -/
  gapFlag : Bool
  /-- Records that wait for a record plane; records in the planes; records dropped and the first one's time, by plane. -/
  queue : List (Nat × Record)
  recs : List PlaneRec
  lost : List (Nat × Nat × Nat)
  /-- The open TRACE interval, the spectra timed after its end, the last trace, the end of the interval (R240). -/
  trace : TraceAcc
  traceThen : TraceAcc
  traceLast : List Int
  traceEnd : Option Nat
  /-- Index at which the open TRACE interval began. -/
  traceStart : Nat
  deriving DecidableEq, Repr

/-- Where a ready record comes from, for its release once the destination has taken it (R455). -/
inductive RecSource where
  /-- The sheet with this START_WC in a pipeline's table. -/
  | sheet (pipe startWc : Nat)
  /-- A record plane, with RD after the record. -/
  | plane (pipe plane endOff : Nat)
  /-- The same, of the writer that a SUSPENDED task in a slot has parked. -/
  | parkedSheet (slot startWc : Nat)
  | parkedPlane (slot plane endOff : Nat)
  /-- Nothing to release. -/
  | none
  deriving DecidableEq, Repr

/-- A record ready at its source (R452). -/
structure Ready where
  from0 : RecSource
  record : Record
  deriving DecidableEq, Repr
/-- An item of a task's image extension (R276): kind, index, sub offset and data bytes. -/
structure ExtItem where
  kind : Nat
  index : Nat
  sub : Nat
  data : List Byte
  deriving DecidableEq, Repr

/-- A grant of a resource instance (R293, R297): class, instance, direction (links: 0 toward the hub), amount, and whether it goes
with the task's pipelines when they move (R311). On class 1, direction 0 is the count of insets and direction 1 their rate. -/
structure Grant where
  cls : Nat
  inst : Nat
  dir : Nat
  amount : Nat
  tied : Bool
  deriving DecidableEq, Repr

/-- Task states (R285). -/
inductive TaskState where
  | submitted | placed | running | suspended | migrating | done | cancelled | rejected | failed
  deriving DecidableEq, Repr

/-- The number of a task state in completions and reports (R285). -/
def TaskState.code : TaskState → Nat
  | .submitted => 0 | .placed => 1 | .running => 2 | .suspended => 3 | .migrating => 4 | .done => 5
  | .cancelled => 6 | .rejected => 7 | .failed => 8

/-- A notification (R288, R289): task, its state, cause, index, DETAIL0, and how many it replaced. -/
structure Notice where
  task : Nat
  st : Nat
  cause : Nat
  six : Nat
  detail0 : Nat
  count : Nat
  deriving DecidableEq, Repr

/-- A piece of user memory a task holds (R299, R301): 0 IQ ring, 1 MARK, 2 ENVELOPE, 3 POWER, 4 sheet table, 5-7 record
planes 0-2, 8 staging; its user address and length. -/
structure Piece where
  kind : Nat
  base : Nat
  bytes : Nat
  deriving DecidableEq, Repr

/-- A mapping of a task-relative number to a physical one (R277): the report's resource code, then the two numbers. -/
structure Mapping where
  res : Nat
  rel : Nat
  phys : Nat
  deriving DecidableEq, Repr

/-- A Phoin task (R274-R287). -/
structure Task where
  id : Nat
  /-- The arrival number of R302. -/
  arrival : Nat
  st : TaskState
  /-- The 256 bytes of the command entry that holds the descriptor (R272, R274). -/
  desc : List Byte
  ext : List ExtItem
  pinned : Bool
  /-- Cause of the last suspension: 0 by command, 4 EVICTED, 5 NO_RESOURCE (R310). -/
  why : Nat
  /-- Pipelines granted, in ganging order. -/
  pipes : List Nat
  /-- Stack that holds its memory, and whether the memory is held (R309). -/
  stack : Nat
  hasMem : Bool
  pieces : List Piece
  grants : List Grant
  maps : List Mapping
  /-- Index at which it starts, and at which it was started. -/
  startAt : Nat
  startedAt : Nat
  /-- Memory was lost: the next record counts dropped sheets, with a new epoch (R309). -/
  memLost : Bool
  /-- Its streams are closed by a TERMINATOR (R284). -/
  closed : Bool
  code : Nat
  sub : Nat
  /-- The measurement-core image read at SUBMIT, and whether its cores are to start again (R535, R537). -/
  image : List Byte
  restart : Bool
  deriving DecidableEq, Repr

/-- Why tasks move (R317). -/
inductive MoveCause where
  | reserve | modify | rebalance | predictive | survey
  deriving DecidableEq, Repr

/-- Where a migration stands (R312). -/
inductive MigPhase where
  | begun | parallel | verified | handedOver | retryWait
  deriving DecidableEq, Repr

/-- The migration in progress (R311-R316): one at a time. -/
structure Migration where
  cause : MoveCause
  tasks : List Nat
  source : List Nat
  target : List Nat
  phase : MigPhase
  /-- A_t, the boundary at which the target chain started. -/
  startAt : Nat
  /-- H, once chosen. -/
  h : Nat
  tries : Nat
  /-- SIX of the next try after a failure (R314). -/
  retryAt : Nat
  /-- The tasks as they are to be on the target; their tied grants are charged as ROLE 1 until the handover. -/
  goal : List Task
  /-- The source's tied grants, charged from the handover to the release. -/
  old : List Grant
  deriving DecidableEq, Repr

/-- A command of ring 0 that waits for migrations to end: RESERVE, MODIFY and REBALANCE complete at their release, and
commands on a MIGRATING task are held (R287, R294). -/
structure HeldCmd where
  opcode : Nat
  tag : Nat
  task : Nat
  entry : List Byte
  /-- Tasks whose placement changes as they were, and a task whose migration failed (R314). -/
  moved : List Task
  failed : Option Nat
  /-- SIX at evaluation (R288). -/
  six : Nat
  deriving DecidableEq, Repr

/-- The writer and record planes of a SUSPENDED task, which keep their place while its pipeline serves others (R262, R309), with the CAP
and RED registers that hold them. -/
structure Parked where
  cap : Capture
  capRegs : List (Nat × Word)
  redRegs : List (Nat × Word)
  deriving DecidableEq, Repr

/-- Phoin (R266-R321) beside the registers of the PHN page. -/
structure Phoin where
  /-- Tasks by slot. -/
  tasks : List (Nat × Task)
  /-- Generation of each slot (R284). -/
  gens : List (Nat × Nat)
  arrivals : Nat
  /-- Ring 0: entries produced and consumed; ring 1: entries produced and consumed (R267). -/
  prod0 : Nat
  cons0 : Nat
  prod1 : Nat
  cons1 : Nat
  /-- Entries of rings 0 and 1, as OPEN_RINGS loads them (R296). -/
  len0 : Nat
  len1 : Nat
  /-- The hypothetical set of a PLAN chain (R291). -/
  chain : Option (List Task)
  /-- A command is being evaluated, and the notifications it has caused so far (R268). -/
  evaluating : Bool
  later : List Notice
  /-- Notifications that wait for ring 1, by slot and generation (R289). -/
  notices : List (Nat × Notice)
  mig : Option Migration
  /-- Migrations asked for and not begun, in order. -/
  migQueue : List Migration
  held : Option HeldCmd
  /-- Writers of SUSPENDED tasks, by slot. -/
  parked : List (Nat × Parked)
  /-- H of the last migration that took a pipeline as its target, by pipeline (R313). -/
  handed : List (Nat × Nat)
  /-- Blocks kept in FAULT_MAP until a module reset (R587). -/
  sticky : List Nat
  /-- SIX of each block's last FAULT (R587). -/
  faultSix : List (Nat × Nat)
  deriving DecidableEq, Repr
/-- A survey in progress (R325). -/
structure SurveyRun where
  conv : Nat
  step : Nat
  /-- SIX at which the step times out. -/
  deadline : Nat
  /-- Runs with the spare; the converter carries a task. -/
  spare : Bool
  hasTask : Bool
  /-- The input setting in force before the survey (R325). -/
  prevInput : Nat
  prevZone : Nat
  prevAtten : Nat
  /-- The pipeline taken for the measurement (R319). -/
  pipe : Nat
  /-- X and Y of a STALE interval (R334). -/
  x : Nat
  y : Nat
  /-- How it ends when not OK: code, sub-reason and the step at which it ended. -/
  fin : Option (Nat × Nat × Nat)
  /-- Trims measured: words of the TRM page (R335). -/
  trims : List (Nat × Word)
  /-- The task whose CALIBRATION_HOLD asked for it. -/
  hold : Option Nat
  deriving DecidableEq, Repr

/-- A CALIBRATION_HOLD in force (R333): its task, converters still to survey, pipelines it took, end of HOLD_MS. -/
structure CalHold where
  task : Nat
  convs : List Nat
  pipes : List Nat
  deadline : Nat
  deriving DecidableEq, Repr

/-- The header of a calibration area (R341). -/
structure CalHeader where
  magic : Nat
  version : Nat
  converters : Nat
  variant : Nat
  seq : Nat
  dataBytes : Nat
  surveys : List Nat
  temps : List Nat
  times : List Nat
  deriving DecidableEq, Repr

/-- The commit record of a calibration area (R342). -/
structure CalCommit where
  magic : Nat
  seq : Nat
  dataBytes : Nat
  dataCrc : Nat
  recordCrc : Nat
  deriving DecidableEq, Repr

/-- A calibration area in flash (R340): its header, the trims and the tables' words of the TRM page by converter, the CRC-32C of header
and data as they stand, and its commit record; `none` where erased. -/
structure CalArea where
  header : Option CalHeader
  trims : List (List (Nat × Word))
  dataCrc : Nat
  commit : Option CalCommit
  deriving DecidableEq, Repr

/-- Steps of a store (R344). -/
inductive StorePhase where
  | idle | erase | data | commit | readBack
  deriving DecidableEq, Repr

/-- The survey controller (R322-R346) beside the SVY registers. -/
structure Survey where
  run : Option SurveyRun
  /-- Trims of a converter in force before the survey in progress, which a hand-back may restore (R122). -/
  prevTrims : List (Nat × List (Nat × Word))
  /-- SIX of each converter's last committed survey. -/
  doneAt : List (Nat × Nat)
  /-- Seconds of those surveys, 0 while the time was not valid (R341). -/
  doneSecs : List (Nat × Nat)
  /-- Converters queued again after a failure, with the SIX at which (R329). -/
  requeue : List (Nat × Nat)
  holds : List CalHold
  /-- The order after start-up: C4, C0, C1, C2, C3 (R330). -/
  startOrder : List Nat
  areaA : CalArea
  areaB : CalArea
  factory : CalArea
  store : StorePhase
  storeDeadline : Nat
  /-- SIX at which the last store began, or of start-up (R344). -/
  lastStore : Nat
  deriving DecidableEq, Repr

/-- An erased calibration area (R343). -/
def CalArea.erased : CalArea :=
  { header := none, trims := [], dataCrc := 0, commit := none }

/-- The FACTORY area, written at manufacture with SEQ 1 and survey number 1; what it holds for each part reads 0 (R338, R340; log entry
9). -/
def CalArea.factory : CalArea :=
  { header := some { magic := 0x4C434842, version := 1, converters := 5, variant := 0, seq := 1, dataBytes := 1968640,
                     surveys := [1, 1, 1, 1, 1], temps := [0, 0, 0, 0, 0], times := [0, 0, 0, 0, 0] },
    trims := [[], [], [], [], []], dataCrc := 0,
    commit := some { magic := 0x4C434D54, seq := 1, dataBytes := 1968640, dataCrc := 0, recordCrc := 3989766960 } }
/-- The controller of an HBM stack (R351-R370) beside the registers of its MEM page. -/
structure Stack where
  /-- Requests queued, in order of arrival, with the SIX of arrival (R352). -/
  queue : List (Nat × MemReq)
  /-- Writes still to drain, by pseudo-channel (R352). -/
  drain : List (Nat × Nat)
  /-- The last request served by a pseudo-channel had waited 20 µs (R352). -/
  aged : List (Nat × Bool)
  /-- Open row by rank × 16 + bank. -/
  open0 : List (Nat × Nat)
  /-- Activations in the window by row, with counts by source (R362). -/
  acts : List (Nat × List (Nat × Nat))
  /-- Throttled sources: source, end of the throttle, and the index from which it may activate again (R362). -/
  throttled : List (Nat × Nat × Nat)
  /-- Millisecond after that of the last hole access logged (R351). -/
  holeMs : Nat
  /-- SIX at which the idle timer started (R361). -/
  idleAt : Nat
  /-- Tolerances reported, in ns by requester (R359). -/
  tolerances : List (Nat × Nat)
  /-- Band the temperature is in and since when, and the band last left (R358). -/
  bandNow : Nat
  bandSince : Nat
  bandLeft : Option Nat
  /-- Next channel of a delay update, and the SIX of the last update and of the end of the last pre-emption (R358). -/
  delayCh : Nat
  delayAt : Nat
  preemptEnd : Nat
  /-- End of the last refresh stall while HOT is 1 (R355, R358). -/
  hotEnd : Nat
  /-- Ranks out of service that wait for the present copy (R369). -/
  outQueue : List Nat
  /-- Writes whose command failed, kept for the replacement rank (R365). -/
  kept : List MemReq
  /-- Layer being filled (R370). -/
  filling : Option Nat
  /-- Corrections by rank, as the SIX of each in the last 24 h (R363). -/
  corrections : List (Nat × List Nat)
  /-- Next line of the patrol scrub, stack-local (R366). -/
  scrub : Nat
  deriving DecidableEq, Repr
/-- A flit kept for replay or waiting to be sent: its VC, start and end marks, and its 60 payload bytes (R375, R376). -/
structure Flit where
  vc : Nat
  sop : Bool
  eop : Bool
  body : List Byte
  deriving DecidableEq, Repr

/-- A non-posted request whose tag is in flight, or quarantined (R403, R404, R410). -/
structure TagEntry where
  tag : Nat
  source : Nat
  rtype : Nat
  space : Nat
  addr : Nat
  lines : Nat
  /-- The link end and tag it was forwarded from; none at the requester. -/
  from0 : Option (Nat × Nat)
  sentAt : Nat
  quarantined : Bool
  deriving DecidableEq, Repr

/-- A packet that waits for a link: VC, ordering domain, bytes not yet sent, and the request behind an NP (R406, R407). -/
structure TxPacket where
  vc : Nat
  source : Nat
  dst : Nat
  tag : Nat
  started : Bool
  bytes : List Byte
  np : Option TagEntry
  deriving DecidableEq, Repr

/-- A lane repair asked for or granted (R387): module × 64 + lane, token, switch slot, answered,
asked by the REPAIR command, and asked for a hard condition. -/
structure Repair where
  lane : Nat
  token : Nat
  slot : Nat
  acked : Bool
  byOp : Bool
  hard : Bool
  deriving DecidableEq, Repr

/-- One end of a Brixine link (R371-R416) beside the registers of its BXE page. -/
structure LinkEnd where
  /-- Slots received and slots sent since LINK_INIT or a retrain (R373). -/
  rxSlot : Nat
  txSlot : Nat
  /-- Sequence number of the next sequenced flit, counted without wrapping; flits not acknowledged; flits to resend (R381, R382). -/
  tseq : Nat
  unacked : List (Nat × Flit)
  resend : List (Nat × Flit)
  /-- Sequenced flits accepted in order (A), the NAK hold, and a NAK to send (R381). -/
  accepted : Nat
  nakUntil : Option Nat
  nakDue : Bool
  /-- Kind of the next return value; flit buffers freed and credits returned, for P, NP and CPL (R383). -/
  rk : Nat
  freed : List Nat
  returned : List Nat
  advert : List Nat
  used : List Nat
  /-- LNK bodies to send; PARAM accepted, copies still to send, sequence number of the first one (R393). -/
  lnk : List (List Byte)
  paramOk : Bool
  paramLeft : Nat
  paramSeq : Option Nat
  /-- LNK bodies received: PARAM and ALIGN. -/
  lnkIn : List (List Byte)
  /-- SMP flits to send, sample number of the next one sent and of the next one expected, lost in a row (R385, R386). -/
  smp : List Flit
  smpTx : Nat
  smpRx : Nat
  smpLost : Nat
  /-- First frame of the group with sample number 0 at the receiver. -/
  smpFrame : Int
  /-- Packets to send in age order; packets being received by VC; packets received, with their flits (R397, R407). -/
  tx : List TxPacket
  rx : List (Nat × Nat × List Byte)
  inbox : List (Nat × Nat × List Byte)
  tags : List TagEntry
  /-- SIX of the last progress of an ACK, of the last flit accepted, and end of the state's timeout. -/
  ackAt : Nat
  flitAt : Nat
  deadline : Nat
  /-- Bad flits in the 1 ms window, retrains in the 1 s window, replays in a row from one sequence number (R390). -/
  bad : Nat
  retrains : Nat
  replayFrom : Nat
  replayRow : Nat
  /-- Consecutive flits with errors by lane; parity mismatches in the 1 s window by redundant lane (R387, R389). -/
  hard : List (Nat × Nat)
  mismatch : List (Nat × Nat)
  /-- Repair requested by this receiver, lanes that wait for one, repair granted as transmitter, next token. -/
  repair : Option Repair
  repairNext : List Nat
  granted : Option Repair
  token : Nat
  fenced : Bool
  deriving DecidableEq, Repr

/-- A read of host memory that the hub has sent on PCIe (R408, R410). -/
structure HostRead where
  source : Nat
  addr : Nat
  lines : Nat
  /-- Link end and tag of the request; none for a requester in the hub. -/
  from0 : Option (Nat × Nat)
  tag : Nat
  sentAt : Nat
  deriving DecidableEq, Repr
/-- A descriptor held by a channel: its 128 bytes, and where it lies (host memory or user memory, address); none when it was
committed directly (R430, R433). -/
structure ChanDesc where
  bytes : List Byte
  addr : Option (Bool × Nat)
  deriving DecidableEq, Repr

/-- A traverse whose last packet has left and whose FLUSH is outstanding: descriptor, check value register, poison mark (R432). -/
structure Finishing where
  desc : ChanDesc
  crc : Nat
  poisoned : Bool
  deriving DecidableEq, Repr

/-- A read that a channel has sent: a descriptor, or the tail's quarter (R433, R434). -/
inductive ChanFetch where
  | desc (host : Bool) (addr : Nat)
  | quarter
  deriving DecidableEq, Repr

/-- A DMA channel (R422-R439) beside its registers in the TRV page. -/
structure DmaChan where
  /-- ACTIVE with the element and the byte in it that come next, its check value register and poison mark. -/
  act : Option ChanDesc
  elem : Nat
  byte : Nat
  crc : Nat
  poisoned : Bool
  /-- A valid SHADOW. -/
  sh : Option ChanDesc
  fetch : Option ChanFetch
  finishing : List Finishing
  /-- The tail in TAIL_WAIT. -/
  tail : Option ChanDesc
  deriving DecidableEq, Repr

/-- Ring states (R446), numbered as the context's STATE (log entry 41). -/
inductive RingState where
  | closed | open0 | suspended | paused | fault
  deriving DecidableEq, Repr

/-- A ring context (R441) and what the ring waits for. -/
structure Ring where
  base : Nat
  entryLog2 : Nat
  lenLog2 : Nat
  host : Bool
  consumer : Bool
  phoin : Bool
  st : RingState
  vector : Nat
  holdoff : Nat
  prod : Nat
  cons : Nat
  origin : Nat
  grow : Nat
  growAt : Nat
  channel : Nat
  task : Nat
  ignored : Nat
  fullWaits : Nat
  /-- SIX of the last message, and a message that waits for HOLDOFF_US (R444). -/
  lastMsg : Option Nat
  msgDue : Bool
  /-- Entries to produce, oldest first, and whether the wait on a full ring has been counted. -/
  entries : List (List Byte)
  waiting : Bool
  /-- The host data buffer bound by BIND_BUFFER: address, log2 of its size, running position of the next record (R460). -/
  buffer : Option (Nat × Nat)
  bufPos : Nat
  /-- OFFSET of each entry not consumed, oldest first (R461). -/
  offsets : List Nat
  deriving DecidableEq, Repr
/-- A record that a stream has taken (R452): its SEQ, legend and payload as sent, and how far it has left. -/
structure StreamRec where
  seq : Nat
  kind : Nat
  flags : Nat
  six : Nat
  fine : Nat
  granule : Nat × List Nat
  bytes : List Byte
  from0 : RecSource
  /-- Bytes sent, or on Ethernet packets sent. -/
  sent : Nat
  /-- Wholly sent, and parts not yet confirmed: LSA packets, NVMe writes. -/
  whole : Bool
  open0 : Nat
  /-- A copy of a BENCHMARK or TERMINATOR, or a GAP: not charged (R454). -/
  free : Bool
  /-- The wait of this record has been counted (R455). -/
  waited : Bool
  /-- OFFSET and SKIP in a host buffer, once placed (R460). -/
  place : Option (Nat × Nat)
  deriving DecidableEq, Repr

/-- States of an LSA flow (R480). -/
inductive FlowState where
  | closed | opening | open0 | stalled | failed | closing
  deriving DecidableEq, Repr

/-- A DATA packet not acknowledged (R478): PSN, its bytes, SEQ and bytes of the record it carries, last transmission, highest
count of later PSNs acknowledged. -/
structure LsaPacket where
  psn : Nat
  bytes : List Byte
  seq : Nat
  load : Nat
  sentAt : Nat
  higher : Nat
  deriving DecidableEq, Repr

/-- An LSA flow (R476-R480). -/
structure Flow where
  st : FlowState
  psn : Nat
  /-- Bytes the recorder accepts. -/
  rwnd : Nat
  unacked : List LsaPacket
  /-- SIX of the last ACK or ACCEPT, and of entry to STALLED or CLOSING. -/
  heardAt : Nat
  sinceAt : Nat
  /-- Present retransmission time in µs. -/
  rto : Nat
  deriving DecidableEq, Repr

/-- A port or drive of a stream's set (R454): grant in kB/s, bucket in 1/40,960,000 byte, bytes assigned, records to send. -/
structure StreamPort where
  index : Nat
  grant : Nat
  bucket : Int
  bucketAt : Nat
  assigned : Nat
  queue : List StreamRec
  /-- SIX_b of the benchmarks it carries (R453). -/
  carried : List Nat
  /-- VITA packet counts: signal, extension, context (R473). -/
  counts : List Nat
  flow : Flow
  /-- Settings of the last context sent and the SIX of it (R475). -/
  context : List Byte
  contextAt : Nat
  /-- On a drive: extent and next byte in it (R467). -/
  extent : Option (Nat × Nat)
  deriving DecidableEq, Repr

/-- An open stream (R451): task, next SEQ, the benchmarks that took a SEQ, newest first, and its ports. -/
structure Stream where
  task : Nat
  dest : Nat
  seq : Nat
  benches : List (Nat × StreamRec)
  ports : List StreamPort
  /-- The TERMINATOR has taken its SEQ. -/
  closing : Bool
  deriving DecidableEq, Repr

/-- A registered NVMe queue pair (R463). -/
structure QueuePair where
  qid : Nat
  sqEntries : Nat
  cqEntries : Nat
  sqOffset : Nat
  cqOffset : Nat
  sqDoorbell : Nat
  cqDoorbell : Nat
  sqTail : Nat
  cqHead : Nat
  deriving DecidableEq, Repr

/-- A drive (R462-R469): namespace, queue pairs, and its sheet store. -/
structure Drive where
  nsid : Nat
  lbaLog2 : Nat
  mdtsLog2 : Nat
  lbas : Nat
  queues : List QueuePair
  /-- Queue pair that takes the next command. -/
  nextQueue : Nat
  storeId : Nat
  wrap : Bool
  /-- Generation of each extent; an extent not listed has never been written. -/
  gens : List (Nat × Nat)
  /-- The extent after the one with the highest generation. -/
  nextExt : Nat
  deriving DecidableEq, Repr

/-- An NVMe write in flight in an aperture slot (R464, R465). -/
structure NvmeWrite where
  slot : Nat
  drive : Nat
  qid : Nat
  block : Nat
  bytes : List Byte
  /-- The stream's task, and SEQ of the records it carries. -/
  task : Nat
  seqs : List Nat
  tries : Nat
  issuedAt : Nat
  /-- Waits for its queue pairs to be registered again (R483). -/
  held : Bool
  deriving DecidableEq, Repr

/-- A PLAYBACK task's feed (R481, R482): next SEQ, samples not released (label, I, Q), label and SIX at which playing began. -/
structure Playback where
  nextSeq : Nat
  nextLabel : Option Nat
  samples : List (Nat × Int × Int)
  /-- Labels before which GAP_BEFORE goes. -/
  gaps : List Nat
  base : Option Nat
  periods : List (Nat × Nat)
  deriving DecidableEq, Repr
/-- A check-value unit (R505-R509): register before the final XOR, polynomial and feed mode read at START, pending low half. -/
structure CrcUnit where
  reg : Nat
  poly : Nat
  feedPort : Bool
  half : Option Word
  deriving DecidableEq, Repr

/-- A compression job in progress (R496-R500): inflate or deflate, its flags and the registers read at its acceptance. -/
structure CmpJob where
  inflate : Bool
  flags : Nat
  inAddr : Nat
  inSpace : Nat
  inBytes : Nat
  outAddr : Nat
  outSpace : Nat
  outBytes : Nat
  level : Nat
  framing : Nat
  deriving DecidableEq, Repr

/-- A compression engine (R491-R501): the open stream as its jobs so far, the job in progress, and the port buffers. -/
structure CmpEngine where
  /-- Direction of the open stream, level and framing; none when STREAM is NONE. -/
  stream : Option (Bool × Nat × Nat)
  /-- Input and flags of every job of the stream so far; bytes produced so far. -/
  jobs : List (List Byte × Nat)
  produced : Nat
  /-- Checksum over the uncompressed bytes so far. -/
  check : Nat
  job : Option CmpJob
  portIn : List Byte
  portOut : List Byte
  deriving DecidableEq, Repr
/-- A core's LD or MAC result that has not landed (R521): register, value, bundles issued since, and whether the next MAC still
takes it. -/
structure CoreWrite where
  reg : Nat
  value : Nat
  mac : Bool
  age : Nat
  fwd : Bool
  deriving DecidableEq, Repr

/-- A filled input buffer (R529): Y address, input, label of its first sample, and its marks. -/
structure CoreBuf where
  addr : Nat
  input : Nat
  label : Nat
  marks : Nat
  deriving DecidableEq, Repr

/-- A measurement core (R512-R533) beside its MC registers and its memories in the BAR0 window. -/
structure Core where
  /-- Registers of R515 by number. -/
  regs : List (Nat × Nat)
  lands : List CoreWrite
  /-- A transfer after its delay slots: slots left, target, and whether it is RTI (R522). -/
  xfer : Option (Nat × Nat × Bool)
  /-- SW is pending (R526). -/
  sw : Bool
  /-- Filled buffers, oldest first. -/
  bufs : List CoreBuf
  /-- IO_CYCLE1 as latched. -/
  cycHi : Word
  /-- The core holds its check-value unit (R532). -/
  crcHeld : Bool
  /-- FAB_ADDR, the core's copy of that line, and a read of it that has not completed (R533). -/
  fabLo : Word
  fabHi : Word
  fabLine : Option (List Word)
  fabWait : Bool
  /-- Bundles left of a STEP (R539). -/
  steps : Option Nat
  /-- The state that HALT or SUSPEND takes it to at the next interruptible point, and the state a RESUME restores. -/
  stop : Option Nat
  before : Nat
  deriving DecidableEq, Repr

/-- An input of a MEASURE task and its published entry (R530, R531, R536, R538). -/
structure MeasIn where
  /-- Its core, when it has one of its own. -/
  core : Nat
  /-- Inset pipeline and number; none for the writer of an IQ_RECORD task. -/
  inset : Option (Nat × Nat)
  /-- The next sample: a write count, or a count of inset samples from `base`. -/
  next : Nat
  base : Nat
  block : Nat
  gap : Bool
  /-- 1 a block was withheld, 2 and one delivered since (R531). -/
  stale : Nat
  /-- Marks of blocks released since the last publish. -/
  marks : Nat
  /-- Label of the last block released. -/
  label : Nat
  pubs : Nat
  /-- Published words and FLAGS; none before the first publish. -/
  entry : Option (List Word × Nat × Nat)
  entryCore : Nat
  poison : Bool
  deriving DecidableEq, Repr

/-- A MEASURE task's cores and inputs (R535-R538). -/
structure Measure where
  cores : List Nat
  inputs : List MeasIn
  imageCrc : Nat
  outWords : Nat
  /-- The next record carries MIGRATED (R537). -/
  migrated : Bool
  /-- SIX of the next record. -/
  nextAt : Nat
  deriving DecidableEq, Repr
/-- A generator of scan-out (R541-R557) beside the DSP registers. -/
structure Scan where
  /-- The latched GRATICULE and TRACE records: payloads. -/
  grt : Option (List Byte)
  trace : Option (List Byte)
  /-- Pipeline, plane and end offset of the records latched. -/
  shown : List (Nat × Nat × Nat)
  /-- Annotation and cursor as the frame in progress shows them: none where transparent (R545, R546, R555). -/
  annot : Option (List Byte)
  header : List Byte
  image : List Byte
  gen : Option Nat
  /-- SIX at which the frame in progress began, and whether it is blanked (R551). -/
  frameAt : Nat
  blank : Bool
  /-- Static frames in a row (R554). -/
  static : Nat
  deriving DecidableEq, Repr

/-- Genlock (R550): the last pulse, pulses in a row that kept the period, frames in a row below 1 line, and a restart at the next
pulse. -/
structure Genlock where
  last : Nat
  good : Nat
  locked : Nat
  restart : Bool
  deriving DecidableEq, Repr
/-- Power, start-up, firmware, keys and management (R559-R583) beside the registers of MOD, PWR and SEC. -/
structure Power where
  /-- PORST_N is recognised low (R566, R602). -/
  porst : Bool
  /-- MADDR2-MADDR0 as sampled at step 1 (R580, R602). -/
  maddr : Nat
  /-- PWRGD is asserted (R563, R567). -/
  pwrgd : Bool
  /-- The module went off through a power-fail sequence (R566); it stays off after a cause of THERMAL (R570). -/
  failed : Bool
  thermal : Bool
  /-- Firmware banks A and B, erased when empty, and the two copies of the boot record: SEQ and bank (R571). -/
  bankA : List Byte
  bankB : List Byte
  bootA : Option (Nat × Nat)
  bootB : Option (Nat × Nat)
  /-- The fused SHA-384 of the signing key (R572). -/
  fused : List Byte
  /-- The ZEROISE_PENDING flag in flash (R577, R579). -/
  zeroPend : Bool
  /-- The transport key, and the last IV used under it (R575). -/
  kt : Option (List Byte)
  ktIv : Option Nat
  /-- The image that FW_WRITE programs, and the SIX at which FW_ACTIVATE began to hold admissions (R573). -/
  image : Option (List Byte)
  holdAt : Option Nat
  /-- MCTP endpoint ID (R580). -/
  eid : Nat
  /-- Sensor readings by sensor ID, the highest threshold each is past (1 warning, 2 critical, 3 fatal), and the platform events that
  wait to be polled: sensor and threshold (R580, R581). -/
  sensors : List (Nat × Int)
  above : List (Nat × Nat)
  events : List (Nat × Nat)
  /-- THERM_N is asserted (R570). -/
  therm : Bool
  /-- Characters received on UART_RX (R601, R602). -/
  uart : List Byte
  /-- SIX until which the management cores restart, SIX of their last checkpoint, messages that wait for them, SIX of the mismatches of
  the last hour (R586). -/
  mgmtUntil : Nat
  checkpoint : Nat
  deferred : List MctpMsg
  mismatches : List Nat
  /-- Crossbar planes that wait for their self-test (R585). -/
  planeTests : List Nat
  deriving DecidableEq, Repr

/-- Power at reset. -/
def Power.init : Power :=
  { porst := false, maddr := 0, pwrgd := false, failed := false, thermal := false, bankA := [], bankB := [], bootA := none, bootB := none,
    fused := [], zeroPend := false, kt := none, ktIv := none, image := none, holdAt := none, eid := 0, sensors := [], above := [], events := [],
    therm := false, uart := [], mgmtUntil := 0, checkpoint := 0, deferred := [], mismatches := [], planeTests := [] }

/-- What leaves the module: messages, records, packets and pin changes, in order. -/
inductive Output where
  /-- An MSI-X message on a vector: its address and data words (R64). -/
  | msix (vector : Nat) (addrLo addrHi data : Word)
  /-- A write of a page of the guest die that its own documentation gives a meaning: page key, offset, word (R40). -/
  | guestWrite (key off : Nat) (w : Word)
  /-- An edge on SYNCOUT at an index, falling or rising; SYNCOUT is low before and after, and the spec does not time its return (R89). -/
  | syncout (six : Nat) (falling : Bool)
  /-- REFOUT takes a frequency in Hz (R75). -/
  | refout (hz : Nat)
  /-- PPS_OUT at an index (R75). -/
  | ppsOut (six : Nat) (level : Bool)
  /-- A BENCHMARK record's content: SIX_b, T_b in ps, SOURCE, STATUS, FREQ_OFFSET, UNCERTAINTY, UTC_OFFSET, STEP_PS (R81). -/
  | benchmark (six tPs source status : Nat) (freqOff : Int) (uncertainty : Nat) (utc stepPs : Int)
  /-- A PTP Delay_Req leaves with its sequence number and its egress time in ps (R73). -/
  | ptpDelayReq (port seq tPs : Nat)
  /-- Four SMP flits carry a 240-byte sample group (R109). -/
  | sampleGroup (conv first : Nat) (instant : Nat × Nat) (bytes : List Byte)
  /-- TRIG_OUT of an analysis region becomes active or inactive at an index (R219, R220). -/
  | trigOut (region six : Nat) (active : Bool)
  /-- XTRIG line driven low or released by a region (R221). -/
  | xtrig (region line six : Nat) (low : Bool)
  /-- A ring 1 entry of 64 bytes (R288). -/
  | ring1 (index : Nat) (bytes : List Byte)
  /-- A placement report written to host memory (R292). -/
  | report (addr : Nat) (bytes : List Byte)
  /-- The memory controller answers a request: source, line address, the line read, poison mark (R352, R364). -/
  | memReply (source addr : Nat) (bytes : List Byte) (poisoned : Bool)
  /-- A flit leaves a link end in a slot (R375). -/
  | flit (key slot : Nat) (bytes : List Byte)
  /-- A sideband repair message leaves a link end: operation, lane, token, switch slot (R388). -/
  | sideband (key op lane token slot : Nat)
  /-- A completion reaches its requester: source, status, poison mark, data (R409). -/
  | completion (source status : Nat) (poisoned : Bool) (bytes : List Byte)
  /-- Writes to host memory on PCIe: a bus address, and the bytes with the disabled ones absent (R399). -/
  | hostWrite (addr : Nat) (bytes : List (Option Byte))
  /-- A read of host memory on PCIe: source, bus address, bytes (R408). -/
  | hostRead (source addr bytes : Nat)
  /-- Bytes of a PORT traverse leave on the transmit line of an Ethernet port (R437). -/
  | ethPort (port : Nat) (bytes : List Byte)
  /-- An Ethernet frame leaves a port: the profile that addresses it and its UDP payload (R470, R472-R478). -/
  | ethFrame (port profile : Nat) (payload : List Byte)
  /-- An NVMe command is issued to a drive on a queue: opcode, first block, blocks, aperture slot (R462, R464). -/
  | nvmeCommand (drive qid opcode block blocks slot : Nat)
  /-- Blocks of a drive that a NVI command writes: first block and bytes (R466). -/
  | nvmeData (drive block : Nat) (bytes : List Byte)
  /-- The module answers a PCIe read of BAR2 or BAR4 with bytes, or a configuration request (R457-R459). -/
  | pcieReply (bytes : List Byte)
  /-- A configuration request is answered with Request Retry Status (R457). -/
  | pcieRetry
  /-- A frame leaves an output: its active pixels in raster order, R, G and B; none a blanked frame (R544, R551). -/
  | frame (output : Nat) (pixels : Option (List (Nat × Nat × Nat)))
  /-- The management controller answers a message on SMBus: whether it succeeded, and the data of the answer (R580). -/
  | mgmt (msg : MctpMsg) (ok : Bool) (data : List Int)
  deriving DecidableEq, Repr

/-- The state of the module. -/
structure State where
  /-- Commands waiting, first in, first out. -/
  pending : List Instr
  /-- Register pages by page key (R32, R63). -/
  pages : List (Nat × Page)
  /-- Everything sent out, oldest first. -/
  out : List Output
  /-- Draws of free values so far (the model's own field). -/
  freeCtr : Nat
  /-- The sample index, SCLK periods modulo 2^72 (R76). -/
  six : Nat
  /-- The variant is ZVX-1640-G: region 7 is a guest die, and MOD_ID.VARIANT reads 1 (R1, R3). -/
  guest : Bool
  /-- Grant slots gone by on the fabric of each region, modulo 15 (R13). -/
  slots : List (Nat × Nat)
  /-- The fault log, oldest first (R591). -/
  log : List LogEntry
  /-- The flash log, oldest first (R591). -/
  flashLog : List LogEntry
  /-- Entries the collector holds for Phoin (R590). -/
  held : List LogEntry
  /-- MSI-X table words by word index, 4 words a vector (R62). -/
  msixTable : List (Nat × Word)
  /-- MSI-X pending bits (R62). -/
  msixPend : List (Nat × Bool)
  /-- Vector of each routed page key; 0 no route (R63). -/
  routes : List (Nat × Nat)
  /-- Key store slots with their key material (R574). -/
  keyStore : List (Nat × List Byte)
  /-- Words of the BAR0 windows by address / 4: core memories, ring contexts, contour masks and lookup tables (R32). -/
  win : List (Nat × Word)
  /-- Configurations of SUSPENDED commits, by page key (R57). -/
  parkedPend : List (Nat × PendApply)
  /-- Time base (R67-R89). -/
  tb : TimeBase
  /-- Interval measurement (R90-R97). -/
  tdc : Tdc
  /-- Converters C0-C4 (R98-R131). -/
  convs : List (Nat × Conv)
  /-- Rotation of C4 (R117-R128). -/
  rot : Rotation
  /-- The converter whose frames the input selector passes, by input; default the converter of the input (R18, R120). -/
  carriers : List (Nat × Nat)
  /-- Inputs whose frames are replaced by zeros marked STALE (R107, R334). -/
  staleIn : List (Nat × Bool)
  /-- Configurations waiting for their index, by page key (R619). -/
  pend : List (Nat × PendApply)
  /-- Filter chains by pipeline (R132-R150). -/
  chains : List (Nat × Chain)
  /-- Insets by 64 × pipeline + inset (R151-R154). -/
  insets : List (Nat × Inset)
  /-- Transform engines by pipeline (R157-R178). -/
  engines : List (Nat × Engine)
  /-- Graticules by pipeline (R179-R195). -/
  grats : List (Nat × Grat)
  /-- Triggers by pipeline (R196-R226). -/
  trigs : List (Nat × Trig)
  /-- Trigger outputs by analysis region 0-1 (R208, R220, R221). -/
  trigOuts : List (Nat × TrigOut)
  /-- Capture writers by pipeline (R231-R265). -/
  caps : List (Nat × Capture)
  /-- User memory bytes by address (R347); an address not listed reads 0. -/
  mem : List Host.Cell
  /-- Poison marks of 64-byte lines of user memory that differ from `poisonFill`, by line number (R253, R364). -/
  poison : List (Nat × Bool)
  /-- Ranges of lines that a layer fill poisoned: first line and the line after the last (R370). -/
  poisonFill : List (Nat × Nat)
  /-- Records ready at their sources, oldest first (R452). -/
  readyRecs : List Ready
  /-- Phoin (R266-R321). -/
  phn : Phoin
  /-- Surveys and calibration storage (R322-R346). -/
  svy : Survey
  /-- HBM stacks M0-M3 (R347-R370). -/
  hbms : List (Nat × Stack)
  /-- Link ends by BXE page key (R371-R416). -/
  links : List (Nat × LinkEnd)
  /-- Host memory reads in flight from the hub (R410). -/
  hostReads : List HostRead
  /-- DMA channels by module-wide number (R422). -/
  channels : List (Nat × DmaChan)
  /-- The channel of each group that issued the last packet, by group (R423). -/
  groupLast : List (Nat × Nat)
  /-- Rings by number (R441). -/
  rings : List (Nat × Ring)
  /-- Open streams by task slot (R451). -/
  streams : List (Nat × Stream)
  /-- Record bytes sent in the last 1 ms: STR port, SIX, bytes. -/
  sentLog : List (Nat × Nat × Nat)
  /-- Registered drives (R463). -/
  drives : List (Nat × Drive)
  /-- NVMe writes in flight by aperture slot (R464). -/
  writes : List (Nat × NvmeWrite)
  /-- Feeds of PLAYBACK tasks by slot (R481). -/
  playbacks : List (Nat × Playback)
  /-- The PCIe link: PERST_N is low, and consecutive invalid checks of PE_REFCLK and of ETH_REFCLK. -/
  perst : Bool
  peBad : Nat
  ethBad : Nat
  /-- PCIe configuration registers by dword offset (R457; log entry 47). -/
  pcieCfg : List (Nat × Word)
  /-- Check-value units by page key (R505). -/
  crcs : List (Nat × CrcUnit)
  /-- Compression engines CMP0-CMP7 (R491). -/
  cmps : List (Nat × CmpEngine)
  /-- Measurement cores by module-wide number (R512). -/
  cores : List (Nat × Core)
  /-- MEASURE tasks on cores, by task slot (R535). -/
  measures : List (Nat × Measure)
  /-- Scan-out by generator (R541-R557). -/
  scan : List (Nat × Scan)
  /-- Advances of RD that wait for a newer record to be latched: pipeline, plane, RD (R548). -/
  passed : List (Nat × Nat × Nat)
  genlock : Genlock
  /-- Annotation buffers superseded before they were shown, and the buffer in use (R557). -/
  retiring : List Nat
  annotUse : Option Nat
  /-- Sinks trained: kilobits per second of the link, and whether their range allows low refresh (R543, R554). -/
  sinks : List (Nat × Nat × Bool)
  /-- Second after that of the last CHECK_ERR logged, by output (R556). -/
  checkLog : List (Nat × Nat)
  /-- Power, start-up, firmware, keys and management (R559-R583). -/
  power : Power
  /-- The windows of the guest die: user address and bytes (R421). -/
  guestWin : List (Nat × Nat)
  /-- A module-level fault that asks for safe state: its place in the list of R594, from 1. -/
  safeReq : Option Nat
  /-- SIX at which the PCIe link came up, and whether the function is in D3hot (R457, R564). -/
  pcieUp : Option Nat
  pcieD3 : Bool
  deriving DecidableEq, Repr

/-- The module right after reset. -/
def State.reset : State :=
  { pending := [], pages := [], out := [], freeCtr := 0
    , six := 0, guest := false, slots := [], log := [], flashLog := [], held := [], msixTable := [], msixPend := [], routes := [], keyStore := []
    , win := [], parkedPend := []
    , tb := { running := false, shift := 0, refinGood := 0, refinBad := 0, ptpGood := 0, ptpBad := 0, ppsGood := 0, ppsLast := none, steerHist := [], holdAt := 0, holdSteer := 0, offset := 0, benchSix := 0, benchPs := 0, freqOff := 0, benches := [], nextBench := 0, pendStep := none, sixLoaded := false, utc := 0, setSecs := none, ptpMaster := none, ptpSync := 0, ptpReq := 0, ptpT1 := none, ptpT2 := none, ptpT3 := none, todSet := false, sync := none, repeatAt := [], ppsOut := false }
    , tdc := { mode := .idle, start := 0, startAt := (0, 0), deadline := 0, edges := [], misses := 0, last := [], freqIn := 0, freqN := 0, freqFirst := 0, freqLast := 0, heldStops := none }
    , convs := [], rot := { input := 0, main := 0, h := none, corrected := false, deadline := 0, skew := 0, retried := false, reserved := false, queue := [], tone := false, waiting := false, paths := [], switched := [] }, carriers := [], staleIn := [], pend := []
    , chains := [], insets := []
    , engines := []
    , grats := []
    , trigs := [], trigOuts := []
    , caps := [], mem := [], poison := [], poisonFill := [], readyRecs := []
    , phn := { tasks := [], gens := [], arrivals := 0, prod0 := 0, cons0 := 0, prod1 := 0, cons1 := 0, len0 := 256, len1 := 256, chain := none, evaluating := false, later := [], notices := [], mig := none, migQueue := [], held := none, parked := [], handed := [], sticky := [], faultSix := [] }
    , svy := { run := none, prevTrims := [], doneAt := [], doneSecs := [], requeue := [], holds := [], startOrder := [4, 0, 1, 2, 3], areaA := CalArea.erased, areaB := CalArea.erased, factory := CalArea.factory, store := .idle, storeDeadline := 0, lastStore := 0 }
    , hbms := []
    , links := [], hostReads := []
    , channels := [], groupLast := [], rings := []
    , streams := [], sentLog := [], drives := [], writes := [], playbacks := [], perst := true, peBad := 0, ethBad := 0, pcieCfg := []
    , crcs := [], cmps := []
    , cores := [], measures := []
    , scan := [], passed := [], genlock := { last := 0, good := 0, locked := 0, restart := false }, retiring := [], annotUse := none, sinks := [], checkLog := []
    , power := Power.init, guestWin := []
    , safeReq := none
    , pcieUp := none, pcieD3 := false
  }

end Sys2Proof.Machine
end

