-- ==== Sys2Proof/Machine/Ops.lean ====
section
/-! DEFINITION. The named operations every block shares: register access, interrupts and MSI-X (R64), errors and the
fault log (R591), block states (R49), the command protocol (R52-R61), results, ownership (R44-R46). -/

namespace Sys2Proof.Machine

/-- The outcome of a command. -/
abbrev Res := Host.Outcome State Fault Refusal

/-! ### Codes and phases of R51. -/

def codeOK : Nat := 0x00
def codeSTATE : Nat := 0x01
def codeRANGE : Nat := 0x02
def codeBUSY : Nat := 0x03
def codeOWNER : Nat := 0x04
def codeNOSPACE : Nat := 0x05
def codeTIMEOUT : Nat := 0x06
def codeFAULT : Nat := 0x07
def codeUNSUPPORTED : Nat := 0x08
def codeINTEGRITY : Nat := 0x09
def codePROTECT : Nat := 0x0A

def phaseRUNNING : Nat := 2
def phaseSUSPENDED : Nat := 3
def phaseDONE : Nat := 4
def phaseCANCELLED : Nat := 5
def phaseREJECTED : Nat := 6
def phaseFAILED : Nat := 7

/-- PG_CMD_STAT from its fields (R41). -/
def cmdStatWord (tag phase sub code : Nat) : Word :=
  BitVec.ofNat 32 (tag % 256 * 2 ^ 24 + phase % 16 * 2 ^ 16 + sub % 256 * 2 ^ 8 + code % 256)

/-- The PG_CMD word of a tag and an opcode (R41). -/
def cmdWord (tag opcode : Nat) : Nat := tag % 256 * 2 ^ 24 + opcode % 2 ^ 16

/-! ### Pages and registers. -/

/-- The page at a key. -/
def State.page (s : State) (key : Nat) : Page := mget (Page.atReset s.guest) s.pages key

/-- Replace a page. -/
def State.setPage (s : State) (key : Nat) (p : Page) : State := { s with pages := mput s.pages key p }

/-- Change a page by a function. -/
def State.modPage (s : State) (key : Nat) (f : Page → Page) : State := s.setPage key (f (s.page key))

/-- A page of the guest die of -G (R40). -/
def State.guestDie (s : State) (key : Nat) : Bool := s.guest && decide (keyRegion key = 7)

/-- A page of the guest die whose block its own documentation describes: not its RID and BXE pages (R40, R418). -/
def State.guestPage (s : State) (key : Nat) : Bool := s.guestDie key && decide (keyPage key ≠ 0) && decide (keyPage key ≠ 0x3F0)

/-- The block of a page on this module: that of the catalogue, or one that the guest die implements. -/
def State.blockAt (s : State) (key : Nat) : BlockType := if s.guestPage key then .none else blockOf key

/-- PG_CAP bits 31:27 of a page; a guest die's pages report values of their own (R617). -/
def State.cap (s : State) (key : Nat) : Nat := if s.guestDie key then (Config.guestCap key).toNat / 2 ^ 27 else pageCap key

/-- The page can be taken by RESERVE (R617). -/
def State.reservable (s : State) (key : Nat) : Bool := nbit (s.cap key) 4

/-- The page accepts SUSPEND (R617). -/
def State.suspendable (s : State) (key : Nat) : Bool := nbit (s.cap key) 1

/-- The reset value of a field of a register array: MEM_MAP, CTR curve and link fields depend on the place (R347, R348, R10). -/
def fieldReset (_key : Nat) (f : FieldDesc) : Nat := f.reset % 2 ^ (f.hi + 1 - f.lo)

/-- The reset word of a described register. -/
def descReset (key : Nat) : List FieldDesc → Nat
  | [] => 0
  | f :: fs => fieldReset key f * 2 ^ f.lo + descReset key fs

/-- The register of a block at an offset, with its index in its array. -/
def findReg : List RegDesc → Nat → Option (RegDesc × Nat)
  | [], _ => none
  | r :: rs, off =>
    match r.indexOf? off with
    | some i => some (r, i)
    | none => findReg rs off

/-- BXE_STAT at reset: far region, sample directions and kind of the link (R10, R22, R396). -/
def bxeStatReset (key : Nat) : Nat :=
  let l := linkOf key
  let tx : Bool := decide (3 ≤ keyRegion key) || decide (5 ≤ l)
  let rx : Bool := decide (keyRegion key < 3)
  farRegion key * 2 ^ 12 + boolNat rx * 2 ^ 10 + boolNat tx * 2 ^ 9 + boolNat (linkWide key) * 2 ^ 8

/-- MEM_MAPl_w at reset: slot 4w + b of layer l holds rank 32l + 4w + b, and layer 3 has 24 slots (R347, R348). -/
def memMapReset (i : Nat) : Nat :=
  let l := i / 8
  let w := i % 8
  if l = 3 ∧ 6 ≤ w then 0xFFFFFFFF
  else
    let r := 32 * l + 4 * w
    r + (r + 1) * 2 ^ 8 + (r + 2) * 2 ^ 16 + (r + 3) * 2 ^ 24

/-- The reset value of a block-specific register of a page. -/
def regReset (key off : Nat) : Word :=
  match blockOf key, findReg (regTable (blockOf key)) off with
  | _, none => 0
  | .bxe, some (r, i) =>
    if r.off = 0x100 then BitVec.ofNat 32 (bxeStatReset key)
    else if r.off = 0x160 then BitVec.ofNat 32 ((if linkWide key then 4096 else 1024) * 2 ^ 16)
    else if i < r.count then BitVec.ofNat 32 (descReset key r.fields) else 0
  | .mem, some (r, i) =>
    if r.off = 0x400 then BitVec.ofNat 32 (memMapReset i)
    else if r.off = 0x600 then (if 120 ≤ i then BitVec.ofNat 32 (2 ^ 30) else 0)
    else BitVec.ofNat 32 (descReset key r.fields)
  | .ctr, some (r, i) =>
    if r.off = 0x200 then BitVec.ofNat 32 (i * 2 ^ 8) else BitVec.ofNat 32 (descReset key r.fields)
  | .mod, some (r, _) => BitVec.ofNat 32 (descReset key r.fields)
  | _, some (r, _) => BitVec.ofNat 32 (descReset key r.fields)

/-- The word of a block-specific register: the staged value of a staged register. -/
def State.reg (s : State) (key off : Nat) : Word := mget (regReset key) (s.page key).regs off

/-- The applied word of a staged register (R619). -/
def State.areg (s : State) (key off : Nat) : Word := mget (regReset key) (s.page key).applied off

/-- Write a block-specific register. -/
def State.setReg (s : State) (key off : Nat) (w : Word) : State :=
  s.modPage key fun p => { p with regs := mput p.regs off w }

/-- Write the applied word of a staged register. -/
def State.setAreg (s : State) (key off : Nat) (w : Word) : State :=
  s.modPage key fun p => { p with applied := mput p.applied off w }

/-- A field of a register. -/
def State.rf (s : State) (key : Nat) (f : RegField) : Nat := wget (s.reg key f.off) f.hi f.lo

/-- A one-bit field of a register. -/
def State.rb (s : State) (key : Nat) (f : RegField) : Bool := decide (s.rf key f ≠ 0)

/-- A field of the applied word of a staged register. -/
def State.af (s : State) (key : Nat) (f : RegField) : Nat := wget (s.areg key f.off) f.hi f.lo

/-- A one-bit field of the applied word. -/
def State.ab (s : State) (key : Nat) (f : RegField) : Bool := decide (s.af key f ≠ 0)

/-- Replace a field of a register. -/
def State.wf (s : State) (key : Nat) (f : RegField) (v : Nat) : State :=
  s.setReg key f.off (wset (s.reg key f.off) f.hi f.lo v)

/-- Replace a field of an applied register and of its staged value. -/
def State.waf (s : State) (key : Nat) (f : RegField) (v : Nat) : State :=
  s.setAreg key f.off (wset (s.areg key f.off) f.hi f.lo v)

/-- Write a one-bit field. -/
def State.wb (s : State) (key : Nat) (f : RegField) (b : Bool) : State := s.wf key f (boolNat b)

/-- Count up a saturating counter field. -/
def State.count (s : State) (key : Nat) (f : RegField) : State :=
  s.wf key f (satInc (2 ^ (f.hi + 1 - f.lo) - 1) (s.rf key f))

/-- Add to a counter field, saturating. -/
def State.countBy (s : State) (key : Nat) (f : RegField) (n : Nat) : State :=
  s.wf key f (min (2 ^ (f.hi + 1 - f.lo) - 1) (s.rf key f + n))

/-- Add to a counter field, modulo its width. -/
def State.wrapBy (s : State) (key : Nat) (f : RegField) (n : Nat) : State := s.wf key f (s.rf key f + n)

/-- A 72-bit index in three consecutive registers (R79). -/
def State.six3 (s : State) (key off : Nat) : Nat :=
  (s.reg key off).toNat + (s.reg key (off + 4)).toNat * 2 ^ 32 + (s.reg key (off + 8)).toNat % 256 * 2 ^ 64

/-- Write a 72-bit index into three consecutive registers. -/
def State.setSix3 (s : State) (key off six : Nat) : State :=
  ((s.setReg key off (BitVec.ofNat 32 six)).setReg key (off + 4) (BitVec.ofNat 32 (six / 2 ^ 32))).setReg key (off + 8)
    (BitVec.ofNat 32 (six / 2 ^ 64 % 256))

/-- A 64-bit value in two consecutive registers. -/
def State.pair (s : State) (key off : Nat) : Nat := (s.reg key off).toNat + (s.reg key (off + 4)).toNat * 2 ^ 32

/-- The applied value of a pair of staged registers. -/
def State.apair (s : State) (key off : Nat) : Nat := (s.areg key off).toNat + (s.areg key (off + 4)).toNat * 2 ^ 32

/-- Write a 64-bit value into two consecutive registers. -/
def State.setPair (s : State) (key off v : Nat) : State :=
  (s.setReg key off (BitVec.ofNat 32 v)).setReg key (off + 4) (BitVec.ofNat 32 (v / 2 ^ 32))

/-- A field of a word's value, as a word. -/
def word (n : Nat) : Word := BitVec.ofNat 32 n

/-! ### Outputs, free values. -/

/-- Send something out. -/
def State.emit (s : State) (o : Output) : State := { s with out := s.out ++ [o] }

/-- Draw a free word (log entry 3). -/
def State.drawWord (s : State) : Word × State := (Config.freeWord s.freeCtr, { s with freeCtr := s.freeCtr + 1 })

/-- Draw a free number (log entry 3). -/
def State.drawNat (s : State) : Nat × State := (Config.freeNat s.freeCtr, { s with freeCtr := s.freeCtr + 1 })

/-- Some free words. -/
def State.drawWords (s : State) : Nat → List Word × State
  | 0 => ([], s)
  | n + 1 =>
    let d := s.drawWord
    let r := State.drawWords d.2 n
    (d.1 :: r.1, r.2)

/-! ### MSI-X (R62-R64). -/

/-- The MSI-X table word at a word index: reset masks each vector (log entry 6). -/
def msixReset (i : Nat) : Word := if i % 4 = 3 then 1 else 0

/-- A word of a vector's table entry. -/
def State.msixWord (s : State) (v i : Nat) : Word := mget msixReset s.msixTable (4 * v + i)

/-- The vector is masked. -/
def State.msixMasked (s : State) (v : Nat) : Bool := wbit (s.msixWord v 3) 0

/-- The vector's pending bit. -/
def State.msixPending (s : State) (v : Nat) : Bool := mget (fun _ => false) s.msixPend v

/-- Send the message of a vector, or set its pending bit when the vector is masked (R64). -/
def State.sendMsix (s : State) (v : Nat) : State :=
  if s.msixMasked v then { s with msixPend := mput s.msixPend v true }
  else s.emit (.msix v (s.msixWord v 0) (s.msixWord v 1) (s.msixWord v 2))

/-- The vector of a page: the FLT page is always on vector 0 (R63). -/
def State.vectorOf (s : State) (key : Nat) : Option Nat :=
  if key = keyFLT then some 0
  else
    let v := mget (fun _ => 0) s.routes key
    if v = 0 then none else some v

/-- Send a page's interrupt message while its owner is HOST and it has a route (R64). -/
def State.pageMessage (s : State) (key : Nat) : State :=
  if (s.page key).owner = .host then
    match s.vectorOf key with
    | some v => s.sendMsix v
    | none => s
  else s

/-- Set interrupt flags; a message goes when (PG_IRQ AND PG_IRQ_EN) changes from zero to non-zero (R64). -/
def State.raiseIrq (s : State) (key : Nat) (mask : Word) : State :=
  let p := s.page key
  let s1 := s.setPage key { p with irq := p.irq ||| mask }
  if p.irq &&& p.irqEn = 0 ∧ (p.irq ||| mask) &&& p.irqEn ≠ 0 then s1.pageMessage key else s1

/-- Set one interrupt flag. -/
def State.irqBit (s : State) (key i : Nat) : State := s.raiseIrq key (word (2 ^ i))

def irqCMD_DONE : Nat := 0
def irqRES_READY : Nat := 1
def irqERR : Nat := 2
def irqFAULT : Nat := 3
def irqSTATE_CHANGE : Nat := 4

/-! ### The fault log (R591) and errors. -/

/-- The page source ID of R623. -/
def pageSource (key : Nat) : Nat := keyRegion key * 2 ^ 12 + 0x800 + keyPage key

/-- PG_ERR of FLT: a log entry was overwritten. -/
def errLOG_LOST : Nat := 16

/-- Append one entry to the log: number it, drop the oldest of 4,096, keep level REGION and MODULE in the flash log,
raise ENTRY for level BLOCK or higher, and hold levels BLOCK and REGION for Phoin (R590, R591, R598). -/
def State.logRaw (s : State) (e : LogEntry) : State :=
  let n := s.rf keyFLT Reg.FLT_HEAD
  let e := { e with entry := n }
  let full : Bool := decide (4096 ≤ s.log.length)
  let s := { s with log := (if full then s.log.drop 1 else s.log) ++ [e] }
  let s := s.wf keyFLT Reg.FLT_HEAD (n + 1)
  let s := if full then (s.count keyFLT Reg.FLT_LOST).wf keyFLT Reg.FLT_OLDEST (s.rf keyFLT Reg.FLT_OLDEST + 1) else s
  let s :=
    if 3 ≤ e.level then
      { s.count keyFLT Reg.FLT_FLASH_COUNT with
        flashLog := (if 256 ≤ s.flashLog.length then s.flashLog.drop 1 else s.flashLog) ++ [e] }
    else s
  let s := if 2 ≤ e.level then s.irqBit keyFLT 16 else s
  if e.level = 2 ∨ e.level = 3 then { s with held := s.held ++ [e] } else s

/-- Set an error flag without logging; whether it was newly set. -/
def State.setErrFlag (s : State) (key bit : Nat) : State :=
  let p := s.page key
  let s := s.setPage key { p with err := p.err ||| word (2 ^ bit) }
  if wbit p.errEn bit then s.irqBit key irqERR else s

/-- Log an entry; when one was lost, the advisory LOG_LOST is set and itself logged (R591, R592). -/
def State.log1 (s : State) (e : LogEntry) : State :=
  let full : Bool := decide (4096 ≤ s.log.length)
  let s := s.logRaw e
  if full && !wbit (s.page keyFLT).err errLOG_LOST then
    let s := s.setErrFlag keyFLT errLOG_LOST
    s.logRaw { entry := 0, level := 0, code := 0, sub := 0, kind := 1, six := s.six, source := pageSource keyFLT,
               pageKey := keyFLT, detail := (s.page keyFLT).err.toNat }
  else s

/-- Log an event of a page, stamped with the present index (R590). -/
def State.logPage (s : State) (key level code sub kind detail : Nat) : State :=
  s.log1 { entry := 0, level := level, code := code, sub := sub, kind := kind, six := s.six,
           source := pageSource key, pageKey := key, detail := detail }

/-- Set a PG_ERR flag; one newly set raises PG_IRQ.ERR when enabled and is logged as ERROR (R41, R592). -/
def State.setErr (s : State) (key bit : Nat) : State :=
  if wbit (s.page key).err bit then s
  else
    let s := s.setErrFlag key bit
    s.logPage key 0 0 0 1 (s.page key).err.toNat

/-- Set a PG_ERR flag whose cause the log carries each time (R104). -/
def State.setErrLogged (s : State) (key bit : Nat) : State :=
  if wbit (s.page key).err bit then s.logPage key 0 0 0 1 (s.page key).err.toNat else s.setErr key bit

def errRANGE : Nat := 0
def errACCESS : Nat := 1
def errACK_SEQ : Nat := 3
def errLOCKED : Nat := 4
def errESCALATED : Nat := 5

/-! ### Block states (R49). -/

/-- Enter a block state; a change raises PG_IRQ.STATE_CHANGE (R41). -/
def State.enter (s : State) (key : Nat) (st : BlockState) : State :=
  if (s.page key).st = st then s
  else (s.modPage key fun p => { p with st := st }).irqBit key irqSTATE_CHANGE

/-- A block that is SUSPENDED discards `n` inputs and counts them (R49). -/
def State.countDropped (s : State) (key n : Nat) : State :=
  if (s.page key).st = .suspended then s.modPage key fun p => { p with dropped := p.dropped + n } else s

/-! ### Results and the end of an operation (R56, R60, R61). -/

/-- The next value of PG_RES_SEQ (R60): never 0. -/
def nextSeq (w : Word) : Word := if w = 0xFFFFFFFF then 1 else w + 1

/-- Write the result window: words, PG_RES_SEQ and PG_RES_READY as one update (R60). -/
def State.writeResult (s : State) (key : Nat) (r : List Word) : State :=
  (s.modPage key fun p => { p with res := (r ++ [0, 0, 0, 0, 0, 0, 0, 0]).take 8, resSeq := nextSeq p.resSeq,
                                   resReady := true }).irqBit key irqRES_READY

/-- End the operation in progress: PG_CMD_STAT takes its tag, the final phase, code and sub-reason (R56). -/
def State.endOp (s : State) (key phase code sub : Nat) : State :=
  match (s.page key).op with
  | none => s
  | some op =>
    (s.modPage key fun p => { p with op := none, waiting := p.waiting.filter (fun w => !w.1),
                                     cmdStat := cmdStatWord op.tag phase sub code }).irqBit key irqCMD_DONE

/-- The operation fails. -/
def State.failOp (s : State) (key code sub : Nat) : State := s.endOp key phaseFAILED code sub

/-- The operation ends CANCELLED. -/
def State.cancelOp (s : State) (key : Nat) : State := s.endOp key phaseCANCELLED codeOK 0

/-- The operation ends DONE without a result. -/
def State.doneOp (s : State) (key : Nat) : State := s.endOp key phaseDONE codeOK 0

/-- The operation completes with a result: written now, or held until the window is released or the operation resumes (R57, R61). -/
def State.doneWith (s : State) (key : Nat) (r : List Word) : State :=
  match (s.page key).op with
  | none => s
  | some op =>
    if (s.page key).resReady || op.suspended then s.modPage key fun p => { p with waiting := p.waiting ++ [(true, r)] }
    else (s.writeResult key r).doneOp key

/-- A control command's result (QUERY beside an operation): written now or held (R61). -/
def State.giveResult (s : State) (key : Nat) (r : List Word) : State :=
  if (s.page key).resReady then s.modPage key fun p => { p with waiting := p.waiting ++ [(false, r)] }
  else s.writeResult key r

/-- After the window is released, the first waiting result takes it, but a SUSPENDED operation does not write it (R57, R61). -/
def State.drainResult (s : State) (key : Nat) : State :=
  if (s.page key).resReady then s
  else
    match (s.page key).waiting with
    | [] => s
    | (isOp, r) :: rest =>
      let held : Bool := match (s.page key).op with | some op => op.suspended | none => false
      if isOp && held then s else
      let s := (s.modPage key fun p => { p with waiting := rest }).writeResult key r
      if isOp then s.doneOp key else s

/-! ### Rejection and acceptance (R53-R56). -/

/-- A rejected command writes PG_CMD_STAT, is logged, and with code RANGE sets PG_ERR.RANGE (R55). -/
def State.reject (s : State) (key tag opcode code sub : Nat) : State :=
  let s := s.modPage key fun p => { p with cmdStat := cmdStatWord tag phaseREJECTED sub code }
  let s := s.logPage key 0 code sub 5 (cmdWord tag opcode)
  if code = codeRANGE then s.setErr key errRANGE else s

/-- Accept an operation: it is RUNNING, and PG_PROGRESS is 0 (R53, R54). -/
def State.accept (s : State) (key : Nat) (op : Op) : State :=
  s.modPage key fun p => { p with op := some op, progress := 0,
                                  cmdStat := cmdStatWord op.tag phaseRUNNING 0 codeOK }

/-- PG_PROGRESS of the operation in progress; it never decreases (R41). -/
def State.progressTo (s : State) (key n : Nat) : State :=
  s.modPage key fun p => { p with progress := if p.progress.toNat < n then word n else p.progress }

/-! ### Who may reach a page (R36, R44, R564). -/

/-- MOD_STAT.READY. -/
def State.ready (s : State) : Bool := s.rb keyMOD Reg.MOD_STAT.READY

/-- The pages that are reached before READY (R564). -/
def alwaysReachable (key : Nat) : Bool :=
  key == keyMOD || key == keySEC || key == keyPWR || key == keyFLT

/-- The page answers as one in a switched-off domain (R36, R564). -/
def State.pageOff (s : State) (key : Nat) : Bool :=
  decide ((s.page key).st = .off) || (!s.ready && !alwaysReachable key)

/-- The BAR0 address of a register (R32). -/
def barAddr (key off : Nat) : Nat := keyRegion key * 0x400000 + keyPage key * 0x1000 + off

/-- Log a discarded host write as an OWNER entry (R592). -/
def State.logDiscard (s : State) (key addr value code : Nat) : State :=
  s.logPage key 0 code 0 6 (addr % 2 ^ 48 + value % 2 ^ 16 * 2 ^ 48)

/-- An access to a page number that the catalogue does not list is logged as UNMAPPED (R35). -/
def State.logUnmapped (s : State) (addr : Nat) : State :=
  s.log1 { entry := 0, level := 0, code := 0, sub := 0, kind := 7, six := s.six, source := 0x100, pageKey := 0xFFFF,
           detail := addr }

/-- Why a write to a page is discarded: `none` when it is honoured (R35, R36, R44, R564). -/
inductive Discard where
  | unmapped
  | off
  | owner
  deriving DecidableEq, Repr

/-- Whether a write reaches its page. The module's own path is not subject to ownership (R44). -/
def State.discards (s : State) (who : Issuer) (key : Nat) : Option Discard :=
  if !keyListed key then some .unmapped
  else if (s.page key).st = .off then some .off
  else if who = .module then none
  else if s.pageOff key then some .off
  else if (s.page key).owner ≠ .host then some .owner
  else none

/-- The effect of a discarded write: the log entry (R35, R36, R44). -/
def State.discarded (s : State) (who : Issuer) (key off value : Nat) (d : Discard) : State :=
  match d, who with
  | _, .module => s
  | .unmapped, _ => s.logUnmapped (barAddr key off)
  | .off, _ => s.logDiscard key (barAddr key off) value codeSTATE
  | .owner, _ => s.logDiscard key (barAddr key off) value codeOWNER

/-- A write that reaches its page runs `k`; another is discarded and logged. A host write to a read-only register of a page that is not
HOST's is logged like any other (log entry 74). -/
def State.honour (s : State) (who : Issuer) (key off value : Nat) (k : State → State) : State :=
  match s.discards who key with
  | some d => s.discarded who key off value d
  | none => k s

/-- A write of a guest page that its own documentation gives a meaning: block registers, a block-specific opcode, and a COMMIT while no
operation is in progress (R40, R50, R54). -/
def State.guestTakes (s : State) (key off value : Nat) : Bool :=
  s.guestPage key && (decide (0x100 ≤ off) || (decide (off = 0x030) &&
    (decide (0x100 ≤ value % 65536) || (decide (value % 65536 = 6) && (s.page key).op.isNone))))

/-- The guest die takes the write. PG_CMD_STAT shows the command's tag; how the guest die answers it is free (R56; log entry 73). -/
def State.guestWrite (s : State) (key off value : Nat) : State :=
  let s := s.emit (.guestWrite key off (word value))
  if off = 0x030 then
    let d := s.drawNat
    d.2.modPage key fun p => { p with cmdStat := cmdStatWord (value / 2 ^ 24) d.1 (d.1 / 16) (d.1 / 4096) }
  else s

/-- A whole write to a page: one of a guest page's block goes to the guest die. -/
def State.write (s : State) (who : Issuer) (key off value : Nat) (k : State → State) : State :=
  s.honour who key off value fun s => if s.guestTakes key off value then s.guestWrite key off value else k s

/-- The operation a PG_CMD write asks for: the arguments latch at the write (R52). -/
def State.latch (s : State) (key opcode tag : Nat) : Op :=
  let p := s.page key
  { opcode := opcode, tag := tag % 256, a0 := p.a0.toNat, a1 := p.a1.toNat, a2 := p.a2.toNat, a3 := p.a3.toNat,
    suspended := false }

/-- A PG_CMD write of an opcode that starts an operation: discarded where the page is out of reach, REJECTED BUSY
while an operation is in progress, and otherwise evaluated by `k` on the latched operation (R44, R53, R54). -/
def State.command (s : State) (who : Issuer) (key opcode tag : Nat) (k : State → Op → State) : State :=
  s.write who key 0x030 (cmdWord tag opcode) fun s =>
    if (s.page key).op.isSome then s.reject key tag opcode codeBUSY 0 else k s (s.latch key opcode tag)

/-- Reject the operation of a latched command. -/
def State.rejectOp (s : State) (key : Nat) (op : Op) (code sub : Nat) : State :=
  s.reject key op.tag op.opcode code sub

/-! ### Staged registers (R619). -/

/-- The register at an offset is staged. -/
def isStaged (key off : Nat) : Bool :=
  match findReg (regTable (blockOf key)) off with
  | some (r, _) => r.staged
  | none => false

/-- The staged words of a page as they stand. -/
def State.staged (s : State) (key : Nat) : List (Nat × Word) := (s.page key).regs.filter fun e => isStaged key e.1

/-- Some staged value differs from the value applied. -/
def State.stagedDiffers (s : State) (key : Nat) : Bool :=
  ((s.staged key).any fun e => decide (s.areg key e.1 ≠ e.2)) ||
    ((s.page key).applied.any fun e => decide (s.reg key e.1 ≠ e.2))

/-- The word a commit would apply at an offset. -/
def PendApply.word (a : PendApply) (key off : Nat) : Word := mget (regReset key) a.words off

/-- A field of the words a commit would apply. -/
def PendApply.field (a : PendApply) (key : Nat) (f : RegField) : Nat := wget (a.word key f.off) f.hi f.lo

/-- The configuration of a page that waits for its index. -/
def State.pendOf (s : State) (key : Nat) : Option PendApply := mfind s.pend key

/-- Let the staged words of a page wait for an index. -/
def State.setPend (s : State) (key due : Nat) (byOp : Bool) : State :=
  { s with pend := mput s.pend key { due := due, words := s.staged key, byOp := byOp, empty := !s.stagedDiffers key } }

/-- Nothing waits on a page any more. -/
def State.clearPend (s : State) (key : Nat) : State := { s with pend := mdel s.pend key }

/-- The applied words of a page become those of the commit. -/
def State.applyWords (s : State) (key : Nat) (ws : List (Nat × Word)) : State :=
  s.modPage key fun p => { p with applied := ws }

/-- The index of a COMMIT_AT in ARG0, ARG1 and ARG2[7:0]. -/
def Op.sixArg (op : Op) : Nat := op.a0 + op.a1 * 2 ^ 32 + op.a2 % 256 * 2 ^ 64

/-- The operation with another index in its arguments. -/
def Op.withSix (op : Op) (six : Nat) : Op :=
  { op with a0 := six % 2 ^ 32, a1 := six / 2 ^ 32 % 2 ^ 32, a2 := op.a2 / 256 * 256 + six / 2 ^ 64 % 256 }

/-- The three result words of an index. -/
def sixWords (six : Nat) : List Word := [word six, word (six / 2 ^ 32), word (six / 2 ^ 64 % 256)]

/-- The first multiple of `m` at or after `n`. -/
def ceilTo (m n : Nat) : Nat := (n + m - 1) / m * m

/-- A COMMIT (opcode 0x0006) or COMMIT_AT (opcode 0x0100) ends once its words apply: COMMIT_AT with the applied
index in RES0-RES2. -/
def State.endCommit (s : State) (key due : Nat) : State :=
  match (s.page key).op with
  | some op => if op.opcode = 0x0006 then s.doneOp key else s.doneWith key (sixWords due)
  | none => s

/-! ### Ownership and reset (R46, R615). -/

/-- Change the owner of a page (R46): a new generation; errors, interrupts and PG_CTRL clear; READY becomes 0. -/
def State.changeOwner (s : State) (key : Nat) (o : Owner) : State :=
  if (s.page key).owner = o then s
  else
    s.modPage key fun p =>
      { p with owner := o, gen := (p.gen + 1) % 256, err := 0, irq := 0, errEn := 0, irqEn := 0, enable := false,
               freeze := false, lock := false, resReady := false, waiting := [] }

/-- The registers of a page after a reset by SOFT_RESET: owner, sequence number, results, command status and progress
are kept, every other register takes its reset value (R615). -/
def Page.softReset (p : Page) (key : Nat) : Page :=
  { Page.ofKey key with owner := p.owner, gen := p.gen, before := p.before, softRst := true, resSeq := p.resSeq, res := p.res,
                        cmdStat := p.cmdStat, progress := p.progress, irqEn := 0, st := .reset }

/-- A reset entered from OFF keeps only PG_OWNER (R615). -/
def Page.powerReset (p : Page) (key : Nat) : Page :=
  { Page.ofKey key with owner := p.owner, gen := p.gen, before := p.before, st := .reset }

/-! ### Time. -/

/-- SCLK periods in a microsecond and in a millisecond (R24). -/
def sixPerUs : Nat := 40960
def sixPerMs : Nat := 40960000

/-- Move the clock forward to an index; time never runs backwards. -/
def State.advanceTo (s : State) (six : Nat) : State := { s with six := if s.six < six then six % sixModulus else s.six }

/-- Apply a list of updates in order. -/
def State.each {α : Type} (s : State) (xs : List α) (f : State → α → State) : State := xs.foldl f s

/-- Every page key of the catalogue (R37-R39), in key order. -/
def allKeys : List Nat := (List.range 8192).filter keyListed

/-- Entry `i` of a list of per-unit states, or the default. -/
def nth {α : Type} (d : α) (xs : List α) (i : Nat) : α := xs.getD i d

/-- Replace entry `i` of a list. -/
def setNth {α : Type} (xs : List α) (i : Nat) (v : α) : List α := xs.set i v

/-- The little-endian bytes of a number (R5). -/
def leBytes (v : Nat) : Nat → List Byte
  | 0 => []
  | n + 1 => BitVec.ofNat 8 v :: leBytes (v / 256) n

/-! ### Link ends. -/

/-- A link end at reset. -/
def LinkEnd.init : LinkEnd :=
  { rxSlot := 0, txSlot := 0, tseq := 0, unacked := [], resend := [], accepted := 0, nakUntil := none, nakDue := false, rk := 0,
    freed := [0, 0, 0], returned := [0, 0, 0], advert := [0, 0, 0], used := [0, 0, 0], lnk := [], paramOk := false,
    paramLeft := 0, paramSeq := none, lnkIn := [], smp := [], smpTx := 0, smpRx := 0, smpLost := 0, smpFrame := 0, tx := [],
    rx := [], inbox := [], tags := [], ackAt := 0, flitAt := 0, deadline := 0, bad := 0, retrains := 0, replayFrom := 0,
    replayRow := 0, hard := [], mismatch := [], repair := none, repairNext := [], granted := none, token := 0, fenced := false }

/-- The 14 link ends by BXE page key (R10). -/
def endKey (n : Nat) : Nat :=
  if n < 3 then keyOf 0 (0x3F0 + n) else if n < 6 then keyOf 1 (0x3F0 + (n - 3)) else if n < 9 then keyOf 2 (0x3F0 + (n - 6))
  else keyOf (3 + (n - 9)) 0x3F0

/-- The link end of a key. -/
def State.link (s : State) (key : Nat) : LinkEnd := mget (fun _ => LinkEnd.init) s.links key

/-- Change a link end. -/
def State.modLink (s : State) (key : Nat) (f : LinkEnd → LinkEnd) : State := { s with links := mput s.links key (f (s.link key)) }

end Sys2Proof.Machine
end

