-- ==== Sys2Proof/Machine/Aes.lean ====
section
/-! DEFINITION. AES-256 in Galois/Counter Mode, which R456 and the key store name (FIPS 197 and SP 800-38D lie outside the
spec; log entry 46). -/

namespace Sys2Proof.Machine

/-- Multiply by x in GF(2^8) with polynomial 0x11B. -/
def gf8x (a : Nat) : Nat := if 128 ≤ a then Nat.xor (2 * a % 256) 0x1B else 2 * a

/-- The S-box by rows of 16 bytes, in each the byte of the lowest number in the lowest place. -/
def aesRows : List Nat :=
  [0x76ABD7FE2B670130C56F6BF27B777C63, 0xC072A49CAFA2D4ADF04759FA7DC982CA, 0x1531D871F1E5A534CCF73F362693FDB7, 0x75B227EBE28012079A059618C323C704,
   0x842FE329B3D63B52A05A6E1B1A2C8309, 0xCF584C4A39BECB6A5BB1FC20ED00D153, 0xA89F3C507F02F94585334D43FBAAEFD0, 0xD2F3FF1021DAB6BCF5389D928F40A351,
   0x73195D643D7EA7C41744975FEC130CCD, 0xDB0B5EDE14B8EE4688902A22DC4F8160, 0x79E4959162ACD3C25C2406490A3A32E0, 0x08AE7A65EAF4566CA94ED58D6D37C8E7,
   0x8A8BBD4B1F74DDE8C6B4A61C2E2578BA, 0x9E1DC186B95735610EF6034866B53E70, 0xDF2855CEE9871E9B948ED9691198F8E1, 0x16BB54B00F2D99416842E6BF0D89A18C]

/-- The S-box. -/
def aesSub (a : Nat) : Nat := aesRows.getD (a / 16) 0 / 256 ^ (a % 16) % 256

/-- XOR of byte lists. -/
def xorBytes (a b : List Nat) : List Nat := List.zipWith Nat.xor a b

/-- Key schedule: words of 4 bytes, newest last; `n` more words. -/
def aesExpand (ws : List (List Nat)) (i : Nat) : Nat → List (List Nat)
  | 0 => ws
  | n + 1 =>
    let prev := ws.getD (i - 1) []
    let t :=
      if i % 8 = 0 then
        let rot := (prev.drop 1 ++ prev.take 1).map aesSub
        xorBytes rot [(List.range (i / 8 - 1)).foldl (fun r _ => gf8x r) 1, 0, 0, 0]
      else if i % 8 = 4 then prev.map aesSub
      else prev
    aesExpand (ws ++ [xorBytes (ws.getD (i - 8) []) t]) (i + 1) n

/-- The 15 round keys of a 32-byte key. -/
def aesKeys (key : List Nat) : List (List Nat) :=
  let w := aesExpand ((List.range 8).map fun i => (key.drop (4 * i)).take 4) 8 52
  (List.range 15).map fun r => ((w.drop (4 * r)).take 4).flatMap id

/-- Shift rows of a state of 16 bytes in column order. -/
def aesShift (s : List Nat) : List Nat := (List.range 16).map fun i => s.getD ((i + 4 * (i % 4)) % 16) 0

/-- Mix one column. -/
def aesMix (c : List Nat) : List Nat :=
  let a (i : Nat) := c.getD (i % 4) 0
  (List.range 4).map fun i => Nat.xor (Nat.xor (gf8x (a i)) (Nat.xor (gf8x (a (i + 1))) (a (i + 1)))) (Nat.xor (a (i + 2)) (a (i + 3)))

/-- Encrypt one block under round keys. -/
def aesBlock (ks : List (List Nat)) (b : List Nat) : List Nat :=
  let s := xorBytes b (ks.getD 0 [])
  let s := (List.range 13).foldl (fun s r =>
    let s := aesShift (s.map aesSub)
    let s := (List.range 4).flatMap fun c => aesMix ((s.drop (4 * c)).take 4)
    xorBytes s (ks.getD (r + 1) [])) s
  xorBytes (aesShift (s.map aesSub)) (ks.getD 14 [])

/-- A big-endian number of bytes. -/
def beNat (bs : List Nat) : Nat := bs.foldl (fun a b => a * 256 + b) 0

/-- The big-endian bytes of a number. -/
def beBytes (v n : Nat) : List Nat := (List.range n).map fun i => v / 256 ^ (n - 1 - i) % 256

/-- Product in GF(2^128) of GCM, bit 0 the most significant. -/
def gcmMul (x y : Nat) : Nat :=
  ((List.range 128).foldl (fun (p : Nat × Nat) i =>
    (if nbit x (127 - i) then Nat.xor p.1 p.2 else p.1,
      if p.2 % 2 = 1 then Nat.xor (p.2 / 2) (0xE1 * 2 ^ 120) else p.2 / 2)) (0, y)).1

/-- Blocks of 16 bytes, the last padded with zeros. -/
def blocks16 (bs : List Nat) : List (List Nat) :=
  (List.range ((bs.length + 15) / 16)).map fun i => ((bs.drop (16 * i)).take 16 ++ List.replicate 16 0).take 16

/-- The tag of additional data and ciphertext. -/
def gcmTag (ks : List (List Nat)) (iv aad ct : List Nat) : List Nat :=
  let h := beNat (aesBlock ks (List.replicate 16 0))
  let all := (blocks16 aad ++ blocks16 ct).map beNat ++ [8 * aad.length * 2 ^ 64 + 8 * ct.length]
  let g := all.foldl (fun y b => gcmMul (Nat.xor y b) h) 0
  xorBytes (beBytes g 16) (aesBlock ks (iv ++ [0, 0, 0, 1]))

/-- The key stream applied to bytes from counter 2. -/
def gcmStream (ks : List (List Nat)) (iv bs : List Nat) : List Nat :=
  (List.range ((bs.length + 15) / 16)).flatMap fun i =>
    xorBytes ((bs.drop (16 * i)).take 16) (aesBlock ks (iv ++ beBytes (i + 2) 4))

/-- Bytes as numbers and back. -/
def toNats (bs : List Byte) : List Nat := bs.map (·.toNat)
def toBytes (ns : List Nat) : List Byte := ns.map (BitVec.ofNat 8)

/-- AES-256-GCM encryption: ciphertext and 16-byte tag, with a 12-byte IV. -/
def gcmEncrypt (key iv aad pt : List Byte) : List Byte :=
  let ks := aesKeys (toNats key)
  let ct := gcmStream ks (toNats iv) (toNats pt)
  toBytes (ct ++ gcmTag ks (toNats iv) (toNats aad) ct)

/-- AES-256-GCM decryption of ciphertext and tag; none when the tag does not match. -/
def gcmDecrypt (key iv aad data : List Byte) : Option (List Byte) :=
  let ks := aesKeys (toNats key)
  let n := data.length - 16
  let ct := toNats (data.take n)
  if data.length < 16 ∨ gcmTag ks (toNats iv) (toNats aad) ct ≠ toNats (data.drop n) then none
  else some (toBytes (gcmStream ks (toNats iv) ct))

end Sys2Proof.Machine
end

