-- ==== Sys2Proof/Machine/TimeBase.lean ====
section
/-! DEFINITION. The time base: references and steering (R67-R72), PTP and PPS (R73-R75), the sample index (R76-R79),
benchmarks and absolute time (R80-R83, R620), and the SYNCIN edge (R86-R89). -/

namespace Sys2Proof.Machine

/-! ### Absolute time (R83). -/

/-- Periods with their FINE fraction, as picoseconds at the frequency offset of the benchmark, rounded half up (R83). -/
def dtPs (periods fine : Nat) (freqOff : Int) : Int :=
  ((((periods * 65536 + fine : Nat) : Int) * 3125 * (10 ^ 14 - freqOff)) * 2 + 128 * 65536 * 10 ^ 14) /
    (2 * (128 * 65536 * 10 ^ 14))

/-- The latest benchmark at or before an index; before any, SIX 0 at time 0 (R83). -/
def State.benchAt (s : State) (six : Nat) : Bench :=
  (s.tb.benches.find? fun b => decide (b.six ≤ six)).getD { six := 0, ps := 0, freqOff := 0, payload := [] }

/-- The absolute time of (SIX, FINE) in picoseconds of the PTP epoch, by the rule of R83. -/
def State.timePs (s : State) (six fine : Nat) : Nat :=
  let b := s.benchAt six
  ((b.ps : Int) + dtPs (six - b.six) fine b.freqOff).toNat

/-- SECONDS and PICOSECONDS of a legend (R83). -/
def State.legendTime (s : State) (six fine : Nat) : Nat × Nat :=
  (s.timePs six fine / 10 ^ 12, s.timePs six fine % 10 ^ 12)

def psPerSecond : Nat := 10 ^ 12

/-- Change the time base. -/
def State.modTb (s : State) (f : TimeBase → TimeBase) : State := { s with tb := f s.tb }

/-- The count of SCLK periods, which no LOAD_SIX changes (R87). -/
def State.elapsed (s : State) (six : Nat) : Int := (six : Int) - s.tb.shift

/-! ### References (R70-R72). -/

def errREF_LOST : Nat := 16
def errPTP_LOST : Nat := 17
def errSYNC_SLIP : Nat := 18
def errSTEER_LIMIT : Nat := 19
def errXTAL_FAULT : Nat := 20

/-- Two natural numbers lie within a distance of each other. -/
def within (a b d : Nat) : Bool := decide (a ≤ b + d) && decide (b ≤ a + d)

/-- A REFIN check is valid: amplitude 0.2-2.0 V (R607), frequency within 5 ppm of the selected nominal (R70). -/
def refinValid (refFreq amplMv hz : Nat) : Bool :=
  decide (200 ≤ amplMv) && decide (amplMv ≤ 2000) &&
    (match refFreq with
     | 0 => within hz 10000000 50
     | 1 => within hz 100000000 500
     | _ => within hz 10000000 50 || within hz 100000000 500)

/-- Presence after a check: 3 consecutive valid checks declare a reference present, 2 invalid ones lost (R70). The
answer is presence, then the runs of valid and of invalid checks. -/
def presence (present valid : Bool) (good bad : Nat) : Bool × Nat × Nat :=
  if valid then (present || decide (2 ≤ good), good + 1, 0)
  else (present && decide (bad < 1), 0, bad + 1)

/-- The frequency source: the first present reference in the order REFIN, PTP, PPS_IN (R71), in the code of R81. -/
def freqSource (refin ptp pps : Bool) : Nat := if refin then 1 else if ptp then 2 else if pps then 3 else 0

/-- Steering moves by at most 1 ppb/s, which is 100 units of 10⁻¹⁴ per 1 ms check (R68). -/
def slew (steer target : Int) : Int :=
  if target > steer + 100 then steer + 100 else if target < steer - 100 then steer - 100 else target

/-- The steering of HOLDOVER: the average kept, plus TBS_AGE_RATE × elapsed days (R69). -/
def holdoverSteer (avg rate : Int) (periods : Nat) : Int := avg + rate * 100 * (periods : Int) / (86400 * 40960000000 : Nat)

/-- Mean of the steering history (R69). -/
def steerMean (l : List Int) : Int := if l.isEmpty then 0 else l.foldl (· + ·) 0 / (l.length : Int)

/-- TBS_STEER as an integer of 10⁻¹⁴. -/
def State.steer (s : State) : Int := signedOf 32 (s.reg keyTBS Reg.TBS_STEER.off).toNat

/-- ±10 ppm in 10⁻¹⁴ (R67). -/
def offsetLimit : Int := 1000000000

/-- A value held within a limit. -/
def clamp (lim v : Int) : Int := max (-lim) (min lim v)

/-- Write the steering value, clamped so that ageing plus steering stays within ±10 ppm, as far as TBS_STEER can hold it; the offset in
force is the factory trim with both, within the limit (R67). -/
def State.setSteer (s : State) (v : Int) : State :=
  let age : Int := signedOf 24 (s.rf keyTBS Reg.TBS_AGEING.ADJ) * 1000
  let c := satSigned 32 (clamp offsetLimit (age + v) - age)
  let s := (s.wf keyTBS Reg.TBS_STEER (unsignedOf 32 c)).modTb fun t =>
    { t with offset := Config.factoryTrim + clamp offsetLimit (age + c) }
  if c = v then s else s.setErr keyTBS errSTEER_LIMIT

/-- Enter a time-base state; every transition raises TB_STATE (R72). -/
def State.tbEnter (s : State) (n : Nat) : State :=
  if s.rf keyTBS Reg.TBS_STATE.TB_STATE = n then s
  else (s.wf keyTBS Reg.TBS_STATE.TB_STATE n).irqBit keyTBS 16

/-- The state/event table of R72 after the references were declared present or lost. -/
def State.tbReferences (s : State) : State :=
  let refin := s.rb keyTBS Reg.TBS_STATE.REF_PRESENT
  let ptp := s.rb keyTBS Reg.TBS_STATE.PTP_LOCKED
  let pps := s.rb keyTBS Reg.TBS_STATE.PPS_PRESENT
  let any := refin || ptp || pps
  let src := freqSource refin ptp pps
  match s.rf keyTBS Reg.TBS_STATE.TB_STATE, any with
  | 0, true => (s.wf keyTBS Reg.TBS_STATE.FREQ_SRC src).tbEnter 1
  | 1, false => (s.wf keyTBS Reg.TBS_STATE.FREQ_SRC 0).tbEnter 0
  | 2, false =>
    let s := s.modTb fun t => { t with holdAt := s.elapsed s.six, holdSteer := steerMean t.steerHist }
    ((s.wf keyTBS Reg.TBS_STATE.FREQ_SRC 4).tbEnter 3).setErr keyTBS errREF_LOST
  | 3, true => (s.wf keyTBS Reg.TBS_STATE.FREQ_SRC src).tbEnter 1
  | _, true => s.wf keyTBS Reg.TBS_STATE.FREQ_SRC src
  | _, false => s

/-- The 1 ms check of REFIN and PTP, and the 2 s limit of PPS_IN: presence is declared and lost (R70, R602). -/
def State.refPresence (s : State) (amplMv hz : Nat) (ptpOk : Bool) : State :=
  let r := presence (s.rb keyTBS Reg.TBS_STATE.REF_PRESENT)
    (refinValid (s.rf keyTBS Reg.TBS_CFG.REF_FREQ) amplMv hz) s.tb.refinGood s.tb.refinBad
  let p := presence (s.rb keyTBS Reg.TBS_STATE.PTP_LOCKED) ptpOk s.tb.ptpGood s.tb.ptpBad
  let refOn := s.rb keyTBS Reg.TBS_CFG.REF_EN
  let ptpOn := s.rb keyTBS Reg.TBS_CFG.PTP_EN
  let ppsOld : Bool :=
    match s.tb.ppsLast with
    | some e => decide (e + 2000 * sixPerMs ≤ s.elapsed s.six)
    | none => true
  let wasPtp := s.rb keyTBS Reg.TBS_STATE.PTP_LOCKED
  let nowPtp := ptpOn && p.1
  let s := s.modTb fun t =>
    { t with refinGood := if refOn then r.2.1 else 0, refinBad := if refOn then r.2.2 else 0,
             ptpGood := if ptpOn then p.2.1 else 0, ptpBad := if ptpOn then p.2.2 else 0,
             ppsGood := if ppsOld then 0 else t.ppsGood }
  let s := s.wb keyTBS Reg.TBS_STATE.REF_PRESENT (refOn && r.1)
  let s := s.wb keyTBS Reg.TBS_STATE.PTP_LOCKED nowPtp
  let s := s.wb keyTBS Reg.TBS_STATE.PPS_PRESENT
    (s.rb keyTBS Reg.TBS_STATE.PPS_PRESENT && s.rb keyTBS Reg.TBS_CFG.PPS_IN_EN && !ppsOld)
  if wasPtp && !nowPtp then s.setErr keyTBS errPTP_LOST else s

/-- Steering at a check: towards the target of the active reference, by the ageing rate in HOLDOVER, or as it is in FREE, within the limit
(R67-R69). -/
def State.refSteer (s : State) (target : Int) (fit : Option Int) : State :=
  match s.rf keyTBS Reg.TBS_STATE.TB_STATE with
  | 0 => s.setSteer s.steer
  | 3 =>
    let rate : Int := signedOf 32 (s.reg keyTBS Reg.TBS_AGE_RATE.off).toNat
    s.setSteer (slew s.steer (holdoverSteer s.tb.holdSteer rate (s.elapsed s.six - s.tb.holdAt).toNat))
  | n =>
    let s := s.setSteer (slew s.steer target)
    let s := s.modTb fun t => { t with steerHist := (s.steer :: t.steerHist).take 10000 }
    match fit with
    | some v => if n = 2 then s.wf keyTBS Reg.TBS_AGE_RATE (unsignedOf 32 v) else s
    | none => s

/-- A master whose announcements have lapsed is the module's no more (R73). -/
def State.ptpLapse (s : State) : State :=
  match s.tb.ptpMaster with
  | some m => if m.2.2 < s.elapsed s.six then s.modTb fun t => { t with ptpMaster := none, ptpT1 := none, ptpT2 := none, ptpT3 := none } else s
  | none => s

/-- REF_CHECK: the check once per millisecond of the enabled references (R70-R72), with the amplitude and frequency
measured at REFIN, whether PTP's check is valid, the steering the active reference asks for, and the drift Lenuc
firmware fitted, if it fitted one (R69). -/
def execRefCheck (amplMv hz : Nat) (ptpOk : Bool) (target : Int) (fit : Option Int) (s : State) : Res :=
  if (s.page keyTBS).st = .fault then .next s
  else .next ((((s.refPresence amplMv hz ptpOk).tbReferences).refSteer target fit).ptpLapse)

/-- TB_LOCKED: after 10 s with the offset below 1e-9, ACQUIRE becomes LOCKED (R72). -/
def execTbLocked (s : State) : Res :=
  .next (if s.rf keyTBS Reg.TBS_STATE.TB_STATE = 1 then s.tbEnter 2 else s)

/-- A block enters FAULT (R14, R49): the operation ends FAILED with code FAULT, PG_STAT.FAULT and PG_IRQ.FAULT are
set, and a FAULT entry of level BLOCK is logged. -/
def State.faultBlock (s : State) (key bit : Nat) : State :=
  let s := s.setErr key bit
  match (s.page key).st with
  | .idle | .active | .suspended | .frozen =>
    let s := s.failOp key codeFAULT 0
    let s := (s.enter key .fault).irqBit key irqFAULT
    s.logPage key 2 codeFAULT 0 2 (s.page key).err.toNat
  | _ => s

/-- PHN_STAT.HOLD and its cause follow what holds admissions: a firmware activation, or else a SIX load in progress (R85, R573). -/
def State.refreshHold (s : State) : State :=
  let load := match s.tb.sync with | some o => o.loadSix | none => false
  let cause := if s.power.holdAt.isSome then 1 else if load then 2 else 0
  (s.wb keyPHN Reg.PHN_STAT.HOLD (decide (cause ≠ 0))).wf keyPHN Reg.PHN_STAT.HOLD_CAUSE cause

/-- ARM_SYNC or SYNC_NOW is over: SYNCOUT is low, and admissions held for its SIX load go on (R84, R85). -/
def State.syncOff (s : State) : State := (s.modTb fun t => { t with sync := none, repeatAt := [] }).refreshHold

/-- XTAL_FAULT: a crystal or synthesiser failure puts the time base in FAULT and escalates to module level (R72, R594). -/
def execXtalFault (s : State) : Res :=
  let s := (s.faultBlock keyTBS errXTAL_FAULT).syncOff.modTb fun t => { t with setSecs := none }
  .next { s with safeReq := if s.safeReq.isNone then some 2 else s.safeReq }

/-! ### Time of day and benchmarks (R80-R82, R620). -/

/-- The change of the time mapping that the next benchmark carries, in place of one that waits (R82). -/
def State.stepTime (s : State) (d : Int) : State :=
  (s.modTb fun t => { t with pendStep := some d }).wb keyTBS Reg.TBS_STATE.TIME_VALID true

/-- PTP is the time-of-day source (R71). -/
def State.ptpTime (s : State) : Bool := s.rb keyTBS Reg.TBS_STATE.PTP_LOCKED

/-- A pending SET_TIME applies: the instant (SIX, FINE) is the start of the second it names (R82, R96). One that PTP has overtaken ends
FAILED, PTP_TIME (log entry 84). -/
def State.applySetTime (s : State) (six fine : Nat) : State :=
  match s.tb.setSecs with
  | none => s
  | some secs =>
    if s.ptpTime then (s.modTb fun t => { t with setSecs := none }).failOp keyTBS codeSTATE 0x02
    else
      let s := s.stepTime (((secs * psPerSecond : Nat) : Int) - (s.timePs six fine : Int))
      let s := s.modTb fun t => { t with setSecs := none, todSet := true }
      s.doneOp keyTBS

/-- A PPS_IN edge is the start of a second of the count that SET_TIME set: the nearest one (R71, R75). -/
def State.ppsSecond (s : State) (six fine : Nat) : State :=
  let t : Int := (s.timePs six fine : Int) + s.tb.pendStep.getD 0
  let near : Int := (2 * t + psPerSecond) / (2 * psPerSecond) * psPerSecond
  if !s.tb.todSet ∨ s.ptpTime ∨ near = t then s else s.stepTime (s.tb.pendStep.getD 0 + near - t)

/-- STATUS of a benchmark (R81). -/
def benchStatus (valid locked stepped loaded : Bool) : Nat :=
  boolNat valid + 2 * boolNat locked + 4 * boolNat stepped + 8 * boolNat loaded

/-- The payload of a BENCHMARK record (R81). -/
def benchPayload (ps src status : Nat) (y : Int) (uncertainty : Nat) (utc step : Int) : List Byte :=
  leBytes (ps / psPerSecond / 2 ^ 32) 2 ++ leBytes src 1 ++ leBytes status 1 ++ leBytes (unsignedOf 32 y) 4 ++ leBytes uncertainty 4 ++
    leBytes (unsignedOf 16 utc) 2 ++ leBytes 0 2 ++ leBytes (unsignedOf 64 step) 8 ++ leBytes 0 8

/-- BENCHMARK: at every SIX that is a multiple of 40,960,000 (R80), with the frequency offset measured against the
frequency source and the estimated error; the offset is 0 while no reference is present, in HOLDOVER too (R620). PTP times of an exchange in progress take the step. -/
def execBenchmark (y : Int) (uncertainty : Nat) (s : State) : Res :=
  if !s.tb.running then .next s
  else
    let six := s.tb.nextBench
    let s := s.advanceTo six
    let s := if s.rb keyTBS Reg.TBS_STATE.PPS_PRESENT then s else s.applySetTime six 0
    let src := s.rf keyTBS Reg.TBS_STATE.FREQ_SRC
    let y := if src = 0 ∨ src = 4 then 0 else y
    let step := s.tb.pendStep.getD 0
    let t := ((s.timePs six 0 : Nat) : Int) + step
    let status := benchStatus (s.rb keyTBS Reg.TBS_STATE.TIME_VALID)
      (decide (s.rf keyTBS Reg.TBS_STATE.TB_STATE = 2)) s.tb.pendStep.isSome s.tb.sixLoaded
    let s := s.emit (.benchmark six t.toNat src status y uncertainty s.tb.utc step)
    let payload := benchPayload t.toNat src status y uncertainty s.tb.utc step
    .next (s.modTb fun b =>
      { b with benchSix := six, benchPs := t.toNat, freqOff := y,
               benches := { six := six, ps := t.toNat, freqOff := y, payload := payload } :: b.benches, nextBench := sixAdd six sixPerMs, pendStep := none,
               ptpT2 := b.ptpT2.map fun x => ((x : Int) + step).toNat, ptpT3 := b.ptpT3.map fun x => ((x : Int) + step).toNat,
               sixLoaded := false })

/-- Reading TBS_SIX0 latches SIX into TBS_SIX1 and TBS_SIX2 (R79). -/
def State.latchSix (s : State) : State := s.setSix3 keyTBS 0x130 s.six

/-- TBS_SIX_READ: a read of TBS_SIX0 (R79). -/
def execTbsSixRead (s : State) : Res := .next s.latchSix

/-- A PTP exchange that is complete gives the offset from the master; while PTP is locked it is the time of day (R71, R73, R82). -/
def State.ptpOffset (s : State) (t1 t2 t3 t4 : Nat) : State :=
  let delay : Int := (((t2 : Int) - t1) + ((t4 : Int) - t3)) / 2
  let offset : Int := ((t2 : Int) - t1) - delay
  let s := s.modTb fun t => { t with ptpT1 := none, ptpT2 := none, ptpT3 := none }
  if s.ptpTime ∧ (offset ≠ 0 ∨ !s.rb keyTBS Reg.TBS_STATE.TIME_VALID) then s.stepTime (-offset) else s

/-- Send a Delay_Req, whose start of frame leaves at (SIX, FINE) as the timestamp unit measures it (R73, R74). -/
def State.ptpRequest (s : State) (port : Nat) (egress : Nat × Nat) : State :=
  let s := s.advanceTo egress.1
  let t := s.timePs egress.1 egress.2
  let n := (s.tb.ptpReq + 1) % 65536
  (s.emit (.ptpDelayReq port n t)).modTb fun b => { b with ptpT3 := some t, ptpReq := n }

/-- An Announce with a data set (R73): the master renews it, and a clock with a better data set than the master's, or any when there is
none, becomes the master. A lower number is the better data set, and three intervals without an Announce lose the master (log entry 85). -/
def State.ptpAnnounce (s : State) (source dataset intervalMs : Nat) (utc : Int) : State :=
  let until_ : Int := s.elapsed s.six + (3 * intervalMs * sixPerMs : Nat)
  let take (t : TimeBase) : TimeBase := { t with ptpMaster := some (source, dataset, until_), utc := utc }
  match s.tb.ptpMaster with
  | some m =>
    if m.1 = source then s.modTb take
    else if dataset < m.2.1 then s.modTb fun t => { take t with ptpT1 := none, ptpT2 := none, ptpT3 := none }
    else s
  | none => s.modTb take

/-- The message is from the module's master. -/
def State.fromMaster (s : State) (source : Nat) : Bool :=
  match s.tb.ptpMaster with | some m => decide (m.1 = source) | none => false

/-- PTP_MESSAGE: a message received on an Ethernet port at (SIX, FINE), with the sender's port identity, sequence number and timestamp, and
the instant at which a Delay_Req that it calls for leaves. A message of another port, domain, transport or master, or while PTP is off, is
not the clock's; a Follow_Up belongs to its Sync, and a Delay_Resp to the module's own request (R73, R74). -/
def execPtpMessage (port domain transport : Nat) (kind : PtpMsg) (masterPs six fine : Nat) (s : State) : Res :=
  if !(s.rb keyTBS Reg.TBS_CFG.PTP_EN && decide (port = s.rf keyTBS Reg.TBS_PTP_CFG.PORT) &&
       decide (domain = s.rf keyTBS Reg.TBS_PTP_CFG.DOMAIN) &&
       decide (transport = s.rf keyTBS Reg.TBS_PTP_CFG.TRANSPORT)) then .next s
  else
    let s := (s.advanceTo six).ptpLapse
    let source := kind.source
    match kind.kind with
    | .announce utc dataset intervalMs => .next (s.ptpAnnounce source dataset intervalMs utc)
    | .syncOneStep =>
      if !s.fromMaster source then .next s
      else .next ((s.modTb fun t => { t with ptpSync := kind.seq, ptpT1 := some masterPs, ptpT2 := some (s.timePs six fine) }).ptpRequest port kind.egress)
    | .syncTwoStep =>
      if !s.fromMaster source then .next s
      else .next (s.modTb fun t => { t with ptpSync := kind.seq, ptpT1 := none, ptpT2 := some (s.timePs six fine), ptpT3 := none })
    | .followUp =>
      if !s.fromMaster source || decide (kind.seq ≠ s.tb.ptpSync) || s.tb.ptpT2.isNone then .next s
      else .next ((s.modTb fun t => { t with ptpT1 := some masterPs }).ptpRequest port kind.egress)
    | .delayResp requester =>
      match s.tb.ptpT1, s.tb.ptpT2, s.tb.ptpT3 with
      | some t1, some t2, some t3 =>
        if s.fromMaster source && decide (requester = Config.ptpIdentity port) && decide (kind.seq = s.tb.ptpReq) then
          .next (s.ptpOffset t1 t2 t3 masterPs)
        else .next s
      | _, _, _ => .next s

/-- PPS_IN_EDGE: a PPS_IN edge held high for 100 ns marks the start of a second (R75, R602): a pending SET_TIME
applies, an edge within 1 s ± 1 ms of the last valid one counts towards presence (3 edges), and once SET_TIME has set the seconds it
corrects the mapping. -/
def execPpsInEdge (six fine highNs : Nat) (s : State) : Res :=
  if highNs < 100 ∨ ¬ s.rb keyTBS Reg.TBS_CFG.PPS_IN_EN then .next s
  else
    let s := s.advanceTo six
    let ok : Bool :=
      match s.tb.ppsLast with
      | some e => within (s.elapsed six - e).toNat (1000 * sixPerMs) sixPerMs
      | none => true
    let good := if ok then s.tb.ppsGood + 1 else 1
    let s := s.modTb fun t => { t with ppsGood := good, ppsLast := some (s.elapsed six) }
    let s := if 3 ≤ good then s.wb keyTBS Reg.TBS_STATE.PPS_PRESENT true else s
    .next (if s.tb.setSecs.isSome then s.applySetTime six fine else if ok then s.ppsSecond six fine else s)

/-- REFOUT's frequency (R75). -/
def State.refoutHz (s : State) : Nat := if s.rb keyTBS Reg.TBS_CFG.REFOUT_SEL then 100000000 else 10000000

/-- REFOUT's period in tenths of an SCLK period, from TBCLK of 256 periods (R75). -/
def State.refoutPeriod (s : State) : Nat := 10 * 256 * 160000000 / s.refoutHz

/-- PPS_OUT_EDGE: PPS_OUT rises within ±2 ns of a second boundary of absolute time and falls 100 µs later (R75). -/
def execPpsOutEdge (six : Nat) (s : State) : Res :=
  let p := s.timePs six 0 % psPerSecond
  if s.tb.ppsOut then
    if within p 100000000 2000 then
      .next (((s.advanceTo six).modTb fun t => { t with ppsOut := false }).emit (.ppsOut six false))
    else .next s
  else if p ≤ 2000 ∨ psPerSecond ≤ p + 2000 then
    .next (((s.advanceTo six).modTb fun t => { t with ppsOut := true }).emit (.ppsOut six true))
  else .next s

/-- SET_TIME on the TBS page: rejected while PTP is the time-of-day source; else it waits for the next PPS_IN edge or
benchmark (R71, R96). -/
def execSetTime (who : Issuer) (tag : Nat) (s : State) : Res :=
  .next (s.command who keyTBS 0x0102 tag fun s op =>
    if s.ptpTime then s.rejectOp keyTBS op codeSTATE 0x02
    else (s.accept keyTBS op).modTb fun t => { t with setSecs := some (op.a0 + op.a1 % 65536 * 2 ^ 32) })

/-! ### SYNCIN and SYNCOUT (R84, R86-R89). -/

/-- Capture an edge: TBS_SYNC_EDGE takes its SIX and FINE, and REPEAT will forward it 64 TBCLK cycles later (R84, R89). -/
def State.captureEdge (s : State) (o : SyncOp) (six fine : Nat) : State :=
  let s := (s.setSix3 keyTBS 0x144 six).wf keyTBS Reg.TBS_SYNC_EDGE2.FINE fine
  if o.syncout = 1 then s.modTb fun t => { t with repeatAt := t.repeatAt ++ [sixAdd six (64 * 256)] } else s

/-- SYNCIN_EDGE: an edge of a polarity at (SIX, FINE), held for 2 ns (R602). It is captured by ARM_SYNC, compared in
CHECK mode, counted as ignored, or of the other polarity and without effect (R86, R87). -/
def execSyncinEdge (six fine : Nat) (falling : Bool) (heldNs : Nat) (s : State) : Res :=
  if heldNs < 2 then .next s
  else
    let s := s.advanceTo six
    match s.tb.sync with
    | some o =>
      if o.falling ≠ falling then .next s
      else if o.isNow || o.edge.isSome then .next (s.count keyTBS Reg.TBS_SYNC_STAT.IGNORED)
      else
        match o.first with
        | none =>
          let s := s.captureEdge o six fine
          .next (s.modTb fun t => { t with sync := some { o with first := some (s.elapsed six), edge := some (six, fine) } })
        | some e0 =>
          let s := s.captureEdge o six fine
          if (s.elapsed six - e0) % 256 = 0 then .next s
          else .next ((s.count keyTBS Reg.TBS_SYNC_STAT.SLIPS).setErr keyTBS errSYNC_SLIP)
    | none =>
      if s.rb keyTBS Reg.TBS_SYNC_CFG.EDGE = falling then .next (s.count keyTBS Reg.TBS_SYNC_STAT.IGNORED) else .next s

/-- ARM_SYNC_TIMEOUT: no edge within TBS_SYNC_TIMEOUT ends ARM_SYNC FAILED, TIMEOUT, NO_EDGE (R88). -/
def execArmSyncTimeout (s : State) : Res :=
  match s.tb.sync with
  | some o =>
    if o.isNow || o.first.isSome then .next s
    else .next ((s.advanceTo o.deadline).syncOff.failOp keyTBS codeTIMEOUT 0x03)
  | none => .next s

/-- SYNCOUT_REPEAT: a captured edge is forwarded as one of its polarity 64 TBCLK cycles after capture, while the operation runs (R84,
R89). SYNCOUT is low but for such an edge. -/
def execSyncoutRepeat (s : State) : Res :=
  match s.tb.repeatAt with
  | [] => .next s
  | at0 :: rest =>
    let s := (s.advanceTo at0).modTb fun t => { t with repeatAt := rest }
    match s.tb.sync with
    | some o => .next (s.emit (.syncout at0 o.falling))
    | none => .next s

end Sys2Proof.Machine
end

