-- ==== Sys2Proof/Machine/Tasks.lean ====
section
/-! DEFINITION. Task descriptors and the queries every block makes about tasks: fields of the command entry (R272,
R274, R279-R283), the chain and input settings a task asks for (R275), and which tasks hold which resources. -/

namespace Sys2Proof.Machine

/-! ### Little-endian fields of a byte list (R5). -/

/-- Byte `i`. -/
def byteAt (b : List Byte) (i : Nat) : Nat := (b.getD i 0).toNat

/-- Little-endian field of `n` bytes at an offset. -/
def leAt (b : List Byte) (off : Nat) : Nat → Nat
  | 0 => 0
  | n + 1 => byteAt b off + 256 * leAt b (off + 1) n

def u16At (b : List Byte) (off : Nat) : Nat := leAt b off 2
def u32At (b : List Byte) (off : Nat) : Nat := leAt b off 4
def u64At (b : List Byte) (off : Nat) : Nat := leAt b off 8

/-! ### Fields of the task descriptor (R274). -/

def dTYPE (d : List Byte) : Nat := byteAt d 0x20
def dPRIORITY (d : List Byte) : Nat := byteAt d 0x21
def dEVICTABLE (d : List Byte) : Bool := nbit (u16At d 0x22) 0
def dPINNED (d : List Byte) : Bool := nbit (u16At d 0x22) 1
def dCHANNEL (d : List Byte) : Nat := byteAt d 0x24
def dPIN_PIPE (d : List Byte) : Nat := byteAt d 0x25
def dATTEN (d : List Byte) : Nat := byteAt d 0x26
def dZONE (d : List Byte) : Nat := byteAt d 0x27
def dSTART (d : List Byte) : Nat := u64At d 0x28 + byteAt d 0x30 * 2 ^ 64
def dDECIM (d : List Byte) : Nat := byteAt d 0x31
def dGAIN (d : List Byte) : Nat := byteAt d 0x32
def dRESP (d : List Byte) : Nat := u32At d 0x34
def dFTW (d : List Byte) : Nat := u64At d 0x38
def dDURATION (d : List Byte) : Nat := u64At d 0x40
def dDEST (d : List Byte) : Nat := byteAt d 0x48
def dCOMPRESS (d : List Byte) : Bool := nbit (byteAt d 0x49) 0
def dENCRYPT (d : List Byte) : Bool := nbit (byteAt d 0x49) 1
def dPORT_CRC (d : List Byte) : Bool := nbit (byteAt d 0x49) 2
def dCOMP_LEVEL (d : List Byte) : Nat := byteAt d 0x4A
def dKEY_SLOT (d : List Byte) : Nat := byteAt d 0x4B
def dDEST_SET (d : List Byte) : Nat := u32At d 0x4C
def dDEST_ID (d : List Byte) : Nat := u16At d 0x50
def dSTREAM_MBPS (d : List Byte) : Nat := u32At d 0x54
def dHISTORY_MS (d : List Byte) : Nat := u32At d 0x58
def dINPUT_TASK (d : List Byte) : Nat := u32At d 0x5C
def dEXT_ADDR (d : List Byte) : Nat := u64At d 0x60
def dEXT_BYTES (d : List Byte) : Nat := u32At d 0x68

/-! Type bodies (R279-R283). -/

def dTRIGGER (d : List Byte) : Nat := if dTYPE d = 2 then u32At d 0x84 else 0
def dSOURCE (d : List Byte) : Nat := u32At d 0x80
def dUSES (d : List Byte) : Nat := byteAt d 0x70
def dSRC_KIND (d : List Byte) : Nat := byteAt d 0x70
def dPACE (d : List Byte) : Nat := byteAt d 0x71
def dSRC_ID (d : List Byte) : Nat := u16At d 0x72
def dSRC_DRIVES (d : List Byte) : Nat := u32At d 0x74
def dFROM_SEQ (d : List Byte) : Nat := u64At d 0x88
def dGRT_TASK (d : List Byte) : Nat := u32At d 0x70
def dTRACE_TASK (d : List Byte) : Nat := u32At d 0x74
def dCONVERTERS (d : List Byte) : Nat := byteAt d 0x70 % 32
def dHOLD_MS (d : List Byte) : Nat := u32At d 0x74

/-- Bits of a set given as a number, below `n`, in ascending order. -/
def bitsSet (m n : Nat) : List Nat := (List.range n).filter (nbit m)

/-! ### Tasks. -/

/-- Change Phoin. -/
def State.modPhn (s : State) (f : Phoin → Phoin) : State := { s with phn := f s.phn }

/-- The task in a slot. -/
def State.taskAt (s : State) (slot : Nat) : Option Task := mfind s.phn.tasks slot

/-- The task of an ID: its slot must hold that generation (R284). -/
def State.task (s : State) (id : Nat) : Option Task :=
  match s.taskAt (id % 4096) with
  | some t => if t.id = id then some t else none
  | none => none

/-- Store a task in its slot. -/
def State.setTask (s : State) (t : Task) : State := s.modPhn fun p => { p with tasks := mput p.tasks (t.id % 4096) t }

/-- Change the task of an ID. -/
def State.modTask (s : State) (id : Nat) (f : Task → Task) : State :=
  match s.task id with
  | some t => s.setTask (f t)
  | none => s

/-- The task is resident: it is not terminal (R284). -/
def TaskState.live : TaskState → Bool
  | .placed | .running | .suspended | .migrating => true
  | _ => false

/-- The task holds its pipelines: PLACED, RUNNING or MIGRATING. -/
def TaskState.holding : TaskState → Bool
  | .placed | .running | .migrating => true
  | _ => false

/-- Resident tasks in slot order. -/
def State.liveTasks (s : State) : List Task := (s.phn.tasks.map (·.2)).filter (·.st.live)

/-- Tasks whose grants are in force. -/
def State.holdingTasks (s : State) : List Task := (s.phn.tasks.map (·.2)).filter (·.st.holding)

/-- The input of a channel (R18, R21): CH0-CH3 and the bonded CH0B, CH2B. -/
def channelInput (ch : Nat) : Option Nat :=
  if ch < 4 then some ch else if ch = 4 then some 0 else if ch = 5 then some 2 else none

/-- Bonded channels (R21). -/
def channelBonded (ch : Nat) : Bool := decide (ch = 4 ∨ ch = 5)

/-- Inputs a channel keeps busy: a bonded channel also makes its neighbour unavailable (R21). -/
def channelInputs (ch : Nat) : List Nat :=
  if ch < 4 then [ch] else if ch = 4 then [0, 1] else if ch = 5 then [2, 3] else []

/-- Converters of a channel (R18, R21). -/
def channelConvs (ch : Nat) : List Nat := channelInputs ch

/-- The channel a task analyses: a co-placed IQ_RECORD takes its trigger task's (R280). -/
def State.taskChannel (s : State) (t : Task) : Nat :=
  if dTYPE t.desc = 2 ∧ u32At t.desc 0x84 ≠ 0 then
    match s.task (u32At t.desc 0x84) with
    | some m => dCHANNEL m.desc
    | none => dCHANNEL t.desc
  else dCHANNEL t.desc

/-- Tasks that hold the input (R622). -/
def State.inputTasks (s : State) (n : Nat) : List Task :=
  s.holdingTasks.filter fun t => (channelInputs (s.taskChannel t)).contains n

/-- A task on the input is MIGRATING (R126). -/
def State.inputMigrating (s : State) (n : Nat) : Bool := (s.inputTasks n).any fun t => decide (t.st = .migrating)

/-- Tasks on a pipeline. -/
def State.pipeTasks (s : State) (p : Nat) : List Task := s.holdingTasks.filter fun t => t.pipes.contains p

/-- A task holds indices or epochs of the present numbering (R85). -/
def State.tasksHoldIndices (s : State) : Bool :=
  s.liveTasks.any fun _ => true

end Sys2Proof.Machine
end

