-- ==== Sys2Proof/Machine/Crc.lean ====
section
/-! DEFINITION. Check values: CRC-32C and the polynomials of R505, over byte lists. -/

namespace Sys2Proof.Machine

/-- One bit of a reflected CRC. -/
def crcBit (poly c : Nat) : Nat := if c % 2 = 1 then Nat.xor (c / 2) poly else c / 2

/-- One byte of a reflected CRC. -/
def crcByte (poly c : Nat) (b : Byte) : Nat :=
  let f := crcBit poly
  f (f (f (f (f (f (f (f (Nat.xor c b.toNat))))))))

/-- A reflected CRC register after some bytes. -/
def crcRun (poly c : Nat) : List Byte → Nat
  | [] => c
  | b :: bs => crcRun poly (crcByte poly c b) bs

/-- The reversed polynomial of CRC-32C, 0x1EDC_6F41 (R258, R505). -/
def polyC : Nat := 0x82F63B78
/-- The reversed polynomial of CRC-32 of IEEE 802.3, 0x04C1_1DB7 (R505). -/
def polyE : Nat := 0xEDB88320

/-- CRC-32C with an initial register and final XOR 0xFFFF_FFFF (R258, R272, R342). -/
def crc32cFrom (init : Nat) (bs : List Byte) : Nat := Nat.xor (crcRun polyC init bs) 0xFFFFFFFF

/-- CRC-32C with initial value 0xFFFF_FFFF. -/
def crc32c (bs : List Byte) : Nat := crc32cFrom 0xFFFFFFFF bs

end Sys2Proof.Machine
end

