-- ==== Sys2Proof/Machine/CoreBase.lean ====
section
/-! DEFINITION. Measurement cores: states and registers (R515, R539), results that land (R521), and their release (R537). -/

namespace Sys2Proof.Machine

/-! ### Cores and their registers (R515). -/

/-- A core at reset. -/
def Core.init : Core :=
  { regs := [], lands := [], xfer := none, sw := false, bufs := [], cycHi := 0, crcHeld := false, fabLo := 0, fabHi := 0, fabLine := none,
    fabWait := false, steps := none, stop := none, before := 0 }

/-- Core `n`. -/
def State.core (s : State) (n : Nat) : Core := mget (fun _ => Core.init) s.cores n

/-- Change a core. -/
def State.modCore (s : State) (n : Nat) (f : Core → Core) : State := { s with cores := mput s.cores n (f (s.core n)) }

/-- Core states (R539). -/
def mcIDLE : Nat := 0
def mcRUNNING : Nat := 1
def mcWAITING : Nat := 2
def mcHALTED : Nat := 3
def mcSUSPENDED : Nat := 4
def mcFAULT : Nat := 5

def State.mcState (s : State) (n : Nat) : Nat := s.rf (keyMC n) Reg.MC_STAT.CORE_STATE
def State.mcEnter (s : State) (n st : Nat) : State := s.wf (keyMC n) Reg.MC_STAT.CORE_STATE st

/-- MC_PC. -/
def State.mcPc (s : State) (n : Nat) : Nat := s.rf (keyMC n) Reg.MC_PC.PC
def State.setPc (s : State) (n pc : Nat) : State := s.wf (keyMC n) Reg.MC_PC.PC pc

def subILLEGAL : Nat := 0x01
def subADDRESS : Nat := 0x02
def subFABRIC : Nat := 0x03

def regLC : Nat := 44
def regLS : Nat := 45
def regLE : Nat := 46
def regST : Nat := 47
def regSPC : Nat := 48
def regSST : Nat := 49
def regLR : Nat := 50

/-- Accumulator numbers. -/
def isAcc (r : Nat) : Bool := decide (8 ≤ r) && decide (r < 12)

/-- Width of a register (R515); ST keeps bits 9:0. -/
def coreWidth (r : Nat) : Nat :=
  if r < 8 then 32 else if r < 12 then 40 else if r < 45 then 16 else if r < 47 then 13 else if r = 47 then 10
  else if r = 49 then 32 else 13

/-- Value of a register. -/
def Core.reg (c : Core) (r : Nat) : Nat := mget (fun _ => 0) c.regs r

/-- A register takes a value of its own width; a pending MAC result for it is no longer forwarded to the next MAC. -/
def Core.put (c : Core) (r v : Nat) : Core :=
  { c with regs := mput c.regs r (v % 2 ^ coreWidth r),
           lands := c.lands.map fun w => if w.reg = r ∧ w.mac then { w with fwd := false } else w }

/-- The value that a 32-bit word becomes in a register: sign-extended in an accumulator (R515). -/
def wordFor (r v : Nat) : Nat := if isAcc r then unsignedOf 40 (signedOf 32 (v % 2 ^ 32)) else v % 2 ^ 32

/-- Results that land as the bundle after them ends: LD after one bundle, MAC after two; older bundles first (R521, R522). -/
def Core.land (c : Core) : Core :=
  let aged := c.lands.map fun w => { w with age := w.age + 1 }
  let due (w : CoreWrite) := decide ((if w.mac then 2 else 1) ≤ w.age)
  let c := { c with lands := aged.filter fun w => !due w }
  let now := (aged.filter fun w => due w && w.mac) ++ (aged.filter fun w => due w && !w.mac)
  now.foldl (fun c w =>
    { c with regs := mput c.regs w.reg (w.value % 2 ^ coreWidth w.reg),
             lands := c.lands.map fun x => if x.reg = w.reg ∧ x.mac ∧ w.age < x.age then { x with fwd := false } else x }) c

/-- Every result lands. -/
def Core.landAll (c : Core) : Core := ((c.land).land).land

/-- Sections of an image: memory, address, data (R534). -/
def sectionsOf (b : List Byte) : Nat → List (Nat × Nat × List Byte)
  | 0 => []
  | n + 1 =>
    let len := u32At b 4
    (byteAt b 0, u16At b 2, (b.drop 8).take len) :: sectionsOf (b.drop (8 + len)) n

/-- The image keeps R534. -/
def imageOk (b : List Byte) : Bool :=
  let secs := sectionsOf (b.drop 32) (u16At b 6)
  let units (x : Nat × Nat × List Byte) := if x.1 = 2 then x.2.2.length / 8 else x.2.2.length / 4
  let range (x : Nat × Nat × List Byte) := (x.1 * 0x10000 + x.2.1, units x)
  let meets (a c : Nat × Nat) : Bool := decide (a.1 < c.1 + c.2) && decide (c.1 < a.1 + a.2)
  let total := secs.foldl (fun n x => n + 8 + x.2.2.length) 32
  decide (u32At b 0 = 0x4C4D4349 ∧ u16At b 4 = 1 ∧ 1 ≤ u16At b 6 ∧ u16At b 6 ≤ 64 ∧ u16At b 8 + 2 * u16At b 10 ≤ 0x4000 ∧
      8 ≤ u16At b 10 ∧ u16At b 10 ≤ 8192 ∧ u16At b 12 + u16At b 14 ≤ 0x4000 ∧ 1 ≤ u16At b 14 ∧ u16At b 14 ≤ 1024) &&
    decide (u32At b 0x10 = crc32c (b.drop 32)) && decide (total = b.length) &&
    secs.all (fun x => decide (x.1 ≤ 2) && decide (x.2.2.length % (if x.1 = 2 then 8 else 4) = 0) &&
      decide (x.2.1 + units x ≤ (if x.1 = 2 then 0x2000 else 0x4000))) &&
    (List.range secs.length).all fun i => (secs.drop (i + 1)).all fun y =>
      match secs[i]? with | some x => !meets (range x) (range y) | none => true

/-- Halt and release the cores of a task (R537). -/
def State.coresRelease (s : State) (t : Task) : State :=
  match mfind s.measures (t.id % 4096) with
  | none => s
  | some m =>
    s.each m.cores fun s n =>
      if (s.reg (keyMC n) 0x114).toNat = t.id then
        let s := if s.mcState n = mcRUNNING ∨ s.mcState n = mcWAITING ∨ s.mcState n = mcSUSPENDED then
            ((s.modCore n fun c => { c.landAll with stop := none, steps := none, fabWait := false }).mcEnter n mcHALTED).irqBit (keyMC n) 17
          else s
        (s.setReg (keyMC n) 0x114 0).modCore n fun c => { c with crcHeld := false }
      else s

end Sys2Proof.Machine
end

