-- ==== Sys2Proof/Machine/PhoinRings.lean ====
section
/-! DEFINITION. Phoin's rings (R266-R273, R288, R289, R296): ring 0 commands, ring 1 completions and notifications,
the header of a command entry, and placement epochs. -/

namespace Sys2Proof.Machine

/-! ### The header of a command entry (R272). -/

def cOPCODE (e : List Byte) : Nat := byteAt e 0x00
def cVERSION (e : List Byte) : Nat := byteAt e 0x01
def cREPORT (e : List Byte) : Bool := nbit (u16At e 0x02) 0
def cCHAIN (e : List Byte) : Bool := nbit (u16At e 0x02) 1
def cNO_EVICT (e : List Byte) : Bool := nbit (u16At e 0x02) 2
def cTAG (e : List Byte) : Nat := u32At e 0x04
def cTASK (e : List Byte) : Nat := u32At e 0x08
def cREPORT_ADDR (e : List Byte) : Nat := u64At e 0x10
def cREPORT_BYTES (e : List Byte) : Nat := u32At e 0x18
def cCHECK (e : List Byte) : Nat := u32At e 0xFC

/-- A non-zero CHECK that does not match (R272, R273). -/
def cBadCheck (e : List Byte) : Bool := decide (cCHECK e ≠ 0) && decide (cCHECK e ≠ crc32c (e.take 0xFC))

def opSUBMIT : Nat := 0x01
def opMODIFY : Nat := 0x02
def opTSUSPEND : Nat := 0x03
def opTRESUME : Nat := 0x04
def opTCANCEL : Nat := 0x05
def opTQUERY : Nat := 0x06
def opPLAN : Nat := 0x07
def opPIN : Nat := 0x08
def opUNPIN : Nat := 0x09
def opRESERVE : Nat := 0x0A
def opRELEASE : Nat := 0x0B
def opREBALANCE : Nat := 0x0C

/-! ### Sub-reasons of R288. -/

def subUNKNOWN_TASK : Nat := 0x01
def subFIELD : Nat := 0x02
def subEXT_READ : Nat := 0x03
def subEXT_ITEM : Nat := 0x04
def subNO_SLOT : Nat := 0x05
def subCONFLICT : Nat := 0x06
def subCO_PLACE : Nat := 0x07
def subPINNED : Nat := 0x08
def subNOT_PINNED : Nat := 0x09
def subVARIANT : Nat := 0x0A
def subREPORT_SHORT : Nat := 0x0B
def subPAGE_KEY : Nat := 0x0C

def causeSTARTED : Nat := 1
def causeMIGRATION_BEGIN : Nat := 2
def causeMIGRATED : Nat := 3
def causeEVICTED : Nat := 4
def causeNO_RESOURCE : Nat := 5
def causeRESUMED : Nat := 6
def causeDONE : Nat := 7
def causeFAILED : Nat := 8
def causeUNPINNED : Nat := 9
def causeSTALE_BEGIN : Nat := 10
def causeSTALE_END : Nat := 11

/-! ### Epochs and counts. -/

/-- PHN_EPOCH counts placement changes, modulo 2^32 (R296). -/
def State.bumpEpoch (s : State) : State := s.wrapBy keyPHN Reg.PHN_EPOCH 1

/-- PHN_STAT.TASKS and CHAIN follow the tasks. -/
def State.refreshPhn (s : State) : State :=
  (s.wf keyPHN Reg.PHN_STAT.TASKS s.liveTasks.length).wb keyPHN Reg.PHN_STAT.CHAIN s.phn.chain.isSome

/-- FW_ACTIVATE is in progress (R573). -/
def State.activating (s : State) : Bool := match (s.page keySEC).op with | some op => decide (op.opcode = 0x0101) | none => false

/-- Rings 0 and 1 are open. -/
def State.ringsOpen (s : State) : Bool := s.rb keyPHN Reg.PHN_STAT.RINGS

/-- Entries of ring 0 and of ring 1, as OPEN_RINGS has loaded them. -/
def State.ring0Len (s : State) : Nat := s.phn.len0
def State.ring1Len (s : State) : Nat := s.phn.len1

/-- Counts modulo 2^32. -/
def cnt32 (a b : Nat) : Nat := (a + 2 ^ 32 - b % 2 ^ 32) % 2 ^ 32

/-- Ring 1 has a free entry. -/
def State.ring1Free (s : State) : Bool := s.ringsOpen && decide (cnt32 s.phn.prod1 s.phn.cons1 < s.ring1Len)

/-- Ring 1 has an entry for a notification, beside the one kept for the completion of a command that waits (R268). -/
def State.noticeFree (s : State) : Bool :=
  s.ringsOpen && decide (cnt32 s.phn.prod1 s.phn.cons1 + boolNat s.phn.held.isSome < s.ring1Len)

/-! ### Ring 1 (R288). -/

/-- The fields of a ring 1 entry. -/
structure Ring1 where
  kind : Nat
  opcode : Nat
  phase : Nat
  code : Nat
  tag : Nat
  task : Nat
  state : Nat
  sub : Nat
  cause : Nat
  six : Nat
  report : Nat
  resource : Nat
  detail0 : Nat
  detail1 : Nat
  deriving DecidableEq, Repr

/-- The 64 bytes of a ring 1 entry. -/
def State.ring1Bytes (s : State) (r : Ring1) : List Byte :=
  let b := leBytes r.kind 1 ++ leBytes r.opcode 1 ++ leBytes r.phase 1 ++ leBytes r.code 1 ++ leBytes r.tag 4 ++
    leBytes r.task 4 ++ leBytes r.state 1 ++ leBytes r.sub 1 ++ leBytes r.cause 1 ++ leBytes 0 1 ++ leBytes r.six 8 ++
    leBytes (r.six / 2 ^ 64 % 256) 1 ++ leBytes 0 3 ++ leBytes r.report 4 ++ leBytes r.resource 2 ++ leBytes 0 2 ++
    leBytes (s.rf keyPHN Reg.PHN_EPOCH) 4 ++ leBytes r.detail0 8 ++ leBytes r.detail1 8 ++
    leBytes (s.reg keyPHN 0x100).toNat 4
  b ++ leBytes (crc32c b) 4

/-- Write a ring 1 entry; MSI-X vector 1 follows (R269). -/
def State.putRing1 (s : State) (r : Ring1) : State :=
  let s := s.emit (.ring1 (s.phn.prod1 % s.ring1Len) (s.ring1Bytes r))
  (s.modPhn fun p => { p with prod1 := (p.prod1 + 1) % 2 ^ 32 }).sendMsix 1

/-- Notices wait in slot order. -/
def noticeKey (task : Nat) : Nat := task % 4096 * 2 ^ 20 + task / 4096 % 2 ^ 20

/-- Write a notification, or keep it as its task's latest and count the one it replaces (R289). -/
def State.putNotice (s : State) (n : Notice) : State :=
  match mfind s.phn.notices (noticeKey n.task) with
  | some old =>
    (s.modPhn fun p => { p with notices := mput p.notices (noticeKey n.task) { n with count := old.count + 1 } }).count
      keyPHN Reg.PHN_COALESCED
  | none =>
    if s.noticeFree then
      s.putRing1 { kind := 2, opcode := 0, phase := 0, code := 0, tag := 0, task := n.task, state := n.st, sub := 0,
                   cause := n.cause, six := n.six, report := 0, resource := 0xFFFF, detail0 := n.detail0, detail1 := n.count }
    else s.modPhn fun p => { p with notices := mput p.notices (noticeKey n.task) n }

/-- Write waiting notifications in slot order while ring 1 has space (R289). -/
def State.flushList (s : State) : List (Nat × Notice) → State
  | [] => s
  | (k, n) :: rest =>
    if s.noticeFree then State.flushList ((s.modPhn fun p => { p with notices := mdel p.notices k }).putNotice n) rest else s

/-- NOTIFY_FLUSH (R289). -/
def State.flushNotices (s : State) : State := s.flushList s.phn.notices

/-- Notify a task's event at an index; while a command is evaluated, after its completion (R268). -/
def State.notify (s : State) (task cause six detail0 : Nat) : State :=
  let st := match s.task task with | some t => t.st.code | none => 0
  let n : Notice := { task := task, st := st, cause := cause, six := six, detail0 := detail0, count := 0 }
  if s.phn.evaluating then s.modPhn fun p => { p with later := p.later ++ [n] } else s.putNotice n

/-! ### Completions. -/

/-- How a command ends. -/
structure Answer where
  phase : Nat
  code : Nat
  sub : Nat
  task : Nat
  report : Nat
  resource : Nat
  detail0 : Nat
  deriving DecidableEq, Repr

/-- DONE, OK. -/
def Answer.done (task : Nat) : Answer :=
  { phase := phaseDONE, code := codeOK, sub := 0, task := task, report := 0, resource := 0xFFFF, detail0 := 0 }

/-- REJECTED with a code, a sub-reason and DETAIL0. -/
def Answer.rejected (task code sub detail0 : Nat) : Answer :=
  { phase := phaseREJECTED, code := code, sub := sub, task := task, report := 0, resource := 0xFFFF, detail0 := detail0 }

/-- Write the completion of a command evaluated at an index, then the notifications it caused (R268, R288). -/
def State.completeAt (s : State) (opcode tag six : Nat) (a : Answer) : State :=
  let st := match s.task a.task with | some t => t.st.code | none => if a.phase = phaseREJECTED then TaskState.rejected.code else 0
  let s := s.count keyPHN Reg.PHN_CMDS
  let s := if a.phase = phaseREJECTED then s.count keyPHN Reg.PHN_REJECTS else s
  let s := s.refreshPhn
  let s := s.putRing1
    { kind := 1, opcode := opcode, phase := a.phase, code := a.code, tag := tag, task := a.task,
      state := if a.task = 0 then 0 else st, sub := a.sub, cause := 0, six := six, report := a.report, resource := a.resource, detail0 := a.detail0,
      detail1 := 0 }
  let later := s.phn.later
  (s.modPhn fun p => { p with evaluating := false, later := [] }).each later State.putNotice

/-- Write the completion of a command evaluated now. -/
def State.complete (s : State) (opcode tag : Nat) (a : Answer) : State := s.completeAt opcode tag s.six a

/-- Phoin may evaluate the command at the head of ring 0: the module is READY, the rings are open, a command is there, ring 1 has room for
its completion, no earlier command waits and admissions are not held (R268, R270, R567, R595). -/
def State.mayEvaluate (s : State) : Bool :=
  s.ready && s.ringsOpen && decide (s.phn.cons0 ≠ s.phn.prod0) && s.ring1Free && s.phn.held.isNone && !s.rb keyPHN Reg.PHN_STAT.HOLD &&
    decide ((s.page keyPHN).st ≠ .off)

/-- Phoin takes the command at the head of ring 0 and evaluates it; any command but PLAN discards an open chain (R268, R291). -/
def State.takeHead (s : State) (code : Nat) : State :=
  s.modPhn fun p => { p with cons0 := (p.cons0 + 2) % 2 ^ 32, evaluating := true, later := [],
                             chain := if code = opPLAN then p.chain else none }

/-- Evaluate the command at the head of ring 0: CHECK, opcode and version come first (R272, R273). A command of another opcode than the entry's is not the one at the head. -/
def State.evaluate (s : State) (opcode : Nat) (e : List Byte) (k : State → State × Option Answer) : State :=
  let code := cOPCODE e
  let known := decide (1 ≤ code ∧ code ≤ 0x0C)
  if !s.mayEvaluate || (known && decide (code ≠ opcode)) then s
  else
    let s := s.takeHead code
    if cBadCheck e then s.complete code (cTAG e) (.rejected 0 codeINTEGRITY 0 0)
    else if !known then s.complete code (cTAG e) (.rejected 0 codeUNSUPPORTED 0 0)
    else if cVERSION e ≠ 1 then s.complete code (cTAG e) (.rejected 0 codeRANGE subFIELD 0x01)
    else if cREPORT e ∧ cREPORT_ADDR e % 64 ≠ 0 then s.complete code (cTAG e) (.rejected 0 codeRANGE subFIELD 0x10)
    else
      match k s with
      | (s, some a) => s.complete code (cTAG e) a
      | (s, none) => s

/-- Evaluate a command on a resident task: an ID whose slot holds another generation is unknown, and a terminal task
accepts only QUERY (R284, R287). -/
def State.evaluateTask (s : State) (opcode : Nat) (e : List Byte) (k : State → Task → State × Option Answer) : State :=
  s.evaluate opcode e fun s =>
    match s.task (cTASK e) with
    | none => (s, some (.rejected (cTASK e) codeRANGE subUNKNOWN_TASK 0))
    | some t => if !t.st.live && decide (opcode ≠ opTQUERY) then (s, some (.rejected t.id codeSTATE 0 0)) else k s t

/-! ### Rings (R266, R267, R271, R296). -/

/-- Close rings 0 and 1 (R271, R296). -/
def State.closePhoin (s : State) : State :=
  if s.ringsOpen then ((s.wb keyPHN Reg.PHN_STAT.RINGS false).modPhn fun p => { p with held := none, evaluating := false, later := [] }).irqBit keyPHN 16
  else s

/-- Rings 0 and 1 close of themselves: a CLOSE_RINGS that waited for the command under evaluation has what it asked for (R271, R296). -/
def State.closeRings (s : State) : State :=
  let s := s.closePhoin
  match (s.page keyPHN).op with
  | some op => if op.opcode = 0x0101 then s.doneOp keyPHN else s
  | none => s

/-- PHN_DOORBELL: the count of ring 0 entries produced; an odd count, one that moves backward or one more than the ring
ahead of Phoin is ignored with the advisory DOORBELL. A read of ring 0 that fails closes both rings (R267, R296). -/
def execPhnDoorbell (count : BitVec 64) (readOk : Bool) (s : State) : Res :=
  let c := count.toNat % 2 ^ 32
  if !s.ringsOpen then .next s
  else if c % 2 = 1 ∨ cnt32 c s.phn.cons0 < cnt32 s.phn.prod0 s.phn.cons0 ∨ s.ring0Len < cnt32 c s.phn.cons0 then
    .next (s.setErr keyPHN 16)
  else
    let s := s.modPhn fun p => { p with prod0 := c }
    .next (if readOk then s else (s.setErr keyPHN 17).closeRings)

/-- PHN_CQ_DOORBELL: the count of ring 1 entries consumed; waiting notifications take the space that returns (R267, R289). -/
def execPhnCqDoorbell (count : BitVec 64) (s : State) : Res :=
  let c := count.toNat % 2 ^ 32
  if !s.ringsOpen then .next s
  else if cnt32 s.phn.prod1 s.phn.cons1 < cnt32 c s.phn.cons1 then .next (s.setErr keyPHN 16)
  else .next (s.modPhn fun p => { p with cons1 := c }).flushNotices

/-- A ring base is 4 KiB aligned and its length in range (R296). -/
def State.ringGeometry (s : State) (base len : Nat) : Bool :=
  decide (wget (s.reg keyPHN base) 11 0 = 0) && decide (4 ≤ wget (s.reg keyPHN len) 4 0) && decide (wget (s.reg keyPHN len) 4 0 ≤ 16)

/-- OPEN_RINGS: the contexts of rings 0 and 1 load with all counts zero, and fetching starts (R296). -/
def execOpenRings (who : Issuer) (tag : Nat) (s : State) : Res :=
  .next (s.command who keyPHN 0x0100 tag fun s op =>
    if s.ringsOpen then s.rejectOp keyPHN op codeSTATE 0x02
    else if !s.ringGeometry 0x104 0x10C || !s.ringGeometry 0x110 0x118 then s.rejectOp keyPHN op codeRANGE 0x01
    else
      let s := (s.accept keyPHN op).wb keyPHN Reg.PHN_STAT.RINGS true
      let n0 := 2 ^ s.rf keyPHN Reg.PHN_RING0_LEN.LOG2
      let n1 := 2 ^ s.rf keyPHN Reg.PHN_RING1_LEN.LOG2
      let s := s.modPhn fun p => { p with prod0 := 0, cons0 := 0, prod1 := 0, cons1 := 0, len0 := n0, len1 := n1 }
      s.flushNotices.doneOp keyPHN)

/-- CLOSE_RINGS: fetching stops after the command under evaluation completes; tasks are unaffected (R296). -/
def execCloseRings (who : Issuer) (tag : Nat) (s : State) : Res :=
  .next (s.command who keyPHN 0x0101 tag fun s op =>
    let s := s.accept keyPHN op
    if s.phn.held.isSome then s else s.closePhoin.doneOp keyPHN)

/-- A command that waited for migrations completes; a CLOSE_RINGS that waited for it then closes the rings (R294, R296). -/
def State.completeHeld (s : State) (h : HeldCmd) (a : Answer) : State :=
  let s := (s.modPhn fun p => { p with held := none }).completeAt h.opcode h.tag h.six a
  match (s.page keyPHN).op with
  | some op => if op.opcode = 0x0101 then s.closeRings else s
  | none => s

end Sys2Proof.Machine
end

