-- ==== Sys2Proof/Machine/FrontEnd.lean ====
section
/-! DEFINITION. RF inputs, converters and the spare converter (R98-R131): the AFE's staged configuration, overload
protection, converter lock, test patterns, sample groups, and the rotation of C4. -/

namespace Sys2Proof.Machine

/-! ### Converters. -/

/-- A switched domain is on. -/
def State.domainOn (s : State) (d : Nat) : Bool := nbit (s.rf keyPWR Reg.PWR_DOMAINS.MAP) d

/-- A converter at reset. -/
def Conv.init : Conv :=
  { settleUntil := 0, sets := [], prbs := 0, frames := [], nextFrame := 0, nextLaunch := 0, lost := false, passFrom := 0, cfgs := [],
    align := none }

/-- Variant -G has no C4: its region is the guest die's (R1, R40). -/
def State.noConv (s : State) (c : Nat) : Bool := s.guest && decide (c = 4)

/-- Converter `c`. -/
def State.conv (s : State) (c : Nat) : Conv := mget (fun _ => Conv.init) s.convs c

/-- Change converter `c`. -/
def State.modConv (s : State) (c : Nat) (f : Conv → Conv) : State := { s with convs := mput s.convs c (f (s.conv c)) }

/-- ADC_STAT.LOCKED (R111). -/
def State.convLocked (s : State) (c : Nat) : Bool :=
  s.rb (keyADC c) Reg.ADC_STAT.SCLK_LOCK && s.rb (keyADC c) Reg.ADC_STAT.FRAME_ALIGNED &&
    s.rb (keyADC c) Reg.ADC_STAT.TRIMS_LOADED

/-- Keep ADC_STAT.LOCKED equal to the conjunction of R111. -/
def State.updateLocked (s : State) (c : Nat) : State := s.wb (keyADC c) Reg.ADC_STAT.LOCKED (s.convLocked c)

def convDOWN : Nat := 0
def convCLOCKING : Nat := 1
def convFRAME_ALIGN : Nat := 2
def convSTREAMING : Nat := 3
def convPATTERN : Nat := 4

/-- Enter a converter state. -/
def State.convEnter (s : State) (c n : Nat) : State := s.wf (keyADC c) Reg.ADC_STAT.CONV_STATE n

/-- ADC_CFG as it applies to the sample of an index (R110, R130). -/
def State.adcCfgAt (s : State) (c six : Nat) : Word :=
  match (s.conv c).cfgs.find? fun x => decide (x.1 ≤ six) with
  | some x => x.2
  | none => s.reg (keyADC c) 0x100

/-- Write ADC_CFG; the new word applies to samples from the next frame boundary (R110, R130). -/
def State.setAdcCfg (s : State) (c : Nat) (w : Word) : State :=
  let old := s.adcCfgAt c s.six
  let b := ceilTo 32 s.six
  (s.setReg (keyADC c) 0x100 w).modConv c fun v =>
    { v with cfgs := (b, w) :: (if v.cfgs.isEmpty then [(0, old)] else (v.cfgs.filter fun x => decide (x.1 ≠ b)).take 8) }

/-- Write one field of ADC_CFG. -/
def State.setAdcField (s : State) (c : Nat) (f : RegField) (v : Nat) : State :=
  s.setAdcCfg c (wset (s.reg (keyADC c) 0x100) f.hi f.lo v)

/-- Test pattern of the sample at an index: 0 none, 1 RAMP, 2 PRBS. -/
def State.patternAt (s : State) (c six : Nat) : Nat :=
  wget (s.adcCfgAt c six) Reg.ADC_CFG.PATTERN.hi Reg.ADC_CFG.PATTERN.lo

/-- When the sample labelled `six` is taken, as SIX and FINE: ALIGN_SHIFT samples later, and half a period later with PHASE 1 (R105,
R118). -/
def State.sampleInstant (s : State) (c six : Nat) : Nat × Nat :=
  let w := s.adcCfgAt c six
  (six + wget w Reg.ADC_CFG.ALIGN_SHIFT.hi Reg.ADC_CFG.ALIGN_SHIFT.lo,
    if wbit w Reg.ADC_CFG.PHASE.lo then 32768 else 0)

/-- The sub-ADC that takes the sample labelled `six` (R105). -/
def subAdcOf (six : Nat) : Nat := six % 64

/-- The state of a converter; PATTERN set to OFF ends PATTERN at the next frame boundary (R111). -/
def State.convState (s : State) (c : Nat) : Nat :=
  let n := s.rf (keyADC c) Reg.ADC_STAT.CONV_STATE
  if n = convPATTERN ∧ s.patternAt c s.six = 0 then convSTREAMING else n

/-- Frames stop: SCLK lock or frame alignment is gone (R111). -/
def State.convDown (s : State) (c n : Nat) : State :=
  let s := s.convEnter c n
  let s := s.wb (keyADC c) Reg.ADC_STAT.FRAME_ALIGNED false
  let s := if n ≤ convCLOCKING then s.wb (keyADC c) Reg.ADC_STAT.SCLK_LOCK false else s
  s.updateLocked c

/-- The input a converter samples, when it samples one (R99). -/
def State.inputOf (s : State) (c : Nat) : Option Nat :=
  let i := s.rf (keyAFE c) Reg.AFE_STAT.INPUT
  if c = 4 then
    let sel := s.af (keyAFE 4) Reg.AFE_SPARE.SEL
    if i = 0 ∧ sel ≠ 0 then some (sel - 1) else none
  else if i = 0 then some c
  else if i = 1 then some (c - 1)
  else none

/-- Every converter that samples an input (R102). -/
def State.samplers (s : State) (input : Nat) : List Nat := (List.range 5).filter fun c => decide (s.inputOf c = some input)

/-- Apply input, zone and attenuation at a converter from an index: samples carry SETTLING for 8,192 samples after a
change of ATTEN alone and for 81,920 after a change of ZONE, INPUT or the spare selection (R101). -/
def State.afeSet (s : State) (c input zone atten six : Nat) (selChanged : Bool) : State :=
  let k := keyAFE c
  let wide := decide (s.rf k Reg.AFE_STAT.INPUT ≠ input) || decide (s.rf k Reg.AFE_STAT.ZONE ≠ zone) || selChanged
  let att := decide (s.rf k Reg.AFE_STAT.ATTEN ≠ atten)
  if !wide && !att then s
  else
    let until_ := sixAdd six (if wide then 81920 else 8192)
    let old := (s.rf k Reg.AFE_STAT.ZONE, s.rf k Reg.AFE_STAT.ATTEN)
    let s := s.wf k Reg.AFE_STAT.INPUT input
    let s := s.wf k Reg.AFE_STAT.ZONE zone
    let s := s.wf k Reg.AFE_STAT.ATTEN atten
    let s := s.wb k Reg.AFE_STAT.SETTLED false
    let s := s.setSix3 k 0x114 six
    let s := s.modPage k fun p => { p with settling := true }
    s.modConv c fun v =>
      { v with settleUntil := max v.settleUntil until_,
               sets := ({ from0 := six, settleEnd := until_, zone := zone, atten := atten } ::
                 (if v.sets.isEmpty then [{ from0 := 0, settleEnd := 0, zone := old.1, atten := old.2 }] else v.sets)).take 64 }

/-- The spare selection in force on C4. -/
def State.spareSel (s : State) : Nat := s.af (keyAFE 4) Reg.AFE_SPARE.SEL

/-- Set C4's spare selection as applied and staged. -/
def State.setSpareSel (s : State) (sel : Nat) : State :=
  (s.waf (keyAFE 4) Reg.AFE_SPARE.SEL sel).wf (keyAFE 4) Reg.AFE_SPARE.SEL sel

/-- The converter bonded to `c` as EVEN and ODD pair, when it is one (R112). -/
def State.bondPartner (s : State) (c : Nat) : Option Nat :=
  if 4 ≤ c ∨ s.rf (keyADC c) Reg.ADC_CFG.BOND_ROLE = 0 then none
  else some (if c % 2 = 0 then c + 1 else c - 1)

/-- The input that the main converter `c` samples when it is on one: its own, or its neighbour's as ODD of a pair (R112). -/
def State.mainInput (s : State) (c : Nat) : Nat := if s.rf (keyADC c) Reg.ADC_CFG.BOND_ROLE = 2 then 1 else 0

/-- That input's number. -/
def State.pathOf (s : State) (c : Nat) : Nat := c - s.mainInput c

/-- A survey has the front end of the converter: it measures the calibration tone (R325). -/
def State.toneHeld (s : State) (c : Nat) : Bool :=
  match s.svy.run with
  | some r => decide (r.conv = c) && decide (s.rf (keyAFE c) Reg.AFE_STAT.INPUT = 2)
  | none => false

/-- A committed configuration ends the protective setting (R104). -/
def State.protectEnds (s : State) (c : Nat) : State := s.wb (keyAFE c) Reg.AFE_STAT.PROTECTED false

/-- Apply the AFE words of a commit at its index (R101). The module's own change of attenuation and zone reaches every
converter that samples the input, but not a converter that a survey has on the calibration tone (R102); an even converter's reaches its
odd partner, whose own ATTEN and ZONE are ignored (R113). -/
def State.afeApply (s : State) (c : Nat) (a : PendApply) : State :=
  let k := keyAFE c
  let input := a.field k Reg.AFE_CFG.INPUT
  let zone := a.field k Reg.AFE_CFG.ZONE
  let atten := a.field k Reg.AFE_CFG.ATTEN
  let odd : Bool := decide (s.rf (keyADC c) Reg.ADC_CFG.BOND_ROLE = 2)
  let sel' := a.field k Reg.AFE_SPARE.SEL
  let selChanged := decide (c = 4) && decide (sel' ≠ s.spareSel)
  let s := s.applyWords k a.words
  let zone := if odd then s.rf k Reg.AFE_STAT.ZONE else zone
  let atten := if odd then s.rf k Reg.AFE_STAT.ATTEN else atten
  let held := !a.byOp && s.toneHeld c
  let s := if held then s else ((s.afeSet c input zone atten a.due selChanged).protectEnds c).setSix3 k 0x114 a.due
  let others :=
    (if a.byOp ∨ c = 4 then [] else s.samplers (s.pathOf c)) ++
      (if odd then [] else (s.bondPartner c).toList)
  others.foldl (fun s o =>
    if o = c then s else (s.afeSet o (s.rf (keyAFE o) Reg.AFE_STAT.INPUT) zone atten a.due false).protectEnds o) s

/-- The checks of an AFE commit: while LOCK is 1, the staged ATTEN must reach AFE_ATTEN_MIN (R103). -/
def State.afeCheck (s : State) (c : Nat) : Option (Nat × Nat) :=
  if (s.page (keyAFE c)).lock ∧ s.rf (keyAFE c) Reg.AFE_CFG.ATTEN < s.rf (keyAFE c) Reg.AFE_ATTEN_MIN.MIN then
    some (codeRANGE, 0x03)
  else none

/-- The common COMMIT on the AFE page: the first frame boundary at least 40,960 samples after acceptance (R101). -/
def State.commitAFE (s : State) (key : Nat) (op : Op) : State :=
  match s.afeCheck (instanceOf key) with
  | some (c, sub) => s.rejectOp key op c sub
  | none =>
    if s.stagedDiffers key || s.rb key Reg.AFE_STAT.PROTECTED then
      (s.accept key op).setPend key (ceilTo 32 (s.six + 40960)) true
    else (s.accept key op).doneOp key

/-- AFE_COMMIT_AT: the staged configuration at a given SIX, a multiple of 32 at least 40,960 samples ahead (R131). -/
def execAfeCommitAt (who : Issuer) (conv : Fin 5) (tag : Nat) (s : State) : Res :=
  let key := keyAFE conv
  .next (s.command who key 0x0100 tag fun s op =>
    if op.sixArg < s.six + 40960 then s.rejectOp key op codeRANGE 0x01
    else if op.sixArg % 32 ≠ 0 then s.rejectOp key op codeRANGE 0x02
    else
      match s.afeCheck conv with
      | some (c, sub) => s.rejectOp key op c sub
      | none => (s.accept key op).setPend key op.sixArg true)

/-- AFE_APPLY: the staged AFE configuration applies at its frame boundary (R101). -/
def execAfeApply (conv : Fin 5) (s : State) : Res :=
  let key := keyAFE conv
  match s.pendOf key with
  | none => .next s
  | some a =>
    if a.empty ∧ !s.rb key Reg.AFE_STAT.PROTECTED then .next (((s.advanceTo a.due).clearPend key).endCommit key a.due)
    else
    let s := (s.advanceTo a.due).clearPend key
    .next ((s.afeApply conv a).endCommit key a.due)

/-- AFE_SETTLED: the settle time after an AFE change elapses, and SETTLING ends (R101). -/
def execAfeSettled (conv : Fin 5) (s : State) : Res :=
  let key := keyAFE conv
  if (s.page key).settling then
    let s := s.advanceTo (s.conv conv).settleUntil
    .next ((s.wb key Reg.AFE_STAT.SETTLED true).modPage key fun p => { p with settling := false })
  else .next s

/-- The level is at least 6 dB above full scale at the applied attenuation (R100, R104), in 0.01 dBm. -/
def State.overFullScale (s : State) (c : Nat) (level : Int) : Bool :=
  decide (level ≥ (s.rf (keyAFE c) Reg.AFE_STAT.ATTEN : Int) * 200 + 600)

/-- Something is connected to the detector: on C4 with SEL none, nothing is (R104). -/
def State.detConnected (s : State) (c : Nat) : Bool :=
  !(decide (c = 4) && decide (s.rf (keyAFE 4) Reg.AFE_STAT.INPUT ≠ 2) && decide (s.spareSel = 0))

/-- Overload for 100 ns: OVERLOAD is set; with PROTECT the attenuation of the input steps to 30 dB at the next frame
boundary on every converter that samples it (R102, R104). -/
def State.overloadStep (s : State) (c six : Nat) : State :=
  let s := (s.wb (keyAFE c) Reg.AFE_STAT.OVERLOAD true).setErr (keyAFE c) 16
  if !s.ab (keyAFE c) Reg.AFE_CFG.PROTECT then s
  else
    let b := ceilTo 32 six
    let all := match s.inputOf c with | some n => s.samplers n | none => [c]
    all.foldl (fun s o =>
      let k := keyAFE o
      if s.rb k Reg.AFE_STAT.PROTECTED then s.setErr k 18
      else
        let s := s.afeSet o (s.rf k Reg.AFE_STAT.INPUT) (s.rf k Reg.AFE_STAT.ZONE) 15 b false
        (s.wb k Reg.AFE_STAT.PROTECTED true).setErrLogged k 18) s

/-- OVERLOAD: the detected level (0.01 dBm) stays 6 dB above full scale for 100 ns (R104). -/
def execOverload (conv : Fin 5) (level : Int) (heldNs six : Nat) (s : State) : Res :=
  if s.noConv conv ∨ heldNs < 100 ∨ ¬ s.detConnected conv ∨ ¬ s.overFullScale conv level then .next s
  else .next ((s.advanceTo six).overloadStep conv six)

/-- AFE_DET_UPDATE: AFE_DET is refreshed every 1 µs (R104, R131): 0x8000 below −60 dBm or with nothing connected. The
live OVERLOAD condition follows the level, which has been held for the given time. -/
def execAfeDetUpdate (conv : Fin 5) (level : Int) (heldNs : Nat) (s : State) : Res :=
  let c : Nat := conv
  if s.noConv c then .next s
  else
  let none_ := !s.detConnected c || decide (level < -6000)
  let s := s.wf (keyAFE c) Reg.AFE_DET.LEVEL (if none_ then 0x8000 else unsignedOf 16 level)
  if s.detConnected c && s.overFullScale c level then
    (if 100 ≤ heldNs then .next (s.overloadStep c s.six) else .next s)
  else .next (s.wb (keyAFE c) Reg.AFE_STAT.OVERLOAD false)

/-! ### Trims (R118, R335). -/

/-- Add a skew, in 10 fs steps, to the skew trim of every sub-ADC of a converter (R118, R335). -/
def State.addSkew (s : State) (c : Nat) (d : Int) : State :=
  (List.range 64).foldl (fun s k =>
    let f := Reg.TRM_SUB_B.SKEW k
    s.wf (keyTRM c) f (unsignedOf 13 (signedOf 13 (s.rf (keyTRM c) f) + d))) s

/-- Whole samples of a delay in fs: one sample is 24,414.0625 fs (R76, R118). -/
def delaySamples (fs : Int) : Int := fs * 16 / 390625

/-- The remainder of a delay below one sample, in 10 fs steps (R118). -/
def delaySkew (fs : Int) : Int := (fs - delaySamples fs * 390625 / 16) / 10

/-- The limits of R119: residual delay within ±100 fs, gain difference within ±0.05 dB, correlation at least 0.999
(gain in 0.001 dB, correlation × 10⁶). -/
def alignPasses (delayFs gainMdb : Int) (corrPpm : Nat) : Bool :=
  decide (-100 ≤ delayFs) && decide (delayFs ≤ 100) && decide (-50 ≤ gainMdb) && decide (gainMdb ≤ 50) &&
    decide (999000 ≤ corrPpm)

/-! ### Rotation of the spare converter (R117-R128). -/

def spareIDLE : Nat := 0
def spareALIGNING : Nat := 1
def spareSHADOWING : Nat := 2
def spareCARRYING : Nat := 3
def spareRETURNING : Nat := 4
def spareSTANDING_IN : Nat := 5

/-- ADC_SPARE_STAT.SPARE_STATE. -/
def State.spareState (s : State) : Nat := s.rf (keyADC 4) Reg.ADC_SPARE_STAT.SPARE_STATE

/-- Enter a rotation state. -/
def State.spareEnter (s : State) (n : Nat) : State := s.wf (keyADC 4) Reg.ADC_SPARE_STAT.SPARE_STATE n

/-- Change the rotation. -/
def State.modRot (s : State) (f : Rotation → Rotation) : State := { s with rot := f s.rot }

/-- The converter that carries an input (R18, R120). -/
def State.carrier (s : State) (n : Nat) : Nat := mget id s.carriers n

/-- A filter without stages. -/
def Filt.empty : Filt :=
  { stages := [], resp := 0, older := none, fork := none, ready := [], readyOld := [], emitAt := 0, gainAt := 0, gainOld := 0 }

/-- A chain at reset. -/
def Chain.init : Chain :=
  { main := none, partner := none, inEnd := 0, inMarks := [], zeroAt := 0, nextLabel := 0, settleLeft := 0, wantClean := false,
    cleanSeen := false, est0 := { num := 0, exp := 0 }, est1 := { num := 0, exp := 0 }, dcSets := [], raw := [], tunes := [],
    stage0 := { next := 0, line := [] }, filt := Filt.empty, xfLeft := 0, xfAt := 0, target := none, outMarks := [], outs := [],
    fifo := [], flat := [] }

/-- The chain of pipeline `p`. -/
def State.chain (s : State) (p : Nat) : Chain := mget (fun _ => Chain.init) s.chains p

/-- Change a chain. -/
def State.modChain (s : State) (p : Nat) (f : Chain → Chain) : State :=
  { s with chains := mput s.chains p (f (s.chain p)) }

/-- The converter that feeds a chain (R18, R120). -/
def State.chainSrc (s : State) (p : Nat) : Option Nat := (s.chain p).main.map s.carrier

/-- The converter whose frames the selector of an input passes at an index (R120). -/
def State.carrierAt (s : State) (n six : Nat) : Nat :=
  match mfind s.rot.switched n with
  | some x => if six < x.1 then x.2 else s.carrier n
  | none => s.carrier n

/-- The converter whose frame a chain takes at an index. -/
def State.chainSrcAt (s : State) (p six : Nat) : Option Nat := (s.chain p).main.map fun n => s.carrierAt n six

/-- Keep DDC_STAT.SRC at the converter feeding each chain (R133). -/
def State.refreshSrc (s : State) : State :=
  (List.range 6).foldl (fun s p =>
    s.wf (keyDDC p) Reg.DDC_STAT.SRC (match s.chainSrc p with | some c => c | none => 0xF)) s

/-- From an index on, another converter carries the channel of main converter `n` (R120). -/
def State.setCarrier (s : State) (n c h : Nat) : State :=
  ({ s with carriers := mput s.carriers n c, rot := { s.rot with switched := mput s.rot.switched n (h, s.carrier n) } }).refreshSrc

/-- The input's frames are replaced by zeros marked STALE. -/
def State.isStale (s : State) (n : Nat) : Bool := mget (fun _ => false) s.staleIn n

/-- Mark an input STALE or not; its tasks are told (R317, R334). -/
def State.setStale (s : State) (n : Nat) (b : Bool) : State :=
  if s.isStale n = b then s
  else
    let cause := if b then causeSTALE_BEGIN else causeSTALE_END
    let s : State := { s with staleIn := mput s.staleIn n b }
    s.each ((s.inputTasks n).map (·.id)) fun s id => s.notify id cause s.six 0

/-- A page has been taken by RESERVE. -/
def State.isReserved (s : State) (key : Nat) : Bool := (s.page key).before.isSome

/-- The spare is available: variant -S, C4 LOCKED, IDLE in rotation, not in FAULT, not reserved, and not itself
surveyed (R331). -/
def State.spareAvailable (s : State) : Bool :=
  !s.guest && s.convLocked 4 && decide (s.spareState = spareIDLE) && decide ((s.page (keyADC 4)).st ≠ .fault) &&
    !s.isReserved (keyADC 4) && !s.isReserved (keyAFE 4) &&
    (match s.svy.run with | some r => decide (r.conv ≠ 4) | none => true)

/-- C4 leaves an input, and the second estimates of its chains are discarded (R138). -/
def State.dropEst1 (s : State) : State :=
  (List.range 6).foldl (fun s p =>
    if (s.chain p).main = some s.rot.main then
      (s.modChain p fun c => { c with est1 := { num := 0, exp := 0 } }).wf (keyDDC p) Reg.DDC_DC_EST.EST1 0
    else s) s

/-- The module's setting of C4's front end at an index: the words of its page follow. -/
def State.spareFront (s : State) (input zone atten sel six : Nat) : State :=
  let k := keyAFE 4
  let put (s : State) (f : RegField) (v : Nat) : State := (s.wf k f v).waf k f v
  let s := put (put (put s Reg.AFE_CFG.INPUT input) Reg.AFE_CFG.ZONE zone) Reg.AFE_CFG.ATTEN atten
  (s.setSpareSel sel).afeSet 4 input zone atten six true

/-- C4 leaves rotation: SEL none, INPUT TERM, target none, the calibration tone removed, and its skew is the survey's again (R118, R119,
R123). -/
def State.spareIdle (s : State) (result : Nat) : State :=
  let s := s.dropEst1
  let s := s.spareFront 3 (s.rf (keyAFE 4) Reg.AFE_STAT.ZONE) (s.rf (keyAFE 4) Reg.AFE_STAT.ATTEN) 0 (ceilTo 32 s.six)
  let s := s.addSkew 4 (-s.rot.skew)
  let s := s.modRot fun r => { r with h := none, skew := 0, corrected := false, retried := false, reserved := false, tone := false, waiting := false }
  let s := s.wf (keyADC 4) Reg.ADC_SPARE_STAT.TARGET 0
  let s := s.wf (keyADC 4) Reg.ADC_SPARE_STAT.BOND_SLOT 0
  let s := if result = 0 then s else s.wf (keyADC 4) Reg.ADC_SPARE_STAT.LAST_RESULT result
  s.spareEnter spareIDLE

/-- C4 takes the front end of the main converter of an input and its role in a bonded pair (R102, R116). -/
def State.spareTake (s : State) (main input : Nat) : State :=
  let role := s.rf (keyADC main) Reg.ADC_CFG.BOND_ROLE
  let b := ceilTo 32 s.six
  let s := s.spareFront 0 (s.rf (keyAFE main) Reg.AFE_STAT.ZONE) (s.rf (keyAFE main) Reg.AFE_STAT.ATTEN) (input + 1) b
  let s := s.wf (keyADC 4) Reg.ADC_SPARE_STAT.TARGET (input + 1)
  let s := s.wf (keyADC 4) Reg.ADC_SPARE_STAT.BOND_SLOT role
  let s := s.setAdcField 4 Reg.ADC_CFG.PHASE (boolNat (decide (role = 2)))
  s.modRot fun r =>
    { r with input := input, main := main, h := none, corrected := false, skew := 0, retried := false,
             reserved := false, tone := false, waiting := false, deadline := sixAdd s.six sixPerMs }

/-- Start a rotation onto converter `main`, or queue it while C4 serves another (R123, R127). -/
def State.rotate (s : State) (main : Nat) : State :=
  if s.spareAvailable then
    (s.spareTake main (match s.inputOf main with | some n => n | none => main)).spareEnter spareALIGNING
  else if s.rot.queue.contains main then s
  else s.modRot fun r => { r with queue := r.queue ++ [main] }

/-- C4 leaves rotation, and a rotation that waited begins (R127). -/
def State.spareDone (s : State) (result : Nat) : State :=
  let s := s.spareIdle result
  match s.rot.queue with
  | c :: rest => if s.spareAvailable then (s.modRot fun r => { r with queue := rest }).rotate c else s
  | [] => s

/-- SPARE_ASSIGN: the survey controller assigns C4 to an input, and rotation enters ALIGNING; while C4 is not IDLE the
rotation is queued (R123, R127). Variant -G has no rotation. -/
def execSpareAssign (conv : Fin 4) (s : State) : Res := .next (if s.guest then s else s.rotate conv)

/-- H: the first multiple of 32 at least 65,536 samples after the decision (R120). -/
def handoverIndex (six : Nat) : Nat := ceilTo 32 (six + 65536)

/-- Choose H, unless a task on the channel is MIGRATING: then H is chosen when the migration has released its source
(R120, R126). -/
def State.chooseH (s : State) : State :=
  if s.inputMigrating s.rot.input then s.modRot fun r => { r with waiting := true }
  else s.modRot fun r => { r with h := some (handoverIndex s.six), waiting := false }

/-- A rotation that waited for a migration chooses H (R126). -/
def State.rotWake (s : State) : State := if s.rot.waiting then s.chooseH else s

/-- Fewer than 4,096 frames of a correlation's window carried enough signal: the calibration tone is injected on the spare branch until
handover, and the correlation is made again (R119). -/
def State.needsTone (s : State) (frames : Nat) : Bool := !s.rot.tone && decide (frames < 4096)

/-- ALIGN_CORRELATION_DONE: a correlation of C4 against the main converter completes with the frames of its window that carried enough
signal, its delay (fs), gain difference (0.001 dB) and correlation (× 10⁶). The first sets ALIGN_SHIFT and the skew trims; the next
verifies; a verification that passes enters SHADOWING (R118-R120, R123). -/
def execAlignCorrelationDone (delayFs gainMdb : Int) (corrPpm : Peak) (s : State) : Res :=
  if s.spareState ≠ spareALIGNING then .next s
  else if s.needsTone corrPpm.frames then .next (s.modRot fun r => { r with tone := true })
  else if s.rot.corrected && alignPasses delayFs gainMdb corrPpm.ppm then
    let path := (s.rf (keyADC 4) Reg.ADC_CFG.ALIGN_SHIFT, s.rot.skew)
    .next (((s.modRot fun r => { r with paths := mput r.paths r.input path }).spareEnter spareSHADOWING).chooseH)
  else
    let shift : Int := (s.rf (keyADC 4) Reg.ADC_CFG.ALIGN_SHIFT : Int) + delaySamples delayFs
    let s := if 0 ≤ shift ∧ shift < 32 then s.setAdcField 4 Reg.ADC_CFG.ALIGN_SHIFT shift.toNat else s
    let s := s.addSkew 4 (delaySkew delayFs)
    .next (s.modRot fun r => { r with corrected := true, skew := r.skew + delaySkew delayFs })

/-- The survey in progress is to end other than OK at its present step (R329). -/
def State.surveyFails (s : State) (code sub : Nat) : State :=
  match s.svy.run with
  | some r => if r.fin.isSome then s else { s with svy := { s.svy with run := some { r with fin := some (code, sub, r.step) } } }
  | none => s

/-- ALIGN_TIMEOUT: no verification passes within 1 ms; rotation returns to IDLE with ALIGN_FAIL, and the main
converter is not surveyed (R123, R329). -/
def execAlignTimeout (s : State) : Res :=
  if s.spareState = spareALIGNING then
    let s := (s.advanceTo s.rot.deadline).spareDone 2
    .next ((s.setErr (keyADC 4) 19).surveyFails codeFAULT 0x02)
  else .next s

/-- The HANDOVER log entry: H in DETAIL, the input in SUB, C4's ADC page in PAGE_KEY (R121). -/
def State.logHandover (s : State) (h : Nat) : State :=
  s.logPage (keyADC 4) 0 0 (s.rot.input + 1) 8 (h % 2 ^ 64)

/-- SIX reaches H, and the input selector switches converters (R120, R121): to C4 from SHADOWING and
STANDING_IN, back to the main converter from RETURNING. -/
def State.handover (s : State) : State :=
  match s.rot.h with
  | none => s
  | some h =>
    let s := s.advanceTo h
    let back := decide (s.spareState = spareRETURNING)
    let s := s.setCarrier s.rot.main (if back then s.rot.main else 4) h
    let s := s.setSix3 (keyADC 4) 0x114 h
    let s := (s.irqBit (keyADC 4) 16).logHandover h
    let s := s.modRot fun r => { r with h := none, tone := false }
    if back then s.spareDone (if s.rot.retried then 4 else 1)
    else if s.spareState = spareSHADOWING then
      s.spareEnter (if s.rot.reserved then spareSTANDING_IN else spareCARRYING)
    else s.setStale s.rot.main false

/-- Restore the main converter's trims from before the survey (R122, R124, R329). -/
def State.restoreTrims (s : State) (c : Nat) : State :=
  match mfind s.svy.prevTrims c with
  | some ws => s.modPage (keyTRM c) fun p => { p with regs := ws }
  | none => s

/-- The channel has no converter: zeros marked STALE until one can carry it again (R107). -/
def State.channelStale (s : State) (c : Nat) : State := s.setStale c true

/-- C4 takes the alignment last verified against the input path (R123). -/
def State.lastPath (s : State) : State :=
  let x : Nat × Int := mget (fun _ => (0, 0)) s.rot.paths s.rot.input
  ((s.setAdcField 4 Reg.ADC_CFG.ALIGN_SHIFT x.1).addSkew 4 x.2).modRot fun r => { r with skew := r.skew + x.2 }

/-- Standing in after a fault of main converter `c` (R107, R123): C4 takes the channel at the first frame boundary at
which it has settled, from IDLE, ALIGNING or SHADOWING; it keeps it from CARRYING and RETURNING. -/
def State.standIn (s : State) (c : Nat) : State :=
  let n := s.spareState
  if (n = spareCARRYING ∨ n = spareRETURNING) ∧ s.rot.main = c then
    ((s.modRot fun r => { r with h := none, waiting := false }).spareEnter spareSTANDING_IN).surveyFails codeFAULT 0x07
  else if (n = spareALIGNING ∨ n = spareSHADOWING) ∧ s.rot.main = c then
    let s := if s.rot.corrected then s else s.lastPath
    let h := ceilTo 32 (max s.six (s.conv 4).settleUntil)
    ((s.modRot fun r => { r with h := some h, waiting := false }).spareEnter spareSTANDING_IN).surveyFails codeFAULT 0x07
  else if s.spareAvailable then
    let s := s.spareTake c (match s.inputOf c with | some i => i | none => c)
    let s := s.lastPath
    let h := ceilTo 32 (max s.six (s.conv 4).settleUntil)
    (s.modRot fun r => { r with h := some h }).spareEnter spareSTANDING_IN
  else s.channelStale c

/-- C4 fails (R123, R124): the main converter carries on from ALIGNING and SHADOWING; from CARRYING, RETURNING and
STANDING_IN it comes back on its input with the settings of C4 and the trims from before the survey, when it can, and the channel is
STALE otherwise. -/
def State.spareFails (s : State) : State :=
  let n := s.spareState
  let m := s.rot.main
  let s := s.surveyFails codeFAULT 0x07
  if n = spareIDLE then s
  else if n = spareALIGNING ∨ n = spareSHADOWING then s.spareDone 3
  else
    let ok := s.convLocked m && decide ((s.page (keyADC m)).st ≠ .fault) && !s.isReserved (keyADC m) &&
      !s.isReserved (keyAFE m)
    let b := ceilTo 32 s.six
    let s := (s.setCarrier m m b).restoreTrims m
    let s := if ok then
               (s.afeSet m (s.mainInput m) (s.rf (keyAFE 4) Reg.AFE_STAT.ZONE) (s.rf (keyAFE 4) Reg.AFE_STAT.ATTEN) b
                 false).modConv m fun v => { v with passFrom := ceilTo 32 v.settleUntil }
             else s.channelStale m
    s.spareDone 3

/-- What rotation does when a converter's block enters FAULT (R107, R123, R124). -/
def State.convFault (s : State) (c : Nat) : State :=
  let s := s.convDown c convDOWN
  if c = 4 then s.spareFails else if s.guest then s.channelStale c else s.standIn c

/-- HANDBACK_CHECK: the check of the surveyed main converter against C4 completes (R122): it passes and H is chosen; a
first failure restores the previous trims and checks again; a second puts the main converter in FAULT, and C4 stays. -/
def execHandbackCheck (delayFs gainMdb : Int) (corrPpm : Peak) (s : State) : Res :=
  if s.spareState ≠ spareRETURNING ∨ s.rot.h.isSome ∨ s.rot.waiting then .next s
  else if s.needsTone corrPpm.frames then .next (s.modRot fun r => { r with tone := true })
  else if alignPasses delayFs gainMdb corrPpm.ppm then .next s.chooseH
  else if s.rot.retried then
    let s := s.faultBlock (keyADC s.rot.main) 20
    .next (s.convFault s.rot.main)
  else .next (((s.restoreTrims s.rot.main).modRot fun r => { r with retried := true }).surveyFails codeFAULT 0x05)

/-! ### Converter events (R106-R111). -/

/-- SUBADC_FAULT: sub-ADC `k` fails its self-check; the converter block enters FAULT, and its channel moves to C4 or
goes STALE (R107). -/
def execSubadcFault (conv : Fin 5) (k : Fin 64) (s : State) : Res :=
  let key := keyADC conv
  let off := 0x120 + 4 * (k.val / 32)
  if s.noConv conv then .next s
  else
    let again := decide ((s.page key).st = .fault)
    let s := s.setReg key off (s.reg key off ||| word (2 ^ (k.val % 32)))
    .next (if again then s.setErr key 17 else (s.faultBlock key 17).convFault conv)

/-- SCLK_LOCK: SCLK locks at the converter, which moves from CLOCKING to FRAME_ALIGN (R111). -/
def execSclkLock (conv : Fin 5) (s : State) : Res :=
  if s.convState conv = convCLOCKING ∧ !s.noConv conv then
    .next (((s.convEnter conv convFRAME_ALIGN).wb (keyADC conv) Reg.ADC_STAT.SCLK_LOCK true).updateLocked conv)
  else .next s

/-- SCLK_LOCK_LOST: the converter drops from STREAMING or PATTERN to CLOCKING, and frames stop (R111). -/
def execSclkLockLost (conv : Fin 5) (s : State) : Res :=
  if (s.convState conv = convSTREAMING ∨ s.convState conv = convPATTERN) ∧ !s.noConv conv then .next (s.convDown conv convCLOCKING)
  else .next s

/-- Frame alignment is set by link bring-up or a new ALIGN flit (R111, R385). -/
def State.frameAligned (s : State) (c first : Nat) : State :=
  if s.convState c = convFRAME_ALIGN then
    let st := if s.patternAt c s.six = 0 then convSTREAMING else convPATTERN
    let s := ((s.convEnter c st).wb (keyADC c) Reg.ADC_STAT.FRAME_ALIGNED true).updateLocked c
    s.modConv c fun v => { v with frames := [], nextFrame := first, nextLaunch := first, lost := false }
  else s

/-- ADC_CFG_WRITE: test pattern, bond role, phase and alignment shift from the next frame boundary (R110, R130). A
field out of range keeps its value and sets PG_ERR.RANGE: ODD on C0 or C2, and a pattern while the page is not owned
by HOST. -/
def execAdcCfgWrite (who : Issuer) (conv : Fin 5) (value : BitVec 32) (s : State) : Res :=
  let key := keyADC conv
  let c : Nat := conv
  .next (s.write who key 0x100 value.toNat fun s =>
    let pat := wget value 12 10
    let role := wget value 9 8
    let badPat := decide (2 < pat) || (decide (pat ≠ 0) && decide ((s.page key).owner ≠ .host))
    let badRole := decide (role = 3) || (decide (role = 2) && (decide (c = 0) || decide (c = 2)))
    let old := s.reg key 0x100
    let w := wset (wset old 7 7 (wget value 7 7)) 4 0 (wget value 4 0)
    let w := if badPat then w else wset w 12 10 pat
    let w := if badRole then w else wset w 9 8 role
    let streaming := decide (s.convState c = convSTREAMING)
    let s := s.setAdcCfg c w
    let s := if badPat || badRole then s.setErr key errRANGE else s
    if streaming ∧ s.rf key Reg.ADC_CFG.PATTERN ≠ 0 then s.convEnter c convPATTERN else s)

/-- ADC_TEMP_UPDATE: the converter temperature (1/16 °C, two's complement) is refreshed every 1 ms: TEMP_HIGH above
95 °C, and TEMP_STEP when it has moved 5 °C since the last committed survey, the one whose trims are in force after start-up, which makes
the converter due (R130, R330). -/
def execAdcTempUpdate (conv : Fin 5) (temp : BitVec 16) (s : State) : Res :=
  let c : Nat := conv
  if s.noConv c then .next s
  else
  let s := s.wf (keyADC c) Reg.ADC_TEMP.TEMP temp.toNat
  let s := if temp.toInt > 1520 then s.setErr (keyADC c) 18 else s
  let d : Int := temp.toInt - signedOf 16 ((s.reg keySVY (0x150 + 4 * c)).toNat % 65536)
  let surveyed := (mfind s.svy.doneAt c).isSome || decide (s.rf (keyTRM c) Reg.TRM_STAT.SURVEY ≠ 0)
  if surveyed && (decide (80 ≤ d) || decide (d ≤ -80)) then
    let due := s.rf keySVY Reg.SVY_QUEUE.DUE
    .next ((s.wf keySVY Reg.SVY_QUEUE.DUE (putBit due c true)).irqBit (keyADC c) 17)
  else .next s

/-! ### Sample groups (R108-R110). -/

/-- Two 12-bit codes in three bytes (R108). -/
def packPair (a b : Nat) : List Byte :=
  [BitVec.ofNat 8 a, BitVec.ofNat 8 (a / 256 % 16 + b % 16 * 16), BitVec.ofNat 8 (b / 16)]

/-- Pack 12-bit codes, least significant bit first (R108). -/
def packCodes : List Nat → List Byte
  | a :: b :: rest => packPair (a % 4096) (b % 4096) ++ packCodes rest
  | _ => []

/-- The RAMP pattern's code at an index: (SIX mod 4,096) − 2,048, as 12 bits (R110). -/
def rampCode (six : Nat) : Nat := (six % 4096 + 2048) % 4096

/-- The codes a converter sends from an index: the sampled ones, or the test pattern of the frame (R110). The PRBS pattern's codes
are free values: the spec gives the sequence's length and step, not its polynomial (log entry 21). -/
def State.launchCodes (s : State) (c six : Nat) (codes : List Nat) : List Nat :=
  (List.range codes.length).map fun i =>
    match s.patternAt c (six + i) with
    | 0 => nth 0 codes i % 4096
    | 1 => rampCode (six + i)
    | _ => Config.freeNat ((s.conv c).prbs + i) % 4096

/-- Split codes into frames of 32 with rising frame numbers (R108). -/
def toFrames (f : Nat) (codes : List Nat) : List (Nat × List Nat) :=
  (List.range 5).map fun i => (f + i, (codes.drop (32 * i)).take 32)

/-- The BXE page of a converter's end of its link (R10). -/
def convEnd (c : Nat) : Nat := keyOf (3 + c) 0x3F0

/-- The four SMP flits of a sample group (R109, R376). -/
def groupFlits (group : List Byte) : List Flit :=
  (List.range 4).map fun i => { vc := 0, sop := decide (i = 0), eop := decide (i = 3), body := (group.drop (60 * i)).take 60 }

/-- SAMPLE_GROUP_LAUNCH: a converter launches the sample group 5f to 5f + 4, with the 160 codes it sampled at the instants of R105, as
four SMP flits, 4 FCLK after the last sample (R108, R109). A converter that is not streaming sends none. -/
def execSampleGroupLaunch (conv : Fin 5) (codes : List Nat) (s : State) : Res :=
  let c : Nat := conv
  if (s.convState c ≠ convSTREAMING ∧ s.convState c ≠ convPATTERN) ∨ s.noConv c then .next s
  else
    let f := (s.conv c).nextLaunch
    let s := s.advanceTo (32 * (f + 5) + 128)
    let cs := s.launchCodes c (32 * f) codes
    let s := s.modConv c fun v =>
      { v with frames := v.frames ++ toFrames f cs, nextLaunch := f + 5, prbs := v.prbs + codes.length }
    let s := s.modLink (convEnd c) fun l => { l with smp := l.smp ++ groupFlits (packCodes cs) }
    .next (s.emit (.sampleGroup c f (s.sampleInstant c (32 * f)) (packCodes cs)))

/-! ### ALIGN on the ADC page (R130). -/

/-- The analysis region a converter feeds: C4 feeds that of the input it is assigned to (R18, R22). -/
def State.feeds (s : State) (c : Nat) : Option Nat :=
  if c < 4 then some (c / 2)
  else if s.spareState = spareIDLE then none else some (s.rot.input / 2)

/-- The correlation of an ALIGN in progress ends: its result is reported, and with ARG1[0] the shift and the skew trims apply (R119,
R130). -/
def State.alignDone (s : State) (c : Nat) : State :=
  let key := keyADC c
  match (s.conv c).align, (s.page key).op with
  | some a, some op =>
    let s := s.modConv c fun v => { v with align := none }
    if a.corrPpm < 500000 then s.doneWith key [0, 0, 0, word a.corrPpm, 0]
    else
      let pass := decide (a.shift = 0) && alignPasses a.fracFs a.gainMdb a.corrPpm
      let r := [word (unsignedOf 32 a.shift), word (unsignedOf 32 a.fracFs), word (unsignedOf 32 a.gainMdb), word a.corrPpm,
                word (boolNat pass)]
      let new : Int := (s.rf key Reg.ADC_CFG.ALIGN_SHIFT : Int) + a.shift
      if op.a1 % 2 = 0 then s.doneWith key r
      else if new < 0 ∨ 31 < new then (s.doneWith key r).setErr key 19
      else ((s.setAdcField c Reg.ADC_CFG.ALIGN_SHIFT new.toNat).addSkew c (a.fracFs / 10)).doneWith key r
  | some _, none => s.modConv c fun v => { v with align := none }
  | none, _ => s

/-- ALIGN: correlates this converter against the reference converter ARG0[2:0] (R119, R130). The correlation measured is
a whole-sample shift, a fraction in fs, a gain difference in 0.001 dB and a peak × 10⁶, which says too whether it ends before the next
command. -/
def execAlign (who : Issuer) (conv : Fin 5) (tag : Nat) (shift fracFs gainMdb : Int) (corrPpm : AlignPeak) (s : State) : Res :=
  let key := keyADC conv
  let c : Nat := conv
  .next (s.command who key 0x0100 tag fun s op =>
    let ref := op.a0 % 8
    if ref = c then s.rejectOp key op codeRANGE 0x01
    else if 4 < ref then s.rejectOp key op codeRANGE 0
    else if s.feeds ref ≠ s.feeds c ∨ s.feeds c = none then s.rejectOp key op codeRANGE 0x02
    else if !s.convLocked c || !s.convLocked ref then s.rejectOp key op codeSTATE 0x03
    else
      let s := (s.accept key op).modConv c fun v =>
        { v with align := some { shift := shift, fracFs := fracFs, gainMdb := gainMdb, corrPpm := corrPpm.ppm } }
      if corrPpm.now then s.alignDone c else s)

end Sys2Proof.Machine
end

