-- ==== Sys2Proof/Machine/Pipe.lean ====
section
/-! DEFINITION. What the blocks of a pipeline share: chain parameters (R133, R134, R142, R145), gangs (R133), latencies
(R217), marks (R135, R238), and access to chains, engines, graticules and triggers. -/

namespace Sys2Proof.Machine

/-! ### Marks (R238). -/

def markSETTLING : Nat := 1
def markSTALE : Nat := 2
def markSATURATED : Nat := 4
def markGAP : Nat := 8
def markMIGRATED : Nat := 16
def markEPOCH_END : Nat := 32

/-- A set of marks holds a mark. -/
def hasMark (m bit : Nat) : Bool := decide (m &&& bit ≠ 0)

/-- Legend flags of MARK bits (R256). -/
def marksToFlags (m : Nat) : Nat :=
  (m &&& 1) ||| (m &&& 2) ||| (if hasMark m markSATURATED then 128 else 0) |||
    (if hasMark m markGAP then 64 else 0) ||| (if hasMark m markMIGRATED then 4 else 0)

/-- Marks of the runs that meet [first, last]. -/
def marksIn (runs : List MarkRun) (first last : Nat) : Nat :=
  runs.foldl (fun m r => if r.first ≤ last ∧ first ≤ r.last then m ||| r.marks else m) 0

/-- Append a run; one that continues the last run with equal marks extends it. -/
def addRun (runs : List MarkRun) (step first last marks : Nat) : List MarkRun :=
  if marks = 0 then runs
  else
    match runs.getLast? with
    | some r =>
      if r.marks = marks ∧ first ≤ r.last + step then runs.dropLast ++ [{ r with last := last }]
      else runs ++ [{ first := first, last := last, marks := marks }]
    | none => [{ first := first, last := last, marks := marks }]

/-- Drop runs that ended before an index. -/
def dropRuns (runs : List MarkRun) (before : Nat) : List MarkRun := runs.filter fun r => decide (before ≤ r.last)

/-! ### Chains. -/

/-- The chain runs a bonded channel (R133). -/
def State.bonded (s : State) (p : Nat) : Bool := s.rb (keyDDC p) Reg.DDC_STAT.BONDED

/-- The pipeline is the second of a bonded gang (R133). -/
def State.gangedSecond (s : State) (p : Nat) : Bool := s.rb (keyDDC p) Reg.DDC_STAT.GANGED_SECOND

/-- The pipeline whose pages govern `p`: the first of its gang (R133). -/
def State.governor (s : State) (p : Nat) : Nat :=
  if s.gangedSecond p then (match (s.chain p).partner with | some q => q | none => p) else p

/-- The engine runs beside one that has the outputs: it is of a migration in progress, and no task on its pipeline uses its spectra
(R312). -/
def State.shadowing (s : State) (p : Nat) : Bool :=
  match s.phn.mig with
  | some m => (m.source ++ m.target).contains p &&
      (s.pipeTasks p).all fun t => decide (dTYPE t.desc ≠ 1) && !t.maps.any fun x => decide (x.res = 0x100)
  | none => false

/-- PG_STAT.STALE and SETTLING of a block follow the marks of its outputs (R41). -/
def State.showMarks (s : State) (key marks : Nat) : State :=
  if (s.page key).stale = hasMark marks markSTALE ∧ (s.page key).settling = hasMark marks markSETTLING then s
  else s.modPage key fun p => { p with stale := hasMark marks markSTALE, settling := hasMark marks markSETTLING }

/-- The index is H of the migration that made the pipeline its target (R313). -/
def State.handedAt (s : State) (p six : Nat) : Bool := decide (mfind s.phn.handed p = some six)

/-- A block is ACTIVE. -/
def State.isActive (s : State) (key : Nat) : Bool := decide ((s.page key).st = .active)

/-- Applied DECIM. -/
def State.decim (s : State) (p : Nat) : Nat := s.af (keyDDC p) Reg.DDC_CFG.DECIM

/-- Label period P in SIX (R133). -/
def State.labelP (s : State) (p : Nat) : Nat :=
  if s.bonded p then 2 ^ s.decim p else 2 ^ (s.decim p + 1)

/-- Taps and group delay in stage input samples of a response (R142). -/
def respTaps (r : Nat) : Nat := if r = 1 then 191 else 95
def respDelay (r : Nat) : Nat := if r = 1 then 95 else if r = 2 then 9 else 47

/-- Response of stage k in DDC_RESP: stage 0 is STANDARD (R142). -/
def stageResp (w : Word) (k : Nat) : Nat := if k = 0 then 0 else wget w (2 * k - 1) (2 * k - 2)

/-- Input sample period of stage k in half SCLK periods (R142). -/
def stageHalf (bonded : Bool) (k : Nat) : Nat := if bonded then 2 ^ k else 2 ^ (k + 1)

/-- Label delay in half SCLK periods (R134). -/
def chainDelay (bonded : Bool) (decim : Nat) (resp : Word) : Nat :=
  ((List.range (decim + 1)).map fun k => respDelay (stageResp resp k) * stageHalf bonded k).sum

/-- Total impulse length L in half SCLK periods (R145). -/
def chainLength (bonded : Bool) (decim : Nat) (resp : Word) : Nat :=
  ((List.range (decim + 1)).map fun k => (respTaps (stageResp resp k) - 1) * stageHalf bonded k).sum

/-- Quotient rounded up. -/
def ceilDiv (n m : Nat) : Nat := (n + m - 1) / m

/-- Applied responses. -/
def State.resp (s : State) (p : Nat) : Word := s.areg (keyDDC p) Reg.DDC_RESP.RESP1.off

/-- Label delay of the applied set, in half periods. -/
def State.delayHalf (s : State) (p : Nat) : Nat := chainDelay (s.bonded p) (s.decim p) (s.resp p)

/-- L of the applied set, in half periods. -/
def State.lengthHalf (s : State) (p : Nat) : Nat := chainLength (s.bonded p) (s.decim p) (s.resp p)

/-- D of the applied set (R145). -/
def State.settleD (s : State) (p : Nat) : Nat := ceilDiv (s.lengthHalf p) (2 * s.labelP p)

/-- Output rate of the chain in units of 312.5 kS/s (R133). -/
def State.rateUnits (s : State) (p : Nat) : Nat := (if s.bonded p then 131072 else 65536) / 2 ^ s.decim p

/-! ### The engine's parameters. -/

/-- An engine at reset. -/
def Engine.init : Engine :=
  { nextStart := 0, old := [], held := none, group := none, record := none, wantClean := false }

/-- The engine of pipeline `p`. -/
def State.engine (s : State) (p : Nat) : Engine := mget (fun _ => Engine.init) s.engines p

/-- Change an engine. -/
def State.modEngine (s : State) (p : Nat) (f : Engine → Engine) : State :=
  { s with engines := mput s.engines p (f (s.engine p)) }

/-- Applied N and H (R157). -/
def State.fftN (s : State) (p : Nat) : Nat := 2 ^ s.af (keyFFT p) Reg.FFT_CFG.SIZE_LOG2
def State.fftH (s : State) (p : Nat) : Nat := s.af (keyFFT p) Reg.FFT_HOP.HOP

/-- The smallest m for which `rate / 2^m ≤ limit`. -/
def thinExp (limit : Nat) : Nat → Nat → Nat
  | 0, _ => 0
  | fuel + 1, rate => if rate ≤ limit then 0 else 1 + thinExp limit fuel ((rate + 1) / 2)

/-- N × 2^DECIM⁻¹ / H exceeds 4: the thinning exponent of R161, from N / (H × 2^(DECIM + 2)). -/
def State.fftThin (s : State) (p : Nat) : Nat := thinExp (s.fftH p * 2 ^ (s.decim p + 2)) 32 (s.fftN p)

/-- E of R217 in SIX. -/
def State.latencyE (s : State) (p : Nat) : Nat :=
  ceilDiv (s.delayHalf p - (if s.bonded p then 47 else 94)) 2 + 64 * s.decim p

/-- λ of the contour slots, of the time-domain units and of external and software sources, in SIX (R217). -/
def State.ctrLatency (s : State) (p : Nat) : Nat := s.fftN p * s.labelP p + 18432 + s.latencyE p
def State.ttrLatency (s : State) (p : Nat) : Nat := 3277 + s.latencyE p
def extLatency : Nat := 492

/-- λ of a source. -/
def State.srcLatency (s : State) (p src : Nat) : Nat :=
  if src < 8 then s.ctrLatency p else if src < 12 then s.ttrLatency p else extLatency

/-- The sources an event selects (R210). -/
def State.evSources (s : State) (p e : Nat) : Nat :=
  let key := keyTRG (p / 3)
  let i := 4 * (p % 3) + e
  s.af key (Reg.TRG_EV_SRC_A.SRC i) ||| s.af key (Reg.TRG_EV_SRC_B.SRC i)

/-- Λ of an event in SIX (R217). -/
def State.evLatency (s : State) (p e : Nat) : Nat :=
  (bitsSet (s.evSources p e) 20).foldl (fun m n => max m (s.srcLatency p n)) 0

/-! ### Registers that report the applied configuration (R133, R161, R217). -/

/-- Refresh the latency registers of a pipeline. -/
def State.refreshLatency (s : State) (p : Nat) : State :=
  let s := s.setReg (keyCTR p) Reg.CTR_LATENCY.off (word (s.ctrLatency p))
  let s := s.setReg (keyTTR p) Reg.TTR_LATENCY.off (word (s.ttrLatency p))
  (List.range 4).foldl (fun s e =>
    let l := s.evLatency p e
    s.setReg (keyTRG (p / 3)) (Reg.TRG_EV_LAT (4 * (p % 3) + e)).off (word (if l = 0 then extLatency else l))) s

/-- Recompute the engine's thinning and rate (R161). -/
def State.refreshFft (s : State) (p : Nat) : State :=
  let k := keyFFT p
  let m := s.fftThin p
  let was := s.rb k Reg.FFT_STAT.THINNED
  let old := s.rf k Reg.FFT_STAT.THIN_LOG2
  let s := (s.wf k Reg.FFT_STAT.THIN_LOG2 m).wb k Reg.FFT_STAT.THINNED (decide (m ≠ 0))
  let s := s.wf k Reg.FFT_STAT.SIZE_LOG2 (s.af k Reg.FFT_CFG.SIZE_LOG2)
  let rate := s.rateUnits p * 3125 * s.fftN p / (s.fftH p * 10000)
  let s := s.setReg k Reg.FFT_RATE.off (word rate)
  if m ≠ 0 ∧ (¬ was ∨ old < m) then s.setErr k 17 else s

/-- Pixel updates per spectrum: U = max(C, W) (R180). -/
def State.grtW (s : State) (p : Nat) : Nat := if s.ab (keyGRT p) Reg.GRT_CFG.GEOMETRY then 2048 else 1024
def State.grtU (s : State) (p : Nat) : Nat := max (s.af (keyGRT p) Reg.GRT_BIN_COUNT.C) (s.grtW p)

/-- The graticule's thinning exponent (R181): spectra per second × U against 64 updates per FCLK. A frame every H × P SIX is compared with
U updates at 64 (or 128 in a gang) per 32 SIX; the engine keeps frames whose numbers are multiples of 2^f, and where that is enough the
graticule thins none. -/
def State.grtThin (s : State) (p : Nat) : Nat :=
  let m := thinExp ((if s.bonded p then 4 else 2) * s.fftH p * s.labelP p) 32 (s.grtU p)
  if m ≤ s.fftThin p then 0 else m

/-- Recompute the graticule's thinning (R181). -/
def State.refreshGrt (s : State) (p : Nat) : State :=
  let k := keyGRT p
  let m := s.grtThin p
  let was := s.rb k Reg.GRT_STAT.THINNED
  let s := (s.wf k Reg.GRT_STAT.THIN_LOG2 m).wb k Reg.GRT_STAT.THINNED (decide (m ≠ 0))
  if m ≠ 0 ∧ ¬ was then s.setErr k 16 else s

/-- Bring the registers that report a pipeline's applied configuration up to date; the second pipeline of a gang
reports the first one's (R133, R159, R161, R181, R217, R226). -/
def State.refreshPipe (s : State) (p : Nat) : State :=
  let k := keyDDC p
  let s := s.wf k Reg.DDC_STAT.DECIM (s.decim p)
  let s := s.setReg k Reg.DDC_DELAY.off (word (s.delayHalf p))
  let s := s.wf k Reg.DDC_SETTLE.D (s.settleD p)
  ((s.refreshFft p).refreshGrt p).refreshLatency p

/-- Copy the applied words of the governing pages to the second pipeline of the gang (R133, R231). -/
def State.mirrorGang (s : State) (p : Nat) : State :=
  match (s.chain p).partner with
  | some q =>
    if s.gangedSecond p then s
    else
      [0, 2, 3, 4, 5, 6, 7].foldl (fun s n => s.applyWords (keyPipe q n) (s.page (keyPipe p n)).applied) s
  | none => s

/-! ### Graticules and triggers. -/

/-- An empty interval. -/
def GrtAcc.empty : GrtAcc := { hits := [], spectra := 0, excluded := 0, flags := 0 }

/-- A graticule at reset. -/
def Grat.init : Grat :=
  { cur := GrtAcc.empty, next := GrtAcc.empty, ticks := [], persist := [], nextTick := 0, boundary := none,
    openSix := 0, intervals := 1, clearNext := false, flatId := 0, readout := none, last := none }

/-- The graticule of pipeline `p`. -/
def State.grat (s : State) (p : Nat) : Grat := mget (fun _ => Grat.init) s.grats p

/-- Change a graticule. -/
def State.modGrat (s : State) (p : Nat) (f : Grat → Grat) : State := { s with grats := mput s.grats p (f (s.grat p)) }

/-- A time-domain unit at reset. -/
def TdUnit.init : TdUnit := { prev := none, window := [], prevSum := 0 }

/-- An event at reset. -/
def Event.init : Event := { st := .idle, from0 := 0 }

/-- Triggers at reset. -/
def Trig.init : Trig :=
  { runs := List.replicate 8 0, high := List.replicate 8 false, units := List.replicate 4 TdUnit.init,
    events := List.replicate 4 Event.init, occs := [], changes := [] }

/-- The triggers of pipeline `p`. -/
def State.trig (s : State) (p : Nat) : Trig := mget (fun _ => Trig.init) s.trigs p

/-- Change a pipeline's triggers. -/
def State.modTrig (s : State) (p : Nat) (f : Trig → Trig) : State := { s with trigs := mput s.trigs p (f (s.trig p)) }

/-- Trigger outputs at reset. -/
def TrigOut.init : TrigOut :=
  { outEnd := none, xtrigEnd := List.replicate 4 none, lastEdge := List.replicate 7 none }

/-- The trigger outputs of analysis region `r`. -/
def State.trigOut (s : State) (r : Nat) : TrigOut := mget (fun _ => TrigOut.init) s.trigOuts r

/-- Change a region's trigger outputs. -/
def State.modTrigOut (s : State) (r : Nat) (f : TrigOut → TrigOut) : State :=
  { s with trigOuts := mput s.trigOuts r (f (s.trigOut r)) }

/-- An inset at reset. -/
def Inset.init : Inset :=
  { nextLabel := 0, settleLeft := 0, xfLeft := 0, xfAt := 0, target := none, zeroAt := 0, tunes := [], filt := Filt.empty,
    stopAt := none, outs := [], chunk := [], chunkFirst := 0, chunkMarks := 0 }

/-- Inset `k` of pipeline `p`. -/
def State.inset (s : State) (p k : Nat) : Inset := mget (fun _ => Inset.init) s.insets (64 * p + k)

/-- Change an inset. -/
def State.modInset (s : State) (p k : Nat) (f : Inset → Inset) : State :=
  { s with insets := mput s.insets (64 * p + k) (f (s.inset p k)) }

/-- The floor value of R169. -/
def Bin.floor : Bin := { log := -32768, word := 0, num := 0, den := 1 }

/-- No spectrum in a TRACE interval. -/
def TraceAcc.empty : TraceAcc := { pts := [], n := 0, marks := 0 }

/-- A capture writer at reset. -/
def Capture.init : Capture :=
  { sheets := [], missed := 0, cutMissed := 0, marks := 0, envMin := none, envMax := 0, powSum := 0, powN := 0,
    prevRange := none, newEpoch := false, epochP := 0, prevEpoch := none, resumeAt := none,
    freedAt := none, pauseAt := none, gap := none,
    gapFlag := false, queue := [], recs := [], lost := [], trace := TraceAcc.empty, traceThen := TraceAcc.empty,
    traceLast := [], traceEnd := none, traceStart := 0 }

/-- The capture writer of pipeline `p`. -/
def State.capture (s : State) (p : Nat) : Capture := mget (fun _ => Capture.init) s.caps p

/-- Change a capture writer. -/
def State.modCapture (s : State) (p : Nat) (f : Capture → Capture) : State :=
  { s with caps := mput s.caps p (f (s.capture p)) }

/-- A record waits for a record plane (R239): 0 SPECTRUM, 1 TRACE, 2 GRATICULE. The first one after its block was FROZEN carries
GAP_BEFORE (R49). -/
def State.queueRecord (s : State) (p plane : Nat) (r : Record) : State :=
  let k := if plane = 0 then keyFFT p else if plane = 1 then keyRED p else keyGRT p
  let gap := (s.page k).gapNext
  let s := if gap then s.modPage k fun q => { q with gapNext := false } else s
  s.modCapture p fun c => { c with queue := c.queue ++ [(plane, if gap then { r with flags := r.flags ||| 2 ^ 6 } else r)] }

/-- The resident task of a type on a pipeline, whose ID its records carry (R254); 0 when none. -/
def State.ownerTask (s : State) (p type : Nat) : Nat :=
  match (s.pipeTasks p).find? fun t => decide (dTYPE t.desc = type) with
  | some t => t.id
  | none => 0

/-- SOURCE of a record (R257). -/
def sourceOf (p origin : Nat) : Nat := (1 + p / 3) * 2 ^ 12 + p % 3 * 2 ^ 8 + origin

/-- The first common COMMIT boundary of the pipeline blocks: the first frame boundary at least 4,096 samples after
acceptance (R149, R176, R224, R264). -/
def State.commitBoundary (s : State) : Nat := ceilTo 32 (s.six + 4096)

/-- CFG_STATE of a pipeline page (R150, R177, R194, R228, R229, R264, R265). -/
def cfgField (key : Nat) : Option RegField :=
  match blockOf key with
  | .ddc => some Reg.DDC_STAT.CFG_STATE
  | .fft => some Reg.FFT_STAT.CFG_STATE
  | .grt => some Reg.GRT_STAT.CFG_STATE
  | .ctr => some Reg.CTR_STAT.CFG_STATE
  | .ttr => some Reg.TTR_STAT.CFG_STATE
  | .cap => some Reg.CAP_STAT.CFG_STATE
  | .red => some Reg.RED_STAT.CFG_STATE
  | _ => none

/-- Write CFG_STATE: 0 STEADY, 1 PENDING, 2 CROSSFADE, 3 QUEUED. -/
def State.setCfg (s : State) (key n : Nat) : State :=
  match cfgField key with
  | some f => s.wf key f n
  | none => s

/-- CFG_STATE. -/
def State.cfg (s : State) (key : Nat) : Nat :=
  match cfgField key with
  | some f => s.rf key f
  | none => boolNat (s.pendOf key).isSome

/-- A COMMIT_AT accepted with nothing staged reaches its index: nothing is applied there (R619). -/
def State.passCommit (s : State) (key : Nat) (a : PendApply) : State :=
  let s := (s.advanceTo a.due).clearPend key
  (if s.cfg key = 1 then s.setCfg key 0 else s).endCommit key a.due

/-- A COMMIT_AT of a pipeline block, by the checks its page shares (R155): SIX at least 4,096 ahead and a multiple of
32, the block's own check, and then PENDING until that index. -/
def State.commitAt (s : State) (key : Nat) (op : Op) (check : State → Option (Nat × Nat)) : State :=
  if op.sixArg < s.six + 4096 then s.rejectOp key op codeRANGE 0x01
  else if op.sixArg % 32 ≠ 0 then s.rejectOp key op codeRANGE 0x02
  else
    match check s with
    | some (c, sub) => s.rejectOp key op c sub
    | none => ((s.accept key op).setPend key op.sixArg true).setCfg key 1

/-- A common COMMIT of a pipeline block at the shared boundary: DONE at once when nothing is staged (R619). -/
def State.commitHere (s : State) (key : Nat) (op : Op) (due : Nat) (check : State → Option (Nat × Nat)) : State :=
  match check s with
  | some (c, sub) => s.rejectOp key op c sub
  | none =>
    if s.stagedDiffers key then ((s.accept key op).setPend key due false).setCfg key 1
    else (s.accept key op).doneOp key

end Sys2Proof.Machine
end

