-- ==== Sys2Proof/Machine/Datapath.lean ====
section
/-! DEFINITION. The arithmetic of chains and insets: DC blocking (R136), the NCO (R139-R141), decimating stages with saturation
(R142, R144), crossfades (R148) and the output gain (R147). Taps and roundings are free (log entry 30). -/

namespace Sys2Proof.Machine

/-! ### Numbers. -/

/-- A quotient as an integer: one of the two next to it (log entry 30). -/
def roundQuot (num : Int) (den : Nat) : Int := num / den + (if num % den ≠ 0 ∧ Config.roundUp num den = true then 1 else 0)

/-- A component does not fit 16 bits. -/
def over16 (v : Int) : Bool := decide (satSigned 16 v ≠ v)

/-- A pair saturated to 16 bits (R144). -/
def sat16 (v : Int × Int) : Int × Int := (satSigned 16 v.1, satSigned 16 v.2)

/-- Either component of a pair saturates. -/
def overPair (v : Int × Int) : Bool := over16 v.1 || over16 v.2

/-! ### DC blocking (R136). -/

/-- e ← e + (x − e) × 2^−SHIFT, exactly. -/
def DcEst.step (shift : Nat) (e : DcEst) (x : Int) : DcEst :=
  { num := e.num * 2 ^ shift + (x * 2 ^ e.exp - e.num), exp := e.exp + shift }

/-- y = x − e of a sample at an index. -/
def DcEst.sub (e : DcEst) (six : Nat) (x : Int) : DcSample := { six := six, num := x * 2 ^ e.exp - e.num, exp := e.exp }

/-- The estimate in 1/16 code as 16 bits, rounded down (R155; log entry 78). -/
def DcEst.reg (e : DcEst) : Nat := unsignedOf 16 (e.num * 16 / 2 ^ e.exp)

/-! ### Stages (R142, R151). -/

/-- A decimating stage: its input period in half SCLK periods, whether it is a fifth-band, and its half-band response. -/
structure StageKind where
  half : Nat
  fifth : Bool
  resp : Nat
  deriving DecidableEq, Repr

def StageKind.taps (k : StageKind) : Nat := if k.fifth then 119 else respTaps k.resp
def StageKind.delay (k : StageKind) : Nat := if k.fifth then 59 else respDelay k.resp

/-- Distance between its outputs, in half periods. -/
def StageKind.step (k : StageKind) : Nat := k.half * (if k.fifth then 5 else 2)

/-- How far its outputs look, in half periods. -/
def StageKind.span (k : StageKind) : Nat := k.half * k.taps

/-- The samples that meet the taps for an output with a label, by tap number. -/
def StageKind.window (k : StageKind) (line : List StageIn) (label : Nat) : List (Nat × StageIn) :=
  let top := label + k.delay * k.half
  (line.filter fun x => decide (x.label ≤ top ∧ top < x.label + k.taps * k.half)).map fun x => ((top - x.label) / k.half, x)

/-- The output with a label, before saturation: the answer of zeros is zero. -/
def StageKind.raw (k : StageKind) (w : List (Nat × StageIn)) : Int × Int :=
  if w.all fun x => decide (x.2.i = 0 ∧ x.2.q = 0) then (0, 0)
  else Config.stageOut (if k.fifth then 3 else k.resp) (w.map fun x => (x.1, x.2.i, x.2.q))

/-- The output with a label, and whether the stage itself saturates (R142, R144). -/
def StageKind.out (k : StageKind) (line : List StageIn) (label : Nat) : StageIn × Bool :=
  let w := k.window line label
  let v := k.raw w
  ({ label := label, i := (sat16 v).1, q := (sat16 v).2, sat := w.any (fun x => x.2.sat) || overPair v }, overPair v)

/-- Samples enter a stage, oldest first: the stage, what it puts out, and whether it saturates. A line holds 191 samples beside those
that the next outputs need (R148). -/
def Stage.push (k : StageKind) (t : Stage) (new : List StageIn) : Stage × List StageIn × Bool :=
  let line := new.reverse ++ t.line
  let lead := k.delay * k.half
  let n := match line with
    | x :: _ => if x.label < t.next + lead ∨ k.step = 0 then 0 else (x.label - t.next - lead) / k.step + 1
    | [] => 0
  let outs := (List.range n).map fun j => k.out line (t.next + j * k.step)
  let next := t.next + n * k.step
  ({ next := next, line := line.filter fun x => decide (next + lead ≤ x.label + 190 * k.half) }, outs.map (·.1), outs.any (·.2))

/-- Samples pass a row of stages: the stages, what the last puts out, and the DDC_SAT bits of those that saturate, from bit `b`. -/
def runStages : List StageKind → List Stage → Nat → List StageIn → List Stage × List StageIn × Nat
  | k :: ks, t :: ts, b, new =>
    let r := t.push k new
    let x := runStages ks ts (b + 1) r.2.1
    (r.1 :: x.1, x.2.1, (if r.2.2 then 2 ^ b else 0) ||| x.2.2)
  | _, ts, _, new => (ts, new, 0)

/-- Stages with zero state whose first input has a label: each begins with the first output that can depend on it (R145). -/
def initStages : List StageKind → Nat → List Stage
  | [], _ => []
  | k :: ks, first =>
    let n := ceilTo (max 1 k.step) (first - k.delay * k.half)
    { next := n, line := [] } :: initStages ks n

/-- Stages 1 to DECIM of a chain (R142). -/
def chainKinds (bonded : Bool) (decim : Nat) (resp : Word) : List StageKind :=
  (List.range decim).map fun i => { half := stageHalf bonded (i + 1), fifth := false, resp := stageResp resp (i + 1) }

/-- Stage 0 of a chain (R142). -/
def stage0Kind (bonded : Bool) : StageKind := { half := stageHalf bonded 0, fifth := false, resp := 0 }

/-! ### Filters of chains and insets. -/

/-- A filter with zero state whose first input has a label in half periods (R145). -/
def Filt.init (ks : List StageKind) (resp : Word) (first gain : Nat) : Filt :=
  { stages := initStages ks first, resp := resp, older := none, fork := none, ready := [], readyOld := [], emitAt := 0, gainAt := 0,
    gainOld := gain }

/-- Inputs pass both sets of stages of a filter (R148). -/
def Filt.run (kinds : Word → List StageKind) (b : Nat) (f : Filt) (new : List StageIn) : Filt × Nat :=
  let r := runStages (kinds f.resp) f.stages b new
  match f.older with
  | none => ({ f with stages := r.1, ready := f.ready ++ r.2.1 }, r.2.2)
  | some (w, ts) =>
    let o := runStages (kinds w) ts b new
    ({ f with stages := r.1, ready := f.ready ++ r.2.1, older := some (w, o.1), readyOld := f.readyOld ++ o.2.1 }, r.2.2 ||| o.2.2)

/-- The responses of a fork take over; for a crossfade the set before goes on beside them (R147, R148). -/
def Filt.forked (f : Filt) (w : Word) (xfade : Bool) : Filt :=
  { f with fork := none, resp := w, older := if xfade then some (f.resp, f.stages) else none, readyOld := [] }

/-- Inputs enter a filter: those from the index of a fork on meet its responses. -/
def Filt.feed (kinds : Word → List StageKind) (b : Nat) (f : Filt) (new : List StageIn) : Filt × Nat :=
  match f.fork with
  | some (a, w, xfade) =>
    let after := new.filter fun x => decide (2 * a ≤ x.label)
    let r := f.run kinds b (new.filter fun x => decide (x.label < 2 * a))
    if after.isEmpty then r
    else
      let t := (r.1.forked w xfade).run kinds b after
      (t.1, r.2 ||| t.2)
  | none => f.run kinds b new

/-- A crossfade has ended: the set it left is gone. -/
def Filt.settle (f : Filt) : Filt := { f with older := none, readyOld := [] }

/-- Output `n` of a crossfade, 0-255: old × (1 − (n + 1)/256) + new × ((n + 1)/256) (R148). -/
def blend (n : Nat) (old new : Int) : Int := roundQuot (old * ((255 - n : Nat) : Int) + new * ((n + 1 : Nat) : Int)) 256

/-- The next output of a filter from a label on, where both sets of a crossfade have computed it. -/
def Filt.next? (f : Filt) (label xfLeft xfAt : Nat) : Option StageIn :=
  match f.ready.find? fun x => decide (2 * label ≤ x.label) with
  | none => none
  | some x =>
    if xfLeft = 0 ∨ x.label < 2 * xfAt ∨ f.older.isNone then some x
    else
      match f.readyOld.find? fun o => decide (o.label = x.label) with
      | none => none
      | some o => some { x with i := blend (256 - xfLeft) o.i x.i, q := blend (256 - xfLeft) o.q x.q, sat := x.sat || o.sat }

/-- Outputs up to one that has been emitted leave the filter. -/
def Filt.drop (f : Filt) (label emitAt : Nat) : Filt :=
  { f with ready := f.ready.filter (fun x => decide (2 * label < x.label)),
           readyOld := f.readyOld.filter (fun x => decide (2 * label < x.label)), emitAt := emitAt }

/-- GAIN of the output with a label (R147). -/
def Filt.gain (f : Filt) (applied label : Nat) : Nat := if label < f.gainAt then f.gainOld else applied

/-- I and Q after the output gain, and whether it saturates (R142, R144). -/
def gainOut (g : Nat) (x : StageIn) : (Int × Int) × Bool :=
  let v := (x.i * 2 ^ g, x.q * 2 ^ g)
  (sat16 v, overPair v)

/-! ### Tuning (R139-R141). -/

/-- The mix word M of W in a zone (R139): ZONE2 is 1. -/
def mixWord (zone w : Nat) : Nat := if zone = 1 then (2 ^ 48 - w) % 2 ^ 48 else w % 2 ^ 48

/-- The tuning of the input at an index. -/
def tuneAt (ts : List Tune) (six : Nat) : Tune :=
  match ts.find? fun t => decide (t.from0 ≤ six) with
  | some t => t
  | none => ts.getLastD { from0 := 0, w := 0, m := 0, off := 0, dcEn := true, zone := 0, settle := false }

/-- phase(s) = (M × s + off) mod 2^48, in 2^−48 turn (R140). -/
def Tune.phase (t : Tune) (six : Nat) : Nat := (t.m * six + t.off) % 2 ^ 48

/-- Phase of a sample by its index in half periods, in 2^−49 turn: odd samples of a bonded channel use phase(s) + M/2 (R140). -/
def Tune.phase49 (t : Tune) (h : Nat) : Nat := (2 * t.phase (h / 2) + h % 2 * t.m) % 2 ^ 49

/-- The offset that leaves the phase at an index as it is (R141). -/
def Tune.keepPhase (t : Tune) (m a : Nat) : Nat :=
  (((t.m : Int) * a + t.off - m * a) % ((2 ^ 48 : Nat) : Int)).toNat

/-- A tuning takes force from its index on, among others newest first. -/
def addTune (ts : List Tune) (t : Tune) : List Tune :=
  ((ts.filter fun x => decide (t.from0 < x.from0)) ++ t :: ts.filter fun x => decide (x.from0 < t.from0)).take 64

/-- The windows of an output that reaches from `e` back over `l` half periods contain an index at which the tuning changed (R147). -/
def tuneMarks (ts : List Tune) (zeroAt e l : Nat) : Nat :=
  if ts.any fun t => t.settle && decide (zeroAt ≤ t.from0 ∧ 2 * t.from0 ≤ e ∧ e ≤ 2 * t.from0 + l) then markSETTLING else 0

/-- A mixed sample of a chain at an index in half periods, and whether the mix saturates (R139, R140, R144). -/
def mixSample (t : Tune) (h : Nat) (y : DcSample) : StageIn × Bool :=
  let v := if y.num = 0 then (0, 0) else Config.mix y.num y.exp (t.phase49 h)
  ({ label := h, i := (sat16 v).1, q := (sat16 v).2, sat := overPair v }, overPair v)

/-- ZONE2 conjugates after stage 0 (R139). -/
def conjZone (ts : List Tune) (x : StageIn) : StageIn :=
  if (tuneAt ts (x.label / 2)).zone = 1 then { x with q := satSigned 16 (-x.q) } else x

/-- A channel-rate sample as an inset's NCO mixes it (R140, R152). -/
def insetMixed (ts : List Tune) (x : StageIn) : StageIn :=
  let v := if x.i = 0 ∧ x.q = 0 then (0, 0) else Config.insetMix x.i x.q ((tuneAt ts (x.label / 2)).phase (x.label / 2))
  { x with i := (sat16 v).1, q := (sat16 v).2, sat := x.sat || overPair v }

/-- A channel-rate sample on its way into an inset, and whether the mix saturates. -/
def insetMixOver (ts : List Tune) (x : StageIn) : Bool :=
  if x.i = 0 ∧ x.q = 0 then false else overPair (Config.insetMix x.i x.q ((tuneAt ts (x.label / 2)).phase (x.label / 2)))

/-! ### Marks of inputs (R135). -/

/-- Marks of the inputs in an impulse window of length `l` that ends at `e`, in half periods, since the stages were zeroed (R135,
R145). -/
def inputMarks (runs : List MarkRun) (zeroAt e l : Nat) : Nat :=
  runs.foldl (fun m r => if 2 * zeroAt ≤ r.last ∧ r.first ≤ e ∧ e ≤ r.last + l then m ||| r.marks else m) 0

/-- Marks of a converter's inputs by index in half periods: odd samples of a bonded channel lie half a period later (R114). -/
def halfRuns (odd : Bool) (runs : List MarkRun) : List MarkRun :=
  runs.map fun r => { r with first := 2 * r.first + boolNat odd, last := 2 * r.last + boolNat odd }

/-! ### Bins (R162, R163, R165, R171). -/

/-- A point of a flatness table, interpolated linearly at a frequency in 40.96 GHz / 2^48; points lie at j × 20 MHz, and outside the
table its nearest point holds. The answer is in 2^−37 of the point's unit (R165, R337). -/
def interpFlat (pt : Nat → BitVec 16) (f : Int) : Int :=
  let n := f.toNat
  let j := min 2047 (n / 2 ^ 37)
  let a := (pt j).toInt
  if j = 2047 then a * 2 ^ 37 else a * ((2 ^ 37 - n % 2 ^ 37 : Nat) : Int) + (pt (j + 1)).toInt * ((n % 2 ^ 37 : Nat) : Int)

/-- What corrects a frame: size, window, gain, attenuation, FORMAT, EXP, table (0 none), W, and the label period (R165, R171). -/
structure BinFix where
  sizeLog2 : Nat
  window : Nat
  gain : Nat
  atten : Nat
  format : Nat
  exp : Int
  flatId : Nat
  w : Nat
  labelP : Nat
  deriving DecidableEq, Repr

/-- RF frequency of bin `k`, f_c + (k − N/2) × f_s/N, in 40.96 GHz / 2^48 (R163). -/
def BinFix.freq (c : BinFix) (k : Nat) : Int :=
  (c.w : Int) + ((k : Int) - 2 ^ (c.sizeLog2 - 1)) * ((2 ^ 48 / (c.labelP * 2 ^ c.sizeLog2) : Nat) : Int)

/-- The corrected amplitude of a bin; LOG16 and LIN32 take the table's gain only (R165). -/
def BinFix.value (c : BinFix) (x : Int × Int) (k : Nat) (phase : Bool) : Int × Int × Nat :=
  let g := if c.flatId = 0 then 0 else interpFlat (Config.flatGain c.flatId) (c.freq k)
  let p := if c.flatId = 0 || !phase then 0 else interpFlat (Config.flatPhase c.flatId) (c.freq k)
  Config.correctBin x c.sizeLog2 c.window c.gain c.atten g p

/-- LOG16 of a power before saturation: −32,768 for zero and below −256 dBm (R171). -/
def logOf (num den : Nat) : Int := if num = 0 then -32768 else max (-32768) (Config.logPower num den)

/-- A part of CPLX32 before saturation: power in mW = (I² + Q²) × 4^EXP × 2^−30 (R171). -/
def cplxPart (v : Int) (e : Nat) (exp : Int) : Int :=
  let s : Int := 15 - exp - e
  if 0 ≤ s then v * 2 ^ s.toNat else roundQuot v (2 ^ (-s).toNat)

/-- A bin of power num / den in a record format; `cplx` has the parts of CPLX32. -/
def binOf (format num den : Nat) (cplx : Int × Int) : Bin :=
  let log := min 32767 (logOf num den)
  { log := log, num := num, den := den,
    word := if format = 2 then word (unsignedOf 16 (sat16 cplx).1 + unsignedOf 16 (sat16 cplx).2 * 65536)
            else if num = 0 then 0 else Config.binary32 num den }

/-- The bin saturates in its format (R168, R171). -/
def binOver (format num den : Nat) (cplx : Int × Int) : Bool :=
  if format = 2 then overPair cplx else decide (format = 0) && decide (32767 < logOf num den)

/-- A corrected bin, and whether it saturates in the record format. -/
def BinFix.bin (c : BinFix) (x : Int × Int) (k : Nat) : Bin × Bool :=
  let v := c.value x k false
  let num := (v.1 * v.1 + v.2.1 * v.2.1).toNat
  let den := 4 ^ v.2.2
  let z := c.value x k true
  let cplx := (cplxPart z.1 z.2.2 c.exp, cplxPart z.2.1 z.2.2 c.exp)
  (binOf c.format num den cplx, binOver c.format num den cplx)

/-- A frame's samples under the window: point n of size N is master point n × 65,536/N (R162). -/
def windowed (window sizeLog2 : Nat) (xs : List (Int × Int)) : List (Int × Int) :=
  (xs.zip (List.range xs.length)).map fun x =>
    let w := Config.windowRom window (x.2 * 65536 / 2 ^ sizeLog2)
    (x.1.1 * w, x.1.2 * w)

/-- The corrected spectrum of a frame (R159, R162, R163, R165). -/
def BinFix.spectrum (c : BinFix) (xs : List (Int × Int)) : List (Bin × Bool) :=
  let ys := windowed c.window c.sizeLog2 xs
  (List.range (2 ^ c.sizeLog2)).map fun k => c.bin (Config.dftBin ys k) k

end Sys2Proof.Machine
end

