-- ==== Sys2Proof/Machine/Memory.lean ====
section
/-! DEFINITION. User memory (R347): bytes in one canonical form, little-endian words (R5), poison marks by 64-byte
line, and the words of the BAR0 windows. -/

namespace Sys2Proof.Machine

/-- A byte of memory; an unlisted address reads 0 (log entry 15). -/
def Memory.get (m : List Host.Cell) (a : Nat) : Byte := mget (fun _ => (0 : Byte)) m a

/-- Write a byte, keeping the canonical form: a byte of 0 is not listed. -/
def Memory.put (m : List Host.Cell) (a : Nat) (b : Byte) : List Host.Cell := if b = 0 then mdel m a else mput m a b

/-- Write consecutive bytes. -/
def Memory.putBytes : List Host.Cell → Nat → List Byte → List Host.Cell
  | m, _, [] => m
  | m, a, b :: bs => Memory.putBytes (Memory.put m a b) (a + 1) bs

/-- The canonical form: strictly rising addresses, no byte of 0. -/
def Memory.wf (m : List Host.Cell) : Bool := mrising none m && m.all fun c => decide (c.2 ≠ 0)

/-- Read a byte of user memory. -/
def State.readByte (s : State) (a : Nat) : Byte := Memory.get s.mem a

/-- Read consecutive bytes. -/
def State.readMem (s : State) (a n : Nat) : List Byte := (List.range n).map fun i => s.readByte (a + i)

/-- The poison mark of a line not listed by itself: that of a layer fill (R370). -/
def State.filled (s : State) (line : Nat) : Bool := s.poisonFill.any fun r => decide (r.1 ≤ line) && decide (line < r.2)

/-- A 64-byte line of user memory is poisoned. -/
def State.poisoned (s : State) (line : Nat) : Bool := mget s.filled s.poison line

/-- Set or clear the poison mark of a line. -/
def State.setPoison (s : State) (line : Nat) (b : Bool) : State :=
  { s with poison := if s.filled line = b then mdel s.poison line else mput s.poison line b }

/-- Write consecutive bytes; a line of which all 64 bytes are written loses its poison mark, another keeps it (R354). -/
def State.writeMem (s : State) (a : Nat) (bs : List Byte) : State :=
  let s := { s with mem := Memory.putBytes s.mem a bs }
  let first := (a + 63) / 64
  (List.range ((a + bs.length) / 64 - first)).foldl (fun s i => if s.poisoned (first + i) then s.setPoison (first + i) false else s) s

/-- A byte of a BAR0 window by address. -/
def State.winByte (s : State) (addr : Nat) : Nat :=
  let w := mget (fun _ => (0 : Word)) s.win (addr / 4)
  w.toNat / 2 ^ (8 * (addr % 4)) % 256

end Sys2Proof.Machine
end

