-- ==== Sys2Proof/Machine/Trigger.lean ====
section
/-! DEFINITION. Trigger sources and events (R196-R227): occurrences, time-domain units, contour slots, external and
software sources, and the die trigger matrix. -/

namespace Sys2Proof.Machine

/-! ### Occurrences. -/

/-- An external or software source has a label grid only while the pipeline's DDC block is ACTIVE (R196). -/
def State.hasGrid (s : State) (p : Nat) : Bool := s.isActive (keyDDC (s.governor p))

/-- Add an occurrence of a source. -/
def State.addOcc (s : State) (p : Nat) (o : Occ) : State := s.modTrig p fun t => { t with occs := t.occs ++ [o] }

/-- Record a change of a source's state. -/
def State.addChange (s : State) (p src sample : Nat) (on : Bool) : State :=
  s.modTrig p fun t => { t with changes := t.changes ++ [{ src := src, sample := sample, on := on }] }

/-- The state of a source at a sample: its last change, or an occurrence there (R197). -/
def Trig.stateAt (t : Trig) (src sample : Nat) : Bool :=
  t.occs.any (fun o => decide (o.src = src) && decide (o.sample = sample)) ||
    (match (t.changes.filter fun c => decide (c.src = src) && decide (c.sample ≤ sample)).getLast? with
     | some c => c.on
     | none => false)

/-- A source has an occurrence at a sample. -/
def Trig.occAt (t : Trig) (src sample : Nat) : Bool :=
  t.occs.any fun o => decide (o.src = src) && decide (o.sample = sample)

/-! ### Integer square root, for |x| (R204, R206). -/

/-- Bits of the square root from `2^b` down. -/
def isqrtBits (n : Nat) : Nat → Nat → Nat
  | 0, r => r
  | b + 1, r => isqrtBits n b (if (r + 2 ^ b) * (r + 2 ^ b) ≤ n then r + 2 ^ b else r)

/-- The integer square root of a number below 2^256. -/
def isqrt (n : Nat) : Nat := isqrtBits n 128 0

/-! ### Time-domain units (R204-R207). -/

def markUNCLEAN : Nat := 11

/-- I² + Q². -/
def ChainSample.power (c : ChainSample) : Nat := (c.i * c.i + c.q * c.q).toNat

/-- The signed value of LEVEL and EDGE: I or Q. -/
def ChainSample.comp (c : ChainSample) (q : Bool) : Int := if q then c.q else c.i

/-- Whether the condition is met, and whether it is released, for a value compared with threshold and hysteresis
(R205): `x`, `t` and `h` in one unit, or squared where `sq` holds. -/
def tdMet (below : Bool) (x t : Int) : Bool := if below then decide (x ≤ t) else decide (x ≥ t)

/-- The condition is released (R205). -/
def tdReleased (below : Bool) (x t h : Int) : Bool := if below then decide (x > t + h) else decide (x < t - h)

/-- MAGNITUDE compares I² + Q² with the square of its threshold (R204). -/
def magMet (below : Bool) (x2 t : Nat) : Bool := if below then decide (x2 ≤ t * t) else decide (x2 ≥ t * t)

/-- MAGNITUDE is released. -/
def magReleased (below : Bool) (x2 t h : Nat) : Bool :=
  if below then decide (x2 > (t + h) * (t + h)) else decide (h < t) && decide (x2 < (t - h) * (t - h))

/-- Offset of a crossing from the previous output, in 1/65,536 SIX rounded half up: P × (T − a)/(b − a) (R206). -/
def crossing (labelP : Nat) (t a b : Int) : Nat :=
  if b = a then 0
  else
    let num : Int := (labelP : Int) * 65536 * (t - a)
    let den : Int := b - a
    let n := if den < 0 then -num else num
    let d := if den < 0 then -den else den
    ((2 * n + d) / (2 * d)).toNat

/-- The quantity of a unit at an output on a common scale for interpolation: 2^64 × |x| for MAGNITUDE. -/
def tdScale (type : Nat) (comp : Bool) (c : ChainSample) (sum : Nat) : Int :=
  match type with
  | 3 => (isqrt (c.power * 2 ^ 128) : Int)
  | 4 => (sum : Int)
  | _ => c.comp comp

/-- The threshold on the same scale. -/
def tdThresh (type win t : Nat) : Int :=
  match type with
  | 3 => ((t % 65536 * 2 ^ 64 : Nat) : Int)
  | 4 => ((t * 2 ^ win : Nat) : Int)
  | _ => signedOf 16 (t % 65536)

/-- The hysteresis on the same scale. -/
def tdHyst (type win h : Nat) : Int :=
  match type with
  | 3 => ((h % 65536 * 2 ^ 64 : Nat) : Int)
  | 4 => ((h * 2 ^ win : Nat) : Int)
  | _ => ((h % 65536 : Nat) : Int)

/-- Met and released of a unit's output. -/
def tdTest (type win t h : Nat) (below comp : Bool) (c : ChainSample) (sum : Nat) : Bool × Bool :=
  if type = 3 then (magMet below c.power (t % 65536), magReleased below c.power (t % 65536) (h % 65536))
  else
    let x := tdScale type comp c sum
    (tdMet below x (tdThresh type win t), tdReleased below x (tdThresh type win t) (tdHyst type win h))

/-- MET and UNARMED bits of a unit. -/
def State.tdIsMet (s : State) (p n : Nat) : Bool := nbit (s.rf (keyTTR p) Reg.TTR_STAT.MET) n
def State.tdUnarmed (s : State) (p n : Nat) : Bool := nbit (s.rf (keyTTR p) Reg.TTR_STAT.UNARMED) n

/-- Write the state of a unit. -/
def State.tdSet (s : State) (p n : Nat) (met unarmed : Bool) : State :=
  let k := keyTTR p
  let s := s.wf k Reg.TTR_STAT.MET (putBit (s.rf k Reg.TTR_STAT.MET) n met)
  s.wf k Reg.TTR_STAT.UNARMED (putBit (s.rf k Reg.TTR_STAT.UNARMED) n unarmed)

/-- Change unit `n`. -/
def State.modUnit (s : State) (p n : Nat) (f : TdUnit → TdUnit) : State :=
  s.modTrig p fun t => { t with units := setNth t.units n (f (nth TdUnit.init t.units n)) }

/-- A unit becomes UNARMED, its window empty, and a true state ends at the sample (R207). -/
def State.tdDisarm (s : State) (p n sample : Nat) : State :=
  let s := if s.tdIsMet p n then s.addChange p (8 + n) sample false else s
  (s.tdSet p n false true).modUnit p n fun _ => TdUnit.init

/-- Evaluate one unit on a chain output (R204-R207). The crossing of a released EDGE EITHER unit is interpolated at the level that releases
it, T ∓ HYST (log entry 83). -/
def State.tdUnit (s : State) (p n : Nat) (c : ChainSample) : State :=
  let k := keyTTR p
  let type := s.af k (Reg.TTR_UNIT_CFG.TYPE n)
  if type = 0 then s
  else
    let win := s.af k (Reg.TTR_UNIT_CFG.WIN_LOG2 n)
    let dir := s.af k (Reg.TTR_UNIT_CFG.DIR n)
    let comp := s.ab k (Reg.TTR_UNIT_CFG.COMP n)
    let t := s.af k (Reg.TTR_UNIT_THRESH n)
    let h := s.af k (Reg.TTR_UNIT_HYST n)
    let u := nth TdUnit.init (s.trig p).units n
    let window := if type = 4 then (c.power :: u.window).take (2 ^ win) else []
    let sum := window.sum
    let full := decide (type ≠ 4) || decide (window.length = 2 ^ win)
    let r := tdTest type win t h (decide (dir = 1)) comp c sum
    let wouldFire := !s.tdUnarmed p n &&
      ((!s.tdIsMet p n && r.1) || (s.tdIsMet p n && r.2 && decide (type = 2) && decide (dir = 2)))
    if hasMark c.marks markUNCLEAN then
      let s := if wouldFire then s.count k Reg.TTR_SUPPRESSED else s
      s.tdDisarm p n c.label
    else
      let a := match u.prev with | some b => tdScale type comp b u.prevSum | none => 0
      let b := tdScale type comp c sum
      let s := s.modUnit p n fun _ => { prev := some c, window := window, prevSum := sum }
      let holds := decide (type ≠ 2)
      if s.tdUnarmed p n then
        if full then
          let s := s.tdSet p n r.1 false
          if r.1 && holds then s.addChange p (8 + n) c.label true else s
        else s
      else
        let hyst := if dir = 1 then -tdHyst type win h else tdHyst type win h
        let level := if s.tdIsMet p n then tdThresh type win t - hyst else tdThresh type win t
        let off := match u.prev with | some b' => b'.label * 65536 + crossing (c.label - b'.label) level a b | none => c.label * 65536
        let s :=
          if wouldFire then
            (s.count k (Reg.TTR_UNIT_FIRED n)).addOcc p
              { src := 8 + n, sample := c.label, six := off / 65536, fine := off % 65536, at0 := c.label }
          else s
        if !s.tdIsMet p n && r.1 then
          let s := s.tdSet p n true false
          if holds then s.addChange p (8 + n) c.label true else s
        else if s.tdIsMet p n && r.2 then
          let s := s.tdSet p n false false
          if holds then s.addChange p (8 + n) c.label false else s
        else s

/-- TD_EVAL: the time-domain units evaluate a chain output while their block is ACTIVE (R204, R207). -/
def State.tdEval (s : State) (p : Nat) (c : ChainSample) : State :=
  if s.isActive (keyTTR p) then (List.range 4).foldl (fun s n => s.tdUnit p n c) s else s.countDropped (keyTTR p) 1

/-! ### Contour slots (R198-R202). -/

/-- A point of a contour curve: 2 bytes per point in the mask window (R32). -/
def State.curvePoint (s : State) (p curve : Nat) (lower : Bool) (i : Nat) : Int :=
  let addr := 0x02E00000 + p * 0x200000 + curve * 0x40000 + (if lower then 0x20000 else 0) + 2 * i
  let w := mget (fun _ => (0 : Word)) s.win (addr / 4)
  signedOf 16 (wget w (if addr % 4 = 0 then 15 else 31) (if addr % 4 = 0 then 0 else 16))

/-- A bin violates the mask of a slot (R199). -/
def binViolates (side : Nat) (v u l : Int) : Bool :=
  (decide (side = 0 ∨ side = 2) && decide (v > u)) || (decide (side = 1 ∨ side = 2) && decide (v < l))

/-- Bins of a slot's range that violate it; in DENSITY mode, RARE bins at or above the lower curve (R199). -/
def State.slotHits (s : State) (p m : Nat) (bins : List Int) (rare : List Bool) : Nat :=
  let k := keyCTR p
  let first := s.af k (Reg.CTR_MASK_BINS.FIRST m)
  let n := s.af k (Reg.CTR_MASK_BINS.COUNT_M1 m) + 1
  let curve := s.af k (Reg.CTR_MASK_CFG.CURVE m)
  let side := s.af k (Reg.CTR_MASK_CFG.SIDE m)
  let density := decide (s.af k (Reg.CTR_MASK_CFG.MODE m) = 4)
  ((List.range n).filter fun i =>
    let v := nth 0 bins (first + i)
    let l := s.curvePoint p curve true i
    if density then nth false rare (first + i) && decide (v ≥ l)
    else binViolates side v (s.curvePoint p curve false i) l).length

/-- NOHIST and OUT bits of a slot. -/
def State.slotNoHist (s : State) (p m : Nat) : Bool := nbit (s.rf (keyCTR p) Reg.CTR_STAT.NOHIST) m
def State.slotOut (s : State) (p m : Nat) : Bool := nbit (s.rf (keyCTR p) Reg.CTR_STAT.OUT) m

/-- A slot returns to NOHIST: a true state ends at the label (R201, R202). -/
def State.slotClear (s : State) (p m label : Nat) : State :=
  let k := keyCTR p
  let s := if nth false (s.trig p).high m then s.addChange p m label false else s
  let s := s.wf k Reg.CTR_STAT.NOHIST (putBit (s.rf k Reg.CTR_STAT.NOHIST) m true)
  s.modTrig p fun t => { t with runs := setNth t.runs m 0, high := setNth t.high m false }

/-- Every slot returns to NOHIST. -/
def State.slotsClear (s : State) (p label : Nat) : State := (List.range 8).foldl (fun s m => s.slotClear p m label) s

/-- Evaluate a slot on a spectrum with centre label `c` (R199, R200, R202). -/
def State.slotEval (s : State) (p m c : Nat) (bins : List Int) (rare : List Bool) : State :=
  let k := keyCTR p
  let mode := s.af k (Reg.CTR_MASK_CFG.MODE m)
  let out := decide (s.slotHits p m bins rare ≥ s.af k (Reg.CTR_MASK_QUAL.MIN_M1 m) + 1)
  let kk := s.af k (Reg.CTR_MASK_QUAL.K_M1 m) + 1
  let first := s.slotNoHist p m
  let was := s.slotOut p m
  let run := if first || (out != was) then 1 else nth 0 (s.trig p).runs m + 1
  let fires :=
    match mode with
    | 0 => !first && out && !was
    | 1 => !first && !out && was
    | 2 => !out && decide (run = kk)
    | _ => out && decide (run = kk)
  let high' :=
    match mode with
    | 0 => false
    | 1 => false
    | 2 => !out && decide (kk ≤ run)
    | _ => out && decide (kk ≤ run)
  let wasHigh := nth false (s.trig p).high m
  let s := s.wf k Reg.CTR_STAT.NOHIST (putBit (s.rf k Reg.CTR_STAT.NOHIST) m false)
  let s := s.wf k Reg.CTR_STAT.OUT (putBit (s.rf k Reg.CTR_STAT.OUT) m out)
  let s := s.modTrig p fun t => { t with runs := setNth t.runs m run, high := setNth t.high m high' }
  let s := if high' != wasHigh then s.addChange p m c high' else s
  if fires then (s.count k (Reg.CTR_MASK_FIRED m)).addOcc p { src := m, sample := c, six := c, fine := 0, at0 := c } else s

/-- A slot's range fits spectra of `n` bins (R198). -/
def State.slotFits (s : State) (p m n : Nat) : Bool :=
  decide (s.af (keyCTR p) (Reg.CTR_MASK_BINS.FIRST m) + s.af (keyCTR p) (Reg.CTR_MASK_BINS.COUNT_M1 m) + 1 ≤ n)

/-- An FFT apply that leaves the range of an enabled slot outside N sets MASK_RANGE (R198). -/
def State.slotsFit (s : State) (p : Nat) : State :=
  if (List.range 8).any fun m => s.ab (keyCTR p) (Reg.CTR_MASK_CFG.EN m) && !s.slotFits p m (s.fftN p) then s.setErr (keyCTR p) 16 else s

/-- CONTOUR_EVAL: the enabled slots evaluate a spectrum, or skip one with SETTLING, STALE or GAP_BEFORE (R201). CLEAN is
raised at the first spectrum evaluated after all enabled slots were in NOHIST. -/
def State.contourEval (s : State) (p c marks : Nat) (bins : List Int) (rare : List Bool) : State :=
  let k := keyCTR p
  if !s.isActive k then s.countDropped k 1
  else
    let en := (List.range 8).filter fun m => s.ab k (Reg.CTR_MASK_CFG.EN m)
    if hasMark marks markUNCLEAN then
      if en.isEmpty then s else (s.countBy k Reg.CTR_SKIPPED en.length).slotsClear p c
    else
      let bad := en.filter fun m => !s.slotFits p m bins.length
      let good := en.filter fun m => s.slotFits p m bins.length
      let clean := !good.isEmpty && en.all fun m => s.slotNoHist p m
      let s := if bad.isEmpty then s else bad.foldl (fun s m => s.slotClear p m c) (s.setErr k 16)
      let s := good.foldl (fun s m => s.slotEval p m c bins rare) s
      if clean then s.irqBit k 17 else s

/-! ### External and software sources (R208, R209). -/

/-- The pipelines of a region with a label grid. -/
def State.gridPipes (s : State) (r : Nat) : List Nat :=
  ((List.range 3).map (3 * r + ·)).filter fun p => s.hasGrid p && !s.gangedSecond p

/-- The input number of an external source, 0-6: TRIG_IN0-1, XTRIG0-3, PPS_IN. -/
def extActive (s : State) (r input : Nat) (falling : Bool) : Bool :=
  if input = 0 then falling == s.ab (keyTRG r) Reg.TRG_EXT_CFG.TRIG_IN0_EDGE
  else if input = 1 then falling == s.ab (keyTRG r) Reg.TRG_EXT_CFG.TRIG_IN1_EDGE
  else if input < 6 then falling
  else !falling

/-- Two times lie within 2.0 ns (R92, R208). -/
def edgesWithin2ns (a b : Nat × Nat) : Bool :=
  decide (((b.1 * 65536 + b.2) - (a.1 * 65536 + a.2)) * 3125 ≤ 2000 * 8388608)

/-- An active edge reaches a region: an occurrence on each of its pipelines with a grid, at the first label at or after
its SIX, unless it falls into the input's dead time (R208). -/
def State.extEdge (s : State) (r input six fine : Nat) : State :=
  let dead :=
    match nth none (s.trigOut r).lastEdge input with
    | some e => edgesWithin2ns e (six, fine)
    | none => false
  if dead then s
  else
    let s := s.modTrigOut r fun o => { o with lastEdge := setNth o.lastEdge input (some (six, fine)) }
    (s.gridPipes r).foldl (fun s p =>
      s.addOcc p { src := 12 + input, sample := ceilTo (s.labelP p) six, six := six, fine := fine, at0 := six }) s

/-- EXT_TRIG_EDGE: an edge on TRIG_IN0-1, XTRIG0-3 or PPS_IN (inputs 0-6) with its TDC time, held for 2 ns, is taken
by each region whose active edge it is (R208, R602). -/
def execExtTrigEdge (input : Fin 7) (falling : Bool) (six fine heldNs : Nat) (s : State) : Res :=
  if heldNs < 2 then .next s
  else
    let s := s.advanceTo six
    .next ((List.range 2).foldl (fun s r => if extActive s r input falling then s.extEdge r input six fine else s) s)

/-- Source SW occurs on the pipelines of a mask (R209). -/
def State.swFire (s : State) (r mask six : Nat) : State :=
  ((s.gridPipes r).filter fun p => nbit mask (p % 3)).foldl (fun s p =>
    let l := ceilTo (s.labelP p) six
    s.addOcc p { src := 19, sample := l, six := l, fine := 0, at0 := l }) s

/-- SW_TRIG: source SW fires on each pipeline of ARG0[2:0] at the first label after acceptance (R209). -/
def execSwTrig (who : Issuer) (region : Fin 2) (tag : Nat) (s : State) : Res :=
  let key := keyTRG region
  .next (s.command who key 0x0101 tag fun s op =>
    ((s.accept key op).swFire region (op.a0 % 8) s.six).doneOp key)

/-- SW_TRIG_AT: waits for the SIX of ARG0-ARG2; less than 4,096 samples ahead is rejected APPLY_PAST (R209). -/
def execSwTrigAt (who : Issuer) (region : Fin 2) (tag : Nat) (s : State) : Res :=
  let key := keyTRG region
  .next (s.command who key 0x0102 tag fun s op =>
    if op.sixArg < s.six + 4096 then s.rejectOp key op codeRANGE 0x01 else s.accept key op)

/-- SW_TRIG_AT_FIRE: a waiting SW_TRIG_AT reaches its SIX, fires and ends DONE; one that is SUSPENDED waits for RESUME (R57, R209). -/
def execSwTrigAtFire (region : Fin 2) (s : State) : Res :=
  let key := keyTRG region
  match (s.page key).op with
  | some op =>
    if op.opcode = 0x0102 ∧ !op.suspended then
      let s := s.advanceTo op.sixArg
      .next ((s.swFire region (op.a3 % 8) op.sixArg).doneOp key)
    else .next s
  | none => .next s

/-! ### Trigger outputs (R220, R221). -/

/-- Length of a trigger pulse in SIX: PULSE FCLK cycles of 32 periods. -/
def State.pulseSix (s : State) (r : Nat) : Nat := 32 * s.af (keyTRG r) Reg.TRG_OUT_CFG.PULSE

/-- Enable and selection of XTRIG line `k` (R230). -/
def State.xtrigSel (s : State) (r k : Nat) : Bool × Nat :=
  let w := s.areg (keyTRG r) Reg.TRG_XTRIG_DRV.EN0.off
  (wbit w (8 * k + 4), wget w (8 * k + 3) (8 * k))

/-- The outputs of a region are held inactive: it is isolated, or the module is in safe state (R222, R595). -/
def State.trigHeld (s : State) (r : Nat) : Bool :=
  nbit (s.rf keyFLT Reg.FLT_STAT.ISOLATED) (1 + r) || decide (s.rf keyFLT Reg.FLT_STAT.STATE = 2)

/-- The level of a TRIG_OUT land: POLARITY 1 is active low (R220). -/
def State.trigLevel (s : State) (r : Nat) (active : Bool) : Bool := active != s.ab (keyTRG r) Reg.TRG_OUT_CFG.POLARITY

/-- A region holds XTRIG line `k` low. -/
def State.pullsXtrig (s : State) (r k : Nat) : Bool := (nth none (s.trigOut r).xtrigEnd k).isSome

/-- A line that goes low is an edge for both regions, whoever drives it (R221). -/
def State.xtrigFalls (s : State) (r k six : Nat) : State :=
  let s := s.emit (.xtrig r k six true)
  if s.pullsXtrig (1 - r) k then s else (s.extEdge 0 (2 + k) six 0).extEdge 1 (2 + k) six 0

/-- A fired event drives the outputs that select it; a firing during a pulse extends it (R220, R221). -/
def State.driveOutputs (s : State) (r i six : Nat) : State :=
  if s.trigHeld r then s else
  let e := six + s.pulseSix r
  let sel := s.ab (keyTRG r) Reg.TRG_OUT_CFG.EN && decide (s.af (keyTRG r) Reg.TRG_OUT_CFG.SEL = i)
  let s :=
    if sel then
      let s := if (s.trigOut r).outEnd.isNone then s.emit (.trigOut r six (s.trigLevel r true)) else s
      s.modTrigOut r fun o => { o with outEnd := some e }
    else s
  (List.range 4).foldl (fun s k =>
    if (s.xtrigSel r k).1 ∧ (s.xtrigSel r k).2 = i then
      let s := if s.pullsXtrig r k then s else s.xtrigFalls r k six
      s.modTrigOut r fun o => { o with xtrigEnd := setNth o.xtrigEnd k (some e) }
    else s) s

/-- TRIG_OUT of a region becomes inactive, and its XTRIG drivers are released (R222, R595). -/
def State.holdOutputs (s : State) (r : Nat) : State :=
  let o := s.trigOut r
  let s := if o.outEnd.isSome then s.emit (.trigOut r s.six (s.trigLevel r false)) else s
  let s := (List.range 4).foldl (fun s k => if (nth none o.xtrigEnd k).isSome then s.emit (.xtrig r k s.six false) else s) s
  s.modTrigOut r fun o => { o with outEnd := none, xtrigEnd := [none, none, none, none] }

/-- TRIG_OUT_PULSE_END: the pulses of a region that have reached their width end (R220). -/
def execTrigOutPulseEnd (region : Fin 2) (six : Nat) (s : State) : Res :=
  let r : Nat := region
  let s := s.advanceTo six
  let s :=
    match (s.trigOut r).outEnd with
    | some e =>
      if e ≤ six then (s.modTrigOut r fun o => { o with outEnd := none }).emit (.trigOut r e (s.trigLevel r false)) else s
    | none => s
  .next ((List.range 4).foldl (fun s k =>
    match nth none (s.trigOut r).xtrigEnd k with
    | some e =>
      if e ≤ six then
        (s.modTrigOut r fun o => { o with xtrigEnd := setNth o.xtrigEnd k none }).emit (.xtrig r k e false)
      else s
    | none => s) s)

/-! ### The matrix (R210-R217). -/

/-- Masks A and B and options of an event. -/
def State.evA (s : State) (p e : Nat) : Nat := s.af (keyTRG (p / 3)) (Reg.TRG_EV_SRC_A.SRC (4 * (p % 3) + e))
def State.evB (s : State) (p e : Nat) : Nat := s.af (keyTRG (p / 3)) (Reg.TRG_EV_SRC_B.SRC (4 * (p % 3) + e))
def State.evOp (s : State) (p e : Nat) : Nat := s.af (keyTRG (p / 3)) (Reg.TRG_EV_CFG.OP (4 * (p % 3) + e))
def State.evEn (s : State) (p e : Nat) : Bool := s.ab (keyTRG (p / 3)) (Reg.TRG_EV_CFG.EN (4 * (p % 3) + e))
def State.evSame (s : State) (p e : Nat) : Bool := s.ab (keyTRG (p / 3)) (Reg.TRG_EV_CFG.SAME_SAMPLE_OK (4 * (p % 3) + e))
def State.evWindow (s : State) (p e : Nat) : Nat := s.af (keyTRG (p / 3)) (Reg.TRG_EV_WINDOW (4 * (p % 3) + e))
def State.evHoldoff (s : State) (p e : Nat) : Nat := s.af (keyTRG (p / 3)) (Reg.TRG_EV_HOLDOFF (4 * (p % 3) + e))

/-- Event `e` of pipeline `p`. -/
def State.event (s : State) (p e : Nat) : Event := nth Event.init (s.trig p).events e

/-- Replace an event's state. -/
def State.setEvent (s : State) (p e : Nat) (v : Event) : State :=
  s.modTrig p fun t => { t with events := setNth t.events e v }

/-- TRIG_MASK: bit j stands for the j-th lowest source the event selects (R210). -/
def trigMaskOf (selected present : Nat) : Nat :=
  (((bitsSet selected 20).zip (List.range 20)).filter fun x => nbit present x.1).foldl (fun m x => m + 2 ^ x.2) 0

/-- Sources of a mask with an occurrence at a sample. -/
def Trig.occMask (t : Trig) (mask sample : Nat) : Nat :=
  ((bitsSet mask 20).filter fun n => t.occAt n sample).foldl (fun m n => m + 2 ^ n) 0

/-- The earliest time among the occurrences of a mask at a sample (R216). -/
def Trig.occTime (t : Trig) (mask sample : Nat) : Nat × Nat :=
  match t.occs.filter fun o => decide (o.sample = sample) && nbit mask o.src with
  | [] => (sample, 0)
  | o :: os => os.foldl (fun b x => if x.six * 65536 + x.fine < b.1 * 65536 + b.2 then (x.six, x.fine) else b) (o.six, o.fine)

/-- The conjunction of the states of the A sources at a sample (R211). -/
def Trig.allHigh (t : Trig) (mask sample : Nat) : Bool := (bitsSet mask 20).all fun n => t.stateAt n sample

/-- A fired event: its index in the region, trigger sample, time and TRIG_MASK (R214). -/
structure Firing where
  pipe : Nat
  ev : Nat
  sample : Nat
  six : Nat
  fine : Nat
  mask : Nat
  deriving DecidableEq, Repr

/-- What an event's evaluation at a sample decides (R211-R213, R215): its next state, a firing, a count of HOLDOFF_SUPP
and one of SEQ_EXPIRED. -/
structure EvResult where
  st : EvState
  fired : Option (Nat × (Nat × Nat))
  suppressed : Bool
  expired : Bool
  deriving DecidableEq, Repr

/-- State of an event at a sample, after a holdoff that has passed and a window that has passed. -/
def evAge (st : EvState) (window sample : Nat) : EvState × Bool :=
  match st with
  | .holdoff u => if u ≤ sample then (.idle, false) else (st, false)
  | .armed a => if a + 32 * window < sample then (.idle, true) else (st, false)
  | .idle => (.idle, false)

/-- Evaluate an event at a trigger sample (R211-R213, R215). -/
def evDecide (t : Trig) (op a b window holdoff sample prevSample : Nat) (same : Bool) (st0 : EvState) : EvResult :=
  let aged := evAge st0 window sample
  let inHold := match aged.1 with | .holdoff _ => true | _ => false
  let aOcc := t.occMask a sample
  let bOcc := t.occMask b sample
  let armedBefore := match aged.1 with | .armed x => decide (x < sample) | _ => false
  let cond : Bool :=
    match op with
    | 0 => decide (aOcc ≠ 0)
    | 1 => decide (a ≠ 0) && t.allHigh a sample && !t.allHigh a prevSample
    | _ => (armedBefore && decide (bOcc ≠ 0)) || (same && decide (aOcc ≠ 0) && decide (bOcc ≠ 0))
  let hits : Nat :=
    match op with
    | 0 => aOcc
    | 1 => a
    | _ => bOcc ||| (if same then aOcc else 0)
  if inHold then { st := aged.1, fired := none, suppressed := cond, expired := aged.2 }
  else if cond then
    { st := if holdoff = 0 then .idle else .holdoff (sample + 32 * holdoff),
      fired := some (trigMaskOf (a ||| b) hits, t.occTime hits sample), suppressed := false, expired := aged.2 }
  else
    { st := if op ≠ 0 ∧ op ≠ 1 ∧ aOcc ≠ 0 then .armed sample else aged.1, fired := none, suppressed := false,
      expired := aged.2 }

/-- The next trigger sample of an event: the first, not yet evaluated, at which a selected source has an occurrence or
changes state. -/
def State.nextSample (s : State) (p e : Nat) : Option Nat :=
  let t := s.trig p
  let src := s.evSources p e
  let from0 := (s.event p e).from0
  let xs := ((t.occs.filter fun o => nbit src o.src).map (·.sample)) ++
    ((t.changes.filter fun c => nbit src c.src && c.on).map (·.sample))
  match xs.filter fun x => decide (from0 ≤ x) with
  | [] => none
  | y :: ys => some (ys.foldl min y)

/-- All selected sources are external (R217). -/
def onlyExternal (src : Nat) : Bool := (bitsSet src 20).all fun n => decide (12 ≤ n ∧ n ≤ 18)

/-- The instant an event is evaluated: t + Λ, or 12 ns after the first edge when all its sources are external (R217). -/
def State.evalInstant (s : State) (p e sample : Nat) : Nat :=
  if onlyExternal (s.evSources p e) then
    (match ((s.trig p).occs.filter fun o => decide (o.sample = sample) && nbit (s.evSources p e) o.src).map (·.at0) with
     | [] => sample
     | y :: ys => ys.foldl min y) + extLatency
  else sample + s.evLatency p e

/-- Drop occurrences and superseded changes that every event has evaluated. -/
def Trig.prune (t : Trig) : Trig :=
  let m := (t.events.map (·.from0)).foldl min (match t.events with | [] => 0 | v :: _ => v.from0)
  { t with occs := t.occs.filter fun o => decide (m ≤ o.sample + 1) }

/-- Evaluate an event at its next trigger sample; what it fires is handed to the capture writer by the caller
(R214, R217). -/
def State.evEvaluate (s : State) (p e : Nat) : State × Option Firing :=
  match s.nextSample p e with
  | none => (s, none)
  | some x =>
    let r := p / 3
    let i := 4 * (p % 3) + e
    let at0 := s.evalInstant p e x
    let s := s.advanceTo at0
    let t := s.trig p
    let t := if onlyExternal (s.evSources p e) then
      { t with occs := t.occs.filter fun o => !(decide (o.sample = x) && nbit (s.evSources p e) o.src && decide (at0 < o.at0)) }
      else t
    let d := evDecide t (s.evOp p e) (s.evA p e) (s.evB p e) (s.evWindow p e) (s.evHoldoff p e) x (x - s.labelP p)
      (s.evSame p e) (s.event p e).st
    if !s.evEn p e || !s.hasGrid p || !s.isActive (keyTRG r) then (s.setEvent p e { st := .idle, from0 := x + 1 }, none)
    else
      let s := s.setEvent p e { st := d.st, from0 := x + 1 }
      let s := if d.expired then s.count (keyTRG r) (Reg.TRG_EV_LOST.SEQ_EXPIRED i) else s
      let s := if d.suppressed then s.count (keyTRG r) (Reg.TRG_EV_LOST.HOLDOFF_SUPP i) else s
      let s := s.modTrig p Trig.prune
      match d.fired with
      | none => (s, none)
      | some (mask, time) =>
        let s := (s.count (keyTRG r) (Reg.TRG_EV_FIRED i)).irqBit (keyTRG r) (17 + i)
        let s := s.driveOutputs r i at0
        (s, some { pipe := p, ev := e, sample := x, six := time.1, fine := time.2, mask := mask })

/-- The event of a pipeline with the earliest trigger sample before `h` that is not yet evaluated. -/
def State.earliest (s : State) (p h : Nat) : Option Nat :=
  let xs := (List.range 4).filterMap fun e => match s.nextSample p e with | some x => if x < h then some (x, e) else none | none => none
  match xs with
  | [] => none
  | y :: ys => some (ys.foldl (fun a b => if b.1 < a.1 then b else a) y).2

/-- Evaluate the events of a pipeline at every trigger sample before `h`, earliest first, with what they fire (R225). -/
def State.evSettle (p h : Nat) : Nat → State → State × List Firing
  | 0, s => (s, [])
  | n + 1, s =>
    match s.earliest p h with
    | none => (s, [])
    | some e =>
      let six := s.six
      let r := s.evEvaluate p e
      let rest := State.evSettle p h n { r.1 with six := six }
      (rest.1, r.2.toList ++ rest.2)

/-- SEQ_WINDOW_EXPIRY: a SEQUENCE window passes without a B occurrence: IDLE, and SEQ_EXPIRED counts (R211). It falls
after the evaluation of every occurrence inside the window. -/
def execSeqWindowExpiry (pipe : Fin 6) (ev : Fin 4) (s : State) : Res :=
  let p : Nat := pipe
  let e : Nat := ev
  match (s.event p e).st with
  | .armed a =>
    let lim := a + 32 * s.evWindow p e
    match s.nextSample p e with
    | some x => if x ≤ lim then .next s
                else .next ((s.setEvent p e { s.event p e with st := .idle }).count (keyTRG (p / 3))
                       (Reg.TRG_EV_LOST.SEQ_EXPIRED (4 * (p % 3) + e)))
    | none => .next (((s.advanceTo (lim + s.evLatency p e)).setEvent p e { s.event p e with st := .idle }).count
                (keyTRG (p / 3)) (Reg.TRG_EV_LOST.SEQ_EXPIRED (4 * (p % 3) + e)))
  | _ => .next s

/-- HOLDOFF_END: a trigger sample reaches t + 32 × HOLDOFF, and the event returns to IDLE (R213). It falls after the evaluation of every
earlier sample. -/
def execHoldoffEnd (pipe : Fin 6) (ev : Fin 4) (s : State) : Res :=
  let p : Nat := pipe
  let e : Nat := ev
  match (s.event p e).st with
  | .holdoff u =>
    if (match s.nextSample p e with | some x => decide (x < u) | none => false) then .next s
    else .next ((s.advanceTo (u + s.evLatency p e)).setEvent p e { s.event p e with st := .idle, from0 := max (s.event p e).from0 u })
  | _ => .next s

/-! ### Commits of the trigger pages (R224, R226, R228-R230). -/

/-- The staged checks of CTR: an enabled slot's range must fit N (R198); the second pipeline of a gang is governed. -/
def State.ctrCheck (s : State) (p : Nat) : Option (Nat × Nat) :=
  let k := keyCTR p
  if s.gangedSecond p then some (codeSTATE, 0x05)
  else if (List.range 8).any fun m => s.rb k (Reg.CTR_MASK_CFG.EN m) &&
      decide (s.fftN p < s.rf k (Reg.CTR_MASK_BINS.FIRST m) + s.rf k (Reg.CTR_MASK_BINS.COUNT_M1 m) + 1)
    then some (codeRANGE, 0x03)
  else none

/-- The staged checks of TTR. -/
def State.ttrCheck (s : State) (p : Nat) : Option (Nat × Nat) :=
  if s.gangedSecond p then some (codeSTATE, 0x04) else none

/-- Number of set bits of a mask of 20 sources. -/
def sourceCount (m : Nat) : Nat := (bitsSet m 20).length

/-- A staged word of an event differs from the applied one. -/
def State.evChanged (s : State) (r i : Nat) : Bool :=
  (List.range 5).any fun j => decide (s.reg (keyTRG r) (0x200 + 0x20 * i + 4 * j) ≠ s.areg (keyTRG r) (0x200 + 0x20 * i + 4 * j))

/-- The first broken rule of a staged enabled event (R210, R211, R226). -/
def State.evCheck (s : State) (r i : Nat) : Option (Nat × Nat) :=
  let k := keyTRG r
  let a := s.rf k (Reg.TRG_EV_SRC_A.SRC i)
  let b := s.rf k (Reg.TRG_EV_SRC_B.SRC i)
  let seq := decide (s.rf k (Reg.TRG_EV_CFG.OP i) = 2)
  if s.gangedSecond (3 * r + i / 4) && s.evChanged r i then some (codeSTATE, 0x06)
  else if !s.rb k (Reg.TRG_EV_CFG.EN i) then none
  else if 16 < sourceCount (a ||| b) then some (codeRANGE, 0x03)
  else if a = 0 ∨ (!seq && decide (b ≠ 0)) then some (codeRANGE, 0x04)
  else if seq && decide (s.rf k (Reg.TRG_EV_WINDOW i) = 0) then some (codeRANGE, 0x07)
  else none

/-- The staged checks of TRG: the first event that breaks a rule. -/
def State.trgCheck (s : State) (r : Nat) : Option (Nat × Nat) := (List.range 12).findSome? (s.evCheck r)

/-- CTR_COMMIT_AT (R228). -/
def execCtrCommitAt (who : Issuer) (pipe : Fin 6) (tag : Nat) (s : State) : Res :=
  let key := keyCTR pipe
  .next (s.command who key 0x0100 tag fun s op => s.commitAt key op (fun s => s.ctrCheck pipe))

/-- TTR_COMMIT_AT (R229). -/
def execTtrCommitAt (who : Issuer) (pipe : Fin 6) (tag : Nat) (s : State) : Res :=
  let key := keyTTR pipe
  .next (s.command who key 0x0100 tag fun s op => s.commitAt key op (fun s => s.ttrCheck pipe))

/-- TRG_COMMIT_AT (R230). -/
def execTrgCommitAt (who : Issuer) (region : Fin 2) (tag : Nat) (s : State) : Res :=
  let key := keyTRG region
  .next (s.command who key 0x0100 tag fun s op => s.commitAt key op (fun s => s.trgCheck region))

/-- The label from which a pipeline's triggers see an apply or reset at an index. -/
def State.labelAt (s : State) (p six : Nat) : Nat := ceilTo (s.labelP p) six

/-- Apply CTR words: the slots whose registers changed restart (R224). -/
def State.ctrApply (s : State) (p : Nat) (a : PendApply) : State :=
  let k := keyCTR p
  let changed := (List.range 8).filter fun m =>
    (List.range 3).any fun j => decide (s.areg k (0x200 + 0x10 * m + 4 * j) ≠ a.word k (0x200 + 0x10 * m + 4 * j))
  let s := s.applyWords k a.words
  (changed.foldl (fun s m => s.slotClear p m (s.labelAt p a.due)) s).mirrorGang p

/-- Apply TTR words: the units whose registers changed restart (R224). -/
def State.ttrApply (s : State) (p : Nat) (a : PendApply) : State :=
  let k := keyTTR p
  let changed := (List.range 4).filter fun m =>
    (List.range 3).any fun j => decide (s.areg k (0x200 + 0x10 * m + 4 * j) ≠ a.word k (0x200 + 0x10 * m + 4 * j))
  let s := s.applyWords k a.words
  (changed.foldl (fun s m => s.tdDisarm p m (s.labelAt p a.due)) s).mirrorGang p

/-- Apply TRG words: the events whose registers changed return to IDLE (R215, R224). -/
def State.trgApply (s : State) (r : Nat) (a : PendApply) : State :=
  let k := keyTRG r
  let changed := (List.range 12).filter fun i =>
    (List.range 5).any fun j => decide (s.areg k (0x200 + 0x20 * i + 4 * j) ≠ a.word k (0x200 + 0x20 * i + 4 * j))
  let rest := (s.trigOut r).outEnd.isSome
  let was := s.trigLevel r rest
  let s := s.applyWords k a.words
  let s := if s.trigLevel r rest = was then s else s.emit (.trigOut r s.six (s.trigLevel r rest))
  let s := changed.foldl (fun s i =>
    let p := 3 * r + i / 4
    s.setEvent p (i % 4) { st := .idle, from0 := max (s.event p (i % 4)).from0 (s.labelAt p a.due) }) s
  (List.range 3).foldl (fun s j => s.refreshLatency (3 * r + j)) s

/-- TRIGGER_APPLY: the staged registers of a CTR, TTR or TRG page apply at their index; with nothing staged nothing does (R224, R619). -/
def execTriggerApply (region : Fin 2) (page : Fin 1024) (s : State) : Res :=
  let key := keyOf (1 + region) page
  match s.pendOf key with
  | none => .next s
  | some a =>
    let p := pipeOfKey key
    let go (s : State) : State := ((s.setCfg key 0).irqBit key 16).endCommit key a.due
    let s0 := (s.advanceTo a.due).clearPend key
    if a.empty then .next (s.passCommit key a)
    else
    match blockOf key with
    | .ctr => .next (go (s0.ctrApply p a))
    | .ttr => .next (go (s0.ttrApply p a))
    | .trg => .next (go (s0.trgApply region a))
    | _ => .next s

/-- A synchronising reset or STOP of the sources: slots NOHIST, units UNARMED, events IDLE; occurrences not yet
evaluated are kept from the index on when SIX keeps its numbering, and discarded otherwise (R215, R223). -/
def State.trigReset (s : State) (p six : Nat) (loads : Bool) : State :=
  let l := s.labelAt p six
  let s := s.slotsClear p l
  let s := (List.range 4).foldl (fun s n => s.tdDisarm p n l) s
  s.modTrig p fun t =>
    { t with occs := if loads then [] else t.occs.filter (fun o => decide (six ≤ o.sample)),
             changes := if loads then [] else t.changes,
             events := t.events.map fun _ => { st := .idle, from0 := if loads then 0 else l } }

end Sys2Proof.Machine
end

