-- ==== Sys2Proof/Machine/Capture.lean ====
section
/-! DEFINITION. Capture writers (R231-R265): the continuous ring and its reduction planes, sheets, protection and
overflow, record planes, and the records the sheet service cuts. -/

namespace Sys2Proof.Machine

/-! ### Registers of the writer. -/

def wrIDLE : Nat := 0
def wrRUNNING : Nat := 1
def wrSTOPPED : Nat := 2
def wrSUSPENDED : Nat := 3

/-- CAP_STAT.WR_STATE. -/
def State.wrState (s : State) (p : Nat) : Nat := s.rf (keyCAP p) Reg.CAP_STAT.WR_STATE

/-- Enter a writer state. -/
def State.wrEnter (s : State) (p n : Nat) : State := s.wf (keyCAP p) Reg.CAP_STAT.WR_STATE n

/-- CAP_WC and EPOCH_WC. -/
def State.capWc (s : State) (p : Nat) : Nat := s.pair (keyCAP p) 0x128
def State.epochWc (s : State) (p : Nat) : Nat := s.pair (keyCAP p) 0x15C

/-- EPOCH_SIX. -/
def State.epochSix (s : State) (p : Nat) : Nat := s.six3 (keyCAP p) 0x150

/-- Ring length L in samples (R232). -/
def State.ringL (s : State) (p : Nat) : Nat := s.af (keyCAP p) Reg.CAP_RING_LEN.LEN_K * 1024

/-- An address in a pair of LO and HI registers, applied (R264). -/
def State.baseAddr (s : State) (key off : Nat) : Nat :=
  wget (s.areg key off) 31 12 * 4096 + wget (s.areg key (off + 4)) 15 0 * 2 ^ 32

/-- The oldest protected sheet not released. -/
def State.oldestProtected (s : State) (p : Nat) : Option Sheet :=
  (s.capture p).sheets.find? fun h => h.protect && !h.released

/-- PROT_WC: START_WC of the oldest protected sheet, else CAP_WC (R249). -/
def State.protWc (s : State) (p : Nat) : Nat :=
  match s.oldestProtected p with
  | some h => h.startWc
  | none => s.capWc p

/-- Refresh the registers that follow from the sheet table (R246, R249). -/
def State.refreshCap (s : State) (p : Nat) : State :=
  let k := keyCAP p
  let s := s.setPair k 0x130 (s.protWc p)
  let s := s.wb k Reg.CAP_STAT.PROTECTED (s.oldestProtected p).isSome
  s.wf k Reg.CAP_STAT.USED (s.capture p).sheets.length

/-! ### Legends (R254-R258). -/

/-- The 64 bytes of a legend; records in capture memory carry SEQ 0 and CRC 0. -/
def State.legendBytes (s : State) (r : Record) (task seq crc flags payloadBytes : Nat) : List Byte :=
  let t := s.legendTime r.six r.fine
  leBytes 0x474C 2 ++ leBytes 1 1 ++ leBytes r.kind 1 ++ leBytes flags 4 ++ leBytes task 4 ++ leBytes r.source 2 ++
    leBytes r.trigMask 2 ++ leBytes r.six 8 ++ leBytes (r.six / 2 ^ 64 % 256) 1 ++ leBytes 0 1 ++ leBytes r.fine 2 ++
    leBytes t.1 4 ++ leBytes t.2 8 ++ leBytes r.pre 4 ++ leBytes r.post 4 ++ leBytes seq 8 ++ leBytes payloadBytes 4 ++
    leBytes crc 4

/-- A record as capture memory holds it. -/
def State.recordBytes (s : State) (r : Record) : List Byte :=
  s.legendBytes r r.task 0 0 r.flags r.payload.length ++ r.payload

/-- The GAP record of lost samples or records (R261). -/
def gapRecord (task source six lost resume unit reason plane labelP : Nat) : Record :=
  { kind := 8, flags := 0, task := task, source := source, trigMask := 0, six := six, fine := 0, pre := 0, post := 0,
    payload := leBytes lost 8 ++ leBytes resume 8 ++ leBytes (resume / 2 ^ 64 % 256) 1 ++ leBytes unit 1 ++
      leBytes reason 1 ++ leBytes plane 1 ++ leBytes labelP 4 }

/-- A record is ready at its source (R452). -/
def State.addReady (s : State) (src : RecSource) (r : Record) : State :=
  { s with readyRecs := s.readyRecs ++ [{ from0 := src, record := r }] }

/-! ### Sheets (R241-R248). -/

/-- The 32 bytes of a sheet entry (R248). -/
def sheetBytes (h : Sheet) : List Byte :=
  leBytes h.six 8 ++ leBytes (h.six / 2 ^ 64 % 256) 1 ++
    leBytes (h.ev % 16 + boolNat h.protect * 16 + boolNat h.shortPre * 32 + boolNat h.overlap * 64 + boolNat h.ready * 128) 1 ++
    leBytes h.fine 2 ++ leBytes h.mask 2 ++ leBytes h.missed 2 ++ leBytes h.startWc 8 ++ leBytes h.pre 4 ++ leBytes h.post 4

/-- Write entry `n` of the sheet table (R246). -/
def State.writeSheet (s : State) (p n : Nat) (h : Sheet) : State :=
  s.writeMem (s.baseAddr (keyCAP p) 0x148 + n % 4096 * 32) (sheetBytes h)

/-- The epoch in which a trigger sample lies: the open one, or the one before it, with the write count after that (R242). -/
def State.epochOf (s : State) (p t : Nat) : Option EpochSpan :=
  let c := s.capture p
  if !c.newEpoch ∧ s.epochSix p ≤ t ∧ c.epochP ≠ 0 then
    some { six := s.epochSix p, wc := s.epochWc p, labelP := c.epochP, decim := s.decim p, endWc := 2 ^ 64 }
  else c.prevEpoch.filter fun e => decide (e.six ≤ t) && decide (e.wc + (t - e.six) / e.labelP < e.endWc)

/-- A firing or a chunk that gets no sheet counts as missed (R247). -/
def State.missSheet (s : State) (p : Nat) : State :=
  (s.count (keyCAP p) Reg.CAP_MISSED).modCapture p fun c => { c with missed := c.missed + 1 }

/-- Append a sheet: the table has room, else it is missed (R246, R247). -/
def State.appendSheet (s : State) (p : Nat) (h : Sheet) : State :=
  if 4096 ≤ (s.capture p).sheets.length then s.missSheet p
  else
    let k := keyCAP p
    let n := s.rf k Reg.CAP_SHEET_TAIL
    let h := { h with missed := min 65535 (s.capture p).missed, protect := s.ab k Reg.CAP_CFG.PROTECT }
    let s := s.modCapture p fun c => { c with sheets := c.sheets ++ [h], missed := 0 }
    ((s.wf k Reg.CAP_SHEET_TAIL (n + 1)).writeSheet p n h).refreshCap p

/-- The converter that fed a chain at a label. -/
def State.srcAt (s : State) (p label : Nat) : Nat :=
  match (s.chain p).flat.find? fun f => decide (f.from0 ≤ label) with
  | some f => f.conv
  | none => (s.chainSrc p).getD 0xF

/-- Origin of a record whose first sample has a label of the present epoch (R259). -/
def State.originAt (s : State) (p label : Nat) : SheetOrigin :=
  { first := label, labelP := (s.capture p).epochP, decim := s.decim p, bonded := s.bonded p,
    ftw := s.apair (keyDDC p) 0x108 % 2 ^ 48, src := s.srcAt p label }

/-- The converter of a sample of a record whose earlier samples are lost. -/
def State.srcFrom (s : State) (p w : Nat) (o : SheetOrigin) : Nat :=
  if s.epochWc p ≤ w then s.srcAt p (s.epochSix p + (w - s.epochWc p) * (s.capture p).epochP) else o.src

/-- Two ranges of write counts share samples (R245). -/
def rangesMeet (a b : Nat × Nat) : Bool := decide (a.1 < b.2) && decide (b.1 < a.2)

/-- SHEET_APPEND: at the release of a selected event the writer appends a sheet, waits for pre-fill, or counts it as
missed (R241-R247). -/
def State.sheetEvent (s : State) (f : Firing) : State :=
  let p := f.pipe
  let k := keyCAP p
  if !nbit (s.af k Reg.CAP_CFG.SHEET_EV) f.ev || decide (s.af k Reg.CAP_CFG.FORMAT = 0) || decide (s.wrState p = wrIDLE) then s
  else match (if s.wrState p ≠ wrRUNNING ∨ (s.page k).st = .frozen then none else s.epochOf p f.sample) with
  | none => s.missSheet p
  | some e =>
    let wt := e.wc + (f.sample - e.six) / e.labelP
    let want := s.af k Reg.CAP_PRE_LEN
    let have_ := wt - e.wc
    if have_ < want ∧ s.ab k Reg.CAP_CFG.PRE_FILL then s.count k Reg.CAP_PREFILL_WAIT
    else
      let pre := min want have_
      let post := min (s.af k Reg.CAP_POST_LEN) (e.endWc - wt)
      let range := (wt - pre, wt + post)
      let overlap := match (s.capture p).prevRange with | some r => rangesMeet r range | none => false
      let full := decide (4096 ≤ (s.capture p).sheets.length)
      let s := s.appendSheet p
        { ev := 4 * (p % 3) + f.ev, six := f.six, fine := f.fine, mask := f.mask, missed := 0, startWc := wt - pre, pre := pre,
          post := post, protect := false, shortPre := decide (have_ < want), overlap := overlap, ready := false,
          released := false, cut := false,
          origin := { s.originAt p (f.sample - pre * e.labelP) with labelP := e.labelP, decim := e.decim } }
      if full then s else s.modCapture p fun c => { c with prevRange := some range }

/-- EVENT_EVAL: the matrix evaluates an event at its next trigger sample, t + Λ, and releases its actions: outputs,
interrupt, count and sheet (R211-R217, R241). -/
def execEventEval (pipe : Fin 6) (ev : Fin 4) (s : State) : Res :=
  match s.evEvaluate pipe ev with
  | (s, some f) => .next (s.sheetEvent f)
  | (s, none) => .next s

/-- The first sheet that is not READY and whose last sample has been written. -/
def readyIndex (wc : Nat) : List Sheet → Nat → Option Nat
  | [], _ => none
  | h :: hs, i => if !h.ready && decide (h.startWc + h.pre + h.post ≤ wc) then some i else readyIndex wc hs (i + 1)

/-- The oldest sheet whose last sample is written becomes READY (R246). -/
def State.sheetReady (s : State) (p : Nat) : State :=
  let k := keyCAP p
  match readyIndex (s.capWc p) (s.capture p).sheets 0 with
  | none => s
  | some i =>
    match (s.capture p).sheets[i]? with
    | none => s
    | some h =>
      let h := { h with ready := true }
      let s := s.modCapture p fun c => { c with sheets := setNth c.sheets i h }
      (s.writeSheet p (s.rf k Reg.CAP_SHEET_HEAD + i) h).irqBit k 17

/-- SHEET_READY: after the record's last sample the sheet is rewritten with READY and its final POST_LEN (R246). -/
def execSheetReady (pipe : Fin 6) (s : State) : Res := .next (s.sheetReady pipe)

/-- The next sample of a new epoch fits: PROT_WC has moved far enough (R251). -/
def State.spaceFree (s : State) (p : Nat) : Bool :=
  !(s.oldestProtected p).isSome || decide (ceilTo 1024 (s.capWc p) < s.protWc p + s.ringL p)

/-- Free the run of released entries at HEAD (R246). -/
def State.advanceHead (s : State) (p : Nat) : State :=
  let n := ((s.capture p).sheets.takeWhile (·.released)).length
  let k := keyCAP p
  let s := ((s.modCapture p fun c => { c with sheets := c.sheets.drop n }).wf k Reg.CAP_SHEET_HEAD
    (s.rf k Reg.CAP_SHEET_HEAD + n)).refreshCap p
  if s.wrState p = wrSTOPPED ∧ s.spaceFree p ∧ (s.capture p).freedAt = none then s.modCapture p fun c => { c with freedAt := some s.six } else s

/-- Release the sheet at position `i` of the table. -/
def State.releaseAt (s : State) (p i : Nat) : State :=
  match (s.capture p).sheets[i]? with
  | some h => (s.modCapture p fun c => { c with sheets := setNth c.sheets i { h with released := true } }).advanceHead p
  | none => s

/-- RELEASE_SHEET: frees entry ARG0, whose START_WC must match ARG1 and which must be READY (R246, R264). -/
def execReleaseSheet (who : Issuer) (pipe : Fin 6) (tag : Nat) (s : State) : Res :=
  let key := keyCAP pipe
  let p : Nat := pipe
  .next (s.command who key 0x0100 tag fun s op =>
    if s.gangedSecond p then s.rejectOp key op codeSTATE 0x06
    else
      let i := (op.a0 + 2 ^ 32 - s.rf key Reg.CAP_SHEET_HEAD) % 2 ^ 32
      match (s.capture p).sheets[i]? with
      | none => s.rejectOp key op codeSTATE 0x04
      | some h =>
        if h.startWc % 2 ^ 32 ≠ op.a1 ∨ !h.ready then s.rejectOp key op codeSTATE 0x04
        else if h.released then (s.accept key op).doneOp key
        else ((s.accept key op).releaseAt p i).doneOp key)

/-! ### Epochs (R233, R250, R251, R262). -/

/-- Bytes of one sample and of its address in the ring (R234). -/
def sampleBytes (format : Nat) : Nat := if format = 2 then 3 else 4

/-- Round a component from 16 to 12 bits half up and saturate; whether it saturated (R234). -/
def round12 (x : Int) : Int × Bool :=
  let r := (x + 8) / 16
  if r > 2047 then (2047, true) else if r < -2048 then (-2048, true) else (r, false)

/-- √n rounded half up (R237). -/
def roundSqrt (n : Nat) : Nat :=
  let r := isqrt n
  if n - r * r > r then r + 1 else r

/-- The MARK entry of a write count (R237). -/
def State.markAddr (s : State) (p w : Nat) : Nat := s.baseAddr (keyCAP p) 0x11C + w / 64 % (s.ringL p / 64)

/-- End the open epoch: its last granule is marked EPOCH_END, and sheets not READY end at the last sample written
(R238, R250, R262). -/
def State.endEpoch (s : State) (p : Nat) : State :=
  let wc := s.capWc p
  let open_ := !(s.capture p).newEpoch && decide (s.epochWc p < wc) && decide (s.af (keyCAP p) Reg.CAP_CFG.FORMAT ≠ 0)
  let s := if open_ then
      s.writeMem (s.markAddr p (wc - 1)) [BitVec.ofNat 8 ((s.readByte (s.markAddr p (wc - 1))).toNat ||| markEPOCH_END)]
    else s
  let span : EpochSpan :=
    { six := s.epochSix p, wc := s.epochWc p, labelP := (s.capture p).epochP, decim := s.decim p, endWc := wc }
  s.modCapture p fun c =>
    { c with prevEpoch := if open_ then some span else c.prevEpoch,
             prevRange := c.prevRange.map fun r => (r.1, min r.2 wc),
             sheets := c.sheets.map fun h =>
               if !h.ready && decide (wc < h.startWc + h.pre + h.post) then
                 { h with startWc := min h.startWc wc, pre := min h.pre (wc - h.startWc), post := wc - (h.startWc + h.pre) }
               else h }

/-- Ask for a new epoch with the next sample. -/
def State.wantEpoch (s : State) (p : Nat) : State := s.modCapture p fun c => { c with newEpoch := true }

/-- START: the writer runs, in a new epoch (R262). -/
def State.capStart (s : State) (p : Nat) : State :=
  ((s.wrEnter p wrRUNNING).wantEpoch p).modCapture p fun c => { c with prevEpoch := none }

/-- The first label lost when the writer stops taking samples now. -/
def State.nextWriteLabel (s : State) (p : Nat) : Nat :=
  match (s.chain p).fifo with
  | c :: _ => c.label
  | [] => (s.chain p).nextLabel

/-- The epoch of a writer that is being suspended ends now; what it has not written is lost (R262). -/
def State.pauseEnd (s : State) (p : Nat) : State :=
  if (s.capture p).pauseAt.isSome then
    (s.endEpoch p).modCapture p fun c => { c with pauseAt := none, gap := c.gap.map fun g => { g with six := s.nextWriteLabel p } }
  else s

/-- A running writer is frozen, and its epoch ends at once, or suspended (`reason` 2), and its epoch ends at the next frame boundary;
a GAP will tell the samples lost (R262). -/
def State.capPause (s : State) (p reason : Nat) : State :=
  if s.wrState p = wrRUNNING then
    let s := (s.wrEnter p wrSUSPENDED).modCapture p fun c =>
      { c with pauseAt := some (ceilTo 32 s.six), gap := some { reason := reason, six := s.nextWriteLabel p } }
    if reason = 2 then s else s.pauseEnd p
  else s.pauseEnd p

/-- The writer runs again after a suspension or a freeze (R262). -/
def State.capResume (s : State) (p reason : Nat) : State :=
  let s := s.pauseEnd p
  match (s.capture p).gap with
  | some g => if s.wrState p = wrSUSPENDED ∧ g.reason = reason then (s.wrEnter p wrRUNNING).wantEpoch p else s
  | none => s

/-- STOP: the writer is IDLE, and sheets not READY end at the last written sample (R262). -/
def State.capStop (s : State) (p : Nat) : State :=
  if s.wrState p = wrIDLE then s
  else ((s.endEpoch p).wrEnter p wrIDLE).modCapture p fun c =>
    { c with gap := none, resumeAt := none, freedAt := none, pauseAt := none, newEpoch := false }

/-- The GAP record of an open gap, before the first sample after it (R251, R261). -/
def State.closeGap (s : State) (p label : Nat) : State :=
  match (s.capture p).gap with
  | none => s
  | some g =>
    let lp := s.labelP p
    let lost := (label - g.six) / lp
    let s := if g.reason = 1 then s.setPair (keyCAP p) 0x170 (s.pair (keyCAP p) 0x170 + lost) else s
    let task := s.ownerTask p 2
    let s := s.modCapture p fun c => { c with gap := none, gapFlag := true }
    if task = 0 then s
    else s.addReady .none (gapRecord task (sourceOf p 0xFF) g.six lost label 0 g.reason 0 lp)

/-- EPOCH_START: WC rounds up to a multiple of 1,024; EPOCH_SIX and EPOCH_WC are recorded (R233). -/
def State.beginEpoch (s : State) (p label : Nat) : State :=
  let k := keyCAP p
  let wc := ceilTo 1024 (s.capWc p)
  let s := s.closeGap p label
  let s := ((s.setPair k 0x128 wc).setPair k 0x15C wc).setSix3 k 0x150 label
  s.modCapture p fun c =>
    { c with newEpoch := false, epochP := s.labelP p, marks := 0, envMin := none, envMax := 0,
             powSum := 0, powN := 0, resumeAt := none }

/-- A new epoch begins now when one is owed. -/
def State.epochIfOwed (s : State) (p label : Nat) : State := if (s.capture p).newEpoch then s.beginEpoch p label else s

/-! ### Samples (R232-R238, R244, R249-R252). -/

/-- A sheet that loses its protection to an overwrite (R252). -/
def unprotectFirst : List Sheet → List Sheet
  | [] => []
  | h :: hs => if h.protect && !h.released then { h with protect := false } :: hs else h :: unprotectFirst hs

/-- The oldest protected sheet loses PROTECT, in the table too, and is counted (R252). -/
def State.unprotect (s : State) (p : Nat) : State :=
  let i := (s.capture p).sheets.findIdx fun h => h.protect && !h.released
  let s := s.modCapture p fun c => { c with sheets := unprotectFirst c.sheets }
  let s := match (s.capture p).sheets[i]? with
    | some h => s.writeSheet p (s.rf (keyCAP p) Reg.CAP_SHEET_HEAD + i) h
    | none => s
  (s.count (keyCAP p) Reg.CAP_OVERWRITTEN).refreshCap p

/-- OVERWRITE_OLDEST: clear protection of the oldest protected sheet until the sample fits (R252). -/
def State.overwrite (s : State) (p w : Nat) : Nat → State
  | 0 => s
  | fuel + 1 =>
    if (s.oldestProtected p).isSome ∧ s.protWc p + s.ringL p ≤ w then State.overwrite (s.unprotect p) p w fuel else s

/-- WRITER_STOP: the writer stops before the sample, whose label is the stop index (R250). -/
def State.writerStop (s : State) (p label : Nat) : State :=
  let k := keyCAP p
  let s := ((s.endEpoch p).wrEnter p wrSTOPPED).setSix3 k 0x164 label
  let s := s.modCapture p fun c => { c with gap := some { reason := 1, six := label }, pauseAt := none, freedAt := none }
  (s.irqBit k 18).setErrLogged k 16

/-- The chunk sheet whose first sample has just been written at write count `w` (R244). -/
def State.chunkSheet (s : State) (p w label : Nat) : State :=
  let k := keyCAP p
  let c := s.af k Reg.CAP_CHUNK
  if s.ab k Reg.CAP_CFG.CHUNK_EN ∧ c ≠ 0 ∧ (w - s.epochWc p) % c = 0 then
    s.appendSheet p { ev := 0xF, six := label, fine := 0, mask := 0, missed := 0, startWc := w, pre := 0, post := c, protect := false,
                      shortPre := false, overlap := false, ready := false, released := false, cut := false,
                      origin := s.originAt p label }
  else s

/-- Write one sample into the ring and the sample planes at write count `w` (R232, R234, R237, R238). -/
def State.storeSample (s : State) (p w : Nat) (c : ChainSample) : State :=
  let k := keyCAP p
  let fmt := s.af k Reg.CAP_CFG.FORMAT
  let l := s.ringL p
  let slot := s.baseAddr k 0x104 + sampleBytes fmt * (w % l)
  let ri := round12 c.i
  let rq := round12 c.q
  let marks := if fmt = 2 ∧ (ri.2 || rq.2) then c.marks ||| markSATURATED else c.marks
  let marks := if s.handedAt p c.label then marks ||| markMIGRATED else marks
  let s := if fmt = 2 then s.writeMem slot (leBytes (unsignedOf 12 ri.1 + unsignedOf 12 rq.1 * 4096) 3)
           else s.writeMem slot (leBytes (unsignedOf 16 c.i) 2 ++ leBytes (unsignedOf 16 c.q) 2)
  let acc := s.capture p
  let first := decide (w % 64 = 0)
  let m := if first then marks else acc.marks ||| marks
  let s := s.writeMem (s.markAddr p w) [BitVec.ofNat 8 m]
  let mag := roundSqrt c.power
  let lo := if first then mag else (match acc.envMin with | some v => min v mag | none => mag)
  let hi := if first then mag else max acc.envMax mag
  let s := if s.ab (keyRED p) Reg.RED_CFG.ENV_EN && s.isActive (keyRED p) then
      s.writeMem (s.baseAddr (keyRED p) 0x104 + w / 64 % (l / 64) * 4) (leBytes lo 2 ++ leBytes hi 2) else s
  let sum := if w % 1024 = 0 then c.power else acc.powSum + c.power
  let n := if w % 1024 = 0 then 1 else acc.powN + 1
  let s := if s.ab (keyRED p) Reg.RED_CFG.POW_EN && s.isActive (keyRED p) then
      s.writeMem (s.baseAddr (keyRED p) 0x10C + w / 1024 % (l / 1024) * 4) (leBytes ((2 * sum + n) / (2 * n)) 4) else s
  s.modCapture p fun a =>
    { a with marks := m, envMin := some lo, envMax := hi, powSum := sum, powN := n }

/-- The writer takes a sample: it begins an owed epoch, applies protection, and commits the sample and its reductions at its write
count (R232-R238, R244, R249-R252). -/
def State.writeSample (s : State) (p : Nat) (c : ChainSample) : State :=
  let k := keyCAP p
  let s := s.epochIfOwed p c.label
  if s.af k Reg.CAP_CFG.FORMAT = 0 then s
  else
    let w := s.capWc p
    let s := if s.ab k Reg.CAP_CFG.POLICY then s.overwrite p w 4096 else s
    if (s.oldestProtected p).isSome ∧ s.protWc p + s.ringL p ≤ w then s.writerStop p c.label
    else
      let s := s.storeSample p w c
      let s := s.setPair k 0x128 (w + 1)
      (s.chunkSheet p w c.label).refreshCap p

/-- The next chain output reaches the writer, which takes it while it runs, and while it is being suspended up to the boundary; one
that does not run drops and counts it (R49, R251, R262). -/
def State.captureSample (s : State) (p : Nat) : State :=
  match (s.chain p).fifo with
  | [] => s
  | c :: rest =>
    let s := s.modChain p fun h => { h with fifo := rest }
    let early := match (s.capture p).resumeAt with | some r => decide (c.label < r) | none => false
    match (s.capture p).pauseAt with
    | some b => if c.label < b ∧ early = false then s.writeSample p c
                else ((s.pauseEnd p).modCapture p fun h => { h with gap := h.gap.map fun g => { g with six := c.label } }).countDropped (keyCAP p) 1
    | none => if s.wrState p ≠ wrRUNNING ∨ early = true then s.countDropped (keyCAP p) 1 else s.writeSample p c

/-- CAPTURE_SAMPLE (R235). -/
def execCaptureSample (pipe : Fin 6) (s : State) : Res := .next (s.captureSample pipe)

/-- A DECIM apply, or a synchronising reset that loads SIX, starts a new epoch of a running writer; samples that the chain has emitted
before belong to the old one (R233, R262). -/
def State.capNewEpoch (s : State) (p : Nat) : State :=
  if s.wrState p = wrRUNNING then
    ((s.each (List.range (s.chain p).fifo.length) fun s _ => s.captureSample p).endEpoch p).wantEpoch p
  else s

/-- Take a stopped writer back to RUNNING: it restarts at the first label that is a multiple of 32 and of P at least
4,096 SIX after an index, in a new epoch (R251). -/
def State.writerResume (s : State) (p at0 : Nat) : State :=
  let r := ceilTo (max 32 (s.labelP p)) (at0 + 4096)
  (((s.wrEnter p wrRUNNING).wantEpoch p).modCapture p fun c => { c with resumeAt := some r, freedAt := none }).irqBit (keyCAP p) 19

/-- RESTART: leaves STOPPED when space is free (R251, R262, R264). -/
def execRestart (who : Issuer) (pipe : Fin 6) (tag : Nat) (s : State) : Res :=
  let key := keyCAP pipe
  let p : Nat := pipe
  .next (s.command who key 0x0101 tag fun s op =>
    if s.gangedSecond p then s.rejectOp key op codeSTATE 0x06
    else if s.wrState p ≠ wrSTOPPED then s.rejectOp key op codeSTATE 0x07
    else if !s.spaceFree p then s.rejectOp key op codeNOSPACE 0x03
    else ((s.accept key op).writerResume p s.six).doneOp key)

/-- WRITER_AUTO_RESUME: with AUTO_RESUME, a stopped writer resumes once a release has freed space (R251). -/
def execWriterAutoResume (pipe : Fin 6) (s : State) : Res :=
  let p : Nat := pipe
  if s.wrState p = wrSTOPPED ∧ s.ab (keyCAP p) Reg.CAP_CFG.AUTO_RESUME ∧ s.spaceFree p ∧ s.isActive (keyCAP p) then
    .next (s.writerResume p ((s.capture p).freedAt.getD s.six))
  else .next s

/-! ### Record planes (R239, R240). -/

/-- Record plane length in 64-byte units. -/
def State.planeLen (s : State) (p n : Nat) : Nat := s.af (keyRED p) (Reg.RED_RP_LEN.PAGES n) * 64

/-- Units a record takes. -/
def recordUnits (r : Record) : Nat := (64 + r.payload.length + 63) / 64

/-- Write bytes into a record plane from an offset in 64-byte units, wrapping at its length. -/
def State.planeBytes (s : State) (p n off : Nat) (bs : List Byte) : State :=
  let base := s.baseAddr (keyRED p) (0x200 + 0x20 * n)
  let len := s.planeLen p n * 64
  let first := len - off * 64
  (s.writeMem (base + off * 64) (bs.take first)).writeMem base (bs.drop first)

/-- Units of a record plane that hold records: WR and RD are equal in a full plane as in an empty one (R239). -/
def State.planeUsed (s : State) (p n : Nat) : Nat :=
  let len := s.planeLen p n
  let wr := s.rf (keyRED p) (Reg.RED_RP_WR.OFFSET n)
  let rd := s.rf (keyRED p) (Reg.RED_RP_RD.OFFSET n)
  if wr = rd ∧ (s.capture p).recs.any fun x => decide (x.plane = n) then len else (wr + len - rd) % len

/-- Write a whole record: its bytes, WR, and its readiness for a stream. -/
def State.planeRecord (s : State) (p n : Nat) (r : Record) : State :=
  let k := keyRED p
  let wr := s.rf k (Reg.RED_RP_WR.OFFSET n)
  let e := (wr + recordUnits r) % s.planeLen p n
  let s := (s.planeBytes p n wr (s.recordBytes r)).wf k (Reg.RED_RP_WR.OFFSET n) e
  let s := s.modCapture p fun c => { c with recs := c.recs ++ [{ plane := n, endOff := e, record := r }] }
  let s := if n = 1 ∧ r.kind = 4 then s.irqBit k 17 else s
  if r.task = 0 then s else s.addReady (.plane p n e) r

/-- RECORD_PLANE_WRITE: the oldest waiting record is written to its plane, after a GAP record when records were dropped
before it, or dropped whole when space is short (R239); a writer whose page is not ACTIVE writes none (R618). -/
def execRecordPlaneWrite (pipe : Fin 6) (s : State) : Res :=
  let p : Nat := pipe
  let k := keyRED p
  match (if s.isActive k then (s.capture p).queue else []) with
  | [] => .next s
  | (n, r) :: rest =>
    let s := s.modCapture p fun c => { c with queue := rest }
    let len := s.planeLen p n
    let used := s.planeUsed p n
    let lost := mfind (s.capture p).lost n
    let gap : Option Record := lost.map fun l => gapRecord r.task (sourceOf p (0x81 + n)) l.2 l.1 r.six 1 3 (n + 1) 0
    let need := recordUnits r + (match gap with | some g => recordUnits g | none => 0)
    if len - used < need then
      .next (((s.count k Reg.RED_DROPPED).setErr k 16).modCapture p fun c =>
        { c with lost := mput c.lost n (match lost with | some l => (l.1 + 1, l.2) | none => (1, r.six)) })
    else
      match gap with
      | none => .next (s.planeRecord p n r)
      | some g =>
        let s := s.modCapture p fun c => { c with lost := mdel c.lost n }
        .next ((s.planeRecord p n g).planeRecord p n { r with flags := r.flags ||| 64 })

/-- Advance RD of a record plane: records before it are consumed. -/
def State.moveRd (s : State) (p n off : Nat) : State :=
  let k := keyRED p
  let len := s.planeLen p n
  let rd := s.rf k (Reg.RED_RP_RD.OFFSET n)
  let d := (off + len - rd) % len
  (s.wf k (Reg.RED_RP_RD.OFFSET n) off).modCapture p fun c =>
    { c with recs := c.recs.filter fun x => decide (x.plane ≠ n) || decide (d < (x.endOff + len - rd - 1) % len + 1) }

/-- RECORD_PLANE_RD_WRITE: the consumer advances RD; an RD that would pass WR is out of range (R239, R265). -/
def execRecordPlaneRdWrite (who : Issuer) (pipe : Fin 6) (plane : Fin 3) (value : BitVec 32) (s : State) : Res :=
  let p : Nat := pipe
  let n : Nat := plane
  let key := keyRED p
  .next (s.write who key (0x210 + 0x20 * n) value.toNat fun s =>
    let len := s.planeLen p n
    let rd := s.rf key (Reg.RED_RP_RD.OFFSET n)
    let v := wget value 29 0
    if len ≤ v ∨ s.planeUsed p n < (v + len - rd) % len then s.setErr key errRANGE else s.moveRd p n v)

/-- Bins of trace point `i`: F + ⌊iC/T⌋ to F + ⌊(i + 1)C/T⌋ − 1 (R240). -/
def traceBins (f c t i : Nat) : List Nat := (List.range ((i + 1) * c / t - i * c / t)).map fun j => f + i * c / t + j

/-- Change the TRACE interval that a time belongs to (R240). -/
def State.modTrace (s : State) (p time : Nat) (f : TraceAcc → TraceAcc) : State :=
  s.modCapture p fun c =>
    match c.traceEnd with
    | some b => if b ≤ time then { c with traceThen := f c.traceThen } else { c with trace := f c.trace }
    | none => { c with trace := f c.trace }

/-- No power in a point yet. -/
def TracePoint.empty : TracePoint := { log := -32768, num := 0, den := 1, n := 0 }

/-- A bin enters a trace point; denominators are powers of 4 (R240). -/
def TracePoint.add (a : TracePoint) (b : Bin) : TracePoint :=
  let d := max a.den b.den
  { log := max a.log b.log, num := a.num * (d / a.den) + b.num * (d / b.den), den := d, n := a.n + 1 }

/-- A trace point's value: the largest LOG16 value, or the mean of linear power as LOG16 (R240). -/
def TracePoint.value (a : TracePoint) (avg : Bool) : Int := if avg then min 32767 (logOf a.num (a.den * a.n)) else a.log

/-- A spectrum enters the trace of its interval, unless it carries SETTLING or STALE (R240). -/
def State.traceSpectrum (s : State) (p time marks : Nat) (bins : List Bin) : State :=
  let k := keyRED p
  if !s.isActive k then s.countDropped k 1
  else if !s.ab k Reg.RED_CFG.TRACE_EN then s
  else if hasMark marks (markSETTLING ||| markSTALE) then s.modTrace p time fun a => { a with marks := a.marks ||| marks }
  else
    let t := s.af k Reg.RED_TRACE_POINTS.T
    let f := s.af k Reg.RED_TRACE_BINS.FIRST
    let n := s.af k Reg.RED_TRACE_BINS.COUNT_M1 + 1
    s.modTrace p time fun a =>
      { a with n := a.n + 1, pts := (List.range t).map fun i =>
          (traceBins f n t i).foldl (fun x b => x.add (nth Bin.floor bins b)) (nth TracePoint.empty a.pts i) }

/-- End of the TRACE interval that contains an index (R240). -/
def State.traceNext (s : State) (p six : Nat) : Option Nat :=
  if s.ab (keyRED p) Reg.RED_CFG.TRACE_SRC then none
  else some (nextMultipleOf (s.af (keyRED p) Reg.RED_TRACE_PERIOD.US * sixPerUs) six)
where
  /-- The first multiple of `m` after `n`. -/
  nextMultipleOf (m n : Nat) : Nat := (n / m + 1) * m

/-- TRACE intervals begin, or none are open: the first ends at the next boundary (R240). -/
def State.traceBegin (s : State) (p : Nat) (on : Bool) : State :=
  let e := if on then s.traceNext p s.six else none
  let first := match e with | some b => b - s.af (keyRED p) Reg.RED_TRACE_PERIOD.US * sixPerUs | none => s.six
  s.modCapture p fun c => { c with traceEnd := e, traceStart := first, trace := TraceAcc.empty, traceThen := TraceAcc.empty }

/-- TRACE_BOUNDARY: a TRACE interval ends; its trace, or a repeat of the previous one when no spectrum was included,
goes to the TRACE plane (R240, R260). -/
def execTraceBoundary (pipe : Fin 6) (s : State) : Res :=
  let p : Nat := pipe
  let k := keyRED p
  if !s.isActive k || !s.ab k Reg.RED_CFG.TRACE_EN then .next s
  else
    match (s.capture p).traceEnd with
    | none => .next s
    | some b =>
      let s := s.advanceTo b
      let c := s.capture p
      let t := s.af k Reg.RED_TRACE_POINTS.T
      let avg := s.ab k Reg.RED_CFG.TRACE_DETECT
      let held := decide (c.trace.n = 0)
      let d := s.drawWords t
      let none_ := held && c.traceLast.isEmpty
      let s := if none_ then d.2 else s
      let pts : List Int :=
        if none_ then d.1.map fun w => signedOf 16 (w.toNat % 65536)
        else if held then c.traceLast
        else c.trace.pts.map fun x => x.value avg
      let first := c.traceStart
      let len := b - first
      let body := pts.flatMap fun v => leBytes (unsignedOf 16 v) 2
      let pad := List.replicate ((8 - body.length % 8) % 8) (0 : Byte)
      let payload := leBytes first 8 ++ leBytes (first / 2 ^ 64 % 256) 1 ++ leBytes 3 1 ++ leBytes (boolNat avg) 1 ++ leBytes 0 1 ++
        leBytes len 4 ++ leBytes 1 4 ++ leBytes 0 2 ++ leBytes t 2 ++ leBytes (s.af k Reg.RED_TRACE_BINS.FIRST) 4 ++
        leBytes (s.af k Reg.RED_TRACE_BINS.COUNT_M1 + 1) 4 ++ body ++ pad
      let r : Record :=
        { kind := 4, flags := if held then marksToFlags c.trace.marks else 0, task := s.ownerTask p 1, source := sourceOf p 0x82,
          trigMask := 0, six := b, fine := 0, pre := 0, post := 0, payload := payload }
      let s := s.wb k Reg.RED_STAT.TRACE_HELD held
      let s := s.modCapture p fun c =>
        { c with trace := c.traceThen, traceThen := TraceAcc.empty, traceLast := pts, traceEnd := s.traceNext p b, traceStart := b }
      .next (s.queueRecord p 1 r)

/-! ### Commits (R236, R264, R265). -/

/-- A staged register differs from the applied one. -/
def State.offChanged (s : State) (key off : Nat) : Bool := decide (s.reg key off ≠ s.areg key off)

/-- The staged checks of CAP (R236, R264). -/
def State.capCheck (s : State) (p : Nat) : Option (Nat × Nat) :=
  let k := keyCAP p
  let n := s.rf k Reg.CAP_PRE_LEN + s.rf k Reg.CAP_POST_LEN
  if s.gangedSecond p then some (codeSTATE, 0x06)
  else if s.rf k Reg.CAP_RING_LEN.LEN_K * 1024 < n + 65536 then some (codeRANGE, 0x01)
  else if 2 ^ 28 < n then some (codeRANGE, 0x02)
  else if s.wrState p ≠ wrIDLE ∧ (decide (s.rf k Reg.CAP_CFG.FORMAT ≠ s.af k Reg.CAP_CFG.FORMAT) ||
      [0x104, 0x108, 0x10C, 0x11C, 0x120, 0x148, 0x14C].any (s.offChanged k)) then some (codeSTATE, 0x05)
  else none

/-- The staged checks of RED (R239, R265). -/
def State.redCheck (s : State) (p : Nat) : Option (Nat × Nat) :=
  let k := keyRED p
  let c := s.rf k Reg.RED_TRACE_BINS.COUNT_M1 + 1
  if s.gangedSecond p then some (codeSTATE, 0x03)
  else if c < s.rf k Reg.RED_TRACE_POINTS.T ∨ s.fftN p < s.rf k Reg.RED_TRACE_BINS.FIRST + c then some (codeRANGE, 0x01)
  else if s.wrState p ≠ wrIDLE ∧ (decide (s.rf k Reg.RED_CFG.ENV_EN ≠ s.af k Reg.RED_CFG.ENV_EN) ||
      decide (s.rf k Reg.RED_CFG.POW_EN ≠ s.af k Reg.RED_CFG.POW_EN) ||
      [0x104, 0x108, 0x10C, 0x110, 0x200, 0x204, 0x208, 0x220, 0x224, 0x228, 0x240, 0x244, 0x248].any (s.offChanged k))
    then some (codeSTATE, 0x02)
  else none

/-- CAP_APPLY: the staged CAP configuration applies to sheets appended from then on (R264). -/
def execCapApply (pipe : Fin 6) (s : State) : Res :=
  let key := keyCAP pipe
  match s.pendOf key with
  | none => .next s
  | some a =>
    if a.empty then .next (s.passCommit key a)
    else
    let s := ((s.advanceTo a.due).clearPend key).applyWords key a.words
    .next ((((s.mirrorGang pipe).setCfg key 0).irqBit key 16).endCommit key a.due)

/-- Registers that shape the TRACE interval. -/
def traceOffs : List Nat := [0x114, 0x118, 0x11C]

/-- The TRACE bits of RED_CFG. -/
def traceCfg (w : Word) : Nat := wget w 5 4 * 8 + wget w 2 2

/-- Restart the record planes whose base or length changes (R239). -/
def State.restartPlanes (s : State) (p : Nat) (a : PendApply) : State :=
  let k := keyRED p
  (List.range 3).foldl (fun s n =>
    if [0x200, 0x204, 0x208].any fun o => decide (s.areg k (o + 0x20 * n) ≠ a.word k (o + 0x20 * n)) then
      let s := (s.wf k (Reg.RED_RP_WR.OFFSET n) 0).wf k (Reg.RED_RP_RD.OFFSET n) 0
      s.modCapture p fun c => { c with recs := c.recs.filter fun r => decide (r.plane ≠ n) }
    else s) s

/-- RED_APPLY: the staged RED configuration applies; TRACE changes wait for the end of the running interval (R265). -/
def execRedApply (pipe : Fin 6) (s : State) : Res :=
  let p : Nat := pipe
  let key := keyRED p
  match s.pendOf key with
  | none => .next s
  | some a =>
    if a.empty then .next (s.passCommit key a)
    else
    let s := s.advanceTo a.due
    let traceDiffers := traceOffs.any (fun o => decide (s.areg key o ≠ a.word key o)) ||
      decide (traceCfg (s.areg key 0x100) ≠ traceCfg (a.word key 0x100))
    let late := match (s.capture p).traceEnd with
      | some b => if traceDiffers ∧ a.due < b ∧ s.isActive key ∧ s.ab key Reg.RED_CFG.TRACE_EN then some b else none
      | none => none
    let s := s.restartPlanes p a
    match late with
    | some b =>
      let keepCfg := (a.word key 0x100 &&& ~~~(word 0x34)) ||| (s.areg key 0x100 &&& word 0x34)
      let ws := mput (traceOffs.foldl (fun ws o => mput ws o (s.areg key o)) a.words) 0x100 keepCfg
      .next { (s.applyWords key ws) with pend := mput s.pend key { a with due := b } }
    | none =>
      let s := ((s.clearPend key).applyWords key a.words).mirrorGang p
      let s := if traceDiffers ∨ (s.capture p).traceEnd = none then
          s.traceBegin p (s.isActive key)
        else s
      .next (((s.setCfg key 0).irqBit key 16).endCommit key a.due)

/-! ### The sheet service (R253, R259, R260). -/

/-- Bytes of a stretch of memory with poisoned lines read as zeros, and whether there was one (R253). -/
def State.readClean (s : State) (a n : Nat) : List Byte × Bool :=
  let lines := (List.range ((a + n + 63) / 64 - a / 64)).map (a / 64 + ·)
  let bad := n ≠ 0 ∧ lines.any s.poisoned
  ((List.range n).map fun i => if s.poisoned ((a + i) / 64) then 0 else s.readByte (a + i), bad)

/-- Bytes of slots `w` to `w + n − 1` of a plane of `l` slots of `b` bytes. -/
def State.readSlots (s : State) (base b l w n : Nat) : List Byte × Bool :=
  let first := min n (l - w % l)
  let x := s.readClean (base + b * (w % l)) (b * first)
  let y := s.readClean base (b * (n - first))
  (x.1 ++ y.1, x.2 || y.2)

/-- The MARK entries of every granule that a range touches, combined (R256). -/
def State.rangeMarks (s : State) (p w n : Nat) : Nat :=
  ((List.range ((w + n + 63) / 64 - w / 64)).map fun i => (s.readByte (s.markAddr p (64 * (w / 64 + i)))).toNat).foldl (· ||| ·) 0

/-- The IQ record of a range (R259). -/
def State.cutIq (s : State) (p : Nat) (h : Sheet) (flags missed : Nat) : Record :=
  let k := keyCAP p
  let fmt := s.af k Reg.CAP_CFG.FORMAT
  let n := h.pre + h.post
  let first := h.origin.first
  let data := s.readSlots (s.baseAddr k 0x104) (sampleBytes fmt) (s.ringL p) h.startWc n
  let pad := if fmt = 2 ∧ n % 2 = 1 then leBytes 0 3 else []
  let payload := leBytes first 8 ++ leBytes (first / 2 ^ 64 % 256) 1 ++ leBytes h.origin.decim 1 ++ leBytes h.origin.src 1 ++
    leBytes (boolNat h.origin.bonded) 1 ++ leBytes h.origin.labelP 4 ++ leBytes n 4 ++ leBytes missed 2 ++ leBytes 0 2 ++
    leBytes h.origin.ftw 8 ++ data.1 ++ pad
  { kind := if fmt = 2 then 2 else 1, flags := flags ||| (if data.2 then 8 else 0), task := s.ownerTask p 2,
    source := sourceOf p (if h.ev = 0xF then 0x80 else h.ev), trigMask := h.mask, six := h.six, fine := h.fine, pre := h.pre,
    post := h.post, payload := payload,
    granule := (h.startWc % 64, (List.range ((h.startWc + n + 63) / 64 - h.startWc / 64)).map fun i =>
      (s.readByte (s.markAddr p (64 * (h.startWc / 64 + i)))).toNat) }

/-- The ENVELOPE (1) or POWER (2) record over a sheet's range (R260). -/
def State.cutReduction (s : State) (p plane : Nat) (h : Sheet) (flags missed : Nat) : Record :=
  let g := if plane = 1 then 64 else 1024
  let w0 := h.startWc / g
  let n := (h.startWc + h.pre + h.post + g - 1) / g - w0
  let base := s.baseAddr (keyRED p) (if plane = 1 then 0x104 else 0x10C)
  let data := s.readSlots base 4 (s.ringL p / g) w0 n
  let ep := h.origin.labelP
  let first := h.origin.first - (h.startWc - w0 * g) * ep
  let payload := leBytes first 8 ++ leBytes (first / 2 ^ 64 % 256) 1 ++ leBytes plane 1 ++ leBytes 0 2 ++ leBytes (g * ep) 4 ++
    leBytes n 4 ++ leBytes missed 2 ++ leBytes 1 2 ++ leBytes 0 4 ++ leBytes 0 4 ++ data.1
  { kind := 4, flags := flags ||| (if data.2 then 8 else 0), task := s.ownerTask p 2,
    source := sourceOf p (if h.ev = 0xF then 0x80 else h.ev), trigMask := h.mask, six := h.six, fine := h.fine, pre := h.pre,
    post := h.post, payload := payload }

/-- The first READY sheet that has not been cut. -/
def cutIndex : List Sheet → Nat → Option Nat
  | [], _ => none
  | h :: hs, i => if h.ready && !h.cut && !h.released then some i else cutIndex hs (i + 1)

/-- The sheet service cuts the record of the oldest READY sheet from the ring, shortened or dropped for
samples that have been overwritten (R253, R256, R259, R260). -/
def State.sheetCut (s : State) (p : Nat) : State :=
  let k := keyCAP p
  match cutIndex (s.capture p).sheets 0 with
  | none => s
  | some i =>
    match (s.capture p).sheets[i]? with
    | none => s
    | some h =>
      if s.ownerTask p 2 = 0 then s
      else
        let low := s.capWc p - s.ringL p
        let lost := decide (h.startWc < low)
        if lost && (decide (h.ev = 0xF) || decide (h.startWc + h.pre < low)) then
          let s := s.modCapture p fun c => { c with cutMissed := c.cutMissed + 1 }
          ((s.setErr k 18).releaseAt p i)
        else
          let o : SheetOrigin := { h.origin with first := h.origin.first + (low - h.startWc) * h.origin.labelP, src := s.srcFrom p low h.origin }
          let h' := if lost then { h with startWc := low, pre := h.startWc + h.pre - low, shortPre := true, origin := o } else h
          let missed := min 65535 (h.missed + (s.capture p).cutMissed)
          let flags := marksToFlags (s.rangeMarks p h'.startWc (h'.pre + h'.post)) ||| (if h'.overlap then 16 else 0) |||
            (if h'.shortPre then 32 else 0) ||| (if missed ≠ 0 then 256 else 0) ||| (if (s.capture p).gapFlag then 64 else 0)
          let s0 := s.modCapture p fun c =>
            { c with cutMissed := 0, gapFlag := false, sheets := setNth c.sheets i { h with cut := true } }
          let s1 := s0.addReady (.sheet p h.startWc) (s.cutIq p h' flags missed)
          let s2 := if s.ab (keyRED p) Reg.RED_CFG.CUT_ENV then s1.addReady .none (s.cutReduction p 1 h' flags missed) else s1
          (if s.ab (keyRED p) Reg.RED_CFG.CUT_POW then s2.addReady .none (s.cutReduction p 2 h' flags missed) else s2)

/-- SHEET_CUT (R253). -/
def execSheetCut (pipe : Fin 6) (s : State) : Res := .next (s.sheetCut pipe)

/-- The writer stops, and every sheet it has becomes READY and is cut. -/
def State.drainSheets (s : State) (p : Nat) : State :=
  let s := s.capStop p
  let n := List.range (s.capture p).sheets.length
  let s := s.each n fun s _ => s.sheetReady p
  s.each n fun s _ => s.sheetCut p

end Sys2Proof.Machine
end

