-- ==== Sys2Proof/Machine/CheckUnits.lean ====
section
/-! DEFINITION. Check-value units (R505-R510). -/

namespace Sys2Proof.Machine

/-- The pages of the twelve check-value units: four in the hub, four in each analysis region (R505). -/
def keyCRC (n : Nat) : Nat := if n < 4 then keyOf 0 (0x018 + n) else if n < 8 then keyOf 1 (0x0A0 + (n - 4)) else keyOf 2 (0x0A0 + (n - 8))

/-- A unit before any START. -/
def CrcUnit.init : CrcUnit := { reg := 0, poly := 0, feedPort := false, half := none }

/-- The unit of a page. -/
def State.crcUnit (s : State) (key : Nat) : CrcUnit := mget (fun _ => CrcUnit.init) s.crcs key

/-- Change a unit. -/
def State.modCrc (s : State) (key : Nat) (f : CrcUnit → CrcUnit) : State := { s with crcs := mput s.crcs key (f (s.crcUnit key)) }

/-- One bit of CRC-16/CCITT, not reflected (R505). -/
def ccittBit (c : Nat) : Nat := if 0x8000 ≤ c then Nat.xor (2 * c % 65536) 0x1021 else 2 * c

/-- CRC-16/CCITT of bytes from a register. -/
def ccittRun (c : Nat) (bs : List Byte) : Nat :=
  bs.foldl (fun c b =>
    let f := ccittBit
    f (f (f (f (f (f (f (f (Nat.xor c (b.toNat * 256))))))))) ) c

/-- The register of a polynomial after some bytes (R505). -/
def crcFeedReg (poly reg : Nat) (bs : List Byte) : Nat :=
  if poly = 0 then crcRun polyC reg bs else if poly = 1 then crcRun polyE reg bs else ccittRun reg bs

/-- The register with the final XOR (R505). -/
def crcFinal (poly reg : Nat) : Nat := if poly = 2 then reg % 65536 else Nat.xor reg 0xFFFFFFFF

/-- The initial register from CRC_SEED and the fold value (R506). -/
def State.crcInitial (s : State) (key : Nat) : Nat :=
  let seed := (s.reg key Reg.CRC_SEED.off).toNat
  let fold := s.rb key Reg.CRC_CFG.FOLD_EN
  let r := if fold then Nat.xor (Nat.xor seed (s.reg key Reg.CRC_FOLD1.off).toNat) (s.reg key Reg.CRC_FOLD0.off).toNat else seed
  if s.rf key Reg.CRC_CFG.POLY ≠ 2 then r else if fold then Nat.xor (r / 65536) (r % 65536) else r % 65536

/-- CRC_VALUE and CRC_STAT follow the unit (R508, R510). -/
def State.refreshCrc (s : State) (key : Nat) : State :=
  let u := s.crcUnit key
  (s.setReg key Reg.CRC_VALUE.off (word (crcFinal u.poly u.reg))).wb key Reg.CRC_STAT.HALF u.half.isSome

/-- START and RESEED load the register, and the count is 0 (R506). -/
def State.crcLoad (s : State) (key : Nat) : State :=
  let s := s.modCrc key fun _ =>
    { reg := s.crcInitial key, poly := s.rf key Reg.CRC_CFG.POLY, feedPort := s.rb key Reg.CRC_CFG.FEED, half := none }
  (s.setPair key Reg.CRC_COUNT0.off 0).refreshCrc key

/-- Bytes enter a unit, and the count follows (R507, R509). -/
def State.crcFeed (s : State) (key : Nat) (bs : List Byte) : State :=
  let s := s.modCrc key fun u => { u with reg := crcFeedReg u.poly u.reg bs }
  (s.setPair key Reg.CRC_COUNT0.off (s.pair key Reg.CRC_COUNT0.off + bs.length)).refreshCrc key

/-- A pending low half is lost (R508). -/
def State.loseHalf (s : State) (key : Nat) : State :=
  if (s.crcUnit key).half.isSome then ((s.modCrc key fun u => { u with half := none }).refreshCrc key).setErr key 16 else s

/-- CRC_FEED: a write to CRC_DATA8, 16, 32, 64_LO or 64_HI (R507, R508). -/
def execCrcFeed (who : Issuer) (unit : Fin 12) (port : Fin 5) (value : BitVec 32) (s : State) : Res :=
  let key := keyCRC unit
  let off := if port.val < 3 then 0x200 + 4 * port.val else 0x210 + 4 * (port.val - 3)
  .next (s.write who key off value.toNat fun s =>
    if (s.page key).st ≠ .active then s.setErr key 17
    else if (s.crcUnit key).feedPort then s.setErr key 18
    else if port = 3 then (((s.loseHalf key).modCrc key fun u => { u with half := some value })).refreshCrc key
    else if port = 4 then
      match (s.crcUnit key).half with
      | some lo => (s.modCrc key fun u => { u with half := none }).crcFeed key (leBytes lo.toNat 4 ++ leBytes value.toNat 4)
      | none => s
    else (s.loseHalf key).crcFeed key (leBytes value.toNat (2 ^ port.val)))

/-- FINISH: the value and the byte count, then reseeded (R508, R510). -/
def execFinish (who : Issuer) (unit : Fin 12) (tag : Nat) (s : State) : Res :=
  let key := keyCRC unit
  .next (s.command who key 0x0100 tag fun s op =>
    if (s.page key).st ≠ .active then s.rejectOp key op codeSTATE 0
    else
      let s := (s.accept key op).loseHalf key
      let s := s.doneWith key [s.reg key Reg.CRC_VALUE.off, s.reg key Reg.CRC_COUNT0.off, s.reg key Reg.CRC_COUNT1.off]
      s.crcLoad key)

/-- RESEED: the register is loaded again, the count is 0 (R506, R508). -/
def execReseed (who : Issuer) (unit : Fin 12) (tag : Nat) (s : State) : Res :=
  let key := keyCRC unit
  .next (s.command who key 0x0101 tag fun s op =>
    if (s.page key).st ≠ .active then s.rejectOp key op codeSTATE 0
    else (((s.accept key op).loseHalf key).crcLoad key).doneOp key)

end Sys2Proof.Machine
end

