-- ==== Sys2Proof/Machine/Inflate.lean ====
section
/-! DEFINITION. Inflation (R491, R495): Deflate data under RFC 1951 in the framings of RFC 1950 and RFC 1952 (log entry 42:
the RFCs are named by the spec and lie outside it). -/

namespace Sys2Proof.Machine

/-- How reading bits ends: the input ran out, or the data are invalid with a sub-reason of the CMP page. -/
inductive InfStop where
  | more
  | bad (sub : Nat)
  deriving DecidableEq, Repr

/-- Sub-reasons of the CMP page table. -/
def subHEADER : Nat := 0x04
def subBLOCK : Nat := 0x05
def subDISTANCE : Nat := 0x06
def subTRAILER : Nat := 0x07
def subDICT : Nat := 0x08

/-- Input bits, least significant first. -/
structure BitIn where
  bytes : List Byte
  /-- Bits of the first byte already taken. -/
  used : Nat
  /-- Bytes wholly taken. -/
  taken : Nat
  deriving DecidableEq, Repr

/-- Take one bit. -/
def BitIn.bit (b : BitIn) : Option (Nat × BitIn) :=
  match b.bytes with
  | [] => none
  | x :: xs =>
    let v := x.toNat / 2 ^ b.used % 2
    some (v, if b.used = 7 then { bytes := xs, used := 0, taken := b.taken + 1 } else { b with used := b.used + 1 })

/-- Take `n` bits, least significant first. -/
def BitIn.bits (b : BitIn) : Nat → Option (Nat × BitIn)
  | 0 => some (0, b)
  | n + 1 =>
    match b.bits n with
    | none => none
    | some (v, b) => match b.bit with | none => none | some (x, b) => some (v + x * 2 ^ n, b)

/-- Move to the next byte boundary. -/
def BitIn.align (b : BitIn) : BitIn :=
  if b.used = 0 then b else { bytes := b.bytes.drop 1, used := 0, taken := b.taken + 1 }

/-- Codes of a canonical code: (length, code, symbol). -/
def canonCodes (lens : List Nat) : List (Nat × Nat × Nat) :=
  let count (l : Nat) := (lens.filter (· = l)).length
  let first (l : Nat) := (List.range l).foldl (fun c k => (c + if k = 0 then 0 else count k) * 2) 0
  (List.range 15).flatMap fun i =>
    let l := i + 1
    let syms := (List.range lens.length).filter fun k => decide (lens.getD k 0 = l)
    (List.range syms.length).map fun j => (l, first l + j, syms.getD j 0)

/-- The code lengths oversubscribe the code space. -/
def overfull (lens : List Nat) : Bool :=
  decide (2 ^ 15 < ((lens.filter fun l => decide (l ≠ 0)).map fun l => 2 ^ (15 - l)).sum)

/-- The code lengths leave code space unused, and are not the single code of one bit. -/
def underfull (lens : List Nat) : Bool :=
  let used := lens.filter fun l => decide (l ≠ 0)
  decide ((used.map fun l => 2 ^ (15 - l)).sum < 2 ^ 15) && decide (used ≠ [1]) && !used.isEmpty

/-- Decode one symbol, at most 15 bits: the code so far grows by one bit a turn. -/
def symbolGo (codes : List (Nat × Nat × Nat)) (b : BitIn) (len code : Nat) : Nat → Except InfStop (Nat × BitIn)
  | 0 => .error (.bad subBLOCK)
  | fuel + 1 =>
    match b.bit with
    | none => .error .more
    | some (x, b) =>
      let c := 2 * code + x
      match codes.find? fun e => decide (e.1 = len + 1 ∧ e.2.1 = c) with
      | some e => .ok (e.2.2, b)
      | none => symbolGo codes b (len + 1) c fuel

/-- Base length and extra bits of a length symbol from 257. -/
def lenTable : List (Nat × Nat) :=
  [(3, 0), (4, 0), (5, 0), (6, 0), (7, 0), (8, 0), (9, 0), (10, 0), (11, 1), (13, 1), (15, 1), (17, 1), (19, 2), (23, 2), (27, 2),
   (31, 2), (35, 3), (43, 3), (51, 3), (59, 3), (67, 4), (83, 4), (99, 4), (115, 4), (131, 5), (163, 5), (195, 5), (227, 5), (258, 0)]

/-- Base distance and extra bits of a distance symbol. -/
def distTable : List (Nat × Nat) :=
  [(1, 0), (2, 0), (3, 0), (4, 0), (5, 1), (7, 1), (9, 2), (13, 2), (17, 3), (25, 3), (33, 4), (49, 4), (65, 5), (97, 5), (129, 6),
   (193, 6), (257, 7), (385, 7), (513, 8), (769, 8), (1025, 9), (1537, 9), (2049, 10), (3073, 10), (4097, 11), (6145, 11),
   (8193, 12), (12289, 12), (16385, 13), (24577, 13)]

/-- Take bits, or stop for want of them. -/
def need (b : BitIn) (n : Nat) : Except InfStop (Nat × BitIn) :=
  match b.bits n with | some r => .ok r | none => .error .more

/-- What inflation holds: input left, output so far newest byte first, and how it stopped early. -/
structure InfState where
  inp : BitIn
  out : List Byte
  deriving DecidableEq, Repr

/-- Copy `n` bytes from `d` back. -/
def copyBack (out : List Byte) (d : Nat) : Nat → List Byte
  | 0 => out
  | n + 1 => copyBack (out.getD (d - 1) 0 :: out) d n

/-- One step within a compressed block: a literal, a match, or the end; `some true` at the end of the block. -/
def symbolStep (lit dist : List (Nat × Nat × Nat)) (s : InfState) : Except InfStop (InfState × Bool) := do
  let (v, b) ← symbolGo lit s.inp 0 0 15
  if v < 256 then .ok ({ inp := b, out := BitVec.ofNat 8 v :: s.out }, false)
  else if v = 256 then .ok ({ s with inp := b }, true)
  else if 286 ≤ v then .error (.bad subBLOCK)
  else
    let e := lenTable.getD (v - 257) (0, 0)
    let (x, b) ← need b e.2
    let (dv, b) ← symbolGo dist b 0 0 15
    if 30 ≤ dv then .error (.bad subBLOCK)
    else
      let f := distTable.getD dv (0, 0)
      let (y, b) ← need b f.2
      if s.out.length < f.1 + y then .error (.bad subDISTANCE)
      else .ok ({ inp := b, out := copyBack s.out (f.1 + y) (e.1 + x) }, false)

/-- The symbols of a block; `more` and errors keep the output so far. -/
def blockGo (lit dist : List (Nat × Nat × Nat)) (s : InfState) : Nat → InfState × Option InfStop
  | 0 => (s, some .more)
  | fuel + 1 =>
    match symbolStep lit dist s with
    | .error e => (s, some e)
    | .ok (s, true) => (s, none)
    | .ok (s, false) => blockGo lit dist s fuel

/-- Code lengths of the fixed code. -/
def fixedLit : List Nat := List.replicate 144 8 ++ List.replicate 112 9 ++ List.replicate 24 7 ++ List.replicate 8 8
def fixedDist : List Nat := List.replicate 30 5

/-- Run-length coded code lengths of a dynamic block. -/
def lensGo (codes : List (Nat × Nat × Nat)) (total : Nat) (b : BitIn) (acc : List Nat) : Nat → Except InfStop (List Nat × BitIn)
  | 0 => .error (.bad subBLOCK)
  | fuel + 1 =>
    if acc.length = total then .ok (acc, b)
    else if total < acc.length then .error (.bad subBLOCK)
    else
      match symbolGo codes b 0 0 7 with
      | .error e => .error e
      | .ok (v, b) =>
        if v < 16 then lensGo codes total b (acc ++ [v]) fuel
        else if v = 16 ∧ acc.isEmpty then .error (.bad subBLOCK)
        else
          match need b (if v = 16 then 2 else if v = 17 then 3 else 7) with
          | .error e => .error e
          | .ok (x, b) =>
            let n := if v = 18 then 11 + x else 3 + x
            lensGo codes total b (acc ++ List.replicate n (if v = 16 then acc.getLastD 0 else 0)) fuel

/-- Order of the code length code's lengths. -/
def lenOrder : List Nat := [16, 17, 18, 0, 8, 7, 9, 6, 10, 5, 11, 4, 12, 3, 13, 2, 14, 1, 15]

/-- Take the code length code's lengths. -/
def clGo (b : BitIn) (acc : List (Nat × Nat)) : List Nat → Except InfStop (List (Nat × Nat) × BitIn)
  | [] => .ok (acc, b)
  | k :: ks => match need b 3 with | .error e => .error e | .ok (v, b) => clGo b ((k, v) :: acc) ks

/-- The codes of a dynamic block. -/
def dynCodes (b : BitIn) : Except InfStop (List (Nat × Nat × Nat) × List (Nat × Nat × Nat) × BitIn) := do
  let (hlit, b) ← need b 5
  let (hdist, b) ← need b 5
  let (hclen, b) ← need b 4
  let (cl, b) ← clGo b [] (lenOrder.take (hclen + 4))
  let clens := (List.range 19).map fun k => ((cl.find? fun e => decide (e.1 = k)).map (·.2)).getD 0
  if overfull clens || underfull clens || decide (30 ≤ hlit) || decide (30 ≤ hdist) then .error (.bad subBLOCK)
  else
    let (lens, b) ← lensGo (canonCodes clens) (hlit + 257 + hdist + 1) b [] 400
    let lit := lens.take (hlit + 257)
    let dist := lens.drop (hlit + 257)
    if overfull lit || underfull lit || overfull dist || underfull dist || decide (lit.getD 256 0 = 0) then .error (.bad subBLOCK)
    else .ok (canonCodes lit, canonCodes dist, b)

/-- A stored block. -/
def storedBlock (s : InfState) : InfState × Option InfStop :=
  let b := s.inp.align
  let len := u16At b.bytes 0
  if b.bytes.length < 4 then (s, some .more)
  else if u16At b.bytes 2 ≠ 65535 - len then (s, some (.bad subBLOCK))
  else
    let d := (b.bytes.drop 4).take len
    let s := { inp := { bytes := b.bytes.drop (4 + d.length), used := 0, taken := b.taken + 4 + d.length }, out := d.reverse ++ s.out }
    (s, if d.length < len then some .more else none)

/-- Blocks until the last; none at the end of the last block. -/
def blocksGo (s : InfState) : Nat → InfState × Option InfStop
  | 0 => (s, some .more)
  | fuel + 1 =>
    match s.inp.bits 3 with
    | none => (s, some .more)
    | some (h, b) =>
      let final := decide (h % 2 = 1)
      let steps := 8 * b.bytes.length + 8
      let (s, stop) :=
        if h / 2 = 0 then storedBlock { s with inp := b }
        else if h / 2 = 1 then blockGo (canonCodes fixedLit) (canonCodes fixedDist) { s with inp := b } steps
        else if h / 2 = 2 then
          match dynCodes b with
          | .error e => (s, some e)
          | .ok (lit, dist, b) => blockGo lit dist { s with inp := b } steps
        else (s, some (.bad subBLOCK))
      match stop with
      | some e => (s, some e)
      | none => if final then (s, none) else blocksGo s fuel

/-- Adler-32 of bytes. -/
def adler32 (bs : List Byte) : Nat :=
  let r := bs.foldl (fun (p : Nat × Nat) x => let a := (p.1 + x.toNat) % 65521; (a, (p.2 + a) % 65521)) (1, 0)
  r.2 * 65536 + r.1

/-- CRC-32 of bytes. -/
def crc32 (bs : List Byte) : Nat := Nat.xor (crcRun polyE 0xFFFFFFFF bs) 0xFFFFFFFF

/-- The running check of a framing over uncompressed bytes: Adler-32 for ZLIB, CRC-32 for RAW and GZIP (R497). -/
def framingCheck (framing : Nat) (bs : List Byte) : Nat := if framing = 1 then adler32 bs else crc32 bs

/-- Length of a zero-terminated string with its zero. -/
def zstr : List Byte → Option Nat
  | [] => none
  | b :: bs => if b = 0 then some 1 else (zstr bs).map (· + 1)

/-- Bytes of a gzip header's optional fields and where they end. -/
def gzipHeader (bs : List Byte) : Except InfStop Nat :=
  let flg := byteAt bs 3
  if bs.length < 10 then .error .more
  else if byteAt bs 0 ≠ 0x1F ∨ byteAt bs 1 ≠ 0x8B ∨ byteAt bs 2 ≠ 8 ∨ 32 ≤ flg then .error (.bad subHEADER)
  else
    let extra := if nbit flg 2 then 2 + u16At bs 10 else 0
    let n := 10 + extra
    if bs.length < n ∨ (nbit flg 2 ∧ bs.length < 12) then .error .more
    else
      match (if nbit flg 3 then zstr (bs.drop n) else some 0) with
      | none => .error .more
      | some name =>
        let n := n + name
        match (if nbit flg 4 then zstr (bs.drop n) else some 0) with
        | none => .error .more
        | some comment =>
          let n := n + comment
          if nbit flg 1 then
            if bs.length < n + 2 then .error .more
            else if u16At bs n ≠ crc32 (bs.take n) % 65536 then .error (.bad subHEADER)
            else .ok (n + 2)
          else .ok n

/-- The header of a framing: bytes it takes. -/
def frameHeader (framing : Nat) (bs : List Byte) : Except InfStop Nat :=
  if framing = 0 then .ok 0
  else if framing = 1 then
    if bs.length < 2 then .error .more
    else if byteAt bs 0 % 16 ≠ 8 ∨ 7 < byteAt bs 0 / 16 ∨ (byteAt bs 0 * 256 + byteAt bs 1) % 31 ≠ 0 then .error (.bad subHEADER)
    else if nbit (byteAt bs 1) 5 then .error (.bad subDICT)
    else .ok 2
  else gzipHeader bs

/-- Inflation of a stream's input so far. -/
structure Inflated where
  out : List Byte
  /-- Bytes consumed when the stream has ended. -/
  ended : Option Nat
  stop : Option InfStop
  deriving DecidableEq, Repr

/-- Inflate what has arrived of a stream in a framing (R491, R495). -/
def inflateAll (framing : Nat) (bs : List Byte) : Inflated :=
  match frameHeader framing bs with
  | .error e => { out := [], ended := none, stop := some e }
  | .ok n =>
    match blocksGo { inp := { bytes := bs.drop n, used := 0, taken := 0 }, out := [] } (bs.length + 1) with
    | (s, some e) => { out := s.out.reverse, ended := none, stop := some e }
    | (s, none) =>
      let out := s.out.reverse
      let at_ := n + s.inp.align.taken
      let t := bs.drop at_
      if framing = 0 then { out := out, ended := some at_, stop := none }
      else if framing = 1 then
        if t.length < 4 then { out := out, ended := none, stop := some .more }
        else if byteAt t 0 * 2 ^ 24 + byteAt t 1 * 2 ^ 16 + byteAt t 2 * 2 ^ 8 + byteAt t 3 ≠ adler32 out then
          { out := out, ended := none, stop := some (.bad subTRAILER) }
        else { out := out, ended := some (at_ + 4), stop := none }
      else if t.length < 8 then { out := out, ended := none, stop := some .more }
      else if u32At t 0 ≠ crc32 out ∨ u32At t 4 ≠ out.length % 2 ^ 32 then { out := out, ended := none, stop := some (.bad subTRAILER) }
      else { out := out, ended := some (at_ + 8), stop := none }

end Sys2Proof.Machine
end

