-- ==== Sys2Proof/Machine/HbmOps.lean ====
section
/-! DEFINITION. HBM stacks (R347-R361, R367-R370): addresses, layers and ranks, RT-held and self-refresh states, and rank
sparing. -/

namespace Sys2Proof.Machine

/-- A stack at reset. -/
def Stack.init : Stack :=
  { queue := [], drain := [], aged := [], open0 := [], acts := [], throttled := [], holeMs := 0, idleAt := 0, tolerances := [],
    bandNow := 0, bandSince := 0, bandLeft := none, delayCh := 0, delayAt := 0, preemptEnd := 0, hotEnd := 0, outQueue := [], kept := [],
    filling := none, corrections := [], scrub := 0 }

/-- Stack `m`. -/
def State.stack (s : State) (m : Nat) : Stack := mget (fun _ => Stack.init) s.hbms m

/-- Change a stack. -/
def State.modStack (s : State) (m : Nat) (f : Stack → Stack) : State := { s with hbms := mput s.hbms m (f (s.stack m)) }

/-! ### Addresses (R347-R350). -/

/-- Bytes of a rank. -/
def rankBytes : Nat := 192 * 2 ^ 20

/-- Base of layer l in the stack-local space. -/
def layerBase (l : Nat) : Nat := l * 0x180000000

/-- Slots of layer l (MEM_LAYER). -/
def State.layerSlots (s : State) (m l : Nat) : Nat := wget (s.reg (keyMEM m) 0x134) (8 * l + 7) (8 * l)

/-- Rank in a slot of a layer (MEM_MAP). -/
def State.slotRank (s : State) (m l i : Nat) : Nat :=
  wget (s.reg (keyMEM m) (0x400 + 0x20 * l + 4 * (i / 4))) (8 * (i % 4) + 7) (8 * (i % 4))

/-- Write the rank of a slot. -/
def State.setSlot (s : State) (m l i rank : Nat) : State :=
  let off := 0x400 + 0x20 * l + 4 * (i / 4)
  s.setReg (keyMEM m) off (wset (s.reg (keyMEM m) off) (8 * (i % 4) + 7) (8 * (i % 4)) rank)

/-- Ranks of a layer in slot order. -/
def State.layerRanks (s : State) (m l : Nat) : List Nat := (List.range (s.layerSlots m l)).map (s.slotRank m l)

/-- Stack of a user address (R349). -/
def addrStack (u : Nat) : Nat := u / 2 ^ 35 % 4

/-- Stack-local offset of a user address. -/
def addrLocal (u : Nat) : Nat := u % 2 ^ 35

/-- User address of a stack-local offset. -/
def userAddr (m o : Nat) : Nat := m * 2 ^ 35 + o

/-- Layer of a stack-local offset, when it is mapped and not being filled (R349, R370). -/
def State.layerOf (s : State) (m o : Nat) : Option Nat :=
  (List.range 4).find? fun l =>
    decide (layerBase l ≤ o) && decide (o < layerBase l + s.layerSlots m l * rankBytes) && decide ((s.stack m).filling ≠ some l)

/-- A user address is mapped (R349, R351). -/
def State.mapped (s : State) (u : Nat) : Bool := decide (u < 2 ^ 37) && (s.layerOf (addrStack u) (addrLocal u)).isSome

/-- Slot, rank offset W (R350) of a stack-local offset in a layer. -/
def chunkOf (l n o : Nat) : Nat × Nat :=
  let c := (o - layerBase l) / 256
  (c % n, c / n * 256 + o % 256)

/-- Rank that holds a stack-local offset. -/
def State.rankOf (s : State) (m o : Nat) : Option Nat :=
  match s.layerOf m o with
  | some l => some (s.slotRank m l (chunkOf l (s.layerSlots m l) o).1)
  | none => none

/-- Bank group × 4 + bank, and row, of a rank offset (R350). -/
def bankOf (w : Nat) : Nat := w / 2 ^ 10 % 4 * 4 + w / 2 ^ 12 % 4
def dramRow (w : Nat) : Nat := w / 2 ^ 14

/-- Bytes of a stack in the capacity table: a layer being filled is out of it (R297, R370). -/
def State.stackBytes (s : State) (m : Nat) : Nat :=
  ((List.range 4).map fun l => if (s.stack m).filling = some l then 0 else s.layerSlots m l * rankBytes).sum

/-! ### Self-refresh (R359-R361). -/

def srACTIVE : Nat := 0
def srIDLE_WAIT : Nat := 1
def srENTERING : Nat := 2
def srSELF_REFRESH : Nat := 3
def srEXITING : Nat := 4

/-- MEM_STAT.SR_STATE. -/
def State.srState (s : State) (m : Nat) : Nat := s.rf (keyMEM m) Reg.MEM_STAT.SR_STATE
def State.srEnter (s : State) (m n : Nat) : State := s.wf (keyMEM m) Reg.MEM_STAT.SR_STATE n

/-- A copy or a layer fill runs on the stack. -/
def State.sparing (s : State) (m : Nat) : Bool := decide (s.rf (keyMEM m) Reg.MEM_SPARE_STAT.STATE ≠ 0)

/-- The stack is RT-held (R359). -/
def State.rtHeld (s : State) (m : Nat) : Bool :=
  s.sparing m || s.holdingTasks.any fun t => t.hasMem && decide (t.stack = m) && decide (dTYPE t.desc ≠ 6) && !t.pieces.isEmpty

/-- The smallest tolerance reported, as MEM_LTR reads it (R359). -/
def State.tolerance (s : State) (m : Nat) : Nat := (s.stack m).tolerances.foldl (fun n t => min n t.2) 0xFFFFFFFF

/-- A stack may idle: no request, not RT-held, and no tolerance below LTR_MIN_US (R359, R361). -/
def State.mayIdle (s : State) (m : Nat) : Bool :=
  (s.stack m).queue.isEmpty && !s.rtHeld m &&
    decide (s.rf (keyMEM m) Reg.MEM_SR_CFG.LTR_MIN_US * 1000 ≤ s.tolerance m)

/-- Bring RT_HELD, MEM_LTR and the self-refresh state up to date with the events of R361 other than its timers. -/
def State.srUpdate (s : State) (m : Nat) : State :=
  let k := keyMEM m
  let s := (s.wb k Reg.MEM_STAT.RT_HELD (s.rtHeld m)).setReg k Reg.MEM_LTR.off (word (s.tolerance m))
  let idle := s.mayIdle m
  if s.srState m = srACTIVE then
    if idle then (s.srEnter m srIDLE_WAIT).modStack m fun k => { k with idleAt := s.six } else s
  else if idle then s
  else if s.srState m = srIDLE_WAIT then s.srEnter m srACTIVE
  else if s.srState m = srENTERING then (s.srEnter m srACTIVE).count k Reg.MEM_SR_ABORTS
  else if s.srState m = srSELF_REFRESH then s.srEnter m srEXITING
  else s

/-- Bring every stack up to date. -/
def State.srAll (s : State) : State := (List.range 4).foldl State.srUpdate s

/-- A requester reports a latency tolerance in ns, or none (R359, R411). -/
def State.reportLtr (s : State) (m source ns : Nat) : State :=
  (s.modStack m fun k => { k with tolerances := if ns = 0xFFFFFFFF then mdel k.tolerances source else mput k.tolerances source ns }).srUpdate m

/-! ### Ranks (R347, R366-R370). -/

def rankIN_LAYER : Nat := 0
def rankSPARE : Nat := 1
def rankOUT : Nat := 2
def rankRETIRED : Nat := 3

/-- MEM_RANKk.STATE. -/
def State.rankState (s : State) (m k : Nat) : Nat := s.rf (keyMEM m) (Reg.MEM_RANK.STATE k)
def State.setRank (s : State) (m k n : Nat) : State := s.wf (keyMEM m) (Reg.MEM_RANK.STATE k) n

/-- Free spares, ascending. -/
def State.freeSpares (s : State) (m : Nat) : List Nat := (List.range 128).filter fun k => decide (s.rankState m k = rankSPARE)

/-- Keep MEM_STAT.SPARES_FREE, SPARING and RT_HELD up to date. -/
def State.refreshMem (s : State) (m : Nat) : State :=
  let k := keyMEM m
  ((s.wf k Reg.MEM_STAT.SPARES_FREE (s.freeSpares m).length).wb k Reg.MEM_STAT.SPARING (s.sparing m)).srUpdate m

/-- The layer and slot of a rank. -/
def State.findRank (s : State) (m rank : Nat) : Option (Nat × Nat) :=
  (List.range 4).findSome? fun l =>
    match (s.layerRanks m l).findIdx? (· = rank) with
    | some i => some (l, i)
    | none => none

/-- Write MEM_SPARE_STAT as a copy or a fill begins; PG_PROGRESS counts from 0 (R368, R369). -/
def State.setSpare (s : State) (m spare donor failed kind st : Nat) : State :=
  let k := keyMEM m
  let s := s.modPage k fun p => { p with progress := 0 }
  s.setReg k 0x130 (word (spare * 2 ^ 24 + donor * 2 ^ 16 + failed * 2 ^ 8 + kind * 16 + boolNat (!(s.stack m).outQueue.isEmpty) * 8 + st))

/-- Remove a slot from a layer: its rank leaves, and n falls by 1 (R370). -/
def State.removeSlot (s : State) (m l i : Nat) : State :=
  let n := s.layerSlots m l
  let rest := (s.layerRanks m l).eraseIdx i
  let s := (List.range n).foldl (fun s j => s.setSlot m l j (rest.getD j 0xFF)) s
  s.setReg (keyMEM m) 0x134 (wset (s.reg (keyMEM m) 0x134) (8 * l + 7) (8 * l) (n - 1))

/-- Start the poison fill of a layer: its bytes become zeros with the poison mark (R370). -/
def State.fillLayer (s : State) (m l slots : Nat) : State :=
  let lo := userAddr m (layerBase l)
  let hi := lo + slots * rankBytes
  let keep : Nat → Bool := fun a => decide (a < lo) || decide (hi ≤ a)
  { (s.modStack m fun k => { k with filling := some l, kept := k.kept.filter fun r => keep r.addr }) with
      mem := s.mem.filter (fun c => keep c.1), poison := s.poison.filter (fun c => keep (64 * c.1)),
      poisonFill := s.poisonFill ++ [(lo / 64, hi / 64)] }

/-- Choose what replaces a rank out of service, by the first row of R367 that applies; a retirement leaves the layer to
fill. -/
def State.selectSpare (s : State) (m rank : Nat) : State :=
  let k := keyMEM m
  let free := s.freeSpares m
  let top := s.layerRanks m 3
  match s.findRank m rank with
  | none => (s.setRank m rank rankRETIRED).refreshMem m
  | some (l, i) =>
    let direct (spare : Nat) := s.setSpare m spare 0xFF rank 0 1
    let s :=
      match free.find? fun f => decide (f % 32 = rank % 32) with
      | some f => direct f
      | none =>
        let donor := if l < 3 then top.find? fun r => decide (r % 32 = rank % 32) else none
        let spare := free.find? fun f => top.all fun r => decide (r % 32 ≠ f % 32)
        match donor, spare with
        | some d, some f => s.setSpare m f d rank 1 1
        | _, _ =>
          match free with
          | f :: _ =>
            let shared := (s.layerRanks m l).any fun r => decide (r ≠ rank) && decide (r % 32 = f % 32)
            let s := direct f
            if shared then (s.wb k Reg.MEM_STAT.SHARED_PC true).setErr k 22 else s
          | [] =>
            let n := s.layerSlots m l
            (((s.removeSlot m l i).fillLayer m l n).setSpare m 0xFF 0xFF rank 2 2).setErr k 21
    s.refreshMem m

/-- Take a rank out of service (R364-R369): it is handled at once, waits for the present copy, or, as the target or donor
of that copy, abandons it and restarts the selection for every rank involved. -/
def State.rankOut (s : State) (m rank : Nat) : State :=
  let k := keyMEM m
  let st := s.rankState m rank
  if st = rankOUT ∨ st = rankRETIRED then s
  else
    let failed := s.rf k Reg.MEM_SPARE_STAT.FAILED
    let busy := s.sparing m
    let involved := decide (s.rf k Reg.MEM_SPARE_STAT.STATE = 1) &&
      (decide (s.rf k Reg.MEM_SPARE_STAT.SPARE = rank) || decide (s.rf k Reg.MEM_SPARE_STAT.DONOR = rank))
    let s := s.setRank m rank rankOUT
    if !busy then s.selectSpare m rank
    else
      let s := s.modStack m fun q => { q with outQueue := q.outQueue ++ (if (s.findRank m rank).isSome then [rank] else []) }
      let s := s.wb k Reg.MEM_SPARE_STAT.QUEUED (!(s.stack m).outQueue.isEmpty)
      if involved then s.selectSpare m failed else s.refreshMem m

/-- The next waiting rank, when no copy runs (R369). -/
def State.nextRank (s : State) (m : Nat) : State :=
  match (s.stack m).outQueue.filter fun r => (s.findRank m r).isSome with
  | [] => ((s.modStack m fun q => { q with outQueue := [] }).wb (keyMEM m) Reg.MEM_SPARE_STAT.QUEUED false).refreshMem m
  | r :: rest => (s.modStack m fun q => { q with outQueue := rest }).selectSpare m r

/-! ### Corrections (R363, R366). -/

/-- SCLK periods of 24 h. -/
def six24h : Nat := 86400 * 1000 * 40960000

/-- Count a correction of a rank: MEM_ECC_CE, CE24, and predictive sparing at MEM_CE_LIMIT (R363, R366). -/
def State.correctLine (s : State) (m rank : Nat) : State :=
  let k := keyMEM m
  let l := (mget (fun _ => []) (s.stack m).corrections rank).filter (fun t => decide (s.six < t + six24h)) ++ [s.six]
  let s := (s.modStack m fun q => { q with corrections := mput q.corrections rank l }).count k Reg.MEM_ECC_CE
  let s := s.wf k (Reg.MEM_RANK.CE24 rank) (min 65535 l.length)
  if s.rf k Reg.MEM_CE_LIMIT.LIMIT ≤ min 65535 l.length then (s.setErr k 16).rankOut m rank else s

/-- Record the address of an uncorrectable line or failed command (R364, R365). -/
def State.errAddr (s : State) (m u : Nat) : State :=
  let k := keyMEM m
  (s.setReg k 0x128 (word u)).setReg k 0x12C (word (u / 2 ^ 32 % 65536))

/-- An uncorrectable line: poisoned, its address recorded, and its rank out of service (R364). -/
def State.uncorrectable (s : State) (m u rank : Nat) : State :=
  let k := keyMEM m
  ((((s.setPoison (u / 64) true).errAddr m u).count k Reg.MEM_ECC_UE).setErr k 17).rankOut m rank

/-- A hole access: counted, PG_ERR.HOLE, and the first one in each millisecond logged with its address (R351, R592). -/
def State.holeAccess (s : State) (m u : Nat) : State :=
  let k := keyMEM m
  let s := (s.count k Reg.MEM_HOLE).setErr k 23
  let ms := s.six / sixPerMs
  if (s.stack m).holeMs = ms + 1 then s
  else (s.modStack m fun q => { q with holeMs := ms + 1 }).logPage k 0 0 0 7 u

/-! ### Lines and ranges as the other blocks read and write them (R354, R364, R428). -/

/-- The 64 bytes of a line as a reader receives them, with the poison mark. -/
def State.readLine (s : State) (u : Nat) : List Byte × Bool := (s.readMem (u / 64 * 64) 64, s.poisoned (u / 64))

/-- Merge the enabled bytes of a write into its line; a whole line clears the poison mark (R354). -/
def State.mergeLine (s : State) (u : Nat) (bs : List (Option Byte)) : State :=
  let a := u / 64 * 64
  let line := (List.range 64).map fun i => match bs.getD i none with | some b => b | none => s.readByte (a + i)
  let was := s.poisoned (a / 64)
  let whole := (List.range 64).all fun i => (bs.getD i none).isSome
  let s := s.writeMem a line
  if was && !whole then s.setPoison (a / 64) true else s

/-- Read bytes, each with the poison mark of its line; a byte of a hole reads 0 poisoned, and the access is logged (R351). -/
def State.fetchMem (s : State) (u n : Nat) : State × List (Byte × Bool) :=
  let bs := (List.range n).map fun i => if s.mapped (u + i) then (s.readByte (u + i), s.poisoned ((u + i) / 64)) else ((0 : Byte), true)
  let hole := (List.range n).find? fun i => !s.mapped (u + i)
  (match hole with | some i => s.holeAccess (addrStack (u + i)) (u + i) | none => s, bs)

/-- Write bytes with their poison marks: a line takes the mark of any poisoned byte written to it; bytes for holes are
discarded and logged (R351, R354, R432). -/
def State.storeMem (s : State) (u : Nat) (bs : List (Byte × Bool)) : State :=
  if (List.range bs.length).all fun i => s.mapped (u + i) then
    let s := s.writeMem u (bs.map (·.1))
    (List.range bs.length).foldl (fun s i => if (bs.getD i (0, false)).2 then s.setPoison ((u + i) / 64) true else s) s
  else
    (List.range bs.length).foldl (fun s i =>
      let b := bs.getD i (0, false)
      let a := u + i
      if s.mapped a then
        let s := s.writeMem a [b.1]
        if b.2 then s.setPoison (a / 64) true else s
      else s.holeAccess (addrStack a) a) s

end Sys2Proof.Machine
end

