-- ==== Sys2Proof/Machine/LinkOps.lean ====
section
/-! DEFINITION. Link ends (R371-R394): flits and their check values, return values and credits, states, retrains, faults
and fences. -/

namespace Sys2Proof.Machine

def linkDOWN : Nat := 0
def linkSB_INIT : Nat := 1
def linkMB_INIT : Nat := 2
def linkMB_TRAIN : Nat := 3
def linkLINK_INIT : Nat := 4
def linkALIGN : Nat := 5
def linkACTIVE : Nat := 6
def linkRETRAIN : Nat := 7
def linkFAULT : Nat := 8

/-- BXE_STAT.LINK_STATE. -/
def State.linkState (s : State) (key : Nat) : Nat := s.rf key Reg.BXE_STAT.LINK_STATE

/-- Enter a link state with its timeout, in SIX from now. -/
def State.linkEnter (s : State) (key n timeout : Nat) : State :=
  (s.wf key Reg.BXE_STAT.LINK_STATE n).modLink key fun l => { l with deadline := s.six + timeout }

/-! ### Check values (R377, R378). -/

/-- One bit of CRC-16 with generator 0x8BB7, most significant bit first. -/
def crc16Bit (c : Nat) : Nat := if 0x8000 ≤ c then Nat.xor (2 * c % 65536) 0x8BB7 else 2 * c

/-- CRC-16 of bytes from a seed. -/
def crc16 (seed : Nat) (bs : List Byte) : Nat :=
  bs.foldl (fun c b =>
    let f := crc16Bit
    f (f (f (f (f (f (f (f (Nat.xor c (b.toNat * 256))))))))) ) seed

/-- SEED of a sequence number in the replay or the sample space. -/
def flitSeed (n : Nat) (sample : Bool) : Nat :=
  let s := n % 4096
  Nat.xor (Nat.xor (s * 16 % 65536) (s / 256)) (if sample then 0xF else 0)

/-- The flit passes its check with a seed. -/
def flitPasses (b : List Byte) (n : Nat) (sample : Bool) : Bool := decide (crc16 (flitSeed n sample) (b.take 62) = u16At b 62)

/-- VC of a flit. -/
def flitVc (b : List Byte) : Nat := byteAt b 0 % 8

/-- The spaces and numbers with which a flit passes and its VC agrees: replay of the next expected number, and up to four
sample numbers (R378). -/
def State.flitSeeds (s : State) (key : Nat) : List (Bool × Nat) :=
  let l := s.link key
  (false, l.accepted) :: (if s.rb key Reg.BXE_STAT.SMP_RX then (List.range 4).map fun i => (true, l.smpRx + i) else [])

/-- The VC agrees with the space. -/
def vcAgrees (sample : Bool) (vc : Nat) : Bool := if sample then decide (vc = 0) else decide (vc = 1 ∨ vc = 2 ∨ vc = 3 ∨ vc = 7)

/-- Every seed a flit passes with. -/
def State.flitHits (s : State) (key : Nat) (b : List Byte) : List (Bool × Nat) :=
  (s.flitSeeds key).filter fun x => flitPasses b x.2 x.1

/-- A redundant lane of a module still carries parity (R374, R389). -/
def State.hasParity (s : State) (key module group : Nat) : Bool :=
  wget (s.reg key (0x114 + 4 * module)) (8 * group + 7) (8 * group + 6) = 0

/-- Invert a lane's bits in the flagged UIs of a flit (R373, R379). -/
def flipLane (b : List Byte) (lane uis : Nat) : List Byte :=
  let m := (bitsSet uis 8).foldl (fun m u => m + 2 ^ (64 * u + lane)) 0
  leBytes (Nat.xor (leAt b 0 64) m) 64

/-- Corrections of a flit with errors in one group: each lane and seed that then passes with a matching VC (R379). -/
def State.corrections (s : State) (key : Nat) (b : List Byte) (group uis : Nat) : List (Nat × Bool × Nat × List Byte) :=
  (List.range 16).flatMap fun i =>
    let lane := 16 * group + i
    let c := flipLane b lane uis
    (s.flitHits key c).filterMap fun x => if vcAgrees x.1 (flitVc c) then some (lane, x.1, x.2, c) else none

/-- Redundant lane g of module m in BXE_RMAP_RX or BXE_RMAP_TX. -/
def State.setRmap (s : State) (key off module group v : Nat) : State :=
  s.setReg key (off + 4 * module) (wset (s.reg key (off + 4 * module)) (8 * group + 7) (8 * group) v)

/-! ### Retrain, fault, fence (R390-R392, R415). -/

/-- Converter of a link that carries its samples. -/
def linkConv (key : Nat) : Option Nat := if linkOf key ≤ 4 then some (linkOf key) else none

/-- Frames stop on a link: its converter returns to FRAME_ALIGN, and C4's frames on the spare path are lost (R111, R22). -/
def State.framesStop (s : State) (key : Nat) : State :=
  match linkConv key with
  | some c => if convFRAME_ALIGN < s.convState c then s.convDown c convFRAME_ALIGN else s
  | none => if s.spareState ≠ spareIDLE ∧ s.rot.input / 2 + 5 = linkOf key then s.modConv 4 fun v => { v with frames := [] } else s

/-- A completion for a requester or for the link an NP was forwarded from (R404, R409). -/
def completionBytes (source completer tag status cls lines : Nat) (poisoned : Bool) (data : List Byte) : List Byte :=
  leBytes (if data.isEmpty then 0x20 else 0x21) 1 ++
    leBytes ((lines - 1) % 8 + boolNat data.isEmpty * 16 + boolNat poisoned * 32 + cls % 4 * 64) 1 ++ leBytes tag 2 ++
    leBytes completer 2 ++ leBytes status 1 ++ leBytes (source / 4096 % 16) 1 ++ leBytes source 8 ++ data

/-- Keep BXE_TAGS.IN_FLIGHT and BXE_TXCRD up to date. -/
def State.refreshLink (s : State) (key : Nat) : State :=
  let l := s.link key
  let held (v : Nat) := min 255 (nth 0 l.advert v + nth 0 l.returned v - nth 0 l.used v)
  let s := s.wf key Reg.BXE_TAGS.IN_FLIGHT l.tags.length
  s.setReg key Reg.BXE_TXCRD.P.off (word (held 0 + held 1 * 2 ^ 8 + held 2 * 2 ^ 16))

/-- Finish an NP with a status and no valid data: its requester, or the region it came from, gets the completion (R409,
R410, R415). -/
def State.finishNp (s : State) (key : Nat) (e : TagEntry) (status : Nat) : State :=
  let data : List Byte := if e.rtype = 0x12 then [] else List.replicate (64 * e.lines) 0
  match e.from0 with
  | none => s.emit (.completion e.source status true data)
  | some (k, tag) =>
    s.modLink k fun l =>
      { l with tx := l.tx ++ [{ vc := 3, source := pageSource key, dst := e.source / 4096, tag := tag, started := false,
                                bytes := completionBytes e.source (pageSource key) tag status 1 e.lines true data, np := none }] }

/-- Fence a link end: queued P are discarded and counted, and every NP in flight or queued completes FENCED (R415). -/
def State.fence (s : State) (key : Nat) : State :=
  let l := s.link key
  if l.fenced then s
  else
    let nps := (l.tags.filter fun e => !e.quarantined) ++ l.tx.filterMap fun p => if p.started then none else p.np
    let posted := (l.tx.filter fun p => decide (p.vc = 1)).length
    let s := s.modLink key fun l => { l with fenced := true, tx := [], tags := [], unacked := [], resend := [] }
    let s := nps.foldl (fun s e => s.finishNp key e 2) s
    ((s.countBy key Reg.BXE_P_DISCARD posted).setErr key 23).refreshLink key

/-- The link enters FAULT at an end: it stops, and its end is fenced (R391, R392, R415). -/
def State.linkFaultEnd (s : State) (key : Nat) : State :=
  if s.linkState key = linkFAULT then s
  else
    let op := (s.page key).op
    let s := match op with | some o => if o.opcode = 0x0100 then s.failOp key codeFAULT 0 else s | none => s
    (((s.linkEnter key linkFAULT 0).faultBlock key 21).fence key).framesStop key

/-- A link in FAULT stops both directions (R391). -/
def State.linkFault (s : State) (key : Nat) : State := (s.linkFaultEnd key).linkFaultEnd (farEnd key)

/-- One end starts a retrain: SMP stops, sequenced flits are kept (R392). -/
def State.retrainEnd (s : State) (key : Nat) : State :=
  let s := ((s.linkEnter key linkRETRAIN 819200).count key Reg.BXE_RETRAINS).setErr key 19
  let s := s.modLink key fun l => { l with smp := [], retrains := l.retrains + 1, smpLost := 0, repair := none, repairNext := [], granted := none, hard := [] }
  let s := match (s.page key).op with
    | some op => if op.opcode = 0x0101 then s.failOp key codeSTATE 0x02 else s
    | none => s
  (s.wb key Reg.BXE_STAT.REPAIR_PENDING false).irqBit key 17

/-- A retrain condition: both ends retrain, and the RETRAIN_LIMIT-th in 1 s is a fault (R390, R392). -/
def State.retrain (s : State) (key : Nat) : State :=
  if s.linkState key ≠ linkACTIVE then s
  else
    let s := ((s.retrainEnd key).retrainEnd (farEnd key)).framesStop key
    if s.rf key Reg.BXE_THRESH1.RETRAIN_LIMIT ≤ (s.link key).retrains then s.linkFault key else s

/-- A link end goes DOWN: everything starts again at LINK_INIT, and its transactions are fenced (R392, R415). -/
def State.linkDown (s : State) (key : Nat) : State :=
  if s.linkState key = linkDOWN then s else (((s.fence key).linkEnter key linkDOWN 0).wb key Reg.BXE_STAT.REPAIR_PENDING false).framesStop key

/-! ### Sending packets (R397, R413). -/

/-- The link end on which region `r` sends toward region `d`; none when it is local (R413). -/
def routeEnd (r d : Nat) : Option Nat :=
  if r = d then none
  else if r = 0 then some (if d = 1 ∨ d = 3 ∨ d = 4 then keyOf 0 0x3F1 else if d = 7 then keyOf 0 0x3F0 else keyOf 0 0x3F2)
  else if r = 1 then some (if d = 3 then keyOf 1 0x3F0 else if d = 4 then keyOf 1 0x3F1 else keyOf 1 0x3F2)
  else if r = 2 then some (if d = 5 then keyOf 2 0x3F0 else if d = 6 then keyOf 2 0x3F1 else keyOf 2 0x3F2)
  else some (keyOf r 0x3F0)

/-- Put a packet on a link: a fenced link discards P and completes NP with FENCED (R407, R415). -/
def State.enqueue (s : State) (key : Nat) (p : TxPacket) : State :=
  if (s.link key).fenced then
    match p.np with
    | some e => s.finishNp key e 2
    | none => if p.vc = 1 then s.count key Reg.BXE_P_DISCARD else s
  else s.modLink key fun l => { l with tx := l.tx ++ [p] }

/-! ### The way to user memory (R9, R413, R415). -/

/-- How an access stands that crosses links: its way is clear, waits for a link to become ACTIVE, or is fenced. -/
inductive MemPath where
  | clear | waits | fenced
  deriving DecidableEq, Repr

/-- The link ends on which an access leaves region `r`, and the regions it passes, for region `d`. -/
def routeEnds (r d : Nat) : List Nat :=
  match routeEnd r d with
  | none => []
  | some k => k :: (match routeEnd (farRegion k) d with | some j => [j] | none => [])

/-- The way of a region's accesses to a stack: every access of the hub crosses L5 or L6 (R9). -/
def State.stackPath (s : State) (r m : Nat) : MemPath :=
  let ends := (routeEnds r (1 + m / 2)).flatMap fun k => [k, farEnd k]
  if ends.any fun k => (s.link k).fenced then .fenced
  else if ends.any fun k => decide (s.linkState k ≠ linkACTIVE) then .waits
  else .clear

/-- The way of a region's accesses to an address of user memory. -/
def State.memPath (s : State) (r u : Nat) : MemPath := s.stackPath r (addrStack u)

/-- A write that meets a fence is discarded and counted (R415). -/
def State.discardWrite (s : State) (r u : Nat) : State :=
  match routeEnd r (1 + addrStack u / 2) with
  | some k => s.count k Reg.BXE_P_DISCARD
  | none => s

/-- Bytes of a region's write reach user memory, or meet a fence. -/
def State.sendMem (s : State) (r u : Nat) (bs : List (Byte × Bool)) : State :=
  if s.memPath r u = .fenced then s.discardWrite r u else s.storeMem u bs

/-- The bytes of a MSG packet (R411). -/
def msgBytes (source dst code arg0 : Nat) (line : List Byte) : List Byte :=
  leBytes 0x03 1 ++ leBytes (boolNat line.isEmpty * 16 + 2 * 64) 1 ++ leBytes 0 2 ++ leBytes source 2 ++ leBytes code 1 ++
    leBytes dst 1 ++ leBytes arg0 8 ++ line

/-- Send a message toward another region (R411). -/
def State.sendMsg (s : State) (r dst source code arg0 : Nat) (line : List Byte) : State :=
  match routeEnd r dst with
  | some k => s.enqueue k { vc := 1, source := source, dst := dst, tag := 0, started := false, bytes := msgBytes source dst code arg0 line, np := none }
  | none => s

end Sys2Proof.Machine
end

