-- ==== Sys2Proof/Machine/Compression.lean ====
section
/-! DEFINITION. Compression engines (R491-R504): DEFLATE and INFLATE jobs, and the jobs of the stream scheduler. -/

namespace Sys2Proof.Machine

/-- An engine with no stream. -/
def CmpEngine.init : CmpEngine := { stream := none, jobs := [], produced := 0, check := 0, job := none, portIn := [], portOut := [] }

/-- Engine `n`. -/
def State.cmp (s : State) (n : Nat) : CmpEngine := mget (fun _ => CmpEngine.init) s.cmps n

/-- Change an engine. -/
def State.modCmp (s : State) (n : Nat) (f : CmpEngine → CmpEngine) : State := { s with cmps := mput s.cmps n (f (s.cmp n)) }

/-- BEGIN, END and FLUSH of ARG0 (R496). -/
def cmpBEGIN (flags : Nat) : Bool := nbit flags 0
def cmpEND (flags : Nat) : Bool := nbit flags 1
def cmpFLUSH (flags : Nat) : Nat := bitsOf flags 3 2

/-- The bound of R494 on the output of a stream of jobs. -/
def deflateBound (framing : Nat) (jobs : List (List Byte × Nat)) : Nat :=
  let i := (jobs.map (·.1.length)).sum
  let f := (jobs.filter fun j => decide (cmpFLUSH j.2 ≠ 0)).length
  i + 5 * (max 1 ((i + 65534) / 65535) + 2 * f) + if framing = 1 then 6 else if framing = 2 then 18 else 0

/-- Output of a DEFLATE job after others of its stream: a fixed function, within the bound (R493, R494). -/
def deflateJob (level framing : Nat) (before : List (List Byte × Nat)) (produced : Nat) (input : List Byte) (flags : Nat) : List Byte :=
  (Config.deflate level framing before input flags).take (deflateBound framing (before ++ [(input, flags)]) - produced)

/-- CMP_STAT follows the open stream (R501). -/
def State.refreshCmp (s : State) (n : Nat) : State :=
  let k := keyCMP n
  match (s.cmp n).stream with
  | none => s.setReg k Reg.CMP_STAT.STREAM.off 0
  | some (inf, level, framing) =>
    ((s.wb k Reg.CMP_STAT.STREAM true).wf k Reg.CMP_STAT.FRAMING framing).wf k Reg.CMP_STAT.LEVEL (if inf then 0 else level)

/-- The stream of an engine is gone. -/
def State.cmpDrop (s : State) (n : Nat) : State :=
  (s.modCmp n fun e => { CmpEngine.init with portOut := e.portOut }).refreshCmp n

/-- The output area of a job in user memory holds undefined bytes: each mapped byte of it is free (R498; log entry 93). -/
def State.spoilOutput (s : State) (j : CmpJob) : State :=
  if j.outSpace = 0 then
    let c := s.freeCtr
    let s : State := { s with freeCtr := c + j.outBytes }
    s.each ((List.range j.outBytes).filter fun i => s.mapped (j.outAddr + i)) fun s i =>
      s.writeMem (j.outAddr + i) [(Config.freeWord (c + i)).setWidth 8]
  else s

/-- The job ends without a result; the stream is as after the previous job, and bytes that the input port delivered are
discarded (R498, R499). -/
def State.cmpAbort (s : State) (n : Nat) : State :=
  let s := match (s.cmp n).job with | some j => s.spoilOutput j | none => s
  s.modCmp n fun e => { e with job := none, portIn := [] }

/-- Accept or reject a job (R496, R499). -/
def State.cmpStart (s : State) (n : Nat) (op : Op) (inflate : Bool) : State :=
  let k := keyCMP n
  let flags := op.a0
  let badFlags := if inflate then cmpEND flags || decide (cmpFLUSH flags ≠ 0) else
    (cmpEND flags && decide (cmpFLUSH flags ≠ 0)) || decide (cmpFLUSH flags = 3)
  let opened := match (s.cmp n).stream with | some (inf, _, _) => decide (inf = inflate) | none => false
  let outBytes := (s.reg k Reg.CMP_OUT_BYTES.off).toNat
  if badFlags then s.rejectOp k op codeRANGE 0x01
  else if !cmpBEGIN flags && !opened then s.rejectOp k op codeSTATE 0x02
  else if s.rf k Reg.CMP_OUT_HI.SPACE = 2 ∧ 4194304 < outBytes then s.rejectOp k op codeRANGE 0x09
  else
    let lf := match (s.cmp n).stream with
      | some (_, level, framing) => if cmpBEGIN flags then (s.rf k Reg.CMP_CFG.LEVEL, s.rf k Reg.CMP_CFG.FRAMING) else (level, framing)
      | none => (s.rf k Reg.CMP_CFG.LEVEL, s.rf k Reg.CMP_CFG.FRAMING)
    let job : CmpJob :=
      { inflate := inflate, flags := flags,
        inAddr := (s.reg k Reg.CMP_IN_LO.off).toNat + s.rf k Reg.CMP_IN_HI.ADDR * 2 ^ 32, inSpace := s.rf k Reg.CMP_IN_HI.SPACE,
        inBytes := (s.reg k Reg.CMP_IN_BYTES.off).toNat,
        outAddr := (s.reg k Reg.CMP_OUT_LO.off).toNat + s.rf k Reg.CMP_OUT_HI.ADDR * 2 ^ 32,
        outSpace := s.rf k Reg.CMP_OUT_HI.SPACE, outBytes := outBytes, level := lf.1, framing := lf.2 }
    (s.accept k op).modCmp n fun e => { e with job := some job }

/-- DEFLATE: run a compression job (R496). -/
def execDeflate (who : Issuer) (engine : Fin 8) (tag : Nat) (s : State) : Res :=
  .next (s.command who (keyCMP engine) 0x0100 tag fun s op => s.cmpStart engine op false)

/-- INFLATE: run a decompression job (R496). -/
def execInflate (who : Issuer) (engine : Fin 8) (tag : Nat) (s : State) : Res :=
  .next (s.command who (keyCMP engine) 0x0101 tag fun s op => s.cmpStart engine op true)

/-- The job is DONE: its output leaves and its result is written (R497, R501). -/
def State.cmpDone (s : State) (n : Nat) (j : CmpJob) (jobs : List (List Byte × Nat)) (out : List Byte) (consumed check : Nat)
    (produced : Nat) (ended : Bool) : State :=
  let k := keyCMP n
  let s :=
    if j.outSpace = 0 then s.storeMem j.outAddr (out.map fun b => (b, false))
    else if j.outSpace = 1 then s.emit (.hostWrite j.outAddr (out.map some))
    else s.modCmp n fun e => { e with portOut := e.portOut ++ out }
  let s := s.modCmp n fun e =>
    { e with job := none, stream := if ended then none else some (j.inflate, j.level, j.framing), jobs := if ended then [] else jobs,
             produced := if ended then 0 else produced, check := check, portIn := if j.inSpace = 2 then e.portIn.drop j.inBytes else e.portIn }
  ((((s.refreshCmp n).count k Reg.CMP_JOBS).progressTo k (consumed / 1024))).doneWith k
    [word out.length, word consumed, word check, word (boolNat ended)]

/-- The way of a job to the areas it has in user memory (R9). -/
def State.jobPath (s : State) (j : CmpJob) : MemPath :=
  let a := if j.inSpace = 0 then s.memPath 0 j.inAddr else .clear
  let b := if j.outSpace = 0 then s.memPath 0 j.outAddr else .clear
  if a = .fenced ∨ b = .fenced then .fenced else if a = .waits ∨ b = .waits then .waits else .clear

/-- CMP_JOB_DONE: the job of an engine ends: DONE with its result, or fails whole. `input` is what a HOST input area holds, and
`ok` is false when an access completes other than OK (R496-R501). A job whose areas lie behind a fence has no such completion (R415). -/
def execCmpJobDone (engine : Fin 8) (input : List Byte) (ok : Bool) (s : State) : Res :=
  let n : Nat := engine
  let k := keyCMP n
  let e := s.cmp n
  match e.job with
  | none => .next s
  | some j =>
    let way := s.jobPath j
    if (j.inSpace = 2 ∧ e.portIn.length < j.inBytes) ∨ way = .waits then .next s
    else if !ok ∨ way = .fenced then .next (((s.count k Reg.CMP_INT_ERR).cmpAbort n).failOp k codeFAULT 0x0A)
    else
      let data := if j.inSpace = 0 then s.readMem j.inAddr j.inBytes else if j.inSpace = 1 then (input ++ List.replicate j.inBytes 0).take j.inBytes
        else e.portIn.take j.inBytes
      let before := if cmpBEGIN j.flags then [] else e.jobs
      let produced := if cmpBEGIN j.flags then 0 else e.produced
      let noSpace := (((s.count k Reg.CMP_NOSPACE).setErr k 16).cmpAbort n).failOp k codeNOSPACE 0x03
      if j.inflate then
        let had := before.flatMap (·.1)
        let r := inflateAll j.framing (had ++ data)
        let out := r.out.drop produced
        match r.stop with
        | some (.bad sub) =>
          if j.outBytes < out.length then .next noSpace
          else
            let s := (((s.count k Reg.CMP_INT_ERR).setErr k 17).cmpAbort n).cmpDrop n
            .next (s.failOp k (if sub = subDICT then codeUNSUPPORTED else codeINTEGRITY) sub)
        | _ =>
          if j.outBytes < out.length then .next noSpace
          else
            let consumed := match r.ended with | some m => m - had.length | none => data.length
            .next (s.cmpDone n j (before ++ [(data, j.flags)]) out consumed (framingCheck j.framing r.out) r.out.length r.ended.isSome)
      else
        let out := deflateJob j.level j.framing before produced data j.flags
        if j.outBytes < out.length then .next noSpace
        else
          .next (s.cmpDone n j (before ++ [(data, j.flags)]) out data.length (framingCheck j.framing (before.flatMap (·.1) ++ data))
            (produced + out.length) (cmpEND j.flags))

/-! ### Jobs of the stream scheduler (R503, R504). -/

/-- The lowest-indexed engine that is owned by PHOIN and idle. -/
def State.freeEngine (s : State) : Option Nat :=
  (List.range 8).find? fun n =>
    decide ((s.page (keyCMP n)).owner = .phoin) && (s.page (keyCMP n)).op.isNone && (s.cmp n).job.isNone && !s.pageOff (keyCMP n) &&
      decide ((s.page (keyCMP n)).st ≠ .fault)

/-- Deflate a payload with zlib framing at a level on engine `n`: none when the job ends NOSPACE (R456, R503). -/
def State.compressOn (s : State) (n level : Nat) (payload : List Byte) : State × Option (List Byte) :=
  let out := deflateJob level 1 [] 0 payload 3
  if min payload.length 33554432 < out.length then ((s.count (keyCMP n) Reg.CMP_NOSPACE).setErr (keyCMP n) 16, none)
  else (s.count (keyCMP n) Reg.CMP_JOBS, some out)

/-- Inflate a compressed record's payload on engine `n`: none when it fails (R481, R503). -/
def State.inflateOn (s : State) (n : Nat) (payload : List Byte) : State × Option (List Byte) :=
  let r := inflateAll 1 payload
  match r.stop, r.ended with
  | none, some _ =>
    if 2 ^ 30 + 64 < r.out.length then ((s.count (keyCMP n) Reg.CMP_NOSPACE).setErr (keyCMP n) 16, none)
    else (s.count (keyCMP n) Reg.CMP_JOBS, some r.out)
  | some (.bad _), _ => ((s.count (keyCMP n) Reg.CMP_INT_ERR).setErr (keyCMP n) 17, none)
  | _, _ => (s.count (keyCMP n) Reg.CMP_JOBS, none)

end Sys2Proof.Machine
end

