-- ==== Sys2Proof/Machine/Drives.lean ====
section
/-! DEFINITION. Registered drives (R462-R466): namespaces, queue pairs, and the issue of commands. -/

namespace Sys2Proof.Machine

/-- A registered drive. -/
def State.drive (s : State) (d : Nat) : Option Drive := mfind s.drives d

/-- Change a drive. -/
def State.modDrive (s : State) (d : Nat) (f : Drive → Drive) : State :=
  match s.drive d with
  | some v => { s with drives := mput s.drives d (f v) }
  | none => s

/-- Store blocks of a drive, and extents (R466). -/
def Drive.blocks (v : Drive) : Nat := v.lbas * 2 ^ v.lbaLog2 / 4096
def Drive.extents (v : Drive) : Nat := (v.blocks - 2) / 16384

/-- First block of an extent (R466). -/
def extentBlock (e : Nat) : Nat := 1 + 16384 * e

/-- Bytes of an extent. -/
def extentBytes : Nat := 16384 * 4096

/-- The highest generation of a drive's extents. -/
def Drive.topGen (v : Drive) : Nat := v.gens.foldl (fun m e => max m e.2) 0

/-- A bit of one of the maps NVI_DRIVES, NVI_MOUNTED, NVI_FAILED, NVI_FULL. -/
def State.nviBit (s : State) (off d : Nat) : Bool := wbit (s.reg keyNVI off) d

/-- Set or clear it. -/
def State.nviMark (s : State) (off d : Nat) (b : Bool) : State :=
  s.setReg keyNVI off (wset (s.reg keyNVI off) d d (boolNat b))

def nviDRIVES : Nat := 0x100
def nviMOUNTED : Nat := 0x104
def nviFAILED : Nat := 0x108
def nviFULL : Nat := 0x10C

/-- Bytes in flight to a drive. -/
def State.driveBusy (s : State) (d : Nat) : Nat := ((s.writes.filter fun e => decide (e.2.drive = d)).map (·.2.bytes.length)).sum

/-- NVI_DRV_STAT follows the writes outstanding and the queue pairs (chapter 17). -/
def State.refreshDrive (s : State) (d : Nat) : State :=
  let n := match s.drive d with | some v => v.queues.length | none => 0
  s.setReg keyNVI (0x400 + 8 * d) (word (ceilDiv (s.driveBusy d) (2 ^ 20) % 65536 + n % 256 * 65536))

/-- Largest write of a drive in bytes (R464). -/
def Drive.maxWrite (v : Drive) : Nat := min (2 ^ v.mdtsLog2) (2 ^ 20)

/-- Commands of a queue pair in flight. -/
def State.queueBusy (s : State) (d qid : Nat) : Nat := (s.writes.filter fun e => decide (e.2.drive = d ∧ e.2.qid = qid ∧ e.2.held = false)).length

/-- The queue pair that takes the next command: round-robin over those with a free entry (R464). -/
def State.pickQueue (s : State) (d : Nat) (v : Drive) : Option (Nat × QueuePair) :=
  let n := v.queues.length
  ((List.range n).map fun i => (v.nextQueue + i) % max 1 n).findSome? fun i =>
    match v.queues[i]? with
    | some q => if s.queueBusy d q.qid + 1 < min q.sqEntries q.cqEntries then some (i, q) else none
    | none => none

/-- The lowest free aperture slot (R459, R464). -/
def State.freeSlot (s : State) : Option Nat := (List.range 1008).find? fun i => (mfind s.writes i).isNone

/-- The submission tail of a queue pair moves, and its doorbell is rung (R457, R463). -/
def State.ringSq (s : State) (d i : Nat) : State :=
  match s.drive d with
  | none => s
  | some v =>
    match v.queues[i]? with
    | none => s
    | some q =>
      let tail := (q.sqTail + 1) % max 1 q.sqEntries
      let s := s.modDrive d fun v => { v with queues := setNth v.queues i { q with sqTail := tail }, nextQueue := (i + 1) % max 1 v.queues.length }
      s.emit (.hostWrite q.sqDoorbell ((leBytes tail 4).map some))

/-- Issue a command on a drive's next queue pair. -/
def State.nvmeIssue (s : State) (d opcode block blocks slot : Nat) : Option (Nat × State) :=
  match s.drive d with
  | none => none
  | some v =>
    match s.pickQueue d v with
    | none => none
    | some (i, q) => some (q.qid, (s.emit (.nvmeCommand d q.qid opcode block blocks slot)).ringSq d i)

/-- Flush goes to a drive when a stream on it closes (R464). -/
def State.nvmeFlush (s : State) (d : Nat) : State := match s.nvmeIssue d 0x00 0 0 0 with | some (_, s) => s | none => s

end Sys2Proof.Machine
end

