-- ==== Sys2Proof/Machine/Rings.lean ====
section
/-! DEFINITION. Rings (R441-R449): contexts, doorbells, entries, growth, states, and the commands of the RNG page. -/

namespace Sys2Proof.Machine

/-- A ring at reset; rings 0-31 are the module's (R448). -/
def Ring.ofNum (n : Nat) : Ring :=
  { base := 0, entryLog2 := 0, lenLog2 := 0, host := false, consumer := false, phoin := decide (n < 32), st := .closed, vector := 0,
    holdoff := 0, prod := 0, cons := 0, origin := 0, grow := 0, growAt := 0, channel := 0xFFFF, task := 0, ignored := 0, fullWaits := 0,
    lastMsg := none, msgDue := false, entries := [], waiting := false, buffer := none, bufPos := 0, offsets := [] }

/-- Ring `n`. -/
def State.ring (s : State) (n : Nat) : Ring := mget Ring.ofNum s.rings n

/-- Change a ring; RNG_OPEN counts the rings not CLOSED (R449). -/
def State.modRing (s : State) (n : Nat) (f : Ring → Ring) : State :=
  let was := decide ((s.ring n).st ≠ .closed)
  let s := { s with rings := mput s.rings n (f (s.ring n)) }
  let now := decide ((s.ring n).st ≠ .closed)
  if was = now then s
  else s.setReg keyRNG Reg.RNG_OPEN.off (word ((s.reg keyRNG Reg.RNG_OPEN.off).toNat + boolNat now - boolNat was))

/-- Entries of a ring, and entries not consumed. -/
def Ring.len (r : Ring) : Nat := 2 ^ r.lenLog2
def Ring.held (r : Ring) : Nat := cnt32 r.prod r.cons

/-- Address of the entry with a count (R442). -/
def Ring.slot (r : Ring) (x : Nat) : Nat := r.base + cnt32 x r.origin % r.len * 2 ^ r.entryLog2

/-- The staged growth applies at its wrap once PROD is to reach it (R445). -/
def Ring.growTo (r : Ring) (prod : Nat) : Ring :=
  if r.grow = 0 then r
  else
    let w := r.prod + (r.len - cnt32 r.prod r.origin % r.len) % r.len
    if cnt32 w r.prod ≤ cnt32 prod r.prod then
      { r with origin := cnt32 w r.len, lenLog2 := r.grow, growAt := w % 2 ^ 32, grow := 0 }
    else r

/-- A ring enters FAULT (R446, R449); the KIND of its log entry is not given (log entry 45). -/
def State.ringFault (s : State) (n : Nat) : State :=
  let s := s.modRing n fun r => { r with st := .fault }
  let s := ((s.setReg keyRNG Reg.RNG_LAST_FAULT.off (word n)).setErr keyRNG 18).irqBit keyRNG 16
  let (kind, s) := s.drawNat
  s.logPage keyRNG 0 0 0 (kind % 256) n

/-- Send a ring's message, no sooner than HOLDOFF_US after the last (R444). -/
def State.ringMessage (s : State) (n : Nat) : State :=
  let r := s.ring n
  if r.vector < 32 then s
  else
    let due := match r.lastMsg with | some t => t + r.holdoff * sixPerUs | none => 0
    if due ≤ s.six then (s.modRing n fun r => { r with lastMsg := some s.six, msgDue := false }).sendMsix r.vector
    else s.modRing n fun r => { r with msgDue := true }

/-! ### Contexts and doorbells (R441, R443). -/

/-- RING_CONTEXT_WRITE: a word of a ring's context, honoured only while the ring is CLOSED and owned by HOST and the RNG page
is (R33, R441). -/
def execRingContextWrite (ring : Fin 32768) (index : Fin 16) (value : BitVec 32) (s : State) : Res :=
  let n : Nat := ring
  let r := s.ring n
  let v := value.toNat
  if s.pageOff keyRNG then .next (s.logDiscard keyRNG (0x2C00000 + 64 * n + 4 * index.val) v codeSTATE)
  else if (s.page keyRNG).owner ≠ .host then
    .next ((s.logDiscard keyRNG (0x2C00000 + 64 * n + 4 * index.val) v codeOWNER).setErr keyRNG 17)
  else if r.st ≠ .closed ∨ r.phoin then .next (s.setErr keyRNG 17)
  else
    .next (s.modRing n fun r =>
      if index = 0 then { r with base := setBits r.base 31 0 v }
      else if index = 1 then { r with base := setBits r.base 47 32 (v % 65536) }
      else if index = 2 then
        { r with entryLog2 := v % 256, lenLog2 := v / 256 % 256, host := nbit v 16, consumer := nbit v 17 }
      else if index = 3 then { r with vector := v % 65536, holdoff := v / 65536 }
      else r)

/-- STATE of a ring context (R441, R446; log entry 41). -/
def RingState.code : RingState → Nat
  | .closed => 0
  | .open0 => 1
  | .suspended => 2
  | .paused => 3
  | .fault => 4

/-- A word of a ring context (R441). -/
def Ring.ctxWord (r : Ring) (i : Nat) : Word :=
  match i with
  | 0 => word r.base
  | 1 => word (r.base / 2 ^ 32 % 2 ^ 16)
  | 2 => word (r.entryLog2 % 256 + 256 * (r.lenLog2 % 256) +
          65536 * (boolNat r.host + 2 * boolNat r.consumer + 4 * boolNat r.phoin) + 2 ^ 24 * r.st.code)
  | 3 => word (r.vector % 65536 + 65536 * r.holdoff)
  | 4 => word r.prod
  | 5 => word r.cons
  | 6 => word r.origin
  | 7 => word (r.grow % 256 + 65536 * r.channel)
  | 8 => word r.growAt
  | 9 => word r.task
  | 10 => word r.ignored
  | 11 => word r.fullWaits
  | _ => 0

/-- The difference of two counts as a signed 32-bit number is negative. -/
def backward (a b : Nat) : Bool := decide (2 ^ 31 ≤ cnt32 a b)

/-- A doorbell that is ignored (R443). -/
def State.dbIgnored (s : State) (n : Nat) : State :=
  ((s.modRing n fun r => { r with ignored := satInc 0xFFFFFFFF r.ignored }).count keyRNG Reg.RNG_DB_IGNORED).setErr keyRNG 16

/-- A doorbell count reaches a ring (R443). -/
def State.ringDoorbell (s : State) (n v : Nat) : State :=
  let r := s.ring n
  if r.st ≠ .open0 then s.dbIgnored n
  else if r.consumer then
    if backward v r.cons || decide (r.held < cnt32 v r.cons) then s.dbIgnored n
    else
      let k := cnt32 v r.cons
      s.modRing n fun r => { r with cons := v, offsets := r.offsets.drop k }
  else
    let g := r.growTo v
    if backward v r.prod || decide (g.len < cnt32 v r.cons) then s.dbIgnored n else s.modRing n fun _ => { g with prod := v }

/-- RING_DOORBELL: a write to a ring's address in BAR4. Rings 0 and 1 are Phoin's; a doorbell to a ring owned by PHOIN is
discarded (R267, R440, R443, R448). -/
def execRingDoorbell (ring : Fin 32768) (value : BitVec 64) (s : State) : Res :=
  if ring = 0 then execPhnDoorbell value true s
  else if ring = 1 then execPhnCqDoorbell value s
  else if (s.ring ring).phoin then .next (s.logDiscard keyRNG (8 * ring.val) value.toNat codeOWNER)
  else .next (s.ringDoorbell ring (value.toNat % 2 ^ 32))

/-! ### Entries (R444, R446). -/

/-- The module writes bytes in a ring's space. -/
def State.ringWrite (s : State) (r : Ring) (a : Nat) (bs : List Byte) : State :=
  if r.host then s.emit (.hostWrite a (bs.map some)) else s.storeMem a (bs.map fun b => (b, false))

/-- The way of the hub's accesses to an entry of a ring (R9). -/
def State.ringPath (s : State) (r : Ring) (a : Nat) : MemPath := if r.host then .clear else s.memPath 0 a

/-- RING_PRODUCE: the oldest entry that waits for a HOST_CONSUMER ring is written and PROD advances; on a full ring it waits and
the wait is counted. `ok` is false when the access completes other than OK (R444-R446). -/
def execRingProduce (ring : Fin 32768) (ok : Bool) (s : State) : Res :=
  let n : Nat := ring
  let r := s.ring n
  match r.entries with
  | [] => .next s
  | e :: rest =>
    if r.st ≠ .open0 ∨ !r.consumer then .next s
    else
      let g := r.growTo (r.prod + 1)
      if g.len ≤ g.held then
        .next (if r.waiting then s
          else s.modRing n fun r => { r with waiting := true, fullWaits := satInc 0xFFFFFFFF r.fullWaits })
      else if s.ringPath g (g.slot g.prod) = .waits then .next s
      else if !ok ∨ s.ringPath g (g.slot g.prod) = .fenced then .next (s.ringFault n)
      else
        let s := s.ringWrite g (g.slot g.prod) e
        let s := s.modRing n fun _ =>
          { g with prod := (g.prod + 1) % 2 ^ 32, entries := rest, waiting := false, offsets := g.offsets ++ [u64At e 0] }
        .next (s.ringMessage n)

/-- RING_CONSUME: the module reads the next entry of a HOST_PRODUCER ring, and CONS advances; the entry goes to the PLAYBACK
task bound to the ring. `entry` is what host memory holds there (R444, R446, R481). -/
def execRingConsume (ring : Fin 32768) (entry : List Byte) (ok : Bool) (s : State) : Res :=
  let n : Nat := ring
  let r := s.ring n
  if r.st ≠ .open0 ∨ r.consumer ∨ r.held = 0 ∨ r.task = 0 ∨ s.ringPath r (r.slot r.cons) = .waits then .next s
  else if !ok ∨ s.ringPath r (r.slot r.cons) = .fenced then .next (s.ringFault n)
  else
    let e := if r.host then (entry ++ List.replicate (2 ^ r.entryLog2) 0).take (2 ^ r.entryLog2) else s.readMem (r.slot r.cons) (2 ^ r.entryLog2)
    .next (s.modRing n fun r => { r with cons := (r.cons + 1) % 2 ^ 32, entries := r.entries ++ [e] })

/-- RING_HOLDOFF_EXPIRY: HOLDOFF_US has passed since the last message of a ring, and a pending one is sent (R444). -/
def execRingHoldoffExpiry (ring : Fin 32768) (s : State) : Res :=
  let r := s.ring ring
  if r.msgDue then
    let due := match r.lastMsg with | some t => t + r.holdoff * sixPerUs | none => 0
    .next ((s.advanceTo due).ringMessage ring)
  else .next s

/-! ### The RNG page (R446, R449). -/

/-- The common part of an RNG command: the ring number, and rings that the module drives (R448, R449). -/
def State.ringCommand (s : State) (who : Issuer) (opcode tag : Nat) (k : State → Op → Nat → Ring → State) : Res :=
  .next (s.command who keyRNG opcode tag fun s op =>
    if 32768 ≤ op.a0 then s.rejectOp keyRNG op codeRANGE 0
    else if op.a0 < 32 ∨ (s.ring op.a0).phoin then s.rejectOp keyRNG op codePROTECT 0x01
    else k s op op.a0 (s.ring op.a0))

/-- The ring takes a state and the command is DONE. -/
def State.ringTo (s : State) (op : Op) (n : Nat) (st : RingState) : State :=
  ((s.accept keyRNG op).modRing n fun r => { r with st := st }).doneOp keyRNG

/-- RING_OPEN: the geometry is checked, and the counts are 0 (R442, R446, R449). -/
def execRingOpen (who : Issuer) (tag : Nat) (s : State) : Res :=
  s.ringCommand who 0x0100 tag fun s op n r =>
    if r.st ≠ .closed then s.rejectOp keyRNG op codeSTATE 0
    else if r.entryLog2 < 4 ∨ 7 < r.entryLog2 ∨ r.lenLog2 < 4 ∨ 24 < r.lenLog2 ∨ r.base % 4096 ≠ 0 ∨
        !(decide (r.vector = 0) || (decide (32 ≤ r.vector) && decide (r.vector < 2048))) then s.rejectOp keyRNG op codeRANGE 0x02
    else
      let s := s.modRing n fun r => { r with prod := 0, cons := 0, origin := 0, grow := 0, entries := [], offsets := [], waiting := false }
      s.ringTo op n .open0

/-- RING_CLOSE (R446, R448). -/
def execRingClose (who : Issuer) (tag : Nat) (s : State) : Res :=
  s.ringCommand who 0x0101 tag fun s op n r =>
    if r.st = .closed then s.rejectOp keyRNG op codeSTATE 0
    else if r.task ≠ 0 then s.rejectOp keyRNG op codeSTATE 0x06
    else s.ringTo op n .closed

/-- RING_SUSPEND (R446). -/
def execRingSuspend (who : Issuer) (tag : Nat) (s : State) : Res :=
  s.ringCommand who 0x0102 tag fun s op n r =>
    if r.st = .open0 then s.ringTo op n .suspended else s.rejectOp keyRNG op codeSTATE 0

/-- RING_RESUME: from SUSPENDED, PAUSED or FAULT (R446, R449). -/
def execRingResume (who : Issuer) (tag : Nat) (s : State) : Res :=
  s.ringCommand who 0x0103 tag fun s op n r =>
    if r.st = .suspended ∨ r.st = .paused ∨ r.st = .fault then s.ringTo op n .open0 else s.rejectOp keyRNG op codeSTATE 0

/-- RING_RESIZE: growth is staged for the next wrap; a ring that is SUSPENDED and empty takes any length at once (R445, R449). -/
def execRingResize (who : Issuer) (tag : Nat) (s : State) : Res :=
  s.ringCommand who 0x0104 tag fun s op n r =>
    let len := op.a1 % 32
    if len < 4 ∨ 24 < len then s.rejectOp keyRNG op codeRANGE 0x02
    else if r.st = .closed then s.rejectOp keyRNG op codeSTATE 0
    else if r.grow ≠ 0 then s.rejectOp keyRNG op codeBUSY 0x05
    else if r.st = .suspended ∧ r.held = 0 then
      ((s.accept keyRNG op).modRing n fun r => { r with lenLog2 := len, origin := r.prod }).doneOp keyRNG
    else if len < r.lenLog2 then s.rejectOp keyRNG op codeSTATE (if r.st = .suspended then 0x03 else 0x04)
    else if len = r.lenLog2 then (s.accept keyRNG op).doneOp keyRNG
    else ((s.accept keyRNG op).modRing n fun r => ({ r with grow := len }).growTo r.prod).doneOp keyRNG

/-! ### HIF: data buffers (R460, R486). -/

/-- BIND_BUFFER: attach a host data buffer to a consumer ring (R460, R486). -/
def execBindBuffer (who : Issuer) (tag : Nat) (s : State) : Res :=
  .next (s.command who keyHIF 0x0101 tag fun s op =>
    let n := op.a0 % 32768
    let r := s.ring n
    let lg := op.a3 % 64
    let addr := op.a1 + op.a2 * 2 ^ 32
    if r.st ≠ .open0 ∨ !r.host ∨ !r.consumer ∨ r.entryLog2 ≠ 5 then s.rejectOp keyHIF op codeRANGE 0x01
    else if r.task ≠ 0 then s.rejectOp keyHIF op codeSTATE 0x02
    else if lg < 24 ∨ 36 < lg ∨ addr % 4096 ≠ 0 then s.rejectOp keyHIF op codeRANGE 0
    else ((s.accept keyHIF op).modRing n fun r => { r with buffer := some (addr, lg), bufPos := 0 }).doneOp keyHIF)

/-- UNBIND: detach a ring's buffer (R486). -/
def execUnbind (who : Issuer) (tag : Nat) (s : State) : Res :=
  .next (s.command who keyHIF 0x0102 tag fun s op =>
    let n := op.a0 % 32768
    if (s.ring n).task ≠ 0 then s.rejectOp keyHIF op codeSTATE 0x02
    else ((s.accept keyHIF op).modRing n fun r => { r with buffer := none, bufPos := 0 }).doneOp keyHIF)

end Sys2Proof.Machine
end

