-- ==== Sys2Proof/Machine/StreamOps.lean ====
section
/-! DEFINITION. Streams (R451-R456): opening, SEQ and assignment, token buckets, records as sent, closing; and the VITA 49.2
packets of a record (R470-R475). -/

namespace Sys2Proof.Machine

/-! ### Streams and ports. -/

/-- The stream of a task. -/
def State.stream (s : State) (task : Nat) : Option Stream :=
  match mfind s.streams (task % 4096) with
  | some t => if t.task = task then some t else none
  | none => none

/-- Change a task's stream. -/
def State.modStream (s : State) (task : Nat) (f : Stream → Stream) : State :=
  match s.stream task with
  | some t => { s with streams := mput s.streams (task % 4096) (f t) }
  | none => s

/-- Port `i` of a stream. -/
def Stream.port (t : Stream) (i : Nat) : Option StreamPort := t.ports.find? fun p => decide (p.index = i)

/-- Change one port of a stream. -/
def State.modPort (s : State) (task i : Nat) (f : StreamPort → StreamPort) : State :=
  s.modStream task fun t => { t with ports := t.ports.map fun p => if p.index = i then f p else p }

def destHOST : Nat := 1
def destNVME : Nat := 2
def destETH : Nat := 3

/-- The descriptor of a stream's task. -/
def State.streamDesc (s : State) (task : Nat) : List Byte := match s.task task with | some t => t.desc | none => []

/-- A flow before its stream opens. -/
def Flow.init : Flow := { st := .closed, psn := 0, rwnd := 0, unacked := [], heardAt := 0, sinceAt := 0, rto := 0 }

/-- Profile of a stream on a port: word `w` of ETH_PROFp (R490). -/
def State.profWord (s : State) (port prof w : Nat) : Nat := (s.reg (keyETH port) (0x800 + 0x40 * prof + 4 * w)).toNat

/-- A flag of FLAGS of a profile: 0 VALID, 1 IPV6, 2 LSA_EN, 3 VLAN_EN, 4 CONTEXT_EN. -/
def State.profFlag (s : State) (port prof i : Nat) : Bool := nbit (s.profWord port prof 0) i
def State.profMtu (s : State) (port prof : Nat) : Nat := s.profWord port prof 1 % 65536
def State.profSamples (s : State) (port prof : Nat) : Nat := s.profWord port prof 1 / 65536
def State.profRto (s : State) (port prof : Nat) : Nat := s.profWord port prof 8 / 65536
def State.profDead (s : State) (port prof : Nat) : Nat := s.profWord port prof 9 % 65536
def State.profFail (s : State) (port prof : Nat) : Nat := s.profWord port prof 9 / 65536

/-- Big-endian bytes. -/
def beB (v n : Nat) : List Byte := toBytes (beBytes v n)

/-- The LSA header of a datagram with its CHECK over the whole UDP payload (R476). -/
def State.lsaDatagram (s : State) (task port type : Nat) (body : List Byte) : List Byte :=
  let head := beB 0x4C53 2 ++ beB 1 1 ++ beB type 1 ++ beB task 4 ++ beB port 1 ++ beB 0 3
  let check := if dPORT_CRC (s.streamDesc task) then crc32c (head ++ beB 0 4 ++ body) else 0
  head ++ beB check 4 ++ body

/-- Send an LSA datagram of a stream on a port. -/
def State.sendLsa (s : State) (task port type : Nat) (body : List Byte) : State :=
  s.emit (.ethFrame port (dDEST_ID (s.streamDesc task) % 32) (s.lsaDatagram task port type body))

/-- OPEN of a flow (R477, R478). -/
def State.sendOpen (s : State) (task port : Nat) : State :=
  let d := s.streamDesc task
  s.sendLsa task port 1 (beB task 4 ++ beB (dDEST_ID d) 2 ++ beB (s.profMtu port (dDEST_ID d % 32)) 2)

/-- ETH_STAT.FLOWS counts the flows that are not CLOSED (R480). -/
def State.refreshFlows (s : State) : State :=
  (List.range 4).foldl (fun s p =>
    let n := (s.streams.filter fun e => decide (e.2.dest = destETH) && e.2.ports.any fun q => decide (q.index = p ∧ q.flow.st ≠ .closed)).length
    s.wf (keyETH p) Reg.ETH_STAT.FLOWS n) s

/-- STR_STAT and STR_GRANTp (chapter 17): the streams open and the rates granted, in MB/s. -/
def State.refreshStr (s : State) : State :=
  let s := s.wf keySTR Reg.STR_STAT.STREAMS s.streams.length
  let all := s.streams.map (·.2)
  let sum (f : Stream → StreamPort → Bool) := ((all.map fun t => ((t.ports.filter (f t)).map (·.grant)).sum).sum) / 1000
  let s := s.setReg keySTR (Reg.STR_GRANT 0).off (word (sum fun t _ => decide (t.dest ≠ destETH)))
  let inn := ((s.holdingTasks.flatMap (·.grants)).filter fun g => decide (g.cls = 6 ∧ g.dir = 1)).map (·.amount)
  let s := s.setReg keySTR (Reg.STR_GRANT 1).off (word (inn.sum / 1000))
  ((List.range 4).foldl (fun s p => s.setReg keySTR (Reg.STR_GRANT (2 + p)).off
    (word (sum fun t q => decide (t.dest = destETH ∧ q.index = p)))) s).refreshFlows

/-- A port of a stream with a grant. -/
def newPort (index grant now : Nat) : StreamPort :=
  { index := index, grant := grant, bucket := 0, bucketAt := now, assigned := 0, queue := [], carried := [], counts := [0, 0, 0],
    flow := Flow.init, context := [], contextAt := 0, extent := none }

/-- Give a stream its ports and grants: those it had keep what they hold (R454). A flow opens on a new Ethernet port whose
profile has LSA_EN (R480). -/
def State.setPorts (s : State) (task : Nat) (grants : List (Nat × Nat)) : State :=
  match s.stream task with
  | none => s
  | some t =>
    let ports := grants.map fun g => match t.port g.1 with | some p => { p with grant := g.2 } | none => newPort g.1 g.2 s.six
    let fresh := (grants.map (·.1)).filter fun i => (t.port i).isNone
    let s := s.modStream task fun t => { t with ports := ports }
    let prof := dDEST_ID (s.streamDesc task) % 32
    let s := s.each (if t.dest = destETH then fresh.filter fun i => s.profFlag i prof 2 else []) fun s i =>
      (s.modPort task i fun p => { p with flow := { Flow.init with st := .opening, heardAt := s.six, sinceAt := s.six, rto := s.profRto i prof } }).sendOpen task i
    s.refreshStr

/-- Open the stream of a task on its granted ports (R451); in the model it opens when the task is placed (log entry 48). -/
def State.openStream (s : State) (t : Task) (grants : List (Nat × Nat)) : State :=
  if (s.stream t.id).isSome then s.setPorts t.id grants
  else
    let x : Stream := { task := t.id, dest := dDEST t.desc, seq := 0, benches := [], ports := [], closing := false }
    let s := { s with streams := mput s.streams (t.id % 4096) x }
    let s := if dDEST t.desc = destHOST then s.modRing (dDEST_ID t.desc) fun r => { r with task := t.id } else s
    s.setPorts t.id grants

/-! ### Records as sent (R254, R256, R258, R453, R456). -/

/-- The legend and payload of a record on a stream, with COMPRESSED or ENCRYPTED set as its payload is carried; the CRC comes
last (R258, R456). -/
def State.sealRecord (s : State) (task seq : Nat) (r : Record) (flags : Nat) (payload : List Byte) (key : Option (List Byte)) : Nat × List Byte :=
  let flags := if key.isSome then flags ||| 0x400 else flags
  let bytes := payload.length + if key.isSome then 16 else 0
  let head := (s.legendBytes r task seq 0 flags bytes).take 0x3C
  let payload := match key with
    | some k => gcmEncrypt k (beB task 4 ++ beB seq 8) head payload
    | none => payload
  let crc := crc32cFrom (Nat.xor task (seq % 2 ^ 32)) (head ++ payload)
  (flags, head ++ leBytes crc 4 ++ payload)

/-- A record with a SEQ, ready to send. -/
def State.streamRec (s : State) (task seq : Nat) (r : Record) (src : RecSource) (flags : Nat) (payload : List Byte)
    (key : Option (List Byte)) (free : Bool) : StreamRec :=
  let x := s.sealRecord task seq r flags payload key
  { seq := seq, kind := r.kind, flags := x.1, six := r.six, fine := r.fine, granule := r.granule, bytes := x.2, from0 := src, sent := 0,
    whole := false, open0 := 0, free := free, waited := false, place := none }

/-- The BENCHMARK record of a benchmark (R80, R81). -/
def benchRecord (task : Nat) (b : Bench) : Record :=
  { kind := 9, flags := 0, task := task, source := 0x0F90, trigMask := 0, six := b.six, fine := 0, pre := 0, post := 0, payload := b.payload }

/-- The benchmark on which a record's legend time depends takes a SEQ ahead of it, once per stream (R80, R453). -/
def State.streamBench (s : State) (task six : Nat) : State :=
  match s.stream task with
  | none => s
  | some t =>
    let b := s.benchAt six
    if b.payload.isEmpty ∨ t.benches.any (fun x => decide (x.1 = b.six)) then s
    else
      let r := s.streamRec task t.seq (benchRecord task b) .none 0 b.payload none true
      s.modStream task fun t => { t with seq := t.seq + 1, benches := (b.six, r) :: t.benches }

/-- A record goes into a port's queue by its SEQ (R452). -/
def insertSeq (r : StreamRec) (q : List StreamRec) : List StreamRec :=
  q.takeWhile (fun x => decide (x.seq < r.seq) || decide (x.sent ≠ 0) || x.whole) ++
    [r] ++ q.dropWhile (fun x => decide (x.seq < r.seq) || decide (x.sent ≠ 0) || x.whole)

/-- Put a record on a port; the benchmark it is timed from goes ahead of it on a port that has not carried it (R453). -/
def State.putOnPort (s : State) (task i : Nat) (r : StreamRec) : State :=
  match s.stream task with
  | none => s
  | some t =>
    let b := (s.benchAt r.six).six
    s.modPort task i fun p =>
      match mfind t.benches b with
      | some x =>
        if p.carried.contains b then { p with queue := insertSeq r p.queue }
        else { p with queue := insertSeq r (insertSeq x p.queue), carried := b :: p.carried }
      | none => { p with queue := insertSeq r p.queue }

/-- The port that takes a record of `b` bytes: the smallest V_p + b/g_p, the lowest index on a tie (R454). -/
def assignPort (ports : List StreamPort) (b : Nat) : Option Nat :=
  (ports.foldl (fun (best : Option StreamPort) p =>
    match best with
    | none => some p
    | some q => if (p.assigned + b) * max 1 q.grant < (q.assigned + b) * max 1 p.grant then some p else some q) none).map (·.index)

/-- A stream takes a record: the benchmark, the transformation of its payload, SEQ and a port (R451-R456). The record waits
at its source while no engine is free for its compression (R503, R504); it stays in the list then. -/
def State.takeRecord (s : State) (task : Nat) (x : Ready) : Option State :=
  match s.stream task with
  | none => none
  | some t =>
    let d := s.streamDesc task
    let r := x.record
    let plain := decide (r.kind = 8 ∨ r.kind = 9 ∨ r.kind = 10)
    let wants := dCOMPRESS d && !plain
    if t.ports.isEmpty ∨ t.closing then none
    else if wants && s.freeEngine.isNone then none
    else
      let (s, flags, payload) :=
        if wants then
          match s.freeEngine with
          | some n => match s.compressOn n (dCOMP_LEVEL d) r.payload with
            | (s, some out) => (s, r.flags ||| 0x200, out)
            | (s, none) => (s, r.flags, r.payload)
          | none => (s, r.flags, r.payload)
        else (s, r.flags, r.payload)
      let key := if dENCRYPT d && !plain then mfind s.keyStore (dKEY_SLOT d) else none
      let s := s.streamBench task r.six
      match s.stream task with
      | none => none
      | some t =>
        let sr := s.streamRec task t.seq r x.from0 flags payload key (decide (r.kind = 8))
        let b := if sr.free then 0 else sr.bytes.length
        match assignPort t.ports b with
        | none => none
        | some i =>
          let s := s.modStream task fun t => { t with seq := t.seq + 1 }
          some ((s.modPort task i fun p => { p with assigned := p.assigned + b }).putOnPort task i sr)

/-- Take every ready record of a task that can be taken, in order (R452). -/
def State.takeAll (s : State) (task : Nat) (all : List Ready) : State :=
  match all with
  | [] => s
  | x :: rest =>
    if x.record.task = task then
      match s.takeRecord task x with
      | some s' => State.takeAll { s' with readyRecs := s'.readyRecs.erase x } task rest
      | none => s
    else State.takeAll s task rest

/-! ### Taken records (R455). -/

/-- A record of a plane that scan-out shows is not passed before a newer one has been latched: the advance waits (R548). -/
def State.passRd (s : State) (p n off : Nat) : State :=
  if s.scan.any fun g => g.2.shown.any fun x => decide (x.1 = p ∧ x.2.1 = n) && (s.capture p).recs.any (fun r => decide (r.plane = n ∧ r.endOff = x.2.2)) &&
      ((s.capture p).recs.dropWhile fun r => decide (¬(r.plane = n ∧ r.endOff = x.2.2))).any (fun r => decide (r.plane = n ∧ r.endOff = off)) then
    { s with passed := s.passed ++ [(p, n, off)] }
  else s.moveRd p n off

/-- The source of a record is released: its sheet, or RD of its record plane (R246, R455). -/
def State.releaseSource (s : State) (src : RecSource) : State :=
  match src with
  | .sheet p wc =>
    match (s.capture p).sheets.findIdx? fun h => decide (h.startWc = wc) && !h.released with
    | some i => s.releaseAt p i
    | none => s
  | .plane p n off => s.passRd p n off
  | .parkedSheet slot wc =>
    s.modPhn fun h => { h with parked := h.parked.map fun x =>
      if x.1 = slot then (x.1, { x.2 with cap := { x.2.cap with sheets := x.2.cap.sheets.map fun y =>
        if y.startWc = wc then { y with released := true } else y } }) else x }
  | .parkedPlane slot n off =>
    s.modPhn fun h => { h with parked := h.parked.map fun x =>
      if x.1 = slot then
        (x.1, { x.2 with cap := { x.2.cap with recs := ((x.2.cap.recs.filter fun r => decide (r.plane ≠ n)) ++
                    (((x.2.cap.recs.filter fun r => decide (r.plane = n)).dropWhile fun r => decide (r.endOff ≠ off)).drop 1)) },
                         redRegs := mput x.2.redRegs (0x210 + 0x20 * n) (word off) })
      else x }
  | .none => s

/-- The entry of a record in a host ring has been produced (R455). -/
def State.hostProduced (s : State) (task seq : Nat) : Bool :=
  !((s.ring (dDEST_ID (s.streamDesc task))).entries.any fun e => decide (u64At e 0x10 = seq))

/-- The destination has taken a record (R455). -/
def State.isTaken (s : State) (task dest : Nat) (r : StreamRec) : Bool :=
  r.whole && decide (r.open0 = 0) && (decide (dest ≠ destHOST) || s.hostProduced task r.seq)

/-- A stream whose TERMINATOR has been taken everywhere is gone, and its task's slot may become free (R284, R568). -/
def State.dropClosed (s : State) (task : Nat) : State :=
  match s.stream task with
  | none => s
  | some t =>
    if t.closing ∧ t.ports.all (fun p => p.queue.isEmpty && decide (p.flow.st ≠ .closing)) then
      let s := if t.dest = destHOST then s.modRing (dDEST_ID (s.streamDesc task)) fun r => { r with task := 0 } else s
      let s := if t.dest = destNVME then s.each (t.ports.map (·.index)) State.nvmeFlush else s
      let s := { s with streams := mdel s.streams (task % 4096) }
      (s.modTask task fun t => { t with closed := true }).refreshStr
    else s

/-! ### Closing (R284, R568). -/

/-- The TERMINATOR record of a closing stream (R568). -/
def State.terminator (s : State) (task reason code sub copies seq left : Nat) : Record :=
  { kind := 10, flags := 0, task := task, source := 0x0FFF, trigMask := 0, six := s.six, fine := 0, pre := 0, post := 0,
    payload := leBytes reason 1 ++ leBytes code 1 ++ leBytes sub 1 ++ leBytes copies 1 ++ leBytes 0 4 ++ leBytes seq 8 ++ leBytes left 8 }

/-- Close the stream of a task: DONE takes what is ready first; otherwise what has not begun to leave is discarded and counted in
LEFT. One TERMINATOR goes on every port that `accepts` (R483, R568). -/
def State.closeStream (s : State) (task reason code sub : Nat) (accepts : State → Nat → Nat → Bool) : State :=
  match s.stream task with
  | none => { s.modTask task fun t => { t with closed := true } with readyRecs := s.readyRecs.filter fun x => decide (x.record.task ≠ task) }
  | some t =>
    if t.closing then s
    else
      let s := if reason = 1 then s.takeAll task s.readyRecs else s
      let left := (s.readyRecs.filter fun x => decide (x.record.task = task)).length
      let s := { s with readyRecs := s.readyRecs.filter fun x => decide (x.record.task ≠ task) }
      let keep (r : StreamRec) := decide (reason = 1 ∨ r.sent ≠ 0 ∨ r.whole)
      let left := left + match s.stream task with
        | some t => ((t.ports.flatMap (·.queue)).filter fun r => !keep r && !r.free).length
        | none => 0
      let s := s.modStream task fun t => { t with ports := t.ports.map fun p => { p with queue := p.queue.filter keep } }
      let s := s.streamBench task s.six
      match s.stream task with
      | none => s
      | some t =>
        let on := (t.ports.map (·.index)).filter (accepts s t.dest)
        let r := s.terminator task reason code sub on.length t.seq left
        let sr := s.streamRec task t.seq r .none 0 r.payload none true
        let s := s.modStream task fun t => { t with seq := t.seq + 1, closing := true }
        (s.each on fun s i => s.putOnPort task i sr).dropClosed task

/-- Every port takes a TERMINATOR. -/
def anyPort (_ : State) (_ _ : Nat) : Bool := true

/-! ### Token buckets (R454). -/

/-- One byte in the units of a bucket. -/
def bucketByte : Int := 40960000

/-- Fill a port's bucket up to the present (R454). -/
def fillBucket (p : StreamPort) (now : Nat) : StreamPort :=
  { p with bucket := min ((p.grant * 81920000 : Nat) : Int) (p.bucket + ((p.grant * (now - p.bucketAt) : Nat) : Int)), bucketAt := now }

/-- A transfer unit of `n` record bytes leaves: the bucket pays, and STR_RATE follows (R454). -/
def State.payUnit (s : State) (task i n : Nat) (free : Bool) : State :=
  match s.stream task with
  | none => s
  | some t =>
    let k := if t.dest = destETH then 2 + i else 0
    let s := if free then s else s.modPort task i fun p => { p with bucket := p.bucket - n * bucketByte }
    let l := (s.sentLog ++ [(k, s.six, n)]).filter fun e => decide (s.six < e.2.1 + sixPerMs)
    { s.setReg keySTR (Reg.STR_RATE k).off (word (((l.filter fun e => decide (e.1 = k)).map (·.2.2)).sum / 1000)) with sentLog := l }

/-- A record waits at its source, counted once (R455). -/
def State.recordWaits (s : State) (task i : Nat) : State :=
  match s.stream task with
  | none => s
  | some t =>
    match t.port i with
    | none => s
    | some p =>
      match p.queue.find? fun r => !r.whole with
      | some r =>
        if r.waited then s
        else (s.count keySTR Reg.STR_WAITS).modPort task i fun p =>
          { p with queue := p.queue.map fun x => if x.seq = r.seq then { x with waited := true } else x }
      | none => s

/-- Change the record with a SEQ on a port. -/
def State.modRec (s : State) (task i seq : Nat) (f : StreamRec → StreamRec) : State :=
  s.modPort task i fun p => { p with queue := p.queue.map fun x => if x.seq = seq then f x else x }

/-! ### VITA packets of a record (R471-R475). -/

/-- An IQ record whose payload is samples: neither compressed nor encrypted. -/
def StreamRec.isIq (r : StreamRec) : Bool := decide (r.kind = 1 ∨ r.kind = 2) && !nbit r.flags 9 && !nbit r.flags 10

/-- Samples of an IQ record, bytes that come before them, and its label period and first label (R259). -/
def StreamRec.samples (r : StreamRec) : Nat := u32At r.bytes 0x50
def StreamRec.headBytes (r : StreamRec) : Nat := if r.isIq then 96 else r.bytes.length
def StreamRec.period (r : StreamRec) : Nat := u32At r.bytes 0x4C
def StreamRec.first (r : StreamRec) : Nat := u64At r.bytes 0x40 + byteAt r.bytes 0x48 * 2 ^ 64

/-- Largest UDP payload of a profile, less the LSA header and DATA body (R470, R476, R477, R490). -/
def State.vitaRoom (s : State) (port prof : Nat) : Nat :=
  s.profMtu port prof - 18 - (if s.profFlag port prof 3 then 4 else 0) - (if s.profFlag port prof 1 then 40 else 20) - 8 -
    (if s.profFlag port prof 2 then 32 else 0)

/-- Bytes of a record that one extension packet carries. -/
def State.extRoom (s : State) (port prof : Nat) : Nat := max 4 ((s.vitaRoom port prof - 28) / 4 * 4)

/-- The header of a packet: type, T bit, count, words, stream, pad bits, OUI, classes, timestamp (R473). -/
def vitaHead (type : Nat) (trailer : Bool) (count words stream pad oui info cls secs ps : Nat) : List Byte :=
  beB (type * 2 ^ 28 + 2 ^ 27 + boolNat trailer * 2 ^ 26 + 2 ^ 25 + 3 * 2 ^ 22 + 2 * 2 ^ 20 + count % 16 * 2 ^ 16 + words % 65536) 4 ++
    beB stream 4 ++ beB (pad * 2 ^ 27 + oui % 2 ^ 24) 4 ++ beB (info * 65536 + cls % 65536) 4 ++ beB secs 4 ++ beB ps 8

/-- Components of stored samples, two's complement, in order I, Q, I, Q (R234). -/
def sampleParts (kind : Nat) (bs : List Byte) : List Nat :=
  if kind = 2 then
    (List.range (bs.length / 6)).flatMap fun i =>
      let w := leAt bs (6 * i) 6
      [w % 4096, w / 4096 % 4096, w / 2 ^ 24 % 4096, w / 2 ^ 36 % 4096]
  else (List.range (bs.length / 2)).map fun i => u16At bs (2 * i)

/-- Samples in VITA order: 16-bit big-endian words, or 12-bit components most significant bit first (R472). -/
def vitaSamples (kind n : Nat) (bs : List Byte) : List Byte :=
  let parts := (sampleParts kind bs).take (2 * n)
  if kind = 2 then
    let bits := parts.foldl (fun a p => a * 4096 + p) 0
    let len := (24 * n + 31) / 32 * 4
    beB (bits * 2 ^ (8 * len - 24 * n)) len
  else parts.flatMap fun p => beB p 2

/-- The trailer of a signal packet: TIME_VALID, valid data, LOCKED, over-range, sample loss, MIGRATED, POISONED, SETTLING, STALE
(R474). -/
def State.vitaTrailer (s : State) (r : StreamRec) (a n : Nat) : Nat :=
  let at_ := r.granule.1 + a
  let marks := ((r.granule.2.drop (at_ / 64)).take ((at_ + n + 63) / 64 - at_ / 64)).foldl (· ||| ·) 0
  let marks := if r.granule.2.isEmpty then
      boolNat (nbit r.flags 0) + 2 * boolNat (nbit r.flags 1) + 4 * boolNat (nbit r.flags 7) + 8 * boolNat (nbit r.flags 6) +
        16 * boolNat (nbit r.flags 2)
    else marks
  let ind :=
    boolNat (s.rb keyTBS Reg.TBS_STATE.TIME_VALID) * 2 ^ 19 + boolNat (marks % 4 = 0) * 2 ^ 18 +
      boolNat (s.rf keyTBS Reg.TBS_STATE.TB_STATE = 2) * 2 ^ 17 + boolNat (nbit marks 2) * 2 ^ 13 + boolNat (nbit marks 3) * 2 ^ 12 +
      boolNat (nbit marks 4) * 2 ^ 11 + boolNat (nbit r.flags 3) * 2 ^ 10 + boolNat (nbit marks 0) * 2 ^ 9 + boolNat (nbit marks 1) * 2 ^ 8
  ind + (2 ^ 31 + 2 ^ 30 + 2 ^ 29 + 2 ^ 25 + 2 ^ 24 + 2 ^ 23 + 2 ^ 22 + 2 ^ 21 + 2 ^ 20)

/-- Seconds (low 32 bits) and picoseconds of an index (R83, R473). -/
def State.vitaTime (s : State) (six fine : Nat) : Nat × Nat := ((s.legendTime six fine).1 % 2 ^ 32, (s.legendTime six fine).2)

/-- Packets of a record on a port: extension packets, then signal packets (R472). -/
def State.packetCount (s : State) (port prof : Nat) (r : StreamRec) : Nat :=
  let e := ceilDiv r.headBytes (s.extRoom port prof)
  if r.isIq then e + ceilDiv r.samples (max 1 (s.profSamples port prof)) else e

/-- Packet `k` of a record: kind (0 signal, 1 extension), record bytes it carries, and its bytes (R472-R474). -/
def State.vitaPacket (s : State) (task port prof : Nat) (r : StreamRec) (count : List Nat) (k : Nat) : Nat × Nat × List Byte :=
  let room := s.extRoom port prof
  let e := ceilDiv r.headBytes room
  let oui := s.rf (keyETH port) Reg.ETH_VITA_OUI.OUI
  let info := s.profWord port prof 10 % 65536
  if k < e then
    let body := ((r.bytes.take r.headBytes).drop (k * room)).take room
    let padded := body ++ List.replicate ((4 - body.length % 4) % 4) 0
    let t := s.vitaTime r.six r.fine
    (1, body.length, vitaHead 3 false (nth 0 count 1) (7 + padded.length / 4) task (8 * (padded.length - body.length)) oui info (0x100 + r.kind) t.1 t.2 ++ padded)
  else
    let per := max 1 (s.profSamples port prof)
    let a := (k - e) * per
    let n := min per (r.samples - a)
    let size := if r.kind = 2 then 3 else 4
    let raw := (r.bytes.drop (96 + size * a)).take (size * n + (if r.kind = 2 ∧ n % 2 = 1 then 3 else 0))
    let body := vitaSamples r.kind n raw
    let pad := 8 * body.length - (if r.kind = 2 then 24 else 32) * n
    let t := s.vitaTime (r.first + a * r.period) 0
    (0, size * n, vitaHead 1 true (nth 0 count 0) (8 + body.length / 4) task pad oui info r.kind t.1 t.2 ++ body ++ beB (s.vitaTrailer r a n) 4)

/-- The fields of a context packet after CIF0: bandwidth, RF reference, gain, sample rate, state and events, payload format, in
the units of VITA 49.2 (R475; log entry 49). -/
def State.contextBody (s : State) (task : Nat) (r : StreamRec) : List Byte :=
  let d := byteAt r.bytes 0x49
  let bonded := decide (byteAt r.bytes 0x4B ≠ 0)
  let rate := (if bonded then 40960000000 else 20480000000) * 2 ^ 20 / 2 ^ d
  let ref := u64At r.bytes 0x58 % 2 ^ 48 * 40960000000 * 2 ^ 20 / 2 ^ 48
  let conv := byteAt r.bytes 0x4A
  let atten : Int := -2 * (s.af (keyAFE (min conv 4)) Reg.AFE_CFG.ATTEN : Int)
  let gain := 6 * (match s.task task with | some t => s.af (keyDDC (t.pipes.headD 0)) Reg.DDC_CFG.GAIN | none => 0)
  beB (rate * 78125 / 100000) 8 ++ beB ref 8 ++ beB (gain * 128 * 65536 + unsignedOf 16 (atten * 128)) 4 ++ beB rate 8 ++
    beB (s.vitaTrailer r 0 r.samples) 4 ++ beB (if r.kind = 2 then 0xA00002CB else 0x200003CF) 4 ++ beB 0 4

/-- A context packet; bit 31 of CIF0 tells a change from the last one (R473, R475). -/
def State.contextPacket (s : State) (task port prof count : Nat) (changed : Bool) (six : Nat) (body : List Byte) : List Byte :=
  let t := s.vitaTime six 0
  vitaHead 4 false count (8 + body.length / 4) task 0 (s.rf (keyETH port) Reg.ETH_VITA_OUI.OUI) (s.profWord port prof 10 % 65536) 3 t.1 t.2 ++
    beB (boolNat changed * 2 ^ 31 + 2 ^ 29 + 2 ^ 27 + 2 ^ 23 + 2 ^ 21 + 2 ^ 16 + 2 ^ 15) 4 ++ body

end Sys2Proof.Machine
end

