-- ==== Sys2Proof/Machine/DisplayBase.lean ====
section
/-! DEFINITION. Scan-out: generators, output states, the sets of staged changes, and annotation buffers (R541-R543, R551, R557). -/

namespace Sys2Proof.Machine

/-- A generator at reset. -/
def Scan.init : Scan :=
  { grt := none, trace := none, shown := [], annot := none, header := [], image := [], gen := none, frameAt := 0, blank := false, static := 0 }

/-- Generator `g`. -/
def State.scanOf (s : State) (g : Nat) : Scan := mget (fun _ => Scan.init) s.scan g

/-- Change a generator. -/
def State.modScan (s : State) (g : Nat) (f : Scan → Scan) : State := { s with scan := mput s.scan g (f (s.scanOf g)) }

/-- States of an output (R543). -/
def outOFF : Nat := 0
def outTRAINING : Nat := 1
def outACTIVE : Nat := 2
def outBLANKED : Nat := 3
def outLOW_REFRESH : Nat := 4
def outUNFIT : Nat := 5

def State.outState (s : State) (o : Nat) : Nat := s.rf keyDSP (if o = 0 then Reg.DSP_STAT.OUT0_STATE else Reg.DSP_STAT.OUT1_STATE)
def State.setOut (s : State) (o n : Nat) : State := s.wf keyDSP (if o = 0 then Reg.DSP_STAT.OUT0_STATE else Reg.DSP_STAT.OUT1_STATE) n
def State.hpd (s : State) (o : Nat) : Bool := s.rb keyDSP (if o = 0 then Reg.DSP_STAT.HPD0 else Reg.DSP_STAT.HPD1)

/-- INDEP mode is applied (R549). -/
def State.indep (s : State) : Bool := s.ab keyDSP Reg.DSP_CFG.MODE

/-- The output is enabled. -/
def State.outEnabled (s : State) (o : Nat) : Bool := nbit (s.af keyDSP Reg.DSP_CFG.OUT_EN) o

/-- The generator that drives an output (R549). -/
def State.outGen (s : State) (o : Nat) : Nat := if o = 1 ∧ s.indep then 1 else 0

/-- Outputs that a generator drives. -/
def State.genOuts (s : State) (g : Nat) : List Nat := [0, 1].filter fun o => decide (s.outGen o = g)

/-! ### Timing (R542). -/

/-- HTOTAL, VTOTAL and ten thousandths of a hertz of the pixel clock from WIDTH, HEIGHT and mHz. -/
def timingH (w : Nat) : Nat := w + 80
def timingV (h mhz : Nat) : Nat := (h * 1000000000 + (1000000000 - 460 * mhz) - 1) / (1000000000 - 460 * mhz)
def timingMilliHz (w h mhz : Nat) : Nat := timingH w * timingV h mhz * mhz

/-- A display size and rate that R542 admits. -/
def timingOk (w h mhz : Nat) : Bool :=
  decide (w % 4 = 0 ∧ 640 ≤ w ∧ w ≤ 3840 ∧ 480 ≤ h ∧ h ≤ 2160 ∧ 24000 ≤ mhz ∧ mhz ≤ 120000) &&
    decide (100000000000 ≤ timingMilliHz w h mhz ∧ timingMilliHz w h mhz ≤ 1200000000000)

/-- Applied timing of a generator. -/
def State.genW (s : State) (g : Nat) : Nat := s.af keyDSP (Reg.DSP_T_H.ACTIVE g)
def State.genH (s : State) (g : Nat) : Nat := s.af keyDSP (Reg.DSP_T_V.ACTIVE g)
def State.genLine (s : State) (g : Nat) : Nat := s.af keyDSP (Reg.DSP_T_H.TOTAL g)
def State.genLines (s : State) (g : Nat) : Nat := s.af keyDSP (Reg.DSP_T_V.TOTAL g)
def State.genKhz (s : State) (g : Nat) : Nat := max 1 (s.af keyDSP (Reg.DSP_T_CLK.KHZ g))

/-- Nominal frame period and line time in SIX. -/
def State.framePeriod (s : State) (g : Nat) : Nat := s.genLine g * s.genLines g * 40960000 / s.genKhz g
def State.lineSix (s : State) (g : Nat) : Nat := s.genLine g * 40960000 / s.genKhz g

/-! ### Annotation buffers (R557). -/

/-- Retire a buffer. -/
def State.retire (s : State) (addr : Nat) : State :=
  let s := s.setReg keyDSP 0x138 (word ((s.reg keyDSP 0x138).toNat + 1))
  ((s.setReg keyDSP 0x13C (word addr)).setReg keyDSP 0x140 (word (addr / 2 ^ 32 % 65536))).irqBit keyDSP 18

/-- Retire the buffer in use, when there is one, and then those superseded before they were shown. -/
def State.retireAll (s : State) : State :=
  let s := match s.annotUse with | some a => { s.retire a with annotUse := none } | none => s
  { s.each s.retiring State.retire with retiring := [] }

/-- With every output OFF, buffers are retired at once. -/
def State.retireIfOff (s : State) : State := if s.outState 0 = outOFF ∧ s.outState 1 = outOFF then s.retireAll else s

/-- Annotation address of a list of words. -/
def annotOf (ws : List (Nat × Word)) : Nat :=
  (mget (regReset keyDSP) ws 0x120).toNat + (mget (regReset keyDSP) ws 0x124).toNat % 65536 * 2 ^ 32

/-- A set of staged words waits for the first vertical sync at least 100 µs ahead; it replaces one that waits already, whose buffer is
retired without being shown (R551, R557). -/
def State.stageDsp (s : State) (ws : List (Nat × Word)) (byOp : Bool) : State :=
  let s := match s.pendOf keyDSP with
    | some a =>
      let x := annotOf a.words
      if x ≠ 0 ∧ x ≠ annotOf ws ∧ some x ≠ s.annotUse then { s with retiring := s.retiring ++ [x] } else s
    | none => s
  { s with pend := mput s.pend keyDSP { due := s.six + 4096000, words := ws, byOp := byOp } }

/-- The words of the DSP page as a DISPLAY_FEED asks for them (R283, R542, R549, R551). -/
def State.feedWords (s : State) (d : List Byte) (annot : Bool) : List (Nat × Word) :=
  let w := u16At d 0x7C
  let h := u16At d 0x7E
  let mhz := u32At d 0x80
  let a := u64At d 0x84
  let layers := boolNat (decide (u32At d 0x70 ≠ 0)) + 2 * boolNat (decide (u32At d 0x74 ≠ 0)) + (if annot ∧ a ≠ 0 then 12 else 0)
  let cfg := wset (wset (wset (wset (s.areg keyDSP 0x100) 0 0 0) 3 2 (byteAt d 0x78)) 7 4 layers) 11 10 (byteAt d 0x79)
  let put (ws : List (Nat × Word)) (x : Nat × Nat) := mput ws x.1 (word x.2)
  [(0x104, timingH w * 65536 + w), (0x108, timingV h mhz * 65536 + h), (0x10C, (timingMilliHz w h mhz + 500000) / 1000000),
    (0x120, a % 2 ^ 32), (0x124, a / 2 ^ 32 % 65536), (0x128, u32At d 0x8C)].foldl put (mput (s.page keyDSP).applied 0x100 cfg)

/-- A DISPLAY_FEED leaves the outputs: the release of its buffer waits for the next vertical sync, and layers and outputs go with it
(R557; log entry 56). -/
def State.releaseDisplay (s : State) : State :=
  let cfg := wset (wset (s.areg keyDSP 0x100) 3 2 0) 7 4 0
  let ws := mput (mput (mput (s.page keyDSP).applied 0x100 cfg) 0x120 0) 0x124 0
  (s.stageDsp ws false).retireIfOff

end Sys2Proof.Machine
end

