-- ==== Sys2Proof/Machine/Graticule.lean ====
section
/-! DEFINITION. Graticules (R179-R195): hit counts, persistence, density marks, frames and their readout. -/

namespace Sys2Proof.Machine

/-! ### binary32 (R183, R186). -/

/-- Mantissa and exponent of a finite, non-negative binary32: value = m × 2^(e − 149). -/
def f32Parts (w : Word) : Nat × Nat :=
  let e := wget w 30 23
  let m := wget w 22 0
  if e = 0 then (m, 0) else (m + 2 ^ 23, e - 1)

/-- The binary32 of a natural number below 2^128, rounded to nearest, ties to even. -/
def f32OfNat (n : Nat) : Word :=
  if n = 0 then 0
  else
    let k := Nat.log2 n
    if k ≤ 23 then word ((k + 127) * 2 ^ 23 + (n * 2 ^ (23 - k) - 2 ^ 23))
    else
      let sh := k - 23
      let q := n / 2 ^ sh
      let r := n % 2 ^ sh
      let half := 2 ^ (sh - 1)
      let q := if r > half ∨ (r = half ∧ q % 2 = 1) then q + 1 else q
      word ((k + 127) * 2 ^ 23 + (q - 2 ^ 23))

/-- The largest finite binary32. -/
def f32Max : Word := 0x7F7FFFFF

/-- A binary32 is finite and not negative. -/
def f32Ok (w : Word) : Bool := decide (wget w 30 23 ≠ 255) && (!wbit w 31 || decide (w = 0x80000000))

/-- A finite binary32 in units of 2^−149. -/
def f32Units (w : Word) : Nat := (f32Parts w).1 * 2 ^ (f32Parts w).2

/-- The order between v − h and P × 2^(−1/HL), exactly: 2 × (v − h)^HL against P^HL (R183). -/
def decayCmp (p : Word) (hl h : Nat) (v : Word) : Ordering :=
  if f32Units v < h * 2 ^ 149 then .lt else compare (2 * (f32Units v - h * 2 ^ 149) ^ hl) (f32Units p ^ hl)

/-- The largest finite binary32 that is not above P × 2^(−1/HL) + h: its bits from `2^b` down. -/
def decayBits (p : Word) (hl h : Nat) : Nat → Word → Word
  | 0, w => w
  | b + 1, w =>
    let v := w ||| word (2 ^ b)
    decayBits p hl h b (if v.toNat ≤ f32Max.toNat ∧ decayCmp p hl h v ≠ .gt then v else w)

/-- P × a + h with a = 2^(−1/HL): the binary32 itself, or one of the two next to it, saturating at the largest finite value (R183); h alone
where P is 0. -/
def persistStep (hl : Nat) (p : Word) (h : Nat) : Word :=
  if p = 0 then f32OfNat h
  else
    let v := decayBits p hl h 31 0
    if decayCmp p hl h v = .eq ∨ v = f32Max ∨ Config.decayUp p hl h = false then v else v + 1

/-- q = floor(P × GRT_NORM) (R186). -/
def densityQ (p norm : Word) : Nat :=
  let a := f32Parts p
  let b := f32Parts norm
  a.1 * b.1 * 2 ^ (a.2 + b.2) / 2 ^ 298

/-! ### Mapping (R180). -/

/-- Rows of the geometry. -/
def State.grtV (s : State) (p : Nat) : Nat := if s.ab (keyGRT p) Reg.GRT_CFG.GEOMETRY then 256 else 512

/-- Row of a level, clamped. -/
def rowOf (refTop : Int) (step v : Nat) (level : Int) : Nat :=
  let r : Int := (refTop - level) / (step : Int)
  if r < 0 then 0 else min r.toNat (v - 1)

/-- (bin, column) of each pixel update of a spectrum. -/
def binColumns (f c w : Nat) : List (Nat × Nat) :=
  if w ≤ c then (List.range c).map fun k => (f + k, k * w / c)
  else (List.range w).map fun col => (f + col * c / w, col)

/-- (bin, pixel) of each update of a spectrum. -/
def State.pixelUpdates (s : State) (p : Nat) (bins : List Int) : List (Nat × Nat) :=
  let k := keyGRT p
  let w := s.grtW p
  let top := signedOf 16 (s.af k Reg.GRT_ROWS.REF_TOP)
  let step := s.af k Reg.GRT_ROWS.ROW_STEP
  (binColumns (s.af k Reg.GRT_BIN_FIRST.F) (s.af k Reg.GRT_BIN_COUNT.C) w).map fun x =>
    (x.1, rowOf top step (s.grtV p) (nth 0 bins x.1) * w + x.2)

/-- Add one hit to a pixel, saturating at 32 bits (R182). -/
def addHit (m : List (Nat × Nat)) (pix : Nat) : List (Nat × Nat) :=
  mput m pix (satInc (2 ^ 32 - 1) (mget (fun _ => 0) m pix))

/-! ### Spectra (R184-R186). -/

def accIDLE : Nat := 0
def accACC : Nat := 1
def accHELD : Nat := 2

/-- GRT_STAT.ACC_STATE. -/
def State.accState (s : State) (p : Nat) : Nat := s.rf (keyGRT p) Reg.GRT_STAT.ACC_STATE

/-- Enter an accumulation state. -/
def State.accEnter (s : State) (p n : Nat) : State := s.wf (keyGRT p) Reg.GRT_STAT.ACC_STATE n

def tickLen : Nat := 4096000

/-- The first multiple of `m` after `n`. -/
def nextMultiple (m n : Nat) : Nat := (n / m + 1) * m

/-- Change the interval that a time belongs to (R187). -/
def State.modAcc (s : State) (p time : Nat) (f : GrtAcc → GrtAcc) : State :=
  s.modGrat p fun g =>
    match g.boundary with
    | some b => if b ≤ time then { g with next := f g.next } else { g with cur := f g.cur }
    | none => { g with cur := f g.cur }

/-- Add the hits of one spectrum to its tick and its interval. -/
def State.addHits (s : State) (p time : Nat) (ups : List (Nat × Nat)) (flags : Nat) : State :=
  let t := time / tickLen
  let s := s.modGrat p fun g =>
    { g with ticks := mput g.ticks t (ups.foldl (fun m u => addHit m u.2) (mget (fun _ => []) g.ticks t)),
             flatId := s.rf (keyFFT p) Reg.FFT_FLAT_ID }
  s.modAcc p time fun a =>
    { a with hits := ups.foldl (fun m u => addHit m u.2) a.hits, spectra := a.spectra + 1, flags := a.flags ||| flags }

/-- RARE of each bin (R186): q below THRESH at the first pixel the bin updates. -/
def State.rareBins (s : State) (p n : Nat) (ups : List (Nat × Nat)) : List Bool :=
  let k := keyGRT p
  let norm := s.areg k Reg.GRT_NORM.off
  let th := s.af k Reg.GRT_DENSITY.THRESH
  (List.range n).map fun b =>
    match ups.find? fun u => decide (u.1 = b) with
    | some u => decide (densityQ (mget (fun _ => (0 : Word)) (s.grat p).persist u.2) norm < th)
    | none => false

/-- GRT_SPECTRUM: apply, exclude or hold a spectrum by its marks, and answer RARE of its bins (R184-R186). Leaving HELD drops the hits of
ticks that ended in it. -/
def State.grtSpectrum (s : State) (p frame time marks : Nat) (bins : List Int) : State × List Bool :=
  let none_ := List.replicate bins.length false
  if !s.isActive (keyGRT p) then (s.countDropped (keyGRT p) 1, none_)
  else if hasMark marks markSTALE then
    if s.accState p = accACC then ((s.accEnter p accHELD).irqBit (keyGRT p) 18, none_) else (s, none_)
  else
    let s := if s.accState p = accHELD then
        (s.accEnter p accACC).modGrat p fun g => { g with nextTick := nextMultiple tickLen (max s.six time),
                                                                 ticks := g.ticks.filter fun x => decide (max s.six time / tickLen ≤ x.1) }
      else s
    if hasMark marks markSETTLING then (s.modAcc p time fun a => { a with excluded := a.excluded + 1 }, none_)
    else if frame % 2 ^ s.rf (keyGRT p) Reg.GRT_STAT.THIN_LOG2 ≠ 0 then (s, none_)
    else
      let ups := s.pixelUpdates p bins
      let rare := s.rareBins p bins.length ups
      (s.addHits p time ups (marksToFlags (marks &&& (markGAP ||| markSATURATED))), rare)

/-! ### Ticks (R183, R185, R193). -/

/-- Add the counts of two planes. -/
def addPlanes (a b : List (Nat × Nat)) : List (Nat × Nat) :=
  b.foldl (fun m x => mput m x.1 (min (2 ^ 32 - 1) (mget (fun _ => 0) m x.1 + x.2))) a

/-- The hits of the ticks that have ended. -/
def endedHits (ticks : List (Nat × List (Nat × Nat))) (t : Nat) : List (Nat × Nat) :=
  (ticks.filter fun x => decide (x.1 < t)).foldl (fun m x => addPlanes m x.2) []

/-- Decay every pixel and add the tick's hits. -/
def decayPlane (hl : Nat) (persist : List (Nat × Word)) (hits : List (Nat × Nat)) : List (Nat × Word) :=
  let keys := (addPlanes (persist.map fun x => (x.1, 0)) hits).map (·.1)
  keys.foldl (fun m k => mput m k (persistStep hl (mget (fun _ => (0 : Word)) persist k) (mget (fun _ => 0) hits k))) []

/-- One tick end of a graticule that accumulates. -/
def State.grtTick (s : State) (p : Nat) : State :=
  let t := (s.grat p).nextTick
  let hl := s.af (keyGRT p) Reg.GRT_HALF_LIFE.HL
  s.modGrat p fun g =>
    { g with persist := decayPlane hl g.persist (endedHits g.ticks (t / tickLen)),
             ticks := g.ticks.filter (fun x => decide (t / tickLen ≤ x.1)), nextTick := t + tickLen }

/-- GRT_TICK: at the end of each 100 µs tick the persistence plane decays and adds the tick's hits; in HELD, and before
START, it does not (R183, R185). -/
def execGrtTick (pipe : Fin 6) (s : State) : Res :=
  let p : Nat := pipe
  if !s.isActive (keyGRT p) || decide (s.accState p ≠ accACC) then .next s
  else .next ((s.advanceTo (s.grat p).nextTick).grtTick p)

/-! ### Boundaries and readout (R187-R190). -/

/-- The next boundary after an index under FRAME_SRC PERIOD. -/
def State.grtNextBoundary (s : State) (p six : Nat) : Option Nat :=
  if s.ab (keyGRT p) Reg.GRT_CFG.FRAME_SRC then none
  else some (nextMultiple (s.af (keyGRT p) Reg.GRT_FRAME_PERIOD.US * sixPerUs) six)

/-- Clear both planes; the next record carries SETTLING (R191, R192, R194). -/
def State.grtClear (s : State) (p : Nat) : State :=
  s.modGrat p fun g => { g with cur := { g.cur with hits := [], flags := g.cur.flags ||| 1 }, next := { g.next with hits := [] },
                                ticks := [], persist := [] }

/-- The snapshot at a boundary; in HELD it repeats the last frame with STALE set, and SETTLING or MIGRATED where it is the first record
after what sets them (R185, R187, R191-R194). -/
def State.grtSnapshot (s : State) (p b : Nat) : GrtFrame :=
  let g := s.grat p
  let k := keyGRT p
  let f : GrtFrame :=
    { six := b, hits := g.cur.hits, persist := g.persist, flags := g.cur.flags, intervals := g.intervals,
      spectra := g.cur.spectra, excluded := g.cur.excluded, span := b - g.openSix,
      bank := s.rf k Reg.GRT_MAP_SEL.APPLIED, thin := s.rf k Reg.GRT_STAT.THIN_LOG2, flatId := g.flatId,
      words := (s.page k).applied, map := [] }
  if s.accState p = accHELD then
    match g.last with
    | some l => { l with six := b, flags := l.flags ||| 2 ||| (g.cur.flags &&& 5) }
    | none => { f with flags := f.flags ||| 2 }
  else f

/-- Process the ticks that end at or before an index. -/
def State.ticksTo (s : State) (p six : Nat) : State :=
  let n := if six < (s.grat p).nextTick then 0 else (six - (s.grat p).nextTick) / tickLen + 1
  if s.accState p = accACC then (List.range n).foldl (fun s _ => s.grtTick p) s else s

/-- Take the boundary of a graticule: its ticks first, then the snapshot or the merge, a pending CLEAR and map bank, and
the next interval (R187, R188, R190, R194). -/
def State.grtBoundary (s : State) (p : Nat) : State :=
  match (s.grat p).boundary with
  | none => s
  | some b =>
    let k := keyGRT p
    let s := (s.advanceTo b).ticksTo p b
    let next := s.grtNextBoundary p b
    let merge := (s.grat p).readout.isSome && s.ab k Reg.GRT_CFG.OUT_EN
    let s :=
      if merge then
        (s.count k Reg.GRT_MERGED).modGrat p fun g =>
          { g with intervals := g.intervals + 1, boundary := next, next := GrtAcc.empty,
                   cur := { hits := addPlanes g.cur.hits g.next.hits, spectra := g.cur.spectra + g.next.spectra,
                            excluded := g.cur.excluded + g.next.excluded, flags := g.cur.flags ||| g.next.flags } }
      else
        let f := s.grtSnapshot p b
        let out := s.ab k Reg.GRT_CFG.OUT_EN
        s.modGrat p fun g =>
          { g with readout := if out then some f else g.readout, last := some f, cur := g.next, next := GrtAcc.empty,
                   boundary := next, openSix := b, intervals := 1 }
    let s := s.wf k Reg.GRT_MAP_SEL.APPLIED (s.rf k Reg.GRT_MAP_SEL.BANK)
    if (s.grat p).clearNext then ((s.grtClear p).modGrat p fun g => { g with clearNext := false }).doneOp k else s

/-- GRT_FRAME_BOUNDARY: a frame boundary of a running graticule (R187). -/
def execGrtFrameBoundary (pipe : Fin 6) (s : State) : Res :=
  if s.isActive (keyGRT pipe) then .next (s.grtBoundary pipe) else .next s

/-- Little-endian bytes of one value per pixel. -/
def gratPlane (n : Nat) (v : Nat → Nat) : List Byte := (List.range 524288).flatMap fun i => leBytes (v i) n

/-- A byte of an index map (R188). -/
def State.mapByte (s : State) (p bank i : Nat) : Nat := s.winByte (0x03A80000 + p * 0x2000 + bank * 0x1000 + i)

/-- The payload of a GRATICULE record (R189); its INDEX plane is mapped as it is read out, and a repeated one as it was (R185, R188). -/
def State.grtPayload (s : State) (p : Nat) (f : GrtFrame) : List Byte :=
  let k := keyGRT p
  let w (r : RegField) : Nat := wget (mget (regReset k) f.words r.off) r.hi r.lo
  let planes := w Reg.GRT_CFG.PLANES
  let norm := mget (regReset k) f.words Reg.GRT_NORM.off
  let q (i : Nat) : Nat := densityQ (mget (fun _ => (0 : Word)) f.persist i) norm
  leBytes planes 1 ++ leBytes (w Reg.GRT_CFG.GEOMETRY) 1 ++ leBytes f.intervals 2 ++ leBytes f.spectra 4 ++
    leBytes f.excluded 4 ++ leBytes (w Reg.GRT_BIN_FIRST.F) 4 ++ leBytes (w Reg.GRT_BIN_COUNT.C) 4 ++
    leBytes (w Reg.GRT_ROWS.REF_TOP) 2 ++ leBytes (w Reg.GRT_ROWS.ROW_STEP) 2 ++ leBytes (w Reg.GRT_HALF_LIFE.HL) 4 ++
    leBytes norm.toNat 4 ++ leBytes f.span 8 ++ leBytes f.bank 1 ++ leBytes f.thin 1 ++ leBytes 0 2 ++ leBytes f.flatId 4 ++
    (if nbit planes 0 then gratPlane 4 (mget (fun _ => 0) f.hits) else []) ++
    (if nbit planes 1 then gratPlane 4 (fun i => (mget (fun _ => (0 : Word)) f.persist i).toNat) else []) ++
    (if nbit planes 2 then gratPlane 1 (fun i => f.map.getD (min 4095 (q i)) (s.mapByte p f.bank (min 4095 (q i)))) else [])

/-- GRT_READOUT_DONE: the readout of a frame ends, and its GRATICULE record goes to the capture writer (R189, R190). -/
def execGrtReadoutDone (pipe : Fin 6) (s : State) : Res :=
  let p : Nat := pipe
  match (s.grat p).readout with
  | none => .next s
  | some f =>
    let r : Record :=
      { kind := 5, flags := f.flags, task := s.ownerTask p 1, source := sourceOf p 0x83, trigMask := 0, six := f.six,
        fine := 0, pre := 0, post := 0, payload := s.grtPayload p f }
    let map := if f.map.isEmpty then (List.range 4096).map (s.mapByte p f.bank) else f.map
    let s := s.modGrat p fun g => { g with readout := none, last := g.last.map fun l => if l.six = f.six then { l with map := map } else l }
    .next (((s.queueRecord p 2 r).count (keyGRT p) Reg.GRT_FRAMES).irqBit (keyGRT p) 17)

/-! ### Commands (R192, R194, R195). -/

/-- CLEAR: both planes clear at the next frame boundary, and the command ends then; with no open frame there is nothing
to wait for (R194, R195). -/
def execClear (who : Issuer) (pipe : Fin 6) (tag : Nat) (s : State) : Res :=
  let key := keyGRT pipe
  .next (s.command who key 0x0100 tag fun s op =>
    if s.gangedSecond pipe then s.rejectOp key op codeSTATE 0x02
    else if s.isActive key then (s.accept key op).modGrat pipe fun g => { g with clearNext := true }
    else ((s.accept key op).grtClear pipe).doneOp key)

/-- The staged checks of GRT: the range within the engine's bins, not the second pipeline of a gang (R192, R195). -/
def State.grtCheck (s : State) (p : Nat) : Option (Nat × Nat) :=
  let k := keyGRT p
  if s.gangedSecond p then some (codeSTATE, 0x02)
  else if s.fftN p < s.rf k Reg.GRT_BIN_FIRST.F + s.rf k Reg.GRT_BIN_COUNT.C then some (codeRANGE, 0x01)
  else none

/-- Apply GRT words at a boundary; a change of GEOMETRY, bin range or rows clears the planes (R192). -/
def State.grtApply (s : State) (p : Nat) (a : PendApply) (at0 : Nat) : State :=
  let k := keyGRT p
  let clears := decide (s.af k Reg.GRT_CFG.GEOMETRY ≠ a.field k Reg.GRT_CFG.GEOMETRY) ||
    [Reg.GRT_BIN_FIRST.F.off, Reg.GRT_BIN_COUNT.C.off, Reg.GRT_ROWS.REF_TOP.off].any fun o => decide (s.areg k o ≠ a.word k o)
  let s := (s.applyWords k a.words).mirrorGang p
  let s := if clears then s.grtClear p else s
  let s := if s.isActive k then s.modGrat p fun g => { g with boundary := s.grtNextBoundary p at0 } else s
  s.refreshGrt p

/-- GRT_APPLY: the staged settings apply at the first frame boundary at least 100 µs after acceptance, after the frame
that ends there (R192). With FRAME_SRC VSYNC that is the next boundary that a vertical sync sets. -/
def execGrtApply (pipe : Fin 6) (s : State) : Res :=
  let p : Nat := pipe
  let key := keyGRT p
  match s.pendOf key with
  | none => .next s
  | some a =>
    let go (s : State) (at0 : Nat) : State :=
      ((((s.advanceTo at0).clearPend key).grtApply p a at0).setCfg key 0).irqBit key 16 |>.endCommit key at0
    let at0 := if s.ab key Reg.GRT_CFG.FRAME_SRC ∧ s.isActive key then
        (match (s.grat p).boundary with | some b => b | none => 0)
      else ceilTo (s.af key Reg.GRT_FRAME_PERIOD.US * sixPerUs) a.due
    if at0 < a.due then .next s
    else
      let s := if s.isActive key ∧ (s.grat p).boundary = some at0 then s.grtBoundary p else s
      .next (go s at0)

/-- GRT_MAP_SEL_WRITE: selects the index-map bank that applies at the next frame boundary
(R188). -/
def execGrtMapSelWrite (who : Issuer) (pipe : Fin 6) (value : BitVec 32) (s : State) : Res :=
  let key := keyGRT pipe
  .next (s.write who key 0x120 value.toNat fun s => s.wf key Reg.GRT_MAP_SEL.BANK (wget value 0 0))

/-- Start accumulating: planes cleared, ticks and boundaries on the index grid (R187, R194). -/
def State.grtStart (s : State) (p : Nat) : State :=
  (s.accEnter p accACC).modGrat p fun _ =>
    { Grat.init with nextTick := nextMultiple tickLen s.six, boundary := s.grtNextBoundary p s.six, openSix := s.six }

/-- STOP: no record for the open interval (R194). -/
def State.grtStop (s : State) (p : Nat) : State :=
  (s.accEnter p accIDLE).modGrat p fun g => { g with boundary := none, cur := GrtAcc.empty, next := GrtAcc.empty }

/-- A synchronising reset: with LOAD_SIX both planes clear, and ticks and boundaries follow the new index (R191, R194). -/
def State.grtReset (s : State) (p : Nat) (loads : Bool) : State :=
  if !loads || decide (s.accState p = accIDLE) then s
  else
    (((s.accEnter p accACC).grtClear p).modGrat p fun g =>
      { g with nextTick := nextMultiple tickLen s.six, boundary := s.grtNextBoundary p s.six, openSix := s.six,
               intervals := 1, cur := { hits := [], spectra := 0, excluded := 0, flags := 1 }, next := GrtAcc.empty })

end Sys2Proof.Machine
end

