-- ==== Sys2Proof/Machine/Transform.lean ====
section
/-! DEFINITION. Transform engines (R157-R178): the frame grid, corrected spectra, marks, output groups, SPECTRUM records, and
commits. -/

namespace Sys2Proof.Machine

/-- A field of a list of FFT words. -/
def fftField (p : Nat) (ws : List (Nat × Word)) (f : RegField) : Nat :=
  wget (mget (regReset (keyFFT p)) ws f.off) f.hi f.lo

/-- Words of the frames that start at a label (R176). -/
def State.fftWords (s : State) (p start : Nat) : List (Nat × Word) :=
  match (s.engine p).old.find? fun x => decide (start < x.1) with
  | some x => x.2
  | none => (s.page (keyFFT p)).applied

/-- N, H and the distance between kept frame starts of a list of words (R157, R158, R161). -/
def wordsN (p : Nat) (ws : List (Nat × Word)) : Nat := 2 ^ fftField p ws Reg.FFT_CFG.SIZE_LOG2
def wordsH (p : Nat) (ws : List (Nat × Word)) : Nat := fftField p ws Reg.FFT_HOP.HOP

/-- Thinning exponent of words on the present chain (R161). -/
def State.wordsThin (s : State) (p : Nat) (ws : List (Nat × Word)) : Nat :=
  thinExp (wordsH p ws * 2 ^ (s.decim p + 2)) 32 (wordsN p ws)

/-- Distance between the starts of kept frames, in SIX (R158, R161). -/
def State.frameStep (s : State) (p : Nat) (ws : List (Nat × Word)) : Nat := wordsH p ws * s.labelP p * 2 ^ s.wordsThin p ws

/-- The first start, at or after an index, of the grid in force there. -/
def State.gridStart (s : State) (p six : Nat) : Nat := ceilTo (s.frameStep p (s.fftWords p six)) six

/-! ### Output spectra (R171-R174). -/

/-- Bytes of a bin in a record format (R171). -/
def binBytes (format : Nat) (b : Bin) : List Byte :=
  if format = 0 then leBytes (unsignedOf 16 b.log) 2 else leBytes b.word.toNat 4

/-- A bin has less power than another. -/
def Bin.less (a b : Bin) : Bool := decide (a.num * b.den < b.num * a.den)

/-- The larger and the smaller of two bins in power (R172). -/
def Bin.maxOf (a b : Bin) : Bin := if a.less b then b else a
def Bin.minOf (a b : Bin) : Bin := if b.less a then b else a

/-- The mean of linear power (R172): denominators are powers of 4, so that the largest is common. -/
def meanBin (format : Nat) (xs : List Bin) : Bin :=
  let d := (xs.map (·.den)).foldl max 1
  binOf format ((xs.map fun b => b.num * (d / b.den)).sum) (d * xs.length) (0, 0)

/-- Combine the frames of a group bin by bin (R172): the spectra oldest first, each of `n` bins. -/
def combineBins (detector format n : Nat) (all : List (List Bin)) : List Bin :=
  (List.range n).map fun i =>
    let xs := all.map fun b => nth Bin.floor b i
    match xs with
    | [] => Bin.floor
    | x :: rest =>
      match detector with
      | 0 => xs.getLastD Bin.floor
      | 1 => rest.foldl Bin.maxOf x
      | 2 => if rest.isEmpty then x else meanBin format xs
      | _ => rest.foldl Bin.minOf x

/-- FLAGS that a spectrum tag carries (R174). -/
def tagFlags (marks : Nat) : Nat := marksToFlags (marks &&& 15)

/-- Close the open SPECTRUM record and hand it to the writer (R173). -/
def State.closeSpectrum (s : State) (p : Nat) : State :=
  match (s.engine p).record with
  | none => s
  | some r =>
    let f (x : RegField) : Nat := fftField p r.words x
    let header := leBytes (f Reg.FFT_CFG.FORMAT) 1 ++ leBytes (f Reg.FFT_CFG.WINDOW) 1 ++ leBytes (f Reg.FFT_CFG.SIZE_LOG2) 1 ++
      leBytes (f Reg.FFT_CFG.DETECTOR) 1 ++ leBytes r.hop 4 ++ leBytes (f Reg.FFT_BIN_FIRST.FIRST) 4 ++
      leBytes (f Reg.FFT_BIN_COUNT.COUNT) 4 ++ leBytes r.spectra 2 ++ leBytes (f Reg.FFT_OUT.OUT_DECIM) 2 ++ leBytes r.labelP 4 ++
      leBytes (if f Reg.FFT_CFG.FORMAT = 2 then unsignedOf 8 (signedOf 5 (f Reg.FFT_CPLX.EXP)) else 0) 1 ++ leBytes r.decim 1 ++
      leBytes 0 2 ++ leBytes r.flatId 4
    let rec_ : Record :=
      { kind := 3, flags := tagFlags r.marks ||| (if hasMark r.marks markMIGRATED then 4 else 0), task := s.ownerTask p 1, source := sourceOf p 0x81, trigMask := 0, six := r.six,
        fine := 0, pre := 0, post := 0, payload := header ++ r.bytes }
    (s.modEngine p fun e => { e with record := none }).queueRecord p 0 rec_

/-- Emit the group as one output spectrum of the open record (R172-R174). -/
def State.emitGroup (s : State) (p : Nat) (ws : List (Nat × Word)) (all : List (List Bin)) (g : SpecGroup) : State :=
  let f (x : RegField) : Nat := fftField p ws x
  let format := f Reg.FFT_CFG.FORMAT
  let bins := combineBins (f Reg.FFT_CFG.DETECTOR) format (wordsN p ws) all
  let part := (bins.drop (f Reg.FFT_BIN_FIRST.FIRST)).take (f Reg.FFT_BIN_COUNT.COUNT)
  let body := part.flatMap (binBytes format)
  let pad := List.replicate ((8 - body.length % 8) % 8) (0 : Byte)
  let r := match (s.engine p).record with
    | some r => r
    | none => { first := g.lastFrame, six := g.lastSix, spectra := 0, marks := 0, flatId := g.flatId, hop := wordsH p ws,
                labelP := s.labelP p, words := ws, decim := s.decim p, bytes := [] }
  let tag := leBytes (g.lastFrame - r.first) 4 ++ leBytes (tagFlags g.marks) 2 ++ leBytes g.src 1 ++ leBytes 0 1
  let r := { r with spectra := r.spectra + 1, marks := r.marks ||| g.marks, bytes := r.bytes ++ tag ++ body ++ pad }
  let s := s.modEngine p fun e => { e with record := some r, group := none }
  if f Reg.FFT_OUT.REC_SPECTRA ≤ r.spectra then s.closeSpectrum p else s

/-- End the group early with the frames it holds (R172). -/
def State.flushGroup (s : State) (p : Nat) (ws : List (Nat × Word)) : State :=
  match (s.engine p).group with
  | some g => s.emitGroup p ws g.all g
  | none => s

/-- One frame enters its group; the last frame of a group emits it (R172). -/
def State.groupFrame (s : State) (p : Nat) (ws : List (Nat × Word)) (frame next six marks src flatId : Nat) (bins : List Bin) : State :=
  let k := fftField p ws Reg.FFT_OUT.OUT_DECIM
  if fftField p ws Reg.FFT_OUT.OUT_EN = 0 ∨ k = 0 then s
  else
    let num := frame / k
    let s := match (s.engine p).group with
      | some g => if g.num = num then s else s.flushGroup p ws
      | none => s
    let g : SpecGroup := match (s.engine p).group with
      | some g => { g with frames := g.frames + 1, all := g.all ++ [bins], marks := g.marks ||| marks, lastFrame := frame,
                           lastSix := six, src := src, flatId := flatId }
      | none => { num := num, frames := 1, all := [bins], marks := marks, lastFrame := frame, lastSix := six, src := src,
                  flatId := flatId }
    if next / k = num then s.modEngine p fun e => { e with group := some g }
    else s.emitGroup p ws g.all g

/-- Go over to the applied grid at an index: the group is emitted, the record closes, and the next frame is the first on
the new grid (R172, R173, R176). -/
def State.switchGrid (s : State) (p a : Nat) (ws : List (Nat × Word)) : State :=
  let s := (s.flushGroup p ws).closeSpectrum p
  let s := s.modEngine p fun e => { e with old := e.old.filter fun x => decide (a < x.1), held := none }
  s.modEngine p fun e => { e with nextStart := s.gridStart p a }

/-- Go over to every grid whose index the next start has reached (R176). -/
def State.switchDue (s : State) (p : Nat) : State :=
  (s.engine p).old.foldl (fun s x => if x.1 ≤ (s.engine p).nextStart then s.switchGrid p x.1 x.2 else s) s

/-- Starts from one on, below an index. -/
def startsBelow (from0 a step : Nat) : Nat := if from0 < a ∧ step ≠ 0 then (a - from0 + step - 1) / step else 0

/-- Frames that have started below an index: on each grid not passed yet, and then on that of the words `ws` (R170, R176). -/
def State.startedBelow (s : State) (p from0 a : Nat) : List (Nat × List (Nat × Word)) → Nat
  | [] => startsBelow from0 a (s.frameStep p (s.page (keyFFT p)).applied)
  | (x, ws) :: rest =>
    let step := s.frameStep p ws
    let next := match rest with | (_, w) :: _ => w | [] => (s.page (keyFFT p)).applied
    startsBelow from0 (min x a) step + s.startedBelow p (max from0 (ceilTo (s.frameStep p next) x)) a rest

/-- Frames that have started when the chain's labels restart at an index (R170). -/
def State.framesStarted (s : State) (p a : Nat) : Nat := s.startedBelow p (s.engine p).nextStart a (s.engine p).old

/-- FRAME_ABANDON: frames that have started when the chain's labels restart at an index are abandoned and counted; the
next frame is the first on the grid at or after it (R170). -/
def State.abandonFrames (s : State) (p a n : Nat) : State :=
  if !s.isActive (keyFFT p) then s
  else
    let s := s.countBy (keyFFT p) Reg.FFT_ABANDONED n
    let s := s.modEngine p fun e => { e with old := [], held := none, wantClean := true }
    s.modEngine p fun e => { e with nextStart := s.gridStart p a }

/-! ### Frames (R158, R163-R170). -/

/-- Converter, attenuation and table in force at a start label (R166, R167). -/
def State.flatAt (s : State) (p start : Nat) : FlatEntry :=
  match (s.chain p).flat.find? fun f => decide (f.from0 ≤ start) with
  | some f => f
  | none => { from0 := 0, conv := (s.chainSrc p).getD 0xF, atten := 0, id := 0 }

/-- FFT_FLAT_ID reports the table in force; 0 with FLAT_EN = 0 (R166, R167). -/
def State.showFlat (s : State) (p : Nat) : State :=
  let id_ := match (s.chain p).flat with | f :: _ => f.id | [] => 0
  s.setReg (keyFFT p) Reg.FFT_FLAT_ID.off (word (if s.ab (keyFFT p) Reg.FFT_CFG.FLAT_EN then id_ else 0))

/-- What corrects a frame that starts at a label (R165). -/
def State.frameFix (s : State) (p : Nat) (ws : List (Nat × Word)) (start : Nat) : BinFix :=
  let f (x : RegField) : Nat := fftField p ws x
  let tbl := s.flatAt p start
  { sizeLog2 := f Reg.FFT_CFG.SIZE_LOG2, window := f Reg.FFT_CFG.WINDOW,
    gain := (s.chain p).filt.gain (s.af (keyDDC p) Reg.DDC_CFG.GAIN) start, atten := tbl.atten, format := f Reg.FFT_CFG.FORMAT,
    exp := signedOf 5 (f Reg.FFT_CPLX.EXP), flatId := if f Reg.FFT_CFG.FLAT_EN = 0 then 0 else tbl.id,
    w := (tuneAt (s.chain p).tunes start).w, labelP := s.labelP p }

/-- Inputs of a frame: the chain outputs from its start to its last label that the engine holds (R157). -/
def State.frameInputs (s : State) (p start last : Nat) : List (Int × Int) :=
  (((s.chain p).outs.filter fun x => decide (start ≤ x.1 ∧ x.1 ≤ last)).map fun x => x.2)

/-- A complete frame is delivered: correction table, marks, hold, and its consumers (R165-R172). -/
def State.deliverFrame (s : State) (p : Nat) (ws : List (Nat × Word)) (start : Nat) (xs : List (Int × Int)) : State :=
  let k := keyFFT p
  let n := wordsN p ws
  let lp := s.labelP p
  let marks := marksIn (s.chain p).outMarks start (start + (n - 1) * lp)
  let marks := if s.handedAt p start then marks ||| markMIGRATED else marks
  let stale := hasMark marks markSTALE
  let spec := (s.frameFix p ws start).spectrum xs
  let sat := spec.any (·.2)
  let marks := if sat && !stale then marks ||| markSATURATED else marks
  let tbl := s.flatAt p start
  let flatEn := decide (fftField p ws Reg.FFT_CFG.FLAT_EN ≠ 0)
  let flatId := if flatEn then tbl.id else 0
  let s := s.setReg k Reg.FFT_FLAT_ID.off (word flatId)
  let s := if flatEn && decide (tbl.id = 0) then s.setErr k 18 else s
  let s := if sat && !stale then s.setErr k 16 else s
  let out := if stale then (match (s.engine p).held with | some b => b | none => List.replicate n Bin.floor) else spec.map (·.1)
  let s := if stale then s.count k Reg.FFT_STALE_HELD
    else s.setPair k Reg.FFT_FRAMES0.off ((s.pair k Reg.FFT_FRAMES0.off + 1) % 2 ^ 64) |>.modEngine p fun e => { e with held := some out }
  let s := s.showMarks k marks
  let s := if (s.engine p).wantClean && !hasMark marks markSETTLING then
      (s.irqBit k 17).modEngine p fun e => { e with wantClean := false } else s
  let step := s.frameStep p ws
  let frame := start / (wordsH p ws * lp)
  let nextFrame := (start + step) / (wordsH p ws * lp)
  let centre := start + n / 2 * lp
  let logs := out.map (·.log)
  if s.shadowing p then s
  else
  let g := s.grtSpectrum p frame centre marks logs
  let s := g.1.contourEval p centre marks logs g.2
  let s := s.traceSpectrum p centre marks out
  s.groupFrame p ws frame nextFrame centre marks tbl.conv flatId out

/-- The first start of a frame that the engine can complete after one whose inputs have a gap: outputs that a block did not emit while it
was FROZEN or SUSPENDED belong to no frame (R49, R157). -/
def State.startPastGap (s : State) (p start : Nat) : Nat :=
  let xs := (s.chain p).outs
  let lp := s.labelP p
  match xs.find? fun x => decide (start < x.1) && !xs.any fun y => decide (y.1 + lp = x.1) with
  | some x => s.gridStart p x.1
  | none => s.gridStart p (s.chain p).nextLabel

/-- SPECTRUM: the next frame of a pipeline is complete and its corrected spectrum is delivered to the graticule, the
contour slots and the capture writer (R157-R174). -/
def execSpectrum (pipe : Fin 6) (_bins _sat : Unit) (s : State) : Res :=
  let p : Nat := pipe
  if !s.isActive (keyFFT p) || s.gangedSecond p then .next s
  else
    let start := (s.engine p).nextStart
    let ws := s.fftWords p start
    let last := start + (wordsN p ws - 1) * s.labelP p
    let xs := s.frameInputs p start last
    if (s.chain p).nextLabel ≤ last then .next s
    else
      let whole := decide (xs.length = wordsN p ws)
      let s := if whole then s.deliverFrame p ws start xs else s
      let next := if whole then start + s.frameStep p ws else max (start + s.frameStep p ws) (s.startPastGap p start)
      let s := (s.modEngine p fun e => { e with nextStart := next }).switchDue p
      let from0 := (s.engine p).nextStart
      .next (s.modChain p fun c => { c with outMarks := dropRuns c.outMarks from0, outs := c.outs.filter fun x => decide (from0 ≤ x.1) })

/-! ### Commits (R160, R163, R172, R176-R178). -/

/-- The staged checks of FFT (R160, R163, R172). -/
def State.fftCheck (s : State) (p : Nat) : Option (Nat × Nat) :=
  let k := keyFFT p
  let n := 2 ^ s.rf k Reg.FFT_CFG.SIZE_LOG2
  let h := s.rf k Reg.FFT_HOP.HOP
  if s.gangedSecond p then some (codeSTATE, 0x07)
  else if n < h ∨ h * 2 ^ (s.decim p + 2) < n then some (codeRANGE, 0x03)
  else if n < s.rf k Reg.FFT_BIN_FIRST.FIRST + s.rf k Reg.FFT_BIN_COUNT.COUNT then some (codeRANGE, 0x04)
  else if s.rf k Reg.FFT_CFG.FORMAT = 2 ∧ s.rf k Reg.FFT_CFG.DETECTOR ≠ 0 then some (codeRANGE, 0x05)
  else none

/-- FFT_COMMIT_AT (R177, R178). -/
def execFftCommitAt (who : Issuer) (pipe : Fin 6) (tag : Nat) (s : State) : Res :=
  let key := keyFFT pipe
  .next (s.command who key 0x0100 tag fun s op => s.commitAt key op (fun s => s.fftCheck pipe))

/-- Apply FFT words at A: old frames finish on the old grid, every contour slot restarts, and thinning, latencies and the
graticule's rate follow (R161, R176, R181, R224). -/
def State.fftApply (s : State) (p : Nat) (a : PendApply) : State :=
  let k := keyFFT p
  let old := (s.page k).applied
  let s := (s.applyWords k a.words).mirrorGang p
  let s := if !s.isActive k then s
    else if (s.engine p).nextStart < a.due then s.modEngine p fun e => { e with old := e.old ++ [(a.due, old)] }
    else s.switchGrid p a.due old
  let s := (s.slotsClear p (s.labelAt p a.due)).slotsFit p
  let s := s.refreshPipe p
  match (s.chain p).partner with
  | some q => if s.gangedSecond p then s else s.refreshPipe q
  | none => s

/-- What FFT_APPLY does with nothing staged, and otherwise: the words apply on a new frame grid (R176, R619). -/
def State.fftTake (s : State) (p : Nat) (a : PendApply) : State :=
  let key := keyFFT p
  if a.empty then s.passCommit key a
  else
    let s := ((s.advanceTo a.due).clearPend key).fftApply p a
    ((((s.showFlat p).setSix3 key 0x130 a.due).setCfg key 0).irqBit key 16).endCommit key a.due

/-- FFT_APPLY: the staged transform configuration applies at A on a new frame grid (R176, R177). -/
def execFftApply (pipe : Fin 6) (s : State) : Res :=
  let key := keyFFT pipe
  match s.pendOf key with
  | none => .next s
  | some a => .next (s.fftTake pipe a)

/-- The engine starts: its first frame is the first start at or after the chain's next label (R158, R168). -/
def State.fftStart (s : State) (p : Nat) : State :=
  s.modEngine p fun e => { Engine.init with held := e.held, wantClean := true, nextStart := s.gridStart p (s.chain p).nextLabel }

/-- The engine stops: the open group and record go out. -/
def State.fftStop (s : State) (p : Nat) : State :=
  let ws := s.fftWords p (s.engine p).nextStart
  (s.flushGroup p ws).closeSpectrum p

end Sys2Proof.Machine
end

