-- ==== Sys2Proof/Machine/Chain.lean ====
section
/-! DEFINITION. Channel filter chains and insets (R132-R156): frames released to the chains, labels, marks, DC
estimates, the NCO, stages, crossfades and configuration changes. -/

namespace Sys2Proof.Machine

/-! ### Front end of a chain: DC blocking and tuning (R136-R141). -/

/-- A code at either end of the range (R106). -/
def codeClipped (c : Nat) : Bool := decide (c % 4096 = 0x7FF) || decide (c % 4096 = 0x800)

/-- A code as an integer (R106). -/
def codeInt (c : Nat) : Int := signedOf 12 (c % 4096)

/-- FREEZE and SHIFT at an index: those in force since a frame boundary, and else the register's (R137). -/
def State.dcParams (s : State) (p six : Nat) : Bool × Nat :=
  match (s.chain p).dcSets.find? fun x => decide (x.1 ≤ six) with
  | some x => x.2
  | none => (s.rb (keyDDC p) Reg.DDC_DC_CFG.FREEZE, s.rf (keyDDC p) Reg.DDC_DC_CFG.SHIFT)

/-- DC blocking of a list of codes from an index on: the estimate after them, and y = x − e of each, whose e includes the samples before
it. With DC_EN = 0 samples pass unchanged and e stands still; inputs before the last reset are taken as zero (R136, R137, R145). -/
def dcBlock (tunes : List Tune) (frozen : Bool) (shift zeroAt : Nat) : Nat → List Nat → DcEst → List DcSample × DcEst
  | _, [], e => ([], e)
  | six, x :: xs, e =>
    let dc := (tuneAt tunes six).dcEn
    if six < zeroAt then dcBlock tunes frozen shift zeroAt (six + 1) xs e
    else
      let y : DcSample := if dc then e.sub six (codeInt x) else { six := six, num := codeInt x, exp := 0 }
      let r := dcBlock tunes frozen shift zeroAt (six + 1) xs (if dc && !frozen then e.step shift (codeInt x) else e)
      (y :: r.1, r.2)

/-- A chain takes a frame through its DC-blocking stage: EST0 for the main converter's frames, EST1 for C4's (R136-R138). The first
pipeline's DDC page governs a gang (R133). -/
def State.dcFrame (s : State) (p : Nat) (spare : Bool) (f : Nat) (codes : List Nat) : State × List DcSample :=
  let g := s.governor p
  if !s.isActive (keyDDC g) then (s, [])
  else
    let d := s.dcParams g (32 * f)
    let r := dcBlock (s.chain g).tunes d.1 d.2 (s.chain g).zeroAt (32 * f) codes (if spare then (s.chain p).est1 else (s.chain p).est0)
    if spare then ((s.modChain p fun c => { c with est1 := r.2 }).wf (keyDDC p) Reg.DDC_DC_EST.EST1 r.2.reg, r.1)
    else ((s.modChain p fun c => { c with est0 := r.2 }).wf (keyDDC p) Reg.DDC_DC_EST.EST0 r.2.reg, r.1)

/-- W of a list of DDC words. -/
def ddcW (p : Nat) (ws : List (Nat × Word)) : Nat :=
  (mget (regReset (keyDDC p)) ws 0x108).toNat + wget (mget (regReset (keyDDC p)) ws 0x10C) 15 0 * 2 ^ 32

/-- Zone applied at a converter at an index (R101). -/
def State.zoneAt (s : State) (c six : Nat) : Nat :=
  match (s.conv c).sets.find? fun x => decide (x.from0 ≤ six) with
  | some x => x.zone
  | none => s.rf (keyAFE c) Reg.AFE_STAT.ZONE

/-- The accumulator's offset of R140 with the applied DDC_PHASE. -/
def State.loadPhase (s : State) (p : Nat) : Nat := (s.af (keyDDC p) Reg.DDC_PHASE.PHASE * 2 ^ 32) % 2 ^ 48

/-- The tuning that the applied words give from an index on. The accumulator is loaded by R140 where `load` holds; else W and PHASE
unchanged leave it alone, and a change follows RETUNE: COHERENT reloads it, CONTINUOUS keeps its phase at the index (R139-R141). -/
def State.tuning (s : State) (p a zone : Nat) (load changed settle : Bool) : Tune :=
  let k := keyDDC p
  let t := tuneAt (s.chain p).tunes a
  let w := ddcW p (s.page k).applied
  let m := mixWord zone w
  let off := if load || (changed && s.ab k Reg.DDC_CFG.RETUNE) then s.loadPhase p
    else if m = t.m then t.off else t.keepPhase m a
  { from0 := a, w := w, m := m, off := off, dcEn := s.ab k Reg.DDC_CFG.DC_EN, zone := zone, settle := settle }

/-- Zone applied at the converter that feeds a chain. -/
def State.chainZone (s : State) (p : Nat) : Nat :=
  match s.chainSrc p with
  | some c => s.rf (keyAFE c) Reg.AFE_STAT.ZONE
  | none => 0

/-- The applied words tune the inputs from an index on. -/
def State.retune (s : State) (p a : Nat) (changed settle : Bool) : State :=
  let z := (tuneAt (s.chain p).tunes a).zone
  let z := if (s.chain p).tunes.isEmpty then s.chainZone p else z
  s.modChain p fun c => { c with tunes := addTune c.tunes (s.tuning p a z false changed settle) }

/-- A chain starts or is reset at an index: its NCO is loaded (R140, R145). -/
def State.loadNco (s : State) (p a : Nat) : State :=
  s.modChain p fun c => { c with tunes := [s.tuning p a (s.chainZone p) true false false] }

/-- The zone of the frames changes at an index, and M with it; tunings that wait for later inputs follow (R139). -/
def State.noteZone (s : State) (p c index : Nat) : State :=
  let z := s.zoneAt c index
  let t := tuneAt (s.chain p).tunes index
  if (s.chain p).tunes.isEmpty ∨ t.zone = z then s
  else
    let m := mixWord z t.w
    let new : Tune := { t with from0 := index, zone := z, m := m, settle := false,
                               off := if s.ab (keyDDC p) Reg.DDC_CFG.RETUNE then s.loadPhase p else t.keepPhase m index }
    s.modChain p fun c =>
      { c with tunes := addTune (c.tunes.map fun x => if index < x.from0 then { x with zone := z, m := mixWord z x.w } else x) new }

/-- W on the wrong side of the zone sets ZONE_MISMATCH (R139). -/
def State.zoneCheck (s : State) (p : Nat) : State :=
  let t := tuneAt (s.chain p).tunes (s.chain p).inEnd
  if !s.bonded p && (decide (t.zone = 0 ∧ 2 ^ 47 < t.w) || decide (t.zone = 1 ∧ t.w < 2 ^ 47)) then s.setErr (keyDDC p) 17 else s

/-! ### Outputs (R134, R135, R143-R145, R148). -/

/-- Marks of the inputs in the impulse window of an output (R135), under a response set. -/
def State.windowMarks (s : State) (p label : Nat) (resp : Word) : Nat :=
  let e := 2 * label + chainDelay (s.bonded p) (s.decim p) resp
  let l := chainLength (s.bonded p) (s.decim p) resp
  let c := s.chain p
  inputMarks c.inMarks c.zeroAt e l ||| tuneMarks c.tunes c.zeroAt e l

/-- Samples the capture FIFO holds: 2 µs of outputs (R235). -/
def State.fifoSize (s : State) (p : Nat) : Nat := max 1 (81920 / s.labelP p)

/-- An output enters the capture FIFO; one that does not fit is stored as zero with GAP_BEFORE and counted (R235). -/
def State.pushFifo (s : State) (p : Nat) (c : ChainSample) : State :=
  if s.wrState p = wrIDLE then s
  else if (s.chain p).fifo.length < s.fifoSize p then s.modChain p fun h => { h with fifo := h.fifo ++ [c] }
  else
    let s := s.modChain p fun h => { h with fifo := h.fifo ++ [{ c with i := 0, q := 0, marks := c.marks ||| markGAP }] }
    (s.count (keyCAP p) Reg.CAP_FIFO_LOST).setErr (keyCAP p) 17

/-- An output leaves a chain or a playback for the engine, the capture writer and the time-domain units (R132, R482). -/
def State.pushOutput (s : State) (p : Nat) (out : ChainSample) : State :=
  let s := s.modChain p fun c =>
    { c with outMarks := addRun c.outMarks (s.labelP p) out.label out.label out.marks,
             outs := if s.isActive (keyFFT p) then c.outs ++ [(out.label, out.i, out.q)] else [] }
  ((s.pushFifo p out).tdEval p out).countDropped (keyFFT p) 1

/-- Stages that have saturated set their bits of DDC_SAT and the advisory (R144). -/
def State.noteSat (s : State) (p mask : Nat) : State :=
  if mask = 0 then s else (s.setReg (keyDDC p) 0x120 (s.reg (keyDDC p) 0x120 ||| word mask)).setErr (keyDDC p) 16

/-- Marks of an output: those of its inputs under each response set in use, settling, saturation, and a gap after a freeze. -/
def State.outputMarks (s : State) (p : Nat) (x : StageIn) (clip : Bool) : Nat :=
  let c := s.chain p
  let label := x.label / 2
  let old := match c.filt.older with
    | some (w, _) => if c.xfLeft ≠ 0 ∧ c.xfAt ≤ label then s.windowMarks p label w else 0
    | none => 0
  s.windowMarks p label c.filt.resp ||| old ||| (if c.settleLeft ≠ 0 then markSETTLING else 0) |||
    (if x.sat || clip then markSATURATED else 0) ||| (if (s.page (keyDDC p)).gapNext then markGAP else 0)

/-- Emission point of an output in half periods: with its last input, and at twice the output rate while emission catches up (R148). -/
def State.emitPoint (s : State) (p label : Nat) : Nat :=
  let c := s.chain p
  let old := match c.filt.older with | some (w, _) => if c.xfLeft = 0 then 0 else chainDelay (s.bonded p) (s.decim p) w | none => 0
  max (c.filt.emitAt + s.labelP p) (2 * label + max old (chainDelay (s.bonded p) (s.decim p) c.filt.resp))

/-- Emit an output of a chain. -/
def State.emitOutput (s : State) (p : Nat) (x : StageIn) : State :=
  let k := keyDDC p
  let label := x.label / 2
  let v := gainOut ((s.chain p).filt.gain (s.af k Reg.DDC_CFG.GAIN) label) x
  let marks := s.outputMarks p x v.2
  let at0 := s.emitPoint p label
  let src := s.srcAt p label
  let s := s.noteSat p (if v.2 then 2 ^ 18 else 0)
  let s := if (s.page k).gapNext then s.modPage k fun q => { q with gapNext := false } else s
  let s := s.showMarks k marks
  let s := s.modChain p fun c =>
    let left := if c.xfAt ≤ label then c.xfLeft - 1 else c.xfLeft
    { c with nextLabel := label + s.labelP p, settleLeft := c.settleLeft - 1,
             cleanSeen := c.cleanSeen || (c.wantClean && !hasMark marks markSETTLING), xfLeft := left,
             filt := if left = 0 ∧ c.xfLeft ≠ 0 then (c.filt.drop label at0).settle else c.filt.drop label at0 }
  s.pushOutput p { label := label, i := v.1.1, q := v.1.2, marks := marks, src := src }

/-- Index after the last input that every converter of the chain's channel has delivered (R114, R133). -/
def State.inputEnd (s : State) (p : Nat) : Nat :=
  match (s.chain p).partner with
  | some q => if s.bonded p then min (s.chain p).inEnd (s.chain q).inEnd else (s.chain p).inEnd
  | none => (s.chain p).inEnd

/-- Emit the outputs that are ready and due, at most `n`. -/
def State.emitReady (s : State) (p : Nat) : Nat → State
  | 0 => s
  | n + 1 =>
    let c := s.chain p
    match c.filt.next? c.nextLabel c.xfLeft c.xfAt with
    | none => s
    | some x => if 2 * s.inputEnd p < s.emitPoint p (x.label / 2) then s else State.emitReady (s.emitOutput p x) p n

/-! ### Insets (R151-R154). -/

/-- Family, exponent, response and offset of an inset from its CFG and OFF words. -/
def insQuinary (cfg : Word) : Bool := wbit cfg 8
def insExp (cfg : Word) : Nat := wget cfg 4 0
def insResp (cfg : Word) : Nat := wget cfg 13 12

/-- R of an inset (R151). -/
def insR (cfg : Word) : Nat := if insQuinary cfg then 25 * 2 ^ insExp cfg else 2 ^ insExp cfg

/-- Label period of an inset: 2R, or R for a bonded channel (R154). -/
def insP (bonded : Bool) (cfg : Word) : Nat := if bonded then insR cfg else 2 * insR cfg

/-- Output rate in units of 100 S/s (R151). -/
def insRate (cfg : Word) : Nat := if insQuinary cfg then 8192000 / 2 ^ insExp cfg else 204800000 / 2 ^ insExp cfg

/-- Stage figures of an inset in half SCLK periods, summed with `w` for a half-band response and `w5` for a fifth-band:
stage 0 of the chain, the extra half-band of a bonded channel, then the inset's stages (R151, R154). -/
def insSum (bonded : Bool) (cfg : Word) (w : Nat → Nat) (w5 : Nat) : Nat :=
  let head := if bonded then w 0 * 1 + w 0 * 2 else w 0 * 2
  let r := insResp cfg
  head + (if insQuinary cfg then
      w5 * 4 + w5 * 20 + ((List.range (insExp cfg)).map fun i => w r * (100 * 2 ^ i)).sum
    else ((List.range (insExp cfg)).map fun i => w r * (4 * 2 ^ i)).sum)

/-- L and the label delay of an inset in half periods (R154). -/
def insLength (bonded : Bool) (cfg : Word) : Nat := insSum bonded cfg (fun r => respTaps r - 1) 118
def insDelay (bonded : Bool) (cfg : Word) : Nat := insSum bonded cfg respDelay 59

/-- D of an inset (R154). -/
def insD (bonded : Bool) (cfg : Word) : Nat := ceilDiv (insLength bonded cfg) (4 * insR cfg)

/-- Twice half the span in Hz of an inset: 78.125 % of its rate (R151, R152). -/
def insSpanHz (cfg : Word) : Nat := if insQuinary cfg then 640000000 else 16000000000

/-- |offset| + span/2 within 8 GHz, or 16 GHz bonded (R152), compared exactly. -/
def insFits (bonded : Bool) (cfg lo hi : Word) : Bool :=
  let o := signedOf 48 (lo.toNat + wget hi 15 0 * 2 ^ 32)
  let lim := (if bonded then 16000000000 else 8000000000) * 2 ^ 64
  decide (o.natAbs * 40960000000 * 2 ^ 16 + insSpanHz cfg * 2 ^ 63 / 2 ^ insExp cfg ≤ lim)

/-- The enabled insets of staged or applied words. -/
def insEnabled (w0 w1 : Word) : List Nat := bitsSet (w0.toNat + w1.toNat * 2 ^ 32) 64

/-- Aggregate rate of the staged, and of the applied, enabled insets. -/
def State.insStagedRate (s : State) (p : Nat) : Nat :=
  ((insEnabled (s.reg (keyINS p) 0x100) (s.reg (keyINS p) 0x104)).map fun k => insRate (s.reg (keyINS p) (0x400 + 0x10 * k))).sum
def State.insAppliedRate (s : State) (p : Nat) : Nat :=
  ((insEnabled (s.areg (keyINS p) 0x100) (s.areg (keyINS p) 0x104)).map fun k => insRate (s.areg (keyINS p) (0x400 + 0x10 * k))).sum

/-- The chain whose stage 0 an inset follows: the first pipeline of a gang (R133, R151). -/
def State.insChain (s : State) (p : Nat) : Nat := s.governor p

/-- The INSET_RECORD task that records an inset: it runs, the inset is granted to it, and INSETS selects its number (R281). -/
def State.insetTask (s : State) (p k : Nat) : Option Task :=
  (s.pipeTasks p).find? fun t =>
    decide (dTYPE t.desc = 3) && (decide (t.st = .running) || decide (t.st = .migrating)) &&
      t.maps.any fun m => decide (m.res = 0x104 ∧ t.pipes[m.phys / 64]? = some p ∧ m.phys % 64 = k) && nbit (u64At t.desc 0x70) m.rel

/-- Stages of an inset after stage 0 of the chain: the extra half-band of a bonded channel, then its own (R151). -/
def insKinds (bonded : Bool) (cfg : Word) (resp : Word) : List StageKind :=
  let r := resp.toNat % 4
  let half (m : Nat) : List StageKind := (List.range (insExp cfg)).map fun i => { half := m * 2 ^ i, fifth := false, resp := r }
  (if bonded then [{ half := 2, fifth := false, resp := 0 }] else []) ++
    (if insQuinary cfg then [{ half := 4, fifth := true, resp := 0 }, { half := 20, fifth := true, resp := 0 }] ++ half 100 else half 4)

/-- A running inset's CFG word. -/
def State.insCfg (s : State) (p k : Nat) : Word := s.areg (keyINS p) (0x400 + 0x10 * k)

/-- The tuning of an inset from an index on: its NCO follows R140 with O and INS_PHASE (R152). -/
def State.insTuning (s : State) (p k a : Nat) (settle : Bool) : Tune :=
  let o := (s.areg (keyINS p) (0x404 + 0x10 * k)).toNat + wget (s.areg (keyINS p) (0x408 + 0x10 * k)) 15 0 * 2 ^ 32
  { from0 := a, w := o, m := o, off := (wget (s.areg (keyINS p) (0x40C + 0x10 * k)) 15 0 * 2 ^ 32) % 2 ^ 48, dcEn := false, zone := 0,
    settle := settle }

/-- The record of a chunk of an inset (R259, R281). -/
def State.insetRecord (s : State) (p k : Nat) (t : Task) (cfg : Word) : State :=
  let i := s.inset p k
  let n := i.chunk.length
  let iq12 := decide (byteAt t.desc 0x78 = 2)
  let g := s.insChain p
  let clip := iq12 && i.chunk.any fun x => (round12 x.1).2 || (round12 x.2).2
  let data := i.chunk.flatMap fun x =>
    if iq12 then leBytes (unsignedOf 12 (round12 x.1).1 + unsignedOf 12 (round12 x.2).1 * 4096) 3
    else leBytes (unsignedOf 16 x.1) 2 ++ leBytes (unsignedOf 16 x.2) 2
  let payload := leBytes i.chunkFirst 8 ++ leBytes (i.chunkFirst / 2 ^ 64 % 256) 1 ++ leBytes (s.decim g) 1 ++
    leBytes (s.srcAt g i.chunkFirst) 1 ++ leBytes (boolNat (s.bonded g)) 1 ++ leBytes (insP (s.bonded g) cfg) 4 ++ leBytes n 4 ++
    leBytes 0 4 ++ leBytes (s.apair (keyDDC g) 0x108 % 2 ^ 48) 8 ++ data ++ (if iq12 ∧ n % 2 = 1 then leBytes 0 3 else [])
  (s.modInset p k fun i => { i with chunk := [], chunkMarks := 0 }).addReady .none
    { kind := if iq12 then 2 else 1, flags := marksToFlags (i.chunkMarks ||| if clip then markSATURATED else 0), task := t.id,
      source := sourceOf p 0x80, trigMask := 0, six := i.chunkFirst, fine := 0, pre := 0, post := 0, payload := payload }

/-- An output of an inset enters the chunk of the task that records it (R281). -/
def State.insetChunk (s : State) (p k : Nat) (cfg : Word) (label : Nat) (v : Int × Int) (marks : Nat) : State :=
  match s.insetTask p k with
  | none => s.modInset p k fun i => { i with chunk := [], chunkMarks := 0 }
  | some t =>
    let s := s.modInset p k fun i =>
      { i with chunk := i.chunk ++ [v], chunkFirst := if i.chunk.isEmpty then label else i.chunkFirst, chunkMarks := i.chunkMarks ||| marks }
    if u32At t.desc 0x7C ≤ (s.inset p k).chunk.length then s.insetRecord p k t cfg else s

/-- An inset has saturated: its SAT bit and the advisory (R144, R156). -/
def State.insetSat (s : State) (p k : Nat) (clip : Bool) : State :=
  let off := 0x110 + 4 * (k / 32)
  if clip then (s.setReg (keyINS p) off (s.reg (keyINS p) off ||| word (2 ^ (k % 32)))).setErr (keyINS p) 16 else s

/-- Marks of an inset's output (R135, R154). -/
def State.insetMarks (s : State) (p k : Nat) (cfg : Word) (x : StageIn) (clip : Bool) : Nat :=
  let g := s.insChain p
  let b := s.bonded g
  let i := s.inset p k
  let m (w : Word) : Nat :=
    let cfg := wset cfg 13 12 w.toNat
    let e := x.label + insDelay b cfg
    let l := insLength b cfg
    inputMarks (s.chain g).inMarks i.zeroAt e l ||| tuneMarks (s.chain g).tunes i.zeroAt e l ||| tuneMarks i.tunes i.zeroAt e l
  let old := match i.filt.older with
    | some (w, _) => if i.xfLeft ≠ 0 ∧ i.xfAt ≤ x.label / 2 then m w else 0
    | none => 0
  m i.filt.resp ||| old ||| (if i.settleLeft ≠ 0 then markSETTLING else 0) ||| (if x.sat || clip then markSATURATED else 0)

/-- An inset that is to stop at an index has reached it. -/
def Inset.stops (i : Inset) (label : Nat) : Bool := match i.stopAt with | some a => decide (a ≤ label) | none => false

/-- An inset emits an output (R154). -/
def State.insetEmit (s : State) (p k : Nat) (cfg : Word) (x : StageIn) : State :=
  let label := x.label / 2
  let i := s.inset p k
  let v := gainOut (i.filt.gain (wget cfg 17 16) label) x
  let marks := s.insetMarks p k cfg x v.2
  let s := (s.insetSat p k v.2).insetChunk p k cfg label v.1 marks
  let s := s.showMarks (keyINS p) marks
  s.modInset p k fun i =>
    let left := if label < i.xfAt then i.xfLeft else i.xfLeft - 1
    { i with nextLabel := label + insP (s.bonded (s.insChain p)) cfg, settleLeft := i.settleLeft - 1, xfLeft := left,
             outs := ((label, v.1.1, v.1.2, marks) :: i.outs).take 131072,
             filt := if left = 0 ∧ i.xfLeft ≠ 0 then (i.filt.drop label 0).settle else i.filt.drop label 0 }

/-- Emit the outputs of an inset that are ready, at most `n`. -/
def State.insetReady (s : State) (p k : Nat) (cfg : Word) : Nat → State
  | 0 => s
  | n + 1 =>
    let i := s.inset p k
    match i.filt.next? i.nextLabel i.xfLeft i.xfAt with
    | none => s
    | some x => if i.stops (x.label / 2) then s else State.insetReady (s.insetEmit p k cfg x) p k cfg n

/-- Channel-rate samples enter an inset, from the first that depends on inputs since its start (R151, R154). -/
def State.insetFeed (s : State) (p k : Nat) (mid : List StageIn) : State :=
  let b := s.bonded (s.insChain p)
  let cfg := s.insCfg p k
  let i := s.inset p k
  let lead := (stage0Kind b).delay * (stage0Kind b).half
  let new := mid.filter fun x => decide (2 * i.zeroAt ≤ x.label + lead)
  let r := i.filt.feed (insKinds b cfg) 1 (new.map (insetMixed i.tunes))
  let s := s.insetSat p k (decide (r.2 ≠ 0) || new.any (insetMixOver i.tunes))
  let s := (s.modInset p k fun i => { i with filt := r.1 }).insetReady p k cfg r.1.ready.length
  if (s.inset p k).stops (s.inset p k).nextLabel then
    s.modInset p k fun i => { i with stopAt := none, filt := Filt.empty, xfLeft := 0, xfAt := 0, target := none }
  else s

/-- Insets of a pipeline that run: those enabled, and those whose labels before their end are still to come. -/
def State.insRunning (s : State) (p : Nat) : List Nat :=
  let en := insEnabled (s.areg (keyINS p) 0x100) (s.areg (keyINS p) 0x104)
  en ++ ((s.insets.filter fun x => decide (x.1 / 64 = p) && x.2.stopAt.isSome && !en.contains (x.1 % 64)).map fun x => x.1 % 64)

/-- Channel-rate samples enter the insets of a running INS block (R132, R618). -/
def State.insetsFeed (s : State) (p : Nat) (mid : List StageIn) : State :=
  if s.isActive (keyINS p) then (s.insRunning p).foldl (fun s k => s.insetFeed p k mid) s
  else s.countDropped (keyINS p) mid.length

/-- How far back, in half periods, the outputs of a gang's chain and insets still look. -/
def State.inputSpan (s : State) (p : Nat) : Nat :=
  let both (k : StageKind → Nat) (ks : Word → List StageKind) (f : Filt) : Nat :=
    max ((ks f.resp).map k).sum (match f.older with | some (w, _) => ((ks w).map k).sum | none => 0)
  let far (x : StageKind) : Nat := x.span + x.delay * x.half
  let ins (q : Nat) : List Nat :=
    (s.insRunning q).map fun k => both far (insKinds (s.bonded p) (s.insCfg q k)) (s.inset q k).filt
  far (stage0Kind (s.bonded p)) +
    (ins p ++ (match (s.chain p).partner with | some q => ins q | none => [])).foldl max
      (both far (chainKinds (s.bonded p) (s.decim p)) (s.chain p).filt)

/-! ### Frames (R27, R28, R106, R107, R117, R124). -/

/-- The SIX at which frame `f` is released: 48 FCLK after its group's launch, one frame per FCLK (R27, R109). -/
def releaseSix (f : Nat) : Nat := 32 * (f / 5 * 5 + 5) + 128 + 48 * 32 + 32 * (f % 5)

/-- Marks of a frame's inputs: SETTLING after an AFE change, STALE, GAP_BEFORE, and SATURATED at clipped codes. -/
def State.frameMarks (s : State) (c f : Nat) (codes : List Nat) (stale missing : Bool) : List MarkRun :=
  let a := 32 * f
  let settle := ((s.conv c).sets.filter fun x => decide (x.from0 ≤ a + 31 ∧ a < x.settleEnd)).map fun x =>
    { first := max a x.from0, last := min (a + 31) (x.settleEnd - 1), marks := markSETTLING }
  let whole := (if stale then markSTALE else 0) ||| (if missing then markGAP else 0)
  settle ++ (if whole = 0 then [] else [{ first := a, last := a + 31, marks := whole }]) ++
    (((List.range 32).filter fun i => codeClipped (nth 0 codes i)).map fun i => { first := a + i, last := a + i, marks := markSATURATED })

/-- Note the converter, attenuation and flatness table in force from a frame on. While a survey has the converter, its new tables are not
in force (R166, R334, R337-R339). -/
def State.noteFlat (s : State) (p c index : Nat) : State :=
  if (match (s.chain p).main with | some m => s.isStale m | none => false) then s
  else
    let z := s.zoneAt c index
    let a := match (s.conv c).sets.find? fun x => decide (x.from0 ≤ index) with
      | some x => x.atten
      | none => s.rf (keyAFE c) Reg.AFE_STAT.ATTEN
    let id_ := (s.reg (keyTRM c) (0x800 + 8 * (16 * z + a))).toNat
    let e : FlatEntry := { from0 := index, conv := c, atten := a, id := id_ }
    match (s.chain p).flat with
    | x :: _ => if { x with from0 := index } = e then s else (s.modChain p fun h => { h with flat := (e :: h.flat).take 64 }).showFlat p
    | [] => (s.modChain p fun h => { h with flat := [e] }).showFlat p

/-- A chain takes 32 inputs: DC blocking, marks, the zone and the tables in force. A block that is not ACTIVE takes none (R49, R618). -/
def State.chainInput (s : State) (p c f : Nat) (codes : List Nat) (runs : List MarkRun) : State :=
  let g := s.governor p
  let s := s.noteFlat p c (32 * f)
  let s := if g = p then s.noteZone p c (32 * f) else s
  let r := s.dcFrame p (decide (c = 4)) f codes
  let s := r.1.modChain p fun h => { h with inEnd := 32 * f + 32, raw := h.raw ++ r.2 }
  if !s.isActive (keyDDC g) then s.countDropped (keyDDC p) 32
  else
    let keep := 64 * f - s.inputSpan g
    (s.zoneCheck g).modChain g fun h => { h with inMarks := dropRuns h.inMarks keep ++ halfRuns (decide (g ≠ p)) runs }

/-- The samples that a chain's mix takes, by index in half periods: those of a bonded channel interleave, the odd ones half a period later
(R114, R132). -/
def State.mixInputs (s : State) (g : Nat) : List (Nat × DcSample) :=
  let lim := s.inputEnd g
  let own := (s.chain g).raw.filter fun y => decide (y.six < lim)
  match (s.chain g).partner with
  | some q =>
    if s.bonded g then
      own.flatMap fun y => (2 * y.six, y) :: (((s.chain q).raw.find? fun z => decide (z.six = y.six)).toList.map fun z => (2 * z.six + 1, z))
    else own.map fun y => (2 * y.six, y)
  | none => own.map fun y => (2 * y.six, y)

/-- Samples taken by the mix leave the chain's input. -/
def State.dropRaw (s : State) (p lim : Nat) : State := s.modChain p fun c => { c with raw := c.raw.filter fun y => decide (lim ≤ y.six) }

/-- Run the chain that a pipeline's input feeds, and its insets, as far as its inputs go: mix, stage 0, stages 1 to DECIM, gain (R132). -/
def State.chainRun (s : State) (p : Nat) : State :=
  let g := s.governor p
  if !s.isActive (keyDDC g) then s
  else
    let b := s.bonded g
    let c := s.chain g
    let lim := s.inputEnd g
    let mixed := (s.mixInputs g).map fun y => mixSample (tuneAt c.tunes y.2.six) y.1 y.2
    let z := c.stage0.push (stage0Kind b) (mixed.map (·.1))
    let mid := z.2.1.map (conjZone c.tunes)
    let r := c.filt.feed (chainKinds b (s.decim g)) 2 mid
    let s := (s.dropRaw g lim).dropRaw (c.partner.getD g) lim
    let s := s.modChain g fun c => { c with stage0 := z.1, filt := r.1 }
    let s := s.noteSat g ((if mixed.any (·.2) then 1 else 0) ||| (if z.2.2 then 2 else 0) ||| r.2)
    let s := s.emitReady g r.1.ready.length
    let s := if s.isActive (keyFFT g) then s else s.modChain g fun h => { h with outMarks := dropRuns h.outMarks h.nextLabel }
    let s := s.insetsFeed g mid
    match c.partner with
    | some q => if b then s.insetsFeed q mid else s
    | none => s

/-- The pipelines whose input selector passes a converter's frame at an index (R120). -/
def State.fedBy (s : State) (c six : Nat) : List Nat := (List.range 6).filter fun p => decide (s.chainSrcAt p six = some c)

/-- The pipelines whose second estimate follows C4: its rotation serves their converter (R138). -/
def State.shadowedBy (s : State) (c six : Nat) : List Nat :=
  if c = 4 ∧ s.spareState ≠ spareIDLE then
    (List.range 6).filter fun p => decide ((s.chain p).main = some s.rot.main) && decide (s.chainSrcAt p six ≠ some 4)
  else []

/-- The receive queue at which a converter's frames enter an analysis region: C4's come over L5 or L6 (R22, R28). -/
def State.sampleQueue (s : State) (c : Nat) : Nat := if c < 4 then farEnd (keyOf (3 + c) 0x3F0) else keyOf (1 + s.rot.input / 2) 0x3F2

/-- FRAME_MISSING: the first of a run of missing frames raises a region fault for the link (R28). -/
def State.frameMissing (s : State) (c f : Nat) : State :=
  if (s.conv c).lost then s
  else
    let queue := s.sampleQueue c
    let s := (s.modConv c fun v => { v with lost := true }).logPage queue 3 codeFAULT 0 2 f
    let rid := keyOf (keyRegion queue) 0
    (s.enter rid .fault).irqBit rid irqFAULT

/-- FRAME_RELEASE: the receive queue of a converter releases its next frame at the frame's FCLK edge (R27). A frame that
has not arrived is lost (R28), and one of a STALE channel is replaced by zeros (R107). -/
def execFrameRelease (conv : Fin 5) (_iq _insSat : Unit) (s : State) : Res :=
  let c : Nat := conv
  let f := (s.conv c).nextFrame
  let fed := s.fedBy c (32 * f)
  let streaming := decide (s.convState c = convSTREAMING) || decide (s.convState c = convPATTERN)
  if !streaming && fed.isEmpty then .next s
  else
    let s := s.advanceTo (releaseSix f)
    let got := match (s.conv c).frames with
      | (n, codes) :: _ => if n = f then some codes else none
      | [] => none
    let stale := fed.any fun p => match (s.chain p).main with | some m => s.isStale m | none => false
    let held := decide (32 * f < (s.conv c).passFrom)
    let got := if held then none else got
    let missing := got.isNone && !stale
    let codes := if stale then List.replicate 32 0 else got.getD (List.replicate 32 0)
    let s := s.modConv c fun v =>
      { v with nextFrame := f + 1, frames := v.frames.filter (fun x => decide (f < x.1)), lost := v.lost && got.isNone && !held }
    let s := if missing && !held then s.frameMissing c f else s
    let clipped := (codes.filter codeClipped).length
    let s := s.countBy (keyADC c) Reg.ADC_OVR_COUNT clipped
    let s := if clipped = 0 then s else s.setErr (keyADC c) 16
    let runs := s.frameMarks c f codes stale missing
    let s := (s.shadowedBy c (32 * f)).foldl (fun s p => (s.dcFrame p true f codes).1) s
    let s := fed.foldl (fun s p => s.chainInput p c f codes runs) s
    .next (fed.foldl (fun s p => s.chainRun p) s)

/-- CHAIN_CLEAN: the first output without SETTLING after a start, reset or DECIM change raises CLEAN (R145). -/
def execChainClean (pipe : Fin 6) (s : State) : Res :=
  let p : Nat := pipe
  if (s.chain p).wantClean && (s.chain p).cleanSeen then
    .next ((s.modChain p fun c => { c with wantClean := false, cleanSeen := false }).irqBit (keyDDC p) 18)
  else .next s

/-- DC_CFG_WRITE: FREEZE and SHIFT from the next frame boundary; a SHIFT outside 10-26 keeps its value and sets
PG_ERR.RANGE (R43, R137). -/
def execDcCfgWrite (who : Issuer) (pipe : Fin 6) (value : BitVec 32) (s : State) : Res :=
  let key := keyDDC pipe
  .next (s.write who key 0x114 value.toNat fun s =>
    let sh := wget value 4 0
    let old := s.dcParams pipe s.six
    let s := s.wf key Reg.DDC_DC_CFG.FREEZE (wget value 8 8)
    let s := if 10 ≤ sh ∧ sh ≤ 26 then s.wf key Reg.DDC_DC_CFG.SHIFT sh else s.setErr key errRANGE
    let new := (ceilTo 32 s.six, s.rb key Reg.DDC_DC_CFG.FREEZE, s.rf key Reg.DDC_DC_CFG.SHIFT)
    s.modChain pipe fun c =>
      { c with dcSets := new :: (if c.dcSets.isEmpty then [(0, old)] else (c.dcSets.filter fun x => decide (x.1 ≠ new.1)).take 8) })

/-! ### DDC commits (R147-R150, R155). -/

/-- The staged checks of DDC. -/
def State.ddcCheck (s : State) (p : Nat) : Option (Nat × Nat) :=
  if s.gangedSecond p then some (codeSTATE, 0x05) else none

/-- The chain is in a crossfade. -/
def State.crossfading (s : State) (p : Nat) : Bool := decide (2 ≤ s.rf (keyDDC p) Reg.DDC_STAT.CFG_STATE)

/-- DDC_COMMIT_AT; during a crossfade it is rejected BUSY, CROSSFADE (R149, R155). -/
def execDdcCommitAt (who : Issuer) (pipe : Fin 6) (tag : Nat) (s : State) : Res :=
  let key := keyDDC pipe
  .next (s.command who key 0x0100 tag fun s op =>
    if s.crossfading pipe then s.rejectOp key op codeBUSY 0x03 else s.commitAt key op (fun s => s.ddcCheck pipe))

/-- The common COMMIT on a DDC page: during a crossfade it ends DONE at once and sets the pending target (R149). -/
def State.commitDDC (s : State) (key : Nat) (op : Op) : State :=
  let p := pipeOfKey key
  match s.ddcCheck p with
  | some (c, sub) => s.rejectOp key op c sub
  | none =>
    if s.crossfading p then
      ((((s.accept key op).modChain p fun c => { c with target := some (s.staged key) }).setCfg key 3).doneOp key)
    else s.commitHere key op s.commitBoundary (fun s => s.ddcCheck p)

/-- Responses of the active stages (R155: RESPk is ignored for k above DECIM). -/
def activeResp (decim : Nat) (w : Word) : List Nat := (List.range decim).map fun k => stageResp w (k + 1)

/-- The strongest kind of change in a list of DDC words (R147): 3 DECIM, 2 tuning, 1 RESP, 0 the rest. -/
def State.ddcKind (s : State) (p : Nat) (ws : List (Nat × Word)) : Nat :=
  let k := keyDDC p
  let w (o : Nat) : Word := mget (regReset k) ws o
  let f (r : RegField) : Nat := wget (w r.off) r.hi r.lo
  if f Reg.DDC_CFG.DECIM ≠ s.decim p then 3
  else if f Reg.DDC_CFG.RETUNE ≠ s.af k Reg.DDC_CFG.RETUNE ∨ f Reg.DDC_CFG.DC_EN ≠ s.af k Reg.DDC_CFG.DC_EN ∨
      ddcW p ws ≠ ddcW p (s.page k).applied ∨ f Reg.DDC_PHASE.PHASE ≠ s.af k Reg.DDC_PHASE.PHASE then 2
  else if activeResp (s.decim p) (w 0x104) ≠ activeResp (s.decim p) (s.resp p) then 1
  else 0

/-- Stage 0 and the filter of a chain with zero state at an index (R145). -/
def State.chainBlank (s : State) (p a : Nat) : State :=
  let b := s.bonded p
  let z := stage0Kind b
  let n := ceilTo z.step (2 * a - z.delay * z.half)
  s.modChain p fun c =>
    { c with stage0 := { next := n, line := [] }, raw := c.raw.filter (fun y => decide (a ≤ y.six)),
             filt := Filt.init (chainKinds b (s.decim p) (s.resp p)) (s.resp p) n (s.af (keyDDC p) Reg.DDC_CFG.GAIN) }

/-- Zero a chain's stages at an index: a new label grid from the first multiple of P, with SETTLING for D outputs
(R145, R147). A crossfade and its pending target end there (log entry 79). -/
def State.chainZero (s : State) (p a : Nat) : State :=
  (s.chainBlank p a).modChain p fun c =>
    { c with nextLabel := s.labelAt p a, settleLeft := s.settleD p, wantClean := true, cleanSeen := false, zeroAt := a, outMarks := [],
             outs := [], xfLeft := 0, target := none }

/-- Registers, gang and rates after an apply of DDC words. -/
def State.ddcRefresh (s : State) (p : Nat) : State :=
  let s := (s.refreshPipe p).mirrorGang p
  match (s.chain p).partner with
  | some q => if s.bonded p then s.refreshPipe q else s
  | none => s

/-- New words change the tuning of a chain. -/
def State.tuneChanged (s : State) (p : Nat) (ws : List (Nat × Word)) : Bool :=
  decide (ddcW p ws ≠ ddcW p (s.page (keyDDC p)).applied) ||
    decide (wget (mget (regReset (keyDDC p)) ws 0x110) 15 0 ≠ s.af (keyDDC p) Reg.DDC_PHASE.PHASE)

/-- Responses take force for the inputs from an index on, at once where none are under way, and GAIN for the labels from there on (R147). -/
def State.forkChain (s : State) (p a : Nat) (oldGain : Nat) (xfade : Bool) : State :=
  s.modChain p fun c =>
    { c with filt := { c.filt with fork := if c.filt.resp = s.resp p then c.filt.fork else some (a, s.resp p, xfade),
                                   gainAt := s.labelAt p a, gainOld := oldGain } }

/-- Apply DDC words to a chain at an index by the rule of the strongest change (R147, R148); the answer is CFG_STATE. Frames that have
started go on with their grid unless DECIM changes (R170), and the open group and record end (R172, R173). -/
def State.ddcApply (s : State) (p a : Nat) (ws : List (Nat × Word)) : State × Nat :=
  let k := keyDDC p
  let kind := s.ddcKind p ws
  let n := s.framesStarted p a
  let gain := s.af k Reg.DDC_CFG.GAIN
  let running := s.isActive k
  let tuned := s.tuneChanged p ws
  let s := if s.isActive (keyFFT p) then (s.flushGroup p (s.fftWords p (s.engine p).nextStart)).closeSpectrum p else s
  let s := (if kind = 3 then s.capNewEpoch p else s).applyWords k ws
  match kind with
  | 3 =>
    let s := ((s.retune p a tuned false).setReg k 0x120 0).chainZero p a
    ((s.ddcRefresh p).abandonFrames p a n, 0)
  | 2 => (((s.retune p a tuned running).forkChain p a gain false).ddcRefresh p, 0)
  | 1 =>
    if running then
      (((s.forkChain p a gain true).modChain p fun c => { c with xfLeft := 256, xfAt := s.labelAt p a }).ddcRefresh p, 2)
    else ((s.forkChain p a gain false).ddcRefresh p, 0)
  | _ => ((s.forkChain p a gain false).ddcRefresh p, 0)

/-- DDC_APPLY: a staged change applies at its index A (R147, R150); with nothing staged nothing does (R619). -/
def State.ddcTake (s : State) (p : Nat) (a : PendApply) : State :=
  let key := keyDDC p
  if a.empty then s.passCommit key a
  else
    let r := ((s.advanceTo a.due).clearPend key).ddcApply p a.due a.words
    let s := (r.1.setSix3 key 0x12C a.due).setCfg key r.2
    (s.irqBit key 16).endCommit key a.due

/-- DDC_APPLY. -/
def execDdcApply (pipe : Fin 6) (s : State) : Res :=
  match s.pendOf (keyDDC pipe) with
  | none => .next s
  | some a => .next (s.ddcTake pipe a)

/-! ### INS commits (R152-R154, R156). -/

/-- The staged checks of INS: the first enabled inset outside the channel span, then the aggregate rate of the pipeline
or of the gang (R152, R153). -/
def State.insCheck (s : State) (p : Nat) : Option (Nat × Nat) :=
  let k := keyINS p
  let b := s.bonded p
  let en := insEnabled (s.reg k 0x100) (s.reg k 0x104)
  let partner := match (s.chain p).partner with | some q => if b then s.insAppliedRate q else 0 | none => 0
  if en.any fun n => !insFits b (s.reg k (0x400 + 0x10 * n)) (s.reg k (0x404 + 0x10 * n)) (s.reg k (0x408 + 0x10 * n)) then
    some (codeRANGE, 0x04)
  else if (if b then 160000000 else 80000000) < s.insStagedRate p + partner then some (codeNOSPACE, 0x03)
  else none

/-- The first enabled staged inset outside the span. -/
def State.insOffender (s : State) (p : Nat) : Nat :=
  let k := keyINS p
  match (insEnabled (s.reg k 0x100) (s.reg k 0x104)).find? fun n =>
      !insFits (s.bonded p) (s.reg k (0x400 + 0x10 * n)) (s.reg k (0x404 + 0x10 * n)) (s.reg k (0x408 + 0x10 * n)) with
  | some n => n
  | none => 0xFF

/-- INS_REJECT names the first offending inset of a commit rejected OFFSET_RANGE (R152). -/
def State.noteOffender (s : State) (p : Nat) : State :=
  if s.insCheck p = some (codeRANGE, 0x04) then s.wf (keyINS p) Reg.INS_REJECT.INSET (s.insOffender p) else s

/-- INS_COMMIT_AT (R156). -/
def execInsCommitAt (who : Issuer) (pipe : Fin 6) (tag : Nat) (s : State) : Res :=
  let key := keyINS pipe
  .next (s.command who key 0x0100 tag fun s op =>
    let late := decide (op.sixArg < s.six + 4096) || decide (op.sixArg % 32 ≠ 0)
    (if late then s else s.noteOffender pipe).commitAt key op (fun s => s.insCheck pipe))

/-- The four applied words of an inset. -/
def State.insWords (s : State) (p k : Nat) : List Word := (List.range 4).map fun j => s.areg (keyINS p) (0x400 + 0x10 * k + 4 * j)

/-- Write the four applied words of an inset. -/
def State.setInsWords (s : State) (p k : Nat) (ws : List Word) : State :=
  (List.range 4).foldl (fun s j => s.setAreg (keyINS p) (0x400 + 0x10 * k + 4 * j) (nth 0 ws j)) s

/-- The staged words of INS change nothing but insets that are in a crossfade (R149, R154). -/
def State.insAllFading (s : State) (p : Nat) : Bool :=
  let k := keyINS p
  decide (s.reg k 0x100 = s.areg k 0x100) && decide (s.reg k 0x104 = s.areg k 0x104) &&
    (List.range 64).all fun n =>
      decide ((s.inset p n).xfLeft ≠ 0) || (List.range 4).all fun j => decide (s.reg k (0x400 + 0x10 * n + 4 * j) = s.areg k (0x400 + 0x10 * n + 4 * j))

/-- Insets in a crossfade take their staged words as pending targets, and one whose staged words are those it fades to has none (R149). -/
def State.insTargets (s : State) (p : Nat) : State :=
  let k := keyINS p
  (List.range 64).foldl (fun s n =>
    if (s.inset p n).xfLeft = 0 then s
    else
      let ws := (List.range 4).map fun j => s.reg k (0x400 + 0x10 * n + 4 * j)
      s.modInset p n fun i => { i with target := if ws = s.insWords p n then none else some ws }) s

/-- The common COMMIT on an INS page: where all that it changes is in a crossfade it ends DONE at once (R149, R154). -/
def State.commitINS (s : State) (key : Nat) (op : Op) : State :=
  let p := pipeOfKey key
  if (s.insCheck p).isNone && s.stagedDiffers key && s.insAllFading p then ((s.accept key op).insTargets p).doneOp key
  else (s.noteOffender p).commitHere key op s.commitBoundary (fun s => s.insCheck p)

/-- Kind of change between two inset settings (R147, R154): 3 rate, 2 tuning, 1 response, 0 the rest. -/
def insKind (old new : List Word) : Nat :=
  let c0 := nth 0 old 0
  let c1 := nth 0 new 0
  if insQuinary c0 ≠ insQuinary c1 ∨ insExp c0 ≠ insExp c1 then 3
  else if old.drop 1 ≠ new.drop 1 then 2
  else if insResp c0 ≠ insResp c1 then 1
  else 0

/-- INS_ACTIVE, INS_RATE_STAGED and INS_RATE_APPLIED follow the words (R156). -/
def State.insShow (s : State) (p : Nat) : State :=
  let k := keyINS p
  let s := (s.setReg k 0x124 (s.areg k 0x100)).setReg k 0x128 (s.areg k 0x104)
  (s.setReg k 0x10C (word (s.insAppliedRate p))).setReg k 0x108 (word (s.insStagedRate p))

/-- Start an inset at an index with zero state and SETTLING for D outputs (R154). -/
def State.insetStart (s : State) (p k a : Nat) : State :=
  let b := s.bonded (s.insChain p)
  let cfg := s.insCfg p k
  let r := word (insResp cfg)
  let z := stage0Kind b
  s.modInset p k fun i =>
    { i with nextLabel := ceilTo (insP b cfg) a, settleLeft := insD b cfg, xfLeft := 0, xfAt := 0, target := none, zeroAt := a,
             stopAt := none, tunes := [s.insTuning p k a false], outs := [], chunk := [], chunkMarks := 0,
             filt := Filt.init (insKinds b cfg r) r (ceilTo z.step (2 * a - z.delay * z.half)) (wget cfg 17 16) }

/-- Apply a change of a running inset (R147-R149, R154): one in a crossfade takes it as its pending target, since the INS page has no
CROSSFADE sub-reason (log entry 80). -/
def State.insetChange (s : State) (p k a : Nat) (old new : List Word) : State :=
  if (s.inset p k).xfLeft ≠ 0 then
    (s.setInsWords p k old).modInset p k fun i => { i with target := if old = new then none else some new }
  else if !s.isActive (keyINS p) then s.setInsWords p k new
  else
    let s := s.setInsWords p k new
    let r := word (insResp (nth 0 new 0))
    let a' := ceilTo (insP (s.bonded (s.insChain p)) (nth 0 new 0)) a
    let fork (s : State) (xfade : Bool) : State := s.modInset p k fun i =>
      { i with filt := { i.filt with fork := if i.filt.resp = r then i.filt.fork else some (a, r, xfade), gainAt := a',
                                     gainOld := wget (nth 0 old 0) 17 16 } }
    match insKind old new with
    | 3 => s.insetStart p k a
    | 2 => fork (s.modInset p k fun i => { i with tunes := addTune i.tunes (s.insTuning p k a true) }) false
    | 1 => fork (s.modInset p k fun i => { i with xfLeft := 256, xfAt := a' }) true
    | _ => fork s false

/-- Apply INS words at A: each inset by its own change (R154). -/
def State.insApply (s : State) (p : Nat) (a : PendApply) : State :=
  let k := keyINS p
  let was := insEnabled (s.areg k 0x100) (s.areg k 0x104)
  let now := insEnabled (a.word k 0x100) (a.word k 0x104)
  let olds := (List.range 64).map fun n => (n, s.insWords p n)
  let s := s.applyWords k a.words
  let s := olds.foldl (fun s x =>
    let new := s.insWords p x.1
    if !now.contains x.1 then
      (if was.contains x.1 then s.modInset p x.1 fun i => { i with stopAt := some a.due, target := none } else s)
    else if !was.contains x.1 then s.insetStart p x.1 a.due
    else s.insetChange p x.1 a.due x.2 new) s
  (s.insShow p).setSix3 k 0x118 a.due

/-- INS_APPLY at A; with nothing staged nothing applies (R154, R619). -/
def State.insTake (s : State) (p : Nat) (a : PendApply) : State :=
  let key := keyINS p
  if a.empty then s.passCommit key a
  else (((((s.advanceTo a.due).clearPend key).insApply p a).irqBit key 16).endCommit key a.due)

/-- INS_APPLY: staged inset changes apply at A (R154). -/
def execInsApply (pipe : Fin 6) (s : State) : Res :=
  let key := keyINS pipe
  match s.pendOf key with
  | none => .next s
  | some a => .next (s.insTake pipe a)

/-- The 256th sample of a chain's crossfade: the pending target, if one differs, applies there (R149, R150). DDC_APPLY_SIX and APPLIED
belong to commits that waited for an index, and stay (log entry 81). -/
def State.chainXfDone (s : State) (p : Nat) : State :=
  let k := keyDDC p
  if !s.crossfading p || decide ((s.chain p).xfLeft ≠ 0) then s
  else
    let s := s.irqBit k 17
    match (s.chain p).target with
    | none => s.setCfg k 0
    | some ws =>
      let s := s.modChain p fun c => { c with target := none }
      let r := s.ddcApply p (s.chain p).nextLabel ws
      r.1.setCfg k r.2

/-- The 256th sample of an inset's crossfade (R149, R154). -/
def State.insetXfDone (s : State) (p n : Nat) : State :=
  let i := s.inset p n
  if i.xfLeft ≠ 0 ∨ i.xfAt = 0 then s
  else
    let s := (s.modInset p n fun i => { i with xfAt := 0, target := none }).irqBit (keyINS p) 17
    match i.target with
    | none => s
    | some ws => (s.insetChange p n i.nextLabel (s.insWords p n) ws).insShow p

/-- XFADE_DONE: the 256th crossfade sample of the chain, or of one inset, ends its crossfade (R149, R150, R154). -/
def execXfadeDone (pipe : Fin 6) (inset : Option (Fin 64)) (s : State) : Res :=
  match inset with
  | none => .next (s.chainXfDone pipe)
  | some n => .next (s.insetXfDone pipe n)

/-! ### Start and synchronising reset (R145, R150). -/

/-- The DC estimates of a chain are 0 unless FREEZE (R137, R145). -/
def State.dropEst (s : State) (p : Nat) : State :=
  if s.rb (keyDDC (s.governor p)) Reg.DDC_DC_CFG.FREEZE then s
  else (s.modChain p fun c => { c with est0 := { num := 0, exp := 0 }, est1 := { num := 0, exp := 0 } }).setReg (keyDDC p) 0x118 0

/-- The chain starts with zero state at the next label, its NCO loaded (R140, R145); the engine owes CLEAN (R168). -/
def State.chainStart (s : State) (p : Nat) : State :=
  let a := max s.six (s.inputEnd p)
  let s := ((s.dropEst p).chainZero p a).loadNco p a
  if s.isActive (keyFFT p) then s.modEngine p fun e => { e with wantClean := true } else s

/-- Inputs of the time away were discarded: the stages go on with zero state, and labels from the present index (R49). -/
def State.chainSkip (s : State) (p : Nat) : State :=
  let a := max s.six (s.inputEnd p)
  (s.chainBlank p a).modChain p fun c => { c with nextLabel := max c.nextLabel (s.labelAt p a), raw := [] }

/-- The insets of a block that starts begin with zero state. -/
def State.insStart (s : State) (p : Nat) : State :=
  ((insEnabled (s.areg (keyINS p) 0x100) (s.areg (keyINS p) 0x104)).foldl
    (fun s k => s.insetStart p k (max s.six (s.inputEnd (s.insChain p)))) s).insShow p

/-- A synchronising reset of a chain at an index: a crossfade's latest target applies directly; stages are zeroed, the
NCO is loaded, DDC_SAT clears, and the estimates are 0 unless FREEZE (R137, R140, R144, R145, R150). -/
def State.chainReset (s : State) (p six : Nat) : State :=
  let k := keyDDC p
  let s := match (s.chain p).target with
    | some ws => if s.crossfading p then s.applyWords k ws else s
    | none => s
  let s := if s.crossfading p then s.setCfg k 0 else s
  let s := ((s.ddcRefresh p).setReg k 0x120 0).dropEst p
  let s := ((s.chainZero p six).loadNco p six).modChain p fun c => { c with inEnd := max c.inEnd six }
  let s := (insEnabled (s.areg (keyINS p) 0x100) (s.areg (keyINS p) 0x104)).foldl (fun s n =>
    let s := match (s.inset p n).target with | some ws => s.setInsWords p n ws | none => s
    s.insetStart p n six) s
  s.insShow p

end Sys2Proof.Machine
end

