-- ==== Sys2Proof/Machine/Checks.lean ====
section
/-! DEFINITION. Range checks of register values (R6, R43), and the writes that Phoin makes to configuration registers. -/

namespace Sys2Proof.Machine

/-! ### Values in range (R6, R43). -/

/-- A field of a word is in range. -/
def FieldDesc.inRange (f : FieldDesc) (w : Word) : Bool := decide (f.min ≤ wget w f.hi f.lo) && decide (wget w f.hi f.lo ≤ f.max)

/-- A field that host software may write. -/
def FieldDesc.writable (f : FieldDesc) : Bool :=
  match f.acc with
  | .rw | .rwl | .wo => true
  | _ => false

/-- Every writable field of a word written to an offset is in range by its table. -/
def fieldsOk (b : BlockType) (off : Nat) (w : Word) : Bool :=
  match findReg (regTable b) off with
  | some (r, _) => r.fields.all fun f => !f.writable || f.inRange w
  | none => true

/-- EXP of an inset's configuration is in range for its FAMILY (R151). -/
def insExpOk (w : Word) : Bool :=
  if wbit w 8 then decide (wget w 4 0 ≤ 11) else decide (5 ≤ wget w 4 0) && decide (wget w 4 0 ≤ 16)

/-- DIR EITHER only with TYPE EDGE (R205). -/
def ttrDirOk (w : Word) : Bool := decide (wget w 9 8 ≠ 2) || decide (wget w 2 0 = 2)

/-- A configuration word is in range on a block's page (R6, R151, R186, R205, R244). -/
def wordOk (b : BlockType) (off : Nat) (w : Word) : Bool :=
  fieldsOk b off w &&
    match b with
    | .ins => if 0x400 ≤ off ∧ off % 16 = 0 then insExpOk w else true
    | .ttr => if 0x200 ≤ off ∧ off % 16 = 0 then ttrDirOk w else true
    | .cap => if off = 0x118 then decide (w.toNat % 1024 = 0) else true
    | .grt => if off = 0x118 then f32Ok w else true
    | _ => true

/-! ### Configuration by Phoin. -/

/-- Bits of a register that a placement sets: page, offset, mask and value. -/
structure Patch where
  key : Nat
  off : Nat
  mask : Nat
  value : Nat
  deriving DecidableEq, Repr

/-- The whole register. -/
def Patch.all (key off value : Nat) : Patch := { key := key, off := off, mask := 0xFFFFFFFF, value := value }

/-- A word with a patch's bits. -/
def Patch.on (x : Patch) (w : Word) : Word := (w &&& ~~~(word x.mask)) ||| (word x.value &&& word x.mask)

/-- Patched as staged and applied value. -/
def State.patch (s : State) (x : Patch) : State :=
  (s.setReg x.key x.off (x.on (s.reg x.key x.off))).setAreg x.key x.off (x.on (s.areg x.key x.off))

/-- Patched as staged value only. -/
def State.stagePatch (s : State) (x : Patch) : State := s.setReg x.key x.off (x.on (s.reg x.key x.off))

/-- Applied words of a page with the patches for it. -/
def State.patchedWords (s : State) (key : Nat) (xs : List Patch) : List (Nat × Word) :=
  (xs.filter fun x => decide (x.key = key)).foldl (fun ws x => mput ws x.off (x.on (mget (regReset key) ws x.off))) (s.page key).applied

end Sys2Proof.Machine
end

