-- ==== Sys2Proof/Machine/Footprint.lean ====
section
/-! DEFINITION. What a task consumes (R299-R301, R553), the capacities it is admitted against (R297, R298), and the maps of blocks out
of service (R292). -/

namespace Sys2Proof.Machine

/-! ### Tasks among a set of resident tasks. -/

/-- A resident task of a set. -/
def findTask (all : List Task) (id : Nat) : Option Task := if id = 0 then none else all.find? fun t => decide (t.id = id)

/-- Words that the items of a kind and index of a task's extension give, by offset from the first register of element 0 (R276). -/
def extWords (ext : List ExtItem) (kind index : Nat) : List (Nat × Word) :=
  (ext.filter fun x => decide (x.kind = kind ∧ x.index = index)).flatMap fun x =>
    (List.range (x.data.length / 4)).map fun i => (x.sub + 4 * i, word (u32At x.data (4 * i)))

/-- Task-relative numbers that a task's extension uses of a kind, ascending. -/
def extIndices (ext : List ExtItem) (kind : Nat) : List Nat :=
  (List.range 128).filter fun i => ext.any fun x => decide (x.kind = kind ∧ x.index = i) && (decide (kind ≠ 4) || decide (0x200 ≤ x.sub))

/-- Insets that a task's extension configures, and their rate in kS/s (R299). -/
def Task.insets (t : Task) : List Nat := extIndices t.ext 1
def Task.insetCfg (t : Task) (k : Nat) : Word := mget (regReset (keyINS 0)) (extWords t.ext 1 k) 0x400
def insetKs (t : Task) : Nat := ceilDiv ((t.insets.map fun k => insRate (t.insetCfg k)).sum) 10

/-! ### Rates (R299, R300). -/

/-- Chain rate of a task in samples per second (R133). -/
def chainRate (d : List Byte) : Nat := (if channelBonded (dCHANNEL d) then 40960000000 else 20480000000) / 2 ^ dDECIM d

/-- N, H, K, spectra of a record, and bytes of a bin of the FFT image (R171, R279). -/
def dN (d : List Byte) : Nat := 2 ^ (u32At d 0x74 % 32)
def dH (d : List Byte) : Nat := u32At d 0x78 % 2 ^ 17
def dOUT (d : List Byte) : Nat := u32At d 0x84
def dBinBytes (d : List Byte) : Nat := if bitsOf (u32At d 0x74) 13 12 = 0 then 2 else 4

/-- Class 2: chain rate × N / H in kS/s (R299). -/
def fftKs (d : List Byte) : Nat := ceilDiv (chainRate d * dN d) (max 1 (dH d) * 1000)

/-- The rate of SPECTRUM records in kB/s (R173, R174, R300). -/
def spectrumKb (d : List Byte) : Nat :=
  if nbit (dOUT d) 31 then
    let rs := max 1 (bitsOf (dOUT d) 24 16)
    let k := max 1 (dOUT d % 65536)
    let stride := 8 + ceilTo 8 (u32At d 0x80 % 2 ^ 17 * dBinBytes d)
    ceilDiv ((96 + rs * stride) * chainRate d) (max 1 (dH d) * k * rs * 1000)
  else 0

/-- Bytes of a GRATICULE record and of a TRACE record (R189, R240). -/
def grtRecord (d : List Byte) : Nat :=
  let planes := bitsOf (u32At d 0x8C) 6 4
  112 + 2097152 * (boolNat (nbit planes 0) + boolNat (nbit planes 1)) + 524288 * boolNat (nbit planes 2)
def traceRecord (d : List Byte) : Nat := 96 + ceilTo 8 (2 * (u32At d 0xB4 % 2 ^ 20))

/-- The rates of GRATICULE and TRACE records in kB/s (R300). -/
def grtKb (d : List Byte) : Nat :=
  if nbit (dUSES d) 0 ∧ nbit (u32At d 0x8C) 31 then ceilDiv (grtRecord d * 1000) (max 1 (u32At d 0xA0 % 2 ^ 20)) else 0
def traceKb (d : List Byte) : Nat :=
  if nbit (dUSES d) 1 ∧ nbit (u32At d 0xAC) 2 then ceilDiv (traceRecord d * 1000) (max 1 (u32At d 0xB8 % 2 ^ 20)) else 0

/-- Bytes of a sample of an IQ_RECORD or INSET_RECORD task, and of `c` samples as a payload (R234, R259). -/
def dIq12 (d : List Byte) : Bool := if dTYPE d = 2 then decide (bitsOf (u32At d 0x70) 17 16 = 2) else decide (byteAt d 0x78 = 2)
def sampleData (iq12 : Bool) (c : Nat) : Nat := if iq12 then 6 * ((c + 1) / 2) else 4 * c

/-- The rate of chunk records of `c` samples at a sample rate, in kB/s (R244, R281, R300). -/
def chunkKb (iq12 : Bool) (c rate : Nat) : Nat := ceilDiv ((96 + sampleData iq12 c) * rate) (max 1 c * 1000)

/-- Chunks are enabled in CAP_CFG. -/
def dCHUNK_EN (d : List Byte) : Bool := nbit (u32At d 0x70) 12

/-- The computed stream rate of a task in kB/s (R300). -/
def computedKb (t : Task) (inputs outWords : Nat) : Nat :=
  let d := t.desc
  if dTYPE d = 1 then spectrumKb d + grtKb d + traceKb d
  else if dTYPE d = 2 then (if dCHUNK_EN d then chunkKb (dIq12 d) (u32At d 0x7C) (chainRate d) else 0)
  else if dTYPE d = 3 then
    (((bitsSet (u64At d 0x70) 64).map fun k => chunkKb (dIq12 d) (u32At d 0x7C) (100 * insRate (t.insetCfg k)))).sum
  else if dTYPE d = 4 then ceilDiv ((80 + inputs * (24 + 4 * outWords)) * 1000) (max 1 (u32At d 0x84))
  else 0

/-- The rate charged for a task's stream in kB/s; 0 without one (R299, R300). -/
def streamKb (all : List Task) (t : Task) : Nat :=
  let d := t.desc
  if dDEST d = 0 then 0
  else if dSTREAM_MBPS d ≠ 0 then dSTREAM_MBPS d * 1000
  else
    let n := match findTask all (dSOURCE d) with
      | some x => if dTYPE x.desc = 2 then 1 else (bitsSet (u64At d 0x88) 64).length
      | none => 1
    computedKb t n (u16At t.image 14)

/-- Bytes of the largest record that a task's stream can carry (R244, R258-R260, R456, R461). -/
def largestRecord (all : List Task) (t : Task) : Nat :=
  let d := t.desc
  let inputs := match findTask all (dSOURCE d) with
    | some x => if dTYPE x.desc = 2 then 1 else (bitsSet (u64At d 0x88) 64).length
    | none => 1
  let kinds :=
    if dTYPE d = 1 then
      [if nbit (dOUT d) 31 then 96 + max 1 (bitsOf (dOUT d) 24 16) * (8 + ceilTo 8 (u32At d 0x80 % 2 ^ 17 * dBinBytes d)) else 0,
       if nbit (dUSES d) 0 then grtRecord d else 0, if nbit (dUSES d) 1 then traceRecord d else 0]
    else if dTYPE d = 2 then
      [if dCHUNK_EN d then 96 + sampleData (dIq12 d) (u32At d 0x7C) else 0,
       if bitsOf (u32At d 0x70) 11 8 ≠ 0 then 96 + sampleData (dIq12 d) (u32At d 0x74 + u32At d 0x78) else 0]
    else if dTYPE d = 3 then [96 + sampleData (dIq12 d) (u32At d 0x7C)]
    else if dTYPE d = 4 then [80 + inputs * (24 + 4 * u16At t.image 14)]
    else []
  kinds.foldl max 96 + if dENCRYPT d then 16 else 0

/-! ### Memory (R301). -/

/-- The least power of two at or above n, as an exponent. -/
def log2Up (n : Nat) : Nat → Nat → Nat
  | 0, e => e
  | fuel + 1, e => if n ≤ 2 ^ e then e else log2Up n fuel (e + 1)

/-- The IQ ring length L (R301). -/
def ringLen (d : List Byte) : Nat :=
  let n := max (ceilDiv (dHISTORY_MS d * chainRate d) 1000) (max (u32At d 0x74 + u32At d 0x78 + 65536) 65536)
  2 ^ log2Up n 80 16

/-- A record plane of a SPECTRUM_MONITOR in bytes (R279). -/
def planeKib (d : List Byte) (i : Nat) : Nat := (if u32At d (0xBC + 4 * i) = 0 then 65536 else u32At d (0xBC + 4 * i)) * 1024

/-- Pieces of user memory that a task needs: kind of `Piece` and bytes (R237, R246, R299). -/
def memoryNeed (d : List Byte) : List (Nat × Nat) :=
  let staging := if dDEST d = 0 then [] else [(8, 32 * 2 ^ 20)]
  if dTYPE d = 1 then [(5, planeKib d 0), (6, planeKib d 1), (7, planeKib d 2)] ++ staging
  else if dTYPE d = 2 then
    let l := ringLen d
    [(0, if dIq12 d then 3 * l else 4 * l), (1, l / 64)] ++ (if nbit (u32At d 0x80) 0 then [(2, l / 16)] else []) ++
      (if nbit (u32At d 0x80) 1 then [(3, l / 256)] else []) ++ [(4, 131072)] ++ staging
  else staging

/-- Writes of a task into its memory in kB/s (R299). -/
def writesKb (d : List Byte) : Nat :=
  if dTYPE d = 1 then spectrumKb d + grtKb d + traceKb d
  else if dTYPE d = 2 then
    let per := (if dIq12 d then 768 else 1024) + 4 + (if nbit (u32At d 0x80) 0 then 16 else 0) + (if nbit (u32At d 0x80) 1 then 1 else 0)
    ceilDiv (chainRate d * per) 256000
  else 0

/-- HBM bandwidth of a task on its own stack in kB/s: its writes, the reads of its stream, and where it has none the reads of its record
planes (R299). -/
def hbmKb (all : List Task) (t : Task) : Nat :=
  writesKb t.desc + (if dDEST t.desc ≠ 0 then streamKb all t else if dTYPE t.desc = 1 then writesKb t.desc else 0)

/-- Reads of a MEASURE task's inputs from its source's stack in kB/s (R299, R536). -/
def inputKb (all : List Task) (d : List Byte) : Nat :=
  match findTask all (dSOURCE d) with
  | none => 0
  | some x =>
    if dTYPE x.desc = 2 then ceilDiv (chainRate x.desc * (if dIq12 x.desc then 3 else 4)) 1000
    else ceilDiv (((bitsSet (u64At d 0x88) 64).map fun k => 4 * insRate (x.insetCfg k)).sum) 10

/-- Reads of a DISPLAY_FEED from a record plane in kB/s (R553): INDEX plane or TRACE record at the refresh in mHz. -/
def feedKb (d : List Byte) (bytes : Nat) : Nat := ceilDiv (bytes * u32At d 0x80) 1000000

/-- Reads of a DISPLAY_FEED from host memory in kB/s (R546, R553). -/
def annotKb (d : List Byte) : Nat := feedKb d (4 * u16At d 0x7C * u16At d 0x7E + 16448)

/-! ### Blocks out of service (R292). -/

/-- A page is in FAULT, kept out by R587, or in a domain that has tripped (R562). -/
def State.pageFaulted (s : State) (key : Nat) : Bool :=
  decide ((s.page key).st = .fault) || s.phn.sticky.contains key ||
    (match domainOf key with | some d => nbit (s.rf keyPWR Reg.PWR_TRIPPED.MAP) d | none => false)

/-- Region `r` is isolated. -/
def State.isolated (s : State) (r : Nat) : Bool := nbit (s.rf keyFLT Reg.FLT_STAT.ISOLATED) r

/-- The eight pages of a pipeline. -/
def pipePages (p : Nat) : List Nat := (List.range 8).map (keyPipe p)

/-- A link is out: an end in FAULT or fenced, or one of its regions isolated. -/
def State.linkOut (s : State) (l : Nat) : Bool :=
  ((List.range 14).map endKey).any fun k =>
    decide (linkOf k = l) && (decide (s.linkState k = linkFAULT) || (s.link k).fenced || s.pageFaulted k || s.isolated (keyRegion k))

/-- A converter is out: a page in FAULT, its region isolated, or the region its link ends in isolated. -/
def State.convOut (s : State) (c : Nat) : Bool :=
  s.pageFaulted (keyADC c) || s.pageFaulted (keyTRM c) || s.pageFaulted (keyAFE c) || s.isolated (3 + c) ||
    (if c < 4 then s.isolated (1 + c / 2) else s.isolated 0)

/-- The bits of FAULT_MAP. -/
def State.faultBit (s : State) (b : Nat) : Bool :=
  if b < 6 then (pipePages b).any s.pageFaulted || s.isolated (1 + b / 3)
  else if b < 11 then s.convOut (b - 6)
  else if b < 15 then s.pageFaulted (keyMEM (b - 11)) || s.isolated (1 + (b - 11) / 2)
  else if b < 22 then s.linkOut (b - 15)
  else if b < 26 then s.pageFaulted (keyETH (b - 22))
  else if b = 26 then s.pageFaulted keyHIF
  else if b < 29 then s.isolated (b - 26)
  else false

/-- The bits of RESERVED_MAP: a pipeline with a page, or with its region's TRG page, reserved (R47, R227). -/
def State.reservedBit (s : State) (b : Nat) : Bool :=
  if b < 6 then (pipePages b).any s.isReserved || s.isReserved (keyTRG (b / 3))
  else if b < 11 then s.isReserved (keyADC (b - 6)) || s.isReserved (keyAFE (b - 6))
  else false

/-- A map as a number. -/
def mapOf (f : Nat → Bool) : Nat := ((List.range 29).map fun b => if f b then 2 ^ b else 0).sum

def State.faultMap (s : State) : Nat := mapOf s.faultBit
def State.reservedMap (s : State) : Nat := mapOf s.reservedBit

/-- A bit of either map. -/
def State.outOfService (s : State) (b : Nat) : Bool := s.faultBit b || s.reservedBit b

/-! ### Capacities (R297, R298). -/

/-- Capacity of an Ethernet port in kB/s: by the speed of the link, or while it is down by ETH_CFG.SPEED (R489). -/
def State.ethCapacity (s : State) (p : Nat) : Nat :=
  let sp := if s.rb (keyETH p) Reg.ETH_STAT.LINK_UP then s.rf (keyETH p) Reg.ETH_STAT.SPEED else s.rf (keyETH p) Reg.ETH_CFG.SPEED
  if sp = 0 then 48000000 else if sp = 1 then 24000000 else 12000000

/-- The cap of an instance of classes 2 to 7 (R297). -/
def State.capOf (s : State) (cls inst : Nat) : Nat :=
  if cls = 2 then (if s.outOfService inst then 0 else 81920000)
  else if cls = 3 then (if s.outOfService (11 + inst) then 0 else s.stackBytes inst)
  else if cls = 4 then (if s.outOfService (11 + inst) then 0 else 655360000)
  else if cls = 5 then (if s.outOfService (15 + inst) then 0 else 408000000)
  else if cls = 6 then (if s.outOfService 26 then 0 else 115000000)
  else if cls = 7 then (if s.outOfService (22 + inst) then 0 else s.ethCapacity inst)
  else 1

/-- Amounts granted on an instance. -/
def loadOf (gs : List Grant) (cls inst dir : Nat) : Nat :=
  ((gs.filter fun g => decide (g.cls = cls ∧ g.inst = inst ∧ g.dir = dir)).map (·.amount)).sum

/-- The standing reservation of the spare path on variant -S (R23). -/
def State.spareGrants (s : State) : List Grant :=
  if s.guest then []
  else [{ cls := 5, inst := 5, dir := 1, amount := 61440000, tied := false }, { cls := 5, inst := 6, dir := 1, amount := 61440000, tied := false }]

end Sys2Proof.Machine
end

