-- ==== Sys2Proof/Machine/Traverse.lean ====
section
/-! DEFINITION. Traverse engines (R422-R439, R450): descriptors and their checks, ACTIVE and SHADOW, chains, packets, bursts
and completion. -/

namespace Sys2Proof.Machine

/-! ### Channels. -/

/-- The TRV page of a channel (R422). -/
def chanKey (c : Nat) : Nat :=
  if c < 256 then keyOf 0 (0x040 + c / 16) else if c < 384 then keyOf 1 (0x060 + (c - 256) / 16) else keyOf 2 (0x060 + (c - 384) / 16)

/-- The region of a channel. -/
def chanRegion (c : Nat) : Nat := if c < 256 then 0 else if c < 384 then 1 else 2

/-- A channel at reset. -/
def DmaChan.init : DmaChan :=
  { act := none, elem := 0, byte := 0, crc := 0, poisoned := false, sh := none, fetch := none, finishing := [], tail := none }

/-- Channel `c`. -/
def State.chan (s : State) (c : Nat) : DmaChan := mget (fun _ => DmaChan.init) s.channels c

/-- Change a channel. -/
def State.modChan (s : State) (c : Nat) (f : DmaChan → DmaChan) : State := { s with channels := mput s.channels c (f (s.chan c)) }

def chIDLE : Nat := 0
def chRUNNING : Nat := 1
def chTAIL_WAIT : Nat := 2
def chSUSPENDED : Nat := 3
def chFAILED : Nat := 4

/-- TRVc_STAT.CH_STATE. -/
def State.chanState (s : State) (c : Nat) : Nat := s.rf (chanKey c) (Reg.TRV_STAT.CH_STATE (c % 16))

/-- Enter a channel state; TRV_BUSY follows (R450). -/
def State.chanEnter (s : State) (c n : Nat) : State :=
  let k := chanKey c
  let s := s.wf k (Reg.TRV_STAT.CH_STATE (c % 16)) n
  s.setReg k Reg.TRV_BUSY.off (word (putBit (s.reg k Reg.TRV_BUSY.off).toNat (c % 16) (decide (n ≠ chIDLE))))

/-- CODE and SUB of TRVc_STAT. -/
def State.chanCode (s : State) (c code sub : Nat) : State :=
  (s.wf (chanKey c) (Reg.TRV_STAT.CODE (c % 16)) code).wf (chanKey c) (Reg.TRV_STAT.SUB (c % 16)) sub

/-- DB_PEND. -/
def State.dbPend (s : State) (c : Nat) : Bool := s.rb (chanKey c) (Reg.TRV_STAT.DB_PEND (c % 16))
def State.setDbPend (s : State) (c : Nat) (b : Bool) : State := s.wb (chanKey c) (Reg.TRV_STAT.DB_PEND (c % 16)) b

/-! ### Descriptors (R427, R430, R431). -/

def tSRC (d : List Byte) : Nat := u64At d 0x00
def tDST (d : List Byte) : Nat := u64At d 0x08
def tELEM (d : List Byte) : Nat := u32At d 0x10
def tCNT (d : List Byte) (i : Nat) : Nat := u32At d (0x14 + 4 * i)
def tSSTEP (d : List Byte) (i : Nat) : Int := signedOf 32 (u32At d (0x20 + 4 * i))
def tDSTEP (d : List Byte) (i : Nat) : Int := signedOf 32 (u32At d (0x30 + 4 * i))
def tSEED (d : List Byte) : Nat := u32At d 0x40
def tCTRL (d : List Byte) : Nat := u32At d 0x70
def tEND (d : List Byte) : Bool := nbit (tCTRL d) 0
def tIRQ (d : List Byte) : Bool := nbit (tCTRL d) 1
def tWB (d : List Byte) : Bool := nbit (tCTRL d) 2
def tCHK (d : List Byte) : Bool := nbit (tCTRL d) 3
def tSSPACE (d : List Byte) : Nat := bitsOf (tCTRL d) 5 4
def tDSPACE (d : List Byte) : Nat := bitsOf (tCTRL d) 7 6
def tLSPACE (d : List Byte) : Bool := nbit (tCTRL d) 8
def tLINK (d : List Byte) : Nat := u64At d 0x78

/-- Lowest and highest byte of a side over its corner elements, rounded outward to lines (R427). -/
def tExtent (d : List Byte) (base : Nat) (step : Nat → Int) : Int × Int :=
  let span (i : Nat) : Int := ((tCNT d i : Int) - 1) * step i
  let lo := (List.range 3).foldl (fun a i => a + min 0 (span i)) (base : Int)
  let hi := (List.range 3).foldl (fun a i => a + max 0 (span i)) ((base : Int) + tELEM d - 1)
  (lo / 64 * 64, hi / 64 * 64 + 63)

/-- The request lines of a region (R437). -/
def lineOf (region line : Nat) : Bool :=
  if region = 0 then decide (line < 0x14) || (decide (0x20 ≤ line) && decide (line < 0x28)) else decide (line < 4)

/-- The PORT line of a descriptor. -/
def tPort (d : List Byte) : Option Nat :=
  if tSSPACE d = 2 then some (tSRC d % 256) else if tDSPACE d = 2 then some (tDST d % 256) else none

/-- The first check of R427 that a descriptor fails, as its sub-reason; 0 when it passes. -/
def State.tCheck (s : State) (c : Nat) (d : List Byte) : Nat :=
  let ss := tSSPACE d
  let ds := tDSPACE d
  let se := tExtent d (tSRC d) (tSSTEP d)
  let de := tExtent d (tDST d) (tDSTEP d)
  let inside (sp : Nat) (e : Int × Int) := decide (sp = 2) || (decide (0 ≤ e.1) && decide (e.2 < 2 ^ 48))
  let badPort (sp base : Nat) (step : Nat → Int) :=
    decide (sp = 2) && (decide (step 0 ≠ 0 ∨ step 1 ≠ 0 ∨ step 2 ≠ 0) || !lineOf (chanRegion c) (base % 256))
  let busy : Bool := match tPort d with
    | some line => (List.range 512).any fun o =>
        decide (o ≠ c ∧ chanRegion o = chanRegion c ∧ s.chanState o ≠ chIDLE) &&
          (((s.chan o).act.toList ++ (s.chan o).sh.toList ++ (s.chan o).finishing.map (·.desc)).any fun a => decide (tPort a.bytes = some line))
    | none => false
  let link := tLINK d % 2 ^ 48
  if tELEM d = 0 ∨ 4096 < tELEM d then 1
  else if tCNT d 0 = 0 ∨ tCNT d 1 = 0 ∨ tCNT d 2 = 0 then 2
  else if !inside ss se || !inside ds de then 3
  else if ss = ds ∧ ss < 2 ∧ se.1 ≤ de.2 ∧ de.1 ≤ se.2 then 4
  else if ss = 3 ∨ ds = 3 ∨ (ss = 2 ∧ ds = 2) ∨ badPort ss (tSRC d) (tSSTEP d) ∨ badPort ds (tDST d) (tDSTEP d) then 5
  else if busy then 6
  else if (tEND d ∧ link ≠ 0) ∨ (!tEND d ∧ (link = 0 ∨ link % 128 ≠ 0)) then 7
  else 0

/-! ### SHADOW and ACTIVE (R424, R425, R433). -/

/-- Offset of a word of TRVc_SH. -/
def shOff (c w : Nat) : Nat := 0x400 + 0xC0 * (c % 16) + 4 * w

/-- The 128 bytes of the SHADOW window. -/
def State.shBytes (s : State) (c : Nat) : List Byte :=
  (List.range 32).flatMap fun w => leBytes (s.reg (chanKey c) (shOff c w)).toNat 4

/-- A fetched descriptor fills the window, except its write-back words (R424, R433). -/
def State.fillShadow (s : State) (c : Nat) (d : List Byte) : State :=
  s.each ((List.range 32).filter fun w => decide (w < 24 ∨ 28 ≤ w)) fun s w => s.setReg (chanKey c) (shOff c w) (word (u32At d (4 * w)))

/-- SH_VALID follows SHADOW. -/
def State.setShadow (s : State) (c : Nat) (d : Option ChanDesc) : State :=
  (s.modChan c fun x => { x with sh := d }).wb (chanKey c) (Reg.TRV_STAT.SH_VALID (c % 16)) d.isSome

/-- TRVc_ACT holds the address of the ACTIVE or tail descriptor. -/
def State.setAct (s : State) (c : Nat) (d : Option ChanDesc) : State :=
  let a := match d with | some { addr := some (host, a), .. } => a / 128 * 128 + boolNat host | _ => 0
  s.setPair (chanKey c) (Reg.TRV_ACT_LO.ADDR (c % 16)).off a

/-- A valid SHADOW becomes ACTIVE when ACTIVE is empty, and with END = 0 the next descriptor is fetched (R424, R433). -/
def State.promote (s : State) (c : Nat) : State :=
  match (s.chan c).act, (s.chan c).sh with
  | none, some d =>
    let s := s.modChan c fun x =>
      { x with act := some d, elem := 0, byte := 0, crc := tSEED d.bytes, poisoned := false, tail := none,
               fetch := if tEND d.bytes then none else some (.desc (tLSPACE d.bytes) (tLINK d.bytes % 2 ^ 48)) }
    (((s.setShadow c none).setAct c (some d)).setReg (chanKey c) (Reg.TRV_POS (c % 16)).off 0).chanEnter c chRUNNING
  | _, _ => s

/-- Discard everything a channel holds, and return it to IDLE (R438, R439). -/
def State.chanCancel (s : State) (c : Nat) : State :=
  ((((s.modChan c fun _ => DmaChan.init).setShadow c none).setAct c none).setDbPend c false).chanEnter c chIDLE

/-- Cancel every channel of a TRV page (R450). -/
def State.cancelGroup (s : State) (key : Nat) : State :=
  s.each ((List.range 512).filter fun c => decide (chanKey c = key) && decide (s.chanState c ≠ chIDLE)) State.chanCancel

/-- A channel enters FAILED (R438, R450). -/
def State.chanFail (s : State) (c code sub : Nat) : State :=
  ((s.chanCode c code sub).chanEnter c chFAILED).irqBit (chanKey c) (16 + c % 16)

/-! ### Commands of TRVc_CTL (R425, R438, R450). -/

/-- Reject a channel command: TRVc_STAT takes code and sub-reason, and the command is logged (R55, R450). -/
def State.chanReject (s : State) (c opcode code sub : Nat) : State :=
  let k := chanKey c
  let s := (s.chanCode c code sub).logPage k 0 code sub 5 opcode
  if code = codeRANGE then s.setErr k errRANGE else s

/-- A write to TRVc_CTL. -/
def State.chanCommand (s : State) (who : Issuer) (c op : Nat) (k : State → State) : Res :=
  .next (s.write who (chanKey c) (0x480 + 0xC0 * (c % 16)) op k)

/-- SHADOW is valid or being filled by a chain fetch (R425). -/
def State.shBusy (s : State) (c : Nat) : Bool :=
  (s.chan c).sh.isSome || match (s.chan c).fetch with | some (.desc _ _) => true | _ => false

/-- TRV_COMMIT: SHADOW is checked and becomes valid, or ACTIVE at once (R424, R425, R427, R438). -/
def execTrvCommit (who : Issuer) (chan : Fin 512) (s : State) : Res :=
  s.chanCommand who chan 1 fun s =>
    let c : Nat := chan
    let st := s.chanState c
    if s.shBusy c then s.chanReject c 1 codeBUSY 0
    else if st = chTAIL_WAIT ∨ st = chFAILED then s.chanReject c 1 codeSTATE 0
    else
      let d := s.shBytes c
      let e := s.tCheck c d
      if e ≠ 0 then s.chanReject c 1 codeRANGE e
      else
        let s := (s.chanCode c codeOK 0).setShadow c (some { bytes := d, addr := none })
        if st = chSUSPENDED then s else s.promote c

/-- TRV_START_CHAIN: the descriptor at TRVc_CHAIN is fetched (R433, R438). -/
def execTrvStartChain (who : Issuer) (chan : Fin 512) (s : State) : Res :=
  s.chanCommand who chan 2 fun s =>
    let c : Nat := chan
    if s.chanState c ≠ chIDLE then s.chanReject c 2 codeSTATE 0
    else
      let k := chanKey c
      let a := s.pair k (Reg.TRV_CHAIN_LO.ADDR (c % 16)).off
      ((s.chanCode c codeOK 0).modChan c fun x => { x with fetch := some (.desc (nbit a 0) (a % 2 ^ 48 / 128 * 128)) }).chanEnter c chRUNNING

/-- TRV_SUSPEND (R438, R439). -/
def execTrvSuspend (who : Issuer) (chan : Fin 512) (s : State) : Res :=
  s.chanCommand who chan 3 fun s =>
    if s.chanState chan = chRUNNING then (s.chanCode chan codeOK 0).chanEnter chan chSUSPENDED else s.chanReject chan 3 codeSTATE 0

/-- TRV_RESUME (R438). -/
def execTrvResume (who : Issuer) (chan : Fin 512) (s : State) : Res :=
  s.chanCommand who chan 4 fun s =>
    if s.chanState chan = chSUSPENDED then ((s.chanCode chan codeOK 0).chanEnter chan chRUNNING).promote chan
    else s.chanReject chan 4 codeSTATE 0

/-- TRV_CANCEL (R438, R439). -/
def execTrvCancel (who : Issuer) (chan : Fin 512) (s : State) : Res :=
  s.chanCommand who chan 5 fun s =>
    if s.chanState chan = chIDLE then s.chanReject chan 5 codeSTATE 0 else (s.chanCancel chan).chanCode chan codeOK 0

/-- TRV_SH_WRITE: a word of SHADOW. Writes are discarded while SHADOW is busy, and the write-back words are read-only
(R425, R433). A reserved space in CTRL keeps its field and sets PG_ERR.RANGE, and reserved words and bits stay 0 (R6, R431). -/
def execTrvShWrite (who : Issuer) (chan : Fin 512) (index : Fin 32) (value : BitVec 32) (s : State) : Res :=
  .next (s.write who (chanKey chan) (shOff chan index) value.toNat fun s =>
    if s.shBusy chan then s.setErr (chanKey chan) 16
    else if 24 ≤ index.val ∧ index.val < 28 then s
    else if index.val = 28 then
      let old := (s.reg (chanKey chan) (shOff chan 28)).toNat
      let v := value.toNat
      let bad : Bool := decide (bitsOf v 5 4 = 3) || decide (bitsOf v 7 6 = 3)
      let w := setBits (setBits (v % 512) 5 4 (if bitsOf v 5 4 = 3 then bitsOf old 5 4 else bitsOf v 5 4)) 7 6
        (if bitsOf v 7 6 = 3 then bitsOf old 7 6 else bitsOf v 7 6)
      let s := s.setReg (chanKey chan) (shOff chan 28) (word w)
      if bad then s.setErr (chanKey chan) errRANGE else s
    else if index.val ∈ [11, 15, 17, 18, 19, 20, 21, 22, 23, 29] then s
    else s.setReg (chanKey chan) (shOff chan index) value)

/-! ### Doorbells and fetches (R433-R436). -/

/-- A doorbell reaches a channel (R434). -/
def State.chanDoorbell (s : State) (c : Nat) : State :=
  let st := s.chanState c
  if st = chIDLE then (s.count (chanKey c) Reg.TRV_DB_IGNORED).setErr (chanKey c) 18
  else if st = chTAIL_WAIT ∧ (s.chan c).fetch.isNone then (s.modChan c fun x => { x with fetch := some .quarter }).setDbPend c false
  else s.setDbPend c true

/-- TRV_DOORBELL: a write of any value to a channel's address in BAR4, honoured while its page is owned by HOST (R435, R440). -/
def execTrvDoorbell (chan : Fin 512) (value : BitVec 64) (s : State) : Res :=
  let key := chanKey chan
  if (s.page key).owner = .host ∧ !s.pageOff key then .next (s.chanDoorbell chan)
  else .next (s.logDiscard key (0x40000 + 8 * chan.val) value.toNat codeOWNER)

/-- Enter TAIL_WAIT; a pending doorbell re-reads the quarter (R434). -/
def State.tailWait (s : State) (c : Nat) (d : ChanDesc) : State :=
  let s := ((s.modChan c fun x => { x with tail := some d }).setAct c (some d)).chanEnter c chTAIL_WAIT
  if s.dbPend c then (s.modChan c fun x => { x with fetch := some .quarter }).setDbPend c false else s

/-- DESC_FETCH_DONE: the read a channel has sent completes. `bytes` is what host memory holds there, and `ok` is false when it
completes other than OK (R433, R434, R438). -/
def execDescFetchDone (chan : Fin 512) (ok : Bool) (bytes : List Byte) (s : State) : Res :=
  let c : Nat := chan
  match (s.chan c).fetch with
  | none => .next s
  | some (.desc host addr) =>
    let way := if host then .clear else s.memPath (chanRegion c) addr
    if way = .waits then .next s
    else
    let s := s.modChan c fun x => { x with fetch := none }
    if !ok ∨ way = .fenced then .next (s.chanFail c codeFAULT 0x09)
    else
      let r := if host then (s, (bytes ++ List.replicate 128 0).take 128) else
        let f := s.fetchMem addr 128
        (f.1, f.2.map (·.1))
      let e := r.1.tCheck c r.2
      if e ≠ 0 then .next (r.1.chanFail c codeRANGE e)
      else
        let s := (r.1.fillShadow c r.2).setShadow c (some { bytes := r.2, addr := some (host, addr) })
        .next (if s.chanState c = chSUSPENDED then s else s.promote c)
  | some .quarter =>
    match (s.chan c).tail with
    | some { bytes := d, addr := some (host, addr) } =>
      let way := if host then .clear else s.memPath (chanRegion c) addr
      if way = .waits then .next s
      else
      let s := s.modChan c fun x => { x with fetch := none }
      if !ok ∨ way = .fenced then .next (s.chanFail c codeFAULT 0x09)
      else
        let r := if host then (s, (bytes ++ List.replicate 16 0).take 16) else
          let f := s.fetchMem (addr + 0x70) 16
          (f.1, f.2.map (·.1))
        let d := d.take 0x70 ++ r.2
        let s := r.1
        if !tEND d then
          .next ((s.modChan c fun x => { x with fetch := some (.desc (tLSPACE d) (tLINK d % 2 ^ 48)) }).chanEnter c chRUNNING)
        else if s.dbPend c then .next ((s.modChan c fun x => { x with fetch := some .quarter }).setDbPend c false)
        else .next s
    | _ => .next (s.modChan c fun x => { x with fetch := none })

/-! ### Moving bytes (R426, R428, R432, R437). -/

/-- Source and destination of the next byte of ACTIVE (R426). -/
def nextAddrs (d : List Byte) (elem byte : Nat) : Int × Int :=
  let i0 := elem % tCNT d 0
  let i1 := elem / tCNT d 0 % tCNT d 1
  let i2 := elem / tCNT d 0 / tCNT d 1
  let at_ (base : Nat) (step : Nat → Int) : Int := base + i0 * step 0 + i1 * step 1 + i2 * step 2 + byte
  (at_ (tSRC d) (tSSTEP d), at_ (tDST d) (tDSTEP d))

/-- Elements of a traverse. -/
def tElems (d : List Byte) : Nat := tCNT d 0 * tCNT d 1 * tCNT d 2

/-- Bytes of the next packet: to the end of the element, within 8 lines and one 4 KiB block on the sides that are memory
(R428; log entry 44). -/
def packetBytes (d : List Byte) (elem byte : Nat) : Nat :=
  let (a, b) := nextAddrs d elem byte
  let room (space : Nat) (x : Int) : Nat := if space = 2 then tELEM d else min (512 - (x % 64).toNat) (4096 - (x % 4096).toNat)
  min (tELEM d - byte) (min (room (tSSPACE d) a) (room (tDSPACE d) b))

/-- ACTIVE's last packet has been issued: it finishes, and a valid SHADOW follows at once (R424, R432). -/
def State.issuedAll (s : State) (c : Nat) : State :=
  let x := s.chan c
  match x.act with
  | some d =>
    if tElems d.bytes ≤ x.elem then
      (s.modChan c fun x => { x with act := none, finishing := x.finishing ++ [{ desc := d, crc := x.crc, poisoned := x.poisoned }] }).promote c
    else s
  | none => s

/-- Account for bytes moved: the check value over destination bytes, the poison mark, and TRVc_POS (R432). -/
def State.moved (s : State) (c : Nat) (d : List Byte) (bs : List Byte) (poisoned : Bool) : State :=
  let s := s.modChan c fun x =>
    let full := decide (tELEM d ≤ x.byte + bs.length)
    { x with crc := if tCHK d then crcRun polyC x.crc bs else x.crc, poisoned := x.poisoned || poisoned,
             elem := if full then x.elem + 1 else x.elem, byte := if full then 0 else x.byte + bs.length }
  let s := s.setReg (chanKey c) (Reg.TRV_POS (c % 16)).off (word (min 0xFFFFFFFF (s.chan c).elem))
  let s := if poisoned then s.setErr (chanKey c) 17 else s
  s.issuedAll c

/-- Read `n` source bytes with their poison marks; `data` is what host memory or a port gives. -/
def State.sourceBytes (s : State) (d : List Byte) (addr : Int) (n : Nat) (data : List Byte) : State × List (Byte × Bool) :=
  if tSSPACE d = 0 then s.fetchMem addr.toNat n else (s, ((data ++ List.replicate n 0).take n).map fun b => (b, false))

/-- Bytes reach the block behind a request line (R437, R499, R509). -/
def State.toPort (s : State) (region line : Nat) (bs : List Byte) : State :=
  if region = 0 ∧ line < 8 then s.modCmp line fun e => { e with portIn := e.portIn ++ bs }
  else if region ≠ 0 ∨ (0x10 ≤ line ∧ line < 0x14) then
    let key := if region = 0 then keyOf 0 (0x018 + (line - 0x10)) else keyOf region (0x0A0 + line)
    if (s.page key).st = .active ∧ (s.crcUnit key).feedPort then s.crcFeed key bs else s.setErr key 17
  else s.emit (.ethPort (line - 0x20) bs)

/-- Bytes come from the block behind a request line: an engine's output buffer, or what an Ethernet port has received. -/
def State.fromPort (s : State) (line n : Nat) (data : List Byte) : State × List Byte :=
  if 8 ≤ line ∧ line < 16 then
    let out := (s.cmp (line - 8)).portOut
    (s.modCmp (line - 8) fun e => { e with portOut := e.portOut.drop n }, (out ++ List.replicate n 0).take n)
  else (s, (data ++ List.replicate n 0).take n)

/-- Write bytes at the destination: MEM with poison marks, HOST and PORT with zeros in place of poisoned bytes (R428, R432). -/
def State.destBytes (s : State) (c : Nat) (d : List Byte) (addr : Int) (bs : List (Byte × Bool)) : State :=
  let clean := bs.map fun b => if b.2 then 0 else b.1
  if tDSPACE d = 0 then s.sendMem (chanRegion c) addr.toNat bs
  else if tDSPACE d = 1 then s.emit (.hostWrite addr.toNat (clean.map some))
  else s.toPort (chanRegion c) (tDST d % 256) clean

/-- The check value's bytes: what the destination received. -/
def destView (d : List Byte) (bs : List (Byte × Bool)) : List Byte :=
  bs.map fun b => if tDSPACE d ≠ 0 ∧ b.2 then 0 else b.1

/-- The write-back of a descriptor: to its own address, or to the write-back words of the channel (R430, R433). -/
def State.writeBack (s : State) (c : Nat) (d : ChanDesc) (status chk : Nat) : State :=
  let bs := leBytes status 4 ++ leBytes chk 4 ++ leBytes (s.six % 2 ^ 64) 8
  if !tWB d.bytes then s
  else
    match d.addr with
    | none => s.each (List.range 4) fun s w => s.setReg (chanKey c) (shOff c (24 + w)) (word (u32At bs (4 * w)))
    | some (true, a) => s.emit (.hostWrite (a + 0x60) (bs.map some))
    | some (false, a) => s.sendMem (chanRegion c) (a + 0x60) (bs.map fun b => (b, false))

/-- A data completion other than OK: the channel is FAILED, and the write-back carries the code (R438). -/
def State.dataFails (s : State) (c : Nat) : State :=
  match (s.chan c).act with
  | some d => (s.writeBack c d (codeFAULT + 0x08 * 256 + 2 ^ 31) 0).chanFail c codeFAULT 0x08
  | none => s

/-- Move the next packet of a channel (R426, R428). -/
def State.movePacket (s : State) (c : Nat) (d : List Byte) (n : Nat) (data : List Byte) : State :=
  let x := s.chan c
  let (a, b) := nextAddrs d x.elem x.byte
  let (s, bs) := s.sourceBytes d a n data
  (s.destBytes c d b bs).moved c d (destView d bs) (bs.any (·.2))

/-- The ways of a channel's next packet to its source and to its destination (R9). -/
def State.sourcePath (s : State) (c : Nat) (d : List Byte) : MemPath :=
  if tSSPACE d = 0 then s.memPath (chanRegion c) (nextAddrs d (s.chan c).elem (s.chan c).byte).1.toNat else .clear
def State.destPath (s : State) (c : Nat) (d : List Byte) : MemPath :=
  if tDSPACE d = 0 then s.memPath (chanRegion c) (nextAddrs d (s.chan c).elem (s.chan c).byte).2.toNat else .clear

/-- The channel moves bytes: its page is ACTIVE, it is RUNNING, and no link on its ways is down (R618). -/
def State.chanMoves (s : State) (c : Nat) (d : List Byte) : Bool :=
  s.isActive (chanKey c) && decide (s.chanState c = chRUNNING) && decide (s.sourcePath c d ≠ .waits) && decide (s.destPath c d ≠ .waits)

/-- The channel has a packet to issue: a traverse between memories. -/
def State.chanReady (s : State) (c : Nat) : Bool :=
  (s.chan c).act.any fun d => (tPort d.bytes).isNone && s.chanMoves c d.bytes

/-- The next channel of a group in round-robin order (R423). -/
def State.nextChan (s : State) (group : Nat) : Option Nat :=
  let last := mget (fun _ => 15) s.groupLast group
  ((List.range 16).map fun i => 16 * group + (last + 1 + i) % 16).find? s.chanReady

/-- TRV_PACKET: the next channel of a group issues one packet. `data` is what host memory holds at a HOST source, and `ok` is
false when a data completion is other than OK or times out (R423, R426, R428, R438). -/
def execTrvPacket (group : Fin 32) (data : List Byte) (ok : Bool) (s : State) : Res :=
  match s.nextChan group with
  | none => .next s
  | some c =>
    let s := { s with groupLast := mput s.groupLast group (c % 16) }
    match (s.chan c).act with
    | none => .next s
    | some d =>
      if !ok ∨ s.sourcePath c d.bytes = .fenced then .next (s.dataFails c)
      else .next (s.movePacket c d.bytes (packetBytes d.bytes (s.chan c).elem (s.chan c).byte) data)

/-- BURST of a request line (R437, R499, R509); that of an Ethernet line is a free value (log entry 43). -/
def burstBytes (region line : Nat) : Nat :=
  if region = 0 ∧ line < 16 then 4096 else if region = 0 ∧ 0x20 ≤ line then 64 * (1 + Config.ethBurst line % 64) else 256

/-- Bursts move in traversal byte order, element by element. -/
def State.burstGo (s : State) (c left : Nat) (data : List Byte) : Nat → State
  | 0 => s
  | fuel + 1 =>
    match (s.chan c).act with
    | none => s
    | some d =>
      if left = 0 ∨ !s.chanMoves c d.bytes then s
      else if s.sourcePath c d.bytes = .fenced then s.dataFails c
      else
        let n := min left (packetBytes d.bytes (s.chan c).elem (s.chan c).byte)
        let z := if tSSPACE d.bytes = 2 then s.fromPort (tSRC d.bytes % 256) n data else (s, data)
        let s' := z.1.movePacket c d.bytes n z.2
        if (s'.chan c).act ≠ some d then s' else State.burstGo s' c (left - n) (data.drop n) fuel

/-- PORT_REQUEST: a block of a region asserts a request line, and one burst of the traverse bound to it runs. `data` is what a
HOST source or a receiving port gives (R437). -/
def execPortRequest (region : Fin 3) (line : Fin 256) (data : List Byte) (s : State) : Res :=
  let bound := (List.range 512).find? fun c =>
    decide (chanRegion c = region.val ∧ s.chanState c = chRUNNING) && s.isActive (chanKey c) && (s.chan c).act.any fun d => decide (tPort d.bytes = some line.val)
  match bound with
  | none => .next s
  | some c => .next (s.burstGo c (burstBytes region line) data (burstBytes region line + 1))

/-- TRV_COMPLETE: the FLUSH of the oldest finishing traverse of a channel has completed: write-back, interrupt, count, and the
state that follows (R432, R433, R438). A FLUSH that meets a fence completes FENCED, a data completion other than OK (R415). -/
def execTrvComplete (chan : Fin 512) (s : State) : Res :=
  let c : Nat := chan
  let k := chanKey c
  match (s.chan c).finishing with
  | [] => .next s
  | f :: rest =>
    let d := f.desc.bytes
    let way := if tDSPACE d = 0 then s.memPath (chanRegion c) (tDST d % 2 ^ 48) else .clear
    if way = .waits then .next s
    else
    let s := s.modChan c fun x => { x with finishing := rest }
    if way = .fenced then .next ((s.writeBack c f.desc (codeFAULT + 0x08 * 256 + 2 ^ 31) 0).chanFail c codeFAULT 0x08)
    else
    let chk := if tCHK d then Nat.xor f.crc 0xFFFFFFFF else 0
    let s := s.writeBack c f.desc (boolNat f.poisoned * 2 ^ 16 + 2 ^ 31) chk
    let s := if tCHK d then s.setReg k (Reg.TRV_CHK (c % 16)).off (word chk) else s
    let s := s.wrapBy k (Reg.TRV_DONE (c % 16)) 1
    let s := s.chanCode c codeOK 0
    let s := if tIRQ d then s.irqBit k (16 + c % 16) else s
    let x := s.chan c
    if x.act.isNone && x.sh.isNone && x.finishing.isEmpty && tEND d && decide (s.chanState c = chRUNNING ∨ s.chanState c = chSUSPENDED) then
      .next (if f.desc.addr.isSome then s.tailWait c f.desc else (s.setAct c none).chanEnter c chIDLE)
    else .next s

end Sys2Proof.Machine
end

