-- ==== Sys2Proof/Machine/Placement.lean ====
section
/-! DEFINITION. Placement (R302-R306), eviction (R308), targets of migrations (R311) and the grants that result. -/

namespace Sys2Proof.Machine

/-! ### What a placement is made against. -/

/-- The tasks resident beside the one that is placed, charges that no task's grants carry, and pipelines held by surveys and
migrations. -/
structure Env where
  s : State
  all : List Task
  extra : List Grant
  noPipes : List Nat

/-- Pipelines of the migration in progress and of the survey in progress. -/
def State.busyPipes (s : State) : List Nat :=
  (match s.phn.mig with | some m => m.source ++ m.target | none => []) ++
    (match s.svy.run with | some r => if r.pipe < 6 then [r.pipe] else [] | none => [])

/-- The spare reservation, and the side of a migration that its tasks' grants do not carry (R311). -/
def State.extraGrants (s : State) : List Grant :=
  s.spareGrants ++
    match s.phn.mig with
    | some m =>
      if m.phase = .handedOver then m.old
      else if m.phase = .retryWait then [] else (m.goal.flatMap (·.grants)).filter (·.tied)
    | none => []

/-- The resident tasks but the one with an ID. -/
def State.envOf (s : State) (all : List Task) (id : Nat) : Env :=
  { s := s, all := all.filter fun t => decide (t.id ≠ id), extra := s.extraGrants, noPipes := s.busyPipes }

/-- Every grant charged. -/
def Env.held (e : Env) : List Grant := e.all.flatMap (·.grants) ++ e.extra

/-- Excess of the first instance of a class above its cap once grants are added. -/
def Env.exceeds (e : Env) (gs : List Grant) (cls : Nat) : Option Nat :=
  (gs.filter fun g => decide (g.cls = cls)).findSome? fun g =>
    let n := loadOf e.held g.cls g.inst g.dir + loadOf gs g.cls g.inst g.dir
    let cap := e.s.capOf g.cls g.inst
    if cap < n ∧ 0 < g.amount then some (n - cap) else none

/-- The outcome of a placement: the task with its grants, or the first class over its cap with the excess (R306). -/
inductive Verdict where
  | fits (t : Task)
  | exceeds (cls excess : Nat)
  deriving DecidableEq, Repr

/-! ### Placement order (R302). -/

/-- Priority first, then arrival. -/
def earlier (a b : Task) : Bool :=
  decide (dPRIORITY a.desc < dPRIORITY b.desc) || (decide (dPRIORITY a.desc = dPRIORITY b.desc) && decide (a.arrival ≤ b.arrival))

def insertTask (t : Task) : List Task → List Task
  | [] => [t]
  | x :: xs => if earlier t x then t :: x :: xs else x :: insertTask t xs

def placementOrder (ts : List Task) : List Task := ts.foldr insertTask []

/-! ### Candidates (R303). -/

/-- A task that needs a pipeline. -/
def needsPipe (d : List Byte) : Bool := decide (1 ≤ dTYPE d ∧ dTYPE d ≤ 3)

/-- Locality order of a channel. -/
def locality (ch : Nat) : List Nat :=
  if ch = 0 then [0, 2, 1, 5, 3, 4] else if ch = 1 then [1, 2, 0, 5, 3, 4] else if ch = 2 then [3, 5, 4, 2, 0, 1]
  else if ch = 3 then [4, 5, 3, 2, 0, 1] else if ch = 0x40 then [2, 5, 0, 1, 3, 4] else []

/-- Pipelines of a channel in the order tried, whatever pins the task. -/
def channelCands (ch : Nat) : List (List Nat) :=
  if channelBonded ch then
    let b := if ch = 4 then 0 else 3
    [[b, b + 1], [b, b + 2], [b + 1, b + 2]]
  else (locality ch).map fun p => [p]

/-- Candidates of a task: a PINNED task tries only PIN_PIPE (R303); an IQ_RECORD with a trigger task only that task's pipelines
(R280, R304). -/
def Env.cands (e : Env) (t : Task) : List (List Nat) :=
  let all := channelCands (dCHANNEL t.desc)
  let all := if t.pinned ∧ dPIN_PIPE t.desc ≠ 0xFF then all.filter fun ps => decide (ps.headD 9 = dPIN_PIPE t.desc) else all
  match findTask e.all (dTRIGGER t.desc) with
  | some m => if m.pipes.isEmpty then [] else [m.pipes]
  | none => all

/-! ### Classes 0 to 2 (R304). -/

/-- Equal input and chain settings (R275). -/
def sameChain (a b : List Byte) : Bool :=
  decide (dCHANNEL a = dCHANNEL b) && decide (dDECIM a = dDECIM b ∧ dGAIN a = dGAIN b ∧ dRESP a = dRESP b) &&
    decide (dFTW a % 2 ^ 48 = dFTW b % 2 ^ 48) && (decide (dCHANNEL a ≠ 0x40) || decide (dINPUT_TASK a = dINPUT_TASK b))

/-- Tasks of a set on any of some pipelines. -/
def tasksOn (all : List Task) (ps : List Nat) : List Task := all.filter fun t => t.pipes.any ps.contains

/-- The task may share pipelines with those on them, on the same ones (R304). -/
def mayJoin (t : Task) (ps : List Nat) (on : List Task) : Bool :=
  on.all fun x => decide (x.pipes = ps) && sameChain t.desc x.desc && needsPipe x.desc &&
    (decide (dTYPE x.desc ≠ dTYPE t.desc) || decide (dTYPE t.desc = 3))

/-- The home region of a channel: 0 A0, 1 A1 (R18). -/
def homeRegion (d : List Byte) : Option Nat := (channelInput (dCHANNEL d)).map (· / 2)

/-- The kinds of extension items that are numbered task-relative: resource code, item kind and how many a pipeline has (R277, R293). -/
def mapKinds (bonded : Bool) : List (Nat × Nat × Nat) :=
  [(0x100, 2, 8), (0x101, 3, 4), (0x102, 4, 4), (0x103, 5, 8), (0x104, 1, if bonded then 128 else 64)]

/-- Map numbers to the lowest free ones in ascending order. -/
def allotNumbers (res : Nat) (rels frees : List Nat) : Option (List Mapping) :=
  if frees.length < rels.length then none
  else some ((List.range rels.length).map fun i => { res := res, rel := rels.getD i 0, phys := frees.getD i 0 })

/-- The mappings of a task on a pipeline beside the tasks there (R305). -/
def allotMaps (t : Task) (on : List Task) : List (Nat × Nat × Nat) → Option (List Mapping)
  | [] => some []
  | (res, kind, n) :: rest =>
    let used := (on.flatMap (·.maps)).filterMap fun m => if m.res = res then some m.phys else none
    match allotNumbers res (extIndices t.ext kind) ((List.range n).filter fun i => !used.contains i), allotMaps t on rest with
    | some a, some b => some (a ++ b)
    | _, _ => none

/-- A task configures the trigger matrix of its region. -/
def usesTrg (t : Task) : Bool := t.ext.any fun x => decide (x.kind = 4)

/-- The writes of a task reach memory in the other region over both links (R311). -/
def awayGrants (t : Task) (ps : List Nat) : List Grant :=
  let r := ps.headD 0 / 3
  if t.hasMem ∧ !t.pieces.isEmpty ∧ t.stack / 2 ≠ r ∧ writesKb t.desc ≠ 0 then
    [{ cls := 5, inst := 5 + r, dir := 0, amount := writesKb t.desc, tied := true },
     { cls := 5, inst := 5 + t.stack / 2, dir := 1, amount := writesKb t.desc, tied := true }]
  else []

/-- A channel processed off its home region crosses both links (R23, R299). -/
def offHomeGrants (d : List Byte) (ps : List Nat) : List Grant :=
  match homeRegion d with
  | some h =>
    let r := ps.headD 0 / 3
    if h = r then []
    else [{ cls := 5, inst := 5 + h, dir := 0, amount := 61440000, tied := true }, { cls := 5, inst := 5 + r, dir := 1, amount := 61440000, tied := true }]
  | none => []

/-- Put a task on pipelines: its mappings and the grants that go with them; `none` where classes 0 to 2 fail (R304), or a
converter of the channel is not LOCKED (R111). -/
def Env.pick (e : Env) (t : Task) (ps : List Nat) : Option Task :=
  let on := tasksOn e.all ps
  let bonded := channelBonded (dCHANNEL t.desc)
  let home := match homeRegion t.desc with | some h => e.s.isolated (1 + h) | none => false
  if home || (channelInputs (dCHANNEL t.desc)).any (fun n => !e.s.convLocked (e.s.carrier n)) || ps.any (fun p => e.s.outOfService p || e.noPipes.contains p) || (usesTrg t && e.s.pageFaulted (keyTRG (ps.headD 0 / 3))) then none
  else if !mayJoin t ps on then none
  else
    match allotMaps t on (mapKinds bonded) with
    | none => none
    | some maps =>
      let p := ps.headD 0
      let g (cls inst dir amount : Nat) : Grant := { cls := cls, inst := inst, dir := dir, amount := amount, tied := true }
      let ins := if t.insets.isEmpty then [] else [g 1 p 0 t.insets.length, g 1 p 1 (insetKs t)]
      let fft := if dTYPE t.desc = 1 then ps.map fun q => g 2 q 0 (ceilDiv (fftKs t.desc) ps.length) else []
      let gs := (if on.isEmpty then ps.map (fun q => g 0 q 0 1) else []) ++ ins ++ fft ++
        (if on.isEmpty then offHomeGrants t.desc ps else []) ++ awayGrants t ps
      if (if bonded then 128 else 64) < loadOf (e.held ++ gs) 1 p 0 ∨ (if bonded then 16000000 else 8000000) < loadOf (e.held ++ gs) 1 p 1 then none
      else if (e.exceeds gs 2).isSome then none
      else some { t with pipes := ps, maps := maps, grants := (t.grants.filter fun x => !x.tied) ++ gs }

/-! ### Memory (R301, R305). -/

/-- Merge ranges that adjoin. -/
def mergeRanges : List (Nat × Nat) → List (Nat × Nat)
  | [] => []
  | (a, n) :: rest =>
    match mergeRanges rest with
    | (b, m) :: tail => if a + n = b then (a, n + m) :: tail else (a, n) :: (b, m) :: tail
    | [] => [(a, n)]

/-- Mapped ranges of a stack (R347, R348). -/
def State.memRanges (s : State) (m : Nat) : List (Nat × Nat) :=
  mergeRanges (((List.range 4).map fun l => (userAddr m (layerBase l), s.layerSlots m l * rankBytes)).filter fun r => decide (r.2 ≠ 0))

/-- Two ranges overlap. -/
def rangesOverlap (a b : Nat × Nat) : Bool := decide (a.1 < b.1 + b.2) && decide (b.1 < a.1 + a.2)

/-- The lowest free 4 KiB-aligned place of `n` bytes. -/
def firstFit (ranges used : List (Nat × Nat)) (n : Nat) : Option Nat :=
  let at0 := ranges.map (·.1) ++ used.map fun u => ceilTo 4096 (u.1 + u.2)
  let ok := at0.filter fun a => ranges.any (fun r => decide (r.1 ≤ a) && decide (a + n ≤ r.1 + r.2)) && !used.any (rangesOverlap (a, n))
  ok.foldl (fun m a => match m with | some b => some (min a b) | none => some a) none

/-- Place pieces one after the other; the bytes of the first that finds no place. -/
def allotPieces (ranges : List (Nat × Nat)) : List (Nat × Nat) → List (Nat × Nat) → Except Nat (List Piece)
  | _, [] => .ok []
  | used, (k, n) :: rest =>
    match firstFit ranges used n with
    | none => .error n
    | some a =>
      match allotPieces ranges ((a, n) :: used) rest with
      | .ok l => .ok ({ kind := k, base := a, bytes := n } :: l)
      | .error x => .error x

/-- The memory a task needs, as it stands in its pieces. -/
def samePieces (t : Task) : Bool := t.hasMem && decide (t.pieces.map (fun p => (p.kind, p.bytes)) = memoryNeed t.desc)

/-- Put a task's memory and its bandwidth on a stack (R305): memory it holds stays. -/
def Env.onStack (e : Env) (t : Task) (m : Nat) : Except (Nat × Nat) Task :=
  let need := memoryNeed t.desc
  let bytes := (need.map (·.2)).sum
  let gs : List Grant := [{ cls := 3, inst := m, dir := 0, amount := bytes, tied := false },
    { cls := 4, inst := m, dir := 0, amount := hbmKb e.all t, tied := false }].filter fun g => decide (g.amount ≠ 0)
  match e.exceeds gs 3 with
  | some x => .error (3, x)
  | none =>
    let used := ((e.all.filter (·.hasMem)).flatMap (·.pieces)).map fun p => (p.base, p.bytes)
    match (if samePieces t ∧ t.stack = m then .ok t.pieces else allotPieces (e.s.memRanges m) used need) with
    | .error n => .error (3, n)
    | .ok pieces =>
      match e.exceeds gs 4 with
      | some x => .error (4, x)
      | none => .ok { t with stack := m, hasMem := true, pieces := pieces, grants := t.grants ++ gs }

/-- The lowest stack of a region that fits; the stack of memory that stays (R305, R309). -/
def Env.hbms (e : Env) (t : Task) (region : Nat) : Except (Nat × Nat) Task :=
  if samePieces t ∧ !t.pieces.isEmpty then e.onStack t t.stack
  else
    match e.onStack t (2 * region) with
    | .ok x => .ok x
    | .error a => match e.onStack t (2 * region + 1) with | .ok x => .ok x | .error _ => .error a

/-! ### Classes 4 to 10 (R299, R305, R553). -/

/-- Cores, rings and channels granted to others. -/
def Env.taken (e : Env) (cls i : Nat) : Bool :=
  e.held.any fun g => decide (g.cls = cls) && decide (g.inst ≤ i) && decide (i < g.inst + (if cls = 8 then g.amount else 1))

/-- A measurement core is free. -/
def Env.coreFree (e : Env) (n : Nat) : Bool :=
  !e.taken 8 n && !e.s.isReserved (keyMC n) && !e.s.pageFaulted (keyMC n) && !e.s.isolated (1 + n / 32)

/-- The lowest run of `c` free cores of a region (R305). -/
def Env.coreRun (e : Env) (region c : Nat) : Option Nat :=
  ((List.range (33 - min c 33)).map (32 * region + ·)).find? fun a => (List.range c).all fun i => e.coreFree (a + i)

/-- The region of a MEASURE task's source. -/
def sourceRegion (all : List Task) (d : List Byte) : Nat := match findTask all (dSOURCE d) with | some x => x.pipes.headD 0 / 3 | none => 0

/-- The first core granted to a MEASURE task: cores it has, else the source's region, else the other (R305). -/
def Env.measureCore (e : Env) (t : Task) (keep : List Grant) : Option Nat :=
  let c := u16At t.desc 0x7C
  match keep.find? fun g => decide (g.cls = 8 ∧ g.amount = c) with
  | some g => some g.inst
  | none =>
    let r := sourceRegion e.all t.desc
    match e.coreRun r c with | some a => some a | none => e.coreRun (1 - r) c

/-- Fill Ethernet ports in ascending order (R305): the grants, and the rate that found no place. -/
def Env.fillPorts (e : Env) : List Nat → Nat → List Grant × Nat
  | [], r => ([], r)
  | p :: rest, r =>
    let room := e.s.capOf 7 p - loadOf e.held 7 p 0
    let a := min room r
    let x := e.fillPorts rest (r - a)
    if a = 0 then x else ({ cls := 7, inst := p, dir := 0, amount := a, tied := false } :: x.1, x.2)

/-- Ethernet grants of a stream: a stream with no rate takes the first port of its set. -/
def Env.ethGrants (e : Env) (d : List Byte) (r : Nat) : List Grant × Nat :=
  let ports := (bitsSet (dDEST_SET d) 4)
  if r = 0 then (((ports.filter fun p => decide (e.s.capOf 7 p ≠ 0)).take 1).map fun p => { cls := 7, inst := p, dir := 0, amount := 0, tied := false },
    if (ports.filter fun p => decide (e.s.capOf 7 p ≠ 0)).isEmpty then 1 else 0)
  else e.fillPorts ports r

/-- The lowest free instances of a list, those a task keeps first. -/
def pickFree (keep : List Nat) (free : List Nat) (n : Nat) : Option (List Nat) :=
  let l := (keep ++ free.filter fun i => !keep.contains i).take n
  if l.length < n then none else some l

/-- Rings for which the task needs one of its own: one per drive of an NVMe set, one per Ethernet port granted (R299). -/
def ownRings (d : List Byte) (ports : Nat) : Nat :=
  if dDEST d = destNVME then (bitsSet (dDEST_SET d) 32).length else if dDEST d = destETH then ports else 0

/-- Rings named by the descriptor (R299). -/
def namedRings (d : List Byte) : List Nat :=
  (if dDEST d = destHOST then [dDEST_ID d] else []) ++ (if dTYPE d = 5 ∧ dSRC_KIND d = 1 then [dSRC_ID d] else [])

/-- A ring that no one uses. -/
def Env.ringFree (e : Env) (n : Nat) : Bool := !e.taken 9 n && decide ((e.s.ring n).st = .closed)

/-- The first `n` numbers of 32 to 32,767 that are free. -/
def Env.freeRings (e : Env) : Nat → Nat → Nat → List Nat
  | 0, _, _ => []
  | fuel + 1, from0, n =>
    if n = 0 ∨ 32767 < from0 then []
    else if e.ringFree from0 then from0 :: e.freeRings fuel (from0 + 1) (n - 1) else e.freeRings fuel (from0 + 1) n

/-- Free DMA channels of a block of channels (R305). -/
def Env.freeChans (e : Env) (first count : Nat) : List Nat :=
  ((List.range count).map (first + ·)).filter fun c =>
    !e.taken 10 c && !e.s.isReserved (chanKey c) && !e.s.pageFaulted (chanKey c) && !e.s.isolated (chanRegion c)

/-- Grants of classes 4 to 7 beside a task's own stack. -/
def Env.rateGrants (e : Env) (t : Task) (ports : List Grant) : List Grant :=
  let d := t.desc
  let r := streamKb e.all t
  let link := 5 + t.stack / 2
  let g (cls inst dir amount : Nat) : Grant := { cls := cls, inst := inst, dir := dir, amount := amount, tied := false }
  let feed (id bytes : Nat) := match findTask e.all id with
    | some x => [g 4 x.stack 0 (feedKb d bytes), g 5 (5 + x.stack / 2) 0 (feedKb d bytes)]
    | none => []
  let trace := match findTask e.all (dTRACE_TASK d) with | some x => traceRecord x.desc | none => 0
  let declared := dSTREAM_MBPS d * 1000
  let gs := (if dTYPE d = 4 then match findTask e.all (dSOURCE d) with | some x => [g 4 x.stack 0 (inputKb e.all d)] | none => [] else []) ++
    (if dTYPE d = 6 then feed (dGRT_TASK d) 524288 ++ feed (dTRACE_TASK d) trace ++ [g 6 0 1 (annotKb d)] else []) ++
    (if dTYPE d = 5 then g 5 link 1 declared :: (if dSRC_KIND d = 2 then [] else [g 6 0 1 declared]) else []) ++
    (if dDEST d ≠ 0 then [g 5 link 0 r] else []) ++
    (if dDEST d = destHOST ∨ dDEST d = destNVME then [g 6 0 0 r] else [])
  (gs.filter fun x => decide (x.amount ≠ 0)) ++ ports

/-- The grants of classes 4 to 10 of a task whose stack is chosen; `keep` are grants it has and may keep. -/
def Env.rest (e : Env) (t : Task) (core : Option Nat) (keep : List Grant) : Verdict :=
  let d := t.desc
  let eth := if dDEST d = destETH then e.ethGrants d (streamKb e.all t) else ([], 0)
  let gs := e.rateGrants t eth.1
  let away := t.grants.filter fun g => g.tied && decide (g.cls = 5)
  match [4, 5, 6].findSome? fun c => (e.exceeds (away ++ gs) c).map fun x => (c, x) with
  | some (c, x) => .exceeds c x
  | none =>
    let g (cls inst amount : Nat) : Grant := { cls := cls, inst := inst, dir := 0, amount := amount, tied := false }
    let kept (cls : Nat) := (keep.filter fun g => decide (g.cls = cls)).map (·.inst)
    let own := ownRings d eth.1.length
    let named := namedRings d
    if eth.2 ≠ 0 then .exceeds 7 eth.2
    else if dTYPE d = 4 ∧ core.isNone then .exceeds 8 (u16At d 0x7C)
    else if named.any (e.taken 9) then .exceeds 9 1
    else
      match pickFree ((kept 9).filter fun i => !named.contains i) (e.freeRings 32736 32 own) own with
      | none => .exceeds 9 own
      | some rings =>
        let n := named.length + own
        let r := match core with | some c => c / 32 | none => 0
        let hub := pickFree ((kept 10).filter fun c => decide (c < 256)) (e.freeChans 0 256) n
        let reg := if dTYPE d = 4 then pickFree ((kept 10).filter fun c => decide (256 + 128 * r ≤ c ∧ c < 384 + 128 * r)) (e.freeChans (256 + 128 * r) 128) 1 else some []
        match hub, reg with
        | some a, some b =>
          let cores := match core with | some c => if dTYPE d = 4 then [g 8 c (u16At d 0x7C)] else [] | none => []
          .fits { t with grants := t.grants ++ gs ++ cores ++ (named ++ rings).map (fun i => g 9 i 1) ++ (a ++ b).map fun i => g 10 i 1 }
        | _, _ => .exceeds 10 1

/-! ### Placement of one task (R304-R306). -/

/-- The grants after the pipelines: stack, then classes 4 to 10. -/
def Env.finish (e : Env) (t : Task) (region : Nat) (core : Option Nat) (keep : List Grant) : Verdict :=
  match e.hbms t region with
  | .error (c, x) => .exceeds c x
  | .ok t => e.rest t core keep

/-- Candidates that pass classes 0 to 2, tried in order; the first one's failure is kept (R304, R306). -/
def Env.tryPicks (e : Env) (keep : List Grant) : List Task → Option (Nat × Nat) → Verdict
  | [], some (c, x) => .exceeds c x
  | [], none => .exceeds 0 1
  | t :: rest, bad =>
    match e.finish t (t.pipes.headD 0 / 3) none keep with
    | .fits t => .fits t
    | .exceeds c x => e.tryPicks keep rest (some (bad.getD (c, x)))

/-- Pipelines missing when no candidate passes classes 0 to 2 (R306). -/
def Env.missing (e : Env) (t : Task) : Nat :=
  ((e.cands t).map fun ps => max 1 (ps.filter fun p => e.s.outOfService p || e.noPipes.contains p || !(tasksOn e.all [p]).isEmpty).length).foldl min
    (if channelBonded (dCHANNEL t.desc) then 2 else 1)

/-- A task before its grants are made: memory that it holds stays (R309). -/
def Task.bare (t : Task) : Task := { t with pipes := [], grants := [], maps := [] }

/-- The region of a task without a pipeline and cores. -/
def Env.region0 (e : Env) : Nat := if e.s.isolated 1 then 1 else 0

/-! ### Targets of migrations (R311). -/

/-- Move tasks that share pipelines onto others, one after the other, keeping what is not tied to pipelines. -/
def Env.moveOnto (e : Env) (ps : List Nat) : List Task → Option (List Task)
  | [] => some []
  | t :: rest =>
    match e.pick t ps with
    | none => none
    | some x =>
      let tied := x.grants.filter (·.tied)
      if (e.exceeds tied 5).isSome then none
      else ({ e with all := e.all ++ [{ x with grants := tied }] } : Env).moveOnto ps rest |>.map fun l => x :: l

/-- The tasks as they would be on the first feasible target that avoids pipelines (R311). -/
def Env.target (e : Env) (group : List Task) (avoid : List Nat) : Option (List Task) :=
  match group with
  | [] => none
  | t :: _ =>
    if group.any (·.pinned) then none
    else ((channelCands (dCHANNEL t.desc)).filter fun ps => !ps.any avoid.contains).findSome? fun ps => e.moveOnto ps group

/-- The tasks of a set on a pipeline, in placement order, with the pipelines of their gang. -/
def groupOn (all : List Task) (p : Nat) : List Task := placementOrder (tasksOn all [p])

/-- Every task on a pipeline can migrate. -/
def Env.canFree (e : Env) (p : Nat) : Bool :=
  let group := groupOn e.all p
  group.all (fun t => decide (t.st = .running) && needsPipe t.desc) && (e.target group ((group.flatMap (·.pipes)) ++ [p])).isSome

/-- Pipelines that a survey of a converter may take, in order (R319, R332). -/
def surveyPipes (c : Nat) : List Nat := if c = 4 then [2, 0, 1, 5, 3, 4] else if c < 2 then [2, 0, 1] else [5, 3, 4]

/-- The pipeline a survey takes: the first free one, else the first whose tasks can all migrate (R319). -/
def Env.surveyPipe (e : Env) (c : Nat) (held : List Nat) : Option Nat :=
  let usable := (surveyPipes c).filter fun p => !e.s.outOfService p && !e.noPipes.contains p && !held.contains p
  match usable.find? fun p => (tasksOn e.all [p]).isEmpty with
  | some p => some p
  | none => usable.find? e.canFree

/-- Pipelines of a CALIBRATION_HOLD, one for each converter; `none` when one finds none (R319, R333). -/
def Env.holdPipes (e : Env) : List Nat → List Nat → Option (List Nat)
  | [], held => some held
  | c :: rest, held =>
    match e.surveyPipe c held with
    | some p => e.holdPipes rest (held ++ [p])
    | none => none

/-- Place one task beside the resident ones (R304-R306); `keep` are grants it may keep. -/
def Env.place (e : Env) (t : Task) (keep : List Grant) : Verdict :=
  let t := t.bare
  let d := t.desc
  if dTYPE d = 7 then
    match e.holdPipes (bitsSet (dCONVERTERS d) 5) [] with
    | some ps => e.rest { t with pipes := ps, grants := ps.map fun p => { cls := 0, inst := p, dir := 0, amount := 1, tied := false } } none keep
    | none => .exceeds 0 1
  else if needsPipe d then
    let picks := (e.cands t).filterMap (e.pick t)
    if picks.isEmpty then .exceeds 0 (e.missing t) else e.tryPicks keep picks none
  else
    let core := if dTYPE d = 4 then e.measureCore t keep else none
    e.finish t (match core with | some c => c / 32 | none => e.region0) core keep

/-! ### Eviction (R308). -/

/-- Resident tasks that a task of a priority may evict, from the end of placement order. -/
def evictable (all : List Task) (priority : Nat) : List Task :=
  (placementOrder (all.filter fun t =>
    dEVICTABLE t.desc && !t.pinned && decide (t.st ≠ .migrating) && decide (priority < dPRIORITY t.desc) &&
      (decide (t.st ≠ .suspended) || t.hasMem))).reverse

/-- A task keeps its grants unchanged beside others. -/
def Env.keeps (e : Env) (t : Task) : Bool :=
  let on := tasksOn e.all t.pipes
  mayJoin t t.pipes on && [2, 3, 4, 5, 6, 7].all (fun c => (e.exceeds t.grants c).isNone) &&
    (t.grants.all fun g => decide (g.cls < 8) || !(List.range (if g.cls = 8 then g.amount else 1)).any fun i => e.taken g.cls (g.inst + i)) &&
    (t.maps.all fun m => !on.any fun x => x.maps.any fun y => decide (y.res = m.res ∧ y.phys = m.phys)) &&
    !((e.all.filter (·.hasMem)).flatMap (·.pieces)).any fun p => t.hasMem && t.pieces.any fun q => rangesOverlap (p.base, p.bytes) (q.base, q.bytes)

/-- Remove candidates from the head of the list until the task fits: the task placed and those removed. -/
def Env.evictUntil (e : Env) (t : Task) : List Task → List Task → Option (Task × List Task)
  | [], _ => none
  | x :: rest, gone =>
    let e : Env := { e with all := e.all.filter fun y => decide (y.id ≠ x.id) }
    match e.place t [] with
    | .fits t => some (t, x :: gone)
    | .exceeds _ _ => e.evictUntil t rest (x :: gone)

/-- Restore removed tasks in placement order where their grants still fit; the rest are evicted. -/
def Env.restore (e : Env) : List Task → List Task
  | [] => []
  | x :: rest => if e.keeps x then ({ e with all := e.all ++ [x] } : Env).restore rest else x :: e.restore rest

/-- Admission: the verdict, and the tasks it evicts (R298, R308). -/
def Env.admits (e : Env) (t : Task) (keep : List Grant) (noEvict : Bool) : Verdict × List Task :=
  match e.place t keep with
  | .fits t => (.fits t, [])
  | .exceeds c x =>
    if noEvict then (.exceeds c x, [])
    else
      match e.evictUntil t (evictable e.all (dPRIORITY t.desc)) [] with
      | none => (.exceeds c x, [])
      | some (t, gone) =>
        let left := e.all.filter fun y => !gone.any fun g => decide (g.id = y.id)
        (.fits t, ({ e with all := left ++ [t] } : Env).restore (placementOrder gone))

/-! ### Conflicts (R21, R275). -/

/-- ATTEN or ZONE differs from a value in force on an input that another task uses, or a bonded channel and one of its inputs by itself
meet (R21, R275). -/
def State.inputConflict (s : State) (all : List Task) (t : Task) : Bool :=
  let d := t.desc
  let inputs := channelInputs (dCHANNEL d)
  let others := all.filter fun x => x.st.holding && decide (x.id ≠ t.id) && (channelInputs (dCHANNEL x.desc)).any inputs.contains
  let force (n : Nat) (f : RegField) : Nat :=
    match s.pendOf (keyAFE n) with | some a => a.field (keyAFE n) f | none => s.af (keyAFE n) f
  let n := inputs.headD 0
  !others.isEmpty &&
    (others.any (fun x => decide (dCHANNEL x.desc ≠ dCHANNEL d)) ||
      (decide (dATTEN d ≠ 0xFF) && decide (dATTEN d ≠ force n Reg.AFE_CFG.ATTEN)) ||
      (decide (dZONE d ≠ 0xFF) && decide (dZONE d ≠ force n Reg.AFE_CFG.ZONE)))

/-- A second DISPLAY_FEED (R542). -/
def displayConflict (all : List Task) (t : Task) : Bool :=
  decide (dTYPE t.desc = 6) && all.any fun x => decide (dTYPE x.desc = 6 ∧ x.id ≠ t.id) && x.st.holding

end Sys2Proof.Machine
end

