-- ==== Sys2Proof/Machine/Hooks.lean ====
section
/-! DEFINITION. Blocks as Phoin runs them: what START and STOP do in each block (R49, R618), the pages a task uses and the words it puts
into them (R277, R279-R281), converters and inputs (R112, R622). -/

namespace Sys2Proof.Machine

/-! ### Start and stop of a block. -/

/-- What a block does as it enters ACTIVE from IDLE. -/
def State.startHook (s : State) (key : Nat) : State :=
  let p := pipeOfKey key
  match blockOf key with
  | .ddc => s.chainStart p
  | .ins => s.insStart p
  | .fft => s.fftStart p
  | .grt => s.grtStart p
  | .cap => s.capStart p
  | .red => s.traceBegin p (s.ab key Reg.RED_CFG.TRACE_EN)
  | .crc => s.crcLoad key
  | _ => s

/-- What a block does as it leaves for IDLE. -/
def State.stopHook (s : State) (key : Nat) : State :=
  let p := pipeOfKey key
  match blockOf key with
  | .fft => s.fftStop p
  | .grt => s.grtStop p
  | .cap => s.capStop p
  | .red => s.traceBegin p false
  | .ctr => s.slotsClear p (s.labelAt p s.six)
  | .ttr => (List.range 4).foldl (fun s n => s.tdDisarm p n (s.labelAt p s.six)) s
  | .trg => (List.range 3).foldl (fun s j =>
      let q := 3 * (keyRegion key - 1) + j
      (List.range 4).foldl (fun s e => s.setEvent q e { st := .idle, from0 := s.labelAt q s.six }) s) s
  | .cmp => s.cmpDrop (instanceOf key)
  | .trv => s.cancelGroup key
  | _ => s

/-- Phoin starts a page (R618). -/
def State.startPage (s : State) (key : Nat) : State :=
  if s.isActive key ∨ s.pageFaulted key ∨ (s.page key).st = .off then s
  else ((s.modPage key fun p => { p with enable := true }).startHook key).enter key .active

/-- Phoin returns a page to IDLE (R618). -/
def State.stopPage (s : State) (key : Nat) : State :=
  let s := if s.isActive key then (s.stopHook key).enter key .idle else s
  s.modPage key fun p => { p with enable := false }

/-! ### Pages of a task. -/

/-- The task has mapped numbers of a resource. -/
def Task.uses (t : Task) (res : Nat) : Bool := t.maps.any fun m => decide (m.res = res)

/-- The physical number of a task-relative one. -/
def mapPhys (maps : List Mapping) (res rel : Nat) : Nat :=
  match maps.find? fun m => decide (m.res = res ∧ m.rel = rel) with | some m => m.phys | none => rel

/-- Pages that a task uses on its pipelines, in the order in which they start (R618). -/
def pagesOf (t : Task) : List Nat :=
  if !needsPipe t.desc ∨ t.pipes.isEmpty then []
  else
    let p := t.pipes.headD 0
    let on (b : Bool) (k : Nat) : List Nat := if b then [k] else []
    t.pipes.map keyDDC ++ on (decide (dTYPE t.desc = 1) || t.uses 0x100) (keyFFT p) ++
      on (decide (dTYPE t.desc = 1) && nbit (dUSES t.desc) 0) (keyGRT p) ++ on (t.uses 0x100) (keyCTR p) ++ on (t.uses 0x101) (keyTTR p) ++
      on (usesTrg t) (keyTRG (p / 3)) ++ (if t.uses 0x104 ∨ dTYPE t.desc = 3 then t.pipes.map keyINS else []) ++
      on (decide (dTYPE t.desc ≤ 2)) (keyRED p) ++ on (decide (dTYPE t.desc = 2)) (keyCAP p)

/-! ### Words of a task (R274, R277, R279, R280). -/

/-- A base address of a piece of memory, as its two registers. -/
def basePatches (key off : Nat) (t : Task) (kind : Nat) : List Patch :=
  match t.pieces.find? fun x => decide (x.kind = kind) with
  | some x => [Patch.all key off (x.base % 2 ^ 32), Patch.all key (off + 4) (x.base / 2 ^ 32)]
  | none => []

/-- The chain settings of a task on one pipeline. -/
def chainPatches (d : List Byte) (p : Nat) : List Patch :=
  let k := keyDDC p
  [{ key := k, off := 0x100, mask := 0x3001F, value := dGAIN d % 4 * 65536 + dDECIM d % 32 }, Patch.all k 0x104 (dRESP d),
    Patch.all k 0x108 (dFTW d % 2 ^ 32), { key := k, off := 0x10C, mask := 0xFFFF, value := dFTW d / 2 ^ 32 % 65536 }]

/-- The register images of a SPECTRUM_MONITOR (R279). -/
def monitorPatches (t : Task) : List Patch :=
  let d := t.desc
  let p := t.pipes.headD 0
  let image (key off n : Nat) : List Patch := (List.range n).map fun i => Patch.all key (0x100 + 4 * i) (u32At d (off + 4 * i))
  image (keyFFT p) 0x74 6 ++ (if nbit (dUSES d) 0 then image (keyGRT p) 0x8C 8 else []) ++
    [{ key := keyRED p, off := 0x100, mask := 0x34, value := if nbit (dUSES d) 1 then u32At d 0xAC else 0 }] ++
    (if nbit (dUSES d) 1 then (List.range 3).map fun i => Patch.all (keyRED p) (0x114 + 4 * i) (u32At d (0xB0 + 4 * i)) else []) ++
    (List.range 3).flatMap fun n =>
      basePatches (keyRED p) (0x200 + 0x20 * n) t (5 + n) ++
        (match t.pieces.find? fun x => decide (x.kind = 5 + n) with
         | some x => [Patch.all (keyRED p) (0x208 + 0x20 * n) (x.bytes / 4096)]
         | none => [])

/-- A set of sources with slots and units as mapped (R210, R277). -/
def mapSources (maps : List Mapping) (m : Nat) : Nat :=
  ((bitsSet m 20).map fun i =>
    2 ^ (if i < 8 then mapPhys maps 0x100 i else if i < 12 then 8 + mapPhys maps 0x101 (i - 8) else i)).sum

/-- SHEET_EV with events as mapped. -/
def mapEvents (maps : List Mapping) (m : Nat) : Nat := ((bitsSet m 4).map fun i => 2 ^ (mapPhys maps 0x102 i % 4)).sum

/-- The capture settings of an IQ_RECORD (R280): SHEET_EV names the events of the trigger task, or its own. -/
def recordPatches (all : List Task) (t : Task) : List Patch :=
  let d := t.desc
  let p := t.pipes.headD 0
  let k := keyCAP p
  let maps := match findTask all (dTRIGGER d) with | some m => m.maps | none => t.maps
  let cfg := setBits (u32At d 0x70) 11 8 (mapEvents maps (bitsOf (u32At d 0x70) 11 8))
  [Patch.all k 0x100 cfg, Patch.all k 0x10C (ringLen d / 1024), Patch.all k 0x110 (u32At d 0x74), Patch.all k 0x114 (u32At d 0x78)] ++
    (if dCHUNK_EN d then [Patch.all k 0x118 (u32At d 0x7C)] else []) ++ basePatches k 0x104 t 0 ++ basePatches k 0x11C t 1 ++
    basePatches k 0x148 t 4 ++ [{ key := keyRED p, off := 0x100, mask := 0x303, value := u32At d 0x80 }] ++
    basePatches (keyRED p) 0x104 t 2 ++ basePatches (keyRED p) 0x10C t 3

/-- A word of TRG 0x100-0x10B with the events that outputs select as mapped (R219, R277). -/
def mapOutputs (t : Task) (off v : Nat) : Nat :=
  let ev (n : Nat) := if n < 4 then 4 * (t.pipes.headD 0 % 3) + mapPhys t.maps 0x102 n else n
  if off = 0x104 then setBits v 3 0 (ev (bitsOf v 3 0))
  else if off = 0x108 then (List.range 4).foldl (fun v k => setBits v (8 * k + 3) (8 * k) (ev (bitsOf v (8 * k + 3) (8 * k)))) v
  else v

/-- The register items of an extension, with numbers as mapped (R276, R277). -/
def extPatches (t : Task) : List Patch :=
  let p := t.pipes.headD 0
  t.ext.flatMap fun x =>
    (List.range (x.data.length / 4)).flatMap fun i =>
      let off := x.sub + 4 * i
      let v := u32At x.data (4 * i)
      if x.kind = 1 then
        let n := mapPhys t.maps 0x104 x.index
        [Patch.all (keyINS (t.pipes.getD (n / 64) p)) (off + 0x10 * (n % 64)) v]
      else if x.kind = 2 then
        [Patch.all (keyCTR p) (off + 0x10 * mapPhys t.maps 0x100 x.index)
          (if off = 0x200 then setBits v 10 8 (mapPhys t.maps 0x103 (bitsOf v 10 8)) else v)]
      else if x.kind = 3 then [Patch.all (keyTTR p) (off + 0x10 * mapPhys t.maps 0x101 x.index) v]
      else if x.kind = 4 then
        if off < 0x200 then [Patch.all (keyTRG (p / 3)) off (mapOutputs t off v)]
        else [Patch.all (keyTRG (p / 3)) (off + 0x20 * (4 * (p % 3) + mapPhys t.maps 0x102 x.index))
          (if off = 0x204 ∨ off = 0x208 then mapSources t.maps v else v)]
      else []

/-- Registers of mapped numbers at their reset values, for those that the extension does not give. -/
def freshPatches (t : Task) : List Patch :=
  let p := t.pipes.headD 0
  t.maps.flatMap fun m =>
    let g (key base n : Nat) : List Patch := (List.range n).map fun i => Patch.all key (base + 4 * i) (regReset key (base + 4 * i)).toNat
    if m.res = 0x100 then g (keyCTR p) (0x200 + 0x10 * m.phys) 3
    else if m.res = 0x101 then g (keyTTR p) (0x200 + 0x10 * m.phys) 3
    else if m.res = 0x102 then g (keyTRG (p / 3)) (0x200 + 0x20 * (4 * (p % 3) + m.phys)) 5
    else if m.res = 0x104 then g (keyINS (t.pipes.getD (m.phys / 64) p)) (0x400 + 0x10 * (m.phys % 64)) 4
    else []

/-- INS_EN bits of a task's insets, set or cleared. -/
def insetEnables (t : Task) (on : Bool) : List Patch :=
  (t.maps.filter fun m => decide (m.res = 0x104)).map fun m =>
    let n := m.phys % 64
    { key := keyINS (t.pipes.getD (m.phys / 64) 0), off := 0x100 + 4 * (n / 32), mask := 2 ^ (n % 32), value := if on then 2 ^ (n % 32) else 0 }

/-- Every word of a task. -/
def taskPatches (all : List Task) (t : Task) : List Patch :=
  let p := t.pipes.headD 0
  if !needsPipe t.desc ∨ t.pipes.isEmpty then []
  else
    chainPatches t.desc p ++ (if dTYPE t.desc = 1 then monitorPatches t else []) ++ (if dTYPE t.desc = 2 then recordPatches all t else []) ++
      freshPatches t ++ extPatches t ++ insetEnables t true

/-- The words that take a task's units out of service as it leaves pipelines that others still use. -/
def clearPatches (t : Task) : List Patch :=
  let p := t.pipes.headD 0
  insetEnables t false ++ t.maps.flatMap fun m =>
    if m.res = 0x100 then [{ key := keyCTR p, off := 0x200 + 0x10 * m.phys, mask := 1, value := 0 }]
    else if m.res = 0x101 then [{ key := keyTTR p, off := 0x200 + 0x10 * m.phys, mask := 7, value := 0 }]
    else if m.res = 0x102 then [{ key := keyTRG (p / 3), off := 0x200 + 0x20 * (4 * (p % 3) + m.phys), mask := 1, value := 0 }]
    else []

/-- Bytes into a BAR0 window. -/
def State.winBytes (s : State) (addr : Nat) (bs : List Byte) : State :=
  (List.range bs.length).foldl (fun s i =>
    let a := addr + i
    let w := (mget (fun _ => (0 : Word)) s.win (a / 4)).toNat
    { s with win := mput s.win (a / 4) (word (setBits w (8 * (a % 4) + 7) (8 * (a % 4)) (byteAt bs i))) }) s

/-- Curves and index maps of an extension go into their windows (R276, R277). -/
def State.loadItems (s : State) (t : Task) : State :=
  let p := t.pipes.headD 0
  s.each t.ext fun s x =>
    if x.kind = 5 then s.winBytes (0x02E00000 + p * 0x200000 + mapPhys t.maps 0x103 x.index * 0x40000 + x.sub % 2 * 0x20000) x.data
    else if x.kind = 6 then s.winBytes (0x03A80000 + p * 0x2000 + x.index * 0x1000 + x.sub) x.data
    else s

/-! ### Applying words. -/

/-- Words apply now on one page: a page that runs takes them as a commit would (R224, R264); another takes them as they are. -/
def State.applyPatches (s : State) (key : Nat) (xs : List Patch) : State :=
  let xs := xs.filter fun x => decide (x.key = key)
  if xs.isEmpty then s
  else
    let p := pipeOfKey key
    let a : PendApply := { due := s.six, words := s.patchedWords key xs, byOp := false }
    let s := s.each xs State.stagePatch
    let active := s.isActive key
    match blockOf key with
    | .ins => if active then s.insApply p a else (s.applyWords key a.words).insShow p
    | .ctr => if active then s.ctrApply p a else s.applyWords key a.words
    | .ttr => if active then s.ttrApply p a else s.applyWords key a.words
    | .trg => s.trgApply (keyRegion key - 1) a
    | .red =>
      let s := (s.restartPlanes p a).applyWords key a.words
      if active ∧ xs.any (fun x => decide (x.off = 0x100 ∧ x.mask = 0x34)) then s.traceBegin p (s.ab key Reg.RED_CFG.TRACE_EN) else s
    | _ => s.applyWords key a.words

/-- Words apply now, page by page. -/
def State.applyAll (s : State) (xs : List Patch) : State := s.each (xs.map (·.key)).eraseDups fun s k => s.applyPatches k xs

/-- Words wait on their pages for the boundary of a common COMMIT, or become the pending target of a crossfade, as that COMMIT's would
(R149, R264). -/
def State.pendAll (s : State) (xs : List Patch) : State :=
  let s := s.each xs State.stagePatch
  s.each (xs.map (·.key)).eraseDups fun s k =>
    if blockOf k = .ddc ∧ s.crossfading (pipeOfKey k) then
      (s.modChain (pipeOfKey k) fun c => { c with target := some (s.staged k) }).setCfg k 3
    else if blockOf k = .ins ∧ s.stagedDiffers k ∧ s.insAllFading (pipeOfKey k) then s.insTargets (pipeOfKey k)
    else if s.stagedDiffers k then (s.setPend k s.commitBoundary false).setCfg k 1
    else s

/-! ### Converters and inputs (R112, R622). -/

/-- The tasks on an input as a set has them, and the AFE settings they ask for: `none` where any value will do. -/
def wanted (ts : List Task) (n : Nat) (f : List Byte → Nat) : Option Nat :=
  (((ts.filter fun t => (channelInputs (dCHANNEL t.desc)).contains n).map fun t => f t.desc).find? fun v => decide (v ≠ 0xFF))

/-- The words of an AFE page that its tasks ask for. -/
def State.inputWord (s : State) (c : Nat) : Word :=
  let k := keyAFE c
  let on := s.inputTasks c
  let w := match s.pendOf k with | some a => a.word k 0x100 | none => s.areg k 0x100
  if on.isEmpty then wset (wset w 9 8 3) 3 0 15
  else
    let even := on.any fun t => channelBonded (s.taskChannel t)
    let w := wset w 9 8 (if even ∧ c % 2 = 1 then 1 else 0)
    let w := match wanted on c dATTEN with | some a => wset w 3 0 a | none => w
    match wanted on c dZONE with | some z => wset w 5 4 z | none => if even then wset w 5 4 2 else w

/-- The AFE words of a converter wait for the common boundary (R101). -/
def State.pendInput (s : State) (c : Nat) (w : Word) : State :=
  let k := keyAFE c
  if s.isReserved k then s
  else
    let s := s.setReg k 0x100 w
    if s.stagedDiffers k then s.setPend k (ceilTo 32 (s.six + 40960)) false
    else if (s.pendOf k).any fun a => !a.byOp then s.clearPend k
    else s

/-- Bring the converter of an input into line with the tasks on it (R112, R622). While a survey has the converter, its return setting
follows too; every other converter that samples the input takes zone and attenuation (R102, R329). -/
def State.refreshInput (s : State) (c : Nat) : State :=
  let w := s.inputWord c
  let on := s.inputTasks c
  let bonded := on.any fun t => channelBonded (s.taskChannel t)
  let s := if s.isReserved (keyADC c) then s
    else (s.setAdcField c Reg.ADC_CFG.BOND_ROLE (if bonded then 1 + c % 2 else 0)).setAdcField c Reg.ADC_CFG.PHASE (if bonded then c % 2 else 0)
  let s := s.pendInput c w
  match s.svy.run with
  | some r =>
    if r.conv = c ∧ 2 ≤ r.step then
      { s with svy := { s.svy with run := some { r with prevInput := wget w 9 8, prevZone := wget w 5 4, prevAtten := wget w 3 0 } } }
    else s
  | none => s

/-- Bring the inputs of a channel into line. -/
def State.refreshInputs (s : State) (ch : Nat) : State := s.each (channelInputs ch) State.refreshInput

/-- Connect the chains of a task's pipelines to their converters, and gang those of a bonded channel (R112, R133). -/
def State.connect (s : State) (t : Task) : State :=
  match t.pipes with
  | [p] =>
    (((s.modChain p fun c => { c with main := channelInput (dCHANNEL t.desc), partner := none }).wb (keyDDC p) Reg.DDC_STAT.BONDED false).wb
      (keyDDC p) Reg.DDC_STAT.GANGED_SECOND false).refreshSrc
  | [p, q] =>
    let n := (channelInput (dCHANNEL t.desc)).getD 0
    let s := (s.modChain p fun c => { c with main := some n, partner := some q }).modChain q fun c => { c with main := some (n + 1), partner := some p }
    let s := (s.wb (keyDDC p) Reg.DDC_STAT.BONDED true).wb (keyDDC q) Reg.DDC_STAT.BONDED true
    ((s.wb (keyDDC p) Reg.DDC_STAT.GANGED_SECOND false).wb (keyDDC q) Reg.DDC_STAT.GANGED_SECOND true).refreshSrc
  | _ => s

/-- A pipeline that no task uses. -/
def State.disconnect (s : State) (p : Nat) : State :=
  ((({ s with chains := mdel s.chains p }).wb (keyDDC p) Reg.DDC_STAT.BONDED false).wb (keyDDC p) Reg.DDC_STAT.GANGED_SECOND false).refreshSrc

end Sys2Proof.Machine
end

