-- ==== Sys2Proof/Machine/TaskEnd.lean ====
section
/-! DEFINITION. Tasks come to their grants and leave them: placed (R286), suspended with their writer parked (R262, R309), ended (R284,
R286), and re-admitted as capacity returns (R310). -/

namespace Sys2Proof.Machine

/-! ### Grants in force. -/

/-- Ports of a task's stream with their grants in kB/s (R454). -/
def streamPorts (t : Task) : List (Nat × Nat) :=
  let d := t.desc
  let rate := ((t.grants.filter fun g => decide (g.cls = 6 ∧ g.dir = 0)).map (·.amount)).sum
  if dDEST d = destHOST then [(0, rate)]
  else if dDEST d = destNVME then
    let ds := bitsSet (dDEST_SET d) 32
    ds.map fun i => (i, ceilDiv rate (max 1 ds.length))
  else if dDEST d = destETH then (t.grants.filter fun g => decide (g.cls = 7)).map fun g => (g.inst, g.amount)
  else []

/-- Instances that a task holds of a class. -/
def Task.insts (t : Task) (cls : Nat) : List Nat := (t.grants.filter fun g => decide (g.cls = cls)).map (·.inst)

/-- TRV pages of a task's DMA channels that no other task uses, and none of the channels `keep` is on, go idle (R618). -/
def State.idleGroups (s : State) (t : Task) (keep : List Nat) : State :=
  let used := keep ++ (s.holdingTasks.filter fun x => decide (x.id ≠ t.id)).flatMap (·.insts 10)
  s.each (((t.insts 10).map chanKey).eraseDups.filter fun k => !(used.map chanKey).contains k && decide ((s.page k).owner = .phoin)) State.stopPage

/-- The rings granted to a task carry it: its own are Phoin's, and each has a DMA channel, whose TRV page runs (R299, R441, R618). -/
def State.takeRings (s : State) (t : Task) : State :=
  let named := namedRings t.desc
  let chans := t.insts 10
  let s := s.each (chans.map chanKey) State.startPage
  s.each (List.range (t.insts 9).length) fun s i =>
    s.modRing ((t.insts 9).getD i 0) fun r =>
      let r := { r with channel := chans.getD i 0 }
      if named.contains ((t.insts 9).getD i 0) then r else { r with st := .open0, phoin := true, task := t.id }

/-- Rings of its own return, and DMA channels but those of `keep`. -/
def State.dropRings (s : State) (t : Task) (keep : List Nat) : State :=
  let s := s.idleGroups t keep
  s.each (t.insts 9) fun s n => if (s.ring n).phoin ∧ (s.ring n).task = t.id then { s with rings := mdel s.rings n } else s

/-- Memory that a SUSPENDED task held is gone: its unreleased sheets are dropped and counted in the missed count of its next record
(R309). -/
def State.dropMemory (s : State) (id : Nat) : State :=
  match s.task id with
  | none => s
  | some t =>
    let slot := id % 4096
    let s := s.modPhn fun h => { h with parked := h.parked.map fun x =>
      if x.1 = slot then
        let n := (x.2.cap.sheets.filter fun y => !y.released).length
        (x.1, { x.2 with cap := { x.2.cap with cutMissed := min 65535 (x.2.cap.cutMissed + n), sheets := [], recs := [], lost := [] } })
      else x }
    let s := { s with readyRecs := s.readyRecs.filter fun r => match r.from0 with
      | .parkedSheet k _ => decide (k ≠ slot)
      | .parkedPlane k _ _ => decide (k ≠ slot)
      | _ => true }
    s.setTask { t with hasMem := false, pieces := [], grants := t.grants.filter (fun g => decide (g.cls ≠ 3)), memLost := true }

/-- A placement is put into force: the task is PLACED with its grants, its stream is open, and its input is set (R286, R622). -/
def State.commitPlace (s : State) (t : Task) : State :=
  let moved : Bool := match s.task t.id with | some o => o.hasMem && decide (o.pieces ≠ t.pieces) | none => false
  let s := if moved then s.dropMemory t.id else s
  let t := { t with st := .placed, why := 0, memLost := t.memLost || moved }
  let s := ((s.setTask t).takeRings t).bumpEpoch
  let s := if dDEST t.desc = 0 then s else s.openStream t (streamPorts t)
  (s.refreshInputs (dCHANNEL t.desc)).refreshPhn

/-! ### Writers of suspended tasks (R262, R309). -/

/-- The writer's part and the record planes' part of a capture. -/
def Capture.writer (c : Capture) : Capture :=
  { c with queue := [], recs := [], lost := [], trace := TraceAcc.empty, traceThen := TraceAcc.empty, traceLast := [], traceEnd := none, traceStart := 0 }
def Capture.join (w c : Capture) : Capture :=
  { w with queue := c.queue, recs := c.recs, lost := c.lost, trace := c.trace, traceThen := c.traceThen,
           traceLast := c.traceLast, traceEnd := c.traceEnd, traceStart := c.traceStart }

/-- Change where the ready records of a task come from. -/
def State.repoint (s : State) (task : Nat) (f : RecSource → RecSource) : State :=
  let s := { s with readyRecs := s.readyRecs.map fun (x : Ready) => if x.record.task = task then { x with from0 := f x.from0 } else x }
  s.modStream task fun t => { t with ports := t.ports.map fun p => { p with queue := p.queue.map fun r => { r with from0 := f r.from0 } } }

/-- The writer or record planes of a task leave its pipeline and keep their place. -/
def State.park (s : State) (t : Task) : State :=
  let p := t.pipes.headD 0
  let slot := t.id % 4096
  if !t.hasMem ∨ t.pipes.isEmpty ∨ ¬(dTYPE t.desc = 1 ∨ dTYPE t.desc = 2) then s
  else
    let s := if dTYPE t.desc = 2 then (s.capPause p 2).pauseEnd p else s
    let c := s.capture p
    let x : Parked := { cap := c, capRegs := (s.page (keyCAP p)).regs, redRegs := (s.page (keyRED p)).regs }
    let s := s.modPhn fun h => { h with parked := mput h.parked slot x }
    let s := s.modCapture p fun c => if dTYPE t.desc = 2 then Capture.init.join c else c.writer
    s.repoint t.id fun r => match r with
      | .sheet q wc => if q = p ∧ dTYPE t.desc = 2 then .parkedSheet slot wc else r
      | .plane q n off => if q = p ∧ dTYPE t.desc = 1 then .parkedPlane slot n off else r
      | _ => r

/-! ### Leaving pipelines. -/

/-- Stop the pages that only this task used, take its units out of those that others use, and pass on what it was charged for the
pipelines (R299, R618). The task no longer counts among those that hold pipelines. -/
def State.leavePipes (s : State) (t : Task) : State :=
  let others := s.holdingTasks.filter fun x => decide (x.id ≠ t.id)
  let rest := tasksOn others t.pipes
  let keep := others.flatMap pagesOf
  let gone := (pagesOf t).filter fun k => !keep.contains k
  let s := s.each gone.reverse State.stopPage
  let red := keyRED (t.pipes.headD 0)
  let s := if gone.contains red then s
    else if dTYPE t.desc = 1 then s.applyAll [{ key := red, off := 0x100, mask := 0x34, value := 0 }]
    else if dTYPE t.desc = 2 then s.applyAll [{ key := red, off := 0x100, mask := 0x303, value := 0 }]
    else s
  let s := if needsPipe t.desc then s.applyAll (clearPatches t) else s
  match placementOrder rest with
  | [] => if needsPipe t.desc then s.each t.pipes State.disconnect else s
  | x :: _ =>
    let pass := if t.grants.any fun g => decide (g.cls = 0) then (t.grants.filter fun g => decide (g.cls = 0)) ++ offHomeGrants t.desc t.pipes else []
    s.modTask x.id fun y => { y with grants := pass ++ y.grants }

/-- A migration goes on without a task; with no task left, its other pipelines return (R311). -/
def State.leaveMigration (s : State) (id : Nat) : State :=
  let without (m : Migration) : Migration := { m with tasks := m.tasks.filter (· ≠ id), goal := m.goal.filter fun t => decide (t.id ≠ id) }
  let s := s.modPhn fun p => { p with migQueue := (p.migQueue.map without).filter fun m => !m.tasks.isEmpty }
  match s.phn.mig with
  | none => s
  | some m =>
    let m' := without m
    if m'.tasks.isEmpty then
      let s := s.rotWake
      let idle := (if m.phase = .handedOver then m.source else m.target).filter fun p => (s.pipeTasks p).isEmpty
      let s := s.each idle fun s p => (s.each (pipePages p).reverse State.stopPage).disconnect p
      s.modPhn fun p => { p with mig := none }
    else s.modPhn fun p => { p with mig := some m' }

/-- A task gives up everything but its memory: it is out of the placement (R309, R537, R557). -/
def State.giveUp (s : State) (t : Task) (st : TaskState) (why : Nat) : State :=
  let s := s.leaveMigration t.id
  let s := if st = .suspended then s.park t else s
  let s := s.setTask { t with st := st, why := why }
  let s := (s.leavePipes t).dropRings t []
  let s := if dTYPE t.desc = 4 then s.coresRelease t else s
  let s := if dTYPE t.desc = 6 then s.releaseDisplay else s
  let s := s.modTask t.id fun x =>
    { x with pipes := [], maps := [], grants := if st = .suspended then x.grants.filter (fun g => decide (g.cls = 3)) else [],
             hasMem := x.hasMem && decide (st = .suspended), pieces := if st = .suspended then x.pieces else [] }
  (s.refreshInputs (dCHANNEL t.desc)).bumpEpoch

/-- SUSPENDED: user memory is kept, and the stream waits with no grant (R285, R309). -/
def State.suspendTask (s : State) (id why : Nat) : State :=
  match s.task id with
  | none => s
  | some t =>
    if t.st = .suspended then s.dropMemory id
    else
      let s := s.giveUp t .suspended why
      let s := (s.modStream id fun x => { x with ports := x.ports.map fun p => { p with grant := 0 } }).refreshStr
      if why = 0 then s else s.notify id why s.six 0

/-- The tasks that an admission evicts (R308). -/
def State.evict (s : State) (gone : List Task) : State := s.each gone fun s t => s.suspendTask t.id causeEVICTED

/-! ### Re-admission (R310). -/

/-- A placed task's words of TRG 0x100-0x10B differ from those in force in its region while another task uses the matrix (R275). -/
def State.trgConflict (s : State) (all : List Task) (t : Task) : Bool :=
  let key := keyTRG (t.pipes.headD 0 / 3)
  let xs := (extPatches t).filter fun x => decide (x.key = key ∧ x.off < 0x200)
  needsPipe t.desc && !t.pipes.isEmpty && all.any (fun x => x.st.holding && decide (x.id ≠ t.id) && usesTrg x && decide (x.pipes.headD 0 / 3 = t.pipes.headD 0 / 3)) &&
    xs.any fun x => decide (s.areg key x.off ≠ word x.value)

/-- Try one SUSPENDED task; a re-admission never evicts. -/
def State.readmitOne (s : State) (id : Nat) : State :=
  match s.task id with
  | none => s
  | some t =>
    if t.st ≠ .suspended ∨ t.why = 0 ∨ s.inputConflict s.liveTasks t ∨ displayConflict s.liveTasks t then s
    else
      match (s.envOf s.liveTasks id).place t [] with
      | .fits x => if s.trgConflict s.liveTasks x then s else (s.commitPlace { x with restart := true }).notify id causeRESUMED s.six 0
      | .exceeds _ _ => s

/-- Capacity has returned: SUSPENDED tasks that Phoin suspended are tried in placement order (R310). -/
def State.readmit (s : State) : State :=
  s.each ((placementOrder (s.liveTasks.filter fun t => decide (t.st = .suspended ∧ t.why ≠ 0))).map (·.id)) State.readmitOne

/-! ### The end of a task (R284, R286). -/

/-- A task becomes DONE, CANCELLED or FAILED: its stream is closed by a TERMINATOR, and capacity returns (R284, R286, R310, R568). -/
def State.endTask (s : State) (id : Nat) (st : TaskState) (code sub : Nat) : State :=
  match s.task id with
  | none => s
  | some t =>
    if !t.st.live then s
    else
      let s := if st = .done ∧ dTYPE t.desc = 2 then s.drainSheets (t.pipes.headD 0) else s
      let s := (s.giveUp { t with code := code, sub := sub } st 0).repoint id fun _ => .none
      let s := { s.modPhn fun p => { p with parked := mdel p.parked (id % 4096) } with
                 measures := mdel s.measures (id % 4096), playbacks := mdel s.playbacks (id % 4096),
                 svy := { s.svy with holds := s.svy.holds.filter fun h => decide (h.task ≠ id) } }
      let reason := if st = .done then 1 else if st = .cancelled then 2 else 3
      let s := s.closeStream id reason code sub anyPort
      let s := if st = .done then s.notify id causeDONE s.six 0
        else if st = .failed then s.notify id causeFAILED s.six (code % 256 + sub % 256 * 256)
        else s
      s.readmit.refreshPhn

/-- A task fails (R286). -/
def State.failTask (s : State) (id code sub : Nat) : State := s.endTask id .failed code sub

end Sys2Proof.Machine
end

