-- ==== Sys2Proof/Machine/EthOps.lean ====
section
/-! DEFINITION. Packets of a stream on an Ethernet port, with or without LSA (R470-R480). -/

namespace Sys2Proof.Machine

/-- The record bytes of a stream that are sent and not acknowledged, over its flows (R478). -/
def Stream.window (t : Stream) : Nat := ((t.ports.flatMap fun p => p.flow.unacked).map (·.load)).sum

/-- The most that may be unacknowledged: 256 MiB, and the smallest RWND of the flows that a recorder has accepted (R478). -/
def Stream.windowLimit (t : Stream) : Nat :=
  t.ports.foldl (fun m p => if p.flow.st = .open0 ∨ p.flow.st = .stalled then min m p.flow.rwnd else m) (256 * 2 ^ 20)

/-- The stream's profile number. -/
def State.profOf (s : State) (task : Nat) : Nat := dDEST_ID (s.streamDesc task) % 32

/-- The port's link is up. -/
def State.ethUp (s : State) (i : Nat) : Bool := s.rb (keyETH i) Reg.ETH_STAT.LINK_UP

/-- Change a port's flow. -/
def State.modFlow (s : State) (task i : Nat) (f : Flow → Flow) : State := s.modPort task i fun p => { p with flow := f p.flow }

/-- One VITA packet leaves: plain, or in a DATA datagram with the next PSN (R470, R477). `load` is the record bytes it carries. -/
def State.sendVita (s : State) (task i seq load : Nat) (vita : List Byte) : State :=
  let prof := s.profOf task
  let s := s.count (keyETH i) Reg.ETH_TX_PKTS
  if s.profFlag i prof 2 then
    match (s.stream task).bind (·.port i) with
    | none => s
    | some p =>
      let body := beB p.flow.psn 4 ++ beB 0 4 ++ beB seq 8 ++ vita
      let x : LsaPacket := { psn := p.flow.psn, bytes := s.lsaDatagram task i 3 body, seq := seq, load := load, sentAt := s.six, higher := 0 }
      let s := s.modFlow task i fun f =>
        { f with psn := f.psn + 1, unacked := f.unacked ++ [x], heardAt := if f.unacked.isEmpty then s.six else f.heardAt }
      s.emit (.ethFrame i prof x.bytes)
  else s.emit (.ethFrame i prof vita)

/-- The settings in a context body: every field but the state and event indicators (R475). -/
def contextSettings (b : List Byte) : List Byte := b.take 28 ++ b.drop 32

/-- Send a context packet (R475). -/
def State.sendContext (s : State) (task : Nat) (p : StreamPort) (seq six : Nat) (body : List Byte) (changed : Bool) : State :=
  let prof := s.profOf task
  let vita := s.contextPacket task p.index prof (nth 0 p.counts 2) changed six body
  (s.sendVita task p.index seq 0 vita).modPort task p.index fun p =>
    { p with context := body, contextAt := s.six, counts := setNth p.counts 2 (nth 0 p.counts 2 + 1) }

/-- The next packet of a record on an Ethernet port (R454, R472, R475, R478). -/
def State.ethTransfer (s : State) (t : Stream) (p : StreamPort) (r : StreamRec) : State :=
  let i := p.index
  let prof := s.profOf t.task
  let lsa := s.profFlag i prof 2
  let pkt := s.vitaPacket t.task i prof r p.counts r.sent
  if !s.ethUp i || (lsa && decide (p.flow.st ≠ .open0)) then s.recordWaits t.task i
  else if lsa && decide (t.windowLimit < t.window + pkt.2.1) then s.recordWaits t.task i
  else if r.isIq && pkt.1 == 0 && s.profFlag i prof 4 && decide (r.sent = ceilDiv r.headBytes (s.extRoom i prof)) &&
      decide (contextSettings p.context ≠ contextSettings (s.contextBody t.task r)) then
    s.sendContext t.task p r.seq r.first (s.contextBody t.task r) true
  else
    let s := s.sendVita t.task i r.seq pkt.2.1 pkt.2.2
    let s := s.modPort t.task i fun p => { p with counts := setNth p.counts pkt.1 (nth 0 p.counts pkt.1 + 1) }
    let n := s.packetCount i prof r
    let s := s.modRec t.task i r.seq fun r =>
      { r with sent := r.sent + 1, whole := decide (n ≤ r.sent + 1), open0 := r.open0 + boolNat lsa }
    s.payUnit t.task i pkt.2.1 r.free

/-- Retransmit a DATA packet, identical (R478). -/
def State.retransmit (s : State) (task i psn : Nat) : State :=
  match (s.stream task).bind (·.port i) with
  | none => s
  | some p =>
    match p.flow.unacked.find? fun x => decide (x.psn = psn) with
    | none => s
    | some x =>
      if !s.ethUp i then s
      else
        let s := (s.emit (.ethFrame i (s.profOf task) x.bytes)).count (keyETH i) Reg.ETH_RETX
        s.modFlow task i fun f =>
          { f with unacked := f.unacked.map fun y => if y.psn = psn then { y with sentAt := s.six, higher := 0 } else y }

/-! ### Datagrams received (R476, R477). -/

/-- Big-endian field of a datagram. -/
def beAt (b : List Byte) (off n : Nat) : Nat := beNat (toNats ((b.drop off).take n))

/-- A received frame is unknown or malformed: it is discarded and counted (R511). -/
def State.ethDrop (s : State) (i : Nat) : State := s.count (keyETH i) Reg.ETH_RX_DROP

/-- Length of a datagram of a type that a recorder sends. -/
def lsaLength (type : Nat) : Nat := if type = 4 then 32 else 20

/-- A datagram of a type from a recorder reaches its flow, or is discarded: header, length, flow, and a
CHECK that is not zero must fit (R476, R511). -/
def State.lsaReceive (s : State) (i type : Nat) (b : List Byte) (k : State → Stream → StreamPort → State) : State :=
  let task := beAt b 4 4
  match s.stream task with
  | none => s.ethDrop i
  | some t =>
    match t.port i with
    | none => s.ethDrop i
    | some p =>
      let check := beAt b 12 4
      if t.dest ≠ destETH ∨ !s.profFlag i (s.profOf task) 2 ∨ !s.ethUp i then s.ethDrop i
      else if beAt b 0 2 ≠ 0x4C53 ∨ beAt b 2 1 ≠ 1 ∨ beAt b 3 1 ≠ type ∨ beAt b 8 1 ≠ i ∨ b.length ≠ lsaLength type ∨
          (check ≠ 0 ∧ check ≠ crc32c (b.take 12 ++ beB 0 4 ++ b.drop 16)) then
        s.ethDrop i
      else k s t p

/-- A STALLED flow opens again with its RTO_US (R480). -/
def State.heard (s : State) (task i rwnd : Nat) : State :=
  let rto := s.profRto i (s.profOf task)
  s.modFlow task i fun f =>
    { f with heardAt := s.six, rwnd := rwnd * 1024, rto := if f.st = .stalled then rto else f.rto,
             st := if f.st = .stalled then .open0 else f.st }

/-- A DATA packet is acknowledged by CUM and SACK (R477). -/
def ackedBy (cum sack psn : Nat) : Bool :=
  let d := (cum + 2 ^ 32 - psn % 2 ^ 32) % 2 ^ 32
  let e := (psn + 2 ^ 32 - (cum + 1) % 2 ^ 32) % 2 ^ 32
  (decide (0 < d) && decide (d < 2 ^ 31)) || (decide (e < 64) && nbit sack e)

/-- CLOSE of a flow with the PSN of its last packet (R477, R478). -/
def State.sendClose (s : State) (task i : Nat) : State :=
  match (s.stream task).bind (·.port i) with
  | none => s
  | some p => s.sendLsa task i 5 (beB ((p.flow.psn + 2 ^ 32 - 1) % 2 ^ 32) 4)

/-- Once the TERMINATOR of a closing stream has been acknowledged, its flow is CLOSING (R478, R480). -/
def State.closeFlow (s : State) (task i : Nat) : State :=
  match s.stream task with
  | none => s
  | some t =>
    match t.port i with
    | none => s
    | some p =>
      if t.closing ∧ p.flow.st = .open0 ∧ p.flow.unacked.isEmpty ∧ p.queue.all (·.whole) then
        (s.modFlow task i fun f => { f with st := .closing, sinceAt := s.six, heardAt := s.six }).sendClose task i
      else s

/-- An ACK: acknowledged packets leave, and one that 3 higher PSNs overtook is retransmitted (R478). -/
def State.lsaAck (s : State) (task i cum sack rwnd : Nat) : State :=
  match (s.stream task).bind (·.port i) with
  | none => s
  | some p =>
    let acked := p.flow.unacked.filter fun x => ackedBy cum sack x.psn
    let left := p.flow.unacked.filter fun x => !ackedBy cum sack x.psn
    let left := left.map fun x => { x with higher := x.higher + (acked.filter fun y => decide (x.psn < y.psn)).length }
    let s := (s.heard task i rwnd).modFlow task i fun f => { f with unacked := left }
    let s := s.each (acked.filter fun x => decide (0 < x.load)) fun s x => s.modRec task i x.seq fun r => { r with open0 := r.open0 - 1 }
    let s := s.each ((left.filter fun x => decide (3 ≤ x.higher)).map (·.psn)) fun s psn => s.retransmit task i psn
    s.closeFlow task i

end Sys2Proof.Machine
end

