-- ==== Sys2Proof/Machine/IntervalMeas.lean ====
section
/-! DEFINITION. The interval measurement unit (TDC): MEASURE and FREQ_MEAS (R90-R97). Times are in 1/65,536 of an SCLK
period (R77), counted past every LOAD_SIX; one period is 3125/128 ps. TDC_CFG, TDC_STOP_MASK and TDC_TIMEOUT are read as they stand at each
edge (log entry 87). -/

namespace Sys2Proof.Machine

/-- Change the TDC. -/
def State.modTdc (s : State) (f : Tdc → Tdc) : State := { s with tdc := f s.tdc }

def errMISS : Nat := 16

/-- The time of (SIX, FINE) in 1/65,536 period. -/
def State.fineTime (s : State) (six fine : Nat) : Int := s.elapsed six * 65536 + (fine % 65536 : Nat)

/-- The first SIX at or after a time. -/
def State.sixOf (s : State) (t : Int) : Nat := (-(-t / 65536) + s.tb.shift).toNat

/-- An interval in picoseconds, rounded half up (log entry 20). -/
def intervalPs (d : Int) : Int := (d * 3125 * 2 + 8388608) / (2 * 8388608)

/-- The interval lies below 1 ps in magnitude (R92). -/
def underPs (d : Int) : Bool := decide (d * 3125 < 8388608) && decide (-8388608 < d * 3125)

/-- The later time lies within 2.0 ns of the earlier one (R92). -/
def within2ns (a b : Int) : Bool := decide ((b - a) * 3125 ≤ 2000 * 8388608)

/-- The edge falls into the dead time of its input and polarity (R92). -/
def tdcDead (last : List TdcEdge) (e : TdcEdge) : Bool :=
  last.any fun p => decide (p.input = e.input) && (p.falling == e.falling) && within2ns p.t e.t

/-- Keep the newest accepted edge of each input and polarity. -/
def tdcRemember (last : List TdcEdge) (e : TdcEdge) : List TdcEdge :=
  e :: last.filter fun p => !(decide (p.input = e.input) && (p.falling == e.falling))

/-- Insert a stop in time order; stops with equal times in input order (R91). -/
def insertStop (e : TdcEdge) : List TdcEdge → List TdcEdge
  | [] => [e]
  | x :: xs => if e.t < x.t ∨ (e.t = x.t ∧ e.input < x.input) then e :: x :: xs else x :: insertStop e xs

/-- The edge is of the input's stop inputs and stop polarity. -/
def State.isStop (s : State) (e : TdcEdge) : Bool :=
  decide (e.input < 8) && nbit (s.rf keyTDC Reg.TDC_STOP_MASK.MASK) e.input &&
    (e.falling == s.rb keyTDC Reg.TDC_CFG.STOP_EDGE)

/-- The edge is the start edge of the configuration. -/
def State.isStart (s : State) (e : TdcEdge) : Bool :=
  decide (e.input = s.rf keyTDC Reg.TDC_CFG.START_IN) && (e.falling == s.rb keyTDC Reg.TDC_CFG.START_EDGE)

/-- Words of TDC_STOPn for a stop (R97). -/
def stopWords (start : Int) (e : TdcEdge) : Word × Word :=
  let d : Int := e.t - start
  let under := underPs d
  let ps : Int := if under then 0 else intervalPs d
  let u := unsignedOf 48 ps
  (word u, word (2 ^ 31 + boolNat under * 2 ^ 29 + boolNat (decide (e.t < start)) * 2 ^ 28 + e.input % 16 * 2 ^ 16 + u / 2 ^ 32))

/-- Write TDC_STOP0-TDC_STOP15 (R97): entries beyond the stops read VALID = 0. -/
def State.writeStops (s : State) (start : Int) (stops : List TdcEdge) : State :=
  (List.range 16).foldl (fun s i =>
    match stops[i]? with
    | some e =>
      let w := stopWords start e
      (s.setReg keyTDC (0x200 + 8 * i) w.1).setReg keyTDC (0x204 + 8 * i) w.2
    | none => (s.setReg keyTDC (0x200 + 8 * i) 0).setReg keyTDC (0x204 + 8 * i) 0) s

/-- The result words of MEASURE: stops, TIMEOUT, START_IN, the start's SIX and FINE, and the misses. -/
def State.measureResult (s : State) (timeout : Bool) : List Word :=
  let six := s.tdc.startAt.1
  [word (min 16 s.tdc.edges.length + boolNat timeout * 2 ^ 8 + s.rf keyTDC Reg.TDC_CFG.START_IN * 2 ^ 12), word six,
   word (six / 2 ^ 32), word (six / 2 ^ 64 % 256 + s.tdc.startAt.2 * 2 ^ 16), word s.tdc.misses]

/-- MEASURE ends DONE: the stop registers and the window are written as one update (R91, R97), now or, when the window
holds a result, at its release (R61). -/
def State.measureDone (s : State) (timeout : Bool) : State :=
  let r := s.measureResult timeout
  let stops := s.tdc.edges
  let s := s.modTdc fun d => { d with mode := .idle }
  let s := if (s.page keyTDC).resReady then s.modTdc fun d => { d with heldStops := some stops }
           else s.writeStops s.tdc.start stops
  s.doneWith keyTDC r

/-- MEASURE: waits for a start edge for at most TDC_START_WAIT (R91). STOP_MASK = 0 or STOP_COUNT outside 1-16 is
rejected RANGE, NO_STOP_INPUT. -/
def execMeasure (who : Issuer) (tag : Nat) (s : State) : Res :=
  .next (s.command who keyTDC 0x0100 tag fun s op =>
    let n := s.rf keyTDC Reg.TDC_CFG.STOP_COUNT
    if s.rf keyTDC Reg.TDC_STOP_MASK.MASK = 0 ∨ n = 0 ∨ 16 < n then s.rejectOp keyTDC op codeRANGE 0x01
    else
      (s.accept keyTDC op).modTdc fun d =>
        { d with mode := .waitStart, edges := [], misses := 0,
                 deadline := s.fineTime (s.six + s.rf keyTDC Reg.TDC_START_WAIT.MS * sixPerMs) 0 })

/-- FREQ_MEAS: counts edges on input ARG0[3:0] over a gate of ARG1 ms (R93); a reserved input or a gate outside
1-10,000 ms is out of range. -/
def execFreqMeas (who : Issuer) (tag : Nat) (s : State) : Res :=
  .next (s.command who keyTDC 0x0101 tag fun s op =>
    if 8 < op.a0 % 16 ∨ op.a1 = 0 ∨ 10000 < op.a1 then s.rejectOp keyTDC op codeRANGE 0
    else
      (s.accept keyTDC op).modTdc fun d =>
        { d with mode := .counting, freqIn := op.a0 % 16, freqN := 0, freqFirst := 0, freqLast := 0,
                 deadline := s.fineTime (s.six + op.a1 * sixPerMs) 0 })

/-- Units of 10 ns in 1/65,536 period, rounded down: 10 ns are 26,843,545.6. -/
def tdcUnits (n : Nat) : Int := (n * 268435456 / 10 : Nat)

/-- The edge at (SIX, FINE) starts the measurement: earlier stop edges up to 2.0 ns before are EARLY stops, and the others are misses
(R92). -/
def State.tdcStart (s : State) (e : TdcEdge) (six fine : Nat) : State :=
  let early := s.tdc.edges.filter fun p => within2ns p.t e.t
  let missed := s.tdc.edges.length - early.length
  let s := s.modTdc fun d =>
    { d with mode := .measuring, start := e.t, startAt := (six, fine % 65536), edges := early.foldl (fun l x => insertStop x l) [], misses := missed,
             deadline := e.t + tdcUnits (s.rf keyTDC Reg.TDC_TIMEOUT.UNITS) }
  let s := if 0 < missed then (s.countBy keyTDC Reg.TDC_MISS missed).setErr keyTDC errMISS else s
  if s.rf keyTDC Reg.TDC_CFG.STOP_COUNT ≤ s.tdc.edges.length then
    (s.modTdc fun d => { d with edges := d.edges.take (s.rf keyTDC Reg.TDC_CFG.STOP_COUNT) }).measureDone false
  else s

/-- TDC_EDGE: an edge on an input at (SIX, FINE) is taken as start or stop, kept for an early stop, counted, or
ignored in the dead time of its input and polarity (R91-R93). -/
def execTdcEdge (input : Nat) (falling : Bool) (six fine : Nat) (s : State) : Res :=
  let e : TdcEdge := { input := input, falling := falling, t := s.fineTime six fine }
  let s := s.advanceTo six
  if tdcDead s.tdc.last e then .next s
  else
    let s := s.modTdc fun d => { d with last := tdcRemember d.last e }
    match s.tdc.mode with
    | .idle => .next s
    | .waitStart =>
      if s.tdc.deadline < e.t then .next s
      else if s.isStart e then .next (s.tdcStart e six fine)
      else if s.isStop e then .next (s.modTdc fun d => { d with edges := d.edges ++ [e] })
      else .next s
    | .measuring =>
      if s.isStop e ∧ e.t ≤ s.tdc.deadline then
        let s := s.modTdc fun d => { d with edges := insertStop e d.edges }
        if s.rf keyTDC Reg.TDC_CFG.STOP_COUNT ≤ s.tdc.edges.length then .next (s.measureDone false) else .next s
      else .next s
    | .counting =>
      if input = s.tdc.freqIn ∧ falling = false ∧ e.t ≤ s.tdc.deadline then
        .next (s.modTdc fun d =>
          { d with freqN := d.freqN + 1, freqFirst := if d.freqN = 0 then e.t else d.freqFirst, freqLast := e.t })
      else .next s

/-- TDC_TIMEOUT: TDC_TIMEOUT has elapsed since the start; MEASURE ends DONE with the stops received (R91, R92). -/
def execTdcTimeout (s : State) : Res :=
  if s.tdc.mode = .measuring then .next ((s.advanceTo (s.sixOf s.tdc.deadline)).measureDone true) else .next s

/-- TDC_START_WAIT_EXPIRY: no start edge within TDC_START_WAIT; FAILED, TIMEOUT, NO_START, no result (R92). -/
def execTdcStartWaitExpiry (s : State) : Res :=
  if s.tdc.mode = .waitStart then
    .next (((s.advanceTo (s.sixOf s.tdc.deadline)).modTdc fun d => { d with mode := .idle }).failOp keyTDC codeTIMEOUT 0x02)
  else .next s

/-- The frequency in µHz by reciprocal counting: (edges − 1) / span, rounded down (R93; log entry 20). -/
def freqMicroHz (edges spanT : Nat) : Nat :=
  if spanT = 0 then 0 else (edges - 1) * (40960000000 * 65536 * 1000000) / spanT

/-- FREQ_GATE_END: the gate ends; fewer than 2 edges end FAILED, TIMEOUT, NO_EDGES (R93). TDC_STOPn keep what they hold (log entry
87). -/
def execFreqGateEnd (s : State) : Res :=
  if s.tdc.mode = .counting then
    let s := s.advanceTo (s.sixOf s.tdc.deadline)
    let n := s.tdc.freqN
    let span := (s.tdc.freqLast - s.tdc.freqFirst).toNat
    let s := s.modTdc fun d => { d with mode := .idle }
    if n < 2 then .next (s.failOp keyTDC codeTIMEOUT 0x03)
    else
      let f := freqMicroHz n span
      let ps := (intervalPs span).toNat
      .next (s.doneWith keyTDC [word n, word f, word (f / 2 ^ 32), word ps, word (ps / 2 ^ 32)])
  else .next s

/-- CANCEL and SOFT_RESET stop a measurement (R94). -/
def State.tdcStop (s : State) : State := s.modTdc fun d => { d with mode := .idle, heldStops := none }

/-- The stop registers of a held result are written with it, once the released window has taken it (R61, R97). -/
def State.tdcDrain (s : State) : State :=
  match s.tdc.heldStops with
  | some stops =>
    if (s.page keyTDC).waiting.any (·.1) then s else (s.writeStops s.tdc.start stops).modTdc fun d => { d with heldStops := none }
  | none => s

end Sys2Proof.Machine
end

