-- ==== Sys2Proof/Machine/Report.lean ====
section
/-! DEFINITION. Placement reports (R292, R293) and the completions that carry them (R288). -/

namespace Sys2Proof.Machine

/-- An entry of a report (R293). -/
structure RepEntry where
  res : Nat
  inst : Nat
  dir : Nat
  role : Nat
  amount : Nat
  remaining : Nat
  other : Nat
  deriving DecidableEq, Repr

def RepEntry.bytes (e : RepEntry) : List Byte :=
  leBytes e.res 2 ++ leBytes e.inst 2 ++ leBytes e.dir 1 ++ leBytes e.role 1 ++ leBytes 0 2 ++ leBytes e.amount 8 ++ leBytes e.remaining 8 ++
    leBytes e.other 4 ++ leBytes 0 4

/-- Capacity left under the cap of a grant's instance (R293). -/
def Env.remaining (e : Env) (g : Grant) : Nat :=
  if g.cls = 1 then
    (if (tasksOn e.all [g.inst]).any fun t => channelBonded (dCHANNEL t.desc) then 128 else 64) - loadOf e.held 1 g.inst 0
  else if 2 ≤ g.cls ∧ g.cls ≤ 7 then e.s.capOf g.cls g.inst - loadOf e.held g.cls g.inst g.dir
  else 0

/-- Grants in class order. -/
def byClass (gs : List Grant) : List Grant := (List.range 11).flatMap fun c => gs.filter fun g => decide (g.cls = c)

/-- Entries of grants in a role; the rate of insets is not one (R293). -/
def Env.grantEntries (e : Env) (gs : List Grant) (role : Nat) : List RepEntry :=
  ((byClass gs).filter fun g => decide (g.cls ≠ 1 ∨ g.dir = 0)).map fun g =>
    { res := g.cls, inst := g.inst, dir := if g.cls = 5 then g.dir else 0, role := role, amount := g.amount, remaining := e.remaining g, other := 0 }

/-- Entries of a task: its grants, the spare reservation once for each link it is charged on, and its mappings (R293, R299). -/
def Env.taskEntries (e : Env) (t : Task) (role : Nat) : List RepEntry :=
  e.grantEntries t.grants role ++
    e.grantEntries (e.s.spareGrants.filter fun g => t.grants.any fun x => decide (x.cls = 5 ∧ x.inst = g.inst)) 3 ++
    t.maps.map fun m => { res := m.res, inst := m.phys, dir := 0, role := 0, amount := m.rel, remaining := 0, other := 0 }

/-- Entries of evicted tasks. -/
def evictedEntries (gone : List Task) : List RepEntry :=
  gone.map fun t => { res := 0, inst := t.pipes.headD 0, dir := 0, role := 2, amount := t.pipes.length, remaining := 0, other := t.id }

/-- What a command reports: result, task state, position in a PLAN chain, first class over its cap and the excess, and entries. -/
structure Report where
  task : Nat
  result : Nat
  state : Nat
  index : Nat
  exceeds : Nat
  overBy : Nat
  entries : List RepEntry
  deriving DecidableEq, Repr

/-- The bytes of a report (R292). -/
def State.reportBytes (s : State) (opcode : Nat) (r : Report) : List Byte :=
  leBytes 0x5052 2 ++ leBytes 1 1 ++ leBytes opcode 1 ++ leBytes r.task 4 ++ leBytes (s.reg keyPHN 0x100).toNat 4 ++
    leBytes (s.rf keyPHN Reg.PHN_EPOCH) 4 ++ leBytes s.faultMap 8 ++ leBytes s.reservedMap 8 ++ leBytes r.result 1 ++ leBytes r.state 1 ++
    leBytes r.entries.length 2 ++ leBytes r.index 2 ++ leBytes r.exceeds 2 ++ leBytes r.overBy 8 ++ leBytes (64 + 32 * r.entries.length) 4 ++
    List.replicate 12 0 ++ r.entries.flatMap RepEntry.bytes

/-- Write the report of a command that asks for one, before its completion (R269, R292): a buffer that is too small gets nothing. -/
def State.report (s : State) (e : List Byte) (r : Report) (a : Answer) : State × Answer :=
  if !cREPORT e then (s, a)
  else
    let b := s.reportBytes (cOPCODE e) r
    if cREPORT_BYTES e < b.length then (s, { a with sub := subREPORT_SHORT, report := b.length })
    else (s.emit (.report (cREPORT_ADDR e) b), { a with report := b.length })

/-- A report of resident tasks as they stand (R292). -/
def State.taskReport (s : State) (id : Nat) (ts : List Task) (role : Nat) (gone : List Task) : Report :=
  let e : Env := { s := s, all := s.liveTasks, extra := s.extraGrants, noPipes := [] }
  { task := id, result := 0, state := match s.task id with | some t => t.st.code | none => 0, index := 0, exceeds := 0xFFFF, overBy := 0,
    entries := ts.flatMap (fun t => e.taskEntries t role) ++ evictedEntries gone }

/-- A report of a rejection (R292, R306). -/
def rejectReport (id st index cls excess : Nat) : Report :=
  { task := id, result := 2, state := st, index := index, exceeds := cls, overBy := excess, entries := [] }

/-- NOSPACE with the resource named (R288, R306). -/
def Answer.noSpace (task sub cls : Nat) : Answer :=
  { phase := phaseREJECTED, code := codeNOSPACE, sub := sub, task := task, report := 0, resource := cls, detail0 := 0 }

/-- Sub-reason of a rejection: CO_PLACE when an IQ_RECORD cannot share its trigger task's pipeline (R280). -/
def coPlace (d : List Byte) (cls : Nat) : Nat := if dTRIGGER d ≠ 0 ∧ cls = 0 then subCO_PLACE else 0

end Sys2Proof.Machine
end

