-- ==== Sys2Proof/Machine/Descriptor.lean ====
section
/-! DEFINITION. The checks of a task descriptor and of its image extension (R273-R283, R300, R301, R470, R534-R536, R574). -/

namespace Sys2Proof.Machine

/-! ### Image extension (R276, R277). -/

/-- Items of an extension with their offsets; the offset of one that does not fit. -/
def parseItems : Nat → Nat → List Byte → Except Nat (List (Nat × ExtItem))
  | 0, off, b => if b.isEmpty then .ok [] else .error off
  | fuel + 1, off, b =>
    if b.isEmpty then .ok []
    else
      let n := u32At b 4
      let len := 8 + ceilTo 8 n
      if b.length < len then .error off
      else
        match parseItems fuel (off + len) (b.drop len) with
        | .ok l => .ok ((off, { kind := byteAt b 0, index := byteAt b 1, sub := u16At b 2, data := (b.drop 8).take n }) :: l)
        | .error x => .error x

/-- Register items lie in a range of offsets, in whole words, each in range on its page. -/
def itemWordsOk (b : BlockType) (lo hi : Nat) (x : ExtItem) : Bool :=
  decide (lo ≤ x.sub) && decide (x.sub % 4 = 0 ∧ x.data.length % 4 = 0) && decide (x.sub + x.data.length ≤ hi) &&
    (List.range (x.data.length / 4)).all fun i => wordOk b (x.sub + 4 * i) (word (u32At x.data (4 * i)))

/-- An item keeps the rules of its page (R276, R277). -/
def itemOk (d : List Byte) (x : ExtItem) : Bool :=
  if x.kind = 7 then
    decide (dTYPE d = 4) && decide (x.index < u16At d 0x7C) && decide (x.sub % 4 = 0 ∧ x.data.length % 4 = 0) && decide (x.sub + x.data.length ≤ 65536)
  else
    needsPipe d &&
      (if x.kind = 1 then decide (x.index < if channelBonded (dCHANNEL d) then 128 else 64) && itemWordsOk .ins 0x400 0x410 x
       else if x.kind = 2 then decide (x.index < 8) && itemWordsOk .ctr 0x200 0x20C x
       else if x.kind = 3 then decide (x.index < 4) && itemWordsOk .ttr 0x200 0x20C x
       else if x.kind = 4 then itemWordsOk .trg 0x100 0x10C x || (decide (x.index < 4) && itemWordsOk .trg 0x200 0x214 x)
       else if x.kind = 5 then decide (x.index < 8) && decide (x.sub < 2) && decide (x.data.length % 2 = 0) && decide (x.data.length ≤ 131072)
       else if x.kind = 6 then decide (x.index < 2) && decide (x.sub + x.data.length ≤ 4096)
       else false)

/-- Numbers of a task map to themselves where its relations are checked. -/
def selfMaps (ext : List ExtItem) : List Mapping :=
  [(0x100, 2), (0x101, 3), (0x102, 4), (0x103, 5), (0x104, 1)].flatMap fun k => (extIndices ext k.2).map fun i => { res := k.1, rel := i, phys := i }

/-- The offset of the first item of a kind that meets a condition. -/
def itemAt (items : List (Nat × ExtItem)) (kind : Nat) (f : ExtItem → Bool) : Nat :=
  match items.find? fun x => decide (x.2.kind = kind) && f x.2 with | some x => x.1 | none => 0

/-- The relations that the pages check at a commit, tried on blank pages with the task's words (R177, R194, R226, R228, R264, R265,
R619): the offset of the field, or of the item. -/
def State.relationError (s : State) (t : Task) (items : List (Nat × ExtItem)) : Option (Nat × Nat) :=
  let d := t.desc
  let ps := if channelBonded (dCHANNEL d) then [0, 1] else [0]
  let t := { t with pipes := ps, maps := selfMaps t.ext, pieces := [] }
  let b : State := { s with pages := [], chains := [], caps := [], phn := { s.phn with tasks := [] } }
  let b := b.connect t
  let xs := taskPatches [] t
  let b := b.each xs State.stagePatch
  let b := b.each (xs.filter fun x => decide (x.key = keyDDC 0 ∨ x.key = keyFFT 0)) State.patch
  let rangeOf (x : Option (Nat × Nat)) : Option Nat := match x with | some (c, n) => if c = codeRANGE then some n else none | none => none
  let fft := if dTYPE d = 1 then (rangeOf (b.fftCheck 0)).map fun n => if n = 3 then 0x78 else if n = 4 then 0x80 else 0x74 else none
  let grt := if dTYPE d = 1 ∧ nbit (dUSES d) 0 then (rangeOf (b.grtCheck 0)).map fun _ => 0x94 else none
  let red := if dTYPE d = 1 ∧ nbit (dUSES d) 1 then (rangeOf (b.redCheck 0)).map fun _ => 0xB0 else none
  let cap := if dTYPE d = 2 ∧ 2 ^ 28 < u32At d 0x74 + u32At d 0x78 then some 0x78 else none
  match [fft, grt, red, cap].findSome? id with
  | some off => some (subFIELD, off)
  | none =>
    let bad := (List.range 2).find? fun q => (rangeOf (b.insCheck q)).isSome
    match bad with
    | some q => some (subEXT_ITEM, itemAt items 1 fun x => decide (x.index = 64 * q + b.insOffender q))
    | none =>
      if (rangeOf (b.ctrCheck 0)).isSome then some (subEXT_ITEM, itemAt items 2 fun _ => true)
      else if (rangeOf (b.trgCheck 0)).isSome then some (subEXT_ITEM, itemAt items 4 fun x => decide (0x200 ≤ x.sub))
      else none

/-! ### Fields (R273). -/

/-- Words of an image at an offset are in range on their page. -/
def imageErrors (d : List Byte) (b : BlockType) (at0 reg n : Nat) : List (Nat × Bool) :=
  (List.range n).map fun i => (at0 + 4 * i, !wordOk b (reg + 4 * i) (word (u32At d (at0 + 4 * i))))

/-- The ring and buffer of a HOST stream: the largest record takes at most half the buffer (R460, R461). -/
def State.hostRingOk (s : State) (n largest : Nat) : Bool :=
  decide (32 ≤ n ∧ n ≤ 32767) && decide ((s.ring n).st = .open0) &&
    match (s.ring n).buffer with
    | some b => decide (2 * largest ≤ 2 ^ b.2)
    | none => false

/-- Profiles of an Ethernet stream are VALID, and a full signal packet fits (R470). -/
def State.profilesOk (s : State) (d : List Byte) : Bool :=
  decide (dDEST_ID d < 32) && (bitsSet (dDEST_SET d) 4).all fun p =>
    s.profFlag p (dDEST_ID d) 0 && decide (32 + 4 * s.profSamples p (dDEST_ID d) ≤ s.vitaRoom p (dDEST_ID d))

/-- Drives of a set are registered (R463). -/
def State.drivesOk (s : State) (m : Nat) : Bool := decide (m ≠ 0) && (bitsSet m 32).all fun i => (s.drive i).isSome

/-- A resident task of a set with one of some types. -/
def isTask (all : List Task) (id : Nat) (types : List Nat) : Bool :=
  match findTask all id with | some t => types.contains (dTYPE t.desc) | none => false

/-- Conditions on the common part, by offset (R274). -/
def State.commonErrors (s : State) (all : List Task) (t : Task) : List (Nat × Bool) :=
  let d := t.desc
  let ch := dCHANNEL d
  let known := decide (ch ≤ 5 ∨ ch = 0x40)
  let inputs := channelInputs ch
  let locked := inputs.any fun n => (s.page (keyAFE n)).lock && decide (dATTEN d < s.rf (keyAFE n) Reg.AFE_ATTEN_MIN.MIN)
  let triggered := decide (dTYPE d = 2 ∧ bitsOf (u32At d 0x70) 11 8 ≠ 0)
  [(0x20, decide (dTYPE d = 0 ∨ 8 ≤ dTYPE d)), (0x21, decide (8 ≤ dPRIORITY d)),
    (0x24, if needsPipe d then !known else !known && decide (ch ≠ 0xFF)),
    (0x25, (decide (6 ≤ dPIN_PIPE d) && decide (dPIN_PIPE d ≠ 0xFF)) || (dPINNED d && decide (dPIN_PIPE d = 0xFF))),
    (0x26, decide (dATTEN d ≠ 0xFF) && (decide (16 ≤ dATTEN d) || locked)),
    (0x27, decide (dZONE d ≠ 0xFF) && (decide (3 ≤ dZONE d) || decide (channelBonded ch ≠ decide (dZONE d = 2)))),
    (0x31, decide (17 ≤ dDECIM d)), (0x32, decide (4 ≤ dGAIN d)), (0x34, !wordOk .ddc 0x104 (word (dRESP d))),
    (0x48, decide (4 ≤ dDEST d)), (0x4A, dCOMPRESS d && (decide (dCOMP_LEVEL d = 0) || decide (12 < dCOMP_LEVEL d))),
    (0x4B, dENCRYPT d && (decide (dKEY_SLOT d = 0 ∨ 64 ≤ dKEY_SLOT d) || (mfind s.keyStore (dKEY_SLOT d)).isNone)),
    (0x4C, (decide (dDEST d = destNVME) && !s.drivesOk (dDEST_SET d)) || (decide (dDEST d = destETH) && decide (dDEST_SET d % 16 = 0))),
    (0x50, (decide (dDEST d = destHOST) && !s.hostRingOk (dDEST_ID d) (largestRecord all t)) || (decide (dDEST d = destETH) && !s.profilesOk d)),
    (0x54, decide (dDEST d ≠ 0 ∧ dSTREAM_MBPS d = 0) && triggered),
    (0x58, decide (dTYPE d = 2 ∧ 2 ^ 33 < ringLen d)),
    (0x5C, decide (ch = 0x40) && !isTask all (dINPUT_TASK d) [5]),
    (0x60, decide (dEXT_ADDR d % 8 ≠ 0)), (0x68, decide (1048576 < dEXT_BYTES d))]

/-- The image of a MEASURE task, with its length and entry (R282, R535). -/
def coreImageOk (d image : List Byte) : Bool := imageOk image && decide (u16At d 0x7E ≤ 0x1FFF)

/-- Conditions on the body of a type, by offset (R279-R283). -/
def State.bodyErrors (s : State) (all : List Task) (t : Task) : List (Nat × Bool) :=
  let d := t.desc
  if dTYPE d = 1 then
    imageErrors d .fft 0x74 0x100 6 ++ (if nbit (dUSES d) 0 then imageErrors d .grt 0x8C 0x100 8 else []) ++
      (if nbit (dUSES d) 1 then (0xAC, !wordOk .red 0x100 (word (Nat.land (u32At d 0xAC) 0x3C))) :: imageErrors d .red 0xB0 0x114 3 else []) ++
      (List.range 3).map fun i => (0xBC + 4 * i, decide (u32At d (0xBC + 4 * i) ≠ 0) &&
        (decide (u32At d (0xBC + 4 * i) % 4 ≠ 0) || !wordOk .red 0x208 (word (u32At d (0xBC + 4 * i) / 4))))
  else if dTYPE d = 2 then
    let cfg := u32At d 0x70
    [(0x70, !wordOk .cap 0x100 (word cfg) || decide (bitsOf cfg 17 16 ≠ 1 ∧ bitsOf cfg 17 16 ≠ 2)), (0x74, !wordOk .cap 0x110 (word (u32At d 0x74))),
      (0x78, !wordOk .cap 0x114 (word (u32At d 0x78))), (0x7C, dCHUNK_EN d && !wordOk .cap 0x118 (word (u32At d 0x7C))),
      (0x84, decide (dTRIGGER d ≠ 0) && !isTask all (dTRIGGER d) [1, 3])]
  else if dTYPE d = 3 then
    let ins := bitsSet (u64At d 0x70) 64
    [(0x70, ins.isEmpty || ins.any fun k => !t.insets.contains k), (0x78, decide (byteAt d 0x78 ≠ 1 ∧ byteAt d 0x78 ≠ 2)),
      (0x7C, decide (u32At d 0x7C < 1024 ∨ 2 ^ 24 < u32At d 0x7C))]
  else if dTYPE d = 4 then
    let src := findTask all (dSOURCE d)
    let iq := match src with | some x => decide (dTYPE x.desc = 2) | none => false
    let ins := bitsSet (u64At d 0x88) 64
    let cores := u16At d 0x7C
    [(0x70, !coreImageOk d t.image), (0x78, decide (196608 < u32At d 0x78)),
      (0x7C, decide (cores = 0 ∨ 64 < cores) || (!iq && src.isSome && decide (ins.length < cores))),
      (0x80, !isTask all (dSOURCE d) [2, 3]), (0x84, decide (u32At d 0x84 = 0 ∨ 10000000 < u32At d 0x84)),
      (0x88, if iq then decide (u64At d 0x88 ≠ 0) else ins.isEmpty || (match src with | some x => ins.any fun k => !x.insets.contains k | none => false))]
  else if dTYPE d = 5 then
    let host := decide (dSRC_KIND d = 1)
    [(0x70, decide (dSRC_KIND d = 0 ∨ 3 < dSRC_KIND d)), (0x71, decide (1 < dPACE d)),
      (0x72, host && (decide (dSRC_ID d < 32 ∨ 32767 < dSRC_ID d) || decide ((s.ring (dSRC_ID d)).st ≠ .open0) || (s.ring (dSRC_ID d)).consumer)),
      (0x74, decide (dSRC_KIND d = 2) && !s.drivesOk (dSRC_DRIVES d))]
  else if dTYPE d = 6 then
    [(0x70, decide (dGRT_TASK d ≠ 0) && !isTask all (dGRT_TASK d) [1]), (0x74, decide (dTRACE_TASK d ≠ 0) && !isTask all (dTRACE_TASK d) [1]),
      (0x78, decide (3 < byteAt d 0x78)), (0x79, decide (3 < byteAt d 0x79)), (0x7C, !timingOk (u16At d 0x7C) (u16At d 0x7E) (u32At d 0x80))]
  else [(0x70, decide (byteAt d 0x70 = 0 ∨ 32 ≤ byteAt d 0x70)), (0x74, decide (dHOLD_MS d = 0 ∨ 3600000 < dHOLD_MS d))]

/-- The byte offset of the first field out of range (R273). -/
def State.fieldError (s : State) (all : List Task) (t : Task) : Option Nat :=
  ((s.commonErrors all t ++ s.bodyErrors all t).find? (·.2)).map (·.1)

/-! ### A descriptor as a task. -/

/-- Bytes with a part replaced. -/
def putBytesAt (b : List Byte) (off : Nat) (v : List Byte) : List Byte := b.take off ++ v ++ b.drop (off + v.length)

/-- A co-placed IQ_RECORD takes 0x24-0x3F from its trigger task (R280). -/
def effective (all : List Task) (d : List Byte) : List Byte :=
  match findTask all (dTRIGGER d) with
  | some m => putBytesAt d 0x24 ((m.desc.drop 0x24).take 0x1C)
  | none => d

/-- A task as a command entry describes it, with its extension and image as read: the task, or the rejection (R273, R276, R535). -/
def State.describe (s : State) (all : List Task) (base : Task) (e : List Byte) (ext image : Option (List Byte)) : Except (Nat × Nat × Nat) Task :=
  let d := effective all e
  let t := { base with desc := d, ext := [], pinned := dPINNED d, image := [] }
  match (s.commonErrors all t).find? (·.2) with
  | some x => .error (codeRANGE, subFIELD, x.1)
  | none =>
  if (dEXT_ADDR d ≠ 0 ∧ ext.isNone) ∨ (dTYPE d = 4 ∧ image.isNone) then .error (codeFAULT, subEXT_READ, 0)
  else
    let bytes := if dEXT_ADDR d = 0 then [] else (ext.getD []).take (dEXT_BYTES d)
    match parseItems (bytes.length / 8 + 1) 0 bytes with
    | .error off => .error (codeRANGE, subEXT_ITEM, off)
    | .ok items =>
      let t := { t with ext := items.map (·.2), image := if dTYPE d = 4 then image.getD [] else [] }
      match s.fieldError all t with
      | some off => .error (codeRANGE, subFIELD, off)
      | none =>
        match items.find? fun x => !itemOk d x.2 with
        | some x => .error (codeRANGE, subEXT_ITEM, x.1)
        | none =>
          match (if needsPipe d then s.relationError t items else none) with
          | some (sub, off) => .error (codeRANGE, sub, off)
          | none => if s.inputConflict all t || displayConflict all t then .error (codeSTATE, subCONFLICT, 0) else .ok t

end Sys2Proof.Machine
end

