-- ==== Sys2Proof/Machine/CoreOps.lean ====
section
/-! DEFINITION. Measurement cores (R512-R533): registers, memories, I/O words, input buffers, publishing, and one bundle. -/

namespace Sys2Proof.Machine

/-- Bits of ST. -/
def stBit (st i : Nat) : Bool := nbit st i

/-! ### Memories (R32, R512, R513). -/

/-- BAR0 addresses of a word of X, of Y, and of a bundle. -/
def coreX (n w : Nat) : Nat := 0x2000000 + n * 0x30000 + 4 * w
def coreY (n w : Nat) : Nat := coreX n w + 0x10000
def coreP (n w : Nat) : Nat := 0x2000000 + n * 0x30000 + 0x20000 + 8 * w

/-- A word of a BAR0 window. -/
def State.winWord (s : State) (addr : Nat) : Word := mget (fun _ => (0 : Word)) s.win (addr / 4)
def State.setWin (s : State) (addr : Nat) (v : Word) : State := { s with win := mput s.win (addr / 4) v }

/-- Bundle `pc` of a core. -/
def State.bundle (s : State) (n pc : Nat) : Nat := (s.winWord (coreP n pc)).toNat + (s.winWord (coreP n pc + 4)).toNat * 2 ^ 32

/-- Zero a core's memories (R535). -/
def State.zeroCore (s : State) (n : Nat) : State :=
  { s with win := s.win.filter fun e => !(decide (coreX n 0 ≤ 4 * e.1) && decide (4 * e.1 < coreX (n + 1) 0)) }

/-! ### MEASURE tasks on cores (R531, R536). -/

/-- The MEASURE task on a core, and its cores and inputs. -/
def State.measureOf (s : State) (n : Nat) : Option (Nat × Measure) :=
  let id := (s.reg (keyMC n) 0x114).toNat
  if id = 0 then none else (mfind s.measures (id % 4096)).map fun m => (id, m)

/-- Change input `j` of a task's cores. -/
def State.modInput (s : State) (id j : Nat) (f : MeasIn → MeasIn) : State :=
  match mfind s.measures (id % 4096) with
  | some m =>
    match m.inputs[j]? with
    | some x => { s with measures := mput s.measures (id % 4096) { m with inputs := setNth m.inputs j (f x) } }
    | none => s
  | none => s

/-- FLAGS of a block's marks (R256, R529). -/
def blockFlags (m : Nat) : Nat := marksToFlags (m % 32) ||| (if nbit m 5 then 8 else 0)

/-- MC_STAT.READY counts the filled buffers. -/
def State.refreshBufs (s : State) (n : Nat) : State := s.wf (keyMC n) Reg.MC_STAT.READY (s.core n).bufs.length

/-- IO_IN_RELEASE (R528, R529, R531). -/
def State.releaseBuf (s : State) (n addr : Nat) : State :=
  match (s.core n).bufs.find? fun b => decide (b.addr = addr) with
  | none => s
  | some b =>
    let s := (s.modCore n fun c => { c with bufs := c.bufs.erase b }).refreshBufs n
    match s.measureOf n with
    | none => s
    | some (id, _) => s.modInput id b.input fun x => { x with marks := x.marks ||| b.marks, label := b.label }

/-- IO_PUBLISH (R531). -/
def State.publish (s : State) (n j : Nat) : State :=
  let s := s.count (keyMC n) Reg.MC_PUBLISHES
  match s.measureOf n with
  | none => s
  | some (id, m) =>
    let words := (List.range m.outWords).map fun i => s.winWord (coreX n (s.rf (keyMC n) Reg.MC_OUT_CFG.BASE + i))
    s.modInput id j fun x =>
      { x with entry := some (words, blockFlags x.marks ||| (if x.poison then 8 else 0), x.label), entryCore := n, marks := 0, poison := false,
               pubs := satInc 0xFFFFFFFF x.pubs, stale := if x.stale = 2 then 0 else x.stale }

/-! ### I/O words (R528, R532, R533). -/

/-- Check-value unit page of a core (R532). -/
def coreCrc (n : Nat) : Nat := keyCRC (4 + 4 * (n / 32) + n % 4)

/-- Offsets of the CRC words from 0xC010 on. -/
def crcOffs : List Nat := [0x100, 0x104, 0x108, 0x10C, 0x110, 0x114, 0x118, 0x11C]

/-- Another core holds the unit. -/
def State.crcTaken (s : State) (n : Nat) : Bool := s.cores.any fun e => decide (e.1 ≠ n) && decide (coreCrc e.1 = coreCrc n) && e.2.crcHeld

/-- A read of an I/O word. -/
def State.ioRead (s : State) (n a : Nat) : State × Word :=
  let c := s.core n
  let k := coreCrc n
  if a = 0xC000 then (s, word (match c.bufs with | b :: _ => b.addr | [] => 0xFFFF))
  else if a = 0xC004 then (s.modCore n fun c => { c with cycHi := s.reg (keyMC n) 0x124 }, s.reg (keyMC n) 0x120)
  else if a = 0xC005 then (s, c.cycHi)
  else if a = 0xC008 then
    let ok := c.crcHeld || (!s.crcTaken n && decide ((s.page k).owner = .phoin))
    (if ok then s.modCore n fun c => { c with crcHeld := true } else s, word (boolNat ok))
  else if 0xC010 ≤ a ∧ a < 0xC018 then (s, if c.crcHeld then s.reg k (crcOffs.getD (a - 0xC010) 0x100) else 0)
  else if a = 0xC01E ∨ a = 0xC01F then (s, if c.crcHeld then (s.page k).res.getD (a - 0xC01E) 0 else 0)
  else if a = 0xC020 then (s, c.fabLo)
  else if a = 0xC021 then (s, c.fabHi)
  else if 0xC030 ≤ a then (s, (c.fabLine.getD []).getD (a - 0xC030) 0)
  else (s, 0)

/-- A write to the unit's registers and command word (R507, R532): START, STOP, FINISH with its result, RESEED. -/
def State.crcIo (s : State) (n a : Nat) (v : Word) : State :=
  let k := coreCrc n
  let active := decide ((s.page k).st = .active)
  let feed (bs : List Byte) := if !active then s.setErr k 17 else if (s.crcUnit k).feedPort then s.setErr k 18 else (s.loseHalf k).crcFeed k bs
  if a = 0xC010 then
    let s := if v.toNat % 4 = 3 then s.setErr k errRANGE else s.wf k Reg.CRC_CFG.POLY (v.toNat % 4)
    (s.wf k Reg.CRC_CFG.FEED (bitsOf v.toNat 4 4)).wf k Reg.CRC_CFG.FOLD_EN (bitsOf v.toNat 8 8)
  else if a = 0xC011 ∨ a = 0xC012 ∨ a = 0xC013 then s.setReg k (crcOffs.getD (a - 0xC010) 0x104) v
  else if a = 0xC018 then feed (leBytes v.toNat 1)
  else if a = 0xC019 then feed (leBytes v.toNat 2)
  else if a = 0xC01A then feed (leBytes v.toNat 4)
  else if a = 0xC01B then
    if !active then s.setErr k 17
    else if (s.crcUnit k).feedPort then s.setErr k 18
    else ((s.loseHalf k).modCrc k fun u => { u with half := some v }).refreshCrc k
  else if a = 0xC01C then
    match (s.crcUnit k).half with
    | some lo => (s.modCrc k fun u => { u with half := none }).crcFeed k (leBytes lo.toNat 4 ++ leBytes v.toNat 4)
    | none => if active then s else s.setErr k 17
  else if a = 0xC01D then
    if v = 1 then if (s.page k).st = .idle then (s.enter k .active).crcLoad k else s
    else if v = 2 then if active then s.enter k .idle else s
    else if v = 0x100 ∧ active then
      let s := s.loseHalf k
      (s.modPage k fun p => { p with res := [s.reg k 0x110, s.reg k 0x114, s.reg k 0x118, 0, 0, 0, 0, 0], resSeq := nextSeq p.resSeq }).crcLoad k
    else if v = 0x101 ∧ active then (s.loseHalf k).crcLoad k
    else s
  else s

/-- A write to an I/O word. -/
def State.ioWrite (s : State) (n a : Nat) (v : Word) : State :=
  let c := s.core n
  if a = 0xC001 then s.releaseBuf n (v.toNat % 65536)
  else if a = 0xC002 then s.publish n v.toNat
  else if a = 0xC003 then s.modCore n fun c => { c with sw := true }
  else if a = 0xC008 then s.modCore n fun c => { c with crcHeld := false }
  else if 0xC010 ≤ a ∧ a ≤ 0xC01D then if c.crcHeld then s.crcIo n a v else s
  else if a = 0xC020 then s.modCore n fun c => { c with fabLo := v, fabLine := if c.fabLo = v then c.fabLine else none }
  else if a = 0xC021 then s.modCore n fun c => { c with fabHi := word (v.toNat % 65536), fabLine := if c.fabHi = word (v.toNat % 65536) then c.fabLine else none }
  else s

/-! ### Faults, stops and interrupts (R526, R527, R537, R539). -/

/-- A core faults; its MEASURE task fails, and every core of the task is halted (R537, R539). -/
def State.coreFault (s : State) (n sub : Nat) : State :=
  let k := keyMC n
  let s := ((s.mcEnter n mcFAULT).wf k Reg.MC_STAT.FAULT_SUB sub).wf k Reg.MC_FAULT_PC.PC (s.mcPc n)
  let s := (s.setErr k 17).irqBit k 16
  let s := match (s.page k).op with | some op => if op.opcode = 0x0003 ∨ op.opcode = 0x0101 ∨ op.opcode = 0x0102 then s.failOp k codeFAULT sub else s | none => s
  match s.measureOf n with
  | none => s
  | some (id, _) => s.failTask id codeFAULT sub

/-- No LD or MAC result is still to land, and no delay slot is pending (R527). -/
def Core.interruptible (c : Core) : Bool := c.lands.isEmpty && c.xfer.isNone

/-- A stop that waits takes effect at an interruptible point; a HALT or SUSPEND command then ends (R539). -/
def State.coreStop (s : State) (n : Nat) : State :=
  let c := s.core n
  match c.stop with
  | none => s
  | some st =>
    if c.interruptible ∨ s.mcState n = mcWAITING then
      let steps := if st = mcSUSPENDED then c.steps else none
      let s := (s.modCore n fun c => { c with stop := none, before := s.mcState n, steps := steps }).mcEnter n st
      let s := if st = mcHALTED then s.irqBit (keyMC n) 17 else s
      match (s.page (keyMC n)).op with
      | some op =>
        if op.opcode = 0x0101 then s.doneOp (keyMC n)
        else if op.opcode = 0x0003 then (s.enter (keyMC n) .suspended).doneOp (keyMC n) else s
      | none => s
    else s

/-- The vector of the enabled pending interrupt of the higher priority (R526). -/
def Core.vector (c : Core) : Option Nat :=
  let st := c.reg regST
  if !stBit st 7 then none
  else if stBit st 8 && !c.bufs.isEmpty then some 0x0008
  else if stBit st 9 && c.sw then some 0x0010
  else none

/-! ### Arithmetic (R517, R518, R525). -/

/-- ST with Z and N of a 32-bit result. -/
def flagsZN (st v : Nat) : Nat := putBit (putBit st 0 (decide (v % 2 ^ 32 = 0))) 1 (nbit v 31)

/-- ST with C and V. -/
def flagsCV (st : Nat) (c v : Bool) : Nat := putBit (putBit st 2 c) 3 v

/-- Signed sum or difference out of 32 bits. -/
def overflows (x : Int) : Bool := decide (x < -(2 ^ 31 : Int)) || decide ((2 ^ 31 : Int) ≤ x)

/-- The result of an ALU operation, when it writes one, and ST (R517). -/
def aluOp (op a b imm st : Nat) : Option Nat × Nat :=
  let ia := signedOf 32 a
  let ib := signedOf 32 b
  let zn (v : Nat) := (some (v % 2 ^ 32), flagsZN st v)
  let addF (v : Nat) := flagsCV (flagsZN st v) (decide (2 ^ 32 ≤ a + b)) (overflows (ia + ib))
  let subF (v : Nat) := flagsCV (flagsZN st v) (Config.subCarry (word a) (word b)) (overflows (ia - ib))
  let diff := (a + 2 ^ 32 - b) % 2 ^ 32
  let asr (n : Nat) := unsignedOf 32 (ia / ((2 ^ n : Nat) : Int))
  if op = 0x01 then (some ((a + b) % 2 ^ 32), addF (a + b))
  else if op = 0x02 then (some diff, subF diff)
  else if op = 0x03 then zn (a &&& b)
  else if op = 0x04 then zn (a ||| b)
  else if op = 0x05 then zn (Nat.xor a b)
  else if op = 0x06 then zn (a * 2 ^ (b % 32) % 2 ^ 32)
  else if op = 0x07 then zn (a / 2 ^ (b % 32))
  else if op = 0x08 then zn (asr (b % 32))
  else if op = 0x09 then zn (a * 2 ^ imm % 2 ^ 32)
  else if op = 0x0A then zn (asr imm)
  else if op = 0x0B then (some (if ia ≤ ib then a else b), st)
  else if op = 0x0C then (some (if ia ≤ ib then b else a), st)
  else if op = 0x0D then
    if a = 2 ^ 31 then (some (2 ^ 31 - 1), putBit st 3 true) else (some ia.natAbs, st)
  else if op = 0x0E then (none, subF diff)
  else if op = 0x0F then
    let r := unsignedOf 32 (satSigned 32 (ia + ib))
    (some r, putBit (flagsCV (flagsZN st r) (decide (2 ^ 32 ≤ a + b)) (overflows (ia + ib))) 5 (stBit st 5 || overflows (ia + ib)))
  else if op = 0x10 then (some (a % 65536 + b % 65536 * 65536), st)
  else if op = 0x20 then (none, putBit st 7 true)
  else if op = 0x21 then (none, putBit st 7 false)
  else (none, st)

/-- ALU operations of format 0 that take part in control (R517, R522). -/
def aluControl (op : Nat) : Bool := decide (op = 0x22 ∨ op = 0x23 ∨ op = 0x24 ∨ op = 0x25 ∨ op = 0x26)

/-- A listed ALU operation whose b field is legal (R517). -/
def aluLegal (slot : Nat) : Bool :=
  let op := bitsOf slot 15 10
  decide (op ≤ 0x10 ∨ (0x20 ≤ op ∧ op ≤ 0x26)) &&
    !(decide (1 ≤ op ∧ op ≤ 0x10 ∧ op ≠ 0x09 ∧ op ≠ 0x0A ∧ op ≠ 0x0D) && nbit slot 3)

/-- A half of a word as a signed number. -/
def halfOf (v h : Nat) : Int := signedOf 16 (if h = 1 then v / 65536 % 65536 else v % 65536)

/-- An accumulator value wrapped to 40 bits, and whether it wrapped (R518). -/
def wrap40 (v : Int) : Nat × Bool := (unsignedOf 40 v, decide (v < -(2 ^ 39 : Int)) || decide ((2 ^ 39 : Int) ≤ v))

/-- Results of a MAC operation: accumulator numbers and values, and whether one wrapped (R518, R525). -/
def macOp (slot : Nat) (d : Nat → Nat) (acc : Nat → Nat) (frac : Bool) : List (Nat × Nat) × Bool :=
  let op := bitsOf slot 13 10
  let n := bitsOf slot 9 8
  let da := d (bitsOf slot 7 5)
  let db := d (bitsOf slot 3 1)
  let ha := bitsOf slot 4 4
  let hb := bitsOf slot 0 0
  let dbl (x : Int) : Int := if frac then 2 * x else x
  let p := dbl (halfOf da ha * halfOf db hb)
  let q := dbl (halfOf da 0 * halfOf db 0) + dbl (halfOf da 1 * halfOf db 1)
  let a (i : Nat) : Int := signedOf 40 (acc i)
  let one (v : Int) : List (Nat × Nat) × Bool := ([(n, (wrap40 v).1)], (wrap40 v).2)
  let sh := bitsOf slot 4 0
  if op = 1 then one p
  else if op = 2 then one (a n + p)
  else if op = 3 then one (a n - p)
  else if op = 4 then one q
  else if op = 5 then one (a n + q)
  else if op = 6 then one (a n - q)
  else if op = 7 then
    let m := Nat.xor n 1
    let x := wrap40 (a n + dbl (halfOf da 1 * halfOf db 1))
    let y := wrap40 (a m + dbl (halfOf da 0 * halfOf db 0))
    ([(n, x.1), (m, y.1)], x.2 || y.2)
  else if op = 8 then one 0
  else if op = 9 then one ((a n + 0x8000) / 65536 * 65536)
  else if op = 10 then one (-(a n))
  else if op = 11 then one (a n / ((2 ^ sh : Nat) : Int))
  else if op = 12 then one ((a n + (if sh = 0 then 0 else ((2 ^ (sh - 1) : Nat) : Int))) / ((2 ^ sh : Nat) : Int))
  else ([], false)

/-! ### Moves (R519, R523). -/

/-- Numbers of the pointer, offset, base and length registers of side X or Y. -/
def ptrReg (y : Bool) (n : Nat) : Nat := 12 + (if y then 4 else 0) + n
def offReg (y : Bool) (n : Nat) : Nat := 20 + (if y then 4 else 0) + n
def baseReg (y : Bool) (n : Nat) : Nat := 28 + (if y then 4 else 0) + n
def lenReg (y : Bool) (n : Nat) : Nat := 36 + (if y then 4 else 0) + n

/-- Post-modification of a pointer (R523). -/
def postMod (c : Core) (y : Bool) (n : Nat) : Nat :=
  let p : Int := c.reg (ptrReg y n)
  let o := signedOf 16 (c.reg (offReg y n))
  let b : Int := c.reg (baseReg y n)
  let l := c.reg (lenReg y n)
  if l = 0 then unsignedOf 16 (p + o) else unsignedOf 16 (b + (p + o - b) % (l : Int))

/-- What a move slot does: a pointer's new value, a register written at once, a register that lands later, a word stored, and
whether a store clamped. -/
structure MoveEffect where
  ptr : Option (Nat × Nat)
  now : Option (Nat × Nat)
  later : Option (Nat × Nat)
  store : Option (Nat × Word)
  sat : Bool
  deriving DecidableEq, Repr

def MoveEffect.nop : MoveEffect := { ptr := none, now := none, later := none, store := none, sat := false }

/-- A move slot decodes (R515, R519). -/
def moveLegal (m : Nat) : Bool :=
  let op := bitsOf m 15 13
  if 5 ≤ op then false
  else if op = 1 ∨ op = 2 then decide (bitsOf m 9 4 ≤ 50)
  else if op = 4 then decide (bitsOf m 12 7 ≤ 50) && decide (bitsOf m 6 1 ≤ 50)
  else true

/-- The address a move accesses, when it accesses one. -/
def moveAddr (c : Core) (y : Bool) (m : Nat) : Option Nat :=
  let op := bitsOf m 15 13
  if op = 1 ∨ op = 2 ∨ op = 3 then some (c.reg (ptrReg y (bitsOf m 12 11))) else none

/-- An address is mapped in its space (R513). -/
def mappedWord (y : Bool) (a : Nat) : Bool := decide (a < 0x4000) || (!y && decide (0xC000 ≤ a) && decide (a < 0xC040))

/-- Read a word of X or Y. -/
def State.coreRead (s : State) (n : Nat) (y : Bool) (a : Nat) : State × Word :=
  if y then (s, s.winWord (coreY n a)) else if a < 0x4000 then (s, s.winWord (coreX n a)) else s.ioRead n a

/-- Write a word of X or Y. -/
def State.coreWrite (s : State) (n : Nat) (y : Bool) (a : Nat) (v : Word) : State :=
  if y then s.setWin (coreY n a) v else if a < 0x4000 then s.setWin (coreX n a) v else s.ioWrite n a v

/-- The effect of a move slot that decodes and whose address is mapped. -/
def State.move (s : State) (n : Nat) (y : Bool) (m : Nat) : State × MoveEffect :=
  let c := s.core n
  let op := bitsOf m 15 13
  let i := bitsOf m 12 11
  let a := c.reg (ptrReg y i)
  let ptr := if nbit m 10 then some (ptrReg y i, postMod c y i) else none
  if op = 1 then
    let r := s.coreRead n y a
    (r.1, { MoveEffect.nop with ptr := ptr, later := some (bitsOf m 9 4, wordFor (bitsOf m 9 4) r.2.toNat) })
  else if op = 2 then
    let r := bitsOf m 9 4
    let v := c.reg r
    let clamp := isAcc r && nbit m 3 && overflows (signedOf 40 v)
    let v := if clamp then unsignedOf 32 (satSigned 32 (signedOf 40 v)) else v % 2 ^ 32
    (s, { MoveEffect.nop with ptr := ptr, store := some (a, word v), sat := clamp })
  else if op = 3 then
    let v := (signedOf 40 (c.reg (8 + bitsOf m 9 8)) + 0x8000) / 65536
    let clamp := nbit m 7 && (decide (v < -32768) || decide (32767 < v))
    let h := if clamp then unsignedOf 16 (satSigned 16 v) else unsignedOf 16 v
    let old := if a < 0x4000 then (s.coreRead n y a).2.toNat else 0
    let w := if nbit m 6 then old % 65536 + h * 65536 else old / 65536 * 65536 + h
    (s, { MoveEffect.nop with ptr := ptr, store := some (a, word w), sat := clamp })
  else if op = 4 then
    let d := bitsOf m 12 7
    let src := bitsOf m 6 1
    let v := if isAcc src && isAcc d then c.reg src else wordFor d (c.reg src)
    (s, { MoveEffect.nop with now := some (d, v) })
  else (s, MoveEffect.nop)

/-! ### One bundle (R516-R524). -/

/-- A condition of BR (R520). -/
def condHolds (cond st : Nat) : Bool :=
  let z := stBit st 0
  let n := stBit st 1
  let c := stBit st 2
  let v := stBit st 3
  match cond with
  | 0 => true
  | 1 => z
  | 2 => !z
  | 3 => n != v
  | 4 => n == v
  | 5 => !z && n == v
  | 6 => z || n != v
  | 7 => c
  | 8 => !c
  | 9 => n
  | 10 => !n
  | _ => v

/-- A bundle holds a control operation (R522). -/
def bundleControl (w : Nat) : Bool :=
  if bitsOf w 63 62 = 0 then aluControl (bitsOf w 61 56)
  else decide (2 ≤ bitsOf w 61 54 ∧ bitsOf w 61 54 ≤ 5)

/-- A bundle decodes (R515-R520). -/
def bundleLegal (w : Nat) : Bool :=
  let f := bitsOf w 63 62
  let op := bitsOf w 61 54
  if f = 0 then aluLegal (bitsOf w 61 46) && decide (bitsOf w 45 42 ≤ 12) && moveLegal (bitsOf w 31 16) && moveLegal (bitsOf w 15 0)
  else if f = 1 then
    decide (1 ≤ op ∧ op ≤ 6) && (decide (op ≠ 1) || decide (bitsOf w 53 48 ≤ 50)) && (decide (op ≠ 2) || decide (bitsOf w 53 50 ≤ 11))
  else false

/-- A control operation may not stand here: in a delay slot, or at the end of a loop (R522). -/
def Core.noControl (c : Core) (pc : Nat) : Bool :=
  c.xfer.isSome || (decide (c.reg regLC ≠ 0) && decide (pc ≤ c.reg regLE ∧ c.reg regLE ≤ pc + 2))

/-- The value of an accumulator as the next MAC operation sees it (R521). -/
def Core.macAcc (c : Core) (n : Nat) : Nat :=
  match (c.lands.filter fun w => w.mac && w.fwd && decide (w.reg = 8 + n)).getLast? with
  | some w => w.value
  | none => c.reg (8 + n)

/-- Where a control operation sends the core: its transfer, or a stop in WAITING or HALTED. -/
structure Control where
  xfer : Option (Nat × Bool)
  wait : Bool
  halt : Bool
  writes : List (Nat × Nat)
  deriving DecidableEq, Repr

def Control.nop : Control := { xfer := none, wait := false, halt := false, writes := [] }

/-- The control part of a bundle (R517, R520, R522, R524). -/
def Core.control (c : Core) (pc w : Nat) : Control :=
  let st := c.reg regST
  let imm := bitsOf w 31 0
  let loop (count : Nat) : Control :=
    let e := imm % 8192
    { Control.nop with writes := [(regLE, e), (regLS, (pc + 3) % 8192), (regLC, count)],
                       xfer := some (if count = 0 then (e + 1) % 8192 else (pc + 3) % 8192, false) }
  if bitsOf w 63 62 = 0 then
    let slot := bitsOf w 61 46
    let op := bitsOf slot 15 10
    if op = 0x22 then { Control.nop with wait := true }
    else if op = 0x23 then { Control.nop with halt := true }
    else if op = 0x24 then { Control.nop with xfer := some (c.reg regSPC, true) }
    else if op = 0x25 then { Control.nop with xfer := some (c.reg regLR, false) }
    else if op = 0x26 then { Control.nop with xfer := some (c.reg (bitsOf slot 6 4) % 8192, false) }
    else Control.nop
  else
    let op := bitsOf w 61 54
    if op = 2 then if condHolds (bitsOf w 53 50) st then { Control.nop with xfer := some (imm % 8192, false) } else Control.nop
    else if op = 3 then { Control.nop with xfer := some (imm % 8192, false), writes := [(regLR, (pc + 3) % 8192)] }
    else if op = 4 then loop (bitsOf imm 31 16)
    else if op = 5 then loop (c.reg (bitsOf w 50 48) % 65536)
    else Control.nop

/-- The next program address, the transfer that remains, and LC (R522, R524). -/
def Core.advance (c : Core) (pc : Nat) (new : Option (Nat × Bool)) : Nat × Core :=
  let lc := c.reg regLC
  let looped := decide (pc = c.reg regLE ∧ lc ≠ 0)
  let c' := if looped then c.put regLC (lc - 1) else c
  let next := if looped && decide (lc ≠ 1) then c.reg regLS else (pc + 1) % 8192
  match c.xfer with
  | some (1, t, _) => (t, { c' with xfer := none })
  | some (k, t, rti) => (next, { c' with xfer := some (k - 1, t, rti) })
  | none => (next, { c' with xfer := new.map fun x => (2, x.1, x.2) })

/-- The X access of a bundle reads a fabric word whose line the core does not hold (R533). -/
def Core.wantsFabric (c : Core) (w : Nat) : Bool :=
  decide (bitsOf w 63 62 = 0) && decide (bitsOf w 31 29 = 1) && c.fabLine.isNone &&
    decide (0xC030 ≤ c.reg (ptrReg false (bitsOf w 28 27)) ∧ c.reg (ptrReg false (bitsOf w 28 27)) ≤ 0xC03F)

/-- The user address of FAB_ADDR. -/
def Core.fabAddr (c : Core) : Nat := (c.fabLo.toNat + c.fabHi.toNat * 2 ^ 32) / 64 * 64

/-- The line lies in the memory granted to the task's SOURCE_TASK (R533). -/
def State.fabGranted (s : State) (n : Nat) : Bool :=
  match s.measureOf n with
  | none => false
  | some (id, _) =>
    match s.task id with
    | none => false
    | some t =>
      match s.task (u32At t.desc 0x80) with
      | none => false
      | some src =>
        let a := (s.core n).fabAddr
        src.pieces.any fun p => decide (p.base ≤ a) && decide (a + 64 ≤ p.base + p.bytes)

/-- Execute a bundle that decodes and whose addresses are mapped. -/
def State.execBundle (s : State) (n w : Nat) : State :=
  let pc := s.mcPc n
  let c := s.core n
  let st := c.reg regST
  let ctl := c.control pc w
  let fmt0 := decide (bitsOf w 63 62 = 0)
  let slot := bitsOf w 61 46
  let d (i : Nat) := c.reg i
  let alu := if fmt0 then aluOp (bitsOf slot 15 10) (d (bitsOf slot 6 4)) (d (bitsOf slot 2 0)) (bitsOf slot 3 0) st else (none, st)
  let imm := bitsOf w 31 0
  let add := aluOp 0x01 (d (bitsOf w 50 48)) imm 0 st
  let mac := if fmt0 then macOp (bitsOf w 45 32) d c.macAcc (stBit st 6) else ([], false)
  let x := if fmt0 then s.move n false (bitsOf w 31 16) else (s, MoveEffect.nop)
  let y := if fmt0 then x.1.move n true (bitsOf w 15 0) else (x.1, MoveEffect.nop)
  let s := y.1
  let writes := x.2.ptr.toList ++ y.2.ptr.toList ++
    (match alu.1 with | some v => [(bitsOf slot 9 7, v)] | none => []) ++ ctl.writes ++
    (if !fmt0 && decide (bitsOf w 61 54 = 1) then [(bitsOf w 53 48, wordFor (bitsOf w 53 48) imm)] else []) ++
    (if !fmt0 && decide (bitsOf w 61 54 = 6) then [(bitsOf w 50 48, add.1.getD 0)] else []) ++ x.2.now.toList ++ y.2.now.toList
  let flags := if !fmt0 && decide (bitsOf w 61 54 = 6) then add.2 else alu.2
  let flags := if mac.2 then putBit flags 4 true else flags
  let flags := if x.2.sat || y.2.sat then putBit flags 5 true else flags
  let next := c.advance pc ctl.xfer
  let later := mac.1.map (fun m => ({ reg := 8 + m.1, value := m.2, mac := true, age := 0, fwd := true } : CoreWrite)) ++
    (x.2.later.toList ++ y.2.later.toList).map fun r => ({ reg := r.1, value := r.2, mac := false, age := 0, fwd := false } : CoreWrite)
  let s := s.modCore n fun c1 =>
    let c2 := { next.2 with cycHi := c1.cycHi, crcHeld := c1.crcHeld }
    let c2 := c2.land
    let c2 := if flags = st then c2 else { c2 with regs := mput c2.regs regST flags }
    let c2 := writes.foldl (fun c r => c.put r.1 r.2) c2
    let c2 := match c.xfer with | some (1, _, true) => c2.put regST (c.reg regSST) | _ => c2
    { c2 with lands := c2.lands ++ later }
  let s := (s.setPc n next.1).setPair (keyMC n) 0x120 (s.pair (keyMC n) 0x120 + 1)
  let s := match x.2.store with | some (a, v) => s.coreWrite n false a v | none => s
  let s := match y.2.store with | some (a, v) => s.coreWrite n true a v | none => s
  if ctl.wait then (s.modCore n Core.landAll).mcEnter n mcWAITING
  else if ctl.halt then ((s.modCore n fun c => { c.landAll with before := mcRUNNING, steps := none }).mcEnter n mcHALTED).irqBit (keyMC n) 17
  else s

/-- One bundle issues: a pending fabric read stalls the core, a bundle that does not decode or names an unmapped address faults
(R513, R516, R522, R533). -/
def State.issue (s : State) (n : Nat) : State :=
  let pc := s.mcPc n
  let w := s.bundle n pc
  let c := s.core n
  if !bundleLegal w || (bundleControl w && c.noControl pc) then s.coreFault n subILLEGAL
  else
    let fmt0 := decide (bitsOf w 63 62 = 0)
    let bad (y : Bool) (m : Nat) := match moveAddr c y m with | some a => !mappedWord y a | none => false
    if fmt0 && (bad false (bitsOf w 31 16) || bad true (bitsOf w 15 0)) then s.coreFault n subADDRESS
    else if c.wantsFabric w then
      if s.fabGranted n then s.modCore n fun c => { c with fabWait := true } else s.coreFault n subFABRIC
    else s.execBundle n w

end Sys2Proof.Machine
end

