-- ==== Sys2Proof/Machine/Cores.lean ====
section
/-! DEFINITION. Measurement cores: the MC commands, bundles and interrupts, input blocks, and MEASURE records (R516, R526-R540). -/

namespace Sys2Proof.Machine

/-! ### MC commands (R539, R540). -/

/-- RUN: from IDLE at ARG0, from HALTED at ARG0 or where it stopped (R539). -/
def execRun (who : Issuer) (core : Fin 64) (tag : Nat) (s : State) : Res :=
  let n : Nat := core
  let k := keyMC n
  .next (s.command who k 0x0100 tag fun s op =>
    let st := s.mcState n
    if st ≠ mcIDLE ∧ st ≠ mcHALTED then s.rejectOp k op codeSTATE 0x04
    else if op.a0 = 0xFFFFFFFF ∧ st = mcHALTED then ((s.accept k op).mcEnter n mcRUNNING).doneOp k
    else if 0x1FFF < op.a0 then s.rejectOp k op codeRANGE 0x05
    else
      let s := (s.accept k op).modCore n fun c => { c.landAll with xfer := none, stop := none, steps := none }
      ((s.setPc n op.a0).mcEnter n mcRUNNING).doneOp k)

/-- HALT: the core halts at an interruptible point (R539). -/
def execHalt (who : Issuer) (core : Fin 64) (tag : Nat) (s : State) : Res :=
  let n : Nat := core
  let k := keyMC n
  .next (s.command who k 0x0101 tag fun s op =>
    if s.mcState n ≠ mcRUNNING ∧ s.mcState n ≠ mcWAITING then s.rejectOp k op codeSTATE 0
    else ((s.accept k op).modCore n fun c => { c with stop := some mcHALTED }).coreStop n)

/-- STEP: a halted core issues ARG0 bundles (R539). -/
def execStep (who : Issuer) (core : Fin 64) (tag : Nat) (s : State) : Res :=
  let n : Nat := core
  let k := keyMC n
  .next (s.command who k 0x0102 tag fun s op =>
    if s.mcState n ≠ mcHALTED then s.rejectOp k op codeSTATE 0x04
    else if op.a0 = 0 ∨ 65535 < op.a0 then s.rejectOp k op codeRANGE 0
    else ((s.accept k op).modCore n fun c => { c with steps := some op.a0 }).mcEnter n mcRUNNING)

/-- SWINT: sets SW pending (R526, R540). -/
def execSwint (who : Issuer) (core : Fin 64) (tag : Nat) (s : State) : Res :=
  let n : Nat := core
  let k := keyMC n
  .next (s.command who k 0x0103 tag fun s op => ((s.accept k op).modCore n fun c => { c with sw := true }).doneOp k)

/-! ### Bundles and interrupts (R516-R527, R533). -/

/-- After a bundle, a STEP counts down and a stop that waits may take effect (R539). -/
def State.afterBundle (s : State) (n : Nat) : State :=
  match (s.core n).steps with
  | some 1 =>
    let s := s.modCore n fun c => { c with steps := none, before := mcRUNNING }
    let s := if s.mcState n = mcRUNNING ∨ s.mcState n = mcWAITING then (s.mcEnter n mcHALTED).irqBit (keyMC n) 17 else s
    s.doneOp (keyMC n)
  | some k =>
    if s.mcState n = mcHALTED ∨ s.mcState n = mcFAULT then (s.modCore n fun c => { c with steps := none }).doneOp (keyMC n)
    else (s.modCore n fun c => { c with steps := some (k - 1) }).coreStop n
  | none =>
    match (s.page (keyMC n)).op with
    | some op => if op.opcode = 0x0102 ∧ s.mcState n = mcHALTED then s.doneOp (keyMC n) else s.coreStop n
    | none => s.coreStop n

/-- BUNDLE_ISSUE: a running core of an ACTIVE page that waits for no fabric read issues the bundle at its PC (R516, R539). -/
def execBundleIssue (core : Fin 64) (s : State) : Res :=
  let n : Nat := core
  if s.mcState n ≠ mcRUNNING ∨ (s.core n).fabWait ∨ !s.isActive (keyMC n) then .next s
  else
    let t := s.issue n
    if (t.core n).fabWait then .next t else .next (t.afterBundle n)

/-- INTERRUPT_ENTRY: at an interruptible point the enabled pending interrupt of the higher priority saves the address of the next
bundle and ST, clears IE and issues its vector (R526, R527). -/
def execInterruptEntry (core : Fin 64) (s : State) : Res :=
  let n : Nat := core
  let c := s.core n
  let st := s.mcState n
  if (st ≠ mcRUNNING ∧ st ≠ mcWAITING) ∨ c.fabWait ∨ !s.isActive (keyMC n) ∨ !c.interruptible then .next s
  else
    match c.vector with
    | none => .next s
    | some v =>
      let old := c.reg regST
      let s := s.modCore n fun c =>
        let c := ((c.put regSPC (s.mcPc n)).put regSST old).put regST (putBit old 7 false)
        { c with sw := c.sw && decide (v ≠ 0x0010) }
      .next ((s.setPc n v).mcEnter n mcRUNNING)

/-- FAB_READ_COMPLETE: the line reaches the core, and the stall cycles are counted; a completion other than OK is a core fault, and
a poisoned line reads as zeros (R533). -/
def execFabReadComplete (core : Fin 64) (ok : Bool) (cycles : Nat) (s : State) : Res :=
  let n : Nat := core
  let c := s.core n
  let way := s.memPath (1 + n / 32) c.fabAddr
  if !c.fabWait ∨ way = .waits then .next s
  else
    let s := (s.modCore n fun c => { c with fabWait := false }).countBy (keyMC n) Reg.MC_STALLS cycles
    if !ok ∨ way = .fenced then .next (s.coreFault n subFABRIC)
    else
      let r := s.readLine c.fabAddr
      let line := (List.range 16).map fun i => if r.2 then (0 : Word) else word (u32At r.1 (4 * i))
      let s := s.modCore n fun c => { c with fabLine := some line }
      .next (if r.2 then
          match s.measureOf n with
          | some (id, m) =>
            s.each ((List.range m.inputs.length).filter fun j => match m.inputs[j]? with | some x => decide (x.core = n ∨ x.inset = none) | none => false)
              fun s j => s.modInput id j fun x => { x with poison := true }
          | none => s
        else s)

/-! ### Input blocks (R529, R530, R536). -/

/-- The core that takes the next block of an input: its own, or block b on core b mod c for the one input of an IQ_RECORD
(R536). -/
def Measure.coreFor (m : Measure) (x : MeasIn) : Nat := if x.inset.isSome then x.core else m.cores.getD (x.block % max 1 m.cores.length) 0

/-- Samples of one block of a core. -/
def State.blockSize (s : State) (n : Nat) : Nat := s.rf (keyMC n) Reg.MC_IN_CFG.WORDS - 4

/-- What the next block of an input is: not yet committed, discarded with the epoch (and where the next block begins), or its
label, period, words and marks. -/
inductive Block where
  | later
  | lost (next : Nat)
  | ready (label period : Nat) (words : List Word) (marks : Nat)
  deriving DecidableEq, Repr

/-- The next block from the ring of an IQ_RECORD task (R233, R234, R530). -/
def State.ringBlock (s : State) (p w n : Nat) : Block :=
  if w < s.epochWc p then .lost (s.epochWc p)
  else if s.capWc p < w + n then .later
  else
    let fmt := s.af (keyCAP p) Reg.CAP_CFG.FORMAT
    let ep := (s.capture p).epochP
    let raw := s.readSlots (s.baseAddr (keyCAP p) 0x104) (sampleBytes fmt) (s.ringL p) (if fmt = 2 then w / 2 * 2 else w) (if fmt = 2 then (n + 1 + w % 2) / 2 * 2 else n)
    let words := if fmt = 2 then
        (List.range n).map fun i =>
          let j := i + w % 2
          let v := leAt raw.1 (6 * (j / 2)) 6 / 2 ^ (24 * (j % 2)) % 2 ^ 24
          word (v % 4096 * 16 + v / 4096 * 16 * 65536)
      else (List.range n).map fun i => word (u32At raw.1 (4 * i))
    let marks := s.rangeMarks p w n % 32 + (if raw.2 then 32 else 0)
    .ready (s.epochSix p + (w - s.epochWc p) * ep) ep words marks

/-- The next block of an inset: its outputs as 16-bit I and Q, and the OR of their marks. Labels for which it has no output read 0 with
GAP_BEFORE (log entry 82). -/
def State.insetBlock (s : State) (p k w n base : Nat) : Block :=
  let per := insPeriod s p k
  let label := base + w * per
  let i := s.inset p k
  if i.nextLabel < label + n * per then .later
  else
    let xs := (List.range n).map fun j => i.outs.find? fun x => decide (x.1 = label + j * per)
    .ready label per (xs.map fun x => match x with | some (_, a, b, _) => word (unsignedOf 16 a + unsignedOf 16 b * 65536) | none => 0)
      ((xs.foldl (fun m x => m ||| match x with | some (_, _, _, k) => k | none => markGAP) 0) % 64)
where
  /-- Label period of an inset (R154). -/
  insPeriod (s : State) (p k : Nat) : Nat :=
    let cfg := s.areg (keyINS p) (0x400 + 0x10 * k)
    let r := if wbit cfg 8 then 25 * 2 ^ wget cfg 4 0 else 2 ^ wget cfg 4 0
    if s.bonded (s.governor p) then r else 2 * r

/-- A block that is not delivered because it was discarded or dropped (R530). -/
def State.dropBlock (s : State) (n id j next : Nat) : State :=
  let s := (s.count (keyMC n) Reg.MC_IN_DROPPED).setErr (keyMC n) 16
  s.modInput id j fun x => { x with next := next, block := x.block + 1, gap := true }

/-- A ready block reaches a free buffer, is withheld, or is dropped (R529-R531). -/
def State.deliver (s : State) (n id j next label period : Nat) (words : List Word) (marks : Nat) (gap : Bool) (block : Nat) : State :=
  let base := s.rf (keyMC n) Reg.MC_IN_CFG.BASE
  let size := s.rf (keyMC n) Reg.MC_IN_CFG.WORDS
  if hasMark marks markSTALE then
    (s.count (keyMC n) Reg.MC_IN_STALE).modInput id j fun x => { x with next := next, block := x.block + 1, stale := 1 }
  else
    match [base, base + size].find? fun a => (s.core n).bufs.all fun b => decide (b.addr ≠ a) with
    | none => s.dropBlock n id j next
    | some a =>
      if s.mcState n = mcSUSPENDED then s.dropBlock n id j next
      else
        let marks := marks ||| (if gap then markGAP else 0)
        let head := [word (j % 256 + block % 256 * 256 + marks % 65536 * 65536), word label, word (label / 2 ^ 32), word (label / 2 ^ 64 % 256 + period * 256)]
        let all := head ++ words
        let s := s.each ((List.range all.length).zip all) fun s x => s.setWin (coreY n (a + x.1)) x.2
        let s := (s.modCore n fun c => { c with bufs := c.bufs ++ [{ addr := a, input := j, label := label, marks := marks }] }).refreshBufs n
        s.modInput id j fun x => { x with next := next, block := x.block + 1, gap := false, stale := if x.stale = 1 then 2 else x.stale }

/-- INPUT_BLOCK: the next block of an input of a MEASURE task is delivered, withheld or dropped; one not yet committed waits
(R529, R530). -/
def execInputBlock (task : BitVec 32) (input : Fin 64) (_samples _marks : Unit) (s : State) : Res :=
  let id := task.toNat
  match s.task id, mfind s.measures (id % 4096) with
  | some t, some m =>
    match m.inputs[input.val]? with
    | none => .next s
    | some x =>
      if t.st ≠ .running then .next s
      else
        let n := m.coreFor x
        let size := s.blockSize n
        let r := match x.inset with
          | some (p, k) => s.insetBlock p k x.next size x.base
          | none =>
            match s.task (u32At t.desc 0x80) with
            | some src => s.ringBlock (src.pipes.headD 0) x.next size
            | none => .later
        match r with
        | .later => .next s
        | .lost w => .next (s.dropBlock n id input w)
        | .ready label period words mk => .next (s.deliver n id input (x.next + size) label period words mk x.gap x.block)
  | _, _ => .next s

/-! ### Starting and stopping the cores of a task (R534-R537). -/

/-- Load words of a section. -/
def State.loadSection (s : State) (n : Nat) (x : Nat × Nat × List Byte) : State :=
  let addr := if x.1 = 0 then coreX n x.2.1 else if x.1 = 1 then coreY n x.2.1 else coreP n x.2.1
  s.each (List.range (x.2.2.length / 4)) fun s i => s.setWin (addr + 4 * i) (word (u32At x.2.2 (4 * i)))

/-- Start one core of a task from its image (R535). -/
def State.startCore (s : State) (t : Task) (n : Nat) : State :=
  let k := keyMC n
  let b := t.image
  let s := s.each (sectionsOf (b.drop 32) (u16At b 6)) (fun s x => s.loadSection n x) |> fun s => s
  let s := s.each (List.range 16) fun s i => s.setWin (coreX n i) (word (u32At t.desc (0x90 + 4 * i)))
  let s := { s with cores := mput s.cores n Core.init }
  let s := (s.setReg k 0x10C (word (u16At b 8 + u16At b 10 * 65536))).setReg k 0x110 (word (u16At b 12 + u16At b 14 * 65536))
  let s := (s.setReg k 0x114 (word t.id)).setPair k 0x120 0
  let s := [0x128, 0x12C, 0x130, 0x134].foldl (fun s o => s.setReg k o 0) s
  (((s.setPc n (u16At t.desc 0x7E)).mcEnter n mcRUNNING).refreshBufs n).enter k .active

/-- Cores granted to a task. -/
def Task.cores (t : Task) : List Nat := (t.grants.filter fun g => decide (g.cls = 8)).flatMap fun g => (List.range g.amount).map (g.inst + ·)

/-- The inputs of a task: one for each set bit of INPUTS, in order, or the writer of an IQ_RECORD task (R536). -/
def State.measureInputs (s : State) (t : Task) (cores : List Nat) : List MeasIn :=
  let new : MeasIn :=
    { core := 0, inset := none, next := 0, base := 0, block := 0, gap := false, stale := 0, marks := 0, label := 0, pubs := 0, entry := none,
      entryCore := 0, poison := false }
  match s.task (u32At t.desc 0x80) with
  | none => []
  | some src =>
    if dTYPE src.desc = 2 then [{ new with next := s.capWc (src.pipes.headD 0), core := cores.headD 0, entryCore := cores.headD 0 }]
    else
      let ins := bitsSet (u64At t.desc 0x88) 64
      let c := cores.length
      (List.range ins.length).map fun j =>
        let k := ins.getD j 0
        let p := src.pipes.headD 0
        let phys := match src.maps.find? fun m => decide (m.res = 0x104 ∧ m.rel = k) with | some m => m.phys | none => k
        let n := cores.getD (j * c / max 1 ins.length) 0
        let p := src.pipes.getD (phys / 64) p
        { new with core := n, entryCore := n, inset := some (p, phys % 64), base := (s.inset p (phys % 64)).nextLabel }

/-- Start the cores of a MEASURE task; after a restart, published entries keep their values and the next record carries
MIGRATED (R535, R537). -/
def State.coresStart (s : State) (t : Task) : State :=
  let cores := t.cores
  let s := s.each cores fun s n => (s.zeroCore n).startCore t n
  let inputs := s.measureInputs t cores
  let period := u32At t.desc 0x84 * sixPerUs
  let old := mfind s.measures (t.id % 4096)
  let inputs := match old with
    | some m => (List.range inputs.length).filterMap fun j =>
        inputs[j]?.map fun x => match m.inputs[j]? with | some y => { x with entry := y.entry, pubs := y.pubs, entryCore := y.entryCore } | none => x
    | none => inputs
  let m : Measure := { cores := cores, inputs := inputs, imageCrc := u32At t.image 0x10, outWords := u16At t.image 14, migrated := old.isSome,
                       nextAt := if period = 0 then s.six else (s.six / period + 1) * period }
  { s with measures := mput s.measures (t.id % 4096) m }

/-! ### MEASURE records (R538). -/

/-- The 24 + 4 × OUT_WORDS bytes of an input's entry. -/
def MeasIn.bytes (x : MeasIn) (j outWords : Nat) : List Byte :=
  let e := match x.entry with
    | some (ws, flags, label) => (ws, flags ||| (if x.stale ≠ 0 then 2 else 0), label)
    | none => (List.replicate outWords 0, 4096 ||| (if x.stale ≠ 0 then 2 else 0), 0)
  leBytes j 1 ++ leBytes x.entryCore 1 ++ leBytes e.2.1 2 ++ leBytes x.pubs 4 ++ leBytes e.2.2 8 ++ leBytes (e.2.2 / 2 ^ 64 % 256) 1 ++ leBytes 0 7 ++
    e.1.flatMap fun w => leBytes w.toNat 4

/-- FLAGS of an input's entry. -/
def MeasIn.flags (x : MeasIn) : Nat := (match x.entry with | some (_, f, _) => f | none => 0) ||| (if x.stale ≠ 0 then 2 else 0)

/-- MEASURE_RECORD: the record of the published entries at the next PERIOD_US boundary (R538). -/
def execMeasureRecord (task : BitVec 32) (s : State) : Res :=
  let id := task.toNat
  match s.task id, mfind s.measures (id % 4096) with
  | some t, some m =>
    if t.st ≠ .running ∨ dDEST t.desc = 0 then .next s
    else
      let s := s.advanceTo m.nextAt
      let payload := leBytes m.inputs.length 2 ++ leBytes m.outWords 2 ++ leBytes (u32At t.desc 0x84) 4 ++ leBytes m.imageCrc 4 ++ leBytes 0 4 ++
        (List.range m.inputs.length).flatMap fun j => match m.inputs[j]? with | some x => x.bytes j m.outWords | none => []
      let flags := (m.inputs.foldl (fun f x => f ||| x.flags) 0) % 4096 ||| (if m.migrated then 4 else 0)
      let region := 1 + m.cores.headD 0 / 32
      let r : Record := { kind := 6, flags := flags, task := id, source := region * 4096 + 0xF00 + 0xFF, trigMask := 0, six := m.nextAt, fine := 0,
                          pre := 0, post := 0, payload := payload }
      let s := { s with measures := mput s.measures (id % 4096) { m with migrated := false, nextAt := m.nextAt + u32At t.desc 0x84 * sixPerUs } }
      .next (s.addReady .none r)
  | _, _ => .next s

end Sys2Proof.Machine
end

