-- ==== Sys2Proof/Machine/Display.lean ====
section
/-! DEFINITION. Scan-out: composition, vertical syncs, outputs, genlock, refills and low refresh (R541-R558). -/

namespace Sys2Proof.Machine

/-! ### Composition (R544-R547). -/

/-- Red, green and blue. -/
abbrev Pixel := Nat × Nat × Nat

/-- An entry of a LUT bank (R547). -/
def State.lut (s : State) (bank i : Nat) : Pixel :=
  let w := (mget (fun _ => (0 : Word)) s.win ((0x3A00000 + bank * 0x400 + 4 * i) / 4)).toNat
  (w / 65536 % 256, w / 256 % 256, w % 256)

/-- One component blended (R545). -/
def blend1 (a s d : Nat) : Nat := (a * s + (255 - a) * d + 127) / 255

/-- A pixel under an ARGB8888 word (R545). -/
def blendPixel (argb : Nat) (p : Pixel) : Pixel :=
  let a := argb / 2 ^ 24 % 256
  (blend1 a (argb / 65536 % 256) p.1, blend1 a (argb / 256 % 256) p.2.1, blend1 a (argb % 256) p.2.2)

/-- The running DISPLAY_FEED. -/
def State.feedTask (s : State) : Option Task := s.holdingTasks.find? fun t => decide (dTYPE t.desc = 6)

/-- GRT_CFG and GRT_ROWS of the feed's GRT_TASK; without one, GEOMETRY 0 and the reset value of GRT_ROWS (R544). -/
def State.feedRows (s : State) : Nat × Word :=
  match s.feedTask with
  | some t =>
    match s.task (u32At t.desc 0x70) with
    | some g => (u32At g.desc 0x8C % 2, word (u32At g.desc 0x98))
    | none => (0, word 25)
  | none => (0, word 25)

/-- Columns W and rows V of a geometry (R179). -/
def geometryW (g : Nat) : Nat := if g = 1 then 2048 else 1024
def geometryV (g : Nat) : Nat := if g = 1 then 256 else 512

/-- The index of a pixel in the INDEX plane of a GRATICULE payload (R189, R544). -/
def indexAt (payload : List Byte) (w h x y : Nat) : Nat :=
  let g := byteAt payload 1
  let planes := byteAt payload 0
  let off := 48 + (if nbit planes 0 then 0x200000 else 0) + (if nbit planes 1 then 0x200000 else 0)
  byteAt payload (off + y * geometryV g / h * geometryW g + x * geometryW g / w)

/-- The row of a trace level (R544). -/
def traceRow (rows : Nat × Word) (h : Nat) (v : Int) : Nat :=
  let top := signedOf 16 (wget rows.2 31 16)
  let step := max 1 (wget rows.2 13 0) * geometryV rows.1
  let r := (top - v) * (h : Int) / (step : Int)
  if r < 0 then 0 else min r.toNat (h - 1)

/-- First and last row of the trace in each column: none where no point covers it (R544). -/
def traceColumns (rows : Nat × Word) (payload : List Byte) (w h : Nat) : List (Option (Nat × Nat)) :=
  let t := max 1 (u16At payload 0x16)
  let row (i : Nat) := traceRow rows h (signedOf 16 (u16At payload (0x20 + 2 * i)))
  (List.range w).map fun x =>
    match (List.range t).find? fun i => decide (i * w / t ≤ x) && decide (x < (i + 1) * w / t) with
    | none => none
    | some i =>
      let b := row i
      let a := if i = 0 then b else row (i - 1)
      some (min a b, max a b)

/-- The cursor's word at a pixel (R546). -/
def cursorAt (header image : List Byte) (x y : Nat) : Option Nat :=
  let cx := (x : Int) - signedOf 16 (u16At header 0)
  let cy := (y : Int) - signedOf 16 (u16At header 2)
  if nbit (u16At header 4) 0 ∧ 0 ≤ cx ∧ cx < 64 ∧ 0 ≤ cy ∧ cy < 64 then some (u32At image (4 * (64 * cy.toNat + cx.toNat))) else none

/-- One pixel of a generator's frame, bottom to top (R544). -/
def State.composePixel (s : State) (c : Scan) (trace : List (Option (Nat × Nat))) (w h x y : Nat) : Pixel :=
  let layers := s.af keyDSP Reg.DSP_CFG.LAYERS
  let bank := s.af keyDSP Reg.DSP_CFG.LUT_BANK
  let stride := (s.areg keyDSP 0x128).toNat
  let p : Pixel := match c.grt with
    | some g => if nbit layers 0 then s.lut bank (indexAt g w h x y) else (0, 0, 0)
    | none => (0, 0, 0)
  let p := match trace.getD x none with
    | some (a, b) => if nbit layers 1 ∧ a ≤ y ∧ y ≤ b then s.lut bank 255 else p
    | none => p
  match c.annot with
  | none => p
  | some buf =>
    let p := if nbit layers 2 then blendPixel (u32At buf (y * stride + 4 * x)) p else p
    match cursorAt c.header c.image x y with
    | some v => if nbit layers 3 then blendPixel v p else p
    | none => p

/-- The frame of a generator in raster order. In a line named with a column, data were missing from that column on, and the last
composed pixel repeats (R555). -/
def State.composeFrame (s : State) (g : Nat) (missing : List (Nat × Nat)) : List Pixel :=
  let c := s.scanOf g
  let w := s.genW g
  let h := s.genH g
  let trace := match c.trace with | some t => traceColumns s.feedRows t w h | none => []
  (List.range (w * h)).map fun i =>
    let y := i / w
    let x := i % w
    let stop := match missing.find? fun m => decide (m.1 = y) with | some m => m.2 | none => w
    if x < stop then s.composePixel c trace w h x y
    else if stop = 0 then (if y = 0 then (0, 0, 0) else s.composePixel c trace w h (w - 1) (y - 1))
    else s.composePixel c trace w h (stop - 1) y

/-- CRC-16/CCITT of a component over a frame (R556). -/
def frameCrc (f : Pixel → Nat) (px : List Pixel) : Nat := ccittRun 0xFFFF (px.map fun p => BitVec.ofNat 8 (f p))

/-! ### Records latched (R548). -/

/-- The newest complete record of a plane of a task's pipeline. -/
def State.newest (s : State) (task n kind : Nat) : Option (Nat × PlaneRec) :=
  match s.task task with
  | none => none
  | some t =>
    let p := t.pipes.headD 0
    match ((s.capture p).recs.filter fun r => decide (r.plane = n ∧ r.record.kind = kind)).getLast? with
    | some r => some (p, r)
    | none => none

/-- Advances of RD that waited are tried again. -/
def State.retryPassed (s : State) : State :=
  let l := s.passed
  s.each l (fun s x => s.passRd x.1 x.2.1 x.2.2) |> fun t => { t with passed := t.passed.drop l.length }

/-- A newer record of a plane is shown: the advances that waited for it go on, and a task without a stream gives up the records
before it (R548). -/
def State.showNewer (s : State) (p n : Nat) (r : PlaneRec) : State :=
  let s := s.retryPassed
  if r.record.task ≠ 0 ∧ dDEST (s.streamDesc r.record.task) ≠ 0 then s
  else
    match ((s.capture p).recs.takeWhile fun x => decide (¬(x.plane = n ∧ x.endOff = r.endOff))).filter (fun x => decide (x.plane = n)) |>.getLast? with
    | some x => s.passRd p n x.endOff
    | none => s

/-- Latch the newest record of a plane on a generator; whether it is a new one that is not STALE (R548, R554). -/
def State.latchPlane (s : State) (g task n kind : Nat) : State × Bool :=
  match s.newest task n kind with
  | none => (s, false)
  | some (p, r) =>
    let c := s.scanOf g
    if c.shown.contains (p, n, r.endOff) then (s, false)
    else
      let base := s.baseAddr (keyRED p) (0x200 + 0x20 * n)
      let len := s.planeLen p n * 64
      let size := 64 * recordUnits r.record
      let start := (r.endOff * 64 + len - size % len) % len
      let first := min size (len - start)
      let bytes := (s.readClean (base + start) first).1 ++ (s.readClean base (size - first)).1
      let body := (bytes.drop 64).take r.record.payload.length
      let s := s.modScan g fun c =>
        { c with grt := if n = 2 then some body else c.grt, trace := if n = 1 then some body else c.trace,
                 shown := (c.shown.filter fun x => decide (x.2.1 ≠ n)) ++ [(p, n, r.endOff)] }
      (s.showNewer p n r, !nbit r.record.flags 1)

/-- Latch both records of the feed on a generator. -/
def State.latchBoth (s : State) (g : Nat) : State × Bool :=
  match s.feedTask with
  | none => (s, false)
  | some t =>
    let a := s.latchPlane g (u32At t.desc 0x70) 2 5
    let b := a.1.latchPlane g (u32At t.desc 0x74) 1 4
    (b.1, a.2 || b.2)

/-- Scan-out tells the memory controller of a latched record's stack when its next request comes (R411, R552). -/
def State.scanLtr (s : State) (g ns : Nat) : State :=
  match (s.scanOf g).shown.head? with
  | none => s
  | some (p, n, _) =>
    (s.setReg keyDSP Reg.DSP_LTR.off (word ns)).reportLtr (addrStack (s.baseAddr (keyRED p) (0x200 + 0x20 * n))) (0x120 + g) ns

/-! ### Vertical sync (R187, R240, R548-R557). -/

/-- The frame that ends: it leaves on the outputs, its checks are made, and missing data are counted (R555, R556). `loops` are the
CRC values of R, G and B that an output's loopback saw where they differ from the prediction. -/
def State.endFrame (s : State) (g : Nat) (missing : List (Nat × Nat)) (loops : List (Nat × Nat × Nat × Nat)) : State :=
  let shows (o : Nat) := decide (s.outState o = outACTIVE ∨ s.outState o = outLOW_REFRESH)
  let outs := (s.genOuts g).filter shows
  if outs.isEmpty ∨ (s.scanOf g).blank then
    s.each ((s.genOuts g).filter fun o => decide (s.outState o = outBLANKED)) fun s o => s.emit (.frame o none)
  else
    let px := s.composeFrame g missing
    let crc := (frameCrc (·.1) px, frameCrc (·.2.1) px, frameCrc (·.2.2) px)
    let s := if missing.isEmpty then s else (s.countBy keyDSP Reg.DSP_UNDERRUN missing.length).setErr keyDSP 16
    s.each outs fun s o =>
      let seen := match mfind loops o with | some v => v | none => crc
      let s := s.emit (.frame o (some px))
      let s := (s.setReg keyDSP (0x170 + 8 * o) (word (seen.1 % 65536 * 65536 + seen.2.1 % 65536))).setReg keyDSP (0x174 + 8 * o) (word (seen.2.2 % 65536))
      if seen = crc then s
      else
        let s := (s.count keyDSP (if o = 0 then Reg.DSP_CHECK_ERR0 else Reg.DSP_CHECK_ERR1)).setErr keyDSP 17
        let sec := s.six / (1000 * sixPerMs) + 1
        if mget (fun _ => 0) s.checkLog o = sec then s
        else
          let (kind, s) := { s with checkLog := mput s.checkLog o sec }.drawNat
          s.logPage keyDSP 0 0 0 (kind % 256) o

/-- Outputs are switched by OUT_EN (R543). -/
def State.enableOuts (s : State) : State :=
  (s.each [0, 1] fun s o =>
    if !s.outEnabled o then s.setOut o outOFF
    else if s.outState o = outOFF ∧ s.hpd o then s.setOut o outTRAINING
    else s).retireIfOff

/-- Words that a change of timing or MODE touches. -/
def timingOffs : List Nat := [0x104, 0x108, 0x10C, 0x114, 0x118, 0x11C]

/-- The waiting set applies: a change of timing or MODE blanks the outputs for one frame, and a buffer that is replaced is retired
(R551, R557); whether a set applied. -/
def State.applyDsp (s : State) : State × Bool :=
  match s.pendOf keyDSP with
  | none => (s, false)
  | some a =>
    if s.six < a.due then (s, false)
    else
      let was := s.indep
      let timing := timingOffs.any (fun o => decide (s.areg keyDSP o ≠ a.word keyDSP o)) || decide (nbit (a.word keyDSP 0x100).toNat 0 ≠ was)
      let x := annotOf a.words
      let next : Option Nat := if x = 0 then none else some x
      let s := (s.clearPend keyDSP).applyWords keyDSP a.words
      let s := s.modPage keyDSP fun p => { p with regs := a.words.foldl (fun m e => mput m e.1 e.2) p.regs }
      let s : State := if s.annotUse = next then { s.each s.retiring State.retire with retiring := [] }
        else { s.retireAll with annotUse := next }
      let s := if timing then
          let s := s.count keyDSP Reg.DSP_BLANKS
          s.each ([0, 1].filter fun o => decide (s.outState o = outACTIVE ∨ s.outState o = outLOW_REFRESH)) fun s o =>
            (s.setOut o outBLANKED).modScan (s.outGen o) fun c => { c with blank := true }
        else s
      ((s.enableOuts).endCommit keyDSP a.due, true)

/-- A vertical sync of generator 0 sets the boundaries of VSYNC frames and TRACE intervals: the first tick end after it (R187,
R240). -/
def State.vsyncBoundaries (s : State) : State :=
  let at0 := nextMultiple tickLen s.six
  s.each (List.range 6) fun s p =>
    let s := if s.isActive (keyGRT p) ∧ s.ab (keyGRT p) Reg.GRT_CFG.FRAME_SRC ∧ (s.grat p).boundary = none then
        s.modGrat p fun g => { g with boundary := some at0 } else s
    if s.isActive (keyRED p) ∧ s.ab (keyRED p) Reg.RED_CFG.TRACE_EN ∧ s.ab (keyRED p) Reg.RED_CFG.TRACE_SRC ∧ (s.capture p).traceEnd = none then
      s.modCapture p fun c => { c with traceEnd := some at0 } else s

/-- VSYNC: a vertical sync of a generator at an index. It brings what the frame that ends showed: the annotation buffer's bytes, none
when a read of it failed; lines with data missing; loopback values that differ; and for the next frame the cursor's header
and image, and the time to the next request for an LTR (R546, R548, R551-R557). -/
def execVsync (gen : Fin 2) (six : Nat) (annot : Option (List Byte)) (header image : List Byte) (missing : List (Nat × Nat))
    (loops : List (Nat × Nat × Nat × Nat)) (ltrNs : Nat) (s : State) : Res :=
  let g : Nat := gen
  let s := s.advanceTo six
  if g = 1 ∧ !s.indep then .next s
  else if s.pageOff keyDSP then .next s
  else
    let uses := s.annotUse.isSome
    let failed := uses && (annot.isNone || s.perst)
    let s := if failed then s.setErr keyDSP 20 else s
    let s := s.modScan g fun c => { c with annot := if uses && !failed then annot else none }
    let s := s.endFrame g missing loops
    let s := if g = 0 then s.count keyDSP Reg.DSP_FRAMES else s
    -- a blank ends with the frame that it blanked
    let s := if (s.scanOf g).blank then
        s.each ((s.genOuts g).filter fun o => decide (s.outState o = outBLANKED)) (fun s o => s.setOut o outACTIVE) |> fun s =>
          s.modScan g fun c => { c with blank := false }
      else s
    let a := if g = 0 then s.applyDsp else (s, false)
    let s := a.1
    let b := s.latchBoth g
    let s := if b.2 then b.1.scanLtr g ltrNs else b.1
    let c := s.scanOf g
    let moved := s.annotUse.isSome && decide (header.take 16 ≠ c.header)
    let id := u16At header 6
    let s := if s.annotUse.isSome then
        s.modScan g fun c => { c with header := header.take 16, image := if c.gen = some id then c.image else image, gen := some id }
      else s
    let s := s.modScan g fun c => { c with frameAt := s.six }
    if g = 1 then .next s
    else
      let s := (s.setSix3 keyDSP 0x180 s.six).irqBit keyDSP 16
      let s := s.vsyncBoundaries
      let change := a.2 || b.2 || moved
      let s := s.modScan 0 fun c => { c with static := if change then 0 else c.static + 1 }
      let low := s.ab keyDSP Reg.DSP_CFG.LOWREF_EN && !s.rb keyDSP Reg.DSP_STAT.GL_PRESENT && s.rb keyDSP Reg.DSP_STAT.LOWREF_CAP
      if low ∧ 8 ≤ (s.scanOf 0).static ∧ (s.genOuts 0).any (fun o => decide (s.outState o = outACTIVE)) then
        .next ((s.each ((s.genOuts 0).filter fun o => decide (s.outState o = outACTIVE)) fun s o => s.setOut o outLOW_REFRESH).count keyDSP Reg.DSP_LOWREF)
      else if change ∨ s.rb keyDSP Reg.DSP_STAT.GL_PRESENT then
        .next (s.each ((s.genOuts 0).filter fun o => decide (s.outState o = outLOW_REFRESH)) fun s o => s.setOut o outACTIVE)
      else .next s

/-! ### Outputs (R541-R543). -/

/-- HPD_CHANGE: the level of DPn_HPD changes (R543, R602). -/
def execHpdChange (output : Fin 2) (level : Bool) (s : State) : Res :=
  let o : Nat := output
  if s.pageOff keyDSP ∨ s.hpd o = level then .next s
  else
    let s := (s.wb keyDSP (if o = 0 then Reg.DSP_STAT.HPD0 else Reg.DSP_STAT.HPD1) level).irqBit keyDSP 17
    if level then .next (if s.outEnabled o ∧ s.outState o = outOFF then s.setOut o outTRAINING else s)
    else .next ({ s.setOut o outOFF with sinks := mdel s.sinks o }.retireIfOff)

/-- Megabits per second of a trained link: 0 UHBR10, 1 HBR3, 2 HBR2, at 4 lanes (R541, R542; HBR2 is log entry 57). -/
def linkMbps (rate : Nat) : Nat := if rate = 0 then 38790 else if rate = 1 then 25920 else 17280

/-- The link carries the timing of a generator at 24 bits per pixel (R542, R543). -/
def State.linkCarries (s : State) (g rate : Nat) : Bool := decide (s.genKhz g * 24 ≤ linkMbps rate * 1000)

/-- DP_TRAINING_DONE: an output's link is trained at a rate; `lowref` says that the sink's range allows low refresh (R543,
R554). -/
def execDpTrainingDone (output : Fin 2) (rate : Fin 3) (lowref : Bool) (s : State) : Res :=
  let o : Nat := output
  if s.pageOff keyDSP ∨ s.outState o ≠ outTRAINING then .next s
  else
    let s := { s with sinks := mput s.sinks o (rate.val, lowref) }
    let s := s.wb keyDSP Reg.DSP_STAT.LOWREF_CAP (s.sinks.all (fun e => e.2.2) && !s.sinks.isEmpty)
    .next (if s.linkCarries (s.outGen o) rate then s.setOut o outACTIVE else (s.setOut o outUNFIT).setErr keyDSP 19)

/-- DP_LINK_LOST: link status is lost, and the output trains again (R543). -/
def execDpLinkLost (output : Fin 2) (s : State) : Res :=
  let o : Nat := output
  let st := s.outState o
  if st = outACTIVE ∨ st = outLOW_REFRESH ∨ st = outUNFIT then .next { s.setOut o outTRAINING with sinks := mdel s.sinks o } else .next s

/-! ### Genlock (R550). -/

def glFREE : Nat := 0
def glACQUIRE : Nat := 1
def glLOCKED : Nat := 2

/-- Distance of an index from the nearest vertical sync of generator 0. -/
def State.phaseError (s : State) : Nat :=
  let per := max 1 (s.framePeriod 0)
  let d := (s.six - (s.scanOf 0).frameAt) % per
  min d (per - d)

/-- GENLOCK_PULSE: a pulse at an index. Presence takes 3 pulses in a row that keep the period; with GENLOCK_EN an error above 4
lines restarts vertical sync at the next pulse, and one below 1 line for 8 frames is lock (R550, R602). -/
def execGenlockPulse (six : Nat) (s : State) : Res :=
  let s := s.advanceTo six
  if s.pageOff keyDSP then .next s
  else
    let g := s.genlock
    let per := s.framePeriod 0
    let gap := s.six - g.last
    let keeps := decide (g.last ≠ 0) && decide (per * 199 ≤ gap * 200 ∧ gap * 200 ≤ per * 201)
    let good := if keeps then g.good + 1 else 1
    let s := { s with genlock := { g with last := s.six, good := good } }
    let s := if 3 ≤ good then s.wb keyDSP Reg.DSP_STAT.GL_PRESENT true else s
    if !s.rb keyDSP Reg.DSP_STAT.GL_PRESENT ∨ !s.ab keyDSP Reg.DSP_CFG.GENLOCK_EN then .next s
    else if s.genlock.restart then
      let s := { s with genlock := { s.genlock with restart := false, locked := 0 } }
      let s := s.count keyDSP Reg.DSP_BLANKS
      let outs := (s.genOuts 0).filter fun o => decide (s.outState o = outACTIVE ∨ s.outState o = outLOW_REFRESH)
      .next ((s.each outs fun s o => s.setOut o outBLANKED).modScan 0 fun c => { c with frameAt := s.six, blank := true })
    else if 4 * s.lineSix 0 < s.phaseError then
      .next ({ s with genlock := { s.genlock with restart := true, locked := 0 } }.wf keyDSP Reg.DSP_STAT.GL_STATE glACQUIRE)
    else if s.phaseError < s.lineSix 0 then
      let n := s.genlock.locked + 1
      .next ({ s with genlock := { s.genlock with locked := n } }.wf keyDSP Reg.DSP_STAT.GL_STATE (if 8 ≤ n then glLOCKED else glACQUIRE))
    else .next ({ s with genlock := { s.genlock with locked := 0 } }.wf keyDSP Reg.DSP_STAT.GL_STATE glACQUIRE)

/-- GENLOCK_LOST: two expected pulses are missing (R550). -/
def execGenlockLost (s : State) : Res :=
  if !s.rb keyDSP Reg.DSP_STAT.GL_PRESENT then .next s
  else
    let s := s.advanceTo (s.genlock.last + 2 * s.framePeriod 0)
    let s := { s with genlock := { last := 0, good := 0, locked := 0, restart := false } }
    .next (((s.wb keyDSP Reg.DSP_STAT.GL_PRESENT false).wf keyDSP Reg.DSP_STAT.GL_STATE glFREE).setErr keyDSP 18)

/-- RELOCK: acquisition restarts (R550, R558). -/
def execRelock (who : Issuer) (tag : Nat) (s : State) : Res :=
  .next (s.command who keyDSP 0x0100 tag fun s op =>
    if !s.rb keyDSP Reg.DSP_STAT.GL_PRESENT then s.rejectOp keyDSP op codeSTATE 0x03
    else
      let s := (s.accept keyDSP op).wf keyDSP Reg.DSP_STAT.GL_STATE glACQUIRE
      ({ s with genlock := { s.genlock with locked := 0, restart := decide (4 * s.lineSix 0 < s.phaseError) } }).doneOp keyDSP)

/-! ### Refills and low refresh (R552, R554). -/

/-- DISPLAY_REFILL: the buffer of a generator is refilled from the INDEX plane, and an LTR goes with the time to the next request
(R359, R552). -/
def execDisplayRefill (gen : Fin 2) (ltrNs : Nat) (s : State) : Res :=
  if s.pageOff keyDSP ∨ (s.scanOf gen).grt.isNone then .next s else .next (s.scanLtr gen ltrNs)

/-- LOWREF_CHECK: once per nominal frame period in LOW_REFRESH; a change ends it (R554). -/
def execLowrefCheck (header : List Byte) (s : State) : Res :=
  let low := (s.genOuts 0).filter fun o => decide (s.outState o = outLOW_REFRESH)
  if low.isEmpty then .next s
  else
    let fresh (task n kind : Nat) : Bool := match s.newest task n kind with
      | some (p, r) => !(s.scanOf 0).shown.contains (p, n, r.endOff) && !nbit r.record.flags 1
      | none => false
    let recs : Bool := match s.feedTask with
      | some t => fresh (u32At t.desc 0x70) 2 5 || fresh (u32At t.desc 0x74) 1 4
      | none => false
    let due : Bool := match s.pendOf keyDSP with | some a => decide (a.due ≤ s.six) | none => false
    let moved := s.annotUse.isSome && decide (header.take 16 ≠ (s.scanOf 0).header)
    if recs ∨ due ∨ moved then
      .next ((s.each low fun s o => s.setOut o outACTIVE).modScan 0 fun c => { c with static := 0 })
    else .next s

/-- The staged checks of DSP: timing by R542, and the trained links (R558). -/
def State.dspCheck (s : State) : Option (Nat × Nat) :=
  let ok (g : Nat) :=
    let w := s.rf keyDSP (Reg.DSP_T_H.ACTIVE g)
    let h := s.rf keyDSP (Reg.DSP_T_V.ACTIVE g)
    let khz := s.rf keyDSP (Reg.DSP_T_CLK.KHZ g)
    decide (w % 4 = 0 ∧ 640 ≤ w ∧ w ≤ 3840 ∧ 480 ≤ h ∧ h ≤ 2160 ∧ 100000 ≤ khz ∧ khz ≤ 1200000) &&
      decide (24 * (s.rf keyDSP (Reg.DSP_T_H.TOTAL g) * s.rf keyDSP (Reg.DSP_T_V.TOTAL g)) ≤ khz * 1000 ∧
        khz * 1000 ≤ 120 * (s.rf keyDSP (Reg.DSP_T_H.TOTAL g) * s.rf keyDSP (Reg.DSP_T_V.TOTAL g)))
  let gens := if s.rb keyDSP Reg.DSP_CFG.MODE then [0, 1] else [0]
  let fits := s.sinks.all fun e =>
    decide (s.rf keyDSP (Reg.DSP_T_CLK.KHZ (if e.1 = 1 ∧ s.rb keyDSP Reg.DSP_CFG.MODE then 1 else 0)) * 24 ≤ linkMbps e.2.1 * 1000)
  if !gens.all ok then some (codeRANGE, 0x01) else if !fits then some (codeRANGE, 0x02) else none

/-- COMMIT on the DSP page (R551, R558, R619). -/
def State.commitDSP (s : State) (op : Op) : State :=
  match s.dspCheck with
  | some (c, sub) => s.rejectOp keyDSP op c sub
  | none =>
    if s.stagedDiffers keyDSP then (s.accept keyDSP op).stageDsp (s.staged keyDSP) true
    else (s.accept keyDSP op).doneOp keyDSP

/-- The DSP page enters RESET: buffers are retired at once (R557). -/
def State.dspReset (s : State) : State := (({ s with scan := [], pend := mdel s.pend keyDSP }.setOut 0 outOFF).setOut 1 outOFF).retireAll

end Sys2Proof.Machine
end

