-- ==== Sys2Proof/Machine/Reset.lean ====
section
/-! DEFINITION. Resets of a block (R49, R615) and changes of owner by RESERVE and RELEASE (R45, R46). -/

namespace Sys2Proof.Machine

/-- What a block holds beside its registers returns to its reset state. -/
def State.resetHook (s : State) (key : Nat) : State :=
  let p := pipeOfKey key
  let r := keyRegion key - 1
  let n := instanceOf key
  match blockOf key with
  | .ddc => s.modChain p fun c => { Chain.init with main := c.main, partner := c.partner }
  | .ins => { s with insets := s.insets.filter fun x => decide (x.1 / 64 ≠ p) }
  | .fft => { s with engines := mdel s.engines p }
  | .grt => { s with grats := mdel s.grats p }
  | .ctr => s.modTrig p fun t => { t with runs := Trig.init.runs, high := Trig.init.high }
  | .ttr => s.modTrig p fun t => { t with units := Trig.init.units }
  | .trg =>
    let s := s.each (List.range 3) fun s j => s.modTrig (3 * r + j) fun t => { t with events := Trig.init.events }
    { s with trigOuts := mdel s.trigOuts r }
  | .cap => s.modCapture p fun c => Capture.init.join c
  | .red => s.modCapture p fun c => c.writer
  | .adc => s.modConv n fun v => { v with align := none }
  | .crc => { s with crcs := mdel s.crcs key }
  | .cmp => s.cmpDrop n
  | .trv => s.cancelGroup key
  | .mc => { s with cores := mdel s.cores n }
  | .dsp => s.dspReset
  | .bxe => s.linkDown key
  | .phn => s.closePhoin
  | .tbs => s.syncOff.modTb fun t => { t with setSecs := none }
  | .tdc => { s with tdc := { s.tdc with mode := .idle, edges := [], misses := 0, last := [], heldStops := none } }
  | _ => s

/-- AFE_STAT and AFE_APPLY_SIX0-2 are kept over a SOFT_RESET, and the values applied stay in force (R101). -/
def afeKept : List Nat := [0x10C, 0x114, 0x118, 0x11C]

/-- Read-only registers that show what lies outside the block and what its reset does not touch: the identity and state of the module,
keys and firmware, supplies, the fault log, links, open rings, streams, drives, calibration areas, and the ranks of a stack. They follow
what they show; every other register takes its reset value, counters among them (R566, R615; log entry 66). -/
def shows (key off : Nat) : Bool :=
  match blockOf key with
  | .mod => decide (off ≤ 0x110)
  | .sec => decide (off ≤ 0x110)
  | .pwr => decide (off ≤ 0x10C)
  | .flt => decide (off ∈ [0x100, 0x104, 0x108, 0x110, 0x114])
  | .hif => decide (off ∈ [0x100, 0x10C])
  | .eth => decide (off = 0x104)
  | .nvi => decide (off ≤ 0x10C) || (decide (0x400 ≤ off) && decide (off % 8 = 0))
  | .str => decide (off = 0x100) || (decide (0x110 ≤ off) && decide (off < 0x140))
  | .rng => decide (off = 0x100)
  | .svy => decide (off ≤ 0x104) || (decide (0x130 ≤ off) && decide (off < 0x170)) || decide (off ∈ [0x190, 0x1A0, 0x1A4, 0x1A8])
  | .mem => decide (off ∈ [0x100, 0x104, 0x108, 0x110, 0x114, 0x130, 0x134]) || decide (0x400 ≤ off)
  | _ => false

/-- Every field of a register is read-only. -/
def readOnly (key off : Nat) : Bool :=
  match findReg (regTable (blockOf key)) off with
  | some (r, _) => r.fields.all fun f => decide (f.acc = .ro)
  | none => false

/-- SOFT_RESET of a page (R49, R615): the operation ends CANCELLED, and the block is in RESET. -/
def State.softReset (s : State) (key : Nat) : State :=
  if (s.page key).st = .off ∨ (s.page key).st = .reset then s
  else
    let s : State := { ((s.cancelOp key).resetHook key).clearPend key with parkedPend := mdel s.parkedPend key }
    let old := s.page key
    let s := s.modPage key fun p => p.softReset key
    if blockOf key = .afe then
      s.modPage key fun p => { p with regs := old.regs.filter (fun x => afeKept.contains x.1), applied := old.applied, settling := old.settling }
    else s.modPage key fun p => { p with regs := old.regs.filter fun x => readOnly key x.1 && shows key x.1 }

/-- A page in which a power domain comes on is in RESET (R49, R615). -/
def State.powerReset (s : State) (key : Nat) : State := ((s.resetHook key).clearPend key).modPage key fun p => p.powerReset key

/-- RESERVE takes a page: STOP, SOFT_RESET, OWNER HOST (R45). -/
def State.reservePage (s : State) (key : Nat) : State :=
  let old := (s.page key).owner
  let s := (s.stopPage key).softReset key
  (s.modPage key fun p => { p with before := some old }).changeOwner key .host

/-- RELEASE returns a page: the operation ends CANCELLED, STOP, SOFT_RESET, and the owner before RESERVE (R45). -/
def State.releasePage (s : State) (key : Nat) : State :=
  match (s.page key).before with
  | none => s
  | some o =>
    let s := ((s.cancelOp key).stopPage key).softReset key
    (s.modPage key fun p => { p with before := none }).changeOwner key o

end Sys2Proof.Machine
end

