-- ==== Sys2Proof/Machine/TaskRun.lean ====
section
/-! DEFINITION. A PLACED task starts (R286, R535, R618): its words apply, its writer takes up its place, and its pages start; and the
end of DURATION_SIX. -/

namespace Sys2Proof.Machine

/-! ### The writer's place (R262, R309). -/

/-- Registers of the record planes' offsets. -/
def planeOffs : List Nat := (List.range 3).flatMap fun n => [0x20C + 0x20 * n, 0x210 + 0x20 * n]

/-- A writer begins afresh: no sheets, write count 0, empty planes. -/
def State.freshWriter (s : State) (t : Task) : State :=
  let p := t.pipes.headD 0
  if dTYPE t.desc = 2 then
    (s.modPage (keyCAP p) fun x => { x with regs := [], applied := [] }).modCapture p fun c => Capture.init.join c
  else if dTYPE t.desc = 1 then (s.each planeOffs fun s o => s.setReg (keyRED p) o 0).modCapture p Capture.writer
  else s

/-- A parked writer takes up its place on the task's pipeline; where its memory was lost, sheets and records are gone (R309). -/
def State.unpark (s : State) (t : Task) (x : Parked) : State :=
  let p := t.pipes.headD 0
  let slot := t.id % 4096
  let s := s.modPhn fun h => { h with parked := mdel h.parked slot }
  let s := s.repoint t.id fun r => match r with
    | .parkedSheet k wc => if k = slot then .sheet p wc else r
    | .parkedPlane k n off => if k = slot then .plane p n off else r
    | _ => r
  if dTYPE t.desc = 2 then
    let s := s.modPage (keyCAP p) fun g => { g with regs := x.capRegs, applied := [] }
    let s := s.modCapture p fun c => x.cap.join c
    let s := if t.memLost then s.setReg (keyCAP p) 0x140 (s.reg (keyCAP p) 0x144) else s
    s.refreshCap p
  else if dTYPE t.desc = 1 then
    let get (o : Nat) : Word := if t.memLost then 0 else mget (regReset (keyRED p)) x.redRegs o
    (s.each planeOffs fun s o => s.setReg (keyRED p) o (get o)).modCapture p fun c => c.join x.cap
  else s

/-! ### Starting (R286, R618). -/

/-- Staged words of pages that do not run return to their reset values before a task's words go in. -/
def State.blankPages (s : State) (keys : List Nat) : State :=
  s.each keys fun s k => if s.isActive k then s
    else s.modPage k fun g => { g with applied := [], regs := g.regs.filter fun x => !isStaged k x.1 }

/-- A task on pipelines starts: connection, words, curves, and pages. -/
def State.startOnPipes (s : State) (t : Task) : State :=
  let s := s.blankPages (pagesOf t)
  let s := match mfind s.phn.parked (t.id % 4096) with | some x => s.unpark t x | none => s.freshWriter t
  let s := s.connect t
  let s := s.applyAll (taskPatches s.liveTasks t)
  let s := s.each t.pipes fun s p => s.ddcRefresh p
  (s.loadItems t).each (pagesOf t) State.startPage

/-- Measurement-core X memory that the extension gives (R276). -/
def State.loadCoreItems (s : State) (t : Task) : State :=
  s.each (t.ext.filter fun x => decide (x.kind = 7)) fun s x => s.winBytes (coreX (t.cores.getD x.index 0) 0 + x.sub) x.data

/-- The cores of a task start; a restart reads the image again, and one whose read fails or whose CRC differs is a failure (R535). -/
def State.startCores (s : State) (t : Task) (image : Option (List Byte)) : Option State :=
  if !t.restart then some ((s.coresStart t).loadCoreItems t)
  else
    match image with
    | some b => if imageOk b && decide (u32At b 0x10 = u32At t.image 0x10) then some ((s.coresStart { t with image := b }).loadCoreItems t) else none
    | none => none

/-- The scan-out of a DISPLAY_FEED (R283, R542). -/
def State.startFeed (s : State) (t : Task) : State := ((s.stageDsp (s.feedWords t.desc true) false).startPage keyDSP).enableOuts

/-- A CALIBRATION_HOLD holds its pipelines for HOLD_MS (R319, R333). -/
def State.startHold (s : State) (t : Task) : State :=
  { s with svy := { s.svy with holds := s.svy.holds ++ [{ task := t.id, convs := bitsSet (dCONVERTERS t.desc) 5, pipes := t.pipes, deadline := s.six + dHOLD_MS t.desc * sixPerMs }] } }

/-- The first index at which a task may start: a frame boundary at or after START_SIX, once the input settings it waits for apply (R286). -/
def State.startIndex (s : State) (t : Task) : Nat :=
  let dues := (channelInputs (s.taskChannel t)).filterMap fun n => (s.pendOf (keyAFE n)).map (·.due)
  ceilTo 32 (dues.foldl max (max s.six (dSTART t.desc)))

/-- Pages that a task runs on (R286, R562). -/
def runPages (t : Task) : List Nat :=
  pagesOf t ++ (t.grants.filter fun g => decide (g.cls = 8)).flatMap (fun g => (List.range g.amount).map fun i => keyMC (g.inst + i)) ++
    (if dTYPE t.desc = 6 then [keyDSP] else [])

/-- A PLACED task may start once its blocks are powered and out of reset; a CALIBRATION_HOLD waits until its pipelines are free (R286,
R562). -/
def State.mayStart (s : State) (t : Task) : Bool :=
  decide (t.st = .placed) && ((runPages t).all fun k => decide ((s.page k).st ≠ .off ∧ (s.page k).st ≠ .reset)) && (decide (dTYPE t.desc ≠ 7) || t.pipes.all fun p => (s.pipeTasks p).all fun x => decide (x.id = t.id))

/-- RUNNING. -/
def State.markRunning (s : State) (t : Task) (a : Nat) : State :=
  let s := s.modTask t.id fun x =>
    { x with st := .running, startAt := a, startedAt := if x.startedAt = 0 then a else x.startedAt, restart := false, memLost := false }
  s.notify t.id causeSTARTED a 0

/-- TASK_START: a PLACED task reaches its start with its configuration applied and is RUNNING; `image` is what a restart of a MEASURE
task reads (R286, R535). -/
def execTaskStart (task : BitVec 32) (image : Option (List Byte)) (s : State) : Res :=
  match s.task task.toNat with
  | none => .next s
  | some t =>
    if !s.mayStart t then .next s
    else
      let a := s.startIndex t
      let s := s.advanceTo a
      if dTYPE t.desc = 4 then
        match s.startCores t image with
        | some s => .next (s.markRunning t a)
        | none => .next (s.failTask t.id codeINTEGRITY 0)
      else
        let s := if needsPipe t.desc then s.startOnPipes t else if dTYPE t.desc = 6 then s.startFeed t
          else if dTYPE t.desc = 7 then s.startHold t else s
        .next (s.markRunning t a)

/-- TASK_DURATION_END: DURATION_SIX has elapsed since the start, and the task is DONE with its outputs closed (R286). -/
def execTaskDurationEnd (task : BitVec 32) (s : State) : Res :=
  match s.task task.toNat with
  | none => .next s
  | some t =>
    if t.st ≠ .running ∨ dDURATION t.desc = 0 then .next s
    else .next ((s.advanceTo (t.startedAt + dDURATION t.desc)).endTask t.id .done codeOK 0)

end Sys2Proof.Machine
end

