-- ==== Sys2Proof/Machine/Migrate.lean ====
section
/-! DEFINITION. Gapless migration (R311-R317): its steps, what moves at the handover (R193, R225, R263), and the commands of ring 0 that
wait for migrations to end (R287, R294). -/

namespace Sys2Proof.Machine

/-! ### Loading a target (R312). -/

/-- Resident tasks with some as they are to be. -/
def withGoal (all goal : List Task) : List Task := all.map fun t => match goal.find? fun x => decide (x.id = t.id) with | some x => x | none => t

/-- Pages that run beside the source: chain, insets and transform. -/
def shadowPages (t : Task) : List Nat := (pagesOf t).filter fun k => [BlockType.ddc, .ins, .fft].contains (blockOf k)

/-- The target's chain, inset and transform pages take the configuration and start; a chain that serves others already runs (R312). -/
def State.loadTarget (s : State) (goal : List Task) : State :=
  let all := withGoal s.liveTasks goal
  s.each goal fun s t =>
    let keys := shadowPages t
    let s := (s.blankPages keys).connect t
    let s := s.applyAll ((taskPatches all t).filter fun x => keys.contains x.key)
    let s := s.each t.pipes fun s p => s.ddcRefresh p
    (s.loadItems t).each keys State.startPage

/-- DC estimates and NCO accumulator of a chain go over to one that has just started (R312). -/
def State.copyNco (s : State) (src dst : Nat) : State :=
  let c := s.chain src
  s.modChain dst fun d => { d with tunes := c.tunes, dcSets := c.dcSets, est0 := c.est0, est1 := c.est1 }

/-- The target is given up: pages that only it used stop, and chains that no task uses are free. -/
def State.dropTarget (s : State) (goal : List Task) (target : List Nat) : State :=
  let on := tasksOn s.holdingTasks target
  let keep := on.flatMap pagesOf
  let s := s.each ((goal.flatMap shadowPages).eraseDups.reverse.filter fun k => !keep.contains k) State.stopPage
  let s := s.each goal fun s t => s.applyAll ((clearPatches t).filter fun x => decide (blockOf x.key = .ins))
  s.each (target.filter fun p => (tasksOn on [p]).isEmpty) State.disconnect

/-! ### What moves (R193, R225, R263). -/

/-- A number of one mapping as another maps it. -/
def remap (old new : List Mapping) (res phys : Nat) : Nat :=
  match old.find? fun m => decide (m.res = res ∧ m.phys = phys) with | some m => mapPhys new res m.rel | none => phys

/-- A source of a pipeline under another mapping: slots, units, and sources of the region as they are. -/
def remapSource (old new : List Mapping) (n : Nat) : Nat :=
  if n < 8 then remap old new 0x100 n else if n < 12 then 8 + remap old new 0x101 (n - 8) else n

/-- The writer moves with its registers and its capture FIFO (R263). -/
def State.moveWriter (s : State) (src dst : Nat) : State :=
  let c := s.capture src
  let g := s.page (keyCAP src)
  let s := s.modPage (keyCAP dst) fun p => { p with regs := g.regs, applied := g.applied }
  let s := (s.modPage (keyCAP src) fun p => { p with regs := [], applied := [] }).modCapture dst fun d => c.join d
  let s := s.modCapture src fun c => Capture.init.join c
  let fifo := (s.chain src).fifo
  (s.modChain dst fun d => { d with fifo := fifo }).modChain src fun d => { d with fifo := [] }

/-- The record planes move with their offsets (R263). -/
def State.movePlanes (s : State) (src dst : Nat) : State :=
  let c := s.capture src
  let s := s.each planeOffs fun s o => (s.setReg (keyRED dst) o (s.reg (keyRED src) o)).setReg (keyRED src) o 0
  (s.modCapture dst fun d => d.join c).modCapture src Capture.writer

/-- The engine goes on from the same frame; the grid begins anew at H, so that the open SPECTRUM record closes there (R313). -/
def State.moveEngine (s : State) (src dst h : Nat) : State :=
  let e := s.engine src
  let words := (s.page (keyFFT dst)).applied
  let s := s.modEngine dst fun _ => { e with old := e.old ++ [(h, words)] }
  let outs := (s.chain src).outs.filter fun x => decide (x.1 < h)
  let s := s.modChain dst fun c => { c with outs := outs ++ c.outs.filter fun x => decide (h ≤ x.1) }
  { s with engines := mdel s.engines src }

/-- The graticule's planes and open intervals move; the next record it completes carries MIGRATED (R193). -/
def State.moveGrat (s : State) (src dst : Nat) : State :=
  let g := s.grat src
  let s := s.modGrat dst fun _ => match g.readout with
    | some f => { g with readout := some { f with flags := f.flags ||| 4 } }
    | none => { g with cur := { g.cur with flags := g.cur.flags ||| 4 } }
  let s := (s.setReg (keyGRT dst) 0x120 (s.reg (keyGRT src) 0x120)).accEnter dst (s.accState src)
  { s with grats := mdel s.grats src }

/-- Trigger samples before the handover index are evaluated on the source, whose writer has what they fire (R225). -/
def State.settleTrig (s : State) (src h : Nat) : State :=
  let r := State.evSettle src h (4 * ((s.trig src).occs.length + (s.trig src).changes.length)) s
  r.1.each r.2 State.sheetEvent

/-- Slots, units, events and what they have not evaluated go over under the target's mapping; the target's events evaluate from the
handover index `h` (R225). -/
def State.moveTrig (s : State) (src dst h : Nat) (old new : List Mapping) : State :=
  let a := s.trig src
  let bit (f : RegField) (key n : Nat) : Bool := nbit (s.rf key f) n
  let put (s : State) (key : Nat) (f : RegField) (n : Nat) (b : Bool) : State := s.wf key f (putBit (s.rf key f) n b)
  let s := s.modTrig dst fun t =>
    { t with occs := t.occs ++ a.occs.map (fun o => { o with src := remapSource old new o.src }),
             changes := t.changes ++ a.changes.map fun c => { c with src := remapSource old new c.src } }
  s.each old fun s m =>
    let n := m.phys
    let k := remap old new m.res n
    if m.res = 0x100 then
      let s := s.modTrig dst fun t => { t with runs := t.runs.set k (a.runs.getD n 0), high := t.high.set k (a.high.getD n false) }
      put (put s (keyCTR dst) Reg.CTR_STAT.NOHIST k (bit Reg.CTR_STAT.NOHIST (keyCTR src) n)) (keyCTR dst) Reg.CTR_STAT.OUT k
        (bit Reg.CTR_STAT.OUT (keyCTR src) n)
    else if m.res = 0x101 then
      let s := s.modTrig dst fun t => { t with units := t.units.set k (a.units.getD n TdUnit.init) }
      put (put s (keyTTR dst) Reg.TTR_STAT.MET k (bit Reg.TTR_STAT.MET (keyTTR src) n)) (keyTTR dst) Reg.TTR_STAT.UNARMED k
        (bit Reg.TTR_STAT.UNARMED (keyTTR src) n)
    else if m.res = 0x102 then
      let e := a.events.getD n Event.init
      (s.modTrig dst fun t => { t with events := t.events.set k { e with from0 := max e.from0 h } }).setEvent src n { Event.init with from0 := h }
    else s

/-- Insets that others read go over: counts of a recording task, inputs of MEASURE tasks (R536). -/
def State.moveInsets (s : State) (old new : Task) : State :=
  let moves := (old.maps.filter fun m => decide (m.res = 0x104)).map fun m =>
    let k := remap old.maps new.maps 0x104 m.phys
    ((old.pipes.getD (m.phys / 64) 0, m.phys % 64), (new.pipes.getD (k / 64) 0, k % 64))
  let s := s.each moves fun s m => s.modInset m.2.1 m.2.2 fun i =>
    let o := s.inset m.1.1 m.1.2
    { i with chunk := o.chunk, chunkFirst := o.chunkFirst, chunkMarks := o.chunkMarks }
  let at0 (x : Option (Nat × Nat)) : Option (Nat × Nat) := match x with
    | some y => (match moves.find? fun m => decide (m.1 = y) with | some m => some m.2 | none => some y)
    | none => none
  { s with measures := s.measures.map fun e => (e.1, { e.2 with inputs := e.2.inputs.map fun i => { i with inset := at0 i.inset } }) }

/-- Records that wait at a task's sources, and those that the display shows, are found on the target. -/
def State.moveRecords (s : State) (t : Task) (src dst : Nat) : State :=
  let s := s.repoint t.id fun r => match r with
    | .sheet p wc => if p = src then .sheet dst wc else r
    | .plane p n off => if p = src then .plane dst n off else r
    | _ => r
  if dTYPE t.desc = 1 then
    let moved (x : Nat × Nat × Nat) : Nat × Nat × Nat := if x.1 = src then (dst, x.2) else x
    { s with passed := s.passed.map moved, scan := s.scan.map fun (e : Nat × Scan) => (e.1, { e.2 with shown := e.2.shown.map moved }) }
  else s

/-- Memory that changes with a MODIFY: sheets and records of the old one are gone, and an epoch begins (R299, R309). -/
def State.changeMemory (s : State) (p : Nat) (old new : Task) : State :=
  if old.pieces = new.pieces then s
  else if dTYPE new.desc = 2 then
    let s := s.endEpoch p
    let n := ((s.capture p).sheets.filter fun y => !y.released).length
    let s := { s with readyRecs := s.readyRecs.filter fun r => match r.from0 with | .sheet q _ => decide (q ≠ p) | _ => true }
    let s := s.modCapture p fun c => { c with sheets := [], cutMissed := min 65535 (c.cutMissed + n) }
    ((s.setReg (keyCAP p) 0x140 (s.reg (keyCAP p) 0x144)).refreshCap p).capNewEpoch p
  else if dTYPE new.desc = 1 then
    let s := { s with readyRecs := s.readyRecs.filter fun r => match r.from0 with | .plane q _ _ => decide (q ≠ p) | _ => true }
    (s.each planeOffs fun s o => s.setReg (keyRED p) o 0).modCapture p fun c => { c with recs := [], lost := [] }
  else s

/-- A page runs without the effects of a START: what it holds has been moved to it. -/
def State.runPage (s : State) (key : Nat) : State :=
  if s.isActive key ∨ s.pageFaulted key then s else (s.modPage key fun p => { p with enable := true }).enter key .active

/-- One task goes over from pipeline to pipeline at index `h`. -/
def State.moveTask (s : State) (all : List Task) (h : Nat) (x : Task) : State :=
  match s.task x.id with
  | none => s
  | some t =>
    let src := t.pipes.headD 0
    let dst := x.pipes.headD 0
    let s := s.settleTrig src h
    let keys := (pagesOf x).filter fun k => decide (blockOf k ∉ [BlockType.ddc, .ins, .fft, .cap])
    let s := (s.blankPages keys).applyAll ((taskPatches all x).filter fun y => keys.contains y.key)
    let s := if dTYPE x.desc = 2 then
        let s := (s.moveWriter src dst).changeMemory dst t x
        s.applyAll ((taskPatches all x).filter fun y => decide (y.key = keyCAP dst))
      else s
    let s := if dTYPE x.desc = 1 then (((s.movePlanes src dst).changeMemory dst t x).moveEngine src dst h).moveGrat src dst else s
    let s := ((s.moveTrig src dst h t.maps x.maps).moveInsets t x).moveRecords t src dst
    let s := s.each (pagesOf x) State.runPage
    let s := s.setTask { t with desc := x.desc, ext := x.ext, image := x.image, pinned := x.pinned, pipes := x.pipes, maps := x.maps, grants := x.grants,
                                stack := x.stack, pieces := x.pieces, hasMem := x.hasMem }
    if dDEST x.desc = 0 then s else s.setPorts x.id (streamPorts x)

/-- Every task of a migration goes over: those whose numbers others refer to first (R280). -/
def State.moveGroup (s : State) (h : Nat) (goal : List Task) : State :=
  let all := withGoal s.liveTasks goal
  let s := s.each ((goal.filter fun t => decide (dTRIGGER t.desc = 0)) ++ goal.filter fun t => decide (dTRIGGER t.desc ≠ 0)) fun s x => s.moveTask all h x
  let s := s.each (goal.flatMap (·.pipes)).eraseDups fun s p => s.ddcRefresh p
  s.modPhn fun p => { p with handed := (goal.flatMap (·.pipes)).foldl (fun m q => mput m q h) p.handed }

/-- Numbers of a pipeline that none of its tasks has mapped, as a task that has them. -/
def unmapped (on : List Task) (t : Task) : Task :=
  { t with maps := [(0x100, 8), (0x101, 4), (0x102, 4), (0x104, 64 * t.pipes.length)].flatMap fun k =>
      ((List.range k.2).filter fun n => !on.any fun x => x.maps.any fun m => decide (m.res = k.1 ∧ m.phys = n)).map fun n =>
        { res := k.1, rel := n, phys := n } }

/-- Pages of a pipeline that nothing uses go idle, with the units of those that stay; a pipeline without a task is free (R315, R618). -/
def State.idlePipe (s : State) (p : Nat) : State :=
  match s.pipeTasks p with
  | [] => (s.each (pipePages p).reverse State.stopPage).disconnect p
  | t :: rest =>
    let keep := (t :: rest).flatMap pagesOf
    let s := s.each ((pipePages p).reverse.filter fun k => !keep.contains k) State.stopPage
    if t.pipes.headD 0 = p then s.applyAll (clearPatches (unmapped (t :: rest) t)) else s

/-- The pages of the trigger matrix that no task uses go idle. -/
def State.idleTrg (s : State) (r : Nat) : State :=
  if s.holdingTasks.any fun t => usesTrg t && decide (t.pipes.headD 0 / 3 = r) then s else s.stopPage (keyTRG r)

/-! ### Pages that RESERVE takes (R45, R294). -/

/-- The keys that a RESERVE or RELEASE names. -/
def cKeys (e : List Byte) : List Nat := (List.range (u16At e 0x24)).map (u32At e 0x20 + ·)

/-- Pipelines among a set of pages: RESERVE of any of a pipeline's pages takes its slot (R47). -/
def keyPipes (keys : List Nat) : List Nat := (List.range 6).filter fun p => (pipePages p).any keys.contains

/-- Place a resident task anew where it does not run on pipelines: cores and DMA channels change, all else stays where it can
(R45, R537). -/
def State.replace (s : State) (t : Task) (avoid : List Nat) : Option Task :=
  let bad (g : Grant) : Bool := decide (g.cls = 8) && (List.range g.amount).any (fun i => avoid.contains (keyMC (g.inst + i))) ||
    decide (g.cls = 10) && avoid.contains (chanKey g.inst)
  let s := s.each avoid fun s k => s.modPage k fun p => { p with before := some p.owner }
  match (s.envOf s.liveTasks t.id).place t (t.grants.filter fun g => !bad g) with
  | .fits x => some x
  | .exceeds _ _ => none

/-- Tasks that use pages beside those on pipelines: MEASURE tasks on cores, DISPLAY_FEED, tasks with DMA channels. -/
def State.directUsers (s : State) (keys : List Nat) : List Task :=
  placementOrder (s.holdingTasks.filter fun t =>
    t.grants.any (fun g => (decide (g.cls = 8) && (List.range g.amount).any fun i => keys.contains (keyMC (g.inst + i))) ||
        (decide (g.cls = 10) && keys.contains (chanKey g.inst))) ||
      (decide (t.st = .placed) && t.pipes.any (keyPipes keys).contains))

/-- A user of reserved or lost pages takes its new place: a MEASURE task restarts on its new cores, a PLACED one has it, and a running
one goes on with its other channels (R45, R537). -/
def State.takePlace (s : State) (t x : Task) : State :=
  if t.st = .placed then (s.dropRings t []).commitPlace x
  else if dTYPE t.desc = 4 then (((s.coresRelease t).dropRings t []).modTask t.id fun y => { y with grants := [] }).commitPlace { x with restart := true }
  else (((s.idleGroups t []).setTask { t with grants := x.grants }).takeRings { t with grants := x.grants }).bumpEpoch

/-- Take the pages: users that do not migrate are placed anew first, and a converter's input passes to C4 (R45, R128). -/
def State.takeKeys (s : State) (keys : List Nat) : State :=
  let s := s.each (s.directUsers keys) fun s t => match s.replace t keys with
    | some x => s.takePlace t x
    | none => s.suspendTask t.id causeNO_RESOURCE
  let s : State := match s.svy.run with
    | some r => if keys.contains (keyADC r.conv) ∨ keys.contains (keyAFE r.conv) then s.surveyFails codeFAULT 0x08 else s
    | none => s
  s.each keys State.reservePage

/-- Converters C0-C3 whose pages are among some. -/
def keyConvs (keys : List Nat) : List Nat := (List.range 4).filter fun c => keys.contains (keyADC c) || keys.contains (keyAFE c)

/-- C4 is on its way to the channel of a converter that is to be reserved (R128). -/
def State.rotating (s : State) (keys : List Nat) : Bool :=
  s.rot.reserved && (keyConvs keys).contains s.rot.main && decide (s.spareState = spareALIGNING ∨ s.spareState = spareSHADOWING)

/-- C4 has not come to the channel of a converter that is to be reserved (R123, R128). -/
def State.notCarried (s : State) (keys : List Nat) : Bool := (keyConvs keys).any fun c => !(s.inputTasks c).isEmpty && decide (s.carrier c ≠ 4)

/-! ### The end of a command that waited (R287, R294, R295, R314). -/

/-- The move that a waiting command asked for. -/
def moveCauseOf (opcode : Nat) : MoveCause := if opcode = opRESERVE then .reserve else if opcode = opMODIFY then .modify else .rebalance

/-- Entries of the classes in which a task moved (R295). -/
def State.movedEntries (s : State) (before : List Task) : List RepEntry :=
  let e : Env := { s := s, all := s.liveTasks, extra := s.extraGrants, noPipes := [] }
  before.flatMap fun o =>
    match s.task o.id with
    | some t => (List.range 11).flatMap fun c =>
        let of (x : Task) := x.grants.filter fun g => decide (g.cls = c)
        if of t = of o then [] else (e.grantEntries (of t) 1).take 1
    | none => []

/-- The report of a REBALANCE (R295). -/
def State.rebalanceReport (s : State) (before : List Task) : Report := { s.taskReport 0 [] 1 [] with entries := s.movedEntries before }

/-- Complete the command that waits, once nothing that it asked for is under way: RESERVE takes its pages, MODIFY and REBALANCE report,
and SUSPEND and CANCEL of a task that was MIGRATING take effect (R287, R294, R314). -/
def State.finishHeld (s : State) : State :=
  match s.phn.held with
  | none => s
  | some h =>
    let busy : Bool := (s.phn.migQueue ++ s.phn.mig.toList).any fun m => decide (m.cause = moveCauseOf h.opcode)
    let moving : Bool := match s.task h.task with | some t => decide (t.st = .migrating) | none => false
    if h.opcode = opTSUSPEND ∨ h.opcode = opTCANCEL then
      if moving then s
      else
        let s := s.modPhn fun p => { p with evaluating := true }
        let s := if h.opcode = opTSUSPEND then s.suspendTask h.task 0 else s.endTask h.task .cancelled codeOK 0
        s.completeHeld h (.done h.task)
    else if busy ∨ (h.opcode = opRESERVE ∧ s.rotating (cKeys h.entry)) then s
    else
      let s := s.modPhn fun p => { p with evaluating := true }
      match h.failed with
      | some id =>
        if h.opcode = opRESERVE then s.completeHeld h { Answer.done 0 with phase := phaseFAILED, code := codeFAULT, detail0 := id }
        else if h.opcode = opMODIFY then s.completeHeld h { Answer.done h.task with phase := phaseFAILED, code := codeFAULT }
        else
          let r := s.report h.entry (s.rebalanceReport h.moved) (.done 0)
          r.1.completeHeld h r.2
      | none =>
        if h.opcode = opRESERVE then
          if s.notCarried (cKeys h.entry) then s.completeHeld h { Answer.done 0 with phase := phaseFAILED, code := codeFAULT }
          else (s.takeKeys (cKeys h.entry)).completeHeld h (.done 0)
        else
          let rep := if h.opcode = opMODIFY then s.taskReport h.task (s.task h.task).toList 0 [] else s.rebalanceReport h.moved
          let r := s.report h.entry rep (.done h.task)
          r.1.completeHeld h r.2

/-! ### Beginning (R126, R311, R312). -/

/-- A migration of tasks, for a cause: until it begins, `target` holds pipelines that it must avoid, and `goal` a placement that the
command has computed. -/
def Migration.ask (cause : MoveCause) (tasks : List Nat) (avoid : List Nat) (goal : List Task) : Migration :=
  { cause := cause, tasks := tasks, source := [], target := avoid, phase := .begun, startAt := 0, h := 0, tries := 0, retryAt := 0, goal := goal, old := [] }

/-- A spare handover on the channel's input must come first (R126). -/
def State.spareFirst (s : State) (t : Task) : Bool :=
  decide (s.spareState = spareSHADOWING ∨ s.spareState = spareRETURNING) && (channelInputs (s.taskChannel t)).contains s.rot.input

/-- The tasks that move: those on the first one's pipelines, or the goal that the command computed. -/
def State.goalOf (s : State) (m : Migration) (t : Task) : Option (List Task) :=
  let e := s.envOf s.liveTasks 0
  if m.goal.isEmpty then e.target (groupOn s.holdingTasks (t.pipes.headD 0)) (t.pipes ++ m.target)
  else
    let e : Env := { e with all := e.all.filter fun t => !m.tasks.contains t.id }
    if m.goal.all fun x => (e.pick x x.pipes).isSome then some m.goal else none

/-- A command whose migration cannot be made learns of it (R314). -/
def State.noteFailed (s : State) (m : Migration) (id : Nat) : State :=
  s.modPhn fun p => { p with held := p.held.map fun h => if m.cause = moveCauseOf h.opcode then { h with failed := some id } else h }

/-- The attempt begins: the target is charged, and the tasks are MIGRATING (R312). -/
def State.attempt (s : State) (m : Migration) (goal : List Task) : State :=
  let ids := goal.map (·.id)
  let src := ((ids.filterMap s.task).flatMap (·.pipes)).eraseDups
  let m := { m with tasks := ids, source := src, target := (goal.flatMap (·.pipes)).eraseDups, goal := goal, phase := .begun }
  let s := s.modPhn fun p => { p with mig := some m }
  s.each ids fun s id => (s.modTask id fun t => { t with st := .migrating }).notify id causeMIGRATION_BEGIN s.six 0

/-- Begin the first migration asked for that can be made (R311, R312). -/
def State.beginFrom (s : State) : List Migration → State
  | [] => s.modPhn fun p => { p with migQueue := [] }
  | m :: rest =>
    match (m.tasks.filterMap s.task).find? fun t => decide (t.st = .running) with
    | none => State.beginFrom s rest
    | some t =>
      if s.spareFirst t then s.modPhn fun p => { p with migQueue := m :: rest }
      else
        match s.goalOf m t with
        | none => State.beginFrom (s.noteFailed m t.id) rest
        | some goal => (s.modPhn fun p => { p with migQueue := rest }).attempt m goal

/-- FW_ACTIVATE holds admissions once no migration is in progress and no survey step runs; `between` two steps of a survey none does
(R573). -/
def State.activateHold (s : State) (between : Bool) : State :=
  if s.activating && s.power.holdAt.isNone && s.phn.mig.isNone && (between || s.svy.run.isNone) then
    State.refreshHold { s with power := { s.power with holdAt := some s.six } }
  else s

/-- The hold of a firmware activation ends; the paused survey step has the time it lost (R573). -/
def State.activateRelease (s : State) : State :=
  match s.power.holdAt with
  | none => s
  | some t =>
    let s : State := { s with power := { s.power with holdAt := none },
                              svy := { s.svy with run := s.svy.run.map fun r => { r with deadline := r.deadline + (s.six - t) } } }
    s.refreshHold

/-- Begin the next migration when none is in progress, and no firmware activation waits for that or holds admissions; commands that wait
for none any more complete (R573). -/
def State.beginNext (s : State) : State :=
  if s.activating then (s.activateHold false).finishHeld
  else (if s.phn.mig.isSome then s else s.beginFrom s.phn.migQueue).finishHeld

/-- Ask for migrations. -/
def State.askMoves (s : State) (ms : List Migration) : State :=
  (s.modPhn fun p => { p with migQueue := p.migQueue ++ ms }).beginNext

/-! ### The steps (R312-R316). -/

/-- MIGRATION_TARGET_START: the target's pages are loaded, and its chain starts at a frame boundary beside the source; a migration that
waited for a spare handover begins first (R126, R312). -/
def execMigrationTargetStart (s : State) : Res :=
  let s := s.beginNext
  match s.phn.mig with
  | none => .next s
  | some m =>
    if m.phase ≠ .begun then .next s
    else
      let a := ceilTo 32 s.six
      let s := s.advanceTo a
      let fresh := m.target.filter fun p => !s.isActive (keyDDC p)
      let s := s.loadTarget m.goal
      let s := s.each (List.range m.target.length) fun s i =>
        if fresh.contains (m.target.getD i 0) then s.copyNco (m.source.getD i 0) (m.target.getD i 0) else s
      .next (s.modPhn fun p => { p with mig := some { m with phase := .parallel, startAt := a } })

/-- A transform runs for a migration's tasks. -/
def Migration.hasFft (m : Migration) : Bool := m.goal.any fun t => (pagesOf t).contains (keyFFT (t.pipes.headD 0))

/-- The grid of H: multiples of 32, of P, and of the hop when a transform runs (R313). -/
def State.handGrid (s : State) (m : Migration) : Nat :=
  let p := m.target.headD 0
  Nat.lcm 32 (Nat.lcm (s.labelP p) (if m.hasFft then max 1 (s.fftH p * s.labelP p) else 1))

/-- The first H at or after an index. -/
def State.handAt (s : State) (m : Migration) (six : Nat) : Nat := ceilTo (s.handGrid m) six

/-- The last input of the first frame whose inputs follow A_t + D × P: nothing is compared before it (R312). -/
def State.verifyFrom (s : State) (m : Migration) : Nat :=
  let p := m.target.headD 0
  let clean := m.startAt + s.settleD p * s.labelP p
  if m.hasFft then ceilTo (max 1 (s.fftH p * s.labelP p)) clean + (s.fftN p - 1) * s.labelP p else clean

/-- An attempt has failed: the target returns, the source goes on, and after a third failure the move is given up (R314). -/
def State.migFail (s : State) (m : Migration) : State :=
  let s := s.modPhn fun p => { p with mig := none }
  let s := s.each m.tasks fun s id => s.modTask id fun t => { t with st := .running }
  let s := (s.dropTarget m.goal m.target).rotWake
  let s := s.logPage (keyDDC (m.target.headD 0)) 0 codeFAULT 0 9 (m.tasks.headD 0)
  if m.tries < 2 then s.modPhn fun p => { p with mig := some { m with tries := m.tries + 1, phase := .retryWait, retryAt := s.six + 10 * sixPerMs } }
  else (s.noteFailed m (m.tasks.headD 0)).beginNext

/-- MIGRATION_VERIFY: at an index the check values of source and target have been compared; when they are the same, H is chosen
65,536 SIX ahead, and else the attempt fails (R312-R314). -/
def execMigrationVerify (same : Bool) (six : Nat) (s : State) : Res :=
  match s.phn.mig with
  | none => .next s
  | some m =>
    if m.phase ≠ .parallel then .next s
    else
      let s := s.advanceTo (max six (s.verifyFrom m))
      if same then .next (s.modPhn fun p => { p with mig := some { m with phase := .verified, h := s.handAt m (s.six + 65536) } })
      else .next (s.migFail m)

/-- MIGRATION_HANDOVER: at H the outputs switch to the target, with writer, spectra, graticule and triggers (R193, R225, R263, R313). -/
def execMigrationHandover (s : State) : Res :=
  match s.phn.mig with
  | none => .next s
  | some m =>
    if m.phase ≠ .verified then .next s
    else
      let s := s.advanceTo m.h
      let old := ((m.tasks.filterMap s.task).flatMap (·.grants)).filter (·.tied)
      let s := s.moveGroup m.h m.goal
      .next (s.modPhn fun p => { p with mig := some { m with phase := .handedOver, old := old } })

/-- The source returns, and its tasks are RUNNING on the target; the placement epoch counts each of them (R315). -/
def State.migRelease (s : State) (m : Migration) : State :=
  let s := s.modPhn fun p => { p with mig := none }
  let s := s.each m.source State.idlePipe
  let s := s.each (m.source.map (· / 3)).eraseDups State.idleTrg
  let s := s.each m.tasks fun s id => ((s.modTask id fun t => { t with st := .running }).bumpEpoch).notify id causeMIGRATED m.h 0
  s.rotWake.readmit.beginNext

/-- MIGRATION_RELEASE: everything labelled before H has been delivered, and the source is released (R315). -/
def execMigrationRelease (s : State) : Res :=
  match s.phn.mig with
  | none => .next s
  | some m => if m.phase ≠ .handedOver then .next s else .next (s.migRelease m)

/-- MIGRATION_RETRY: 10 ms after a failed attempt, the migration is tried again; while its channel is SHADOWING or RETURNING it waits for
the next handover (R126, R314). -/
def execMigrationRetry (s : State) : Res :=
  match s.phn.mig with
  | none => .next s
  | some m =>
    if m.phase ≠ .retryWait then .next s
    else
      let s := (s.advanceTo m.retryAt).modPhn fun p => { p with mig := none }
      match (m.tasks.filterMap s.task).find? fun t => decide (t.st = .running) with
      | none => .next s.beginNext
      | some t =>
        if s.spareFirst t then .next (s.modPhn fun p => { p with mig := some m })
        else
        let again := if m.cause = .modify ∨ m.cause = .rebalance then m else { m with goal := [], target := [] }
        match s.goalOf again t with
        | some goal => .next (s.attempt m goal)
        | none => .next ((s.noteFailed m t.id).beginNext)

/-- A synchronising reset without LOAD_SIX during a migration: verification starts again, and an H not yet reached is discarded (R316). -/
def State.migReset (s : State) (six : Nat) : State :=
  match s.phn.mig with
  | some m =>
    if m.phase = .parallel ∨ m.phase = .verified then s.modPhn fun p => { p with mig := some { m with phase := .parallel, startAt := six, h := 0 } } else s
  | none => s

/-! ### Faults of pipelines (R317, R318). -/

/-- SPARE_HANDOVER at H of rotation; a migration or a command that waited for it goes on (R120, R126). -/
def execHandover (s : State) : Res := .next s.handover.beginNext

/-- The interval without clean samples is stored as zeros with GAP_BEFORE, and the target begins with its first clean output (R318). -/
def State.zeroFill (s : State) (src dst a : Nat) : State :=
  let lp := s.labelP dst
  let clean := s.labelAt dst a + s.settleD dst * lp
  let c := s.chain src
  let n := (clean - c.nextLabel) / lp
  let gap : List ChainSample := (List.range n).map fun i =>
    { label := c.nextLabel + i * lp, i := 0, q := 0, marks := markGAP, src := (s.chainSrc dst).getD 0xF }
  let s := if s.wrState dst = wrIDLE then s else s.modChain dst fun d => { d with fifo := d.fifo ++ gap }
  s.modChain dst fun d => { d with nextLabel := clean, settleLeft := 0 }

/-- Tasks leave a faulted pipeline without a parallel run: the target starts at the first frame boundary, triggers restart, and the
graticule keeps its planes as of its last tick end (R223, R318). -/
def State.faultMove (s : State) (group goal : List Task) : State :=
  let a := ceilTo 32 s.six
  let s := s.advanceTo a
  let src := (group.map (·.pipes)).headD []
  let dst := (goal.map (·.pipes)).headD []
  let fresh := dst.filter fun p => !s.isActive (keyDDC p)
  let s := s.each group fun s t => s.notify t.id causeMIGRATION_BEGIN s.six 0
  let s := s.each src fun s p => s.modGrat p fun g => { g with ticks := [] }
  let s := (s.loadTarget goal).moveGroup a goal
  let s := s.each (List.range dst.length) fun s i =>
    if fresh.contains (dst.getD i 0) then (s.zeroFill (src.getD i 0) (dst.getD i 0) a).trigReset (dst.getD i 0) a false else s
  let s := s.each src State.idlePipe
  s.each group fun s t => ((s.modTask t.id fun x => { x with st := .running }).bumpEpoch).notify t.id causeMIGRATED a 0

end Sys2Proof.Machine
end

