-- ==== Sys2Proof/Machine/Phoin.lean ====
section
/-! DEFINITION. The commands of ring 0 (R266-R295): SUBMIT, MODIFY, PLAN, the commands on resident tasks, RESERVE, RELEASE and REBALANCE;
and what Phoin does when blocks, memory or regions are lost (R317-R321). -/

namespace Sys2Proof.Machine

/-! ### SUBMIT (R284, R286, R306, R308). -/

/-- A slot is free: its task is terminal, and its streams are closed (R284). -/
def State.slotFree (s : State) (n : Nat) : Bool := match s.taskAt n with | some t => !t.st.live && t.closed | none => true

/-- The lowest free slot (R284). -/
def State.freeTaskSlot (s : State) : Option Nat := (List.range 4096).find? s.slotFree

/-- The generation that a slot takes next (R284). -/
def State.nextGen (s : State) (slot : Nat) : Nat :=
  let g := mget (fun _ => 0) s.phn.gens slot
  if g = 0xFFFFF then 1 else g + 1

/-- A task as it is submitted. -/
def newTask (id arrival : Nat) (e : List Byte) : Task :=
  { id := id, arrival := arrival, st := .submitted, desc := e, ext := [], pinned := false, why := 0, pipes := [], stack := 0, hasMem := false,
    pieces := [], grants := [], maps := [], startAt := 0, startedAt := 0, memLost := false, closed := false, code := 0, sub := 0, image := [],
    restart := false }

/-- A task takes its slot and its arrival number (R284, R302). -/
def State.takeSlot (s : State) (t : Task) : State :=
  (s.setTask t).modPhn fun p => { p with gens := mput p.gens (t.id % 4096) (t.id / 4096), arrivals := p.arrivals + 1 }

/-- A CALIBRATION_HOLD asks for the migrations that free its pipelines (R319). -/
def State.freeHold (s : State) (t : Task) : State :=
  if dTYPE t.desc ≠ 7 then s
  else
    s.askMoves (t.pipes.filterMap fun p =>
      match (groupOn (s.holdingTasks.filter fun x => decide (x.id ≠ t.id)) p).map (·.id) with
      | [] => none
      | ids => some (Migration.ask .survey ids t.pipes []))

/-- A rejection for another reason than admission, with its report (R273, R292). -/
def State.refuse (s : State) (e : List Byte) (id st index code sub d : Nat) : State × Option Answer :=
  let r := s.report e (rejectReport id st index 0xFFFF 0) (.rejected id code sub d)
  (r.1, some r.2)

/-- SUBMIT on the evaluated command: admission, or the rejection with its reason (R286, R306, R308). -/
def State.submit (s : State) (e : List Byte) (ext image : Option (List Byte)) : State × Option Answer :=
  let no (code sub d : Nat) : State × Option Answer := s.refuse e 0 TaskState.rejected.code 0 code sub d
  match s.freeTaskSlot with
  | none => no codeNOSPACE subNO_SLOT 0
  | some slot =>
    let id := s.nextGen slot * 4096 + slot
    let all := s.liveTasks
    match s.describe all (newTask id s.phn.arrivals e) e ext image with
    | .error (code, sub, d) => no code sub d
    | .ok t =>
      match (s.envOf all id).admits t [] (cNO_EVICT e) with
      | (.exceeds cls x, _) =>
        let s := s.takeSlot { t with st := .rejected, closed := true, code := codeNOSPACE }
        let r := s.report e (rejectReport id TaskState.rejected.code 0 cls x) (.noSpace id (coPlace t.desc cls) cls)
        (r.1, some r.2)
      | (.fits x, gone) =>
        if s.trgConflict all x then no codeSTATE subCONFLICT 0
        else
          let s := ((s.takeSlot x).evict gone).commitPlace x
          let s := s.freeHold x
          let r := s.report e (s.taskReport id (s.task id).toList 0 gone) (.done id)
          (r.1, some r.2)

/-- SUBMIT (R286). -/
def execSubmit (entry : List Byte) (ext image : Option (List Byte)) (s : State) : Res :=
  .next (s.evaluate opSUBMIT entry fun s => s.submit entry ext image)

/-! ### PLAN (R290, R291). -/

/-- An evicted task in a hypothetical set. -/
def Task.asEvicted (t : Task) : Task :=
  if t.st = .suspended then { t with hasMem := false, pieces := [], grants := [] }
  else { t with st := .suspended, why := causeEVICTED, pipes := [], maps := [], grants := t.grants.filter fun g => decide (g.cls = 3) }

/-- PLAN on the evaluated command: the set that would result, and the answer (R290, R291). -/
def State.plan (s : State) (e : List Byte) (ext image : Option (List Byte)) : State × Option Answer :=
  let all := s.phn.chain.getD s.liveTasks
  let index := (all.filter fun t => decide (2 ^ 32 ≤ t.id)).length
  let id := 2 ^ 32 + index
  let s0 := s.modPhn fun p => { p with chain := if cCHAIN e then some all else none }
  let no (code sub d : Nat) : State × Option Answer := s0.refuse e 0 TaskState.rejected.code index code sub d
  if 4096 ≤ (s.phn.tasks.filter fun x => x.2.st.live || !x.2.closed).length + index then no codeNOSPACE subNO_SLOT 0
  else
    match s.describe all (newTask id (s.phn.arrivals + index) e) e ext image with
    | .error (code, sub, d) => no code sub d
    | .ok t =>
      match (s.envOf all id).admits t [] (cNO_EVICT e) with
      | (.exceeds cls x, _) =>
        let r := s0.report e (rejectReport 0 TaskState.rejected.code index cls x)
          { Answer.done 0 with code := codeNOSPACE, sub := coPlace t.desc cls, resource := cls }
        (r.1, some r.2)
      | (.fits x, gone) =>
        if s.trgConflict all x then no codeSTATE subCONFLICT 0
        else
          let x := { x with st := .placed }
          let all := (all.map fun y => if gone.any fun g => decide (g.id = y.id) then y.asEvicted else y) ++ [x]
          let s := s.modPhn fun p => { p with chain := if cCHAIN e then some all else none }
          let env : Env := { s := s, all := all, extra := s.extraGrants, noPipes := [] }
          let rep : Report := { task := 0, result := 1, state := TaskState.placed.code, index := index, exceeds := 0xFFFF, overBy := 0,
                                entries := env.taskEntries x 0 ++ evictedEntries gone }
          let r := s.report e rep (.done 0)
          (r.1, some r.2)

/-- PLAN evaluates a descriptor and places nothing (R290, R291). -/
def execPlan (entry : List Byte) (ext image : Option (List Byte)) (s : State) : Res :=
  .next (s.evaluate opPLAN entry fun s => s.plan entry ext image)

/-! ### MODIFY (R287). -/

/-- What a MODIFY may not change: the offset of the field. -/
def modifyChange (old new : List Byte) : Option Nat :=
  if dTYPE old ≠ dTYPE new then some 0x20
  else if dTRIGGER old = 0 ∧ dCHANNEL old ≠ dCHANNEL new then some 0x24
  else if dTRIGGER old ≠ dTRIGGER new then some 0x84
  else none

/-- A task that PIN has fixed stays PINNED, at the pipeline it is on. -/
def keepPin (t : Task) (e : List Byte) : List Byte :=
  if t.pinned ∧ dPIN_PIPE e = 0xFF ∧ !t.pipes.isEmpty then putBytesAt e 0x25 (leBytes (t.pipes.headD 0) 1) else e

/-- IQ_RECORD tasks that take their settings from a task (R280), as a change of it makes them. -/
def dependents (all : List Task) (t : Task) (d : List Byte) : List Task :=
  (all.filter fun x => x.st.holding && decide (dTRIGGER x.desc = t.id)).map fun x => { x with desc := putBytesAt x.desc 0x24 ((d.drop 0x24).take 0x1C) }

/-- Words take effect in place: new ones, and those that take dropped numbers out of service. -/
def State.applyInPlace (s : State) (t x : Task) : State :=
  let lost := t.maps.filter fun m => !x.maps.contains m
  s.pendAll (clearPatches { t with maps := lost } ++ taskPatches s.liveTasks x)

/-- A RUNNING task takes its changed descriptor where it is (R287). -/
def State.modifyHere (s : State) (t x : Task) : State :=
  let x := { x with st := t.st }
  let s := ((s.dropRings t (x.insts 10)).setTask x).takeRings x
  let s := if dDEST x.desc = 0 then s else if dDEST t.desc = 0 then s.openStream x (streamPorts x) else s.setPorts x.id (streamPorts x)
  let s := s.bumpEpoch.refreshInputs (dCHANNEL x.desc)
  if needsPipe x.desc then
    let old := pagesOf t
    let new := pagesOf x
    let keep := (s.holdingTasks).flatMap pagesOf
    let s := (s.changeMemory (x.pipes.headD 0) t x).applyInPlace t x
    let s := s.loadItems x
    let s := s.each (old.reverse.filter fun k => !keep.contains k) State.stopPage
    s.each (new.filter fun k => !old.contains k) State.startPage
  else if dTYPE x.desc = 4 then ((s.coresRelease t).coresStart x).loadCoreItems x
  else if dTYPE x.desc = 6 then s.stageDsp (s.feedWords x.desc true) false
  else if dTYPE x.desc = 7 then
    { s with svy := { s.svy with holds := s.svy.holds.map fun h =>
        if h.task = x.id then { h with convs := bitsSet (dCONVERTERS x.desc) 5, pipes := x.pipes, deadline := x.startedAt + dHOLD_MS x.desc * sixPerMs } else h } }
  else s

/-- A RUNNING task's changed descriptor is placed: where it is when it fits there, elsewhere otherwise, with the tasks that take their
settings from it (R287, R302). -/
def Env.placeModified (e : Env) (t x : Task) (deps : List Task) (noEvict : Bool) : Except (Nat × Nat) (List Task × List Task) :=
  let e : Env := { e with all := e.all.filter fun y => !deps.any fun d => decide (d.id = y.id) }
  let here : Env := { e with noPipes := e.noPipes ++ (List.range 6).filter fun p => !t.pipes.contains p }
  let v : Verdict × List Task := match here.place x t.grants with | .fits y => (.fits y, []) | .exceeds _ _ => e.admits x t.grants noEvict
  match v with
  | (.exceeds cls n, _) => .error (cls, n)
  | (.fits y, gone) =>
    let left : Env := { e with all := (e.all.filter fun z => !gone.any fun g => decide (g.id = z.id)) ++ [y] }
    match left.moveOnto y.pipes deps with
    | some ds => .ok (y :: ds, gone)
    | none => .error (0, 1)

/-- MODIFY on the evaluated command (R287). -/
def State.modify (s : State) (t : Task) (e : List Byte) (ext image : Option (List Byte)) : State × Option Answer :=
  let all := s.liveTasks
  let no (code sub d : Nat) : State × Option Answer := s.refuse e t.id t.st.code 0 code sub d
  if t.st = .migrating then no codeBUSY 0 0
  else
    match modifyChange t.desc e with
    | some off => no codeRANGE subFIELD off
    | none =>
      match s.describe (all.filter fun x => decide (x.id ≠ t.id)) t (keepPin t e) ext image with
      | .error (code, sub, d) => no code sub d
      | .ok x =>
        let x := { x with pinned := x.pinned || t.pinned }
        if t.st = .suspended then
          let s := s.setTask x
          let r := s.report e (s.taskReport t.id [x] 0 []) (.done t.id)
          (r.1, some r.2)
        else
          let deps := dependents all t x.desc
          match (s.envOf all t.id).placeModified t x deps (cNO_EVICT e) with
          | .error (cls, n) =>
            let r := s.report e (rejectReport t.id t.st.code 0 cls n) (.noSpace t.id (coPlace x.desc cls) cls)
            (r.1, some r.2)
          | .ok (goal, gone) =>
            let y := goal.headD x
            let s := s.evict gone
            if t.st = .running ∧ y.pipes ≠ t.pipes then
              let h : HeldCmd := { opcode := opMODIFY, tag := cTAG e, task := t.id, entry := e, moved := t :: deps, failed := none, six := s.six }
              let s := s.modPhn fun p => { p with held := some h, evaluating := false }
              (s.askMoves [Migration.ask .modify (goal.map (·.id)) [] goal], none)
            else
              let s := s.each goal fun s z =>
                match s.task z.id with
                | some o => if o.st = .running then s.modifyHere o z else (s.dropRings o []).commitPlace z
                | none => s
              let r := s.report e (s.taskReport t.id (s.task t.id).toList 0 gone) (.done t.id)
              (r.1, some r.2)

/-- MODIFY replaces a task's descriptor (R287). -/
def execModify (entry : List Byte) (ext image : Option (List Byte)) (s : State) : Res :=
  .next (s.evaluateTask opMODIFY entry fun s t => s.modify t entry ext image)

/-! ### SUSPEND, RESUME, CANCEL, QUERY, PIN, UNPIN (R287, R292). -/

/-- A command on a MIGRATING task waits until the migration ends (R287). -/
def State.hold (s : State) (opcode : Nat) (e : List Byte) (t : Task) : State × Option Answer :=
  (s.modPhn fun p => { p with evaluating := false, held := some { opcode := opcode, tag := cTAG e, task := t.id, entry := e, moved := [], failed := none, six := s.six } }, none)

/-- SUSPEND: the task keeps its memory (R287, R309). -/
def execTaskSuspend (entry : List Byte) (s : State) : Res :=
  .next (s.evaluateTask opTSUSPEND entry fun s t =>
    if t.st = .migrating then s.hold opTSUSPEND entry t
    else if t.st = .suspended then (s, some (.rejected t.id codeSTATE 0 0))
    else (s.suspendTask t.id 0, some (.done t.id)))

/-- RESUME: a SUSPENDED task is re-admitted, or stays SUSPENDED (R287). -/
def execTaskResume (entry : List Byte) (s : State) : Res :=
  .next (s.evaluateTask opTRESUME entry fun s t =>
    if t.st ≠ .suspended then (s, some (.rejected t.id codeSTATE 0 0))
    else if s.inputConflict s.liveTasks t ∨ displayConflict s.liveTasks t then (s, some (.rejected t.id codeSTATE subCONFLICT 0))
    else
      match (s.envOf s.liveTasks t.id).admits t [] (cNO_EVICT entry) with
      | (.exceeds cls _, _) => (s, some (.noSpace t.id (coPlace t.desc cls) cls))
      | (.fits x, gone) =>
        if s.trgConflict s.liveTasks x then (s, some (.rejected t.id codeSTATE subCONFLICT 0))
        else (((s.evict gone).commitPlace { x with restart := true }).freeHold x, some (.done t.id)))

/-- CANCEL: the task ends CANCELLED, and its stream is closed (R286, R287). -/
def execTaskCancel (entry : List Byte) (s : State) : Res :=
  .next (s.evaluateTask opTCANCEL entry fun s t =>
    if t.st = .migrating then s.hold opTCANCEL entry t
    else ((s.endTask t.id .cancelled codeOK 0).beginNext, some (.done t.id)))

/-- QUERY: a report of a task, or of every resident task (R292). -/
def execTaskQuery (entry : List Byte) (s : State) : Res :=
  if cTASK entry = 0 then
    .next (s.evaluate opTQUERY entry fun s =>
      let r := s.report entry (s.taskReport 0 s.liveTasks 0 []) (.done 0)
      (r.1, some r.2))
  else
    .next (s.evaluateTask opTQUERY entry fun s t =>
      let r := s.report entry (s.taskReport t.id [t] 0 []) (.done t.id)
      (r.1, some r.2))

/-- PIN fixes a task at its present placement (R287). -/
def execPin (entry : List Byte) (s : State) : Res :=
  .next (s.evaluateTask opPIN entry fun s t =>
    if t.st = .migrating then (s, some (.rejected t.id codeBUSY 0 0))
    else if t.pinned then (s, some (.rejected t.id codeSTATE subPINNED 0))
    else
      let d := if needsPipe t.desc ∧ !t.pipes.isEmpty then putBytesAt t.desc 0x25 (leBytes (t.pipes.headD 0) 1) else t.desc
      (s.setTask { t with pinned := true, desc := d }, some (.done t.id)))

/-- UNPIN clears PINNED (R287). -/
def execUnpin (entry : List Byte) (s : State) : Res :=
  .next (s.evaluateTask opUNPIN entry fun s t =>
    if t.st = .migrating then (s, some (.rejected t.id codeBUSY 0 0))
    else if !t.pinned then (s, some (.rejected t.id codeSTATE subNOT_PINNED 0))
    else (s.setTask { t with pinned := false }, some (.done t.id)))

/-! ### RESERVE and RELEASE (R45, R47, R128, R294, R617). -/

/-- Tasks that use a page on pipelines, or a pipeline that a trigger matrix governs (R227). -/
def State.pageUsers (s : State) (key : Nat) : List Task :=
  placementOrder (s.holdingTasks.filter fun t =>
    t.pipes.any (keyPipes [key]).contains || t.pipes.any (fun p => decide (keyTRG (p / 3) = key)) ||
      t.grants.any (fun g => (decide (g.cls = 8) && (List.range g.amount).any fun i => decide (keyMC (g.inst + i) = key)) ||
        (decide (g.cls = 10) && decide (chanKey g.inst = key))) ||
      (decide (dTYPE t.desc = 6) && decide (key = keyDSP)))

/-- Why a key cannot be reserved, in the order of R617; then a PINNED user (R294). -/
def State.reserveError (s : State) (key : Nat) : Option (Nat × Nat) :=
  if !keyListed key then some (codeRANGE, subPAGE_KEY)
  else if (s.page key).owner = .firmware then some (codeOWNER, 0)
  else if (s.page key).owner = .host then some (codeSTATE, 0)
  else if !s.reservable key then some (codeRANGE, subPAGE_KEY)
  else if (s.pageUsers key).any (·.pinned) then some (codeSTATE, subPINNED)
  else none

/-- Pipelines whose tasks must leave for a set of keys, and that they must avoid: those of the keys, and those of a region whose TRG page
is among them (R227). -/
def avoided (keys : List Nat) : List Nat := (List.range 6).filter fun p => (keyPipes keys).contains p || keys.contains (keyTRG (p / 3))

/-- Running tasks by the pipelines they share, in placement order. -/
def groupsOn (all : List Task) (ps : List Nat) : List (List Task) :=
  let on := placementOrder (tasksOn (all.filter fun t => decide (t.st = .running)) ps)
  ((on.map (·.pipes)).eraseDups).map fun q => on.filter fun t => decide (t.pipes = q)

/-- Every group finds a target, one after the other. -/
def Env.canLeave (e : Env) (avoid : List Nat) : List (List Task) → Bool
  | [] => true
  | g :: rest =>
    match e.target g (avoid ++ g.flatMap (·.pipes)) with
    | none => false
    | some goal => ({ e with all := withGoal e.all goal } : Env).canLeave avoid rest

/-- The first key whose users find no other place (R45, R128). -/
def State.reserveStuck (s : State) (keys : List Nat) : Option Nat :=
  let groups := groupsOn s.holdingTasks (avoided keys)
  let convs := keyConvs keys
  if !(s.envOf s.liveTasks 0).canLeave (avoided keys) groups then keys.find? fun k => !(s.pageUsers k).isEmpty
  else if keys.contains keyDSP ∧ !(s.pageUsers keyDSP).isEmpty then some keyDSP
  else if (s.directUsers keys).any fun t => (s.replace t keys).isNone then keys.find? fun k => !(s.pageUsers k).isEmpty
  else
    match convs.find? fun c =>
        let used := !(s.inputTasks c).isEmpty
        if s.guest then used else decide (s.spareState ≠ spareIDLE ∨ 1 < convs.length) || (used && !s.spareAvailable) with
    | some c => keys.find? fun k => decide (k = keyADC c ∨ k = keyAFE c)
    | none => none

/-- RESERVE on the evaluated command: the tasks that use the pages leave first, and the command completes when they have (R45, R294). -/
def State.reserve (s : State) (e : List Byte) : State × Option Answer :=
  let keys := cKeys e
  if u16At e 0x24 = 0 ∨ 16 < u16At e 0x24 then (s, some (.rejected 0 codeRANGE subFIELD 0x24))
  else
    match keys.findSome? fun k => (s.reserveError k).map fun x => (k, x) with
    | some (k, code, sub) => (s, some (.rejected 0 code sub k))
    | none =>
      match s.reserveStuck keys with
      | some k => (s, some { Answer.noSpace 0 0 0 with resource := 0xFFFF, detail0 := k })
      | none =>
        let convs := if s.spareAvailable then keyConvs keys else []
        let s := s.each convs fun s c => (s.rotate c).modRot fun r => { r with reserved := true }
        let h : HeldCmd := { opcode := opRESERVE, tag := cTAG e, task := 0, entry := e, moved := [], failed := none, six := s.six }
        let s := s.modPhn fun p => { p with evaluating := false, held := some h }
        (s.askMoves ((groupsOn s.holdingTasks (avoided keys)).map fun g => Migration.ask .reserve (g.map (·.id)) (avoided keys) []), none)

/-- RESERVE (R45). -/
def execReserve (entry : List Byte) (s : State) : Res := .next (s.evaluate opRESERVE entry fun s => s.reserve entry)

/-- The main converter returns to its input with the zone and attenuation that C4 has, and C4 hands the channel back once the check passes
(R102, R112, R122, R128). -/
def State.startReturn (s : State) : State :=
  let m := s.rot.main
  let b := ceilTo 32 (s.six + 40960)
  let s := s.afeSet m (s.mainInput m) (s.rf (keyAFE 4) Reg.AFE_STAT.ZONE) (s.rf (keyAFE 4) Reg.AFE_STAT.ATTEN) b false
  (s.modRot fun r => { r with h := none, reserved := false, retried := false, waiting := false }).spareEnter spareRETURNING

/-- RELEASE on the evaluated command (R45, R294). -/
def State.release (s : State) (e : List Byte) : State × Option Answer :=
  let keys := cKeys e
  if u16At e 0x24 = 0 ∨ 16 < u16At e 0x24 then (s, some (.rejected 0 codeRANGE subFIELD 0x24))
  else
    match keys.find? fun k => !keyListed k || !s.isReserved k with
    | some k => (s, some (if keyListed k then .rejected 0 codeSTATE 0 k else .rejected 0 codeRANGE subPAGE_KEY k))
    | none =>
      let s := s.each keys State.releasePage
      let s := if s.spareState = spareSTANDING_IN ∧ s.rot.reserved ∧ (keyConvs keys).contains s.rot.main ∧
          !s.isReserved (keyADC s.rot.main) ∧ !s.isReserved (keyAFE s.rot.main) then s.startReturn else s
      (s.bumpEpoch.readmit, some (.done 0))

/-- RELEASE (R45). -/
def execRelease (entry : List Byte) (s : State) : Res := .next (s.evaluate opRELEASE entry fun s => s.release entry)

/-! ### REBALANCE (R295). -/

/-- Place tasks one after the other beside those that stay; `none` when one finds no place. -/
def Env.placeAll (e : Env) : List Task → Option (List Task)
  | [] => some []
  | t :: rest =>
    match e.place t (if dTYPE t.desc = 4 then t.grants.filter fun g => decide (g.cls ≠ 8) else t.grants) with
    | .exceeds _ _ => none
    | .fits x => (({ e with all := e.all ++ [x] } : Env).placeAll rest).map fun l => x :: l

/-- The cores of a task. -/
def Task.coreGrants (t : Task) : List Grant := t.grants.filter fun g => decide (g.cls = 8)

/-- REBALANCE on the evaluated command: every placement anew, in placement order, and migrations where pipelines change; a MEASURE task
whose cores change restarts on its new ones (R295, R537). -/
def State.rebalance (s : State) (e : List Byte) : State × Option Answer :=
  let mine := placementOrder (s.holdingTasks.filter fun t => !t.pinned && decide (t.st ≠ .migrating))
  let rest := s.liveTasks.filter fun t => !mine.any fun x => decide (x.id = t.id)
  let env : Env := { s := s, all := rest, extra := s.extraGrants, noPipes := s.busyPipes }
  let new := (env.placeAll mine).getD mine
  let pairs := (mine.zip new).filter fun x => decide (x.1.pipes ≠ x.2.pipes) || decide (x.1.coreGrants ≠ x.2.coreGrants)
  let s := s.each (pairs.filter fun x => decide (x.1.st = .placed ∨ dTYPE x.1.desc = 4)) fun s (x : Task × Task) => s.takePlace x.1 x.2
  let moves := pairs.filter fun x => decide (x.1.st = .running ∧ dTYPE x.1.desc ≠ 4)
  let ways := (moves.map fun x => (x.1.pipes, x.2.pipes)).eraseDups
  let asks := ways.map fun w =>
    let goal := (moves.filter fun x => decide ((x.1.pipes, x.2.pipes) = w)).map (·.2)
    Migration.ask .rebalance (goal.map (·.id)) [] goal
  let h : HeldCmd := { opcode := opREBALANCE, tag := cTAG e, task := 0, entry := e, moved := pairs.map (·.1), failed := none, six := s.six }
  let s := s.modPhn fun p => { p with evaluating := false, held := some h }
  (s.askMoves asks, none)

/-- REBALANCE (R295). -/
def execRebalance (entry : List Byte) (s : State) : Res := .next (s.evaluate opREBALANCE entry fun s => s.rebalance entry)

/-! ### Losses (R286, R317-R321). -/

/-- A PINNED task whose pipeline fails is no longer PINNED (R286). -/
def State.unpin (s : State) (t : Task) : State :=
  if t.pinned then (s.modTask t.id fun x => { x with pinned := false }).notify t.id causeUNPINNED s.six 0 else s

/-- A task that holds its place cannot keep it: it is placed anew, or is SUSPENDED (R286). -/
def State.reseat (s : State) (id : Nat) (avoid : List Nat) : State :=
  match s.task id with
  | none => s
  | some t =>
    match s.replace t avoid with
    | some x => s.takePlace t x
    | none => s.suspendTask id causeNO_RESOURCE

/-- Tasks of one pipeline leave after a fault of it: RUNNING ones without a parallel run, PLACED ones by a new placement (R318). -/
def State.leaveFaulted (s : State) (p : Nat) (avoid : List Nat) : State :=
  let s := s.each (s.pipeTasks p) State.unpin
  let on := placementOrder (s.pipeTasks p)
  let run := on.filter fun t => decide (t.st = .running) && needsPipe t.desc
  let s : State := match run with
    | [] => s
    | t :: _ =>
      match (s.envOf s.liveTasks 0).target run (t.pipes ++ avoid) with
      | some goal => s.faultMove run goal
      | none => s.each (run.map (·.id)) fun s id => s.suspendTask id causeNO_RESOURCE
  s.each ((on.filter fun t => !run.any fun x => decide (x.id = t.id)).map (·.id)) fun s id => s.reseat id []

/-- A fault on a pipeline of the migration in progress: before the verification the migration is cancelled, after it the handover comes at
the first H, and a fault of the target is a failed attempt (R314, R317, R318). -/
def State.migFault (s : State) (p : Nat) : State :=
  match s.phn.mig with
  | none => s
  | some m =>
    if m.phase = .handedOver then (if m.source.contains p then s.migRelease m else s)
    else if m.target.contains p then (if m.phase = .retryWait then s else s.migFail m)
    else if m.source.contains p then
      if m.phase = .verified then
        let h := s.handAt m s.six
        let old := ((m.tasks.filterMap s.task).flatMap (·.grants)).filter (·.tied)
        let s := ((s.advanceTo h).moveGroup h m.goal).each (List.range m.target.length) fun s i => s.zeroFill (m.source.getD i 0) (m.target.getD i 0) h
        s.migRelease { m with h := h, old := old, phase := .handedOver }
      else
        let s := s.modPhn fun q => { q with mig := none }
        let s := s.each m.tasks fun s id => s.modTask id fun t => { t with st := .running }
        (s.dropTarget m.goal m.target).noteFailed m (m.tasks.headD 0)
    else s

/-- Phoin's answer to a block in FAULT (R317, R318, R537). -/
def State.phoinFault (s : State) (key : Nat) : State :=
  let s : State := match keyPipes [key] with
    | [p] => (s.migFault p).leaveFaulted p []
    | _ =>
      match blockOf key with
      | .trg =>
        let r := keyRegion key - 1
        s.each ((List.range 3).map (3 * r + ·)) fun s p =>
          if (s.pipeTasks p).any usesTrg then (s.migFault p).leaveFaulted p ((List.range 3).map (3 * r + ·)) else s
      | .mc | .trv => s.each ((s.directUsers [key]).map (·.id)) fun s id => s.reseat id [key]
      | .dsp => s.each ((s.pageUsers key).map (·.id)) fun s id => s.suspendTask id causeNO_RESOURCE
      | _ => s
  s.beginNext.refreshPhn

/-- PREDICTIVE_FAULT: a cell error rate is past its warning threshold, and the block's tasks migrate before it enters FAULT (R317). -/
def execPredictiveFault (page : Fin 8192) (s : State) : Res :=
  match keyPipes [page.val] with
  | [p] => .next (s.askMoves ((groupsOn s.holdingTasks [p]).map fun g => Migration.ask .predictive (g.map (·.id)) [] []))
  | _ => .next s

/-- User memory of a task is no longer mapped. -/
def State.memoryGone (s : State) (t : Task) : Bool :=
  t.hasMem && t.pieces.any fun p => !(s.memRanges t.stack).any fun r => decide (r.1 ≤ p.base) && decide (p.base + p.bytes ≤ r.1 + r.2)

/-- A task loses its memory: it is SUSPENDED until it fits with new memory (R309, R320). -/
def State.loseMemory (s : State) (id : Nat) : State :=
  match s.task id with
  | none => s
  | some t => if t.st = .suspended then s.dropMemory id else (s.suspendTask id causeNO_RESOURCE).dropMemory id

/-- A stack's capacity has fallen: the tasks whose memory is no longer mapped are re-admitted as after a loss of memory (R320). -/
def State.loseLayer (s : State) (m : Nat) : State :=
  let gone := (s.liveTasks.filter fun t => decide (t.stack = m) && s.memoryGone t).map (·.id)
  if gone.isEmpty then s else (s.each gone State.loseMemory).readmit

/-- A task was placed in a region, or held memory there. -/
def Task.inRegion (t : Task) (r : Nat) : Bool :=
  t.pipes.any (fun p => decide (p / 3 = r)) || (t.hasMem && !t.pieces.isEmpty && decide (t.stack / 2 = r)) ||
    t.grants.any fun g => (decide (g.cls = 8) && decide (g.inst / 32 = r)) || (decide (g.cls = 10) && decide (256 + 128 * r ≤ g.inst ∧ g.inst < 384 + 128 * r))

/-- Analysis region `r` is isolated: its tasks are placed anew in placement order, with new memory and a new epoch, or are SUSPENDED
(R321). -/
def State.evacuate (s : State) (r : Nat) : State :=
  let s : State := match s.phn.mig with
    | some m => if (m.source ++ m.target).any fun p => decide (p / 3 = r) then s.migFault (((m.source ++ m.target).find? fun p => decide (p / 3 = r)).getD 0) else s
    | none => s
  let lost := placementOrder (s.liveTasks.filter fun t => t.inRegion r)
  let s := s.each lost fun s t => if t.pipes.any fun p => decide (p / 3 = r) then s.unpin t else s
  let s := s.each lost fun s t => if t.st = .suspended then s.dropMemory t.id else (s.suspendTask t.id 0).dropMemory t.id
  let s := s.each lost fun s t =>
    if t.st = .suspended then s
    else
      match s.task t.id with
      | none => s
      | some x =>
        match (s.envOf s.liveTasks t.id).place x [] with
        | .fits y => s.commitPlace { y with restart := true }
        | .exceeds _ _ => (s.modTask t.id fun z => { z with why := causeNO_RESOURCE }).notify t.id causeNO_RESOURCE s.six 0
  s.beginNext.refreshPhn

end Sys2Proof.Machine
end

