-- ==== Sys2Proof/Machine/Survey.lean ====
section
/-! DEFINITION. Surveys, trims and calibration storage (R322-R346). -/

namespace Sys2Proof.Machine

/-- Change the survey controller. -/
def State.modSvy (s : State) (f : Survey → Survey) : State := { s with svy := f s.svy }

def subINPUT_BUSY : Nat := 0x01
def subTRIM_RANGE : Nat := 0x03
def subVERIFY_FAIL : Nat := 0x04
def subSTEP_TIMEOUT : Nat := 0x06
def subCONVERTER_FAULT : Nat := 0x07
def subSTORE_VERIFY : Nat := 0x09
def subSTORE_TIMEOUT : Nat := 0x0A

/-! ### Due converters (R330). -/

/-- Converters of the module: C4 is on variant -S only (R3). -/
def State.allConvs (s : State) : List Nat := if s.guest then [0, 1, 2, 3] else [0, 1, 2, 3, 4]

/-- Age in seconds since a converter's last committed survey (R346). -/
def State.surveyAge (s : State) (c : Nat) : Nat :=
  match mfind s.svy.doneAt c with
  | some t => min (2 ^ 32 - 1) ((s.six - t) / (1000 * sixPerMs))
  | none => 2 ^ 32 - 1

/-- Drift of the temperature since the last committed survey, in 1/16 °C. -/
def State.surveyDrift (s : State) (c : Nat) : Nat :=
  (signedOf 16 (s.rf (keyADC c) Reg.ADC_TEMP.TEMP) - signedOf 16 (s.rf keySVY (Reg.SVY_TEMP c) % 65536)).natAbs

/-- A converter is due: by 5 °C or by 1,800 s. -/
def State.isDue (s : State) (c : Nat) : Bool := decide (80 ≤ s.surveyDrift c) || decide (1800 ≤ s.surveyAge c)

/-- SVY_AGEn and SVY_QUEUE.DUE follow the clock and the temperatures. -/
def State.refreshDue (s : State) : State :=
  let s := s.each s.allConvs fun s c => s.setReg keySVY (Reg.SVY_AGE c).off (word (s.surveyAge c))
  s.wf keySVY Reg.SVY_QUEUE.DUE ((s.allConvs.filter s.isDue).map (2 ^ ·)).sum

/-- The order between two due converters: temperature first, then the larger drift or greater age, then the lower index. -/
def State.dueFirst (s : State) (a b : Nat) : Bool :=
  let ta : Bool := decide (80 ≤ s.surveyDrift a)
  let tb : Bool := decide (80 ≤ s.surveyDrift b)
  if ta ≠ tb then ta
  else
    let x := if ta then s.surveyDrift a else s.surveyAge a
    let y := if ta then s.surveyDrift b else s.surveyAge b
    decide (y < x) || (decide (x = y) && decide (a < b))

/-- The first of some converters in that order. -/
def State.mostDue (s : State) : List Nat → Option Nat
  | [] => none
  | c :: rest => match s.mostDue rest with | some d => some (if s.dueFirst c d then c else d) | none => some c

/-- A converter can be surveyed: it is LOCKED, not in FAULT, and its pages are not reserved; a failed one waits 60 s (R329), and C4 its
turn after a channel that it has (R331). -/
def State.surveyable (s : State) (c : Nat) : Bool :=
  (decide (c ≠ 4) || decide (s.spareState = spareIDLE)) &&
  s.convLocked c && !s.pageFaulted (keyADC c) && !s.isReserved (keyADC c) && !s.isReserved (keyAFE c) &&
    (match mfind s.svy.requeue c with | some t => decide (t ≤ s.six) | none => true)

/-- The converter to survey next, with the CALIBRATION_HOLD that asks for it (R330, R333). -/
def State.nextSurvey (s : State) : Option (Nat × Option Nat) :=
  let ok (c : Nat) : Bool := s.allConvs.contains c && s.surveyable c
  match s.svy.holds.findSome? fun h => (h.convs.find? ok).map fun c => (c, some h.task) with
  | some x => some x
  | none =>
    match s.svy.startOrder.find? ok with
    | some c => some (c, none)
    | none => (s.mostDue (s.allConvs.filter fun c => s.isDue c && ok c)).map fun c => (c, none)

/-! ### Running a survey (R325-R329). -/

/-- Change the survey in progress. -/
def State.modRun (s : State) (f : SurveyRun → SurveyRun) : State := s.modSvy fun v => { v with run := v.run.map f }

/-- Timeouts of steps 2-8 in µs (R325). -/
def stepTimeoutUs (n : Nat) : Nat :=
  if n = 2 then 2000 else if n = 3 then 50 else if n = 4 then 20000 else if n = 5 then 80000 else if n = 6 then 40000 else if n = 7 then 5000 else 3000

/-- Begin a step. -/
def State.stepTo (s : State) (n : Nat) : State :=
  (s.modRun fun r => { r with step := n, deadline := s.six + stepTimeoutUs n * sixPerUs }).wf keySVY Reg.SVY_STAT.STEP n

/-- The first frame boundary at least 40,960 samples ahead (R101, R334). -/
def State.settleBoundary (s : State) : Nat := ceilTo 32 (s.six + 40960)

/-- C4 stands in for the converter (R123). -/
def State.standingFor (s : State) (c : Nat) : Bool := decide (s.spareState = spareSTANDING_IN) && decide (s.rot.main = c)

/-- ROTATE: with the spare C4 is assigned, or carries the channel already where it stands in; without it INPUT CAL waits for X; with no
task the converter takes INPUT CAL (R123, R325, R331). -/
def State.surveyRotate (s : State) (r : SurveyRun) : State :=
  let c := r.conv
  let k := keyAFE c
  let standing := s.standingFor c
  let has : Bool := decide (c < 4) && !(s.inputTasks c).isEmpty
  let spare := standing || (has && s.spareAvailable)
  let s := (s.stepTo 2).wb keySVY Reg.SVY_STAT.SPARELESS (has && !spare)
  let prev := s.rf k Reg.AFE_STAT.INPUT
  let s := s.modRun fun r => { r with spare := spare, hasTask := has, prevInput := prev, prevZone := s.rf k Reg.AFE_STAT.ZONE,
                                      prevAtten := s.rf k Reg.AFE_STAT.ATTEN, x := s.settleBoundary, y := 0 }
  let s := s.modSvy fun v => { v with prevTrims := mput v.prevTrims c (s.page (keyTRM c)).regs }
  if standing then s
  else if spare then s.rotate c
  else if has then s
  else
    let s := if c = 4 then s.setSpareSel 0 else s
    s.afeSet c 2 (s.rf k Reg.AFE_STAT.ZONE) (s.rf k Reg.AFE_STAT.ATTEN) s.settleBoundary (decide (c = 4))

/-- Converters that a CALIBRATION_HOLD names, one for each of its pipelines in order (R319, R333). -/
def State.holdConvs (s : State) (id : Nat) : List Nat :=
  match s.task id with | some t => bitsSet (dCONVERTERS t.desc) 5 | none => []

/-- WAIT: the survey takes its pipeline, from its CALIBRATION_HOLD or by R319, or is deferred; a pipeline in use is freed first (R319,
R332). -/
def State.surveyWait (s : State) (r : SurveyRun) : State :=
  let held := s.svy.holds.flatMap (·.pipes)
  let mine : Option Nat := match r.hold with
    | some id => (s.svy.holds.find? fun h => decide (h.task = id)).bind fun h => h.pipes[(s.holdConvs id).findIdx (· = r.conv)]?
    | none => none
  let p := if r.pipe < 6 then some r.pipe else match mine with | some p => some p | none => (s.envOf s.liveTasks 0).surveyPipe r.conv held
  let bit := s.rf keySVY Reg.SVY_QUEUE.DEFERRED
  match (if r.conv = 4 ∧ s.spareState ≠ spareIDLE then none else p) with
  | none => (s.modRun fun r => { r with pipe := 6 }).wf keySVY Reg.SVY_QUEUE.DEFERRED (putBit bit r.conv true)
  | some p =>
    let users := (s.pipeTasks p).filter fun t => some t.id ≠ r.hold
    if users.isEmpty then ((s.modRun fun r => { r with pipe := p }).wf keySVY Reg.SVY_QUEUE.DEFERRED (putBit bit r.conv false)).surveyRotate { r with pipe := p }
    else if (s.phn.migQueue ++ s.phn.mig.toList).any fun m => users.any fun t => m.tasks.contains t.id then s.modRun fun r => { r with pipe := p }
    else if r.pipe < 6 then (s.modRun fun r => { r with pipe := 6 }).wf keySVY Reg.SVY_QUEUE.DEFERRED (putBit bit r.conv true)
    else (s.modRun fun r => { r with pipe := p }).askMoves [Migration.ask .survey ((groupOn s.holdingTasks p).map (·.id)) [p] []]

/-- Start the next survey that is called for. -/
def State.scheduleSurvey (s : State) : State :=
  let s := s.refreshDue
  if s.svy.run.isSome ∨ (s.page keySVY).st = .off then s
  else
    match s.nextSurvey with
    | none => s
    | some (c, hold) =>
      let r : SurveyRun := { conv := c, step := 1, deadline := 0, spare := false, hasTask := false, prevInput := 3, prevZone := 0, prevAtten := 15,
                             pipe := 6, x := 0, y := 0, fin := none, trims := [], hold := hold }
      let s := s.modSvy fun v => { v with run := some r, requeue := mdel v.requeue c }
      ((s.wf keySVY Reg.SVY_STAT.CONV c).wf keySVY Reg.SVY_STAT.STEP 1).surveyWait r

/-- The survey number after another (R338). -/
def nextSurveyNo (n : Nat) : Nat := if 0x1FFFFF ≤ n then 1 else n + 1

/-- FLAT_ID of table m (R338). -/
def flatIdOf (survey conv m : Nat) : Nat := survey * 2048 + conv * 256 + m / 16 * 64 + m % 16

/-- Measured trims and tables go into the TRM page of a detached converter, numbered as the next survey (R336-R338). -/
def State.writeTrims (s : State) (r : SurveyRun) : State :=
  let k := keyTRM r.conv
  let n := nextSurveyNo (s.rf keySVY Reg.SVY_SEQ % 2 ^ 21)
  let s := s.each r.trims fun s w => s.setReg k w.1 w.2
  let s := s.each (List.range 48) fun s m => s.setReg k (0x800 + 8 * m) (word (flatIdOf n r.conv m))
  (s.wf k Reg.TRM_STAT.SRC 3).wf k Reg.TRM_STAT.SURVEY n

/-- RETURN begins: new trims, or the committed ones, are in place before the converter rejoins a channel; then hand-back, Y, or the
previous input (R325, R329, R334, R336). -/
def State.surveyReturn (s : State) : State :=
  match s.svy.run with
  | none => s
  | some r =>
    let c := r.conv
    let s := if r.fin.isNone then s.writeTrims r else if 3 ≤ r.step then s.restoreTrims c else s
    let s := s.stepTo 8
    if r.spare then
      (if s.spareState = spareCARRYING ∨ (s.standingFor c ∧ r.fin.isNone) then s.startReturn
       else if s.standingFor c then s.afeSet c r.prevInput r.prevZone r.prevAtten s.settleBoundary false
       else if s.spareState = spareALIGNING ∨ s.spareState = spareSHADOWING then s.spareDone 3 else s)
    else if r.hasTask then
      (if s.isStale c then s.modRun fun r => { r with y := s.settleBoundary } else s)
    else s.afeSet c r.prevInput r.prevZone r.prevAtten s.settleBoundary false

/-- The survey ends: SVY_LASTn, counts, queue, log and interrupt follow, and the next one is scheduled (R329, R333, R338, R346). -/
def State.surveyEnd (s : State) : State :=
  match s.svy.run with
  | none => s
  | some r =>
    let c := r.conv
    let s := if r.fin.isSome then s.restoreTrims c else s
    let s := s.modSvy fun v => { v with run := none, startOrder := v.startOrder.filter (· ≠ c), prevTrims := mdel v.prevTrims c }
    let s := (((s.wf keySVY Reg.SVY_STAT.STEP 0).wf keySVY Reg.SVY_STAT.CONV 7).wb keySVY Reg.SVY_STAT.SPARELESS false)
    let s : State := match r.fin with
      | none =>
        let secs := if s.rb keyTBS Reg.TBS_STATE.TIME_VALID then (s.legendTime s.six 0).1 else 0
        let s := s.wf keySVY Reg.SVY_SEQ (nextSurveyNo (s.rf keySVY Reg.SVY_SEQ % 2 ^ 21))
        let s := s.modSvy fun v => { v with doneAt := mput v.doneAt c s.six, doneSecs := mput v.doneSecs c secs }
        let s := s.setReg keySVY (Reg.SVY_TEMP c).off (word (s.rf (keyADC c) Reg.ADC_TEMP.TEMP))
        let s := (s.setReg keySVY (0x110 + 4 * c) (word (8 * 2 ^ 20))).count keySVY Reg.SVY_COUNT_OK
        s.wb keySVY Reg.SVY_BANK.STORE_PENDING true
      | some (code, sub, step) =>
        let fails := min 255 (s.rf keySVY (Reg.SVY_LAST.FAILS c) + 1)
        let s := s.setReg keySVY (0x110 + 4 * c) (word (fails * 2 ^ 24 + step * 2 ^ 20 + sub * 2 ^ 8 + code))
        let s := s.count keySVY Reg.SVY_COUNT_FAIL
        let s := if sub = subINPUT_BUSY ∧ code = codeFAULT then s.count keySVY Reg.SVY_COUNT_BUSY else s
        let s := if fails = 5 ∧ ¬(sub = subINPUT_BUSY ∧ code = codeFAULT) then s.setErrLogged keySVY 18 else s
        s.modSvy fun v => { v with requeue := mput v.requeue c (s.six + 60000 * sixPerMs) }
    let s := (s.logPage (keyADC c) 0 0 0 12 (s.reg keySVY (0x110 + 4 * c)).toNat).irqBit keySVY 16
    let s := s.modSvy fun v => { v with holds := v.holds.map fun h => { h with convs := h.convs.filter (· ≠ c) } }
    let s : State := match s.svy.holds.find? fun h => h.convs.isEmpty with
      | some h => s.endTask h.task .done codeOK 0
      | none => s
    s.scheduleSurvey

/-- The survey is to end other than OK at its present step. -/
def State.surveyAbort (s : State) (code sub : Nat) : State := (s.surveyFails code sub).surveyReturn

/-! ### Commands. -/

/-- SURVEY_DUE: ages and drifts are examined, and the next survey is scheduled (R330). -/
def execSurveyDue (s : State) : Res := .next s.scheduleSurvey

/-- A survey in WAIT tries again. -/
def State.surveyRetry (s : State) : State :=
  match s.svy.run with
  | some r => if r.step = 1 then s.surveyWait r else s
  | none => s.scheduleSurvey

/-- SURVEY_DEFERRED_RETRY: a survey in WAIT tries again for a pipeline (R332). -/
def execSurveyDeferredRetry (s : State) : Res := .next s.surveyRetry

/-- Trims of 64 sub-ADCs as words of the TRM page, where each is in its range (R335). -/
def trimWords (trims : List (Int × Int × Int × Int)) : Option (List (Nat × Word)) :=
  let fits (n : Nat) (v : Int) : Bool := decide (satSigned n v = v)
  if trims.all fun t => fits 12 t.1 && fits 12 t.2.1 && fits 13 t.2.2.1 && fits 8 t.2.2.2 then
    some ((List.range (min 64 trims.length)).flatMap fun k =>
      match trims[k]? with
      | some (g, o, sk, bw) => [(0x400 + 8 * k, word (unsignedOf 12 o * 65536 + unsignedOf 12 g)),
          (0x404 + 8 * k, word (unsignedOf 8 bw * 65536 + unsignedOf 13 sk))]
      | none => [])
  else none

/-- A step's measurement decides how the survey goes on (R326, R327, R335). -/
def State.surveyMeasured (s : State) (r : SurveyRun) (power spur level : Int) (trims : List (Int × Int × Int × Int)) (crcs : List (BitVec 32)) : State :=
  if r.step = 3 then
    let s := s.setReg keySVY (Reg.SVY_RESID r.conv).off (word (if power < -6000 then 0x8000 else unsignedOf 16 power))
    if -4000 < power then (s.setErr keySVY 16).surveyAbort codeFAULT subINPUT_BUSY else s.stepTo 4
  else if r.step = 4 then
    match trimWords trims with
    | some ws => (s.modRun fun r => { r with trims := ws }).stepTo 5
    | none => s.surveyAbort codeFAULT subTRIM_RANGE
  else if r.step = 5 then s.stepTo 6
  else if r.step = 6 then
    let ws := (List.range (min 48 crcs.length)).map fun m => (0x804 + 8 * m, crcs.getD m 0)
    (s.modRun fun r => { r with trims := r.trims ++ ws }).stepTo 7
  else if spur ≤ -6200 ∧ level.natAbs ≤ 100 then s.surveyReturn
  else s.surveyAbort codeFAULT subVERIFY_FAIL

/-- ROTATE is done: C4 carries the channel, X has passed, or there is no task, and the converter takes the tone (R325). -/
def State.rotateDone (s : State) (r : SurveyRun) : State :=
  let k := keyAFE r.conv
  let cal (s : State) : State := (s.afeSet r.conv 2 (s.rf k Reg.AFE_STAT.ZONE) 0 (ceilTo 32 s.six) false).stepTo 3
  if r.spare then (if s.spareState = spareCARRYING ∨ s.standingFor r.conv then cal s else s)
  else if r.hasTask then (if s.isStale r.conv then cal s else s)
  else cal s

/-- RETURN is done: the channel has been handed back, or Y has passed (R122, R325). -/
def State.returnDone (s : State) (r : SurveyRun) : State :=
  if r.spare then (if s.spareState = spareIDLE ∨ s.spareState = spareSTANDING_IN then s.surveyEnd else s)
  else if r.hasTask ∧ s.isStale r.conv ∧ !s.pageFaulted (keyADC r.conv) then s
  else s.surveyEnd

/-- Survey steps and their timeouts pause while a firmware activation holds admissions (R573). -/
def State.surveyPaused (s : State) : Bool := s.power.holdAt.isSome

/-- SURVEY_STEP_DONE: a step completes with its results: residual power in 0.01 dBm, trims in steps, CRCs of the tables, worst spur in
0.01 dBc and deviation of the tone in 0.001 dB; the next step begins, or the survey ends (R325-R329, R335). -/
def execSurveyStepDone (power spur level : Int) (trims : List (Int × Int × Int × Int)) (crcs : List (BitVec 32)) (s : State) : Res :=
  match s.svy.run with
  | none => .next s
  | some r =>
    if s.surveyPaused then .next s
    else
      .next ((if r.step = 1 then s.surveyRetry
        else if r.step = 8 then s.returnDone r
        else if r.fin.isSome then s.surveyReturn
        else if r.step = 2 then s.rotateDone r
        else s.surveyMeasured r power spur level trims crcs).activateHold true)

/-- SURVEY_STEP_TIMEOUT: a step exceeds its time: RETURN runs; when RETURN does, the converter enters FAULT (R328). -/
def execSurveyStepTimeout (s : State) : Res :=
  match s.svy.run with
  | none => .next s
  | some r =>
    if r.step < 2 ∨ s.surveyPaused then .next s
    else
      let s := (s.advanceTo r.deadline).setErr keySVY 17
      let s := s.surveyFails codeTIMEOUT subSTEP_TIMEOUT
      if r.step = 8 then
        let s := s.faultBlock (keyADC r.conv) 20
        .next (((if r.hasTask ∧ !r.spare then s.convDown r.conv convDOWN else s.convFault r.conv).surveyEnd).activateHold true)
      else .next (s.surveyReturn.activateHold true)

/-- STALE_BEGIN: at X INPUT CAL applies, and the channel is STALE (R334). -/
def execStaleBegin (s : State) : Res :=
  match s.svy.run with
  | none => .next s
  | some r =>
    if r.step ≠ 2 ∨ r.spare ∨ !r.hasTask ∨ s.isStale r.conv then .next s
    else
      let s := s.advanceTo r.x
      let k := keyAFE r.conv
      .next ((s.afeSet r.conv 2 (s.rf k Reg.AFE_STAT.ZONE) (s.rf k Reg.AFE_STAT.ATTEN) r.x false).setStale r.conv true)

/-- STALE_END: at Y the previous input applies, and STALE ends (R334). -/
def execStaleEnd (s : State) : Res :=
  match s.svy.run with
  | none => .next s
  | some r =>
    if r.step ≠ 8 ∨ r.y = 0 ∨ !s.isStale r.conv then .next s
    else
      let s := s.advanceTo r.y
      .next ((s.afeSet r.conv r.prevInput r.prevZone r.prevAtten r.y false).setStale r.conv false)

/-- SURVEY_REQUEUE: 60 s after the end of a failed survey, its converter is queued again (R329). -/
def execSurveyRequeue (conv : Fin 5) (s : State) : Res :=
  match mfind s.svy.requeue conv with
  | none => .next s
  | some t => .next (((s.advanceTo t).modSvy fun v => { v with requeue := mdel v.requeue conv }).scheduleSurvey)

/-- HOLD_EXPIRY: HOLD_MS of a CALIBRATION_HOLD elapses, and the task is DONE (R333). -/
def execHoldExpiry (task : BitVec 32) (s : State) : Res :=
  match s.svy.holds.find? fun h => decide (h.task = task.toNat) with
  | none => .next s
  | some h => .next (((s.advanceTo h.deadline).endTask h.task .done codeOK 0).scheduleSurvey)

/-! ### Calibration storage (R340-R345). -/

/-- The 256 bytes of a header (R341), and those of a commit record before its CRC (R342). -/
def CalHeader.bytes (h : CalHeader) : List Byte :=
  leBytes h.magic 4 ++ leBytes h.version 2 ++ leBytes h.converters 1 ++ leBytes h.variant 1 ++ leBytes h.seq 4 ++ leBytes h.dataBytes 4 ++
    h.surveys.flatMap (leBytes · 4) ++ h.temps.flatMap (leBytes · 2) ++ leBytes 0 2 ++ h.times.flatMap (leBytes · 4) ++ List.replicate 188 0
def CalCommit.bytes (c : CalCommit) : List Byte :=
  leBytes c.magic 4 ++ leBytes c.seq 4 ++ leBytes c.dataBytes 4 ++ leBytes c.dataCrc 4 ++ List.replicate 236 0

/-- Bytes of the converters' data (R340). -/
def calDataBytes : Nat := 1968640

/-- An area's sequence number. -/
def CalArea.seq (a : CalArea) : Nat := match a.header with | some h => h.seq | none => 0xFFFFFFFF

/-- An area is valid: both MAGIC values and VERSION, SEQ, DATA_BYTES and both CRCs are right (R343). -/
def CalArea.valid (a : CalArea) : Bool :=
  match a.header, a.commit with
  | some h, some c =>
    decide (h.magic = 0x4C434842 ∧ h.version = 1 ∧ c.magic = 0x4C434D54) && decide (h.seq = c.seq ∧ h.seq ≠ 0 ∧ h.seq ≠ 0xFFFFFFFF) &&
      decide (h.dataBytes = c.dataBytes ∧ c.dataCrc = a.dataCrc) && decide (c.recordCrc = crc32c c.bytes)
  | _, _ => false

/-- An area's header, or one that says nothing. -/
def CalArea.headerOf (a : CalArea) : CalHeader :=
  a.header.getD { magic := 0, version := 0, converters := 0, variant := 0, seq := 0, dataBytes := 0, surveys := [], temps := [], times := [] }

/-- The commit record that makes an area valid (R342). -/
def CalArea.record (a : CalArea) : CalCommit :=
  let c : CalCommit := { magic := 0x4C434D54, seq := a.seq, dataBytes := calDataBytes, dataCrc := a.dataCrc, recordCrc := 0 }
  { c with recordCrc := crc32c c.bytes }

/-- The area in use: 0 A, 1 B, 2 FACTORY, 3 none. -/
def State.areaInUse (s : State) : Nat := s.rf keySVY Reg.SVY_BANK.IN_USE

/-- An area by its number. -/
def State.calArea (s : State) (n : Nat) : CalArea := if n = 0 then s.svy.areaA else if n = 1 then s.svy.areaB else if n = 2 then s.svy.factory else CalArea.erased

/-- Replace bank A or B. -/
def State.setArea (s : State) (n : Nat) (a : CalArea) : State := s.modSvy fun v => if n = 0 then { v with areaA := a } else { v with areaB := a }

/-- SVY_BANK.VALID and the sequence registers follow the areas. -/
def State.refreshAreas (s : State) : State :=
  let v := boolNat s.svy.areaA.valid + 2 * boolNat s.svy.areaB.valid + 4 * boolNat s.svy.factory.valid
  let s := s.wf keySVY Reg.SVY_BANK.VALID v
  let s := s.setReg keySVY 0x1A4 (word (if s.svy.areaA.valid then s.svy.areaA.seq else 0))
  s.setReg keySVY 0x1A8 (word (if s.svy.areaB.valid then s.svy.areaB.seq else 0))

/-- The area used at start-up (R343). -/
def State.bootArea (s : State) : Nat :=
  if s.svy.areaA.valid ∧ s.svy.areaB.valid then (if s.svy.areaA.seq < s.svy.areaB.seq then 1 else 0)
  else if s.svy.areaA.valid then 0 else if s.svy.areaB.valid then 1 else if s.svy.factory.valid then 2 else 3

/-- The stored trims are loaded at start-up; with no valid area trims are 0, no tables are in force, and NO_VALID_SET is set (R343). -/
def State.loadTrims (s : State) : State :=
  let n := s.bootArea
  let a := s.calArea n
  let h := a.headerOf
  let s := s.refreshAreas.wf keySVY Reg.SVY_BANK.IN_USE n
  let s := s.each s.allConvs fun s c =>
    let k := keyTRM c
    let s := s.modPage k fun p => { p with regs := if n = 3 then [] else a.trims.getD c [] }
    let s := if n = 3 then s else (s.wf k Reg.TRM_STAT.SRC n).wf k Reg.TRM_STAT.SURVEY (h.surveys.getD c 0)
    ((s.setReg keySVY (Reg.SVY_TEMP c).off (word (if n = 3 then 0 else h.temps.getD c 0))).wb (keyADC c) Reg.ADC_STAT.TRIMS_LOADED true).updateLocked c
  let s := if n = 3 then s.setErr keySVY 20 else s.wf keySVY Reg.SVY_SEQ ((h.surveys.foldl max 0) % 2 ^ 21)
  s.modSvy fun v => { v with startOrder := [4, 0, 1, 2, 3], doneAt := [], requeue := [], lastStore := s.six }

/-- The complete set in force as an area without its commit record, with the CRC of its header and data (R340, R341, R344). -/
def State.setInForce (s : State) (seq crc : Nat) : CalArea :=
  let per (f : Nat → Nat) : List Nat := (List.range 5).map fun c => if s.allConvs.contains c then f c else 0
  { header := some { magic := 0x4C434842, version := 1, converters := 5, variant := boolNat s.guest, seq := seq, dataBytes := calDataBytes,
                     surveys := per fun c => s.rf (keyTRM c) Reg.TRM_STAT.SURVEY, temps := per fun c => s.rf keySVY (Reg.SVY_TEMP c) % 65536,
                     times := per fun c => mget (fun _ => 0) s.svy.doneSecs c },
    trims := (List.range 5).map fun c => if s.allConvs.contains c then (s.page (keyTRM c)).regs.filter (fun x => decide (0x400 ≤ x.1)) else [],
    dataCrc := crc, commit := none }

/-- The bank that a store writes (R344). -/
def State.storeTarget (s : State) : Nat := if s.areaInUse = 0 then 1 else 0

/-- CAL_STORE_START: a store of the set in force begins, 7,200 s after the previous one or start-up (R344). -/
def execCalStoreStart (s : State) : Res :=
  if s.svy.store ≠ .idle ∨ !s.rb keySVY Reg.SVY_BANK.STORE_PENDING ∨ s.six < s.svy.lastStore + 7200000 * sixPerMs then .next s
  else
    let seq := (if s.areaInUse = 3 then 0 else (s.calArea s.areaInUse).seq) + 1
    let d := s.drawWord
    let s := d.2.setArea s.storeTarget (s.setInForce seq d.1.toNat)
    let s := s.modSvy fun v => { v with store := .data, storeDeadline := s.six + 30000 * sixPerMs, lastStore := s.six }
    .next ((s.wb keySVY Reg.SVY_BANK.STORE_ACTIVE true).refreshAreas)

/-- A store ends with a code and a sub-reason; one that fails leaves its bank invalid (R344). -/
def State.storeEnd (s : State) (code sub : Nat) : State :=
  let n := s.storeTarget
  let a := s.calArea n
  let s := s.modSvy fun v => { v with store := .idle }
  let s := ((s.wb keySVY Reg.SVY_BANK.STORE_ACTIVE false).wf keySVY Reg.SVY_BANK.STORE_CODE code).wf keySVY Reg.SVY_BANK.STORE_SUB sub
  let s := if code = codeOK then
      let s := (s.setArea n { a with commit := some a.record }).wf keySVY Reg.SVY_BANK.IN_USE n
      s.wb keySVY Reg.SVY_BANK.STORE_PENDING (decide ((s.setInForce a.seq a.dataCrc).trims ≠ a.trims ∨ (s.setInForce a.seq a.dataCrc).header ≠ a.header))
    else (s.setArea n CalArea.erased).setErr keySVY 19
  s.refreshAreas.irqBit keySVY 17

/-- CAL_STORE_DONE: the read-back check of a store ends (R344). -/
def execCalStoreDone (ok : Bool) (s : State) : Res :=
  if s.svy.store = .idle then .next s
  else .next (if ok then s.storeEnd codeOK 0 else s.storeEnd codeINTEGRITY subSTORE_VERIFY)

/-- CAL_STORE_TIMEOUT: a store exceeds 30 s (R344). -/
def execCalStoreTimeout (s : State) : Res :=
  if s.svy.store = .idle then .next s
  else .next ((s.advanceTo s.svy.storeDeadline).storeEnd codeTIMEOUT subSTORE_TIMEOUT)

/-- The power-fail sequence at its calibration step: a commit record whose programming has begun is completed, and any other store is
abandoned (R345). Which part of a store is under way is free. -/
def State.storePowerFail (s : State) : State :=
  if s.svy.store = .idle then s
  else
    let d := s.drawNat
    if d.1 % 2 = 1 then d.2.storeEnd codeOK 0
    else ((d.2.setArea d.2.storeTarget CalArea.erased).modSvy fun v => { v with store := .idle }).wb keySVY Reg.SVY_BANK.STORE_ACTIVE false

/-- A synchronising reset restarts a step from ISOLATE to VERIFY with its timeout from zero (R329). -/
def State.surveyReset (s : State) : State :=
  match s.svy.run with
  | some r => if 3 ≤ r.step ∧ r.step ≤ 7 then s.stepTo r.step else s
  | none => s

end Sys2Proof.Machine
end

