-- ==== Sys2Proof/Machine/Sync.lean ====
section
/-! DEFINITION. Synchronising resets (R84-R89): ARM_SYNC, SYNC_NOW, and the reset at its index with what it does in every block (R125,
R137, R140, R145, R150, R170, R177, R191, R223, R233, R316, R329). -/

namespace Sys2Proof.Machine

/-! ### SIX takes another value (R76, R84, R87). -/

/-- An instant of the present numbering in the numbering that a SIX load brings. -/
def renumber (old new t : Nat) : Nat := t + new - old

/-- Sub-reason SIX_LOADED of a block's commit (R150, R156, R177, R228-R230). -/
def subSixLoaded : BlockType → Option Nat
  | .ddc => some 0x04
  | .ins => some 0x05
  | .fft => some 0x06
  | .ctr => some 0x04
  | .ttr => some 0x03
  | .trg => some 0x05
  | _ => none

/-- A SIX load: pending commits of chains, insets, engines and triggers fail, and others keep their instant, at a frame boundary. -/
def State.pendLoad (s : State) (old new : Nat) : State :=
  let s := s.each s.pend fun s (x : Nat × PendApply) =>
    match subSixLoaded (blockOf x.1) with
    | some sub => ((s.clearPend x.1).setCfg x.1 0).failOp x.1 codeSTATE sub
    | none => { s with pend := mput s.pend x.1 { x.2 with due := ceilTo 32 (renumber old new x.2.due) } }
  s.each s.parkedPend fun s (x : Nat × PendApply) =>
    match subSixLoaded (blockOf x.1) with
    | some sub => (({ s with parkedPend := mdel s.parkedPend x.1 }).setCfg x.1 0).failOp x.1 codeSTATE sub
    | none => { s with parkedPend := mput s.parkedPend x.1 { x.2 with due := ceilTo 32 (renumber old new x.2.due) } }

/-- A SW_TRIG_AT that waits when SIX is loaded ends FAILED (R209, R223). -/
def State.swTrigLoad (s : State) : State :=
  s.each [0, 1] fun s r =>
    match (s.page (keyTRG r)).op with
    | some op => if op.opcode = 0x0102 then s.failOp (keyTRG r) codeSTATE ((subSixLoaded .trg).getD 0) else s
    | none => s

/-- Times that the time base, converters, rotation, triggers, Phoin and the survey controller keep as indices. -/
def State.timesLoad (s : State) (old new : Nat) : State :=
  let f := renumber old new
  { s with tb := { s.tb with repeatAt := s.tb.repeatAt.map f },
           convs := s.convs.map fun x => (x.1, { x.2 with settleUntil := f x.2.settleUntil,
                                                          sets := x.2.sets.map fun y => { y with from0 := f y.from0, settleEnd := f y.settleEnd },
                                                          passFrom := f x.2.passFrom }),
           rot := { s.rot with h := s.rot.h.map f, deadline := f s.rot.deadline },
           trigOuts := s.trigOuts.map fun x =>
             (x.1, { x.2 with outEnd := x.2.outEnd.map f, xtrigEnd := x.2.xtrigEnd.map (·.map f),
                              lastEdge := x.2.lastEdge.map (·.map fun y => (f y.1, y.2)) }),
           phn := { s.phn with faultSix := s.phn.faultSix.map fun x => (x.1, f x.2) },
           svy := { s.svy with run := s.svy.run.map (fun r => { r with deadline := f r.deadline, x := f r.x, y := f r.y }),
                               doneAt := s.svy.doneAt.map (fun x => (x.1, f x.2)), requeue := s.svy.requeue.map (fun x => (x.1, f x.2)),
                               storeDeadline := f s.svy.storeDeadline, lastStore := f s.svy.lastStore } }

/-- Times of the capture writers; no trigger sample from before the reset is left (R223, R233). -/
def State.capLoad (s : State) (old new : Nat) : State :=
  let f := renumber old new
  { s with caps := s.caps.map fun x =>
             (x.1, { x.2 with prevEpoch := none, resumeAt := x.2.resumeAt.map f, freedAt := x.2.freedAt.map f,
                              gap := x.2.gap.map fun g => { g with six := f g.six } }) }

/-- Times that memories, links, rings, streams and the display keep. -/
def State.trafficLoad (s : State) (old new : Nat) : State :=
  let f := renumber old new
  { s with hbms := s.hbms.map fun x =>
             (x.1, { x.2 with queue := x.2.queue.map (fun y => (f y.1, y.2)), throttled := x.2.throttled.map (fun y => (y.1, f y.2.1, f y.2.2)),
                              idleAt := f x.2.idleAt, bandSince := f x.2.bandSince, delayAt := f x.2.delayAt, preemptEnd := f x.2.preemptEnd, hotEnd := f x.2.hotEnd,
                              corrections := x.2.corrections.map fun y => (y.1, y.2.map f) }),
           links := s.links.map fun x =>
             (x.1, { x.2 with nakUntil := x.2.nakUntil.map f, ackAt := f x.2.ackAt, flitAt := f x.2.flitAt, deadline := f x.2.deadline,
                              tags := x.2.tags.map fun t => { t with sentAt := f t.sentAt } }),
           hostReads := s.hostReads.map fun x => { x with sentAt := f x.sentAt },
           rings := s.rings.map fun x => (x.1, { x.2 with lastMsg := x.2.lastMsg.map f }),
           streams := s.streams.map fun x =>
             (x.1, { x.2 with ports := x.2.ports.map fun p =>
                       { p with bucketAt := f p.bucketAt, contextAt := f p.contextAt,
                                flow := { p.flow with heardAt := f p.flow.heardAt, sinceAt := f p.flow.sinceAt,
                                                      unacked := p.flow.unacked.map fun u => { u with sentAt := f u.sentAt } } } }),
           sentLog := s.sentLog.map fun x => (x.1, f x.2.1, x.2.2),
           writes := s.writes.map fun x => (x.1, { x.2 with issuedAt := f x.2.issuedAt }),
           scan := s.scan.map fun x => (x.1, { x.2 with frameAt := f x.2.frameAt }),
           genlock := { s.genlock with last := f s.genlock.last } }

/-- Frames in flight on the sample path are before the reset, and the frame that begins at the new index comes next (R27, R84). The next
group launched is the one that holds it: frames 5f to 5f + 4 of the new numbering (R109). -/
def State.framesLoad (s : State) (new : Nat) : State :=
  let s : State := { s with convs := s.convs.map fun x => (x.1, { x.2 with frames := [], cfgs := x.2.cfgs.take 1 |>.map fun y => (0, y.2),
                                                                           nextFrame := new / 32, nextLaunch := new / 160 * 5 }),
                            rot := { s.rot with switched := [] } }
  s.each (s.links.map (·.1)) fun s k =>
    let tx := s.link (farEnd k)
    s.modLink k fun l => { l with smpFrame := ((new / 160 * 5 : Nat) : Int) - 5 * ((tx.smpTx + tx.smp.length) / 4 : Nat) }

/-- SIX takes a value. Absolute time goes on from the mapping in force, and the next benchmark carries SIX_LOADED (R81, R84; log entry
58). -/
def State.loadSix (s : State) (new : Nat) : State :=
  let old := s.six
  let ps := s.timePs old 0
  let src := s.rf keyTBS Reg.TBS_STATE.FREQ_SRC
  let status := benchStatus (s.rb keyTBS Reg.TBS_STATE.TIME_VALID) (decide (s.rf keyTBS Reg.TBS_STATE.TB_STATE = 2)) false true
  let b : Bench := { six := new, ps := ps, freqOff := s.tb.freqOff, payload := benchPayload ps src status s.tb.freqOff 0 s.tb.utc 0 }
  let s := (s.each (List.range 6) State.capNewEpoch).each (List.range 6) State.pauseEnd
  let s := (((((s.pendLoad old new).swTrigLoad).timesLoad old new).capLoad old new).trafficLoad old new).framesLoad new
  let s := s.modTb fun t => { t with shift := t.shift + (new : Int) - (old : Int), benches := b :: t.benches, nextBench := ceilTo sixPerMs new,
                                     sixLoaded := true }
  { s with six := new % sixModulus }

/-! ### The reset in each block. -/

/-- A pipeline: chain and insets (R145), frames in the engine (R170), triggers (R223), graticule (R191) and TRACE interval (R240). -/
def State.pipeSync (s : State) (p a six : Nat) (loads : Bool) : State :=
  let n := s.framesStarted p a
  let s := if s.isActive (keyFFT p) then (s.flushGroup p (s.fftWords p (s.engine p).nextStart)).closeSpectrum p else s
  let s := s.chainReset p six
  let s := if loads then s.modChain p fun c =>
      { c with inEnd := six, inMarks := [], dcSets := [], raw := [], flat := c.flat.take 1 |>.map fun x => { x with from0 := 0 } }
    else s
  let s := s.abandonFrames p a n
  let s := if loads ∧ s.isActive (keyFFT p) then s.modEngine p fun e => { e with nextStart := s.gridStart p six } else s
  let s := (s.trigReset p six loads).grtReset p loads
  if loads then s.traceBegin p (s.isActive (keyRED p) && s.ab (keyRED p) Reg.RED_CFG.TRACE_EN) else s

/-- Rotation: ALIGNING or SHADOWING starts again from ALIGNING, and the channel is not disturbed otherwise (R125). -/
def State.rotSync (s : State) : State :=
  let st := s.spareState
  if st = spareALIGNING ∨ st = spareSHADOWING then
    (s.modRot fun r => { r with h := none, corrected := false, deadline := sixAdd s.six sixPerMs }).spareEnter spareALIGNING
  else s

/-- A synchronising reset applies now, with `new` the value that SIX takes. -/
def State.syncApply (s : State) (new : Option Nat) : State :=
  let a := s.six
  let s := match new with | some n => s.loadSix n | none => s
  let s : State := { s with convs := s.convs.map fun x => (x.1, { x.2 with prbs := 0 }) }
  let s := s.each (List.range 6) fun s p => s.pipeSync p a s.six new.isSome
  ((s.rotSync.migReset s.six).surveyReset).irqBit keyTBS 17

/-! ### Commands. -/

/-- The configuration of a command as it is accepted (R84). -/
def State.latchSync (s : State) (isNow : Bool) : SyncOp :=
  { isNow := isNow, falling := s.rb keyTBS Reg.TBS_SYNC_CFG.EDGE, syncout := s.rf keyTBS Reg.TBS_SYNC_CFG.SYNCOUT,
    loadSix := s.rb keyTBS Reg.TBS_SYNC_CFG.LOAD_SIX, check := !isNow && s.rb keyTBS Reg.TBS_SYNC_CFG.MODE,
    delay := s.rf keyTBS Reg.TBS_SYNC_CFG.DELAY, sixLoad := s.six3 keyTBS 0x120,
    deadline := sixAdd s.six (s.rf keyTBS Reg.TBS_SYNC_TIMEOUT.MS * sixPerMs), first := none,
    edge := if isNow then some (s.six, 0) else none }

/-- Accept ARM_SYNC or SYNC_NOW: a SIX load is refused while tasks hold indices, and holds admissions (R85). -/
def State.syncStart (s : State) (op : Op) (o : SyncOp) (k : State → State) : State :=
  if o.loadSix && s.tasksHoldIndices then s.rejectOp keyTBS op codeSTATE 0x01
  else if o.loadSix && decide (o.sixLoad % 256 ≠ 0) then s.rejectOp keyTBS op codeRANGE 0
  else
    let s := s.accept keyTBS op
    k (s.modTb fun t => { t with sync := some o }).refreshHold

/-- ARM_SYNC on the TBS page (R84-R88). -/
def execArmSync (who : Issuer) (tag : Nat) (s : State) : Res :=
  .next (s.command who keyTBS 0x0100 tag fun s op => s.syncStart op (s.latchSync false) id)

/-- SYNC_NOW with GENERATE: one edge of the polarity that captures is driven, and the command ends DONE with its index (R89). An ARM_SYNC
in progress goes on, and takes that edge on its own SYNCIN (log entry 86). -/
def State.generateEdge (s : State) (o : SyncOp) (op : Op) : State :=
  if o.loadSix && s.tasksHoldIndices then s.rejectOp keyTBS op codeSTATE 0x01
  else if o.loadSix && decide (o.sixLoad % 256 ≠ 0) then s.rejectOp keyTBS op codeRANGE 0
  else
    let running := (s.page keyTBS).op
    let s := (s.accept keyTBS op).emit (.syncout s.six o.falling)
    match running with
    | none => s.doneWith keyTBS (sixWords s.six ++ [0])
    | some arm =>
      let s := s.modPage keyTBS fun p => { p with op := some arm, cmdStat := cmdStatWord op.tag phaseDONE 0 codeOK }
      s.giveResult keyTBS (sixWords s.six ++ [0])

/-- SYNC_NOW on the TBS page (R84, R89). -/
def execSyncNow (who : Issuer) (tag : Nat) (s : State) : Res :=
  .next (s.write who keyTBS 0x030 (cmdWord tag 0x0101) fun s =>
    let o := s.latchSync true
    let op := s.latch keyTBS 0x0101 tag
    match (s.page keyTBS).op with
    | some arm => if o.syncout = 2 ∧ arm.opcode = 0x0100 then s.generateEdge o op else s.reject keyTBS tag 0x0101 codeBUSY 0
    | none => if o.syncout = 2 then s.generateEdge o op else s.syncStart op o id)

/-- The index at which a reset applies (R84). -/
def SyncOp.applyAt (o : SyncOp) (edge : Nat) : Nat :=
  if o.loadSix then edge + o.delay * 256 else ceilTo 32 (edge + o.delay * 256)

/-- SYNC_RESET_APPLY: the reset of the captured edge applies at its index (R84, R87). -/
def execSyncResetApply (s : State) : Res :=
  match s.tb.sync with
  | none => .next s
  | some o =>
    match o.edge with
    | none => .next s
    | some (six, fine) =>
      let s := (s.advanceTo (o.applyAt six)).modTb fun t => { t with sync := some { o with edge := none } }
      let s := s.syncApply (if o.loadSix then some o.sixLoad else none)
      if o.check then .next s
      else
        let at0 := s.six
        .next (s.syncOff.doneWith keyTBS (sixWords at0 ++ [word fine]))

end Sys2Proof.Machine
end

