-- ==== Sys2Proof/Machine/Common.lean ====
section
/-! DEFINITION. What every page shares: writes to header registers and block registers (R6, R33-R36, R43, R44, R619), the common opcodes
(R50, R54-R59, R616), block states (R49, R615), the result window (R61), interrupts (R63, R64), faults of cells and blocks (R14). -/

namespace Sys2Proof.Machine

/-- The next state of an outcome. -/
def orStay (r : Res) (s : State) : State := match r with | .next t => t | _ => s

/-! ### START and STOP (R49, R616). -/

/-- A START or STOP in progress ends FAILED, STATE, when the block reaches another state (R616). -/
def State.startStopFails (s : State) (key : Nat) : State :=
  match (s.page key).op with
  | some op => if op.opcode = 0x0001 ∨ op.opcode = 0x0002 then s.failOp key codeSTATE 0 else s
  | none => s

/-- A START in progress reaches its boundary. -/
def State.startDone (s : State) (key : Nat) : State :=
  if (s.page key).st = .idle ∧ (s.page key).enable then
    let s := (s.startHook key).enter key .active
    (if blockOf key = .dsp then s.enableOuts else s).doneOp key
  else s.startStopFails key

/-- A STOP in progress reaches the next cell boundary. -/
def State.stopDone (s : State) (key : Nat) : State :=
  if (s.page key).st = .active ∨ (s.page key).st = .suspended then ((s.stopHook key).enter key .idle).doneOp key else s.startStopFails key

/-- The page refuses every command: the GRT page of the second pipeline of a gang (R195). -/
def State.governed (s : State) (key : Nat) : Bool := decide (blockOf key = .grt) && s.gangedSecond (pipeOfKey key)

/-- START: accepted in IDLE with ENABLE = 1. `now` says that the boundary at which the block starts comes before the next command. -/
def execStart (who : Issuer) (key : Fin 8192) (tag : Nat) (now : Bool) (s : State) : Res :=
  .next (s.command who key 0x0001 tag fun s op =>
    if s.governed key then s.rejectOp key op codeSTATE 0x02
    else if (s.page key).st = .idle ∧ (s.page key).enable then (if now then (s.accept key op).startDone key else s.accept key op)
    else s.rejectOp key op codeSTATE 0)

/-- STOP: accepted in ACTIVE or SUSPENDED. -/
def execStop (who : Issuer) (key : Fin 8192) (tag : Nat) (now : Bool) (s : State) : Res :=
  .next (s.command who key 0x0002 tag fun s op =>
    if s.governed key then s.rejectOp key op codeSTATE 0x02
    else if (s.page key).st = .active ∨ (s.page key).st = .suspended then (if now then (s.accept key op).stopDone key else s.accept key op)
    else s.rejectOp key op codeSTATE 0)

/-- A START or STOP whose boundary has come. -/
def State.finishStartStop (s : State) (key : Nat) : State :=
  match (s.page key).op with
  | some op => if op.suspended then s else if op.opcode = 0x0001 then s.startDone key else if op.opcode = 0x0002 then s.stopDone key else s
  | none => s

/-- One SCLK period with no command: SIX counts, and each START and STOP in progress reaches its boundary (R53, R76, R616; log entry 2). -/
def State.tick (s : State) : State :=
  let s := if s.tb.running then { s with six := sixAdd s.six 1 } else s
  (s.each (s.pages.map (·.1)) State.finishStartStop).each (s.convs.map (·.1)) State.alignDone

/-! ### Suspension, resumption, freezing (R49, R57, R262, R539). -/

/-- What a block does as it is SUSPENDED. -/
def State.suspendHook (s : State) (key : Nat) : State :=
  match blockOf key with
  | .cap => s.capPause (pipeOfKey key) 2
  | _ => s

/-- Inputs of the time away were discarded: the block goes on at the present index. -/
def State.skipHook (s : State) (key : Nat) : State :=
  let p := pipeOfKey key
  match blockOf key with
  | .ddc => s.chainSkip p
  | .fft => s.modEngine p fun e => { e with nextStart := max e.nextStart (s.gridStart p (s.chain p).nextLabel) }
  | .grt => s.modGrat p fun g => { g with nextTick := nextMultiple tickLen s.six, boundary := s.grtNextBoundary p s.six }
  | .red => s.traceBegin p (s.ab key Reg.RED_CFG.TRACE_EN)
  | _ => s

/-- What a block does as it resumes: outputs are marked SETTLING until clean. -/
def State.resumeHook (s : State) (key : Nat) : State :=
  let p := pipeOfKey key
  let n := instanceOf key
  match blockOf key with
  | .ddc => s.chainStart p
  | .ins => s.insStart p
  | .cap => s.capResume p 2
  | .fft => (s.skipHook key).modEngine p fun e => { e with wantClean := true }
  | .grt => (s.skipHook key).modGrat p fun g => { g with cur := { g.cur with flags := g.cur.flags ||| 1 } }
  | .red => (s.skipHook key).modCapture p fun c => { c with trace := { c.trace with marks := c.trace.marks ||| markSETTLING } }
  | .mc => if s.mcState n = mcSUSPENDED then s.mcEnter n (s.core n).before else s
  | _ => s.skipHook key

/-- A block is SUSPENDED, or its core is to be at its next interruptible point. -/
def State.suspendBlock (s : State) (key : Nat) (op : Op) : State :=
  let s := s.accept key op
  let n := instanceOf key
  if blockOf key = .mc ∧ (s.mcState n = mcRUNNING ∨ s.mcState n = mcWAITING) then
    (s.modCore n fun c => { c with stop := some mcSUSPENDED }).coreStop n
  else ((s.suspendHook key).enter key .suspended).doneOp key

/-- The operation in progress becomes SUSPENDED; a commit does not apply meanwhile (R54, R56, R57). -/
def State.suspendOp (s : State) (key : Nat) (op : Op) (tag : Nat) : State :=
  let s := s.modPage key fun p => { p with op := some { op with suspended := true }, cmdStat := cmdStatWord tag phaseSUSPENDED 0 codeOK }
  let s := match s.pendOf key with
    | some a => { s.clearPend key with parkedPend := mput s.parkedPend key a }
    | none => s
  if blockOf key = .mc then (s.modCore (instanceOf key) fun c => { c with stop := some mcSUSPENDED }).coreStop (instanceOf key) else s

/-- The operation runs again; a commit whose index has passed applies at the next frame boundary, and a SW_TRIG_AT whose SIX has passed
fires at the present one (R54, R56, R57). -/
def State.resumeOp (s : State) (key : Nat) (op : Op) (tag : Nat) : State :=
  let op := if blockOf key = .trg ∧ op.opcode = 0x0102 ∧ op.sixArg < s.six then op.withSix s.six else op
  let s := s.modPage key fun p => { p with op := some { op with suspended := false }, cmdStat := cmdStatWord tag phaseRUNNING 0 codeOK }
  let s : State := match mfind s.parkedPend key with
    | some a => { s with pend := mput s.pend key { a with due := max a.due (ceilTo 32 s.six) }, parkedPend := mdel s.parkedPend key }
    | none => s
  let n := instanceOf key
  let s := if blockOf key = .mc then
      (if s.mcState n = mcSUSPENDED then s.mcEnter n (s.core n).before else s.modCore n fun c => { c with stop := none })
    else s
  s.drainResult key

/-- SUSPEND (R54, R56). -/
def execSuspend (who : Issuer) (key : Fin 8192) (tag : Nat) (s : State) : Res :=
  .next (s.write who key 0x030 (cmdWord tag 0x0003) fun s =>
    if !s.suspendable key then s.reject key tag 0x0003 codeUNSUPPORTED 0
    else if s.governed key then s.reject key tag 0x0003 codeSTATE 0x02
    else
      match (s.page key).op with
      | some op => if op.suspended then s.reject key tag 0x0003 codeSTATE 0 else s.suspendOp key op tag
      | none =>
        if (s.page key).st = .active then s.suspendBlock key (s.latch key 0x0003 tag) else s.reject key tag 0x0003 codeSTATE 0)

/-- RESUME (R54, R56). -/
def execResume (who : Issuer) (key : Fin 8192) (tag : Nat) (s : State) : Res :=
  .next (s.write who key 0x030 (cmdWord tag 0x0004) fun s =>
    if s.governed key then s.reject key tag 0x0004 codeSTATE 0x02
    else
    match (s.page key).op with
    | some op => if op.suspended then s.resumeOp key op tag else s.reject key tag 0x0004 codeSTATE 0
    | none =>
      if (s.page key).st = .suspended then
        (((s.accept key (s.latch key 0x0004 tag)).resumeHook key).enter key .active).doneOp key
      else s.reject key tag 0x0004 codeSTATE 0)

/-- The operation is a COMMIT or COMMIT_AT of staged registers. -/
def commitOp (key : Nat) (op : Op) : Bool :=
  decide (op.opcode = 0x0006) ||
    (decide (op.opcode = 0x0100) && decide (blockOf key ∈ [.ddc, .ins, .fft, .ctr, .ttr, .trg, .afe]))

/-- The operation's words have applied, and only its result waits for the window: it has no cancel point left (R58, R61; log entry 76). -/
def State.pastCancel (s : State) (key : Nat) (op : Op) : Bool :=
  commitOp key op && (s.pendOf key).isNone && (mfind s.parkedPend key).isNone && (s.page key).waiting.any (·.1)

/-- What a cancelled operation leaves undone in its block (R58, R94, R155, R178, R498). -/
def State.cancelHook (s : State) (key : Nat) (op : Op) : State :=
  let n := instanceOf key
  let s : State :=
    if commitOp key op then { (if s.cfg key = 1 then (s.clearPend key).setCfg key 0 else s.clearPend key) with parkedPend := mdel s.parkedPend key }
    else s
  match blockOf key with
  | .tbs => if op.opcode = 0x0102 then s.modTb fun t => { t with setSecs := none } else s.syncOff
  | .tdc => s.tdcStop
  | .cmp => s.cmpAbort n
  | .adc => s.modConv n fun v => { v with align := none }
  | .grt => s.modGrat (pipeOfKey key) fun g => { g with clearNext := false }
  | .mc => s.modCore n fun c => { c with stop := none, steps := none }
  | .bxe => if op.opcode = 0x0101 then s.modLink key fun l => { l with repair := none } else s
  | .sec =>
    if op.opcode = 0x0100 then { s.wf key Reg.SEC_STAT.UPDATE 0 with power := { s.power with image := none } }
    else if op.opcode = 0x0101 then (s.wf key Reg.SEC_STAT.UPDATE 2).activateRelease
    else s
  | _ => s

/-- CANCEL: the operation ends CANCELLED, and nothing it staged is applied (R54, R58). -/
def execCancel (who : Issuer) (key : Fin 8192) (tag : Nat) (s : State) : Res :=
  .next (s.write who key 0x030 (cmdWord tag 0x0005) fun s =>
    match (s.page key).op with
    | some op =>
      if s.pastCancel key op then s.modPage key fun p => { p with cmdStat := cmdStatWord tag (if op.suspended then phaseSUSPENDED else phaseRUNNING) 0 codeOK }
      else
        let s := (s.cancelHook key op).cancelOp key
        if key = keySEC then s.beginNext else s
    | none => s.reject key tag 0x0005 codeSTATE 0)

/-- QUERY: a status snapshot, whose words the spec does not give (log entry 3), goes to the result window (R54, R56, R61). -/
def execQuery (who : Issuer) (key : Fin 8192) (tag : Nat) (s : State) : Res :=
  .next (s.write who key 0x030 (cmdWord tag 0x0007) fun s =>
    let d := s.drawWords 8
    let s := d.2
    match (s.page key).op with
    | some op =>
      (s.modPage key fun p =>
        { p with cmdStat := cmdStatWord tag (if op.suspended then phaseSUSPENDED else phaseRUNNING) 0 codeOK }).giveResult key d.1
    | none => (s.accept key (s.latch key 0x0007 tag)).doneWith key d.1)

/-- COMMIT: staged values are checked and apply at the block's next boundary; DONE at once with nothing staged (R50, R619). -/
def State.commitPage (s : State) (key : Nat) (op : Op) : State :=
  let p := pipeOfKey key
  let b := s.commitBoundary
  match s.blockAt key with
  | .ddc => s.commitDDC key op
  | .ins => s.commitINS key op
  | .fft => s.commitHere key op b fun s => s.fftCheck p
  | .grt => s.commitHere key op (ceilTo 32 (s.six + 4096000)) fun s => s.grtCheck p
  | .ctr => s.commitHere key op b fun s => s.ctrCheck p
  | .ttr => s.commitHere key op b fun s => s.ttrCheck p
  | .trg => s.commitHere key op b fun s => s.trgCheck (keyRegion key - 1)
  | .cap => s.commitHere key op b fun s => s.capCheck p
  | .red => s.commitHere key op b fun s => s.redCheck p
  | .afe => s.commitAFE key op
  | .dsp => s.commitDSP op
  | _ => (s.accept key op).doneOp key

def execCommit (who : Issuer) (key : Fin 8192) (tag : Nat) (s : State) : Res :=
  .next (s.command who key 0x0006 tag fun s op => s.commitPage key op)

/-- How many block-specific opcodes a block has, from 0x0100 on. -/
def blockOpcodes : BlockType → Nat
  | .mod => 1 | .tbs => 3 | .tdc => 2 | .adc => 1 | .afe => 1 | .ddc => 1 | .ins => 1 | .fft => 1 | .grt => 1 | .ctr => 1 | .ttr => 1 | .trg => 3
  | .cap => 2 | .phn => 2 | .bxe => 2 | .rng => 5 | .hif => 3 | .nvi => 4 | .cmp => 2 | .crc => 2 | .mc => 4 | .dsp => 1 | .sec => 8
  | .flt => 3 | _ => 0

/-- An opcode that a page defines (R50). -/
def opcodeKnown (key opcode : Nat) : Bool :=
  (decide (1 ≤ opcode) && decide (opcode ≤ 7)) || (decide (0x100 ≤ opcode) && decide (opcode < 0x100 + blockOpcodes (blockOf key)))

/-- UNDEFINED_OPCODE: a write to PG_CMD, or with `chan` to TRVc_CTL, of an undefined opcode is rejected UNSUPPORTED and logged (R54, R438).
The opcodes from 0x0100 on of a guest page are the guest die's (R40). -/
def execUndefinedOpcode (who : Issuer) (key : Fin 8192) (chan : Option (Fin 512)) (opcode : BitVec 16) (tag : Nat) (s : State) : Res :=
  match chan with
  | some c =>
    let op := opcode.toNat % 256
    if 1 ≤ op ∧ op ≤ 5 then .next s else s.chanCommand who c op fun s => s.chanReject c op codeUNSUPPORTED 0
  | none =>
    if opcodeKnown key opcode.toNat ∧ !(s.guestPage key && decide (0x100 ≤ opcode.toNat)) then .next s
    else .next (s.write who key 0x030 (cmdWord tag opcode.toNat) fun s => s.reject key tag opcode.toNat codeUNSUPPORTED 0)

/-! ### The header registers (R41). -/

/-- Write PG_CTRL.ENABLE: 0 returns an ACTIVE or SUSPENDED block to IDLE (R49, R616). -/
def State.setEnable (s : State) (key : Nat) (on : Bool) : State :=
  let s := s.modPage key fun p => { p with enable := on }
  if on then s
  else
    match (s.page key).st with
    | .active | .suspended =>
      let stopping : Bool := match (s.page key).op with | some op => decide (op.opcode = 0x0002) | none => false
      if stopping then s.stopDone key else ((s.stopHook key).enter key .idle).startStopFails key
    | _ => s.startStopFails key

/-- Write PG_CTRL.FREEZE (R49, R262). -/
def State.setFreeze (s : State) (key : Nat) (on : Bool) : State :=
  let st := (s.page key).st
  let p := pipeOfKey key
  let s := s.modPage key fun p => { p with freeze := on }
  if on ∧ (st = .idle ∨ st = .active ∨ st = .suspended) then
    let s := if blockOf key = .cap then s.capPause p 4 else s
    ((s.modPage key fun p => { p with prev := st }).enter key .frozen).startStopFails key
  else if !on ∧ st = .frozen then
    let s := (s.enter key (s.page key).prev).modPage key fun p => { p with gapNext := true }
    if (s.page key).st ≠ .active then s
    else if blockOf key = .cap then s.capResume p 4 else s.skipHook key
  else s

/-- Write PG_CTRL.LOCK: W1S (R41, R43). -/
def State.setLock (s : State) (key : Nat) : State := s.modPage key fun p => { p with lock := true }

/-- Write PG_CTRL: SOFT_RESET overrides the rest of the word (R41, R49). -/
def State.writeCtrl (s : State) (key : Nat) (w : Word) : State :=
  if wbit w 1 then s.softReset key
  else
    let s := if wbit w 31 then s.setLock key else s
    let s := if (s.page key).enable = wbit w 0 then s else s.setEnable key (wbit w 0)
    if (s.page key).freeze = wbit w 2 then s else s.setFreeze key (wbit w 2)

/-- SOFT_RESET. -/
def execSoftReset (who : Issuer) (key : Fin 8192) (s : State) : Res :=
  .next (s.write who key 0x010 2 fun s => s.writeCtrl key 2)

/-- PG_CTRL of a page: SOFT_RESET reads 1 until the reset it caused is complete. -/
def State.ctrl (s : State) (key : Nat) : Nat :=
  boolNat (s.page key).enable + 2 * boolNat ((s.page key).softRst && decide ((s.page key).st = .reset)) + 4 * boolNat (s.page key).freeze + 2 ^ 31 * boolNat (s.page key).lock

/-- FREEZE_WRITE: PG_CTRL.FREEZE is written, and the other fields as they are. -/
def execFreezeWrite (who : Issuer) (key : Fin 8192) (on : Bool) (s : State) : Res :=
  .next (s.write who key 0x010 (putBit (s.ctrl key) 2 on) fun s => s.setFreeze key on)

/-- ENABLE_WRITE. -/
def execEnableWrite (who : Issuer) (key : Fin 8192) (on : Bool) (s : State) : Res :=
  .next (s.write who key 0x010 (putBit (s.ctrl key) 0 on) fun s => s.setEnable key on)

/-- LOCK_SET. -/
def execLockSet (who : Issuer) (key : Fin 8192) (s : State) : Res :=
  .next (s.write who key 0x010 (putBit (s.ctrl key) 31 true) fun s => s.setLock key)

/-- A converter block has come out of reset: with its domains on it is CLOCKING with PATTERN OFF, and the trims in force are written
again (R111). One that C4 stands in for is due for a survey (R123). -/
def State.convRestart (s : State) (c : Nat) : State :=
  if !s.domainOn c ∨ !s.domainOn (5 + c) ∨ s.noConv c then s
  else
    let s := (s.setAdcField c Reg.ADC_CFG.PATTERN 0).convEnter c convCLOCKING
    let s := (s.wb (keyADC c) Reg.ADC_STAT.TRIMS_LOADED true).updateLocked c
    if s.standingFor c ∧ !s.svy.startOrder.contains c then s.modSvy fun v => { v with startOrder := v.startOrder ++ [c] } else s

/-- BLOCK_RESET_COMPLETE: RESET becomes IDLE (R49). A repaired page of Phoin's returns to the capacity table (R310, R587). -/
def execBlockResetComplete (key : Fin 8192) (s : State) : Res :=
  if (s.page key).st ≠ .reset ∨ !keyListed key then .next s
  else
    let s := s.enter key .idle
    let s := if blockOf key = .adc then s.convRestart (instanceOf key) else s
    .next (if (s.page key).owner = .phoin ∧ s.ready then s.readmit.refreshPhn else s)

/-- PG_RES_ACK: the current PG_RES_SEQ releases the window, and the first result that waits takes it (R61). -/
def State.writeAck (s : State) (key : Nat) (v : Word) : State :=
  if v ≠ (s.page key).resSeq then s.setErr key errACK_SEQ
  else if (s.page key).resReady then
    let s := (s.modPage key fun p => { p with resReady := false }).drainResult key
    if key = keyTDC then s.tdcDrain else s
  else s

def execPgResAckWrite (who : Issuer) (key : Fin 8192) (value : BitVec 32) (s : State) : Res :=
  .next (s.write who key 0x058 value.toNat fun s => s.writeAck key value)

/-- PG_IRQ (W1C) or PG_IRQ_EN: a value that stays non-zero sends another message (R64). -/
def State.writeIrq (s : State) (key : Nat) (en : Bool) (v : Word) : State :=
  let s := s.modPage key fun p => if en then { p with irqEn := v &&& 0xFFFF001F } else { p with irq := p.irq &&& ~~~v }
  if (s.page key).irq &&& (s.page key).irqEn ≠ 0 then s.pageMessage key else s

def execPgIrqWrite (who : Issuer) (key : Fin 8192) (en : Bool) (value : BitVec 32) (s : State) : Res :=
  .next (s.write who key (if en then 0x024 else 0x020) value.toNat fun s => s.writeIrq key en value)

/-! ### Block registers (R6, R43, R619). -/

/-- One field of a write: the new word, whether it was out of range, and whether LOCK refused it. -/
def FieldDesc.write (f : FieldDesc) (lock ok : Bool) (old w : Word) : Word × Bool × Bool :=
  let v := wget w f.hi f.lo
  let fits := ok && f.inRange w
  match f.acc with
  | .ro | .wo => (old, f.acc = .wo && !fits, false)
  | .w1c => (wset old f.hi f.lo (wget (old &&& ~~~w) f.hi f.lo), false, false)
  | .w1s => (wset old f.hi f.lo (wget (old ||| w) f.hi f.lo), false, false)
  | .rwl => if lock then (old, false, true) else if fits then (wset old f.hi f.lo v, false, false) else (old, true, false)
  | .rw => if fits then (wset old f.hi f.lo v, false, false) else (old, true, false)

/-- Every field of a write. -/
def writeFields (lock : Bool) (ok : FieldDesc → Bool) (old w : Word) (fs : List FieldDesc) : Word × Bool × Bool :=
  fs.foldl (fun (x : Word × Bool × Bool) f => let y := f.write lock (ok f) x.1 w; (y.1, x.2.1 || y.2.1, x.2.2 || y.2.2)) (old, false, false)

/-- Ranges that depend on other fields or on the page (R99, R100, R103, R151, R186, R205, R244). -/
def State.fieldOk (s : State) (key off : Nat) (w : Word) (f : FieldDesc) : Bool :=
  match blockOf key with
  | .afe =>
    let c := instanceOf key
    if off = 0x100 then
      if f.lo = 8 then decide (wget w 9 8 ≠ 1) || (decide (c = 1) || decide (c = 3))
      else if f.lo = 4 then decide (wget w 5 4 ≠ 2) || decide (s.rf (keyADC c) Reg.ADC_CFG.BOND_ROLE ≠ 0)
      else if f.lo = 0 then !(s.page key).lock || decide (s.rf key Reg.AFE_ATTEN_MIN.MIN ≤ wget w 3 0)
      else true
    else true
  | .ins => if 0x400 ≤ off ∧ off % 16 = 0 ∧ f.lo = 0 then insExpOk w else true
  | .ttr => if 0x200 ≤ off ∧ off % 16 = 0 ∧ f.lo = 8 then ttrDirOk w else true
  | b => if (b = .cap ∧ off = 0x118) ∨ (b = .grt ∧ off = 0x118) then wordOk b off w else true

/-- A flow uses the profile of an ETH page's offset (R490). -/
def State.profileInUse (s : State) (key off : Nat) : Bool :=
  decide (0x800 ≤ off) && s.streams.any fun x =>
    decide (x.2.dest = destETH) && decide (s.profOf x.1 = (off - 0x800) / 0x40) && x.2.ports.any fun p => decide (p.index = instanceOf key)

/-- A register that its block refuses at present: core registers are written in HALTED, core configuration in IDLE or HALTED (R534, R540). -/
def State.mcRefuses (s : State) (key off : Nat) : Bool :=
  let st := s.mcState (instanceOf key)
  if 0x200 ≤ off then decide (st ≠ mcHALTED) else (decide (off = 0x10C) || decide (off = 0x110)) && decide (st ≠ mcIDLE) && decide (st ≠ mcHALTED)

/-- MC_REGr: 32 bits of a core register, and bits [39:32] of an accumulator in HI; bits beyond a register's width read 0 (R515, R540). -/
def State.writeCoreReg (s : State) (n off : Nat) (w : Word) : State :=
  let r := (off - 0x200) / 8
  s.modCore n fun c =>
    let old := c.reg r
    let new := if off % 8 = 0 then setBits old 31 0 w.toNat else setBits old 39 32 (w.toNat % 256)
    { c with regs := mput c.regs r (new % 2 ^ coreWidth r) }

/-- A write to a register of a block's table: each field by its access type (R43). -/
def State.writeTable (s : State) (key off : Nat) (w : Word) : State :=
  match findReg (regTable (blockOf key)) off with
  | none => s
  | some (r, _) =>
    let x := writeFields (s.page key).lock (s.fieldOk key off w) (s.reg key off) w r.fields
    let s := s.setReg key off x.1
    let s := if x.2.1 then s.setErr key errRANGE else s
    if x.2.2 then s.setErr key errLOCKED else s

/-- A write to TBS_CFG: REFOUT takes its frequency (R75). -/
def State.writeTbsCfg (s : State) (w : Word) : State :=
  let t := s.writeTable keyTBS 0x100 w
  if t.refoutHz = s.refoutHz then t else t.emit (.refout t.refoutHz)

/-- A write to a block register that reaches its page. -/
def State.writeBlock (s : State) (who : Issuer) (key off : Nat) (w : Word) : State :=
  let n := instanceOf key
  let p := pipeOfKey key
  match s.blockAt key with
  | .adc => if h : n < 5 ∧ off = 0x100 then orStay (execAdcCfgWrite who ⟨n, h.1⟩ w s) s else s.writeTable key off w
  | .ddc => if h : p < 6 ∧ off = 0x114 then orStay (execDcCfgWrite who ⟨p, h.1⟩ w s) s else s.writeTable key off w
  | .grt => if h : p < 6 ∧ off = 0x120 then orStay (execGrtMapSelWrite who ⟨p, h.1⟩ w s) s else s.writeTable key off w
  | .red =>
    if h : p < 6 ∧ (off - 0x210) / 0x20 < 3 ∧ 0x210 ≤ off ∧ (off - 0x210) % 0x20 = 0 then
      orStay (execRecordPlaneRdWrite who ⟨p, h.1⟩ ⟨(off - 0x210) / 0x20, h.2.1⟩ w s) s
    else s.writeTable key off w
  | .afe => if off = 0x104 ∧ n < 4 then s else s.writeTable key off w
  | .ins =>
    let s := s.writeTable key off w
    s.setReg key 0x108 (word (s.insStagedRate p))
  | .ttr =>
    let base := 0x200 + off / 16 % 16 * 16
    let s := s.writeTable key off w
    let type := wget (s.reg key base) 2 0
    if 0x200 ≤ off ∧ 1 ≤ type ∧ type ≤ 3 then
      (s.setReg key (base + 4) (s.reg key (base + 4) &&& 0xFFFF)).setReg key (base + 8) (s.reg key (base + 8) &&& 0xFFFF)
    else s
  | .mc =>
    if s.mcRefuses key off then s.logPage key 0 codeSTATE 0x04 5 0
    else if 0x200 ≤ off ∧ off < 0x200 + 8 * 51 then s.writeCoreReg n off w else s.writeTable key off w
  | .tbs => if off = 0x100 then s.writeTbsCfg w else s.writeTable key off w
  | .eth => if s.profileInUse key off then s.setErr key errRANGE else s.writeTable key off w
  | _ => s.writeTable key off w

/-- A write to a register of a page, as BAR0 and the module's own path make it. A write with partial byte enables is discarded with
PG_ERR.ACCESS (R34). PG_CMD is written by the commands. -/
def State.writeReg (s : State) (who : Issuer) (key off : Nat) (w : Word) (full : Bool) : State :=
  if !full then s.honour who key off w.toNat fun s => s.setErr key errACCESS
  else
    s.write who key off w.toNat fun s =>
    if 0x100 ≤ off then s.writeBlock who key off w
    else
      match off with
      | 0x010 => s.writeCtrl key w
      | 0x018 => s.modPage key fun p => { p with err := p.err &&& ~~~w }
      | 0x01C => s.modPage key fun p => { p with errEn := w &&& 0xFFFF003B }
      | 0x020 => s.writeIrq key false w
      | 0x024 => s.writeIrq key true w
      | 0x034 => s.modPage key fun p => { p with a0 := w }
      | 0x038 => s.modPage key fun p => { p with a1 := w }
      | 0x03C => s.modPage key fun p => { p with a2 := w }
      | 0x040 => s.modPage key fun p => { p with a3 := w }
      | 0x058 => s.writeAck key w
      | _ => s

/-- REGISTER_WRITE. -/
def execRegisterWrite (who : Issuer) (key : Fin 8192) (word : Fin 1024) (value : BitVec 32) (full : Bool) (s : State) : Res :=
  .next (s.writeReg who key (4 * word.val) value full)

/-! ### Reads (R34-R36, R41). -/

/-- PG_STAT (R41). -/
def State.statWord (s : State) (key : Nat) : Word :=
  let p := s.page key
  let out : Bool := decide (blockOf key = .afe) || decide (p.st = .active)
  let block := if s.guestPage key then (Config.guestWord key 0x014 s.freeCtr).toNat / 65536 * 65536 else 0
  word (block + p.st.code + 16 * boolNat (p.settling && out) + 32 * boolNat (p.stale && out) + 64 * boolNat (decide (p.st = .fault)) + 256 * boolNat p.op.isSome +
    512 * boolNat p.lock)

/-- The word that a block register shows: staged registers of the second pipeline of a gang show what is applied (R133, R159, R181, R226,
R231), TBS_SIX0 the live SIX (R79), and ADC_STAT the converter's state at the present index (R111). -/
def State.shown (s : State) (key off : Nat) : Word :=
  if blockOf key ∈ [BlockType.ddc, .fft, .ctr, .ttr, .grt, .cap, .red] ∧ s.gangedSecond (pipeOfKey key) ∧ isStaged key off then s.areg key off
  else if key = keyTBS ∧ off = 0x130 then word s.six
  else if blockOf key = .adc ∧ off = 0x104 then wset (s.reg key off) 15 12 (s.convState (instanceOf key))
  else s.reg key off

/-- The value that a read of a register returns. Every page answers in every ownership state; a page whose domain is off answers only
PG_ID and PG_STAT (R36, R44, R564). -/
def State.readReg (s : State) (key off : Nat) : Word :=
  let p := s.page key
  let type := if s.guestPage key then 0x8000 + Config.guestType key % 0x7FFF else (blockOf key).code
  let id := word (type * 2 ^ 16 + instanceOf key * 2 ^ 8 + keyRegion key)
  if !keyListed key then 0
  else if s.pageOff key then (if off = 0 then id else if off = 0x014 then (if p.st = .off then s.statWord key else 0) else 0)
  else if 0x100 ≤ off then
    if s.guestPage key then Config.guestWord key off s.freeCtr
    else if key = keyMOD ∧ off = 0x100 then s.reg key off ||| word (boolNat s.guest)
    else if key = keySVY ∧ 0x130 ≤ off ∧ off < 0x144 ∧ off % 4 = 0 then word (s.surveyAge ((off - 0x130) / 4))
    else if blockOf key = .mc ∧ 0x200 ≤ off ∧ off < 0x200 + 8 * 51 then
      let v := (s.core (instanceOf key)).reg ((off - 0x200) / 8)
      word (if off % 8 = 0 then v % 2 ^ 32 else v / 2 ^ 32 % 256)
    else
      match findReg (regTable (blockOf key)) off with
      | some (r, _) => r.fields.foldl (fun w f => if f.acc = .wo then wset w f.hi f.lo 0 else w) (s.shown key off)
      | none => 0
  else
    match off with
    | 0x000 => id
    | 0x004 => if s.guestDie key then Config.guestVer key else 0x01000000
    | 0x008 => if s.guestDie key then Config.guestCap key else word (pageCap key * 2 ^ 27)
    | 0x00C => word (p.owner.code + p.gen % 256 * 2 ^ 8)
    | 0x010 => word (s.ctrl key)
    | 0x014 => s.statWord key
    | 0x018 => p.err
    | 0x01C => p.errEn
    | 0x020 => p.irq
    | 0x024 => p.irqEn
    | 0x034 => p.a0
    | 0x038 => p.a1
    | 0x03C => p.a2
    | 0x040 => p.a3
    | 0x044 => p.cmdStat
    | 0x048 => p.progress
    | 0x050 => p.resSeq
    | 0x054 => word (boolNat p.resReady)
    | o => if 0x060 ≤ o ∧ o < 0x080 then p.res.getD ((o - 0x060) / 4) 0 else 0

/-! ### MSI-X and the windows (R32, R33, R35, R62-R64). -/

/-- A word of the MSI-X table; a vector that is unmasked with its bit pending sends its message (R64). -/
def State.writeMsix (s : State) (i : Nat) (w : Word) : State :=
  let s := { s with msixTable := mput s.msixTable i (if i % 4 = 3 then w &&& 1 else w) }
  let v := i / 4
  if s.msixPending v ∧ !s.msixMasked v then ({ s with msixPend := mdel s.msixPend v }).sendMsix v else s

/-- MSIX_UNMASK. -/
def execMsixUnmask (vector : Fin 2048) (s : State) : Res := .next (s.writeMsix (4 * vector.val + 3) 0)

/-- The page that governs an address of the windows, when the address is not reserved (R32, R33, R188, R547). -/
def windowKey (a : Nat) : Option Nat :=
  if 0x02000000 ≤ a ∧ a < 0x02C00000 then some (keyMC ((a - 0x02000000) / 0x30000))
  else if 0x02C00000 ≤ a ∧ a < 0x02E00000 then some keyRNG
  else if 0x02E00000 ≤ a ∧ a < 0x03A00000 then some (keyCTR ((a - 0x02E00000) / 0x200000))
  else if 0x03A00000 ≤ a ∧ a < 0x03A01000 then some keyDSP
  else if 0x03A80000 ≤ a ∧ a < 0x03A8C000 then some (keyGRT ((a - 0x03A80000) / 0x2000))
  else none

/-- The address of a register of a page that the catalogue lists, or of a window or MSI-X structure. -/
def barMapped (a : Nat) : Bool :=
  if a < 0x02000000 then keyListed (keyOf (a / 0x400000) (a % 0x400000 / 0x1000))
  else (windowKey a).isSome || (decide (0x03F00000 ≤ a) && decide (a < 0x03F08100))

/-- WINDOW_WRITE: a word into an indirect window, honoured while its page reads OWNER = HOST, or into the MSI-X table (R33, R34). -/
def execWindowWrite (who : Issuer) (addr : Fin 0x4000000) (value : BitVec 32) (full : Bool) (s : State) : Res :=
  let a := addr.val / 4 * 4
  if 0x03F00000 ≤ a ∧ a < 0x03F08000 then .next (if full then s.writeMsix ((a - 0x03F00000) / 4) value else s)
  else
    match windowKey a with
    | none => .next (if who = .module ∨ barMapped a then s else s.logUnmapped a)
    | some key =>
      match s.discards who key with
      | some .owner => .next (s.logDiscard key a value.toNat codeOWNER)
      | some _ => .next (if who = .module then s else s.logDiscard key a value.toNat codeSTATE)
      | none =>
        if !full then .next (s.setErr key errACCESS)
        else if key = keyRNG then
          execRingContextWrite (Fin.ofNat 32768 ((a - 0x02C00000) / 64)) (Fin.ofNat 16 (a % 64 / 4)) value s
        else .next (s.setWin a value)

/-- UNMAPPED_ACCESS: an access to a reserved range or to a page that the catalogue does not list is logged (R35). -/
def execUnmappedAccess (addr : Fin 0x4000000) (s : State) : Res := .next (if barMapped addr then s else s.logUnmapped addr)

/-- ROUTE_IRQ on the HIF page (R63, R486). A command with the key of the FLT page and a vector of 1-31 breaks two checks, whose order R63
does not give: the model answers RANGE (log entry 75). -/
def execRouteIrq (who : Issuer) (tag : Nat) (s : State) : Res :=
  .next (s.command who keyHIF 0x0100 tag fun s op =>
    let key := op.a0 % 2 ^ 13
    let v := op.a1 % 2 ^ 11
    if !keyListed key ∨ (1 ≤ v ∧ v < 32) then s.rejectOp keyHIF op codeRANGE 0
    else if key = keyFLT then s.rejectOp keyHIF op codePROTECT 0x03
    else { s.accept keyHIF op with routes := if v = 0 then mdel s.routes key else mput s.routes key v }.doneOp keyHIF)

/-! ### Faults of cells and blocks (R14, R106). -/

/-- A block enters FAULT, with what its kind does then: converters (R107, R123), channels (R450), the time base (R72). -/
def State.enterFault (s : State) (key bit : Nat) : State :=
  let was := (s.page key).st
  let s := s.faultBlock key bit
  if (s.page key).st ≠ .fault ∨ was = .fault then s
  else
    match s.blockAt key with
    | .adc | .afe => s.convFault (instanceOf key)
    | .trv => s.cancelGroup key
    | .cmp => s.cmpAbort (instanceOf key)
    | .tbs => s.syncOff.modTb fun t => { t with setSecs := none }
    | .tdc => s.tdcStop
    | .cap => s.capPause (pipeOfKey key) 4
    | _ => { s.clearPend key with parkedPend := mdel s.parkedPend key }

/-- Fault bits of PG_ERR.BLOCK by block, as the block chapters mark them. -/
def faultBits : BlockType → List Nat
  | .tbs => [20] | .adc => [17, 20] | .afe => [17] | .ddc | .ins | .mc | .eth | .cmp => [18] | .grt | .ctr | .red => [17] | .ttr | .trg => [16]
  | .fft | .cap | .trv | .crc => [19] | .mem => [24] | .bxe | .dsp => [21] | _ => []

/-- The fault bit that cell escalation raises in a block beside ESCALATED. -/
def cellBit : BlockType → Nat
  | .ddc | .ins | .mc | .cmp => 18 | .grt | .ctr | .red => 17 | .ttr | .trg => 16 | .fft | .cap | .trv | .crc => 19 | .mem => 24 | .dsp => 21 | _ => 5

/-- BLOCK_FAULT: a block enters FAULT; Phoin re-places its tasks once the collector releases the entry (R14, R318, R590). -/
def execBlockFault (key : Fin 8192) (bit : Fin 32) (s : State) : Res :=
  if !keyListed key ∨ (bit.val ≠ errESCALATED ∧ !(faultBits (s.blockAt key)).contains bit.val ∧ !(s.guestPage key && decide (16 ≤ bit.val))) then
    .next s
  else if key = keyTBS then execXtalFault s
  else .next (s.enterFault key bit)

/-- A corrected error is counted in the page of its block, where the page has a counter for it (R14, R366, R514). -/
def State.countCorrected (s : State) (key : Nat) : State :=
  match s.blockAt key with
  | .mc => s.count key Reg.MC_ECC_CE
  | .mem => s.count key Reg.MEM_ECC_CE
  | _ => s

/-- CELL_ERROR: a cell corrects an error or retries; an error that neither corrects escalates to its block (R14). -/
def execCellError (key : Fin 8192) (corrected : Bool) (s : State) : Res :=
  let runs : Bool := decide ((s.page key).st ≠ .off) && decide ((s.page key).st ≠ .reset)
  .next (if !keyListed key ∨ !runs then s else if corrected then s.countCorrected key else (s.setErr key errESCALATED).enterFault key (cellBit (blockOf key)))

end Sys2Proof.Machine
end

