-- ==== Sys2Proof/Machine/Hbm.lean ====
section
/-! DEFINITION. The commands of the memory controllers (R351-R370): requests, refresh, delay tables, self-refresh, row
disturbance, scrub, and the ends of rank copies and layer fills. -/

namespace Sys2Proof.Machine

/-! ### Choosing a request (R352, R353). -/

/-- Pseudo-channel of a request: that of its rank, or of its chunk for a hole. -/
def State.reqChannel (s : State) (m : Nat) (r : MemReq) : Nat :=
  match s.rankOf m (addrLocal r.addr) with
  | some k => k % 32
  | none => r.addr / 256 % 32

/-- Requests for the same 64-byte line. -/
def sameLine (a b : MemReq) : Bool := decide (a.addr / 64 = b.addr / 64)

/-- A request may be served: a read waits for an earlier write to its line, a write for any earlier request to it (R353). -/
def lineFree (before : List (Nat × MemReq)) (r : MemReq) : Bool :=
  before.all fun b => !sameLine b.2 r || (b.2.bytes.isNone && r.bytes.isNone)

/-- The requests of a pseudo-channel that may be served, with their places in the queue; a write whose command failed is ahead of
them all until it reaches the replacement rank (R353, R365). -/
def State.eligible (s : State) (m pc : Nat) : List (Nat × Nat × MemReq) :=
  let q := (s.stack m).queue
  (List.range q.length).filterMap fun i =>
    match q[i]? with
    | some (t, r) => if s.reqChannel m r = pc ∧ lineFree ((s.stack m).kept.map (fun k => (0, k)) ++ q.take i) r then some (i, t, r) else none
    | none => none

/-- 20 µs in SCLK periods. -/
def agedSix : Nat := 20 * 40960

/-- The first of the best class: RT before ST, ST before CT, CT before BG, the oldest first. -/
def bestClass (l : List (Nat × Nat × MemReq)) : Option (Nat × Nat × MemReq) :=
  (List.range 4).findSome? fun c => l.find? fun x => decide (x.2.2.cls = c)

/-- A throttled source must wait: its next activation is not yet due and the request is no hit of an open row (R362). -/
def State.throttleHolds (s : State) (m : Nat) (r : MemReq) : Bool :=
  decide (r.cls ≠ 0) &&
    match mfind (s.stack m).throttled r.source, s.rankOf m (addrLocal r.addr), s.layerOf m (addrLocal r.addr) with
    | some (until_, next), some k, some l =>
      let w := (chunkOf l (s.layerSlots m l) (addrLocal r.addr)).2
      decide (s.six < until_) && decide (s.six < next) && decide (mfind (s.stack m).open0 (k * 16 + bankOf w) ≠ some (dramRow w))
    | _, _, _ => false

/-- The request that a pseudo-channel serves next, and whether it is one that had waited 20 µs (R352). -/
def State.nextRequest (s : State) (m pc : Nat) : Option (Nat × Nat × MemReq) × Bool :=
  let all := (s.eligible m pc).filter fun x => !s.throttleHolds m x.2.2
  let reads := all.filter (·.2.2.bytes.isNone)
  let writes := all.filter (·.2.2.bytes.isSome)
  let old := all.find? fun x => decide (x.2.2.cls ≠ 0) && decide (x.2.1 + agedSix ≤ s.six)
  if old.isSome ∧ mget (fun _ => false) (s.stack m).aged pc = false then (old, true)
  else if reads.isEmpty ∨ mget (fun _ => 0) (s.stack m).drain pc ≠ 0 then
    ((bestClass writes).orElse fun _ => bestClass reads, false)
  else (bestClass reads, false)

/-! ### Activations (R362). -/

/-- The source with the most activations; ties go to the lowest. -/
def topSource (l : List (Nat × Nat)) : Nat :=
  (l.foldl (fun (b : Option (Nat × Nat)) x => match b with | some y => if y.2 < x.2 then some x else b | none => some x) none).elim 0 (·.1)

/-- A request activates its row unless the row is open: it is counted for its source, and at THRESH the offender is named
and, unless it is RT, throttled for 1 ms (R362). -/
def State.activate (s : State) (m : Nat) (r : MemReq) (rank w : Nat) : State :=
  let k := keyMEM m
  let bank := rank * 16 + bankOf w
  if mfind (s.stack m).open0 bank = some (dramRow w) then s
  else
    let row := bank * 16384 + dramRow w
    let counts := mget (fun _ => []) (s.stack m).acts row
    let counts := mput counts r.source (mget (fun _ => 0) counts r.source + 1)
    let total := (counts.map (·.2)).sum
    let s := s.modStack m fun q =>
      { q with open0 := mput q.open0 bank (dramRow w), acts := mput q.acts row counts,
               throttled := match mfind q.throttled r.source with
                 | some (u, _) => mput q.throttled r.source (u, s.six + 20480)
                 | none => q.throttled }
    if total ≠ s.rf k Reg.MEM_RH_CFG.THRESH then s
    else
      let src := topSource counts
      let rt := decide (src = r.source) && decide (r.cls = 0) ||
        (decide (src ≠ r.source) && decide (0x100 ≤ src % 4096 ∧ src % 4096 ≤ 0x112 ∧ src / 4096 ≠ 0))
      let last := src % 65536 * 65536 + bankOf w * 4096 + boolNat (!rt) * 128 + rank
      let s := ((s.setReg k 0x11C (word last)).setReg k 0x120 (word (dramRow w))).count k Reg.MEM_RH_EVENTS
      let s := (s.setErr k 19).logPage k 0 0 0 15 last
      if rt then s
      else s.modStack m fun q => { q with throttled := mput q.throttled src (s.six + sixPerMs, s.six + 20480) }

/-! ### Serving (R351-R354, R363-R365). -/

/-- Deliver a read; a poisoned line carries its mark and is counted (R364). -/
def State.answerReq (s : State) (m : Nat) (r : MemReq) (bytes : List Byte) (poisoned : Bool) : State :=
  let s := if poisoned then s.count (keyMEM m) Reg.MEM_POISON_READS else s
  s.emit (.memReply r.source r.addr bytes poisoned)

/-- The device serves one request: `caFails` of its command attempts fail parity, and `ecc` is 0 clean, 1 corrected, 2
uncorrectable, for the line a read or a partial write reads (R354, R363-R365). -/
def State.serve (s : State) (m : Nat) (r : MemReq) (caFails ecc : Nat) : State :=
  let k := keyMEM m
  let o := addrLocal r.addr
  match s.rankOf m o, s.layerOf m o with
  | some rank, some l =>
    let w := (chunkOf l (s.layerSlots m l) o).2
    let s := s.activate m r rank w
    let s := s.countBy k Reg.MEM_CA_RETRY (min 3 caFails)
    if 4 ≤ caFails then
      let s := match r.bytes with
        | none => s.answerReq m r (s.readLine r.addr).1 true
        | some _ => s.modStack m fun q => { q with kept := q.kept ++ [r] }
      ((s.errAddr m r.addr).setErr k 18).rankOut m rank
    else
      match r.bytes with
      | none =>
        let s := if ecc = 1 then s.correctLine m rank else if ecc = 2 then s.uncorrectable m r.addr rank else s
        let line := s.readLine r.addr
        s.answerReq m r line.1 line.2
      | some bs =>
        let whole := (List.range 64).all fun i => (bs.getD i none).isSome
        let s := if whole then s else if ecc = 1 then s.correctLine m rank else if ecc = 2 then s.uncorrectable m r.addr rank else s
        s.mergeLine r.addr bs
  | _, _ =>
    let s := s.holeAccess m r.addr
    match r.bytes with
    | none => s.answerReq m r (List.replicate 64 0) true
    | some _ => s

/-- MEM_REQUEST: requests arrive at a stack, and a pseudo-channel serves one of those queued. A stack that sleeps wakes
first and the requests wait (R352-R354, R360-R365). -/
def execMemRequest (stack : Fin 4) (pc : Fin 32) (arrivals : List MemReq) (caFails ecc : Nat) (s : State) : Res :=
  let m : Nat := stack
  let asleep : Bool := decide (3 ≤ s.srState m)
  let s := s.modStack m fun q => { q with queue := q.queue ++ arrivals.map fun r => (s.six, r) }
  let s := if asleep then s.countBy (keyMEM m) Reg.MEM_SR_WAITS arrivals.length else s
  let s := s.srUpdate m
  if 3 ≤ s.srState m then .next s
  else
    let writes := ((s.stack m).queue.filter fun x => x.2.bytes.isSome && decide (s.reqChannel m x.2 = pc)).length
    let reads := (s.stack m).queue.any fun x => x.2.bytes.isNone && decide (s.reqChannel m x.2 = pc)
    let left := mget (fun _ => 0) (s.stack m).drain pc
    let left := if writes = 0 then 0 else if left = 0 ∧ (48 ≤ writes ∨ !reads) then 16 else left
    let s := s.modStack m fun q => { q with drain := mput q.drain pc left }
    match s.nextRequest m pc with
    | (none, _) => .next s
    | (some (i, _, r), aged) =>
      let s := s.modStack m fun q =>
        { q with queue := q.queue.eraseIdx i, aged := mput q.aged pc aged,
                 drain := if r.bytes.isSome then mput q.drain pc (mget (fun _ => 0) q.drain pc - 1) else q.drain }
      let s := (s.serve m r caFails ecc).srUpdate m
      let s := if (s.stack m).queue.any fun x => decide (x.2.cls = 0) then s else s.wf (keyMEM m) Reg.MEM_REFRESH.OWED 0
      .next (s.loseLayer m)

/-- THROTTLE_END: the throttle of a source ends after 1 ms (R362). -/
def execThrottleEnd (stack : Fin 4) (source : Nat) (s : State) : Res :=
  match mfind (s.stack stack).throttled source with
  | none => .next s
  | some (u, _) => .next ((s.advanceTo u).modStack stack fun q => { q with throttled := mdel q.throttled source })

/-- RH_WINDOW_START: the next multiple of 32 ms begins a new window of activation counts (R362). -/
def execRhWindowStart (stack : Fin 4) (s : State) : Res :=
  let at0 := (s.six / 1310720000 + 1) * 1310720000
  .next ((s.advanceTo at0).modStack stack fun q => { q with acts := [] })

/-! ### Refresh and delays (R355-R358). -/

/-- A refresh closes all rows. -/
def State.closeRows (s : State) (m : Nat) : State := s.modStack m fun q => { q with open0 := [] }

/-- REFRESH_INTERVAL: a tREFI interval ends. Cold, the refresh is issued when no RT request is queued, postponed up to 8,
and then pre-empts with three; hot, it is never postponed (R355, R356). -/
def execRefreshInterval (stack : Fin 4) (s : State) : Res :=
  let m : Nat := stack
  let k := keyMEM m
  let owed := s.rf k Reg.MEM_REFRESH.OWED
  if 3 ≤ s.srState m then .next s
  else if s.rb k Reg.MEM_REFRESH.HOT then .next ((s.closeRows m).modStack m fun q => { q with hotEnd := s.six + 15565 })
  else if !(s.stack m).queue.any fun x => decide (x.2.cls = 0) then .next ((s.wf k Reg.MEM_REFRESH.OWED 0).closeRows m)
  else if owed < 8 then .next (s.wf k Reg.MEM_REFRESH.OWED (owed + 1))
  else
    let s := ((s.wf k Reg.MEM_REFRESH.OWED 6).count k Reg.MEM_PREEMPTS).closeRows m
    .next (s.modStack m fun q => { q with preemptEnd := s.six + 49152 })

/-- Temperature band of a MEM_TEMP value: ⌊T / 8 °C⌋, 0 to 13 (R357). -/
def bandOf (t : Int) : Nat := min 13 (t / 128).toNat

/-- MEM_TEMP_REFRESH: the device temperature is refreshed; above 85 °C tREFI halves (R355). -/
def execMemTempRefresh (stack : Fin 4) (temp : BitVec 16) (s : State) : Res :=
  let m : Nat := stack
  let k := keyMEM m
  let t := signedOf 16 temp.toNat
  let s := (s.wf k Reg.MEM_TEMP.TEMP temp.toNat).wb k Reg.MEM_REFRESH.HOT (decide (85 * 16 < t))
  let b := bandOf t
  .next (if b = (s.stack m).bandNow then s else s.modStack m fun q => { q with bandNow := b, bandSince := s.six })

/-- TEMP_BAND_CHANGE: a new band is recognised after 10 ms inside it, and a return to the band just left only from 1 °C past
the boundary; the new delays wait to be written (R358). -/
def execTempBandChange (stack : Fin 4) (s : State) : Res :=
  let m : Nat := stack
  let k := keyMEM m
  let q := s.stack m
  let old := s.rf k Reg.MEM_STAT.BAND
  let t := signedOf 16 (s.rf k Reg.MEM_TEMP.TEMP)
  let past := if q.bandNow < old then decide (t + 16 ≤ (old * 128 : Nat)) else decide ((q.bandNow * 128 + 16 : Nat) ≤ t)
  if q.bandNow = old ∨ (q.bandLeft = some q.bandNow ∧ !past) then .next s
  else
    let s := s.advanceTo (q.bandSince + 10 * sixPerMs)
    let s := (s.wf k Reg.MEM_STAT.BAND q.bandNow).wb k Reg.MEM_TRAIN.PENDING true
    .next (s.modStack m fun q => { q with bandLeft := some old, delayCh := 0 })

/-- DELAY_UPDATE: the delays of one channel are written, at least 4 µs after the last update and, cold, 4 µs after the last
pre-emption or, hot, 0.5 µs after the last refresh stall; the band is in force once all 16 channels have theirs (R355, R358). -/
def execDelayUpdate (stack : Fin 4) (s : State) : Res :=
  let m : Nat := stack
  let k := keyMEM m
  let q := s.stack m
  if !s.rb k Reg.MEM_TRAIN.PENDING || decide (3 ≤ s.srState m) || (!s.rb k Reg.MEM_REFRESH.HOT && decide (7 < s.rf k Reg.MEM_REFRESH.OWED)) then
    .next s
  else
    let after (t d : Nat) : Nat := if t = 0 then 0 else t + d
    let stall := if s.rb k Reg.MEM_REFRESH.HOT then after q.hotEnd 20480 else after q.preemptEnd 163840
    let s := s.advanceTo (max stall (after q.delayAt 163840))
    let s := s.modStack m fun q => { q with delayCh := q.delayCh + 1, delayAt := s.six }
    .next (if q.delayCh + 1 < 16 then s
      else ((s.wf k Reg.MEM_TRAIN.BAND (s.rf k Reg.MEM_STAT.BAND)).wb k Reg.MEM_TRAIN.PENDING false).modStack m fun q => { q with delayCh := 0 })

/-! ### Self-refresh (R359-R361). -/

/-- SR_IDLE_EXPIRY: the stack has been idle for IDLE_US and begins to enter self-refresh, paying owed refreshes (R360, R361). -/
def execSrIdleExpiry (stack : Fin 4) (s : State) : Res :=
  let m : Nat := stack
  let s := s.srUpdate m
  if s.srState m ≠ srIDLE_WAIT then .next s
  else .next ((s.advanceTo ((s.stack m).idleAt + s.rf (keyMEM m) Reg.MEM_SR_CFG.IDLE_US * sixPerUs)).srEnter m srENTERING)

/-- SR_ENTRY_COMMAND: the owed refreshes are paid and the entry command is issued: the commit point (R360, R361). -/
def execSrEntryCommand (stack : Fin 4) (s : State) : Res :=
  let m : Nat := stack
  let k := keyMEM m
  let s := s.srUpdate m
  if s.srState m ≠ srENTERING then .next s
  else .next ((((s.wf k Reg.MEM_REFRESH.OWED 0).srEnter m srSELF_REFRESH).count k Reg.MEM_SR_ENTRIES).irqBit k 17)

/-- SR_EXIT_DONE: the exit completes, with the new delays written if the band changed; OWED is 0, and waiting requests are
served (R358, R360, R361). -/
def execSrExitDone (stack : Fin 4) (s : State) : Res :=
  let m : Nat := stack
  let k := keyMEM m
  if s.srState m ≠ srEXITING then .next s
  else
    let s := if s.rb k Reg.MEM_TRAIN.PENDING then
        ((s.wf k Reg.MEM_TRAIN.BAND (s.rf k Reg.MEM_STAT.BAND)).wb k Reg.MEM_TRAIN.PENDING false).modStack m fun q => { q with delayCh := 0 }
      else s
    .next (((((s.wf k Reg.MEM_REFRESH.OWED 0).closeRows m).srEnter m srACTIVE).irqBit k 18).srUpdate m)

/-! ### Scrub and sparing (R366-R370). -/

/-- The next mapped line at or after a stack-local line: its own, else the base of the next layer, else the first. -/
def State.scrubLine (s : State) (m line : Nat) : Nat :=
  if (s.layerOf m (64 * line)).isSome then line
  else
    match (List.range 4).find? fun l => decide (64 * line < layerBase l) && (s.layerOf m (layerBase l)).isSome with
    | some l => layerBase l / 64
    | none => match (List.range 4).find? fun l => (s.layerOf m (layerBase l)).isSome with | some l => layerBase l / 64 | none => 0

/-- SCRUB_READ: the patrol scrub reads the next line while the stack is ACTIVE; a corrected line is counted, and an
uncorrectable one is poisoned (R363, R364, R366). -/
def execScrubRead (stack : Fin 4) (ecc : Nat) (s : State) : Res :=
  let m : Nat := stack
  if s.srState m ≠ srACTIVE then .next s
  else
    let line := s.scrubLine m (s.stack m).scrub
    let s := s.modStack m fun q => { q with scrub := line + 1 }
    match s.rankOf m (64 * line) with
    | none => .next s
    | some rank =>
      let u := userAddr m (64 * line)
      let s := if ecc = 1 then s.correctLine m rank else if ecc = 2 then s.uncorrectable m u rank else s
      .next (s.loseLayer m)

/-- SPARE_COPY_DONE: the copy ends: the layer slots change, the failed rank is RETIRED, kept writes are applied, lines that
could not be read arrive poisoned, and the next waiting rank is handled (R365, R368, R369). -/
def execSpareCopyDone (stack : Fin 4) (unread : List Nat) (s : State) : Res :=
  let m : Nat := stack
  let k := keyMEM m
  if s.rf k Reg.MEM_SPARE_STAT.STATE ≠ 1 then .next s
  else
    let failed := s.rf k Reg.MEM_SPARE_STAT.FAILED
    let spare := s.rf k Reg.MEM_SPARE_STAT.SPARE
    let donor := s.rf k Reg.MEM_SPARE_STAT.DONOR
    let shift := decide (s.rf k Reg.MEM_SPARE_STAT.KIND = 1)
    let onRank (u : Nat) : Bool := decide (s.rankOf m (addrLocal u) = some failed)
    let ready := (s.stack m).kept.filter fun r => onRank r.addr
    let s := (unread.filter fun l => decide (addrStack (64 * l) = m) && onRank (64 * l)).foldl (fun s l => s.setPoison l true) s
    let s := ready.foldl (fun s r => match r.bytes with | some bs => s.mergeLine r.addr bs | none => s) s
    let s := s.modStack m fun q => { q with kept := q.kept.filter fun r => !onRank r.addr }
    let s := match s.findRank m donor, shift with
      | some (l, i), true => (s.setSlot m l i spare)
      | _, _ => s
    let s := match s.findRank m failed with
      | some (l, i) => s.setSlot m l i (if shift then donor else spare)
      | none => s
    let s := ((s.setRank m spare rankIN_LAYER).setRank m failed rankRETIRED).wf k Reg.MEM_SPARE_STAT.STATE 0
    let s := s.modPage k fun p => { p with progress := word 49152 }
    let s := (((s.refreshMem m).irqBit k 16).setErr k 20).logPage k 0 0 0 11 (s.reg k 0x130).toNat
    .next ((s.nextRank m).loseLayer m)

/-- LAYER_FILL_DONE: the poison fill ends, the failed rank is RETIRED, and the layer's new extent rejoins the capacity table
(R370). -/
def execLayerFillDone (stack : Fin 4) (s : State) : Res :=
  let m : Nat := stack
  let k := keyMEM m
  if s.rf k Reg.MEM_SPARE_STAT.STATE ≠ 2 then .next s
  else
    let s := (s.setRank m (s.rf k Reg.MEM_SPARE_STAT.FAILED) rankRETIRED).wf k Reg.MEM_SPARE_STAT.STATE 0
    let s := s.modStack m fun q => { q with filling := none }
    let s := (s.refreshMem m).logPage k 0 0 0 11 (s.reg k 0x130).toNat
    .next (((s.nextRank m).loseLayer m).readmit)

end Sys2Proof.Machine
end

