-- ==== Sys2Proof/Machine/Crypto.lean ====
section
/-! DEFINITION. SHA-384, HMAC, HKDF, and ECDSA and ECDH on P-384 (R571, R572, R575, R576). The spec names these functions by their
standards; they follow FIPS 180-4, RFC 2104, RFC 5869 and FIPS 186 (PRESUMED, log entry 61). -/

namespace Sys2Proof.Machine

/-! ### SHA-384. -/

/-- The round constants. -/
def shaK0 : List Nat :=
  [0x428A2F98D728AE22, 0x7137449123EF65CD, 0xB5C0FBCFEC4D3B2F, 0xE9B5DBA58189DBBC,
   0x3956C25BF348B538, 0x59F111F1B605D019, 0x923F82A4AF194F9B, 0xAB1C5ED5DA6D8118,
   0xD807AA98A3030242, 0x12835B0145706FBE, 0x243185BE4EE4B28C, 0x550C7DC3D5FFB4E2,
   0x72BE5D74F27B896F, 0x80DEB1FE3B1696B1, 0x9BDC06A725C71235, 0xC19BF174CF692694,
   0xE49B69C19EF14AD2, 0xEFBE4786384F25E3, 0x0FC19DC68B8CD5B5, 0x240CA1CC77AC9C65,
   0x2DE92C6F592B0275, 0x4A7484AA6EA6E483, 0x5CB0A9DCBD41FBD4, 0x76F988DA831153B5,
   0x983E5152EE66DFAB, 0xA831C66D2DB43210, 0xB00327C898FB213F, 0xBF597FC7BEEF0EE4,
   0xC6E00BF33DA88FC2, 0xD5A79147930AA725, 0x06CA6351E003826F, 0x142929670A0E6E70,
   0x27B70A8546D22FFC, 0x2E1B21385C26C926, 0x4D2C6DFC5AC42AED, 0x53380D139D95B3DF,
   0x650A73548BAF63DE, 0x766A0ABB3C77B2A8, 0x81C2C92E47EDAEE6, 0x92722C851482353B]
def shaK1 : List Nat :=
  [0xA2BFE8A14CF10364, 0xA81A664BBC423001, 0xC24B8B70D0F89791, 0xC76C51A30654BE30,
   0xD192E819D6EF5218, 0xD69906245565A910, 0xF40E35855771202A, 0x106AA07032BBD1B8,
   0x19A4C116B8D2D0C8, 0x1E376C085141AB53, 0x2748774CDF8EEB99, 0x34B0BCB5E19B48A8,
   0x391C0CB3C5C95A63, 0x4ED8AA4AE3418ACB, 0x5B9CCA4F7763E373, 0x682E6FF3D6B2B8A3,
   0x748F82EE5DEFB2FC, 0x78A5636F43172F60, 0x84C87814A1F0AB72, 0x8CC702081A6439EC,
   0x90BEFFFA23631E28, 0xA4506CEBDE82BDE9, 0xBEF9A3F7B2C67915, 0xC67178F2E372532B,
   0xCA273ECEEA26619C, 0xD186B8C721C0C207, 0xEADA7DD6CDE0EB1E, 0xF57D4F7FEE6ED178,
   0x06F067AA72176FBA, 0x0A637DC5A2C898A6, 0x113F9804BEF90DAE, 0x1B710B35131C471B,
   0x28DB77F523047D84, 0x32CAAB7B40C72493, 0x3C9EBE0A15C9BEBC, 0x431D67C49C100D4C,
   0x4CC5D4BECB3E42B6, 0x597F299CFC657E2A, 0x5FCB6FAB3AD6FAEC, 0x6C44198C4A475817]
def shaK : List Nat := shaK0 ++ shaK1

/-- The initial hash value of SHA-384. -/
def shaInit : List Nat :=
  [0xCBBB9D5DC1059ED8, 0x629A292A367CD507, 0x9159015A3070DD17, 0x152FECD8F70E5939,
   0x67332667FFC00B31, 0x8EB44A8768581511, 0xDB0C2E0D64F98FA7, 0x47B5481DBEFA4FA4]

/-- Rotation right of 64 bits. -/
def rotr64 (x n : Nat) : Nat := x / 2 ^ n + x % 2 ^ n * 2 ^ (64 - n)

/-- Exclusive or of three words. -/
def xor3 (a b c : Nat) : Nat := Nat.xor (Nat.xor a b) c

/-- The message schedule of a block of sixteen words, newest word first. -/
def shaExpand : Nat → List Nat → List Nat
  | 0, w => w
  | n + 1, w =>
    let x1 := w.getD 14 0
    let x0 := w.getD 1 0
    let s0 := xor3 (rotr64 x1 1) (rotr64 x1 8) (x1 / 2 ^ 7)
    let s1 := xor3 (rotr64 x0 19) (rotr64 x0 61) (x0 / 2 ^ 6)
    shaExpand n ((w.getD 15 0 + s0 + w.getD 6 0 + s1) % 2 ^ 64 :: w)

/-- One round on the eight working words. -/
def shaRound (h : List Nat) (kw : Nat) : List Nat :=
  match h with
  | [a, b, c, d, e, f, g, x] =>
    let s1 := xor3 (rotr64 e 14) (rotr64 e 18) (rotr64 e 41)
    let ch := Nat.xor (Nat.land e f) (Nat.land (2 ^ 64 - 1 - e) g)
    let t1 := x + s1 + ch + kw
    let s0 := xor3 (rotr64 a 28) (rotr64 a 34) (rotr64 a 39)
    let maj := xor3 (Nat.land a b) (Nat.land a c) (Nat.land b c)
    [(t1 + s0 + maj) % 2 ^ 64, a, b, c, (d + t1) % 2 ^ 64, e, f, g]
  | _ => h

/-- The hash value after a block of 128 bytes. -/
def shaBlock (h : List Nat) (block : List Nat) : List Nat :=
  let w := (List.range 16).map fun i => beNat ((block.drop (8 * i)).take 8)
  let ws := (shaExpand 64 w.reverse).reverse
  let r := (List.zipWith (fun k w => k + w) shaK ws).foldl shaRound h
  List.zipWith (fun a b => (a + b) % 2 ^ 64) h r

/-- Cut bytes into a number of blocks. -/
def cutBlocks (size : Nat) (bs : List Nat) : Nat → List (List Nat)
  | 0 => []
  | n + 1 => bs.take size :: cutBlocks size (bs.drop size) n

/-- SHA-384 of bytes given as numbers. -/
def sha384n (bs : List Nat) : List Nat :=
  let z := (239 - bs.length % 128) % 128
  let m := bs ++ [0x80] ++ List.replicate z 0 ++ beBytes (8 * bs.length) 16
  (((cutBlocks 128 m (m.length / 128)).foldl shaBlock shaInit).take 6).flatMap fun w => beBytes w 8

/-- SHA-384 of bytes. -/
def sha384 (bs : List Byte) : List Byte := toBytes (sha384n (toNats bs))

/-! ### HMAC and HKDF. -/

/-- HMAC-SHA-384. -/
def hmac384 (key msg : List Nat) : List Nat :=
  let k := if 128 < key.length then sha384n key else key
  let k := (k ++ List.replicate 128 0).take 128
  sha384n (k.map (Nat.xor 0x5C) ++ sha384n (k.map (Nat.xor 0x36) ++ msg))

/-- HKDF-SHA-384 for at most 48 bytes. -/
def hkdf384 (salt ikm info : List Nat) (n : Nat) : List Nat := (hmac384 (hmac384 salt ikm) (info ++ [1])).take n

/-! ### P-384. -/

def ecP : Nat := 2 ^ 384 - 2 ^ 128 - 2 ^ 96 + 2 ^ 32 - 1
def ecB : Nat := 0xB3312FA7E23EE7E4988E056BE3F82D19181D9C6EFE8141120314088F5013875AC656398D8A2ED19D2A85C8EDD3EC2AEF
def ecN : Nat := 0xFFFFFFFFFFFFFFFFFFFFFFFFFFFFFFFFFFFFFFFFFFFFFFFFC7634D81F4372DDF581A0DB248B0A77AECEC196ACCC52973
def ecG : Nat × Nat :=
  (0xAA87CA22BE8B05378EB1C71EF320AD746E1D3B628BA79B9859F741E082542A385502F25DBF55296C3A545E3872760AB7,
   0x3617DE4A96262C6F5D9E98BF9292DC29F8F41DBD289A147CE9DA3113B5F0B8C00A60B1CE1D7E819D7A431D7C90EA0E5F)

/-- Power modulo m of an exponent below 2^384. -/
def powMod (m a e : Nat) : Nat :=
  (List.range 384).foldl (fun r i => if nbit e (383 - i) then r * r % m * a % m else r * r % m) 1

/-- Inverse modulo a prime. -/
def invMod (m a : Nat) : Nat := powMod m (a % m) (m - 2)

/-- Difference modulo p. -/
def ecSub (a b : Nat) : Nat := (a + ecP - b % ecP) % ecP

/-- Sum of two points; none is the point at infinity. -/
def ecAdd (a b : Option (Nat × Nat)) : Option (Nat × Nat) :=
  match a, b with
  | none, q => q
  | p, none => p
  | some (x1, y1), some (x2, y2) =>
    if x1 = x2 ∧ (y1 + y2) % ecP = 0 then none
    else
      let l := if x1 = x2 then ecSub (3 * x1 * x1) 3 * invMod ecP (2 * y1) % ecP else ecSub y2 y1 * invMod ecP (ecSub x2 x1) % ecP
      let x := ecSub (ecSub (l * l) x1) x2
      some (x, ecSub (l * ecSub x1 x) y1)

/-- A point (X / Z^2, Y / Z^3), of the curve for Z not 0 and infinity for Z = 0: a multiple of a point is formed so, with one inverse. -/
abbrev EcJac := Nat × Nat × Nat

/-- Twice a point (a = -3). -/
def ecDouble : EcJac → EcJac
  | (x, y, z) =>
    if z = 0 ∨ y = 0 then (1, 1, 0)
    else
      let d := z * z % ecP
      let g := y * y % ecP
      let b := x * g % ecP
      let a := 3 * (ecSub x d * (x + d)) % ecP
      let x3 := ecSub (a * a) (8 * b)
      (x3, ecSub (a * ecSub (4 * b) x3) (8 * (g * g)), 2 * y * z % ecP)

/-- The sum of a point and an affine point. -/
def ecMixed : EcJac → Nat × Nat → EcJac
  | (x1, y1, z1), (x2, y2) =>
    if z1 = 0 then (x2, y2, 1)
    else
      let zz := z1 * z1 % ecP
      let h := ecSub (x2 * zz) x1
      let r := ecSub (y2 * (zz * z1 % ecP)) y1
      if h = 0 then (if r = 0 then ecDouble (x1, y1, z1) else (1, 1, 0))
      else
        let hh := h * h % ecP
        let hhh := hh * h % ecP
        let v := x1 * hh % ecP
        let x3 := ecSub (r * r) (hhh + 2 * v)
        (x3, ecSub (r * ecSub v x3) (y1 * hhh), z1 * h % ecP)

/-- The affine point. -/
def ecAffine : EcJac → Option (Nat × Nat)
  | (x, y, z) =>
    if z = 0 then none
    else
      let i := invMod ecP z
      let ii := i * i % ecP
      some (x * ii % ecP, y * (ii * i % ecP) % ecP)

/-- A multiple of a point. -/
def ecMul (k : Nat) (p : Option (Nat × Nat)) : Option (Nat × Nat) :=
  match p with
  | none => none
  | some q => ecAffine ((List.range 384).foldl (fun r i => let d := ecDouble r; if nbit k (383 - i) then ecMixed d q else d) (1, 1, 0))

/-- A point of the curve. -/
def ecOn (p : Nat × Nat) : Bool := decide (p.1 < ecP ∧ p.2 < ecP ∧ p.2 * p.2 % ecP = (p.1 * p.1 * p.1 + (ecP - 3) * p.1 + ecB) % ecP)

/-- Points as fixed-length big-endian strings (R571). -/
def ecBytes (p : Option (Nat × Nat)) : List Byte :=
  match p with | some (x, y) => toBytes (beBytes x 48 ++ beBytes y 48) | none => List.replicate 96 0
def ecPoint (bs : List Byte) : Nat × Nat := (beNat (toNats (bs.take 48)), beNat (toNats ((bs.drop 48).take 48)))

/-- Public key of a private key. -/
def ecPublic (d : Nat) : Option (Nat × Nat) := ecMul d (some ecG)

/-- ECDSA signature of a message with SHA-384, with the random number k. -/
def ecSign (d k : Nat) (msg : List Byte) : List Byte :=
  let h := beNat (sha384n (toNats msg))
  let r := (match ecPublic k with | some p => p.1 | none => 0) % ecN
  let s := invMod ecN k * (h + r * d) % ecN
  toBytes (beBytes r 48 ++ beBytes s 48)

/-- ECDSA verification with SHA-384. -/
def ecVerify (key sig msg : List Byte) : Bool :=
  let q := ecPoint key
  let r := beNat (toNats (sig.take 48))
  let s := beNat (toNats ((sig.drop 48).take 48))
  if !ecOn q ∨ r = 0 ∨ ecN ≤ r ∨ s = 0 ∨ ecN ≤ s then false
  else
    let h := beNat (sha384n (toNats msg))
    let w := invMod ecN s
    match ecAdd (ecMul (h * w % ecN) (some ecG)) (ecMul (r * w % ecN) (some q)) with
    | some p => decide (p.1 % ecN = r)
    | none => false

/-- x-coordinate of the ECDH shared point, as 48 bytes. -/
def ecShared (d : Nat) (q : Nat × Nat) : List Nat := beBytes (match ecMul d (some q) with | some p => p.1 | none => 0) 48

end Sys2Proof.Machine
end

