-- ==== Sys2Proof/Machine/Link.lean ====
section
/-! DEFINITION. Brixine link: flits received and sent, replay, lane repair, thresholds, bring-up and the commands of the
BXE page (R371-R396). -/

namespace Sys2Proof.Machine

/-- The link has SMP in one direction (R385, R395). -/
def State.linkSamples (s : State) (key : Nat) : Bool := decide (linkOf key ≠ 4) || !s.guest

/-- Flits of a replay buffer, and of the advertised P, NP and CPL buffers (R384). -/
def replayCap (key : Nat) : Nat := if linkWide key then 512 else 256
def bufferCap (key : Nat) : List Nat := if linkWide key then [240, 64, 240] else [64, 32, 64]

/-- Flits are exchanged in LINK_INIT, ALIGN and ACTIVE (R392). -/
def State.linkRuns (s : State) (key : Nat) : Bool :=
  decide (s.linkState key = linkLINK_INIT ∨ s.linkState key = linkALIGN ∨ s.linkState key = linkACTIVE)

/-! ### Return values and replay (R381-R383). -/

/-- Resend the flits from a sequence number on; REPLAY_LIMIT replays in a row from one number are a retrain (R382, R390). -/
def State.replay (s : State) (key seq : Nat) : State :=
  let l := s.link key
  let row := if l.replayFrom = seq then l.replayRow + 1 else 1
  let s := s.modLink key fun l =>
    { l with resend := l.unacked.filter fun f => decide (seq ≤ f.1), replayFrom := seq, replayRow := row, ackAt := s.six }
  let s := s.count key Reg.BXE_REPLAYS
  if s.rf key Reg.BXE_THRESH1.REPLAY_LIMIT ≤ row then s.retrain key else s

/-- An acknowledgement of 8 × RV, or a NAK from it (R381, R382). -/
def State.acked (s : State) (key rv : Nat) (nak : Bool) : State :=
  let l := s.link key
  let oldest := match l.unacked with | f :: _ => f.1 | [] => l.tseq
  let upTo := 8 * (oldest / 8 + (rv + 256 - oldest / 8 % 256) % 256)
  if l.tseq < upTo then s
  else
    let s :=
      if oldest < upTo then
        s.modLink key fun l => { l with unacked := l.unacked.filter fun f => decide (upTo ≤ f.1),
                                        resend := l.resend.filter fun f => decide (upTo ≤ f.1), ackAt := s.six }
      else s
    if nak then s.replay key upTo else s

/-- The return value of an accepted flit (R383). -/
def State.takeReturn (s : State) (key : Nat) (b : List Byte) : State :=
  let rk := byteAt b 0 / 64
  let rv := byteAt b 1
  if rk = 0 then s.acked key rv (nbit (byteAt b 0) 5)
  else
    (s.modLink key fun l =>
      { l with returned := setNth l.returned (rk - 1) (nth 0 l.returned (rk - 1) + (rv + 256 - nth 0 l.returned (rk - 1) % 256) % 256) }).refreshLink
      key

/-! ### Flits accepted (R378, R380, R386). -/

/-- The SMP flit with number `n` is lost: its frames are (R386, R28). -/
def State.smpGone (s : State) (key n : Nat) : State :=
  let conv := match linkConv key with | some c => c | none => 4
  let first := ((s.link key).smpFrame + 5 * (n / 4 : Nat) + (n % 4 : Nat)).toNat
  ((s.count key Reg.BXE_SMP_LOST).setErr key 20).modConv conv fun v =>
    { v with frames := v.frames.filter fun f => decide (f.1 ≠ first) && decide (f.1 ≠ first + 1) }

/-- An SMP flit is accepted: those skipped before it are lost. The hub sends C4's groups on toward the region of its input
(R22, R386). -/
def State.acceptSmp (s : State) (key n : Nat) (b : List Byte) : State :=
  let l := s.link key
  let s := s.each ((List.range (n - l.smpRx)).map (l.smpRx + ·)) fun s i => s.smpGone key i
  let s := s.modLink key fun l => { l with smpRx := n + 1, smpLost := 0 }
  if key = keyOf 0 0x3F0 ∧ s.spareState ≠ spareIDLE then
    s.modLink (keyOf 0 (0x3F1 + s.rot.input / 2)) fun l =>
      { l with smp := l.smp ++ [{ vc := 0, sop := nbit (byteAt b 0) 3, eop := nbit (byteAt b 0) 4, body := (b.drop 2).take 60 }] }
  else s

/-- A sequenced flit is accepted in order: a packet grows, or a LNK body is kept (R376, R380, R381). -/
def State.acceptSeq (s : State) (key : Nat) (b : List Byte) : State :=
  let vc := flitVc b
  let body := (b.drop 2).take 60
  let s := s.modLink key fun l => { l with accepted := l.accepted + 1, nakUntil := none }
  if vc = 7 then
    if byteAt b 2 = 2 ∨ byteAt b 2 = 3 then s.modLink key fun l => { l with lnkIn := l.lnkIn ++ [body] } else s
  else
    s.modLink key fun l =>
      let open0 := if nbit (byteAt b 0) 3 then none else l.rx.find? fun p => decide (p.1 = vc)
      let p : Nat × Nat × List Byte := match open0 with | some (_, n, bs) => (vc, n + 1, bs ++ body) | none => (vc, 1, body)
      let rest := l.rx.filter fun p => decide (p.1 ≠ vc)
      if nbit (byteAt b 0) 4 then { l with rx := rest, inbox := l.inbox ++ [p] } else { l with rx := rest ++ [p] }

/-- A flit is accepted with a space and a number (R378). -/
def State.acceptFlit (s : State) (key : Nat) (sample : Bool) (n : Nat) (b : List Byte) : State :=
  let s := (s.modLink key fun l => { l with flitAt := s.six }).takeReturn key b
  if sample then s.acceptSmp key n b
  else if flitVc b = 7 ∧ byteAt b 2 = 0 then s
  else s.acceptSeq key b

/-! ### Lane repair (R387-R389). -/

/-- Redundant lane of a lane's group mirrors a data lane, and which one (R396). -/
def State.rmapRx (s : State) (key lane : Nat) : Nat :=
  wget (s.reg key (0x114 + 4 * (lane / 64))) (8 * (lane % 64 / 16) + 7) (8 * (lane % 64 / 16))

/-- Slots a repair looks ahead, and slots before the switch at which the answer is due (R387). -/
def repairAhead (key : Nat) : Nat := if linkWide key then 16384 else 4096
def repairDue (key : Nat) : Nat := if linkWide key then 4096 else 1024

/-- Send REPAIR_REQ with a new switch slot (R387, R388). -/
def State.requestRepair (s : State) (key lane : Nat) (byOp hard : Bool) : State :=
  let l := s.link key
  let w := l.rxSlot + repairAhead key
  let s := s.modLink key fun l =>
    { l with repair := some { lane := lane, token := l.token % 65536, slot := w, acked := false, byOp := byOp, hard := hard },
             token := l.token + 1, repairNext := l.repairNext.filter (· ≠ lane) }
  (s.wb key Reg.BXE_STAT.REPAIR_PENDING true).emit (.sideband key 1 lane (l.token % 65536) w)

/-- The receiver wants a lane repaired: one request at a time, a hard condition ahead of a threshold (R387, R389). -/
def State.wantRepair (s : State) (key lane : Nat) (hard : Bool) : State :=
  let l := s.link key
  if s.linkState key ≠ linkACTIVE ∨ s.rmapRx key lane % 64 + 128 * (s.rmapRx key lane / 128) = 128 + lane % 64 then s
  else if 128 ≤ s.rmapRx key lane then s.setErr key 18
  else
    match l.repair with
    | none => s.requestRepair key lane false hard
    | some r =>
      if r.lane = lane then s
      else if hard && !r.hard && !r.byOp then
        let s := s.emit (.sideband key 4 r.lane r.token r.slot)
        (s.modLink key fun l => { l with repairNext := l.repairNext ++ [r.lane] }).requestRepair key lane false true
      else s.modLink key fun l => { l with repairNext := if l.repairNext.contains lane then l.repairNext else l.repairNext ++ [lane] }

/-- The lane requested next: the lowest that waits (R387). -/
def State.nextRepair (s : State) (key : Nat) : State :=
  match (s.link key).repairNext with
  | [] => s
  | x :: xs => s.wantRepair key (xs.foldl min x) false

/-- The pending request ends. -/
def State.repairEnds (s : State) (key : Nat) : State :=
  (s.modLink key fun l => { l with repair := none }).wb key Reg.BXE_STAT.REPAIR_PENDING false

/-- Record a mirrored lane in a map register; `off` is 0x114 for RX and 0x11C for TX (R387, R396). -/
def State.mirrorLane (s : State) (key off lane : Nat) : State := s.setRmap key off (lane / 64) (lane % 64 / 16) (128 + lane % 64)

/-- REPAIR_MESSAGE: a sideband repair message reaches an end: a request is granted or refused, an answer noted, a grant
cancelled (R388). -/
def execRepairMessage (port : Fin 14) (op lane token : Nat) (slotW : BitVec 32) (s : State) : Res :=
  let key := endKey port
  let l := s.link key
  let lane := lane % 128
  let tx := wget (s.reg key (0x11C + 4 * (lane / 64))) (8 * (lane % 64 / 16) + 7) (8 * (lane % 64 / 16) + 7)
  if op = 1 then
    if s.linkState key ≠ linkACTIVE ∨ tx = 1 then .next (s.emit (.sideband key 3 lane (token % 65536) slotW.toNat))
    else
      .next ((s.modLink key fun l =>
        { l with granted := some { lane := lane, token := token % 65536, slot := slotW.toNat, acked := true, byOp := false, hard := false } }).emit
          (.sideband key 2 lane (token % 65536) slotW.toNat))
  else if op = 4 then
    .next (match l.granted with
      | some g => if g.token = token % 65536 then s.modLink key fun l => { l with granted := none } else s
      | none => s)
  else
    match l.repair with
    | some r =>
      if r.token ≠ token % 65536 then .next s
      else if op = 2 then .next (s.modLink key fun l => { l with repair := some { r with acked := true } })
      else if op = 3 then
        let s := s.repairEnds key
        .next ((if r.byOp then s.failOp key codeNOSPACE 0x01 else s.setErr key 18).nextRepair key)
      else .next s
    | none => .next s

/-- REPAIR_ACK_DEADLINE: without an answer by 0.512 µs before W, the request is cancelled and made again with a new W
(R387). -/
def execRepairAckDeadline (port : Fin 14) (s : State) : Res :=
  let key := endKey port
  match (s.link key).repair with
  | some r =>
    if r.acked then .next s
    else
      let s := s.modLink key fun l => { l with rxSlot := max l.rxSlot (r.slot - repairDue key) }
      .next ((s.emit (.sideband key 4 r.lane r.token r.slot)).requestRepair key r.lane r.byOp r.hard)
  | none => .next s

/-- REPAIR_SWITCH: slot W is reached at an end. A transmitter that has granted it drives the redundant lane with the data
lane's bits, and a receiver takes them from it; a request without an answer is retried (R387, R389). -/
def execRepairSwitch (port : Fin 14) (s : State) : Res :=
  let key := endKey port
  let s :=
    match (s.link key).granted with
    | some g => (s.mirrorLane key 0x11C g.lane).modLink key fun l => { l with granted := none, txSlot := max l.txSlot g.slot }
    | none => s
  match (s.link key).repair with
  | some r =>
    let s := s.modLink key fun l => { l with rxSlot := max l.rxSlot r.slot }
    if !r.acked then .next ((s.emit (.sideband key 4 r.lane r.token r.slot)).requestRepair key r.lane r.byOp r.hard)
    else
      let s := ((s.repairEnds key).mirrorLane key 0x114 r.lane).count key Reg.BXE_REPAIRS
      let s := (s.setErr key 16).irqBit key 16
      let s := s.logPage key 0 0 0 10 (s.reg key (0x114 + 4 * (r.lane / 64))).toNat
      let s := s.modLink key fun l => { l with hard := l.hard.filter fun x => decide (x.1 ≠ r.lane) }
      .next ((if r.byOp then s.doneOp key else s).nextRepair key)
  | none => .next s

/-! ### Flits with errors (R378, R379, R387-R390). -/

/-- A correction on a lane (R379, R387). -/
def State.laneError (s : State) (key lane : Nat) : State :=
  let s := (s.count key Reg.BXE_CORR).count key (Reg.BXE_LANE_CE.COUNT lane)
  let run := mget (fun _ => 0) (s.link key).hard lane + 1
  let s := s.modLink key fun l =>
    { l with hard := mput (l.hard.filter fun x => decide (x.1 / 64 ≠ lane / 64)) lane run }
  if s.rf key Reg.BXE_THRESH0.LANE_HARD ≤ run then s.wantRepair key lane true
  else if s.rf key Reg.BXE_THRESH0.LANE_CE ≤ s.rf key (Reg.BXE_LANE_CE.COUNT lane) then s.wantRepair key lane false
  else s

/-- A parity mismatch on a flit that passes is charged to the redundant lane (R378, R389). -/
def State.parityError (s : State) (key module group : Nat) : State :=
  let i := 4 * module + group
  let n := mget (fun _ => 0) (s.link key).mismatch i + 1
  let s := s.modLink key fun l => { l with mismatch := mput l.mismatch i n }
  if s.rf key Reg.BXE_THRESH0.LANE_CE ≤ n ∧ s.hasParity key module group then
    (s.setReg key (0x114 + 4 * module) (wset (s.reg key (0x114 + 4 * module)) (8 * group + 6) (8 * group + 6) 1)).setErr key 17
  else s

/-- The time within which no further NAK goes: 4 replay round trips of 40 ns, in SCLK periods (R381, R394). -/
def nakHold : Nat := 6554

/-- A flit that nothing accepts. During a hold, duplicates of accepted flits are discarded silently (R378, R381, R386,
R390). -/
def State.badFlit (s : State) (key : Nat) (b : List Byte) : State :=
  let l := s.link key
  let hold := match l.nakUntil with | some t => decide (s.six < t) | none => false
  let old := min l.accepted (replayCap key)
  if hold && (List.range old).any fun i => flitPasses b (l.accepted - 1 - i) false then s
  else
    let s := s.count key Reg.BXE_BAD
    let s := s.modLink key fun l => { l with bad := l.bad + 1 }
    let s := if hold then s else s.modLink key fun l => { l with nakDue := true, nakUntil := some (s.six + nakHold) }
    let s :=
      if s.rb key Reg.BXE_STAT.SMP_RX && decide (flitVc b = 0) then
        let s := s.modLink key fun l => { l with smpLost := l.smpLost + 1 }
        if 4 ≤ (s.link key).smpLost then
          ((s.each ((List.range 4).map ((s.link key).smpRx + ·)) fun s i => s.smpGone key i).modLink key fun l =>
            { l with smpRx := l.smpRx + 4, smpLost := 0 }).retrain key
        else s
      else s
    if s.rf key Reg.BXE_THRESH1.BAD_PER_MS ≤ (s.link key).bad then s.retrain key else s

/-- FLIT_RECEIVE: the flit of one slot, 64 bytes as its data lanes carry them, with the UIs in which the parity of a group
of its module differs (R373-R379, R381). -/
def execFlitReceive (port : Fin 14) (bytes : List Byte) (parity : List (Fin 4 × BitVec 8)) (s : State) : Res :=
  let key := endKey port
  if !s.linkRuns key then .next s
  else
    let b := (bytes ++ List.replicate 64 0).take 64
    let module := if linkWide key then (s.link key).rxSlot % 2 else 0
    let s := s.modLink key fun l => { l with rxSlot := l.rxSlot + 1 }
    let flags := parity.filter fun p => decide (p.2 ≠ 0) && s.hasParity key module p.1
    let hit := match s.flitHits key b with | [x] => if vcAgrees x.1 (flitVc b) then some x else none | _ => none
    match hit with
    | some (sample, n) =>
      let s := s.modLink key fun l => { l with hard := l.hard.filter fun x => decide (x.1 / 64 ≠ module) }
      .next ((s.each flags fun s p => s.parityError key module p.1).acceptFlit key sample n b)
    | none =>
      match flags with
      | [(g, uis)] =>
        match s.corrections key b g uis.toNat with
        | [(lane, sample, n, c)] => .next ((s.laneError key (64 * module + lane)).acceptFlit key sample n c)
        | _ => .next (s.badFlit key b)
      | _ => .next (s.badFlit key b)

/-! ### Flits sent (R375-R377, R380-R385, R406, R407). -/

/-- The packet at a place may not pass an earlier one: of its domain under R406, or a packet of its VC in progress (R376). -/
def blockedBy (p q : TxPacket) : Bool :=
  (decide (q.source = p.source ∧ q.dst = p.dst) && (decide (q.vc = 1) || (decide (p.vc = 3 ∧ q.vc = 3 ∧ q.tag = p.tag)))) ||
    (q.started && decide (q.vc = p.vc))

/-- The place of the packet whose flit goes next: the oldest that holds a credit, passes nothing it may not, and, as an NP
that has not started, finds a free tag (R403, R407). -/
def State.pickPacket (s : State) (key : Nat) : Option Nat :=
  let l := s.link key
  let ok (i : Nat) (p : TxPacket) :=
    decide (nth 0 l.used (p.vc - 1) < nth 0 l.advert (p.vc - 1) + nth 0 l.returned (p.vc - 1)) &&
      (p.started || (!((l.tx.take i).any (blockedBy p)) && !((l.tx.drop (i + 1)).any fun q => q.started && decide (q.vc = p.vc)) &&
        (p.np.isNone || decide (l.tags.length < s.rf key Reg.BXE_TAGS.LIMIT))))
  (List.range l.tx.length).find? fun i => match l.tx[i]? with | some p => ok i p | none => false

/-- The lowest tag not in flight (R403). -/
def freeTag (tags : List TagEntry) : Nat :=
  ((List.range (tags.length + 1)).find? fun t => !(tags.any fun e => decide (e.tag = t))).getD 0

/-- Send one flit of a body in a space with a sequence number: its header takes the return value due (R376, R377, R383). -/
def State.sendFlit (s : State) (key n : Nat) (sample : Bool) (f : Flit) : State :=
  let l := s.link key
  let nak := l.nakDue
  let rk := if nak then 0 else l.rk
  let rv := if rk = 0 then l.accepted / 8 % 256 else nth 0 l.freed (rk - 1) % 256
  let lh := f.vc % 8 + boolNat f.sop * 8 + boolNat f.eop * 16 + boolNat nak * 32 + rk * 64 + rv * 256
  let b := leBytes lh 2 ++ (f.body ++ List.replicate 60 0).take 60
  let s := if nak then s.count key Reg.BXE_NAKS else s
  let s := s.modLink key fun l =>
    { l with nakDue := false, rk := if nak then l.rk else (l.rk + 1) % 4, txSlot := l.txSlot + 1 }
  let s := s.emit (.flit key l.txSlot (b ++ leBytes (crc16 (flitSeed n sample) b) 2))
  s.setReg key Reg.BXE_SLOT.off (word (s.link key).txSlot)

/-- Send a new sequenced flit and keep it for replay (R381, R382). -/
def State.sendNew (s : State) (key : Nat) (f : Flit) : State :=
  let l := s.link key
  let s := s.modLink key fun l =>
    { l with tseq := l.tseq + 1, unacked := l.unacked ++ [(l.tseq, f)], ackAt := if l.unacked.isEmpty then s.six else l.ackAt }
  s.sendFlit key l.tseq false f

/-- A LNK flit of a body. -/
def lnkFlit (body : List Byte) : Flit := { vc := 7, sop := true, eop := true, body := body }

/-- The PARAM body of an end (R384, R393, R403). -/
def State.paramBody (s : State) (key : Nat) : List Byte :=
  let c := bufferCap key
  leBytes 2 2 ++ leBytes (boolNat (linkWide key)) 1 ++ leBytes (keyRegion key) 1 ++ leBytes 1 2 ++ leBytes (nth 0 c 0) 2 ++
    leBytes (nth 0 c 1) 2 ++ leBytes (nth 0 c 2) 2 ++ leBytes (if linkWide key then 4096 else 1024) 2 ++ leBytes (replayCap key) 2 ++
    leBytes (s.rf key Reg.BXE_STAT.SMP_TX + 2 * s.rf key Reg.BXE_STAT.SMP_RX) 1 ++ leBytes 0 1 ++
    leBytes (if keyRegion key = 0 then 0x0001 else 0x0020) 2

/-- Send the next flit of a packet: an NP takes its tag first, and the flit takes a credit (R384, R403). -/
def State.sendPacket (s : State) (key i : Nat) : State :=
  match (s.link key).tx[i]? with
  | none => s
  | some p =>
    let l := s.link key
    let tag := if p.started then p.tag else match p.np with | some _ => freeTag l.tags | none => p.tag
    let bytes := if p.started ∨ p.np.isNone then p.bytes else p.bytes.take 2 ++ leBytes tag 2 ++ p.bytes.drop 4
    let rest := bytes.drop 60
    let f : Flit := { vc := p.vc, sop := !p.started, eop := rest.isEmpty, body := bytes.take 60 }
    let tags := match p.np with
      | some e => if p.started then l.tags else l.tags ++ [{ e with tag := tag, sentAt := s.six, quarantined := false }]
      | none => l.tags
    let s := s.modLink key fun l =>
      { l with tags := tags, used := setNth l.used (p.vc - 1) (nth 0 l.used (p.vc - 1) + 1),
               tx := if rest.isEmpty then l.tx.eraseIdx i else l.tx.set i { p with tag := tag, started := true, bytes := rest } }
    (s.refreshLink key).sendNew key f

/-- FLIT_TRANSMIT: one flit slot of a transmitter: SMP, a replay, LNK, packets, FILL, NOP (R382, R384, R393, R407). -/
def execFlitTransmit (port : Fin 14) (s : State) : Res :=
  let key := endKey port
  let l := s.link key
  if !s.linkRuns key then .next s
  else
    match (if s.linkState key = linkACTIVE ∧ s.rb key Reg.BXE_STAT.SMP_TX then l.smp else []), l.resend with
    | f :: rest, _ => .next ((s.modLink key fun l => { l with smp := rest, smpTx := l.smpTx + 1 }).sendFlit key l.smpTx true f)
    | [], (n, f) :: rest => .next ((s.modLink key fun l => { l with resend := rest }).sendFlit key n false f)
    | [], [] =>
      let nop := s.sendFlit key l.tseq false (lnkFlit (leBytes 0 2))
      if replayCap key ≤ l.unacked.length then .next nop
      else if (s.linkState key = linkLINK_INIT ∧ !l.paramOk) ∨ 0 < l.paramLeft then
        let s := s.modLink key fun l =>
          { l with paramLeft := if l.paramOk then l.paramLeft - 1 else l.paramLeft,
                   paramSeq := match l.paramSeq with | some n => some n | none => some l.tseq }
        .next (s.sendNew key (lnkFlit (s.paramBody key)))
      else
        match l.lnk with
        | body :: rest => .next ((s.modLink key fun l => { l with lnk := rest }).sendNew key (lnkFlit body))
        | [] =>
          match (if s.linkState key = linkACTIVE then s.pickPacket key else none) with
          | some i => .next (s.sendPacket key i)
          | none =>
            if l.unacked.isEmpty ∨ l.tseq % 8 = 0 then .next nop else .next (s.sendNew key (lnkFlit (leBytes 1 2)))

/-- REPLAY_TIMEOUT: unacknowledged flits, and no ACK has advanced for 400 ns or 200 ns (R382). -/
def execReplayTimeout (port : Fin 14) (s : State) : Res :=
  let key := endKey port
  if !s.linkRuns key then .next s
  else
    match (s.link key).unacked with
    | [] => .next s
    | f :: _ => .next ((s.advanceTo ((s.link key).ackAt + if linkWide key then 8192 else 16384)).replay key f.1)

/-! ### Windows and timeouts (R390). -/

/-- ERROR_WINDOW: a window of 1 ms, or with `second` of 1 s, ends: what it holds is compared with the thresholds, and its
counts start again (R387, R390). -/
def execErrorWindow (port : Fin 14) (second : Bool) (s : State) : Res :=
  let key := endKey port
  if second then
    let s := s.advanceTo (ceilTo 40960000000 s.six)
    let lanes := (List.range (if linkWide key then 128 else 64)).filter fun n =>
      decide (s.rf key Reg.BXE_THRESH0.LANE_CE ≤ s.rf key (Reg.BXE_LANE_CE.COUNT n))
    let s := s.each lanes fun s n => s.wantRepair key n false
    let s := s.each (List.range 128) fun s n => s.wf key (Reg.BXE_LANE_CE.COUNT n) 0
    .next (s.modLink key fun l => { l with retrains := 0, mismatch := [] })
  else
    let s := s.advanceTo (ceilTo 40960000 s.six)
    let s := if s.rf key Reg.BXE_THRESH1.BAD_PER_MS ≤ (s.link key).bad then s.retrain key else s
    .next (s.modLink key fun l => { l with bad := 0 })

/-- NO_FLIT_TIMEOUT: no flit accepted for 2 µs (R390). -/
def execNoFlitTimeout (port : Fin 14) (s : State) : Res :=
  let key := endKey port
  if s.linkState key = linkACTIVE then .next ((s.advanceTo ((s.link key).flitAt + 81920)).retrain key) else .next s

/-! ### Bring-up (R392, R393). -/

/-- The end enters ACTIVE; a RETRAIN operation is DONE (R392, R396). -/
def State.linkActive (s : State) (key : Nat) : State :=
  let s := (s.linkEnter key linkACTIVE 0).modLink key fun l => { l with flitAt := s.six, ackAt := s.six }
  match (s.page key).op with
  | some op => if op.opcode = 0x0100 then s.doneOp key else s
  | none => s

/-- The ALIGN body before the next group (R385). -/
def alignBody (six : Nat) : List Byte :=
  leBytes 3 2 ++ leBytes 0 2 ++ leBytes 0 2 ++ leBytes (six % 2 ^ 64) 8 ++ leBytes (six / 2 ^ 64) 1 ++ leBytes 48 1

/-- The end leaves LINK_INIT or RETRAIN: for ALIGN where the link carries SMP, and the sender sends ALIGN (R385, R392). -/
def State.linkAlign (s : State) (key : Nat) : State :=
  if s.linkSamples key then
    let s := s.linkEnter key linkALIGN sixPerMs
    if s.rb key Reg.BXE_STAT.SMP_TX then
      s.modLink key fun l => { l with lnk := l.lnk ++ [alignBody (ceilTo 160 s.six)], smpTx := 0, smp := [] }
    else s
  else s.linkActive key

/-- Both conditions of LINK_INIT hold (R392). -/
def State.linkInitDone (s : State) (key : Nat) : State :=
  let l := s.link key
  let mine : Bool := match l.paramSeq with | some n => !(l.unacked.any fun f => decide (f.1 = n)) | none => false
  if s.linkState key = linkLINK_INIT ∧ l.paramOk ∧ mine then s.linkAlign key else s

/-- LINK_POWER_ON: both ends of a link are powered and enabled (R392). -/
def execLinkPowerOn (port : Fin 14) (s : State) : Res :=
  let key := endKey port
  let far := farEnd key
  let up (k : Nat) := decide ((s.page k).st ≠ .off) && (s.page k).enable
  if up key && up far && decide (s.linkState key = linkDOWN) && decide (s.linkState far = linkDOWN) then
    .next ((s.linkEnter key linkSB_INIT (10 * sixPerMs)).linkEnter far linkSB_INIT (10 * sixPerMs))
  else .next s

/-- SIDEBAND_INIT_DONE (R392). -/
def execSidebandInitDone (port : Fin 14) (s : State) : Res :=
  let key := endKey port
  .next (if s.linkState key = linkSB_INIT then s.linkEnter key linkMB_INIT 0 else s)

/-- Replace faulty receive lanes by the free redundant lanes of their groups; none where a group has none (R389, R392). -/
def State.replaceLanes (s : State) (key : Nat) : List Nat → Option State
  | [] => some s
  | lane :: rest =>
    let m := s.rmapRx key lane
    if 128 ≤ m ∧ m % 64 = lane % 64 then State.replaceLanes s key rest
    else if 64 ≤ m then none
    else State.replaceLanes ((s.mirrorLane key 0x114 lane).mirrorLane (farEnd key) 0x11C lane) key rest

/-- Lanes that a link end has. -/
def laneList (key : Nat) (lanes : List (Fin 128)) : List Nat := (lanes.map (·.val)).filter fun n => decide (n < 64) || linkWide key

/-- MB_INIT_DONE: every data lane is good after the faulty receive lanes are replaced; a faulty lane whose group has no free
redundant lane is a fault (R392). -/
def execMbInitDone (port : Fin 14) (faulty : List (Fin 128)) (s : State) : Res :=
  let key := endKey port
  if s.linkState key = linkMB_INIT then
    match s.replaceLanes key (laneList key faulty) with
    | some s => .next (s.linkEnter key linkMB_TRAIN (20 * sixPerMs))
    | none => .next (s.linkFault key)
  else .next s

/-- MB_TRAIN_DONE: slots, sequence numbers, groups and return counts start at 0 (R392). -/
def execMbTrainDone (port : Fin 14) (s : State) : Res :=
  let key := endKey port
  if s.linkState key = linkMB_TRAIN then
    let s := s.modLink key fun l =>
      { LinkEnd.init with token := l.token, retrains := l.retrains, tags := l.tags.filter (·.quarantined), paramLeft := 16,
                          flitAt := s.six, ackAt := s.six }
    let s := (s.setReg key Reg.BXE_SLOT.off 0).refreshLink key
    .next (s.linkEnter key linkLINK_INIT sixPerMs)
  else .next s

/-- A PARAM body is in range (R393). -/
def paramGood (key : Nat) (b : List Byte) : Bool :=
  let f (off : Nat) := u16At b (off - 2)
  decide (byteAt b 2 = boolNat (linkWide key)) && decide (byteAt b 3 < 8) &&
    ([f 0x08, f 0x0A, f 0x0C].all fun c => decide (1 ≤ c) && decide (c ≤ 255)) && decide (f 0x10 % 8 = 0) && decide (byteAt b 0x10 < 4)

/-- PARAM_RECEIVE: the next PARAM flit received; it gives the credits and the tags, or a fault (R392, R393, R403). -/
def execParamReceive (port : Fin 14) (s : State) : Res :=
  let key := endKey port
  let l := s.link key
  match l.lnkIn.find? fun b => decide (byteAt b 0 = 2) with
  | none => .next (s.linkInitDone key)
  | some b =>
    let s := s.modLink key fun l => { l with lnkIn := l.lnkIn.erase b }
    if s.linkState key ≠ linkLINK_INIT ∨ l.paramOk then .next (s.linkInitDone key)
    else if !paramGood key b then .next (s.linkFault key)
    else
      let s := s.modLink key fun l => { l with paramOk := true, advert := [u16At b 6, u16At b 8, u16At b 10] }
      let s := s.wf key Reg.BXE_TAGS.LIMIT (min (if linkWide key then 4096 else 1024) (u16At b 12))
      .next ((s.refreshLink key).linkInitDone key)

/-- ALIGN_FLIT: the next ALIGN flit received sets the release schedule; the link is ACTIVE, and its converter streams
(R111, R385, R392). -/
def execAlignFlit (port : Fin 14) (s : State) : Res :=
  let key := endKey port
  let l := s.link key
  match l.lnkIn.find? fun b => decide (byteAt b 0 = 3) with
  | none => .next s
  | some b =>
    let s := s.modLink key fun l => { l with lnkIn := l.lnkIn.erase b }
    if s.linkState key ≠ linkALIGN ∧ s.linkState key ≠ linkACTIVE then .next s
    else
      let first : Nat := (u64At b 6 + byteAt b 14 * 2 ^ 64) / 32
      let s := s.modLink key fun l => { l with smpRx := 4 * u16At b 2, smpFrame := (first : Int) - 5 * u16At b 2, smpLost := 0 }
      let s := if s.linkState key = linkALIGN then s.linkActive key else s
      let s := if s.linkState (farEnd key) = linkALIGN then s.linkActive (farEnd key) else s
      .next (match linkConv key with | some c => s.frameAligned c first | none => s)

/-- LINK_STATE_TIMEOUT: a state that has a timeout exceeds it (R392). -/
def execLinkStateTimeout (port : Fin 14) (s : State) : Res :=
  let key := endKey port
  let st := s.linkState key
  if st = linkSB_INIT ∨ st = linkMB_TRAIN ∨ st = linkLINK_INIT ∨ st = linkALIGN ∨ st = linkRETRAIN then
    .next ((s.advanceTo (s.link key).deadline).linkFault key)
  else .next s

/-- RETRAIN_DONE: an end has trained within 20 µs: slots and groups restart, sequenced flits are replayed from the oldest
(R389, R392). -/
def execRetrainDone (port : Fin 14) (faulty : List (Fin 128)) (s : State) : Res :=
  let key := endKey port
  if s.linkState key = linkRETRAIN then
    match s.replaceLanes key (laneList key faulty) with
    | some s =>
      let s := s.modLink key fun l =>
        { l with rxSlot := 0, txSlot := 0, resend := l.unacked, nakUntil := none, nakDue := false, flitAt := s.six, ackAt := s.six }
      let s := s.setReg key Reg.BXE_SLOT.off 0
      let s := if (s.link key).unacked.isEmpty then s else s.count key Reg.BXE_REPLAYS
      .next (s.linkAlign key)
    | none => .next (s.linkFault key)
  else .next s

/-! ### Commands of the BXE page (R396). -/

/-- RETRAIN: from ACTIVE or FAULT; DONE when ACTIVE, FAILED on FAULT (R392, R396). -/
def execRetrain (who : Issuer) (port : Fin 14) (tag : Nat) (s : State) : Res :=
  let key := endKey port
  .next (s.command who key 0x0100 tag fun s op =>
    if s.linkState key = linkACTIVE then (s.accept key op).retrain key
    else if s.linkState key = linkFAULT then
      ((s.accept key op).linkEnter key linkMB_INIT 0).linkEnter (farEnd key) linkMB_INIT 0
    else s.rejectOp key op codeSTATE 0x02)

/-- REPAIR: request repair of receive lane ARG0[5:0] of module ARG0[6]; DONE at the switch slot (R387, R396). -/
def execRepair (who : Issuer) (port : Fin 14) (tag : Nat) (s : State) : Res :=
  let key := endKey port
  .next (s.command who key 0x0101 tag fun s op =>
    let lane := op.a0 % 128
    if 64 ≤ lane ∧ !linkWide key then s.rejectOp key op codeRANGE 0
    else if s.linkState key ≠ linkACTIVE then s.rejectOp key op codeSTATE 0x02
    else if (s.link key).repair.isSome then s.rejectOp key op codeBUSY 0x03
    else if 128 ≤ s.rmapRx key lane then s.rejectOp key op codeNOSPACE 0x01
    else (s.accept key op).requestRepair key lane true false)

end Sys2Proof.Machine
end

