-- ==== Sys2Proof/Machine/Fabric.lean ====
section
/-! DEFINITION. Brixine transactions (R397-R421): packets received, consumed, forwarded or refused; messages; completions,
timeouts and quarantine; the isolation of a region. -/

namespace Sys2Proof.Machine

/-- An advisory FLT event whose KIND R592 does not give: KIND is free (log entry 45). -/
def State.logFree (s : State) (source key detail : Nat) : State :=
  let d := s.drawNat
  d.2.log1 { entry := 0, level := 0, code := 0, sub := 0, kind := d.1 % 256, six := s.six, source := source, pageKey := key, detail := detail }

/-! ### Packets (R397-R402). -/

def pTYPE (b : List Byte) : Nat := byteAt b 0
def pATTR (b : List Byte) : Nat := byteAt b 1
def pTAG (b : List Byte) : Nat := u16At b 2 % 4096
def pSRC (b : List Byte) : Nat := u16At b 4
def pSPACE (b : List Byte) : Nat := byteAt b 6
def pDST (b : List Byte) : Nat := byteAt b 7 % 16
def pADDR (b : List Byte) : Nat := u64At b 8
def pLINES (b : List Byte) : Nat := pATTR b % 8 + 1
def pBEM (b : List Byte) : Bool := nbit (pATTR b) 3
def pPOISON (b : List Byte) : Bool := nbit (pATTR b) 5
def pCLASS (b : List Byte) : Nat := pATTR b / 64

/-- A type on its virtual channel (R398). -/
def typeOnVc (vc type : Nat) : Bool :=
  if vc = 1 then decide (1 ≤ type ∧ type ≤ 3) else if vc = 2 then decide (0x10 ≤ type ∧ type ≤ 0x12) else decide (vc = 3 ∧ (type = 0x20 ∨ type = 0x21))

/-- The mask of a line (R401). -/
def pMask (b : List Byte) (i : Nat) : Nat := if pBEM b then u64At b (16 + 8 * i) else 2 ^ 64 - 1

/-- Line `i` of a packet with the disabled bytes absent (R401). -/
def pLine (b : List Byte) (i : Nat) : List (Option Byte) :=
  let base := 16 + (if pBEM b then 8 * pLINES b else 0) + 64 * i
  (List.range 64).map fun j => if nbit (pMask b i) j then some (b.getD (base + j) 0) else none

/-- The request behind an NP, as the tag of the next link keeps it (R404). -/
def pEntry (b : List Byte) (from0 : Option (Nat × Nat)) : TagEntry :=
  { tag := 0, source := pSRC b, rtype := pTYPE b, space := pSPACE b, addr := pADDR b, lines := pLINES b, from0 := from0, sentAt := 0,
    quarantined := false }

/-- Answer an NP on the link it came from (R409). -/
def State.answerNp (s : State) (key : Nat) (b : List Byte) (completer status : Nat) (poisoned : Bool) (data : List Byte) : State :=
  s.enqueue key { vc := 3, source := completer, dst := pSRC b / 4096, tag := pTAG b, started := false, np := none,
                  bytes := completionBytes (pSRC b) completer (pTAG b) status (pCLASS b) (pLINES b) poisoned data }

/-- Complete an NP with a status other than OK: its data are zero and poisoned, and a FLUSH has none (R409). -/
def State.refuseNp (s : State) (key : Nat) (b : List Byte) (status : Nat) : State :=
  s.answerNp key b (pageSource key) status true (if pTYPE b = 0x12 then [] else List.replicate (64 * pLINES b) 0)

/-! ### Messages (R411). -/

/-- The SIX at bytes 0x00-0x08 of a message's line; the present index when it has no line (R411, R590). -/
def State.messageSix (s : State) (line : List Byte) : Nat := if line.isEmpty then s.six else (u64At line 0 + byteAt line 8 * 2 ^ 64) % sixModulus

/-- A FAULT or EVENT message reaches the collector: levels cell, block and region are 1, 2 and 3 of the log (R411, R591, R592). -/
def State.collect (s : State) (source arg0 : Nat) (line : List Byte) (fault : Bool) : State :=
  s.log1 { entry := 0, level := if fault then bitsOf arg0 17 16 + 1 else 0, code := bitsOf arg0 31 24, sub := 0, kind := if fault then 2 else 1,
           six := s.messageSix line, source := source, pageKey := arg0 % 2 ^ 13, detail := u32At line 0x0C }

/-- The link ends that join a region, at both sides (R8, R10). -/
def regionEnds (r : Nat) : List Nat :=
  ((List.range 14).map endKey).filter fun k => decide (keyRegion k = r) || decide (keyRegion (farEnd k) = r)

/-- A region fences itself, and every far end fences its link (R415, R416). -/
def State.fenceRegion (s : State) (r : Nat) : State := s.each (regionEnds r) State.fence

/-- DOORBELL: a DMA channel, or with bit 15 a ring (R411). A doorbell of the host is subject to ownership (R435, R443). -/
def State.msgDoorbell (s : State) (source arg0 : Nat) : State :=
  let v := BitVec.ofNat 64 (bitsOf arg0 63 32)
  if nbit arg0 15 then
    let n := Fin.ofNat 32768 arg0
    if source = 0x100 ∨ n = 0 ∨ n = 1 then orStay (execRingDoorbell n v s) s else s.ringDoorbell n v.toNat
  else
    let c := Fin.ofNat 512 arg0
    if source = 0x100 then orStay (execTrvDoorbell c v s) s else if s.pageOff (chanKey c) then s else s.chanDoorbell c

/-- INTR: the page's message goes to the host while its flags are not zero (R64, R411). -/
def State.msgIntr (s : State) (arg0 : Nat) : State := if bitsOf arg0 31 16 = 0 then s else s.pageMessage (arg0 % 2 ^ 13)

/-- LTR: the latency tolerance of scan-out at the controllers of a region (R359, R411). -/
def State.msgLtr (s : State) (region source arg0 : Nat) : State :=
  if region = 1 ∨ region = 2 then
    (s.reportLtr (2 * (region - 1)) source (arg0 % 2 ^ 32)).reportLtr (2 * (region - 1) + 1) source (arg0 % 2 ^ 32)
  else s

/-- A message acts in a region (R411); a reserved code has no effect. -/
def State.message (s : State) (region source code arg0 : Nat) (line : List Byte) : State :=
  if code = 1 then s.msgDoorbell source arg0
  else if code = 2 then s.msgIntr arg0
  else if code = 3 then s.collect source arg0 line true
  else if code = 4 then s.collect source arg0 line false
  else if code = 5 then s.fenceRegion (arg0 % 16)
  else if code = 6 then s.msgLtr region source arg0
  else s

/-- MSG_DOORBELL. -/
def execMsgDoorbell (source : BitVec 16) (arg0 : BitVec 64) (s : State) : Res := .next (s.message 0 source.toNat 1 arg0.toNat [])

/-- MSG_INTR. -/
def execMsgIntr (source : BitVec 16) (arg0 : BitVec 64) (s : State) : Res := .next (s.message 0 source.toNat 2 arg0.toNat [])

/-- MSG_FAULT. -/
def execMsgFault (source : BitVec 16) (arg0 : BitVec 64) (line : List Byte) (s : State) : Res :=
  .next (s.message 0 source.toNat 3 arg0.toNat line)

/-- MSG_EVENT. -/
def execMsgEvent (source : BitVec 16) (arg0 : BitVec 64) (line : List Byte) (s : State) : Res :=
  .next (s.message 0 source.toNat 4 arg0.toNat line)

/-- MSG_FENCE. -/
def execMsgFence (source : BitVec 16) (arg0 : BitVec 64) (s : State) : Res := .next (s.message 0 source.toNat 5 arg0.toNat [])

/-- MSG_LTR: `region` is the analysis region whose controllers the message reaches. -/
def execMsgLtr (region : Fin 8) (source : BitVec 16) (arg0 : BitVec 64) (s : State) : Res :=
  .next (s.message region source.toNat 6 arg0.toNat [])

/-! ### Requests performed where they arrive (R351, R354, R399, R402, R408, R409). -/

/-- A MEM request names stacks of this region, or a hole of this region's space. -/
def memHere (region addr : Nat) : Bool := decide (region = 1 + addrStack addr / 2)

/-- Write the lines of an MWR to memory; a line of a hole is discarded and logged, and POISON marks the lines written (R351, R354,
R364). -/
def State.writeLines (s : State) (b : List Byte) : State :=
  s.each (List.range (pLINES b)) fun s i =>
    let a := pADDR b / 64 * 64 + 64 * i
    if pMask b i = 0 then s
    else if s.mapped a then
      let s := s.mergeLine a (pLine b i)
      if pPOISON b then s.setPoison (a / 64) true else s
    else s.holeAccess (addrStack a) a

/-- The word that an RWR mask enables, when it enables exactly one (R402). -/
def maskWord (m : Nat) : Option Nat := (List.range 16).find? fun i => decide (m = 15 * 2 ^ (4 * i))

/-- RWR: a register of a page or a word of a window; another mask is a partial write (R34, R402). PG_CMD is written by the commands. -/
def State.remoteWrite (s : State) (b : List Byte) : State :=
  let who : Issuer := if pSRC b = 0x100 then .host else .module
  let a := pADDR b % 2 ^ 26 / 64 * 64
  let x := maskWord (u64At b 16)
  let i := match x with | some i => i | none => 0
  let v := BitVec.ofNat 32 (u32At b (24 + 4 * i))
  if a < 0x02000000 then
    let key := keyOf (a / 0x400000) (a % 0x400000 / 0x1000)
    let off := a % 0x1000 + 4 * i
    s.writeReg who key off v x.isSome
  else orStay (execWindowWrite who (Fin.ofNat 0x4000000 (a + 4 * i)) v x.isSome s) s

/-- A word of BAR0 outside the register pages: ring contexts, memories, curves and lookup tables, the MSI-X table and its
pending bits; other addresses read 0 (R32, R35, R62, R441). -/
def State.barWindow (s : State) (a : Nat) : Word :=
  if 0x03F00000 ≤ a ∧ a < 0x03F08000 then mget msixReset s.msixTable ((a - 0x03F00000) / 4)
  else if 0x03F08000 ≤ a ∧ a < 0x03F08100 then
    word ((List.range 32).foldl (fun n i => n + boolNat (s.msixPending (8 * (a - 0x03F08000) + i)) * 2 ^ i) 0)
  else
    match windowKey a with
    | some k => if k = keyRNG then (s.ring ((a - 0x02C00000) / 64)).ctxWord (a % 64 / 4) else s.winWord a
    | none => 0

/-- The word an RRD returns (R35, R402). -/
def State.remoteRead (s : State) (addr : Nat) : Word :=
  let a := addr % 2 ^ 26 / 4 * 4
  if a < 0x02000000 then
    let key := keyOf (a / 0x400000) (a % 0x400000 / 0x1000)
    s.readReg key (a % 0x1000)
  else s.barWindow a

/-- A P or NP that its region consumes (R398, R399, R408, R409). -/
def State.perform (s : State) (key : Nat) (b : List Byte) : State :=
  let r := keyRegion key
  let a := pADDR b
  let discard := s.count key Reg.BXE_P_DISCARD
  match pTYPE b, pSPACE b with
  | 0x03, code => s.message r (pSRC b) code a (if nbit (pATTR b) 4 then [] else (b.drop 16).take 64)
  | 0x01, 0 => if memHere r a then s.writeLines b else discard
  | 0x01, 2 => if r = 0 then s.emit (.hostWrite (a / 64 * 64) ((List.range (pLINES b)).flatMap (pLine b))) else discard
  | 0x02, 1 => s.remoteWrite b
  | 0x10, 0 =>
    if memHere r a then
      let m := addrStack a
      let x := s.fetchMem (a / 64 * 64) (64 * pLINES b)
      let poisoned := x.2.any (·.2)
      let s := if poisoned then x.1.count (keyMEM m) Reg.MEM_POISON_READS else x.1
      s.answerNp key b (r * 4096 + 0x400 + m % 2) 0 poisoned (x.2.map (·.1))
    else s.refuseNp key b 1
  | 0x10, 2 =>
    if r = 0 then
      ({ s with hostReads := s.hostReads ++ [{ source := pSRC b, addr := a, lines := pLINES b, from0 := some (key, pTAG b), tag := pTAG b, sentAt := s.six }] } : State).emit
        (.hostRead (pSRC b) a (64 * pLINES b))
    else s.refuseNp key b 1
  | 0x11, 1 =>
    let w := s.remoteRead a
    let s : State := if s.guest then { s with freeCtr := s.freeCtr + 1 } else s
    let s := if a % 2 ^ 26 / 4 * 4 = barAddr keyTBS 0x130 then s.latchSix else s
    let pos := a % 64 / 4 * 4
    s.answerNp key b (pageSource key) 0 false (List.replicate pos 0 ++ leBytes w.toNat 4 ++ List.replicate (60 - pos) 0)
  | 0x12, _ => s.answerNp key b (pageSource key) 0 false []
  | t, _ => if t < 0x10 then discard else s.refuseNp key b 1

/-! ### The guest filter (R420, R421). -/

/-- A packet of the guest die: whether the hub discards it with an FLT event (R420), and whether it denies it (R421). -/
def State.guestRefused (s : State) (b : List Byte) : Option Bool :=
  let t := pTYPE b
  if t = 0x20 ∨ t = 0x21 then none
  else if t = 0x03 then (if 3 ≤ pSPACE b ∧ pSPACE b ≤ 5 then none else some true)
  else if pSPACE b = 2 then some true
  else if pSPACE b = 0 then
    let lo := pADDR b / 64 * 64
    let hi := lo + 64 * pLINES b
    if s.guestWin.any fun w => decide (w.1 ≤ lo) && decide (hi ≤ w.1 + w.2) then none else some false
  else if pSPACE b = 1 ∧ bitsOf (pADDR b) 25 22 = 7 then none
  else some false

/-- Refuse a packet of the guest die: counted, a P discarded, an NP completed DENIED (R409, R420, R421). -/
def State.refuseGuest (s : State) (key vc : Nat) (b : List Byte) (event : Bool) : State :=
  let s := s.count key Reg.BXE_DENIED
  let s := if event then s.logFree (pSRC b) key (pADDR b) else s
  if vc = 2 then s.refuseNp key b 3 else s

/-! ### Arrival (R403, R404, R406, R413). -/

/-- A completion: restored to the link its NP came from, or given to its requester; one whose tag is not in flight is late (R403, R404,
R410). -/
def State.takeCompletion (s : State) (key : Nat) (b : List Byte) : State :=
  let l := s.link key
  match l.tags.find? fun e => decide (e.tag = pTAG b) && !e.quarantined with
  | none => s.count key Reg.BXE_CPL_LATE
  | some e =>
    let s := (s.modLink key fun l => { l with tags := l.tags.filter fun x => decide (x.tag ≠ e.tag) }).refreshLink key
    match e.from0 with
    | some (k, tag) =>
      s.enqueue k { vc := 3, source := pSRC b, dst := e.source / 4096, tag := tag, started := false, np := none,
                    bytes := b.take 2 ++ leBytes tag 2 ++ b.drop 4 }
    | none => s.emit (.completion e.source (pSPACE b) (pPOISON b) (b.drop 16))

/-- Forward a P or NP on a link; an NP takes a tag of that link and keeps the mapping (R404). -/
def State.forward (s : State) (key out vc : Nat) (b : List Byte) : State :=
  s.enqueue out { vc := vc, source := pSRC b, dst := pDST b, tag := 0, started := false, bytes := b,
                  np := if vc = 2 then some (pEntry b (some (key, pTAG b))) else none }

/-- The bytes that a packet occupies (R401). -/
def pBytes (b : List Byte) : Nat := 16 + (if pBEM b then 8 * pLINES b else 0) + (if nbit (pATTR b) 4 then 0 else 64 * pLINES b)

/-- A packet that has arrived whole on an end. -/
def State.arrive (s : State) (key vc : Nat) (b : List Byte) : State :=
  let r := keyRegion key
  let b := b.take (pBytes b)
  if (s.link key).fenced then (if vc = 1 then s.count key Reg.BXE_P_DISCARD else if vc = 3 then s.count key Reg.BXE_CPL_LATE else s)
  else if !typeOnVc vc (pTYPE b) then (s.count key Reg.BXE_P_DISCARD).logFree (pageSource key) key (pADDR b)
  else if vc = 3 then s.takeCompletion key b
  else
    match (if s.guest ∧ key = keyOf 0 0x3F0 then s.guestRefused b else none) with
    | some event => s.refuseGuest key vc b event
    | none =>
      if pDST b = r then s.perform key b
      else if 3 ≤ r then s.count key Reg.BXE_P_DISCARD
      else if 8 ≤ pDST b then (if vc = 2 then s.refuseNp key b 1 else s.count key Reg.BXE_P_DISCARD)
      else match routeEnd r (pDST b) with | some out => s.forward key out vc b | none => s

/-- The class that owns a grant slot: of 15 slots RT has 8, ST 4, CT 2 and BG 1 (R13). -/
def slotClass (slot : Nat) : Nat := if slot < 8 then 0 else if slot < 12 then 1 else if slot < 14 then 2 else 3

/-- The class that takes a slot: its own, or else the next class in the order RT, ST, CT, BG that requests (R13). -/
def grantClass (slot : Nat) (requests : Nat → Bool) : Option Nat := ((List.range 4).map fun i => (slotClass slot + i) % 4).find? requests

/-- A received packet may not pass an earlier one of its domain (R406). -/
def holdsBack (p q : Nat × Nat × List Byte) : Bool :=
  decide (pSRC q.2.2 = pSRC p.2.2 ∧ pDST q.2.2 = pDST p.2.2) &&
    (decide (q.1 = 1) || (decide (p.1 = 3) && decide (q.1 = 3) && decide (pTAG q.2.2 = pTAG p.2.2)))

/-- The place of the oldest received packet of a class that passes none it may not. -/
def LinkEnd.oldestOf (l : LinkEnd) (cls : Nat) : Option Nat :=
  (List.range l.inbox.length).find? fun i =>
    match l.inbox[i]? with
    | some p => decide (pCLASS p.2.2 = cls) && !(l.inbox.take i).any (holdsBack p)
    | none => false

/-- Grant slots gone by on a region's fabric, modulo 15. -/
def State.slot (s : State) (region : Nat) : Nat := mget (fun _ => 0) s.slots region

/-- PACKET_RECEIVE: the next grant slot of the region's fabric takes a whole packet that an end has received from its buffer, whose flits
are freed: the oldest one of the class to which the slot falls (R12, R13, R383, R397, R413). -/
def execPacketReceive (port : Fin 14) (s : State) : Res :=
  let key := endKey port
  let r := keyRegion key
  let l := s.link key
  match (grantClass (s.slot r) fun c => (l.oldestOf c).isSome).bind l.oldestOf with
  | none => .next s
  | some i =>
    match l.inbox[i]? with
    | none => .next s
    | some (vc, flits, b) =>
      let s : State := { s with slots := mput s.slots r ((s.slot r + 1) % 15) }
      let s := s.modLink key fun l =>
        { l with inbox := l.inbox.eraseIdx i, freed := setNth l.freed (vc - 1) (nth 0 l.freed (vc - 1) + flits) }
      .next (s.arrive key vc b)

/-! ### Timeouts and quarantine (R410). -/

/-- 100 µs, or 50 ms for HOST, in SCLK periods. -/
def npTimeout (space : Nat) : Nat := if space = 2 then 50 * sixPerMs else 100 * sixPerUs

/-- NP_TIMEOUT: a request of a requester of this region has no completion within its time. The tag table names the request; for a tag
that the table does not hold, the request of a block whose packets the model does not show (log entry 59) is the one given. A forwarded
request does not time out here. -/
def execNpTimeout (port : Fin 14) (tag : Fin 4096) (source : BitVec 16) (space : Fin 4) (addr : BitVec 64) (s : State) : Res :=
  let key := endKey port
  let l := s.link key
  let given : TagEntry :=
    { tag := tag, source := source.toNat, rtype := 0x10, space := space, addr := addr.toNat, lines := 1, from0 := none, sentAt := s.six - npTimeout space,
      quarantined := false }
  let e := (l.tags.find? fun e => decide (e.tag = tag.val)).getD given
  if e.quarantined ∨ e.from0.isSome then .next s
  else
    let s := s.advanceTo (e.sentAt + npTimeout e.space)
    let s := s.modLink key fun l =>
      { l with tags := l.tags.filter (fun x => decide (x.tag ≠ tag.val)) ++ [{ e with quarantined := true, sentAt := s.six }] }
    let s := ((s.refreshLink key).count key Reg.BXE_CPL_TIMEOUT).setErr key 22
    let s := s.logFree e.source key e.addr
    .next (s.emit (.completion e.source 4 true (if e.rtype = 0x12 then [] else List.replicate (64 * e.lines) 0)))

/-- TAG_QUARANTINE_END: a further timeout period is over, and the tag returns to use. -/
def execTagQuarantineEnd (port : Fin 14) (tag : Fin 4096) (s : State) : Res :=
  let key := endKey port
  match (s.link key).tags.find? fun e => decide (e.tag = tag.val) && e.quarantined with
  | none => .next s
  | some e =>
    let s := s.advanceTo (e.sentAt + npTimeout e.space)
    .next ((s.modLink key fun l => { l with tags := l.tags.filter fun x => decide (x.tag ≠ tag.val) }).refreshLink key)

/-- HOST_READ_COMPLETION: a completion from host memory for the read of SPACE HOST at place `index` of those in flight: its bytes, or
with `ok` false an error of PCIe, whose data are zero and poisoned (R408-R410). -/
def execHostReadCompletion (index : Fin 65536) (ok : Bool) (bytes : List Byte) (s : State) : Res :=
  match s.hostReads[index.val]? with
  | none => .next s
  | some h =>
    let n := 64 * h.lines
    let data := if ok then (bytes ++ List.replicate n 0).take n else List.replicate n 0
    let late : Bool := decide (h.sentAt + npTimeout 2 ≤ s.six)
    let s : State := { s with hostReads := s.hostReads.eraseIdx index.val }
    match h.from0 with
    | none => .next (if late then s else s.emit (.completion h.source 0 (!ok) data))
    | some (k, tag) =>
      .next (s.enqueue k { vc := 3, source := 0x100, dst := h.source / 4096, tag := tag, started := false, np := none,
                           bytes := completionBytes h.source 0x100 tag 0 1 h.lines (!ok) data })

/-! ### Isolation (R14, R222, R391, R416, R417, R588). -/

/-- A module-level fault asks for safe state, unless one has already (R594). -/
def State.askSafe (s : State) (cause : Nat) : State := { s with safeReq := if s.safeReq.isNone then some cause else s.safeReq }

/-- Region `r` isolates itself: its links are fenced, its page reads FAULT, and the entry waits for the collector to release it to
Phoin. Region H cannot isolate itself: its fault is one of the module (R14, R15). -/
def State.isolateRegion (s : State) (r : Nat) : State :=
  if r = 0 then s.askSafe 1
  else if s.isolated r then s
  else
    let s := s.fenceRegion r
    let s := s.wf keyFLT Reg.FLT_STAT.ISOLATED (putBit (s.rf keyFLT Reg.FLT_STAT.ISOLATED) r true)
    let s := if s.rf keyFLT Reg.FLT_STAT.STATE = 0 then s.wf keyFLT Reg.FLT_STAT.STATE 1 else s
    let rid := keyOf r 0
    let s := (s.enter rid .fault).irqBit rid irqFAULT
    let s := (s.logPage rid 3 codeFAULT 0 3 r).irqBit keyFLT 17
    let s := if r ≤ 2 then s.holdOutputs (r - 1) else s.convFault (r - 3)
    if s.isolated 1 ∧ s.isolated 2 then s.askSafe 5 else s

/-- REGION_ISOLATION. -/
def execRegionIsolation (region : Fin 8) (s : State) : Res := .next (s.isolateRegion region)

/-- LINK_FAULT: a link in FAULT is a fault of its converter region, or of the far region from region H (R391). -/
def execLinkFault (link : Fin 7) (s : State) : Res :=
  let key := if link.val < 4 then keyOf (3 + link) 0x3F0 else keyOf 0 (0x3F0 + (link - 4))
  let far := if link.val < 4 then 3 + link.val else if link.val = 4 then 7 else link.val - 4
  .next ((s.linkFault key).isolateRegion far)

/-- A switched domain goes off: MAP bit and pages (R561, R562). -/
def State.domainBit (s : State) (d : Nat) (on : Bool) : State :=
  s.wf keyPWR Reg.PWR_DOMAINS.MAP (putBit (s.rf keyPWR Reg.PWR_DOMAINS.MAP) d on)

end Sys2Proof.Machine
end

