-- ==== Sys2Proof/Machine/Firmware.lean ====
section
/-! DEFINITION. Firmware banks, the boot record and secure boot (R571, R572, R565), and zeroisation (R577-R579). -/

namespace Sys2Proof.Machine

/-- Change power, start-up and security state. -/
def State.modPower (s : State) (f : Power → Power) : State := { s with power := f s.power }

/-! ### Banks (R571, R572). -/

/-- A bank; B when true. -/
def State.fwBank (s : State) (b : Bool) : List Byte := if b then s.power.bankB else s.power.bankA
def State.setBank (s : State) (b : Bool) (image : List Byte) : State :=
  s.modPower fun p => if b then { p with bankB := image } else { p with bankA := image }

/-- Largest body, and bytes of a bank. -/
def fwBodyMax : Nat := 16776704
def fwBankBytes : Nat := 16 * 2 ^ 20

def fwSVN (i : List Byte) : Nat := u32At i 0x008
def fwBUILD (i : List Byte) : Nat := u32At i 0x00C
def fwPHN_VER (i : List Byte) : Nat := u32At i 0x010
def fwBODY_BYTES (i : List Byte) : Nat := u32At i 0x014
def fwDIGEST (i : List Byte) : List Byte := (i.drop 0x018).take 48
def fwSIGN_KEY (i : List Byte) : List Byte := (i.drop 0x048).take 96
def fwSIGNATURE (i : List Byte) : List Byte := (i.drop 0x0A8).take 96
def fwBody (i : List Byte) : List Byte := (i.drop 512).take (fwBODY_BYTES i)

/-- Every condition of R572 but the fused minimum. -/
def State.fwGood (s : State) (i : List Byte) : Bool :=
  decide (512 ≤ i.length) && decide (u32At i 0 = 0x4C465749) && decide (u16At i 4 = 1) &&
    decide (1 ≤ fwBODY_BYTES i ∧ fwBODY_BYTES i ≤ fwBodyMax ∧ (fwBody i).length = fwBODY_BYTES i) && decide (fwSVN i ≤ 255) &&
    nbit (u16At i 6) (boolNat s.guest) && decide (sha384 (fwSIGN_KEY i) = s.power.fused) &&
    ecVerify (fwSIGN_KEY i) (fwSIGNATURE i) (i.take 0xA8) && decide (sha384 (fwBody i) = fwDIGEST i)

/-- Fused SVN_MIN. -/
def State.svnMin (s : State) : Nat := s.rf keySEC Reg.SEC_STAT.SVN_MIN

/-- Why an image is not valid: ROLLBACK below SVN_MIN, IMAGE otherwise (R572, R583). -/
def State.fwFault (s : State) (i : List Byte) : Option (Nat × Nat) :=
  if !s.fwGood i then some (codeINTEGRITY, 0x01) else if fwSVN i < s.svnMin then some (codePROTECT, 0x02) else none

/-- A bank is valid. -/
def State.bankValid (s : State) (b : Bool) : Bool := (s.fwFault (s.fwBank b)).isNone

/-- The running bank. -/
def State.runBank (s : State) : Bool := s.rb keySEC Reg.SEC_STAT.BANK

/-- The bank that the boot record names: the copy with the higher SEQ; bank A with no valid copy (log entry 62). -/
def State.preferred (s : State) : Bool :=
  match s.power.bootA, s.power.bootB with
  | some a, some b => decide ((if a.1 < b.1 then b.2 else a.2) = 1)
  | some a, none => decide (a.2 = 1)
  | none, some b => decide (b.2 = 1)
  | none, none => false

/-- Commit the boot record: the older copy is written with the next SEQ (R571). -/
def State.commitBoot (s : State) (b : Bool) : State :=
  let sa := match s.power.bootA with | some a => a.1 | none => 0
  let sb := match s.power.bootB with | some x => x.1 | none => 0
  let rec0 := some (max sa sb + 1, boolNat b)
  s.modPower fun p => if sa ≤ sb then { p with bootA := rec0 } else { p with bootB := rec0 }

/-- SEC_STAT.OTHER_VALID and SEC_FW_OTHER. -/
def State.refreshOther (s : State) : State :=
  let b := !s.runBank
  let ok := s.bankValid b
  (s.wb keySEC Reg.SEC_STAT.OTHER_VALID ok).setReg keySEC Reg.SEC_FW_OTHER.off (word (if ok then fwBUILD (s.fwBank b) else 0))

/-- A bank runs: SVN, BANK, FALLBACK and BUILD. -/
def State.runImage (s : State) (b fallback : Bool) : State :=
  let i := s.fwBank b
  let s := ((s.wf keySEC Reg.SEC_STAT.SVN (fwSVN i)).wb keySEC Reg.SEC_STAT.BANK b).wb keySEC Reg.SEC_STAT.FALLBACK fallback
  (s.setReg keyMOD Reg.MOD_FW.off (word (fwBUILD i))).refreshOther

/-- PHN_VER of the running image (R292, R573). -/
def State.loadPhnVer (s : State) : State :=
  s.setReg keyPHN Reg.PHN_VER.MAJOR.off (word (fwPHN_VER (s.fwBank s.runBank)))

/-- An entry of KIND SECURITY; its DETAIL is not given and is free (R592; log entry 3). -/
def State.logSecurity (s : State) : State :=
  let d := s.drawNat
  d.2.logPage keySEC 0 0 0 14 (d.1 % 2 ^ 64)

/-- Secure boot: the preferred bank, else the other with FALLBACK, else RECOVERY with FAULT_N (R565, R572). -/
def State.secureBoot (s : State) : State :=
  let b := s.preferred
  if s.bankValid b then s.runImage b false
  else if s.bankValid (!b) then ((s.runImage (!b) true).setErr keySEC 16).logSecurity
  else
    let s := (s.wb keyMOD Reg.MOD_STAT.RECOVERY true).wf keyFLT Reg.FLT_STAT.STATE 3
    (s.wb keyFLT Reg.FLT_STAT.FAULT_N true).wb keySEC Reg.SEC_STAT.OTHER_VALID false

/-! ### The key store (R574, R577-R579). -/

/-- SEC_KEYS0-2 and PROVISIONED follow the key store. -/
def State.refreshKeys (s : State) : State :=
  let m (lo n : Nat) := (List.range n).foldl (fun w i => if (mfind s.keyStore (lo + i)).isSome then w + 2 ^ i else w) 0
  let s := ((s.setReg keySEC 0x104 (word (m 0 32))).setReg keySEC 0x108 (word (m 32 32))).setReg keySEC 0x10C (word (m 64 8))
  s.wb keySEC Reg.SEC_STAT.PROVISIONED (mfind s.keyStore 0).isSome

/-- Key store slots (R574). -/
def keySlots : Nat := 72

/-- Every slot, KT and the guest windows are overwritten with zeros (R577, R579). -/
def State.zeroise (s : State) : State :=
  let s : State := { s with keyStore := [], guestWin := [], power := { s.power with kt := none, ktIv := none, zeroPend := false } }
  let s := ((s.refreshKeys.wb keySEC Reg.SEC_STAT.KT false).wb keySEC Reg.SEC_STAT.ZEROISED true).setErr keySEC 17
  s.logSecurity

/-- The guest windows are loaded from the guest provisioning record (R421, R574; log entry 60). -/
def State.loadGuestWindows (s : State) : State :=
  if s.guest then { s with guestWin := match mfind s.keyStore 64 with | some r => (Config.guestWindows r).take 8 | none => [] } else s

end Sys2Proof.Machine
end

