-- ==== Sys2Proof/Machine/NvmeOps.lean ====
section
/-! DEFINITION. The NVMe initiator's operations (R462-R468): drives, extents, write commands, and drives that leave a set. -/

namespace Sys2Proof.Machine

/-! ### Writes. -/

/-- Issue a write of store blocks for a stream, carrying parts of the records `seqs`; none while no slot, queue entry or room under the
drive's 64 MiB is free (R464). -/
def State.nvmeWrite (s : State) (task d block : Nat) (bytes : List Byte) (seqs : List Nat) : Option State :=
  if s.perst ∨ s.writes.any (fun e => decide (e.2.drive = d) && e.2.held) then none
  else if 64 * 2 ^ 20 < s.driveBusy d + bytes.length then none
  else
    match s.freeSlot with
    | none => none
    | some slot =>
      match s.nvmeIssue d 0x01 block (bytes.length / 4096) slot with
      | none => none
      | some (qid, s) =>
        let w : NvmeWrite := { slot := slot, drive := d, qid := qid, block := block, bytes := bytes, task := task, seqs := seqs, tries := 0,
                               issuedAt := s.six, held := false }
        some ({ s with writes := mput s.writes slot w }.refreshDrive d)

/-! ### Extents (R467, R468). -/

/-- The header of an extent (R467). -/
def State.extentHeader (s : State) (task gen storeId cont first prev : Nat) : List Byte :=
  let h := leBytes 0x4C534558 4 ++ leBytes 1 2 ++ leBytes (dDEST_ID (s.streamDesc task)) 2 ++ leBytes gen 8 ++ leBytes storeId 8 ++
    leBytes task 4 ++ leBytes cont 4 ++ leBytes first 8 ++ leBytes prev 4 ++ leBytes 0 4 ++ leBytes s.six 8 ++
    leBytes (s.six / 2 ^ 64 % 256) 1 ++ leBytes 0 3
  h ++ leBytes (crc32c h) 4

/-- The extent that the next claim on a drive takes: the one after the highest generation; under STOP only one never written
(R468). -/
def Drive.claim (v : Drive) : Option Nat :=
  if v.extents = 0 then none
  else
    let e := v.nextExt % v.extents
    if v.wrap || (mfind v.gens e).isNone then some e else none

/-- The records of a port that have not wholly left. -/
def StreamPort.todo (p : StreamPort) : List StreamRec := p.queue.filter fun r => !r.whole

/-- Claim an extent for a stream on a drive: its header goes first (R468). `none` when the write cannot be issued now. -/
def State.claimExtent (s : State) (t : Stream) (p : StreamPort) (v : Drive) (e : Nat) : Option State :=
  let cont := match p.todo with
    | r :: _ => if r.sent = 0 then 0 else r.bytes.length - r.sent
    | [] => 0
  let first := match p.todo.find? fun r => decide (r.sent = 0) with | some r => r.seq | none => t.seq
  let gen := v.topGen + 1
  let prev := match p.extent with | some (x, _) => x | none => 0xFFFFFFFF
  let h := s.extentHeader t.task gen v.storeId cont first prev
  match s.nvmeWrite t.task p.index (extentBlock e) (h ++ List.replicate (4096 - h.length) 0) [] with
  | none => none
  | some s =>
    let s := s.modDrive p.index fun v => { v with gens := mput v.gens e gen, nextExt := (e + 1) % max 1 v.extents }
    some (s.modPort t.task p.index fun p => { p with extent := some (e, 4096) })

/-! ### A drive or port leaves a set (R465, R468). -/

/-- Records whose port is gone go whole to the ports that remain (R454, R465); copies for the lost port do not. -/
def State.reassign (s : State) (task : Nat) : List StreamRec → State
  | [] => s
  | r :: rest =>
    if r.free ∧ r.kind ≠ 8 then State.reassign s task rest
    else
      let r := { r with sent := 0, whole := false, open0 := 0, place := none }
      let b := if r.free then 0 else r.bytes.length
      match s.stream task with
      | none => s
      | some t =>
        match assignPort t.ports b with
        | none => s
        | some i => State.reassign ((s.modPort task i fun p => { p with assigned := p.assigned + b }).putOnPort task i r) task rest

/-- A drive leaves a stream's set. -/
def State.leaveSet (s : State) (task d : Nat) : State :=
  match s.stream task with
  | none => s
  | some t =>
    match t.port d with
    | none => s
    | some p =>
      let s := s.modStream task fun t => { t with ports := t.ports.filter fun q => decide (q.index ≠ d) }
      (s.reassign task p.queue).refreshStr

/-- Tasks of the open NVMe streams that use a drive. -/
def State.driveTasks (s : State) (d : Nat) : List Nat :=
  (s.streams.filter fun e => decide (e.2.dest = destNVME) && (e.2.port d).isSome).map (·.2.task)

/-- A drive has no extent left: it leaves every set that has another drive with space (R468). -/
def State.storeFull (s : State) (d : Nat) : State :=
  let s := (s.nviMark nviFULL d true).setErr keyNVI 17
  s.each (s.driveTasks d) fun s task =>
    match s.stream task with
    | some t => if t.ports.any fun q => decide (q.index ≠ d) then s.leaveSet task d else s
    | none => s

/-- A drive becomes FAILED: it leaves every set, and a task whose set is then empty fails (R465). -/
def State.driveFailed (s : State) (d : Nat) : State :=
  let s := ((s.nviMark nviFAILED d true).setErr keyNVI 18).irqBit keyNVI 16
  let s := { s with writes := s.writes.filter fun e => decide (e.2.drive ≠ d) }
  (s.each (s.driveTasks d) fun s task =>
    match s.stream task with
    | some t =>
      if t.ports.length ≤ 1 then
        let s := s.failTask task codeFAULT 0x06
        (s.modStream task fun t => { t with ports := [] }).dropClosed task
      else s.leaveSet task d
    | none => s).refreshDrive d

/-! ### One write of a stream (R454, R464, R467). -/

/-- A record on a drive is padded with zeros to a multiple of 64 bytes (R467). -/
def paddedRecord (r : StreamRec) : List Byte := r.bytes ++ List.replicate ((64 - r.bytes.length % 64) % 64) 0

/-- The bytes that the records bring, with the SEQ of each, how many bytes it had sent, and how many it brings, up to `room`. -/
def gather (room : Nat) : List StreamRec → List (StreamRec × List Byte)
  | [] => []
  | r :: rest =>
    let part := ((paddedRecord r).drop r.sent).take room
    if part.isEmpty then [] else (r, part) :: gather (room - part.length) rest

/-- Cut what was gathered to `n` bytes. -/
def cutGather : Nat → List (StreamRec × List Byte) → List (StreamRec × List Byte)
  | _, [] => []
  | n, (r, bs) :: rest =>
    if n = 0 then []
    else if bs.length ≤ n then (r, bs) :: cutGather (n - bs.length) rest
    else [(r, bs.take n)]

/-- The next write command of a stream on a drive: whole store blocks of its records; a block that is only partly filled waits
for more, unless the stream is closing (R464, R467; log entry 50). -/
def State.nvmeTransfer (s : State) (t : Stream) (p : StreamPort) (v : Drive) : State :=
  let d := p.index
  match p.extent with
  | some (e, at0) =>
    if at0 < extentBytes then
      let all := gather (min v.maxWrite (extentBytes - at0)) p.todo
      let total := (all.map (·.2.length)).sum
      let tail := t.closing && decide (total < min v.maxWrite (extentBytes - at0))
      let n := if tail then total else total / 4096 * 4096
      let parts := cutGather n all
      let bytes := parts.flatMap (·.2)
      let bytes := bytes ++ List.replicate ((4096 - bytes.length % 4096) % 4096) 0
      if n = 0 then s
      else
        match s.nvmeWrite t.task d (extentBlock e + at0 / 4096) bytes (parts.map (·.1.seq)) with
        | none => s.recordWaits t.task d
        | some s =>
          let s := s.modPort t.task d fun p => { p with extent := some (e, at0 + bytes.length) }
          let s := s.each parts fun s x =>
            s.modRec t.task d x.1.seq fun r =>
              { r with sent := r.sent + x.2.length, open0 := r.open0 + 1, whole := decide ((paddedRecord r).length ≤ r.sent + x.2.length) }
          s.payUnit t.task d (((parts.filter fun x => !x.1.free).map fun x => min x.2.length (x.1.bytes.length - x.1.sent)).sum) false
    else
      match v.claim with
      | some e => (s.claimExtent t p v e).getD (s.recordWaits t.task d)
      | none => (s.recordWaits t.task d).storeFull d
  | none =>
    match v.claim with
    | some e => (s.claimExtent t p v e).getD (s.recordWaits t.task d)
    | none => (s.recordWaits t.task d).storeFull d

/-- A write completes other than with success, or never: it is reissued to the same blocks up to 3 times, and then the drive is
FAILED (R465). -/
def State.writeFailed (s : State) (w : NvmeWrite) : State :=
  let s := s.setReg keyNVI (0x404 + 8 * w.drive) (word (satInc 0xFFFFFFFF (s.reg keyNVI (0x404 + 8 * w.drive)).toNat))
  let s := s.setErr keyNVI 16
  if 3 ≤ w.tries then s.driveFailed w.drive
  else
    match s.nvmeIssue w.drive 0x01 w.block (w.bytes.length / 4096) w.slot with
    | some (qid, s) => { s with writes := mput s.writes w.slot { w with tries := w.tries + 1, qid := qid, issuedAt := s.six } }
    | none => { s with writes := mput s.writes w.slot { w with tries := w.tries + 1, held := true } }

/-- A write goes before others by its time of issue and its block. -/
def insertWrite (w : Nat × NvmeWrite) : List (Nat × NvmeWrite) → List (Nat × NvmeWrite)
  | [] => [w]
  | x :: xs =>
    if w.2.issuedAt < x.2.issuedAt ∨ (w.2.issuedAt = x.2.issuedAt ∧ w.2.block < x.2.block) then w :: x :: xs else x :: insertWrite w xs

/-- Writes of a drive that were not completed are reissued first, in order, once a queue pair is there again (R483). -/
def State.reissueHeld (s : State) (d : Nat) : State :=
  s.each ((s.writes.filter fun e => decide (e.2.drive = d) && e.2.held).foldr insertWrite []) fun s e =>
    match s.nvmeIssue d 0x01 e.2.block (e.2.bytes.length / 4096) e.1 with
    | some (qid, s) => { s with writes := mput s.writes e.1 { e.2 with qid := qid, issuedAt := s.six, held := false } }
    | none => s

end Sys2Proof.Machine
end

