-- ==== Sys2Proof/Machine/Streams.lean ====
section
/-! DEFINITION. The stream scheduler and the Ethernet flows: the commands of chapter 17 (R451-R456, R460, R461, R470-R480). -/

namespace Sys2Proof.Machine

/-! ### Records (R452-R455). -/

/-- The first ready record of a task. -/
def State.firstReady (s : State) (task : Nat) : Option Ready := s.readyRecs.find? fun x => decide (x.record.task = task)

/-- STREAM_RECORD_READY: the first ready record of a task takes the next SEQ of its stream and a port; a task without a stream
keeps its records in memory (R451-R453). -/
def execStreamRecordReady (task : BitVec 32) (s : State) : Res :=
  match s.firstReady task.toNat with
  | none => .next s
  | some x =>
    if (s.stream task.toNat).isNone then .next { s with readyRecs := s.readyRecs.erase x }
    else
      match s.takeRecord task.toNat x with
      | some t => .next { t with readyRecs := t.readyRecs.erase x }
      | none => .next s

/-- A 4 KiB piece of a record goes to the host data buffer; once the record is written its ring entry waits to be produced
(R454, R460, R461). -/
def State.hostTransfer (s : State) (t : Stream) (p : StreamPort) (r : StreamRec) : State :=
  let d := s.streamDesc t.task
  let n := dDEST_ID d
  let g := s.ring n
  match g.buffer with
  | none => s.recordWaits t.task p.index
  | some (addr, lg) =>
    let size := 2 ^ lg
    let need := r.bytes.length
    let here := match r.place with
      | some x => x
      | none =>
        let rest := size - g.bufPos % size
        let skip := if rest < need then rest else 0
        (g.bufPos + skip, skip)
    let oldest := match g.offsets ++ g.entries.map (fun e => u64At e 0) with | o :: _ => o | [] => here.1
    if g.st ≠ .open0 ∨ s.perst ∨ oldest + size < here.1 + need then s.recordWaits t.task p.index
    else
      let piece := (r.bytes.drop r.sent).take 4096
      let s := s.emit (.hostWrite (addr + here.1 % size + r.sent) (piece.map some))
      let done := decide (need ≤ r.sent + piece.length)
      let s := s.modRec t.task p.index r.seq fun r => { r with sent := r.sent + piece.length, whole := done, place := some here }
      let s := s.payUnit t.task p.index piece.length r.free
      if done then
        let crc := if dPORT_CRC d then crc32c r.bytes else 0
        let e := leBytes here.1 8 ++ leBytes need 4 ++ leBytes here.2 4 ++ leBytes r.seq 8 ++ leBytes t.task 4 ++ leBytes crc 4
        s.modRing n fun g => { g with entries := g.entries ++ [e], bufPos := here.1 + need }
      else s

/-- The way of the hub to the memory that holds a task's records (R9, R299). -/
def State.recordPath (s : State) (id : Nat) : MemPath :=
  match s.task id with
  | some t => if t.hasMem then s.stackPath 0 t.stack else .clear
  | none => .clear

/-- STREAM_TRANSFER: the next transfer unit of a stream leaves on a port or drive while its bucket is not negative, and the link to the
task's memory is up (R9, R454). -/
def execStreamTransfer (task : BitVec 32) (port : Fin 32) (s : State) : Res :=
  let s := s.modPort task.toNat port fun p => fillBucket p s.six
  match s.stream task.toNat with
  | none => .next s
  | some t =>
    match t.port port with
    | none => .next s
    | some p =>
      match p.todo with
      | [] => .next s
      | r :: _ =>
        if (!r.free && (decide (p.bucket < 0) || decide (p.grant = 0))) || decide (s.recordPath t.task ≠ .clear) then .next s
        else if t.dest = destHOST then .next (s.hostTransfer t p r)
        else if t.dest = destETH then .next (s.ethTransfer t p r)
        else
          match s.drive port with
          | some v => .next (s.nvmeTransfer t p v)
          | none => .next (s.recordWaits t.task port)

/-- RECORD_TAKEN: the first record of a port that its destination has taken is released at its source (R455). -/
def execRecordTaken (task : BitVec 32) (port : Fin 32) (s : State) : Res :=
  match s.stream task.toNat with
  | none => .next s
  | some t =>
    match t.port port with
    | none => .next s
    | some p =>
      match p.queue.find? fun r => s.isTaken t.task t.dest r with
      | none => .next s
      | some r =>
        let s := s.modPort t.task port fun p => { p with queue := p.queue.erase r }
        .next ((s.releaseSource r.from0).dropClosed t.task)

/-! ### LSA (R476-R480). -/

/-- LSA_ACCEPT (R480). -/
def execLsaAccept (port : Fin 4) (payload : List Byte) (s : State) : Res :=
  .next (s.lsaReceive port 2 payload fun s t p =>
    let rwnd := beAt payload 16 4
    if p.flow.st = .opening then
      (s.modFlow t.task port fun f => { f with st := .open0, heardAt := s.six, rwnd := rwnd * 1024 })
    else if p.flow.st = .open0 ∨ p.flow.st = .stalled then s.heard t.task port rwnd
    else s)

/-- LSA_ACK (R478, R480). -/
def execLsaAck (port : Fin 4) (payload : List Byte) (s : State) : Res :=
  .next (s.lsaReceive port 4 payload fun s t p =>
    if p.flow.st = .open0 ∨ p.flow.st = .stalled then
      (s.count (keyETH port) Reg.ETH_RX_ACKS).lsaAck t.task port (beAt payload 16 4) (beAt payload 20 8) (beAt payload 28 4)
    else s)

/-- LSA_CLOSED (R480). -/
def execLsaClosed (port : Fin 4) (payload : List Byte) (s : State) : Res :=
  .next (s.lsaReceive port 6 payload fun s t p =>
    if p.flow.st = .closing then ((s.modFlow t.task port fun f => { f with st := .closed }).dropClosed t.task).refreshFlows else s)

/-- A flow fails, and its task with it (R480): nothing more leaves on its port. -/
def State.flowFailed (s : State) (task port code sub : Nat) : State :=
  let s := s.modFlow task port fun f => { f with st := .failed, unacked := [] }
  let s := s.failTask task code sub
  (s.modPort task port fun p => { p with queue := [] }).dropClosed task

/-- LSA_RESET: the recorder ends the flow, and the task fails (R480, R488). -/
def execLsaReset (port : Fin 4) (payload : List Byte) (s : State) : Res :=
  .next (s.lsaReceive port 7 payload fun s t _ => s.flowFailed t.task port codeFAULT 0x02)

/-- LSA_OPEN_REPEAT: OPEN goes again 10 ms after the last (R478). -/
def execLsaOpenRepeat (task : BitVec 32) (port : Fin 4) (s : State) : Res :=
  match (s.stream task.toNat).bind (·.port port) with
  | none => .next s
  | some p =>
    if p.flow.st = .opening then
      let s := s.advanceTo (p.flow.sinceAt + 10 * sixPerMs)
      .next ((s.modFlow task.toNat port fun f => { f with sinceAt := s.six }).sendOpen task.toNat port)
    else .next s

/-- LSA_RTO_EXPIRY: the retransmission time of a packet has passed; while STALLED it doubles to 100 ms. A CLOSING flow repeats
CLOSE (R478, R480; log entry 51). -/
def execLsaRtoExpiry (task : BitVec 32) (port : Fin 4) (psn : BitVec 32) (s : State) : Res :=
  match (s.stream task.toNat).bind (·.port port) with
  | none => .next s
  | some p =>
    if p.flow.st = .closing then
      let s := s.advanceTo (p.flow.heardAt + p.flow.rto * sixPerUs)
      .next ((s.modFlow task.toNat port fun f => { f with heardAt := s.six }).sendClose task.toNat port)
    else
      match p.flow.unacked.find? fun x => decide (x.psn % 2 ^ 32 = psn.toNat) with
      | none => .next s
      | some x =>
        let s := (s.advanceTo (x.sentAt + p.flow.rto * sixPerUs)).retransmit task.toNat port x.psn
        .next (s.modFlow task.toNat port fun f => { f with rto := if f.st = .stalled then min 100000 (2 * f.rto) else f.rto })

/-- LSA_DEAD_TIMEOUT: with data outstanding, nothing was heard for DEAD_MS (R480). -/
def execLsaDeadTimeout (task : BitVec 32) (port : Fin 4) (s : State) : Res :=
  match (s.stream task.toNat).bind (·.port port) with
  | none => .next s
  | some p =>
    let data := !p.flow.unacked.isEmpty || (decide (p.flow.st = .opening) && !p.queue.isEmpty)
    if (p.flow.st = .opening ∨ p.flow.st = .open0) ∧ data then
      let s := s.advanceTo (p.flow.heardAt + s.profDead port (s.profOf task.toNat) * sixPerMs)
      let s := s.modFlow task.toNat port fun f => { f with st := .stalled, sinceAt := s.six }
      .next (s.setErr (keyETH port) 17)
    else .next s

/-- LSA_FAIL_TIMEOUT: FAIL_S has passed in STALLED or CLOSING (R480). -/
def execLsaFailTimeout (task : BitVec 32) (port : Fin 4) (s : State) : Res :=
  match (s.stream task.toNat).bind (·.port port) with
  | none => .next s
  | some p =>
    let due := p.flow.sinceAt + s.profFail port (s.profOf task.toNat) * 1000 * sixPerMs
    if p.flow.st = .stalled then .next ((s.advanceTo due).flowFailed task.toNat port codeTIMEOUT 0x01)
    else if p.flow.st = .closing then
      .next ((((s.advanceTo due).modFlow task.toNat port fun f => { f with st := .closed }).dropClosed task.toNat).refreshFlows)
    else .next s

/-- CONTEXT_TIMER: a second after the last context packet of a stream on a port, the context goes again (R475). -/
def execContextTimer (task : BitVec 32) (port : Fin 4) (s : State) : Res :=
  match (s.stream task.toNat).bind (·.port port) with
  | none => .next s
  | some p =>
    let prof := s.profOf task.toNat
    let may := !s.profFlag port prof 2 || decide (p.flow.st = .open0)
    if s.profFlag port prof 4 ∧ p.context ≠ [] ∧ s.ethUp port ∧ may then
      let s := s.advanceTo (p.contextAt + 1000 * sixPerMs)
      let seq := match p.todo with | r :: _ => r.seq | [] => match s.stream task.toNat with | some t => t.seq | none => 0
      .next (s.sendContext task.toNat p seq s.six p.context false)
    else .next s

/-- UNKNOWN_FRAME: a received frame that is unknown, malformed or fails its CHECK is discarded and counted (R511). -/
def execUnknownFrame (port : Fin 4) (s : State) : Res := .next (if s.ethUp port then s.ethDrop port else s)

end Sys2Proof.Machine
end

