-- ==== Sys2Proof/Machine/Power.lean ====
section
/-! DEFINITION. Input supply, power domains, start-up, resets and power failure (R559-R570). -/

namespace Sys2Proof.Machine

/-! ### Where the module stands. -/

/-- MOD_STAT.PHASE; 0 is the model's mark of a module that is off. -/
def State.phase (s : State) : Nat := s.rf keyMOD Reg.MOD_STAT.PHASE
def State.setPhase (s : State) (n : Nat) : State := s.wf keyMOD Reg.MOD_STAT.PHASE n

/-- The module is in safe state, or in RECOVERY. -/
def State.isSafe (s : State) : Bool := decide (s.rf keyFLT Reg.FLT_STAT.STATE = 2)
def State.inRecovery (s : State) : Bool := decide (s.rf keyFLT Reg.FLT_STAT.STATE = 3)

/-! ### Domains (R561, R562). -/

/-- The pages that a domain supplies (R561). -/
def domainPages (d : Nat) : List Nat :=
  if d < 5 then [keyAFE d, keyTRM d]
  else if d < 10 then [keyADC (d - 5), keyOf (d - 2) 0x3F0]
  else if d < 13 then (List.range 8).map (keyPipe (d - 10))
  else if d = 13 then (List.range 32).map keyMC
  else if d = 14 then [keyMEM 0, keyMEM 1]
  else if d < 18 then (List.range 8).map (keyPipe (d - 12))
  else if d = 18 then (List.range 32).map fun i => keyMC (32 + i)
  else if d = 19 then [keyMEM 2, keyMEM 3]
  else if d = 20 then
    [keyPHN, keySVY, keyNVI, keySTR] ++ ((List.range 4).map fun i => keyOf 0 (0x018 + i)) ++ ((List.range 16).map fun i => keyOf 0 (0x040 + i)) ++
      [keyRNG] ++ (List.range 3).map fun i => keyOf 0 (0x3F0 + i)
  else if d = 21 then [keyHIF]
  else if d = 22 then [keyETH 0, keyETH 1]
  else if d = 23 then [keyETH 2, keyETH 3]
  else if d = 24 then [keyDSP]
  else if d = 25 then (List.range 8).map keyCMP
  else []

/-- The region that a domain belongs to (R8, R9). -/
def domainRegion (d : Nat) : Nat :=
  if d < 10 then 3 + d % 5 else if d < 15 then 1 else if d < 20 then 2 else if d < 26 then 0 else 1 + (d - 26) / 2

/-- A pipeline holds a task, a reservation, a survey or a migration target (R561). -/
def State.pipeNeeded (s : State) (p : Nat) : Bool :=
  !(s.pipeTasks p).isEmpty || (pipePages p).any s.isReserved || (match s.svy.run with | some r => decide (r.pipe = p) | none => false) ||
    (s.svy.holds.any fun h => h.pipes.contains p) || (match s.phn.mig with | some m => m.target.contains p | none => false)

/-- A core of an analysis region is granted or reserved. -/
def State.coresNeeded (s : State) (r : Nat) : Bool :=
  (s.holdingTasks.any fun t => t.grants.any fun g => decide (g.cls = 8) && decide (g.inst / 32 = r)) ||
    (List.range 32).any fun i => s.isReserved (keyMC (32 * r + i))

/-- A port carries a stream, or PTP. -/
def State.portNeeded (s : State) (i : Nat) : Bool :=
  (s.streams.any fun x => decide (x.2.dest = destETH) && x.2.ports.any fun p => decide (p.index = i)) ||
    (s.holdingTasks.any fun t => t.grants.any fun g => decide (g.cls = 7) && decide (g.inst = i)) ||
    (s.rb keyTBS Reg.TBS_CFG.PTP_EN && decide (s.rf keyTBS Reg.TBS_PTP_CFG.PORT = i))

/-- A domain stays on: the condition of R561 for switching it off does not hold. -/
def State.domainNeeded (s : State) (d : Nat) : Bool :=
  let allow (f : RegField) := s.rb keyMOD f
  if d < 10 ∨ d = 14 ∨ d = 19 ∨ 26 ≤ d then !s.isolated (domainRegion d)
  else if d < 13 then !allow Reg.MOD_PWR_ALLOW.PIPE || s.pipeNeeded (d - 10)
  else if d = 13 then !allow Reg.MOD_PWR_ALLOW.CORES || s.coresNeeded 0
  else if d < 18 then !allow Reg.MOD_PWR_ALLOW.PIPE || s.pipeNeeded (d - 12)
  else if d = 18 then !allow Reg.MOD_PWR_ALLOW.CORES || s.coresNeeded 1
  else if d = 22 then !allow Reg.MOD_PWR_ALLOW.ETH || s.portNeeded 0 || s.portNeeded 1
  else if d = 23 then !allow Reg.MOD_PWR_ALLOW.ETH || s.portNeeded 2 || s.portNeeded 3
  else if d = 24 then !allow Reg.MOD_PWR_ALLOW.DISPLAY || s.feedTask.isSome || s.isReserved keyDSP
  else if d = 25 then
    !allow Reg.MOD_PWR_ALLOW.CODEC || (s.liveTasks.any fun t => dCOMPRESS t.desc) || (List.range 8).any fun i => s.isReserved (keyCMP i)
  else true

/-- One transition of a domain is counted, and PWR_DOMAINS follows. -/
def State.switchDomain (s : State) (d : Nat) (on : Bool) : State := (s.domainBit d on).count keyPWR Reg.PWR_SWITCHES

/-- A page loses its power: an operation in progress ends FAILED, and the page reads OFF (R36, R49). -/
def State.pageDown (s : State) (key : Nat) : State :=
  let s := ((s.failOp key codeFAULT 0).resetHook key).clearPend key
  let s := if blockOf key = .eth ∧ s.rb key Reg.ETH_STAT.LINK_UP then (s.wb key Reg.ETH_STAT.LINK_UP false).irqBit key 16 else s
  s.enter key .off

/-- A domain goes off. -/
def State.domainDown (s : State) (d : Nat) : State :=
  if s.domainOn d then (s.each (domainPages d) State.pageDown).switchDomain d false else s

/-- A domain comes on: its blocks are in RESET (R562). -/
def State.domainUp (s : State) (d : Nat) : State :=
  if s.domainOn d then s else (s.each (domainPages d) State.powerReset).switchDomain d true

/-- DOMAIN_OFF_TIMER: the condition of a domain has held for 100 ms (R562). -/
def execDomainOffTimer (domain : Fin 30) (s : State) : Res :=
  .next (if s.ready ∧ s.domainOn domain ∧ !s.domainNeeded domain then s.domainDown domain else s)

/-- DOMAIN_ON_DONE: the switch-on of a domain that is needed completes; one that has tripped stays off (R562). -/
def execDomainOnDone (domain : Fin 30) (s : State) : Res :=
  .next (if s.ready ∧ s.domainNeeded domain ∧ !nbit (s.rf keyPWR Reg.PWR_TRIPPED.MAP) domain then s.domainUp domain else s)

/-- An entry of KIND POWER (R592). -/
def State.logPower (s : State) (level detail : Nat) : State := s.logPage keyPWR level 0 0 13 detail

/-- DOMAIN_TRIP: a domain's protection switches it off; its blocks take the fault, and where a region cannot run without it, the region
does (R14, R15, R562). -/
def execDomainTrip (domain : Fin 30) (s : State) : Res :=
  let d := domain.val
  if !s.domainOn d then .next s
  else
    let s := s.wf keyPWR Reg.PWR_TRIPPED.MAP (putBit (s.rf keyPWR Reg.PWR_TRIPPED.MAP) d true)
    let s := (s.setErr keyPWR 16).logPower 0 d
    let s := s.each (domainPages d) fun s k => s.enterFault k (cellBit (blockOf k))
    let s := s.domainDown d
    if d < 10 ∨ d = 14 ∨ d = 19 ∨ 26 ≤ d then .next (s.isolateRegion (domainRegion d))
    else if d = 20 ∨ d = 21 then .next (s.askSafe 1)
    else .next s

/-- GUEST_OVERCURRENT: PD04 or PD09 of the guest die is above its limit for 1 ms: both go off, with a region fault (R417). -/
def execGuestOvercurrent (s : State) : Res :=
  if s.guest ∧ (s.domainOn 4 ∨ s.domainOn 9) then .next (((s.domainDown 4).domainDown 9).isolateRegion 7) else .next s

/-- PWR_VIN_REFRESH: VIN in 10 mV, input current in 10 mA, input power and its peak over the last second in 0.1 W. VIN_LOW and VIN_HIGH
are set, and stay set, as VIN reaches their ranges; values hold while the management cores restart (R559, R586). -/
def execPwrVinRefresh (vin current power peak : BitVec 16) (s : State) : Res :=
  if s.six < s.power.mgmtUntil then .next s
  else
    let v := vin.toNat
    let s := ((s.wf keyPWR Reg.PWR_VIN.LO v).wf keyPWR Reg.PWR_VIN.HI current.toNat).wf keyPWR Reg.PWR_PIN.LO power.toNat
    let s := s.wf keyPWR Reg.PWR_PIN.HI peak.toNat
    let s := if 3400 ≤ v ∧ v < 3600 then s.setErr keyPWR 17 else s
    .next (if 7500 < v then s.setErr keyPWR 18 else s)

/-! ### What resets keep (R566). -/

/-- Fields kept in flash and fuses, and those of the particular module (R582, R583, R598). -/
def flashFields : List (Nat × RegField) :=
  [(keyMOD, ⟨0x104, 31, 0⟩), (keyMOD, ⟨0x108, 31, 0⟩), (keyMOD, Reg.MOD_STAT.PF_CAUSE), (keyMOD, Reg.MOD_STAT.PF_STEP),
   (keySEC, Reg.SEC_STAT.SVN_MIN), (keySEC, Reg.SEC_STAT.PROVISIONED), (keySEC, Reg.SEC_STAT.ZEROISED), (keySEC, ⟨0x104, 31, 0⟩), (keySEC, ⟨0x108, 31, 0⟩),
   (keySEC, ⟨0x10C, 31, 0⟩), (keyFLT, Reg.FLT_FLASH_COUNT)]

/-- Everything is reset but flash, fuses, the key store and the levels of input lands (R566). -/
def State.coldBase (s : State) : State :=
  let v := s.svy
  let p := s.power
  let t : State :=
    { State.reset with
        pending := s.pending, out := s.out, freeCtr := s.freeCtr, guest := s.guest, flashLog := s.flashLog, keyStore := s.keyStore, perst := s.perst, peBad := s.peBad,
        ethBad := s.ethBad, svy := { State.reset.svy with areaA := v.areaA, areaB := v.areaB, factory := v.factory },
        power := { Power.init with porst := p.porst, bankA := p.bankA, bankB := p.bankB, bootA := p.bootA, bootB := p.bootB, fused := p.fused,
                                   zeroPend := p.zeroPend, failed := p.failed, thermal := p.thermal } }
  t.each flashFields fun t x => t.wf x.1 x.2 (s.rf x.1 x.2)

/-- The module is off: every page reads OFF. -/
def State.goOff (s : State) : State :=
  let t := s.coldBase.setPhase 0
  { t with pages := allKeys.map fun k => (k, { t.page k with st := .off }) }

/-- Start-up begins at step 1 after a cold start or a board reset; `last` is LAST_RESET. -/
def State.coldStart (s : State) (last : Nat) : State :=
  let t := s.coldBase.wf keyMOD Reg.MOD_STAT.LAST_RESET last
  t.modPower fun p => { p with failed := false, thermal := false }

/-- VIN_START: VIN has been at 38 V or more for 10 ms with the module off; after THERMAL it must have been removed (R559, R566, R569,
R570). -/
def execVinStart (s : State) : Res :=
  .next (if s.phase = 0 ∧ !s.power.thermal then (s.setPhase 1).coldStart (if s.power.failed then 3 else 0) else s)

/-! ### Power failure (R567-R570). -/

/-- A destination accepts a TERMINATOR now: a port with its link up, a host ring not PAUSED, a drive (R567, R595). -/
def acceptsNow (s : State) (dest i : Nat) : Bool :=
  if dest = destETH then s.ethUp i else if dest = destHOST then !s.perst else (s.drive i).isSome && !s.perst

/-- What stands on the ports of a stream leaves while the destination accepts it. -/
def State.flushStream (s : State) (task : Nat) : State :=
  match s.stream task with
  | none => s
  | some t =>
    s.each (t.ports.map (·.index)) fun s i =>
      let s := s.each (List.range 4096) fun s _ => orStay (execStreamTransfer (BitVec.ofNat 32 task) (Fin.ofNat 32 i) s) s
      if t.dest = destHOST then
        s.each (List.range 64) fun s _ => orStay (execRingProduce (Fin.ofNat 32768 (dDEST_ID (s.streamDesc task))) true s) s
      else s

/-- Every stream is closed by a TERMINATOR and flushed (R567, R568, R595). -/
def State.closeAll (s : State) (reason code : Nat) : State :=
  let ids := s.streams.map fun x => x.2.task
  (s.each ids fun s id => s.closeStream id reason code 0 acceptsNow).each ids State.flushStream

/-- Capture writers and record planes stop (R567). -/
def State.stopCapture (s : State) : State := s.each (List.range 6) fun s p => s.capPause p 4

/-- Step 1 of R567: Phoin stops admitting, and the message for POWER_FAIL goes. -/
def State.pfAnnounce (s : State) (cause : Nat) : State :=
  let s := (s.wb keyMOD Reg.MOD_STAT.READY false).wb keyMOD Reg.MOD_STAT.POWER_FAIL true
  (s.irqBit keyMOD 17).logPower 0 cause

/-- What step 4 completes or abandons (R345, R567, R569): `done` when the supply lasts until its end. -/
def State.pfFlash (s : State) (cause last : Nat) : State :=
  let writing : Bool := match (s.page keySEC).op with | some op => decide (op.opcode = 0x0100) | none => false
  let s := if writing then s.setBank (!s.runBank) [] else s
  if 4 ≤ last then
    ((s.storePowerFail).wf keyMOD Reg.MOD_STAT.PF_CAUSE cause).wf keyMOD Reg.MOD_STAT.PF_STEP last
  else if s.svy.store = .idle then s
  else s.setArea s.storeTarget CalArea.erased

/-- The power-fail sequence, of which the supply lasts for the steps up to `last`; a second trigger, or one with the module off, is
ignored (R567, R569). Causes: 1 PFW_N, 2 UNDERVOLTAGE, 3 OVERVOLTAGE, 4 THERMAL. -/
def State.powerFail (s : State) (cause last : Nat) : State :=
  if s.phase = 0 ∨ s.rb keyMOD Reg.MOD_STAT.POWER_FAIL then s
  else
    let s := if 1 ≤ last then s.pfAnnounce cause else s
    let s := if 2 ≤ last then s.stopCapture else s
    let s := if 3 ≤ last then s.closeAll 4 0 else s
    let s := s.pfFlash cause last
    (s.modPower fun p => { p with failed := true, thermal := decide (cause = 4) }).goOff

/-- UNDERVOLTAGE: VIN falls below 34 V; with the module off, VIN has been removed (R559, R570). -/
def execUndervoltage (last : Fin 8) (s : State) : Res :=
  .next (if s.phase = 0 then s.modPower fun p => { p with thermal := false } else s.powerFail 2 last)

/-- OVERVOLTAGE: VIN above 80 V for more than 100 ms. -/
def execOvervoltage (last : Fin 8) (s : State) : Res := .next (s.powerFail 3 last)

/-- POWER_FAIL_TRIGGER: PFW_N has been low for 1 µs. -/
def execPowerFailTrigger (last : Fin 8) (s : State) : Res := .next (s.powerFail 1 last)

/-- THERMAL_TRIGGER: a die has read 105 °C or more for 1 ms. -/
def execThermalTrigger (last : Fin 8) (s : State) : Res := .next (s.powerFail 4 last)

/-! ### Start-up (R563-R565). -/

/-- Blocks of a region come out of reset, but for those of domains that are off and of an isolated region. -/
def State.blocksUp (s : State) (keys : List Nat) : State :=
  s.each keys fun s k =>
    let on : Bool := match domainOf k with | some d => s.domainOn d | none => true
    if on && !s.isolated (keyRegion k) && decide ((s.page k).st = .reset ∨ (s.page k).st = .off) then (s.powerReset k).enter k .idle else s

/-- Domains come on at start-up. -/
def State.domainsUp (s : State) (ds : List Nat) : State :=
  s.each (ds.filter fun d => !s.isolated (domainRegion d)) State.domainUp

/-- Pages of the catalogue in a region, by block. -/
def regionKeys (r : Nat) (f : BlockType → Bool) : List Nat :=
  ((List.range 1024).map (keyOf r)).filter fun k => keyListed k && f (blockOf k)

/-- The LUT banks hold the ramp R = G = B = i (R547). -/
def lutRamp : List (Nat × Word) :=
  (List.range 1024).map fun i => ((0x3A00000 + 4 * i) / 4, word (i % 256 * 0x010101))

/-- The ends of the links, enabled by firmware, and the converters, in CLOCKING once powered (R111, R392). -/
def State.convsUp (s : State) : State :=
  let s := s.each s.allConvs fun s c => if s.isolated (3 + c) then s else s.convEnter c convCLOCKING
  s.each ((List.range 14).map endKey) fun s k => if s.isolated (keyRegion k) then s else s.modPage k fun p => { p with enable := true }

/-- Links are ACTIVE and converters LOCKED, but for isolated regions (R563 step 7). -/
def State.linksUp (s : State) : Bool :=
  (((List.range 14).map endKey).all fun k => s.isolated (keyRegion k) || s.isolated (keyRegion (farEnd k)) || decide (s.linkState k = linkACTIVE)) &&
    s.allConvs.all fun c => s.isolated (3 + c) || (decide (c < 4) && s.isolated (1 + c / 2)) || s.convLocked c

/-- READY (R563 step 10). -/
def State.becomeReady (s : State) : State :=
  let s := (s.wb keyMOD Reg.MOD_STAT.READY true).wb keyMOD Reg.MOD_STAT.DEGRADED (decide (s.rf keyFLT Reg.FLT_STAT.ISOLATED ≠ 0))
  s.irqBit keyMOD 16

/-- STARTUP_STEP: the step that MOD_STAT.PHASE names completes, and the next begins. `maddr` is the level of MADDR2-MADDR0 at step 1. -/
def execStartupStep (maddr : Fin 8) (s : State) : Res :=
  if s.isSafe ∨ s.inRecovery then .next s
  else
    match s.phase with
    | 1 => .next (if s.power.porst then s else (s.modPower fun p => { p with maddr := maddr }).setPhase 2)
    | 2 =>
      let s := s.blocksUp [keyMOD, keySEC, keyPWR, keyFLT, keyTBS]
      let s := (if s.power.zeroPend then s.zeroise else s).refreshKeys.secureBoot
      .next (if s.inRecovery then s else s.setPhase 3)
    | 3 =>
      let s := s.domainsUp [20, 21, 22, 23, 24, 25]
      let s := (s.blocksUp (regionKeys 0 fun _ => true)).loadPhnVer
      let s : State := { s with win := lutRamp, six := if s.tb.running then s.six else 0, tb := { s.tb with running := true }, power := { s.power with pwrgd := true } }
      .next (s.setPhase 4)
    | 4 =>
      let s := s.domainsUp [10, 11, 12, 13, 15, 16, 17, 18]
      .next ((s.blocksUp ((regionKeys 1 fun b => b ≠ .mem) ++ regionKeys 2 fun b => b ≠ .mem)).setPhase 5)
    | 5 =>
      let s := s.domainsUp [14, 19, 26, 27, 28, 29]
      let s := s.blocksUp ((List.range 4).map keyMEM)
      let s := s.each (List.range 4) State.refreshMem
      .next (({ s with mem := [], poison := [], poisonFill := [] } : State).setPhase 6)
    | 6 =>
      let s := s.domainsUp (List.range 10)
      let s := s.blocksUp ((List.range 5).flatMap fun c => regionKeys (3 + c) fun _ => true)
      .next ((s.convsUp.loadTrims.loadGuestWindows).setPhase 7)
    | 7 => .next (if s.linksUp then s.setPhase 8 else s)
    | 8 => .next (s.setPhase 9)
    | 9 => .next (s.setPhase 10)
    | 10 => .next (s.becomeReady.setPhase 11)
    | _ => .next s

/-- STARTUP_TIMEOUT: a step for a region exceeds its time: the region is isolated and start-up goes on, and region H or the
synthesiser takes the module to safe state (R565). -/
def execStartupTimeout (region : Fin 8) (s : State) : Res :=
  if s.phase = 0 ∨ 10 ≤ s.phase ∨ s.inRecovery then .next s
  else if region = 0 then .next (s.askSafe 1)
  else .next ((s.isolateRegion region).wb keyMOD Reg.MOD_STAT.DEGRADED true)

/-! ### Resets (R566, R582). -/

/-- BOARD_RESET: PORST_N is recognised low: as a cold start, keeping a debug-open latch; a module that is off stays off unless
THERMAL held it off (R566, R569, R570). -/
def execBoardReset (s : State) : Res :=
  let s := s.modPower fun p => { p with porst := true }
  if s.phase = 0 ∧ !s.power.thermal then .next s
  else
    let open0 := s.rb keySEC Reg.SEC_STAT.DEBUG_OPEN
    .next (((s.setPhase 1).coldStart 1).wb keySEC Reg.SEC_STAT.DEBUG_OPEN open0)

/-- PORST_N_RELEASE: PORST_N is recognised high, and step 2 may begin. -/
def execPorstNRelease (s : State) : Res := .next (s.modPower fun p => { p with porst := false })

/-- Pages in AON (R566). -/
def aonKeys : List Nat := [keyMOD, keyTBS, keySEC, keyPWR, keyFLT]

/-- A module reset: every region but AON (R566, R585, R595). -/
def State.moduleReset (s : State) : State :=
  let v := s.svy
  let t : State :=
    { State.reset with
        pending := s.pending, out := s.out, freeCtr := s.freeCtr, guest := s.guest, flashLog := s.flashLog, keyStore := s.keyStore, perst := s.perst, peBad := s.peBad,
        ethBad := s.ethBad, six := s.six, log := s.log, tb := s.tb, power := { s.power with planeTests := [], image := none, holdAt := none },
        svy := { State.reset.svy with areaA := v.areaA, areaB := v.areaB, factory := v.factory },
        pages := s.pages.filter fun x => aonKeys.contains x.1 }
  let t := (t.syncOff.modTb fun b => { b with setSecs := none }).each [keyTBS, keySEC, keyFLT] State.cancelOp
  let t := t.setReg keyMOD Reg.MOD_STAT.READY.off (wset (wset (wset (t.reg keyMOD Reg.MOD_STAT.READY.off) 31 28 2) 7 4 3) 3 0 0)
  let t := t.setReg keyFLT Reg.FLT_STAT.STATE.off 0
  let t := (t.wf keyFLT Reg.FLT_PLANES.PLANE_OUT 0).wf keyPWR Reg.PWR_TRIPPED.MAP 0
  (t.wf keyPWR Reg.PWR_DOMAINS.MAP 0).wf keySEC Reg.SEC_STAT.UPDATE 0

/-- MODULE_RESET. -/
def execModuleReset (who : Issuer) (tag : Nat) (s : State) : Res :=
  .next (s.command who keyMOD 0x0100 tag fun s op =>
    if op.a0 ≠ 0x4D525354 then s.rejectOp keyMOD op codeRANGE 0x01
    else if (s.phase < 10 ∧ !s.isSafe) ∨ s.rb keyMOD Reg.MOD_STAT.POWER_FAIL then s.rejectOp keyMOD op codeSTATE 0x02
    else (s.accept keyMOD op).moduleReset.doneOp keyMOD)

end Sys2Proof.Machine
end

