-- ==== Sys2Proof/Machine/Security.lean ====
section
/-! DEFINITION. The commands of the SEC page and the management interface (R571-R583). -/

namespace Sys2Proof.Machine

/-- Reject a SEC command whose buffer is too small: RANGE, with the sub-reason FIELD, whose number the page's table does not give and
which is free (R583; log entry 64). -/
def State.rejectField (s : State) (op : Op) : State :=
  let d := s.drawNat
  d.2.rejectOp keySEC op codeRANGE (d.1 % 256)

/-- A host buffer's address (R583). -/
def Op.hostAddr (op : Op) : Nat := op.a0 + op.a1 * 2 ^ 32

/-- SEC_STAT.UPDATE. -/
def State.setUpdate (s : State) (n : Nat) : State := s.wf keySEC Reg.SEC_STAT.UPDATE n

/-- The opcode in progress on the SEC page. -/
def State.secOp (s : State) : Option Nat := (s.page keySEC).op.map (·.opcode)

/-- A random number below a bound, never 0. -/
def State.drawSecret (s : State) : Nat × State :=
  let d := s.drawNat
  (1 + d.1 % (ecN - 1), d.2)

/-! ### Firmware (R573). -/

/-- FW_WRITE: the bank not running is erased and its programming begins; `image` is what host memory holds, none when its reads fail. -/
def execFwWrite (who : Issuer) (tag : Nat) (image : Option (List Byte)) (s : State) : Res :=
  .next (s.command who keySEC 0x0100 tag fun s op =>
    if op.a2 ≤ 512 ∨ fwBankBytes < op.a2 then s.rejectField op
    else
      let s := (((s.accept keySEC op).setBank (!s.runBank) []).refreshOther).setUpdate 1
      match image with
      | none => (s.setUpdate 0).failOp keySEC codeFAULT 0x0C
      | some i => s.modPower fun p => { p with image := some (i.take op.a2) })

/-- FW_WRITE_DONE: programming and read-back end; the bank is checked under R572. `ok` is false when the read-back differs. -/
def execFwWriteDone (ok : Bool) (s : State) : Res :=
  match s.power.image with
  | none => .next s
  | some i =>
    if s.secOp ≠ some 0x0100 then .next s
    else
      let s := (s.modPower fun p => { p with image := none }).progressTo keySEC (ceilDiv i.length 1024)
      match (if ok then s.fwFault i else some (codeINTEGRITY, 0x01)) with
      | none => .next (((s.setBank (!s.runBank) i).refreshOther.setUpdate 2).doneOp keySEC)
      | some (code, sub) => .next ((s.setUpdate 0).failOp keySEC code sub)

/-- FW_ACTIVATE: admissions are held once no migration and no survey step runs. -/
def execFwActivate (who : Issuer) (tag : Nat) (s : State) : Res :=
  .next (s.command who keySEC 0x0101 tag fun s op =>
    if !s.rb keySEC Reg.SEC_STAT.OTHER_VALID ∨ s.inRecovery then s.rejectOp keySEC op codeSTATE 0x03
    else ((s.accept keySEC op).setUpdate 3).activateHold false)

/-- The activation ends, and what waited for it goes on. -/
def State.activateEnd (s : State) (update : Nat) (k : State → State) : State := (k (s.activateRelease.setUpdate update)).beginNext

/-- NEW_IMAGE_TAKEOVER: within the hold, the new image runs, the boot record is committed to its bank, and the hold is released. -/
def execNewImageTakeover (s : State) : Res :=
  if s.secOp ≠ some 0x0101 ∨ s.power.holdAt.isNone then .next s
  else
    let s := ((s.runImage (!s.runBank) false).loadPhnVer).commitBoot (!s.runBank)
    let s := s.logSecurity.logPage keyPHN 0 0 0 9 0
    .next (s.activateEnd 0 fun s => s.doneOp keySEC)

/-- ACTIVATE_TIMEOUT: 40 ms into the hold the new image has not taken over: the running image continues. -/
def execActivateTimeout (s : State) : Res :=
  match s.power.holdAt with
  | none => .next s
  | some t =>
    if s.secOp ≠ some 0x0101 then .next s
    else .next ((s.advanceTo (t + 40 * sixPerMs)).activateEnd 2 fun s => s.failOp keySEC codeFAULT 0x04)

/-- FW_RATCHET: the fused SVN_MIN rises to the running SVN, and the other bank is invalid when its SVN is lower. -/
def execFwRatchet (who : Issuer) (tag : Nat) (s : State) : Res :=
  .next (s.command who keySEC 0x0102 tag fun s op =>
    if s.inRecovery then s.rejectOp keySEC op codeSTATE 0x03
    else
      let svn := s.rf keySEC Reg.SEC_STAT.SVN
      let s := (s.accept keySEC op).wf keySEC Reg.SEC_STAT.SVN_MIN (max s.svnMin svn)
      let s := s.refreshOther
      (if s.rb keySEC Reg.SEC_STAT.OTHER_VALID then s else s.setUpdate 0).doneOp keySEC)

/-! ### Attestation and keys (R574-R576). -/

/-- Private identity key of slot 0. -/
def State.identity (s : State) : Nat := match mfind s.keyStore 0 with | some k => beNat (toNats k) | none => 0

/-- Slot 0 holds an identity key, and the store has not been zeroised since (R578, R583). -/
def State.provisioned (s : State) : Bool := s.rb keySEC Reg.SEC_STAT.PROVISIONED

/-- The 248 bytes of the report before its signature (R576). -/
def State.attestBody (s : State) (nonce : List Byte) : List Byte :=
  let i := s.fwBank s.runBank
  let guest := if s.guest then sha384 ((mfind s.keyStore 64).getD []) else List.replicate 48 0
  (nonce ++ List.replicate 32 0).take 32 ++ leBytes 0x4C415452 4 ++ leBytes 1 2 ++ leBytes (boolNat s.guest) 1 ++
    leBytes ((s.reg keySEC Reg.SEC_STAT.FALLBACK.off).toNat % 256) 1 ++ leBytes (s.pair keyMOD 0x104) 8 ++ leBytes (fwBUILD i) 4 ++ leBytes (fwSVN i) 4 ++
    (fwDIGEST i ++ List.replicate 48 0).take 48 ++ guest ++ ecBytes (ecPublic s.identity)

/-- ATTEST: `nonce` is what the buffer holds, none when the read fails. -/
def execAttest (who : Issuer) (tag : Nat) (nonce : Option (List Byte)) (s : State) : Res :=
  .next (s.command who keySEC 0x0103 tag fun s op =>
    if !s.provisioned then s.rejectOp keySEC op codePROTECT 0x0A
    else if op.a2 < 344 then s.rejectField op
    else
      let s := s.accept keySEC op
      match nonce with
      | none => s.failOp keySEC codeFAULT 0x0C
      | some n =>
        let body := s.attestBody n
        let k := s.drawSecret
        let s := k.2.emit (.hostWrite op.hostAddr ((body ++ ecSign s.identity k.1 body).map some))
        s.doneWith keySEC [344])

/-- The ASCII string LNC-KT1 (R575). -/
def ktInfo : List Nat := [0x4C, 0x4E, 0x43, 0x2D, 0x4B, 0x54, 0x31]

/-- KEY_EXCHANGE: `buffer` is what host memory holds. For a HOST_KEY that is no point of the curve, KT is free (log entry 61). -/
def execKeyExchange (who : Issuer) (tag : Nat) (buffer : Option (List Byte)) (s : State) : Res :=
  .next (s.command who keySEC 0x0104 tag fun s op =>
    if !s.provisioned then s.rejectOp keySEC op codePROTECT 0x0A
    else if op.a2 < 320 then s.rejectField op
    else
      let s := s.accept keySEC op
      match buffer with
      | none => s.failOp keySEC codeFAULT 0x0C
      | some b =>
        let b := (b ++ List.replicate 320 0).take 320
        let d := s.drawSecret
        let k := d.2.drawSecret
        let f := k.2.drawWords 8
        let q := ecPoint (b.take 96)
        let signed := b.take 0x80 ++ ecBytes (ecPublic d.1)
        let s := f.2.emit (.hostWrite (op.hostAddr + 0x80) ((ecBytes (ecPublic d.1) ++ ecSign s.identity k.1 signed).map some))
        let kt := if ecOn q then toBytes (hkdf384 (toNats ((b.drop 0x60).take 32)) (ecShared d.1 q) ktInfo 32) else f.1.flatMap fun w => leBytes w.toNat 4
        ((s.modPower fun p => { p with kt := some kt, ktIv := none }).wb keySEC Reg.SEC_STAT.KT true).doneOp keySEC)

/-- A resident task names a slot (R574). -/
def State.keyInUse (s : State) (slot : Nat) : Bool := s.liveTasks.any fun t => dENCRYPT t.desc && decide (dKEY_SLOT t.desc = slot)

/-- Why a slot cannot be loaded or cleared (R574, R583). -/
def State.slotError (s : State) (slot : Nat) : Option (Nat × Nat) :=
  if slot = 0 ∨ 71 < slot then some (codeRANGE, 0x05)
  else if 64 ≤ slot then some (codePROTECT, 0x06)
  else if s.keyInUse slot then some (codeSTATE, 0x07)
  else none

/-- Unwrap a blob for a slot under KT, given the last IV (R575). -/
def unwrapKey (kt : List Byte) (last : Option Nat) (slot : Nat) (blob : List Byte) : Option (List Byte × Nat) :=
  let iv := blob.take 12
  let n := beNat (toNats iv)
  if blob.length < 64 ∨ u32At blob 0x3C ≠ slot ∨ (match last with | some l => decide (n ≤ l) | none => false) = true then none
  else
    match gcmDecrypt kt iv ((blob.drop 0x3C).take 4) ((blob.drop 0x0C).take 48) with
    | some k => some (k, n)
    | none => none

/-- KEY_LOAD: `blob` is what host memory holds. -/
def execKeyLoad (who : Issuer) (tag : Nat) (blob : Option (List Byte)) (s : State) : Res :=
  .next (s.command who keySEC 0x0105 tag fun s op =>
    if !s.provisioned then s.rejectOp keySEC op codePROTECT 0x0A
    else
      match s.slotError op.a2, s.power.kt with
      | some (code, sub), _ => s.rejectOp keySEC op code sub
      | none, none => s.rejectOp keySEC op codeSTATE 0x08
      | none, some kt =>
        match blob with
        | none => (s.accept keySEC op).failOp keySEC codeFAULT 0x0C
        | some b =>
          match unwrapKey kt s.power.ktIv op.a2 b with
          | none => s.rejectOp keySEC op codeINTEGRITY 0x09
          | some (key, iv) =>
            let s := s.accept keySEC op
            let s : State := { s with keyStore := mput s.keyStore op.a2 key, power := { s.power with ktIv := some iv } }
            s.refreshKeys.doneOp keySEC)

/-- KEY_CLEAR. -/
def execKeyClear (who : Issuer) (tag : Nat) (s : State) : Res :=
  .next (s.command who keySEC 0x0106 tag fun s op =>
    match s.slotError op.a0 with
    | some (code, sub) => s.rejectOp keySEC op code sub
    | none =>
      let s := s.accept keySEC op
      ({ s with keyStore := mdel s.keyStore op.a0 } : State).refreshKeys.doneOp keySEC)

/-! ### Debug access (R577, R578). -/

/-- The key store is zeroised, tasks that encrypt fail, and JTAG opens. -/
def State.openDebug (s : State) : State :=
  let s := s.zeroise
  let ids := (s.liveTasks.filter fun t => dENCRYPT t.desc).map (·.id)
  (s.each ids fun s id => s.failTask id codePROTECT 0x0D).wb keySEC Reg.SEC_STAT.DEBUG_OPEN true

/-- DEBUG_OPEN on the SEC page. With `lost`, power is lost after step 1: the flag in flash stands until start-up (R579). -/
def execDebugOpen (who : Issuer) (tag : Nat) (lost : Bool) (s : State) : Res :=
  .next (s.command who keySEC 0x0107 tag fun s op =>
    if op.a0 ≠ 0x44454247 then s.rejectOp keySEC op codeRANGE 0x0B
    else if lost then (((s.accept keySEC op).modPower fun p => { p with zeroPend := true, failed := true })).goOff
    else (s.accept keySEC op).openDebug.doneWith keySEC [word keySlots])

/-! ### Management interface (R580, R581, R586, R602). -/

/-- Sensor 16: the module's state. -/
def State.moduleState (s : State) : Int :=
  if s.isSafe then 6 else if s.inRecovery then 5 else if s.rb keyMOD Reg.MOD_STAT.POWER_FAIL then 4
  else if s.ready then (if s.rf keyFLT Reg.FLT_STAT.ISOLATED ≠ 0 then 3 else 2) else 1

/-- A reading of a sensor that exists. -/
def State.sensor (s : State) (id : Nat) : Int := if id = 16 then s.moduleState else mget (fun _ => 0) s.power.sensors id

/-- SMB_ALERT_N is asserted while a platform event waits (R580). -/
def State.smbAlert (s : State) : Bool := !s.power.events.isEmpty

/-- An answer whose data the spec does not give: one free number (log entry 3). -/
def State.answerFree (s : State) (m : MctpMsg) : State :=
  let d := s.drawNat
  d.2.emit (.mgmt m true [d.1])

/-- Answer a message. -/
def State.answerMsg (s : State) (m : MctpMsg) : State :=
  match m with
  | .setEid e => (s.modPower fun p => { p with eid := e.toNat }).emit (.mgmt m true [e.toNat])
  | .getEid => s.emit (.mgmt m true [s.power.eid])
  | .getSensor id => if 1 ≤ id.toNat ∧ id.toNat ≤ 15 then s.emit (.mgmt m true [s.sensor id.toNat]) else s.emit (.mgmt m false [])
  | .getStateSensors id => if id.toNat = 16 then s.emit (.mgmt m true [s.moduleState]) else s.emit (.mgmt m false [])
  | .pollEvent =>
    match s.power.events with
    | [] => s.emit (.mgmt m true [])
    | (id, level) :: rest => (s.modPower fun p => { p with events := rest }).emit (.mgmt m true [id, level])
  | .debugOpen =>
    if s.secOp = some 0x0100 ∨ s.secOp = some 0x0101 ∨ s.secOp = some 0x0102 then s.emit (.mgmt m false [])
    else s.openDebug.emit (.mgmt m true [keySlots])
  | .writeBank b i =>
    if s.inRecovery then (s.setBank b (i.take fwBankBytes)).emit (.mgmt m true []) else s.emit (.mgmt m false [])
  | .other => s.emit (.mgmt m false [])
  | _ => s.answerFree m

/-- MCTP_MESSAGE: the management controller answers from step 1 of start-up on; while its cores restart, the answer is deferred
(R580, R586). -/
def execMctpMessage (msg : MctpMsg) (s : State) : Res :=
  if s.phase = 0 then .next s
  else if s.six < s.power.mgmtUntil then .next (s.modPower fun p => { p with deferred := p.deferred ++ [msg] })
  else .next (s.answerMsg msg)

/-- Messages deferred are answered. -/
def State.answerDeferred (s : State) : State :=
  (s.each s.power.deferred State.answerMsg).modPower fun p => { p with deferred := [] }

/-- SMBUS_TIMEOUT: SMB_CLK has been low for 35 ms: the module releases the bus, and transactions not answered are dropped (R602). -/
def execSmbusTimeout (s : State) : Res := .next (s.modPower fun p => { p with deferred := [] })

/-- UART_RX_CHARACTER: a character of the service console; one with bad framing is discarded (R601, R602). -/
def execUartRxCharacter (char : BitVec 8) (framing : Bool) (s : State) : Res :=
  .next (if framing then s.modPower fun p => { p with uart := p.uart ++ [char] } else s)

/-- The highest threshold that a temperature in 0.1 °C is past: 1 warning, 2 critical, 3 fatal (R581). -/
def thresholdOf (t : Int) : Nat := if 1050 ≤ t then 3 else if 1000 ≤ t then 2 else if 950 ≤ t then 1 else 0

/-- One sensor refreshes; a temperature that crosses a threshold raises an event. -/
def State.refreshSensor (s : State) (x : Nat × Int) : State :=
  if x.1 = 0 ∨ 15 < x.1 then s
  else
    let s := s.modPower fun p => { p with sensors := mput p.sensors x.1 x.2 }
    let l := thresholdOf x.2
    if x.1 < 4 ∨ l = mget (fun _ => 0) s.power.above x.1 then s
    else s.modPower fun p => { p with above := mput p.above x.1 l, events := p.events ++ [(x.1, l)] }

/-- SENSOR_REFRESH: readings by sensor ID in their units; THERM_N follows the die temperatures, asserted at 100 °C and released at 97 °C.
Values hold while the management cores restart (R570, R581, R586). -/
def execSensorRefresh (readings : List (Fin 16 × Int)) (s : State) : Res :=
  if s.phase = 0 ∨ s.six < s.power.mgmtUntil then .next s
  else
    let s := s.each (readings.map fun x => (x.1.val, x.2)) State.refreshSensor
    let dies := s.power.sensors.filter fun x => decide (4 ≤ x.1)
    let on : Bool := (dies.any fun x => decide (1000 ≤ x.2)) || (s.power.therm && dies.any fun x => decide (970 < x.2))
    .next (s.modPower fun p => { p with therm := on })

end Sys2Proof.Machine
end

