-- ==== Sys2Proof/Machine/Avail.lean ====
section
/-! DEFINITION. Availability and fault handling (R584-R598): the collector and its log, crossbar planes, lockstep, automatic resets,
recovery of a region, and safe state. -/

namespace Sys2Proof.Machine

/-! ### The log (R591, R598). -/

/-- The 32 bytes of an entry. -/
def LogEntry.bytes (e : LogEntry) : List Byte :=
  leBytes e.entry 4 ++ leBytes e.level 1 ++ leBytes e.code 1 ++ leBytes e.sub 1 ++ leBytes e.kind 1 ++ leBytes (e.six % 2 ^ 64) 8 ++
    leBytes (e.six / 2 ^ 64) 1 ++ leBytes 0 1 ++ leBytes e.source 2 ++ leBytes e.pageKey 2 ++ leBytes 0 2 ++ leBytes e.detail 8

/-- Its eight words. -/
def LogEntry.words (e : LogEntry) : List Word := (List.range 8).map fun i => word (u32At e.bytes (4 * i))

/-- READ_LOG. -/
def execReadLog (who : Issuer) (tag : Nat) (s : State) : Res :=
  .next (s.command who keyFLT 0x0100 tag fun s op =>
    match s.log.find? fun e => decide (e.entry = op.a0) with
    | some e => (s.accept keyFLT op).doneWith keyFLT e.words
    | none => s.rejectOp keyFLT op codeRANGE 0x01)

/-- READ_FLASH_LOG: index 0 is the newest entry. -/
def execReadFlashLog (who : Issuer) (tag : Nat) (s : State) : Res :=
  .next (s.command who keyFLT 0x0101 tag fun s op =>
    match s.flashLog.reverse[op.a0]? with
    | some e => (s.accept keyFLT op).doneWith keyFLT e.words
    | none => s.rejectOp keyFLT op codeRANGE 0x01)

/-! ### The collector (R17, R590, R593). -/

/-- The order of release: SIX, then region, then source ID; equal entries keep their order of arrival. -/
def LogEntry.before (a b : LogEntry) : Bool :=
  if a.six ≠ b.six then decide (a.six < b.six)
  else if a.source / 4096 ≠ b.source / 4096 then decide (a.source / 4096 < b.source / 4096)
  else decide (a.source < b.source)

/-- Insert an entry behind those that do not come after it. -/
def insertEntry (e : LogEntry) : List LogEntry → List LogEntry
  | [] => [e]
  | x :: xs => if e.before x then e :: x :: xs else x :: insertEntry e xs

/-- Entries in order of release. -/
def releaseOrder (es : List LogEntry) : List LogEntry := es.foldl (fun l e => insertEntry e l) []

/-- Tasks that hold a grant on the resource of a page (R593, R297). -/
def State.pageHolders (s : State) (key : Nat) : List Task :=
  match blockOf key with
  | .mem => s.holdingTasks.filter fun t => t.hasMem && !t.pieces.isEmpty && decide (t.stack = instanceOf key)
  | .eth => s.holdingTasks.filter fun t => t.grants.any fun g => decide (g.cls = 7 ∧ g.inst = instanceOf key)
  | .bxe => s.holdingTasks.filter fun t => t.grants.any fun g => decide (g.cls = 5 ∧ g.inst = linkOf key)
  | .hif => s.holdingTasks.filter fun t => t.grants.any fun g => decide (g.cls = 6)
  | .adc | .afe | .trm => s.inputTasks (instanceOf key)
  | .rid => if keyRegion key ≤ 2 then s.holdingTasks.filter fun t => t.inRegion (keyRegion key - 1) else s.inputTasks (keyRegion key - 3)
  | _ => s.pageUsers key

/-- An EVENT record of the entry is ready on the stream of a task (R593). -/
def State.eventRecord (s : State) (e : LogEntry) (id : Nat) : State :=
  if (s.stream id).isSome then
    s.addReady .none { kind := 7, flags := 0, task := id, source := 0x0FFF, trigMask := 0, six := e.six, fine := 0, pre := 0, post := 0, payload := e.bytes }
  else s

/-- What Phoin does about a released entry: a block in FAULT, an isolated analysis region (R317, R318, R321). The handling of a block is
abandoned once its region is isolated (R16). -/
def State.phoinEntry (s : State) (e : LogEntry) : State :=
  if e.kind = 3 then (if e.detail = 1 ∨ e.detail = 2 then s.evacuate (e.detail - 1) else s.beginNext.refreshPhn)
  else if e.kind = 2 ∧ keyListed e.pageKey ∧ !s.isolated (keyRegion e.pageKey) then s.phoinFault e.pageKey
  else s

/-- Release one entry. -/
def State.releaseEntry (s : State) (e : LogEntry) : State :=
  let s := s.each ((s.pageHolders e.pageKey).map (·.id)) fun s id => s.eventRecord e id
  if s.isSafe then s else s.phoinEntry e

/-- 5 µs in SCLK periods. -/
def collectorHold : Nat := 5 * sixPerUs

/-- COLLECTOR_RELEASE: the hold of the oldest held entry ends, and every entry whose hold has ended goes to Phoin in order. -/
def execCollectorRelease (s : State) : Res :=
  match releaseOrder s.held with
  | [] => .next s
  | e :: rest =>
    let s := s.advanceTo (e.six + collectorHold)
    let due (x : LogEntry) : Bool := decide (x.six + collectorHold ≤ s.six)
    let s : State := { s with held := s.held.filter fun x => !due x && decide (x ≠ e) }
    .next (s.each (e :: rest.filter due) State.releaseEntry)

/-! ### Planes and management cores (R585, R586). -/

/-- A BLOCK fault of the hub that no page of its own shows: logged with the FLT page (log entry 65). -/
def State.hubFault (s : State) : State := s.logPage keyFLT 2 codeFAULT 0 2 (s.page keyFLT).err.toNat

/-- PLANE_FAILURE: all traffic uses the other plane; with the other plane out, a module-level fault. -/
def execPlaneFailure (plane : Fin 2) (s : State) : Res :=
  let out := s.rf keyFLT Reg.FLT_PLANES.PLANE_OUT
  if nbit out plane then .next s
  else
    let s := (s.wf keyFLT Reg.FLT_PLANES.PLANE_OUT (putBit out plane true)).hubFault
    if out ≠ 0 then .next (s.askSafe 3) else .next (s.modPower fun p => { p with planeTests := p.planeTests ++ [plane.val] })

/-- PLANE_SELFTEST: 1 s after the failure; the plane rejoins when the test passes, and stays out otherwise. -/
def execPlaneSelftest (plane : Fin 2) (ok : Bool) (s : State) : Res :=
  if !s.power.planeTests.contains plane.val then .next s
  else
    let s := s.modPower fun p => { p with planeTests := p.planeTests.filter fun x => decide (x ≠ plane.val) }
    .next (if ok then s.wf keyFLT Reg.FLT_PLANES.PLANE_OUT (putBit (s.rf keyFLT Reg.FLT_PLANES.PLANE_OUT) plane false) else s)

/-- SCLK periods of an hour. -/
def sixPerHour : Nat := 3600 * 1000 * sixPerMs

/-- FLT_PLANES.MISMATCH counts the mismatches of the last hour. -/
def State.refreshMismatch (s : State) : State :=
  let l := s.power.mismatches.filter fun t => decide (s.six < t + sixPerHour)
  (s.modPower fun p => { p with mismatches := l }).wf keyFLT Reg.FLT_PLANES.MISMATCH (min 255 l.length)

/-- LOCKSTEP_MISMATCH: both cores restart from their checkpoint and resume within 20 ms; a third mismatch in an hour is a
module-level fault. -/
def execLockstepMismatch (s : State) : Res :=
  let s := (s.modPower fun p => { p with mismatches := p.mismatches ++ [s.six], mgmtUntil := s.six + 20 * sixPerMs }).refreshMismatch.hubFault
  .next (if 3 ≤ s.power.mismatches.length then s.askSafe 4 else s)

/-- CHECKPOINT: the management cores write a checkpoint, once they have resumed, and answer what waited. -/
def execCheckpoint (s : State) : Res :=
  if s.six < s.power.mgmtUntil then .next s
  else .next ((s.modPower fun p => { p with checkpoint := s.six }).refreshMismatch.answerDeferred)

/-! ### Automatic resets (R587). -/

/-- FAULT_AUTO_RESET: 1 s after a block on a page of Phoin's entered FAULT. A second FAULT within 24 h keeps it out. -/
def execFaultAutoReset (page : Fin 8192) (s : State) : Res :=
  let key := page.val
  if (s.page key).st ≠ .fault ∨ (s.page key).owner ≠ .phoin ∨ s.phn.sticky.contains key ∨ s.isolated (keyRegion key) then .next s
  else
    let again : Bool := match mfind s.phn.faultSix key with | some t => decide (s.six < t + six24h) | none => false
    let s := s.modPhn fun p => { p with faultSix := mput p.faultSix key s.six }
    .next (if again then s.modPhn fun p => { p with sticky := p.sticky ++ [key] } else s.softReset key)

/-! ### Recovery of a region (R589). -/

/-- Every page of a region. -/
def allRegionKeys (r : Nat) : List Nat := regionKeys r fun _ => true

/-- The region's domains go off and on, its blocks reset, and its links start again. -/
def State.restartRegion (s : State) (r : Nat) : State :=
  let ds := (List.range 30).filter fun d => decide (domainRegion d = r) && !nbit (s.rf keyPWR Reg.PWR_TRIPPED.MAP) d
  let s := (s.each ds State.domainDown).each ds State.domainUp
  let s := s.each (allRegionKeys r) fun s k =>
    if (match domainOf k with | some d => s.domainOn d | none => true) = true then (s.powerReset k).enter k .idle else s
  let s := s.each (regionEnds r) fun s k => (s.linkDown k).modPage k fun p => { p with enable := true }
  if 3 ≤ r ∧ s.allConvs.contains (r - 3) then s.convEnter (r - 3) convCLOCKING else s

/-- RECOVER. -/
def execRecover (who : Issuer) (tag : Nat) (s : State) : Res :=
  .next (s.command who keyFLT 0x0102 tag fun s op =>
    let r := op.a0
    if 8 ≤ r then s.rejectOp keyFLT op codeRANGE 0x05
    else if s.isSafe then s.rejectOp keyFLT op codeSTATE 0x04
    else if !s.isolated r ∨ r = 0 then s.rejectOp keyFLT op codeSTATE 0x02
    else (s.accept keyFLT op).restartRegion r)

/-- Trims of one converter from the area in use (R343, R589). -/
def State.loadTrim (s : State) (c : Nat) : State :=
  let k := keyTRM c
  let n := s.areaInUse
  let a := s.calArea n
  let s := s.modPage k fun p => { p with regs := if n = 3 then [] else a.trims.getD c [] }
  let s := if n = 3 then s else (s.wf k Reg.TRM_STAT.SRC n).wf k Reg.TRM_STAT.SURVEY (a.headerOf.surveys.getD c 0)
  let s := (s.wb (keyADC c) Reg.ADC_STAT.TRIMS_LOADED true).updateLocked c
  s.modSvy fun v => { v with startOrder := v.startOrder.filter (fun x => decide (x ≠ c)) ++ [c] }

/-- The user memory of a stack becomes zeros with valid check symbols (R589). -/
def State.zeroStack (s : State) (m : Nat) : State :=
  let lo := userAddr m 0
  let hi := userAddr (m + 1) 0
  let keep (a : Nat) : Bool := decide (a < lo) || decide (hi ≤ a)
  ({ s with mem := s.mem.filter (fun c => keep c.1), poison := s.poison.filter (fun c => keep (64 * c.1)),
            poisonFill := s.poisonFill.filter fun c => keep (64 * c.1) } : State).refreshMem m

/-- The links of a region that join regions in service are ACTIVE, and its domains are on. -/
def State.regionUp (s : State) (r : Nat) : Bool :=
  ((regionEnds r).all fun k => decide (s.linkState k = linkACTIVE) || (s.isolated (farRegion k) && decide (keyRegion k = r)) ||
      (s.isolated (keyRegion k) && decide (keyRegion k ≠ r))) &&
    (List.range 30).all fun d => decide (domainRegion d ≠ r) || s.domainOn d

/-- The region is back: stacks zeroed, trims loaded, and capacity returned (R310, R589). -/
def State.regionBack (s : State) (r : Nat) : State :=
  let s := s.wf keyFLT Reg.FLT_STAT.ISOLATED (putBit (s.rf keyFLT Reg.FLT_STAT.ISOLATED) r false)
  let s := if s.rf keyFLT Reg.FLT_STAT.ISOLATED = 0 ∧ s.rf keyFLT Reg.FLT_STAT.STATE = 1 then s.wf keyFLT Reg.FLT_STAT.STATE 0 else s
  let s := s.modPhn fun p => { p with sticky := p.sticky.filter fun k => decide (keyRegion k ≠ r) }
  let s := if r ≤ 2 then (s.zeroStack (2 * (r - 1))).zeroStack (2 * (r - 1) + 1)
    else if s.allConvs.contains (r - 3) then s.loadTrim (r - 3) else s
  s.logPage keyFLT 0 0 0 4 r

/-- RECOVER_COMPLETE: the self-test, the loading of firmware and the zeroing of stacks end. With `ok` the region returns once its links
and domains are up; a step that fails leaves it isolated. -/
def execRecoverComplete (ok : Bool) (s : State) : Res :=
  match (s.page keyFLT).op with
  | none => .next s
  | some op =>
    if op.opcode ≠ 0x0102 then .next s
    else if !ok then .next ((s.logPage keyFLT 0 codeFAULT 0x03 4 (op.a0 + codeFAULT * 256)).failOp keyFLT codeFAULT 0x03)
    else if !s.regionUp op.a0 then .next s
    else .next (((s.regionBack op.a0).doneOp keyFLT).readmit.refreshPhn)

/-! ### Safe state (R594, R595). -/

/-- Converters take INPUT TERM and ATTEN 15, and trigger outputs are held (R595 step 2). -/
def State.safeInputs (s : State) : State :=
  let s := s.each s.allConvs fun s c => s.afeSet c 3 (s.rf (keyAFE c) Reg.AFE_STAT.ZONE) 15 (ceilTo 32 s.six) false
  (s.holdOutputs 0).holdOutputs 1

/-- HBM parked, display outputs OFF, and every switched domain off but PD20 and PD21 (R595 step 4). -/
def State.safePark (s : State) : State :=
  let s := s.each (List.range 4) fun s m => s.srEnter m srSELF_REFRESH
  let s := s.each [0, 1] fun s o => s.setOut o outOFF
  s.each ((List.range 30).filter fun d => decide (d ≠ 20 ∧ d ≠ 21)) State.domainDown

/-- SAFE_STATE_ENTRY: the sequence of R595, for the fault that asks for it. -/
def execSafeStateEntry (s : State) : Res :=
  match s.safeReq with
  | none => .next s
  | some cause =>
    if s.isSafe ∨ s.phase = 0 then .next s
    else
      let s := (s.wb keyFLT Reg.FLT_STAT.FAULT_N true).wf keyFLT Reg.FLT_STAT.STATE 2
      let s := s.wb keyMOD Reg.MOD_STAT.READY false
      let s := (s.logPage keyFLT 4 0 0 16 cause).irqBit keyFLT 18
      .next ((s.safeInputs.closeAll 3 codeFAULT).safePark)

end Sys2Proof.Machine
end

