-- ==== Sys2Proof/Machine/HostIf.lean ====
section
/-! DEFINITION. The host interface (R66, R271, R447, R457, R483, R564, R602) and the links of the Ethernet ports (R488, R489). -/

namespace Sys2Proof.Machine

/-! ### The PCIe link. -/

/-- The PCIe link is up. -/
def State.pcieLinkUp (s : State) : Bool := decide (s.rf keyHIF Reg.HIF_LINK.WIDTH ≠ 0)

/-- The link goes down (R486, R602). -/
def State.pcieDown (s : State) : State :=
  if s.pcieLinkUp then
    let s : State := { s with pcieUp := none }
    (s.setReg keyHIF Reg.HIF_LINK.WIDTH.off 0).setErr keyHIF 16
  else s

/-- PCIE_LINK_UP: the link trains at x16 or x8 and 16, 32 or 64 GT/s, the last in FLIT mode, once step 8 of start-up is over, PERST_N is
high and PE_REFCLK is valid (R457, R486, R564, R602). -/
def execPcieLinkUp (wide : Bool) (speed : Fin 3) (s : State) : Res :=
  if s.phase < 9 ∨ s.perst ∨ 2 ≤ s.peBad ∨ s.pcieLinkUp ∨ (s.page keyHIF).st = .off then .next s
  else
    let w := (4 + speed.val) + (if wide then 15 else 8) * 16 + boolNat (decide (speed.val = 2)) * 256
    let s : State := { s with pcieUp := some s.six }
    .next ((s.setReg keyHIF Reg.HIF_LINK.WIDTH.off (word w)).irqBit keyHIF 16)

/-- A ring pauses when PERST_N is asserted (R447). -/
def Ring.perst (r : Ring) : Ring := if r.st = .open0 ∧ (r.host ∨ !r.consumer) then { r with st := .paused } else r

/-- What PERST_N does to the host interface (R66, R271, R447, R483). -/
def State.hostReset (s : State) : State :=
  let s : State :=
    { s with msixTable := [], msixPend := [], routes := [], pcieCfg := [], pcieD3 := false, perst := true,
             rings := s.rings.map fun x => (x.1, x.2.perst), writes := s.writes.map fun x => (x.1, { x.2 with held := true }),
             drives := s.drives.map fun x => (x.1, { x.2 with queues := [] }) }
  let s := s.each (s.drives.map (·.1)) State.refreshDrive
  let s := (s.wf keyHIF Reg.HIF_BAR2_SIZE 30).count keyHIF Reg.HIF_PERST_COUNT
  s.closeRings.pcieDown

/-- PERST_N_ASSERT. -/
def execPerstNAssert (s : State) : Res := .next (if s.perst then s else s.hostReset)

/-- PERST_N_DEASSERT: training starts with PCIE_LINK_UP, at the later of this and step 8 of start-up. -/
def execPerstNDeassert (s : State) : Res := .next { s with perst := false }

/-- PE_REFCLK_CHECK: the 1 ms check of PE_REFCLK; the second invalid one takes the link down. -/
def execPeRefclkCheck (valid : Bool) (s : State) : Res :=
  let n := if valid then 0 else s.peBad + 1
  let s : State := { s with peBad := n }
  .next (if n = 2 then s.pcieDown else s)

/-! ### Configuration requests (R457, R564). -/

/-- The type bits of a BAR register: BAR0 is 64-bit, BAR2 and BAR4 64-bit and prefetchable. -/
def barType (dword : Nat) : Nat := if dword = 4 then 0x4 else if dword = 6 ∨ dword = 8 then 0xC else 0

/-- log2 of the size of the BAR that a register belongs to. -/
def State.barLog2 (s : State) (dword : Nat) : Nat :=
  if dword < 6 then 26 else if dword < 8 then s.rf keyHIF Reg.HIF_BAR2_SIZE else 30

/-- The address bits that a write to a BAR register keeps. -/
def State.barValue (s : State) (dword : Nat) (w : Word) : Word :=
  let g := s.barLog2 dword
  if dword % 2 = 0 then word (w.toNat / 2 ^ min 32 g * 2 ^ min 32 g + barType dword) else word (w.toNat / 2 ^ (g - 32) * 2 ^ (g - 32))

/-- The place of the MSI-X capability: a word past the header. -/
def msixWordAt : Nat := 16 + Config.msixCap % 45

/-- The MSI-X capability (R62; log entry 89): 2,048 vectors, with the table and the pending bits in BAR0 at the addresses of R32. Its enable
and mask bits are as written. -/
def msixCapWord (i : Nat) (written : Word) : Word :=
  if i = 0 then word (0x11 + Config.msixNext % 256 * 2 ^ 8 + 2047 * 2 ^ 16) ||| (written &&& 0xC0000000)
  else if i = 1 then word 0x03F00000 else word 0x03F08000

/-- What a configuration register reads as: the BARs, the MSI-X capability, and what was written; the spec gives no other value (log entry
47). -/
def State.cfgRead (s : State) (dword : Nat) : Word × State :=
  if msixWordAt ≤ dword ∧ dword < msixWordAt + 3 then (msixCapWord (dword - msixWordAt) (mget (fun _ => 0) s.pcieCfg dword), s)
  else
    match mfind s.pcieCfg dword with
    | some w => (w, s)
    | none => if 4 ≤ dword ∧ dword ≤ 9 then (word (barType dword), s) else s.drawWord

/-- CONFIG_REQUEST: answered with Request Retry Status while the endpoint is not ready, for at most 20 ms after the link came up;
`retry` says that it is not ready. -/
def execConfigRequest (req : CfgReq) (retry : Bool) (s : State) : Res :=
  match s.pcieUp with
  | none => .next s
  | some t =>
    if retry ∧ s.six < t + 20 * sixPerMs then .next (s.emit .pcieRetry)
    else
      match req with
      | .read d =>
        let x := s.cfgRead d
        .next (x.2.emit (.pcieReply (leBytes x.1.toNat 4)))
      | .write d v =>
        let w := if 4 ≤ d.val ∧ d.val ≤ 9 then s.barValue d v else v
        .next { s with pcieCfg := mput s.pcieCfg d w }
      | .resizeBar2 n => .next (if 30 ≤ n.val ∧ n.val ≤ 37 then s.wf keyHIF Reg.HIF_BAR2_SIZE n else s)
      | .power d => .next { s with pcieD3 := d }

/-! ### Ethernet links (R488, R489, R602). -/

/-- The link of a port goes down. -/
def State.ethDown (s : State) (p : Nat) : State :=
  if s.ethUp p then ((s.wb (keyETH p) Reg.ETH_STAT.LINK_UP false).setErr (keyETH p) 16).irqBit (keyETH p) 16 else s

/-- ETH_REFCLK_CHECK: the 1 ms check of ETH_REFCLK; the second invalid one puts every port in PCS_FAULT. -/
def execEthRefclkCheck (valid : Bool) (s : State) : Res :=
  let n := if valid then 0 else s.ethBad + 1
  let s : State := { s with ethBad := n }
  .next (if n = 2 then s.each (List.range 4) fun s p => (s.ethDown p).enterFault (keyETH p) 18 else s)

/-- Load on a port's class 7 (R297). -/
def State.ethLoad (s : State) (p : Nat) : Nat := loadOf (s.holdingTasks.flatMap (·.grants)) 7 p 0

/-- After a change of speed, streams for which the port has no room are SUSPENDED, last in placement order first, and what fits returns
(R310, R489). -/
def State.readmitPort (s : State) (p : Nat) : State :=
  let on := (placementOrder (s.holdingTasks.filter fun t => t.grants.any fun g => decide (g.cls = 7 ∧ g.inst = p))).reverse
  let s := s.each (on.map (·.id)) fun s id => if s.ethCapacity p < s.ethLoad p then s.suspendTask id causeNO_RESOURCE else s
  s.readmit.refreshPhn

/-- ETH_LINK_CHANGE: a port's link goes up, with ETH_CFG.SPEED in use from then on, or down. -/
def execEthLinkChange (port : Fin 4) (up : Bool) (s : State) : Res :=
  let key := keyETH port
  if (s.page key).st = .off ∨ s.ethUp port = up then .next s
  else if !up then .next (s.ethDown port)
  else if s.pageFaulted key ∨ 2 ≤ s.ethBad then .next s
  else
    let old := s.rf key Reg.ETH_STAT.SPEED
    let new := s.rf key Reg.ETH_CFG.SPEED
    let s := ((s.wf key Reg.ETH_STAT.SPEED new).wb key Reg.ETH_STAT.LINK_UP true).irqBit key 16
    .next (if old = new then s else s.readmitPort port)

end Sys2Proof.Machine
end

