-- ==== Sys2Proof/Machine/Nvme.lean ====
section
/-! DEFINITION. NVMe commands, the sheet store, BAR2 and the write aperture (R457-R469, R486, R487). -/

namespace Sys2Proof.Machine

/-! ### Completions (R464, R465). -/

/-- NVME_COMPLETION: the write in an aperture slot completes with success or an error (R465). -/
def execNvmeCompletion (slot : Fin 1008) (ok : Bool) (s : State) : Res :=
  match mfind s.writes slot with
  | none => .next s
  | some w =>
    if w.held then .next s
    else
      let i := match s.drive w.drive with | some v => v.queues.findIdx? fun (q : QueuePair) => decide (q.qid = w.qid) | none => none
      let s := match s.drive w.drive, i with
        | some v, some i =>
          match v.queues[i]? with
          | some q =>
            let head := (q.cqHead + 1) % max 1 q.cqEntries
            (s.modDrive w.drive fun v => { v with queues := setNth v.queues i { q with cqHead := head } }).emit
              (.hostWrite q.cqDoorbell ((leBytes head 4).map some))
          | none => s
        | _, _ => s
      if ok then
        let s := { s with writes := mdel s.writes slot }
        let s := s.each w.seqs fun s q => s.modRec w.task w.drive q fun r => { r with open0 := r.open0 - 1 }
        .next ((s.reissueHeld w.drive).refreshDrive w.drive)
      else .next (s.writeFailed w)

/-- NVME_WRITE_TIMEOUT: a write has no completion 5 s after its issue (R465). -/
def execNvmeWriteTimeout (slot : Fin 1008) (s : State) : Res :=
  match mfind s.writes slot with
  | none => .next s
  | some w => if w.held then .next s else .next ((s.advanceTo (w.issuedAt + 5000 * sixPerMs)).writeFailed w)

/-! ### BAR4 and BAR2 (R349, R458, R459). -/

/-- Base of BAR4 on the bus, as the host assigned it: dwords 8 and 9 of the configuration header (log entry 47). -/
def State.bar4 (s : State) : Nat :=
  (mget (fun _ => (0 : Word)) s.pcieCfg 8).toNat / 16 * 16 + (mget (fun _ => (0 : Word)) s.pcieCfg 9).toNat * 2 ^ 32

/-- Bytes of the PRP list of a slot: the bus address of each page of its data but the first (R459, R464; log entry 52). -/
def State.prpList (s : State) (w : NvmeWrite) : List Byte :=
  (List.range (w.bytes.length / 4096 - 1)).flatMap fun i => leBytes (s.bar4 + 0x1000000 + w.slot * 2 ^ 20 + (i + 1) * 4096) 8

/-- APERTURE_READ: a drive reads an aperture slot or a PRP list at an offset. A slot that no command uses gives zeros, logged as
UNMAPPED (R459, R464). -/
def execApertureRead (prp : Bool) (slot : Fin 1008) (offset : BitVec 20) (len : Fin 4097) (s : State) : Res :=
  let off := offset.toNat
  let bytes (bs : List Byte) := (List.range len).map fun i => bs.getD (off + i) 0
  match mfind s.writes slot with
  | some w => .next (s.emit (.pcieReply (bytes (if prp then s.prpList w else w.bytes))))
  | none =>
    let addr := if prp then 0xE00000 + slot.val * 2048 + off % 2048 else 0x1000000 + slot.val * 2 ^ 20 + off
    .next ((s.emit (.pcieReply (bytes []))).logUnmapped addr)

/-- User address of BAR2 offset 0. -/
def State.bar2Base (s : State) : Nat := (s.reg keyHIF 0x104).toNat + (s.reg keyHIF 0x108).toNat % 65536 * 2 ^ 32

/-- A write through BAR2 crosses L5 or L6 on its way to memory: one that meets a fence is discarded (R9, R415; log entry 77). -/
def State.bar2Write (s : State) (u : Nat) (bs : List Byte) : State :=
  if s.memPath 0 u = .waits then s else s.sendMem 0 u (bs.map fun b => (b, false))

/-- A read through BAR2 crosses L5 or L6: one that meets a fence returns zeros (R9, R415; log entry 77). -/
def State.bar2Read (s : State) (u n : Nat) : State :=
  match s.memPath 0 u with
  | .waits => s
  | .fenced => s.emit (.pcieReply (List.replicate n 0))
  | .clear =>
    let r := s.fetchMem u n
    r.1.emit (.pcieReply (r.2.map (·.1)))

/-- BAR2_ACCESS: a read or a write of user memory at HIF_BAR2_BASE plus the offset; holes follow R351 (R349, R458). One whose link is not
up has not come to the memory (log entry 77). -/
def execBar2Access (offset : BitVec 37) (write : Option (List Byte)) (len : Fin 4097) (s : State) : Res :=
  let u := s.bar2Base + offset.toNat
  match write with
  | some bs => .next (s.bar2Write u bs)
  | none => .next (s.bar2Read u len)

/-! ### Queue pairs (R462, R463, R487). -/

/-- Bytes of queue memory that a queue pair takes. -/
def QueuePair.ranges (q : QueuePair) : List (Nat × Nat) := [(q.sqOffset, 64 * q.sqEntries), (q.cqOffset, 16 * q.cqEntries)]

/-- Two ranges overlap. -/
def overlaps (a b : Nat × Nat) : Bool := decide (a.1 < b.1 + b.2) && decide (b.1 < a.1 + a.2)

/-- A range lies in queue memory (R459). -/
def inQueueMemory (r : Nat × Nat) : Bool := decide (0x100000 ≤ r.1) && decide (r.1 + r.2 ≤ 0xE00000)

/-- The queue pair of an R463 record. -/
def queueOf (b : List Byte) : QueuePair :=
  { qid := u16At b 2, sqEntries := u16At b 4, cqEntries := u16At b 6, sqOffset := u32At b 8, cqOffset := u32At b 12,
    sqDoorbell := u64At b 0x10, cqDoorbell := u64At b 0x18, sqTail := 0, cqHead := 0 }

/-- Some drive's stream uses a drive. -/
def State.driveUsed (s : State) (d : Nat) : Bool := !(s.driveTasks d).isEmpty

/-- ADD_QUEUE: register the queue pair of the 64-byte record that host memory holds at ARG0, ARG1; `record` is none where it cannot
be read. The first pair of a drive registers it; writes held since a host reboot go first (R462, R463, R483, R487). -/
def execAddQueue (who : Issuer) (tag : Nat) (record : Option (List Byte)) (s : State) : Res :=
  .next (s.command who keyNVI 0x0100 tag fun s op =>
    match record with
    | none => s.rejectOp keyNVI op codeFAULT 0x05
    | some b =>
      let d := byteAt b 0
      let q := queueOf b
      let same := match s.drive d with
        | some v => decide (v.nsid = u32At b 0x20 ∧ v.lbaLog2 = byteAt b 0x24 ∧ v.mdtsLog2 = byteAt b 0x25 ∧ v.lbas = u64At b 0x28)
        | none => true
      let queues := match s.drive d with | some v => v.queues | none => []
      let others := s.drives.flatMap fun e => (e.2.queues.filter fun x => !(decide (e.1 = d) && decide (x.qid = q.qid))).flatMap (·.ranges)
      if 32 ≤ d ∨ q.qid = 0 ∨ q.sqEntries < 2 ∨ 256 < q.sqEntries ∨ q.cqEntries < 2 ∨ 256 < q.cqEntries ∨ q.sqOffset % 4096 ≠ 0 ∨
          q.cqOffset % 4096 ≠ 0 ∨ (byteAt b 0x24 ≠ 9 ∧ byteAt b 0x24 ≠ 12) ∨ byteAt b 0x25 < 17 ∨ 30 < byteAt b 0x25 ∨ !same then
        s.rejectOp keyNVI op codeRANGE 0x02
      else if q.ranges.any (fun r => !inQueueMemory r || others.any (overlaps r)) || overlaps (q.sqOffset, 64 * q.sqEntries) (q.cqOffset, 16 * q.cqEntries) ||
          (decide (64 ≤ queues.length) && queues.all fun x => decide (x.qid ≠ q.qid)) then
        s.rejectOp keyNVI op codeNOSPACE 0x01
      else
        let s := s.accept keyNVI op
        let v : Drive := match s.drive d with
          | some v => v
          | none => { nsid := u32At b 0x20, lbaLog2 := byteAt b 0x24, mdtsLog2 := byteAt b 0x25, lbas := u64At b 0x28, queues := [], nextQueue := 0,
                      storeId := 0, wrap := false, gens := [], nextExt := 0 }
        let v := { v with queues := (v.queues.filter fun x => decide (x.qid ≠ q.qid)) ++ [q] }
        let s := ({ s with drives := mput s.drives d v }).nviMark nviDRIVES d true
        ((s.reissueHeld d).refreshDrive d).doneOp keyNVI)

/-- REMOVE_QUEUE: take a queue pair away; a drive in use by a stream keeps its pairs (R487). -/
def execRemoveQueue (who : Issuer) (tag : Nat) (s : State) : Res :=
  .next (s.command who keyNVI 0x0101 tag fun s op =>
    match s.drive op.a0 with
    | none => s.rejectOp keyNVI op codeRANGE 0
    | some v =>
      if v.queues.all fun q => decide (q.qid ≠ op.a1) then s.rejectOp keyNVI op codeRANGE 0
      else if s.driveUsed op.a0 then s.rejectOp keyNVI op codeSTATE 0x03
      else
        let s := s.accept keyNVI op
        let queues := v.queues.filter fun q => decide (q.qid ≠ op.a1)
        let s := if queues.isEmpty then
            (({ s with drives := mdel s.drives op.a0 }.nviMark nviDRIVES op.a0 false).nviMark nviMOUNTED op.a0 false)
          else s.modDrive op.a0 fun v => { v with queues := queues, nextQueue := 0 }
        (s.refreshDrive op.a0).doneOp keyNVI)

/-! ### The sheet store (R466-R469). -/

/-- A superblock (R466). -/
def superblock (index drives storeId blocks extents : Nat) (wrap : Bool) : List Byte :=
  let h := leBytes 0x4C535342 4 ++ leBytes 1 2 ++ leBytes index 1 ++ leBytes drives 1 ++ leBytes storeId 8 ++ leBytes blocks 8 ++
    leBytes extents 4 ++ leBytes (boolNat wrap) 1 ++ leBytes 0 31
  h ++ leBytes (crc32c h) 4

/-- STORE_INIT: block 0 and the last block take the superblock, and the drive is no longer mounted. `ok` is false where the drive
does not take the writes (R466, R487; log entry 53). -/
def execStoreInit (who : Issuer) (tag : Nat) (ok : Bool) (s : State) : Res :=
  .next (s.command who keyNVI 0x0102 tag fun s op =>
    let d := op.a0 % 32
    let drives := op.a3 % 256
    match s.drive d with
    | none => s.rejectOp keyNVI op codeFAULT 0x05
    | some v =>
      if s.nviBit nviFAILED d then s.rejectOp keyNVI op codeFAULT 0x06
      else if s.driveUsed d then s.rejectOp keyNVI op codeSTATE 0x03
      else if drives = 0 ∨ 32 < drives ∨ drives ≤ op.a3 / 256 % 256 ∨ v.blocks < 2 then s.rejectOp keyNVI op codeRANGE 0x02
      else
        let s := s.accept keyNVI op
        if !ok then s.failOp keyNVI codeFAULT 0x05
        else
          let b := superblock (op.a3 / 256 % 256) drives (op.a1 + op.a2 * 2 ^ 32) v.blocks v.extents (nbit op.a3 16)
          let b := b ++ List.replicate (4096 - b.length) 0
          let s := (s.emit (.nvmeData d 0 b)).emit (.nvmeData d (v.blocks - 1) b)
          let s := ((s.nviMark nviMOUNTED d false).nviMark nviFULL d false).modDrive d fun v =>
            { v with storeId := op.a1 + op.a2 * 2 ^ 32, wrap := nbit op.a3 16, gens := [], nextExt := 0 }
          s.doneOp keyNVI)

/-- A superblock with its MAGIC, VERSION and CRC right (R466). -/
def superblockOk (b : List Byte) : Bool :=
  decide (u32At b 0 = 0x4C535342 ∧ u16At b 4 = 1 ∧ u32At b 0x3C = crc32c (b.take 0x3C)) && decide (64 ≤ b.length)

/-- GEN of an extent header that belongs to a store (R467, R469). -/
def headerGen (storeId : Nat) (b : List Byte) : Option Nat :=
  if 64 ≤ b.length ∧ u32At b 0 = 0x4C534558 ∧ u32At b 0x3C = crc32c (b.take 0x3C) ∧ u64At b 0x10 = storeId then some (u64At b 8) else none

/-- STORE_MOUNT: steps 1 and 2 of R469 on one drive. `first` and `last` are its blocks 0 and last, none where not readable;
`headers` are block 0 of its extents in index order (R469, R487). -/
def execStoreMount (who : Issuer) (tag : Nat) (first last : Option (List Byte)) (headers : List (List Byte)) (s : State) : Res :=
  .next (s.command who keyNVI 0x0103 tag fun s op =>
    let d := op.a0 % 32
    match s.drive d with
    | none => s.rejectOp keyNVI op codeFAULT 0x05
    | some v =>
      if s.nviBit nviFAILED d then s.rejectOp keyNVI op codeFAULT 0x06
      else if s.driveUsed d then s.rejectOp keyNVI op codeSTATE 0x03
      else
        let s := s.accept keyNVI op
        match first, last with
        | none, none => s.failOp keyNVI codeFAULT 0x05
        | _, _ =>
          match ([first, last].filterMap id).find? superblockOk with
          | none => s.failOp keyNVI codeSTATE 0x04
          | some b =>
            let id := u64At b 8
            let n := min (u32At b 0x18) v.extents
            let gens := (List.range n).filterMap fun i => (headerGen id (headers.getD i [])).map fun g => (i, g)
            let top := gens.foldl (fun m e => max m e.2) 0
            let next := match gens.find? fun e => decide (e.2 = top) with | some e => (e.1 + 1) % max 1 n | none => 0
            let s := s.modDrive d fun v => { v with storeId := id, wrap := decide (byteAt b 0x1C = 1), gens := gens, nextExt := next }
            let full := decide (byteAt b 0x1C ≠ 1) && decide (n ≤ gens.length)
            ((s.nviMark nviMOUNTED d true).nviMark nviFULL d full).doneWith keyNVI [word gens.length, word top, word (top / 2 ^ 32)])

end Sys2Proof.Machine
end

