-- ==== Sys2Proof/Machine/Playback.lean ====
section
/-! DEFINITION. Playback (R481, R482). -/

namespace Sys2Proof.Machine

/-- The feed of a PLAYBACK task; it begins at FROM_SEQ. -/
def State.playback (s : State) (t : Task) : Playback :=
  mget (fun _ => { nextSeq := dFROM_SEQ t.desc, nextLabel := none, samples := [], gaps := [], base := none, periods := [] }) s.playbacks
    (t.id % 4096)

/-- Change a feed. -/
def State.modPlayback (s : State) (t : Task) (f : Playback → Playback) : State :=
  { s with playbacks := mput s.playbacks (t.id % 4096) (f (s.playback t)) }

/-- Samples of an IQ payload as 16-bit components: IQ12 components return to their place (R234; log entry 54). -/
def playSamples (kind n : Nat) (raw : List Byte) : List (Int × Int) :=
  let parts := sampleParts kind raw
  (List.range n).map fun i =>
    let a := parts.getD (2 * i) 0
    let b := parts.getD (2 * i + 1) 0
    if kind = 2 then (16 * signedOf 12 a, 16 * signedOf 12 b) else (signedOf 16 a, signedOf 16 b)

/-- The payload of a record as it was before encryption and compression; `none` when the tag or the inflation fails (R456, R481). -/
def State.openPayload (s : State) (t : Task) (b : List Byte) : Option (State × List Byte) :=
  let head := b.take 64
  let flags := u32At b 4
  let body := b.drop 64
  let plain := if nbit flags 10 then
      match mfind s.keyStore (dKEY_SLOT t.desc) with
      | some k => gcmDecrypt k (beB (u32At b 8) 4 ++ beB (u64At b 0x30) 8) (head.take 0x3C) body
      | none => none
    else some body
  match plain with
  | none => none
  | some p =>
    if nbit flags 9 then
      match s.freeEngine with
      | none => none
      | some n => match s.inflateOn n p with
        | (s, some out) => some (s, out)
        | (_, none) => none
    else some (s, p)

/-- The samples of a record join the feed, with GAP_BEFORE where SEQ or labels jump (R482). -/
def State.feed (s : State) (t : Task) (kind seq : Nat) (payload : List Byte) : State :=
  let p := s.playback t
  let n := u32At payload 0x10
  let period := u32At payload 0x0C
  let first := u64At payload 0 + byteAt payload 8 * 2 ^ 64
  let iq := playSamples kind n (payload.drop 32)
  let gap := decide (seq ≠ p.nextSeq) || (match p.nextLabel with | some l => decide (l ≠ first) | none => false)
  s.modPlayback t fun p =>
    { p with samples := p.samples ++ (List.range n).map fun i => (first + i * period, iq.getD i (0, 0)),
             gaps := if gap then p.gaps ++ [first] else p.gaps,
             nextLabel := some (first + n * period), base := some (p.base.getD first), nextSeq := seq + 1 }

/-- PLAYBACK_RECORD: the next record of a PLAYBACK task's source is checked, opened, stripped and fed; a record that fails ends the
task. `streamId` is that of the extent header, for a sheet store; a record below FROM_SEQ or a second copy is passed over, and one
that has to be inflated waits for an engine (R469, R481, R482, R511). -/
def execPlaybackRecord (task : BitVec 32) (streamId : BitVec 32) (record : List Byte) (s : State) : Res :=
  match s.task task.toNat with
  | none => .next s
  | some t =>
    if dTYPE t.desc ≠ 5 ∨ t.st ≠ .running then .next s
    else
      let ring := dSRC_ID t.desc % 32768
      if dSRC_KIND t.desc = 1 ∧ (s.ring ring).entries.isEmpty then .next s
      else
        let sid := if dSRC_KIND t.desc = 2 then streamId.toNat else u32At record 8
        let seq := u64At record 0x30
        let kind := byteAt record 3
        let good := decide (64 ≤ record.length) && decide (u16At record 0 = 0x474C ∧ byteAt record 2 = 1) &&
          decide (record.length = 64 + u32At record 0x38) &&
          decide (u32At record 0x3C = crc32cFrom (Nat.xor sid (seq % 2 ^ 32)) (record.take 0x3C ++ record.drop 64))
        let took (s : State) := if dSRC_KIND t.desc = 1 then s.modRing ring fun r => { r with entries := r.entries.drop 1 } else s
        if !good then .next ((took s).failTask t.id codeINTEGRITY 0)
        else if seq < (s.playback t).nextSeq then .next (took s)
        else if kind ≠ 1 ∧ kind ≠ 2 then
          .next (((took s).count keySTR Reg.STR_PB_SKIPPED).modPlayback t fun p =>
            { p with nextSeq := seq + 1, gaps := if seq ≠ p.nextSeq then p.gaps ++ (p.nextLabel.toList) else p.gaps })
        else if nbit (u32At record 4) 9 && s.freeEngine.isNone then .next s
        else
          match s.openPayload t record with
          | none => .next ((took s).failTask t.id codeINTEGRITY 0)
          | some (s, payload) => .next ((took s).feed t kind seq payload)

/-- Pipelines of the tasks that a PLAYBACK task feeds (R275, R481). -/
def State.fedPipes (s : State) (id : Nat) : List Nat :=
  ((s.holdingTasks.filter fun t => decide (dCHANNEL t.desc = 0x40 ∧ dINPUT_TASK t.desc = id)).flatMap (·.pipes)).eraseDups

/-- A played sample enters a pipeline at its filter chain's output, with the label it carries (R482). -/
def State.playInto (s : State) (p label : Nat) (i q : Int) (marks : Nat) : State :=
  let lp := s.labelP p
  (s.modChain p fun c => { c with nextLabel := label + lp }).pushOutput p { label := label, i := i, q := q, marks := marks, src := 0xF }

/-- PLAYBACK_RELEASE: the next sample of a feed is released: with PACE 0 at the task's start plus its offset from the first label
(R482). -/
def execPlaybackRelease (task : BitVec 32) (s : State) : Res :=
  match s.task task.toNat with
  | none => .next s
  | some t =>
    if dTYPE t.desc ≠ 5 ∨ t.st ≠ .running then .next s
    else
      let p := s.playback t
      match p.samples with
      | [] => .next s
      | (label, i, q) :: rest =>
        let s := if dPACE t.desc = 0 then s.advanceTo (t.startedAt + (label - p.base.getD label)) else s
        let marks := if p.gaps.contains label then markGAP else 0
        let s := s.modPlayback t fun p => { p with samples := rest, gaps := p.gaps.filter fun g => decide (g ≠ label) }
        .next (s.each (s.fedPipes t.id) fun s pipe => s.playInto pipe label i q marks)

end Sys2Proof.Machine
end

