-- ==== Sys2Proof/Machine/Dispatch.lean ====
section
/-! DEFINITION. What each command does: one arm per constructor of Instr, each one direct call of its meaning. -/

namespace Sys2Proof.Machine

def exec (i : Instr) (s : State) : Host.Outcome State Fault Refusal :=
  match i with
  | .startCmd who key tag now => Sys2Proof.Machine.execStart who key tag now s
  | .stop who key tag now => Sys2Proof.Machine.execStop who key tag now s
  | .suspend who key tag => Sys2Proof.Machine.execSuspend who key tag s
  | .resume who key tag => Sys2Proof.Machine.execResume who key tag s
  | .cancel who key tag => Sys2Proof.Machine.execCancel who key tag s
  | .commit who key tag => Sys2Proof.Machine.execCommit who key tag s
  | .query who key tag => Sys2Proof.Machine.execQuery who key tag s
  | .pgResAckWrite who key value => Sys2Proof.Machine.execPgResAckWrite who key value s
  | .softReset who key => Sys2Proof.Machine.execSoftReset who key s
  | .freezeWrite who key on => Sys2Proof.Machine.execFreezeWrite who key on s
  | .enableWrite who key on => Sys2Proof.Machine.execEnableWrite who key on s
  | .lockSet who key => Sys2Proof.Machine.execLockSet who key s
  | .pgIrqWrite who key en value => Sys2Proof.Machine.execPgIrqWrite who key en value s
  | .msixUnmask vector => Sys2Proof.Machine.execMsixUnmask vector s
  | .registerWrite who key index value full => Sys2Proof.Machine.execRegisterWrite who key index value full s
  | .windowWrite who addr value full => Sys2Proof.Machine.execWindowWrite who addr value full s
  | .unmappedAccess addr => Sys2Proof.Machine.execUnmappedAccess addr s
  | .routeIrq who tag => Sys2Proof.Machine.execRouteIrq who tag s
  | .perstNAssert => Sys2Proof.Machine.execPerstNAssert s
  | .blockResetComplete key => Sys2Proof.Machine.execBlockResetComplete key s
  | .blockFault key bit => Sys2Proof.Machine.execBlockFault key bit s
  | .cellError key corrected => Sys2Proof.Machine.execCellError key corrected s
  | .refCheck amplMv hz ptpOk target fit => Sys2Proof.Machine.execRefCheck amplMv hz ptpOk target fit s
  | .tbLocked => Sys2Proof.Machine.execTbLocked s
  | .xtalFault => Sys2Proof.Machine.execXtalFault s
  | .benchmark y uncertainty => Sys2Proof.Machine.execBenchmark y uncertainty s
  | .tbsSixRead => Sys2Proof.Machine.execTbsSixRead s
  | .ptpMessage port domain transport kind masterPs six fine => Sys2Proof.Machine.execPtpMessage port domain transport kind masterPs six fine s
  | .ppsInEdge six fine highNs => Sys2Proof.Machine.execPpsInEdge six fine highNs s
  | .ppsOutEdge six => Sys2Proof.Machine.execPpsOutEdge six s
  | .setTime who tag => Sys2Proof.Machine.execSetTime who tag s
  | .armSync who tag => Sys2Proof.Machine.execArmSync who tag s
  | .syncNow who tag => Sys2Proof.Machine.execSyncNow who tag s
  | .syncinEdge six fine falling heldNs => Sys2Proof.Machine.execSyncinEdge six fine falling heldNs s
  | .syncResetApply => Sys2Proof.Machine.execSyncResetApply s
  | .armSyncTimeout => Sys2Proof.Machine.execArmSyncTimeout s
  | .syncoutRepeat => Sys2Proof.Machine.execSyncoutRepeat s
  | .measure who tag => Sys2Proof.Machine.execMeasure who tag s
  | .freqMeas who tag => Sys2Proof.Machine.execFreqMeas who tag s
  | .tdcEdge input falling six fine => Sys2Proof.Machine.execTdcEdge input falling six fine s
  | .tdcTimeout => Sys2Proof.Machine.execTdcTimeout s
  | .tdcStartWaitExpiry => Sys2Proof.Machine.execTdcStartWaitExpiry s
  | .freqGateEnd => Sys2Proof.Machine.execFreqGateEnd s
  | .afeCommitAt who conv tag => Sys2Proof.Machine.execAfeCommitAt who conv tag s
  | .afeApply conv => Sys2Proof.Machine.execAfeApply conv s
  | .afeSettled conv => Sys2Proof.Machine.execAfeSettled conv s
  | .overload conv level heldNs six => Sys2Proof.Machine.execOverload conv level heldNs six s
  | .afeDetUpdate conv level heldNs => Sys2Proof.Machine.execAfeDetUpdate conv level heldNs s
  | .subadcFault conv k => Sys2Proof.Machine.execSubadcFault conv k s
  | .sampleGroupLaunch conv codes => Sys2Proof.Machine.execSampleGroupLaunch conv codes s
  | .frameRelease conv iq insSat => Sys2Proof.Machine.execFrameRelease conv iq insSat s
  | .adcCfgWrite who conv value => Sys2Proof.Machine.execAdcCfgWrite who conv value s
  | .sclkLock conv => Sys2Proof.Machine.execSclkLock conv s
  | .adcTempUpdate conv temp => Sys2Proof.Machine.execAdcTempUpdate conv temp s
  | .spareAssign conv => Sys2Proof.Machine.execSpareAssign conv s
  | .alignCorrelationDone delayFs gainMdb corrPpm => Sys2Proof.Machine.execAlignCorrelationDone delayFs gainMdb corrPpm s
  | .alignTimeout => Sys2Proof.Machine.execAlignTimeout s
  | .handover => Sys2Proof.Machine.execHandover s
  | .handbackCheck delayFs gainMdb corrPpm => Sys2Proof.Machine.execHandbackCheck delayFs gainMdb corrPpm s
  | .align who conv tag shift fracFs gainMdb corrPpm => Sys2Proof.Machine.execAlign who conv tag shift fracFs gainMdb corrPpm s
  | .ddcCommitAt who pipe tag => Sys2Proof.Machine.execDdcCommitAt who pipe tag s
  | .ddcApply pipe => Sys2Proof.Machine.execDdcApply pipe s
  | .xfadeDone pipe inset => Sys2Proof.Machine.execXfadeDone pipe inset s
  | .chainClean pipe => Sys2Proof.Machine.execChainClean pipe s
  | .dcCfgWrite who pipe value => Sys2Proof.Machine.execDcCfgWrite who pipe value s
  | .insCommitAt who pipe tag => Sys2Proof.Machine.execInsCommitAt who pipe tag s
  | .insApply pipe => Sys2Proof.Machine.execInsApply pipe s
  | .fftCommitAt who pipe tag => Sys2Proof.Machine.execFftCommitAt who pipe tag s
  | .fftApply pipe => Sys2Proof.Machine.execFftApply pipe s
  | .spectrum pipe bins sat => Sys2Proof.Machine.execSpectrum pipe bins sat s
  | .grtTick pipe => Sys2Proof.Machine.execGrtTick pipe s
  | .grtFrameBoundary pipe => Sys2Proof.Machine.execGrtFrameBoundary pipe s
  | .grtReadoutDone pipe => Sys2Proof.Machine.execGrtReadoutDone pipe s
  | .clear who pipe tag => Sys2Proof.Machine.execClear who pipe tag s
  | .grtApply pipe => Sys2Proof.Machine.execGrtApply pipe s
  | .grtMapSelWrite who pipe value => Sys2Proof.Machine.execGrtMapSelWrite who pipe value s
  | .extTrigEdge input falling six fine heldNs => Sys2Proof.Machine.execExtTrigEdge input falling six fine heldNs s
  | .swTrig who region tag => Sys2Proof.Machine.execSwTrig who region tag s
  | .swTrigAt who region tag => Sys2Proof.Machine.execSwTrigAt who region tag s
  | .swTrigAtFire region => Sys2Proof.Machine.execSwTrigAtFire region s
  | .eventEval pipe ev => Sys2Proof.Machine.execEventEval pipe ev s
  | .seqWindowExpiry pipe ev => Sys2Proof.Machine.execSeqWindowExpiry pipe ev s
  | .holdoffEnd pipe ev => Sys2Proof.Machine.execHoldoffEnd pipe ev s
  | .trigOutPulseEnd region six => Sys2Proof.Machine.execTrigOutPulseEnd region six s
  | .ctrCommitAt who pipe tag => Sys2Proof.Machine.execCtrCommitAt who pipe tag s
  | .ttrCommitAt who pipe tag => Sys2Proof.Machine.execTtrCommitAt who pipe tag s
  | .trgCommitAt who region tag => Sys2Proof.Machine.execTrgCommitAt who region tag s
  | .triggerApply region page => Sys2Proof.Machine.execTriggerApply region page s
  | .captureSample pipe => Sys2Proof.Machine.execCaptureSample pipe s
  | .sheetReady pipe => Sys2Proof.Machine.execSheetReady pipe s
  | .releaseSheet who pipe tag => Sys2Proof.Machine.execReleaseSheet who pipe tag s
  | .restart who pipe tag => Sys2Proof.Machine.execRestart who pipe tag s
  | .writerAutoResume pipe => Sys2Proof.Machine.execWriterAutoResume pipe s
  | .recordPlaneWrite pipe => Sys2Proof.Machine.execRecordPlaneWrite pipe s
  | .recordPlaneRdWrite who pipe plane value => Sys2Proof.Machine.execRecordPlaneRdWrite who pipe plane value s
  | .traceBoundary pipe => Sys2Proof.Machine.execTraceBoundary pipe s
  | .capApply pipe => Sys2Proof.Machine.execCapApply pipe s
  | .redApply pipe => Sys2Proof.Machine.execRedApply pipe s
  | .sheetCut pipe => Sys2Proof.Machine.execSheetCut pipe s
  | .phnDoorbell count readOk => Sys2Proof.Machine.execPhnDoorbell count readOk s
  | .phnCqDoorbell count => Sys2Proof.Machine.execPhnCqDoorbell count s
  | .submit entry ext image => Sys2Proof.Machine.execSubmit entry ext image s
  | .modify entry ext image => Sys2Proof.Machine.execModify entry ext image s
  | .taskSuspend entry => Sys2Proof.Machine.execTaskSuspend entry s
  | .taskResume entry => Sys2Proof.Machine.execTaskResume entry s
  | .taskCancel entry => Sys2Proof.Machine.execTaskCancel entry s
  | .taskQuery entry => Sys2Proof.Machine.execTaskQuery entry s
  | .plan entry ext image => Sys2Proof.Machine.execPlan entry ext image s
  | .pin entry => Sys2Proof.Machine.execPin entry s
  | .unpin entry => Sys2Proof.Machine.execUnpin entry s
  | .reserve entry => Sys2Proof.Machine.execReserve entry s
  | .release entry => Sys2Proof.Machine.execRelease entry s
  | .rebalance entry => Sys2Proof.Machine.execRebalance entry s
  | .openRings who tag => Sys2Proof.Machine.execOpenRings who tag s
  | .closeRings who tag => Sys2Proof.Machine.execCloseRings who tag s
  | .taskStart task image => Sys2Proof.Machine.execTaskStart task image s
  | .taskDurationEnd task => Sys2Proof.Machine.execTaskDurationEnd task s
  | .migrationTargetStart => Sys2Proof.Machine.execMigrationTargetStart s
  | .migrationVerify same six => Sys2Proof.Machine.execMigrationVerify same six s
  | .migrationHandover => Sys2Proof.Machine.execMigrationHandover s
  | .migrationRelease => Sys2Proof.Machine.execMigrationRelease s
  | .migrationRetry => Sys2Proof.Machine.execMigrationRetry s
  | .predictiveFault page => Sys2Proof.Machine.execPredictiveFault page s
  | .surveyDue => Sys2Proof.Machine.execSurveyDue s
  | .surveyDeferredRetry => Sys2Proof.Machine.execSurveyDeferredRetry s
  | .surveyStepDone power spur level trims crcs => Sys2Proof.Machine.execSurveyStepDone power spur level trims crcs s
  | .surveyStepTimeout => Sys2Proof.Machine.execSurveyStepTimeout s
  | .staleBegin => Sys2Proof.Machine.execStaleBegin s
  | .staleEnd => Sys2Proof.Machine.execStaleEnd s
  | .surveyRequeue conv => Sys2Proof.Machine.execSurveyRequeue conv s
  | .holdExpiry task => Sys2Proof.Machine.execHoldExpiry task s
  | .calStoreStart => Sys2Proof.Machine.execCalStoreStart s
  | .calStoreDone ok => Sys2Proof.Machine.execCalStoreDone ok s
  | .calStoreTimeout => Sys2Proof.Machine.execCalStoreTimeout s
  | .memRequest stack pc arrivals caFails ecc => Sys2Proof.Machine.execMemRequest stack pc arrivals caFails ecc s
  | .throttleEnd stack source => Sys2Proof.Machine.execThrottleEnd stack source s
  | .rhWindowStart stack => Sys2Proof.Machine.execRhWindowStart stack s
  | .refreshInterval stack => Sys2Proof.Machine.execRefreshInterval stack s
  | .tempBandChange stack => Sys2Proof.Machine.execTempBandChange stack s
  | .delayUpdate stack => Sys2Proof.Machine.execDelayUpdate stack s
  | .srIdleExpiry stack => Sys2Proof.Machine.execSrIdleExpiry stack s
  | .srExitDone stack => Sys2Proof.Machine.execSrExitDone stack s
  | .scrubRead stack ecc => Sys2Proof.Machine.execScrubRead stack ecc s
  | .spareCopyDone stack unread => Sys2Proof.Machine.execSpareCopyDone stack unread s
  | .layerFillDone stack => Sys2Proof.Machine.execLayerFillDone stack s
  | .flitReceive port bytes parity => Sys2Proof.Machine.execFlitReceive port bytes parity s
  | .flitTransmit port => Sys2Proof.Machine.execFlitTransmit port s
  | .replayTimeout port => Sys2Proof.Machine.execReplayTimeout port s
  | .repairMessage port op lane token slotW => Sys2Proof.Machine.execRepairMessage port op lane token slotW s
  | .repairSwitch port => Sys2Proof.Machine.execRepairSwitch port s
  | .repairAckDeadline port => Sys2Proof.Machine.execRepairAckDeadline port s
  | .errorWindow port second => Sys2Proof.Machine.execErrorWindow port second s
  | .noFlitTimeout port => Sys2Proof.Machine.execNoFlitTimeout port s
  | .linkPowerOn port => Sys2Proof.Machine.execLinkPowerOn port s
  | .sidebandInitDone port => Sys2Proof.Machine.execSidebandInitDone port s
  | .mbInitDone port faulty => Sys2Proof.Machine.execMbInitDone port faulty s
  | .mbTrainDone port => Sys2Proof.Machine.execMbTrainDone port s
  | .paramReceive port => Sys2Proof.Machine.execParamReceive port s
  | .alignFlit port => Sys2Proof.Machine.execAlignFlit port s
  | .linkStateTimeout port => Sys2Proof.Machine.execLinkStateTimeout port s
  | .retrain who port tag => Sys2Proof.Machine.execRetrain who port tag s
  | .retrainDone port faulty => Sys2Proof.Machine.execRetrainDone port faulty s
  | .repair who port tag => Sys2Proof.Machine.execRepair who port tag s
  | .linkFault link => Sys2Proof.Machine.execLinkFault link s
  | .packetReceive port => Sys2Proof.Machine.execPacketReceive port s
  | .npTimeout port tag source space addr => Sys2Proof.Machine.execNpTimeout port tag source space addr s
  | .tagQuarantineEnd port tag => Sys2Proof.Machine.execTagQuarantineEnd port tag s
  | .msgDoorbell source arg0 => Sys2Proof.Machine.execMsgDoorbell source arg0 s
  | .msgIntr source arg0 => Sys2Proof.Machine.execMsgIntr source arg0 s
  | .msgFault source arg0 line => Sys2Proof.Machine.execMsgFault source arg0 line s
  | .msgEvent source arg0 line => Sys2Proof.Machine.execMsgEvent source arg0 line s
  | .msgFence source arg0 => Sys2Proof.Machine.execMsgFence source arg0 s
  | .msgLtr region source arg0 => Sys2Proof.Machine.execMsgLtr region source arg0 s
  | .regionIsolation region => Sys2Proof.Machine.execRegionIsolation region s
  | .guestOvercurrent => Sys2Proof.Machine.execGuestOvercurrent s
  | .trvCommit who chan => Sys2Proof.Machine.execTrvCommit who chan s
  | .trvStartChain who chan => Sys2Proof.Machine.execTrvStartChain who chan s
  | .trvSuspend who chan => Sys2Proof.Machine.execTrvSuspend who chan s
  | .trvResume who chan => Sys2Proof.Machine.execTrvResume who chan s
  | .trvCancel who chan => Sys2Proof.Machine.execTrvCancel who chan s
  | .trvShWrite who chan index value => Sys2Proof.Machine.execTrvShWrite who chan index value s
  | .trvDoorbell chan value => Sys2Proof.Machine.execTrvDoorbell chan value s
  | .descFetchDone chan ok bytes => Sys2Proof.Machine.execDescFetchDone chan ok bytes s
  | .trvPacket group data ok => Sys2Proof.Machine.execTrvPacket group data ok s
  | .trvComplete chan => Sys2Proof.Machine.execTrvComplete chan s
  | .portRequest region line data => Sys2Proof.Machine.execPortRequest region line data s
  | .ringOpen who tag => Sys2Proof.Machine.execRingOpen who tag s
  | .ringClose who tag => Sys2Proof.Machine.execRingClose who tag s
  | .ringSuspend who tag => Sys2Proof.Machine.execRingSuspend who tag s
  | .ringResume who tag => Sys2Proof.Machine.execRingResume who tag s
  | .ringResize who tag => Sys2Proof.Machine.execRingResize who tag s
  | .ringDoorbell ring value => Sys2Proof.Machine.execRingDoorbell ring value s
  | .ringContextWrite ring index value => Sys2Proof.Machine.execRingContextWrite ring index value s
  | .ringProduce ring ok => Sys2Proof.Machine.execRingProduce ring ok s
  | .ringConsume ring entry ok => Sys2Proof.Machine.execRingConsume ring entry ok s
  | .ringHoldoffExpiry ring => Sys2Proof.Machine.execRingHoldoffExpiry ring s
  | .streamRecordReady task => Sys2Proof.Machine.execStreamRecordReady task s
  | .streamTransfer task port => Sys2Proof.Machine.execStreamTransfer task port s
  | .recordTaken task port => Sys2Proof.Machine.execRecordTaken task port s
  | .nvmeCompletion slot ok => Sys2Proof.Machine.execNvmeCompletion slot ok s
  | .nvmeWriteTimeout slot => Sys2Proof.Machine.execNvmeWriteTimeout slot s
  | .apertureRead prp slot offset len => Sys2Proof.Machine.execApertureRead prp slot offset len s
  | .bar2Access offset write len => Sys2Proof.Machine.execBar2Access offset write len s
  | .lsaAccept port payload => Sys2Proof.Machine.execLsaAccept port payload s
  | .lsaAck port payload => Sys2Proof.Machine.execLsaAck port payload s
  | .lsaClosed port payload => Sys2Proof.Machine.execLsaClosed port payload s
  | .lsaReset port payload => Sys2Proof.Machine.execLsaReset port payload s
  | .lsaOpenRepeat task port => Sys2Proof.Machine.execLsaOpenRepeat task port s
  | .lsaRtoExpiry task port psn => Sys2Proof.Machine.execLsaRtoExpiry task port psn s
  | .lsaDeadTimeout task port => Sys2Proof.Machine.execLsaDeadTimeout task port s
  | .lsaFailTimeout task port => Sys2Proof.Machine.execLsaFailTimeout task port s
  | .contextTimer task port => Sys2Proof.Machine.execContextTimer task port s
  | .playbackRecord task streamId record => Sys2Proof.Machine.execPlaybackRecord task streamId record s
  | .playbackRelease task => Sys2Proof.Machine.execPlaybackRelease task s
  | .bindBuffer who tag => Sys2Proof.Machine.execBindBuffer who tag s
  | .unbind who tag => Sys2Proof.Machine.execUnbind who tag s
  | .pcieLinkUp wide speed => Sys2Proof.Machine.execPcieLinkUp wide speed s
  | .peRefclkCheck valid => Sys2Proof.Machine.execPeRefclkCheck valid s
  | .ethRefclkCheck valid => Sys2Proof.Machine.execEthRefclkCheck valid s
  | .addQueue who tag record => Sys2Proof.Machine.execAddQueue who tag record s
  | .removeQueue who tag => Sys2Proof.Machine.execRemoveQueue who tag s
  | .storeInit who tag ok => Sys2Proof.Machine.execStoreInit who tag ok s
  | .storeMount who tag first last headers => Sys2Proof.Machine.execStoreMount who tag first last headers s
  | .ethLinkChange port up => Sys2Proof.Machine.execEthLinkChange port up s
  | .deflate who engine tag => Sys2Proof.Machine.execDeflate who engine tag s
  | .inflate who engine tag => Sys2Proof.Machine.execInflate who engine tag s
  | .cmpJobDone engine input ok => Sys2Proof.Machine.execCmpJobDone engine input ok s
  | .finish who unit tag => Sys2Proof.Machine.execFinish who unit tag s
  | .reseed who unit tag => Sys2Proof.Machine.execReseed who unit tag s
  | .crcFeed who unit port value => Sys2Proof.Machine.execCrcFeed who unit port value s
  | .run who core tag => Sys2Proof.Machine.execRun who core tag s
  | .halt who core tag => Sys2Proof.Machine.execHalt who core tag s
  | .stepCmd who core tag => Sys2Proof.Machine.execStep who core tag s
  | .swint who core tag => Sys2Proof.Machine.execSwint who core tag s
  | .bundleIssue core => Sys2Proof.Machine.execBundleIssue core s
  | .interruptEntry core => Sys2Proof.Machine.execInterruptEntry core s
  | .inputBlock task input samples marks => Sys2Proof.Machine.execInputBlock task input samples marks s
  | .fabReadComplete core ok cycles => Sys2Proof.Machine.execFabReadComplete core ok cycles s
  | .measureRecord task => Sys2Proof.Machine.execMeasureRecord task s
  | .vsync gen six annot header image missing loops ltrNs => Sys2Proof.Machine.execVsync gen six annot header image missing loops ltrNs s
  | .hpdChange output level => Sys2Proof.Machine.execHpdChange output level s
  | .dpTrainingDone output rate lowref => Sys2Proof.Machine.execDpTrainingDone output rate lowref s
  | .dpLinkLost output => Sys2Proof.Machine.execDpLinkLost output s
  | .genlockPulse six => Sys2Proof.Machine.execGenlockPulse six s
  | .genlockLost => Sys2Proof.Machine.execGenlockLost s
  | .relock who tag => Sys2Proof.Machine.execRelock who tag s
  | .displayRefill gen ltrNs => Sys2Proof.Machine.execDisplayRefill gen ltrNs s
  | .lowrefCheck header => Sys2Proof.Machine.execLowrefCheck header s
  | .vinStart => Sys2Proof.Machine.execVinStart s
  | .undervoltage last => Sys2Proof.Machine.execUndervoltage last s
  | .overvoltage last => Sys2Proof.Machine.execOvervoltage last s
  | .startupStep maddr => Sys2Proof.Machine.execStartupStep maddr s
  | .startupTimeout region => Sys2Proof.Machine.execStartupTimeout region s
  | .domainOffTimer domain => Sys2Proof.Machine.execDomainOffTimer domain s
  | .domainOnDone domain => Sys2Proof.Machine.execDomainOnDone domain s
  | .domainTrip domain => Sys2Proof.Machine.execDomainTrip domain s
  | .boardReset => Sys2Proof.Machine.execBoardReset s
  | .moduleReset who tag => Sys2Proof.Machine.execModuleReset who tag s
  | .powerFailTrigger last => Sys2Proof.Machine.execPowerFailTrigger last s
  | .thermalTrigger last => Sys2Proof.Machine.execThermalTrigger last s
  | .fwWrite who tag image => Sys2Proof.Machine.execFwWrite who tag image s
  | .fwActivate who tag => Sys2Proof.Machine.execFwActivate who tag s
  | .activateTimeout => Sys2Proof.Machine.execActivateTimeout s
  | .fwRatchet who tag => Sys2Proof.Machine.execFwRatchet who tag s
  | .attest who tag nonce => Sys2Proof.Machine.execAttest who tag nonce s
  | .keyExchange who tag buffer => Sys2Proof.Machine.execKeyExchange who tag buffer s
  | .keyLoad who tag blob => Sys2Proof.Machine.execKeyLoad who tag blob s
  | .keyClear who tag => Sys2Proof.Machine.execKeyClear who tag s
  | .debugOpen who tag lost => Sys2Proof.Machine.execDebugOpen who tag lost s
  | .mctpMessage msg => Sys2Proof.Machine.execMctpMessage msg s
  | .sensorRefresh readings => Sys2Proof.Machine.execSensorRefresh readings s
  | .smbusTimeout => Sys2Proof.Machine.execSmbusTimeout s
  | .uartRxCharacter char framing => Sys2Proof.Machine.execUartRxCharacter char framing s
  | .planeFailure plane => Sys2Proof.Machine.execPlaneFailure plane s
  | .planeSelftest plane ok => Sys2Proof.Machine.execPlaneSelftest plane ok s
  | .lockstepMismatch => Sys2Proof.Machine.execLockstepMismatch s
  | .checkpoint => Sys2Proof.Machine.execCheckpoint s
  | .faultAutoReset page => Sys2Proof.Machine.execFaultAutoReset page s
  | .recover who tag => Sys2Proof.Machine.execRecover who tag s
  | .readLog who tag => Sys2Proof.Machine.execReadLog who tag s
  | .readFlashLog who tag => Sys2Proof.Machine.execReadFlashLog who tag s
  | .collectorRelease => Sys2Proof.Machine.execCollectorRelease s
  | .safeStateEntry => Sys2Proof.Machine.execSafeStateEntry s
  | .sclkLockLost conv => Sys2Proof.Machine.execSclkLockLost conv s
  | .memTempRefresh stack temp => Sys2Proof.Machine.execMemTempRefresh stack temp s
  | .srEntryCommand stack => Sys2Proof.Machine.execSrEntryCommand stack s
  | .pwrVinRefresh vin current power peak => Sys2Proof.Machine.execPwrVinRefresh vin current power peak s
  | .porstNRelease => Sys2Proof.Machine.execPorstNRelease s
  | .perstNDeassert => Sys2Proof.Machine.execPerstNDeassert s
  | .configRequest req retry => Sys2Proof.Machine.execConfigRequest req retry s
  | .hostReadCompletion index ok bytes => Sys2Proof.Machine.execHostReadCompletion index ok bytes s
  | .fwWriteDone ok => Sys2Proof.Machine.execFwWriteDone ok s
  | .newImageTakeover => Sys2Proof.Machine.execNewImageTakeover s
  | .recoverComplete ok => Sys2Proof.Machine.execRecoverComplete ok s
  | .undefinedOpcode who key chan opcode tag => Sys2Proof.Machine.execUndefinedOpcode who key chan opcode tag s
  | .unknownFrame port => Sys2Proof.Machine.execUnknownFrame port s

end Sys2Proof.Machine
end

