-- ==== Sys2Proof/Safety.lean ====
section
/-! DEFINITION. What the claims call a well-kept state, in the terms of the spec. -/

namespace Sys2Proof.Machine

/-- User memory is in its canonical form: addresses strictly rising, no byte equal to what an unlisted address reads as. -/
def State.memoryWf (s : State) : Prop := Memory.wf s.mem = true

/-- SIX is a 72-bit number (R76). -/
def State.sixWf (s : State) : Prop := s.six < sixModulus

/-- The log holds at most 4,096 entries, and the flash log at most 256 (R591, R598). -/
def State.logsWf (s : State) : Prop := s.log.length ≤ 4096 ∧ s.flashLog.length ≤ 256

/-- A write of a sender reaches the block of a page: it is honoured, and the block is not the guest die's (R40, R44). -/
abbrev State.honours (s : State) (who : Issuer) (key : Nat) : Prop := s.discards who key = none ∧ s.guestPage key = false

/-- A command of a sender is evaluated on a page: the write to PG_CMD reaches its block, and no operation is in progress (R44, R54). -/
abbrev State.takes (s : State) (who : Issuer) (key : Nat) : Prop := s.honours who key ∧ (s.page key).op = none

/-- Phoin evaluates a command entry of an opcode at the head of ring 0: nothing holds it back, and its header is in order (R268, R272,
R273). -/
abbrev State.takesEntry (s : State) (op : Nat) (e : List Byte) : Prop :=
  s.mayEvaluate = true ∧ cOPCODE e = op ∧ cBadCheck e = false ∧ cVERSION e = 1 ∧ (cREPORT e = true → cREPORT_ADDR e % 64 = 0)

/-- The port of a stream, found by the stream's task (R451, R454). -/
abbrev State.portOf (s : State) (task i : Nat) : Option StreamPort := (s.stream task).bind (·.port i)

/-- A datagram of a type from a recorder reaches its flow: the stream and port it names, an LSA profile on a link that is up, and header,
length and CHECK in order (R476, R511). -/
abbrev State.takesLsa (s : State) (i type : Nat) (b : List Byte) (x : Stream) (p : StreamPort) : Prop :=
  s.stream (beAt b 4 4) = some x ∧ x.port i = some p ∧ x.dest = destETH ∧ s.profFlag i (s.profOf (beAt b 4 4)) 2 = true ∧ s.ethUp i = true ∧
    beAt b 0 2 = 0x4C53 ∧ beAt b 2 1 = 1 ∧ beAt b 3 1 = type ∧ beAt b 8 1 = i ∧ b.length = lsaLength type ∧ beAt b 12 4 = 0

end Sys2Proof.Machine

/-! ### What a command may reach. -/

namespace Sys2Proof

/-- The commands whose effect may reach user memory: by a write of their own, by a sheet, a record, a packet or a completion that they
lead to, by memory that is cleared or rebuilt, or by a reset. -/
def Instr.mayStore : Instr → Bool
  | .stop .. | .suspend .. | .resume .. | .cancel .. | .softReset .. | .freezeWrite .. | .enableWrite .. | .registerWrite .. | .blockFault ..
    | .cellError .. | .syncResetApply .. | .handover .. | .ddcApply .. | .xfadeDone .. | .eventEval .. | .captureSample .. | .sheetReady ..
    | .recordPlaneWrite .. | .submit .. | .modify .. | .taskSuspend .. | .taskResume .. | .taskCancel .. | .reserve .. | .release .. | .rebalance ..
    | .taskStart .. | .taskDurationEnd .. | .migrationTargetStart .. | .migrationVerify .. | .migrationHandover .. | .migrationRelease ..
    | .migrationRetry .. | .predictiveFault .. | .surveyDue .. | .surveyDeferredRetry .. | .surveyStepDone .. | .surveyStepTimeout ..
    | .surveyRequeue .. | .holdExpiry .. | .memRequest .. | .scrubRead .. | .spareCopyDone .. | .layerFillDone .. | .packetReceive .. | .trvPacket ..
    | .trvComplete .. | .portRequest .. | .ringProduce .. | .nvmeCompletion .. | .nvmeWriteTimeout .. | .bar2Access .. | .lsaReset ..
    | .lsaFailTimeout .. | .playbackRecord .. | .ethRefclkCheck .. | .ethLinkChange .. | .cmpJobDone .. | .bundleIssue .. | .fabReadComplete ..
    | .vinStart .. | .undervoltage .. | .overvoltage .. | .startupStep .. | .domainTrip .. | .boardReset .. | .moduleReset .. | .powerFailTrigger ..
    | .thermalTrigger .. | .activateTimeout .. | .debugOpen .. | .mctpMessage .. | .checkpoint .. | .collectorRelease .. | .safeStateEntry ..
    | .newImageTakeover .. | .recoverComplete .. => true
  | _ => false

/-- The commands whose effect may reach the key store: keys are loaded and cleared, and zeroised by DEBUG_OPEN (also as a management
message, at once or when the management cores are back) and at start-up (R574, R575). -/
def Instr.mayChangeKeys : Instr → Bool
  | .startupStep .. | .keyLoad .. | .keyClear .. | .debugOpen .. | .mctpMessage .. | .checkpoint .. => true
  | _ => false

/-- The commands whose effect may reach the interrupt routes: ROUTE_IRQ, PERST_N, and the resets (R63). -/
def Instr.mayChangeRoutes : Instr → Bool
  | .routeIrq .. | .perstNAssert .. | .vinStart .. | .undervoltage .. | .overvoltage .. | .boardReset .. | .moduleReset .. | .powerFailTrigger ..
    | .thermalTrigger .. | .debugOpen .. => true
  | _ => false

/-- The commands whose effect may reach what Phoin holds: its rings, tasks, migrations and notices. -/
def Instr.mayChangePhoin : Instr → Bool
  | .cancel .. | .softReset .. | .registerWrite .. | .perstNAssert .. | .blockResetComplete .. | .blockFault .. | .cellError .. | .syncResetApply ..
    | .subadcFault .. | .handover .. | .handbackCheck .. | .phnDoorbell .. | .phnCqDoorbell .. | .submit .. | .modify .. | .taskSuspend ..
    | .taskResume .. | .taskCancel .. | .taskQuery .. | .plan .. | .pin .. | .unpin .. | .reserve .. | .release .. | .rebalance .. | .openRings ..
    | .closeRings .. | .taskStart .. | .taskDurationEnd .. | .migrationTargetStart .. | .migrationVerify .. | .migrationHandover ..
    | .migrationRelease .. | .migrationRetry .. | .predictiveFault .. | .surveyDue .. | .surveyDeferredRetry .. | .surveyStepDone ..
    | .surveyStepTimeout .. | .staleBegin .. | .staleEnd .. | .surveyRequeue .. | .holdExpiry .. | .memRequest .. | .scrubRead .. | .spareCopyDone ..
    | .layerFillDone .. | .linkFault .. | .packetReceive .. | .msgDoorbell .. | .msgIntr .. | .msgFault .. | .msgEvent .. | .msgFence .. | .msgLtr ..
    | .regionIsolation .. | .guestOvercurrent .. | .ringDoorbell .. | .recordTaken .. | .nvmeCompletion .. | .nvmeWriteTimeout .. | .lsaClosed ..
    | .lsaReset .. | .lsaFailTimeout .. | .playbackRecord .. | .ethRefclkCheck .. | .ethLinkChange .. | .bundleIssue .. | .fabReadComplete ..
    | .vinStart .. | .undervoltage .. | .overvoltage .. | .startupStep .. | .startupTimeout .. | .domainOffTimer .. | .domainOnDone ..
    | .domainTrip .. | .boardReset .. | .moduleReset .. | .powerFailTrigger .. | .thermalTrigger .. | .activateTimeout .. | .debugOpen ..
    | .mctpMessage .. | .checkpoint .. | .faultAutoReset .. | .recover .. | .collectorRelease .. | .safeStateEntry .. | .newImageTakeover ..
    | .recoverComplete .. => true
  | _ => false

end Sys2Proof
end

