-- ==== Sys2Proof/Certificates/Slice0/Obligations.lean ====
section
/-! DEFINITION. The statements for the provers. A completion statement says, for each command it names, that `exec` answers a next state
under hypotheses on the state and the operands alone, and what that state holds. -/

open Sys2Proof Sys2Proof.Machine

/-- A step with a command at the front of the queue runs that command on the state with the queue's rest. -/
def Obligations.StepRunsFrontCommand : Prop :=
  ∀ (s : State) (c : Instr) (q : List Instr), s.pending = c :: q → step s = exec c { s with pending := q }

/-- On an empty queue SIX counts one SCLK period while the time base runs (R76); that a step is one period is the model's choice (log entry 2). -/
def Obligations.IdleStepCountsOnePeriod : Prop :=
  ∀ s : State, s.pending = [] →
    ∃ t, step s = .next t ∧ t.pending = [] ∧ t.six = if s.tb.running then (s.six + 1) % 2 ^ 72 else s.six

/-- START, STOP, SUSPEND, RESUME, CANCEL, QUERY and COMMIT take effect -/
def Obligations.CommonOpcodesComplete : Prop :=
  (∀ (s : State) (who : Issuer) (key : Fin 8192) (tag : Nat),
      s.takes who key →
      (s.governed key = false) →
      (s.page key).st = .idle ∧ (s.page key).enable = true →
      ∃ t, exec (.startCmd who key tag false) s = .next t ∧ (t.page key).cmdStat = cmdStatWord tag phaseRUNNING 0 codeOK ∧ (t.page key).op = some (s.latch key 0x0001 tag)) ∧
  (∀ (s : State) (who : Issuer) (key : Fin 8192) (tag : Nat),
      s.takes who key →
      (s.governed key = false) →
      (s.page key).st = .idle ∧ (s.page key).enable = true →
      ∃ t, exec (.startCmd who key tag true) s = .next t ∧ (t.page key).st = .active ∧ (t.page key).op = none) ∧
  (∀ (s : State) (who : Issuer) (key : Fin 8192) (tag : Nat),
      s.takes who key →
      (s.governed key = false) →
      (s.page key).st = .active ∨ (s.page key).st = .suspended →
      ∃ t, exec (.stop who key tag false) s = .next t ∧ (t.page key).cmdStat = cmdStatWord tag phaseRUNNING 0 codeOK ∧ (t.page key).op = some (s.latch key 0x0002 tag)) ∧
  (∀ (s : State) (who : Issuer) (key : Fin 8192) (tag : Nat),
      s.takes who key →
      (s.governed key = false) →
      (s.page key).st = .active ∨ (s.page key).st = .suspended →
      ∃ t, exec (.stop who key tag true) s = .next t ∧ (t.page key).st = .idle ∧ (t.page key).op = none) ∧
  (∀ (s : State) (who : Issuer) (key : Fin 8192) (tag : Nat),
      s.takes who key →
      (s.suspendable key = true) →
      (s.governed key = false) →
      (s.page key).st = .active →
      (blockOf key ≠ .mc) →
      ∃ t, exec (.suspend who key tag) s = .next t ∧ (t.page key).st = .suspended ∧ (t.page key).op = none) ∧
  (∀ (s : State) (who : Issuer) (key : Fin 8192) (tag : Nat) (op : Op),
      s.honours who key →
      (s.suspendable key = true) →
      (s.governed key = false) →
      (s.page key).op = some op →
      (op.suspended = false) →
      (blockOf key ≠ .mc) →
      ∃ t, exec (.suspend who key tag) s = .next t ∧ (t.page key).op = some { op with suspended := true } ∧ (t.page key).cmdStat = cmdStatWord tag phaseSUSPENDED 0 codeOK) ∧
  (∀ (s : State) (who : Issuer) (key : Fin 8192) (tag : Nat),
      s.takes who key →
      (s.governed key = false) →
      (s.page key).st = .suspended →
      ∃ t, exec (.resume who key tag) s = .next t ∧ (t.page key).st = .active ∧ (t.page key).op = none) ∧
  (∀ (s : State) (who : Issuer) (key : Fin 8192) (tag : Nat) (op : Op),
      s.honours who key →
      (s.governed key = false) →
      (s.page key).op = some op →
      (op.suspended = true) →
      (s.page key).waiting = [] →
      (blockOf key ≠ .mc) →
      ∃ t, exec (.resume who key tag) s = .next t ∧ (t.page key).op = some { op with suspended := false } ∧ (t.page key).cmdStat = cmdStatWord tag phaseRUNNING 0 codeOK) ∧
  (∀ (s : State) (who : Issuer) (key : Fin 8192) (tag : Nat) (op : Op),
      s.honours who key →
      (s.page key).op = some op →
      (s.pastCancel key op = false) →
      (key.val ≠ keySEC) →
      ∃ t, exec (.cancel who key tag) s = .next t ∧ (t.page key).op = none ∧ (t.page key).cmdStat = cmdStatWord op.tag phaseCANCELLED 0 codeOK) ∧
  (∀ (s : State) (who : Issuer) (key : Fin 8192) (tag : Nat),
      s.takes who key →
      (s.page key).resReady = false →
      ∃ t, exec (.query who key tag) s = .next t ∧ (t.page key).resReady = true ∧ (t.page key).resSeq = nextSeq (s.page key).resSeq ∧ (t.page key).op = none ∧ (t.page key).cmdStat = cmdStatWord tag phaseDONE 0 codeOK) ∧
  (∀ (s : State) (who : Issuer) (key : Fin 8192) (tag : Nat),
      s.takes who key →
      blockOf key ∈ [.mod, .tbs, .tdc, .adc, .phn, .mem, .bxe, .hif, .nvi, .cmp, .crc, .mc, .sec, .flt, .pwr, .eth, .str, .rng] →
      ∃ t, exec (.commit who key tag) s = .next t ∧ (t.page key).op = none ∧ (t.page key).cmdStat = cmdStatWord tag phaseDONE 0 codeOK)

/-- Writes to the header registers of a page take effect -/
def Obligations.HeaderWritesTakeEffect : Prop :=
  (∀ (s : State) (who : Issuer) (key : Fin 8192),
      (s.discards who key = none) →
      (s.page key).st ≠ .off →
      (s.page key).st ≠ .reset →
      ∃ t, exec (.softReset who key) s = .next t ∧ (t.page key).st = .reset ∧ (t.page key).op = none ∧ (t.page key).enable = false) ∧
  (∀ (s : State) (who : Issuer) (key : Fin 8192),
      (s.discards who key = none) →
      (s.page key).st = .active →
      ∃ t, exec (.freezeWrite who key true) s = .next t ∧ (t.page key).st = .frozen ∧ (t.page key).prev = .active ∧ (t.page key).freeze = true) ∧
  (∀ (s : State) (who : Issuer) (key : Fin 8192),
      (s.discards who key = none) →
      (s.page key).st = .frozen →
      ∃ t, exec (.freezeWrite who key false) s = .next t ∧ (t.page key).st = (s.page key).prev ∧ (t.page key).gapNext = true ∧ (t.page key).freeze = false) ∧
  (∀ (s : State) (who : Issuer) (key : Fin 8192),
      (s.discards who key = none) →
      (s.page key).st = .active →
      ∃ t, exec (.enableWrite who key false) s = .next t ∧ (t.page key).st = .idle ∧ (t.page key).enable = false) ∧
  (∀ (s : State) (who : Issuer) (key : Fin 8192),
      (s.discards who key = none) →
      ∃ t, exec (.enableWrite who key true) s = .next t ∧ (t.page key).enable = true ∧ (t.page key).st = (s.page key).st) ∧
  (∀ (s : State) (who : Issuer) (key : Fin 8192),
      (s.discards who key = none) →
      ∃ t, exec (.lockSet who key) s = .next t ∧ (t.page key).lock = true) ∧
  (∀ (s : State) (who : Issuer) (key : Fin 8192),
      (s.discards who key = none) →
      (s.page key).resReady = true →
      (s.page key).waiting = [] →
      (key.val ≠ keyTDC ∨ s.tdc.heldStops = none) →
      ∃ t, exec (.pgResAckWrite who key (s.page key).resSeq) s = .next t ∧ (t.page key).resReady = false ∧ (t.page key).resSeq = (s.page key).resSeq) ∧
  (∀ (s : State) (who : Issuer) (key : Fin 8192) (value : BitVec 32),
      (s.discards who key = none) →
      ∃ t, exec (.pgIrqWrite who key true value) s = .next t ∧ (t.page key).irqEn = value &&& 0xFFFF001F) ∧
  (∀ (s : State) (who : Issuer) (key : Fin 8192) (value : BitVec 32),
      (s.discards who key = none) →
      ∃ t, exec (.pgIrqWrite who key false value) s = .next t ∧ (t.page key).irq = (s.page key).irq &&& ~~~value) ∧
  (∀ (s : State) (who : Issuer) (key : Fin 8192) (value : BitVec 32),
      (s.discards who key = none) →
      ∃ t, exec (.registerWrite who key 13 value true) s = .next t ∧ (t.page key).a0 = value) ∧
  (∀ (s : State) (who : Issuer) (key : Fin 8192) (i : Fin 1024) (value : BitVec 32) (d : RegDesc) (j : Nat),
      s.honours who key →
      (64 ≤ i.val) →
      blockOf key ∉ [.adc, .ddc, .grt, .red, .afe, .ins, .ttr, .mc, .eth, .flt] →
      (findReg (regTable (blockOf key)) (4 * i.val) = some (d, j)) →
      ∃ t, exec (.registerWrite who key i value true) s = .next t ∧ t.reg key (4 * i.val) = (writeFields (s.page key).lock (s.fieldOk key (4 * i.val) value) (s.reg key (4 * i.val)) value d.fields).1) ∧
  (∀ (s : State) (key : Fin 8192),
      (keyListed key = true) →
      (s.page key).st = .reset →
      (s.page key).owner ≠ .phoin →
      ∃ t, exec (.blockResetComplete key) s = .next t ∧ (t.page key).st = .idle) ∧
  (∀ (s : State) (key : Fin 8192), keyListed key = true → (s.page key).st = .reset → (s.page key).owner = .phoin →
      exec (.blockResetComplete key) s = .next (if s.ready then (s.enter key .idle).readmit.refreshPhn else s.enter key .idle))

/-- MSI-X unmasking, window writes, unmapped accesses and routes take effect -/
def Obligations.WindowsAndRoutesTakeEffect : Prop :=
  (∀ (s : State) (vector : Fin 2048),
      (s.msixPending vector = true) →
      ∃ t, exec (.msixUnmask vector) s = .next t ∧ t.msixMasked vector = false ∧ t.out = s.out ++ [.msix vector (s.msixWord vector 0) (s.msixWord vector 1) (s.msixWord vector 2)]) ∧
  (∀ (s : State) (vector : Fin 2048),
      (s.msixPending vector = false) →
      ∃ t, exec (.msixUnmask vector) s = .next t ∧ t.msixMasked vector = false ∧ t.out = s.out) ∧
  (∀ (s : State) (who : Issuer) (i : Fin 8192) (value : BitVec 32),
      (i.val % 4 ≠ 3) →
      (s.msixPending (i.val / 4) = false) →
      ∃ t, exec (.windowWrite who (Fin.ofNat 0x4000000 (0x03F00000 + 4 * i.val)) value true) s = .next t ∧ mget msixReset t.msixTable i.val = value) ∧
  (∀ (s : State) (who : Issuer) (addr : Fin 0x4000000) (value : BitVec 32) (key : Nat),
      (¬ (0x03F00000 ≤ addr.val / 4 * 4 ∧ addr.val / 4 * 4 < 0x03F08000)) →
      (windowKey (addr.val / 4 * 4) = some key) →
      (key ≠ keyRNG) →
      (s.discards who key = none) →
      ∃ t, exec (.windowWrite who addr value true) s = .next t ∧ mget (fun _ => (0 : Word)) t.win (addr.val / 4) = value) ∧
  (∀ (s : State) (addr : Fin 0x4000000),
      (barMapped addr = false) →
      (s.log.length < 4096) →
      ∃ t, exec (.unmappedAccess addr) s = .next t ∧ t.log = s.log ++ [{ entry := s.rf keyFLT Reg.FLT_HEAD, level := 0, code := 0, sub := 0, kind := 7, six := s.six, source := 0x100, pageKey := 0xFFFF, detail := addr }]) ∧
  (∀ (s : State) (who : Issuer) (tag : Nat),
      s.takes who keyHIF →
      (keyListed ((s.page keyHIF).a0.toNat % 2 ^ 13) = true) →
      (s.page keyHIF).a0.toNat % 2 ^ 13 ≠ keyFLT →
      (32 ≤ (s.page keyHIF).a1.toNat % 2 ^ 11) →
      ∃ t, exec (.routeIrq who tag) s = .next t ∧ mget (fun _ => 0) t.routes ((s.page keyHIF).a0.toNat % 2 ^ 13) = (s.page keyHIF).a1.toNat % 2 ^ 11 ∧ (t.page keyHIF).cmdStat = cmdStatWord tag phaseDONE 0 codeOK) ∧
  (∀ (s : State) (who : Issuer) (key : Fin 8192) (opcode : BitVec 16) (tag : Nat),
      s.honours who key →
      (opcodeKnown key opcode.toNat = false) →
      (key.val ≠ keyFLT) →
      ∃ t, exec (.undefinedOpcode who key none opcode tag) s = .next t ∧ (t.page key).cmdStat = cmdStatWord tag phaseREJECTED 0 codeUNSUPPORTED)

/-- A block fault and an escalated cell error put the block in FAULT -/
def Obligations.FaultsOfBlocksAndCells : Prop :=
  (∀ (s : State) (key : Fin 8192) (bit : Fin 32),
      (keyListed key = true) →
      (key.val ≠ keyTBS) →
      blockOf key ∉ [.adc, .afe] →
      (faultBits (blockOf key)).contains bit.val = true →
      (s.page key).st = .active →
      ∃ t, exec (.blockFault key bit) s = .next t ∧ (t.page key).st = .fault ∧ wbit (t.page key).err bit = true) ∧
  (∀ (s : State) (key : Fin 8192),
      (keyListed key = true) →
      blockOf key ∉ [.adc, .afe] →
      (s.page key).st = .active →
      ∃ t, exec (.cellError key false) s = .next t ∧ (t.page key).st = .fault ∧ wbit (t.page key).err 5 = true ∧ wbit (t.page key).err (cellBit (blockOf key)) = true) ∧
  (∀ (s : State) (key : Fin 8192),
      s.blockAt key ∉ [.mc, .mem] →
      ∃ t, exec (.cellError key true) s = .next t ∧ t = s) ∧
  (∀ (s : State) (key : Fin 8192),
      (s.blockAt key = .mc) →
      (s.page key).st ≠ .off ∧ (s.page key).st ≠ .reset →
      ∃ t, exec (.cellError key true) s = .next t ∧ t.rf key Reg.MC_ECC_CE = satInc 0xFFFFFFFF (s.rf key Reg.MC_ECC_CE) ∧ (t.page key).st = (s.page key).st ∧ (t.page key).err = (s.page key).err) ∧
  (∀ (s : State) (key : Fin 8192),
      (s.blockAt key = .mem) →
      (s.page key).st ≠ .off ∧ (s.page key).st ≠ .reset →
      ∃ t, exec (.cellError key true) s = .next t ∧ t.rf key Reg.MEM_ECC_CE = satInc 0xFFFFFFFF (s.rf key Reg.MEM_ECC_CE) ∧ (t.page key).st = (s.page key).st ∧ (t.page key).err = (s.page key).err)

/-- SET_TIME, ARM_SYNC and SYNC_NOW are accepted and hold what they ask for -/
def Obligations.TimeBaseCommandsComplete : Prop :=
  (∀ (s : State) (who : Issuer) (tag : Nat),
      s.takes who keyTBS →
      (s.rb keyTBS Reg.TBS_STATE.PTP_LOCKED = false) →
      ∃ t, exec (.setTime who tag) s = .next t ∧ t.tb.setSecs = some ((s.page keyTBS).a0.toNat + (s.page keyTBS).a1.toNat % 65536 * 2 ^ 32) ∧ (t.page keyTBS).cmdStat = cmdStatWord tag phaseRUNNING 0 codeOK) ∧
  (∀ (s : State) (who : Issuer) (tag : Nat),
      s.takes who keyTBS →
      (s.rb keyTBS Reg.TBS_SYNC_CFG.LOAD_SIX = false) →
      ∃ t, exec (.armSync who tag) s = .next t ∧ t.tb.sync = some (s.latchSync false) ∧ (t.page keyTBS).cmdStat = cmdStatWord tag phaseRUNNING 0 codeOK) ∧
  (∀ (s : State) (who : Issuer) (tag : Nat),
      s.takes who keyTBS →
      (s.rb keyTBS Reg.TBS_SYNC_CFG.LOAD_SIX = false) →
      (s.rf keyTBS Reg.TBS_SYNC_CFG.SYNCOUT ≠ 2) →
      ∃ t, exec (.syncNow who tag) s = .next t ∧ t.tb.sync = some (s.latchSync true) ∧ (t.page keyTBS).cmdStat = cmdStatWord tag phaseRUNNING 0 codeOK) ∧
  (∀ (s : State) (who : Issuer) (tag : Nat),
      s.takes who keyTBS →
      (s.rb keyTBS Reg.TBS_SYNC_CFG.LOAD_SIX = false) →
      (s.rf keyTBS Reg.TBS_SYNC_CFG.SYNCOUT = 2) →
      (s.page keyTBS).resReady = false →
      ∃ t, exec (.syncNow who tag) s = .next t ∧ t.tb.sync = s.tb.sync ∧ Output.syncout s.six (s.rb keyTBS Reg.TBS_SYNC_CFG.EDGE) ∈ t.out ∧ (t.page keyTBS).cmdStat = cmdStatWord tag phaseDONE 0 codeOK)

/-- The time base's checks, benchmarks, edges and timeouts take effect -/
def Obligations.TimeBaseEventsComplete : Prop :=
  (∀ (s : State) (amplMv hz : Nat) (ptpOk : Bool) (target : Int) (fit : Option Int),
      (s.page keyTBS).st ≠ .fault →
      (s.rb keyTBS Reg.TBS_CFG.REF_EN = true) →
      ∃ t, exec (.refCheck amplMv hz ptpOk target fit) s = .next t ∧ t.tb.refinGood = (if refinValid (s.rf keyTBS Reg.TBS_CFG.REF_FREQ) amplMv hz then s.tb.refinGood + 1 else 0) ∧ t.tb.refinBad = (if refinValid (s.rf keyTBS Reg.TBS_CFG.REF_FREQ) amplMv hz then 0 else s.tb.refinBad + 1)) ∧
  (∀ (s : State),
      (s.rf keyTBS Reg.TBS_STATE.TB_STATE = 1) →
      ∃ t, exec (.tbLocked) s = .next t ∧ t.rf keyTBS Reg.TBS_STATE.TB_STATE = 2) ∧
  (∀ (s : State),
      ∃ t, exec (.xtalFault) s = .next t ∧ t.tb.sync = none ∧ t.tb.setSecs = none ∧ t.safeReq.isSome = true) ∧
  (∀ (s : State) (y : Int) (uncertainty : Nat),
      (s.tb.running = true) →
      ∃ t, exec (.benchmark y uncertainty) s = .next t ∧ t.tb.benchSix = s.tb.nextBench ∧ t.tb.nextBench = sixAdd s.tb.nextBench sixPerMs ∧ t.tb.pendStep = none) ∧
  (∀ (s : State),
      (s.six < 2 ^ 72) →
      ∃ t, exec (.tbsSixRead) s = .next t ∧ t.six3 keyTBS 0x130 = s.six ∧ t.six = s.six) ∧
  (∀ (s : State) (port domain transport source seq masterPs six fine : Nat) (egress : Nat × Nat) (utc : Int) (dataset intervalMs : Nat),
      (s.rb keyTBS Reg.TBS_CFG.PTP_EN = true) →
      (port = s.rf keyTBS Reg.TBS_PTP_CFG.PORT) →
      (domain = s.rf keyTBS Reg.TBS_PTP_CFG.DOMAIN) →
      (transport = s.rf keyTBS Reg.TBS_PTP_CFG.TRANSPORT) →
      (s.tb.ptpMaster = none) →
      ∃ t, exec (.ptpMessage port domain transport { kind := .announce utc dataset intervalMs, source := source, seq := seq, egress := egress } masterPs six fine) s = .next t ∧ t.tb.utc = utc ∧ t.fromMaster source = true) ∧
  (∀ (s : State) (port domain transport source seq masterPs six fine : Nat) (egress : Nat × Nat) (ds : Nat) (until_ : Int),
      (s.rb keyTBS Reg.TBS_CFG.PTP_EN = true) →
      (port = s.rf keyTBS Reg.TBS_PTP_CFG.PORT) →
      (domain = s.rf keyTBS Reg.TBS_PTP_CFG.DOMAIN) →
      (transport = s.rf keyTBS Reg.TBS_PTP_CFG.TRANSPORT) →
      (s.tb.ptpMaster = some (source, ds, until_)) →
      (s.elapsed (s.advanceTo six).six ≤ until_) →
      ∃ t, exec (.ptpMessage port domain transport { kind := .syncOneStep, source := source, seq := seq, egress := egress } masterPs six fine) s = .next t ∧ t.tb.ptpSync = seq ∧ t.tb.ptpT1 = some masterPs ∧ t.tb.ptpT2.isSome = true ∧ t.tb.ptpT3.isSome = true) ∧
  (∀ (s : State) (port domain transport source seq masterPs six fine : Nat) (egress : Nat × Nat) (ds : Nat) (until_ : Int),
      (s.rb keyTBS Reg.TBS_CFG.PTP_EN = true) →
      (port = s.rf keyTBS Reg.TBS_PTP_CFG.PORT) →
      (domain = s.rf keyTBS Reg.TBS_PTP_CFG.DOMAIN) →
      (transport = s.rf keyTBS Reg.TBS_PTP_CFG.TRANSPORT) →
      (s.tb.ptpMaster = some (source, ds, until_)) →
      (s.elapsed (s.advanceTo six).six ≤ until_) →
      ∃ t, exec (.ptpMessage port domain transport { kind := .syncTwoStep, source := source, seq := seq, egress := egress } masterPs six fine) s = .next t ∧ t.tb.ptpSync = seq ∧ t.tb.ptpT1 = none ∧ t.tb.ptpT2.isSome = true ∧ t.tb.ptpT3 = none) ∧
  (∀ (s : State) (port domain transport source seq masterPs six fine : Nat) (egress : Nat × Nat) (ds : Nat) (until_ : Int),
      (s.rb keyTBS Reg.TBS_CFG.PTP_EN = true) →
      (port = s.rf keyTBS Reg.TBS_PTP_CFG.PORT) →
      (domain = s.rf keyTBS Reg.TBS_PTP_CFG.DOMAIN) →
      (transport = s.rf keyTBS Reg.TBS_PTP_CFG.TRANSPORT) →
      (s.tb.ptpMaster = some (source, ds, until_)) →
      (s.elapsed (s.advanceTo six).six ≤ until_) →
      (s.tb.ptpSync = seq) →
      (s.tb.ptpT2.isSome = true) →
      ∃ t, exec (.ptpMessage port domain transport { kind := .followUp, source := source, seq := seq, egress := egress } masterPs six fine) s = .next t ∧ t.tb.ptpT1 = some masterPs ∧ t.tb.ptpT3.isSome = true ∧ t.tb.ptpReq = (s.tb.ptpReq + 1) % 65536) ∧
  (∀ (s : State) (port domain transport source seq masterPs six fine : Nat) (egress : Nat × Nat) (ds : Nat) (until_ : Int),
      (s.rb keyTBS Reg.TBS_CFG.PTP_EN = true) →
      (port = s.rf keyTBS Reg.TBS_PTP_CFG.PORT) →
      (domain = s.rf keyTBS Reg.TBS_PTP_CFG.DOMAIN) →
      (transport = s.rf keyTBS Reg.TBS_PTP_CFG.TRANSPORT) →
      (s.tb.ptpMaster = some (source, ds, until_)) →
      (s.elapsed (s.advanceTo six).six ≤ until_) →
      (s.tb.ptpReq = seq) →
      (s.tb.ptpT1.isSome = true ∧ s.tb.ptpT2.isSome = true ∧ s.tb.ptpT3.isSome = true) →
      ∃ t, exec (.ptpMessage port domain transport { kind := .delayResp (Config.ptpIdentity port), source := source, seq := seq, egress := egress } masterPs six fine) s = .next t ∧ t.tb.ptpT1 = none ∧ t.tb.ptpT2 = none ∧ t.tb.ptpT3 = none) ∧
  (∀ (s : State) (six fine highNs : Nat),
      (100 ≤ highNs) →
      (s.rb keyTBS Reg.TBS_CFG.PPS_IN_EN = true) →
      ∃ t, exec (.ppsInEdge six fine highNs) s = .next t ∧ t.tb.ppsLast = some (s.elapsed six) ∧ t.tb.setSecs = none) ∧
  (∀ (s : State) (six : Nat),
      (s.tb.ppsOut = false) →
      (s.timePs six 0 % psPerSecond ≤ 2000) →
      ∃ t, exec (.ppsOutEdge six) s = .next t ∧ t.tb.ppsOut = true ∧ t.out = s.out ++ [.ppsOut six true]) ∧
  (∀ (s : State) (six fine : Nat) (falling : Bool) (heldNs : Nat) (o : SyncOp),
      (2 ≤ heldNs) →
      (s.tb.sync = some o) →
      (o.falling = falling) →
      (o.isNow = false) →
      (o.edge = none) →
      (o.first = none) →
      ∃ t, exec (.syncinEdge six fine falling heldNs) s = .next t ∧ t.tb.sync.map (·.edge) = some (some (six, fine))) ∧
  (∀ (s : State) (six fine : Nat) (falling : Bool) (heldNs : Nat),
      (2 ≤ heldNs) →
      (s.tb.sync = none) →
      (s.rb keyTBS Reg.TBS_SYNC_CFG.EDGE = falling) →
      (s.rf keyTBS Reg.TBS_SYNC_STAT.IGNORED < 65535) →
      ∃ t, exec (.syncinEdge six fine falling heldNs) s = .next t ∧ t.rf keyTBS Reg.TBS_SYNC_STAT.IGNORED = s.rf keyTBS Reg.TBS_SYNC_STAT.IGNORED + 1) ∧
  (∀ (s : State) (o : SyncOp) (op : Op),
      (s.tb.sync = some o) →
      (o.isNow = false) →
      (o.first = none) →
      (s.page keyTBS).op = some op →
      ∃ t, exec (.armSyncTimeout) s = .next t ∧ t.tb.sync = none ∧ (t.page keyTBS).cmdStat = cmdStatWord op.tag phaseFAILED 0x03 codeTIMEOUT) ∧
  (∀ (s : State) (a : Nat) (rest : List Nat) (o : SyncOp),
      (s.tb.repeatAt = a :: rest) →
      (s.tb.sync = some o) →
      ∃ t, exec (.syncoutRepeat) s = .next t ∧ t.tb.repeatAt = rest ∧ t.out = s.out ++ [.syncout a o.falling]) ∧
  (∀ (s : State) (o : SyncOp) (six fine : Nat),
      (s.tb.sync = some o) →
      (o.edge = some (six, fine)) →
      (o.check = false) →
      ∃ t, exec (.syncResetApply) s = .next t ∧ t.tb.sync = none ∧ t.tb.repeatAt = [])

/-- MEASURE, FREQ_MEAS and the TDC's edges and limits take effect -/
def Obligations.IntervalMeasurementCompletes : Prop :=
  (∀ (s : State) (who : Issuer) (tag : Nat),
      s.takes who keyTDC →
      (s.rf keyTDC Reg.TDC_STOP_MASK.MASK ≠ 0) →
      (1 ≤ s.rf keyTDC Reg.TDC_CFG.STOP_COUNT ∧ s.rf keyTDC Reg.TDC_CFG.STOP_COUNT ≤ 16) →
      ∃ t, exec (.measure who tag) s = .next t ∧ t.tdc.mode = .waitStart ∧ t.tdc.edges = [] ∧ t.tdc.misses = 0 ∧ (t.page keyTDC).cmdStat = cmdStatWord tag phaseRUNNING 0 codeOK) ∧
  (∀ (s : State) (who : Issuer) (tag : Nat),
      s.takes who keyTDC →
      (s.page keyTDC).a0.toNat % 16 ≤ 8 →
      (1 ≤ (s.page keyTDC).a1.toNat ∧ (s.page keyTDC).a1.toNat ≤ 10000) →
      ∃ t, exec (.freqMeas who tag) s = .next t ∧ t.tdc.mode = .counting ∧ t.tdc.freqIn = (s.page keyTDC).a0.toNat % 16 ∧ t.tdc.freqN = 0 ∧ (t.page keyTDC).cmdStat = cmdStatWord tag phaseRUNNING 0 codeOK) ∧
  (∀ (s : State) (input : Nat) (falling : Bool) (six fine : Nat),
      (tdcDead s.tdc.last { input := input, falling := falling, t := s.fineTime six fine } = false) →
      (s.tdc.mode = .counting) →
      (input = s.tdc.freqIn) →
      (falling = false) →
      (s.fineTime six fine ≤ s.tdc.deadline) →
      ∃ t, exec (.tdcEdge input falling six fine) s = .next t ∧ t.tdc.freqN = s.tdc.freqN + 1 ∧ t.tdc.freqLast = s.fineTime six fine ∧ t.tdc.last = tdcRemember s.tdc.last { input := input, falling := falling, t := s.fineTime six fine }) ∧
  (∀ (s : State) (input : Nat) (falling : Bool) (six fine : Nat),
      (tdcDead s.tdc.last { input := input, falling := falling, t := s.fineTime six fine } = false) →
      (s.tdc.mode = .waitStart) →
      (s.fineTime six fine ≤ s.tdc.deadline) →
      (s.isStart { input := input, falling := falling, t := s.fineTime six fine } = true) →
      (s.tdc.edges = []) →
      (1 ≤ s.rf keyTDC Reg.TDC_CFG.STOP_COUNT) →
      ∃ t, exec (.tdcEdge input falling six fine) s = .next t ∧ t.tdc.mode = .measuring ∧ t.tdc.start = s.fineTime six fine ∧ t.tdc.startAt = (six, fine % 65536) ∧ t.tdc.edges = []) ∧
  (∀ (s : State) (op : Op),
      (s.tdc.mode = .measuring) →
      (s.page keyTDC).op = some op →
      (op.suspended = false) →
      (s.page keyTDC).resReady = false →
      ∃ t, exec (.tdcTimeout) s = .next t ∧ t.tdc.mode = .idle ∧ (t.page keyTDC).cmdStat = cmdStatWord op.tag phaseDONE 0 codeOK ∧ (t.page keyTDC).resReady = true) ∧
  (∀ (s : State) (op : Op),
      (s.tdc.mode = .waitStart) →
      (s.page keyTDC).op = some op →
      ∃ t, exec (.tdcStartWaitExpiry) s = .next t ∧ t.tdc.mode = .idle ∧ (t.page keyTDC).cmdStat = cmdStatWord op.tag phaseFAILED 0x02 codeTIMEOUT) ∧
  (∀ (s : State) (op : Op),
      (s.tdc.mode = .counting) →
      (s.tdc.freqN < 2) →
      (s.page keyTDC).op = some op →
      ∃ t, exec (.freqGateEnd) s = .next t ∧ t.tdc.mode = .idle ∧ (t.page keyTDC).cmdStat = cmdStatWord op.tag phaseFAILED 0x03 codeTIMEOUT) ∧
  (∀ (s : State) (op : Op),
      (s.tdc.mode = .counting) →
      (2 ≤ s.tdc.freqN) →
      (s.page keyTDC).op = some op →
      (op.suspended = false) →
      (s.page keyTDC).resReady = false →
      ∃ t, exec (.freqGateEnd) s = .next t ∧ t.tdc.mode = .idle ∧ (t.page keyTDC).cmdStat = cmdStatWord op.tag phaseDONE 0 codeOK ∧ (t.page keyTDC).res.head? = some (word s.tdc.freqN))

/-- AFE commits, applies, settling, detector and overload take effect -/
def Obligations.FrontEndConfigurationCompletes : Prop :=
  (∀ (s : State) (who : Issuer) (conv : Fin 5) (tag : Nat),
      s.takes who (keyAFE conv) →
      (s.six + 40960 ≤ (s.latch (keyAFE conv) 0x0100 tag).sixArg) →
      (s.latch (keyAFE conv) 0x0100 tag).sixArg % 32 = 0 →
      (s.afeCheck conv = none) →
      ∃ t, exec (.afeCommitAt who conv tag) s = .next t ∧ (t.pendOf (keyAFE conv)).map (·.due) = some (s.latch (keyAFE conv) 0x0100 tag).sixArg ∧ (t.page (keyAFE conv)).cmdStat = cmdStatWord tag phaseRUNNING 0 codeOK) ∧
  (∀ (s : State) (conv : Fin 5) (a : PendApply),
      (s.pendOf (keyAFE conv) = some a) →
      (a.empty = false) →
      ∃ t, exec (.afeApply conv) s = .next t ∧ t.pendOf (keyAFE conv) = none ∧ (t.page (keyAFE conv)).applied = a.words) ∧
  (∀ (s : State) (conv : Fin 5),
      (s.page (keyAFE conv)).settling = true →
      ∃ t, exec (.afeSettled conv) s = .next t ∧ (t.page (keyAFE conv)).settling = false ∧ t.rb (keyAFE conv) Reg.AFE_STAT.SETTLED = true) ∧
  (∀ (s : State) (conv : Fin 5) (level : Int) (heldNs six : Nat),
      (100 ≤ heldNs) →
      (s.noConv conv = false) →
      (s.detConnected conv = true) →
      (s.overFullScale conv level = true) →
      ∃ t, exec (.overload conv level heldNs six) s = .next t ∧ wbit (t.page (keyAFE conv)).err 16 = true) ∧
  (∀ (s : State) (conv : Fin 5) (level : Int) (heldNs : Nat),
      (100 ≤ heldNs) →
      (s.noConv conv = false) →
      (s.detConnected conv = true) →
      (s.overFullScale conv level = true) →
      ∃ t, exec (.afeDetUpdate conv level heldNs) s = .next t ∧ wbit (t.page (keyAFE conv)).err 16 = true) ∧
  (∀ (s : State) (conv : Fin 5) (level : Int) (heldNs : Nat),
      (s.noConv conv = false) →
      (s.overFullScale conv level = false) →
      ∃ t, exec (.afeDetUpdate conv level heldNs) s = .next t ∧ t.rf (keyAFE conv) Reg.AFE_DET.LEVEL = (if s.detConnected conv = true ∧ -6000 ≤ level then unsignedOf 16 level else 0x8000))

/-- Converter locks, sample groups, frames, configuration and temperature take effect -/
def Obligations.ConverterEventsComplete : Prop :=
  (∀ (s : State) (conv : Fin 5),
      (s.noConv conv = false) →
      (s.convState conv = convCLOCKING) →
      ∃ t, exec (.sclkLock conv) s = .next t ∧ t.convState conv = convFRAME_ALIGN) ∧
  (∀ (s : State) (conv : Fin 5),
      (s.noConv conv = false) →
      (s.convState conv = convSTREAMING ∨ s.convState conv = convPATTERN) →
      ∃ t, exec (.sclkLockLost conv) s = .next t ∧ t.convState conv = convCLOCKING) ∧
  (∀ (s : State) (conv : Fin 5) (codes : List Nat),
      (s.noConv conv = false) →
      (s.convState conv = convSTREAMING ∨ s.convState conv = convPATTERN) →
      ∃ t, exec (.sampleGroupLaunch conv codes) s = .next t ∧ (t.conv conv).nextLaunch = (s.conv conv).nextLaunch + 5 ∧ (t.conv conv).frames.length = (s.conv conv).frames.length + 5) ∧
  (∀ (s : State) (conv : Fin 5) ,
      (s.convState conv = convSTREAMING ∨ s.convState conv = convPATTERN ∨ s.fedBy conv (32 * (s.conv conv).nextFrame) ≠ []) →
      ∃ t, exec (.frameRelease conv () ()) s = .next t ∧ (t.conv conv).nextFrame = (s.conv conv).nextFrame + 1) ∧
  (∀ (s : State) (who : Issuer) (conv : Fin 5) (value : BitVec 32),
      s.honours who (keyADC conv) →
      ∃ t, exec (.adcCfgWrite who conv value) s = .next t ∧ t.rf (keyADC conv) Reg.ADC_CFG.ALIGN_SHIFT = wget value 4 0 ∧ t.rf (keyADC conv) Reg.ADC_CFG.PHASE = wget value 7 7) ∧
  (∀ (s : State) (conv : Fin 5) (temp : BitVec 16),
      (s.noConv conv = false) →
      ∃ t, exec (.adcTempUpdate conv temp) s = .next t ∧ t.rf (keyADC conv) Reg.ADC_TEMP.TEMP = temp.toNat) ∧
  (∀ (s : State) (conv : Fin 5) (k : Fin 64),
      (s.noConv conv = false) →
      ∃ t, exec (.subadcFault conv k) s = .next t ∧ wbit (t.page (keyADC conv)).err 17 = true ∧ wbit (t.reg (keyADC conv) (0x120 + 4 * (k.val / 32))) (k.val % 32) = true ∧ ((s.page (keyADC conv)).st = .active → (t.page (keyADC conv)).st = .fault)) ∧
  (∀ (s : State) (who : Issuer) (conv : Fin 5) (tag : Nat) (shift fracFs gainMdb : Int) (corrPpm : Nat),
      s.takes who (keyADC conv) →
      (s.page (keyADC conv)).resReady = false →
      (s.page (keyADC conv)).a0.toNat % 8 < 5 →
      (s.page (keyADC conv)).a0.toNat % 8 ≠ conv.val →
      (s.feeds conv ≠ none) →
      (s.feeds ((s.page (keyADC conv)).a0.toNat % 8) = s.feeds conv) →
      (s.convLocked conv = true) →
      (s.convLocked ((s.page (keyADC conv)).a0.toNat % 8) = true) →
      (s.page (keyADC conv)).a1.toNat % 2 = 0 →
      ∃ t, exec (.align who conv tag shift fracFs gainMdb { ppm := corrPpm, now := true }) s = .next t ∧ (t.page (keyADC conv)).cmdStat = cmdStatWord tag phaseDONE 0 codeOK ∧ (t.page (keyADC conv)).res[3]? = some (word corrPpm))

/-- The steps of the spare converter's rotation take effect -/
def Obligations.SpareRotationCompletes : Prop :=
  (∀ (s : State) (conv : Fin 4),
      (s.guest = false) →
      (s.spareAvailable = true) →
      ∃ t, exec (.spareAssign conv) s = .next t ∧ t.spareState = spareALIGNING ∧ t.rot.main = conv.val ∧ t.rot.corrected = false) ∧
  (∀ (s : State) (conv : Fin 4),
      (s.guest = false) →
      (s.spareAvailable = false) →
      (s.rot.queue.contains conv.val = false) →
      ∃ t, exec (.spareAssign conv) s = .next t ∧ t.rot.queue = s.rot.queue ++ [conv.val]) ∧
  (∀ (s : State) (frames : Nat) (delayFs gainMdb : Int) (corrPpm : Nat),
      (s.spareState = spareALIGNING) →
      (s.needsTone frames = false) →
      (s.rot.corrected = false) →
      ∃ t, exec (.alignCorrelationDone delayFs gainMdb { ppm := corrPpm, frames := frames }) s = .next t ∧ t.rot.corrected = true ∧ t.rot.skew = s.rot.skew + delaySkew delayFs) ∧
  (∀ (s : State) (frames : Nat) (delayFs gainMdb : Int) (corrPpm : Nat),
      (s.spareState = spareALIGNING) →
      (s.needsTone frames = false) →
      (s.rot.corrected = true) →
      (alignPasses delayFs gainMdb corrPpm = true) →
      ∃ t, exec (.alignCorrelationDone delayFs gainMdb { ppm := corrPpm, frames := frames }) s = .next t ∧ t.spareState = spareSHADOWING) ∧
  (∀ (s : State),
      (s.spareState = spareALIGNING) →
      (s.rot.queue = []) →
      ∃ t, exec (.alignTimeout) s = .next t ∧ t.spareState = spareIDLE ∧ t.rot.h = none) ∧
  (∀ (s : State) (frames : Nat) (delayFs gainMdb : Int) (corrPpm : Nat),
      (s.spareState = spareRETURNING) →
      (s.needsTone frames = false) →
      (s.rot.waiting = false) →
      (s.rot.h = none) →
      (alignPasses delayFs gainMdb corrPpm = true) →
      (s.inputMigrating s.rot.input = false) →
      ∃ t, exec (.handbackCheck delayFs gainMdb { ppm := corrPpm, frames := frames }) s = .next t ∧ t.rot.h = some (handoverIndex s.six)) ∧
  (∀ (s : State) (frames : Nat) (delayFs gainMdb : Int) (corrPpm : Nat),
      (s.spareState = spareRETURNING) →
      (s.needsTone frames = false) →
      (s.rot.waiting = false) →
      (s.rot.h = none) →
      (alignPasses delayFs gainMdb corrPpm = false) →
      (s.rot.retried = false) →
      ∃ t, exec (.handbackCheck delayFs gainMdb { ppm := corrPpm, frames := frames }) s = .next t ∧ t.rot.retried = true ∧ t.rot.h = none) ∧
  (∀ (s : State) (h : Nat),
      (s.rot.h = some h) →
      ∃ t, exec (.handover) s = .next t ∧ t = s.handover.beginNext ∧ s.handover.rot.h = none)

/-- Commits, applies and crossfades of chains and insets take effect -/
def Obligations.ChainAndInsetsComplete : Prop :=
  (∀ (s : State) (who : Issuer) (pipe : Fin 6) (tag : Nat),
      s.takes who (keyDDC pipe) →
      (s.six + 4096 ≤ (s.latch (keyDDC pipe) 0x0100 tag).sixArg) →
      (s.latch (keyDDC pipe) 0x0100 tag).sixArg % 32 = 0 →
      (s.crossfading pipe = false) →
      (s.ddcCheck pipe = none) →
      ∃ t, exec (.ddcCommitAt who pipe tag) s = .next t ∧ (t.pendOf (keyDDC pipe)).map (·.due) = some (s.latch (keyDDC pipe) 0x0100 tag).sixArg ∧ (t.page (keyDDC pipe)).cmdStat = cmdStatWord tag phaseRUNNING 0 codeOK) ∧
  (∀ (s : State) (who : Issuer) (pipe : Fin 6) (tag : Nat),
      s.takes who (keyINS pipe) →
      (s.six + 4096 ≤ (s.latch (keyINS pipe) 0x0100 tag).sixArg) →
      (s.latch (keyINS pipe) 0x0100 tag).sixArg % 32 = 0 →
      (s.insCheck pipe = none) →
      ∃ t, exec (.insCommitAt who pipe tag) s = .next t ∧ (t.pendOf (keyINS pipe)).map (·.due) = some (s.latch (keyINS pipe) 0x0100 tag).sixArg ∧ (t.page (keyINS pipe)).cmdStat = cmdStatWord tag phaseRUNNING 0 codeOK) ∧
  (∀ (s : State) (pipe : Fin 6) (a : PendApply),
      (s.pendOf (keyDDC pipe) = some a) →
      (a.empty = false) →
      (a.due < 2 ^ 72) →
      ∃ t, exec (.ddcApply pipe) s = .next t ∧ t.pendOf (keyDDC pipe) = none ∧ t.six3 (keyDDC pipe) 0x12C = a.due) ∧
  (∀ (s : State) (pipe : Fin 6) (a : PendApply),
      (s.pendOf (keyINS pipe) = some a) →
      (a.empty = false) →
      ∃ t, exec (.insApply pipe) s = .next t ∧ t.pendOf (keyINS pipe) = none ∧ t.reg (keyINS pipe) 0x124 = a.word (keyINS pipe) 0x100) ∧
  (∀ (s : State) (pipe : Fin 6),
      (s.chain pipe).wantClean = true →
      (s.chain pipe).cleanSeen = true →
      ∃ t, exec (.chainClean pipe) s = .next t ∧ (t.chain pipe).wantClean = false ∧ wbit (t.page (keyDDC pipe)).irq 18 = true) ∧
  (∀ (s : State) (pipe : Fin 6),
      (s.crossfading pipe = true) →
      (s.chain pipe).xfLeft = 0 →
      (s.chain pipe).target = none →
      ∃ t, exec (.xfadeDone pipe none) s = .next t ∧ t.rf (keyDDC pipe) Reg.DDC_STAT.CFG_STATE = 0 ∧ wbit (t.page (keyDDC pipe)).irq 17 = true) ∧
  (∀ (s : State) (pipe : Fin 6) (n : Fin 64),
      (s.inset pipe n).xfLeft = 0 →
      (s.inset pipe n).xfAt ≠ 0 →
      (s.inset pipe n).target = none →
      ∃ t, exec (.xfadeDone pipe (some n)) s = .next t ∧ (t.inset pipe n).xfAt = 0 ∧ wbit (t.page (keyINS pipe)).irq 17 = true) ∧
  (∀ (s : State) (who : Issuer) (pipe : Fin 6) (value : BitVec 32),
      s.honours who (keyDDC pipe) →
      (10 ≤ wget value 4 0 ∧ wget value 4 0 ≤ 26) →
      ∃ t, exec (.dcCfgWrite who pipe value) s = .next t ∧ t.rf (keyDDC pipe) Reg.DDC_DC_CFG.SHIFT = wget value 4 0 ∧ t.rf (keyDDC pipe) Reg.DDC_DC_CFG.FREEZE = wget value 8 8)

/-- Spectra, FFT and GRT commits, CLEAR, ticks, boundaries and readouts take effect -/
def Obligations.TransformAndGraticuleComplete : Prop :=
  (∀ (s : State) (who : Issuer) (pipe : Fin 6) (tag : Nat),
      s.takes who (keyFFT pipe) →
      (s.six + 4096 ≤ (s.latch (keyFFT pipe) 0x0100 tag).sixArg) →
      (s.latch (keyFFT pipe) 0x0100 tag).sixArg % 32 = 0 →
      (s.fftCheck pipe = none) →
      ∃ t, exec (.fftCommitAt who pipe tag) s = .next t ∧ (t.pendOf (keyFFT pipe)).map (·.due) = some (s.latch (keyFFT pipe) 0x0100 tag).sixArg ∧ (t.page (keyFFT pipe)).cmdStat = cmdStatWord tag phaseRUNNING 0 codeOK) ∧
  (∀ (s : State) (pipe : Fin 6) (a : PendApply),
      (s.pendOf (keyFFT pipe) = some a) →
      (a.empty = false) →
      (a.due < 2 ^ 72) →
      ∃ t, exec (.fftApply pipe) s = .next t ∧ t.pendOf (keyFFT pipe) = none ∧ t.six3 (keyFFT pipe) 0x130 = a.due) ∧
  (∀ (s : State) (pipe : Fin 6) (ws : List (Nat × Word)) (last : Nat),
      (s.isActive (keyFFT pipe) = true) →
      (s.gangedSecond pipe = false) →
      (ws = s.fftWords pipe (s.engine pipe).nextStart) →
      (last = (s.engine pipe).nextStart + (wordsN pipe ws - 1) * s.labelP pipe) →
      (last < (s.chain pipe).nextLabel) →
      (s.frameInputs pipe (s.engine pipe).nextStart last).length = wordsN pipe ws →
      (s.engine pipe).old = [] →
      ∃ t, exec (.spectrum pipe () ()) s = .next t ∧ (t.engine pipe).nextStart = (s.engine pipe).nextStart + s.frameStep pipe ws) ∧
  (∀ (s : State) (pipe : Fin 6),
      (s.isActive (keyGRT pipe) = true) →
      (s.accState pipe = accACC) →
      ∃ t, exec (.grtTick pipe) s = .next t ∧ (t.grat pipe).nextTick = (s.grat pipe).nextTick + 4096000) ∧
  (∀ (s : State) (pipe : Fin 6) (b : Nat),
      (s.isActive (keyGRT pipe) = true) →
      (s.grat pipe).boundary = some b →
      (s.grat pipe).readout = none →
      (s.grat pipe).clearNext = false →
      ∃ t, exec (.grtFrameBoundary pipe) s = .next t ∧ (t.grat pipe).cur = (s.grat pipe).next ∧ (t.grat pipe).openSix = b ∧ (t.grat pipe).readout.isSome = s.ab (keyGRT pipe) Reg.GRT_CFG.OUT_EN ∧ t.rf (keyGRT pipe) Reg.GRT_MAP_SEL.APPLIED = s.rf (keyGRT pipe) Reg.GRT_MAP_SEL.BANK) ∧
  (∀ (s : State) (pipe : Fin 6) (f : GrtFrame),
      (s.grat pipe).readout = some f →
      ∃ t, exec (.grtReadoutDone pipe) s = .next t ∧ (t.grat pipe).readout = none ∧ wbit (t.page (keyGRT pipe)).irq 17 = true) ∧
  (∀ (s : State) (who : Issuer) (pipe : Fin 6) (tag : Nat),
      s.takes who (keyGRT pipe) →
      (s.gangedSecond pipe = false) →
      (s.isActive (keyGRT pipe) = true) →
      ∃ t, exec (.clear who pipe tag) s = .next t ∧ (t.grat pipe).clearNext = true ∧ (t.page (keyGRT pipe)).cmdStat = cmdStatWord tag phaseRUNNING 0 codeOK) ∧
  (∀ (s : State) (pipe : Fin 6) (a : PendApply),
      (s.pendOf (keyGRT pipe) = some a) →
      (a.empty = false) →
      (s.isActive (keyGRT pipe) = false) →
      (a.due ≤ ceilTo (s.af (keyGRT pipe) Reg.GRT_FRAME_PERIOD.US * sixPerUs) a.due) →
      ∃ t, exec (.grtApply pipe) s = .next t ∧ t.pendOf (keyGRT pipe) = none ∧ t.areg (keyGRT pipe) 0x100 = a.word (keyGRT pipe) 0x100) ∧
  (∀ (s : State) (who : Issuer) (pipe : Fin 6) (value : BitVec 32),
      s.honours who (keyGRT pipe) →
      ∃ t, exec (.grtMapSelWrite who pipe value) s = .next t ∧ t.rf (keyGRT pipe) Reg.GRT_MAP_SEL.BANK = wget value 0 0)

/-- Trigger commits, software triggers, external edges, pulses and event timers take effect -/
def Obligations.TriggerCommandsComplete : Prop :=
  (∀ (s : State) (who : Issuer) (pipe : Fin 6) (tag : Nat),
      s.takes who (keyCTR pipe) →
      (s.six + 4096 ≤ (s.latch (keyCTR pipe) 0x0100 tag).sixArg) →
      (s.latch (keyCTR pipe) 0x0100 tag).sixArg % 32 = 0 →
      (s.ctrCheck pipe = none) →
      ∃ t, exec (.ctrCommitAt who pipe tag) s = .next t ∧ (t.pendOf (keyCTR pipe)).map (·.due) = some (s.latch (keyCTR pipe) 0x0100 tag).sixArg ∧ (t.page (keyCTR pipe)).cmdStat = cmdStatWord tag phaseRUNNING 0 codeOK) ∧
  (∀ (s : State) (who : Issuer) (pipe : Fin 6) (tag : Nat),
      s.takes who (keyTTR pipe) →
      (s.six + 4096 ≤ (s.latch (keyTTR pipe) 0x0100 tag).sixArg) →
      (s.latch (keyTTR pipe) 0x0100 tag).sixArg % 32 = 0 →
      (s.ttrCheck pipe = none) →
      ∃ t, exec (.ttrCommitAt who pipe tag) s = .next t ∧ (t.pendOf (keyTTR pipe)).map (·.due) = some (s.latch (keyTTR pipe) 0x0100 tag).sixArg ∧ (t.page (keyTTR pipe)).cmdStat = cmdStatWord tag phaseRUNNING 0 codeOK) ∧
  (∀ (s : State) (who : Issuer) (region : Fin 2) (tag : Nat),
      s.takes who (keyTRG region) →
      (s.six + 4096 ≤ (s.latch (keyTRG region) 0x0100 tag).sixArg) →
      (s.latch (keyTRG region) 0x0100 tag).sixArg % 32 = 0 →
      (s.trgCheck region = none) →
      ∃ t, exec (.trgCommitAt who region tag) s = .next t ∧ (t.pendOf (keyTRG region)).map (·.due) = some (s.latch (keyTRG region) 0x0100 tag).sixArg ∧ (t.page (keyTRG region)).cmdStat = cmdStatWord tag phaseRUNNING 0 codeOK) ∧
  (∀ (s : State) (pipe : Fin 6) (a : PendApply),
      (s.pendOf (keyTTR pipe) = some a) →
      (a.empty = false) →
      ∃ t, exec (.triggerApply (Fin.ofNat 2 (pipe / 3)) (Fin.ofNat 1024 (keyTTR pipe))) s = .next t ∧ t.pendOf (keyTTR pipe) = none ∧ wbit (t.page (keyTTR pipe)).irq 16 = true) ∧
  (∀ (s : State) (who : Issuer) (region : Fin 2) (tag : Nat),
      s.takes who (keyTRG region) →
      (s.gridPipes region = [3 * region]) →
      (wget (s.page (keyTRG region)).a0 0 0 = 1) →
      ∃ t, exec (.swTrig who region tag) s = .next t ∧ (t.trig (3 * region)).occs = (s.trig (3 * region)).occs ++ [{ src := 19, sample := ceilTo (s.labelP (3 * region)) s.six, six := ceilTo (s.labelP (3 * region)) s.six, fine := 0, at0 := ceilTo (s.labelP (3 * region)) s.six }] ∧ (t.page (keyTRG region)).cmdStat = cmdStatWord tag phaseDONE 0 codeOK) ∧
  (∀ (s : State) (who : Issuer) (region : Fin 2) (tag : Nat),
      s.takes who (keyTRG region) →
      (s.six + 4096 ≤ (s.latch (keyTRG region) 0x0102 tag).sixArg) →
      ∃ t, exec (.swTrigAt who region tag) s = .next t ∧ (t.page (keyTRG region)).op = some (s.latch (keyTRG region) 0x0102 tag) ∧ (t.page (keyTRG region)).cmdStat = cmdStatWord tag phaseRUNNING 0 codeOK) ∧
  (∀ (s : State) (region : Fin 2) (op : Op),
      (s.page (keyTRG region)).op = some op →
      (op.opcode = 0x0102) →
      (op.suspended = false) →
      ∃ t, exec (.swTrigAtFire region) s = .next t ∧ (t.page (keyTRG region)).op = none ∧ (t.page (keyTRG region)).cmdStat = cmdStatWord op.tag phaseDONE 0 codeOK) ∧
  (∀ (s : State) (input : Fin 7) (falling : Bool) (six fine heldNs : Nat),
      (2 ≤ heldNs) →
      (extActive s 0 input falling = false) →
      (extActive s 1 input falling = false) →
      ∃ t, exec (.extTrigEdge input falling six fine heldNs) s = .next t ∧ t = s.advanceTo six) ∧
  (∀ (s : State) (input : Fin 7) (falling : Bool) (six fine heldNs : Nat),
      (2 ≤ heldNs) →
      (extActive s 0 input falling = true) →
      (nth none (s.trigOut 0).lastEdge input = none) →
      (s.advanceTo six).gridPipes 0 = [0] →
      (input.val < (s.trigOut 0).lastEdge.length) →
      ∃ t, exec (.extTrigEdge input falling six fine heldNs) s = .next t ∧ (t.trig 0).occs = (s.trig 0).occs ++ [{ src := 12 + input, sample := ceilTo ((s.advanceTo six).labelP 0) six, six := six, fine := fine, at0 := six }]) ∧
  (∀ (s : State) (region : Fin 2) (six e : Nat),
      (s.trigOut region).outEnd = some e →
      (e ≤ six) →
      (∀ k ∈ List.range 4, nth none (s.trigOut region).xtrigEnd k = none) →
      ∃ t, exec (.trigOutPulseEnd region six) s = .next t ∧ (t.trigOut region).outEnd = none ∧ t.out = s.out ++ [.trigOut region e false]) ∧
  (∀ (s : State) (pipe : Fin 6) (ev : Fin 4) (u : Nat),
      (s.event pipe ev).st = .holdoff u →
      (ev.val < (s.trig pipe).events.length) →
      ∃ t, exec (.holdoffEnd pipe ev) s = .next t ∧ (t.event pipe ev).st = .idle) ∧
  (∀ (s : State) (pipe : Fin 6) (ev : Fin 4) (a : Nat),
      (s.event pipe ev).st = .armed a →
      (s.nextSample pipe ev = none) →
      (ev.val < (s.trig pipe).events.length) →
      ∃ t, exec (.seqWindowExpiry pipe ev) s = .next t ∧ (t.event pipe ev).st = .idle ∧ t.rf (keyTRG (pipe / 3)) (Reg.TRG_EV_LOST.SEQ_EXPIRED (4 * (pipe % 3) + ev)) = min 65535 (s.rf (keyTRG (pipe / 3)) (Reg.TRG_EV_LOST.SEQ_EXPIRED (4 * (pipe % 3) + ev)) + 1))

/-- Event evaluation, samples, sheets, planes and their commits take effect -/
def Obligations.EventsAndCaptureComplete : Prop :=
  (∀ (s : State) (pipe : Fin 6) (ev : Fin 4),
      (s.nextSample pipe ev = none) →
      ∃ t, exec (.eventEval pipe ev) s = .next t ∧ t = s) ∧
  (∀ (s : State) (pipe : Fin 6) (ev : Fin 4) (x : Nat),
      (s.nextSample pipe ev = some x) →
      (s.isActive (keyTRG (pipe / 3)) = true) →
      (s.event pipe ev).st = .idle →
      (ev.val < (s.trig pipe).events.length) →
      (s.evEn pipe ev = true) →
      (s.hasGrid pipe = true) →
      (s.evOp pipe ev = 0) →
      (s.trig pipe).occMask (s.evA pipe ev) x ≠ 0 →
      (onlyExternal (s.evSources pipe ev) = false) →
      ∃ t, exec (.eventEval pipe ev) s = .next t ∧ (t.event pipe ev).st = (if s.evHoldoff pipe ev = 0 then .idle else .holdoff (x + 32 * s.evHoldoff pipe ev)) ∧ (t.event pipe ev).from0 = x + 1 ∧ wbit (t.page (keyTRG (pipe / 3))).irq (17 + (4 * (pipe % 3) + ev)) = true) ∧
  (∀ (s : State) (pipe : Fin 6),
      (s.wrState pipe ≠ wrRUNNING) →
      (s.chain pipe).fifo = [] →
      ∃ t, exec (.captureSample pipe) s = .next t ∧ t = s) ∧
  (∀ (s : State) (pipe : Fin 6) (c : ChainSample) (rest : List ChainSample),
      (s.chain pipe).fifo = c :: rest →
      (s.wrState pipe = wrRUNNING) →
      (s.capture pipe).resumeAt = none →
      (s.capture pipe).newEpoch = false →
      (s.af (keyCAP pipe) Reg.CAP_CFG.FORMAT ≠ 0) →
      (s.ab (keyCAP pipe) Reg.CAP_CFG.POLICY = false) →
      (s.ab (keyCAP pipe) Reg.CAP_CFG.CHUNK_EN = false) →
      (s.oldestProtected pipe = none) →
      (s.capWc pipe + 1 < 2 ^ 64) →
      ∃ t, exec (.captureSample pipe) s = .next t ∧ t.capWc pipe = s.capWc pipe + 1 ∧ (t.chain pipe).fifo = rest) ∧
  (∀ (s : State) (pipe : Fin 6) (h : Sheet),
      (s.capture pipe).sheets = [h] →
      (h.ready = false) →
      (h.startWc + h.pre + h.post ≤ s.capWc pipe) →
      ∃ t, exec (.sheetReady pipe) s = .next t ∧ (t.capture pipe).sheets = [{ h with ready := true }] ∧ wbit (t.page (keyCAP pipe)).irq 17 = true) ∧
  (∀ (s : State) (who : Issuer) (pipe : Fin 6) (tag : Nat) (h : Sheet) (rest : List Sheet),
      s.takes who (keyCAP pipe) →
      (s.gangedSecond pipe = false) →
      (s.capture pipe).sheets = h :: rest →
      (h.ready = true) →
      (h.released = false) →
      (rest.head?.map (·.released) ≠ some true) →
      (s.page (keyCAP pipe)).a0.toNat = s.rf (keyCAP pipe) Reg.CAP_SHEET_HEAD →
      (s.page (keyCAP pipe)).a1.toNat = h.startWc % 2 ^ 32 →
      ∃ t, exec (.releaseSheet who pipe tag) s = .next t ∧ (t.capture pipe).sheets = rest ∧ (t.page (keyCAP pipe)).cmdStat = cmdStatWord tag phaseDONE 0 codeOK) ∧
  (∀ (s : State) (who : Issuer) (pipe : Fin 6) (tag : Nat),
      s.takes who (keyCAP pipe) →
      (s.gangedSecond pipe = false) →
      (s.wrState pipe = wrSTOPPED) →
      (s.spaceFree pipe = true) →
      ∃ t, exec (.restart who pipe tag) s = .next t ∧ t.wrState pipe = wrRUNNING ∧ (t.page (keyCAP pipe)).cmdStat = cmdStatWord tag phaseDONE 0 codeOK) ∧
  (∀ (s : State) (pipe : Fin 6),
      (s.wrState pipe = wrSTOPPED) →
      (s.spaceFree pipe = true) →
      (s.ab (keyCAP pipe) Reg.CAP_CFG.AUTO_RESUME = true) →
      (s.isActive (keyCAP pipe) = true) →
      ∃ t, exec (.writerAutoResume pipe) s = .next t ∧ t.wrState pipe = wrRUNNING ∧ (t.capture pipe).newEpoch = true ∧ wbit (t.page (keyCAP pipe)).irq 19 = true) ∧
  (∀ (s : State) (pipe : Fin 6) (r : Record) (rest : List (Nat × Record)),
      (s.isActive (keyRED pipe) = true) →
      (s.capture pipe).queue = (0, r) :: rest →
      (s.capture pipe).lost = [] →
      (s.planeUsed pipe 0 + recordUnits r ≤ s.planeLen pipe 0) →
      (s.planeLen pipe 0 ≤ 2 ^ 30) →
      ∃ t, exec (.recordPlaneWrite pipe) s = .next t ∧ t.rf (keyRED pipe) (Reg.RED_RP_WR.OFFSET 0) = (s.rf (keyRED pipe) (Reg.RED_RP_WR.OFFSET 0) + recordUnits r) % s.planeLen pipe 0 ∧ (t.capture pipe).queue = rest) ∧
  (∀ (s : State) (who : Issuer) (pipe : Fin 6) (plane : Fin 3) (value : BitVec 32),
      s.honours who (keyRED pipe) →
      (value.toNat < 2 ^ 30) →
      (value.toNat = s.rf (keyRED pipe) (Reg.RED_RP_WR.OFFSET plane)) →
      (value.toNat < s.planeLen pipe plane) →
      ∃ t, exec (.recordPlaneRdWrite who pipe plane value) s = .next t ∧ t.rf (keyRED pipe) (Reg.RED_RP_RD.OFFSET plane) = value.toNat) ∧
  (∀ (s : State) (pipe : Fin 6) (b : Nat),
      (s.isActive (keyRED pipe) = true) →
      (s.ab (keyRED pipe) Reg.RED_CFG.TRACE_EN = true) →
      (s.capture pipe).traceEnd = some b →
      ∃ t, exec (.traceBoundary pipe) s = .next t ∧ (t.capture pipe).trace = (s.capture pipe).traceThen ∧ (t.capture pipe).traceStart = b) ∧
  (∀ (s : State) (pipe : Fin 6) (a : PendApply),
      (s.pendOf (keyCAP pipe) = some a) →
      (a.empty = false) →
      ∃ t, exec (.capApply pipe) s = .next t ∧ t.pendOf (keyCAP pipe) = none ∧ wbit (t.page (keyCAP pipe)).irq 16 = true) ∧
  (∀ (s : State) (pipe : Fin 6) (a : PendApply),
      (s.pendOf (keyRED pipe) = some a) →
      (a.empty = false) →
      (s.capture pipe).traceEnd = none →
      ∃ t, exec (.redApply pipe) s = .next t ∧ t.pendOf (keyRED pipe) = none ∧ wbit (t.page (keyRED pipe)).irq 16 = true) ∧
  (∀ (s : State) (pipe : Fin 6) (h : Sheet),
      (s.ownerTask pipe 2 ≠ 0) →
      (s.capture pipe).sheets = [h] →
      (h.ready = true ∧ h.cut = false ∧ h.released = false) →
      (s.capWc pipe ≤ h.startWc + s.ringL pipe) →
      (s.ab (keyRED pipe) Reg.RED_CFG.CUT_ENV = false) →
      (s.ab (keyRED pipe) Reg.RED_CFG.CUT_POW = false) →
      ∃ t, exec (.sheetCut pipe) s = .next t ∧ (t.capture pipe).sheets = [{ h with cut := true }] ∧ t.readyRecs.map (·.from0) = s.readyRecs.map (·.from0) ++ [.sheet pipe h.startWc])

/-- Doorbells, rings and the commands of ring 0 take effect -/
def Obligations.RingsAndSubmissionsComplete : Prop :=
  (∀ (s : State) (count : BitVec 64),
      (s.ringsOpen = true) →
      (count.toNat % 2 ^ 32 % 2 = 0) →
      (cnt32 s.phn.prod0 s.phn.cons0 ≤ cnt32 (count.toNat % 2 ^ 32) s.phn.cons0) →
      (cnt32 (count.toNat % 2 ^ 32) s.phn.cons0 ≤ s.ring0Len) →
      ∃ t, exec (.phnDoorbell count true) s = .next t ∧ t.phn.prod0 = count.toNat % 2 ^ 32) ∧
  (∀ (s : State) (count : BitVec 64),
      (s.ringsOpen = true) →
      (cnt32 (count.toNat % 2 ^ 32) s.phn.cons1 ≤ cnt32 s.phn.prod1 s.phn.cons1) →
      (s.phn.notices = []) →
      ∃ t, exec (.phnCqDoorbell count) s = .next t ∧ t.phn.cons1 = count.toNat % 2 ^ 32) ∧
  (∀ (s : State) (who : Issuer) (tag : Nat),
      s.takes who keyPHN →
      (s.ringsOpen = false) →
      (s.ringGeometry 0x104 0x10C = true ∧ s.ringGeometry 0x110 0x118 = true) →
      (s.phn.notices = []) →
      ∃ t, exec (.openRings who tag) s = .next t ∧ t.ringsOpen = true ∧ t.phn.cons0 = 0 ∧ t.phn.prod1 = 0 ∧ (t.page keyPHN).cmdStat = cmdStatWord tag phaseDONE 0 codeOK) ∧
  (∀ (s : State) (who : Issuer) (tag : Nat),
      s.takes who keyPHN →
      (s.ringsOpen = true) →
      (s.phn.held = none) →
      ∃ t, exec (.closeRings who tag) s = .next t ∧ t.ringsOpen = false ∧ wbit (t.page keyPHN).irq 16 = true ∧ (t.page keyPHN).cmdStat = cmdStatWord tag phaseDONE 0 codeOK) ∧
  (∀ (s : State) (entry : List Byte) (ext image : Option (List Byte)) (slot : Nat) (u x : Task) (gone : List Task),
      s.takesEntry opSUBMIT entry →
      (s.freeTaskSlot = some slot) →
      (s.takeHead opSUBMIT).describe s.liveTasks (newTask (s.nextGen slot * 4096 + slot) s.phn.arrivals entry) entry ext image = .ok u →
      ((s.takeHead opSUBMIT).envOf s.liveTasks (s.nextGen slot * 4096 + slot)).admits u [] (cNO_EVICT entry) = (.fits x, gone) →
      (s.takeHead opSUBMIT).trgConflict s.liveTasks x = false →
      ∃ t, exec (.submit entry ext image) s = .next t ∧ (t.task (s.nextGen slot * 4096 + slot)).map (·.st) = some .placed ∧ t.phn.evaluating = false) ∧
  (∀ (s : State) (entry : List Byte) (ext image : Option (List Byte)) (k x : Task),
      s.takesEntry opMODIFY entry →
      (s.task (cTASK entry) = some k) →
      (k.st = .suspended) →
      (modifyChange k.desc entry = none) →
      (s.takeHead opMODIFY).describe (s.liveTasks.filter fun x => decide (x.id ≠ k.id)) k (keepPin k entry) ext image = .ok x →
      ∃ t, exec (.modify entry ext image) s = .next t ∧ t.task k.id = some { x with pinned := x.pinned || k.pinned } ∧ t.phn.evaluating = false) ∧
  (∀ (s : State) (entry : List Byte) (ext image : Option (List Byte)) (a : Answer),
      s.takesEntry opPLAN entry →
      ((s.takeHead opPLAN).plan entry ext image).2 = some a →
      (a.phase = phaseDONE) →
      ∃ t, exec (.plan entry ext image) s = .next t ∧ t.phn.tasks = s.phn.tasks ∧ t.phn.prod1 = (s.phn.prod1 + 1) % 2 ^ 32 ∧ t.phn.evaluating = false) ∧
  (∀ (s : State) (entry : List Byte) (k : Task),
      s.takesEntry opTSUSPEND entry →
      (s.task (cTASK entry) = some k) →
      (k.st = .placed ∨ k.st = .running) →
      ∃ t, exec (.taskSuspend entry) s = .next t ∧ (t.task k.id).map (·.st) = some .suspended ∧ t.phn.evaluating = false) ∧
  (∀ (s : State) (entry : List Byte) (k : Task),
      s.takesEntry opTSUSPEND entry →
      (s.task (cTASK entry) = some k) →
      (k.st = .migrating) →
      ∃ t, exec (.taskSuspend entry) s = .next t ∧ t.phn.held.map (·.task) = some k.id ∧ t.phn.tasks = s.phn.tasks) ∧
  (∀ (s : State) (entry : List Byte) (k x : Task) (gone : List Task),
      s.takesEntry opTRESUME entry →
      (s.task (cTASK entry) = some k) →
      (k.st = .suspended) →
      (s.takeHead opTRESUME).inputConflict s.liveTasks k = false ∧ displayConflict s.liveTasks k = false →
      ((s.takeHead opTRESUME).envOf s.liveTasks k.id).admits k [] (cNO_EVICT entry) = (.fits x, gone) →
      (s.takeHead opTRESUME).trgConflict s.liveTasks x = false →
      ∃ t, exec (.taskResume entry) s = .next t ∧ (t.task k.id).map (fun y => (y.st, y.restart)) = some (.placed, true) ∧ t.phn.evaluating = false) ∧
  (∀ (s : State) (entry : List Byte) (k : Task),
      s.takesEntry opTCANCEL entry →
      (s.task (cTASK entry) = some k) →
      (k.st = .placed ∨ k.st = .running ∨ k.st = .suspended) →
      ∃ t, exec (.taskCancel entry) s = .next t ∧ (t.task k.id).map (·.st) = some .cancelled ∧ t.phn.evaluating = false) ∧
  (∀ (s : State) (entry : List Byte),
      s.takesEntry opTQUERY entry →
      (cTASK entry = 0) →
      ∃ t, exec (.taskQuery entry) s = .next t ∧ t.phn.tasks = s.phn.tasks ∧ t.phn.prod1 = (s.phn.prod1 + 1) % 2 ^ 32 ∧ t.phn.cons0 = (s.phn.cons0 + 2) % 2 ^ 32) ∧
  (∀ (s : State) (entry : List Byte) (k : Task),
      s.takesEntry opTQUERY entry →
      (cTASK entry ≠ 0) →
      (s.task (cTASK entry) = some k) →
      ∃ t, exec (.taskQuery entry) s = .next t ∧ t.phn.tasks = s.phn.tasks ∧ t.phn.prod1 = (s.phn.prod1 + 1) % 2 ^ 32) ∧
  (∀ (s : State) (entry : List Byte) (k : Task),
      s.takesEntry opPIN entry →
      (s.task (cTASK entry) = some k) →
      (k.st = .placed ∨ k.st = .running ∨ k.st = .suspended) →
      (k.pinned = false) →
      ∃ t, exec (.pin entry) s = .next t ∧ (t.task k.id).map (·.pinned) = some true ∧ t.phn.prod1 = (s.phn.prod1 + 1) % 2 ^ 32) ∧
  (∀ (s : State) (entry : List Byte) (k : Task),
      s.takesEntry opUNPIN entry →
      (s.task (cTASK entry) = some k) →
      (k.st = .placed ∨ k.st = .running ∨ k.st = .suspended) →
      (k.pinned = true) →
      ∃ t, exec (.unpin entry) s = .next t ∧ t.task k.id = some { k with pinned := false } ∧ t.phn.prod1 = (s.phn.prod1 + 1) % 2 ^ 32) ∧
  (∀ (s : State) (entry : List Byte),
      s.takesEntry opRESERVE entry →
      (1 ≤ u16At entry 0x24 ∧ u16At entry 0x24 ≤ 16) →
      (cKeys entry).all (fun k => ((s.takeHead opRESERVE).reserveError k).isNone) = true →
      (s.takeHead opRESERVE).reserveStuck (cKeys entry) = none →
      (keyConvs (cKeys entry) = []) →
      (groupsOn s.holdingTasks (avoided (cKeys entry)) = []) →
      (s.phn.mig = none ∧ s.phn.migQueue = []) →
      (s.activating = false) →
      ∃ t, exec (.reserve entry) s = .next t ∧ (cKeys entry).all (fun k => t.isReserved k) = true ∧ t.phn.held = none ∧ t.phn.evaluating = false) ∧
  (∀ (s : State) (entry : List Byte),
      s.takesEntry opRELEASE entry →
      (1 ≤ u16At entry 0x24 ∧ u16At entry 0x24 ≤ 16) →
      (cKeys entry).all (fun k => keyListed k && s.isReserved k) = true →
      ∃ t, exec (.release entry) s = .next t ∧ (cKeys entry).all (fun k => !t.isReserved k) = true ∧ t.phn.evaluating = false) ∧
  (∀ (s : State) (entry : List Byte),
      s.takesEntry opREBALANCE entry →
      ∃ t, exec (.rebalance entry) s = .next t ∧ t.phn = ((s.takeHead opREBALANCE).rebalance entry).1.phn) ∧
  (∀ (s : State) (entry : List Byte),
      s.takesEntry opREBALANCE entry →
      (s.holdingTasks = []) →
      (s.phn.mig = none ∧ s.phn.migQueue = []) →
      (s.activating = false) →
      ∃ t, exec (.rebalance entry) s = .next t ∧ t.phn.tasks = s.phn.tasks ∧ t.phn.held = none ∧ t.phn.evaluating = false ∧ t.phn.prod1 = (s.phn.prod1 + 1) % 2 ^ 32)

/-- Tasks start and end, and the steps of a migration take effect -/
def Obligations.TasksAndMigrationsComplete : Prop :=
  (∀ (s : State) (id : BitVec 32) (image : Option (List Byte)) (k : Task),
      (s.task id.toNat = some k) →
      (s.mayStart k = true) →
      (dTYPE k.desc = 7) →
      ∃ t, exec (.taskStart id image) s = .next t ∧ (t.task k.id).map (·.st) = some .running ∧ t.svy.holds.map (·.task) = s.svy.holds.map (·.task) ++ [k.id]) ∧
  (∀ (s : State) (id : BitVec 32) (image : Option (List Byte)) (k : Task),
      (s.task id.toNat = some k) →
      (s.mayStart k = true) →
      (needsPipe k.desc = true) →
      ((s.advanceTo (s.startIndex k)).startOnPipes k).task k.id = some k →
      ∃ t, exec (.taskStart id image) s = .next t ∧ (t.task k.id).map (·.st) = some .running) ∧
  (∀ (s : State) (id : BitVec 32) (k : Task),
      (s.task id.toNat = some k) →
      (k.st = .running) →
      (dDURATION k.desc ≠ 0) →
      ∃ t, exec (.taskDurationEnd id) s = .next t ∧ (t.task k.id).map (·.st) = some .done ∧ t.phn.tasks = ((s.advanceTo (k.startedAt + dDURATION k.desc)).endTask k.id .done codeOK 0).phn.tasks) ∧
  (∀ (s : State) (m : Migration),
      (s.beginNext.phn.mig = some m) →
      (m.phase = .begun) →
      ∃ t, exec (.migrationTargetStart) s = .next t ∧ t.phn.mig = some { m with phase := .parallel, startAt := ceilTo 32 s.beginNext.six }) ∧
  (∀ (s : State) (m : Migration) (six : Nat),
      (s.phn.mig = some m) →
      (m.phase = .parallel) →
      ∃ t, exec (.migrationVerify true six) s = .next t ∧ t.phn.mig.map (·.phase) = some .verified ∧ t.phn.mig.map (·.tasks) = some m.tasks) ∧
  (∀ (s : State) (m : Migration) (six : Nat),
      (s.phn.mig = some m) →
      (m.phase = .parallel) →
      (m.tries < 2) →
      ∃ t, exec (.migrationVerify false six) s = .next t ∧ t.phn.mig.map (fun x => (x.phase, x.tries)) = some (.retryWait, m.tries + 1)) ∧
  (∀ (s : State) (m : Migration),
      (s.phn.mig = some m) →
      (m.phase = .verified) →
      ∃ t, exec (.migrationHandover) s = .next t ∧ t.phn.mig.map (·.phase) = some .handedOver) ∧
  (∀ (s : State) (m : Migration),
      (s.phn.mig = some m) →
      (m.phase = .handedOver) →
      (s.phn.migQueue = []) →
      (s.phn.held = none) →
      ∃ t, exec (.migrationRelease) s = .next t ∧ t.phn.mig = none ∧ (m.tasks.filterMap t.task).all (fun k => decide (k.st = .running)) = true ∧ t.phn = (s.migRelease m).phn) ∧
  (∀ (s : State) (m : Migration) (k : Task) (goal : List Task),
      (s.phn.mig = some m) →
      (m.phase = .retryWait) →
      (m.cause = .rebalance) →
      (m.tasks.filterMap s.task).find? (fun x => decide (x.st = .running)) = some k →
      ((s.advanceTo m.retryAt).modPhn fun p => { p with mig := none }).goalOf m k = some goal →
      ∃ t, exec (.migrationRetry) s = .next t ∧ t.phn.mig.map (fun x => (x.phase, x.tries)) = some (.begun, m.tries)) ∧
  (∀ (s : State) (page : Fin 8192) (p : Nat),
      (keyPipes [page.val] = [p]) →
      ∃ t, exec (.predictiveFault page) s = .next t ∧ t.phn = (s.askMoves ((groupsOn s.holdingTasks [p]).map fun g => Migration.ask .predictive (g.map (·.id)) [] [])).phn)

/-- Surveys run step by step, and calibration is stored -/
def Obligations.SurveysComplete : Prop :=
  (∀ (s : State),
      (s.svy.run.isSome = true) →
      ∃ t, exec (.surveyDue) s = .next t ∧ t.rf keySVY Reg.SVY_QUEUE.DUE = ((s.allConvs.filter s.isDue).map (2 ^ ·)).sum) ∧
  (∀ (s : State) (r : SurveyRun),
      (s.svy.run = some r) →
      (r.step = 1) →
      (r.pipe = 6) →
      (r.hold = none) →
      (r.conv < 5) →
      (s.envOf s.liveTasks 0).surveyPipe r.conv (s.svy.holds.flatMap (·.pipes)) = none →
      ∃ t, exec (.surveyDeferredRetry) s = .next t ∧ (t.rf keySVY Reg.SVY_QUEUE.DEFERRED).testBit r.conv = true ∧ t.svy.run = some { r with pipe := 6 }) ∧
  (∀ (s : State) (r : SurveyRun) (power spur level : Int) (trims : List (Int × Int × Int × Int)) (crcs : List (BitVec 32)),
      (s.svy.run = some r) →
      (s.surveyPaused = false) →
      (r.step = 5) →
      (r.fin = none) →
      ∃ t, exec (.surveyStepDone power spur level trims crcs) s = .next t ∧ t.svy.run.map (·.step) = some 6) ∧
  (∀ (s : State) (r : SurveyRun),
      (s.svy.run = some r) →
      (s.surveyPaused = false) →
      (2 ≤ r.step) →
      (r.step ≠ 8) →
      (r.spare = false) →
      (r.hasTask = false) →
      (r.fin = none) →
      ∃ t, exec (.surveyStepTimeout) s = .next t ∧ t.svy.run.map (fun x => (x.step, x.fin)) = some (8, some (codeTIMEOUT, subSTEP_TIMEOUT, r.step)) ∧ wbit (t.page keySVY).err 17 = true) ∧
  (∀ (s : State) (r : SurveyRun),
      (s.svy.run = some r) →
      (r.step = 2) →
      (r.spare = false) →
      (r.hasTask = true) →
      (r.conv < 5) →
      (s.isStale r.conv = false) →
      ∃ t, exec (.staleBegin) s = .next t ∧ t.isStale r.conv = true) ∧
  (∀ (s : State) (r : SurveyRun),
      (s.svy.run = some r) →
      (r.step = 8) →
      (r.y ≠ 0) →
      (r.conv < 5) →
      (s.isStale r.conv = true) →
      ∃ t, exec (.staleEnd) s = .next t ∧ t.isStale r.conv = false) ∧
  (∀ (s : State) (conv : Fin 5) (at0 : Nat),
      (mfind s.svy.requeue conv = some at0) →
      (s.svy.run.isSome = true) →
      ∃ t, exec (.surveyRequeue conv) s = .next t ∧ mfind t.svy.requeue conv = none ∧ t.svy.run = s.svy.run) ∧
  (∀ (s : State) (conv : Fin 5) (at0 c : Nat) (hold : Option Nat),
      (mfind s.svy.requeue conv = some at0) →
      (s.svy.run = none) →
      (s.page keySVY).st ≠ .off →
      (((s.advanceTo at0).modSvy fun v => { v with requeue := mdel v.requeue conv }).refreshDue).nextSurvey = some (c, hold) →
      ∃ t, exec (.surveyRequeue conv) s = .next t ∧ mfind t.svy.requeue conv = none ∧ t.svy.run.map (·.conv) = some c) ∧
  (∀ (s : State) (task : BitVec 32) (h : CalHold) (k : Task),
      (s.svy.holds.find? (fun h => decide (h.task = task.toNat)) = some h) →
      (s.task task.toNat = some k) →
      (k.st = .running) →
      ∃ t, exec (.holdExpiry task) s = .next t ∧ (t.task task.toNat).map (·.st) = some .done ∧ t.svy.holds.all (fun h => decide (h.task ≠ task.toNat)) = true) ∧
  (∀ (s : State),
      (s.svy.store = .idle) →
      (s.rb keySVY Reg.SVY_BANK.STORE_PENDING = true) →
      (s.svy.lastStore + 7200000 * sixPerMs ≤ s.six) →
      ∃ t, exec (.calStoreStart) s = .next t ∧ t.svy.store = .data ∧ t.svy.lastStore = s.six ∧ t.rb keySVY Reg.SVY_BANK.STORE_ACTIVE = true) ∧
  (∀ (s : State),
      (s.svy.store ≠ .idle) →
      ∃ t, exec (.calStoreDone true) s = .next t ∧ t.svy.store = .idle ∧ t.areaInUse = s.storeTarget ∧ t.rb keySVY Reg.SVY_BANK.STORE_ACTIVE = false ∧ t.rf keySVY Reg.SVY_BANK.STORE_CODE = codeOK) ∧
  (∀ (s : State),
      (s.svy.store ≠ .idle) →
      ∃ t, exec (.calStoreDone false) s = .next t ∧ t.svy.store = .idle ∧ t.areaInUse = s.areaInUse ∧ t.rf keySVY Reg.SVY_BANK.STORE_CODE = codeINTEGRITY ∧ t.rf keySVY Reg.SVY_BANK.STORE_SUB = subSTORE_VERIFY) ∧
  (∀ (s : State),
      (s.svy.store ≠ .idle) →
      ∃ t, exec (.calStoreTimeout) s = .next t ∧ t.svy.store = .idle ∧ t.rf keySVY Reg.SVY_BANK.STORE_CODE = codeTIMEOUT ∧ t.rf keySVY Reg.SVY_BANK.STORE_SUB = subSTORE_TIMEOUT)

/-- The memory controllers serve, refresh, sleep, scrub and spare -/
def Obligations.MemoryStacksComplete : Prop :=
  (∀ (s : State) (stack : Fin 4) (pc : Fin 32) (r : MemReq),
      (s.srState stack = srACTIVE) →
      (s.stack stack).queue = [] →
      (s.stack stack).throttled = [] →
      (s.liveTasks = []) →
      (r.bytes = none) →
      (r.cls < 4) →
      (s.reqChannel stack r = pc) →
      (s.rankOf stack (addrLocal r.addr)).isSome = true →
      ∃ t, exec (.memRequest stack pc [r] 0 0) s = .next t ∧ Output.memReply r.source r.addr (s.readLine r.addr).1 (s.readLine r.addr).2 ∈ t.out ∧ t.mem = s.mem) ∧
  (∀ (s : State) (stack : Fin 4) (source u n : Nat),
      (mfind (s.stack stack).throttled source = some (u, n)) →
      ∃ t, exec (.throttleEnd stack source) s = .next t ∧ mfind (t.stack stack).throttled source = none) ∧
  (∀ (s : State) (stack : Fin 4),
      ∃ t, exec (.rhWindowStart stack) s = .next t ∧ (t.stack stack).acts = [] ∧ t.page (keyMEM stack) = (s.advanceTo ((s.six / 1310720000 + 1) * 1310720000)).page (keyMEM stack)) ∧
  (∀ (s : State) (stack : Fin 4),
      (s.srState stack < 3) →
      (s.rb (keyMEM stack) Reg.MEM_REFRESH.HOT = false) →
      (s.stack stack).queue.any (fun x => decide (x.2.cls = 0)) = true →
      (s.rf (keyMEM stack) Reg.MEM_REFRESH.OWED < 8) →
      ∃ t, exec (.refreshInterval stack) s = .next t ∧ t.rf (keyMEM stack) Reg.MEM_REFRESH.OWED = s.rf (keyMEM stack) Reg.MEM_REFRESH.OWED + 1) ∧
  (∀ (s : State) (stack : Fin 4) (temp : BitVec 16),
      ∃ t, exec (.memTempRefresh stack temp) s = .next t ∧ t.rf (keyMEM stack) Reg.MEM_TEMP.TEMP = temp.toNat ∧ t.rb (keyMEM stack) Reg.MEM_REFRESH.HOT = decide (85 * 16 < signedOf 16 temp.toNat)) ∧
  (∀ (s : State) (stack : Fin 4),
      (s.stack stack).bandNow ≠ s.rf (keyMEM stack) Reg.MEM_STAT.BAND →
      (s.stack stack).bandNow < 14 →
      (s.stack stack).bandLeft = none →
      ∃ t, exec (.tempBandChange stack) s = .next t ∧ t.rf (keyMEM stack) Reg.MEM_STAT.BAND = (s.stack stack).bandNow ∧ t.rb (keyMEM stack) Reg.MEM_TRAIN.PENDING = true) ∧
  (∀ (s : State) (stack : Fin 4),
      (s.rb (keyMEM stack) Reg.MEM_TRAIN.PENDING = true) →
      (s.srState stack < 3) →
      (s.rb (keyMEM stack) Reg.MEM_REFRESH.HOT = true) →
      (s.stack stack).delayCh < 15 →
      ∃ t, exec (.delayUpdate stack) s = .next t ∧ (t.stack stack).delayCh = (s.stack stack).delayCh + 1 ∧ (t.stack stack).delayAt = t.six) ∧
  (∀ (s : State) (stack : Fin 4),
      (s.srState stack = srIDLE_WAIT) →
      (s.mayIdle stack = true) →
      ∃ t, exec (.srIdleExpiry stack) s = .next t ∧ t.srState stack = srENTERING) ∧
  (∀ (s : State) (stack : Fin 4),
      (s.srState stack = srENTERING) →
      (s.mayIdle stack = true) →
      ∃ t, exec (.srEntryCommand stack) s = .next t ∧ t.srState stack = srSELF_REFRESH ∧ t.rf (keyMEM stack) Reg.MEM_REFRESH.OWED = 0 ∧ wbit (t.page (keyMEM stack)).irq 17 = true) ∧
  (∀ (s : State) (stack : Fin 4),
      (s.srState stack = srEXITING) →
      ∃ t, exec (.srExitDone stack) s = .next t ∧ t.rf (keyMEM stack) Reg.MEM_REFRESH.OWED = 0 ∧ wbit (t.page (keyMEM stack)).irq 18 = true ∧ t.srState stack < srENTERING) ∧
  (∀ (s : State) (stack : Fin 4),
      (s.srState stack = srACTIVE) →
      (s.liveTasks = []) →
      ∃ t, exec (.scrubRead stack 0) s = .next t ∧ (t.stack stack).scrub = s.scrubLine stack (s.stack stack).scrub + 1 ∧ t.mem = s.mem) ∧
  (∀ (s : State) (stack : Fin 4),
      (s.rf (keyMEM stack) Reg.MEM_SPARE_STAT.STATE = 1) →
      (s.stack stack).kept = [] →
      (s.stack stack).outQueue = [] →
      (s.liveTasks = []) →
      (s.rf (keyMEM stack) Reg.MEM_SPARE_STAT.FAILED < 128) →
      ∃ t, exec (.spareCopyDone stack []) s = .next t ∧ t.sparing stack = false ∧ t.rankState stack (s.rf (keyMEM stack) Reg.MEM_SPARE_STAT.FAILED) = rankRETIRED ∧ wbit (t.page (keyMEM stack)).irq 16 = true) ∧
  (∀ (s : State) (stack : Fin 4),
      (s.rf (keyMEM stack) Reg.MEM_SPARE_STAT.STATE = 2) →
      (s.stack stack).outQueue = [] →
      (s.liveTasks = []) →
      ∃ t, exec (.layerFillDone stack) s = .next t ∧ t.sparing stack = false ∧ (t.stack stack).filling = none)

/-- Flits are exchanged and replayed, and lanes repaired -/
def Obligations.LinkFlitsAndRepairsComplete : Prop :=
  (∀ (s : State) (port : Fin 14) (bytes : List (BitVec 8)),
      (s.linkRuns (endKey port) = true) →
      (bytes.length = 64) →
      (s.flitHits (endKey port) bytes = [(false, (s.link (endKey port)).accepted)]) →
      (flitVc bytes = 1) →
      (nbit (byteAt bytes 0) 3 = true ∧ nbit (byteAt bytes 0) 4 = true) →
      (byteAt bytes 0 / 64 ≠ 0) →
      ∃ t, exec (.flitReceive port bytes []) s = .next t ∧ (t.link (endKey port)).inbox = (s.link (endKey port)).inbox ++ [(1, 1, (bytes.drop 2).take 60)] ∧ (t.link (endKey port)).accepted = (s.link (endKey port)).accepted + 1 ∧ (t.link (endKey port)).rxSlot = (s.link (endKey port)).rxSlot + 1) ∧
  (∀ (s : State) (port : Fin 14) (n : Nat) (f : Flit) (rest : List (Nat × Flit)),
      (s.linkRuns (endKey port) = true) →
      (s.link (endKey port)).smp = [] →
      (s.link (endKey port)).resend = (n, f) :: rest →
      ∃ t, exec (.flitTransmit port) s = .next t ∧ (t.link (endKey port)).resend = rest ∧ (t.link (endKey port)).tseq = (s.link (endKey port)).tseq ∧ (t.link (endKey port)).txSlot = (s.link (endKey port)).txSlot + 1) ∧
  (∀ (s : State) (port : Fin 14) (i : Nat),
      (s.linkState (endKey port) = linkACTIVE) →
      (s.link (endKey port)).smp = [] →
      (s.link (endKey port)).resend = [] →
      (s.link (endKey port)).lnk = [] →
      (s.link (endKey port)).paramLeft = 0 →
      (s.link (endKey port)).unacked.length < replayCap (endKey port) →
      (s.pickPacket (endKey port) = some i) →
      ∃ t, exec (.flitTransmit port) s = .next t ∧ (t.link (endKey port)).tseq = (s.link (endKey port)).tseq + 1 ∧ (t.link (endKey port)).txSlot = (s.link (endKey port)).txSlot + 1) ∧
  (∀ (s : State) (port : Fin 14) (f : Nat × Flit) (rest : List (Nat × Flit)),
      (s.linkRuns (endKey port) = true) →
      (s.link (endKey port)).unacked = f :: rest →
      (s.link (endKey port)).replayFrom ≠ f.1 →
      (1 < s.rf (endKey port) Reg.BXE_THRESH1.REPLAY_LIMIT) →
      ∃ t, exec (.replayTimeout port) s = .next t ∧ (t.link (endKey port)).resend = (s.link (endKey port)).unacked.filter (fun x => decide (f.1 ≤ x.1)) ∧ (t.link (endKey port)).replayRow = 1) ∧
  (∀ (s : State) (port : Fin 14) (lane token : Nat) (slotW : BitVec 32),
      (s.linkState (endKey port) = linkACTIVE) →
      (lane < 128) →
      (wbit (s.reg (endKey port) (0x11C + 4 * (lane / 64))) (8 * (lane % 64 / 16) + 7) = false) →
      ∃ t, exec (.repairMessage port 1 lane token slotW) s = .next t ∧ (t.link (endKey port)).granted.map (fun g => (g.lane, g.token, g.slot)) = some (lane, token % 65536, slotW.toNat) ∧ t.out = s.out ++ [.sideband (endKey port) 2 lane (token % 65536) slotW.toNat]) ∧
  (∀ (s : State) (port : Fin 14) (lane : Nat) (slotW : BitVec 32) (r : Repair),
      (s.link (endKey port)).repair = some r →
      (r.token < 65536) →
      ∃ t, exec (.repairMessage port 2 lane r.token slotW) s = .next t ∧ (t.link (endKey port)).repair = some { r with acked := true }) ∧
  (∀ (s : State) (port : Fin 14) (r : Repair),
      (s.link (endKey port)).repair = some r →
      (r.acked = false) →
      ∃ t, exec (.repairAckDeadline port) s = .next t ∧ (t.link (endKey port)).repair.map (fun x => (x.lane, x.token, x.acked)) = some (r.lane, (s.link (endKey port)).token % 65536, false)) ∧
  (∀ (s : State) (port : Fin 14) (r : Repair),
      (s.link (endKey port)).granted = none →
      (s.link (endKey port)).repair = some r →
      (r.acked = true) →
      (r.byOp = false) →
      (s.link (endKey port)).repairNext = [] →
      ∃ t, exec (.repairSwitch port) s = .next t ∧ (t.link (endKey port)).repair = none ∧ t.rb (endKey port) Reg.BXE_STAT.REPAIR_PENDING = false ∧ wbit (t.page (endKey port)).irq 16 = true) ∧
  (∀ (s : State) (port : Fin 14),
      ∃ t, exec (.errorWindow port true) s = .next t ∧ (t.link (endKey port)).retrains = 0 ∧ (t.link (endKey port)).mismatch = []) ∧
  (∀ (s : State) (port : Fin 14),
      ∃ t, exec (.errorWindow port false) s = .next t ∧ (t.link (endKey port)).bad = 0) ∧
  (∀ (s : State) (port : Fin 14),
      (s.linkState (endKey port) = linkACTIVE) →
      (s.link (endKey port)).retrains + 1 < s.rf (endKey port) Reg.BXE_THRESH1.RETRAIN_LIMIT →
      ∃ t, exec (.noFlitTimeout port) s = .next t ∧ t.linkState (endKey port) = linkRETRAIN ∧ t.linkState (farEnd (endKey port)) = linkRETRAIN)

/-- The link states follow their events -/
def Obligations.LinkStatesComplete : Prop :=
  (∀ (s : State) (port : Fin 14),
      (s.page (endKey port)).st ≠ .off ∧ (s.page (farEnd (endKey port))).st ≠ .off →
      (s.page (endKey port)).enable = true ∧ (s.page (farEnd (endKey port))).enable = true →
      (s.linkState (endKey port) = linkDOWN ∧ s.linkState (farEnd (endKey port)) = linkDOWN) →
      ∃ t, exec (.linkPowerOn port) s = .next t ∧ t.linkState (endKey port) = linkSB_INIT ∧ t.linkState (farEnd (endKey port)) = linkSB_INIT) ∧
  (∀ (s : State) (port : Fin 14),
      (s.linkState (endKey port) = linkSB_INIT) →
      ∃ t, exec (.sidebandInitDone port) s = .next t ∧ t.linkState (endKey port) = linkMB_INIT) ∧
  (∀ (s : State) (port : Fin 14),
      (s.linkState (endKey port) = linkMB_INIT) →
      ∃ t, exec (.mbInitDone port []) s = .next t ∧ t.linkState (endKey port) = linkMB_TRAIN) ∧
  (∀ (s : State) (port : Fin 14),
      (s.linkState (endKey port) = linkMB_TRAIN) →
      ∃ t, exec (.mbTrainDone port) s = .next t ∧ t.linkState (endKey port) = linkLINK_INIT ∧ (t.link (endKey port)).tseq = 0 ∧ (t.link (endKey port)).accepted = 0 ∧ t.reg (endKey port) Reg.BXE_SLOT.off = 0) ∧
  (∀ (s : State) (port : Fin 14) (b : List Byte),
      (s.linkState (endKey port) = linkLINK_INIT) →
      (s.link (endKey port)).paramOk = false →
      (s.link (endKey port)).lnkIn.find? (fun b => decide (byteAt b 0 = 2)) = some b →
      (paramGood (endKey port) b = true) →
      ∃ t, exec (.paramReceive port) s = .next t ∧ (t.link (endKey port)).paramOk = true ∧ (t.link (endKey port)).advert = [u16At b 6, u16At b 8, u16At b 10]) ∧
  (∀ (s : State) (port : Fin 14) (b : List Byte),
      (s.linkState (endKey port) = linkALIGN) →
      (s.link (endKey port)).lnkIn.find? (fun b => decide (byteAt b 0 = 3)) = some b →
      ∃ t, exec (.alignFlit port) s = .next t ∧ t.linkState (endKey port) = linkACTIVE ∧ (t.link (endKey port)).smpRx = 4 * u16At b 2) ∧
  (∀ (s : State) (port : Fin 14),
      (s.linkState (endKey port) = linkLINK_INIT ∨ s.linkState (endKey port) = linkRETRAIN) →
      ∃ t, exec (.linkStateTimeout port) s = .next t ∧ t.linkState (endKey port) = linkFAULT) ∧
  (∀ (s : State) (who : Issuer) (port : Fin 14) (tag : Nat),
      s.takes who (endKey port) →
      (s.linkState (endKey port) = linkFAULT) →
      ∃ t, exec (.retrain who port tag) s = .next t ∧ t.linkState (endKey port) = linkMB_INIT ∧ t.linkState (farEnd (endKey port)) = linkMB_INIT) ∧
  (∀ (s : State) (port : Fin 14),
      (s.linkState (endKey port) = linkRETRAIN) →
      ∃ t, exec (.retrainDone port []) s = .next t ∧ t.linkState (endKey port) = (if s.linkSamples (endKey port) = true then linkALIGN else linkACTIVE) ∧ (t.link (endKey port)).rxSlot = 0) ∧
  (∀ (s : State) (who : Issuer) (port : Fin 14) (tag : Nat),
      s.takes who (endKey port) →
      (s.linkState (endKey port) = linkACTIVE) →
      (s.link (endKey port)).repair = none →
      (s.page (endKey port)).a0.toNat % 128 < 64 →
      (s.rmapRx (endKey port) ((s.page (endKey port)).a0.toNat % 128) < 128) →
      ∃ t, exec (.repair who port tag) s = .next t ∧ (t.link (endKey port)).repair.map (·.lane) = some ((s.page (endKey port)).a0.toNat % 128) ∧ t.rb (endKey port) Reg.BXE_STAT.REPAIR_PENDING = true) ∧
  (∀ (s : State) (link : Fin 7),
      ∃ t, exec (.linkFault link) s = .next t ∧ t.linkState (if link.val < 4 then keyOf (3 + link.val) 0x3F0 else keyOf 0 (0x3F0 + (link.val - 4))) = linkFAULT ∧ t.isolated (if link.val < 4 then 3 + link.val else if link.val = 4 then 7 else link.val - 4) = true)

/-- Completions, timeouts, messages and isolation take effect -/
def Obligations.TransactionsComplete : Prop :=
  (∀ (s : State) (port : Fin 14) (flits : Nat) (b : List Byte) (rest : List (Nat × Nat × List Byte)) (e : TagEntry),
      (s.link (endKey port)).fenced = false →
      (s.link (endKey port)).inbox = (3, flits, b) :: rest →
      (pTYPE (b.take (pBytes b)) = 0x20 ∨ pTYPE (b.take (pBytes b)) = 0x21) →
      (s.link (endKey port)).tags.find? (fun e => decide (e.tag = pTAG (b.take (pBytes b))) && !e.quarantined) = some e →
      (e.from0 = none) →
      ∃ t, exec (.packetReceive port) s = .next t ∧ (t.link (endKey port)).inbox = rest ∧ (t.link (endKey port)).tags = (s.link (endKey port)).tags.filter (fun x => decide (x.tag ≠ e.tag)) ∧ t.out = s.out ++ [.completion e.source (pSPACE (b.take (pBytes b))) (pPOISON (b.take (pBytes b))) ((b.take (pBytes b)).drop 16)]) ∧
  (∀ (s : State) (port : Fin 14) (tag : Fin 4096) (source : BitVec 16) (space : Fin 4) (addr : BitVec 64) (e : TagEntry),
      (s.link (endKey port)).tags.find? (fun e => decide (e.tag = tag.val)) = some e →
      (e.quarantined = false) →
      (e.from0 = none) →
      (e.rtype ≠ 0x12) →
      ∃ t, exec (.npTimeout port tag source space addr) s = .next t ∧ Output.completion e.source 4 true (List.replicate (64 * e.lines) 0) ∈ t.out ∧ wbit (t.page (endKey port)).err 22 = true) ∧
  (∀ (s : State) (port : Fin 14) (tag : Fin 4096) (e : TagEntry),
      (s.link (endKey port)).tags.find? (fun e => decide (e.tag = tag.val) && e.quarantined) = some e →
      ∃ t, exec (.tagQuarantineEnd port tag) s = .next t ∧ (t.link (endKey port)).tags = (s.link (endKey port)).tags.filter (fun x => decide (x.tag ≠ tag.val))) ∧
  (∀ (s : State) (index : Fin 65536) (bytes : List Byte) (h : HostRead),
      (s.hostReads[index.val]? = some h) →
      (h.from0 = none) →
      (s.six < h.sentAt + npTimeout 2) →
      ∃ t, exec (.hostReadCompletion index true bytes) s = .next t ∧ t.hostReads = s.hostReads.eraseIdx index.val ∧ t.out = s.out ++ [.completion h.source 0 false ((bytes ++ List.replicate (64 * h.lines) 0).take (64 * h.lines))]) ∧
  (∀ (s : State) (source : BitVec 16) (chan : Fin 512) (value : BitVec 32),
      (source ≠ 0x100) →
      (s.pageOff (chanKey chan) = false) →
      (s.chanState chan = chIDLE) →
      ∃ t, exec (.msgDoorbell source (BitVec.ofNat 64 (chan.val + value.toNat * 2 ^ 32))) s = .next t ∧ wbit (t.page (chanKey chan)).err 18 = true) ∧
  (∀ (s : State) (source : BitVec 16) (arg0 : BitVec 64) (v : Nat),
      (bitsOf arg0.toNat 31 16 ≠ 0) →
      (s.page (arg0.toNat % 2 ^ 13)).owner = .host →
      (s.vectorOf (arg0.toNat % 2 ^ 13) = some v) →
      (s.msixMasked v = false) →
      ∃ t, exec (.msgIntr source arg0) s = .next t ∧ t.out = s.out ++ [.msix v (s.msixWord v 0) (s.msixWord v 1) (s.msixWord v 2)]) ∧
  (∀ (s : State) (source : BitVec 16) (arg0 : BitVec 64) (line : List Byte),
      (s.log.length < 4096) →
      ∃ t, exec (.msgFault source arg0 line) s = .next t ∧ t.log.map (fun e => (e.source, e.level, e.kind)) = s.log.map (fun e => (e.source, e.level, e.kind)) ++ [(source.toNat, bitsOf arg0.toNat 17 16 + 1, 2)]) ∧
  (∀ (s : State) (source : BitVec 16) (arg0 : BitVec 64) (line : List Byte),
      (s.log.length < 4096) →
      ∃ t, exec (.msgEvent source arg0 line) s = .next t ∧ t.log.map (fun e => (e.source, e.level, e.kind)) = s.log.map (fun e => (e.source, e.level, e.kind)) ++ [(source.toNat, 0, 1)]) ∧
  (∀ (s : State) (source : BitVec 16) (arg0 : BitVec 64),
      ∃ t, exec (.msgFence source arg0) s = .next t ∧ ∀ k ∈ regionEnds (arg0.toNat % 16), (t.link k).fenced = true) ∧
  (∀ (s : State) (region : Fin 8) (source : BitVec 16) (arg0 : BitVec 64),
      (region.val = 1 ∨ region.val = 2) →
      (arg0.toNat % 2 ^ 32 ≠ 0xFFFFFFFF) →
      ∃ t, exec (.msgLtr region source arg0) s = .next t ∧ mfind (t.stack (2 * (region.val - 1))).tolerances source.toNat = some (arg0.toNat % 2 ^ 32) ∧ mfind (t.stack (2 * (region.val - 1) + 1)).tolerances source.toNat = some (arg0.toNat % 2 ^ 32)) ∧
  (∀ (s : State) (region : Fin 8),
      (region ≠ 0) →
      (s.isolated region = false) →
      ∃ t, exec (.regionIsolation region) s = .next t ∧ t.isolated region = true ∧ ∀ k ∈ regionEnds region, (t.link k).fenced = true) ∧
  (∀ (s : State),
      (s.guest = true) →
      (s.domainOn 4 = true ∨ s.domainOn 9 = true) →
      ∃ t, exec (.guestOvercurrent) s = .next t ∧ t.isolated 7 = true ∧ t.domainOn 4 = false ∧ t.domainOn 9 = false)

/-- Channels start, stop, move packets and complete -/
def Obligations.TraversesComplete : Prop :=
  (∀ (s : State) (who : Issuer) (chan : Fin 512),
      s.honours who (chanKey chan) →
      (s.shBusy chan = false) →
      (s.chanState chan = chIDLE) →
      (s.chan chan).act = none →
      (s.tCheck chan (s.shBytes chan) = 0) →
      ∃ t, exec (.trvCommit who chan) s = .next t ∧ (t.chan chan).act = some { bytes := s.shBytes chan, addr := none } ∧ t.chanState chan = chRUNNING) ∧
  (∀ (s : State) (who : Issuer) (chan : Fin 512),
      s.honours who (chanKey chan) →
      (s.chanState chan = chIDLE) →
      ∃ t, exec (.trvStartChain who chan) s = .next t ∧ t.chanState chan = chRUNNING ∧ (t.chan chan).fetch = some (.desc (nbit (s.pair (chanKey chan) (Reg.TRV_CHAIN_LO.ADDR (chan.val % 16)).off) 0) (s.pair (chanKey chan) (Reg.TRV_CHAIN_LO.ADDR (chan.val % 16)).off % 2 ^ 48 / 128 * 128))) ∧
  (∀ (s : State) (who : Issuer) (chan : Fin 512),
      s.honours who (chanKey chan) →
      (s.chanState chan = chRUNNING) →
      ∃ t, exec (.trvSuspend who chan) s = .next t ∧ t.chanState chan = chSUSPENDED ∧ t.chan chan = s.chan chan) ∧
  (∀ (s : State) (who : Issuer) (chan : Fin 512),
      s.honours who (chanKey chan) →
      (s.chanState chan = chSUSPENDED) →
      ∃ t, exec (.trvResume who chan) s = .next t ∧ t.chanState chan = chRUNNING) ∧
  (∀ (s : State) (who : Issuer) (chan : Fin 512),
      s.honours who (chanKey chan) →
      (s.chanState chan ≠ chIDLE) →
      ∃ t, exec (.trvCancel who chan) s = .next t ∧ t.chanState chan = chIDLE ∧ t.chan chan = DmaChan.init ∧ t.dbPend chan = false) ∧
  (∀ (s : State) (who : Issuer) (chan : Fin 512) (index : Fin 32) (value : BitVec 32),
      s.honours who (chanKey chan) →
      (s.shBusy chan = false) →
      (index.val ≠ 28) →
      ∃ t, exec (.trvShWrite who chan index value) s = .next t ∧ t.reg (chanKey chan) (shOff chan index) = (if index.val ∈ [11, 15, 17, 18, 19, 20, 21, 22, 23, 24, 25, 26, 27, 29] then s.reg (chanKey chan) (shOff chan index) else value) ∧ t.channels = s.channels) ∧
  (∀ (s : State) (who : Issuer) (chan : Fin 512) (value : BitVec 32),
      s.honours who (chanKey chan) →
      (s.shBusy chan = false) →
      (bitsOf value.toNat 5 4 ≠ 3 ∧ bitsOf value.toNat 7 6 ≠ 3) →
      ∃ t, exec (.trvShWrite who chan 28 value) s = .next t ∧ t.reg (chanKey chan) (shOff chan 28) = word (value.toNat % 512) ∧ t.channels = s.channels) ∧
  (∀ (s : State) (chan : Fin 512) (value : BitVec 64),
      (s.page (chanKey chan)).owner = .host →
      (s.pageOff (chanKey chan) = false) →
      (s.chanState chan = chTAIL_WAIT) →
      (s.chan chan).fetch = none →
      ∃ t, exec (.trvDoorbell chan value) s = .next t ∧ (t.chan chan).fetch = some .quarter ∧ t.dbPend chan = false) ∧
  (∀ (s : State) (chan : Fin 512) (bytes : List (BitVec 8)) (addr : Nat),
      (s.chan chan).fetch = some (.desc true addr) →
      (bytes.length = 128) →
      (s.chanState chan = chRUNNING) →
      (s.chan chan).act = none →
      (s.modChan chan fun x => { x with fetch := none }).tCheck chan bytes = 0 →
      ∃ t, exec (.descFetchDone chan true bytes) s = .next t ∧ (t.chan chan).act = some { bytes := bytes, addr := some (true, addr) } ∧ t.chanState chan = chRUNNING) ∧
  (∀ (s : State) (group : Fin 32) (data : List (BitVec 8)) (c : Nat) (d : ChanDesc),
      (s.nextChan group = some c) →
      (s.chan c).act = some d →
      (s.sourcePath c d.bytes ≠ .fenced) →
      ∃ t, exec (.trvPacket group data true) s = .next t ∧ mfind t.groupLast group = some (c % 16) ∧ t.mem = (({ s with groupLast := mput s.groupLast group (c % 16) } : State).movePacket c d.bytes (packetBytes d.bytes (s.chan c).elem (s.chan c).byte) data).mem) ∧
  (∀ (s : State) (chan : Fin 512) (f : Finishing) (rest : List Finishing),
      (s.chan chan).finishing = f :: rest →
      (tDSPACE f.desc.bytes ≠ 0 ∨ s.memPath (chanRegion chan) (tDST f.desc.bytes % 2 ^ 48) = .clear) →
      ∃ t, exec (.trvComplete chan) s = .next t ∧ (t.chan chan).finishing = rest ∧ (tIRQ f.desc.bytes = true → wbit (t.page (chanKey chan)).irq (16 + chan.val % 16) = true)) ∧
  (∀ (s : State) (region : Fin 3) (line : Fin 256) (data : List (BitVec 8)) (c : Nat),
      (List.range 512).find? (fun c => decide (chanRegion c = region.val ∧ s.chanState c = chRUNNING) && s.isActive (chanKey c) && (s.chan c).act.any fun d => decide (tPort d.bytes = some line.val)) = some c →
      ∃ t, exec (.portRequest region line data) s = .next t ∧ t.channels = (s.burstGo c (burstBytes region line) data (burstBytes region line + 1)).channels ∧ t.out = (s.burstGo c (burstBytes region line) data (burstBytes region line + 1)).out)

/-- Rings open, close, take doorbells, produce and consume -/
def Obligations.RingsComplete : Prop :=
  (∀ (s : State) (who : Issuer) (tag : Nat) (n : Nat),
      s.takes who keyRNG →
      (s.page keyRNG).a0.toNat = n →
      (32 ≤ n ∧ n < 32768) →
      (s.ring n).phoin = false →
      (s.ring n).st = .closed →
      (4 ≤ (s.ring n).entryLog2 ∧ (s.ring n).entryLog2 ≤ 7) →
      (4 ≤ (s.ring n).lenLog2 ∧ (s.ring n).lenLog2 ≤ 24) →
      (s.ring n).base % 4096 = 0 →
      (s.ring n).vector = 0 ∨ 32 ≤ (s.ring n).vector ∧ (s.ring n).vector < 2048 →
      ∃ t, exec (.ringOpen who tag) s = .next t ∧ (t.ring n).st = .open0 ∧ (t.ring n).prod = 0 ∧ (t.ring n).cons = 0 ∧ (t.page keyRNG).cmdStat = cmdStatWord tag phaseDONE 0 codeOK) ∧
  (∀ (s : State) (who : Issuer) (tag : Nat) (n : Nat),
      s.takes who keyRNG →
      (s.page keyRNG).a0.toNat = n →
      (32 ≤ n ∧ n < 32768) →
      (s.ring n).phoin = false →
      (s.ring n).st ≠ .closed →
      (s.ring n).task = 0 →
      ∃ t, exec (.ringClose who tag) s = .next t ∧ (t.ring n).st = .closed ∧ (t.page keyRNG).cmdStat = cmdStatWord tag phaseDONE 0 codeOK) ∧
  (∀ (s : State) (who : Issuer) (tag : Nat) (n : Nat),
      s.takes who keyRNG →
      (s.page keyRNG).a0.toNat = n →
      (32 ≤ n ∧ n < 32768) →
      (s.ring n).phoin = false →
      (s.ring n).st = .open0 →
      ∃ t, exec (.ringSuspend who tag) s = .next t ∧ t.ring n = { s.ring n with st := .suspended } ∧ (t.page keyRNG).cmdStat = cmdStatWord tag phaseDONE 0 codeOK) ∧
  (∀ (s : State) (who : Issuer) (tag : Nat) (n : Nat),
      s.takes who keyRNG →
      (s.page keyRNG).a0.toNat = n →
      (32 ≤ n ∧ n < 32768) →
      (s.ring n).phoin = false →
      (s.ring n).st = .suspended ∨ (s.ring n).st = .paused ∨ (s.ring n).st = .fault →
      ∃ t, exec (.ringResume who tag) s = .next t ∧ t.ring n = { s.ring n with st := .open0 } ∧ (t.page keyRNG).cmdStat = cmdStatWord tag phaseDONE 0 codeOK) ∧
  (∀ (s : State) (who : Issuer) (tag : Nat) (n : Nat),
      s.takes who keyRNG →
      (s.page keyRNG).a0.toNat = n →
      (32 ≤ n ∧ n < 32768) →
      (s.ring n).phoin = false →
      (s.ring n).st = .suspended →
      (s.ring n).held = 0 →
      (s.ring n).grow = 0 →
      (4 ≤ (s.page keyRNG).a1.toNat % 32 ∧ (s.page keyRNG).a1.toNat % 32 ≤ 24) →
      ∃ t, exec (.ringResize who tag) s = .next t ∧ (t.ring n).lenLog2 = (s.page keyRNG).a1.toNat % 32 ∧ (t.ring n).origin = (s.ring n).prod ∧ (t.page keyRNG).cmdStat = cmdStatWord tag phaseDONE 0 codeOK) ∧
  (∀ (s : State) (ring : Fin 32768) (value : BitVec 32),
      (s.pageOff keyRNG = false) →
      (s.page keyRNG).owner = .host →
      (s.ring ring).st = .closed →
      (s.ring ring).phoin = false →
      ∃ t, exec (.ringContextWrite ring 2 value) s = .next t ∧ (t.ring ring).entryLog2 = value.toNat % 256 ∧ (t.ring ring).lenLog2 = value.toNat / 256 % 256 ∧ (t.ring ring).host = wbit value 16 ∧ (t.ring ring).consumer = wbit value 17) ∧
  (∀ (s : State) (ring : Fin 32768) (value : BitVec 64),
      (2 ≤ ring.val) →
      (s.ring ring).phoin = false →
      (s.ring ring).st = .open0 →
      (s.ring ring).consumer = true →
      (backward (value.toNat % 2 ^ 32) (s.ring ring).cons = false) →
      (cnt32 (value.toNat % 2 ^ 32) (s.ring ring).cons ≤ (s.ring ring).held) →
      ∃ t, exec (.ringDoorbell ring value) s = .next t ∧ (t.ring ring).cons = value.toNat % 2 ^ 32 ∧ (t.ring ring).prod = (s.ring ring).prod) ∧
  (∀ (s : State) (ring : Fin 32768) (e : List Byte) (rest : List (List Byte)),
      (s.ring ring).entries = e :: rest →
      (s.ring ring).st = .open0 →
      (s.ring ring).consumer = true →
      (s.ring ring).host = true →
      (s.ring ring).grow = 0 →
      (s.ring ring).held < (s.ring ring).len →
      ∃ t, exec (.ringProduce ring true) s = .next t ∧ (t.ring ring).prod = ((s.ring ring).prod + 1) % 2 ^ 32 ∧ (t.ring ring).entries = rest ∧ Output.hostWrite ((s.ring ring).slot (s.ring ring).prod) (e.map some) ∈ t.out) ∧
  (∀ (s : State) (ring : Fin 32768) (entry : List (BitVec 8)),
      (s.ring ring).st = .open0 →
      (s.ring ring).consumer = false →
      (s.ring ring).host = true →
      (s.ring ring).held ≠ 0 →
      (s.ring ring).task ≠ 0 →
      (entry.length = 2 ^ (s.ring ring).entryLog2) →
      ∃ t, exec (.ringConsume ring entry true) s = .next t ∧ (t.ring ring).cons = ((s.ring ring).cons + 1) % 2 ^ 32 ∧ (t.ring ring).entries = (s.ring ring).entries ++ [entry]) ∧
  (∀ (s : State) (ring : Fin 32768) (at0 : Nat),
      (s.ring ring).msgDue = true →
      (32 ≤ (s.ring ring).vector) →
      (s.ring ring).lastMsg = some at0 →
      (at0 + (s.ring ring).holdoff * sixPerUs < sixModulus) →
      ∃ t, exec (.ringHoldoffExpiry ring) s = .next t ∧ (t.ring ring).msgDue = false ∧ (t.ring ring).lastMsg = some t.six) ∧
  (∀ (s : State) (who : Issuer) (tag : Nat) (n : Nat),
      s.takes who keyHIF →
      (s.page keyHIF).a0.toNat % 32768 = n →
      (s.ring n).st = .open0 ∧ (s.ring n).host = true ∧ (s.ring n).consumer = true ∧ (s.ring n).entryLog2 = 5 →
      (s.ring n).task = 0 →
      (24 ≤ (s.page keyHIF).a3.toNat % 64 ∧ (s.page keyHIF).a3.toNat % 64 ≤ 36) →
      ((s.page keyHIF).a1.toNat + (s.page keyHIF).a2.toNat * 2 ^ 32) % 4096 = 0 →
      ∃ t, exec (.bindBuffer who tag) s = .next t ∧ (t.ring n).buffer = some ((s.page keyHIF).a1.toNat + (s.page keyHIF).a2.toNat * 2 ^ 32, (s.page keyHIF).a3.toNat % 64) ∧ (t.ring n).bufPos = 0) ∧
  (∀ (s : State) (who : Issuer) (tag : Nat) (n : Nat),
      s.takes who keyHIF →
      (s.page keyHIF).a0.toNat % 32768 = n →
      (s.ring n).task = 0 →
      ∃ t, exec (.unbind who tag) s = .next t ∧ (t.ring n).buffer = none ∧ (t.page keyHIF).cmdStat = cmdStatWord tag phaseDONE 0 codeOK)

/-- Records leave on streams, and drives take their commands -/
def Obligations.StreamsAndDrivesComplete : Prop :=
  (∀ (s : State) (task : BitVec 32) (x : Ready),
      (s.firstReady task.toNat = some x) →
      (s.stream task.toNat = none) →
      ∃ t, exec (.streamRecordReady task) s = .next t ∧ t.readyRecs = s.readyRecs.erase x ∧ t.streams = s.streams) ∧
  (∀ (s u : State) (task : BitVec 32) (x : Ready),
      (s.firstReady task.toNat = some x) →
      (s.stream task.toNat).isSome = true →
      (s.takeRecord task.toNat x = some u) →
      ∃ t, exec (.streamRecordReady task) s = .next t ∧ t.streams = u.streams ∧ t.readyRecs = u.readyRecs.erase x) ∧
  (∀ (s u : State) (task : BitVec 32) (port : Fin 32) (x : Stream) (p : StreamPort) (r : StreamRec) (rest : List StreamRec) (addr lg pos skip : Nat),
      (u = s.modPort task.toNat port (fun p => fillBucket p s.six)) →
      (u.stream task.toNat = some x) →
      (x.port port = some p) →
      (p.todo = r :: rest) →
      (0 ≤ p.bucket ∧ p.grant ≠ 0) →
      (u.recordPath x.task = .clear) →
      (x.dest = destHOST) →
      (u.ring (dDEST_ID (u.streamDesc x.task))).buffer = some (addr, lg) →
      (u.ring (dDEST_ID (u.streamDesc x.task))).st = .open0 ∧ (u.ring (dDEST_ID (u.streamDesc x.task))).offsets = [] ∧ (u.ring (dDEST_ID (u.streamDesc x.task))).entries = [] →
      (u.perst = false) →
      (r.place = some (pos, skip)) →
      (r.bytes.length ≤ 2 ^ lg) →
      ∃ t, exec (.streamTransfer task port) s = .next t ∧ Output.hostWrite (addr + pos % 2 ^ lg + r.sent) (((r.bytes.drop r.sent).take 4096).map some) ∈ t.out) ∧
  (∀ (s : State) (task : BitVec 32) (port : Fin 32) (x : Stream) (p : StreamPort) (r : StreamRec),
      (s.stream task.toNat = some x) →
      (x.closing = false) →
      (x.port port = some p) →
      (p.queue.find? (fun r => s.isTaken x.task x.dest r) = some r) →
      (r.from0 = .none) →
      ∃ t, exec (.recordTaken task port) s = .next t ∧ (t.portOf task.toNat port).map (·.queue) = some (p.queue.erase r)) ∧
  (∀ (s : State) (slot : Fin 1008) (w : NvmeWrite),
      (mfind s.writes slot = some w) →
      (s.writes.all (fun e => !e.2.held) = true) →
      (w.held = false) →
      ∃ t, exec (.nvmeCompletion slot true) s = .next t ∧ mfind t.writes slot = none) ∧
  (∀ (s : State) (slot : Fin 1008) (w : NvmeWrite),
      (mfind s.writes slot = some w) →
      (w.held = false) →
      (w.tries < 3) →
      ∃ t, exec (.nvmeWriteTimeout slot) s = .next t ∧ (mfind t.writes w.slot).map (·.tries) = some (w.tries + 1)) ∧
  (∀ (s : State) (prp : Bool) (slot : Fin 1008) (offset : BitVec 20) (len : Fin 4097) (w : NvmeWrite),
      (mfind s.writes slot = some w) →
      ∃ t, exec (.apertureRead prp slot offset len) s = .next t ∧ t.out = s.out ++ [.pcieReply ((List.range len).map fun i => (if prp then s.prpList w else w.bytes).getD (offset.toNat + i) 0)]) ∧
  (∀ (s : State) (who : Issuer) (tag : Nat) (b : List Byte),
      s.takes who keyNVI →
      (s.drives = [] ∧ s.writes = []) →
      (byteAt b 0 < 32) →
      (queueOf b).qid ≠ 0 →
      (2 ≤ (queueOf b).sqEntries ∧ (queueOf b).sqEntries ≤ 256 ∧ 2 ≤ (queueOf b).cqEntries ∧ (queueOf b).cqEntries ≤ 256) →
      (queueOf b).sqOffset % 4096 = 0 ∧ (queueOf b).cqOffset % 4096 = 0 →
      (byteAt b 0x24 = 9 ∨ byteAt b 0x24 = 12) →
      (17 ≤ byteAt b 0x25 ∧ byteAt b 0x25 ≤ 30) →
      (queueOf b).ranges.all inQueueMemory = true →
      (overlaps ((queueOf b).sqOffset, 64 * (queueOf b).sqEntries) ((queueOf b).cqOffset, 16 * (queueOf b).cqEntries) = false) →
      ∃ t, exec (.addQueue who tag (some b)) s = .next t ∧ (t.drive (byteAt b 0)).map (·.queues) = some [queueOf b] ∧ t.nviBit nviDRIVES (byteAt b 0) = true ∧ (t.page keyNVI).cmdStat = cmdStatWord tag phaseDONE 0 codeOK) ∧
  (∀ (s : State) (who : Issuer) (tag : Nat) (d : Nat) (v : Drive),
      s.takes who keyNVI →
      (s.page keyNVI).a0.toNat = d →
      (s.drive d = some v) →
      (v.queues.any (fun q => decide (q.qid = (s.page keyNVI).a1.toNat)) = true) →
      (s.driveUsed d = false) →
      ∃ t, exec (.removeQueue who tag) s = .next t ∧ (t.drive d).elim [] (·.queues) = v.queues.filter (fun q => decide (q.qid ≠ (s.page keyNVI).a1.toNat)) ∧ (t.page keyNVI).cmdStat = cmdStatWord tag phaseDONE 0 codeOK) ∧
  (∀ (s : State) (who : Issuer) (tag : Nat) (d : Nat) (v : Drive),
      s.takes who keyNVI →
      (s.page keyNVI).a0.toNat % 32 = d →
      (s.drive d = some v) →
      (s.nviBit nviFAILED d = false) →
      (s.driveUsed d = false) →
      (s.page keyNVI).a3.toNat % 256 ≠ 0 ∧ (s.page keyNVI).a3.toNat % 256 ≤ 32 ∧ (s.page keyNVI).a3.toNat / 256 % 256 < (s.page keyNVI).a3.toNat % 256 →
      (2 ≤ v.blocks) →
      ∃ t, exec (.storeInit who tag true) s = .next t ∧ (t.drive d).map (fun v => (v.storeId, v.wrap, v.gens)) = some ((s.page keyNVI).a1.toNat + (s.page keyNVI).a2.toNat * 2 ^ 32, wbit (s.page keyNVI).a3 16, []) ∧ (t.page keyNVI).cmdStat = cmdStatWord tag phaseDONE 0 codeOK) ∧
  (∀ (s : State) (who : Issuer) (tag : Nat) (d : Nat) (v : Drive) (b : List Byte) (last : Option (List Byte)) (headers : List (List Byte)),
      s.takes who keyNVI →
      (s.page keyNVI).a0.toNat % 32 = d →
      (s.drive d = some v) →
      (s.nviBit nviFAILED d = false) →
      (s.driveUsed d = false) →
      (superblockOk b = true) →
      ∃ t, exec (.storeMount who tag (some b) last headers) s = .next t ∧ (t.drive d).map (fun v => (v.storeId, v.wrap)) = some (u64At b 8, decide (byteAt b 0x1C = 1)) ∧ t.nviBit nviMOUNTED d = true)

/-- The flows of LSA follow their datagrams and timers; playback feeds -/
def Obligations.EthernetAndPlaybackComplete : Prop :=
  (∀ (s : State) (port : Fin 4) (payload : List (BitVec 8)) (x : Stream) (p : StreamPort),
      s.takesLsa port 2 payload x p →
      (p.flow.st = .opening) →
      ∃ t, exec (.lsaAccept port payload) s = .next t ∧ (t.portOf x.task port).map (·.flow.st) = some .open0 ∧ (t.portOf x.task port).map (·.flow.rwnd) = some (beAt payload 16 4 * 1024)) ∧
  (∀ (s : State) (port : Fin 4) (payload : List (BitVec 8)) (x : Stream) (p : StreamPort),
      s.takesLsa port 4 payload x p →
      (p.flow.st = .open0) →
      (x.closing = false) →
      (p.flow.unacked.all (fun y => ackedBy (beAt payload 16 4) (beAt payload 20 8) y.psn) = true) →
      ∃ t, exec (.lsaAck port payload) s = .next t ∧ (t.portOf x.task port).map (·.flow.unacked) = some [] ∧ (t.portOf x.task port).map (·.flow.heardAt) = some s.six) ∧
  (∀ (s : State) (port : Fin 4) (payload : List (BitVec 8)) (x : Stream) (p : StreamPort),
      s.takesLsa port 6 payload x p →
      (p.flow.st = .closing) →
      (x.closing = false) →
      ∃ t, exec (.lsaClosed port payload) s = .next t ∧ (t.portOf x.task port).map (·.flow.st) = some .closed) ∧
  (∀ (s : State) (port : Fin 4) (payload : List (BitVec 8)) (x : Stream) (p : StreamPort),
      s.takesLsa port 7 payload x p →
      ∃ t, exec (.lsaReset port payload) s = .next t ∧ ((s.task x.task).any (·.st.live) = true → (t.task x.task).map (fun k => (k.st, k.code, k.sub)) = some (.failed, codeFAULT, 0x02)) ∧ t.phn.tasks = (s.flowFailed x.task port codeFAULT 0x02).phn.tasks ∧ t.streams = (s.flowFailed x.task port codeFAULT 0x02).streams) ∧
  (∀ (s : State) (task : BitVec 32) (port : Fin 4) (p : StreamPort),
      (s.portOf task.toNat port = some p) →
      (p.flow.st = .opening) →
      ∃ t, exec (.lsaOpenRepeat task port) s = .next t ∧ (t.portOf task.toNat port).map (·.flow.sinceAt) = some t.six ∧ t.out.length = s.out.length + 1) ∧
  (∀ (s : State) (task : BitVec 32) (port : Fin 4) (p : StreamPort) (psn : BitVec 32) (y : LsaPacket),
      (s.portOf task.toNat port = some p) →
      (p.flow.st = .open0) →
      (s.ethUp port = true) →
      (p.flow.unacked.find? (fun y => decide (y.psn % 2 ^ 32 = psn.toNat)) = some y) →
      ∃ t, exec (.lsaRtoExpiry task port psn) s = .next t ∧ t.out = s.out ++ [.ethFrame port (s.profOf task.toNat) y.bytes]) ∧
  (∀ (s : State) (task : BitVec 32) (port : Fin 4) (p : StreamPort) (psn : BitVec 32),
      (s.portOf task.toNat port = some p) →
      (p.flow.st = .closing) →
      ∃ t, exec (.lsaRtoExpiry task port psn) s = .next t ∧ (t.portOf task.toNat port).map (·.flow.heardAt) = some t.six ∧ t.out.length = s.out.length + 1) ∧
  (∀ (s : State) (task : BitVec 32) (port : Fin 4) (p : StreamPort),
      (s.portOf task.toNat port = some p) →
      (p.flow.st = .open0) →
      (p.flow.unacked ≠ []) →
      ∃ t, exec (.lsaDeadTimeout task port) s = .next t ∧ (t.portOf task.toNat port).map (·.flow.st) = some .stalled ∧ wbit (t.page (keyETH port)).err 17 = true) ∧
  (∀ (s : State) (task : BitVec 32) (port : Fin 4) (p : StreamPort),
      (s.portOf task.toNat port = some p) →
      (p.flow.st = .stalled) →
      ∃ t, exec (.lsaFailTimeout task port) s = .next t ∧ ((s.task task.toNat).any (·.st.live) = true → (t.task task.toNat).map (fun k => (k.st, k.code, k.sub)) = some (.failed, codeTIMEOUT, 0x01)) ∧ t.phn.tasks = ((s.advanceTo (p.flow.sinceAt + s.profFail port (s.profOf task.toNat) * 1000 * sixPerMs)).flowFailed task.toNat port codeTIMEOUT 0x01).phn.tasks) ∧
  (∀ (s : State) (task : BitVec 32) (port : Fin 4) (p : StreamPort),
      (s.portOf task.toNat port = some p) →
      (p.flow.st = .open0) →
      (p.context ≠ []) →
      (s.profFlag port (s.profOf task.toNat) 4 = true) →
      (s.ethUp port = true) →
      ∃ t, exec (.contextTimer task port) s = .next t ∧ (t.portOf task.toNat port).map (·.contextAt) = some t.six ∧ t.out.length = s.out.length + 1) ∧
  (∀ (s : State) (port : Fin 4),
      (s.ethUp port = true) →
      ∃ t, exec (.unknownFrame port) s = .next t ∧ t.rf (keyETH port) Reg.ETH_RX_DROP = satInc 0xFFFFFFFF (s.rf (keyETH port) Reg.ETH_RX_DROP)) ∧
  (∀ (s : State) (task streamId : BitVec 32) (record : List (BitVec 8)) (k : Task),
      (s.task task.toNat = some k) →
      (dTYPE k.desc = 5) →
      (k.st = .running) →
      (dSRC_KIND k.desc = 2) →
      (64 ≤ record.length) →
      (record.length = 64 + u32At record 0x38) →
      (u16At record 0 = 0x474C ∧ byteAt record 2 = 1 ∧ byteAt record 3 = 1) →
      (u32At record 0x3C = crc32cFrom (Nat.xor streamId.toNat (u64At record 0x30 % 2 ^ 32)) (record.take 0x3C ++ record.drop 64)) →
      (s.playback k).nextSeq ≤ u64At record 0x30 →
      (nbit (u32At record 4) 9 = false ∧ nbit (u32At record 4) 10 = false) →
      ∃ t, exec (.playbackRecord task streamId record) s = .next t ∧ (t.playback k).nextSeq = u64At record 0x30 + 1 ∧ (t.playback k).samples.length = (s.playback k).samples.length + u32At (record.drop 64) 0x10) ∧
  (∀ (s : State) (task : BitVec 32) (k : Task) (y : Nat × Int × Int) (rest : List (Nat × Int × Int)),
      (s.task task.toNat = some k) →
      (dTYPE k.desc = 5) →
      (k.st = .running) →
      (s.playback k).samples = y :: rest →
      (s.fedPipes k.id = []) →
      ∃ t, exec (.playbackRelease task) s = .next t ∧ (t.playback k).samples = rest)

/-- The host link, BAR2, configuration and the Ethernet links take effect -/
def Obligations.HostLinksComplete : Prop :=
  (∀ (s : State) (wide : Bool) (speed : Fin 3),
      (9 ≤ s.phase) →
      (s.perst = false) →
      (s.peBad < 2) →
      (s.pcieLinkUp = false) →
      (s.page keyHIF).st ≠ .off →
      ∃ t, exec (.pcieLinkUp wide speed) s = .next t ∧ t.pcieLinkUp = true ∧ t.pcieUp = some s.six ∧ wbit (t.page keyHIF).irq 16 = true) ∧
  (∀ (s : State),
      (s.peBad = 1) →
      (s.pcieLinkUp = true) →
      ∃ t, exec (.peRefclkCheck false) s = .next t ∧ t.pcieLinkUp = false ∧ wbit (t.page keyHIF).err 16 = true) ∧
  (∀ (s : State),
      ∃ t, exec (.peRefclkCheck true) s = .next t ∧ t.peBad = 0 ∧ t.pages = s.pages) ∧
  (∀ (s : State),
      (s.ethBad = 1) →
      ∃ t, exec (.ethRefclkCheck false) s = .next t ∧ ∀ p : Fin 4, t.ethUp p = false) ∧
  (∀ (s : State),
      (s.perst = false) →
      ∃ t, exec (.perstNAssert) s = .next t ∧ t.perst = true ∧ t.routes = [] ∧ t.msixTable = [] ∧ t.msixPend = [] ∧ t.pcieCfg = [] ∧ t.pcieLinkUp = false) ∧
  (∀ (s : State),
      ∃ t, exec (.perstNDeassert) s = .next t ∧ t = { s with perst := false }) ∧
  (∀ (s : State) (d : Fin 1024) (v : BitVec 32) (at0 : Nat),
      (s.pcieUp = some at0) →
      (d.val < 4 ∨ 9 < d.val) →
      ∃ t, exec (.configRequest (.write d v) false) s = .next t ∧ t = { s with pcieCfg := mput s.pcieCfg d v }) ∧
  (∀ (s : State) (offset : BitVec 37) (len : Fin 4097) (bs : List (BitVec 8)),
      (s.memPath 0 (s.bar2Base + offset.toNat) = .clear) →
      (∀ i < bs.length, s.mapped (s.bar2Base + offset.toNat + i) = true) →
      ∃ t, exec (.bar2Access offset (some bs) len) s = .next t ∧ (∀ i < bs.length, t.readByte (s.bar2Base + offset.toNat + i) = bs.getD i 0) ∧ ∀ a, (a < s.bar2Base + offset.toNat ∨ s.bar2Base + offset.toNat + bs.length ≤ a) → t.readByte a = s.readByte a) ∧
  (∀ (s : State) (offset : BitVec 37) (len : Fin 4097),
      (s.memPath 0 (s.bar2Base + offset.toNat) = .clear) →
      (∀ i < len.val, s.mapped (s.bar2Base + offset.toNat + i) = true) →
      ∃ t, exec (.bar2Access offset none len) s = .next t ∧ t.mem = s.mem ∧ t.out = s.out ++ [.pcieReply (s.readMem (s.bar2Base + offset.toNat) len)]) ∧
  (∀ (s : State) (port : Fin 4),
      (s.page (keyETH port)).st ≠ .off →
      (s.ethUp port = false) →
      (s.pageFaulted (keyETH port) = false) →
      (s.ethBad < 2) →
      (s.rf (keyETH port) Reg.ETH_STAT.SPEED = s.rf (keyETH port) Reg.ETH_CFG.SPEED) →
      ∃ t, exec (.ethLinkChange port true) s = .next t ∧ t.ethUp port = true ∧ wbit (t.page (keyETH port)).irq 16 = true) ∧
  (∀ (s : State) (port : Fin 4),
      (s.page (keyETH port)).st ≠ .off →
      (s.ethUp port = true) →
      ∃ t, exec (.ethLinkChange port false) s = .next t ∧ t.ethUp port = false ∧ wbit (t.page (keyETH port)).err 16 = true)

/-- Compression jobs and check-value units take effect -/
def Obligations.CompressionAndCheckUnitsComplete : Prop :=
  (∀ (s : State) (who : Issuer) (engine : Fin 8) (tag : Nat),
      s.takes who (keyCMP engine) →
      (cmpBEGIN (s.page (keyCMP engine)).a0.toNat = true) →
      (cmpFLUSH (s.page (keyCMP engine)).a0.toNat = 0) →
      (s.rf (keyCMP engine) Reg.CMP_OUT_HI.SPACE ≠ 2) →
      ∃ t, exec (.deflate who engine tag) s = .next t ∧ (t.cmp engine).job.map (fun j => (j.inflate, j.flags)) = some (false, (s.page (keyCMP engine)).a0.toNat) ∧ (t.page (keyCMP engine)).op.isSome = true) ∧
  (∀ (s : State) (who : Issuer) (engine : Fin 8) (tag : Nat),
      s.takes who (keyCMP engine) →
      (cmpBEGIN (s.page (keyCMP engine)).a0.toNat = true ∧ cmpEND (s.page (keyCMP engine)).a0.toNat = false) →
      (cmpFLUSH (s.page (keyCMP engine)).a0.toNat = 0) →
      (s.rf (keyCMP engine) Reg.CMP_OUT_HI.SPACE ≠ 2) →
      ∃ t, exec (.inflate who engine tag) s = .next t ∧ (t.cmp engine).job.map (fun j => (j.inflate, j.flags)) = some (true, (s.page (keyCMP engine)).a0.toNat) ∧ (t.page (keyCMP engine)).op.isSome = true) ∧
  (∀ (s : State) (engine : Fin 8) (input : List (BitVec 8)) (j : CmpJob),
      (s.cmp engine).job = some j →
      (j.inflate = false) →
      (cmpBEGIN j.flags = true) →
      (j.inSpace = 1 ∧ j.outSpace = 1) →
      (input.length = j.inBytes) →
      (deflateBound j.framing [(input, j.flags)] ≤ j.outBytes) →
      ∃ t, exec (.cmpJobDone engine input true) s = .next t ∧ (t.cmp engine).job = none ∧ Output.hostWrite j.outAddr ((deflateJob j.level j.framing [] 0 input j.flags).map some) ∈ t.out) ∧
  (∀ (s : State) (engine : Fin 8) (input : List (BitVec 8)) (j : CmpJob),
      (s.cmp engine).job = some j →
      (j.inflate = true) →
      (cmpBEGIN j.flags = true) →
      (j.inSpace = 1 ∧ j.outSpace = 1) →
      (input.length = j.inBytes) →
      (inflateAll j.framing input).stop = none →
      (inflateAll j.framing input).out.length ≤ j.outBytes →
      ∃ t, exec (.cmpJobDone engine input true) s = .next t ∧ (t.cmp engine).job = none ∧ Output.hostWrite j.outAddr ((inflateAll j.framing input).out.map some) ∈ t.out) ∧
  (∀ (s : State) (who : Issuer) (unit : Fin 12) (tag : Nat),
      s.takes who (keyCRC unit) →
      (s.page (keyCRC unit)).st = .active →
      (s.page (keyCRC unit)).resReady = false →
      (s.crcUnit (keyCRC unit)).half = none →
      ∃ t, exec (.finish who unit tag) s = .next t ∧ (t.page (keyCRC unit)).res[0]? = some (s.reg (keyCRC unit) Reg.CRC_VALUE.off) ∧ (t.crcUnit (keyCRC unit)).reg = s.crcInitial (keyCRC unit) ∧ t.pair (keyCRC unit) Reg.CRC_COUNT0.off = 0) ∧
  (∀ (s : State) (who : Issuer) (unit : Fin 12) (tag : Nat),
      s.takes who (keyCRC unit) →
      (s.page (keyCRC unit)).st = .active →
      ∃ t, exec (.reseed who unit tag) s = .next t ∧ (t.crcUnit (keyCRC unit)).reg = s.crcInitial (keyCRC unit) ∧ (t.crcUnit (keyCRC unit)).half = none ∧ t.pair (keyCRC unit) Reg.CRC_COUNT0.off = 0) ∧
  (∀ (s : State) (who : Issuer) (unit : Fin 12) (value : BitVec 32),
      s.honours who (keyCRC unit) →
      (s.page (keyCRC unit)).st = .active →
      (s.crcUnit (keyCRC unit)).feedPort = false →
      (s.crcUnit (keyCRC unit)).half = none →
      ∃ t, exec (.crcFeed who unit 2 value) s = .next t ∧ (t.crcUnit (keyCRC unit)).reg = crcFeedReg (s.crcUnit (keyCRC unit)).poly (s.crcUnit (keyCRC unit)).reg (leBytes value.toNat 4) ∧ t.pair (keyCRC unit) Reg.CRC_COUNT0.off = (s.pair (keyCRC unit) Reg.CRC_COUNT0.off + 4) % 2 ^ 64)

/-- Measurement cores run, halt, step and take their inputs -/
def Obligations.CoresComplete : Prop :=
  (∀ (s : State) (who : Issuer) (core : Fin 64) (tag : Nat),
      s.takes who (keyMC core) →
      (s.mcState core = mcIDLE) →
      (s.page (keyMC core)).a0.toNat ≤ 0x1FFF →
      ∃ t, exec (.run who core tag) s = .next t ∧ t.mcState core = mcRUNNING ∧ t.mcPc core = (s.page (keyMC core)).a0.toNat) ∧
  (∀ (s : State) (who : Issuer) (core : Fin 64) (tag : Nat),
      s.takes who (keyMC core) →
      (s.mcState core = mcRUNNING) →
      (s.core core).interruptible = true →
      ∃ t, exec (.halt who core tag) s = .next t ∧ t.mcState core = mcHALTED ∧ wbit (t.page (keyMC core)).irq 17 = true) ∧
  (∀ (s : State) (who : Issuer) (core : Fin 64) (tag : Nat),
      s.takes who (keyMC core) →
      (s.mcState core = mcHALTED) →
      (1 ≤ (s.page (keyMC core)).a0.toNat ∧ (s.page (keyMC core)).a0.toNat ≤ 65535) →
      ∃ t, exec (.stepCmd who core tag) s = .next t ∧ t.mcState core = mcRUNNING ∧ (t.core core).steps = some (s.page (keyMC core)).a0.toNat) ∧
  (∀ (s : State) (who : Issuer) (core : Fin 64) (tag : Nat),
      s.takes who (keyMC core) →
      ∃ t, exec (.swint who core tag) s = .next t ∧ (t.core core).sw = true ∧ (t.page (keyMC core)).cmdStat = cmdStatWord tag phaseDONE 0 codeOK) ∧
  (∀ (s : State) (core : Fin 64),
      (s.mcState core = mcRUNNING) →
      (s.isActive (keyMC core) = true) →
      (s.core core).fabWait = false →
      (s.core core).lands = [] →
      (s.core core).xfer = none →
      (s.core core).steps = none →
      (s.core core).stop = none →
      (s.page (keyMC core)).op = none →
      (s.core core).reg regLC = 0 →
      (s.bundle core (s.mcPc core) = 0) →
      ∃ t, exec (.bundleIssue core) s = .next t ∧ t.mcPc core = (s.mcPc core + 1) % 8192 ∧ t.pair (keyMC core) 0x120 = (s.pair (keyMC core) 0x120 + 1) % 2 ^ 64 ∧ (t.core core).regs = (s.core core).regs) ∧
  (∀ (s : State) (core : Fin 64) (d a b : Fin 8),
      (s.mcState core = mcRUNNING) →
      (s.isActive (keyMC core) = true) →
      (s.core core).fabWait = false →
      (s.core core).lands = [] →
      (s.core core).xfer = none →
      (s.core core).steps = none →
      (s.core core).stop = none →
      (s.page (keyMC core)).op = none →
      (s.core core).reg regLC = 0 →
      (s.bundle core (s.mcPc core) = (0x0400 + d.val * 128 + a.val * 16 + b.val) * 2 ^ 46) →
      ∃ t, exec (.bundleIssue core) s = .next t ∧ t.mcPc core = (s.mcPc core + 1) % 8192 ∧ (t.core core).reg d = ((s.core core).reg a + (s.core core).reg b) % 2 ^ 32) ∧
  (∀ (s : State) (core : Fin 64) (v : Nat),
      (s.mcState core = mcRUNNING) →
      (s.isActive (keyMC core) = true) →
      (s.core core).fabWait = false →
      (s.core core).interruptible = true →
      (s.core core).vector = some v →
      ∃ t, exec (.interruptEntry core) s = .next t ∧ t.mcPc core = v ∧ (t.core core).reg regSPC = s.mcPc core ∧ (t.core core).reg regSST = (s.core core).reg regST ∧ (t.core core).reg regST = putBit ((s.core core).reg regST) 7 false ∧ (t.core core).vector = none) ∧
  (∀ (s : State) (core : Fin 64) (cycles : Nat),
      (s.core core).fabWait = true →
      (s.memPath (1 + core / 32) (s.core core).fabAddr = .clear) →
      (s.poisoned ((s.core core).fabAddr / 64) = false) →
      ∃ t, exec (.fabReadComplete core true cycles) s = .next t ∧ (t.core core).fabWait = false ∧ (t.core core).fabLine = some ((List.range 16).map fun i => word (u32At (s.readMem (s.core core).fabAddr 64) (4 * i)))) ∧
  (∀ (s : State) (task : BitVec 32) (input : Fin 64) (k : Task) (m : Measure) (x : MeasIn) (pipe ins label period mk : Nat) (words : List (BitVec 32)),
      (s.task task.toNat = some k) →
      (mfind s.measures (task.toNat % 4096) = some m) →
      (m.inputs[input.val]? = some x) →
      (k.st = .running) →
      (x.inset = some (pipe, ins)) →
      (s.insetBlock pipe ins x.next (s.blockSize (m.coreFor x)) x.base = .ready label period words mk) →
      (hasMark mk markSTALE = false) →
      (s.core (m.coreFor x)).bufs = [] →
      (s.mcState (m.coreFor x) ≠ mcSUSPENDED) →
      ∃ t, exec (.inputBlock task input () ()) s = .next t ∧ (t.core (m.coreFor x)).bufs.map (fun b => (b.input, b.label)) = [(input.val, label)]) ∧
  (∀ (s : State) (task : BitVec 32) (k : Task) (m : Measure),
      (s.task task.toNat = some k) →
      (mfind s.measures (task.toNat % 4096) = some m) →
      (k.st = .running) →
      (dDEST k.desc ≠ 0) →
      ∃ t, exec (.measureRecord task) s = .next t ∧ t.readyRecs.length = s.readyRecs.length + 1 ∧ (mfind t.measures (task.toNat % 4096)).map (·.nextAt) = some (m.nextAt + u32At k.desc 0x84 * sixPerUs))

/-- Vertical syncs, outputs, genlock and refills take effect -/
def Obligations.DisplayCommandsComplete : Prop :=
  (∀ (s : State) (six : Nat) (annot : Option (List (BitVec 8))) (header image : List (BitVec 8)) (ltrNs : Nat),
      (s.pageOff keyDSP = false) →
      (s.annotUse = none) →
      (s.pendOf keyDSP = none) →
      (s.scanOf 0).blank = false →
      (s.outState 0 = outOFF ∧ s.outState 1 = outOFF) →
      ∃ t, exec (.vsync 0 six annot header image [] [] ltrNs) s = .next t ∧ (t.scanOf 0).frameAt = t.six ∧ wbit (t.page keyDSP).irq 16 = true ∧ t.rf keyDSP Reg.DSP_FRAMES = satInc 0xFFFFFFFF (s.rf keyDSP Reg.DSP_FRAMES)) ∧
  (∀ (s : State) (output : Fin 2),
      (s.pageOff keyDSP = false) →
      (s.hpd output = false) →
      (s.outEnabled output = true) →
      (s.outState output = outOFF) →
      ∃ t, exec (.hpdChange output true) s = .next t ∧ t.hpd output = true ∧ t.outState output = outTRAINING ∧ wbit (t.page keyDSP).irq 17 = true) ∧
  (∀ (s : State) (output : Fin 2),
      (s.pageOff keyDSP = false) →
      (s.hpd output = true) →
      ∃ t, exec (.hpdChange output false) s = .next t ∧ t.hpd output = false ∧ t.outState output = outOFF ∧ mfind t.sinks output = none) ∧
  (∀ (s : State) (output : Fin 2) (rate : Fin 3) (lowref : Bool),
      (s.pageOff keyDSP = false) →
      (s.outState output = outTRAINING) →
      (s.linkCarries (s.outGen output) rate = true) →
      ∃ t, exec (.dpTrainingDone output rate lowref) s = .next t ∧ t.outState output = outACTIVE ∧ mfind t.sinks output = some (rate.val, lowref)) ∧
  (∀ (s : State) (output : Fin 2),
      (s.outState output = outACTIVE ∨ s.outState output = outLOW_REFRESH ∨ s.outState output = outUNFIT) →
      ∃ t, exec (.dpLinkLost output) s = .next t ∧ t.outState output = outTRAINING ∧ mfind t.sinks output = none) ∧
  (∀ (s : State) (six : Nat),
      (s.pageOff keyDSP = false) →
      ∃ t, exec (.genlockPulse six) s = .next t ∧ t.genlock.last = t.six) ∧
  (∀ (s : State),
      (s.rb keyDSP Reg.DSP_STAT.GL_PRESENT = true) →
      ∃ t, exec (.genlockLost) s = .next t ∧ t.rb keyDSP Reg.DSP_STAT.GL_PRESENT = false ∧ t.rf keyDSP Reg.DSP_STAT.GL_STATE = glFREE ∧ wbit (t.page keyDSP).err 18 = true) ∧
  (∀ (s : State) (who : Issuer) (tag : Nat),
      s.takes who keyDSP →
      (s.rb keyDSP Reg.DSP_STAT.GL_PRESENT = true) →
      ∃ t, exec (.relock who tag) s = .next t ∧ t.rf keyDSP Reg.DSP_STAT.GL_STATE = glACQUIRE ∧ (t.page keyDSP).cmdStat = cmdStatWord tag phaseDONE 0 codeOK) ∧
  (∀ (s : State) (gen : Fin 2) (ltrNs : Nat) (x : Nat × Nat × Nat),
      (s.pageOff keyDSP = false) →
      (s.scanOf gen).grt.isSome = true →
      (s.scanOf gen).shown.head? = some x →
      (ltrNs < 0xFFFFFFFF) →
      ∃ t, exec (.displayRefill gen ltrNs) s = .next t ∧ t.reg keyDSP Reg.DSP_LTR.off = word ltrNs ∧ mfind (t.stack (addrStack (s.baseAddr (keyRED x.1) (0x200 + 0x20 * x.2.1)))).tolerances (0x120 + gen.val) = some ltrNs) ∧
  (∀ (s : State) (header : List (BitVec 8)) (a : PendApply),
      (s.outState 0 = outLOW_REFRESH) →
      (s.pendOf keyDSP = some a) →
      (a.empty = false) →
      (a.due ≤ s.six) →
      ∃ t, exec (.lowrefCheck header) s = .next t ∧ t.outState 0 = outACTIVE ∧ (t.scanOf 0).static = 0)

/-- The input supply, power-fail triggers, domains and start-up take effect -/
def Obligations.SupplyCommandsTakeEffect : Prop :=
  (∀ (s : State),
      (s.phase = 0) →
      (s.power.thermal = false) →
      ∃ t, exec (.vinStart) s = .next t ∧ t.phase = 1 ∧ t.rf keyMOD Reg.MOD_STAT.LAST_RESET = (if s.power.failed then 3 else 0) ∧ t.power.failed = false ∧ t.keyStore = s.keyStore) ∧
  (∀ (s : State),
      (s.phase = 0) →
      (s.power.thermal = true) →
      ∃ t, exec (.vinStart) s = .next t ∧ t = s) ∧
  (∀ (s : State) (last : Fin 8),
      (s.phase = 0) →
      ∃ t, exec (.undervoltage last) s = .next t ∧ t.power.thermal = false ∧ t.phase = 0) ∧
  (∀ (s : State) (last : Fin 8),
      (s.phase ≠ 0) →
      (s.rb keyMOD Reg.MOD_STAT.POWER_FAIL = false) →
      ∃ t, exec (.undervoltage last) s = .next t ∧ t.phase = 0 ∧ t.power.failed = true ∧ t.power.thermal = false ∧ t.keyStore = s.keyStore ∧ t.power.fused = s.power.fused) ∧
  (∀ (s : State) (last : Fin 8),
      (s.phase ≠ 0) →
      (s.rb keyMOD Reg.MOD_STAT.POWER_FAIL = false) →
      ∃ t, exec (.overvoltage last) s = .next t ∧ t.phase = 0 ∧ t.power.failed = true ∧ t.power.thermal = false ∧ t.keyStore = s.keyStore ∧ t.power.fused = s.power.fused) ∧
  (∀ (s : State) (last : Fin 8),
      (s.phase ≠ 0) →
      (s.rb keyMOD Reg.MOD_STAT.POWER_FAIL = false) →
      ∃ t, exec (.powerFailTrigger last) s = .next t ∧ t.phase = 0 ∧ t.power.failed = true ∧ t.power.thermal = false ∧ t.keyStore = s.keyStore ∧ t.power.fused = s.power.fused) ∧
  (∀ (s : State) (last : Fin 8),
      (s.phase ≠ 0) →
      (s.rb keyMOD Reg.MOD_STAT.POWER_FAIL = false) →
      ∃ t, exec (.thermalTrigger last) s = .next t ∧ t.phase = 0 ∧ t.power.failed = true ∧ t.power.thermal = true ∧ t.keyStore = s.keyStore ∧ t.power.fused = s.power.fused) ∧
  (∀ (s : State) (domain : Fin 30),
      (s.ready = true) →
      (s.domainOn domain = true) →
      (s.domainNeeded domain = false) →
      ∃ t, exec (.domainOffTimer domain) s = .next t ∧ t.domainOn domain = false ∧ t.rf keyPWR Reg.PWR_SWITCHES = satInc 0xFFFFFFFF (s.rf keyPWR Reg.PWR_SWITCHES)) ∧
  (∀ (s : State) (domain : Fin 30),
      (s.ready = true) →
      (s.domainOn domain = false) →
      (s.domainNeeded domain = true) →
      (nbit (s.rf keyPWR Reg.PWR_TRIPPED.MAP) domain = false) →
      ∃ t, exec (.domainOnDone domain) s = .next t ∧ t.domainOn domain = true) ∧
  (∀ (s : State) (domain : Fin 30),
      (s.domainOn domain = true) →
      ∃ t, exec (.domainTrip domain) s = .next t ∧ t.domainOn domain = false ∧ nbit (t.rf keyPWR Reg.PWR_TRIPPED.MAP) domain = true ∧ wbit (t.page keyPWR).err 16 = true ∧ (domain.val < 10 → t.isolated (3 + domain.val % 5) = true)) ∧
  (∀ (s : State) (maddr : Fin 8),
      (s.isSafe = false) →
      (s.inRecovery = false) →
      (s.phase = 1) →
      (s.power.porst = false) →
      ∃ t, exec (.startupStep maddr) s = .next t ∧ t.phase = 2 ∧ t.power.maddr = maddr) ∧
  (∀ (s : State) (maddr : Fin 8),
      (s.isSafe = false) →
      (s.inRecovery = false) →
      (s.phase = 10) →
      ∃ t, exec (.startupStep maddr) s = .next t ∧ t.phase = 11 ∧ t.ready = true ∧ wbit (t.page keyMOD).irq 16 = true) ∧
  (∀ (s : State) (region : Fin 8),
      (1 ≤ s.phase ∧ s.phase < 10) →
      (s.inRecovery = false) →
      (region ≠ 0) →
      ∃ t, exec (.startupTimeout region) s = .next t ∧ t.isolated region = true ∧ t.rb keyMOD Reg.MOD_STAT.DEGRADED = true) ∧
  (∀ (s : State),
      (1 ≤ s.phase ∧ s.phase < 10) →
      (s.inRecovery = false) →
      (s.safeReq = none) →
      ∃ t, exec (.startupTimeout 0) s = .next t ∧ t.safeReq = some 1) ∧
  (∀ (s : State) (vin current power peak : BitVec 16),
      (s.power.mgmtUntil ≤ s.six) →
      ∃ t, exec (.pwrVinRefresh vin current power peak) s = .next t ∧ t.rf keyPWR Reg.PWR_VIN.LO = vin.toNat ∧ t.rf keyPWR Reg.PWR_VIN.HI = current.toNat ∧ t.rf keyPWR Reg.PWR_PIN.LO = power.toNat ∧ t.rf keyPWR Reg.PWR_PIN.HI = peak.toNat ∧ wbit (t.page keyPWR).err 17 = (wbit (s.page keyPWR).err 17 || decide (3400 ≤ vin.toNat ∧ vin.toNat < 3600)) ∧ wbit (t.page keyPWR).err 18 = (wbit (s.page keyPWR).err 18 || decide (7500 < vin.toNat)))

/-- Board and module resets restart the module and keep what they keep -/
def Obligations.ResetsKeepTheirState : Prop :=
  (∀ (s : State),
      (s.phase ≠ 0) →
      ∃ t, exec (.boardReset) s = .next t ∧ t.phase = 1 ∧ t.rf keyMOD Reg.MOD_STAT.LAST_RESET = 1 ∧ t.power.porst = true ∧ t.keyStore = s.keyStore ∧ t.flashLog = s.flashLog ∧ t.rb keySEC Reg.SEC_STAT.DEBUG_OPEN = s.rb keySEC Reg.SEC_STAT.DEBUG_OPEN) ∧
  (∀ (s : State),
      ∃ t, exec (.porstNRelease) s = .next t ∧ t.power.porst = false ∧ t.phase = s.phase) ∧
  (∀ (s : State) (who : Issuer) (tag : Nat),
      s.takes who keyMOD →
      (s.page keyMOD).a0.toNat = 0x4D525354 →
      (10 ≤ s.phase) →
      (s.rb keyMOD Reg.MOD_STAT.POWER_FAIL = false) →
      ∃ t, exec (.moduleReset who tag) s = .next t ∧ t.phase = 3 ∧ t.ready = false ∧ t.rf keyMOD Reg.MOD_STAT.LAST_RESET = 2 ∧ t.six = s.six ∧ t.log = s.log ∧ t.keyStore = s.keyStore ∧ t.power.kt = s.power.kt ∧ t.mem = [] ∧ t.routes = [])

/-- Firmware is written, checked, activated and ratcheted -/
def Obligations.FirmwareCommandsTakeEffect : Prop :=
  (∀ (s : State) (who : Issuer) (tag : Nat) (image : List Byte),
      s.takes who keySEC →
      (512 < (s.page keySEC).a2.toNat ∧ (s.page keySEC).a2.toNat ≤ fwBankBytes) →
      ∃ t, exec (.fwWrite who tag (some image)) s = .next t ∧ t.power.image = some (image.take (s.page keySEC).a2.toNat) ∧ t.rf keySEC Reg.SEC_STAT.UPDATE = 1 ∧ t.fwBank (!s.runBank) = [] ∧ t.fwBank s.runBank = s.fwBank s.runBank) ∧
  (∀ (s : State) (i : List Byte),
      (s.power.image = some i) →
      (s.secOp = some 0x0100) →
      (s.fwFault i = none) →
      ∃ t, exec (.fwWriteDone true) s = .next t ∧ t.fwBank (!s.runBank) = i ∧ t.rf keySEC Reg.SEC_STAT.UPDATE = 2 ∧ t.power.image = none ∧ (t.page keySEC).op = none) ∧
  (∀ (s : State) (i : List Byte) (op : Op),
      (s.power.image = some i) →
      (s.page keySEC).op = some op →
      (op.opcode = 0x0100) →
      ∃ t, exec (.fwWriteDone false) s = .next t ∧ t.power.image = none ∧ t.rf keySEC Reg.SEC_STAT.UPDATE = 0 ∧ (t.page keySEC).op = none ∧ (t.page keySEC).cmdStat = cmdStatWord op.tag phaseFAILED 0x01 codeINTEGRITY) ∧
  (∀ (s : State) (who : Issuer) (tag : Nat),
      s.takes who keySEC →
      (s.rb keySEC Reg.SEC_STAT.OTHER_VALID = true) →
      (s.inRecovery = false) →
      ∃ t, exec (.fwActivate who tag) s = .next t ∧ t.rf keySEC Reg.SEC_STAT.UPDATE = 3 ∧ (t.page keySEC).op = some (s.latch keySEC 0x0101 tag)) ∧
  (∀ (s : State),
      (s.secOp = some 0x0101) →
      (s.power.holdAt.isSome = true) →
      ∃ t, exec (.newImageTakeover) s = .next t ∧ t.runBank = !s.runBank ∧ t.power.holdAt = none ∧ (t.page keySEC).op = none ∧ t.preferred = !s.runBank) ∧
  (∀ (s : State) (h : Nat),
      (s.power.holdAt = some h) →
      (s.secOp = some 0x0101) →
      ∃ t, exec (.activateTimeout) s = .next t ∧ t.power.holdAt = none ∧ t.rf keySEC Reg.SEC_STAT.UPDATE = 2 ∧ t.runBank = s.runBank ∧ (t.page keySEC).op = none) ∧
  (∀ (s : State) (who : Issuer) (tag : Nat),
      s.takes who keySEC →
      (s.inRecovery = false) →
      ∃ t, exec (.fwRatchet who tag) s = .next t ∧ t.svnMin = max s.svnMin (s.rf keySEC Reg.SEC_STAT.SVN) ∧ (t.page keySEC).op = none)

/-- Attestation, key exchange, the key store and debug access take effect -/
def Obligations.KeysAndDebugTakeEffect : Prop :=
  (∀ (s : State) (who : Issuer) (tag : Nat) (nonce : List Byte),
      s.takes who keySEC →
      (s.provisioned = true) →
      (344 ≤ (s.page keySEC).a2.toNat) →
      (s.page keySEC).resReady = false →
      ∃ t, exec (.attest who tag (some nonce)) s = .next t ∧ t.out = s.out ++ [.hostWrite ((s.page keySEC).a0.toNat + (s.page keySEC).a1.toNat * 2 ^ 32) ((s.attestBody nonce ++ ecSign s.identity s.drawSecret.1 (s.attestBody nonce)).map some)] ∧ (t.page keySEC).res.head? = some 344) ∧
  (∀ (s : State) (who : Issuer) (tag : Nat) (buffer : List Byte),
      s.takes who keySEC →
      (s.provisioned = true) →
      (320 ≤ (s.page keySEC).a2.toNat) →
      ∃ t, exec (.keyExchange who tag (some buffer)) s = .next t ∧ t.power.kt.isSome = true ∧ t.power.ktIv = none ∧ t.rb keySEC Reg.SEC_STAT.KT = true ∧ (t.page keySEC).op = none) ∧
  (∀ (s : State) (who : Issuer) (tag : Nat) (blob kt key : List Byte) (iv : Nat),
      s.takes who keySEC →
      (s.provisioned = true) →
      (s.slotError (s.page keySEC).a2.toNat = none) →
      (s.power.kt = some kt) →
      (unwrapKey kt s.power.ktIv (s.page keySEC).a2.toNat blob = some (key, iv)) →
      ∃ t, exec (.keyLoad who tag (some blob)) s = .next t ∧ mfind t.keyStore (s.page keySEC).a2.toNat = some key ∧ t.power.ktIv = some iv ∧ (t.page keySEC).cmdStat = cmdStatWord tag phaseDONE 0 codeOK) ∧
  (∀ (s : State) (who : Issuer) (tag : Nat),
      s.takes who keySEC →
      (s.slotError (s.page keySEC).a0.toNat = none) →
      ∃ t, exec (.keyClear who tag) s = .next t ∧ mfind t.keyStore (s.page keySEC).a0.toNat = none ∧ (t.page keySEC).cmdStat = cmdStatWord tag phaseDONE 0 codeOK) ∧
  (∀ (s : State) (who : Issuer) (tag : Nat),
      s.takes who keySEC →
      (s.page keySEC).a0.toNat = 0x44454247 →
      (s.page keySEC).resReady = false →
      ∃ t, exec (.debugOpen who tag false) s = .next t ∧ t.keyStore = [] ∧ t.power.kt = none ∧ t.guestWin = [] ∧ t.rb keySEC Reg.SEC_STAT.DEBUG_OPEN = true ∧ (t.page keySEC).res.head? = some 72)

/-- Management messages, sensors, SMBus and the console take effect -/
def Obligations.ManagementInterfaceTakesEffect : Prop :=
  (∀ (s : State) (e : BitVec 8),
      (s.phase ≠ 0) →
      (s.power.mgmtUntil ≤ s.six) →
      ∃ t, exec (.mctpMessage (.setEid e)) s = .next t ∧ t.power.eid = e.toNat ∧ t.out = s.out ++ [.mgmt (.setEid e) true [e.toNat]]) ∧
  (∀ (s : State),
      (s.phase ≠ 0) →
      (s.power.mgmtUntil ≤ s.six) →
      ∃ t, exec (.mctpMessage .getEid) s = .next t ∧ t.out = s.out ++ [.mgmt .getEid true [s.power.eid]]) ∧
  (∀ (s : State) (m : MctpMsg),
      (s.phase ≠ 0) →
      (s.six < s.power.mgmtUntil) →
      ∃ t, exec (.mctpMessage m) s = .next t ∧ t.power.deferred = s.power.deferred ++ [m] ∧ t.out = s.out) ∧
  (∀ (s : State) (id : Fin 16) (value : Int),
      (s.phase ≠ 0) →
      (s.power.mgmtUntil ≤ s.six) →
      (id ≠ 0) →
      ∃ t, exec (.sensorRefresh [(id, value)]) s = .next t ∧ t.sensor id = value) ∧
  (∀ (s : State),
      ∃ t, exec (.smbusTimeout) s = .next t ∧ t.power.deferred = []) ∧
  (∀ (s : State) (char : BitVec 8),
      ∃ t, exec (.uartRxCharacter char true) s = .next t ∧ t.power.uart = s.power.uart ++ [char])

/-- Planes, management cores, resets, recovery, the log and safe state take effect -/
def Obligations.AvailabilityCommandsTakeEffect : Prop :=
  (∀ (s : State) (plane : Fin 2),
      (s.rf keyFLT Reg.FLT_PLANES.PLANE_OUT = 0) →
      ∃ t, exec (.planeFailure plane) s = .next t ∧ nbit (t.rf keyFLT Reg.FLT_PLANES.PLANE_OUT) plane = true ∧ plane.val ∈ t.power.planeTests ∧ t.safeReq = s.safeReq) ∧
  (∀ (s : State) (plane : Fin 2),
      (s.power.planeTests.contains plane.val = true) →
      ∃ t, exec (.planeSelftest plane true) s = .next t ∧ nbit (t.rf keyFLT Reg.FLT_PLANES.PLANE_OUT) plane = false ∧ t.power.planeTests.contains plane.val = false) ∧
  (∀ (s : State),
      ∃ t, exec (.lockstepMismatch) s = .next t ∧ t.power.mgmtUntil = s.six + 20 * sixPerMs ∧ t.six = s.six) ∧
  (∀ (s : State),
      (s.power.mgmtUntil ≤ s.six) →
      ∃ t, exec (.checkpoint) s = .next t ∧ t.power.checkpoint = s.six ∧ t.power.deferred = []) ∧
  (∀ (s : State) (key : Fin 8192),
      (s.page key).st = .fault ∧ (s.page key).owner = .phoin →
      (s.phn.sticky.contains key.val = false) →
      (s.isolated (keyRegion key) = false) →
      (mfind s.phn.faultSix key = none) →
      ∃ t, exec (.faultAutoReset key) s = .next t ∧ (t.page key).st = .reset ∧ mfind t.phn.faultSix key = some s.six) ∧
  (∀ (s : State) (who : Issuer) (tag : Nat),
      s.takes who keyFLT →
      (1 ≤ (s.page keyFLT).a0.toNat ∧ (s.page keyFLT).a0.toNat < 8) →
      (s.isSafe = false) →
      (s.isolated (s.page keyFLT).a0.toNat = true) →
      ∃ t, exec (.recover who tag) s = .next t ∧ (t.page keyFLT).op = some (s.latch keyFLT 0x0102 tag)) ∧
  (∀ (s : State) (op : Op),
      (s.page keyFLT).op = some op →
      (op.opcode = 0x0102) →
      ∃ t, exec (.recoverComplete false) s = .next t ∧ (t.page keyFLT).op = none ∧ (t.page keyFLT).cmdStat = cmdStatWord op.tag phaseFAILED 0x03 codeFAULT ∧ t.isolated op.a0 = s.isolated op.a0) ∧
  (∀ (s : State) (who : Issuer) (tag : Nat) (e : LogEntry),
      s.takes who keyFLT →
      (s.page keyFLT).resReady = false →
      (s.log.find? (fun e => decide (e.entry = (s.page keyFLT).a0.toNat)) = some e) →
      ∃ t, exec (.readLog who tag) s = .next t ∧ (t.page keyFLT).res.take 8 = e.words ∧ (t.page keyFLT).resReady = true ∧ t.log = s.log) ∧
  (∀ (s : State) (who : Issuer) (tag : Nat) (e : LogEntry),
      s.takes who keyFLT →
      (s.page keyFLT).resReady = false →
      (s.flashLog.reverse[(s.page keyFLT).a0.toNat]? = some e) →
      ∃ t, exec (.readFlashLog who tag) s = .next t ∧ (t.page keyFLT).res.take 8 = e.words ∧ (t.page keyFLT).resReady = true ∧ t.flashLog = s.flashLog) ∧
  (∀ (s : State) (e : LogEntry),
      (s.held = [e]) →
      (s.isSafe = true) →
      (s.pageHolders e.pageKey) = [] →
      ∃ t, exec (.collectorRelease) s = .next t ∧ t.held = []) ∧
  (∀ (s : State) (cause : Nat),
      (s.safeReq = some cause) →
      (s.isSafe = false) →
      (s.phase ≠ 0) →
      ∃ t, exec (.safeStateEntry) s = .next t ∧ t.isSafe = true ∧ t.ready = false ∧ t.rb keyFLT Reg.FLT_STAT.FAULT_N = true ∧ wbit (t.page keyFLT).irq 18 = true)

/-- No command touches the queue of commands -/
def Obligations.ExecKeepsTheQueue : Prop :=
  ∀ (c : Instr) (s t : State), exec c s = .next t → t.pending = s.pending

/-- Every step keeps user memory in its canonical form -/
def Obligations.StepKeepsMemoryCanonical : Prop :=
  ∀ s t : State, s.memoryWf → step s = .next t → t.memoryWf

/-- Every step keeps the sample index below 2^72 -/
def Obligations.StepKeepsSixIn72Bits : Prop :=
  ∀ s t : State, s.sixWf → step s = .next t → t.sixWf

/-- Every step keeps the log within 4,096 entries and the flash log within 256 -/
def Obligations.StepKeepsLogLengths : Prop :=
  ∀ s t : State, s.logsWf → step s = .next t → t.logsWf

/-- The state after reset is well kept -/
def Obligations.ResetIsWellKept : Prop :=
  State.reset.memoryWf ∧ State.reset.sixWf ∧ State.reset.logsWf

/-- What reset leaves -/
def Obligations.ResetValues : Prop :=
  State.reset.pending = [] ∧ State.reset.six = 0 ∧ State.reset.ready = false ∧
  (∀ key : Nat, let p := State.reset.page key
    p.st = .reset ∧ p.op = none ∧ p.cmdStat = 0 ∧ p.err = 0 ∧ p.errEn = 0 ∧ p.irq = 0 ∧ p.irqEn = 0 ∧ p.a0 = 0 ∧ p.a1 = 0 ∧ p.a2 = 0 ∧ p.a3 = 0 ∧
      p.resSeq = 0 ∧ p.resReady = false ∧ p.enable = false ∧ p.freeze = false ∧ p.lock = false ∧ p.owner = ownerAtReset key ∧ p.gen = 0) ∧
  (∀ key : Nat, State.reset.vectorOf key = if key = keyFLT then some 0 else none)

/-- Every command but those that may store leaves user memory as it was -/
def Obligations.OtherCommandsKeepMemory : Prop :=
  ∀ (c : Instr) (s t : State), c.mayStore = false → exec c s = .next t → t.mem = s.mem ∧ ∀ a : Nat, t.readByte a = s.readByte a

/-- The key store changes only by KEY_LOAD, KEY_CLEAR and zeroisation -/
def Obligations.KeyStoreChangesOnlyByItsCommands : Prop :=
  ∀ (c : Instr) (s t : State), c.mayChangeKeys = false → exec c s = .next t → t.keyStore = s.keyStore

/-- Interrupt routes change only by ROUTE_IRQ, PERST_N and resets -/
def Obligations.RoutesChangeOnlyByTheirCommands : Prop :=
  ∀ (c : Instr) (s t : State), c.mayChangeRoutes = false → exec c s = .next t → t.routes = s.routes ∧ ∀ key : Nat, t.vectorOf key = s.vectorOf key

/-- Phoin's rings and tasks change only by the commands that concern them -/
def Obligations.PhoinChangesOnlyByItsCommands : Prop :=
  ∀ (c : Instr) (s t : State), c.mayChangePhoin = false → exec c s = .next t → t.phn = s.phn ∧ ∀ id : Nat, t.task id = s.task id

/-- No command changes the fused hash of the firmware key -/
def Obligations.FusedKeyNeverChanges : Prop :=
  ∀ (c : Instr) (s t : State), exec c s = .next t → t.power.fused = s.power.fused

/-- Bytes written to user memory read back, and no other byte changes -/
def Obligations.WrittenBytesReadBack : Prop :=
  ∀ (s : State) (a : Nat) (bs : List Byte) (c : Nat),
    (s.writeMem a bs).readByte c = if a ≤ c ∧ c < a + bs.length then bs.getD (c - a) 0 else s.readByte c

/-- A write with byte enables merges into its line, and its poison mark follows -/
def Obligations.MergedLineAndItsMark : Prop :=
  ∀ (s : State) (u : Nat) (bs : List (Option Byte)) (a : Nat),
    ((s.mergeLine u bs).readByte a = if a / 64 = u / 64 then (bs.getD (a % 64) none).getD (s.readByte a) else s.readByte a) ∧
    ((s.mergeLine u bs).poisoned (u / 64) = (s.poisoned (u / 64) && !((List.range 64).all fun i => (bs.getD i none).isSome))) ∧
    ∀ line : Nat, line ≠ u / 64 → (s.mergeLine u bs).poisoned line = s.poisoned line

/-- A register field reads back what is written to it, and nothing else changes -/
def Obligations.FieldsReadBack : Prop :=
  ∀ (s : State) (key : Nat) (f : RegField) (v : Nat), f.hi < 32 → f.lo ≤ f.hi →
    (s.wf key f v).rf key f = v % 2 ^ (f.hi + 1 - f.lo) ∧
    (∀ g : RegField, g.off = f.off → g.hi < 32 → g.lo ≤ g.hi → (g.hi < f.lo ∨ f.hi < g.lo) → (s.wf key f v).rf key g = s.rf key g) ∧
    (∀ off : Nat, off ≠ f.off → (s.wf key f v).reg key off = s.reg key off) ∧
    ((s.wf key f v).page key).st = (s.page key).st ∧ ((s.wf key f v).page key).owner = (s.page key).owner ∧
    ((s.wf key f v).page key).op = (s.page key).op ∧ ((s.wf key f v).page key).err = (s.page key).err ∧ ((s.wf key f v).page key).irq = (s.page key).irq ∧
    ∀ k : Nat, k ≠ key → (s.wf key f v).page k = s.page k

/-- A write to an argument, error or interrupt register of a page leaves everything else as it was -/
def Obligations.HeaderWritesLeaveTheRest : Prop :=
  ∀ (s : State) (who : Issuer) (key : Fin 8192) (i : Fin 1024) (value : BitVec 32), s.discards who key = none →
    i.val ∈ [0x018 / 4, 0x01C / 4, 0x020 / 4, 0x024 / 4, 0x034 / 4, 0x038 / 4, 0x03C / 4, 0x040 / 4] →
    ∃ t, exec (.registerWrite who key i value true) s = .next t ∧ (∀ k : Nat, k ≠ key.val → t.page k = s.page k) ∧
      (t.page key).regs = (s.page key).regs ∧ (t.page key).op = (s.page key).op ∧ (t.page key).owner = (s.page key).owner ∧
      (t.page key).st = (s.page key).st ∧ (t.page key).cmdStat = (s.page key).cmdStat ∧ t.mem = s.mem ∧ t.log = s.log ∧ t.six = s.six ∧
      t.keyStore = s.keyStore ∧ t.routes = s.routes ∧ t.phn = s.phn

/-- The addresses of user memory that exist after reset -/
def Obligations.MappedAtReset : Prop :=
  ∀ u : Nat, State.reset.mapped u = (decide (u < 2 ^ 37) && decide (u % 2 ^ 35 < 0x5A0000000))

/-- What every change of owner does to a page -/
def Obligations.ChangeOfOwner : Prop :=
  ∀ (s : State) (key : Nat) (o : Owner), (s.page key).owner ≠ o →
    let p := (s.changeOwner key o).page key
    p.owner = o ∧ p.gen = ((s.page key).gen + 1) % 256 ∧ p.err = 0 ∧ p.irq = 0 ∧ p.errEn = 0 ∧ p.irqEn = 0 ∧
      p.enable = false ∧ p.freeze = false ∧ p.lock = false ∧ (s.changeOwner key o).ctrl key = 0 ∧ p.resReady = false ∧
      p.resSeq = (s.page key).resSeq ∧ ∀ k : Nat, k ≠ key → (s.changeOwner key o).page k = s.page k

/-- ARM_SYNC that sees no edge ends FAILED with TIMEOUT, and no reset is applied -/
def Obligations.ArmSyncTimeoutFails : Prop :=
  (∀ (s : State) (o : SyncOp) (op : Op),
      (s.tb.sync = some o) →
      (o.isNow = false) →
      (o.first = none) →
      (s.page keyTBS).op = some op →
      ∃ t, exec (.armSyncTimeout) s = .next t ∧ (t.page keyTBS).op = none ∧ (t.page keyTBS).cmdStat = cmdStatWord op.tag phaseFAILED 0x03 codeTIMEOUT ∧ t.tb.sync = none ∧ t.tb.shift = s.tb.shift ∧ t.tb.sixLoaded = s.tb.sixLoaded ∧ t.six = if s.six < o.deadline then o.deadline % 2 ^ 72 else s.six)

/-- ROUTE_IRQ: what it routes, what it refuses, and what clears a route -/
def Obligations.RouteIrqWhole : Prop :=
  (∀ (s : State) (who : Issuer) (tag : Nat),
      s.takes who keyHIF →
      (keyListed ((s.page keyHIF).a0.toNat % 2 ^ 13) = false ∨ (1 ≤ (s.page keyHIF).a1.toNat % 2 ^ 11 ∧ (s.page keyHIF).a1.toNat % 2 ^ 11 < 32)) →
      ∃ t, exec (.routeIrq who tag) s = .next t ∧ t.routes = s.routes ∧ (t.page keyHIF).cmdStat = cmdStatWord tag phaseREJECTED 0 codeRANGE) ∧
  (∀ (s : State) (who : Issuer) (tag : Nat),
      s.takes who keyHIF →
      (s.page keyHIF).a0.toNat % 2 ^ 13 = keyFLT →
      (s.page keyHIF).a1.toNat % 2 ^ 11 = 0 ∨ 32 ≤ (s.page keyHIF).a1.toNat % 2 ^ 11 →
      ∃ t, exec (.routeIrq who tag) s = .next t ∧ t.routes = s.routes ∧ (t.page keyHIF).cmdStat = cmdStatWord tag phaseREJECTED 0x03 codePROTECT) ∧
  (∀ (s : State) (who : Issuer) (tag : Nat),
      s.takes who keyHIF →
      (keyListed ((s.page keyHIF).a0.toNat % 2 ^ 13) = true) →
      (s.page keyHIF).a0.toNat % 2 ^ 13 ≠ keyFLT →
      (s.page keyHIF).a1.toNat % 2 ^ 11 = 0 ∨ 32 ≤ (s.page keyHIF).a1.toNat % 2 ^ 11 →
      ∃ t, exec (.routeIrq who tag) s = .next t ∧ t.vectorOf ((s.page keyHIF).a0.toNat % 2 ^ 13) = (if (s.page keyHIF).a1.toNat % 2 ^ 11 = 0 then none else some ((s.page keyHIF).a1.toNat % 2 ^ 11)) ∧ (∀ k : Nat, k ≠ (s.page keyHIF).a0.toNat % 2 ^ 13 → t.vectorOf k = s.vectorOf k) ∧ (t.page keyHIF).cmdStat = cmdStatWord tag phaseDONE 0 codeOK) ∧
  (∀ s : State, s.vectorOf keyFLT = some 0) ∧
  (∀ (s : State) (who : Issuer) (tag : Nat),
      s.takes who keyMOD →
      (s.page keyMOD).a0.toNat = 0x4D525354 →
      (10 ≤ s.phase) →
      (s.rb keyMOD Reg.MOD_STAT.POWER_FAIL = false) →
      ∃ t, exec (.moduleReset who tag) s = .next t ∧ t.routes = []) ∧
  (∀ (s : State),
      (s.perst = false) →
      ∃ t, exec (.perstNAssert) s = .next t ∧ t.routes = [])

/-- SHADOW that is valid or being filled takes no write and no COMMIT -/
def Obligations.ShadowBusyRefuses : Prop :=
  (∀ (s : State) (who : Issuer) (chan : Fin 512) (index : Fin 32) (value : BitVec 32),
      (s.discards who (chanKey chan) = none) →
      (s.shBusy chan = true) →
      ∃ t, exec (.trvShWrite who chan index value) s = .next t ∧ t.shBytes chan = s.shBytes chan ∧ (t.chan chan).sh = (s.chan chan).sh ∧ wbit (t.page (chanKey chan)).err 16 = true) ∧
  (∀ (s : State) (who : Issuer) (chan : Fin 512),
      (s.discards who (chanKey chan) = none) →
      (s.shBusy chan = true) →
      ∃ t, exec (.trvCommit who chan) s = .next t ∧ t.rf (chanKey chan) (Reg.TRV_STAT.CODE (chan.val % 16)) = codeBUSY ∧ t.shBytes chan = s.shBytes chan ∧ (t.chan chan).sh = (s.chan chan).sh ∧ (t.chan chan).act = (s.chan chan).act)

/-- Host writes are honoured only on a page the host owns; others are discarded and logged -/
def Obligations.HostWritesNeedOwnership : Prop :=
  (∀ (s : State) (key : Fin 8192) (i : Fin 1024) (value : BitVec 32) (full : Bool),
      (s.discards .host key = some .owner) →
      ∃ t, exec (.registerWrite .host key i value full) s = .next t ∧ (key.val ≠ keyFLT → t.page key = s.page key) ∧ (t.page key).cmdStat = (s.page key).cmdStat ∧ (t.page key).op = (s.page key).op ∧ (t.page key).owner = (s.page key).owner ∧ (t.page key).st = (s.page key).st ∧ ∃ e ∈ t.log, e.code = codeOWNER ∧ e.kind = 6 ∧ e.pageKey = key ∧ e.detail = barAddr key (4 * i.val) % 2 ^ 48 + value.toNat % 2 ^ 16 * 2 ^ 48) ∧
  (∀ (s : State) (key : Fin 8192) (tag : Nat),
      (s.discards .host key = some .owner) →
      ∃ t, exec (.query .host key tag) s = .next t ∧ (key.val ≠ keyFLT → t.page key = s.page key) ∧ ∃ e ∈ t.log, e.code = codeOWNER ∧ e.kind = 6 ∧ e.pageKey = key ∧ e.detail = barAddr key 0x030 % 2 ^ 48 + cmdWord tag 0x0007 % 2 ^ 16 * 2 ^ 48) ∧
  (∀ (s : State) (key : Nat), s.discards .host key = none → (s.page key).owner = .host) ∧
  (∀ (s : State) (key : Nat), keyListed key = true → s.pageOff key = false → (s.page key).owner = .host → s.discards .host key = none) ∧
  (∀ (s : State) (key : Nat), s.discards .module key ≠ some .owner) ∧
  (∀ (s : State) (key off : Nat) (o : Owner), off ≠ 0x00C → (s.modPage key fun p => { p with owner := o }).readReg key off = s.readReg key off)

/-- An entry of a ring in user memory is written to its slot, and nothing else of memory changes -/
def Obligations.RingEntriesLand : Prop :=
  (∀ (s : State) (ring : Fin 32768) (e : List Byte) (rest : List (List Byte)),
      (s.ring ring).entries = e :: rest →
      (s.ring ring).st = .open0 →
      (s.ring ring).consumer = true →
      ((s.ring ring).growTo ((s.ring ring).prod + 1)).held < ((s.ring ring).growTo ((s.ring ring).prod + 1)).len →
      ((s.ring ring).growTo ((s.ring ring).prod + 1)).host = false →
      (s.ringPath ((s.ring ring).growTo ((s.ring ring).prod + 1)) (((s.ring ring).growTo ((s.ring ring).prod + 1)).slot ((s.ring ring).growTo ((s.ring ring).prod + 1)).prod) = .clear) →
      ∃ t, exec (.ringProduce ring true) s = .next t ∧ let g := (s.ring ring).growTo ((s.ring ring).prod + 1); (t.ring ring).entries = rest ∧ (t.ring ring).prod = (g.prod + 1) % 2 ^ 32 ∧ ∀ a : Nat, t.readByte a = if g.slot g.prod ≤ a ∧ a < g.slot g.prod + e.length then e.getD (a - g.slot g.prod) 0 else s.readByte a)

/-- Every command answers a next state, whatever the state and the operands: no command faults, and none is refused. -/
def Obligations.EveryCommandAnswersNext : Prop :=
  ∀ (c : Instr) (s : State), ∃ t, exec c s = .next t
end

