-- ==== Sys2Proof/Laws/Maps.lean ====
section
/-! SUPPORT. The laws of the sparse maps and of the fields of a word. -/

namespace Sys2Proof.Machine

variable {α : Type}

/-! ### Reading after writing. -/

@[simp] theorem mget_nil (d : Nat → α) (k : Nat) : mget d [] k = d k := rfl

/-- A key reads the value last written to it. -/
@[simp] theorem mget_mput_same (d : Nat → α) (m : List (Nat × α)) (k : Nat) (v : α) : mget d (mput m k v) k = v := by
  induction m with
  | nil => simp [mput, mget]
  | cons x m ih =>
    obtain ⟨a, w⟩ := x
    unfold mput
    by_cases h1 : k < a
    · simp [h1, mget]
    · by_cases h2 : k = a
      · simp [h2, mget]
      · simp [h1, h2, mget, ih]

/-- A write leaves every other key alone. -/
theorem mget_mput_other (d : Nat → α) (m : List (Nat × α)) {j k : Nat} (v : α) (h : j ≠ k) : mget d (mput m k v) j = mget d m j := by
  induction m with
  | nil => simp [mput, mget, h]
  | cons x m ih =>
    obtain ⟨a, w⟩ := x
    unfold mput
    by_cases h1 : k < a
    · simp [h1, mget, h]
    · by_cases h2 : k = a
      · subst h2; simp [mget, h]
      · simp [h1, h2, mget, ih]

theorem mget_mput (d : Nat → α) (m : List (Nat × α)) (j k : Nat) (v : α) : mget d (mput m k v) j = if j = k then v else mget d m j := by
  by_cases h : j = k
  · subst h; simp
  · rw [if_neg h, mget_mput_other d m v h]

/-- A removed key reads its default. -/
@[simp] theorem mget_mdel_same (d : Nat → α) (m : List (Nat × α)) (k : Nat) : mget d (mdel m k) k = d k := by
  induction m with
  | nil => rfl
  | cons x m ih =>
    obtain ⟨a, w⟩ := x
    unfold mdel
    by_cases h : k = a
    · rw [if_pos h]; exact ih
    · rw [if_neg h]; simp [mget, h, ih]

/-- Removing a key leaves every other key alone. -/
theorem mget_mdel_other (d : Nat → α) (m : List (Nat × α)) {j k : Nat} (h : j ≠ k) : mget d (mdel m k) j = mget d m j := by
  induction m with
  | nil => rfl
  | cons x m ih =>
    obtain ⟨a, w⟩ := x
    unfold mdel
    by_cases h1 : k = a
    · subst h1; simp [mget, h, ih]
    · rw [if_neg h1]; simp [mget, ih]

/-- The entry of a key after a write to it. -/
@[simp] theorem mfind_mput_same (m : List (Nat × α)) (k : Nat) (v : α) : mfind (mput m k v) k = some v := by
  induction m with
  | nil => simp [mput, mfind]
  | cons x m ih =>
    obtain ⟨a, w⟩ := x
    unfold mput
    by_cases h1 : k < a
    · simp [h1, mfind]
    · by_cases h2 : k = a
      · simp [h2, mfind]
      · simp [h1, h2, mfind, ih]

/-- A write leaves the entry of every other key alone. -/
theorem mfind_mput_other (m : List (Nat × α)) {j k : Nat} (v : α) (h : j ≠ k) : mfind (mput m k v) j = mfind m j := by
  induction m with
  | nil => simp [mput, mfind, h]
  | cons x m ih =>
    obtain ⟨a, w⟩ := x
    unfold mput
    by_cases h1 : k < a
    · simp [h1, mfind, h]
    · by_cases h2 : k = a
      · subst h2; simp [mfind, h]
      · simp [h1, h2, mfind, ih]

/-- A removed key has no entry. -/
@[simp] theorem mfind_mdel_same (m : List (Nat × α)) (k : Nat) : mfind (mdel m k) k = none := by
  induction m with
  | nil => rfl
  | cons x m ih =>
    obtain ⟨a, w⟩ := x
    unfold mdel
    by_cases h : k = a
    · rw [if_pos h]; exact ih
    · rw [if_neg h]; simp [mfind, h, ih]

/-! ### The keys rise. -/

/-- Rising above a bound is rising above a lower one. -/
theorem mrising_lower {m : List (Nat × α)} {a b : Nat} (h : mrising (some a) m = true) (hb : b ≤ a) : mrising (some b) m = true := by
  cases m with
  | nil => rfl
  | cons x m =>
    obtain ⟨y, v⟩ := x
    simp only [mrising, Bool.and_eq_true, decide_eq_true_eq] at h ⊢
    exact ⟨by omega, h.2⟩

theorem mrising_none {m : List (Nat × α)} {a : Nat} (h : mrising (some a) m = true) : mrising none m = true := by
  cases m with
  | nil => rfl
  | cons x m =>
    obtain ⟨y, v⟩ := x
    simp only [mrising, Bool.and_eq_true, decide_eq_true_eq] at h ⊢
    exact h.2

theorem mrising_mput_some {m : List (Nat × α)} {a k : Nat} (v : α) (h : mrising (some a) m = true) (hk : a < k) : mrising (some a) (mput m k v) = true := by
  induction m generalizing a with
  | nil => simp [mput, mrising, hk]
  | cons x m ih =>
    obtain ⟨y, w⟩ := x
    simp only [mrising, Bool.and_eq_true, decide_eq_true_eq] at h
    unfold mput
    by_cases h1 : k < y
    · simp [h1, mrising, hk, h.2]
    · by_cases h2 : k = y
      · subst h2; simp [mrising, hk, h.2]
      · simp [h1, h2, mrising, h.1, ih h.2 (by omega)]

/-- A write keeps the keys rising. -/
theorem mrising_mput {m : List (Nat × α)} (k : Nat) (v : α) (h : mrising none m = true) : mrising none (mput m k v) = true := by
  cases m with
  | nil => rfl
  | cons x m =>
    obtain ⟨y, w⟩ := x
    simp only [mrising] at h
    unfold mput
    by_cases h1 : k < y
    · simp [h1, mrising, h]
    · by_cases h2 : k = y
      · subst h2; simp [mrising, h]
      · simp only [h1, h2, if_false, mrising]
        exact mrising_mput_some v h (by omega)

theorem mrising_filter_some {m : List (Nat × α)} {a : Nat} (p : Nat × α → Bool) (h : mrising (some a) m = true) : mrising (some a) (m.filter p) = true := by
  induction m generalizing a with
  | nil => rfl
  | cons x m ih =>
    obtain ⟨y, w⟩ := x
    simp only [mrising, Bool.and_eq_true, decide_eq_true_eq] at h
    rw [List.filter_cons]
    split
    · simp [mrising, h.1, ih h.2]
    · exact mrising_lower (ih h.2) (by omega)

/-- Leaving entries out keeps the keys rising. -/
theorem mrising_filter {m : List (Nat × α)} (p : Nat × α → Bool) (h : mrising none m = true) : mrising none (m.filter p) = true := by
  cases m with
  | nil => rfl
  | cons x m =>
    obtain ⟨y, w⟩ := x
    simp only [mrising] at h
    rw [List.filter_cons]
    split
    · exact mrising_filter_some p h
    · exact mrising_none (mrising_filter_some p h)

/-- Removing a key leaves out its entries. -/
theorem mdel_eq_filter (m : List (Nat × α)) (k : Nat) : mdel m k = m.filter fun x => decide (k ≠ x.1) := by
  induction m with
  | nil => rfl
  | cons x m ih =>
    obtain ⟨a, w⟩ := x
    unfold mdel
    rw [List.filter_cons]
    by_cases h : k = a
    · simp [h]; rw [← h]; simpa using ih
    · simp [h]; simpa using ih

/-! ### Fields of a word. -/

/-- A field of `hi + 1 - lo` bits is below 2 to that power. -/
theorem bitsOf_lt (w hi lo : Nat) : bitsOf w hi lo < 2 ^ (hi + 1 - lo) := Nat.mod_lt _ (Nat.two_pow_pos _)

/-- A number with a field replaced: what stands above the field, the new value, what stands below it. -/
theorem setBits_eq (w hi lo v : Nat) :
    setBits w hi lo v = (w / 2 ^ lo / 2 ^ (hi + 1 - lo) * 2 ^ (hi + 1 - lo) + v % 2 ^ (hi + 1 - lo)) * 2 ^ lo + w % 2 ^ lo := by
  unfold setBits bitsOf
  generalize 2 ^ lo = n
  generalize 2 ^ (hi + 1 - lo) = k
  have h1 := Nat.div_add_mod' w n
  have h2 := Nat.div_add_mod' (w / n) k
  generalize w / n / k = q at *
  generalize w / n % k = f at *
  have h3 : w / n * n = (q * k) * n + f * n := by rw [← h2, Nat.add_mul]
  rw [Nat.add_mul]
  omega

/-- A field reads the value written to it, cut to its width. -/
theorem bitsOf_setBits (w hi lo v : Nat) : bitsOf (setBits w hi lo v) hi lo = v % 2 ^ (hi + 1 - lo) := by
  rw [setBits_eq]
  unfold bitsOf
  have hn : 0 < 2 ^ lo := Nat.two_pow_pos _
  rw [Nat.add_comm (_ * 2 ^ lo), Nat.add_mul_div_right _ _ hn, Nat.div_eq_of_lt (Nat.mod_lt _ hn), Nat.zero_add, Nat.add_comm,
    Nat.add_mul_mod_self_right, Nat.mod_mod]

/-- Replacing a field of a 32-bit number leaves a 32-bit number. -/
theorem setBits_lt {w hi lo : Nat} (v : Nat) (h : w < 2 ^ 32) (hh : hi < 32) (hl : lo ≤ hi) : setBits w hi lo v < 2 ^ 32 := by
  rw [setBits_eq]
  have e : 2 ^ (31 - hi) * (2 ^ (hi + 1 - lo) * 2 ^ lo) = 2 ^ 32 := by
    rw [← Nat.pow_add, ← Nat.pow_add]; congr 1; omega
  have hn : 0 < 2 ^ lo := Nat.two_pow_pos _
  have hk : 0 < 2 ^ (hi + 1 - lo) := Nat.two_pow_pos _
  have hw : w / 2 ^ lo / 2 ^ (hi + 1 - lo) < 2 ^ (31 - hi) := by
    rw [Nat.div_div_eq_div_mul, Nat.div_lt_iff_lt_mul (Nat.mul_pos hn hk), Nat.mul_comm (2 ^ lo), e]; exact h
  rw [← e]
  generalize 2 ^ lo = n at *
  generalize 2 ^ (hi + 1 - lo) = k at *
  generalize 2 ^ (31 - hi) = j at *
  generalize w / n / k = q at *
  have h1 := Nat.mod_lt v hk
  have h2 := Nat.mod_lt w hn
  calc (q * k + v % k) * n + w % n < (q * k + v % k) * n + n := by omega
    _ = (q * k + v % k + 1) * n := by rw [Nat.add_mul _ 1, Nat.one_mul]
    _ ≤ ((q + 1) * k) * n := Nat.mul_le_mul_right _ (by rw [Nat.add_mul]; omega)
    _ ≤ (j * k) * n := Nat.mul_le_mul_right _ (Nat.mul_le_mul_right _ hw)
    _ = j * (k * n) := Nat.mul_assoc _ _ _

/-- A field of a word reads the value written to it, cut to its width. -/
theorem wget_wset {hi lo : Nat} (w : Word) (v : Nat) (hh : hi < 32) (hl : lo ≤ hi) : wget (wset w hi lo v) hi lo = v % 2 ^ (hi + 1 - lo) := by
  unfold wget wset
  rw [BitVec.toNat_ofNat, Nat.mod_eq_of_lt (setBits_lt v w.isLt hh hl), bitsOf_setBits]

end Sys2Proof.Machine
end

