-- ==== Sys2Proof/Laws/Memory.lean ====
section
/-! SUPPORT. The laws of user memory: reading after writing, and the canonical form. -/

namespace Sys2Proof.Machine

/-- A byte reads the value last written to its address. -/
@[simp] theorem Memory.get_put_same (m : List Host.Cell) (a : Nat) (b : Byte) : Memory.get (Memory.put m a b) a = b := by
  unfold Memory.get Memory.put
  by_cases h : b = 0
  · rw [if_pos h]; exact (mget_mdel_same (fun _ => (0 : Byte)) m a).trans h.symm
  · rw [if_neg h]; exact mget_mput_same _ m a b

/-- A write leaves every other byte alone. -/
theorem Memory.get_put_other (m : List Host.Cell) {a c : Nat} (b : Byte) (h : c ≠ a) : Memory.get (Memory.put m a b) c = Memory.get m c := by
  unfold Memory.get Memory.put
  split
  · exact mget_mdel_other _ m h
  · exact mget_mput_other _ m b h

/-- Writing consecutive bytes leaves every byte outside them alone. -/
theorem Memory.get_putBytes_other (m : List Host.Cell) (a : Nat) (bs : List Byte) {c : Nat} (h : c < a ∨ a + bs.length ≤ c) :
    Memory.get (Memory.putBytes m a bs) c = Memory.get m c := by
  induction bs generalizing m a with
  | nil => rfl
  | cons b bs ih =>
    simp only [List.length_cons] at h
    rw [Memory.putBytes, ih _ _ (by omega), Memory.get_put_other _ _ (by omega)]

/-- Written bytes read back. -/
theorem Memory.get_putBytes (m : List Host.Cell) (a : Nat) (bs : List Byte) (i : Nat) (h : i < bs.length) :
    Memory.get (Memory.putBytes m a bs) (a + i) = bs[i] := by
  induction bs generalizing m a i with
  | nil => exact absurd h (Nat.not_lt_zero _)
  | cons b bs ih =>
    rw [Memory.putBytes]
    cases i with
    | zero => rw [Memory.get_putBytes_other _ _ _ (by omega)]; exact Memory.get_put_same m a b
    | succ i =>
      simp only [List.length_cons] at h
      have := ih (Memory.put m a b) (a + 1) i (by omega)
      rw [show a + (i + 1) = a + 1 + i by omega]
      simpa using this

/-- Leaving entries out keeps the canonical form. -/
theorem Memory.wf_filter {m : List Host.Cell} (p : Host.Cell → Bool) (h : Memory.wf m = true) : Memory.wf (m.filter p) = true := by
  simp only [Memory.wf, Bool.and_eq_true] at h ⊢
  refine ⟨mrising_filter p h.1, ?_⟩
  rw [List.all_eq_true] at *
  exact fun x hx => h.2 x (List.mem_filter.1 hx).1

theorem all_mput {α : Type} {m : List (Nat × α)} {p : Nat × α → Bool} (k : Nat) (v : α) (h : m.all p = true) (hv : p (k, v) = true) :
    (mput m k v).all p = true := by
  induction m with
  | nil => simp [mput, hv]
  | cons x m ih =>
    obtain ⟨a, w⟩ := x
    simp only [List.all_cons, Bool.and_eq_true] at h
    unfold mput
    split
    · simp [hv, h]
    · split
      · simp [hv, h]
      · simp [h, ih h.2]

/-- A write keeps the canonical form. -/
theorem Memory.wf_put {m : List Host.Cell} (a : Nat) (b : Byte) (h : Memory.wf m = true) : Memory.wf (Memory.put m a b) = true := by
  unfold Memory.put
  split
  · rw [mdel_eq_filter]; exact Memory.wf_filter _ h
  · rename_i hb
    simp only [Memory.wf, Bool.and_eq_true] at h ⊢
    exact ⟨mrising_mput a b h.1, all_mput a b h.2 (by simpa using hb)⟩

/-- Writing consecutive bytes keeps the canonical form. -/
theorem Memory.wf_putBytes {m : List Host.Cell} (a : Nat) (bs : List Byte) (h : Memory.wf m = true) : Memory.wf (Memory.putBytes m a bs) = true := by
  induction bs generalizing m a with
  | nil => exact h
  | cons b bs ih => exact ih _ (Memory.wf_put a b h)

end Sys2Proof.Machine
end

