-- ==== Sys2Proof/Laws/Keeps.lean ====
section
/-! SUPPORT. What it means that a change of the state keeps the queue, the canonical forms and, as its marks say, memory, the key
store, the routes and Phoin's state; and how such changes compose. -/

namespace Sys2Proof.Machine

/-- What every change of the state keeps: the queue, the canonical form of memory, a 72-bit SIX, the lengths of the logs and the
fused key; and as the marks say, memory (`m`), the key store (`k`), the routes (`r`) and Phoin's state (`p`). -/
structure Keeps (m k r p : Bool) (t s : State) : Prop where
  pending : t.pending = s.pending
  memWf : s.memoryWf → t.memoryWf
  sixWf : s.sixWf → t.sixWf
  logsWf : s.logsWf → t.logsWf
  fused : t.power.fused = s.power.fused
  mem : m = true → t.mem = s.mem
  keys : k = true → t.keyStore = s.keyStore
  routes : r = true → t.routes = s.routes
  phn : p = true → t.phn = s.phn

theorem Keeps.refl {m k r p : Bool} (s : State) : Keeps m k r p s s := ⟨rfl, id, id, id, rfl, fun _ => rfl, fun _ => rfl, fun _ => rfl, fun _ => rfl⟩

theorem Keeps.trans {m k r p m1 k1 r1 p1 : Bool} {t u s : State} (h1 : Keeps m1 k1 r1 p1 t u) (h2 : Keeps m k r p u s)
    (hc : ((!m || m1) && (!k || k1) && (!r || r1) && (!p || p1)) = true := by rfl) : Keeps m k r p t s := by
  obtain ⟨a, b, c, d, e, f, g, h, i⟩ := h1
  obtain ⟨a2, b2, c2, d2, e2, f2, g2, h2, i2⟩ := h2
  refine ⟨a.trans a2, b ∘ b2, c ∘ c2, d ∘ d2, e.trans e2, ?_, ?_, ?_, ?_⟩ <;> intro hh <;> subst hh
  · exact (f (by revert hc; cases m1 <;> simp)).trans (f2 rfl)
  · exact (g (by revert hc; cases k1 <;> simp)).trans (g2 rfl)
  · exact (h (by revert hc; cases r1 <;> simp)).trans (h2 rfl)
  · exact (i (by revert hc; cases p1 <;> simp)).trans (i2 rfl)

theorem Keeps.to {m k r p m1 k1 r1 p1 : Bool} {t s : State} (h1 : Keeps m1 k1 r1 p1 t s)
    (hc : ((!m || m1) && (!k || k1) && (!r || r1) && (!p || p1)) = true := by rfl) : Keeps m k r p t s := h1.trans (.refl s) hc

/-- A state that agrees on all this keeps it. -/
theorem Keeps.congr {m k r p : Bool} {t u s : State} (h : Keeps m k r p u s) (e1 : t.pending = u.pending := by rfl)
    (e2 : t.mem = u.mem := by rfl) (e3 : t.six = u.six := by rfl) (e4 : t.log = u.log := by rfl) (e5 : t.flashLog = u.flashLog := by rfl)
    (e6 : t.power.fused = u.power.fused := by first | rfl | (split <;> rfl)) (e7 : k = true → t.keyStore = u.keyStore := by (intro h; first | rfl | cases h))
    (e8 : r = true → t.routes = u.routes := by (intro h; first | rfl | cases h))
    (e9 : p = true → t.phn = u.phn := by (intro h; first | rfl | cases h)) : Keeps m k r p t s := by
  obtain ⟨a, b, c, d, e, f, g, hh, i⟩ := h
  exact ⟨e1.trans a, fun w => by unfold State.memoryWf; rw [e2]; exact b w, fun w => by unfold State.sixWf; rw [e3]; exact c w,
    fun w => by unfold State.logsWf; rw [e4, e5]; exact d w, e6.trans e, fun w => e2.trans (f w), fun w => (e7 w).trans (g w),
    fun w => (e8 w).trans (hh w), fun w => (e9 w).trans (i w)⟩

theorem Keeps.ite {m k r p : Bool} {c : Prop} [Decidable c] {a b s : State} (ha : Keeps m k r p a s) (hb : Keeps m k r p b s) :
    Keeps m k r p (if c then a else b) s := by
  by_cases h : c
  · rw [if_pos h]; exact ha
  · rw [if_neg h]; exact hb

theorem Keeps.ite_fst {m k r p : Bool} {α : Type} {c : Prop} [Decidable c] {a b : State × α} {s : State} (ha : Keeps m k r p a.1 s)
    (hb : Keeps m k r p b.1 s) : Keeps m k r p (if c then a else b).1 s := by
  by_cases h : c
  · rw [if_pos h]; exact ha
  · rw [if_neg h]; exact hb

theorem Keeps.ite_snd {m k r p : Bool} {α : Type} {c : Prop} [Decidable c] {a b : α × State} {s : State} (ha : Keeps m k r p a.2 s)
    (hb : Keeps m k r p b.2 s) : Keeps m k r p (if c then a else b).2 s := by
  by_cases h : c
  · rw [if_pos h]; exact ha
  · rw [if_neg h]; exact hb

theorem Keeps.dite {m k r p : Bool} {c : Prop} [Decidable c] {a : c → State} {b : ¬c → State} {s : State} (ha : ∀ h, Keeps m k r p (a h) s)
    (hb : ∀ h, Keeps m k r p (b h) s) : Keeps m k r p (if h : c then a h else b h) s := by
  by_cases h : c
  · rw [dif_pos h]; exact ha h
  · rw [dif_neg h]; exact hb h

/-- The next state of an outcome keeps it. -/
def Res.keeps (m k r p : Bool) (o : Res) (s : State) : Prop := ∀ t, o = .next t → Keeps m k r p t s
theorem Res.keeps_next {m k r p : Bool} {t s : State} (h : Keeps m k r p t s) : Res.keeps m k r p (.next t) s := by
  intro u e; cases e; exact h
theorem Res.keeps_fault {m k r p : Bool} {f : Fault} {s : State} : Res.keeps m k r p (.fault f) s := by intro u e; cases e
theorem Res.keeps_refused {m k r p : Bool} {f : Refusal} {s : State} : Res.keeps m k r p (.refused f) s := by intro u e; cases e
theorem Res.keeps_ite {m k r p : Bool} {c : Prop} [Decidable c] {a b : Res} {s : State} (ha : Res.keeps m k r p a s) (hb : Res.keeps m k r p b s) :
    Res.keeps m k r p (if c then a else b) s := by
  by_cases h : c
  · rw [if_pos h]; exact ha
  · rw [if_neg h]; exact hb
theorem Res.keeps_trans {m k r p m1 k1 r1 p1 : Bool} {o : Res} {u s : State} (h1 : Res.keeps m1 k1 r1 p1 o u) (h2 : Keeps m k r p u s)
    (hc : ((!m || m1) && (!k || k1) && (!r || r1) && (!p || p1)) = true := by rfl) : Res.keeps m k r p o s :=
  fun t e => (h1 t e).trans h2 hc

theorem orStay_keeps {m k r p m1 k1 r1 p1 : Bool} {o : Res} {s : State} (h : Res.keeps m1 k1 r1 p1 o s)
    (hc : ((!m || m1) && (!k || k1) && (!r || r1) && (!p || p1)) = true := by rfl) : Keeps m k r p (orStay o s) s := by
  unfold orStay
  split
  · exact (h _ rfl).to hc
  · exact .refl _

theorem State.each_keeps {m k r p : Bool} {α : Type} {s : State} {xs : List α} {f : State → α → State}
    (h : ∀ s x, Keeps m k r p (f s x) s) : Keeps m k r p (s.each xs f) s := by
  unfold State.each
  induction xs generalizing s with
  | nil => exact .refl _
  | cons x xs ih => exact ih.trans (h s x) (by cases m <;> cases k <;> cases r <;> cases p <;> rfl)

theorem foldl_keeps {m k r p : Bool} {α : Type} {s : State} {xs : List α} {f : State → α → State}
    (h : ∀ s x, Keeps m k r p (f s x) s) : Keeps m k r p (xs.foldl f s) s := State.each_keeps (s := s) (xs := xs) h

theorem foldl_fst_keeps {m k r p : Bool} {α β : Type} {x : State × β} {xs : List α} {f : State × β → α → State × β}
    (h : ∀ x a, Keeps m k r p (f x a).1 x.1) : Keeps m k r p (xs.foldl f x).1 x.1 := by
  induction xs generalizing x with
  | nil => exact .refl _
  | cons a xs ih => exact ih.trans (h x a) (by cases m <;> cases k <;> cases r <;> cases p <;> rfl)

theorem foldl_snd_keeps {m k r p : Bool} {α β : Type} {x : β × State} {xs : List α} {f : β × State → α → β × State}
    (h : ∀ x a, Keeps m k r p (f x a).2 x.2) : Keeps m k r p (xs.foldl f x).2 x.2 := by
  induction xs generalizing x with
  | nil => exact .refl _
  | cons a xs ih => exact ih.trans (h x a) (by cases m <;> cases k <;> cases r <;> cases p <;> rfl)

end Sys2Proof.Machine
end

