-- ==== Sys2Proof/Laws/Keeps1.lean ====
section
/-! SUPPORT. What the operations and commands keep, part 1. -/

set_option Elab.async false

namespace Sys2Proof.Machine

theorem State.setPage_keeps (s : State) (key : ℕ) (p : Page) :
    Keeps true true true true (State.setPage s key p) s := by
  unfold State.setPage
  refine .congr (u := s) ?_
  exact .refl _

theorem State.modPage_keeps (s : State) (key : ℕ) (f : Page → Page) :
    Keeps true true true true (State.modPage s key f) s := by
  unfold State.modPage
  refine .trans (State.setPage_keeps _ _ _) ?_
  exact .refl _

theorem State.accept_keeps (s : State) (key : ℕ) (op : Op) :
    Keeps true true true true (State.accept s key op) s := by
  unfold State.accept
  refine .trans (State.modPage_keeps _ _ _) ?_
  exact .refl _

theorem State.setReg_keeps (s : State) (key : ℕ) (off : ℕ) (w : Word) :
    Keeps true true true true (State.setReg s key off w) s := by
  unfold State.setReg
  refine .trans (State.modPage_keeps _ _ _) ?_
  exact .refl _

theorem State.wf_keeps (s : State) (key : ℕ) (f : RegField) (v : ℕ) :
    Keeps true true true true (State.wf s key f v) s := by
  unfold State.wf
  refine .trans (State.setReg_keeps _ _ _ _) ?_
  exact .refl _

theorem State.count_keeps (s : State) (key : ℕ) (f : RegField) :
    Keeps true true true true (State.count s key f) s := by
  unfold State.count
  refine .trans (State.wf_keeps _ _ _ _) ?_
  exact .refl _

theorem State.emit_keeps (s : State) (o : Output) :
    Keeps true true true true (State.emit s o) s := by
  unfold State.emit
  refine .congr (u := s) ?_
  exact .refl _

theorem State.sendMsix_keeps (s : State) (v : ℕ) :
    Keeps true true true true (State.sendMsix s v) s := by
  unfold State.sendMsix
  refine .ite ?_ ?_
  · refine .congr (u := s) ?_
    exact .refl _
  refine .trans (State.emit_keeps _ _) ?_
  exact .refl _

theorem State.pageMessage_keeps (s : State) (key : ℕ) :
    Keeps true true true true (State.pageMessage s key) s := by
  unfold State.pageMessage
  refine .ite ?_ ?_
  · split
    · refine .trans (State.sendMsix_keeps _ _) ?_
      exact .refl _
    · exact .refl _
  exact .refl _

theorem State.raiseIrq_keeps (s : State) (key : ℕ) (mask : Word) :
    Keeps true true true true (State.raiseIrq s key mask) s := by
  unfold State.raiseIrq
  extract_lets +onlyGivenNames v1
  clear_value v1
  extract_lets +onlyGivenNames v2
  have h2 : Keeps true true true true v2 s := by
    unfold v2
    refine .trans (State.setPage_keeps _ _ _) ?_
    exact .refl _
  clear_value v2
  refine .ite ?_ ?_
  · refine .trans (State.pageMessage_keeps _ _) ?_
    assumption
  assumption

theorem State.irqBit_keeps (s : State) (key : ℕ) (i : ℕ) :
    Keeps true true true true (State.irqBit s key i) s := by
  unfold State.irqBit
  refine .trans (State.raiseIrq_keeps _ _ _) ?_
  exact .refl _

theorem State.logRaw_keeps (s : State) (e : LogEntry) : Keeps true true true true (s.logRaw e) s := by
  have hlog : ∀ (x : List LogEntry) (y : LogEntry) (n : Nat), 0 < n → x.length ≤ n →
      ((if n ≤ x.length then x.drop 1 else x) ++ [y]).length ≤ n := by
    intro x y n h0 h
    by_cases hf : n ≤ x.length <;> simp [hf] <;> omega
  have h1 : ∀ y, Keeps true true true true { s with log := (if decide (4096 ≤ s.log.length) = true then s.log.drop 1 else s.log) ++ [y] } s := fun y =>
    ⟨rfl, id, id, fun w => ⟨by simpa using hlog s.log y 4096 (by decide) w.1, w.2⟩, rfl, fun _ => rfl, fun _ => rfl, fun _ => rfl, fun _ => rfl⟩
  unfold State.logRaw
  extract_lets +onlyGivenNames n e2 full s1 s2 s3
  have h1 : Keeps true true true true s1 s := h1 e2
  clear_value s1
  have h2 : Keeps true true true true s2 s := .trans (State.wf_keeps _ _ _ _) h1
  clear_value s2
  have h3 : Keeps true true true true s3 s := .ite (.trans (State.wf_keeps _ _ _ _) (.trans (State.count_keeps _ _ _) h2)) h2
  clear_value s3
  extract_lets +onlyGivenNames src s4 s5
  have h4 : Keeps true true true true s4 s := by
    unfold s4
    refine .ite ?_ h3
    have hc := Keeps.trans (State.count_keeps s3 keyFLT Reg.FLT_FLASH_COUNT) h3
    exact ⟨hc.pending, hc.memWf, hc.sixWf, fun w => ⟨(hc.logsWf w).1, hlog s3.flashLog e2 256 (by decide) (h3.logsWf w).2⟩, hc.fused, hc.mem, hc.keys,
      hc.routes, hc.phn⟩
  clear_value s4
  have h5 : Keeps true true true true s5 s := .ite (.trans (State.irqBit_keeps _ _ _) h4) h4
  clear_value s5
  exact .ite (.congr h5) h5

theorem State.setErrFlag_keeps (s : State) (key : ℕ) (bit : ℕ) :
    Keeps true true true true (State.setErrFlag s key bit) s := by
  unfold State.setErrFlag
  extract_lets +onlyGivenNames v1
  clear_value v1
  extract_lets +onlyGivenNames v2
  have h2 : Keeps true true true true v2 s := by
    unfold v2
    refine .trans (State.setPage_keeps _ _ _) ?_
    exact .refl _
  clear_value v2
  refine .ite ?_ ?_
  · refine .trans (State.irqBit_keeps _ _ _) ?_
    assumption
  assumption

theorem State.log1_keeps (s : State) (e : LogEntry) :
    Keeps true true true true (State.log1 s e) s := by
  unfold State.log1
  extract_lets +onlyGivenNames v1
  clear_value v1
  extract_lets +onlyGivenNames v2
  have h2 : Keeps true true true true v2 s := by
    unfold v2
    refine .trans (State.logRaw_keeps _ _) ?_
    exact .refl _
  clear_value v2
  refine .ite ?_ ?_
  · extract_lets +onlyGivenNames v3
    have h3 : Keeps true true true true v3 s := by
      unfold v3
      refine .trans (State.setErrFlag_keeps _ _ _) ?_
      assumption
    clear_value v3
    refine .trans (State.logRaw_keeps _ _) ?_
    assumption
  assumption

theorem State.logPage_keeps (s : State) (key : ℕ) (level : ℕ) (code : ℕ) (sub : ℕ) (kind : ℕ) (detail : ℕ) :
    Keeps true true true true (State.logPage s key level code sub kind detail) s := by
  unfold State.logPage
  refine .trans (State.log1_keeps _ _) ?_
  exact .refl _

theorem State.setErr_keeps (s : State) (key : ℕ) (bit : ℕ) :
    Keeps true true true true (State.setErr s key bit) s := by
  unfold State.setErr
  refine .ite ?_ ?_
  · exact .refl _
  extract_lets +onlyGivenNames v1
  have h1 : Keeps true true true true v1 s := by
    unfold v1
    refine .trans (State.setErrFlag_keeps _ _ _) ?_
    exact .refl _
  clear_value v1
  refine .trans (State.logPage_keeps _ _ _ _ _ _ _) ?_
  assumption

theorem State.reject_keeps (s : State) (key : ℕ) (tag : ℕ) (opcode : ℕ) (code : ℕ) (sub : ℕ) :
    Keeps true true true true (State.reject s key tag opcode code sub) s := by
  unfold State.reject
  extract_lets +onlyGivenNames v1
  have h1 : Keeps true true true true v1 s := by
    unfold v1
    refine .trans (State.modPage_keeps _ _ _) ?_
    exact .refl _
  clear_value v1
  extract_lets +onlyGivenNames v2
  have h2 : Keeps true true true true v2 s := by
    unfold v2
    refine .trans (State.logPage_keeps _ _ _ _ _ _ _) ?_
    assumption
  clear_value v2
  refine .ite ?_ ?_
  · refine .trans (State.setErr_keeps _ _ _) ?_
    assumption
  assumption

theorem State.logDiscard_keeps (s : State) (key : ℕ) (addr : ℕ) (value : ℕ) (code : ℕ) :
    Keeps true true true true (State.logDiscard s key addr value code) s := by
  unfold State.logDiscard
  refine .trans (State.logPage_keeps _ _ _ _ _ _ _) ?_
  exact .refl _

theorem State.logUnmapped_keeps (s : State) (addr : ℕ) :
    Keeps true true true true (State.logUnmapped s addr) s := by
  unfold State.logUnmapped
  refine .trans (State.log1_keeps _ _) ?_
  exact .refl _

theorem State.discarded_keeps (s : State) (who : Issuer) (key : ℕ) (off : ℕ) (value : ℕ) (d : Discard) :
    Keeps true true true true (State.discarded s who key off value d) s := by
  unfold State.discarded
  split
  · exact .refl _
  · refine .trans (State.logUnmapped_keeps _ _) ?_
    exact .refl _
  · refine .trans (State.logDiscard_keeps _ _ _ _ _) ?_
    exact .refl _
  · refine .trans (State.logDiscard_keeps _ _ _ _ _) ?_
    exact .refl _

theorem State.drawNat_keeps (s : State) :
    Keeps true true true true (State.drawNat s).2 s := by
  unfold State.drawNat
  dsimp only
  refine .congr (u := s) ?_
  exact .refl _

theorem State.guestWrite_keeps (s : State) (key : ℕ) (off : ℕ) (value : ℕ) :
    Keeps true true true true (State.guestWrite s key off value) s := by
  unfold State.guestWrite
  extract_lets +onlyGivenNames v1
  have h1 : Keeps true true true true v1 s := by
    unfold v1
    refine .trans (State.emit_keeps _ _) ?_
    exact .refl _
  clear_value v1
  refine .ite ?_ ?_
  · extract_lets +onlyGivenNames v2
    have h2 : Keeps true true true true v2.2 s := by
      unfold v2
      refine .trans (State.drawNat_keeps _) ?_
      assumption
    clear_value v2
    refine .trans (State.modPage_keeps _ _ _) ?_
    assumption
  assumption

theorem State.honour_keeps {m k r p : Bool} {s : State} {who : Issuer} {key off value : Nat} {f : State → State}
    (h : Keeps m k r p (f s) s) : Keeps m k r p (s.honour who key off value f) s := by
  unfold State.honour
  split
  · exact .to (State.discarded_keeps _ _ _ _ _ _) (by cases m <;> cases k <;> cases r <;> cases p <;> rfl)
  · exact h

theorem State.write_keeps {m k r p : Bool} {s : State} {who : Issuer} {key off value : Nat} {f : State → State}
    (h : Keeps m k r p (f s) s) : Keeps m k r p (s.write who key off value f) s := by
  unfold State.write
  refine State.honour_keeps ?_
  beta_reduce
  split
  · exact .to (State.guestWrite_keeps _ _ _ _) (by cases m <;> cases k <;> cases r <;> cases p <;> rfl)
  · exact h

theorem State.command_keeps {m k r p : Bool} {s : State} {who : Issuer} {key opcode tag : Nat} {f : State → Op → State}
    (h : ∀ o, Keeps m k r p (f s o) s) : Keeps m k r p (s.command who key opcode tag f) s := by
  unfold State.command
  refine State.write_keeps ?_
  split
  · exact .to (State.reject_keeps _ _ _ _ _ _) (by cases m <;> cases k <;> cases r <;> cases p <;> rfl)
  · exact h _

theorem State.endOp_keeps (s : State) (key : ℕ) (phase : ℕ) (code : ℕ) (sub : ℕ) :
    Keeps true true true true (State.endOp s key phase code sub) s := by
  unfold State.endOp
  split
  · exact .refl _
  · refine .trans (State.irqBit_keeps _ _ _) ?_
    refine .trans (State.modPage_keeps _ _ _) ?_
    exact .refl _

theorem State.doneOp_keeps (s : State) (key : ℕ) :
    Keeps true true true true (State.doneOp s key) s := by
  unfold State.doneOp
  refine .trans (State.endOp_keeps _ _ _ _ _) ?_
  exact .refl _

theorem State.writeResult_keeps (s : State) (key : ℕ) (r : List Word) :
    Keeps true true true true (State.writeResult s key r) s := by
  unfold State.writeResult
  refine .trans (State.irqBit_keeps _ _ _) ?_
  refine .trans (State.modPage_keeps _ _ _) ?_
  exact .refl _

theorem State.doneWith_keeps (s : State) (key : ℕ) (r : List Word) :
    Keeps true true true true (State.doneWith s key r) s := by
  unfold State.doneWith
  split
  · exact .refl _
  · refine .ite ?_ ?_
    · refine .trans (State.modPage_keeps _ _ _) ?_
      exact .refl _
    refine .trans (State.doneOp_keeps _ _) ?_
    refine .trans (State.writeResult_keeps _ _ _) ?_
    exact .refl _

theorem State.rejectOp_keeps (s : State) (key : ℕ) (op : Op) (code : ℕ) (sub : ℕ) :
    Keeps true true true true (State.rejectOp s key op code sub) s := by
  unfold State.rejectOp
  refine .trans (State.reject_keeps _ _ _ _ _ _) ?_
  exact .refl _

theorem execReadLog_keeps (who : Issuer) (tag : ℕ) (s : State) :
    Res.keeps true true true true (execReadLog who tag s) s := by
  unfold execReadLog
  refine Res.keeps_next ?_
  refine .trans (State.command_keeps (m := true) (k := true) (r := true) (p := true) ?_) ?_
  · intro a1_0
    split
    · refine .trans (State.doneWith_keeps _ _ _) ?_
      refine .trans (State.accept_keeps _ _ _) ?_
      exact .refl _
    · refine .trans (State.rejectOp_keeps _ _ _ _ _) ?_
      exact .refl _
  exact .refl _

theorem execReadFlashLog_keeps (who : Issuer) (tag : ℕ) (s : State) :
    Res.keeps true true true true (execReadFlashLog who tag s) s := by
  unfold execReadFlashLog
  refine Res.keeps_next ?_
  refine .trans (State.command_keeps (m := true) (k := true) (r := true) (p := true) ?_) ?_
  · intro a1_0
    split
    · refine .trans (State.doneWith_keeps _ _ _) ?_
      refine .trans (State.accept_keeps _ _ _) ?_
      exact .refl _
    · refine .trans (State.rejectOp_keeps _ _ _ _ _) ?_
      exact .refl _
  exact .refl _

theorem State.addReady_keeps (s : State) (src : RecSource) (r : Record) :
    Keeps true true true true (State.addReady s src r) s := by
  unfold State.addReady
  refine .congr (u := s) ?_
  exact .refl _

theorem State.eventRecord_keeps (s : State) (e : LogEntry) (id : ℕ) :
    Keeps true true true true (State.eventRecord s e id) s := by
  unfold State.eventRecord
  refine .ite ?_ ?_
  · refine .trans (State.addReady_keeps _ _ _) ?_
    exact .refl _
  exact .refl _

theorem State.wb_keeps (s : State) (key : ℕ) (f : RegField) (b : Bool) :
    Keeps true true true true (State.wb s key f b) s := by
  unfold State.wb
  refine .trans (State.wf_keeps _ _ _ _) ?_
  exact .refl _

theorem State.refreshHold_keeps (s : State) :
    Keeps true true true true (State.refreshHold s) s := by
  unfold State.refreshHold
  extract_lets +onlyGivenNames v1
  extract_lets +onlyGivenNames v2
  refine .trans (State.wf_keeps _ _ _ _) ?_
  refine .trans (State.wb_keeps _ _ _ _) ?_
  exact .refl _

theorem State.activateHold_keeps (s : State) (between : Bool) :
    Keeps true true true true (State.activateHold s between) s := by
  unfold State.activateHold
  refine .ite ?_ ?_
  · refine .trans (State.refreshHold_keeps _) ?_
    refine .congr (u := s) ?_
    exact .refl _
  exact .refl _

theorem State.modPhn_keeps (s : State) (f : Phoin → Phoin) :
    Keeps true true true false (State.modPhn s f) s := by
  unfold State.modPhn
  refine .congr (u := s) ?_
  exact .refl _

theorem State.setTask_keeps (s : State) (t : Task) :
    Keeps true true true false (State.setTask s t) s := by
  unfold State.setTask
  refine .trans (State.modPhn_keeps _ _) ?_
  exact .refl _

theorem State.modTask_keeps (s : State) (id : ℕ) (f : Task → Task) :
    Keeps true true true false (State.modTask s id f) s := by
  unfold State.modTask
  split
  · refine .trans (State.setTask_keeps _ _) ?_
    exact .refl _
  · exact .refl _

theorem State.putRing1_keeps (s : State) (r : Ring1) :
    Keeps true true true false (State.putRing1 s r) s := by
  unfold State.putRing1
  extract_lets +onlyGivenNames v1
  have h1 : Keeps true true true false v1 s := by
    unfold v1
    refine .trans (State.emit_keeps _ _) ?_
    exact .refl _
  clear_value v1
  refine .trans (State.sendMsix_keeps _ _) ?_
  refine .trans (State.modPhn_keeps _ _) ?_
  assumption

theorem State.putNotice_keeps (s : State) (n : Notice) :
    Keeps true true true false (State.putNotice s n) s := by
  unfold State.putNotice
  split
  · refine .trans (State.count_keeps _ _ _) ?_
    refine .trans (State.modPhn_keeps _ _) ?_
    exact .refl _
  · refine .ite ?_ ?_
    · refine .trans (State.putRing1_keeps _ _) ?_
      exact .refl _
    refine .trans (State.modPhn_keeps _ _) ?_
    exact .refl _

theorem State.notify_keeps (s : State) (task : ℕ) (cause : ℕ) (six : ℕ) (detail0 : ℕ) :
    Keeps true true true false (State.notify s task cause six detail0) s := by
  unfold State.notify
  extract_lets +onlyGivenNames v1
  clear_value v1
  extract_lets +onlyGivenNames v2
  clear_value v2
  refine .ite ?_ ?_
  · refine .trans (State.modPhn_keeps _ _) ?_
    exact .refl _
  refine .trans (State.putNotice_keeps _ _) ?_
  exact .refl _

theorem State.attempt_keeps (s : State) (m : Migration) (goal : List Task) :
    Keeps true true true false (State.attempt s m goal) s := by
  unfold State.attempt
  extract_lets +onlyGivenNames v1
  clear_value v1
  extract_lets +onlyGivenNames v2
  clear_value v2
  extract_lets +onlyGivenNames v3
  clear_value v3
  extract_lets +onlyGivenNames v4
  have h4 : Keeps true true true false v4 s := by
    unfold v4
    refine .trans (State.modPhn_keeps _ _) ?_
    exact .refl _
  clear_value v4
  refine .trans (State.each_keeps (m := true) (k := true) (r := true) (p := false) ?_) ?_
  · intro a5_0 a5_1
    refine .trans (State.notify_keeps _ _ _ _ _) ?_
    refine .trans (State.modTask_keeps _ _ _) ?_
    exact .refl _
  assumption

theorem State.noteFailed_keeps (s : State) (m : Migration) (id : ℕ) :
    Keeps true true true false (State.noteFailed s m id) s := by
  unfold State.noteFailed
  refine .trans (State.modPhn_keeps _ _) ?_
  exact .refl _

theorem State.beginFrom_keeps (s : State) (a : List Migration) : Keeps true true true false (s.beginFrom a) s := by
  induction a generalizing s with
  | nil => exact .to (State.modPhn_keeps _ _)
  | cons m rest ih =>
    unfold State.beginFrom
    split
    · exact ih _
    · split
      · exact .to (State.modPhn_keeps _ _)
      · split
        · exact .trans (ih _) (.to (State.noteFailed_keeps _ _ _))
        · exact .trans (State.attempt_keeps _ _ _) (.to (State.modPhn_keeps _ _))

theorem State.closePhoin_keeps (s : State) :
    Keeps true true true false (State.closePhoin s) s := by
  unfold State.closePhoin
  refine .ite ?_ ?_
  · refine .trans (State.irqBit_keeps _ _ _) ?_
    refine .trans (State.modPhn_keeps _ _) ?_
    refine .trans (State.wb_keeps _ _ _ _) ?_
    exact .refl _
  exact .refl _

theorem State.refreshPhn_keeps (s : State) :
    Keeps true true true true (State.refreshPhn s) s := by
  unfold State.refreshPhn
  refine .trans (State.wb_keeps _ _ _ _) ?_
  refine .trans (State.wf_keeps _ _ _ _) ?_
  exact .refl _

theorem State.completeAt_keeps (s : State) (opcode : ℕ) (tag : ℕ) (six : ℕ) (a : Answer) :
    Keeps true true true false (State.completeAt s opcode tag six a) s := by
  unfold State.completeAt
  extract_lets +onlyGivenNames v1
  clear_value v1
  extract_lets +onlyGivenNames v2
  have h2 : Keeps true true true false v2 s := by
    unfold v2
    refine .trans (State.count_keeps _ _ _) ?_
    exact .refl _
  clear_value v2
  extract_lets +onlyGivenNames v3
  have h3 : Keeps true true true false v3 s := by
    unfold v3
    refine .ite ?_ ?_
    · refine .trans (State.count_keeps _ _ _) ?_
      assumption
    assumption
  clear_value v3
  extract_lets +onlyGivenNames v4
  have h4 : Keeps true true true false v4 s := by
    unfold v4
    refine .trans (State.refreshPhn_keeps _) ?_
    assumption
  clear_value v4
  extract_lets +onlyGivenNames v5
  have h5 : Keeps true true true false v5 s := by
    unfold v5
    refine .trans (State.putRing1_keeps _ _) ?_
    assumption
  clear_value v5
  extract_lets +onlyGivenNames v6
  clear_value v6
  refine .trans (State.each_keeps (m := true) (k := true) (r := true) (p := false) ?_) ?_
  · intro a7_0 a7_1
    refine .trans (State.putNotice_keeps _ _) ?_
    exact .refl _
  refine .trans (State.modPhn_keeps _ _) ?_
  assumption

theorem State.complete_keeps (s : State) (opcode : ℕ) (tag : ℕ) (a : Answer) :
    Keeps true true true false (State.complete s opcode tag a) s := by
  unfold State.complete
  refine .trans (State.completeAt_keeps _ _ _ _ _) ?_
  exact .refl _

theorem State.closeRings_keeps (s : State) :
    Keeps true true true false (State.closeRings s) s := by
  unfold State.closeRings
  extract_lets +onlyGivenNames v1
  have h1 : Keeps true true true false v1 s := by
    unfold v1
    refine .trans (State.closePhoin_keeps _) ?_
    exact .refl _
  clear_value v1
  split
  · refine .ite ?_ ?_
    · refine .trans (State.doneOp_keeps _ _) ?_
      assumption
    assumption
  · assumption

theorem State.completeHeld_keeps (s : State) (h : HeldCmd) (a : Answer) :
    Keeps true true true false (State.completeHeld s h a) s := by
  unfold State.completeHeld
  extract_lets +onlyGivenNames v1
  have h1 : Keeps true true true false v1 s := by
    unfold v1
    refine .trans (State.completeAt_keeps _ _ _ _ _) ?_
    refine .trans (State.modPhn_keeps _ _) ?_
    exact .refl _
  clear_value v1
  split
  · refine .ite ?_ ?_
    · refine .trans (State.closeRings_keeps _) ?_
      assumption
    assumption
  · assumption

theorem State.modRing_keeps (s : State) (n : ℕ) (f : Ring → Ring) :
    Keeps true true true true (State.modRing s n f) s := by
  unfold State.modRing
  extract_lets +onlyGivenNames v1
  clear_value v1
  extract_lets +onlyGivenNames v2
  have h2 : Keeps true true true true v2 s := by
    unfold v2
    refine .congr (u := s) ?_
    exact .refl _
  clear_value v2
  extract_lets +onlyGivenNames v3
  clear_value v3
  refine .ite ?_ ?_
  · assumption
  refine .trans (State.setReg_keeps _ _ _ _) ?_
  assumption

theorem State.modDrive_keeps (s : State) (d : ℕ) (f : Drive → Drive) :
    Keeps true true true true (State.modDrive s d f) s := by
  unfold State.modDrive
  split
  · refine .congr (u := s) ?_
    exact .refl _
  · exact .refl _

theorem State.ringSq_keeps (s : State) (d : ℕ) (i : ℕ) :
    Keeps true true true true (State.ringSq s d i) s := by
  unfold State.ringSq
  split
  · exact .refl _
  · split
    · exact .refl _
    · extract_lets +onlyGivenNames v1
      clear_value v1
      extract_lets +onlyGivenNames v2
      have h2 : Keeps true true true true v2 s := by
        unfold v2
        refine .trans (State.modDrive_keeps _ _ _) ?_
        exact .refl _
      clear_value v2
      refine .trans (State.emit_keeps _ _) ?_
      assumption

theorem State.nvmeIssue_keeps (s : State) (d opcode block blocks slot : Nat) :
    ∀ t, s.nvmeIssue d opcode block blocks slot = some t → Keeps true true true true t.2 s := by
  intro t h
  unfold State.nvmeIssue at h
  split at h
  · cases h
  · split at h
    · cases h
    · cases h
      exact .trans (State.ringSq_keeps _ _ _) (.trans (State.emit_keeps _ _) (.refl _))

theorem State.nvmeFlush_keeps (s : State) (d : ℕ) :
    Keeps true true true true (State.nvmeFlush s d) s := by
  unfold State.nvmeFlush
  split
  · rename_i b1_0 b1_1 b1_2 b1_3
    have kb1_3 := State.nvmeIssue_keeps s d (0) (0) (0) (0) _ b1_3
    replace kb1_3 := Keeps.trans (m := true) (k := true) (r := true) (p := true) kb1_3 (s := s) (by first | exact .refl _ | assumption)
    assumption
  · exact .refl _

theorem State.refreshFlows_keeps (s : State) :
    Keeps true true true true (State.refreshFlows s) s := by
  unfold State.refreshFlows
  refine .trans (foldl_keeps (m := true) (k := true) (r := true) (p := true) ?_) ?_
  · intro a1_0 a1_1
    extract_lets +onlyGivenNames v2
    clear_value v2
    refine .trans (State.wf_keeps _ _ _ _) ?_
    exact .refl _
  exact .refl _

theorem State.refreshStr_keeps (s : State) :
    Keeps true true true true (State.refreshStr s) s := by
  unfold State.refreshStr
  extract_lets +onlyGivenNames v1
  have h1 : Keeps true true true true v1 s := by
    unfold v1
    refine .trans (State.wf_keeps _ _ _ _) ?_
    exact .refl _
  clear_value v1
  extract_lets +onlyGivenNames v2
  clear_value v2
  extract_lets +onlyGivenNames v3
  extract_lets +onlyGivenNames v4
  have h4 : Keeps true true true true v4 s := by
    unfold v4
    refine .trans (State.setReg_keeps _ _ _ _) ?_
    assumption
  clear_value v4
  extract_lets +onlyGivenNames v5
  clear_value v5
  extract_lets +onlyGivenNames v6
  have h6 : Keeps true true true true v6 s := by
    unfold v6
    refine .trans (State.setReg_keeps _ _ _ _) ?_
    assumption
  clear_value v6
  refine .trans (State.refreshFlows_keeps _) ?_
  refine .trans (foldl_keeps (m := true) (k := true) (r := true) (p := true) ?_) ?_
  · intro a7_0 a7_1
    refine .trans (State.setReg_keeps _ _ _ _) ?_
    exact .refl _
  assumption

theorem State.dropClosed_keeps (s : State) (task : ℕ) :
    Keeps true true true false (State.dropClosed s task) s := by
  unfold State.dropClosed
  split
  · exact .refl _
  · refine .ite ?_ ?_
    · extract_lets +onlyGivenNames v1
      have h1 : Keeps true true true false v1 s := by
        unfold v1
        refine .ite ?_ ?_
        · refine .trans (State.modRing_keeps _ _ _) ?_
          exact .refl _
        exact .refl _
      clear_value v1
      extract_lets +onlyGivenNames v2
      have h2 : Keeps true true true false v2 s := by
        unfold v2
        refine .ite ?_ ?_
        · refine .trans (State.each_keeps (m := true) (k := true) (r := true) (p := false) ?_) ?_
          · intro a3_0 a3_1
            refine .trans (State.nvmeFlush_keeps _ _) ?_
            exact .refl _
          assumption
        assumption
      clear_value v2
      extract_lets +onlyGivenNames v4
      have h4 : Keeps true true true false v4 s := by
        unfold v4
        refine .congr (u := v2) ?_
        assumption
      clear_value v4
      refine .trans (State.refreshStr_keeps _) ?_
      refine .trans (State.modTask_keeps _ _ _) ?_
      assumption
    exact .refl _

theorem State.modStream_keeps (s : State) (task : ℕ) (f : Stream → Stream) :
    Keeps true true true true (State.modStream s task f) s := by
  unfold State.modStream
  split
  · refine .congr (u := s) ?_
    exact .refl _
  · exact .refl _

theorem State.modPort_keeps (s : State) (task : ℕ) (i : ℕ) (f : StreamPort → StreamPort) :
    Keeps true true true true (State.modPort s task i f) s := by
  unfold State.modPort
  refine .trans (State.modStream_keeps _ _ _) ?_
  exact .refl _

theorem State.putOnPort_keeps (s : State) (task : ℕ) (i : ℕ) (r : StreamRec) :
    Keeps true true true true (State.putOnPort s task i r) s := by
  unfold State.putOnPort
  split
  · exact .refl _
  · extract_lets +onlyGivenNames v1
    clear_value v1
    refine .trans (State.modPort_keeps _ _ _ _) ?_
    exact .refl _

theorem State.streamBench_keeps (s : State) (task : ℕ) (six : ℕ) :
    Keeps true true true true (State.streamBench s task six) s := by
  unfold State.streamBench
  split
  · exact .refl _
  · extract_lets +onlyGivenNames v1
    clear_value v1
    refine .ite ?_ ?_
    · exact .refl _
    extract_lets +onlyGivenNames v2
    clear_value v2
    refine .trans (State.modStream_keeps _ _ _) ?_
    exact .refl _

theorem State.compressOn_keeps (s : State) (n : ℕ) (level : ℕ) (payload : List Byte) :
    Keeps true true true true (State.compressOn s n level payload).1 s := by
  unfold State.compressOn
  extract_lets +onlyGivenNames v1
  clear_value v1
  refine .ite_fst ?_ ?_
  · dsimp only
    refine .trans (State.setErr_keeps _ _ _) ?_
    refine .trans (State.count_keeps _ _ _) ?_
    exact .refl _
  dsimp only
  refine .trans (State.count_keeps _ _ _) ?_
  exact .refl _

theorem State.takeRecord_keeps (s : State) (task : Nat) (x : Ready) : ∀ t, s.takeRecord task x = some t → Keeps true true true true t s := by
  intro t h
  unfold State.takeRecord at h
  split at h
  · cases h
  · extract_lets +onlyGivenNames d r plain wants at h
    split at h
    · cases h
    · split at h
      · cases h
      · split at h
        rename_i s1 flags payload e0
        have hz : Keeps true true true true s1 s := by
          split at e0
          · split at e0
            · rename_i n _
              have hc := State.compressOn_keeps s n (dCOMP_LEVEL d) r.payload
              split at e0
              · rename_i e
                rw [e] at hc
                cases e0
                exact hc
              · rename_i e
                rw [e] at hc
                cases e0
                exact hc
            · cases e0
              exact .refl _
          · cases e0
            exact .refl _
        clear e0
        dsimp only at h
        split at h
        · cases h
        · split at h
          · cases h
          · cases h
            exact .trans (State.putOnPort_keeps _ _ _ _) (.trans (State.modPort_keeps _ _ _ _) (.trans (State.modStream_keeps _ _ _)
              (.trans (State.streamBench_keeps _ _ _) hz)))

theorem State.takeAll_keeps (s : State) (task : Nat) (all : List Ready) : Keeps true true true true (s.takeAll task all) s := by
  induction all generalizing s with
  | nil => exact .refl _
  | cons x rest ih =>
    unfold State.takeAll
    split
    · split
      · rename_i s1 e
        exact .trans (ih _) (.congr (State.takeRecord_keeps _ _ _ _ e))
      · exact .refl _
    · exact ih _

theorem State.closeStream_keeps (s : State) (task : ℕ) (reason : ℕ) (code : ℕ) (sub : ℕ) (accepts : State → ℕ → ℕ → Bool) :
    Keeps true true true false (State.closeStream s task reason code sub accepts) s := by
  unfold State.closeStream
  split
  · extract_lets +onlyGivenNames v1
    have h1 : Keeps true true true false v1 s := by
      unfold v1
      refine .trans (State.modTask_keeps _ _ _) ?_
      exact .refl _
    clear_value v1
    refine .congr (u := v1) ?_
    assumption
  · refine .ite ?_ ?_
    · exact .refl _
    extract_lets +onlyGivenNames v2
    have h2 : Keeps true true true false v2 s := by
      unfold v2
      refine .ite ?_ ?_
      · refine .trans (State.takeAll_keeps _ _ _) ?_
        exact .refl _
      exact .refl _
    clear_value v2
    extract_lets +onlyGivenNames v3
    clear_value v3
    extract_lets +onlyGivenNames v4
    have h4 : Keeps true true true false v4 s := by
      unfold v4
      refine .congr (u := v2) ?_
      assumption
    clear_value v4
    extract_lets +onlyGivenNames v5
    extract_lets +onlyGivenNames v6
    clear_value v6
    extract_lets +onlyGivenNames v7
    have h7 : Keeps true true true false v7 s := by
      unfold v7
      refine .trans (State.modStream_keeps _ _ _) ?_
      assumption
    clear_value v7
    extract_lets +onlyGivenNames v8
    have h8 : Keeps true true true false v8 s := by
      unfold v8
      refine .trans (State.streamBench_keeps _ _ _) ?_
      assumption
    clear_value v8
    split
    · assumption
    · extract_lets +onlyGivenNames v9
      clear_value v9
      extract_lets +onlyGivenNames v10
      clear_value v10
      extract_lets +onlyGivenNames v11
      clear_value v11
      extract_lets +onlyGivenNames v12
      have h12 : Keeps true true true false v12 s := by
        unfold v12
        refine .trans (State.modStream_keeps _ _ _) ?_
        assumption
      clear_value v12
      refine .trans (State.dropClosed_keeps _ _) ?_
      refine .trans (State.each_keeps (m := true) (k := true) (r := true) (p := false) ?_) ?_
      · intro a13_0 a13_1
        refine .trans (State.putOnPort_keeps _ _ _ _) ?_
        exact .refl _
      assumption

theorem State.modCapture_keeps (s : State) (p : ℕ) (f : Capture → Capture) :
    Keeps true true true true (State.modCapture s p f) s := by
  unfold State.modCapture
  refine .congr (u := s) ?_
  exact .refl _

theorem State.setPoison_keeps (s : State) (line : ℕ) (b : Bool) :
    Keeps true true true true (State.setPoison s line b) s := by
  unfold State.setPoison
  refine .congr (u := s) ?_
  exact .refl _

theorem State.writeMem_keeps (s : State) (a : Nat) (bs : List Byte) : Keeps false true true true (s.writeMem a bs) s := by
  unfold State.writeMem
  extract_lets +onlyGivenNames s1 first
  have h1 : Keeps false true true true s1 s :=
    ⟨rfl, fun w => Memory.wf_putBytes a bs w, id, id, rfl, nofun, fun _ => rfl, fun _ => rfl, fun _ => rfl⟩
  clear_value s1
  refine .trans (foldl_keeps (m := true) (k := true) (r := true) (p := true) ?_) h1
  intro s i
  exact .ite (State.setPoison_keeps _ _ _) (.refl _)

theorem State.endEpoch_keeps (s : State) (p : ℕ) :
    Keeps false true true true (State.endEpoch s p) s := by
  unfold State.endEpoch
  extract_lets +onlyGivenNames v1
  clear_value v1
  extract_lets +onlyGivenNames v2
  clear_value v2
  extract_lets +onlyGivenNames v3
  have h3 : Keeps false true true true v3 s := by
    unfold v3
    refine .ite ?_ ?_
    · refine .trans (State.writeMem_keeps _ _ _) ?_
      exact .refl _
    exact .refl _
  clear_value v3
  extract_lets +onlyGivenNames v4
  clear_value v4
  refine .trans (State.modCapture_keeps _ _ _) ?_
  assumption

theorem State.wrEnter_keeps (s : State) (p : ℕ) (n : ℕ) :
    Keeps true true true true (State.wrEnter s p n) s := by
  unfold State.wrEnter
  refine .trans (State.wf_keeps _ _ _ _) ?_
  exact .refl _

theorem State.capStop_keeps (s : State) (p : ℕ) :
    Keeps false true true true (State.capStop s p) s := by
  unfold State.capStop
  refine .ite ?_ ?_
  · exact .refl _
  refine .trans (State.modCapture_keeps _ _ _) ?_
  refine .trans (State.wrEnter_keeps _ _ _) ?_
  refine .trans (State.endEpoch_keeps _ _) ?_
  exact .refl _

theorem State.setPair_keeps (s : State) (key : ℕ) (off : ℕ) (v : ℕ) :
    Keeps true true true true (State.setPair s key off v) s := by
  unfold State.setPair
  refine .trans (State.setReg_keeps _ _ _ _) ?_
  refine .trans (State.setReg_keeps _ _ _ _) ?_
  exact .refl _

theorem State.refreshCap_keeps (s : State) (p : ℕ) :
    Keeps true true true true (State.refreshCap s p) s := by
  unfold State.refreshCap
  extract_lets +onlyGivenNames v1
  clear_value v1
  extract_lets +onlyGivenNames v2
  have h2 : Keeps true true true true v2 s := by
    unfold v2
    refine .trans (State.setPair_keeps _ _ _ _) ?_
    exact .refl _
  clear_value v2
  extract_lets +onlyGivenNames v3
  have h3 : Keeps true true true true v3 s := by
    unfold v3
    refine .trans (State.wb_keeps _ _ _ _) ?_
    assumption
  clear_value v3
  refine .trans (State.wf_keeps _ _ _ _) ?_
  assumption

theorem State.advanceHead_keeps (s : State) (p : ℕ) :
    Keeps true true true true (State.advanceHead s p) s := by
  unfold State.advanceHead
  extract_lets +onlyGivenNames v1
  clear_value v1
  extract_lets +onlyGivenNames v2
  clear_value v2
  extract_lets +onlyGivenNames v3
  have h3 : Keeps true true true true v3 s := by
    unfold v3
    refine .trans (State.refreshCap_keeps _ _) ?_
    refine .trans (State.wf_keeps _ _ _ _) ?_
    refine .trans (State.modCapture_keeps _ _ _) ?_
    exact .refl _
  clear_value v3
  refine .ite ?_ ?_
  · refine .trans (State.modCapture_keeps _ _ _) ?_
    assumption
  assumption

theorem State.releaseAt_keeps (s : State) (p : ℕ) (i : ℕ) :
    Keeps true true true true (State.releaseAt s p i) s := by
  unfold State.releaseAt
  split
  · refine .trans (State.advanceHead_keeps _ _) ?_
    refine .trans (State.modCapture_keeps _ _ _) ?_
    exact .refl _
  · exact .refl _

theorem State.sheetCut_keeps (s : State) (p : ℕ) :
    Keeps true true true true (State.sheetCut s p) s := by
  unfold State.sheetCut
  extract_lets +onlyGivenNames v1
  clear_value v1
  split
  · exact .refl _
  · split
    · exact .refl _
    · refine .ite ?_ ?_
      · exact .refl _
      extract_lets +onlyGivenNames v2
      clear_value v2
      extract_lets +onlyGivenNames v3
      clear_value v3
      refine .ite ?_ ?_
      · extract_lets +onlyGivenNames v4
        have h4 : Keeps true true true true v4 s := by
          unfold v4
          refine .trans (State.modCapture_keeps _ _ _) ?_
          exact .refl _
        clear_value v4
        refine .trans (State.releaseAt_keeps _ _ _) ?_
        refine .trans (State.setErr_keeps _ _ _) ?_
        assumption
      extract_lets +onlyGivenNames v5
      clear_value v5
      extract_lets +onlyGivenNames v6
      clear_value v6
      extract_lets +onlyGivenNames v7
      clear_value v7
      extract_lets +onlyGivenNames v8
      clear_value v8
      extract_lets +onlyGivenNames v9
      clear_value v9
      extract_lets +onlyGivenNames v10
      have h10 : Keeps true true true true v10 s := by
        unfold v10
        refine .trans (State.modCapture_keeps _ _ _) ?_
        exact .refl _
      clear_value v10
      extract_lets +onlyGivenNames v11
      have h11 : Keeps true true true true v11 s := by
        unfold v11
        refine .trans (State.addReady_keeps _ _ _) ?_
        assumption
      clear_value v11
      extract_lets +onlyGivenNames v12
      have h12 : Keeps true true true true v12 s := by
        unfold v12
        refine .ite ?_ ?_
        · refine .trans (State.addReady_keeps _ _ _) ?_
          assumption
        assumption
      clear_value v12
      refine .ite ?_ ?_
      · refine .trans (State.addReady_keeps _ _ _) ?_
        assumption
      assumption

theorem State.writeSheet_keeps (s : State) (p : ℕ) (n : ℕ) (h : Sheet) :
    Keeps false true true true (State.writeSheet s p n h) s := by
  unfold State.writeSheet
  refine .trans (State.writeMem_keeps _ _ _) ?_
  exact .refl _

theorem State.sheetReady_keeps (s : State) (p : ℕ) :
    Keeps false true true true (State.sheetReady s p) s := by
  unfold State.sheetReady
  extract_lets +onlyGivenNames v1
  clear_value v1
  split
  · exact .refl _
  · split
    · exact .refl _
    · extract_lets +onlyGivenNames v2
      clear_value v2
      extract_lets +onlyGivenNames v3
      have h3 : Keeps false true true true v3 s := by
        unfold v3
        refine .trans (State.modCapture_keeps _ _ _) ?_
        exact .refl _
      clear_value v3
      refine .trans (State.irqBit_keeps _ _ _) ?_
      refine .trans (State.writeSheet_keeps _ _ _ _) ?_
      assumption

theorem State.drainSheets_keeps (s : State) (p : ℕ) :
    Keeps false true true true (State.drainSheets s p) s := by
  unfold State.drainSheets
  extract_lets +onlyGivenNames v1
  have h1 : Keeps false true true true v1 s := by
    unfold v1
    refine .trans (State.capStop_keeps _ _) ?_
    exact .refl _
  clear_value v1
  extract_lets +onlyGivenNames v2
  clear_value v2
  extract_lets +onlyGivenNames v3
  have h3 : Keeps false true true true v3 s := by
    unfold v3
    refine .trans (State.each_keeps (m := false) (k := true) (r := true) (p := true) ?_) ?_
    · intro a4_0 a4_1
      refine .trans (State.sheetReady_keeps _ _) ?_
      exact .refl _
    assumption
  clear_value v3
  refine .trans (State.each_keeps (m := false) (k := true) (r := true) (p := true) ?_) ?_
  · intro a5_0 a5_1
    refine .trans (State.sheetCut_keeps _ _) ?_
    exact .refl _
  assumption

theorem State.wrapBy_keeps (s : State) (key : ℕ) (f : RegField) (n : ℕ) :
    Keeps true true true true (State.wrapBy s key f n) s := by
  unfold State.wrapBy
  refine .trans (State.wf_keeps _ _ _ _) ?_
  exact .refl _

theorem State.bumpEpoch_keeps (s : State) :
    Keeps true true true true (State.bumpEpoch s) s := by
  unfold State.bumpEpoch
  refine .trans (State.wrapBy_keeps _ _ _ _) ?_
  exact .refl _

theorem State.mcEnter_keeps (s : State) (n : ℕ) (st : ℕ) :
    Keeps true true true true (State.mcEnter s n st) s := by
  unfold State.mcEnter
  refine .trans (State.wf_keeps _ _ _ _) ?_
  exact .refl _

theorem State.modCore_keeps (s : State) (n : ℕ) (f : Core → Core) :
    Keeps true true true true (State.modCore s n f) s := by
  unfold State.modCore
  refine .congr (u := s) ?_
  exact .refl _

theorem State.coresRelease_keeps (s : State) (t : Task) :
    Keeps true true true true (State.coresRelease s t) s := by
  unfold State.coresRelease
  split
  · exact .refl _
  · refine .trans (State.each_keeps (m := true) (k := true) (r := true) (p := true) ?_) ?_
    · intro a1_0 a1_1
      refine .ite ?_ ?_
      · extract_lets +onlyGivenNames v2
        have h2 : Keeps true true true true v2 a1_0 := by
          unfold v2
          refine .ite ?_ ?_
          · refine .trans (State.irqBit_keeps _ _ _) ?_
            refine .trans (State.mcEnter_keeps _ _ _) ?_
            refine .trans (State.modCore_keeps _ _ _) ?_
            exact .refl _
          exact .refl _
        clear_value v2
        refine .trans (State.modCore_keeps _ _ _) ?_
        refine .trans (State.setReg_keeps _ _ _ _) ?_
        assumption
      exact .refl _
    exact .refl _

theorem State.enter_keeps (s : State) (key : ℕ) (st : BlockState) :
    Keeps true true true true (State.enter s key st) s := by
  unfold State.enter
  refine .ite ?_ ?_
  · exact .refl _
  refine .trans (State.irqBit_keeps _ _ _) ?_
  refine .trans (State.modPage_keeps _ _ _) ?_
  exact .refl _

theorem State.chanEnter_keeps (s : State) (c : ℕ) (n : ℕ) :
    Keeps true true true true (State.chanEnter s c n) s := by
  unfold State.chanEnter
  extract_lets +onlyGivenNames v1
  clear_value v1
  extract_lets +onlyGivenNames v2
  have h2 : Keeps true true true true v2 s := by
    unfold v2
    refine .trans (State.wf_keeps _ _ _ _) ?_
    exact .refl _
  clear_value v2
  refine .trans (State.setReg_keeps _ _ _ _) ?_
  assumption

theorem State.modChan_keeps (s : State) (c : ℕ) (f : DmaChan → DmaChan) :
    Keeps true true true true (State.modChan s c f) s := by
  unfold State.modChan
  refine .congr (u := s) ?_
  exact .refl _

theorem State.setAct_keeps (s : State) (c : ℕ) (d : Option ChanDesc) :
    Keeps true true true true (State.setAct s c d) s := by
  unfold State.setAct
  extract_lets +onlyGivenNames v1
  clear_value v1
  refine .trans (State.setPair_keeps _ _ _ _) ?_
  exact .refl _

theorem State.setDbPend_keeps (s : State) (c : ℕ) (b : Bool) :
    Keeps true true true true (State.setDbPend s c b) s := by
  unfold State.setDbPend
  refine .trans (State.wb_keeps _ _ _ _) ?_
  exact .refl _

theorem State.setShadow_keeps (s : State) (c : ℕ) (d : Option ChanDesc) :
    Keeps true true true true (State.setShadow s c d) s := by
  unfold State.setShadow
  refine .trans (State.wb_keeps _ _ _ _) ?_
  refine .trans (State.modChan_keeps _ _ _) ?_
  exact .refl _

theorem State.chanCancel_keeps (s : State) (c : ℕ) :
    Keeps true true true true (State.chanCancel s c) s := by
  unfold State.chanCancel
  refine .trans (State.chanEnter_keeps _ _ _) ?_
  refine .trans (State.setDbPend_keeps _ _ _) ?_
  refine .trans (State.setAct_keeps _ _ _) ?_
  refine .trans (State.setShadow_keeps _ _ _) ?_
  refine .trans (State.modChan_keeps _ _ _) ?_
  exact .refl _

theorem State.cancelGroup_keeps (s : State) (key : ℕ) :
    Keeps true true true true (State.cancelGroup s key) s := by
  unfold State.cancelGroup
  refine .trans (State.each_keeps (m := true) (k := true) (r := true) (p := true) ?_) ?_
  · intro a1_0 a1_1
    refine .trans (State.chanCancel_keeps _ _) ?_
    exact .refl _
  exact .refl _

theorem State.modCmp_keeps (s : State) (n : ℕ) (f : CmpEngine → CmpEngine) :
    Keeps true true true true (State.modCmp s n f) s := by
  unfold State.modCmp
  refine .congr (u := s) ?_
  exact .refl _

theorem State.refreshCmp_keeps (s : State) (n : ℕ) :
    Keeps true true true true (State.refreshCmp s n) s := by
  unfold State.refreshCmp
  extract_lets +onlyGivenNames v1
  clear_value v1
  split
  · refine .trans (State.setReg_keeps _ _ _ _) ?_
    exact .refl _
  · refine .trans (State.wf_keeps _ _ _ _) ?_
    refine .trans (State.wf_keeps _ _ _ _) ?_
    refine .trans (State.wb_keeps _ _ _ _) ?_
    exact .refl _

theorem State.cmpDrop_keeps (s : State) (n : ℕ) :
    Keeps true true true true (State.cmpDrop s n) s := by
  unfold State.cmpDrop
  refine .trans (State.refreshCmp_keeps _ _) ?_
  refine .trans (State.modCmp_keeps _ _ _) ?_
  exact .refl _

theorem State.modEngine_keeps (s : State) (p : ℕ) (f : Engine → Engine) :
    Keeps true true true true (State.modEngine s p f) s := by
  unfold State.modEngine
  refine .congr (u := s) ?_
  exact .refl _

theorem State.queueRecord_keeps (s : State) (p : ℕ) (plane : ℕ) (r : Record) :
    Keeps true true true true (State.queueRecord s p plane r) s := by
  unfold State.queueRecord
  extract_lets +onlyGivenNames v1
  clear_value v1
  extract_lets +onlyGivenNames v2
  clear_value v2
  extract_lets +onlyGivenNames v3
  have h3 : Keeps true true true true v3 s := by
    unfold v3
    refine .ite ?_ ?_
    · refine .trans (State.modPage_keeps _ _ _) ?_
      exact .refl _
    exact .refl _
  clear_value v3
  refine .trans (State.modCapture_keeps _ _ _) ?_
  assumption

theorem State.closeSpectrum_keeps (s : State) (p : ℕ) :
    Keeps true true true true (State.closeSpectrum s p) s := by
  unfold State.closeSpectrum
  split
  · exact .refl _
  · extract_lets +onlyGivenNames v1
    extract_lets +onlyGivenNames v2
    clear_value v2
    extract_lets +onlyGivenNames v3
    clear_value v3
    refine .trans (State.queueRecord_keeps _ _ _ _) ?_
    refine .trans (State.modEngine_keeps _ _ _) ?_
    exact .refl _

theorem State.emitGroup_keeps (s : State) (p : ℕ) (ws : List (ℕ × Word)) (all : List (List Bin)) (g : SpecGroup) :
    Keeps true true true true (State.emitGroup s p ws all g) s := by
  unfold State.emitGroup
  extract_lets +onlyGivenNames v1
  extract_lets +onlyGivenNames v2
  clear_value v2
  extract_lets +onlyGivenNames v3
  clear_value v3
  extract_lets +onlyGivenNames v4
  clear_value v4
  extract_lets +onlyGivenNames v5
  clear_value v5
  extract_lets +onlyGivenNames v6
  clear_value v6
  extract_lets +onlyGivenNames v7
  clear_value v7
  extract_lets +onlyGivenNames v8
  clear_value v8
  extract_lets +onlyGivenNames v9
  clear_value v9
  extract_lets +onlyGivenNames v10
  have h10 : Keeps true true true true v10 s := by
    unfold v10
    refine .trans (State.modEngine_keeps _ _ _) ?_
    exact .refl _
  clear_value v10
  refine .ite ?_ ?_
  · refine .trans (State.closeSpectrum_keeps _ _) ?_
    assumption
  assumption

theorem State.flushGroup_keeps (s : State) (p : ℕ) (ws : List (ℕ × Word)) :
    Keeps true true true true (State.flushGroup s p ws) s := by
  unfold State.flushGroup
  split
  · refine .trans (State.emitGroup_keeps _ _ _ _ _) ?_
    exact .refl _
  · exact .refl _

theorem State.fftStop_keeps (s : State) (p : ℕ) :
    Keeps true true true true (State.fftStop s p) s := by
  unfold State.fftStop
  extract_lets +onlyGivenNames v1
  clear_value v1
  refine .trans (State.closeSpectrum_keeps _ _) ?_
  refine .trans (State.flushGroup_keeps _ _ _) ?_
  exact .refl _

theorem State.accEnter_keeps (s : State) (p : ℕ) (n : ℕ) :
    Keeps true true true true (State.accEnter s p n) s := by
  unfold State.accEnter
  refine .trans (State.wf_keeps _ _ _ _) ?_
  exact .refl _

theorem State.modGrat_keeps (s : State) (p : ℕ) (f : Grat → Grat) :
    Keeps true true true true (State.modGrat s p f) s := by
  unfold State.modGrat
  refine .congr (u := s) ?_
  exact .refl _

theorem State.grtStop_keeps (s : State) (p : ℕ) :
    Keeps true true true true (State.grtStop s p) s := by
  unfold State.grtStop
  refine .trans (State.modGrat_keeps _ _ _) ?_
  refine .trans (State.accEnter_keeps _ _ _) ?_
  exact .refl _

theorem State.modTrig_keeps (s : State) (p : ℕ) (f : Trig → Trig) :
    Keeps true true true true (State.modTrig s p f) s := by
  unfold State.modTrig
  refine .congr (u := s) ?_
  exact .refl _

theorem State.setEvent_keeps (s : State) (p : ℕ) (e : ℕ) (v : Event) :
    Keeps true true true true (State.setEvent s p e v) s := by
  unfold State.setEvent
  refine .trans (State.modTrig_keeps _ _ _) ?_
  exact .refl _

theorem State.addChange_keeps (s : State) (p : ℕ) (src : ℕ) (sample : ℕ) (on : Bool) :
    Keeps true true true true (State.addChange s p src sample on) s := by
  unfold State.addChange
  refine .trans (State.modTrig_keeps _ _ _) ?_
  exact .refl _

theorem State.slotClear_keeps (s : State) (p : ℕ) (m : ℕ) (label : ℕ) :
    Keeps true true true true (State.slotClear s p m label) s := by
  unfold State.slotClear
  extract_lets +onlyGivenNames v1
  clear_value v1
  extract_lets +onlyGivenNames v2
  have h2 : Keeps true true true true v2 s := by
    unfold v2
    refine .ite ?_ ?_
    · refine .trans (State.addChange_keeps _ _ _ _ _) ?_
      exact .refl _
    exact .refl _
  clear_value v2
  extract_lets +onlyGivenNames v3
  have h3 : Keeps true true true true v3 s := by
    unfold v3
    refine .trans (State.wf_keeps _ _ _ _) ?_
    assumption
  clear_value v3
  refine .trans (State.modTrig_keeps _ _ _) ?_
  assumption

theorem State.slotsClear_keeps (s : State) (p : ℕ) (label : ℕ) :
    Keeps true true true true (State.slotsClear s p label) s := by
  unfold State.slotsClear
  refine .trans (foldl_keeps (m := true) (k := true) (r := true) (p := true) ?_) ?_
  · intro a1_0 a1_1
    refine .trans (State.slotClear_keeps _ _ _ _) ?_
    exact .refl _
  exact .refl _

theorem State.modUnit_keeps (s : State) (p : ℕ) (n : ℕ) (f : TdUnit → TdUnit) :
    Keeps true true true true (State.modUnit s p n f) s := by
  unfold State.modUnit
  refine .trans (State.modTrig_keeps _ _ _) ?_
  exact .refl _

theorem State.tdSet_keeps (s : State) (p : ℕ) (n : ℕ) (met : Bool) (unarmed : Bool) :
    Keeps true true true true (State.tdSet s p n met unarmed) s := by
  unfold State.tdSet
  extract_lets +onlyGivenNames v1
  clear_value v1
  extract_lets +onlyGivenNames v2
  have h2 : Keeps true true true true v2 s := by
    unfold v2
    refine .trans (State.wf_keeps _ _ _ _) ?_
    exact .refl _
  clear_value v2
  refine .trans (State.wf_keeps _ _ _ _) ?_
  assumption

theorem State.tdDisarm_keeps (s : State) (p : ℕ) (n : ℕ) (sample : ℕ) :
    Keeps true true true true (State.tdDisarm s p n sample) s := by
  unfold State.tdDisarm
  extract_lets +onlyGivenNames v1
  have h1 : Keeps true true true true v1 s := by
    unfold v1
    refine .ite ?_ ?_
    · refine .trans (State.addChange_keeps _ _ _ _ _) ?_
      exact .refl _
    exact .refl _
  clear_value v1
  refine .trans (State.modUnit_keeps _ _ _ _) ?_
  refine .trans (State.tdSet_keeps _ _ _ _ _) ?_
  assumption

theorem State.traceBegin_keeps (s : State) (p : ℕ) (on : Bool) :
    Keeps true true true true (State.traceBegin s p on) s := by
  unfold State.traceBegin
  extract_lets +onlyGivenNames v1
  clear_value v1
  extract_lets +onlyGivenNames v2
  clear_value v2
  refine .trans (State.modCapture_keeps _ _ _) ?_
  exact .refl _

theorem State.stopHook_keeps (s : State) (key : ℕ) :
    Keeps false true true true (State.stopHook s key) s := by
  unfold State.stopHook
  extract_lets +onlyGivenNames v1
  clear_value v1
  split
  · refine .trans (State.fftStop_keeps _ _) ?_
    exact .refl _
  · refine .trans (State.grtStop_keeps _ _) ?_
    exact .refl _
  · refine .trans (State.capStop_keeps _ _) ?_
    exact .refl _
  · refine .trans (State.traceBegin_keeps _ _ _) ?_
    exact .refl _
  · refine .trans (State.slotsClear_keeps _ _ _) ?_
    exact .refl _
  · refine .trans (foldl_keeps (m := false) (k := true) (r := true) (p := true) ?_) ?_
    · intro a2_0 a2_1
      refine .trans (State.tdDisarm_keeps _ _ _ _) ?_
      exact .refl _
    exact .refl _
  · refine .trans (foldl_keeps (m := false) (k := true) (r := true) (p := true) ?_) ?_
    · intro a3_0 a3_1
      extract_lets +onlyGivenNames v4
      clear_value v4
      refine .trans (foldl_keeps (m := false) (k := true) (r := true) (p := true) ?_) ?_
      · intro a5_0 a5_1
        refine .trans (State.setEvent_keeps _ _ _ _) ?_
        exact .refl _
      exact .refl _
    exact .refl _
  · refine .trans (State.cmpDrop_keeps _ _) ?_
    exact .refl _
  · refine .trans (State.cancelGroup_keeps _ _) ?_
    exact .refl _
  · exact .refl _

theorem State.stopPage_keeps (s : State) (key : ℕ) :
    Keeps false true true true (State.stopPage s key) s := by
  unfold State.stopPage
  extract_lets +onlyGivenNames v1
  have h1 : Keeps false true true true v1 s := by
    unfold v1
    refine .ite ?_ ?_
    · refine .trans (State.enter_keeps _ _ _) ?_
      refine .trans (State.stopHook_keeps _ _) ?_
      exact .refl _
    exact .refl _
  clear_value v1
  refine .trans (State.modPage_keeps _ _ _) ?_
  assumption

theorem State.idleGroups_keeps (s : State) (t : Task) (keep : List ℕ) :
    Keeps false true true true (State.idleGroups s t keep) s := by
  unfold State.idleGroups
  extract_lets +onlyGivenNames v1
  clear_value v1
  refine .trans (State.each_keeps (m := false) (k := true) (r := true) (p := true) ?_) ?_
  · intro a2_0 a2_1
    refine .trans (State.stopPage_keeps _ _) ?_
    exact .refl _
  exact .refl _

theorem State.dropRings_keeps (s : State) (t : Task) (keep : List ℕ) :
    Keeps false true true true (State.dropRings s t keep) s := by
  unfold State.dropRings
  extract_lets +onlyGivenNames v1
  have h1 : Keeps false true true true v1 s := by
    unfold v1
    refine .trans (State.idleGroups_keeps _ _ _) ?_
    exact .refl _
  clear_value v1
  refine .trans (State.each_keeps (m := false) (k := true) (r := true) (p := true) ?_) ?_
  · intro a2_0 a2_1
    refine .ite ?_ ?_
    · refine .congr (u := a2_0) ?_
      exact .refl _
    exact .refl _
  assumption

theorem State.refreshSrc_keeps (s : State) :
    Keeps true true true true (State.refreshSrc s) s := by
  unfold State.refreshSrc
  refine .trans (foldl_keeps (m := true) (k := true) (r := true) (p := true) ?_) ?_
  · intro a1_0 a1_1
    refine .trans (State.wf_keeps _ _ _ _) ?_
    exact .refl _
  exact .refl _

theorem State.disconnect_keeps (s : State) (p : ℕ) :
    Keeps true true true true (State.disconnect s p) s := by
  unfold State.disconnect
  refine .trans (State.refreshSrc_keeps _) ?_
  refine .trans (State.wb_keeps _ _ _ _) ?_
  refine .trans (State.wb_keeps _ _ _ _) ?_
  refine .congr (u := s) ?_
  exact .refl _

theorem State.modRot_keeps (s : State) (f : Rotation → Rotation) :
    Keeps true true true true (State.modRot s f) s := by
  unfold State.modRot
  refine .congr (u := s) ?_
  exact .refl _

theorem State.chooseH_keeps (s : State) :
    Keeps true true true true (State.chooseH s) s := by
  unfold State.chooseH
  refine .ite ?_ ?_
  · refine .trans (State.modRot_keeps _ _) ?_
    exact .refl _
  refine .trans (State.modRot_keeps _ _) ?_
  exact .refl _

end Sys2Proof.Machine
end

