-- ==== Sys2Proof/Laws/Keeps2.lean ====
section
/-! SUPPORT. What the operations and commands keep, part 2. -/

set_option Elab.async false

namespace Sys2Proof.Machine

theorem State.rotWake_keeps (s : State) :
    Keeps true true true true (State.rotWake s) s := by
  unfold State.rotWake
  refine .ite ?_ ?_
  · refine .trans (State.chooseH_keeps _) ?_
    exact .refl _
  exact .refl _

theorem State.leaveMigration_keeps (s : State) (id : ℕ) :
    Keeps false true true false (State.leaveMigration s id) s := by
  unfold State.leaveMigration
  extract_lets +onlyGivenNames v1
  extract_lets +onlyGivenNames v2
  have h2 : Keeps false true true false v2 s := by
    unfold v2
    refine .trans (State.modPhn_keeps _ _) ?_
    exact .refl _
  clear_value v2
  split
  · assumption
  · extract_lets +onlyGivenNames v3
    clear_value v3
    refine .ite ?_ ?_
    · extract_lets +onlyGivenNames v4
      have h4 : Keeps false true true false v4 s := by
        unfold v4
        refine .trans (State.rotWake_keeps _) ?_
        assumption
      clear_value v4
      extract_lets +onlyGivenNames v5
      clear_value v5
      extract_lets +onlyGivenNames v6
      have h6 : Keeps false true true false v6 s := by
        unfold v6
        refine .trans (State.each_keeps (m := false) (k := true) (r := true) (p := false) ?_) ?_
        · intro a7_0 a7_1
          refine .trans (State.disconnect_keeps _ _) ?_
          refine .trans (State.each_keeps (m := false) (k := true) (r := true) (p := false) ?_) ?_
          · intro a8_0 a8_1
            refine .trans (State.stopPage_keeps _ _) ?_
            exact .refl _
          exact .refl _
        assumption
      clear_value v6
      refine .trans (State.modPhn_keeps _ _) ?_
      assumption
    refine .trans (State.modPhn_keeps _ _) ?_
    assumption

theorem State.applyWords_keeps (s : State) (key : ℕ) (ws : List (ℕ × Word)) :
    Keeps true true true true (State.applyWords s key ws) s := by
  unfold State.applyWords
  refine .trans (State.modPage_keeps _ _ _) ?_
  exact .refl _

theorem State.mirrorGang_keeps (s : State) (p : ℕ) :
    Keeps true true true true (State.mirrorGang s p) s := by
  unfold State.mirrorGang
  split
  · refine .ite ?_ ?_
    · exact .refl _
    refine .trans (foldl_keeps (m := true) (k := true) (r := true) (p := true) ?_) ?_
    · intro a1_0 a1_1
      refine .trans (State.applyWords_keeps _ _ _) ?_
      exact .refl _
    exact .refl _
  · exact .refl _

theorem State.ctrApply_keeps (s : State) (p : ℕ) (a : PendApply) :
    Keeps true true true true (State.ctrApply s p a) s := by
  unfold State.ctrApply
  extract_lets +onlyGivenNames v1
  clear_value v1
  extract_lets +onlyGivenNames v2
  clear_value v2
  extract_lets +onlyGivenNames v3
  have h3 : Keeps true true true true v3 s := by
    unfold v3
    refine .trans (State.applyWords_keeps _ _ _) ?_
    exact .refl _
  clear_value v3
  refine .trans (State.mirrorGang_keeps _ _) ?_
  refine .trans (foldl_keeps (m := true) (k := true) (r := true) (p := true) ?_) ?_
  · intro a4_0 a4_1
    refine .trans (State.slotClear_keeps _ _ _ _) ?_
    exact .refl _
  assumption

theorem State.modInset_keeps (s : State) (p : ℕ) (k : ℕ) (f : Inset → Inset) :
    Keeps true true true true (State.modInset s p k f) s := by
  unfold State.modInset
  refine .congr (u := s) ?_
  exact .refl _

theorem State.insetStart_keeps (s : State) (p : ℕ) (k : ℕ) (a : ℕ) :
    Keeps true true true true (State.insetStart s p k a) s := by
  unfold State.insetStart
  extract_lets +onlyGivenNames v1
  clear_value v1
  extract_lets +onlyGivenNames v2
  clear_value v2
  extract_lets +onlyGivenNames v3
  clear_value v3
  extract_lets +onlyGivenNames v4
  clear_value v4
  refine .trans (State.modInset_keeps _ _ _ _) ?_
  exact .refl _

theorem State.setAreg_keeps (s : State) (key : ℕ) (off : ℕ) (w : Word) :
    Keeps true true true true (State.setAreg s key off w) s := by
  unfold State.setAreg
  refine .trans (State.modPage_keeps _ _ _) ?_
  exact .refl _

theorem State.setInsWords_keeps (s : State) (p : ℕ) (k : ℕ) (ws : List Word) :
    Keeps true true true true (State.setInsWords s p k ws) s := by
  unfold State.setInsWords
  refine .trans (foldl_keeps (m := true) (k := true) (r := true) (p := true) ?_) ?_
  · intro a1_0 a1_1
    refine .trans (State.setAreg_keeps _ _ _ _) ?_
    exact .refl _
  exact .refl _

theorem State.insetChange_keeps (s : State) (p : ℕ) (k : ℕ) (a : ℕ) (old : List Word) (new : List Word) :
    Keeps true true true true (State.insetChange s p k a old new) s := by
  unfold State.insetChange
  refine .ite ?_ ?_
  · refine .trans (State.modInset_keeps _ _ _ _) ?_
    refine .trans (State.setInsWords_keeps _ _ _ _) ?_
    exact .refl _
  refine .ite ?_ ?_
  · refine .trans (State.setInsWords_keeps _ _ _ _) ?_
    exact .refl _
  extract_lets +onlyGivenNames v1
  have h1 : Keeps true true true true v1 s := by
    unfold v1
    refine .trans (State.setInsWords_keeps _ _ _ _) ?_
    exact .refl _
  clear_value v1
  extract_lets +onlyGivenNames v2
  clear_value v2
  extract_lets +onlyGivenNames v3
  clear_value v3
  extract_lets +onlyGivenNames v4
  split
  · refine .trans (State.insetStart_keeps _ _ _ _) ?_
    assumption
  · unfold v4
    refine .trans (State.modInset_keeps _ _ _ _) ?_
    refine .trans (State.modInset_keeps _ _ _ _) ?_
    assumption
  · unfold v4
    refine .trans (State.modInset_keeps _ _ _ _) ?_
    refine .trans (State.modInset_keeps _ _ _ _) ?_
    assumption
  · unfold v4
    refine .trans (State.modInset_keeps _ _ _ _) ?_
    assumption

theorem State.setSix3_keeps (s : State) (key : ℕ) (off : ℕ) (six : ℕ) :
    Keeps true true true true (State.setSix3 s key off six) s := by
  unfold State.setSix3
  refine .trans (State.setReg_keeps _ _ _ _) ?_
  refine .trans (State.setReg_keeps _ _ _ _) ?_
  refine .trans (State.setReg_keeps _ _ _ _) ?_
  exact .refl _

theorem State.insShow_keeps (s : State) (p : ℕ) :
    Keeps true true true true (State.insShow s p) s := by
  unfold State.insShow
  extract_lets +onlyGivenNames v1
  clear_value v1
  extract_lets +onlyGivenNames v2
  have h2 : Keeps true true true true v2 s := by
    unfold v2
    refine .trans (State.setReg_keeps _ _ _ _) ?_
    refine .trans (State.setReg_keeps _ _ _ _) ?_
    exact .refl _
  clear_value v2
  refine .trans (State.setReg_keeps _ _ _ _) ?_
  refine .trans (State.setReg_keeps _ _ _ _) ?_
  assumption

theorem State.insApply_keeps (s : State) (p : ℕ) (a : PendApply) :
    Keeps true true true true (State.insApply s p a) s := by
  unfold State.insApply
  extract_lets +onlyGivenNames v1
  clear_value v1
  extract_lets +onlyGivenNames v2
  clear_value v2
  extract_lets +onlyGivenNames v3
  clear_value v3
  extract_lets +onlyGivenNames v4
  clear_value v4
  extract_lets +onlyGivenNames v5
  have h5 : Keeps true true true true v5 s := by
    unfold v5
    refine .trans (State.applyWords_keeps _ _ _) ?_
    exact .refl _
  clear_value v5
  extract_lets +onlyGivenNames v6
  have h6 : Keeps true true true true v6 s := by
    unfold v6
    refine .trans (foldl_keeps (m := true) (k := true) (r := true) (p := true) ?_) ?_
    · intro a7_0 a7_1
      extract_lets +onlyGivenNames v8
      clear_value v8
      refine .ite ?_ ?_
      · refine .ite ?_ ?_
        · refine .trans (State.modInset_keeps _ _ _ _) ?_
          exact .refl _
        exact .refl _
      refine .ite ?_ ?_
      · refine .trans (State.insetStart_keeps _ _ _ _) ?_
        exact .refl _
      refine .trans (State.insetChange_keeps _ _ _ _ _ _) ?_
      exact .refl _
    assumption
  clear_value v6
  refine .trans (State.setSix3_keeps _ _ _ _) ?_
  refine .trans (State.insShow_keeps _ _) ?_
  assumption

theorem State.restartPlanes_keeps (s : State) (p : ℕ) (a : PendApply) :
    Keeps true true true true (State.restartPlanes s p a) s := by
  unfold State.restartPlanes
  extract_lets +onlyGivenNames v1
  clear_value v1
  refine .trans (foldl_keeps (m := true) (k := true) (r := true) (p := true) ?_) ?_
  · intro a2_0 a2_1
    refine .ite ?_ ?_
    · extract_lets +onlyGivenNames v3
      have h3 : Keeps true true true true v3 a2_0 := by
        unfold v3
        refine .trans (State.wf_keeps _ _ _ _) ?_
        refine .trans (State.wf_keeps _ _ _ _) ?_
        exact .refl _
      clear_value v3
      refine .trans (State.modCapture_keeps _ _ _) ?_
      assumption
    exact .refl _
  exact .refl _

theorem State.stagePatch_keeps (s : State) (y1 : Patch) :
    Keeps true true true true (State.stagePatch s y1) s := by
  unfold State.stagePatch
  refine .trans (State.setReg_keeps _ _ _ _) ?_
  exact .refl _

theorem State.refreshLatency_keeps (s : State) (p : ℕ) :
    Keeps true true true true (State.refreshLatency s p) s := by
  unfold State.refreshLatency
  extract_lets +onlyGivenNames v1
  have h1 : Keeps true true true true v1 s := by
    unfold v1
    refine .trans (State.setReg_keeps _ _ _ _) ?_
    exact .refl _
  clear_value v1
  extract_lets +onlyGivenNames v2
  have h2 : Keeps true true true true v2 s := by
    unfold v2
    refine .trans (State.setReg_keeps _ _ _ _) ?_
    assumption
  clear_value v2
  refine .trans (foldl_keeps (m := true) (k := true) (r := true) (p := true) ?_) ?_
  · intro a3_0 a3_1
    extract_lets +onlyGivenNames v4
    clear_value v4
    refine .trans (State.setReg_keeps _ _ _ _) ?_
    exact .refl _
  assumption

theorem State.trgApply_keeps (s : State) (r : ℕ) (a : PendApply) :
    Keeps true true true true (State.trgApply s r a) s := by
  unfold State.trgApply
  extract_lets +onlyGivenNames v1
  clear_value v1
  extract_lets +onlyGivenNames v2
  clear_value v2
  extract_lets +onlyGivenNames v3
  clear_value v3
  extract_lets +onlyGivenNames v4
  clear_value v4
  extract_lets +onlyGivenNames v5
  have h5 : Keeps true true true true v5 s := by
    unfold v5
    refine .trans (State.applyWords_keeps _ _ _) ?_
    exact .refl _
  clear_value v5
  extract_lets +onlyGivenNames v6
  have h6 : Keeps true true true true v6 s := by
    unfold v6
    refine .ite ?_ ?_
    · assumption
    refine .trans (State.emit_keeps _ _) ?_
    assumption
  clear_value v6
  extract_lets +onlyGivenNames v7
  have h7 : Keeps true true true true v7 s := by
    unfold v7
    refine .trans (foldl_keeps (m := true) (k := true) (r := true) (p := true) ?_) ?_
    · intro a8_0 a8_1
      extract_lets +onlyGivenNames v9
      clear_value v9
      refine .trans (State.setEvent_keeps _ _ _ _) ?_
      exact .refl _
    assumption
  clear_value v7
  refine .trans (foldl_keeps (m := true) (k := true) (r := true) (p := true) ?_) ?_
  · intro a10_0 a10_1
    refine .trans (State.refreshLatency_keeps _ _) ?_
    exact .refl _
  assumption

theorem State.ttrApply_keeps (s : State) (p : ℕ) (a : PendApply) :
    Keeps true true true true (State.ttrApply s p a) s := by
  unfold State.ttrApply
  extract_lets +onlyGivenNames v1
  clear_value v1
  extract_lets +onlyGivenNames v2
  clear_value v2
  extract_lets +onlyGivenNames v3
  have h3 : Keeps true true true true v3 s := by
    unfold v3
    refine .trans (State.applyWords_keeps _ _ _) ?_
    exact .refl _
  clear_value v3
  refine .trans (State.mirrorGang_keeps _ _) ?_
  refine .trans (foldl_keeps (m := true) (k := true) (r := true) (p := true) ?_) ?_
  · intro a4_0 a4_1
    refine .trans (State.tdDisarm_keeps _ _ _ _) ?_
    exact .refl _
  assumption

theorem State.applyPatches_keeps (s : State) (key : ℕ) (xs : List Patch) :
    Keeps true true true true (State.applyPatches s key xs) s := by
  unfold State.applyPatches
  extract_lets +onlyGivenNames v1
  clear_value v1
  refine .ite ?_ ?_
  · exact .refl _
  extract_lets +onlyGivenNames v2
  clear_value v2
  extract_lets +onlyGivenNames v3
  clear_value v3
  extract_lets +onlyGivenNames v4
  have h4 : Keeps true true true true v4 s := by
    unfold v4
    refine .trans (State.each_keeps (m := true) (k := true) (r := true) (p := true) ?_) ?_
    · intro a5_0 a5_1
      refine .trans (State.stagePatch_keeps _ _) ?_
      exact .refl _
    exact .refl _
  clear_value v4
  extract_lets +onlyGivenNames v6
  clear_value v6
  split
  · refine .ite ?_ ?_
    · refine .trans (State.insApply_keeps _ _ _) ?_
      assumption
    refine .trans (State.insShow_keeps _ _) ?_
    refine .trans (State.applyWords_keeps _ _ _) ?_
    assumption
  · refine .ite ?_ ?_
    · refine .trans (State.ctrApply_keeps _ _ _) ?_
      assumption
    refine .trans (State.applyWords_keeps _ _ _) ?_
    assumption
  · refine .ite ?_ ?_
    · refine .trans (State.ttrApply_keeps _ _ _) ?_
      assumption
    refine .trans (State.applyWords_keeps _ _ _) ?_
    assumption
  · refine .trans (State.trgApply_keeps _ _ _) ?_
    assumption
  · extract_lets +onlyGivenNames v7
    have h7 : Keeps true true true true v7 s := by
      unfold v7
      refine .trans (State.applyWords_keeps _ _ _) ?_
      refine .trans (State.restartPlanes_keeps _ _ _) ?_
      assumption
    clear_value v7
    refine .ite ?_ ?_
    · refine .trans (State.traceBegin_keeps _ _ _) ?_
      assumption
    assumption
  · refine .trans (State.applyWords_keeps _ _ _) ?_
    assumption

theorem State.applyAll_keeps (s : State) (xs : List Patch) :
    Keeps true true true true (State.applyAll s xs) s := by
  unfold State.applyAll
  refine .trans (State.each_keeps (m := true) (k := true) (r := true) (p := true) ?_) ?_
  · intro a1_0 a1_1
    refine .trans (State.applyPatches_keeps _ _ _) ?_
    exact .refl _
  exact .refl _

theorem State.leavePipes_keeps (s : State) (t : Task) :
    Keeps false true true false (State.leavePipes s t) s := by
  unfold State.leavePipes
  extract_lets +onlyGivenNames v1
  clear_value v1
  extract_lets +onlyGivenNames v2
  clear_value v2
  extract_lets +onlyGivenNames v3
  clear_value v3
  extract_lets +onlyGivenNames v4
  clear_value v4
  extract_lets +onlyGivenNames v5
  have h5 : Keeps false true true false v5 s := by
    unfold v5
    refine .trans (State.each_keeps (m := false) (k := true) (r := true) (p := false) ?_) ?_
    · intro a6_0 a6_1
      refine .trans (State.stopPage_keeps _ _) ?_
      exact .refl _
    exact .refl _
  clear_value v5
  extract_lets +onlyGivenNames v7
  clear_value v7
  extract_lets +onlyGivenNames v8
  have h8 : Keeps false true true false v8 s := by
    unfold v8
    refine .ite ?_ ?_
    · assumption
    refine .ite ?_ ?_
    · refine .trans (State.applyAll_keeps _ _) ?_
      assumption
    refine .ite ?_ ?_
    · refine .trans (State.applyAll_keeps _ _) ?_
      assumption
    assumption
  clear_value v8
  extract_lets +onlyGivenNames v9
  have h9 : Keeps false true true false v9 s := by
    unfold v9
    refine .ite ?_ ?_
    · refine .trans (State.applyAll_keeps _ _) ?_
      assumption
    assumption
  clear_value v9
  split
  · refine .ite ?_ ?_
    · refine .trans (State.each_keeps (m := false) (k := true) (r := true) (p := false) ?_) ?_
      · intro a10_0 a10_1
        refine .trans (State.disconnect_keeps _ _) ?_
        exact .refl _
      assumption
    assumption
  · extract_lets +onlyGivenNames v11
    clear_value v11
    refine .trans (State.modTask_keeps _ _ _) ?_
    assumption

theorem State.pauseEnd_keeps (s : State) (p : ℕ) :
    Keeps false true true true (State.pauseEnd s p) s := by
  unfold State.pauseEnd
  refine .ite ?_ ?_
  · refine .trans (State.modCapture_keeps _ _ _) ?_
    refine .trans (State.endEpoch_keeps _ _) ?_
    exact .refl _
  exact .refl _

theorem State.capPause_keeps (s : State) (p : ℕ) (reason : ℕ) :
    Keeps false true true true (State.capPause s p reason) s := by
  unfold State.capPause
  refine .ite ?_ ?_
  · extract_lets +onlyGivenNames v1
    have h1 : Keeps false true true true v1 s := by
      unfold v1
      refine .trans (State.modCapture_keeps _ _ _) ?_
      refine .trans (State.wrEnter_keeps _ _ _) ?_
      exact .refl _
    clear_value v1
    refine .ite ?_ ?_
    · assumption
    refine .trans (State.pauseEnd_keeps _ _) ?_
    assumption
  refine .trans (State.pauseEnd_keeps _ _) ?_
  exact .refl _

theorem State.repoint_keeps (s : State) (task : ℕ) (f : RecSource → RecSource) :
    Keeps true true true true (State.repoint s task f) s := by
  unfold State.repoint
  extract_lets +onlyGivenNames v1
  have h1 : Keeps true true true true v1 s := by
    unfold v1
    refine .congr (u := s) ?_
    exact .refl _
  clear_value v1
  refine .trans (State.modStream_keeps _ _ _) ?_
  assumption

theorem State.park_keeps (s : State) (t : Task) :
    Keeps false true true false (State.park s t) s := by
  unfold State.park
  extract_lets +onlyGivenNames v1
  clear_value v1
  extract_lets +onlyGivenNames v2
  clear_value v2
  refine .ite ?_ ?_
  · exact .refl _
  extract_lets +onlyGivenNames v3
  have h3 : Keeps false true true false v3 s := by
    unfold v3
    refine .ite ?_ ?_
    · refine .trans (State.pauseEnd_keeps _ _) ?_
      refine .trans (State.capPause_keeps _ _ _) ?_
      exact .refl _
    exact .refl _
  clear_value v3
  extract_lets +onlyGivenNames v4
  clear_value v4
  extract_lets +onlyGivenNames v5
  clear_value v5
  extract_lets +onlyGivenNames v6
  have h6 : Keeps false true true false v6 s := by
    unfold v6
    refine .trans (State.modPhn_keeps _ _) ?_
    assumption
  clear_value v6
  extract_lets +onlyGivenNames v7
  have h7 : Keeps false true true false v7 s := by
    unfold v7
    refine .trans (State.modCapture_keeps _ _ _) ?_
    assumption
  clear_value v7
  refine .trans (State.repoint_keeps _ _ _) ?_
  assumption

theorem State.setPend_keeps (s : State) (key : ℕ) (due : ℕ) (byOp : Bool) :
    Keeps true true true true (State.setPend s key due byOp) s := by
  unfold State.setPend
  refine .congr (u := s) ?_
  exact .refl _

theorem State.clearPend_keeps (s : State) (key : ℕ) :
    Keeps true true true true (State.clearPend s key) s := by
  unfold State.clearPend
  refine .congr (u := s) ?_
  exact .refl _

theorem State.pendInput_keeps (s : State) (c : ℕ) (w : Word) :
    Keeps true true true true (State.pendInput s c w) s := by
  unfold State.pendInput
  extract_lets +onlyGivenNames v1
  clear_value v1
  refine .ite ?_ ?_
  · exact .refl _
  extract_lets +onlyGivenNames v2
  have h2 : Keeps true true true true v2 s := by
    unfold v2
    refine .trans (State.setReg_keeps _ _ _ _) ?_
    exact .refl _
  clear_value v2
  refine .ite ?_ ?_
  · refine .trans (State.setPend_keeps _ _ _ _) ?_
    assumption
  refine .ite ?_ ?_
  · refine .trans (State.clearPend_keeps _ _) ?_
    assumption
  assumption

theorem State.modConv_keeps (s : State) (c : ℕ) (f : Conv → Conv) :
    Keeps true true true true (State.modConv s c f) s := by
  unfold State.modConv
  refine .congr (u := s) ?_
  exact .refl _

theorem State.setAdcCfg_keeps (s : State) (c : ℕ) (w : Word) :
    Keeps true true true true (State.setAdcCfg s c w) s := by
  unfold State.setAdcCfg
  extract_lets +onlyGivenNames v1
  clear_value v1
  extract_lets +onlyGivenNames v2
  clear_value v2
  refine .trans (State.modConv_keeps _ _ _) ?_
  refine .trans (State.setReg_keeps _ _ _ _) ?_
  exact .refl _

theorem State.setAdcField_keeps (s : State) (c : ℕ) (f : RegField) (v : ℕ) :
    Keeps true true true true (State.setAdcField s c f v) s := by
  unfold State.setAdcField
  refine .trans (State.setAdcCfg_keeps _ _ _) ?_
  exact .refl _

theorem State.refreshInput_keeps (s : State) (c : ℕ) :
    Keeps true true true true (State.refreshInput s c) s := by
  unfold State.refreshInput
  extract_lets +onlyGivenNames v1
  clear_value v1
  extract_lets +onlyGivenNames v2
  clear_value v2
  extract_lets +onlyGivenNames v3
  clear_value v3
  extract_lets +onlyGivenNames v4
  have h4 : Keeps true true true true v4 s := by
    unfold v4
    refine .ite ?_ ?_
    · exact .refl _
    refine .trans (State.setAdcField_keeps _ _ _ _) ?_
    refine .trans (State.setAdcField_keeps _ _ _ _) ?_
    exact .refl _
  clear_value v4
  extract_lets +onlyGivenNames v5
  have h5 : Keeps true true true true v5 s := by
    unfold v5
    refine .trans (State.pendInput_keeps _ _ _) ?_
    assumption
  clear_value v5
  split
  · refine .ite ?_ ?_
    · refine .congr (u := v5) ?_
      assumption
    assumption
  · assumption

theorem State.refreshInputs_keeps (s : State) (ch : ℕ) :
    Keeps true true true true (State.refreshInputs s ch) s := by
  unfold State.refreshInputs
  refine .trans (State.each_keeps (m := true) (k := true) (r := true) (p := true) ?_) ?_
  · intro a1_0 a1_1
    refine .trans (State.refreshInput_keeps _ _) ?_
    exact .refl _
  exact .refl _

theorem State.retire_keeps (s : State) (addr : ℕ) :
    Keeps true true true true (State.retire s addr) s := by
  unfold State.retire
  extract_lets +onlyGivenNames v1
  have h1 : Keeps true true true true v1 s := by
    unfold v1
    refine .trans (State.setReg_keeps _ _ _ _) ?_
    exact .refl _
  clear_value v1
  refine .trans (State.irqBit_keeps _ _ _) ?_
  refine .trans (State.setReg_keeps _ _ _ _) ?_
  refine .trans (State.setReg_keeps _ _ _ _) ?_
  assumption

theorem State.retireAll_keeps (s : State) :
    Keeps true true true true (State.retireAll s) s := by
  unfold State.retireAll
  extract_lets +onlyGivenNames v1
  have h1 : Keeps true true true true v1 s := by
    unfold v1
    split
    · extract_lets +onlyGivenNames v2
      have h2 : Keeps true true true true v2 s := by
        unfold v2
        refine .trans (State.retire_keeps _ _) ?_
        exact .refl _
      clear_value v2
      refine .congr (u := v2) ?_
      assumption
    · exact .refl _
  clear_value v1
  extract_lets +onlyGivenNames v3
  have h3 : Keeps true true true true v3 s := by
    unfold v3
    refine .trans (State.each_keeps (m := true) (k := true) (r := true) (p := true) ?_) ?_
    · intro a4_0 a4_1
      refine .trans (State.retire_keeps _ _) ?_
      exact .refl _
    assumption
  clear_value v3
  refine .congr (u := v3) ?_
  assumption

theorem State.retireIfOff_keeps (s : State) :
    Keeps true true true true (State.retireIfOff s) s := by
  unfold State.retireIfOff
  refine .ite ?_ ?_
  · refine .trans (State.retireAll_keeps _) ?_
    exact .refl _
  exact .refl _

theorem State.stageDsp_keeps (s : State) (ws : List (ℕ × Word)) (byOp : Bool) :
    Keeps true true true true (State.stageDsp s ws byOp) s := by
  unfold State.stageDsp
  extract_lets +onlyGivenNames v1
  have h1 : Keeps true true true true v1 s := by
    unfold v1
    split
    · extract_lets +onlyGivenNames v2
      clear_value v2
      refine .ite ?_ ?_
      · refine .congr (u := s) ?_
        exact .refl _
      exact .refl _
    · exact .refl _
  clear_value v1
  refine .congr (u := v1) ?_
  assumption

theorem State.releaseDisplay_keeps (s : State) :
    Keeps true true true true (State.releaseDisplay s) s := by
  unfold State.releaseDisplay
  extract_lets +onlyGivenNames v1
  clear_value v1
  extract_lets +onlyGivenNames v2
  clear_value v2
  refine .trans (State.retireIfOff_keeps _) ?_
  refine .trans (State.stageDsp_keeps _ _ _) ?_
  exact .refl _

theorem State.giveUp_keeps (s : State) (t : Task) (st : TaskState) (why : ℕ) :
    Keeps false true true false (State.giveUp s t st why) s := by
  unfold State.giveUp
  extract_lets +onlyGivenNames v1
  have h1 : Keeps false true true false v1 s := by
    unfold v1
    refine .trans (State.leaveMigration_keeps _ _) ?_
    exact .refl _
  clear_value v1
  extract_lets +onlyGivenNames v2
  have h2 : Keeps false true true false v2 s := by
    unfold v2
    refine .ite ?_ ?_
    · refine .trans (State.park_keeps _ _) ?_
      assumption
    assumption
  clear_value v2
  extract_lets +onlyGivenNames v3
  have h3 : Keeps false true true false v3 s := by
    unfold v3
    refine .trans (State.setTask_keeps _ _) ?_
    assumption
  clear_value v3
  extract_lets +onlyGivenNames v4
  have h4 : Keeps false true true false v4 s := by
    unfold v4
    refine .trans (State.dropRings_keeps _ _ _) ?_
    refine .trans (State.leavePipes_keeps _ _) ?_
    assumption
  clear_value v4
  extract_lets +onlyGivenNames v5
  have h5 : Keeps false true true false v5 s := by
    unfold v5
    refine .ite ?_ ?_
    · refine .trans (State.coresRelease_keeps _ _) ?_
      assumption
    assumption
  clear_value v5
  extract_lets +onlyGivenNames v6
  have h6 : Keeps false true true false v6 s := by
    unfold v6
    refine .ite ?_ ?_
    · refine .trans (State.releaseDisplay_keeps _) ?_
      assumption
    assumption
  clear_value v6
  extract_lets +onlyGivenNames v7
  have h7 : Keeps false true true false v7 s := by
    unfold v7
    refine .trans (State.modTask_keeps _ _ _) ?_
    assumption
  clear_value v7
  refine .trans (State.bumpEpoch_keeps _) ?_
  refine .trans (State.refreshInputs_keeps _ _) ?_
  assumption

theorem State.dropMemory_keeps (s : State) (id : ℕ) :
    Keeps true true true false (State.dropMemory s id) s := by
  unfold State.dropMemory
  split
  · exact .refl _
  · extract_lets +onlyGivenNames v1
    clear_value v1
    extract_lets +onlyGivenNames v2
    have h2 : Keeps true true true false v2 s := by
      unfold v2
      refine .trans (State.modPhn_keeps _ _) ?_
      exact .refl _
    clear_value v2
    extract_lets +onlyGivenNames v3
    have h3 : Keeps true true true false v3 s := by
      unfold v3
      refine .congr (u := v2) ?_
      assumption
    clear_value v3
    refine .trans (State.setTask_keeps _ _) ?_
    assumption

theorem State.sendLsa_keeps (s : State) (task : ℕ) (port : ℕ) (type : ℕ) (body : List Byte) :
    Keeps true true true true (State.sendLsa s task port type body) s := by
  unfold State.sendLsa
  refine .trans (State.emit_keeps _ _) ?_
  exact .refl _

theorem State.sendOpen_keeps (s : State) (task : ℕ) (port : ℕ) :
    Keeps true true true true (State.sendOpen s task port) s := by
  unfold State.sendOpen
  extract_lets +onlyGivenNames v1
  clear_value v1
  refine .trans (State.sendLsa_keeps _ _ _ _ _) ?_
  exact .refl _

theorem State.setPorts_keeps (s : State) (task : ℕ) (grants : List (ℕ × ℕ)) :
    Keeps true true true true (State.setPorts s task grants) s := by
  unfold State.setPorts
  split
  · exact .refl _
  · extract_lets +onlyGivenNames v1
    clear_value v1
    extract_lets +onlyGivenNames v2
    clear_value v2
    extract_lets +onlyGivenNames v3
    have h3 : Keeps true true true true v3 s := by
      unfold v3
      refine .trans (State.modStream_keeps _ _ _) ?_
      exact .refl _
    clear_value v3
    extract_lets +onlyGivenNames v4
    clear_value v4
    extract_lets +onlyGivenNames v5
    clear_value v5
    extract_lets +onlyGivenNames v6
    have h6 : Keeps true true true true v6 s := by
      unfold v6
      refine .trans (State.each_keeps (m := true) (k := true) (r := true) (p := true) ?_) ?_
      · intro a7_0 a7_1
        refine .trans (State.sendOpen_keeps _ _ _) ?_
        refine .trans (State.modPort_keeps _ _ _ _) ?_
        exact .refl _
      assumption
    clear_value v6
    refine .trans (State.refreshStr_keeps _) ?_
    assumption

theorem State.openStream_keeps (s : State) (t : Task) (grants : List (ℕ × ℕ)) :
    Keeps true true true true (State.openStream s t grants) s := by
  unfold State.openStream
  refine .ite ?_ ?_
  · refine .trans (State.setPorts_keeps _ _ _) ?_
    exact .refl _
  extract_lets +onlyGivenNames v1
  clear_value v1
  extract_lets +onlyGivenNames v2
  have h2 : Keeps true true true true v2 s := by
    unfold v2
    refine .congr (u := s) ?_
    exact .refl _
  clear_value v2
  extract_lets +onlyGivenNames v3
  have h3 : Keeps true true true true v3 s := by
    unfold v3
    refine .ite ?_ ?_
    · refine .trans (State.modRing_keeps _ _ _) ?_
      assumption
    assumption
  clear_value v3
  refine .trans (State.setPorts_keeps _ _ _) ?_
  assumption

theorem State.wantEpoch_keeps (s : State) (p : ℕ) :
    Keeps true true true true (State.wantEpoch s p) s := by
  unfold State.wantEpoch
  refine .trans (State.modCapture_keeps _ _ _) ?_
  exact .refl _

theorem State.capStart_keeps (s : State) (p : ℕ) :
    Keeps true true true true (State.capStart s p) s := by
  unfold State.capStart
  refine .trans (State.modCapture_keeps _ _ _) ?_
  refine .trans (State.wantEpoch_keeps _ _) ?_
  refine .trans (State.wrEnter_keeps _ _ _) ?_
  exact .refl _

theorem State.modChain_keeps (s : State) (p : ℕ) (f : Chain → Chain) :
    Keeps true true true true (State.modChain s p f) s := by
  unfold State.modChain
  refine .congr (u := s) ?_
  exact .refl _

theorem State.chainBlank_keeps (s : State) (p : ℕ) (a : ℕ) :
    Keeps true true true true (State.chainBlank s p a) s := by
  unfold State.chainBlank
  extract_lets +onlyGivenNames v1
  clear_value v1
  extract_lets +onlyGivenNames v2
  clear_value v2
  extract_lets +onlyGivenNames v3
  clear_value v3
  refine .trans (State.modChain_keeps _ _ _) ?_
  exact .refl _

theorem State.chainZero_keeps (s : State) (p : ℕ) (a : ℕ) :
    Keeps true true true true (State.chainZero s p a) s := by
  unfold State.chainZero
  refine .trans (State.modChain_keeps _ _ _) ?_
  refine .trans (State.chainBlank_keeps _ _ _) ?_
  exact .refl _

theorem State.dropEst_keeps (s : State) (p : ℕ) :
    Keeps true true true true (State.dropEst s p) s := by
  unfold State.dropEst
  refine .ite ?_ ?_
  · exact .refl _
  refine .trans (State.setReg_keeps _ _ _ _) ?_
  refine .trans (State.modChain_keeps _ _ _) ?_
  exact .refl _

theorem State.loadNco_keeps (s : State) (p : ℕ) (a : ℕ) :
    Keeps true true true true (State.loadNco s p a) s := by
  unfold State.loadNco
  refine .trans (State.modChain_keeps _ _ _) ?_
  exact .refl _

theorem State.chainStart_keeps (s : State) (p : ℕ) :
    Keeps true true true true (State.chainStart s p) s := by
  unfold State.chainStart
  extract_lets +onlyGivenNames v1
  clear_value v1
  extract_lets +onlyGivenNames v2
  have h2 : Keeps true true true true v2 s := by
    unfold v2
    refine .trans (State.loadNco_keeps _ _ _) ?_
    refine .trans (State.chainZero_keeps _ _ _) ?_
    refine .trans (State.dropEst_keeps _ _) ?_
    exact .refl _
  clear_value v2
  refine .ite ?_ ?_
  · refine .trans (State.modEngine_keeps _ _ _) ?_
    assumption
  assumption

theorem State.modCrc_keeps (s : State) (key : ℕ) (f : CrcUnit → CrcUnit) :
    Keeps true true true true (State.modCrc s key f) s := by
  unfold State.modCrc
  refine .congr (u := s) ?_
  exact .refl _

theorem State.refreshCrc_keeps (s : State) (key : ℕ) :
    Keeps true true true true (State.refreshCrc s key) s := by
  unfold State.refreshCrc
  extract_lets +onlyGivenNames v1
  clear_value v1
  refine .trans (State.wb_keeps _ _ _ _) ?_
  refine .trans (State.setReg_keeps _ _ _ _) ?_
  exact .refl _

theorem State.crcLoad_keeps (s : State) (key : ℕ) :
    Keeps true true true true (State.crcLoad s key) s := by
  unfold State.crcLoad
  extract_lets +onlyGivenNames v1
  have h1 : Keeps true true true true v1 s := by
    unfold v1
    refine .trans (State.modCrc_keeps _ _ _) ?_
    exact .refl _
  clear_value v1
  refine .trans (State.refreshCrc_keeps _ _) ?_
  refine .trans (State.setPair_keeps _ _ _ _) ?_
  assumption

theorem State.fftStart_keeps (s : State) (p : ℕ) :
    Keeps true true true true (State.fftStart s p) s := by
  unfold State.fftStart
  refine .trans (State.modEngine_keeps _ _ _) ?_
  exact .refl _

theorem State.grtStart_keeps (s : State) (p : ℕ) :
    Keeps true true true true (State.grtStart s p) s := by
  unfold State.grtStart
  refine .trans (State.modGrat_keeps _ _ _) ?_
  refine .trans (State.accEnter_keeps _ _ _) ?_
  exact .refl _

theorem State.insStart_keeps (s : State) (p : ℕ) :
    Keeps true true true true (State.insStart s p) s := by
  unfold State.insStart
  refine .trans (State.insShow_keeps _ _) ?_
  refine .trans (foldl_keeps (m := true) (k := true) (r := true) (p := true) ?_) ?_
  · intro a1_0 a1_1
    refine .trans (State.insetStart_keeps _ _ _ _) ?_
    exact .refl _
  exact .refl _

theorem State.startHook_keeps (s : State) (key : ℕ) :
    Keeps true true true true (State.startHook s key) s := by
  unfold State.startHook
  extract_lets +onlyGivenNames v1
  clear_value v1
  split
  · refine .trans (State.chainStart_keeps _ _) ?_
    exact .refl _
  · refine .trans (State.insStart_keeps _ _) ?_
    exact .refl _
  · refine .trans (State.fftStart_keeps _ _) ?_
    exact .refl _
  · refine .trans (State.grtStart_keeps _ _) ?_
    exact .refl _
  · refine .trans (State.capStart_keeps _ _) ?_
    exact .refl _
  · refine .trans (State.traceBegin_keeps _ _ _) ?_
    exact .refl _
  · refine .trans (State.crcLoad_keeps _ _) ?_
    exact .refl _
  · exact .refl _

theorem State.startPage_keeps (s : State) (key : ℕ) :
    Keeps true true true true (State.startPage s key) s := by
  unfold State.startPage
  refine .ite ?_ ?_
  · exact .refl _
  refine .trans (State.enter_keeps _ _ _) ?_
  refine .trans (State.startHook_keeps _ _) ?_
  refine .trans (State.modPage_keeps _ _ _) ?_
  exact .refl _

theorem State.takeRings_keeps (s : State) (t : Task) :
    Keeps true true true true (State.takeRings s t) s := by
  unfold State.takeRings
  extract_lets +onlyGivenNames v1
  clear_value v1
  extract_lets +onlyGivenNames v2
  clear_value v2
  extract_lets +onlyGivenNames v3
  have h3 : Keeps true true true true v3 s := by
    unfold v3
    refine .trans (State.each_keeps (m := true) (k := true) (r := true) (p := true) ?_) ?_
    · intro a4_0 a4_1
      refine .trans (State.startPage_keeps _ _) ?_
      exact .refl _
    exact .refl _
  clear_value v3
  refine .trans (State.each_keeps (m := true) (k := true) (r := true) (p := true) ?_) ?_
  · intro a5_0 a5_1
    refine .trans (State.modRing_keeps _ _ _) ?_
    exact .refl _
  assumption

theorem State.commitPlace_keeps (s : State) (t : Task) :
    Keeps true true true false (State.commitPlace s t) s := by
  unfold State.commitPlace
  extract_lets +onlyGivenNames v1
  clear_value v1
  extract_lets +onlyGivenNames v2
  have h2 : Keeps true true true false v2 s := by
    unfold v2
    refine .ite ?_ ?_
    · refine .trans (State.dropMemory_keeps _ _) ?_
      exact .refl _
    exact .refl _
  clear_value v2
  extract_lets +onlyGivenNames v3
  clear_value v3
  extract_lets +onlyGivenNames v4
  have h4 : Keeps true true true false v4 s := by
    unfold v4
    refine .trans (State.bumpEpoch_keeps _) ?_
    refine .trans (State.takeRings_keeps _ _) ?_
    refine .trans (State.setTask_keeps _ _) ?_
    assumption
  clear_value v4
  extract_lets +onlyGivenNames v5
  have h5 : Keeps true true true false v5 s := by
    unfold v5
    refine .ite ?_ ?_
    · assumption
    refine .trans (State.openStream_keeps _ _ _) ?_
    assumption
  clear_value v5
  refine .trans (State.refreshPhn_keeps _) ?_
  refine .trans (State.refreshInputs_keeps _ _) ?_
  assumption

theorem State.readmitOne_keeps (s : State) (id : ℕ) :
    Keeps true true true false (State.readmitOne s id) s := by
  unfold State.readmitOne
  split
  · exact .refl _
  · refine .ite ?_ ?_
    · exact .refl _
    split
    · refine .ite ?_ ?_
      · exact .refl _
      refine .trans (State.notify_keeps _ _ _ _ _) ?_
      refine .trans (State.commitPlace_keeps _ _) ?_
      exact .refl _
    · exact .refl _

theorem State.readmit_keeps (s : State) :
    Keeps true true true false (State.readmit s) s := by
  unfold State.readmit
  refine .trans (State.each_keeps (m := true) (k := true) (r := true) (p := false) ?_) ?_
  · intro a1_0 a1_1
    refine .trans (State.readmitOne_keeps _ _) ?_
    exact .refl _
  exact .refl _

theorem State.endTask_keeps (s : State) (id : ℕ) (st : TaskState) (code : ℕ) (sub : ℕ) :
    Keeps false true true false (State.endTask s id st code sub) s := by
  unfold State.endTask
  split
  · exact .refl _
  · refine .ite ?_ ?_
    · exact .refl _
    extract_lets +onlyGivenNames v1
    have h1 : Keeps false true true false v1 s := by
      unfold v1
      refine .ite ?_ ?_
      · refine .trans (State.drainSheets_keeps _ _) ?_
        exact .refl _
      exact .refl _
    clear_value v1
    extract_lets +onlyGivenNames v2
    have h2 : Keeps false true true false v2 s := by
      unfold v2
      refine .trans (State.repoint_keeps _ _ _) ?_
      refine .trans (State.giveUp_keeps _ _ _ _) ?_
      assumption
    clear_value v2
    extract_lets +onlyGivenNames v3
    have h3 : Keeps false true true false v3 s := by
      unfold v3
      refine .trans (State.modPhn_keeps _ _) ?_
      assumption
    clear_value v3
    extract_lets +onlyGivenNames v4
    clear_value v4
    extract_lets +onlyGivenNames v5
    have h5 : Keeps false true true false v5 s := by
      unfold v5
      refine .congr (u := v3) ?_
      assumption
    clear_value v5
    extract_lets +onlyGivenNames v6
    clear_value v6
    extract_lets +onlyGivenNames v7
    have h7 : Keeps false true true false v7 s := by
      unfold v7
      refine .trans (State.closeStream_keeps _ _ _ _ _ _) ?_
      assumption
    clear_value v7
    extract_lets +onlyGivenNames v8
    have h8 : Keeps false true true false v8 s := by
      unfold v8
      refine .ite ?_ ?_
      · refine .trans (State.notify_keeps _ _ _ _ _) ?_
        assumption
      refine .ite ?_ ?_
      · refine .trans (State.notify_keeps _ _ _ _ _) ?_
        assumption
      assumption
    clear_value v8
    refine .trans (State.refreshPhn_keeps _) ?_
    refine .trans (State.readmit_keeps _) ?_
    assumption

theorem State.report_keeps (s : State) (e : List Byte) (r : Report) (a : Answer) :
    Keeps true true true true (State.report s e r a).1 s := by
  unfold State.report
  refine .ite_fst ?_ ?_
  · dsimp only
    exact .refl _
  extract_lets +onlyGivenNames v1
  clear_value v1
  refine .ite_fst ?_ ?_
  · dsimp only
    exact .refl _
  dsimp only
  refine .trans (State.emit_keeps _ _) ?_
  exact .refl _

theorem State.suspendTask_keeps (s : State) (id : ℕ) (why : ℕ) :
    Keeps false true true false (State.suspendTask s id why) s := by
  unfold State.suspendTask
  split
  · exact .refl _
  · refine .ite ?_ ?_
    · refine .trans (State.dropMemory_keeps _ _) ?_
      exact .refl _
    extract_lets +onlyGivenNames v1
    have h1 : Keeps false true true false v1 s := by
      unfold v1
      refine .trans (State.giveUp_keeps _ _ _ _) ?_
      exact .refl _
    clear_value v1
    extract_lets +onlyGivenNames v2
    have h2 : Keeps false true true false v2 s := by
      unfold v2
      refine .trans (State.refreshStr_keeps _) ?_
      refine .trans (State.modStream_keeps _ _ _) ?_
      assumption
    clear_value v2
    refine .ite ?_ ?_
    · assumption
    refine .trans (State.notify_keeps _ _ _ _ _) ?_
    assumption

theorem State.changeOwner_keeps (s : State) (key : ℕ) (o : Owner) :
    Keeps true true true true (State.changeOwner s key o) s := by
  unfold State.changeOwner
  refine .ite ?_ ?_
  · exact .refl _
  refine .trans (State.modPage_keeps _ _ _) ?_
  exact .refl _

theorem State.cancelOp_keeps (s : State) (key : ℕ) :
    Keeps true true true true (State.cancelOp s key) s := by
  unfold State.cancelOp
  refine .trans (State.endOp_keeps _ _ _ _ _) ?_
  exact .refl _

theorem State.setOut_keeps (s : State) (o : ℕ) (n : ℕ) :
    Keeps true true true true (State.setOut s o n) s := by
  unfold State.setOut
  refine .trans (State.wf_keeps _ _ _ _) ?_
  exact .refl _

theorem State.dspReset_keeps (s : State) :
    Keeps true true true true (State.dspReset s) s := by
  unfold State.dspReset
  refine .trans (State.retireAll_keeps _) ?_
  refine .trans (State.setOut_keeps _ _ _) ?_
  refine .trans (State.setOut_keeps _ _ _) ?_
  refine .congr (u := s) ?_
  exact .refl _

theorem State.countBy_keeps (s : State) (key : ℕ) (f : RegField) (n : ℕ) :
    Keeps true true true true (State.countBy s key f n) s := by
  unfold State.countBy
  refine .trans (State.wf_keeps _ _ _ _) ?_
  exact .refl _

theorem State.modLink_keeps (s : State) (key : ℕ) (f : LinkEnd → LinkEnd) :
    Keeps true true true true (State.modLink s key f) s := by
  unfold State.modLink
  refine .congr (u := s) ?_
  exact .refl _

theorem State.finishNp_keeps (s : State) (key : ℕ) (e : TagEntry) (status : ℕ) :
    Keeps true true true true (State.finishNp s key e status) s := by
  unfold State.finishNp
  extract_lets +onlyGivenNames v1
  clear_value v1
  split
  · refine .trans (State.emit_keeps _ _) ?_
    exact .refl _
  · refine .trans (State.modLink_keeps _ _ _) ?_
    exact .refl _

theorem State.refreshLink_keeps (s : State) (key : ℕ) :
    Keeps true true true true (State.refreshLink s key) s := by
  unfold State.refreshLink
  extract_lets +onlyGivenNames v1
  clear_value v1
  extract_lets +onlyGivenNames v2
  extract_lets +onlyGivenNames v3
  have h3 : Keeps true true true true v3 s := by
    unfold v3
    refine .trans (State.wf_keeps _ _ _ _) ?_
    exact .refl _
  clear_value v3
  refine .trans (State.setReg_keeps _ _ _ _) ?_
  assumption

theorem State.fence_keeps (s : State) (key : ℕ) :
    Keeps true true true true (State.fence s key) s := by
  unfold State.fence
  extract_lets +onlyGivenNames v1
  clear_value v1
  refine .ite ?_ ?_
  · exact .refl _
  extract_lets +onlyGivenNames v2
  clear_value v2
  extract_lets +onlyGivenNames v3
  clear_value v3
  extract_lets +onlyGivenNames v4
  have h4 : Keeps true true true true v4 s := by
    unfold v4
    refine .trans (State.modLink_keeps _ _ _) ?_
    exact .refl _
  clear_value v4
  extract_lets +onlyGivenNames v5
  have h5 : Keeps true true true true v5 s := by
    unfold v5
    refine .trans (foldl_keeps (m := true) (k := true) (r := true) (p := true) ?_) ?_
    · intro a6_0 a6_1
      refine .trans (State.finishNp_keeps _ _ _ _) ?_
      exact .refl _
    assumption
  clear_value v5
  refine .trans (State.refreshLink_keeps _ _) ?_
  refine .trans (State.setErr_keeps _ _ _) ?_
  refine .trans (State.countBy_keeps _ _ _ _) ?_
  assumption

theorem State.convEnter_keeps (s : State) (c : ℕ) (n : ℕ) :
    Keeps true true true true (State.convEnter s c n) s := by
  unfold State.convEnter
  refine .trans (State.wf_keeps _ _ _ _) ?_
  exact .refl _

theorem State.updateLocked_keeps (s : State) (c : ℕ) :
    Keeps true true true true (State.updateLocked s c) s := by
  unfold State.updateLocked
  refine .trans (State.wb_keeps _ _ _ _) ?_
  exact .refl _

theorem State.convDown_keeps (s : State) (c : ℕ) (n : ℕ) :
    Keeps true true true true (State.convDown s c n) s := by
  unfold State.convDown
  extract_lets +onlyGivenNames v1
  have h1 : Keeps true true true true v1 s := by
    unfold v1
    refine .trans (State.convEnter_keeps _ _ _) ?_
    exact .refl _
  clear_value v1
  extract_lets +onlyGivenNames v2
  have h2 : Keeps true true true true v2 s := by
    unfold v2
    refine .trans (State.wb_keeps _ _ _ _) ?_
    assumption
  clear_value v2
  extract_lets +onlyGivenNames v3
  have h3 : Keeps true true true true v3 s := by
    unfold v3
    refine .ite ?_ ?_
    · refine .trans (State.wb_keeps _ _ _ _) ?_
      assumption
    assumption
  clear_value v3
  refine .trans (State.updateLocked_keeps _ _) ?_
  assumption

theorem State.framesStop_keeps (s : State) (key : ℕ) :
    Keeps true true true true (State.framesStop s key) s := by
  unfold State.framesStop
  split
  · refine .ite ?_ ?_
    · refine .trans (State.convDown_keeps _ _ _) ?_
      exact .refl _
    exact .refl _
  · refine .ite ?_ ?_
    · refine .trans (State.modConv_keeps _ _ _) ?_
      exact .refl _
    exact .refl _

theorem State.linkEnter_keeps (s : State) (key : ℕ) (n : ℕ) (timeout : ℕ) :
    Keeps true true true true (State.linkEnter s key n timeout) s := by
  unfold State.linkEnter
  refine .trans (State.modLink_keeps _ _ _) ?_
  refine .trans (State.wf_keeps _ _ _ _) ?_
  exact .refl _

theorem State.linkDown_keeps (s : State) (key : ℕ) :
    Keeps true true true true (State.linkDown s key) s := by
  unfold State.linkDown
  refine .ite ?_ ?_
  · exact .refl _
  refine .trans (State.framesStop_keeps _ _) ?_
  refine .trans (State.wb_keeps _ _ _ _) ?_
  refine .trans (State.linkEnter_keeps _ _ _ _) ?_
  refine .trans (State.fence_keeps _ _) ?_
  exact .refl _

theorem State.modTb_keeps (s : State) (f : TimeBase → TimeBase) :
    Keeps true true true true (State.modTb s f) s := by
  unfold State.modTb
  refine .congr (u := s) ?_
  exact .refl _

theorem State.syncOff_keeps (s : State) :
    Keeps true true true true (State.syncOff s) s := by
  unfold State.syncOff
  refine .trans (State.refreshHold_keeps _) ?_
  refine .trans (State.modTb_keeps _ _) ?_
  exact .refl _

theorem State.resetHook_keeps (s : State) (key : ℕ) :
    Keeps true true true false (State.resetHook s key) s := by
  unfold State.resetHook
  extract_lets +onlyGivenNames v1
  clear_value v1
  extract_lets +onlyGivenNames v2
  clear_value v2
  extract_lets +onlyGivenNames v3
  clear_value v3
  split
  · refine .trans (State.modChain_keeps _ _ _) ?_
    exact .refl _
  · refine .congr (u := s) ?_
    exact .refl _
  · refine .congr (u := s) ?_
    exact .refl _
  · refine .congr (u := s) ?_
    exact .refl _
  · refine .trans (State.modTrig_keeps _ _ _) ?_
    exact .refl _
  · refine .trans (State.modTrig_keeps _ _ _) ?_
    exact .refl _
  · extract_lets +onlyGivenNames v4
    have h4 : Keeps true true true false v4 s := by
      unfold v4
      refine .trans (State.each_keeps (m := true) (k := true) (r := true) (p := false) ?_) ?_
      · intro a5_0 a5_1
        refine .trans (State.modTrig_keeps _ _ _) ?_
        exact .refl _
      exact .refl _
    clear_value v4
    refine .congr (u := v4) ?_
    assumption
  · refine .trans (State.modCapture_keeps _ _ _) ?_
    exact .refl _
  · refine .trans (State.modCapture_keeps _ _ _) ?_
    exact .refl _
  · refine .trans (State.modConv_keeps _ _ _) ?_
    exact .refl _
  · refine .congr (u := s) ?_
    exact .refl _
  · refine .trans (State.cmpDrop_keeps _ _) ?_
    exact .refl _
  · refine .trans (State.cancelGroup_keeps _ _) ?_
    exact .refl _
  · refine .congr (u := s) ?_
    exact .refl _
  · refine .trans (State.dspReset_keeps _) ?_
    exact .refl _
  · refine .trans (State.linkDown_keeps _ _) ?_
    exact .refl _
  · refine .trans (State.closePhoin_keeps _) ?_
    exact .refl _
  · refine .trans (State.modTb_keeps _ _) ?_
    refine .trans (State.syncOff_keeps _) ?_
    exact .refl _
  · refine .congr (u := s) ?_
    exact .refl _
  · exact .refl _

theorem State.softReset_keeps (s : State) (key : ℕ) :
    Keeps true true true false (State.softReset s key) s := by
  unfold State.softReset
  refine .ite ?_ ?_
  · exact .refl _
  extract_lets +onlyGivenNames v1
  have h1 : Keeps true true true false v1 s := by
    unfold v1
    refine .trans (State.clearPend_keeps _ _) ?_
    refine .trans (State.resetHook_keeps _ _) ?_
    refine .trans (State.cancelOp_keeps _ _) ?_
    exact .refl _
  clear_value v1
  extract_lets +onlyGivenNames v2
  have h2 : Keeps true true true false v2 s := by
    unfold v2
    refine .congr (u := v1) ?_
    assumption
  clear_value v2
  extract_lets +onlyGivenNames v3
  clear_value v3
  extract_lets +onlyGivenNames v4
  have h4 : Keeps true true true false v4 s := by
    unfold v4
    refine .trans (State.modPage_keeps _ _ _) ?_
    assumption
  clear_value v4
  refine .ite ?_ ?_
  · refine .trans (State.modPage_keeps _ _ _) ?_
    assumption
  refine .trans (State.modPage_keeps _ _ _) ?_
  assumption

theorem State.reservePage_keeps (s : State) (key : ℕ) :
    Keeps false true true false (State.reservePage s key) s := by
  unfold State.reservePage
  extract_lets +onlyGivenNames v1
  clear_value v1
  extract_lets +onlyGivenNames v2
  have h2 : Keeps false true true false v2 s := by
    unfold v2
    refine .trans (State.softReset_keeps _ _) ?_
    refine .trans (State.stopPage_keeps _ _) ?_
    exact .refl _
  clear_value v2
  refine .trans (State.changeOwner_keeps _ _ _) ?_
  refine .trans (State.modPage_keeps _ _ _) ?_
  assumption

theorem State.surveyFails_keeps (s : State) (code : ℕ) (sub : ℕ) :
    Keeps true true true true (State.surveyFails s code sub) s := by
  unfold State.surveyFails
  split
  · refine .ite ?_ ?_
    · exact .refl _
    refine .congr (u := s) ?_
    exact .refl _
  · exact .refl _

theorem State.takePlace_keeps (s : State) (t : Task) (y2 : Task) :
    Keeps false true true false (State.takePlace s t y2) s := by
  unfold State.takePlace
  refine .ite ?_ ?_
  · refine .trans (State.commitPlace_keeps _ _) ?_
    refine .trans (State.dropRings_keeps _ _ _) ?_
    exact .refl _
  refine .ite ?_ ?_
  · refine .trans (State.commitPlace_keeps _ _) ?_
    refine .trans (State.modTask_keeps _ _ _) ?_
    refine .trans (State.dropRings_keeps _ _ _) ?_
    refine .trans (State.coresRelease_keeps _ _) ?_
    exact .refl _
  refine .trans (State.bumpEpoch_keeps _) ?_
  refine .trans (State.takeRings_keeps _ _) ?_
  refine .trans (State.setTask_keeps _ _) ?_
  refine .trans (State.idleGroups_keeps _ _ _) ?_
  exact .refl _

theorem State.takeKeys_keeps (s : State) (keys : List ℕ) :
    Keeps false true true false (State.takeKeys s keys) s := by
  unfold State.takeKeys
  extract_lets +onlyGivenNames v1
  have h1 : Keeps false true true false v1 s := by
    unfold v1
    refine .trans (State.each_keeps (m := false) (k := true) (r := true) (p := false) ?_) ?_
    · intro a2_0 a2_1
      split
      · refine .trans (State.takePlace_keeps _ _ _) ?_
        exact .refl _
      · refine .trans (State.suspendTask_keeps _ _ _) ?_
        exact .refl _
    exact .refl _
  clear_value v1
  extract_lets +onlyGivenNames v3
  have h3 : Keeps false true true false v3 s := by
    unfold v3
    split
    · refine .ite ?_ ?_
      · refine .trans (State.surveyFails_keeps _ _ _) ?_
        assumption
      assumption
    · assumption
  clear_value v3
  refine .trans (State.each_keeps (m := false) (k := true) (r := true) (p := false) ?_) ?_
  · intro a4_0 a4_1
    refine .trans (State.reservePage_keeps _ _) ?_
    exact .refl _
  assumption

theorem State.finishHeld_keeps (s : State) :
    Keeps false true true false (State.finishHeld s) s := by
  unfold State.finishHeld
  split
  · exact .refl _
  · extract_lets +onlyGivenNames v1
    clear_value v1
    extract_lets +onlyGivenNames v2
    clear_value v2
    refine .ite ?_ ?_
    · refine .ite ?_ ?_
      · exact .refl _
      extract_lets +onlyGivenNames v3
      have h3 : Keeps false true true false v3 s := by
        unfold v3
        refine .trans (State.modPhn_keeps _ _) ?_
        exact .refl _
      clear_value v3
      extract_lets +onlyGivenNames v4
      have h4 : Keeps false true true false v4 s := by
        unfold v4
        refine .ite ?_ ?_
        · refine .trans (State.suspendTask_keeps _ _ _) ?_
          assumption
        refine .trans (State.endTask_keeps _ _ _ _ _) ?_
        assumption
      clear_value v4
      refine .trans (State.completeHeld_keeps _ _ _) ?_
      assumption
    refine .ite ?_ ?_
    · exact .refl _
    extract_lets +onlyGivenNames v5
    have h5 : Keeps false true true false v5 s := by
      unfold v5
      refine .trans (State.modPhn_keeps _ _) ?_
      exact .refl _
    clear_value v5
    split
    · refine .ite ?_ ?_
      · refine .trans (State.completeHeld_keeps _ _ _) ?_
        assumption
      refine .ite ?_ ?_
      · refine .trans (State.completeHeld_keeps _ _ _) ?_
        assumption
      extract_lets +onlyGivenNames v6
      have h6 : Keeps false true true false v6.1 s := by
        unfold v6
        refine .trans (State.report_keeps _ _ _ _) ?_
        assumption
      clear_value v6
      refine .trans (State.completeHeld_keeps _ _ _) ?_
      assumption
    · refine .ite ?_ ?_
      · refine .ite ?_ ?_
        · refine .trans (State.completeHeld_keeps _ _ _) ?_
          assumption
        refine .trans (State.completeHeld_keeps _ _ _) ?_
        refine .trans (State.takeKeys_keeps _ _) ?_
        assumption
      extract_lets +onlyGivenNames v7
      clear_value v7
      extract_lets +onlyGivenNames v8
      have h8 : Keeps false true true false v8.1 s := by
        unfold v8
        refine .trans (State.report_keeps _ _ _ _) ?_
        assumption
      clear_value v8
      refine .trans (State.completeHeld_keeps _ _ _) ?_
      assumption

theorem State.beginNext_keeps (s : State) :
    Keeps false true true false (State.beginNext s) s := by
  unfold State.beginNext
  refine .ite ?_ ?_
  · refine .trans (State.finishHeld_keeps _) ?_
    refine .trans (State.activateHold_keeps _ _) ?_
    exact .refl _
  refine .trans (State.finishHeld_keeps _) ?_
  refine .ite ?_ ?_
  · exact .refl _
  refine .trans (State.beginFrom_keeps _ _) ?_
  exact .refl _

theorem State.advanceTo_keeps (s : State) (six : Nat) : Keeps true true true true (s.advanceTo six) s := by
  refine ⟨rfl, id, fun w => ?_, id, rfl, fun _ => rfl, fun _ => rfl, fun _ => rfl, fun _ => rfl⟩
  unfold State.advanceTo State.sixWf
  dsimp only
  split
  · exact Nat.mod_lt _ (by decide)
  · exact w

theorem State.dropTarget_keeps (s : State) (goal : List Task) (target : List ℕ) :
    Keeps false true true true (State.dropTarget s goal target) s := by
  unfold State.dropTarget
  extract_lets +onlyGivenNames v1
  clear_value v1
  extract_lets +onlyGivenNames v2
  clear_value v2
  extract_lets +onlyGivenNames v3
  have h3 : Keeps false true true true v3 s := by
    unfold v3
    refine .trans (State.each_keeps (m := false) (k := true) (r := true) (p := true) ?_) ?_
    · intro a4_0 a4_1
      refine .trans (State.stopPage_keeps _ _) ?_
      exact .refl _
    exact .refl _
  clear_value v3
  extract_lets +onlyGivenNames v5
  have h5 : Keeps false true true true v5 s := by
    unfold v5
    refine .trans (State.each_keeps (m := false) (k := true) (r := true) (p := true) ?_) ?_
    · intro a6_0 a6_1
      refine .trans (State.applyAll_keeps _ _) ?_
      exact .refl _
    assumption
  clear_value v5
  refine .trans (State.each_keeps (m := false) (k := true) (r := true) (p := true) ?_) ?_
  · intro a7_0 a7_1
    refine .trans (State.disconnect_keeps _ _) ?_
    exact .refl _
  assumption

theorem State.migFail_keeps (s : State) (m : Migration) :
    Keeps false true true false (State.migFail s m) s := by
  unfold State.migFail
  extract_lets +onlyGivenNames v1
  have h1 : Keeps false true true false v1 s := by
    unfold v1
    refine .trans (State.modPhn_keeps _ _) ?_
    exact .refl _
  clear_value v1
  extract_lets +onlyGivenNames v2
  have h2 : Keeps false true true false v2 s := by
    unfold v2
    refine .trans (State.each_keeps (m := false) (k := true) (r := true) (p := false) ?_) ?_
    · intro a3_0 a3_1
      refine .trans (State.modTask_keeps _ _ _) ?_
      exact .refl _
    assumption
  clear_value v2
  extract_lets +onlyGivenNames v4
  have h4 : Keeps false true true false v4 s := by
    unfold v4
    refine .trans (State.rotWake_keeps _) ?_
    refine .trans (State.dropTarget_keeps _ _ _) ?_
    assumption
  clear_value v4
  extract_lets +onlyGivenNames v5
  have h5 : Keeps false true true false v5 s := by
    unfold v5
    refine .trans (State.logPage_keeps _ _ _ _ _ _ _) ?_
    assumption
  clear_value v5
  refine .ite ?_ ?_
  · refine .trans (State.modPhn_keeps _ _) ?_
    assumption
  refine .trans (State.beginNext_keeps _) ?_
  refine .trans (State.noteFailed_keeps _ _ _) ?_
  assumption

theorem State.idlePipe_keeps (s : State) (p : ℕ) :
    Keeps false true true true (State.idlePipe s p) s := by
  unfold State.idlePipe
  split
  · refine .trans (State.disconnect_keeps _ _) ?_
    refine .trans (State.each_keeps (m := false) (k := true) (r := true) (p := true) ?_) ?_
    · intro a1_0 a1_1
      refine .trans (State.stopPage_keeps _ _) ?_
      exact .refl _
    exact .refl _
  · extract_lets +onlyGivenNames v2
    clear_value v2
    extract_lets +onlyGivenNames v3
    have h3 : Keeps false true true true v3 s := by
      unfold v3
      refine .trans (State.each_keeps (m := false) (k := true) (r := true) (p := true) ?_) ?_
      · intro a4_0 a4_1
        refine .trans (State.stopPage_keeps _ _) ?_
        exact .refl _
      exact .refl _
    clear_value v3
    refine .ite ?_ ?_
    · refine .trans (State.applyAll_keeps _ _) ?_
      assumption
    assumption

theorem State.idleTrg_keeps (s : State) (r : ℕ) :
    Keeps false true true true (State.idleTrg s r) s := by
  unfold State.idleTrg
  refine .ite ?_ ?_
  · exact .refl _
  refine .trans (State.stopPage_keeps _ _) ?_
  exact .refl _

theorem State.migRelease_keeps (s : State) (m : Migration) :
    Keeps false true true false (State.migRelease s m) s := by
  unfold State.migRelease
  extract_lets +onlyGivenNames v1
  have h1 : Keeps false true true false v1 s := by
    unfold v1
    refine .trans (State.modPhn_keeps _ _) ?_
    exact .refl _
  clear_value v1
  extract_lets +onlyGivenNames v2
  have h2 : Keeps false true true false v2 s := by
    unfold v2
    refine .trans (State.each_keeps (m := false) (k := true) (r := true) (p := false) ?_) ?_
    · intro a3_0 a3_1
      refine .trans (State.idlePipe_keeps _ _) ?_
      exact .refl _
    assumption
  clear_value v2
  extract_lets +onlyGivenNames v4
  have h4 : Keeps false true true false v4 s := by
    unfold v4
    refine .trans (State.each_keeps (m := false) (k := true) (r := true) (p := false) ?_) ?_
    · intro a5_0 a5_1
      refine .trans (State.idleTrg_keeps _ _) ?_
      exact .refl _
    assumption
  clear_value v4
  extract_lets +onlyGivenNames v6
  have h6 : Keeps false true true false v6 s := by
    unfold v6
    refine .trans (State.each_keeps (m := false) (k := true) (r := true) (p := false) ?_) ?_
    · intro a7_0 a7_1
      refine .trans (State.notify_keeps _ _ _ _ _) ?_
      refine .trans (State.bumpEpoch_keeps _) ?_
      refine .trans (State.modTask_keeps _ _ _) ?_
      exact .refl _
    assumption
  clear_value v6
  refine .trans (State.beginNext_keeps _) ?_
  refine .trans (State.readmit_keeps _) ?_
  refine .trans (State.rotWake_keeps _) ?_
  assumption

theorem State.refreshFft_keeps (s : State) (p : ℕ) :
    Keeps true true true true (State.refreshFft s p) s := by
  unfold State.refreshFft
  extract_lets +onlyGivenNames v1
  clear_value v1
  extract_lets +onlyGivenNames v2
  clear_value v2
  extract_lets +onlyGivenNames v3
  clear_value v3
  extract_lets +onlyGivenNames v4
  clear_value v4
  extract_lets +onlyGivenNames v5
  have h5 : Keeps true true true true v5 s := by
    unfold v5
    refine .trans (State.wb_keeps _ _ _ _) ?_
    refine .trans (State.wf_keeps _ _ _ _) ?_
    exact .refl _
  clear_value v5
  extract_lets +onlyGivenNames v6
  have h6 : Keeps true true true true v6 s := by
    unfold v6
    refine .trans (State.wf_keeps _ _ _ _) ?_
    assumption
  clear_value v6
  extract_lets +onlyGivenNames v7
  clear_value v7
  extract_lets +onlyGivenNames v8
  have h8 : Keeps true true true true v8 s := by
    unfold v8
    refine .trans (State.setReg_keeps _ _ _ _) ?_
    assumption
  clear_value v8
  refine .ite ?_ ?_
  · refine .trans (State.setErr_keeps _ _ _) ?_
    assumption
  assumption

theorem State.refreshGrt_keeps (s : State) (p : ℕ) :
    Keeps true true true true (State.refreshGrt s p) s := by
  unfold State.refreshGrt
  extract_lets +onlyGivenNames v1
  clear_value v1
  extract_lets +onlyGivenNames v2
  clear_value v2
  extract_lets +onlyGivenNames v3
  clear_value v3
  extract_lets +onlyGivenNames v4
  have h4 : Keeps true true true true v4 s := by
    unfold v4
    refine .trans (State.wb_keeps _ _ _ _) ?_
    refine .trans (State.wf_keeps _ _ _ _) ?_
    exact .refl _
  clear_value v4
  refine .ite ?_ ?_
  · refine .trans (State.setErr_keeps _ _ _) ?_
    assumption
  assumption

theorem State.refreshPipe_keeps (s : State) (p : ℕ) :
    Keeps true true true true (State.refreshPipe s p) s := by
  unfold State.refreshPipe
  extract_lets +onlyGivenNames v1
  clear_value v1
  extract_lets +onlyGivenNames v2
  have h2 : Keeps true true true true v2 s := by
    unfold v2
    refine .trans (State.wf_keeps _ _ _ _) ?_
    exact .refl _
  clear_value v2
  extract_lets +onlyGivenNames v3
  have h3 : Keeps true true true true v3 s := by
    unfold v3
    refine .trans (State.setReg_keeps _ _ _ _) ?_
    assumption
  clear_value v3
  extract_lets +onlyGivenNames v4
  have h4 : Keeps true true true true v4 s := by
    unfold v4
    refine .trans (State.wf_keeps _ _ _ _) ?_
    assumption
  clear_value v4
  refine .trans (State.refreshLatency_keeps _ _) ?_
  refine .trans (State.refreshGrt_keeps _ _) ?_
  refine .trans (State.refreshFft_keeps _ _) ?_
  assumption

theorem State.ddcRefresh_keeps (s : State) (p : ℕ) :
    Keeps true true true true (State.ddcRefresh s p) s := by
  unfold State.ddcRefresh
  extract_lets +onlyGivenNames v1
  have h1 : Keeps true true true true v1 s := by
    unfold v1
    refine .trans (State.mirrorGang_keeps _ _) ?_
    refine .trans (State.refreshPipe_keeps _ _) ?_
    exact .refl _
  clear_value v1
  split
  · refine .ite ?_ ?_
    · refine .trans (State.refreshPipe_keeps _ _) ?_
      assumption
    assumption
  · assumption

theorem State.blankPages_keeps (s : State) (keys : List ℕ) :
    Keeps true true true true (State.blankPages s keys) s := by
  unfold State.blankPages
  refine .trans (State.each_keeps (m := true) (k := true) (r := true) (p := true) ?_) ?_
  · intro a1_0 a1_1
    refine .ite ?_ ?_
    · exact .refl _
    refine .trans (State.modPage_keeps _ _ _) ?_
    exact .refl _
  exact .refl _

theorem State.countDropped_keeps (s : State) (key : ℕ) (n : ℕ) :
    Keeps true true true true (State.countDropped s key n) s := by
  unfold State.countDropped
  refine .ite ?_ ?_
  · refine .trans (State.modPage_keeps _ _ _) ?_
    exact .refl _
  exact .refl _

theorem State.missSheet_keeps (s : State) (p : ℕ) :
    Keeps true true true true (State.missSheet s p) s := by
  unfold State.missSheet
  refine .trans (State.modCapture_keeps _ _ _) ?_
  refine .trans (State.count_keeps _ _ _) ?_
  exact .refl _

theorem State.appendSheet_keeps (s : State) (p : ℕ) (h : Sheet) :
    Keeps false true true true (State.appendSheet s p h) s := by
  unfold State.appendSheet
  refine .ite ?_ ?_
  · refine .trans (State.missSheet_keeps _ _) ?_
    exact .refl _
  extract_lets +onlyGivenNames v1
  clear_value v1
  extract_lets +onlyGivenNames v2
  clear_value v2
  extract_lets +onlyGivenNames v3
  clear_value v3
  extract_lets +onlyGivenNames v4
  have h4 : Keeps false true true true v4 s := by
    unfold v4
    refine .trans (State.modCapture_keeps _ _ _) ?_
    exact .refl _
  clear_value v4
  refine .trans (State.refreshCap_keeps _ _) ?_
  refine .trans (State.writeSheet_keeps _ _ _ _) ?_
  refine .trans (State.wf_keeps _ _ _ _) ?_
  assumption

theorem State.chunkSheet_keeps (s : State) (p : ℕ) (w : ℕ) (label : ℕ) :
    Keeps false true true true (State.chunkSheet s p w label) s := by
  unfold State.chunkSheet
  extract_lets +onlyGivenNames v1
  clear_value v1
  extract_lets +onlyGivenNames v2
  clear_value v2
  refine .ite ?_ ?_
  · refine .trans (State.appendSheet_keeps _ _ _) ?_
    exact .refl _
  exact .refl _

theorem State.closeGap_keeps (s : State) (p : ℕ) (label : ℕ) :
    Keeps true true true true (State.closeGap s p label) s := by
  unfold State.closeGap
  split
  · exact .refl _
  · extract_lets +onlyGivenNames v1
    clear_value v1
    extract_lets +onlyGivenNames v2
    clear_value v2
    extract_lets +onlyGivenNames v3
    have h3 : Keeps true true true true v3 s := by
      unfold v3
      refine .ite ?_ ?_
      · refine .trans (State.setPair_keeps _ _ _ _) ?_
        exact .refl _
      exact .refl _
    clear_value v3
    extract_lets +onlyGivenNames v4
    clear_value v4
    extract_lets +onlyGivenNames v5
    have h5 : Keeps true true true true v5 s := by
      unfold v5
      refine .trans (State.modCapture_keeps _ _ _) ?_
      assumption
    clear_value v5
    refine .ite ?_ ?_
    · assumption
    refine .trans (State.addReady_keeps _ _ _) ?_
    assumption

theorem State.beginEpoch_keeps (s : State) (p : ℕ) (label : ℕ) :
    Keeps true true true true (State.beginEpoch s p label) s := by
  unfold State.beginEpoch
  extract_lets +onlyGivenNames v1
  clear_value v1
  extract_lets +onlyGivenNames v2
  clear_value v2
  extract_lets +onlyGivenNames v3
  have h3 : Keeps true true true true v3 s := by
    unfold v3
    refine .trans (State.closeGap_keeps _ _ _) ?_
    exact .refl _
  clear_value v3
  extract_lets +onlyGivenNames v4
  have h4 : Keeps true true true true v4 s := by
    unfold v4
    refine .trans (State.setSix3_keeps _ _ _ _) ?_
    refine .trans (State.setPair_keeps _ _ _ _) ?_
    refine .trans (State.setPair_keeps _ _ _ _) ?_
    assumption
  clear_value v4
  refine .trans (State.modCapture_keeps _ _ _) ?_
  assumption

theorem State.epochIfOwed_keeps (s : State) (p : ℕ) (label : ℕ) :
    Keeps true true true true (State.epochIfOwed s p label) s := by
  unfold State.epochIfOwed
  refine .ite ?_ ?_
  · refine .trans (State.beginEpoch_keeps _ _ _) ?_
    exact .refl _
  exact .refl _

theorem State.unprotect_keeps (s : State) (p : ℕ) :
    Keeps false true true true (State.unprotect s p) s := by
  unfold State.unprotect
  extract_lets +onlyGivenNames v1
  clear_value v1
  extract_lets +onlyGivenNames v2
  have h2 : Keeps false true true true v2 s := by
    unfold v2
    refine .trans (State.modCapture_keeps _ _ _) ?_
    exact .refl _
  clear_value v2
  extract_lets +onlyGivenNames v3
  have h3 : Keeps false true true true v3 s := by
    unfold v3
    split
    · refine .trans (State.writeSheet_keeps _ _ _ _) ?_
      assumption
    · assumption
  clear_value v3
  refine .trans (State.refreshCap_keeps _ _) ?_
  refine .trans (State.count_keeps _ _ _) ?_
  assumption

theorem State.overwrite_keeps (s : State) (p w a : Nat) : Keeps false true true true (s.overwrite p w a) s := by
  induction a generalizing s with
  | zero => exact .refl _
  | succ n ih =>
    unfold State.overwrite
    split
    · exact .trans (ih _) (State.unprotect_keeps _ _)
    · exact .refl _

theorem State.storeSample_keeps (s : State) (p : ℕ) (w : ℕ) (c : ChainSample) :
    Keeps false true true true (State.storeSample s p w c) s := by
  unfold State.storeSample
  extract_lets +onlyGivenNames v1
  clear_value v1
  extract_lets +onlyGivenNames v2
  clear_value v2
  extract_lets +onlyGivenNames v3
  clear_value v3
  extract_lets +onlyGivenNames v4
  clear_value v4
  extract_lets +onlyGivenNames v5
  clear_value v5
  extract_lets +onlyGivenNames v6
  clear_value v6
  extract_lets +onlyGivenNames v7
  clear_value v7
  extract_lets +onlyGivenNames v8
  clear_value v8
  extract_lets +onlyGivenNames v9
  have h9 : Keeps false true true true v9 s := by
    unfold v9
    refine .ite ?_ ?_
    · refine .trans (State.writeMem_keeps _ _ _) ?_
      exact .refl _
    refine .trans (State.writeMem_keeps _ _ _) ?_
    exact .refl _
  clear_value v9
  extract_lets +onlyGivenNames v10
  clear_value v10
  extract_lets +onlyGivenNames v11
  clear_value v11
  extract_lets +onlyGivenNames v12
  clear_value v12
  extract_lets +onlyGivenNames v13
  have h13 : Keeps false true true true v13 s := by
    unfold v13
    refine .trans (State.writeMem_keeps _ _ _) ?_
    assumption
  clear_value v13
  extract_lets +onlyGivenNames v14
  clear_value v14
  extract_lets +onlyGivenNames v15
  clear_value v15
  extract_lets +onlyGivenNames v16
  clear_value v16
  extract_lets +onlyGivenNames v17
  have h17 : Keeps false true true true v17 s := by
    unfold v17
    refine .ite ?_ ?_
    · refine .trans (State.writeMem_keeps _ _ _) ?_
      assumption
    assumption
  clear_value v17
  extract_lets +onlyGivenNames v18
  clear_value v18
  extract_lets +onlyGivenNames v19
  clear_value v19
  extract_lets +onlyGivenNames v20
  have h20 : Keeps false true true true v20 s := by
    unfold v20
    refine .ite ?_ ?_
    · refine .trans (State.writeMem_keeps _ _ _) ?_
      assumption
    assumption
  clear_value v20
  refine .trans (State.modCapture_keeps _ _ _) ?_
  assumption

theorem State.setErrLogged_keeps (s : State) (key : ℕ) (bit : ℕ) :
    Keeps true true true true (State.setErrLogged s key bit) s := by
  unfold State.setErrLogged
  refine .ite ?_ ?_
  · refine .trans (State.logPage_keeps _ _ _ _ _ _ _) ?_
    exact .refl _
  refine .trans (State.setErr_keeps _ _ _) ?_
  exact .refl _

theorem State.writerStop_keeps (s : State) (p : ℕ) (label : ℕ) :
    Keeps false true true true (State.writerStop s p label) s := by
  unfold State.writerStop
  extract_lets +onlyGivenNames v1
  clear_value v1
  extract_lets +onlyGivenNames v2
  have h2 : Keeps false true true true v2 s := by
    unfold v2
    refine .trans (State.setSix3_keeps _ _ _ _) ?_
    refine .trans (State.wrEnter_keeps _ _ _) ?_
    refine .trans (State.endEpoch_keeps _ _) ?_
    exact .refl _
  clear_value v2
  extract_lets +onlyGivenNames v3
  have h3 : Keeps false true true true v3 s := by
    unfold v3
    refine .trans (State.modCapture_keeps _ _ _) ?_
    assumption
  clear_value v3
  refine .trans (State.setErrLogged_keeps _ _ _) ?_
  refine .trans (State.irqBit_keeps _ _ _) ?_
  assumption

theorem State.writeSample_keeps (s : State) (p : ℕ) (c : ChainSample) :
    Keeps false true true true (State.writeSample s p c) s := by
  unfold State.writeSample
  extract_lets +onlyGivenNames v1
  clear_value v1
  extract_lets +onlyGivenNames v2
  have h2 : Keeps false true true true v2 s := by
    unfold v2
    refine .trans (State.epochIfOwed_keeps _ _ _) ?_
    exact .refl _
  clear_value v2
  refine .ite ?_ ?_
  · assumption
  extract_lets +onlyGivenNames v3
  clear_value v3
  extract_lets +onlyGivenNames v4
  have h4 : Keeps false true true true v4 s := by
    unfold v4
    refine .ite ?_ ?_
    · refine .trans (State.overwrite_keeps _ _ _ _) ?_
      assumption
    assumption
  clear_value v4
  refine .ite ?_ ?_
  · refine .trans (State.writerStop_keeps _ _ _) ?_
    assumption
  extract_lets +onlyGivenNames v5
  have h5 : Keeps false true true true v5 s := by
    unfold v5
    refine .trans (State.storeSample_keeps _ _ _ _) ?_
    assumption
  clear_value v5
  extract_lets +onlyGivenNames v6
  have h6 : Keeps false true true true v6 s := by
    unfold v6
    refine .trans (State.setPair_keeps _ _ _ _) ?_
    assumption
  clear_value v6
  refine .trans (State.refreshCap_keeps _ _) ?_
  refine .trans (State.chunkSheet_keeps _ _ _ _) ?_
  assumption

theorem State.captureSample_keeps (s : State) (p : ℕ) :
    Keeps false true true true (State.captureSample s p) s := by
  unfold State.captureSample
  split
  · exact .refl _
  · extract_lets +onlyGivenNames v1
    have h1 : Keeps false true true true v1 s := by
      unfold v1
      refine .trans (State.modChain_keeps _ _ _) ?_
      exact .refl _
    clear_value v1
    extract_lets +onlyGivenNames v2
    clear_value v2
    split
    · refine .ite ?_ ?_
      · refine .trans (State.writeSample_keeps _ _ _) ?_
        assumption
      refine .trans (State.countDropped_keeps _ _ _) ?_
      refine .trans (State.modCapture_keeps _ _ _) ?_
      refine .trans (State.pauseEnd_keeps _ _) ?_
      assumption
    · refine .ite ?_ ?_
      · refine .trans (State.countDropped_keeps _ _ _) ?_
        assumption
      refine .trans (State.writeSample_keeps _ _ _) ?_
      assumption

theorem State.capNewEpoch_keeps (s : State) (p : ℕ) :
    Keeps false true true true (State.capNewEpoch s p) s := by
  unfold State.capNewEpoch
  refine .ite ?_ ?_
  · refine .trans (State.wantEpoch_keeps _ _) ?_
    refine .trans (State.endEpoch_keeps _ _) ?_
    refine .trans (State.each_keeps (m := false) (k := true) (r := true) (p := true) ?_) ?_
    · intro a1_0 a1_1
      refine .trans (State.captureSample_keeps _ _) ?_
      exact .refl _
    exact .refl _
  exact .refl _

theorem State.changeMemory_keeps (s : State) (p : ℕ) (old : Task) (new : Task) :
    Keeps false true true true (State.changeMemory s p old new) s := by
  unfold State.changeMemory
  refine .ite ?_ ?_
  · exact .refl _
  refine .ite ?_ ?_
  · extract_lets +onlyGivenNames v1
    have h1 : Keeps false true true true v1 s := by
      unfold v1
      refine .trans (State.endEpoch_keeps _ _) ?_
      exact .refl _
    clear_value v1
    extract_lets +onlyGivenNames v2
    clear_value v2
    extract_lets +onlyGivenNames v3
    have h3 : Keeps false true true true v3 s := by
      unfold v3
      refine .congr (u := v1) ?_
      assumption
    clear_value v3
    extract_lets +onlyGivenNames v4
    have h4 : Keeps false true true true v4 s := by
      unfold v4
      refine .trans (State.modCapture_keeps _ _ _) ?_
      assumption
    clear_value v4
    refine .trans (State.capNewEpoch_keeps _ _) ?_
    refine .trans (State.refreshCap_keeps _ _) ?_
    refine .trans (State.setReg_keeps _ _ _ _) ?_
    assumption
  refine .ite ?_ ?_
  · extract_lets +onlyGivenNames v5
    have h5 : Keeps false true true true v5 s := by
      unfold v5
      refine .congr (u := s) ?_
      exact .refl _
    clear_value v5
    refine .trans (State.modCapture_keeps _ _ _) ?_
    refine .trans (State.each_keeps (m := false) (k := true) (r := true) (p := true) ?_) ?_
    · intro a6_0 a6_1
      refine .trans (State.setReg_keeps _ _ _ _) ?_
      exact .refl _
    assumption
  exact .refl _

theorem State.moveEngine_keeps (s : State) (src : ℕ) (dst : ℕ) (h : ℕ) :
    Keeps true true true true (State.moveEngine s src dst h) s := by
  unfold State.moveEngine
  extract_lets +onlyGivenNames v1
  clear_value v1
  extract_lets +onlyGivenNames v2
  clear_value v2
  extract_lets +onlyGivenNames v3
  have h3 : Keeps true true true true v3 s := by
    unfold v3
    refine .trans (State.modEngine_keeps _ _ _) ?_
    exact .refl _
  clear_value v3
  extract_lets +onlyGivenNames v4
  clear_value v4
  extract_lets +onlyGivenNames v5
  have h5 : Keeps true true true true v5 s := by
    unfold v5
    refine .trans (State.modChain_keeps _ _ _) ?_
    assumption
  clear_value v5
  refine .congr (u := v5) ?_
  assumption

theorem State.moveGrat_keeps (s : State) (src : ℕ) (dst : ℕ) :
    Keeps true true true true (State.moveGrat s src dst) s := by
  unfold State.moveGrat
  extract_lets +onlyGivenNames v1
  clear_value v1
  extract_lets +onlyGivenNames v2
  clear_value v2
  extract_lets +onlyGivenNames v3
  have h3 : Keeps true true true true v3 s := by
    unfold v3
    refine .trans (State.modGrat_keeps _ _ _) ?_
    exact .refl _
  clear_value v3
  extract_lets +onlyGivenNames v4
  have h4 : Keeps true true true true v4 s := by
    unfold v4
    refine .trans (State.accEnter_keeps _ _ _) ?_
    refine .trans (State.setReg_keeps _ _ _ _) ?_
    assumption
  clear_value v4
  refine .congr (u := v4) ?_
  assumption

theorem State.moveInsets_keeps (s : State) (old : Task) (new : Task) :
    Keeps true true true true (State.moveInsets s old new) s := by
  unfold State.moveInsets
  extract_lets +onlyGivenNames v1
  clear_value v1
  extract_lets +onlyGivenNames v2
  have h2 : Keeps true true true true v2 s := by
    unfold v2
    refine .trans (State.each_keeps (m := true) (k := true) (r := true) (p := true) ?_) ?_
    · intro a3_0 a3_1
      refine .trans (State.modInset_keeps _ _ _ _) ?_
      exact .refl _
    exact .refl _
  clear_value v2
  extract_lets +onlyGivenNames v4
  refine .congr (u := v2) ?_
  assumption

theorem State.movePlanes_keeps (s : State) (src : ℕ) (dst : ℕ) :
    Keeps true true true true (State.movePlanes s src dst) s := by
  unfold State.movePlanes
  extract_lets +onlyGivenNames v1
  clear_value v1
  extract_lets +onlyGivenNames v2
  have h2 : Keeps true true true true v2 s := by
    unfold v2
    refine .trans (State.each_keeps (m := true) (k := true) (r := true) (p := true) ?_) ?_
    · intro a3_0 a3_1
      refine .trans (State.setReg_keeps _ _ _ _) ?_
      refine .trans (State.setReg_keeps _ _ _ _) ?_
      exact .refl _
    exact .refl _
  clear_value v2
  refine .trans (State.modCapture_keeps _ _ _) ?_
  refine .trans (State.modCapture_keeps _ _ _) ?_
  assumption

theorem State.moveRecords_keeps (s : State) (t : Task) (src : ℕ) (dst : ℕ) :
    Keeps true true true true (State.moveRecords s t src dst) s := by
  unfold State.moveRecords
  extract_lets +onlyGivenNames v1
  have h1 : Keeps true true true true v1 s := by
    unfold v1
    refine .trans (State.repoint_keeps _ _ _) ?_
    exact .refl _
  clear_value v1
  refine .ite ?_ ?_
  · extract_lets +onlyGivenNames v2
    refine .congr (u := v1) ?_
    assumption
  assumption

theorem State.moveTrig_keeps (s : State) (src dst h : Nat) (old new : List Mapping) : Keeps true true true true (s.moveTrig src dst h old new) s := by
  have hp : ∀ (s : State) (key : Nat) (f : RegField) (n : Nat) (b : Bool), Keeps true true true true (s.wf key f (putBit (s.rf key f) n b)) s :=
    fun s key f n b => State.wf_keeps _ _ _ _
  unfold State.moveTrig
  extract_lets +onlyGivenNames a bit put s1
  have h1 : Keeps true true true true s1 s := State.modTrig_keeps _ _ _
  clear_value s1
  refine .trans (State.each_keeps (m := true) (k := true) (r := true) (p := true) ?_) h1
  intro s x
  extract_lets +onlyGivenNames n k
  refine .ite ?_ (.ite ?_ (.ite ?_ (.refl _)))
  · exact .trans (hp _ _ _ _ _) (.trans (hp _ _ _ _ _) (State.modTrig_keeps _ _ _))
  · exact .trans (hp _ _ _ _ _) (.trans (hp _ _ _ _ _) (State.modTrig_keeps _ _ _))
  · extract_lets +onlyGivenNames e
    exact .trans (State.setEvent_keeps _ _ _ _) (State.modTrig_keeps _ _ _)

end Sys2Proof.Machine
end

