-- ==== Sys2Proof/Laws/Keeps3.lean ====
section
/-! SUPPORT. What the operations and commands keep, part 3. -/

set_option Elab.async false

namespace Sys2Proof.Machine

theorem State.moveWriter_keeps (s : State) (src : ℕ) (dst : ℕ) :
    Keeps true true true true (State.moveWriter s src dst) s := by
  unfold State.moveWriter
  extract_lets +onlyGivenNames v1
  clear_value v1
  extract_lets +onlyGivenNames v2
  clear_value v2
  extract_lets +onlyGivenNames v3
  have h3 : Keeps true true true true v3 s := by
    unfold v3
    refine .trans (State.modPage_keeps _ _ _) ?_
    exact .refl _
  clear_value v3
  extract_lets +onlyGivenNames v4
  have h4 : Keeps true true true true v4 s := by
    unfold v4
    refine .trans (State.modCapture_keeps _ _ _) ?_
    refine .trans (State.modPage_keeps _ _ _) ?_
    assumption
  clear_value v4
  extract_lets +onlyGivenNames v5
  have h5 : Keeps true true true true v5 s := by
    unfold v5
    refine .trans (State.modCapture_keeps _ _ _) ?_
    assumption
  clear_value v5
  extract_lets +onlyGivenNames v6
  clear_value v6
  refine .trans (State.modChain_keeps _ _ _) ?_
  refine .trans (State.modChain_keeps _ _ _) ?_
  assumption

theorem State.runPage_keeps (s : State) (key : ℕ) :
    Keeps true true true true (State.runPage s key) s := by
  unfold State.runPage
  refine .ite ?_ ?_
  · exact .refl _
  refine .trans (State.enter_keeps _ _ _) ?_
  refine .trans (State.modPage_keeps _ _ _) ?_
  exact .refl _

theorem State.modTrigOut_keeps (s : State) (r : ℕ) (f : TrigOut → TrigOut) :
    Keeps true true true true (State.modTrigOut s r f) s := by
  unfold State.modTrigOut
  refine .congr (u := s) ?_
  exact .refl _

theorem State.addOcc_keeps (s : State) (p : ℕ) (o : Occ) :
    Keeps true true true true (State.addOcc s p o) s := by
  unfold State.addOcc
  refine .trans (State.modTrig_keeps _ _ _) ?_
  exact .refl _

theorem State.extEdge_keeps (s : State) (r : ℕ) (input : ℕ) (six : ℕ) (fine : ℕ) :
    Keeps true true true true (State.extEdge s r input six fine) s := by
  unfold State.extEdge
  extract_lets +onlyGivenNames v1
  clear_value v1
  refine .ite ?_ ?_
  · exact .refl _
  extract_lets +onlyGivenNames v2
  have h2 : Keeps true true true true v2 s := by
    unfold v2
    refine .trans (State.modTrigOut_keeps _ _ _) ?_
    exact .refl _
  clear_value v2
  refine .trans (foldl_keeps (m := true) (k := true) (r := true) (p := true) ?_) ?_
  · intro a3_0 a3_1
    refine .trans (State.addOcc_keeps _ _ _) ?_
    exact .refl _
  assumption

theorem State.xtrigFalls_keeps (s : State) (r : ℕ) (k : ℕ) (six : ℕ) :
    Keeps true true true true (State.xtrigFalls s r k six) s := by
  unfold State.xtrigFalls
  extract_lets +onlyGivenNames v1
  have h1 : Keeps true true true true v1 s := by
    unfold v1
    refine .trans (State.emit_keeps _ _) ?_
    exact .refl _
  clear_value v1
  refine .ite ?_ ?_
  · assumption
  refine .trans (State.extEdge_keeps _ _ _ _ _) ?_
  refine .trans (State.extEdge_keeps _ _ _ _ _) ?_
  assumption

theorem State.driveOutputs_keeps (s : State) (r : ℕ) (i : ℕ) (six : ℕ) :
    Keeps true true true true (State.driveOutputs s r i six) s := by
  unfold State.driveOutputs
  refine .ite ?_ ?_
  · exact .refl _
  extract_lets +onlyGivenNames v1
  clear_value v1
  extract_lets +onlyGivenNames v2
  clear_value v2
  extract_lets +onlyGivenNames v3
  have h3 : Keeps true true true true v3 s := by
    unfold v3
    refine .ite ?_ ?_
    · refine .trans (State.emit_keeps _ _) ?_
      exact .refl _
    exact .refl _
  clear_value v3
  extract_lets +onlyGivenNames v4
  have h4 : Keeps true true true true v4 s := by
    unfold v4
    refine .ite ?_ ?_
    · refine .trans (State.modTrigOut_keeps _ _ _) ?_
      assumption
    exact .refl _
  clear_value v4
  refine .trans (foldl_keeps (m := true) (k := true) (r := true) (p := true) ?_) ?_
  · intro a5_0 a5_1
    refine .ite ?_ ?_
    · extract_lets +onlyGivenNames v6
      have h6 : Keeps true true true true v6 a5_0 := by
        unfold v6
        refine .ite ?_ ?_
        · exact .refl _
        refine .trans (State.xtrigFalls_keeps _ _ _ _) ?_
        exact .refl _
      clear_value v6
      refine .trans (State.modTrigOut_keeps _ _ _) ?_
      assumption
    exact .refl _
  assumption

theorem State.evEvaluate_keeps (s : State) (p : ℕ) (e : ℕ) :
    Keeps true true true true (State.evEvaluate s p e).1 s := by
  unfold State.evEvaluate
  split
  · dsimp only
    exact .refl _
  · extract_lets +onlyGivenNames v1
    clear_value v1
    extract_lets +onlyGivenNames v2
    clear_value v2
    extract_lets +onlyGivenNames v3
    clear_value v3
    extract_lets +onlyGivenNames v4
    have h4 : Keeps true true true true v4 s := by
      unfold v4
      refine .trans (State.advanceTo_keeps _ _) ?_
      exact .refl _
    clear_value v4
    extract_lets +onlyGivenNames v5
    clear_value v5
    extract_lets +onlyGivenNames v6
    clear_value v6
    extract_lets +onlyGivenNames v7
    clear_value v7
    refine .ite_fst ?_ ?_
    · dsimp only
      refine .trans (State.setEvent_keeps _ _ _ _) ?_
      assumption
    extract_lets +onlyGivenNames v8
    have h8 : Keeps true true true true v8 s := by
      unfold v8
      refine .trans (State.setEvent_keeps _ _ _ _) ?_
      assumption
    clear_value v8
    extract_lets +onlyGivenNames v9
    have h9 : Keeps true true true true v9 s := by
      unfold v9
      refine .ite ?_ ?_
      · refine .trans (State.count_keeps _ _ _) ?_
        assumption
      assumption
    clear_value v9
    extract_lets +onlyGivenNames v10
    have h10 : Keeps true true true true v10 s := by
      unfold v10
      refine .ite ?_ ?_
      · refine .trans (State.count_keeps _ _ _) ?_
        assumption
      assumption
    clear_value v10
    extract_lets +onlyGivenNames v11
    have h11 : Keeps true true true true v11 s := by
      unfold v11
      refine .trans (State.modTrig_keeps _ _ _) ?_
      assumption
    clear_value v11
    split
    · dsimp only
      assumption
    · extract_lets +onlyGivenNames v12
      have h12 : Keeps true true true true v12 s := by
        unfold v12
        refine .trans (State.irqBit_keeps _ _ _) ?_
        refine .trans (State.count_keeps _ _ _) ?_
        assumption
      clear_value v12
      extract_lets +onlyGivenNames v13
      have h13 : Keeps true true true true v13 s := by
        unfold v13
        refine .trans (State.driveOutputs_keeps _ _ _ _) ?_
        assumption
      clear_value v13
      dsimp only
      assumption

theorem State.evSettle_keeps (p h n : Nat) (s : State) : Keeps true true true true (State.evSettle p h n s).1 s := by
  induction n generalizing s with
  | zero => exact .refl _
  | succ n ih =>
    rw [State.evSettle]
    split
    · exact .refl _
    · rename_i e _
      obtain ⟨a, b, _, d, f, g, hh, i, j⟩ := State.evEvaluate_keeps s p e
      exact .trans (ih _) ⟨a, b, id, d, f, g, hh, i, j⟩

theorem State.sheetEvent_keeps (s : State) (f : Firing) :
    Keeps false true true true (State.sheetEvent s f) s := by
  unfold State.sheetEvent
  extract_lets +onlyGivenNames v1
  clear_value v1
  extract_lets +onlyGivenNames v2
  clear_value v2
  refine .ite ?_ ?_
  · exact .refl _
  split
  · refine .trans (State.missSheet_keeps _ _) ?_
    exact .refl _
  · extract_lets +onlyGivenNames v3
    clear_value v3
    extract_lets +onlyGivenNames v4
    clear_value v4
    extract_lets +onlyGivenNames v5
    clear_value v5
    refine .ite ?_ ?_
    · refine .trans (State.count_keeps _ _ _) ?_
      exact .refl _
    extract_lets +onlyGivenNames v6
    clear_value v6
    extract_lets +onlyGivenNames v7
    clear_value v7
    extract_lets +onlyGivenNames v8
    clear_value v8
    extract_lets +onlyGivenNames v9
    clear_value v9
    extract_lets +onlyGivenNames v10
    clear_value v10
    extract_lets +onlyGivenNames v11
    clear_value v11
    extract_lets +onlyGivenNames v12
    have h12 : Keeps false true true true v12 s := by
      unfold v12
      refine .trans (State.appendSheet_keeps _ _ _) ?_
      exact .refl _
    clear_value v12
    refine .ite ?_ ?_
    · assumption
    refine .trans (State.modCapture_keeps _ _ _) ?_
    assumption

theorem State.settleTrig_keeps (s : State) (src h : Nat) : Keeps false true true true (s.settleTrig src h) s := by
  unfold State.settleTrig
  extract_lets +onlyGivenNames r
  exact .trans (State.each_keeps (m := false) (k := true) (r := true) (p := true) fun s x => State.sheetEvent_keeps _ _) ((State.evSettle_keeps _ _ _ _).to)

theorem State.moveTask_keeps (s : State) (all : List Task) (h : ℕ) (y3 : Task) :
    Keeps false true true false (State.moveTask s all h y3) s := by
  unfold State.moveTask
  split
  · exact .refl _
  · extract_lets +onlyGivenNames v1
    clear_value v1
    extract_lets +onlyGivenNames v2
    clear_value v2
    extract_lets +onlyGivenNames v3
    have h3 : Keeps false true true false v3 s := by
      unfold v3
      refine .trans (State.settleTrig_keeps _ _ _) ?_
      exact .refl _
    clear_value v3
    extract_lets +onlyGivenNames v4
    clear_value v4
    extract_lets +onlyGivenNames v5
    have h5 : Keeps false true true false v5 s := by
      unfold v5
      refine .trans (State.applyAll_keeps _ _) ?_
      refine .trans (State.blankPages_keeps _ _) ?_
      assumption
    clear_value v5
    extract_lets +onlyGivenNames v6
    have h6 : Keeps false true true false v6 s := by
      unfold v6
      refine .trans (State.changeMemory_keeps _ _ _ _) ?_
      refine .trans (State.moveWriter_keeps _ _ _) ?_
      assumption
    clear_value v6
    extract_lets +onlyGivenNames v7
    have h7 : Keeps false true true false v7 s := by
      unfold v7
      refine .ite ?_ ?_
      · refine .trans (State.applyAll_keeps _ _) ?_
        assumption
      assumption
    clear_value v7
    extract_lets +onlyGivenNames v8
    have h8 : Keeps false true true false v8 s := by
      unfold v8
      refine .ite ?_ ?_
      · refine .trans (State.moveGrat_keeps _ _ _) ?_
        refine .trans (State.moveEngine_keeps _ _ _ _) ?_
        refine .trans (State.changeMemory_keeps _ _ _ _) ?_
        refine .trans (State.movePlanes_keeps _ _ _) ?_
        assumption
      assumption
    clear_value v8
    extract_lets +onlyGivenNames v9
    have h9 : Keeps false true true false v9 s := by
      unfold v9
      refine .trans (State.moveRecords_keeps _ _ _ _) ?_
      refine .trans (State.moveInsets_keeps _ _ _) ?_
      refine .trans (State.moveTrig_keeps _ _ _ _ _ _) ?_
      assumption
    clear_value v9
    extract_lets +onlyGivenNames v10
    have h10 : Keeps false true true false v10 s := by
      unfold v10
      refine .trans (State.each_keeps (m := false) (k := true) (r := true) (p := false) ?_) ?_
      · intro a11_0 a11_1
        refine .trans (State.runPage_keeps _ _) ?_
        exact .refl _
      assumption
    clear_value v10
    extract_lets +onlyGivenNames v12
    have h12 : Keeps false true true false v12 s := by
      unfold v12
      refine .trans (State.setTask_keeps _ _) ?_
      assumption
    clear_value v12
    refine .ite ?_ ?_
    · assumption
    refine .trans (State.setPorts_keeps _ _ _) ?_
    assumption

theorem State.moveGroup_keeps (s : State) (h : ℕ) (goal : List Task) :
    Keeps false true true false (State.moveGroup s h goal) s := by
  unfold State.moveGroup
  extract_lets +onlyGivenNames v1
  clear_value v1
  extract_lets +onlyGivenNames v2
  have h2 : Keeps false true true false v2 s := by
    unfold v2
    refine .trans (State.each_keeps (m := false) (k := true) (r := true) (p := false) ?_) ?_
    · intro a3_0 a3_1
      refine .trans (State.moveTask_keeps _ _ _ _) ?_
      exact .refl _
    exact .refl _
  clear_value v2
  extract_lets +onlyGivenNames v4
  have h4 : Keeps false true true false v4 s := by
    unfold v4
    refine .trans (State.each_keeps (m := false) (k := true) (r := true) (p := false) ?_) ?_
    · intro a5_0 a5_1
      refine .trans (State.ddcRefresh_keeps _ _) ?_
      exact .refl _
    assumption
  clear_value v4
  refine .trans (State.modPhn_keeps _ _) ?_
  assumption

theorem State.zeroFill_keeps (s : State) (src : ℕ) (dst : ℕ) (a : ℕ) :
    Keeps true true true true (State.zeroFill s src dst a) s := by
  unfold State.zeroFill
  extract_lets +onlyGivenNames v1
  clear_value v1
  extract_lets +onlyGivenNames v2
  clear_value v2
  extract_lets +onlyGivenNames v3
  clear_value v3
  extract_lets +onlyGivenNames v4
  clear_value v4
  extract_lets +onlyGivenNames v5
  clear_value v5
  extract_lets +onlyGivenNames v6
  have h6 : Keeps true true true true v6 s := by
    unfold v6
    refine .ite ?_ ?_
    · exact .refl _
    refine .trans (State.modChain_keeps _ _ _) ?_
    exact .refl _
  clear_value v6
  refine .trans (State.modChain_keeps _ _ _) ?_
  assumption

theorem State.migFault_keeps (s : State) (p : ℕ) :
    Keeps false true true false (State.migFault s p) s := by
  unfold State.migFault
  split
  · exact .refl _
  · refine .ite ?_ ?_
    · refine .ite ?_ ?_
      · refine .trans (State.migRelease_keeps _ _) ?_
        exact .refl _
      exact .refl _
    refine .ite ?_ ?_
    · refine .ite ?_ ?_
      · exact .refl _
      refine .trans (State.migFail_keeps _ _) ?_
      exact .refl _
    refine .ite ?_ ?_
    · refine .ite ?_ ?_
      · extract_lets +onlyGivenNames v1
        clear_value v1
        extract_lets +onlyGivenNames v2
        clear_value v2
        extract_lets +onlyGivenNames v3
        have h3 : Keeps false true true false v3 s := by
          unfold v3
          refine .trans (State.each_keeps (m := false) (k := true) (r := true) (p := false) ?_) ?_
          · intro a4_0 a4_1
            refine .trans (State.zeroFill_keeps _ _ _ _) ?_
            exact .refl _
          refine .trans (State.moveGroup_keeps _ _ _) ?_
          refine .trans (State.advanceTo_keeps _ _) ?_
          exact .refl _
        clear_value v3
        refine .trans (State.migRelease_keeps _ _) ?_
        assumption
      extract_lets +onlyGivenNames v5
      have h5 : Keeps false true true false v5 s := by
        unfold v5
        refine .trans (State.modPhn_keeps _ _) ?_
        exact .refl _
      clear_value v5
      extract_lets +onlyGivenNames v6
      have h6 : Keeps false true true false v6 s := by
        unfold v6
        refine .trans (State.each_keeps (m := false) (k := true) (r := true) (p := false) ?_) ?_
        · intro a7_0 a7_1
          refine .trans (State.modTask_keeps _ _ _) ?_
          exact .refl _
        assumption
      clear_value v6
      refine .trans (State.noteFailed_keeps _ _ _) ?_
      refine .trans (State.dropTarget_keeps _ _ _) ?_
      assumption
    exact .refl _

theorem State.unpin_keeps (s : State) (t : Task) :
    Keeps true true true false (State.unpin s t) s := by
  unfold State.unpin
  refine .ite ?_ ?_
  · refine .trans (State.notify_keeps _ _ _ _ _) ?_
    refine .trans (State.modTask_keeps _ _ _) ?_
    exact .refl _
  exact .refl _

theorem State.evacuate_keeps (s : State) (r : ℕ) :
    Keeps false true true false (State.evacuate s r) s := by
  unfold State.evacuate
  extract_lets +onlyGivenNames v1
  have h1 : Keeps false true true false v1 s := by
    unfold v1
    split
    · refine .ite ?_ ?_
      · refine .trans (State.migFault_keeps _ _) ?_
        exact .refl _
      exact .refl _
    · exact .refl _
  clear_value v1
  extract_lets +onlyGivenNames v2
  clear_value v2
  extract_lets +onlyGivenNames v3
  have h3 : Keeps false true true false v3 s := by
    unfold v3
    refine .trans (State.each_keeps (m := false) (k := true) (r := true) (p := false) ?_) ?_
    · intro a4_0 a4_1
      refine .ite ?_ ?_
      · refine .trans (State.unpin_keeps _ _) ?_
        exact .refl _
      exact .refl _
    assumption
  clear_value v3
  extract_lets +onlyGivenNames v5
  have h5 : Keeps false true true false v5 s := by
    unfold v5
    refine .trans (State.each_keeps (m := false) (k := true) (r := true) (p := false) ?_) ?_
    · intro a6_0 a6_1
      refine .ite ?_ ?_
      · refine .trans (State.dropMemory_keeps _ _) ?_
        exact .refl _
      refine .trans (State.dropMemory_keeps _ _) ?_
      refine .trans (State.suspendTask_keeps _ _ _) ?_
      exact .refl _
    assumption
  clear_value v5
  extract_lets +onlyGivenNames v7
  have h7 : Keeps false true true false v7 s := by
    unfold v7
    refine .trans (State.each_keeps (m := false) (k := true) (r := true) (p := false) ?_) ?_
    · intro a8_0 a8_1
      refine .ite ?_ ?_
      · exact .refl _
      split
      · exact .refl _
      · split
        · refine .trans (State.commitPlace_keeps _ _) ?_
          exact .refl _
        · refine .trans (State.notify_keeps _ _ _ _ _) ?_
          refine .trans (State.modTask_keeps _ _ _) ?_
          exact .refl _
    assumption
  clear_value v7
  refine .trans (State.refreshPhn_keeps _) ?_
  refine .trans (State.beginNext_keeps _) ?_
  assumption

theorem State.connect_keeps (s : State) (t : Task) :
    Keeps true true true true (State.connect s t) s := by
  unfold State.connect
  split
  · refine .trans (State.refreshSrc_keeps _) ?_
    refine .trans (State.wb_keeps _ _ _ _) ?_
    refine .trans (State.wb_keeps _ _ _ _) ?_
    refine .trans (State.modChain_keeps _ _ _) ?_
    exact .refl _
  · extract_lets +onlyGivenNames v1
    clear_value v1
    extract_lets +onlyGivenNames v2
    have h2 : Keeps true true true true v2 s := by
      unfold v2
      refine .trans (State.modChain_keeps _ _ _) ?_
      refine .trans (State.modChain_keeps _ _ _) ?_
      exact .refl _
    clear_value v2
    extract_lets +onlyGivenNames v3
    have h3 : Keeps true true true true v3 s := by
      unfold v3
      refine .trans (State.wb_keeps _ _ _ _) ?_
      refine .trans (State.wb_keeps _ _ _ _) ?_
      assumption
    clear_value v3
    refine .trans (State.refreshSrc_keeps _) ?_
    refine .trans (State.wb_keeps _ _ _ _) ?_
    refine .trans (State.wb_keeps _ _ _ _) ?_
    assumption
  · exact .refl _

theorem State.winBytes_keeps (s : State) (addr : ℕ) (bs : List Byte) :
    Keeps true true true true (State.winBytes s addr bs) s := by
  unfold State.winBytes
  refine .trans (foldl_keeps (m := true) (k := true) (r := true) (p := true) ?_) ?_
  · intro a1_0 a1_1
    extract_lets +onlyGivenNames v2
    clear_value v2
    extract_lets +onlyGivenNames v3
    clear_value v3
    refine .congr (u := a1_0) ?_
    exact .refl _
  exact .refl _

theorem State.loadItems_keeps (s : State) (t : Task) :
    Keeps true true true true (State.loadItems s t) s := by
  unfold State.loadItems
  extract_lets +onlyGivenNames v1
  clear_value v1
  refine .trans (State.each_keeps (m := true) (k := true) (r := true) (p := true) ?_) ?_
  · intro a2_0 a2_1
    refine .ite ?_ ?_
    · refine .trans (State.winBytes_keeps _ _ _) ?_
      exact .refl _
    refine .ite ?_ ?_
    · refine .trans (State.winBytes_keeps _ _ _) ?_
      exact .refl _
    exact .refl _
  exact .refl _

theorem State.retune_keeps (s : State) (p : ℕ) (a : ℕ) (changed : Bool) (settle : Bool) :
    Keeps true true true true (State.retune s p a changed settle) s := by
  unfold State.retune
  extract_lets +onlyGivenNames v1
  clear_value v1
  extract_lets +onlyGivenNames v2
  clear_value v2
  refine .trans (State.modChain_keeps _ _ _) ?_
  exact .refl _

theorem State.loadTarget_keeps (s : State) (goal : List Task) :
    Keeps true true true true (State.loadTarget s goal) s := by
  unfold State.loadTarget
  extract_lets +onlyGivenNames v1
  clear_value v1
  refine .trans (State.each_keeps (m := true) (k := true) (r := true) (p := true) ?_) ?_
  · intro a2_0 a2_1
    extract_lets +onlyGivenNames v3
    clear_value v3
    extract_lets +onlyGivenNames v4
    have h4 : Keeps true true true true v4 a2_0 := by
      unfold v4
      refine .trans (State.connect_keeps _ _) ?_
      refine .trans (State.blankPages_keeps _ _) ?_
      exact .refl _
    clear_value v4
    extract_lets +onlyGivenNames v5
    have h5 : Keeps true true true true v5 a2_0 := by
      unfold v5
      refine .trans (State.applyAll_keeps _ _) ?_
      assumption
    clear_value v5
    extract_lets +onlyGivenNames v6
    have h6 : Keeps true true true true v6 a2_0 := by
      unfold v6
      refine .trans (State.each_keeps (m := true) (k := true) (r := true) (p := true) ?_) ?_
      · intro a7_0 a7_1
        refine .trans (State.ddcRefresh_keeps _ _) ?_
        exact .refl _
      assumption
    clear_value v6
    refine .trans (State.each_keeps (m := true) (k := true) (r := true) (p := true) ?_) ?_
    · intro a8_0 a8_1
      refine .trans (State.startPage_keeps _ _) ?_
      exact .refl _
    refine .trans (State.loadItems_keeps _ _) ?_
    assumption
  exact .refl _

theorem State.trigReset_keeps (s : State) (p : ℕ) (six : ℕ) (loads : Bool) :
    Keeps true true true true (State.trigReset s p six loads) s := by
  unfold State.trigReset
  extract_lets +onlyGivenNames v1
  clear_value v1
  extract_lets +onlyGivenNames v2
  have h2 : Keeps true true true true v2 s := by
    unfold v2
    refine .trans (State.slotsClear_keeps _ _ _) ?_
    exact .refl _
  clear_value v2
  extract_lets +onlyGivenNames v3
  have h3 : Keeps true true true true v3 s := by
    unfold v3
    refine .trans (foldl_keeps (m := true) (k := true) (r := true) (p := true) ?_) ?_
    · intro a4_0 a4_1
      refine .trans (State.tdDisarm_keeps _ _ _ _) ?_
      exact .refl _
    assumption
  clear_value v3
  refine .trans (State.modTrig_keeps _ _ _) ?_
  assumption

theorem State.faultMove_keeps (s : State) (group : List Task) (goal : List Task) :
    Keeps false true true false (State.faultMove s group goal) s := by
  unfold State.faultMove
  extract_lets +onlyGivenNames v1
  clear_value v1
  extract_lets +onlyGivenNames v2
  have h2 : Keeps false true true false v2 s := by
    unfold v2
    refine .trans (State.advanceTo_keeps _ _) ?_
    exact .refl _
  clear_value v2
  extract_lets +onlyGivenNames v3
  clear_value v3
  extract_lets +onlyGivenNames v4
  clear_value v4
  extract_lets +onlyGivenNames v5
  clear_value v5
  extract_lets +onlyGivenNames v6
  have h6 : Keeps false true true false v6 s := by
    unfold v6
    refine .trans (State.each_keeps (m := false) (k := true) (r := true) (p := false) ?_) ?_
    · intro a7_0 a7_1
      refine .trans (State.notify_keeps _ _ _ _ _) ?_
      exact .refl _
    assumption
  clear_value v6
  extract_lets +onlyGivenNames v8
  have h8 : Keeps false true true false v8 s := by
    unfold v8
    refine .trans (State.each_keeps (m := false) (k := true) (r := true) (p := false) ?_) ?_
    · intro a9_0 a9_1
      refine .trans (State.modGrat_keeps _ _ _) ?_
      exact .refl _
    assumption
  clear_value v8
  extract_lets +onlyGivenNames v10
  have h10 : Keeps false true true false v10 s := by
    unfold v10
    refine .trans (State.moveGroup_keeps _ _ _) ?_
    refine .trans (State.loadTarget_keeps _ _) ?_
    assumption
  clear_value v10
  extract_lets +onlyGivenNames v11
  have h11 : Keeps false true true false v11 s := by
    unfold v11
    refine .trans (State.each_keeps (m := false) (k := true) (r := true) (p := false) ?_) ?_
    · intro a12_0 a12_1
      refine .ite ?_ ?_
      · refine .trans (State.trigReset_keeps _ _ _ _) ?_
        refine .trans (State.zeroFill_keeps _ _ _ _) ?_
        exact .refl _
      exact .refl _
    assumption
  clear_value v11
  extract_lets +onlyGivenNames v13
  have h13 : Keeps false true true false v13 s := by
    unfold v13
    refine .trans (State.each_keeps (m := false) (k := true) (r := true) (p := false) ?_) ?_
    · intro a14_0 a14_1
      refine .trans (State.idlePipe_keeps _ _) ?_
      exact .refl _
    assumption
  clear_value v13
  refine .trans (State.each_keeps (m := false) (k := true) (r := true) (p := false) ?_) ?_
  · intro a15_0 a15_1
    refine .trans (State.notify_keeps _ _ _ _ _) ?_
    refine .trans (State.bumpEpoch_keeps _) ?_
    refine .trans (State.modTask_keeps _ _ _) ?_
    exact .refl _
  assumption

theorem State.reseat_keeps (s : State) (id : ℕ) (avoid : List ℕ) :
    Keeps false true true false (State.reseat s id avoid) s := by
  unfold State.reseat
  split
  · exact .refl _
  · split
    · refine .trans (State.takePlace_keeps _ _ _) ?_
      exact .refl _
    · refine .trans (State.suspendTask_keeps _ _ _) ?_
      exact .refl _

theorem State.leaveFaulted_keeps (s : State) (p : ℕ) (avoid : List ℕ) :
    Keeps false true true false (State.leaveFaulted s p avoid) s := by
  unfold State.leaveFaulted
  extract_lets +onlyGivenNames v1
  have h1 : Keeps false true true false v1 s := by
    unfold v1
    refine .trans (State.each_keeps (m := false) (k := true) (r := true) (p := false) ?_) ?_
    · intro a2_0 a2_1
      refine .trans (State.unpin_keeps _ _) ?_
      exact .refl _
    exact .refl _
  clear_value v1
  extract_lets +onlyGivenNames v3
  clear_value v3
  extract_lets +onlyGivenNames v4
  clear_value v4
  extract_lets +onlyGivenNames v5
  have h5 : Keeps false true true false v5 s := by
    unfold v5
    split
    · assumption
    · split
      · refine .trans (State.faultMove_keeps _ _ _) ?_
        assumption
      · refine .trans (State.each_keeps (m := false) (k := true) (r := true) (p := false) ?_) ?_
        · intro a8_0 a8_1
          refine .trans (State.suspendTask_keeps _ _ _) ?_
          exact .refl _
        assumption
  clear_value v5
  refine .trans (State.each_keeps (m := false) (k := true) (r := true) (p := false) ?_) ?_
  · intro a9_0 a9_1
    refine .trans (State.reseat_keeps _ _ _) ?_
    exact .refl _
  assumption

theorem State.phoinFault_keeps (s : State) (key : ℕ) :
    Keeps false true true false (State.phoinFault s key) s := by
  unfold State.phoinFault
  extract_lets +onlyGivenNames v1
  clear_value v1
  extract_lets +onlyGivenNames v2
  have h2 : Keeps false true true false v2 s := by
    unfold v2
    split
    · refine .trans (State.leaveFaulted_keeps _ _ _) ?_
      refine .trans (State.migFault_keeps _ _) ?_
      exact .refl _
    · split
      · refine .trans (State.each_keeps (m := false) (k := true) (r := true) (p := false) ?_) ?_
        · intro a3_0 a3_1
          refine .ite ?_ ?_
          · refine .trans (State.leaveFaulted_keeps _ _ _) ?_
            refine .trans (State.migFault_keeps _ _) ?_
            exact .refl _
          exact .refl _
        exact .refl _
      · refine .trans (State.each_keeps (m := false) (k := true) (r := true) (p := false) ?_) ?_
        · intro a4_0 a4_1
          refine .trans (State.reseat_keeps _ _ _) ?_
          exact .refl _
        exact .refl _
      · refine .trans (State.each_keeps (m := false) (k := true) (r := true) (p := false) ?_) ?_
        · intro a5_0 a5_1
          refine .trans (State.reseat_keeps _ _ _) ?_
          exact .refl _
        exact .refl _
      · refine .trans (State.each_keeps (m := false) (k := true) (r := true) (p := false) ?_) ?_
        · intro a6_0 a6_1
          refine .trans (State.suspendTask_keeps _ _ _) ?_
          exact .refl _
        exact .refl _
      · exact .refl _
  clear_value v2
  refine .trans (State.refreshPhn_keeps _) ?_
  refine .trans (State.beginNext_keeps _) ?_
  assumption

theorem State.phoinEntry_keeps (s : State) (e : LogEntry) :
    Keeps false true true false (State.phoinEntry s e) s := by
  unfold State.phoinEntry
  refine .ite ?_ ?_
  · refine .ite ?_ ?_
    · refine .trans (State.evacuate_keeps _ _) ?_
      exact .refl _
    refine .trans (State.refreshPhn_keeps _) ?_
    refine .trans (State.beginNext_keeps _) ?_
    exact .refl _
  refine .ite ?_ ?_
  · refine .trans (State.phoinFault_keeps _ _) ?_
    exact .refl _
  exact .refl _

theorem State.releaseEntry_keeps (s : State) (e : LogEntry) :
    Keeps false true true false (State.releaseEntry s e) s := by
  unfold State.releaseEntry
  extract_lets +onlyGivenNames v1
  have h1 : Keeps false true true false v1 s := by
    unfold v1
    refine .trans (State.each_keeps (m := false) (k := true) (r := true) (p := false) ?_) ?_
    · intro a2_0 a2_1
      refine .trans (State.eventRecord_keeps _ _ _) ?_
      exact .refl _
    exact .refl _
  clear_value v1
  refine .ite ?_ ?_
  · assumption
  refine .trans (State.phoinEntry_keeps _ _) ?_
  assumption

theorem execCollectorRelease_keeps (s : State) :
    Res.keeps false true true false (execCollectorRelease s) s := by
  unfold execCollectorRelease
  split
  · refine Res.keeps_next ?_
    exact .refl _
  · extract_lets +onlyGivenNames v1
    have h1 : Keeps false true true false v1 s := by
      unfold v1
      refine .trans (State.advanceTo_keeps _ _) ?_
      exact .refl _
    clear_value v1
    extract_lets +onlyGivenNames v2
    extract_lets +onlyGivenNames v3
    have h3 : Keeps false true true false v3 s := by
      unfold v3
      refine .congr (u := v1) ?_
      assumption
    clear_value v3
    refine Res.keeps_next ?_
    refine .trans (State.each_keeps (m := false) (k := true) (r := true) (p := false) ?_) ?_
    · intro a4_0 a4_1
      refine .trans (State.releaseEntry_keeps _ _) ?_
      exact .refl _
    assumption

theorem State.hubFault_keeps (s : State) :
    Keeps true true true true (State.hubFault s) s := by
  unfold State.hubFault
  refine .trans (State.logPage_keeps _ _ _ _ _ _ _) ?_
  exact .refl _

theorem State.askSafe_keeps (s : State) (cause : ℕ) :
    Keeps true true true true (State.askSafe s cause) s := by
  unfold State.askSafe
  refine .congr (u := s) ?_
  exact .refl _

theorem State.modPower_keeps (s : State) (f : Power → Power) (h : (f s.power).fused = s.power.fused := by rfl) :
    Keeps true true true true (s.modPower f) s := .congr (.refl s) (e6 := h)

theorem execPlaneFailure_keeps (plane : Fin 2) (s : State) :
    Res.keeps true true true true (execPlaneFailure plane s) s := by
  unfold execPlaneFailure
  extract_lets +onlyGivenNames v1
  clear_value v1
  refine Res.keeps_ite ?_ ?_
  · refine Res.keeps_next ?_
    exact .refl _
  extract_lets +onlyGivenNames v2
  have h2 : Keeps true true true true v2 s := by
    unfold v2
    refine .trans (State.hubFault_keeps _) ?_
    refine .trans (State.wf_keeps _ _ _ _) ?_
    exact .refl _
  clear_value v2
  refine Res.keeps_ite ?_ ?_
  · refine Res.keeps_next ?_
    refine .trans (State.askSafe_keeps _ _) ?_
    assumption
  refine Res.keeps_next ?_
  refine .trans (State.modPower_keeps _ _) ?_
  assumption

theorem execPlaneSelftest_keeps (plane : Fin 2) (ok : Bool) (s : State) :
    Res.keeps true true true true (execPlaneSelftest plane ok s) s := by
  unfold execPlaneSelftest
  refine Res.keeps_ite ?_ ?_
  · refine Res.keeps_next ?_
    exact .refl _
  extract_lets +onlyGivenNames v1
  have h1 : Keeps true true true true v1 s := by
    unfold v1
    refine .trans (State.modPower_keeps _ _) ?_
    exact .refl _
  clear_value v1
  refine Res.keeps_next ?_
  refine .ite ?_ ?_
  · refine .trans (State.wf_keeps _ _ _ _) ?_
    assumption
  assumption

theorem State.refreshMismatch_keeps (s : State) :
    Keeps true true true true (State.refreshMismatch s) s := by
  unfold State.refreshMismatch
  extract_lets +onlyGivenNames v1
  clear_value v1
  refine .trans (State.wf_keeps _ _ _ _) ?_
  refine .trans (State.modPower_keeps _ _) ?_
  exact .refl _

theorem execLockstepMismatch_keeps (s : State) :
    Res.keeps true true true true (execLockstepMismatch s) s := by
  unfold execLockstepMismatch
  extract_lets +onlyGivenNames v1
  have h1 : Keeps true true true true v1 s := by
    unfold v1
    refine .trans (State.hubFault_keeps _) ?_
    refine .trans (State.refreshMismatch_keeps _) ?_
    refine .trans (State.modPower_keeps _ _) ?_
    exact .refl _
  clear_value v1
  refine Res.keeps_next ?_
  refine .ite ?_ ?_
  · refine .trans (State.askSafe_keeps _ _) ?_
    assumption
  assumption

theorem State.answerFree_keeps (s : State) (m : MctpMsg) :
    Keeps true true true true (State.answerFree s m) s := by
  unfold State.answerFree
  extract_lets +onlyGivenNames v1
  have h1 : Keeps true true true true v1.2 s := by
    unfold v1
    refine .trans (State.drawNat_keeps _) ?_
    exact .refl _
  clear_value v1
  refine .trans (State.emit_keeps _ _) ?_
  assumption

theorem State.failTask_keeps (s : State) (id : ℕ) (code : ℕ) (sub : ℕ) :
    Keeps false true true false (State.failTask s id code sub) s := by
  unfold State.failTask
  refine .trans (State.endTask_keeps _ _ _ _ _) ?_
  exact .refl _

theorem State.logSecurity_keeps (s : State) :
    Keeps true true true true (State.logSecurity s) s := by
  unfold State.logSecurity
  extract_lets +onlyGivenNames v1
  have h1 : Keeps true true true true v1.2 s := by
    unfold v1
    refine .trans (State.drawNat_keeps _) ?_
    exact .refl _
  clear_value v1
  refine .trans (State.logPage_keeps _ _ _ _ _ _ _) ?_
  assumption

theorem State.refreshKeys_keeps (s : State) :
    Keeps true true true true (State.refreshKeys s) s := by
  unfold State.refreshKeys
  extract_lets +onlyGivenNames v1
  extract_lets +onlyGivenNames v2
  have h2 : Keeps true true true true v2 s := by
    unfold v2
    refine .trans (State.setReg_keeps _ _ _ _) ?_
    refine .trans (State.setReg_keeps _ _ _ _) ?_
    refine .trans (State.setReg_keeps _ _ _ _) ?_
    exact .refl _
  clear_value v2
  refine .trans (State.wb_keeps _ _ _ _) ?_
  assumption

theorem State.zeroise_keeps (s : State) :
    Keeps true false true true (State.zeroise s) s := by
  unfold State.zeroise
  extract_lets +onlyGivenNames v1
  extract_lets +onlyGivenNames v2
  have h2 : Keeps true false true true v2 s := by
    unfold v2
    refine .congr (u := s) ?_
    exact .refl _
  clear_value v2
  extract_lets +onlyGivenNames v3
  have h3 : Keeps true false true true v3 s := by
    unfold v3
    refine .trans (State.setErr_keeps _ _ _) ?_
    refine .trans (State.wb_keeps _ _ _ _) ?_
    refine .trans (State.wb_keeps _ _ _ _) ?_
    refine .trans (State.refreshKeys_keeps _) ?_
    assumption
  clear_value v3
  refine .trans (State.logSecurity_keeps _) ?_
  assumption

theorem State.openDebug_keeps (s : State) :
    Keeps false false true false (State.openDebug s) s := by
  unfold State.openDebug
  extract_lets +onlyGivenNames v1
  have h1 : Keeps false false true false v1 s := by
    unfold v1
    refine .trans (State.zeroise_keeps _) ?_
    exact .refl _
  clear_value v1
  extract_lets +onlyGivenNames v2
  clear_value v2
  refine .trans (State.wb_keeps _ _ _ _) ?_
  refine .trans (State.each_keeps (m := false) (k := false) (r := true) (p := false) ?_) ?_
  · intro a3_0 a3_1
    refine .trans (State.failTask_keeps _ _ _ _) ?_
    exact .refl _
  assumption

theorem State.setBank_keeps (s : State) (b : Bool) (image : List Byte) : Keeps true true true true (s.setBank b image) s := by
  unfold State.setBank
  refine State.modPower_keeps s _ ?_
  cases b <;> rfl

theorem State.answerMsg_keeps (s : State) (m : MctpMsg) : Keeps false false true false (s.answerMsg m) s := by
  have he : ∀ o, Keeps false false true false (s.emit o) s := fun o => .to (State.emit_keeps s o)
  cases m <;> unfold State.answerMsg <;> dsimp only
  case setEid e => exact .trans (State.emit_keeps _ _) (.to (State.modPower_keeps _ _))
  case getEid => exact he _
  case getSensor i => exact .ite (he _) (he _)
  case getStateSensors i => exact .ite (he _) (he _)
  case pollEvent =>
    split
    · exact he _
    · exact .trans (State.emit_keeps _ _) (.to (State.modPower_keeps _ _))
  case debugOpen => exact .ite (he _) (.trans (State.emit_keeps _ _) (.to (State.openDebug_keeps _)))
  case writeBank b i => exact .ite (.trans (State.emit_keeps _ _) (.to (State.setBank_keeps _ _ _))) (he _)
  case other => exact he _
  all_goals exact .to (State.answerFree_keeps _ _)

theorem State.answerDeferred_keeps (s : State) :
    Keeps false false true false (State.answerDeferred s) s := by
  unfold State.answerDeferred
  refine .trans (State.modPower_keeps _ _) ?_
  refine .trans (State.each_keeps (m := false) (k := false) (r := true) (p := false) ?_) ?_
  · intro a1_0 a1_1
    refine .trans (State.answerMsg_keeps _ _) ?_
    exact .refl _
  exact .refl _

theorem execCheckpoint_keeps (s : State) :
    Res.keeps false false true false (execCheckpoint s) s := by
  unfold execCheckpoint
  refine Res.keeps_ite ?_ ?_
  · refine Res.keeps_next ?_
    exact .refl _
  refine Res.keeps_next ?_
  refine .trans (State.answerDeferred_keeps _) ?_
  refine .trans (State.refreshMismatch_keeps _) ?_
  refine .trans (State.modPower_keeps _ _) ?_
  exact .refl _

theorem execFaultAutoReset_keeps (page : Fin 8192) (s : State) :
    Res.keeps true true true false (execFaultAutoReset page s) s := by
  unfold execFaultAutoReset
  extract_lets +onlyGivenNames v1
  clear_value v1
  refine Res.keeps_ite ?_ ?_
  · refine Res.keeps_next ?_
    exact .refl _
  extract_lets +onlyGivenNames v2
  clear_value v2
  extract_lets +onlyGivenNames v3
  have h3 : Keeps true true true false v3 s := by
    unfold v3
    refine .trans (State.modPhn_keeps _ _) ?_
    exact .refl _
  clear_value v3
  refine Res.keeps_next ?_
  refine .ite ?_ ?_
  · refine .trans (State.modPhn_keeps _ _) ?_
    assumption
  refine .trans (State.softReset_keeps _ _) ?_
  assumption

theorem State.failOp_keeps (s : State) (key : ℕ) (code : ℕ) (sub : ℕ) :
    Keeps true true true true (State.failOp s key code sub) s := by
  unfold State.failOp
  refine .trans (State.endOp_keeps _ _ _ _ _) ?_
  exact .refl _

theorem State.pageDown_keeps (s : State) (key : ℕ) :
    Keeps true true true false (State.pageDown s key) s := by
  unfold State.pageDown
  extract_lets +onlyGivenNames v1
  have h1 : Keeps true true true false v1 s := by
    unfold v1
    refine .trans (State.clearPend_keeps _ _) ?_
    refine .trans (State.resetHook_keeps _ _) ?_
    refine .trans (State.failOp_keeps _ _ _ _) ?_
    exact .refl _
  clear_value v1
  extract_lets +onlyGivenNames v2
  have h2 : Keeps true true true false v2 s := by
    unfold v2
    refine .ite ?_ ?_
    · refine .trans (State.irqBit_keeps _ _ _) ?_
      refine .trans (State.wb_keeps _ _ _ _) ?_
      assumption
    assumption
  clear_value v2
  refine .trans (State.enter_keeps _ _ _) ?_
  assumption

theorem State.domainBit_keeps (s : State) (d : ℕ) (on : Bool) :
    Keeps true true true true (State.domainBit s d on) s := by
  unfold State.domainBit
  refine .trans (State.wf_keeps _ _ _ _) ?_
  exact .refl _

theorem State.switchDomain_keeps (s : State) (d : ℕ) (on : Bool) :
    Keeps true true true true (State.switchDomain s d on) s := by
  unfold State.switchDomain
  refine .trans (State.count_keeps _ _ _) ?_
  refine .trans (State.domainBit_keeps _ _ _) ?_
  exact .refl _

theorem State.domainDown_keeps (s : State) (d : ℕ) :
    Keeps true true true false (State.domainDown s d) s := by
  unfold State.domainDown
  refine .ite ?_ ?_
  · refine .trans (State.switchDomain_keeps _ _ _) ?_
    refine .trans (State.each_keeps (m := true) (k := true) (r := true) (p := false) ?_) ?_
    · intro a1_0 a1_1
      refine .trans (State.pageDown_keeps _ _) ?_
      exact .refl _
    exact .refl _
  exact .refl _

theorem State.powerReset_keeps (s : State) (key : ℕ) :
    Keeps true true true false (State.powerReset s key) s := by
  unfold State.powerReset
  refine .trans (State.modPage_keeps _ _ _) ?_
  refine .trans (State.clearPend_keeps _ _) ?_
  refine .trans (State.resetHook_keeps _ _) ?_
  exact .refl _

theorem State.domainUp_keeps (s : State) (d : ℕ) :
    Keeps true true true false (State.domainUp s d) s := by
  unfold State.domainUp
  refine .ite ?_ ?_
  · exact .refl _
  refine .trans (State.switchDomain_keeps _ _ _) ?_
  refine .trans (State.each_keeps (m := true) (k := true) (r := true) (p := false) ?_) ?_
  · intro a1_0 a1_1
    refine .trans (State.powerReset_keeps _ _) ?_
    exact .refl _
  exact .refl _

theorem State.restartRegion_keeps (s : State) (r : ℕ) :
    Keeps true true true false (State.restartRegion s r) s := by
  unfold State.restartRegion
  extract_lets +onlyGivenNames v1
  clear_value v1
  extract_lets +onlyGivenNames v2
  have h2 : Keeps true true true false v2 s := by
    unfold v2
    refine .trans (State.each_keeps (m := true) (k := true) (r := true) (p := false) ?_) ?_
    · intro a3_0 a3_1
      refine .trans (State.domainUp_keeps _ _) ?_
      exact .refl _
    refine .trans (State.each_keeps (m := true) (k := true) (r := true) (p := false) ?_) ?_
    · intro a4_0 a4_1
      refine .trans (State.domainDown_keeps _ _) ?_
      exact .refl _
    exact .refl _
  clear_value v2
  extract_lets +onlyGivenNames v5
  have h5 : Keeps true true true false v5 s := by
    unfold v5
    refine .trans (State.each_keeps (m := true) (k := true) (r := true) (p := false) ?_) ?_
    · intro a6_0 a6_1
      refine .ite ?_ ?_
      · refine .trans (State.enter_keeps _ _ _) ?_
        refine .trans (State.powerReset_keeps _ _) ?_
        exact .refl _
      exact .refl _
    assumption
  clear_value v5
  extract_lets +onlyGivenNames v7
  have h7 : Keeps true true true false v7 s := by
    unfold v7
    refine .trans (State.each_keeps (m := true) (k := true) (r := true) (p := false) ?_) ?_
    · intro a8_0 a8_1
      refine .trans (State.modPage_keeps _ _ _) ?_
      refine .trans (State.linkDown_keeps _ _) ?_
      exact .refl _
    assumption
  clear_value v7
  refine .ite ?_ ?_
  · refine .trans (State.convEnter_keeps _ _ _) ?_
    assumption
  assumption

theorem execRecover_keeps (who : Issuer) (tag : ℕ) (s : State) :
    Res.keeps true true true false (execRecover who tag s) s := by
  unfold execRecover
  refine Res.keeps_next ?_
  refine .trans (State.command_keeps (m := true) (k := true) (r := true) (p := false) ?_) ?_
  · intro a1_0
    extract_lets +onlyGivenNames v2
    clear_value v2
    refine .ite ?_ ?_
    · refine .trans (State.rejectOp_keeps _ _ _ _ _) ?_
      exact .refl _
    refine .ite ?_ ?_
    · refine .trans (State.rejectOp_keeps _ _ _ _ _) ?_
      exact .refl _
    refine .ite ?_ ?_
    · refine .trans (State.rejectOp_keeps _ _ _ _ _) ?_
      exact .refl _
    refine .trans (State.restartRegion_keeps _ _) ?_
    refine .trans (State.accept_keeps _ _ _) ?_
    exact .refl _
  exact .refl _

theorem State.modSvy_keeps (s : State) (f : Survey → Survey) :
    Keeps true true true true (State.modSvy s f) s := by
  unfold State.modSvy
  refine .congr (u := s) ?_
  exact .refl _

theorem State.loadTrim_keeps (s : State) (c : ℕ) :
    Keeps true true true true (State.loadTrim s c) s := by
  unfold State.loadTrim
  extract_lets +onlyGivenNames v1
  clear_value v1
  extract_lets +onlyGivenNames v2
  clear_value v2
  extract_lets +onlyGivenNames v3
  clear_value v3
  extract_lets +onlyGivenNames v4
  have h4 : Keeps true true true true v4 s := by
    unfold v4
    refine .trans (State.modPage_keeps _ _ _) ?_
    exact .refl _
  clear_value v4
  extract_lets +onlyGivenNames v5
  have h5 : Keeps true true true true v5 s := by
    unfold v5
    refine .ite ?_ ?_
    · assumption
    refine .trans (State.wf_keeps _ _ _ _) ?_
    refine .trans (State.wf_keeps _ _ _ _) ?_
    assumption
  clear_value v5
  extract_lets +onlyGivenNames v6
  have h6 : Keeps true true true true v6 s := by
    unfold v6
    refine .trans (State.updateLocked_keeps _ _) ?_
    refine .trans (State.wb_keeps _ _ _ _) ?_
    assumption
  clear_value v6
  refine .trans (State.modSvy_keeps _ _) ?_
  assumption

theorem State.modStack_keeps (s : State) (m : ℕ) (f : Stack → Stack) :
    Keeps true true true true (State.modStack s m f) s := by
  unfold State.modStack
  refine .congr (u := s) ?_
  exact .refl _

theorem State.srEnter_keeps (s : State) (m : ℕ) (n : ℕ) :
    Keeps true true true true (State.srEnter s m n) s := by
  unfold State.srEnter
  refine .trans (State.wf_keeps _ _ _ _) ?_
  exact .refl _

theorem State.srUpdate_keeps (s : State) (m : ℕ) :
    Keeps true true true true (State.srUpdate s m) s := by
  unfold State.srUpdate
  extract_lets +onlyGivenNames v1
  clear_value v1
  extract_lets +onlyGivenNames v2
  have h2 : Keeps true true true true v2 s := by
    unfold v2
    refine .trans (State.setReg_keeps _ _ _ _) ?_
    refine .trans (State.wb_keeps _ _ _ _) ?_
    exact .refl _
  clear_value v2
  extract_lets +onlyGivenNames v3
  clear_value v3
  refine .ite ?_ ?_
  · refine .ite ?_ ?_
    · refine .trans (State.modStack_keeps _ _ _) ?_
      refine .trans (State.srEnter_keeps _ _ _) ?_
      assumption
    assumption
  refine .ite ?_ ?_
  · assumption
  refine .ite ?_ ?_
  · refine .trans (State.srEnter_keeps _ _ _) ?_
    assumption
  refine .ite ?_ ?_
  · refine .trans (State.count_keeps _ _ _) ?_
    refine .trans (State.srEnter_keeps _ _ _) ?_
    assumption
  refine .ite ?_ ?_
  · refine .trans (State.srEnter_keeps _ _ _) ?_
    assumption
  assumption

theorem State.refreshMem_keeps (s : State) (m : ℕ) :
    Keeps true true true true (State.refreshMem s m) s := by
  unfold State.refreshMem
  extract_lets +onlyGivenNames v1
  clear_value v1
  refine .trans (State.srUpdate_keeps _ _) ?_
  refine .trans (State.wb_keeps _ _ _ _) ?_
  refine .trans (State.wf_keeps _ _ _ _) ?_
  exact .refl _

theorem State.zeroStack_keeps (s : State) (m : Nat) : Keeps false true true true (s.zeroStack m) s := by
  unfold State.zeroStack
  extract_lets +onlyGivenNames lo hi keep
  refine .trans (State.refreshMem_keeps _ _) ?_
  exact ⟨rfl, fun w => Memory.wf_filter _ w, id, id, rfl, nofun, fun _ => rfl, fun _ => rfl, fun _ => rfl⟩

theorem State.regionBack_keeps (s : State) (r : ℕ) :
    Keeps false true true false (State.regionBack s r) s := by
  unfold State.regionBack
  extract_lets +onlyGivenNames v1
  have h1 : Keeps false true true false v1 s := by
    unfold v1
    refine .trans (State.wf_keeps _ _ _ _) ?_
    exact .refl _
  clear_value v1
  extract_lets +onlyGivenNames v2
  have h2 : Keeps false true true false v2 s := by
    unfold v2
    refine .ite ?_ ?_
    · refine .trans (State.wf_keeps _ _ _ _) ?_
      assumption
    assumption
  clear_value v2
  extract_lets +onlyGivenNames v3
  have h3 : Keeps false true true false v3 s := by
    unfold v3
    refine .trans (State.modPhn_keeps _ _) ?_
    assumption
  clear_value v3
  extract_lets +onlyGivenNames v4
  have h4 : Keeps false true true false v4 s := by
    unfold v4
    refine .ite ?_ ?_
    · refine .trans (State.zeroStack_keeps _ _) ?_
      refine .trans (State.zeroStack_keeps _ _) ?_
      assumption
    refine .ite ?_ ?_
    · refine .trans (State.loadTrim_keeps _ _) ?_
      assumption
    assumption
  clear_value v4
  refine .trans (State.logPage_keeps _ _ _ _ _ _ _) ?_
  assumption

theorem execRecoverComplete_keeps (ok : Bool) (s : State) :
    Res.keeps false true true false (execRecoverComplete ok s) s := by
  unfold execRecoverComplete
  split
  · refine Res.keeps_next ?_
    exact .refl _
  · refine Res.keeps_ite ?_ ?_
    · refine Res.keeps_next ?_
      exact .refl _
    refine Res.keeps_ite ?_ ?_
    · refine Res.keeps_next ?_
      refine .trans (State.failOp_keeps _ _ _ _) ?_
      refine .trans (State.logPage_keeps _ _ _ _ _ _ _) ?_
      exact .refl _
    refine Res.keeps_ite ?_ ?_
    · refine Res.keeps_next ?_
      exact .refl _
    refine Res.keeps_next ?_
    refine .trans (State.refreshPhn_keeps _) ?_
    refine .trans (State.readmit_keeps _) ?_
    refine .trans (State.doneOp_keeps _ _) ?_
    refine .trans (State.regionBack_keeps _ _) ?_
    exact .refl _

theorem State.afeSet_keeps (s : State) (c : ℕ) (input : ℕ) (zone : ℕ) (atten : ℕ) (six : ℕ) (selChanged : Bool) :
    Keeps true true true true (State.afeSet s c input zone atten six selChanged) s := by
  unfold State.afeSet
  extract_lets +onlyGivenNames v1
  clear_value v1
  extract_lets +onlyGivenNames v2
  clear_value v2
  extract_lets +onlyGivenNames v3
  clear_value v3
  refine .ite ?_ ?_
  · exact .refl _
  extract_lets +onlyGivenNames v4
  clear_value v4
  extract_lets +onlyGivenNames v5
  clear_value v5
  extract_lets +onlyGivenNames v6
  have h6 : Keeps true true true true v6 s := by
    unfold v6
    refine .trans (State.wf_keeps _ _ _ _) ?_
    exact .refl _
  clear_value v6
  extract_lets +onlyGivenNames v7
  have h7 : Keeps true true true true v7 s := by
    unfold v7
    refine .trans (State.wf_keeps _ _ _ _) ?_
    assumption
  clear_value v7
  extract_lets +onlyGivenNames v8
  have h8 : Keeps true true true true v8 s := by
    unfold v8
    refine .trans (State.wf_keeps _ _ _ _) ?_
    assumption
  clear_value v8
  extract_lets +onlyGivenNames v9
  have h9 : Keeps true true true true v9 s := by
    unfold v9
    refine .trans (State.wb_keeps _ _ _ _) ?_
    assumption
  clear_value v9
  extract_lets +onlyGivenNames v10
  have h10 : Keeps true true true true v10 s := by
    unfold v10
    refine .trans (State.setSix3_keeps _ _ _ _) ?_
    assumption
  clear_value v10
  extract_lets +onlyGivenNames v11
  have h11 : Keeps true true true true v11 s := by
    unfold v11
    refine .trans (State.modPage_keeps _ _ _) ?_
    assumption
  clear_value v11
  refine .trans (State.modConv_keeps _ _ _) ?_
  assumption

theorem State.holdOutputs_keeps (s : State) (r : ℕ) :
    Keeps true true true true (State.holdOutputs s r) s := by
  unfold State.holdOutputs
  extract_lets +onlyGivenNames v1
  clear_value v1
  extract_lets +onlyGivenNames v2
  have h2 : Keeps true true true true v2 s := by
    unfold v2
    refine .ite ?_ ?_
    · refine .trans (State.emit_keeps _ _) ?_
      exact .refl _
    exact .refl _
  clear_value v2
  extract_lets +onlyGivenNames v3
  have h3 : Keeps true true true true v3 s := by
    unfold v3
    refine .trans (foldl_keeps (m := true) (k := true) (r := true) (p := true) ?_) ?_
    · intro a4_0 a4_1
      refine .ite ?_ ?_
      · refine .trans (State.emit_keeps _ _) ?_
        exact .refl _
      exact .refl _
    assumption
  clear_value v3
  refine .trans (State.modTrigOut_keeps _ _ _) ?_
  assumption

theorem State.safeInputs_keeps (s : State) :
    Keeps true true true true (State.safeInputs s) s := by
  unfold State.safeInputs
  extract_lets +onlyGivenNames v1
  have h1 : Keeps true true true true v1 s := by
    unfold v1
    refine .trans (State.each_keeps (m := true) (k := true) (r := true) (p := true) ?_) ?_
    · intro a2_0 a2_1
      refine .trans (State.afeSet_keeps _ _ _ _ _ _ _) ?_
      exact .refl _
    exact .refl _
  clear_value v1
  refine .trans (State.holdOutputs_keeps _ _) ?_
  refine .trans (State.holdOutputs_keeps _ _) ?_
  assumption

theorem State.safePark_keeps (s : State) :
    Keeps true true true false (State.safePark s) s := by
  unfold State.safePark
  extract_lets +onlyGivenNames v1
  have h1 : Keeps true true true false v1 s := by
    unfold v1
    refine .trans (State.each_keeps (m := true) (k := true) (r := true) (p := false) ?_) ?_
    · intro a2_0 a2_1
      refine .trans (State.srEnter_keeps _ _ _) ?_
      exact .refl _
    exact .refl _
  clear_value v1
  extract_lets +onlyGivenNames v3
  have h3 : Keeps true true true false v3 s := by
    unfold v3
    refine .trans (State.each_keeps (m := true) (k := true) (r := true) (p := false) ?_) ?_
    · intro a4_0 a4_1
      refine .trans (State.setOut_keeps _ _ _) ?_
      exact .refl _
    assumption
  clear_value v3
  refine .trans (State.each_keeps (m := true) (k := true) (r := true) (p := false) ?_) ?_
  · intro a5_0 a5_1
    refine .trans (State.domainDown_keeps _ _) ?_
    exact .refl _
  assumption

theorem State.ringFault_keeps (s : State) (n : ℕ) :
    Keeps true true true true (State.ringFault s n) s := by
  unfold State.ringFault
  extract_lets +onlyGivenNames v1
  have h1 : Keeps true true true true v1 s := by
    unfold v1
    refine .trans (State.modRing_keeps _ _ _) ?_
    exact .refl _
  clear_value v1
  extract_lets +onlyGivenNames v2
  have h2 : Keeps true true true true v2 s := by
    unfold v2
    refine .trans (State.irqBit_keeps _ _ _) ?_
    refine .trans (State.setErr_keeps _ _ _) ?_
    refine .trans (State.setReg_keeps _ _ _ _) ?_
    assumption
  clear_value v2
  split
  · rename_i b3_0 b3_1 b3_2 b3_3
    have kb3_3 := State.drawNat_keeps v2
    rw [b3_3] at kb3_3
    replace kb3_3 := Keeps.trans (m := true) (k := true) (r := true) (p := true) kb3_3 (s := s) (by first | exact .refl _ | assumption)
    refine .trans (State.logPage_keeps _ _ _ _ _ _ _) ?_
    assumption

theorem State.ringMessage_keeps (s : State) (n : ℕ) :
    Keeps true true true true (State.ringMessage s n) s := by
  unfold State.ringMessage
  extract_lets +onlyGivenNames v1
  clear_value v1
  refine .ite ?_ ?_
  · exact .refl _
  extract_lets +onlyGivenNames v2
  clear_value v2
  refine .ite ?_ ?_
  · refine .trans (State.sendMsix_keeps _ _) ?_
    refine .trans (State.modRing_keeps _ _ _) ?_
    exact .refl _
  refine .trans (State.modRing_keeps _ _ _) ?_
  exact .refl _

theorem State.holeAccess_keeps (s : State) (m : ℕ) (u : ℕ) :
    Keeps true true true true (State.holeAccess s m u) s := by
  unfold State.holeAccess
  extract_lets +onlyGivenNames v1
  clear_value v1
  extract_lets +onlyGivenNames v2
  have h2 : Keeps true true true true v2 s := by
    unfold v2
    refine .trans (State.setErr_keeps _ _ _) ?_
    refine .trans (State.count_keeps _ _ _) ?_
    exact .refl _
  clear_value v2
  extract_lets +onlyGivenNames v3
  clear_value v3
  refine .ite ?_ ?_
  · assumption
  refine .trans (State.logPage_keeps _ _ _ _ _ _ _) ?_
  refine .trans (State.modStack_keeps _ _ _) ?_
  assumption

theorem State.storeMem_keeps (s : State) (u : ℕ) (bs : List (Byte × Bool)) :
    Keeps false true true true (State.storeMem s u bs) s := by
  unfold State.storeMem
  refine .ite ?_ ?_
  · extract_lets +onlyGivenNames v1
    have h1 : Keeps false true true true v1 s := by
      unfold v1
      refine .trans (State.writeMem_keeps _ _ _) ?_
      exact .refl _
    clear_value v1
    refine .trans (foldl_keeps (m := false) (k := true) (r := true) (p := true) ?_) ?_
    · intro a2_0 a2_1
      refine .ite ?_ ?_
      · refine .trans (State.setPoison_keeps _ _ _) ?_
        exact .refl _
      exact .refl _
    assumption
  refine .trans (foldl_keeps (m := false) (k := true) (r := true) (p := true) ?_) ?_
  · intro a3_0 a3_1
    extract_lets +onlyGivenNames v4
    clear_value v4
    extract_lets +onlyGivenNames v5
    clear_value v5
    refine .ite ?_ ?_
    · extract_lets +onlyGivenNames v6
      have h6 : Keeps false true true true v6 a3_0 := by
        unfold v6
        refine .trans (State.writeMem_keeps _ _ _) ?_
        exact .refl _
      clear_value v6
      refine .ite ?_ ?_
      · refine .trans (State.setPoison_keeps _ _ _) ?_
        assumption
      assumption
    refine .trans (State.holeAccess_keeps _ _ _) ?_
    exact .refl _
  exact .refl _

theorem State.ringWrite_keeps (s : State) (r : Ring) (a : ℕ) (bs : List Byte) :
    Keeps false true true true (State.ringWrite s r a bs) s := by
  unfold State.ringWrite
  refine .ite ?_ ?_
  · refine .trans (State.emit_keeps _ _) ?_
    exact .refl _
  refine .trans (State.storeMem_keeps _ _ _) ?_
  exact .refl _

theorem execRingProduce_keeps (ring : Fin 32768) (ok : Bool) (s : State) :
    Res.keeps false true true true (execRingProduce ring ok s) s := by
  unfold execRingProduce
  extract_lets +onlyGivenNames v1
  clear_value v1
  extract_lets +onlyGivenNames v2
  clear_value v2
  split
  · refine Res.keeps_next ?_
    exact .refl _
  · refine Res.keeps_ite ?_ ?_
    · refine Res.keeps_next ?_
      exact .refl _
    extract_lets +onlyGivenNames v3
    clear_value v3
    refine Res.keeps_ite ?_ ?_
    · refine Res.keeps_next ?_
      refine .ite ?_ ?_
      · exact .refl _
      refine .trans (State.modRing_keeps _ _ _) ?_
      exact .refl _
    refine Res.keeps_ite ?_ ?_
    · refine Res.keeps_next ?_
      exact .refl _
    refine Res.keeps_ite ?_ ?_
    · refine Res.keeps_next ?_
      refine .trans (State.ringFault_keeps _ _) ?_
      exact .refl _
    extract_lets +onlyGivenNames v4
    have h4 : Keeps false true true true v4 s := by
      unfold v4
      refine .trans (State.ringWrite_keeps _ _ _ _) ?_
      exact .refl _
    clear_value v4
    extract_lets +onlyGivenNames v5
    have h5 : Keeps false true true true v5 s := by
      unfold v5
      refine .trans (State.modRing_keeps _ _ _) ?_
      assumption
    clear_value v5
    refine Res.keeps_next ?_
    refine .trans (State.ringMessage_keeps _ _) ?_
    assumption

theorem State.modRec_keeps (s : State) (task : ℕ) (i : ℕ) (seq : ℕ) (f : StreamRec → StreamRec) :
    Keeps true true true true (State.modRec s task i seq f) s := by
  unfold State.modRec
  refine .trans (State.modPort_keeps _ _ _ _) ?_
  exact .refl _

theorem State.payUnit_keeps (s : State) (task : ℕ) (i : ℕ) (n : ℕ) (free : Bool) :
    Keeps true true true true (State.payUnit s task i n free) s := by
  unfold State.payUnit
  split
  · exact .refl _
  · extract_lets +onlyGivenNames v1
    clear_value v1
    extract_lets +onlyGivenNames v2
    have h2 : Keeps true true true true v2 s := by
      unfold v2
      refine .ite ?_ ?_
      · exact .refl _
      refine .trans (State.modPort_keeps _ _ _ _) ?_
      exact .refl _
    clear_value v2
    extract_lets +onlyGivenNames v3
    clear_value v3
    extract_lets +onlyGivenNames v4
    have h4 : Keeps true true true true v4 s := by
      unfold v4
      refine .trans (State.setReg_keeps _ _ _ _) ?_
      assumption
    clear_value v4
    refine .congr (u := v4) ?_
    assumption

theorem State.recordWaits_keeps (s : State) (task : ℕ) (i : ℕ) :
    Keeps true true true true (State.recordWaits s task i) s := by
  unfold State.recordWaits
  split
  · exact .refl _
  · split
    · exact .refl _
    · split
      · refine .ite ?_ ?_
        · exact .refl _
        refine .trans (State.modPort_keeps _ _ _ _) ?_
        refine .trans (State.count_keeps _ _ _) ?_
        exact .refl _
      · exact .refl _

theorem State.modFlow_keeps (s : State) (task : ℕ) (i : ℕ) (f : Flow → Flow) :
    Keeps true true true true (State.modFlow s task i f) s := by
  unfold State.modFlow
  refine .trans (State.modPort_keeps _ _ _ _) ?_
  exact .refl _

theorem State.sendVita_keeps (s : State) (task : ℕ) (i : ℕ) (seq : ℕ) (load : ℕ) (vita : List Byte) :
    Keeps true true true true (State.sendVita s task i seq load vita) s := by
  unfold State.sendVita
  extract_lets +onlyGivenNames v1
  clear_value v1
  extract_lets +onlyGivenNames v2
  have h2 : Keeps true true true true v2 s := by
    unfold v2
    refine .trans (State.count_keeps _ _ _) ?_
    exact .refl _
  clear_value v2
  refine .ite ?_ ?_
  · split
    · assumption
    · extract_lets +onlyGivenNames v3
      clear_value v3
      extract_lets +onlyGivenNames v4
      clear_value v4
      extract_lets +onlyGivenNames v5
      have h5 : Keeps true true true true v5 s := by
        unfold v5
        refine .trans (State.modFlow_keeps _ _ _ _) ?_
        assumption
      clear_value v5
      refine .trans (State.emit_keeps _ _) ?_
      assumption
  refine .trans (State.emit_keeps _ _) ?_
  assumption

theorem State.sendContext_keeps (s : State) (task : ℕ) (p : StreamPort) (seq : ℕ) (six : ℕ) (body : List Byte) (changed : Bool) :
    Keeps true true true true (State.sendContext s task p seq six body changed) s := by
  unfold State.sendContext
  extract_lets +onlyGivenNames v1
  clear_value v1
  extract_lets +onlyGivenNames v2
  clear_value v2
  refine .trans (State.modPort_keeps _ _ _ _) ?_
  refine .trans (State.sendVita_keeps _ _ _ _ _ _) ?_
  exact .refl _

theorem State.ethTransfer_keeps (s : State) (t : Stream) (p : StreamPort) (r : StreamRec) :
    Keeps true true true true (State.ethTransfer s t p r) s := by
  unfold State.ethTransfer
  extract_lets +onlyGivenNames v1
  clear_value v1
  extract_lets +onlyGivenNames v2
  clear_value v2
  extract_lets +onlyGivenNames v3
  clear_value v3
  extract_lets +onlyGivenNames v4
  clear_value v4
  refine .ite ?_ ?_
  · refine .trans (State.recordWaits_keeps _ _ _) ?_
    exact .refl _
  refine .ite ?_ ?_
  · refine .trans (State.recordWaits_keeps _ _ _) ?_
    exact .refl _
  refine .ite ?_ ?_
  · refine .trans (State.sendContext_keeps _ _ _ _ _ _ _) ?_
    exact .refl _
  extract_lets +onlyGivenNames v5
  have h5 : Keeps true true true true v5 s := by
    unfold v5
    refine .trans (State.sendVita_keeps _ _ _ _ _ _) ?_
    exact .refl _
  clear_value v5
  extract_lets +onlyGivenNames v6
  have h6 : Keeps true true true true v6 s := by
    unfold v6
    refine .trans (State.modPort_keeps _ _ _ _) ?_
    assumption
  clear_value v6
  extract_lets +onlyGivenNames v7
  clear_value v7
  extract_lets +onlyGivenNames v8
  have h8 : Keeps true true true true v8 s := by
    unfold v8
    refine .trans (State.modRec_keeps _ _ _ _ _) ?_
    assumption
  clear_value v8
  refine .trans (State.payUnit_keeps _ _ _ _ _) ?_
  assumption

theorem State.hostTransfer_keeps (s : State) (t : Stream) (p : StreamPort) (r : StreamRec) :
    Keeps true true true true (State.hostTransfer s t p r) s := by
  unfold State.hostTransfer
  extract_lets +onlyGivenNames v1
  clear_value v1
  extract_lets +onlyGivenNames v2
  clear_value v2
  extract_lets +onlyGivenNames v3
  clear_value v3
  split
  · refine .trans (State.recordWaits_keeps _ _ _) ?_
    exact .refl _
  · extract_lets +onlyGivenNames v4
    clear_value v4
    extract_lets +onlyGivenNames v5
    clear_value v5
    extract_lets +onlyGivenNames v6
    clear_value v6
    extract_lets +onlyGivenNames v7
    clear_value v7
    extract_lets +onlyGivenNames v8
    clear_value v8
    extract_lets +onlyGivenNames v9
    clear_value v9
    refine .ite ?_ ?_
    · refine .trans (State.recordWaits_keeps _ _ _) ?_
      exact .refl _
    extract_lets +onlyGivenNames v10
    clear_value v10
    extract_lets +onlyGivenNames v11
    have h11 : Keeps true true true true v11 s := by
      unfold v11
      refine .trans (State.emit_keeps _ _) ?_
      exact .refl _
    clear_value v11
    extract_lets +onlyGivenNames v12
    clear_value v12
    extract_lets +onlyGivenNames v13
    have h13 : Keeps true true true true v13 s := by
      unfold v13
      refine .trans (State.modRec_keeps _ _ _ _ _) ?_
      assumption
    clear_value v13
    extract_lets +onlyGivenNames v14
    have h14 : Keeps true true true true v14 s := by
      unfold v14
      refine .trans (State.payUnit_keeps _ _ _ _ _) ?_
      assumption
    clear_value v14
    refine .ite ?_ ?_
    · extract_lets +onlyGivenNames v15
      clear_value v15
      extract_lets +onlyGivenNames v16
      clear_value v16
      refine .trans (State.modRing_keeps _ _ _) ?_
      assumption
    assumption

theorem State.refreshDrive_keeps (s : State) (d : ℕ) :
    Keeps true true true true (State.refreshDrive s d) s := by
  unfold State.refreshDrive
  extract_lets +onlyGivenNames v1
  clear_value v1
  refine .trans (State.setReg_keeps _ _ _ _) ?_
  exact .refl _

theorem State.nvmeWrite_keeps (s : State) (task d block : Nat) (bytes : List Byte) (seqs : List Nat) :
    ∀ t, s.nvmeWrite task d block bytes seqs = some t → Keeps true true true true t s := by
  intro t h
  unfold State.nvmeWrite at h
  split at h
  · cases h
  · split at h
    · cases h
    · split at h
      · cases h
      · split at h
        · cases h
        · rename_i slot _ qid s1 e
          cases h
          have h1 := State.nvmeIssue_keeps _ _ _ _ _ _ _ e
          exact .trans (State.refreshDrive_keeps _ _) (.congr h1)

theorem State.claimExtent_keeps (s : State) (t : Stream) (p : StreamPort) (v : Drive) (e : Nat) :
    ∀ u, s.claimExtent t p v e = some u → Keeps true true true true u s := by
  intro u h
  unfold State.claimExtent at h
  dsimp only at h
  split at h
  · cases h
  · rename_i s1 e1
    cases h
    exact .trans (State.modPort_keeps _ _ _ _) (.trans (State.modDrive_keeps _ _ _) (State.nvmeWrite_keeps _ _ _ _ _ _ _ e1))

theorem State.reassign_keeps (s : State) (task : Nat) (a : List StreamRec) : Keeps true true true true (s.reassign task a) s := by
  induction a generalizing s with
  | nil => exact .refl _
  | cons r rest ih =>
    unfold State.reassign
    dsimp only
    split
    · exact ih _
    · split
      · exact .refl _
      · split
        · exact .refl _
        · exact .trans (ih _) (.trans (State.putOnPort_keeps _ _ _ _) (State.modPort_keeps _ _ _ _))

theorem State.leaveSet_keeps (s : State) (task : ℕ) (d : ℕ) :
    Keeps true true true true (State.leaveSet s task d) s := by
  unfold State.leaveSet
  split
  · exact .refl _
  · split
    · exact .refl _
    · extract_lets +onlyGivenNames v1
      have h1 : Keeps true true true true v1 s := by
        unfold v1
        refine .trans (State.modStream_keeps _ _ _) ?_
        exact .refl _
      clear_value v1
      refine .trans (State.refreshStr_keeps _) ?_
      refine .trans (State.reassign_keeps _ _ _) ?_
      assumption

theorem State.nviMark_keeps (s : State) (off : ℕ) (d : ℕ) (b : Bool) :
    Keeps true true true true (State.nviMark s off d b) s := by
  unfold State.nviMark
  refine .trans (State.setReg_keeps _ _ _ _) ?_
  exact .refl _

theorem State.storeFull_keeps (s : State) (d : ℕ) :
    Keeps true true true true (State.storeFull s d) s := by
  unfold State.storeFull
  extract_lets +onlyGivenNames v1
  have h1 : Keeps true true true true v1 s := by
    unfold v1
    refine .trans (State.setErr_keeps _ _ _) ?_
    refine .trans (State.nviMark_keeps _ _ _ _) ?_
    exact .refl _
  clear_value v1
  refine .trans (State.each_keeps (m := true) (k := true) (r := true) (p := true) ?_) ?_
  · intro a2_0 a2_1
    split
    · refine .ite ?_ ?_
      · refine .trans (State.leaveSet_keeps _ _ _) ?_
        exact .refl _
      exact .refl _
    · exact .refl _
  assumption

theorem State.nvmeTransfer_keeps (s : State) (t : Stream) (p : StreamPort) (v : Drive) : Keeps true true true true (s.nvmeTransfer t p v) s := by
  have hg : ∀ (o : Option State) (u : State), (∀ w, o = some w → Keeps true true true true w s) → Keeps true true true true u s →
      Keeps true true true true (o.getD u) s := fun o u h1 h2 => by cases o with | none => exact h2 | some w => exact h1 w rfl
  have hc : ∀ e, Keeps true true true true ((s.claimExtent t p v e).getD (s.recordWaits t.task p.index)) s :=
    fun e => hg _ _ (State.claimExtent_keeps _ _ _ _ _) (State.recordWaits_keeps _ _ _)
  have hf : Keeps true true true true ((s.recordWaits t.task p.index).storeFull p.index) s := .trans (State.storeFull_keeps _ _) (State.recordWaits_keeps _ _ _)
  unfold State.nvmeTransfer
  extract_lets +onlyGivenNames d
  split
  · split
    · extract_lets +onlyGivenNames all total tail n parts bytes bytes2
      clear_value bytes2 parts n
      split
      · exact .refl _
      · split
        · exact State.recordWaits_keeps _ _ _
        · rename_i s1 e1
          refine .trans (State.payUnit_keeps _ _ _ _ _) (.trans (State.each_keeps (m := true) (k := true) (r := true) (p := true) fun s x => State.modRec_keeps _ _ _ _ _)
            (.trans (State.modPort_keeps _ _ _ _) (State.nvmeWrite_keeps _ _ _ _ _ _ _ e1)))
    · split
      · exact hc _
      · exact hf
  · split
    · exact hc _
    · exact hf

theorem execStreamTransfer_keeps (task : BitVec 32) (port : Fin 32) (s : State) :
    Res.keeps true true true true (execStreamTransfer task port s) s := by
  unfold execStreamTransfer
  extract_lets +onlyGivenNames v1
  have h1 : Keeps true true true true v1 s := by
    unfold v1
    refine .trans (State.modPort_keeps _ _ _ _) ?_
    exact .refl _
  clear_value v1
  split
  · refine Res.keeps_next ?_
    assumption
  · split
    · refine Res.keeps_next ?_
      assumption
    · split
      · refine Res.keeps_next ?_
        assumption
      · refine Res.keeps_ite ?_ ?_
        · refine Res.keeps_next ?_
          assumption
        refine Res.keeps_ite ?_ ?_
        · refine Res.keeps_next ?_
          refine .trans (State.hostTransfer_keeps _ _ _ _) ?_
          assumption
        refine Res.keeps_ite ?_ ?_
        · refine Res.keeps_next ?_
          refine .trans (State.ethTransfer_keeps _ _ _ _) ?_
          assumption
        split
        · refine Res.keeps_next ?_
          refine .trans (State.nvmeTransfer_keeps _ _ _ _) ?_
          assumption
        · refine Res.keeps_next ?_
          refine .trans (State.recordWaits_keeps _ _ _) ?_
          assumption

theorem State.flushStream_keeps (s : State) (task : ℕ) :
    Keeps false true true true (State.flushStream s task) s := by
  unfold State.flushStream
  split
  · exact .refl _
  · refine .trans (State.each_keeps (m := false) (k := true) (r := true) (p := true) ?_) ?_
    · intro a1_0 a1_1
      extract_lets +onlyGivenNames v2
      have h2 : Keeps false true true true v2 a1_0 := by
        unfold v2
        refine .trans (State.each_keeps (m := false) (k := true) (r := true) (p := true) ?_) ?_
        · intro a3_0 a3_1
          exact orStay_keeps (execStreamTransfer_keeps _ _ _)
        exact .refl _
      clear_value v2
      refine .ite ?_ ?_
      · refine .trans (State.each_keeps (m := false) (k := true) (r := true) (p := true) ?_) ?_
        · intro a4_0 a4_1
          exact orStay_keeps (execRingProduce_keeps _ _ _)
        assumption
      assumption
    exact .refl _

theorem State.closeAll_keeps (s : State) (reason : ℕ) (code : ℕ) :
    Keeps false true true false (State.closeAll s reason code) s := by
  unfold State.closeAll
  extract_lets +onlyGivenNames v1
  clear_value v1
  refine .trans (State.each_keeps (m := false) (k := true) (r := true) (p := false) ?_) ?_
  · intro a2_0 a2_1
    refine .trans (State.flushStream_keeps _ _) ?_
    exact .refl _
  refine .trans (State.each_keeps (m := false) (k := true) (r := true) (p := false) ?_) ?_
  · intro a3_0 a3_1
    refine .trans (State.closeStream_keeps _ _ _ _ _ _) ?_
    exact .refl _
  exact .refl _

theorem execSafeStateEntry_keeps (s : State) :
    Res.keeps false true true false (execSafeStateEntry s) s := by
  unfold execSafeStateEntry
  split
  · refine Res.keeps_next ?_
    exact .refl _
  · refine Res.keeps_ite ?_ ?_
    · refine Res.keeps_next ?_
      exact .refl _
    extract_lets +onlyGivenNames v1
    have h1 : Keeps false true true false v1 s := by
      unfold v1
      refine .trans (State.wf_keeps _ _ _ _) ?_
      refine .trans (State.wb_keeps _ _ _ _) ?_
      exact .refl _
    clear_value v1
    extract_lets +onlyGivenNames v2
    have h2 : Keeps false true true false v2 s := by
      unfold v2
      refine .trans (State.wb_keeps _ _ _ _) ?_
      assumption
    clear_value v2
    extract_lets +onlyGivenNames v3
    have h3 : Keeps false true true false v3 s := by
      unfold v3
      refine .trans (State.irqBit_keeps _ _ _) ?_
      refine .trans (State.logPage_keeps _ _ _ _ _ _ _) ?_
      assumption
    clear_value v3
    refine Res.keeps_next ?_
    refine .trans (State.safePark_keeps _) ?_
    refine .trans (State.closeAll_keeps _ _ _) ?_
    refine .trans (State.safeInputs_keeps _) ?_
    assumption

theorem execEventEval_keeps (pipe : Fin 6) (ev : Fin 4) (s : State) :
    Res.keeps false true true true (execEventEval pipe ev s) s := by
  unfold execEventEval
  split
  · rename_i b1_0 b1_1 b1_2 b1_3
    have kb1_3 := State.evEvaluate_keeps s (↑pipe) (↑ev)
    rw [b1_3] at kb1_3
    replace kb1_3 := Keeps.trans (m := false) (k := true) (r := true) (p := true) kb1_3 (s := s) (by first | exact .refl _ | assumption)
    refine Res.keeps_next ?_
    refine .trans (State.sheetEvent_keeps _ _) ?_
    assumption
  · rename_i b2_0 b2_1 b2_2
    have kb2_2 := State.evEvaluate_keeps s (↑pipe) (↑ev)
    rw [b2_2] at kb2_2
    replace kb2_2 := Keeps.trans (m := false) (k := true) (r := true) (p := true) kb2_2 (s := s) (by first | exact .refl _ | assumption)
    refine Res.keeps_next ?_
    assumption

theorem execSheetReady_keeps (pipe : Fin 6) (s : State) :
    Res.keeps false true true true (execSheetReady pipe s) s := by
  unfold execSheetReady
  refine Res.keeps_next ?_
  refine .trans (State.sheetReady_keeps _ _) ?_
  exact .refl _

theorem execReleaseSheet_keeps (who : Issuer) (pipe : Fin 6) (tag : ℕ) (s : State) :
    Res.keeps true true true true (execReleaseSheet who pipe tag s) s := by
  unfold execReleaseSheet
  extract_lets +onlyGivenNames v1
  clear_value v1
  extract_lets +onlyGivenNames v2
  clear_value v2
  refine Res.keeps_next ?_
  refine .trans (State.command_keeps (m := true) (k := true) (r := true) (p := true) ?_) ?_
  · intro a3_0
    refine .ite ?_ ?_
    · refine .trans (State.rejectOp_keeps _ _ _ _ _) ?_
      exact .refl _
    extract_lets +onlyGivenNames v4
    clear_value v4
    split
    · refine .trans (State.rejectOp_keeps _ _ _ _ _) ?_
      exact .refl _
    · refine .ite ?_ ?_
      · refine .trans (State.rejectOp_keeps _ _ _ _ _) ?_
        exact .refl _
      refine .ite ?_ ?_
      · refine .trans (State.doneOp_keeps _ _) ?_
        refine .trans (State.accept_keeps _ _ _) ?_
        exact .refl _
      refine .trans (State.doneOp_keeps _ _) ?_
      refine .trans (State.releaseAt_keeps _ _ _) ?_
      refine .trans (State.accept_keeps _ _ _) ?_
      exact .refl _
  exact .refl _

theorem State.capResume_keeps (s : State) (p : ℕ) (reason : ℕ) :
    Keeps false true true true (State.capResume s p reason) s := by
  unfold State.capResume
  extract_lets +onlyGivenNames v1
  have h1 : Keeps false true true true v1 s := by
    unfold v1
    refine .trans (State.pauseEnd_keeps _ _) ?_
    exact .refl _
  clear_value v1
  split
  · refine .ite ?_ ?_
    · refine .trans (State.wantEpoch_keeps _ _) ?_
      refine .trans (State.wrEnter_keeps _ _ _) ?_
      assumption
    assumption
  · assumption

theorem execCaptureSample_keeps (pipe : Fin 6) (s : State) :
    Res.keeps false true true true (execCaptureSample pipe s) s := by
  unfold execCaptureSample
  refine Res.keeps_next ?_
  refine .trans (State.captureSample_keeps _ _) ?_
  exact .refl _

theorem State.writerResume_keeps (s : State) (p : ℕ) (at0 : ℕ) :
    Keeps true true true true (State.writerResume s p at0) s := by
  unfold State.writerResume
  extract_lets +onlyGivenNames v1
  clear_value v1
  refine .trans (State.irqBit_keeps _ _ _) ?_
  refine .trans (State.modCapture_keeps _ _ _) ?_
  refine .trans (State.wantEpoch_keeps _ _) ?_
  refine .trans (State.wrEnter_keeps _ _ _) ?_
  exact .refl _

theorem execRestart_keeps (who : Issuer) (pipe : Fin 6) (tag : ℕ) (s : State) :
    Res.keeps true true true true (execRestart who pipe tag s) s := by
  unfold execRestart
  extract_lets +onlyGivenNames v1
  clear_value v1
  extract_lets +onlyGivenNames v2
  clear_value v2
  refine Res.keeps_next ?_
  refine .trans (State.command_keeps (m := true) (k := true) (r := true) (p := true) ?_) ?_
  · intro a3_0
    refine .ite ?_ ?_
    · refine .trans (State.rejectOp_keeps _ _ _ _ _) ?_
      exact .refl _
    refine .ite ?_ ?_
    · refine .trans (State.rejectOp_keeps _ _ _ _ _) ?_
      exact .refl _
    refine .ite ?_ ?_
    · refine .trans (State.rejectOp_keeps _ _ _ _ _) ?_
      exact .refl _
    refine .trans (State.doneOp_keeps _ _) ?_
    refine .trans (State.writerResume_keeps _ _ _) ?_
    refine .trans (State.accept_keeps _ _ _) ?_
    exact .refl _
  exact .refl _

theorem execWriterAutoResume_keeps (pipe : Fin 6) (s : State) :
    Res.keeps true true true true (execWriterAutoResume pipe s) s := by
  unfold execWriterAutoResume
  extract_lets +onlyGivenNames v1
  clear_value v1
  refine Res.keeps_ite ?_ ?_
  · refine Res.keeps_next ?_
    refine .trans (State.writerResume_keeps _ _ _) ?_
    exact .refl _
  refine Res.keeps_next ?_
  exact .refl _

theorem State.planeBytes_keeps (s : State) (p : ℕ) (n : ℕ) (off : ℕ) (bs : List Byte) :
    Keeps false true true true (State.planeBytes s p n off bs) s := by
  unfold State.planeBytes
  extract_lets +onlyGivenNames v1
  clear_value v1
  extract_lets +onlyGivenNames v2
  clear_value v2
  extract_lets +onlyGivenNames v3
  clear_value v3
  refine .trans (State.writeMem_keeps _ _ _) ?_
  refine .trans (State.writeMem_keeps _ _ _) ?_
  exact .refl _

theorem State.planeRecord_keeps (s : State) (p : ℕ) (n : ℕ) (r : Record) :
    Keeps false true true true (State.planeRecord s p n r) s := by
  unfold State.planeRecord
  extract_lets +onlyGivenNames v1
  clear_value v1
  extract_lets +onlyGivenNames v2
  clear_value v2
  extract_lets +onlyGivenNames v3
  clear_value v3
  extract_lets +onlyGivenNames v4
  have h4 : Keeps false true true true v4 s := by
    unfold v4
    refine .trans (State.wf_keeps _ _ _ _) ?_
    refine .trans (State.planeBytes_keeps _ _ _ _ _) ?_
    exact .refl _
  clear_value v4
  extract_lets +onlyGivenNames v5
  have h5 : Keeps false true true true v5 s := by
    unfold v5
    refine .trans (State.modCapture_keeps _ _ _) ?_
    assumption
  clear_value v5
  extract_lets +onlyGivenNames v6
  have h6 : Keeps false true true true v6 s := by
    unfold v6
    refine .ite ?_ ?_
    · refine .trans (State.irqBit_keeps _ _ _) ?_
      assumption
    assumption
  clear_value v6
  refine .ite ?_ ?_
  · assumption
  refine .trans (State.addReady_keeps _ _ _) ?_
  assumption

theorem execRecordPlaneWrite_keeps (pipe : Fin 6) (s : State) :
    Res.keeps false true true true (execRecordPlaneWrite pipe s) s := by
  unfold execRecordPlaneWrite
  extract_lets +onlyGivenNames v1
  clear_value v1
  extract_lets +onlyGivenNames v2
  clear_value v2
  split
  · refine Res.keeps_next ?_
    exact .refl _
  · extract_lets +onlyGivenNames v3
    have h3 : Keeps false true true true v3 s := by
      unfold v3
      refine .trans (State.modCapture_keeps _ _ _) ?_
      exact .refl _
    clear_value v3
    extract_lets +onlyGivenNames v4
    clear_value v4
    extract_lets +onlyGivenNames v5
    clear_value v5
    extract_lets +onlyGivenNames v6
    clear_value v6
    extract_lets +onlyGivenNames v7
    clear_value v7
    extract_lets +onlyGivenNames v8
    clear_value v8
    refine Res.keeps_ite ?_ ?_
    · refine Res.keeps_next ?_
      refine .trans (State.modCapture_keeps _ _ _) ?_
      refine .trans (State.setErr_keeps _ _ _) ?_
      refine .trans (State.count_keeps _ _ _) ?_
      assumption
    split
    · refine Res.keeps_next ?_
      refine .trans (State.planeRecord_keeps _ _ _ _) ?_
      assumption
    · extract_lets +onlyGivenNames v9
      have h9 : Keeps false true true true v9 s := by
        unfold v9
        refine .trans (State.modCapture_keeps _ _ _) ?_
        assumption
      clear_value v9
      refine Res.keeps_next ?_
      refine .trans (State.planeRecord_keeps _ _ _ _) ?_
      refine .trans (State.planeRecord_keeps _ _ _ _) ?_
      assumption

theorem State.moveRd_keeps (s : State) (p : ℕ) (n : ℕ) (off : ℕ) :
    Keeps true true true true (State.moveRd s p n off) s := by
  unfold State.moveRd
  extract_lets +onlyGivenNames v1
  clear_value v1
  extract_lets +onlyGivenNames v2
  clear_value v2
  extract_lets +onlyGivenNames v3
  clear_value v3
  extract_lets +onlyGivenNames v4
  clear_value v4
  refine .trans (State.modCapture_keeps _ _ _) ?_
  refine .trans (State.wf_keeps _ _ _ _) ?_
  exact .refl _

theorem execRecordPlaneRdWrite_keeps (who : Issuer) (pipe : Fin 6) (plane : Fin 3) (value : BitVec 32) (s : State) :
    Res.keeps true true true true (execRecordPlaneRdWrite who pipe plane value s) s := by
  unfold execRecordPlaneRdWrite
  extract_lets +onlyGivenNames v1
  clear_value v1
  extract_lets +onlyGivenNames v2
  clear_value v2
  extract_lets +onlyGivenNames v3
  clear_value v3
  refine Res.keeps_next ?_
  refine .trans (State.write_keeps (m := true) (k := true) (r := true) (p := true) ?_) ?_
  · extract_lets +onlyGivenNames v5
    clear_value v5
    extract_lets +onlyGivenNames v6
    clear_value v6
    extract_lets +onlyGivenNames v7
    clear_value v7
    refine .ite ?_ ?_
    · refine .trans (State.setErr_keeps _ _ _) ?_
      exact .refl _
    refine .trans (State.moveRd_keeps _ _ _ _) ?_
    exact .refl _
  exact .refl _

theorem State.modTrace_keeps (s : State) (p : ℕ) (time : ℕ) (f : TraceAcc → TraceAcc) :
    Keeps true true true true (State.modTrace s p time f) s := by
  unfold State.modTrace
  refine .trans (State.modCapture_keeps _ _ _) ?_
  exact .refl _

theorem State.traceSpectrum_keeps (s : State) (p : ℕ) (time : ℕ) (marks : ℕ) (bins : List Bin) :
    Keeps true true true true (State.traceSpectrum s p time marks bins) s := by
  unfold State.traceSpectrum
  extract_lets +onlyGivenNames v1
  clear_value v1
  refine .ite ?_ ?_
  · refine .trans (State.countDropped_keeps _ _ _) ?_
    exact .refl _
  refine .ite ?_ ?_
  · exact .refl _
  refine .ite ?_ ?_
  · refine .trans (State.modTrace_keeps _ _ _ _) ?_
    exact .refl _
  extract_lets +onlyGivenNames v2
  clear_value v2
  extract_lets +onlyGivenNames v3
  clear_value v3
  extract_lets +onlyGivenNames v4
  clear_value v4
  refine .trans (State.modTrace_keeps _ _ _ _) ?_
  exact .refl _

theorem State.drawWord_keeps (s : State) :
    Keeps true true true true (State.drawWord s).2 s := by
  unfold State.drawWord
  dsimp only
  refine .congr (u := s) ?_
  exact .refl _

theorem State.drawWords_keeps (s : State) (a : Nat) : Keeps true true true true (s.drawWords a).2 s := by
  induction a generalizing s with
  | zero => exact .refl _
  | succ n ih => exact .trans (ih _) (State.drawWord_keeps _)

theorem execTraceBoundary_keeps (pipe : Fin 6) (s : State) :
    Res.keeps true true true true (execTraceBoundary pipe s) s := by
  unfold execTraceBoundary
  extract_lets +onlyGivenNames v1
  clear_value v1
  extract_lets +onlyGivenNames v2
  clear_value v2
  refine Res.keeps_ite ?_ ?_
  · refine Res.keeps_next ?_
    exact .refl _
  split
  · refine Res.keeps_next ?_
    exact .refl _
  · extract_lets +onlyGivenNames v3
    have h3 : Keeps true true true true v3 s := by
      unfold v3
      refine .trans (State.advanceTo_keeps _ _) ?_
      exact .refl _
    clear_value v3
    extract_lets +onlyGivenNames v4
    clear_value v4
    extract_lets +onlyGivenNames v5
    clear_value v5
    extract_lets +onlyGivenNames v6
    clear_value v6
    extract_lets +onlyGivenNames v7
    clear_value v7
    extract_lets +onlyGivenNames v8
    have h8 : Keeps true true true true v8.2 s := by
      unfold v8
      refine .trans (State.drawWords_keeps _ _) ?_
      assumption
    clear_value v8
    extract_lets +onlyGivenNames v9
    clear_value v9
    extract_lets +onlyGivenNames v10
    have h10 : Keeps true true true true v10 s := by
      unfold v10
      refine .ite ?_ ?_
      · assumption
      assumption
    clear_value v10
    extract_lets +onlyGivenNames v11
    clear_value v11
    extract_lets +onlyGivenNames v12
    clear_value v12
    extract_lets +onlyGivenNames v13
    clear_value v13
    extract_lets +onlyGivenNames v14
    clear_value v14
    extract_lets +onlyGivenNames v15
    clear_value v15
    extract_lets +onlyGivenNames v16
    clear_value v16
    extract_lets +onlyGivenNames v17
    clear_value v17
    extract_lets +onlyGivenNames v18
    have h18 : Keeps true true true true v18 s := by
      unfold v18
      refine .trans (State.wb_keeps _ _ _ _) ?_
      assumption
    clear_value v18
    extract_lets +onlyGivenNames v19
    have h19 : Keeps true true true true v19 s := by
      unfold v19
      refine .trans (State.modCapture_keeps _ _ _) ?_
      assumption
    clear_value v19
    refine Res.keeps_next ?_
    refine .trans (State.queueRecord_keeps _ _ _ _) ?_
    assumption

theorem State.endCommit_keeps (s : State) (key : ℕ) (due : ℕ) :
    Keeps true true true true (State.endCommit s key due) s := by
  unfold State.endCommit
  split
  · refine .ite ?_ ?_
    · refine .trans (State.doneOp_keeps _ _) ?_
      exact .refl _
    refine .trans (State.doneWith_keeps _ _ _) ?_
    exact .refl _
  · exact .refl _

theorem State.setCfg_keeps (s : State) (key : ℕ) (n : ℕ) :
    Keeps true true true true (State.setCfg s key n) s := by
  unfold State.setCfg
  split
  · refine .trans (State.wf_keeps _ _ _ _) ?_
    exact .refl _
  · exact .refl _

theorem State.passCommit_keeps (s : State) (key : ℕ) (a : PendApply) :
    Keeps true true true true (State.passCommit s key a) s := by
  unfold State.passCommit
  extract_lets +onlyGivenNames v1
  have h1 : Keeps true true true true v1 s := by
    unfold v1
    refine .trans (State.clearPend_keeps _ _) ?_
    refine .trans (State.advanceTo_keeps _ _) ?_
    exact .refl _
  clear_value v1
  refine .trans (State.endCommit_keeps _ _ _) ?_
  refine .ite ?_ ?_
  · refine .trans (State.setCfg_keeps _ _ _) ?_
    assumption
  assumption

theorem execCapApply_keeps (pipe : Fin 6) (s : State) :
    Res.keeps true true true true (execCapApply pipe s) s := by
  unfold execCapApply
  extract_lets +onlyGivenNames v1
  clear_value v1
  split
  · refine Res.keeps_next ?_
    exact .refl _
  · refine Res.keeps_ite ?_ ?_
    · refine Res.keeps_next ?_
      refine .trans (State.passCommit_keeps _ _ _) ?_
      exact .refl _
    extract_lets +onlyGivenNames v2
    have h2 : Keeps true true true true v2 s := by
      unfold v2
      refine .trans (State.applyWords_keeps _ _ _) ?_
      refine .trans (State.clearPend_keeps _ _) ?_
      refine .trans (State.advanceTo_keeps _ _) ?_
      exact .refl _
    clear_value v2
    refine Res.keeps_next ?_
    refine .trans (State.endCommit_keeps _ _ _) ?_
    refine .trans (State.irqBit_keeps _ _ _) ?_
    refine .trans (State.setCfg_keeps _ _ _) ?_
    refine .trans (State.mirrorGang_keeps _ _) ?_
    assumption

theorem execRedApply_keeps (pipe : Fin 6) (s : State) :
    Res.keeps true true true true (execRedApply pipe s) s := by
  unfold execRedApply
  extract_lets +onlyGivenNames v1
  clear_value v1
  extract_lets +onlyGivenNames v2
  clear_value v2
  split
  · refine Res.keeps_next ?_
    exact .refl _
  · refine Res.keeps_ite ?_ ?_
    · refine Res.keeps_next ?_
      refine .trans (State.passCommit_keeps _ _ _) ?_
      exact .refl _
    extract_lets +onlyGivenNames v3
    have h3 : Keeps true true true true v3 s := by
      unfold v3
      refine .trans (State.advanceTo_keeps _ _) ?_
      exact .refl _
    clear_value v3
    extract_lets +onlyGivenNames v4
    clear_value v4
    extract_lets +onlyGivenNames v5
    clear_value v5
    extract_lets +onlyGivenNames v6
    have h6 : Keeps true true true true v6 s := by
      unfold v6
      refine .trans (State.restartPlanes_keeps _ _ _) ?_
      assumption
    clear_value v6
    split
    · extract_lets +onlyGivenNames v7
      clear_value v7
      extract_lets +onlyGivenNames v8
      clear_value v8
      refine Res.keeps_next ?_
      extract_lets +onlyGivenNames v9
      have h9 : Keeps true true true true v9 s := by
        unfold v9
        refine .trans (State.applyWords_keeps _ _ _) ?_
        assumption
      clear_value v9
      refine .congr (u := v9) ?_
      assumption
    · extract_lets +onlyGivenNames v10
      have h10 : Keeps true true true true v10 s := by
        unfold v10
        refine .trans (State.mirrorGang_keeps _ _) ?_
        refine .trans (State.applyWords_keeps _ _ _) ?_
        refine .trans (State.clearPend_keeps _ _) ?_
        assumption
      clear_value v10
      extract_lets +onlyGivenNames v11
      have h11 : Keeps true true true true v11 s := by
        unfold v11
        refine .ite ?_ ?_
        · refine .trans (State.traceBegin_keeps _ _ _) ?_
          assumption
        assumption
      clear_value v11
      refine Res.keeps_next ?_
      refine .trans (State.endCommit_keeps _ _ _) ?_
      refine .trans (State.irqBit_keeps _ _ _) ?_
      refine .trans (State.setCfg_keeps _ _ _) ?_
      assumption

theorem execSheetCut_keeps (pipe : Fin 6) (s : State) :
    Res.keeps true true true true (execSheetCut pipe s) s := by
  unfold execSheetCut
  refine Res.keeps_next ?_
  refine .trans (State.sheetCut_keeps _ _) ?_
  exact .refl _

theorem State.dcFrame_keeps (s : State) (p : ℕ) (spare : Bool) (f : ℕ) (codes : List ℕ) :
    Keeps true true true true (State.dcFrame s p spare f codes).1 s := by
  unfold State.dcFrame
  extract_lets +onlyGivenNames v1
  clear_value v1
  refine .ite_fst ?_ ?_
  · dsimp only
    exact .refl _
  extract_lets +onlyGivenNames v2
  clear_value v2
  extract_lets +onlyGivenNames v3
  clear_value v3
  refine .ite_fst ?_ ?_
  · dsimp only
    refine .trans (State.wf_keeps _ _ _ _) ?_
    refine .trans (State.modChain_keeps _ _ _) ?_
    exact .refl _
  dsimp only
  refine .trans (State.wf_keeps _ _ _ _) ?_
  refine .trans (State.modChain_keeps _ _ _) ?_
  exact .refl _

theorem State.zoneCheck_keeps (s : State) (p : ℕ) :
    Keeps true true true true (State.zoneCheck s p) s := by
  unfold State.zoneCheck
  extract_lets +onlyGivenNames v1
  clear_value v1
  refine .ite ?_ ?_
  · refine .trans (State.setErr_keeps _ _ _) ?_
    exact .refl _
  exact .refl _

theorem State.pushFifo_keeps (s : State) (p : ℕ) (c : ChainSample) :
    Keeps true true true true (State.pushFifo s p c) s := by
  unfold State.pushFifo
  refine .ite ?_ ?_
  · exact .refl _
  refine .ite ?_ ?_
  · refine .trans (State.modChain_keeps _ _ _) ?_
    exact .refl _
  extract_lets +onlyGivenNames v1
  have h1 : Keeps true true true true v1 s := by
    unfold v1
    refine .trans (State.modChain_keeps _ _ _) ?_
    exact .refl _
  clear_value v1
  refine .trans (State.setErr_keeps _ _ _) ?_
  refine .trans (State.count_keeps _ _ _) ?_
  assumption

theorem State.tdUnit_keeps (s : State) (p : ℕ) (n : ℕ) (c : ChainSample) :
    Keeps true true true true (State.tdUnit s p n c) s := by
  unfold State.tdUnit
  extract_lets +onlyGivenNames v1
  clear_value v1
  extract_lets +onlyGivenNames v2
  clear_value v2
  refine .ite ?_ ?_
  · exact .refl _
  extract_lets +onlyGivenNames v3
  clear_value v3
  extract_lets +onlyGivenNames v4
  clear_value v4
  extract_lets +onlyGivenNames v5
  clear_value v5
  extract_lets +onlyGivenNames v6
  clear_value v6
  extract_lets +onlyGivenNames v7
  clear_value v7
  extract_lets +onlyGivenNames v8
  clear_value v8
  extract_lets +onlyGivenNames v9
  clear_value v9
  extract_lets +onlyGivenNames v10
  clear_value v10
  extract_lets +onlyGivenNames v11
  clear_value v11
  extract_lets +onlyGivenNames v12
  clear_value v12
  extract_lets +onlyGivenNames v13
  clear_value v13
  refine .ite ?_ ?_
  · extract_lets +onlyGivenNames v14
    have h14 : Keeps true true true true v14 s := by
      unfold v14
      refine .ite ?_ ?_
      · refine .trans (State.count_keeps _ _ _) ?_
        exact .refl _
      exact .refl _
    clear_value v14
    refine .trans (State.tdDisarm_keeps _ _ _ _) ?_
    assumption
  extract_lets +onlyGivenNames v15
  clear_value v15
  extract_lets +onlyGivenNames v16
  clear_value v16
  extract_lets +onlyGivenNames v17
  have h17 : Keeps true true true true v17 s := by
    unfold v17
    refine .trans (State.modUnit_keeps _ _ _ _) ?_
    exact .refl _
  clear_value v17
  extract_lets +onlyGivenNames v18
  clear_value v18
  refine .ite ?_ ?_
  · refine .ite ?_ ?_
    · extract_lets +onlyGivenNames v19
      have h19 : Keeps true true true true v19 s := by
        unfold v19
        refine .trans (State.tdSet_keeps _ _ _ _ _) ?_
        assumption
      clear_value v19
      refine .ite ?_ ?_
      · refine .trans (State.addChange_keeps _ _ _ _ _) ?_
        assumption
      assumption
    assumption
  extract_lets +onlyGivenNames v20
  clear_value v20
  extract_lets +onlyGivenNames v21
  clear_value v21
  extract_lets +onlyGivenNames v22
  clear_value v22
  extract_lets +onlyGivenNames v23
  have h23 : Keeps true true true true v23 s := by
    unfold v23
    refine .ite ?_ ?_
    · refine .trans (State.addOcc_keeps _ _ _) ?_
      refine .trans (State.count_keeps _ _ _) ?_
      assumption
    assumption
  clear_value v23
  refine .ite ?_ ?_
  · extract_lets +onlyGivenNames v24
    have h24 : Keeps true true true true v24 s := by
      unfold v24
      refine .trans (State.tdSet_keeps _ _ _ _ _) ?_
      assumption
    clear_value v24
    refine .ite ?_ ?_
    · refine .trans (State.addChange_keeps _ _ _ _ _) ?_
      assumption
    assumption
  refine .ite ?_ ?_
  · extract_lets +onlyGivenNames v25
    have h25 : Keeps true true true true v25 s := by
      unfold v25
      refine .trans (State.tdSet_keeps _ _ _ _ _) ?_
      assumption
    clear_value v25
    refine .ite ?_ ?_
    · refine .trans (State.addChange_keeps _ _ _ _ _) ?_
      assumption
    assumption
  assumption

end Sys2Proof.Machine
end

