-- ==== Sys2Proof/Laws/Keeps4.lean ====
section
/-! SUPPORT. What the operations and commands keep, part 4. -/

set_option Elab.async false

namespace Sys2Proof.Machine

theorem State.tdEval_keeps (s : State) (p : ℕ) (c : ChainSample) :
    Keeps true true true true (State.tdEval s p c) s := by
  unfold State.tdEval
  refine .ite ?_ ?_
  · refine .trans (foldl_keeps (m := true) (k := true) (r := true) (p := true) ?_) ?_
    · intro a1_0 a1_1
      refine .trans (State.tdUnit_keeps _ _ _ _) ?_
      exact .refl _
    exact .refl _
  refine .trans (State.countDropped_keeps _ _ _) ?_
  exact .refl _

theorem State.noteSat_keeps (s : State) (p : ℕ) (mask : ℕ) :
    Keeps true true true true (State.noteSat s p mask) s := by
  unfold State.noteSat
  refine .ite ?_ ?_
  · exact .refl _
  refine .trans (State.setErr_keeps _ _ _) ?_
  refine .trans (State.setReg_keeps _ _ _ _) ?_
  exact .refl _

theorem State.pushOutput_keeps (s : State) (p : ℕ) (out : ChainSample) :
    Keeps true true true true (State.pushOutput s p out) s := by
  unfold State.pushOutput
  extract_lets +onlyGivenNames v1
  have h1 : Keeps true true true true v1 s := by
    unfold v1
    refine .trans (State.modChain_keeps _ _ _) ?_
    exact .refl _
  clear_value v1
  refine .trans (State.countDropped_keeps _ _ _) ?_
  refine .trans (State.tdEval_keeps _ _ _) ?_
  refine .trans (State.pushFifo_keeps _ _ _) ?_
  assumption

theorem State.showMarks_keeps (s : State) (key : ℕ) (marks : ℕ) :
    Keeps true true true true (State.showMarks s key marks) s := by
  unfold State.showMarks
  refine .ite ?_ ?_
  · exact .refl _
  refine .trans (State.modPage_keeps _ _ _) ?_
  exact .refl _

theorem State.emitOutput_keeps (s : State) (p : ℕ) (y2 : StageIn) :
    Keeps true true true true (State.emitOutput s p y2) s := by
  unfold State.emitOutput
  extract_lets +onlyGivenNames v1
  clear_value v1
  extract_lets +onlyGivenNames v2
  clear_value v2
  extract_lets +onlyGivenNames v3
  clear_value v3
  extract_lets +onlyGivenNames v4
  clear_value v4
  extract_lets +onlyGivenNames v5
  clear_value v5
  extract_lets +onlyGivenNames v6
  clear_value v6
  extract_lets +onlyGivenNames v7
  have h7 : Keeps true true true true v7 s := by
    unfold v7
    refine .trans (State.noteSat_keeps _ _ _) ?_
    exact .refl _
  clear_value v7
  extract_lets +onlyGivenNames v8
  have h8 : Keeps true true true true v8 s := by
    unfold v8
    refine .ite ?_ ?_
    · refine .trans (State.modPage_keeps _ _ _) ?_
      assumption
    assumption
  clear_value v8
  extract_lets +onlyGivenNames v9
  have h9 : Keeps true true true true v9 s := by
    unfold v9
    refine .trans (State.showMarks_keeps _ _ _) ?_
    assumption
  clear_value v9
  extract_lets +onlyGivenNames v10
  have h10 : Keeps true true true true v10 s := by
    unfold v10
    refine .trans (State.modChain_keeps _ _ _) ?_
    assumption
  clear_value v10
  refine .trans (State.pushOutput_keeps _ _ _) ?_
  assumption

theorem State.insetRecord_keeps (s : State) (p : ℕ) (k : ℕ) (t : Task) (cfg : Word) :
    Keeps true true true true (State.insetRecord s p k t cfg) s := by
  unfold State.insetRecord
  extract_lets +onlyGivenNames v1
  clear_value v1
  extract_lets +onlyGivenNames v2
  clear_value v2
  extract_lets +onlyGivenNames v3
  clear_value v3
  extract_lets +onlyGivenNames v4
  clear_value v4
  extract_lets +onlyGivenNames v5
  clear_value v5
  extract_lets +onlyGivenNames v6
  clear_value v6
  extract_lets +onlyGivenNames v7
  clear_value v7
  refine .trans (State.addReady_keeps _ _ _) ?_
  refine .trans (State.modInset_keeps _ _ _ _) ?_
  exact .refl _

theorem State.insetChunk_keeps (s : State) (p : ℕ) (k : ℕ) (cfg : Word) (label : ℕ) (v : ℤ × ℤ) (marks : ℕ) :
    Keeps true true true true (State.insetChunk s p k cfg label v marks) s := by
  unfold State.insetChunk
  split
  · refine .trans (State.modInset_keeps _ _ _ _) ?_
    exact .refl _
  · extract_lets +onlyGivenNames v1
    have h1 : Keeps true true true true v1 s := by
      unfold v1
      refine .trans (State.modInset_keeps _ _ _ _) ?_
      exact .refl _
    clear_value v1
    refine .ite ?_ ?_
    · refine .trans (State.insetRecord_keeps _ _ _ _ _) ?_
      assumption
    assumption

theorem State.insetSat_keeps (s : State) (p : ℕ) (k : ℕ) (clip : Bool) :
    Keeps true true true true (State.insetSat s p k clip) s := by
  unfold State.insetSat
  extract_lets +onlyGivenNames v1
  clear_value v1
  refine .ite ?_ ?_
  · refine .trans (State.setErr_keeps _ _ _) ?_
    refine .trans (State.setReg_keeps _ _ _ _) ?_
    exact .refl _
  exact .refl _

theorem State.insetEmit_keeps (s : State) (p : ℕ) (k : ℕ) (cfg : Word) (y4 : StageIn) :
    Keeps true true true true (State.insetEmit s p k cfg y4) s := by
  unfold State.insetEmit
  extract_lets +onlyGivenNames v1
  clear_value v1
  extract_lets +onlyGivenNames v2
  clear_value v2
  extract_lets +onlyGivenNames v3
  clear_value v3
  extract_lets +onlyGivenNames v4
  clear_value v4
  extract_lets +onlyGivenNames v5
  have h5 : Keeps true true true true v5 s := by
    unfold v5
    refine .trans (State.insetChunk_keeps _ _ _ _ _ _ _) ?_
    refine .trans (State.insetSat_keeps _ _ _ _) ?_
    exact .refl _
  clear_value v5
  extract_lets +onlyGivenNames v6
  have h6 : Keeps true true true true v6 s := by
    unfold v6
    refine .trans (State.showMarks_keeps _ _ _) ?_
    assumption
  clear_value v6
  refine .trans (State.modInset_keeps _ _ _ _) ?_
  assumption

theorem State.showFlat_keeps (s : State) (p : ℕ) :
    Keeps true true true true (State.showFlat s p) s := by
  unfold State.showFlat
  extract_lets +onlyGivenNames v1
  clear_value v1
  refine .trans (State.setReg_keeps _ _ _ _) ?_
  exact .refl _

theorem State.noteFlat_keeps (s : State) (p : ℕ) (c : ℕ) (index : ℕ) :
    Keeps true true true true (State.noteFlat s p c index) s := by
  unfold State.noteFlat
  refine .ite ?_ ?_
  · exact .refl _
  extract_lets +onlyGivenNames v1
  clear_value v1
  extract_lets +onlyGivenNames v2
  clear_value v2
  extract_lets +onlyGivenNames v3
  clear_value v3
  extract_lets +onlyGivenNames v4
  clear_value v4
  split
  · refine .ite ?_ ?_
    · exact .refl _
    refine .trans (State.showFlat_keeps _ _) ?_
    refine .trans (State.modChain_keeps _ _ _) ?_
    exact .refl _
  · refine .trans (State.showFlat_keeps _ _) ?_
    refine .trans (State.modChain_keeps _ _ _) ?_
    exact .refl _

theorem State.noteZone_keeps (s : State) (p : ℕ) (c : ℕ) (index : ℕ) :
    Keeps true true true true (State.noteZone s p c index) s := by
  unfold State.noteZone
  extract_lets +onlyGivenNames v1
  clear_value v1
  extract_lets +onlyGivenNames v2
  clear_value v2
  refine .ite ?_ ?_
  · exact .refl _
  extract_lets +onlyGivenNames v3
  clear_value v3
  extract_lets +onlyGivenNames v4
  clear_value v4
  refine .trans (State.modChain_keeps _ _ _) ?_
  exact .refl _

theorem State.chainInput_keeps (s : State) (p : ℕ) (c : ℕ) (f : ℕ) (codes : List ℕ) (runs : List MarkRun) :
    Keeps true true true true (State.chainInput s p c f codes runs) s := by
  unfold State.chainInput
  extract_lets +onlyGivenNames v1
  clear_value v1
  extract_lets +onlyGivenNames v2
  have h2 : Keeps true true true true v2 s := by
    unfold v2
    refine .trans (State.noteFlat_keeps _ _ _ _) ?_
    exact .refl _
  clear_value v2
  extract_lets +onlyGivenNames v3
  have h3 : Keeps true true true true v3 s := by
    unfold v3
    refine .ite ?_ ?_
    · refine .trans (State.noteZone_keeps _ _ _ _) ?_
      assumption
    assumption
  clear_value v3
  extract_lets +onlyGivenNames v4
  have h4 : Keeps true true true true v4.1 s := by
    unfold v4
    refine .trans (State.dcFrame_keeps _ _ _ _ _) ?_
    assumption
  clear_value v4
  extract_lets +onlyGivenNames v5
  have h5 : Keeps true true true true v5 s := by
    unfold v5
    refine .trans (State.modChain_keeps _ _ _) ?_
    assumption
  clear_value v5
  refine .ite ?_ ?_
  · refine .trans (State.countDropped_keeps _ _ _) ?_
    assumption
  extract_lets +onlyGivenNames v6
  clear_value v6
  refine .trans (State.modChain_keeps _ _ _) ?_
  refine .trans (State.zoneCheck_keeps _ _) ?_
  assumption

theorem State.dropRaw_keeps (s : State) (p : ℕ) (lim : ℕ) :
    Keeps true true true true (State.dropRaw s p lim) s := by
  unfold State.dropRaw
  refine .trans (State.modChain_keeps _ _ _) ?_
  exact .refl _

theorem State.emitReady_keeps (s : State) (p n : Nat) : Keeps true true true true (s.emitReady p n) s := by
  induction n generalizing s with
  | zero => exact .refl _
  | succ n ih =>
    rw [State.emitReady]
    split
    · exact .refl _
    · refine .ite (.refl _) (.trans (ih _) (State.emitOutput_keeps _ _ _))

theorem State.insetReady_keeps (s : State) (p k : Nat) (cfg : Word) (n : Nat) : Keeps true true true true (s.insetReady p k cfg n) s := by
  induction n generalizing s with
  | zero => exact .refl _
  | succ n ih =>
    rw [State.insetReady]
    split
    · exact .refl _
    · refine .ite (.refl _) (.trans (ih _) (State.insetEmit_keeps _ _ _ _ _))

theorem State.insetFeed_keeps (s : State) (p : ℕ) (k : ℕ) (mid : List StageIn) :
    Keeps true true true true (State.insetFeed s p k mid) s := by
  unfold State.insetFeed
  extract_lets +onlyGivenNames v1
  clear_value v1
  extract_lets +onlyGivenNames v2
  clear_value v2
  extract_lets +onlyGivenNames v3
  clear_value v3
  extract_lets +onlyGivenNames v4
  clear_value v4
  extract_lets +onlyGivenNames v5
  clear_value v5
  extract_lets +onlyGivenNames v6
  clear_value v6
  extract_lets +onlyGivenNames v7
  have h7 : Keeps true true true true v7 s := by
    unfold v7
    refine .trans (State.insetSat_keeps _ _ _ _) ?_
    exact .refl _
  clear_value v7
  extract_lets +onlyGivenNames v8
  have h8 : Keeps true true true true v8 s := by
    unfold v8
    refine .trans (State.insetReady_keeps _ _ _ _ _) ?_
    refine .trans (State.modInset_keeps _ _ _ _) ?_
    assumption
  clear_value v8
  refine .ite ?_ ?_
  · refine .trans (State.modInset_keeps _ _ _ _) ?_
    assumption
  assumption

theorem State.insetsFeed_keeps (s : State) (p : ℕ) (mid : List StageIn) :
    Keeps true true true true (State.insetsFeed s p mid) s := by
  unfold State.insetsFeed
  refine .ite ?_ ?_
  · refine .trans (foldl_keeps (m := true) (k := true) (r := true) (p := true) ?_) ?_
    · intro a1_0 a1_1
      refine .trans (State.insetFeed_keeps _ _ _ _) ?_
      exact .refl _
    exact .refl _
  refine .trans (State.countDropped_keeps _ _ _) ?_
  exact .refl _

theorem State.chainRun_keeps (s : State) (p : ℕ) :
    Keeps true true true true (State.chainRun s p) s := by
  unfold State.chainRun
  extract_lets +onlyGivenNames v1
  clear_value v1
  refine .ite ?_ ?_
  · exact .refl _
  extract_lets +onlyGivenNames v2
  clear_value v2
  extract_lets +onlyGivenNames v3
  clear_value v3
  extract_lets +onlyGivenNames v4
  clear_value v4
  extract_lets +onlyGivenNames v5
  clear_value v5
  extract_lets +onlyGivenNames v6
  clear_value v6
  extract_lets +onlyGivenNames v7
  clear_value v7
  extract_lets +onlyGivenNames v8
  clear_value v8
  extract_lets +onlyGivenNames v9
  have h9 : Keeps true true true true v9 s := by
    unfold v9
    refine .trans (State.dropRaw_keeps _ _ _) ?_
    refine .trans (State.dropRaw_keeps _ _ _) ?_
    exact .refl _
  clear_value v9
  extract_lets +onlyGivenNames v10
  have h10 : Keeps true true true true v10 s := by
    unfold v10
    refine .trans (State.modChain_keeps _ _ _) ?_
    assumption
  clear_value v10
  extract_lets +onlyGivenNames v11
  have h11 : Keeps true true true true v11 s := by
    unfold v11
    refine .trans (State.noteSat_keeps _ _ _) ?_
    assumption
  clear_value v11
  extract_lets +onlyGivenNames v12
  have h12 : Keeps true true true true v12 s := by
    unfold v12
    refine .trans (State.emitReady_keeps _ _ _) ?_
    assumption
  clear_value v12
  extract_lets +onlyGivenNames v13
  have h13 : Keeps true true true true v13 s := by
    unfold v13
    refine .ite ?_ ?_
    · assumption
    refine .trans (State.modChain_keeps _ _ _) ?_
    assumption
  clear_value v13
  extract_lets +onlyGivenNames v14
  have h14 : Keeps true true true true v14 s := by
    unfold v14
    refine .trans (State.insetsFeed_keeps _ _ _) ?_
    assumption
  clear_value v14
  split
  · refine .ite ?_ ?_
    · refine .trans (State.insetsFeed_keeps _ _ _) ?_
      assumption
    assumption
  · assumption

theorem State.frameMissing_keeps (s : State) (c : ℕ) (f : ℕ) :
    Keeps true true true true (State.frameMissing s c f) s := by
  unfold State.frameMissing
  refine .ite ?_ ?_
  · exact .refl _
  extract_lets +onlyGivenNames v1
  clear_value v1
  extract_lets +onlyGivenNames v2
  have h2 : Keeps true true true true v2 s := by
    unfold v2
    refine .trans (State.logPage_keeps _ _ _ _ _ _ _) ?_
    refine .trans (State.modConv_keeps _ _ _) ?_
    exact .refl _
  clear_value v2
  extract_lets +onlyGivenNames v3
  clear_value v3
  refine .trans (State.irqBit_keeps _ _ _) ?_
  refine .trans (State.enter_keeps _ _ _) ?_
  assumption

theorem execFrameRelease_keeps (conv : Fin 5) (_iq : Unit) (_insSat : Unit) (s : State) :
    Res.keeps true true true true (execFrameRelease conv _iq _insSat s) s := by
  unfold execFrameRelease
  extract_lets +onlyGivenNames v1
  clear_value v1
  extract_lets +onlyGivenNames v2
  clear_value v2
  extract_lets +onlyGivenNames v3
  clear_value v3
  extract_lets +onlyGivenNames v4
  clear_value v4
  refine Res.keeps_ite ?_ ?_
  · refine Res.keeps_next ?_
    exact .refl _
  extract_lets +onlyGivenNames v5
  have h5 : Keeps true true true true v5 s := by
    unfold v5
    refine .trans (State.advanceTo_keeps _ _) ?_
    exact .refl _
  clear_value v5
  extract_lets +onlyGivenNames v6
  clear_value v6
  extract_lets +onlyGivenNames v7
  clear_value v7
  extract_lets +onlyGivenNames v8
  clear_value v8
  extract_lets +onlyGivenNames v9
  clear_value v9
  extract_lets +onlyGivenNames v10
  clear_value v10
  extract_lets +onlyGivenNames v11
  clear_value v11
  extract_lets +onlyGivenNames v12
  have h12 : Keeps true true true true v12 s := by
    unfold v12
    refine .trans (State.modConv_keeps _ _ _) ?_
    assumption
  clear_value v12
  extract_lets +onlyGivenNames v13
  have h13 : Keeps true true true true v13 s := by
    unfold v13
    refine .ite ?_ ?_
    · refine .trans (State.frameMissing_keeps _ _ _) ?_
      assumption
    assumption
  clear_value v13
  extract_lets +onlyGivenNames v14
  clear_value v14
  extract_lets +onlyGivenNames v15
  have h15 : Keeps true true true true v15 s := by
    unfold v15
    refine .trans (State.countBy_keeps _ _ _ _) ?_
    assumption
  clear_value v15
  extract_lets +onlyGivenNames v16
  have h16 : Keeps true true true true v16 s := by
    unfold v16
    refine .ite ?_ ?_
    · assumption
    refine .trans (State.setErr_keeps _ _ _) ?_
    assumption
  clear_value v16
  extract_lets +onlyGivenNames v17
  clear_value v17
  extract_lets +onlyGivenNames v18
  have h18 : Keeps true true true true v18 s := by
    unfold v18
    refine .trans (foldl_keeps (m := true) (k := true) (r := true) (p := true) ?_) ?_
    · intro a19_0 a19_1
      refine .trans (State.dcFrame_keeps _ _ _ _ _) ?_
      exact .refl _
    assumption
  clear_value v18
  extract_lets +onlyGivenNames v20
  have h20 : Keeps true true true true v20 s := by
    unfold v20
    refine .trans (foldl_keeps (m := true) (k := true) (r := true) (p := true) ?_) ?_
    · intro a21_0 a21_1
      refine .trans (State.chainInput_keeps _ _ _ _ _ _) ?_
      exact .refl _
    assumption
  clear_value v20
  refine Res.keeps_next ?_
  refine .trans (foldl_keeps (m := true) (k := true) (r := true) (p := true) ?_) ?_
  · intro a22_0 a22_1
    refine .trans (State.chainRun_keeps _ _) ?_
    exact .refl _
  assumption

theorem execChainClean_keeps (pipe : Fin 6) (s : State) :
    Res.keeps true true true true (execChainClean pipe s) s := by
  unfold execChainClean
  extract_lets +onlyGivenNames v1
  clear_value v1
  refine Res.keeps_ite ?_ ?_
  · refine Res.keeps_next ?_
    refine .trans (State.irqBit_keeps _ _ _) ?_
    refine .trans (State.modChain_keeps _ _ _) ?_
    exact .refl _
  refine Res.keeps_next ?_
  exact .refl _

theorem execDcCfgWrite_keeps (who : Issuer) (pipe : Fin 6) (value : BitVec 32) (s : State) :
    Res.keeps true true true true (execDcCfgWrite who pipe value s) s := by
  unfold execDcCfgWrite
  extract_lets +onlyGivenNames v1
  clear_value v1
  refine Res.keeps_next ?_
  refine .trans (State.write_keeps (m := true) (k := true) (r := true) (p := true) ?_) ?_
  · extract_lets +onlyGivenNames v3
    clear_value v3
    extract_lets +onlyGivenNames v4
    clear_value v4
    extract_lets +onlyGivenNames v5
    have h5 : Keeps true true true true v5 s := by
      unfold v5
      refine .trans (State.wf_keeps _ _ _ _) ?_
      exact .refl _
    clear_value v5
    extract_lets +onlyGivenNames v6
    have h6 : Keeps true true true true v6 s := by
      unfold v6
      refine .ite ?_ ?_
      · refine .trans (State.wf_keeps _ _ _ _) ?_
        assumption
      refine .trans (State.setErr_keeps _ _ _) ?_
      assumption
    clear_value v6
    extract_lets +onlyGivenNames v7
    clear_value v7
    refine .trans (State.modChain_keeps _ _ _) ?_
    assumption
  exact .refl _

theorem State.commitAt_keeps (s : State) (key : ℕ) (op : Op) (check : State → Option (ℕ × ℕ)) :
    Keeps true true true true (State.commitAt s key op check) s := by
  unfold State.commitAt
  refine .ite ?_ ?_
  · refine .trans (State.rejectOp_keeps _ _ _ _ _) ?_
    exact .refl _
  refine .ite ?_ ?_
  · refine .trans (State.rejectOp_keeps _ _ _ _ _) ?_
    exact .refl _
  split
  · refine .trans (State.rejectOp_keeps _ _ _ _ _) ?_
    exact .refl _
  · refine .trans (State.setCfg_keeps _ _ _) ?_
    refine .trans (State.setPend_keeps _ _ _ _) ?_
    refine .trans (State.accept_keeps _ _ _) ?_
    exact .refl _

theorem execDdcCommitAt_keeps (who : Issuer) (pipe : Fin 6) (tag : ℕ) (s : State) :
    Res.keeps true true true true (execDdcCommitAt who pipe tag s) s := by
  unfold execDdcCommitAt
  extract_lets +onlyGivenNames v1
  clear_value v1
  refine Res.keeps_next ?_
  refine .trans (State.command_keeps (m := true) (k := true) (r := true) (p := true) ?_) ?_
  · intro a2_0
    refine .ite ?_ ?_
    · refine .trans (State.rejectOp_keeps _ _ _ _ _) ?_
      exact .refl _
    refine .trans (State.commitAt_keeps _ _ _ _) ?_
    exact .refl _
  exact .refl _

theorem State.commitHere_keeps (s : State) (key : ℕ) (op : Op) (due : ℕ) (check : State → Option (ℕ × ℕ)) :
    Keeps true true true true (State.commitHere s key op due check) s := by
  unfold State.commitHere
  split
  · refine .trans (State.rejectOp_keeps _ _ _ _ _) ?_
    exact .refl _
  · refine .ite ?_ ?_
    · refine .trans (State.setCfg_keeps _ _ _) ?_
      refine .trans (State.setPend_keeps _ _ _ _) ?_
      refine .trans (State.accept_keeps _ _ _) ?_
      exact .refl _
    refine .trans (State.doneOp_keeps _ _) ?_
    refine .trans (State.accept_keeps _ _ _) ?_
    exact .refl _

theorem State.commitDDC_keeps (s : State) (key : ℕ) (op : Op) :
    Keeps true true true true (State.commitDDC s key op) s := by
  unfold State.commitDDC
  extract_lets +onlyGivenNames v1
  clear_value v1
  split
  · refine .trans (State.rejectOp_keeps _ _ _ _ _) ?_
    exact .refl _
  · refine .ite ?_ ?_
    · refine .trans (State.doneOp_keeps _ _) ?_
      refine .trans (State.setCfg_keeps _ _ _) ?_
      refine .trans (State.modChain_keeps _ _ _) ?_
      refine .trans (State.accept_keeps _ _ _) ?_
      exact .refl _
    refine .trans (State.commitHere_keeps _ _ _ _ _) ?_
    exact .refl _

theorem State.abandonFrames_keeps (s : State) (p : ℕ) (a : ℕ) (n : ℕ) :
    Keeps true true true true (State.abandonFrames s p a n) s := by
  unfold State.abandonFrames
  refine .ite ?_ ?_
  · exact .refl _
  extract_lets +onlyGivenNames v1
  have h1 : Keeps true true true true v1 s := by
    unfold v1
    refine .trans (State.countBy_keeps _ _ _ _) ?_
    exact .refl _
  clear_value v1
  extract_lets +onlyGivenNames v2
  have h2 : Keeps true true true true v2 s := by
    unfold v2
    refine .trans (State.modEngine_keeps _ _ _) ?_
    assumption
  clear_value v2
  refine .trans (State.modEngine_keeps _ _ _) ?_
  assumption

theorem State.forkChain_keeps (s : State) (p : ℕ) (a : ℕ) (oldGain : ℕ) (xfade : Bool) :
    Keeps true true true true (State.forkChain s p a oldGain xfade) s := by
  unfold State.forkChain
  refine .trans (State.modChain_keeps _ _ _) ?_
  exact .refl _

theorem State.ddcApply_keeps (s : State) (p : ℕ) (a : ℕ) (ws : List (ℕ × Word)) :
    Keeps false true true true (State.ddcApply s p a ws).1 s := by
  unfold State.ddcApply
  extract_lets +onlyGivenNames v1
  clear_value v1
  extract_lets +onlyGivenNames v2
  clear_value v2
  extract_lets +onlyGivenNames v3
  clear_value v3
  extract_lets +onlyGivenNames v4
  clear_value v4
  extract_lets +onlyGivenNames v5
  clear_value v5
  extract_lets +onlyGivenNames v6
  clear_value v6
  extract_lets +onlyGivenNames v7
  have h7 : Keeps false true true true v7 s := by
    unfold v7
    refine .ite ?_ ?_
    · refine .trans (State.closeSpectrum_keeps _ _) ?_
      refine .trans (State.flushGroup_keeps _ _ _) ?_
      exact .refl _
    exact .refl _
  clear_value v7
  extract_lets +onlyGivenNames v8
  have h8 : Keeps false true true true v8 s := by
    unfold v8
    refine .trans (State.applyWords_keeps _ _ _) ?_
    refine .ite ?_ ?_
    · refine .trans (State.capNewEpoch_keeps _ _) ?_
      assumption
    assumption
  clear_value v8
  split
  · extract_lets +onlyGivenNames v9
    have h9 : Keeps false true true true v9 s := by
      unfold v9
      refine .trans (State.chainZero_keeps _ _ _) ?_
      refine .trans (State.setReg_keeps _ _ _ _) ?_
      refine .trans (State.retune_keeps _ _ _ _ _) ?_
      assumption
    clear_value v9
    dsimp only
    refine .trans (State.abandonFrames_keeps _ _ _ _) ?_
    refine .trans (State.ddcRefresh_keeps _ _) ?_
    assumption
  · dsimp only
    refine .trans (State.ddcRefresh_keeps _ _) ?_
    refine .trans (State.forkChain_keeps _ _ _ _ _) ?_
    refine .trans (State.retune_keeps _ _ _ _ _) ?_
    assumption
  · refine .ite_fst ?_ ?_
    · dsimp only
      refine .trans (State.ddcRefresh_keeps _ _) ?_
      refine .trans (State.modChain_keeps _ _ _) ?_
      refine .trans (State.forkChain_keeps _ _ _ _ _) ?_
      assumption
    dsimp only
    refine .trans (State.ddcRefresh_keeps _ _) ?_
    refine .trans (State.forkChain_keeps _ _ _ _ _) ?_
    assumption
  · dsimp only
    refine .trans (State.ddcRefresh_keeps _ _) ?_
    refine .trans (State.forkChain_keeps _ _ _ _ _) ?_
    assumption

theorem State.ddcTake_keeps (s : State) (p : ℕ) (a : PendApply) :
    Keeps false true true true (State.ddcTake s p a) s := by
  unfold State.ddcTake
  extract_lets +onlyGivenNames v1
  clear_value v1
  refine .ite ?_ ?_
  · refine .trans (State.passCommit_keeps _ _ _) ?_
    exact .refl _
  extract_lets +onlyGivenNames v2
  have h2 : Keeps false true true true v2.1 s := by
    unfold v2
    refine .trans (State.ddcApply_keeps _ _ _ _) ?_
    refine .trans (State.clearPend_keeps _ _) ?_
    refine .trans (State.advanceTo_keeps _ _) ?_
    exact .refl _
  clear_value v2
  extract_lets +onlyGivenNames v3
  have h3 : Keeps false true true true v3 s := by
    unfold v3
    refine .trans (State.setCfg_keeps _ _ _) ?_
    refine .trans (State.setSix3_keeps _ _ _ _) ?_
    assumption
  clear_value v3
  refine .trans (State.endCommit_keeps _ _ _) ?_
  refine .trans (State.irqBit_keeps _ _ _) ?_
  assumption

theorem execDdcApply_keeps (pipe : Fin 6) (s : State) :
    Res.keeps false true true true (execDdcApply pipe s) s := by
  unfold execDdcApply
  split
  · refine Res.keeps_next ?_
    exact .refl _
  · refine Res.keeps_next ?_
    refine .trans (State.ddcTake_keeps _ _ _) ?_
    exact .refl _

theorem State.noteOffender_keeps (s : State) (p : ℕ) :
    Keeps true true true true (State.noteOffender s p) s := by
  unfold State.noteOffender
  refine .ite ?_ ?_
  · refine .trans (State.wf_keeps _ _ _ _) ?_
    exact .refl _
  exact .refl _

theorem execInsCommitAt_keeps (who : Issuer) (pipe : Fin 6) (tag : ℕ) (s : State) :
    Res.keeps true true true true (execInsCommitAt who pipe tag s) s := by
  unfold execInsCommitAt
  extract_lets +onlyGivenNames v1
  clear_value v1
  refine Res.keeps_next ?_
  refine .trans (State.command_keeps (m := true) (k := true) (r := true) (p := true) ?_) ?_
  · intro a2_0
    extract_lets +onlyGivenNames v3
    clear_value v3
    refine .trans (State.commitAt_keeps _ _ _ _) ?_
    refine .ite ?_ ?_
    · exact .refl _
    refine .trans (State.noteOffender_keeps _ _) ?_
    exact .refl _
  exact .refl _

theorem State.insTargets_keeps (s : State) (p : ℕ) :
    Keeps true true true true (State.insTargets s p) s := by
  unfold State.insTargets
  extract_lets +onlyGivenNames v1
  clear_value v1
  refine .trans (foldl_keeps (m := true) (k := true) (r := true) (p := true) ?_) ?_
  · intro a2_0 a2_1
    refine .ite ?_ ?_
    · exact .refl _
    extract_lets +onlyGivenNames v3
    clear_value v3
    refine .trans (State.modInset_keeps _ _ _ _) ?_
    exact .refl _
  exact .refl _

theorem State.commitINS_keeps (s : State) (key : ℕ) (op : Op) :
    Keeps true true true true (State.commitINS s key op) s := by
  unfold State.commitINS
  extract_lets +onlyGivenNames v1
  clear_value v1
  refine .ite ?_ ?_
  · refine .trans (State.doneOp_keeps _ _) ?_
    refine .trans (State.insTargets_keeps _ _) ?_
    refine .trans (State.accept_keeps _ _ _) ?_
    exact .refl _
  refine .trans (State.commitHere_keeps _ _ _ _ _) ?_
  refine .trans (State.noteOffender_keeps _ _) ?_
  exact .refl _

theorem State.insTake_keeps (s : State) (p : ℕ) (a : PendApply) :
    Keeps true true true true (State.insTake s p a) s := by
  unfold State.insTake
  extract_lets +onlyGivenNames v1
  clear_value v1
  refine .ite ?_ ?_
  · refine .trans (State.passCommit_keeps _ _ _) ?_
    exact .refl _
  refine .trans (State.endCommit_keeps _ _ _) ?_
  refine .trans (State.irqBit_keeps _ _ _) ?_
  refine .trans (State.insApply_keeps _ _ _) ?_
  refine .trans (State.clearPend_keeps _ _) ?_
  refine .trans (State.advanceTo_keeps _ _) ?_
  exact .refl _

theorem execInsApply_keeps (pipe : Fin 6) (s : State) :
    Res.keeps true true true true (execInsApply pipe s) s := by
  unfold execInsApply
  extract_lets +onlyGivenNames v1
  clear_value v1
  split
  · refine Res.keeps_next ?_
    exact .refl _
  · refine Res.keeps_next ?_
    refine .trans (State.insTake_keeps _ _ _) ?_
    exact .refl _

theorem State.chainXfDone_keeps (s : State) (p : ℕ) :
    Keeps false true true true (State.chainXfDone s p) s := by
  unfold State.chainXfDone
  extract_lets +onlyGivenNames v1
  clear_value v1
  refine .ite ?_ ?_
  · exact .refl _
  extract_lets +onlyGivenNames v2
  have h2 : Keeps false true true true v2 s := by
    unfold v2
    refine .trans (State.irqBit_keeps _ _ _) ?_
    exact .refl _
  clear_value v2
  split
  · refine .trans (State.setCfg_keeps _ _ _) ?_
    assumption
  · extract_lets +onlyGivenNames v3
    have h3 : Keeps false true true true v3 s := by
      unfold v3
      refine .trans (State.modChain_keeps _ _ _) ?_
      assumption
    clear_value v3
    extract_lets +onlyGivenNames v4
    have h4 : Keeps false true true true v4.1 s := by
      unfold v4
      refine .trans (State.ddcApply_keeps _ _ _ _) ?_
      assumption
    clear_value v4
    refine .trans (State.setCfg_keeps _ _ _) ?_
    assumption

theorem State.insetXfDone_keeps (s : State) (p : ℕ) (n : ℕ) :
    Keeps true true true true (State.insetXfDone s p n) s := by
  unfold State.insetXfDone
  extract_lets +onlyGivenNames v1
  clear_value v1
  refine .ite ?_ ?_
  · exact .refl _
  extract_lets +onlyGivenNames v2
  have h2 : Keeps true true true true v2 s := by
    unfold v2
    refine .trans (State.irqBit_keeps _ _ _) ?_
    refine .trans (State.modInset_keeps _ _ _ _) ?_
    exact .refl _
  clear_value v2
  split
  · assumption
  · refine .trans (State.insShow_keeps _ _) ?_
    refine .trans (State.insetChange_keeps _ _ _ _ _ _) ?_
    assumption

theorem execXfadeDone_keeps (pipe : Fin 6) (inset : Option (Fin 64)) (s : State) :
    Res.keeps false true true true (execXfadeDone pipe inset s) s := by
  unfold execXfadeDone
  split
  · refine Res.keeps_next ?_
    refine .trans (State.chainXfDone_keeps _ _) ?_
    exact .refl _
  · refine Res.keeps_next ?_
    refine .trans (State.insetXfDone_keeps _ _ _) ?_
    exact .refl _

theorem State.chainReset_keeps (s : State) (p : ℕ) (six : ℕ) :
    Keeps true true true true (State.chainReset s p six) s := by
  unfold State.chainReset
  extract_lets +onlyGivenNames v1
  clear_value v1
  extract_lets +onlyGivenNames v2
  have h2 : Keeps true true true true v2 s := by
    unfold v2
    split
    · refine .ite ?_ ?_
      · refine .trans (State.applyWords_keeps _ _ _) ?_
        exact .refl _
      exact .refl _
    · exact .refl _
  clear_value v2
  extract_lets +onlyGivenNames v3
  have h3 : Keeps true true true true v3 s := by
    unfold v3
    refine .ite ?_ ?_
    · refine .trans (State.setCfg_keeps _ _ _) ?_
      assumption
    assumption
  clear_value v3
  extract_lets +onlyGivenNames v4
  have h4 : Keeps true true true true v4 s := by
    unfold v4
    refine .trans (State.dropEst_keeps _ _) ?_
    refine .trans (State.setReg_keeps _ _ _ _) ?_
    refine .trans (State.ddcRefresh_keeps _ _) ?_
    assumption
  clear_value v4
  extract_lets +onlyGivenNames v5
  have h5 : Keeps true true true true v5 s := by
    unfold v5
    refine .trans (State.modChain_keeps _ _ _) ?_
    refine .trans (State.loadNco_keeps _ _ _) ?_
    refine .trans (State.chainZero_keeps _ _ _) ?_
    assumption
  clear_value v5
  extract_lets +onlyGivenNames v6
  have h6 : Keeps true true true true v6 s := by
    unfold v6
    refine .trans (foldl_keeps (m := true) (k := true) (r := true) (p := true) ?_) ?_
    · intro a7_0 a7_1
      extract_lets +onlyGivenNames v8
      have h8 : Keeps true true true true v8 a7_0 := by
        unfold v8
        split
        · refine .trans (State.setInsWords_keeps _ _ _ _) ?_
          exact .refl _
        · exact .refl _
      clear_value v8
      refine .trans (State.insetStart_keeps _ _ _ _) ?_
      assumption
    assumption
  clear_value v6
  refine .trans (State.insShow_keeps _ _) ?_
  assumption

theorem State.crcFeed_keeps (s : State) (key : ℕ) (bs : List Byte) :
    Keeps true true true true (State.crcFeed s key bs) s := by
  unfold State.crcFeed
  extract_lets +onlyGivenNames v1
  have h1 : Keeps true true true true v1 s := by
    unfold v1
    refine .trans (State.modCrc_keeps _ _ _) ?_
    exact .refl _
  clear_value v1
  refine .trans (State.refreshCrc_keeps _ _) ?_
  refine .trans (State.setPair_keeps _ _ _ _) ?_
  assumption

theorem State.loseHalf_keeps (s : State) (key : ℕ) :
    Keeps true true true true (State.loseHalf s key) s := by
  unfold State.loseHalf
  refine .ite ?_ ?_
  · refine .trans (State.setErr_keeps _ _ _) ?_
    refine .trans (State.refreshCrc_keeps _ _) ?_
    refine .trans (State.modCrc_keeps _ _ _) ?_
    exact .refl _
  exact .refl _

theorem execCrcFeed_keeps (who : Issuer) (unit : Fin 12) (port : Fin 5) (value : BitVec 32) (s : State) :
    Res.keeps true true true true (execCrcFeed who unit port value s) s := by
  unfold execCrcFeed
  extract_lets +onlyGivenNames v1
  clear_value v1
  extract_lets +onlyGivenNames v2
  clear_value v2
  refine Res.keeps_next ?_
  refine .trans (State.write_keeps (m := true) (k := true) (r := true) (p := true) ?_) ?_
  · refine .ite ?_ ?_
    · refine .trans (State.setErr_keeps _ _ _) ?_
      exact .refl _
    refine .ite ?_ ?_
    · refine .trans (State.setErr_keeps _ _ _) ?_
      exact .refl _
    refine .ite ?_ ?_
    · refine .trans (State.refreshCrc_keeps _ _) ?_
      refine .trans (State.modCrc_keeps _ _ _) ?_
      refine .trans (State.loseHalf_keeps _ _) ?_
      exact .refl _
    refine .ite ?_ ?_
    · split
      · refine .trans (State.crcFeed_keeps _ _ _) ?_
        refine .trans (State.modCrc_keeps _ _ _) ?_
        exact .refl _
      · exact .refl _
    refine .trans (State.crcFeed_keeps _ _ _) ?_
    refine .trans (State.loseHalf_keeps _ _) ?_
    exact .refl _
  exact .refl _

theorem execFinish_keeps (who : Issuer) (unit : Fin 12) (tag : ℕ) (s : State) :
    Res.keeps true true true true (execFinish who unit tag s) s := by
  unfold execFinish
  extract_lets +onlyGivenNames v1
  clear_value v1
  refine Res.keeps_next ?_
  refine .trans (State.command_keeps (m := true) (k := true) (r := true) (p := true) ?_) ?_
  · intro a2_0
    refine .ite ?_ ?_
    · refine .trans (State.rejectOp_keeps _ _ _ _ _) ?_
      exact .refl _
    extract_lets +onlyGivenNames v3
    have h3 : Keeps true true true true v3 s := by
      unfold v3
      refine .trans (State.loseHalf_keeps _ _) ?_
      refine .trans (State.accept_keeps _ _ _) ?_
      exact .refl _
    clear_value v3
    extract_lets +onlyGivenNames v4
    have h4 : Keeps true true true true v4 s := by
      unfold v4
      refine .trans (State.doneWith_keeps _ _ _) ?_
      assumption
    clear_value v4
    refine .trans (State.crcLoad_keeps _ _) ?_
    assumption
  exact .refl _

theorem execReseed_keeps (who : Issuer) (unit : Fin 12) (tag : ℕ) (s : State) :
    Res.keeps true true true true (execReseed who unit tag s) s := by
  unfold execReseed
  extract_lets +onlyGivenNames v1
  clear_value v1
  refine Res.keeps_next ?_
  refine .trans (State.command_keeps (m := true) (k := true) (r := true) (p := true) ?_) ?_
  · intro a2_0
    refine .ite ?_ ?_
    · refine .trans (State.rejectOp_keeps _ _ _ _ _) ?_
      exact .refl _
    refine .trans (State.doneOp_keeps _ _) ?_
    refine .trans (State.crcLoad_keeps _ _) ?_
    refine .trans (State.loseHalf_keeps _ _) ?_
    refine .trans (State.accept_keeps _ _ _) ?_
    exact .refl _
  exact .refl _

theorem State.patch_keeps (s : State) (y1 : Patch) :
    Keeps true true true true (State.patch s y1) s := by
  unfold State.patch
  refine .trans (State.setAreg_keeps _ _ _ _) ?_
  refine .trans (State.setReg_keeps _ _ _ _) ?_
  exact .refl _

theorem State.startStopFails_keeps (s : State) (key : ℕ) :
    Keeps true true true true (State.startStopFails s key) s := by
  unfold State.startStopFails
  split
  · refine .ite ?_ ?_
    · refine .trans (State.failOp_keeps _ _ _ _) ?_
      exact .refl _
    exact .refl _
  · exact .refl _

theorem State.enableOuts_keeps (s : State) :
    Keeps true true true true (State.enableOuts s) s := by
  unfold State.enableOuts
  refine .trans (State.retireIfOff_keeps _) ?_
  refine .trans (State.each_keeps (m := true) (k := true) (r := true) (p := true) ?_) ?_
  · intro a1_0 a1_1
    refine .ite ?_ ?_
    · refine .trans (State.setOut_keeps _ _ _) ?_
      exact .refl _
    refine .ite ?_ ?_
    · refine .trans (State.setOut_keeps _ _ _) ?_
      exact .refl _
    exact .refl _
  exact .refl _

theorem State.startDone_keeps (s : State) (key : ℕ) :
    Keeps true true true true (State.startDone s key) s := by
  unfold State.startDone
  refine .ite ?_ ?_
  · extract_lets +onlyGivenNames v1
    have h1 : Keeps true true true true v1 s := by
      unfold v1
      refine .trans (State.enter_keeps _ _ _) ?_
      refine .trans (State.startHook_keeps _ _) ?_
      exact .refl _
    clear_value v1
    refine .trans (State.doneOp_keeps _ _) ?_
    refine .ite ?_ ?_
    · refine .trans (State.enableOuts_keeps _) ?_
      assumption
    assumption
  refine .trans (State.startStopFails_keeps _ _) ?_
  exact .refl _

theorem State.stopDone_keeps (s : State) (key : ℕ) :
    Keeps false true true true (State.stopDone s key) s := by
  unfold State.stopDone
  refine .ite ?_ ?_
  · refine .trans (State.doneOp_keeps _ _) ?_
    refine .trans (State.enter_keeps _ _ _) ?_
    refine .trans (State.stopHook_keeps _ _) ?_
    exact .refl _
  refine .trans (State.startStopFails_keeps _ _) ?_
  exact .refl _

theorem execStart_keeps (who : Issuer) (key : Fin 8192) (tag : ℕ) (now : Bool) (s : State) :
    Res.keeps true true true true (execStart who key tag now s) s := by
  unfold execStart
  refine Res.keeps_next ?_
  refine .trans (State.command_keeps (m := true) (k := true) (r := true) (p := true) ?_) ?_
  · intro a1_0
    refine .ite ?_ ?_
    · refine .trans (State.rejectOp_keeps _ _ _ _ _) ?_
      exact .refl _
    refine .ite ?_ ?_
    · refine .ite ?_ ?_
      · refine .trans (State.startDone_keeps _ _) ?_
        refine .trans (State.accept_keeps _ _ _) ?_
        exact .refl _
      refine .trans (State.accept_keeps _ _ _) ?_
      exact .refl _
    refine .trans (State.rejectOp_keeps _ _ _ _ _) ?_
    exact .refl _
  exact .refl _

theorem execStop_keeps (who : Issuer) (key : Fin 8192) (tag : ℕ) (now : Bool) (s : State) :
    Res.keeps false true true true (execStop who key tag now s) s := by
  unfold execStop
  refine Res.keeps_next ?_
  refine .trans (State.command_keeps (m := false) (k := true) (r := true) (p := true) ?_) ?_
  · intro a1_0
    refine .ite ?_ ?_
    · refine .trans (State.rejectOp_keeps _ _ _ _ _) ?_
      exact .refl _
    refine .ite ?_ ?_
    · refine .ite ?_ ?_
      · refine .trans (State.stopDone_keeps _ _) ?_
        refine .trans (State.accept_keeps _ _ _) ?_
        exact .refl _
      refine .trans (State.accept_keeps _ _ _) ?_
      exact .refl _
    refine .trans (State.rejectOp_keeps _ _ _ _ _) ?_
    exact .refl _
  exact .refl _

theorem State.finishStartStop_keeps (s : State) (key : ℕ) :
    Keeps false true true true (State.finishStartStop s key) s := by
  unfold State.finishStartStop
  split
  · refine .ite ?_ ?_
    · exact .refl _
    refine .ite ?_ ?_
    · refine .trans (State.startDone_keeps _ _) ?_
      exact .refl _
    refine .ite ?_ ?_
    · refine .trans (State.stopDone_keeps _ _) ?_
      exact .refl _
    exact .refl _
  · exact .refl _

theorem State.addSkew_keeps (s : State) (c : ℕ) (d : ℤ) :
    Keeps true true true true (State.addSkew s c d) s := by
  unfold State.addSkew
  refine .trans (foldl_keeps (m := true) (k := true) (r := true) (p := true) ?_) ?_
  · intro a1_0 a1_1
    extract_lets +onlyGivenNames v2
    clear_value v2
    refine .trans (State.wf_keeps _ _ _ _) ?_
    exact .refl _
  exact .refl _

theorem State.alignDone_keeps (s : State) (c : ℕ) :
    Keeps true true true true (State.alignDone s c) s := by
  unfold State.alignDone
  extract_lets +onlyGivenNames v1
  clear_value v1
  split
  · extract_lets +onlyGivenNames v2
    have h2 : Keeps true true true true v2 s := by
      unfold v2
      refine .trans (State.modConv_keeps _ _ _) ?_
      exact .refl _
    clear_value v2
    refine .ite ?_ ?_
    · refine .trans (State.doneWith_keeps _ _ _) ?_
      assumption
    extract_lets +onlyGivenNames v3
    clear_value v3
    extract_lets +onlyGivenNames v4
    clear_value v4
    extract_lets +onlyGivenNames v5
    clear_value v5
    refine .ite ?_ ?_
    · refine .trans (State.doneWith_keeps _ _ _) ?_
      assumption
    refine .ite ?_ ?_
    · refine .trans (State.setErr_keeps _ _ _) ?_
      refine .trans (State.doneWith_keeps _ _ _) ?_
      assumption
    refine .trans (State.doneWith_keeps _ _ _) ?_
    refine .trans (State.addSkew_keeps _ _ _) ?_
    refine .trans (State.setAdcField_keeps _ _ _ _) ?_
    assumption
  · refine .trans (State.modConv_keeps _ _ _) ?_
    exact .refl _
  · exact .refl _

theorem State.tick_keeps (s : State) : Keeps false true true true s.tick s := by
  unfold State.tick
  extract_lets +onlyGivenNames s1
  have h1 : Keeps true true true true s1 s := by
    unfold s1
    split
    · refine ⟨rfl, id, fun w => ?_, id, rfl, fun _ => rfl, fun _ => rfl, fun _ => rfl, fun _ => rfl⟩
      exact Nat.mod_lt _ (by decide)
    · exact .refl _
  exact .trans (State.each_keeps (m := false) (k := true) (r := true) (p := true) fun s x => (State.alignDone_keeps s x).to)
    (.trans (State.each_keeps (m := false) (k := true) (r := true) (p := true) fun s x => State.finishStartStop_keeps s x) (.to h1))

theorem State.suspendHook_keeps (s : State) (key : ℕ) :
    Keeps false true true true (State.suspendHook s key) s := by
  unfold State.suspendHook
  split
  · refine .trans (State.capPause_keeps _ _ _) ?_
    exact .refl _
  · exact .refl _

theorem State.chainSkip_keeps (s : State) (p : ℕ) :
    Keeps true true true true (State.chainSkip s p) s := by
  unfold State.chainSkip
  extract_lets +onlyGivenNames v1
  clear_value v1
  refine .trans (State.modChain_keeps _ _ _) ?_
  refine .trans (State.chainBlank_keeps _ _ _) ?_
  exact .refl _

theorem State.skipHook_keeps (s : State) (key : ℕ) :
    Keeps true true true true (State.skipHook s key) s := by
  unfold State.skipHook
  extract_lets +onlyGivenNames v1
  clear_value v1
  split
  · refine .trans (State.chainSkip_keeps _ _) ?_
    exact .refl _
  · refine .trans (State.modEngine_keeps _ _ _) ?_
    exact .refl _
  · refine .trans (State.modGrat_keeps _ _ _) ?_
    exact .refl _
  · refine .trans (State.traceBegin_keeps _ _ _) ?_
    exact .refl _
  · exact .refl _

theorem State.resumeHook_keeps (s : State) (key : ℕ) :
    Keeps false true true true (State.resumeHook s key) s := by
  unfold State.resumeHook
  extract_lets +onlyGivenNames v1
  clear_value v1
  extract_lets +onlyGivenNames v2
  clear_value v2
  split
  · refine .trans (State.chainStart_keeps _ _) ?_
    exact .refl _
  · refine .trans (State.insStart_keeps _ _) ?_
    exact .refl _
  · refine .trans (State.capResume_keeps _ _ _) ?_
    exact .refl _
  · refine .trans (State.modEngine_keeps _ _ _) ?_
    refine .trans (State.skipHook_keeps _ _) ?_
    exact .refl _
  · refine .trans (State.modGrat_keeps _ _ _) ?_
    refine .trans (State.skipHook_keeps _ _) ?_
    exact .refl _
  · refine .trans (State.modCapture_keeps _ _ _) ?_
    refine .trans (State.skipHook_keeps _ _) ?_
    exact .refl _
  · refine .ite ?_ ?_
    · refine .trans (State.mcEnter_keeps _ _ _) ?_
      exact .refl _
    exact .refl _
  · refine .trans (State.skipHook_keeps _ _) ?_
    exact .refl _

theorem State.coreStop_keeps (s : State) (n : ℕ) :
    Keeps true true true true (State.coreStop s n) s := by
  unfold State.coreStop
  extract_lets +onlyGivenNames v1
  clear_value v1
  split
  · exact .refl _
  · refine .ite ?_ ?_
    · extract_lets +onlyGivenNames v2
      clear_value v2
      extract_lets +onlyGivenNames v3
      have h3 : Keeps true true true true v3 s := by
        unfold v3
        refine .trans (State.mcEnter_keeps _ _ _) ?_
        refine .trans (State.modCore_keeps _ _ _) ?_
        exact .refl _
      clear_value v3
      extract_lets +onlyGivenNames v4
      have h4 : Keeps true true true true v4 s := by
        unfold v4
        refine .ite ?_ ?_
        · refine .trans (State.irqBit_keeps _ _ _) ?_
          assumption
        assumption
      clear_value v4
      split
      · refine .ite ?_ ?_
        · refine .trans (State.doneOp_keeps _ _) ?_
          assumption
        refine .ite ?_ ?_
        · refine .trans (State.doneOp_keeps _ _) ?_
          refine .trans (State.enter_keeps _ _ _) ?_
          assumption
        assumption
      · assumption
    exact .refl _

theorem State.suspendBlock_keeps (s : State) (key : ℕ) (op : Op) :
    Keeps false true true true (State.suspendBlock s key op) s := by
  unfold State.suspendBlock
  extract_lets +onlyGivenNames v1
  have h1 : Keeps false true true true v1 s := by
    unfold v1
    refine .trans (State.accept_keeps _ _ _) ?_
    exact .refl _
  clear_value v1
  extract_lets +onlyGivenNames v2
  clear_value v2
  refine .ite ?_ ?_
  · refine .trans (State.coreStop_keeps _ _) ?_
    refine .trans (State.modCore_keeps _ _ _) ?_
    assumption
  refine .trans (State.doneOp_keeps _ _) ?_
  refine .trans (State.enter_keeps _ _ _) ?_
  refine .trans (State.suspendHook_keeps _ _) ?_
  assumption

theorem State.suspendOp_keeps (s : State) (key : ℕ) (op : Op) (tag : ℕ) :
    Keeps true true true true (State.suspendOp s key op tag) s := by
  unfold State.suspendOp
  extract_lets +onlyGivenNames v1
  have h1 : Keeps true true true true v1 s := by
    unfold v1
    refine .trans (State.modPage_keeps _ _ _) ?_
    exact .refl _
  clear_value v1
  extract_lets +onlyGivenNames v2
  have h2 : Keeps true true true true v2 s := by
    unfold v2
    refine .trans (State.clearPend_keeps _ _) ?_
    assumption
  clear_value v2
  extract_lets +onlyGivenNames v3
  have h3 : Keeps true true true true v3 s := by
    unfold v3
    split
    · refine .congr (u := v2) ?_
      assumption
    · assumption
  clear_value v3
  refine .ite ?_ ?_
  · refine .trans (State.coreStop_keeps _ _) ?_
    refine .trans (State.modCore_keeps _ _ _) ?_
    assumption
  assumption

theorem State.drainResult_keeps (s : State) (key : ℕ) :
    Keeps true true true true (State.drainResult s key) s := by
  unfold State.drainResult
  refine .ite ?_ ?_
  · exact .refl _
  split
  · exact .refl _
  · extract_lets +onlyGivenNames v1
    clear_value v1
    refine .ite ?_ ?_
    · exact .refl _
    extract_lets +onlyGivenNames v2
    have h2 : Keeps true true true true v2 s := by
      unfold v2
      refine .trans (State.writeResult_keeps _ _ _) ?_
      refine .trans (State.modPage_keeps _ _ _) ?_
      exact .refl _
    clear_value v2
    refine .ite ?_ ?_
    · refine .trans (State.doneOp_keeps _ _) ?_
      assumption
    assumption

theorem State.resumeOp_keeps (s : State) (key : ℕ) (op : Op) (tag : ℕ) :
    Keeps true true true true (State.resumeOp s key op tag) s := by
  unfold State.resumeOp
  extract_lets +onlyGivenNames v1
  clear_value v1
  extract_lets +onlyGivenNames v2
  have h2 : Keeps true true true true v2 s := by
    unfold v2
    refine .trans (State.modPage_keeps _ _ _) ?_
    exact .refl _
  clear_value v2
  extract_lets +onlyGivenNames v3
  have h3 : Keeps true true true true v3 s := by
    unfold v3
    split
    · refine .congr (u := v2) ?_
      assumption
    · assumption
  clear_value v3
  extract_lets +onlyGivenNames v4
  clear_value v4
  extract_lets +onlyGivenNames v5
  have h5 : Keeps true true true true v5 s := by
    unfold v5
    refine .ite ?_ ?_
    · refine .ite ?_ ?_
      · refine .trans (State.mcEnter_keeps _ _ _) ?_
        assumption
      refine .trans (State.modCore_keeps _ _ _) ?_
      assumption
    assumption
  clear_value v5
  refine .trans (State.drainResult_keeps _ _) ?_
  assumption

theorem execSuspend_keeps (who : Issuer) (key : Fin 8192) (tag : ℕ) (s : State) :
    Res.keeps false true true true (execSuspend who key tag s) s := by
  unfold execSuspend
  refine Res.keeps_next ?_
  refine .trans (State.write_keeps (m := false) (k := true) (r := true) (p := true) ?_) ?_
  · refine .ite ?_ ?_
    · refine .trans (State.reject_keeps _ _ _ _ _ _) ?_
      exact .refl _
    refine .ite ?_ ?_
    · refine .trans (State.reject_keeps _ _ _ _ _ _) ?_
      exact .refl _
    split
    · refine .ite ?_ ?_
      · refine .trans (State.reject_keeps _ _ _ _ _ _) ?_
        exact .refl _
      refine .trans (State.suspendOp_keeps _ _ _ _) ?_
      exact .refl _
    · refine .ite ?_ ?_
      · refine .trans (State.suspendBlock_keeps _ _ _) ?_
        exact .refl _
      refine .trans (State.reject_keeps _ _ _ _ _ _) ?_
      exact .refl _
  exact .refl _

theorem execResume_keeps (who : Issuer) (key : Fin 8192) (tag : ℕ) (s : State) :
    Res.keeps false true true true (execResume who key tag s) s := by
  unfold execResume
  refine Res.keeps_next ?_
  refine .trans (State.write_keeps (m := false) (k := true) (r := true) (p := true) ?_) ?_
  · refine .ite ?_ ?_
    · refine .trans (State.reject_keeps _ _ _ _ _ _) ?_
      exact .refl _
    split
    · refine .ite ?_ ?_
      · refine .trans (State.resumeOp_keeps _ _ _ _) ?_
        exact .refl _
      refine .trans (State.reject_keeps _ _ _ _ _ _) ?_
      exact .refl _
    · refine .ite ?_ ?_
      · refine .trans (State.doneOp_keeps _ _) ?_
        refine .trans (State.enter_keeps _ _ _) ?_
        refine .trans (State.resumeHook_keeps _ _) ?_
        refine .trans (State.accept_keeps _ _ _) ?_
        exact .refl _
      refine .trans (State.reject_keeps _ _ _ _ _ _) ?_
      exact .refl _
  exact .refl _

theorem State.activateRelease_keeps (s : State) :
    Keeps true true true true (State.activateRelease s) s := by
  unfold State.activateRelease
  split
  · exact .refl _
  · extract_lets +onlyGivenNames v1
    clear_value v1
    extract_lets +onlyGivenNames v2
    extract_lets +onlyGivenNames v3
    have h3 : Keeps true true true true v3 s := by
      unfold v3
      refine .congr (u := s) ?_
      exact .refl _
    clear_value v3
    refine .trans (State.refreshHold_keeps _) ?_
    assumption

theorem State.spoilOutput_keeps (s : State) (j : CmpJob) :
    Keeps false true true true (State.spoilOutput s j) s := by
  unfold State.spoilOutput
  refine .ite ?_ ?_
  · extract_lets +onlyGivenNames v1
    clear_value v1
    extract_lets +onlyGivenNames v2
    have h2 : Keeps false true true true v2 s := by
      unfold v2
      refine .congr (u := s) ?_
      exact .refl _
    clear_value v2
    refine .trans (State.each_keeps (m := false) (k := true) (r := true) (p := true) ?_) ?_
    · intro a3_0 a3_1
      refine .trans (State.writeMem_keeps _ _ _) ?_
      exact .refl _
    assumption
  exact .refl _

theorem State.cmpAbort_keeps (s : State) (n : ℕ) :
    Keeps false true true true (State.cmpAbort s n) s := by
  unfold State.cmpAbort
  extract_lets +onlyGivenNames v1
  have h1 : Keeps false true true true v1 s := by
    unfold v1
    split
    · refine .trans (State.spoilOutput_keeps _ _) ?_
      exact .refl _
    · exact .refl _
  clear_value v1
  refine .trans (State.modCmp_keeps _ _ _) ?_
  assumption

theorem State.modTdc_keeps (s : State) (f : Tdc → Tdc) :
    Keeps true true true true (State.modTdc s f) s := by
  unfold State.modTdc
  refine .congr (u := s) ?_
  exact .refl _

theorem State.tdcStop_keeps (s : State) :
    Keeps true true true true (State.tdcStop s) s := by
  unfold State.tdcStop
  refine .trans (State.modTdc_keeps _ _) ?_
  exact .refl _

theorem State.cancelHook_keeps (s : State) (key : Nat) (op : Op) : Keeps false true true true (s.cancelHook key op) s := by
  unfold State.cancelHook
  extract_lets +onlyGivenNames n x s1
  have hx : Keeps true true true true x s := .ite (.trans (State.setCfg_keeps _ _ _) (State.clearPend_keeps _ _)) (State.clearPend_keeps _ _)
  clear_value x
  have h0 : Keeps true true true true s1 s := .ite (.congr (u := x) hx) (.refl _)
  have h1 : Keeps false true true true s1 s := .to h0
  clear_value s1
  split
  · exact .ite (.trans (State.modTb_keeps _ _) h1) (.trans (State.syncOff_keeps _) h1)
  · exact .trans (State.tdcStop_keeps _) h1
  · exact .trans (State.cmpAbort_keeps _ _) h1
  · exact .trans (State.modConv_keeps _ _ _) h1
  · exact .trans (State.modGrat_keeps _ _ _) h1
  · exact .trans (State.modCore_keeps _ _ _) h1
  · exact .ite (.trans (State.modLink_keeps _ _ _) h1) h1
  · refine .ite (.congr (u := s1.wf key Reg.SEC_STAT.UPDATE 0) (.trans (State.wf_keeps _ _ _ _) h1)) ?_
    exact .ite (.trans (State.activateRelease_keeps _) (.trans (State.wf_keeps _ _ _ _) h1)) h1
  · exact h1

theorem execCancel_keeps (who : Issuer) (key : Fin 8192) (tag : ℕ) (s : State) :
    Res.keeps false true true false (execCancel who key tag s) s := by
  unfold execCancel
  refine Res.keeps_next ?_
  refine .trans (State.write_keeps (m := false) (k := true) (r := true) (p := false) ?_) ?_
  · split
    · refine .ite ?_ ?_
      · refine .trans (State.modPage_keeps _ _ _) ?_
        exact .refl _
      extract_lets +onlyGivenNames v2
      have h2 : Keeps false true true false v2 s := by
        unfold v2
        refine .trans (State.cancelOp_keeps _ _) ?_
        refine .trans (State.cancelHook_keeps _ _ _) ?_
        exact .refl _
      clear_value v2
      refine .ite ?_ ?_
      · refine .trans (State.beginNext_keeps _) ?_
        assumption
      assumption
    · refine .trans (State.reject_keeps _ _ _ _ _ _) ?_
      exact .refl _
  exact .refl _

theorem State.giveResult_keeps (s : State) (key : ℕ) (r : List Word) :
    Keeps true true true true (State.giveResult s key r) s := by
  unfold State.giveResult
  refine .ite ?_ ?_
  · refine .trans (State.modPage_keeps _ _ _) ?_
    exact .refl _
  refine .trans (State.writeResult_keeps _ _ _) ?_
  exact .refl _

theorem execQuery_keeps (who : Issuer) (key : Fin 8192) (tag : ℕ) (s : State) :
    Res.keeps true true true true (execQuery who key tag s) s := by
  unfold execQuery
  refine Res.keeps_next ?_
  refine .trans (State.write_keeps (m := true) (k := true) (r := true) (p := true) ?_) ?_
  · extract_lets +onlyGivenNames v2
    have h2 : Keeps true true true true v2.2 s := by
      unfold v2
      refine .trans (State.drawWords_keeps _ _) ?_
      exact .refl _
    clear_value v2
    extract_lets +onlyGivenNames v3
    have h3 : Keeps true true true true v3 s := by
      unfold v3
      assumption
    clear_value v3
    split
    · refine .trans (State.giveResult_keeps _ _ _) ?_
      refine .trans (State.modPage_keeps _ _ _) ?_
      assumption
    · refine .trans (State.doneWith_keeps _ _ _) ?_
      refine .trans (State.accept_keeps _ _ _) ?_
      assumption
  exact .refl _

theorem State.commitAFE_keeps (s : State) (key : ℕ) (op : Op) :
    Keeps true true true true (State.commitAFE s key op) s := by
  unfold State.commitAFE
  split
  · refine .trans (State.rejectOp_keeps _ _ _ _ _) ?_
    exact .refl _
  · refine .ite ?_ ?_
    · refine .trans (State.setPend_keeps _ _ _ _) ?_
      refine .trans (State.accept_keeps _ _ _) ?_
      exact .refl _
    refine .trans (State.doneOp_keeps _ _) ?_
    refine .trans (State.accept_keeps _ _ _) ?_
    exact .refl _

theorem State.commitDSP_keeps (s : State) (op : Op) :
    Keeps true true true true (State.commitDSP s op) s := by
  unfold State.commitDSP
  split
  · refine .trans (State.rejectOp_keeps _ _ _ _ _) ?_
    exact .refl _
  · refine .ite ?_ ?_
    · refine .trans (State.stageDsp_keeps _ _ _) ?_
      refine .trans (State.accept_keeps _ _ _) ?_
      exact .refl _
    refine .trans (State.doneOp_keeps _ _) ?_
    refine .trans (State.accept_keeps _ _ _) ?_
    exact .refl _

theorem State.commitPage_keeps (s : State) (key : ℕ) (op : Op) :
    Keeps true true true true (State.commitPage s key op) s := by
  unfold State.commitPage
  extract_lets +onlyGivenNames v1
  clear_value v1
  extract_lets +onlyGivenNames v2
  clear_value v2
  split
  · refine .trans (State.commitDDC_keeps _ _ _) ?_
    exact .refl _
  · refine .trans (State.commitINS_keeps _ _ _) ?_
    exact .refl _
  · refine .trans (State.commitHere_keeps _ _ _ _ _) ?_
    exact .refl _
  · refine .trans (State.commitHere_keeps _ _ _ _ _) ?_
    exact .refl _
  · refine .trans (State.commitHere_keeps _ _ _ _ _) ?_
    exact .refl _
  · refine .trans (State.commitHere_keeps _ _ _ _ _) ?_
    exact .refl _
  · refine .trans (State.commitHere_keeps _ _ _ _ _) ?_
    exact .refl _
  · refine .trans (State.commitHere_keeps _ _ _ _ _) ?_
    exact .refl _
  · refine .trans (State.commitHere_keeps _ _ _ _ _) ?_
    exact .refl _
  · refine .trans (State.commitAFE_keeps _ _ _) ?_
    exact .refl _
  · refine .trans (State.commitDSP_keeps _ _) ?_
    exact .refl _
  · refine .trans (State.doneOp_keeps _ _) ?_
    refine .trans (State.accept_keeps _ _ _) ?_
    exact .refl _

theorem execCommit_keeps (who : Issuer) (key : Fin 8192) (tag : ℕ) (s : State) :
    Res.keeps true true true true (execCommit who key tag s) s := by
  unfold execCommit
  refine Res.keeps_next ?_
  refine .trans (State.command_keeps (m := true) (k := true) (r := true) (p := true) ?_) ?_
  · intro a1_0
    refine .trans (State.commitPage_keeps _ _ _) ?_
    exact .refl _
  exact .refl _

theorem State.chanCommand_keeps {m k r p : Bool} {s : State} {who : Issuer} {c op : Nat} {f : State → State}
    (h : Keeps m k r p (f s) s) : Res.keeps m k r p (s.chanCommand who c op f) s := by
  unfold State.chanCommand
  exact Res.keeps_next (State.write_keeps h)

theorem State.chanCode_keeps (s : State) (c : ℕ) (code : ℕ) (sub : ℕ) :
    Keeps true true true true (State.chanCode s c code sub) s := by
  unfold State.chanCode
  refine .trans (State.wf_keeps _ _ _ _) ?_
  refine .trans (State.wf_keeps _ _ _ _) ?_
  exact .refl _

theorem State.chanReject_keeps (s : State) (c : ℕ) (opcode : ℕ) (code : ℕ) (sub : ℕ) :
    Keeps true true true true (State.chanReject s c opcode code sub) s := by
  unfold State.chanReject
  extract_lets +onlyGivenNames v1
  clear_value v1
  extract_lets +onlyGivenNames v2
  have h2 : Keeps true true true true v2 s := by
    unfold v2
    refine .trans (State.logPage_keeps _ _ _ _ _ _ _) ?_
    refine .trans (State.chanCode_keeps _ _ _ _) ?_
    exact .refl _
  clear_value v2
  refine .ite ?_ ?_
  · refine .trans (State.setErr_keeps _ _ _) ?_
    assumption
  assumption

theorem execUndefinedOpcode_keeps (who : Issuer) (key : Fin 8192) (chan : Option (Fin 512)) (opcode : BitVec 16) (tag : ℕ) (s : State) :
    Res.keeps true true true true (execUndefinedOpcode who key chan opcode tag s) s := by
  unfold execUndefinedOpcode
  split
  · extract_lets +onlyGivenNames v1
    clear_value v1
    refine Res.keeps_ite ?_ ?_
    · refine Res.keeps_next ?_
      exact .refl _
    refine Res.keeps_trans (m1 := _) (State.chanCommand_keeps (m := true) (k := true) (r := true) (p := true) ?_) ?_
    · refine .trans (State.chanReject_keeps _ _ _ _ _) ?_
      exact .refl _
    exact .refl _
  · refine Res.keeps_ite ?_ ?_
    · refine Res.keeps_next ?_
      exact .refl _
    refine Res.keeps_next ?_
    refine .trans (State.write_keeps (m := true) (k := true) (r := true) (p := true) ?_) ?_
    · refine .trans (State.reject_keeps _ _ _ _ _ _) ?_
      exact .refl _
    exact .refl _

theorem State.setEnable_keeps (s : State) (key : ℕ) (on : Bool) :
    Keeps false true true true (State.setEnable s key on) s := by
  unfold State.setEnable
  extract_lets +onlyGivenNames v1
  have h1 : Keeps false true true true v1 s := by
    unfold v1
    refine .trans (State.modPage_keeps _ _ _) ?_
    exact .refl _
  clear_value v1
  refine .ite ?_ ?_
  · assumption
  split
  · extract_lets +onlyGivenNames v2
    clear_value v2
    refine .ite ?_ ?_
    · refine .trans (State.stopDone_keeps _ _) ?_
      assumption
    refine .trans (State.startStopFails_keeps _ _) ?_
    refine .trans (State.enter_keeps _ _ _) ?_
    refine .trans (State.stopHook_keeps _ _) ?_
    assumption
  · extract_lets +onlyGivenNames v3
    clear_value v3
    refine .ite ?_ ?_
    · refine .trans (State.stopDone_keeps _ _) ?_
      assumption
    refine .trans (State.startStopFails_keeps _ _) ?_
    refine .trans (State.enter_keeps _ _ _) ?_
    refine .trans (State.stopHook_keeps _ _) ?_
    assumption
  · refine .trans (State.startStopFails_keeps _ _) ?_
    assumption

theorem State.setFreeze_keeps (s : State) (key : ℕ) (on : Bool) :
    Keeps false true true true (State.setFreeze s key on) s := by
  unfold State.setFreeze
  extract_lets +onlyGivenNames v1
  clear_value v1
  extract_lets +onlyGivenNames v2
  clear_value v2
  extract_lets +onlyGivenNames v3
  have h3 : Keeps false true true true v3 s := by
    unfold v3
    refine .trans (State.modPage_keeps _ _ _) ?_
    exact .refl _
  clear_value v3
  refine .ite ?_ ?_
  · extract_lets +onlyGivenNames v4
    have h4 : Keeps false true true true v4 s := by
      unfold v4
      refine .ite ?_ ?_
      · refine .trans (State.capPause_keeps _ _ _) ?_
        assumption
      assumption
    clear_value v4
    refine .trans (State.startStopFails_keeps _ _) ?_
    refine .trans (State.enter_keeps _ _ _) ?_
    refine .trans (State.modPage_keeps _ _ _) ?_
    assumption
  refine .ite ?_ ?_
  · extract_lets +onlyGivenNames v5
    have h5 : Keeps false true true true v5 s := by
      unfold v5
      refine .trans (State.modPage_keeps _ _ _) ?_
      refine .trans (State.enter_keeps _ _ _) ?_
      assumption
    clear_value v5
    refine .ite ?_ ?_
    · assumption
    refine .ite ?_ ?_
    · refine .trans (State.capResume_keeps _ _ _) ?_
      assumption
    refine .trans (State.skipHook_keeps _ _) ?_
    assumption
  assumption

theorem State.setLock_keeps (s : State) (key : ℕ) :
    Keeps true true true true (State.setLock s key) s := by
  unfold State.setLock
  refine .trans (State.modPage_keeps _ _ _) ?_
  exact .refl _

theorem State.writeCtrl_keeps (s : State) (key : ℕ) (w : Word) :
    Keeps false true true false (State.writeCtrl s key w) s := by
  unfold State.writeCtrl
  refine .ite ?_ ?_
  · refine .trans (State.softReset_keeps _ _) ?_
    exact .refl _
  extract_lets +onlyGivenNames v1
  have h1 : Keeps false true true false v1 s := by
    unfold v1
    refine .ite ?_ ?_
    · refine .trans (State.setLock_keeps _ _) ?_
      exact .refl _
    exact .refl _
  clear_value v1
  extract_lets +onlyGivenNames v2
  have h2 : Keeps false true true false v2 s := by
    unfold v2
    refine .ite ?_ ?_
    · assumption
    refine .trans (State.setEnable_keeps _ _ _) ?_
    assumption
  clear_value v2
  refine .ite ?_ ?_
  · assumption
  refine .trans (State.setFreeze_keeps _ _ _) ?_
  assumption

theorem execSoftReset_keeps (who : Issuer) (key : Fin 8192) (s : State) :
    Res.keeps false true true false (execSoftReset who key s) s := by
  unfold execSoftReset
  refine Res.keeps_next ?_
  refine .trans (State.write_keeps (m := false) (k := true) (r := true) (p := false) ?_) ?_
  · refine .trans (State.writeCtrl_keeps _ _ _) ?_
    exact .refl _
  exact .refl _

theorem execFreezeWrite_keeps (who : Issuer) (key : Fin 8192) (on : Bool) (s : State) :
    Res.keeps false true true true (execFreezeWrite who key on s) s := by
  unfold execFreezeWrite
  refine Res.keeps_next ?_
  refine .trans (State.write_keeps (m := false) (k := true) (r := true) (p := true) ?_) ?_
  · refine .trans (State.setFreeze_keeps _ _ _) ?_
    exact .refl _
  exact .refl _

theorem execEnableWrite_keeps (who : Issuer) (key : Fin 8192) (on : Bool) (s : State) :
    Res.keeps false true true true (execEnableWrite who key on s) s := by
  unfold execEnableWrite
  refine Res.keeps_next ?_
  refine .trans (State.write_keeps (m := false) (k := true) (r := true) (p := true) ?_) ?_
  · refine .trans (State.setEnable_keeps _ _ _) ?_
    exact .refl _
  exact .refl _

theorem execLockSet_keeps (who : Issuer) (key : Fin 8192) (s : State) :
    Res.keeps true true true true (execLockSet who key s) s := by
  unfold execLockSet
  refine Res.keeps_next ?_
  refine .trans (State.write_keeps (m := true) (k := true) (r := true) (p := true) ?_) ?_
  · refine .trans (State.setLock_keeps _ _) ?_
    exact .refl _
  exact .refl _

theorem State.convRestart_keeps (s : State) (c : ℕ) :
    Keeps true true true true (State.convRestart s c) s := by
  unfold State.convRestart
  refine .ite ?_ ?_
  · exact .refl _
  extract_lets +onlyGivenNames v1
  have h1 : Keeps true true true true v1 s := by
    unfold v1
    refine .trans (State.convEnter_keeps _ _ _) ?_
    refine .trans (State.setAdcField_keeps _ _ _ _) ?_
    exact .refl _
  clear_value v1
  extract_lets +onlyGivenNames v2
  have h2 : Keeps true true true true v2 s := by
    unfold v2
    refine .trans (State.updateLocked_keeps _ _) ?_
    refine .trans (State.wb_keeps _ _ _ _) ?_
    assumption
  clear_value v2
  refine .ite ?_ ?_
  · refine .trans (State.modSvy_keeps _ _) ?_
    assumption
  assumption

theorem execBlockResetComplete_keeps (key : Fin 8192) (s : State) :
    Res.keeps true true true false (execBlockResetComplete key s) s := by
  unfold execBlockResetComplete
  refine Res.keeps_ite ?_ ?_
  · refine Res.keeps_next ?_
    exact .refl _
  extract_lets +onlyGivenNames v1
  have h1 : Keeps true true true false v1 s := by
    unfold v1
    refine .trans (State.enter_keeps _ _ _) ?_
    exact .refl _
  clear_value v1
  extract_lets +onlyGivenNames v2
  have h2 : Keeps true true true false v2 s := by
    unfold v2
    refine .ite ?_ ?_
    · refine .trans (State.convRestart_keeps _ _) ?_
      assumption
    assumption
  clear_value v2
  refine Res.keeps_next ?_
  refine .ite ?_ ?_
  · refine .trans (State.refreshPhn_keeps _) ?_
    refine .trans (State.readmit_keeps _) ?_
    assumption
  assumption

theorem State.writeStops_keeps (s : State) (start : ℤ) (stops : List TdcEdge) :
    Keeps true true true true (State.writeStops s start stops) s := by
  unfold State.writeStops
  refine .trans (foldl_keeps (m := true) (k := true) (r := true) (p := true) ?_) ?_
  · intro a1_0 a1_1
    split
    · extract_lets +onlyGivenNames v2
      clear_value v2
      refine .trans (State.setReg_keeps _ _ _ _) ?_
      refine .trans (State.setReg_keeps _ _ _ _) ?_
      exact .refl _
    · refine .trans (State.setReg_keeps _ _ _ _) ?_
      refine .trans (State.setReg_keeps _ _ _ _) ?_
      exact .refl _
  exact .refl _

theorem State.tdcDrain_keeps (s : State) :
    Keeps true true true true (State.tdcDrain s) s := by
  unfold State.tdcDrain
  split
  · refine .ite ?_ ?_
    · exact .refl _
    refine .trans (State.modTdc_keeps _ _) ?_
    refine .trans (State.writeStops_keeps _ _ _) ?_
    exact .refl _
  · exact .refl _

theorem State.writeAck_keeps (s : State) (key : ℕ) (v : Word) :
    Keeps true true true true (State.writeAck s key v) s := by
  unfold State.writeAck
  refine .ite ?_ ?_
  · refine .trans (State.setErr_keeps _ _ _) ?_
    exact .refl _
  refine .ite ?_ ?_
  · extract_lets +onlyGivenNames v1
    have h1 : Keeps true true true true v1 s := by
      unfold v1
      refine .trans (State.drainResult_keeps _ _) ?_
      refine .trans (State.modPage_keeps _ _ _) ?_
      exact .refl _
    clear_value v1
    refine .ite ?_ ?_
    · refine .trans (State.tdcDrain_keeps _) ?_
      assumption
    assumption
  exact .refl _

theorem execPgResAckWrite_keeps (who : Issuer) (key : Fin 8192) (value : BitVec 32) (s : State) :
    Res.keeps true true true true (execPgResAckWrite who key value s) s := by
  unfold execPgResAckWrite
  refine Res.keeps_next ?_
  refine .trans (State.write_keeps (m := true) (k := true) (r := true) (p := true) ?_) ?_
  · refine .trans (State.writeAck_keeps _ _ _) ?_
    exact .refl _
  exact .refl _

theorem State.writeIrq_keeps (s : State) (key : ℕ) (en : Bool) (v : Word) :
    Keeps true true true true (State.writeIrq s key en v) s := by
  unfold State.writeIrq
  extract_lets +onlyGivenNames v1
  have h1 : Keeps true true true true v1 s := by
    unfold v1
    refine .trans (State.modPage_keeps _ _ _) ?_
    exact .refl _
  clear_value v1
  refine .ite ?_ ?_
  · refine .trans (State.pageMessage_keeps _ _) ?_
    assumption
  assumption

theorem execPgIrqWrite_keeps (who : Issuer) (key : Fin 8192) (en : Bool) (value : BitVec 32) (s : State) :
    Res.keeps true true true true (execPgIrqWrite who key en value s) s := by
  unfold execPgIrqWrite
  refine Res.keeps_next ?_
  refine .trans (State.write_keeps (m := true) (k := true) (r := true) (p := true) ?_) ?_
  · refine .trans (State.writeIrq_keeps _ _ _ _) ?_
    exact .refl _
  exact .refl _

theorem State.writeCoreReg_keeps (s : State) (n : ℕ) (off : ℕ) (w : Word) :
    Keeps true true true true (State.writeCoreReg s n off w) s := by
  unfold State.writeCoreReg
  extract_lets +onlyGivenNames v1
  clear_value v1
  refine .trans (State.modCore_keeps _ _ _) ?_
  exact .refl _

theorem State.writeTable_keeps (s : State) (key : ℕ) (off : ℕ) (w : Word) :
    Keeps true true true true (State.writeTable s key off w) s := by
  unfold State.writeTable
  split
  · exact .refl _
  · extract_lets +onlyGivenNames v1
    clear_value v1
    extract_lets +onlyGivenNames v2
    have h2 : Keeps true true true true v2 s := by
      unfold v2
      refine .trans (State.setReg_keeps _ _ _ _) ?_
      exact .refl _
    clear_value v2
    extract_lets +onlyGivenNames v3
    have h3 : Keeps true true true true v3 s := by
      unfold v3
      refine .ite ?_ ?_
      · refine .trans (State.setErr_keeps _ _ _) ?_
        assumption
      assumption
    clear_value v3
    refine .ite ?_ ?_
    · refine .trans (State.setErr_keeps _ _ _) ?_
      assumption
    assumption

theorem execAdcCfgWrite_keeps (who : Issuer) (conv : Fin 5) (value : BitVec 32) (s : State) :
    Res.keeps true true true true (execAdcCfgWrite who conv value s) s := by
  unfold execAdcCfgWrite
  extract_lets +onlyGivenNames v1
  clear_value v1
  extract_lets +onlyGivenNames v2
  clear_value v2
  refine Res.keeps_next ?_
  refine .trans (State.write_keeps (m := true) (k := true) (r := true) (p := true) ?_) ?_
  · extract_lets +onlyGivenNames v4
    clear_value v4
    extract_lets +onlyGivenNames v5
    clear_value v5
    extract_lets +onlyGivenNames v6
    clear_value v6
    extract_lets +onlyGivenNames v7
    clear_value v7
    extract_lets +onlyGivenNames v8
    clear_value v8
    extract_lets +onlyGivenNames v9
    clear_value v9
    extract_lets +onlyGivenNames v10
    clear_value v10
    extract_lets +onlyGivenNames v11
    clear_value v11
    extract_lets +onlyGivenNames v12
    clear_value v12
    extract_lets +onlyGivenNames v13
    have h13 : Keeps true true true true v13 s := by
      unfold v13
      refine .trans (State.setAdcCfg_keeps _ _ _) ?_
      exact .refl _
    clear_value v13
    extract_lets +onlyGivenNames v14
    have h14 : Keeps true true true true v14 s := by
      unfold v14
      refine .ite ?_ ?_
      · refine .trans (State.setErr_keeps _ _ _) ?_
        assumption
      assumption
    clear_value v14
    refine .ite ?_ ?_
    · refine .trans (State.convEnter_keeps _ _ _) ?_
      assumption
    assumption
  exact .refl _

theorem execGrtMapSelWrite_keeps (who : Issuer) (pipe : Fin 6) (value : BitVec 32) (s : State) :
    Res.keeps true true true true (execGrtMapSelWrite who pipe value s) s := by
  unfold execGrtMapSelWrite
  extract_lets +onlyGivenNames v1
  clear_value v1
  refine Res.keeps_next ?_
  refine .trans (State.write_keeps (m := true) (k := true) (r := true) (p := true) ?_) ?_
  · refine .trans (State.wf_keeps _ _ _ _) ?_
    exact .refl _
  exact .refl _

theorem State.writeTbsCfg_keeps (s : State) (w : Word) :
    Keeps true true true true (State.writeTbsCfg s w) s := by
  unfold State.writeTbsCfg
  extract_lets +onlyGivenNames v1
  have h1 : Keeps true true true true v1 s := by
    unfold v1
    refine .trans (State.writeTable_keeps _ _ _ _) ?_
    exact .refl _
  clear_value v1
  refine .ite ?_ ?_
  · assumption
  refine .trans (State.emit_keeps _ _) ?_
  assumption

theorem State.writeBlock_keeps (s : State) (who : Issuer) (key : ℕ) (off : ℕ) (w : Word) :
    Keeps true true true true (State.writeBlock s who key off w) s := by
  unfold State.writeBlock
  extract_lets +onlyGivenNames v1
  extract_lets +onlyGivenNames v2
  split
  · refine .dite (fun c3 => ?_) (fun c3 => ?_)
    · exact orStay_keeps (execAdcCfgWrite_keeps _ _ _ _)
    refine .trans (State.writeTable_keeps _ _ _ _) ?_
    exact .refl _
  · refine .dite (fun c4 => ?_) (fun c4 => ?_)
    · exact orStay_keeps (execDcCfgWrite_keeps _ _ _ _)
    refine .trans (State.writeTable_keeps _ _ _ _) ?_
    exact .refl _
  · refine .dite (fun c5 => ?_) (fun c5 => ?_)
    · exact orStay_keeps (execGrtMapSelWrite_keeps _ _ _ _)
    refine .trans (State.writeTable_keeps _ _ _ _) ?_
    exact .refl _
  · refine .dite (fun c6 => ?_) (fun c6 => ?_)
    · exact orStay_keeps (execRecordPlaneRdWrite_keeps _ _ _ _ _)
    refine .trans (State.writeTable_keeps _ _ _ _) ?_
    exact .refl _
  · refine .ite ?_ ?_
    · exact .refl _
    refine .trans (State.writeTable_keeps _ _ _ _) ?_
    exact .refl _
  · extract_lets +onlyGivenNames v7
    have h7 : Keeps true true true true v7 s := by
      unfold v7
      refine .trans (State.writeTable_keeps _ _ _ _) ?_
      exact .refl _
    clear_value v7
    refine .trans (State.setReg_keeps _ _ _ _) ?_
    assumption
  · extract_lets +onlyGivenNames v8
    clear_value v8
    extract_lets +onlyGivenNames v9
    have h9 : Keeps true true true true v9 s := by
      unfold v9
      refine .trans (State.writeTable_keeps _ _ _ _) ?_
      exact .refl _
    clear_value v9
    extract_lets +onlyGivenNames v10
    clear_value v10
    refine .ite ?_ ?_
    · refine .trans (State.setReg_keeps _ _ _ _) ?_
      refine .trans (State.setReg_keeps _ _ _ _) ?_
      assumption
    assumption
  · refine .ite ?_ ?_
    · refine .trans (State.logPage_keeps _ _ _ _ _ _ _) ?_
      exact .refl _
    refine .ite ?_ ?_
    · refine .trans (State.writeCoreReg_keeps _ _ _ _) ?_
      exact .refl _
    refine .trans (State.writeTable_keeps _ _ _ _) ?_
    exact .refl _
  · refine .ite ?_ ?_
    · refine .trans (State.writeTbsCfg_keeps _ _) ?_
      exact .refl _
    refine .trans (State.writeTable_keeps _ _ _ _) ?_
    exact .refl _
  · refine .ite ?_ ?_
    · refine .trans (State.setErr_keeps _ _ _) ?_
      exact .refl _
    refine .trans (State.writeTable_keeps _ _ _ _) ?_
    exact .refl _
  · refine .trans (State.writeTable_keeps _ _ _ _) ?_
    exact .refl _

theorem State.writeReg_keeps (s : State) (who : Issuer) (key : ℕ) (off : ℕ) (w : Word) (full : Bool) :
    Keeps false true true false (State.writeReg s who key off w full) s := by
  unfold State.writeReg
  refine .ite ?_ ?_
  · refine .trans (State.honour_keeps (m := false) (k := true) (r := true) (p := false) ?_) ?_
    · refine .trans (State.setErr_keeps _ _ _) ?_
      exact .refl _
    exact .refl _
  refine .trans (State.write_keeps (m := false) (k := true) (r := true) (p := false) ?_) ?_
  · refine .ite ?_ ?_
    · refine .trans (State.writeBlock_keeps _ _ _ _ _) ?_
      exact .refl _
    split
    · refine .trans (State.writeCtrl_keeps _ _ _) ?_
      exact .refl _
    · refine .trans (State.modPage_keeps _ _ _) ?_
      exact .refl _
    · refine .trans (State.modPage_keeps _ _ _) ?_
      exact .refl _
    · refine .trans (State.writeIrq_keeps _ _ _ _) ?_
      exact .refl _
    · refine .trans (State.writeIrq_keeps _ _ _ _) ?_
      exact .refl _
    · refine .trans (State.modPage_keeps _ _ _) ?_
      exact .refl _
    · refine .trans (State.modPage_keeps _ _ _) ?_
      exact .refl _
    · refine .trans (State.modPage_keeps _ _ _) ?_
      exact .refl _
    · refine .trans (State.modPage_keeps _ _ _) ?_
      exact .refl _
    · refine .trans (State.writeAck_keeps _ _ _) ?_
      exact .refl _
    · exact .refl _
  exact .refl _

theorem execRegisterWrite_keeps (who : Issuer) (key : Fin 8192) (word : Fin 1024) (value : BitVec 32) (full : Bool) (s : State) :
    Res.keeps false true true false (execRegisterWrite who key word value full s) s := by
  unfold execRegisterWrite
  refine Res.keeps_next ?_
  refine .trans (State.writeReg_keeps _ _ _ _ _ _) ?_
  exact .refl _

theorem State.writeMsix_keeps (s : State) (i : ℕ) (w : Word) :
    Keeps true true true true (State.writeMsix s i w) s := by
  unfold State.writeMsix
  extract_lets +onlyGivenNames v1
  have h1 : Keeps true true true true v1 s := by
    unfold v1
    refine .congr (u := s) ?_
    exact .refl _
  extract_lets +onlyGivenNames v2
  refine .ite ?_ ?_
  · refine .trans (State.sendMsix_keeps _ _) ?_
    refine .congr (u := v1) ?_
    assumption
  assumption

theorem execMsixUnmask_keeps (vector : Fin 2048) (s : State) :
    Res.keeps true true true true (execMsixUnmask vector s) s := by
  unfold execMsixUnmask
  refine Res.keeps_next ?_
  refine .trans (State.writeMsix_keeps _ _ _) ?_
  exact .refl _

theorem State.setWin_keeps (s : State) (addr : ℕ) (v : Word) :
    Keeps true true true true (State.setWin s addr v) s := by
  unfold State.setWin
  refine .congr (u := s) ?_
  exact .refl _

theorem execRingContextWrite_keeps (ring : Fin 32768) (index : Fin 16) (value : BitVec 32) (s : State) :
    Res.keeps true true true true (execRingContextWrite ring index value s) s := by
  unfold execRingContextWrite
  extract_lets +onlyGivenNames v1
  clear_value v1
  extract_lets +onlyGivenNames v2
  clear_value v2
  extract_lets +onlyGivenNames v3
  clear_value v3
  refine Res.keeps_ite ?_ ?_
  · refine Res.keeps_next ?_
    refine .trans (State.logDiscard_keeps _ _ _ _ _) ?_
    exact .refl _
  refine Res.keeps_ite ?_ ?_
  · refine Res.keeps_next ?_
    refine .trans (State.setErr_keeps _ _ _) ?_
    refine .trans (State.logDiscard_keeps _ _ _ _ _) ?_
    exact .refl _
  refine Res.keeps_ite ?_ ?_
  · refine Res.keeps_next ?_
    refine .trans (State.setErr_keeps _ _ _) ?_
    exact .refl _
  refine Res.keeps_next ?_
  refine .trans (State.modRing_keeps _ _ _) ?_
  exact .refl _

theorem execWindowWrite_keeps (who : Issuer) (addr : Fin 67108864) (value : BitVec 32) (full : Bool) (s : State) :
    Res.keeps true true true true (execWindowWrite who addr value full s) s := by
  unfold execWindowWrite
  extract_lets +onlyGivenNames v1
  clear_value v1
  refine Res.keeps_ite ?_ ?_
  · refine Res.keeps_next ?_
    refine .ite ?_ ?_
    · refine .trans (State.writeMsix_keeps _ _ _) ?_
      exact .refl _
    exact .refl _
  split
  · refine Res.keeps_next ?_
    refine .ite ?_ ?_
    · exact .refl _
    refine .trans (State.logUnmapped_keeps _ _) ?_
    exact .refl _
  · split
    · refine Res.keeps_next ?_
      refine .trans (State.logDiscard_keeps _ _ _ _ _) ?_
      exact .refl _
    · refine Res.keeps_next ?_
      refine .ite ?_ ?_
      · exact .refl _
      refine .trans (State.logDiscard_keeps _ _ _ _ _) ?_
      exact .refl _
    · refine Res.keeps_ite ?_ ?_
      · refine Res.keeps_next ?_
        refine .trans (State.setErr_keeps _ _ _) ?_
        exact .refl _
      refine Res.keeps_ite ?_ ?_
      · refine Res.keeps_trans (execRingContextWrite_keeps _ _ _ _) ?_
        exact .refl _
      refine Res.keeps_next ?_
      refine .trans (State.setWin_keeps _ _ _) ?_
      exact .refl _

theorem execUnmappedAccess_keeps (addr : Fin 67108864) (s : State) :
    Res.keeps true true true true (execUnmappedAccess addr s) s := by
  unfold execUnmappedAccess
  refine Res.keeps_next ?_
  refine .ite ?_ ?_
  · exact .refl _
  refine .trans (State.logUnmapped_keeps _ _) ?_
  exact .refl _

theorem execRouteIrq_keeps (who : Issuer) (tag : ℕ) (s : State) :
    Res.keeps true true false true (execRouteIrq who tag s) s := by
  unfold execRouteIrq
  refine Res.keeps_next ?_
  refine .trans (State.command_keeps (m := true) (k := true) (r := false) (p := true) ?_) ?_
  · intro a1_0
    extract_lets +onlyGivenNames v2
    extract_lets +onlyGivenNames v3
    refine .ite ?_ ?_
    · refine .trans (State.rejectOp_keeps _ _ _ _ _) ?_
      exact .refl _
    refine .ite ?_ ?_
    · refine .trans (State.rejectOp_keeps _ _ _ _ _) ?_
      exact .refl _
    refine .trans (State.doneOp_keeps _ _) ?_
    extract_lets +onlyGivenNames v4
    have h4 : Keeps true true false true v4 s := by
      unfold v4
      refine .trans (State.accept_keeps _ _ _) ?_
      exact .refl _
    clear_value v4
    refine .congr (u := v4) ?_
    assumption
  exact .refl _

theorem State.setStale_keeps (s : State) (n : ℕ) (b : Bool) :
    Keeps true true true false (State.setStale s n b) s := by
  unfold State.setStale
  refine .ite ?_ ?_
  · exact .refl _
  extract_lets +onlyGivenNames v1
  clear_value v1
  extract_lets +onlyGivenNames v2
  have h2 : Keeps true true true false v2 s := by
    unfold v2
    refine .congr (u := s) ?_
    exact .refl _
  clear_value v2
  refine .trans (State.each_keeps (m := true) (k := true) (r := true) (p := false) ?_) ?_
  · intro a3_0 a3_1
    refine .trans (State.notify_keeps _ _ _ _ _) ?_
    exact .refl _
  assumption

theorem State.channelStale_keeps (s : State) (c : ℕ) :
    Keeps true true true false (State.channelStale s c) s := by
  unfold State.channelStale
  refine .trans (State.setStale_keeps _ _ _) ?_
  exact .refl _

theorem State.setCarrier_keeps (s : State) (n : ℕ) (c : ℕ) (h : ℕ) :
    Keeps true true true true (State.setCarrier s n c h) s := by
  unfold State.setCarrier
  refine .trans (State.refreshSrc_keeps _) ?_
  refine .congr (u := s) ?_
  exact .refl _

theorem State.dropEst1_keeps (s : State) :
    Keeps true true true true (State.dropEst1 s) s := by
  unfold State.dropEst1
  refine .trans (foldl_keeps (m := true) (k := true) (r := true) (p := true) ?_) ?_
  · intro a1_0 a1_1
    refine .ite ?_ ?_
    · refine .trans (State.wf_keeps _ _ _ _) ?_
      refine .trans (State.modChain_keeps _ _ _) ?_
      exact .refl _
    exact .refl _
  exact .refl _

theorem State.waf_keeps (s : State) (key : ℕ) (f : RegField) (v : ℕ) :
    Keeps true true true true (State.waf s key f v) s := by
  unfold State.waf
  refine .trans (State.setAreg_keeps _ _ _ _) ?_
  exact .refl _

theorem State.setSpareSel_keeps (s : State) (sel : ℕ) :
    Keeps true true true true (State.setSpareSel s sel) s := by
  unfold State.setSpareSel
  refine .trans (State.wf_keeps _ _ _ _) ?_
  refine .trans (State.waf_keeps _ _ _ _) ?_
  exact .refl _

theorem State.spareEnter_keeps (s : State) (n : ℕ) :
    Keeps true true true true (State.spareEnter s n) s := by
  unfold State.spareEnter
  refine .trans (State.wf_keeps _ _ _ _) ?_
  exact .refl _

theorem State.spareFront_keeps (s : State) (input : ℕ) (zone : ℕ) (atten : ℕ) (sel : ℕ) (six : ℕ) :
    Keeps true true true true (State.spareFront s input zone atten sel six) s := by
  unfold State.spareFront
  extract_lets +onlyGivenNames v1
  clear_value v1
  extract_lets +onlyGivenNames v2
  extract_lets +onlyGivenNames v3
  have h3 : Keeps true true true true v3 s := by
    unfold v3
    unfold v2
    refine .trans (State.waf_keeps _ _ _ _) ?_
    refine .trans (State.wf_keeps _ _ _ _) ?_
    refine .trans (State.waf_keeps _ _ _ _) ?_
    refine .trans (State.wf_keeps _ _ _ _) ?_
    refine .trans (State.waf_keeps _ _ _ _) ?_
    refine .trans (State.wf_keeps _ _ _ _) ?_
    exact .refl _
  clear_value v3
  refine .trans (State.afeSet_keeps _ _ _ _ _ _ _) ?_
  refine .trans (State.setSpareSel_keeps _ _) ?_
  assumption

end Sys2Proof.Machine
end

