-- ==== Sys2Proof/Laws/Keeps5.lean ====
section
/-! SUPPORT. What the operations and commands keep, part 5. -/

set_option Elab.async false

namespace Sys2Proof.Machine

theorem State.spareIdle_keeps (s : State) (result : ℕ) :
    Keeps true true true true (State.spareIdle s result) s := by
  unfold State.spareIdle
  extract_lets +onlyGivenNames v1
  have h1 : Keeps true true true true v1 s := by
    unfold v1
    refine .trans (State.dropEst1_keeps _) ?_
    exact .refl _
  clear_value v1
  extract_lets +onlyGivenNames v2
  have h2 : Keeps true true true true v2 s := by
    unfold v2
    refine .trans (State.spareFront_keeps _ _ _ _ _ _) ?_
    assumption
  clear_value v2
  extract_lets +onlyGivenNames v3
  have h3 : Keeps true true true true v3 s := by
    unfold v3
    refine .trans (State.addSkew_keeps _ _ _) ?_
    assumption
  clear_value v3
  extract_lets +onlyGivenNames v4
  have h4 : Keeps true true true true v4 s := by
    unfold v4
    refine .trans (State.modRot_keeps _ _) ?_
    assumption
  clear_value v4
  extract_lets +onlyGivenNames v5
  have h5 : Keeps true true true true v5 s := by
    unfold v5
    refine .trans (State.wf_keeps _ _ _ _) ?_
    assumption
  clear_value v5
  extract_lets +onlyGivenNames v6
  have h6 : Keeps true true true true v6 s := by
    unfold v6
    refine .trans (State.wf_keeps _ _ _ _) ?_
    assumption
  clear_value v6
  extract_lets +onlyGivenNames v7
  have h7 : Keeps true true true true v7 s := by
    unfold v7
    refine .ite ?_ ?_
    · assumption
    refine .trans (State.wf_keeps _ _ _ _) ?_
    assumption
  clear_value v7
  refine .trans (State.spareEnter_keeps _ _) ?_
  assumption

theorem State.restoreTrims_keeps (s : State) (c : ℕ) :
    Keeps true true true true (State.restoreTrims s c) s := by
  unfold State.restoreTrims
  split
  · refine .trans (State.modPage_keeps _ _ _) ?_
    exact .refl _
  · exact .refl _

theorem State.spareTake_keeps (s : State) (main : ℕ) (input : ℕ) :
    Keeps true true true true (State.spareTake s main input) s := by
  unfold State.spareTake
  extract_lets +onlyGivenNames v1
  clear_value v1
  extract_lets +onlyGivenNames v2
  clear_value v2
  extract_lets +onlyGivenNames v3
  have h3 : Keeps true true true true v3 s := by
    unfold v3
    refine .trans (State.spareFront_keeps _ _ _ _ _ _) ?_
    exact .refl _
  clear_value v3
  extract_lets +onlyGivenNames v4
  have h4 : Keeps true true true true v4 s := by
    unfold v4
    refine .trans (State.wf_keeps _ _ _ _) ?_
    assumption
  clear_value v4
  extract_lets +onlyGivenNames v5
  have h5 : Keeps true true true true v5 s := by
    unfold v5
    refine .trans (State.wf_keeps _ _ _ _) ?_
    assumption
  clear_value v5
  extract_lets +onlyGivenNames v6
  have h6 : Keeps true true true true v6 s := by
    unfold v6
    refine .trans (State.setAdcField_keeps _ _ _ _) ?_
    assumption
  clear_value v6
  refine .trans (State.modRot_keeps _ _) ?_
  assumption

theorem State.rotate_keeps (s : State) (main : ℕ) :
    Keeps true true true true (State.rotate s main) s := by
  unfold State.rotate
  refine .ite ?_ ?_
  · refine .trans (State.spareEnter_keeps _ _) ?_
    refine .trans (State.spareTake_keeps _ _ _) ?_
    exact .refl _
  refine .ite ?_ ?_
  · exact .refl _
  refine .trans (State.modRot_keeps _ _) ?_
  exact .refl _

theorem State.spareDone_keeps (s : State) (result : ℕ) :
    Keeps true true true true (State.spareDone s result) s := by
  unfold State.spareDone
  extract_lets +onlyGivenNames v1
  have h1 : Keeps true true true true v1 s := by
    unfold v1
    refine .trans (State.spareIdle_keeps _ _) ?_
    exact .refl _
  clear_value v1
  split
  · refine .ite ?_ ?_
    · refine .trans (State.rotate_keeps _ _) ?_
      refine .trans (State.modRot_keeps _ _) ?_
      assumption
    assumption
  · assumption

theorem State.spareFails_keeps (s : State) :
    Keeps true true true false (State.spareFails s) s := by
  unfold State.spareFails
  extract_lets +onlyGivenNames v1
  clear_value v1
  extract_lets +onlyGivenNames v2
  clear_value v2
  extract_lets +onlyGivenNames v3
  have h3 : Keeps true true true false v3 s := by
    unfold v3
    refine .trans (State.surveyFails_keeps _ _ _) ?_
    exact .refl _
  clear_value v3
  refine .ite ?_ ?_
  · assumption
  refine .ite ?_ ?_
  · refine .trans (State.spareDone_keeps _ _) ?_
    assumption
  extract_lets +onlyGivenNames v4
  clear_value v4
  extract_lets +onlyGivenNames v5
  clear_value v5
  extract_lets +onlyGivenNames v6
  have h6 : Keeps true true true false v6 s := by
    unfold v6
    refine .trans (State.restoreTrims_keeps _ _) ?_
    refine .trans (State.setCarrier_keeps _ _ _ _) ?_
    assumption
  clear_value v6
  extract_lets +onlyGivenNames v7
  have h7 : Keeps true true true false v7 s := by
    unfold v7
    refine .ite ?_ ?_
    · refine .trans (State.modConv_keeps _ _ _) ?_
      refine .trans (State.afeSet_keeps _ _ _ _ _ _ _) ?_
      assumption
    refine .trans (State.channelStale_keeps _ _) ?_
    assumption
  clear_value v7
  refine .trans (State.spareDone_keeps _ _) ?_
  assumption

theorem State.lastPath_keeps (s : State) :
    Keeps true true true true (State.lastPath s) s := by
  unfold State.lastPath
  extract_lets +onlyGivenNames v1
  clear_value v1
  refine .trans (State.modRot_keeps _ _) ?_
  refine .trans (State.addSkew_keeps _ _ _) ?_
  refine .trans (State.setAdcField_keeps _ _ _ _) ?_
  exact .refl _

theorem State.standIn_keeps (s : State) (c : ℕ) :
    Keeps true true true false (State.standIn s c) s := by
  unfold State.standIn
  extract_lets +onlyGivenNames v1
  clear_value v1
  refine .ite ?_ ?_
  · refine .trans (State.surveyFails_keeps _ _ _) ?_
    refine .trans (State.spareEnter_keeps _ _) ?_
    refine .trans (State.modRot_keeps _ _) ?_
    exact .refl _
  refine .ite ?_ ?_
  · extract_lets +onlyGivenNames v2
    have h2 : Keeps true true true false v2 s := by
      unfold v2
      refine .ite ?_ ?_
      · exact .refl _
      refine .trans (State.lastPath_keeps _) ?_
      exact .refl _
    clear_value v2
    extract_lets +onlyGivenNames v3
    clear_value v3
    refine .trans (State.surveyFails_keeps _ _ _) ?_
    refine .trans (State.spareEnter_keeps _ _) ?_
    refine .trans (State.modRot_keeps _ _) ?_
    assumption
  refine .ite ?_ ?_
  · extract_lets +onlyGivenNames v4
    have h4 : Keeps true true true false v4 s := by
      unfold v4
      refine .trans (State.spareTake_keeps _ _ _) ?_
      exact .refl _
    clear_value v4
    extract_lets +onlyGivenNames v5
    have h5 : Keeps true true true false v5 s := by
      unfold v5
      refine .trans (State.lastPath_keeps _) ?_
      assumption
    clear_value v5
    extract_lets +onlyGivenNames v6
    clear_value v6
    refine .trans (State.spareEnter_keeps _ _) ?_
    refine .trans (State.modRot_keeps _ _) ?_
    assumption
  refine .trans (State.channelStale_keeps _ _) ?_
  exact .refl _

theorem State.convFault_keeps (s : State) (c : ℕ) :
    Keeps true true true false (State.convFault s c) s := by
  unfold State.convFault
  extract_lets +onlyGivenNames v1
  have h1 : Keeps true true true false v1 s := by
    unfold v1
    refine .trans (State.convDown_keeps _ _ _) ?_
    exact .refl _
  clear_value v1
  refine .ite ?_ ?_
  · refine .trans (State.spareFails_keeps _) ?_
    assumption
  refine .ite ?_ ?_
  · refine .trans (State.channelStale_keeps _ _) ?_
    assumption
  refine .trans (State.standIn_keeps _ _) ?_
  assumption

theorem State.faultBlock_keeps (s : State) (key : ℕ) (bit : ℕ) :
    Keeps true true true true (State.faultBlock s key bit) s := by
  unfold State.faultBlock
  extract_lets +onlyGivenNames v1
  have h1 : Keeps true true true true v1 s := by
    unfold v1
    refine .trans (State.setErr_keeps _ _ _) ?_
    exact .refl _
  clear_value v1
  split
  · extract_lets +onlyGivenNames v2
    have h2 : Keeps true true true true v2 s := by
      unfold v2
      refine .trans (State.failOp_keeps _ _ _ _) ?_
      assumption
    clear_value v2
    extract_lets +onlyGivenNames v3
    have h3 : Keeps true true true true v3 s := by
      unfold v3
      refine .trans (State.irqBit_keeps _ _ _) ?_
      refine .trans (State.enter_keeps _ _ _) ?_
      assumption
    clear_value v3
    refine .trans (State.logPage_keeps _ _ _ _ _ _ _) ?_
    assumption
  · extract_lets +onlyGivenNames v4
    have h4 : Keeps true true true true v4 s := by
      unfold v4
      refine .trans (State.failOp_keeps _ _ _ _) ?_
      assumption
    clear_value v4
    extract_lets +onlyGivenNames v5
    have h5 : Keeps true true true true v5 s := by
      unfold v5
      refine .trans (State.irqBit_keeps _ _ _) ?_
      refine .trans (State.enter_keeps _ _ _) ?_
      assumption
    clear_value v5
    refine .trans (State.logPage_keeps _ _ _ _ _ _ _) ?_
    assumption
  · extract_lets +onlyGivenNames v6
    have h6 : Keeps true true true true v6 s := by
      unfold v6
      refine .trans (State.failOp_keeps _ _ _ _) ?_
      assumption
    clear_value v6
    extract_lets +onlyGivenNames v7
    have h7 : Keeps true true true true v7 s := by
      unfold v7
      refine .trans (State.irqBit_keeps _ _ _) ?_
      refine .trans (State.enter_keeps _ _ _) ?_
      assumption
    clear_value v7
    refine .trans (State.logPage_keeps _ _ _ _ _ _ _) ?_
    assumption
  · extract_lets +onlyGivenNames v8
    have h8 : Keeps true true true true v8 s := by
      unfold v8
      refine .trans (State.failOp_keeps _ _ _ _) ?_
      assumption
    clear_value v8
    extract_lets +onlyGivenNames v9
    have h9 : Keeps true true true true v9 s := by
      unfold v9
      refine .trans (State.irqBit_keeps _ _ _) ?_
      refine .trans (State.enter_keeps _ _ _) ?_
      assumption
    clear_value v9
    refine .trans (State.logPage_keeps _ _ _ _ _ _ _) ?_
    assumption
  · assumption

theorem State.enterFault_keeps (s : State) (key : ℕ) (bit : ℕ) :
    Keeps false true true false (State.enterFault s key bit) s := by
  unfold State.enterFault
  extract_lets +onlyGivenNames v1
  clear_value v1
  extract_lets +onlyGivenNames v2
  have h2 : Keeps false true true false v2 s := by
    unfold v2
    refine .trans (State.faultBlock_keeps _ _ _) ?_
    exact .refl _
  clear_value v2
  refine .ite ?_ ?_
  · assumption
  split
  · refine .trans (State.convFault_keeps _ _) ?_
    assumption
  · refine .trans (State.convFault_keeps _ _) ?_
    assumption
  · refine .trans (State.cancelGroup_keeps _ _) ?_
    assumption
  · refine .trans (State.cmpAbort_keeps _ _) ?_
    assumption
  · refine .trans (State.modTb_keeps _ _) ?_
    refine .trans (State.syncOff_keeps _) ?_
    assumption
  · refine .trans (State.tdcStop_keeps _) ?_
    assumption
  · refine .trans (State.capPause_keeps _ _ _) ?_
    assumption
  · extract_lets +onlyGivenNames v3
    have h3 : Keeps false true true false v3 s := by
      unfold v3
      refine .trans (State.clearPend_keeps _ _) ?_
      assumption
    clear_value v3
    refine .congr (u := v3) ?_
    assumption

theorem execXtalFault_keeps (s : State) :
    Res.keeps true true true true (execXtalFault s) s := by
  unfold execXtalFault
  extract_lets +onlyGivenNames v1
  have h1 : Keeps true true true true v1 s := by
    unfold v1
    refine .trans (State.modTb_keeps _ _) ?_
    refine .trans (State.syncOff_keeps _) ?_
    refine .trans (State.faultBlock_keeps _ _ _) ?_
    exact .refl _
  clear_value v1
  refine Res.keeps_next ?_
  refine .congr (u := v1) ?_
  assumption

theorem execBlockFault_keeps (key : Fin 8192) (bit : Fin 32) (s : State) :
    Res.keeps false true true false (execBlockFault key bit s) s := by
  unfold execBlockFault
  refine Res.keeps_ite ?_ ?_
  · refine Res.keeps_next ?_
    exact .refl _
  refine Res.keeps_ite ?_ ?_
  · refine Res.keeps_trans (execXtalFault_keeps _) ?_
    exact .refl _
  refine Res.keeps_next ?_
  refine .trans (State.enterFault_keeps _ _ _) ?_
  exact .refl _

theorem State.countCorrected_keeps (s : State) (key : ℕ) :
    Keeps true true true true (State.countCorrected s key) s := by
  unfold State.countCorrected
  split
  · refine .trans (State.count_keeps _ _ _) ?_
    exact .refl _
  · refine .trans (State.count_keeps _ _ _) ?_
    exact .refl _
  · exact .refl _

theorem execCellError_keeps (key : Fin 8192) (corrected : Bool) (s : State) :
    Res.keeps false true true false (execCellError key corrected s) s := by
  unfold execCellError
  extract_lets +onlyGivenNames v1
  clear_value v1
  refine Res.keeps_next ?_
  refine .ite ?_ ?_
  · exact .refl _
  refine .ite ?_ ?_
  · refine .trans (State.countCorrected_keeps _ _) ?_
    exact .refl _
  refine .trans (State.enterFault_keeps _ _ _) ?_
  refine .trans (State.setErr_keeps _ _ _) ?_
  exact .refl _

theorem State.cmpStart_keeps (s : State) (n : ℕ) (op : Op) (inflate : Bool) :
    Keeps true true true true (State.cmpStart s n op inflate) s := by
  unfold State.cmpStart
  extract_lets +onlyGivenNames v1
  clear_value v1
  extract_lets +onlyGivenNames v2
  clear_value v2
  extract_lets +onlyGivenNames v3
  clear_value v3
  extract_lets +onlyGivenNames v4
  clear_value v4
  extract_lets +onlyGivenNames v5
  clear_value v5
  refine .ite ?_ ?_
  · refine .trans (State.rejectOp_keeps _ _ _ _ _) ?_
    exact .refl _
  refine .ite ?_ ?_
  · refine .trans (State.rejectOp_keeps _ _ _ _ _) ?_
    exact .refl _
  refine .ite ?_ ?_
  · refine .trans (State.rejectOp_keeps _ _ _ _ _) ?_
    exact .refl _
  extract_lets +onlyGivenNames v6
  clear_value v6
  extract_lets +onlyGivenNames v7
  clear_value v7
  refine .trans (State.modCmp_keeps _ _ _) ?_
  refine .trans (State.accept_keeps _ _ _) ?_
  exact .refl _

theorem execDeflate_keeps (who : Issuer) (engine : Fin 8) (tag : ℕ) (s : State) :
    Res.keeps true true true true (execDeflate who engine tag s) s := by
  unfold execDeflate
  refine Res.keeps_next ?_
  refine .trans (State.command_keeps (m := true) (k := true) (r := true) (p := true) ?_) ?_
  · intro a1_0
    refine .trans (State.cmpStart_keeps _ _ _ _) ?_
    exact .refl _
  exact .refl _

theorem execInflate_keeps (who : Issuer) (engine : Fin 8) (tag : ℕ) (s : State) :
    Res.keeps true true true true (execInflate who engine tag s) s := by
  unfold execInflate
  refine Res.keeps_next ?_
  refine .trans (State.command_keeps (m := true) (k := true) (r := true) (p := true) ?_) ?_
  · intro a1_0
    refine .trans (State.cmpStart_keeps _ _ _ _) ?_
    exact .refl _
  exact .refl _

theorem State.progressTo_keeps (s : State) (key : ℕ) (n : ℕ) :
    Keeps true true true true (State.progressTo s key n) s := by
  unfold State.progressTo
  refine .trans (State.modPage_keeps _ _ _) ?_
  exact .refl _

theorem State.cmpDone_keeps (s : State) (n : ℕ) (j : CmpJob) (jobs : List (List Byte × ℕ)) (out : List Byte) (consumed : ℕ) (check : ℕ) (produced : ℕ) (ended : Bool) :
    Keeps false true true true (State.cmpDone s n j jobs out consumed check produced ended) s := by
  unfold State.cmpDone
  extract_lets +onlyGivenNames v1
  clear_value v1
  extract_lets +onlyGivenNames v2
  have h2 : Keeps false true true true v2 s := by
    unfold v2
    refine .ite ?_ ?_
    · refine .trans (State.storeMem_keeps _ _ _) ?_
      exact .refl _
    refine .ite ?_ ?_
    · refine .trans (State.emit_keeps _ _) ?_
      exact .refl _
    refine .trans (State.modCmp_keeps _ _ _) ?_
    exact .refl _
  clear_value v2
  extract_lets +onlyGivenNames v3
  have h3 : Keeps false true true true v3 s := by
    unfold v3
    refine .trans (State.modCmp_keeps _ _ _) ?_
    assumption
  clear_value v3
  refine .trans (State.doneWith_keeps _ _ _) ?_
  refine .trans (State.progressTo_keeps _ _ _) ?_
  refine .trans (State.count_keeps _ _ _) ?_
  refine .trans (State.refreshCmp_keeps _ _) ?_
  assumption

theorem execCmpJobDone_keeps (engine : Fin 8) (input : List Byte) (ok : Bool) (s : State) :
    Res.keeps false true true true (execCmpJobDone engine input ok s) s := by
  unfold execCmpJobDone
  extract_lets +onlyGivenNames v1
  clear_value v1
  extract_lets +onlyGivenNames v2
  clear_value v2
  extract_lets +onlyGivenNames v3
  clear_value v3
  split
  · refine Res.keeps_next ?_
    exact .refl _
  · extract_lets +onlyGivenNames v4
    clear_value v4
    refine Res.keeps_ite ?_ ?_
    · refine Res.keeps_next ?_
      exact .refl _
    refine Res.keeps_ite ?_ ?_
    · refine Res.keeps_next ?_
      refine .trans (State.failOp_keeps _ _ _ _) ?_
      refine .trans (State.cmpAbort_keeps _ _) ?_
      refine .trans (State.count_keeps _ _ _) ?_
      exact .refl _
    extract_lets +onlyGivenNames v5
    clear_value v5
    extract_lets +onlyGivenNames v6
    clear_value v6
    extract_lets +onlyGivenNames v7
    clear_value v7
    extract_lets +onlyGivenNames v8
    have h8 : Keeps false true true true v8 s := by
      unfold v8
      refine .trans (State.failOp_keeps _ _ _ _) ?_
      refine .trans (State.cmpAbort_keeps _ _) ?_
      refine .trans (State.setErr_keeps _ _ _) ?_
      refine .trans (State.count_keeps _ _ _) ?_
      exact .refl _
    clear_value v8
    refine Res.keeps_ite ?_ ?_
    · extract_lets +onlyGivenNames v9
      clear_value v9
      extract_lets +onlyGivenNames v10
      clear_value v10
      extract_lets +onlyGivenNames v11
      clear_value v11
      split
      · refine Res.keeps_ite ?_ ?_
        · refine Res.keeps_next ?_
          assumption
        extract_lets +onlyGivenNames v12
        have h12 : Keeps false true true true v12 s := by
          unfold v12
          refine .trans (State.cmpDrop_keeps _ _) ?_
          refine .trans (State.cmpAbort_keeps _ _) ?_
          refine .trans (State.setErr_keeps _ _ _) ?_
          refine .trans (State.count_keeps _ _ _) ?_
          exact .refl _
        clear_value v12
        refine Res.keeps_next ?_
        refine .trans (State.failOp_keeps _ _ _ _) ?_
        assumption
      · refine Res.keeps_ite ?_ ?_
        · refine Res.keeps_next ?_
          assumption
        extract_lets +onlyGivenNames v13
        clear_value v13
        refine Res.keeps_next ?_
        refine .trans (State.cmpDone_keeps _ _ _ _ _ _ _ _ _) ?_
        exact .refl _
    extract_lets +onlyGivenNames v14
    clear_value v14
    refine Res.keeps_ite ?_ ?_
    · refine Res.keeps_next ?_
      assumption
    refine Res.keeps_next ?_
    refine .trans (State.cmpDone_keeps _ _ _ _ _ _ _ _ _) ?_
    exact .refl _

theorem State.inflateOn_keeps (s : State) (n : ℕ) (payload : List Byte) :
    Keeps true true true true (State.inflateOn s n payload).1 s := by
  unfold State.inflateOn
  extract_lets +onlyGivenNames v1
  clear_value v1
  split
  · refine .ite_fst ?_ ?_
    · dsimp only
      refine .trans (State.setErr_keeps _ _ _) ?_
      refine .trans (State.count_keeps _ _ _) ?_
      exact .refl _
    dsimp only
    refine .trans (State.count_keeps _ _ _) ?_
    exact .refl _
  · dsimp only
    refine .trans (State.setErr_keeps _ _ _) ?_
    refine .trans (State.count_keeps _ _ _) ?_
    exact .refl _
  · dsimp only
    refine .trans (State.count_keeps _ _ _) ?_
    exact .refl _

theorem State.setPc_keeps (s : State) (n : ℕ) (pc : ℕ) :
    Keeps true true true true (State.setPc s n pc) s := by
  unfold State.setPc
  refine .trans (State.wf_keeps _ _ _ _) ?_
  exact .refl _

theorem State.zeroCore_keeps (s : State) (n : ℕ) :
    Keeps true true true true (State.zeroCore s n) s := by
  unfold State.zeroCore
  refine .congr (u := s) ?_
  exact .refl _

theorem State.modInput_keeps (s : State) (id : ℕ) (j : ℕ) (f : MeasIn → MeasIn) :
    Keeps true true true true (State.modInput s id j f) s := by
  unfold State.modInput
  split
  · split
    · refine .congr (u := s) ?_
      exact .refl _
    · exact .refl _
  · exact .refl _

theorem State.refreshBufs_keeps (s : State) (n : ℕ) :
    Keeps true true true true (State.refreshBufs s n) s := by
  unfold State.refreshBufs
  refine .trans (State.wf_keeps _ _ _ _) ?_
  exact .refl _

theorem State.releaseBuf_keeps (s : State) (n : ℕ) (addr : ℕ) :
    Keeps true true true true (State.releaseBuf s n addr) s := by
  unfold State.releaseBuf
  split
  · exact .refl _
  · extract_lets +onlyGivenNames v1
    have h1 : Keeps true true true true v1 s := by
      unfold v1
      refine .trans (State.refreshBufs_keeps _ _) ?_
      refine .trans (State.modCore_keeps _ _ _) ?_
      exact .refl _
    clear_value v1
    split
    · assumption
    · refine .trans (State.modInput_keeps _ _ _ _) ?_
      assumption

theorem State.publish_keeps (s : State) (n : ℕ) (j : ℕ) :
    Keeps true true true true (State.publish s n j) s := by
  unfold State.publish
  extract_lets +onlyGivenNames v1
  have h1 : Keeps true true true true v1 s := by
    unfold v1
    refine .trans (State.count_keeps _ _ _) ?_
    exact .refl _
  clear_value v1
  split
  · assumption
  · extract_lets +onlyGivenNames v2
    clear_value v2
    refine .trans (State.modInput_keeps _ _ _ _) ?_
    assumption

theorem State.ioRead_keeps (s : State) (n : ℕ) (a : ℕ) :
    Keeps true true true true (State.ioRead s n a).1 s := by
  unfold State.ioRead
  extract_lets +onlyGivenNames v1
  clear_value v1
  extract_lets +onlyGivenNames v2
  clear_value v2
  refine .ite_fst ?_ ?_
  · dsimp only
    exact .refl _
  refine .ite_fst ?_ ?_
  · dsimp only
    refine .trans (State.modCore_keeps _ _ _) ?_
    exact .refl _
  refine .ite_fst ?_ ?_
  · dsimp only
    exact .refl _
  refine .ite_fst ?_ ?_
  · extract_lets +onlyGivenNames v3
    clear_value v3
    dsimp only
    refine .ite ?_ ?_
    · refine .trans (State.modCore_keeps _ _ _) ?_
      exact .refl _
    exact .refl _
  refine .ite_fst ?_ ?_
  · dsimp only
    exact .refl _
  refine .ite_fst ?_ ?_
  · dsimp only
    exact .refl _
  refine .ite_fst ?_ ?_
  · dsimp only
    exact .refl _
  refine .ite_fst ?_ ?_
  · dsimp only
    exact .refl _
  refine .ite_fst ?_ ?_
  · dsimp only
    exact .refl _
  dsimp only
  exact .refl _

theorem State.crcIo_keeps (s : State) (n : ℕ) (a : ℕ) (v : Word) :
    Keeps true true true true (State.crcIo s n a v) s := by
  unfold State.crcIo
  extract_lets +onlyGivenNames v1
  clear_value v1
  extract_lets +onlyGivenNames v2
  clear_value v2
  extract_lets +onlyGivenNames v3
  refine .ite ?_ ?_
  · extract_lets +onlyGivenNames v4
    have h4 : Keeps true true true true v4 s := by
      unfold v4
      refine .ite ?_ ?_
      · refine .trans (State.setErr_keeps _ _ _) ?_
        exact .refl _
      refine .trans (State.wf_keeps _ _ _ _) ?_
      exact .refl _
    clear_value v4
    refine .trans (State.wf_keeps _ _ _ _) ?_
    refine .trans (State.wf_keeps _ _ _ _) ?_
    assumption
  refine .ite ?_ ?_
  · refine .trans (State.setReg_keeps _ _ _ _) ?_
    exact .refl _
  refine .ite ?_ ?_
  · unfold v3
    refine .ite ?_ ?_
    · refine .trans (State.setErr_keeps _ _ _) ?_
      exact .refl _
    refine .ite ?_ ?_
    · refine .trans (State.setErr_keeps _ _ _) ?_
      exact .refl _
    refine .trans (State.crcFeed_keeps _ _ _) ?_
    refine .trans (State.loseHalf_keeps _ _) ?_
    exact .refl _
  refine .ite ?_ ?_
  · unfold v3
    refine .ite ?_ ?_
    · refine .trans (State.setErr_keeps _ _ _) ?_
      exact .refl _
    refine .ite ?_ ?_
    · refine .trans (State.setErr_keeps _ _ _) ?_
      exact .refl _
    refine .trans (State.crcFeed_keeps _ _ _) ?_
    refine .trans (State.loseHalf_keeps _ _) ?_
    exact .refl _
  refine .ite ?_ ?_
  · unfold v3
    refine .ite ?_ ?_
    · refine .trans (State.setErr_keeps _ _ _) ?_
      exact .refl _
    refine .ite ?_ ?_
    · refine .trans (State.setErr_keeps _ _ _) ?_
      exact .refl _
    refine .trans (State.crcFeed_keeps _ _ _) ?_
    refine .trans (State.loseHalf_keeps _ _) ?_
    exact .refl _
  refine .ite ?_ ?_
  · refine .ite ?_ ?_
    · refine .trans (State.setErr_keeps _ _ _) ?_
      exact .refl _
    refine .ite ?_ ?_
    · refine .trans (State.setErr_keeps _ _ _) ?_
      exact .refl _
    refine .trans (State.refreshCrc_keeps _ _) ?_
    refine .trans (State.modCrc_keeps _ _ _) ?_
    refine .trans (State.loseHalf_keeps _ _) ?_
    exact .refl _
  refine .ite ?_ ?_
  · split
    · refine .trans (State.crcFeed_keeps _ _ _) ?_
      refine .trans (State.modCrc_keeps _ _ _) ?_
      exact .refl _
    · refine .ite ?_ ?_
      · exact .refl _
      refine .trans (State.setErr_keeps _ _ _) ?_
      exact .refl _
  refine .ite ?_ ?_
  · refine .ite ?_ ?_
    · refine .ite ?_ ?_
      · refine .trans (State.crcLoad_keeps _ _) ?_
        refine .trans (State.enter_keeps _ _ _) ?_
        exact .refl _
      exact .refl _
    refine .ite ?_ ?_
    · refine .ite ?_ ?_
      · refine .trans (State.enter_keeps _ _ _) ?_
        exact .refl _
      exact .refl _
    refine .ite ?_ ?_
    · extract_lets +onlyGivenNames v5
      have h5 : Keeps true true true true v5 s := by
        unfold v5
        refine .trans (State.loseHalf_keeps _ _) ?_
        exact .refl _
      clear_value v5
      refine .trans (State.crcLoad_keeps _ _) ?_
      refine .trans (State.modPage_keeps _ _ _) ?_
      assumption
    refine .ite ?_ ?_
    · refine .trans (State.crcLoad_keeps _ _) ?_
      refine .trans (State.loseHalf_keeps _ _) ?_
      exact .refl _
    exact .refl _
  exact .refl _

theorem State.ioWrite_keeps (s : State) (n : ℕ) (a : ℕ) (v : Word) :
    Keeps true true true true (State.ioWrite s n a v) s := by
  unfold State.ioWrite
  extract_lets +onlyGivenNames v1
  clear_value v1
  refine .ite ?_ ?_
  · refine .trans (State.releaseBuf_keeps _ _ _) ?_
    exact .refl _
  refine .ite ?_ ?_
  · refine .trans (State.publish_keeps _ _ _) ?_
    exact .refl _
  refine .ite ?_ ?_
  · refine .trans (State.modCore_keeps _ _ _) ?_
    exact .refl _
  refine .ite ?_ ?_
  · refine .trans (State.modCore_keeps _ _ _) ?_
    exact .refl _
  refine .ite ?_ ?_
  · refine .ite ?_ ?_
    · refine .trans (State.crcIo_keeps _ _ _ _) ?_
      exact .refl _
    exact .refl _
  refine .ite ?_ ?_
  · refine .trans (State.modCore_keeps _ _ _) ?_
    exact .refl _
  refine .ite ?_ ?_
  · refine .trans (State.modCore_keeps _ _ _) ?_
    exact .refl _
  exact .refl _

theorem State.coreFault_keeps (s : State) (n : ℕ) (sub : ℕ) :
    Keeps false true true false (State.coreFault s n sub) s := by
  unfold State.coreFault
  extract_lets +onlyGivenNames v1
  clear_value v1
  extract_lets +onlyGivenNames v2
  have h2 : Keeps false true true false v2 s := by
    unfold v2
    refine .trans (State.wf_keeps _ _ _ _) ?_
    refine .trans (State.wf_keeps _ _ _ _) ?_
    refine .trans (State.mcEnter_keeps _ _ _) ?_
    exact .refl _
  clear_value v2
  extract_lets +onlyGivenNames v3
  have h3 : Keeps false true true false v3 s := by
    unfold v3
    refine .trans (State.irqBit_keeps _ _ _) ?_
    refine .trans (State.setErr_keeps _ _ _) ?_
    assumption
  clear_value v3
  extract_lets +onlyGivenNames v4
  have h4 : Keeps false true true false v4 s := by
    unfold v4
    split
    · refine .ite ?_ ?_
      · refine .trans (State.failOp_keeps _ _ _ _) ?_
        assumption
      assumption
    · assumption
  clear_value v4
  split
  · assumption
  · refine .trans (State.failTask_keeps _ _ _ _) ?_
    assumption

theorem State.coreRead_keeps (s : State) (n : ℕ) (y : Bool) (a : ℕ) :
    Keeps true true true true (State.coreRead s n y a).1 s := by
  unfold State.coreRead
  refine .ite_fst ?_ ?_
  · dsimp only
    exact .refl _
  refine .ite_fst ?_ ?_
  · dsimp only
    exact .refl _
  refine .trans (State.ioRead_keeps _ _ _) ?_
  exact .refl _

theorem State.coreWrite_keeps (s : State) (n : ℕ) (y : Bool) (a : ℕ) (v : Word) :
    Keeps true true true true (State.coreWrite s n y a v) s := by
  unfold State.coreWrite
  refine .ite ?_ ?_
  · refine .trans (State.setWin_keeps _ _ _) ?_
    exact .refl _
  refine .ite ?_ ?_
  · refine .trans (State.setWin_keeps _ _ _) ?_
    exact .refl _
  refine .trans (State.ioWrite_keeps _ _ _ _) ?_
  exact .refl _

theorem State.move_keeps (s : State) (n : ℕ) (y : Bool) (m : ℕ) :
    Keeps true true true true (State.move s n y m).1 s := by
  unfold State.move
  extract_lets +onlyGivenNames v1
  clear_value v1
  extract_lets +onlyGivenNames v2
  clear_value v2
  extract_lets +onlyGivenNames v3
  clear_value v3
  extract_lets +onlyGivenNames v4
  clear_value v4
  extract_lets +onlyGivenNames v5
  clear_value v5
  refine .ite_fst ?_ ?_
  · extract_lets +onlyGivenNames v6
    have h6 : Keeps true true true true v6.1 s := by
      unfold v6
      refine .trans (State.coreRead_keeps _ _ _ _) ?_
      exact .refl _
    clear_value v6
    dsimp only
    assumption
  refine .ite_fst ?_ ?_
  · extract_lets +onlyGivenNames v7
    clear_value v7
    extract_lets +onlyGivenNames v8
    clear_value v8
    extract_lets +onlyGivenNames v9
    clear_value v9
    extract_lets +onlyGivenNames v10
    clear_value v10
    dsimp only
    exact .refl _
  refine .ite_fst ?_ ?_
  · extract_lets +onlyGivenNames v11
    clear_value v11
    extract_lets +onlyGivenNames v12
    clear_value v12
    extract_lets +onlyGivenNames v13
    clear_value v13
    extract_lets +onlyGivenNames v14
    clear_value v14
    extract_lets +onlyGivenNames v15
    clear_value v15
    dsimp only
    exact .refl _
  refine .ite_fst ?_ ?_
  · extract_lets +onlyGivenNames v16
    clear_value v16
    extract_lets +onlyGivenNames v17
    clear_value v17
    extract_lets +onlyGivenNames v18
    clear_value v18
    dsimp only
    exact .refl _
  dsimp only
  exact .refl _

theorem State.execBundle_keeps (s : State) (n : ℕ) (w : ℕ) :
    Keeps true true true true (State.execBundle s n w) s := by
  unfold State.execBundle
  extract_lets +onlyGivenNames v1
  clear_value v1
  extract_lets +onlyGivenNames v2
  clear_value v2
  extract_lets +onlyGivenNames v3
  clear_value v3
  extract_lets +onlyGivenNames v4
  clear_value v4
  extract_lets +onlyGivenNames v5
  clear_value v5
  extract_lets +onlyGivenNames v6
  clear_value v6
  extract_lets +onlyGivenNames v7
  extract_lets +onlyGivenNames v8
  clear_value v8
  extract_lets +onlyGivenNames v9
  clear_value v9
  extract_lets +onlyGivenNames v10
  clear_value v10
  extract_lets +onlyGivenNames v11
  clear_value v11
  extract_lets +onlyGivenNames v12
  have h12 : Keeps true true true true v12.1 s := by
    unfold v12
    refine .ite_fst ?_ ?_
    · refine .trans (State.move_keeps _ _ _ _) ?_
      exact .refl _
    dsimp only
    exact .refl _
  clear_value v12
  extract_lets +onlyGivenNames v13
  have h13 : Keeps true true true true v13.1 s := by
    unfold v13
    refine .ite_fst ?_ ?_
    · refine .trans (State.move_keeps _ _ _ _) ?_
      assumption
    dsimp only
    assumption
  clear_value v13
  extract_lets +onlyGivenNames v14
  have h14 : Keeps true true true true v14 s := by
    unfold v14
    assumption
  clear_value v14
  extract_lets +onlyGivenNames v15
  clear_value v15
  extract_lets +onlyGivenNames v16
  clear_value v16
  extract_lets +onlyGivenNames v17
  clear_value v17
  extract_lets +onlyGivenNames v18
  clear_value v18
  extract_lets +onlyGivenNames v19
  clear_value v19
  extract_lets +onlyGivenNames v20
  clear_value v20
  extract_lets +onlyGivenNames v21
  clear_value v21
  extract_lets +onlyGivenNames v22
  have h22 : Keeps true true true true v22 s := by
    unfold v22
    refine .trans (State.modCore_keeps _ _ _) ?_
    assumption
  clear_value v22
  extract_lets +onlyGivenNames v23
  have h23 : Keeps true true true true v23 s := by
    unfold v23
    refine .trans (State.setPair_keeps _ _ _ _) ?_
    refine .trans (State.setPc_keeps _ _ _) ?_
    assumption
  clear_value v23
  extract_lets +onlyGivenNames v24
  have h24 : Keeps true true true true v24 s := by
    unfold v24
    split
    · refine .trans (State.coreWrite_keeps _ _ _ _ _) ?_
      assumption
    · assumption
  clear_value v24
  extract_lets +onlyGivenNames v25
  have h25 : Keeps true true true true v25 s := by
    unfold v25
    split
    · refine .trans (State.coreWrite_keeps _ _ _ _ _) ?_
      assumption
    · assumption
  clear_value v25
  refine .ite ?_ ?_
  · refine .trans (State.mcEnter_keeps _ _ _) ?_
    refine .trans (State.modCore_keeps _ _ _) ?_
    assumption
  refine .ite ?_ ?_
  · refine .trans (State.irqBit_keeps _ _ _) ?_
    refine .trans (State.mcEnter_keeps _ _ _) ?_
    refine .trans (State.modCore_keeps _ _ _) ?_
    assumption
  assumption

theorem State.issue_keeps (s : State) (n : ℕ) :
    Keeps false true true false (State.issue s n) s := by
  unfold State.issue
  extract_lets +onlyGivenNames v1
  clear_value v1
  extract_lets +onlyGivenNames v2
  clear_value v2
  extract_lets +onlyGivenNames v3
  clear_value v3
  refine .ite ?_ ?_
  · refine .trans (State.coreFault_keeps _ _ _) ?_
    exact .refl _
  extract_lets +onlyGivenNames v4
  clear_value v4
  extract_lets +onlyGivenNames v5
  refine .ite ?_ ?_
  · refine .trans (State.coreFault_keeps _ _ _) ?_
    exact .refl _
  refine .ite ?_ ?_
  · refine .ite ?_ ?_
    · refine .trans (State.modCore_keeps _ _ _) ?_
      exact .refl _
    refine .trans (State.coreFault_keeps _ _ _) ?_
    exact .refl _
  refine .trans (State.execBundle_keeps _ _ _) ?_
  exact .refl _

theorem execRun_keeps (who : Issuer) (core : Fin 64) (tag : ℕ) (s : State) :
    Res.keeps true true true true (execRun who core tag s) s := by
  unfold execRun
  extract_lets +onlyGivenNames v1
  clear_value v1
  extract_lets +onlyGivenNames v2
  clear_value v2
  refine Res.keeps_next ?_
  refine .trans (State.command_keeps (m := true) (k := true) (r := true) (p := true) ?_) ?_
  · intro a3_0
    extract_lets +onlyGivenNames v4
    clear_value v4
    refine .ite ?_ ?_
    · refine .trans (State.rejectOp_keeps _ _ _ _ _) ?_
      exact .refl _
    refine .ite ?_ ?_
    · refine .trans (State.doneOp_keeps _ _) ?_
      refine .trans (State.mcEnter_keeps _ _ _) ?_
      refine .trans (State.accept_keeps _ _ _) ?_
      exact .refl _
    refine .ite ?_ ?_
    · refine .trans (State.rejectOp_keeps _ _ _ _ _) ?_
      exact .refl _
    extract_lets +onlyGivenNames v5
    have h5 : Keeps true true true true v5 s := by
      unfold v5
      refine .trans (State.modCore_keeps _ _ _) ?_
      refine .trans (State.accept_keeps _ _ _) ?_
      exact .refl _
    clear_value v5
    refine .trans (State.doneOp_keeps _ _) ?_
    refine .trans (State.mcEnter_keeps _ _ _) ?_
    refine .trans (State.setPc_keeps _ _ _) ?_
    assumption
  exact .refl _

theorem execHalt_keeps (who : Issuer) (core : Fin 64) (tag : ℕ) (s : State) :
    Res.keeps true true true true (execHalt who core tag s) s := by
  unfold execHalt
  extract_lets +onlyGivenNames v1
  clear_value v1
  extract_lets +onlyGivenNames v2
  clear_value v2
  refine Res.keeps_next ?_
  refine .trans (State.command_keeps (m := true) (k := true) (r := true) (p := true) ?_) ?_
  · intro a3_0
    refine .ite ?_ ?_
    · refine .trans (State.rejectOp_keeps _ _ _ _ _) ?_
      exact .refl _
    refine .trans (State.coreStop_keeps _ _) ?_
    refine .trans (State.modCore_keeps _ _ _) ?_
    refine .trans (State.accept_keeps _ _ _) ?_
    exact .refl _
  exact .refl _

theorem execStep_keeps (who : Issuer) (core : Fin 64) (tag : ℕ) (s : State) :
    Res.keeps true true true true (execStep who core tag s) s := by
  unfold execStep
  extract_lets +onlyGivenNames v1
  clear_value v1
  extract_lets +onlyGivenNames v2
  clear_value v2
  refine Res.keeps_next ?_
  refine .trans (State.command_keeps (m := true) (k := true) (r := true) (p := true) ?_) ?_
  · intro a3_0
    refine .ite ?_ ?_
    · refine .trans (State.rejectOp_keeps _ _ _ _ _) ?_
      exact .refl _
    refine .ite ?_ ?_
    · refine .trans (State.rejectOp_keeps _ _ _ _ _) ?_
      exact .refl _
    refine .trans (State.mcEnter_keeps _ _ _) ?_
    refine .trans (State.modCore_keeps _ _ _) ?_
    refine .trans (State.accept_keeps _ _ _) ?_
    exact .refl _
  exact .refl _

theorem execSwint_keeps (who : Issuer) (core : Fin 64) (tag : ℕ) (s : State) :
    Res.keeps true true true true (execSwint who core tag s) s := by
  unfold execSwint
  extract_lets +onlyGivenNames v1
  clear_value v1
  extract_lets +onlyGivenNames v2
  clear_value v2
  refine Res.keeps_next ?_
  refine .trans (State.command_keeps (m := true) (k := true) (r := true) (p := true) ?_) ?_
  · intro a3_0
    refine .trans (State.doneOp_keeps _ _) ?_
    refine .trans (State.modCore_keeps _ _ _) ?_
    refine .trans (State.accept_keeps _ _ _) ?_
    exact .refl _
  exact .refl _

theorem State.afterBundle_keeps (s : State) (n : ℕ) :
    Keeps true true true true (State.afterBundle s n) s := by
  unfold State.afterBundle
  split
  · extract_lets +onlyGivenNames v1
    have h1 : Keeps true true true true v1 s := by
      unfold v1
      refine .trans (State.modCore_keeps _ _ _) ?_
      exact .refl _
    clear_value v1
    extract_lets +onlyGivenNames v2
    have h2 : Keeps true true true true v2 s := by
      unfold v2
      refine .ite ?_ ?_
      · refine .trans (State.irqBit_keeps _ _ _) ?_
        refine .trans (State.mcEnter_keeps _ _ _) ?_
        assumption
      assumption
    clear_value v2
    refine .trans (State.doneOp_keeps _ _) ?_
    assumption
  · refine .ite ?_ ?_
    · refine .trans (State.doneOp_keeps _ _) ?_
      refine .trans (State.modCore_keeps _ _ _) ?_
      exact .refl _
    refine .trans (State.coreStop_keeps _ _) ?_
    refine .trans (State.modCore_keeps _ _ _) ?_
    exact .refl _
  · split
    · refine .ite ?_ ?_
      · refine .trans (State.doneOp_keeps _ _) ?_
        exact .refl _
      refine .trans (State.coreStop_keeps _ _) ?_
      exact .refl _
    · refine .trans (State.coreStop_keeps _ _) ?_
      exact .refl _

theorem execBundleIssue_keeps (core : Fin 64) (s : State) :
    Res.keeps false true true false (execBundleIssue core s) s := by
  unfold execBundleIssue
  extract_lets +onlyGivenNames v1
  clear_value v1
  refine Res.keeps_ite ?_ ?_
  · refine Res.keeps_next ?_
    exact .refl _
  extract_lets +onlyGivenNames v2
  have h2 : Keeps false true true false v2 s := by
    unfold v2
    refine .trans (State.issue_keeps _ _) ?_
    exact .refl _
  clear_value v2
  refine Res.keeps_ite ?_ ?_
  · refine Res.keeps_next ?_
    assumption
  refine Res.keeps_next ?_
  refine .trans (State.afterBundle_keeps _ _) ?_
  assumption

theorem execInterruptEntry_keeps (core : Fin 64) (s : State) :
    Res.keeps true true true true (execInterruptEntry core s) s := by
  unfold execInterruptEntry
  extract_lets +onlyGivenNames v1
  clear_value v1
  extract_lets +onlyGivenNames v2
  clear_value v2
  extract_lets +onlyGivenNames v3
  clear_value v3
  refine Res.keeps_ite ?_ ?_
  · refine Res.keeps_next ?_
    exact .refl _
  split
  · refine Res.keeps_next ?_
    exact .refl _
  · extract_lets +onlyGivenNames v4
    clear_value v4
    extract_lets +onlyGivenNames v5
    have h5 : Keeps true true true true v5 s := by
      unfold v5
      refine .trans (State.modCore_keeps _ _ _) ?_
      exact .refl _
    clear_value v5
    refine Res.keeps_next ?_
    refine .trans (State.mcEnter_keeps _ _ _) ?_
    refine .trans (State.setPc_keeps _ _ _) ?_
    assumption

theorem execFabReadComplete_keeps (core : Fin 64) (ok : Bool) (cycles : ℕ) (s : State) :
    Res.keeps false true true false (execFabReadComplete core ok cycles s) s := by
  unfold execFabReadComplete
  extract_lets +onlyGivenNames v1
  clear_value v1
  extract_lets +onlyGivenNames v2
  clear_value v2
  extract_lets +onlyGivenNames v3
  clear_value v3
  refine Res.keeps_ite ?_ ?_
  · refine Res.keeps_next ?_
    exact .refl _
  extract_lets +onlyGivenNames v4
  have h4 : Keeps false true true false v4 s := by
    unfold v4
    refine .trans (State.countBy_keeps _ _ _ _) ?_
    refine .trans (State.modCore_keeps _ _ _) ?_
    exact .refl _
  clear_value v4
  refine Res.keeps_ite ?_ ?_
  · refine Res.keeps_next ?_
    refine .trans (State.coreFault_keeps _ _ _) ?_
    assumption
  extract_lets +onlyGivenNames v5
  clear_value v5
  extract_lets +onlyGivenNames v6
  clear_value v6
  extract_lets +onlyGivenNames v7
  have h7 : Keeps false true true false v7 s := by
    unfold v7
    refine .trans (State.modCore_keeps _ _ _) ?_
    assumption
  clear_value v7
  refine Res.keeps_next ?_
  refine .ite ?_ ?_
  · split
    · refine .trans (State.each_keeps (m := false) (k := true) (r := true) (p := false) ?_) ?_
      · intro a8_0 a8_1
        refine .trans (State.modInput_keeps _ _ _ _) ?_
        exact .refl _
      assumption
    · assumption
  assumption

theorem State.dropBlock_keeps (s : State) (n : ℕ) (id : ℕ) (j : ℕ) (next : ℕ) :
    Keeps true true true true (State.dropBlock s n id j next) s := by
  unfold State.dropBlock
  extract_lets +onlyGivenNames v1
  have h1 : Keeps true true true true v1 s := by
    unfold v1
    refine .trans (State.setErr_keeps _ _ _) ?_
    refine .trans (State.count_keeps _ _ _) ?_
    exact .refl _
  clear_value v1
  refine .trans (State.modInput_keeps _ _ _ _) ?_
  assumption

theorem State.deliver_keeps (s : State) (n : ℕ) (id : ℕ) (j : ℕ) (next : ℕ) (label : ℕ) (period : ℕ) (words : List Word) (marks : ℕ) (gap : Bool) (block : ℕ) :
    Keeps true true true true (State.deliver s n id j next label period words marks gap block) s := by
  unfold State.deliver
  extract_lets +onlyGivenNames v1
  clear_value v1
  extract_lets +onlyGivenNames v2
  clear_value v2
  refine .ite ?_ ?_
  · refine .trans (State.modInput_keeps _ _ _ _) ?_
    refine .trans (State.count_keeps _ _ _) ?_
    exact .refl _
  split
  · refine .trans (State.dropBlock_keeps _ _ _ _ _) ?_
    exact .refl _
  · refine .ite ?_ ?_
    · refine .trans (State.dropBlock_keeps _ _ _ _ _) ?_
      exact .refl _
    extract_lets +onlyGivenNames v3
    clear_value v3
    extract_lets +onlyGivenNames v4
    clear_value v4
    extract_lets +onlyGivenNames v5
    clear_value v5
    extract_lets +onlyGivenNames v6
    have h6 : Keeps true true true true v6 s := by
      unfold v6
      refine .trans (State.each_keeps (m := true) (k := true) (r := true) (p := true) ?_) ?_
      · intro a7_0 a7_1
        refine .trans (State.setWin_keeps _ _ _) ?_
        exact .refl _
      exact .refl _
    clear_value v6
    extract_lets +onlyGivenNames v8
    have h8 : Keeps true true true true v8 s := by
      unfold v8
      refine .trans (State.refreshBufs_keeps _ _) ?_
      refine .trans (State.modCore_keeps _ _ _) ?_
      assumption
    clear_value v8
    refine .trans (State.modInput_keeps _ _ _ _) ?_
    assumption

theorem execInputBlock_keeps (task : BitVec 32) (input : Fin 64) (_samples : Unit) (_marks : Unit) (s : State) :
    Res.keeps true true true true (execInputBlock task input _samples _marks s) s := by
  unfold execInputBlock
  extract_lets +onlyGivenNames v1
  clear_value v1
  split
  · split
    · refine Res.keeps_next ?_
      exact .refl _
    · refine Res.keeps_ite ?_ ?_
      · refine Res.keeps_next ?_
        exact .refl _
      extract_lets +onlyGivenNames v2
      clear_value v2
      extract_lets +onlyGivenNames v3
      clear_value v3
      extract_lets +onlyGivenNames v4
      clear_value v4
      split
      · refine Res.keeps_next ?_
        exact .refl _
      · refine Res.keeps_next ?_
        refine .trans (State.dropBlock_keeps _ _ _ _ _) ?_
        exact .refl _
      · refine Res.keeps_next ?_
        refine .trans (State.deliver_keeps _ _ _ _ _ _ _ _ _ _ _) ?_
        exact .refl _
  · refine Res.keeps_next ?_
    exact .refl _

theorem State.loadSection_keeps (s : State) (n : ℕ) (y2 : ℕ × ℕ × List Byte) :
    Keeps true true true true (State.loadSection s n y2) s := by
  unfold State.loadSection
  extract_lets +onlyGivenNames v1
  clear_value v1
  refine .trans (State.each_keeps (m := true) (k := true) (r := true) (p := true) ?_) ?_
  · intro a2_0 a2_1
    refine .trans (State.setWin_keeps _ _ _) ?_
    exact .refl _
  exact .refl _

theorem State.startCore_keeps (s : State) (t : Task) (n : ℕ) :
    Keeps true true true true (State.startCore s t n) s := by
  unfold State.startCore
  extract_lets +onlyGivenNames v1
  clear_value v1
  extract_lets +onlyGivenNames v2
  clear_value v2
  extract_lets +onlyGivenNames v3
  have h3 : Keeps true true true true v3 s := by
    unfold v3
    beta_reduce
    refine .trans (State.each_keeps (m := true) (k := true) (r := true) (p := true) ?_) ?_
    · intro a4_0 a4_1
      refine .trans (State.loadSection_keeps _ _ _) ?_
      exact .refl _
    exact .refl _
  clear_value v3
  extract_lets +onlyGivenNames v5
  have h5 : Keeps true true true true v5 s := by
    unfold v5
    refine .trans (State.each_keeps (m := true) (k := true) (r := true) (p := true) ?_) ?_
    · intro a6_0 a6_1
      refine .trans (State.setWin_keeps _ _ _) ?_
      exact .refl _
    assumption
  clear_value v5
  extract_lets +onlyGivenNames v7
  have h7 : Keeps true true true true v7 s := by
    unfold v7
    refine .congr (u := v5) ?_
    assumption
  clear_value v7
  extract_lets +onlyGivenNames v8
  have h8 : Keeps true true true true v8 s := by
    unfold v8
    refine .trans (State.setReg_keeps _ _ _ _) ?_
    refine .trans (State.setReg_keeps _ _ _ _) ?_
    assumption
  clear_value v8
  extract_lets +onlyGivenNames v9
  have h9 : Keeps true true true true v9 s := by
    unfold v9
    refine .trans (State.setPair_keeps _ _ _ _) ?_
    refine .trans (State.setReg_keeps _ _ _ _) ?_
    assumption
  clear_value v9
  extract_lets +onlyGivenNames v10
  have h10 : Keeps true true true true v10 s := by
    unfold v10
    refine .trans (foldl_keeps (m := true) (k := true) (r := true) (p := true) ?_) ?_
    · intro a11_0 a11_1
      refine .trans (State.setReg_keeps _ _ _ _) ?_
      exact .refl _
    assumption
  clear_value v10
  refine .trans (State.enter_keeps _ _ _) ?_
  refine .trans (State.refreshBufs_keeps _ _) ?_
  refine .trans (State.mcEnter_keeps _ _ _) ?_
  refine .trans (State.setPc_keeps _ _ _) ?_
  assumption

theorem State.coresStart_keeps (s : State) (t : Task) :
    Keeps true true true true (State.coresStart s t) s := by
  unfold State.coresStart
  extract_lets +onlyGivenNames v1
  clear_value v1
  extract_lets +onlyGivenNames v2
  have h2 : Keeps true true true true v2 s := by
    unfold v2
    refine .trans (State.each_keeps (m := true) (k := true) (r := true) (p := true) ?_) ?_
    · intro a3_0 a3_1
      refine .trans (State.startCore_keeps _ _ _) ?_
      refine .trans (State.zeroCore_keeps _ _) ?_
      exact .refl _
    exact .refl _
  clear_value v2
  extract_lets +onlyGivenNames v4
  clear_value v4
  extract_lets +onlyGivenNames v5
  clear_value v5
  extract_lets +onlyGivenNames v6
  clear_value v6
  extract_lets +onlyGivenNames v7
  clear_value v7
  extract_lets +onlyGivenNames v8
  clear_value v8
  refine .congr (u := v2) ?_
  assumption

theorem execMeasureRecord_keeps (task : BitVec 32) (s : State) :
    Res.keeps true true true true (execMeasureRecord task s) s := by
  unfold execMeasureRecord
  extract_lets +onlyGivenNames v1
  clear_value v1
  split
  · refine Res.keeps_ite ?_ ?_
    · refine Res.keeps_next ?_
      exact .refl _
    extract_lets +onlyGivenNames v2
    have h2 : Keeps true true true true v2 s := by
      unfold v2
      refine .trans (State.advanceTo_keeps _ _) ?_
      exact .refl _
    clear_value v2
    extract_lets +onlyGivenNames v3
    clear_value v3
    extract_lets +onlyGivenNames v4
    clear_value v4
    extract_lets +onlyGivenNames v5
    clear_value v5
    extract_lets +onlyGivenNames v6
    clear_value v6
    extract_lets +onlyGivenNames v7
    have h7 : Keeps true true true true v7 s := by
      unfold v7
      refine .congr (u := v2) ?_
      assumption
    clear_value v7
    refine Res.keeps_next ?_
    refine .trans (State.addReady_keeps _ _ _) ?_
    assumption
  · refine Res.keeps_next ?_
    exact .refl _

theorem State.setUpdate_keeps (s : State) (n : ℕ) :
    Keeps true true true true (State.setUpdate s n) s := by
  unfold State.setUpdate
  refine .trans (State.wf_keeps _ _ _ _) ?_
  exact .refl _

theorem State.activateEnd_keeps {m k r : Bool} {s : State} {update : Nat} {f : State → State} (h : ∀ s, Keeps m k r false (f s) s)
    (hm : m = false := by rfl) : Keeps m k r false (s.activateEnd update f) s := by
  subst hm
  unfold State.activateEnd
  have h1 : Keeps true true true false (s.activateRelease.setUpdate update) s := .trans (State.setUpdate_keeps _ _) (.to (State.activateRelease_keeps _))
  have h2 : Keeps false k r false (f (s.activateRelease.setUpdate update)) s := .trans (h _) (h1.to (by cases k <;> cases r <;> rfl)) (by cases k <;> cases r <;> rfl)
  exact .trans (State.beginNext_keeps _) h2 (by cases k <;> cases r <;> rfl)

theorem execActivateTimeout_keeps (s : State) :
    Res.keeps false true true false (execActivateTimeout s) s := by
  unfold execActivateTimeout
  split
  · refine Res.keeps_next ?_
    exact .refl _
  · refine Res.keeps_ite ?_ ?_
    · refine Res.keeps_next ?_
      exact .refl _
    refine Res.keeps_next ?_
    refine .trans (State.activateEnd_keeps (m := false) (k := true) (r := true)  ?_) ?_
    · intro a1_0
      refine .trans (State.failOp_keeps _ _ _ _) ?_
      exact .refl _
    refine .trans (State.advanceTo_keeps _ _) ?_
    exact .refl _

theorem execAdcTempUpdate_keeps (conv : Fin 5) (temp : BitVec 16) (s : State) :
    Res.keeps true true true true (execAdcTempUpdate conv temp s) s := by
  unfold execAdcTempUpdate
  extract_lets +onlyGivenNames v1
  clear_value v1
  refine Res.keeps_ite ?_ ?_
  · refine Res.keeps_next ?_
    exact .refl _
  extract_lets +onlyGivenNames v2
  have h2 : Keeps true true true true v2 s := by
    unfold v2
    refine .trans (State.wf_keeps _ _ _ _) ?_
    exact .refl _
  clear_value v2
  extract_lets +onlyGivenNames v3
  have h3 : Keeps true true true true v3 s := by
    unfold v3
    refine .ite ?_ ?_
    · refine .trans (State.setErr_keeps _ _ _) ?_
      assumption
    assumption
  clear_value v3
  extract_lets +onlyGivenNames v4
  clear_value v4
  extract_lets +onlyGivenNames v5
  clear_value v5
  refine Res.keeps_ite ?_ ?_
  · extract_lets +onlyGivenNames v6
    clear_value v6
    refine Res.keeps_next ?_
    refine .trans (State.irqBit_keeps _ _ _) ?_
    refine .trans (State.wf_keeps _ _ _ _) ?_
    assumption
  refine Res.keeps_next ?_
  assumption

theorem State.reissueHeld_keeps (s : State) (d : ℕ) :
    Keeps true true true true (State.reissueHeld s d) s := by
  unfold State.reissueHeld
  refine .trans (State.each_keeps (m := true) (k := true) (r := true) (p := true) ?_) ?_
  · intro a1_0 a1_1
    split
    · rename_i b2_0 b2_1 b2_2 b2_3
      have kb2_3 := State.nvmeIssue_keeps a1_0 d (1) (a1_1.2.block) (a1_1.2.bytes.length / 4096) (a1_1.1) _ b2_3
      replace kb2_3 := Keeps.trans (m := true) (k := true) (r := true) (p := true) kb2_3 (s := a1_0) (by first | exact .refl _ | assumption)
      refine .congr (u := b2_2) ?_
      assumption
    · exact .refl _
  exact .refl _

theorem execAddQueue_keeps (who : Issuer) (tag : ℕ) (record : Option (List Byte)) (s : State) :
    Res.keeps true true true true (execAddQueue who tag record s) s := by
  unfold execAddQueue
  refine Res.keeps_next ?_
  refine .trans (State.command_keeps (m := true) (k := true) (r := true) (p := true) ?_) ?_
  · intro a1_0
    split
    · refine .trans (State.rejectOp_keeps _ _ _ _ _) ?_
      exact .refl _
    · extract_lets +onlyGivenNames v2
      clear_value v2
      extract_lets +onlyGivenNames v3
      clear_value v3
      extract_lets +onlyGivenNames v4
      clear_value v4
      extract_lets +onlyGivenNames v5
      clear_value v5
      extract_lets +onlyGivenNames v6
      clear_value v6
      refine .ite ?_ ?_
      · refine .trans (State.rejectOp_keeps _ _ _ _ _) ?_
        exact .refl _
      refine .ite ?_ ?_
      · refine .trans (State.rejectOp_keeps _ _ _ _ _) ?_
        exact .refl _
      extract_lets +onlyGivenNames v7
      have h7 : Keeps true true true true v7 s := by
        unfold v7
        refine .trans (State.accept_keeps _ _ _) ?_
        exact .refl _
      clear_value v7
      extract_lets +onlyGivenNames v8
      clear_value v8
      extract_lets +onlyGivenNames v9
      clear_value v9
      extract_lets +onlyGivenNames v10
      have h10 : Keeps true true true true v10 s := by
        unfold v10
        refine .trans (State.nviMark_keeps _ _ _ _) ?_
        refine .congr (u := v7) ?_
        assumption
      clear_value v10
      refine .trans (State.doneOp_keeps _ _) ?_
      refine .trans (State.refreshDrive_keeps _ _) ?_
      refine .trans (State.reissueHeld_keeps _ _) ?_
      assumption
  exact .refl _

theorem State.protectEnds_keeps (s : State) (c : ℕ) :
    Keeps true true true true (State.protectEnds s c) s := by
  unfold State.protectEnds
  refine .trans (State.wb_keeps _ _ _ _) ?_
  exact .refl _

theorem State.afeApply_keeps (s : State) (c : ℕ) (a : PendApply) :
    Keeps true true true true (State.afeApply s c a) s := by
  unfold State.afeApply
  extract_lets +onlyGivenNames v1
  clear_value v1
  extract_lets +onlyGivenNames v2
  clear_value v2
  extract_lets +onlyGivenNames v3
  clear_value v3
  extract_lets +onlyGivenNames v4
  clear_value v4
  extract_lets +onlyGivenNames v5
  clear_value v5
  extract_lets +onlyGivenNames v6
  clear_value v6
  extract_lets +onlyGivenNames v7
  clear_value v7
  extract_lets +onlyGivenNames v8
  have h8 : Keeps true true true true v8 s := by
    unfold v8
    refine .trans (State.applyWords_keeps _ _ _) ?_
    exact .refl _
  clear_value v8
  extract_lets +onlyGivenNames v9
  clear_value v9
  extract_lets +onlyGivenNames v10
  clear_value v10
  extract_lets +onlyGivenNames v11
  clear_value v11
  extract_lets +onlyGivenNames v12
  have h12 : Keeps true true true true v12 s := by
    unfold v12
    refine .ite ?_ ?_
    · assumption
    refine .trans (State.setSix3_keeps _ _ _ _) ?_
    refine .trans (State.protectEnds_keeps _ _) ?_
    refine .trans (State.afeSet_keeps _ _ _ _ _ _ _) ?_
    assumption
  clear_value v12
  extract_lets +onlyGivenNames v13
  clear_value v13
  refine .trans (foldl_keeps (m := true) (k := true) (r := true) (p := true) ?_) ?_
  · intro a14_0 a14_1
    refine .ite ?_ ?_
    · exact .refl _
    refine .trans (State.protectEnds_keeps _ _) ?_
    refine .trans (State.afeSet_keeps _ _ _ _ _ _ _) ?_
    exact .refl _
  assumption

theorem execAfeApply_keeps (conv : Fin 5) (s : State) :
    Res.keeps true true true true (execAfeApply conv s) s := by
  unfold execAfeApply
  extract_lets +onlyGivenNames v1
  clear_value v1
  split
  · refine Res.keeps_next ?_
    exact .refl _
  · refine Res.keeps_ite ?_ ?_
    · refine Res.keeps_next ?_
      refine .trans (State.endCommit_keeps _ _ _) ?_
      refine .trans (State.clearPend_keeps _ _) ?_
      refine .trans (State.advanceTo_keeps _ _) ?_
      exact .refl _
    extract_lets +onlyGivenNames v2
    have h2 : Keeps true true true true v2 s := by
      unfold v2
      refine .trans (State.clearPend_keeps _ _) ?_
      refine .trans (State.advanceTo_keeps _ _) ?_
      exact .refl _
    clear_value v2
    refine Res.keeps_next ?_
    refine .trans (State.endCommit_keeps _ _ _) ?_
    refine .trans (State.afeApply_keeps _ _ _) ?_
    assumption

theorem execAfeCommitAt_keeps (who : Issuer) (conv : Fin 5) (tag : ℕ) (s : State) :
    Res.keeps true true true true (execAfeCommitAt who conv tag s) s := by
  unfold execAfeCommitAt
  extract_lets +onlyGivenNames v1
  clear_value v1
  refine Res.keeps_next ?_
  refine .trans (State.command_keeps (m := true) (k := true) (r := true) (p := true) ?_) ?_
  · intro a2_0
    refine .ite ?_ ?_
    · refine .trans (State.rejectOp_keeps _ _ _ _ _) ?_
      exact .refl _
    refine .ite ?_ ?_
    · refine .trans (State.rejectOp_keeps _ _ _ _ _) ?_
      exact .refl _
    split
    · refine .trans (State.rejectOp_keeps _ _ _ _ _) ?_
      exact .refl _
    · refine .trans (State.setPend_keeps _ _ _ _) ?_
      refine .trans (State.accept_keeps _ _ _) ?_
      exact .refl _
  exact .refl _

theorem State.overloadStep_keeps (s : State) (c : ℕ) (six : ℕ) :
    Keeps true true true true (State.overloadStep s c six) s := by
  unfold State.overloadStep
  extract_lets +onlyGivenNames v1
  have h1 : Keeps true true true true v1 s := by
    unfold v1
    refine .trans (State.setErr_keeps _ _ _) ?_
    refine .trans (State.wb_keeps _ _ _ _) ?_
    exact .refl _
  clear_value v1
  refine .ite ?_ ?_
  · assumption
  extract_lets +onlyGivenNames v2
  clear_value v2
  extract_lets +onlyGivenNames v3
  clear_value v3
  refine .trans (foldl_keeps (m := true) (k := true) (r := true) (p := true) ?_) ?_
  · intro a4_0 a4_1
    extract_lets +onlyGivenNames v5
    clear_value v5
    refine .ite ?_ ?_
    · refine .trans (State.setErr_keeps _ _ _) ?_
      exact .refl _
    extract_lets +onlyGivenNames v6
    have h6 : Keeps true true true true v6 a4_0 := by
      unfold v6
      refine .trans (State.afeSet_keeps _ _ _ _ _ _ _) ?_
      exact .refl _
    clear_value v6
    refine .trans (State.setErrLogged_keeps _ _ _) ?_
    refine .trans (State.wb_keeps _ _ _ _) ?_
    assumption
  assumption

theorem execAfeDetUpdate_keeps (conv : Fin 5) (level : ℤ) (heldNs : ℕ) (s : State) :
    Res.keeps true true true true (execAfeDetUpdate conv level heldNs s) s := by
  unfold execAfeDetUpdate
  extract_lets +onlyGivenNames v1
  clear_value v1
  refine Res.keeps_ite ?_ ?_
  · refine Res.keeps_next ?_
    exact .refl _
  extract_lets +onlyGivenNames v2
  clear_value v2
  extract_lets +onlyGivenNames v3
  have h3 : Keeps true true true true v3 s := by
    unfold v3
    refine .trans (State.wf_keeps _ _ _ _) ?_
    exact .refl _
  clear_value v3
  refine Res.keeps_ite ?_ ?_
  · refine Res.keeps_ite ?_ ?_
    · refine Res.keeps_next ?_
      refine .trans (State.overloadStep_keeps _ _ _) ?_
      assumption
    refine Res.keeps_next ?_
    assumption
  refine Res.keeps_next ?_
  refine .trans (State.wb_keeps _ _ _ _) ?_
  assumption

theorem execAfeSettled_keeps (conv : Fin 5) (s : State) :
    Res.keeps true true true true (execAfeSettled conv s) s := by
  unfold execAfeSettled
  extract_lets +onlyGivenNames v1
  clear_value v1
  refine Res.keeps_ite ?_ ?_
  · extract_lets +onlyGivenNames v2
    have h2 : Keeps true true true true v2 s := by
      unfold v2
      refine .trans (State.advanceTo_keeps _ _) ?_
      exact .refl _
    clear_value v2
    refine Res.keeps_next ?_
    refine .trans (State.modPage_keeps _ _ _) ?_
    refine .trans (State.wb_keeps _ _ _ _) ?_
    assumption
  refine Res.keeps_next ?_
  exact .refl _

theorem execAlign_keeps (who : Issuer) (conv : Fin 5) (tag : ℕ) (shift : ℤ) (fracFs : ℤ) (gainMdb : ℤ) (corrPpm : AlignPeak) (s : State) :
    Res.keeps true true true true (execAlign who conv tag shift fracFs gainMdb corrPpm s) s := by
  unfold execAlign
  extract_lets +onlyGivenNames v1
  clear_value v1
  extract_lets +onlyGivenNames v2
  clear_value v2
  refine Res.keeps_next ?_
  refine .trans (State.command_keeps (m := true) (k := true) (r := true) (p := true) ?_) ?_
  · intro a3_0
    extract_lets +onlyGivenNames v4
    clear_value v4
    refine .ite ?_ ?_
    · refine .trans (State.rejectOp_keeps _ _ _ _ _) ?_
      exact .refl _
    refine .ite ?_ ?_
    · refine .trans (State.rejectOp_keeps _ _ _ _ _) ?_
      exact .refl _
    refine .ite ?_ ?_
    · refine .trans (State.rejectOp_keeps _ _ _ _ _) ?_
      exact .refl _
    refine .ite ?_ ?_
    · refine .trans (State.rejectOp_keeps _ _ _ _ _) ?_
      exact .refl _
    extract_lets +onlyGivenNames v5
    have h5 : Keeps true true true true v5 s := by
      unfold v5
      refine .trans (State.modConv_keeps _ _ _) ?_
      refine .trans (State.accept_keeps _ _ _) ?_
      exact .refl _
    clear_value v5
    refine .ite ?_ ?_
    · refine .trans (State.alignDone_keeps _ _) ?_
      assumption
    assumption
  exact .refl _

theorem execAlignCorrelationDone_keeps (delayFs : ℤ) (gainMdb : ℤ) (corrPpm : Peak) (s : State) :
    Res.keeps true true true true (execAlignCorrelationDone delayFs gainMdb corrPpm s) s := by
  unfold execAlignCorrelationDone
  refine Res.keeps_ite ?_ ?_
  · refine Res.keeps_next ?_
    exact .refl _
  refine Res.keeps_ite ?_ ?_
  · refine Res.keeps_next ?_
    refine .trans (State.modRot_keeps _ _) ?_
    exact .refl _
  refine Res.keeps_ite ?_ ?_
  · extract_lets +onlyGivenNames v1
    clear_value v1
    refine Res.keeps_next ?_
    refine .trans (State.chooseH_keeps _) ?_
    refine .trans (State.spareEnter_keeps _ _) ?_
    refine .trans (State.modRot_keeps _ _) ?_
    exact .refl _
  extract_lets +onlyGivenNames v2
  clear_value v2
  extract_lets +onlyGivenNames v3
  have h3 : Keeps true true true true v3 s := by
    unfold v3
    refine .ite ?_ ?_
    · refine .trans (State.setAdcField_keeps _ _ _ _) ?_
      exact .refl _
    exact .refl _
  clear_value v3
  extract_lets +onlyGivenNames v4
  have h4 : Keeps true true true true v4 s := by
    unfold v4
    refine .trans (State.addSkew_keeps _ _ _) ?_
    assumption
  clear_value v4
  refine Res.keeps_next ?_
  refine .trans (State.modRot_keeps _ _) ?_
  assumption

theorem State.frameAligned_keeps (s : State) (c : ℕ) (first : ℕ) :
    Keeps true true true true (State.frameAligned s c first) s := by
  unfold State.frameAligned
  refine .ite ?_ ?_
  · extract_lets +onlyGivenNames v1
    clear_value v1
    extract_lets +onlyGivenNames v2
    have h2 : Keeps true true true true v2 s := by
      unfold v2
      refine .trans (State.updateLocked_keeps _ _) ?_
      refine .trans (State.wb_keeps _ _ _ _) ?_
      refine .trans (State.convEnter_keeps _ _ _) ?_
      exact .refl _
    clear_value v2
    refine .trans (State.modConv_keeps _ _ _) ?_
    assumption
  exact .refl _

theorem State.linkActive_keeps (s : State) (key : ℕ) :
    Keeps true true true true (State.linkActive s key) s := by
  unfold State.linkActive
  extract_lets +onlyGivenNames v1
  have h1 : Keeps true true true true v1 s := by
    unfold v1
    refine .trans (State.modLink_keeps _ _ _) ?_
    refine .trans (State.linkEnter_keeps _ _ _ _) ?_
    exact .refl _
  clear_value v1
  split
  · refine .ite ?_ ?_
    · refine .trans (State.doneOp_keeps _ _) ?_
      assumption
    assumption
  · assumption

theorem execAlignFlit_keeps (port : Fin 14) (s : State) :
    Res.keeps true true true true (execAlignFlit port s) s := by
  unfold execAlignFlit
  extract_lets +onlyGivenNames v1
  clear_value v1
  extract_lets +onlyGivenNames v2
  clear_value v2
  split
  · refine Res.keeps_next ?_
    exact .refl _
  · extract_lets +onlyGivenNames v3
    have h3 : Keeps true true true true v3 s := by
      unfold v3
      refine .trans (State.modLink_keeps _ _ _) ?_
      exact .refl _
    clear_value v3
    refine Res.keeps_ite ?_ ?_
    · refine Res.keeps_next ?_
      assumption
    extract_lets +onlyGivenNames v4
    clear_value v4
    extract_lets +onlyGivenNames v5
    have h5 : Keeps true true true true v5 s := by
      unfold v5
      refine .trans (State.modLink_keeps _ _ _) ?_
      assumption
    clear_value v5
    extract_lets +onlyGivenNames v6
    have h6 : Keeps true true true true v6 s := by
      unfold v6
      refine .ite ?_ ?_
      · refine .trans (State.linkActive_keeps _ _) ?_
        assumption
      assumption
    clear_value v6
    extract_lets +onlyGivenNames v7
    have h7 : Keeps true true true true v7 s := by
      unfold v7
      refine .ite ?_ ?_
      · refine .trans (State.linkActive_keeps _ _) ?_
        assumption
      assumption
    clear_value v7
    refine Res.keeps_next ?_
    split
    · refine .trans (State.frameAligned_keeps _ _ _) ?_
      assumption
    · assumption

theorem execAlignTimeout_keeps (s : State) :
    Res.keeps true true true true (execAlignTimeout s) s := by
  unfold execAlignTimeout
  refine Res.keeps_ite ?_ ?_
  · extract_lets +onlyGivenNames v1
    have h1 : Keeps true true true true v1 s := by
      unfold v1
      refine .trans (State.spareDone_keeps _ _) ?_
      refine .trans (State.advanceTo_keeps _ _) ?_
      exact .refl _
    clear_value v1
    refine Res.keeps_next ?_
    refine .trans (State.surveyFails_keeps _ _ _) ?_
    refine .trans (State.setErr_keeps _ _ _) ?_
    assumption
  refine Res.keeps_next ?_
  exact .refl _

theorem execApertureRead_keeps (prp : Bool) (slot : Fin 1008) (offset : BitVec 20) (len : Fin 4097) (s : State) :
    Res.keeps true true true true (execApertureRead prp slot offset len s) s := by
  unfold execApertureRead
  extract_lets +onlyGivenNames v1
  clear_value v1
  extract_lets +onlyGivenNames v2
  split
  · refine Res.keeps_next ?_
    refine .trans (State.emit_keeps _ _) ?_
    exact .refl _
  · extract_lets +onlyGivenNames v3
    clear_value v3
    refine Res.keeps_next ?_
    refine .trans (State.logUnmapped_keeps _ _) ?_
    refine .trans (State.emit_keeps _ _) ?_
    exact .refl _

theorem State.syncStart_keeps {m k r p : Bool} {s : State} {op : Op} {o : SyncOp} {f : State → State} (h : ∀ s, Keeps m k r p (f s) s) :
    Keeps m k r p (s.syncStart op o f) s := by
  have all : ∀ {t}, Keeps true true true true t s → Keeps m k r p t s := fun h => h.to (by cases m <;> cases k <;> cases r <;> cases p <;> rfl)
  unfold State.syncStart
  refine .ite (all (State.rejectOp_keeps _ _ _ _ _)) (.ite (all (State.rejectOp_keeps _ _ _ _ _)) ?_)
  extract_lets +onlyGivenNames s1
  have h1 : Keeps true true true true s1 s := State.accept_keeps _ _ _
  clear_value s1
  exact Keeps.trans (h _) (all (.trans (State.refreshHold_keeps _) (.trans (State.modTb_keeps _ _) h1))) (by cases m <;> cases k <;> cases r <;> cases p <;> rfl)

theorem execArmSync_keeps (who : Issuer) (tag : Nat) (s : State) : Res.keeps true true true true (execArmSync who tag s) s := by
  unfold execArmSync
  refine Res.keeps_next (State.command_keeps (m := true) (k := true) (r := true) (p := true) fun o => ?_)
  exact State.syncStart_keeps (m := true) (k := true) (r := true) (p := true) fun s => .refl s

theorem execArmSyncTimeout_keeps (s : State) :
    Res.keeps true true true true (execArmSyncTimeout s) s := by
  unfold execArmSyncTimeout
  split
  · refine Res.keeps_ite ?_ ?_
    · refine Res.keeps_next ?_
      exact .refl _
    refine Res.keeps_next ?_
    refine .trans (State.failOp_keeps _ _ _ _) ?_
    refine .trans (State.syncOff_keeps _) ?_
    refine .trans (State.advanceTo_keeps _ _) ?_
    exact .refl _
  · refine Res.keeps_next ?_
    exact .refl _

theorem State.drawSecret_keeps (s : State) :
    Keeps true true true true (State.drawSecret s).2 s := by
  unfold State.drawSecret
  extract_lets +onlyGivenNames v1
  have h1 : Keeps true true true true v1.2 s := by
    unfold v1
    refine .trans (State.drawNat_keeps _) ?_
    exact .refl _
  clear_value v1
  dsimp only
  assumption

theorem State.rejectField_keeps (s : State) (op : Op) :
    Keeps true true true true (State.rejectField s op) s := by
  unfold State.rejectField
  extract_lets +onlyGivenNames v1
  have h1 : Keeps true true true true v1.2 s := by
    unfold v1
    refine .trans (State.drawNat_keeps _) ?_
    exact .refl _
  clear_value v1
  refine .trans (State.rejectOp_keeps _ _ _ _ _) ?_
  assumption

theorem execAttest_keeps (who : Issuer) (tag : ℕ) (nonce : Option (List Byte)) (s : State) :
    Res.keeps true true true true (execAttest who tag nonce s) s := by
  unfold execAttest
  refine Res.keeps_next ?_
  refine .trans (State.command_keeps (m := true) (k := true) (r := true) (p := true) ?_) ?_
  · intro a1_0
    refine .ite ?_ ?_
    · refine .trans (State.rejectOp_keeps _ _ _ _ _) ?_
      exact .refl _
    refine .ite ?_ ?_
    · refine .trans (State.rejectField_keeps _ _) ?_
      exact .refl _
    extract_lets +onlyGivenNames v2
    have h2 : Keeps true true true true v2 s := by
      unfold v2
      refine .trans (State.accept_keeps _ _ _) ?_
      exact .refl _
    clear_value v2
    split
    · refine .trans (State.failOp_keeps _ _ _ _) ?_
      assumption
    · extract_lets +onlyGivenNames v3
      clear_value v3
      extract_lets +onlyGivenNames v4
      have h4 : Keeps true true true true v4.2 s := by
        unfold v4
        refine .trans (State.drawSecret_keeps _) ?_
        assumption
      clear_value v4
      extract_lets +onlyGivenNames v5
      have h5 : Keeps true true true true v5 s := by
        unfold v5
        refine .trans (State.emit_keeps _ _) ?_
        assumption
      clear_value v5
      refine .trans (State.doneWith_keeps _ _ _) ?_
      assumption
  exact .refl _

theorem State.fetchMem_keeps (s : State) (u : ℕ) (n : ℕ) :
    Keeps true true true true (State.fetchMem s u n).1 s := by
  unfold State.fetchMem
  extract_lets +onlyGivenNames v1
  clear_value v1
  extract_lets +onlyGivenNames v2
  clear_value v2
  dsimp only
  split
  · refine .trans (State.holeAccess_keeps _ _ _) ?_
    exact .refl _
  · exact .refl _

theorem State.discardWrite_keeps (s : State) (r : ℕ) (u : ℕ) :
    Keeps true true true true (State.discardWrite s r u) s := by
  unfold State.discardWrite
  split
  · refine .trans (State.count_keeps _ _ _) ?_
    exact .refl _
  · exact .refl _

theorem State.sendMem_keeps (s : State) (r : ℕ) (u : ℕ) (bs : List (Byte × Bool)) :
    Keeps false true true true (State.sendMem s r u bs) s := by
  unfold State.sendMem
  refine .ite ?_ ?_
  · refine .trans (State.discardWrite_keeps _ _ _) ?_
    exact .refl _
  refine .trans (State.storeMem_keeps _ _ _) ?_
  exact .refl _

theorem State.bar2Read_keeps (s : State) (u : ℕ) (n : ℕ) :
    Keeps true true true true (State.bar2Read s u n) s := by
  unfold State.bar2Read
  split
  · exact .refl _
  · refine .trans (State.emit_keeps _ _) ?_
    exact .refl _
  · extract_lets +onlyGivenNames v1
    have h1 : Keeps true true true true v1.1 s := by
      unfold v1
      refine .trans (State.fetchMem_keeps _ _ _) ?_
      exact .refl _
    clear_value v1
    refine .trans (State.emit_keeps _ _) ?_
    assumption

theorem State.bar2Write_keeps (s : State) (u : ℕ) (bs : List Byte) :
    Keeps false true true true (State.bar2Write s u bs) s := by
  unfold State.bar2Write
  refine .ite ?_ ?_
  · exact .refl _
  refine .trans (State.sendMem_keeps _ _ _ _) ?_
  exact .refl _

theorem execBar2Access_keeps (offset : BitVec 37) (write : Option (List Byte)) (len : Fin 4097) (s : State) :
    Res.keeps false true true true (execBar2Access offset write len s) s := by
  unfold execBar2Access
  extract_lets +onlyGivenNames v1
  clear_value v1
  split
  · refine Res.keeps_next ?_
    refine .trans (State.bar2Write_keeps _ _ _) ?_
    exact .refl _
  · refine Res.keeps_next ?_
    refine .trans (State.bar2Read_keeps _ _ _) ?_
    exact .refl _

theorem State.stepTime_keeps (s : State) (d : ℤ) :
    Keeps true true true true (State.stepTime s d) s := by
  unfold State.stepTime
  refine .trans (State.wb_keeps _ _ _ _) ?_
  refine .trans (State.modTb_keeps _ _) ?_
  exact .refl _

theorem State.applySetTime_keeps (s : State) (six : ℕ) (fine : ℕ) :
    Keeps true true true true (State.applySetTime s six fine) s := by
  unfold State.applySetTime
  split
  · exact .refl _
  · refine .ite ?_ ?_
    · refine .trans (State.failOp_keeps _ _ _ _) ?_
      refine .trans (State.modTb_keeps _ _) ?_
      exact .refl _
    extract_lets +onlyGivenNames v1
    have h1 : Keeps true true true true v1 s := by
      unfold v1
      refine .trans (State.stepTime_keeps _ _) ?_
      exact .refl _
    clear_value v1
    extract_lets +onlyGivenNames v2
    have h2 : Keeps true true true true v2 s := by
      unfold v2
      refine .trans (State.modTb_keeps _ _) ?_
      assumption
    clear_value v2
    refine .trans (State.doneOp_keeps _ _) ?_
    assumption

theorem execBenchmark_keeps (y : ℤ) (uncertainty : ℕ) (s : State) :
    Res.keeps true true true true (execBenchmark y uncertainty s) s := by
  unfold execBenchmark
  refine Res.keeps_ite ?_ ?_
  · refine Res.keeps_next ?_
    exact .refl _
  extract_lets +onlyGivenNames v1
  clear_value v1
  extract_lets +onlyGivenNames v2
  have h2 : Keeps true true true true v2 s := by
    unfold v2
    refine .trans (State.advanceTo_keeps _ _) ?_
    exact .refl _
  clear_value v2
  extract_lets +onlyGivenNames v3
  have h3 : Keeps true true true true v3 s := by
    unfold v3
    refine .ite ?_ ?_
    · assumption
    refine .trans (State.applySetTime_keeps _ _ _) ?_
    assumption
  clear_value v3
  extract_lets +onlyGivenNames v4
  clear_value v4
  extract_lets +onlyGivenNames v5
  clear_value v5
  extract_lets +onlyGivenNames v6
  clear_value v6
  extract_lets +onlyGivenNames v7
  clear_value v7
  extract_lets +onlyGivenNames v8
  clear_value v8
  extract_lets +onlyGivenNames v9
  have h9 : Keeps true true true true v9 s := by
    unfold v9
    refine .trans (State.emit_keeps _ _) ?_
    assumption
  clear_value v9
  extract_lets +onlyGivenNames v10
  clear_value v10
  refine Res.keeps_next ?_
  refine .trans (State.modTb_keeps _ _) ?_
  assumption

theorem execBindBuffer_keeps (who : Issuer) (tag : ℕ) (s : State) :
    Res.keeps true true true true (execBindBuffer who tag s) s := by
  unfold execBindBuffer
  refine Res.keeps_next ?_
  refine .trans (State.command_keeps (m := true) (k := true) (r := true) (p := true) ?_) ?_
  · intro a1_0
    extract_lets +onlyGivenNames v2
    clear_value v2
    extract_lets +onlyGivenNames v3
    clear_value v3
    extract_lets +onlyGivenNames v4
    extract_lets +onlyGivenNames v5
    refine .ite ?_ ?_
    · refine .trans (State.rejectOp_keeps _ _ _ _ _) ?_
      exact .refl _
    refine .ite ?_ ?_
    · refine .trans (State.rejectOp_keeps _ _ _ _ _) ?_
      exact .refl _
    refine .ite ?_ ?_
    · refine .trans (State.rejectOp_keeps _ _ _ _ _) ?_
      exact .refl _
    refine .trans (State.doneOp_keeps _ _) ?_
    refine .trans (State.modRing_keeps _ _ _) ?_
    refine .trans (State.accept_keeps _ _ _) ?_
    exact .refl _
  exact .refl _

theorem State.setPhase_keeps (s : State) (n : ℕ) :
    Keeps true true true true (State.setPhase s n) s := by
  unfold State.setPhase
  refine .trans (State.wf_keeps _ _ _ _) ?_
  exact .refl _

theorem State.coldBase_keeps (s : State) : Keeps false true false false s.coldBase s := by
  unfold State.coldBase
  extract_lets +onlyGivenNames v p z1 z2 z3 t
  have h : Keeps false true false false t s :=
    ⟨rfl, fun _ => rfl, fun _ => by change State.reset.six < sixModulus; decide, fun w => ⟨Nat.zero_le _, w.2⟩, rfl,
      nofun, fun _ => rfl, nofun, nofun⟩
  clear_value t
  refine .trans (State.each_keeps (m := true) (k := true) (r := true) (p := true) ?_) h
  intro t x
  exact State.wf_keeps _ _ _ _

theorem State.coldStart_keeps (s : State) (last : Nat) : Keeps false true false false (s.coldStart last) s := by
  unfold State.coldStart
  exact .trans (State.modPower_keeps _ _) (.trans (State.wf_keeps _ _ _ _) (State.coldBase_keeps _))

theorem State.goOff_keeps (s : State) : Keeps false true false false s.goOff s := by
  unfold State.goOff
  have h : Keeps false true false false (s.coldBase.setPhase 0) s := .trans (State.setPhase_keeps _ _) (State.coldBase_keeps _)
  generalize s.coldBase.setPhase 0 = t at h
  exact .congr h

theorem State.moduleReset_keeps (s : State) : Keeps false true false false s.moduleReset s := by
  unfold State.moduleReset
  extract_lets +onlyGivenNames v z1 z2 z3 t1
  have h1 : Keeps false true false false t1 s :=
    ⟨rfl, fun _ => rfl, id, fun w => ⟨w.1, w.2⟩, rfl, nofun, fun _ => rfl, nofun, nofun⟩
  clear_value t1
  extract_lets +onlyGivenNames t2 t3 t4 t5
  have h2 : Keeps false true false false t2 s := by
    refine .trans (State.each_keeps (m := true) (k := true) (r := true) (p := true) fun s x => State.cancelOp_keeps s x) ?_
    exact .trans (State.modTb_keeps _ _) (.trans (State.syncOff_keeps _) h1)
  clear_value t2
  have h3 : Keeps false true false false t3 s := .trans (State.setReg_keeps _ _ _ _) h2
  clear_value t3
  have h4 : Keeps false true false false t4 s := .trans (State.setReg_keeps _ _ _ _) h3
  clear_value t4
  have h5 : Keeps false true false false t5 s := .trans (State.wf_keeps _ _ _ _) (.trans (State.wf_keeps _ _ _ _) h4)
  clear_value t5
  exact .trans (State.wf_keeps _ _ _ _) (.trans (State.wf_keeps _ _ _ _) h5)

theorem State.refreshAreas_keeps (s : State) :
    Keeps true true true true (State.refreshAreas s) s := by
  unfold State.refreshAreas
  extract_lets +onlyGivenNames v1
  clear_value v1
  extract_lets +onlyGivenNames v2
  have h2 : Keeps true true true true v2 s := by
    unfold v2
    refine .trans (State.wf_keeps _ _ _ _) ?_
    exact .refl _
  clear_value v2
  extract_lets +onlyGivenNames v3
  have h3 : Keeps true true true true v3 s := by
    unfold v3
    refine .trans (State.setReg_keeps _ _ _ _) ?_
    assumption
  clear_value v3
  refine .trans (State.setReg_keeps _ _ _ _) ?_
  assumption

theorem State.setArea_keeps (s : State) (n : ℕ) (a : CalArea) :
    Keeps true true true true (State.setArea s n a) s := by
  unfold State.setArea
  refine .trans (State.modSvy_keeps _ _) ?_
  exact .refl _

theorem State.storeEnd_keeps (s : State) (code : ℕ) (sub : ℕ) :
    Keeps true true true true (State.storeEnd s code sub) s := by
  unfold State.storeEnd
  extract_lets +onlyGivenNames v1
  clear_value v1
  extract_lets +onlyGivenNames v2
  clear_value v2
  extract_lets +onlyGivenNames v3
  have h3 : Keeps true true true true v3 s := by
    unfold v3
    refine .trans (State.modSvy_keeps _ _) ?_
    exact .refl _
  clear_value v3
  extract_lets +onlyGivenNames v4
  have h4 : Keeps true true true true v4 s := by
    unfold v4
    refine .trans (State.wf_keeps _ _ _ _) ?_
    refine .trans (State.wf_keeps _ _ _ _) ?_
    refine .trans (State.wb_keeps _ _ _ _) ?_
    assumption
  clear_value v4
  extract_lets +onlyGivenNames v5
  have h5 : Keeps true true true true v5 s := by
    unfold v5
    refine .trans (State.wf_keeps _ _ _ _) ?_
    refine .trans (State.setArea_keeps _ _ _) ?_
    assumption
  clear_value v5
  extract_lets +onlyGivenNames v6
  have h6 : Keeps true true true true v6 s := by
    unfold v6
    refine .ite ?_ ?_
    · refine .trans (State.wb_keeps _ _ _ _) ?_
      assumption
    refine .trans (State.setErr_keeps _ _ _) ?_
    refine .trans (State.setArea_keeps _ _ _) ?_
    assumption
  clear_value v6
  refine .trans (State.irqBit_keeps _ _ _) ?_
  refine .trans (State.refreshAreas_keeps _) ?_
  assumption

theorem execCalStoreDone_keeps (ok : Bool) (s : State) :
    Res.keeps true true true true (execCalStoreDone ok s) s := by
  unfold execCalStoreDone
  refine Res.keeps_ite ?_ ?_
  · refine Res.keeps_next ?_
    exact .refl _
  refine Res.keeps_next ?_
  refine .ite ?_ ?_
  · refine .trans (State.storeEnd_keeps _ _ _) ?_
    exact .refl _
  refine .trans (State.storeEnd_keeps _ _ _) ?_
  exact .refl _

theorem execCalStoreStart_keeps (s : State) :
    Res.keeps true true true true (execCalStoreStart s) s := by
  unfold execCalStoreStart
  refine Res.keeps_ite ?_ ?_
  · refine Res.keeps_next ?_
    exact .refl _
  extract_lets +onlyGivenNames v1
  clear_value v1
  extract_lets +onlyGivenNames v2
  have h2 : Keeps true true true true v2.2 s := by
    unfold v2
    refine .trans (State.drawWord_keeps _) ?_
    exact .refl _
  clear_value v2
  extract_lets +onlyGivenNames v3
  have h3 : Keeps true true true true v3 s := by
    unfold v3
    refine .trans (State.setArea_keeps _ _ _) ?_
    assumption
  clear_value v3
  extract_lets +onlyGivenNames v4
  have h4 : Keeps true true true true v4 s := by
    unfold v4
    refine .trans (State.modSvy_keeps _ _) ?_
    assumption
  clear_value v4
  refine Res.keeps_next ?_
  refine .trans (State.refreshAreas_keeps _) ?_
  refine .trans (State.wb_keeps _ _ _ _) ?_
  assumption

theorem execCalStoreTimeout_keeps (s : State) :
    Res.keeps true true true true (execCalStoreTimeout s) s := by
  unfold execCalStoreTimeout
  refine Res.keeps_ite ?_ ?_
  · refine Res.keeps_next ?_
    exact .refl _
  refine Res.keeps_next ?_
  refine .trans (State.storeEnd_keeps _ _ _) ?_
  refine .trans (State.advanceTo_keeps _ _) ?_
  exact .refl _

theorem State.grtClear_keeps (s : State) (p : ℕ) :
    Keeps true true true true (State.grtClear s p) s := by
  unfold State.grtClear
  refine .trans (State.modGrat_keeps _ _ _) ?_
  exact .refl _

theorem execClear_keeps (who : Issuer) (pipe : Fin 6) (tag : ℕ) (s : State) :
    Res.keeps true true true true (execClear who pipe tag s) s := by
  unfold execClear
  extract_lets +onlyGivenNames v1
  clear_value v1
  refine Res.keeps_next ?_
  refine .trans (State.command_keeps (m := true) (k := true) (r := true) (p := true) ?_) ?_
  · intro a2_0
    refine .ite ?_ ?_
    · refine .trans (State.rejectOp_keeps _ _ _ _ _) ?_
      exact .refl _
    refine .ite ?_ ?_
    · refine .trans (State.modGrat_keeps _ _ _) ?_
      refine .trans (State.accept_keeps _ _ _) ?_
      exact .refl _
    refine .trans (State.doneOp_keeps _ _) ?_
    refine .trans (State.grtClear_keeps _ _) ?_
    refine .trans (State.accept_keeps _ _ _) ?_
    exact .refl _
  exact .refl _

theorem execCloseRings_keeps (who : Issuer) (tag : ℕ) (s : State) :
    Res.keeps true true true false (execCloseRings who tag s) s := by
  unfold execCloseRings
  refine Res.keeps_next ?_
  refine .trans (State.command_keeps (m := true) (k := true) (r := true) (p := false) ?_) ?_
  · intro a1_0
    extract_lets +onlyGivenNames v2
    have h2 : Keeps true true true false v2 s := by
      unfold v2
      refine .trans (State.accept_keeps _ _ _) ?_
      exact .refl _
    clear_value v2
    refine .ite ?_ ?_
    · assumption
    refine .trans (State.doneOp_keeps _ _) ?_
    refine .trans (State.closePhoin_keeps _) ?_
    assumption
  exact .refl _

theorem State.cfgRead_keeps (s : State) (dword : ℕ) :
    Keeps true true true true (State.cfgRead s dword).2 s := by
  unfold State.cfgRead
  refine .ite_snd ?_ ?_
  · dsimp only
    exact .refl _
  split
  · dsimp only
    exact .refl _
  · refine .ite_snd ?_ ?_
    · dsimp only
      exact .refl _
    refine .trans (State.drawWord_keeps _) ?_
    exact .refl _

theorem execConfigRequest_keeps (req : CfgReq) (retry : Bool) (s : State) :
    Res.keeps true true true true (execConfigRequest req retry s) s := by
  unfold execConfigRequest
  split
  · refine Res.keeps_next ?_
    exact .refl _
  · refine Res.keeps_ite ?_ ?_
    · refine Res.keeps_next ?_
      refine .trans (State.emit_keeps _ _) ?_
      exact .refl _
    split
    · extract_lets +onlyGivenNames v1
      have h1 : Keeps true true true true v1.2 s := by
        unfold v1
        refine .trans (State.cfgRead_keeps _ _) ?_
        exact .refl _
      clear_value v1
      refine Res.keeps_next ?_
      refine .trans (State.emit_keeps _ _) ?_
      assumption
    · extract_lets +onlyGivenNames v2
      clear_value v2
      refine Res.keeps_next ?_
      refine .congr (u := s) ?_
      exact .refl _
    · refine Res.keeps_next ?_
      refine .ite ?_ ?_
      · refine .trans (State.wf_keeps _ _ _ _) ?_
        exact .refl _
      exact .refl _
    · refine Res.keeps_next ?_
      refine .congr (u := s) ?_
      exact .refl _

theorem execContextTimer_keeps (task : BitVec 32) (port : Fin 4) (s : State) :
    Res.keeps true true true true (execContextTimer task port s) s := by
  unfold execContextTimer
  split
  · refine Res.keeps_next ?_
    exact .refl _
  · extract_lets +onlyGivenNames v1
    clear_value v1
    extract_lets +onlyGivenNames v2
    clear_value v2
    refine Res.keeps_ite ?_ ?_
    · extract_lets +onlyGivenNames v3
      have h3 : Keeps true true true true v3 s := by
        unfold v3
        refine .trans (State.advanceTo_keeps _ _) ?_
        exact .refl _
      clear_value v3
      extract_lets +onlyGivenNames v4
      clear_value v4
      refine Res.keeps_next ?_
      refine .trans (State.sendContext_keeps _ _ _ _ _ _ _) ?_
      assumption
    refine Res.keeps_next ?_
    exact .refl _

theorem execCtrCommitAt_keeps (who : Issuer) (pipe : Fin 6) (tag : ℕ) (s : State) :
    Res.keeps true true true true (execCtrCommitAt who pipe tag s) s := by
  unfold execCtrCommitAt
  extract_lets +onlyGivenNames v1
  clear_value v1
  refine Res.keeps_next ?_
  refine .trans (State.command_keeps (m := true) (k := true) (r := true) (p := true) ?_) ?_
  · intro a2_0
    refine .trans (State.commitAt_keeps _ _ _ _) ?_
    exact .refl _
  exact .refl _

theorem execDelayUpdate_keeps (stack : Fin 4) (s : State) :
    Res.keeps true true true true (execDelayUpdate stack s) s := by
  unfold execDelayUpdate
  extract_lets +onlyGivenNames v1
  clear_value v1
  extract_lets +onlyGivenNames v2
  clear_value v2
  extract_lets +onlyGivenNames v3
  clear_value v3
  refine Res.keeps_ite ?_ ?_
  · refine Res.keeps_next ?_
    exact .refl _
  extract_lets +onlyGivenNames v4
  extract_lets +onlyGivenNames v5
  clear_value v5
  extract_lets +onlyGivenNames v6
  have h6 : Keeps true true true true v6 s := by
    unfold v6
    refine .trans (State.advanceTo_keeps _ _) ?_
    exact .refl _
  clear_value v6
  extract_lets +onlyGivenNames v7
  have h7 : Keeps true true true true v7 s := by
    unfold v7
    refine .trans (State.modStack_keeps _ _ _) ?_
    assumption
  clear_value v7
  refine Res.keeps_next ?_
  refine .ite ?_ ?_
  · assumption
  refine .trans (State.modStack_keeps _ _ _) ?_
  refine .trans (State.wb_keeps _ _ _ _) ?_
  refine .trans (State.wf_keeps _ _ _ _) ?_
  assumption

theorem State.chanFail_keeps (s : State) (c : ℕ) (code : ℕ) (sub : ℕ) :
    Keeps true true true true (State.chanFail s c code sub) s := by
  unfold State.chanFail
  refine .trans (State.irqBit_keeps _ _ _) ?_
  refine .trans (State.chanEnter_keeps _ _ _) ?_
  refine .trans (State.chanCode_keeps _ _ _ _) ?_
  exact .refl _

theorem State.fillShadow_keeps (s : State) (c : ℕ) (d : List Byte) :
    Keeps true true true true (State.fillShadow s c d) s := by
  unfold State.fillShadow
  refine .trans (State.each_keeps (m := true) (k := true) (r := true) (p := true) ?_) ?_
  · intro a1_0 a1_1
    refine .trans (State.setReg_keeps _ _ _ _) ?_
    exact .refl _
  exact .refl _

theorem State.promote_keeps (s : State) (c : ℕ) :
    Keeps true true true true (State.promote s c) s := by
  unfold State.promote
  split
  · extract_lets +onlyGivenNames v1
    have h1 : Keeps true true true true v1 s := by
      unfold v1
      refine .trans (State.modChan_keeps _ _ _) ?_
      exact .refl _
    clear_value v1
    refine .trans (State.chanEnter_keeps _ _ _) ?_
    refine .trans (State.setReg_keeps _ _ _ _) ?_
    refine .trans (State.setAct_keeps _ _ _) ?_
    refine .trans (State.setShadow_keeps _ _ _) ?_
    assumption
  · exact .refl _

theorem execDescFetchDone_keeps (chan : Fin 512) (ok : Bool) (bytes : List Byte) (s : State) :
    Res.keeps true true true true (execDescFetchDone chan ok bytes s) s := by
  unfold execDescFetchDone
  extract_lets +onlyGivenNames v1
  clear_value v1
  split
  · refine Res.keeps_next ?_
    exact .refl _
  · extract_lets +onlyGivenNames v2
    clear_value v2
    refine Res.keeps_ite ?_ ?_
    · refine Res.keeps_next ?_
      exact .refl _
    extract_lets +onlyGivenNames v3
    have h3 : Keeps true true true true v3 s := by
      unfold v3
      refine .trans (State.modChan_keeps _ _ _) ?_
      exact .refl _
    clear_value v3
    refine Res.keeps_ite ?_ ?_
    · refine Res.keeps_next ?_
      refine .trans (State.chanFail_keeps _ _ _ _) ?_
      assumption
    extract_lets +onlyGivenNames v4
    have h4 : Keeps true true true true v4.1 s := by
      unfold v4
      refine .trans (State.fetchMem_keeps _ _ _) ?_
      assumption
    clear_value v4
    extract_lets +onlyGivenNames v5
    have h5 : Keeps true true true true v5.1 s := by
      unfold v5
      refine .ite_fst ?_ ?_
      · dsimp only
        assumption
      dsimp only
      assumption
    clear_value v5
    extract_lets +onlyGivenNames v6
    clear_value v6
    refine Res.keeps_ite ?_ ?_
    · refine Res.keeps_next ?_
      refine .trans (State.chanFail_keeps _ _ _ _) ?_
      assumption
    extract_lets +onlyGivenNames v7
    have h7 : Keeps true true true true v7 s := by
      unfold v7
      refine .trans (State.setShadow_keeps _ _ _) ?_
      refine .trans (State.fillShadow_keeps _ _ _) ?_
      assumption
    clear_value v7
    refine Res.keeps_next ?_
    refine .ite ?_ ?_
    · assumption
    refine .trans (State.promote_keeps _ _) ?_
    assumption
  · split
    · extract_lets +onlyGivenNames v8
      clear_value v8
      refine Res.keeps_ite ?_ ?_
      · refine Res.keeps_next ?_
        exact .refl _
      extract_lets +onlyGivenNames v9
      have h9 : Keeps true true true true v9 s := by
        unfold v9
        refine .trans (State.modChan_keeps _ _ _) ?_
        exact .refl _
      clear_value v9
      refine Res.keeps_ite ?_ ?_
      · refine Res.keeps_next ?_
        refine .trans (State.chanFail_keeps _ _ _ _) ?_
        assumption
      extract_lets +onlyGivenNames v10
      have h10 : Keeps true true true true v10.1 s := by
        unfold v10
        refine .trans (State.fetchMem_keeps _ _ _) ?_
        assumption
      clear_value v10
      extract_lets +onlyGivenNames v11
      have h11 : Keeps true true true true v11.1 s := by
        unfold v11
        refine .ite_fst ?_ ?_
        · dsimp only
          assumption
        dsimp only
        assumption
      clear_value v11
      extract_lets +onlyGivenNames v12
      clear_value v12
      extract_lets +onlyGivenNames v13
      have h13 : Keeps true true true true v13 s := by
        unfold v13
        assumption
      clear_value v13
      refine Res.keeps_ite ?_ ?_
      · refine Res.keeps_next ?_
        refine .trans (State.chanEnter_keeps _ _ _) ?_
        refine .trans (State.modChan_keeps _ _ _) ?_
        assumption
      refine Res.keeps_ite ?_ ?_
      · refine Res.keeps_next ?_
        refine .trans (State.setDbPend_keeps _ _ _) ?_
        refine .trans (State.modChan_keeps _ _ _) ?_
        assumption
      refine Res.keeps_next ?_
      assumption
    · refine Res.keeps_next ?_
      refine .trans (State.modChan_keeps _ _ _) ?_
      exact .refl _

theorem State.reportLtr_keeps (s : State) (m : ℕ) (source : ℕ) (ns : ℕ) :
    Keeps true true true true (State.reportLtr s m source ns) s := by
  unfold State.reportLtr
  refine .trans (State.srUpdate_keeps _ _) ?_
  refine .trans (State.modStack_keeps _ _ _) ?_
  exact .refl _

theorem State.scanLtr_keeps (s : State) (g : ℕ) (ns : ℕ) :
    Keeps true true true true (State.scanLtr s g ns) s := by
  unfold State.scanLtr
  split
  · exact .refl _
  · refine .trans (State.reportLtr_keeps _ _ _ _) ?_
    refine .trans (State.setReg_keeps _ _ _ _) ?_
    exact .refl _

theorem execDisplayRefill_keeps (gen : Fin 2) (ltrNs : ℕ) (s : State) :
    Res.keeps true true true true (execDisplayRefill gen ltrNs s) s := by
  unfold execDisplayRefill
  refine Res.keeps_ite ?_ ?_
  · refine Res.keeps_next ?_
    exact .refl _
  refine Res.keeps_next ?_
  refine .trans (State.scanLtr_keeps _ _ _) ?_
  exact .refl _

theorem execDomainOffTimer_keeps (domain : Fin 30) (s : State) :
    Res.keeps true true true false (execDomainOffTimer domain s) s := by
  unfold execDomainOffTimer
  refine Res.keeps_next ?_
  refine .ite ?_ ?_
  · refine .trans (State.domainDown_keeps _ _) ?_
    exact .refl _
  exact .refl _

theorem execDomainOnDone_keeps (domain : Fin 30) (s : State) :
    Res.keeps true true true false (execDomainOnDone domain s) s := by
  unfold execDomainOnDone
  refine Res.keeps_next ?_
  refine .ite ?_ ?_
  · refine .trans (State.domainUp_keeps _ _) ?_
    exact .refl _
  exact .refl _

theorem State.fenceRegion_keeps (s : State) (r : ℕ) :
    Keeps true true true true (State.fenceRegion s r) s := by
  unfold State.fenceRegion
  refine .trans (State.each_keeps (m := true) (k := true) (r := true) (p := true) ?_) ?_
  · intro a1_0 a1_1
    refine .trans (State.fence_keeps _ _) ?_
    exact .refl _
  exact .refl _

theorem State.isolateRegion_keeps (s : State) (r : ℕ) :
    Keeps true true true false (State.isolateRegion s r) s := by
  unfold State.isolateRegion
  refine .ite ?_ ?_
  · refine .trans (State.askSafe_keeps _ _) ?_
    exact .refl _
  refine .ite ?_ ?_
  · exact .refl _
  extract_lets +onlyGivenNames v1
  have h1 : Keeps true true true false v1 s := by
    unfold v1
    refine .trans (State.fenceRegion_keeps _ _) ?_
    exact .refl _
  clear_value v1
  extract_lets +onlyGivenNames v2
  have h2 : Keeps true true true false v2 s := by
    unfold v2
    refine .trans (State.wf_keeps _ _ _ _) ?_
    assumption
  clear_value v2
  extract_lets +onlyGivenNames v3
  have h3 : Keeps true true true false v3 s := by
    unfold v3
    refine .ite ?_ ?_
    · refine .trans (State.wf_keeps _ _ _ _) ?_
      assumption
    assumption
  clear_value v3
  extract_lets +onlyGivenNames v4
  clear_value v4
  extract_lets +onlyGivenNames v5
  have h5 : Keeps true true true false v5 s := by
    unfold v5
    refine .trans (State.irqBit_keeps _ _ _) ?_
    refine .trans (State.enter_keeps _ _ _) ?_
    assumption
  clear_value v5
  extract_lets +onlyGivenNames v6
  have h6 : Keeps true true true false v6 s := by
    unfold v6
    refine .trans (State.irqBit_keeps _ _ _) ?_
    refine .trans (State.logPage_keeps _ _ _ _ _ _ _) ?_
    assumption
  clear_value v6
  extract_lets +onlyGivenNames v7
  have h7 : Keeps true true true false v7 s := by
    unfold v7
    refine .ite ?_ ?_
    · refine .trans (State.holdOutputs_keeps _ _) ?_
      assumption
    refine .trans (State.convFault_keeps _ _) ?_
    assumption
  clear_value v7
  refine .ite ?_ ?_
  · refine .trans (State.askSafe_keeps _ _) ?_
    assumption
  assumption

theorem State.logPower_keeps (s : State) (level : ℕ) (detail : ℕ) :
    Keeps true true true true (State.logPower s level detail) s := by
  unfold State.logPower
  refine .trans (State.logPage_keeps _ _ _ _ _ _ _) ?_
  exact .refl _

theorem execDomainTrip_keeps (domain : Fin 30) (s : State) :
    Res.keeps false true true false (execDomainTrip domain s) s := by
  unfold execDomainTrip
  extract_lets +onlyGivenNames v1
  clear_value v1
  refine Res.keeps_ite ?_ ?_
  · refine Res.keeps_next ?_
    exact .refl _
  extract_lets +onlyGivenNames v2
  have h2 : Keeps false true true false v2 s := by
    unfold v2
    refine .trans (State.wf_keeps _ _ _ _) ?_
    exact .refl _
  clear_value v2
  extract_lets +onlyGivenNames v3
  have h3 : Keeps false true true false v3 s := by
    unfold v3
    refine .trans (State.logPower_keeps _ _ _) ?_
    refine .trans (State.setErr_keeps _ _ _) ?_
    assumption
  clear_value v3
  extract_lets +onlyGivenNames v4
  have h4 : Keeps false true true false v4 s := by
    unfold v4
    refine .trans (State.each_keeps (m := false) (k := true) (r := true) (p := false) ?_) ?_
    · intro a5_0 a5_1
      refine .trans (State.enterFault_keeps _ _ _) ?_
      exact .refl _
    assumption
  clear_value v4
  extract_lets +onlyGivenNames v6
  have h6 : Keeps false true true false v6 s := by
    unfold v6
    refine .trans (State.domainDown_keeps _ _) ?_
    assumption
  clear_value v6
  refine Res.keeps_ite ?_ ?_
  · refine Res.keeps_next ?_
    refine .trans (State.isolateRegion_keeps _ _) ?_
    assumption
  refine Res.keeps_ite ?_ ?_
  · refine Res.keeps_next ?_
    refine .trans (State.askSafe_keeps _ _) ?_
    assumption
  refine Res.keeps_next ?_
  assumption

theorem execDpLinkLost_keeps (output : Fin 2) (s : State) :
    Res.keeps true true true true (execDpLinkLost output s) s := by
  unfold execDpLinkLost
  extract_lets +onlyGivenNames v1
  clear_value v1
  extract_lets +onlyGivenNames v2
  clear_value v2
  refine Res.keeps_ite ?_ ?_
  · refine Res.keeps_next ?_
    extract_lets +onlyGivenNames v3
    have h3 : Keeps true true true true v3 s := by
      unfold v3
      refine .trans (State.setOut_keeps _ _ _) ?_
      exact .refl _
    clear_value v3
    refine .congr (u := v3) ?_
    assumption
  refine Res.keeps_next ?_
  exact .refl _

theorem execDpTrainingDone_keeps (output : Fin 2) (rate : Fin 3) (lowref : Bool) (s : State) :
    Res.keeps true true true true (execDpTrainingDone output rate lowref s) s := by
  unfold execDpTrainingDone
  extract_lets +onlyGivenNames v1
  clear_value v1
  refine Res.keeps_ite ?_ ?_
  · refine Res.keeps_next ?_
    exact .refl _
  extract_lets +onlyGivenNames v2
  have h2 : Keeps true true true true v2 s := by
    unfold v2
    refine .congr (u := s) ?_
    exact .refl _
  clear_value v2
  extract_lets +onlyGivenNames v3
  have h3 : Keeps true true true true v3 s := by
    unfold v3
    refine .trans (State.wb_keeps _ _ _ _) ?_
    assumption
  clear_value v3
  refine Res.keeps_next ?_
  refine .ite ?_ ?_
  · refine .trans (State.setOut_keeps _ _ _) ?_
    assumption
  refine .trans (State.setErr_keeps _ _ _) ?_
  refine .trans (State.setOut_keeps _ _ _) ?_
  assumption

theorem State.linkFaultEnd_keeps (s : State) (key : ℕ) :
    Keeps true true true true (State.linkFaultEnd s key) s := by
  unfold State.linkFaultEnd
  refine .ite ?_ ?_
  · exact .refl _
  extract_lets +onlyGivenNames v1
  clear_value v1
  extract_lets +onlyGivenNames v2
  have h2 : Keeps true true true true v2 s := by
    unfold v2
    split
    · refine .ite ?_ ?_
      · refine .trans (State.failOp_keeps _ _ _ _) ?_
        exact .refl _
      exact .refl _
    · exact .refl _
  clear_value v2
  refine .trans (State.framesStop_keeps _ _) ?_
  refine .trans (State.fence_keeps _ _) ?_
  refine .trans (State.faultBlock_keeps _ _ _) ?_
  refine .trans (State.linkEnter_keeps _ _ _ _) ?_
  assumption

theorem State.linkFault_keeps (s : State) (key : ℕ) :
    Keeps true true true true (State.linkFault s key) s := by
  unfold State.linkFault
  refine .trans (State.linkFaultEnd_keeps _ _) ?_
  refine .trans (State.linkFaultEnd_keeps _ _) ?_
  exact .refl _

theorem State.retrainEnd_keeps (s : State) (key : ℕ) :
    Keeps true true true true (State.retrainEnd s key) s := by
  unfold State.retrainEnd
  extract_lets +onlyGivenNames v1
  have h1 : Keeps true true true true v1 s := by
    unfold v1
    refine .trans (State.setErr_keeps _ _ _) ?_
    refine .trans (State.count_keeps _ _ _) ?_
    refine .trans (State.linkEnter_keeps _ _ _ _) ?_
    exact .refl _
  clear_value v1
  extract_lets +onlyGivenNames v2
  have h2 : Keeps true true true true v2 s := by
    unfold v2
    refine .trans (State.modLink_keeps _ _ _) ?_
    assumption
  clear_value v2
  extract_lets +onlyGivenNames v3
  have h3 : Keeps true true true true v3 s := by
    unfold v3
    split
    · refine .ite ?_ ?_
      · refine .trans (State.failOp_keeps _ _ _ _) ?_
        assumption
      assumption
    · assumption
  clear_value v3
  refine .trans (State.irqBit_keeps _ _ _) ?_
  refine .trans (State.wb_keeps _ _ _ _) ?_
  assumption

end Sys2Proof.Machine
end

