-- ==== Sys2Proof/Laws/Keeps6.lean ====
section
/-! SUPPORT. What the operations and commands keep, part 6. -/

set_option Elab.async false

namespace Sys2Proof.Machine

theorem State.retrain_keeps (s : State) (key : ℕ) :
    Keeps true true true true (State.retrain s key) s := by
  unfold State.retrain
  refine .ite ?_ ?_
  · exact .refl _
  extract_lets +onlyGivenNames v1
  have h1 : Keeps true true true true v1 s := by
    unfold v1
    refine .trans (State.framesStop_keeps _ _) ?_
    refine .trans (State.retrainEnd_keeps _ _) ?_
    refine .trans (State.retrainEnd_keeps _ _) ?_
    exact .refl _
  clear_value v1
  refine .ite ?_ ?_
  · refine .trans (State.linkFault_keeps _ _) ?_
    assumption
  assumption

theorem State.requestRepair_keeps (s : State) (key : ℕ) (lane : ℕ) (byOp : Bool) (hard : Bool) :
    Keeps true true true true (State.requestRepair s key lane byOp hard) s := by
  unfold State.requestRepair
  extract_lets +onlyGivenNames v1
  clear_value v1
  extract_lets +onlyGivenNames v2
  clear_value v2
  extract_lets +onlyGivenNames v3
  have h3 : Keeps true true true true v3 s := by
    unfold v3
    refine .trans (State.modLink_keeps _ _ _) ?_
    exact .refl _
  clear_value v3
  refine .trans (State.emit_keeps _ _) ?_
  refine .trans (State.wb_keeps _ _ _ _) ?_
  assumption

theorem State.wantRepair_keeps (s : State) (key : ℕ) (lane : ℕ) (hard : Bool) :
    Keeps true true true true (State.wantRepair s key lane hard) s := by
  unfold State.wantRepair
  extract_lets +onlyGivenNames v1
  clear_value v1
  refine .ite ?_ ?_
  · exact .refl _
  refine .ite ?_ ?_
  · refine .trans (State.setErr_keeps _ _ _) ?_
    exact .refl _
  split
  · refine .trans (State.requestRepair_keeps _ _ _ _ _) ?_
    exact .refl _
  · refine .ite ?_ ?_
    · exact .refl _
    refine .ite ?_ ?_
    · extract_lets +onlyGivenNames v2
      have h2 : Keeps true true true true v2 s := by
        unfold v2
        refine .trans (State.emit_keeps _ _) ?_
        exact .refl _
      clear_value v2
      refine .trans (State.requestRepair_keeps _ _ _ _ _) ?_
      refine .trans (State.modLink_keeps _ _ _) ?_
      assumption
    refine .trans (State.modLink_keeps _ _ _) ?_
    exact .refl _

theorem execErrorWindow_keeps (port : Fin 14) (second : Bool) (s : State) :
    Res.keeps true true true true (execErrorWindow port second s) s := by
  unfold execErrorWindow
  extract_lets +onlyGivenNames v1
  clear_value v1
  refine Res.keeps_ite ?_ ?_
  · extract_lets +onlyGivenNames v2
    have h2 : Keeps true true true true v2 s := by
      unfold v2
      refine .trans (State.advanceTo_keeps _ _) ?_
      exact .refl _
    clear_value v2
    extract_lets +onlyGivenNames v3
    clear_value v3
    extract_lets +onlyGivenNames v4
    have h4 : Keeps true true true true v4 s := by
      unfold v4
      refine .trans (State.each_keeps (m := true) (k := true) (r := true) (p := true) ?_) ?_
      · intro a5_0 a5_1
        refine .trans (State.wantRepair_keeps _ _ _ _) ?_
        exact .refl _
      assumption
    clear_value v4
    extract_lets +onlyGivenNames v6
    have h6 : Keeps true true true true v6 s := by
      unfold v6
      refine .trans (State.each_keeps (m := true) (k := true) (r := true) (p := true) ?_) ?_
      · intro a7_0 a7_1
        refine .trans (State.wf_keeps _ _ _ _) ?_
        exact .refl _
      assumption
    clear_value v6
    refine Res.keeps_next ?_
    refine .trans (State.modLink_keeps _ _ _) ?_
    assumption
  extract_lets +onlyGivenNames v8
  have h8 : Keeps true true true true v8 s := by
    unfold v8
    refine .trans (State.advanceTo_keeps _ _) ?_
    exact .refl _
  clear_value v8
  extract_lets +onlyGivenNames v9
  have h9 : Keeps true true true true v9 s := by
    unfold v9
    refine .ite ?_ ?_
    · refine .trans (State.retrain_keeps _ _) ?_
      assumption
    assumption
  clear_value v9
  refine Res.keeps_next ?_
  refine .trans (State.modLink_keeps _ _ _) ?_
  assumption

theorem State.ethDown_keeps (s : State) (p : ℕ) :
    Keeps true true true true (State.ethDown s p) s := by
  unfold State.ethDown
  refine .ite ?_ ?_
  · refine .trans (State.irqBit_keeps _ _ _) ?_
    refine .trans (State.setErr_keeps _ _ _) ?_
    refine .trans (State.wb_keeps _ _ _ _) ?_
    exact .refl _
  exact .refl _

theorem State.readmitPort_keeps (s : State) (p : ℕ) :
    Keeps false true true false (State.readmitPort s p) s := by
  unfold State.readmitPort
  extract_lets +onlyGivenNames v1
  clear_value v1
  extract_lets +onlyGivenNames v2
  have h2 : Keeps false true true false v2 s := by
    unfold v2
    refine .trans (State.each_keeps (m := false) (k := true) (r := true) (p := false) ?_) ?_
    · intro a3_0 a3_1
      refine .ite ?_ ?_
      · refine .trans (State.suspendTask_keeps _ _ _) ?_
        exact .refl _
      exact .refl _
    exact .refl _
  clear_value v2
  refine .trans (State.refreshPhn_keeps _) ?_
  refine .trans (State.readmit_keeps _) ?_
  assumption

theorem execEthLinkChange_keeps (port : Fin 4) (up : Bool) (s : State) :
    Res.keeps false true true false (execEthLinkChange port up s) s := by
  unfold execEthLinkChange
  extract_lets +onlyGivenNames v1
  clear_value v1
  refine Res.keeps_ite ?_ ?_
  · refine Res.keeps_next ?_
    exact .refl _
  refine Res.keeps_ite ?_ ?_
  · refine Res.keeps_next ?_
    refine .trans (State.ethDown_keeps _ _) ?_
    exact .refl _
  refine Res.keeps_ite ?_ ?_
  · refine Res.keeps_next ?_
    exact .refl _
  extract_lets +onlyGivenNames v2
  clear_value v2
  extract_lets +onlyGivenNames v3
  clear_value v3
  extract_lets +onlyGivenNames v4
  have h4 : Keeps false true true false v4 s := by
    unfold v4
    refine .trans (State.irqBit_keeps _ _ _) ?_
    refine .trans (State.wb_keeps _ _ _ _) ?_
    refine .trans (State.wf_keeps _ _ _ _) ?_
    exact .refl _
  clear_value v4
  refine Res.keeps_next ?_
  refine .ite ?_ ?_
  · assumption
  refine .trans (State.readmitPort_keeps _ _) ?_
  assumption

theorem execEthRefclkCheck_keeps (valid : Bool) (s : State) :
    Res.keeps false true true false (execEthRefclkCheck valid s) s := by
  unfold execEthRefclkCheck
  extract_lets +onlyGivenNames v1
  clear_value v1
  extract_lets +onlyGivenNames v2
  have h2 : Keeps false true true false v2 s := by
    unfold v2
    refine .congr (u := s) ?_
    exact .refl _
  clear_value v2
  refine Res.keeps_next ?_
  refine .ite ?_ ?_
  · refine .trans (State.each_keeps (m := false) (k := true) (r := true) (p := false) ?_) ?_
    · intro a3_0 a3_1
      refine .trans (State.enterFault_keeps _ _ _) ?_
      refine .trans (State.ethDown_keeps _ _) ?_
      exact .refl _
    assumption
  assumption

theorem execExtTrigEdge_keeps (input : Fin 7) (falling : Bool) (six : ℕ) (fine : ℕ) (heldNs : ℕ) (s : State) :
    Res.keeps true true true true (execExtTrigEdge input falling six fine heldNs s) s := by
  unfold execExtTrigEdge
  refine Res.keeps_ite ?_ ?_
  · refine Res.keeps_next ?_
    exact .refl _
  extract_lets +onlyGivenNames v1
  have h1 : Keeps true true true true v1 s := by
    unfold v1
    refine .trans (State.advanceTo_keeps _ _) ?_
    exact .refl _
  clear_value v1
  refine Res.keeps_next ?_
  refine .trans (foldl_keeps (m := true) (k := true) (r := true) (p := true) ?_) ?_
  · intro a2_0 a2_1
    refine .ite ?_ ?_
    · refine .trans (State.extEdge_keeps _ _ _ _ _) ?_
      exact .refl _
    exact .refl _
  assumption

theorem State.switchGrid_keeps (s : State) (p : ℕ) (a : ℕ) (ws : List (ℕ × Word)) :
    Keeps true true true true (State.switchGrid s p a ws) s := by
  unfold State.switchGrid
  extract_lets +onlyGivenNames v1
  have h1 : Keeps true true true true v1 s := by
    unfold v1
    refine .trans (State.closeSpectrum_keeps _ _) ?_
    refine .trans (State.flushGroup_keeps _ _ _) ?_
    exact .refl _
  clear_value v1
  extract_lets +onlyGivenNames v2
  have h2 : Keeps true true true true v2 s := by
    unfold v2
    refine .trans (State.modEngine_keeps _ _ _) ?_
    assumption
  clear_value v2
  refine .trans (State.modEngine_keeps _ _ _) ?_
  assumption

theorem State.slotsFit_keeps (s : State) (p : ℕ) :
    Keeps true true true true (State.slotsFit s p) s := by
  unfold State.slotsFit
  refine .ite ?_ ?_
  · refine .trans (State.setErr_keeps _ _ _) ?_
    exact .refl _
  exact .refl _

theorem State.fftApply_keeps (s : State) (p : ℕ) (a : PendApply) :
    Keeps true true true true (State.fftApply s p a) s := by
  unfold State.fftApply
  extract_lets +onlyGivenNames v1
  clear_value v1
  extract_lets +onlyGivenNames v2
  clear_value v2
  extract_lets +onlyGivenNames v3
  have h3 : Keeps true true true true v3 s := by
    unfold v3
    refine .trans (State.mirrorGang_keeps _ _) ?_
    refine .trans (State.applyWords_keeps _ _ _) ?_
    exact .refl _
  clear_value v3
  extract_lets +onlyGivenNames v4
  have h4 : Keeps true true true true v4 s := by
    unfold v4
    refine .ite ?_ ?_
    · assumption
    refine .ite ?_ ?_
    · refine .trans (State.modEngine_keeps _ _ _) ?_
      assumption
    refine .trans (State.switchGrid_keeps _ _ _ _) ?_
    assumption
  clear_value v4
  extract_lets +onlyGivenNames v5
  have h5 : Keeps true true true true v5 s := by
    unfold v5
    refine .trans (State.slotsFit_keeps _ _) ?_
    refine .trans (State.slotsClear_keeps _ _ _) ?_
    assumption
  clear_value v5
  extract_lets +onlyGivenNames v6
  have h6 : Keeps true true true true v6 s := by
    unfold v6
    refine .trans (State.refreshPipe_keeps _ _) ?_
    assumption
  clear_value v6
  split
  · refine .ite ?_ ?_
    · assumption
    refine .trans (State.refreshPipe_keeps _ _) ?_
    assumption
  · assumption

theorem State.fftTake_keeps (s : State) (p : ℕ) (a : PendApply) :
    Keeps true true true true (State.fftTake s p a) s := by
  unfold State.fftTake
  extract_lets +onlyGivenNames v1
  clear_value v1
  refine .ite ?_ ?_
  · refine .trans (State.passCommit_keeps _ _ _) ?_
    exact .refl _
  extract_lets +onlyGivenNames v2
  have h2 : Keeps true true true true v2 s := by
    unfold v2
    refine .trans (State.fftApply_keeps _ _ _) ?_
    refine .trans (State.clearPend_keeps _ _) ?_
    refine .trans (State.advanceTo_keeps _ _) ?_
    exact .refl _
  clear_value v2
  refine .trans (State.endCommit_keeps _ _ _) ?_
  refine .trans (State.irqBit_keeps _ _ _) ?_
  refine .trans (State.setCfg_keeps _ _ _) ?_
  refine .trans (State.setSix3_keeps _ _ _ _) ?_
  refine .trans (State.showFlat_keeps _ _) ?_
  assumption

theorem execFftApply_keeps (pipe : Fin 6) (s : State) :
    Res.keeps true true true true (execFftApply pipe s) s := by
  unfold execFftApply
  extract_lets +onlyGivenNames v1
  clear_value v1
  split
  · refine Res.keeps_next ?_
    exact .refl _
  · refine Res.keeps_next ?_
    refine .trans (State.fftTake_keeps _ _ _) ?_
    exact .refl _

theorem execFftCommitAt_keeps (who : Issuer) (pipe : Fin 6) (tag : ℕ) (s : State) :
    Res.keeps true true true true (execFftCommitAt who pipe tag s) s := by
  unfold execFftCommitAt
  extract_lets +onlyGivenNames v1
  clear_value v1
  refine Res.keeps_next ?_
  refine .trans (State.command_keeps (m := true) (k := true) (r := true) (p := true) ?_) ?_
  · intro a2_0
    refine .trans (State.commitAt_keeps _ _ _ _) ?_
    exact .refl _
  exact .refl _

theorem State.acceptSeq_keeps (s : State) (key : ℕ) (b : List Byte) :
    Keeps true true true true (State.acceptSeq s key b) s := by
  unfold State.acceptSeq
  extract_lets +onlyGivenNames v1
  clear_value v1
  extract_lets +onlyGivenNames v2
  clear_value v2
  extract_lets +onlyGivenNames v3
  have h3 : Keeps true true true true v3 s := by
    unfold v3
    refine .trans (State.modLink_keeps _ _ _) ?_
    exact .refl _
  clear_value v3
  refine .ite ?_ ?_
  · refine .ite ?_ ?_
    · refine .trans (State.modLink_keeps _ _ _) ?_
      assumption
    assumption
  refine .trans (State.modLink_keeps _ _ _) ?_
  assumption

theorem State.smpGone_keeps (s : State) (key : ℕ) (n : ℕ) :
    Keeps true true true true (State.smpGone s key n) s := by
  unfold State.smpGone
  extract_lets +onlyGivenNames v1
  clear_value v1
  extract_lets +onlyGivenNames v2
  clear_value v2
  refine .trans (State.modConv_keeps _ _ _) ?_
  refine .trans (State.setErr_keeps _ _ _) ?_
  refine .trans (State.count_keeps _ _ _) ?_
  exact .refl _

theorem State.acceptSmp_keeps (s : State) (key : ℕ) (n : ℕ) (b : List Byte) :
    Keeps true true true true (State.acceptSmp s key n b) s := by
  unfold State.acceptSmp
  extract_lets +onlyGivenNames v1
  clear_value v1
  extract_lets +onlyGivenNames v2
  have h2 : Keeps true true true true v2 s := by
    unfold v2
    refine .trans (State.each_keeps (m := true) (k := true) (r := true) (p := true) ?_) ?_
    · intro a3_0 a3_1
      refine .trans (State.smpGone_keeps _ _ _) ?_
      exact .refl _
    exact .refl _
  clear_value v2
  extract_lets +onlyGivenNames v4
  have h4 : Keeps true true true true v4 s := by
    unfold v4
    refine .trans (State.modLink_keeps _ _ _) ?_
    assumption
  clear_value v4
  refine .ite ?_ ?_
  · refine .trans (State.modLink_keeps _ _ _) ?_
    assumption
  assumption

theorem State.replay_keeps (s : State) (key : ℕ) (seq : ℕ) :
    Keeps true true true true (State.replay s key seq) s := by
  unfold State.replay
  extract_lets +onlyGivenNames v1
  clear_value v1
  extract_lets +onlyGivenNames v2
  clear_value v2
  extract_lets +onlyGivenNames v3
  have h3 : Keeps true true true true v3 s := by
    unfold v3
    refine .trans (State.modLink_keeps _ _ _) ?_
    exact .refl _
  clear_value v3
  extract_lets +onlyGivenNames v4
  have h4 : Keeps true true true true v4 s := by
    unfold v4
    refine .trans (State.count_keeps _ _ _) ?_
    assumption
  clear_value v4
  refine .ite ?_ ?_
  · refine .trans (State.retrain_keeps _ _) ?_
    assumption
  assumption

theorem State.acked_keeps (s : State) (key : ℕ) (rv : ℕ) (nak : Bool) :
    Keeps true true true true (State.acked s key rv nak) s := by
  unfold State.acked
  extract_lets +onlyGivenNames v1
  clear_value v1
  extract_lets +onlyGivenNames v2
  clear_value v2
  extract_lets +onlyGivenNames v3
  clear_value v3
  refine .ite ?_ ?_
  · exact .refl _
  extract_lets +onlyGivenNames v4
  have h4 : Keeps true true true true v4 s := by
    unfold v4
    refine .ite ?_ ?_
    · refine .trans (State.modLink_keeps _ _ _) ?_
      exact .refl _
    exact .refl _
  clear_value v4
  refine .ite ?_ ?_
  · refine .trans (State.replay_keeps _ _ _) ?_
    assumption
  assumption

theorem State.takeReturn_keeps (s : State) (key : ℕ) (b : List Byte) :
    Keeps true true true true (State.takeReturn s key b) s := by
  unfold State.takeReturn
  extract_lets +onlyGivenNames v1
  clear_value v1
  extract_lets +onlyGivenNames v2
  clear_value v2
  refine .ite ?_ ?_
  · refine .trans (State.acked_keeps _ _ _ _) ?_
    exact .refl _
  refine .trans (State.refreshLink_keeps _ _) ?_
  refine .trans (State.modLink_keeps _ _ _) ?_
  exact .refl _

theorem State.acceptFlit_keeps (s : State) (key : ℕ) (sample : Bool) (n : ℕ) (b : List Byte) :
    Keeps true true true true (State.acceptFlit s key sample n b) s := by
  unfold State.acceptFlit
  extract_lets +onlyGivenNames v1
  have h1 : Keeps true true true true v1 s := by
    unfold v1
    refine .trans (State.takeReturn_keeps _ _ _) ?_
    refine .trans (State.modLink_keeps _ _ _) ?_
    exact .refl _
  clear_value v1
  refine .ite ?_ ?_
  · refine .trans (State.acceptSmp_keeps _ _ _ _) ?_
    assumption
  refine .ite ?_ ?_
  · assumption
  refine .trans (State.acceptSeq_keeps _ _ _) ?_
  assumption

theorem State.badFlit_keeps (s : State) (key : ℕ) (b : List Byte) :
    Keeps true true true true (State.badFlit s key b) s := by
  unfold State.badFlit
  extract_lets +onlyGivenNames v1
  clear_value v1
  extract_lets +onlyGivenNames v2
  clear_value v2
  extract_lets +onlyGivenNames v3
  clear_value v3
  refine .ite ?_ ?_
  · exact .refl _
  extract_lets +onlyGivenNames v4
  have h4 : Keeps true true true true v4 s := by
    unfold v4
    refine .trans (State.count_keeps _ _ _) ?_
    exact .refl _
  clear_value v4
  extract_lets +onlyGivenNames v5
  have h5 : Keeps true true true true v5 s := by
    unfold v5
    refine .trans (State.modLink_keeps _ _ _) ?_
    assumption
  clear_value v5
  extract_lets +onlyGivenNames v6
  have h6 : Keeps true true true true v6 s := by
    unfold v6
    refine .ite ?_ ?_
    · assumption
    refine .trans (State.modLink_keeps _ _ _) ?_
    assumption
  clear_value v6
  extract_lets +onlyGivenNames v7
  have h7 : Keeps true true true true v7 s := by
    unfold v7
    refine .trans (State.modLink_keeps _ _ _) ?_
    assumption
  clear_value v7
  extract_lets +onlyGivenNames v8
  have h8 : Keeps true true true true v8 s := by
    unfold v8
    refine .ite ?_ ?_
    · refine .ite ?_ ?_
      · refine .trans (State.retrain_keeps _ _) ?_
        refine .trans (State.modLink_keeps _ _ _) ?_
        refine .trans (State.each_keeps (m := true) (k := true) (r := true) (p := true) ?_) ?_
        · intro a9_0 a9_1
          refine .trans (State.smpGone_keeps _ _ _) ?_
          exact .refl _
        assumption
      assumption
    assumption
  clear_value v8
  refine .ite ?_ ?_
  · refine .trans (State.retrain_keeps _ _) ?_
    assumption
  assumption

theorem State.laneError_keeps (s : State) (key : ℕ) (lane : ℕ) :
    Keeps true true true true (State.laneError s key lane) s := by
  unfold State.laneError
  extract_lets +onlyGivenNames v1
  have h1 : Keeps true true true true v1 s := by
    unfold v1
    refine .trans (State.count_keeps _ _ _) ?_
    refine .trans (State.count_keeps _ _ _) ?_
    exact .refl _
  clear_value v1
  extract_lets +onlyGivenNames v2
  clear_value v2
  extract_lets +onlyGivenNames v3
  have h3 : Keeps true true true true v3 s := by
    unfold v3
    refine .trans (State.modLink_keeps _ _ _) ?_
    assumption
  clear_value v3
  refine .ite ?_ ?_
  · refine .trans (State.wantRepair_keeps _ _ _ _) ?_
    assumption
  refine .ite ?_ ?_
  · refine .trans (State.wantRepair_keeps _ _ _ _) ?_
    assumption
  assumption

theorem State.parityError_keeps (s : State) (key : ℕ) (module : ℕ) (group : ℕ) :
    Keeps true true true true (State.parityError s key module group) s := by
  unfold State.parityError
  extract_lets +onlyGivenNames v1
  clear_value v1
  extract_lets +onlyGivenNames v2
  clear_value v2
  extract_lets +onlyGivenNames v3
  have h3 : Keeps true true true true v3 s := by
    unfold v3
    refine .trans (State.modLink_keeps _ _ _) ?_
    exact .refl _
  clear_value v3
  refine .ite ?_ ?_
  · refine .trans (State.setErr_keeps _ _ _) ?_
    refine .trans (State.setReg_keeps _ _ _ _) ?_
    assumption
  assumption

theorem execFlitReceive_keeps (port : Fin 14) (bytes : List Byte) (parity : List (Fin 4 × BitVec 8)) (s : State) :
    Res.keeps true true true true (execFlitReceive port bytes parity s) s := by
  unfold execFlitReceive
  extract_lets +onlyGivenNames v1
  clear_value v1
  refine Res.keeps_ite ?_ ?_
  · refine Res.keeps_next ?_
    exact .refl _
  extract_lets +onlyGivenNames v2
  clear_value v2
  extract_lets +onlyGivenNames v3
  clear_value v3
  extract_lets +onlyGivenNames v4
  have h4 : Keeps true true true true v4 s := by
    unfold v4
    refine .trans (State.modLink_keeps _ _ _) ?_
    exact .refl _
  clear_value v4
  extract_lets +onlyGivenNames v5
  clear_value v5
  extract_lets +onlyGivenNames v6
  clear_value v6
  split
  · extract_lets +onlyGivenNames v7
    have h7 : Keeps true true true true v7 s := by
      unfold v7
      refine .trans (State.modLink_keeps _ _ _) ?_
      assumption
    clear_value v7
    refine Res.keeps_next ?_
    refine .trans (State.acceptFlit_keeps _ _ _ _ _) ?_
    refine .trans (State.each_keeps (m := true) (k := true) (r := true) (p := true) ?_) ?_
    · intro a8_0 a8_1
      refine .trans (State.parityError_keeps _ _ _ _) ?_
      exact .refl _
    assumption
  · split
    · split
      · refine Res.keeps_next ?_
        refine .trans (State.acceptFlit_keeps _ _ _ _ _) ?_
        refine .trans (State.laneError_keeps _ _ _) ?_
        assumption
      · refine Res.keeps_next ?_
        refine .trans (State.badFlit_keeps _ _ _) ?_
        assumption
    · refine Res.keeps_next ?_
      refine .trans (State.badFlit_keeps _ _ _) ?_
      assumption

theorem State.sendFlit_keeps (s : State) (key : ℕ) (n : ℕ) (sample : Bool) (f : Flit) :
    Keeps true true true true (State.sendFlit s key n sample f) s := by
  unfold State.sendFlit
  extract_lets +onlyGivenNames v1
  clear_value v1
  extract_lets +onlyGivenNames v2
  clear_value v2
  extract_lets +onlyGivenNames v3
  clear_value v3
  extract_lets +onlyGivenNames v4
  clear_value v4
  extract_lets +onlyGivenNames v5
  clear_value v5
  extract_lets +onlyGivenNames v6
  clear_value v6
  extract_lets +onlyGivenNames v7
  have h7 : Keeps true true true true v7 s := by
    unfold v7
    refine .ite ?_ ?_
    · refine .trans (State.count_keeps _ _ _) ?_
      exact .refl _
    exact .refl _
  clear_value v7
  extract_lets +onlyGivenNames v8
  have h8 : Keeps true true true true v8 s := by
    unfold v8
    refine .trans (State.modLink_keeps _ _ _) ?_
    assumption
  clear_value v8
  extract_lets +onlyGivenNames v9
  have h9 : Keeps true true true true v9 s := by
    unfold v9
    refine .trans (State.emit_keeps _ _) ?_
    assumption
  clear_value v9
  refine .trans (State.setReg_keeps _ _ _ _) ?_
  assumption

theorem State.sendNew_keeps (s : State) (key : ℕ) (f : Flit) :
    Keeps true true true true (State.sendNew s key f) s := by
  unfold State.sendNew
  extract_lets +onlyGivenNames v1
  clear_value v1
  extract_lets +onlyGivenNames v2
  have h2 : Keeps true true true true v2 s := by
    unfold v2
    refine .trans (State.modLink_keeps _ _ _) ?_
    exact .refl _
  clear_value v2
  refine .trans (State.sendFlit_keeps _ _ _ _ _) ?_
  assumption

theorem State.sendPacket_keeps (s : State) (key : ℕ) (i : ℕ) :
    Keeps true true true true (State.sendPacket s key i) s := by
  unfold State.sendPacket
  split
  · exact .refl _
  · extract_lets +onlyGivenNames v1
    clear_value v1
    extract_lets +onlyGivenNames v2
    clear_value v2
    extract_lets +onlyGivenNames v3
    clear_value v3
    extract_lets +onlyGivenNames v4
    clear_value v4
    extract_lets +onlyGivenNames v5
    clear_value v5
    extract_lets +onlyGivenNames v6
    clear_value v6
    extract_lets +onlyGivenNames v7
    have h7 : Keeps true true true true v7 s := by
      unfold v7
      refine .trans (State.modLink_keeps _ _ _) ?_
      exact .refl _
    clear_value v7
    refine .trans (State.sendNew_keeps _ _ _) ?_
    refine .trans (State.refreshLink_keeps _ _) ?_
    assumption

theorem execFlitTransmit_keeps (port : Fin 14) (s : State) :
    Res.keeps true true true true (execFlitTransmit port s) s := by
  unfold execFlitTransmit
  extract_lets +onlyGivenNames v1
  clear_value v1
  extract_lets +onlyGivenNames v2
  clear_value v2
  refine Res.keeps_ite ?_ ?_
  · refine Res.keeps_next ?_
    exact .refl _
  split
  · refine Res.keeps_next ?_
    refine .trans (State.sendFlit_keeps _ _ _ _ _) ?_
    refine .trans (State.modLink_keeps _ _ _) ?_
    exact .refl _
  · refine Res.keeps_next ?_
    refine .trans (State.sendFlit_keeps _ _ _ _ _) ?_
    refine .trans (State.modLink_keeps _ _ _) ?_
    exact .refl _
  · extract_lets +onlyGivenNames v3
    have h3 : Keeps true true true true v3 s := by
      unfold v3
      refine .trans (State.sendFlit_keeps _ _ _ _ _) ?_
      exact .refl _
    clear_value v3
    refine Res.keeps_ite ?_ ?_
    · refine Res.keeps_next ?_
      assumption
    refine Res.keeps_ite ?_ ?_
    · extract_lets +onlyGivenNames v4
      have h4 : Keeps true true true true v4 s := by
        unfold v4
        refine .trans (State.modLink_keeps _ _ _) ?_
        exact .refl _
      clear_value v4
      refine Res.keeps_next ?_
      refine .trans (State.sendNew_keeps _ _ _) ?_
      assumption
    split
    · refine Res.keeps_next ?_
      refine .trans (State.sendNew_keeps _ _ _) ?_
      refine .trans (State.modLink_keeps _ _ _) ?_
      exact .refl _
    · split
      · refine Res.keeps_next ?_
        refine .trans (State.sendPacket_keeps _ _ _) ?_
        exact .refl _
      · refine Res.keeps_ite ?_ ?_
        · refine Res.keeps_next ?_
          assumption
        refine Res.keeps_next ?_
        refine .trans (State.sendNew_keeps _ _ _) ?_
        exact .refl _

theorem execFreqGateEnd_keeps (s : State) :
    Res.keeps true true true true (execFreqGateEnd s) s := by
  unfold execFreqGateEnd
  refine Res.keeps_ite ?_ ?_
  · extract_lets +onlyGivenNames v1
    have h1 : Keeps true true true true v1 s := by
      unfold v1
      refine .trans (State.advanceTo_keeps _ _) ?_
      exact .refl _
    clear_value v1
    extract_lets +onlyGivenNames v2
    clear_value v2
    extract_lets +onlyGivenNames v3
    clear_value v3
    extract_lets +onlyGivenNames v4
    have h4 : Keeps true true true true v4 s := by
      unfold v4
      refine .trans (State.modTdc_keeps _ _) ?_
      assumption
    clear_value v4
    refine Res.keeps_ite ?_ ?_
    · refine Res.keeps_next ?_
      refine .trans (State.failOp_keeps _ _ _ _) ?_
      assumption
    extract_lets +onlyGivenNames v5
    clear_value v5
    extract_lets +onlyGivenNames v6
    clear_value v6
    refine Res.keeps_next ?_
    refine .trans (State.doneWith_keeps _ _ _) ?_
    assumption
  refine Res.keeps_next ?_
  exact .refl _

theorem execFreqMeas_keeps (who : Issuer) (tag : ℕ) (s : State) :
    Res.keeps true true true true (execFreqMeas who tag s) s := by
  unfold execFreqMeas
  refine Res.keeps_next ?_
  refine .trans (State.command_keeps (m := true) (k := true) (r := true) (p := true) ?_) ?_
  · intro a1_0
    refine .ite ?_ ?_
    · refine .trans (State.rejectOp_keeps _ _ _ _ _) ?_
      exact .refl _
    refine .trans (State.modTdc_keeps _ _) ?_
    refine .trans (State.accept_keeps _ _ _) ?_
    exact .refl _
  exact .refl _

theorem execFwActivate_keeps (who : Issuer) (tag : ℕ) (s : State) :
    Res.keeps true true true true (execFwActivate who tag s) s := by
  unfold execFwActivate
  refine Res.keeps_next ?_
  refine .trans (State.command_keeps (m := true) (k := true) (r := true) (p := true) ?_) ?_
  · intro a1_0
    refine .ite ?_ ?_
    · refine .trans (State.rejectOp_keeps _ _ _ _ _) ?_
      exact .refl _
    refine .trans (State.activateHold_keeps _ _) ?_
    refine .trans (State.setUpdate_keeps _ _) ?_
    refine .trans (State.accept_keeps _ _ _) ?_
    exact .refl _
  exact .refl _

theorem State.refreshOther_keeps (s : State) :
    Keeps true true true true (State.refreshOther s) s := by
  unfold State.refreshOther
  extract_lets +onlyGivenNames v1
  clear_value v1
  extract_lets +onlyGivenNames v2
  clear_value v2
  refine .trans (State.setReg_keeps _ _ _ _) ?_
  refine .trans (State.wb_keeps _ _ _ _) ?_
  exact .refl _

theorem execFwRatchet_keeps (who : Issuer) (tag : ℕ) (s : State) :
    Res.keeps true true true true (execFwRatchet who tag s) s := by
  unfold execFwRatchet
  refine Res.keeps_next ?_
  refine .trans (State.command_keeps (m := true) (k := true) (r := true) (p := true) ?_) ?_
  · intro a1_0
    refine .ite ?_ ?_
    · refine .trans (State.rejectOp_keeps _ _ _ _ _) ?_
      exact .refl _
    extract_lets +onlyGivenNames v2
    clear_value v2
    extract_lets +onlyGivenNames v3
    have h3 : Keeps true true true true v3 s := by
      unfold v3
      refine .trans (State.wf_keeps _ _ _ _) ?_
      refine .trans (State.accept_keeps _ _ _) ?_
      exact .refl _
    clear_value v3
    extract_lets +onlyGivenNames v4
    have h4 : Keeps true true true true v4 s := by
      unfold v4
      refine .trans (State.refreshOther_keeps _) ?_
      assumption
    clear_value v4
    refine .trans (State.doneOp_keeps _ _) ?_
    refine .ite ?_ ?_
    · assumption
    refine .trans (State.setUpdate_keeps _ _) ?_
    assumption
  exact .refl _

theorem execFwWrite_keeps (who : Issuer) (tag : ℕ) (image : Option (List Byte)) (s : State) :
    Res.keeps true true true true (execFwWrite who tag image s) s := by
  unfold execFwWrite
  refine Res.keeps_next ?_
  refine .trans (State.command_keeps (m := true) (k := true) (r := true) (p := true) ?_) ?_
  · intro a1_0
    refine .ite ?_ ?_
    · refine .trans (State.rejectField_keeps _ _) ?_
      exact .refl _
    extract_lets +onlyGivenNames v2
    have h2 : Keeps true true true true v2 s := by
      unfold v2
      refine .trans (State.setUpdate_keeps _ _) ?_
      refine .trans (State.refreshOther_keeps _) ?_
      refine .trans (State.setBank_keeps _ _ _) ?_
      refine .trans (State.accept_keeps _ _ _) ?_
      exact .refl _
    clear_value v2
    split
    · refine .trans (State.failOp_keeps _ _ _ _) ?_
      refine .trans (State.setUpdate_keeps _ _) ?_
      assumption
    · refine .trans (State.modPower_keeps _ _) ?_
      assumption
  exact .refl _

theorem execFwWriteDone_keeps (ok : Bool) (s : State) :
    Res.keeps true true true true (execFwWriteDone ok s) s := by
  unfold execFwWriteDone
  split
  · refine Res.keeps_next ?_
    exact .refl _
  · refine Res.keeps_ite ?_ ?_
    · refine Res.keeps_next ?_
      exact .refl _
    extract_lets +onlyGivenNames v1
    have h1 : Keeps true true true true v1 s := by
      unfold v1
      refine .trans (State.progressTo_keeps _ _ _) ?_
      refine .trans (State.modPower_keeps _ _) ?_
      exact .refl _
    clear_value v1
    split
    · refine Res.keeps_next ?_
      refine .trans (State.doneOp_keeps _ _) ?_
      refine .trans (State.setUpdate_keeps _ _) ?_
      refine .trans (State.refreshOther_keeps _) ?_
      refine .trans (State.setBank_keeps _ _ _) ?_
      assumption
    · refine Res.keeps_next ?_
      refine .trans (State.failOp_keeps _ _ _ _) ?_
      refine .trans (State.setUpdate_keeps _ _) ?_
      assumption

theorem execGenlockLost_keeps (s : State) :
    Res.keeps true true true true (execGenlockLost s) s := by
  unfold execGenlockLost
  refine Res.keeps_ite ?_ ?_
  · refine Res.keeps_next ?_
    exact .refl _
  extract_lets +onlyGivenNames v1
  have h1 : Keeps true true true true v1 s := by
    unfold v1
    refine .trans (State.advanceTo_keeps _ _) ?_
    exact .refl _
  clear_value v1
  extract_lets +onlyGivenNames v2
  have h2 : Keeps true true true true v2 s := by
    unfold v2
    refine .congr (u := v1) ?_
    assumption
  clear_value v2
  refine Res.keeps_next ?_
  refine .trans (State.setErr_keeps _ _ _) ?_
  refine .trans (State.wf_keeps _ _ _ _) ?_
  refine .trans (State.wb_keeps _ _ _ _) ?_
  assumption

theorem State.modScan_keeps (s : State) (g : ℕ) (f : Scan → Scan) :
    Keeps true true true true (State.modScan s g f) s := by
  unfold State.modScan
  refine .congr (u := s) ?_
  exact .refl _

theorem execGenlockPulse_keeps (six : ℕ) (s : State) :
    Res.keeps true true true true (execGenlockPulse six s) s := by
  unfold execGenlockPulse
  extract_lets +onlyGivenNames v1
  have h1 : Keeps true true true true v1 s := by
    unfold v1
    refine .trans (State.advanceTo_keeps _ _) ?_
    exact .refl _
  clear_value v1
  refine Res.keeps_ite ?_ ?_
  · refine Res.keeps_next ?_
    assumption
  extract_lets +onlyGivenNames v2
  clear_value v2
  extract_lets +onlyGivenNames v3
  clear_value v3
  extract_lets +onlyGivenNames v4
  clear_value v4
  extract_lets +onlyGivenNames v5
  clear_value v5
  extract_lets +onlyGivenNames v6
  clear_value v6
  extract_lets +onlyGivenNames v7
  have h7 : Keeps true true true true v7 s := by
    unfold v7
    refine .congr (u := v1) ?_
    assumption
  clear_value v7
  extract_lets +onlyGivenNames v8
  have h8 : Keeps true true true true v8 s := by
    unfold v8
    refine .ite ?_ ?_
    · refine .trans (State.wb_keeps _ _ _ _) ?_
      assumption
    assumption
  clear_value v8
  refine Res.keeps_ite ?_ ?_
  · refine Res.keeps_next ?_
    assumption
  refine Res.keeps_ite ?_ ?_
  · extract_lets +onlyGivenNames v9
    clear_value v9
    extract_lets +onlyGivenNames v10
    have h10 : Keeps true true true true v10 s := by
      unfold v10
      refine .congr (u := v8) ?_
      assumption
    clear_value v10
    extract_lets +onlyGivenNames v11
    have h11 : Keeps true true true true v11 s := by
      unfold v11
      refine .trans (State.count_keeps _ _ _) ?_
      assumption
    clear_value v11
    extract_lets +onlyGivenNames v12
    clear_value v12
    refine Res.keeps_next ?_
    refine .trans (State.modScan_keeps _ _ _) ?_
    refine .trans (State.each_keeps (m := true) (k := true) (r := true) (p := true) ?_) ?_
    · intro a13_0 a13_1
      refine .trans (State.setOut_keeps _ _ _) ?_
      exact .refl _
    assumption
  refine Res.keeps_ite ?_ ?_
  · refine Res.keeps_next ?_
    refine .trans (State.wf_keeps _ _ _ _) ?_
    refine .congr (u := v8) ?_
    assumption
  refine Res.keeps_ite ?_ ?_
  · extract_lets +onlyGivenNames v14
    clear_value v14
    refine Res.keeps_next ?_
    refine .trans (State.wf_keeps _ _ _ _) ?_
    refine .congr (u := v8) ?_
    assumption
  refine Res.keeps_next ?_
  refine .trans (State.wf_keeps _ _ _ _) ?_
  refine .congr (u := v8) ?_
  assumption

theorem State.grtApply_keeps (s : State) (p : ℕ) (a : PendApply) (at0 : ℕ) :
    Keeps true true true true (State.grtApply s p a at0) s := by
  unfold State.grtApply
  extract_lets +onlyGivenNames v1
  clear_value v1
  extract_lets +onlyGivenNames v2
  clear_value v2
  extract_lets +onlyGivenNames v3
  have h3 : Keeps true true true true v3 s := by
    unfold v3
    refine .trans (State.mirrorGang_keeps _ _) ?_
    refine .trans (State.applyWords_keeps _ _ _) ?_
    exact .refl _
  clear_value v3
  extract_lets +onlyGivenNames v4
  have h4 : Keeps true true true true v4 s := by
    unfold v4
    refine .ite ?_ ?_
    · refine .trans (State.grtClear_keeps _ _) ?_
      assumption
    assumption
  clear_value v4
  extract_lets +onlyGivenNames v5
  have h5 : Keeps true true true true v5 s := by
    unfold v5
    refine .ite ?_ ?_
    · refine .trans (State.modGrat_keeps _ _ _) ?_
      assumption
    assumption
  clear_value v5
  refine .trans (State.refreshGrt_keeps _ _) ?_
  assumption

theorem State.grtTick_keeps (s : State) (p : ℕ) :
    Keeps true true true true (State.grtTick s p) s := by
  unfold State.grtTick
  extract_lets +onlyGivenNames v1
  clear_value v1
  extract_lets +onlyGivenNames v2
  clear_value v2
  refine .trans (State.modGrat_keeps _ _ _) ?_
  exact .refl _

theorem State.ticksTo_keeps (s : State) (p : ℕ) (six : ℕ) :
    Keeps true true true true (State.ticksTo s p six) s := by
  unfold State.ticksTo
  extract_lets +onlyGivenNames v1
  clear_value v1
  refine .ite ?_ ?_
  · refine .trans (foldl_keeps (m := true) (k := true) (r := true) (p := true) ?_) ?_
    · intro a2_0 a2_1
      refine .trans (State.grtTick_keeps _ _) ?_
      exact .refl _
    exact .refl _
  exact .refl _

theorem State.grtBoundary_keeps (s : State) (p : ℕ) :
    Keeps true true true true (State.grtBoundary s p) s := by
  unfold State.grtBoundary
  split
  · exact .refl _
  · extract_lets +onlyGivenNames v1
    clear_value v1
    extract_lets +onlyGivenNames v2
    have h2 : Keeps true true true true v2 s := by
      unfold v2
      refine .trans (State.ticksTo_keeps _ _ _) ?_
      refine .trans (State.advanceTo_keeps _ _) ?_
      exact .refl _
    clear_value v2
    extract_lets +onlyGivenNames v3
    clear_value v3
    extract_lets +onlyGivenNames v4
    clear_value v4
    extract_lets +onlyGivenNames v5
    clear_value v5
    extract_lets +onlyGivenNames v6
    clear_value v6
    extract_lets +onlyGivenNames v7
    have h7 : Keeps true true true true v7 s := by
      unfold v7
      refine .ite ?_ ?_
      · refine .trans (State.modGrat_keeps _ _ _) ?_
        refine .trans (State.count_keeps _ _ _) ?_
        assumption
      refine .trans (State.modGrat_keeps _ _ _) ?_
      assumption
    clear_value v7
    extract_lets +onlyGivenNames v8
    have h8 : Keeps true true true true v8 s := by
      unfold v8
      refine .trans (State.wf_keeps _ _ _ _) ?_
      assumption
    clear_value v8
    refine .ite ?_ ?_
    · refine .trans (State.doneOp_keeps _ _) ?_
      refine .trans (State.modGrat_keeps _ _ _) ?_
      refine .trans (State.grtClear_keeps _ _) ?_
      assumption
    assumption

theorem execGrtApply_keeps (pipe : Fin 6) (s : State) :
    Res.keeps true true true true (execGrtApply pipe s) s := by
  unfold execGrtApply
  extract_lets +onlyGivenNames v1
  clear_value v1
  extract_lets +onlyGivenNames v2
  clear_value v2
  split
  · refine Res.keeps_next ?_
    exact .refl _
  · extract_lets +onlyGivenNames v3
    extract_lets +onlyGivenNames v4
    clear_value v4
    refine Res.keeps_ite ?_ ?_
    · refine Res.keeps_next ?_
      exact .refl _
    extract_lets +onlyGivenNames v5
    have h5 : Keeps true true true true v5 s := by
      unfold v5
      refine .ite ?_ ?_
      · refine .trans (State.grtBoundary_keeps _ _) ?_
        exact .refl _
      exact .refl _
    clear_value v5
    refine Res.keeps_next ?_
    unfold v3
    refine .trans (State.endCommit_keeps _ _ _) ?_
    refine .trans (State.irqBit_keeps _ _ _) ?_
    refine .trans (State.setCfg_keeps _ _ _) ?_
    refine .trans (State.grtApply_keeps _ _ _ _) ?_
    refine .trans (State.clearPend_keeps _ _) ?_
    refine .trans (State.advanceTo_keeps _ _) ?_
    assumption

theorem execGrtFrameBoundary_keeps (pipe : Fin 6) (s : State) :
    Res.keeps true true true true (execGrtFrameBoundary pipe s) s := by
  unfold execGrtFrameBoundary
  refine Res.keeps_ite ?_ ?_
  · refine Res.keeps_next ?_
    refine .trans (State.grtBoundary_keeps _ _) ?_
    exact .refl _
  refine Res.keeps_next ?_
  exact .refl _

theorem execGrtReadoutDone_keeps (pipe : Fin 6) (s : State) :
    Res.keeps true true true true (execGrtReadoutDone pipe s) s := by
  unfold execGrtReadoutDone
  extract_lets +onlyGivenNames v1
  clear_value v1
  split
  · refine Res.keeps_next ?_
    exact .refl _
  · extract_lets +onlyGivenNames v2
    clear_value v2
    extract_lets +onlyGivenNames v3
    clear_value v3
    extract_lets +onlyGivenNames v4
    have h4 : Keeps true true true true v4 s := by
      unfold v4
      refine .trans (State.modGrat_keeps _ _ _) ?_
      exact .refl _
    clear_value v4
    refine Res.keeps_next ?_
    refine .trans (State.irqBit_keeps _ _ _) ?_
    refine .trans (State.count_keeps _ _ _) ?_
    refine .trans (State.queueRecord_keeps _ _ _ _) ?_
    assumption

theorem execGrtTick_keeps (pipe : Fin 6) (s : State) :
    Res.keeps true true true true (execGrtTick pipe s) s := by
  unfold execGrtTick
  extract_lets +onlyGivenNames v1
  clear_value v1
  refine Res.keeps_ite ?_ ?_
  · refine Res.keeps_next ?_
    exact .refl _
  refine Res.keeps_next ?_
  refine .trans (State.grtTick_keeps _ _) ?_
  refine .trans (State.advanceTo_keeps _ _) ?_
  exact .refl _

theorem execGuestOvercurrent_keeps (s : State) :
    Res.keeps true true true false (execGuestOvercurrent s) s := by
  unfold execGuestOvercurrent
  refine Res.keeps_ite ?_ ?_
  · refine Res.keeps_next ?_
    refine .trans (State.isolateRegion_keeps _ _) ?_
    refine .trans (State.domainDown_keeps _ _) ?_
    refine .trans (State.domainDown_keeps _ _) ?_
    exact .refl _
  refine Res.keeps_next ?_
  exact .refl _

theorem execHandbackCheck_keeps (delayFs : ℤ) (gainMdb : ℤ) (corrPpm : Peak) (s : State) :
    Res.keeps true true true false (execHandbackCheck delayFs gainMdb corrPpm s) s := by
  unfold execHandbackCheck
  refine Res.keeps_ite ?_ ?_
  · refine Res.keeps_next ?_
    exact .refl _
  refine Res.keeps_ite ?_ ?_
  · refine Res.keeps_next ?_
    refine .trans (State.modRot_keeps _ _) ?_
    exact .refl _
  refine Res.keeps_ite ?_ ?_
  · refine Res.keeps_next ?_
    refine .trans (State.chooseH_keeps _) ?_
    exact .refl _
  refine Res.keeps_ite ?_ ?_
  · extract_lets +onlyGivenNames v1
    have h1 : Keeps true true true false v1 s := by
      unfold v1
      refine .trans (State.faultBlock_keeps _ _ _) ?_
      exact .refl _
    clear_value v1
    refine Res.keeps_next ?_
    refine .trans (State.convFault_keeps _ _) ?_
    assumption
  refine Res.keeps_next ?_
  refine .trans (State.surveyFails_keeps _ _ _) ?_
  refine .trans (State.modRot_keeps _ _) ?_
  refine .trans (State.restoreTrims_keeps _ _) ?_
  exact .refl _

theorem State.logHandover_keeps (s : State) (h : ℕ) :
    Keeps true true true true (State.logHandover s h) s := by
  unfold State.logHandover
  refine .trans (State.logPage_keeps _ _ _ _ _ _ _) ?_
  exact .refl _

theorem State.handover_keeps (s : State) :
    Keeps true true true false (State.handover s) s := by
  unfold State.handover
  split
  · exact .refl _
  · extract_lets +onlyGivenNames v1
    have h1 : Keeps true true true false v1 s := by
      unfold v1
      refine .trans (State.advanceTo_keeps _ _) ?_
      exact .refl _
    clear_value v1
    extract_lets +onlyGivenNames v2
    clear_value v2
    extract_lets +onlyGivenNames v3
    have h3 : Keeps true true true false v3 s := by
      unfold v3
      refine .trans (State.setCarrier_keeps _ _ _ _) ?_
      assumption
    clear_value v3
    extract_lets +onlyGivenNames v4
    have h4 : Keeps true true true false v4 s := by
      unfold v4
      refine .trans (State.setSix3_keeps _ _ _ _) ?_
      assumption
    clear_value v4
    extract_lets +onlyGivenNames v5
    have h5 : Keeps true true true false v5 s := by
      unfold v5
      refine .trans (State.logHandover_keeps _ _) ?_
      refine .trans (State.irqBit_keeps _ _ _) ?_
      assumption
    clear_value v5
    extract_lets +onlyGivenNames v6
    have h6 : Keeps true true true false v6 s := by
      unfold v6
      refine .trans (State.modRot_keeps _ _) ?_
      assumption
    clear_value v6
    refine .ite ?_ ?_
    · refine .trans (State.spareDone_keeps _ _) ?_
      assumption
    refine .ite ?_ ?_
    · refine .trans (State.spareEnter_keeps _ _) ?_
      assumption
    refine .trans (State.setStale_keeps _ _ _) ?_
    assumption

theorem execHandover_keeps (s : State) :
    Res.keeps false true true false (execHandover s) s := by
  unfold execHandover
  refine Res.keeps_next ?_
  refine .trans (State.beginNext_keeps _) ?_
  refine .trans (State.handover_keeps _) ?_
  exact .refl _

theorem State.refreshDue_keeps (s : State) :
    Keeps true true true true (State.refreshDue s) s := by
  unfold State.refreshDue
  extract_lets +onlyGivenNames v1
  have h1 : Keeps true true true true v1 s := by
    unfold v1
    refine .trans (State.each_keeps (m := true) (k := true) (r := true) (p := true) ?_) ?_
    · intro a2_0 a2_1
      refine .trans (State.setReg_keeps _ _ _ _) ?_
      exact .refl _
    exact .refl _
  clear_value v1
  refine .trans (State.wf_keeps _ _ _ _) ?_
  assumption

theorem State.askMoves_keeps (s : State) (ms : List Migration) :
    Keeps false true true false (State.askMoves s ms) s := by
  unfold State.askMoves
  refine .trans (State.beginNext_keeps _) ?_
  refine .trans (State.modPhn_keeps _ _) ?_
  exact .refl _

theorem State.modRun_keeps (s : State) (f : SurveyRun → SurveyRun) :
    Keeps true true true true (State.modRun s f) s := by
  unfold State.modRun
  refine .trans (State.modSvy_keeps _ _) ?_
  exact .refl _

theorem State.stepTo_keeps (s : State) (n : ℕ) :
    Keeps true true true true (State.stepTo s n) s := by
  unfold State.stepTo
  refine .trans (State.wf_keeps _ _ _ _) ?_
  refine .trans (State.modRun_keeps _ _) ?_
  exact .refl _

theorem State.surveyRotate_keeps (s : State) (r : SurveyRun) :
    Keeps true true true true (State.surveyRotate s r) s := by
  unfold State.surveyRotate
  extract_lets +onlyGivenNames v1
  clear_value v1
  extract_lets +onlyGivenNames v2
  clear_value v2
  extract_lets +onlyGivenNames v3
  clear_value v3
  extract_lets +onlyGivenNames v4
  clear_value v4
  extract_lets +onlyGivenNames v5
  clear_value v5
  extract_lets +onlyGivenNames v6
  have h6 : Keeps true true true true v6 s := by
    unfold v6
    refine .trans (State.wb_keeps _ _ _ _) ?_
    refine .trans (State.stepTo_keeps _ _) ?_
    exact .refl _
  clear_value v6
  extract_lets +onlyGivenNames v7
  clear_value v7
  extract_lets +onlyGivenNames v8
  have h8 : Keeps true true true true v8 s := by
    unfold v8
    refine .trans (State.modRun_keeps _ _) ?_
    assumption
  clear_value v8
  extract_lets +onlyGivenNames v9
  have h9 : Keeps true true true true v9 s := by
    unfold v9
    refine .trans (State.modSvy_keeps _ _) ?_
    assumption
  clear_value v9
  refine .ite ?_ ?_
  · assumption
  refine .ite ?_ ?_
  · refine .trans (State.rotate_keeps _ _) ?_
    assumption
  refine .ite ?_ ?_
  · assumption
  extract_lets +onlyGivenNames v10
  have h10 : Keeps true true true true v10 s := by
    unfold v10
    refine .ite ?_ ?_
    · refine .trans (State.setSpareSel_keeps _ _) ?_
      assumption
    assumption
  clear_value v10
  refine .trans (State.afeSet_keeps _ _ _ _ _ _ _) ?_
  assumption

theorem State.surveyWait_keeps (s : State) (r : SurveyRun) :
    Keeps false true true false (State.surveyWait s r) s := by
  unfold State.surveyWait
  extract_lets +onlyGivenNames v1
  clear_value v1
  extract_lets +onlyGivenNames v2
  clear_value v2
  extract_lets +onlyGivenNames v3
  clear_value v3
  extract_lets +onlyGivenNames v4
  clear_value v4
  split
  · refine .trans (State.wf_keeps _ _ _ _) ?_
    refine .trans (State.modRun_keeps _ _) ?_
    exact .refl _
  · extract_lets +onlyGivenNames v5
    clear_value v5
    refine .ite ?_ ?_
    · refine .trans (State.surveyRotate_keeps _ _) ?_
      refine .trans (State.wf_keeps _ _ _ _) ?_
      refine .trans (State.modRun_keeps _ _) ?_
      exact .refl _
    refine .ite ?_ ?_
    · refine .trans (State.modRun_keeps _ _) ?_
      exact .refl _
    refine .ite ?_ ?_
    · refine .trans (State.wf_keeps _ _ _ _) ?_
      refine .trans (State.modRun_keeps _ _) ?_
      exact .refl _
    refine .trans (State.askMoves_keeps _ _) ?_
    refine .trans (State.modRun_keeps _ _) ?_
    exact .refl _

theorem State.scheduleSurvey_keeps (s : State) :
    Keeps false true true false (State.scheduleSurvey s) s := by
  unfold State.scheduleSurvey
  extract_lets +onlyGivenNames v1
  have h1 : Keeps false true true false v1 s := by
    unfold v1
    refine .trans (State.refreshDue_keeps _) ?_
    exact .refl _
  clear_value v1
  refine .ite ?_ ?_
  · assumption
  split
  · assumption
  · extract_lets +onlyGivenNames v2
    clear_value v2
    extract_lets +onlyGivenNames v3
    have h3 : Keeps false true true false v3 s := by
      unfold v3
      refine .trans (State.modSvy_keeps _ _) ?_
      assumption
    clear_value v3
    refine .trans (State.surveyWait_keeps _ _) ?_
    refine .trans (State.wf_keeps _ _ _ _) ?_
    refine .trans (State.wf_keeps _ _ _ _) ?_
    assumption

theorem execHoldExpiry_keeps (task : BitVec 32) (s : State) :
    Res.keeps false true true false (execHoldExpiry task s) s := by
  unfold execHoldExpiry
  split
  · refine Res.keeps_next ?_
    exact .refl _
  · refine Res.keeps_next ?_
    refine .trans (State.scheduleSurvey_keeps _) ?_
    refine .trans (State.endTask_keeps _ _ _ _ _) ?_
    refine .trans (State.advanceTo_keeps _ _) ?_
    exact .refl _

theorem execHoldoffEnd_keeps (pipe : Fin 6) (ev : Fin 4) (s : State) :
    Res.keeps true true true true (execHoldoffEnd pipe ev s) s := by
  unfold execHoldoffEnd
  extract_lets +onlyGivenNames v1
  clear_value v1
  extract_lets +onlyGivenNames v2
  clear_value v2
  split
  · refine Res.keeps_ite ?_ ?_
    · refine Res.keeps_next ?_
      exact .refl _
    refine Res.keeps_next ?_
    refine .trans (State.setEvent_keeps _ _ _ _) ?_
    refine .trans (State.advanceTo_keeps _ _) ?_
    exact .refl _
  · refine Res.keeps_next ?_
    exact .refl _

theorem State.enqueue_keeps (s : State) (key : ℕ) (p : TxPacket) :
    Keeps true true true true (State.enqueue s key p) s := by
  unfold State.enqueue
  refine .ite ?_ ?_
  · split
    · refine .trans (State.finishNp_keeps _ _ _ _) ?_
      exact .refl _
    · refine .ite ?_ ?_
      · refine .trans (State.count_keeps _ _ _) ?_
        exact .refl _
      exact .refl _
  refine .trans (State.modLink_keeps _ _ _) ?_
  exact .refl _

theorem execHostReadCompletion_keeps (index : Fin 65536) (ok : Bool) (bytes : List Byte) (s : State) :
    Res.keeps true true true true (execHostReadCompletion index ok bytes s) s := by
  unfold execHostReadCompletion
  split
  · refine Res.keeps_next ?_
    exact .refl _
  · extract_lets +onlyGivenNames v1
    clear_value v1
    extract_lets +onlyGivenNames v2
    clear_value v2
    extract_lets +onlyGivenNames v3
    clear_value v3
    extract_lets +onlyGivenNames v4
    have h4 : Keeps true true true true v4 s := by
      unfold v4
      refine .congr (u := s) ?_
      exact .refl _
    clear_value v4
    split
    · refine Res.keeps_next ?_
      refine .ite ?_ ?_
      · assumption
      refine .trans (State.emit_keeps _ _) ?_
      assumption
    · refine Res.keeps_next ?_
      refine .trans (State.enqueue_keeps _ _ _) ?_
      assumption

theorem execHpdChange_keeps (output : Fin 2) (level : Bool) (s : State) :
    Res.keeps true true true true (execHpdChange output level s) s := by
  unfold execHpdChange
  extract_lets +onlyGivenNames v1
  clear_value v1
  refine Res.keeps_ite ?_ ?_
  · refine Res.keeps_next ?_
    exact .refl _
  extract_lets +onlyGivenNames v2
  have h2 : Keeps true true true true v2 s := by
    unfold v2
    refine .trans (State.irqBit_keeps _ _ _) ?_
    refine .trans (State.wb_keeps _ _ _ _) ?_
    exact .refl _
  clear_value v2
  refine Res.keeps_ite ?_ ?_
  · refine Res.keeps_next ?_
    refine .ite ?_ ?_
    · refine .trans (State.setOut_keeps _ _ _) ?_
      assumption
    assumption
  refine Res.keeps_next ?_
  refine .trans (State.retireIfOff_keeps _) ?_
  extract_lets +onlyGivenNames v3
  have h3 : Keeps true true true true v3 s := by
    unfold v3
    refine .trans (State.setOut_keeps _ _ _) ?_
    assumption
  clear_value v3
  refine .congr (u := v3) ?_
  assumption

theorem execKeyClear_keeps (who : Issuer) (tag : ℕ) (s : State) :
    Res.keeps true false true true (execKeyClear who tag s) s := by
  unfold execKeyClear
  refine Res.keeps_next ?_
  refine .trans (State.command_keeps (m := true) (k := false) (r := true) (p := true) ?_) ?_
  · intro a1_0
    split
    · refine .trans (State.rejectOp_keeps _ _ _ _ _) ?_
      exact .refl _
    · extract_lets +onlyGivenNames v2
      have h2 : Keeps true false true true v2 s := by
        unfold v2
        refine .trans (State.accept_keeps _ _ _) ?_
        exact .refl _
      clear_value v2
      refine .trans (State.doneOp_keeps _ _) ?_
      refine .trans (State.refreshKeys_keeps _) ?_
      refine .congr (u := v2) ?_
      assumption
  exact .refl _

theorem execKeyExchange_keeps (who : Issuer) (tag : ℕ) (buffer : Option (List Byte)) (s : State) :
    Res.keeps true true true true (execKeyExchange who tag buffer s) s := by
  unfold execKeyExchange
  refine Res.keeps_next ?_
  refine .trans (State.command_keeps (m := true) (k := true) (r := true) (p := true) ?_) ?_
  · intro a1_0
    refine .ite ?_ ?_
    · refine .trans (State.rejectOp_keeps _ _ _ _ _) ?_
      exact .refl _
    refine .ite ?_ ?_
    · refine .trans (State.rejectField_keeps _ _) ?_
      exact .refl _
    extract_lets +onlyGivenNames v2
    have h2 : Keeps true true true true v2 s := by
      unfold v2
      refine .trans (State.accept_keeps _ _ _) ?_
      exact .refl _
    clear_value v2
    split
    · refine .trans (State.failOp_keeps _ _ _ _) ?_
      assumption
    · extract_lets +onlyGivenNames v3
      clear_value v3
      extract_lets +onlyGivenNames v4
      have h4 : Keeps true true true true v4.2 s := by
        unfold v4
        refine .trans (State.drawSecret_keeps _) ?_
        assumption
      clear_value v4
      extract_lets +onlyGivenNames v5
      have h5 : Keeps true true true true v5.2 s := by
        unfold v5
        refine .trans (State.drawSecret_keeps _) ?_
        assumption
      clear_value v5
      extract_lets +onlyGivenNames v6
      have h6 : Keeps true true true true v6.2 s := by
        unfold v6
        refine .trans (State.drawWords_keeps _ _) ?_
        assumption
      clear_value v6
      extract_lets +onlyGivenNames v7
      clear_value v7
      extract_lets +onlyGivenNames v8
      clear_value v8
      extract_lets +onlyGivenNames v9
      have h9 : Keeps true true true true v9 s := by
        unfold v9
        refine .trans (State.emit_keeps _ _) ?_
        assumption
      clear_value v9
      extract_lets +onlyGivenNames v10
      clear_value v10
      refine .trans (State.doneOp_keeps _ _) ?_
      refine .trans (State.wb_keeps _ _ _ _) ?_
      refine .trans (State.modPower_keeps _ _) ?_
      assumption
  exact .refl _

theorem execKeyLoad_keeps (who : Issuer) (tag : ℕ) (blob : Option (List Byte)) (s : State) :
    Res.keeps true false true true (execKeyLoad who tag blob s) s := by
  unfold execKeyLoad
  refine Res.keeps_next ?_
  refine .trans (State.command_keeps (m := true) (k := false) (r := true) (p := true) ?_) ?_
  · intro a1_0
    refine .ite ?_ ?_
    · refine .trans (State.rejectOp_keeps _ _ _ _ _) ?_
      exact .refl _
    split
    · refine .trans (State.rejectOp_keeps _ _ _ _ _) ?_
      exact .refl _
    · refine .trans (State.rejectOp_keeps _ _ _ _ _) ?_
      exact .refl _
    · split
      · refine .trans (State.failOp_keeps _ _ _ _) ?_
        refine .trans (State.accept_keeps _ _ _) ?_
        exact .refl _
      · split
        · refine .trans (State.rejectOp_keeps _ _ _ _ _) ?_
          exact .refl _
        · extract_lets +onlyGivenNames v2
          have h2 : Keeps true false true true v2 s := by
            unfold v2
            refine .trans (State.accept_keeps _ _ _) ?_
            exact .refl _
          clear_value v2
          extract_lets +onlyGivenNames v3
          extract_lets +onlyGivenNames v4
          have h4 : Keeps true false true true v4 s := by
            unfold v4
            refine .congr (u := v2) ?_
            assumption
          clear_value v4
          refine .trans (State.doneOp_keeps _ _) ?_
          refine .trans (State.refreshKeys_keeps _) ?_
          assumption
  exact .refl _

theorem State.loseMemory_keeps (s : State) (id : ℕ) :
    Keeps false true true false (State.loseMemory s id) s := by
  unfold State.loseMemory
  split
  · exact .refl _
  · refine .ite ?_ ?_
    · refine .trans (State.dropMemory_keeps _ _) ?_
      exact .refl _
    refine .trans (State.dropMemory_keeps _ _) ?_
    refine .trans (State.suspendTask_keeps _ _ _) ?_
    exact .refl _

theorem State.loseLayer_keeps (s : State) (m : ℕ) :
    Keeps false true true false (State.loseLayer s m) s := by
  unfold State.loseLayer
  extract_lets +onlyGivenNames v1
  clear_value v1
  refine .ite ?_ ?_
  · exact .refl _
  refine .trans (State.readmit_keeps _) ?_
  refine .trans (State.each_keeps (m := false) (k := true) (r := true) (p := false) ?_) ?_
  · intro a2_0 a2_1
    refine .trans (State.loseMemory_keeps _ _) ?_
    exact .refl _
  exact .refl _

theorem State.fillLayer_keeps (s : State) (m l slots : Nat) : Keeps false true true true (s.fillLayer m l slots) s := by
  unfold State.fillLayer
  extract_lets +onlyGivenNames lo hi keep
  have h := State.modStack_keeps s m fun k => { k with filling := some l }
  exact ⟨h.pending, fun w => Memory.wf_filter _ w, h.sixWf, h.logsWf, h.fused, nofun, h.keys, h.routes, h.phn⟩

theorem State.setSlot_keeps (s : State) (m : ℕ) (l : ℕ) (i : ℕ) (rank : ℕ) :
    Keeps true true true true (State.setSlot s m l i rank) s := by
  unfold State.setSlot
  extract_lets +onlyGivenNames v1
  clear_value v1
  refine .trans (State.setReg_keeps _ _ _ _) ?_
  exact .refl _

theorem State.removeSlot_keeps (s : State) (m : ℕ) (l : ℕ) (i : ℕ) :
    Keeps true true true true (State.removeSlot s m l i) s := by
  unfold State.removeSlot
  extract_lets +onlyGivenNames v1
  clear_value v1
  extract_lets +onlyGivenNames v2
  clear_value v2
  extract_lets +onlyGivenNames v3
  have h3 : Keeps true true true true v3 s := by
    unfold v3
    refine .trans (foldl_keeps (m := true) (k := true) (r := true) (p := true) ?_) ?_
    · intro a4_0 a4_1
      refine .trans (State.setSlot_keeps _ _ _ _ _) ?_
      exact .refl _
    exact .refl _
  clear_value v3
  refine .trans (State.setReg_keeps _ _ _ _) ?_
  assumption

theorem State.setRank_keeps (s : State) (m : ℕ) (k : ℕ) (n : ℕ) :
    Keeps true true true true (State.setRank s m k n) s := by
  unfold State.setRank
  refine .trans (State.wf_keeps _ _ _ _) ?_
  exact .refl _

theorem State.setSpare_keeps (s : State) (m : ℕ) (spare : ℕ) (donor : ℕ) (failed : ℕ) (kind : ℕ) (st : ℕ) :
    Keeps true true true true (State.setSpare s m spare donor failed kind st) s := by
  unfold State.setSpare
  extract_lets +onlyGivenNames v1
  clear_value v1
  extract_lets +onlyGivenNames v2
  have h2 : Keeps true true true true v2 s := by
    unfold v2
    refine .trans (State.modPage_keeps _ _ _) ?_
    exact .refl _
  clear_value v2
  refine .trans (State.setReg_keeps _ _ _ _) ?_
  assumption

theorem State.selectSpare_keeps (s : State) (m : ℕ) (rank : ℕ) :
    Keeps false true true true (State.selectSpare s m rank) s := by
  unfold State.selectSpare
  extract_lets +onlyGivenNames v1
  clear_value v1
  extract_lets +onlyGivenNames v2
  clear_value v2
  extract_lets +onlyGivenNames v3
  clear_value v3
  split
  · refine .trans (State.refreshMem_keeps _ _) ?_
    refine .trans (State.setRank_keeps _ _ _ _) ?_
    exact .refl _
  · extract_lets +onlyGivenNames v4
    extract_lets +onlyGivenNames v5
    clear_value v5
    extract_lets +onlyGivenNames v6
    clear_value v6
    extract_lets +onlyGivenNames v7
    clear_value v7
    extract_lets +onlyGivenNames v8
    have h8 : Keeps false true true true v8 s := by
      unfold v8
      split
      · unfold v4
        refine .trans (State.setSpare_keeps _ _ _ _ _ _ _) ?_
        exact .refl _
      · split
        · refine .trans (State.setSpare_keeps _ _ _ _ _ _ _) ?_
          exact .refl _
        · split
          · extract_lets +onlyGivenNames v11
            clear_value v11
            extract_lets +onlyGivenNames v12
            have h12 : Keeps false true true true v12 s := by
              unfold v12
              unfold v4
              refine .trans (State.setSpare_keeps _ _ _ _ _ _ _) ?_
              exact .refl _
            clear_value v12
            refine .ite ?_ ?_
            · refine .trans (State.setErr_keeps _ _ _) ?_
              refine .trans (State.wb_keeps _ _ _ _) ?_
              assumption
            assumption
          · refine .trans (State.setErr_keeps _ _ _) ?_
            refine .trans (State.setSpare_keeps _ _ _ _ _ _ _) ?_
            refine .trans (State.fillLayer_keeps _ _ _ _) ?_
            refine .trans (State.removeSlot_keeps _ _ _ _) ?_
            exact .refl _
    clear_value v8
    refine .trans (State.refreshMem_keeps _ _) ?_
    assumption

theorem State.nextRank_keeps (s : State) (m : ℕ) :
    Keeps false true true true (State.nextRank s m) s := by
  unfold State.nextRank
  split
  · refine .trans (State.refreshMem_keeps _ _) ?_
    refine .trans (State.wb_keeps _ _ _ _) ?_
    refine .trans (State.modStack_keeps _ _ _) ?_
    exact .refl _
  · refine .trans (State.selectSpare_keeps _ _ _) ?_
    refine .trans (State.modStack_keeps _ _ _) ?_
    exact .refl _

theorem execLayerFillDone_keeps (stack : Fin 4) (s : State) :
    Res.keeps false true true false (execLayerFillDone stack s) s := by
  unfold execLayerFillDone
  extract_lets +onlyGivenNames v1
  clear_value v1
  extract_lets +onlyGivenNames v2
  clear_value v2
  refine Res.keeps_ite ?_ ?_
  · refine Res.keeps_next ?_
    exact .refl _
  extract_lets +onlyGivenNames v3
  have h3 : Keeps false true true false v3 s := by
    unfold v3
    refine .trans (State.wf_keeps _ _ _ _) ?_
    refine .trans (State.setRank_keeps _ _ _ _) ?_
    exact .refl _
  clear_value v3
  extract_lets +onlyGivenNames v4
  have h4 : Keeps false true true false v4 s := by
    unfold v4
    refine .trans (State.modStack_keeps _ _ _) ?_
    assumption
  clear_value v4
  extract_lets +onlyGivenNames v5
  have h5 : Keeps false true true false v5 s := by
    unfold v5
    refine .trans (State.logPage_keeps _ _ _ _ _ _ _) ?_
    refine .trans (State.refreshMem_keeps _ _) ?_
    assumption
  clear_value v5
  refine Res.keeps_next ?_
  refine .trans (State.readmit_keeps _) ?_
  refine .trans (State.loseLayer_keeps _ _) ?_
  refine .trans (State.nextRank_keeps _ _) ?_
  assumption

theorem execLinkFault_keeps (link : Fin 7) (s : State) :
    Res.keeps true true true false (execLinkFault link s) s := by
  unfold execLinkFault
  extract_lets +onlyGivenNames v1
  clear_value v1
  extract_lets +onlyGivenNames v2
  clear_value v2
  refine Res.keeps_next ?_
  refine .trans (State.isolateRegion_keeps _ _) ?_
  refine .trans (State.linkFault_keeps _ _) ?_
  exact .refl _

theorem execLinkPowerOn_keeps (port : Fin 14) (s : State) :
    Res.keeps true true true true (execLinkPowerOn port s) s := by
  unfold execLinkPowerOn
  extract_lets +onlyGivenNames v1
  clear_value v1
  extract_lets +onlyGivenNames v2
  clear_value v2
  extract_lets +onlyGivenNames v3
  refine Res.keeps_ite ?_ ?_
  · refine Res.keeps_next ?_
    refine .trans (State.linkEnter_keeps _ _ _ _) ?_
    refine .trans (State.linkEnter_keeps _ _ _ _) ?_
    exact .refl _
  refine Res.keeps_next ?_
  exact .refl _

theorem execLinkStateTimeout_keeps (port : Fin 14) (s : State) :
    Res.keeps true true true true (execLinkStateTimeout port s) s := by
  unfold execLinkStateTimeout
  extract_lets +onlyGivenNames v1
  clear_value v1
  extract_lets +onlyGivenNames v2
  clear_value v2
  refine Res.keeps_ite ?_ ?_
  · refine Res.keeps_next ?_
    refine .trans (State.linkFault_keeps _ _) ?_
    refine .trans (State.advanceTo_keeps _ _) ?_
    exact .refl _
  refine Res.keeps_next ?_
  exact .refl _

theorem execLowrefCheck_keeps (header : List Byte) (s : State) :
    Res.keeps true true true true (execLowrefCheck header s) s := by
  unfold execLowrefCheck
  extract_lets +onlyGivenNames v1
  clear_value v1
  refine Res.keeps_ite ?_ ?_
  · refine Res.keeps_next ?_
    exact .refl _
  extract_lets +onlyGivenNames v2
  extract_lets +onlyGivenNames v3
  clear_value v3
  extract_lets +onlyGivenNames v4
  clear_value v4
  extract_lets +onlyGivenNames v5
  clear_value v5
  refine Res.keeps_ite ?_ ?_
  · refine Res.keeps_next ?_
    refine .trans (State.modScan_keeps _ _ _) ?_
    refine .trans (State.each_keeps (m := true) (k := true) (r := true) (p := true) ?_) ?_
    · intro a6_0 a6_1
      refine .trans (State.setOut_keeps _ _ _) ?_
      exact .refl _
    exact .refl _
  refine Res.keeps_next ?_
  exact .refl _

theorem State.heard_keeps (s : State) (task : ℕ) (i : ℕ) (rwnd : ℕ) :
    Keeps true true true true (State.heard s task i rwnd) s := by
  unfold State.heard
  extract_lets +onlyGivenNames v1
  clear_value v1
  refine .trans (State.modFlow_keeps _ _ _ _) ?_
  exact .refl _

theorem State.ethDrop_keeps (s : State) (i : ℕ) :
    Keeps true true true true (State.ethDrop s i) s := by
  unfold State.ethDrop
  refine .trans (State.count_keeps _ _ _) ?_
  exact .refl _

theorem State.lsaReceive_keeps {m k r p : Bool} {s : State} {i type : Nat} {b : List Byte} {f : State → Stream → StreamPort → State}
    (h : ∀ t x, Keeps m k r p (f s t x) s) : Keeps m k r p (s.lsaReceive i type b f) s := by
  have hd : Keeps m k r p (s.ethDrop i) s := Keeps.to (State.ethDrop_keeps _ _) (by cases m <;> cases k <;> cases r <;> cases p <;> rfl)
  unfold State.lsaReceive
  dsimp only
  split
  · exact hd
  · split
    · exact hd
    · exact .ite hd (.ite hd (h _ _))

theorem execLsaAccept_keeps (port : Fin 4) (payload : List Byte) (s : State) :
    Res.keeps true true true true (execLsaAccept port payload s) s := by
  unfold execLsaAccept
  refine Res.keeps_next ?_
  refine .trans (State.lsaReceive_keeps (m := true) (k := true) (r := true) (p := true) ?_) ?_
  · intro a1_0 a1_1
    extract_lets +onlyGivenNames v2
    clear_value v2
    refine .ite ?_ ?_
    · refine .trans (State.modFlow_keeps _ _ _ _) ?_
      exact .refl _
    refine .ite ?_ ?_
    · refine .trans (State.heard_keeps _ _ _ _) ?_
      exact .refl _
    exact .refl _
  exact .refl _

theorem State.sendClose_keeps (s : State) (task : ℕ) (i : ℕ) :
    Keeps true true true true (State.sendClose s task i) s := by
  unfold State.sendClose
  split
  · exact .refl _
  · refine .trans (State.sendLsa_keeps _ _ _ _ _) ?_
    exact .refl _

theorem State.closeFlow_keeps (s : State) (task : ℕ) (i : ℕ) :
    Keeps true true true true (State.closeFlow s task i) s := by
  unfold State.closeFlow
  split
  · exact .refl _
  · split
    · exact .refl _
    · refine .ite ?_ ?_
      · refine .trans (State.sendClose_keeps _ _ _) ?_
        refine .trans (State.modFlow_keeps _ _ _ _) ?_
        exact .refl _
      exact .refl _

theorem State.retransmit_keeps (s : State) (task : ℕ) (i : ℕ) (psn : ℕ) :
    Keeps true true true true (State.retransmit s task i psn) s := by
  unfold State.retransmit
  split
  · exact .refl _
  · split
    · exact .refl _
    · refine .ite ?_ ?_
      · exact .refl _
      extract_lets +onlyGivenNames v1
      have h1 : Keeps true true true true v1 s := by
        unfold v1
        refine .trans (State.count_keeps _ _ _) ?_
        refine .trans (State.emit_keeps _ _) ?_
        exact .refl _
      clear_value v1
      refine .trans (State.modFlow_keeps _ _ _ _) ?_
      assumption

theorem State.lsaAck_keeps (s : State) (task : ℕ) (i : ℕ) (cum : ℕ) (sack : ℕ) (rwnd : ℕ) :
    Keeps true true true true (State.lsaAck s task i cum sack rwnd) s := by
  unfold State.lsaAck
  split
  · exact .refl _
  · extract_lets +onlyGivenNames v1
    clear_value v1
    extract_lets +onlyGivenNames v2
    clear_value v2
    extract_lets +onlyGivenNames v3
    clear_value v3
    extract_lets +onlyGivenNames v4
    have h4 : Keeps true true true true v4 s := by
      unfold v4
      refine .trans (State.modFlow_keeps _ _ _ _) ?_
      refine .trans (State.heard_keeps _ _ _ _) ?_
      exact .refl _
    clear_value v4
    extract_lets +onlyGivenNames v5
    have h5 : Keeps true true true true v5 s := by
      unfold v5
      refine .trans (State.each_keeps (m := true) (k := true) (r := true) (p := true) ?_) ?_
      · intro a6_0 a6_1
        refine .trans (State.modRec_keeps _ _ _ _ _) ?_
        exact .refl _
      assumption
    clear_value v5
    extract_lets +onlyGivenNames v7
    have h7 : Keeps true true true true v7 s := by
      unfold v7
      refine .trans (State.each_keeps (m := true) (k := true) (r := true) (p := true) ?_) ?_
      · intro a8_0 a8_1
        refine .trans (State.retransmit_keeps _ _ _ _) ?_
        exact .refl _
      assumption
    clear_value v7
    refine .trans (State.closeFlow_keeps _ _ _) ?_
    assumption

theorem execLsaAck_keeps (port : Fin 4) (payload : List Byte) (s : State) :
    Res.keeps true true true true (execLsaAck port payload s) s := by
  unfold execLsaAck
  refine Res.keeps_next ?_
  refine .trans (State.lsaReceive_keeps (m := true) (k := true) (r := true) (p := true) ?_) ?_
  · intro a1_0 a1_1
    refine .ite ?_ ?_
    · refine .trans (State.lsaAck_keeps _ _ _ _ _ _) ?_
      refine .trans (State.count_keeps _ _ _) ?_
      exact .refl _
    exact .refl _
  exact .refl _

theorem execLsaClosed_keeps (port : Fin 4) (payload : List Byte) (s : State) :
    Res.keeps true true true false (execLsaClosed port payload s) s := by
  unfold execLsaClosed
  refine Res.keeps_next ?_
  refine .trans (State.lsaReceive_keeps (m := true) (k := true) (r := true) (p := false) ?_) ?_
  · intro a1_0 a1_1
    refine .ite ?_ ?_
    · refine .trans (State.refreshFlows_keeps _) ?_
      refine .trans (State.dropClosed_keeps _ _) ?_
      refine .trans (State.modFlow_keeps _ _ _ _) ?_
      exact .refl _
    exact .refl _
  exact .refl _

theorem execLsaDeadTimeout_keeps (task : BitVec 32) (port : Fin 4) (s : State) :
    Res.keeps true true true true (execLsaDeadTimeout task port s) s := by
  unfold execLsaDeadTimeout
  split
  · refine Res.keeps_next ?_
    exact .refl _
  · extract_lets +onlyGivenNames v1
    clear_value v1
    refine Res.keeps_ite ?_ ?_
    · extract_lets +onlyGivenNames v2
      have h2 : Keeps true true true true v2 s := by
        unfold v2
        refine .trans (State.advanceTo_keeps _ _) ?_
        exact .refl _
      clear_value v2
      extract_lets +onlyGivenNames v3
      have h3 : Keeps true true true true v3 s := by
        unfold v3
        refine .trans (State.modFlow_keeps _ _ _ _) ?_
        assumption
      clear_value v3
      refine Res.keeps_next ?_
      refine .trans (State.setErr_keeps _ _ _) ?_
      assumption
    refine Res.keeps_next ?_
    exact .refl _

theorem State.flowFailed_keeps (s : State) (task : ℕ) (port : ℕ) (code : ℕ) (sub : ℕ) :
    Keeps false true true false (State.flowFailed s task port code sub) s := by
  unfold State.flowFailed
  extract_lets +onlyGivenNames v1
  have h1 : Keeps false true true false v1 s := by
    unfold v1
    refine .trans (State.modFlow_keeps _ _ _ _) ?_
    exact .refl _
  clear_value v1
  extract_lets +onlyGivenNames v2
  have h2 : Keeps false true true false v2 s := by
    unfold v2
    refine .trans (State.failTask_keeps _ _ _ _) ?_
    assumption
  clear_value v2
  refine .trans (State.dropClosed_keeps _ _) ?_
  refine .trans (State.modPort_keeps _ _ _ _) ?_
  assumption

theorem execLsaFailTimeout_keeps (task : BitVec 32) (port : Fin 4) (s : State) :
    Res.keeps false true true false (execLsaFailTimeout task port s) s := by
  unfold execLsaFailTimeout
  split
  · refine Res.keeps_next ?_
    exact .refl _
  · extract_lets +onlyGivenNames v1
    clear_value v1
    refine Res.keeps_ite ?_ ?_
    · refine Res.keeps_next ?_
      refine .trans (State.flowFailed_keeps _ _ _ _ _) ?_
      refine .trans (State.advanceTo_keeps _ _) ?_
      exact .refl _
    refine Res.keeps_ite ?_ ?_
    · refine Res.keeps_next ?_
      refine .trans (State.refreshFlows_keeps _) ?_
      refine .trans (State.dropClosed_keeps _ _) ?_
      refine .trans (State.modFlow_keeps _ _ _ _) ?_
      refine .trans (State.advanceTo_keeps _ _) ?_
      exact .refl _
    refine Res.keeps_next ?_
    exact .refl _

theorem execLsaOpenRepeat_keeps (task : BitVec 32) (port : Fin 4) (s : State) :
    Res.keeps true true true true (execLsaOpenRepeat task port s) s := by
  unfold execLsaOpenRepeat
  split
  · refine Res.keeps_next ?_
    exact .refl _
  · refine Res.keeps_ite ?_ ?_
    · extract_lets +onlyGivenNames v1
      have h1 : Keeps true true true true v1 s := by
        unfold v1
        refine .trans (State.advanceTo_keeps _ _) ?_
        exact .refl _
      clear_value v1
      refine Res.keeps_next ?_
      refine .trans (State.sendOpen_keeps _ _ _) ?_
      refine .trans (State.modFlow_keeps _ _ _ _) ?_
      assumption
    refine Res.keeps_next ?_
    exact .refl _

theorem execLsaReset_keeps (port : Fin 4) (payload : List Byte) (s : State) :
    Res.keeps false true true false (execLsaReset port payload s) s := by
  unfold execLsaReset
  refine Res.keeps_next ?_
  refine .trans (State.lsaReceive_keeps (m := false) (k := true) (r := true) (p := false) ?_) ?_
  · intro a1_0 a1_1
    refine .trans (State.flowFailed_keeps _ _ _ _ _) ?_
    exact .refl _
  exact .refl _

theorem execLsaRtoExpiry_keeps (task : BitVec 32) (port : Fin 4) (psn : BitVec 32) (s : State) :
    Res.keeps true true true true (execLsaRtoExpiry task port psn s) s := by
  unfold execLsaRtoExpiry
  split
  · refine Res.keeps_next ?_
    exact .refl _
  · refine Res.keeps_ite ?_ ?_
    · extract_lets +onlyGivenNames v1
      have h1 : Keeps true true true true v1 s := by
        unfold v1
        refine .trans (State.advanceTo_keeps _ _) ?_
        exact .refl _
      clear_value v1
      refine Res.keeps_next ?_
      refine .trans (State.sendClose_keeps _ _ _) ?_
      refine .trans (State.modFlow_keeps _ _ _ _) ?_
      assumption
    split
    · refine Res.keeps_next ?_
      exact .refl _
    · extract_lets +onlyGivenNames v2
      have h2 : Keeps true true true true v2 s := by
        unfold v2
        refine .trans (State.retransmit_keeps _ _ _ _) ?_
        refine .trans (State.advanceTo_keeps _ _) ?_
        exact .refl _
      clear_value v2
      refine Res.keeps_next ?_
      refine .trans (State.modFlow_keeps _ _ _ _) ?_
      assumption

theorem State.setRmap_keeps (s : State) (key : ℕ) (off : ℕ) (module : ℕ) (group : ℕ) (v : ℕ) :
    Keeps true true true true (State.setRmap s key off module group v) s := by
  unfold State.setRmap
  refine .trans (State.setReg_keeps _ _ _ _) ?_
  exact .refl _

theorem State.mirrorLane_keeps (s : State) (key : ℕ) (off : ℕ) (lane : ℕ) :
    Keeps true true true true (State.mirrorLane s key off lane) s := by
  unfold State.mirrorLane
  refine .trans (State.setRmap_keeps _ _ _ _ _ _) ?_
  exact .refl _

theorem State.replaceLanes_keeps (s : State) (key : Nat) (a : List Nat) : ∀ t, s.replaceLanes key a = some t → Keeps true true true true t s := by
  induction a generalizing s with
  | nil => intro t h; cases h; exact .refl _
  | cons x rest ih =>
    intro t h
    unfold State.replaceLanes at h
    dsimp only at h
    split at h
    · exact ih _ _ h
    · split at h
      · cases h
      · exact .trans (ih _ _ h) (.trans (State.mirrorLane_keeps _ _ _ _) (State.mirrorLane_keeps _ _ _ _))

theorem execMbInitDone_keeps (port : Fin 14) (faulty : List (Fin 128)) (s : State) :
    Res.keeps true true true true (execMbInitDone port faulty s) s := by
  unfold execMbInitDone
  extract_lets +onlyGivenNames v1
  clear_value v1
  refine Res.keeps_ite ?_ ?_
  · split
    · rename_i b2_0 b2_1 b2_2
      have kb2_2 := State.replaceLanes_keeps s v1 (laneList v1 faulty) _ b2_2
      replace kb2_2 := Keeps.trans (m := true) (k := true) (r := true) (p := true) kb2_2 (s := s) (by first | exact .refl _ | assumption)
      refine Res.keeps_next ?_
      refine .trans (State.linkEnter_keeps _ _ _ _) ?_
      assumption
    · refine Res.keeps_next ?_
      refine .trans (State.linkFault_keeps _ _) ?_
      exact .refl _
  refine Res.keeps_next ?_
  exact .refl _

theorem execMbTrainDone_keeps (port : Fin 14) (s : State) :
    Res.keeps true true true true (execMbTrainDone port s) s := by
  unfold execMbTrainDone
  extract_lets +onlyGivenNames v1
  clear_value v1
  refine Res.keeps_ite ?_ ?_
  · extract_lets +onlyGivenNames v2
    clear_value v2
    extract_lets +onlyGivenNames v3
    have h3 : Keeps true true true true v3 s := by
      unfold v3
      refine .trans (State.modLink_keeps _ _ _) ?_
      exact .refl _
    clear_value v3
    extract_lets +onlyGivenNames v4
    have h4 : Keeps true true true true v4 s := by
      unfold v4
      refine .trans (State.refreshLink_keeps _ _) ?_
      refine .trans (State.setReg_keeps _ _ _ _) ?_
      assumption
    clear_value v4
    refine Res.keeps_next ?_
    refine .trans (State.linkEnter_keeps _ _ _ _) ?_
    assumption
  refine Res.keeps_next ?_
  exact .refl _

theorem execMctpMessage_keeps (msg : MctpMsg) (s : State) :
    Res.keeps false false true false (execMctpMessage msg s) s := by
  unfold execMctpMessage
  refine Res.keeps_ite ?_ ?_
  · refine Res.keeps_next ?_
    exact .refl _
  refine Res.keeps_ite ?_ ?_
  · refine Res.keeps_next ?_
    refine .trans (State.modPower_keeps _ _) ?_
    exact .refl _
  refine Res.keeps_next ?_
  refine .trans (State.answerMsg_keeps _ _) ?_
  exact .refl _

theorem execMeasure_keeps (who : Issuer) (tag : ℕ) (s : State) :
    Res.keeps true true true true (execMeasure who tag s) s := by
  unfold execMeasure
  refine Res.keeps_next ?_
  refine .trans (State.command_keeps (m := true) (k := true) (r := true) (p := true) ?_) ?_
  · intro a1_0
    extract_lets +onlyGivenNames v2
    clear_value v2
    refine .ite ?_ ?_
    · refine .trans (State.rejectOp_keeps _ _ _ _ _) ?_
      exact .refl _
    refine .trans (State.modTdc_keeps _ _) ?_
    refine .trans (State.accept_keeps _ _ _) ?_
    exact .refl _
  exact .refl _

theorem State.activate_keeps (s : State) (m : ℕ) (r : MemReq) (rank : ℕ) (w : ℕ) :
    Keeps true true true true (State.activate s m r rank w) s := by
  unfold State.activate
  extract_lets +onlyGivenNames v1
  clear_value v1
  extract_lets +onlyGivenNames v2
  clear_value v2
  refine .ite ?_ ?_
  · exact .refl _
  extract_lets +onlyGivenNames v3
  clear_value v3
  extract_lets +onlyGivenNames v4
  clear_value v4
  extract_lets +onlyGivenNames v5
  clear_value v5
  extract_lets +onlyGivenNames v6
  clear_value v6
  extract_lets +onlyGivenNames v7
  have h7 : Keeps true true true true v7 s := by
    unfold v7
    refine .trans (State.modStack_keeps _ _ _) ?_
    exact .refl _
  clear_value v7
  refine .ite ?_ ?_
  · assumption
  extract_lets +onlyGivenNames v8
  clear_value v8
  extract_lets +onlyGivenNames v9
  clear_value v9
  extract_lets +onlyGivenNames v10
  clear_value v10
  extract_lets +onlyGivenNames v11
  have h11 : Keeps true true true true v11 s := by
    unfold v11
    refine .trans (State.count_keeps _ _ _) ?_
    refine .trans (State.setReg_keeps _ _ _ _) ?_
    refine .trans (State.setReg_keeps _ _ _ _) ?_
    assumption
  clear_value v11
  extract_lets +onlyGivenNames v12
  have h12 : Keeps true true true true v12 s := by
    unfold v12
    refine .trans (State.logPage_keeps _ _ _ _ _ _ _) ?_
    refine .trans (State.setErr_keeps _ _ _) ?_
    assumption
  clear_value v12
  refine .ite ?_ ?_
  · assumption
  refine .trans (State.modStack_keeps _ _ _) ?_
  assumption

theorem State.answerReq_keeps (s : State) (m : ℕ) (r : MemReq) (bytes : List Byte) (poisoned : Bool) :
    Keeps true true true true (State.answerReq s m r bytes poisoned) s := by
  unfold State.answerReq
  extract_lets +onlyGivenNames v1
  have h1 : Keeps true true true true v1 s := by
    unfold v1
    refine .ite ?_ ?_
    · refine .trans (State.count_keeps _ _ _) ?_
      exact .refl _
    exact .refl _
  clear_value v1
  refine .trans (State.emit_keeps _ _) ?_
  assumption

theorem State.rankOut_keeps (s : State) (m : ℕ) (rank : ℕ) :
    Keeps false true true true (State.rankOut s m rank) s := by
  unfold State.rankOut
  extract_lets +onlyGivenNames v1
  clear_value v1
  extract_lets +onlyGivenNames v2
  clear_value v2
  refine .ite ?_ ?_
  · exact .refl _
  extract_lets +onlyGivenNames v3
  clear_value v3
  extract_lets +onlyGivenNames v4
  clear_value v4
  extract_lets +onlyGivenNames v5
  clear_value v5
  extract_lets +onlyGivenNames v6
  have h6 : Keeps false true true true v6 s := by
    unfold v6
    refine .trans (State.setRank_keeps _ _ _ _) ?_
    exact .refl _
  clear_value v6
  refine .ite ?_ ?_
  · refine .trans (State.selectSpare_keeps _ _ _) ?_
    assumption
  extract_lets +onlyGivenNames v7
  have h7 : Keeps false true true true v7 s := by
    unfold v7
    refine .trans (State.modStack_keeps _ _ _) ?_
    assumption
  clear_value v7
  extract_lets +onlyGivenNames v8
  have h8 : Keeps false true true true v8 s := by
    unfold v8
    refine .trans (State.wb_keeps _ _ _ _) ?_
    assumption
  clear_value v8
  refine .ite ?_ ?_
  · refine .trans (State.selectSpare_keeps _ _ _) ?_
    assumption
  refine .trans (State.refreshMem_keeps _ _) ?_
  assumption

theorem State.correctLine_keeps (s : State) (m : ℕ) (rank : ℕ) :
    Keeps false true true true (State.correctLine s m rank) s := by
  unfold State.correctLine
  extract_lets +onlyGivenNames v1
  clear_value v1
  extract_lets +onlyGivenNames v2
  clear_value v2
  extract_lets +onlyGivenNames v3
  have h3 : Keeps false true true true v3 s := by
    unfold v3
    refine .trans (State.count_keeps _ _ _) ?_
    refine .trans (State.modStack_keeps _ _ _) ?_
    exact .refl _
  clear_value v3
  extract_lets +onlyGivenNames v4
  have h4 : Keeps false true true true v4 s := by
    unfold v4
    refine .trans (State.wf_keeps _ _ _ _) ?_
    assumption
  clear_value v4
  refine .ite ?_ ?_
  · refine .trans (State.rankOut_keeps _ _ _) ?_
    refine .trans (State.setErr_keeps _ _ _) ?_
    assumption
  assumption

theorem State.errAddr_keeps (s : State) (m : ℕ) (u : ℕ) :
    Keeps true true true true (State.errAddr s m u) s := by
  unfold State.errAddr
  extract_lets +onlyGivenNames v1
  clear_value v1
  refine .trans (State.setReg_keeps _ _ _ _) ?_
  refine .trans (State.setReg_keeps _ _ _ _) ?_
  exact .refl _

theorem State.mergeLine_keeps (s : State) (u : ℕ) (bs : List (Option Byte)) :
    Keeps false true true true (State.mergeLine s u bs) s := by
  unfold State.mergeLine
  extract_lets +onlyGivenNames v1
  clear_value v1
  extract_lets +onlyGivenNames v2
  clear_value v2
  extract_lets +onlyGivenNames v3
  clear_value v3
  extract_lets +onlyGivenNames v4
  clear_value v4
  extract_lets +onlyGivenNames v5
  have h5 : Keeps false true true true v5 s := by
    unfold v5
    refine .trans (State.writeMem_keeps _ _ _) ?_
    exact .refl _
  clear_value v5
  refine .ite ?_ ?_
  · refine .trans (State.setPoison_keeps _ _ _) ?_
    assumption
  assumption

theorem State.uncorrectable_keeps (s : State) (m : ℕ) (u : ℕ) (rank : ℕ) :
    Keeps false true true true (State.uncorrectable s m u rank) s := by
  unfold State.uncorrectable
  extract_lets +onlyGivenNames v1
  clear_value v1
  refine .trans (State.rankOut_keeps _ _ _) ?_
  refine .trans (State.setErr_keeps _ _ _) ?_
  refine .trans (State.count_keeps _ _ _) ?_
  refine .trans (State.errAddr_keeps _ _ _) ?_
  refine .trans (State.setPoison_keeps _ _ _) ?_
  exact .refl _

theorem State.serve_keeps (s : State) (m : Nat) (r : MemReq) (caFails : Nat) (ecc : Nat) :
    Keeps false true true true (State.serve s m r caFails ecc) s := by
  -- unfolded as a function: the kernel then need not evaluate what the match looks at
  revert s m r caFails ecc
  suffices h : ∀ f, f = State.serve → ∀ s m r caFails ecc, Keeps false true true true (f s m r caFails ecc) s from h _ rfl
  intro f hf s m r caFails ecc
  delta State.serve at hf
  subst hf
  beta_reduce
  extract_lets +onlyGivenNames k o
  clear_value k
  generalize s.rankOf m o = x
  generalize s.layerOf m o = y
  have hole : ∀ (u : State), Keeps false true true true u s → Keeps false true true true (match r.bytes with
      | none => u.answerReq m r (List.replicate 64 0) true
      | some _ => u) s := by
    intro u hu
    split
    · exact .trans (State.answerReq_keeps _ _ _ _ _) hu
    · exact hu
  have hh : Keeps false true true true (s.holeAccess m r.addr) s := .to (State.holeAccess_keeps _ _ _)
  clear_value o
  cases x with
  | none => exact hole _ hh
  | some rank =>
    cases y with
    | none => exact hole _ hh
    | some l =>
      clear hole hh
      dsimp -zeta only
      extract_lets +onlyGivenNames w s1 s2
      have h1 : Keeps false true true true s1 s := .to (State.activate_keeps _ _ _ _ _)
      clear_value s1 w
      have h2 : Keeps false true true true s2 s := .trans (State.countBy_keeps _ _ _ _) h1
      clear_value s2
      refine .ite ?_ ?_
      · extract_lets +onlyGivenNames s3
        have h3 : Keeps false true true true s3 s := by
          unfold s3
          split
          · exact .trans (State.answerReq_keeps _ _ _ _ _) h2
          · exact .trans (State.modStack_keeps _ _ _) h2
        clear_value s3
        exact .trans (State.rankOut_keeps _ _ _) (.trans (State.setErr_keeps _ _ _) (.trans (State.errAddr_keeps _ _ _) h3))
      · split
        · extract_lets +onlyGivenNames s3
          have h3 : Keeps false true true true s3 s :=
            .ite (.trans (State.correctLine_keeps _ _ _) h2) (.ite (.trans (State.uncorrectable_keeps _ _ _ _) h2) h2)
          clear_value s3
          exact .trans (State.answerReq_keeps _ _ _ _ _) h3
        · refine .trans (State.mergeLine_keeps _ _ _) (.ite h2 ?_)
          exact .ite (.trans (State.correctLine_keeps _ _ _) h2) (.ite (.trans (State.uncorrectable_keeps _ _ _ _) h2) h2)

theorem execMemRequest_keeps (stack : Fin 4) (pc : Fin 32) (arrivals : List MemReq) (caFails : ℕ) (ecc : ℕ) (s : State) :
    Res.keeps false true true false (execMemRequest stack pc arrivals caFails ecc s) s := by
  unfold execMemRequest
  extract_lets +onlyGivenNames v1
  clear_value v1
  extract_lets +onlyGivenNames v2
  clear_value v2
  extract_lets +onlyGivenNames v3
  have h3 : Keeps false true true false v3 s := by
    unfold v3
    refine .trans (State.modStack_keeps _ _ _) ?_
    exact .refl _
  clear_value v3
  extract_lets +onlyGivenNames v4
  have h4 : Keeps false true true false v4 s := by
    unfold v4
    refine .ite ?_ ?_
    · refine .trans (State.countBy_keeps _ _ _ _) ?_
      assumption
    assumption
  clear_value v4
  extract_lets +onlyGivenNames v5
  have h5 : Keeps false true true false v5 s := by
    unfold v5
    refine .trans (State.srUpdate_keeps _ _) ?_
    assumption
  clear_value v5
  refine Res.keeps_ite ?_ ?_
  · refine Res.keeps_next ?_
    assumption
  extract_lets +onlyGivenNames v6
  clear_value v6
  extract_lets +onlyGivenNames v7
  clear_value v7
  extract_lets +onlyGivenNames v8
  clear_value v8
  extract_lets +onlyGivenNames v9
  clear_value v9
  extract_lets +onlyGivenNames v10
  have h10 : Keeps false true true false v10 s := by
    unfold v10
    refine .trans (State.modStack_keeps _ _ _) ?_
    assumption
  clear_value v10
  split
  · refine Res.keeps_next ?_
    assumption
  · extract_lets +onlyGivenNames v11
    have h11 : Keeps false true true false v11 s := by
      unfold v11
      refine .trans (State.modStack_keeps _ _ _) ?_
      assumption
    clear_value v11
    extract_lets +onlyGivenNames v12
    have h12 : Keeps false true true false v12 s := by
      unfold v12
      refine .trans (State.srUpdate_keeps _ _) ?_
      refine .trans (State.serve_keeps _ _ _ _ _) ?_
      assumption
    clear_value v12
    extract_lets +onlyGivenNames v13
    have h13 : Keeps false true true false v13 s := by
      unfold v13
      refine .ite ?_ ?_
      · assumption
      refine .trans (State.wf_keeps _ _ _ _) ?_
      assumption
    clear_value v13
    refine Res.keeps_next ?_
    refine .trans (State.loseLayer_keeps _ _) ?_
    assumption

theorem execMemTempRefresh_keeps (stack : Fin 4) (temp : BitVec 16) (s : State) :
    Res.keeps true true true true (execMemTempRefresh stack temp s) s := by
  unfold execMemTempRefresh
  extract_lets +onlyGivenNames v1
  clear_value v1
  extract_lets +onlyGivenNames v2
  clear_value v2
  extract_lets +onlyGivenNames v3
  clear_value v3
  extract_lets +onlyGivenNames v4
  have h4 : Keeps true true true true v4 s := by
    unfold v4
    refine .trans (State.wb_keeps _ _ _ _) ?_
    refine .trans (State.wf_keeps _ _ _ _) ?_
    exact .refl _
  clear_value v4
  extract_lets +onlyGivenNames v5
  clear_value v5
  refine Res.keeps_next ?_
  refine .ite ?_ ?_
  · assumption
  refine .trans (State.modStack_keeps _ _ _) ?_
  assumption

theorem execMigrationHandover_keeps (s : State) :
    Res.keeps false true true false (execMigrationHandover s) s := by
  unfold execMigrationHandover
  split
  · refine Res.keeps_next ?_
    exact .refl _
  · refine Res.keeps_ite ?_ ?_
    · refine Res.keeps_next ?_
      exact .refl _
    extract_lets +onlyGivenNames v1
    have h1 : Keeps false true true false v1 s := by
      unfold v1
      refine .trans (State.advanceTo_keeps _ _) ?_
      exact .refl _
    clear_value v1
    extract_lets +onlyGivenNames v2
    clear_value v2
    extract_lets +onlyGivenNames v3
    have h3 : Keeps false true true false v3 s := by
      unfold v3
      refine .trans (State.moveGroup_keeps _ _ _) ?_
      assumption
    clear_value v3
    refine Res.keeps_next ?_
    refine .trans (State.modPhn_keeps _ _) ?_
    assumption

theorem execMigrationRelease_keeps (s : State) :
    Res.keeps false true true false (execMigrationRelease s) s := by
  unfold execMigrationRelease
  split
  · refine Res.keeps_next ?_
    exact .refl _
  · refine Res.keeps_ite ?_ ?_
    · refine Res.keeps_next ?_
      exact .refl _
    refine Res.keeps_next ?_
    refine .trans (State.migRelease_keeps _ _) ?_
    exact .refl _

theorem execMigrationRetry_keeps (s : State) :
    Res.keeps false true true false (execMigrationRetry s) s := by
  unfold execMigrationRetry
  split
  · refine Res.keeps_next ?_
    exact .refl _
  · refine Res.keeps_ite ?_ ?_
    · refine Res.keeps_next ?_
      exact .refl _
    extract_lets +onlyGivenNames v1
    have h1 : Keeps false true true false v1 s := by
      unfold v1
      refine .trans (State.modPhn_keeps _ _) ?_
      refine .trans (State.advanceTo_keeps _ _) ?_
      exact .refl _
    clear_value v1
    split
    · refine Res.keeps_next ?_
      refine .trans (State.beginNext_keeps _) ?_
      assumption
    · refine Res.keeps_ite ?_ ?_
      · refine Res.keeps_next ?_
        refine .trans (State.modPhn_keeps _ _) ?_
        assumption
      extract_lets +onlyGivenNames v2
      clear_value v2
      split
      · refine Res.keeps_next ?_
        refine .trans (State.attempt_keeps _ _ _) ?_
        assumption
      · refine Res.keeps_next ?_
        refine .trans (State.beginNext_keeps _) ?_
        refine .trans (State.noteFailed_keeps _ _ _) ?_
        assumption

theorem State.copyNco_keeps (s : State) (src : ℕ) (dst : ℕ) :
    Keeps true true true true (State.copyNco s src dst) s := by
  unfold State.copyNco
  extract_lets +onlyGivenNames v1
  clear_value v1
  refine .trans (State.modChain_keeps _ _ _) ?_
  exact .refl _

theorem execMigrationTargetStart_keeps (s : State) :
    Res.keeps false true true false (execMigrationTargetStart s) s := by
  unfold execMigrationTargetStart
  extract_lets +onlyGivenNames v1
  have h1 : Keeps false true true false v1 s := by
    unfold v1
    refine .trans (State.beginNext_keeps _) ?_
    exact .refl _
  clear_value v1
  split
  · refine Res.keeps_next ?_
    assumption
  · refine Res.keeps_ite ?_ ?_
    · refine Res.keeps_next ?_
      assumption
    extract_lets +onlyGivenNames v2
    clear_value v2
    extract_lets +onlyGivenNames v3
    have h3 : Keeps false true true false v3 s := by
      unfold v3
      refine .trans (State.advanceTo_keeps _ _) ?_
      assumption
    clear_value v3
    extract_lets +onlyGivenNames v4
    clear_value v4
    extract_lets +onlyGivenNames v5
    have h5 : Keeps false true true false v5 s := by
      unfold v5
      refine .trans (State.loadTarget_keeps _ _) ?_
      assumption
    clear_value v5
    extract_lets +onlyGivenNames v6
    have h6 : Keeps false true true false v6 s := by
      unfold v6
      refine .trans (State.each_keeps (m := false) (k := true) (r := true) (p := false) ?_) ?_
      · intro a7_0 a7_1
        refine .ite ?_ ?_
        · refine .trans (State.copyNco_keeps _ _ _) ?_
          exact .refl _
        exact .refl _
      assumption
    clear_value v6
    refine Res.keeps_next ?_
    refine .trans (State.modPhn_keeps _ _) ?_
    assumption

theorem execMigrationVerify_keeps (same : Bool) (six : ℕ) (s : State) :
    Res.keeps false true true false (execMigrationVerify same six s) s := by
  unfold execMigrationVerify
  split
  · refine Res.keeps_next ?_
    exact .refl _
  · refine Res.keeps_ite ?_ ?_
    · refine Res.keeps_next ?_
      exact .refl _
    extract_lets +onlyGivenNames v1
    have h1 : Keeps false true true false v1 s := by
      unfold v1
      refine .trans (State.advanceTo_keeps _ _) ?_
      exact .refl _
    clear_value v1
    refine Res.keeps_ite ?_ ?_
    · refine Res.keeps_next ?_
      refine .trans (State.modPhn_keeps _ _) ?_
      assumption
    refine Res.keeps_next ?_
    refine .trans (State.migFail_keeps _ _) ?_
    assumption

theorem State.takeHead_keeps (s : State) (code : ℕ) :
    Keeps true true true false (State.takeHead s code) s := by
  unfold State.takeHead
  refine .trans (State.modPhn_keeps _ _) ?_
  exact .refl _

theorem State.evaluate_keeps {m k r : Bool} {s : State} {opcode : Nat} {e : List Byte} {f : State → State × Option Answer}
    (h : ∀ s, Keeps m k r false (f s).1 s) : Keeps m k r false (s.evaluate opcode e f) s := by
  have hm : ((!m || true) && (!k || true) && (!r || true) && (!false || false)) = true := by cases m <;> cases k <;> cases r <;> rfl
  unfold State.evaluate
  extract_lets +onlyGivenNames code known
  refine .ite (.refl _) ?_
  extract_lets +onlyGivenNames s1
  have h1 : Keeps m k r false s1 s := Keeps.to (State.takeHead_keeps _ _) hm
  clear_value s1
  have hc : ∀ t a, Keeps m k r false t s → Keeps m k r false (t.complete code (cTAG e) a) s := fun t a w => Keeps.trans (State.complete_keeps _ _ _ _) w hm
  refine .ite (hc _ _ h1) (.ite (hc _ _ h1) (.ite (hc _ _ h1) (.ite (hc _ _ h1) ?_)))
  have h2 : Keeps m k r false (f s1).1 s := Keeps.trans (h s1) h1 (by cases m <;> cases k <;> cases r <;> rfl)
  split
  · rename_i t a e2
    rw [e2] at h2
    exact hc _ _ h2
  · rename_i t e2
    rw [e2] at h2
    exact h2

theorem State.evaluateTask_keeps {m k r : Bool} {s : State} {opcode : Nat} {e : List Byte} {f : State → Task → State × Option Answer}
    (h : ∀ s t, Keeps m k r false (f s t).1 s) : Keeps m k r false (s.evaluateTask opcode e f) s := by
  unfold State.evaluateTask
  refine State.evaluate_keeps fun s => ?_
  split
  · exact .refl _
  · split
    · exact .refl _
    · exact h _ _

theorem State.evict_keeps (s : State) (gone : List Task) :
    Keeps false true true false (State.evict s gone) s := by
  unfold State.evict
  refine .trans (State.each_keeps (m := false) (k := true) (r := true) (p := false) ?_) ?_
  · intro a1_0 a1_1
    refine .trans (State.suspendTask_keeps _ _ _) ?_
    exact .refl _
  exact .refl _

end Sys2Proof.Machine
end

