-- ==== Sys2Proof/Laws/Keeps7.lean ====
section
/-! SUPPORT. What the operations and commands keep, part 7. -/

set_option Elab.async false

namespace Sys2Proof.Machine

theorem State.pendAll_keeps (s : State) (xs : List Patch) :
    Keeps true true true true (State.pendAll s xs) s := by
  unfold State.pendAll
  extract_lets +onlyGivenNames v1
  have h1 : Keeps true true true true v1 s := by
    unfold v1
    refine .trans (State.each_keeps (m := true) (k := true) (r := true) (p := true) ?_) ?_
    · intro a2_0 a2_1
      refine .trans (State.stagePatch_keeps _ _) ?_
      exact .refl _
    exact .refl _
  clear_value v1
  refine .trans (State.each_keeps (m := true) (k := true) (r := true) (p := true) ?_) ?_
  · intro a3_0 a3_1
    refine .ite ?_ ?_
    · refine .trans (State.setCfg_keeps _ _ _) ?_
      refine .trans (State.modChain_keeps _ _ _) ?_
      exact .refl _
    refine .ite ?_ ?_
    · refine .trans (State.insTargets_keeps _ _) ?_
      exact .refl _
    refine .ite ?_ ?_
    · refine .trans (State.setCfg_keeps _ _ _) ?_
      refine .trans (State.setPend_keeps _ _ _ _) ?_
      exact .refl _
    exact .refl _
  assumption

theorem State.applyInPlace_keeps (s : State) (t : Task) (y2 : Task) :
    Keeps true true true true (State.applyInPlace s t y2) s := by
  unfold State.applyInPlace
  extract_lets +onlyGivenNames v1
  clear_value v1
  refine .trans (State.pendAll_keeps _ _) ?_
  exact .refl _

theorem State.loadCoreItems_keeps (s : State) (t : Task) :
    Keeps true true true true (State.loadCoreItems s t) s := by
  unfold State.loadCoreItems
  refine .trans (State.each_keeps (m := true) (k := true) (r := true) (p := true) ?_) ?_
  · intro a1_0 a1_1
    refine .trans (State.winBytes_keeps _ _ _) ?_
    exact .refl _
  exact .refl _

theorem State.modifyHere_keeps (s : State) (t : Task) (y2 : Task) :
    Keeps false true true false (State.modifyHere s t y2) s := by
  unfold State.modifyHere
  extract_lets +onlyGivenNames v1
  clear_value v1
  extract_lets +onlyGivenNames v2
  have h2 : Keeps false true true false v2 s := by
    unfold v2
    refine .trans (State.takeRings_keeps _ _) ?_
    refine .trans (State.setTask_keeps _ _) ?_
    refine .trans (State.dropRings_keeps _ _ _) ?_
    exact .refl _
  clear_value v2
  extract_lets +onlyGivenNames v3
  have h3 : Keeps false true true false v3 s := by
    unfold v3
    refine .ite ?_ ?_
    · assumption
    refine .ite ?_ ?_
    · refine .trans (State.openStream_keeps _ _ _) ?_
      assumption
    refine .trans (State.setPorts_keeps _ _ _) ?_
    assumption
  clear_value v3
  extract_lets +onlyGivenNames v4
  have h4 : Keeps false true true false v4 s := by
    unfold v4
    refine .trans (State.refreshInputs_keeps _ _) ?_
    refine .trans (State.bumpEpoch_keeps _) ?_
    assumption
  clear_value v4
  refine .ite ?_ ?_
  · extract_lets +onlyGivenNames v5
    clear_value v5
    extract_lets +onlyGivenNames v6
    clear_value v6
    extract_lets +onlyGivenNames v7
    clear_value v7
    extract_lets +onlyGivenNames v8
    have h8 : Keeps false true true false v8 s := by
      unfold v8
      refine .trans (State.applyInPlace_keeps _ _ _) ?_
      refine .trans (State.changeMemory_keeps _ _ _ _) ?_
      assumption
    clear_value v8
    extract_lets +onlyGivenNames v9
    have h9 : Keeps false true true false v9 s := by
      unfold v9
      refine .trans (State.loadItems_keeps _ _) ?_
      assumption
    clear_value v9
    extract_lets +onlyGivenNames v10
    have h10 : Keeps false true true false v10 s := by
      unfold v10
      refine .trans (State.each_keeps (m := false) (k := true) (r := true) (p := false) ?_) ?_
      · intro a11_0 a11_1
        refine .trans (State.stopPage_keeps _ _) ?_
        exact .refl _
      assumption
    clear_value v10
    refine .trans (State.each_keeps (m := false) (k := true) (r := true) (p := false) ?_) ?_
    · intro a12_0 a12_1
      refine .trans (State.startPage_keeps _ _) ?_
      exact .refl _
    assumption
  refine .ite ?_ ?_
  · refine .trans (State.loadCoreItems_keeps _ _) ?_
    refine .trans (State.coresStart_keeps _ _) ?_
    refine .trans (State.coresRelease_keeps _ _) ?_
    assumption
  refine .ite ?_ ?_
  · refine .trans (State.stageDsp_keeps _ _ _) ?_
    assumption
  refine .ite ?_ ?_
  · refine .congr (u := v4) ?_
    assumption
  assumption

theorem State.refuse_keeps (s : State) (e : List Byte) (id : ℕ) (st : ℕ) (index : ℕ) (code : ℕ) (sub : ℕ) (d : ℕ) :
    Keeps true true true true (State.refuse s e id st index code sub d).1 s := by
  unfold State.refuse
  extract_lets +onlyGivenNames v1
  have h1 : Keeps true true true true v1.1 s := by
    unfold v1
    refine .trans (State.report_keeps _ _ _ _) ?_
    exact .refl _
  clear_value v1
  dsimp only
  assumption

theorem State.modify_keeps (s : State) (t : Task) (e : List Byte) (ext : Option (List Byte)) (image : Option (List Byte)) :
    Keeps false true true false (State.modify s t e ext image).1 s := by
  unfold State.modify
  extract_lets +onlyGivenNames v1
  clear_value v1
  extract_lets +onlyGivenNames v2
  refine .ite_fst ?_ ?_
  · unfold v2
    refine .trans (State.refuse_keeps _ _ _ _ _ _ _ _) ?_
    exact .refl _
  split
  · unfold v2
    refine .trans (State.refuse_keeps _ _ _ _ _ _ _ _) ?_
    exact .refl _
  · split
    · unfold v2
      refine .trans (State.refuse_keeps _ _ _ _ _ _ _ _) ?_
      exact .refl _
    · extract_lets +onlyGivenNames v3
      clear_value v3
      refine .ite_fst ?_ ?_
      · extract_lets +onlyGivenNames v4
        have h4 : Keeps false true true false v4 s := by
          unfold v4
          refine .trans (State.setTask_keeps _ _) ?_
          exact .refl _
        clear_value v4
        extract_lets +onlyGivenNames v5
        have h5 : Keeps false true true false v5.1 s := by
          unfold v5
          refine .trans (State.report_keeps _ _ _ _) ?_
          assumption
        clear_value v5
        dsimp only
        assumption
      extract_lets +onlyGivenNames v6
      clear_value v6
      split
      · extract_lets +onlyGivenNames v7
        have h7 : Keeps false true true false v7.1 s := by
          unfold v7
          refine .trans (State.report_keeps _ _ _ _) ?_
          exact .refl _
        clear_value v7
        dsimp only
        assumption
      · extract_lets +onlyGivenNames v8
        clear_value v8
        extract_lets +onlyGivenNames v9
        have h9 : Keeps false true true false v9 s := by
          unfold v9
          refine .trans (State.evict_keeps _ _) ?_
          exact .refl _
        clear_value v9
        refine .ite_fst ?_ ?_
        · extract_lets +onlyGivenNames v10
          clear_value v10
          extract_lets +onlyGivenNames v11
          have h11 : Keeps false true true false v11 s := by
            unfold v11
            refine .trans (State.modPhn_keeps _ _) ?_
            assumption
          clear_value v11
          dsimp only
          refine .trans (State.askMoves_keeps _ _) ?_
          assumption
        extract_lets +onlyGivenNames v12
        have h12 : Keeps false true true false v12 s := by
          unfold v12
          refine .trans (State.each_keeps (m := false) (k := true) (r := true) (p := false) ?_) ?_
          · intro a13_0 a13_1
            split
            · refine .ite ?_ ?_
              · refine .trans (State.modifyHere_keeps _ _ _) ?_
                exact .refl _
              refine .trans (State.commitPlace_keeps _ _) ?_
              refine .trans (State.dropRings_keeps _ _ _) ?_
              exact .refl _
            · exact .refl _
          assumption
        clear_value v12
        extract_lets +onlyGivenNames v14
        have h14 : Keeps false true true false v14.1 s := by
          unfold v14
          refine .trans (State.report_keeps _ _ _ _) ?_
          assumption
        clear_value v14
        dsimp only
        assumption

theorem execModify_keeps (entry : List Byte) (ext : Option (List Byte)) (image : Option (List Byte)) (s : State) :
    Res.keeps false true true false (execModify entry ext image s) s := by
  unfold execModify
  refine Res.keeps_next ?_
  refine .trans (State.evaluateTask_keeps (m := false) (k := true) (r := true)  ?_) ?_
  · intro a1_0 a1_1
    refine .trans (State.modify_keeps _ _ _ _ _) ?_
    exact .refl _
  exact .refl _

theorem State.collect_keeps (s : State) (source : ℕ) (arg0 : ℕ) (line : List Byte) (fault : Bool) :
    Keeps true true true true (State.collect s source arg0 line fault) s := by
  unfold State.collect
  refine .trans (State.log1_keeps _ _) ?_
  exact .refl _

theorem State.chanDoorbell_keeps (s : State) (c : ℕ) :
    Keeps true true true true (State.chanDoorbell s c) s := by
  unfold State.chanDoorbell
  extract_lets +onlyGivenNames v1
  clear_value v1
  refine .ite ?_ ?_
  · refine .trans (State.setErr_keeps _ _ _) ?_
    refine .trans (State.count_keeps _ _ _) ?_
    exact .refl _
  refine .ite ?_ ?_
  · refine .trans (State.setDbPend_keeps _ _ _) ?_
    refine .trans (State.modChan_keeps _ _ _) ?_
    exact .refl _
  refine .trans (State.setDbPend_keeps _ _ _) ?_
  exact .refl _

theorem State.dbIgnored_keeps (s : State) (n : ℕ) :
    Keeps true true true true (State.dbIgnored s n) s := by
  unfold State.dbIgnored
  refine .trans (State.setErr_keeps _ _ _) ?_
  refine .trans (State.count_keeps _ _ _) ?_
  refine .trans (State.modRing_keeps _ _ _) ?_
  exact .refl _

theorem State.ringDoorbell_keeps (s : State) (n : ℕ) (v : ℕ) :
    Keeps true true true true (State.ringDoorbell s n v) s := by
  unfold State.ringDoorbell
  extract_lets +onlyGivenNames v1
  clear_value v1
  refine .ite ?_ ?_
  · refine .trans (State.dbIgnored_keeps _ _) ?_
    exact .refl _
  refine .ite ?_ ?_
  · refine .ite ?_ ?_
    · refine .trans (State.dbIgnored_keeps _ _) ?_
      exact .refl _
    extract_lets +onlyGivenNames v2
    clear_value v2
    refine .trans (State.modRing_keeps _ _ _) ?_
    exact .refl _
  extract_lets +onlyGivenNames v3
  clear_value v3
  refine .ite ?_ ?_
  · refine .trans (State.dbIgnored_keeps _ _) ?_
    exact .refl _
  refine .trans (State.modRing_keeps _ _ _) ?_
  exact .refl _

theorem State.flushList_keeps (s : State) (a : List (Nat × Notice)) : Keeps true true true false (s.flushList a) s := by
  induction a generalizing s with
  | nil => exact .refl _
  | cons x rest ih =>
    obtain ⟨k, n⟩ := x
    unfold State.flushList
    split
    · exact .trans (ih _) (.trans (State.putNotice_keeps _ _) (.to (State.modPhn_keeps _ _)))
    · exact .refl _

theorem State.flushNotices_keeps (s : State) :
    Keeps true true true false (State.flushNotices s) s := by
  unfold State.flushNotices
  refine .trans (State.flushList_keeps _ _) ?_
  exact .refl _

theorem execPhnCqDoorbell_keeps (count : BitVec 64) (s : State) :
    Res.keeps true true true false (execPhnCqDoorbell count s) s := by
  unfold execPhnCqDoorbell
  extract_lets +onlyGivenNames v1
  clear_value v1
  refine Res.keeps_ite ?_ ?_
  · refine Res.keeps_next ?_
    exact .refl _
  refine Res.keeps_ite ?_ ?_
  · refine Res.keeps_next ?_
    refine .trans (State.setErr_keeps _ _ _) ?_
    exact .refl _
  refine Res.keeps_next ?_
  refine .trans (State.flushNotices_keeps _) ?_
  refine .trans (State.modPhn_keeps _ _) ?_
  exact .refl _

theorem execPhnDoorbell_keeps (count : BitVec 64) (readOk : Bool) (s : State) :
    Res.keeps true true true false (execPhnDoorbell count readOk s) s := by
  unfold execPhnDoorbell
  extract_lets +onlyGivenNames v1
  refine Res.keeps_ite ?_ ?_
  · refine Res.keeps_next ?_
    exact .refl _
  refine Res.keeps_ite ?_ ?_
  · refine Res.keeps_next ?_
    refine .trans (State.setErr_keeps _ _ _) ?_
    exact .refl _
  extract_lets +onlyGivenNames v2
  have h2 : Keeps true true true false v2 s := by
    unfold v2
    refine .trans (State.modPhn_keeps _ _) ?_
    exact .refl _
  clear_value v2
  refine Res.keeps_next ?_
  refine .ite ?_ ?_
  · assumption
  refine .trans (State.closeRings_keeps _) ?_
  refine .trans (State.setErr_keeps _ _ _) ?_
  assumption

theorem execRingDoorbell_keeps (ring : Fin 32768) (value : BitVec 64) (s : State) :
    Res.keeps true true true false (execRingDoorbell ring value s) s := by
  unfold execRingDoorbell
  refine Res.keeps_ite ?_ ?_
  · refine Res.keeps_trans (execPhnDoorbell_keeps _ _ _) ?_
    exact .refl _
  refine Res.keeps_ite ?_ ?_
  · refine Res.keeps_trans (execPhnCqDoorbell_keeps _ _) ?_
    exact .refl _
  refine Res.keeps_ite ?_ ?_
  · refine Res.keeps_next ?_
    refine .trans (State.logDiscard_keeps _ _ _ _ _) ?_
    exact .refl _
  refine Res.keeps_next ?_
  refine .trans (State.ringDoorbell_keeps _ _ _) ?_
  exact .refl _

theorem execTrvDoorbell_keeps (chan : Fin 512) (value : BitVec 64) (s : State) :
    Res.keeps true true true true (execTrvDoorbell chan value s) s := by
  unfold execTrvDoorbell
  extract_lets +onlyGivenNames v1
  clear_value v1
  refine Res.keeps_ite ?_ ?_
  · refine Res.keeps_next ?_
    refine .trans (State.chanDoorbell_keeps _ _) ?_
    exact .refl _
  refine Res.keeps_next ?_
  refine .trans (State.logDiscard_keeps _ _ _ _ _) ?_
  exact .refl _

theorem State.msgDoorbell_keeps (s : State) (source : ℕ) (arg0 : ℕ) :
    Keeps true true true false (State.msgDoorbell s source arg0) s := by
  unfold State.msgDoorbell
  extract_lets +onlyGivenNames v1
  clear_value v1
  refine .ite ?_ ?_
  · extract_lets +onlyGivenNames v2
    clear_value v2
    refine .ite ?_ ?_
    · exact orStay_keeps (execRingDoorbell_keeps _ _ _)
    refine .trans (State.ringDoorbell_keeps _ _ _) ?_
    exact .refl _
  extract_lets +onlyGivenNames v3
  clear_value v3
  refine .ite ?_ ?_
  · exact orStay_keeps (execTrvDoorbell_keeps _ _ _)
  refine .ite ?_ ?_
  · exact .refl _
  refine .trans (State.chanDoorbell_keeps _ _) ?_
  exact .refl _

theorem State.msgIntr_keeps (s : State) (arg0 : ℕ) :
    Keeps true true true true (State.msgIntr s arg0) s := by
  unfold State.msgIntr
  refine .ite ?_ ?_
  · exact .refl _
  refine .trans (State.pageMessage_keeps _ _) ?_
  exact .refl _

theorem State.msgLtr_keeps (s : State) (region : ℕ) (source : ℕ) (arg0 : ℕ) :
    Keeps true true true true (State.msgLtr s region source arg0) s := by
  unfold State.msgLtr
  refine .ite ?_ ?_
  · refine .trans (State.reportLtr_keeps _ _ _ _) ?_
    refine .trans (State.reportLtr_keeps _ _ _ _) ?_
    exact .refl _
  exact .refl _

theorem State.message_keeps (s : State) (region : ℕ) (source : ℕ) (code : ℕ) (arg0 : ℕ) (line : List Byte) :
    Keeps true true true false (State.message s region source code arg0 line) s := by
  unfold State.message
  refine .ite ?_ ?_
  · refine .trans (State.msgDoorbell_keeps _ _ _) ?_
    exact .refl _
  refine .ite ?_ ?_
  · refine .trans (State.msgIntr_keeps _ _) ?_
    exact .refl _
  refine .ite ?_ ?_
  · refine .trans (State.collect_keeps _ _ _ _ _) ?_
    exact .refl _
  refine .ite ?_ ?_
  · refine .trans (State.collect_keeps _ _ _ _ _) ?_
    exact .refl _
  refine .ite ?_ ?_
  · refine .trans (State.fenceRegion_keeps _ _) ?_
    exact .refl _
  refine .ite ?_ ?_
  · refine .trans (State.msgLtr_keeps _ _ _ _) ?_
    exact .refl _
  exact .refl _

theorem execMsgDoorbell_keeps (source : BitVec 16) (arg0 : BitVec 64) (s : State) :
    Res.keeps true true true false (execMsgDoorbell source arg0 s) s := by
  unfold execMsgDoorbell
  refine Res.keeps_next ?_
  refine .trans (State.message_keeps _ _ _ _ _ _) ?_
  exact .refl _

theorem execMsgEvent_keeps (source : BitVec 16) (arg0 : BitVec 64) (line : List Byte) (s : State) :
    Res.keeps true true true false (execMsgEvent source arg0 line s) s := by
  unfold execMsgEvent
  refine Res.keeps_next ?_
  refine .trans (State.message_keeps _ _ _ _ _ _) ?_
  exact .refl _

theorem execMsgFault_keeps (source : BitVec 16) (arg0 : BitVec 64) (line : List Byte) (s : State) :
    Res.keeps true true true false (execMsgFault source arg0 line s) s := by
  unfold execMsgFault
  refine Res.keeps_next ?_
  refine .trans (State.message_keeps _ _ _ _ _ _) ?_
  exact .refl _

theorem execMsgFence_keeps (source : BitVec 16) (arg0 : BitVec 64) (s : State) :
    Res.keeps true true true false (execMsgFence source arg0 s) s := by
  unfold execMsgFence
  refine Res.keeps_next ?_
  refine .trans (State.message_keeps _ _ _ _ _ _) ?_
  exact .refl _

theorem execMsgIntr_keeps (source : BitVec 16) (arg0 : BitVec 64) (s : State) :
    Res.keeps true true true false (execMsgIntr source arg0 s) s := by
  unfold execMsgIntr
  refine Res.keeps_next ?_
  refine .trans (State.message_keeps _ _ _ _ _ _) ?_
  exact .refl _

theorem execMsgLtr_keeps (region : Fin 8) (source : BitVec 16) (arg0 : BitVec 64) (s : State) :
    Res.keeps true true true false (execMsgLtr region source arg0 s) s := by
  unfold execMsgLtr
  refine Res.keeps_next ?_
  refine .trans (State.message_keeps _ _ _ _ _ _) ?_
  exact .refl _

theorem State.commitBoot_keeps (s : State) (b : Bool) : Keeps true true true true (s.commitBoot b) s := by
  unfold State.commitBoot
  extract_lets +onlyGivenNames sa sb r
  clear_value r
  refine State.modPower_keeps s _ ?_
  by_cases h : sa ≤ sb
  · rw [if_pos h]
  · rw [if_neg h]

theorem State.loadPhnVer_keeps (s : State) :
    Keeps true true true true (State.loadPhnVer s) s := by
  unfold State.loadPhnVer
  refine .trans (State.setReg_keeps _ _ _ _) ?_
  exact .refl _

theorem State.runImage_keeps (s : State) (b : Bool) (fallback : Bool) :
    Keeps true true true true (State.runImage s b fallback) s := by
  unfold State.runImage
  extract_lets +onlyGivenNames v1
  clear_value v1
  extract_lets +onlyGivenNames v2
  have h2 : Keeps true true true true v2 s := by
    unfold v2
    refine .trans (State.wb_keeps _ _ _ _) ?_
    refine .trans (State.wb_keeps _ _ _ _) ?_
    refine .trans (State.wf_keeps _ _ _ _) ?_
    exact .refl _
  clear_value v2
  refine .trans (State.refreshOther_keeps _) ?_
  refine .trans (State.setReg_keeps _ _ _ _) ?_
  assumption

theorem execNewImageTakeover_keeps (s : State) :
    Res.keeps false true true false (execNewImageTakeover s) s := by
  unfold execNewImageTakeover
  refine Res.keeps_ite ?_ ?_
  · refine Res.keeps_next ?_
    exact .refl _
  extract_lets +onlyGivenNames v1
  have h1 : Keeps false true true false v1 s := by
    unfold v1
    refine .trans (State.commitBoot_keeps _ _) ?_
    refine .trans (State.loadPhnVer_keeps _) ?_
    refine .trans (State.runImage_keeps _ _ _) ?_
    exact .refl _
  clear_value v1
  extract_lets +onlyGivenNames v2
  have h2 : Keeps false true true false v2 s := by
    unfold v2
    refine .trans (State.logPage_keeps _ _ _ _ _ _ _) ?_
    refine .trans (State.logSecurity_keeps _) ?_
    assumption
  clear_value v2
  refine Res.keeps_next ?_
  refine .trans (State.activateEnd_keeps (m := false) (k := true) (r := true)  ?_) ?_
  · intro a3_0
    refine .trans (State.doneOp_keeps _ _) ?_
    exact .refl _
  assumption

theorem execNoFlitTimeout_keeps (port : Fin 14) (s : State) :
    Res.keeps true true true true (execNoFlitTimeout port s) s := by
  unfold execNoFlitTimeout
  extract_lets +onlyGivenNames v1
  clear_value v1
  refine Res.keeps_ite ?_ ?_
  · refine Res.keeps_next ?_
    refine .trans (State.retrain_keeps _ _) ?_
    refine .trans (State.advanceTo_keeps _ _) ?_
    exact .refl _
  refine Res.keeps_next ?_
  exact .refl _

theorem State.logFree_keeps (s : State) (source : ℕ) (key : ℕ) (detail : ℕ) :
    Keeps true true true true (State.logFree s source key detail) s := by
  unfold State.logFree
  extract_lets +onlyGivenNames v1
  have h1 : Keeps true true true true v1.2 s := by
    unfold v1
    refine .trans (State.drawNat_keeps _) ?_
    exact .refl _
  clear_value v1
  refine .trans (State.log1_keeps _ _) ?_
  assumption

theorem execNpTimeout_keeps (port : Fin 14) (tag : Fin 4096) (source : BitVec 16) (space : Fin 4) (addr : BitVec 64) (s : State) :
    Res.keeps true true true true (execNpTimeout port tag source space addr s) s := by
  unfold execNpTimeout
  extract_lets +onlyGivenNames v1
  clear_value v1
  extract_lets +onlyGivenNames v2
  clear_value v2
  extract_lets +onlyGivenNames v3
  clear_value v3
  extract_lets +onlyGivenNames v4
  clear_value v4
  refine Res.keeps_ite ?_ ?_
  · refine Res.keeps_next ?_
    exact .refl _
  extract_lets +onlyGivenNames v5
  have h5 : Keeps true true true true v5 s := by
    unfold v5
    refine .trans (State.advanceTo_keeps _ _) ?_
    exact .refl _
  clear_value v5
  extract_lets +onlyGivenNames v6
  have h6 : Keeps true true true true v6 s := by
    unfold v6
    refine .trans (State.modLink_keeps _ _ _) ?_
    assumption
  clear_value v6
  extract_lets +onlyGivenNames v7
  have h7 : Keeps true true true true v7 s := by
    unfold v7
    refine .trans (State.setErr_keeps _ _ _) ?_
    refine .trans (State.count_keeps _ _ _) ?_
    refine .trans (State.refreshLink_keeps _ _) ?_
    assumption
  clear_value v7
  extract_lets +onlyGivenNames v8
  have h8 : Keeps true true true true v8 s := by
    unfold v8
    refine .trans (State.logFree_keeps _ _ _ _) ?_
    assumption
  clear_value v8
  refine Res.keeps_next ?_
  refine .trans (State.emit_keeps _ _) ?_
  assumption

theorem State.driveFailed_keeps (s : State) (d : ℕ) :
    Keeps false true true false (State.driveFailed s d) s := by
  unfold State.driveFailed
  extract_lets +onlyGivenNames v1
  have h1 : Keeps false true true false v1 s := by
    unfold v1
    refine .trans (State.irqBit_keeps _ _ _) ?_
    refine .trans (State.setErr_keeps _ _ _) ?_
    refine .trans (State.nviMark_keeps _ _ _ _) ?_
    exact .refl _
  clear_value v1
  extract_lets +onlyGivenNames v2
  have h2 : Keeps false true true false v2 s := by
    unfold v2
    refine .congr (u := v1) ?_
    assumption
  clear_value v2
  refine .trans (State.refreshDrive_keeps _ _) ?_
  refine .trans (State.each_keeps (m := false) (k := true) (r := true) (p := false) ?_) ?_
  · intro a3_0 a3_1
    split
    · refine .ite ?_ ?_
      · extract_lets +onlyGivenNames v4
        have h4 : Keeps false true true false v4 a3_0 := by
          unfold v4
          refine .trans (State.failTask_keeps _ _ _ _) ?_
          exact .refl _
        clear_value v4
        refine .trans (State.dropClosed_keeps _ _) ?_
        refine .trans (State.modStream_keeps _ _ _) ?_
        assumption
      refine .trans (State.leaveSet_keeps _ _ _) ?_
      exact .refl _
    · exact .refl _
  assumption

theorem State.writeFailed_keeps (s : State) (w : NvmeWrite) :
    Keeps false true true false (State.writeFailed s w) s := by
  unfold State.writeFailed
  extract_lets +onlyGivenNames v1
  have h1 : Keeps false true true false v1 s := by
    unfold v1
    refine .trans (State.setReg_keeps _ _ _ _) ?_
    exact .refl _
  clear_value v1
  extract_lets +onlyGivenNames v2
  have h2 : Keeps false true true false v2 s := by
    unfold v2
    refine .trans (State.setErr_keeps _ _ _) ?_
    assumption
  clear_value v2
  refine .ite ?_ ?_
  · refine .trans (State.driveFailed_keeps _ _) ?_
    assumption
  split
  · rename_i b3_0 b3_1 b3_2 b3_3
    have kb3_3 := State.nvmeIssue_keeps v2 (w.drive) (1) (w.block) (w.bytes.length / 4096) (w.slot) _ b3_3
    replace kb3_3 := Keeps.trans (m := false) (k := true) (r := true) (p := false) kb3_3 (s := s) (by first | exact .refl _ | assumption)
    refine .congr (u := b3_2) ?_
    assumption
  · refine .congr (u := v2) ?_
    assumption

theorem execNvmeCompletion_keeps (slot : Fin 1008) (ok : Bool) (s : State) :
    Res.keeps false true true false (execNvmeCompletion slot ok s) s := by
  unfold execNvmeCompletion
  split
  · refine Res.keeps_next ?_
    exact .refl _
  · refine Res.keeps_ite ?_ ?_
    · refine Res.keeps_next ?_
      exact .refl _
    extract_lets +onlyGivenNames v1
    clear_value v1
    extract_lets +onlyGivenNames v2
    have h2 : Keeps false true true false v2 s := by
      unfold v2
      split
      · split
        · extract_lets +onlyGivenNames v4
          clear_value v4
          refine .trans (State.emit_keeps _ _) ?_
          refine .trans (State.modDrive_keeps _ _ _) ?_
          exact .refl _
        · exact .refl _
      · exact .refl _
    clear_value v2
    refine Res.keeps_ite ?_ ?_
    · extract_lets +onlyGivenNames v6
      have h6 : Keeps false true true false v6 s := by
        unfold v6
        refine .congr (u := v2) ?_
        assumption
      clear_value v6
      extract_lets +onlyGivenNames v7
      have h7 : Keeps false true true false v7 s := by
        unfold v7
        refine .trans (State.each_keeps (m := false) (k := true) (r := true) (p := false) ?_) ?_
        · intro a8_0 a8_1
          refine .trans (State.modRec_keeps _ _ _ _ _) ?_
          exact .refl _
        assumption
      clear_value v7
      refine Res.keeps_next ?_
      refine .trans (State.refreshDrive_keeps _ _) ?_
      refine .trans (State.reissueHeld_keeps _ _) ?_
      assumption
    refine Res.keeps_next ?_
    refine .trans (State.writeFailed_keeps _ _) ?_
    assumption

theorem execNvmeWriteTimeout_keeps (slot : Fin 1008) (s : State) :
    Res.keeps false true true false (execNvmeWriteTimeout slot s) s := by
  unfold execNvmeWriteTimeout
  split
  · refine Res.keeps_next ?_
    exact .refl _
  · refine Res.keeps_ite ?_ ?_
    · refine Res.keeps_next ?_
      exact .refl _
    refine Res.keeps_next ?_
    refine .trans (State.writeFailed_keeps _ _) ?_
    refine .trans (State.advanceTo_keeps _ _) ?_
    exact .refl _

theorem execOpenRings_keeps (who : Issuer) (tag : ℕ) (s : State) :
    Res.keeps true true true false (execOpenRings who tag s) s := by
  unfold execOpenRings
  refine Res.keeps_next ?_
  refine .trans (State.command_keeps (m := true) (k := true) (r := true) (p := false) ?_) ?_
  · intro a1_0
    refine .ite ?_ ?_
    · refine .trans (State.rejectOp_keeps _ _ _ _ _) ?_
      exact .refl _
    refine .ite ?_ ?_
    · refine .trans (State.rejectOp_keeps _ _ _ _ _) ?_
      exact .refl _
    extract_lets +onlyGivenNames v2
    have h2 : Keeps true true true false v2 s := by
      unfold v2
      refine .trans (State.wb_keeps _ _ _ _) ?_
      refine .trans (State.accept_keeps _ _ _) ?_
      exact .refl _
    clear_value v2
    extract_lets +onlyGivenNames v3
    clear_value v3
    extract_lets +onlyGivenNames v4
    clear_value v4
    extract_lets +onlyGivenNames v5
    have h5 : Keeps true true true false v5 s := by
      unfold v5
      refine .trans (State.modPhn_keeps _ _) ?_
      assumption
    clear_value v5
    refine .trans (State.doneOp_keeps _ _) ?_
    refine .trans (State.flushNotices_keeps _) ?_
    assumption
  exact .refl _

theorem execOverload_keeps (conv : Fin 5) (level : ℤ) (heldNs : ℕ) (six : ℕ) (s : State) :
    Res.keeps true true true true (execOverload conv level heldNs six s) s := by
  unfold execOverload
  refine Res.keeps_ite ?_ ?_
  · refine Res.keeps_next ?_
    exact .refl _
  refine Res.keeps_next ?_
  refine .trans (State.overloadStep_keeps _ _ _) ?_
  refine .trans (State.advanceTo_keeps _ _) ?_
  exact .refl _

theorem State.pfAnnounce_keeps (s : State) (cause : ℕ) :
    Keeps true true true true (State.pfAnnounce s cause) s := by
  unfold State.pfAnnounce
  extract_lets +onlyGivenNames v1
  have h1 : Keeps true true true true v1 s := by
    unfold v1
    refine .trans (State.wb_keeps _ _ _ _) ?_
    refine .trans (State.wb_keeps _ _ _ _) ?_
    exact .refl _
  clear_value v1
  refine .trans (State.logPower_keeps _ _ _) ?_
  refine .trans (State.irqBit_keeps _ _ _) ?_
  assumption

theorem State.storePowerFail_keeps (s : State) :
    Keeps true true true true (State.storePowerFail s) s := by
  unfold State.storePowerFail
  refine .ite ?_ ?_
  · exact .refl _
  extract_lets +onlyGivenNames v1
  have h1 : Keeps true true true true v1.2 s := by
    unfold v1
    refine .trans (State.drawNat_keeps _) ?_
    exact .refl _
  clear_value v1
  refine .ite ?_ ?_
  · refine .trans (State.storeEnd_keeps _ _ _) ?_
    assumption
  refine .trans (State.wb_keeps _ _ _ _) ?_
  refine .trans (State.modSvy_keeps _ _) ?_
  refine .trans (State.setArea_keeps _ _ _) ?_
  assumption

theorem State.pfFlash_keeps (s : State) (cause : ℕ) (last : ℕ) :
    Keeps true true true true (State.pfFlash s cause last) s := by
  unfold State.pfFlash
  extract_lets +onlyGivenNames v1
  clear_value v1
  extract_lets +onlyGivenNames v2
  have h2 : Keeps true true true true v2 s := by
    unfold v2
    refine .ite ?_ ?_
    · refine .trans (State.setBank_keeps _ _ _) ?_
      exact .refl _
    exact .refl _
  clear_value v2
  refine .ite ?_ ?_
  · refine .trans (State.wf_keeps _ _ _ _) ?_
    refine .trans (State.wf_keeps _ _ _ _) ?_
    refine .trans (State.storePowerFail_keeps _) ?_
    assumption
  refine .ite ?_ ?_
  · assumption
  refine .trans (State.setArea_keeps _ _ _) ?_
  assumption

theorem State.stopCapture_keeps (s : State) :
    Keeps false true true true (State.stopCapture s) s := by
  unfold State.stopCapture
  refine .trans (State.each_keeps (m := false) (k := true) (r := true) (p := true) ?_) ?_
  · intro a1_0 a1_1
    refine .trans (State.capPause_keeps _ _ _) ?_
    exact .refl _
  exact .refl _

theorem State.powerFail_keeps (s : State) (cause : ℕ) (last : ℕ) :
    Keeps false true false false (State.powerFail s cause last) s := by
  unfold State.powerFail
  refine .ite ?_ ?_
  · exact .refl _
  extract_lets +onlyGivenNames v1
  have h1 : Keeps false true false false v1 s := by
    unfold v1
    refine .ite ?_ ?_
    · refine .trans (State.pfAnnounce_keeps _ _) ?_
      exact .refl _
    exact .refl _
  clear_value v1
  extract_lets +onlyGivenNames v2
  have h2 : Keeps false true false false v2 s := by
    unfold v2
    refine .ite ?_ ?_
    · refine .trans (State.stopCapture_keeps _) ?_
      assumption
    assumption
  clear_value v2
  extract_lets +onlyGivenNames v3
  have h3 : Keeps false true false false v3 s := by
    unfold v3
    refine .ite ?_ ?_
    · refine .trans (State.closeAll_keeps _ _ _) ?_
      assumption
    assumption
  clear_value v3
  extract_lets +onlyGivenNames v4
  have h4 : Keeps false true false false v4 s := by
    unfold v4
    refine .trans (State.pfFlash_keeps _ _ _) ?_
    assumption
  clear_value v4
  refine .trans (State.goOff_keeps _) ?_
  refine .trans (State.modPower_keeps _ _) ?_
  assumption

theorem execOvervoltage_keeps (last : Fin 8) (s : State) :
    Res.keeps false true false false (execOvervoltage last s) s := by
  unfold execOvervoltage
  refine Res.keeps_next ?_
  refine .trans (State.powerFail_keeps _ _ _) ?_
  exact .refl _

theorem State.forward_keeps (s : State) (key : ℕ) (out : ℕ) (y3 : ℕ) (b : List Byte) :
    Keeps true true true true (State.forward s key out y3 b) s := by
  unfold State.forward
  refine .trans (State.enqueue_keeps _ _ _) ?_
  exact .refl _

theorem State.answerNp_keeps (s : State) (key : ℕ) (b : List Byte) (completer : ℕ) (status : ℕ) (poisoned : Bool) (data : List Byte) :
    Keeps true true true true (State.answerNp s key b completer status poisoned data) s := by
  unfold State.answerNp
  refine .trans (State.enqueue_keeps _ _ _) ?_
  exact .refl _

theorem State.refuseNp_keeps (s : State) (key : ℕ) (b : List Byte) (status : ℕ) :
    Keeps true true true true (State.refuseNp s key b status) s := by
  unfold State.refuseNp
  refine .trans (State.answerNp_keeps _ _ _ _ _ _ _) ?_
  exact .refl _

theorem State.remoteWrite_keeps (s : State) (b : List Byte) :
    Keeps false true true false (State.remoteWrite s b) s := by
  unfold State.remoteWrite
  extract_lets +onlyGivenNames v1
  clear_value v1
  extract_lets +onlyGivenNames v2
  clear_value v2
  extract_lets +onlyGivenNames v3
  clear_value v3
  extract_lets +onlyGivenNames v4
  clear_value v4
  extract_lets +onlyGivenNames v5
  clear_value v5
  refine .ite ?_ ?_
  · extract_lets +onlyGivenNames v6
    clear_value v6
    extract_lets +onlyGivenNames v7
    clear_value v7
    refine .trans (State.writeReg_keeps _ _ _ _ _ _) ?_
    exact .refl _
  exact orStay_keeps (execWindowWrite_keeps _ _ _ _ _)

theorem State.writeLines_keeps (s : State) (b : List Byte) :
    Keeps false true true true (State.writeLines s b) s := by
  unfold State.writeLines
  refine .trans (State.each_keeps (m := false) (k := true) (r := true) (p := true) ?_) ?_
  · intro a1_0 a1_1
    extract_lets +onlyGivenNames v2
    clear_value v2
    refine .ite ?_ ?_
    · exact .refl _
    refine .ite ?_ ?_
    · extract_lets +onlyGivenNames v3
      have h3 : Keeps false true true true v3 a1_0 := by
        unfold v3
        refine .trans (State.mergeLine_keeps _ _ _) ?_
        exact .refl _
      clear_value v3
      refine .ite ?_ ?_
      · refine .trans (State.setPoison_keeps _ _ _) ?_
        assumption
      assumption
    refine .trans (State.holeAccess_keeps _ _ _) ?_
    exact .refl _
  exact .refl _

theorem State.latchSix_keeps (s : State) :
    Keeps true true true true (State.latchSix s) s := by
  unfold State.latchSix
  refine .trans (State.setSix3_keeps _ _ _ _) ?_
  exact .refl _

theorem State.perform_keeps (s : State) (key : ℕ) (b : List Byte) :
    Keeps false true true false (State.perform s key b) s := by
  unfold State.perform
  extract_lets +onlyGivenNames v1
  clear_value v1
  extract_lets +onlyGivenNames v2
  clear_value v2
  extract_lets +onlyGivenNames v3
  have h3 : Keeps false true true false v3 s := by
    unfold v3
    refine .trans (State.count_keeps _ _ _) ?_
    exact .refl _
  clear_value v3
  split
  · refine .trans (State.message_keeps _ _ _ _ _ _) ?_
    exact .refl _
  · refine .ite ?_ ?_
    · refine .trans (State.writeLines_keeps _ _) ?_
      exact .refl _
    assumption
  · refine .ite ?_ ?_
    · refine .trans (State.emit_keeps _ _) ?_
      exact .refl _
    assumption
  · refine .trans (State.remoteWrite_keeps _ _) ?_
    exact .refl _
  · refine .ite ?_ ?_
    · extract_lets +onlyGivenNames v4
      clear_value v4
      extract_lets +onlyGivenNames v5
      have h5 : Keeps false true true false v5.1 s := by
        unfold v5
        refine .trans (State.fetchMem_keeps _ _ _) ?_
        exact .refl _
      clear_value v5
      extract_lets +onlyGivenNames v6
      clear_value v6
      extract_lets +onlyGivenNames v7
      have h7 : Keeps false true true false v7 s := by
        unfold v7
        refine .ite ?_ ?_
        · refine .trans (State.count_keeps _ _ _) ?_
          assumption
        assumption
      clear_value v7
      refine .trans (State.answerNp_keeps _ _ _ _ _ _ _) ?_
      assumption
    refine .trans (State.refuseNp_keeps _ _ _ _) ?_
    exact .refl _
  · refine .ite ?_ ?_
    · refine .trans (State.emit_keeps _ _) ?_
      refine .congr (u := s) ?_
      exact .refl _
    refine .trans (State.refuseNp_keeps _ _ _ _) ?_
    exact .refl _
  · extract_lets +onlyGivenNames v8
    clear_value v8
    extract_lets +onlyGivenNames v9
    have h9 : Keeps false true true false v9 s := by
      unfold v9
      refine .ite ?_ ?_
      · refine .congr (u := s) ?_
        exact .refl _
      exact .refl _
    clear_value v9
    extract_lets +onlyGivenNames v10
    have h10 : Keeps false true true false v10 s := by
      unfold v10
      refine .ite ?_ ?_
      · refine .trans (State.latchSix_keeps _) ?_
        assumption
      assumption
    clear_value v10
    extract_lets +onlyGivenNames v11
    clear_value v11
    refine .trans (State.answerNp_keeps _ _ _ _ _ _ _) ?_
    assumption
  · refine .trans (State.answerNp_keeps _ _ _ _ _ _ _) ?_
    exact .refl _
  · refine .ite ?_ ?_
    · assumption
    refine .trans (State.refuseNp_keeps _ _ _ _) ?_
    exact .refl _

theorem State.refuseGuest_keeps (s : State) (key : ℕ) (y2 : ℕ) (b : List Byte) (event : Bool) :
    Keeps true true true true (State.refuseGuest s key y2 b event) s := by
  unfold State.refuseGuest
  extract_lets +onlyGivenNames v1
  have h1 : Keeps true true true true v1 s := by
    unfold v1
    refine .trans (State.count_keeps _ _ _) ?_
    exact .refl _
  clear_value v1
  extract_lets +onlyGivenNames v2
  have h2 : Keeps true true true true v2 s := by
    unfold v2
    refine .ite ?_ ?_
    · refine .trans (State.logFree_keeps _ _ _ _) ?_
      assumption
    assumption
  clear_value v2
  refine .ite ?_ ?_
  · refine .trans (State.refuseNp_keeps _ _ _ _) ?_
    assumption
  assumption

theorem State.takeCompletion_keeps (s : State) (key : ℕ) (b : List Byte) :
    Keeps true true true true (State.takeCompletion s key b) s := by
  unfold State.takeCompletion
  extract_lets +onlyGivenNames v1
  clear_value v1
  split
  · refine .trans (State.count_keeps _ _ _) ?_
    exact .refl _
  · extract_lets +onlyGivenNames v2
    have h2 : Keeps true true true true v2 s := by
      unfold v2
      refine .trans (State.refreshLink_keeps _ _) ?_
      refine .trans (State.modLink_keeps _ _ _) ?_
      exact .refl _
    clear_value v2
    split
    · refine .trans (State.enqueue_keeps _ _ _) ?_
      assumption
    · refine .trans (State.emit_keeps _ _) ?_
      assumption

theorem State.arrive_keeps (s : State) (key : ℕ) (y2 : ℕ) (b : List Byte) :
    Keeps false true true false (State.arrive s key y2 b) s := by
  unfold State.arrive
  extract_lets +onlyGivenNames v1
  clear_value v1
  extract_lets +onlyGivenNames v2
  clear_value v2
  refine .ite ?_ ?_
  · refine .ite ?_ ?_
    · refine .trans (State.count_keeps _ _ _) ?_
      exact .refl _
    refine .ite ?_ ?_
    · refine .trans (State.count_keeps _ _ _) ?_
      exact .refl _
    exact .refl _
  refine .ite ?_ ?_
  · refine .trans (State.logFree_keeps _ _ _ _) ?_
    refine .trans (State.count_keeps _ _ _) ?_
    exact .refl _
  refine .ite ?_ ?_
  · refine .trans (State.takeCompletion_keeps _ _ _) ?_
    exact .refl _
  split
  · refine .trans (State.refuseGuest_keeps _ _ _ _ _) ?_
    exact .refl _
  · refine .ite ?_ ?_
    · refine .trans (State.perform_keeps _ _ _) ?_
      exact .refl _
    refine .ite ?_ ?_
    · refine .trans (State.count_keeps _ _ _) ?_
      exact .refl _
    refine .ite ?_ ?_
    · refine .ite ?_ ?_
      · refine .trans (State.refuseNp_keeps _ _ _ _) ?_
        exact .refl _
      refine .trans (State.count_keeps _ _ _) ?_
      exact .refl _
    split
    · refine .trans (State.forward_keeps _ _ _ _ _) ?_
      exact .refl _
    · exact .refl _

theorem execPacketReceive_keeps (port : Fin 14) (s : State) :
    Res.keeps false true true false (execPacketReceive port s) s := by
  unfold execPacketReceive
  extract_lets +onlyGivenNames v1
  clear_value v1
  extract_lets +onlyGivenNames v2
  clear_value v2
  extract_lets +onlyGivenNames v3
  clear_value v3
  split
  · refine Res.keeps_next ?_
    exact .refl _
  · split
    · refine Res.keeps_next ?_
      exact .refl _
    · extract_lets +onlyGivenNames v4
      have h4 : Keeps false true true false v4 s := by
        unfold v4
        refine .congr (u := s) ?_
        exact .refl _
      clear_value v4
      extract_lets +onlyGivenNames v5
      have h5 : Keeps false true true false v5 s := by
        unfold v5
        refine .trans (State.modLink_keeps _ _ _) ?_
        assumption
      clear_value v5
      refine Res.keeps_next ?_
      refine .trans (State.arrive_keeps _ _ _ _) ?_
      assumption

theorem State.linkAlign_keeps (s : State) (key : ℕ) :
    Keeps true true true true (State.linkAlign s key) s := by
  unfold State.linkAlign
  refine .ite ?_ ?_
  · extract_lets +onlyGivenNames v1
    have h1 : Keeps true true true true v1 s := by
      unfold v1
      refine .trans (State.linkEnter_keeps _ _ _ _) ?_
      exact .refl _
    clear_value v1
    refine .ite ?_ ?_
    · refine .trans (State.modLink_keeps _ _ _) ?_
      assumption
    assumption
  refine .trans (State.linkActive_keeps _ _) ?_
  exact .refl _

theorem State.linkInitDone_keeps (s : State) (key : ℕ) :
    Keeps true true true true (State.linkInitDone s key) s := by
  unfold State.linkInitDone
  extract_lets +onlyGivenNames v1
  clear_value v1
  extract_lets +onlyGivenNames v2
  clear_value v2
  refine .ite ?_ ?_
  · refine .trans (State.linkAlign_keeps _ _) ?_
    exact .refl _
  exact .refl _

theorem execParamReceive_keeps (port : Fin 14) (s : State) :
    Res.keeps true true true true (execParamReceive port s) s := by
  unfold execParamReceive
  extract_lets +onlyGivenNames v1
  clear_value v1
  extract_lets +onlyGivenNames v2
  clear_value v2
  split
  · refine Res.keeps_next ?_
    refine .trans (State.linkInitDone_keeps _ _) ?_
    exact .refl _
  · extract_lets +onlyGivenNames v3
    have h3 : Keeps true true true true v3 s := by
      unfold v3
      refine .trans (State.modLink_keeps _ _ _) ?_
      exact .refl _
    clear_value v3
    refine Res.keeps_ite ?_ ?_
    · refine Res.keeps_next ?_
      refine .trans (State.linkInitDone_keeps _ _) ?_
      assumption
    refine Res.keeps_ite ?_ ?_
    · refine Res.keeps_next ?_
      refine .trans (State.linkFault_keeps _ _) ?_
      assumption
    extract_lets +onlyGivenNames v4
    have h4 : Keeps true true true true v4 s := by
      unfold v4
      refine .trans (State.modLink_keeps _ _ _) ?_
      assumption
    clear_value v4
    extract_lets +onlyGivenNames v5
    have h5 : Keeps true true true true v5 s := by
      unfold v5
      refine .trans (State.wf_keeps _ _ _ _) ?_
      assumption
    clear_value v5
    refine Res.keeps_next ?_
    refine .trans (State.linkInitDone_keeps _ _) ?_
    refine .trans (State.refreshLink_keeps _ _) ?_
    assumption

theorem execPcieLinkUp_keeps (wide : Bool) (speed : Fin 3) (s : State) :
    Res.keeps true true true true (execPcieLinkUp wide speed s) s := by
  unfold execPcieLinkUp
  refine Res.keeps_ite ?_ ?_
  · refine Res.keeps_next ?_
    exact .refl _
  extract_lets +onlyGivenNames v1
  clear_value v1
  extract_lets +onlyGivenNames v2
  have h2 : Keeps true true true true v2 s := by
    unfold v2
    refine .congr (u := s) ?_
    exact .refl _
  clear_value v2
  refine Res.keeps_next ?_
  refine .trans (State.irqBit_keeps _ _ _) ?_
  refine .trans (State.setReg_keeps _ _ _ _) ?_
  assumption

theorem State.pcieDown_keeps (s : State) :
    Keeps true true true true (State.pcieDown s) s := by
  unfold State.pcieDown
  refine .ite ?_ ?_
  · extract_lets +onlyGivenNames v1
    have h1 : Keeps true true true true v1 s := by
      unfold v1
      refine .congr (u := s) ?_
      exact .refl _
    clear_value v1
    refine .trans (State.setErr_keeps _ _ _) ?_
    refine .trans (State.setReg_keeps _ _ _ _) ?_
    assumption
  exact .refl _

theorem execPeRefclkCheck_keeps (valid : Bool) (s : State) :
    Res.keeps true true true true (execPeRefclkCheck valid s) s := by
  unfold execPeRefclkCheck
  extract_lets +onlyGivenNames v1
  clear_value v1
  extract_lets +onlyGivenNames v2
  have h2 : Keeps true true true true v2 s := by
    unfold v2
    refine .congr (u := s) ?_
    exact .refl _
  clear_value v2
  refine Res.keeps_next ?_
  refine .ite ?_ ?_
  · refine .trans (State.pcieDown_keeps _) ?_
    assumption
  assumption

theorem State.hostReset_keeps (s : State) :
    Keeps true true false false (State.hostReset s) s := by
  unfold State.hostReset
  extract_lets +onlyGivenNames v1
  have h1 : Keeps true true false false v1 s := by
    unfold v1
    refine .congr (u := s) ?_
    exact .refl _
  clear_value v1
  extract_lets +onlyGivenNames v2
  have h2 : Keeps true true false false v2 s := by
    unfold v2
    refine .trans (State.each_keeps (m := true) (k := true) (r := false) (p := false) ?_) ?_
    · intro a3_0 a3_1
      refine .trans (State.refreshDrive_keeps _ _) ?_
      exact .refl _
    assumption
  clear_value v2
  extract_lets +onlyGivenNames v4
  have h4 : Keeps true true false false v4 s := by
    unfold v4
    refine .trans (State.count_keeps _ _ _) ?_
    refine .trans (State.wf_keeps _ _ _ _) ?_
    assumption
  clear_value v4
  refine .trans (State.pcieDown_keeps _) ?_
  refine .trans (State.closeRings_keeps _) ?_
  assumption

theorem execPerstNAssert_keeps (s : State) :
    Res.keeps true true false false (execPerstNAssert s) s := by
  unfold execPerstNAssert
  refine Res.keeps_next ?_
  refine .ite ?_ ?_
  · exact .refl _
  refine .trans (State.hostReset_keeps _) ?_
  exact .refl _

theorem execPerstNDeassert_keeps (s : State) :
    Res.keeps true true true true (execPerstNDeassert s) s := by
  unfold execPerstNDeassert
  refine Res.keeps_next ?_
  refine .congr (u := s) ?_
  exact .refl _

theorem execPin_keeps (entry : List Byte) (s : State) :
    Res.keeps true true true false (execPin entry s) s := by
  unfold execPin
  refine Res.keeps_next ?_
  refine .trans (State.evaluateTask_keeps (m := true) (k := true) (r := true)  ?_) ?_
  · intro a1_0 a1_1
    refine .ite_fst ?_ ?_
    · dsimp only
      exact .refl _
    refine .ite_fst ?_ ?_
    · dsimp only
      exact .refl _
    extract_lets +onlyGivenNames v2
    clear_value v2
    dsimp only
    refine .trans (State.setTask_keeps _ _) ?_
    exact .refl _
  exact .refl _

theorem State.plan_keeps (s : State) (e : List Byte) (ext : Option (List Byte)) (image : Option (List Byte)) :
    Keeps true true true false (State.plan s e ext image).1 s := by
  unfold State.plan
  extract_lets +onlyGivenNames v1
  clear_value v1
  extract_lets +onlyGivenNames v2
  clear_value v2
  extract_lets +onlyGivenNames v3
  clear_value v3
  extract_lets +onlyGivenNames v4
  have h4 : Keeps true true true false v4 s := by
    unfold v4
    refine .trans (State.modPhn_keeps _ _) ?_
    exact .refl _
  clear_value v4
  extract_lets +onlyGivenNames v5
  refine .ite_fst ?_ ?_
  · unfold v5
    refine .trans (State.refuse_keeps _ _ _ _ _ _ _ _) ?_
    assumption
  split
  · unfold v5
    refine .trans (State.refuse_keeps _ _ _ _ _ _ _ _) ?_
    assumption
  · split
    · extract_lets +onlyGivenNames v6
      clear_value v6
      extract_lets +onlyGivenNames v7
      have h7 : Keeps true true true false v7.1 s := by
        unfold v7
        refine .trans (State.report_keeps _ _ _ _) ?_
        assumption
      clear_value v7
      dsimp only
      assumption
    · refine .ite_fst ?_ ?_
      · unfold v5
        refine .trans (State.refuse_keeps _ _ _ _ _ _ _ _) ?_
        assumption
      extract_lets +onlyGivenNames v8
      clear_value v8
      extract_lets +onlyGivenNames v9
      clear_value v9
      extract_lets +onlyGivenNames v10
      have h10 : Keeps true true true false v10 s := by
        unfold v10
        refine .trans (State.modPhn_keeps _ _) ?_
        exact .refl _
      clear_value v10
      extract_lets +onlyGivenNames v11
      clear_value v11
      extract_lets +onlyGivenNames v12
      clear_value v12
      extract_lets +onlyGivenNames v13
      have h13 : Keeps true true true false v13.1 s := by
        unfold v13
        refine .trans (State.report_keeps _ _ _ _) ?_
        assumption
      clear_value v13
      dsimp only
      assumption

theorem execPlan_keeps (entry : List Byte) (ext : Option (List Byte)) (image : Option (List Byte)) (s : State) :
    Res.keeps true true true false (execPlan entry ext image s) s := by
  unfold execPlan
  refine Res.keeps_next ?_
  refine .trans (State.evaluate_keeps (m := true) (k := true) (r := true)  ?_) ?_
  · intro a1_0
    refine .trans (State.plan_keeps _ _ _ _) ?_
    exact .refl _
  exact .refl _

theorem State.modPlayback_keeps (s : State) (t : Task) (f : Playback → Playback) :
    Keeps true true true true (State.modPlayback s t f) s := by
  unfold State.modPlayback
  refine .congr (u := s) ?_
  exact .refl _

theorem State.feed_keeps (s : State) (t : Task) (kind : ℕ) (seq : ℕ) (payload : List Byte) :
    Keeps true true true true (State.feed s t kind seq payload) s := by
  unfold State.feed
  extract_lets +onlyGivenNames v1
  clear_value v1
  extract_lets +onlyGivenNames v2
  clear_value v2
  extract_lets +onlyGivenNames v3
  clear_value v3
  extract_lets +onlyGivenNames v4
  clear_value v4
  extract_lets +onlyGivenNames v5
  clear_value v5
  extract_lets +onlyGivenNames v6
  clear_value v6
  refine .trans (State.modPlayback_keeps _ _ _) ?_
  exact .refl _

theorem State.openPayload_keeps (s : State) (t : Task) (b : List Byte) : ∀ z, s.openPayload t b = some z → Keeps true true true true z.1 s := by
  intro z h
  unfold State.openPayload at h
  dsimp only at h
  split at h
  · cases h
  · split at h
    · split at h
      · cases h
      · split at h
        · rename_i p _ _ _ n _ _ s1 out e
          cases h
          have := State.inflateOn_keeps s n p
          rw [e] at this
          exact this
        · cases h
    · cases h; exact .refl _

theorem execPlaybackRecord_keeps (task : BitVec 32) (streamId : BitVec 32) (record : List Byte) (s : State) :
    Res.keeps false true true false (execPlaybackRecord task streamId record s) s := by
  unfold execPlaybackRecord
  split
  · exact Res.keeps_next (.refl _)
  · rename_i t _
    refine Res.keeps_ite (Res.keeps_next (.refl _)) ?_
    extract_lets +onlyGivenNames ring
    refine Res.keeps_ite (Res.keeps_next (.refl _)) ?_
    extract_lets +onlyGivenNames sid seq kind good took
    have ht : ∀ u, Keeps false true true false (took u) u := fun u => by
      unfold took
      exact .ite (.to (State.modRing_keeps _ _ _)) (.refl _)
    clear_value took good kind seq sid ring
    refine Res.keeps_ite (Res.keeps_next (.trans (State.failTask_keeps _ _ _ _) (ht _))) ?_
    refine Res.keeps_ite (Res.keeps_next (ht _)) ?_
    refine Res.keeps_ite (Res.keeps_next (.trans (State.modPlayback_keeps _ _ _) (.trans (State.count_keeps _ _ _) (ht _)))) ?_
    refine Res.keeps_ite (Res.keeps_next (.refl _)) ?_
    split
    · exact Res.keeps_next (.trans (State.failTask_keeps _ _ _ _) (ht _))
    · rename_i s1 payload e
      have h := State.openPayload_keeps _ _ _ _ e
      exact Res.keeps_next (.trans (State.feed_keeps _ _ _ _ _) (.trans (ht _) (.to h)))

theorem State.playInto_keeps (s : State) (p : ℕ) (label : ℕ) (i : ℤ) (q : ℤ) (marks : ℕ) :
    Keeps true true true true (State.playInto s p label i q marks) s := by
  unfold State.playInto
  extract_lets +onlyGivenNames v1
  clear_value v1
  refine .trans (State.pushOutput_keeps _ _ _) ?_
  refine .trans (State.modChain_keeps _ _ _) ?_
  exact .refl _

theorem execPlaybackRelease_keeps (task : BitVec 32) (s : State) :
    Res.keeps true true true true (execPlaybackRelease task s) s := by
  unfold execPlaybackRelease
  split
  · refine Res.keeps_next ?_
    exact .refl _
  · refine Res.keeps_ite ?_ ?_
    · refine Res.keeps_next ?_
      exact .refl _
    extract_lets +onlyGivenNames v1
    clear_value v1
    split
    · refine Res.keeps_next ?_
      exact .refl _
    · extract_lets +onlyGivenNames v2
      have h2 : Keeps true true true true v2 s := by
        unfold v2
        refine .ite ?_ ?_
        · refine .trans (State.advanceTo_keeps _ _) ?_
          exact .refl _
        exact .refl _
      clear_value v2
      extract_lets +onlyGivenNames v3
      clear_value v3
      extract_lets +onlyGivenNames v4
      have h4 : Keeps true true true true v4 s := by
        unfold v4
        refine .trans (State.modPlayback_keeps _ _ _) ?_
        assumption
      clear_value v4
      refine Res.keeps_next ?_
      refine .trans (State.each_keeps (m := true) (k := true) (r := true) (p := true) ?_) ?_
      · intro a5_0 a5_1
        refine .trans (State.playInto_keeps _ _ _ _ _ _) ?_
        exact .refl _
      assumption

theorem execPorstNRelease_keeps (s : State) :
    Res.keeps true true true true (execPorstNRelease s) s := by
  unfold execPorstNRelease
  refine Res.keeps_next ?_
  refine .trans (State.modPower_keeps _ _) ?_
  exact .refl _

theorem State.fromPort_keeps (s : State) (line : ℕ) (n : ℕ) (data : List Byte) :
    Keeps true true true true (State.fromPort s line n data).1 s := by
  unfold State.fromPort
  refine .ite_fst ?_ ?_
  · extract_lets +onlyGivenNames v1
    clear_value v1
    dsimp only
    refine .trans (State.modCmp_keeps _ _ _) ?_
    exact .refl _
  dsimp only
  exact .refl _

theorem State.toPort_keeps (s : State) (region : ℕ) (line : ℕ) (bs : List Byte) :
    Keeps true true true true (State.toPort s region line bs) s := by
  unfold State.toPort
  refine .ite ?_ ?_
  · refine .trans (State.modCmp_keeps _ _ _) ?_
    exact .refl _
  refine .ite ?_ ?_
  · extract_lets +onlyGivenNames v1
    clear_value v1
    refine .ite ?_ ?_
    · refine .trans (State.crcFeed_keeps _ _ _) ?_
      exact .refl _
    refine .trans (State.setErr_keeps _ _ _) ?_
    exact .refl _
  refine .trans (State.emit_keeps _ _) ?_
  exact .refl _

theorem State.destBytes_keeps (s : State) (c : ℕ) (d : List Byte) (addr : ℤ) (bs : List (Byte × Bool)) :
    Keeps false true true true (State.destBytes s c d addr bs) s := by
  unfold State.destBytes
  extract_lets +onlyGivenNames v1
  clear_value v1
  refine .ite ?_ ?_
  · refine .trans (State.sendMem_keeps _ _ _ _) ?_
    exact .refl _
  refine .ite ?_ ?_
  · refine .trans (State.emit_keeps _ _) ?_
    exact .refl _
  refine .trans (State.toPort_keeps _ _ _ _) ?_
  exact .refl _

theorem State.issuedAll_keeps (s : State) (c : ℕ) :
    Keeps true true true true (State.issuedAll s c) s := by
  unfold State.issuedAll
  extract_lets +onlyGivenNames v1
  clear_value v1
  split
  · refine .ite ?_ ?_
    · refine .trans (State.promote_keeps _ _) ?_
      refine .trans (State.modChan_keeps _ _ _) ?_
      exact .refl _
    exact .refl _
  · exact .refl _

theorem State.moved_keeps (s : State) (c : ℕ) (d : List Byte) (bs : List Byte) (poisoned : Bool) :
    Keeps true true true true (State.moved s c d bs poisoned) s := by
  unfold State.moved
  extract_lets +onlyGivenNames v1
  have h1 : Keeps true true true true v1 s := by
    unfold v1
    refine .trans (State.modChan_keeps _ _ _) ?_
    exact .refl _
  clear_value v1
  extract_lets +onlyGivenNames v2
  have h2 : Keeps true true true true v2 s := by
    unfold v2
    refine .trans (State.setReg_keeps _ _ _ _) ?_
    assumption
  clear_value v2
  extract_lets +onlyGivenNames v3
  have h3 : Keeps true true true true v3 s := by
    unfold v3
    refine .ite ?_ ?_
    · refine .trans (State.setErr_keeps _ _ _) ?_
      assumption
    assumption
  clear_value v3
  refine .trans (State.issuedAll_keeps _ _) ?_
  assumption

theorem State.sourceBytes_keeps (s : State) (d : List Byte) (addr : ℤ) (n : ℕ) (data : List Byte) :
    Keeps true true true true (State.sourceBytes s d addr n data).1 s := by
  unfold State.sourceBytes
  refine .ite_fst ?_ ?_
  · refine .trans (State.fetchMem_keeps _ _ _) ?_
    exact .refl _
  dsimp only
  exact .refl _

theorem State.movePacket_keeps (s : State) (c : Nat) (d : List Byte) (n : Nat) (data : List Byte) :
    Keeps false true true true (s.movePacket c d n data) s := by
  unfold State.movePacket
  dsimp only
  have h := State.sourceBytes_keeps s d (nextAddrs d (s.chan c).elem (s.chan c).byte).1 n data
  exact .trans (State.moved_keeps _ _ _ _ _) (.trans (State.destBytes_keeps _ _ _ _ _) (.to h))

theorem State.writeBack_keeps (s : State) (c : ℕ) (d : ChanDesc) (status : ℕ) (chk : ℕ) :
    Keeps false true true true (State.writeBack s c d status chk) s := by
  unfold State.writeBack
  extract_lets +onlyGivenNames v1
  clear_value v1
  refine .ite ?_ ?_
  · exact .refl _
  split
  · refine .trans (State.each_keeps (m := false) (k := true) (r := true) (p := true) ?_) ?_
    · intro a2_0 a2_1
      refine .trans (State.setReg_keeps _ _ _ _) ?_
      exact .refl _
    exact .refl _
  · refine .trans (State.emit_keeps _ _) ?_
    exact .refl _
  · refine .trans (State.sendMem_keeps _ _ _ _) ?_
    exact .refl _

theorem State.dataFails_keeps (s : State) (c : ℕ) :
    Keeps false true true true (State.dataFails s c) s := by
  unfold State.dataFails
  split
  · refine .trans (State.chanFail_keeps _ _ _ _) ?_
    refine .trans (State.writeBack_keeps _ _ _ _ _) ?_
    exact .refl _
  · exact .refl _

theorem State.burstGo_keeps (s : State) (c left : Nat) (data : List Byte) (a : Nat) : Keeps false true true true (s.burstGo c left data a) s := by
  induction a generalizing s left data with
  | zero => exact .refl _
  | succ n ih =>
    unfold State.burstGo
    split
    · exact .refl _
    · rename_i d _
      refine .ite (.refl _) (.ite (.to (State.dataFails_keeps _ _)) ?_)
      extract_lets +onlyGivenNames k z s1
      clear_value k
      have hz : Keeps false true true true z.1 s := .ite_fst (.to (State.fromPort_keeps _ _ _ _)) (.refl _)
      clear_value z
      have h1 : Keeps false true true true s1 s := .trans (State.movePacket_keeps _ _ _ _ _) hz
      clear_value s1
      exact .ite h1 (.trans (ih _ _ _) h1)

theorem execPortRequest_keeps (region : Fin 3) (line : Fin 256) (data : List Byte) (s : State) :
    Res.keeps false true true true (execPortRequest region line data s) s := by
  unfold execPortRequest
  extract_lets +onlyGivenNames v1
  clear_value v1
  split
  · refine Res.keeps_next ?_
    exact .refl _
  · refine Res.keeps_next ?_
    refine .trans (State.burstGo_keeps _ _ _ _ _) ?_
    exact .refl _

theorem execPowerFailTrigger_keeps (last : Fin 8) (s : State) :
    Res.keeps false true false false (execPowerFailTrigger last s) s := by
  unfold execPowerFailTrigger
  refine Res.keeps_next ?_
  refine .trans (State.powerFail_keeps _ _ _) ?_
  exact .refl _

theorem State.ppsSecond_keeps (s : State) (six : ℕ) (fine : ℕ) :
    Keeps true true true true (State.ppsSecond s six fine) s := by
  unfold State.ppsSecond
  extract_lets +onlyGivenNames v1
  clear_value v1
  extract_lets +onlyGivenNames v2
  clear_value v2
  refine .ite ?_ ?_
  · exact .refl _
  refine .trans (State.stepTime_keeps _ _) ?_
  exact .refl _

theorem execPpsInEdge_keeps (six : ℕ) (fine : ℕ) (highNs : ℕ) (s : State) :
    Res.keeps true true true true (execPpsInEdge six fine highNs s) s := by
  unfold execPpsInEdge
  refine Res.keeps_ite ?_ ?_
  · refine Res.keeps_next ?_
    exact .refl _
  extract_lets +onlyGivenNames v1
  have h1 : Keeps true true true true v1 s := by
    unfold v1
    refine .trans (State.advanceTo_keeps _ _) ?_
    exact .refl _
  clear_value v1
  extract_lets +onlyGivenNames v2
  clear_value v2
  extract_lets +onlyGivenNames v3
  clear_value v3
  extract_lets +onlyGivenNames v4
  have h4 : Keeps true true true true v4 s := by
    unfold v4
    refine .trans (State.modTb_keeps _ _) ?_
    assumption
  clear_value v4
  extract_lets +onlyGivenNames v5
  have h5 : Keeps true true true true v5 s := by
    unfold v5
    refine .ite ?_ ?_
    · refine .trans (State.wb_keeps _ _ _ _) ?_
      assumption
    assumption
  clear_value v5
  refine Res.keeps_next ?_
  refine .ite ?_ ?_
  · refine .trans (State.applySetTime_keeps _ _ _) ?_
    assumption
  refine .ite ?_ ?_
  · refine .trans (State.ppsSecond_keeps _ _ _) ?_
    assumption
  assumption

theorem execPpsOutEdge_keeps (six : ℕ) (s : State) :
    Res.keeps true true true true (execPpsOutEdge six s) s := by
  unfold execPpsOutEdge
  extract_lets +onlyGivenNames v1
  clear_value v1
  refine Res.keeps_ite ?_ ?_
  · refine Res.keeps_ite ?_ ?_
    · refine Res.keeps_next ?_
      refine .trans (State.emit_keeps _ _) ?_
      refine .trans (State.modTb_keeps _ _) ?_
      refine .trans (State.advanceTo_keeps _ _) ?_
      exact .refl _
    refine Res.keeps_next ?_
    exact .refl _
  refine Res.keeps_ite ?_ ?_
  · refine Res.keeps_next ?_
    refine .trans (State.emit_keeps _ _) ?_
    refine .trans (State.modTb_keeps _ _) ?_
    refine .trans (State.advanceTo_keeps _ _) ?_
    exact .refl _
  refine Res.keeps_next ?_
  exact .refl _

theorem execPredictiveFault_keeps (page : Fin 8192) (s : State) :
    Res.keeps false true true false (execPredictiveFault page s) s := by
  unfold execPredictiveFault
  split
  · refine Res.keeps_next ?_
    refine .trans (State.askMoves_keeps _ _) ?_
    exact .refl _
  · refine Res.keeps_next ?_
    exact .refl _

theorem State.ptpOffset_keeps (s : State) (t1 : ℕ) (t2 : ℕ) (t3 : ℕ) (t4 : ℕ) :
    Keeps true true true true (State.ptpOffset s t1 t2 t3 t4) s := by
  unfold State.ptpOffset
  extract_lets +onlyGivenNames v1
  clear_value v1
  extract_lets +onlyGivenNames v2
  clear_value v2
  extract_lets +onlyGivenNames v3
  have h3 : Keeps true true true true v3 s := by
    unfold v3
    refine .trans (State.modTb_keeps _ _) ?_
    exact .refl _
  clear_value v3
  refine .ite ?_ ?_
  · refine .trans (State.stepTime_keeps _ _) ?_
    assumption
  assumption

theorem State.ptpRequest_keeps (s : State) (port : ℕ) (egress : ℕ × ℕ) :
    Keeps true true true true (State.ptpRequest s port egress) s := by
  unfold State.ptpRequest
  extract_lets +onlyGivenNames v1
  have h1 : Keeps true true true true v1 s := by
    unfold v1
    refine .trans (State.advanceTo_keeps _ _) ?_
    exact .refl _
  clear_value v1
  extract_lets +onlyGivenNames v2
  clear_value v2
  extract_lets +onlyGivenNames v3
  clear_value v3
  refine .trans (State.modTb_keeps _ _) ?_
  refine .trans (State.emit_keeps _ _) ?_
  assumption

theorem State.ptpAnnounce_keeps (s : State) (source : ℕ) (dataset : ℕ) (intervalMs : ℕ) (utc : ℤ) :
    Keeps true true true true (State.ptpAnnounce s source dataset intervalMs utc) s := by
  unfold State.ptpAnnounce
  extract_lets +onlyGivenNames v1
  clear_value v1
  extract_lets +onlyGivenNames v2
  split
  · refine .ite ?_ ?_
    · refine .trans (State.modTb_keeps _ _) ?_
      exact .refl _
    refine .ite ?_ ?_
    · refine .trans (State.modTb_keeps _ _) ?_
      exact .refl _
    exact .refl _
  · refine .trans (State.modTb_keeps _ _) ?_
    exact .refl _

theorem State.ptpLapse_keeps (s : State) :
    Keeps true true true true (State.ptpLapse s) s := by
  unfold State.ptpLapse
  split
  · refine .ite ?_ ?_
    · refine .trans (State.modTb_keeps _ _) ?_
      exact .refl _
    exact .refl _
  · exact .refl _

theorem execPtpMessage_keeps (port : ℕ) (domain : ℕ) (transport : ℕ) (kind : PtpMsg) (masterPs : ℕ) (six : ℕ) (fine : ℕ) (s : State) :
    Res.keeps true true true true (execPtpMessage port domain transport kind masterPs six fine s) s := by
  unfold execPtpMessage
  refine Res.keeps_ite ?_ ?_
  · refine Res.keeps_next ?_
    exact .refl _
  extract_lets +onlyGivenNames v1
  have h1 : Keeps true true true true v1 s := by
    unfold v1
    refine .trans (State.ptpLapse_keeps _) ?_
    refine .trans (State.advanceTo_keeps _ _) ?_
    exact .refl _
  clear_value v1
  extract_lets +onlyGivenNames v2
  clear_value v2
  split
  · refine Res.keeps_next ?_
    refine .trans (State.ptpAnnounce_keeps _ _ _ _ _) ?_
    assumption
  · refine Res.keeps_ite ?_ ?_
    · refine Res.keeps_next ?_
      assumption
    refine Res.keeps_next ?_
    refine .trans (State.ptpRequest_keeps _ _ _) ?_
    refine .trans (State.modTb_keeps _ _) ?_
    assumption
  · refine Res.keeps_ite ?_ ?_
    · refine Res.keeps_next ?_
      assumption
    refine Res.keeps_next ?_
    refine .trans (State.modTb_keeps _ _) ?_
    assumption
  · refine Res.keeps_ite ?_ ?_
    · refine Res.keeps_next ?_
      assumption
    refine Res.keeps_next ?_
    refine .trans (State.ptpRequest_keeps _ _ _) ?_
    refine .trans (State.modTb_keeps _ _) ?_
    assumption
  · split
    · refine Res.keeps_ite ?_ ?_
      · refine Res.keeps_next ?_
        refine .trans (State.ptpOffset_keeps _ _ _ _ _) ?_
        assumption
      refine Res.keeps_next ?_
      assumption
    · refine Res.keeps_next ?_
      assumption

theorem execPwrVinRefresh_keeps (vin : BitVec 16) (current : BitVec 16) (power : BitVec 16) (peak : BitVec 16) (s : State) :
    Res.keeps true true true true (execPwrVinRefresh vin current power peak s) s := by
  unfold execPwrVinRefresh
  refine Res.keeps_ite ?_ ?_
  · refine Res.keeps_next ?_
    exact .refl _
  extract_lets +onlyGivenNames v1
  clear_value v1
  extract_lets +onlyGivenNames v2
  have h2 : Keeps true true true true v2 s := by
    unfold v2
    refine .trans (State.wf_keeps _ _ _ _) ?_
    refine .trans (State.wf_keeps _ _ _ _) ?_
    refine .trans (State.wf_keeps _ _ _ _) ?_
    exact .refl _
  clear_value v2
  extract_lets +onlyGivenNames v3
  have h3 : Keeps true true true true v3 s := by
    unfold v3
    refine .trans (State.wf_keeps _ _ _ _) ?_
    assumption
  clear_value v3
  extract_lets +onlyGivenNames v4
  have h4 : Keeps true true true true v4 s := by
    unfold v4
    refine .ite ?_ ?_
    · refine .trans (State.setErr_keeps _ _ _) ?_
      assumption
    assumption
  clear_value v4
  refine Res.keeps_next ?_
  refine .ite ?_ ?_
  · refine .trans (State.setErr_keeps _ _ _) ?_
    assumption
  assumption

theorem State.rebalance_keeps (s : State) (e : List Byte) :
    Keeps false true true false (State.rebalance s e).1 s := by
  unfold State.rebalance
  extract_lets +onlyGivenNames v1
  clear_value v1
  extract_lets +onlyGivenNames v2
  clear_value v2
  extract_lets +onlyGivenNames v3
  clear_value v3
  extract_lets +onlyGivenNames v4
  clear_value v4
  extract_lets +onlyGivenNames v5
  clear_value v5
  extract_lets +onlyGivenNames v6
  have h6 : Keeps false true true false v6 s := by
    unfold v6
    refine .trans (State.each_keeps (m := false) (k := true) (r := true) (p := false) ?_) ?_
    · intro a7_0 a7_1
      refine .trans (State.takePlace_keeps _ _ _) ?_
      exact .refl _
    exact .refl _
  clear_value v6
  extract_lets +onlyGivenNames v8
  clear_value v8
  extract_lets +onlyGivenNames v9
  clear_value v9
  extract_lets +onlyGivenNames v10
  clear_value v10
  extract_lets +onlyGivenNames v11
  clear_value v11
  extract_lets +onlyGivenNames v12
  have h12 : Keeps false true true false v12 s := by
    unfold v12
    refine .trans (State.modPhn_keeps _ _) ?_
    assumption
  clear_value v12
  dsimp only
  refine .trans (State.askMoves_keeps _ _) ?_
  assumption

theorem execRebalance_keeps (entry : List Byte) (s : State) :
    Res.keeps false true true false (execRebalance entry s) s := by
  unfold execRebalance
  refine Res.keeps_next ?_
  refine .trans (State.evaluate_keeps (m := false) (k := true) (r := true)  ?_) ?_
  · intro a1_0
    refine .trans (State.rebalance_keeps _ _) ?_
    exact .refl _
  exact .refl _

theorem State.passRd_keeps (s : State) (p : ℕ) (n : ℕ) (off : ℕ) :
    Keeps true true true true (State.passRd s p n off) s := by
  unfold State.passRd
  refine .ite ?_ ?_
  · refine .congr (u := s) ?_
    exact .refl _
  refine .trans (State.moveRd_keeps _ _ _ _) ?_
  exact .refl _

theorem State.releaseSource_keeps (s : State) (src : RecSource) :
    Keeps true true true false (State.releaseSource s src) s := by
  unfold State.releaseSource
  split
  · split
    · refine .trans (State.releaseAt_keeps _ _ _) ?_
      exact .refl _
    · exact .refl _
  · refine .trans (State.passRd_keeps _ _ _ _) ?_
    exact .refl _
  · refine .trans (State.modPhn_keeps _ _) ?_
    exact .refl _
  · refine .trans (State.modPhn_keeps _ _) ?_
    exact .refl _
  · exact .refl _

theorem execRecordTaken_keeps (task : BitVec 32) (port : Fin 32) (s : State) :
    Res.keeps true true true false (execRecordTaken task port s) s := by
  unfold execRecordTaken
  split
  · refine Res.keeps_next ?_
    exact .refl _
  · split
    · refine Res.keeps_next ?_
      exact .refl _
    · split
      · refine Res.keeps_next ?_
        exact .refl _
      · extract_lets +onlyGivenNames v1
        have h1 : Keeps true true true false v1 s := by
          unfold v1
          refine .trans (State.modPort_keeps _ _ _ _) ?_
          exact .refl _
        clear_value v1
        refine Res.keeps_next ?_
        refine .trans (State.dropClosed_keeps _ _) ?_
        refine .trans (State.releaseSource_keeps _ _) ?_
        assumption

theorem State.refPresence_keeps (s : State) (amplMv : ℕ) (hz : ℕ) (ptpOk : Bool) :
    Keeps true true true true (State.refPresence s amplMv hz ptpOk) s := by
  unfold State.refPresence
  extract_lets +onlyGivenNames v1
  clear_value v1
  extract_lets +onlyGivenNames v2
  clear_value v2
  extract_lets +onlyGivenNames v3
  clear_value v3
  extract_lets +onlyGivenNames v4
  clear_value v4
  extract_lets +onlyGivenNames v5
  clear_value v5
  extract_lets +onlyGivenNames v6
  clear_value v6
  extract_lets +onlyGivenNames v7
  clear_value v7
  extract_lets +onlyGivenNames v8
  have h8 : Keeps true true true true v8 s := by
    unfold v8
    refine .trans (State.modTb_keeps _ _) ?_
    exact .refl _
  clear_value v8
  extract_lets +onlyGivenNames v9
  have h9 : Keeps true true true true v9 s := by
    unfold v9
    refine .trans (State.wb_keeps _ _ _ _) ?_
    assumption
  clear_value v9
  extract_lets +onlyGivenNames v10
  have h10 : Keeps true true true true v10 s := by
    unfold v10
    refine .trans (State.wb_keeps _ _ _ _) ?_
    assumption
  clear_value v10
  extract_lets +onlyGivenNames v11
  have h11 : Keeps true true true true v11 s := by
    unfold v11
    refine .trans (State.wb_keeps _ _ _ _) ?_
    assumption
  clear_value v11
  refine .ite ?_ ?_
  · refine .trans (State.setErr_keeps _ _ _) ?_
    assumption
  assumption

theorem State.setSteer_keeps (s : State) (v : ℤ) :
    Keeps true true true true (State.setSteer s v) s := by
  unfold State.setSteer
  extract_lets +onlyGivenNames v1
  clear_value v1
  extract_lets +onlyGivenNames v2
  clear_value v2
  extract_lets +onlyGivenNames v3
  have h3 : Keeps true true true true v3 s := by
    unfold v3
    refine .trans (State.modTb_keeps _ _) ?_
    refine .trans (State.wf_keeps _ _ _ _) ?_
    exact .refl _
  clear_value v3
  refine .ite ?_ ?_
  · assumption
  refine .trans (State.setErr_keeps _ _ _) ?_
  assumption

theorem State.refSteer_keeps (s : State) (target : ℤ) (fit : Option ℤ) :
    Keeps true true true true (State.refSteer s target fit) s := by
  unfold State.refSteer
  split
  · refine .trans (State.setSteer_keeps _ _) ?_
    exact .refl _
  · extract_lets +onlyGivenNames v1
    clear_value v1
    refine .trans (State.setSteer_keeps _ _) ?_
    exact .refl _
  · extract_lets +onlyGivenNames v2
    have h2 : Keeps true true true true v2 s := by
      unfold v2
      refine .trans (State.setSteer_keeps _ _) ?_
      exact .refl _
    clear_value v2
    extract_lets +onlyGivenNames v3
    have h3 : Keeps true true true true v3 s := by
      unfold v3
      refine .trans (State.modTb_keeps _ _) ?_
      assumption
    clear_value v3
    split
    · refine .ite ?_ ?_
      · refine .trans (State.wf_keeps _ _ _ _) ?_
        assumption
      assumption
    · assumption

theorem State.tbEnter_keeps (s : State) (n : ℕ) :
    Keeps true true true true (State.tbEnter s n) s := by
  unfold State.tbEnter
  refine .ite ?_ ?_
  · exact .refl _
  refine .trans (State.irqBit_keeps _ _ _) ?_
  refine .trans (State.wf_keeps _ _ _ _) ?_
  exact .refl _

theorem State.tbReferences_keeps (s : State) :
    Keeps true true true true (State.tbReferences s) s := by
  unfold State.tbReferences
  extract_lets +onlyGivenNames v1
  clear_value v1
  extract_lets +onlyGivenNames v2
  clear_value v2
  extract_lets +onlyGivenNames v3
  clear_value v3
  extract_lets +onlyGivenNames v4
  clear_value v4
  extract_lets +onlyGivenNames v5
  clear_value v5
  split
  · refine .trans (State.tbEnter_keeps _ _) ?_
    refine .trans (State.wf_keeps _ _ _ _) ?_
    exact .refl _
  · refine .trans (State.tbEnter_keeps _ _) ?_
    refine .trans (State.wf_keeps _ _ _ _) ?_
    exact .refl _
  · extract_lets +onlyGivenNames v6
    have h6 : Keeps true true true true v6 s := by
      unfold v6
      refine .trans (State.modTb_keeps _ _) ?_
      exact .refl _
    clear_value v6
    refine .trans (State.setErr_keeps _ _ _) ?_
    refine .trans (State.tbEnter_keeps _ _) ?_
    refine .trans (State.wf_keeps _ _ _ _) ?_
    assumption
  · refine .trans (State.tbEnter_keeps _ _) ?_
    refine .trans (State.wf_keeps _ _ _ _) ?_
    exact .refl _
  · refine .trans (State.wf_keeps _ _ _ _) ?_
    exact .refl _
  · exact .refl _

theorem execRefCheck_keeps (amplMv : ℕ) (hz : ℕ) (ptpOk : Bool) (target : ℤ) (fit : Option ℤ) (s : State) :
    Res.keeps true true true true (execRefCheck amplMv hz ptpOk target fit s) s := by
  unfold execRefCheck
  refine Res.keeps_ite ?_ ?_
  · refine Res.keeps_next ?_
    exact .refl _
  refine Res.keeps_next ?_
  refine .trans (State.ptpLapse_keeps _) ?_
  refine .trans (State.refSteer_keeps _ _ _) ?_
  refine .trans (State.tbReferences_keeps _) ?_
  refine .trans (State.refPresence_keeps _ _ _ _) ?_
  exact .refl _

theorem State.closeRows_keeps (s : State) (m : ℕ) :
    Keeps true true true true (State.closeRows s m) s := by
  unfold State.closeRows
  refine .trans (State.modStack_keeps _ _ _) ?_
  exact .refl _

theorem execRefreshInterval_keeps (stack : Fin 4) (s : State) :
    Res.keeps true true true true (execRefreshInterval stack s) s := by
  unfold execRefreshInterval
  extract_lets +onlyGivenNames v1
  clear_value v1
  extract_lets +onlyGivenNames v2
  clear_value v2
  extract_lets +onlyGivenNames v3
  clear_value v3
  refine Res.keeps_ite ?_ ?_
  · refine Res.keeps_next ?_
    exact .refl _
  refine Res.keeps_ite ?_ ?_
  · refine Res.keeps_next ?_
    refine .trans (State.modStack_keeps _ _ _) ?_
    refine .trans (State.closeRows_keeps _ _) ?_
    exact .refl _
  refine Res.keeps_ite ?_ ?_
  · refine Res.keeps_next ?_
    refine .trans (State.closeRows_keeps _ _) ?_
    refine .trans (State.wf_keeps _ _ _ _) ?_
    exact .refl _
  refine Res.keeps_ite ?_ ?_
  · refine Res.keeps_next ?_
    refine .trans (State.wf_keeps _ _ _ _) ?_
    exact .refl _
  extract_lets +onlyGivenNames v4
  have h4 : Keeps true true true true v4 s := by
    unfold v4
    refine .trans (State.closeRows_keeps _ _) ?_
    refine .trans (State.count_keeps _ _ _) ?_
    refine .trans (State.wf_keeps _ _ _ _) ?_
    exact .refl _
  clear_value v4
  refine Res.keeps_next ?_
  refine .trans (State.modStack_keeps _ _ _) ?_
  assumption

theorem execRegionIsolation_keeps (region : Fin 8) (s : State) :
    Res.keeps true true true false (execRegionIsolation region s) s := by
  unfold execRegionIsolation
  refine Res.keeps_next ?_
  refine .trans (State.isolateRegion_keeps _ _) ?_
  exact .refl _

theorem State.releasePage_keeps (s : State) (key : ℕ) :
    Keeps false true true false (State.releasePage s key) s := by
  unfold State.releasePage
  split
  · exact .refl _
  · extract_lets +onlyGivenNames v1
    have h1 : Keeps false true true false v1 s := by
      unfold v1
      refine .trans (State.softReset_keeps _ _) ?_
      refine .trans (State.stopPage_keeps _ _) ?_
      refine .trans (State.cancelOp_keeps _ _) ?_
      exact .refl _
    clear_value v1
    refine .trans (State.changeOwner_keeps _ _ _) ?_
    refine .trans (State.modPage_keeps _ _ _) ?_
    assumption

theorem State.startReturn_keeps (s : State) :
    Keeps true true true true (State.startReturn s) s := by
  unfold State.startReturn
  extract_lets +onlyGivenNames v1
  clear_value v1
  extract_lets +onlyGivenNames v2
  clear_value v2
  extract_lets +onlyGivenNames v3
  have h3 : Keeps true true true true v3 s := by
    unfold v3
    refine .trans (State.afeSet_keeps _ _ _ _ _ _ _) ?_
    exact .refl _
  clear_value v3
  refine .trans (State.spareEnter_keeps _ _) ?_
  refine .trans (State.modRot_keeps _ _) ?_
  assumption

theorem State.release_keeps (s : State) (e : List Byte) :
    Keeps false true true false (State.release s e).1 s := by
  unfold State.release
  extract_lets +onlyGivenNames v1
  clear_value v1
  refine .ite_fst ?_ ?_
  · dsimp only
    exact .refl _
  split
  · dsimp only
    exact .refl _
  · extract_lets +onlyGivenNames v2
    have h2 : Keeps false true true false v2 s := by
      unfold v2
      refine .trans (State.each_keeps (m := false) (k := true) (r := true) (p := false) ?_) ?_
      · intro a3_0 a3_1
        refine .trans (State.releasePage_keeps _ _) ?_
        exact .refl _
      exact .refl _
    clear_value v2
    extract_lets +onlyGivenNames v4
    have h4 : Keeps false true true false v4 s := by
      unfold v4
      refine .ite ?_ ?_
      · refine .trans (State.startReturn_keeps _) ?_
        assumption
      assumption
    clear_value v4
    dsimp only
    refine .trans (State.readmit_keeps _) ?_
    refine .trans (State.bumpEpoch_keeps _) ?_
    assumption

theorem execRelease_keeps (entry : List Byte) (s : State) :
    Res.keeps false true true false (execRelease entry s) s := by
  unfold execRelease
  refine Res.keeps_next ?_
  refine .trans (State.evaluate_keeps (m := false) (k := true) (r := true)  ?_) ?_
  · intro a1_0
    refine .trans (State.release_keeps _ _) ?_
    exact .refl _
  exact .refl _

theorem execRelock_keeps (who : Issuer) (tag : ℕ) (s : State) :
    Res.keeps true true true true (execRelock who tag s) s := by
  unfold execRelock
  refine Res.keeps_next ?_
  refine .trans (State.command_keeps (m := true) (k := true) (r := true) (p := true) ?_) ?_
  · intro a1_0
    refine .ite ?_ ?_
    · refine .trans (State.rejectOp_keeps _ _ _ _ _) ?_
      exact .refl _
    extract_lets +onlyGivenNames v2
    have h2 : Keeps true true true true v2 s := by
      unfold v2
      refine .trans (State.wf_keeps _ _ _ _) ?_
      refine .trans (State.accept_keeps _ _ _) ?_
      exact .refl _
    clear_value v2
    refine .trans (State.doneOp_keeps _ _) ?_
    refine .congr (u := v2) ?_
    assumption
  exact .refl _

theorem execRemoveQueue_keeps (who : Issuer) (tag : ℕ) (s : State) :
    Res.keeps true true true true (execRemoveQueue who tag s) s := by
  unfold execRemoveQueue
  refine Res.keeps_next ?_
  refine .trans (State.command_keeps (m := true) (k := true) (r := true) (p := true) ?_) ?_
  · intro a1_0
    split
    · refine .trans (State.rejectOp_keeps _ _ _ _ _) ?_
      exact .refl _
    · refine .ite ?_ ?_
      · refine .trans (State.rejectOp_keeps _ _ _ _ _) ?_
        exact .refl _
      refine .ite ?_ ?_
      · refine .trans (State.rejectOp_keeps _ _ _ _ _) ?_
        exact .refl _
      extract_lets +onlyGivenNames v2
      have h2 : Keeps true true true true v2 s := by
        unfold v2
        refine .trans (State.accept_keeps _ _ _) ?_
        exact .refl _
      clear_value v2
      extract_lets +onlyGivenNames v3
      clear_value v3
      extract_lets +onlyGivenNames v4
      have h4 : Keeps true true true true v4 s := by
        unfold v4
        refine .ite ?_ ?_
        · refine .trans (State.nviMark_keeps _ _ _ _) ?_
          refine .trans (State.nviMark_keeps _ _ _ _) ?_
          refine .congr (u := v2) ?_
          assumption
        refine .trans (State.modDrive_keeps _ _ _) ?_
        assumption
      clear_value v4
      refine .trans (State.doneOp_keeps _ _) ?_
      refine .trans (State.refreshDrive_keeps _ _) ?_
      assumption
  exact .refl _

theorem execRepair_keeps (who : Issuer) (port : Fin 14) (tag : ℕ) (s : State) :
    Res.keeps true true true true (execRepair who port tag s) s := by
  unfold execRepair
  extract_lets +onlyGivenNames v1
  clear_value v1
  refine Res.keeps_next ?_
  refine .trans (State.command_keeps (m := true) (k := true) (r := true) (p := true) ?_) ?_
  · intro a2_0
    extract_lets +onlyGivenNames v3
    clear_value v3
    refine .ite ?_ ?_
    · refine .trans (State.rejectOp_keeps _ _ _ _ _) ?_
      exact .refl _
    refine .ite ?_ ?_
    · refine .trans (State.rejectOp_keeps _ _ _ _ _) ?_
      exact .refl _
    refine .ite ?_ ?_
    · refine .trans (State.rejectOp_keeps _ _ _ _ _) ?_
      exact .refl _
    refine .ite ?_ ?_
    · refine .trans (State.rejectOp_keeps _ _ _ _ _) ?_
      exact .refl _
    refine .trans (State.requestRepair_keeps _ _ _ _ _) ?_
    refine .trans (State.accept_keeps _ _ _) ?_
    exact .refl _
  exact .refl _

theorem execRepairAckDeadline_keeps (port : Fin 14) (s : State) :
    Res.keeps true true true true (execRepairAckDeadline port s) s := by
  unfold execRepairAckDeadline
  extract_lets +onlyGivenNames v1
  clear_value v1
  split
  · refine Res.keeps_ite ?_ ?_
    · refine Res.keeps_next ?_
      exact .refl _
    extract_lets +onlyGivenNames v2
    have h2 : Keeps true true true true v2 s := by
      unfold v2
      refine .trans (State.modLink_keeps _ _ _) ?_
      exact .refl _
    clear_value v2
    refine Res.keeps_next ?_
    refine .trans (State.requestRepair_keeps _ _ _ _ _) ?_
    refine .trans (State.emit_keeps _ _) ?_
    assumption
  · refine Res.keeps_next ?_
    exact .refl _

theorem State.nextRepair_keeps (s : State) (key : ℕ) :
    Keeps true true true true (State.nextRepair s key) s := by
  unfold State.nextRepair
  split
  · exact .refl _
  · refine .trans (State.wantRepair_keeps _ _ _ _) ?_
    exact .refl _

theorem State.repairEnds_keeps (s : State) (key : ℕ) :
    Keeps true true true true (State.repairEnds s key) s := by
  unfold State.repairEnds
  refine .trans (State.wb_keeps _ _ _ _) ?_
  refine .trans (State.modLink_keeps _ _ _) ?_
  exact .refl _

theorem execRepairMessage_keeps (port : Fin 14) (op : ℕ) (lane : ℕ) (token : ℕ) (slotW : BitVec 32) (s : State) :
    Res.keeps true true true true (execRepairMessage port op lane token slotW s) s := by
  unfold execRepairMessage
  extract_lets +onlyGivenNames v1
  clear_value v1
  extract_lets +onlyGivenNames v2
  clear_value v2
  extract_lets +onlyGivenNames v3
  clear_value v3
  extract_lets +onlyGivenNames v4
  clear_value v4
  refine Res.keeps_ite ?_ ?_
  · refine Res.keeps_ite ?_ ?_
    · refine Res.keeps_next ?_
      refine .trans (State.emit_keeps _ _) ?_
      exact .refl _
    refine Res.keeps_next ?_
    refine .trans (State.emit_keeps _ _) ?_
    refine .trans (State.modLink_keeps _ _ _) ?_
    exact .refl _
  refine Res.keeps_ite ?_ ?_
  · refine Res.keeps_next ?_
    split
    · refine .ite ?_ ?_
      · refine .trans (State.modLink_keeps _ _ _) ?_
        exact .refl _
      exact .refl _
    · exact .refl _
  split
  · refine Res.keeps_ite ?_ ?_
    · refine Res.keeps_next ?_
      exact .refl _
    refine Res.keeps_ite ?_ ?_
    · refine Res.keeps_next ?_
      refine .trans (State.modLink_keeps _ _ _) ?_
      exact .refl _
    refine Res.keeps_ite ?_ ?_
    · extract_lets +onlyGivenNames v5
      have h5 : Keeps true true true true v5 s := by
        unfold v5
        refine .trans (State.repairEnds_keeps _ _) ?_
        exact .refl _
      clear_value v5
      refine Res.keeps_next ?_
      refine .trans (State.nextRepair_keeps _ _) ?_
      refine .ite ?_ ?_
      · refine .trans (State.failOp_keeps _ _ _ _) ?_
        assumption
      refine .trans (State.setErr_keeps _ _ _) ?_
      assumption
    refine Res.keeps_next ?_
    exact .refl _
  · refine Res.keeps_next ?_
    exact .refl _

theorem execRepairSwitch_keeps (port : Fin 14) (s : State) :
    Res.keeps true true true true (execRepairSwitch port s) s := by
  unfold execRepairSwitch
  extract_lets +onlyGivenNames v1
  clear_value v1
  extract_lets +onlyGivenNames v2
  have h2 : Keeps true true true true v2 s := by
    unfold v2
    split
    · refine .trans (State.modLink_keeps _ _ _) ?_
      refine .trans (State.mirrorLane_keeps _ _ _ _) ?_
      exact .refl _
    · exact .refl _
  clear_value v2
  split
  · extract_lets +onlyGivenNames v3
    have h3 : Keeps true true true true v3 s := by
      unfold v3
      refine .trans (State.modLink_keeps _ _ _) ?_
      assumption
    clear_value v3
    refine Res.keeps_ite ?_ ?_
    · refine Res.keeps_next ?_
      refine .trans (State.requestRepair_keeps _ _ _ _ _) ?_
      refine .trans (State.emit_keeps _ _) ?_
      assumption
    extract_lets +onlyGivenNames v4
    have h4 : Keeps true true true true v4 s := by
      unfold v4
      refine .trans (State.count_keeps _ _ _) ?_
      refine .trans (State.mirrorLane_keeps _ _ _ _) ?_
      refine .trans (State.repairEnds_keeps _ _) ?_
      assumption
    clear_value v4
    extract_lets +onlyGivenNames v5
    have h5 : Keeps true true true true v5 s := by
      unfold v5
      refine .trans (State.irqBit_keeps _ _ _) ?_
      refine .trans (State.setErr_keeps _ _ _) ?_
      assumption
    clear_value v5
    extract_lets +onlyGivenNames v6
    have h6 : Keeps true true true true v6 s := by
      unfold v6
      refine .trans (State.logPage_keeps _ _ _ _ _ _ _) ?_
      assumption
    clear_value v6
    extract_lets +onlyGivenNames v7
    have h7 : Keeps true true true true v7 s := by
      unfold v7
      refine .trans (State.modLink_keeps _ _ _) ?_
      assumption
    clear_value v7
    refine Res.keeps_next ?_
    refine .trans (State.nextRepair_keeps _ _) ?_
    refine .ite ?_ ?_
    · refine .trans (State.doneOp_keeps _ _) ?_
      assumption
    assumption
  · refine Res.keeps_next ?_
    assumption

theorem execReplayTimeout_keeps (port : Fin 14) (s : State) :
    Res.keeps true true true true (execReplayTimeout port s) s := by
  unfold execReplayTimeout
  extract_lets +onlyGivenNames v1
  clear_value v1
  refine Res.keeps_ite ?_ ?_
  · refine Res.keeps_next ?_
    exact .refl _
  split
  · refine Res.keeps_next ?_
    exact .refl _
  · refine Res.keeps_next ?_
    refine .trans (State.replay_keeps _ _ _) ?_
    refine .trans (State.advanceTo_keeps _ _) ?_
    exact .refl _

end Sys2Proof.Machine
end

