-- ==== Sys2Proof/Laws/Keeps8.lean ====
section
/-! SUPPORT. What the operations and commands keep, part 8. -/

set_option Elab.async false

namespace Sys2Proof.Machine

theorem State.reserve_keeps (s : State) (e : List Byte) :
    Keeps false true true false (State.reserve s e).1 s := by
  unfold State.reserve
  extract_lets +onlyGivenNames v1
  clear_value v1
  refine .ite_fst ?_ ?_
  · dsimp only
    exact .refl _
  split
  · dsimp only
    exact .refl _
  · split
    · dsimp only
      exact .refl _
    · extract_lets +onlyGivenNames v2
      clear_value v2
      extract_lets +onlyGivenNames v3
      have h3 : Keeps false true true false v3 s := by
        unfold v3
        refine .trans (State.each_keeps (m := false) (k := true) (r := true) (p := false) ?_) ?_
        · intro a4_0 a4_1
          refine .trans (State.modRot_keeps _ _) ?_
          refine .trans (State.rotate_keeps _ _) ?_
          exact .refl _
        exact .refl _
      clear_value v3
      extract_lets +onlyGivenNames v5
      clear_value v5
      extract_lets +onlyGivenNames v6
      have h6 : Keeps false true true false v6 s := by
        unfold v6
        refine .trans (State.modPhn_keeps _ _) ?_
        assumption
      clear_value v6
      dsimp only
      refine .trans (State.askMoves_keeps _ _) ?_
      assumption

theorem execReserve_keeps (entry : List Byte) (s : State) :
    Res.keeps false true true false (execReserve entry s) s := by
  unfold execReserve
  refine Res.keeps_next ?_
  refine .trans (State.evaluate_keeps (m := false) (k := true) (r := true)  ?_) ?_
  · intro a1_0
    refine .trans (State.reserve_keeps _ _) ?_
    exact .refl _
  exact .refl _

theorem execRetrain_keeps (who : Issuer) (port : Fin 14) (tag : ℕ) (s : State) :
    Res.keeps true true true true (execRetrain who port tag s) s := by
  unfold execRetrain
  extract_lets +onlyGivenNames v1
  clear_value v1
  refine Res.keeps_next ?_
  refine .trans (State.command_keeps (m := true) (k := true) (r := true) (p := true) ?_) ?_
  · intro a2_0
    refine .ite ?_ ?_
    · refine .trans (State.retrain_keeps _ _) ?_
      refine .trans (State.accept_keeps _ _ _) ?_
      exact .refl _
    refine .ite ?_ ?_
    · refine .trans (State.linkEnter_keeps _ _ _ _) ?_
      refine .trans (State.linkEnter_keeps _ _ _ _) ?_
      refine .trans (State.accept_keeps _ _ _) ?_
      exact .refl _
    refine .trans (State.rejectOp_keeps _ _ _ _ _) ?_
    exact .refl _
  exact .refl _

theorem execRetrainDone_keeps (port : Fin 14) (faulty : List (Fin 128)) (s : State) :
    Res.keeps true true true true (execRetrainDone port faulty s) s := by
  unfold execRetrainDone
  extract_lets +onlyGivenNames v1
  clear_value v1
  refine Res.keeps_ite ?_ ?_
  · split
    · rename_i b2_0 b2_1 b2_2
      have kb2_2 := State.replaceLanes_keeps s v1 (laneList v1 faulty) _ b2_2
      replace kb2_2 := Keeps.trans (m := true) (k := true) (r := true) (p := true) kb2_2 (s := s) (by first | exact .refl _ | assumption)
      extract_lets +onlyGivenNames v3
      have h3 : Keeps true true true true v3 s := by
        unfold v3
        refine .trans (State.modLink_keeps _ _ _) ?_
        assumption
      clear_value v3
      extract_lets +onlyGivenNames v4
      have h4 : Keeps true true true true v4 s := by
        unfold v4
        refine .trans (State.setReg_keeps _ _ _ _) ?_
        assumption
      clear_value v4
      extract_lets +onlyGivenNames v5
      have h5 : Keeps true true true true v5 s := by
        unfold v5
        refine .ite ?_ ?_
        · assumption
        refine .trans (State.count_keeps _ _ _) ?_
        assumption
      clear_value v5
      refine Res.keeps_next ?_
      refine .trans (State.linkAlign_keeps _ _) ?_
      assumption
    · refine Res.keeps_next ?_
      refine .trans (State.linkFault_keeps _ _) ?_
      exact .refl _
  refine Res.keeps_next ?_
  exact .refl _

theorem execRhWindowStart_keeps (stack : Fin 4) (s : State) :
    Res.keeps true true true true (execRhWindowStart stack s) s := by
  unfold execRhWindowStart
  extract_lets +onlyGivenNames v1
  clear_value v1
  refine Res.keeps_next ?_
  refine .trans (State.modStack_keeps _ _ _) ?_
  refine .trans (State.advanceTo_keeps _ _) ?_
  exact .refl _

theorem State.ringCommand_keeps {m k r p : Bool} {s : State} {who : Issuer} {opcode tag : Nat} {f : State → Op → Nat → Ring → State}
    (h : ∀ o n ring, Keeps m k r p (f s o n ring) s) : Res.keeps m k r p (s.ringCommand who opcode tag f) s := by
  have all : ∀ {t}, Keeps true true true true t s → Keeps m k r p t s := fun h => h.to (by cases m <;> cases k <;> cases r <;> cases p <;> rfl)
  unfold State.ringCommand
  refine Res.keeps_next (State.command_keeps fun o => ?_)
  exact .ite (all (State.rejectOp_keeps _ _ _ _ _)) (.ite (all (State.rejectOp_keeps _ _ _ _ _)) (h _ _ _))

theorem State.ringTo_keeps (s : State) (op : Op) (n : ℕ) (st : RingState) :
    Keeps true true true true (State.ringTo s op n st) s := by
  unfold State.ringTo
  refine .trans (State.doneOp_keeps _ _) ?_
  refine .trans (State.modRing_keeps _ _ _) ?_
  refine .trans (State.accept_keeps _ _ _) ?_
  exact .refl _

theorem execRingClose_keeps (who : Issuer) (tag : ℕ) (s : State) :
    Res.keeps true true true true (execRingClose who tag s) s := by
  unfold execRingClose
  refine Res.keeps_trans (m1 := _) (State.ringCommand_keeps (m := true) (k := true) (r := true) (p := true) ?_) ?_
  · intro a1_0 a1_1 a1_2
    refine .ite ?_ ?_
    · refine .trans (State.rejectOp_keeps _ _ _ _ _) ?_
      exact .refl _
    refine .ite ?_ ?_
    · refine .trans (State.rejectOp_keeps _ _ _ _ _) ?_
      exact .refl _
    refine .trans (State.ringTo_keeps _ _ _ _) ?_
    exact .refl _
  exact .refl _

theorem execRingConsume_keeps (ring : Fin 32768) (entry : List Byte) (ok : Bool) (s : State) :
    Res.keeps true true true true (execRingConsume ring entry ok s) s := by
  unfold execRingConsume
  extract_lets +onlyGivenNames v1
  clear_value v1
  extract_lets +onlyGivenNames v2
  clear_value v2
  refine Res.keeps_ite ?_ ?_
  · refine Res.keeps_next ?_
    exact .refl _
  refine Res.keeps_ite ?_ ?_
  · refine Res.keeps_next ?_
    refine .trans (State.ringFault_keeps _ _) ?_
    exact .refl _
  extract_lets +onlyGivenNames v3
  clear_value v3
  refine Res.keeps_next ?_
  refine .trans (State.modRing_keeps _ _ _) ?_
  exact .refl _

theorem execRingHoldoffExpiry_keeps (ring : Fin 32768) (s : State) :
    Res.keeps true true true true (execRingHoldoffExpiry ring s) s := by
  unfold execRingHoldoffExpiry
  extract_lets +onlyGivenNames v1
  clear_value v1
  refine Res.keeps_ite ?_ ?_
  · extract_lets +onlyGivenNames v2
    clear_value v2
    refine Res.keeps_next ?_
    refine .trans (State.ringMessage_keeps _ _) ?_
    refine .trans (State.advanceTo_keeps _ _) ?_
    exact .refl _
  refine Res.keeps_next ?_
  exact .refl _

theorem execRingOpen_keeps (who : Issuer) (tag : ℕ) (s : State) :
    Res.keeps true true true true (execRingOpen who tag s) s := by
  unfold execRingOpen
  refine Res.keeps_trans (m1 := _) (State.ringCommand_keeps (m := true) (k := true) (r := true) (p := true) ?_) ?_
  · intro a1_0 a1_1 a1_2
    refine .ite ?_ ?_
    · refine .trans (State.rejectOp_keeps _ _ _ _ _) ?_
      exact .refl _
    refine .ite ?_ ?_
    · refine .trans (State.rejectOp_keeps _ _ _ _ _) ?_
      exact .refl _
    extract_lets +onlyGivenNames v2
    have h2 : Keeps true true true true v2 s := by
      unfold v2
      refine .trans (State.modRing_keeps _ _ _) ?_
      exact .refl _
    clear_value v2
    refine .trans (State.ringTo_keeps _ _ _ _) ?_
    assumption
  exact .refl _

theorem execRingResize_keeps (who : Issuer) (tag : ℕ) (s : State) :
    Res.keeps true true true true (execRingResize who tag s) s := by
  unfold execRingResize
  refine Res.keeps_trans (m1 := _) (State.ringCommand_keeps (m := true) (k := true) (r := true) (p := true) ?_) ?_
  · intro a1_0 a1_1 a1_2
    extract_lets +onlyGivenNames v2
    clear_value v2
    refine .ite ?_ ?_
    · refine .trans (State.rejectOp_keeps _ _ _ _ _) ?_
      exact .refl _
    refine .ite ?_ ?_
    · refine .trans (State.rejectOp_keeps _ _ _ _ _) ?_
      exact .refl _
    refine .ite ?_ ?_
    · refine .trans (State.rejectOp_keeps _ _ _ _ _) ?_
      exact .refl _
    refine .ite ?_ ?_
    · refine .trans (State.doneOp_keeps _ _) ?_
      refine .trans (State.modRing_keeps _ _ _) ?_
      refine .trans (State.accept_keeps _ _ _) ?_
      exact .refl _
    refine .ite ?_ ?_
    · refine .trans (State.rejectOp_keeps _ _ _ _ _) ?_
      exact .refl _
    refine .ite ?_ ?_
    · refine .trans (State.doneOp_keeps _ _) ?_
      refine .trans (State.accept_keeps _ _ _) ?_
      exact .refl _
    refine .trans (State.doneOp_keeps _ _) ?_
    refine .trans (State.modRing_keeps _ _ _) ?_
    refine .trans (State.accept_keeps _ _ _) ?_
    exact .refl _
  exact .refl _

theorem execRingResume_keeps (who : Issuer) (tag : ℕ) (s : State) :
    Res.keeps true true true true (execRingResume who tag s) s := by
  unfold execRingResume
  refine Res.keeps_trans (m1 := _) (State.ringCommand_keeps (m := true) (k := true) (r := true) (p := true) ?_) ?_
  · intro a1_0 a1_1 a1_2
    refine .ite ?_ ?_
    · refine .trans (State.ringTo_keeps _ _ _ _) ?_
      exact .refl _
    refine .trans (State.rejectOp_keeps _ _ _ _ _) ?_
    exact .refl _
  exact .refl _

theorem execRingSuspend_keeps (who : Issuer) (tag : ℕ) (s : State) :
    Res.keeps true true true true (execRingSuspend who tag s) s := by
  unfold execRingSuspend
  refine Res.keeps_trans (m1 := _) (State.ringCommand_keeps (m := true) (k := true) (r := true) (p := true) ?_) ?_
  · intro a1_0 a1_1 a1_2
    refine .ite ?_ ?_
    · refine .trans (State.ringTo_keeps _ _ _ _) ?_
      exact .refl _
    refine .trans (State.rejectOp_keeps _ _ _ _ _) ?_
    exact .refl _
  exact .refl _

theorem execSampleGroupLaunch_keeps (conv : Fin 5) (codes : List ℕ) (s : State) :
    Res.keeps true true true true (execSampleGroupLaunch conv codes s) s := by
  unfold execSampleGroupLaunch
  extract_lets +onlyGivenNames v1
  clear_value v1
  refine Res.keeps_ite ?_ ?_
  · refine Res.keeps_next ?_
    exact .refl _
  extract_lets +onlyGivenNames v2
  clear_value v2
  extract_lets +onlyGivenNames v3
  have h3 : Keeps true true true true v3 s := by
    unfold v3
    refine .trans (State.advanceTo_keeps _ _) ?_
    exact .refl _
  clear_value v3
  extract_lets +onlyGivenNames v4
  clear_value v4
  extract_lets +onlyGivenNames v5
  have h5 : Keeps true true true true v5 s := by
    unfold v5
    refine .trans (State.modConv_keeps _ _ _) ?_
    assumption
  clear_value v5
  extract_lets +onlyGivenNames v6
  have h6 : Keeps true true true true v6 s := by
    unfold v6
    refine .trans (State.modLink_keeps _ _ _) ?_
    assumption
  clear_value v6
  refine Res.keeps_next ?_
  refine .trans (State.emit_keeps _ _) ?_
  assumption

theorem execSclkLock_keeps (conv : Fin 5) (s : State) :
    Res.keeps true true true true (execSclkLock conv s) s := by
  unfold execSclkLock
  refine Res.keeps_ite ?_ ?_
  · refine Res.keeps_next ?_
    refine .trans (State.updateLocked_keeps _ _) ?_
    refine .trans (State.wb_keeps _ _ _ _) ?_
    refine .trans (State.convEnter_keeps _ _ _) ?_
    exact .refl _
  refine Res.keeps_next ?_
  exact .refl _

theorem execSclkLockLost_keeps (conv : Fin 5) (s : State) :
    Res.keeps true true true true (execSclkLockLost conv s) s := by
  unfold execSclkLockLost
  refine Res.keeps_ite ?_ ?_
  · refine Res.keeps_next ?_
    refine .trans (State.convDown_keeps _ _ _) ?_
    exact .refl _
  refine Res.keeps_next ?_
  exact .refl _

theorem execScrubRead_keeps (stack : Fin 4) (ecc : ℕ) (s : State) :
    Res.keeps false true true false (execScrubRead stack ecc s) s := by
  unfold execScrubRead
  extract_lets +onlyGivenNames v1
  clear_value v1
  refine Res.keeps_ite ?_ ?_
  · refine Res.keeps_next ?_
    exact .refl _
  extract_lets +onlyGivenNames v2
  clear_value v2
  extract_lets +onlyGivenNames v3
  have h3 : Keeps false true true false v3 s := by
    unfold v3
    refine .trans (State.modStack_keeps _ _ _) ?_
    exact .refl _
  clear_value v3
  split
  · refine Res.keeps_next ?_
    assumption
  · extract_lets +onlyGivenNames v4
    clear_value v4
    extract_lets +onlyGivenNames v5
    have h5 : Keeps false true true false v5 s := by
      unfold v5
      refine .ite ?_ ?_
      · refine .trans (State.correctLine_keeps _ _ _) ?_
        assumption
      refine .ite ?_ ?_
      · refine .trans (State.uncorrectable_keeps _ _ _ _) ?_
        assumption
      assumption
    clear_value v5
    refine Res.keeps_next ?_
    refine .trans (State.loseLayer_keeps _ _) ?_
    assumption

theorem State.refreshSensor_keeps (s : State) (y1 : ℕ × ℤ) :
    Keeps true true true true (State.refreshSensor s y1) s := by
  unfold State.refreshSensor
  refine .ite ?_ ?_
  · exact .refl _
  extract_lets +onlyGivenNames v1
  have h1 : Keeps true true true true v1 s := by
    unfold v1
    refine .trans (State.modPower_keeps _ _) ?_
    exact .refl _
  clear_value v1
  extract_lets +onlyGivenNames v2
  clear_value v2
  refine .ite ?_ ?_
  · assumption
  refine .trans (State.modPower_keeps _ _) ?_
  assumption

theorem execSensorRefresh_keeps (readings : List (Fin 16 × ℤ)) (s : State) :
    Res.keeps true true true true (execSensorRefresh readings s) s := by
  unfold execSensorRefresh
  refine Res.keeps_ite ?_ ?_
  · refine Res.keeps_next ?_
    exact .refl _
  extract_lets +onlyGivenNames v1
  have h1 : Keeps true true true true v1 s := by
    unfold v1
    refine .trans (State.each_keeps (m := true) (k := true) (r := true) (p := true) ?_) ?_
    · intro a2_0 a2_1
      refine .trans (State.refreshSensor_keeps _ _) ?_
      exact .refl _
    exact .refl _
  clear_value v1
  extract_lets +onlyGivenNames v3
  clear_value v3
  extract_lets +onlyGivenNames v4
  clear_value v4
  refine Res.keeps_next ?_
  refine .trans (State.modPower_keeps _ _) ?_
  assumption

theorem execSeqWindowExpiry_keeps (pipe : Fin 6) (ev : Fin 4) (s : State) :
    Res.keeps true true true true (execSeqWindowExpiry pipe ev s) s := by
  unfold execSeqWindowExpiry
  extract_lets +onlyGivenNames v1
  clear_value v1
  extract_lets +onlyGivenNames v2
  clear_value v2
  split
  · extract_lets +onlyGivenNames v3
    clear_value v3
    split
    · refine Res.keeps_ite ?_ ?_
      · refine Res.keeps_next ?_
        exact .refl _
      refine Res.keeps_next ?_
      refine .trans (State.count_keeps _ _ _) ?_
      refine .trans (State.setEvent_keeps _ _ _ _) ?_
      exact .refl _
    · refine Res.keeps_next ?_
      refine .trans (State.count_keeps _ _ _) ?_
      refine .trans (State.setEvent_keeps _ _ _ _) ?_
      refine .trans (State.advanceTo_keeps _ _) ?_
      exact .refl _
  · refine Res.keeps_next ?_
    exact .refl _

theorem execSetTime_keeps (who : Issuer) (tag : ℕ) (s : State) :
    Res.keeps true true true true (execSetTime who tag s) s := by
  unfold execSetTime
  refine Res.keeps_next ?_
  refine .trans (State.command_keeps (m := true) (k := true) (r := true) (p := true) ?_) ?_
  · intro a1_0
    refine .ite ?_ ?_
    · refine .trans (State.rejectOp_keeps _ _ _ _ _) ?_
      exact .refl _
    refine .trans (State.modTb_keeps _ _) ?_
    refine .trans (State.accept_keeps _ _ _) ?_
    exact .refl _
  exact .refl _

theorem execSidebandInitDone_keeps (port : Fin 14) (s : State) :
    Res.keeps true true true true (execSidebandInitDone port s) s := by
  unfold execSidebandInitDone
  extract_lets +onlyGivenNames v1
  clear_value v1
  refine Res.keeps_next ?_
  refine .ite ?_ ?_
  · refine .trans (State.linkEnter_keeps _ _ _ _) ?_
    exact .refl _
  exact .refl _

theorem execSmbusTimeout_keeps (s : State) :
    Res.keeps true true true true (execSmbusTimeout s) s := by
  unfold execSmbusTimeout
  refine Res.keeps_next ?_
  refine .trans (State.modPower_keeps _ _) ?_
  exact .refl _

theorem execSpareAssign_keeps (conv : Fin 4) (s : State) :
    Res.keeps true true true true (execSpareAssign conv s) s := by
  unfold execSpareAssign
  refine Res.keeps_next ?_
  refine .ite ?_ ?_
  · exact .refl _
  refine .trans (State.rotate_keeps _ _) ?_
  exact .refl _

theorem execSpareCopyDone_keeps (stack : Fin 4) (unread : List ℕ) (s : State) :
    Res.keeps false true true false (execSpareCopyDone stack unread s) s := by
  unfold execSpareCopyDone
  extract_lets +onlyGivenNames v1
  clear_value v1
  extract_lets +onlyGivenNames v2
  clear_value v2
  refine Res.keeps_ite ?_ ?_
  · refine Res.keeps_next ?_
    exact .refl _
  extract_lets +onlyGivenNames v3
  clear_value v3
  extract_lets +onlyGivenNames v4
  clear_value v4
  extract_lets +onlyGivenNames v5
  clear_value v5
  extract_lets +onlyGivenNames v6
  clear_value v6
  extract_lets +onlyGivenNames v7
  extract_lets +onlyGivenNames v8
  clear_value v8
  extract_lets +onlyGivenNames v9
  have h9 : Keeps false true true false v9 s := by
    unfold v9
    refine .trans (foldl_keeps (m := false) (k := true) (r := true) (p := false) ?_) ?_
    · intro a10_0 a10_1
      refine .trans (State.setPoison_keeps _ _ _) ?_
      exact .refl _
    exact .refl _
  clear_value v9
  extract_lets +onlyGivenNames v11
  have h11 : Keeps false true true false v11 s := by
    unfold v11
    refine .trans (foldl_keeps (m := false) (k := true) (r := true) (p := false) ?_) ?_
    · intro a12_0 a12_1
      split
      · refine .trans (State.mergeLine_keeps _ _ _) ?_
        exact .refl _
      · exact .refl _
    assumption
  clear_value v11
  extract_lets +onlyGivenNames v13
  have h13 : Keeps false true true false v13 s := by
    unfold v13
    refine .trans (State.modStack_keeps _ _ _) ?_
    assumption
  clear_value v13
  extract_lets +onlyGivenNames v14
  have h14 : Keeps false true true false v14 s := by
    unfold v14
    split
    · refine .trans (State.setSlot_keeps _ _ _ _ _) ?_
      assumption
    · assumption
  clear_value v14
  extract_lets +onlyGivenNames v17
  have h17 : Keeps false true true false v17 s := by
    unfold v17
    split
    · refine .trans (State.setSlot_keeps _ _ _ _ _) ?_
      assumption
    · assumption
  clear_value v17
  extract_lets +onlyGivenNames v18
  have h18 : Keeps false true true false v18 s := by
    unfold v18
    refine .trans (State.wf_keeps _ _ _ _) ?_
    refine .trans (State.setRank_keeps _ _ _ _) ?_
    refine .trans (State.setRank_keeps _ _ _ _) ?_
    assumption
  clear_value v18
  extract_lets +onlyGivenNames v19
  have h19 : Keeps false true true false v19 s := by
    unfold v19
    refine .trans (State.modPage_keeps _ _ _) ?_
    assumption
  clear_value v19
  extract_lets +onlyGivenNames v20
  have h20 : Keeps false true true false v20 s := by
    unfold v20
    refine .trans (State.logPage_keeps _ _ _ _ _ _ _) ?_
    refine .trans (State.setErr_keeps _ _ _) ?_
    refine .trans (State.irqBit_keeps _ _ _) ?_
    refine .trans (State.refreshMem_keeps _ _) ?_
    assumption
  clear_value v20
  refine Res.keeps_next ?_
  refine .trans (State.loseLayer_keeps _ _) ?_
  refine .trans (State.nextRank_keeps _ _) ?_
  assumption

theorem State.slotEval_keeps (s : State) (p : ℕ) (m : ℕ) (c : ℕ) (bins : List ℤ) (rare : List Bool) :
    Keeps true true true true (State.slotEval s p m c bins rare) s := by
  unfold State.slotEval
  extract_lets +onlyGivenNames v1
  clear_value v1
  extract_lets +onlyGivenNames v2
  clear_value v2
  extract_lets +onlyGivenNames v3
  clear_value v3
  extract_lets +onlyGivenNames v4
  clear_value v4
  extract_lets +onlyGivenNames v5
  clear_value v5
  extract_lets +onlyGivenNames v6
  clear_value v6
  extract_lets +onlyGivenNames v7
  clear_value v7
  extract_lets +onlyGivenNames v8
  clear_value v8
  extract_lets +onlyGivenNames v9
  clear_value v9
  extract_lets +onlyGivenNames v10
  clear_value v10
  extract_lets +onlyGivenNames v11
  have h11 : Keeps true true true true v11 s := by
    unfold v11
    refine .trans (State.wf_keeps _ _ _ _) ?_
    exact .refl _
  clear_value v11
  extract_lets +onlyGivenNames v12
  have h12 : Keeps true true true true v12 s := by
    unfold v12
    refine .trans (State.wf_keeps _ _ _ _) ?_
    assumption
  clear_value v12
  extract_lets +onlyGivenNames v13
  have h13 : Keeps true true true true v13 s := by
    unfold v13
    refine .trans (State.modTrig_keeps _ _ _) ?_
    assumption
  clear_value v13
  extract_lets +onlyGivenNames v14
  have h14 : Keeps true true true true v14 s := by
    unfold v14
    refine .ite ?_ ?_
    · refine .trans (State.addChange_keeps _ _ _ _ _) ?_
      assumption
    assumption
  clear_value v14
  refine .ite ?_ ?_
  · refine .trans (State.addOcc_keeps _ _ _) ?_
    refine .trans (State.count_keeps _ _ _) ?_
    assumption
  assumption

theorem State.contourEval_keeps (s : State) (p : ℕ) (c : ℕ) (marks : ℕ) (bins : List ℤ) (rare : List Bool) :
    Keeps true true true true (State.contourEval s p c marks bins rare) s := by
  unfold State.contourEval
  extract_lets +onlyGivenNames v1
  clear_value v1
  refine .ite ?_ ?_
  · refine .trans (State.countDropped_keeps _ _ _) ?_
    exact .refl _
  extract_lets +onlyGivenNames v2
  clear_value v2
  refine .ite ?_ ?_
  · refine .ite ?_ ?_
    · exact .refl _
    refine .trans (State.slotsClear_keeps _ _ _) ?_
    refine .trans (State.countBy_keeps _ _ _ _) ?_
    exact .refl _
  extract_lets +onlyGivenNames v3
  clear_value v3
  extract_lets +onlyGivenNames v4
  clear_value v4
  extract_lets +onlyGivenNames v5
  clear_value v5
  extract_lets +onlyGivenNames v6
  have h6 : Keeps true true true true v6 s := by
    unfold v6
    refine .ite ?_ ?_
    · exact .refl _
    refine .trans (foldl_keeps (m := true) (k := true) (r := true) (p := true) ?_) ?_
    · intro a7_0 a7_1
      refine .trans (State.slotClear_keeps _ _ _ _) ?_
      exact .refl _
    refine .trans (State.setErr_keeps _ _ _) ?_
    exact .refl _
  clear_value v6
  extract_lets +onlyGivenNames v8
  have h8 : Keeps true true true true v8 s := by
    unfold v8
    refine .trans (foldl_keeps (m := true) (k := true) (r := true) (p := true) ?_) ?_
    · intro a9_0 a9_1
      refine .trans (State.slotEval_keeps _ _ _ _ _ _) ?_
      exact .refl _
    assumption
  clear_value v8
  refine .ite ?_ ?_
  · refine .trans (State.irqBit_keeps _ _ _) ?_
    assumption
  assumption

theorem State.groupFrame_keeps (s : State) (p : ℕ) (ws : List (ℕ × Word)) (frame : ℕ) (next : ℕ) (six : ℕ) (marks : ℕ) (src : ℕ) (flatId : ℕ) (bins : List Bin) :
    Keeps true true true true (State.groupFrame s p ws frame next six marks src flatId bins) s := by
  unfold State.groupFrame
  extract_lets +onlyGivenNames v1
  clear_value v1
  refine .ite ?_ ?_
  · exact .refl _
  extract_lets +onlyGivenNames v2
  clear_value v2
  extract_lets +onlyGivenNames v3
  have h3 : Keeps true true true true v3 s := by
    unfold v3
    split
    · refine .ite ?_ ?_
      · exact .refl _
      refine .trans (State.flushGroup_keeps _ _ _) ?_
      exact .refl _
    · exact .refl _
  clear_value v3
  extract_lets +onlyGivenNames v4
  clear_value v4
  refine .ite ?_ ?_
  · refine .trans (State.modEngine_keeps _ _ _) ?_
    assumption
  refine .trans (State.emitGroup_keeps _ _ _ _ _) ?_
  assumption

theorem State.modAcc_keeps (s : State) (p : ℕ) (time : ℕ) (f : GrtAcc → GrtAcc) :
    Keeps true true true true (State.modAcc s p time f) s := by
  unfold State.modAcc
  refine .trans (State.modGrat_keeps _ _ _) ?_
  exact .refl _

theorem State.addHits_keeps (s : State) (p : ℕ) (time : ℕ) (ups : List (ℕ × ℕ)) (flags : ℕ) :
    Keeps true true true true (State.addHits s p time ups flags) s := by
  unfold State.addHits
  extract_lets +onlyGivenNames v1
  clear_value v1
  extract_lets +onlyGivenNames v2
  have h2 : Keeps true true true true v2 s := by
    unfold v2
    refine .trans (State.modGrat_keeps _ _ _) ?_
    exact .refl _
  clear_value v2
  refine .trans (State.modAcc_keeps _ _ _ _) ?_
  assumption

theorem State.grtSpectrum_keeps (s : State) (p : ℕ) (frame : ℕ) (time : ℕ) (marks : ℕ) (bins : List ℤ) :
    Keeps true true true true (State.grtSpectrum s p frame time marks bins).1 s := by
  unfold State.grtSpectrum
  extract_lets +onlyGivenNames v1
  clear_value v1
  refine .ite_fst ?_ ?_
  · dsimp only
    refine .trans (State.countDropped_keeps _ _ _) ?_
    exact .refl _
  refine .ite_fst ?_ ?_
  · refine .ite_fst ?_ ?_
    · dsimp only
      refine .trans (State.irqBit_keeps _ _ _) ?_
      refine .trans (State.accEnter_keeps _ _ _) ?_
      exact .refl _
    dsimp only
    exact .refl _
  extract_lets +onlyGivenNames v2
  have h2 : Keeps true true true true v2 s := by
    unfold v2
    refine .ite ?_ ?_
    · refine .trans (State.modGrat_keeps _ _ _) ?_
      refine .trans (State.accEnter_keeps _ _ _) ?_
      exact .refl _
    exact .refl _
  clear_value v2
  refine .ite_fst ?_ ?_
  · dsimp only
    refine .trans (State.modAcc_keeps _ _ _ _) ?_
    assumption
  refine .ite_fst ?_ ?_
  · dsimp only
    assumption
  extract_lets +onlyGivenNames v3
  clear_value v3
  extract_lets +onlyGivenNames v4
  clear_value v4
  dsimp only
  refine .trans (State.addHits_keeps _ _ _ _ _) ?_
  assumption

theorem State.deliverFrame_keeps (s : State) (p : ℕ) (ws : List (ℕ × Word)) (start : ℕ) (xs : List (ℤ × ℤ)) :
    Keeps true true true true (State.deliverFrame s p ws start xs) s := by
  unfold State.deliverFrame
  extract_lets +onlyGivenNames v1
  clear_value v1
  extract_lets +onlyGivenNames v2
  clear_value v2
  extract_lets +onlyGivenNames v3
  clear_value v3
  extract_lets +onlyGivenNames v4
  clear_value v4
  extract_lets +onlyGivenNames v5
  clear_value v5
  extract_lets +onlyGivenNames v6
  clear_value v6
  extract_lets +onlyGivenNames v7
  clear_value v7
  extract_lets +onlyGivenNames v8
  clear_value v8
  extract_lets +onlyGivenNames v9
  clear_value v9
  extract_lets +onlyGivenNames v10
  clear_value v10
  extract_lets +onlyGivenNames v11
  clear_value v11
  extract_lets +onlyGivenNames v12
  clear_value v12
  extract_lets +onlyGivenNames v13
  have h13 : Keeps true true true true v13 s := by
    unfold v13
    refine .trans (State.setReg_keeps _ _ _ _) ?_
    exact .refl _
  clear_value v13
  extract_lets +onlyGivenNames v14
  have h14 : Keeps true true true true v14 s := by
    unfold v14
    refine .ite ?_ ?_
    · refine .trans (State.setErr_keeps _ _ _) ?_
      assumption
    assumption
  clear_value v14
  extract_lets +onlyGivenNames v15
  have h15 : Keeps true true true true v15 s := by
    unfold v15
    refine .ite ?_ ?_
    · refine .trans (State.setErr_keeps _ _ _) ?_
      assumption
    assumption
  clear_value v15
  extract_lets +onlyGivenNames v16
  clear_value v16
  extract_lets +onlyGivenNames v17
  have h17 : Keeps true true true true v17 s := by
    unfold v17
    refine .ite ?_ ?_
    · refine .trans (State.count_keeps _ _ _) ?_
      assumption
    refine .trans (State.modEngine_keeps _ _ _) ?_
    refine .trans (State.setPair_keeps _ _ _ _) ?_
    assumption
  clear_value v17
  extract_lets +onlyGivenNames v18
  have h18 : Keeps true true true true v18 s := by
    unfold v18
    refine .trans (State.showMarks_keeps _ _ _) ?_
    assumption
  clear_value v18
  extract_lets +onlyGivenNames v19
  have h19 : Keeps true true true true v19 s := by
    unfold v19
    refine .ite ?_ ?_
    · refine .trans (State.modEngine_keeps _ _ _) ?_
      refine .trans (State.irqBit_keeps _ _ _) ?_
      assumption
    assumption
  clear_value v19
  extract_lets +onlyGivenNames v20
  clear_value v20
  extract_lets +onlyGivenNames v21
  clear_value v21
  extract_lets +onlyGivenNames v22
  clear_value v22
  extract_lets +onlyGivenNames v23
  clear_value v23
  extract_lets +onlyGivenNames v24
  clear_value v24
  refine .ite ?_ ?_
  · assumption
  extract_lets +onlyGivenNames v25
  have h25 : Keeps true true true true v25.1 s := by
    unfold v25
    refine .trans (State.grtSpectrum_keeps _ _ _ _ _ _) ?_
    assumption
  clear_value v25
  extract_lets +onlyGivenNames v26
  have h26 : Keeps true true true true v26 s := by
    unfold v26
    refine .trans (State.contourEval_keeps _ _ _ _ _ _) ?_
    assumption
  clear_value v26
  extract_lets +onlyGivenNames v27
  have h27 : Keeps true true true true v27 s := by
    unfold v27
    refine .trans (State.traceSpectrum_keeps _ _ _ _ _) ?_
    assumption
  clear_value v27
  refine .trans (State.groupFrame_keeps _ _ _ _ _ _ _ _ _ _) ?_
  assumption

theorem State.switchDue_keeps (s : State) (p : ℕ) :
    Keeps true true true true (State.switchDue s p) s := by
  unfold State.switchDue
  refine .trans (foldl_keeps (m := true) (k := true) (r := true) (p := true) ?_) ?_
  · intro a1_0 a1_1
    refine .ite ?_ ?_
    · refine .trans (State.switchGrid_keeps _ _ _ _) ?_
      exact .refl _
    exact .refl _
  exact .refl _

theorem execSpectrum_keeps (pipe : Fin 6) (_bins : Unit) (_sat : Unit) (s : State) :
    Res.keeps true true true true (execSpectrum pipe _bins _sat s) s := by
  unfold execSpectrum
  extract_lets +onlyGivenNames v1
  clear_value v1
  refine Res.keeps_ite ?_ ?_
  · refine Res.keeps_next ?_
    exact .refl _
  extract_lets +onlyGivenNames v2
  clear_value v2
  extract_lets +onlyGivenNames v3
  clear_value v3
  extract_lets +onlyGivenNames v4
  clear_value v4
  extract_lets +onlyGivenNames v5
  clear_value v5
  refine Res.keeps_ite ?_ ?_
  · refine Res.keeps_next ?_
    exact .refl _
  extract_lets +onlyGivenNames v6
  clear_value v6
  extract_lets +onlyGivenNames v7
  have h7 : Keeps true true true true v7 s := by
    unfold v7
    refine .ite ?_ ?_
    · refine .trans (State.deliverFrame_keeps _ _ _ _ _) ?_
      exact .refl _
    exact .refl _
  clear_value v7
  extract_lets +onlyGivenNames v8
  clear_value v8
  extract_lets +onlyGivenNames v9
  have h9 : Keeps true true true true v9 s := by
    unfold v9
    refine .trans (State.switchDue_keeps _ _) ?_
    refine .trans (State.modEngine_keeps _ _ _) ?_
    assumption
  clear_value v9
  extract_lets +onlyGivenNames v10
  clear_value v10
  refine Res.keeps_next ?_
  refine .trans (State.modChain_keeps _ _ _) ?_
  assumption

theorem execSrEntryCommand_keeps (stack : Fin 4) (s : State) :
    Res.keeps true true true true (execSrEntryCommand stack s) s := by
  unfold execSrEntryCommand
  extract_lets +onlyGivenNames v1
  clear_value v1
  extract_lets +onlyGivenNames v2
  clear_value v2
  extract_lets +onlyGivenNames v3
  have h3 : Keeps true true true true v3 s := by
    unfold v3
    refine .trans (State.srUpdate_keeps _ _) ?_
    exact .refl _
  clear_value v3
  refine Res.keeps_ite ?_ ?_
  · refine Res.keeps_next ?_
    assumption
  refine Res.keeps_next ?_
  refine .trans (State.irqBit_keeps _ _ _) ?_
  refine .trans (State.count_keeps _ _ _) ?_
  refine .trans (State.srEnter_keeps _ _ _) ?_
  refine .trans (State.wf_keeps _ _ _ _) ?_
  assumption

theorem execSrExitDone_keeps (stack : Fin 4) (s : State) :
    Res.keeps true true true true (execSrExitDone stack s) s := by
  unfold execSrExitDone
  extract_lets +onlyGivenNames v1
  clear_value v1
  extract_lets +onlyGivenNames v2
  clear_value v2
  refine Res.keeps_ite ?_ ?_
  · refine Res.keeps_next ?_
    exact .refl _
  extract_lets +onlyGivenNames v3
  have h3 : Keeps true true true true v3 s := by
    unfold v3
    refine .ite ?_ ?_
    · refine .trans (State.modStack_keeps _ _ _) ?_
      refine .trans (State.wb_keeps _ _ _ _) ?_
      refine .trans (State.wf_keeps _ _ _ _) ?_
      exact .refl _
    exact .refl _
  clear_value v3
  refine Res.keeps_next ?_
  refine .trans (State.srUpdate_keeps _ _) ?_
  refine .trans (State.irqBit_keeps _ _ _) ?_
  refine .trans (State.srEnter_keeps _ _ _) ?_
  refine .trans (State.closeRows_keeps _ _) ?_
  refine .trans (State.wf_keeps _ _ _ _) ?_
  assumption

theorem execSrIdleExpiry_keeps (stack : Fin 4) (s : State) :
    Res.keeps true true true true (execSrIdleExpiry stack s) s := by
  unfold execSrIdleExpiry
  extract_lets +onlyGivenNames v1
  clear_value v1
  extract_lets +onlyGivenNames v2
  have h2 : Keeps true true true true v2 s := by
    unfold v2
    refine .trans (State.srUpdate_keeps _ _) ?_
    exact .refl _
  clear_value v2
  refine Res.keeps_ite ?_ ?_
  · refine Res.keeps_next ?_
    assumption
  refine Res.keeps_next ?_
  refine .trans (State.srEnter_keeps _ _ _) ?_
  refine .trans (State.advanceTo_keeps _ _) ?_
  assumption

theorem execStaleBegin_keeps (s : State) :
    Res.keeps true true true false (execStaleBegin s) s := by
  unfold execStaleBegin
  split
  · refine Res.keeps_next ?_
    exact .refl _
  · refine Res.keeps_ite ?_ ?_
    · refine Res.keeps_next ?_
      exact .refl _
    extract_lets +onlyGivenNames v1
    have h1 : Keeps true true true false v1 s := by
      unfold v1
      refine .trans (State.advanceTo_keeps _ _) ?_
      exact .refl _
    clear_value v1
    extract_lets +onlyGivenNames v2
    clear_value v2
    refine Res.keeps_next ?_
    refine .trans (State.setStale_keeps _ _ _) ?_
    refine .trans (State.afeSet_keeps _ _ _ _ _ _ _) ?_
    assumption

theorem execStaleEnd_keeps (s : State) :
    Res.keeps true true true false (execStaleEnd s) s := by
  unfold execStaleEnd
  split
  · refine Res.keeps_next ?_
    exact .refl _
  · refine Res.keeps_ite ?_ ?_
    · refine Res.keeps_next ?_
      exact .refl _
    extract_lets +onlyGivenNames v1
    have h1 : Keeps true true true false v1 s := by
      unfold v1
      refine .trans (State.advanceTo_keeps _ _) ?_
      exact .refl _
    clear_value v1
    refine Res.keeps_next ?_
    refine .trans (State.setStale_keeps _ _ _) ?_
    refine .trans (State.afeSet_keeps _ _ _ _ _ _ _) ?_
    assumption

theorem State.becomeReady_keeps (s : State) :
    Keeps true true true true (State.becomeReady s) s := by
  unfold State.becomeReady
  extract_lets +onlyGivenNames v1
  have h1 : Keeps true true true true v1 s := by
    unfold v1
    refine .trans (State.wb_keeps _ _ _ _) ?_
    refine .trans (State.wb_keeps _ _ _ _) ?_
    exact .refl _
  clear_value v1
  refine .trans (State.irqBit_keeps _ _ _) ?_
  assumption

theorem State.blocksUp_keeps (s : State) (keys : List ℕ) :
    Keeps true true true false (State.blocksUp s keys) s := by
  unfold State.blocksUp
  refine .trans (State.each_keeps (m := true) (k := true) (r := true) (p := false) ?_) ?_
  · intro a1_0 a1_1
    extract_lets +onlyGivenNames v2
    clear_value v2
    refine .ite ?_ ?_
    · refine .trans (State.enter_keeps _ _ _) ?_
      refine .trans (State.powerReset_keeps _ _) ?_
      exact .refl _
    exact .refl _
  exact .refl _

theorem State.convsUp_keeps (s : State) :
    Keeps true true true true (State.convsUp s) s := by
  unfold State.convsUp
  extract_lets +onlyGivenNames v1
  have h1 : Keeps true true true true v1 s := by
    unfold v1
    refine .trans (State.each_keeps (m := true) (k := true) (r := true) (p := true) ?_) ?_
    · intro a2_0 a2_1
      refine .ite ?_ ?_
      · exact .refl _
      refine .trans (State.convEnter_keeps _ _ _) ?_
      exact .refl _
    exact .refl _
  clear_value v1
  refine .trans (State.each_keeps (m := true) (k := true) (r := true) (p := true) ?_) ?_
  · intro a3_0 a3_1
    refine .ite ?_ ?_
    · exact .refl _
    refine .trans (State.modPage_keeps _ _ _) ?_
    exact .refl _
  assumption

theorem State.domainsUp_keeps (s : State) (ds : List ℕ) :
    Keeps true true true false (State.domainsUp s ds) s := by
  unfold State.domainsUp
  refine .trans (State.each_keeps (m := true) (k := true) (r := true) (p := false) ?_) ?_
  · intro a1_0 a1_1
    refine .trans (State.domainUp_keeps _ _) ?_
    exact .refl _
  exact .refl _

theorem State.loadGuestWindows_keeps (s : State) :
    Keeps true true true true (State.loadGuestWindows s) s := by
  unfold State.loadGuestWindows
  refine .ite ?_ ?_
  · refine .congr (u := s) ?_
    exact .refl _
  exact .refl _

theorem State.loadTrims_keeps (s : State) :
    Keeps true true true true (State.loadTrims s) s := by
  unfold State.loadTrims
  extract_lets +onlyGivenNames v1
  clear_value v1
  extract_lets +onlyGivenNames v2
  clear_value v2
  extract_lets +onlyGivenNames v3
  clear_value v3
  extract_lets +onlyGivenNames v4
  have h4 : Keeps true true true true v4 s := by
    unfold v4
    refine .trans (State.wf_keeps _ _ _ _) ?_
    refine .trans (State.refreshAreas_keeps _) ?_
    exact .refl _
  clear_value v4
  extract_lets +onlyGivenNames v5
  have h5 : Keeps true true true true v5 s := by
    unfold v5
    refine .trans (State.each_keeps (m := true) (k := true) (r := true) (p := true) ?_) ?_
    · intro a6_0 a6_1
      extract_lets +onlyGivenNames v7
      clear_value v7
      extract_lets +onlyGivenNames v8
      have h8 : Keeps true true true true v8 a6_0 := by
        unfold v8
        refine .trans (State.modPage_keeps _ _ _) ?_
        exact .refl _
      clear_value v8
      extract_lets +onlyGivenNames v9
      have h9 : Keeps true true true true v9 a6_0 := by
        unfold v9
        refine .ite ?_ ?_
        · assumption
        refine .trans (State.wf_keeps _ _ _ _) ?_
        refine .trans (State.wf_keeps _ _ _ _) ?_
        assumption
      clear_value v9
      refine .trans (State.updateLocked_keeps _ _) ?_
      refine .trans (State.wb_keeps _ _ _ _) ?_
      refine .trans (State.setReg_keeps _ _ _ _) ?_
      assumption
    assumption
  clear_value v5
  extract_lets +onlyGivenNames v10
  have h10 : Keeps true true true true v10 s := by
    unfold v10
    refine .ite ?_ ?_
    · refine .trans (State.setErr_keeps _ _ _) ?_
      assumption
    refine .trans (State.wf_keeps _ _ _ _) ?_
    assumption
  clear_value v10
  refine .trans (State.modSvy_keeps _ _) ?_
  assumption

theorem State.secureBoot_keeps (s : State) :
    Keeps true true true true (State.secureBoot s) s := by
  unfold State.secureBoot
  extract_lets +onlyGivenNames v1
  clear_value v1
  refine .ite ?_ ?_
  · refine .trans (State.runImage_keeps _ _ _) ?_
    exact .refl _
  refine .ite ?_ ?_
  · refine .trans (State.logSecurity_keeps _) ?_
    refine .trans (State.setErr_keeps _ _ _) ?_
    refine .trans (State.runImage_keeps _ _ _) ?_
    exact .refl _
  extract_lets +onlyGivenNames v2
  have h2 : Keeps true true true true v2 s := by
    unfold v2
    refine .trans (State.wf_keeps _ _ _ _) ?_
    refine .trans (State.wb_keeps _ _ _ _) ?_
    exact .refl _
  clear_value v2
  refine .trans (State.wb_keeps _ _ _ _) ?_
  refine .trans (State.wb_keeps _ _ _ _) ?_
  assumption

theorem execStartupStep_keeps (maddr : Fin 8) (s : State) : Res.keeps false false true false (execStartupStep maddr s) s := by
  unfold execStartupStep
  refine Res.keeps_ite (Res.keeps_next (.refl _)) ?_
  split
  · exact Res.keeps_next (.ite (.refl _) (.trans (State.setPhase_keeps _ _) (.to (State.modPower_keeps _ _))))
  · extract_lets +onlyGivenNames s1 s2
    have h1 : Keeps false false true false s1 s := .to (State.blocksUp_keeps _ _)
    clear_value s1
    have h2 : Keeps false false true false s2 s := by
      unfold s2
      refine .trans (State.secureBoot_keeps _) (.trans (State.refreshKeys_keeps _) ?_)
      exact .ite (.trans (State.zeroise_keeps _) h1) h1
    clear_value s2
    exact Res.keeps_next (.ite h2 (.trans (State.setPhase_keeps _ _) h2))
  · extract_lets +onlyGivenNames s1 s2 z1 z2 s3
    have h1 : Keeps false false true false s1 s := .to (State.domainsUp_keeps _ _)
    clear_value s1
    have h2 : Keeps false false true false s2 s := .trans (State.loadPhnVer_keeps _) (.trans (State.blocksUp_keeps _ _) h1)
    clear_value s2
    have h3 : Keeps false false true false s3 s := by
      refine ⟨h2.pending, h2.memWf, fun w => ?_, h2.logsWf, h2.fused, h2.mem, h2.keys, h2.routes, h2.phn⟩
      change (if s2.tb.running then s2.six else 0) < sixModulus
      split
      · exact h2.sixWf w
      · decide
    clear_value s3
    exact Res.keeps_next (.trans (State.setPhase_keeps _ _) h3)
  · extract_lets +onlyGivenNames s1
    have h1 : Keeps false false true false s1 s := .to (State.domainsUp_keeps _ _)
    clear_value s1
    exact Res.keeps_next (.trans (State.setPhase_keeps _ _) (.trans (State.blocksUp_keeps _ _) h1))
  · extract_lets +onlyGivenNames s1 s2 s3
    have h1 : Keeps false false true false s1 s := .to (State.domainsUp_keeps _ _)
    clear_value s1
    have h2 : Keeps false false true false s2 s := .trans (State.blocksUp_keeps _ _) h1
    clear_value s2
    have h3 : Keeps false false true false s3 s := .trans (State.each_keeps (m := true) (k := true) (r := true) (p := true) fun s x => State.refreshMem_keeps s x) h2
    clear_value s3
    refine Res.keeps_next (.trans (State.setPhase_keeps _ _) ?_)
    exact ⟨h3.pending, fun _ => rfl, h3.sixWf, h3.logsWf, h3.fused, nofun, h3.keys, h3.routes, h3.phn⟩
  · extract_lets +onlyGivenNames s1 s2
    have h1 : Keeps false false true false s1 s := .to (State.domainsUp_keeps _ _)
    clear_value s1
    have h2 : Keeps false false true false s2 s := .trans (State.blocksUp_keeps _ _) h1
    clear_value s2
    exact Res.keeps_next (.trans (State.setPhase_keeps _ _) (.trans (State.loadGuestWindows_keeps _) (.trans (State.loadTrims_keeps _)
      (.trans (State.convsUp_keeps _) h2))))
  · exact Res.keeps_next (.ite (.to (State.setPhase_keeps _ _)) (.refl _))
  · exact Res.keeps_next (.to (State.setPhase_keeps _ _))
  · exact Res.keeps_next (.to (State.setPhase_keeps _ _))
  · exact Res.keeps_next (.trans (State.setPhase_keeps _ _) (.to (State.becomeReady_keeps _)))
  · exact Res.keeps_next (.refl _)

theorem execStartupTimeout_keeps (region : Fin 8) (s : State) :
    Res.keeps true true true false (execStartupTimeout region s) s := by
  unfold execStartupTimeout
  refine Res.keeps_ite ?_ ?_
  · refine Res.keeps_next ?_
    exact .refl _
  refine Res.keeps_ite ?_ ?_
  · refine Res.keeps_next ?_
    refine .trans (State.askSafe_keeps _ _) ?_
    exact .refl _
  refine Res.keeps_next ?_
  refine .trans (State.wb_keeps _ _ _ _) ?_
  refine .trans (State.isolateRegion_keeps _ _) ?_
  exact .refl _

theorem execStoreInit_keeps (who : Issuer) (tag : ℕ) (ok : Bool) (s : State) :
    Res.keeps true true true true (execStoreInit who tag ok s) s := by
  unfold execStoreInit
  refine Res.keeps_next ?_
  refine .trans (State.command_keeps (m := true) (k := true) (r := true) (p := true) ?_) ?_
  · intro a1_0
    extract_lets +onlyGivenNames v2
    clear_value v2
    extract_lets +onlyGivenNames v3
    clear_value v3
    split
    · refine .trans (State.rejectOp_keeps _ _ _ _ _) ?_
      exact .refl _
    · refine .ite ?_ ?_
      · refine .trans (State.rejectOp_keeps _ _ _ _ _) ?_
        exact .refl _
      refine .ite ?_ ?_
      · refine .trans (State.rejectOp_keeps _ _ _ _ _) ?_
        exact .refl _
      refine .ite ?_ ?_
      · refine .trans (State.rejectOp_keeps _ _ _ _ _) ?_
        exact .refl _
      extract_lets +onlyGivenNames v4
      have h4 : Keeps true true true true v4 s := by
        unfold v4
        refine .trans (State.accept_keeps _ _ _) ?_
        exact .refl _
      clear_value v4
      refine .ite ?_ ?_
      · refine .trans (State.failOp_keeps _ _ _ _) ?_
        assumption
      extract_lets +onlyGivenNames v5
      clear_value v5
      extract_lets +onlyGivenNames v6
      clear_value v6
      extract_lets +onlyGivenNames v7
      have h7 : Keeps true true true true v7 s := by
        unfold v7
        refine .trans (State.emit_keeps _ _) ?_
        refine .trans (State.emit_keeps _ _) ?_
        assumption
      clear_value v7
      extract_lets +onlyGivenNames v8
      have h8 : Keeps true true true true v8 s := by
        unfold v8
        refine .trans (State.modDrive_keeps _ _ _) ?_
        refine .trans (State.nviMark_keeps _ _ _ _) ?_
        refine .trans (State.nviMark_keeps _ _ _ _) ?_
        assumption
      clear_value v8
      refine .trans (State.doneOp_keeps _ _) ?_
      assumption
  exact .refl _

theorem execStoreMount_keeps (who : Issuer) (tag : ℕ) (first : Option (List Byte)) (last : Option (List Byte)) (headers : List (List Byte)) (s : State) :
    Res.keeps true true true true (execStoreMount who tag first last headers s) s := by
  unfold execStoreMount
  refine Res.keeps_next ?_
  refine .trans (State.command_keeps (m := true) (k := true) (r := true) (p := true) ?_) ?_
  · intro a1_0
    extract_lets +onlyGivenNames v2
    clear_value v2
    split
    · refine .trans (State.rejectOp_keeps _ _ _ _ _) ?_
      exact .refl _
    · refine .ite ?_ ?_
      · refine .trans (State.rejectOp_keeps _ _ _ _ _) ?_
        exact .refl _
      refine .ite ?_ ?_
      · refine .trans (State.rejectOp_keeps _ _ _ _ _) ?_
        exact .refl _
      extract_lets +onlyGivenNames v3
      have h3 : Keeps true true true true v3 s := by
        unfold v3
        refine .trans (State.accept_keeps _ _ _) ?_
        exact .refl _
      clear_value v3
      split
      · refine .trans (State.failOp_keeps _ _ _ _) ?_
        assumption
      · split
        · refine .trans (State.failOp_keeps _ _ _ _) ?_
          assumption
        · extract_lets +onlyGivenNames v4
          clear_value v4
          extract_lets +onlyGivenNames v5
          clear_value v5
          extract_lets +onlyGivenNames v6
          clear_value v6
          extract_lets +onlyGivenNames v7
          clear_value v7
          extract_lets +onlyGivenNames v8
          clear_value v8
          extract_lets +onlyGivenNames v9
          have h9 : Keeps true true true true v9 s := by
            unfold v9
            refine .trans (State.modDrive_keeps _ _ _) ?_
            assumption
          clear_value v9
          extract_lets +onlyGivenNames v10
          clear_value v10
          refine .trans (State.doneWith_keeps _ _ _) ?_
          refine .trans (State.nviMark_keeps _ _ _ _) ?_
          refine .trans (State.nviMark_keeps _ _ _ _) ?_
          assumption
  exact .refl _

theorem execStreamRecordReady_keeps (task : BitVec 32) (s : State) : Res.keeps true true true true (execStreamRecordReady task s) s := by
  unfold execStreamRecordReady
  split
  · exact Res.keeps_next (.refl _)
  · refine Res.keeps_ite (Res.keeps_next (.congr (.refl s))) ?_
    split
    · rename_i t e
      exact Res.keeps_next (.congr (u := t) (.to (State.takeRecord_keeps _ _ _ _ e)))
    · exact Res.keeps_next (.refl _)

theorem execSubadcFault_keeps (conv : Fin 5) (k : Fin 64) (s : State) :
    Res.keeps true true true false (execSubadcFault conv k s) s := by
  unfold execSubadcFault
  extract_lets +onlyGivenNames v1
  clear_value v1
  extract_lets +onlyGivenNames v2
  clear_value v2
  refine Res.keeps_ite ?_ ?_
  · refine Res.keeps_next ?_
    exact .refl _
  extract_lets +onlyGivenNames v3
  clear_value v3
  extract_lets +onlyGivenNames v4
  have h4 : Keeps true true true false v4 s := by
    unfold v4
    refine .trans (State.setReg_keeps _ _ _ _) ?_
    exact .refl _
  clear_value v4
  refine Res.keeps_next ?_
  refine .ite ?_ ?_
  · refine .trans (State.setErr_keeps _ _ _) ?_
    assumption
  refine .trans (State.convFault_keeps _ _) ?_
  refine .trans (State.faultBlock_keeps _ _ _) ?_
  assumption

theorem State.freeHold_keeps (s : State) (t : Task) :
    Keeps false true true false (State.freeHold s t) s := by
  unfold State.freeHold
  refine .ite ?_ ?_
  · exact .refl _
  refine .trans (State.askMoves_keeps _ _) ?_
  exact .refl _

theorem State.takeSlot_keeps (s : State) (t : Task) :
    Keeps true true true false (State.takeSlot s t) s := by
  unfold State.takeSlot
  refine .trans (State.modPhn_keeps _ _) ?_
  refine .trans (State.setTask_keeps _ _) ?_
  exact .refl _

theorem State.submit_keeps (s : State) (e : List Byte) (ext : Option (List Byte)) (image : Option (List Byte)) :
    Keeps false true true false (State.submit s e ext image).1 s := by
  unfold State.submit
  extract_lets +onlyGivenNames v1
  split
  · unfold v1
    refine .trans (State.refuse_keeps _ _ _ _ _ _ _ _) ?_
    exact .refl _
  · extract_lets +onlyGivenNames v2
    clear_value v2
    extract_lets +onlyGivenNames v3
    clear_value v3
    split
    · unfold v1
      refine .trans (State.refuse_keeps _ _ _ _ _ _ _ _) ?_
      exact .refl _
    · split
      · extract_lets +onlyGivenNames v4
        have h4 : Keeps false true true false v4 s := by
          unfold v4
          refine .trans (State.takeSlot_keeps _ _) ?_
          exact .refl _
        clear_value v4
        extract_lets +onlyGivenNames v5
        have h5 : Keeps false true true false v5.1 s := by
          unfold v5
          refine .trans (State.report_keeps _ _ _ _) ?_
          assumption
        clear_value v5
        dsimp only
        assumption
      · refine .ite_fst ?_ ?_
        · unfold v1
          refine .trans (State.refuse_keeps _ _ _ _ _ _ _ _) ?_
          exact .refl _
        extract_lets +onlyGivenNames v6
        have h6 : Keeps false true true false v6 s := by
          unfold v6
          refine .trans (State.commitPlace_keeps _ _) ?_
          refine .trans (State.evict_keeps _ _) ?_
          refine .trans (State.takeSlot_keeps _ _) ?_
          exact .refl _
        clear_value v6
        extract_lets +onlyGivenNames v7
        have h7 : Keeps false true true false v7 s := by
          unfold v7
          refine .trans (State.freeHold_keeps _ _) ?_
          assumption
        clear_value v7
        extract_lets +onlyGivenNames v8
        have h8 : Keeps false true true false v8.1 s := by
          unfold v8
          refine .trans (State.report_keeps _ _ _ _) ?_
          assumption
        clear_value v8
        dsimp only
        assumption

theorem execSubmit_keeps (entry : List Byte) (ext : Option (List Byte)) (image : Option (List Byte)) (s : State) :
    Res.keeps false true true false (execSubmit entry ext image s) s := by
  unfold execSubmit
  refine Res.keeps_next ?_
  refine .trans (State.evaluate_keeps (m := false) (k := true) (r := true)  ?_) ?_
  · intro a1_0
    refine .trans (State.submit_keeps _ _ _ _) ?_
    exact .refl _
  exact .refl _

theorem State.surveyRetry_keeps (s : State) :
    Keeps false true true false (State.surveyRetry s) s := by
  unfold State.surveyRetry
  split
  · refine .ite ?_ ?_
    · refine .trans (State.surveyWait_keeps _ _) ?_
      exact .refl _
    exact .refl _
  · refine .trans (State.scheduleSurvey_keeps _) ?_
    exact .refl _

theorem execSurveyDeferredRetry_keeps (s : State) :
    Res.keeps false true true false (execSurveyDeferredRetry s) s := by
  unfold execSurveyDeferredRetry
  refine Res.keeps_next ?_
  refine .trans (State.surveyRetry_keeps _) ?_
  exact .refl _

theorem execSurveyDue_keeps (s : State) :
    Res.keeps false true true false (execSurveyDue s) s := by
  unfold execSurveyDue
  refine Res.keeps_next ?_
  refine .trans (State.scheduleSurvey_keeps _) ?_
  exact .refl _

theorem execSurveyRequeue_keeps (conv : Fin 5) (s : State) :
    Res.keeps false true true false (execSurveyRequeue conv s) s := by
  unfold execSurveyRequeue
  split
  · refine Res.keeps_next ?_
    exact .refl _
  · refine Res.keeps_next ?_
    refine .trans (State.scheduleSurvey_keeps _) ?_
    refine .trans (State.modSvy_keeps _ _) ?_
    refine .trans (State.advanceTo_keeps _ _) ?_
    exact .refl _

theorem State.surveyEnd_keeps (s : State) :
    Keeps false true true false (State.surveyEnd s) s := by
  unfold State.surveyEnd
  split
  · exact .refl _
  · extract_lets +onlyGivenNames v1
    clear_value v1
    extract_lets +onlyGivenNames v2
    have h2 : Keeps false true true false v2 s := by
      unfold v2
      refine .ite ?_ ?_
      · refine .trans (State.restoreTrims_keeps _ _) ?_
        exact .refl _
      exact .refl _
    clear_value v2
    extract_lets +onlyGivenNames v3
    have h3 : Keeps false true true false v3 s := by
      unfold v3
      refine .trans (State.modSvy_keeps _ _) ?_
      assumption
    clear_value v3
    extract_lets +onlyGivenNames v4
    have h4 : Keeps false true true false v4 s := by
      unfold v4
      refine .trans (State.wb_keeps _ _ _ _) ?_
      refine .trans (State.wf_keeps _ _ _ _) ?_
      refine .trans (State.wf_keeps _ _ _ _) ?_
      assumption
    clear_value v4
    extract_lets +onlyGivenNames v5
    clear_value v5
    extract_lets +onlyGivenNames v6
    have h6 : Keeps false true true false v6 s := by
      unfold v6
      refine .trans (State.wf_keeps _ _ _ _) ?_
      assumption
    clear_value v6
    extract_lets +onlyGivenNames v7
    have h7 : Keeps false true true false v7 s := by
      unfold v7
      refine .trans (State.modSvy_keeps _ _) ?_
      assumption
    clear_value v7
    extract_lets +onlyGivenNames v8
    have h8 : Keeps false true true false v8 s := by
      unfold v8
      refine .trans (State.setReg_keeps _ _ _ _) ?_
      assumption
    clear_value v8
    extract_lets +onlyGivenNames v9
    have h9 : Keeps false true true false v9 s := by
      unfold v9
      refine .trans (State.count_keeps _ _ _) ?_
      refine .trans (State.setReg_keeps _ _ _ _) ?_
      assumption
    clear_value v9
    extract_lets +onlyGivenNames v10
    clear_value v10
    extract_lets +onlyGivenNames v11
    have h11 : Keeps false true true false v11 s := by
      unfold v11
      split
      · refine .trans (State.wb_keeps _ _ _ _) ?_
        assumption
      · extract_lets +onlyGivenNames v12
        have h12 : Keeps false true true false v12 s := by
          unfold v12
          refine .trans (State.setReg_keeps _ _ _ _) ?_
          assumption
        clear_value v12
        extract_lets +onlyGivenNames v13
        have h13 : Keeps false true true false v13 s := by
          unfold v13
          refine .trans (State.count_keeps _ _ _) ?_
          assumption
        clear_value v13
        extract_lets +onlyGivenNames v14
        have h14 : Keeps false true true false v14 s := by
          unfold v14
          refine .ite ?_ ?_
          · refine .trans (State.count_keeps _ _ _) ?_
            assumption
          assumption
        clear_value v14
        extract_lets +onlyGivenNames v15
        have h15 : Keeps false true true false v15 s := by
          unfold v15
          refine .ite ?_ ?_
          · refine .trans (State.setErrLogged_keeps _ _ _) ?_
            assumption
          assumption
        clear_value v15
        refine .trans (State.modSvy_keeps _ _) ?_
        assumption
    clear_value v11
    extract_lets +onlyGivenNames v16
    have h16 : Keeps false true true false v16 s := by
      unfold v16
      refine .trans (State.irqBit_keeps _ _ _) ?_
      refine .trans (State.logPage_keeps _ _ _ _ _ _ _) ?_
      assumption
    clear_value v16
    extract_lets +onlyGivenNames v17
    have h17 : Keeps false true true false v17 s := by
      unfold v17
      refine .trans (State.modSvy_keeps _ _) ?_
      assumption
    clear_value v17
    extract_lets +onlyGivenNames v18
    have h18 : Keeps false true true false v18 s := by
      unfold v18
      split
      · refine .trans (State.endTask_keeps _ _ _ _ _) ?_
        assumption
      · assumption
    clear_value v18
    refine .trans (State.scheduleSurvey_keeps _) ?_
    assumption

theorem State.returnDone_keeps (s : State) (r : SurveyRun) :
    Keeps false true true false (State.returnDone s r) s := by
  unfold State.returnDone
  refine .ite ?_ ?_
  · refine .ite ?_ ?_
    · refine .trans (State.surveyEnd_keeps _) ?_
      exact .refl _
    exact .refl _
  refine .ite ?_ ?_
  · exact .refl _
  refine .trans (State.surveyEnd_keeps _) ?_
  exact .refl _

theorem State.rotateDone_keeps (s : State) (r : SurveyRun) :
    Keeps true true true true (State.rotateDone s r) s := by
  unfold State.rotateDone
  extract_lets +onlyGivenNames v1
  clear_value v1
  extract_lets +onlyGivenNames v2
  refine .ite ?_ ?_
  · refine .ite ?_ ?_
    · unfold v2
      refine .trans (State.stepTo_keeps _ _) ?_
      refine .trans (State.afeSet_keeps _ _ _ _ _ _ _) ?_
      exact .refl _
    exact .refl _
  refine .ite ?_ ?_
  · refine .ite ?_ ?_
    · unfold v2
      refine .trans (State.stepTo_keeps _ _) ?_
      refine .trans (State.afeSet_keeps _ _ _ _ _ _ _) ?_
      exact .refl _
    exact .refl _
  unfold v2
  refine .trans (State.stepTo_keeps _ _) ?_
  refine .trans (State.afeSet_keeps _ _ _ _ _ _ _) ?_
  exact .refl _

theorem State.writeTrims_keeps (s : State) (r : SurveyRun) :
    Keeps true true true true (State.writeTrims s r) s := by
  unfold State.writeTrims
  extract_lets +onlyGivenNames v1
  clear_value v1
  extract_lets +onlyGivenNames v2
  clear_value v2
  extract_lets +onlyGivenNames v3
  have h3 : Keeps true true true true v3 s := by
    unfold v3
    refine .trans (State.each_keeps (m := true) (k := true) (r := true) (p := true) ?_) ?_
    · intro a4_0 a4_1
      refine .trans (State.setReg_keeps _ _ _ _) ?_
      exact .refl _
    exact .refl _
  clear_value v3
  extract_lets +onlyGivenNames v5
  have h5 : Keeps true true true true v5 s := by
    unfold v5
    refine .trans (State.each_keeps (m := true) (k := true) (r := true) (p := true) ?_) ?_
    · intro a6_0 a6_1
      refine .trans (State.setReg_keeps _ _ _ _) ?_
      exact .refl _
    assumption
  clear_value v5
  refine .trans (State.wf_keeps _ _ _ _) ?_
  refine .trans (State.wf_keeps _ _ _ _) ?_
  assumption

theorem State.surveyReturn_keeps (s : State) :
    Keeps true true true true (State.surveyReturn s) s := by
  unfold State.surveyReturn
  split
  · exact .refl _
  · extract_lets +onlyGivenNames v1
    clear_value v1
    extract_lets +onlyGivenNames v2
    have h2 : Keeps true true true true v2 s := by
      unfold v2
      refine .ite ?_ ?_
      · refine .trans (State.writeTrims_keeps _ _) ?_
        exact .refl _
      refine .ite ?_ ?_
      · refine .trans (State.restoreTrims_keeps _ _) ?_
        exact .refl _
      exact .refl _
    clear_value v2
    extract_lets +onlyGivenNames v3
    have h3 : Keeps true true true true v3 s := by
      unfold v3
      refine .trans (State.stepTo_keeps _ _) ?_
      assumption
    clear_value v3
    refine .ite ?_ ?_
    · refine .ite ?_ ?_
      · refine .trans (State.startReturn_keeps _) ?_
        assumption
      refine .ite ?_ ?_
      · refine .trans (State.afeSet_keeps _ _ _ _ _ _ _) ?_
        assumption
      refine .ite ?_ ?_
      · refine .trans (State.spareDone_keeps _ _) ?_
        assumption
      assumption
    refine .ite ?_ ?_
    · refine .ite ?_ ?_
      · refine .trans (State.modRun_keeps _ _) ?_
        assumption
      assumption
    refine .trans (State.afeSet_keeps _ _ _ _ _ _ _) ?_
    assumption

theorem State.surveyAbort_keeps (s : State) (code : ℕ) (sub : ℕ) :
    Keeps true true true true (State.surveyAbort s code sub) s := by
  unfold State.surveyAbort
  refine .trans (State.surveyReturn_keeps _) ?_
  refine .trans (State.surveyFails_keeps _ _ _) ?_
  exact .refl _

theorem State.surveyMeasured_keeps (s : State) (r : SurveyRun) (power : ℤ) (spur : ℤ) (level : ℤ) (trims : List (ℤ × ℤ × ℤ × ℤ)) (crcs : List (BitVec 32)) :
    Keeps true true true true (State.surveyMeasured s r power spur level trims crcs) s := by
  unfold State.surveyMeasured
  refine .ite ?_ ?_
  · extract_lets +onlyGivenNames v1
    have h1 : Keeps true true true true v1 s := by
      unfold v1
      refine .trans (State.setReg_keeps _ _ _ _) ?_
      exact .refl _
    clear_value v1
    refine .ite ?_ ?_
    · refine .trans (State.surveyAbort_keeps _ _ _) ?_
      refine .trans (State.setErr_keeps _ _ _) ?_
      assumption
    refine .trans (State.stepTo_keeps _ _) ?_
    assumption
  refine .ite ?_ ?_
  · split
    · refine .trans (State.stepTo_keeps _ _) ?_
      refine .trans (State.modRun_keeps _ _) ?_
      exact .refl _
    · refine .trans (State.surveyAbort_keeps _ _ _) ?_
      exact .refl _
  refine .ite ?_ ?_
  · refine .trans (State.stepTo_keeps _ _) ?_
    exact .refl _
  refine .ite ?_ ?_
  · extract_lets +onlyGivenNames v2
    clear_value v2
    refine .trans (State.stepTo_keeps _ _) ?_
    refine .trans (State.modRun_keeps _ _) ?_
    exact .refl _
  refine .ite ?_ ?_
  · refine .trans (State.surveyReturn_keeps _) ?_
    exact .refl _
  refine .trans (State.surveyAbort_keeps _ _ _) ?_
  exact .refl _

theorem execSurveyStepDone_keeps (power : ℤ) (spur : ℤ) (level : ℤ) (trims : List (ℤ × ℤ × ℤ × ℤ)) (crcs : List (BitVec 32)) (s : State) :
    Res.keeps false true true false (execSurveyStepDone power spur level trims crcs s) s := by
  unfold execSurveyStepDone
  split
  · refine Res.keeps_next ?_
    exact .refl _
  · refine Res.keeps_ite ?_ ?_
    · refine Res.keeps_next ?_
      exact .refl _
    refine Res.keeps_next ?_
    refine .trans (State.activateHold_keeps _ _) ?_
    refine .ite ?_ ?_
    · refine .trans (State.surveyRetry_keeps _) ?_
      exact .refl _
    refine .ite ?_ ?_
    · refine .trans (State.returnDone_keeps _ _) ?_
      exact .refl _
    refine .ite ?_ ?_
    · refine .trans (State.surveyReturn_keeps _) ?_
      exact .refl _
    refine .ite ?_ ?_
    · refine .trans (State.rotateDone_keeps _ _) ?_
      exact .refl _
    refine .trans (State.surveyMeasured_keeps _ _ _ _ _ _ _) ?_
    exact .refl _

theorem execSurveyStepTimeout_keeps (s : State) :
    Res.keeps false true true false (execSurveyStepTimeout s) s := by
  unfold execSurveyStepTimeout
  split
  · refine Res.keeps_next ?_
    exact .refl _
  · refine Res.keeps_ite ?_ ?_
    · refine Res.keeps_next ?_
      exact .refl _
    extract_lets +onlyGivenNames v1
    have h1 : Keeps false true true false v1 s := by
      unfold v1
      refine .trans (State.setErr_keeps _ _ _) ?_
      refine .trans (State.advanceTo_keeps _ _) ?_
      exact .refl _
    clear_value v1
    extract_lets +onlyGivenNames v2
    have h2 : Keeps false true true false v2 s := by
      unfold v2
      refine .trans (State.surveyFails_keeps _ _ _) ?_
      assumption
    clear_value v2
    refine Res.keeps_ite ?_ ?_
    · extract_lets +onlyGivenNames v3
      have h3 : Keeps false true true false v3 s := by
        unfold v3
        refine .trans (State.faultBlock_keeps _ _ _) ?_
        assumption
      clear_value v3
      refine Res.keeps_next ?_
      refine .trans (State.activateHold_keeps _ _) ?_
      refine .trans (State.surveyEnd_keeps _) ?_
      refine .ite ?_ ?_
      · refine .trans (State.convDown_keeps _ _ _) ?_
        assumption
      refine .trans (State.convFault_keeps _ _) ?_
      assumption
    refine Res.keeps_next ?_
    refine .trans (State.activateHold_keeps _ _) ?_
    refine .trans (State.surveyReturn_keeps _) ?_
    assumption

theorem State.swFire_keeps (s : State) (r : ℕ) (mask : ℕ) (six : ℕ) :
    Keeps true true true true (State.swFire s r mask six) s := by
  unfold State.swFire
  refine .trans (foldl_keeps (m := true) (k := true) (r := true) (p := true) ?_) ?_
  · intro a1_0 a1_1
    extract_lets +onlyGivenNames v2
    clear_value v2
    refine .trans (State.addOcc_keeps _ _ _) ?_
    exact .refl _
  exact .refl _

theorem execSwTrig_keeps (who : Issuer) (region : Fin 2) (tag : ℕ) (s : State) :
    Res.keeps true true true true (execSwTrig who region tag s) s := by
  unfold execSwTrig
  extract_lets +onlyGivenNames v1
  clear_value v1
  refine Res.keeps_next ?_
  refine .trans (State.command_keeps (m := true) (k := true) (r := true) (p := true) ?_) ?_
  · intro a2_0
    refine .trans (State.doneOp_keeps _ _) ?_
    refine .trans (State.swFire_keeps _ _ _ _) ?_
    refine .trans (State.accept_keeps _ _ _) ?_
    exact .refl _
  exact .refl _

theorem execSwTrigAt_keeps (who : Issuer) (region : Fin 2) (tag : ℕ) (s : State) :
    Res.keeps true true true true (execSwTrigAt who region tag s) s := by
  unfold execSwTrigAt
  extract_lets +onlyGivenNames v1
  clear_value v1
  refine Res.keeps_next ?_
  refine .trans (State.command_keeps (m := true) (k := true) (r := true) (p := true) ?_) ?_
  · intro a2_0
    refine .ite ?_ ?_
    · refine .trans (State.rejectOp_keeps _ _ _ _ _) ?_
      exact .refl _
    refine .trans (State.accept_keeps _ _ _) ?_
    exact .refl _
  exact .refl _

theorem execSwTrigAtFire_keeps (region : Fin 2) (s : State) :
    Res.keeps true true true true (execSwTrigAtFire region s) s := by
  unfold execSwTrigAtFire
  extract_lets +onlyGivenNames v1
  clear_value v1
  split
  · refine Res.keeps_ite ?_ ?_
    · extract_lets +onlyGivenNames v2
      have h2 : Keeps true true true true v2 s := by
        unfold v2
        refine .trans (State.advanceTo_keeps _ _) ?_
        exact .refl _
      clear_value v2
      refine Res.keeps_next ?_
      refine .trans (State.doneOp_keeps _ _) ?_
      refine .trans (State.swFire_keeps _ _ _ _) ?_
      assumption
    refine Res.keeps_next ?_
    exact .refl _
  · refine Res.keeps_next ?_
    exact .refl _

theorem State.generateEdge_keeps (s : State) (o : SyncOp) (op : Op) :
    Keeps true true true true (State.generateEdge s o op) s := by
  unfold State.generateEdge
  refine .ite ?_ ?_
  · refine .trans (State.rejectOp_keeps _ _ _ _ _) ?_
    exact .refl _
  refine .ite ?_ ?_
  · refine .trans (State.rejectOp_keeps _ _ _ _ _) ?_
    exact .refl _
  extract_lets +onlyGivenNames v1
  clear_value v1
  extract_lets +onlyGivenNames v2
  have h2 : Keeps true true true true v2 s := by
    unfold v2
    refine .trans (State.emit_keeps _ _) ?_
    refine .trans (State.accept_keeps _ _ _) ?_
    exact .refl _
  clear_value v2
  split
  · refine .trans (State.doneWith_keeps _ _ _) ?_
    assumption
  · extract_lets +onlyGivenNames v3
    have h3 : Keeps true true true true v3 s := by
      unfold v3
      refine .trans (State.modPage_keeps _ _ _) ?_
      assumption
    clear_value v3
    refine .trans (State.giveResult_keeps _ _ _) ?_
    assumption

theorem execSyncNow_keeps (who : Issuer) (tag : Nat) (s : State) : Res.keeps true true true true (execSyncNow who tag s) s := by
  unfold execSyncNow
  refine Res.keeps_next (State.write_keeps (m := true) (k := true) (r := true) (p := true) ?_)
  extract_lets +onlyGivenNames o op
  have h1 : Keeps true true true true (s.generateEdge o op) s := State.generateEdge_keeps _ _ _
  have h2 : ∀ n, Keeps true true true true (s.reject keyTBS tag 0x0101 n 0) s := fun n => State.reject_keeps _ _ _ _ _ _
  have h3 : Keeps true true true true (s.syncStart op o id) s := State.syncStart_keeps (m := true) (k := true) (r := true) (p := true) fun s => .refl s
  split
  · exact .ite h1 (h2 _)
  · exact .ite h1 h3

theorem State.framesLoad_keeps (s : State) (new : ℕ) :
    Keeps true true true true (State.framesLoad s new) s := by
  unfold State.framesLoad
  extract_lets +onlyGivenNames v1
  clear_value v1
  extract_lets +onlyGivenNames v2
  have h2 : Keeps true true true true v2 s := by
    unfold v2
    refine .congr (u := s) ?_
    exact .refl _
  clear_value v2
  refine .trans (State.each_keeps (m := true) (k := true) (r := true) (p := true) ?_) ?_
  · intro a3_0 a3_1
    extract_lets +onlyGivenNames v4
    clear_value v4
    refine .trans (State.modLink_keeps _ _ _) ?_
    exact .refl _
  assumption

theorem State.pendLoad_keeps (s : State) (old : ℕ) (new : ℕ) :
    Keeps true true true true (State.pendLoad s old new) s := by
  unfold State.pendLoad
  extract_lets +onlyGivenNames v1
  have h1 : Keeps true true true true v1 s := by
    unfold v1
    refine .trans (State.each_keeps (m := true) (k := true) (r := true) (p := true) ?_) ?_
    · intro a2_0 a2_1
      split
      · refine .trans (State.failOp_keeps _ _ _ _) ?_
        refine .trans (State.setCfg_keeps _ _ _) ?_
        refine .trans (State.clearPend_keeps _ _) ?_
        exact .refl _
      · refine .congr (u := a2_0) ?_
        exact .refl _
    exact .refl _
  clear_value v1
  refine .trans (State.each_keeps (m := true) (k := true) (r := true) (p := true) ?_) ?_
  · intro a3_0 a3_1
    split
    · refine .trans (State.failOp_keeps _ _ _ _) ?_
      refine .trans (State.setCfg_keeps _ _ _) ?_
      refine .congr (u := a3_0) ?_
      exact .refl _
    · refine .congr (u := a3_0) ?_
      exact .refl _
  assumption

theorem State.timesLoad_keeps (s : State) (old : ℕ) (new : ℕ) :
    Keeps true true true false (State.timesLoad s old new) s := by
  unfold State.timesLoad
  extract_lets +onlyGivenNames v1
  refine .congr (u := s) ?_
  exact .refl _

theorem State.trafficLoad_keeps (s : State) (old : ℕ) (new : ℕ) :
    Keeps true true true true (State.trafficLoad s old new) s := by
  unfold State.trafficLoad
  extract_lets +onlyGivenNames v1
  refine .congr (u := s) ?_
  exact .refl _

theorem State.swTrigLoad_keeps (s : State) :
    Keeps true true true true (State.swTrigLoad s) s := by
  unfold State.swTrigLoad
  refine .trans (State.each_keeps (m := true) (k := true) (r := true) (p := true) ?_) ?_
  · intro a1_0 a1_1
    split
    · refine .ite ?_ ?_
      · refine .trans (State.failOp_keeps _ _ _ _) ?_
        exact .refl _
      exact .refl _
    · exact .refl _
  exact .refl _

theorem State.capLoad_keeps (s : State) (old : ℕ) (new : ℕ) :
    Keeps true true true true (State.capLoad s old new) s := by
  unfold State.capLoad
  extract_lets +onlyGivenNames v1
  refine .congr (u := s) ?_
  exact .refl _

theorem State.loadSix_keeps (s : State) (new : Nat) : Keeps false true true false (s.loadSix new) s := by
  unfold State.loadSix
  extract_lets +onlyGivenNames old ps src status b s0 s1 s2
  have h0 : Keeps false true true true s0 s :=
    .trans (State.each_keeps (m := false) (k := true) (r := true) (p := true) fun s x => State.pauseEnd_keeps s x)
      (State.each_keeps (m := false) (k := true) (r := true) (p := true) fun s x => State.capNewEpoch_keeps s x)
  clear_value s0
  have h1 : Keeps false true true false s1 s := .trans (State.framesLoad_keeps _ _) (.trans (State.trafficLoad_keeps _ _ _)
    (.trans (State.capLoad_keeps _ _ _) (.trans (State.timesLoad_keeps _ _ _)
      (.to (.trans (State.swTrigLoad_keeps _) (.trans (State.pendLoad_keeps _ _ _) h0))))))
  clear_value s1
  have h2 : Keeps false true true false s2 s := .trans (State.modTb_keeps _ _) h1
  clear_value s2
  exact ⟨h2.pending, h2.memWf, fun _ => Nat.mod_lt _ (by decide), h2.logsWf, h2.fused, h2.mem, h2.keys, h2.routes, h2.phn⟩

theorem State.migReset_keeps (s : State) (six : ℕ) :
    Keeps true true true false (State.migReset s six) s := by
  unfold State.migReset
  split
  · refine .ite ?_ ?_
    · refine .trans (State.modPhn_keeps _ _) ?_
      exact .refl _
    exact .refl _
  · exact .refl _

theorem State.grtReset_keeps (s : State) (p : ℕ) (loads : Bool) :
    Keeps true true true true (State.grtReset s p loads) s := by
  unfold State.grtReset
  refine .ite ?_ ?_
  · exact .refl _
  refine .trans (State.modGrat_keeps _ _ _) ?_
  refine .trans (State.grtClear_keeps _ _) ?_
  refine .trans (State.accEnter_keeps _ _ _) ?_
  exact .refl _

theorem State.pipeSync_keeps (s : State) (p : ℕ) (a : ℕ) (six : ℕ) (loads : Bool) :
    Keeps true true true true (State.pipeSync s p a six loads) s := by
  unfold State.pipeSync
  extract_lets +onlyGivenNames v1
  clear_value v1
  extract_lets +onlyGivenNames v2
  have h2 : Keeps true true true true v2 s := by
    unfold v2
    refine .ite ?_ ?_
    · refine .trans (State.closeSpectrum_keeps _ _) ?_
      refine .trans (State.flushGroup_keeps _ _ _) ?_
      exact .refl _
    exact .refl _
  clear_value v2
  extract_lets +onlyGivenNames v3
  have h3 : Keeps true true true true v3 s := by
    unfold v3
    refine .trans (State.chainReset_keeps _ _ _) ?_
    assumption
  clear_value v3
  extract_lets +onlyGivenNames v4
  have h4 : Keeps true true true true v4 s := by
    unfold v4
    refine .ite ?_ ?_
    · refine .trans (State.modChain_keeps _ _ _) ?_
      assumption
    assumption
  clear_value v4
  extract_lets +onlyGivenNames v5
  have h5 : Keeps true true true true v5 s := by
    unfold v5
    refine .trans (State.abandonFrames_keeps _ _ _ _) ?_
    assumption
  clear_value v5
  extract_lets +onlyGivenNames v6
  have h6 : Keeps true true true true v6 s := by
    unfold v6
    refine .ite ?_ ?_
    · refine .trans (State.modEngine_keeps _ _ _) ?_
      assumption
    assumption
  clear_value v6
  extract_lets +onlyGivenNames v7
  have h7 : Keeps true true true true v7 s := by
    unfold v7
    refine .trans (State.grtReset_keeps _ _ _) ?_
    refine .trans (State.trigReset_keeps _ _ _ _) ?_
    assumption
  clear_value v7
  refine .ite ?_ ?_
  · refine .trans (State.traceBegin_keeps _ _ _) ?_
    assumption
  assumption

theorem State.rotSync_keeps (s : State) :
    Keeps true true true true (State.rotSync s) s := by
  unfold State.rotSync
  extract_lets +onlyGivenNames v1
  clear_value v1
  refine .ite ?_ ?_
  · refine .trans (State.spareEnter_keeps _ _) ?_
    refine .trans (State.modRot_keeps _ _) ?_
    exact .refl _
  exact .refl _

theorem State.surveyReset_keeps (s : State) :
    Keeps true true true true (State.surveyReset s) s := by
  unfold State.surveyReset
  split
  · refine .ite ?_ ?_
    · refine .trans (State.stepTo_keeps _ _) ?_
      exact .refl _
    exact .refl _
  · exact .refl _

theorem State.syncApply_keeps (s : State) (new : Option ℕ) :
    Keeps false true true false (State.syncApply s new) s := by
  unfold State.syncApply
  extract_lets +onlyGivenNames v1
  clear_value v1
  extract_lets +onlyGivenNames v2
  have h2 : Keeps false true true false v2 s := by
    unfold v2
    split
    · refine .trans (State.loadSix_keeps _ _) ?_
      exact .refl _
    · exact .refl _
  clear_value v2
  extract_lets +onlyGivenNames v5
  have h5 : Keeps false true true false v5 s := by
    unfold v5
    refine .congr (u := v2) ?_
    assumption
  clear_value v5
  extract_lets +onlyGivenNames v6
  have h6 : Keeps false true true false v6 s := by
    unfold v6
    refine .trans (State.each_keeps (m := false) (k := true) (r := true) (p := false) ?_) ?_
    · intro a7_0 a7_1
      refine .trans (State.pipeSync_keeps _ _ _ _ _) ?_
      exact .refl _
    assumption
  clear_value v6
  refine .trans (State.irqBit_keeps _ _ _) ?_
  refine .trans (State.surveyReset_keeps _) ?_
  refine .trans (State.migReset_keeps _ _) ?_
  refine .trans (State.rotSync_keeps _) ?_
  assumption

theorem execSyncResetApply_keeps (s : State) :
    Res.keeps false true true false (execSyncResetApply s) s := by
  unfold execSyncResetApply
  split
  · refine Res.keeps_next ?_
    exact .refl _
  · split
    · refine Res.keeps_next ?_
      exact .refl _
    · extract_lets +onlyGivenNames v1
      have h1 : Keeps false true true false v1 s := by
        unfold v1
        refine .trans (State.modTb_keeps _ _) ?_
        refine .trans (State.advanceTo_keeps _ _) ?_
        exact .refl _
      clear_value v1
      extract_lets +onlyGivenNames v2
      have h2 : Keeps false true true false v2 s := by
        unfold v2
        refine .trans (State.syncApply_keeps _ _) ?_
        assumption
      clear_value v2
      refine Res.keeps_ite ?_ ?_
      · refine Res.keeps_next ?_
        assumption
      extract_lets +onlyGivenNames v3
      clear_value v3
      refine Res.keeps_next ?_
      refine .trans (State.doneWith_keeps _ _ _) ?_
      refine .trans (State.syncOff_keeps _) ?_
      assumption

theorem State.captureEdge_keeps (s : State) (o : SyncOp) (six : ℕ) (fine : ℕ) :
    Keeps true true true true (State.captureEdge s o six fine) s := by
  unfold State.captureEdge
  extract_lets +onlyGivenNames v1
  have h1 : Keeps true true true true v1 s := by
    unfold v1
    refine .trans (State.wf_keeps _ _ _ _) ?_
    refine .trans (State.setSix3_keeps _ _ _ _) ?_
    exact .refl _
  clear_value v1
  refine .ite ?_ ?_
  · refine .trans (State.modTb_keeps _ _) ?_
    assumption
  assumption

theorem execSyncinEdge_keeps (six : ℕ) (fine : ℕ) (falling : Bool) (heldNs : ℕ) (s : State) :
    Res.keeps true true true true (execSyncinEdge six fine falling heldNs s) s := by
  unfold execSyncinEdge
  refine Res.keeps_ite ?_ ?_
  · refine Res.keeps_next ?_
    exact .refl _
  extract_lets +onlyGivenNames v1
  have h1 : Keeps true true true true v1 s := by
    unfold v1
    refine .trans (State.advanceTo_keeps _ _) ?_
    exact .refl _
  clear_value v1
  split
  · refine Res.keeps_ite ?_ ?_
    · refine Res.keeps_next ?_
      assumption
    refine Res.keeps_ite ?_ ?_
    · refine Res.keeps_next ?_
      refine .trans (State.count_keeps _ _ _) ?_
      assumption
    split
    · extract_lets +onlyGivenNames v2
      have h2 : Keeps true true true true v2 s := by
        unfold v2
        refine .trans (State.captureEdge_keeps _ _ _ _) ?_
        assumption
      clear_value v2
      refine Res.keeps_next ?_
      refine .trans (State.modTb_keeps _ _) ?_
      assumption
    · extract_lets +onlyGivenNames v3
      have h3 : Keeps true true true true v3 s := by
        unfold v3
        refine .trans (State.captureEdge_keeps _ _ _ _) ?_
        assumption
      clear_value v3
      refine Res.keeps_ite ?_ ?_
      · refine Res.keeps_next ?_
        assumption
      refine Res.keeps_next ?_
      refine .trans (State.setErr_keeps _ _ _) ?_
      refine .trans (State.count_keeps _ _ _) ?_
      assumption
  · refine Res.keeps_ite ?_ ?_
    · refine Res.keeps_next ?_
      refine .trans (State.count_keeps _ _ _) ?_
      assumption
    refine Res.keeps_next ?_
    assumption

theorem execSyncoutRepeat_keeps (s : State) :
    Res.keeps true true true true (execSyncoutRepeat s) s := by
  unfold execSyncoutRepeat
  split
  · refine Res.keeps_next ?_
    exact .refl _
  · extract_lets +onlyGivenNames v1
    have h1 : Keeps true true true true v1 s := by
      unfold v1
      refine .trans (State.modTb_keeps _ _) ?_
      refine .trans (State.advanceTo_keeps _ _) ?_
      exact .refl _
    clear_value v1
    split
    · refine Res.keeps_next ?_
      refine .trans (State.emit_keeps _ _) ?_
      assumption
    · refine Res.keeps_next ?_
      assumption

theorem execTagQuarantineEnd_keeps (port : Fin 14) (tag : Fin 4096) (s : State) :
    Res.keeps true true true true (execTagQuarantineEnd port tag s) s := by
  unfold execTagQuarantineEnd
  extract_lets +onlyGivenNames v1
  clear_value v1
  split
  · refine Res.keeps_next ?_
    exact .refl _
  · extract_lets +onlyGivenNames v2
    have h2 : Keeps true true true true v2 s := by
      unfold v2
      refine .trans (State.advanceTo_keeps _ _) ?_
      exact .refl _
    clear_value v2
    refine Res.keeps_next ?_
    refine .trans (State.refreshLink_keeps _ _) ?_
    refine .trans (State.modLink_keeps _ _ _) ?_
    assumption

theorem State.hold_keeps (s : State) (opcode : ℕ) (e : List Byte) (t : Task) :
    Keeps true true true false (State.hold s opcode e t).1 s := by
  unfold State.hold
  dsimp only
  refine .trans (State.modPhn_keeps _ _) ?_
  exact .refl _

theorem execTaskCancel_keeps (entry : List Byte) (s : State) :
    Res.keeps false true true false (execTaskCancel entry s) s := by
  unfold execTaskCancel
  refine Res.keeps_next ?_
  refine .trans (State.evaluateTask_keeps (m := false) (k := true) (r := true)  ?_) ?_
  · intro a1_0 a1_1
    refine .ite_fst ?_ ?_
    · refine .trans (State.hold_keeps _ _ _ _) ?_
      exact .refl _
    dsimp only
    refine .trans (State.beginNext_keeps _) ?_
    refine .trans (State.endTask_keeps _ _ _ _ _) ?_
    exact .refl _
  exact .refl _

theorem execTaskDurationEnd_keeps (task : BitVec 32) (s : State) :
    Res.keeps false true true false (execTaskDurationEnd task s) s := by
  unfold execTaskDurationEnd
  split
  · refine Res.keeps_next ?_
    exact .refl _
  · refine Res.keeps_ite ?_ ?_
    · refine Res.keeps_next ?_
      exact .refl _
    refine Res.keeps_next ?_
    refine .trans (State.endTask_keeps _ _ _ _ _) ?_
    refine .trans (State.advanceTo_keeps _ _) ?_
    exact .refl _

theorem execTaskQuery_keeps (entry : List Byte) (s : State) :
    Res.keeps true true true false (execTaskQuery entry s) s := by
  unfold execTaskQuery
  refine Res.keeps_ite ?_ ?_
  · refine Res.keeps_next ?_
    refine .trans (State.evaluate_keeps (m := true) (k := true) (r := true)  ?_) ?_
    · intro a1_0
      extract_lets +onlyGivenNames v2
      have h2 : Keeps true true true false v2.1 a1_0 := by
        unfold v2
        refine .trans (State.report_keeps _ _ _ _) ?_
        exact .refl _
      clear_value v2
      dsimp only
      assumption
    exact .refl _
  refine Res.keeps_next ?_
  refine .trans (State.evaluateTask_keeps (m := true) (k := true) (r := true)  ?_) ?_
  · intro a3_0 a3_1
    extract_lets +onlyGivenNames v4
    have h4 : Keeps true true true false v4.1 a3_0 := by
      unfold v4
      refine .trans (State.report_keeps _ _ _ _) ?_
      exact .refl _
    clear_value v4
    dsimp only
    assumption
  exact .refl _

theorem execTaskResume_keeps (entry : List Byte) (s : State) :
    Res.keeps false true true false (execTaskResume entry s) s := by
  unfold execTaskResume
  refine Res.keeps_next ?_
  refine .trans (State.evaluateTask_keeps (m := false) (k := true) (r := true)  ?_) ?_
  · intro a1_0 a1_1
    refine .ite_fst ?_ ?_
    · dsimp only
      exact .refl _
    refine .ite_fst ?_ ?_
    · dsimp only
      exact .refl _
    split
    · dsimp only
      exact .refl _
    · refine .ite_fst ?_ ?_
      · dsimp only
        exact .refl _
      dsimp only
      refine .trans (State.freeHold_keeps _ _) ?_
      refine .trans (State.commitPlace_keeps _ _) ?_
      refine .trans (State.evict_keeps _ _) ?_
      exact .refl _
  exact .refl _

theorem State.markRunning_keeps (s : State) (t : Task) (a : ℕ) :
    Keeps true true true false (State.markRunning s t a) s := by
  unfold State.markRunning
  extract_lets +onlyGivenNames v1
  have h1 : Keeps true true true false v1 s := by
    unfold v1
    refine .trans (State.modTask_keeps _ _ _) ?_
    exact .refl _
  clear_value v1
  refine .trans (State.notify_keeps _ _ _ _ _) ?_
  assumption

theorem State.startCores_keeps (s : State) (t : Task) (image : Option (List Byte)) : ∀ u, s.startCores t image = some u → Keeps true true true true u s := by
  intro u h
  unfold State.startCores at h
  split at h
  · cases h; exact .trans (State.loadCoreItems_keeps _ _) (State.coresStart_keeps _ _)
  · split at h
    · split at h
      · cases h; exact .trans (State.loadCoreItems_keeps _ _) (State.coresStart_keeps _ _)
      · cases h
    · cases h

theorem State.startFeed_keeps (s : State) (t : Task) :
    Keeps true true true true (State.startFeed s t) s := by
  unfold State.startFeed
  refine .trans (State.enableOuts_keeps _) ?_
  refine .trans (State.startPage_keeps _ _) ?_
  refine .trans (State.stageDsp_keeps _ _ _) ?_
  exact .refl _

theorem State.startHold_keeps (s : State) (t : Task) :
    Keeps true true true true (State.startHold s t) s := by
  unfold State.startHold
  refine .congr (u := s) ?_
  exact .refl _

theorem State.freshWriter_keeps (s : State) (t : Task) :
    Keeps true true true true (State.freshWriter s t) s := by
  unfold State.freshWriter
  extract_lets +onlyGivenNames v1
  clear_value v1
  refine .ite ?_ ?_
  · refine .trans (State.modCapture_keeps _ _ _) ?_
    refine .trans (State.modPage_keeps _ _ _) ?_
    exact .refl _
  refine .ite ?_ ?_
  · refine .trans (State.modCapture_keeps _ _ _) ?_
    refine .trans (State.each_keeps (m := true) (k := true) (r := true) (p := true) ?_) ?_
    · intro a2_0 a2_1
      refine .trans (State.setReg_keeps _ _ _ _) ?_
      exact .refl _
    exact .refl _
  exact .refl _

theorem State.unpark_keeps (s : State) (t : Task) (y2 : Parked) :
    Keeps true true true false (State.unpark s t y2) s := by
  unfold State.unpark
  extract_lets +onlyGivenNames v1
  clear_value v1
  extract_lets +onlyGivenNames v2
  clear_value v2
  extract_lets +onlyGivenNames v3
  have h3 : Keeps true true true false v3 s := by
    unfold v3
    refine .trans (State.modPhn_keeps _ _) ?_
    exact .refl _
  clear_value v3
  extract_lets +onlyGivenNames v4
  have h4 : Keeps true true true false v4 s := by
    unfold v4
    refine .trans (State.repoint_keeps _ _ _) ?_
    assumption
  clear_value v4
  refine .ite ?_ ?_
  · extract_lets +onlyGivenNames v5
    have h5 : Keeps true true true false v5 s := by
      unfold v5
      refine .trans (State.modPage_keeps _ _ _) ?_
      assumption
    clear_value v5
    extract_lets +onlyGivenNames v6
    have h6 : Keeps true true true false v6 s := by
      unfold v6
      refine .trans (State.modCapture_keeps _ _ _) ?_
      assumption
    clear_value v6
    extract_lets +onlyGivenNames v7
    have h7 : Keeps true true true false v7 s := by
      unfold v7
      refine .ite ?_ ?_
      · refine .trans (State.setReg_keeps _ _ _ _) ?_
        assumption
      assumption
    clear_value v7
    refine .trans (State.refreshCap_keeps _ _) ?_
    assumption
  refine .ite ?_ ?_
  · extract_lets +onlyGivenNames v8
    refine .trans (State.modCapture_keeps _ _ _) ?_
    refine .trans (State.each_keeps (m := true) (k := true) (r := true) (p := false) ?_) ?_
    · intro a9_0 a9_1
      refine .trans (State.setReg_keeps _ _ _ _) ?_
      exact .refl _
    assumption
  assumption

theorem State.startOnPipes_keeps (s : State) (t : Task) :
    Keeps true true true false (State.startOnPipes s t) s := by
  unfold State.startOnPipes
  extract_lets +onlyGivenNames v1
  have h1 : Keeps true true true false v1 s := by
    unfold v1
    refine .trans (State.blankPages_keeps _ _) ?_
    exact .refl _
  clear_value v1
  extract_lets +onlyGivenNames v2
  have h2 : Keeps true true true false v2 s := by
    unfold v2
    split
    · refine .trans (State.unpark_keeps _ _ _) ?_
      assumption
    · refine .trans (State.freshWriter_keeps _ _) ?_
      assumption
  clear_value v2
  extract_lets +onlyGivenNames v3
  have h3 : Keeps true true true false v3 s := by
    unfold v3
    refine .trans (State.connect_keeps _ _) ?_
    assumption
  clear_value v3
  extract_lets +onlyGivenNames v4
  have h4 : Keeps true true true false v4 s := by
    unfold v4
    refine .trans (State.applyAll_keeps _ _) ?_
    assumption
  clear_value v4
  extract_lets +onlyGivenNames v5
  have h5 : Keeps true true true false v5 s := by
    unfold v5
    refine .trans (State.each_keeps (m := true) (k := true) (r := true) (p := false) ?_) ?_
    · intro a6_0 a6_1
      refine .trans (State.ddcRefresh_keeps _ _) ?_
      exact .refl _
    assumption
  clear_value v5
  refine .trans (State.each_keeps (m := true) (k := true) (r := true) (p := false) ?_) ?_
  · intro a7_0 a7_1
    refine .trans (State.startPage_keeps _ _) ?_
    exact .refl _
  refine .trans (State.loadItems_keeps _ _) ?_
  assumption

theorem execTaskStart_keeps (task : BitVec 32) (image : Option (List Byte)) (s : State) : Res.keeps false true true false (execTaskStart task image s) s := by
  unfold execTaskStart
  split
  · exact Res.keeps_next (.refl _)
  · rename_i t _
    refine Res.keeps_ite (Res.keeps_next (.refl _)) ?_
    extract_lets +onlyGivenNames a s1
    have h1 : Keeps false true true false s1 s := .to (State.advanceTo_keeps _ _)
    clear_value s1 a
    refine Res.keeps_ite ?_ ?_
    · split
      · rename_i s2 e
        exact Res.keeps_next (.trans (State.markRunning_keeps _ _ _) (.trans (State.startCores_keeps _ _ _ _ e) h1))
      · exact Res.keeps_next (.trans (State.failTask_keeps _ _ _ _) h1)
    · extract_lets +onlyGivenNames s2
      have h2 : Keeps false true true false s2 s := .ite (.trans (State.startOnPipes_keeps _ _) h1) (.ite (.trans (State.startFeed_keeps _ _) h1)
        (.ite (.trans (State.startHold_keeps _ _) h1) h1))
      clear_value s2
      exact Res.keeps_next (.trans (State.markRunning_keeps _ _ _) h2)

theorem execTaskSuspend_keeps (entry : List Byte) (s : State) :
    Res.keeps false true true false (execTaskSuspend entry s) s := by
  unfold execTaskSuspend
  refine Res.keeps_next ?_
  refine .trans (State.evaluateTask_keeps (m := false) (k := true) (r := true)  ?_) ?_
  · intro a1_0 a1_1
    refine .ite_fst ?_ ?_
    · refine .trans (State.hold_keeps _ _ _ _) ?_
      exact .refl _
    refine .ite_fst ?_ ?_
    · dsimp only
      exact .refl _
    dsimp only
    refine .trans (State.suspendTask_keeps _ _ _) ?_
    exact .refl _
  exact .refl _

theorem execTbLocked_keeps (s : State) :
    Res.keeps true true true true (execTbLocked s) s := by
  unfold execTbLocked
  refine Res.keeps_next ?_
  refine .ite ?_ ?_
  · refine .trans (State.tbEnter_keeps _ _) ?_
    exact .refl _
  exact .refl _

theorem execTbsSixRead_keeps (s : State) :
    Res.keeps true true true true (execTbsSixRead s) s := by
  unfold execTbsSixRead
  refine Res.keeps_next ?_
  refine .trans (State.latchSix_keeps _) ?_
  exact .refl _

theorem State.measureDone_keeps (s : State) (timeout : Bool) :
    Keeps true true true true (State.measureDone s timeout) s := by
  unfold State.measureDone
  extract_lets +onlyGivenNames v1
  clear_value v1
  extract_lets +onlyGivenNames v2
  clear_value v2
  extract_lets +onlyGivenNames v3
  have h3 : Keeps true true true true v3 s := by
    unfold v3
    refine .trans (State.modTdc_keeps _ _) ?_
    exact .refl _
  clear_value v3
  extract_lets +onlyGivenNames v4
  have h4 : Keeps true true true true v4 s := by
    unfold v4
    refine .ite ?_ ?_
    · refine .trans (State.modTdc_keeps _ _) ?_
      assumption
    refine .trans (State.writeStops_keeps _ _ _) ?_
    assumption
  clear_value v4
  refine .trans (State.doneWith_keeps _ _ _) ?_
  assumption

theorem State.tdcStart_keeps (s : State) (e : TdcEdge) (six : ℕ) (fine : ℕ) :
    Keeps true true true true (State.tdcStart s e six fine) s := by
  unfold State.tdcStart
  extract_lets +onlyGivenNames v1
  clear_value v1
  extract_lets +onlyGivenNames v2
  clear_value v2
  extract_lets +onlyGivenNames v3
  have h3 : Keeps true true true true v3 s := by
    unfold v3
    refine .trans (State.modTdc_keeps _ _) ?_
    exact .refl _
  clear_value v3
  extract_lets +onlyGivenNames v4
  have h4 : Keeps true true true true v4 s := by
    unfold v4
    refine .ite ?_ ?_
    · refine .trans (State.setErr_keeps _ _ _) ?_
      refine .trans (State.countBy_keeps _ _ _ _) ?_
      assumption
    assumption
  clear_value v4
  refine .ite ?_ ?_
  · refine .trans (State.measureDone_keeps _ _) ?_
    refine .trans (State.modTdc_keeps _ _) ?_
    assumption
  assumption

theorem execTdcEdge_keeps (input : ℕ) (falling : Bool) (six : ℕ) (fine : ℕ) (s : State) :
    Res.keeps true true true true (execTdcEdge input falling six fine s) s := by
  unfold execTdcEdge
  extract_lets +onlyGivenNames v1
  clear_value v1
  extract_lets +onlyGivenNames v2
  have h2 : Keeps true true true true v2 s := by
    unfold v2
    refine .trans (State.advanceTo_keeps _ _) ?_
    exact .refl _
  clear_value v2
  refine Res.keeps_ite ?_ ?_
  · refine Res.keeps_next ?_
    assumption
  extract_lets +onlyGivenNames v3
  have h3 : Keeps true true true true v3 s := by
    unfold v3
    refine .trans (State.modTdc_keeps _ _) ?_
    assumption
  clear_value v3
  split
  · refine Res.keeps_next ?_
    assumption
  · refine Res.keeps_ite ?_ ?_
    · refine Res.keeps_next ?_
      assumption
    refine Res.keeps_ite ?_ ?_
    · refine Res.keeps_next ?_
      refine .trans (State.tdcStart_keeps _ _ _ _) ?_
      assumption
    refine Res.keeps_ite ?_ ?_
    · refine Res.keeps_next ?_
      refine .trans (State.modTdc_keeps _ _) ?_
      assumption
    refine Res.keeps_next ?_
    assumption
  · refine Res.keeps_ite ?_ ?_
    · extract_lets +onlyGivenNames v4
      have h4 : Keeps true true true true v4 s := by
        unfold v4
        refine .trans (State.modTdc_keeps _ _) ?_
        assumption
      clear_value v4
      refine Res.keeps_ite ?_ ?_
      · refine Res.keeps_next ?_
        refine .trans (State.measureDone_keeps _ _) ?_
        assumption
      refine Res.keeps_next ?_
      assumption
    refine Res.keeps_next ?_
    assumption
  · refine Res.keeps_ite ?_ ?_
    · refine Res.keeps_next ?_
      refine .trans (State.modTdc_keeps _ _) ?_
      assumption
    refine Res.keeps_next ?_
    assumption

theorem execTdcStartWaitExpiry_keeps (s : State) :
    Res.keeps true true true true (execTdcStartWaitExpiry s) s := by
  unfold execTdcStartWaitExpiry
  refine Res.keeps_ite ?_ ?_
  · refine Res.keeps_next ?_
    refine .trans (State.failOp_keeps _ _ _ _) ?_
    refine .trans (State.modTdc_keeps _ _) ?_
    refine .trans (State.advanceTo_keeps _ _) ?_
    exact .refl _
  refine Res.keeps_next ?_
  exact .refl _

theorem execTdcTimeout_keeps (s : State) :
    Res.keeps true true true true (execTdcTimeout s) s := by
  unfold execTdcTimeout
  refine Res.keeps_ite ?_ ?_
  · refine Res.keeps_next ?_
    refine .trans (State.measureDone_keeps _ _) ?_
    refine .trans (State.advanceTo_keeps _ _) ?_
    exact .refl _
  refine Res.keeps_next ?_
  exact .refl _

theorem execTempBandChange_keeps (stack : Fin 4) (s : State) :
    Res.keeps true true true true (execTempBandChange stack s) s := by
  unfold execTempBandChange
  extract_lets +onlyGivenNames v1
  clear_value v1
  extract_lets +onlyGivenNames v2
  clear_value v2
  extract_lets +onlyGivenNames v3
  clear_value v3
  extract_lets +onlyGivenNames v4
  clear_value v4
  extract_lets +onlyGivenNames v5
  clear_value v5
  extract_lets +onlyGivenNames v6
  clear_value v6
  refine Res.keeps_ite ?_ ?_
  · refine Res.keeps_next ?_
    exact .refl _
  extract_lets +onlyGivenNames v7
  have h7 : Keeps true true true true v7 s := by
    unfold v7
    refine .trans (State.advanceTo_keeps _ _) ?_
    exact .refl _
  clear_value v7
  extract_lets +onlyGivenNames v8
  have h8 : Keeps true true true true v8 s := by
    unfold v8
    refine .trans (State.wb_keeps _ _ _ _) ?_
    refine .trans (State.wf_keeps _ _ _ _) ?_
    assumption
  clear_value v8
  refine Res.keeps_next ?_
  refine .trans (State.modStack_keeps _ _ _) ?_
  assumption

theorem execThermalTrigger_keeps (last : Fin 8) (s : State) :
    Res.keeps false true false false (execThermalTrigger last s) s := by
  unfold execThermalTrigger
  refine Res.keeps_next ?_
  refine .trans (State.powerFail_keeps _ _ _) ?_
  exact .refl _

theorem execThrottleEnd_keeps (stack : Fin 4) (source : ℕ) (s : State) :
    Res.keeps true true true true (execThrottleEnd stack source s) s := by
  unfold execThrottleEnd
  split
  · refine Res.keeps_next ?_
    exact .refl _
  · refine Res.keeps_next ?_
    refine .trans (State.modStack_keeps _ _ _) ?_
    refine .trans (State.advanceTo_keeps _ _) ?_
    exact .refl _

theorem execTrgCommitAt_keeps (who : Issuer) (region : Fin 2) (tag : ℕ) (s : State) :
    Res.keeps true true true true (execTrgCommitAt who region tag s) s := by
  unfold execTrgCommitAt
  extract_lets +onlyGivenNames v1
  clear_value v1
  refine Res.keeps_next ?_
  refine .trans (State.command_keeps (m := true) (k := true) (r := true) (p := true) ?_) ?_
  · intro a2_0
    refine .trans (State.commitAt_keeps _ _ _ _) ?_
    exact .refl _
  exact .refl _

theorem execTrigOutPulseEnd_keeps (region : Fin 2) (six : ℕ) (s : State) :
    Res.keeps true true true true (execTrigOutPulseEnd region six s) s := by
  unfold execTrigOutPulseEnd
  extract_lets +onlyGivenNames v1
  clear_value v1
  extract_lets +onlyGivenNames v2
  have h2 : Keeps true true true true v2 s := by
    unfold v2
    refine .trans (State.advanceTo_keeps _ _) ?_
    exact .refl _
  clear_value v2
  extract_lets +onlyGivenNames v3
  have h3 : Keeps true true true true v3 s := by
    unfold v3
    split
    · refine .ite ?_ ?_
      · refine .trans (State.emit_keeps _ _) ?_
        refine .trans (State.modTrigOut_keeps _ _ _) ?_
        assumption
      assumption
    · assumption
  clear_value v3
  refine Res.keeps_next ?_
  refine .trans (foldl_keeps (m := true) (k := true) (r := true) (p := true) ?_) ?_
  · intro a4_0 a4_1
    split
    · refine .ite ?_ ?_
      · refine .trans (State.emit_keeps _ _) ?_
        refine .trans (State.modTrigOut_keeps _ _ _) ?_
        exact .refl _
      exact .refl _
    · exact .refl _
  assumption

theorem execTriggerApply_keeps (region : Fin 2) (page : Fin 1024) (s : State) :
    Res.keeps true true true true (execTriggerApply region page s) s := by
  unfold execTriggerApply
  extract_lets +onlyGivenNames v1
  clear_value v1
  split
  · refine Res.keeps_next ?_
    exact .refl _
  · extract_lets +onlyGivenNames v2
    clear_value v2
    extract_lets +onlyGivenNames v3
    extract_lets +onlyGivenNames v4
    have h4 : Keeps true true true true v4 s := by
      unfold v4
      refine .trans (State.clearPend_keeps _ _) ?_
      refine .trans (State.advanceTo_keeps _ _) ?_
      exact .refl _
    clear_value v4
    refine Res.keeps_ite ?_ ?_
    · refine Res.keeps_next ?_
      refine .trans (State.passCommit_keeps _ _ _) ?_
      exact .refl _
    split
    · refine Res.keeps_next ?_
      unfold v3
      refine .trans (State.endCommit_keeps _ _ _) ?_
      refine .trans (State.irqBit_keeps _ _ _) ?_
      refine .trans (State.setCfg_keeps _ _ _) ?_
      refine .trans (State.ctrApply_keeps _ _ _) ?_
      assumption
    · refine Res.keeps_next ?_
      unfold v3
      refine .trans (State.endCommit_keeps _ _ _) ?_
      refine .trans (State.irqBit_keeps _ _ _) ?_
      refine .trans (State.setCfg_keeps _ _ _) ?_
      refine .trans (State.ttrApply_keeps _ _ _) ?_
      assumption
    · refine Res.keeps_next ?_
      unfold v3
      refine .trans (State.endCommit_keeps _ _ _) ?_
      refine .trans (State.irqBit_keeps _ _ _) ?_
      refine .trans (State.setCfg_keeps _ _ _) ?_
      refine .trans (State.trgApply_keeps _ _ _) ?_
      assumption
    · refine Res.keeps_next ?_
      exact .refl _

theorem execTrvCancel_keeps (who : Issuer) (chan : Fin 512) (s : State) :
    Res.keeps true true true true (execTrvCancel who chan s) s := by
  unfold execTrvCancel
  refine Res.keeps_trans (m1 := _) (State.chanCommand_keeps (m := true) (k := true) (r := true) (p := true) ?_) ?_
  · refine .ite ?_ ?_
    · refine .trans (State.chanReject_keeps _ _ _ _ _) ?_
      exact .refl _
    refine .trans (State.chanCode_keeps _ _ _ _) ?_
    refine .trans (State.chanCancel_keeps _ _) ?_
    exact .refl _
  exact .refl _

theorem execTrvCommit_keeps (who : Issuer) (chan : Fin 512) (s : State) :
    Res.keeps true true true true (execTrvCommit who chan s) s := by
  unfold execTrvCommit
  refine Res.keeps_trans (m1 := _) (State.chanCommand_keeps (m := true) (k := true) (r := true) (p := true) ?_) ?_
  · extract_lets +onlyGivenNames v2
    clear_value v2
    extract_lets +onlyGivenNames v3
    clear_value v3
    refine .ite ?_ ?_
    · refine .trans (State.chanReject_keeps _ _ _ _ _) ?_
      exact .refl _
    refine .ite ?_ ?_
    · refine .trans (State.chanReject_keeps _ _ _ _ _) ?_
      exact .refl _
    extract_lets +onlyGivenNames v4
    clear_value v4
    extract_lets +onlyGivenNames v5
    clear_value v5
    refine .ite ?_ ?_
    · refine .trans (State.chanReject_keeps _ _ _ _ _) ?_
      exact .refl _
    extract_lets +onlyGivenNames v6
    have h6 : Keeps true true true true v6 s := by
      unfold v6
      refine .trans (State.setShadow_keeps _ _ _) ?_
      refine .trans (State.chanCode_keeps _ _ _ _) ?_
      exact .refl _
    clear_value v6
    refine .ite ?_ ?_
    · assumption
    refine .trans (State.promote_keeps _ _) ?_
    assumption
  exact .refl _

theorem State.tailWait_keeps (s : State) (c : ℕ) (d : ChanDesc) :
    Keeps true true true true (State.tailWait s c d) s := by
  unfold State.tailWait
  extract_lets +onlyGivenNames v1
  have h1 : Keeps true true true true v1 s := by
    unfold v1
    refine .trans (State.chanEnter_keeps _ _ _) ?_
    refine .trans (State.setAct_keeps _ _ _) ?_
    refine .trans (State.modChan_keeps _ _ _) ?_
    exact .refl _
  clear_value v1
  refine .ite ?_ ?_
  · refine .trans (State.setDbPend_keeps _ _ _) ?_
    refine .trans (State.modChan_keeps _ _ _) ?_
    assumption
  assumption

theorem execTrvComplete_keeps (chan : Fin 512) (s : State) :
    Res.keeps false true true true (execTrvComplete chan s) s := by
  unfold execTrvComplete
  extract_lets +onlyGivenNames v1
  clear_value v1
  extract_lets +onlyGivenNames v2
  clear_value v2
  split
  · refine Res.keeps_next ?_
    exact .refl _
  · extract_lets +onlyGivenNames v3
    clear_value v3
    extract_lets +onlyGivenNames v4
    clear_value v4
    refine Res.keeps_ite ?_ ?_
    · refine Res.keeps_next ?_
      exact .refl _
    extract_lets +onlyGivenNames v5
    have h5 : Keeps false true true true v5 s := by
      unfold v5
      refine .trans (State.modChan_keeps _ _ _) ?_
      exact .refl _
    clear_value v5
    refine Res.keeps_ite ?_ ?_
    · refine Res.keeps_next ?_
      refine .trans (State.chanFail_keeps _ _ _ _) ?_
      refine .trans (State.writeBack_keeps _ _ _ _ _) ?_
      assumption
    extract_lets +onlyGivenNames v6
    clear_value v6
    extract_lets +onlyGivenNames v7
    have h7 : Keeps false true true true v7 s := by
      unfold v7
      refine .trans (State.writeBack_keeps _ _ _ _ _) ?_
      assumption
    clear_value v7
    extract_lets +onlyGivenNames v8
    have h8 : Keeps false true true true v8 s := by
      unfold v8
      refine .ite ?_ ?_
      · refine .trans (State.setReg_keeps _ _ _ _) ?_
        assumption
      assumption
    clear_value v8
    extract_lets +onlyGivenNames v9
    have h9 : Keeps false true true true v9 s := by
      unfold v9
      refine .trans (State.wrapBy_keeps _ _ _ _) ?_
      assumption
    clear_value v9
    extract_lets +onlyGivenNames v10
    have h10 : Keeps false true true true v10 s := by
      unfold v10
      refine .trans (State.chanCode_keeps _ _ _ _) ?_
      assumption
    clear_value v10
    extract_lets +onlyGivenNames v11
    have h11 : Keeps false true true true v11 s := by
      unfold v11
      refine .ite ?_ ?_
      · refine .trans (State.irqBit_keeps _ _ _) ?_
        assumption
      assumption
    clear_value v11
    extract_lets +onlyGivenNames v12
    clear_value v12
    refine Res.keeps_ite ?_ ?_
    · refine Res.keeps_next ?_
      refine .ite ?_ ?_
      · refine .trans (State.tailWait_keeps _ _ _) ?_
        assumption
      refine .trans (State.chanEnter_keeps _ _ _) ?_
      refine .trans (State.setAct_keeps _ _ _) ?_
      assumption
    refine Res.keeps_next ?_
    assumption

end Sys2Proof.Machine
end

