-- ==== Sys2Proof/Laws/Keeps9.lean ====
section
/-! SUPPORT. What the operations and commands keep, part 9. -/

set_option Elab.async false

namespace Sys2Proof.Machine

theorem execTrvPacket_keeps (group : Fin 32) (data : List Byte) (ok : Bool) (s : State) :
    Res.keeps false true true true (execTrvPacket group data ok s) s := by
  unfold execTrvPacket
  split
  · refine Res.keeps_next ?_
    exact .refl _
  · extract_lets +onlyGivenNames v1
    have h1 : Keeps false true true true v1 s := by
      unfold v1
      refine .congr (u := s) ?_
      exact .refl _
    clear_value v1
    split
    · refine Res.keeps_next ?_
      assumption
    · refine Res.keeps_ite ?_ ?_
      · refine Res.keeps_next ?_
        refine .trans (State.dataFails_keeps _ _) ?_
        assumption
      refine Res.keeps_next ?_
      refine .trans (State.movePacket_keeps _ _ _ _ _) ?_
      assumption

theorem execTrvResume_keeps (who : Issuer) (chan : Fin 512) (s : State) :
    Res.keeps true true true true (execTrvResume who chan s) s := by
  unfold execTrvResume
  refine Res.keeps_trans (m1 := _) (State.chanCommand_keeps (m := true) (k := true) (r := true) (p := true) ?_) ?_
  · refine .ite ?_ ?_
    · refine .trans (State.promote_keeps _ _) ?_
      refine .trans (State.chanEnter_keeps _ _ _) ?_
      refine .trans (State.chanCode_keeps _ _ _ _) ?_
      exact .refl _
    refine .trans (State.chanReject_keeps _ _ _ _ _) ?_
    exact .refl _
  exact .refl _

theorem execTrvShWrite_keeps (who : Issuer) (chan : Fin 512) (index : Fin 32) (value : BitVec 32) (s : State) :
    Res.keeps true true true true (execTrvShWrite who chan index value s) s := by
  unfold execTrvShWrite
  refine Res.keeps_next ?_
  refine .trans (State.write_keeps (m := true) (k := true) (r := true) (p := true) ?_) ?_
  · refine .ite ?_ ?_
    · refine .trans (State.setErr_keeps _ _ _) ?_
      exact .refl _
    refine .ite ?_ ?_
    · exact .refl _
    refine .ite ?_ ?_
    · extract_lets +onlyGivenNames v2
      clear_value v2
      extract_lets +onlyGivenNames v3
      clear_value v3
      extract_lets +onlyGivenNames v4
      clear_value v4
      extract_lets +onlyGivenNames v5
      clear_value v5
      extract_lets +onlyGivenNames v6
      have h6 : Keeps true true true true v6 s := by
        unfold v6
        refine .trans (State.setReg_keeps _ _ _ _) ?_
        exact .refl _
      clear_value v6
      refine .ite ?_ ?_
      · refine .trans (State.setErr_keeps _ _ _) ?_
        assumption
      assumption
    refine .ite ?_ ?_
    · exact .refl _
    refine .trans (State.setReg_keeps _ _ _ _) ?_
    exact .refl _
  exact .refl _

theorem execTrvStartChain_keeps (who : Issuer) (chan : Fin 512) (s : State) :
    Res.keeps true true true true (execTrvStartChain who chan s) s := by
  unfold execTrvStartChain
  refine Res.keeps_trans (m1 := _) (State.chanCommand_keeps (m := true) (k := true) (r := true) (p := true) ?_) ?_
  · extract_lets +onlyGivenNames v2
    clear_value v2
    refine .ite ?_ ?_
    · refine .trans (State.chanReject_keeps _ _ _ _ _) ?_
      exact .refl _
    extract_lets +onlyGivenNames v3
    clear_value v3
    extract_lets +onlyGivenNames v4
    clear_value v4
    refine .trans (State.chanEnter_keeps _ _ _) ?_
    refine .trans (State.modChan_keeps _ _ _) ?_
    refine .trans (State.chanCode_keeps _ _ _ _) ?_
    exact .refl _
  exact .refl _

theorem execTrvSuspend_keeps (who : Issuer) (chan : Fin 512) (s : State) :
    Res.keeps true true true true (execTrvSuspend who chan s) s := by
  unfold execTrvSuspend
  refine Res.keeps_trans (m1 := _) (State.chanCommand_keeps (m := true) (k := true) (r := true) (p := true) ?_) ?_
  · refine .ite ?_ ?_
    · refine .trans (State.chanEnter_keeps _ _ _) ?_
      refine .trans (State.chanCode_keeps _ _ _ _) ?_
      exact .refl _
    refine .trans (State.chanReject_keeps _ _ _ _ _) ?_
    exact .refl _
  exact .refl _

theorem execTtrCommitAt_keeps (who : Issuer) (pipe : Fin 6) (tag : ℕ) (s : State) :
    Res.keeps true true true true (execTtrCommitAt who pipe tag s) s := by
  unfold execTtrCommitAt
  extract_lets +onlyGivenNames v1
  clear_value v1
  refine Res.keeps_next ?_
  refine .trans (State.command_keeps (m := true) (k := true) (r := true) (p := true) ?_) ?_
  · intro a2_0
    refine .trans (State.commitAt_keeps _ _ _ _) ?_
    exact .refl _
  exact .refl _

theorem execUartRxCharacter_keeps (char : BitVec 8) (framing : Bool) (s : State) :
    Res.keeps true true true true (execUartRxCharacter char framing s) s := by
  unfold execUartRxCharacter
  refine Res.keeps_next ?_
  refine .ite ?_ ?_
  · refine .trans (State.modPower_keeps _ _) ?_
    exact .refl _
  exact .refl _

theorem execUnbind_keeps (who : Issuer) (tag : ℕ) (s : State) :
    Res.keeps true true true true (execUnbind who tag s) s := by
  unfold execUnbind
  refine Res.keeps_next ?_
  refine .trans (State.command_keeps (m := true) (k := true) (r := true) (p := true) ?_) ?_
  · intro a1_0
    extract_lets +onlyGivenNames v2
    clear_value v2
    refine .ite ?_ ?_
    · refine .trans (State.rejectOp_keeps _ _ _ _ _) ?_
      exact .refl _
    refine .trans (State.doneOp_keeps _ _) ?_
    refine .trans (State.modRing_keeps _ _ _) ?_
    refine .trans (State.accept_keeps _ _ _) ?_
    exact .refl _
  exact .refl _

theorem execUndervoltage_keeps (last : Fin 8) (s : State) :
    Res.keeps false true false false (execUndervoltage last s) s := by
  unfold execUndervoltage
  refine Res.keeps_next ?_
  refine .ite ?_ ?_
  · refine .trans (State.modPower_keeps _ _) ?_
    exact .refl _
  refine .trans (State.powerFail_keeps _ _ _) ?_
  exact .refl _

theorem execUnknownFrame_keeps (port : Fin 4) (s : State) :
    Res.keeps true true true true (execUnknownFrame port s) s := by
  unfold execUnknownFrame
  refine Res.keeps_next ?_
  refine .ite ?_ ?_
  · refine .trans (State.ethDrop_keeps _ _) ?_
    exact .refl _
  exact .refl _

theorem execUnpin_keeps (entry : List Byte) (s : State) :
    Res.keeps true true true false (execUnpin entry s) s := by
  unfold execUnpin
  refine Res.keeps_next ?_
  refine .trans (State.evaluateTask_keeps (m := true) (k := true) (r := true)  ?_) ?_
  · intro a1_0 a1_1
    refine .ite_fst ?_ ?_
    · dsimp only
      exact .refl _
    refine .ite_fst ?_ ?_
    · dsimp only
      exact .refl _
    dsimp only
    refine .trans (State.setTask_keeps _ _) ?_
    exact .refl _
  exact .refl _

theorem State.applyDsp_keeps (s : State) :
    Keeps true true true true (State.applyDsp s).1 s := by
  unfold State.applyDsp
  split
  · dsimp only
    exact .refl _
  · refine .ite_fst ?_ ?_
    · dsimp only
      exact .refl _
    extract_lets +onlyGivenNames v1
    clear_value v1
    extract_lets +onlyGivenNames v2
    clear_value v2
    extract_lets +onlyGivenNames v3
    clear_value v3
    extract_lets +onlyGivenNames v4
    clear_value v4
    extract_lets +onlyGivenNames v5
    have h5 : Keeps true true true true v5 s := by
      unfold v5
      refine .trans (State.applyWords_keeps _ _ _) ?_
      refine .trans (State.clearPend_keeps _ _) ?_
      exact .refl _
    clear_value v5
    extract_lets +onlyGivenNames v6
    have h6 : Keeps true true true true v6 s := by
      unfold v6
      refine .trans (State.modPage_keeps _ _ _) ?_
      assumption
    clear_value v6
    extract_lets +onlyGivenNames v7
    have h7 : Keeps true true true true v7 s := by
      unfold v7
      refine .trans (State.each_keeps (m := true) (k := true) (r := true) (p := true) ?_) ?_
      · intro a8_0 a8_1
        refine .trans (State.retire_keeps _ _) ?_
        exact .refl _
      assumption
    clear_value v7
    extract_lets +onlyGivenNames v9
    have h9 : Keeps true true true true v9 s := by
      unfold v9
      refine .trans (State.retireAll_keeps _) ?_
      assumption
    clear_value v9
    extract_lets +onlyGivenNames v10
    have h10 : Keeps true true true true v10 s := by
      unfold v10
      refine .ite ?_ ?_
      · refine .congr (u := v7) ?_
        assumption
      refine .congr (u := v9) ?_
      assumption
    clear_value v10
    extract_lets +onlyGivenNames v11
    have h11 : Keeps true true true true v11 s := by
      unfold v11
      refine .trans (State.count_keeps _ _ _) ?_
      assumption
    clear_value v11
    extract_lets +onlyGivenNames v12
    have h12 : Keeps true true true true v12 s := by
      unfold v12
      refine .ite ?_ ?_
      · refine .trans (State.each_keeps (m := true) (k := true) (r := true) (p := true) ?_) ?_
        · intro a13_0 a13_1
          refine .trans (State.modScan_keeps _ _ _) ?_
          refine .trans (State.setOut_keeps _ _ _) ?_
          exact .refl _
        assumption
      assumption
    clear_value v12
    dsimp only
    refine .trans (State.endCommit_keeps _ _ _) ?_
    refine .trans (State.enableOuts_keeps _) ?_
    assumption

theorem State.endFrame_keeps (s : State) (g : Nat) (missing : List (Nat × Nat)) (loops : List (Nat × Nat × Nat × Nat)) :
    Keeps true true true true (s.endFrame g missing loops) s := by
  unfold State.endFrame
  extract_lets +onlyGivenNames shows outs
  clear_value outs
  refine .ite (State.each_keeps fun s o => State.emit_keeps _ _) ?_
  extract_lets +onlyGivenNames px crc s1
  have h1 : Keeps true true true true s1 s :=
    .ite (.refl _) (.trans (State.setErr_keeps _ _ _) (State.countBy_keeps _ _ _ _))
  clear_value s1 crc px
  refine .trans (State.each_keeps (m := true) (k := true) (r := true) (p := true) ?_) h1
  intro s o
  extract_lets +onlyGivenNames seen s2 s3
  have h2 : Keeps true true true true s2 s := State.emit_keeps _ _
  clear_value s2 seen
  have h3 : Keeps true true true true s3 s := .trans (State.setReg_keeps _ _ _ _) (.trans (State.setReg_keeps _ _ _ _) h2)
  clear_value s3
  refine .ite h3 ?_
  extract_lets +onlyGivenNames s4 sec
  have h4 : Keeps true true true true s4 s := .trans (State.setErr_keeps _ _ _) (.trans (State.count_keeps _ _ _) h3)
  clear_value s4 sec
  refine .ite h4 ?_
  exact .trans (State.logPage_keeps _ _ _ _ _ _ _) (.trans (State.drawNat_keeps _) (.congr h4))

theorem State.retryPassed_keeps (s : State) :
    Keeps true true true true (State.retryPassed s) s := by
  unfold State.retryPassed
  extract_lets +onlyGivenNames v1
  clear_value v1
  beta_reduce
  refine .congr (u := (s.each v1 fun s x => s.passRd x.1 x.2.1 x.2.2)) ?_
  refine .trans (State.each_keeps (m := true) (k := true) (r := true) (p := true) ?_) ?_
  · intro a2_0 a2_1
    refine .trans (State.passRd_keeps _ _ _ _) ?_
    exact .refl _
  exact .refl _

theorem State.showNewer_keeps (s : State) (p : ℕ) (n : ℕ) (r : PlaneRec) :
    Keeps true true true true (State.showNewer s p n r) s := by
  unfold State.showNewer
  extract_lets +onlyGivenNames v1
  have h1 : Keeps true true true true v1 s := by
    unfold v1
    refine .trans (State.retryPassed_keeps _) ?_
    exact .refl _
  clear_value v1
  refine .ite ?_ ?_
  · assumption
  split
  · refine .trans (State.passRd_keeps _ _ _ _) ?_
    assumption
  · assumption

theorem State.latchPlane_keeps (s : State) (g : ℕ) (task : ℕ) (n : ℕ) (kind : ℕ) :
    Keeps true true true true (State.latchPlane s g task n kind).1 s := by
  unfold State.latchPlane
  split
  · dsimp only
    exact .refl _
  · extract_lets +onlyGivenNames v1
    clear_value v1
    refine .ite_fst ?_ ?_
    · dsimp only
      exact .refl _
    extract_lets +onlyGivenNames v2
    clear_value v2
    extract_lets +onlyGivenNames v3
    clear_value v3
    extract_lets +onlyGivenNames v4
    clear_value v4
    extract_lets +onlyGivenNames v5
    clear_value v5
    extract_lets +onlyGivenNames v6
    clear_value v6
    extract_lets +onlyGivenNames v7
    clear_value v7
    extract_lets +onlyGivenNames v8
    clear_value v8
    extract_lets +onlyGivenNames v9
    have h9 : Keeps true true true true v9 s := by
      unfold v9
      refine .trans (State.modScan_keeps _ _ _) ?_
      exact .refl _
    clear_value v9
    dsimp only
    refine .trans (State.showNewer_keeps _ _ _ _) ?_
    assumption

theorem State.latchBoth_keeps (s : State) (g : ℕ) :
    Keeps true true true true (State.latchBoth s g).1 s := by
  unfold State.latchBoth
  split
  · dsimp only
    exact .refl _
  · extract_lets +onlyGivenNames v1
    have h1 : Keeps true true true true v1.1 s := by
      unfold v1
      refine .trans (State.latchPlane_keeps _ _ _ _ _) ?_
      exact .refl _
    clear_value v1
    extract_lets +onlyGivenNames v2
    have h2 : Keeps true true true true v2.1 s := by
      unfold v2
      refine .trans (State.latchPlane_keeps _ _ _ _ _) ?_
      assumption
    clear_value v2
    dsimp only
    assumption

theorem State.vsyncBoundaries_keeps (s : State) :
    Keeps true true true true (State.vsyncBoundaries s) s := by
  unfold State.vsyncBoundaries
  extract_lets +onlyGivenNames v1
  clear_value v1
  refine .trans (State.each_keeps (m := true) (k := true) (r := true) (p := true) ?_) ?_
  · intro a2_0 a2_1
    extract_lets +onlyGivenNames v3
    have h3 : Keeps true true true true v3 a2_0 := by
      unfold v3
      refine .ite ?_ ?_
      · refine .trans (State.modGrat_keeps _ _ _) ?_
        exact .refl _
      exact .refl _
    clear_value v3
    refine .ite ?_ ?_
    · refine .trans (State.modCapture_keeps _ _ _) ?_
      assumption
    assumption
  exact .refl _

theorem execVsync_keeps (gen : Fin 2) (six : ℕ) (annot : Option (List Byte)) (header : List Byte) (image : List Byte) (missing : List (ℕ × ℕ)) (loops : List (ℕ × ℕ × ℕ × ℕ)) (ltrNs : ℕ) (s : State) :
    Res.keeps true true true true (execVsync gen six annot header image missing loops ltrNs s) s := by
  unfold execVsync
  extract_lets +onlyGivenNames v1
  clear_value v1
  extract_lets +onlyGivenNames v2
  have h2 : Keeps true true true true v2 s := by
    unfold v2
    refine .trans (State.advanceTo_keeps _ _) ?_
    exact .refl _
  clear_value v2
  refine Res.keeps_ite ?_ ?_
  · refine Res.keeps_next ?_
    assumption
  refine Res.keeps_ite ?_ ?_
  · refine Res.keeps_next ?_
    assumption
  extract_lets +onlyGivenNames v3
  clear_value v3
  extract_lets +onlyGivenNames v4
  clear_value v4
  extract_lets +onlyGivenNames v5
  have h5 : Keeps true true true true v5 s := by
    unfold v5
    refine .ite ?_ ?_
    · refine .trans (State.setErr_keeps _ _ _) ?_
      assumption
    assumption
  clear_value v5
  extract_lets +onlyGivenNames v6
  have h6 : Keeps true true true true v6 s := by
    unfold v6
    refine .trans (State.modScan_keeps _ _ _) ?_
    assumption
  clear_value v6
  extract_lets +onlyGivenNames v7
  have h7 : Keeps true true true true v7 s := by
    unfold v7
    refine .trans (State.endFrame_keeps _ _ _ _) ?_
    assumption
  clear_value v7
  extract_lets +onlyGivenNames v8
  have h8 : Keeps true true true true v8 s := by
    unfold v8
    refine .ite ?_ ?_
    · refine .trans (State.count_keeps _ _ _) ?_
      assumption
    assumption
  clear_value v8
  extract_lets +onlyGivenNames v9
  have h9 : Keeps true true true true v9 s := by
    unfold v9
    refine .ite ?_ ?_
    · beta_reduce
      refine .trans (State.modScan_keeps _ _ _) ?_
      refine .trans (State.each_keeps (m := true) (k := true) (r := true) (p := true) ?_) ?_
      · intro a10_0 a10_1
        refine .trans (State.setOut_keeps _ _ _) ?_
        exact .refl _
      assumption
    assumption
  clear_value v9
  extract_lets +onlyGivenNames v11
  have h11 : Keeps true true true true v11.1 s := by
    unfold v11
    refine .ite_fst ?_ ?_
    · refine .trans (State.applyDsp_keeps _) ?_
      assumption
    dsimp only
    assumption
  clear_value v11
  extract_lets +onlyGivenNames v12
  have h12 : Keeps true true true true v12 s := by
    unfold v12
    assumption
  clear_value v12
  extract_lets +onlyGivenNames v13
  have h13 : Keeps true true true true v13.1 s := by
    unfold v13
    refine .trans (State.latchBoth_keeps _ _) ?_
    assumption
  clear_value v13
  extract_lets +onlyGivenNames v14
  have h14 : Keeps true true true true v14 s := by
    unfold v14
    refine .ite ?_ ?_
    · refine .trans (State.scanLtr_keeps _ _ _) ?_
      assumption
    assumption
  clear_value v14
  extract_lets +onlyGivenNames v15
  clear_value v15
  extract_lets +onlyGivenNames v16
  clear_value v16
  extract_lets +onlyGivenNames v17
  clear_value v17
  extract_lets +onlyGivenNames v18
  have h18 : Keeps true true true true v18 s := by
    unfold v18
    refine .ite ?_ ?_
    · refine .trans (State.modScan_keeps _ _ _) ?_
      assumption
    assumption
  clear_value v18
  extract_lets +onlyGivenNames v19
  have h19 : Keeps true true true true v19 s := by
    unfold v19
    refine .trans (State.modScan_keeps _ _ _) ?_
    assumption
  clear_value v19
  refine Res.keeps_ite ?_ ?_
  · refine Res.keeps_next ?_
    assumption
  extract_lets +onlyGivenNames v20
  have h20 : Keeps true true true true v20 s := by
    unfold v20
    refine .trans (State.irqBit_keeps _ _ _) ?_
    refine .trans (State.setSix3_keeps _ _ _ _) ?_
    assumption
  clear_value v20
  extract_lets +onlyGivenNames v21
  have h21 : Keeps true true true true v21 s := by
    unfold v21
    refine .trans (State.vsyncBoundaries_keeps _) ?_
    assumption
  clear_value v21
  extract_lets +onlyGivenNames v22
  clear_value v22
  extract_lets +onlyGivenNames v23
  have h23 : Keeps true true true true v23 s := by
    unfold v23
    refine .trans (State.modScan_keeps _ _ _) ?_
    assumption
  clear_value v23
  extract_lets +onlyGivenNames v24
  clear_value v24
  refine Res.keeps_ite ?_ ?_
  · refine Res.keeps_next ?_
    refine .trans (State.count_keeps _ _ _) ?_
    refine .trans (State.each_keeps (m := true) (k := true) (r := true) (p := true) ?_) ?_
    · intro a25_0 a25_1
      refine .trans (State.setOut_keeps _ _ _) ?_
      exact .refl _
    assumption
  refine Res.keeps_ite ?_ ?_
  · refine Res.keeps_next ?_
    refine .trans (State.each_keeps (m := true) (k := true) (r := true) (p := true) ?_) ?_
    · intro a26_0 a26_1
      refine .trans (State.setOut_keeps _ _ _) ?_
      exact .refl _
    assumption
  refine Res.keeps_next ?_
  assumption

theorem State.srAll_keeps (s : State) :
    Keeps true true true true (State.srAll s) s := by
  unfold State.srAll
  refine .trans (foldl_keeps (m := true) (k := true) (r := true) (p := true) ?_) ?_
  · intro a1_0 a1_1
    refine .trans (State.srUpdate_keeps _ _) ?_
    exact .refl _
  exact .refl _

theorem State.sendMsg_keeps (s : State) (r : ℕ) (dst : ℕ) (source : ℕ) (code : ℕ) (arg0 : ℕ) (line : List Byte) :
    Keeps true true true true (State.sendMsg s r dst source code arg0 line) s := by
  unfold State.sendMsg
  split
  · refine .trans (State.enqueue_keeps _ _ _) ?_
    exact .refl _
  · exact .refl _

theorem execBoardReset_keeps (s : State) :
    Res.keeps false true false false (execBoardReset s) s := by
  unfold execBoardReset
  extract_lets +onlyGivenNames v1
  have h1 : Keeps false true false false v1 s := by
    unfold v1
    refine .trans (State.modPower_keeps _ _) ?_
    exact .refl _
  clear_value v1
  refine Res.keeps_ite ?_ ?_
  · refine Res.keeps_next ?_
    assumption
  extract_lets +onlyGivenNames v2
  clear_value v2
  refine Res.keeps_next ?_
  refine .trans (State.wb_keeps _ _ _ _) ?_
  refine .trans (State.coldStart_keeps _ _) ?_
  refine .trans (State.setPhase_keeps _ _) ?_
  assumption

theorem execDebugOpen_keeps (who : Issuer) (tag : ℕ) (lost : Bool) (s : State) :
    Res.keeps false false false false (execDebugOpen who tag lost s) s := by
  unfold execDebugOpen
  refine Res.keeps_next ?_
  refine .trans (State.command_keeps (m := false) (k := false) (r := false) (p := false) ?_) ?_
  · intro a1_0
    refine .ite ?_ ?_
    · refine .trans (State.rejectOp_keeps _ _ _ _ _) ?_
      exact .refl _
    refine .ite ?_ ?_
    · refine .trans (State.goOff_keeps _) ?_
      refine .trans (State.modPower_keeps _ _) ?_
      refine .trans (State.accept_keeps _ _ _) ?_
      exact .refl _
    refine .trans (State.doneWith_keeps _ _ _) ?_
    refine .trans (State.openDebug_keeps _) ?_
    refine .trans (State.accept_keeps _ _ _) ?_
    exact .refl _
  exact .refl _

theorem execModuleReset_keeps (who : Issuer) (tag : ℕ) (s : State) :
    Res.keeps false true false false (execModuleReset who tag s) s := by
  unfold execModuleReset
  refine Res.keeps_next ?_
  refine .trans (State.command_keeps (m := false) (k := true) (r := false) (p := false) ?_) ?_
  · intro a1_0
    refine .ite ?_ ?_
    · refine .trans (State.rejectOp_keeps _ _ _ _ _) ?_
      exact .refl _
    refine .ite ?_ ?_
    · refine .trans (State.rejectOp_keeps _ _ _ _ _) ?_
      exact .refl _
    refine .trans (State.doneOp_keeps _ _) ?_
    refine .trans (State.moduleReset_keeps _) ?_
    refine .trans (State.accept_keeps _ _ _) ?_
    exact .refl _
  exact .refl _

theorem execVinStart_keeps (s : State) :
    Res.keeps false true false false (execVinStart s) s := by
  unfold execVinStart
  refine Res.keeps_next ?_
  refine .ite ?_ ?_
  · refine .trans (State.coldStart_keeps _ _) ?_
    refine .trans (State.setPhase_keeps _ _) ?_
    exact .refl _
  exact .refl _

end Sys2Proof.Machine
end

