-- ==== Sys2Proof/Laws/State.lean ====
section
/-! SUPPORT. What the named updates of the state leave alone, field by field, and what they read back. -/

namespace Sys2Proof.Machine

/-! ### State.setPage changes pages alone. -/

@[simp] theorem State.setPage_pending (s : State) (key : Nat) (p : Page) : (s.setPage key p).pending = s.pending := rfl
@[simp] theorem State.setPage_out (s : State) (key : Nat) (p : Page) : (s.setPage key p).out = s.out := rfl
@[simp] theorem State.setPage_freeCtr (s : State) (key : Nat) (p : Page) : (s.setPage key p).freeCtr = s.freeCtr := rfl
@[simp] theorem State.setPage_six (s : State) (key : Nat) (p : Page) : (s.setPage key p).six = s.six := rfl
@[simp] theorem State.setPage_guest (s : State) (key : Nat) (p : Page) : (s.setPage key p).guest = s.guest := rfl
@[simp] theorem State.setPage_slots (s : State) (key : Nat) (p : Page) : (s.setPage key p).slots = s.slots := rfl
@[simp] theorem State.setPage_log (s : State) (key : Nat) (p : Page) : (s.setPage key p).log = s.log := rfl
@[simp] theorem State.setPage_flashLog (s : State) (key : Nat) (p : Page) : (s.setPage key p).flashLog = s.flashLog := rfl
@[simp] theorem State.setPage_held (s : State) (key : Nat) (p : Page) : (s.setPage key p).held = s.held := rfl
@[simp] theorem State.setPage_msixTable (s : State) (key : Nat) (p : Page) : (s.setPage key p).msixTable = s.msixTable := rfl
@[simp] theorem State.setPage_msixPend (s : State) (key : Nat) (p : Page) : (s.setPage key p).msixPend = s.msixPend := rfl
@[simp] theorem State.setPage_routes (s : State) (key : Nat) (p : Page) : (s.setPage key p).routes = s.routes := rfl
@[simp] theorem State.setPage_keyStore (s : State) (key : Nat) (p : Page) : (s.setPage key p).keyStore = s.keyStore := rfl
@[simp] theorem State.setPage_win (s : State) (key : Nat) (p : Page) : (s.setPage key p).win = s.win := rfl
@[simp] theorem State.setPage_parkedPend (s : State) (key : Nat) (p : Page) : (s.setPage key p).parkedPend = s.parkedPend := rfl
@[simp] theorem State.setPage_tb (s : State) (key : Nat) (p : Page) : (s.setPage key p).tb = s.tb := rfl
@[simp] theorem State.setPage_tdc (s : State) (key : Nat) (p : Page) : (s.setPage key p).tdc = s.tdc := rfl
@[simp] theorem State.setPage_convs (s : State) (key : Nat) (p : Page) : (s.setPage key p).convs = s.convs := rfl
@[simp] theorem State.setPage_rot (s : State) (key : Nat) (p : Page) : (s.setPage key p).rot = s.rot := rfl
@[simp] theorem State.setPage_carriers (s : State) (key : Nat) (p : Page) : (s.setPage key p).carriers = s.carriers := rfl
@[simp] theorem State.setPage_staleIn (s : State) (key : Nat) (p : Page) : (s.setPage key p).staleIn = s.staleIn := rfl
@[simp] theorem State.setPage_pend (s : State) (key : Nat) (p : Page) : (s.setPage key p).pend = s.pend := rfl
@[simp] theorem State.setPage_chains (s : State) (key : Nat) (p : Page) : (s.setPage key p).chains = s.chains := rfl
@[simp] theorem State.setPage_insets (s : State) (key : Nat) (p : Page) : (s.setPage key p).insets = s.insets := rfl
@[simp] theorem State.setPage_engines (s : State) (key : Nat) (p : Page) : (s.setPage key p).engines = s.engines := rfl
@[simp] theorem State.setPage_grats (s : State) (key : Nat) (p : Page) : (s.setPage key p).grats = s.grats := rfl
@[simp] theorem State.setPage_trigs (s : State) (key : Nat) (p : Page) : (s.setPage key p).trigs = s.trigs := rfl
@[simp] theorem State.setPage_trigOuts (s : State) (key : Nat) (p : Page) : (s.setPage key p).trigOuts = s.trigOuts := rfl
@[simp] theorem State.setPage_caps (s : State) (key : Nat) (p : Page) : (s.setPage key p).caps = s.caps := rfl
@[simp] theorem State.setPage_mem (s : State) (key : Nat) (p : Page) : (s.setPage key p).mem = s.mem := rfl
@[simp] theorem State.setPage_poison (s : State) (key : Nat) (p : Page) : (s.setPage key p).poison = s.poison := rfl
@[simp] theorem State.setPage_poisonFill (s : State) (key : Nat) (p : Page) : (s.setPage key p).poisonFill = s.poisonFill := rfl
@[simp] theorem State.setPage_readyRecs (s : State) (key : Nat) (p : Page) : (s.setPage key p).readyRecs = s.readyRecs := rfl
@[simp] theorem State.setPage_phn (s : State) (key : Nat) (p : Page) : (s.setPage key p).phn = s.phn := rfl
@[simp] theorem State.setPage_svy (s : State) (key : Nat) (p : Page) : (s.setPage key p).svy = s.svy := rfl
@[simp] theorem State.setPage_hbms (s : State) (key : Nat) (p : Page) : (s.setPage key p).hbms = s.hbms := rfl
@[simp] theorem State.setPage_links (s : State) (key : Nat) (p : Page) : (s.setPage key p).links = s.links := rfl
@[simp] theorem State.setPage_hostReads (s : State) (key : Nat) (p : Page) : (s.setPage key p).hostReads = s.hostReads := rfl
@[simp] theorem State.setPage_channels (s : State) (key : Nat) (p : Page) : (s.setPage key p).channels = s.channels := rfl
@[simp] theorem State.setPage_groupLast (s : State) (key : Nat) (p : Page) : (s.setPage key p).groupLast = s.groupLast := rfl
@[simp] theorem State.setPage_rings (s : State) (key : Nat) (p : Page) : (s.setPage key p).rings = s.rings := rfl
@[simp] theorem State.setPage_streams (s : State) (key : Nat) (p : Page) : (s.setPage key p).streams = s.streams := rfl
@[simp] theorem State.setPage_sentLog (s : State) (key : Nat) (p : Page) : (s.setPage key p).sentLog = s.sentLog := rfl
@[simp] theorem State.setPage_drives (s : State) (key : Nat) (p : Page) : (s.setPage key p).drives = s.drives := rfl
@[simp] theorem State.setPage_writes (s : State) (key : Nat) (p : Page) : (s.setPage key p).writes = s.writes := rfl
@[simp] theorem State.setPage_playbacks (s : State) (key : Nat) (p : Page) : (s.setPage key p).playbacks = s.playbacks := rfl
@[simp] theorem State.setPage_perst (s : State) (key : Nat) (p : Page) : (s.setPage key p).perst = s.perst := rfl
@[simp] theorem State.setPage_peBad (s : State) (key : Nat) (p : Page) : (s.setPage key p).peBad = s.peBad := rfl
@[simp] theorem State.setPage_ethBad (s : State) (key : Nat) (p : Page) : (s.setPage key p).ethBad = s.ethBad := rfl
@[simp] theorem State.setPage_pcieCfg (s : State) (key : Nat) (p : Page) : (s.setPage key p).pcieCfg = s.pcieCfg := rfl
@[simp] theorem State.setPage_crcs (s : State) (key : Nat) (p : Page) : (s.setPage key p).crcs = s.crcs := rfl
@[simp] theorem State.setPage_cmps (s : State) (key : Nat) (p : Page) : (s.setPage key p).cmps = s.cmps := rfl
@[simp] theorem State.setPage_cores (s : State) (key : Nat) (p : Page) : (s.setPage key p).cores = s.cores := rfl
@[simp] theorem State.setPage_measures (s : State) (key : Nat) (p : Page) : (s.setPage key p).measures = s.measures := rfl
@[simp] theorem State.setPage_scan (s : State) (key : Nat) (p : Page) : (s.setPage key p).scan = s.scan := rfl
@[simp] theorem State.setPage_passed (s : State) (key : Nat) (p : Page) : (s.setPage key p).passed = s.passed := rfl
@[simp] theorem State.setPage_genlock (s : State) (key : Nat) (p : Page) : (s.setPage key p).genlock = s.genlock := rfl
@[simp] theorem State.setPage_retiring (s : State) (key : Nat) (p : Page) : (s.setPage key p).retiring = s.retiring := rfl
@[simp] theorem State.setPage_annotUse (s : State) (key : Nat) (p : Page) : (s.setPage key p).annotUse = s.annotUse := rfl
@[simp] theorem State.setPage_sinks (s : State) (key : Nat) (p : Page) : (s.setPage key p).sinks = s.sinks := rfl
@[simp] theorem State.setPage_checkLog (s : State) (key : Nat) (p : Page) : (s.setPage key p).checkLog = s.checkLog := rfl
@[simp] theorem State.setPage_power (s : State) (key : Nat) (p : Page) : (s.setPage key p).power = s.power := rfl
@[simp] theorem State.setPage_guestWin (s : State) (key : Nat) (p : Page) : (s.setPage key p).guestWin = s.guestWin := rfl
@[simp] theorem State.setPage_safeReq (s : State) (key : Nat) (p : Page) : (s.setPage key p).safeReq = s.safeReq := rfl
@[simp] theorem State.setPage_pcieUp (s : State) (key : Nat) (p : Page) : (s.setPage key p).pcieUp = s.pcieUp := rfl
@[simp] theorem State.setPage_pcieD3 (s : State) (key : Nat) (p : Page) : (s.setPage key p).pcieD3 = s.pcieD3 := rfl

/-! ### State.modPage changes pages alone. -/

@[simp] theorem State.modPage_pending (s : State) (key : Nat) (f : Page → Page) : (s.modPage key f).pending = s.pending := rfl
@[simp] theorem State.modPage_out (s : State) (key : Nat) (f : Page → Page) : (s.modPage key f).out = s.out := rfl
@[simp] theorem State.modPage_freeCtr (s : State) (key : Nat) (f : Page → Page) : (s.modPage key f).freeCtr = s.freeCtr := rfl
@[simp] theorem State.modPage_six (s : State) (key : Nat) (f : Page → Page) : (s.modPage key f).six = s.six := rfl
@[simp] theorem State.modPage_guest (s : State) (key : Nat) (f : Page → Page) : (s.modPage key f).guest = s.guest := rfl
@[simp] theorem State.modPage_slots (s : State) (key : Nat) (f : Page → Page) : (s.modPage key f).slots = s.slots := rfl
@[simp] theorem State.modPage_log (s : State) (key : Nat) (f : Page → Page) : (s.modPage key f).log = s.log := rfl
@[simp] theorem State.modPage_flashLog (s : State) (key : Nat) (f : Page → Page) : (s.modPage key f).flashLog = s.flashLog := rfl
@[simp] theorem State.modPage_held (s : State) (key : Nat) (f : Page → Page) : (s.modPage key f).held = s.held := rfl
@[simp] theorem State.modPage_msixTable (s : State) (key : Nat) (f : Page → Page) : (s.modPage key f).msixTable = s.msixTable := rfl
@[simp] theorem State.modPage_msixPend (s : State) (key : Nat) (f : Page → Page) : (s.modPage key f).msixPend = s.msixPend := rfl
@[simp] theorem State.modPage_routes (s : State) (key : Nat) (f : Page → Page) : (s.modPage key f).routes = s.routes := rfl
@[simp] theorem State.modPage_keyStore (s : State) (key : Nat) (f : Page → Page) : (s.modPage key f).keyStore = s.keyStore := rfl
@[simp] theorem State.modPage_win (s : State) (key : Nat) (f : Page → Page) : (s.modPage key f).win = s.win := rfl
@[simp] theorem State.modPage_parkedPend (s : State) (key : Nat) (f : Page → Page) : (s.modPage key f).parkedPend = s.parkedPend := rfl
@[simp] theorem State.modPage_tb (s : State) (key : Nat) (f : Page → Page) : (s.modPage key f).tb = s.tb := rfl
@[simp] theorem State.modPage_tdc (s : State) (key : Nat) (f : Page → Page) : (s.modPage key f).tdc = s.tdc := rfl
@[simp] theorem State.modPage_convs (s : State) (key : Nat) (f : Page → Page) : (s.modPage key f).convs = s.convs := rfl
@[simp] theorem State.modPage_rot (s : State) (key : Nat) (f : Page → Page) : (s.modPage key f).rot = s.rot := rfl
@[simp] theorem State.modPage_carriers (s : State) (key : Nat) (f : Page → Page) : (s.modPage key f).carriers = s.carriers := rfl
@[simp] theorem State.modPage_staleIn (s : State) (key : Nat) (f : Page → Page) : (s.modPage key f).staleIn = s.staleIn := rfl
@[simp] theorem State.modPage_pend (s : State) (key : Nat) (f : Page → Page) : (s.modPage key f).pend = s.pend := rfl
@[simp] theorem State.modPage_chains (s : State) (key : Nat) (f : Page → Page) : (s.modPage key f).chains = s.chains := rfl
@[simp] theorem State.modPage_insets (s : State) (key : Nat) (f : Page → Page) : (s.modPage key f).insets = s.insets := rfl
@[simp] theorem State.modPage_engines (s : State) (key : Nat) (f : Page → Page) : (s.modPage key f).engines = s.engines := rfl
@[simp] theorem State.modPage_grats (s : State) (key : Nat) (f : Page → Page) : (s.modPage key f).grats = s.grats := rfl
@[simp] theorem State.modPage_trigs (s : State) (key : Nat) (f : Page → Page) : (s.modPage key f).trigs = s.trigs := rfl
@[simp] theorem State.modPage_trigOuts (s : State) (key : Nat) (f : Page → Page) : (s.modPage key f).trigOuts = s.trigOuts := rfl
@[simp] theorem State.modPage_caps (s : State) (key : Nat) (f : Page → Page) : (s.modPage key f).caps = s.caps := rfl
@[simp] theorem State.modPage_mem (s : State) (key : Nat) (f : Page → Page) : (s.modPage key f).mem = s.mem := rfl
@[simp] theorem State.modPage_poison (s : State) (key : Nat) (f : Page → Page) : (s.modPage key f).poison = s.poison := rfl
@[simp] theorem State.modPage_poisonFill (s : State) (key : Nat) (f : Page → Page) : (s.modPage key f).poisonFill = s.poisonFill := rfl
@[simp] theorem State.modPage_readyRecs (s : State) (key : Nat) (f : Page → Page) : (s.modPage key f).readyRecs = s.readyRecs := rfl
@[simp] theorem State.modPage_phn (s : State) (key : Nat) (f : Page → Page) : (s.modPage key f).phn = s.phn := rfl
@[simp] theorem State.modPage_svy (s : State) (key : Nat) (f : Page → Page) : (s.modPage key f).svy = s.svy := rfl
@[simp] theorem State.modPage_hbms (s : State) (key : Nat) (f : Page → Page) : (s.modPage key f).hbms = s.hbms := rfl
@[simp] theorem State.modPage_links (s : State) (key : Nat) (f : Page → Page) : (s.modPage key f).links = s.links := rfl
@[simp] theorem State.modPage_hostReads (s : State) (key : Nat) (f : Page → Page) : (s.modPage key f).hostReads = s.hostReads := rfl
@[simp] theorem State.modPage_channels (s : State) (key : Nat) (f : Page → Page) : (s.modPage key f).channels = s.channels := rfl
@[simp] theorem State.modPage_groupLast (s : State) (key : Nat) (f : Page → Page) : (s.modPage key f).groupLast = s.groupLast := rfl
@[simp] theorem State.modPage_rings (s : State) (key : Nat) (f : Page → Page) : (s.modPage key f).rings = s.rings := rfl
@[simp] theorem State.modPage_streams (s : State) (key : Nat) (f : Page → Page) : (s.modPage key f).streams = s.streams := rfl
@[simp] theorem State.modPage_sentLog (s : State) (key : Nat) (f : Page → Page) : (s.modPage key f).sentLog = s.sentLog := rfl
@[simp] theorem State.modPage_drives (s : State) (key : Nat) (f : Page → Page) : (s.modPage key f).drives = s.drives := rfl
@[simp] theorem State.modPage_writes (s : State) (key : Nat) (f : Page → Page) : (s.modPage key f).writes = s.writes := rfl
@[simp] theorem State.modPage_playbacks (s : State) (key : Nat) (f : Page → Page) : (s.modPage key f).playbacks = s.playbacks := rfl
@[simp] theorem State.modPage_perst (s : State) (key : Nat) (f : Page → Page) : (s.modPage key f).perst = s.perst := rfl
@[simp] theorem State.modPage_peBad (s : State) (key : Nat) (f : Page → Page) : (s.modPage key f).peBad = s.peBad := rfl
@[simp] theorem State.modPage_ethBad (s : State) (key : Nat) (f : Page → Page) : (s.modPage key f).ethBad = s.ethBad := rfl
@[simp] theorem State.modPage_pcieCfg (s : State) (key : Nat) (f : Page → Page) : (s.modPage key f).pcieCfg = s.pcieCfg := rfl
@[simp] theorem State.modPage_crcs (s : State) (key : Nat) (f : Page → Page) : (s.modPage key f).crcs = s.crcs := rfl
@[simp] theorem State.modPage_cmps (s : State) (key : Nat) (f : Page → Page) : (s.modPage key f).cmps = s.cmps := rfl
@[simp] theorem State.modPage_cores (s : State) (key : Nat) (f : Page → Page) : (s.modPage key f).cores = s.cores := rfl
@[simp] theorem State.modPage_measures (s : State) (key : Nat) (f : Page → Page) : (s.modPage key f).measures = s.measures := rfl
@[simp] theorem State.modPage_scan (s : State) (key : Nat) (f : Page → Page) : (s.modPage key f).scan = s.scan := rfl
@[simp] theorem State.modPage_passed (s : State) (key : Nat) (f : Page → Page) : (s.modPage key f).passed = s.passed := rfl
@[simp] theorem State.modPage_genlock (s : State) (key : Nat) (f : Page → Page) : (s.modPage key f).genlock = s.genlock := rfl
@[simp] theorem State.modPage_retiring (s : State) (key : Nat) (f : Page → Page) : (s.modPage key f).retiring = s.retiring := rfl
@[simp] theorem State.modPage_annotUse (s : State) (key : Nat) (f : Page → Page) : (s.modPage key f).annotUse = s.annotUse := rfl
@[simp] theorem State.modPage_sinks (s : State) (key : Nat) (f : Page → Page) : (s.modPage key f).sinks = s.sinks := rfl
@[simp] theorem State.modPage_checkLog (s : State) (key : Nat) (f : Page → Page) : (s.modPage key f).checkLog = s.checkLog := rfl
@[simp] theorem State.modPage_power (s : State) (key : Nat) (f : Page → Page) : (s.modPage key f).power = s.power := rfl
@[simp] theorem State.modPage_guestWin (s : State) (key : Nat) (f : Page → Page) : (s.modPage key f).guestWin = s.guestWin := rfl
@[simp] theorem State.modPage_safeReq (s : State) (key : Nat) (f : Page → Page) : (s.modPage key f).safeReq = s.safeReq := rfl
@[simp] theorem State.modPage_pcieUp (s : State) (key : Nat) (f : Page → Page) : (s.modPage key f).pcieUp = s.pcieUp := rfl
@[simp] theorem State.modPage_pcieD3 (s : State) (key : Nat) (f : Page → Page) : (s.modPage key f).pcieD3 = s.pcieD3 := rfl

/-! ### State.setReg changes pages alone. -/

@[simp] theorem State.setReg_pending (s : State) (key off : Nat) (w : Word) : (s.setReg key off w).pending = s.pending := rfl
@[simp] theorem State.setReg_out (s : State) (key off : Nat) (w : Word) : (s.setReg key off w).out = s.out := rfl
@[simp] theorem State.setReg_freeCtr (s : State) (key off : Nat) (w : Word) : (s.setReg key off w).freeCtr = s.freeCtr := rfl
@[simp] theorem State.setReg_six (s : State) (key off : Nat) (w : Word) : (s.setReg key off w).six = s.six := rfl
@[simp] theorem State.setReg_guest (s : State) (key off : Nat) (w : Word) : (s.setReg key off w).guest = s.guest := rfl
@[simp] theorem State.setReg_slots (s : State) (key off : Nat) (w : Word) : (s.setReg key off w).slots = s.slots := rfl
@[simp] theorem State.setReg_log (s : State) (key off : Nat) (w : Word) : (s.setReg key off w).log = s.log := rfl
@[simp] theorem State.setReg_flashLog (s : State) (key off : Nat) (w : Word) : (s.setReg key off w).flashLog = s.flashLog := rfl
@[simp] theorem State.setReg_held (s : State) (key off : Nat) (w : Word) : (s.setReg key off w).held = s.held := rfl
@[simp] theorem State.setReg_msixTable (s : State) (key off : Nat) (w : Word) : (s.setReg key off w).msixTable = s.msixTable := rfl
@[simp] theorem State.setReg_msixPend (s : State) (key off : Nat) (w : Word) : (s.setReg key off w).msixPend = s.msixPend := rfl
@[simp] theorem State.setReg_routes (s : State) (key off : Nat) (w : Word) : (s.setReg key off w).routes = s.routes := rfl
@[simp] theorem State.setReg_keyStore (s : State) (key off : Nat) (w : Word) : (s.setReg key off w).keyStore = s.keyStore := rfl
@[simp] theorem State.setReg_win (s : State) (key off : Nat) (w : Word) : (s.setReg key off w).win = s.win := rfl
@[simp] theorem State.setReg_parkedPend (s : State) (key off : Nat) (w : Word) : (s.setReg key off w).parkedPend = s.parkedPend := rfl
@[simp] theorem State.setReg_tb (s : State) (key off : Nat) (w : Word) : (s.setReg key off w).tb = s.tb := rfl
@[simp] theorem State.setReg_tdc (s : State) (key off : Nat) (w : Word) : (s.setReg key off w).tdc = s.tdc := rfl
@[simp] theorem State.setReg_convs (s : State) (key off : Nat) (w : Word) : (s.setReg key off w).convs = s.convs := rfl
@[simp] theorem State.setReg_rot (s : State) (key off : Nat) (w : Word) : (s.setReg key off w).rot = s.rot := rfl
@[simp] theorem State.setReg_carriers (s : State) (key off : Nat) (w : Word) : (s.setReg key off w).carriers = s.carriers := rfl
@[simp] theorem State.setReg_staleIn (s : State) (key off : Nat) (w : Word) : (s.setReg key off w).staleIn = s.staleIn := rfl
@[simp] theorem State.setReg_pend (s : State) (key off : Nat) (w : Word) : (s.setReg key off w).pend = s.pend := rfl
@[simp] theorem State.setReg_chains (s : State) (key off : Nat) (w : Word) : (s.setReg key off w).chains = s.chains := rfl
@[simp] theorem State.setReg_insets (s : State) (key off : Nat) (w : Word) : (s.setReg key off w).insets = s.insets := rfl
@[simp] theorem State.setReg_engines (s : State) (key off : Nat) (w : Word) : (s.setReg key off w).engines = s.engines := rfl
@[simp] theorem State.setReg_grats (s : State) (key off : Nat) (w : Word) : (s.setReg key off w).grats = s.grats := rfl
@[simp] theorem State.setReg_trigs (s : State) (key off : Nat) (w : Word) : (s.setReg key off w).trigs = s.trigs := rfl
@[simp] theorem State.setReg_trigOuts (s : State) (key off : Nat) (w : Word) : (s.setReg key off w).trigOuts = s.trigOuts := rfl
@[simp] theorem State.setReg_caps (s : State) (key off : Nat) (w : Word) : (s.setReg key off w).caps = s.caps := rfl
@[simp] theorem State.setReg_mem (s : State) (key off : Nat) (w : Word) : (s.setReg key off w).mem = s.mem := rfl
@[simp] theorem State.setReg_poison (s : State) (key off : Nat) (w : Word) : (s.setReg key off w).poison = s.poison := rfl
@[simp] theorem State.setReg_poisonFill (s : State) (key off : Nat) (w : Word) : (s.setReg key off w).poisonFill = s.poisonFill := rfl
@[simp] theorem State.setReg_readyRecs (s : State) (key off : Nat) (w : Word) : (s.setReg key off w).readyRecs = s.readyRecs := rfl
@[simp] theorem State.setReg_phn (s : State) (key off : Nat) (w : Word) : (s.setReg key off w).phn = s.phn := rfl
@[simp] theorem State.setReg_svy (s : State) (key off : Nat) (w : Word) : (s.setReg key off w).svy = s.svy := rfl
@[simp] theorem State.setReg_hbms (s : State) (key off : Nat) (w : Word) : (s.setReg key off w).hbms = s.hbms := rfl
@[simp] theorem State.setReg_links (s : State) (key off : Nat) (w : Word) : (s.setReg key off w).links = s.links := rfl
@[simp] theorem State.setReg_hostReads (s : State) (key off : Nat) (w : Word) : (s.setReg key off w).hostReads = s.hostReads := rfl
@[simp] theorem State.setReg_channels (s : State) (key off : Nat) (w : Word) : (s.setReg key off w).channels = s.channels := rfl
@[simp] theorem State.setReg_groupLast (s : State) (key off : Nat) (w : Word) : (s.setReg key off w).groupLast = s.groupLast := rfl
@[simp] theorem State.setReg_rings (s : State) (key off : Nat) (w : Word) : (s.setReg key off w).rings = s.rings := rfl
@[simp] theorem State.setReg_streams (s : State) (key off : Nat) (w : Word) : (s.setReg key off w).streams = s.streams := rfl
@[simp] theorem State.setReg_sentLog (s : State) (key off : Nat) (w : Word) : (s.setReg key off w).sentLog = s.sentLog := rfl
@[simp] theorem State.setReg_drives (s : State) (key off : Nat) (w : Word) : (s.setReg key off w).drives = s.drives := rfl
@[simp] theorem State.setReg_writes (s : State) (key off : Nat) (w : Word) : (s.setReg key off w).writes = s.writes := rfl
@[simp] theorem State.setReg_playbacks (s : State) (key off : Nat) (w : Word) : (s.setReg key off w).playbacks = s.playbacks := rfl
@[simp] theorem State.setReg_perst (s : State) (key off : Nat) (w : Word) : (s.setReg key off w).perst = s.perst := rfl
@[simp] theorem State.setReg_peBad (s : State) (key off : Nat) (w : Word) : (s.setReg key off w).peBad = s.peBad := rfl
@[simp] theorem State.setReg_ethBad (s : State) (key off : Nat) (w : Word) : (s.setReg key off w).ethBad = s.ethBad := rfl
@[simp] theorem State.setReg_pcieCfg (s : State) (key off : Nat) (w : Word) : (s.setReg key off w).pcieCfg = s.pcieCfg := rfl
@[simp] theorem State.setReg_crcs (s : State) (key off : Nat) (w : Word) : (s.setReg key off w).crcs = s.crcs := rfl
@[simp] theorem State.setReg_cmps (s : State) (key off : Nat) (w : Word) : (s.setReg key off w).cmps = s.cmps := rfl
@[simp] theorem State.setReg_cores (s : State) (key off : Nat) (w : Word) : (s.setReg key off w).cores = s.cores := rfl
@[simp] theorem State.setReg_measures (s : State) (key off : Nat) (w : Word) : (s.setReg key off w).measures = s.measures := rfl
@[simp] theorem State.setReg_scan (s : State) (key off : Nat) (w : Word) : (s.setReg key off w).scan = s.scan := rfl
@[simp] theorem State.setReg_passed (s : State) (key off : Nat) (w : Word) : (s.setReg key off w).passed = s.passed := rfl
@[simp] theorem State.setReg_genlock (s : State) (key off : Nat) (w : Word) : (s.setReg key off w).genlock = s.genlock := rfl
@[simp] theorem State.setReg_retiring (s : State) (key off : Nat) (w : Word) : (s.setReg key off w).retiring = s.retiring := rfl
@[simp] theorem State.setReg_annotUse (s : State) (key off : Nat) (w : Word) : (s.setReg key off w).annotUse = s.annotUse := rfl
@[simp] theorem State.setReg_sinks (s : State) (key off : Nat) (w : Word) : (s.setReg key off w).sinks = s.sinks := rfl
@[simp] theorem State.setReg_checkLog (s : State) (key off : Nat) (w : Word) : (s.setReg key off w).checkLog = s.checkLog := rfl
@[simp] theorem State.setReg_power (s : State) (key off : Nat) (w : Word) : (s.setReg key off w).power = s.power := rfl
@[simp] theorem State.setReg_guestWin (s : State) (key off : Nat) (w : Word) : (s.setReg key off w).guestWin = s.guestWin := rfl
@[simp] theorem State.setReg_safeReq (s : State) (key off : Nat) (w : Word) : (s.setReg key off w).safeReq = s.safeReq := rfl
@[simp] theorem State.setReg_pcieUp (s : State) (key off : Nat) (w : Word) : (s.setReg key off w).pcieUp = s.pcieUp := rfl
@[simp] theorem State.setReg_pcieD3 (s : State) (key off : Nat) (w : Word) : (s.setReg key off w).pcieD3 = s.pcieD3 := rfl

/-! ### State.wf changes pages alone. -/

@[simp] theorem State.wf_pending (s : State) (key : Nat) (f : RegField) (v : Nat) : (s.wf key f v).pending = s.pending := rfl
@[simp] theorem State.wf_out (s : State) (key : Nat) (f : RegField) (v : Nat) : (s.wf key f v).out = s.out := rfl
@[simp] theorem State.wf_freeCtr (s : State) (key : Nat) (f : RegField) (v : Nat) : (s.wf key f v).freeCtr = s.freeCtr := rfl
@[simp] theorem State.wf_six (s : State) (key : Nat) (f : RegField) (v : Nat) : (s.wf key f v).six = s.six := rfl
@[simp] theorem State.wf_guest (s : State) (key : Nat) (f : RegField) (v : Nat) : (s.wf key f v).guest = s.guest := rfl
@[simp] theorem State.wf_slots (s : State) (key : Nat) (f : RegField) (v : Nat) : (s.wf key f v).slots = s.slots := rfl
@[simp] theorem State.wf_log (s : State) (key : Nat) (f : RegField) (v : Nat) : (s.wf key f v).log = s.log := rfl
@[simp] theorem State.wf_flashLog (s : State) (key : Nat) (f : RegField) (v : Nat) : (s.wf key f v).flashLog = s.flashLog := rfl
@[simp] theorem State.wf_held (s : State) (key : Nat) (f : RegField) (v : Nat) : (s.wf key f v).held = s.held := rfl
@[simp] theorem State.wf_msixTable (s : State) (key : Nat) (f : RegField) (v : Nat) : (s.wf key f v).msixTable = s.msixTable := rfl
@[simp] theorem State.wf_msixPend (s : State) (key : Nat) (f : RegField) (v : Nat) : (s.wf key f v).msixPend = s.msixPend := rfl
@[simp] theorem State.wf_routes (s : State) (key : Nat) (f : RegField) (v : Nat) : (s.wf key f v).routes = s.routes := rfl
@[simp] theorem State.wf_keyStore (s : State) (key : Nat) (f : RegField) (v : Nat) : (s.wf key f v).keyStore = s.keyStore := rfl
@[simp] theorem State.wf_win (s : State) (key : Nat) (f : RegField) (v : Nat) : (s.wf key f v).win = s.win := rfl
@[simp] theorem State.wf_parkedPend (s : State) (key : Nat) (f : RegField) (v : Nat) : (s.wf key f v).parkedPend = s.parkedPend := rfl
@[simp] theorem State.wf_tb (s : State) (key : Nat) (f : RegField) (v : Nat) : (s.wf key f v).tb = s.tb := rfl
@[simp] theorem State.wf_tdc (s : State) (key : Nat) (f : RegField) (v : Nat) : (s.wf key f v).tdc = s.tdc := rfl
@[simp] theorem State.wf_convs (s : State) (key : Nat) (f : RegField) (v : Nat) : (s.wf key f v).convs = s.convs := rfl
@[simp] theorem State.wf_rot (s : State) (key : Nat) (f : RegField) (v : Nat) : (s.wf key f v).rot = s.rot := rfl
@[simp] theorem State.wf_carriers (s : State) (key : Nat) (f : RegField) (v : Nat) : (s.wf key f v).carriers = s.carriers := rfl
@[simp] theorem State.wf_staleIn (s : State) (key : Nat) (f : RegField) (v : Nat) : (s.wf key f v).staleIn = s.staleIn := rfl
@[simp] theorem State.wf_pend (s : State) (key : Nat) (f : RegField) (v : Nat) : (s.wf key f v).pend = s.pend := rfl
@[simp] theorem State.wf_chains (s : State) (key : Nat) (f : RegField) (v : Nat) : (s.wf key f v).chains = s.chains := rfl
@[simp] theorem State.wf_insets (s : State) (key : Nat) (f : RegField) (v : Nat) : (s.wf key f v).insets = s.insets := rfl
@[simp] theorem State.wf_engines (s : State) (key : Nat) (f : RegField) (v : Nat) : (s.wf key f v).engines = s.engines := rfl
@[simp] theorem State.wf_grats (s : State) (key : Nat) (f : RegField) (v : Nat) : (s.wf key f v).grats = s.grats := rfl
@[simp] theorem State.wf_trigs (s : State) (key : Nat) (f : RegField) (v : Nat) : (s.wf key f v).trigs = s.trigs := rfl
@[simp] theorem State.wf_trigOuts (s : State) (key : Nat) (f : RegField) (v : Nat) : (s.wf key f v).trigOuts = s.trigOuts := rfl
@[simp] theorem State.wf_caps (s : State) (key : Nat) (f : RegField) (v : Nat) : (s.wf key f v).caps = s.caps := rfl
@[simp] theorem State.wf_mem (s : State) (key : Nat) (f : RegField) (v : Nat) : (s.wf key f v).mem = s.mem := rfl
@[simp] theorem State.wf_poison (s : State) (key : Nat) (f : RegField) (v : Nat) : (s.wf key f v).poison = s.poison := rfl
@[simp] theorem State.wf_poisonFill (s : State) (key : Nat) (f : RegField) (v : Nat) : (s.wf key f v).poisonFill = s.poisonFill := rfl
@[simp] theorem State.wf_readyRecs (s : State) (key : Nat) (f : RegField) (v : Nat) : (s.wf key f v).readyRecs = s.readyRecs := rfl
@[simp] theorem State.wf_phn (s : State) (key : Nat) (f : RegField) (v : Nat) : (s.wf key f v).phn = s.phn := rfl
@[simp] theorem State.wf_svy (s : State) (key : Nat) (f : RegField) (v : Nat) : (s.wf key f v).svy = s.svy := rfl
@[simp] theorem State.wf_hbms (s : State) (key : Nat) (f : RegField) (v : Nat) : (s.wf key f v).hbms = s.hbms := rfl
@[simp] theorem State.wf_links (s : State) (key : Nat) (f : RegField) (v : Nat) : (s.wf key f v).links = s.links := rfl
@[simp] theorem State.wf_hostReads (s : State) (key : Nat) (f : RegField) (v : Nat) : (s.wf key f v).hostReads = s.hostReads := rfl
@[simp] theorem State.wf_channels (s : State) (key : Nat) (f : RegField) (v : Nat) : (s.wf key f v).channels = s.channels := rfl
@[simp] theorem State.wf_groupLast (s : State) (key : Nat) (f : RegField) (v : Nat) : (s.wf key f v).groupLast = s.groupLast := rfl
@[simp] theorem State.wf_rings (s : State) (key : Nat) (f : RegField) (v : Nat) : (s.wf key f v).rings = s.rings := rfl
@[simp] theorem State.wf_streams (s : State) (key : Nat) (f : RegField) (v : Nat) : (s.wf key f v).streams = s.streams := rfl
@[simp] theorem State.wf_sentLog (s : State) (key : Nat) (f : RegField) (v : Nat) : (s.wf key f v).sentLog = s.sentLog := rfl
@[simp] theorem State.wf_drives (s : State) (key : Nat) (f : RegField) (v : Nat) : (s.wf key f v).drives = s.drives := rfl
@[simp] theorem State.wf_writes (s : State) (key : Nat) (f : RegField) (v : Nat) : (s.wf key f v).writes = s.writes := rfl
@[simp] theorem State.wf_playbacks (s : State) (key : Nat) (f : RegField) (v : Nat) : (s.wf key f v).playbacks = s.playbacks := rfl
@[simp] theorem State.wf_perst (s : State) (key : Nat) (f : RegField) (v : Nat) : (s.wf key f v).perst = s.perst := rfl
@[simp] theorem State.wf_peBad (s : State) (key : Nat) (f : RegField) (v : Nat) : (s.wf key f v).peBad = s.peBad := rfl
@[simp] theorem State.wf_ethBad (s : State) (key : Nat) (f : RegField) (v : Nat) : (s.wf key f v).ethBad = s.ethBad := rfl
@[simp] theorem State.wf_pcieCfg (s : State) (key : Nat) (f : RegField) (v : Nat) : (s.wf key f v).pcieCfg = s.pcieCfg := rfl
@[simp] theorem State.wf_crcs (s : State) (key : Nat) (f : RegField) (v : Nat) : (s.wf key f v).crcs = s.crcs := rfl
@[simp] theorem State.wf_cmps (s : State) (key : Nat) (f : RegField) (v : Nat) : (s.wf key f v).cmps = s.cmps := rfl
@[simp] theorem State.wf_cores (s : State) (key : Nat) (f : RegField) (v : Nat) : (s.wf key f v).cores = s.cores := rfl
@[simp] theorem State.wf_measures (s : State) (key : Nat) (f : RegField) (v : Nat) : (s.wf key f v).measures = s.measures := rfl
@[simp] theorem State.wf_scan (s : State) (key : Nat) (f : RegField) (v : Nat) : (s.wf key f v).scan = s.scan := rfl
@[simp] theorem State.wf_passed (s : State) (key : Nat) (f : RegField) (v : Nat) : (s.wf key f v).passed = s.passed := rfl
@[simp] theorem State.wf_genlock (s : State) (key : Nat) (f : RegField) (v : Nat) : (s.wf key f v).genlock = s.genlock := rfl
@[simp] theorem State.wf_retiring (s : State) (key : Nat) (f : RegField) (v : Nat) : (s.wf key f v).retiring = s.retiring := rfl
@[simp] theorem State.wf_annotUse (s : State) (key : Nat) (f : RegField) (v : Nat) : (s.wf key f v).annotUse = s.annotUse := rfl
@[simp] theorem State.wf_sinks (s : State) (key : Nat) (f : RegField) (v : Nat) : (s.wf key f v).sinks = s.sinks := rfl
@[simp] theorem State.wf_checkLog (s : State) (key : Nat) (f : RegField) (v : Nat) : (s.wf key f v).checkLog = s.checkLog := rfl
@[simp] theorem State.wf_power (s : State) (key : Nat) (f : RegField) (v : Nat) : (s.wf key f v).power = s.power := rfl
@[simp] theorem State.wf_guestWin (s : State) (key : Nat) (f : RegField) (v : Nat) : (s.wf key f v).guestWin = s.guestWin := rfl
@[simp] theorem State.wf_safeReq (s : State) (key : Nat) (f : RegField) (v : Nat) : (s.wf key f v).safeReq = s.safeReq := rfl
@[simp] theorem State.wf_pcieUp (s : State) (key : Nat) (f : RegField) (v : Nat) : (s.wf key f v).pcieUp = s.pcieUp := rfl
@[simp] theorem State.wf_pcieD3 (s : State) (key : Nat) (f : RegField) (v : Nat) : (s.wf key f v).pcieD3 = s.pcieD3 := rfl

/-! ### State.wb changes pages alone. -/

@[simp] theorem State.wb_pending (s : State) (key : Nat) (f : RegField) (b : Bool) : (s.wb key f b).pending = s.pending := rfl
@[simp] theorem State.wb_out (s : State) (key : Nat) (f : RegField) (b : Bool) : (s.wb key f b).out = s.out := rfl
@[simp] theorem State.wb_freeCtr (s : State) (key : Nat) (f : RegField) (b : Bool) : (s.wb key f b).freeCtr = s.freeCtr := rfl
@[simp] theorem State.wb_six (s : State) (key : Nat) (f : RegField) (b : Bool) : (s.wb key f b).six = s.six := rfl
@[simp] theorem State.wb_guest (s : State) (key : Nat) (f : RegField) (b : Bool) : (s.wb key f b).guest = s.guest := rfl
@[simp] theorem State.wb_slots (s : State) (key : Nat) (f : RegField) (b : Bool) : (s.wb key f b).slots = s.slots := rfl
@[simp] theorem State.wb_log (s : State) (key : Nat) (f : RegField) (b : Bool) : (s.wb key f b).log = s.log := rfl
@[simp] theorem State.wb_flashLog (s : State) (key : Nat) (f : RegField) (b : Bool) : (s.wb key f b).flashLog = s.flashLog := rfl
@[simp] theorem State.wb_held (s : State) (key : Nat) (f : RegField) (b : Bool) : (s.wb key f b).held = s.held := rfl
@[simp] theorem State.wb_msixTable (s : State) (key : Nat) (f : RegField) (b : Bool) : (s.wb key f b).msixTable = s.msixTable := rfl
@[simp] theorem State.wb_msixPend (s : State) (key : Nat) (f : RegField) (b : Bool) : (s.wb key f b).msixPend = s.msixPend := rfl
@[simp] theorem State.wb_routes (s : State) (key : Nat) (f : RegField) (b : Bool) : (s.wb key f b).routes = s.routes := rfl
@[simp] theorem State.wb_keyStore (s : State) (key : Nat) (f : RegField) (b : Bool) : (s.wb key f b).keyStore = s.keyStore := rfl
@[simp] theorem State.wb_win (s : State) (key : Nat) (f : RegField) (b : Bool) : (s.wb key f b).win = s.win := rfl
@[simp] theorem State.wb_parkedPend (s : State) (key : Nat) (f : RegField) (b : Bool) : (s.wb key f b).parkedPend = s.parkedPend := rfl
@[simp] theorem State.wb_tb (s : State) (key : Nat) (f : RegField) (b : Bool) : (s.wb key f b).tb = s.tb := rfl
@[simp] theorem State.wb_tdc (s : State) (key : Nat) (f : RegField) (b : Bool) : (s.wb key f b).tdc = s.tdc := rfl
@[simp] theorem State.wb_convs (s : State) (key : Nat) (f : RegField) (b : Bool) : (s.wb key f b).convs = s.convs := rfl
@[simp] theorem State.wb_rot (s : State) (key : Nat) (f : RegField) (b : Bool) : (s.wb key f b).rot = s.rot := rfl
@[simp] theorem State.wb_carriers (s : State) (key : Nat) (f : RegField) (b : Bool) : (s.wb key f b).carriers = s.carriers := rfl
@[simp] theorem State.wb_staleIn (s : State) (key : Nat) (f : RegField) (b : Bool) : (s.wb key f b).staleIn = s.staleIn := rfl
@[simp] theorem State.wb_pend (s : State) (key : Nat) (f : RegField) (b : Bool) : (s.wb key f b).pend = s.pend := rfl
@[simp] theorem State.wb_chains (s : State) (key : Nat) (f : RegField) (b : Bool) : (s.wb key f b).chains = s.chains := rfl
@[simp] theorem State.wb_insets (s : State) (key : Nat) (f : RegField) (b : Bool) : (s.wb key f b).insets = s.insets := rfl
@[simp] theorem State.wb_engines (s : State) (key : Nat) (f : RegField) (b : Bool) : (s.wb key f b).engines = s.engines := rfl
@[simp] theorem State.wb_grats (s : State) (key : Nat) (f : RegField) (b : Bool) : (s.wb key f b).grats = s.grats := rfl
@[simp] theorem State.wb_trigs (s : State) (key : Nat) (f : RegField) (b : Bool) : (s.wb key f b).trigs = s.trigs := rfl
@[simp] theorem State.wb_trigOuts (s : State) (key : Nat) (f : RegField) (b : Bool) : (s.wb key f b).trigOuts = s.trigOuts := rfl
@[simp] theorem State.wb_caps (s : State) (key : Nat) (f : RegField) (b : Bool) : (s.wb key f b).caps = s.caps := rfl
@[simp] theorem State.wb_mem (s : State) (key : Nat) (f : RegField) (b : Bool) : (s.wb key f b).mem = s.mem := rfl
@[simp] theorem State.wb_poison (s : State) (key : Nat) (f : RegField) (b : Bool) : (s.wb key f b).poison = s.poison := rfl
@[simp] theorem State.wb_poisonFill (s : State) (key : Nat) (f : RegField) (b : Bool) : (s.wb key f b).poisonFill = s.poisonFill := rfl
@[simp] theorem State.wb_readyRecs (s : State) (key : Nat) (f : RegField) (b : Bool) : (s.wb key f b).readyRecs = s.readyRecs := rfl
@[simp] theorem State.wb_phn (s : State) (key : Nat) (f : RegField) (b : Bool) : (s.wb key f b).phn = s.phn := rfl
@[simp] theorem State.wb_svy (s : State) (key : Nat) (f : RegField) (b : Bool) : (s.wb key f b).svy = s.svy := rfl
@[simp] theorem State.wb_hbms (s : State) (key : Nat) (f : RegField) (b : Bool) : (s.wb key f b).hbms = s.hbms := rfl
@[simp] theorem State.wb_links (s : State) (key : Nat) (f : RegField) (b : Bool) : (s.wb key f b).links = s.links := rfl
@[simp] theorem State.wb_hostReads (s : State) (key : Nat) (f : RegField) (b : Bool) : (s.wb key f b).hostReads = s.hostReads := rfl
@[simp] theorem State.wb_channels (s : State) (key : Nat) (f : RegField) (b : Bool) : (s.wb key f b).channels = s.channels := rfl
@[simp] theorem State.wb_groupLast (s : State) (key : Nat) (f : RegField) (b : Bool) : (s.wb key f b).groupLast = s.groupLast := rfl
@[simp] theorem State.wb_rings (s : State) (key : Nat) (f : RegField) (b : Bool) : (s.wb key f b).rings = s.rings := rfl
@[simp] theorem State.wb_streams (s : State) (key : Nat) (f : RegField) (b : Bool) : (s.wb key f b).streams = s.streams := rfl
@[simp] theorem State.wb_sentLog (s : State) (key : Nat) (f : RegField) (b : Bool) : (s.wb key f b).sentLog = s.sentLog := rfl
@[simp] theorem State.wb_drives (s : State) (key : Nat) (f : RegField) (b : Bool) : (s.wb key f b).drives = s.drives := rfl
@[simp] theorem State.wb_writes (s : State) (key : Nat) (f : RegField) (b : Bool) : (s.wb key f b).writes = s.writes := rfl
@[simp] theorem State.wb_playbacks (s : State) (key : Nat) (f : RegField) (b : Bool) : (s.wb key f b).playbacks = s.playbacks := rfl
@[simp] theorem State.wb_perst (s : State) (key : Nat) (f : RegField) (b : Bool) : (s.wb key f b).perst = s.perst := rfl
@[simp] theorem State.wb_peBad (s : State) (key : Nat) (f : RegField) (b : Bool) : (s.wb key f b).peBad = s.peBad := rfl
@[simp] theorem State.wb_ethBad (s : State) (key : Nat) (f : RegField) (b : Bool) : (s.wb key f b).ethBad = s.ethBad := rfl
@[simp] theorem State.wb_pcieCfg (s : State) (key : Nat) (f : RegField) (b : Bool) : (s.wb key f b).pcieCfg = s.pcieCfg := rfl
@[simp] theorem State.wb_crcs (s : State) (key : Nat) (f : RegField) (b : Bool) : (s.wb key f b).crcs = s.crcs := rfl
@[simp] theorem State.wb_cmps (s : State) (key : Nat) (f : RegField) (b : Bool) : (s.wb key f b).cmps = s.cmps := rfl
@[simp] theorem State.wb_cores (s : State) (key : Nat) (f : RegField) (b : Bool) : (s.wb key f b).cores = s.cores := rfl
@[simp] theorem State.wb_measures (s : State) (key : Nat) (f : RegField) (b : Bool) : (s.wb key f b).measures = s.measures := rfl
@[simp] theorem State.wb_scan (s : State) (key : Nat) (f : RegField) (b : Bool) : (s.wb key f b).scan = s.scan := rfl
@[simp] theorem State.wb_passed (s : State) (key : Nat) (f : RegField) (b : Bool) : (s.wb key f b).passed = s.passed := rfl
@[simp] theorem State.wb_genlock (s : State) (key : Nat) (f : RegField) (b : Bool) : (s.wb key f b).genlock = s.genlock := rfl
@[simp] theorem State.wb_retiring (s : State) (key : Nat) (f : RegField) (b : Bool) : (s.wb key f b).retiring = s.retiring := rfl
@[simp] theorem State.wb_annotUse (s : State) (key : Nat) (f : RegField) (b : Bool) : (s.wb key f b).annotUse = s.annotUse := rfl
@[simp] theorem State.wb_sinks (s : State) (key : Nat) (f : RegField) (b : Bool) : (s.wb key f b).sinks = s.sinks := rfl
@[simp] theorem State.wb_checkLog (s : State) (key : Nat) (f : RegField) (b : Bool) : (s.wb key f b).checkLog = s.checkLog := rfl
@[simp] theorem State.wb_power (s : State) (key : Nat) (f : RegField) (b : Bool) : (s.wb key f b).power = s.power := rfl
@[simp] theorem State.wb_guestWin (s : State) (key : Nat) (f : RegField) (b : Bool) : (s.wb key f b).guestWin = s.guestWin := rfl
@[simp] theorem State.wb_safeReq (s : State) (key : Nat) (f : RegField) (b : Bool) : (s.wb key f b).safeReq = s.safeReq := rfl
@[simp] theorem State.wb_pcieUp (s : State) (key : Nat) (f : RegField) (b : Bool) : (s.wb key f b).pcieUp = s.pcieUp := rfl
@[simp] theorem State.wb_pcieD3 (s : State) (key : Nat) (f : RegField) (b : Bool) : (s.wb key f b).pcieD3 = s.pcieD3 := rfl

/-! ### State.emit changes out alone. -/

@[simp] theorem State.emit_pending (s : State) (o : Output) : (s.emit o).pending = s.pending := rfl
@[simp] theorem State.emit_pages (s : State) (o : Output) : (s.emit o).pages = s.pages := rfl
@[simp] theorem State.emit_freeCtr (s : State) (o : Output) : (s.emit o).freeCtr = s.freeCtr := rfl
@[simp] theorem State.emit_six (s : State) (o : Output) : (s.emit o).six = s.six := rfl
@[simp] theorem State.emit_guest (s : State) (o : Output) : (s.emit o).guest = s.guest := rfl
@[simp] theorem State.emit_slots (s : State) (o : Output) : (s.emit o).slots = s.slots := rfl
@[simp] theorem State.emit_log (s : State) (o : Output) : (s.emit o).log = s.log := rfl
@[simp] theorem State.emit_flashLog (s : State) (o : Output) : (s.emit o).flashLog = s.flashLog := rfl
@[simp] theorem State.emit_held (s : State) (o : Output) : (s.emit o).held = s.held := rfl
@[simp] theorem State.emit_msixTable (s : State) (o : Output) : (s.emit o).msixTable = s.msixTable := rfl
@[simp] theorem State.emit_msixPend (s : State) (o : Output) : (s.emit o).msixPend = s.msixPend := rfl
@[simp] theorem State.emit_routes (s : State) (o : Output) : (s.emit o).routes = s.routes := rfl
@[simp] theorem State.emit_keyStore (s : State) (o : Output) : (s.emit o).keyStore = s.keyStore := rfl
@[simp] theorem State.emit_win (s : State) (o : Output) : (s.emit o).win = s.win := rfl
@[simp] theorem State.emit_parkedPend (s : State) (o : Output) : (s.emit o).parkedPend = s.parkedPend := rfl
@[simp] theorem State.emit_tb (s : State) (o : Output) : (s.emit o).tb = s.tb := rfl
@[simp] theorem State.emit_tdc (s : State) (o : Output) : (s.emit o).tdc = s.tdc := rfl
@[simp] theorem State.emit_convs (s : State) (o : Output) : (s.emit o).convs = s.convs := rfl
@[simp] theorem State.emit_rot (s : State) (o : Output) : (s.emit o).rot = s.rot := rfl
@[simp] theorem State.emit_carriers (s : State) (o : Output) : (s.emit o).carriers = s.carriers := rfl
@[simp] theorem State.emit_staleIn (s : State) (o : Output) : (s.emit o).staleIn = s.staleIn := rfl
@[simp] theorem State.emit_pend (s : State) (o : Output) : (s.emit o).pend = s.pend := rfl
@[simp] theorem State.emit_chains (s : State) (o : Output) : (s.emit o).chains = s.chains := rfl
@[simp] theorem State.emit_insets (s : State) (o : Output) : (s.emit o).insets = s.insets := rfl
@[simp] theorem State.emit_engines (s : State) (o : Output) : (s.emit o).engines = s.engines := rfl
@[simp] theorem State.emit_grats (s : State) (o : Output) : (s.emit o).grats = s.grats := rfl
@[simp] theorem State.emit_trigs (s : State) (o : Output) : (s.emit o).trigs = s.trigs := rfl
@[simp] theorem State.emit_trigOuts (s : State) (o : Output) : (s.emit o).trigOuts = s.trigOuts := rfl
@[simp] theorem State.emit_caps (s : State) (o : Output) : (s.emit o).caps = s.caps := rfl
@[simp] theorem State.emit_mem (s : State) (o : Output) : (s.emit o).mem = s.mem := rfl
@[simp] theorem State.emit_poison (s : State) (o : Output) : (s.emit o).poison = s.poison := rfl
@[simp] theorem State.emit_poisonFill (s : State) (o : Output) : (s.emit o).poisonFill = s.poisonFill := rfl
@[simp] theorem State.emit_readyRecs (s : State) (o : Output) : (s.emit o).readyRecs = s.readyRecs := rfl
@[simp] theorem State.emit_phn (s : State) (o : Output) : (s.emit o).phn = s.phn := rfl
@[simp] theorem State.emit_svy (s : State) (o : Output) : (s.emit o).svy = s.svy := rfl
@[simp] theorem State.emit_hbms (s : State) (o : Output) : (s.emit o).hbms = s.hbms := rfl
@[simp] theorem State.emit_links (s : State) (o : Output) : (s.emit o).links = s.links := rfl
@[simp] theorem State.emit_hostReads (s : State) (o : Output) : (s.emit o).hostReads = s.hostReads := rfl
@[simp] theorem State.emit_channels (s : State) (o : Output) : (s.emit o).channels = s.channels := rfl
@[simp] theorem State.emit_groupLast (s : State) (o : Output) : (s.emit o).groupLast = s.groupLast := rfl
@[simp] theorem State.emit_rings (s : State) (o : Output) : (s.emit o).rings = s.rings := rfl
@[simp] theorem State.emit_streams (s : State) (o : Output) : (s.emit o).streams = s.streams := rfl
@[simp] theorem State.emit_sentLog (s : State) (o : Output) : (s.emit o).sentLog = s.sentLog := rfl
@[simp] theorem State.emit_drives (s : State) (o : Output) : (s.emit o).drives = s.drives := rfl
@[simp] theorem State.emit_writes (s : State) (o : Output) : (s.emit o).writes = s.writes := rfl
@[simp] theorem State.emit_playbacks (s : State) (o : Output) : (s.emit o).playbacks = s.playbacks := rfl
@[simp] theorem State.emit_perst (s : State) (o : Output) : (s.emit o).perst = s.perst := rfl
@[simp] theorem State.emit_peBad (s : State) (o : Output) : (s.emit o).peBad = s.peBad := rfl
@[simp] theorem State.emit_ethBad (s : State) (o : Output) : (s.emit o).ethBad = s.ethBad := rfl
@[simp] theorem State.emit_pcieCfg (s : State) (o : Output) : (s.emit o).pcieCfg = s.pcieCfg := rfl
@[simp] theorem State.emit_crcs (s : State) (o : Output) : (s.emit o).crcs = s.crcs := rfl
@[simp] theorem State.emit_cmps (s : State) (o : Output) : (s.emit o).cmps = s.cmps := rfl
@[simp] theorem State.emit_cores (s : State) (o : Output) : (s.emit o).cores = s.cores := rfl
@[simp] theorem State.emit_measures (s : State) (o : Output) : (s.emit o).measures = s.measures := rfl
@[simp] theorem State.emit_scan (s : State) (o : Output) : (s.emit o).scan = s.scan := rfl
@[simp] theorem State.emit_passed (s : State) (o : Output) : (s.emit o).passed = s.passed := rfl
@[simp] theorem State.emit_genlock (s : State) (o : Output) : (s.emit o).genlock = s.genlock := rfl
@[simp] theorem State.emit_retiring (s : State) (o : Output) : (s.emit o).retiring = s.retiring := rfl
@[simp] theorem State.emit_annotUse (s : State) (o : Output) : (s.emit o).annotUse = s.annotUse := rfl
@[simp] theorem State.emit_sinks (s : State) (o : Output) : (s.emit o).sinks = s.sinks := rfl
@[simp] theorem State.emit_checkLog (s : State) (o : Output) : (s.emit o).checkLog = s.checkLog := rfl
@[simp] theorem State.emit_power (s : State) (o : Output) : (s.emit o).power = s.power := rfl
@[simp] theorem State.emit_guestWin (s : State) (o : Output) : (s.emit o).guestWin = s.guestWin := rfl
@[simp] theorem State.emit_safeReq (s : State) (o : Output) : (s.emit o).safeReq = s.safeReq := rfl
@[simp] theorem State.emit_pcieUp (s : State) (o : Output) : (s.emit o).pcieUp = s.pcieUp := rfl
@[simp] theorem State.emit_pcieD3 (s : State) (o : Output) : (s.emit o).pcieD3 = s.pcieD3 := rfl

/-! ### State.modTb changes tb alone. -/

@[simp] theorem State.modTb_pending (s : State) (f : TimeBase → TimeBase) : (s.modTb f).pending = s.pending := rfl
@[simp] theorem State.modTb_pages (s : State) (f : TimeBase → TimeBase) : (s.modTb f).pages = s.pages := rfl
@[simp] theorem State.modTb_out (s : State) (f : TimeBase → TimeBase) : (s.modTb f).out = s.out := rfl
@[simp] theorem State.modTb_freeCtr (s : State) (f : TimeBase → TimeBase) : (s.modTb f).freeCtr = s.freeCtr := rfl
@[simp] theorem State.modTb_six (s : State) (f : TimeBase → TimeBase) : (s.modTb f).six = s.six := rfl
@[simp] theorem State.modTb_guest (s : State) (f : TimeBase → TimeBase) : (s.modTb f).guest = s.guest := rfl
@[simp] theorem State.modTb_slots (s : State) (f : TimeBase → TimeBase) : (s.modTb f).slots = s.slots := rfl
@[simp] theorem State.modTb_log (s : State) (f : TimeBase → TimeBase) : (s.modTb f).log = s.log := rfl
@[simp] theorem State.modTb_flashLog (s : State) (f : TimeBase → TimeBase) : (s.modTb f).flashLog = s.flashLog := rfl
@[simp] theorem State.modTb_held (s : State) (f : TimeBase → TimeBase) : (s.modTb f).held = s.held := rfl
@[simp] theorem State.modTb_msixTable (s : State) (f : TimeBase → TimeBase) : (s.modTb f).msixTable = s.msixTable := rfl
@[simp] theorem State.modTb_msixPend (s : State) (f : TimeBase → TimeBase) : (s.modTb f).msixPend = s.msixPend := rfl
@[simp] theorem State.modTb_routes (s : State) (f : TimeBase → TimeBase) : (s.modTb f).routes = s.routes := rfl
@[simp] theorem State.modTb_keyStore (s : State) (f : TimeBase → TimeBase) : (s.modTb f).keyStore = s.keyStore := rfl
@[simp] theorem State.modTb_win (s : State) (f : TimeBase → TimeBase) : (s.modTb f).win = s.win := rfl
@[simp] theorem State.modTb_parkedPend (s : State) (f : TimeBase → TimeBase) : (s.modTb f).parkedPend = s.parkedPend := rfl
@[simp] theorem State.modTb_tdc (s : State) (f : TimeBase → TimeBase) : (s.modTb f).tdc = s.tdc := rfl
@[simp] theorem State.modTb_convs (s : State) (f : TimeBase → TimeBase) : (s.modTb f).convs = s.convs := rfl
@[simp] theorem State.modTb_rot (s : State) (f : TimeBase → TimeBase) : (s.modTb f).rot = s.rot := rfl
@[simp] theorem State.modTb_carriers (s : State) (f : TimeBase → TimeBase) : (s.modTb f).carriers = s.carriers := rfl
@[simp] theorem State.modTb_staleIn (s : State) (f : TimeBase → TimeBase) : (s.modTb f).staleIn = s.staleIn := rfl
@[simp] theorem State.modTb_pend (s : State) (f : TimeBase → TimeBase) : (s.modTb f).pend = s.pend := rfl
@[simp] theorem State.modTb_chains (s : State) (f : TimeBase → TimeBase) : (s.modTb f).chains = s.chains := rfl
@[simp] theorem State.modTb_insets (s : State) (f : TimeBase → TimeBase) : (s.modTb f).insets = s.insets := rfl
@[simp] theorem State.modTb_engines (s : State) (f : TimeBase → TimeBase) : (s.modTb f).engines = s.engines := rfl
@[simp] theorem State.modTb_grats (s : State) (f : TimeBase → TimeBase) : (s.modTb f).grats = s.grats := rfl
@[simp] theorem State.modTb_trigs (s : State) (f : TimeBase → TimeBase) : (s.modTb f).trigs = s.trigs := rfl
@[simp] theorem State.modTb_trigOuts (s : State) (f : TimeBase → TimeBase) : (s.modTb f).trigOuts = s.trigOuts := rfl
@[simp] theorem State.modTb_caps (s : State) (f : TimeBase → TimeBase) : (s.modTb f).caps = s.caps := rfl
@[simp] theorem State.modTb_mem (s : State) (f : TimeBase → TimeBase) : (s.modTb f).mem = s.mem := rfl
@[simp] theorem State.modTb_poison (s : State) (f : TimeBase → TimeBase) : (s.modTb f).poison = s.poison := rfl
@[simp] theorem State.modTb_poisonFill (s : State) (f : TimeBase → TimeBase) : (s.modTb f).poisonFill = s.poisonFill := rfl
@[simp] theorem State.modTb_readyRecs (s : State) (f : TimeBase → TimeBase) : (s.modTb f).readyRecs = s.readyRecs := rfl
@[simp] theorem State.modTb_phn (s : State) (f : TimeBase → TimeBase) : (s.modTb f).phn = s.phn := rfl
@[simp] theorem State.modTb_svy (s : State) (f : TimeBase → TimeBase) : (s.modTb f).svy = s.svy := rfl
@[simp] theorem State.modTb_hbms (s : State) (f : TimeBase → TimeBase) : (s.modTb f).hbms = s.hbms := rfl
@[simp] theorem State.modTb_links (s : State) (f : TimeBase → TimeBase) : (s.modTb f).links = s.links := rfl
@[simp] theorem State.modTb_hostReads (s : State) (f : TimeBase → TimeBase) : (s.modTb f).hostReads = s.hostReads := rfl
@[simp] theorem State.modTb_channels (s : State) (f : TimeBase → TimeBase) : (s.modTb f).channels = s.channels := rfl
@[simp] theorem State.modTb_groupLast (s : State) (f : TimeBase → TimeBase) : (s.modTb f).groupLast = s.groupLast := rfl
@[simp] theorem State.modTb_rings (s : State) (f : TimeBase → TimeBase) : (s.modTb f).rings = s.rings := rfl
@[simp] theorem State.modTb_streams (s : State) (f : TimeBase → TimeBase) : (s.modTb f).streams = s.streams := rfl
@[simp] theorem State.modTb_sentLog (s : State) (f : TimeBase → TimeBase) : (s.modTb f).sentLog = s.sentLog := rfl
@[simp] theorem State.modTb_drives (s : State) (f : TimeBase → TimeBase) : (s.modTb f).drives = s.drives := rfl
@[simp] theorem State.modTb_writes (s : State) (f : TimeBase → TimeBase) : (s.modTb f).writes = s.writes := rfl
@[simp] theorem State.modTb_playbacks (s : State) (f : TimeBase → TimeBase) : (s.modTb f).playbacks = s.playbacks := rfl
@[simp] theorem State.modTb_perst (s : State) (f : TimeBase → TimeBase) : (s.modTb f).perst = s.perst := rfl
@[simp] theorem State.modTb_peBad (s : State) (f : TimeBase → TimeBase) : (s.modTb f).peBad = s.peBad := rfl
@[simp] theorem State.modTb_ethBad (s : State) (f : TimeBase → TimeBase) : (s.modTb f).ethBad = s.ethBad := rfl
@[simp] theorem State.modTb_pcieCfg (s : State) (f : TimeBase → TimeBase) : (s.modTb f).pcieCfg = s.pcieCfg := rfl
@[simp] theorem State.modTb_crcs (s : State) (f : TimeBase → TimeBase) : (s.modTb f).crcs = s.crcs := rfl
@[simp] theorem State.modTb_cmps (s : State) (f : TimeBase → TimeBase) : (s.modTb f).cmps = s.cmps := rfl
@[simp] theorem State.modTb_cores (s : State) (f : TimeBase → TimeBase) : (s.modTb f).cores = s.cores := rfl
@[simp] theorem State.modTb_measures (s : State) (f : TimeBase → TimeBase) : (s.modTb f).measures = s.measures := rfl
@[simp] theorem State.modTb_scan (s : State) (f : TimeBase → TimeBase) : (s.modTb f).scan = s.scan := rfl
@[simp] theorem State.modTb_passed (s : State) (f : TimeBase → TimeBase) : (s.modTb f).passed = s.passed := rfl
@[simp] theorem State.modTb_genlock (s : State) (f : TimeBase → TimeBase) : (s.modTb f).genlock = s.genlock := rfl
@[simp] theorem State.modTb_retiring (s : State) (f : TimeBase → TimeBase) : (s.modTb f).retiring = s.retiring := rfl
@[simp] theorem State.modTb_annotUse (s : State) (f : TimeBase → TimeBase) : (s.modTb f).annotUse = s.annotUse := rfl
@[simp] theorem State.modTb_sinks (s : State) (f : TimeBase → TimeBase) : (s.modTb f).sinks = s.sinks := rfl
@[simp] theorem State.modTb_checkLog (s : State) (f : TimeBase → TimeBase) : (s.modTb f).checkLog = s.checkLog := rfl
@[simp] theorem State.modTb_power (s : State) (f : TimeBase → TimeBase) : (s.modTb f).power = s.power := rfl
@[simp] theorem State.modTb_guestWin (s : State) (f : TimeBase → TimeBase) : (s.modTb f).guestWin = s.guestWin := rfl
@[simp] theorem State.modTb_safeReq (s : State) (f : TimeBase → TimeBase) : (s.modTb f).safeReq = s.safeReq := rfl
@[simp] theorem State.modTb_pcieUp (s : State) (f : TimeBase → TimeBase) : (s.modTb f).pcieUp = s.pcieUp := rfl
@[simp] theorem State.modTb_pcieD3 (s : State) (f : TimeBase → TimeBase) : (s.modTb f).pcieD3 = s.pcieD3 := rfl

/-! ### State.modPhn changes phn alone. -/

@[simp] theorem State.modPhn_pending (s : State) (f : Phoin → Phoin) : (s.modPhn f).pending = s.pending := rfl
@[simp] theorem State.modPhn_pages (s : State) (f : Phoin → Phoin) : (s.modPhn f).pages = s.pages := rfl
@[simp] theorem State.modPhn_out (s : State) (f : Phoin → Phoin) : (s.modPhn f).out = s.out := rfl
@[simp] theorem State.modPhn_freeCtr (s : State) (f : Phoin → Phoin) : (s.modPhn f).freeCtr = s.freeCtr := rfl
@[simp] theorem State.modPhn_six (s : State) (f : Phoin → Phoin) : (s.modPhn f).six = s.six := rfl
@[simp] theorem State.modPhn_guest (s : State) (f : Phoin → Phoin) : (s.modPhn f).guest = s.guest := rfl
@[simp] theorem State.modPhn_slots (s : State) (f : Phoin → Phoin) : (s.modPhn f).slots = s.slots := rfl
@[simp] theorem State.modPhn_log (s : State) (f : Phoin → Phoin) : (s.modPhn f).log = s.log := rfl
@[simp] theorem State.modPhn_flashLog (s : State) (f : Phoin → Phoin) : (s.modPhn f).flashLog = s.flashLog := rfl
@[simp] theorem State.modPhn_held (s : State) (f : Phoin → Phoin) : (s.modPhn f).held = s.held := rfl
@[simp] theorem State.modPhn_msixTable (s : State) (f : Phoin → Phoin) : (s.modPhn f).msixTable = s.msixTable := rfl
@[simp] theorem State.modPhn_msixPend (s : State) (f : Phoin → Phoin) : (s.modPhn f).msixPend = s.msixPend := rfl
@[simp] theorem State.modPhn_routes (s : State) (f : Phoin → Phoin) : (s.modPhn f).routes = s.routes := rfl
@[simp] theorem State.modPhn_keyStore (s : State) (f : Phoin → Phoin) : (s.modPhn f).keyStore = s.keyStore := rfl
@[simp] theorem State.modPhn_win (s : State) (f : Phoin → Phoin) : (s.modPhn f).win = s.win := rfl
@[simp] theorem State.modPhn_parkedPend (s : State) (f : Phoin → Phoin) : (s.modPhn f).parkedPend = s.parkedPend := rfl
@[simp] theorem State.modPhn_tb (s : State) (f : Phoin → Phoin) : (s.modPhn f).tb = s.tb := rfl
@[simp] theorem State.modPhn_tdc (s : State) (f : Phoin → Phoin) : (s.modPhn f).tdc = s.tdc := rfl
@[simp] theorem State.modPhn_convs (s : State) (f : Phoin → Phoin) : (s.modPhn f).convs = s.convs := rfl
@[simp] theorem State.modPhn_rot (s : State) (f : Phoin → Phoin) : (s.modPhn f).rot = s.rot := rfl
@[simp] theorem State.modPhn_carriers (s : State) (f : Phoin → Phoin) : (s.modPhn f).carriers = s.carriers := rfl
@[simp] theorem State.modPhn_staleIn (s : State) (f : Phoin → Phoin) : (s.modPhn f).staleIn = s.staleIn := rfl
@[simp] theorem State.modPhn_pend (s : State) (f : Phoin → Phoin) : (s.modPhn f).pend = s.pend := rfl
@[simp] theorem State.modPhn_chains (s : State) (f : Phoin → Phoin) : (s.modPhn f).chains = s.chains := rfl
@[simp] theorem State.modPhn_insets (s : State) (f : Phoin → Phoin) : (s.modPhn f).insets = s.insets := rfl
@[simp] theorem State.modPhn_engines (s : State) (f : Phoin → Phoin) : (s.modPhn f).engines = s.engines := rfl
@[simp] theorem State.modPhn_grats (s : State) (f : Phoin → Phoin) : (s.modPhn f).grats = s.grats := rfl
@[simp] theorem State.modPhn_trigs (s : State) (f : Phoin → Phoin) : (s.modPhn f).trigs = s.trigs := rfl
@[simp] theorem State.modPhn_trigOuts (s : State) (f : Phoin → Phoin) : (s.modPhn f).trigOuts = s.trigOuts := rfl
@[simp] theorem State.modPhn_caps (s : State) (f : Phoin → Phoin) : (s.modPhn f).caps = s.caps := rfl
@[simp] theorem State.modPhn_mem (s : State) (f : Phoin → Phoin) : (s.modPhn f).mem = s.mem := rfl
@[simp] theorem State.modPhn_poison (s : State) (f : Phoin → Phoin) : (s.modPhn f).poison = s.poison := rfl
@[simp] theorem State.modPhn_poisonFill (s : State) (f : Phoin → Phoin) : (s.modPhn f).poisonFill = s.poisonFill := rfl
@[simp] theorem State.modPhn_readyRecs (s : State) (f : Phoin → Phoin) : (s.modPhn f).readyRecs = s.readyRecs := rfl
@[simp] theorem State.modPhn_svy (s : State) (f : Phoin → Phoin) : (s.modPhn f).svy = s.svy := rfl
@[simp] theorem State.modPhn_hbms (s : State) (f : Phoin → Phoin) : (s.modPhn f).hbms = s.hbms := rfl
@[simp] theorem State.modPhn_links (s : State) (f : Phoin → Phoin) : (s.modPhn f).links = s.links := rfl
@[simp] theorem State.modPhn_hostReads (s : State) (f : Phoin → Phoin) : (s.modPhn f).hostReads = s.hostReads := rfl
@[simp] theorem State.modPhn_channels (s : State) (f : Phoin → Phoin) : (s.modPhn f).channels = s.channels := rfl
@[simp] theorem State.modPhn_groupLast (s : State) (f : Phoin → Phoin) : (s.modPhn f).groupLast = s.groupLast := rfl
@[simp] theorem State.modPhn_rings (s : State) (f : Phoin → Phoin) : (s.modPhn f).rings = s.rings := rfl
@[simp] theorem State.modPhn_streams (s : State) (f : Phoin → Phoin) : (s.modPhn f).streams = s.streams := rfl
@[simp] theorem State.modPhn_sentLog (s : State) (f : Phoin → Phoin) : (s.modPhn f).sentLog = s.sentLog := rfl
@[simp] theorem State.modPhn_drives (s : State) (f : Phoin → Phoin) : (s.modPhn f).drives = s.drives := rfl
@[simp] theorem State.modPhn_writes (s : State) (f : Phoin → Phoin) : (s.modPhn f).writes = s.writes := rfl
@[simp] theorem State.modPhn_playbacks (s : State) (f : Phoin → Phoin) : (s.modPhn f).playbacks = s.playbacks := rfl
@[simp] theorem State.modPhn_perst (s : State) (f : Phoin → Phoin) : (s.modPhn f).perst = s.perst := rfl
@[simp] theorem State.modPhn_peBad (s : State) (f : Phoin → Phoin) : (s.modPhn f).peBad = s.peBad := rfl
@[simp] theorem State.modPhn_ethBad (s : State) (f : Phoin → Phoin) : (s.modPhn f).ethBad = s.ethBad := rfl
@[simp] theorem State.modPhn_pcieCfg (s : State) (f : Phoin → Phoin) : (s.modPhn f).pcieCfg = s.pcieCfg := rfl
@[simp] theorem State.modPhn_crcs (s : State) (f : Phoin → Phoin) : (s.modPhn f).crcs = s.crcs := rfl
@[simp] theorem State.modPhn_cmps (s : State) (f : Phoin → Phoin) : (s.modPhn f).cmps = s.cmps := rfl
@[simp] theorem State.modPhn_cores (s : State) (f : Phoin → Phoin) : (s.modPhn f).cores = s.cores := rfl
@[simp] theorem State.modPhn_measures (s : State) (f : Phoin → Phoin) : (s.modPhn f).measures = s.measures := rfl
@[simp] theorem State.modPhn_scan (s : State) (f : Phoin → Phoin) : (s.modPhn f).scan = s.scan := rfl
@[simp] theorem State.modPhn_passed (s : State) (f : Phoin → Phoin) : (s.modPhn f).passed = s.passed := rfl
@[simp] theorem State.modPhn_genlock (s : State) (f : Phoin → Phoin) : (s.modPhn f).genlock = s.genlock := rfl
@[simp] theorem State.modPhn_retiring (s : State) (f : Phoin → Phoin) : (s.modPhn f).retiring = s.retiring := rfl
@[simp] theorem State.modPhn_annotUse (s : State) (f : Phoin → Phoin) : (s.modPhn f).annotUse = s.annotUse := rfl
@[simp] theorem State.modPhn_sinks (s : State) (f : Phoin → Phoin) : (s.modPhn f).sinks = s.sinks := rfl
@[simp] theorem State.modPhn_checkLog (s : State) (f : Phoin → Phoin) : (s.modPhn f).checkLog = s.checkLog := rfl
@[simp] theorem State.modPhn_power (s : State) (f : Phoin → Phoin) : (s.modPhn f).power = s.power := rfl
@[simp] theorem State.modPhn_guestWin (s : State) (f : Phoin → Phoin) : (s.modPhn f).guestWin = s.guestWin := rfl
@[simp] theorem State.modPhn_safeReq (s : State) (f : Phoin → Phoin) : (s.modPhn f).safeReq = s.safeReq := rfl
@[simp] theorem State.modPhn_pcieUp (s : State) (f : Phoin → Phoin) : (s.modPhn f).pcieUp = s.pcieUp := rfl
@[simp] theorem State.modPhn_pcieD3 (s : State) (f : Phoin → Phoin) : (s.modPhn f).pcieD3 = s.pcieD3 := rfl

/-! ### State.modPower changes power alone. -/

@[simp] theorem State.modPower_pending (s : State) (f : Power → Power) : (s.modPower f).pending = s.pending := rfl
@[simp] theorem State.modPower_pages (s : State) (f : Power → Power) : (s.modPower f).pages = s.pages := rfl
@[simp] theorem State.modPower_out (s : State) (f : Power → Power) : (s.modPower f).out = s.out := rfl
@[simp] theorem State.modPower_freeCtr (s : State) (f : Power → Power) : (s.modPower f).freeCtr = s.freeCtr := rfl
@[simp] theorem State.modPower_six (s : State) (f : Power → Power) : (s.modPower f).six = s.six := rfl
@[simp] theorem State.modPower_guest (s : State) (f : Power → Power) : (s.modPower f).guest = s.guest := rfl
@[simp] theorem State.modPower_slots (s : State) (f : Power → Power) : (s.modPower f).slots = s.slots := rfl
@[simp] theorem State.modPower_log (s : State) (f : Power → Power) : (s.modPower f).log = s.log := rfl
@[simp] theorem State.modPower_flashLog (s : State) (f : Power → Power) : (s.modPower f).flashLog = s.flashLog := rfl
@[simp] theorem State.modPower_held (s : State) (f : Power → Power) : (s.modPower f).held = s.held := rfl
@[simp] theorem State.modPower_msixTable (s : State) (f : Power → Power) : (s.modPower f).msixTable = s.msixTable := rfl
@[simp] theorem State.modPower_msixPend (s : State) (f : Power → Power) : (s.modPower f).msixPend = s.msixPend := rfl
@[simp] theorem State.modPower_routes (s : State) (f : Power → Power) : (s.modPower f).routes = s.routes := rfl
@[simp] theorem State.modPower_keyStore (s : State) (f : Power → Power) : (s.modPower f).keyStore = s.keyStore := rfl
@[simp] theorem State.modPower_win (s : State) (f : Power → Power) : (s.modPower f).win = s.win := rfl
@[simp] theorem State.modPower_parkedPend (s : State) (f : Power → Power) : (s.modPower f).parkedPend = s.parkedPend := rfl
@[simp] theorem State.modPower_tb (s : State) (f : Power → Power) : (s.modPower f).tb = s.tb := rfl
@[simp] theorem State.modPower_tdc (s : State) (f : Power → Power) : (s.modPower f).tdc = s.tdc := rfl
@[simp] theorem State.modPower_convs (s : State) (f : Power → Power) : (s.modPower f).convs = s.convs := rfl
@[simp] theorem State.modPower_rot (s : State) (f : Power → Power) : (s.modPower f).rot = s.rot := rfl
@[simp] theorem State.modPower_carriers (s : State) (f : Power → Power) : (s.modPower f).carriers = s.carriers := rfl
@[simp] theorem State.modPower_staleIn (s : State) (f : Power → Power) : (s.modPower f).staleIn = s.staleIn := rfl
@[simp] theorem State.modPower_pend (s : State) (f : Power → Power) : (s.modPower f).pend = s.pend := rfl
@[simp] theorem State.modPower_chains (s : State) (f : Power → Power) : (s.modPower f).chains = s.chains := rfl
@[simp] theorem State.modPower_insets (s : State) (f : Power → Power) : (s.modPower f).insets = s.insets := rfl
@[simp] theorem State.modPower_engines (s : State) (f : Power → Power) : (s.modPower f).engines = s.engines := rfl
@[simp] theorem State.modPower_grats (s : State) (f : Power → Power) : (s.modPower f).grats = s.grats := rfl
@[simp] theorem State.modPower_trigs (s : State) (f : Power → Power) : (s.modPower f).trigs = s.trigs := rfl
@[simp] theorem State.modPower_trigOuts (s : State) (f : Power → Power) : (s.modPower f).trigOuts = s.trigOuts := rfl
@[simp] theorem State.modPower_caps (s : State) (f : Power → Power) : (s.modPower f).caps = s.caps := rfl
@[simp] theorem State.modPower_mem (s : State) (f : Power → Power) : (s.modPower f).mem = s.mem := rfl
@[simp] theorem State.modPower_poison (s : State) (f : Power → Power) : (s.modPower f).poison = s.poison := rfl
@[simp] theorem State.modPower_poisonFill (s : State) (f : Power → Power) : (s.modPower f).poisonFill = s.poisonFill := rfl
@[simp] theorem State.modPower_readyRecs (s : State) (f : Power → Power) : (s.modPower f).readyRecs = s.readyRecs := rfl
@[simp] theorem State.modPower_phn (s : State) (f : Power → Power) : (s.modPower f).phn = s.phn := rfl
@[simp] theorem State.modPower_svy (s : State) (f : Power → Power) : (s.modPower f).svy = s.svy := rfl
@[simp] theorem State.modPower_hbms (s : State) (f : Power → Power) : (s.modPower f).hbms = s.hbms := rfl
@[simp] theorem State.modPower_links (s : State) (f : Power → Power) : (s.modPower f).links = s.links := rfl
@[simp] theorem State.modPower_hostReads (s : State) (f : Power → Power) : (s.modPower f).hostReads = s.hostReads := rfl
@[simp] theorem State.modPower_channels (s : State) (f : Power → Power) : (s.modPower f).channels = s.channels := rfl
@[simp] theorem State.modPower_groupLast (s : State) (f : Power → Power) : (s.modPower f).groupLast = s.groupLast := rfl
@[simp] theorem State.modPower_rings (s : State) (f : Power → Power) : (s.modPower f).rings = s.rings := rfl
@[simp] theorem State.modPower_streams (s : State) (f : Power → Power) : (s.modPower f).streams = s.streams := rfl
@[simp] theorem State.modPower_sentLog (s : State) (f : Power → Power) : (s.modPower f).sentLog = s.sentLog := rfl
@[simp] theorem State.modPower_drives (s : State) (f : Power → Power) : (s.modPower f).drives = s.drives := rfl
@[simp] theorem State.modPower_writes (s : State) (f : Power → Power) : (s.modPower f).writes = s.writes := rfl
@[simp] theorem State.modPower_playbacks (s : State) (f : Power → Power) : (s.modPower f).playbacks = s.playbacks := rfl
@[simp] theorem State.modPower_perst (s : State) (f : Power → Power) : (s.modPower f).perst = s.perst := rfl
@[simp] theorem State.modPower_peBad (s : State) (f : Power → Power) : (s.modPower f).peBad = s.peBad := rfl
@[simp] theorem State.modPower_ethBad (s : State) (f : Power → Power) : (s.modPower f).ethBad = s.ethBad := rfl
@[simp] theorem State.modPower_pcieCfg (s : State) (f : Power → Power) : (s.modPower f).pcieCfg = s.pcieCfg := rfl
@[simp] theorem State.modPower_crcs (s : State) (f : Power → Power) : (s.modPower f).crcs = s.crcs := rfl
@[simp] theorem State.modPower_cmps (s : State) (f : Power → Power) : (s.modPower f).cmps = s.cmps := rfl
@[simp] theorem State.modPower_cores (s : State) (f : Power → Power) : (s.modPower f).cores = s.cores := rfl
@[simp] theorem State.modPower_measures (s : State) (f : Power → Power) : (s.modPower f).measures = s.measures := rfl
@[simp] theorem State.modPower_scan (s : State) (f : Power → Power) : (s.modPower f).scan = s.scan := rfl
@[simp] theorem State.modPower_passed (s : State) (f : Power → Power) : (s.modPower f).passed = s.passed := rfl
@[simp] theorem State.modPower_genlock (s : State) (f : Power → Power) : (s.modPower f).genlock = s.genlock := rfl
@[simp] theorem State.modPower_retiring (s : State) (f : Power → Power) : (s.modPower f).retiring = s.retiring := rfl
@[simp] theorem State.modPower_annotUse (s : State) (f : Power → Power) : (s.modPower f).annotUse = s.annotUse := rfl
@[simp] theorem State.modPower_sinks (s : State) (f : Power → Power) : (s.modPower f).sinks = s.sinks := rfl
@[simp] theorem State.modPower_checkLog (s : State) (f : Power → Power) : (s.modPower f).checkLog = s.checkLog := rfl
@[simp] theorem State.modPower_guestWin (s : State) (f : Power → Power) : (s.modPower f).guestWin = s.guestWin := rfl
@[simp] theorem State.modPower_safeReq (s : State) (f : Power → Power) : (s.modPower f).safeReq = s.safeReq := rfl
@[simp] theorem State.modPower_pcieUp (s : State) (f : Power → Power) : (s.modPower f).pcieUp = s.pcieUp := rfl
@[simp] theorem State.modPower_pcieD3 (s : State) (f : Power → Power) : (s.modPower f).pcieD3 = s.pcieD3 := rfl

/-! ### Reading back. -/

@[simp] theorem State.modTb_tb (s : State) (f : TimeBase → TimeBase) : (s.modTb f).tb = f s.tb := rfl
@[simp] theorem State.modPower_power (s : State) (f : Power → Power) : (s.modPower f).power = f s.power := rfl
@[simp] theorem State.emit_out (s : State) (o : Output) : (s.emit o).out = s.out ++ [o] := rfl

/-- A page reads back what was put there. -/
@[simp] theorem State.page_setPage (s : State) (key : Nat) (p : Page) : (s.setPage key p).page key = p := mget_mput_same _ _ _ _

/-- Every other page is left alone. -/
theorem State.page_setPage_other (s : State) {j key : Nat} (p : Page) (h : j ≠ key) : (s.setPage key p).page j = s.page j :=
  mget_mput_other _ _ _ h

@[simp] theorem State.page_modPage (s : State) (key : Nat) (f : Page → Page) : (s.modPage key f).page key = f (s.page key) :=
  State.page_setPage _ _ _

theorem State.page_modPage_other (s : State) {j key : Nat} (f : Page → Page) (h : j ≠ key) : (s.modPage key f).page j = s.page j :=
  State.page_setPage_other _ _ h

/-- A register reads back the word written to it. -/
@[simp] theorem State.reg_setReg (s : State) (key off : Nat) (w : Word) : (s.setReg key off w).reg key off = w := by
  unfold State.reg State.setReg
  rw [State.page_modPage]
  exact mget_mput_same _ _ _ _

/-- Writing a register or a field of one leaves every other page alone. -/
theorem State.page_setReg_other (s : State) {j key : Nat} (off : Nat) (w : Word) (h : j ≠ key) : (s.setReg key off w).page j = s.page j :=
  State.page_modPage_other _ _ h

theorem State.page_wf_other (s : State) {j key : Nat} (f : RegField) (v : Nat) (h : j ≠ key) : (s.wf key f v).page j = s.page j :=
  State.page_setReg_other _ _ _ h

end Sys2Proof.Machine
end

