-- ==== Sys2Proof/Tests/Slice0.lean ====
section
/-! SUPPORT. Witnesses of the statements' hypotheses, each with the result of the one step it speaks of, and smoke tests. -/

namespace Sys2Proof.Tests

set_option Elab.async false

open Sys2Proof Sys2Proof.Machine

/-- An outcome is a next state that passes a check. -/
def ran (r : Res) (f : State → Bool) : Bool :=
  match r with
  | .next t => f t
  | _ => false

/-- The module READY, with some pages ACTIVE and owned by the host. -/
def up (keys : List Nat) : State :=
  (State.reset.wb keyMOD Reg.MOD_STAT.READY true).each keys fun s k => s.modPage k fun p => { p with st := .active, enable := true, owner := .host }

/-- L5 and L6 ACTIVE, the ways of the hub to user memory. -/
def joined (s : State) : State := s.each [keyOf 0 0x3F1, keyOf 1 0x3F2, keyOf 0 0x3F2, keyOf 2 0x3F2] fun s k => s.linkEnter k linkACTIVE 0

/-- A task in a state, of a type, on a pipeline. -/
def task (id type : Nat) (st : TaskState) (pipes : List Nat) : Task :=
  { id := id, arrival := id, st := st, desc := (List.replicate 32 (0 : Byte)) ++ [BitVec.ofNat 8 type] ++ List.replicate 223 0, ext := [],
    pinned := false, why := 0, pipes := pipes, stack := 0, hasMem := true, pieces := [], grants := [], maps := [], startAt := 0,
    startedAt := 0, memLost := false, closed := false, code := 0, sub := 0, image := [], restart := false }

/-- A command entry: opcode, flags, tag, task, and a body from 0x20. -/
def entry (op tag task : Nat) (body : List Nat) : List Byte :=
  let b := leBytes op 1 ++ leBytes 1 1 ++ leBytes 0 2 ++ leBytes tag 4 ++ leBytes task 4 ++ leBytes 0 20 ++ body.map (BitVec.ofNat 8)
  b ++ List.replicate (256 - b.length) 0

/-- A CALIBRATION_HOLD of C0 for 1 ms. -/
def holdBody : List Nat := [7, 3, 0, 0, 255, 255, 255, 255] ++ List.replicate 72 0 ++ [1, 0, 0, 0, 1]

/-- Rings 0 and 1 open, with one command at the head of ring 0. -/
def ph : State := ((up [keyPHN]).wb keyPHN Reg.PHN_STAT.RINGS true).modPhn fun p => { p with prod0 := 2 }

/-- An image with a body of one byte, signed with the private key 5. -/
def fwSigned : List Byte :=
  ([73, 87, 70, 76, 1, 0, 3, 0, 2, 0, 0, 0, 77, 0, 0, 0, 1, 0, 0, 0, 1, 0, 0, 0, 9, 248, 243, 196, 3, 198, 202, 16, 154, 165, 250, 13, 38, 29, 214, 91,
   227, 185, 181, 224, 150, 35, 191, 152, 38, 122, 129, 104, 182, 217, 223, 113, 99, 181, 252, 126, 54, 158, 95, 76, 28, 177, 143, 148, 126, 154, 115,
   92, 17, 222, 36, 162, 194, 81, 199, 119, 87, 60, 172, 94, 160, 37, 228, 103, 242, 8, 229, 29, 191, 249, 143, 197, 79, 102, 97, 203, 229, 101, 131,
   176, 55, 136, 47, 74, 28, 162, 151, 230, 10, 188, 219, 195, 131, 109, 132, 188, 143, 166, 150, 199, 116, 64, 249, 45, 15, 88, 55, 233, 10, 0, 231,
   197, 40, 75, 68, 119, 84, 213, 222, 232, 140, 152, 101, 51, 182, 144, 26, 235, 49, 119, 104, 109, 10, 232, 251, 51, 24, 68, 20, 171, 230, 193, 113,
   58] : List Nat).map (BitVec.ofNat 8) ++
  ([40, 60, 29, 115, 101, 206, 71, 136, 242, 159, 142, 191, 35, 78, 223, 254, 173, 111, 233, 151, 251, 234, 95, 250, 45, 88, 204, 157, 250, 123, 28, 80,
   139, 5, 82, 111, 85, 185, 235, 178, 4, 15, 5, 180, 143, 182, 208, 225, 49, 166, 32, 203, 199, 127, 70, 229, 63, 82, 244, 31, 116, 237, 202, 139, 133,
   171, 218, 63, 5, 243, 231, 53, 44, 232, 42, 3, 42, 75, 170, 107, 2, 77, 221, 216, 90, 173, 15, 165, 39, 13, 237, 237, 106, 124, 37, 29] : List Nat).map (BitVec.ofNat 8) ++
  List.replicate 248 0 ++ [0x4C]

/-- SHA-384 of the public key of the private key 5. -/
def fwFused : List Byte :=
  ([57, 102, 214, 199, 230, 161, 153, 226, 24, 7, 240, 248, 52, 116, 6, 170, 64, 170, 89, 193, 133, 120, 176, 97, 194, 188, 175, 179, 218, 134, 178, 78,
   205, 77, 162, 16, 4, 2, 153, 61, 86, 201, 181, 225, 246, 176, 243, 105] : List Nat).map (BitVec.ofNat 8)

/-- A key wrapped for slot 5 under a transport key of zeros. -/
def keyBlob : List Byte :=
  leBytes 0 11 ++ leBytes 1 1 ++ ([46, 198, 35, 37, 243, 113, 96, 219, 174, 7, 90, 166, 150, 248, 243, 146, 150, 68, 239, 178, 134, 52, 103, 150, 1,
   117, 202, 105, 149, 158, 147, 141, 59, 95, 90, 98, 91, 7, 102, 182, 224, 187, 18, 136, 163, 54, 94, 212] : List Nat).map (BitVec.ofNat 8) ++ leBytes 5
   4

theorem wit_CommonOpcodesComplete_1 :
    (fun (s : State) (who : Issuer) (key : Fin 8192) (tag : Nat) => decide (s.takes who key) && decide (s.governed key = false) && decide ((s.page key).st = .idle ∧ (s.page key).enable = true) &&
      ran (exec (.startCmd who key tag false) s) fun t => decide ((t.page key).cmdStat = cmdStatWord tag phaseRUNNING 0 codeOK ∧ (t.page key).op = some (s.latch key 0x0001 tag)))
      ((up [keyTDC]).modPage keyTDC fun p => { p with st := .idle }) (.host) (Fin.ofNat 8192 keyTDC) (5) = true := by decide +kernel

theorem wit_CommonOpcodesComplete_2 :
    (fun (s : State) (who : Issuer) (key : Fin 8192) (tag : Nat) => decide (s.takes who key) && decide (s.governed key = false) && decide ((s.page key).st = .idle ∧ (s.page key).enable = true) &&
      ran (exec (.startCmd who key tag true) s) fun t => decide ((t.page key).st = .active ∧ (t.page key).op = none))
      ((up [keyFFT 1]).modPage (keyFFT 1) fun p => { p with st := .idle }) (.host) (Fin.ofNat 8192 (keyFFT 1)) (5) = true := by decide +kernel

theorem wit_CommonOpcodesComplete_3 :
    (fun (s : State) (who : Issuer) (key : Fin 8192) (tag : Nat) => decide (s.takes who key) && decide (s.governed key = false) && decide ((s.page key).st = .active ∨ (s.page key).st = .suspended) &&
      ran (exec (.stop who key tag false) s) fun t => decide ((t.page key).cmdStat = cmdStatWord tag phaseRUNNING 0 codeOK ∧ (t.page key).op = some (s.latch key 0x0002 tag)))
      (up [keyTDC]) (.host) (Fin.ofNat 8192 keyTDC) (5) = true := by decide +kernel

theorem wit_CommonOpcodesComplete_4 :
    (fun (s : State) (who : Issuer) (key : Fin 8192) (tag : Nat) => decide (s.takes who key) && decide (s.governed key = false) && decide ((s.page key).st = .active ∨ (s.page key).st = .suspended) &&
      ran (exec (.stop who key tag true) s) fun t => decide ((t.page key).st = .idle ∧ (t.page key).op = none))
      ((up [keyFFT 1]).modPage (keyFFT 1) fun p => { p with st := .suspended }) (.host) (Fin.ofNat 8192 (keyFFT 1)) (5) = true := by decide +kernel

theorem wit_CommonOpcodesComplete_5 :
    (fun (s : State) (who : Issuer) (key : Fin 8192) (tag : Nat) => decide (s.takes who key) && decide (s.suspendable key = true) && decide (s.governed key = false) && decide ((s.page key).st = .active) && decide (blockOf key ≠ .mc) &&
      ran (exec (.suspend who key tag) s) fun t => decide ((t.page key).st = .suspended ∧ (t.page key).op = none))
      (up [keyFFT 1]) (.host) (Fin.ofNat 8192 (keyFFT 1)) (5) = true := by decide +kernel

theorem wit_CommonOpcodesComplete_6 :
    (fun (s : State) (who : Issuer) (key : Fin 8192) (tag : Nat) (op : Op) => decide (s.honours who key) && decide (s.suspendable key = true) && decide (s.governed key = false) && decide ((s.page key).op = some op) && decide (op.suspended = false) && decide (blockOf key ≠ .mc) &&
      ran (exec (.suspend who key tag) s) fun t => decide ((t.page key).op = some { op with suspended := true } ∧ (t.page key).cmdStat = cmdStatWord tag phaseSUSPENDED 0 codeOK))
      ((up [keyFFT 1]).modPage (keyFFT 1) fun p => { p with op := some { opcode := 0x0100, tag := 9, a0 := 0, a1 := 0, a2 := 0, a3 := 0, suspended := false } }) (.host) (Fin.ofNat 8192 (keyFFT 1)) (5) ({ opcode := 0x0100, tag := 9, a0 := 0, a1 := 0, a2 := 0, a3 := 0, suspended := false }) = true := by decide +kernel

theorem wit_CommonOpcodesComplete_7 :
    (fun (s : State) (who : Issuer) (key : Fin 8192) (tag : Nat) => decide (s.takes who key) && decide (s.governed key = false) && decide ((s.page key).st = .suspended) &&
      ran (exec (.resume who key tag) s) fun t => decide ((t.page key).st = .active ∧ (t.page key).op = none))
      ((up [keyFFT 1]).modPage (keyFFT 1) fun p => { p with st := .suspended }) (.host) (Fin.ofNat 8192 (keyFFT 1)) (5) = true := by decide +kernel

theorem wit_CommonOpcodesComplete_8 :
    (fun (s : State) (who : Issuer) (key : Fin 8192) (tag : Nat) (op : Op) => decide (s.honours who key) && decide (s.governed key = false) && decide ((s.page key).op = some op) && decide (op.suspended = true) && decide ((s.page key).waiting = []) && decide (blockOf key ≠ .mc) &&
      ran (exec (.resume who key tag) s) fun t => decide ((t.page key).op = some { op with suspended := false } ∧ (t.page key).cmdStat = cmdStatWord tag phaseRUNNING 0 codeOK))
      ((up [keyFFT 1]).modPage (keyFFT 1) fun p => { p with op := some { opcode := 0x0100, tag := 9, a0 := 0, a1 := 0, a2 := 0, a3 := 0, suspended := true } }) (.host) (Fin.ofNat 8192 (keyFFT 1)) (5) ({ opcode := 0x0100, tag := 9, a0 := 0, a1 := 0, a2 := 0, a3 := 0, suspended := true }) = true := by decide +kernel

theorem wit_CommonOpcodesComplete_9 :
    (fun (s : State) (who : Issuer) (key : Fin 8192) (tag : Nat) (op : Op) => decide (s.honours who key) && decide ((s.page key).op = some op) && decide (s.pastCancel key op = false) && decide (key.val ≠ keySEC) &&
      ran (exec (.cancel who key tag) s) fun t => decide ((t.page key).op = none ∧ (t.page key).cmdStat = cmdStatWord op.tag phaseCANCELLED 0 codeOK))
      ((up [keyFFT 1]).modPage (keyFFT 1) fun p => { p with op := some { opcode := 0x0100, tag := 9, a0 := 0, a1 := 0, a2 := 0, a3 := 0, suspended := false } }) (.host) (Fin.ofNat 8192 (keyFFT 1)) (5) ({ opcode := 0x0100, tag := 9, a0 := 0, a1 := 0, a2 := 0, a3 := 0, suspended := false }) = true := by decide +kernel

theorem wit_CommonOpcodesComplete_10 :
    (fun (s : State) (who : Issuer) (key : Fin 8192) (tag : Nat) => decide (s.takes who key) && decide ((s.page key).resReady = false) &&
      ran (exec (.query who key tag) s) fun t => decide ((t.page key).resReady = true ∧ (t.page key).resSeq = nextSeq (s.page key).resSeq ∧ (t.page key).op = none ∧ (t.page key).cmdStat = cmdStatWord tag phaseDONE 0 codeOK))
      (up [keyTDC]) (.host) (Fin.ofNat 8192 keyTDC) (5) = true := by decide +kernel

theorem wit_CommonOpcodesComplete_11 :
    (fun (s : State) (who : Issuer) (key : Fin 8192) (tag : Nat) => decide (s.takes who key) && decide (blockOf key ∈ [.mod, .tbs, .tdc, .adc, .phn, .mem, .bxe, .hif, .nvi, .cmp, .crc, .mc, .sec, .flt, .pwr, .eth, .str, .rng]) &&
      ran (exec (.commit who key tag) s) fun t => decide ((t.page key).op = none ∧ (t.page key).cmdStat = cmdStatWord tag phaseDONE 0 codeOK))
      (up [keyTDC]) (.host) (Fin.ofNat 8192 keyTDC) (5) = true := by decide +kernel

theorem wit_HeaderWritesTakeEffect_1 :
    (fun (s : State) (who : Issuer) (key : Fin 8192) => decide (s.discards who key = none) && decide ((s.page key).st ≠ .off) && decide ((s.page key).st ≠ .reset) &&
      ran (exec (.softReset who key) s) fun t => decide ((t.page key).st = .reset ∧ (t.page key).op = none ∧ (t.page key).enable = false))
      (up [keyFFT 1]) (.host) (Fin.ofNat 8192 (keyFFT 1)) = true := by decide +kernel

theorem wit_HeaderWritesTakeEffect_2 :
    (fun (s : State) (who : Issuer) (key : Fin 8192) => decide (s.discards who key = none) && decide ((s.page key).st = .active) &&
      ran (exec (.freezeWrite who key true) s) fun t => decide ((t.page key).st = .frozen ∧ (t.page key).prev = .active ∧ (t.page key).freeze = true))
      (up [keyFFT 1]) (.host) (Fin.ofNat 8192 (keyFFT 1)) = true := by decide +kernel

theorem wit_HeaderWritesTakeEffect_3 :
    (fun (s : State) (who : Issuer) (key : Fin 8192) => decide (s.discards who key = none) && decide ((s.page key).st = .frozen) &&
      ran (exec (.freezeWrite who key false) s) fun t => decide ((t.page key).st = (s.page key).prev ∧ (t.page key).gapNext = true ∧ (t.page key).freeze = false))
      ((up [keyFFT 1]).modPage (keyFFT 1) fun p => { p with st := .frozen, prev := .active, freeze := true }) (.host) (Fin.ofNat 8192 (keyFFT 1)) = true := by decide +kernel

theorem wit_HeaderWritesTakeEffect_4 :
    (fun (s : State) (who : Issuer) (key : Fin 8192) => decide (s.discards who key = none) && decide ((s.page key).st = .active) &&
      ran (exec (.enableWrite who key false) s) fun t => decide ((t.page key).st = .idle ∧ (t.page key).enable = false))
      (up [keyFFT 1]) (.host) (Fin.ofNat 8192 (keyFFT 1)) = true := by decide +kernel

theorem wit_HeaderWritesTakeEffect_5 :
    (fun (s : State) (who : Issuer) (key : Fin 8192) => decide (s.discards who key = none) &&
      ran (exec (.enableWrite who key true) s) fun t => decide ((t.page key).enable = true ∧ (t.page key).st = (s.page key).st))
      (up [keyFFT 1]) (.host) (Fin.ofNat 8192 (keyFFT 1)) = true := by decide +kernel

theorem wit_HeaderWritesTakeEffect_6 :
    (fun (s : State) (who : Issuer) (key : Fin 8192) => decide (s.discards who key = none) &&
      ran (exec (.lockSet who key) s) fun t => decide ((t.page key).lock = true))
      (up [keyFFT 1]) (.host) (Fin.ofNat 8192 (keyFFT 1)) = true := by decide +kernel

theorem wit_HeaderWritesTakeEffect_7 :
    (fun (s : State) (who : Issuer) (key : Fin 8192) => decide (s.discards who key = none) && decide ((s.page key).resReady = true) && decide ((s.page key).waiting = []) && decide (key.val ≠ keyTDC ∨ s.tdc.heldStops = none) &&
      ran (exec (.pgResAckWrite who key (s.page key).resSeq) s) fun t => decide ((t.page key).resReady = false ∧ (t.page key).resSeq = (s.page key).resSeq))
      ((up [keyFFT 1]).modPage (keyFFT 1) fun p => { p with resReady := true, resSeq := 7 }) (.host) (Fin.ofNat 8192 (keyFFT 1)) = true := by decide +kernel

theorem wit_HeaderWritesTakeEffect_8 :
    (fun (s : State) (who : Issuer) (key : Fin 8192) (value : BitVec 32) => decide (s.discards who key = none) &&
      ran (exec (.pgIrqWrite who key true value) s) fun t => decide ((t.page key).irqEn = value &&& 0xFFFF001F))
      (up [keyFFT 1]) (.host) (Fin.ofNat 8192 (keyFFT 1)) (0xFFFFFFFF) = true := by decide +kernel

theorem wit_HeaderWritesTakeEffect_9 :
    (fun (s : State) (who : Issuer) (key : Fin 8192) (value : BitVec 32) => decide (s.discards who key = none) &&
      ran (exec (.pgIrqWrite who key false value) s) fun t => decide ((t.page key).irq = (s.page key).irq &&& ~~~value))
      ((up [keyFFT 1]).modPage (keyFFT 1) fun p => { p with irq := 0x11 }) (.host) (Fin.ofNat 8192 (keyFFT 1)) (1) = true := by decide +kernel

theorem wit_HeaderWritesTakeEffect_10 :
    (fun (s : State) (who : Issuer) (key : Fin 8192) (value : BitVec 32) => decide (s.discards who key = none) &&
      ran (exec (.registerWrite who key 13 value true) s) fun t => decide ((t.page key).a0 = value))
      (up [keyFFT 1]) (.host) (Fin.ofNat 8192 (keyFFT 1)) (0x12345678) = true := by decide +kernel

theorem wit_HeaderWritesTakeEffect_11 :
    (fun (s : State) (who : Issuer) (key : Fin 8192) (i : Fin 1024) (value : BitVec 32) (d : RegDesc) (j : Nat) => decide (s.honours who key) && decide (64 ≤ i.val) && decide (blockOf key ∉ [.adc, .ddc, .grt, .red, .afe, .ins, .ttr, .mc, .eth, .flt]) && decide (findReg (regTable (blockOf key)) (4 * i.val) = some (d, j)) &&
      ran (exec (.registerWrite who key i value true) s) fun t => decide (t.reg key (4 * i.val) = (writeFields (s.page key).lock (s.fieldOk key (4 * i.val) value) (s.reg key (4 * i.val)) value d.fields).1))
      (up [keyTDC]) (.host) (Fin.ofNat 8192 keyTDC) (64) (0x00000210) ((regTable .tdc).headD ⟨0, 0, 0, false, []⟩) (0) = true := by decide +kernel

theorem wit_HeaderWritesTakeEffect_12 :
    (fun (s : State) (key : Fin 8192) => decide (keyListed key = true) && decide ((s.page key).st = .reset) && decide ((s.page key).owner ≠ .phoin) &&
      ran (exec (.blockResetComplete key) s) fun t => decide ((t.page key).st = .idle))
      ((up [keyFFT 1]).modPage (keyFFT 1) fun p => { p with st := .reset }) (Fin.ofNat 8192 (keyFFT 1)) = true := by decide +kernel

theorem wit_WindowsAndRoutesTakeEffect_1 :
    (fun (s : State) (vector : Fin 2048) => decide (s.msixPending vector = true) &&
      ran (exec (.msixUnmask vector) s) fun t => decide (t.msixMasked vector = false ∧ t.out = s.out ++ [.msix vector (s.msixWord vector 0) (s.msixWord vector 1) (s.msixWord vector 2)]))
      ({ State.reset with msixPend := [(40, true)] }) (40) = true := by decide +kernel

theorem wit_WindowsAndRoutesTakeEffect_2 :
    (fun (s : State) (vector : Fin 2048) => decide (s.msixPending vector = false) &&
      ran (exec (.msixUnmask vector) s) fun t => decide (t.msixMasked vector = false ∧ t.out = s.out))
      (State.reset) (40) = true := by decide +kernel

theorem wit_WindowsAndRoutesTakeEffect_3 :
    (fun (s : State) (who : Issuer) (i : Fin 8192) (value : BitVec 32) => decide (i.val % 4 ≠ 3) && decide (s.msixPending (i.val / 4) = false) &&
      ran (exec (.windowWrite who (Fin.ofNat 0x4000000 (0x03F00000 + 4 * i.val)) value true) s) fun t => decide (mget msixReset t.msixTable i.val = value))
      (State.reset) (.host) (161) (0xFEE00000) = true := by decide +kernel

theorem wit_WindowsAndRoutesTakeEffect_4 :
    (fun (s : State) (who : Issuer) (addr : Fin 0x4000000) (value : BitVec 32) (key : Nat) => decide (¬ (0x03F00000 ≤ addr.val / 4 * 4 ∧ addr.val / 4 * 4 < 0x03F08000)) && decide (windowKey (addr.val / 4 * 4) = some key) && decide (key ≠ keyRNG) && decide (s.discards who key = none) &&
      ran (exec (.windowWrite who addr value true) s) fun t => decide (mget (fun _ => (0 : Word)) t.win (addr.val / 4) = value))
      (up [keyMC 0]) (.host) (0x02000010) (0x12345678) (keyMC 0) = true := by decide +kernel

theorem wit_WindowsAndRoutesTakeEffect_5 :
    (fun (s : State) (addr : Fin 0x4000000) => decide (barMapped addr = false) && decide (s.log.length < 4096) &&
      ran (exec (.unmappedAccess addr) s) fun t => decide (t.log = s.log ++ [{ entry := s.rf keyFLT Reg.FLT_HEAD, level := 0, code := 0, sub := 0, kind := 7, six := s.six, source := 0x100, pageKey := 0xFFFF, detail := addr }]))
      (State.reset) (0x03FFFFFC) = true := by decide +kernel

theorem wit_WindowsAndRoutesTakeEffect_6 :
    (fun (s : State) (who : Issuer) (tag : Nat) => decide (s.takes who keyHIF) && decide (keyListed ((s.page keyHIF).a0.toNat % 2 ^ 13) = true) && decide ((s.page keyHIF).a0.toNat % 2 ^ 13 ≠ keyFLT) && decide (32 ≤ (s.page keyHIF).a1.toNat % 2 ^ 11) &&
      ran (exec (.routeIrq who tag) s) fun t => decide (mget (fun _ => 0) t.routes ((s.page keyHIF).a0.toNat % 2 ^ 13) = (s.page keyHIF).a1.toNat % 2 ^ 11 ∧ (t.page keyHIF).cmdStat = cmdStatWord tag phaseDONE 0 codeOK))
      ((up [keyHIF]).modPage keyHIF fun p => { p with a0 := word keyTDC, a1 := 32 }) (.host) (3) = true := by decide +kernel

theorem wit_WindowsAndRoutesTakeEffect_7 :
    (fun (s : State) (who : Issuer) (key : Fin 8192) (opcode : BitVec 16) (tag : Nat) => decide (s.honours who key) && decide (opcodeKnown key opcode.toNat = false) && decide (key.val ≠ keyFLT) &&
      ran (exec (.undefinedOpcode who key none opcode tag) s) fun t => decide ((t.page key).cmdStat = cmdStatWord tag phaseREJECTED 0 codeUNSUPPORTED))
      (up [keyTDC]) (.host) (Fin.ofNat 8192 keyTDC) (0x0102) (4) = true := by decide +kernel

theorem wit_FaultsOfBlocksAndCells_1 :
    (fun (s : State) (key : Fin 8192) (bit : Fin 32) => decide (keyListed key = true) && decide (key.val ≠ keyTBS) && decide (blockOf key ∉ [.adc, .afe]) && decide ((faultBits (blockOf key)).contains bit.val = true) && decide ((s.page key).st = .active) &&
      ran (exec (.blockFault key bit) s) fun t => decide ((t.page key).st = .fault ∧ wbit (t.page key).err bit = true))
      (up [keyFFT 1]) (Fin.ofNat 8192 (keyFFT 1)) (19) = true := by decide +kernel

theorem wit_FaultsOfBlocksAndCells_2 :
    (fun (s : State) (key : Fin 8192) => decide (keyListed key = true) && decide (blockOf key ∉ [.adc, .afe]) && decide ((s.page key).st = .active) &&
      ran (exec (.cellError key false) s) fun t => decide ((t.page key).st = .fault ∧ wbit (t.page key).err 5 = true ∧ wbit (t.page key).err (cellBit (blockOf key)) = true))
      (up [keyFFT 1]) (Fin.ofNat 8192 (keyFFT 1)) = true := by decide +kernel

theorem wit_FaultsOfBlocksAndCells_3 :
    (fun (s : State) (key : Fin 8192) => decide (s.blockAt key ∉ [.mc, .mem]) &&
      ran (exec (.cellError key true) s) fun t => decide (t = s))
      (up [keyFFT 1]) (Fin.ofNat 8192 (keyFFT 1)) = true := by decide +kernel

theorem wit_FaultsOfBlocksAndCells_4 :
    (fun (s : State) (key : Fin 8192) => decide (s.blockAt key = .mc) && decide ((s.page key).st ≠ .off ∧ (s.page key).st ≠ .reset) &&
      ran (exec (.cellError key true) s) fun t => decide (t.rf key Reg.MC_ECC_CE = satInc 0xFFFFFFFF (s.rf key Reg.MC_ECC_CE) ∧ (t.page key).st = (s.page key).st ∧ (t.page key).err = (s.page key).err))
      (up [keyMC 3]) (Fin.ofNat 8192 (keyMC 3)) = true := by decide +kernel

theorem wit_FaultsOfBlocksAndCells_5 :
    (fun (s : State) (key : Fin 8192) => decide (s.blockAt key = .mem) && decide ((s.page key).st ≠ .off ∧ (s.page key).st ≠ .reset) &&
      ran (exec (.cellError key true) s) fun t => decide (t.rf key Reg.MEM_ECC_CE = satInc 0xFFFFFFFF (s.rf key Reg.MEM_ECC_CE) ∧ (t.page key).st = (s.page key).st ∧ (t.page key).err = (s.page key).err))
      (up [keyMEM 1]) (Fin.ofNat 8192 (keyMEM 1)) = true := by decide +kernel

theorem wit_TimeBaseCommandsComplete_1 :
    (fun (s : State) (who : Issuer) (tag : Nat) => decide (s.takes who keyTBS) && decide (s.rb keyTBS Reg.TBS_STATE.PTP_LOCKED = false) &&
      ran (exec (.setTime who tag) s) fun t => decide (t.tb.setSecs = some ((s.page keyTBS).a0.toNat + (s.page keyTBS).a1.toNat % 65536 * 2 ^ 32) ∧ (t.page keyTBS).cmdStat = cmdStatWord tag phaseRUNNING 0 codeOK))
      ((up [keyTBS]).modPage keyTBS fun p => { p with a0 := 1000 }) (.host) (7) = true := by decide +kernel

theorem wit_TimeBaseCommandsComplete_2 :
    (fun (s : State) (who : Issuer) (tag : Nat) => decide (s.takes who keyTBS) && decide (s.rb keyTBS Reg.TBS_SYNC_CFG.LOAD_SIX = false) &&
      ran (exec (.armSync who tag) s) fun t => decide (t.tb.sync = some (s.latchSync false) ∧ (t.page keyTBS).cmdStat = cmdStatWord tag phaseRUNNING 0 codeOK))
      (up [keyTBS]) (.host) (7) = true := by decide +kernel

theorem wit_TimeBaseCommandsComplete_3 :
    (fun (s : State) (who : Issuer) (tag : Nat) => decide (s.takes who keyTBS) && decide (s.rb keyTBS Reg.TBS_SYNC_CFG.LOAD_SIX = false) && decide (s.rf keyTBS Reg.TBS_SYNC_CFG.SYNCOUT ≠ 2) &&
      ran (exec (.syncNow who tag) s) fun t => decide (t.tb.sync = some (s.latchSync true) ∧ (t.page keyTBS).cmdStat = cmdStatWord tag phaseRUNNING 0 codeOK))
      (up [keyTBS]) (.host) (7) = true := by decide +kernel

theorem wit_TimeBaseCommandsComplete_4 :
    (fun (s : State) (who : Issuer) (tag : Nat) => decide (s.takes who keyTBS) && decide (s.rb keyTBS Reg.TBS_SYNC_CFG.LOAD_SIX = false) && decide (s.rf keyTBS Reg.TBS_SYNC_CFG.SYNCOUT = 2) && decide ((s.page keyTBS).resReady = false) &&
      ran (exec (.syncNow who tag) s) fun t => decide (t.tb.sync = s.tb.sync ∧ Output.syncout s.six (s.rb keyTBS Reg.TBS_SYNC_CFG.EDGE) ∈ t.out ∧ (t.page keyTBS).cmdStat = cmdStatWord tag phaseDONE 0 codeOK))
      ((up [keyTBS]).wf keyTBS Reg.TBS_SYNC_CFG.SYNCOUT 2) (.host) (7) = true := by decide +kernel

theorem wit_TimeBaseEventsComplete_1 :
    (fun (s : State) (amplMv hz : Nat) (ptpOk : Bool) (target : Int) (fit : Option Int) => decide ((s.page keyTBS).st ≠ .fault) && decide (s.rb keyTBS Reg.TBS_CFG.REF_EN = true) &&
      ran (exec (.refCheck amplMv hz ptpOk target fit) s) fun t => decide (t.tb.refinGood = (if refinValid (s.rf keyTBS Reg.TBS_CFG.REF_FREQ) amplMv hz then s.tb.refinGood + 1 else 0) ∧ t.tb.refinBad = (if refinValid (s.rf keyTBS Reg.TBS_CFG.REF_FREQ) amplMv hz then 0 else s.tb.refinBad + 1)))
      (up [keyTBS]) (1000) (10000000) (false) (0) (none) = true := by decide +kernel

theorem wit_TimeBaseEventsComplete_2 :
    (fun (s : State) => decide (s.rf keyTBS Reg.TBS_STATE.TB_STATE = 1) &&
      ran (exec (.tbLocked) s) fun t => decide (t.rf keyTBS Reg.TBS_STATE.TB_STATE = 2))
      ((up [keyTBS]).wf keyTBS Reg.TBS_STATE.TB_STATE 1) = true := by decide +kernel

theorem wit_TimeBaseEventsComplete_3 :
    (fun (s : State) => true &&
      ran (exec (.xtalFault) s) fun t => decide (t.tb.sync = none ∧ t.tb.setSecs = none ∧ t.safeReq.isSome = true))
      (up [keyTBS]) = true := by decide +kernel

theorem wit_TimeBaseEventsComplete_4 :
    (fun (s : State) (y : Int) (uncertainty : Nat) => decide (s.tb.running = true) &&
      ran (exec (.benchmark y uncertainty) s) fun t => decide (t.tb.benchSix = s.tb.nextBench ∧ t.tb.nextBench = sixAdd s.tb.nextBench sixPerMs ∧ t.tb.pendStep = none))
      ((up [keyTBS]).modTb fun b => { b with running := true, nextBench := 40960000 }) (3) (9) = true := by decide +kernel

theorem wit_TimeBaseEventsComplete_5 :
    (fun (s : State) => decide (s.six < 2 ^ 72) &&
      ran (exec (.tbsSixRead) s) fun t => decide (t.six3 keyTBS 0x130 = s.six ∧ t.six = s.six))
      ({ up [keyTBS] with six := 2 ^ 72 - 1 }) = true := by decide +kernel

theorem wit_TimeBaseEventsComplete_6 :
    (fun (s : State) (port domain transport source seq masterPs six fine : Nat) (egress : Nat × Nat) (utc : Int) (dataset intervalMs : Nat) => decide (s.rb keyTBS Reg.TBS_CFG.PTP_EN = true) && decide (port = s.rf keyTBS Reg.TBS_PTP_CFG.PORT) && decide (domain = s.rf keyTBS Reg.TBS_PTP_CFG.DOMAIN) && decide (transport = s.rf keyTBS Reg.TBS_PTP_CFG.TRANSPORT) && decide (s.tb.ptpMaster = none) &&
      ran (exec (.ptpMessage port domain transport { kind := .announce utc dataset intervalMs, source := source, seq := seq, egress := egress } masterPs six fine) s) fun t => decide (t.tb.utc = utc ∧ t.fromMaster source = true))
      ((up [keyTBS]).wf keyTBS Reg.TBS_CFG.PTP_EN 1) (0) (0) (0) (9) (3) (77) (5) (0) ((90, 7)) (37) (128) (1000) = true := by decide +kernel

theorem wit_TimeBaseEventsComplete_7 :
    (fun (s : State) (port domain transport source seq masterPs six fine : Nat) (egress : Nat × Nat) (ds : Nat) (until_ : Int) => decide (s.rb keyTBS Reg.TBS_CFG.PTP_EN = true) && decide (port = s.rf keyTBS Reg.TBS_PTP_CFG.PORT) && decide (domain = s.rf keyTBS Reg.TBS_PTP_CFG.DOMAIN) && decide (transport = s.rf keyTBS Reg.TBS_PTP_CFG.TRANSPORT) && decide (s.tb.ptpMaster = some (source, ds, until_)) && decide (s.elapsed (s.advanceTo six).six ≤ until_) &&
      ran (exec (.ptpMessage port domain transport { kind := .syncOneStep, source := source, seq := seq, egress := egress } masterPs six fine) s) fun t => decide (t.tb.ptpSync = seq ∧ t.tb.ptpT1 = some masterPs ∧ t.tb.ptpT2.isSome = true ∧ t.tb.ptpT3.isSome = true))
      (((up [keyTBS]).wf keyTBS Reg.TBS_CFG.PTP_EN 1).modTb fun b => { b with ptpMaster := some (9, 128, 999999) }) (0) (0) (0) (9) (3) (77) (5) (0) ((90, 7)) (128) (999999) = true := by decide +kernel

theorem wit_TimeBaseEventsComplete_8 :
    (fun (s : State) (port domain transport source seq masterPs six fine : Nat) (egress : Nat × Nat) (ds : Nat) (until_ : Int) => decide (s.rb keyTBS Reg.TBS_CFG.PTP_EN = true) && decide (port = s.rf keyTBS Reg.TBS_PTP_CFG.PORT) && decide (domain = s.rf keyTBS Reg.TBS_PTP_CFG.DOMAIN) && decide (transport = s.rf keyTBS Reg.TBS_PTP_CFG.TRANSPORT) && decide (s.tb.ptpMaster = some (source, ds, until_)) && decide (s.elapsed (s.advanceTo six).six ≤ until_) &&
      ran (exec (.ptpMessage port domain transport { kind := .syncTwoStep, source := source, seq := seq, egress := egress } masterPs six fine) s) fun t => decide (t.tb.ptpSync = seq ∧ t.tb.ptpT1 = none ∧ t.tb.ptpT2.isSome = true ∧ t.tb.ptpT3 = none))
      (((up [keyTBS]).wf keyTBS Reg.TBS_CFG.PTP_EN 1).modTb fun b => { b with ptpMaster := some (9, 128, 999999) }) (0) (0) (0) (9) (3) (77) (5) (0) ((90, 7)) (128) (999999) = true := by decide +kernel

theorem wit_TimeBaseEventsComplete_9 :
    (fun (s : State) (port domain transport source seq masterPs six fine : Nat) (egress : Nat × Nat) (ds : Nat) (until_ : Int) => decide (s.rb keyTBS Reg.TBS_CFG.PTP_EN = true) && decide (port = s.rf keyTBS Reg.TBS_PTP_CFG.PORT) && decide (domain = s.rf keyTBS Reg.TBS_PTP_CFG.DOMAIN) && decide (transport = s.rf keyTBS Reg.TBS_PTP_CFG.TRANSPORT) && decide (s.tb.ptpMaster = some (source, ds, until_)) && decide (s.elapsed (s.advanceTo six).six ≤ until_) && decide (s.tb.ptpSync = seq) && decide (s.tb.ptpT2.isSome = true) &&
      ran (exec (.ptpMessage port domain transport { kind := .followUp, source := source, seq := seq, egress := egress } masterPs six fine) s) fun t => decide (t.tb.ptpT1 = some masterPs ∧ t.tb.ptpT3.isSome = true ∧ t.tb.ptpReq = (s.tb.ptpReq + 1) % 65536))
      (((up [keyTBS]).wf keyTBS Reg.TBS_CFG.PTP_EN 1).modTb fun b => { b with ptpSync := 3, ptpT2 := some 5, ptpMaster := some (9, 128, 999999) }) (0) (0) (0) (9) (3) (77) (5) (0) ((90, 7)) (128) (999999) = true := by decide +kernel

theorem wit_TimeBaseEventsComplete_11 :
    (fun (s : State) (six fine highNs : Nat) => decide (100 ≤ highNs) && decide (s.rb keyTBS Reg.TBS_CFG.PPS_IN_EN = true) &&
      ran (exec (.ppsInEdge six fine highNs) s) fun t => decide (t.tb.ppsLast = some (s.elapsed six) ∧ t.tb.setSecs = none))
      ((up [keyTBS]).modTb fun b => { b with setSecs := some 3 }) (90) (0) (100) = true := by decide +kernel

theorem wit_TimeBaseEventsComplete_12 :
    (fun (s : State) (six : Nat) => decide (s.tb.ppsOut = false) && decide (s.timePs six 0 % psPerSecond ≤ 2000) &&
      ran (exec (.ppsOutEdge six) s) fun t => decide (t.tb.ppsOut = true ∧ t.out = s.out ++ [.ppsOut six true]))
      (up [keyTBS]) (80) = true := by decide +kernel

theorem wit_TimeBaseEventsComplete_13 :
    (fun (s : State) (six fine : Nat) (falling : Bool) (heldNs : Nat) (o : SyncOp) => decide (2 ≤ heldNs) && decide (s.tb.sync = some o) && decide (o.falling = falling) && decide (o.isNow = false) && decide (o.edge = none) && decide (o.first = none) &&
      ran (exec (.syncinEdge six fine falling heldNs) s) fun t => decide (t.tb.sync.map (·.edge) = some (some (six, fine))))
      ((up [keyTBS]).modTb fun b => { b with sync := some { isNow := false, falling := false, syncout := 0, loadSix := false, check := false, delay := 64, sixLoad := 0, deadline := 5000, first := none, edge := none } }) (100) (5) (false) (2) ({ isNow := false, falling := false, syncout := 0, loadSix := false, check := false, delay := 64, sixLoad := 0, deadline := 5000, first := none, edge := none }) = true := by decide +kernel

theorem wit_TimeBaseEventsComplete_14 :
    (fun (s : State) (six fine : Nat) (falling : Bool) (heldNs : Nat) => decide (2 ≤ heldNs) && decide (s.tb.sync = none) && decide (s.rb keyTBS Reg.TBS_SYNC_CFG.EDGE = falling) && decide (s.rf keyTBS Reg.TBS_SYNC_STAT.IGNORED < 65535) &&
      ran (exec (.syncinEdge six fine falling heldNs) s) fun t => decide (t.rf keyTBS Reg.TBS_SYNC_STAT.IGNORED = s.rf keyTBS Reg.TBS_SYNC_STAT.IGNORED + 1))
      (up [keyTBS]) (100) (5) (false) (2) = true := by decide +kernel

theorem wit_TimeBaseEventsComplete_15 :
    (fun (s : State) (o : SyncOp) (op : Op) => decide (s.tb.sync = some o) && decide (o.isNow = false) && decide (o.first = none) && decide ((s.page keyTBS).op = some op) &&
      ran (exec (.armSyncTimeout) s) fun t => decide (t.tb.sync = none ∧ (t.page keyTBS).cmdStat = cmdStatWord op.tag phaseFAILED 0x03 codeTIMEOUT))
      ((up [keyTBS]).modPage keyTBS (fun p => { p with op := some { opcode := 0x0100, tag := 9, a0 := 0, a1 := 0, a2 := 0, a3 := 0, suspended := false } }) |>.modTb fun b => { b with sync := some { isNow := false, falling := false, syncout := 0, loadSix := false, check := false, delay := 64, sixLoad := 0, deadline := 5000, first := none, edge := none } }) ({ isNow := false, falling := false, syncout := 0, loadSix := false, check := false, delay := 64, sixLoad := 0, deadline := 5000, first := none, edge := none }) ({ opcode := 0x0100, tag := 9, a0 := 0, a1 := 0, a2 := 0, a3 := 0, suspended := false }) = true := by decide +kernel

theorem wit_TimeBaseEventsComplete_16 :
    (fun (s : State) (a : Nat) (rest : List Nat) (o : SyncOp) => decide (s.tb.repeatAt = a :: rest) && decide (s.tb.sync = some o) &&
      ran (exec (.syncoutRepeat) s) fun t => decide (t.tb.repeatAt = rest ∧ t.out = s.out ++ [.syncout a o.falling]))
      ((up [keyTBS]).modTb fun b => { b with repeatAt := [9000], sync := some { isNow := false, falling := false, syncout := 0, loadSix := false, check := false, delay := 64, sixLoad := 0, deadline := 5000, first := none, edge := none } }) (9000) ([]) ({ isNow := false, falling := false, syncout := 0, loadSix := false, check := false, delay := 64, sixLoad := 0, deadline := 5000, first := none, edge := none }) = true := by decide +kernel

theorem wit_TimeBaseEventsComplete_17 :
    (fun (s : State) (o : SyncOp) (six fine : Nat) => decide (s.tb.sync = some o) && decide (o.edge = some (six, fine)) && decide (o.check = false) &&
      ran (exec (.syncResetApply) s) fun t => decide (t.tb.sync = none ∧ t.tb.repeatAt = []))
      ((up [keyTBS]).modTb fun b => { b with sync := some { isNow := false, falling := false, syncout := 0, loadSix := false, check := false, delay := 64, sixLoad := 0, deadline := 5000, first := some 100, edge := some (100, 5) } }) ({ isNow := false, falling := false, syncout := 0, loadSix := false, check := false, delay := 64, sixLoad := 0, deadline := 5000, first := some 100, edge := some (100, 5) }) (100) (5) = true := by decide +kernel

theorem wit_IntervalMeasurementCompletes_1 :
    (fun (s : State) (who : Issuer) (tag : Nat) => decide (s.takes who keyTDC) && decide (s.rf keyTDC Reg.TDC_STOP_MASK.MASK ≠ 0) && decide (1 ≤ s.rf keyTDC Reg.TDC_CFG.STOP_COUNT ∧ s.rf keyTDC Reg.TDC_CFG.STOP_COUNT ≤ 16) &&
      ran (exec (.measure who tag) s) fun t => decide (t.tdc.mode = .waitStart ∧ t.tdc.edges = [] ∧ t.tdc.misses = 0 ∧ (t.page keyTDC).cmdStat = cmdStatWord tag phaseRUNNING 0 codeOK))
      (up [keyTDC]) (.host) (7) = true := by decide +kernel

theorem wit_IntervalMeasurementCompletes_2 :
    (fun (s : State) (who : Issuer) (tag : Nat) => decide (s.takes who keyTDC) && decide ((s.page keyTDC).a0.toNat % 16 ≤ 8) && decide (1 ≤ (s.page keyTDC).a1.toNat ∧ (s.page keyTDC).a1.toNat ≤ 10000) &&
      ran (exec (.freqMeas who tag) s) fun t => decide (t.tdc.mode = .counting ∧ t.tdc.freqIn = (s.page keyTDC).a0.toNat % 16 ∧ t.tdc.freqN = 0 ∧ (t.page keyTDC).cmdStat = cmdStatWord tag phaseRUNNING 0 codeOK))
      ((up [keyTDC]).modPage keyTDC fun p => { p with a0 := 8, a1 := 10000 }) (.host) (7) = true := by decide +kernel

theorem wit_IntervalMeasurementCompletes_3 :
    (fun (s : State) (input : Nat) (falling : Bool) (six fine : Nat) => decide (tdcDead s.tdc.last { input := input, falling := falling, t := s.fineTime six fine } = false) && decide (s.tdc.mode = .counting) && decide (input = s.tdc.freqIn) && decide (falling = false) && decide (s.fineTime six fine ≤ s.tdc.deadline) &&
      ran (exec (.tdcEdge input falling six fine) s) fun t => decide (t.tdc.freqN = s.tdc.freqN + 1 ∧ t.tdc.freqLast = s.fineTime six fine ∧ t.tdc.last = tdcRemember s.tdc.last { input := input, falling := falling, t := s.fineTime six fine }))
      ((up [keyTDC]).modTdc fun d => { d with mode := .counting, deadline := 500 * 65536 }) (0) (false) (500) (0) = true := by decide +kernel

theorem wit_IntervalMeasurementCompletes_4 :
    (fun (s : State) (input : Nat) (falling : Bool) (six fine : Nat) => decide (tdcDead s.tdc.last { input := input, falling := falling, t := s.fineTime six fine } = false) && decide (s.tdc.mode = .waitStart) && decide (s.fineTime six fine ≤ s.tdc.deadline) && decide (s.isStart { input := input, falling := falling, t := s.fineTime six fine } = true) && decide (s.tdc.edges = []) && decide (1 ≤ s.rf keyTDC Reg.TDC_CFG.STOP_COUNT) &&
      ran (exec (.tdcEdge input falling six fine) s) fun t => decide (t.tdc.mode = .measuring ∧ t.tdc.start = s.fineTime six fine ∧ t.tdc.startAt = (six, fine % 65536) ∧ t.tdc.edges = []))
      ((up [keyTDC]).modTdc fun d => { d with mode := .waitStart, deadline := 500 * 65536 }) (0) (false) (500) (0) = true := by decide +kernel

theorem wit_IntervalMeasurementCompletes_5 :
    (fun (s : State) (op : Op) => decide (s.tdc.mode = .measuring) && decide ((s.page keyTDC).op = some op) && decide (op.suspended = false) && decide ((s.page keyTDC).resReady = false) &&
      ran (exec (.tdcTimeout) s) fun t => decide (t.tdc.mode = .idle ∧ (t.page keyTDC).cmdStat = cmdStatWord op.tag phaseDONE 0 codeOK ∧ (t.page keyTDC).resReady = true))
      ((up [keyTDC]).modPage keyTDC (fun p => { p with op := some { opcode := 0x0100, tag := 9, a0 := 0, a1 := 0, a2 := 0, a3 := 0, suspended := false } }) |>.modTdc fun d => { d with mode := .measuring }) ({ opcode := 0x0100, tag := 9, a0 := 0, a1 := 0, a2 := 0, a3 := 0, suspended := false }) = true := by decide +kernel

theorem wit_IntervalMeasurementCompletes_6 :
    (fun (s : State) (op : Op) => decide (s.tdc.mode = .waitStart) && decide ((s.page keyTDC).op = some op) &&
      ran (exec (.tdcStartWaitExpiry) s) fun t => decide (t.tdc.mode = .idle ∧ (t.page keyTDC).cmdStat = cmdStatWord op.tag phaseFAILED 0x02 codeTIMEOUT))
      ((up [keyTDC]).modPage keyTDC (fun p => { p with op := some { opcode := 0x0100, tag := 9, a0 := 0, a1 := 0, a2 := 0, a3 := 0, suspended := false } }) |>.modTdc fun d => { d with mode := .waitStart }) ({ opcode := 0x0100, tag := 9, a0 := 0, a1 := 0, a2 := 0, a3 := 0, suspended := false }) = true := by decide +kernel

theorem wit_IntervalMeasurementCompletes_7 :
    (fun (s : State) (op : Op) => decide (s.tdc.mode = .counting) && decide (s.tdc.freqN < 2) && decide ((s.page keyTDC).op = some op) &&
      ran (exec (.freqGateEnd) s) fun t => decide (t.tdc.mode = .idle ∧ (t.page keyTDC).cmdStat = cmdStatWord op.tag phaseFAILED 0x03 codeTIMEOUT))
      ((up [keyTDC]).modPage keyTDC (fun p => { p with op := some { opcode := 0x0100, tag := 9, a0 := 0, a1 := 0, a2 := 0, a3 := 0, suspended := false } }) |>.modTdc fun d => { d with mode := .counting }) ({ opcode := 0x0100, tag := 9, a0 := 0, a1 := 0, a2 := 0, a3 := 0, suspended := false }) = true := by decide +kernel

theorem wit_IntervalMeasurementCompletes_8 :
    (fun (s : State) (op : Op) => decide (s.tdc.mode = .counting) && decide (2 ≤ s.tdc.freqN) && decide ((s.page keyTDC).op = some op) && decide (op.suspended = false) && decide ((s.page keyTDC).resReady = false) &&
      ran (exec (.freqGateEnd) s) fun t => decide (t.tdc.mode = .idle ∧ (t.page keyTDC).cmdStat = cmdStatWord op.tag phaseDONE 0 codeOK ∧ (t.page keyTDC).res.head? = some (word s.tdc.freqN)))
      ((up [keyTDC]).modPage keyTDC (fun p => { p with op := some { opcode := 0x0100, tag := 9, a0 := 0, a1 := 0, a2 := 0, a3 := 0, suspended := false } }) |>.modTdc fun d => { d with mode := .counting, freqN := 2, freqLast := 65536 }) ({ opcode := 0x0100, tag := 9, a0 := 0, a1 := 0, a2 := 0, a3 := 0, suspended := false }) = true := by decide +kernel

theorem wit_FrontEndConfigurationCompletes_1 :
    (fun (s : State) (who : Issuer) (conv : Fin 5) (tag : Nat) => decide (s.takes who (keyAFE conv)) && decide (s.six + 40960 ≤ (s.latch (keyAFE conv) 0x0100 tag).sixArg) && decide ((s.latch (keyAFE conv) 0x0100 tag).sixArg % 32 = 0) && decide (s.afeCheck conv = none) &&
      ran (exec (.afeCommitAt who conv tag) s) fun t => decide ((t.pendOf (keyAFE conv)).map (·.due) = some (s.latch (keyAFE conv) 0x0100 tag).sixArg ∧ (t.page (keyAFE conv)).cmdStat = cmdStatWord tag phaseRUNNING 0 codeOK))
      ((up [keyAFE 1]).modPage (keyAFE 1) fun p => { p with a0 := 40960 }) (.host) (1) (4) = true := by decide +kernel

theorem wit_FrontEndConfigurationCompletes_2 :
    (fun (s : State) (conv : Fin 5) (a : PendApply) => decide (s.pendOf (keyAFE conv) = some a) && decide (a.empty = false) &&
      ran (exec (.afeApply conv) s) fun t => decide (t.pendOf (keyAFE conv) = none ∧ (t.page (keyAFE conv)).applied = a.words))
      ({ up [keyAFE 1] with pend := [(keyAFE 1, { due := 81920, words := [(0x100, 0x103)], byOp := true })] }) (1) ({ due := 81920, words := [(0x100, 0x103)], byOp := true }) = true := by decide +kernel

theorem wit_FrontEndConfigurationCompletes_3 :
    (fun (s : State) (conv : Fin 5) => decide ((s.page (keyAFE conv)).settling = true) &&
      ran (exec (.afeSettled conv) s) fun t => decide ((t.page (keyAFE conv)).settling = false ∧ t.rb (keyAFE conv) Reg.AFE_STAT.SETTLED = true))
      ((up [keyAFE 1]).modPage (keyAFE 1) fun p => { p with settling := true }) (1) = true := by decide +kernel

theorem wit_FrontEndConfigurationCompletes_4 :
    (fun (s : State) (conv : Fin 5) (level : Int) (heldNs six : Nat) => decide (100 ≤ heldNs) && decide (s.noConv conv = false) && decide (s.detConnected conv = true) && decide (s.overFullScale conv level = true) &&
      ran (exec (.overload conv level heldNs six) s) fun t => decide (wbit (t.page (keyAFE conv)).err 16 = true))
      (up [keyAFE 1]) (1) (3600) (100) (500) = true := by decide +kernel

theorem wit_FrontEndConfigurationCompletes_5 :
    (fun (s : State) (conv : Fin 5) (level : Int) (heldNs : Nat) => decide (100 ≤ heldNs) && decide (s.noConv conv = false) && decide (s.detConnected conv = true) && decide (s.overFullScale conv level = true) &&
      ran (exec (.afeDetUpdate conv level heldNs) s) fun t => decide (wbit (t.page (keyAFE conv)).err 16 = true))
      (up [keyAFE 1]) (1) (3600) (100) = true := by decide +kernel

theorem wit_FrontEndConfigurationCompletes_6 :
    (fun (s : State) (conv : Fin 5) (level : Int) (heldNs : Nat) => decide (s.noConv conv = false) && decide (s.overFullScale conv level = false) &&
      ran (exec (.afeDetUpdate conv level heldNs) s) fun t => decide (t.rf (keyAFE conv) Reg.AFE_DET.LEVEL = (if s.detConnected conv = true ∧ -6000 ≤ level then unsignedOf 16 level else 0x8000)))
      (up [keyAFE 1]) (1) (-2000) (100) = true := by decide +kernel

theorem wit_ConverterEventsComplete_1 :
    (fun (s : State) (conv : Fin 5) => decide (s.noConv conv = false) && decide (s.convState conv = convCLOCKING) &&
      ran (exec (.sclkLock conv) s) fun t => decide (t.convState conv = convFRAME_ALIGN))
      ((up [keyADC 1]).convEnter 1 convCLOCKING) (1) = true := by decide +kernel

theorem wit_ConverterEventsComplete_2 :
    (fun (s : State) (conv : Fin 5) => decide (s.noConv conv = false) && decide (s.convState conv = convSTREAMING ∨ s.convState conv = convPATTERN) &&
      ran (exec (.sclkLockLost conv) s) fun t => decide (t.convState conv = convCLOCKING))
      ((up [keyADC 1]).convEnter 1 convSTREAMING) (1) = true := by decide +kernel

theorem wit_ConverterEventsComplete_3 :
    (fun (s : State) (conv : Fin 5) (codes : List Nat) => decide (s.noConv conv = false) && decide (s.convState conv = convSTREAMING ∨ s.convState conv = convPATTERN) &&
      ran (exec (.sampleGroupLaunch conv codes) s) fun t => decide ((t.conv conv).nextLaunch = (s.conv conv).nextLaunch + 5 ∧ (t.conv conv).frames.length = (s.conv conv).frames.length + 5))
      ((up [keyADC 1]).convEnter 1 convSTREAMING) (1) (List.replicate 160 7) = true := by decide +kernel

theorem wit_ConverterEventsComplete_4 :
    (fun (s : State) (conv : Fin 5)  => decide (s.convState conv = convSTREAMING ∨ s.convState conv = convPATTERN ∨ s.fedBy conv (32 * (s.conv conv).nextFrame) ≠ []) &&
      ran (exec (.frameRelease conv () ()) s) fun t => decide ((t.conv conv).nextFrame = (s.conv conv).nextFrame + 1))
      ((up [keyADC 1]).convEnter 1 convSTREAMING) (1) = true := by decide +kernel

theorem wit_ConverterEventsComplete_5 :
    (fun (s : State) (who : Issuer) (conv : Fin 5) (value : BitVec 32) => decide (s.honours who (keyADC conv)) &&
      ran (exec (.adcCfgWrite who conv value) s) fun t => decide (t.rf (keyADC conv) Reg.ADC_CFG.ALIGN_SHIFT = wget value 4 0 ∧ t.rf (keyADC conv) Reg.ADC_CFG.PHASE = wget value 7 7))
      (up [keyADC 1]) (.host) (1) (0x9F) = true := by decide +kernel

theorem wit_ConverterEventsComplete_6 :
    (fun (s : State) (conv : Fin 5) (temp : BitVec 16) => decide (s.noConv conv = false) &&
      ran (exec (.adcTempUpdate conv temp) s) fun t => decide (t.rf (keyADC conv) Reg.ADC_TEMP.TEMP = temp.toNat))
      (up [keyADC 1]) (1) (0x0640) = true := by decide +kernel

theorem wit_ConverterEventsComplete_7 :
    (fun (s : State) (conv : Fin 5) (k : Fin 64) => decide (s.noConv conv = false) &&
      ran (exec (.subadcFault conv k) s) fun t => decide (wbit (t.page (keyADC conv)).err 17 = true ∧ wbit (t.reg (keyADC conv) (0x120 + 4 * (k.val / 32))) (k.val % 32) = true ∧ ((s.page (keyADC conv)).st = .active → (t.page (keyADC conv)).st = .fault)))
      (up [keyADC 1]) (1) (63) = true := by decide +kernel

theorem wit_ConverterEventsComplete_8 :
    (fun (s : State) (who : Issuer) (conv : Fin 5) (tag : Nat) (shift fracFs gainMdb : Int) (corrPpm : Nat) => decide (s.takes who (keyADC conv)) && decide ((s.page (keyADC conv)).resReady = false) && decide ((s.page (keyADC conv)).a0.toNat % 8 < 5) && decide ((s.page (keyADC conv)).a0.toNat % 8 ≠ conv.val) && decide (s.feeds conv ≠ none) && decide (s.feeds ((s.page (keyADC conv)).a0.toNat % 8) = s.feeds conv) && decide (s.convLocked conv = true) && decide (s.convLocked ((s.page (keyADC conv)).a0.toNat % 8) = true) && decide ((s.page (keyADC conv)).a1.toNat % 2 = 0) &&
      ran (exec (.align who conv tag shift fracFs gainMdb { ppm := corrPpm, now := true }) s) fun t => decide ((t.page (keyADC conv)).cmdStat = cmdStatWord tag phaseDONE 0 codeOK ∧ (t.page (keyADC conv)).res[3]? = some (word corrPpm)))
      (((up [keyADC 1, keyADC 0]).setReg (keyADC 1) 0x104 0x3107).setReg (keyADC 0) 0x104 0x3107) (.host) (1) (4) (0) (20) (5) (999500) = true := by decide +kernel

theorem wit_SpareRotationCompletes_1 :
    (fun (s : State) (conv : Fin 4) => decide (s.guest = false) && decide (s.spareAvailable = true) &&
      ran (exec (.spareAssign conv) s) fun t => decide (t.spareState = spareALIGNING ∧ t.rot.main = conv.val ∧ t.rot.corrected = false))
      ((up [keyADC 4]).setReg (keyADC 4) 0x104 0x3107) (2) = true := by decide +kernel

theorem wit_SpareRotationCompletes_2 :
    (fun (s : State) (conv : Fin 4) => decide (s.guest = false) && decide (s.spareAvailable = false) && decide (s.rot.queue.contains conv.val = false) &&
      ran (exec (.spareAssign conv) s) fun t => decide (t.rot.queue = s.rot.queue ++ [conv.val]))
      (up [keyADC 4]) (2) = true := by decide +kernel

theorem wit_SpareRotationCompletes_3 :
    (fun (s : State) (frames : Nat) (delayFs gainMdb : Int) (corrPpm : Nat) => decide (s.spareState = spareALIGNING) && decide (s.needsTone frames = false) && decide (s.rot.corrected = false) &&
      ran (exec (.alignCorrelationDone delayFs gainMdb { ppm := corrPpm, frames := frames }) s) fun t => decide (t.rot.corrected = true ∧ t.rot.skew = s.rot.skew + delaySkew delayFs))
      (((up [keyADC 4]).spareEnter spareALIGNING).modRot fun r => { r with main := 1, input := 1 }) (4096) (24414) (10) (999900) = true := by decide +kernel

theorem wit_SpareRotationCompletes_4 :
    (fun (s : State) (frames : Nat) (delayFs gainMdb : Int) (corrPpm : Nat) => decide (s.spareState = spareALIGNING) && decide (s.needsTone frames = false) && decide (s.rot.corrected = true) && decide (alignPasses delayFs gainMdb corrPpm = true) &&
      ran (exec (.alignCorrelationDone delayFs gainMdb { ppm := corrPpm, frames := frames }) s) fun t => decide (t.spareState = spareSHADOWING))
      (((up [keyADC 4]).spareEnter spareALIGNING).modRot fun r => { r with main := 1, corrected := true }) (4096) (-100) (50) (999000) = true := by decide +kernel

theorem wit_SpareRotationCompletes_5 :
    (fun (s : State) => decide (s.spareState = spareALIGNING) && decide (s.rot.queue = []) &&
      ran (exec (.alignTimeout) s) fun t => decide (t.spareState = spareIDLE ∧ t.rot.h = none))
      (((up [keyADC 4]).spareEnter spareALIGNING).modRot fun r => { r with main := 1, input := 1 }) = true := by decide +kernel

theorem wit_SpareRotationCompletes_6 :
    (fun (s : State) (frames : Nat) (delayFs gainMdb : Int) (corrPpm : Nat) => decide (s.spareState = spareRETURNING) && decide (s.needsTone frames = false) && decide (s.rot.waiting = false) && decide (s.rot.h = none) && decide (alignPasses delayFs gainMdb corrPpm = true) && decide (s.inputMigrating s.rot.input = false) &&
      ran (exec (.handbackCheck delayFs gainMdb { ppm := corrPpm, frames := frames }) s) fun t => decide (t.rot.h = some (handoverIndex s.six)))
      (((up [keyADC 4]).spareEnter spareRETURNING).modRot fun r => { r with main := 1, input := 1 }) (4096) (100) (-50) (1000000) = true := by decide +kernel

theorem wit_SpareRotationCompletes_7 :
    (fun (s : State) (frames : Nat) (delayFs gainMdb : Int) (corrPpm : Nat) => decide (s.spareState = spareRETURNING) && decide (s.needsTone frames = false) && decide (s.rot.waiting = false) && decide (s.rot.h = none) && decide (alignPasses delayFs gainMdb corrPpm = false) && decide (s.rot.retried = false) &&
      ran (exec (.handbackCheck delayFs gainMdb { ppm := corrPpm, frames := frames }) s) fun t => decide (t.rot.retried = true ∧ t.rot.h = none))
      (((up [keyADC 4]).spareEnter spareRETURNING).modRot fun r => { r with main := 1, input := 1 }) (4096) (101) (0) (1000000) = true := by decide +kernel

theorem wit_SpareRotationCompletes_8 :
    (fun (s : State) (h : Nat) => decide (s.rot.h = some h) &&
      ran (exec (.handover) s) fun t => decide (t = s.handover.beginNext ∧ s.handover.rot.h = none))
      ((((up [keyADC 4]).spareEnter spareSHADOWING).modRot fun r => { r with h := some 65536 })) (65536) = true := by decide +kernel

theorem wit_ChainAndInsetsComplete_1 :
    (fun (s : State) (who : Issuer) (pipe : Fin 6) (tag : Nat) => decide (s.takes who (keyDDC pipe)) && decide (s.six + 4096 ≤ (s.latch (keyDDC pipe) 0x0100 tag).sixArg) && decide ((s.latch (keyDDC pipe) 0x0100 tag).sixArg % 32 = 0) && decide (s.crossfading pipe = false) && decide (s.ddcCheck pipe = none) &&
      ran (exec (.ddcCommitAt who pipe tag) s) fun t => decide ((t.pendOf (keyDDC pipe)).map (·.due) = some (s.latch (keyDDC pipe) 0x0100 tag).sixArg ∧ (t.page (keyDDC pipe)).cmdStat = cmdStatWord tag phaseRUNNING 0 codeOK))
      ((up [keyDDC 2]).modPage (keyDDC 2) fun p => { p with a0 := 8192 }) (.host) (2) (3) = true := by decide +kernel

theorem wit_ChainAndInsetsComplete_2 :
    (fun (s : State) (who : Issuer) (pipe : Fin 6) (tag : Nat) => decide (s.takes who (keyINS pipe)) && decide (s.six + 4096 ≤ (s.latch (keyINS pipe) 0x0100 tag).sixArg) && decide ((s.latch (keyINS pipe) 0x0100 tag).sixArg % 32 = 0) && decide (s.insCheck pipe = none) &&
      ran (exec (.insCommitAt who pipe tag) s) fun t => decide ((t.pendOf (keyINS pipe)).map (·.due) = some (s.latch (keyINS pipe) 0x0100 tag).sixArg ∧ (t.page (keyINS pipe)).cmdStat = cmdStatWord tag phaseRUNNING 0 codeOK))
      ((up [keyINS 2]).modPage (keyINS 2) fun p => { p with a0 := 8192 }) (.host) (2) (3) = true := by decide +kernel

theorem wit_ChainAndInsetsComplete_3 :
    (fun (s : State) (pipe : Fin 6) (a : PendApply) => decide (s.pendOf (keyDDC pipe) = some a) && decide (a.empty = false) && decide (a.due < 2 ^ 72) &&
      ran (exec (.ddcApply pipe) s) fun t => decide (t.pendOf (keyDDC pipe) = none ∧ t.six3 (keyDDC pipe) 0x12C = a.due))
      ({ up [keyDDC 2] with pend := [(keyDDC 2, { due := 81920, words := [(0x100, 3)], byOp := true })] }) (2) ({ due := 81920, words := [(0x100, 3)], byOp := true }) = true := by decide +kernel

theorem wit_ChainAndInsetsComplete_4 :
    (fun (s : State) (pipe : Fin 6) (a : PendApply) => decide (s.pendOf (keyINS pipe) = some a) && decide (a.empty = false) &&
      ran (exec (.insApply pipe) s) fun t => decide (t.pendOf (keyINS pipe) = none ∧ t.reg (keyINS pipe) 0x124 = a.word (keyINS pipe) 0x100))
      ({ up [keyINS 2] with pend := [(keyINS 2, { due := 81920, words := [(0x100, 3)], byOp := true })] }) (2) ({ due := 81920, words := [(0x100, 3)], byOp := true }) = true := by decide +kernel

theorem wit_ChainAndInsetsComplete_5 :
    (fun (s : State) (pipe : Fin 6) => decide ((s.chain pipe).wantClean = true) && decide ((s.chain pipe).cleanSeen = true) &&
      ran (exec (.chainClean pipe) s) fun t => decide ((t.chain pipe).wantClean = false ∧ wbit (t.page (keyDDC pipe)).irq 18 = true))
      ((up [keyDDC 2]).modChain 2 fun c => { c with wantClean := true, cleanSeen := true }) (2) = true := by decide +kernel

theorem wit_ChainAndInsetsComplete_6 :
    (fun (s : State) (pipe : Fin 6) => decide (s.crossfading pipe = true) && decide ((s.chain pipe).xfLeft = 0) && decide ((s.chain pipe).target = none) &&
      ran (exec (.xfadeDone pipe none) s) fun t => decide (t.rf (keyDDC pipe) Reg.DDC_STAT.CFG_STATE = 0 ∧ wbit (t.page (keyDDC pipe)).irq 17 = true))
      ((up [keyDDC 2]).wf (keyDDC 2) Reg.DDC_STAT.CFG_STATE 2) (2) = true := by decide +kernel

theorem wit_ChainAndInsetsComplete_7 :
    (fun (s : State) (pipe : Fin 6) (n : Fin 64) => decide ((s.inset pipe n).xfLeft = 0) && decide ((s.inset pipe n).xfAt ≠ 0) && decide ((s.inset pipe n).target = none) &&
      ran (exec (.xfadeDone pipe (some n)) s) fun t => decide ((t.inset pipe n).xfAt = 0 ∧ wbit (t.page (keyINS pipe)).irq 17 = true))
      ((up [keyINS 2]).modInset 2 63 fun i => { i with xfAt := 64 }) (2) (63) = true := by decide +kernel

theorem wit_ChainAndInsetsComplete_8 :
    (fun (s : State) (who : Issuer) (pipe : Fin 6) (value : BitVec 32) => decide (s.honours who (keyDDC pipe)) && decide (10 ≤ wget value 4 0 ∧ wget value 4 0 ≤ 26) &&
      ran (exec (.dcCfgWrite who pipe value) s) fun t => decide (t.rf (keyDDC pipe) Reg.DDC_DC_CFG.SHIFT = wget value 4 0 ∧ t.rf (keyDDC pipe) Reg.DDC_DC_CFG.FREEZE = wget value 8 8))
      (up [keyDDC 2]) (.host) (2) (0x11A) = true := by decide +kernel

theorem wit_TransformAndGraticuleComplete_1 :
    (fun (s : State) (who : Issuer) (pipe : Fin 6) (tag : Nat) => decide (s.takes who (keyFFT pipe)) && decide (s.six + 4096 ≤ (s.latch (keyFFT pipe) 0x0100 tag).sixArg) && decide ((s.latch (keyFFT pipe) 0x0100 tag).sixArg % 32 = 0) && decide (s.fftCheck pipe = none) &&
      ran (exec (.fftCommitAt who pipe tag) s) fun t => decide ((t.pendOf (keyFFT pipe)).map (·.due) = some (s.latch (keyFFT pipe) 0x0100 tag).sixArg ∧ (t.page (keyFFT pipe)).cmdStat = cmdStatWord tag phaseRUNNING 0 codeOK))
      ((up [keyFFT 2]).modPage (keyFFT 2) fun p => { p with a0 := 8192 }) (.host) (2) (3) = true := by decide +kernel

theorem wit_TransformAndGraticuleComplete_2 :
    (fun (s : State) (pipe : Fin 6) (a : PendApply) => decide (s.pendOf (keyFFT pipe) = some a) && decide (a.empty = false) && decide (a.due < 2 ^ 72) &&
      ran (exec (.fftApply pipe) s) fun t => decide (t.pendOf (keyFFT pipe) = none ∧ t.six3 (keyFFT pipe) 0x130 = a.due))
      ({ up [keyFFT 2] with pend := [(keyFFT 2, { due := 81920, words := [(0x100, 3)], byOp := true })] }) (2) ({ due := 81920, words := [(0x100, 3)], byOp := true }) = true := by decide +kernel

theorem wit_TransformAndGraticuleComplete_3 :
    (fun (s : State) (pipe : Fin 6) (ws : List (Nat × Word)) (last : Nat) => decide (s.isActive (keyFFT pipe) = true) && decide (s.gangedSecond pipe = false) && decide (ws = s.fftWords pipe (s.engine pipe).nextStart) && decide (last = (s.engine pipe).nextStart + (wordsN pipe ws - 1) * s.labelP pipe) && decide (last < (s.chain pipe).nextLabel) && decide ((s.frameInputs pipe (s.engine pipe).nextStart last).length = wordsN pipe ws) && decide ((s.engine pipe).old = []))
      (((up [keyFFT 2]).modChain 2 fun c => { c with nextLabel := 1000, outs := (List.range 64).map fun i => (2 * i, (5, 7)) }).modPage (keyFFT 2) fun p => { p with applied := [(0x100, 6)] }) (2) ([(0x100, 6)]) (126) = true := by decide +kernel

theorem wit_TransformAndGraticuleComplete_4 :
    (fun (s : State) (pipe : Fin 6) => decide (s.isActive (keyGRT pipe) = true) && decide (s.accState pipe = accACC) &&
      ran (exec (.grtTick pipe) s) fun t => decide ((t.grat pipe).nextTick = (s.grat pipe).nextTick + 4096000))
      (((up [keyGRT 2]).wf (keyGRT 2) Reg.GRT_STAT.ACC_STATE 1).modGrat 2 fun g => { g with nextTick := 4096000 }) (2) = true := by decide +kernel

theorem wit_TransformAndGraticuleComplete_5 :
    (fun (s : State) (pipe : Fin 6) (b : Nat) => decide (s.isActive (keyGRT pipe) = true) && decide ((s.grat pipe).boundary = some b) && decide ((s.grat pipe).readout = none) && decide ((s.grat pipe).clearNext = false) &&
      ran (exec (.grtFrameBoundary pipe) s) fun t => decide ((t.grat pipe).cur = (s.grat pipe).next ∧ (t.grat pipe).openSix = b ∧ (t.grat pipe).readout.isSome = s.ab (keyGRT pipe) Reg.GRT_CFG.OUT_EN ∧ t.rf (keyGRT pipe) Reg.GRT_MAP_SEL.APPLIED = s.rf (keyGRT pipe) Reg.GRT_MAP_SEL.BANK))
      (((up [keyGRT 2]).wf (keyGRT 2) Reg.GRT_STAT.ACC_STATE 1).modGrat 2 fun g => { g with boundary := some 5000 }) (2) (5000) = true := by decide +kernel

theorem wit_TransformAndGraticuleComplete_6 :
    (fun (s : State) (pipe : Fin 6) (f : GrtFrame) => decide ((s.grat pipe).readout = some f) &&
      ran (exec (.grtReadoutDone pipe) s) fun t => decide ((t.grat pipe).readout = none ∧ wbit (t.page (keyGRT pipe)).irq 17 = true))
      (((up [keyGRT 2]).wf (keyGRT 2) Reg.GRT_STAT.ACC_STATE 1).modGrat 2 fun g => { g with readout := some { six := 0, hits := [], persist := [], flags := 0, intervals := 1, spectra := 0, excluded := 0, span := 0, bank := 0, thin := 0, flatId := 0, words := [], map := [] } }) (2) ({ six := 0, hits := [], persist := [], flags := 0, intervals := 1, spectra := 0, excluded := 0, span := 0, bank := 0, thin := 0, flatId := 0, words := [], map := [] }) = true := by decide +kernel

theorem wit_TransformAndGraticuleComplete_7 :
    (fun (s : State) (who : Issuer) (pipe : Fin 6) (tag : Nat) => decide (s.takes who (keyGRT pipe)) && decide (s.gangedSecond pipe = false) && decide (s.isActive (keyGRT pipe) = true) &&
      ran (exec (.clear who pipe tag) s) fun t => decide ((t.grat pipe).clearNext = true ∧ (t.page (keyGRT pipe)).cmdStat = cmdStatWord tag phaseRUNNING 0 codeOK))
      (up [keyGRT 2]) (.host) (2) (3) = true := by decide +kernel

theorem wit_TransformAndGraticuleComplete_8 :
    (fun (s : State) (pipe : Fin 6) (a : PendApply) => decide (s.pendOf (keyGRT pipe) = some a) && decide (a.empty = false) && decide (s.isActive (keyGRT pipe) = false) && decide (a.due ≤ ceilTo (s.af (keyGRT pipe) Reg.GRT_FRAME_PERIOD.US * sixPerUs) a.due) &&
      ran (exec (.grtApply pipe) s) fun t => decide (t.pendOf (keyGRT pipe) = none ∧ t.areg (keyGRT pipe) 0x100 = a.word (keyGRT pipe) 0x100))
      ({ up [] with pend := [(keyGRT 2, { due := 81920, words := [(0x100, 0x80000040)], byOp := true })] }) (2) ({ due := 81920, words := [(0x100, 0x80000040)], byOp := true }) = true := by decide +kernel

theorem wit_TransformAndGraticuleComplete_9 :
    (fun (s : State) (who : Issuer) (pipe : Fin 6) (value : BitVec 32) => decide (s.honours who (keyGRT pipe)) &&
      ran (exec (.grtMapSelWrite who pipe value) s) fun t => decide (t.rf (keyGRT pipe) Reg.GRT_MAP_SEL.BANK = wget value 0 0))
      (up [keyGRT 2]) (.host) (2) (1) = true := by decide +kernel

theorem wit_TriggerCommandsComplete_1 :
    (fun (s : State) (who : Issuer) (pipe : Fin 6) (tag : Nat) => decide (s.takes who (keyCTR pipe)) && decide (s.six + 4096 ≤ (s.latch (keyCTR pipe) 0x0100 tag).sixArg) && decide ((s.latch (keyCTR pipe) 0x0100 tag).sixArg % 32 = 0) && decide (s.ctrCheck pipe = none) &&
      ran (exec (.ctrCommitAt who pipe tag) s) fun t => decide ((t.pendOf (keyCTR pipe)).map (·.due) = some (s.latch (keyCTR pipe) 0x0100 tag).sixArg ∧ (t.page (keyCTR pipe)).cmdStat = cmdStatWord tag phaseRUNNING 0 codeOK))
      ((up [keyCTR 2]).modPage (keyCTR 2) fun p => { p with a0 := 8192 }) (.host) (2) (3) = true := by decide +kernel

theorem wit_TriggerCommandsComplete_2 :
    (fun (s : State) (who : Issuer) (pipe : Fin 6) (tag : Nat) => decide (s.takes who (keyTTR pipe)) && decide (s.six + 4096 ≤ (s.latch (keyTTR pipe) 0x0100 tag).sixArg) && decide ((s.latch (keyTTR pipe) 0x0100 tag).sixArg % 32 = 0) && decide (s.ttrCheck pipe = none) &&
      ran (exec (.ttrCommitAt who pipe tag) s) fun t => decide ((t.pendOf (keyTTR pipe)).map (·.due) = some (s.latch (keyTTR pipe) 0x0100 tag).sixArg ∧ (t.page (keyTTR pipe)).cmdStat = cmdStatWord tag phaseRUNNING 0 codeOK))
      ((up [keyTTR 2]).modPage (keyTTR 2) fun p => { p with a0 := 8192 }) (.host) (2) (3) = true := by decide +kernel

theorem wit_TriggerCommandsComplete_3 :
    (fun (s : State) (who : Issuer) (region : Fin 2) (tag : Nat) => decide (s.takes who (keyTRG region)) && decide (s.six + 4096 ≤ (s.latch (keyTRG region) 0x0100 tag).sixArg) && decide ((s.latch (keyTRG region) 0x0100 tag).sixArg % 32 = 0) && decide (s.trgCheck region = none) &&
      ran (exec (.trgCommitAt who region tag) s) fun t => decide ((t.pendOf (keyTRG region)).map (·.due) = some (s.latch (keyTRG region) 0x0100 tag).sixArg ∧ (t.page (keyTRG region)).cmdStat = cmdStatWord tag phaseRUNNING 0 codeOK))
      ((up [keyTRG 1]).modPage (keyTRG 1) fun p => { p with a0 := 8192 }) (.host) (1) (3) = true := by decide +kernel

theorem wit_TriggerCommandsComplete_4 :
    (fun (s : State) (pipe : Fin 6) (a : PendApply) => decide (s.pendOf (keyTTR pipe) = some a) && decide (a.empty = false) &&
      ran (exec (.triggerApply (Fin.ofNat 2 (pipe / 3)) (Fin.ofNat 1024 (keyTTR pipe))) s) fun t => decide (t.pendOf (keyTTR pipe) = none ∧ wbit (t.page (keyTTR pipe)).irq 16 = true))
      ({ up [keyTTR 2] with pend := [(keyTTR 2, { due := 81920, words := [(0x100, 3)], byOp := true })] }) (2) ({ due := 81920, words := [(0x100, 3)], byOp := true }) = true := by decide +kernel

theorem wit_TriggerCommandsComplete_5 :
    (fun (s : State) (who : Issuer) (region : Fin 2) (tag : Nat) => decide (s.takes who (keyTRG region)) && decide (s.gridPipes region = [3 * region]) && decide (wget (s.page (keyTRG region)).a0 0 0 = 1) &&
      ran (exec (.swTrig who region tag) s) fun t => decide ((t.trig (3 * region)).occs = (s.trig (3 * region)).occs ++ [{ src := 19, sample := ceilTo (s.labelP (3 * region)) s.six, six := ceilTo (s.labelP (3 * region)) s.six, fine := 0, at0 := ceilTo (s.labelP (3 * region)) s.six }] ∧ (t.page (keyTRG region)).cmdStat = cmdStatWord tag phaseDONE 0 codeOK))
      ((up [keyTRG 0, keyDDC 0]).modPage (keyTRG 0) fun p => { p with a0 := 7 }) (.host) (0) (3) = true := by decide +kernel

theorem wit_TriggerCommandsComplete_6 :
    (fun (s : State) (who : Issuer) (region : Fin 2) (tag : Nat) => decide (s.takes who (keyTRG region)) && decide (s.six + 4096 ≤ (s.latch (keyTRG region) 0x0102 tag).sixArg) &&
      ran (exec (.swTrigAt who region tag) s) fun t => decide ((t.page (keyTRG region)).op = some (s.latch (keyTRG region) 0x0102 tag) ∧ (t.page (keyTRG region)).cmdStat = cmdStatWord tag phaseRUNNING 0 codeOK))
      ((up [keyTRG 1]).modPage (keyTRG 1) fun p => { p with a0 := 8192 }) (.host) (1) (3) = true := by decide +kernel

theorem wit_TriggerCommandsComplete_7 :
    (fun (s : State) (region : Fin 2) (op : Op) => decide ((s.page (keyTRG region)).op = some op) && decide (op.opcode = 0x0102) && decide (op.suspended = false) &&
      ran (exec (.swTrigAtFire region) s) fun t => decide ((t.page (keyTRG region)).op = none ∧ (t.page (keyTRG region)).cmdStat = cmdStatWord op.tag phaseDONE 0 codeOK))
      ((up [keyTRG 0, keyDDC 0]).modPage (keyTRG 0) fun p => { p with op := some { opcode := 0x0102, tag := 9, a0 := 8192, a1 := 0, a2 := 0, a3 := 7, suspended := false } }) (0) ({ opcode := 0x0102, tag := 9, a0 := 8192, a1 := 0, a2 := 0, a3 := 7, suspended := false }) = true := by decide +kernel

theorem wit_TriggerCommandsComplete_8 :
    (fun (s : State) (input : Fin 7) (falling : Bool) (six fine heldNs : Nat) => decide (2 ≤ heldNs) && decide (extActive s 0 input falling = false) && decide (extActive s 1 input falling = false) &&
      ran (exec (.extTrigEdge input falling six fine heldNs) s) fun t => decide (t = s.advanceTo six))
      (up [keyTRG 0]) (0) (true) (500) (7) (2) = true := by decide +kernel

theorem wit_TriggerCommandsComplete_9 :
    (fun (s : State) (input : Fin 7) (falling : Bool) (six fine heldNs : Nat) => decide (2 ≤ heldNs) && decide (extActive s 0 input falling = true) && decide (nth none (s.trigOut 0).lastEdge input = none) && decide ((s.advanceTo six).gridPipes 0 = [0]) && decide (input.val < (s.trigOut 0).lastEdge.length) &&
      ran (exec (.extTrigEdge input falling six fine heldNs) s) fun t => decide ((t.trig 0).occs = (s.trig 0).occs ++ [{ src := 12 + input, sample := ceilTo ((s.advanceTo six).labelP 0) six, six := six, fine := fine, at0 := six }]))
      (up [keyTRG 0, keyDDC 0]) (6) (false) (500) (7) (2) = true := by decide +kernel

theorem wit_TriggerCommandsComplete_10 :
    (fun (s : State) (region : Fin 2) (six e : Nat) => decide ((s.trigOut region).outEnd = some e) && decide (e ≤ six) && decide (∀ k ∈ List.range 4, nth none (s.trigOut region).xtrigEnd k = none) &&
      ran (exec (.trigOutPulseEnd region six) s) fun t => decide ((t.trigOut region).outEnd = none ∧ t.out = s.out ++ [.trigOut region e false]))
      ((up []).modTrigOut 0 fun o => { o with outEnd := some 60 }) (0) (64) (60) = true := by decide +kernel

theorem wit_TriggerCommandsComplete_11 :
    (fun (s : State) (pipe : Fin 6) (ev : Fin 4) (u : Nat) => decide ((s.event pipe ev).st = .holdoff u) && decide (ev.val < (s.trig pipe).events.length) &&
      ran (exec (.holdoffEnd pipe ev) s) fun t => decide ((t.event pipe ev).st = .idle))
      ((up []).setEvent 2 1 { st := .holdoff 640, from0 := 0 }) (2) (1) (640) = true := by decide +kernel

theorem wit_TriggerCommandsComplete_12 :
    (fun (s : State) (pipe : Fin 6) (ev : Fin 4) (a : Nat) => decide ((s.event pipe ev).st = .armed a) && decide (s.nextSample pipe ev = none) && decide (ev.val < (s.trig pipe).events.length) &&
      ran (exec (.seqWindowExpiry pipe ev) s) fun t => decide ((t.event pipe ev).st = .idle ∧ t.rf (keyTRG (pipe / 3)) (Reg.TRG_EV_LOST.SEQ_EXPIRED (4 * (pipe % 3) + ev)) = min 65535 (s.rf (keyTRG (pipe / 3)) (Reg.TRG_EV_LOST.SEQ_EXPIRED (4 * (pipe % 3) + ev)) + 1)))
      ((up []).setEvent 2 1 { st := .armed 640, from0 := 0 }) (2) (1) (640) = true := by decide +kernel

theorem wit_EventsAndCaptureComplete_1 :
    (fun (s : State) (pipe : Fin 6) (ev : Fin 4) => decide (s.nextSample pipe ev = none) &&
      ran (exec (.eventEval pipe ev) s) fun t => decide (t = s))
      (up []) (2) (1) = true := by decide +kernel

theorem wit_EventsAndCaptureComplete_2 :
    (fun (s : State) (pipe : Fin 6) (ev : Fin 4) (x : Nat) => decide (s.nextSample pipe ev = some x) && decide (s.isActive (keyTRG (pipe / 3)) = true) && decide ((s.event pipe ev).st = .idle) && decide (ev.val < (s.trig pipe).events.length) && decide (s.evEn pipe ev = true) && decide (s.hasGrid pipe = true) && decide (s.evOp pipe ev = 0) && decide ((s.trig pipe).occMask (s.evA pipe ev) x ≠ 0) && decide (onlyExternal (s.evSources pipe ev) = false) &&
      ran (exec (.eventEval pipe ev) s) fun t => decide ((t.event pipe ev).st = (if s.evHoldoff pipe ev = 0 then .idle else .holdoff (x + 32 * s.evHoldoff pipe ev)) ∧ (t.event pipe ev).from0 = x + 1 ∧ wbit (t.page (keyTRG (pipe / 3))).irq (17 + (4 * (pipe % 3) + ev)) = true))
      (((up [keyTRG 0, keyDDC 2]).modPage (keyTRG 0) fun p => { p with applied := [(0x320, 1), (0x324, 1), (0x330, 4)] }).addOcc 2 { src := 0, sample := 640, six := 640, fine := 0, at0 := 640 }) (2) (1) (640) = true := by decide +kernel

theorem wit_EventsAndCaptureComplete_3 :
    (fun (s : State) (pipe : Fin 6) => decide (s.wrState pipe ≠ wrRUNNING) && decide ((s.chain pipe).fifo = []) &&
      ran (exec (.captureSample pipe) s) fun t => decide (t = s))
      (up []) (2) = true := by decide +kernel

theorem wit_EventsAndCaptureComplete_4 :
    (fun (s : State) (pipe : Fin 6) (c : ChainSample) (rest : List ChainSample) => decide ((s.chain pipe).fifo = c :: rest) && decide (s.wrState pipe = wrRUNNING) && decide ((s.capture pipe).resumeAt = none) && decide ((s.capture pipe).newEpoch = false) && decide (s.af (keyCAP pipe) Reg.CAP_CFG.FORMAT ≠ 0) && decide (s.ab (keyCAP pipe) Reg.CAP_CFG.POLICY = false) && decide (s.ab (keyCAP pipe) Reg.CAP_CFG.CHUNK_EN = false) && decide (s.oldestProtected pipe = none) && decide (s.capWc pipe + 1 < 2 ^ 64) &&
      ran (exec (.captureSample pipe) s) fun t => decide (t.capWc pipe = s.capWc pipe + 1 ∧ (t.chain pipe).fifo = rest))
      (((up [keyCAP 2]).wrEnter 2 wrRUNNING).modPage (keyCAP 2) (fun p => { p with applied := [(0x100, 0x10000)] }) |>.modChain 2 fun h => { h with fifo := [{ label := 6, i := 3, q := -4, marks := 0, src := 0 }] }) (2) ({ label := 6, i := 3, q := -4, marks := 0, src := 0 }) ([]) = true := by decide +kernel

theorem wit_EventsAndCaptureComplete_5 :
    (fun (s : State) (pipe : Fin 6) (h : Sheet) => decide ((s.capture pipe).sheets = [h]) && decide (h.ready = false) && decide (h.startWc + h.pre + h.post ≤ s.capWc pipe) &&
      ran (exec (.sheetReady pipe) s) fun t => decide ((t.capture pipe).sheets = [{ h with ready := true }] ∧ wbit (t.page (keyCAP pipe)).irq 17 = true))
      ((((up [keyCAP 2, keyRED 2]).modCapture 2 fun c => { c with sheets := [{ ev := 0, six := 0, fine := 0, mask := 1, missed := 0, startWc := 0, pre := 0, post := 8, protect := true, shortPre := false, overlap := false, ready := false, released := false, cut := false, origin := { first := 0, labelP := 2, decim := 0, bonded := false, ftw := 0, src := 0 } }] }).setPair (keyCAP 2) 0x128 8)) (2) ({ ev := 0, six := 0, fine := 0, mask := 1, missed := 0, startWc := 0, pre := 0, post := 8, protect := true, shortPre := false, overlap := false, ready := false, released := false, cut := false, origin := { first := 0, labelP := 2, decim := 0, bonded := false, ftw := 0, src := 0 } }) = true := by decide +kernel

theorem wit_EventsAndCaptureComplete_6 :
    (fun (s : State) (who : Issuer) (pipe : Fin 6) (tag : Nat) (h : Sheet) (rest : List Sheet) => decide (s.takes who (keyCAP pipe)) && decide (s.gangedSecond pipe = false) && decide ((s.capture pipe).sheets = h :: rest) && decide (h.ready = true) && decide (h.released = false) && decide (rest.head?.map (·.released) ≠ some true) && decide ((s.page (keyCAP pipe)).a0.toNat = s.rf (keyCAP pipe) Reg.CAP_SHEET_HEAD) && decide ((s.page (keyCAP pipe)).a1.toNat = h.startWc % 2 ^ 32) &&
      ran (exec (.releaseSheet who pipe tag) s) fun t => decide ((t.capture pipe).sheets = rest ∧ (t.page (keyCAP pipe)).cmdStat = cmdStatWord tag phaseDONE 0 codeOK))
      ((up [keyCAP 2, keyRED 2]).modCapture 2 fun c => { c with sheets := [{ ev := 0, six := 0, fine := 0, mask := 1, missed := 0, startWc := 0, pre := 0, post := 8, protect := true, shortPre := false, overlap := false, ready := true, released := false, cut := false, origin := { first := 0, labelP := 2, decim := 0, bonded := false, ftw := 0, src := 0 } }] }) (.host) (2) (3) ({ ev := 0, six := 0, fine := 0, mask := 1, missed := 0, startWc := 0, pre := 0, post := 8, protect := true, shortPre := false, overlap := false, ready := true, released := false, cut := false, origin := { first := 0, labelP := 2, decim := 0, bonded := false, ftw := 0, src := 0 } }) ([]) = true := by decide +kernel

theorem wit_EventsAndCaptureComplete_7 :
    (fun (s : State) (who : Issuer) (pipe : Fin 6) (tag : Nat) => decide (s.takes who (keyCAP pipe)) && decide (s.gangedSecond pipe = false) && decide (s.wrState pipe = wrSTOPPED) && decide (s.spaceFree pipe = true) &&
      ran (exec (.restart who pipe tag) s) fun t => decide (t.wrState pipe = wrRUNNING ∧ (t.page (keyCAP pipe)).cmdStat = cmdStatWord tag phaseDONE 0 codeOK))
      ((up [keyCAP 2]).wrEnter 2 wrSTOPPED) (.host) (2) (3) = true := by decide +kernel

theorem wit_EventsAndCaptureComplete_8 :
    (fun (s : State) (pipe : Fin 6) => decide (s.wrState pipe = wrSTOPPED) && decide (s.spaceFree pipe = true) && decide (s.ab (keyCAP pipe) Reg.CAP_CFG.AUTO_RESUME = true) && decide (s.isActive (keyCAP pipe) = true) &&
      ran (exec (.writerAutoResume pipe) s) fun t => decide (t.wrState pipe = wrRUNNING ∧ (t.capture pipe).newEpoch = true ∧ wbit (t.page (keyCAP pipe)).irq 19 = true))
      ((up [keyCAP 2]).wrEnter 2 wrSTOPPED) (2) = true := by decide +kernel

theorem wit_EventsAndCaptureComplete_9 :
    (fun (s : State) (pipe : Fin 6) (r : Record) (rest : List (Nat × Record)) => decide (s.isActive (keyRED pipe) = true) && decide ((s.capture pipe).queue = (0, r) :: rest) && decide ((s.capture pipe).lost = []) && decide (s.planeUsed pipe 0 + recordUnits r ≤ s.planeLen pipe 0) && decide (s.planeLen pipe 0 ≤ 2 ^ 30) &&
      ran (exec (.recordPlaneWrite pipe) s) fun t => decide (t.rf (keyRED pipe) (Reg.RED_RP_WR.OFFSET 0) = (s.rf (keyRED pipe) (Reg.RED_RP_WR.OFFSET 0) + recordUnits r) % s.planeLen pipe 0 ∧ (t.capture pipe).queue = rest))
      (((up [keyCAP 2, keyRED 2]).modCapture 2 fun c => { c with queue := [(0, { kind := 3, flags := 0, task := 0, source := 0, trigMask := 0, six := 0, fine := 0, pre := 0, post := 0, payload := [1] })] }).modPage (keyRED 2) fun p => { p with applied := [(0x208, 1)] }) (2) ({ kind := 3, flags := 0, task := 0, source := 0, trigMask := 0, six := 0, fine := 0, pre := 0, post := 0, payload := [1] }) ([]) = true := by decide +kernel

theorem wit_EventsAndCaptureComplete_10 :
    (fun (s : State) (who : Issuer) (pipe : Fin 6) (plane : Fin 3) (value : BitVec 32) => decide (s.honours who (keyRED pipe)) && decide (value.toNat < 2 ^ 30) && decide (value.toNat = s.rf (keyRED pipe) (Reg.RED_RP_WR.OFFSET plane)) && decide (value.toNat < s.planeLen pipe plane) &&
      ran (exec (.recordPlaneRdWrite who pipe plane value) s) fun t => decide (t.rf (keyRED pipe) (Reg.RED_RP_RD.OFFSET plane) = value.toNat))
      (((up [keyRED 2]).wf (keyRED 2) (Reg.RED_RP_WR.OFFSET 1) 5).modPage (keyRED 2) fun p => { p with applied := [(0x228, 1)] }) (.host) (2) (1) (5) = true := by decide +kernel

theorem wit_EventsAndCaptureComplete_11 :
    (fun (s : State) (pipe : Fin 6) (b : Nat) => decide (s.isActive (keyRED pipe) = true) && decide (s.ab (keyRED pipe) Reg.RED_CFG.TRACE_EN = true) && decide ((s.capture pipe).traceEnd = some b) &&
      ran (exec (.traceBoundary pipe) s) fun t => decide ((t.capture pipe).trace = (s.capture pipe).traceThen ∧ (t.capture pipe).traceStart = b))
      (((up [keyCAP 2, keyRED 2]).modCapture 2 fun c => { c with traceEnd := some 4000, trace := { pts := [{ log := -5, num := 1, den := 1, n := 1 }], n := 1, marks := 0 } }).modPage (keyRED 2) fun p => { p with applied := [(0x100, 4), (0x118, 64)] }) (2) (4000) = true := by decide +kernel

theorem wit_EventsAndCaptureComplete_12 :
    (fun (s : State) (pipe : Fin 6) (a : PendApply) => decide (s.pendOf (keyCAP pipe) = some a) && decide (a.empty = false) &&
      ran (exec (.capApply pipe) s) fun t => decide (t.pendOf (keyCAP pipe) = none ∧ wbit (t.page (keyCAP pipe)).irq 16 = true))
      ({ up [keyCAP 2] with pend := [(keyCAP 2, { due := 81920, words := [(0x100, 3)], byOp := true })] }) (2) ({ due := 81920, words := [(0x100, 3)], byOp := true }) = true := by decide +kernel

theorem wit_EventsAndCaptureComplete_13 :
    (fun (s : State) (pipe : Fin 6) (a : PendApply) => decide (s.pendOf (keyRED pipe) = some a) && decide (a.empty = false) && decide ((s.capture pipe).traceEnd = none) &&
      ran (exec (.redApply pipe) s) fun t => decide (t.pendOf (keyRED pipe) = none ∧ wbit (t.page (keyRED pipe)).irq 16 = true))
      ({ up [keyRED 2] with pend := [(keyRED 2, { due := 81920, words := [(0x100, 3)], byOp := true })] }) (2) ({ due := 81920, words := [(0x100, 3)], byOp := true }) = true := by decide +kernel

theorem wit_EventsAndCaptureComplete_14 :
    (fun (s : State) (pipe : Fin 6) (h : Sheet) => decide (s.ownerTask pipe 2 ≠ 0) && decide ((s.capture pipe).sheets = [h]) && decide (h.ready = true ∧ h.cut = false ∧ h.released = false) && decide (s.capWc pipe ≤ h.startWc + s.ringL pipe) && decide (s.ab (keyRED pipe) Reg.RED_CFG.CUT_ENV = false) && decide (s.ab (keyRED pipe) Reg.RED_CFG.CUT_POW = false) &&
      ran (exec (.sheetCut pipe) s) fun t => decide ((t.capture pipe).sheets = [{ h with cut := true }] ∧ t.readyRecs.map (·.from0) = s.readyRecs.map (·.from0) ++ [.sheet pipe h.startWc]))
      (((up [keyCAP 2, keyRED 2]).modCapture 2 fun c => { c with sheets := [{ ev := 0, six := 0, fine := 0, mask := 1, missed := 0, startWc := 0, pre := 0, post := 8, protect := true, shortPre := false, overlap := false, ready := true, released := false, cut := false, origin := { first := 0, labelP := 2, decim := 0, bonded := false, ftw := 0, src := 0 } }] }).setTask (task 7 2 .running [2])) (2) ({ ev := 0, six := 0, fine := 0, mask := 1, missed := 0, startWc := 0, pre := 0, post := 8, protect := true, shortPre := false, overlap := false, ready := true, released := false, cut := false, origin := { first := 0, labelP := 2, decim := 0, bonded := false, ftw := 0, src := 0 } }) = true := by decide +kernel

theorem wit_RingsAndSubmissionsComplete_1 :
    (fun (s : State) (count : BitVec 64) => decide (s.ringsOpen = true) && decide (count.toNat % 2 ^ 32 % 2 = 0) && decide (cnt32 s.phn.prod0 s.phn.cons0 ≤ cnt32 (count.toNat % 2 ^ 32) s.phn.cons0) && decide (cnt32 (count.toNat % 2 ^ 32) s.phn.cons0 ≤ s.ring0Len) &&
      ran (exec (.phnDoorbell count true) s) fun t => decide (t.phn.prod0 = count.toNat % 2 ^ 32))
      (ph) (256) = true := by decide +kernel

theorem wit_RingsAndSubmissionsComplete_2 :
    (fun (s : State) (count : BitVec 64) => decide (s.ringsOpen = true) && decide (cnt32 (count.toNat % 2 ^ 32) s.phn.cons1 ≤ cnt32 s.phn.prod1 s.phn.cons1) && decide (s.phn.notices = []) &&
      ran (exec (.phnCqDoorbell count) s) fun t => decide (t.phn.cons1 = count.toNat % 2 ^ 32))
      (ph.modPhn fun p => { p with prod1 := 3 }) (3) = true := by decide +kernel

theorem wit_RingsAndSubmissionsComplete_3 :
    (fun (s : State) (who : Issuer) (tag : Nat) => decide (s.takes who keyPHN) && decide (s.ringsOpen = false) && decide (s.ringGeometry 0x104 0x10C = true ∧ s.ringGeometry 0x110 0x118 = true) && decide (s.phn.notices = []) &&
      ran (exec (.openRings who tag) s) fun t => decide (t.ringsOpen = true ∧ t.phn.cons0 = 0 ∧ t.phn.prod1 = 0 ∧ (t.page keyPHN).cmdStat = cmdStatWord tag phaseDONE 0 codeOK))
      (up [keyPHN]) (.host) (7) = true := by decide +kernel

theorem wit_RingsAndSubmissionsComplete_4 :
    (fun (s : State) (who : Issuer) (tag : Nat) => decide (s.takes who keyPHN) && decide (s.ringsOpen = true) && decide (s.phn.held = none) &&
      ran (exec (.closeRings who tag) s) fun t => decide (t.ringsOpen = false ∧ wbit (t.page keyPHN).irq 16 = true ∧ (t.page keyPHN).cmdStat = cmdStatWord tag phaseDONE 0 codeOK))
      (ph) (.host) (7) = true := by decide +kernel

theorem wit_RingsAndSubmissionsComplete_5 :
    (fun (s : State) (entry : List Byte) (ext image : Option (List Byte)) (slot : Nat) (u x : Task) (gone : List Task) => decide (s.takesEntry opSUBMIT entry) && decide (s.freeTaskSlot = some slot) && decide ((s.takeHead opSUBMIT).describe s.liveTasks (newTask (s.nextGen slot * 4096 + slot) s.phn.arrivals entry) entry ext image = .ok u) && decide (((s.takeHead opSUBMIT).envOf s.liveTasks (s.nextGen slot * 4096 + slot)).admits u [] (cNO_EVICT entry) = (.fits x, gone)) && decide ((s.takeHead opSUBMIT).trgConflict s.liveTasks x = false) &&
      ran (exec (.submit entry ext image) s) fun t => decide ((t.task (s.nextGen slot * 4096 + slot)).map (·.st) = some .placed ∧ t.phn.evaluating = false))
      (ph) (entry 1 5 0 holdBody) (none) (none) (0) (match (ph.takeHead opSUBMIT).describe [] (newTask (ph.nextGen 0 * 4096 + 0) 0 (entry 1 5 0 holdBody)) (entry 1 5 0 holdBody) none none with | .ok x => x | .error _ => task 0 0 .done []) (match ((ph.takeHead opSUBMIT).envOf [] (ph.nextGen 0 * 4096 + 0)).admits (match (ph.takeHead opSUBMIT).describe [] (newTask (ph.nextGen 0 * 4096 + 0) 0 (entry 1 5 0 holdBody)) (entry 1 5 0 holdBody) none none with | .ok x => x | .error _ => task 0 0 .done []) [] false with | (.fits x, _) => x | _ => task 0 0 .done []) ([]) = true := by decide +kernel

theorem wit_RingsAndSubmissionsComplete_6 :
    (fun (s : State) (entry : List Byte) (ext image : Option (List Byte)) (k x : Task) => decide (s.takesEntry opMODIFY entry) && decide (s.task (cTASK entry) = some k) && decide (k.st = .suspended) && decide (modifyChange k.desc entry = none) && decide ((s.takeHead opMODIFY).describe (s.liveTasks.filter fun x => decide (x.id ≠ k.id)) k (keepPin k entry) ext image = .ok x) &&
      ran (exec (.modify entry ext image) s) fun t => decide (t.task k.id = some { x with pinned := x.pinned || k.pinned } ∧ t.phn.evaluating = false))
      (ph.setTask { task 4096 7 .suspended [] with desc := entry 1 5 0 holdBody }) (entry 2 6 4096 holdBody) (none) (none) ({ task 4096 7 .suspended [] with desc := entry 1 5 0 holdBody }) (match ((ph.setTask { task 4096 7 .suspended [] with desc := entry 1 5 0 holdBody }).takeHead opMODIFY).describe [] { task 4096 7 .suspended [] with desc := entry 1 5 0 holdBody } (keepPin { task 4096 7 .suspended [] with desc := entry 1 5 0 holdBody } (entry 2 6 4096 holdBody)) none none with | .ok x => x | .error _ => task 0 0 .done []) = true := by decide +kernel

theorem wit_RingsAndSubmissionsComplete_7 :
    (fun (s : State) (entry : List Byte) (ext image : Option (List Byte)) (a : Answer) => decide (s.takesEntry opPLAN entry) && decide (((s.takeHead opPLAN).plan entry ext image).2 = some a) && decide (a.phase = phaseDONE) &&
      ran (exec (.plan entry ext image) s) fun t => decide (t.phn.tasks = s.phn.tasks ∧ t.phn.prod1 = (s.phn.prod1 + 1) % 2 ^ 32 ∧ t.phn.evaluating = false))
      (ph) (entry 7 5 0 holdBody) (none) (none) (.done 0) = true := by decide +kernel

theorem wit_RingsAndSubmissionsComplete_8 :
    (fun (s : State) (entry : List Byte) (k : Task) => decide (s.takesEntry opTSUSPEND entry) && decide (s.task (cTASK entry) = some k) && decide (k.st = .placed ∨ k.st = .running) &&
      ran (exec (.taskSuspend entry) s) fun t => decide ((t.task k.id).map (·.st) = some .suspended ∧ t.phn.evaluating = false))
      (ph.setTask (task 4096 7 .running [])) (entry 3 6 4096 []) (task 4096 7 .running []) = true := by decide +kernel

theorem wit_RingsAndSubmissionsComplete_9 :
    (fun (s : State) (entry : List Byte) (k : Task) => decide (s.takesEntry opTSUSPEND entry) && decide (s.task (cTASK entry) = some k) && decide (k.st = .migrating) &&
      ran (exec (.taskSuspend entry) s) fun t => decide (t.phn.held.map (·.task) = some k.id ∧ t.phn.tasks = s.phn.tasks))
      (ph.setTask (task 4096 7 .migrating [])) (entry 3 6 4096 []) (task 4096 7 .migrating []) = true := by decide +kernel

theorem wit_RingsAndSubmissionsComplete_10 :
    (fun (s : State) (entry : List Byte) (k x : Task) (gone : List Task) => decide (s.takesEntry opTRESUME entry) && decide (s.task (cTASK entry) = some k) && decide (k.st = .suspended) && decide ((s.takeHead opTRESUME).inputConflict s.liveTasks k = false ∧ displayConflict s.liveTasks k = false) && decide (((s.takeHead opTRESUME).envOf s.liveTasks k.id).admits k [] (cNO_EVICT entry) = (.fits x, gone)) && decide ((s.takeHead opTRESUME).trgConflict s.liveTasks x = false) &&
      ran (exec (.taskResume entry) s) fun t => decide ((t.task k.id).map (fun y => (y.st, y.restart)) = some (.placed, true) ∧ t.phn.evaluating = false))
      (ph.setTask { task 4096 7 .suspended [] with desc := entry 1 5 0 holdBody }) (entry 4 6 4096 []) ({ task 4096 7 .suspended [] with desc := entry 1 5 0 holdBody }) (match ((ph.setTask { task 4096 7 .suspended [] with desc := entry 1 5 0 holdBody }).takeHead opTRESUME |>.envOf [{ task 4096 7 .suspended [] with desc := entry 1 5 0 holdBody }] 4096).admits { task 4096 7 .suspended [] with desc := entry 1 5 0 holdBody } [] false with | (.fits x, _) => x | _ => task 0 0 .done []) ([]) = true := by decide +kernel

theorem wit_RingsAndSubmissionsComplete_11 :
    (fun (s : State) (entry : List Byte) (k : Task) => decide (s.takesEntry opTCANCEL entry) && decide (s.task (cTASK entry) = some k) && decide (k.st = .placed ∨ k.st = .running ∨ k.st = .suspended) &&
      ran (exec (.taskCancel entry) s) fun t => decide ((t.task k.id).map (·.st) = some .cancelled ∧ t.phn.evaluating = false))
      (ph.setTask (task 4096 7 .running [])) (entry 5 6 4096 []) (task 4096 7 .running []) = true := by decide +kernel

theorem wit_RingsAndSubmissionsComplete_12 :
    (fun (s : State) (entry : List Byte) => decide (s.takesEntry opTQUERY entry) && decide (cTASK entry = 0) &&
      ran (exec (.taskQuery entry) s) fun t => decide (t.phn.tasks = s.phn.tasks ∧ t.phn.prod1 = (s.phn.prod1 + 1) % 2 ^ 32 ∧ t.phn.cons0 = (s.phn.cons0 + 2) % 2 ^ 32))
      (ph) (entry 6 6 0 []) = true := by decide +kernel

theorem wit_RingsAndSubmissionsComplete_13 :
    (fun (s : State) (entry : List Byte) (k : Task) => decide (s.takesEntry opTQUERY entry) && decide (cTASK entry ≠ 0) && decide (s.task (cTASK entry) = some k) &&
      ran (exec (.taskQuery entry) s) fun t => decide (t.phn.tasks = s.phn.tasks ∧ t.phn.prod1 = (s.phn.prod1 + 1) % 2 ^ 32))
      (ph.setTask (task 4096 7 .done [])) (entry 6 6 4096 []) (task 4096 7 .done []) = true := by decide +kernel

theorem wit_RingsAndSubmissionsComplete_14 :
    (fun (s : State) (entry : List Byte) (k : Task) => decide (s.takesEntry opPIN entry) && decide (s.task (cTASK entry) = some k) && decide (k.st = .placed ∨ k.st = .running ∨ k.st = .suspended) && decide (k.pinned = false) &&
      ran (exec (.pin entry) s) fun t => decide ((t.task k.id).map (·.pinned) = some true ∧ t.phn.prod1 = (s.phn.prod1 + 1) % 2 ^ 32))
      (ph.setTask (task 4096 1 .running [3])) (entry 8 6 4096 []) (task 4096 1 .running [3]) = true := by decide +kernel

theorem wit_RingsAndSubmissionsComplete_15 :
    (fun (s : State) (entry : List Byte) (k : Task) => decide (s.takesEntry opUNPIN entry) && decide (s.task (cTASK entry) = some k) && decide (k.st = .placed ∨ k.st = .running ∨ k.st = .suspended) && decide (k.pinned = true) &&
      ran (exec (.unpin entry) s) fun t => decide (t.task k.id = some { k with pinned := false } ∧ t.phn.prod1 = (s.phn.prod1 + 1) % 2 ^ 32))
      (ph.setTask { task 4096 1 .running [3] with pinned := true }) (entry 9 6 4096 []) ({ task 4096 1 .running [3] with pinned := true }) = true := by decide +kernel

theorem wit_RingsAndSubmissionsComplete_16 :
    (fun (s : State) (entry : List Byte) => decide (s.takesEntry opRESERVE entry) && decide (1 ≤ u16At entry 0x24 ∧ u16At entry 0x24 ≤ 16) && decide ((cKeys entry).all (fun k => ((s.takeHead opRESERVE).reserveError k).isNone) = true) && decide ((s.takeHead opRESERVE).reserveStuck (cKeys entry) = none) && decide (keyConvs (cKeys entry) = []) && decide (groupsOn s.holdingTasks (avoided (cKeys entry)) = []) && decide (s.phn.mig = none ∧ s.phn.migQueue = []) && decide (s.activating = false) &&
      ran (exec (.reserve entry) s) fun t => decide ((cKeys entry).all (fun k => t.isReserved k) = true ∧ t.phn.held = none ∧ t.phn.evaluating = false))
      (ph) (entry 10 6 0 (let k := keyDDC 0; [k % 256, k / 256, 0, 0, 1, 0])) = true := by decide +kernel

theorem wit_RingsAndSubmissionsComplete_17 :
    (fun (s : State) (entry : List Byte) => decide (s.takesEntry opRELEASE entry) && decide (1 ≤ u16At entry 0x24 ∧ u16At entry 0x24 ≤ 16) && decide ((cKeys entry).all (fun k => keyListed k && s.isReserved k) = true) &&
      ran (exec (.release entry) s) fun t => decide ((cKeys entry).all (fun k => !t.isReserved k) = true ∧ t.phn.evaluating = false))
      (ph.modPage (keyDDC 0) fun p => { p with owner := .host, before := some .phoin }) (entry 11 6 0 (let k := keyDDC 0; [k % 256, k / 256, 0, 0, 1, 0])) = true := by decide +kernel

theorem wit_RingsAndSubmissionsComplete_18 :
    (fun (s : State) (entry : List Byte) => decide (s.takesEntry opREBALANCE entry) &&
      ran (exec (.rebalance entry) s) fun t => decide (t.phn = ((s.takeHead opREBALANCE).rebalance entry).1.phn))
      (ph) (entry 12 6 0 []) = true := by decide +kernel

theorem wit_RingsAndSubmissionsComplete_19 :
    (fun (s : State) (entry : List Byte) => decide (s.takesEntry opREBALANCE entry) && decide (s.holdingTasks = []) && decide (s.phn.mig = none ∧ s.phn.migQueue = []) && decide (s.activating = false) &&
      ran (exec (.rebalance entry) s) fun t => decide (t.phn.tasks = s.phn.tasks ∧ t.phn.held = none ∧ t.phn.evaluating = false ∧ t.phn.prod1 = (s.phn.prod1 + 1) % 2 ^ 32))
      (ph) (entry 12 6 0 []) = true := by decide +kernel

theorem wit_TasksAndMigrationsComplete_1 :
    (fun (s : State) (id : BitVec 32) (image : Option (List Byte)) (k : Task) => decide (s.task id.toNat = some k) && decide (s.mayStart k = true) && decide (dTYPE k.desc = 7) &&
      ran (exec (.taskStart id image) s) fun t => decide ((t.task k.id).map (·.st) = some .running ∧ t.svy.holds.map (·.task) = s.svy.holds.map (·.task) ++ [k.id]))
      ((up []).setTask (task 4096 7 .placed [])) (4096) (none) (task 4096 7 .placed []) = true := by decide +kernel

theorem wit_TasksAndMigrationsComplete_2 :
    (fun (s : State) (id : BitVec 32) (image : Option (List Byte)) (k : Task) => decide (s.task id.toNat = some k) && decide (s.mayStart k = true) && decide (needsPipe k.desc = true) && decide (((s.advanceTo (s.startIndex k)).startOnPipes k).task k.id = some k) &&
      ran (exec (.taskStart id image) s) fun t => decide ((t.task k.id).map (·.st) = some .running))
      ((up (pagesOf (task 4096 1 .placed [0]))).setTask (task 4096 1 .placed [0])) (4096) (none) (task 4096 1 .placed [0]) = true := by decide +kernel

theorem wit_TasksAndMigrationsComplete_3 :
    (fun (s : State) (id : BitVec 32) (k : Task) => decide (s.task id.toNat = some k) && decide (k.st = .running) && decide (dDURATION k.desc ≠ 0) &&
      ran (exec (.taskDurationEnd id) s) fun t => decide ((t.task k.id).map (·.st) = some .done ∧ t.phn.tasks = ((s.advanceTo (k.startedAt + dDURATION k.desc)).endTask k.id .done codeOK 0).phn.tasks))
      ((up []).setTask { task 4096 7 .running [] with desc := putBytesAt (task 4096 7 .running []).desc 0x40 [9] }) (4096) ({ task 4096 7 .running [] with desc := putBytesAt (task 4096 7 .running []).desc 0x40 [9] }) = true := by decide +kernel

theorem wit_TasksAndMigrationsComplete_4 :
    (fun (s : State) (m : Migration) => decide (s.beginNext.phn.mig = some m) && decide (m.phase = .begun) &&
      ran (exec (.migrationTargetStart) s) fun t => decide (t.phn.mig = some { m with phase := .parallel, startAt := ceilTo 32 s.beginNext.six }))
      ((up []).modPhn fun p => { p with mig := some { cause := .rebalance, tasks := [4096], source := [0], target := [1], phase := .begun, startAt := 0, h := 96, tries := 0, retryAt := 500, goal := [], old := [] } }) ({ cause := .rebalance, tasks := [4096], source := [0], target := [1], phase := .begun, startAt := 0, h := 96, tries := 0, retryAt := 500, goal := [], old := [] }) = true := by decide +kernel

theorem wit_TasksAndMigrationsComplete_5 :
    (fun (s : State) (m : Migration) (six : Nat) => decide (s.phn.mig = some m) && decide (m.phase = .parallel) &&
      ran (exec (.migrationVerify true six) s) fun t => decide (t.phn.mig.map (·.phase) = some .verified ∧ t.phn.mig.map (·.tasks) = some m.tasks))
      ((up []).modPhn fun p => { p with mig := some { cause := .rebalance, tasks := [4096], source := [0], target := [1], phase := .parallel, startAt := 0, h := 96, tries := 0, retryAt := 500, goal := [], old := [] } }) ({ cause := .rebalance, tasks := [4096], source := [0], target := [1], phase := .parallel, startAt := 0, h := 96, tries := 0, retryAt := 500, goal := [], old := [] }) (640) = true := by decide +kernel

theorem wit_TasksAndMigrationsComplete_6 :
    (fun (s : State) (m : Migration) (six : Nat) => decide (s.phn.mig = some m) && decide (m.phase = .parallel) && decide (m.tries < 2) &&
      ran (exec (.migrationVerify false six) s) fun t => decide (t.phn.mig.map (fun x => (x.phase, x.tries)) = some (.retryWait, m.tries + 1)))
      ((up []).modPhn fun p => { p with mig := some { cause := .rebalance, tasks := [4096], source := [0], target := [1], phase := .parallel, startAt := 0, h := 96, tries := 0, retryAt := 500, goal := [], old := [] } }) ({ cause := .rebalance, tasks := [4096], source := [0], target := [1], phase := .parallel, startAt := 0, h := 96, tries := 0, retryAt := 500, goal := [], old := [] }) (640) = true := by decide +kernel

theorem wit_TasksAndMigrationsComplete_7 :
    (fun (s : State) (m : Migration) => decide (s.phn.mig = some m) && decide (m.phase = .verified) &&
      ran (exec (.migrationHandover) s) fun t => decide (t.phn.mig.map (·.phase) = some .handedOver))
      ((up []).modPhn fun p => { p with mig := some { cause := .rebalance, tasks := [4096], source := [0], target := [1], phase := .verified, startAt := 0, h := 96, tries := 0, retryAt := 500, goal := [], old := [] } }) ({ cause := .rebalance, tasks := [4096], source := [0], target := [1], phase := .verified, startAt := 0, h := 96, tries := 0, retryAt := 500, goal := [], old := [] }) = true := by decide +kernel

theorem wit_TasksAndMigrationsComplete_8 :
    (fun (s : State) (m : Migration) => decide (s.phn.mig = some m) && decide (m.phase = .handedOver) && decide (s.phn.migQueue = []) && decide (s.phn.held = none) &&
      ran (exec (.migrationRelease) s) fun t => decide (t.phn.mig = none ∧ (m.tasks.filterMap t.task).all (fun k => decide (k.st = .running)) = true ∧ t.phn = (s.migRelease m).phn))
      (((up []).setTask (task 4096 1 .migrating [1])).modPhn fun p => { p with mig := some { cause := .rebalance, tasks := [4096], source := [0], target := [1], phase := .handedOver, startAt := 0, h := 96, tries := 0, retryAt := 500, goal := [], old := [] } }) ({ cause := .rebalance, tasks := [4096], source := [0], target := [1], phase := .handedOver, startAt := 0, h := 96, tries := 0, retryAt := 500, goal := [], old := [] }) = true := by decide +kernel

theorem wit_TasksAndMigrationsComplete_9 :
    (fun (s : State) (m : Migration) (k : Task) (goal : List Task) => decide (s.phn.mig = some m) && decide (m.phase = .retryWait) && decide (m.cause = .rebalance) && decide ((m.tasks.filterMap s.task).find? (fun x => decide (x.st = .running)) = some k) && decide (((s.advanceTo m.retryAt).modPhn fun p => { p with mig := none }).goalOf m k = some goal) &&
      ran (exec (.migrationRetry) s) fun t => decide (t.phn.mig.map (fun x => (x.phase, x.tries)) = some (.begun, m.tries)))
      ((((up []).setTask { task 4096 1 .running [0] with desc := putBytesAt (task 4096 1 .running [0]).desc 0x24 [0x40, 255] }).modPhn fun p => { p with mig := some { cause := .rebalance, tasks := [4096], source := [0], target := [1], phase := .retryWait, startAt := 0, h := 96, tries := 0, retryAt := 500, goal := [], old := [] } })) ({ cause := .rebalance, tasks := [4096], source := [0], target := [1], phase := .retryWait, startAt := 0, h := 96, tries := 0, retryAt := 500, goal := [], old := [] }) ({ task 4096 1 .running [0] with desc := putBytesAt (task 4096 1 .running [0]).desc 0x24 [0x40, 255] }) (((((((up []).setTask { task 4096 1 .running [0] with desc := putBytesAt (task 4096 1 .running [0]).desc 0x24 [0x40, 255] }).modPhn fun p => { p with mig := some { cause := .rebalance, tasks := [4096], source := [0], target := [1], phase := .retryWait, startAt := 0, h := 96, tries := 0, retryAt := 500, goal := [], old := [] } }).advanceTo 500).modPhn fun p => { p with mig := none }).goalOf ({ cause := .rebalance, tasks := [4096], source := [0], target := [1], phase := .retryWait, startAt := 0, h := 96, tries := 0, retryAt := 500, goal := [], old := [] }) { task 4096 1 .running [0] with desc := putBytesAt (task 4096 1 .running [0]).desc 0x24 [0x40, 255] }).getD []) = true := by decide +kernel

theorem wit_TasksAndMigrationsComplete_10 :
    (fun (s : State) (page : Fin 8192) (p : Nat) => decide (keyPipes [page.val] = [p]) &&
      ran (exec (.predictiveFault page) s) fun t => decide (t.phn = (s.askMoves ((groupsOn s.holdingTasks [p]).map fun g => Migration.ask .predictive (g.map (·.id)) [] [])).phn))
      (up []) (Fin.ofNat 8192 (keyDDC 2)) (2) = true := by decide +kernel

theorem wit_SurveysComplete_1 :
    (fun (s : State) => decide (s.svy.run.isSome = true) &&
      ran (exec (.surveyDue) s) fun t => decide (t.rf keySVY Reg.SVY_QUEUE.DUE = ((s.allConvs.filter s.isDue).map (2 ^ ·)).sum))
      (((up [keySVY, keyADC 0, keyAFE 0, keyTRM 0]).modSvy fun v => { v with run := some { conv := 0, step := 4, deadline := 9, spare := false, hasTask := false, prevInput := 0, prevZone := 1, prevAtten := 2, pipe := 0, x := 0, y := 0, fin := none, trims := [], hold := none } })) = true := by decide +kernel

theorem wit_SurveysComplete_2 :
    (fun (s : State) (r : SurveyRun) => decide (s.svy.run = some r) && decide (r.step = 1) && decide (r.pipe = 6) && decide (r.hold = none) && decide (r.conv < 5) && decide ((s.envOf s.liveTasks 0).surveyPipe r.conv (s.svy.holds.flatMap (·.pipes)) = none) &&
      ran (exec (.surveyDeferredRetry) s) fun t => decide ((t.rf keySVY Reg.SVY_QUEUE.DEFERRED).testBit r.conv = true ∧ t.svy.run = some { r with pipe := 6 }))
      ((((up [keySVY, keyADC 0, keyAFE 0, keyTRM 0]).modSvy fun v => { v with run := some { conv := 0, step := 1, deadline := 9, spare := false, hasTask := false, prevInput := 0, prevZone := 1, prevAtten := 2, pipe := 6, x := 0, y := 0, fin := none, trims := [], hold := none } })).modSvy fun v => { v with holds := [{ task := 4096, convs := [1], pipes := [0, 1, 2], deadline := 9 }] }) ({ conv := 0, step := 1, deadline := 9, spare := false, hasTask := false, prevInput := 0, prevZone := 1, prevAtten := 2, pipe := 6, x := 0, y := 0, fin := none, trims := [], hold := none }) = true := by decide +kernel

theorem wit_SurveysComplete_3 :
    (fun (s : State) (r : SurveyRun) (power spur level : Int) (trims : List (Int × Int × Int × Int)) (crcs : List (BitVec 32)) => decide (s.svy.run = some r) && decide (s.surveyPaused = false) && decide (r.step = 5) && decide (r.fin = none) &&
      ran (exec (.surveyStepDone power spur level trims crcs) s) fun t => decide (t.svy.run.map (·.step) = some 6))
      (((up [keySVY, keyADC 0, keyAFE 0, keyTRM 0]).modSvy fun v => { v with run := some { conv := 0, step := 5, deadline := 9, spare := false, hasTask := false, prevInput := 0, prevZone := 1, prevAtten := 2, pipe := 0, x := 0, y := 0, fin := none, trims := [], hold := none } })) ({ conv := 0, step := 5, deadline := 9, spare := false, hasTask := false, prevInput := 0, prevZone := 1, prevAtten := 2, pipe := 0, x := 0, y := 0, fin := none, trims := [], hold := none }) (0) (0) (0) ([]) ([]) = true := by decide +kernel

theorem wit_SurveysComplete_4 :
    (fun (s : State) (r : SurveyRun) => decide (s.svy.run = some r) && decide (s.surveyPaused = false) && decide (2 ≤ r.step) && decide (r.step ≠ 8) && decide (r.spare = false) && decide (r.hasTask = false) && decide (r.fin = none) &&
      ran (exec (.surveyStepTimeout) s) fun t => decide (t.svy.run.map (fun x => (x.step, x.fin)) = some (8, some (codeTIMEOUT, subSTEP_TIMEOUT, r.step)) ∧ wbit (t.page keySVY).err 17 = true))
      (((up [keySVY, keyADC 0, keyAFE 0, keyTRM 0]).modSvy fun v => { v with run := some { conv := 0, step := 4, deadline := 9, spare := false, hasTask := false, prevInput := 0, prevZone := 1, prevAtten := 2, pipe := 0, x := 0, y := 0, fin := none, trims := [], hold := none } })) ({ conv := 0, step := 4, deadline := 9, spare := false, hasTask := false, prevInput := 0, prevZone := 1, prevAtten := 2, pipe := 0, x := 0, y := 0, fin := none, trims := [], hold := none }) = true := by decide +kernel

theorem wit_SurveysComplete_5 :
    (fun (s : State) (r : SurveyRun) => decide (s.svy.run = some r) && decide (r.step = 2) && decide (r.spare = false) && decide (r.hasTask = true) && decide (r.conv < 5) && decide (s.isStale r.conv = false) &&
      ran (exec (.staleBegin) s) fun t => decide (t.isStale r.conv = true))
      (((up [keySVY, keyADC 0, keyAFE 0, keyTRM 0]).modSvy fun v => { v with run := some { conv := 0, step := 2, deadline := 9, spare := false, hasTask := true, prevInput := 0, prevZone := 1, prevAtten := 2, pipe := 0, x := 32, y := 0, fin := none, trims := [], hold := none } })) ({ conv := 0, step := 2, deadline := 9, spare := false, hasTask := true, prevInput := 0, prevZone := 1, prevAtten := 2, pipe := 0, x := 32, y := 0, fin := none, trims := [], hold := none }) = true := by decide +kernel

theorem wit_SurveysComplete_6 :
    (fun (s : State) (r : SurveyRun) => decide (s.svy.run = some r) && decide (r.step = 8) && decide (r.y ≠ 0) && decide (r.conv < 5) && decide (s.isStale r.conv = true) &&
      ran (exec (.staleEnd) s) fun t => decide (t.isStale r.conv = false))
      ((((up [keySVY, keyADC 0, keyAFE 0, keyTRM 0]).modSvy fun v => { v with run := some { conv := 0, step := 8, deadline := 9, spare := false, hasTask := true, prevInput := 0, prevZone := 1, prevAtten := 2, pipe := 0, x := 32, y := 64, fin := none, trims := [], hold := none } })).setStale 0 true) ({ conv := 0, step := 8, deadline := 9, spare := false, hasTask := true, prevInput := 0, prevZone := 1, prevAtten := 2, pipe := 0, x := 32, y := 64, fin := none, trims := [], hold := none }) = true := by decide +kernel

theorem wit_SurveysComplete_7 :
    (fun (s : State) (conv : Fin 5) (at0 : Nat) => decide (mfind s.svy.requeue conv = some at0) && decide (s.svy.run.isSome = true) &&
      ran (exec (.surveyRequeue conv) s) fun t => decide (mfind t.svy.requeue conv = none ∧ t.svy.run = s.svy.run))
      ((((up [keySVY, keyADC 0, keyAFE 0, keyTRM 0]).modSvy fun v => { v with run := some { conv := 0, step := 4, deadline := 9, spare := false, hasTask := false, prevInput := 0, prevZone := 1, prevAtten := 2, pipe := 0, x := 0, y := 0, fin := none, trims := [], hold := none } })).modSvy fun v => { v with requeue := [(2, 64)] }) (2) (64) = true := by decide +kernel

theorem wit_SurveysComplete_8 :
    (fun (s : State) (conv : Fin 5) (at0 c : Nat) (hold : Option Nat) => decide (mfind s.svy.requeue conv = some at0) && decide (s.svy.run = none) && decide ((s.page keySVY).st ≠ .off) && decide ((((s.advanceTo at0).modSvy fun v => { v with requeue := mdel v.requeue conv }).refreshDue).nextSurvey = some (c, hold)) &&
      ran (exec (.surveyRequeue conv) s) fun t => decide (mfind t.svy.requeue conv = none ∧ t.svy.run.map (·.conv) = some c))
      (((((up [keySVY, keyADC 2, keyTRM 2, keyAFE 2]).modPage keySVY fun p => { p with st := .active }).setReg (keyADC 2) 0x104 0x3107).modSvy fun v => { v with requeue := [(2, 64)], startOrder := [2] })) (2) (64) ((((((((((up [keySVY, keyADC 2, keyTRM 2, keyAFE 2]).modPage keySVY fun p => { p with st := .active }).setReg (keyADC 2) 0x104 0x3107).modSvy fun v => { v with requeue := [(2, 64)], startOrder := [2] })).advanceTo 64).modSvy fun v => { v with requeue := mdel v.requeue 2 }).refreshDue).nextSurvey.getD (7, none)).1) (none) = true := by decide +kernel

theorem wit_SurveysComplete_9 :
    (fun (s : State) (task : BitVec 32) (h : CalHold) (k : Task) => decide (s.svy.holds.find? (fun h => decide (h.task = task.toNat)) = some h) && decide (s.task task.toNat = some k) && decide (k.st = .running) &&
      ran (exec (.holdExpiry task) s) fun t => decide ((t.task task.toNat).map (·.st) = some .done ∧ t.svy.holds.all (fun h => decide (h.task ≠ task.toNat)) = true))
      (((((up [keySVY, keyADC 0, keyAFE 0, keyTRM 0]).modSvy fun v => { v with run := some { conv := 0, step := 4, deadline := 9, spare := false, hasTask := false, prevInput := 0, prevZone := 1, prevAtten := 2, pipe := 0, x := 0, y := 0, fin := none, trims := [], hold := none } })).setTask (task 4096 7 .running [])).modSvy fun v => { v with holds := [{ task := 4096, convs := [0], pipes := [0], deadline := 9 }] }) (4096) ({ task := 4096, convs := [0], pipes := [0], deadline := 9 }) (task 4096 7 .running []) = true := by decide +kernel

theorem wit_SurveysComplete_10 :
    (fun (s : State) => decide (s.svy.store = .idle) && decide (s.rb keySVY Reg.SVY_BANK.STORE_PENDING = true) && decide (s.svy.lastStore + 7200000 * sixPerMs ≤ s.six) &&
      ran (exec (.calStoreStart) s) fun t => decide (t.svy.store = .data ∧ t.svy.lastStore = s.six ∧ t.rb keySVY Reg.SVY_BANK.STORE_ACTIVE = true))
      ({ (up [keySVY]).wb keySVY Reg.SVY_BANK.STORE_PENDING true with six := 7200000 * sixPerMs }) = true := by decide +kernel

theorem wit_SurveysComplete_11 :
    (fun (s : State) => decide (s.svy.store ≠ .idle) &&
      ran (exec (.calStoreDone true) s) fun t => decide (t.svy.store = .idle ∧ t.areaInUse = s.storeTarget ∧ t.rb keySVY Reg.SVY_BANK.STORE_ACTIVE = false ∧ t.rf keySVY Reg.SVY_BANK.STORE_CODE = codeOK))
      ((up [keySVY]).modSvy fun v => { v with store := .readBack }) = true := by decide +kernel

theorem wit_SurveysComplete_12 :
    (fun (s : State) => decide (s.svy.store ≠ .idle) &&
      ran (exec (.calStoreDone false) s) fun t => decide (t.svy.store = .idle ∧ t.areaInUse = s.areaInUse ∧ t.rf keySVY Reg.SVY_BANK.STORE_CODE = codeINTEGRITY ∧ t.rf keySVY Reg.SVY_BANK.STORE_SUB = subSTORE_VERIFY))
      ((up [keySVY]).modSvy fun v => { v with store := .readBack }) = true := by decide +kernel

theorem wit_SurveysComplete_13 :
    (fun (s : State) => decide (s.svy.store ≠ .idle) &&
      ran (exec (.calStoreTimeout) s) fun t => decide (t.svy.store = .idle ∧ t.rf keySVY Reg.SVY_BANK.STORE_CODE = codeTIMEOUT ∧ t.rf keySVY Reg.SVY_BANK.STORE_SUB = subSTORE_TIMEOUT))
      ((up [keySVY]).modSvy fun v => { v with store := .data }) = true := by decide +kernel

theorem wit_MemoryStacksComplete_1 :
    (fun (s : State) (stack : Fin 4) (pc : Fin 32) (r : MemReq) => decide (s.srState stack = srACTIVE) && decide ((s.stack stack).queue = []) && decide ((s.stack stack).throttled = []) && decide (s.liveTasks = []) && decide (r.bytes = none) && decide (r.cls < 4) && decide (s.reqChannel stack r = pc) && decide ((s.rankOf stack (addrLocal r.addr)).isSome = true) &&
      ran (exec (.memRequest stack pc [r] 0 0) s) fun t => decide (Output.memReply r.source r.addr (s.readLine r.addr).1 (s.readLine r.addr).2 ∈ t.out ∧ t.mem = s.mem))
      ((((up [keyMEM 1]).setReg (keyMEM 1) 0x134 1).setSlot 1 0 0 3)) (1) (3) ({ cls := 1, source := 5, addr := 2 ^ 35, bytes := none }) = true := by decide +kernel

theorem wit_MemoryStacksComplete_2 :
    (fun (s : State) (stack : Fin 4) (source u n : Nat) => decide (mfind (s.stack stack).throttled source = some (u, n)) &&
      ran (exec (.throttleEnd stack source) s) fun t => decide (mfind (t.stack stack).throttled source = none))
      (((up [keyMEM 1]).modStack 1 fun q => { q with throttled := [(5, 64, 32)] })) (1) (5) (64) (32) = true := by decide +kernel

theorem wit_MemoryStacksComplete_3 :
    (fun (s : State) (stack : Fin 4) => true &&
      ran (exec (.rhWindowStart stack) s) fun t => decide ((t.stack stack).acts = [] ∧ t.page (keyMEM stack) = (s.advanceTo ((s.six / 1310720000 + 1) * 1310720000)).page (keyMEM stack)))
      (((up [keyMEM 1]).modStack 1 fun q => { q with acts := [(3, [(5, 1)])] })) (1) = true := by decide +kernel

theorem wit_MemoryStacksComplete_4 :
    (fun (s : State) (stack : Fin 4) => decide (s.srState stack < 3) && decide (s.rb (keyMEM stack) Reg.MEM_REFRESH.HOT = false) && decide ((s.stack stack).queue.any (fun x => decide (x.2.cls = 0)) = true) && decide (s.rf (keyMEM stack) Reg.MEM_REFRESH.OWED < 8) &&
      ran (exec (.refreshInterval stack) s) fun t => decide (t.rf (keyMEM stack) Reg.MEM_REFRESH.OWED = s.rf (keyMEM stack) Reg.MEM_REFRESH.OWED + 1))
      (((up [keyMEM 1]).modStack 1 fun q => { q with queue := [(0, { cls := 0, source := 5, addr := 0, bytes := none })] })) (1) = true := by decide +kernel

theorem wit_MemoryStacksComplete_5 :
    (fun (s : State) (stack : Fin 4) (temp : BitVec 16) => true &&
      ran (exec (.memTempRefresh stack temp) s) fun t => decide (t.rf (keyMEM stack) Reg.MEM_TEMP.TEMP = temp.toNat ∧ t.rb (keyMEM stack) Reg.MEM_REFRESH.HOT = decide (85 * 16 < signedOf 16 temp.toNat)))
      (up [keyMEM 1]) (1) (1361) = true := by decide +kernel

theorem wit_MemoryStacksComplete_6 :
    (fun (s : State) (stack : Fin 4) => decide ((s.stack stack).bandNow ≠ s.rf (keyMEM stack) Reg.MEM_STAT.BAND) && decide ((s.stack stack).bandNow < 14) && decide ((s.stack stack).bandLeft = none) &&
      ran (exec (.tempBandChange stack) s) fun t => decide (t.rf (keyMEM stack) Reg.MEM_STAT.BAND = (s.stack stack).bandNow ∧ t.rb (keyMEM stack) Reg.MEM_TRAIN.PENDING = true))
      (((up [keyMEM 1]).modStack 1 fun q => { q with bandNow := 5 })) (1) = true := by decide +kernel

theorem wit_MemoryStacksComplete_7 :
    (fun (s : State) (stack : Fin 4) => decide (s.rb (keyMEM stack) Reg.MEM_TRAIN.PENDING = true) && decide (s.srState stack < 3) && decide (s.rb (keyMEM stack) Reg.MEM_REFRESH.HOT = true) && decide ((s.stack stack).delayCh < 15) &&
      ran (exec (.delayUpdate stack) s) fun t => decide ((t.stack stack).delayCh = (s.stack stack).delayCh + 1 ∧ (t.stack stack).delayAt = t.six))
      (((up [keyMEM 1]).wb (keyMEM 1) Reg.MEM_TRAIN.PENDING true).wb (keyMEM 1) Reg.MEM_REFRESH.HOT true) (1) = true := by decide +kernel

theorem wit_MemoryStacksComplete_8 :
    (fun (s : State) (stack : Fin 4) => decide (s.srState stack = srIDLE_WAIT) && decide (s.mayIdle stack = true) &&
      ran (exec (.srIdleExpiry stack) s) fun t => decide (t.srState stack = srENTERING))
      ((up [keyMEM 1]).srEnter 1 srIDLE_WAIT) (1) = true := by decide +kernel

theorem wit_MemoryStacksComplete_9 :
    (fun (s : State) (stack : Fin 4) => decide (s.srState stack = srENTERING) && decide (s.mayIdle stack = true) &&
      ran (exec (.srEntryCommand stack) s) fun t => decide (t.srState stack = srSELF_REFRESH ∧ t.rf (keyMEM stack) Reg.MEM_REFRESH.OWED = 0 ∧ wbit (t.page (keyMEM stack)).irq 17 = true))
      ((up [keyMEM 1]).srEnter 1 srENTERING) (1) = true := by decide +kernel

theorem wit_MemoryStacksComplete_10 :
    (fun (s : State) (stack : Fin 4) => decide (s.srState stack = srEXITING) &&
      ran (exec (.srExitDone stack) s) fun t => decide (t.rf (keyMEM stack) Reg.MEM_REFRESH.OWED = 0 ∧ wbit (t.page (keyMEM stack)).irq 18 = true ∧ t.srState stack < srENTERING))
      ((up [keyMEM 1]).srEnter 1 srEXITING) (1) = true := by decide +kernel

theorem wit_MemoryStacksComplete_11 :
    (fun (s : State) (stack : Fin 4) => decide (s.srState stack = srACTIVE) && decide (s.liveTasks = []) &&
      ran (exec (.scrubRead stack 0) s) fun t => decide ((t.stack stack).scrub = s.scrubLine stack (s.stack stack).scrub + 1 ∧ t.mem = s.mem))
      ((((up [keyMEM 1]).setReg (keyMEM 1) 0x134 1).setSlot 1 0 0 3)) (1) = true := by decide +kernel

theorem wit_MemoryStacksComplete_12 :
    (fun (s : State) (stack : Fin 4) => decide (s.rf (keyMEM stack) Reg.MEM_SPARE_STAT.STATE = 1) && decide ((s.stack stack).kept = []) && decide ((s.stack stack).outQueue = []) && decide (s.liveTasks = []) && decide (s.rf (keyMEM stack) Reg.MEM_SPARE_STAT.FAILED < 128) &&
      ran (exec (.spareCopyDone stack []) s) fun t => decide (t.sparing stack = false ∧ t.rankState stack (s.rf (keyMEM stack) Reg.MEM_SPARE_STAT.FAILED) = rankRETIRED ∧ wbit (t.page (keyMEM stack)).irq 16 = true))
      ((((up [keyMEM 1]).setReg (keyMEM 1) 0x134 1).setSlot 1 0 0 3).setSpare 1 40 0xFF 3 0 1) (1) = true := by decide +kernel

theorem wit_MemoryStacksComplete_13 :
    (fun (s : State) (stack : Fin 4) => decide (s.rf (keyMEM stack) Reg.MEM_SPARE_STAT.STATE = 2) && decide ((s.stack stack).outQueue = []) && decide (s.liveTasks = []) &&
      ran (exec (.layerFillDone stack) s) fun t => decide (t.sparing stack = false ∧ (t.stack stack).filling = none))
      (((((up [keyMEM 1]).setReg (keyMEM 1) 0x134 1).setSlot 1 0 0 3).setSpare 1 0xFF 0xFF 3 2 2).modStack 1 fun q => { q with filling := some 0 }) (1) = true := by decide +kernel

theorem wit_LinkFlitsAndRepairsComplete_1 :
    (fun (s : State) (port : Fin 14) (bytes : List (BitVec 8)) => decide (s.linkRuns (endKey port) = true) && decide (bytes.length = 64) && decide (s.flitHits (endKey port) bytes = [(false, (s.link (endKey port)).accepted)]) && decide (flitVc bytes = 1) && decide (nbit (byteAt bytes 0) 3 = true ∧ nbit (byteAt bytes 0) 4 = true) && decide (byteAt bytes 0 / 64 ≠ 0) &&
      ran (exec (.flitReceive port bytes []) s) fun t => decide ((t.link (endKey port)).inbox = (s.link (endKey port)).inbox ++ [(1, 1, (bytes.drop 2).take 60)] ∧ (t.link (endKey port)).accepted = (s.link (endKey port)).accepted + 1 ∧ (t.link (endKey port)).rxSlot = (s.link (endKey port)).rxSlot + 1))
      (((up [endKey 6, farEnd (endKey 6)]).wf (endKey 6) Reg.BXE_STAT.LINK_STATE linkACTIVE)) (6) (((leBytes (1 + 8 + 16 + 64) 2 ++ List.replicate 60 3) ++ leBytes (crc16 (flitSeed 0 false) (leBytes (1 + 8 + 16 + 64) 2 ++ List.replicate 60 3)) 2)) = true := by decide +kernel

theorem wit_LinkFlitsAndRepairsComplete_2 :
    (fun (s : State) (port : Fin 14) (n : Nat) (f : Flit) (rest : List (Nat × Flit)) => decide (s.linkRuns (endKey port) = true) && decide ((s.link (endKey port)).smp = []) && decide ((s.link (endKey port)).resend = (n, f) :: rest) &&
      ran (exec (.flitTransmit port) s) fun t => decide ((t.link (endKey port)).resend = rest ∧ (t.link (endKey port)).tseq = (s.link (endKey port)).tseq ∧ (t.link (endKey port)).txSlot = (s.link (endKey port)).txSlot + 1))
      ((((up [endKey 6, farEnd (endKey 6)]).wf (endKey 6) Reg.BXE_STAT.LINK_STATE linkACTIVE).modLink (endKey 6) fun l => { l with resend := [(0, { vc := 1, sop := true, eop := true, body := [3, 4] })], unacked := [(0, { vc := 1, sop := true, eop := true, body := [3, 4] })], tseq := 1 })) (6) (0) ({ vc := 1, sop := true, eop := true, body := [3, 4] }) ([]) = true := by decide +kernel

theorem wit_LinkFlitsAndRepairsComplete_3 :
    (fun (s : State) (port : Fin 14) (i : Nat) => decide (s.linkState (endKey port) = linkACTIVE) && decide ((s.link (endKey port)).smp = []) && decide ((s.link (endKey port)).resend = []) && decide ((s.link (endKey port)).lnk = []) && decide ((s.link (endKey port)).paramLeft = 0) && decide ((s.link (endKey port)).unacked.length < replayCap (endKey port)) && decide (s.pickPacket (endKey port) = some i) &&
      ran (exec (.flitTransmit port) s) fun t => decide ((t.link (endKey port)).tseq = (s.link (endKey port)).tseq + 1 ∧ (t.link (endKey port)).txSlot = (s.link (endKey port)).txSlot + 1))
      ((((up [endKey 6, farEnd (endKey 6)]).wf (endKey 6) Reg.BXE_STAT.LINK_STATE linkACTIVE).modLink (endKey 6) fun l => { l with advert := [64, 32, 64], tx := [{ vc := 1, source := 0, dst := 0, tag := 0, started := false, bytes := List.replicate 16 0, np := none }] })) (6) (0) = true := by decide +kernel

theorem wit_LinkFlitsAndRepairsComplete_4 :
    (fun (s : State) (port : Fin 14) (f : Nat × Flit) (rest : List (Nat × Flit)) => decide (s.linkRuns (endKey port) = true) && decide ((s.link (endKey port)).unacked = f :: rest) && decide ((s.link (endKey port)).replayFrom ≠ f.1) && decide (1 < s.rf (endKey port) Reg.BXE_THRESH1.REPLAY_LIMIT) &&
      ran (exec (.replayTimeout port) s) fun t => decide ((t.link (endKey port)).resend = (s.link (endKey port)).unacked.filter (fun x => decide (f.1 ≤ x.1)) ∧ (t.link (endKey port)).replayRow = 1))
      ((((up [endKey 6, farEnd (endKey 6)]).wf (endKey 6) Reg.BXE_STAT.LINK_STATE linkACTIVE).modLink (endKey 6) fun l => { l with unacked := [(1, { vc := 1, sop := true, eop := true, body := [3, 4] })] })) (6) ((1, { vc := 1, sop := true, eop := true, body := [3, 4] })) ([]) = true := by decide +kernel

theorem wit_LinkFlitsAndRepairsComplete_5 :
    (fun (s : State) (port : Fin 14) (lane token : Nat) (slotW : BitVec 32) => decide (s.linkState (endKey port) = linkACTIVE) && decide (lane < 128) && decide (wbit (s.reg (endKey port) (0x11C + 4 * (lane / 64))) (8 * (lane % 64 / 16) + 7) = false) &&
      ran (exec (.repairMessage port 1 lane token slotW) s) fun t => decide ((t.link (endKey port)).granted.map (fun g => (g.lane, g.token, g.slot)) = some (lane, token % 65536, slotW.toNat) ∧ t.out = s.out ++ [.sideband (endKey port) 2 lane (token % 65536) slotW.toNat]))
      (((up [endKey 6, farEnd (endKey 6)]).wf (endKey 6) Reg.BXE_STAT.LINK_STATE linkACTIVE)) (6) (37) (3) (5000) = true := by decide +kernel

theorem wit_LinkFlitsAndRepairsComplete_6 :
    (fun (s : State) (port : Fin 14) (lane : Nat) (slotW : BitVec 32) (r : Repair) => decide ((s.link (endKey port)).repair = some r) && decide (r.token < 65536) &&
      ran (exec (.repairMessage port 2 lane r.token slotW) s) fun t => decide ((t.link (endKey port)).repair = some { r with acked := true }))
      ((((up [endKey 6, farEnd (endKey 6)]).wf (endKey 6) Reg.BXE_STAT.LINK_STATE linkACTIVE).modLink (endKey 6) fun l => { l with repair := some { lane := 37, token := 3, slot := 5000, acked := false, byOp := false, hard := false } })) (6) (37) (5000) ({ lane := 37, token := 3, slot := 5000, acked := false, byOp := false, hard := false }) = true := by decide +kernel

theorem wit_LinkFlitsAndRepairsComplete_7 :
    (fun (s : State) (port : Fin 14) (r : Repair) => decide ((s.link (endKey port)).repair = some r) && decide (r.acked = false) &&
      ran (exec (.repairAckDeadline port) s) fun t => decide ((t.link (endKey port)).repair.map (fun x => (x.lane, x.token, x.acked)) = some (r.lane, (s.link (endKey port)).token % 65536, false)))
      ((((up [endKey 6, farEnd (endKey 6)]).wf (endKey 6) Reg.BXE_STAT.LINK_STATE linkACTIVE).modLink (endKey 6) fun l => { l with repair := some { lane := 37, token := 3, slot := 5000, acked := false, byOp := false, hard := false }, token := 4 })) (6) ({ lane := 37, token := 3, slot := 5000, acked := false, byOp := false, hard := false }) = true := by decide +kernel

theorem wit_LinkFlitsAndRepairsComplete_8 :
    (fun (s : State) (port : Fin 14) (r : Repair) => decide ((s.link (endKey port)).granted = none) && decide ((s.link (endKey port)).repair = some r) && decide (r.acked = true) && decide (r.byOp = false) && decide ((s.link (endKey port)).repairNext = []) &&
      ran (exec (.repairSwitch port) s) fun t => decide ((t.link (endKey port)).repair = none ∧ t.rb (endKey port) Reg.BXE_STAT.REPAIR_PENDING = false ∧ wbit (t.page (endKey port)).irq 16 = true))
      ((((up [endKey 6, farEnd (endKey 6)]).wf (endKey 6) Reg.BXE_STAT.LINK_STATE linkACTIVE).modLink (endKey 6) fun l => { l with repair := some { lane := 37, token := 3, slot := 5000, acked := true, byOp := false, hard := false } })) (6) ({ lane := 37, token := 3, slot := 5000, acked := true, byOp := false, hard := false }) = true := by decide +kernel

theorem wit_LinkFlitsAndRepairsComplete_9 :
    (fun (s : State) (port : Fin 14) => true &&
      ran (exec (.errorWindow port true) s) fun t => decide ((t.link (endKey port)).retrains = 0 ∧ (t.link (endKey port)).mismatch = []))
      ((((up [endKey 6, farEnd (endKey 6)]).wf (endKey 6) Reg.BXE_STAT.LINK_STATE linkACTIVE).modLink (endKey 6) fun l => { l with retrains := 2 })) (6) = true := by decide +kernel

theorem wit_LinkFlitsAndRepairsComplete_10 :
    (fun (s : State) (port : Fin 14) => true &&
      ran (exec (.errorWindow port false) s) fun t => decide ((t.link (endKey port)).bad = 0))
      ((((up [endKey 6, farEnd (endKey 6)]).wf (endKey 6) Reg.BXE_STAT.LINK_STATE linkACTIVE).modLink (endKey 6) fun l => { l with bad := 2 })) (6) = true := by decide +kernel

theorem wit_LinkFlitsAndRepairsComplete_11 :
    (fun (s : State) (port : Fin 14) => decide (s.linkState (endKey port) = linkACTIVE) && decide ((s.link (endKey port)).retrains + 1 < s.rf (endKey port) Reg.BXE_THRESH1.RETRAIN_LIMIT) &&
      ran (exec (.noFlitTimeout port) s) fun t => decide (t.linkState (endKey port) = linkRETRAIN ∧ t.linkState (farEnd (endKey port)) = linkRETRAIN))
      (((up [endKey 6, farEnd (endKey 6)]).wf (endKey 6) Reg.BXE_STAT.LINK_STATE linkACTIVE)) (6) = true := by decide +kernel

theorem wit_LinkStatesComplete_1 :
    (fun (s : State) (port : Fin 14) => decide ((s.page (endKey port)).st ≠ .off ∧ (s.page (farEnd (endKey port))).st ≠ .off) && decide ((s.page (endKey port)).enable = true ∧ (s.page (farEnd (endKey port))).enable = true) && decide (s.linkState (endKey port) = linkDOWN ∧ s.linkState (farEnd (endKey port)) = linkDOWN) &&
      ran (exec (.linkPowerOn port) s) fun t => decide (t.linkState (endKey port) = linkSB_INIT ∧ t.linkState (farEnd (endKey port)) = linkSB_INIT))
      (((up [endKey 6, farEnd (endKey 6)]).wf (endKey 6) Reg.BXE_STAT.LINK_STATE linkDOWN)) (6) = true := by decide +kernel

theorem wit_LinkStatesComplete_2 :
    (fun (s : State) (port : Fin 14) => decide (s.linkState (endKey port) = linkSB_INIT) &&
      ran (exec (.sidebandInitDone port) s) fun t => decide (t.linkState (endKey port) = linkMB_INIT))
      (((up [endKey 6, farEnd (endKey 6)]).wf (endKey 6) Reg.BXE_STAT.LINK_STATE linkSB_INIT)) (6) = true := by decide +kernel

theorem wit_LinkStatesComplete_3 :
    (fun (s : State) (port : Fin 14) => decide (s.linkState (endKey port) = linkMB_INIT) &&
      ran (exec (.mbInitDone port []) s) fun t => decide (t.linkState (endKey port) = linkMB_TRAIN))
      (((up [endKey 6, farEnd (endKey 6)]).wf (endKey 6) Reg.BXE_STAT.LINK_STATE linkMB_INIT)) (6) = true := by decide +kernel

theorem wit_LinkStatesComplete_4 :
    (fun (s : State) (port : Fin 14) => decide (s.linkState (endKey port) = linkMB_TRAIN) &&
      ran (exec (.mbTrainDone port) s) fun t => decide (t.linkState (endKey port) = linkLINK_INIT ∧ (t.link (endKey port)).tseq = 0 ∧ (t.link (endKey port)).accepted = 0 ∧ t.reg (endKey port) Reg.BXE_SLOT.off = 0))
      ((((up [endKey 6, farEnd (endKey 6)]).wf (endKey 6) Reg.BXE_STAT.LINK_STATE linkMB_TRAIN).modLink (endKey 6) fun l => { l with tseq := 7 })) (6) = true := by decide +kernel

theorem wit_LinkStatesComplete_5 :
    (fun (s : State) (port : Fin 14) (b : List Byte) => decide (s.linkState (endKey port) = linkLINK_INIT) && decide ((s.link (endKey port)).paramOk = false) && decide ((s.link (endKey port)).lnkIn.find? (fun b => decide (byteAt b 0 = 2)) = some b) && decide (paramGood (endKey port) b = true) &&
      ran (exec (.paramReceive port) s) fun t => decide ((t.link (endKey port)).paramOk = true ∧ (t.link (endKey port)).advert = [u16At b 6, u16At b 8, u16At b 10]))
      ((((up [endKey 6, farEnd (endKey 6)]).wf (endKey 6) Reg.BXE_STAT.LINK_STATE linkLINK_INIT).modLink (endKey 6) fun l => { l with lnkIn := [(leBytes 2 2 ++ leBytes 0 1 ++ leBytes 2 1 ++ leBytes 1 2 ++ leBytes 64 2 ++ leBytes 32 2 ++ leBytes 64 2 ++ leBytes 1024 2 ++ leBytes 256 2 ++ leBytes 2 1 ++ List.replicate 50 0)] })) (6) ((leBytes 2 2 ++ leBytes 0 1 ++ leBytes 2 1 ++ leBytes 1 2 ++ leBytes 64 2 ++ leBytes 32 2 ++ leBytes 64 2 ++ leBytes 1024 2 ++ leBytes 256 2 ++ leBytes 2 1 ++ List.replicate 50 0)) = true := by decide +kernel

theorem wit_LinkStatesComplete_6 :
    (fun (s : State) (port : Fin 14) (b : List Byte) => decide (s.linkState (endKey port) = linkALIGN) && decide ((s.link (endKey port)).lnkIn.find? (fun b => decide (byteAt b 0 = 3)) = some b) &&
      ran (exec (.alignFlit port) s) fun t => decide (t.linkState (endKey port) = linkACTIVE ∧ (t.link (endKey port)).smpRx = 4 * u16At b 2))
      ((((up [endKey 6, farEnd (endKey 6)]).wf (endKey 6) Reg.BXE_STAT.LINK_STATE linkALIGN).modLink (endKey 6) fun l => { l with lnkIn := [(leBytes 3 2 ++ leBytes 0 4 ++ leBytes 320 8 ++ leBytes 0 1 ++ leBytes 48 1 ++ List.replicate 44 0)] })) (6) ((leBytes 3 2 ++ leBytes 0 4 ++ leBytes 320 8 ++ leBytes 0 1 ++ leBytes 48 1 ++ List.replicate 44 0)) = true := by decide +kernel

theorem wit_LinkStatesComplete_7 :
    (fun (s : State) (port : Fin 14) => decide (s.linkState (endKey port) = linkLINK_INIT ∨ s.linkState (endKey port) = linkRETRAIN) &&
      ran (exec (.linkStateTimeout port) s) fun t => decide (t.linkState (endKey port) = linkFAULT))
      (((up [endKey 6, farEnd (endKey 6)]).wf (endKey 6) Reg.BXE_STAT.LINK_STATE linkRETRAIN)) (6) = true := by decide +kernel

theorem wit_LinkStatesComplete_8 :
    (fun (s : State) (who : Issuer) (port : Fin 14) (tag : Nat) => decide (s.takes who (endKey port)) && decide (s.linkState (endKey port) = linkFAULT) &&
      ran (exec (.retrain who port tag) s) fun t => decide (t.linkState (endKey port) = linkMB_INIT ∧ t.linkState (farEnd (endKey port)) = linkMB_INIT))
      (((up [endKey 6, farEnd (endKey 6)]).wf (endKey 6) Reg.BXE_STAT.LINK_STATE linkFAULT)) (.host) (6) (4) = true := by decide +kernel

theorem wit_LinkStatesComplete_9 :
    (fun (s : State) (port : Fin 14) => decide (s.linkState (endKey port) = linkRETRAIN) &&
      ran (exec (.retrainDone port []) s) fun t => decide (t.linkState (endKey port) = (if s.linkSamples (endKey port) = true then linkALIGN else linkACTIVE) ∧ (t.link (endKey port)).rxSlot = 0))
      (((up [endKey 6, farEnd (endKey 6)]).wf (endKey 6) Reg.BXE_STAT.LINK_STATE linkRETRAIN)) (6) = true := by decide +kernel

theorem wit_LinkStatesComplete_10 :
    (fun (s : State) (who : Issuer) (port : Fin 14) (tag : Nat) => decide (s.takes who (endKey port)) && decide (s.linkState (endKey port) = linkACTIVE) && decide ((s.link (endKey port)).repair = none) && decide ((s.page (endKey port)).a0.toNat % 128 < 64) && decide (s.rmapRx (endKey port) ((s.page (endKey port)).a0.toNat % 128) < 128) &&
      ran (exec (.repair who port tag) s) fun t => decide ((t.link (endKey port)).repair.map (·.lane) = some ((s.page (endKey port)).a0.toNat % 128) ∧ t.rb (endKey port) Reg.BXE_STAT.REPAIR_PENDING = true))
      (((up [endKey 6, farEnd (endKey 6)]).wf (endKey 6) Reg.BXE_STAT.LINK_STATE linkACTIVE).modPage (endKey 6) fun p => { p with a0 := 37 }) (.host) (6) (4) = true := by decide +kernel

theorem wit_LinkStatesComplete_11 :
    (fun (s : State) (link : Fin 7) => true &&
      ran (exec (.linkFault link) s) fun t => decide (t.linkState (if link.val < 4 then keyOf (3 + link.val) 0x3F0 else keyOf 0 (0x3F0 + (link.val - 4))) = linkFAULT ∧ t.isolated (if link.val < 4 then 3 + link.val else if link.val = 4 then 7 else link.val - 4) = true))
      (up [keyOf 3 0x3F0, keyOf 1 0x3F0, keyFLT]) (0) = true := by decide +kernel

theorem wit_TransactionsComplete_1 :
    (fun (s : State) (port : Fin 14) (flits : Nat) (b : List Byte) (rest : List (Nat × Nat × List Byte)) (e : TagEntry) => decide ((s.link (endKey port)).fenced = false) && decide ((s.link (endKey port)).inbox = (3, flits, b) :: rest) && decide (pTYPE (b.take (pBytes b)) = 0x20 ∨ pTYPE (b.take (pBytes b)) = 0x21) && decide ((s.link (endKey port)).tags.find? (fun e => decide (e.tag = pTAG (b.take (pBytes b))) && !e.quarantined) = some e) && decide (e.from0 = none) &&
      ran (exec (.packetReceive port) s) fun t => decide ((t.link (endKey port)).inbox = rest ∧ (t.link (endKey port)).tags = (s.link (endKey port)).tags.filter (fun x => decide (x.tag ≠ e.tag)) ∧ t.out = s.out ++ [.completion e.source (pSPACE (b.take (pBytes b))) (pPOISON (b.take (pBytes b))) ((b.take (pBytes b)).drop 16)]))
      ((((up [endKey 6, farEnd (endKey 6)]).wf (endKey 6) Reg.BXE_STAT.LINK_STATE linkACTIVE).modLink (endKey 6) fun l => { l with inbox := [(3, 2, (completionBytes 3 0x2400 7 0 1 1 false (List.replicate 64 9)))], tags := [{ tag := 7, source := 3, rtype := 0x10, space := 0, addr := 64, lines := 1, from0 := none, sentAt := 0, quarantined := false }] })) (6) (2) ((completionBytes 3 0x2400 7 0 1 1 false (List.replicate 64 9))) ([]) ({ tag := 7, source := 3, rtype := 0x10, space := 0, addr := 64, lines := 1, from0 := none, sentAt := 0, quarantined := false }) = true := by decide +kernel

theorem wit_TransactionsComplete_2 :
    (fun (s : State) (port : Fin 14) (tag : Fin 4096) (source : BitVec 16) (space : Fin 4) (addr : BitVec 64) (e : TagEntry) => decide ((s.link (endKey port)).tags.find? (fun e => decide (e.tag = tag.val)) = some e) && decide (e.quarantined = false) && decide (e.from0 = none) && decide (e.rtype ≠ 0x12) &&
      ran (exec (.npTimeout port tag source space addr) s) fun t => decide (Output.completion e.source 4 true (List.replicate (64 * e.lines) 0) ∈ t.out ∧ wbit (t.page (endKey port)).err 22 = true))
      ((((up [endKey 6, farEnd (endKey 6)]).wf (endKey 6) Reg.BXE_STAT.LINK_STATE linkACTIVE).modLink (endKey 6) fun l => { l with tags := [{ tag := 7, source := 3, rtype := 0x10, space := 0, addr := 64, lines := 1, from0 := none, sentAt := 0, quarantined := false }] })) (6) (7) (3) (0) (64) ({ tag := 7, source := 3, rtype := 0x10, space := 0, addr := 64, lines := 1, from0 := none, sentAt := 0, quarantined := false }) = true := by decide +kernel

theorem wit_TransactionsComplete_3 :
    (fun (s : State) (port : Fin 14) (tag : Fin 4096) (e : TagEntry) => decide ((s.link (endKey port)).tags.find? (fun e => decide (e.tag = tag.val) && e.quarantined) = some e) &&
      ran (exec (.tagQuarantineEnd port tag) s) fun t => decide ((t.link (endKey port)).tags = (s.link (endKey port)).tags.filter (fun x => decide (x.tag ≠ tag.val))))
      ((((up [endKey 6, farEnd (endKey 6)]).wf (endKey 6) Reg.BXE_STAT.LINK_STATE linkACTIVE).modLink (endKey 6) fun l => { l with tags := [{ tag := 7, source := 3, rtype := 0x10, space := 0, addr := 64, lines := 1, from0 := none, sentAt := 0, quarantined := true }] })) (6) (7) ({ tag := 7, source := 3, rtype := 0x10, space := 0, addr := 64, lines := 1, from0 := none, sentAt := 0, quarantined := true }) = true := by decide +kernel

theorem wit_TransactionsComplete_4 :
    (fun (s : State) (index : Fin 65536) (bytes : List Byte) (h : HostRead) => decide (s.hostReads[index.val]? = some h) && decide (h.from0 = none) && decide (s.six < h.sentAt + npTimeout 2) &&
      ran (exec (.hostReadCompletion index true bytes) s) fun t => decide (t.hostReads = s.hostReads.eraseIdx index.val ∧ t.out = s.out ++ [.completion h.source 0 false ((bytes ++ List.replicate (64 * h.lines) 0).take (64 * h.lines))]))
      ({ up [] with hostReads := [{ source := 0x100, addr := 64, lines := 1, from0 := none, tag := 7, sentAt := 0 }] }) (0) (List.replicate 64 5) ({ source := 0x100, addr := 64, lines := 1, from0 := none, tag := 7, sentAt := 0 }) = true := by decide +kernel

theorem wit_TransactionsComplete_5 :
    (fun (s : State) (source : BitVec 16) (chan : Fin 512) (value : BitVec 32) => decide (source ≠ 0x100) && decide (s.pageOff (chanKey chan) = false) && decide (s.chanState chan = chIDLE) &&
      ran (exec (.msgDoorbell source (BitVec.ofNat 64 (chan.val + value.toNat * 2 ^ 32))) s) fun t => decide (wbit (t.page (chanKey chan)).err 18 = true))
      (up [chanKey 5]) (0x1234) (5) (1) = true := by decide +kernel

theorem wit_TransactionsComplete_6 :
    (fun (s : State) (source : BitVec 16) (arg0 : BitVec 64) (v : Nat) => decide (bitsOf arg0.toNat 31 16 ≠ 0) && decide ((s.page (arg0.toNat % 2 ^ 13)).owner = .host) && decide (s.vectorOf (arg0.toNat % 2 ^ 13) = some v) && decide (s.msixMasked v = false) &&
      ran (exec (.msgIntr source arg0) s) fun t => decide (t.out = s.out ++ [.msix v (s.msixWord v 0) (s.msixWord v 1) (s.msixWord v 2)]))
      ({ (up [keyFLT]).modPage keyFLT fun p => { p with owner := .host } with msixTable := mput (mput (mput [] 0 0xFEE00000) 2 0x41) 3 0, pcieCfg := [] }) (0x1234) (BitVec.ofNat 64 (0x10000 + keyFLT)) (0) = true := by decide +kernel

theorem wit_TransactionsComplete_7 :
    (fun (s : State) (source : BitVec 16) (arg0 : BitVec 64) (line : List Byte) => decide (s.log.length < 4096) &&
      ran (exec (.msgFault source arg0 line) s) fun t => decide (t.log.map (fun e => (e.source, e.level, e.kind)) = s.log.map (fun e => (e.source, e.level, e.kind)) ++ [(source.toNat, bitsOf arg0.toNat 17 16 + 1, 2)]))
      (up [keyFLT]) (0x3800) (BitVec.ofNat 64 (0x10000 + keyADC 0)) ([]) = true := by decide +kernel

theorem wit_TransactionsComplete_8 :
    (fun (s : State) (source : BitVec 16) (arg0 : BitVec 64) (line : List Byte) => decide (s.log.length < 4096) &&
      ran (exec (.msgEvent source arg0 line) s) fun t => decide (t.log.map (fun e => (e.source, e.level, e.kind)) = s.log.map (fun e => (e.source, e.level, e.kind)) ++ [(source.toNat, 0, 1)]))
      (up [keyFLT]) (0x3800) (BitVec.ofNat 64 (keyADC 0)) ([]) = true := by decide +kernel

theorem wit_TransactionsComplete_9 :
    (fun (s : State) (source : BitVec 16) (arg0 : BitVec 64) => true &&
      ran (exec (.msgFence source arg0) s) fun t => decide ((regionEnds (arg0.toNat % 16)).all (fun k => (t.link k).fenced) = true))
      (up []) (0x3800) (3) = true := by decide +kernel

theorem wit_TransactionsComplete_10 :
    (fun (s : State) (region : Fin 8) (source : BitVec 16) (arg0 : BitVec 64) => decide (region.val = 1 ∨ region.val = 2) && decide (arg0.toNat % 2 ^ 32 ≠ 0xFFFFFFFF) &&
      ran (exec (.msgLtr region source arg0) s) fun t => decide (mfind (t.stack (2 * (region.val - 1))).tolerances source.toNat = some (arg0.toNat % 2 ^ 32) ∧ mfind (t.stack (2 * (region.val - 1) + 1)).tolerances source.toNat = some (arg0.toNat % 2 ^ 32)))
      (up [keyMEM 0, keyMEM 1]) (1) (0x120) (20000) = true := by decide +kernel

theorem wit_TransactionsComplete_11 :
    (fun (s : State) (region : Fin 8) => decide (region ≠ 0) && decide (s.isolated region = false) &&
      ran (exec (.regionIsolation region) s) fun t => decide (t.isolated region = true ∧ ∀ k ∈ regionEnds region, (t.link k).fenced = true))
      (up []) (3) = true := by decide +kernel

theorem wit_TransactionsComplete_12 :
    (fun (s : State) => decide (s.guest = true) && decide (s.domainOn 4 = true ∨ s.domainOn 9 = true) &&
      ran (exec (.guestOvercurrent) s) fun t => decide (t.isolated 7 = true ∧ t.domainOn 4 = false ∧ t.domainOn 9 = false))
      ({ (up []).wf keyPWR Reg.PWR_DOMAINS.MAP 0x210 with guest := true }) = true := by decide +kernel

theorem wit_TraversesComplete_1 :
    (fun (s : State) (who : Issuer) (chan : Fin 512) => decide (s.honours who (chanKey chan)) && decide (s.shBusy chan = false) && decide (s.chanState chan = chIDLE) && decide ((s.chan chan).act = none) && decide (s.tCheck chan (s.shBytes chan) = 0) &&
      ran (exec (.trvCommit who chan) s) fun t => decide ((t.chan chan).act = some { bytes := s.shBytes chan, addr := none } ∧ t.chanState chan = chRUNNING))
      (((((up [chanKey 5]).chanEnter 5 chIDLE)).fillShadow 5 (leBytes 0x1000 8 ++ leBytes 0x2000 8 ++ leBytes 64 4 ++ leBytes 1 4 ++ leBytes 1 4 ++ leBytes 1 4 ++ List.replicate 80 0 ++ leBytes 3 4 ++ List.replicate 12 0))) (.host) (5) = true := by decide +kernel

theorem wit_TraversesComplete_2 :
    (fun (s : State) (who : Issuer) (chan : Fin 512) => decide (s.honours who (chanKey chan)) && decide (s.chanState chan = chIDLE) &&
      ran (exec (.trvStartChain who chan) s) fun t => decide (t.chanState chan = chRUNNING ∧ (t.chan chan).fetch = some (.desc (nbit (s.pair (chanKey chan) (Reg.TRV_CHAIN_LO.ADDR (chan.val % 16)).off) 0) (s.pair (chanKey chan) (Reg.TRV_CHAIN_LO.ADDR (chan.val % 16)).off % 2 ^ 48 / 128 * 128))))
      (((up [chanKey 5]).chanEnter 5 chIDLE)) (.host) (5) = true := by decide +kernel

theorem wit_TraversesComplete_3 :
    (fun (s : State) (who : Issuer) (chan : Fin 512) => decide (s.honours who (chanKey chan)) && decide (s.chanState chan = chRUNNING) &&
      ran (exec (.trvSuspend who chan) s) fun t => decide (t.chanState chan = chSUSPENDED ∧ t.chan chan = s.chan chan))
      (((up [chanKey 5]).chanEnter 5 chRUNNING)) (.host) (5) = true := by decide +kernel

theorem wit_TraversesComplete_4 :
    (fun (s : State) (who : Issuer) (chan : Fin 512) => decide (s.honours who (chanKey chan)) && decide (s.chanState chan = chSUSPENDED) &&
      ran (exec (.trvResume who chan) s) fun t => decide (t.chanState chan = chRUNNING))
      (((up [chanKey 5]).chanEnter 5 chSUSPENDED)) (.host) (5) = true := by decide +kernel

theorem wit_TraversesComplete_5 :
    (fun (s : State) (who : Issuer) (chan : Fin 512) => decide (s.honours who (chanKey chan)) && decide (s.chanState chan ≠ chIDLE) &&
      ran (exec (.trvCancel who chan) s) fun t => decide (t.chanState chan = chIDLE ∧ t.chan chan = DmaChan.init ∧ t.dbPend chan = false))
      ((((up [chanKey 5]).chanEnter 5 chRUNNING).modChan 5 fun x => { x with act := some { bytes := (leBytes 0x1000 8 ++ leBytes 0x2000 8 ++ leBytes 64 4 ++ leBytes 1 4 ++ leBytes 1 4 ++ leBytes 1 4 ++ List.replicate 80 0 ++ leBytes 3 4 ++ List.replicate 12 0), addr := none } })) (.host) (5) = true := by decide +kernel

theorem wit_TraversesComplete_6 :
    (fun (s : State) (who : Issuer) (chan : Fin 512) (index : Fin 32) (value : BitVec 32) => decide (s.honours who (chanKey chan)) && decide (s.shBusy chan = false) && decide (index.val ≠ 28) &&
      ran (exec (.trvShWrite who chan index value) s) fun t => decide (t.reg (chanKey chan) (shOff chan index) = (if index.val ∈ [11, 15, 17, 18, 19, 20, 21, 22, 23, 24, 25, 26, 27, 29] then s.reg (chanKey chan) (shOff chan index) else value) ∧ t.channels = s.channels))
      (((up [chanKey 5]).chanEnter 5 chIDLE)) (.host) (5) (4) (7) = true := by decide +kernel

theorem wit_TraversesComplete_7 :
    (fun (s : State) (who : Issuer) (chan : Fin 512) (value : BitVec 32) => decide (s.honours who (chanKey chan)) && decide (s.shBusy chan = false) && decide (bitsOf value.toNat 5 4 ≠ 3 ∧ bitsOf value.toNat 7 6 ≠ 3) &&
      ran (exec (.trvShWrite who chan 28 value) s) fun t => decide (t.reg (chanKey chan) (shOff chan 28) = word (value.toNat % 512) ∧ t.channels = s.channels))
      (((up [chanKey 5]).chanEnter 5 chIDLE)) (.host) (5) (0xFFFFFF5F) = true := by decide +kernel

theorem wit_TraversesComplete_8 :
    (fun (s : State) (chan : Fin 512) (value : BitVec 64) => decide ((s.page (chanKey chan)).owner = .host) && decide (s.pageOff (chanKey chan) = false) && decide (s.chanState chan = chTAIL_WAIT) && decide ((s.chan chan).fetch = none) &&
      ran (exec (.trvDoorbell chan value) s) fun t => decide ((t.chan chan).fetch = some .quarter ∧ t.dbPend chan = false))
      (((up [chanKey 5]).chanEnter 5 chTAIL_WAIT)) (5) (1) = true := by decide +kernel

theorem wit_TraversesComplete_9 :
    (fun (s : State) (chan : Fin 512) (bytes : List (BitVec 8)) (addr : Nat) => decide ((s.chan chan).fetch = some (.desc true addr)) && decide (bytes.length = 128) && decide (s.chanState chan = chRUNNING) && decide ((s.chan chan).act = none) && decide ((s.modChan chan fun x => { x with fetch := none }).tCheck chan bytes = 0) &&
      ran (exec (.descFetchDone chan true bytes) s) fun t => decide ((t.chan chan).act = some { bytes := bytes, addr := some (true, addr) } ∧ t.chanState chan = chRUNNING))
      ((((up [chanKey 5]).chanEnter 5 chRUNNING).modChan 5 fun x => { x with fetch := some (.desc true 4096) })) (5) ((leBytes 0x1000 8 ++ leBytes 0x2000 8 ++ leBytes 64 4 ++ leBytes 1 4 ++ leBytes 1 4 ++ leBytes 1 4 ++ List.replicate 80 0 ++ leBytes 3 4 ++ List.replicate 12 0)) (4096) = true := by decide +kernel

theorem wit_TraversesComplete_10 :
    (fun (s : State) (group : Fin 32) (data : List (BitVec 8)) (c : Nat) (d : ChanDesc) => decide (s.nextChan group = some c) && decide ((s.chan c).act = some d) && decide (s.sourcePath c d.bytes ≠ .fenced) &&
      ran (exec (.trvPacket group data true) s) fun t => decide (mfind t.groupLast group = some (c % 16) ∧ t.mem = (({ s with groupLast := mput s.groupLast group (c % 16) } : State).movePacket c d.bytes (packetBytes d.bytes (s.chan c).elem (s.chan c).byte) data).mem))
      (joined ((((up [chanKey 5]).chanEnter 5 chRUNNING).modChan 5 fun x => { x with act := some { bytes := (leBytes 0x1000 8 ++ leBytes 0x2000 8 ++ leBytes 64 4 ++ leBytes 1 4 ++ leBytes 1 4 ++ leBytes 1 4 ++ List.replicate 80 0 ++ leBytes 3 4 ++ List.replicate 12 0), addr := none } }))) (0) ([]) (5) ({ bytes := (leBytes 0x1000 8 ++ leBytes 0x2000 8 ++ leBytes 64 4 ++ leBytes 1 4 ++ leBytes 1 4 ++ leBytes 1 4 ++ List.replicate 80 0 ++ leBytes 3 4 ++ List.replicate 12 0), addr := none }) = true := by decide +kernel

theorem wit_TraversesComplete_11 :
    (fun (s : State) (chan : Fin 512) (f : Finishing) (rest : List Finishing) => decide ((s.chan chan).finishing = f :: rest) && decide (tDSPACE f.desc.bytes ≠ 0 ∨ s.memPath (chanRegion chan) (tDST f.desc.bytes % 2 ^ 48) = .clear) &&
      ran (exec (.trvComplete chan) s) fun t => decide ((t.chan chan).finishing = rest ∧ (tIRQ f.desc.bytes = true → wbit (t.page (chanKey chan)).irq (16 + chan.val % 16) = true)))
      (joined ((((up [chanKey 5]).chanEnter 5 chRUNNING).modChan 5 fun x => { x with finishing := [{ desc := { bytes := (leBytes 0x1000 8 ++ leBytes 0x2000 8 ++ leBytes 64 4 ++ leBytes 1 4 ++ leBytes 1 4 ++ leBytes 1 4 ++ List.replicate 80 0 ++ leBytes 3 4 ++ List.replicate 12 0), addr := none }, crc := 0, poisoned := false }] }))) (5) ({ desc := { bytes := (leBytes 0x1000 8 ++ leBytes 0x2000 8 ++ leBytes 64 4 ++ leBytes 1 4 ++ leBytes 1 4 ++ leBytes 1 4 ++ List.replicate 80 0 ++ leBytes 3 4 ++ List.replicate 12 0), addr := none }, crc := 0, poisoned := false }) ([]) = true := by decide +kernel

theorem wit_TraversesComplete_12 :
    (fun (s : State) (region : Fin 3) (line : Fin 256) (data : List (BitVec 8)) (c : Nat) => decide ((List.range 512).find? (fun c => decide (chanRegion c = region.val ∧ s.chanState c = chRUNNING) && s.isActive (chanKey c) && (s.chan c).act.any fun d => decide (tPort d.bytes = some line.val)) = some c) &&
      ran (exec (.portRequest region line data) s) fun t => decide (t.channels = (s.burstGo c (burstBytes region line) data (burstBytes region line + 1)).channels ∧ t.out = (s.burstGo c (burstBytes region line) data (burstBytes region line + 1)).out))
      ((((up [chanKey 5]).chanEnter 5 chRUNNING).modChan 5 fun x => { x with act := some { bytes := leBytes 0x1000 8 ++ leBytes 0 8 ++ leBytes 64 4 ++ leBytes 1 4 ++ leBytes 1 4 ++ leBytes 1 4 ++ List.replicate 80 0 ++ leBytes 0x81 4 ++ List.replicate 12 0, addr := none } })) (0) (0) ([]) (5) = true := by decide +kernel

theorem wit_RingsComplete_1 :
    (fun (s : State) (who : Issuer) (tag : Nat) (n : Nat) => decide (s.takes who keyRNG) && decide ((s.page keyRNG).a0.toNat = n) && decide (32 ≤ n ∧ n < 32768) && decide ((s.ring n).phoin = false) && decide ((s.ring n).st = .closed) && decide (4 ≤ (s.ring n).entryLog2 ∧ (s.ring n).entryLog2 ≤ 7) && decide (4 ≤ (s.ring n).lenLog2 ∧ (s.ring n).lenLog2 ≤ 24) && decide ((s.ring n).base % 4096 = 0) && decide ((s.ring n).vector = 0 ∨ 32 ≤ (s.ring n).vector ∧ (s.ring n).vector < 2048) &&
      ran (exec (.ringOpen who tag) s) fun t => decide ((t.ring n).st = .open0 ∧ (t.ring n).prod = 0 ∧ (t.ring n).cons = 0 ∧ (t.page keyRNG).cmdStat = cmdStatWord tag phaseDONE 0 codeOK))
      ((((up [keyRNG]).modPage keyRNG fun p => { p with a0 := 40, a1 := 0 }).modRing 40 fun r => { r with entryLog2 := 5, lenLog2 := 4, host := true })) (.host) (7) (40) = true := by decide +kernel

theorem wit_RingsComplete_2 :
    (fun (s : State) (who : Issuer) (tag : Nat) (n : Nat) => decide (s.takes who keyRNG) && decide ((s.page keyRNG).a0.toNat = n) && decide (32 ≤ n ∧ n < 32768) && decide ((s.ring n).phoin = false) && decide ((s.ring n).st ≠ .closed) && decide ((s.ring n).task = 0) &&
      ran (exec (.ringClose who tag) s) fun t => decide ((t.ring n).st = .closed ∧ (t.page keyRNG).cmdStat = cmdStatWord tag phaseDONE 0 codeOK))
      ((((up [keyRNG]).modPage keyRNG fun p => { p with a0 := 40, a1 := 0 }).modRing 40 fun r => { r with entryLog2 := 5, lenLog2 := 4, host := true, st := .open0 })) (.host) (7) (40) = true := by decide +kernel

theorem wit_RingsComplete_3 :
    (fun (s : State) (who : Issuer) (tag : Nat) (n : Nat) => decide (s.takes who keyRNG) && decide ((s.page keyRNG).a0.toNat = n) && decide (32 ≤ n ∧ n < 32768) && decide ((s.ring n).phoin = false) && decide ((s.ring n).st = .open0) &&
      ran (exec (.ringSuspend who tag) s) fun t => decide (t.ring n = { s.ring n with st := .suspended } ∧ (t.page keyRNG).cmdStat = cmdStatWord tag phaseDONE 0 codeOK))
      ((((up [keyRNG]).modPage keyRNG fun p => { p with a0 := 40, a1 := 0 }).modRing 40 fun r => { r with entryLog2 := 5, lenLog2 := 4, host := true, st := .open0 })) (.host) (7) (40) = true := by decide +kernel

theorem wit_RingsComplete_4 :
    (fun (s : State) (who : Issuer) (tag : Nat) (n : Nat) => decide (s.takes who keyRNG) && decide ((s.page keyRNG).a0.toNat = n) && decide (32 ≤ n ∧ n < 32768) && decide ((s.ring n).phoin = false) && decide ((s.ring n).st = .suspended ∨ (s.ring n).st = .paused ∨ (s.ring n).st = .fault) &&
      ran (exec (.ringResume who tag) s) fun t => decide (t.ring n = { s.ring n with st := .open0 } ∧ (t.page keyRNG).cmdStat = cmdStatWord tag phaseDONE 0 codeOK))
      ((((up [keyRNG]).modPage keyRNG fun p => { p with a0 := 40, a1 := 0 }).modRing 40 fun r => { r with entryLog2 := 5, lenLog2 := 4, host := true, st := .paused })) (.host) (7) (40) = true := by decide +kernel

theorem wit_RingsComplete_5 :
    (fun (s : State) (who : Issuer) (tag : Nat) (n : Nat) => decide (s.takes who keyRNG) && decide ((s.page keyRNG).a0.toNat = n) && decide (32 ≤ n ∧ n < 32768) && decide ((s.ring n).phoin = false) && decide ((s.ring n).st = .suspended) && decide ((s.ring n).held = 0) && decide ((s.ring n).grow = 0) && decide (4 ≤ (s.page keyRNG).a1.toNat % 32 ∧ (s.page keyRNG).a1.toNat % 32 ≤ 24) &&
      ran (exec (.ringResize who tag) s) fun t => decide ((t.ring n).lenLog2 = (s.page keyRNG).a1.toNat % 32 ∧ (t.ring n).origin = (s.ring n).prod ∧ (t.page keyRNG).cmdStat = cmdStatWord tag phaseDONE 0 codeOK))
      ((((up [keyRNG]).modPage keyRNG fun p => { p with a0 := 40, a1 := 6 }).modRing 40 fun r => { r with entryLog2 := 5, lenLog2 := 4, host := true, st := .suspended })) (.host) (7) (40) = true := by decide +kernel

theorem wit_RingsComplete_6 :
    (fun (s : State) (ring : Fin 32768) (value : BitVec 32) => decide (s.pageOff keyRNG = false) && decide ((s.page keyRNG).owner = .host) && decide ((s.ring ring).st = .closed) && decide ((s.ring ring).phoin = false) &&
      ran (exec (.ringContextWrite ring 2 value) s) fun t => decide ((t.ring ring).entryLog2 = value.toNat % 256 ∧ (t.ring ring).lenLog2 = value.toNat / 256 % 256 ∧ (t.ring ring).host = wbit value 16 ∧ (t.ring ring).consumer = wbit value 17))
      ((((up [keyRNG]).modPage keyRNG fun p => { p with a0 := 40, a1 := 0 }).modRing 40 fun r => { r with entryLog2 := 5, lenLog2 := 4, host := true })) (40) (0x31405) = true := by decide +kernel

theorem wit_RingsComplete_7 :
    (fun (s : State) (ring : Fin 32768) (value : BitVec 64) => decide (2 ≤ ring.val) && decide ((s.ring ring).phoin = false) && decide ((s.ring ring).st = .open0) && decide ((s.ring ring).consumer = true) && decide (backward (value.toNat % 2 ^ 32) (s.ring ring).cons = false) && decide (cnt32 (value.toNat % 2 ^ 32) (s.ring ring).cons ≤ (s.ring ring).held) &&
      ran (exec (.ringDoorbell ring value) s) fun t => decide ((t.ring ring).cons = value.toNat % 2 ^ 32 ∧ (t.ring ring).prod = (s.ring ring).prod))
      ((((up [keyRNG]).modPage keyRNG fun p => { p with a0 := 40, a1 := 0 }).modRing 40 fun r => { r with entryLog2 := 5, lenLog2 := 4, host := true, st := .open0, consumer := true, prod := 5 })) (40) (3) = true := by decide +kernel

theorem wit_RingsComplete_8 :
    (fun (s : State) (ring : Fin 32768) (e : List Byte) (rest : List (List Byte)) => decide ((s.ring ring).entries = e :: rest) && decide ((s.ring ring).st = .open0) && decide ((s.ring ring).consumer = true) && decide ((s.ring ring).host = true) && decide ((s.ring ring).grow = 0) && decide ((s.ring ring).held < (s.ring ring).len) &&
      ran (exec (.ringProduce ring true) s) fun t => decide ((t.ring ring).prod = ((s.ring ring).prod + 1) % 2 ^ 32 ∧ (t.ring ring).entries = rest ∧ Output.hostWrite ((s.ring ring).slot (s.ring ring).prod) (e.map some) ∈ t.out))
      ((((up [keyRNG]).modPage keyRNG fun p => { p with a0 := 40, a1 := 0 }).modRing 40 fun r => { r with entryLog2 := 5, lenLog2 := 4, host := true, st := .open0, consumer := true, entries := [List.replicate 32 9] })) (40) (List.replicate 32 9) ([]) = true := by decide +kernel

theorem wit_RingsComplete_9 :
    (fun (s : State) (ring : Fin 32768) (entry : List (BitVec 8)) => decide ((s.ring ring).st = .open0) && decide ((s.ring ring).consumer = false) && decide ((s.ring ring).host = true) && decide ((s.ring ring).held ≠ 0) && decide ((s.ring ring).task ≠ 0) && decide (entry.length = 2 ^ (s.ring ring).entryLog2) &&
      ran (exec (.ringConsume ring entry true) s) fun t => decide ((t.ring ring).cons = ((s.ring ring).cons + 1) % 2 ^ 32 ∧ (t.ring ring).entries = (s.ring ring).entries ++ [entry]))
      ((((up [keyRNG]).modPage keyRNG fun p => { p with a0 := 40, a1 := 0 }).modRing 40 fun r => { r with entryLog2 := 5, lenLog2 := 4, host := true, st := .open0, prod := 3, task := 4096 })) (40) (List.replicate 32 9) = true := by decide +kernel

theorem wit_RingsComplete_10 :
    (fun (s : State) (ring : Fin 32768) (at0 : Nat) => decide ((s.ring ring).msgDue = true) && decide (32 ≤ (s.ring ring).vector) && decide ((s.ring ring).lastMsg = some at0) && decide (at0 + (s.ring ring).holdoff * sixPerUs < sixModulus) &&
      ran (exec (.ringHoldoffExpiry ring) s) fun t => decide ((t.ring ring).msgDue = false ∧ (t.ring ring).lastMsg = some t.six))
      ((((up [keyRNG]).modPage keyRNG fun p => { p with a0 := 40, a1 := 0 }).modRing 40 fun r => { r with entryLog2 := 5, lenLog2 := 4, host := true, st := .open0, msgDue := true, vector := 33, lastMsg := some 5, holdoff := 10 })) (40) (5) = true := by decide +kernel

theorem wit_RingsComplete_11 :
    (fun (s : State) (who : Issuer) (tag : Nat) (n : Nat) => decide (s.takes who keyHIF) && decide ((s.page keyHIF).a0.toNat % 32768 = n) && decide ((s.ring n).st = .open0 ∧ (s.ring n).host = true ∧ (s.ring n).consumer = true ∧ (s.ring n).entryLog2 = 5) && decide ((s.ring n).task = 0) && decide (24 ≤ (s.page keyHIF).a3.toNat % 64 ∧ (s.page keyHIF).a3.toNat % 64 ≤ 36) && decide (((s.page keyHIF).a1.toNat + (s.page keyHIF).a2.toNat * 2 ^ 32) % 4096 = 0) &&
      ran (exec (.bindBuffer who tag) s) fun t => decide ((t.ring n).buffer = some ((s.page keyHIF).a1.toNat + (s.page keyHIF).a2.toNat * 2 ^ 32, (s.page keyHIF).a3.toNat % 64) ∧ (t.ring n).bufPos = 0))
      ((((up [keyHIF]).modPage keyHIF fun p => { p with a0 := 40, a1 := 4096, a3 := 24 }).modRing 40 fun r => { r with entryLog2 := 5, lenLog2 := 4, host := true, st := .open0, consumer := true })) (.host) (7) (40) = true := by decide +kernel

theorem wit_RingsComplete_12 :
    (fun (s : State) (who : Issuer) (tag : Nat) (n : Nat) => decide (s.takes who keyHIF) && decide ((s.page keyHIF).a0.toNat % 32768 = n) && decide ((s.ring n).task = 0) &&
      ran (exec (.unbind who tag) s) fun t => decide ((t.ring n).buffer = none ∧ (t.page keyHIF).cmdStat = cmdStatWord tag phaseDONE 0 codeOK))
      (((up [keyHIF]).modPage keyHIF fun p => { p with a0 := 40, a1 := 4096, a3 := 24 })) (.host) (7) (40) = true := by decide +kernel

theorem wit_StreamsAndDrivesComplete_1 :
    (fun (s : State) (task : BitVec 32) (x : Ready) => decide (s.firstReady task.toNat = some x) && decide (s.stream task.toNat = none) &&
      ran (exec (.streamRecordReady task) s) fun t => decide (t.readyRecs = s.readyRecs.erase x ∧ t.streams = s.streams))
      ({ up [] with readyRecs := [{ from0 := .none, record := { kind := 1, flags := 0, task := 4096, source := 0, trigMask := 0, six := 0, fine := 0, pre := 0, post := 0, payload := List.replicate 64 5 } }] }) (4096) ({ from0 := .none, record := { kind := 1, flags := 0, task := 4096, source := 0, trigMask := 0, six := 0, fine := 0, pre := 0, post := 0, payload := List.replicate 64 5 } }) = true := by decide +kernel

theorem wit_StreamsAndDrivesComplete_2 :
    (fun (s u : State) (task : BitVec 32) (x : Ready) => decide (s.firstReady task.toNat = some x) && decide ((s.stream task.toNat).isSome = true) && decide (s.takeRecord task.toNat x = some u) &&
      ran (exec (.streamRecordReady task) s) fun t => decide (t.streams = u.streams ∧ t.readyRecs = u.readyRecs.erase x))
      ({ ({ ((up [keySTR, keyETH 1, keyHIF, keyNVI]).setTask (task 4096 1 .running [0])) with streams := [(0, { task := 4096, dest := destHOST, seq := 1, benches := [], ports := [{ newPort 0 1000 0 with queue := [] }], closing := false })] }) with readyRecs := [{ from0 := .none, record := { kind := 1, flags := 0, task := 4096, source := 0, trigMask := 0, six := 0, fine := 0, pre := 0, post := 0, payload := List.replicate 64 5 } }] }) ((({ ({ ((up [keySTR, keyETH 1, keyHIF, keyNVI]).setTask (task 4096 1 .running [0])) with streams := [(0, { task := 4096, dest := destHOST, seq := 1, benches := [], ports := [{ newPort 0 1000 0 with queue := [] }], closing := false })] }) with readyRecs := [{ from0 := .none, record := { kind := 1, flags := 0, task := 4096, source := 0, trigMask := 0, six := 0, fine := 0, pre := 0, post := 0, payload := List.replicate 64 5 } }] }).takeRecord 4096 ({ from0 := .none, record := { kind := 1, flags := 0, task := 4096, source := 0, trigMask := 0, six := 0, fine := 0, pre := 0, post := 0, payload := List.replicate 64 5 } })).getD (up [])) (4096) ({ from0 := .none, record := { kind := 1, flags := 0, task := 4096, source := 0, trigMask := 0, six := 0, fine := 0, pre := 0, post := 0, payload := List.replicate 64 5 } }) = true := by decide +kernel

theorem wit_StreamsAndDrivesComplete_3 :
    (fun (s u : State) (task : BitVec 32) (port : Fin 32) (x : Stream) (p : StreamPort) (r : StreamRec) (rest : List StreamRec) (addr lg pos skip : Nat) => decide (u = s.modPort task.toNat port (fun p => fillBucket p s.six)) && decide (u.stream task.toNat = some x) && decide (x.port port = some p) && decide (p.todo = r :: rest) && decide (0 ≤ p.bucket ∧ p.grant ≠ 0) && decide (u.recordPath x.task = .clear) && decide (x.dest = destHOST) && decide ((u.ring (dDEST_ID (u.streamDesc x.task))).buffer = some (addr, lg)) && decide ((u.ring (dDEST_ID (u.streamDesc x.task))).st = .open0 ∧ (u.ring (dDEST_ID (u.streamDesc x.task))).offsets = [] ∧ (u.ring (dDEST_ID (u.streamDesc x.task))).entries = []) && decide (u.perst = false) && decide (r.place = some (pos, skip)) && decide (r.bytes.length ≤ 2 ^ lg) &&
      ran (exec (.streamTransfer task port) s) fun t => decide (Output.hostWrite (addr + pos % 2 ^ lg + r.sent) (((r.bytes.drop r.sent).take 4096).map some) ∈ t.out))
      (joined { ({ (((up [keySTR]).modRing 0 fun r => { r with st := .open0, host := true, consumer := true, entryLog2 := 5, buffer := some (65536, 24) }).setTask (task 4096 1 .running [0])) with streams := [(0, { task := 4096, dest := destHOST, seq := 1, benches := [], ports := [{ newPort 0 1000 0 with queue := [{ seq := 0, kind := 1, flags := 0, six := 0, fine := 0, granule := (0, []), bytes := List.replicate 96 7, from0 := .none, sent := 0, whole := false, open0 := 0, free := false, waited := false, place := some (0, 0) }] }], closing := false })] }) with perst := false }) ((joined { ({ (((up [keySTR]).modRing 0 fun r => { r with st := .open0, host := true, consumer := true, entryLog2 := 5, buffer := some (65536, 24) }).setTask (task 4096 1 .running [0])) with streams := [(0, { task := 4096, dest := destHOST, seq := 1, benches := [], ports := [{ newPort 0 1000 0 with queue := [{ seq := 0, kind := 1, flags := 0, six := 0, fine := 0, granule := (0, []), bytes := List.replicate 96 7, from0 := .none, sent := 0, whole := false, open0 := 0, free := false, waited := false, place := some (0, 0) }] }], closing := false })] }) with perst := false }).modPort 4096 0 (fun p => fillBucket p (joined { ({ (((up [keySTR]).modRing 0 fun r => { r with st := .open0, host := true, consumer := true, entryLog2 := 5, buffer := some (65536, 24) }).setTask (task 4096 1 .running [0])) with streams := [(0, { task := 4096, dest := destHOST, seq := 1, benches := [], ports := [{ newPort 0 1000 0 with queue := [{ seq := 0, kind := 1, flags := 0, six := 0, fine := 0, granule := (0, []), bytes := List.replicate 96 7, from0 := .none, sent := 0, whole := false, open0 := 0, free := false, waited := false, place := some (0, 0) }] }], closing := false })] }) with perst := false }).six)) (4096) (0) ({ task := 4096, dest := destHOST, seq := 1, benches := [], ports := [{ newPort 0 1000 0 with queue := [{ seq := 0, kind := 1, flags := 0, six := 0, fine := 0, granule := (0, []), bytes := List.replicate 96 7, from0 := .none, sent := 0, whole := false, open0 := 0, free := false, waited := false, place := some (0, 0) }] }], closing := false }) ({ newPort 0 1000 0 with queue := [{ seq := 0, kind := 1, flags := 0, six := 0, fine := 0, granule := (0, []), bytes := List.replicate 96 7, from0 := .none, sent := 0, whole := false, open0 := 0, free := false, waited := false, place := some (0, 0) }] }) ({ seq := 0, kind := 1, flags := 0, six := 0, fine := 0, granule := (0, []), bytes := List.replicate 96 7, from0 := .none, sent := 0, whole := false, open0 := 0, free := false, waited := false, place := some (0, 0) }) ([]) (65536) (24) (0) (0) = true := by decide +kernel

theorem wit_StreamsAndDrivesComplete_4 :
    (fun (s : State) (task : BitVec 32) (port : Fin 32) (x : Stream) (p : StreamPort) (r : StreamRec) => decide (s.stream task.toNat = some x) && decide (x.closing = false) && decide (x.port port = some p) && decide (p.queue.find? (fun r => s.isTaken x.task x.dest r) = some r) && decide (r.from0 = .none) &&
      ran (exec (.recordTaken task port) s) fun t => decide ((t.portOf task.toNat port).map (·.queue) = some (p.queue.erase r)))
      ({ ((up [keySTR, keyETH 1, keyHIF, keyNVI]).setTask (task 4096 1 .running [0])) with streams := [(0, { task := 4096, dest := destHOST, seq := 1, benches := [], ports := [{ newPort 0 1000 0 with queue := [{ seq := 0, kind := 1, flags := 0, six := 0, fine := 0, granule := (0, []), bytes := List.replicate 96 7, from0 := .none, sent := 96, whole := true, open0 := 0, free := false, waited := false, place := some (0, 0) }] }], closing := false })] }) (4096) (0) ({ task := 4096, dest := destHOST, seq := 1, benches := [], ports := [{ newPort 0 1000 0 with queue := [{ seq := 0, kind := 1, flags := 0, six := 0, fine := 0, granule := (0, []), bytes := List.replicate 96 7, from0 := .none, sent := 96, whole := true, open0 := 0, free := false, waited := false, place := some (0, 0) }] }], closing := false }) ({ newPort 0 1000 0 with queue := [{ seq := 0, kind := 1, flags := 0, six := 0, fine := 0, granule := (0, []), bytes := List.replicate 96 7, from0 := .none, sent := 96, whole := true, open0 := 0, free := false, waited := false, place := some (0, 0) }] }) ({ seq := 0, kind := 1, flags := 0, six := 0, fine := 0, granule := (0, []), bytes := List.replicate 96 7, from0 := .none, sent := 96, whole := true, open0 := 0, free := false, waited := false, place := some (0, 0) }) = true := by decide +kernel

theorem wit_StreamsAndDrivesComplete_5 :
    (fun (s : State) (slot : Fin 1008) (w : NvmeWrite) => decide (mfind s.writes slot = some w) && decide (s.writes.all (fun e => !e.2.held) = true) && decide (w.held = false) &&
      ran (exec (.nvmeCompletion slot true) s) fun t => decide (mfind t.writes slot = none))
      ({ up [keyNVI] with drives := [(2, { nsid := 1, lbaLog2 := 12, mdtsLog2 := 20, lbas := 100000, queues := [{ qid := 1, sqEntries := 16, cqEntries := 16, sqOffset := 0x100000, cqOffset := 0x101000, sqDoorbell := 4096, cqDoorbell := 4100, sqTail := 0, cqHead := 0 }], nextQueue := 0, storeId := 5, wrap := false, gens := [], nextExt := 0 })], writes := [(3, { slot := 3, drive := 2, qid := 1, block := 1, bytes := List.replicate 64 6, task := 4096, seqs := [], tries := 0, issuedAt := 0, held := false })] }) (3) ({ slot := 3, drive := 2, qid := 1, block := 1, bytes := List.replicate 64 6, task := 4096, seqs := [], tries := 0, issuedAt := 0, held := false }) = true := by decide +kernel

theorem wit_StreamsAndDrivesComplete_6 :
    (fun (s : State) (slot : Fin 1008) (w : NvmeWrite) => decide (mfind s.writes slot = some w) && decide (w.held = false) && decide (w.tries < 3) &&
      ran (exec (.nvmeWriteTimeout slot) s) fun t => decide ((mfind t.writes w.slot).map (·.tries) = some (w.tries + 1)))
      ({ up [keyNVI] with drives := [(2, { nsid := 1, lbaLog2 := 12, mdtsLog2 := 20, lbas := 100000, queues := [{ qid := 1, sqEntries := 16, cqEntries := 16, sqOffset := 0x100000, cqOffset := 0x101000, sqDoorbell := 4096, cqDoorbell := 4100, sqTail := 0, cqHead := 0 }], nextQueue := 0, storeId := 5, wrap := false, gens := [], nextExt := 0 })], writes := [(3, { slot := 3, drive := 2, qid := 1, block := 1, bytes := List.replicate 64 6, task := 4096, seqs := [], tries := 0, issuedAt := 0, held := false })] }) (3) ({ slot := 3, drive := 2, qid := 1, block := 1, bytes := List.replicate 64 6, task := 4096, seqs := [], tries := 0, issuedAt := 0, held := false }) = true := by decide +kernel

theorem wit_StreamsAndDrivesComplete_7 :
    (fun (s : State) (prp : Bool) (slot : Fin 1008) (offset : BitVec 20) (len : Fin 4097) (w : NvmeWrite) => decide (mfind s.writes slot = some w) &&
      ran (exec (.apertureRead prp slot offset len) s) fun t => decide (t.out = s.out ++ [.pcieReply ((List.range len).map fun i => (if prp then s.prpList w else w.bytes).getD (offset.toNat + i) 0)]))
      ({ up [keyNVI] with drives := [(2, { nsid := 1, lbaLog2 := 12, mdtsLog2 := 20, lbas := 100000, queues := [{ qid := 1, sqEntries := 16, cqEntries := 16, sqOffset := 0x100000, cqOffset := 0x101000, sqDoorbell := 4096, cqDoorbell := 4100, sqTail := 0, cqHead := 0 }], nextQueue := 0, storeId := 5, wrap := false, gens := [], nextExt := 0 })], writes := [(3, { slot := 3, drive := 2, qid := 1, block := 1, bytes := List.replicate 64 6, task := 4096, seqs := [], tries := 0, issuedAt := 0, held := false })] }) (false) (3) (16) (32) ({ slot := 3, drive := 2, qid := 1, block := 1, bytes := List.replicate 64 6, task := 4096, seqs := [], tries := 0, issuedAt := 0, held := false }) = true := by decide +kernel

theorem wit_StreamsAndDrivesComplete_8 :
    (fun (s : State) (who : Issuer) (tag : Nat) (b : List Byte) => decide (s.takes who keyNVI) && decide (s.drives = [] ∧ s.writes = []) && decide (byteAt b 0 < 32) && decide ((queueOf b).qid ≠ 0) && decide (2 ≤ (queueOf b).sqEntries ∧ (queueOf b).sqEntries ≤ 256 ∧ 2 ≤ (queueOf b).cqEntries ∧ (queueOf b).cqEntries ≤ 256) && decide ((queueOf b).sqOffset % 4096 = 0 ∧ (queueOf b).cqOffset % 4096 = 0) && decide (byteAt b 0x24 = 9 ∨ byteAt b 0x24 = 12) && decide (17 ≤ byteAt b 0x25 ∧ byteAt b 0x25 ≤ 30) && decide ((queueOf b).ranges.all inQueueMemory = true) && decide (overlaps ((queueOf b).sqOffset, 64 * (queueOf b).sqEntries) ((queueOf b).cqOffset, 16 * (queueOf b).cqEntries) = false) &&
      ran (exec (.addQueue who tag (some b)) s) fun t => decide ((t.drive (byteAt b 0)).map (·.queues) = some [queueOf b] ∧ t.nviBit nviDRIVES (byteAt b 0) = true ∧ (t.page keyNVI).cmdStat = cmdStatWord tag phaseDONE 0 codeOK))
      (((up [keyNVI]).modPage keyNVI fun p => { p with a0 := 0, a1 := 0, a2 := 0, a3 := 0 })) (.host) (7) ((leBytes 2 2 ++ leBytes 1 2 ++ leBytes 16 2 ++ leBytes 16 2 ++ leBytes 0x100000 4 ++ leBytes 0x101000 4 ++ leBytes 4096 8 ++ leBytes 4100 8 ++ leBytes 1 4 ++ leBytes 12 1 ++ leBytes 20 1 ++ leBytes 0 2 ++ leBytes 100000 8 ++ List.replicate 16 0)) = true := by decide +kernel

theorem wit_StreamsAndDrivesComplete_9 :
    (fun (s : State) (who : Issuer) (tag : Nat) (d : Nat) (v : Drive) => decide (s.takes who keyNVI) && decide ((s.page keyNVI).a0.toNat = d) && decide (s.drive d = some v) && decide (v.queues.any (fun q => decide (q.qid = (s.page keyNVI).a1.toNat)) = true) && decide (s.driveUsed d = false) &&
      ran (exec (.removeQueue who tag) s) fun t => decide ((t.drive d).elim [] (·.queues) = v.queues.filter (fun q => decide (q.qid ≠ (s.page keyNVI).a1.toNat)) ∧ (t.page keyNVI).cmdStat = cmdStatWord tag phaseDONE 0 codeOK))
      ((({ up [keyNVI] with drives := [(2, { nsid := 1, lbaLog2 := 12, mdtsLog2 := 20, lbas := 100000, queues := [{ qid := 1, sqEntries := 16, cqEntries := 16, sqOffset := 0x100000, cqOffset := 0x101000, sqDoorbell := 4096, cqDoorbell := 4100, sqTail := 0, cqHead := 0 }], nextQueue := 0, storeId := 5, wrap := false, gens := [], nextExt := 0 })] }).modPage keyNVI fun p => { p with a0 := 2, a1 := 1, a2 := 0, a3 := 0 })) (.host) (7) (2) ({ nsid := 1, lbaLog2 := 12, mdtsLog2 := 20, lbas := 100000, queues := [{ qid := 1, sqEntries := 16, cqEntries := 16, sqOffset := 0x100000, cqOffset := 0x101000, sqDoorbell := 4096, cqDoorbell := 4100, sqTail := 0, cqHead := 0 }], nextQueue := 0, storeId := 5, wrap := false, gens := [], nextExt := 0 }) = true := by decide +kernel

theorem wit_StreamsAndDrivesComplete_10 :
    (fun (s : State) (who : Issuer) (tag : Nat) (d : Nat) (v : Drive) => decide (s.takes who keyNVI) && decide ((s.page keyNVI).a0.toNat % 32 = d) && decide (s.drive d = some v) && decide (s.nviBit nviFAILED d = false) && decide (s.driveUsed d = false) && decide ((s.page keyNVI).a3.toNat % 256 ≠ 0 ∧ (s.page keyNVI).a3.toNat % 256 ≤ 32 ∧ (s.page keyNVI).a3.toNat / 256 % 256 < (s.page keyNVI).a3.toNat % 256) && decide (2 ≤ v.blocks) &&
      ran (exec (.storeInit who tag true) s) fun t => decide ((t.drive d).map (fun v => (v.storeId, v.wrap, v.gens)) = some ((s.page keyNVI).a1.toNat + (s.page keyNVI).a2.toNat * 2 ^ 32, wbit (s.page keyNVI).a3 16, []) ∧ (t.page keyNVI).cmdStat = cmdStatWord tag phaseDONE 0 codeOK))
      ((({ up [keyNVI] with drives := [(2, { nsid := 1, lbaLog2 := 12, mdtsLog2 := 20, lbas := 100000, queues := [{ qid := 1, sqEntries := 16, cqEntries := 16, sqOffset := 0x100000, cqOffset := 0x101000, sqDoorbell := 4096, cqDoorbell := 4100, sqTail := 0, cqHead := 0 }], nextQueue := 0, storeId := 5, wrap := false, gens := [], nextExt := 0 })] }).modPage keyNVI fun p => { p with a0 := 2, a1 := 77, a2 := 0, a3 := 1 })) (.host) (7) (2) ({ nsid := 1, lbaLog2 := 12, mdtsLog2 := 20, lbas := 100000, queues := [{ qid := 1, sqEntries := 16, cqEntries := 16, sqOffset := 0x100000, cqOffset := 0x101000, sqDoorbell := 4096, cqDoorbell := 4100, sqTail := 0, cqHead := 0 }], nextQueue := 0, storeId := 5, wrap := false, gens := [], nextExt := 0 }) = true := by decide +kernel

theorem wit_StreamsAndDrivesComplete_11 :
    (fun (s : State) (who : Issuer) (tag : Nat) (d : Nat) (v : Drive) (b : List Byte) (last : Option (List Byte)) (headers : List (List Byte)) => decide (s.takes who keyNVI) && decide ((s.page keyNVI).a0.toNat % 32 = d) && decide (s.drive d = some v) && decide (s.nviBit nviFAILED d = false) && decide (s.driveUsed d = false) && decide (superblockOk b = true) &&
      ran (exec (.storeMount who tag (some b) last headers) s) fun t => decide ((t.drive d).map (fun v => (v.storeId, v.wrap)) = some (u64At b 8, decide (byteAt b 0x1C = 1)) ∧ t.nviBit nviMOUNTED d = true))
      ((({ up [keyNVI] with drives := [(2, { nsid := 1, lbaLog2 := 12, mdtsLog2 := 20, lbas := 100000, queues := [{ qid := 1, sqEntries := 16, cqEntries := 16, sqOffset := 0x100000, cqOffset := 0x101000, sqDoorbell := 4096, cqDoorbell := 4100, sqTail := 0, cqHead := 0 }], nextQueue := 0, storeId := 5, wrap := false, gens := [], nextExt := 0 })] }).modPage keyNVI fun p => { p with a0 := 2, a1 := 0, a2 := 0, a3 := 0 })) (.host) (7) (2) ({ nsid := 1, lbaLog2 := 12, mdtsLog2 := 20, lbas := 100000, queues := [{ qid := 1, sqEntries := 16, cqEntries := 16, sqOffset := 0x100000, cqOffset := 0x101000, sqDoorbell := 4096, cqDoorbell := 4100, sqTail := 0, cqHead := 0 }], nextQueue := 0, storeId := 5, wrap := false, gens := [], nextExt := 0 }) ((superblock 0 1 77 100000 6 true)) (none) ([]) = true := by decide +kernel

theorem wit_EthernetAndPlaybackComplete_1 :
    (fun (s : State) (port : Fin 4) (payload : List (BitVec 8)) (x : Stream) (p : StreamPort) => decide (s.takesLsa port 2 payload x p) && decide (p.flow.st = .opening) &&
      ran (exec (.lsaAccept port payload) s) fun t => decide ((t.portOf x.task port).map (·.flow.st) = some .open0 ∧ (t.portOf x.task port).map (·.flow.rwnd) = some (beAt payload 16 4 * 1024)))
      ({ (((((up [keySTR, keyETH 1]).wb (keyETH 1) Reg.ETH_STAT.LINK_UP true).setReg (keyETH 1) 0x800 0x15).setReg (keyETH 1) 0x824 0x000A0005).setTask { task 4096 1 .running [0] with desc := putBytesAt (task 4096 1 .running [0]).desc 0x48 [3] }) with streams := [(0, { task := 4096, dest := destETH, seq := 1, benches := [], ports := [{ newPort 1 1000 0 with flow := { st := .opening, psn := 2, rwnd := 1048576, unacked := [], heardAt := 0, sinceAt := 0, rto := 50 } }], closing := false })] }) (1) ((beB 0x4C53 2 ++ beB 1 1 ++ beB 2 1 ++ beB 4096 4 ++ beB 1 1 ++ beB 0 3 ++ beB 0 4 ++ beB 1024 4)) ({ task := 4096, dest := destETH, seq := 1, benches := [], ports := [{ newPort 1 1000 0 with flow := { st := .opening, psn := 2, rwnd := 1048576, unacked := [], heardAt := 0, sinceAt := 0, rto := 50 } }], closing := false }) ({ newPort 1 1000 0 with flow := { st := .opening, psn := 2, rwnd := 1048576, unacked := [], heardAt := 0, sinceAt := 0, rto := 50 } }) = true := by decide +kernel

theorem wit_EthernetAndPlaybackComplete_2 :
    (fun (s : State) (port : Fin 4) (payload : List (BitVec 8)) (x : Stream) (p : StreamPort) => decide (s.takesLsa port 4 payload x p) && decide (p.flow.st = .open0) && decide (x.closing = false) && decide (p.flow.unacked.all (fun y => ackedBy (beAt payload 16 4) (beAt payload 20 8) y.psn) = true) &&
      ran (exec (.lsaAck port payload) s) fun t => decide ((t.portOf x.task port).map (·.flow.unacked) = some [] ∧ (t.portOf x.task port).map (·.flow.heardAt) = some s.six))
      ({ (((((up [keySTR, keyETH 1]).wb (keyETH 1) Reg.ETH_STAT.LINK_UP true).setReg (keyETH 1) 0x800 0x15).setReg (keyETH 1) 0x824 0x000A0005).setTask { task 4096 1 .running [0] with desc := putBytesAt (task 4096 1 .running [0]).desc 0x48 [3] }) with streams := [(0, { task := 4096, dest := destETH, seq := 1, benches := [], ports := [{ newPort 1 1000 0 with flow := { st := .open0, psn := 2, rwnd := 1048576, unacked := [{ psn := 1, bytes := List.replicate 40 1, seq := 0, load := 20, sentAt := 0, higher := 0 }], heardAt := 0, sinceAt := 0, rto := 50 } }], closing := false })] }) (1) ((beB 0x4C53 2 ++ beB 1 1 ++ beB 4 1 ++ beB 4096 4 ++ beB 1 1 ++ beB 0 3 ++ beB 0 4 ++ beB 2 4 ++ beB 0 8 ++ beB 1024 4)) ({ task := 4096, dest := destETH, seq := 1, benches := [], ports := [{ newPort 1 1000 0 with flow := { st := .open0, psn := 2, rwnd := 1048576, unacked := [{ psn := 1, bytes := List.replicate 40 1, seq := 0, load := 20, sentAt := 0, higher := 0 }], heardAt := 0, sinceAt := 0, rto := 50 } }], closing := false }) ({ newPort 1 1000 0 with flow := { st := .open0, psn := 2, rwnd := 1048576, unacked := [{ psn := 1, bytes := List.replicate 40 1, seq := 0, load := 20, sentAt := 0, higher := 0 }], heardAt := 0, sinceAt := 0, rto := 50 } }) = true := by decide +kernel

theorem wit_EthernetAndPlaybackComplete_3 :
    (fun (s : State) (port : Fin 4) (payload : List (BitVec 8)) (x : Stream) (p : StreamPort) => decide (s.takesLsa port 6 payload x p) && decide (p.flow.st = .closing) && decide (x.closing = false) &&
      ran (exec (.lsaClosed port payload) s) fun t => decide ((t.portOf x.task port).map (·.flow.st) = some .closed))
      ({ (((((up [keySTR, keyETH 1]).wb (keyETH 1) Reg.ETH_STAT.LINK_UP true).setReg (keyETH 1) 0x800 0x15).setReg (keyETH 1) 0x824 0x000A0005).setTask { task 4096 1 .running [0] with desc := putBytesAt (task 4096 1 .running [0]).desc 0x48 [3] }) with streams := [(0, { task := 4096, dest := destETH, seq := 1, benches := [], ports := [{ newPort 1 1000 0 with flow := { st := .closing, psn := 2, rwnd := 1048576, unacked := [], heardAt := 0, sinceAt := 0, rto := 50 } }], closing := false })] }) (1) ((beB 0x4C53 2 ++ beB 1 1 ++ beB 6 1 ++ beB 4096 4 ++ beB 1 1 ++ beB 0 3 ++ beB 0 4 ++ beB 0 4)) ({ task := 4096, dest := destETH, seq := 1, benches := [], ports := [{ newPort 1 1000 0 with flow := { st := .closing, psn := 2, rwnd := 1048576, unacked := [], heardAt := 0, sinceAt := 0, rto := 50 } }], closing := false }) ({ newPort 1 1000 0 with flow := { st := .closing, psn := 2, rwnd := 1048576, unacked := [], heardAt := 0, sinceAt := 0, rto := 50 } }) = true := by decide +kernel

theorem wit_EthernetAndPlaybackComplete_4 :
    (fun (s : State) (port : Fin 4) (payload : List (BitVec 8)) (x : Stream) (p : StreamPort) => decide (s.takesLsa port 7 payload x p) &&
      ran (exec (.lsaReset port payload) s) fun t => decide (((s.task x.task).any (·.st.live) = true → (t.task x.task).map (fun k => (k.st, k.code, k.sub)) = some (.failed, codeFAULT, 0x02)) ∧ t.phn.tasks = (s.flowFailed x.task port codeFAULT 0x02).phn.tasks ∧ t.streams = (s.flowFailed x.task port codeFAULT 0x02).streams))
      ({ (((((up [keySTR, keyETH 1]).wb (keyETH 1) Reg.ETH_STAT.LINK_UP true).setReg (keyETH 1) 0x800 0x15).setReg (keyETH 1) 0x824 0x000A0005).setTask { task 4096 1 .running [0] with desc := putBytesAt (task 4096 1 .running [0]).desc 0x48 [3] }) with streams := [(0, { task := 4096, dest := destETH, seq := 1, benches := [], ports := [{ newPort 1 1000 0 with flow := { st := .open0, psn := 2, rwnd := 1048576, unacked := [{ psn := 1, bytes := List.replicate 40 1, seq := 0, load := 20, sentAt := 0, higher := 0 }], heardAt := 0, sinceAt := 0, rto := 50 } }], closing := false })] }) (1) ((beB 0x4C53 2 ++ beB 1 1 ++ beB 7 1 ++ beB 4096 4 ++ beB 1 1 ++ beB 0 3 ++ beB 0 4 ++ beB 0 4)) ({ task := 4096, dest := destETH, seq := 1, benches := [], ports := [{ newPort 1 1000 0 with flow := { st := .open0, psn := 2, rwnd := 1048576, unacked := [{ psn := 1, bytes := List.replicate 40 1, seq := 0, load := 20, sentAt := 0, higher := 0 }], heardAt := 0, sinceAt := 0, rto := 50 } }], closing := false }) ({ newPort 1 1000 0 with flow := { st := .open0, psn := 2, rwnd := 1048576, unacked := [{ psn := 1, bytes := List.replicate 40 1, seq := 0, load := 20, sentAt := 0, higher := 0 }], heardAt := 0, sinceAt := 0, rto := 50 } }) = true := by decide +kernel

theorem wit_EthernetAndPlaybackComplete_5 :
    (fun (s : State) (task : BitVec 32) (port : Fin 4) (p : StreamPort) => decide (s.portOf task.toNat port = some p) && decide (p.flow.st = .opening) &&
      ran (exec (.lsaOpenRepeat task port) s) fun t => decide ((t.portOf task.toNat port).map (·.flow.sinceAt) = some t.six ∧ t.out.length = s.out.length + 1))
      ({ (((((up [keySTR, keyETH 1]).wb (keyETH 1) Reg.ETH_STAT.LINK_UP true).setReg (keyETH 1) 0x800 0x15).setReg (keyETH 1) 0x824 0x000A0005).setTask { task 4096 1 .running [0] with desc := putBytesAt (task 4096 1 .running [0]).desc 0x48 [3] }) with streams := [(0, { task := 4096, dest := destETH, seq := 1, benches := [], ports := [{ newPort 1 1000 0 with flow := { st := .opening, psn := 2, rwnd := 1048576, unacked := [], heardAt := 0, sinceAt := 0, rto := 50 } }], closing := false })] }) (4096) (1) ({ newPort 1 1000 0 with flow := { st := .opening, psn := 2, rwnd := 1048576, unacked := [], heardAt := 0, sinceAt := 0, rto := 50 } }) = true := by decide +kernel

theorem wit_EthernetAndPlaybackComplete_6 :
    (fun (s : State) (task : BitVec 32) (port : Fin 4) (p : StreamPort) (psn : BitVec 32) (y : LsaPacket) => decide (s.portOf task.toNat port = some p) && decide (p.flow.st = .open0) && decide (s.ethUp port = true) && decide (p.flow.unacked.find? (fun y => decide (y.psn % 2 ^ 32 = psn.toNat)) = some y) &&
      ran (exec (.lsaRtoExpiry task port psn) s) fun t => decide (t.out = s.out ++ [.ethFrame port (s.profOf task.toNat) y.bytes]))
      ({ (((((up [keySTR, keyETH 1]).wb (keyETH 1) Reg.ETH_STAT.LINK_UP true).setReg (keyETH 1) 0x800 0x15).setReg (keyETH 1) 0x824 0x000A0005).setTask { task 4096 1 .running [0] with desc := putBytesAt (task 4096 1 .running [0]).desc 0x48 [3] }) with streams := [(0, { task := 4096, dest := destETH, seq := 1, benches := [], ports := [{ newPort 1 1000 0 with flow := { st := .open0, psn := 2, rwnd := 1048576, unacked := [{ psn := 1, bytes := List.replicate 40 1, seq := 0, load := 20, sentAt := 0, higher := 0 }], heardAt := 0, sinceAt := 0, rto := 50 } }], closing := false })] }) (4096) (1) ({ newPort 1 1000 0 with flow := { st := .open0, psn := 2, rwnd := 1048576, unacked := [{ psn := 1, bytes := List.replicate 40 1, seq := 0, load := 20, sentAt := 0, higher := 0 }], heardAt := 0, sinceAt := 0, rto := 50 } }) (1) ({ psn := 1, bytes := List.replicate 40 1, seq := 0, load := 20, sentAt := 0, higher := 0 }) = true := by decide +kernel

theorem wit_EthernetAndPlaybackComplete_7 :
    (fun (s : State) (task : BitVec 32) (port : Fin 4) (p : StreamPort) (psn : BitVec 32) => decide (s.portOf task.toNat port = some p) && decide (p.flow.st = .closing) &&
      ran (exec (.lsaRtoExpiry task port psn) s) fun t => decide ((t.portOf task.toNat port).map (·.flow.heardAt) = some t.six ∧ t.out.length = s.out.length + 1))
      ({ (((((up [keySTR, keyETH 1]).wb (keyETH 1) Reg.ETH_STAT.LINK_UP true).setReg (keyETH 1) 0x800 0x15).setReg (keyETH 1) 0x824 0x000A0005).setTask { task 4096 1 .running [0] with desc := putBytesAt (task 4096 1 .running [0]).desc 0x48 [3] }) with streams := [(0, { task := 4096, dest := destETH, seq := 1, benches := [], ports := [{ newPort 1 1000 0 with flow := { st := .closing, psn := 2, rwnd := 1048576, unacked := [], heardAt := 0, sinceAt := 0, rto := 50 } }], closing := false })] }) (4096) (1) ({ newPort 1 1000 0 with flow := { st := .closing, psn := 2, rwnd := 1048576, unacked := [], heardAt := 0, sinceAt := 0, rto := 50 } }) (1) = true := by decide +kernel

theorem wit_EthernetAndPlaybackComplete_8 :
    (fun (s : State) (task : BitVec 32) (port : Fin 4) (p : StreamPort) => decide (s.portOf task.toNat port = some p) && decide (p.flow.st = .open0) && decide (p.flow.unacked ≠ []) &&
      ran (exec (.lsaDeadTimeout task port) s) fun t => decide ((t.portOf task.toNat port).map (·.flow.st) = some .stalled ∧ wbit (t.page (keyETH port)).err 17 = true))
      ({ (((((up [keySTR, keyETH 1]).wb (keyETH 1) Reg.ETH_STAT.LINK_UP true).setReg (keyETH 1) 0x800 0x15).setReg (keyETH 1) 0x824 0x000A0005).setTask { task 4096 1 .running [0] with desc := putBytesAt (task 4096 1 .running [0]).desc 0x48 [3] }) with streams := [(0, { task := 4096, dest := destETH, seq := 1, benches := [], ports := [{ newPort 1 1000 0 with flow := { st := .open0, psn := 2, rwnd := 1048576, unacked := [{ psn := 1, bytes := List.replicate 40 1, seq := 0, load := 20, sentAt := 0, higher := 0 }], heardAt := 0, sinceAt := 0, rto := 50 } }], closing := false })] }) (4096) (1) ({ newPort 1 1000 0 with flow := { st := .open0, psn := 2, rwnd := 1048576, unacked := [{ psn := 1, bytes := List.replicate 40 1, seq := 0, load := 20, sentAt := 0, higher := 0 }], heardAt := 0, sinceAt := 0, rto := 50 } }) = true := by decide +kernel

theorem wit_EthernetAndPlaybackComplete_9 :
    (fun (s : State) (task : BitVec 32) (port : Fin 4) (p : StreamPort) => decide (s.portOf task.toNat port = some p) && decide (p.flow.st = .stalled) &&
      ran (exec (.lsaFailTimeout task port) s) fun t => decide (((s.task task.toNat).any (·.st.live) = true → (t.task task.toNat).map (fun k => (k.st, k.code, k.sub)) = some (.failed, codeTIMEOUT, 0x01)) ∧ t.phn.tasks = ((s.advanceTo (p.flow.sinceAt + s.profFail port (s.profOf task.toNat) * 1000 * sixPerMs)).flowFailed task.toNat port codeTIMEOUT 0x01).phn.tasks))
      ({ (((((up [keySTR, keyETH 1]).wb (keyETH 1) Reg.ETH_STAT.LINK_UP true).setReg (keyETH 1) 0x800 0x15).setReg (keyETH 1) 0x824 0x000A0005).setTask { task 4096 1 .running [0] with desc := putBytesAt (task 4096 1 .running [0]).desc 0x48 [3] }) with streams := [(0, { task := 4096, dest := destETH, seq := 1, benches := [], ports := [{ newPort 1 1000 0 with flow := { st := .stalled, psn := 2, rwnd := 1048576, unacked := [{ psn := 1, bytes := List.replicate 40 1, seq := 0, load := 20, sentAt := 0, higher := 0 }], heardAt := 0, sinceAt := 0, rto := 50 } }], closing := false })] }) (4096) (1) ({ newPort 1 1000 0 with flow := { st := .stalled, psn := 2, rwnd := 1048576, unacked := [{ psn := 1, bytes := List.replicate 40 1, seq := 0, load := 20, sentAt := 0, higher := 0 }], heardAt := 0, sinceAt := 0, rto := 50 } }) = true := by decide +kernel

theorem wit_EthernetAndPlaybackComplete_10 :
    (fun (s : State) (task : BitVec 32) (port : Fin 4) (p : StreamPort) => decide (s.portOf task.toNat port = some p) && decide (p.flow.st = .open0) && decide (p.context ≠ []) && decide (s.profFlag port (s.profOf task.toNat) 4 = true) && decide (s.ethUp port = true) &&
      ran (exec (.contextTimer task port) s) fun t => decide ((t.portOf task.toNat port).map (·.contextAt) = some t.six ∧ t.out.length = s.out.length + 1))
      ({ (((((up [keySTR, keyETH 1]).wb (keyETH 1) Reg.ETH_STAT.LINK_UP true).setReg (keyETH 1) 0x800 0x15).setReg (keyETH 1) 0x824 0x000A0005).setTask { task 4096 1 .running [0] with desc := putBytesAt (task 4096 1 .running [0]).desc 0x48 [3] }) with streams := [(0, { task := 4096, dest := destETH, seq := 1, benches := [], ports := [{ newPort 1 1000 0 with flow := { st := .open0, psn := 2, rwnd := 1048576, unacked := [], heardAt := 0, sinceAt := 0, rto := 50 }, context := List.replicate 48 1 }], closing := false })] }) (4096) (1) ({ newPort 1 1000 0 with flow := { st := .open0, psn := 2, rwnd := 1048576, unacked := [], heardAt := 0, sinceAt := 0, rto := 50 }, context := List.replicate 48 1 }) = true := by decide +kernel

theorem wit_EthernetAndPlaybackComplete_11 :
    (fun (s : State) (port : Fin 4) => decide (s.ethUp port = true) &&
      ran (exec (.unknownFrame port) s) fun t => decide (t.rf (keyETH port) Reg.ETH_RX_DROP = satInc 0xFFFFFFFF (s.rf (keyETH port) Reg.ETH_RX_DROP)))
      ((up [keyETH 1]).wb (keyETH 1) Reg.ETH_STAT.LINK_UP true) (1) = true := by decide +kernel

theorem wit_EthernetAndPlaybackComplete_12 :
    (fun (s : State) (task streamId : BitVec 32) (record : List (BitVec 8)) (k : Task) => decide (s.task task.toNat = some k) && decide (dTYPE k.desc = 5) && decide (k.st = .running) && decide (dSRC_KIND k.desc = 2) && decide (64 ≤ record.length) && decide (record.length = 64 + u32At record 0x38) && decide (u16At record 0 = 0x474C ∧ byteAt record 2 = 1 ∧ byteAt record 3 = 1) && decide (u32At record 0x3C = crc32cFrom (Nat.xor streamId.toNat (u64At record 0x30 % 2 ^ 32)) (record.take 0x3C ++ record.drop 64)) && decide ((s.playback k).nextSeq ≤ u64At record 0x30) && decide (nbit (u32At record 4) 9 = false ∧ nbit (u32At record 4) 10 = false) &&
      ran (exec (.playbackRecord task streamId record) s) fun t => decide ((t.playback k).nextSeq = u64At record 0x30 + 1 ∧ (t.playback k).samples.length = (s.playback k).samples.length + u32At (record.drop 64) 0x10))
      ((up [keySTR]).setTask { task 4096 5 .running [] with desc := putBytesAt (task 4096 5 .running []).desc 0x70 [2] }) (4096) (9) (((leBytes 0x474C 2 ++ leBytes 1 1 ++ leBytes 1 1 ++ leBytes 0 4 ++ leBytes 9 4 ++ List.replicate 36 0 ++ leBytes 3 8 ++ leBytes 40 4) ++ leBytes (crc32cFrom (Nat.xor 9 3) ((leBytes 0x474C 2 ++ leBytes 1 1 ++ leBytes 1 1 ++ leBytes 0 4 ++ leBytes 9 4 ++ List.replicate 36 0 ++ leBytes 3 8 ++ leBytes 40 4) ++ (List.replicate 12 0 ++ leBytes 1 4 ++ leBytes 2 4 ++ List.replicate 12 0 ++ List.replicate 8 6))) 4 ++ (List.replicate 12 0 ++ leBytes 1 4 ++ leBytes 2 4 ++ List.replicate 12 0 ++ List.replicate 8 6))) ({ task 4096 5 .running [] with desc := putBytesAt (task 4096 5 .running []).desc 0x70 [2] }) = true := by decide +kernel

theorem wit_EthernetAndPlaybackComplete_13 :
    (fun (s : State) (task : BitVec 32) (k : Task) (y : Nat × Int × Int) (rest : List (Nat × Int × Int)) => decide (s.task task.toNat = some k) && decide (dTYPE k.desc = 5) && decide (k.st = .running) && decide ((s.playback k).samples = y :: rest) && decide (s.fedPipes k.id = []) &&
      ran (exec (.playbackRelease task) s) fun t => decide ((t.playback k).samples = rest))
      ({ ((up [keySTR]).setTask { task 4096 5 .running [] with desc := putBytesAt (task 4096 5 .running []).desc 0x70 [2] }) with playbacks := [(0, { nextSeq := 1, nextLabel := none, samples := [(5, 1, 2)], gaps := [], base := some 5, periods := [] })] }) (4096) ({ task 4096 5 .running [] with desc := putBytesAt (task 4096 5 .running []).desc 0x70 [2] }) ((5, 1, 2)) ([]) = true := by decide +kernel

theorem wit_HostLinksComplete_1 :
    (fun (s : State) (wide : Bool) (speed : Fin 3) => decide (9 ≤ s.phase) && decide (s.perst = false) && decide (s.peBad < 2) && decide (s.pcieLinkUp = false) && decide ((s.page keyHIF).st ≠ .off) &&
      ran (exec (.pcieLinkUp wide speed) s) fun t => decide (t.pcieLinkUp = true ∧ t.pcieUp = some s.six ∧ wbit (t.page keyHIF).irq 16 = true))
      ({ (up [keyHIF]).setPhase 9 with perst := false }) (true) (1) = true := by decide +kernel

theorem wit_HostLinksComplete_2 :
    (fun (s : State) => decide (s.peBad = 1) && decide (s.pcieLinkUp = true) &&
      ran (exec (.peRefclkCheck false) s) fun t => decide (t.pcieLinkUp = false ∧ wbit (t.page keyHIF).err 16 = true))
      ({ (up [keyHIF]).setReg keyHIF Reg.HIF_LINK.WIDTH.off 0xF5 with peBad := 1 }) = true := by decide +kernel

theorem wit_HostLinksComplete_3 :
    (fun (s : State) => true &&
      ran (exec (.peRefclkCheck true) s) fun t => decide (t.peBad = 0 ∧ t.pages = s.pages))
      (up [keyHIF]) = true := by decide +kernel

theorem wit_HostLinksComplete_4 :
    (fun (s : State) => decide (s.ethBad = 1) &&
      ran (exec (.ethRefclkCheck false) s) fun t => decide (∀ p : Fin 4, t.ethUp p = false))
      ({ (up [keyETH 1]).wb (keyETH 1) Reg.ETH_STAT.LINK_UP true with ethBad := 1 }) = true := by decide +kernel

theorem wit_HostLinksComplete_5 :
    (fun (s : State) => decide (s.perst = false) &&
      ran (exec (.perstNAssert) s) fun t => decide (t.perst = true ∧ t.routes = [] ∧ t.msixTable = [] ∧ t.msixPend = [] ∧ t.pcieCfg = [] ∧ t.pcieLinkUp = false))
      ({ (up [keyHIF]).setReg keyHIF Reg.HIF_LINK.WIDTH.off 0xF5 with perst := false, pcieUp := some 5 }) = true := by decide +kernel

theorem wit_HostLinksComplete_6 :
    (fun (s : State) => true &&
      ran (exec (.perstNDeassert) s) fun t => decide (t = { s with perst := false }))
      (up [keyHIF]) = true := by decide +kernel

theorem wit_HostLinksComplete_7 :
    (fun (s : State) (d : Fin 1024) (v : BitVec 32) (at0 : Nat) => decide (s.pcieUp = some at0) && decide (d.val < 4 ∨ 9 < d.val) &&
      ran (exec (.configRequest (.write d v) false) s) fun t => decide (t = { s with pcieCfg := mput s.pcieCfg d v }))
      ({ up [keyHIF] with pcieUp := some 5 }) (1) (6) (5) = true := by decide +kernel

theorem wit_HostLinksComplete_8 :
    (fun (s : State) (offset : BitVec 37) (len : Fin 4097) (bs : List (BitVec 8)) => decide (s.memPath 0 (s.bar2Base + offset.toNat) = .clear) && decide (∀ i < bs.length, s.mapped (s.bar2Base + offset.toNat + i) = true) &&
      ran (exec (.bar2Access offset (some bs) len) s) fun t => decide (t.readMem (s.bar2Base + offset.toNat) bs.length = bs))
      (joined ((up [keyMEM 0]).setReg (keyMEM 0) 0x134 1)) (64) (0) ([1, 0, 3]) = true := by decide +kernel

theorem wit_HostLinksComplete_9 :
    (fun (s : State) (offset : BitVec 37) (len : Fin 4097) => decide (s.memPath 0 (s.bar2Base + offset.toNat) = .clear) && decide (∀ i < len.val, s.mapped (s.bar2Base + offset.toNat + i) = true) &&
      ran (exec (.bar2Access offset none len) s) fun t => decide (t.mem = s.mem ∧ t.out = s.out ++ [.pcieReply (s.readMem (s.bar2Base + offset.toNat) len)]))
      (joined ((up [keyMEM 0]).setReg (keyMEM 0) 0x134 1)) (64) (3) = true := by decide +kernel

theorem wit_HostLinksComplete_10 :
    (fun (s : State) (port : Fin 4) => decide ((s.page (keyETH port)).st ≠ .off) && decide (s.ethUp port = false) && decide (s.pageFaulted (keyETH port) = false) && decide (s.ethBad < 2) && decide (s.rf (keyETH port) Reg.ETH_STAT.SPEED = s.rf (keyETH port) Reg.ETH_CFG.SPEED) &&
      ran (exec (.ethLinkChange port true) s) fun t => decide (t.ethUp port = true ∧ wbit (t.page (keyETH port)).irq 16 = true))
      (up [keyETH 1]) (1) = true := by decide +kernel

theorem wit_HostLinksComplete_11 :
    (fun (s : State) (port : Fin 4) => decide ((s.page (keyETH port)).st ≠ .off) && decide (s.ethUp port = true) &&
      ran (exec (.ethLinkChange port false) s) fun t => decide (t.ethUp port = false ∧ wbit (t.page (keyETH port)).err 16 = true))
      ((up [keyETH 1]).wb (keyETH 1) Reg.ETH_STAT.LINK_UP true) (1) = true := by decide +kernel

theorem wit_CompressionAndCheckUnitsComplete_1 :
    (fun (s : State) (who : Issuer) (engine : Fin 8) (tag : Nat) => decide (s.takes who (keyCMP engine)) && decide (cmpBEGIN (s.page (keyCMP engine)).a0.toNat = true) && decide (cmpFLUSH (s.page (keyCMP engine)).a0.toNat = 0) && decide (s.rf (keyCMP engine) Reg.CMP_OUT_HI.SPACE ≠ 2) &&
      ran (exec (.deflate who engine tag) s) fun t => decide ((t.cmp engine).job.map (fun j => (j.inflate, j.flags)) = some (false, (s.page (keyCMP engine)).a0.toNat) ∧ (t.page (keyCMP engine)).op.isSome = true))
      (((up [keyCMP 1]).modPage (keyCMP 1) fun p => { p with a0 := 3 }).modCmp 1 fun e => { e with produced := 0 }) (.host) (1) (7) = true := by decide +kernel

theorem wit_CompressionAndCheckUnitsComplete_2 :
    (fun (s : State) (who : Issuer) (engine : Fin 8) (tag : Nat) => decide (s.takes who (keyCMP engine)) && decide (cmpBEGIN (s.page (keyCMP engine)).a0.toNat = true ∧ cmpEND (s.page (keyCMP engine)).a0.toNat = false) && decide (cmpFLUSH (s.page (keyCMP engine)).a0.toNat = 0) && decide (s.rf (keyCMP engine) Reg.CMP_OUT_HI.SPACE ≠ 2) &&
      ran (exec (.inflate who engine tag) s) fun t => decide ((t.cmp engine).job.map (fun j => (j.inflate, j.flags)) = some (true, (s.page (keyCMP engine)).a0.toNat) ∧ (t.page (keyCMP engine)).op.isSome = true))
      (((up [keyCMP 1]).modPage (keyCMP 1) fun p => { p with a0 := 1 }).modCmp 1 fun e => { e with produced := 0 }) (.host) (1) (7) = true := by decide +kernel

theorem wit_CompressionAndCheckUnitsComplete_3 :
    (fun (s : State) (engine : Fin 8) (input : List (BitVec 8)) (j : CmpJob) => decide ((s.cmp engine).job = some j) && decide (j.inflate = false) && decide (cmpBEGIN j.flags = true) && decide (j.inSpace = 1 ∧ j.outSpace = 1) && decide (input.length = j.inBytes) && decide (deflateBound j.framing [(input, j.flags)] ≤ j.outBytes))
      (((up [keyCMP 1]).modPage (keyCMP 1) fun p => { p with a0 := 3 }).modCmp 1 fun e => { e with job := some { inflate := false, flags := 1, inAddr := 0, inSpace := 1, inBytes := 5, outAddr := 4096, outSpace := 1, outBytes := 64, level := 6, framing := 0 } }) (1) ([1, 2, 3, 4, 5]) ({ inflate := false, flags := 1, inAddr := 0, inSpace := 1, inBytes := 5, outAddr := 4096, outSpace := 1, outBytes := 64, level := 6, framing := 0 }) = true := by decide +kernel

theorem wit_CompressionAndCheckUnitsComplete_4 :
    (fun (s : State) (engine : Fin 8) (input : List (BitVec 8)) (j : CmpJob) => decide ((s.cmp engine).job = some j) && decide (j.inflate = true) && decide (cmpBEGIN j.flags = true) && decide (j.inSpace = 1 ∧ j.outSpace = 1) && decide (input.length = j.inBytes) && decide ((inflateAll j.framing input).stop = none) && decide ((inflateAll j.framing input).out.length ≤ j.outBytes) &&
      ran (exec (.cmpJobDone engine input true) s) fun t => decide ((t.cmp engine).job = none ∧ Output.hostWrite j.outAddr ((inflateAll j.framing input).out.map some) ∈ t.out))
      (((up [keyCMP 1]).modPage (keyCMP 1) fun p => { p with a0 := 3 }).modCmp 1 fun e => { e with job := some { inflate := true, flags := 1, inAddr := 0, inSpace := 1, inBytes := 6, outAddr := 4096, outSpace := 1, outBytes := 64, level := 6, framing := 0 } }) (1) ([1, 1, 0, 254, 255, 77]) ({ inflate := true, flags := 1, inAddr := 0, inSpace := 1, inBytes := 6, outAddr := 4096, outSpace := 1, outBytes := 64, level := 6, framing := 0 }) = true := by decide +kernel

theorem wit_CompressionAndCheckUnitsComplete_5 :
    (fun (s : State) (who : Issuer) (unit : Fin 12) (tag : Nat) => decide (s.takes who (keyCRC unit)) && decide ((s.page (keyCRC unit)).st = .active) && decide ((s.page (keyCRC unit)).resReady = false) && decide ((s.crcUnit (keyCRC unit)).half = none) &&
      ran (exec (.finish who unit tag) s) fun t => decide ((t.page (keyCRC unit)).res[0]? = some (s.reg (keyCRC unit) Reg.CRC_VALUE.off) ∧ (t.crcUnit (keyCRC unit)).reg = s.crcInitial (keyCRC unit) ∧ t.pair (keyCRC unit) Reg.CRC_COUNT0.off = 0))
      ((up [keyCRC 5]).modCrc (keyCRC 5) fun u => { u with reg := 0xFFFFFFFF }) (.host) (5) (7) = true := by decide +kernel

theorem wit_CompressionAndCheckUnitsComplete_6 :
    (fun (s : State) (who : Issuer) (unit : Fin 12) (tag : Nat) => decide (s.takes who (keyCRC unit)) && decide ((s.page (keyCRC unit)).st = .active) &&
      ran (exec (.reseed who unit tag) s) fun t => decide ((t.crcUnit (keyCRC unit)).reg = s.crcInitial (keyCRC unit) ∧ (t.crcUnit (keyCRC unit)).half = none ∧ t.pair (keyCRC unit) Reg.CRC_COUNT0.off = 0))
      ((up [keyCRC 5]).modCrc (keyCRC 5) fun u => { u with reg := 0xFFFFFFFF }) (.host) (5) (7) = true := by decide +kernel

theorem wit_CompressionAndCheckUnitsComplete_7 :
    (fun (s : State) (who : Issuer) (unit : Fin 12) (value : BitVec 32) => decide (s.honours who (keyCRC unit)) && decide ((s.page (keyCRC unit)).st = .active) && decide ((s.crcUnit (keyCRC unit)).feedPort = false) && decide ((s.crcUnit (keyCRC unit)).half = none) &&
      ran (exec (.crcFeed who unit 2 value) s) fun t => decide ((t.crcUnit (keyCRC unit)).reg = crcFeedReg (s.crcUnit (keyCRC unit)).poly (s.crcUnit (keyCRC unit)).reg (leBytes value.toNat 4) ∧ t.pair (keyCRC unit) Reg.CRC_COUNT0.off = (s.pair (keyCRC unit) Reg.CRC_COUNT0.off + 4) % 2 ^ 64))
      ((up [keyCRC 5]).modCrc (keyCRC 5) fun u => { u with reg := 0xFFFFFFFF }) (.host) (5) (0x34333231) = true := by decide +kernel

theorem wit_CoresComplete_1 :
    (fun (s : State) (who : Issuer) (core : Fin 64) (tag : Nat) => decide (s.takes who (keyMC core)) && decide (s.mcState core = mcIDLE) && decide ((s.page (keyMC core)).a0.toNat ≤ 0x1FFF) &&
      ran (exec (.run who core tag) s) fun t => decide (t.mcState core = mcRUNNING ∧ t.mcPc core = (s.page (keyMC core)).a0.toNat))
      (((((up [keyMC 3]).mcEnter 3 mcIDLE).setPc 3 16).modPage (keyMC 3) fun p => { p with a0 := 5 })) (.host) (3) (7) = true := by decide +kernel

theorem wit_CoresComplete_2 :
    (fun (s : State) (who : Issuer) (core : Fin 64) (tag : Nat) => decide (s.takes who (keyMC core)) && decide (s.mcState core = mcRUNNING) && decide ((s.core core).interruptible = true) &&
      ran (exec (.halt who core tag) s) fun t => decide (t.mcState core = mcHALTED ∧ wbit (t.page (keyMC core)).irq 17 = true))
      (((((up [keyMC 3]).mcEnter 3 mcRUNNING).setPc 3 16).modPage (keyMC 3) fun p => { p with a0 := 0 })) (.host) (3) (7) = true := by decide +kernel

theorem wit_CoresComplete_3 :
    (fun (s : State) (who : Issuer) (core : Fin 64) (tag : Nat) => decide (s.takes who (keyMC core)) && decide (s.mcState core = mcHALTED) && decide (1 ≤ (s.page (keyMC core)).a0.toNat ∧ (s.page (keyMC core)).a0.toNat ≤ 65535) &&
      ran (exec (.stepCmd who core tag) s) fun t => decide (t.mcState core = mcRUNNING ∧ (t.core core).steps = some (s.page (keyMC core)).a0.toNat))
      (((((up [keyMC 3]).mcEnter 3 mcHALTED).setPc 3 16).modPage (keyMC 3) fun p => { p with a0 := 5 })) (.host) (3) (7) = true := by decide +kernel

theorem wit_CoresComplete_4 :
    (fun (s : State) (who : Issuer) (core : Fin 64) (tag : Nat) => decide (s.takes who (keyMC core)) &&
      ran (exec (.swint who core tag) s) fun t => decide ((t.core core).sw = true ∧ (t.page (keyMC core)).cmdStat = cmdStatWord tag phaseDONE 0 codeOK))
      (((((up [keyMC 3]).mcEnter 3 mcRUNNING).setPc 3 16).modPage (keyMC 3) fun p => { p with a0 := 0 })) (.host) (3) (7) = true := by decide +kernel

theorem wit_CoresComplete_5 :
    (fun (s : State) (core : Fin 64) => decide (s.mcState core = mcRUNNING) && decide (s.isActive (keyMC core) = true) && decide ((s.core core).fabWait = false) && decide ((s.core core).lands = []) && decide ((s.core core).xfer = none) && decide ((s.core core).steps = none) && decide ((s.core core).stop = none) && decide ((s.page (keyMC core)).op = none) && decide ((s.core core).reg regLC = 0) && decide (s.bundle core (s.mcPc core) = 0) &&
      ran (exec (.bundleIssue core) s) fun t => decide (t.mcPc core = (s.mcPc core + 1) % 8192 ∧ t.pair (keyMC core) 0x120 = (s.pair (keyMC core) 0x120 + 1) % 2 ^ 64 ∧ (t.core core).regs = (s.core core).regs))
      (((((up [keyMC 3]).mcEnter 3 mcRUNNING).setPc 3 16).modPage (keyMC 3) fun p => { p with a0 := 0 })) (3) = true := by decide +kernel

theorem wit_CoresComplete_6 :
    (fun (s : State) (core : Fin 64) (d a b : Fin 8) => decide (s.mcState core = mcRUNNING) && decide (s.isActive (keyMC core) = true) && decide ((s.core core).fabWait = false) && decide ((s.core core).lands = []) && decide ((s.core core).xfer = none) && decide ((s.core core).steps = none) && decide ((s.core core).stop = none) && decide ((s.page (keyMC core)).op = none) && decide ((s.core core).reg regLC = 0) && decide (s.bundle core (s.mcPc core) = (0x0400 + d.val * 128 + a.val * 16 + b.val) * 2 ^ 46) &&
      ran (exec (.bundleIssue core) s) fun t => decide (t.mcPc core = (s.mcPc core + 1) % 8192 ∧ (t.core core).reg d = ((s.core core).reg a + (s.core core).reg b) % 2 ^ 32))
      ((((((((up [keyMC 3]).mcEnter 3 mcRUNNING).setPc 3 16).modPage (keyMC 3) fun p => { p with a0 := 0 }).modCore 3 fun c => { c with regs := [(2, 0xFFFFFFFF), (3, 2)] }).setWin (coreP 3 16) 0).setWin (coreP 3 16 + 4) (word ((0x0400 + 1 * 128 + 2 * 16 + 3) * 2 ^ 14)))) (3) (1) (2) (3) = true := by decide +kernel

theorem wit_CoresComplete_7 :
    (fun (s : State) (core : Fin 64) (v : Nat) => decide (s.mcState core = mcRUNNING) && decide (s.isActive (keyMC core) = true) && decide ((s.core core).fabWait = false) && decide ((s.core core).interruptible = true) && decide ((s.core core).vector = some v) &&
      ran (exec (.interruptEntry core) s) fun t => decide (t.mcPc core = v ∧ (t.core core).reg regSPC = s.mcPc core ∧ (t.core core).reg regSST = (s.core core).reg regST ∧ (t.core core).reg regST = putBit ((s.core core).reg regST) 7 false ∧ (t.core core).vector = none))
      ((((((up [keyMC 3]).mcEnter 3 mcRUNNING).setPc 3 16).modPage (keyMC 3) fun p => { p with a0 := 0 }).modCore 3 fun c => { c with regs := [(47, 0x280)], sw := true })) (3) (0x10) = true := by decide +kernel

theorem wit_CoresComplete_8 :
    (fun (s : State) (core : Fin 64) (cycles : Nat) => decide ((s.core core).fabWait = true) && decide (s.memPath (1 + core / 32) (s.core core).fabAddr = .clear) && decide (s.poisoned ((s.core core).fabAddr / 64) = false) &&
      ran (exec (.fabReadComplete core true cycles) s) fun t => decide ((t.core core).fabWait = false ∧ (t.core core).fabLine = some ((List.range 16).map fun i => word (u32At (s.readMem (s.core core).fabAddr 64) (4 * i)))))
      ((((((up [keyMC 3]).mcEnter 3 mcRUNNING).setPc 3 16).modPage (keyMC 3) fun p => { p with a0 := 0 }).modCore 3 fun c => { c with fabWait := true, fabLo := 128 })) (3) (9) = true := by decide +kernel

theorem wit_CoresComplete_9 :
    (fun (s : State) (task : BitVec 32) (input : Fin 64) (k : Task) (m : Measure) (x : MeasIn) (pipe ins label period mk : Nat) (words : List (BitVec 32)) => decide (s.task task.toNat = some k) && decide (mfind s.measures (task.toNat % 4096) = some m) && decide (m.inputs[input.val]? = some x) && decide (k.st = .running) && decide (x.inset = some (pipe, ins)) && decide (s.insetBlock pipe ins x.next (s.blockSize (m.coreFor x)) x.base = .ready label period words mk) && decide (hasMark mk markSTALE = false) && decide ((s.core (m.coreFor x)).bufs = []) && decide (s.mcState (m.coreFor x) ≠ mcSUSPENDED) &&
      ran (exec (.inputBlock task input () ()) s) fun t => decide ((t.core (m.coreFor x)).bufs.map (fun b => (b.input, b.label)) = [(input.val, label)]))
      (({ ((((up [keyMC 3]).mcEnter 3 mcRUNNING).wf (keyMC 3) Reg.MC_IN_CFG.WORDS 8).modInset 0 5 fun i => { i with nextLabel := 1000000 }).setTask { task 4096 3 .running [] with desc := putBytesAt (putBytesAt (task 4096 3 .running []).desc 0x48 [1]) 0x84 [10] } with measures := [(0, { cores := [3], inputs := [{ core := 3, inset := some (0, 5), next := 0, base := 0, block := 2, gap := false, stale := 0, marks := 0, label := 0, pubs := 0, entry := none, entryCore := 3, poison := false }], imageCrc := 7, outWords := 1, migrated := false, nextAt := 81920 })] })) (4096) (0) ({ task 4096 3 .running [] with desc := putBytesAt (putBytesAt (task 4096 3 .running []).desc 0x48 [1]) 0x84 [10] }) ({ cores := [3], inputs := [{ core := 3, inset := some (0, 5), next := 0, base := 0, block := 2, gap := false, stale := 0, marks := 0, label := 0, pubs := 0, entry := none, entryCore := 3, poison := false }], imageCrc := 7, outWords := 1, migrated := false, nextAt := 81920 }) ({ core := 3, inset := some (0, 5), next := 0, base := 0, block := 2, gap := false, stale := 0, marks := 0, label := 0, pubs := 0, entry := none, entryCore := 3, poison := false }) (0) (5) (0) (131072) (markGAP) ([0, 0, 0, 0]) = true := by decide +kernel

theorem wit_CoresComplete_10 :
    (fun (s : State) (task : BitVec 32) (k : Task) (m : Measure) => decide (s.task task.toNat = some k) && decide (mfind s.measures (task.toNat % 4096) = some m) && decide (k.st = .running) && decide (dDEST k.desc ≠ 0) &&
      ran (exec (.measureRecord task) s) fun t => decide (t.readyRecs.length = s.readyRecs.length + 1 ∧ (mfind t.measures (task.toNat % 4096)).map (·.nextAt) = some (m.nextAt + u32At k.desc 0x84 * sixPerUs)))
      (({ ((((up [keyMC 3]).mcEnter 3 mcRUNNING).wf (keyMC 3) Reg.MC_IN_CFG.WORDS 8).modInset 0 5 fun i => { i with nextLabel := 1000000 }).setTask { task 4096 3 .running [] with desc := putBytesAt (putBytesAt (task 4096 3 .running []).desc 0x48 [1]) 0x84 [10] } with measures := [(0, { cores := [3], inputs := [{ core := 3, inset := some (0, 5), next := 0, base := 0, block := 2, gap := false, stale := 0, marks := 0, label := 0, pubs := 0, entry := none, entryCore := 3, poison := false }], imageCrc := 7, outWords := 1, migrated := false, nextAt := 81920 })] })) (4096) ({ task 4096 3 .running [] with desc := putBytesAt (putBytesAt (task 4096 3 .running []).desc 0x48 [1]) 0x84 [10] }) ({ cores := [3], inputs := [{ core := 3, inset := some (0, 5), next := 0, base := 0, block := 2, gap := false, stale := 0, marks := 0, label := 0, pubs := 0, entry := none, entryCore := 3, poison := false }], imageCrc := 7, outWords := 1, migrated := false, nextAt := 81920 }) = true := by decide +kernel

theorem wit_DisplayCommandsComplete_1 :
    (fun (s : State) (six : Nat) (annot : Option (List (BitVec 8))) (header image : List (BitVec 8)) (ltrNs : Nat) => decide (s.pageOff keyDSP = false) && decide (s.annotUse = none) && decide (s.pendOf keyDSP = none) && decide ((s.scanOf 0).blank = false) && decide (s.outState 0 = outOFF ∧ s.outState 1 = outOFF) &&
      ran (exec (.vsync 0 six annot header image [] [] ltrNs) s) fun t => decide ((t.scanOf 0).frameAt = t.six ∧ wbit (t.page keyDSP).irq 16 = true ∧ t.rf keyDSP Reg.DSP_FRAMES = satInc 0xFFFFFFFF (s.rf keyDSP Reg.DSP_FRAMES)))
      ((up [keyDSP])) (81920) (none) ([]) ([]) (500) = true := by decide +kernel

theorem wit_DisplayCommandsComplete_2 :
    (fun (s : State) (output : Fin 2) => decide (s.pageOff keyDSP = false) && decide (s.hpd output = false) && decide (s.outEnabled output = true) && decide (s.outState output = outOFF) &&
      ran (exec (.hpdChange output true) s) fun t => decide (t.hpd output = true ∧ t.outState output = outTRAINING ∧ wbit (t.page keyDSP).irq 17 = true))
      ((up [keyDSP]).modPage keyDSP fun p => { p with applied := [(0x100, 0x8)] }) (1) = true := by decide +kernel

theorem wit_DisplayCommandsComplete_3 :
    (fun (s : State) (output : Fin 2) => decide (s.pageOff keyDSP = false) && decide (s.hpd output = true) &&
      ran (exec (.hpdChange output false) s) fun t => decide (t.hpd output = false ∧ t.outState output = outOFF ∧ mfind t.sinks output = none))
      ((up [keyDSP]).wb keyDSP Reg.DSP_STAT.HPD1 true) (1) = true := by decide +kernel

theorem wit_DisplayCommandsComplete_4 :
    (fun (s : State) (output : Fin 2) (rate : Fin 3) (lowref : Bool) => decide (s.pageOff keyDSP = false) && decide (s.outState output = outTRAINING) && decide (s.linkCarries (s.outGen output) rate = true) &&
      ran (exec (.dpTrainingDone output rate lowref) s) fun t => decide (t.outState output = outACTIVE ∧ mfind t.sinks output = some (rate.val, lowref)))
      ((up [keyDSP]).setOut 1 outTRAINING) (1) (0) (true) = true := by decide +kernel

theorem wit_DisplayCommandsComplete_5 :
    (fun (s : State) (output : Fin 2) => decide (s.outState output = outACTIVE ∨ s.outState output = outLOW_REFRESH ∨ s.outState output = outUNFIT) &&
      ran (exec (.dpLinkLost output) s) fun t => decide (t.outState output = outTRAINING ∧ mfind t.sinks output = none))
      ((up [keyDSP]).setOut 1 outACTIVE) (1) = true := by decide +kernel

theorem wit_DisplayCommandsComplete_6 :
    (fun (s : State) (six : Nat) => decide (s.pageOff keyDSP = false) &&
      ran (exec (.genlockPulse six) s) fun t => decide (t.genlock.last = t.six))
      ((up [keyDSP])) (81920) = true := by decide +kernel

theorem wit_DisplayCommandsComplete_7 :
    (fun (s : State) => decide (s.rb keyDSP Reg.DSP_STAT.GL_PRESENT = true) &&
      ran (exec (.genlockLost) s) fun t => decide (t.rb keyDSP Reg.DSP_STAT.GL_PRESENT = false ∧ t.rf keyDSP Reg.DSP_STAT.GL_STATE = glFREE ∧ wbit (t.page keyDSP).err 18 = true))
      (((up [keyDSP]).wb keyDSP Reg.DSP_STAT.GL_PRESENT true)) = true := by decide +kernel

theorem wit_DisplayCommandsComplete_8 :
    (fun (s : State) (who : Issuer) (tag : Nat) => decide (s.takes who keyDSP) && decide (s.rb keyDSP Reg.DSP_STAT.GL_PRESENT = true) &&
      ran (exec (.relock who tag) s) fun t => decide (t.rf keyDSP Reg.DSP_STAT.GL_STATE = glACQUIRE ∧ (t.page keyDSP).cmdStat = cmdStatWord tag phaseDONE 0 codeOK))
      (((up [keyDSP]).wb keyDSP Reg.DSP_STAT.GL_PRESENT true)) (.host) (7) = true := by decide +kernel

theorem wit_DisplayCommandsComplete_9 :
    (fun (s : State) (gen : Fin 2) (ltrNs : Nat) (x : Nat × Nat × Nat) => decide (s.pageOff keyDSP = false) && decide ((s.scanOf gen).grt.isSome = true) && decide ((s.scanOf gen).shown.head? = some x) && decide (ltrNs < 0xFFFFFFFF) &&
      ran (exec (.displayRefill gen ltrNs) s) fun t => decide (t.reg keyDSP Reg.DSP_LTR.off = word ltrNs ∧ mfind (t.stack (addrStack (s.baseAddr (keyRED x.1) (0x200 + 0x20 * x.2.1)))).tolerances (0x120 + gen.val) = some ltrNs))
      ((up [keyDSP, keyMEM 0]).modScan 0 fun c => { c with grt := some [], shown := [(0, 2, 0)] }) (0) (500) ((0, 2, 0)) = true := by decide +kernel

theorem wit_DisplayCommandsComplete_10 :
    (fun (s : State) (header : List (BitVec 8)) (a : PendApply) => decide (s.outState 0 = outLOW_REFRESH) && decide (s.pendOf keyDSP = some a) && decide (a.empty = false) && decide (a.due ≤ s.six) &&
      ran (exec (.lowrefCheck header) s) fun t => decide (t.outState 0 = outACTIVE ∧ (t.scanOf 0).static = 0))
      ({ (up [keyDSP]).setOut 0 outLOW_REFRESH with pend := [(keyDSP, { due := 0, words := [], byOp := false })] }) ([]) ({ due := 0, words := [], byOp := false }) = true := by decide +kernel

theorem wit_SupplyCommandsTakeEffect_1 :
    (fun (s : State) => decide (s.phase = 0) && decide (s.power.thermal = false) &&
      ran (exec (.vinStart) s) fun t => decide (t.phase = 1 ∧ t.rf keyMOD Reg.MOD_STAT.LAST_RESET = (if s.power.failed then 3 else 0) ∧ t.power.failed = false ∧ t.keyStore = s.keyStore))
      (State.reset.setPhase 0) = true := by decide +kernel

theorem wit_SupplyCommandsTakeEffect_2 :
    (fun (s : State) => decide (s.phase = 0) && decide (s.power.thermal = true) &&
      ran (exec (.vinStart) s) fun t => decide (t = s))
      ((State.reset.setPhase 0).modPower fun p => { p with thermal := true }) = true := by decide +kernel

theorem wit_SupplyCommandsTakeEffect_3 :
    (fun (s : State) (last : Fin 8) => decide (s.phase = 0) &&
      ran (exec (.undervoltage last) s) fun t => decide (t.power.thermal = false ∧ t.phase = 0))
      ((State.reset.setPhase 0).modPower fun p => { p with thermal := true }) (7) = true := by decide +kernel

theorem wit_SupplyCommandsTakeEffect_4 :
    (fun (s : State) (last : Fin 8) => decide (s.phase ≠ 0) && decide (s.rb keyMOD Reg.MOD_STAT.POWER_FAIL = false) &&
      ran (exec (.undervoltage last) s) fun t => decide (t.phase = 0 ∧ t.power.failed = true ∧ t.power.thermal = false ∧ t.keyStore = s.keyStore ∧ t.power.fused = s.power.fused))
      (State.reset) (3) = true := by decide +kernel

theorem wit_SupplyCommandsTakeEffect_5 :
    (fun (s : State) (last : Fin 8) => decide (s.phase ≠ 0) && decide (s.rb keyMOD Reg.MOD_STAT.POWER_FAIL = false) &&
      ran (exec (.overvoltage last) s) fun t => decide (t.phase = 0 ∧ t.power.failed = true ∧ t.power.thermal = false ∧ t.keyStore = s.keyStore ∧ t.power.fused = s.power.fused))
      (State.reset) (3) = true := by decide +kernel

theorem wit_SupplyCommandsTakeEffect_6 :
    (fun (s : State) (last : Fin 8) => decide (s.phase ≠ 0) && decide (s.rb keyMOD Reg.MOD_STAT.POWER_FAIL = false) &&
      ran (exec (.powerFailTrigger last) s) fun t => decide (t.phase = 0 ∧ t.power.failed = true ∧ t.power.thermal = false ∧ t.keyStore = s.keyStore ∧ t.power.fused = s.power.fused))
      (State.reset) (3) = true := by decide +kernel

theorem wit_SupplyCommandsTakeEffect_7 :
    (fun (s : State) (last : Fin 8) => decide (s.phase ≠ 0) && decide (s.rb keyMOD Reg.MOD_STAT.POWER_FAIL = false) &&
      ran (exec (.thermalTrigger last) s) fun t => decide (t.phase = 0 ∧ t.power.failed = true ∧ t.power.thermal = true ∧ t.keyStore = s.keyStore ∧ t.power.fused = s.power.fused))
      (State.reset) (3) = true := by decide +kernel

theorem wit_SupplyCommandsTakeEffect_8 :
    (fun (s : State) (domain : Fin 30) => decide (s.ready = true) && decide (s.domainOn domain = true) && decide (s.domainNeeded domain = false) &&
      ran (exec (.domainOffTimer domain) s) fun t => decide (t.domainOn domain = false ∧ t.rf keyPWR Reg.PWR_SWITCHES = satInc 0xFFFFFFFF (s.rf keyPWR Reg.PWR_SWITCHES)))
      (((up [keyDSP]).wf keyPWR Reg.PWR_DOMAINS.MAP 0x3FFFFFFF).wb keyMOD Reg.MOD_PWR_ALLOW.DISPLAY true) (24) = true := by decide +kernel

theorem wit_SupplyCommandsTakeEffect_9 :
    (fun (s : State) (domain : Fin 30) => decide (s.ready = true) && decide (s.domainOn domain = false) && decide (s.domainNeeded domain = true) && decide (nbit (s.rf keyPWR Reg.PWR_TRIPPED.MAP) domain = false) &&
      ran (exec (.domainOnDone domain) s) fun t => decide (t.domainOn domain = true))
      ((up []).wb keyMOD Reg.MOD_PWR_ALLOW.DISPLAY false) (24) = true := by decide +kernel

theorem wit_SupplyCommandsTakeEffect_10 :
    (fun (s : State) (domain : Fin 30) => decide (s.domainOn domain = true) &&
      ran (exec (.domainTrip domain) s) fun t => decide (t.domainOn domain = false ∧ nbit (t.rf keyPWR Reg.PWR_TRIPPED.MAP) domain = true ∧ wbit (t.page keyPWR).err 16 = true ∧ (domain.val < 10 → t.isolated (3 + domain.val % 5) = true)))
      ((up [keyDSP]).wf keyPWR Reg.PWR_DOMAINS.MAP 0x3FFFFFFF) (24) = true := by decide +kernel

theorem wit_SupplyCommandsTakeEffect_11 :
    (fun (s : State) (maddr : Fin 8) => decide (s.isSafe = false) && decide (s.inRecovery = false) && decide (s.phase = 1) && decide (s.power.porst = false) &&
      ran (exec (.startupStep maddr) s) fun t => decide (t.phase = 2 ∧ t.power.maddr = maddr))
      (State.reset) (5) = true := by decide +kernel

theorem wit_SupplyCommandsTakeEffect_12 :
    (fun (s : State) (maddr : Fin 8) => decide (s.isSafe = false) && decide (s.inRecovery = false) && decide (s.phase = 10) &&
      ran (exec (.startupStep maddr) s) fun t => decide (t.phase = 11 ∧ t.ready = true ∧ wbit (t.page keyMOD).irq 16 = true))
      (State.reset.setPhase 10) (5) = true := by decide +kernel

theorem wit_SupplyCommandsTakeEffect_13 :
    (fun (s : State) (region : Fin 8) => decide (1 ≤ s.phase ∧ s.phase < 10) && decide (s.inRecovery = false) && decide (region ≠ 0) &&
      ran (exec (.startupTimeout region) s) fun t => decide (t.isolated region = true ∧ t.rb keyMOD Reg.MOD_STAT.DEGRADED = true))
      (State.reset.setPhase 6) (4) = true := by decide +kernel

theorem wit_SupplyCommandsTakeEffect_14 :
    (fun (s : State) => decide (1 ≤ s.phase ∧ s.phase < 10) && decide (s.inRecovery = false) && decide (s.safeReq = none) &&
      ran (exec (.startupTimeout 0) s) fun t => decide (t.safeReq = some 1))
      (State.reset.setPhase 3) = true := by decide +kernel

theorem wit_SupplyCommandsTakeEffect_15 :
    (fun (s : State) (vin current power peak : BitVec 16) => decide (s.power.mgmtUntil ≤ s.six) &&
      ran (exec (.pwrVinRefresh vin current power peak) s) fun t => decide (t.rf keyPWR Reg.PWR_VIN.LO = vin.toNat ∧ t.rf keyPWR Reg.PWR_VIN.HI = current.toNat ∧ t.rf keyPWR Reg.PWR_PIN.LO = power.toNat ∧ t.rf keyPWR Reg.PWR_PIN.HI = peak.toNat ∧ wbit (t.page keyPWR).err 17 = (wbit (s.page keyPWR).err 17 || decide (3400 ≤ vin.toNat ∧ vin.toNat < 3600)) ∧ wbit (t.page keyPWR).err 18 = (wbit (s.page keyPWR).err 18 || decide (7500 < vin.toNat))))
      (up []) (3500) (1333) (6400) (7200) = true := by decide +kernel

theorem wit_ResetsKeepTheirState_1 :
    (fun (s : State) => decide (s.phase ≠ 0) &&
      ran (exec (.boardReset) s) fun t => decide (t.phase = 1 ∧ t.rf keyMOD Reg.MOD_STAT.LAST_RESET = 1 ∧ t.power.porst = true ∧ t.keyStore = s.keyStore ∧ t.flashLog = s.flashLog ∧ t.rb keySEC Reg.SEC_STAT.DEBUG_OPEN = s.rb keySEC Reg.SEC_STAT.DEBUG_OPEN))
      ((up []).wb keySEC Reg.SEC_STAT.DEBUG_OPEN true) = true := by decide +kernel

theorem wit_ResetsKeepTheirState_2 :
    (fun (s : State) => true &&
      ran (exec (.porstNRelease) s) fun t => decide (t.power.porst = false ∧ t.phase = s.phase))
      (State.reset.modPower fun p => { p with porst := true }) = true := by decide +kernel

theorem wit_ResetsKeepTheirState_3 :
    (fun (s : State) (who : Issuer) (tag : Nat) => decide (s.takes who keyMOD) && decide ((s.page keyMOD).a0.toNat = 0x4D525354) && decide (10 ≤ s.phase) && decide (s.rb keyMOD Reg.MOD_STAT.POWER_FAIL = false) &&
      ran (exec (.moduleReset who tag) s) fun t => decide (t.phase = 3 ∧ t.ready = false ∧ t.rf keyMOD Reg.MOD_STAT.LAST_RESET = 2 ∧ t.six = s.six ∧ t.log = s.log ∧ t.keyStore = s.keyStore ∧ t.power.kt = s.power.kt ∧ t.mem = [] ∧ t.routes = []))
      ({ ((up [keyMOD]).setPhase 11).modPage keyMOD fun p => { p with a0 := 0x4D525354 } with six := 77, routes := [(5, 40)] }) (.host) (7) = true := by decide +kernel

theorem wit_FirmwareCommandsTakeEffect_1 :
    (fun (s : State) (who : Issuer) (tag : Nat) (image : List Byte) => decide (s.takes who keySEC) && decide (512 < (s.page keySEC).a2.toNat ∧ (s.page keySEC).a2.toNat ≤ fwBankBytes) &&
      ran (exec (.fwWrite who tag (some image)) s) fun t => decide (t.power.image = some (image.take (s.page keySEC).a2.toNat) ∧ t.rf keySEC Reg.SEC_STAT.UPDATE = 1 ∧ t.fwBank (!s.runBank) = [] ∧ t.fwBank s.runBank = s.fwBank s.runBank))
      (((up [keySEC]).modPage keySEC fun p => { p with a2 := 600 })) (.host) (7) ([1, 2, 3]) = true := by decide +kernel

theorem wit_FirmwareCommandsTakeEffect_2 :
    (fun (s : State) (i : List Byte) => decide (s.power.image = some i) && decide (s.secOp = some 0x0100) && decide (s.fwFault i = none))
      ((((up [keySEC]).modPage keySEC fun p => { p with op := some { opcode := 0x0100, tag := 9, a0 := 0, a1 := 0, a2 := 0, a3 := 0, suspended := false } }).modPower fun p => { p with image := some fwSigned, fused := fwFused })) (fwSigned) = true := by decide +kernel

theorem wit_FirmwareCommandsTakeEffect_3 :
    (fun (s : State) (i : List Byte) (op : Op) => decide (s.power.image = some i) && decide ((s.page keySEC).op = some op) && decide (op.opcode = 0x0100) &&
      ran (exec (.fwWriteDone false) s) fun t => decide (t.power.image = none ∧ t.rf keySEC Reg.SEC_STAT.UPDATE = 0 ∧ (t.page keySEC).op = none ∧ (t.page keySEC).cmdStat = cmdStatWord op.tag phaseFAILED 0x01 codeINTEGRITY))
      ((((up [keySEC]).modPage keySEC fun p => { p with op := some { opcode := 0x0100, tag := 9, a0 := 0, a1 := 0, a2 := 0, a3 := 0, suspended := false } }).modPower fun p => { p with image := some [1, 2] })) ([1, 2]) ({ opcode := 0x0100, tag := 9, a0 := 0, a1 := 0, a2 := 0, a3 := 0, suspended := false }) = true := by decide +kernel

theorem wit_FirmwareCommandsTakeEffect_4 :
    (fun (s : State) (who : Issuer) (tag : Nat) => decide (s.takes who keySEC) && decide (s.rb keySEC Reg.SEC_STAT.OTHER_VALID = true) && decide (s.inRecovery = false) &&
      ran (exec (.fwActivate who tag) s) fun t => decide (t.rf keySEC Reg.SEC_STAT.UPDATE = 3 ∧ (t.page keySEC).op = some (s.latch keySEC 0x0101 tag)))
      (((up [keySEC])).wb keySEC Reg.SEC_STAT.OTHER_VALID true) (.host) (7) = true := by decide +kernel

theorem wit_FirmwareCommandsTakeEffect_5 :
    (fun (s : State) => decide (s.secOp = some 0x0101) && decide (s.power.holdAt.isSome = true) &&
      ran (exec (.newImageTakeover) s) fun t => decide (t.runBank = !s.runBank ∧ t.power.holdAt = none ∧ (t.page keySEC).op = none ∧ t.preferred = !s.runBank))
      ((((up [keySEC]).modPage keySEC fun p => { p with op := some { opcode := 0x0101, tag := 9, a0 := 0, a1 := 0, a2 := 0, a3 := 0, suspended := false } }).modPower fun p => { p with holdAt := some 5 })) = true := by decide +kernel

theorem wit_FirmwareCommandsTakeEffect_6 :
    (fun (s : State) (h : Nat) => decide (s.power.holdAt = some h) && decide (s.secOp = some 0x0101) &&
      ran (exec (.activateTimeout) s) fun t => decide (t.power.holdAt = none ∧ t.rf keySEC Reg.SEC_STAT.UPDATE = 2 ∧ t.runBank = s.runBank ∧ (t.page keySEC).op = none))
      ((((up [keySEC]).modPage keySEC fun p => { p with op := some { opcode := 0x0101, tag := 9, a0 := 0, a1 := 0, a2 := 0, a3 := 0, suspended := false } }).modPower fun p => { p with holdAt := some 5 })) (5) = true := by decide +kernel

theorem wit_FirmwareCommandsTakeEffect_7 :
    (fun (s : State) (who : Issuer) (tag : Nat) => decide (s.takes who keySEC) && decide (s.inRecovery = false) &&
      ran (exec (.fwRatchet who tag) s) fun t => decide (t.svnMin = max s.svnMin (s.rf keySEC Reg.SEC_STAT.SVN) ∧ (t.page keySEC).op = none))
      (((up [keySEC])).wf keySEC Reg.SEC_STAT.SVN 9) (.host) (7) = true := by decide +kernel

theorem wit_KeysAndDebugTakeEffect_1 :
    (fun (s : State) (who : Issuer) (tag : Nat) (nonce : List Byte) => decide (s.takes who keySEC) && decide (s.provisioned = true) && decide (344 ≤ (s.page keySEC).a2.toNat) && decide ((s.page keySEC).resReady = false))
      (((((up [keySEC]).modPage keySEC fun p => { p with a2 := 344 })).wb keySEC Reg.SEC_STAT.PROVISIONED true)) (.host) (7) ([1]) = true := by decide +kernel

theorem wit_KeysAndDebugTakeEffect_2 :
    (fun (s : State) (who : Issuer) (tag : Nat) (buffer : List Byte) => decide (s.takes who keySEC) && decide (s.provisioned = true) && decide (320 ≤ (s.page keySEC).a2.toNat))
      (((((up [keySEC]).modPage keySEC fun p => { p with a2 := 320 })).wb keySEC Reg.SEC_STAT.PROVISIONED true)) (.host) (7) ([1]) = true := by decide +kernel

theorem wit_KeysAndDebugTakeEffect_3 :
    (fun (s : State) (who : Issuer) (tag : Nat) (blob kt key : List Byte) (iv : Nat) => decide (s.takes who keySEC) && decide (s.provisioned = true) && decide (s.slotError (s.page keySEC).a2.toNat = none) && decide (s.power.kt = some kt) && decide (unwrapKey kt s.power.ktIv (s.page keySEC).a2.toNat blob = some (key, iv)) &&
      ran (exec (.keyLoad who tag (some blob)) s) fun t => decide (mfind t.keyStore (s.page keySEC).a2.toNat = some key ∧ t.power.ktIv = some iv ∧ (t.page keySEC).cmdStat = cmdStatWord tag phaseDONE 0 codeOK))
      ((((((up [keySEC]).modPage keySEC fun p => { p with a2 := 5 }).modPower fun p => { p with kt := some (List.replicate 32 (0 : Byte)) })).wb keySEC Reg.SEC_STAT.PROVISIONED true)) (.host) (7) (keyBlob) ((List.replicate 32 (0 : Byte))) ((List.replicate 32 (7 : Byte))) (1) = true := by decide +kernel

theorem wit_KeysAndDebugTakeEffect_4 :
    (fun (s : State) (who : Issuer) (tag : Nat) => decide (s.takes who keySEC) && decide (s.slotError (s.page keySEC).a0.toNat = none) &&
      ran (exec (.keyClear who tag) s) fun t => decide (mfind t.keyStore (s.page keySEC).a0.toNat = none ∧ (t.page keySEC).cmdStat = cmdStatWord tag phaseDONE 0 codeOK))
      ({ ((up [keySEC]).modPage keySEC fun p => { p with a0 := 5 }) with keyStore := [(5, [1]), (9, [2])] }) (.host) (7) = true := by decide +kernel

theorem wit_KeysAndDebugTakeEffect_5 :
    (fun (s : State) (who : Issuer) (tag : Nat) => decide (s.takes who keySEC) && decide ((s.page keySEC).a0.toNat = 0x44454247) && decide ((s.page keySEC).resReady = false) &&
      ran (exec (.debugOpen who tag false) s) fun t => decide (t.keyStore = [] ∧ t.power.kt = none ∧ t.guestWin = [] ∧ t.rb keySEC Reg.SEC_STAT.DEBUG_OPEN = true ∧ (t.page keySEC).res.head? = some 72))
      ({ ((up [keySEC]).modPage keySEC fun p => { p with a0 := 0x44454247 }) with keyStore := [(5, [1])] }) (.host) (7) = true := by decide +kernel

theorem wit_ManagementInterfaceTakesEffect_1 :
    (fun (s : State) (e : BitVec 8) => decide (s.phase ≠ 0) && decide (s.power.mgmtUntil ≤ s.six) &&
      ran (exec (.mctpMessage (.setEid e)) s) fun t => decide (t.power.eid = e.toNat ∧ t.out = s.out ++ [.mgmt (.setEid e) true [e.toNat]]))
      (State.reset) (9) = true := by decide +kernel

theorem wit_ManagementInterfaceTakesEffect_2 :
    (fun (s : State) => decide (s.phase ≠ 0) && decide (s.power.mgmtUntil ≤ s.six) &&
      ran (exec (.mctpMessage .getEid) s) fun t => decide (t.out = s.out ++ [.mgmt .getEid true [s.power.eid]]))
      (State.reset) = true := by decide +kernel

theorem wit_ManagementInterfaceTakesEffect_3 :
    (fun (s : State) (m : MctpMsg) => decide (s.phase ≠ 0) && decide (s.six < s.power.mgmtUntil) &&
      ran (exec (.mctpMessage m) s) fun t => decide (t.power.deferred = s.power.deferred ++ [m] ∧ t.out = s.out))
      (State.reset.modPower fun p => { p with mgmtUntil := 5 }) (.getEid) = true := by decide +kernel

theorem wit_ManagementInterfaceTakesEffect_4 :
    (fun (s : State) (id : Fin 16) (value : Int) => decide (s.phase ≠ 0) && decide (s.power.mgmtUntil ≤ s.six) && decide (id ≠ 0) &&
      ran (exec (.sensorRefresh [(id, value)]) s) fun t => decide (t.sensor id = value))
      (State.reset) (4) (1001) = true := by decide +kernel

theorem wit_ManagementInterfaceTakesEffect_5 :
    (fun (s : State) => true &&
      ran (exec (.smbusTimeout) s) fun t => decide (t.power.deferred = []))
      (State.reset.modPower fun p => { p with deferred := [.getEid] }) = true := by decide +kernel

theorem wit_ManagementInterfaceTakesEffect_6 :
    (fun (s : State) (char : BitVec 8) => true &&
      ran (exec (.uartRxCharacter char true) s) fun t => decide (t.power.uart = s.power.uart ++ [char]))
      (State.reset) (0x41) = true := by decide +kernel

theorem wit_AvailabilityCommandsTakeEffect_1 :
    (fun (s : State) (plane : Fin 2) => decide (s.rf keyFLT Reg.FLT_PLANES.PLANE_OUT = 0) &&
      ran (exec (.planeFailure plane) s) fun t => decide (nbit (t.rf keyFLT Reg.FLT_PLANES.PLANE_OUT) plane = true ∧ plane.val ∈ t.power.planeTests ∧ t.safeReq = s.safeReq))
      ((up [keyFLT])) (1) = true := by decide +kernel

theorem wit_AvailabilityCommandsTakeEffect_2 :
    (fun (s : State) (plane : Fin 2) => decide (s.power.planeTests.contains plane.val = true) &&
      ran (exec (.planeSelftest plane true) s) fun t => decide (nbit (t.rf keyFLT Reg.FLT_PLANES.PLANE_OUT) plane = false ∧ t.power.planeTests.contains plane.val = false))
      (((up [keyFLT]).wf keyFLT Reg.FLT_PLANES.PLANE_OUT 2).modPower fun p => { p with planeTests := [1] }) (1) = true := by decide +kernel

theorem wit_AvailabilityCommandsTakeEffect_3 :
    (fun (s : State) => true &&
      ran (exec (.lockstepMismatch) s) fun t => decide (t.power.mgmtUntil = s.six + 20 * sixPerMs ∧ t.six = s.six))
      ((up [keyFLT])) = true := by decide +kernel

theorem wit_AvailabilityCommandsTakeEffect_4 :
    (fun (s : State) => decide (s.power.mgmtUntil ≤ s.six) &&
      ran (exec (.checkpoint) s) fun t => decide (t.power.checkpoint = s.six ∧ t.power.deferred = []))
      (State.reset.modPower fun p => { p with deferred := [.getEid] }) = true := by decide +kernel

theorem wit_AvailabilityCommandsTakeEffect_5 :
    (fun (s : State) (key : Fin 8192) => decide ((s.page key).st = .fault ∧ (s.page key).owner = .phoin) && decide (s.phn.sticky.contains key.val = false) && decide (s.isolated (keyRegion key) = false) && decide (mfind s.phn.faultSix key = none) &&
      ran (exec (.faultAutoReset key) s) fun t => decide ((t.page key).st = .reset ∧ mfind t.phn.faultSix key = some s.six))
      ((up []).modPage (keyFFT 1) fun p => { p with st := .fault, owner := .phoin }) (Fin.ofNat 8192 (keyFFT 1)) = true := by decide +kernel

theorem wit_AvailabilityCommandsTakeEffect_6 :
    (fun (s : State) (who : Issuer) (tag : Nat) => decide (s.takes who keyFLT) && decide (1 ≤ (s.page keyFLT).a0.toNat ∧ (s.page keyFLT).a0.toNat < 8) && decide (s.isSafe = false) && decide (s.isolated (s.page keyFLT).a0.toNat = true) &&
      ran (exec (.recover who tag) s) fun t => decide ((t.page keyFLT).op = some (s.latch keyFLT 0x0102 tag)))
      (((up [keyFLT]).wf keyFLT Reg.FLT_STAT.ISOLATED 0x10).modPage keyFLT fun p => { p with a0 := 4 }) (.host) (7) = true := by decide +kernel

theorem wit_AvailabilityCommandsTakeEffect_7 :
    (fun (s : State) (op : Op) => decide ((s.page keyFLT).op = some op) && decide (op.opcode = 0x0102) &&
      ran (exec (.recoverComplete false) s) fun t => decide ((t.page keyFLT).op = none ∧ (t.page keyFLT).cmdStat = cmdStatWord op.tag phaseFAILED 0x03 codeFAULT ∧ t.isolated op.a0 = s.isolated op.a0))
      ((up [keyFLT]).modPage keyFLT fun p => { p with op := some { opcode := 0x0102, tag := 9, a0 := 0, a1 := 0, a2 := 0, a3 := 0, suspended := false } }) ({ opcode := 0x0102, tag := 9, a0 := 0, a1 := 0, a2 := 0, a3 := 0, suspended := false }) = true := by decide +kernel

theorem wit_AvailabilityCommandsTakeEffect_8 :
    (fun (s : State) (who : Issuer) (tag : Nat) (e : LogEntry) => decide (s.takes who keyFLT) && decide ((s.page keyFLT).resReady = false) && decide (s.log.find? (fun e => decide (e.entry = (s.page keyFLT).a0.toNat)) = some e) &&
      ran (exec (.readLog who tag) s) fun t => decide ((t.page keyFLT).res.take 8 = e.words ∧ (t.page keyFLT).resReady = true ∧ t.log = s.log))
      ({ ((up [keyFLT]).modPage keyFLT fun p => { p with a0 := 3 }) with log := [{ entry := 3, level := 2, code := 0, sub := 0, kind := 7, six := 50, source := 0x100, pageKey := 0xFFFF, detail := 8 }] }) (.host) (7) ({ entry := 3, level := 2, code := 0, sub := 0, kind := 7, six := 50, source := 0x100, pageKey := 0xFFFF, detail := 8 }) = true := by decide +kernel

theorem wit_AvailabilityCommandsTakeEffect_9 :
    (fun (s : State) (who : Issuer) (tag : Nat) (e : LogEntry) => decide (s.takes who keyFLT) && decide ((s.page keyFLT).resReady = false) && decide (s.flashLog.reverse[(s.page keyFLT).a0.toNat]? = some e) &&
      ran (exec (.readFlashLog who tag) s) fun t => decide ((t.page keyFLT).res.take 8 = e.words ∧ (t.page keyFLT).resReady = true ∧ t.flashLog = s.flashLog))
      ({ (up [keyFLT]) with flashLog := [{ entry := 3, level := 2, code := 0, sub := 0, kind := 7, six := 50, source := 0x100, pageKey := 0xFFFF, detail := 8 }] }) (.host) (7) ({ entry := 3, level := 2, code := 0, sub := 0, kind := 7, six := 50, source := 0x100, pageKey := 0xFFFF, detail := 8 }) = true := by decide +kernel

theorem wit_AvailabilityCommandsTakeEffect_10 :
    (fun (s : State) (e : LogEntry) => decide (s.held = [e]) && decide (s.isSafe = true) && decide ((s.pageHolders e.pageKey) = []) &&
      ran (exec (.collectorRelease) s) fun t => decide (t.held = []))
      ({ ((up [keyFLT]).wf keyFLT Reg.FLT_STAT.STATE 2) with held := [{ entry := 3, level := 2, code := 0, sub := 0, kind := 7, six := 50, source := 0x100, pageKey := 0xFFFF, detail := 8 }] }) ({ entry := 3, level := 2, code := 0, sub := 0, kind := 7, six := 50, source := 0x100, pageKey := 0xFFFF, detail := 8 }) = true := by decide +kernel

theorem wit_AvailabilityCommandsTakeEffect_11 :
    (fun (s : State) (cause : Nat) => decide (s.safeReq = some cause) && decide (s.isSafe = false) && decide (s.phase ≠ 0) &&
      ran (exec (.safeStateEntry) s) fun t => decide (t.isSafe = true ∧ t.ready = false ∧ t.rb keyFLT Reg.FLT_STAT.FAULT_N = true ∧ wbit (t.page keyFLT).irq 18 = true))
      ({ up [] with safeReq := some 1 }) (1) = true := by decide +kernel

theorem wit_StepKeepsMemoryCanonical :
    (decide (Memory.wf [(5, 1), (9, 2)] = true) && ran (step { up [] with mem := [(5, 1), (9, 2)] }) fun t => decide (t.mem = [(5, 1), (9, 2)])) = true := by decide +kernel


theorem wit_StepKeepsSixIn72Bits :
    ran (step { ((up []).modTb fun b => { b with running := true }) with six := 2 ^ 72 - 1 }) (fun t => decide (t.six = 0)) = true := by decide +kernel


theorem wit_StepKeepsLogLengths :
    (let e : LogEntry := { entry := 0, level := 4, code := 0, sub := 0, kind := 16, six := 0, source := 0, pageKey := 0, detail := 0 }
      let s : State := (up [keyFLT]).logRaw e
      decide (s.log.length = 1 ∧ s.flashLog.length = 1)) = true := by decide +kernel


theorem wit_OtherCommandsKeepMemory :
    (decide ((Instr.query .host (Fin.ofNat 8192 keyTBS) 7).mayStore = false) &&
      ran (exec (.query .host (Fin.ofNat 8192 keyTBS) 7) { up [keyTBS] with mem := [(5, 1)] }) fun t => decide (t.mem = [(5, 1)])) = true := by decide +kernel


theorem wit_KeyStoreChangesOnlyByItsCommands :
    (decide ((Instr.undervoltage 3).mayChangeKeys = false) &&
      ran (exec (.undervoltage 3) { up [] with keyStore := [(5, [1])] }) fun t => decide (t.keyStore = [(5, [1])] ∧ t.phase = 0)) = true := by decide +kernel


theorem wit_RoutesChangeOnlyByTheirCommands :
    (decide ((Instr.query .host (Fin.ofNat 8192 keyTBS) 7).mayChangeRoutes = false) &&
      ran (exec (.query .host (Fin.ofNat 8192 keyTBS) 7) { up [keyTBS] with routes := [(keyTBS, 40)] }) fun t => decide (t.vectorOf keyTBS = some 40)) = true := by decide +kernel


theorem wit_PhoinChangesOnlyByItsCommands :
    (decide ((Instr.query .host (Fin.ofNat 8192 keyTBS) 7).mayChangePhoin = false) &&
      ran (exec (.query .host (Fin.ofNat 8192 keyTBS) 7) (up [keyTBS])) fun t => decide (t.phn = State.reset.phn)) = true := by decide +kernel


theorem wit_FusedKeyNeverChanges :
    ran (exec (.undervoltage 3) ((up []).modPower fun p => { p with fused := fwFused })) (fun t => decide (t.power.fused = fwFused ∧ t.phase = 0)) = true := by decide +kernel


theorem wit_FieldsReadBack : (decide (Reg.MOD_STAT.PHASE.hi < 32 ∧ Reg.MOD_STAT.PHASE.lo ≤ Reg.MOD_STAT.PHASE.hi) && decide ((State.reset.setPhase 9).phase = 9)) = true := by decide +kernel


theorem wit_HeaderWritesLeaveTheRest : (decide ((up [keyTBS]).discards .host keyTBS = none) &&
    ran (exec (.registerWrite .host (Fin.ofNat 8192 keyTBS) 16 77 true) (up [keyTBS])) fun t => decide ((t.page keyTBS).a3 = 77 ∧ t.page keyFLT = (up [keyTBS]).page keyFLT)) = true := by decide +kernel


theorem wit_ChangeOfOwner : (decide ((State.reset.page keyTBS).owner ≠ .phoin) && decide (((State.reset.changeOwner keyTBS .phoin).page keyTBS).gen = 1)) = true := by decide +kernel


theorem wit_ArmSyncTimeoutFails_1 :
    (fun (s : State) (o : SyncOp) (op : Op) => decide (s.tb.sync = some o) && decide (o.isNow = false) && decide (o.first = none) && decide ((s.page keyTBS).op = some op) &&
      ran (exec (.armSyncTimeout) s) fun t => decide ((t.page keyTBS).op = none ∧ (t.page keyTBS).cmdStat = cmdStatWord op.tag phaseFAILED 0x03 codeTIMEOUT ∧ t.tb.sync = none ∧ t.tb.shift = s.tb.shift ∧ t.tb.sixLoaded = s.tb.sixLoaded ∧ t.six = if s.six < o.deadline then o.deadline % 2 ^ 72 else s.six))
      (((up [keyTBS]).modTb fun b => { b with sync := some { isNow := false, falling := false, syncout := 0, loadSix := false, check := false, delay := 0, sixLoad := 0, deadline := 90, first := none, edge := none } }).modPage keyTBS fun p => { p with op := some { opcode := 0x0101, tag := 9, a0 := 0, a1 := 0, a2 := 0, a3 := 0, suspended := false } }) ({ isNow := false, falling := false, syncout := 0, loadSix := false, check := false, delay := 0, sixLoad := 0, deadline := 90, first := none, edge := none }) ({ opcode := 0x0101, tag := 9, a0 := 0, a1 := 0, a2 := 0, a3 := 0, suspended := false }) = true := by decide +kernel

theorem wit_RouteIrqWhole_1 :
    (fun (s : State) (who : Issuer) (tag : Nat) => decide (s.takes who keyHIF) && decide (keyListed ((s.page keyHIF).a0.toNat % 2 ^ 13) = false ∨ (1 ≤ (s.page keyHIF).a1.toNat % 2 ^ 11 ∧ (s.page keyHIF).a1.toNat % 2 ^ 11 < 32)) &&
      ran (exec (.routeIrq who tag) s) fun t => decide (t.routes = s.routes ∧ (t.page keyHIF).cmdStat = cmdStatWord tag phaseREJECTED 0 codeRANGE))
      (((up [keyHIF]).modPage keyHIF fun p => { p with a0 := keyTBS, a1 := 31 })) (.host) (7) = true := by decide +kernel

theorem wit_RouteIrqWhole_2 :
    (fun (s : State) (who : Issuer) (tag : Nat) => decide (s.takes who keyHIF) && decide ((s.page keyHIF).a0.toNat % 2 ^ 13 = keyFLT) && decide ((s.page keyHIF).a1.toNat % 2 ^ 11 = 0 ∨ 32 ≤ (s.page keyHIF).a1.toNat % 2 ^ 11) &&
      ran (exec (.routeIrq who tag) s) fun t => decide (t.routes = s.routes ∧ (t.page keyHIF).cmdStat = cmdStatWord tag phaseREJECTED 0x03 codePROTECT))
      (((up [keyHIF]).modPage keyHIF fun p => { p with a0 := keyFLT, a1 := 32 })) (.host) (7) = true := by decide +kernel

theorem wit_RouteIrqWhole_3 :
    (fun (s : State) (who : Issuer) (tag : Nat) => decide (s.takes who keyHIF) && decide (keyListed ((s.page keyHIF).a0.toNat % 2 ^ 13) = true) && decide ((s.page keyHIF).a0.toNat % 2 ^ 13 ≠ keyFLT) && decide ((s.page keyHIF).a1.toNat % 2 ^ 11 = 0 ∨ 32 ≤ (s.page keyHIF).a1.toNat % 2 ^ 11) &&
      ran (exec (.routeIrq who tag) s) fun t => decide (t.vectorOf keyTBS = some 2047 ∧ t.vectorOf keyTDC = some 41))
      ({ ((up [keyHIF]).modPage keyHIF fun p => { p with a0 := keyTBS, a1 := 2047 }) with routes := [(keyTBS, 40), (keyTDC, 41)] }) (.host) (7) = true := by decide +kernel

theorem wit_RouteIrqWhole_4 :
    (fun (s : State) (who : Issuer) (tag : Nat) => decide (s.takes who keyMOD) && decide ((s.page keyMOD).a0.toNat = 0x4D525354) && decide (10 ≤ s.phase) && decide (s.rb keyMOD Reg.MOD_STAT.POWER_FAIL = false) &&
      ran (exec (.moduleReset who tag) s) fun t => decide (t.routes = []))
      ({ ((up [keyMOD]).setPhase 11).modPage keyMOD fun p => { p with a0 := 0x4D525354 } with routes := [(5, 40)] }) (.host) (7) = true := by decide +kernel

theorem wit_RouteIrqWhole_5 :
    (fun (s : State) => decide (s.perst = false) &&
      ran (exec (.perstNAssert) s) fun t => decide (t.routes = []))
      ({ up [] with perst := false, routes := [(5, 40)] }) = true := by decide +kernel

theorem wit_ShadowBusyRefuses_1 :
    (fun (s : State) (who : Issuer) (chan : Fin 512) (index : Fin 32) (value : BitVec 32) => decide (s.discards who (chanKey chan) = none) && decide (s.shBusy chan = true) &&
      ran (exec (.trvShWrite who chan index value) s) fun t => decide (t.shBytes chan = s.shBytes chan ∧ (t.chan chan).sh = (s.chan chan).sh ∧ wbit (t.page (chanKey chan)).err 16 = true))
      (((up [chanKey 17]).modChan 17 fun x => { x with sh := some { bytes := List.replicate 128 (0 : Byte), addr := none } })) (.host) (17) (3) (5) = true := by decide +kernel

theorem wit_ShadowBusyRefuses_2 :
    (fun (s : State) (who : Issuer) (chan : Fin 512) => decide (s.discards who (chanKey chan) = none) && decide (s.shBusy chan = true) &&
      ran (exec (.trvCommit who chan) s) fun t => decide (t.rf (chanKey chan) (Reg.TRV_STAT.CODE (chan.val % 16)) = codeBUSY ∧ t.shBytes chan = s.shBytes chan ∧ (t.chan chan).sh = (s.chan chan).sh ∧ (t.chan chan).act = (s.chan chan).act))
      (((up [chanKey 17]).modChan 17 fun x => { x with fetch := some (.desc true 128) })) (.host) (17) = true := by decide +kernel

theorem wit_HostWritesNeedOwnership_1 :
    (fun (s : State) (key : Fin 8192) (i : Fin 1024) (value : BitVec 32) (full : Bool) => decide (s.discards .host key = some .owner) &&
      ran (exec (.registerWrite .host key i value full) s) fun t => decide ((key.val ≠ keyFLT → t.page key = s.page key) ∧ (t.page key).cmdStat = (s.page key).cmdStat ∧ (t.page key).op = (s.page key).op ∧ (t.page key).owner = (s.page key).owner ∧ (t.page key).st = (s.page key).st ∧ ∃ e ∈ t.log, e.code = codeOWNER ∧ e.kind = 6 ∧ e.pageKey = key ∧ e.detail = barAddr key (4 * i.val) % 2 ^ 48 + value.toNat % 2 ^ 16 * 2 ^ 48))
      ((up [keyTBS]).modPage keyTBS fun p => { p with owner := .phoin }) (Fin.ofNat 8192 keyTBS) (70) (0x12345) (true) = true := by decide +kernel

theorem wit_HostWritesNeedOwnership_2 :
    (fun (s : State) (key : Fin 8192) (tag : Nat) => decide (s.discards .host key = some .owner) &&
      ran (exec (.query .host key tag) s) fun t => decide ((key.val ≠ keyFLT → t.page key = s.page key) ∧ ∃ e ∈ t.log, e.code = codeOWNER ∧ e.kind = 6 ∧ e.pageKey = key ∧ e.detail = barAddr key 0x030 % 2 ^ 48 + cmdWord tag 0x0007 % 2 ^ 16 * 2 ^ 48))
      ((up [keyTBS]).modPage keyTBS fun p => { p with owner := .phoin }) (Fin.ofNat 8192 keyTBS) (7) = true := by decide +kernel

theorem wit_RingEntriesLand_1 :
    (fun (s : State) (ring : Fin 32768) (e : List Byte) (rest : List (List Byte)) => decide ((s.ring ring).entries = e :: rest) && decide ((s.ring ring).st = .open0) && decide ((s.ring ring).consumer = true) && decide (((s.ring ring).growTo ((s.ring ring).prod + 1)).held < ((s.ring ring).growTo ((s.ring ring).prod + 1)).len) && decide (((s.ring ring).growTo ((s.ring ring).prod + 1)).host = false) && decide (s.ringPath ((s.ring ring).growTo ((s.ring ring).prod + 1)) (((s.ring ring).growTo ((s.ring ring).prod + 1)).slot ((s.ring ring).growTo ((s.ring ring).prod + 1)).prod) = .clear) &&
      ran (exec (.ringProduce ring true) s) fun t => decide ((t.ring 9).entries = [[3]] ∧ t.readByte ((s.ring 9).slot 0 + 1) = 2))
      (joined (State.reset.modRing 9 fun r => { r with st := .open0, consumer := true, host := false, base := 1000, entryLog2 := 1, lenLog2 := 2, entries := [[1, 2], [3]] })) (9) ([1, 2]) ([[3]]) = true := by decide +kernel

/-! ### Ill-formed commands are refused: one for each check of Instr.wf. -/

theorem smoke_ill_formed_1 :
    (∀ x0 x1 x3, (Instr.startCmd x0 x1 256 x3).wf = false) ∧
    (∀ x0 x1 x3, (Instr.stop x0 x1 256 x3).wf = false) ∧
    (∀ x0 x1, (Instr.suspend x0 x1 256).wf = false) ∧
    (∀ x0 x1, (Instr.resume x0 x1 256).wf = false) ∧
    (∀ x0 x1, (Instr.cancel x0 x1 256).wf = false) ∧
    (∀ x0 x1, (Instr.commit x0 x1 256).wf = false) ∧
    (∀ x0 x1, (Instr.query x0 x1 256).wf = false) ∧
    (∀ x0, (Instr.routeIrq x0 256).wf = false) ∧
    (∀ x1 x2 x4, (Instr.ptpMessage 4 x1 x2 { kind := .followUp, source := 0, seq := 0, egress := (0, 0) } x4 0 0).wf = false) ∧
    (∀ x1 x2 x4, (Instr.ptpMessage 0 x1 x2 { kind := .followUp, source := 0, seq := 65536, egress := (0, 0) } x4 0 0).wf = false) ∧
    (∀ x1 x2 x4, (Instr.ptpMessage 0 x1 x2 { kind := .followUp, source := 0, seq := 0, egress := (2 ^ 72, 0) } x4 0 0).wf = false) ∧
    (∀ x1 x2 x4, (Instr.ptpMessage 0 x1 x2 { kind := .followUp, source := 0, seq := 0, egress := (0, 65536) } x4 0 0).wf = false) := by
  refine ⟨?_, ?_, ?_, ?_, ?_, ?_, ?_, ?_, ?_, ?_, ?_, ?_⟩ <;> intros <;> rfl

theorem smoke_ill_formed_2 :
    (∀ x1 x2 x4, (Instr.ptpMessage 0 x1 x2 { kind := .followUp, source := 0, seq := 0, egress := (0, 0) } x4 (2 ^ 72) 0).wf = false) ∧
    (∀ x1 x2 x4, (Instr.ptpMessage 0 x1 x2 { kind := .followUp, source := 0, seq := 0, egress := (0, 0) } x4 0 65536).wf = false) ∧
    (∀ x2, (Instr.ppsInEdge (2 ^ 72) 0 x2).wf = false) ∧
    (∀ x2, (Instr.ppsInEdge 0 65536 x2).wf = false) ∧
    ((Instr.ppsOutEdge (2 ^ 72)).wf = false) ∧
    (∀ x0, (Instr.setTime x0 256).wf = false) ∧
    (∀ x0, (Instr.armSync x0 256).wf = false) ∧
    (∀ x0, (Instr.syncNow x0 256).wf = false) ∧
    (∀ x2 x3, (Instr.syncinEdge (2 ^ 72) 0 x2 x3).wf = false) ∧
    (∀ x2 x3, (Instr.syncinEdge 0 65536 x2 x3).wf = false) ∧
    (∀ x0, (Instr.measure x0 256).wf = false) ∧
    (∀ x0, (Instr.freqMeas x0 256).wf = false) := by
  refine ⟨?_, ?_, ?_, ?_, ?_, ?_, ?_, ?_, ?_, ?_, ?_, ?_⟩ <;> intros <;> rfl

theorem smoke_ill_formed_3 :
    (∀ x1, (Instr.tdcEdge 9 x1 0 0).wf = false) ∧
    (∀ x1, (Instr.tdcEdge 0 x1 (2 ^ 72) 0).wf = false) ∧
    (∀ x1, (Instr.tdcEdge 0 x1 0 65536).wf = false) ∧
    (∀ x0 x1, (Instr.afeCommitAt x0 x1 256).wf = false) ∧
    (∀ x0 x1 x2, (Instr.overload x0 x1 x2 (2 ^ 72)).wf = false) ∧
    (∀ x0, (Instr.sampleGroupLaunch x0 []).wf = false) ∧
    (∀ x0 x1 x3 x4 x5 x6, (Instr.align x0 x1 256 x3 x4 x5 x6).wf = false) ∧
    (∀ x0 x1, (Instr.ddcCommitAt x0 x1 256).wf = false) ∧
    (∀ x0 x1, (Instr.insCommitAt x0 x1 256).wf = false) ∧
    (∀ x0 x1, (Instr.fftCommitAt x0 x1 256).wf = false) ∧
    (∀ x0 x1, (Instr.clear x0 x1 256).wf = false) ∧
    (∀ x0 x1 x4, (Instr.extTrigEdge x0 x1 (2 ^ 72) 0 x4).wf = false) := by
  refine ⟨?_, ?_, ?_, ?_, ?_, ?_, ?_, ?_, ?_, ?_, ?_, ?_⟩ <;> intros <;> rfl

theorem smoke_ill_formed_4 :
    (∀ x0 x1 x4, (Instr.extTrigEdge x0 x1 0 65536 x4).wf = false) ∧
    (∀ x0 x1, (Instr.swTrig x0 x1 256).wf = false) ∧
    (∀ x0 x1, (Instr.swTrigAt x0 x1 256).wf = false) ∧
    (∀ x0, (Instr.trigOutPulseEnd x0 (2 ^ 72)).wf = false) ∧
    (∀ x0 x1, (Instr.ctrCommitAt x0 x1 256).wf = false) ∧
    (∀ x0 x1, (Instr.ttrCommitAt x0 x1 256).wf = false) ∧
    (∀ x0 x1, (Instr.trgCommitAt x0 x1 256).wf = false) ∧
    (∀ x0 x1, (Instr.releaseSheet x0 x1 256).wf = false) ∧
    (∀ x0 x1, (Instr.restart x0 x1 256).wf = false) ∧
    (∀ x1 x2, (Instr.submit [] x1 x2).wf = false) ∧
    (∀ x1 x2, (Instr.modify [] x1 x2).wf = false) ∧
    ((Instr.taskSuspend []).wf = false) := by
  refine ⟨?_, ?_, ?_, ?_, ?_, ?_, ?_, ?_, ?_, ?_, ?_, ?_⟩ <;> intros <;> rfl

theorem smoke_ill_formed_5 :
    ((Instr.taskResume []).wf = false) ∧
    ((Instr.taskCancel []).wf = false) ∧
    ((Instr.taskQuery []).wf = false) ∧
    (∀ x1 x2, (Instr.plan [] x1 x2).wf = false) ∧
    ((Instr.pin []).wf = false) ∧
    ((Instr.unpin []).wf = false) ∧
    ((Instr.reserve []).wf = false) ∧
    ((Instr.release []).wf = false) ∧
    ((Instr.rebalance []).wf = false) ∧
    (∀ x0, (Instr.openRings x0 256).wf = false) ∧
    (∀ x0, (Instr.closeRings x0 256).wf = false) ∧
    (∀ x0, (Instr.migrationVerify x0 (2 ^ 72)).wf = false) := by
  refine ⟨?_, ?_, ?_, ?_, ?_, ?_, ?_, ?_, ?_, ?_, ?_, ?_⟩ <;> intros <;> rfl

theorem smoke_ill_formed_6 :
    (∀ x0 x2, (Instr.flitReceive x0 [] x2).wf = false) ∧
    (∀ x0 x4, (Instr.repairMessage x0 256 0 0 x4).wf = false) ∧
    (∀ x0 x4, (Instr.repairMessage x0 0 128 0 x4).wf = false) ∧
    (∀ x0 x4, (Instr.repairMessage x0 0 0 65536 x4).wf = false) ∧
    (∀ x0 x1, (Instr.retrain x0 x1 256).wf = false) ∧
    (∀ x0 x1, (Instr.repair x0 x1 256).wf = false) ∧
    (∀ x0 x1, (Instr.msgFault x0 x1 []).wf = false) ∧
    (∀ x0 x1, (Instr.msgEvent x0 x1 []).wf = false) ∧
    (∀ x0 x1, (Instr.descFetchDone x0 x1 []).wf = false) ∧
    (∀ x0, (Instr.ringOpen x0 256).wf = false) ∧
    (∀ x0, (Instr.ringClose x0 256).wf = false) ∧
    (∀ x0, (Instr.ringSuspend x0 256).wf = false) := by
  refine ⟨?_, ?_, ?_, ?_, ?_, ?_, ?_, ?_, ?_, ?_, ?_, ?_⟩ <;> intros <;> rfl

theorem smoke_ill_formed_7 :
    (∀ x0, (Instr.ringResume x0 256).wf = false) ∧
    (∀ x0, (Instr.ringResize x0 256).wf = false) ∧
    (∀ x0, (Instr.bindBuffer x0 256).wf = false) ∧
    (∀ x0, (Instr.unbind x0 256).wf = false) ∧
    (∀ x0 x2, (Instr.addQueue x0 256 x2).wf = false) ∧
    (∀ x0, (Instr.removeQueue x0 256).wf = false) ∧
    (∀ x0 x2, (Instr.storeInit x0 256 x2).wf = false) ∧
    (∀ x0 x2 x3 x4, (Instr.storeMount x0 256 x2 x3 x4).wf = false) ∧
    (∀ x0 x1, (Instr.deflate x0 x1 256).wf = false) ∧
    (∀ x0 x1, (Instr.inflate x0 x1 256).wf = false) ∧
    (∀ x0 x1, (Instr.finish x0 x1 256).wf = false) ∧
    (∀ x0 x1, (Instr.reseed x0 x1 256).wf = false) := by
  refine ⟨?_, ?_, ?_, ?_, ?_, ?_, ?_, ?_, ?_, ?_, ?_, ?_⟩ <;> intros <;> rfl

theorem smoke_ill_formed_8 :
    (∀ x0 x1, (Instr.run x0 x1 256).wf = false) ∧
    (∀ x0 x1, (Instr.halt x0 x1 256).wf = false) ∧
    (∀ x0 x1, (Instr.stepCmd x0 x1 256).wf = false) ∧
    (∀ x0 x1, (Instr.swint x0 x1 256).wf = false) ∧
    (∀ x0 x2 x3 x4 x5 x6 x7, (Instr.vsync x0 (2 ^ 72) x2 x3 x4 x5 x6 x7).wf = false) ∧
    ((Instr.genlockPulse (2 ^ 72)).wf = false) ∧
    (∀ x0, (Instr.relock x0 256).wf = false) ∧
    (∀ x0, (Instr.moduleReset x0 256).wf = false) ∧
    (∀ x0 x2, (Instr.fwWrite x0 256 x2).wf = false) ∧
    (∀ x0, (Instr.fwActivate x0 256).wf = false) ∧
    (∀ x0, (Instr.fwRatchet x0 256).wf = false) ∧
    (∀ x0, (Instr.attest x0 256 none).wf = false) := by
  refine ⟨?_, ?_, ?_, ?_, ?_, ?_, ?_, ?_, ?_, ?_, ?_, ?_⟩ <;> intros <;> rfl

theorem smoke_ill_formed_9 :
    (∀ x0, (Instr.attest x0 0 (some [])).wf = false) ∧
    (∀ x0 x2, (Instr.keyExchange x0 256 x2).wf = false) ∧
    (∀ x0 x2, (Instr.keyLoad x0 256 x2).wf = false) ∧
    (∀ x0, (Instr.keyClear x0 256).wf = false) ∧
    (∀ x0 x2, (Instr.debugOpen x0 256 x2).wf = false) ∧
    (∀ x0, (Instr.recover x0 256).wf = false) ∧
    (∀ x0, (Instr.readLog x0 256).wf = false) ∧
    (∀ x0, (Instr.readFlashLog x0 256).wf = false) ∧
    (∀ x0 x1 x2 x3, (Instr.undefinedOpcode x0 x1 x2 x3 256).wf = false) := by
  refine ⟨?_, ?_, ?_, ?_, ?_, ?_, ?_, ?_, ?_⟩ <;> intros <;> rfl

/-- A well-formed command of each kind of check. -/
theorem smoke_well_formed :
    (Instr.query .host 0 255).wf = true ∧ (Instr.ppsOutEdge (2 ^ 72 - 1)).wf = true ∧ (Instr.pin (List.replicate 256 0)).wf = true := by decide +kernel

/-- A code of a sample group is at most 4,095. -/
theorem smoke_codes : codesOk (List.replicate 160 4095) = true ∧ codesOk (List.replicate 160 4096) = false := by decide +kernel


end Sys2Proof.Tests
end

namespace Sys2Proof.Machine

/-! ### What logging and interrupts may change: PG_ERR, PG_IRQ and the registers of one page. -/

/-- From `s` to `t` no page changes but the one at `key`, and of that one only PG_ERR, PG_IRQ and the block registers. -/
structure FlagsOnly (key : Nat) (t s : State) : Prop where
  other : ∀ j, j ≠ key → t.page j = s.page j
  same : ∃ err irq regs, t.page key = { s.page key with err := err, irq := irq, regs := regs }

theorem FlagsOnly.of_page {key : Nat} {t s : State} (h : ∀ j, t.page j = s.page j) : FlagsOnly key t s :=
  ⟨fun j _ => h j, _, _, _, h key⟩

theorem FlagsOnly.refl {key : Nat} (s : State) : FlagsOnly key s s := .of_page fun _ => rfl

theorem FlagsOnly.trans {key : Nat} {t u s : State} (h1 : FlagsOnly key t u) (h2 : FlagsOnly key u s) : FlagsOnly key t s := by
  obtain ⟨o1, err, irq, regs, e1⟩ := h1
  obtain ⟨o2, _, _, _, e2⟩ := h2
  exact ⟨fun j hj => (o1 j hj).trans (o2 j hj), err, irq, regs, by rw [e1, e2]⟩

/-- A state with the same pages keeps as much. -/
theorem FlagsOnly.congr {key : Nat} {t u s : State} (h : FlagsOnly key u s) (hp : t.pages = u.pages := by rfl)
    (hg : t.guest = u.guest := by rfl) : FlagsOnly key t s :=
  .trans (.of_page fun j => by unfold State.page; rw [hp, hg]) h

theorem FlagsOnly.ite {key : Nat} {c : Prop} [Decidable c] {a b s : State} (ha : FlagsOnly key a s) (hb : FlagsOnly key b s) :
    FlagsOnly key (if c then a else b) s := by
  split
  · exact ha
  · exact hb

/-- What no flag and no register touches reads as before, on every page. -/
theorem FlagsOnly.header {key : Nat} {t s : State} (h : FlagsOnly key t s) (j : Nat) :
    (t.page j).cmdStat = (s.page j).cmdStat ∧ (t.page j).op = (s.page j).op ∧ (t.page j).owner = (s.page j).owner ∧
      (t.page j).st = (s.page j).st := by
  obtain ⟨other, err, irq, regs, same⟩ := h
  by_cases hj : j = key
  · subst hj; simp [same]
  · simp [other j hj]

theorem FlagsOnly.cmdStat {key : Nat} {t s : State} (h : FlagsOnly key t s) (j : Nat) : (t.page j).cmdStat = (s.page j).cmdStat :=
  (h.header j).1

theorem setPage_flagsOnly (s : State) (key : Nat) (err irq : Word) (regs : List (Nat × Word)) :
    FlagsOnly key (s.setPage key { s.page key with err := err, irq := irq, regs := regs }) s :=
  ⟨fun _ hj => s.page_setPage_other _ hj, err, irq, regs, s.page_setPage key _⟩

theorem setReg_flagsOnly (s : State) (key off : Nat) (w : Word) : FlagsOnly key (s.setReg key off w) s :=
  setPage_flagsOnly s key _ _ _

theorem wf_flagsOnly (s : State) (key : Nat) (f : RegField) (v : Nat) : FlagsOnly key (s.wf key f v) s :=
  setReg_flagsOnly s key _ _

theorem count_flagsOnly (s : State) (key : Nat) (f : RegField) : FlagsOnly key (s.count key f) s := wf_flagsOnly s key f _

/-- A message of a vector touches no page. -/
theorem page_sendMsix (s : State) (v j : Nat) : (s.sendMsix v).page j = s.page j := by
  unfold State.sendMsix
  split <;> rfl

theorem page_pageMessage (s : State) (key j : Nat) : (s.pageMessage key).page j = s.page j := by
  unfold State.pageMessage
  split
  · split
    · exact page_sendMsix s _ j
    · rfl
  · rfl

theorem raiseIrq_flagsOnly (s : State) (key : Nat) (mask : Word) : FlagsOnly key (s.raiseIrq key mask) s := by
  have h := setPage_flagsOnly s key (s.page key).err ((s.page key).irq ||| mask) (s.page key).regs
  exact .ite (.trans (.of_page (page_pageMessage _ key)) h) h

theorem irqBit_flagsOnly (s : State) (key i : Nat) : FlagsOnly key (s.irqBit key i) s := raiseIrq_flagsOnly s key _

theorem setErrFlag_flagsOnly (s : State) (key bit : Nat) : FlagsOnly key (s.setErrFlag key bit) s := by
  have h := setPage_flagsOnly s key ((s.page key).err ||| word (2 ^ bit)) (s.page key).irq (s.page key).regs
  exact .ite (.trans (irqBit_flagsOnly _ key irqERR) h) h

/-- An entry of the log moves registers and flags of the FLT page alone (R591, R598). -/
theorem logRaw_flagsOnly (s : State) (e : LogEntry) : FlagsOnly keyFLT (s.logRaw e) s := by
  unfold State.logRaw
  extract_lets +onlyGivenNames n e2 full s1 s2 s3
  have h2 : FlagsOnly keyFLT s2 s := (wf_flagsOnly s1 keyFLT _ _).trans (.congr (.refl s))
  have h3 : FlagsOnly keyFLT s3 s := .ite ((wf_flagsOnly _ keyFLT _ _).trans ((count_flagsOnly s2 keyFLT _).trans h2)) h2
  clear_value s3
  extract_lets +onlyGivenNames src s4 s5
  have h4 : FlagsOnly keyFLT s4 s := .ite (.congr ((count_flagsOnly s3 keyFLT Reg.FLT_FLASH_COUNT).trans h3)) h3
  clear_value s4
  have h5 : FlagsOnly keyFLT s5 s := .ite ((irqBit_flagsOnly s4 keyFLT 16).trans h4) h4
  exact .ite (.congr h5) h5

theorem log1_flagsOnly (s : State) (e : LogEntry) : FlagsOnly keyFLT (s.log1 e) s := by
  have h := logRaw_flagsOnly s e
  exact .ite ((logRaw_flagsOnly _ _).trans ((setErrFlag_flagsOnly _ keyFLT errLOG_LOST).trans h)) h

theorem logPage_flagsOnly (s : State) (key level code sub kind detail : Nat) :
    FlagsOnly keyFLT (s.logPage key level code sub kind detail) s := log1_flagsOnly s _

theorem logDiscard_flagsOnly (s : State) (key addr value code : Nat) : FlagsOnly keyFLT (s.logDiscard key addr value code) s :=
  logPage_flagsOnly s key _ _ _ _ _

/-- A new error flag leaves PG_CMD_STAT of every page alone. -/
theorem cmdStat_setErr (s : State) (key bit j : Nat) : ((s.setErr key bit).page j).cmdStat = (s.page j).cmdStat := by
  unfold State.setErr
  split
  · rfl
  · rw [(logPage_flagsOnly _ key _ _ _ _ _).cmdStat, (setErrFlag_flagsOnly s key bit).cmdStat]

/-! ### The end of a command shows in PG_CMD_STAT. -/

theorem cmdStat_reject (s : State) (key tag opcode code sub : Nat) :
    ((s.reject key tag opcode code sub).page key).cmdStat = cmdStatWord tag phaseREJECTED sub code := by
  have hlog := (logPage_flagsOnly (s.modPage key fun p => { p with cmdStat := cmdStatWord tag phaseREJECTED sub code })
    key 0 code sub 5 (cmdWord tag opcode)).cmdStat key
  rw [State.page_modPage] at hlog
  unfold State.reject
  dsimp only
  split
  · rw [cmdStat_setErr, hlog]
  · exact hlog

theorem cmdStat_endOp (s : State) (key phase code sub : Nat) {op : Op} (h : (s.page key).op = some op) :
    ((s.endOp key phase code sub).page key).cmdStat = cmdStatWord op.tag phase sub code := by
  unfold State.endOp
  rw [h]
  dsimp only
  rw [(irqBit_flagsOnly _ key irqCMD_DONE).cmdStat, State.page_modPage]

/-- PG_CMD_STAT holds eight bits of the tag. -/
theorem cmdStatWord_tag_mod (tag phase sub code : Nat) : cmdStatWord (tag % 256) phase sub code = cmdStatWord tag phase sub code := by
  simp [cmdStatWord]

/-! ### A command that its page takes runs on the latched operation. -/

theorem guestTakes_of_not_guestPage {s : State} {key : Nat} (h : s.guestPage key = false) (off value : Nat) :
    s.guestTakes key off value = false := by
  simp [State.guestTakes, h]

theorem write_of_honours {s : State} {who : Issuer} {key : Nat} (h : s.honours who key) (off value : Nat) (k : State → State) :
    s.write who key off value k = k s := by
  obtain ⟨hd, hg⟩ := h
  simp [State.write, State.honour, hd, guestTakes_of_not_guestPage hg]

theorem command_of_takes {s : State} {who : Issuer} {key : Nat} (h : s.takes who key) (opcode tag : Nat) (k : State → Op → State) :
    s.command who key opcode tag k = k s (s.latch key opcode tag) := by
  obtain ⟨hh, hop⟩ := h
  simp [State.command, write_of_honours hh, hop]

/-! ### The entry that the log takes (R590, R591). -/

theorem log_ite {c : Prop} [Decidable c] {a b s : State} (ha : a.log = s.log) (hb : b.log = s.log) :
    (if c then a else b).log = s.log := by
  split
  · exact ha
  · exact hb

theorem log_sendMsix (s : State) (v : Nat) : (s.sendMsix v).log = s.log := log_ite rfl rfl

theorem log_pageMessage (s : State) (key : Nat) : (s.pageMessage key).log = s.log := by
  refine log_ite ?_ rfl
  split
  · exact log_sendMsix s _
  · rfl

theorem log_irqBit (s : State) (key i : Nat) : (s.irqBit key i).log = s.log := log_ite (log_pageMessage _ key) rfl

theorem log_setErrFlag (s : State) (key bit : Nat) : (s.setErrFlag key bit).log = s.log := log_ite (log_irqBit _ key irqERR) rfl

/-- The log drops its oldest entry when it is full, and takes the new one, numbered, at its end. -/
theorem log_logRaw (s : State) (e : LogEntry) :
    (s.logRaw e).log = (if 4096 ≤ s.log.length then s.log.drop 1 else s.log) ++ [{ e with entry := s.rf keyFLT Reg.FLT_HEAD }] := by
  unfold State.logRaw
  extract_lets +onlyGivenNames n e2 full s1 s2 s3
  have h1 : s1.log = (if 4096 ≤ s.log.length then s.log.drop 1 else s.log) ++ [e2] := by simp [s1, full]
  clear_value s1
  have h3 : s3.log = s1.log := log_ite rfl rfl
  clear_value s3
  extract_lets +onlyGivenNames src s4 s5
  have h4 : s4.log = s3.log := log_ite rfl rfl
  clear_value s4
  have h5 : s5.log = s4.log := log_ite (log_irqBit s4 keyFLT 16) rfl
  clear_value s5
  refine Eq.trans ?_ (h5.trans (h4.trans (h3.trans h1)))
  exact log_ite rfl rfl

/-- The newest entry is still there after another one. -/
theorem mem_log_logRaw_of_last {s : State} {xs : List LogEntry} {x : LogEntry} (e : LogEntry) (hs : s.log = xs ++ [x]) :
    x ∈ (s.logRaw e).log := by
  rw [log_logRaw, hs]
  refine List.mem_append_left _ ?_
  split
  · next hfull =>
    rw [List.length_append, List.length_singleton] at hfull
    rw [List.drop_append_of_le_length (by omega)]
    exact List.mem_append_right _ (List.mem_singleton_self x)
  · simp

/-- A logged entry is in the log under some number. -/
theorem mem_log_log1 (s : State) (e : LogEntry) : ∃ n, { e with entry := n } ∈ (s.log1 e).log := by
  refine ⟨s.rf keyFLT Reg.FLT_HEAD, ?_⟩
  unfold State.log1
  dsimp only
  split
  · exact mem_log_logRaw_of_last _ ((log_setErrFlag _ _ _).trans (log_logRaw s e))
  · simp [log_logRaw]

/-- The log takes an entry of a discarded write: its code, its page, its address and its value (R592). -/
theorem mem_log_logDiscard (s : State) (key addr value code : Nat) :
    ∃ e ∈ (s.logDiscard key addr value code).log, e.code = code ∧ e.kind = 6 ∧ e.pageKey = key ∧
      e.detail = addr % 2 ^ 48 + value % 2 ^ 16 * 2 ^ 48 := by
  obtain ⟨n, hn⟩ := mem_log_log1 s { entry := 0, level := 0, code := code, sub := 0, kind := 6, six := s.six, source := pageSource key,
                                     pageKey := key, detail := addr % 2 ^ 48 + value % 2 ^ 16 * 2 ^ 48 }
  exact ⟨_, hn, rfl, rfl, rfl, rfl⟩

/-! ### Whose writes are honoured (R44). -/

/-- A host write is honoured on a listed page that is on and that the host owns, and on no other. -/
theorem host_honoured_iff (s : State) (key : Nat) :
    s.discards .host key = none ↔ keyListed key = true ∧ s.pageOff key = false ∧ (s.page key).owner = .host := by
  have hoff : (s.page key).st = .off → s.pageOff key = true := fun h => by simp [State.pageOff, h]
  unfold State.discards
  split_ifs <;> simp_all

theorem module_not_discarded_for_owner (s : State) (key : Nat) : s.discards .module key ≠ some .owner := by
  unfold State.discards
  simp only [reduceIte]
  split_ifs <;> simp

section Discarded

variable {s : State} {key : Nat} (h : s.discards .host key = some .owner)

include h

/-- A host write that does not own its page only logs itself. -/
theorem honour_of_not_owned (off value : Nat) (k : State → State) :
    s.honour .host key off value k = s.logDiscard key (barAddr key off) value codeOWNER := by
  simp [State.honour, h, State.discarded]

theorem writeReg_of_not_owned (off : Nat) (w : Word) (full : Bool) :
    s.writeReg .host key off w full = s.logDiscard key (barAddr key off) w.toNat codeOWNER := by
  unfold State.writeReg
  split
  · exact honour_of_not_owned h off w.toNat _
  · exact honour_of_not_owned h off w.toNat _

end Discarded

/-! ### ROUTE_IRQ and the routes. -/

/-- The route of a page's interrupt becomes vector `v`, and vector 0 removes it (R63). -/
def State.route (s : State) (key v : Nat) : State :=
  { s with routes := if v = 0 then mdel s.routes key else mput s.routes key v }

theorem vectorOf_congr {t s : State} (h : t.routes = s.routes) (key : Nat) : t.vectorOf key = s.vectorOf key := by
  unfold State.vectorOf
  rw [h]

/-- The FLT page is always on vector 0 (R63). -/
theorem vectorOf_keyFLT (s : State) : s.vectorOf keyFLT = some 0 := rfl

theorem vectorOf_route_same (s : State) {key : Nat} (v : Nat) (h : key ≠ keyFLT) :
    (s.route key v).vectorOf key = if v = 0 then none else some v := by
  by_cases hv : v = 0 <;> simp [State.vectorOf, State.route, h, hv]

theorem vectorOf_route_other (s : State) {key k : Nat} (v : Nat) (h : k ≠ key) : (s.route key v).vectorOf k = s.vectorOf k := by
  by_cases hv : v = 0 <;> simp [State.vectorOf, State.route, hv, mget_mdel_other _ _ h, mget_mput_other _ _ _ h]

/-- Operands that ROUTE_IRQ finds in range: a key of the catalogue, and vector 0 or one of 32 to 2,047. -/
theorem routeIrq_inRange {key v : Nat} (hlisted : keyListed key = true) (hv : v = 0 ∨ 32 ≤ v) :
    ¬((!keyListed key) = true ∨ (1 ≤ v ∧ v < 32)) := by
  simp [hlisted]
  omega

section RouteIrq

variable {s : State} {who : Issuer} (ht : s.takes who keyHIF) (tag : Nat)

include ht

theorem exec_routeIrq_outOfRange
    (h : keyListed ((s.page keyHIF).a0.toNat % 2 ^ 13) = false ∨
      (1 ≤ (s.page keyHIF).a1.toNat % 2 ^ 11 ∧ (s.page keyHIF).a1.toNat % 2 ^ 11 < 32)) :
    exec (.routeIrq who tag) s = .next (s.rejectOp keyHIF (s.latch keyHIF 0x0100 tag) codeRANGE 0) := by
  change execRouteIrq who tag s = _
  unfold execRouteIrq
  rw [command_of_takes ht]
  exact congrArg _ (if_pos (by simpa [State.latch] using h))

theorem exec_routeIrq_fixedVector (hkey : (s.page keyHIF).a0.toNat % 2 ^ 13 = keyFLT)
    (hv : (s.page keyHIF).a1.toNat % 2 ^ 11 = 0 ∨ 32 ≤ (s.page keyHIF).a1.toNat % 2 ^ 11) :
    exec (.routeIrq who tag) s = .next (s.rejectOp keyHIF (s.latch keyHIF 0x0100 tag) codePROTECT 0x03) := by
  have hlisted : keyListed ((s.page keyHIF).a0.toNat % 2 ^ 13) = true := by rw [hkey]; decide
  change execRouteIrq who tag s = _
  unfold execRouteIrq
  rw [command_of_takes ht]
  exact congrArg _ ((if_neg (routeIrq_inRange hlisted hv)).trans (if_pos hkey))

theorem exec_routeIrq_routes (hlisted : keyListed ((s.page keyHIF).a0.toNat % 2 ^ 13) = true)
    (hkey : (s.page keyHIF).a0.toNat % 2 ^ 13 ≠ keyFLT)
    (hv : (s.page keyHIF).a1.toNat % 2 ^ 11 = 0 ∨ 32 ≤ (s.page keyHIF).a1.toNat % 2 ^ 11) :
    exec (.routeIrq who tag) s = .next ((((s.accept keyHIF (s.latch keyHIF 0x0100 tag)).route
      ((s.page keyHIF).a0.toNat % 2 ^ 13) ((s.page keyHIF).a1.toNat % 2 ^ 11))).doneOp keyHIF) := by
  change execRouteIrq who tag s = _
  unfold execRouteIrq
  rw [command_of_takes ht]
  exact congrArg _ ((if_neg (routeIrq_inRange hlisted hv)).trans (if_neg hkey))

end RouteIrq

/-- A rejection of a latched command shows its tag, and moves no route. -/
theorem rejectOp_latch (s : State) (key opcode tag code sub : Nat) :
    (s.rejectOp key (s.latch key opcode tag) code sub).routes = s.routes ∧
      ((s.rejectOp key (s.latch key opcode tag) code sub).page key).cmdStat = cmdStatWord tag phaseREJECTED sub code :=
  ⟨(State.rejectOp_keeps s key _ code sub).routes rfl, (cmdStat_reject s key _ _ code sub).trans (cmdStatWord_tag_mod tag _ _ _)⟩

/-- An accepted operation ends DONE, whatever its effect did to the routes. -/
theorem cmdStat_doneOp_route (s : State) (key opcode tag k v : Nat) :
    ((((s.accept key (s.latch key opcode tag)).route k v).doneOp key).page key).cmdStat = cmdStatWord tag phaseDONE 0 codeOK := by
  have hop : (((s.accept key (s.latch key opcode tag)).route k v).page key).op = some (s.latch key opcode tag) := by
    change ((s.accept key (s.latch key opcode tag)).page key).op = _
    unfold State.accept
    rw [State.page_modPage]
  exact (cmdStat_endOp _ key phaseDONE codeOK 0 hop).trans (cmdStatWord_tag_mod tag _ _ _)

/-! ### The resets that clear the routes. -/

/-- A module reset leaves no route (R63, R566). -/
theorem routes_moduleReset (s : State) : s.moduleReset.routes = [] := by
  unfold State.moduleReset
  extract_lets +onlyGivenNames v z1 z2 z3 t1
  have h1 : t1.routes = [] := rfl
  clear_value t1
  extract_lets +onlyGivenNames t2 t3 t4 t5
  have h2 : t2.routes = [] :=
    calc t2.routes = (t1.syncOff.modTb fun b => { b with setSecs := none }).routes :=
          (State.each_keeps (m := true) (k := true) (r := true) (p := true) State.cancelOp_keeps).routes rfl
      _ = t1.routes := (State.syncOff_keeps t1).routes rfl
      _ = [] := h1
  clear_value t2
  simp [t5, t4, t3, h2]

/-- PERST_N leaves no route (R63). -/
theorem routes_hostReset (s : State) : s.hostReset.routes = [] := by
  unfold State.hostReset
  extract_lets +onlyGivenNames t1 t2 t3
  have h2 : t2.routes = t1.routes :=
    (State.each_keeps (m := true) (k := true) (r := true) (p := true) State.refreshDrive_keeps).routes rfl
  have h3 : t3.routes = t2.routes := ((State.count_keeps _ _ _).routes rfl).trans ((State.wf_keeps _ _ _ _).routes rfl)
  calc t3.closeRings.pcieDown.routes
      = t3.closeRings.routes := (State.pcieDown_keeps _).routes rfl
    _ = t3.routes := (State.closeRings_keeps _).routes rfl
    _ = t1.routes := h3.trans h2

theorem exec_moduleReset_of_takes {s : State} {who : Issuer} (ht : s.takes who keyMOD) (tag : Nat)
    (hmagic : (s.page keyMOD).a0.toNat = 0x4D525354) (hphase : 10 ≤ s.phase) (hpf : s.rb keyMOD Reg.MOD_STAT.POWER_FAIL = false) :
    exec (.moduleReset who tag) s = .next (((s.accept keyMOD (s.latch keyMOD 0x0100 tag)).moduleReset).doneOp keyMOD) := by
  change execModuleReset who tag s = _
  unfold execModuleReset
  rw [command_of_takes ht]
  refine congrArg _ ((if_neg (not_not.2 hmagic)).trans (if_neg ?_))
  simp [hpf]
  omega

/-- Settles O56: the three outcomes of ROUTE_IRQ by its two checks, and the resets by what they leave in the routes. -/
theorem routeIrqWhole : Obligations.RouteIrqWhole := by
  unfold Obligations.RouteIrqWhole
  refine ⟨?_, ?_, ?_, vectorOf_keyFLT, ?_, ?_⟩
  · intro s who tag ht h
    exact ⟨_, exec_routeIrq_outOfRange ht tag h, rejectOp_latch s keyHIF _ tag _ _⟩
  · intro s who tag ht hkey hv
    exact ⟨_, exec_routeIrq_fixedVector ht tag hkey hv, rejectOp_latch s keyHIF _ tag _ _⟩
  · intro s who tag ht hlisted hkey hv
    refine ⟨_, exec_routeIrq_routes ht tag hlisted hkey hv, ?_, fun k hk => ?_, cmdStat_doneOp_route s keyHIF _ tag _ _⟩
    · rw [vectorOf_congr ((State.doneOp_keeps _ _).routes rfl), vectorOf_route_same _ _ hkey]
    · rw [vectorOf_congr ((State.doneOp_keeps _ _).routes rfl), vectorOf_route_other _ _ hk]
      exact vectorOf_congr ((State.accept_keeps s _ _).routes rfl) k
  · intro s who tag ht hmagic hphase hpf
    exact ⟨_, exec_moduleReset_of_takes ht tag hmagic hphase hpf, ((State.doneOp_keeps _ _).routes rfl).trans (routes_moduleReset _)⟩
  · intro s hperst
    exact ⟨s.hostReset, congrArg _ (if_neg (by simp [hperst])), routes_hostReset s⟩

/-! ### Reads do not depend on the owner (R44). -/

/-- The page at a key has another owner. -/
def State.withOwner (s : State) (key : Nat) (o : Owner) : State := s.modPage key fun p => { p with owner := o }

section WithOwner

variable (s : State) (key : Nat) (o : Owner)

theorem page_withOwner (j : Nat) : (s.withOwner key o).page j = { s.page j with owner := if j = key then o else (s.page j).owner } := by
  unfold State.withOwner
  by_cases h : j = key
  · subst h; simp
  · simp [h, s.page_modPage_other _ h]

@[simp] theorem reg_withOwner (j off : Nat) : (s.withOwner key o).reg j off = s.reg j off := by
  simp [State.reg, page_withOwner]

@[simp] theorem areg_withOwner (j off : Nat) : (s.withOwner key o).areg j off = s.areg j off := by
  simp [State.areg, page_withOwner]

@[simp] theorem rf_withOwner (j : Nat) (f : RegField) : (s.withOwner key o).rf j f = s.rf j f := by
  simp [State.rf]

@[simp] theorem rb_withOwner (j : Nat) (f : RegField) : (s.withOwner key o).rb j f = s.rb j f := by
  simp [State.rb]

@[simp] theorem pageOff_withOwner (j : Nat) : (s.withOwner key o).pageOff j = s.pageOff j := by
  simp [State.pageOff, State.ready, page_withOwner]

@[simp] theorem statWord_withOwner (j : Nat) : (s.withOwner key o).statWord j = s.statWord j := by
  simp only [State.statWord, page_withOwner]
  rfl

@[simp] theorem ctrl_withOwner (j : Nat) : (s.withOwner key o).ctrl j = s.ctrl j := by
  simp [State.ctrl, page_withOwner]

@[simp] theorem convState_withOwner (c : Nat) : (s.withOwner key o).convState c = s.convState c := by
  simp only [State.convState, State.patternAt, State.adcCfgAt, rf_withOwner, reg_withOwner]
  rfl

@[simp] theorem shown_withOwner (j off : Nat) : (s.withOwner key o).shown j off = s.shown j off := by
  simp only [State.shown, State.gangedSecond, rb_withOwner, reg_withOwner, areg_withOwner, convState_withOwner]
  rfl

/-- Of the registers only PG_OWNER, at 0x00C, shows the owner: every other read is the same under any (R44). -/
theorem readReg_withOwner {off : Nat} (h : off ≠ 0x00C) : (s.withOwner key o).readReg key off = s.readReg key off := by
  simp only [State.readReg, pageOff_withOwner, reg_withOwner, shown_withOwner, statWord_withOwner, ctrl_withOwner, page_withOwner]
  refine if_congr Iff.rfl rfl (if_congr Iff.rfl rfl (if_congr Iff.rfl rfl ?_))
  split <;> trivial

end WithOwner

/-- Settles O58: a write that is not the owner's only logs itself, the tests of `discards` say which are honoured, and no register but
PG_OWNER shows the owner. -/
theorem hostWritesNeedOwnership : Obligations.HostWritesNeedOwnership := by
  unfold Obligations.HostWritesNeedOwnership
  refine ⟨?_, ?_, fun s key h => ((host_honoured_iff s key).1 h).2.2,
    fun s key hlisted hon howner => (host_honoured_iff s key).2 ⟨hlisted, hon, howner⟩, module_not_discarded_for_owner, ?_⟩
  · intro s key i value full h
    have hlog := logDiscard_flagsOnly s key (barAddr key (4 * i.val)) value.toNat codeOWNER
    obtain ⟨hstat, hop, howner, hst⟩ := hlog.header key
    exact ⟨_, congrArg Host.Outcome.next (writeReg_of_not_owned h _ value full), hlog.other key, hstat, hop, howner, hst,
      mem_log_logDiscard s key _ _ codeOWNER⟩
  · intro s key tag h
    exact ⟨_, congrArg Host.Outcome.next (honour_of_not_owned h _ _ _), (logDiscard_flagsOnly s key _ _ codeOWNER).other key,
      mem_log_logDiscard s key _ _ codeOWNER⟩
  · intro s key off o h
    exact readReg_withOwner s key o h

end Sys2Proof.Machine

namespace Sys2Proof.Machine

/-! ### An interrupt touches neither SIX nor the time base. -/

/-- From `s` to `t` neither SIX nor the time base changes. -/
structure SameTime (t s : State) : Prop where
  six : t.six = s.six
  tb : t.tb = s.tb

theorem sendMsix_sameTime (s : State) (v : Nat) : SameTime (s.sendMsix v) s := by
  unfold State.sendMsix
  split <;> exact ⟨rfl, rfl⟩

theorem pageMessage_sameTime (s : State) (key : Nat) : SameTime (s.pageMessage key) s := by
  unfold State.pageMessage
  split
  · split
    · exact sendMsix_sameTime s _
    · exact ⟨rfl, rfl⟩
  · exact ⟨rfl, rfl⟩

theorem raiseIrq_sameTime (s : State) (key : Nat) (mask : Word) : SameTime (s.raiseIrq key mask) s := by
  unfold State.raiseIrq
  dsimp only
  split
  · obtain ⟨hsix, htb⟩ := pageMessage_sameTime (s.setPage key { s.page key with irq := (s.page key).irq ||| mask }) key
    exact ⟨hsix, htb⟩
  · exact ⟨rfl, rfl⟩

/-- The end of an operation changes neither SIX nor the time base. -/
theorem endOp_sameTime (s : State) (key phase code sub : Nat) : SameTime (s.endOp key phase code sub) s := by
  unfold State.endOp
  split
  · exact ⟨rfl, rfl⟩
  · obtain ⟨hsix, htb⟩ := raiseIrq_sameTime (s.modPage key _) key (word (2 ^ irqCMD_DONE))
    exact ⟨hsix, htb⟩

/-- After its end no operation is in progress on the page. -/
theorem op_endOp (s : State) (key phase code sub : Nat) : ((s.endOp key phase code sub).page key).op = none := by
  unfold State.endOp
  split
  · next hnone => exact hnone
  · obtain ⟨-, hop, -⟩ := (irqBit_flagsOnly (s.modPage key _) key irqCMD_DONE).header key
    rw [hop, State.page_modPage]

/-! ### The end of ARM_SYNC. -/

/-- The hold on admissions is shown on the PHN page alone. -/
theorem refreshHold_flagsOnly (s : State) : FlagsOnly keyPHN s.refreshHold s := by
  unfold State.refreshHold
  extract_lets load cause
  exact (wf_flagsOnly _ keyPHN Reg.PHN_STAT.HOLD_CAUSE cause).trans (wf_flagsOnly s keyPHN Reg.PHN_STAT.HOLD _)

theorem syncOff_flagsOnly (s : State) : FlagsOnly keyPHN s.syncOff s :=
  (refreshHold_flagsOnly _).trans (.of_page fun _ => rfl)

@[simp] theorem syncOff_six (s : State) : s.syncOff.six = s.six := rfl

/-- Of the time base only what is armed and what SYNCOUT would repeat go (R84, R89). -/
@[simp] theorem syncOff_tb (s : State) : s.syncOff.tb = { s.tb with sync := none, repeatAt := [] } := rfl

/-- An ARM_SYNC for which no edge has arrived fails at its deadline (R88). -/
theorem exec_armSyncTimeout_of_noEdge {s : State} {o : SyncOp} (hsync : s.tb.sync = some o) (hnow : o.isNow = false)
    (hfirst : o.first = none) :
    exec .armSyncTimeout s = .next ((s.advanceTo o.deadline).syncOff.failOp keyTBS codeTIMEOUT 0x03) := by
  change execArmSyncTimeout s = _
  simp [execArmSyncTimeout, hsync, hnow, hfirst]

/-- Settles O55: the time base is disarmed at the deadline, and the operation of the TBS page, which disarming leaves in progress, is
ended; the end of an operation keeps SIX and the time base. -/
theorem armSyncTimeoutFails : Obligations.ArmSyncTimeoutFails := by
  unfold Obligations.ArmSyncTimeoutFails
  intro s o op hsync hnow hfirst hop
  have hpage : ((s.advanceTo o.deadline).syncOff.page keyTBS).op = some op := by
    rw [(syncOff_flagsOnly (s.advanceTo o.deadline)).other keyTBS (by decide)]
    exact hop
  obtain ⟨hsix, htb⟩ := endOp_sameTime (s.advanceTo o.deadline).syncOff keyTBS phaseFAILED codeTIMEOUT 0x03
  have htb' := htb.trans (syncOff_tb _)
  exact ⟨_, exec_armSyncTimeout_of_noEdge hsync hnow hfirst, op_endOp _ _ _ _ _, cmdStat_endOp _ keyTBS _ _ _ hpage,
    congrArg (·.sync) htb', congrArg (·.shift) htb', congrArg (·.sixLoaded) htb', hsix⟩

end Sys2Proof.Machine

namespace Sys2Proof.Machine

/-! ### Fields of a register, and registers of a page. -/

/-- A field below the one replaced reads as before. -/
theorem bitsOf_setBits_below {hi lo hi' lo' : Nat} (w v : Nat) (hl : lo' ≤ hi') (h : hi' < lo) :
    bitsOf (setBits w hi lo v) hi' lo' = bitsOf w hi' lo' := by
  have hdvd : 2 ^ lo' * 2 ^ (hi' + 1 - lo') ∣ 2 ^ lo := by
    rw [← Nat.pow_add]
    exact Nat.pow_dvd_pow 2 (by omega)
  have hmod : setBits w hi lo v % 2 ^ lo = w % 2 ^ lo := by
    rw [setBits_eq, Nat.mul_add_mod_self_right, Nat.mod_mod]
  unfold bitsOf
  rw [← Nat.mod_mul_right_div_self, ← Nat.mod_mul_right_div_self, ← Nat.mod_mod_of_dvd _ hdvd, hmod, Nat.mod_mod_of_dvd _ hdvd]

theorem wget_wset_below {hi lo hi' lo' : Nat} (w : Word) (v : Nat) (hh : hi < 32) (hlo : lo ≤ hi) (hl : lo' ≤ hi') (h : hi' < lo) :
    wget (wset w hi lo v) hi' lo' = wget w hi' lo' := by
  unfold wget wset
  rw [BitVec.toNat_ofNat, Nat.mod_eq_of_lt (setBits_lt v w.isLt hh hlo), bitsOf_setBits_below _ _ hl h]

/-- Setting a bit of a word sets it. -/
theorem wbit_or_word (w : Word) {i : Nat} (h : i < 32) : wbit (w ||| word (2 ^ i)) i = true := by
  have hlt : 2 ^ i < 2 ^ 32 := Nat.pow_lt_pow_right (by decide) h
  have hbit : (w.toNat ||| 2 ^ i).testBit i = true := by simp
  rw [Nat.testBit_eq_decide_div_mod_eq] at hbit
  simpa only [wbit, nbit, word, BitVec.toNat_or, BitVec.toNat_ofNat, Nat.mod_eq_of_lt hlt, beq_iff_eq, decide_eq_true_iff] using hbit

theorem reg_setReg_other (s : State) (key : Nat) {off off' : Nat} (w : Word) (h : off' ≠ off) :
    (s.setReg key off w).reg key off' = s.reg key off' := by
  unfold State.reg State.setReg
  rw [State.page_modPage]
  exact mget_mput_other _ _ _ h

theorem reg_wf_other (s : State) (key : Nat) (f : RegField) {off' : Nat} (v : Nat) (h : off' ≠ f.off) :
    (s.wf key f v).reg key off' = s.reg key off' := reg_setReg_other s key _ h

/-- A field reads the value written to it, cut to its width. -/
theorem rf_wf_same (s : State) (key : Nat) {f : RegField} (v : Nat) (hh : f.hi < 32) (hl : f.lo ≤ f.hi) :
    (s.wf key f v).rf key f = v % 2 ^ (f.hi + 1 - f.lo) := by
  unfold State.rf State.wf
  rw [State.reg_setReg, wget_wset _ v hh hl]

/-- A field below the one written in the same register reads as before. -/
theorem rf_wf_below (s : State) (key : Nat) {f g : RegField} (v : Nat) (hoff : g.off = f.off) (hh : f.hi < 32) (hl : f.lo ≤ f.hi)
    (hg : g.lo ≤ g.hi) (h : g.hi < f.lo) : (s.wf key f v).rf key g = s.rf key g := by
  unfold State.rf State.wf
  rw [hoff, State.reg_setReg, wget_wset_below _ v hh hl hg h]

/-- A page that stays keeps its registers. -/
theorem reg_congr {t s : State} {key : Nat} (h : t.page key = s.page key) (off : Nat) : t.reg key off = s.reg key off := by
  unfold State.reg
  rw [h]

theorem rf_congr {t s : State} {key : Nat} (h : t.page key = s.page key) (f : RegField) : t.rf key f = s.rf key f := by
  unfold State.rf
  rw [reg_congr h]

/-! ### What setting an error flag does to its page (R41). -/

theorem page_raiseIrq (s : State) (key : Nat) (mask : Word) :
    (s.raiseIrq key mask).page key = { s.page key with irq := (s.page key).irq ||| mask } := by
  unfold State.raiseIrq
  dsimp only
  split
  · rw [page_pageMessage, State.page_setPage]
  · rw [State.page_setPage]

/-- The flag is set, the registers stay, and nothing but PG_IRQ may change beside it. -/
theorem page_setErrFlag (s : State) (key bit : Nat) :
    ∃ irq, (s.setErrFlag key bit).page key = { s.page key with err := (s.page key).err ||| word (2 ^ bit), irq := irq } := by
  unfold State.setErrFlag
  dsimp only
  split
  · exact ⟨_, by rw [State.irqBit, page_raiseIrq, State.page_setPage]⟩
  · exact ⟨(s.page key).irq, by rw [State.page_setPage]⟩

section SetErr

variable (s : State) {key bit : Nat} (hkey : key ≠ keyFLT)

include hkey

/-- On a page other than FLT the flag of an error is set. -/
theorem wbit_err_setErr (hbit : bit < 32) : wbit ((s.setErr key bit).page key).err bit = true := by
  unfold State.setErr
  split
  · assumption
  · obtain ⟨irq, hpage⟩ := page_setErrFlag s key bit
    rw [(logPage_flagsOnly _ key _ _ _ _ _).other key hkey, hpage]
    exact wbit_or_word _ hbit

/-- An error of a page other than FLT leaves the page's registers. -/
theorem reg_setErr (off : Nat) : (s.setErr key bit).reg key off = s.reg key off := by
  unfold State.setErr
  split
  · rfl
  · obtain ⟨irq, hpage⟩ := page_setErrFlag s key bit
    rw [reg_congr ((logPage_flagsOnly _ key _ _ _ _ _).other key hkey)]
    simp [State.reg, hpage]

end SetErr

/-! ### Errors and the log leave the traverse channels. -/

theorem channels_ite {c : Prop} [Decidable c] {a b s : State} (ha : a.channels = s.channels) (hb : b.channels = s.channels) :
    (if c then a else b).channels = s.channels := by
  split
  · exact ha
  · exact hb

theorem channels_pageMessage (s : State) (key : Nat) : (s.pageMessage key).channels = s.channels := by
  refine channels_ite ?_ rfl
  split
  · exact channels_ite rfl rfl
  · rfl

theorem channels_irqBit (s : State) (key i : Nat) : (s.irqBit key i).channels = s.channels :=
  channels_ite (channels_pageMessage _ key) rfl

theorem channels_setErrFlag (s : State) (key bit : Nat) : (s.setErrFlag key bit).channels = s.channels :=
  channels_ite (channels_irqBit _ key irqERR) rfl

theorem channels_logRaw (s : State) (e : LogEntry) : (s.logRaw e).channels = s.channels := by
  unfold State.logRaw
  extract_lets +onlyGivenNames n e2 full s1 s2 s3 src s4 s5
  have h3 : s3.channels = s.channels := channels_ite rfl rfl
  have h4 : s4.channels = s.channels := channels_ite h3 h3
  have h5 : s5.channels = s.channels := channels_ite ((channels_irqBit s4 keyFLT 16).trans h4) h4
  exact channels_ite h5 h5

theorem channels_logPage (s : State) (key level code sub kind detail : Nat) :
    (s.logPage key level code sub kind detail).channels = s.channels := by
  have h (e : LogEntry) := channels_logRaw s e
  exact channels_ite ((channels_logRaw _ _).trans ((channels_setErrFlag _ keyFLT errLOG_LOST).trans (h _))) (h _)

theorem channels_setErr (s : State) (key bit : Nat) : (s.setErr key bit).channels = s.channels :=
  channels_ite rfl ((channels_logPage _ key _ _ _ _ _).trans (channels_setErrFlag s key bit))

theorem chan_congr {t s : State} (h : t.channels = s.channels) (c : Nat) : t.chan c = s.chan c := by
  unfold State.chan
  rw [h]

/-! ### The page of a traverse channel, its SHADOW window and its status (R422, R424). -/

theorem chanKey_ne_keyFLT (c : Nat) : chanKey c ≠ keyFLT := by
  unfold chanKey keyFLT keyOf
  split_ifs <;> omega

/-- No traverse page stands on the guest die. -/
theorem guestPage_chanKey (s : State) (c : Fin 512) : s.guestPage (chanKey c) = false := by
  have hregion : keyRegion (chanKey c) ≠ 7 := by
    unfold chanKey keyOf keyRegion
    split_ifs <;> omega
  simp [State.guestPage, State.guestDie, hregion]

theorem write_chanKey {s : State} {who : Issuer} {c : Fin 512} (h : s.discards who (chanKey c) = none) (off value : Nat)
    (k : State → State) : s.write who (chanKey c) off value k = k s :=
  write_of_honours ⟨h, guestPage_chanKey s c⟩ off value k

/-- The window shows its registers alone. -/
theorem shBytes_congr {t s : State} {c : Nat} (h : ∀ w < 32, t.reg (chanKey c) (shOff c w) = s.reg (chanKey c) (shOff c w)) :
    t.shBytes c = s.shBytes c :=
  List.flatMap_congr fun w hw => by rw [h w (List.mem_range.1 hw)]

/-- TRVc_STAT stands behind the 32 words of the window. -/
theorem shOff_ne_stat (c : Nat) {w : Nat} (h : w < 32) : shOff c w ≠ (Reg.TRV_STAT.CODE (c % 16)).off := by
  change 0x400 + 0xC0 * (c % 16) + 4 * w ≠ 0x484 + 0xC0 * (c % 16)
  omega

theorem shBytes_chanCode (s : State) (c code sub : Nat) : (s.chanCode c code sub).shBytes c = s.shBytes c :=
  shBytes_congr fun _ hw =>
    (reg_wf_other _ _ (Reg.TRV_STAT.SUB (c % 16)) sub (shOff_ne_stat c hw)).trans
      (reg_wf_other s _ (Reg.TRV_STAT.CODE (c % 16)) code (shOff_ne_stat c hw))

/-- CODE reads the code given, of which it holds eight bits; SUB stands above it. -/
theorem rf_chanCode (s : State) (c code sub : Nat) :
    (s.chanCode c code sub).rf (chanKey c) (Reg.TRV_STAT.CODE (c % 16)) = code % 256 := by
  let f := Reg.TRV_STAT.CODE (c % 16)
  have hsub : (s.chanCode c code sub).rf (chanKey c) f = (s.wf (chanKey c) f code).rf (chanKey c) f :=
    rf_wf_below _ _ (f := Reg.TRV_STAT.SUB (c % 16)) sub rfl (by decide : 23 < 32) (by decide : 16 ≤ 23) (by decide : 8 ≤ 15)
      (by decide : 15 < 16)
  exact hsub.trans (rf_wf_same s _ code (by decide : 15 < 32) (by decide : 8 ≤ 15))

/-! ### A busy SHADOW refuses (R425). -/

section ShadowBusy

variable {s : State} {who : Issuer} {chan : Fin 512} (hd : s.discards who (chanKey chan) = none) (hbusy : s.shBusy chan = true)

include hd hbusy

/-- A write to a busy SHADOW only sets PG_ERR.SHADOW_BUSY. -/
theorem exec_trvShWrite_of_shBusy (index : Fin 32) (value : BitVec 32) :
    exec (.trvShWrite who chan index value) s = .next (s.setErr (chanKey chan) 16) := by
  change execTrvShWrite who chan index value s = _
  unfold execTrvShWrite
  rw [write_chanKey hd, if_pos hbusy]

/-- TRV_COMMIT with a busy SHADOW only shows code BUSY and is logged. -/
theorem exec_trvCommit_of_shBusy :
    exec (.trvCommit who chan) s = .next ((s.chanCode chan codeBUSY 0).logPage (chanKey chan) 0 codeBUSY 0 5 1) := by
  change execTrvCommit who chan s = _
  unfold execTrvCommit State.chanCommand
  rw [write_chanKey hd]
  dsimp only
  rw [if_pos hbusy]
  rfl

end ShadowBusy

/-- Settles O57: a busy SHADOW turns both commands into their refusal. The error and the log touch no channel and no register of its
page, and CODE stands outside the SHADOW window. -/
theorem shadowBusyRefuses : Obligations.ShadowBusyRefuses := by
  unfold Obligations.ShadowBusyRefuses
  refine ⟨?_, ?_⟩
  · intro s who chan index value hd hbusy
    have hkey := chanKey_ne_keyFLT chan
    exact ⟨_, exec_trvShWrite_of_shBusy hd hbusy index value, shBytes_congr fun _ _ => reg_setErr s hkey _,
      congrArg (·.sh) (chan_congr (channels_setErr s _ 16) chan), wbit_err_setErr s hkey (by decide)⟩
  · intro s who chan hd hbusy
    let t := s.chanCode chan codeBUSY 0
    have hpage := (logPage_flagsOnly t (chanKey chan) 0 codeBUSY 0 5 1).other _ (chanKey_ne_keyFLT chan)
    have hchan : (t.logPage (chanKey chan) 0 codeBUSY 0 5 1).chan chan = s.chan chan :=
      chan_congr (channels_logPage t _ 0 codeBUSY 0 5 1) chan
    exact ⟨_, exec_trvCommit_of_shBusy hd hbusy, (rf_congr hpage _).trans (rf_chanCode s chan codeBUSY 0),
      (shBytes_congr fun _ _ => reg_congr hpage _).trans (shBytes_chanCode s chan _ _), congrArg (·.sh) hchan, congrArg (·.act) hchan⟩

end Sys2Proof.Machine

namespace Sys2Proof.Machine

theorem Res.keeps.to {m k r p m1 k1 r1 p1 : Bool} {o : Res} {s : State} (h : Res.keeps m1 k1 r1 p1 o s)
    (hc : ((!m || m1) && (!k || k1) && (!r || r1) && (!p || p1)) = true := by rfl) : Res.keeps m k r p o s :=
  Res.keeps_trans h (.refl s) hc

/-- Every command keeps the queue, the canonical forms and the fused key; and it keeps memory, the key store, the routes and Phoin's
state unless it is one of those that may change them. -/
theorem exec_keeps (c : Instr) (s : State) :
    Res.keeps (!c.mayStore) (!c.mayChangeKeys) (!c.mayChangeRoutes) (!c.mayChangePhoin) (exec c s) s := by
  cases c with
  | startCmd who key tag now => exact (execStart_keeps who key tag now s).to
  | stop who key tag now => exact (execStop_keeps who key tag now s).to
  | suspend who key tag => exact (execSuspend_keeps who key tag s).to
  | resume who key tag => exact (execResume_keeps who key tag s).to
  | cancel who key tag => exact (execCancel_keeps who key tag s).to
  | commit who key tag => exact (execCommit_keeps who key tag s).to
  | query who key tag => exact (execQuery_keeps who key tag s).to
  | pgResAckWrite who key value => exact (execPgResAckWrite_keeps who key value s).to
  | softReset who key => exact (execSoftReset_keeps who key s).to
  | freezeWrite who key on => exact (execFreezeWrite_keeps who key on s).to
  | enableWrite who key on => exact (execEnableWrite_keeps who key on s).to
  | lockSet who key => exact (execLockSet_keeps who key s).to
  | pgIrqWrite who key en value => exact (execPgIrqWrite_keeps who key en value s).to
  | msixUnmask vector => exact (execMsixUnmask_keeps vector s).to
  | registerWrite who key index value full => exact (execRegisterWrite_keeps who key index value full s).to
  | windowWrite who addr value full => exact (execWindowWrite_keeps who addr value full s).to
  | unmappedAccess addr => exact (execUnmappedAccess_keeps addr s).to
  | routeIrq who tag => exact (execRouteIrq_keeps who tag s).to
  | perstNAssert => exact (execPerstNAssert_keeps s).to
  | blockResetComplete key => exact (execBlockResetComplete_keeps key s).to
  | blockFault key bit => exact (execBlockFault_keeps key bit s).to
  | cellError key corrected => exact (execCellError_keeps key corrected s).to
  | refCheck amplMv hz ptpOk target fit => exact (execRefCheck_keeps amplMv hz ptpOk target fit s).to
  | tbLocked => exact (execTbLocked_keeps s).to
  | xtalFault => exact (execXtalFault_keeps s).to
  | benchmark y uncertainty => exact (execBenchmark_keeps y uncertainty s).to
  | tbsSixRead => exact (execTbsSixRead_keeps s).to
  | ptpMessage port domain transport kind masterPs six fine => exact (execPtpMessage_keeps port domain transport kind masterPs six fine s).to
  | ppsInEdge six fine highNs => exact (execPpsInEdge_keeps six fine highNs s).to
  | ppsOutEdge six => exact (execPpsOutEdge_keeps six s).to
  | setTime who tag => exact (execSetTime_keeps who tag s).to
  | armSync who tag => exact (execArmSync_keeps who tag s).to
  | syncNow who tag => exact (execSyncNow_keeps who tag s).to
  | syncinEdge six fine falling heldNs => exact (execSyncinEdge_keeps six fine falling heldNs s).to
  | syncResetApply => exact (execSyncResetApply_keeps s).to
  | armSyncTimeout => exact (execArmSyncTimeout_keeps s).to
  | syncoutRepeat => exact (execSyncoutRepeat_keeps s).to
  | measure who tag => exact (execMeasure_keeps who tag s).to
  | freqMeas who tag => exact (execFreqMeas_keeps who tag s).to
  | tdcEdge input falling six fine => exact (execTdcEdge_keeps input falling six fine s).to
  | tdcTimeout => exact (execTdcTimeout_keeps s).to
  | tdcStartWaitExpiry => exact (execTdcStartWaitExpiry_keeps s).to
  | freqGateEnd => exact (execFreqGateEnd_keeps s).to
  | afeCommitAt who conv tag => exact (execAfeCommitAt_keeps who conv tag s).to
  | afeApply conv => exact (execAfeApply_keeps conv s).to
  | afeSettled conv => exact (execAfeSettled_keeps conv s).to
  | overload conv level heldNs six => exact (execOverload_keeps conv level heldNs six s).to
  | afeDetUpdate conv level heldNs => exact (execAfeDetUpdate_keeps conv level heldNs s).to
  | subadcFault conv k => exact (execSubadcFault_keeps conv k s).to
  | sampleGroupLaunch conv codes => exact (execSampleGroupLaunch_keeps conv codes s).to
  | frameRelease conv iq insSat => exact (execFrameRelease_keeps conv iq insSat s).to
  | adcCfgWrite who conv value => exact (execAdcCfgWrite_keeps who conv value s).to
  | sclkLock conv => exact (execSclkLock_keeps conv s).to
  | adcTempUpdate conv temp => exact (execAdcTempUpdate_keeps conv temp s).to
  | spareAssign conv => exact (execSpareAssign_keeps conv s).to
  | alignCorrelationDone delayFs gainMdb corrPpm => exact (execAlignCorrelationDone_keeps delayFs gainMdb corrPpm s).to
  | alignTimeout => exact (execAlignTimeout_keeps s).to
  | handover => exact (execHandover_keeps s).to
  | handbackCheck delayFs gainMdb corrPpm => exact (execHandbackCheck_keeps delayFs gainMdb corrPpm s).to
  | align who conv tag shift fracFs gainMdb corrPpm => exact (execAlign_keeps who conv tag shift fracFs gainMdb corrPpm s).to
  | ddcCommitAt who pipe tag => exact (execDdcCommitAt_keeps who pipe tag s).to
  | ddcApply pipe => exact (execDdcApply_keeps pipe s).to
  | xfadeDone pipe inset => exact (execXfadeDone_keeps pipe inset s).to
  | chainClean pipe => exact (execChainClean_keeps pipe s).to
  | dcCfgWrite who pipe value => exact (execDcCfgWrite_keeps who pipe value s).to
  | insCommitAt who pipe tag => exact (execInsCommitAt_keeps who pipe tag s).to
  | insApply pipe => exact (execInsApply_keeps pipe s).to
  | fftCommitAt who pipe tag => exact (execFftCommitAt_keeps who pipe tag s).to
  | fftApply pipe => exact (execFftApply_keeps pipe s).to
  | spectrum pipe bins sat => exact (execSpectrum_keeps pipe bins sat s).to
  | grtTick pipe => exact (execGrtTick_keeps pipe s).to
  | grtFrameBoundary pipe => exact (execGrtFrameBoundary_keeps pipe s).to
  | grtReadoutDone pipe => exact (execGrtReadoutDone_keeps pipe s).to
  | clear who pipe tag => exact (execClear_keeps who pipe tag s).to
  | grtApply pipe => exact (execGrtApply_keeps pipe s).to
  | grtMapSelWrite who pipe value => exact (execGrtMapSelWrite_keeps who pipe value s).to
  | extTrigEdge input falling six fine heldNs => exact (execExtTrigEdge_keeps input falling six fine heldNs s).to
  | swTrig who region tag => exact (execSwTrig_keeps who region tag s).to
  | swTrigAt who region tag => exact (execSwTrigAt_keeps who region tag s).to
  | swTrigAtFire region => exact (execSwTrigAtFire_keeps region s).to
  | eventEval pipe ev => exact (execEventEval_keeps pipe ev s).to
  | seqWindowExpiry pipe ev => exact (execSeqWindowExpiry_keeps pipe ev s).to
  | holdoffEnd pipe ev => exact (execHoldoffEnd_keeps pipe ev s).to
  | trigOutPulseEnd region six => exact (execTrigOutPulseEnd_keeps region six s).to
  | ctrCommitAt who pipe tag => exact (execCtrCommitAt_keeps who pipe tag s).to
  | ttrCommitAt who pipe tag => exact (execTtrCommitAt_keeps who pipe tag s).to
  | trgCommitAt who region tag => exact (execTrgCommitAt_keeps who region tag s).to
  | triggerApply region page => exact (execTriggerApply_keeps region page s).to
  | captureSample pipe => exact (execCaptureSample_keeps pipe s).to
  | sheetReady pipe => exact (execSheetReady_keeps pipe s).to
  | releaseSheet who pipe tag => exact (execReleaseSheet_keeps who pipe tag s).to
  | restart who pipe tag => exact (execRestart_keeps who pipe tag s).to
  | writerAutoResume pipe => exact (execWriterAutoResume_keeps pipe s).to
  | recordPlaneWrite pipe => exact (execRecordPlaneWrite_keeps pipe s).to
  | recordPlaneRdWrite who pipe plane value => exact (execRecordPlaneRdWrite_keeps who pipe plane value s).to
  | traceBoundary pipe => exact (execTraceBoundary_keeps pipe s).to
  | capApply pipe => exact (execCapApply_keeps pipe s).to
  | redApply pipe => exact (execRedApply_keeps pipe s).to
  | sheetCut pipe => exact (execSheetCut_keeps pipe s).to
  | phnDoorbell count readOk => exact (execPhnDoorbell_keeps count readOk s).to
  | phnCqDoorbell count => exact (execPhnCqDoorbell_keeps count s).to
  | submit entry ext image => exact (execSubmit_keeps entry ext image s).to
  | modify entry ext image => exact (execModify_keeps entry ext image s).to
  | taskSuspend entry => exact (execTaskSuspend_keeps entry s).to
  | taskResume entry => exact (execTaskResume_keeps entry s).to
  | taskCancel entry => exact (execTaskCancel_keeps entry s).to
  | taskQuery entry => exact (execTaskQuery_keeps entry s).to
  | plan entry ext image => exact (execPlan_keeps entry ext image s).to
  | pin entry => exact (execPin_keeps entry s).to
  | unpin entry => exact (execUnpin_keeps entry s).to
  | reserve entry => exact (execReserve_keeps entry s).to
  | release entry => exact (execRelease_keeps entry s).to
  | rebalance entry => exact (execRebalance_keeps entry s).to
  | openRings who tag => exact (execOpenRings_keeps who tag s).to
  | closeRings who tag => exact (execCloseRings_keeps who tag s).to
  | taskStart task image => exact (execTaskStart_keeps task image s).to
  | taskDurationEnd task => exact (execTaskDurationEnd_keeps task s).to
  | migrationTargetStart => exact (execMigrationTargetStart_keeps s).to
  | migrationVerify same six => exact (execMigrationVerify_keeps same six s).to
  | migrationHandover => exact (execMigrationHandover_keeps s).to
  | migrationRelease => exact (execMigrationRelease_keeps s).to
  | migrationRetry => exact (execMigrationRetry_keeps s).to
  | predictiveFault page => exact (execPredictiveFault_keeps page s).to
  | surveyDue => exact (execSurveyDue_keeps s).to
  | surveyDeferredRetry => exact (execSurveyDeferredRetry_keeps s).to
  | surveyStepDone power spur level trims crcs => exact (execSurveyStepDone_keeps power spur level trims crcs s).to
  | surveyStepTimeout => exact (execSurveyStepTimeout_keeps s).to
  | staleBegin => exact (execStaleBegin_keeps s).to
  | staleEnd => exact (execStaleEnd_keeps s).to
  | surveyRequeue conv => exact (execSurveyRequeue_keeps conv s).to
  | holdExpiry task => exact (execHoldExpiry_keeps task s).to
  | calStoreStart => exact (execCalStoreStart_keeps s).to
  | calStoreDone ok => exact (execCalStoreDone_keeps ok s).to
  | calStoreTimeout => exact (execCalStoreTimeout_keeps s).to
  | memRequest stack pc arrivals caFails ecc => exact (execMemRequest_keeps stack pc arrivals caFails ecc s).to
  | throttleEnd stack source => exact (execThrottleEnd_keeps stack source s).to
  | rhWindowStart stack => exact (execRhWindowStart_keeps stack s).to
  | refreshInterval stack => exact (execRefreshInterval_keeps stack s).to
  | tempBandChange stack => exact (execTempBandChange_keeps stack s).to
  | delayUpdate stack => exact (execDelayUpdate_keeps stack s).to
  | srIdleExpiry stack => exact (execSrIdleExpiry_keeps stack s).to
  | srExitDone stack => exact (execSrExitDone_keeps stack s).to
  | scrubRead stack ecc => exact (execScrubRead_keeps stack ecc s).to
  | spareCopyDone stack unread => exact (execSpareCopyDone_keeps stack unread s).to
  | layerFillDone stack => exact (execLayerFillDone_keeps stack s).to
  | flitReceive port bytes parity => exact (execFlitReceive_keeps port bytes parity s).to
  | flitTransmit port => exact (execFlitTransmit_keeps port s).to
  | replayTimeout port => exact (execReplayTimeout_keeps port s).to
  | repairMessage port op lane token slotW => exact (execRepairMessage_keeps port op lane token slotW s).to
  | repairSwitch port => exact (execRepairSwitch_keeps port s).to
  | repairAckDeadline port => exact (execRepairAckDeadline_keeps port s).to
  | errorWindow port second => exact (execErrorWindow_keeps port second s).to
  | noFlitTimeout port => exact (execNoFlitTimeout_keeps port s).to
  | linkPowerOn port => exact (execLinkPowerOn_keeps port s).to
  | sidebandInitDone port => exact (execSidebandInitDone_keeps port s).to
  | mbInitDone port faulty => exact (execMbInitDone_keeps port faulty s).to
  | mbTrainDone port => exact (execMbTrainDone_keeps port s).to
  | paramReceive port => exact (execParamReceive_keeps port s).to
  | alignFlit port => exact (execAlignFlit_keeps port s).to
  | linkStateTimeout port => exact (execLinkStateTimeout_keeps port s).to
  | retrain who port tag => exact (execRetrain_keeps who port tag s).to
  | retrainDone port faulty => exact (execRetrainDone_keeps port faulty s).to
  | repair who port tag => exact (execRepair_keeps who port tag s).to
  | linkFault link => exact (execLinkFault_keeps link s).to
  | packetReceive port => exact (execPacketReceive_keeps port s).to
  | npTimeout port tag source space addr => exact (execNpTimeout_keeps port tag source space addr s).to
  | tagQuarantineEnd port tag => exact (execTagQuarantineEnd_keeps port tag s).to
  | msgDoorbell source arg0 => exact (execMsgDoorbell_keeps source arg0 s).to
  | msgIntr source arg0 => exact (execMsgIntr_keeps source arg0 s).to
  | msgFault source arg0 line => exact (execMsgFault_keeps source arg0 line s).to
  | msgEvent source arg0 line => exact (execMsgEvent_keeps source arg0 line s).to
  | msgFence source arg0 => exact (execMsgFence_keeps source arg0 s).to
  | msgLtr region source arg0 => exact (execMsgLtr_keeps region source arg0 s).to
  | regionIsolation region => exact (execRegionIsolation_keeps region s).to
  | guestOvercurrent => exact (execGuestOvercurrent_keeps s).to
  | trvCommit who chan => exact (execTrvCommit_keeps who chan s).to
  | trvStartChain who chan => exact (execTrvStartChain_keeps who chan s).to
  | trvSuspend who chan => exact (execTrvSuspend_keeps who chan s).to
  | trvResume who chan => exact (execTrvResume_keeps who chan s).to
  | trvCancel who chan => exact (execTrvCancel_keeps who chan s).to
  | trvShWrite who chan index value => exact (execTrvShWrite_keeps who chan index value s).to
  | trvDoorbell chan value => exact (execTrvDoorbell_keeps chan value s).to
  | descFetchDone chan ok bytes => exact (execDescFetchDone_keeps chan ok bytes s).to
  | trvPacket group data ok => exact (execTrvPacket_keeps group data ok s).to
  | trvComplete chan => exact (execTrvComplete_keeps chan s).to
  | portRequest region line data => exact (execPortRequest_keeps region line data s).to
  | ringOpen who tag => exact (execRingOpen_keeps who tag s).to
  | ringClose who tag => exact (execRingClose_keeps who tag s).to
  | ringSuspend who tag => exact (execRingSuspend_keeps who tag s).to
  | ringResume who tag => exact (execRingResume_keeps who tag s).to
  | ringResize who tag => exact (execRingResize_keeps who tag s).to
  | ringDoorbell ring value => exact (execRingDoorbell_keeps ring value s).to
  | ringContextWrite ring index value => exact (execRingContextWrite_keeps ring index value s).to
  | ringProduce ring ok => exact (execRingProduce_keeps ring ok s).to
  | ringConsume ring entry ok => exact (execRingConsume_keeps ring entry ok s).to
  | ringHoldoffExpiry ring => exact (execRingHoldoffExpiry_keeps ring s).to
  | streamRecordReady task => exact (execStreamRecordReady_keeps task s).to
  | streamTransfer task port => exact (execStreamTransfer_keeps task port s).to
  | recordTaken task port => exact (execRecordTaken_keeps task port s).to
  | nvmeCompletion slot ok => exact (execNvmeCompletion_keeps slot ok s).to
  | nvmeWriteTimeout slot => exact (execNvmeWriteTimeout_keeps slot s).to
  | apertureRead prp slot offset len => exact (execApertureRead_keeps prp slot offset len s).to
  | bar2Access offset write len => exact (execBar2Access_keeps offset write len s).to
  | lsaAccept port payload => exact (execLsaAccept_keeps port payload s).to
  | lsaAck port payload => exact (execLsaAck_keeps port payload s).to
  | lsaClosed port payload => exact (execLsaClosed_keeps port payload s).to
  | lsaReset port payload => exact (execLsaReset_keeps port payload s).to
  | lsaOpenRepeat task port => exact (execLsaOpenRepeat_keeps task port s).to
  | lsaRtoExpiry task port psn => exact (execLsaRtoExpiry_keeps task port psn s).to
  | lsaDeadTimeout task port => exact (execLsaDeadTimeout_keeps task port s).to
  | lsaFailTimeout task port => exact (execLsaFailTimeout_keeps task port s).to
  | contextTimer task port => exact (execContextTimer_keeps task port s).to
  | playbackRecord task streamId record => exact (execPlaybackRecord_keeps task streamId record s).to
  | playbackRelease task => exact (execPlaybackRelease_keeps task s).to
  | bindBuffer who tag => exact (execBindBuffer_keeps who tag s).to
  | unbind who tag => exact (execUnbind_keeps who tag s).to
  | pcieLinkUp wide speed => exact (execPcieLinkUp_keeps wide speed s).to
  | peRefclkCheck valid => exact (execPeRefclkCheck_keeps valid s).to
  | ethRefclkCheck valid => exact (execEthRefclkCheck_keeps valid s).to
  | addQueue who tag record => exact (execAddQueue_keeps who tag record s).to
  | removeQueue who tag => exact (execRemoveQueue_keeps who tag s).to
  | storeInit who tag ok => exact (execStoreInit_keeps who tag ok s).to
  | storeMount who tag first last headers => exact (execStoreMount_keeps who tag first last headers s).to
  | ethLinkChange port up => exact (execEthLinkChange_keeps port up s).to
  | deflate who engine tag => exact (execDeflate_keeps who engine tag s).to
  | inflate who engine tag => exact (execInflate_keeps who engine tag s).to
  | cmpJobDone engine input ok => exact (execCmpJobDone_keeps engine input ok s).to
  | finish who unit tag => exact (execFinish_keeps who unit tag s).to
  | reseed who unit tag => exact (execReseed_keeps who unit tag s).to
  | crcFeed who unit port value => exact (execCrcFeed_keeps who unit port value s).to
  | run who core tag => exact (execRun_keeps who core tag s).to
  | halt who core tag => exact (execHalt_keeps who core tag s).to
  | stepCmd who core tag => exact (execStep_keeps who core tag s).to
  | swint who core tag => exact (execSwint_keeps who core tag s).to
  | bundleIssue core => exact (execBundleIssue_keeps core s).to
  | interruptEntry core => exact (execInterruptEntry_keeps core s).to
  | inputBlock task input samples marks => exact (execInputBlock_keeps task input samples marks s).to
  | fabReadComplete core ok cycles => exact (execFabReadComplete_keeps core ok cycles s).to
  | measureRecord task => exact (execMeasureRecord_keeps task s).to
  | vsync gen six annot header image missing loops ltrNs => exact (execVsync_keeps gen six annot header image missing loops ltrNs s).to
  | hpdChange output level => exact (execHpdChange_keeps output level s).to
  | dpTrainingDone output rate lowref => exact (execDpTrainingDone_keeps output rate lowref s).to
  | dpLinkLost output => exact (execDpLinkLost_keeps output s).to
  | genlockPulse six => exact (execGenlockPulse_keeps six s).to
  | genlockLost => exact (execGenlockLost_keeps s).to
  | relock who tag => exact (execRelock_keeps who tag s).to
  | displayRefill gen ltrNs => exact (execDisplayRefill_keeps gen ltrNs s).to
  | lowrefCheck header => exact (execLowrefCheck_keeps header s).to
  | vinStart => exact (execVinStart_keeps s).to
  | undervoltage last => exact (execUndervoltage_keeps last s).to
  | overvoltage last => exact (execOvervoltage_keeps last s).to
  | startupStep maddr => exact (execStartupStep_keeps maddr s).to
  | startupTimeout region => exact (execStartupTimeout_keeps region s).to
  | domainOffTimer domain => exact (execDomainOffTimer_keeps domain s).to
  | domainOnDone domain => exact (execDomainOnDone_keeps domain s).to
  | domainTrip domain => exact (execDomainTrip_keeps domain s).to
  | boardReset => exact (execBoardReset_keeps s).to
  | moduleReset who tag => exact (execModuleReset_keeps who tag s).to
  | powerFailTrigger last => exact (execPowerFailTrigger_keeps last s).to
  | thermalTrigger last => exact (execThermalTrigger_keeps last s).to
  | fwWrite who tag image => exact (execFwWrite_keeps who tag image s).to
  | fwActivate who tag => exact (execFwActivate_keeps who tag s).to
  | activateTimeout => exact (execActivateTimeout_keeps s).to
  | fwRatchet who tag => exact (execFwRatchet_keeps who tag s).to
  | attest who tag nonce => exact (execAttest_keeps who tag nonce s).to
  | keyExchange who tag buffer => exact (execKeyExchange_keeps who tag buffer s).to
  | keyLoad who tag blob => exact (execKeyLoad_keeps who tag blob s).to
  | keyClear who tag => exact (execKeyClear_keeps who tag s).to
  | debugOpen who tag lost => exact (execDebugOpen_keeps who tag lost s).to
  | mctpMessage msg => exact (execMctpMessage_keeps msg s).to
  | sensorRefresh readings => exact (execSensorRefresh_keeps readings s).to
  | smbusTimeout => exact (execSmbusTimeout_keeps s).to
  | uartRxCharacter char framing => exact (execUartRxCharacter_keeps char framing s).to
  | planeFailure plane => exact (execPlaneFailure_keeps plane s).to
  | planeSelftest plane ok => exact (execPlaneSelftest_keeps plane ok s).to
  | lockstepMismatch => exact (execLockstepMismatch_keeps s).to
  | checkpoint => exact (execCheckpoint_keeps s).to
  | faultAutoReset page => exact (execFaultAutoReset_keeps page s).to
  | recover who tag => exact (execRecover_keeps who tag s).to
  | readLog who tag => exact (execReadLog_keeps who tag s).to
  | readFlashLog who tag => exact (execReadFlashLog_keeps who tag s).to
  | collectorRelease => exact (execCollectorRelease_keeps s).to
  | safeStateEntry => exact (execSafeStateEntry_keeps s).to
  | sclkLockLost conv => exact (execSclkLockLost_keeps conv s).to
  | memTempRefresh stack temp => exact (execMemTempRefresh_keeps stack temp s).to
  | srEntryCommand stack => exact (execSrEntryCommand_keeps stack s).to
  | pwrVinRefresh vin current power peak => exact (execPwrVinRefresh_keeps vin current power peak s).to
  | porstNRelease => exact (execPorstNRelease_keeps s).to
  | perstNDeassert => exact (execPerstNDeassert_keeps s).to
  | configRequest req retry => exact (execConfigRequest_keeps req retry s).to
  | hostReadCompletion index ok bytes => exact (execHostReadCompletion_keeps index ok bytes s).to
  | fwWriteDone ok => exact (execFwWriteDone_keeps ok s).to
  | newImageTakeover => exact (execNewImageTakeover_keeps s).to
  | recoverComplete ok => exact (execRecoverComplete_keeps ok s).to
  | undefinedOpcode who key chan opcode tag => exact (execUndefinedOpcode_keeps who key chan opcode tag s).to
  | unknownFrame port => exact (execUnknownFrame_keeps port s).to
/-- Settles O38: the queue is among what every command keeps. -/
theorem execKeepsTheQueue : Obligations.ExecKeepsTheQueue := by
  unfold Obligations.ExecKeepsTheQueue
  exact fun c s t h => (exec_keeps c s t h).pending

/-- Settles O48: the fused hash is among what every command keeps. -/
theorem fusedKeyNeverChanges : Obligations.FusedKeyNeverChanges := by
  unfold Obligations.FusedKeyNeverChanges
  exact fun c s t h => (exec_keeps c s t h).fused

/-- A step is a tick on an empty queue, and otherwise a command on the state with the queue's rest, which differs in the queue alone. -/
theorem step_cases {s t : State} (h : step s = .next t) :
    t = s.tick ∨ ∃ c q, exec c (s.withPending q) = .next t := by
  unfold step at h
  split at h
  · cases h
    exact .inl rfl
  · exact .inr ⟨_, _, h⟩

/-- Settles O39: the tick and every command keep the form, which does not speak of the queue. -/
theorem stepKeepsMemoryCanonical : Obligations.StepKeepsMemoryCanonical := by
  unfold Obligations.StepKeepsMemoryCanonical
  intro s t hwf h
  obtain rfl | ⟨c, q, hc⟩ := step_cases h
  · exact (State.tick_keeps s).memWf hwf
  · exact (exec_keeps c (s.withPending q) t hc).memWf hwf

/-- Settles O40: the tick counts modulo 2^72, and every command keeps the bound. -/
theorem stepKeepsSixIn72Bits : Obligations.StepKeepsSixIn72Bits := by
  unfold Obligations.StepKeepsSixIn72Bits
  intro s t hwf h
  obtain rfl | ⟨c, q, hc⟩ := step_cases h
  · exact (State.tick_keeps s).sixWf hwf
  · exact (exec_keeps c (s.withPending q) t hc).sixWf hwf

/-- Settles O41: a full log drops its oldest entry, in a tick and in every command. -/
theorem stepKeepsLogLengths : Obligations.StepKeepsLogLengths := by
  unfold Obligations.StepKeepsLogLengths
  intro s t hwf h
  obtain rfl | ⟨c, q, hc⟩ := step_cases h
  · exact (State.tick_keeps s).logsWf hwf
  · exact (exec_keeps c (s.withPending q) t hc).logsWf hwf

/-- Settles O44: memory is kept where `mayStore` does not name the command, and a byte is read from it alone. -/
theorem otherCommandsKeepMemory : Obligations.OtherCommandsKeepMemory := by
  unfold Obligations.OtherCommandsKeepMemory
  intro c s t hc h
  have hmem : t.mem = s.mem := (exec_keeps c s t h).mem (by rw [hc]; rfl)
  exact ⟨hmem, fun a => congrArg (Memory.get · a) hmem⟩

/-- Settles O45: the key store is kept where `mayChangeKeys` does not name the command. -/
theorem keyStoreChangesOnlyByItsCommands : Obligations.KeyStoreChangesOnlyByItsCommands := by
  unfold Obligations.KeyStoreChangesOnlyByItsCommands
  exact fun c s t hc h => (exec_keeps c s t h).keys (by rw [hc]; rfl)

/-- Settles O46: the routes are kept where `mayChangeRoutes` does not name the command, and a page's vector is read from them alone. -/
theorem routesChangeOnlyByTheirCommands : Obligations.RoutesChangeOnlyByTheirCommands := by
  unfold Obligations.RoutesChangeOnlyByTheirCommands
  intro c s t hc h
  have hroutes : t.routes = s.routes := (exec_keeps c s t h).routes (by rw [hc]; rfl)
  exact ⟨hroutes, vectorOf_congr hroutes⟩

/-- Settles O47: Phoin's state is kept where `mayChangePhoin` does not name the command, and a task is read from it alone. -/
theorem phoinChangesOnlyByItsCommands : Obligations.PhoinChangesOnlyByItsCommands := by
  unfold Obligations.PhoinChangesOnlyByItsCommands
  intro c s t hc h
  have hphn : t.phn = s.phn := (exec_keeps c s t h).phn (by rw [hc]; rfl)
  refine ⟨hphn, fun id => ?_⟩
  unfold State.task State.taskAt
  rw [hphn]

end Sys2Proof.Machine

namespace Sys2Proof.Machine

/-! ### Interrupts, errors, logging and the command protocol reach the pages, what is sent, the logs and the pending bits alone. -/

/-- From `s` to `t` nothing changes but the pages, what is sent out, the two logs, what the log holds for Phoin, and the pending bits. -/
def Quiet (t s : State) : Prop :=
  t = { s with pages := t.pages, out := t.out, log := t.log, flashLog := t.flashLog, held := t.held, msixPend := t.msixPend }

/-- What reads none of these reads the same. -/
theorem Quiet.get {t s : State} (h : Quiet t s) {α : Type} (f : State → α) :
    f t = f { s with pages := t.pages, out := t.out, log := t.log, flashLog := t.flashLog, held := t.held, msixPend := t.msixPend } :=
  congrArg f h

theorem Quiet.refl (s : State) : Quiet s s := rfl

theorem Quiet.trans {t u s : State} (h1 : Quiet t u) (h2 : Quiet u s) : Quiet t s := by
  unfold Quiet at h1 h2
  unfold Quiet
  calc t = { u with pages := t.pages, out := t.out, log := t.log, flashLog := t.flashLog, held := t.held, msixPend := t.msixPend } := h1
    _ = _ := by rw [h2]

theorem Quiet.ite {c : Prop} [Decidable c] {a b s : State} (ha : Quiet a s) (hb : Quiet b s) : Quiet (if c then a else b) s := by
  split
  · exact ha
  · exact hb

theorem setPage_quiet (s : State) (key : Nat) (p : Page) : Quiet (s.setPage key p) s := rfl
theorem modPage_quiet (s : State) (key : Nat) (f : Page → Page) : Quiet (s.modPage key f) s := rfl
theorem setReg_quiet (s : State) (key off : Nat) (w : Word) : Quiet (s.setReg key off w) s := rfl
theorem wf_quiet (s : State) (key : Nat) (f : RegField) (v : Nat) : Quiet (s.wf key f v) s := rfl
theorem count_quiet (s : State) (key : Nat) (f : RegField) : Quiet (s.count key f) s := rfl
theorem accept_quiet (s : State) (key : Nat) (op : Op) : Quiet (s.accept key op) s := rfl

theorem sendMsix_quiet (s : State) (v : Nat) : Quiet (s.sendMsix v) s := .ite rfl rfl

theorem pageMessage_quiet (s : State) (key : Nat) : Quiet (s.pageMessage key) s := by
  refine .ite ?_ rfl
  split
  · exact sendMsix_quiet s _
  · rfl

theorem raiseIrq_quiet (s : State) (key : Nat) (mask : Word) : Quiet (s.raiseIrq key mask) s :=
  .ite ((pageMessage_quiet _ key).trans (setPage_quiet s key _)) rfl

theorem irqBit_quiet (s : State) (key i : Nat) : Quiet (s.irqBit key i) s := raiseIrq_quiet s key _

theorem setErrFlag_quiet (s : State) (key bit : Nat) : Quiet (s.setErrFlag key bit) s :=
  .ite ((irqBit_quiet _ key irqERR).trans (setPage_quiet s key _)) rfl

theorem logRaw_quiet (s : State) (e : LogEntry) : Quiet (s.logRaw e) s := by
  unfold State.logRaw
  extract_lets +onlyGivenNames n e2 full s1 s2 s3
  have h3 : Quiet s3 s := .ite rfl rfl
  clear_value s3
  extract_lets +onlyGivenNames src s4 s5
  have hsrc : Quiet src s := .trans (count_quiet s3 keyFLT Reg.FLT_FLASH_COUNT) h3
  have h4 : Quiet s4 s := .ite (.trans (u := src) rfl hsrc) h3
  clear_value s4
  have h5 : Quiet s5 s := .ite ((irqBit_quiet s4 keyFLT 16).trans h4) h4
  exact .ite (.trans rfl h5) h5

theorem log1_quiet (s : State) (e : LogEntry) : Quiet (s.log1 e) s :=
  .ite ((logRaw_quiet _ _).trans ((setErrFlag_quiet _ keyFLT errLOG_LOST).trans (logRaw_quiet s e))) (logRaw_quiet s e)

theorem logPage_quiet (s : State) (key level code sub kind detail : Nat) : Quiet (s.logPage key level code sub kind detail) s :=
  log1_quiet s _

theorem logDiscard_quiet (s : State) (key addr value code : Nat) : Quiet (s.logDiscard key addr value code) s := log1_quiet s _

theorem logUnmapped_quiet (s : State) (addr : Nat) : Quiet (s.logUnmapped addr) s := log1_quiet s _

theorem setErr_quiet (s : State) (key bit : Nat) : Quiet (s.setErr key bit) s :=
  .ite rfl ((logPage_quiet _ key _ _ _ _ _).trans (setErrFlag_quiet s key bit))

theorem setErrLogged_quiet (s : State) (key bit : Nat) : Quiet (s.setErrLogged key bit) s :=
  .ite (logPage_quiet s key _ _ _ _ _) (setErr_quiet s key bit)

theorem enter_quiet (s : State) (key : Nat) (st : BlockState) : Quiet (s.enter key st) s :=
  .ite rfl ((irqBit_quiet _ key irqSTATE_CHANGE).trans (modPage_quiet s key _))

theorem writeResult_quiet (s : State) (key : Nat) (r : List Word) : Quiet (s.writeResult key r) s :=
  (irqBit_quiet _ key irqRES_READY).trans (modPage_quiet s key _)

theorem endOp_quiet (s : State) (key phase code sub : Nat) : Quiet (s.endOp key phase code sub) s := by
  unfold State.endOp
  split
  · rfl
  · exact (irqBit_quiet _ key irqCMD_DONE).trans (modPage_quiet s key _)

theorem doneOp_quiet (s : State) (key : Nat) : Quiet (s.doneOp key) s := endOp_quiet s key _ _ _
theorem failOp_quiet (s : State) (key code sub : Nat) : Quiet (s.failOp key code sub) s := endOp_quiet s key _ _ _
theorem cancelOp_quiet (s : State) (key : Nat) : Quiet (s.cancelOp key) s := endOp_quiet s key _ _ _

theorem doneWith_quiet (s : State) (key : Nat) (r : List Word) : Quiet (s.doneWith key r) s := by
  unfold State.doneWith
  split
  · rfl
  · exact .ite rfl ((doneOp_quiet _ key).trans (writeResult_quiet s key r))

theorem reject_quiet (s : State) (key tag opcode code sub : Nat) : Quiet (s.reject key tag opcode code sub) s := by
  have h := (logPage_quiet (s.modPage key fun p => { p with cmdStat := cmdStatWord tag phaseREJECTED sub code })
    key 0 code sub 5 (cmdWord tag opcode)).trans (modPage_quiet s key _)
  exact .ite ((setErr_quiet _ key errRANGE).trans h) h

theorem rejectOp_quiet (s : State) (key : Nat) (op : Op) (code sub : Nat) : Quiet (s.rejectOp key op code sub) s :=
  reject_quiet s key _ _ _ _

/-! ### What these operations leave of the page they name, and of the others. -/

/-- What lies outside the pages leaves them. -/
theorem page_congr {t s : State} (hp : t.pages = s.pages) (hg : t.guest = s.guest) (j : Nat) : t.page j = s.page j := by
  unfold State.page
  rw [hp, hg]

@[simp] theorem page_emit (s : State) (o : Output) (j : Nat) : (s.emit o).page j = s.page j := rfl

/-- An interrupt flag is set on its page. -/
@[simp] theorem page_irqBit_same (s : State) (key i : Nat) :
    (s.irqBit key i).page key = { s.page key with irq := (s.page key).irq ||| word (2 ^ i) } :=
  page_raiseIrq s key _

theorem page_irqBit_other (s : State) {key j : Nat} (i : Nat) (h : j ≠ key) : (s.irqBit key i).page j = s.page j :=
  (irqBit_flagsOnly s key i).other j h

/-- An interrupt flag that is raised is set. -/
theorem wbit_irq_irqBit (s : State) (key : Nat) {i : Nat} (h : i < 32) : wbit ((s.irqBit key i).page key).irq i = true := by
  rw [page_irqBit_same]
  exact wbit_or_word _ h

/-- The block is in the state it enters, with its flag raised when that is a new one. -/
theorem page_enter_same (s : State) (key : Nat) (st : BlockState) :
    (s.enter key st).page key = { s.page key with
      st := st, irq := if (s.page key).st = st then (s.page key).irq else (s.page key).irq ||| word (2 ^ irqSTATE_CHANGE) } := by
  unfold State.enter
  split
  · next h => subst h; rfl
  · simp

theorem page_enter_other (s : State) {key j : Nat} (st : BlockState) (h : j ≠ key) : (s.enter key st).page j = s.page j := by
  unfold State.enter
  split
  · rfl
  · rw [page_irqBit_other _ _ h, State.page_modPage_other _ _ h]

@[simp] theorem st_enter (s : State) (key : Nat) (st : BlockState) : ((s.enter key st).page key).st = st := by
  rw [page_enter_same]

@[simp] theorem page_accept_same (s : State) (key : Nat) (op : Op) :
    (s.accept key op).page key =
      { s.page key with op := some op, progress := 0, cmdStat := cmdStatWord op.tag phaseRUNNING 0 codeOK } :=
  State.page_modPage _ _ _

theorem page_accept_other (s : State) {key j : Nat} (op : Op) (h : j ≠ key) : (s.accept key op).page j = s.page j :=
  State.page_modPage_other _ _ h

@[simp] theorem page_writeResult_same (s : State) (key : Nat) (r : List Word) :
    (s.writeResult key r).page key =
      { s.page key with res := (r ++ [0, 0, 0, 0, 0, 0, 0, 0]).take 8, resSeq := nextSeq (s.page key).resSeq, resReady := true,
                        irq := (s.page key).irq ||| word (2 ^ irqRES_READY) } := by
  unfold State.writeResult
  rw [page_irqBit_same, State.page_modPage]

theorem page_writeResult_other (s : State) {key j : Nat} (r : List Word) (h : j ≠ key) : (s.writeResult key r).page j = s.page j := by
  unfold State.writeResult
  rw [page_irqBit_other _ _ h, State.page_modPage_other _ _ h]

/-- The end of an operation on its page. -/
theorem page_endOp_same {s : State} {key : Nat} {op : Op} (h : (s.page key).op = some op) (phase code sub : Nat) :
    (s.endOp key phase code sub).page key =
      { s.page key with op := none, waiting := (s.page key).waiting.filter (fun w => !w.1), cmdStat := cmdStatWord op.tag phase sub code,
                        irq := (s.page key).irq ||| word (2 ^ irqCMD_DONE) } := by
  unfold State.endOp
  rw [h]
  dsimp only
  rw [page_irqBit_same, State.page_modPage]

theorem page_endOp_other (s : State) {key j : Nat} (phase code sub : Nat) (h : j ≠ key) : (s.endOp key phase code sub).page j = s.page j := by
  unfold State.endOp
  split
  · rfl
  · rw [page_irqBit_other _ _ h, State.page_modPage_other _ _ h]

theorem page_doneOp_same {s : State} {key : Nat} {op : Op} (h : (s.page key).op = some op) :
    (s.doneOp key).page key =
      { s.page key with op := none, waiting := (s.page key).waiting.filter (fun w => !w.1), cmdStat := cmdStatWord op.tag phaseDONE 0 codeOK,
                        irq := (s.page key).irq ||| word (2 ^ irqCMD_DONE) } := page_endOp_same h _ _ _

/-- An operation that is not suspended, with the result window free, ends DONE with its result. -/
theorem page_doneWith_same {s : State} {key : Nat} {op : Op} (h : (s.page key).op = some op) (hsusp : op.suspended = false)
    (hfree : (s.page key).resReady = false) (r : List Word) :
    (s.doneWith key r).page key =
      { s.page key with res := (r ++ [0, 0, 0, 0, 0, 0, 0, 0]).take 8, resSeq := nextSeq (s.page key).resSeq, resReady := true,
                        op := none, waiting := (s.page key).waiting.filter (fun w => !w.1),
                        cmdStat := cmdStatWord op.tag phaseDONE 0 codeOK,
                        irq := (s.page key).irq ||| word (2 ^ irqRES_READY) ||| word (2 ^ irqCMD_DONE) } := by
  have hop : ((s.writeResult key r).page key).op = some op := by rw [page_writeResult_same]; exact h
  unfold State.doneWith
  rw [h]
  dsimp only
  rw [if_neg (by simp [hsusp, hfree]), page_doneOp_same hop, page_writeResult_same]

theorem page_doneWith_other (s : State) {key j : Nat} (r : List Word) (h : j ≠ key) : (s.doneWith key r).page j = s.page j := by
  unfold State.doneWith
  split
  · rfl
  · split
    · exact State.page_modPage_other _ _ h
    · exact (page_endOp_other _ _ _ _ h).trans (page_writeResult_other s r h)

/-- An entry of the log leaves every page but the FLT page. -/
theorem page_logPage (s : State) (key level code sub kind detail : Nat) {j : Nat} (h : j ≠ keyFLT) :
    (s.logPage key level code sub kind detail).page j = s.page j := (logPage_flagsOnly s key _ _ _ _ _).other j h

/-- An error leaves every page but its own and the FLT page. -/
theorem page_setErr_other (s : State) {key j : Nat} (bit : Nat) (h : j ≠ key) (hflt : j ≠ keyFLT) : (s.setErr key bit).page j = s.page j := by
  unfold State.setErr
  split
  · rfl
  · rw [page_logPage _ _ _ _ _ _ _ hflt, (setErrFlag_flagsOnly s key bit).other j h]

/-- Registers are read from the page's words alone. -/
theorem reg_of_regs {t s : State} {key : Nat} (h : (t.page key).regs = (s.page key).regs) (off : Nat) : t.reg key off = s.reg key off := by
  unfold State.reg
  rw [h]

theorem rf_of_regs {t s : State} {key : Nat} (h : (t.page key).regs = (s.page key).regs) (f : RegField) : t.rf key f = s.rf key f := by
  unfold State.rf
  rw [reg_of_regs h]

theorem rb_of_regs {t s : State} {key : Nat} (h : (t.page key).regs = (s.page key).regs) (f : RegField) : t.rb key f = s.rb key f := by
  unfold State.rb
  rw [rf_of_regs h]

@[simp] theorem latch_tag (s : State) (key opcode tag : Nat) : (s.latch key opcode tag).tag = tag % 256 := rfl
@[simp] theorem latch_suspended (s : State) (key opcode tag : Nat) : (s.latch key opcode tag).suspended = false := rfl
@[simp] theorem cmdStatWord_mod (tag phase sub code : Nat) : cmdStatWord (tag % 256) phase sub code = cmdStatWord tag phase sub code :=
  cmdStatWord_tag_mod tag phase sub code

end Sys2Proof.Machine

namespace Sys2Proof.Machine

/-! ### User memory: what a write of bytes and a merged line leave (R354). -/

/-- Marks leave the bytes. -/
theorem mem_setPoison (s : State) (line : Nat) (b : Bool) : (s.setPoison line b).mem = s.mem := rfl

/-- A line reads the mark set for it, and every other line keeps its own. -/
theorem poisoned_setPoison (s : State) (line : Nat) (b : Bool) (l : Nat) :
    (s.setPoison line b).poisoned l = if l = line then b else s.poisoned l := by
  change mget s.filled (if s.filled line = b then mdel s.poison line else mput s.poison line b) l = _
  split
  · next hfill =>
    by_cases hl : l = line
    · subst hl; rw [mget_mdel_same, hfill, if_pos rfl]
    · rw [mget_mdel_other _ _ hl, if_neg hl]; rfl
  · by_cases hl : l = line
    · subst hl; rw [mget_mput_same, if_pos rfl]
    · rw [mget_mput_other _ _ _ hl, if_neg hl]; rfl

/-- Clearing marks leaves the bytes. -/
theorem mem_clearMarks (first : Nat) (ls : List Nat) (s : State) :
    (ls.foldl (fun s i => if s.poisoned (first + i) then s.setPoison (first + i) false else s) s).mem = s.mem := by
  induction ls generalizing s with
  | nil => rfl
  | cons l ls ih =>
    rw [List.foldl_cons, ih]
    split <;> rfl

/-- Of the lines from `first` on, those listed lose their marks. -/
theorem poisoned_clearMarks (first : Nat) (ls : List Nat) (s : State) (line : Nat) :
    (ls.foldl (fun s i => if s.poisoned (first + i) then s.setPoison (first + i) false else s) s).poisoned line =
      (s.poisoned line && !decide (∃ i ∈ ls, line = first + i)) := by
  induction ls generalizing s with
  | nil => simp
  | cons l ls ih =>
    have hstep : (if s.poisoned (first + l) then s.setPoison (first + l) false else s).poisoned line =
        (s.poisoned line && !decide (line = first + l)) := by
      by_cases hl : line = first + l
      · subst hl
        by_cases hp : s.poisoned (first + l) = true <;> simp [hp, poisoned_setPoison]
      · by_cases hp : s.poisoned (first + l) = true <;> simp [hp, hl, poisoned_setPoison]
    rw [List.foldl_cons, ih, hstep, Bool.and_assoc]
    simp only [List.exists_mem_cons_iff, Bool.decide_or, Bool.not_or]

theorem mem_writeMem (s : State) (a : Nat) (bs : List Byte) : (s.writeMem a bs).mem = Memory.putBytes s.mem a bs :=
  mem_clearMarks _ _ _

/-- A written byte reads back, and every other byte reads as before. -/
theorem readByte_writeMem (s : State) (a : Nat) (bs : List Byte) (c : Nat) :
    (s.writeMem a bs).readByte c = if a ≤ c ∧ c < a + bs.length then bs.getD (c - a) 0 else s.readByte c := by
  unfold State.readByte
  rw [mem_writeMem]
  split
  · next h =>
    have hlt : c - a < bs.length := by omega
    have hget := Memory.get_putBytes s.mem a bs (c - a) hlt
    rw [show a + (c - a) = c by omega] at hget
    rw [hget, List.getD_eq_getElem?_getD, List.getElem?_eq_getElem hlt, Option.getD_some]
  · exact Memory.get_putBytes_other _ _ _ (by omega)

/-- Settles O49: the write puts its bytes, and marks are no bytes. -/
theorem writtenBytesReadBack : Obligations.WrittenBytesReadBack := by
  unfold Obligations.WrittenBytesReadBack
  exact readByte_writeMem

/-- Writing one whole line clears its mark and no other. -/
theorem poisoned_writeMem_line (s : State) (line : Nat) {bs : List Byte} (hlen : bs.length = 64) (l : Nat) :
    (s.writeMem (line * 64) bs).poisoned l = (s.poisoned l && decide (l ≠ line)) := by
  have hfirst : (line * 64 + 63) / 64 = line := by omega
  have hcount : (line * 64 + bs.length) / 64 - line = 1 := by rw [hlen]; omega
  unfold State.writeMem
  dsimp only
  rw [hfirst, hcount, poisoned_clearMarks]
  simp only [List.range_one, List.mem_singleton, exists_eq_left, Nat.add_zero, decide_not]
  rfl

/-- A bit set again after the write that cleared it: the mark stays unless the write carried all 64 bytes. -/
theorem readByte_setPoison_ite {c : Prop} [Decidable c] (s : State) (line a : Nat) :
    (if c then s.setPoison line true else s).readByte a = s.readByte a := by
  split <;> rfl

/-- Settles O50: a line is written whole, with the bytes it had where the write enables none; its mark is set again unless all 64 came. -/
theorem mergedLineAndItsMark : Obligations.MergedLineAndItsMark := by
  unfold Obligations.MergedLineAndItsMark
  intro s u bs a
  let whole := (List.range 64).all fun i => (bs.getD i none).isSome
  let bytes := (List.range 64).map fun i => match bs.getD i none with | some b => b | none => s.readByte (u / 64 * 64 + i)
  have hlen : bytes.length = 64 := by simp [bytes]
  have hline : u / 64 * 64 / 64 = u / 64 := by omega
  have hmerge : s.mergeLine u bs = if s.poisoned (u / 64) && !whole then (s.writeMem (u / 64 * 64) bytes).setPoison (u / 64) true
      else s.writeMem (u / 64 * 64) bytes := by
    unfold State.mergeLine
    dsimp only
    (rw [hline]) <;> rfl
  have hmark (l : Nat) : (s.mergeLine u bs).poisoned l =
      if l = u / 64 then s.poisoned (u / 64) && !whole else s.poisoned l := by
    rw [hmerge]
    by_cases hl : l = u / 64 <;> cases hp : s.poisoned (u / 64) && !whole <;>
      simp [hl, poisoned_setPoison, poisoned_writeMem_line s _ hlen]
  refine ⟨?_, by simp [hmark, whole], fun line hne => by simp [hmark, hne]⟩
  rw [hmerge, readByte_setPoison_ite, readByte_writeMem, hlen]
  by_cases hin : a / 64 = u / 64
  · have hat : u / 64 * 64 + a % 64 = a := by omega
    have hoff : a - u / 64 * 64 = a % 64 := by omega
    have hlt : a % 64 < 64 := Nat.mod_lt _ (by decide)
    rw [if_pos (by omega), if_pos hin, hoff, List.getD_eq_getElem?_getD]
    simp only [bytes, List.getElem?_map, List.getElem?_range hlt, Option.map_some, Option.getD_some, hat]
    cases bs.getD (a % 64) none <;> rfl
  · rw [if_neg (by omega), if_neg hin]

/-! ### Fields above the one written. -/

/-- A field above the one replaced reads as before. -/
theorem bitsOf_setBits_above {hi lo hi' lo' : Nat} (w v : Nat) (hl : lo ≤ hi) (h : hi < lo') :
    bitsOf (setBits w hi lo v) hi' lo' = bitsOf w hi' lo' := by
  have hsplit : 2 ^ lo' = 2 ^ lo * (2 ^ (hi + 1 - lo) * 2 ^ (lo' - (hi + 1))) := by
    rw [← Nat.pow_add, ← Nat.pow_add]; congr 1; omega
  have hn : 0 < 2 ^ lo := Nat.two_pow_pos _
  have hk : 0 < 2 ^ (hi + 1 - lo) := Nat.two_pow_pos _
  have hdiv : setBits w hi lo v / 2 ^ lo / 2 ^ (hi + 1 - lo) = w / 2 ^ lo / 2 ^ (hi + 1 - lo) := by
    rw [setBits_eq, Nat.add_comm (_ * 2 ^ lo), Nat.add_mul_div_right _ _ hn, Nat.div_eq_of_lt (Nat.mod_lt _ hn), Nat.zero_add,
      Nat.add_comm, Nat.add_mul_div_right _ _ hk, Nat.div_eq_of_lt (Nat.mod_lt _ hk), Nat.zero_add]
  unfold bitsOf
  rw [hsplit, ← Nat.div_div_eq_div_mul, ← Nat.div_div_eq_div_mul, hdiv, Nat.div_div_eq_div_mul, Nat.div_div_eq_div_mul]

theorem wget_wset_above {hi lo hi' lo' : Nat} (w : Word) (v : Nat) (hh : hi < 32) (hl : lo ≤ hi) (h : hi < lo') :
    wget (wset w hi lo v) hi' lo' = wget w hi' lo' := by
  unfold wget wset
  rw [BitVec.toNat_ofNat, Nat.mod_eq_of_lt (setBits_lt v w.isLt hh hl), bitsOf_setBits_above _ _ hl h]

/-- A field above the one written in the same register reads as before. -/
theorem rf_wf_above (s : State) (key : Nat) {f g : RegField} (v : Nat) (hoff : g.off = f.off) (hh : f.hi < 32) (hl : f.lo ≤ f.hi)
    (h : f.hi < g.lo) : (s.wf key f v).rf key g = s.rf key g := by
  unfold State.rf State.wf
  rw [hoff, State.reg_setReg, wget_wset_above _ v hh hl h]

/-- A page after a write of one of its fields: only its block registers differ. -/
theorem page_wf (s : State) (key : Nat) (f : RegField) (v : Nat) :
    (s.wf key f v).page key = { s.page key with regs := mput (s.page key).regs f.off (wset (s.reg key f.off) f.hi f.lo v) } :=
  State.page_modPage _ _ _

/-- Settles O51: a field above or below the one written keeps its bits, and the write changes one word of one page. -/
theorem fieldsReadBack : Obligations.FieldsReadBack := by
  unfold Obligations.FieldsReadBack
  intro s key f v hh hl
  have hpage := page_wf s key f v
  refine ⟨rf_wf_same s key v hh hl, ?_, fun off hoff => reg_wf_other s key f v hoff, congrArg (·.st) hpage, congrArg (·.owner) hpage,
    congrArg (·.op) hpage, congrArg (·.err) hpage, congrArg (·.irq) hpage, fun k hk => s.page_wf_other f v hk⟩
  intro g hoff _ hg hapart
  obtain hbelow | habove := hapart
  · exact rf_wf_below s key v hoff hh hl hg hbelow
  · exact rf_wf_above s key v hoff hh hl habove

/-! ### The header registers that hold a value alone (R41, R44). -/

/-- From `s` to `t` only the page at `key` changes, and of it nothing but its arguments, errors and interrupts; and nothing is logged. -/
structure HeaderOnly (key : Nat) (t s : State) : Prop where
  quiet : Quiet t s
  log : t.log = s.log
  other : ∀ k, k ≠ key → t.page k = s.page k
  regs : (t.page key).regs = (s.page key).regs
  op : (t.page key).op = (s.page key).op
  owner : (t.page key).owner = (s.page key).owner
  st : (t.page key).st = (s.page key).st
  cmdStat : (t.page key).cmdStat = (s.page key).cmdStat

/-- A change of one page that keeps the parts named. -/
theorem modPage_headerOnly (s : State) (key : Nat) (f : Page → Page)
    (h : ∀ p, (f p).regs = p.regs ∧ (f p).op = p.op ∧ (f p).owner = p.owner ∧ (f p).st = p.st ∧ (f p).cmdStat = p.cmdStat) :
    HeaderOnly key (s.modPage key f) s := by
  obtain ⟨hregs, hop, howner, hst, hcmd⟩ := h (s.page key)
  have hpage := s.page_modPage key f
  exact ⟨modPage_quiet s key f, rfl, fun k hk => s.page_modPage_other f hk, by rw [hpage, hregs], by rw [hpage, hop],
    by rw [hpage, howner], by rw [hpage, hst], by rw [hpage, hcmd]⟩

theorem HeaderOnly.ite {key : Nat} {c : Prop} [Decidable c] {a b s : State} (ha : HeaderOnly key a s) (hb : HeaderOnly key b s) :
    HeaderOnly key (if c then a else b) s := by
  split
  · exact ha
  · exact hb

/-- A message changes no page and no log. -/
theorem HeaderOnly.pageMessage {t s : State} {key : Nat} (h : HeaderOnly key t s) : HeaderOnly key (t.pageMessage key) s := by
  obtain ⟨quiet, log, other, regs, op, owner, st, cmdStat⟩ := h
  have hpage (j : Nat) := page_pageMessage t key j
  exact ⟨(pageMessage_quiet t key).trans quiet, (log_pageMessage t key).trans log, fun k hk => (hpage k).trans (other k hk),
    by rw [hpage, regs], by rw [hpage, op], by rw [hpage, owner], by rw [hpage, st], by rw [hpage, cmdStat]⟩

theorem writeIrq_headerOnly (s : State) (key : Nat) (en : Bool) (v : Word) : HeaderOnly key (s.writeIrq key en v) s := by
  have h := modPage_headerOnly s key (fun p => if en then { p with irqEn := v &&& 0xFFFF001F } else { p with irq := p.irq &&& ~~~v })
    (fun p => by cases en <;> exact ⟨rfl, rfl, rfl, rfl, rfl⟩)
  unfold State.writeIrq
  extract_lets t
  exact .ite h.pageMessage h

/-- A guest page's header is the module's own: only its block and its commands go to the guest die (R40). -/
theorem write_header {s : State} {who : Issuer} {key off : Nat} (hd : s.discards who key = none) (hoff : off < 0x100) (hcmd : off ≠ 0x030)
    (value : Nat) (k : State → State) : s.write who key off value k = k s := by
  have hguest : s.guestTakes key off value = false := by
    simp [State.guestTakes, hcmd, Nat.not_le.2 hoff]
  simp [State.write, State.honour, hd, hguest]

/-- A full write to one of the eight registers that hold arguments, errors and interrupts. -/
theorem writeReg_headerOnly {s : State} {who : Issuer} {key off : Nat} (hd : s.discards who key = none)
    (hoff : off ∈ [0x018, 0x01C, 0x020, 0x024, 0x034, 0x038, 0x03C, 0x040]) (w : Word) :
    HeaderOnly key (s.writeReg who key off w true) s := by
  have hfields (f : Page → Page) := modPage_headerOnly s key f
  have hlt : off < 0x100 ∧ off ≠ 0x030 := by
    simp only [List.mem_cons, List.not_mem_nil, or_false] at hoff
    omega
  unfold State.writeReg
  rw [if_neg (by decide), write_header hd hlt.1 hlt.2, if_neg (Nat.not_le.2 hlt.1)]
  simp only [List.mem_cons, List.not_mem_nil, or_false] at hoff
  obtain rfl | rfl | rfl | rfl | rfl | rfl | rfl | rfl := hoff
  · exact hfields _ fun _ => ⟨rfl, rfl, rfl, rfl, rfl⟩
  · exact hfields _ fun _ => ⟨rfl, rfl, rfl, rfl, rfl⟩
  · exact writeIrq_headerOnly s key false w
  · exact writeIrq_headerOnly s key true w
  · exact hfields _ fun _ => ⟨rfl, rfl, rfl, rfl, rfl⟩
  · exact hfields _ fun _ => ⟨rfl, rfl, rfl, rfl, rfl⟩
  · exact hfields _ fun _ => ⟨rfl, rfl, rfl, rfl, rfl⟩
  · exact hfields _ fun _ => ⟨rfl, rfl, rfl, rfl, rfl⟩

/-- Settles O52: register by register the write changes its own field of the header, and at most a message goes. -/
theorem headerWritesLeaveTheRest : Obligations.HeaderWritesLeaveTheRest := by
  unfold Obligations.HeaderWritesLeaveTheRest
  intro s who key i value hd hi
  have hoff : 4 * i.val ∈ [0x018, 0x01C, 0x020, 0x024, 0x034, 0x038, 0x03C, 0x040] := by
    simp only [List.mem_cons, List.not_mem_nil, or_false] at hi ⊢
    omega
  obtain ⟨quiet, log, other, regs, op, owner, st, cmdStat⟩ := writeReg_headerOnly hd hoff value
  exact ⟨_, rfl, other, regs, op, owner, st, cmdStat, quiet.get (·.mem), log, quiet.get (·.six), quiet.get (·.keyStore),
    quiet.get (·.routes), quiet.get (·.phn)⟩

/-! ### After reset. -/

/-- Layers 0 to 2 of a stack hold 32 ranks after reset, layer 3 holds 24 (R348). -/
theorem layerSlots_reset : ∀ m < 4, ∀ l < 4, State.reset.layerSlots m l = if l = 3 then 24 else 32 := by decide

/-- Settles O53: the four layers of a stack adjoin, and together hold 120 ranks of 192 MiB. -/
theorem mappedAtReset : Obligations.MappedAtReset := by
  unfold Obligations.MappedAtReset
  intro u
  have hslots := layerSlots_reset (addrStack u) (Nat.mod_lt _ (by decide))
  have h0 : State.reset.layerSlots (addrStack u) 0 = 32 := hslots 0 (by decide)
  have h1 : State.reset.layerSlots (addrStack u) 1 = 32 := hslots 1 (by decide)
  have h2 : State.reset.layerSlots (addrStack u) 2 = 32 := hslots 2 (by decide)
  have h3 : State.reset.layerSlots (addrStack u) 3 = 24 := hslots 3 (by decide)
  have hfill (l : Nat) : (State.reset.stack (addrStack u)).filling ≠ some l := by
    rw [show (State.reset.stack (addrStack u)).filling = none from rfl]
    exact fun h => nomatch h
  have hlayer : (State.reset.layerOf (addrStack u) (addrLocal u)).isSome = decide (u % 2 ^ 35 < 0x5A0000000) := by
    unfold State.layerOf
    rw [List.isSome_find?, show List.range 4 = [0, 1, 2, 3] from rfl, Bool.eq_iff_iff]
    simp only [List.any_cons, List.any_nil, Bool.or_false, Bool.or_eq_true, Bool.and_eq_true, decide_eq_true_eq, h0, h1, h2, h3, ne_eq,
      hfill, not_false_eq_true, and_true]
    simp only [layerBase, rankBytes, addrLocal]
    omega
  rw [State.mapped, hlayer]

/-- Settles O42: memory and the logs are empty, and SIX is 0. -/
theorem resetIsWellKept : Obligations.ResetIsWellKept := by
  unfold Obligations.ResetIsWellKept
  exact ⟨rfl, Nat.two_pow_pos 72, Nat.zero_le _, Nat.zero_le _⟩

/-- No page is listed at reset: each is that of its key, on a module without a guest die. -/
theorem page_reset (key : Nat) : State.reset.page key = Page.ofKey key := rfl

/-- Settles O43: no page and no route is listed. -/
theorem resetValues : Obligations.ResetValues := by
  unfold Obligations.ResetValues
  refine ⟨rfl, rfl, by decide, fun key => ?_, fun key => ?_⟩
  · rw [page_reset]
    exact ⟨rfl, rfl, rfl, rfl, rfl, rfl, rfl, rfl, rfl, rfl, rfl, rfl, rfl, rfl, rfl, rfl, rfl, rfl⟩
  · unfold State.vectorOf
    rfl

end Sys2Proof.Machine

namespace Sys2Proof.Machine

/-! ### Every command answers a next state. -/

/-- The outcome is a next state. -/
def Answers (o : Res) : Prop := ∃ t, o = .next t

theorem Answers.ite {c : Prop} [Decidable c] {a b : Res} (ha : Answers a) (hb : Answers b) : Answers (if c then a else b) := by
  split
  · exact ha
  · exact hb

theorem execRingContextWrite_answers (ring : Fin 32768) (index : Fin 16) (value : BitVec 32) (s : State) :
    Answers (execRingContextWrite ring index value s) := by
  unfold execRingContextWrite
  dsimp only
  repeat' first | exact ⟨_, rfl⟩ | split

/-- A window write that is no ring's is one update; a ring context has its own meaning. -/
theorem execWindowWrite_answers (who : Issuer) (addr : Fin 0x4000000) (value : BitVec 32) (full : Bool) (s : State) :
    Answers (execWindowWrite who addr value full s) := by
  unfold execWindowWrite
  refine .ite ⟨_, rfl⟩ ?_
  split
  · exact ⟨_, rfl⟩
  · split
    · exact ⟨_, rfl⟩
    · exact ⟨_, rfl⟩
    · exact .ite ⟨_, rfl⟩ (.ite (execRingContextWrite_answers _ _ _ s) ⟨_, rfl⟩)

theorem execRingDoorbell_answers (ring : Fin 32768) (value : BitVec 64) (s : State) : Answers (execRingDoorbell ring value s) := by
  unfold execRingDoorbell
  refine .ite (.ite ⟨_, rfl⟩ (.ite ⟨_, rfl⟩ ⟨_, rfl⟩)) ?_
  exact .ite (.ite ⟨_, rfl⟩ (.ite ⟨_, rfl⟩ ⟨_, rfl⟩)) (.ite ⟨_, rfl⟩ ⟨_, rfl⟩)

theorem execCmpJobDone_answers (engine : Fin 8) (input : List Byte) (ok : Bool) (s : State) :
    Answers (execCmpJobDone engine input ok s) := by
  unfold execCmpJobDone
  (repeat' first | split | extract_lets) <;> exact ⟨_, rfl⟩

theorem execInputBlock_answers (task : BitVec 32) (input : Fin 64) (_samples _marks : Unit) (s : State) :
    Answers (execInputBlock task input _samples _marks s) := by
  unfold execInputBlock
  dsimp only
  (repeat' split) <;> exact ⟨_, rfl⟩

theorem execVsync_answers (gen : Fin 2) (six : Nat) (annot : Option (List Byte)) (header image : List Byte) (missing : List
    (Nat × Nat)) (loops : List (Nat × Nat × Nat × Nat)) (ltrNs : Nat) (s : State) :
    Answers (execVsync gen six annot header image missing loops ltrNs s) := by
  unfold execVsync
  extract_lets; (repeat' split) <;> exact ⟨_, rfl⟩

theorem execFlitReceive_answers (port : Fin 14) (bytes : List Byte) (parity : List (Fin 4 × BitVec 8)) (s : State) :
    Answers (execFlitReceive port bytes parity s) := by
  unfold execFlitReceive
  dsimp only; (repeat' split) <;> exact ⟨_, rfl⟩

theorem execPortRequest_answers (region : Fin 3) (line : Fin 256) (data : List Byte) (s : State) :
    Answers (execPortRequest region line data s) := by
  unfold execPortRequest
  dsimp only; (repeat' split) <;> exact ⟨_, rfl⟩

theorem execRecordPlaneWrite_answers (pipe : Fin 6) (s : State) : Answers (execRecordPlaneWrite pipe s) := by
  unfold execRecordPlaneWrite
  dsimp only
  (repeat' split) <;> exact ⟨_, rfl⟩

theorem execRedApply_answers (pipe : Fin 6) (s : State) : Answers (execRedApply pipe s) := by
  unfold execRedApply
  dsimp only
  (repeat' split) <;> exact ⟨_, rfl⟩

theorem execPtpMessage_answers (port domain transport : Nat) (kind : PtpMsg) (masterPs six fine : Nat) (s : State) :
    Answers (execPtpMessage port domain transport kind masterPs six fine s) := by
  unfold execPtpMessage
  extract_lets
  (repeat' split) <;> exact ⟨_, rfl⟩

theorem execPpsOutEdge_answers (six : Nat) (s : State) : Answers (execPpsOutEdge six s) := by
  unfold execPpsOutEdge
  extract_lets
  (repeat' split) <;> exact ⟨_, rfl⟩

theorem execSyncinEdge_answers (six fine : Nat) (falling : Bool) (heldNs : Nat) (s : State) :
    Answers (execSyncinEdge six fine falling heldNs s) := by
  unfold execSyncinEdge
  (repeat' first | split | extract_lets) <;> exact ⟨_, rfl⟩

theorem execSyncResetApply_answers (s : State) : Answers (execSyncResetApply s) := by
  unfold execSyncResetApply
  (repeat' split) <;> exact ⟨_, rfl⟩

theorem execArmSyncTimeout_answers (s : State) : Answers (execArmSyncTimeout s) := by
  unfold execArmSyncTimeout
  (repeat' split) <;> exact ⟨_, rfl⟩

theorem execSyncoutRepeat_answers (s : State) : Answers (execSyncoutRepeat s) := by
  unfold execSyncoutRepeat
  (repeat' first | split | extract_lets) <;> exact ⟨_, rfl⟩

theorem execTdcEdge_answers (input : Nat) (falling : Bool) (six fine : Nat) (s : State) :
    Answers (execTdcEdge input falling six fine s) := by
  unfold execTdcEdge
  extract_lets
  (repeat' split) <;> exact ⟨_, rfl⟩

theorem execFreqGateEnd_answers (s : State) : Answers (execFreqGateEnd s) := by
  unfold execFreqGateEnd
  extract_lets
  (repeat' split) <;> exact ⟨_, rfl⟩

theorem execAfeApply_answers (conv : Fin 5) (s : State) : Answers (execAfeApply conv s) := by
  unfold execAfeApply
  extract_lets
  (repeat' split) <;> exact ⟨_, rfl⟩

theorem execAfeDetUpdate_answers (conv : Fin 5) (level : Int) (heldNs : Nat) (s : State) :
    Answers (execAfeDetUpdate conv level heldNs s) := by
  unfold execAfeDetUpdate
  extract_lets
  (repeat' split) <;> exact ⟨_, rfl⟩

theorem execAlignCorrelationDone_answers (delayFs gainMdb : Int) (corrPpm : Peak) (s : State) :
    Answers (execAlignCorrelationDone delayFs gainMdb corrPpm s) := by
  unfold execAlignCorrelationDone
  (repeat' split) <;> exact ⟨_, rfl⟩

theorem execHandbackCheck_answers (delayFs gainMdb : Int) (corrPpm : Peak) (s : State) :
    Answers (execHandbackCheck delayFs gainMdb corrPpm s) := by
  unfold execHandbackCheck
  (repeat' split) <;> exact ⟨_, rfl⟩

theorem execDdcApply_answers (pipe : Fin 6) (s : State) : Answers (execDdcApply pipe s) := by
  unfold execDdcApply
  split <;> exact ⟨_, rfl⟩

theorem execXfadeDone_answers (pipe : Fin 6) (inset : Option (Fin 64)) (s : State) : Answers (execXfadeDone pipe inset s) := by
  unfold execXfadeDone
  split <;> exact ⟨_, rfl⟩

theorem execInsApply_answers (pipe : Fin 6) (s : State) : Answers (execInsApply pipe s) := by
  unfold execInsApply
  extract_lets
  (repeat' split) <;> exact ⟨_, rfl⟩

theorem execFftApply_answers (pipe : Fin 6) (s : State) : Answers (execFftApply pipe s) := by
  unfold execFftApply
  extract_lets
  (repeat' split) <;> exact ⟨_, rfl⟩

theorem execGrtReadoutDone_answers (pipe : Fin 6) (s : State) : Answers (execGrtReadoutDone pipe s) := by
  unfold execGrtReadoutDone
  extract_lets
  (repeat' split) <;> exact ⟨_, rfl⟩

theorem execGrtApply_answers (pipe : Fin 6) (s : State) : Answers (execGrtApply pipe s) := by
  unfold execGrtApply
  (repeat' first | split | extract_lets) <;> exact ⟨_, rfl⟩

theorem execSwTrigAtFire_answers (region : Fin 2) (s : State) : Answers (execSwTrigAtFire region s) := by
  unfold execSwTrigAtFire
  extract_lets
  (repeat' split) <;> exact ⟨_, rfl⟩

theorem execEventEval_answers (pipe : Fin 6) (ev : Fin 4) (s : State) : Answers (execEventEval pipe ev s) := by
  unfold execEventEval
  split <;> exact ⟨_, rfl⟩

theorem execSeqWindowExpiry_answers (pipe : Fin 6) (ev : Fin 4) (s : State) : Answers (execSeqWindowExpiry pipe ev s) := by
  unfold execSeqWindowExpiry
  (repeat' first | split | extract_lets) <;> exact ⟨_, rfl⟩

theorem execHoldoffEnd_answers (pipe : Fin 6) (ev : Fin 4) (s : State) : Answers (execHoldoffEnd pipe ev s) := by
  unfold execHoldoffEnd
  extract_lets
  (repeat' split) <;> exact ⟨_, rfl⟩

theorem execTriggerApply_answers (region : Fin 2) (page : Fin 1024) (s : State) : Answers (execTriggerApply region page s) := by
  unfold execTriggerApply
  extract_lets
  (repeat' split) <;> exact ⟨_, rfl⟩

theorem execTraceBoundary_answers (pipe : Fin 6) (s : State) : Answers (execTraceBoundary pipe s) := by
  unfold execTraceBoundary
  extract_lets
  (repeat' split) <;> exact ⟨_, rfl⟩

theorem execCapApply_answers (pipe : Fin 6) (s : State) : Answers (execCapApply pipe s) := by
  unfold execCapApply
  extract_lets
  (repeat' split) <;> exact ⟨_, rfl⟩

theorem execTaskStart_answers (task : BitVec 32) (image : Option (List Byte)) (s : State) : Answers (execTaskStart task image s) := by
  unfold execTaskStart
  (repeat' first | split | extract_lets) <;> exact ⟨_, rfl⟩

theorem execTaskDurationEnd_answers (task : BitVec 32) (s : State) : Answers (execTaskDurationEnd task s) := by
  unfold execTaskDurationEnd
  (repeat' split) <;> exact ⟨_, rfl⟩

theorem execMigrationTargetStart_answers (s : State) : Answers (execMigrationTargetStart s) := by
  unfold execMigrationTargetStart
  extract_lets
  (repeat' split) <;> exact ⟨_, rfl⟩

theorem execMigrationVerify_answers (same : Bool) (six : Nat) (s : State) : Answers (execMigrationVerify same six s) := by
  unfold execMigrationVerify
  (repeat' split) <;> exact ⟨_, rfl⟩

theorem execMigrationHandover_answers (s : State) : Answers (execMigrationHandover s) := by
  unfold execMigrationHandover
  (repeat' split) <;> exact ⟨_, rfl⟩

theorem execMigrationRelease_answers (s : State) : Answers (execMigrationRelease s) := by
  unfold execMigrationRelease
  (repeat' split) <;> exact ⟨_, rfl⟩

theorem execMigrationRetry_answers (s : State) : Answers (execMigrationRetry s) := by
  unfold execMigrationRetry
  (repeat' first | split | extract_lets) <;> exact ⟨_, rfl⟩

theorem execPredictiveFault_answers (page : Fin 8192) (s : State) : Answers (execPredictiveFault page s) := by
  unfold execPredictiveFault
  split <;> exact ⟨_, rfl⟩

theorem execSurveyStepDone_answers (power spur level : Int) (trims : List (Int × Int × Int × Int)) (crcs : List (BitVec 32)) (s : State) :
    Answers (execSurveyStepDone power spur level trims crcs s) := by
  unfold execSurveyStepDone
  (repeat' split) <;> exact ⟨_, rfl⟩

theorem execSurveyStepTimeout_answers (s : State) : Answers (execSurveyStepTimeout s) := by
  unfold execSurveyStepTimeout
  (repeat' split) <;> exact ⟨_, rfl⟩

theorem execStaleBegin_answers (s : State) : Answers (execStaleBegin s) := by
  unfold execStaleBegin
  (repeat' split) <;> exact ⟨_, rfl⟩

theorem execStaleEnd_answers (s : State) : Answers (execStaleEnd s) := by
  unfold execStaleEnd
  (repeat' split) <;> exact ⟨_, rfl⟩

theorem execSurveyRequeue_answers (conv : Fin 5) (s : State) : Answers (execSurveyRequeue conv s) := by
  unfold execSurveyRequeue
  split <;> exact ⟨_, rfl⟩

theorem execHoldExpiry_answers (task : BitVec 32) (s : State) : Answers (execHoldExpiry task s) := by
  unfold execHoldExpiry
  split <;> exact ⟨_, rfl⟩

theorem execMemRequest_answers (stack : Fin 4) (pc : Fin 32) (arrivals : List MemReq) (caFails ecc : Nat) (s : State) :
    Answers (execMemRequest stack pc arrivals caFails ecc s) := by
  unfold execMemRequest
  extract_lets
  (repeat' split) <;> exact ⟨_, rfl⟩

theorem execThrottleEnd_answers (stack : Fin 4) (source : Nat) (s : State) : Answers (execThrottleEnd stack source s) := by
  unfold execThrottleEnd
  split <;> exact ⟨_, rfl⟩

theorem execRefreshInterval_answers (stack : Fin 4) (s : State) : Answers (execRefreshInterval stack s) := by
  unfold execRefreshInterval
  extract_lets
  (repeat' split) <;> exact ⟨_, rfl⟩

theorem execScrubRead_answers (stack : Fin 4) (ecc : Nat) (s : State) : Answers (execScrubRead stack ecc s) := by
  unfold execScrubRead
  refine .ite ⟨_, rfl⟩ ?_
  extract_lets +onlyGivenNames line t
  clear_value t
  cases t.rankOf stack (64 * line) with
  | none => exact ⟨_, rfl⟩
  | some rank => exact ⟨_, rfl⟩

theorem execFlitTransmit_answers (port : Fin 14) (s : State) : Answers (execFlitTransmit port s) := by
  unfold execFlitTransmit
  extract_lets
  (repeat' split) <;> exact ⟨_, rfl⟩

theorem execReplayTimeout_answers (port : Fin 14) (s : State) : Answers (execReplayTimeout port s) := by
  unfold execReplayTimeout
  extract_lets
  (repeat' split) <;> exact ⟨_, rfl⟩

theorem execRepairMessage_answers (port : Fin 14) (op lane token : Nat) (slotW : BitVec 32) (s : State) :
    Answers (execRepairMessage port op lane token slotW s) := by
  unfold execRepairMessage
  extract_lets
  (repeat' split) <;> exact ⟨_, rfl⟩

theorem execRepairSwitch_answers (port : Fin 14) (s : State) : Answers (execRepairSwitch port s) := by
  unfold execRepairSwitch
  extract_lets
  (repeat' split) <;> exact ⟨_, rfl⟩

theorem execRepairAckDeadline_answers (port : Fin 14) (s : State) : Answers (execRepairAckDeadline port s) := by
  unfold execRepairAckDeadline
  extract_lets
  (repeat' split) <;> exact ⟨_, rfl⟩

theorem execMbInitDone_answers (port : Fin 14) (faulty : List (Fin 128)) (s : State) : Answers (execMbInitDone port faulty s) := by
  unfold execMbInitDone
  extract_lets
  (repeat' split) <;> exact ⟨_, rfl⟩

theorem execParamReceive_answers (port : Fin 14) (s : State) : Answers (execParamReceive port s) := by
  unfold execParamReceive
  (repeat' first | split | extract_lets) <;> exact ⟨_, rfl⟩

theorem execAlignFlit_answers (port : Fin 14) (s : State) : Answers (execAlignFlit port s) := by
  unfold execAlignFlit
  (repeat' first | split | extract_lets) <;> exact ⟨_, rfl⟩

theorem execRetrainDone_answers (port : Fin 14) (faulty : List (Fin 128)) (s : State) : Answers (execRetrainDone port faulty s) := by
  unfold execRetrainDone
  extract_lets
  (repeat' split) <;> exact ⟨_, rfl⟩

theorem execPacketReceive_answers (port : Fin 14) (s : State) : Answers (execPacketReceive port s) := by
  unfold execPacketReceive
  extract_lets
  (repeat' split) <;> exact ⟨_, rfl⟩

theorem execTagQuarantineEnd_answers (port : Fin 14) (tag : Fin 4096) (s : State) : Answers (execTagQuarantineEnd port tag s) := by
  unfold execTagQuarantineEnd
  extract_lets
  (repeat' split) <;> exact ⟨_, rfl⟩

theorem execDescFetchDone_answers (chan : Fin 512) (ok : Bool) (bytes : List Byte) (s : State) :
    Answers (execDescFetchDone chan ok bytes s) := by
  unfold execDescFetchDone
  (repeat' first | split | extract_lets) <;> exact ⟨_, rfl⟩

theorem execTrvPacket_answers (group : Fin 32) (data : List Byte) (ok : Bool) (s : State) : Answers (execTrvPacket group data ok s) := by
  unfold execTrvPacket
  (repeat' first | split | extract_lets) <;> exact ⟨_, rfl⟩

theorem execTrvComplete_answers (chan : Fin 512) (s : State) : Answers (execTrvComplete chan s) := by
  unfold execTrvComplete
  (repeat' first | split | extract_lets) <;> exact ⟨_, rfl⟩

theorem execRingProduce_answers (ring : Fin 32768) (ok : Bool) (s : State) : Answers (execRingProduce ring ok s) := by
  unfold execRingProduce
  extract_lets
  (repeat' split) <;> exact ⟨_, rfl⟩

theorem execStreamRecordReady_answers (task : BitVec 32) (s : State) : Answers (execStreamRecordReady task s) := by
  unfold execStreamRecordReady
  (repeat' split) <;> exact ⟨_, rfl⟩

theorem execStreamTransfer_answers (task : BitVec 32) (port : Fin 32) (s : State) : Answers (execStreamTransfer task port s) := by
  unfold execStreamTransfer
  extract_lets
  (repeat' split) <;> exact ⟨_, rfl⟩

theorem execRecordTaken_answers (task : BitVec 32) (port : Fin 32) (s : State) : Answers (execRecordTaken task port s) := by
  unfold execRecordTaken
  (repeat' split) <;> exact ⟨_, rfl⟩

theorem execNvmeCompletion_answers (slot : Fin 1008) (ok : Bool) (s : State) : Answers (execNvmeCompletion slot ok s) := by
  unfold execNvmeCompletion
  (repeat' split) <;> exact ⟨_, rfl⟩

theorem execNvmeWriteTimeout_answers (slot : Fin 1008) (s : State) : Answers (execNvmeWriteTimeout slot s) := by
  unfold execNvmeWriteTimeout
  (repeat' split) <;> exact ⟨_, rfl⟩

theorem execApertureRead_answers (prp : Bool) (slot : Fin 1008) (offset : BitVec 20) (len : Fin 4097) (s : State) :
    Answers (execApertureRead prp slot offset len s) := by
  unfold execApertureRead
  split <;> exact ⟨_, rfl⟩

theorem execBar2Access_answers (offset : BitVec 37) (write : Option (List Byte)) (len : Fin 4097) (s : State) :
    Answers (execBar2Access offset write len s) := by
  unfold execBar2Access
  split <;> exact ⟨_, rfl⟩

theorem execLsaOpenRepeat_answers (task : BitVec 32) (port : Fin 4) (s : State) : Answers (execLsaOpenRepeat task port s) := by
  unfold execLsaOpenRepeat
  (repeat' split) <;> exact ⟨_, rfl⟩

theorem execLsaRtoExpiry_answers (task : BitVec 32) (port : Fin 4) (psn : BitVec 32) (s : State) :
    Answers (execLsaRtoExpiry task port psn s) := by
  unfold execLsaRtoExpiry
  (repeat' split) <;> exact ⟨_, rfl⟩

theorem execLsaDeadTimeout_answers (task : BitVec 32) (port : Fin 4) (s : State) : Answers (execLsaDeadTimeout task port s) := by
  unfold execLsaDeadTimeout
  (repeat' first | split | extract_lets) <;> exact ⟨_, rfl⟩

theorem execLsaFailTimeout_answers (task : BitVec 32) (port : Fin 4) (s : State) : Answers (execLsaFailTimeout task port s) := by
  unfold execLsaFailTimeout
  (repeat' split) <;> exact ⟨_, rfl⟩

theorem execContextTimer_answers (task : BitVec 32) (port : Fin 4) (s : State) : Answers (execContextTimer task port s) := by
  unfold execContextTimer
  (repeat' first | split | extract_lets) <;> exact ⟨_, rfl⟩

theorem execPlaybackRecord_answers (task : BitVec 32) (streamId : BitVec 32) (record : List Byte) (s : State) :
    Answers (execPlaybackRecord task streamId record s) := by
  unfold execPlaybackRecord
  (repeat' first | split | extract_lets) <;> exact ⟨_, rfl⟩

theorem execPlaybackRelease_answers (task : BitVec 32) (s : State) : Answers (execPlaybackRelease task s) := by
  unfold execPlaybackRelease
  (repeat' first | split | extract_lets) <;> exact ⟨_, rfl⟩

theorem execEthLinkChange_answers (port : Fin 4) (up : Bool) (s : State) : Answers (execEthLinkChange port up s) := by
  unfold execEthLinkChange
  extract_lets
  (repeat' split) <;> exact ⟨_, rfl⟩

theorem execInterruptEntry_answers (core : Fin 64) (s : State) : Answers (execInterruptEntry core s) := by
  unfold execInterruptEntry
  extract_lets
  (repeat' split) <;> exact ⟨_, rfl⟩

theorem execMeasureRecord_answers (task : BitVec 32) (s : State) : Answers (execMeasureRecord task s) := by
  unfold execMeasureRecord
  extract_lets
  (repeat' split) <;> exact ⟨_, rfl⟩

theorem execGenlockPulse_answers (six : Nat) (s : State) : Answers (execGenlockPulse six s) := by
  unfold execGenlockPulse
  extract_lets
  (repeat' split) <;> exact ⟨_, rfl⟩

theorem execStartupStep_answers (maddr : Fin 8) (s : State) : Answers (execStartupStep maddr s) := by
  unfold execStartupStep
  (repeat' split) <;> exact ⟨_, rfl⟩

theorem execDomainTrip_answers (domain : Fin 30) (s : State) : Answers (execDomainTrip domain s) := by
  unfold execDomainTrip
  extract_lets
  (repeat' split) <;> exact ⟨_, rfl⟩

theorem execActivateTimeout_answers (s : State) : Answers (execActivateTimeout s) := by
  unfold execActivateTimeout
  (repeat' split) <;> exact ⟨_, rfl⟩

theorem execCollectorRelease_answers (s : State) : Answers (execCollectorRelease s) := by
  unfold execCollectorRelease
  split <;> exact ⟨_, rfl⟩

theorem execSafeStateEntry_answers (s : State) : Answers (execSafeStateEntry s) := by
  unfold execSafeStateEntry
  (repeat' split) <;> exact ⟨_, rfl⟩

theorem execConfigRequest_answers (req : CfgReq) (retry : Bool) (s : State) : Answers (execConfigRequest req retry s) := by
  unfold execConfigRequest
  (repeat' split) <;> exact ⟨_, rfl⟩

theorem execHostReadCompletion_answers (index : Fin 65536) (ok : Bool) (bytes : List Byte) (s : State) :
    Answers (execHostReadCompletion index ok bytes s) := by
  unfold execHostReadCompletion
  (repeat' split) <;> exact ⟨_, rfl⟩

theorem execFwWriteDone_answers (ok : Bool) (s : State) : Answers (execFwWriteDone ok s) := by
  unfold execFwWriteDone
  (repeat' first | split | extract_lets) <;> exact ⟨_, rfl⟩

theorem execRecoverComplete_answers (ok : Bool) (s : State) : Answers (execRecoverComplete ok s) := by
  unfold execRecoverComplete
  (repeat' split) <;> exact ⟨_, rfl⟩

theorem execUndefinedOpcode_answers (who : Issuer) (key : Fin 8192) (chan : Option (Fin 512)) (opcode : BitVec 16) (tag : Nat)
    (s : State) :
    Answers (execUndefinedOpcode who key chan opcode tag s) := by
  unfold execUndefinedOpcode
  extract_lets
  (repeat' split) <;> exact ⟨_, rfl⟩

/-- Every command answers: most are one update of the state, some test first whether their cause holds, and the rest branch further. -/
theorem exec_answers (c : Instr) (s : State) : Answers (exec c s) := by
  cases c with
  | startCmd | stop | suspend | resume | cancel | commit | query | pgResAckWrite | softReset | freezeWrite | enableWrite | lockSet
  | pgIrqWrite | msixUnmask | registerWrite | unmappedAccess | routeIrq | perstNAssert | cellError | tbLocked | xtalFault | tbsSixRead
  | setTime | armSync | syncNow | measure | freqMeas | afeCommitAt | adcCfgWrite | spareAssign | handover | align | ddcCommitAt
  | dcCfgWrite | insCommitAt | fftCommitAt | clear | grtMapSelWrite | swTrig | swTrigAt | trigOutPulseEnd | ctrCommitAt | ttrCommitAt
  | trgCommitAt | captureSample | sheetReady | releaseSheet | restart | recordPlaneRdWrite | sheetCut | submit | modify | taskSuspend
  | taskResume | taskCancel | plan | pin | unpin | reserve | release | rebalance | openRings | closeRings | surveyDue
  | surveyDeferredRetry | rhWindowStart | sidebandInitDone | retrain | repair | linkFault | msgDoorbell | msgIntr | msgFault | msgEvent
  | msgFence | msgLtr | regionIsolation | trvCommit | trvStartChain | trvSuspend | trvResume | trvCancel | trvShWrite | ringOpen
  | ringClose | ringSuspend | ringResume | ringResize | lsaAccept | lsaAck | lsaClosed | lsaReset | bindBuffer | unbind | peRefclkCheck
  | ethRefclkCheck | addQueue | removeQueue | storeInit | storeMount | deflate | inflate | finish | reseed | crcFeed | run | halt
  | stepCmd | swint | relock | vinStart | undervoltage | overvoltage | domainOffTimer | domainOnDone | moduleReset | powerFailTrigger
  | thermalTrigger | fwWrite | fwActivate | fwRatchet | attest | keyExchange | keyLoad | keyClear | debugOpen | smbusTimeout
  | uartRxCharacter | lockstepMismatch | recover | readLog | readFlashLog | memTempRefresh | porstNRelease | perstNDeassert
  | unknownFrame =>
    exact ⟨_, rfl⟩
  | blockResetComplete | refCheck | benchmark | ppsInEdge | tdcTimeout | tdcStartWaitExpiry | afeSettled | overload | subadcFault
  | sampleGroupLaunch | frameRelease | sclkLock | alignTimeout | chainClean | grtTick | grtFrameBoundary | extTrigEdge | writerAutoResume
  | taskQuery | calStoreStart | calStoreDone | calStoreTimeout | tempBandChange | delayUpdate | srIdleExpiry | srExitDone | spareCopyDone
  | layerFillDone | errorWindow | noFlitTimeout | linkPowerOn | mbTrainDone | linkStateTimeout | npTimeout | guestOvercurrent
  | trvDoorbell | ringHoldoffExpiry | pcieLinkUp | dpTrainingDone | dpLinkLost | genlockLost | displayRefill | boardReset | sensorRefresh
  | planeSelftest | checkpoint | faultAutoReset | sclkLockLost | srEntryCommand | pwrVinRefresh | newImageTakeover =>
    exact .ite ⟨_, rfl⟩ ⟨_, rfl⟩
  | blockFault | adcTempUpdate | spectrum | phnDoorbell | phnCqDoorbell | ringConsume | bundleIssue | fabReadComplete | hpdChange
  | lowrefCheck | startupTimeout | mctpMessage | planeFailure =>
    exact .ite ⟨_, rfl⟩ (.ite ⟨_, rfl⟩ ⟨_, rfl⟩)
  | windowWrite who addr value full => exact execWindowWrite_answers who addr value full s
  | ptpMessage port domain transport kind masterPs six fine => exact execPtpMessage_answers port domain transport kind masterPs six fine s
  | ppsOutEdge six => exact execPpsOutEdge_answers six s
  | syncinEdge six fine falling heldNs => exact execSyncinEdge_answers six fine falling heldNs s
  | syncResetApply => exact execSyncResetApply_answers s
  | armSyncTimeout => exact execArmSyncTimeout_answers s
  | syncoutRepeat => exact execSyncoutRepeat_answers s
  | tdcEdge input falling six fine => exact execTdcEdge_answers input falling six fine s
  | freqGateEnd => exact execFreqGateEnd_answers s
  | afeApply conv => exact execAfeApply_answers conv s
  | afeDetUpdate conv level heldNs => exact execAfeDetUpdate_answers conv level heldNs s
  | alignCorrelationDone delayFs gainMdb corrPpm => exact execAlignCorrelationDone_answers delayFs gainMdb corrPpm s
  | handbackCheck delayFs gainMdb corrPpm => exact execHandbackCheck_answers delayFs gainMdb corrPpm s
  | ddcApply pipe => exact execDdcApply_answers pipe s
  | xfadeDone pipe inset => exact execXfadeDone_answers pipe inset s
  | insApply pipe => exact execInsApply_answers pipe s
  | fftApply pipe => exact execFftApply_answers pipe s
  | grtReadoutDone pipe => exact execGrtReadoutDone_answers pipe s
  | grtApply pipe => exact execGrtApply_answers pipe s
  | swTrigAtFire region => exact execSwTrigAtFire_answers region s
  | eventEval pipe ev => exact execEventEval_answers pipe ev s
  | seqWindowExpiry pipe ev => exact execSeqWindowExpiry_answers pipe ev s
  | holdoffEnd pipe ev => exact execHoldoffEnd_answers pipe ev s
  | triggerApply region page => exact execTriggerApply_answers region page s
  | recordPlaneWrite pipe => exact execRecordPlaneWrite_answers pipe s
  | traceBoundary pipe => exact execTraceBoundary_answers pipe s
  | capApply pipe => exact execCapApply_answers pipe s
  | redApply pipe => exact execRedApply_answers pipe s
  | taskStart task image => exact execTaskStart_answers task image s
  | taskDurationEnd task => exact execTaskDurationEnd_answers task s
  | migrationTargetStart => exact execMigrationTargetStart_answers s
  | migrationVerify same six => exact execMigrationVerify_answers same six s
  | migrationHandover => exact execMigrationHandover_answers s
  | migrationRelease => exact execMigrationRelease_answers s
  | migrationRetry => exact execMigrationRetry_answers s
  | predictiveFault page => exact execPredictiveFault_answers page s
  | surveyStepDone power spur level trims crcs => exact execSurveyStepDone_answers power spur level trims crcs s
  | surveyStepTimeout => exact execSurveyStepTimeout_answers s
  | staleBegin => exact execStaleBegin_answers s
  | staleEnd => exact execStaleEnd_answers s
  | surveyRequeue conv => exact execSurveyRequeue_answers conv s
  | holdExpiry task => exact execHoldExpiry_answers task s
  | memRequest stack pc arrivals caFails ecc => exact execMemRequest_answers stack pc arrivals caFails ecc s
  | throttleEnd stack source => exact execThrottleEnd_answers stack source s
  | refreshInterval stack => exact execRefreshInterval_answers stack s
  | scrubRead stack ecc => exact execScrubRead_answers stack ecc s
  | flitReceive port bytes parity => exact execFlitReceive_answers port bytes parity s
  | flitTransmit port => exact execFlitTransmit_answers port s
  | replayTimeout port => exact execReplayTimeout_answers port s
  | repairMessage port op lane token slotW => exact execRepairMessage_answers port op lane token slotW s
  | repairSwitch port => exact execRepairSwitch_answers port s
  | repairAckDeadline port => exact execRepairAckDeadline_answers port s
  | mbInitDone port faulty => exact execMbInitDone_answers port faulty s
  | paramReceive port => exact execParamReceive_answers port s
  | alignFlit port => exact execAlignFlit_answers port s
  | retrainDone port faulty => exact execRetrainDone_answers port faulty s
  | packetReceive port => exact execPacketReceive_answers port s
  | tagQuarantineEnd port tag => exact execTagQuarantineEnd_answers port tag s
  | descFetchDone chan ok bytes => exact execDescFetchDone_answers chan ok bytes s
  | trvPacket group data ok => exact execTrvPacket_answers group data ok s
  | trvComplete chan => exact execTrvComplete_answers chan s
  | portRequest region line data => exact execPortRequest_answers region line data s
  | ringDoorbell ring value => exact execRingDoorbell_answers ring value s
  | ringContextWrite ring index value => exact execRingContextWrite_answers ring index value s
  | ringProduce ring ok => exact execRingProduce_answers ring ok s
  | streamRecordReady task => exact execStreamRecordReady_answers task s
  | streamTransfer task port => exact execStreamTransfer_answers task port s
  | recordTaken task port => exact execRecordTaken_answers task port s
  | nvmeCompletion slot ok => exact execNvmeCompletion_answers slot ok s
  | nvmeWriteTimeout slot => exact execNvmeWriteTimeout_answers slot s
  | apertureRead prp slot offset len => exact execApertureRead_answers prp slot offset len s
  | bar2Access offset write len => exact execBar2Access_answers offset write len s
  | lsaOpenRepeat task port => exact execLsaOpenRepeat_answers task port s
  | lsaRtoExpiry task port psn => exact execLsaRtoExpiry_answers task port psn s
  | lsaDeadTimeout task port => exact execLsaDeadTimeout_answers task port s
  | lsaFailTimeout task port => exact execLsaFailTimeout_answers task port s
  | contextTimer task port => exact execContextTimer_answers task port s
  | playbackRecord task streamId record => exact execPlaybackRecord_answers task streamId record s
  | playbackRelease task => exact execPlaybackRelease_answers task s
  | ethLinkChange port up => exact execEthLinkChange_answers port up s
  | cmpJobDone engine input ok => exact execCmpJobDone_answers engine input ok s
  | interruptEntry core => exact execInterruptEntry_answers core s
  | inputBlock task input samples marks => exact execInputBlock_answers task input samples marks s
  | measureRecord task => exact execMeasureRecord_answers task s
  | vsync gen six annot header image missing loops ltrNs => exact execVsync_answers gen six annot header image missing loops ltrNs s
  | genlockPulse six => exact execGenlockPulse_answers six s
  | startupStep maddr => exact execStartupStep_answers maddr s
  | domainTrip domain => exact execDomainTrip_answers domain s
  | activateTimeout => exact execActivateTimeout_answers s
  | collectorRelease => exact execCollectorRelease_answers s
  | safeStateEntry => exact execSafeStateEntry_answers s
  | configRequest req retry => exact execConfigRequest_answers req retry s
  | hostReadCompletion index ok bytes => exact execHostReadCompletion_answers index ok bytes s
  | fwWriteDone ok => exact execFwWriteDone_answers ok s
  | recoverComplete ok => exact execRecoverComplete_answers ok s
  | undefinedOpcode who key chan opcode tag => exact execUndefinedOpcode_answers who key chan opcode tag s

/-- Settles O60: no branch of a command ends in a fault or a refusal. -/
theorem everyCommandAnswersNext : Obligations.EveryCommandAnswersNext := by
  unfold Obligations.EveryCommandAnswersNext
  exact exec_answers

end Sys2Proof.Machine

namespace Sys2Proof.Machine

/-! ### Flags that are raised, and registers: what most effects may change of a page. -/

/-- A set bit stays set under an OR. -/
theorem wbit_or_left {w : Word} {i : Nat} (m : Word) (h : wbit w i = true) : wbit (w ||| m) i = true := by
  simp only [wbit, nbit, beq_iff_eq, BitVec.toNat_or] at h ⊢
  have hbit : w.toNat.testBit i = true := by rw [Nat.testBit_eq_decide_div_mod_eq]; simpa using h
  have hor : (w.toNat ||| m.toNat).testBit i = true := by rw [Nat.testBit_or, hbit, Bool.true_or]
  rw [Nat.testBit_eq_decide_div_mod_eq] at hor
  simpa using hor

/-- From `s` to `t` every page keeps all but its registers and flags, and no flag of PG_ERR or PG_IRQ is cleared. -/
def Raised (t s : State) : Prop :=
  ∀ j, ∃ err irq regs, t.page j = { s.page j with err := err, irq := irq, regs := regs } ∧
    (∀ i, wbit (s.page j).err i = true → wbit err i = true) ∧ (∀ i, wbit (s.page j).irq i = true → wbit irq i = true)

theorem Raised.of_page {t s : State} (h : ∀ j, t.page j = s.page j) : Raised t s :=
  fun j => ⟨_, _, _, h j, fun _ => id, fun _ => id⟩

theorem Raised.refl (s : State) : Raised s s := .of_page fun _ => rfl

theorem Raised.trans {t u s : State} (h1 : Raised t u) (h2 : Raised u s) : Raised t s := by
  intro j
  obtain ⟨err, irq, regs, ht, herr, hirq⟩ := h1 j
  obtain ⟨err', irq', regs', hu, herr', hirq'⟩ := h2 j
  rw [hu] at ht herr hirq
  exact ⟨err, irq, regs, ht, fun i hi => herr i (herr' i hi), fun i hi => hirq i (hirq' i hi)⟩

/-- A state with the same pages changes as little. -/
theorem Raised.congr {t u s : State} (h : Raised u s) (hp : t.pages = u.pages) (hg : t.guest = u.guest) : Raised t s :=
  .trans (.of_page (page_congr hp hg)) h

theorem Raised.ite {c : Prop} [Decidable c] {a b s : State} (ha : Raised a s) (hb : Raised b s) : Raised (if c then a else b) s := by
  split
  · exact ha
  · exact hb

theorem Raised.each {α : Type} {f : State → α → State} (h : ∀ s x, Raised (f s x) s) (xs : List α) (s : State) : Raised (s.each xs f) s := by
  unfold State.each
  induction xs generalizing s with
  | nil => exact .refl s
  | cons x xs ih => exact (ih (f s x)).trans (h s x)

/-- What no flag and no register holds reads as before. -/
theorem Raised.get {t s : State} (h : Raised t s) (j : Nat) {α : Type} (f : Page → α) :
    f (t.page j) = f { s.page j with err := (t.page j).err, irq := (t.page j).irq, regs := (t.page j).regs } := by
  obtain ⟨err, irq, regs, ht, _, _⟩ := h j
  rw [ht]

theorem Raised.err {t s : State} (h : Raised t s) {j i : Nat} (hi : wbit (s.page j).err i = true) : wbit (t.page j).err i = true := by
  obtain ⟨err, irq, regs, ht, herr, _⟩ := h j
  rw [ht]
  exact herr i hi

theorem Raised.irq {t s : State} (h : Raised t s) {j i : Nat} (hi : wbit (s.page j).irq i = true) : wbit (t.page j).irq i = true := by
  obtain ⟨err, irq, regs, ht, _, hirq⟩ := h j
  rw [ht]
  exact hirq i hi

/-- A change of one page that raises flags and writes registers alone. -/
theorem setPage_raised (s : State) {key : Nat} {p : Page} {err irq : Word} {regs : List (Nat × Word)}
    (hp : p = { s.page key with err := err, irq := irq, regs := regs })
    (herr : ∀ i, wbit (s.page key).err i = true → wbit err i = true) (hirq : ∀ i, wbit (s.page key).irq i = true → wbit irq i = true) :
    Raised (s.setPage key p) s := by
  intro j
  by_cases hj : j = key
  · subst hj
    exact ⟨err, irq, regs, by rw [State.page_setPage, hp], herr, hirq⟩
  · exact ⟨_, _, _, s.page_setPage_other p hj, fun _ => id, fun _ => id⟩

theorem setReg_raised (s : State) (key off : Nat) (w : Word) : Raised (s.setReg key off w) s :=
  setPage_raised s rfl (fun _ => id) (fun _ => id)

theorem wf_raised (s : State) (key : Nat) (f : RegField) (v : Nat) : Raised (s.wf key f v) s := setReg_raised s key _ _
theorem wb_raised (s : State) (key : Nat) (f : RegField) (b : Bool) : Raised (s.wb key f b) s := setReg_raised s key _ _
theorem count_raised (s : State) (key : Nat) (f : RegField) : Raised (s.count key f) s := setReg_raised s key _ _
theorem setPair_raised (s : State) (key off v : Nat) : Raised (s.setPair key off v) s := (setReg_raised _ key _ _).trans (setReg_raised s key _ _)

theorem pageMessage_raised (s : State) (key : Nat) : Raised (s.pageMessage key) s := .of_page (page_pageMessage s key)

theorem raiseIrq_raised (s : State) (key : Nat) (mask : Word) : Raised (s.raiseIrq key mask) s := by
  have h : Raised (s.setPage key { s.page key with irq := (s.page key).irq ||| mask }) s :=
    setPage_raised s rfl (fun _ => id) (fun _ => wbit_or_left mask)
  exact .ite ((pageMessage_raised _ key).trans h) h

theorem irqBit_raised (s : State) (key i : Nat) : Raised (s.irqBit key i) s := raiseIrq_raised s key _

theorem setErrFlag_raised (s : State) (key bit : Nat) : Raised (s.setErrFlag key bit) s := by
  have h : Raised (s.setPage key { s.page key with err := (s.page key).err ||| word (2 ^ bit) }) s :=
    setPage_raised s rfl (fun _ => wbit_or_left _) (fun _ => id)
  exact .ite ((irqBit_raised _ key irqERR).trans h) h

theorem logRaw_raised (s : State) (e : LogEntry) : Raised (s.logRaw e) s := by
  unfold State.logRaw
  extract_lets +onlyGivenNames n e2 full s1 s2 s3
  have h2 : Raised s2 s := (wf_raised s1 keyFLT _ _).trans (.congr (.refl s) rfl rfl)
  have h3 : Raised s3 s := .ite ((wf_raised _ keyFLT _ _).trans ((count_raised s2 keyFLT _).trans h2)) h2
  clear_value s3
  extract_lets +onlyGivenNames src s4 s5
  have h4 : Raised s4 s := .ite (.congr ((count_raised s3 keyFLT Reg.FLT_FLASH_COUNT).trans h3) rfl rfl) h3
  clear_value s4
  have h5 : Raised s5 s := .ite ((irqBit_raised s4 keyFLT 16).trans h4) h4
  exact .ite (.congr h5 rfl rfl) h5

theorem log1_raised (s : State) (e : LogEntry) : Raised (s.log1 e) s := by
  have h := logRaw_raised s e
  exact .ite ((logRaw_raised _ _).trans ((setErrFlag_raised _ keyFLT errLOG_LOST).trans h)) h

theorem logPage_raised (s : State) (key level code sub kind detail : Nat) : Raised (s.logPage key level code sub kind detail) s :=
  log1_raised s _

theorem setErr_raised (s : State) (key bit : Nat) : Raised (s.setErr key bit) s :=
  .ite (.refl s) ((logPage_raised _ key _ _ _ _ _).trans (setErrFlag_raised s key bit))

theorem setErrLogged_raised (s : State) (key bit : Nat) : Raised (s.setErrLogged key bit) s :=
  .ite (logPage_raised s key _ _ _ _ _) (setErr_raised s key bit)

/-- An error that is set is set, on any page. -/
theorem wbit_setErr (s : State) (key : Nat) {bit : Nat} (hbit : bit < 32) : wbit ((s.setErr key bit).page key).err bit = true := by
  unfold State.setErr
  split
  · assumption
  · obtain ⟨irq, hpage⟩ := page_setErrFlag s key bit
    refine (logPage_raised _ key _ _ _ _ _).err ?_
    rw [hpage]
    exact wbit_or_word _ hbit

end Sys2Proof.Machine

namespace Sys2Proof.Machine

/-! ### RESUME of a software trigger whose index has passed (R57). -/

/-- A SW_TRIG_AT for index 0, suspended. -/
def pastTrigger : Op := { opcode := 0x0102, tag := 0, a0 := 0, a1 := 0, a2 := 0, a3 := 0, suspended := true }

/-- After reset, with SIX at 1 and that operation on the first TRG page. -/
def pastTriggerState : State :=
  { State.reset with six := 1, pages := [(keyTRG 0, { Page.ofKey (keyTRG 0) with op := some pastTrigger })] }

/-- RESUME moves the index of the operation to the present one, so its argument is no longer 0. -/
theorem resume_moves_pastTrigger {t : State} (h : exec (.resume .module (Fin.ofNat 8192 (keyTRG 0)) 0) pastTriggerState = .next t) :
    (t.page (keyTRG 0)).op = some { pastTrigger with a0 := 1, suspended := false } := by
  cases h
  decide

/-- Refutes O3: a suspended SW_TRIG_AT whose index has passed resumes with the present index in its arguments, not as the operation it
was. -/
theorem not_commonOpcodesComplete : ¬ Obligations.CommonOpcodesComplete := by
  unfold Obligations.CommonOpcodesComplete
  intro h
  obtain ⟨_, _, _, _, _, _, _, hresume, _⟩ := h
  obtain ⟨t, ht, hop, _⟩ := hresume pastTriggerState .module (Fin.ofNat 8192 (keyTRG 0)) 0 pastTrigger (by decide) (by decide) rfl rfl rfl
    (by decide)
  have hmoved := resume_moves_pastTrigger ht
  exact absurd (hmoved.symm.trans hop) (by decide)

end Sys2Proof.Machine

namespace Sys2Proof.Machine

/-! ### A converter of Phoin's comes out of reset with its trims loaded (R111). -/

/-- After reset, with every power domain on. -/
def poweredReset : State := State.reset.wf keyPWR Reg.PWR_DOMAINS.MAP (2 ^ 30 - 1)

/-- The block of converter 0 comes out of reset: its trims are written again. -/
theorem blockResetComplete_loads_trims {t : State} (h : exec (.blockResetComplete (Fin.ofNat 8192 (keyADC 0))) poweredReset = .next t) :
    t.rb (keyADC 0) Reg.ADC_STAT.TRIMS_LOADED = true := by
  cases h
  decide

/-- Refutes O4: BLOCK_RESET_COMPLETE of a converter of Phoin's whose domains are on also restarts the converter, with its trims loaded,
where the statement lets it only enter IDLE before READY. -/
theorem not_headerWritesTakeEffect : ¬ Obligations.HeaderWritesTakeEffect := by
  unfold Obligations.HeaderWritesTakeEffect
  intro h
  obtain ⟨_, _, _, _, _, _, _, _, _, _, _, _, hreset⟩ := h
  have hexec := hreset poweredReset (Fin.ofNat 8192 (keyADC 0)) (by decide) (by decide) (by decide)
  exact absurd (blockResetComplete_loads_trims hexec) (by decide)

end Sys2Proof.Machine

namespace Sys2Proof.Machine

/-! ### What the blocks do as they enter FAULT raises flags and writes registers at most (R450, R498). -/

theorem writeMem_pages (s : State) (a : Nat) (bs : List Byte) : (s.writeMem a bs).pages = s.pages ∧ (s.writeMem a bs).guest = s.guest := by
  have hmarks (first : Nat) (ls : List Nat) (u : State) :
      (ls.foldl (fun s i => if s.poisoned (first + i) then s.setPoison (first + i) false else s) u).pages = u.pages ∧
        (ls.foldl (fun s i => if s.poisoned (first + i) then s.setPoison (first + i) false else s) u).guest = u.guest := by
    induction ls generalizing u with
    | nil => exact ⟨rfl, rfl⟩
    | cons l ls ih =>
      obtain ⟨hp, hg⟩ := ih (if u.poisoned (first + l) then u.setPoison (first + l) false else u)
      rw [List.foldl_cons, hp, hg]
      split <;> exact ⟨rfl, rfl⟩
  exact hmarks _ _ { s with mem := Memory.putBytes s.mem a bs }

theorem writeMem_raised (s : State) (a : Nat) (bs : List Byte) : Raised (s.writeMem a bs) s := by
  obtain ⟨hp, hg⟩ := writeMem_pages s a bs
  exact .congr (.refl s) hp hg

theorem chanEnter_raised (s : State) (c n : Nat) : Raised (s.chanEnter c n) s := (setReg_raised _ _ _ _).trans (wf_raised s _ _ _)

theorem setShadow_raised (s : State) (c : Nat) (d : Option ChanDesc) : Raised (s.setShadow c d) s :=
    (wb_raised _ _ _ _).trans (.congr (.refl s) rfl rfl)

theorem setAct_raised (s : State) (c : Nat) (d : Option ChanDesc) : Raised (s.setAct c d) s := .congr (setPair_raised s _ _ _) rfl rfl

theorem chanCancel_raised (s : State) (c : Nat) : Raised (s.chanCancel c) s :=
  (chanEnter_raised _ c chIDLE).trans ((wb_raised _ _ _ _).trans
    ((setAct_raised _ c none).trans ((setShadow_raised _ c none).trans (.congr (.refl s) rfl rfl))))

theorem cancelGroup_raised (s : State) (key : Nat) : Raised (s.cancelGroup key) s := .each chanCancel_raised _ s

theorem spoilOutput_raised (s : State) (j : CmpJob) : Raised (s.spoilOutput j) s :=
  .ite (.trans (.each (fun s i => writeMem_raised s _ _) _ _) (.congr (.refl s) rfl rfl)) (.refl s)

theorem cmpAbort_raised (s : State) (n : Nat) : Raised (s.cmpAbort n) s := by
  unfold State.cmpAbort
  split
  · exact .congr (spoilOutput_raised s _) rfl rfl
  · exact .congr (.refl s) rfl rfl

theorem endEpoch_raised (s : State) (p : Nat) : Raised (s.endEpoch p) s := .congr (.ite (writeMem_raised s _ _) (.refl s)) rfl rfl

theorem pauseEnd_raised (s : State) (p : Nat) : Raised (s.pauseEnd p) s := .ite (.congr (endEpoch_raised s p) rfl rfl) (.refl s)

theorem capPause_raised (s : State) (p reason : Nat) : Raised (s.capPause p reason) s := by
  have h : Raised (s.wrEnter p wrSUSPENDED) s := wf_raised s _ _ _
  exact .ite (.ite (.congr h rfl rfl) ((pauseEnd_raised _ p).trans (.congr h rfl rfl))) (pauseEnd_raised s p)

theorem syncOff_raised (s : State) : Raised s.syncOff s := (wf_raised _ _ _ _).trans ((wb_raised _ _ _ _).trans (.congr (.refl s) rfl rfl))

/-! ### A block that enters FAULT (R14, R49). -/

/-- From `s` to `t` the page is in FAULT, its operation has ended, and no error is cleared. -/
theorem faultBlock_active {s : State} {key bit : Nat} (hst : (s.page key).st = .active) (hbit : bit < 32) :
    ((s.faultBlock key bit).page key).st = .fault ∧ wbit ((s.faultBlock key bit).page key).err bit = true ∧
      ∀ i, wbit (s.page key).err i = true → wbit ((s.faultBlock key bit).page key).err i = true := by
  let u := s.setErr key bit
  have hu : (u.page key).st = .active := ((setErr_raised s key bit).get key (·.st)).trans hst
  let v := ((u.failOp key codeFAULT 0).enter key .fault).irqBit key irqFAULT
  have hv : Raised (v.logPage key 2 codeFAULT 0 2 (v.page key).err.toNat) v := logPage_raised v key _ _ _ _ _
  have hfail : ((u.failOp key codeFAULT 0).page key).err = (u.page key).err := by
    unfold State.failOp
    cases hop : (u.page key).op with
    | none => unfold State.endOp; rw [hop]
    | some op => rw [page_endOp_same hop]
  have hverr : (v.page key).err = (u.page key).err := by
    simp only [v, page_irqBit_same, page_enter_same, hfail]
  have hvst : (v.page key).st = .fault := by simp only [v, page_irqBit_same, st_enter]
  have heq : s.faultBlock key bit = v.logPage key 2 codeFAULT 0 2 (v.page key).err.toNat := by
    unfold State.faultBlock
    dsimp only
    rw [hu]
  rw [heq]
  refine ⟨(hv.get key (·.st)).trans hvst, hv.err ?_, fun i hi => hv.err ?_⟩
  · rw [hverr]; exact wbit_setErr s key hbit
  · rw [hverr]; exact (setErr_raised s key bit).err hi

theorem faultBlock_quiet (s : State) (key bit : Nat) : Quiet (s.faultBlock key bit) s := by
  have h := setErr_quiet s key bit
  have hfault (u : State) (hu : Quiet u s) : Quiet (((((u.failOp key codeFAULT 0).enter key .fault).irqBit key irqFAULT)).logPage key 2 codeFAULT 0 2
      ((((u.failOp key codeFAULT 0).enter key .fault).irqBit key irqFAULT).page key).err.toNat) s :=
    (logPage_quiet _ _ _ _ _ _ _).trans ((irqBit_quiet _ _ _).trans ((enter_quiet _ _ _).trans ((failOp_quiet _ _ _ _).trans hu)))
  unfold State.faultBlock
  dsimp only
  split
  · exact hfault _ h
  · exact hfault _ h
  · exact hfault _ h
  · exact hfault _ h
  · exact h

/-- An ACTIVE block other than a converter's enters FAULT with its error set, and no error is cleared. -/
theorem enterFault_active {s : State} {key bit : Nat} (hst : (s.page key).st = .active) (hbit : bit < 32)
    (hconv : s.blockAt key ∉ [.adc, .afe]) :
    ((s.enterFault key bit).page key).st = .fault ∧ wbit ((s.enterFault key bit).page key).err bit = true ∧
      ∀ i, wbit (s.page key).err i = true → wbit ((s.enterFault key bit).page key).err i = true := by
  obtain ⟨hfault, herr, hkept⟩ := faultBlock_active hst hbit
  have hhook : Raised (s.enterFault key bit) (s.faultBlock key bit) := by
    have hblock : (s.faultBlock key bit).blockAt key = s.blockAt key :=
      (faultBlock_quiet s key bit).get (·.blockAt key)
    unfold State.enterFault
    rw [if_neg (by simp [hfault, hst]), hblock]
    split
    · simp_all
    · simp_all
    · exact cancelGroup_raised _ key
    · exact cmpAbort_raised _ _
    · exact .congr (syncOff_raised _) rfl rfl
    · exact .congr (.refl _) rfl rfl
    · exact capPause_raised _ _ 4
    · exact .congr (.refl _) rfl rfl
  exact ⟨(hhook.get key (·.st)).trans hfault, hhook.err herr, fun i hi => hhook.err (hkept i hi)⟩

/-- A fault bit of a block belongs to a page whose block is the module's own, and is one of PG_ERR.BLOCK. -/
theorem blockAt_of_faultBits {s : State} {key bit : Nat} (hconv : blockOf key ∉ [.adc, .afe])
    (hbit : (faultBits (blockOf key)).contains bit = true) : s.blockAt key = blockOf key := by
  have hguest : s.guestPage key = false := by
    by_contra hg
    simp only [State.guestPage, State.guestDie, Bool.not_eq_false, Bool.and_eq_true, decide_eq_true_eq] at hg
    obtain ⟨⟨⟨_, hregion⟩, _⟩, hbxe⟩ := hg
    have hblock : blockOf key = converterBlock (keyPage key) := by simp [blockOf, hregion]
    rw [hblock] at hconv hbit
    unfold converterBlock at hconv hbit
    split_ifs at hconv hbit <;> simp_all [faultBits]
  simp [State.blockAt, hguest]

/-- A counter of corrected errors counts, and the rest of its page's header stays. -/
theorem count_corrected (s : State) (key : Nat) {f : RegField} (hhi : f.hi = 31) (hlo : f.lo = 0) :
    (s.count key f).rf key f = satInc 0xFFFFFFFF (s.rf key f) ∧ ((s.count key f).page key).st = (s.page key).st ∧
      ((s.count key f).page key).err = (s.page key).err := by
  have hlt : s.rf key f < 2 ^ 32 := by
    have hfield : s.rf key f < 2 ^ (f.hi + 1 - f.lo) := bitsOf_lt (s.reg key f.off).toNat f.hi f.lo
    rwa [hhi, hlo] at hfield
  have hpage := page_wf s key f (satInc (2 ^ (f.hi + 1 - f.lo) - 1) (s.rf key f))
  refine ⟨?_, congrArg (·.st) hpage, congrArg (·.err) hpage⟩
  unfold State.count
  rw [rf_wf_same s key _ (by omega) (by omega), hhi, hlo]
  refine Nat.mod_eq_of_lt (?_ : satInc 4294967295 (s.rf key f) < 4294967296)
  unfold satInc
  split <;> omega

theorem keyListed_of_blockAt {s : State} {key : Nat} {b : BlockType} (h : s.blockAt key = b) (hb : b ≠ .none) :
    keyListed key = true := by
  unfold State.blockAt at h
  subst h
  split at hb
  · simp at hb
  · simp_all [keyListed]

theorem exec_cellError_corrected {s : State} {key : Fin 8192} (hlisted : keyListed key = true)
    (hst : (s.page key).st ≠ .off ∧ (s.page key).st ≠ .reset) : exec (.cellError key true) s = .next (s.countCorrected key) := by
  refine congrArg Host.Outcome.next (if_neg ?_)
  simp [hlisted, hst]

/-- Settles O6: a fault and an escalated error both go through `enterFault`, and a corrected error only counts where a counter is. -/
theorem faultsOfBlocksAndCells : Obligations.FaultsOfBlocksAndCells := by
  unfold Obligations.FaultsOfBlocksAndCells
  refine ⟨?_, ?_, ?_, ?_, ?_⟩
  · intro s key bit hlisted hkey hconv hbit hst
    have hblock := blockAt_of_faultBits (s := s) hconv hbit
    obtain ⟨hfault, herr, _⟩ := enterFault_active hst bit.isLt (hblock ▸ hconv)
    refine ⟨_, ?_, hfault, herr⟩
    change execBlockFault key bit s = _
    unfold execBlockFault
    rw [if_neg (by simp [hlisted, hblock, List.contains_iff_mem.1 hbit]), if_neg hkey]
  · intro s key hlisted hconv hst
    let u := s.setErr key errESCALATED
    have hu : (u.page key).st = .active := ((setErr_raised s key _).get key (·.st)).trans hst
    have hcell : cellBit (blockOf key) < 32 := by cases blockOf key <;> decide
    have hconv' : u.blockAt key ∉ [.adc, .afe] := by
      unfold State.blockAt
      split
      · decide
      · exact hconv
    obtain ⟨hfault, herr, hkept⟩ := enterFault_active hu hcell hconv'
    exact ⟨u.enterFault key (cellBit (blockOf key)), congrArg Host.Outcome.next ((if_neg (by simp [hlisted,
        hst])).trans (if_neg (by decide))), hfault,
      hkept 5 (wbit_setErr s key (by decide)), herr⟩
  · intro s key hblock
    have hcount : s.countCorrected key = s := by
      unfold State.countCorrected
      split <;> simp_all
    refine ⟨s, congrArg Host.Outcome.next ?_, rfl⟩
    split
    · rfl
    · exact hcount
  · intro s key hblock hst
    have hlisted : keyListed key = true := keyListed_of_blockAt hblock (by decide)
    refine ⟨_, exec_cellError_corrected hlisted hst, ?_⟩
    unfold State.countCorrected
    rw [hblock]
    exact count_corrected s key rfl rfl
  · intro s key hblock hst
    have hlisted : keyListed key = true := keyListed_of_blockAt hblock (by decide)
    refine ⟨_, exec_cellError_corrected hlisted hst, ?_⟩
    unfold State.countCorrected
    rw [hblock]
    exact count_corrected s key rfl rfl

end Sys2Proof.Machine

namespace Sys2Proof.Machine

/-- Settles O1: `step` is defined so. -/
theorem stepRunsFrontCommand : Obligations.StepRunsFrontCommand := by
  unfold Obligations.StepRunsFrontCommand
  intro s c q hq
  unfold step
  (rw [hq]) <;> rfl

/-! ### A word written into the MSI-X table, and the window's words (R33, R35). -/

/-- A word written into the table, as it is held there: vector control keeps its mask bit alone. -/
def msixHeld (i : Nat) (w : Word) : Word := if i % 4 = 3 then w &&& 1 else w

theorem writeMsix_idle {s : State} {i : Nat} (w : Word) (h : s.msixPending (i / 4) = false) :
    s.writeMsix i w = { s with msixTable := mput s.msixTable i (msixHeld i w) } :=
  if_neg fun hp => by
    obtain ⟨hp, -⟩ := hp
    exact absurd (hp.symm.trans h) (by decide)

theorem msixMasked_put_control (s : State) (v : Nat) :
    State.msixMasked { s with msixTable := mput s.msixTable (4 * v + 3) (msixHeld (4 * v + 3) 0) } v = false := by
  have h3 : (4 * v + 3) % 4 = 3 := by omega
  simp [State.msixMasked, State.msixWord, msixHeld, h3, wbit, nbit]

theorem msixWord_put_other (s : State) (v : Nat) (w : Word) {i : Nat} (h : i < 3) :
    State.msixWord { s with msixTable := mput s.msixTable (4 * v + 3) w } v i = s.msixWord v i :=
  mget_mput_other _ _ _ (by omega)

/-- Unmasking a vector whose pending bit is set sends its message. -/
theorem writeMsix_pending {s : State} {v : Nat} (h : s.msixPending v = true) :
    (s.writeMsix (4 * v + 3) 0).msixMasked v = false ∧
      (s.writeMsix (4 * v + 3) 0).out = s.out ++ [.msix v (s.msixWord v 0) (s.msixWord v 1) (s.msixWord v 2)] := by
  let u : State := { s with msixTable := mput s.msixTable (4 * v + 3) (msixHeld (4 * v + 3) 0) }
  have hmask : u.msixMasked v = false := msixMasked_put_control s v
  have hv : (4 * v + 3) / 4 = v := by omega
  have heq : s.writeMsix (4 * v + 3) 0 = { u with msixPend := mdel u.msixPend v }.emit (.msix v (u.msixWord v 0) (u.msixWord v 1)
      (u.msixWord v 2)) := by
    unfold State.writeMsix
    rw [hv]
    exact (if_pos ⟨h, congrArg (!·) hmask⟩).trans (if_neg fun hm => absurd (hm.symm.trans hmask) (by decide))
  rw [heq]
  refine ⟨hmask, ?_⟩
  rw [msixWord_put_other s v _ (by decide), msixWord_put_other s v _ (by decide), msixWord_put_other s v _ (by decide)]
  rfl

/-- A word written into a window of a page, other than a ring context's. -/
theorem exec_windowWrite_window {s : State} {who : Issuer} {addr : Fin 0x4000000} {value : BitVec 32} {key : Nat}
    (hmsix : ¬(0x03F00000 ≤ addr.val / 4 * 4 ∧ addr.val / 4 * 4 < 0x03F08000)) (hkey : windowKey (addr.val / 4 * 4) = some key)
    (hrng : key ≠ keyRNG) (hd : s.discards who key = none) :
    exec (.windowWrite who addr value true) s = .next (s.setWin (addr.val / 4 * 4) value) := by
  change execWindowWrite who addr value true s = _
  unfold execWindowWrite
  rw [if_neg hmsix, hkey]
  dsimp only
  rw [hd]
  exact (if_neg Bool.false_ne_true).trans (if_neg hrng)

theorem log_logUnmapped {s : State} (addr : Nat) (h : s.log.length < 4096) :
    (s.logUnmapped addr).log = s.log ++ [{ entry := s.rf keyFLT Reg.FLT_HEAD, level := 0, code := 0, sub := 0, kind := 7, six := s.six,
                                           source := 0x100, pageKey := 0xFFFF, detail := addr }] := by
  unfold State.logUnmapped State.log1
  dsimp only
  rw [if_neg (by simp [Nat.not_le.2 h]), log_logRaw, if_neg (Nat.not_le.2 h)]

/-- Settles O5: each command is the write of one word, one entry of the log, or one route. -/
theorem windowsAndRoutesTakeEffect : Obligations.WindowsAndRoutesTakeEffect := by
  unfold Obligations.WindowsAndRoutesTakeEffect
  refine ⟨?_, ?_, ?_, ?_, ?_, ?_, ?_⟩
  · intro s vector hp
    exact ⟨_, rfl, writeMsix_pending hp⟩
  · intro s vector hp
    have hv : (4 * vector.val + 3) / 4 = vector.val := by omega
    have heq := writeMsix_idle (i := 4 * vector.val + 3) 0 (hv.symm ▸ hp)
    exact ⟨_, congrArg Host.Outcome.next heq, msixMasked_put_control s _, rfl⟩
  · intro s who i value hi hp
    have ha : (Fin.ofNat 0x4000000 (0x03F00000 + 4 * i.val)).val / 4 * 4 = 0x03F00000 + 4 * i.val := by
      simp only [Fin.ofNat]
      omega
    refine ⟨s.writeMsix i value, ?_, ?_⟩
    · change execWindowWrite who _ value true s = .next (s.writeMsix i value)
      unfold execWindowWrite
      dsimp only
      rw [ha, if_pos (by omega), if_pos rfl, show (0x03F00000 + 4 * i.val - 0x03F00000) / 4 = i.val by omega]
    · rw [writeMsix_idle value hp, msixHeld, if_neg hi]
      exact mget_mput_same _ _ _ _
  · intro s who addr value key hmsix hkey hrng hd
    refine ⟨_, exec_windowWrite_window hmsix hkey hrng hd, ?_⟩
    unfold State.setWin
    rw [Nat.mul_div_cancel _ (by decide)]
    exact mget_mput_same _ _ _ _
  · intro s addr hmap hlog
    exact ⟨_, congrArg Host.Outcome.next (if_neg (by simp [hmap])), log_logUnmapped _ hlog⟩
  · intro s who tag ht hlisted hflt hv
    let op := s.latch keyHIF 0x0100 tag
    let u : State := { s.accept keyHIF op with routes := mput s.routes (op.a0 % 2 ^ 13) (op.a1 % 2 ^ 11) }
    have hu : (u.page keyHIF).op = some op := by
      rw [page_congr (t := u) (s := s.accept keyHIF op) rfl rfl keyHIF, page_accept_same]
    refine ⟨u.doneOp keyHIF, ?_, ?_, ?_⟩
    · change execRouteIrq who tag s = _
      unfold execRouteIrq
      rw [command_of_takes ht]
      refine congrArg _ ((if_neg ?_).trans ((if_neg hflt).trans ?_))
      · change ¬(((!keyListed ((s.page keyHIF).a0.toNat % 2 ^ 13)) = true) ∨ _)
        rw [hlisted]
        simp only [Bool.not_true, Bool.false_eq_true, false_or]
        change ¬(1 ≤ (s.page keyHIF).a1.toNat % 2 ^ 11 ∧ (s.page keyHIF).a1.toNat % 2 ^ 11 < 32)
        omega
      · have : ¬op.a1 % 2 ^ 11 = 0 := by
          change ¬(s.page keyHIF).a1.toNat % 2 ^ 11 = 0
          omega
        dsimp only
        rw [if_neg this]
    · rw [(doneOp_quiet u keyHIF).get (·.routes)]
      exact mget_mput_same _ _ _ _
    · rw [page_doneOp_same hu]
      exact cmdStatWord_mod _ _ _ _
  · intro s who key opcode tag hh hop hflt
    refine ⟨s.reject key tag opcode.toNat codeUNSUPPORTED 0, ?_, cmdStat_reject s key _ _ _ _⟩
    change (if opcodeKnown key opcode.toNat ∧ _ then _ else _) = _
    rw [if_neg (by simp [hop]), write_of_honours hh]

/-! ### What is put out stays put out. -/

/-- From `s` to `t` something may have been put out, and nothing is taken back. -/
def Emits (t s : State) : Prop := s.out <+: t.out

theorem Emits.refl (s : State) : Emits s s := List.prefix_refl _

theorem Emits.trans {t u s : State} (h1 : Emits t u) (h2 : Emits u s) : Emits t s := List.IsPrefix.trans h2 h1

theorem Emits.mem {t s : State} {x : Output} (h : Emits t s) (hx : x ∈ s.out) : x ∈ t.out := h.subset hx

theorem Emits.ite {c : Prop} [Decidable c] {a b s : State} (ha : Emits a s) (hb : Emits b s) : Emits (if c then a else b) s := by
  split
  · exact ha
  · exact hb

theorem modPage_emits (s : State) (key : Nat) (f : Page → Page) : Emits (s.modPage key f) s := .refl s

theorem sendMsix_emits (s : State) (v : Nat) : Emits (s.sendMsix v) s := .ite (.refl s) (List.prefix_append _ _)

theorem pageMessage_emits (s : State) (key : Nat) : Emits (s.pageMessage key) s := by
  unfold State.pageMessage
  refine .ite ?_ (.refl s)
  split
  · exact sendMsix_emits s _
  · exact .refl s

theorem irqBit_emits (s : State) (key i : Nat) : Emits (s.irqBit key i) s :=
  have hset (p : Page) : Emits (s.setPage key p) s := .refl s
  .ite ((pageMessage_emits _ key).trans (hset _)) (hset _)

theorem writeResult_emits (s : State) (key : Nat) (r : List Word) : Emits (s.writeResult key r) s :=
  (irqBit_emits _ key _).trans (modPage_emits s key _)

theorem endOp_emits (s : State) (key phase code sub : Nat) : Emits (s.endOp key phase code sub) s := by
  unfold State.endOp
  split
  · exact .refl s
  · exact (irqBit_emits _ key _).trans (modPage_emits s key _)

theorem doneWith_emits (s : State) (key : Nat) (r : List Word) : Emits (s.doneWith key r) s := by
  unfold State.doneWith
  split
  · exact .refl s
  · exact .ite (modPage_emits s key _) ((endOp_emits _ key _ _ _).trans (writeResult_emits s key r))

/-! ### A synchronising reset that is accepted (R82, R84). -/

theorem refreshHold_quiet (s : State) : Quiet s.refreshHold s := rfl

theorem page_refreshHold (s : State) {j : Nat} (h : j ≠ keyPHN) : s.refreshHold.page j = s.page j := (refreshHold_flagsOnly s).other j h

/-- Without LOAD_SIX, the operation runs and the reset is held. -/
theorem syncStart_takes {s : State} {op : Op} {o : SyncOp} (ho : o.loadSix = false) :
    (s.syncStart op o id).tb.sync = some o ∧
      ((s.syncStart op o id).page keyTBS).cmdStat = cmdStatWord op.tag phaseRUNNING 0 codeOK := by
  let u := (s.accept keyTBS op).modTb fun t => { t with sync := some o }
  have heq : s.syncStart op o id = u.refreshHold := by
    unfold State.syncStart
    rw [ho]
    rfl
  rw [heq, page_refreshHold u (by decide), page_congr (t := u) (s := s.accept keyTBS op) rfl rfl keyTBS, page_accept_same]
  exact ⟨rfl, rfl⟩

/-- Without LOAD_SIX and with no operation on the page, GENERATE drives its edge and ends DONE in a free window. -/
theorem generateEdge_idle {s : State} {op : Op} {o : SyncOp} (ho : o.loadSix = false) (hop : (s.page keyTBS).op = none)
    (hsusp : op.suspended = false) (hfree : (s.page keyTBS).resReady = false) :
    (s.generateEdge o op).tb.sync = s.tb.sync ∧ Output.syncout s.six o.falling ∈ (s.generateEdge o op).out ∧
      ((s.generateEdge o op).page keyTBS).cmdStat = cmdStatWord op.tag phaseDONE 0 codeOK := by
  let u := (s.accept keyTBS op).emit (.syncout s.six o.falling)
  have hpage : u.page keyTBS = (s.accept keyTBS op).page keyTBS := page_congr rfl rfl keyTBS
  have heq : s.generateEdge o op = u.doneWith keyTBS (sixWords s.six ++ [0]) := by
    unfold State.generateEdge
    (rw [ho, hop]) <;> rfl
  have hu : (u.page keyTBS).op = some op := by rw [hpage, page_accept_same]
  have hready : (u.page keyTBS).resReady = false := by rw [hpage, page_accept_same]; exact hfree
  rw [heq]
  refine ⟨congrArg (·.sync) ((doneWith_quiet u keyTBS _).get (·.tb)), ?_, ?_⟩
  · exact (doneWith_emits u keyTBS _).mem (List.mem_append_right _ (List.mem_singleton_self _))
  · rw [page_doneWith_same hu hsusp hready]

/-- Settles O7: the four commands are accepted as they stand. -/
theorem timeBaseCommandsComplete : Obligations.TimeBaseCommandsComplete := by
  unfold Obligations.TimeBaseCommandsComplete
  refine ⟨?_, ?_, ?_, ?_⟩
  · intro s who tag ht hptp
    let op := s.latch keyTBS 0x0102 tag
    let u := (s.accept keyTBS op).modTb fun t => { t with setSecs := some (op.a0 + op.a1 % 65536 * 2 ^ 32) }
    refine ⟨u, ?_, rfl, ?_⟩
    · change execSetTime who tag s = _
      unfold execSetTime
      rw [command_of_takes ht]
      exact congrArg Host.Outcome.next (if_neg (by simp [State.ptpTime, hptp]))
    · rw [page_congr (t := u) (s := s.accept keyTBS op) rfl rfl keyTBS, page_accept_same]
      exact cmdStatWord_mod _ _ _ _
  · intro s who tag ht hload
    obtain ⟨hsync, hstat⟩ := syncStart_takes (s := s) (op := s.latch keyTBS 0x0100 tag) (o := s.latchSync false) hload
    exact ⟨_, congrArg Host.Outcome.next (command_of_takes ht _ _ _), hsync, hstat.trans (cmdStatWord_mod _ _ _ _)⟩
  · intro s who tag ht hload hout
    obtain ⟨hh, hop⟩ := ht
    obtain ⟨hsync, hstat⟩ := syncStart_takes (s := s) (op := s.latch keyTBS 0x0101 tag) (o := s.latchSync true) hload
    refine ⟨_, ?_, hsync, hstat.trans (cmdStatWord_mod _ _ _ _)⟩
    change execSyncNow who tag s = _
    unfold execSyncNow
    rw [write_of_honours hh]
    dsimp only
    rw [hop]
    exact congrArg Host.Outcome.next (if_neg hout)
  · intro s who tag ht hload hout hfree
    obtain ⟨hh, hop⟩ := ht
    obtain ⟨hsync, hmem, hstat⟩ := generateEdge_idle (op := s.latch keyTBS 0x0101 tag) (o := s.latchSync true) hload hop rfl hfree
    refine ⟨_, ?_, hsync, hmem, hstat.trans (cmdStatWord_mod _ _ _ _)⟩
    change execSyncNow who tag s = _
    unfold execSyncNow
    rw [write_of_honours hh]
    dsimp only
    rw [hop]
    exact congrArg Host.Outcome.next (if_pos hout)

end Sys2Proof.Machine

namespace Sys2Proof.Machine

/-! ### A result tells the host (R45, R64). -/

/-- The SEC page of a provisioned module asks for an interrupt when a result is ready, on vector 32, which the host has unmasked. -/
def attestState : State :=
  let s := (State.reset.wb keySEC Reg.SEC_STAT.PROVISIONED true).modPage keySEC fun p =>
    { p with st := .idle, owner := .host, a2 := 344, irqEn := word (2 ^ irqRES_READY) }
  { s with routes := [(keySEC, 32)], msixTable := [(4 * 32 + 3, 0)] }

/-- ATTEST writes its report, and the message of the result follows. -/
theorem attest_out_length {t : State} (h : exec (.attest .module 0 (some [])) attestState = .next t) : t.out.length = 2 := by
  cases h
  decide

/-- Refutes O35: after the report ATTEST also sends the message of its result, where the page's interrupt is enabled and routed. -/
theorem not_keysAndDebugTakeEffect : ¬ Obligations.KeysAndDebugTakeEffect := by
  unfold Obligations.KeysAndDebugTakeEffect
  intro h
  obtain ⟨hattest, _⟩ := h
  obtain ⟨t, hexec, hout, _⟩ := hattest attestState .module 0 [] (by decide) (by decide) (by decide) (by decide)
  have hlen := congrArg List.length hout
  rw [attest_out_length hexec] at hlen
  exact absurd hlen (by simp [show attestState.out = [] from rfl])

end Sys2Proof.Machine

namespace Sys2Proof.Machine

/-! ### TRIG_OUT of inverted polarity (R220). -/

/-- TRIG_OUT of region 0 is inverted, and its pulse has come to its end. -/
def invertedPulse : State :=
  { State.reset.applyWords (keyTRG 0) [(Reg.TRG_OUT_CFG.POLARITY.off, word (2 ^ Reg.TRG_OUT_CFG.POLARITY.lo))] with
    trigOuts := [(0, { TrigOut.init with outEnd := some 0 })] }

/-- Inactive is high on an inverted output. -/
theorem trigOutPulseEnd_inverted {t : State} (h : exec (.trigOutPulseEnd 0 0) invertedPulse = .next t) : t.out = [.trigOut 0 0 true] := by
  cases h
  decide

/-- Refutes O15: a pulse that ends drives TRIG_OUT to the level that its polarity makes inactive, which is high where POLARITY is 1. -/
theorem not_triggerCommandsComplete : ¬ Obligations.TriggerCommandsComplete := by
  unfold Obligations.TriggerCommandsComplete
  intro h
  obtain ⟨_, _, _, _, _, _, _, _, _, hpulse, _⟩ := h
  obtain ⟨t, hexec, _, hout⟩ := hpulse invertedPulse 0 0 0 (by decide) (by decide) (by decide)
  rw [trigOutPulseEnd_inverted hexec] at hout
  exact absurd hout (by decide)

end Sys2Proof.Machine

namespace Sys2Proof.Machine

/-! ### The writer of a page that is being suspended takes no sample past the boundary (R262). -/

/-- The IQ writer of pipeline 0 runs, its page is being suspended at a frame boundary that has passed, and a sample waits. -/
def pausedWriter : State :=
  let s := (State.reset.applyWords (keyCAP 0) [(Reg.CAP_CFG.FORMAT.off, word (2 ^ Reg.CAP_CFG.FORMAT.lo))]).wrEnter 0 wrRUNNING
  { s with chains := [(0, { Chain.init with fifo := [{ label := 0, i := 0, q := 0, marks := 0, src := 0 }] })],
           caps := [(0, { Capture.init with pauseAt := some 0 })] }

theorem captureSample_pausedWriter {t : State} (h : exec (.captureSample 0) pausedWriter = .next t) : t.capWc 0 = 0 := by
  cases h
  decide

/-- Refutes O16: a running writer with a pause pending drops the samples from the pause's boundary on, and CAP_WC does not count them. -/
theorem not_eventsAndCaptureComplete : ¬ Obligations.EventsAndCaptureComplete := by
  unfold Obligations.EventsAndCaptureComplete
  intro h
  obtain ⟨_, _, _, hcapture, _⟩ := h
  obtain ⟨t, hexec, hwc, _⟩ := hcapture pausedWriter 0 { label := 0, i := 0, q := 0, marks := 0, src := 0 } [] rfl (by decide) rfl rfl
    (by decide) (by decide) (by decide) (by decide) (by decide)
  exact absurd ((captureSample_pausedWriter hexec).symm.trans hwc) (by decide)

end Sys2Proof.Machine

namespace Sys2Proof.Machine

/-! ### A retry waits for the spare converter's rotation on its input (R121, R314). -/

/-- A running SPECTRUM task of a channel on a pipeline. -/
def spectrumTask (channel pipe : Nat) : Task :=
  { id := 4096, arrival := 0, st := .running, desc := List.replicate 32 0 ++ leBytes 1 4 ++ leBytes channel 1, ext := [],
    pinned := false, why := 0, pipes := [pipe], stack := 0, hasMem := true, pieces := [], grants := [], maps := [], startAt := 0,
    startedAt := 0, memLost := false, closed := false, code := 0, sub := 0, image := [], restart := false }

/-- A rebalancing migration from pipeline 0 to 1 that waits to be tried again. -/
def waitingRetry : Migration :=
  { cause := .rebalance, tasks := [4096], source := [0], target := [1], phase := .retryWait, startAt := 0, h := 0, tries := 1, retryAt := 0,
    goal := [spectrumTask 0x40 1], old := [] }

/-- The spare shadows converter 0, on whose input the migration's task runs. -/
def retryInRotation : State :=
  ((State.reset.wf (keyADC 4) Reg.ADC_SPARE_STAT.SPARE_STATE spareSHADOWING).setTask (spectrumTask 0 0)).modPhn fun p =>
    { p with mig := some waitingRetry }

theorem migrationRetry_inRotation {t : State} (h : exec .migrationRetry retryInRotation = .next t) :
    t.phn.mig.map (·.phase) = some .retryWait := by
  cases h
  decide

/-- Refutes O18: a retry does not begin while the spare's rotation holds the input of its task, although its goal fits. -/
theorem not_tasksAndMigrationsComplete : ¬ Obligations.TasksAndMigrationsComplete := by
  unfold Obligations.TasksAndMigrationsComplete
  intro h
  obtain ⟨_, _, _, _, _, _, _, _, hretry, _⟩ := h
  obtain ⟨t, hexec, hmig⟩ := hretry retryInRotation waitingRetry (spectrumTask 0 0) [spectrumTask 0x40 1] (by decide) (by decide) (by decide)
    (by decide) (by decide)
  have hphase := migrationRetry_inRotation hexec
  cases hm : t.phn.mig with
  | none => simp [hm] at hphase
  | some m => simp_all

end Sys2Proof.Machine

namespace Sys2Proof.Machine

/-! ### A resumed hold may be moved at once (R287, R311). -/

/-- A suspended CALIBRATION_HOLD of no converter. -/
def suspendedHold : Task :=
  { spectrumTask 0x40 0 with desc := List.replicate 32 0 ++ leBytes 7 4, st := .suspended, pipes := [] }

/-- A running task beside it. -/
def besideHold : Task := { spectrumTask 0x40 0 with id := 4097 }

/-- The command entry RESUME of the hold. -/
def resumeEntry : List Byte := leBytes opTRESUME 1 ++ leBytes 1 1 ++ leBytes 0 2 ++ leBytes 1 4 ++ leBytes 4096 4 ++ leBytes 0 20

/-- Phoin takes an entry, and a migration waits in the queue whose goal names the hold too. -/
def resumeBeforeMigration : State :=
  let s := (State.reset.wb keyMOD Reg.MOD_STAT.READY true).wb keyPHN Reg.PHN_STAT.RINGS true
  ((s.setTask suspendedHold).setTask besideHold).modPhn fun p =>
    { p with prod0 := 2, len0 := 16, len1 := 16, migQueue := [Migration.ask .rebalance [4097] [] [spectrumTask 0x40 1]] }

/-- The hold as it is placed. -/
def placedHold : Task :=
  match ((resumeBeforeMigration.takeHead opTRESUME).envOf resumeBeforeMigration.liveTasks 4096).admits suspendedHold [] (cNO_EVICT resumeEntry) with
  | (.fits x, _) => x
  | _ => suspendedHold

theorem taskResume_beforeMigration {t : State} (h : exec (.taskResume resumeEntry) resumeBeforeMigration = .next t) :
    (t.task 4096).map (·.st) = some .migrating := by
  cases h
  decide

/-- Refutes O17: the placement of a resumed CALIBRATION_HOLD begins the next migration of the queue, and where the goal of that migration
names the hold, the hold is MIGRATING at once. -/
theorem not_ringsAndSubmissionsComplete : ¬ Obligations.RingsAndSubmissionsComplete := by
  unfold Obligations.RingsAndSubmissionsComplete
  intro h
  obtain ⟨_, _, _, _, _, _, _, _, _, hresume, _⟩ := h
  obtain ⟨t, hexec, hst, _⟩ := hresume resumeBeforeMigration resumeEntry suspendedHold placedHold [] (by decide) (by decide) (by decide)
    (by decide) (by decide) (by decide)
  have hmig := taskResume_beforeMigration hexec
  change (t.task 4096).map _ = _ at hst
  cases ht : t.task 4096 with
  | none => simp [ht] at hst
  | some k => simp_all

end Sys2Proof.Machine

namespace Sys2Proof.Machine

/-! ### A held SUSPEND overtakes the end of a hold (R287, R339). -/

/-- A running CALIBRATION_HOLD of a converter. -/
def runningHold (id convs : Nat) : Task :=
  { spectrumTask 0x40 0 with
    id := id, pipes := [], desc := List.replicate 32 0 ++ leBytes 7 4 ++ List.replicate 0x4C 0 ++ leBytes convs 1 }

/-- The hold 4096 has come to its end while a SUSPEND of it is held. The hold 4098 has a survey of converter 0 due, for which a task has to
leave pipeline 1. -/
def expiredHold : State :=
  let s := (State.reset.modPage keySVY fun p => { p with st := .active }).setReg (keyADC 0) Reg.ADC_STAT.SCLK_LOCK.off 0xFFFFFFFF
  let s := ((s.setTask (runningHold 4096 0)).setTask { spectrumTask 0x40 1 with id := 4097, st := .placed }).setTask (runningHold 4098 1)
  let s := s.modPhn fun p =>
    { p with held := some { opcode := opTSUSPEND, tag := 0, task := 4096, entry := [], moved := [], failed := none, six := 0 } }
  s.modSvy fun v =>
    { v with holds := [{ task := 4096, convs := [], pipes := [], deadline := 0 }, { task := 4098, convs := [0], pipes := [1], deadline := 0 }] }

theorem holdExpiry_suspends {t : State} (h : exec (.holdExpiry 4096) expiredHold = .next t) : (t.task 4096).map (·.st) = some .suspended := by
  cases h
  decide

/-- Refutes O19: the end of a hold calls for the next survey, which asks for a migration, and with it the held SUSPEND of the ended hold
is carried out: its task is SUSPENDED and not DONE. -/
theorem not_surveysComplete : ¬ Obligations.SurveysComplete := by
  unfold Obligations.SurveysComplete
  intro h
  obtain ⟨_, _, _, _, _, _, _, _, hexpiry, _⟩ := h
  obtain ⟨t, hexec, hst, _⟩ := hexpiry expiredHold 4096 { task := 4096, convs := [], pipes := [], deadline := 0 } (runningHold 4096 0)
    (by decide) (by decide) (by decide)
  exact absurd ((holdExpiry_suspends hexec).symm.trans hst) (by decide)

end Sys2Proof.Machine

namespace Sys2Proof.Machine

/-! ### The grant slot chooses the class of the packet that is taken (R13, R413). -/

/-- A completion of class ST, and one of class RT behind it. -/
def stCompletion : List Byte := [0x20, 0x40, 1, 0]
def rtCompletion : List Byte := [0x20, 0x00, 2, 0]

/-- The request whose tag the completion of class ST returns. -/
def stRequest : TagEntry :=
  { tag := 1, source := 0, rtype := 0x10, space := 0, addr := 0, lines := 1, from0 := none, sentAt := 0, quarantined := false }

/-- Both completions wait at an end, and the slot is one of class RT. -/
def twoCompletions : State :=
  State.reset.modLink (endKey 0) fun l => { l with inbox := [(3, 1, stCompletion), (3, 1, rtCompletion)], tags := [stRequest] }

theorem packetReceive_twoCompletions {t : State} (h : exec (.packetReceive 0) twoCompletions = .next t) :
    (t.link (endKey 0)).inbox = [(3, 1, stCompletion)] := by
  cases h
  decide

/-- Refutes O23: in a slot of class RT the oldest packet of that class is taken, and an older one of class ST stays. -/
theorem not_transactionsComplete : ¬ Obligations.TransactionsComplete := by
  unfold Obligations.TransactionsComplete
  intro h
  obtain ⟨hreceive, _⟩ := h
  obtain ⟨t, hexec, hinbox, _⟩ := hreceive twoCompletions 0 1 stCompletion [(3, 1, rtCompletion)] stRequest (by decide) (by decide) (by decide)
    (by decide) (by decide)
  exact absurd ((packetReceive_twoCompletions hexec).symm.trans hinbox) (by decide)

end Sys2Proof.Machine

namespace Sys2Proof.Machine

/-! ### A register of a core holds no more bits than it has (R515, R526). -/

/-- A core runs with software interrupts enabled and one pending. Its list of registers shows a bit 10 for ST, which has 10 bits. -/
def wideStatusCore : State :=
  let s := (State.reset.modPage (keyMC 0) fun p => { p with st := .active }).mcEnter 0 mcRUNNING
  s.modCore 0 fun c => { c with sw := true, regs := [(regST, 2 ^ 10 + 2 ^ 9 + 2 ^ 7)] }

theorem interruptEntry_wideStatusCore {t : State} (h : exec (.interruptEntry 0) wideStatusCore = .next t) : (t.core 0).reg regST = 2 ^ 9 := by
  cases h
  decide

/-- Refutes O30: entering an interrupt writes ST in its own width, so of an ST with a bit 10 more than bit 7 is gone. -/
theorem not_coresComplete : ¬ Obligations.CoresComplete := by
  unfold Obligations.CoresComplete
  intro h
  obtain ⟨_, _, _, _, _, _, hentry, _⟩ := h
  obtain ⟨t, hexec, _, _, _, hst, _⟩ := hentry wideStatusCore 0 0x0010 (by decide) (by decide) (by decide) (by decide) (by decide)
  exact absurd ((interruptEntry_wideStatusCore hexec).symm.trans hst) (by decide)

end Sys2Proof.Machine

namespace Sys2Proof.Machine

/-! ### A ring whose slot lies in a hole of user memory (R349, R353). -/

/-- The link between regions 0 and 1 is ACTIVE, and an open HOST_CONSUMER ring based in the hole behind stack 0 has an entry to write. -/
def ringInHole : State :=
  let s := (State.reset.wf (endKey 1) Reg.BXE_STAT.LINK_STATE linkACTIVE).wf (farEnd (endKey 1)) Reg.BXE_STAT.LINK_STATE linkACTIVE
  { s with rings := [(32, { Ring.ofNum 32 with base := 2 ^ 35 - 2 ^ 30, lenLog2 := 4, consumer := true, st := .open0, entries := [[0x55]] })] }

theorem memPath_ringInHole : ringInHole.memPath 0 (2 ^ 35 - 2 ^ 30) = .clear := by
  decide


theorem growTo_ringInHole : (ringInHole.ring 32).growTo ((ringInHole.ring 32).prod + 1) = ringInHole.ring 32 := rfl

theorem slot_ringInHole : (ringInHole.ring 32).slot (ringInHole.ring 32).prod = 2 ^ 35 - 2 ^ 30 := rfl

theorem ringPath_ringInHole : ringInHole.ringPath (ringInHole.ring 32) (2 ^ 35 - 2 ^ 30) = .clear :=
  memPath_ringInHole

theorem mem_ringWrite_ringInHole : (ringInHole.ringWrite (ringInHole.ring 32) (2 ^ 35 - 2 ^ 30) [0x55]).mem = [] := rfl

theorem ringProduce_ringInHole {t : State} (h : exec (.ringProduce 32 true) ringInHole = .next t) : t.mem = [] := by
  change execRingProduce 32 true ringInHole = _ at h
  have hentries : (ringInHole.ring 32).entries = [[0x55]] := rfl
  simp only [execRingProduce, Fin.isValue, show ((32 : Fin 32768) : Nat) = 32 from rfl, hentries, growTo_ringInHole, slot_ringInHole,
    ringPath_ringInHole] at h
  have hopen : ¬((ringInHole.ring 32).st ≠ .open0 ∨ !(ringInHole.ring 32).consumer) := by decide
  have hroom : ¬(ringInHole.ring 32).len ≤ (ringInHole.ring 32).held := by decide
  have hclear : ¬MemPath.clear = MemPath.waits := by decide
  have hok : ¬((!true) = true ∨ MemPath.clear = MemPath.fenced) := by decide
  rw [if_neg hopen, if_neg hroom, if_neg hclear, if_neg hok] at h
  injection h with h
  rw [← h, (State.ringMessage_keeps _ _).mem rfl, (State.modRing_keeps _ _ _).mem rfl]
  exact mem_ringWrite_ringInHole

/-- Refutes O59: no byte is written at an address that is not mapped, and the slot of a ring may lie there. -/
theorem not_ringEntriesLand : ¬ Obligations.RingEntriesLand := by
  unfold Obligations.RingEntriesLand
  intro h
  obtain ⟨t, hexec, _, _, hbytes⟩ := h ringInHole 32 [0x55] [] rfl rfl rfl
    (show (ringInHole.ring 32).held < (ringInHole.ring 32).len by decide) rfl
    (by
      rw [show ((32 : Fin 32768) : Nat) = 32 from rfl, growTo_ringInHole, slot_ringInHole]
      exact ringPath_ringInHole)
  have hread : t.readByte (2 ^ 35 - 2 ^ 30) = 0 := by
    rw [State.readByte, ringProduce_ringInHole hexec]
    rfl
  have hbyte := hbytes (2 ^ 35 - 2 ^ 30)
  rw [hread, show ((32 : Fin 32768) : Nat) = 32 from rfl, growTo_ringInHole, slot_ringInHole, if_pos (by decide)] at hbyte
  exact absurd hbyte (by decide)

end Sys2Proof.Machine

namespace Sys2Proof.Machine

/-! ### A log entry lost to PERST_N (R591, R64). -/

/-- The host link is up, the FLT page asks the host for an interrupt when a log entry is lost, and its vector is masked. -/
def lostEntryState (l : List LogEntry) : State :=
  let s := State.reset.modPage keyFLT fun p =>
    { p with owner := .host, errEn := word (2 ^ errLOG_LOST), irqEn := word (2 ^ irqERR) }
  { s.setReg keyHIF Reg.HIF_LINK.WIDTH.off 0xFFFFFFFF with perst := false, log := l }

/-- An entry of the full log. -/
def someEntry : LogEntry :=
  { entry := 0, level := 0, code := 0, sub := 0, kind := 0, six := 0, source := 0, pageKey := 0, detail := 0 }

/-- What PERST_N resets before it takes the link down. -/
def clearedHost (l : List LogEntry) : State :=
  ({ lostEntryState l with perst := true }.wf keyHIF Reg.HIF_BAR2_SIZE 30).count keyHIF Reg.HIF_PERST_COUNT

/-- The link is down, and its loss is not yet logged. -/
def linkLoss (l : List LogEntry) : State :=
  ({ clearedHost l with pcieUp := none }.setReg keyHIF Reg.HIF_LINK.WIDTH.off 0).setErrFlag keyHIF 16

theorem ringsOpen_clearedHost (l : List LogEntry) : (clearedHost l).ringsOpen = false := by
  change (clearedHost []).ringsOpen = false
  decide

theorem op_clearedHost (l : List LogEntry) : ((clearedHost l).page keyPHN).op = none := by
  change ((clearedHost []).page keyPHN).op = none
  decide

theorem pcieLinkUp_clearedHost (l : List LogEntry) : (clearedHost l).pcieLinkUp = true := by
  change (clearedHost []).pcieLinkUp = true
  decide

theorem closeRings_clearedHost (l : List LogEntry) : (clearedHost l).closeRings = clearedHost l := by
  unfold State.closeRings State.closePhoin
  rw [if_neg (by simp [ringsOpen_clearedHost])]
  simp only [op_clearedHost]

theorem err_clearedHost (l : List LogEntry) :
    ¬wbit (({ clearedHost l with pcieUp := none }.setReg keyHIF Reg.HIF_LINK.WIDTH.off 0).page keyHIF).err 16 = true := by
  change ¬wbit (({ clearedHost [] with pcieUp := none }.setReg keyHIF Reg.HIF_LINK.WIDTH.off 0).page keyHIF).err 16 = true
  decide

theorem hostReset_lostEntryState (l : List LogEntry) :
    (lostEntryState l).hostReset = (linkLoss l).logPage keyHIF 0 0 0 1 ((linkLoss l).page keyHIF).err.toNat := by
  change (clearedHost l).closeRings.pcieDown = _
  rw [closeRings_clearedHost, State.pcieDown, if_pos (pcieLinkUp_clearedHost l)]
  unfold State.setErr
  simp only [if_neg (err_clearedHost l)]
  rfl

/-- From `s` to `t` pages change in their registers alone, and no message is held back. -/
def RegsOnly (t s : State) : Prop :=
  (∀ j, ∃ regs, t.page j = { s.page j with regs := regs }) ∧ t.msixPend = s.msixPend ∧ t.msixTable = s.msixTable

theorem RegsOnly.trans {t u s : State} (h1 : RegsOnly t u) (h2 : RegsOnly u s) : RegsOnly t s := by
  obtain ⟨hpage, hpend, htable⟩ := h1
  obtain ⟨hpage', hpend', htable'⟩ := h2
  refine ⟨fun j => ?_, hpend.trans hpend', htable.trans htable'⟩
  obtain ⟨regs, h⟩ := hpage j
  obtain ⟨regs', h'⟩ := hpage' j
  exact ⟨regs, by rw [h, h']⟩

theorem wf_regsOnly (s : State) (key : Nat) (f : RegField) (v : Nat) : RegsOnly (s.wf key f v) s := by
  refine ⟨fun j => ?_, rfl, rfl⟩
  by_cases hj : j = key
  · subst hj
    exact ⟨_, page_wf s j f v⟩
  · exact ⟨_, s.page_wf_other f v hj⟩

/-- An entry of level 0 is logged on the page's registers. -/
theorem logRaw_regsOnly (s : State) {e : LogEntry} (he : e.level = 0) : RegsOnly (s.logRaw e) s := by
  unfold State.logRaw
  simp only [he, if_neg (show ¬3 ≤ 0 by decide), if_neg (show ¬2 ≤ 0 by decide), if_neg (show ¬((0 : Nat) = 2 ∨ (0 : Nat) = 3) by decide)]
  split
  · refine (wf_regsOnly ..).trans ((wf_regsOnly ..).trans ((wf_regsOnly ..).trans ?_))
    exact ⟨fun j => ⟨_, rfl⟩, rfl, rfl⟩
  · refine (wf_regsOnly ..).trans ?_
    exact ⟨fun j => ⟨_, rfl⟩, rfl, rfl⟩

/-- The host link before its loss is flagged. -/
def linkDown (l : List LogEntry) : State :=
  { clearedHost l with pcieUp := none }.setReg keyHIF Reg.HIF_LINK.WIDTH.off 0

/-- No interrupt is enabled for the flag. -/
theorem linkLoss_eq (l : List LogEntry) :
    linkLoss l = (linkDown l).setPage keyHIF { (linkDown []).page keyHIF with err := word (2 ^ 16) } := by
  have hpage : (linkDown l).page keyHIF = (linkDown []).page keyHIF := rfl
  change (linkDown l).setErrFlag keyHIF 16 = _
  unfold State.setErrFlag
  simp only [hpage]
  rw [if_neg (by decide), show ((linkDown []).page keyHIF).err ||| word (2 ^ 16) = word (2 ^ 16) by decide]

/-- The FLT page has an interrupt for LOG_LOST enabled and no flag set. -/
theorem flt_linkLoss (l : List LogEntry) :
    (linkLoss l).page keyFLT = { State.reset.page keyFLT with owner := .host, errEn := word (2 ^ errLOG_LOST), irqEn := word (2 ^ irqERR) } := by
  rw [linkLoss_eq]
  rfl

/-- A lost entry is told on vector 0, and the message waits where the vector is masked. -/
theorem msixPend_log1_lost {s : State} {e : LogEntry} (he : e.level = 0) (hfull : 4096 ≤ s.log.length) (howner : (s.page keyFLT).owner = .host)
    (herr : (s.page keyFLT).err = 0) (herrEn : (s.page keyFLT).errEn = word (2 ^ errLOG_LOST)) (hirq : (s.page keyFLT).irq = 0)
    (hirqEn : (s.page keyFLT).irqEn = word (2 ^ irqERR)) (hmasked : s.msixMasked 0 = true) : (s.log1 e).msixPend = mput s.msixPend 0 true := by
  obtain ⟨hpage, hpend, htable⟩ := logRaw_regsOnly s he
  obtain ⟨regs, hflt⟩ := hpage keyFLT
  unfold State.log1
  have hlost : (decide (4096 ≤ s.log.length) && !wbit ((s.logRaw e).page keyFLT).err errLOG_LOST) = true := by
    rw [decide_eq_true hfull, hflt, herr]
    rfl
  simp only [if_pos hlost]
  rw [(logRaw_regsOnly _ rfl).2.1]
  have hen : wbit ((s.logRaw e).page keyFLT).errEn errLOG_LOST = true := by
    rw [hflt, herrEn]
    decide
  unfold State.setErrFlag
  simp only [if_pos hen]
  unfold State.irqBit State.raiseIrq
  rw [if_pos (by simp [hflt, hirq, hirqEn]; decide)]
  unfold State.pageMessage
  rw [if_pos (by simp [hflt, howner])]
  have hvector (u : State) : u.vectorOf keyFLT = some 0 := rfl
  simp only [hvector]
  unfold State.sendMsix
  rw [if_pos (by simpa [State.msixMasked, State.msixWord, htable] using hmasked)]
  simp [hpend]

/-- PERST_N with a full log leaves a message to send. -/
theorem perstNAssert_lostEntryState {l : List LogEntry} (hl : 4096 ≤ l.length) {t : State}
    (h : exec .perstNAssert (lostEntryState l) = .next t) : t.msixPend = [(0, true)] := by
  change Host.Outcome.next (lostEntryState l).hostReset = _ at h
  injection h with h
  have hflt := flt_linkLoss l
  rw [← h, hostReset_lostEntryState]
  have hfull : 4096 ≤ (linkLoss l).log.length := by
    rw [linkLoss, log_setErrFlag]
    exact hl
  have hmasked : (linkLoss l).msixMasked 0 = true := by
    rw [linkLoss_eq]
    change State.reset.msixMasked 0 = true
    decide
  have hpend : (linkLoss l).msixPend = [] := by
    rw [linkLoss_eq]
    rfl
  unfold State.logPage
  rw [msixPend_log1_lost rfl hfull (by rw [hflt]) (by rw [hflt]; rfl) (by rw [hflt]) (by rw [hflt]; rfl) (by rw [hflt]) hmasked, hpend]
  rfl

/-- Refutes O28: PERST_N takes the host link down, which is logged, and in a full log the message of the lost entry is then pending. -/
theorem not_hostLinksComplete : ¬ Obligations.HostLinksComplete := by
  unfold Obligations.HostLinksComplete
  intro h
  obtain ⟨_, _, _, _, hperst, _⟩ := h
  obtain ⟨t, hexec, _, _, _, hpend, _⟩ := hperst (lostEntryState (List.replicate 4096 someEntry)) rfl
  exact absurd ((perstNAssert_lostEntryState List.length_replicate.ge hexec).symm.trans hpend) (by decide)

end Sys2Proof.Machine

namespace Sys2Proof.Machine

/-! ### Fields that lie apart, and folds that leave something alone. -/

/-- What each step of a fold keeps, the fold keeps. -/
theorem foldl_kept {α β : Type} {g : State → β} {f : State → α → State} (h : ∀ s x, g (f s x) = g s) (xs : List α) (s : State) :
    g (xs.foldl f s) = g s := by
  induction xs generalizing s with
  | nil => rfl
  | cons x xs ih => exact (ih (f s x)).trans (h s x)

/-- A field of another page, of another register, or above or below the one given. -/
abbrev Apart (key : Nat) (f : RegField) (j : Nat) (g : RegField) : Prop :=
  key ≠ j ∨ f.off ≠ g.off ∨ (f.hi < 32 ∧ f.lo ≤ f.hi ∧ g.lo ≤ g.hi ∧ (g.hi < f.lo ∨ f.hi < g.lo))


/-- A write of a field leaves those apart from it. -/
theorem rf_wf_apart {key : Nat} {f : RegField} {j : Nat} {g : RegField} (h : Apart key f j g) (s : State) (v : Nat) :
    (s.wf key f v).rf j g = s.rf j g := by
  by_cases hkey : key = j
  · subst hkey
    by_cases hoff : f.off = g.off
    · obtain h | h | ⟨hh, hl, hg, h | h⟩ := h
      · exact absurd rfl h
      · exact absurd hoff h
      · exact rf_wf_below s key v hoff.symm hh hl hg h
      · exact rf_wf_above s key v hoff.symm hh hl h
    · unfold State.rf
      rw [reg_wf_other s key f v (Ne.symm hoff)]
  · exact rf_congr (s.page_wf_other f v (Ne.symm hkey)) g

theorem rf_wb_apart {key : Nat} {f : RegField} {j : Nat} {g : RegField} (h : Apart key f j g) (s : State) (b : Bool) :
    (s.wb key f b).rf j g = s.rf j g := rf_wf_apart h s _

theorem rb_wf_apart {key : Nat} {f : RegField} {j : Nat} {g : RegField} (h : Apart key f j g) (s : State) (v : Nat) :
    (s.wf key f v).rb j g = s.rb j g := by
  unfold State.rb
  rw [rf_wf_apart h]

theorem rb_wb_apart {key : Nat} {f : RegField} {j : Nat} {g : RegField} (h : Apart key f j g) (s : State) (b : Bool) :
    (s.wb key f b).rb j g = s.rb j g := rb_wf_apart h s _

/-- A bit reads back as it was written. -/
theorem rb_wb_same (s : State) (key : Nat) {f : RegField} (b : Bool) (hh : f.hi < 32) (hl : f.lo ≤ f.hi) : (s.wb key f b).rb key f = b := by
  have hlt : boolNat b < 2 ^ (f.hi + 1 - f.lo) := by
    have hb : boolNat b < 2 := by cases b <;> decide
    exact Nat.lt_of_lt_of_le hb (Nat.le_self_pow (by omega) 2)
  unfold State.rb State.wb
  rw [rf_wf_same s key _ hh hl, Nat.mod_eq_of_lt hlt]
  cases b <;> rfl

/-- A register of a page that is written elsewhere. -/
theorem rf_setReg_apart (s : State) {key off j : Nat} {g : RegField} (w : Word) (h : key ≠ j ∨ off ≠ g.off) :
    (s.setReg key off w).rf j g = s.rf j g := by
  by_cases hkey : key = j
  · subst hkey
    have hoff : g.off ≠ off := by
      obtain h | h := h
      · exact absurd rfl h
      · exact h.symm
    unfold State.rf
    rw [reg_setReg_other s key w hoff]
  · exact rf_congr (State.page_modPage_other _ _ (Ne.symm hkey)) g

/-! ### What operations and interrupts leave of registers and the log. -/

theorem regs_irqBit (s : State) (key i j : Nat) : ((s.irqBit key i).page j).regs = (s.page j).regs := by
  by_cases h : j = key
  · subst h
    rw [page_irqBit_same]
  · rw [page_irqBit_other _ _ h]

theorem regs_endOp (s : State) (key phase code sub j : Nat) : ((s.endOp key phase code sub).page j).regs = (s.page j).regs := by
  unfold State.endOp
  split
  · rfl
  · rw [regs_irqBit]
    by_cases h : j = key
    · subst h
      rw [State.page_modPage]
    · rw [State.page_modPage_other _ _ h]

theorem rf_irqBit (s : State) (key i j : Nat) (g : RegField) : (s.irqBit key i).rf j g = s.rf j g := rf_of_regs (regs_irqBit ..) g

theorem rf_endOp (s : State) (key phase code sub j : Nat) (g : RegField) : (s.endOp key phase code sub).rf j g = s.rf j g :=
  rf_of_regs (regs_endOp ..) g

theorem rb_endOp (s : State) (key phase code sub j : Nat) (g : RegField) : (s.endOp key phase code sub).rb j g = s.rb j g := by
  unfold State.rb
  rw [rf_endOp]

theorem log_endOp (s : State) (key phase code sub : Nat) : (s.endOp key phase code sub).log = s.log := by
  unfold State.endOp
  split
  · rfl
  · exact log_irqBit _ _ _

/-- What a change of one page leaves alone, on every page. -/
theorem get_modPage {β : Type} (g : Page → β) {f : Page → Page} (h : ∀ p, g (f p) = g p) (s : State) (key j : Nat) :
    g ((s.modPage key f).page j) = g (s.page j) := by
  by_cases hj : j = key
  · subst hj
    rw [State.page_modPage, h]
  · rw [State.page_modPage_other _ _ hj]

/-- A page but for what commands change of it as they are accepted, have results or end, and for PG_IRQ. -/
def Page.blank (p : Page) : Page :=
  { p with op := none, waiting := [], cmdStat := 0, irq := 0, res := [], resSeq := 0, resReady := false, progress := 0 }

/-- From `s` to `t` pages change only in what commands change as they are accepted, have results or end, and in PG_IRQ. -/
def Ended (t s : State) : Prop := ∀ j, (t.page j).blank = (s.page j).blank

theorem Ended.refl (s : State) : Ended s s := fun _ => rfl

theorem Ended.trans {t u s : State} (h1 : Ended t u) (h2 : Ended u s) : Ended t s := fun j => (h1 j).trans (h2 j)

theorem Ended.ite {c : Prop} [Decidable c] {a b s : State} (ha : Ended a s) (hb : Ended b s) : Ended (if c then a else b) s := by
  split
  · exact ha
  · exact hb

/-- What no part of an ending command holds reads as before. -/
theorem Ended.get {t s : State} (h : Ended t s) (j : Nat) {α : Type} (f : Page → α) : f (t.page j).blank = f (s.page j).blank :=
  congrArg f (h j)

theorem modPage_ended (s : State) (key : Nat) {f : Page → Page} (h : ∀ p, (f p).blank = p.blank) :
    Ended (s.modPage key f) s := get_modPage Page.blank h s key

theorem irqBit_ended (s : State) (key i : Nat) : Ended (s.irqBit key i) s := by
  intro j
  by_cases hj : j = key
  · subst hj
    rw [page_irqBit_same]
    rfl
  · rw [page_irqBit_other s i hj]

theorem accept_ended (s : State) (key : Nat) (op : Op) : Ended (s.accept key op) s := by
  unfold State.accept
  exact modPage_ended _ _ fun _ => by dsimp only [Page.blank]

theorem endOp_ended (s : State) (key phase code sub : Nat) : Ended (s.endOp key phase code sub) s := by
  unfold State.endOp
  split
  · exact .refl s
  · exact (irqBit_ended _ _ _).trans (modPage_ended _ _ fun _ => by dsimp only [Page.blank])

theorem doneOp_ended (s : State) (key : Nat) : Ended (s.doneOp key) s := endOp_ended s key _ _ _

theorem writeResult_ended (s : State) (key : Nat) (r : List Word) : Ended (s.writeResult key r) s := by
  unfold State.writeResult
  exact (irqBit_ended _ _ _).trans (modPage_ended _ _ fun _ => by dsimp only [Page.blank])

theorem doneWith_ended (s : State) (key : Nat) (r : List Word) : Ended (s.doneWith key r) s := by
  unfold State.doneWith
  split
  · exact .refl s
  · exact .ite (modPage_ended _ _ fun _ => by dsimp only [Page.blank]) ((doneOp_ended _ _).trans (writeResult_ended _ _ _))

theorem endCommit_ended (s : State) (key due : Nat) : Ended (s.endCommit key due) s := by
  unfold State.endCommit
  split
  · exact .ite (doneOp_ended _ _) (doneWith_ended _ _ _)
  · exact .refl s

theorem endCommit_quiet (s : State) (key due : Nat) : Quiet (s.endCommit key due) s := by
  unfold State.endCommit
  split
  · exact .ite (doneOp_quiet _ _) (doneWith_quiet _ _ _)
  · exact .refl s

end Sys2Proof.Machine

namespace Sys2Proof.Machine

/-! ### The management interface (R578-R580, R602). -/

/-- Outside a restart of the management cores a message is answered in its step. -/
theorem exec_mctpMessage_of_awake {s : State} (hphase : s.phase ≠ 0) (hawake : s.power.mgmtUntil ≤ s.six) (m : MctpMsg) :
    exec (.mctpMessage m) s = .next (s.answerMsg m) := by
  change execMctpMessage m s = _
  unfold execMctpMessage
  rw [if_neg hphase, if_neg (Nat.not_lt.2 hawake)]

/-- A reading replaces the one before. -/
theorem sensors_refreshSensor (s : State) {id : Nat} (value : Int) (h0 : id ≠ 0) (h15 : id ≤ 15) :
    (s.refreshSensor (id, value)).power.sensors = mput s.power.sensors id value := by
  unfold State.refreshSensor
  rw [if_neg (by omega)]
  dsimp only
  split <;> rfl

/-- Settles O36: each command is one change of the supply's and management cores' state, or one answer. -/
theorem managementInterfaceTakesEffect : Obligations.ManagementInterfaceTakesEffect := by
  unfold Obligations.ManagementInterfaceTakesEffect
  refine ⟨fun s e hphase hawake => ⟨_, exec_mctpMessage_of_awake hphase hawake _, rfl, rfl⟩,
    fun s hphase hawake => ⟨_, exec_mctpMessage_of_awake hphase hawake _, rfl⟩, fun s m hphase hdown => ?_, fun s id value hphase hawake hid => ?_,
    fun s => ⟨_, rfl, rfl⟩, fun s char => ⟨_, rfl, rfl⟩⟩
  · refine ⟨s.modPower fun p => { p with deferred := p.deferred ++ [m] }, ?_, rfl, rfl⟩
    change execMctpMessage m s = _
    unfold execMctpMessage
    rw [if_neg hphase, if_pos hdown]
  · have hid0 : id.val ≠ 0 := fun h => hid (Fin.ext h)
    obtain ⟨t, hexec, ht⟩ : ∃ t, exec (.sensorRefresh [(id, value)]) s = .next t ∧
        t.power.sensors = (s.refreshSensor (id.val, value)).power.sensors := by
      change ∃ t, execSensorRefresh [(id, value)] s = _ ∧ _
      unfold execSensorRefresh
      rw [if_neg (by omega)]
      exact ⟨_, rfl, rfl⟩
    refine ⟨t, hexec, ?_⟩
    rw [State.sensor, if_neg (by omega), ht, sensors_refreshSensor s value hid0 (by omega), mget_mput_same]

end Sys2Proof.Machine

namespace Sys2Proof.Machine

/-! ### The rotation of the spare converter (R119-R127): what its operations leave of the rotation's own state. -/

@[simp] theorem rot_addSkew (s : State) (c : Nat) (d : Int) : (s.addSkew c d).rot = s.rot :=
  foldl_kept (g := (·.rot)) (fun _ _ => State.wf_rot ..) _ s

@[simp] theorem rot_setAdcField (s : State) (c : Nat) (f : RegField) (v : Nat) : (s.setAdcField c f v).rot = s.rot := rfl

@[simp] theorem rot_spareEnter (s : State) (n : Nat) : (s.spareEnter n).rot = s.rot := rfl

@[simp] theorem rot_refreshSrc (s : State) : s.refreshSrc.rot = s.rot :=
  foldl_kept (g := (·.rot)) (fun _ _ => State.wf_rot ..) _ s

theorem rot_afeSet (s : State) (c input zone atten six : Nat) (selChanged : Bool) : (s.afeSet c input zone atten six selChanged).rot = s.rot := by
  unfold State.afeSet
  dsimp only
  split <;> rfl

theorem rot_spareFront (s : State) (input zone atten sel six : Nat) : (s.spareFront input zone atten sel six).rot = s.rot :=
  rot_afeSet ..

theorem rot_dropEst1 (s : State) : s.dropEst1.rot = s.rot := by
  refine foldl_kept (g := (·.rot)) (fun s p => ?_) _ s
  split <;> rfl

/-- The queue waits for the spare to be released. -/
theorem queue_spareIdle (s : State) (result : Nat) : (s.spareIdle result).rot.queue = s.rot.queue := by
  unfold State.spareIdle
  dsimp only
  rw [rot_spareEnter]
  have hfront : ∀ u : State, u.rot.queue = s.rot.queue → (if result = 0 then u
      else u.wf (keyADC 4) Reg.ADC_SPARE_STAT.LAST_RESULT result).rot.queue = s.rot.queue := by
    intro u hu
    split
    · exact hu
    · exact hu
  refine hfront _ ?_
  simp only [State.wf_rot, State.modRot, rot_addSkew, rot_spareFront, rot_dropEst1]

theorem rot_notify (s : State) (task cause six detail0 : Nat) : (s.notify task cause six detail0).rot = s.rot := by
  unfold State.notify
  dsimp only
  split
  · rfl
  unfold State.putNotice
  split
  · rfl
  split
  · exact (sendMsix_quiet _ 1).get (·.rot)
  · rfl

/-- The rotation goes on as it was when its input becomes STALE or not. -/
theorem rot_setStale (s : State) (n : Nat) (b : Bool) : (s.setStale n b).rot = s.rot := by
  unfold State.setStale
  split
  · rfl
  exact foldl_kept (g := (·.rot)) (fun s id => rot_notify s id _ _ _) _ _

theorem spareState_spareEnter (s : State) (n : Nat) : (s.spareEnter n).spareState = n % 8 :=
  rf_wf_same s _ n (by decide) (by decide)

@[simp] theorem spareState_modRot (s : State) (f : Rotation → Rotation) : (s.modRot f).spareState = s.spareState := rfl

/-- The spare that is released is IDLE, and no H is chosen. -/
theorem spareIdle_idle (s : State) (result : Nat) : (s.spareIdle result).rot.h = none ∧ (s.spareIdle result).spareState = spareIDLE := by
  refine ⟨?_, spareState_spareEnter _ _⟩
  unfold State.spareIdle
  simp only [rot_spareEnter]
  split <;> rfl

/-- An accepted rotation aligns, uncorrected, and no H is chosen. -/
theorem rotate_available {s : State} (h : s.spareAvailable = true) (main : Nat) :
    (s.rotate main).spareState = spareALIGNING ∧ (s.rotate main).rot.main = main ∧ (s.rotate main).rot.corrected = false ∧
      (s.rotate main).rot.h = none := by
  unfold State.rotate
  rw [if_pos h]
  exact ⟨rf_wf_same _ _ _ (by decide) (by decide), rfl, rfl, rfl⟩

/-- A converter that has to wait for the spare is queued. -/
theorem rotate_queued {s : State} {main : Nat} (h : s.spareAvailable = false) (hq : s.rot.queue.contains main = false) :
    (s.rotate main).rot.queue = s.rot.queue ++ [main] := by
  unfold State.rotate
  rw [if_neg (by simp [h]), if_neg (by simpa using hq)]
  rfl

/-- A rotation chooses no H as it begins or is queued. -/
theorem h_rotate {s : State} (hh : s.rot.h = none) (main : Nat) : (s.rotate main).rot.h = none := by
  unfold State.rotate
  split
  · rfl
  split
  · exact hh
  · exact hh

/-- The end of a rotation, and the start of one that waited, leave no H chosen. -/
theorem h_spareDone (s : State) (result : Nat) : (s.spareDone result).rot.h = none := by
  have hidle := (spareIdle_idle s result).1
  unfold State.spareDone
  generalize s.spareIdle result = u at hidle
  dsimp only
  split
  · split
    · have htail (q : List Nat) : (u.modRot fun r => { r with queue := q }).rot.h = none := hidle
      exact h_rotate (htail _) _
    · exact hidle
  · exact hidle

/-- Handover leaves no H chosen. -/
theorem h_handover (s : State) : s.handover.rot.h = none := by
  unfold State.handover
  split
  · assumption
  dsimp only
  split
  · exact h_spareDone _ _
  split
  · rfl
  · rw [rot_setStale]
    rfl

/-- The failure of a survey is noted in the survey alone. -/
theorem rot_surveyFails (s : State) (code sub : Nat) : (s.surveyFails code sub).rot = s.rot := by
  unfold State.surveyFails
  split
  · split <;> rfl
  · rfl

theorem rf_surveyFails (s : State) (code sub key : Nat) (f : RegField) : (s.surveyFails code sub).rf key f = s.rf key f := by
  unfold State.surveyFails
  split
  · split <;> rfl
  · rfl

theorem rot_restoreTrims (s : State) (c : Nat) : (s.restoreTrims c).rot = s.rot := by
  unfold State.restoreTrims
  split <;> rfl

theorem spareState_setErr (s : State) (bit : Nat) : (s.setErr (keyADC 4) bit).spareState = s.spareState := by
  unfold State.spareState State.rf
  rw [reg_setErr s (by decide)]

/-- With nothing queued the end of a rotation leaves the spare IDLE. -/
theorem spareDone_of_no_queue {s : State} (hq : s.rot.queue = []) (result : Nat) : s.spareDone result = s.spareIdle result := by
  have hqueue : (s.spareIdle result).rot.queue = [] := (queue_spareIdle s result).trans hq
  unfold State.spareDone
  dsimp only
  rw [hqueue]

theorem tone_not_needed {s : State} {frames : Nat} (h : s.needsTone frames = false) : ¬s.needsTone frames = true := by simp [h]

/-- Settles O12: each step is one change of the rotation's state, and what follows it leaves that alone. -/
theorem spareRotationCompletes : Obligations.SpareRotationCompletes := by
  unfold Obligations.SpareRotationCompletes
  refine ⟨fun s conv hguest hspare => ?_, fun s conv hguest hspare hq => ?_, fun s frames delayFs gainMdb corrPpm hst htone hcorr => ?_,
    fun s frames delayFs gainMdb corrPpm hst htone hcorr hpass => ?_, fun s hst hq => ?_,
    fun s frames delayFs gainMdb corrPpm hst htone hwait hh hpass hmig => ?_,
    fun s frames delayFs gainMdb corrPpm hst htone hwait hh hpass hretried => ?_, fun s h hh => ⟨_, rfl, rfl, h_handover s⟩⟩
  · obtain ⟨hstate, hmain, hcorr, _⟩ := rotate_available hspare conv
    refine ⟨s.rotate conv, ?_, hstate, hmain, hcorr⟩
    exact congrArg Host.Outcome.next (if_neg (by simp [hguest]))
  · refine ⟨s.rotate conv, ?_, rotate_queued hspare hq⟩
    exact congrArg Host.Outcome.next (if_neg (by simp [hguest]))
  · change ∃ t, execAlignCorrelationDone delayFs gainMdb _ s = _ ∧ _
    unfold execAlignCorrelationDone
    rw [if_neg (by simp [hst]), if_neg (tone_not_needed htone), if_neg (by simp [hcorr])]
    refine ⟨_, rfl, rfl, ?_⟩
    simp only [State.modRot, rot_addSkew]
    split <;> rfl
  · change ∃ t, execAlignCorrelationDone delayFs gainMdb _ s = _ ∧ _
    unfold execAlignCorrelationDone
    rw [if_neg (by simp [hst]), if_neg (tone_not_needed htone), if_pos (by simp [hcorr, hpass])]
    refine ⟨_, rfl, ?_⟩
    unfold State.chooseH
    split <;> simp only [spareState_modRot, spareState_spareEnter] <;> rfl
  · change ∃ t, execAlignTimeout s = _ ∧ _
    unfold execAlignTimeout
    rw [if_pos hst]
    refine ⟨_, rfl, ?_⟩
    rw [State.spareState, rf_surveyFails, rot_surveyFails]
    rw [(setErr_quiet _ _ _).get (·.rot)]
    exact ⟨(spareState_setErr _ _).trans (by rw [spareDone_of_no_queue (s := s.advanceTo _) hq]; exact (spareIdle_idle _ _).2), h_spareDone _ _⟩
  · change ∃ t, execHandbackCheck delayFs gainMdb _ s = _ ∧ _
    unfold execHandbackCheck
    rw [if_neg (by simp [hst, hh, hwait]), if_neg (tone_not_needed htone), if_pos hpass]
    refine ⟨_, rfl, ?_⟩
    unfold State.chooseH
    rw [if_neg (by simp [hmig])]
    rfl
  · change ∃ t, execHandbackCheck delayFs gainMdb _ s = _ ∧ _
    unfold execHandbackCheck
    rw [if_neg (by simp [hst, hh, hwait]), if_neg (tone_not_needed htone), if_neg (by simp [hpass]), if_neg (by simp [hretried])]
    refine ⟨_, rfl, ?_⟩
    rw [rot_surveyFails]
    refine ⟨rfl, ?_⟩
    exact (congrArg (·.h) (rot_restoreTrims s s.rot.main)).trans hh

end Sys2Proof.Machine

namespace Sys2Proof.Machine

/-! ### Board and module resets (R565, R566, R585). -/

/-- A cold start leaves the fields that flash does not hold at their reset values. -/
theorem rf_coldBase {j : Nat} {g : RegField} (s : State) (h : ∀ x ∈ flashFields, Apart x.1 x.2 j g) :
    s.coldBase.rf j g = wget (regReset j g.off) g.hi g.lo := by
  have hfold : ∀ (xs : List (Nat × RegField)) (t : State), (∀ x ∈ xs, Apart x.1 x.2 j g) →
      (t.each xs fun t x => t.wf x.1 x.2 (s.rf x.1 x.2)).rf j g = t.rf j g := by
    intro xs
    induction xs with
    | nil => exact fun _ _ => rfl
    | cons x xs ih =>
      intro t hxs
      exact (ih _ fun y hy => hxs y (List.mem_cons_of_mem _ hy)).trans (rf_wf_apart (hxs x List.mem_cons_self) t _)
  exact hfold _ _ h

/-- The fields that flash holds are registers. -/
theorem flashFields_kept (s t : State) :
    (t.each flashFields fun t x => t.wf x.1 x.2 (s.rf x.1 x.2)).keyStore = t.keyStore ∧
      (t.each flashFields fun t x => t.wf x.1 x.2 (s.rf x.1 x.2)).flashLog = t.flashLog ∧
      (t.each flashFields fun t x => t.wf x.1 x.2 (s.rf x.1 x.2)).power = t.power := by
  generalize flashFields = xs
  exact ⟨foldl_kept (g := (·.keyStore)) (fun _ _ => State.wf_keyStore ..) _ _, foldl_kept (g := (·.flashLog)) (fun _ _ => State.wf_flashLog ..) _ _,
    foldl_kept (g := (·.power)) (fun _ _ => State.wf_power ..) _ _⟩

/-- A cold start begins from reset, with what it keeps, and then loads what flash holds. -/
theorem coldBase_loads (s : State) : ∃ t : State, s.coldBase = (t.each flashFields fun t x => t.wf x.1 x.2 (s.rf x.1 x.2)) ∧
    t.keyStore = s.keyStore ∧ t.flashLog = s.flashLog ∧ t.power.porst = s.power.porst :=
  ⟨_, rfl, rfl, rfl, rfl⟩

/-- What a cold start keeps apart from registers. -/
theorem coldBase_kept (s : State) :
    s.coldBase.keyStore = s.keyStore ∧ s.coldBase.flashLog = s.flashLog ∧ s.coldBase.power.porst = s.power.porst := by
  obtain ⟨t, hload, hkeys, hflash, hporst⟩ := coldBase_loads s
  obtain ⟨hk, hf, hp⟩ := flashFields_kept s t
  rw [hload]
  exact ⟨hk.trans hkeys, hf.trans hflash, (congrArg (·.porst) hp).trans hporst⟩

theorem coldStart_kept (s : State) (last : Nat) :
    (s.coldStart last).keyStore = s.keyStore ∧ (s.coldStart last).flashLog = s.flashLog ∧ (s.coldStart last).power.porst = s.power.porst := by
  obtain ⟨hkeys, hflash, hporst⟩ := coldBase_kept s
  have hstart (t : State) : ((t.wf keyMOD Reg.MOD_STAT.LAST_RESET last).modPower fun p => { p with failed := false, thermal := false }).keyStore =
      t.keyStore ∧ ((t.wf keyMOD Reg.MOD_STAT.LAST_RESET last).modPower fun p => { p with failed := false, thermal := false }).flashLog =
      t.flashLog ∧ ((t.wf keyMOD Reg.MOD_STAT.LAST_RESET last).modPower fun p => { p with failed := false, thermal := false }).power.porst =
      t.power.porst := ⟨rfl, rfl, rfl⟩
  obtain ⟨hk, hf, hp⟩ := hstart s.coldBase
  exact ⟨hk.trans hkeys, hf.trans hflash, hp.trans hporst⟩

theorem rf_modPower (s : State) (f : Power → Power) (j : Nat) (g : RegField) : (s.modPower f).rf j g = s.rf j g := rfl

/-- A cold start is at step 1, with the reset's cause. -/
theorem coldStart_step (s : State) (last : Nat) :
    (s.coldStart last).phase = 1 ∧ (s.coldStart last).rf keyMOD Reg.MOD_STAT.LAST_RESET = last % 16 := by
  unfold State.coldStart State.phase
  dsimp only
  rw [rf_modPower, rf_modPower, rf_wf_apart (by decide), rf_coldBase s (by decide)]
  exact ⟨by decide, rf_wf_same _ _ _ (by decide) (by decide)⟩

/-- A board reset starts the module at step 1. -/
theorem boardReset_effect {s : State} (hphase : s.phase ≠ 0) :
    ∃ t, exec .boardReset s = .next t ∧ t.phase = 1 ∧ t.rf keyMOD Reg.MOD_STAT.LAST_RESET = 1 ∧ t.power.porst = true ∧
      t.keyStore = s.keyStore ∧ t.flashLog = s.flashLog ∧ t.rb keySEC Reg.SEC_STAT.DEBUG_OPEN = s.rb keySEC Reg.SEC_STAT.DEBUG_OPEN := by
  let u := (s.modPower fun p => { p with porst := true }).setPhase 1
  have hexec : exec .boardReset s = .next ((u.coldStart 1).wb keySEC Reg.SEC_STAT.DEBUG_OPEN (s.rb keySEC Reg.SEC_STAT.DEBUG_OPEN)) := by
    change execBoardReset s = _
    unfold execBoardReset
    exact if_neg fun h => hphase h.1
  obtain ⟨hkeys, hflash, hporst⟩ := coldStart_kept u 1
  obtain ⟨hstep, hlast⟩ := coldStart_step u 1
  refine ⟨_, hexec, ?_, ?_, (congrArg (·.porst) (State.wb_power ..)).trans hporst, (State.wb_keyStore ..).trans hkeys,
    (State.wb_flashLog ..).trans hflash, rb_wb_same _ _ _ (by decide) (by decide)⟩
  · exact (rf_wb_apart (by decide) _ _).trans hstep
  · exact (rf_wb_apart (by decide) _ _).trans hlast

/-- The reset's operations end, and nothing but pages and messages changes with them. -/
theorem cancelAll_kept (s : State) (keys : List Nat) :
    Quiet (s.each keys State.cancelOp) s ∧ (s.each keys State.cancelOp).log = s.log := by
  refine ⟨?_, foldl_kept (g := (·.log)) (fun s key => log_endOp s key _ _ _) keys s⟩
  unfold State.each
  induction keys generalizing s with
  | nil => exact .refl s
  | cons key keys ih => exact (ih (s.cancelOp key)).trans (cancelOp_quiet s key)

/-- A module reset keeps SIX, the log, the key store and the transport key, and empties user memory (R566). -/
theorem moduleReset_kept (s : State) : s.moduleReset.six = s.six ∧ s.moduleReset.log = s.log ∧ s.moduleReset.keyStore = s.keyStore ∧
    s.moduleReset.power.kt = s.power.kt ∧ s.moduleReset.mem = [] := by
  unfold State.moduleReset
  extract_lets +onlyGivenNames v z1 z2 z3 t1
  have h1 : t1.six = s.six ∧ t1.log = s.log ∧ t1.keyStore = s.keyStore ∧ t1.power.kt = s.power.kt ∧ t1.mem = [] := ⟨rfl, rfl, rfl, rfl, rfl⟩
  clear_value t1
  extract_lets +onlyGivenNames t2 t3 t4 t5
  obtain ⟨hquiet, hlog⟩ := cancelAll_kept (t1.syncOff.modTb fun b => { b with setSecs := none }) [keyTBS, keySEC, keyFLT]
  have h2 : t2.six = s.six ∧ t2.log = s.log ∧ t2.keyStore = s.keyStore ∧ t2.power.kt = s.power.kt ∧ t2.mem = [] := by
    obtain ⟨hsix, hl, hkeys, hkt, hmem⟩ := h1
    exact ⟨(hquiet.get (·.six)).trans hsix, hlog.trans hl, (hquiet.get (·.keyStore)).trans hkeys, (hquiet.get (·.power.kt)).trans hkt,
      (hquiet.get (·.mem)).trans hmem⟩
  clear_value t2
  exact h2

/-- MOD_STAT as a module reset leaves it. -/
theorem wget_resetStat (w : Word) :
    wget (wset (wset (wset w 31 28 2) 7 4 3) 3 0 0) 7 4 = 3 ∧ wget (wset (wset (wset w 31 28 2) 7 4 3) 3 0 0) 0 0 = 0 ∧
      wget (wset (wset (wset w 31 28 2) 7 4 3) 3 0 0) 31 28 = 2 := by
  refine ⟨?_, ?_, ?_⟩
  · rw [wget_wset_above _ _ (by decide) (by decide) (by decide), wget_wset _ _ (by decide) (by decide)]
    rfl
  · have hlow := wget_wset (wset (wset w 31 28 2) 7 4 3) 0 (hi := 3) (lo := 0) (by decide) (by decide)
    unfold wget bitsOf at hlow ⊢
    omega
  · rw [wget_wset_above _ _ (by decide) (by decide) (by decide), wget_wset_above _ _ (by decide) (by decide) (by decide),
      wget_wset _ _ (by decide) (by decide)]
    rfl

/-- A module reset goes back to step 3. -/
theorem moduleReset_step (s : State) : s.moduleReset.phase = 3 ∧ s.moduleReset.ready = false ∧
    s.moduleReset.rf keyMOD Reg.MOD_STAT.LAST_RESET = 2 := by
  unfold State.moduleReset
  extract_lets +onlyGivenNames v z1 z2 z3 t1
  clear_value t1
  extract_lets +onlyGivenNames t2 t3 t4 t5
  clear_value t2
  have hrest (g : RegField) : ((((t4.wf keyFLT Reg.FLT_PLANES.PLANE_OUT 0).wf keyPWR Reg.PWR_TRIPPED.MAP 0).wf keyPWR
      Reg.PWR_DOMAINS.MAP 0).wf keySEC Reg.SEC_STAT.UPDATE 0).rf keyMOD g = t3.rf keyMOD g := by
    rw [rf_wf_apart (.inl (by decide)), rf_wf_apart (.inl (by decide)), rf_wf_apart (.inl (by decide)), rf_wf_apart (.inl (by decide)),
      rf_setReg_apart _ _ (.inl (by decide))]
  obtain ⟨hphase, hready, hlast⟩ := wget_resetStat (t2.reg keyMOD Reg.MOD_STAT.READY.off)
  have hstat (hi lo : Nat) : t3.rf keyMOD ⟨Reg.MOD_STAT.READY.off, hi, lo⟩ =
      wget (wset (wset (wset (t2.reg keyMOD Reg.MOD_STAT.READY.off) 31 28 2) 7 4 3) 3 0 0) hi lo := by
    unfold State.rf
    rw [State.reg_setReg]
  refine ⟨(hrest _).trans ((hstat 7 4).trans hphase), ?_, (hrest _).trans ((hstat 31 28).trans hlast)⟩
  exact decide_eq_false (not_not.2 ((hrest _).trans ((hstat 0 0).trans hready)))

/-- Settles O33: a cold start or a module reset sets the step and the cause, and what either keeps is named in its definition. -/
theorem resetsKeepTheirState : Obligations.ResetsKeepTheirState := by
  unfold Obligations.ResetsKeepTheirState
  refine ⟨fun s hphase => boardReset_effect hphase, fun s => ⟨_, rfl, rfl, rfl⟩, fun s who tag ht hmagic hphase hpf => ?_⟩
  refine ⟨_, exec_moduleReset_of_takes ht tag hmagic hphase hpf, ?_⟩
  generalize hu : s.accept keyMOD (s.latch keyMOD 0x0100 tag) = u
  have hkept : u.six = s.six ∧ u.log = s.log ∧ u.keyStore = s.keyStore ∧ u.power.kt = s.power.kt := by
    subst hu
    exact ⟨rfl, rfl, rfl, rfl⟩
  obtain ⟨hsix', hlog', hkeys', hkt'⟩ := hkept
  obtain ⟨hsix, hlog, hkeys, hkt, hmem⟩ := moduleReset_kept u
  obtain ⟨hstep, hready, hlast⟩ := moduleReset_step u
  have hroutes := routes_moduleReset u
  generalize u.moduleReset = v at *
  have hquiet := doneOp_quiet v keyMOD
  refine ⟨(rf_endOp ..).trans hstep, ?_, (rf_endOp ..).trans hlast, (hquiet.get (·.six)).trans (hsix.trans hsix'),
    (log_endOp ..).trans (hlog.trans hlog'), (hquiet.get (·.keyStore)).trans (hkeys.trans hkeys'),
    (hquiet.get (·.power.kt)).trans (hkt.trans hkt'), (hquiet.get (·.mem)).trans hmem, (hquiet.get (·.routes)).trans hroutes⟩
  exact (rb_endOp ..).trans hready

end Sys2Proof.Machine

namespace Sys2Proof.Machine

/-! ### Front ends (R100-R104, R131): what a setting leaves of the pages, and of what waits for an index. -/

/-- From `s` to `t` the applied words of every page and what waits for an index are as they were. -/
def KeepsApplied (t s : State) : Prop := (∀ j, (t.page j).applied = (s.page j).applied) ∧ t.pend = s.pend

theorem KeepsApplied.refl (s : State) : KeepsApplied s s := ⟨fun _ => rfl, rfl⟩

theorem KeepsApplied.trans {t u s : State} (h1 : KeepsApplied t u) (h2 : KeepsApplied u s) : KeepsApplied t s :=
  ⟨fun j => (h1.1 j).trans (h2.1 j), h1.2.trans h2.2⟩

theorem wf_keepsApplied (s : State) (key : Nat) (f : RegField) (v : Nat) : KeepsApplied (s.wf key f v) s :=
  ⟨fun j => (wf_raised s key f v).get j (·.applied), rfl⟩

theorem setSix3_keepsApplied (s : State) (key off six : Nat) : KeepsApplied (s.setSix3 key off six) s := by
  have hreg (s : State) (off : Nat) (w : Word) : KeepsApplied (s.setReg key off w) s :=
    ⟨fun j => (setReg_raised s key off w).get j (·.applied), rfl⟩
  exact (hreg _ _ _).trans ((hreg _ _ _).trans (hreg _ _ _))

theorem afeSet_keepsApplied (s : State) (c input zone atten six : Nat) (selChanged : Bool) :
    KeepsApplied (s.afeSet c input zone atten six selChanged) s := by
  unfold State.afeSet
  dsimp only
  split
  · exact .refl s
  have hsettling (u : State) (f : Conv → Conv) :
      KeepsApplied ((u.modPage (keyAFE c) fun p => { p with settling := true }).modConv c f) u :=
    ⟨get_modPage (·.applied) (f := fun p => { p with settling := true }) (fun _ => rfl) u _, rfl⟩
  exact (hsettling _ _).trans ((setSix3_keepsApplied _ _ _ _).trans ((wf_keepsApplied _ _ _ _).trans ((wf_keepsApplied _ _ _ _).trans
    ((wf_keepsApplied _ _ _ _).trans (wf_keepsApplied _ _ _ _)))))

theorem foldl_keepsApplied {α : Type} {f : State → α → State} (h : ∀ s x, KeepsApplied (f s x) s) (xs : List α) (s : State) :
    KeepsApplied (xs.foldl f s) s := by
  induction xs generalizing s with
  | nil => exact .refl s
  | cons x xs ih => exact (ih _).trans (h s x)

/-- The words of a commit are applied, and settings that follow from them leave them alone. -/
theorem afeApply_applied (s : State) (c : Nat) (a : PendApply) :
    ((s.afeApply c a).page (keyAFE c)).applied = a.words ∧ (s.afeApply c a).pend = s.pend := by
  unfold State.afeApply
  extract_lets k input zone atten odd sel' selChanged s1 zone' atten' held s2 others
  have h1 : (s1.page (keyAFE c)).applied = a.words ∧ s1.pend = s.pend := ⟨congrArg (·.applied) (State.page_modPage _ _ _), rfl⟩
  have h2 : KeepsApplied s2 s1 := by
    unfold s2
    split
    · exact .refl _
    · exact (setSix3_keepsApplied _ _ _ _).trans ((wf_keepsApplied _ _ _ _).trans (afeSet_keepsApplied _ _ _ _ _ _ _))
  have hend (t : State) (h : KeepsApplied t s1) : (t.page (keyAFE c)).applied = a.words ∧ t.pend = s.pend :=
    ⟨(h.1 _).trans h1.1, h.2.trans h1.2⟩
  refine hend _ (KeepsApplied.trans (foldl_keepsApplied (fun s o => ?_) others s2) h2)
  split
  · exact .refl s
  · exact (wf_keepsApplied _ _ _ _).trans (afeSet_keepsApplied _ _ _ _ _ _ _)

theorem err_afeSet (s : State) (c input zone atten six : Nat) (selChanged : Bool) (j : Nat) :
    ((s.afeSet c input zone atten six selChanged).page j).err = (s.page j).err := by
  unfold State.afeSet
  dsimp only
  split
  · rfl
  have hsettling (u : State) (f : Conv → Conv) :
      (((u.modPage (keyAFE c) fun p => { p with settling := true }).modConv c f).page j).err = (u.page j).err :=
    get_modPage (·.err) (f := fun p => { p with settling := true }) (fun _ => rfl) u _ j
  have hreg (u : State) (key off : Nat) (w : Word) : ((u.setReg key off w).page j).err = (u.page j).err :=
    get_modPage (·.err) (f := fun p => { p with regs := mput p.regs off w }) (fun _ => rfl) u _ j
  have hwf (u : State) (key : Nat) (f : RegField) (v : Nat) : ((u.wf key f v).page j).err = (u.page j).err := hreg u key _ _
  rw [hsettling, State.setSix3, hreg, hreg, hreg, State.wb, hwf, hwf, hwf, hwf]

/-- An overload sets PG_ERR.OVERLOAD of its front end, and the protective step leaves it set. -/
theorem overloadStep_err (s : State) (c six : Nat) : wbit ((s.overloadStep c six).page (keyAFE c)).err 16 = true := by
  unfold State.overloadStep
  extract_lets +onlyGivenNames s1
  have h1 : wbit (s1.page (keyAFE c)).err 16 = true := wbit_setErr _ _ (by decide)
  clear_value s1
  extract_lets b all
  split
  · exact h1
  refine List.foldlRecOn (motive := fun u : State => wbit (u.page (keyAFE c)).err 16 = true) all _ h1 fun u hu o _ => ?_
  dsimp only
  split
  · exact (setErr_raised u _ _).err hu
  · exact (setErrLogged_raised _ _ _).err ((wb_raised _ _ _ _).err (by rw [err_afeSet]; exact hu))

/-- The level shown is no part of full scale, nor of what the detector is connected to. -/
theorem overFullScale_level (s : State) (c v : Nat) (level : Int) :
    (s.wf (keyAFE c) Reg.AFE_DET.LEVEL v).overFullScale c level = s.overFullScale c level := by
  unfold State.overFullScale
  rw [rf_wf_apart (.inr (.inl (by decide)))]

theorem detConnected_level (s : State) (k v c : Nat) : (s.wf k Reg.AFE_DET.LEVEL v).detConnected c = s.detConnected c := by
  unfold State.detConnected State.spareSel State.af State.areg
  rw [rf_wf_apart (.inr (.inl (by decide))), (wf_raised s k _ v).get _ (·.applied)]

/-- A level fits the field that shows it. -/
theorem level_shown (connected : Bool) (level : Int) :
    (if !connected || decide (level < -6000) then 0x8000 else unsignedOf 16 level) % 2 ^ (Reg.AFE_DET.LEVEL.hi + 1 - Reg.AFE_DET.LEVEL.lo) =
      if connected = true ∧ -6000 ≤ level then unsignedOf 16 level else 0x8000 := by
  have hwidth : Reg.AFE_DET.LEVEL.hi + 1 - Reg.AFE_DET.LEVEL.lo = 16 := by decide
  have hfits : unsignedOf 16 level < 2 ^ 16 := by
    unfold unsignedOf
    omega
  rw [hwidth]
  by_cases hlow : level < -6000
  · rw [if_pos (by simp [hlow]), if_neg (by omega)]
    rfl
  · cases connected
    · rfl
    · rw [if_neg (by simp [hlow]), if_pos (by simpa using hlow), Nat.mod_eq_of_lt hfits]

/-- Settles O10: a commit is held, applied and settled; levels are read against full scale. -/
theorem frontEndConfigurationCompletes : Obligations.FrontEndConfigurationCompletes := by
  unfold Obligations.FrontEndConfigurationCompletes
  refine ⟨fun s who conv tag ht hsoon halign hcheck => ?_, fun s conv a hpend hempty => ?_, fun s conv hsettling => ?_,
    fun s conv level heldNs six hheld hconv hdet hover => ?_, fun s conv level heldNs hheld hconv hdet hover => ?_,
    fun s conv level heldNs hconv hover => ?_⟩
  · refine ⟨(s.accept (keyAFE conv) (s.latch (keyAFE conv) 0x0100 tag)).setPend (keyAFE conv) (s.latch (keyAFE conv) 0x0100 tag).sixArg true,
      ?_, ?_, ?_⟩
    · change execAfeCommitAt who conv tag s = _
      unfold execAfeCommitAt
      dsimp only
      rw [command_of_takes ht]
      refine congrArg Host.Outcome.next ((if_neg (Nat.not_lt.2 hsoon)).trans ((if_neg (not_not.2 halign)).trans ?_))
      rw [hcheck]
    · exact congrArg (Option.map PendApply.due) (mfind_mput_same _ _ _)
    · refine (congrArg (·.cmdStat) (page_accept_same s (keyAFE conv) _)).trans ?_
      exact cmdStatWord_tag_mod tag _ _ _
  · let u := ((s.advanceTo a.due).clearPend (keyAFE conv)).afeApply conv a
    have hexec : exec (.afeApply conv) s = .next (u.endCommit (keyAFE conv) a.due) := by
      change execAfeApply conv s = _
      unfold execAfeApply
      dsimp only
      rw [hpend]
      exact if_neg (by simp [hempty])
    obtain ⟨happlied, hpends⟩ := afeApply_applied ((s.advanceTo a.due).clearPend (keyAFE conv)) conv a
    refine ⟨_, hexec, ?_, ((endCommit_ended u _ _).get _ (·.applied)).trans happlied⟩
    rw [State.pendOf, (endCommit_quiet u _ _).get (·.pend), hpends]
    exact mfind_mdel_same _ _
  · let u := (s.advanceTo (s.conv conv).settleUntil).wb (keyAFE conv) Reg.AFE_STAT.SETTLED true
    refine ⟨u.modPage (keyAFE conv) fun p => { p with settling := false }, if_pos hsettling,
      congrArg (·.settling) (State.page_modPage _ _ _), ?_⟩
    unfold State.rb
    rw [rf_of_regs (congrArg (·.regs) (State.page_modPage u _ _))]
    exact rb_wb_same _ _ true (by decide) (by decide)
  · refine ⟨_, ?_, overloadStep_err (s.advanceTo six) conv six⟩
    change execOverload conv level heldNs six s = _
    unfold execOverload
    rw [if_neg (by simp [hconv, hdet, hover, hheld])]
  · refine ⟨_, ?_, overloadStep_err (s.wf (keyAFE conv) Reg.AFE_DET.LEVEL
      (if !s.detConnected conv || decide (level < -6000) then 0x8000 else unsignedOf 16 level)) conv s.six⟩
    change execAfeDetUpdate conv level heldNs s = _
    unfold execAfeDetUpdate
    dsimp only
    rw [if_neg (by simp [hconv]), detConnected_level, overFullScale_level, if_pos (by simp [hdet, hover]), if_pos hheld]
    rfl
  · let u := s.wf (keyAFE conv) Reg.AFE_DET.LEVEL (if !s.detConnected conv || decide (level < -6000) then 0x8000 else unsignedOf 16 level)
    refine ⟨u.wb (keyAFE conv) Reg.AFE_STAT.OVERLOAD false, ?_, ?_⟩
    · change execAfeDetUpdate conv level heldNs s = _
      unfold execAfeDetUpdate
      dsimp only
      rw [if_neg (by simp [hconv]), detConnected_level, overFullScale_level, if_neg (by simp [hover])]
    · have hapart : Apart (keyAFE conv) Reg.AFE_STAT.OVERLOAD (keyAFE conv) Reg.AFE_DET.LEVEL := .inr (.inl (by decide))
      rw [rf_wb_apart hapart, rf_wf_same _ _ _ (by decide) (by decide)]
      exact level_shown (s.detConnected conv) level

end Sys2Proof.Machine

namespace Sys2Proof.Machine

/-! ### Rings (R440-R449): one rule per operation on a ring. -/

/-- Changing a ring changes its context and, of the pages, only RNG_OPEN. -/
theorem modRing_cases (s : State) (n : Nat) (f : Ring → Ring) :
    ∃ w, s.modRing n f = { s with rings := mput s.rings n (f (s.ring n)) } ∨
      s.modRing n f = { s with rings := mput s.rings n (f (s.ring n)) }.setReg keyRNG Reg.RNG_OPEN.off w := by
  unfold State.modRing
  dsimp only
  split
  · exact ⟨0, .inl rfl⟩
  · exact ⟨_, .inr rfl⟩

@[simp] theorem ring_modRing (s : State) (n : Nat) (f : Ring → Ring) : (s.modRing n f).ring n = f (s.ring n) := by
  obtain ⟨w, h | h⟩ := modRing_cases s n f
  all_goals
    rw [h]
    exact mget_mput_same _ _ _ _

theorem modRing_raised (s : State) (n : Nat) (f : Ring → Ring) : Raised (s.modRing n f) s := by
  obtain ⟨w, h | h⟩ := modRing_cases s n f
  · rw [h]
    exact .of_page fun _ => rfl
  · rw [h]
    exact (setReg_raised _ _ _ _).trans (.of_page fun _ => rfl)

theorem out_modRing (s : State) (n : Nat) (f : Ring → Ring) : (s.modRing n f).out = s.out := by
  obtain ⟨w, h | h⟩ := modRing_cases s n f
  · rw [h]
  · rw [h, State.setReg_out]

theorem six_modRing (s : State) (n : Nat) (f : Ring → Ring) : (s.modRing n f).six = s.six := by
  obtain ⟨w, h | h⟩ := modRing_cases s n f
  · rw [h]
  · rw [h, State.setReg_six]

theorem ring_of_quiet {t s : State} (h : Quiet t s) (n : Nat) : t.ring n = s.ring n := h.get (·.ring n)

/-- A message of a ring leaves its counts, its entries and its state. -/
theorem ring_ringMessage (s : State) (n : Nat) :
    ∃ last due, (s.ringMessage n).ring n = { s.ring n with lastMsg := last, msgDue := due } := by
  unfold State.ringMessage
  extract_lets r due
  clear_value due
  split
  · exact ⟨_, _, rfl⟩
  split
  · exact ⟨_, _, by rw [ring_of_quiet (sendMsix_quiet _ _), ring_modRing]⟩
  · exact ⟨_, _, by rw [ring_modRing]⟩

/-- The message whose holdoff is over is sent. -/
theorem ring_ringMessage_due {s : State} {n at0 : Nat} (hvector : 32 ≤ (s.ring n).vector) (hlast : (s.ring n).lastMsg = some at0)
    (hdue : at0 + (s.ring n).holdoff * sixPerUs ≤ s.six) :
    ((s.ringMessage n).ring n).msgDue = false ∧ ((s.ringMessage n).ring n).lastMsg = some (s.ringMessage n).six := by
  unfold State.ringMessage
  dsimp only
  rw [if_neg (by omega), hlast]
  dsimp only
  rw [if_pos hdue, ring_of_quiet (sendMsix_quiet _ _), ring_modRing, (sendMsix_quiet _ _).get (·.six), six_modRing]
  exact ⟨rfl, rfl⟩

theorem ringMessage_emits (s : State) (n : Nat) : Emits (s.ringMessage n) s := by
  have hmod (f : Ring → Ring) : Emits (s.modRing n f) s := by
    rw [Emits, out_modRing]
  unfold State.ringMessage
  dsimp only
  exact .ite (.refl s) (.ite ((sendMsix_emits _ _).trans (hmod _)) (hmod _))

/-- A command on a ring that commands may change runs on that ring. -/
theorem ringCommand_of_takes {s : State} {who : Issuer} {n : Nat} (ht : s.takes who keyRNG) (hn : (s.page keyRNG).a0.toNat = n)
    (hrange : 32 ≤ n ∧ n < 32768) (hphoin : (s.ring n).phoin = false) (opcode tag : Nat) (k : State → Op → Nat → Ring → State) :
    s.ringCommand who opcode tag k = .next (k s (s.latch keyRNG opcode tag) n (s.ring n)) := by
  have ha0 : (s.latch keyRNG opcode tag).a0 = n := hn
  unfold State.ringCommand
  rw [command_of_takes ht, ha0, if_neg (by omega), if_neg (by simp [hphoin]; omega)]

/-- An accepted operation of a page that changes a ring and ends DONE. -/
theorem modRing_doneOp (s : State) (key : Nat) (op : Op) (n : Nat) (f : Ring → Ring) :
    (((s.accept key op).modRing n f).doneOp key).ring n = f (s.ring n) ∧
      ((((s.accept key op).modRing n f).doneOp key).page key).cmdStat = cmdStatWord op.tag phaseDONE 0 codeOK := by
  refine ⟨(ring_of_quiet (doneOp_quiet _ _) n).trans (ring_modRing _ _ _), ?_⟩
  have hop : (((s.accept key op).modRing n f).page key).op = some op := by
    rw [(modRing_raised _ n f).get key (·.op), page_accept_same]
  rw [page_doneOp_same hop]

theorem ringTo_effect (s : State) (op : Op) (n : Nat) (st : RingState) :
    (s.ringTo op n st).ring n = { s.ring n with st := st } ∧
      ((s.ringTo op n st).page keyRNG).cmdStat = cmdStatWord op.tag phaseDONE 0 codeOK :=
  modRing_doneOp s keyRNG op n _

/-- A message that is due, at its time, on a vector of the host's. -/
theorem ringHoldoffExpiry_effect {s : State} {ring : Fin 32768} {at0 : Nat} (hdue : (s.ring ring).msgDue = true)
    (hvector : 32 ≤ (s.ring ring).vector) (hlast : (s.ring ring).lastMsg = some at0)
    (hsix : at0 + (s.ring ring).holdoff * sixPerUs < sixModulus) :
    ∃ t, exec (.ringHoldoffExpiry ring) s = .next t ∧ (t.ring ring).msgDue = false ∧ (t.ring ring).lastMsg = some t.six := by
  let u := s.advanceTo (at0 + (s.ring ring).holdoff * sixPerUs)
  have hexec : exec (.ringHoldoffExpiry ring) s = .next (u.ringMessage ring) := by
    change execRingHoldoffExpiry ring s = _
    unfold execRingHoldoffExpiry
    dsimp only
    rw [if_pos hdue, hlast]
  refine ⟨_, hexec, ring_ringMessage_due (s := u) hvector hlast ?_⟩
  change _ ≤ if s.six < at0 + (s.ring ring).holdoff * sixPerUs then (at0 + (s.ring ring).holdoff * sixPerUs) % sixModulus else s.six
  split
  · rw [Nat.mod_eq_of_lt hsix]
    exact le_refl _
  · exact Nat.not_lt.1 ‹_›

/-- Settles O25: each command changes one ring, and ends on its page. -/
theorem ringsComplete : Obligations.RingsComplete := by
  unfold Obligations.RingsComplete
  refine ⟨fun s who tag n ht hn hrange hphoin hst hentry hlen hbase hvector => ?_, fun s who tag n ht hn hrange hphoin hst htask => ?_,
    fun s who tag n ht hn hrange hphoin hst => ?_, fun s who tag n ht hn hrange hphoin hst => ?_,
    fun s who tag n ht hn hrange hphoin hst hheld hgrow hlen => ?_, fun s ring value hoff howner hst hphoin => ?_,
    fun s ring value h2 hphoin hst hcons hback hheld => ?_, fun s ring e rest hentries hst hcons hhost hgrow hroom => ?_,
    fun s ring entry hst hcons hhost hheld htask hlength => ?_,
        fun s ring at0 hdue hvector hlast hsix => ringHoldoffExpiry_effect hdue hvector hlast hsix,
    fun s who tag n ht hn hring htask hlg haddr => ?_, fun s who tag n ht hn htask => ?_⟩
  · let u := s.modRing n fun r => { r with prod := 0, cons := 0, origin := 0, grow := 0, entries := [], offsets := [], waiting := false }
    have hexec : exec (.ringOpen who tag) s = .next (u.ringTo (s.latch keyRNG 0x0100 tag) n .open0) := by
      change execRingOpen who tag s = _
      unfold execRingOpen
      rw [ringCommand_of_takes ht hn hrange hphoin, if_neg (by simp [hst]), if_neg (by simp; omega)]
    obtain ⟨hring, hstat⟩ := ringTo_effect u (s.latch keyRNG 0x0100 tag) n .open0
    rw [ring_modRing] at hring
    exact ⟨_, hexec, congrArg (·.st) hring, congrArg (·.prod) hring, congrArg (·.cons) hring, hstat.trans (cmdStatWord_tag_mod _ _ _ _)⟩
  · obtain ⟨hring, hstat⟩ := ringTo_effect s (s.latch keyRNG 0x0101 tag) n .closed
    refine ⟨_, ?_, congrArg (·.st) hring, hstat.trans (cmdStatWord_tag_mod _ _ _ _)⟩
    change execRingClose who tag s = _
    unfold execRingClose
    rw [ringCommand_of_takes ht hn hrange hphoin, if_neg hst, if_neg (not_not.2 htask)]
  · obtain ⟨hring, hstat⟩ := ringTo_effect s (s.latch keyRNG 0x0102 tag) n .suspended
    refine ⟨_, ?_, hring, hstat.trans (cmdStatWord_tag_mod _ _ _ _)⟩
    change execRingSuspend who tag s = _
    unfold execRingSuspend
    rw [ringCommand_of_takes ht hn hrange hphoin, if_pos hst]
  · obtain ⟨hring, hstat⟩ := ringTo_effect s (s.latch keyRNG 0x0103 tag) n .open0
    refine ⟨_, ?_, hring, hstat.trans (cmdStatWord_tag_mod _ _ _ _)⟩
    change execRingResume who tag s = _
    unfold execRingResume
    rw [ringCommand_of_takes ht hn hrange hphoin, if_pos hst]
  · obtain ⟨hring, hstat⟩ := modRing_doneOp s keyRNG (s.latch keyRNG 0x0104 tag) n fun r =>
      { r with lenLog2 := (s.page keyRNG).a1.toNat % 32, origin := r.prod }
    refine ⟨_, ?_, congrArg (·.lenLog2) hring, congrArg (·.origin) hring, hstat.trans (cmdStatWord_tag_mod _ _ _ _)⟩
    have ha1 : (s.latch keyRNG 0x0104 tag).a1 = (s.page keyRNG).a1.toNat := rfl
    change execRingResize who tag s = _
    unfold execRingResize
    rw [ringCommand_of_takes ht hn hrange hphoin]
    dsimp only
    rw [ha1, if_neg (by omega), if_neg (by simp [hst]), if_neg (not_not.2 hgrow), if_pos ⟨hst, hheld⟩]
  · refine ⟨s.modRing ring fun r => { r with entryLog2 := value.toNat % 256, lenLog2 := value.toNat / 256 % 256,
                                             host := nbit value.toNat 16, consumer := nbit value.toNat 17 }, ?_, ?_⟩
    · change execRingContextWrite ring 2 value s = _
      unfold execRingContextWrite
      dsimp only
      rw [if_neg (by simp [hoff]), if_neg (not_not.2 howner), if_neg (by simp [hst, hphoin])]
      rfl
    · rw [ring_modRing]
      exact ⟨rfl, rfl, rfl, rfl⟩
  · have hvalid : ¬(backward (value.toNat % 2 ^ 32) (s.ring ring).cons ||
        decide ((s.ring ring).held < cnt32 (value.toNat % 2 ^ 32) (s.ring ring).cons)) = true := by
      rw [hback, Bool.false_or, decide_eq_true_iff]
      exact Nat.not_lt.2 hheld
    refine ⟨s.modRing ring fun r =>
      { r with cons := value.toNat % 2 ^ 32, offsets := r.offsets.drop (cnt32 (value.toNat % 2 ^ 32) (s.ring ring).cons) }, ?_, ?_⟩
    · change execRingDoorbell ring value s = _
      unfold execRingDoorbell State.ringDoorbell
      dsimp only
      rw [if_neg (by rintro rfl; simp at h2), if_neg (by rintro rfl; simp at h2), if_neg (by simp [hphoin]), if_neg (not_not.2 hst), if_pos hcons,
        if_neg hvalid]
    · rw [ring_modRing]
      exact ⟨rfl, rfl⟩
  · let r := s.ring ring
    let u := (s.emit (.hostWrite (r.slot r.prod) (e.map some))).modRing ring fun _ =>
      { r with prod := (r.prod + 1) % 2 ^ 32, entries := rest, waiting := false, offsets := r.offsets ++ [u64At e 0] }
    have hexec : exec (.ringProduce ring true) s = .next (u.ringMessage ring) := by
      have hg : r.growTo (r.prod + 1) = r := if_pos hgrow
      change execRingProduce ring true s = _
      unfold execRingProduce
      dsimp only
      rw [hentries]
      dsimp only
      rw [hg, if_neg (by simp [hst, hcons]), if_neg (Nat.not_le.2 hroom)]
      have hpath : s.ringPath r (r.slot r.prod) = .clear := if_pos hhost
      rw [hpath, if_neg (by simp), if_neg (by simp)]
      unfold State.ringWrite
      rw [if_pos hhost]
    obtain ⟨last, due, hring⟩ := ring_ringMessage u ring
    rw [ring_modRing] at hring
    refine ⟨_, hexec, congrArg (·.prod) hring, congrArg (·.entries) hring, (ringMessage_emits u ring).mem ?_⟩
    rw [out_modRing]
    exact List.mem_append_right _ List.mem_cons_self
  · refine ⟨s.modRing ring fun r => { r with cons := (r.cons + 1) % 2 ^ 32, entries := r.entries ++ [entry] }, ?_, ?_⟩
    · have hpath : s.ringPath (s.ring ring) ((s.ring ring).slot (s.ring ring).cons) = .clear := if_pos hhost
      change execRingConsume ring entry true s = _
      unfold execRingConsume
      dsimp only
      rw [hpath, if_neg (by simp [hst, hcons, hheld, htask]), if_neg (by simp), if_pos hhost, List.take_left' hlength]
    · rw [ring_modRing]
      exact ⟨rfl, rfl⟩
  · obtain ⟨hst, hhost, hcons, hentry⟩ := hring
    obtain ⟨hring, _⟩ := modRing_doneOp s keyHIF (s.latch keyHIF 0x0101 tag) n fun r =>
      { r with buffer := some ((s.page keyHIF).a1.toNat + (s.page keyHIF).a2.toNat * 2 ^ 32, (s.page keyHIF).a3.toNat % 64), bufPos := 0 }
    refine ⟨_, ?_, congrArg (·.buffer) hring, congrArg (·.bufPos) hring⟩
    have ha0 : (s.latch keyHIF 0x0101 tag).a0 % 32768 = n := hn
    change execBindBuffer who tag s = _
    unfold execBindBuffer
    rw [command_of_takes ht]
    dsimp only
    rw [ha0, if_neg (by simp [hst, hhost, hcons, hentry]), if_neg (not_not.2 htask)]
    refine congrArg Host.Outcome.next (if_neg ?_)
    change ¬((s.page keyHIF).a3.toNat % 64 < 24 ∨ 36 < (s.page keyHIF).a3.toNat % 64 ∨
      ((s.page keyHIF).a1.toNat + (s.page keyHIF).a2.toNat * 2 ^ 32) % 4096 ≠ 0)
    omega
  · obtain ⟨hring, hstat⟩ := modRing_doneOp s keyHIF (s.latch keyHIF 0x0102 tag) n fun r => { r with buffer := none, bufPos := 0 }
    refine ⟨_, ?_, congrArg (·.buffer) hring, hstat.trans (cmdStatWord_tag_mod _ _ _ _)⟩
    have ha0 : (s.latch keyHIF 0x0102 tag).a0 % 32768 = n := hn
    change execUnbind who tag s = _
    unfold execUnbind
    rw [command_of_takes ht]
    dsimp only
    rw [ha0, if_neg (not_not.2 htask)]

end Sys2Proof.Machine

namespace Sys2Proof.Machine

/-! ### Reads and writes of user memory (R349-R354): what they reach besides it. -/

/-- From `s` to `t` nothing changes but user memory and its marks, the stacks, and what interrupts, errors and the log reach. -/
def Stored (t s : State) : Prop :=
  t = { s with pages := t.pages, out := t.out, log := t.log, flashLog := t.flashLog, held := t.held, msixPend := t.msixPend,
               mem := t.mem, poison := t.poison, hbms := t.hbms }

/-- What reads none of these reads the same. -/
theorem Stored.get {t s : State} (h : Stored t s) {α : Type} (f : State → α) :
    f t = f { s with pages := t.pages, out := t.out, log := t.log, flashLog := t.flashLog, held := t.held, msixPend := t.msixPend,
                     mem := t.mem, poison := t.poison, hbms := t.hbms } :=
  congrArg f h

theorem Stored.refl (s : State) : Stored s s := rfl

theorem Stored.trans {t u s : State} (h1 : Stored t u) (h2 : Stored u s) : Stored t s := by
  unfold Stored at h1 h2
  unfold Stored
  calc t = { u with pages := t.pages, out := t.out, log := t.log, flashLog := t.flashLog, held := t.held, msixPend := t.msixPend,
                    mem := t.mem, poison := t.poison, hbms := t.hbms } := h1
    _ = _ := by rw [h2]

theorem Stored.ite {c : Prop} [Decidable c] {a b s : State} (ha : Stored a s) (hb : Stored b s) : Stored (if c then a else b) s := by
  split
  · exact ha
  · exact hb

theorem Quiet.stored {t s : State} (h : Quiet t s) : Stored t s := by
  unfold Quiet at h
  unfold Stored
  rw [h]

theorem Stored.foldl {α : Type} {f : State → α → State} (h : ∀ s x, Stored (f s x) s) (xs : List α) (s : State) : Stored (xs.foldl f s) s := by
  induction xs generalizing s with
  | nil => exact .refl s
  | cons x xs ih => exact (ih _).trans (h s x)

theorem setPoison_stored (s : State) (line : Nat) (b : Bool) : Stored (s.setPoison line b) s := rfl

theorem modStack_stored (s : State) (m : Nat) (f : Stack → Stack) : Stored (s.modStack m f) s := rfl

theorem writeMem_stored (s : State) (a : Nat) (bs : List Byte) : Stored (s.writeMem a bs) s := by
  unfold State.writeMem
  have hbytes : Stored { s with mem := Memory.putBytes s.mem a bs } s := rfl
  exact (Stored.foldl (fun s _ => .ite (setPoison_stored s _ _) (.refl s)) _ _).trans hbytes

theorem holeAccess_stored (s : State) (m u : Nat) : Stored (s.holeAccess m u) s := by
  unfold State.holeAccess
  have hcount : Stored ((s.count (keyMEM m) Reg.MEM_HOLE).setErr (keyMEM m) 23) s := ((setErr_quiet _ _ _).trans (count_quiet _ _ _)).stored
  exact .ite hcount (((logPage_quiet _ _ _ _ _ _ _).stored.trans (modStack_stored _ _ _)).trans hcount)

theorem storeMem_stored (s : State) (u : Nat) (bs : List (Byte × Bool)) : Stored (s.storeMem u bs) s := by
  unfold State.storeMem
  split
  · exact (Stored.foldl (fun s _ => .ite (setPoison_stored s _ _) (.refl s)) _ _).trans (writeMem_stored s _ _)
  · exact Stored.foldl (fun s i => .ite (.ite ((setPoison_stored _ _ _).trans (writeMem_stored s _ _)) (writeMem_stored s _ _))
      (holeAccess_stored s _ _)) _ _

theorem fetchMem_stored (s : State) (u n : Nat) : Stored (s.fetchMem u n).1 s := by
  unfold State.fetchMem
  dsimp only
  split
  · exact holeAccess_stored s _ _
  · exact .refl s

theorem discardWrite_stored (s : State) (r u : Nat) : Stored (s.discardWrite r u) s := by
  unfold State.discardWrite
  split
  · exact (count_quiet s _ _).stored
  · exact .refl s

theorem sendMem_stored (s : State) (r u : Nat) (bs : List (Byte × Bool)) : Stored (s.sendMem r u bs) s :=
  .ite (discardWrite_stored s r u) (storeMem_stored s u bs)

/-! ### Flags they raise. -/

theorem setPoison_raised (s : State) (line : Nat) (b : Bool) : Raised (s.setPoison line b) s := .of_page fun _ => rfl

theorem holeAccess_raised (s : State) (m u : Nat) : Raised (s.holeAccess m u) s := by
  unfold State.holeAccess
  have hcount : Raised ((s.count (keyMEM m) Reg.MEM_HOLE).setErr (keyMEM m) 23) s := (setErr_raised _ _ _).trans (count_raised _ _ _)
  have hstack (u : State) (m : Nat) (f : Stack → Stack) : Raised (u.modStack m f) u := .of_page fun _ => rfl
  exact .ite hcount (((logPage_raised _ _ _ _ _ _ _).trans (hstack _ _ _)).trans hcount)

theorem Raised.foldl {α : Type} {f : State → α → State} (h : ∀ s x, Raised (f s x) s) (xs : List α) (s : State) : Raised (xs.foldl f s) s :=
  .each h xs s

theorem storeMem_raised (s : State) (u : Nat) (bs : List (Byte × Bool)) : Raised (s.storeMem u bs) s := by
  unfold State.storeMem
  split
  · exact (Raised.foldl (fun s _ => .ite (setPoison_raised s _ _) (.refl s)) _ _).trans (writeMem_raised s _ _)
  · exact Raised.foldl (fun s i => .ite (.ite ((setPoison_raised _ _ _).trans (writeMem_raised s _ _)) (writeMem_raised s _ _))
      (holeAccess_raised s _ _)) _ _

theorem fetchMem_raised (s : State) (u n : Nat) : Raised (s.fetchMem u n).1 s := by
  unfold State.fetchMem
  dsimp only
  split
  · exact holeAccess_raised s _ _
  · exact .refl s

theorem discardWrite_raised (s : State) (r u : Nat) : Raised (s.discardWrite r u) s := by
  unfold State.discardWrite
  split
  · exact count_raised s _ _
  · exact .refl s

theorem sendMem_raised (s : State) (r u : Nat) (bs : List (Byte × Bool)) : Raised (s.sendMem r u bs) s :=
  .ite (discardWrite_raised s r u) (storeMem_raised s u bs)

end Sys2Proof.Machine

namespace Sys2Proof.Machine

/-! ### Traverse channels (R424-R439): what their operations leave of a channel, its status and the group's order. -/

theorem chan_modChan (s : State) (c : Nat) (f : DmaChan → DmaChan) : (s.modChan c f).chan c = f (s.chan c) := mget_mput_same _ _ _ _

theorem rf_modChan (s : State) (c : Nat) (f : DmaChan → DmaChan) (j : Nat) (g : RegField) : (s.modChan c f).rf j g = s.rf j g := rfl

theorem chan_of_stored {t s : State} (h : Stored t s) (c : Nat) : t.chan c = s.chan c := h.get (·.chan c)

theorem channels_of_stored {t s : State} (h : Stored t s) : t.channels = s.channels := h.get (·.channels)

@[simp] theorem channels_chanEnter (s : State) (c n : Nat) : (s.chanEnter c n).channels = s.channels := rfl

@[simp] theorem channels_chanCode (s : State) (c code sub : Nat) : (s.chanCode c code sub).channels = s.channels := rfl

@[simp] theorem channels_setDbPend (s : State) (c : Nat) (b : Bool) : (s.setDbPend c b).channels = s.channels := rfl

@[simp] theorem channels_setAct (s : State) (c : Nat) (d : Option ChanDesc) : (s.setAct c d).channels = s.channels := rfl

theorem chan_setShadow (s : State) (c : Nat) (d : Option ChanDesc) : (s.setShadow c d).chan c = { s.chan c with sh := d } :=
  chan_modChan s c fun x => { x with sh := d }

/-- The state that is entered is the channel's. -/
theorem chanState_chanEnter (s : State) (c : Nat) {n : Nat} (h : n < 16) : (s.chanEnter c n).chanState c = n := by
  have hoff : (Reg.TRV_STAT.CH_STATE (c % 16)).off ≠ Reg.TRV_BUSY.off := by
    change 0x484 + 0xC0 * (c % 16) ≠ 0x100
    omega
  unfold State.chanState State.chanEnter
  dsimp only
  rw [rf_setReg_apart _ _ (.inr hoff.symm), rf_wf_same _ _ _ (by decide : 3 < 32) (by decide : 0 ≤ 3)]
  exact Nat.mod_eq_of_lt h

theorem dbPend_chanEnter (s : State) (c n : Nat) : (s.chanEnter c n).dbPend c = s.dbPend c := by
  have hoff : (Reg.TRV_STAT.DB_PEND (c % 16)).off ≠ Reg.TRV_BUSY.off := by
    change 0x484 + 0xC0 * (c % 16) ≠ 0x100
    omega
  unfold State.dbPend State.chanEnter State.rb
  dsimp only
  rw [rf_setReg_apart _ _ (.inr hoff.symm), rf_wf_apart (.inr (.inr ⟨(by decide : 3 < 32), (by decide : 0 ≤ 3), (by decide : 5 ≤ 5),
      .inr (by decide : 3 < 5)⟩))]

theorem dbPend_setDbPend (s : State) (c : Nat) (b : Bool) : (s.setDbPend c b).dbPend c = b :=
  rb_wb_same s _ b (by decide : 5 < 32) (by decide : 5 ≤ 5)

/-- A valid SHADOW becomes ACTIVE in an empty channel. -/
theorem promote_effect {s : State} {c : Nat} {d : ChanDesc} (hact : (s.chan c).act = none) (hsh : (s.chan c).sh = some d) :
    ((s.promote c).chan c).act = some d ∧ (s.promote c).chanState c = chRUNNING := by
  unfold State.promote
  rw [hact, hsh]
  dsimp only
  refine ⟨?_, chanState_chanEnter _ _ (by decide)⟩
  change ((State.setShadow _ c none).chan c).act = some d
  rw [chan_setShadow, chan_modChan]

/-- An ACTIVE descriptor, or none valid in SHADOW, keeps a channel as it is. -/
theorem chanState_chanCode (s : State) (c code sub : Nat) : (s.chanCode c code sub).chanState c = s.chanState c := by
  have hcode : Apart (chanKey c) (Reg.TRV_STAT.CODE (c % 16)) (chanKey c) (Reg.TRV_STAT.CH_STATE (c % 16)) :=
    .inr (.inr ⟨(by decide : 15 < 32), (by decide : 8 ≤ 15), (by decide : 0 ≤ 3), .inl (by decide : 3 < 8)⟩)
  have hsub : Apart (chanKey c) (Reg.TRV_STAT.SUB (c % 16)) (chanKey c) (Reg.TRV_STAT.CH_STATE (c % 16)) :=
    .inr (.inr ⟨(by decide : 23 < 32), (by decide : 16 ≤ 23), (by decide : 0 ≤ 3), .inl (by decide : 3 < 16)⟩)
  unfold State.chanState State.chanCode
  rw [rf_wf_apart hsub, rf_wf_apart hcode]

/-- DB_PEND stands above CH_STATE. -/
theorem chanState_setDbPend (s : State) (c : Nat) (b : Bool) : (s.setDbPend c b).chanState c = s.chanState c :=
  rf_wb_apart (.inr (.inr ⟨(by decide : 5 < 32), (by decide : 5 ≤ 5), (by decide : 0 ≤ 3), .inl (by decide : 3 < 5)⟩)) s b

/-- Neither code nor sub-reason is part of DB_PEND. -/
theorem dbPend_chanCode (s : State) (c code sub : Nat) : (s.chanCode c code sub).dbPend c = s.dbPend c := by
  have hcode : Apart (chanKey c) (Reg.TRV_STAT.CODE (c % 16)) (chanKey c) (Reg.TRV_STAT.DB_PEND (c % 16)) :=
    .inr (.inr ⟨(by decide : 15 < 32), (by decide : 8 ≤ 15), (by decide : 5 ≤ 5), .inl (by decide : 5 < 8)⟩)
  have hsub : Apart (chanKey c) (Reg.TRV_STAT.SUB (c % 16)) (chanKey c) (Reg.TRV_STAT.DB_PEND (c % 16)) :=
    .inr (.inr ⟨(by decide : 23 < 32), (by decide : 16 ≤ 23), (by decide : 5 ≤ 5), .inl (by decide : 5 < 16)⟩)
  unfold State.dbPend State.chanCode
  rw [rb_wf_apart hsub, rb_wf_apart hcode]

/-- A cancelled channel is IDLE and holds nothing (R438). -/
theorem chanCancel_effect (s : State) (c : Nat) :
    (s.chanCancel c).chanState c = chIDLE ∧ (s.chanCancel c).chan c = DmaChan.init ∧ (s.chanCancel c).dbPend c = false := by
  unfold State.chanCancel
  refine ⟨chanState_chanEnter _ _ (by decide), ?_, ?_⟩
  · change (State.setShadow _ c none).chan c = _
    rw [chan_setShadow, chan_modChan]
    rfl
  · rw [dbPend_chanEnter, dbPend_setDbPend]

/-- The words of the window that a fetched descriptor fills are no part of the status (R424). -/
theorem chanState_fillShadow (s : State) (c : Nat) (d : List Byte) : (s.fillShadow c d).chanState c = s.chanState c := by
  unfold State.fillShadow State.each
  refine List.foldlRecOn (motive := fun u : State => u.chanState c = s.chanState c) _ _ rfl fun u hu w hw => ?_
  have hw32 : w < 32 := List.mem_range.1 (List.mem_filter.1 hw).1
  exact (rf_setReg_apart (g := Reg.TRV_STAT.CH_STATE (c % 16)) u _ (.inr (shOff_ne_stat c hw32))).trans hu

theorem channels_fillShadow (s : State) (c : Nat) (d : List Byte) : (s.fillShadow c d).channels = s.channels :=
  foldl_kept (g := (·.channels)) (fun _ _ => State.setReg_channels ..) _ s

/-! ### What the movement of a packet leaves of the order of a group (R423). -/

theorem groupLast_toPort (s : State) (region line : Nat) (bs : List Byte) : (s.toPort region line bs).groupLast = s.groupLast := by
  unfold State.toPort
  split
  · rfl
  split
  · extract_lets key
    split
    · rfl
    · exact (setErr_quiet _ _ _).get (·.groupLast)
  · rfl

theorem groupLast_destBytes (s : State) (c : Nat) (d : List Byte) (addr : Int) (bs : List (Byte × Bool)) :
    (s.destBytes c d addr bs).groupLast = s.groupLast := by
  unfold State.destBytes
  dsimp only
  split
  · exact (sendMem_stored _ _ _ _).get (·.groupLast)
  split
  · rfl
  · exact groupLast_toPort _ _ _ _

theorem groupLast_promote (s : State) (c : Nat) : (s.promote c).groupLast = s.groupLast := by
  unfold State.promote
  split <;> rfl

theorem groupLast_moved (s : State) (c : Nat) (d bs : List Byte) (poisoned : Bool) : (s.moved c d bs poisoned).groupLast = s.groupLast := by
  unfold State.moved State.issuedAll
  extract_lets s1 s2 s3 x
  have h3 : s3.groupLast = s.groupLast := by
    unfold s3
    split
    · exact (setErr_quiet _ _ _).get (·.groupLast)
    · rfl
  clear_value s3
  split
  · split
    · exact (groupLast_promote _ _).trans h3
    · exact h3
  · exact h3

theorem groupLast_movePacket (s : State) (c : Nat) (d : List Byte) (n : Nat) (data : List Byte) :
    (s.movePacket c d n data).groupLast = s.groupLast := by
  have hsource (addr : Int) : (s.sourceBytes d addr n data).1.groupLast = s.groupLast := by
    unfold State.sourceBytes
    split
    · exact (fetchMem_stored _ _ _).get (·.groupLast)
    · rfl
  unfold State.movePacket
  exact (groupLast_moved _ _ _ _ _).trans ((groupLast_destBytes _ _ _ _ _).trans (hsource _))

/-! ### The end of a traverse (R429, R433, R434). -/

theorem writeBack_stored (s : State) (c : Nat) (d : ChanDesc) (status chk : Nat) : Stored (s.writeBack c d status chk) s := by
  unfold State.writeBack
  extract_lets bs
  split
  · exact .refl s
  split
  · exact .foldl (fun s w => (setReg_quiet s _ _ _).stored) _ _
  · rfl
  · exact sendMem_stored s _ _ _

theorem tailWait_raised (s : State) (c : Nat) (d : ChanDesc) : Raised (s.tailWait c d) s := by
  have hwait : Raised (((s.modChan c fun x => { x with tail := some d }).setAct c (some d)).chanEnter c chTAIL_WAIT) s :=
    (chanEnter_raised _ _ _).trans ((setAct_raised _ _ _).trans (.congr (.refl s) rfl rfl))
  exact .ite ((wb_raised _ _ _ _).trans (.congr hwait rfl rfl)) hwait

/-- What waits to finish stays as the channel waits for its tail. -/
theorem finishing_tailWait (s : State) (c : Nat) (d : ChanDesc) : ((s.tailWait c d).chan c).finishing = (s.chan c).finishing := by
  have hwait : ((((s.modChan c fun x => { x with tail := some d }).setAct c (some d)).chanEnter c chTAIL_WAIT).chan c).finishing =
      (s.chan c).finishing := congrArg (·.finishing) (chan_modChan s c fun x => { x with tail := some d })
  unfold State.tailWait
  dsimp only
  split
  · exact (congrArg (·.finishing) (chan_modChan _ c fun x => { x with fetch := some .quarter })).trans hwait
  · exact hwait

/-- What TRV_COMPLETE does before the channel goes on: the write-back, the counts and the interrupt. -/
def State.trvDone (s : State) (c : Nat) (f : Finishing) (rest : List Finishing) : State :=
  let d := f.desc.bytes
  let k := chanKey c
  let chk := if tCHK d then Nat.xor f.crc 0xFFFFFFFF else 0
  let s := (s.modChan c fun x => { x with finishing := rest }).writeBack c f.desc (boolNat f.poisoned * 2 ^ 16 + 2 ^ 31) chk
  let s := if tCHK d then s.setReg k (Reg.TRV_CHK (c % 16)).off (word chk) else s
  let s := (s.wrapBy k (Reg.TRV_DONE (c % 16)) 1).chanCode c codeOK 0
  if tIRQ d then s.irqBit k (16 + c % 16) else s

/-- How a channel goes on after a traverse. -/
def State.trvNext (s : State) (c : Nat) (f : Finishing) : State :=
  let x := s.chan c
  if x.act.isNone && x.sh.isNone && x.finishing.isEmpty && tEND f.desc.bytes && decide (s.chanState c = chRUNNING ∨ s.chanState c = chSUSPENDED) then
    if f.desc.addr.isSome then s.tailWait c f.desc else (s.setAct c none).chanEnter c chIDLE
  else s

theorem exec_trvComplete_of_clear {s : State} {chan : Fin 512} {f : Finishing} {rest : List Finishing}
    (hfin : (s.chan chan).finishing = f :: rest)
    (hway : tDSPACE f.desc.bytes ≠ 0 ∨ s.memPath (chanRegion chan) (tDST f.desc.bytes % 2 ^ 48) = .clear) :
    exec (.trvComplete chan) s = .next ((s.trvDone chan f rest).trvNext chan f) := by
  have hclear : (if tDSPACE f.desc.bytes = 0 then s.memPath (chanRegion chan) (tDST f.desc.bytes % 2 ^ 48) else .clear) = .clear := by
    obtain h | h := hway
    · exact if_neg h
    · rw [h, ite_self]
  change execTrvComplete chan s = _
  unfold execTrvComplete
  dsimp only
  rw [hfin]
  dsimp only
  rw [hclear, if_neg (by simp), if_neg (by simp)]
  exact (apply_ite Host.Outcome.next _ _ _).symm

theorem trvDone_effect (s : State) (chan : Fin 512) (f : Finishing) (rest : List Finishing) :
    ((s.trvDone chan f rest).chan chan).finishing = rest ∧
      (tIRQ f.desc.bytes = true → wbit ((s.trvDone chan f rest).page (chanKey chan)).irq (16 + chan.val % 16) = true) := by
  unfold State.trvDone
  extract_lets d k chk s1 s2 s3
  have h1 : (s1.chan chan).finishing = rest :=
    (congrArg (·.finishing) (chan_of_stored (writeBack_stored _ _ _ _ _) chan)).trans (congrArg (·.finishing) (chan_modChan s chan _))
  have h3 : (s3.chan chan).finishing = rest := by
    unfold s3 s2
    split <;> exact h1
  clear_value s3
  refine ⟨?_, fun h => ?_⟩
  · split
    · exact ((irqBit_quiet s3 _ _).get (fun s => (s.chan chan).finishing)).trans h3
    · exact h3
  · rw [if_pos h]
    exact wbit_irq_irqBit _ _ (by omega)

theorem trvNext_effect (s : State) (c : Nat) (f : Finishing) :
    ((s.trvNext c f).chan c).finishing = (s.chan c).finishing ∧ Raised (s.trvNext c f) s := by
  unfold State.trvNext
  dsimp only
  split
  · split
    · exact ⟨finishing_tailWait _ _ _, tailWait_raised _ _ _⟩
    · exact ⟨rfl, (chanEnter_raised _ _ _).trans (setAct_raised _ _ _)⟩
  · exact ⟨rfl, .refl s⟩

/-- A full CTRL word without a reserved space is its nine bits. -/
theorem ctrl_word (v old : Nat) (h4 : bitsOf v 5 4 ≠ 3) (h6 : bitsOf v 7 6 ≠ 3) :
    setBits (setBits (v % 512) 5 4 (if bitsOf v 5 4 = 3 then bitsOf old 5 4 else bitsOf v 5 4)) 7 6
      (if bitsOf v 7 6 = 3 then bitsOf old 7 6 else bitsOf v 7 6) = v % 512 := by
  rw [if_neg h4, if_neg h6]
  unfold setBits bitsOf
  omega

section Commands

variable {s : State} {who : Issuer} {chan : Fin 512}

theorem chanCommand_of_honours (h : s.honours who (chanKey chan)) (op : Nat) (k : State → State) : s.chanCommand who chan op k = .next (k s) :=
  congrArg Host.Outcome.next (write_of_honours h _ _ k)

/-- A descriptor that passes the checks becomes ACTIVE in an empty channel. -/
theorem trvCommit_effect (h : s.honours who (chanKey chan)) (hbusy : s.shBusy chan = false) (hst : s.chanState chan = chIDLE)
    (hact : (s.chan chan).act = none) (hcheck : s.tCheck chan (s.shBytes chan) = 0) :
    ∃ t, exec (.trvCommit who chan) s = .next t ∧ (t.chan chan).act = some { bytes := s.shBytes chan, addr := none } ∧
      t.chanState chan = chRUNNING := by
  let u := (s.chanCode chan codeOK 0).setShadow chan (some { bytes := s.shBytes chan, addr := none })
  have hexec : exec (.trvCommit who chan) s = .next (u.promote chan) := by
    change execTrvCommit who chan s = _
    unfold execTrvCommit
    rw [chanCommand_of_honours h]
    dsimp only
    rw [if_neg (by simp [hbusy]), hst, if_neg (by decide), if_neg (not_not.2 hcheck), if_neg (by decide)]
  have hu : u.chan chan = { s.chan chan with sh := some { bytes := s.shBytes chan, addr := none } } := chan_setShadow _ _ _
  obtain ⟨hpact, hrun⟩ := promote_effect (s := u) (c := chan) ((congrArg (·.act) hu).trans hact) (congrArg (·.sh) hu)
  exact ⟨_, hexec, hpact, hrun⟩

theorem trvStartChain_effect (h : s.honours who (chanKey chan)) (hst : s.chanState chan = chIDLE) :
    ∃ t, exec (.trvStartChain who chan) s = .next t ∧ t.chanState chan = chRUNNING ∧
      (t.chan chan).fetch = some (.desc (nbit (s.pair (chanKey chan) (Reg.TRV_CHAIN_LO.ADDR (chan.val % 16)).off) 0)
        (s.pair (chanKey chan) (Reg.TRV_CHAIN_LO.ADDR (chan.val % 16)).off % 2 ^ 48 / 128 * 128)) := by
  let fetch := ChanFetch.desc (nbit (s.pair (chanKey chan) (Reg.TRV_CHAIN_LO.ADDR (chan.val % 16)).off) 0)
    (s.pair (chanKey chan) (Reg.TRV_CHAIN_LO.ADDR (chan.val % 16)).off % 2 ^ 48 / 128 * 128)
  refine ⟨((s.chanCode chan codeOK 0).modChan chan fun x => { x with fetch := some fetch }).chanEnter chan chRUNNING, ?_,
    chanState_chanEnter _ _ (by decide), congrArg (·.fetch) (chan_modChan _ chan fun x => { x with fetch := some fetch })⟩
  change execTrvStartChain who chan s = _
  unfold execTrvStartChain
  rw [chanCommand_of_honours h]
  dsimp only
  rw [if_neg (not_not.2 hst)]

theorem trvResume_effect (h : s.honours who (chanKey chan)) (hst : s.chanState chan = chSUSPENDED) :
    ∃ t, exec (.trvResume who chan) s = .next t ∧ t.chanState chan = chRUNNING := by
  let u := (s.chanCode chan codeOK 0).chanEnter chan chRUNNING
  refine ⟨u.promote chan, ?_, ?_⟩
  · change execTrvResume who chan s = _
    unfold execTrvResume
    rw [chanCommand_of_honours h, if_pos hst]
  · unfold State.promote
    split
    · exact chanState_chanEnter _ _ (by decide)
    · exact chanState_chanEnter _ _ (by decide)

/-- A word of SHADOW that is free to write: words of the reserved and write-back ranges keep theirs. -/
theorem trvShWrite_word (h : s.honours who (chanKey chan)) (hbusy : s.shBusy chan = false) {index : Fin 32} (hindex : index.val ≠ 28)
    (value : BitVec 32) :
    ∃ t, exec (.trvShWrite who chan index value) s = .next t ∧ t.reg (chanKey chan) (shOff chan index) =
      (if index.val ∈ [11, 15, 17, 18, 19, 20, 21, 22, 23, 24, 25, 26, 27, 29] then s.reg (chanKey chan) (shOff chan index) else value) ∧
      t.channels = s.channels := by
  have hexec : exec (.trvShWrite who chan index value) s =
      .next (if index.val ∈ [11, 15, 17, 18, 19, 20, 21, 22, 23, 24, 25, 26, 27, 29] then s
        else s.setReg (chanKey chan) (shOff chan index) value) := by
    change execTrvShWrite who chan index value s = _
    unfold execTrvShWrite
    rw [write_of_honours h, if_neg (by simp [hbusy])]
    by_cases hback : 24 ≤ index.val ∧ index.val < 28
    · rw [if_pos hback, if_pos (by simp; omega)]
    · rw [if_neg hback, if_neg hindex]
      by_cases hres : index.val ∈ [11, 15, 17, 18, 19, 20, 21, 22, 23, 29]
      · rw [if_pos hres, if_pos (by simp at hres ⊢; omega)]
      · rw [if_neg hres, if_neg (by simp at hres hback ⊢; omega)]
  refine ⟨_, hexec, ?_, ?_⟩
  · split
    · rfl
    · exact State.reg_setReg _ _ _ _
  · split <;> rfl

theorem trvShWrite_ctrl (h : s.honours who (chanKey chan)) (hbusy : s.shBusy chan = false) (value : BitVec 32)
    (h4 : bitsOf value.toNat 5 4 ≠ 3) (h6 : bitsOf value.toNat 7 6 ≠ 3) :
    ∃ t, exec (.trvShWrite who chan 28 value) s = .next t ∧ t.reg (chanKey chan) (shOff chan 28) = word (value.toNat % 512) ∧
      t.channels = s.channels := by
  refine ⟨s.setReg (chanKey chan) (shOff chan 28) (word (value.toNat % 512)), ?_, State.reg_setReg _ _ _ _, rfl⟩
  change execTrvShWrite who chan 28 value s = _
  unfold execTrvShWrite
  rw [write_of_honours h, if_neg (by simp [hbusy]), if_neg (by decide), if_pos (by decide)]
  dsimp only
  rw [ctrl_word _ _ h4 h6, if_neg (by simp [h4, h6])]

theorem trvDoorbell_effect (howner : (s.page (chanKey chan)).owner = .host) (hoff : s.pageOff (chanKey chan) = false)
    (hst : s.chanState chan = chTAIL_WAIT) (hfetch : (s.chan chan).fetch = none) (value : BitVec 64) :
    ∃ t, exec (.trvDoorbell chan value) s = .next t ∧ (t.chan chan).fetch = some .quarter ∧ t.dbPend chan = false := by
  refine ⟨(s.modChan chan fun x => { x with fetch := some .quarter }).setDbPend chan false, ?_, ?_, dbPend_setDbPend _ _ _⟩
  · change execTrvDoorbell chan value s = _
    unfold execTrvDoorbell State.chanDoorbell
    dsimp only
    rw [if_pos ⟨howner, by simp [hoff]⟩, hst, if_neg (by decide), if_pos ⟨rfl, by rw [hfetch]; rfl⟩]
  · exact congrArg (·.fetch) (chan_modChan s chan fun x => { x with fetch := some .quarter })

/-- A channel with a fetched descriptor in SHADOW. -/
def State.fetched (s : State) (c : Nat) (bytes : List Byte) (addr : Nat) : State :=
  ((s.modChan c fun x => { x with fetch := none }).fillShadow c bytes).setShadow c (some { bytes := bytes, addr := some (true, addr) })

theorem chan_fetched (s : State) (c : Nat) (bytes : List Byte) (addr : Nat) :
    (s.fetched c bytes addr).chan c = { s.chan c with fetch := none, sh := some { bytes := bytes, addr := some (true, addr) } } := by
  unfold State.fetched
  rw [chan_setShadow, chan_congr (channels_fillShadow _ _ _), chan_modChan]

theorem chanState_fetched (s : State) (c : Nat) (bytes : List Byte) (addr : Nat) : (s.fetched c bytes addr).chanState c = s.chanState c := by
  have hvalid : Apart (chanKey c) (Reg.TRV_STAT.SH_VALID (c % 16)) (chanKey c) (Reg.TRV_STAT.CH_STATE (c % 16)) :=
    .inr (.inr ⟨(by decide : 4 < 32), (by decide : 4 ≤ 4), (by decide : 0 ≤ 3), .inl (by decide : 3 < 4)⟩)
  unfold State.fetched State.setShadow State.chanState
  rw [rf_wb_apart hvalid, rf_modChan]
  exact (chanState_fillShadow (s.modChan c fun x => { x with fetch := none }) c bytes).trans (rf_modChan _ _ _ _ _)

theorem exec_descFetchDone_of_passes {bytes : List (BitVec 8)} {addr : Nat} (hfetch : (s.chan chan).fetch = some (.desc true addr))
    (hlen : bytes.length = 128) (hst : s.chanState chan = chRUNNING)
    (hcheck : (s.modChan chan fun x => { x with fetch := none }).tCheck chan bytes = 0) :
    exec (.descFetchDone chan true bytes) s = .next ((s.fetched chan bytes addr).promote chan) := by
  change execDescFetchDone chan true bytes s = _
  have hrunning : ¬(s.fetched chan bytes addr).chanState chan = chSUSPENDED := by
    rw [chanState_fetched, hst]
    decide
  have htake : (bytes ++ List.replicate 128 0).take 128 = bytes := List.take_left' hlen
  unfold execDescFetchDone
  dsimp only
  rw [hfetch]
  dsimp only
  simp only [if_true, htake]
  rw [if_neg (by decide), if_neg (by decide), if_neg (not_not.2 hcheck)]
  exact congrArg Host.Outcome.next (if_neg hrunning)

/-- A fetched descriptor that passes the checks becomes ACTIVE in an empty channel. -/
theorem descFetchDone_effect {bytes : List (BitVec 8)} {addr : Nat} (hfetch : (s.chan chan).fetch = some (.desc true addr))
    (hlen : bytes.length = 128) (hst : s.chanState chan = chRUNNING) (hact : (s.chan chan).act = none)
    (hcheck : (s.modChan chan fun x => { x with fetch := none }).tCheck chan bytes = 0) :
    ∃ t, exec (.descFetchDone chan true bytes) s = .next t ∧ (t.chan chan).act = some { bytes := bytes, addr := some (true, addr) } ∧
      t.chanState chan = chRUNNING := by
  have hchan := chan_fetched s chan bytes addr
  obtain ⟨hpact, hrun⟩ := promote_effect ((congrArg (·.act) hchan).trans hact) (congrArg (·.sh) hchan)
  exact ⟨_, exec_descFetchDone_of_passes hfetch hlen hst hcheck, hpact, hrun⟩

end Commands

/-- Settles O24: each command is one change of a channel, its status and its page. -/
theorem traversesComplete : Obligations.TraversesComplete := by
  unfold Obligations.TraversesComplete
  refine ⟨fun s who chan h hbusy hst hact hcheck => trvCommit_effect h hbusy hst hact hcheck, fun s who chan h hst => trvStartChain_effect h hst,
    fun s who chan h hst => ?_, fun s who chan h hst => trvResume_effect h hst, fun s who chan h hst => ?_,
    fun s who chan index value h hbusy hindex => trvShWrite_word h hbusy hindex value,
    fun s who chan value h hbusy hspace => trvShWrite_ctrl h hbusy value hspace.1 hspace.2,
    fun s chan value howner hoff hst hfetch => trvDoorbell_effect howner hoff hst hfetch value,
    fun s chan bytes addr hfetch hlen hst hact hcheck => descFetchDone_effect hfetch hlen hst hact hcheck,
    fun s group data c d hnext hact hpath => ?_, fun s chan f rest hfin hway => ?_, fun s region line data c hfind => ?_⟩
  · refine ⟨(s.chanCode chan codeOK 0).chanEnter chan chSUSPENDED, ?_, chanState_chanEnter _ _ (by decide), rfl⟩
    change execTrvSuspend who chan s = _
    unfold execTrvSuspend
    rw [chanCommand_of_honours h, if_pos hst]
  · obtain ⟨hidle, hinit, hpend⟩ := chanCancel_effect s chan
    refine ⟨(s.chanCancel chan).chanCode chan codeOK 0, ?_, (chanState_chanCode _ _ _ _).trans hidle, hinit, (dbPend_chanCode _ _ _ _).trans hpend⟩
    change execTrvCancel who chan s = _
    unfold execTrvCancel
    rw [chanCommand_of_honours h, if_neg hst]
  · let u : State := { s with groupLast := mput s.groupLast group (c % 16) }
    refine ⟨u.movePacket c d.bytes (packetBytes d.bytes (s.chan c).elem (s.chan c).byte) data, ?_, ?_, rfl⟩
    · have hact' : (u.chan c).act = some d := hact
      have hpath' : ¬((!true) = true ∨ u.sourcePath c d.bytes = .fenced) := by
        rintro (hok | hfenced)
        · exact Bool.false_ne_true hok
        · exact hpath hfenced
      change execTrvPacket group data true s = _
      unfold execTrvPacket
      rw [hnext]
      dsimp only
      rw [hact']
      exact if_neg hpath'
    · rw [groupLast_movePacket]
      exact mfind_mput_same _ _ _
  · obtain ⟨hdone, hirq⟩ := trvDone_effect s chan f rest
    obtain ⟨hnext, hraised⟩ := trvNext_effect (s.trvDone chan f rest) chan f
    exact ⟨_, exec_trvComplete_of_clear hfin hway, hnext.trans hdone, fun h => hraised.irq (hirq h)⟩
  · refine ⟨_, ?_, rfl, rfl⟩
    change execPortRequest region line data s = _
    unfold execPortRequest
    dsimp only
    rw [hfind]

end Sys2Proof.Machine

namespace Sys2Proof.Machine

/-! ### A read behind a write that was kept (R353, R365). -/

/-- A write to line 0 whose command failed, and a read of the same line. -/
def keptReq : MemReq := ⟨0, 0, 0, some []⟩
def readReq : MemReq := ⟨0, 0, 0, none⟩

/-- Stack 0 after reset, with that write kept until the replacement rank is there. -/
def keptWrite : State := State.reset.modStack 0 fun q => { q with kept := [keptReq] }

theorem out_keptWrite {t : State} (h : exec (.memRequest 0 0 [readReq] 0 0) keptWrite = .next t) : t.out = [] := by
  cases h
  rfl

theorem srState_keptWrite : keptWrite.srState 0 = srACTIVE := by decide

theorem rankOf_keptWrite : keptWrite.rankOf 0 (addrLocal readReq.addr) = some 0 := by decide

/-- Refutes O20: the read of a line with a write kept waits for that write (R353). -/
theorem not_memoryStacksComplete : ¬ Obligations.MemoryStacksComplete := by
  unfold Obligations.MemoryStacksComplete
  intro h
  obtain ⟨hread, _⟩ := h
  have hchannel : keptWrite.reqChannel 0 readReq = 0 := by
    unfold State.reqChannel
    rw [rankOf_keptWrite]
  obtain ⟨t, hexec, hreply, _⟩ := hread keptWrite 0 0 readReq srState_keptWrite rfl rfl rfl rfl (by decide) hchannel
    (congrArg Option.isSome rankOf_keptWrite)
  rw [out_keptWrite hexec] at hreply
  exact absurd hreply (List.not_mem_nil)

end Sys2Proof.Machine

namespace Sys2Proof.Machine

/-! ### Interval measurement (R90-R97). -/

theorem Quiet.foldl {α : Type} {f : State → α → State} (h : ∀ s x, Quiet (f s x) s) (xs : List α) (s : State) : Quiet (xs.foldl f s) s := by
  induction xs generalizing s with
  | nil => exact .refl s
  | cons x xs ih => exact (ih (f s x)).trans (h s x)

theorem writeStops_quiet (s : State) (start : Int) (stops : List TdcEdge) : Quiet (s.writeStops start stops) s := by
  unfold State.writeStops
  refine Quiet.foldl (fun u i => ?_) _ s
  cases stops[i]? with
  | none => exact (setReg_quiet _ _ _ _).trans (setReg_quiet u _ _ _)
  | some e => exact (setReg_quiet _ _ _ _).trans (setReg_quiet u _ _ _)

theorem writeStops_raised (s : State) (start : Int) (stops : List TdcEdge) : Raised (s.writeStops start stops) s := by
  unfold State.writeStops
  refine Raised.foldl (fun u i => ?_) _ s
  cases stops[i]? with
  | none => exact (setReg_raised _ _ _ _).trans (setReg_raised u _ _ _)
  | some e => exact (setReg_raised _ _ _ _).trans (setReg_raised u _ _ _)

theorem exec_measure_of_takes {s : State} {who : Issuer} {tag : Nat} (ht : s.takes who keyTDC) (hmask : s.rf keyTDC Reg.TDC_STOP_MASK.MASK ≠ 0)
    (hcount : 1 ≤ s.rf keyTDC Reg.TDC_CFG.STOP_COUNT ∧ s.rf keyTDC Reg.TDC_CFG.STOP_COUNT ≤ 16) :
    ∃ t, exec (.measure who tag) s = .next t ∧ t.tdc.mode = .waitStart ∧ t.tdc.edges = [] ∧ t.tdc.misses = 0 ∧
      (t.page keyTDC).cmdStat = cmdStatWord tag phaseRUNNING 0 codeOK := by
  refine ⟨(s.accept keyTDC (s.latch keyTDC 0x0100 tag)).modTdc fun d =>
        { d with mode := .waitStart, edges := [], misses := 0,
                 deadline := s.fineTime (s.six + s.rf keyTDC Reg.TDC_START_WAIT.MS * sixPerMs) 0 }, ?_, rfl, rfl, rfl, ?_⟩
  · change execMeasure who tag s = _
    unfold execMeasure
    rw [command_of_takes ht]
    dsimp only
    rw [if_neg (by omega)]
  · change ((s.accept keyTDC _).page keyTDC).cmdStat = _
    rw [page_accept_same]
    exact cmdStatWord_tag_mod ..

theorem exec_freqMeas_of_takes {s : State} {who : Issuer} {tag : Nat} (ht : s.takes who keyTDC) (hin : (s.page keyTDC).a0.toNat % 16 ≤ 8)
    (hgate : 1 ≤ (s.page keyTDC).a1.toNat ∧ (s.page keyTDC).a1.toNat ≤ 10000) :
    ∃ t, exec (.freqMeas who tag) s = .next t ∧ t.tdc.mode = .counting ∧ t.tdc.freqIn = (s.page keyTDC).a0.toNat % 16 ∧ t.tdc.freqN = 0 ∧
      (t.page keyTDC).cmdStat = cmdStatWord tag phaseRUNNING 0 codeOK := by
  refine ⟨(s.accept keyTDC (s.latch keyTDC 0x0101 tag)).modTdc fun d =>
        { d with mode := .counting, freqIn := (s.page keyTDC).a0.toNat % 16, freqN := 0, freqFirst := 0, freqLast := 0,
                 deadline := s.fineTime (s.six + (s.page keyTDC).a1.toNat * sixPerMs) 0 }, ?_, rfl, rfl, rfl, ?_⟩
  · change execFreqMeas who tag s = _
    unfold execFreqMeas
    rw [command_of_takes ht]
    have hgood : ¬(8 < (s.page keyTDC).a0.toNat % 16 ∨ (s.page keyTDC).a1.toNat = 0 ∨ 10000 < (s.page keyTDC).a1.toNat) := by omega
    exact congrArg Host.Outcome.next (if_neg hgood)
  · change ((s.accept keyTDC _).page keyTDC).cmdStat = _
    rw [page_accept_same]
    exact cmdStatWord_tag_mod ..

/-- The edge as it is noted. -/
def State.edgeOf (s : State) (input : Nat) (falling : Bool) (six fine : Nat) : TdcEdge :=
  { input := input, falling := falling, t := s.fineTime six fine }

/-- What TDC_EDGE notes of an edge before it is taken. -/
def State.noteEdge (s : State) (e : TdcEdge) (six : Nat) : State := (s.advanceTo six).modTdc fun d => { d with last := tdcRemember d.last e }

theorem exec_tdcEdge_counting {s : State} {input : Nat} {falling : Bool} {six fine : Nat}
    (hdead : tdcDead s.tdc.last (s.edgeOf input falling six fine) = false) (hmode : s.tdc.mode = .counting) (hin : input = s.tdc.freqIn)
    (hfalling : falling = false) (hgate : s.fineTime six fine ≤ s.tdc.deadline) :
    ∃ t, exec (.tdcEdge input falling six fine) s = .next t ∧ t.tdc.freqN = s.tdc.freqN + 1 ∧ t.tdc.freqLast = s.fineTime six fine ∧
      t.tdc.last = tdcRemember s.tdc.last (s.edgeOf input falling six fine) := by
  refine ⟨(s.noteEdge (s.edgeOf input falling six fine) six).modTdc fun d =>
    { d with freqN := d.freqN + 1, freqFirst := if d.freqN = 0 then s.fineTime six fine else d.freqFirst, freqLast := s.fineTime six fine },
    ?_, rfl, rfl, rfl⟩
  change execTdcEdge input falling six fine s = _
  unfold execTdcEdge
  dsimp only
  rw [if_neg (by rw [show (s.advanceTo six).tdc = s.tdc from rfl]; exact Bool.eq_false_iff.mp hdead)]
  have hmode' : ((s.advanceTo six).modTdc fun d => { d with last := tdcRemember d.last (s.edgeOf input falling six fine) }).tdc.mode = .counting :=
    hmode
  have htaken : input = s.tdc.freqIn ∧ falling = false ∧ s.fineTime six fine ≤ s.tdc.deadline := ⟨hin, hfalling, hgate⟩
  unfold State.edgeOf at hmode'
  rw [hmode']
  exact if_pos htaken

theorem exec_tdcEdge_start {s : State} {input : Nat} {falling : Bool} {six fine : Nat}
    (hdead : tdcDead s.tdc.last (s.edgeOf input falling six fine) = false) (hmode : s.tdc.mode = .waitStart)
    (hwait : s.fineTime six fine ≤ s.tdc.deadline) (hstart : s.isStart (s.edgeOf input falling six fine) = true) (hedges : s.tdc.edges = [])
    (hcount : 1 ≤ s.rf keyTDC Reg.TDC_CFG.STOP_COUNT) :
    ∃ t, exec (.tdcEdge input falling six fine) s = .next t ∧ t.tdc.mode = .measuring ∧ t.tdc.start = s.fineTime six fine ∧
      t.tdc.startAt = (six, fine % 65536) ∧ t.tdc.edges = [] := by
  have hexec : exec (.tdcEdge input falling six fine) s =
      .next ((s.noteEdge (s.edgeOf input falling six fine) six).tdcStart (s.edgeOf input falling six fine) six fine) := by
    change execTdcEdge input falling six fine s = _
    unfold execTdcEdge
    dsimp only
    rw [if_neg (by rw [show (s.advanceTo six).tdc = s.tdc from rfl]; exact Bool.eq_false_iff.mp hdead)]
    have hmode' : ((s.advanceTo six).modTdc fun d => { d with last := tdcRemember d.last (s.edgeOf input falling six fine) }).tdc.mode = .waitStart :=
      hmode
    unfold State.edgeOf at hmode'
    rw [hmode']
    exact (if_neg (Int.not_lt.mpr hwait)).trans (if_pos hstart)
  have hearly : (s.noteEdge (s.edgeOf input falling six fine) six).tdc.edges = [] := hedges
  have hcount' : ¬(s.noteEdge (s.edgeOf input falling six fine) six).rf keyTDC Reg.TDC_CFG.STOP_COUNT ≤ 0 := Nat.not_le.mpr hcount
  refine ⟨_, hexec, ?_⟩
  unfold State.tdcStart
  dsimp only
  rw [hearly]
  simp only [List.filter_nil, List.foldl_nil, List.length_nil, Nat.sub_self, Nat.lt_irrefl, if_false]
  rw [if_neg]
  · exact ⟨rfl, rfl, rfl, rfl⟩
  · exact hcount'

/-- MEASURE ends DONE with the window free. -/
theorem measureDone_effect {s : State} {op : Op} (hop : (s.page keyTDC).op = some op) (hsusp : op.suspended = false)
    (hfree : (s.page keyTDC).resReady = false) (timeout : Bool) :
    (s.measureDone timeout).tdc.mode = .idle ∧ ((s.measureDone timeout).page keyTDC).cmdStat = cmdStatWord op.tag phaseDONE 0 codeOK ∧
      ((s.measureDone timeout).page keyTDC).resReady = true := by
  let idle : State := s.modTdc fun d => { d with mode := .idle }
  have hraised : Raised (idle.writeStops idle.tdc.start s.tdc.edges) idle := writeStops_raised _ _ _
  have hdone : s.measureDone timeout = (idle.writeStops idle.tdc.start s.tdc.edges).doneWith keyTDC (s.measureResult timeout) := by
    unfold State.measureDone
    dsimp only
    rw [if_neg (by rw [show ((s.modTdc fun d => { d with mode := .idle }).page keyTDC).resReady = _ from hfree]; decide)]
  rw [hdone]
  have hpage := page_doneWith_same ((hraised.get keyTDC (·.op)).trans hop) hsusp ((hraised.get keyTDC (·.resReady)).trans hfree)
      (s.measureResult timeout)
  exact ⟨((doneWith_quiet _ _ _).trans (writeStops_quiet _ _ _)).get (·.tdc.mode), by rw [hpage], by rw [hpage]⟩

theorem exec_tdcTimeout_of_measuring {s : State} (hmode : s.tdc.mode = .measuring) :
    exec .tdcTimeout s = .next ((s.advanceTo (s.sixOf s.tdc.deadline)).measureDone true) := if_pos hmode

/-- The state in which the wait or the gate has ended, nothing measured any more. -/
def State.gateEnded (s : State) : State := (s.advanceTo (s.sixOf s.tdc.deadline)).modTdc fun d => { d with mode := .idle }

theorem exec_startWaitExpiry_of_waiting {s : State} (hmode : s.tdc.mode = .waitStart) : exec .tdcStartWaitExpiry s =
    .next (s.gateEnded.failOp keyTDC codeTIMEOUT 0x02) := if_pos hmode

theorem exec_freqGateEnd_few {s : State} (hmode : s.tdc.mode = .counting) (hfew : s.tdc.freqN < 2) :
    exec .freqGateEnd s = .next (s.gateEnded.failOp keyTDC codeTIMEOUT 0x03) := (if_pos hmode).trans (if_pos hfew)

theorem exec_freqGateEnd_enough {s : State} (hmode : s.tdc.mode = .counting) (hfew : 2 ≤ s.tdc.freqN) :
    ∃ ws, exec .freqGateEnd s = .next (s.gateEnded.doneWith keyTDC (word s.tdc.freqN :: ws)) :=
  ⟨_, (if_pos hmode).trans (if_neg (Nat.not_lt.mpr hfew))⟩

theorem failOp_effect {s : State} {op : Op} (hop : (s.page keyTDC).op = some op) (hmode : s.tdc.mode = .idle) (sub : Nat) :
    (s.failOp keyTDC codeTIMEOUT sub).tdc.mode = .idle ∧
      ((s.failOp keyTDC codeTIMEOUT sub).page keyTDC).cmdStat = cmdStatWord op.tag phaseFAILED sub codeTIMEOUT :=
  ⟨((failOp_quiet s _ _ _).get (·.tdc.mode)).trans hmode, congrArg Page.cmdStat (page_endOp_same hop _ _ _)⟩

/-- Settles O9, command by command: what the TDC's configuration takes, an edge by the mode it meets, and the three ends. -/
theorem intervalMeasurementCompletes : Obligations.IntervalMeasurementCompletes := by
  unfold Obligations.IntervalMeasurementCompletes
  refine ⟨fun s who tag ht hmask hcount => exec_measure_of_takes ht hmask hcount, fun s who tag ht hin hgate => exec_freqMeas_of_takes ht hin hgate,
    fun s input falling six fine hdead hmode hin hf hgate => exec_tdcEdge_counting hdead hmode hin hf hgate,
    fun s input falling six fine hdead hmode hwait hstart hedges hcount => exec_tdcEdge_start hdead hmode hwait hstart hedges hcount,
    fun s op hmode hop hsusp hfree => ?_, fun s op hmode hop => ?_, fun s op hmode hfew hop => ?_, fun s op hmode hfew hop hsusp hfree => ?_⟩
  · exact ⟨_, exec_tdcTimeout_of_measuring hmode, measureDone_effect (s := s.advanceTo (s.sixOf s.tdc.deadline)) hop hsusp hfree true⟩
  · exact ⟨_, exec_startWaitExpiry_of_waiting hmode, failOp_effect (s := s.gateEnded) hop rfl _⟩
  · exact ⟨_, exec_freqGateEnd_few hmode hfew, failOp_effect (s := s.gateEnded) hop rfl _⟩
  · obtain ⟨ws, hexec⟩ := exec_freqGateEnd_enough hmode hfew
    have hpage := page_doneWith_same (s := s.gateEnded) hop hsusp hfree (word s.tdc.freqN :: ws)
    exact ⟨_, hexec, (doneWith_quiet _ _ _).get (·.tdc.mode), by rw [hpage], by rw [hpage]; rfl⟩

end Sys2Proof.Machine

namespace Sys2Proof.Machine

/-! ### The time base (R67-R89). -/

/-- The index in three registers is the one written. -/
theorem six3_setSix3 (s : State) (key off six : Nat) (h : six < 2 ^ 72) : (s.setSix3 key off six).six3 key off = six := by
  unfold State.setSix3 State.six3
  rw [reg_setReg_other _ _ _ (by omega), reg_setReg_other _ _ _ (by omega), State.reg_setReg, reg_setReg_other _ _ _ (by omega),
      State.reg_setReg, State.reg_setReg]
  simp only [BitVec.toNat_ofNat]
  omega

theorem setSix3_quiet (s : State) (key off six : Nat) : Quiet (s.setSix3 key off six) s := rfl

theorem emit_out (s : State) (o : Output) : (s.emit o).out = s.out ++ [o] := rfl

/-! ### The 1 ms check (R70-R72). -/

/-- From `s` to `t` the counts of good and bad checks of REFIN are as they were. -/
def RefinKept (t s : State) : Prop := t.tb.refinGood = s.tb.refinGood ∧ t.tb.refinBad = s.tb.refinBad

theorem RefinKept.refl (s : State) : RefinKept s s := ⟨rfl, rfl⟩

theorem RefinKept.trans {t u s : State} (h1 : RefinKept t u) (h2 : RefinKept u s) : RefinKept t s := ⟨h1.1.trans h2.1, h1.2.trans h2.2⟩

theorem Quiet.refinKept {t s : State} (h : Quiet t s) : RefinKept t s := ⟨h.get (·.tb.refinGood), h.get (·.tb.refinBad)⟩

theorem tbEnter_quiet (s : State) (n : Nat) : Quiet (s.tbEnter n) s := .ite (.refl s) ((irqBit_quiet _ _ _).trans (wf_quiet s _ _ _))

theorem tbReferences_refinKept (s : State) : RefinKept s.tbReferences s := by
  have henter (u : State) (src n : Nat) : Quiet ((u.wf keyTBS Reg.TBS_STATE.FREQ_SRC src).tbEnter n) u := (tbEnter_quiet _ n).trans (wf_quiet u _ _ _)
  unfold State.tbReferences
  dsimp only
  split
  · exact (henter s _ _).refinKept
  · exact (henter s _ _).refinKept
  · exact ((setErr_quiet _ _ _).trans (henter _ _ _)).refinKept.trans ⟨rfl, rfl⟩
  · exact (henter s _ _).refinKept
  · exact (wf_quiet s _ _ _).refinKept
  · exact .refl s

theorem setSteer_refinKept (s : State) (v : Int) : RefinKept (s.setSteer v) s := by
  unfold State.setSteer
  dsimp only
  split
  · exact ⟨rfl, rfl⟩
  · exact (setErr_quiet _ _ _).refinKept.trans ⟨rfl, rfl⟩

theorem refSteer_refinKept (s : State) (target : Int) (fit : Option Int) : RefinKept (s.refSteer target fit) s := by
  unfold State.refSteer
  split
  · exact setSteer_refinKept s _
  · exact setSteer_refinKept s _
  · dsimp only
    have hmean (u : State) (f : List Int) : RefinKept (u.modTb fun t => { t with steerHist := f }) u := ⟨rfl, rfl⟩
    cases fit with
    | none => exact (hmean _ _).trans (setSteer_refinKept s _)
    | some v =>
      dsimp only
      split
      · exact (wf_quiet _ _ _ _).refinKept.trans ((hmean _ _).trans (setSteer_refinKept s _))
      · exact (hmean _ _).trans (setSteer_refinKept s _)

theorem ptpLapse_refinKept (s : State) : RefinKept s.ptpLapse s := by
  unfold State.ptpLapse
  split
  · split
    · exact ⟨rfl, rfl⟩
    · exact .refl s
  · exact .refl s

theorem refPresence_refin {s : State} (hon : s.rb keyTBS Reg.TBS_CFG.REF_EN = true) (amplMv hz : Nat) (ptpOk : Bool) :
    (s.refPresence amplMv hz ptpOk).tb.refinGood = (if refinValid (s.rf keyTBS Reg.TBS_CFG.REF_FREQ) amplMv hz then s.tb.refinGood + 1 else 0) ∧
      (s.refPresence amplMv hz ptpOk).tb.refinBad = (if refinValid (s.rf keyTBS Reg.TBS_CFG.REF_FREQ) amplMv hz then 0 else s.tb.refinBad + 1) := by
  have hlast (u : State) (c : Bool) : RefinKept (if c then u.setErr keyTBS errPTP_LOST else u) u := by
    cases c with
    | true => exact (setErr_quiet u _ _).refinKept
    | false => exact .refl u
  unfold State.refPresence
  dsimp only
  rw [(hlast _ _).1, (hlast _ _).2]
  simp only [hon, if_true]
  cases refinValid (s.rf keyTBS Reg.TBS_CFG.REF_FREQ) amplMv hz with
  | true => exact ⟨rfl, rfl⟩
  | false => exact ⟨rfl, rfl⟩

theorem exec_refCheck {s : State} (hst : (s.page keyTBS).st ≠ .fault) (hon : s.rb keyTBS Reg.TBS_CFG.REF_EN = true) (amplMv hz : Nat) (ptpOk : Bool)
    (target : Int) (fit : Option Int) :
    ∃ t, exec (.refCheck amplMv hz ptpOk target fit) s = .next t ∧
      t.tb.refinGood = (if refinValid (s.rf keyTBS Reg.TBS_CFG.REF_FREQ) amplMv hz then s.tb.refinGood + 1 else 0) ∧
      t.tb.refinBad = (if refinValid (s.rf keyTBS Reg.TBS_CFG.REF_FREQ) amplMv hz then 0 else s.tb.refinBad + 1) := by
  have hkept : RefinKept (((s.refPresence amplMv hz ptpOk).tbReferences.refSteer target fit).ptpLapse) (s.refPresence amplMv hz ptpOk) :=
    (ptpLapse_refinKept _).trans ((refSteer_refinKept _ _ _).trans (tbReferences_refinKept _))
  obtain ⟨hgood, hbad⟩ := refPresence_refin hon amplMv hz ptpOk
  exact ⟨_, if_neg hst, hkept.1.trans hgood, hkept.2.trans hbad⟩

/-! ### Locks, faults and benchmarks (R72, R80-R82). -/

theorem exec_tbLocked {s : State} (hacquire : s.rf keyTBS Reg.TBS_STATE.TB_STATE = 1) :
    ∃ t, exec .tbLocked s = .next t ∧ t.rf keyTBS Reg.TBS_STATE.TB_STATE = 2 := by
  refine ⟨s.tbEnter 2, congrArg Host.Outcome.next (if_pos hacquire), ?_⟩
  unfold State.tbEnter
  rw [if_neg (by omega), rf_irqBit]
  exact rf_wf_same s _ 2 (by decide) (by decide)

theorem exec_xtalFault (s : State) : ∃ t, exec .xtalFault s = .next t ∧ t.tb.sync = none ∧ t.tb.setSecs = none ∧ t.safeReq.isSome = true := by
  refine ⟨_, rfl, ?_, rfl, ?_⟩
  · exact congrArg TimeBase.sync (syncOff_tb (s.faultBlock keyTBS errXTAL_FAULT))
  · dsimp only
    split
    · rfl
    · next h => exact Option.isSome_iff_ne_none.mpr fun hnone => h (by rw [hnone]; rfl)

theorem exec_benchmark {s : State} (hrun : s.tb.running = true) (y : Int) (uncertainty : Nat) :
    ∃ t, exec (.benchmark y uncertainty) s = .next t ∧ t.tb.benchSix = s.tb.nextBench ∧ t.tb.nextBench = sixAdd s.tb.nextBench sixPerMs ∧
      t.tb.pendStep = none := by
  change ∃ t, execBenchmark y uncertainty s = _ ∧ _
  unfold execBenchmark
  rw [if_neg (by rw [hrun]; decide)]
  exact ⟨_, rfl, rfl, rfl, rfl⟩

/-! ### PTP (R73, R74). -/

theorem exec_ptpMessage (port domain transport : Nat) (m : PtpMsg) (masterPs six fine : Nat) (s : State) :
    exec (.ptpMessage port domain transport m masterPs six fine) s = execPtpMessage port domain transport m masterPs six fine s := rfl

/-- A message of the clock's port, domain and transport is taken. -/
theorem ptp_taken {s : State} {port domain transport : Nat} (hen : s.rb keyTBS Reg.TBS_CFG.PTP_EN = true)
    (hport : port = s.rf keyTBS Reg.TBS_PTP_CFG.PORT) (hdomain : domain = s.rf keyTBS Reg.TBS_PTP_CFG.DOMAIN)
    (htransport : transport = s.rf keyTBS Reg.TBS_PTP_CFG.TRANSPORT) :
    ¬(!(s.rb keyTBS Reg.TBS_CFG.PTP_EN && decide (port = s.rf keyTBS Reg.TBS_PTP_CFG.PORT) &&
       decide (domain = s.rf keyTBS Reg.TBS_PTP_CFG.DOMAIN) && decide (transport = s.rf keyTBS Reg.TBS_PTP_CFG.TRANSPORT))) = true := by
  simp [hen, hport, hdomain, htransport]

/-- A master in its time is the master still. -/
theorem ptpLapse_inTime {s : State} {source ds : Nat} {until_ : Int} (hmaster : s.tb.ptpMaster = some (source, ds, until_))
    (htime : s.elapsed s.six ≤ until_) : s.ptpLapse = s := by
  unfold State.ptpLapse
  rw [hmaster]
  exact if_neg (Int.not_lt.mpr htime)

theorem ptpLapse_noMaster {s : State} (hmaster : s.tb.ptpMaster = none) : s.ptpLapse = s := by
  unfold State.ptpLapse
  rw [hmaster]

theorem fromMaster_of_master {s : State} {source ds : Nat} {until_ : Int} (hmaster : s.tb.ptpMaster = some (source, ds, until_)) :
    s.fromMaster source = true := by
  unfold State.fromMaster
  rw [hmaster]
  exact decide_eq_true rfl

section
variable {s : State} {port domain transport source seq masterPs six fine : Nat} {egress : Nat × Nat} {ds : Nat} {until_ : Int}
  (hen : s.rb keyTBS Reg.TBS_CFG.PTP_EN = true) (hport : port = s.rf keyTBS Reg.TBS_PTP_CFG.PORT)
  (hdomain : domain = s.rf keyTBS Reg.TBS_PTP_CFG.DOMAIN) (htransport : transport = s.rf keyTBS Reg.TBS_PTP_CFG.TRANSPORT)
include hen hport hdomain htransport

theorem exec_ptp_announce (hnone : s.tb.ptpMaster = none) (utc : Int) (dataset intervalMs : Nat) :
    ∃ t, exec (.ptpMessage port domain transport { kind := .announce utc dataset intervalMs, source := source, seq := seq, egress :=
        egress } masterPs six fine) s =
      .next t ∧ t.tb.utc = utc ∧ t.fromMaster source = true := by
  refine ⟨(s.advanceTo six).ptpAnnounce source dataset intervalMs utc, ?_, ?_⟩
  · exact (if_neg (ptp_taken hen hport hdomain htransport)).trans
      (congrArg (fun u => Host.Outcome.next (State.ptpAnnounce u source dataset intervalMs utc)) (ptpLapse_noMaster (s := s.advanceTo six) hnone))
  · unfold State.ptpAnnounce
    rw [show (s.advanceTo six).tb.ptpMaster = none from hnone]
    exact ⟨rfl, decide_eq_true rfl⟩

variable (hmaster : s.tb.ptpMaster = some (source, ds, until_)) (htime : s.elapsed (s.advanceTo six).six ≤ until_)
include hmaster htime

theorem exec_ptp_oneStep :
    ∃ t, exec (.ptpMessage port domain transport { kind := .syncOneStep, source := source, seq := seq, egress := egress } masterPs six fine)
        s = .next t ∧
      t.tb.ptpSync = seq ∧ t.tb.ptpT1 = some masterPs ∧ t.tb.ptpT2.isSome = true ∧ t.tb.ptpT3.isSome = true := by
  have hlapse : (s.advanceTo six).ptpLapse = s.advanceTo six := ptpLapse_inTime (s := s.advanceTo six) hmaster htime
  rw [exec_ptpMessage]
  unfold execPtpMessage
  rw [if_neg (ptp_taken hen hport hdomain htransport)]
  dsimp only
  rw [hlapse, if_neg (by rw [fromMaster_of_master (s := s.advanceTo six) hmaster]; decide)]
  exact ⟨_, rfl, rfl, rfl, rfl, rfl⟩

theorem exec_ptp_twoStep :
    ∃ t, exec (.ptpMessage port domain transport { kind := .syncTwoStep, source := source, seq := seq, egress := egress } masterPs six fine)
        s = .next t ∧
      t.tb.ptpSync = seq ∧ t.tb.ptpT1 = none ∧ t.tb.ptpT2.isSome = true ∧ t.tb.ptpT3 = none := by
  have hlapse : (s.advanceTo six).ptpLapse = s.advanceTo six := ptpLapse_inTime (s := s.advanceTo six) hmaster htime
  rw [exec_ptpMessage]
  unfold execPtpMessage
  rw [if_neg (ptp_taken hen hport hdomain htransport)]
  dsimp only
  rw [hlapse, if_neg (by rw [fromMaster_of_master (s := s.advanceTo six) hmaster]; decide)]
  exact ⟨_, rfl, rfl, rfl, rfl, rfl⟩

theorem exec_ptp_followUp (hseq : s.tb.ptpSync = seq) (hsync : s.tb.ptpT2.isSome = true) :
    ∃ t, exec (.ptpMessage port domain transport { kind := .followUp, source := source, seq := seq, egress := egress } masterPs six fine)
        s = .next t ∧
      t.tb.ptpT1 = some masterPs ∧ t.tb.ptpT3.isSome = true ∧ t.tb.ptpReq = (s.tb.ptpReq + 1) % 65536 := by
  have hlapse : (s.advanceTo six).ptpLapse = s.advanceTo six := ptpLapse_inTime (s := s.advanceTo six) hmaster htime
  have hits : ¬(!(s.advanceTo six).fromMaster source || decide (seq ≠ s.tb.ptpSync) || s.tb.ptpT2.isNone) = true := by
    rw [fromMaster_of_master (s := s.advanceTo six) hmaster, hseq]
    cases hT2 : s.tb.ptpT2 with
    | none => rw [hT2] at hsync; cases hsync
    | some t2 => simp
  rw [exec_ptpMessage]
  unfold execPtpMessage
  rw [if_neg (ptp_taken hen hport hdomain htransport)]
  dsimp only
  rw [hlapse]
  exact ⟨_, if_neg hits, rfl, rfl, rfl⟩

theorem exec_ptp_delayResp (hreq : s.tb.ptpReq = seq) (hT : s.tb.ptpT1.isSome = true ∧ s.tb.ptpT2.isSome = true ∧ s.tb.ptpT3.isSome = true) :
    ∃ t, exec (.ptpMessage port domain transport { kind := .delayResp (Config.ptpIdentity port), source := source, seq := seq, egress := egress }
        masterPs six fine) s = .next t ∧ t.tb.ptpT1 = none ∧ t.tb.ptpT2 = none ∧ t.tb.ptpT3 = none := by
  obtain ⟨h1, h2, h3⟩ := hT
  obtain ⟨t1, hT1⟩ := Option.isSome_iff_exists.mp h1
  obtain ⟨t2, hT2⟩ := Option.isSome_iff_exists.mp h2
  obtain ⟨t3, hT3⟩ := Option.isSome_iff_exists.mp h3
  have hlapse : (s.advanceTo six).ptpLapse = s.advanceTo six := ptpLapse_inTime (s := s.advanceTo six) hmaster htime
  refine ⟨(s.advanceTo six).ptpOffset t1 t2 t3 masterPs, ?_, ?_⟩
  · rw [exec_ptpMessage]
    unfold execPtpMessage
    rw [if_neg (ptp_taken hen hport hdomain htransport)]
    dsimp only
    rw [hlapse, show (s.advanceTo six).tb = s.tb from rfl, hT1, hT2, hT3]
    refine if_pos ?_
    rw [fromMaster_of_master (s := s.advanceTo six) hmaster, hreq]
    simp
  · unfold State.ptpOffset
    dsimp only
    split
    · exact ⟨rfl, rfl, rfl⟩
    · exact ⟨rfl, rfl, rfl⟩

end

/-! ### PPS and the edges of SYNCIN (R75, R84-R89). -/

theorem applySetTime_setSecs (s : State) (six fine : Nat) : (s.applySetTime six fine).tb.setSecs = none ∧
    (s.applySetTime six fine).tb.ppsLast = s.tb.ppsLast := by
  unfold State.applySetTime
  cases h : s.tb.setSecs with
  | none => exact ⟨h, rfl⟩
  | some secs =>
    dsimp only
    split
    · exact ⟨(failOp_quiet _ _ _ _).get (·.tb.setSecs), (failOp_quiet _ _ _ _).get (·.tb.ppsLast)⟩
    · exact ⟨(doneOp_quiet _ _).get (·.tb.setSecs), (doneOp_quiet _ _).get (·.tb.ppsLast)⟩

theorem ppsSecond_tb (s : State) (six fine : Nat) : (s.ppsSecond six fine).tb.setSecs = s.tb.setSecs ∧
    (s.ppsSecond six fine).tb.ppsLast = s.tb.ppsLast := by
  unfold State.ppsSecond
  dsimp only
  split
  · exact ⟨rfl, rfl⟩
  · exact ⟨rfl, rfl⟩

theorem exec_ppsInEdge {s : State} {highNs : Nat} (hheld : 100 ≤ highNs) (hen : s.rb keyTBS Reg.TBS_CFG.PPS_IN_EN = true) (six fine : Nat) :
    ∃ t, exec (.ppsInEdge six fine highNs) s = .next t ∧ t.tb.ppsLast = some (s.elapsed six) ∧ t.tb.setSecs = none := by
  change ∃ t, execPpsInEdge six fine highNs s = _ ∧ _
  unfold execPpsInEdge
  rw [if_neg (fun h => h.elim (by omega) fun hoff => hoff hen)]
  extract_lets s0 ok good s1 s2
  have hkept : s2.tb = s1.tb := by
    unfold s2
    split
    · rfl
    · rfl
  have hlast : s2.tb.ppsLast = some (s.elapsed six) := by rw [hkept]; rfl
  refine ⟨_, rfl, ?_⟩
  cases hsecs : s2.tb.setSecs with
  | some secs =>
    obtain ⟨hnone, hpps⟩ := applySetTime_setSecs s2 six fine
    exact ⟨hpps.trans hlast, hnone⟩
  | none =>
    cases ok with
    | true =>
      obtain ⟨hnone, hpps⟩ := ppsSecond_tb s2 six fine
      exact ⟨hpps.trans hlast, hnone.trans hsecs⟩
    | false => exact ⟨hlast, hsecs⟩

theorem exec_ppsOutEdge_rise {s : State} {six : Nat} (hlow : s.tb.ppsOut = false) (hsecond : s.timePs six 0 % psPerSecond ≤ 2000) :
    ∃ t, exec (.ppsOutEdge six) s = .next t ∧ t.tb.ppsOut = true ∧ t.out = s.out ++ [.ppsOut six true] := by
  change ∃ t, execPpsOutEdge six s = _ ∧ _
  unfold execPpsOutEdge
  dsimp only
  rw [if_neg (by rw [hlow]; decide), if_pos (.inl hsecond)]
  exact ⟨_, rfl, rfl, rfl⟩

theorem exec_syncinEdge_captured {s : State} {o : SyncOp} {six fine heldNs : Nat} {falling : Bool} (hheld : 2 ≤ heldNs) (hsync : s.tb.sync = some o)
    (hpol : o.falling = falling) (hnow : o.isNow = false) (hedge : o.edge = none) (hfirst : o.first = none) :
    ∃ t, exec (.syncinEdge six fine falling heldNs) s = .next t ∧ t.tb.sync.map (·.edge) = some (some (six, fine)) := by
  refine ⟨((s.advanceTo six).captureEdge o six fine).modTb fun t =>
    { t with sync := some { o with first := some (((s.advanceTo six).captureEdge o six fine).elapsed six), edge := some (six, fine) } }, ?_, rfl⟩
  change execSyncinEdge six fine falling heldNs s = _
  unfold execSyncinEdge
  rw [if_neg (by omega)]
  dsimp only
  rw [show (s.advanceTo six).tb.sync = some o from hsync]
  dsimp only
  rw [if_neg (not_not_intro hpol), if_neg (by rw [hnow, hedge]; decide), hfirst]

theorem rf_count_below {s : State} {key : Nat} {f : RegField} (hh : f.hi < 32) (hl : f.lo ≤ f.hi)
    (h : s.rf key f < 2 ^ (f.hi + 1 - f.lo) - 1) : (s.count key f).rf key f = s.rf key f + 1 := by
  unfold State.count
  rw [rf_wf_same s key _ hh hl]
  have hinc : satInc (2 ^ (f.hi + 1 - f.lo) - 1) (s.rf key f) = s.rf key f + 1 := by
    unfold satInc
    exact if_pos h
  rw [hinc, Nat.mod_eq_of_lt (by omega)]

theorem exec_syncinEdge_ignored {s : State} {six fine heldNs : Nat} {falling : Bool} (hheld : 2 ≤ heldNs) (hsync : s.tb.sync = none)
    (hpol : s.rb keyTBS Reg.TBS_SYNC_CFG.EDGE = falling) (hroom : s.rf keyTBS Reg.TBS_SYNC_STAT.IGNORED < 65535) :
    ∃ t, exec (.syncinEdge six fine falling heldNs) s = .next t ∧
        t.rf keyTBS Reg.TBS_SYNC_STAT.IGNORED = s.rf keyTBS Reg.TBS_SYNC_STAT.IGNORED + 1 := by
  refine ⟨(s.advanceTo six).count keyTBS Reg.TBS_SYNC_STAT.IGNORED, ?_, rf_count_below (s := s.advanceTo six) (by decide) (by decide) hroom⟩
  change execSyncinEdge six fine falling heldNs s = _
  unfold execSyncinEdge
  rw [if_neg (by omega)]
  dsimp only
  rw [show (s.advanceTo six).tb.sync = none from hsync]
  exact if_pos hpol

theorem exec_syncoutRepeat {s : State} {a : Nat} {rest : List Nat} {o : SyncOp} (hat : s.tb.repeatAt = a :: rest) (hsync : s.tb.sync = some o) :
    ∃ t, exec .syncoutRepeat s = .next t ∧ t.tb.repeatAt = rest ∧ t.out = s.out ++ [.syncout a o.falling] := by
  refine ⟨((s.advanceTo a).modTb fun t => { t with repeatAt := rest }).emit (.syncout a o.falling), ?_, rfl, rfl⟩
  change execSyncoutRepeat s = _
  unfold execSyncoutRepeat
  rw [hat]
  dsimp only
  rw [show ((s.advanceTo a).modTb fun t => { t with repeatAt := rest }).tb.sync = some o from hsync]

theorem exec_syncResetApply {s : State} {o : SyncOp} {six fine : Nat} (hsync : s.tb.sync = some o) (hedge : o.edge = some (six, fine))
    (hcheck : o.check = false) : ∃ t, exec .syncResetApply s = .next t ∧ t.tb.sync = none ∧ t.tb.repeatAt = [] := by
  change ∃ t, execSyncResetApply s = _ ∧ _
  unfold execSyncResetApply
  rw [hsync]
  dsimp only
  rw [hedge]
  dsimp only
  rw [if_neg (by rw [hcheck]; decide)]
  refine ⟨_, rfl, ?_, ?_⟩
  · exact ((doneWith_quiet _ _ _).get (·.tb.sync)).trans (congrArg TimeBase.sync (syncOff_tb _))
  · exact ((doneWith_quiet _ _ _).get (·.tb.repeatAt)).trans (congrArg TimeBase.repeatAt (syncOff_tb _))

theorem exec_armSyncTimeout_effect {s : State} {o : SyncOp} {op : Op} (hsync : s.tb.sync = some o) (hnow : o.isNow = false) (hfirst : o.first = none)
    (hop : (s.page keyTBS).op = some op) :
    ∃ t, exec .armSyncTimeout s = .next t ∧ t.tb.sync = none ∧ (t.page keyTBS).cmdStat = cmdStatWord op.tag phaseFAILED 0x03 codeTIMEOUT := by
  refine ⟨_, exec_armSyncTimeout_of_noEdge hsync hnow hfirst, ?_, ?_⟩
  · exact ((failOp_quiet _ _ _ _).get (·.tb.sync)).trans (congrArg TimeBase.sync (syncOff_tb _))
  · have hop' : ((s.advanceTo o.deadline).syncOff.page keyTBS).op = some op := by
      rw [(syncOff_flagsOnly (s.advanceTo o.deadline)).other keyTBS (by decide)]
      exact hop
    unfold State.failOp
    rw [page_endOp_same hop']

/-- Settles O8, event by event. -/
theorem timeBaseEventsComplete : Obligations.TimeBaseEventsComplete := by
  unfold Obligations.TimeBaseEventsComplete
  refine ⟨fun s amplMv hz ptpOk target fit hst hon => exec_refCheck hst hon amplMv hz ptpOk target fit,
    fun s hacquire => exec_tbLocked hacquire, exec_xtalFault, fun s y uncertainty hrun => exec_benchmark hrun y uncertainty, fun s hsix => ?_,
    fun s port domain transport source seq masterPs six fine egress utc dataset intervalMs hen hport hdomain htransport hnone =>
      exec_ptp_announce hen hport hdomain htransport hnone utc dataset intervalMs,
    fun s port domain transport source seq masterPs six fine egress ds until_ hen hport hdomain htransport hmaster htime =>
      exec_ptp_oneStep hen hport hdomain htransport hmaster htime,
    fun s port domain transport source seq masterPs six fine egress ds until_ hen hport hdomain htransport hmaster htime =>
      exec_ptp_twoStep hen hport hdomain htransport hmaster htime,
    fun s port domain transport source seq masterPs six fine egress ds until_ hen hport hdomain htransport hmaster htime hseq hT2 =>
      exec_ptp_followUp hen hport hdomain htransport hmaster htime hseq hT2,
    fun s port domain transport source seq masterPs six fine egress ds until_ hen hport hdomain htransport hmaster htime hreq hT =>
      exec_ptp_delayResp hen hport hdomain htransport hmaster htime hreq hT,
    fun s six fine highNs hheld hen => exec_ppsInEdge hheld hen six fine, fun s six hlow hsecond => exec_ppsOutEdge_rise hlow hsecond,
    fun s six fine falling heldNs o hheld hsync hpol hnow hedge hfirst => exec_syncinEdge_captured hheld hsync hpol hnow hedge hfirst,
    fun s six fine falling heldNs hheld hsync hpol hroom => exec_syncinEdge_ignored hheld hsync hpol hroom,
    fun s o op hsync hnow hfirst hop => exec_armSyncTimeout_effect hsync hnow hfirst hop,
    fun s a rest o hat hsync => exec_syncoutRepeat hat hsync, fun s o six fine hsync hedge hcheck => exec_syncResetApply hsync hedge hcheck⟩
  exact ⟨s.latchSix, rfl, six3_setSix3 s _ _ _ hsix, rfl⟩

end Sys2Proof.Machine

namespace Sys2Proof.Machine

/-! ### A step on an empty queue (R76): what starts and stops does not move SIX. -/

theorem each_six {α : Type} {f : State → α → State} (h : ∀ s x, (f s x).six = s.six) (xs : List α) (s : State) : (s.each xs f).six = s.six :=
  foldl_kept (g := State.six) h xs s

theorem ite_six {c : Prop} [Decidable c] {a b s : State} (ha : a.six = s.six) (hb : b.six = s.six) : (if c then a else b).six = s.six := by
  split
  · exact ha
  · exact hb

theorem Quiet.six {t s : State} (h : Quiet t s) : t.six = s.six := h.get State.six

theorem chainStart_six (s : State) (p : Nat) : (s.chainStart p).six = s.six := by
  have hest : (s.dropEst p).six = s.six := ite_six rfl rfl
  have hzero (a : Nat) : (((s.dropEst p).chainZero p a).loadNco p a).six = s.six := by
    unfold State.loadNco State.chainZero State.chainBlank State.modChain
    exact hest
  unfold State.chainStart
  dsimp only
  generalize max s.six (s.inputEnd p) = a
  exact ite_six (hzero a) (hzero a)

theorem insetStart_six (s : State) (p k a : Nat) : (s.insetStart p k a).six = s.six := by
  unfold State.insetStart
  rfl

theorem insShow_six (s : State) (p : Nat) : (s.insShow p).six = s.six := rfl

theorem insStart_six (s : State) (p : Nat) : (s.insStart p).six = s.six := by
  unfold State.insStart
  rw [insShow_six]
  exact foldl_kept (g := State.six) (fun u k => insetStart_six u p k _) _ s

theorem queueRecord_six (s : State) (p plane : Nat) (r : Record) : (s.queueRecord p plane r).six = s.six :=
  ite_six (s := s) rfl rfl

theorem closeSpectrum_six (s : State) (p : Nat) : (s.closeSpectrum p).six = s.six := by
  unfold State.closeSpectrum
  split
  · rfl
  · exact queueRecord_six _ _ _ _

theorem flushGroup_six (s : State) (p : Nat) (ws : List (Nat × Word)) : (s.flushGroup p ws).six = s.six := by
  unfold State.flushGroup
  split
  · exact ite_six (closeSpectrum_six _ _) rfl
  · rfl

theorem writeMem_six (s : State) (a : Nat) (bs : List Byte) : (s.writeMem a bs).six = s.six := (writeMem_stored s a bs).get State.six

theorem capStop_six (s : State) (p : Nat) : (s.capStop p).six = s.six := by
  have hmark (c : Prop) [Decidable c] (a : Nat) (bs : List Byte) : (if c then s.writeMem a bs else s).six = s.six := ite_six (writeMem_six s a bs) rfl
  exact ite_six rfl (hmark _ _ _)

theorem startHook_six (s : State) (key : Nat) : (s.startHook key).six = s.six := by
  unfold State.startHook
  dsimp only
  split
  · exact chainStart_six s _
  · exact insStart_six s _
  all_goals rfl

theorem slotClear_six (s : State) (p m label : Nat) : (s.slotClear p m label).six = s.six := ite_six (s := s) rfl rfl

theorem tdDisarm_six (s : State) (p n sample : Nat) : (s.tdDisarm p n sample).six = s.six := ite_six (s := s) rfl rfl

theorem cmpDrop_six (s : State) (n : Nat) : (s.cmpDrop n).six = s.six := by
  unfold State.cmpDrop State.refreshCmp
  dsimp only
  split
  · rfl
  · rfl

theorem chanCancel_six (s : State) (c : Nat) : (s.chanCancel c).six = s.six := by
  have hfields (u : State) : ((((u.setShadow c none).setAct c none).setDbPend c false).chanEnter c chIDLE).six = u.six := by
    unfold State.chanEnter State.setDbPend State.wb
    rfl
  exact hfields (s.modChan c fun _ => DmaChan.init)

theorem stopHook_six (s : State) (key : Nat) : (s.stopHook key).six = s.six := by
  unfold State.stopHook
  dsimp only
  split
  · exact (closeSpectrum_six _ _).trans (flushGroup_six s _ _)
  · rfl
  · exact capStop_six s _
  · rfl
  · exact foldl_kept (g := State.six) (fun _ _ => slotClear_six _ _ _ _) _ s
  · exact foldl_kept (g := State.six) (fun _ _ => tdDisarm_six _ _ _ _) _ s
  · refine foldl_kept (g := State.six) ?_ _ s
    intro u j
    refine foldl_kept (g := State.six) ?_ _ u
    intro v e
    rfl
  · exact cmpDrop_six s _
  · exact each_six chanCancel_six _ s
  · rfl

theorem retire_six (s : State) (addr : Nat) : (s.retire addr).six = s.six := (irqBit_quiet _ _ _).six

theorem retireAll_six (s : State) : s.retireAll.six = s.six := by
  unfold State.retireAll
  cases s.annotUse with
  | none => exact each_six retire_six _ s
  | some a => exact (each_six retire_six _ _).trans (retire_six s a)

theorem enableOuts_six (s : State) : s.enableOuts.six = s.six := by
  have houts : (s.each [0, 1] fun s o =>
      if !s.outEnabled o then s.setOut o outOFF else if s.outState o = outOFF ∧ s.hpd o then s.setOut o outTRAINING else s).six = s.six := by
    refine each_six ?_ _ s
    intro u o
    exact ite_six rfl (ite_six rfl rfl)
  exact ite_six ((retireAll_six _).trans houts) houts

theorem startStopFails_six (s : State) (key : Nat) : (s.startStopFails key).six = s.six := by
  unfold State.startStopFails
  split
  · exact ite_six (failOp_quiet s _ _ _).six rfl
  · rfl

theorem startDone_six (s : State) (key : Nat) : (s.startDone key).six = s.six := by
  have hentered : ((s.startHook key).enter key .active).six = s.six := (enter_quiet _ _ _).six.trans (startHook_six s key)
  exact ite_six ((doneOp_quiet _ _).six.trans (ite_six ((enableOuts_six _).trans hentered) hentered)) (startStopFails_six s key)

theorem stopDone_six (s : State) (key : Nat) : (s.stopDone key).six = s.six :=
  ite_six ((doneOp_quiet _ _).six.trans ((enter_quiet _ _ _).six.trans (stopHook_six s key))) (startStopFails_six s key)

theorem finishStartStop_six (s : State) (key : Nat) : (s.finishStartStop key).six = s.six := by
  unfold State.finishStartStop
  split
  · exact ite_six rfl (ite_six (startDone_six s key) (ite_six (stopDone_six s key) rfl))
  · rfl

theorem addSkew_six (s : State) (c : Nat) (d : Int) : (s.addSkew c d).six = s.six := by
  refine foldl_kept (g := State.six) ?_ _ s
  intro u k
  rfl

theorem alignDone_six (s : State) (c : Nat) : (s.alignDone c).six = s.six := by
  have hdone (u : State) (r : List Word) : (u.doneWith (keyADC c) r).six = u.six := (doneWith_quiet u _ r).six
  unfold State.alignDone
  dsimp only
  split
  · refine ite_six (hdone _ _) (ite_six (hdone _ _) (ite_six ?_ ?_))
    · exact (setErr_quiet _ _ _).six.trans (hdone _ _)
    · exact (hdone _ _).trans (addSkew_six _ _ _)
  · rfl
  · rfl

theorem tick_six (s : State) : s.tick.six = if s.tb.running then sixAdd s.six 1 else s.six := by
  have hends (u : State) : ((u.each (u.pages.map (·.1)) State.finishStartStop).each (u.convs.map (·.1)) State.alignDone).six = u.six :=
    (each_six alignDone_six _ _).trans (each_six finishStartStop_six _ u)
  unfold State.tick
  dsimp only
  rw [hends]
  split
  · rfl
  · rfl

/-- Settles O2: the period counts first, and no START, STOP or ALIGN that ends in the step moves SIX. -/
theorem idleStepCountsOnePeriod : Obligations.IdleStepCountsOnePeriod := by
  unfold Obligations.IdleStepCountsOnePeriod
  intro s hempty
  refine ⟨s.tick, ?_, ?_, tick_six s⟩
  · unfold step
    rw [hempty]
  · exact (State.tick_keeps s).pending.trans hempty

end Sys2Proof.Machine

namespace Sys2Proof.Machine

/-! ### What the memory controller's bookkeeping leaves (R359-R361). -/

@[simp] theorem stack_modStack (s : State) (m : Nat) (f : Stack → Stack) : (s.modStack m f).stack m = f (s.stack m) := mget_mput_same _ _ _ _

/-- From `s` to `t` only the page of stack `m` changes, and of the stack only the time it was idle since. -/
structure SrOnly (m : Nat) (t s : State) : Prop where
  page : ∀ j, j ≠ keyMEM m → t.page j = s.page j
  stack : ∃ i, t.stack m = { s.stack m with idleAt := i }

theorem SrOnly.refl (m : Nat) (s : State) : SrOnly m s s := ⟨fun _ _ => rfl, _, rfl⟩

theorem SrOnly.trans {m : Nat} {t u s : State} (h1 : SrOnly m t u) (h2 : SrOnly m u s) : SrOnly m t s := by
  obtain ⟨i, hi⟩ := h1.stack
  obtain ⟨j, hj⟩ := h2.stack
  exact ⟨fun k hk => (h1.page k hk).trans (h2.page k hk), i, by rw [hi, hj]⟩

theorem SrOnly.ite {m : Nat} {c : Prop} [Decidable c] {a b s : State} (ha : SrOnly m a s) (hb : SrOnly m b s) :
    SrOnly m (if c then a else b) s := by
  split
  · exact ha
  · exact hb

theorem setReg_srOnly (s : State) (m off : Nat) (w : Word) : SrOnly m (s.setReg (keyMEM m) off w) s :=
  ⟨fun _ hj => State.page_modPage_other _ _ hj, _, rfl⟩

theorem wf_srOnly (s : State) (m : Nat) (f : RegField) (v : Nat) : SrOnly m (s.wf (keyMEM m) f v) s := setReg_srOnly s m _ _

theorem idleAt_srOnly (s : State) (m i : Nat) : SrOnly m (s.modStack m fun k => { k with idleAt := i }) s := ⟨fun _ _ => rfl, i, stack_modStack s m _⟩

theorem srUpdate_srOnly (s : State) (m : Nat) : SrOnly m (s.srUpdate m) s := by
  unfold State.srUpdate
  extract_lets k s1 idle
  have h1 : SrOnly m s1 s := (setReg_srOnly _ m _ _).trans (wf_srOnly s m _ _)
  have henter (n : Nat) : SrOnly m (s1.srEnter m n) s := (wf_srOnly s1 m _ n).trans h1
  exact .ite (.ite ((idleAt_srOnly _ _ _).trans (henter _)) h1)
    (.ite h1 (.ite (henter _) (.ite ((wf_srOnly _ m _ _).trans (henter _)) (.ite (henter _) h1))))

/-! ### Vertical sync (R548-R557). -/

@[simp] theorem scanOf_modScan (s : State) (g : Nat) (f : Scan → Scan) : (s.modScan g f).scanOf g = f (s.scanOf g) := mget_mput_same _ _ _ _

/-- From `s` to `t` the count of frames is as it was. -/
def CountKept (t s : State) : Prop := t.rf keyDSP Reg.DSP_FRAMES = s.rf keyDSP Reg.DSP_FRAMES

theorem CountKept.trans {t u s : State} (h1 : CountKept t u) (h2 : CountKept u s) : CountKept t s := Eq.trans h1 h2

theorem CountKept.ite {c : Prop} [Decidable c] {a b s : State} (ha : CountKept a s) (hb : CountKept b s) : CountKept (if c then a else b) s := by
  split
  · exact ha
  · exact hb

theorem CountKept.each {α : Type} {f : State → α → State} (h : ∀ s x, CountKept (f s x) s) (xs : List α) (s : State) : CountKept (s.each xs f) s :=
  foldl_kept (g := fun s => s.rf keyDSP Reg.DSP_FRAMES) h xs s

theorem moveRd_countKept (s : State) (p n off : Nat) : CountKept (s.moveRd p n off) s :=
  
  rf_wf_apart (f := Reg.RED_RP_RD.OFFSET n) (g := Reg.DSP_FRAMES) (.inr (.inl (show 0x210 + 0x20 * n ≠ 0x150 by omega))) s off

theorem passRd_countKept (s : State) (p n off : Nat) : CountKept (s.passRd p n off) s := .ite rfl (moveRd_countKept s p n off)

theorem showNewer_countKept (s : State) (p n : Nat) (r : PlaneRec) : CountKept (s.showNewer p n r) s := by
  have hretry : CountKept s.retryPassed s := CountKept.each (fun u x => passRd_countKept u _ _ _) s.passed s
  unfold State.showNewer
  dsimp only
  refine .ite hretry ?_
  split
  · exact (passRd_countKept _ _ _ _).trans hretry
  · exact hretry

theorem latchPlane_countKept (s : State) (g task n kind : Nat) : CountKept (s.latchPlane g task n kind).1 s := by
  unfold State.latchPlane
  split
  · rfl
  · dsimp only
    split
    · rfl
    · exact (showNewer_countKept _ _ _ _).trans rfl

theorem latchBoth_countKept (s : State) (g : Nat) : CountKept (s.latchBoth g).1 s := by
  unfold State.latchBoth
  split
  · rfl
  · exact (latchPlane_countKept _ _ _ _ _).trans (latchPlane_countKept s _ _ _ _)

theorem keyMEM_ne_keyDSP (m : Nat) : keyDSP ≠ keyMEM m := by
  unfold keyDSP keyMEM keyOf
  omega

theorem scanLtr_countKept (s : State) (g ns : Nat) : CountKept (s.scanLtr g ns) s := by
  unfold State.scanLtr
  split
  · rfl
  · exact (rf_congr ((srUpdate_srOnly _ _).page keyDSP (keyMEM_ne_keyDSP _)) _).trans (rf_setReg_apart s _ (.inr (by decide)))

/-- With both outputs OFF a frame that ends leaves on none. -/
theorem endFrame_countKept {s : State} {g : Nat} (hoff : s.outState 0 = outOFF ∧ s.outState 1 = outOFF) (missing : List (Nat × Nat))
    (loops : List (Nat × Nat × Nat × Nat)) : CountKept (s.endFrame g missing loops) s ∧ (s.endFrame g missing loops).scan = s.scan ∧
      (s.endFrame g missing loops).pend = s.pend := by
  obtain ⟨h0, h1⟩ := hoff
  have hnone : ((s.genOuts g).filter fun o => decide (s.outState o = outACTIVE ∨ s.outState o = outLOW_REFRESH)) = [] := by
    refine List.filter_eq_nil_iff.mpr fun o ho => ?_
    have ho01 : o ∈ [0, 1] := List.mem_of_mem_filter ho
    rcases List.mem_pair.mp ho01 with rfl | rfl
    · rw [h0]; decide
    · rw [h1]; decide
  unfold State.endFrame
  dsimp only
  rw [if_pos (.inl (List.isEmpty_iff.mpr hnone))]
  refine ⟨CountKept.each ?_ _ s, foldl_kept (g := State.scan) ?_ _ s, foldl_kept (g := State.pend) ?_ _ s⟩
  · exact fun u o => rf_congr (s := u) rfl _
  · exact fun u o => rfl
  · exact fun u o => rfl

/-- From `s` to `t`: the count of frames, SIX and when generator 0's frame started are as they were, and what VSYNC raised stays. -/
structure Synced (t s : State) : Prop where
  count : CountKept t s
  six : t.six = s.six
  frameAt : (t.scanOf 0).frameAt = (s.scanOf 0).frameAt
  raised : Raised t s

theorem Synced.refl (s : State) : Synced s s := ⟨rfl, rfl, rfl, .refl s⟩

theorem Synced.trans {t u s : State} (h1 : Synced t u) (h2 : Synced u s) : Synced t s :=
  ⟨h1.count.trans h2.count, h1.six.trans h2.six, h1.frameAt.trans h2.frameAt, h1.raised.trans h2.raised⟩

theorem Synced.ite {c : Prop} [Decidable c] {a b s : State} (ha : Synced a s) (hb : Synced b s) : Synced (if c then a else b) s := by
  split
  · exact ha
  · exact hb

theorem Synced.each {α : Type} {f : State → α → State} (h : ∀ s x, Synced (f s x) s) (xs : List α) (s : State) : Synced (s.each xs f) s := by
  unfold State.each
  induction xs generalizing s with
  | nil => exact .refl s
  | cons x xs ih => exact (ih (f s x)).trans (h s x)

theorem wf_synced (s : State) (f : RegField) (v : Nat) (h : f.off ≠ 0x150) : Synced (s.wf keyDSP f v) s :=
  ⟨rf_wf_apart (.inr (.inl h)) s v, rfl, rfl, wf_raised s _ f v⟩

theorem setOut_synced (s : State) (o n : Nat) : Synced (s.setOut o n) s :=
  wf_synced s _ n (by split <;> decide)

theorem setOuts_synced (s : State) (os : List Nat) (n : Nat) : Synced (s.each os fun s o => s.setOut o n) s :=
  .each (fun u o => setOut_synced u o n) os s

theorem setSix3_synced (s : State) (six : Nat) : Synced (s.setSix3 keyDSP 0x180 six) s := by
  have hset (u : State) (off : Nat) (w : Word) (h : off ≠ 0x150) : Synced (u.setReg keyDSP off w) u :=
    ⟨rf_setReg_apart u w (.inr h), rfl, rfl, setReg_raised u _ off w⟩
  exact (hset _ _ _ (by decide)).trans ((hset _ _ _ (by decide)).trans (hset s _ _ (by decide)))

theorem irqBit_synced (s : State) (i : Nat) : Synced (s.irqBit keyDSP i) s :=
  ⟨rf_irqBit s _ i _ _, (irqBit_quiet s _ i).get State.six, (irqBit_quiet s _ i).get fun u => (u.scanOf 0).frameAt, irqBit_raised s _ i⟩

theorem vsyncBoundaries_synced (s : State) : Synced s.vsyncBoundaries s := by
  refine Synced.each (fun u p => ?_) _ s
  dsimp only
  have hgrat (f : Grat → Grat) : Synced (u.modGrat p f) u := ⟨rfl, rfl, rfl, .of_page fun _ => rfl⟩
  have hcap (v : State) (f : Capture → Capture) : Synced (v.modCapture p f) v := ⟨rfl, rfl, rfl, .of_page fun _ => rfl⟩
  exact .ite ((hcap _ _).trans (.ite (hgrat _) (.refl u))) (.ite (hgrat _) (.refl u))

theorem static_synced (s : State) (f : Scan → Nat) : Synced (s.modScan 0 fun c => { c with static := f c }) s :=
  ⟨rfl, rfl, by rw [scanOf_modScan], .of_page fun _ => rfl⟩

/-- What a vertical sync of generator 0 does once its frame has started. -/
def State.vsyncEnds (s : State) (change : Bool) : State :=
  let s := (s.setSix3 keyDSP 0x180 s.six).irqBit keyDSP 16
  let s := s.vsyncBoundaries
  let s := s.modScan 0 fun c => { c with static := if change then 0 else c.static + 1 }
  let low := s.ab keyDSP Reg.DSP_CFG.LOWREF_EN && !s.rb keyDSP Reg.DSP_STAT.GL_PRESENT && s.rb keyDSP Reg.DSP_STAT.LOWREF_CAP
  if low ∧ 8 ≤ (s.scanOf 0).static ∧ (s.genOuts 0).any (fun o => decide (s.outState o = outACTIVE)) then
    (s.each ((s.genOuts 0).filter fun o => decide (s.outState o = outACTIVE)) fun s o => s.setOut o outLOW_REFRESH).count keyDSP Reg.DSP_LOWREF
  else if change ∨ s.rb keyDSP Reg.DSP_STAT.GL_PRESENT then
    s.each ((s.genOuts 0).filter fun o => decide (s.outState o = outLOW_REFRESH)) fun s o => s.setOut o outACTIVE
  else s

theorem vsyncEnds_effect (s : State) (change : Bool) : Synced (s.vsyncEnds change) s ∧ wbit ((s.vsyncEnds change).page keyDSP).irq 16 = true := by
  let raised : State := (s.setSix3 keyDSP 0x180 s.six).irqBit keyDSP 16
  have hraised : Synced raised s := (irqBit_synced _ 16).trans (setSix3_synced s _)
  have hirq : wbit (raised.page keyDSP).irq 16 = true := by
    unfold raised
    exact wbit_irq_irqBit _ _ (by decide)
  let shown : State := raised.vsyncBoundaries.modScan 0 fun c => { c with static := if change then 0 else c.static + 1 }
  have hshown : Synced shown raised := (static_synced _ fun c => if change then 0 else c.static + 1).trans (vsyncBoundaries_synced _)
  have hends : Synced (s.vsyncEnds change) raised :=
    .ite ((wf_synced _ _ _ (by decide)).trans ((setOuts_synced _ _ _).trans hshown)) (.ite ((setOuts_synced _ _ _).trans hshown) hshown)
  exact ⟨hends.trans hraised, hends.raised.irq hirq⟩

/-- What a vertical sync of generator 0 does up to the frame that starts, when nothing waits to apply. -/
def State.vsyncFrame (s : State) (header image : List Byte) (ltrNs : Nat) : State :=
  let b := s.latchBoth 0
  let s := if b.2 then b.1.scanLtr 0 ltrNs else b.1
  let id := u16At header 6
  let s := if s.annotUse.isSome then
      s.modScan 0 fun c => { c with header := header.take 16, image := if c.gen = some id then c.image else image, gen := some id }
    else s
  s.modScan 0 fun c => { c with frameAt := s.six }

theorem vsyncFrame_effect (s : State) (header image : List Byte) (ltrNs : Nat) :
    CountKept (s.vsyncFrame header image ltrNs) s ∧
      ((s.vsyncFrame header image ltrNs).scanOf 0).frameAt = (s.vsyncFrame header image ltrNs).six := by
  have hlatch : CountKept (if (s.latchBoth 0).2 then (s.latchBoth 0).1.scanLtr 0 ltrNs else (s.latchBoth 0).1) s :=
    .ite ((scanLtr_countKept _ _ _).trans (latchBoth_countKept s 0)) (latchBoth_countKept s 0)
  have hmod (u : State) (f : Scan → Scan) : CountKept (u.modScan 0 f) u := rfl
  unfold State.vsyncFrame
  dsimp only
  refine ⟨(hmod _ _).trans (.ite ((hmod _ _).trans hlatch) hlatch), ?_⟩
  rw [scanOf_modScan]
  rfl

theorem exec_vsync_off {s : State} (hon : s.pageOff keyDSP = false) (hannot : s.annotUse = none) (hpend : s.pendOf keyDSP = none)
    (hblank : (s.scanOf 0).blank = false) (hoff : s.outState 0 = outOFF ∧ s.outState 1 = outOFF) (six : Nat) (annot : Option (List Byte))
    (header image : List Byte) (ltrNs : Nat) :
    ∃ t, exec (.vsync 0 six annot header image [] [] ltrNs) s = .next t ∧ (t.scanOf 0).frameAt = t.six ∧ wbit (t.page keyDSP).irq 16 = true ∧
      t.rf keyDSP Reg.DSP_FRAMES = satInc 0xFFFFFFFF (s.rf keyDSP Reg.DSP_FRAMES) := by
  let s0 : State := (s.advanceTo six).modScan 0 fun c => { c with annot := none }
  have hpage : s0.page keyDSP = s.page keyDSP := rfl
  have hoff0 : s0.outState 0 = outOFF ∧ s0.outState 1 = outOFF := ⟨(rf_congr hpage _).trans hoff.1, (rf_congr hpage _).trans hoff.2⟩
  have hs0 : s0.rf keyDSP Reg.DSP_FRAMES = s.rf keyDSP Reg.DSP_FRAMES := rf_congr hpage _
  let ended : State := s0.endFrame 0 [] []
  obtain ⟨hcount, hscan, hpends⟩ : CountKept ended s0 ∧ ended.scan = s0.scan ∧ ended.pend = s0.pend :=
    endFrame_countKept hoff0 [] []
  let counted : State := ended.count keyDSP Reg.DSP_FRAMES
  have hblank' : (counted.scanOf 0).blank = false := by
    have hscan' : counted.scanOf 0 = s0.scanOf 0 := congrArg (fun m => mget (fun _ => Scan.init) m 0) hscan
    rw [hscan']
    unfold s0
    rw [scanOf_modScan]
    exact hblank
  have happly : counted.applyDsp = (counted, false) := by
    have hnone : counted.pendOf keyDSP = none := (congrArg (fun m => mfind m keyDSP) hpends).trans hpend
    unfold State.applyDsp
    rw [hnone]
  have hframes : counted.rf keyDSP Reg.DSP_FRAMES = satInc 0xFFFFFFFF (s.rf keyDSP Reg.DSP_FRAMES) := by
    have hold : ended.rf keyDSP Reg.DSP_FRAMES = s.rf keyDSP Reg.DSP_FRAMES := hcount.trans hs0
    have hbelow : satInc 0xFFFFFFFF (s.rf keyDSP Reg.DSP_FRAMES) < 2 ^ 32 := by
      have hrf : s.rf keyDSP Reg.DSP_FRAMES < 2 ^ 32 := Nat.mod_lt _ (by decide)
      unfold satInc
      split <;> omega
    refine (rf_wf_same ended _ _ (by decide) (by decide)).trans ?_
    rw [hold]
    exact Nat.mod_eq_of_lt hbelow
  obtain ⟨hkept, hat⟩ := vsyncFrame_effect counted header image ltrNs
  have hexec : ∃ change, exec (.vsync 0 six annot header image [] [] ltrNs) s = .next ((counted.vsyncFrame header image ltrNs).vsyncEnds change) := by
    change ∃ change, execVsync 0 six annot header image [] [] ltrNs s = _
    unfold execVsync
    extract_lets g s1 uses failed s2 s3 s4 s5 s6 a s7 b s8 c moved id_ s9 s10 s11 s12 change s13 low
    have hfailed : failed = false := by
      unfold failed uses s1
      rw [show (s.advanceTo six).annotUse = none from hannot]
      rfl
    have h3 : s3 = s0 := by
      unfold s3 s2 uses s1
      rw [hfailed, show (s.advanceTo six).annotUse = none from hannot]
      rfl
    have h5 : s5 = counted := by
      unfold s5 s4
      rw [h3]
      rfl
    have h6 : s6 = counted := by
      unfold s6
      rw [h5]
      exact if_neg (by rw [show counted.scanOf g = counted.scanOf 0 from rfl, hblank']; decide)
    have ha : a = (counted, false) := by
      unfold a
      rw [h6]
      exact happly
    have h10 : s10 = counted.vsyncFrame header image ltrNs := by
      unfold s10 s9 s8 b s7
      rw [ha]
      rfl
    refine ⟨change, ?_⟩
    rw [if_neg (by rintro ⟨hg, -⟩; exact absurd hg (by decide)), if_neg (by rw [show s1.pageOff keyDSP = s.pageOff keyDSP from rfl, hon]; decide),
      if_neg (show ¬g = 1 by decide), ← h10]
    unfold State.vsyncEnds
    exact ((apply_ite Host.Outcome.next _ _ _).trans (if_congr Iff.rfl rfl (apply_ite Host.Outcome.next _ _ _))).symm
  obtain ⟨change, hexec⟩ := hexec
  obtain ⟨hsynced, hirq⟩ := vsyncEnds_effect (counted.vsyncFrame header image ltrNs) change
  exact ⟨_, hexec, hsynced.frameAt.trans (hat.trans hsynced.six.symm), hirq, Eq.trans (hsynced.count.trans hkept) hframes⟩

/-! ### Outputs (R541-R543). -/

/-- The field of DSP_STAT that holds the state of an output, and that of its HPD. -/
def outField (o : Nat) : RegField := if o = 0 then Reg.DSP_STAT.OUT0_STATE else Reg.DSP_STAT.OUT1_STATE
def hpdField (o : Nat) : RegField := if o = 0 then Reg.DSP_STAT.HPD0 else Reg.DSP_STAT.HPD1

theorem outState_setOut (s : State) (o : Nat) {n : Nat} (hn : n < 8) : (s.setOut o n).outState o = n := by
  have hfield : (s.wf keyDSP (outField o) n).rf keyDSP (outField o) = n % 8 := by
    unfold outField
    split
    · exact rf_wf_same s _ n (by decide) (by decide)
    · exact rf_wf_same s _ n (by decide) (by decide)
  exact hfield.trans (Nat.mod_eq_of_lt hn)

theorem outState_setOut_other (s : State) {o o' : Nat} (n : Nat) (h : outField o ≠ outField o') : (s.setOut o n).outState o' = s.outState o' := by
  have happart : Apart keyDSP (outField o) keyDSP (outField o') := by
    revert h
    unfold outField
    split <;> split <;> decide
  exact rf_wf_apart happart s n

theorem hpd_setOut (s : State) (o n o' : Nat) : (s.setOut o n).hpd o' = s.hpd o' := by
  have happart : Apart keyDSP (outField o) keyDSP (hpdField o') := by
    unfold outField hpdField
    split <;> split <;> decide
  exact rb_wf_apart happart s n

theorem hpd_wb (s : State) (o : Nat) (b : Bool) : (s.wb keyDSP (hpdField o) b).hpd o = b := by
  unfold State.hpd
  change (s.wb keyDSP (hpdField o) b).rb keyDSP (hpdField o) = b
  unfold hpdField
  split
  · exact rb_wb_same s _ b (by decide) (by decide)
  · exact rb_wb_same s _ b (by decide) (by decide)

theorem outState_wb_hpd (s : State) (o o' : Nat) (b : Bool) : (s.wb keyDSP (hpdField o) b).outState o' = s.outState o' := by
  have happart : Apart keyDSP (hpdField o) keyDSP (outField o') := by
    unfold outField hpdField
    split <;> split <;> decide
  exact rf_wb_apart happart s b

/-- What HPD_CHANGE does before it looks at the output. -/
def State.hpdShown (s : State) (o : Nat) (level : Bool) : State := (s.wb keyDSP (hpdField o) level).irqBit keyDSP 17

theorem hpdShown_effect (s : State) (o : Nat) (level : Bool) :
    (s.hpdShown o level).hpd o = level ∧ (s.hpdShown o level).outState o = s.outState o ∧ (s.hpdShown o level).outEnabled o = s.outEnabled o ∧
      wbit ((s.hpdShown o level).page keyDSP).irq 17 = true := by
  have happlied : ((s.hpdShown o level).page keyDSP).applied = (s.page keyDSP).applied :=
    ((irqBit_raised _ _ _).get keyDSP (·.applied)).trans ((wf_raised s _ _ _).get keyDSP (·.applied))
  refine ⟨?_, ?_, ?_, wbit_irq_irqBit _ _ (by decide)⟩
  · refine Eq.trans ?_ (hpd_wb s o level)
    unfold State.hpd State.rb
    rw [State.hpdShown, rf_irqBit]
  · exact (rf_irqBit _ _ _ _ _).trans (outState_wb_hpd s o o level)
  · unfold State.outEnabled State.af State.areg
    rw [happlied]

theorem exec_hpdUp {s : State} {output : Fin 2} (hon : s.pageOff keyDSP = false) (hlow : s.hpd output = false) (hen : s.outEnabled output = true)
    (hoff : s.outState output = outOFF) :
    ∃ t, exec (.hpdChange output true) s = .next t ∧ t.hpd output = true ∧ t.outState output = outTRAINING ∧ wbit (t.page keyDSP).irq 17 = true := by
  obtain ⟨hhpd, hout, hen', hirq⟩ := hpdShown_effect s output true
  refine ⟨(s.hpdShown output true).setOut output outTRAINING, ?_, (hpd_setOut _ _ _ _).trans hhpd, outState_setOut _ _ (by decide),
      (wf_raised _ _ _ _).irq hirq⟩
  change execHpdChange output true s = _
  unfold execHpdChange
  dsimp only
  rw [if_neg (by rw [hon, hlow]; decide), if_pos rfl]
  exact congrArg Host.Outcome.next (if_pos ⟨hen'.trans hen, hout.trans hoff⟩)

theorem outState_of_stat {t s : State} (h : t.reg keyDSP 0x130 = s.reg keyDSP 0x130) (o : Nat) : t.outState o = s.outState o := by
  unfold State.outState State.rf
  split <;> exact congrArg (fun w => wget w _ _) h

theorem hpd_of_stat {t s : State} (h : t.reg keyDSP 0x130 = s.reg keyDSP 0x130) (o : Nat) : t.hpd o = s.hpd o := by
  unfold State.hpd State.rb State.rf
  split <;> exact congrArg (fun w => decide (wget w _ _ ≠ 0)) h

theorem retire_kept (s : State) (addr : Nat) : (s.retire addr).reg keyDSP 0x130 = s.reg keyDSP 0x130 ∧ (s.retire addr).sinks = s.sinks := by
  constructor
  · unfold State.retire
    dsimp only
    rw [reg_of_regs (regs_irqBit _ _ _ _), reg_setReg_other _ _ _ (by decide), reg_setReg_other _ _ _ (by decide), reg_setReg_other _ _ _ (by decide)]
  · exact (irqBit_quiet _ _ _).get State.sinks

theorem retireAll_kept (s : State) : s.retireAll.reg keyDSP 0x130 = s.reg keyDSP 0x130 ∧ s.retireAll.sinks = s.sinks := by
  have hretiring (u : State) (l : List Nat) : (u.each l State.retire).reg keyDSP 0x130 = u.reg keyDSP 0x130 ∧
      (u.each l State.retire).sinks = u.sinks :=
    ⟨foldl_kept (g := fun s => s.reg keyDSP 0x130) (fun s x => (retire_kept s x).1) l u,
      foldl_kept (g := State.sinks) (fun s x => (retire_kept s x).2) l u⟩
  unfold State.retireAll
  cases s.annotUse with
  | none => exact hretiring s _
  | some a => exact ⟨(hretiring _ _).1.trans (retire_kept s a).1, (hretiring _ _).2.trans (retire_kept s a).2⟩

theorem retireIfOff_kept (s : State) : s.retireIfOff.reg keyDSP 0x130 = s.reg keyDSP 0x130 ∧ s.retireIfOff.sinks = s.sinks := by
  unfold State.retireIfOff
  split
  · exact retireAll_kept s
  · exact ⟨rfl, rfl⟩

theorem exec_hpdDown {s : State} {output : Fin 2} (hon : s.pageOff keyDSP = false) (hhigh : s.hpd output = true) :
    ∃ t, exec (.hpdChange output false) s = .next t ∧ t.hpd output = false ∧ t.outState output = outOFF ∧ mfind t.sinks output = none := by
  obtain ⟨hhpd, -, -, -⟩ := hpdShown_effect s output false
  let gone : State := { (s.hpdShown output false).setOut output outOFF with sinks := mdel (s.hpdShown output false).sinks output }
  have hgone : gone.reg keyDSP 0x130 = ((s.hpdShown output false).setOut output outOFF).reg keyDSP 0x130 := reg_congr rfl _
  obtain ⟨hstat, hsinks⟩ := retireIfOff_kept gone
  refine ⟨gone.retireIfOff, ?_, ?_, ?_, ?_⟩
  · change execHpdChange output false s = _
    unfold execHpdChange
    dsimp only
    rw [if_neg (by rw [hon, hhigh]; decide)]
    rfl
  · exact (hpd_of_stat (hstat.trans hgone) _).trans ((hpd_setOut _ _ _ _).trans hhpd)
  · exact (outState_of_stat (hstat.trans hgone) _).trans (outState_setOut _ _ (by decide))
  · rw [hsinks]
    exact mfind_mdel_same _ _

theorem exec_trainingDone {s : State} {output : Fin 2} {rate : Fin 3} {lowref : Bool} (hon : s.pageOff keyDSP = false)
    (htraining : s.outState output = outTRAINING) (hcarries : s.linkCarries (s.outGen output) rate = true) :
    ∃ t, exec (.dpTrainingDone output rate lowref) s = .next t ∧ t.outState output = outACTIVE ∧ mfind t.sinks output = some (rate.val, lowref) := by
  let noted : State := { s with sinks := mput s.sinks output (rate.val, lowref) }
  let shown : State := noted.wb keyDSP Reg.DSP_STAT.LOWREF_CAP (noted.sinks.all (fun e => e.2.2) && !noted.sinks.isEmpty)
  have happlied : (shown.page keyDSP).applied = (s.page keyDSP).applied := (wf_raised noted _ _ _).get keyDSP (·.applied)
  have haf (f : RegField) : shown.af keyDSP f = s.af keyDSP f := by
    unfold State.af State.areg
    rw [happlied]
  have hgen : shown.outGen output = s.outGen output := by
    unfold State.outGen State.indep State.ab
    rw [haf]
  have hlink : shown.linkCarries (shown.outGen output) rate = true := by
    rw [hgen]
    refine Eq.trans ?_ hcarries
    unfold State.linkCarries State.genKhz
    rw [haf]
  refine ⟨shown.setOut output outACTIVE, ?_, outState_setOut _ _ (by decide), mfind_mput_same _ _ _⟩
  change execDpTrainingDone output rate lowref s = _
  unfold execDpTrainingDone
  dsimp only
  rw [if_neg (by rw [hon, htraining]; decide)]
  exact congrArg Host.Outcome.next (if_pos hlink)

theorem exec_linkLost {s : State} {output : Fin 2}
    (hst : s.outState output = outACTIVE ∨ s.outState output = outLOW_REFRESH ∨ s.outState output = outUNFIT) :
    ∃ t, exec (.dpLinkLost output) s = .next t ∧ t.outState output = outTRAINING ∧ mfind t.sinks output = none := by
  refine ⟨{ s.setOut output outTRAINING with sinks := mdel s.sinks output }, ?_, ?_, mfind_mdel_same _ _⟩
  · exact if_pos hst
  · exact (outState_of_stat (reg_congr (s := s.setOut output outTRAINING) rfl _) _).trans (outState_setOut _ _ (by decide))

/-! ### Genlock, refills and low refresh (R550-R554). -/

theorem setOut_genlock (s : State) (o n : Nat) : (s.setOut o n).genlock = s.genlock := rfl

theorem setOut_six (s : State) (o n : Nat) : (s.setOut o n).six = s.six := rfl

theorem exec_genlockPulse {s : State} (hon : s.pageOff keyDSP = false) (six : Nat) :
    ∃ t, exec (.genlockPulse six) s = .next t ∧ t.genlock.last = t.six := by
  change ∃ t, execGenlockPulse six s = _ ∧ _
  unfold execGenlockPulse
  extract_lets s1 g per gap keeps good s2 s3 n s4 s5 outs
  rw [if_neg (by rw [show s1.pageOff keyDSP = s.pageOff keyDSP from rfl, hon]; decide)]
  have h3 : s3.genlock.last = s1.six ∧ s3.six = s1.six := by
    unfold s3
    split
    · exact ⟨rfl, rfl⟩
    · exact ⟨rfl, rfl⟩
  have hkept : s3.genlock.last = s3.six := h3.1.trans h3.2.symm
  split
  · exact ⟨_, rfl, hkept⟩
  split
  · refine ⟨_, rfl, ?_⟩
    have houts : (s5.each outs fun s o => s.setOut o outBLANKED).genlock = s5.genlock ∧ 
        (s5.each outs fun s o => s.setOut o outBLANKED).six = s5.six :=
      ⟨foldl_kept (g := State.genlock) (fun u o => setOut_genlock u o _) outs s5, foldl_kept (g := State.six) (fun u o => setOut_six u o _) outs s5⟩
    exact (congrArg Genlock.last houts.1).trans (hkept.trans houts.2.symm)
  split
  · exact ⟨_, rfl, hkept⟩
  split
  · exact ⟨_, rfl, hkept⟩
  · exact ⟨_, rfl, hkept⟩

theorem exec_genlockLost {s : State} (hpresent : s.rb keyDSP Reg.DSP_STAT.GL_PRESENT = true) :
    ∃ t, exec .genlockLost s = .next t ∧ t.rb keyDSP Reg.DSP_STAT.GL_PRESENT = false ∧ t.rf keyDSP Reg.DSP_STAT.GL_STATE = glFREE ∧
      wbit (t.page keyDSP).err 18 = true := by
  let lost : State := { s.advanceTo (s.genlock.last + 2 * s.framePeriod 0) with genlock := { last := 0, good := 0, locked := 0, restart := false } }
  let shown : State := (lost.wb keyDSP Reg.DSP_STAT.GL_PRESENT false).wf keyDSP Reg.DSP_STAT.GL_STATE glFREE
  have hstat : (shown.setErr keyDSP 18).reg keyDSP 0x130 = shown.reg keyDSP 0x130 :=
    reg_setErr (hkey := by decide) ..
  refine ⟨shown.setErr keyDSP 18, if_neg (by rw [hpresent]; decide), ?_, ?_, wbit_setErr _ _ (by decide)⟩
  · refine (congrArg (fun w => decide (wget w 17 17 ≠ 0)) hstat).trans ?_
    exact (rb_wf_apart (by decide) _ _).trans (rb_wb_same lost _ false (by decide) (by decide))
  · refine (congrArg (fun w => wget w 19 18) hstat).trans ?_
    exact rf_wf_same _ _ glFREE (by decide) (by decide)

theorem exec_relock {s : State} {who : Issuer} {tag : Nat} (ht : s.takes who keyDSP) (hpresent : s.rb keyDSP Reg.DSP_STAT.GL_PRESENT = true) :
    ∃ t, exec (.relock who tag) s = .next t ∧ t.rf keyDSP Reg.DSP_STAT.GL_STATE = glACQUIRE ∧
      (t.page keyDSP).cmdStat = cmdStatWord tag phaseDONE 0 codeOK := by
  let op : Op := s.latch keyDSP 0x0100 tag
  let acquiring : State := (s.accept keyDSP op).wf keyDSP Reg.DSP_STAT.GL_STATE glACQUIRE
  let noted : State :=
    { acquiring with genlock := { acquiring.genlock with locked := 0, restart := decide (4 * acquiring.lineSix 0 < acquiring.phaseError) } }
  have hop : (noted.page keyDSP).op = some op := by
    refine ((wf_raised (s.accept keyDSP op) _ _ _).get keyDSP (·.op)).trans ?_
    rw [page_accept_same]
  refine ⟨noted.doneOp keyDSP, ?_, ?_, ?_⟩
  · change execRelock who tag s = _
    unfold execRelock
    rw [command_of_takes ht, if_neg (by rw [hpresent]; decide)]
  · exact (rf_endOp _ _ _ _ _ _ _).trans (rf_wf_same (s.accept keyDSP op) _ glACQUIRE (by decide) (by decide))
  · rw [State.doneOp, page_endOp_same hop]
    exact cmdStatWord_tag_mod ..

theorem exec_displayRefill {s : State} {gen : Fin 2} {ltrNs : Nat} {x : Nat × Nat × Nat} (hon : s.pageOff keyDSP = false)
    (hshows : (s.scanOf gen).grt.isSome = true) (hhead : (s.scanOf gen).shown.head? = some x) (hltr : ltrNs < 0xFFFFFFFF) :
    ∃ t, exec (.displayRefill gen ltrNs) s = .next t ∧ t.reg keyDSP Reg.DSP_LTR.off = word ltrNs ∧
      mfind (t.stack (addrStack (s.baseAddr (keyRED x.1) (0x200 + 0x20 * x.2.1)))).tolerances (0x120 + gen.val) = some ltrNs := by
  let m : Nat := addrStack (s.baseAddr (keyRED x.1) (0x200 + 0x20 * x.2.1))
  let told : State := (s.setReg keyDSP Reg.DSP_LTR.off (word ltrNs)).modStack m fun k =>
    { k with tolerances := if ltrNs = 0xFFFFFFFF then mdel k.tolerances (0x120 + gen.val) else mput k.tolerances (0x120 + gen.val) ltrNs }
  have hupdate : SrOnly m (told.srUpdate m) told := srUpdate_srOnly told m
  obtain ⟨i, hi⟩ := hupdate.stack
  refine ⟨told.srUpdate m, ?_, ?_, ?_⟩
  · change execDisplayRefill gen ltrNs s = _
    unfold execDisplayRefill State.scanLtr
    rw [hhead, if_neg]
    · rfl
    · rw [hon]
      rintro (hoff | hnone)
      · cases hoff
      · rw [Option.isNone_iff_eq_none.mp hnone] at hshows
        cases hshows
  · rw [reg_congr (hupdate.page keyDSP (keyMEM_ne_keyDSP m))]
    exact State.reg_setReg s keyDSP _ _
  · rw [hi]
    unfold told
    rw [stack_modStack, if_neg (by omega)]
    exact mfind_mput_same _ _ _

/-- Of outputs that are set, each has the state then; one that has it already keeps it. -/
theorem outState_setOuts {n : Nat} (hn : n < 8) {o : Nat} {os : List Nat} {s : State} (h : o ∈ os ∨ s.outState o = n) :
    (s.each os fun s o => s.setOut o n).outState o = n := by
  unfold State.each
  induction os generalizing s with
  | nil => exact h.resolve_left List.not_mem_nil
  | cons x os ih =>
    refine ih (s := s.setOut x n) ?_
    by_cases hfield : outField x = outField o
    · refine .inr ((congrArg (State.rf _ keyDSP) hfield.symm).trans (outState_setOut s x hn))
    · rcases h with hmem | hst
      · rcases List.mem_cons.mp hmem with rfl | hos
        · exact absurd rfl hfield
        · exact .inl hos
      · exact .inr ((outState_setOut_other s n hfield).trans hst)

theorem exec_lowrefCheck {s : State} {header : List Byte} {a : PendApply} (hlow : s.outState 0 = outLOW_REFRESH) (hpend : s.pendOf keyDSP = some a)
    (hdue : a.due ≤ s.six) :
    ∃ t, exec (.lowrefCheck header) s = .next t ∧ t.outState 0 = outACTIVE ∧ (t.scanOf 0).static = 0 := by
  change ∃ t, execLowrefCheck header s = _ ∧ _
  unfold execLowrefCheck
  extract_lets low fresh recs due moved
  have hgen : s.outGen 0 = 0 := if_neg (by rintro ⟨h, -⟩; cases h)
  have hmem : 0 ∈ low := List.mem_filter.mpr ⟨List.mem_filter.mpr ⟨List.mem_cons_self, decide_eq_true hgen⟩, decide_eq_true hlow⟩
  have hisdue : due = true := by
    unfold due
    rw [hpend]
    exact decide_eq_true hdue
  rw [if_neg (by rw [List.isEmpty_iff]; exact List.ne_nil_of_mem hmem), if_pos (.inr (.inl hisdue))]
  refine ⟨_, rfl, ?_, ?_⟩
  · exact (outState_of_stat (reg_congr rfl _) 0).trans (outState_setOuts (by decide) (.inl hmem))
  · rw [scanOf_modScan]

/-- Settles O31, command by command; the vertical sync goes through the frame that ends, the frame that starts, and what the sync ends. -/
theorem displayCommandsComplete : Obligations.DisplayCommandsComplete := by
  unfold Obligations.DisplayCommandsComplete
  exact ⟨fun s six annot header image ltrNs hon hannot hpend hblank hoff => exec_vsync_off hon hannot hpend hblank hoff six annot header image ltrNs,
    fun s output hon hlow hen hoff => exec_hpdUp hon hlow hen hoff, fun s output hon hhigh => exec_hpdDown hon hhigh,
    fun s output rate lowref hon htraining hcarries => exec_trainingDone hon htraining hcarries, fun s output hst => exec_linkLost hst,
    fun s six hon => exec_genlockPulse hon six, fun s hpresent => exec_genlockLost hpresent, fun s who tag ht hpresent => exec_relock ht hpresent,
    fun s gen ltrNs x hon hshows hhead hltr => exec_displayRefill hon hshows hhead hltr,
    fun s header a hlow hpend _ hdue => exec_lowrefCheck hlow hpend hdue⟩

end Sys2Proof.Machine

namespace Sys2Proof.Machine

/-! ### Compression jobs (R493-R501). -/

@[simp] theorem cmp_modCmp (s : State) (n : Nat) (f : CmpEngine → CmpEngine) : (s.modCmp n f).cmp n = f (s.cmp n) := mget_mput_same _ _ _ _

/-- A DEFLATE or INFLATE that begins a stream is accepted, and its job latched, where its flags are good and its output is no port. -/
theorem cmpStart_effect {s : State} {n : Nat} {op : Op} {inflate : Bool}
    (hflags : (if inflate then cmpEND op.a0 || decide (cmpFLUSH op.a0 ≠ 0) else
      (cmpEND op.a0 && decide (cmpFLUSH op.a0 ≠ 0)) || decide (cmpFLUSH op.a0 = 3)) = false)
    (hbegin : cmpBEGIN op.a0 = true) (hspace : s.rf (keyCMP n) Reg.CMP_OUT_HI.SPACE ≠ 2) :
    ((s.cmpStart n op inflate).cmp n).job.map (fun j => (j.inflate, j.flags)) = some (inflate, op.a0) ∧
      ((s.cmpStart n op inflate).page (keyCMP n)).op.isSome = true := by
  have hstart : ∃ job : CmpJob, job.inflate = inflate ∧ job.flags = op.a0 ∧
      s.cmpStart n op inflate = (s.accept (keyCMP n) op).modCmp n fun e => { e with job := some job } := by
    unfold State.cmpStart
    extract_lets k flags badFlags opened outBytes lf job
    rw [if_neg (by rw [show badFlags = false from hflags]; decide), if_neg (by rw [show cmpBEGIN flags = true from hbegin]; exact Bool.false_ne_true),
      if_neg fun h => hspace h.1]
    exact ⟨job, rfl, rfl, rfl⟩
  obtain ⟨job, hinflate, hjobflags, hstart⟩ := hstart
  rw [hstart]
  constructor
  · rw [cmp_modCmp, ← hinflate, ← hjobflags]
    rfl
  · change ((s.accept (keyCMP n) op).page (keyCMP n)).op.isSome = true
    rw [page_accept_same]
    rfl

theorem exec_deflate_of_takes {s : State} {who : Issuer} {engine : Fin 8} {tag : Nat} (ht : s.takes who (keyCMP engine))
    (hbegin : cmpBEGIN (s.page (keyCMP engine)).a0.toNat = true) (hflush : cmpFLUSH (s.page (keyCMP engine)).a0.toNat = 0)
    (hspace : s.rf (keyCMP engine) Reg.CMP_OUT_HI.SPACE ≠ 2) :
    ∃ t, exec (.deflate who engine tag) s = .next t ∧
      (t.cmp engine).job.map (fun j => (j.inflate, j.flags)) = some (false, (s.page (keyCMP engine)).a0.toNat) ∧
      (t.page (keyCMP engine)).op.isSome = true := by
  refine ⟨s.cmpStart engine (s.latch (keyCMP engine) 0x0100 tag) false, congrArg Host.Outcome.next (command_of_takes ht _ _ _), ?_⟩
  have hflush' : cmpFLUSH (s.latch (keyCMP engine) 0x0100 tag).a0 = 0 := hflush
  exact cmpStart_effect (op := s.latch (keyCMP engine) 0x0100 tag) (by rw [hflush']; simp) hbegin hspace

theorem exec_inflate_of_takes {s : State} {who : Issuer} {engine : Fin 8} {tag : Nat} (ht : s.takes who (keyCMP engine))
    (hbegin : cmpBEGIN (s.page (keyCMP engine)).a0.toNat = true) (hend : cmpEND (s.page (keyCMP engine)).a0.toNat = false)
    (hflush : cmpFLUSH (s.page (keyCMP engine)).a0.toNat = 0) (hspace : s.rf (keyCMP engine) Reg.CMP_OUT_HI.SPACE ≠ 2) :
    ∃ t, exec (.inflate who engine tag) s = .next t ∧
      (t.cmp engine).job.map (fun j => (j.inflate, j.flags)) = some (true, (s.page (keyCMP engine)).a0.toNat) ∧
      (t.page (keyCMP engine)).op.isSome = true := by
  refine ⟨s.cmpStart engine (s.latch (keyCMP engine) 0x0101 tag) true, congrArg Host.Outcome.next (command_of_takes ht _ _ _), ?_⟩
  have hflush' : cmpFLUSH (s.latch (keyCMP engine) 0x0101 tag).a0 = 0 := hflush
  have hend' : cmpEND (s.latch (keyCMP engine) 0x0101 tag).a0 = false := hend
  exact cmpStart_effect (op := s.latch (keyCMP engine) 0x0101 tag) (by rw [hflush', hend']; simp) hbegin hspace

theorem refreshCmp_quiet (s : State) (n : Nat) : Quiet (s.refreshCmp n) s := by
  unfold State.refreshCmp
  dsimp only
  split
  · exact setReg_quiet s _ _ _
  · rfl

theorem refreshCmp_out (s : State) (n : Nat) : (s.refreshCmp n).out = s.out := by
  unfold State.refreshCmp
  dsimp only
  split
  · rfl
  · rfl

/-- A job that is DONE into a host area leaves the engine, and its bytes are written. -/
theorem cmpDone_effect {s : State} {n : Nat} {j : CmpJob} (hspace : j.outSpace = 1) (jobs : List (List Byte × Nat)) (out : List Byte)
    (consumed check produced : Nat) (ended : Bool) :
    ((s.cmpDone n j jobs out consumed check produced ended).cmp n).job = none ∧
      Output.hostWrite j.outAddr (out.map some) ∈ (s.cmpDone n j jobs out consumed check produced ended).out := by
  unfold State.cmpDone
  extract_lets k s1 s2
  have h1 : s1 = s.emit (.hostWrite j.outAddr (out.map some)) := by
    unfold s1
    rw [hspace]
    rfl
  have hquiet (u : State) (ws : List Word) : Quiet (((u.count k Reg.CMP_JOBS).progressTo k (consumed / 1024)).doneWith k ws) u :=
    (doneWith_quiet _ _ _).trans ((modPage_quiet _ _ _).trans (count_quiet u _ _))
  have hemits (u : State) (ws : List Word) : Emits (((u.count k Reg.CMP_JOBS).progressTo k (consumed / 1024)).doneWith k ws) u :=
    (doneWith_emits _ _ _).trans ((modPage_emits _ _ _).trans (modPage_emits u _ _))
  have hjob : (s2.cmp n).job = none := by
    unfold s2
    rw [cmp_modCmp]
  constructor
  · exact ((((hquiet _ _).trans (refreshCmp_quiet s2 n)).get fun u => (u.cmp n).job)).trans hjob
  · refine (hemits _ _).mem ?_
    rw [refreshCmp_out]
    change _ ∈ s1.out
    rw [h1]
    exact List.mem_append_right _ List.mem_cons_self

/-- Between host areas a job waits for nothing and its input is what the host holds. -/
theorem jobPath_host {s : State} {j : CmpJob} (hin : j.inSpace = 1) (hout : j.outSpace = 1) : s.jobPath j = .clear := by
  unfold State.jobPath
  rw [hin, hout]
  rfl

/-- The input that a job between host areas takes. -/
theorem hostInput {input : List Byte} {n : Nat} (h : input.length = n) : (input ++ List.replicate n 0).take n = input := by
  rw [← h]
  exact List.take_left' rfl

theorem exec_cmpJobDone_deflate {s : State} {engine : Fin 8} {input : List Byte} {j : CmpJob} (hjob : (s.cmp engine).job = some j)
    (hdeflate : j.inflate = false) (hbegin : cmpBEGIN j.flags = true) (hin : j.inSpace = 1) (hout : j.outSpace = 1)
    (hlen : input.length = j.inBytes) (hfits : deflateBound j.framing [(input, j.flags)] ≤ j.outBytes) :
    ∃ t, exec (.cmpJobDone engine input true) s = .next t ∧ (t.cmp engine).job = none ∧
      Output.hostWrite j.outAddr ((deflateJob j.level j.framing [] 0 input j.flags).map some) ∈ t.out := by
  have hroom : ¬j.outBytes < (deflateJob j.level j.framing [] 0 input j.flags).length := by
    have htake : (deflateJob j.level j.framing [] 0 input j.flags).length ≤ deflateBound j.framing [(input, j.flags)] := List.length_take_le _ _
    omega
  have hexec : ∃ jobs consumed check produced ended, exec (.cmpJobDone engine input true) s =
      .next (s.cmpDone engine j jobs (deflateJob j.level j.framing [] 0 input j.flags) consumed check produced ended) := by
    change ∃ jobs consumed check produced ended, execCmpJobDone engine input true s = _
    unfold execCmpJobDone
    extract_lets n k e noSpace dropped
    rw [show e.job = some j from hjob]
    dsimp -zeta only
    extract_lets way data before produced had r out1 consumed out2
    have hway : way = .clear := jobPath_host hin hout
    have hdata : data = input := by
      unfold data
      rw [hin]
      exact hostInput hlen
    have hbefore : before = [] := if_pos hbegin
    have hproduced : produced = 0 := if_pos hbegin
    have hout' : out2 = deflateJob j.level j.framing [] 0 input j.flags := by
      unfold out2
      rw [hdata, hbefore, hproduced]
    have hidle : ¬((j.inSpace = 2 ∧ e.portIn.length < j.inBytes) ∨ way = .waits) := by
      rw [hin, hway]
      simp
    rw [if_neg hidle, if_neg (by rw [hway]; decide), hdeflate, if_neg Bool.false_ne_true, hout']
    exact ⟨_, _, _, _, _, if_neg hroom⟩
  obtain ⟨jobs, consumed, check, produced, ended, hexec⟩ := hexec
  exact ⟨_, hexec, cmpDone_effect hout _ _ _ _ _ _⟩

theorem exec_cmpJobDone_inflate {s : State} {engine : Fin 8} {input : List Byte} {j : CmpJob} (hjob : (s.cmp engine).job = some j)
    (hinflate : j.inflate = true) (hbegin : cmpBEGIN j.flags = true) (hin : j.inSpace = 1) (hout : j.outSpace = 1)
    (hlen : input.length = j.inBytes) (hstop : (inflateAll j.framing input).stop = none)
    (hfits : (inflateAll j.framing input).out.length ≤ j.outBytes) :
    ∃ t, exec (.cmpJobDone engine input true) s = .next t ∧ (t.cmp engine).job = none ∧
      Output.hostWrite j.outAddr ((inflateAll j.framing input).out.map some) ∈ t.out := by
  have hexec : ∃ jobs consumed check produced ended, exec (.cmpJobDone engine input true) s =
      .next (s.cmpDone engine j jobs (inflateAll j.framing input).out consumed check produced ended) := by
    change ∃ jobs consumed check produced ended, execCmpJobDone engine input true s = _
    unfold execCmpJobDone
    extract_lets n k e noSpace dropped
    rw [show e.job = some j from hjob]
    dsimp -zeta only
    extract_lets way data before produced had r out1 consumed out2
    have hway : way = .clear := jobPath_host hin hout
    have hdata : data = input := by
      unfold data
      rw [hin]
      exact hostInput hlen
    have hbefore : before = [] := if_pos hbegin
    have hproduced : produced = 0 := if_pos hbegin
    have hr : r = inflateAll j.framing input := by
      unfold r had
      rw [hdata, hbefore]
      rfl
    have hout' : out1 = (inflateAll j.framing input).out := by
      unfold out1
      rw [hr, hproduced]
      rfl
    have hidle : ¬((j.inSpace = 2 ∧ e.portIn.length < j.inBytes) ∨ way = .waits) := by
      rw [hin, hway]
      simp
    rw [if_neg hidle, if_neg (by rw [hway]; decide), hinflate, if_pos rfl, show r.stop = none by rw [hr]; exact hstop, hout']
    dsimp only
    exact ⟨_, _, _, _, _, if_neg (Nat.not_lt.mpr hfits)⟩
  obtain ⟨jobs, consumed, check, produced, ended, hexec⟩ := hexec
  exact ⟨_, hexec, cmpDone_effect hout _ _ _ _ _ _⟩

/-! ### Check-value units (R505-R510). -/

@[simp] theorem crcUnit_modCrc (s : State) (key : Nat) (f : CrcUnit → CrcUnit) : (s.modCrc key f).crcUnit key = f (s.crcUnit key) :=
    mget_mput_same _ _ _ _

theorem loseHalf_of_none {s : State} {key : Nat} (h : (s.crcUnit key).half = none) : s.loseHalf key = s :=
  if_neg (by rw [h]; decide)

/-- The pair of registers holds the value written, cut to 64 bits. -/
theorem pair_setPair (s : State) (key off v : Nat) : (s.setPair key off v).pair key off = v % 2 ^ 64 := by
  unfold State.setPair State.pair
  rw [reg_setReg_other _ _ _ (by omega), State.reg_setReg, State.reg_setReg]
  simp only [BitVec.toNat_ofNat]
  omega

theorem refreshCrc_effect (s : State) (key : Nat) : (s.refreshCrc key).crcUnit key = s.crcUnit key ∧
    (s.refreshCrc key).pair key Reg.CRC_COUNT0.off = s.pair key Reg.CRC_COUNT0.off := by
  refine ⟨rfl, ?_⟩
  have hreg (off : Nat) (hvalue : off ≠ 0x110) (hstat : off ≠ 0x11C) : (s.refreshCrc key).reg key off = s.reg key off := by
    unfold State.refreshCrc
    dsimp only
    exact (reg_wf_other _ key _ _ hstat).trans (reg_setReg_other s key _ hvalue)
  unfold State.pair
  rw [hreg _ (by decide) (by decide), hreg _ (by decide) (by decide)]

theorem crcLoad_effect (s : State) (key : Nat) : ((s.crcLoad key).crcUnit key).reg = s.crcInitial key ∧
    ((s.crcLoad key).crcUnit key).half = none ∧ (s.crcLoad key).pair key Reg.CRC_COUNT0.off = 0 := by
  unfold State.crcLoad
  dsimp only
  obtain ⟨hunit, hpair⟩ := refreshCrc_effect ((s.modCrc key fun _ =>
    { reg := s.crcInitial key, poly := s.rf key Reg.CRC_CFG.POLY, feedPort := s.rb key Reg.CRC_CFG.FEED, half :=
        none }).setPair key Reg.CRC_COUNT0.off 0) key
  rw [hunit, hpair, pair_setPair]
  have hset (u : State) (v : Nat) : (u.setPair key Reg.CRC_COUNT0.off v).crcUnit key = u.crcUnit key := rfl
  rw [hset, crcUnit_modCrc]
  exact ⟨rfl, rfl, rfl⟩

theorem crcInitial_congr {t s : State} {key : Nat} (h : (t.page key).regs = (s.page key).regs) : t.crcInitial key = s.crcInitial key := by
  unfold State.crcInitial
  rw [reg_of_regs h, rb_of_regs h, rf_of_regs h, reg_of_regs h, reg_of_regs h]

theorem crcLoad_res (s : State) (key : Nat) : ((s.crcLoad key).page key).res = (s.page key).res := by
  have hraised : Raised (s.crcLoad key) s :=
    (wf_raised _ _ _ _).trans ((setReg_raised _ _ _ _).trans ((setReg_raised _ _ _ _).trans ((setReg_raised _ _ _ _).trans (.of_page fun _ => rfl))))
  exact hraised.get key (·.res)

theorem regs_doneWith (s : State) (key : Nat) (r : List Word) : ((s.doneWith key r).page key).regs = (s.page key).regs :=
  (doneWith_ended s key r).get key (·.regs)

theorem exec_finish_of_takes {s : State} {who : Issuer} {unit : Fin 12} {tag : Nat} (ht : s.takes who (keyCRC unit))
    (hactive : (s.page (keyCRC unit)).st = .active) (hfree : (s.page (keyCRC unit)).resReady = false)
        (hhalf : (s.crcUnit (keyCRC unit)).half = none) :
    ∃ t, exec (.finish who unit tag) s = .next t ∧ (t.page (keyCRC unit)).res[0]? = some (s.reg (keyCRC unit) Reg.CRC_VALUE.off) ∧
      (t.crcUnit (keyCRC unit)).reg = s.crcInitial (keyCRC unit) ∧ t.pair (keyCRC unit) Reg.CRC_COUNT0.off = 0 := by
  let key : Nat := keyCRC unit
  let op : Op := s.latch key 0x0100 tag
  let accepted : State := s.accept key op
  let ws : List Word := [accepted.reg key Reg.CRC_VALUE.off, accepted.reg key Reg.CRC_COUNT0.off, accepted.reg key Reg.CRC_COUNT1.off]
  have hpage : accepted.page key = { s.page key with op := some op, progress := 0, cmdStat := cmdStatWord op.tag phaseRUNNING 0 codeOK } :=
    page_accept_same s key op
  have hregs : (accepted.page key).regs = (s.page key).regs := by rw [hpage]
  have hdone := page_doneWith_same (s := accepted) (key := key) (op := op) (by rw [hpage]) rfl (by rw [hpage]; exact hfree) ws
  obtain ⟨hreg, -, hcount⟩ := crcLoad_effect (accepted.doneWith key ws) key
  refine ⟨(accepted.doneWith key ws).crcLoad key, ?_, ?_, ?_, hcount⟩
  · change execFinish who unit tag s = _
    unfold execFinish
    dsimp only
    rw [command_of_takes ht, if_neg (not_not_intro hactive), loseHalf_of_none]
    exact hhalf
  · rw [crcLoad_res, hdone]
    exact congrArg some (reg_of_regs hregs _)
  · exact hreg.trans (crcInitial_congr ((regs_doneWith accepted key ws).trans hregs))

theorem loseHalf_regs (s : State) (key : Nat) (off : Nat) (hvalue : off ≠ 0x110) (hstat : off ≠ 0x11C) (hflt : key ≠ keyFLT) :
    (s.loseHalf key).reg key off = s.reg key off := by
  unfold State.loseHalf State.refreshCrc
  split
  · rw [reg_setErr (hkey := hflt)]
    exact (reg_wf_other _ key _ _ hstat).trans (reg_setReg_other _ key _ hvalue)
  · rfl

theorem crcInitial_loseHalf (s : State) {key : Nat} (hflt : key ≠ keyFLT) : (s.loseHalf key).crcInitial key = s.crcInitial key := by
  have hreg (off : Nat) (hvalue : off ≠ 0x110) (hstat : off ≠ 0x11C) := loseHalf_regs s key off hvalue hstat hflt
  unfold State.crcInitial State.rb State.rf
  rw [hreg _ (by decide) (by decide), hreg _ (by decide) (by decide), hreg _ (by decide) (by decide), hreg _ (by decide) (by decide),
    hreg _ (by decide) (by decide)]

theorem keyCRC_ne_keyFLT : ∀ unit : Fin 12, keyCRC unit ≠ keyFLT := by decide

theorem exec_reseed_of_takes {s : State} {who : Issuer} {unit : Fin 12} {tag : Nat} (ht : s.takes who (keyCRC unit))
    (hactive : (s.page (keyCRC unit)).st = .active) :
    ∃ t, exec (.reseed who unit tag) s = .next t ∧ (t.crcUnit (keyCRC unit)).reg = s.crcInitial (keyCRC unit) ∧
      (t.crcUnit (keyCRC unit)).half = none ∧ t.pair (keyCRC unit) Reg.CRC_COUNT0.off = 0 := by
  let key : Nat := keyCRC unit
  let accepted : State := s.accept key (s.latch key 0x0101 tag)
  let loaded : State := (accepted.loseHalf key).crcLoad key
  have hflt : key ≠ keyFLT := keyCRC_ne_keyFLT unit
  obtain ⟨hreg, hhalf, hcount⟩ := crcLoad_effect (accepted.loseHalf key) key
  have hregs : (accepted.page key).regs = (s.page key).regs := by
    unfold accepted
    rw [page_accept_same]
  have hunit : (loaded.doneOp key).crcUnit key = loaded.crcUnit key := (doneOp_quiet loaded key).get (·.crcUnit key)
  refine ⟨loaded.doneOp key, ?_, ?_, ?_, ?_⟩
  · change execReseed who unit tag s = _
    unfold execReseed
    dsimp only
    rw [command_of_takes ht]
    exact congrArg Host.Outcome.next (if_neg (not_not_intro hactive))
  · exact (congrArg CrcUnit.reg hunit).trans (hreg.trans ((crcInitial_loseHalf accepted hflt).trans (crcInitial_congr hregs)))
  · exact (congrArg CrcUnit.half hunit).trans hhalf
  · refine Eq.trans ?_ hcount
    unfold State.pair
    rw [State.doneOp, reg_of_regs (regs_endOp loaded key _ _ _ key), reg_of_regs (regs_endOp loaded key _ _ _ key)]

theorem exec_crcFeed_word {s : State} {who : Issuer} {unit : Fin 12} {value : BitVec 32} (hh : s.honours who (keyCRC unit))
    (hactive : (s.page (keyCRC unit)).st = .active) (hport : (s.crcUnit (keyCRC unit)).feedPort = false)
        (hhalf : (s.crcUnit (keyCRC unit)).half = none) :
    ∃ t, exec (.crcFeed who unit 2 value) s = .next t ∧
      (t.crcUnit (keyCRC unit)).reg = crcFeedReg (s.crcUnit (keyCRC unit)).poly (s.crcUnit (keyCRC unit)).reg (leBytes value.toNat 4) ∧
      t.pair (keyCRC unit) Reg.CRC_COUNT0.off = (s.pair (keyCRC unit) Reg.CRC_COUNT0.off + 4) % 2 ^ 64 := by
  let key : Nat := keyCRC unit
  let fed : State := s.modCrc key fun u => { u with reg := crcFeedReg u.poly u.reg (leBytes value.toNat 4) }
  obtain ⟨hunit, hpair⟩ :=
      refreshCrc_effect (fed.setPair key Reg.CRC_COUNT0.off (fed.pair key Reg.CRC_COUNT0.off + (leBytes value.toNat 4).length)) key
  have hset (u : State) (v : Nat) : (u.setPair key Reg.CRC_COUNT0.off v).crcUnit key = u.crcUnit key := rfl
  refine ⟨s.crcFeed key (leBytes value.toNat 4), ?_, ?_, ?_⟩
  · change execCrcFeed who unit 2 value s = _
    unfold execCrcFeed
    dsimp only
    rw [write_of_honours hh, if_neg (not_not_intro hactive), if_neg (by rw [hport]; decide), if_neg (by decide), if_neg (by decide),
        loseHalf_of_none hhalf]
    rfl
  · refine (congrArg CrcUnit.reg hunit).trans ?_
    rw [hset, crcUnit_modCrc]
  · exact hpair.trans (pair_setPair _ _ _ _)

/-- Settles O29: a job latched, a job done between host areas, and the check units by what loads and feeds their register. -/
theorem compressionAndCheckUnitsComplete : Obligations.CompressionAndCheckUnitsComplete := by
  unfold Obligations.CompressionAndCheckUnitsComplete
  exact ⟨fun s who engine tag ht hbegin hflush hspace => exec_deflate_of_takes ht hbegin hflush hspace,
    fun s who engine tag ht hflags hflush hspace => exec_inflate_of_takes ht hflags.1 hflags.2 hflush hspace,
    fun s engine input j hjob hdeflate hbegin hspaces hlen hfits => exec_cmpJobDone_deflate hjob hdeflate hbegin hspaces.1 hspaces.2 hlen hfits,
    fun s engine input j hjob hinflate hbegin hspaces hlen hstop hfits =>
      exec_cmpJobDone_inflate hjob hinflate hbegin hspaces.1 hspaces.2 hlen hstop hfits,
    fun s who unit tag ht hactive hfree hhalf => exec_finish_of_takes ht hactive hfree hhalf,
    fun s who unit tag ht hactive => exec_reseed_of_takes ht hactive,
    fun s who unit value hh hactive hport hhalf => exec_crcFeed_word hh hactive hport hhalf⟩

end Sys2Proof.Machine

namespace Sys2Proof.Machine

/-! ### The system pages: what the effects of a fault, a power domain or a region leave of MOD, SEC, FLT and PWR. -/

/-- The pages of MOD, SEC and FLT; from `l` = 1 on PWR's as well, and from `l` = 2 on those of the converters. -/
def sysPage (l k : Nat) : Prop :=
  k = keyMOD ∨ k = keySEC ∨ k = keyFLT ∨ (1 ≤ l ∧ k = keyPWR) ∨ (2 ≤ l ∧ 3 ≤ k / 1024 ∧ k % 1024 = 1)

/-- Their registers: of FLT, FLT_STAT alone; of a converter, the marks of its sub-ADCs; and from `l` = 2 on BXE_STAT of a link end. -/
def sysReg (l k o : Nat) : Prop :=
  k = keyMOD ∨ k = keySEC ∨ (k = keyFLT ∧ o = 0x100) ∨ (1 ≤ l ∧ k = keyPWR) ∨
    (2 ≤ l ∧ 3 ≤ k / 1024 ∧ k % 1024 = 1 ∧ (o = 0x120 ∨ o = 0x124)) ∨ (2 ≤ l ∧ 0x3F0 ≤ k % 1024 ∧ o = 0x100)

/-- From `s` to `t` the system pages keep their registers and all but flags, and no flag of theirs is cleared. -/
structure Steady (l : Nat) (t s : State) : Prop where
  reg : ∀ k o, sysReg l k o → t.reg k o = s.reg k o
  page : ∀ k, sysPage l k → ∃ err irq regs, t.page k = { s.page k with err := err, irq := irq, regs := regs } ∧
    (∀ i, wbit (s.page k).err i = true → wbit err i = true) ∧ (∀ i, wbit (s.page k).irq i = true → wbit irq i = true)

section
variable {l : Nat}

theorem Steady.of_raised {t s : State} (h : Raised t s) (hr : ∀ k o, sysReg l k o → t.reg k o = s.reg k o) : Steady l t s :=
  ⟨hr, fun k _ => h k⟩

theorem Steady.of_page {t s : State} (h : ∀ k, t.page k = s.page k) : Steady l t s := .of_raised (.of_page h) fun k o _ => reg_congr (h k) o

theorem Steady.refl (s : State) : Steady l s s := .of_page fun _ => rfl

theorem Steady.trans {t u s : State} (h1 : Steady l t u) (h2 : Steady l u s) : Steady l t s := by
  refine ⟨fun k o h => (h1.reg k o h).trans (h2.reg k o h), fun k hk => ?_⟩
  obtain ⟨err, irq, regs, ht, herr, hirq⟩ := h1.page k hk
  obtain ⟨err', irq', regs', hu, herr', hirq'⟩ := h2.page k hk
  rw [hu] at ht herr hirq
  exact ⟨err, irq, regs, ht, fun i hi => herr i (herr' i hi), fun i hi => hirq i (hirq' i hi)⟩

/-- A state with the same pages changes as little. -/
theorem Steady.congr {t u s : State} (h : Steady l u s) (hp : t.pages = u.pages) (hg : t.guest = u.guest) : Steady l t s :=
  .trans (.of_page (page_congr hp hg)) h

theorem Steady.ite {p : Prop} [Decidable p] {a b s : State} (ha : Steady l a s) (hb : Steady l b s) : Steady l (if p then a else b) s := by
  split
  · exact ha
  · exact hb

theorem Steady.foldl {α : Type} {f : State → α → State} {xs : List α} (h : ∀ s, ∀ x ∈ xs, Steady l (f s x) s) (s : State) :
    Steady l (xs.foldl f s) s := by
  induction xs generalizing s with
  | nil => exact .refl s
  | cons x xs ih =>
    exact (ih (fun u y hy => h u y (List.mem_cons_of_mem _ hy)) (f s x)).trans (h s x List.mem_cons_self)

/-- What no flag and no register of a system page holds reads as before. -/
theorem Steady.get {t s : State} (h : Steady l t s) {k : Nat} (hk : sysPage l k) {α : Type} (f : Page → α) :
    f (t.page k) = f { s.page k with err := (t.page k).err, irq := (t.page k).irq, regs := (t.page k).regs } := by
  obtain ⟨err, irq, regs, ht, _, _⟩ := h.page k hk
  rw [ht]

theorem Steady.err {t s : State} (h : Steady l t s) {k i : Nat} (hk : sysPage l k) (hi : wbit (s.page k).err i = true) :
    wbit (t.page k).err i = true := by
  obtain ⟨err, irq, regs, ht, herr, _⟩ := h.page k hk
  rw [ht]
  exact herr i hi

theorem Steady.irq {t s : State} (h : Steady l t s) {k i : Nat} (hk : sysPage l k) (hi : wbit (s.page k).irq i = true) :
    wbit (t.page k).irq i = true := by
  obtain ⟨err, irq, regs, ht, _, hirq⟩ := h.page k hk
  rw [ht]
  exact hirq i hi

theorem Steady.rf {t s : State} (h : Steady l t s) {k : Nat} {f : RegField} (hr : sysReg l k f.off) : t.rf k f = s.rf k f := by
  unfold State.rf
  rw [h.reg k _ hr]

theorem Steady.rb {t s : State} (h : Steady l t s) {k : Nat} {f : RegField} (hr : sysReg l k f.off) : t.rb k f = s.rb k f := by
  unfold State.rb
  rw [h.rf hr]

/-! ### Pages and registers that are no system page's. -/

/-- A page that is no system page, nor a link end's. -/
def Plain (k : Nat) : Prop := k ≠ keyMOD ∧ k ≠ keySEC ∧ k ≠ keyFLT ∧ k ≠ keyPWR ∧ k % 1024 < 0x3F0 ∧ (k / 1024 < 3 ∨ k % 1024 ≠ 1)

theorem Plain.reg {k o : Nat} (h : Plain k) : ¬ sysReg l k o := by
  unfold Plain at h
  unfold sysReg
  omega

theorem Plain.page {k : Nat} (h : Plain k) : ¬ sysPage l k := by
  unfold Plain at h
  unfold sysPage
  omega

theorem plain_keyOf {r p : Nat} (hp : p < 0x3F0) (h : (1 ≤ r ∧ 2 ≤ p) ∨ (r ≤ 2 ∧ 8 ≤ p)) : Plain (keyOf r p) := by
  unfold Plain keyMOD keySEC keyFLT keyPWR keyOf
  omega

theorem plain_keyPHN : Plain keyPHN := by
  unfold Plain
  decide

theorem plain_keyAFE (c : Nat) : Plain (keyAFE c) := plain_keyOf (by decide) (.inl ⟨by omega, by decide⟩)

theorem plain_keyTRM (c : Nat) : Plain (keyTRM c) := plain_keyOf (by decide) (.inl ⟨by omega, by decide⟩)

theorem plain_keyPipe (p i : Nat) (hi : i < 0x10) : Plain (keyPipe p i) := plain_keyOf (by omega) (.inl ⟨by omega, by omega⟩)

theorem not_sysReg_keyADC (c : Nat) {o : Nat} (h : o ≠ 0x120 ∧ o ≠ 0x124) : ¬ sysReg l (keyADC c) o := by
  unfold sysReg keyMOD keySEC keyFLT keyPWR keyADC keyOf
  omega

theorem modPage_steady (s : State) {key : Nat} (f : Page → Page) (h : Plain key) : Steady l (s.modPage key f) s := by
  have hother {k : Nat} (h : k ≠ key) := State.page_modPage_other s f h
  refine ⟨fun k o hk => reg_congr (hother ?_) o, fun k hk => ⟨_, _, _, hother ?_, fun _ => id, fun _ => id⟩⟩
  · rintro rfl
    exact h.reg hk
  · rintro rfl
    exact h.page hk

theorem setReg_steady (s : State) {key off : Nat} (w : Word) (h : ¬ sysReg l key off) : Steady l (s.setReg key off w) s := by
  refine .of_raised (setReg_raised s key off w) fun k o hr => ?_
  by_cases hk : k = key
  · subst hk
    refine reg_setReg_other s k w fun ho => ?_
    subst ho
    exact h hr
  · exact reg_congr (State.page_modPage_other s _ hk) o

theorem wf_steady (s : State) {key : Nat} (f : RegField) (v : Nat) (h : ¬ sysReg l key f.off) : Steady l (s.wf key f v) s := setReg_steady s _ h

theorem wb_steady (s : State) {key : Nat} (f : RegField) (b : Bool) (h : ¬ sysReg l key f.off) : Steady l (s.wb key f b) s := setReg_steady s _ h

theorem count_steady (s : State) {key : Nat} (f : RegField) (h : ¬ sysReg l key f.off) : Steady l (s.count key f) s := setReg_steady s _ h

theorem countBy_steady (s : State) {key : Nat} (f : RegField) (m : Nat) (h : ¬ sysReg l key f.off) : Steady l (s.countBy key f m) s :=
  setReg_steady s _ h

theorem irqBit_steady (s : State) (key i : Nat) : Steady l (s.irqBit key i) s :=
  .of_raised (irqBit_raised s key i) fun k o _ => reg_of_regs (regs_irqBit s key i k) o

theorem regs_setErrFlag (s : State) (key bit j : Nat) : ((s.setErrFlag key bit).page j).regs = (s.page j).regs := by
  have h : ((s.setPage key { s.page key with err := (s.page key).err ||| word (2 ^ bit) }).page j).regs = (s.page j).regs := by
    by_cases hj : j = key
    · subst hj
      rw [State.page_setPage]
    · rw [State.page_setPage_other s _ hj]
  unfold State.setErrFlag
  dsimp only
  split
  · rw [regs_irqBit]
    exact h
  · exact h

theorem setErrFlag_steady (s : State) (key bit : Nat) : Steady l (s.setErrFlag key bit) s :=
  .of_raised (setErrFlag_raised s key bit) fun k o _ => reg_of_regs (regs_setErrFlag s key bit k) o

/-- Of the log's own page FLT_STAT is no register that an entry changes. -/
theorem not_sysReg_keyFLT {o : Nat} (ho : o ≠ 0x100) : ¬ sysReg l keyFLT o := by
  unfold sysReg keyMOD keySEC keyFLT keyPWR keyOf
  omega

theorem logRaw_steady (s : State) (e : LogEntry) : Steady l (s.logRaw e) s := by
  unfold State.logRaw
  extract_lets +onlyGivenNames m e2 full s1 s2 s3
  have hflt {f : RegField} (h : f.off ≠ 0x100) : ¬ sysReg l keyFLT f.off := not_sysReg_keyFLT h
  have h2 : Steady l s2 s := (wf_steady s1 _ _ (hflt (by decide))).trans (.congr (.refl s) rfl rfl)
  have h3 : Steady l s3 s := .ite ((wf_steady _ _ _ (hflt (by decide))).trans ((count_steady s2 _ (hflt (by decide))).trans h2)) h2
  clear_value s3
  extract_lets +onlyGivenNames src s4 s5
  have h4 : Steady l s4 s :=
    .ite (.congr ((count_steady s3 Reg.FLT_FLASH_COUNT (hflt (by decide))).trans h3) rfl rfl) h3
  clear_value s4
  have h5 : Steady l s5 s := .ite ((irqBit_steady s4 keyFLT 16).trans h4) h4
  exact .ite (.congr h5 rfl rfl) h5

theorem log1_steady (s : State) (e : LogEntry) : Steady l (s.log1 e) s := by
  have h := logRaw_steady (l := l) s e
  exact .ite ((logRaw_steady _ _).trans ((setErrFlag_steady _ keyFLT errLOG_LOST).trans h)) h

theorem logPage_steady (s : State) (key level code sub kind detail : Nat) : Steady l (s.logPage key level code sub kind detail) s :=
  log1_steady s _

theorem setErr_steady (s : State) (key bit : Nat) : Steady l (s.setErr key bit) s :=
  .ite (.refl s) ((logPage_steady _ _ _ _ _ _ _).trans (setErrFlag_steady s key bit))

/-- A block state, of a page that is no system page. -/
theorem enter_steady (s : State) {key : Nat} (st : BlockState) (h : ¬ sysPage l key) : Steady l (s.enter key st) s := by
  refine .ite (.refl s) ((irqBit_steady _ _ _).trans ⟨fun k o _ => ?_, fun k hk => ?_⟩)
  · exact reg_of_regs (get_modPage Page.regs (by intro; rfl) s key k) o
  · exact ⟨_, _, _, State.page_modPage_other s _ fun hk' => h (hk' ▸ hk), fun _ => id, fun _ => id⟩

theorem endOp_steady (s : State) {key : Nat} (phase code sub : Nat) (h : ¬ sysPage l key) : Steady l (s.endOp key phase code sub) s := by
  unfold State.endOp
  split
  · exact .refl s
  · refine (irqBit_steady _ _ _).trans ⟨fun k o _ => ?_, fun k hk => ?_⟩
    · exact reg_of_regs (get_modPage Page.regs (by intro; rfl) s key k) o
    · exact ⟨_, _, _, State.page_modPage_other s _ fun hk' => h (hk' ▸ hk), fun _ => id, fun _ => id⟩

/-! ### A converter that fails. -/

theorem modConv_steady (s : State) (n : Nat) (f : Conv → Conv) : Steady l (s.modConv n f) s := .of_page fun _ => rfl

theorem modRot_steady (s : State) (f : Rotation → Rotation) : Steady l (s.modRot f) s := .of_page fun _ => rfl

theorem modPhn_steady (s : State) (f : Phoin → Phoin) : Steady l (s.modPhn f) s := .of_page fun _ => rfl

theorem modChain_steady (s : State) (p : Nat) (f : Chain → Chain) : Steady l (s.modChain p f) s := .of_page fun _ => rfl

/-! ### Steps of the spare's rotation. -/

theorem convDown_steady (s : State) (n m : Nat) : Steady l (s.convDown n m) s := by
  unfold State.convDown
  extract_lets s1 s2 s3
  have h2 : Steady l s2 s := (wb_steady _ _ _ (not_sysReg_keyADC _ (by decide))).trans (wf_steady s _ _ (not_sysReg_keyADC _ (by decide)))
  have h3 : Steady l s3 s := .ite ((wb_steady _ _ _ (not_sysReg_keyADC _ (by decide))).trans h2) h2
  exact (wb_steady _ _ _ (not_sysReg_keyADC _ (by decide))).trans h3

theorem setAdcCfg_steady (s : State) (n : Nat) (w : Word) : Steady l (s.setAdcCfg n w) s := by
  unfold State.setAdcCfg
  exact (modConv_steady _ _ _).trans (setReg_steady (off := 0x100) s w (not_sysReg_keyADC _ (by decide)))

theorem afeSet_steady (s : State) (n input zone atten six : Nat) (sel : Bool) : Steady l (s.afeSet n input zone atten six sel) s := by
  have hk := plain_keyAFE n
  unfold State.afeSet
  extract_lets k wide att until_ old s1 s2 s3 s4 s5 s6
  have h5 : Steady l s5 s :=
    (setReg_steady _ _ hk.reg).trans ((setReg_steady _ _ hk.reg).trans ((setReg_steady _ _ hk.reg).trans
      ((wb_steady _ _ _ hk.reg).trans ((wf_steady _ _ _ hk.reg).trans ((wf_steady _ _ _ hk.reg).trans
        (wf_steady s _ _ hk.reg))))))
  exact .ite (.refl s) ((modConv_steady _ _ _).trans ((modPage_steady _ _ hk).trans h5))

theorem waf_steady (s : State) (n : Nat) (f : RegField) (v : Nat) : Steady l (s.waf (keyAFE n) f v) s := by
  unfold State.waf State.setAreg
  exact modPage_steady s _ (plain_keyAFE n)

theorem spareFront_steady (s : State) (input zone atten sel six : Nat) : Steady l (s.spareFront input zone atten sel six) s := by
  have hk := plain_keyAFE 4
  unfold State.spareFront
  extract_lets k put s1
  have hput (u : State) (f : RegField) (v : Nat) : Steady l (put u f v) u := (waf_steady _ 4 f v).trans (wf_steady u f v hk.reg)
  exact (afeSet_steady _ _ _ _ _ _ _).trans ((wf_steady _ _ _ hk.reg).trans ((waf_steady _ 4 _ _).trans
    ((hput _ _ _).trans ((hput _ _ _).trans (hput s _ _)))))

theorem addSkew_steady (s : State) (n : Nat) (d : Int) : Steady l (s.addSkew n d) s :=
  .foldl (fun u k _ => wf_steady u (Reg.TRM_SUB_B.SKEW k) _ (plain_keyTRM n).reg) s

theorem restoreTrims_steady (s : State) (n : Nat) : Steady l (s.restoreTrims n) s := by
  unfold State.restoreTrims
  split
  · exact modPage_steady s _ (plain_keyTRM n)
  · exact .refl s

theorem dropEst1_steady (s : State) : Steady l s.dropEst1 s := by
  unfold State.dropEst1
  exact .foldl (fun u p _ => .ite ((wf_steady _ _ _ (plain_keyPipe p 0 (by decide)).reg).trans (modChain_steady _ _ _)) (.refl u)) s

theorem refreshSrc_steady (s : State) : Steady l s.refreshSrc s := by
  unfold State.refreshSrc
  exact .foldl (fun u p _ => wf_steady u _ _ (plain_keyPipe p 0 (by decide)).reg) s

theorem spareEnter_steady (s : State) (n : Nat) : Steady l (s.spareEnter n) s := wf_steady s _ _ (not_sysReg_keyADC _ (by decide))

theorem surveyFails_steady (s : State) (code sub : Nat) : Steady l (s.surveyFails code sub) s := by
  unfold State.surveyFails
  split
  · exact .ite (.refl s) (.of_page fun _ => rfl)
  · exact .refl s

theorem spareIdle_steady (s : State) (result : Nat) : Steady l (s.spareIdle result) s := by
  unfold State.spareIdle
  extract_lets s1 s2 s3 s4 s5 s6 s7
  have h4 : Steady l s4 s := (modRot_steady _ _).trans ((addSkew_steady _ _ _).trans ((spareFront_steady _ _ _ _ _ _).trans (dropEst1_steady s)))
  have h6 : Steady l s6 s := (wf_steady _ _ _ (not_sysReg_keyADC _ (by decide))).trans ((wf_steady _ _ _ (not_sysReg_keyADC _ (by decide))).trans h4)
  exact (spareEnter_steady _ _).trans (.ite h6 ((wf_steady _ _ _ (not_sysReg_keyADC _ (by decide))).trans h6))

theorem spareTake_steady (s : State) (main input : Nat) : Steady l (s.spareTake main input) s := by
  unfold State.spareTake
  exact (modRot_steady _ _).trans ((setAdcCfg_steady _ _ _).trans ((wf_steady _ _ _ (not_sysReg_keyADC _ (by decide))).trans
    ((wf_steady _ _ _ (not_sysReg_keyADC _ (by decide))).trans (spareFront_steady s _ _ _ _ _))))

theorem rotate_steady (s : State) (main : Nat) : Steady l (s.rotate main) s :=
  .ite ((spareEnter_steady _ _).trans (spareTake_steady s _ _)) (.ite (.refl s) (modRot_steady s _))

theorem spareDone_steady (s : State) (result : Nat) : Steady l (s.spareDone result) s := by
  unfold State.spareDone
  dsimp only
  split
  · exact .ite ((rotate_steady _ _).trans ((modRot_steady _ _).trans (spareIdle_steady s _))) (spareIdle_steady s _)
  · exact spareIdle_steady s _

theorem lastPath_steady (s : State) : Steady l s.lastPath s := by
  unfold State.lastPath
  exact (modRot_steady _ _).trans ((addSkew_steady _ _ _).trans (setAdcCfg_steady s _ _))

theorem putRing1_steady (s : State) (r : Ring1) : Steady l (s.putRing1 r) s := by
  refine .of_page ?_
  unfold State.putRing1 State.sendMsix
  dsimp only
  split
  · exact fun _ => rfl
  · exact fun _ => rfl

theorem notify_steady (s : State) (task cause six detail0 : Nat) : Steady l (s.notify task cause six detail0) s := by
  refine .ite (modPhn_steady s _) ?_
  unfold State.putNotice
  split
  · exact (wf_steady _ _ _ plain_keyPHN.reg).trans (modPhn_steady s _)
  · exact .ite (putRing1_steady s _) (modPhn_steady s _)

theorem channelStale_steady (s : State) (n : Nat) : Steady l (s.channelStale n) s := by
  refine .ite (.refl s) ?_
  unfold State.each
  exact (Steady.foldl (fun u id _ => notify_steady u id _ _ _) _).trans (.of_page fun _ => rfl)

theorem standIn_steady (s : State) (n : Nat) : Steady l (s.standIn n) s := by
  unfold State.standIn
  extract_lets m s1 h1 s2 s3 h3
  have hs1 : Steady l s1 s := .ite (.refl s) (lastPath_steady s)
  have hs3 : Steady l s3 s := (lastPath_steady _).trans (spareTake_steady s _ _)
  refine .ite ?_ (.ite ?_ (.ite ?_ (channelStale_steady s n)))
  · exact (surveyFails_steady _ _ _).trans ((spareEnter_steady _ _).trans (modRot_steady s _))
  · exact (surveyFails_steady _ _ _).trans ((spareEnter_steady _ _).trans ((modRot_steady _ _).trans hs1))
  · exact (spareEnter_steady _ _).trans ((modRot_steady _ _).trans hs3)

theorem setCarrier_steady (s : State) (n m h : Nat) : Steady l (s.setCarrier n m h) s := by
  unfold State.setCarrier
  exact (refreshSrc_steady _).trans (.of_page fun _ => rfl)

theorem spareFails_steady (s : State) : Steady l s.spareFails s := by
  unfold State.spareFails
  extract_lets n m s1 ok b s2 s3
  have h1 : Steady l s1 s := surveyFails_steady s _ _
  have h2 : Steady l s2 s := (restoreTrims_steady _ _).trans ((setCarrier_steady _ _ _ _).trans h1)
  have h3 : Steady l s3 s :=
    .ite ((modConv_steady _ _ _).trans ((afeSet_steady _ _ _ _ _ _ _).trans h2)) ((channelStale_steady _ _).trans h2)
  exact .ite h1 (.ite ((spareDone_steady _ _).trans h1) ((spareDone_steady _ _).trans h3))

/-- A converter that fails goes down, and the spare stands in where it can: the marks of its page stay. -/
theorem convFault_steady (s : State) (n : Nat) : Steady l (s.convFault n) s := by
  have hdown := convDown_steady (l := l) s n convDOWN
  exact .ite ((spareFails_steady _).trans hdown) (.ite ((channelStale_steady _ _).trans hdown) ((standIn_steady _ _).trans hdown))

end

end Sys2Proof.Machine

namespace Sys2Proof.Machine

/-! ### What samples reach as they pass a chain, its insets and its triggers. -/

/-- From `s` to `t` nothing changes but chains, insets, trigger pipelines, records, and what interrupts, errors and the log reach. -/
def Piped (t s : State) : Prop :=
  t = { s with pages := t.pages, out := t.out, log := t.log, flashLog := t.flashLog, held := t.held, msixPend := t.msixPend,
               chains := t.chains, insets := t.insets, trigs := t.trigs, readyRecs := t.readyRecs }

theorem Piped.refl (s : State) : Piped s s := rfl

theorem Piped.trans {t u s : State} (h1 : Piped t u) (h2 : Piped u s) : Piped t s := by
  unfold Piped at h1 h2
  unfold Piped
  rw [h1, h2]

theorem Piped.ite {c : Prop} [Decidable c] {a b s : State} (ha : Piped a s) (hb : Piped b s) : Piped (if c then a else b) s := by
  split
  · exact ha
  · exact hb

theorem Piped.foldl {α : Type} {f : State → α → State} (h : ∀ s x, Piped (f s x) s) (xs : List α) (s : State) : Piped (xs.foldl f s) s := by
  induction xs generalizing s with
  | nil => exact .refl s
  | cons x xs ih => exact (ih (f s x)).trans (h s x)

theorem Quiet.piped {t s : State} (h : Quiet t s) : Piped t s := by
  unfold Quiet at h
  unfold Piped
  rw [h]

theorem Piped.convs {t s : State} (h : Piped t s) : t.convs = s.convs := by
  rw [h]

theorem modChain_piped (s : State) (p : Nat) (f : Chain → Chain) : Piped (s.modChain p f) s := rfl
theorem modInset_piped (s : State) (p k : Nat) (f : Inset → Inset) : Piped (s.modInset p k f) s := rfl
theorem modTrig_piped (s : State) (p : Nat) (f : Trig → Trig) : Piped (s.modTrig p f) s := rfl
theorem modUnit_piped (s : State) (p n : Nat) (f : TdUnit → TdUnit) : Piped (s.modUnit p n f) s := rfl
theorem addReady_piped (s : State) (src : RecSource) (r : Record) : Piped (s.addReady src r) s := rfl
theorem addOcc_piped (s : State) (p : Nat) (o : Occ) : Piped (s.addOcc p o) s := rfl
theorem addChange_piped (s : State) (p src sample : Nat) (on : Bool) : Piped (s.addChange p src sample on) s := rfl
theorem dropRaw_piped (s : State) (p lim : Nat) : Piped (s.dropRaw p lim) s := rfl
theorem showFlat_piped (s : State) (p : Nat) : Piped (s.showFlat p) s := rfl
theorem setErr_piped (s : State) (key i : Nat) : Piped (s.setErr key i) s := (setErr_quiet s key i).piped
theorem tdSet_piped (s : State) (p n : Nat) (met unarmed : Bool) : Piped (s.tdSet p n met unarmed) s := rfl

theorem countDropped_piped (s : State) (key n : Nat) : Piped (s.countDropped key n) s := .ite (modPage_quiet s key _).piped (.refl s)

theorem showMarks_piped (s : State) (key marks : Nat) : Piped (s.showMarks key marks) s := .ite (.refl s) (modPage_quiet s key _).piped

theorem noteZone_piped (s : State) (p c index : Nat) : Piped (s.noteZone p c index) s := .ite (.refl s) (modChain_piped s p _)

theorem noteFlat_piped (s : State) (p c index : Nat) : Piped (s.noteFlat p c index) s := by
  refine .ite (.refl s) ?_
  split
  · exact .ite (.refl s) ((showFlat_piped _ p).trans (modChain_piped s p _))
  · exact (showFlat_piped _ p).trans (modChain_piped s p _)

theorem dcFrame_piped (s : State) (p : Nat) (spare : Bool) (f : Nat) (codes : List Nat) : Piped (s.dcFrame p spare f codes).1 s := by
  unfold State.dcFrame
  dsimp only
  split
  · exact .refl s
  · split
    · exact (wf_quiet _ _ _ _).piped.trans (modChain_piped s p _)
    · exact (wf_quiet _ _ _ _).piped.trans (modChain_piped s p _)

theorem zoneCheck_piped (s : State) (p : Nat) : Piped (s.zoneCheck p) s := .ite (setErr_piped s _ _) (.refl s)

/-- A frame that comes in reaches its chain alone. -/
theorem chainInput_piped (s : State) (p c f : Nat) (codes : List Nat) (runs : List MarkRun) : Piped (s.chainInput p c f codes runs) s := by
  unfold State.chainInput
  extract_lets g s1 s2 r s3 keep
  have h1 : Piped s1 s := noteFlat_piped s _ _ _
  have h2 : Piped s2 s := .ite ((noteZone_piped _ _ _ _).trans h1) h1
  have h3 : Piped s3 s := (modChain_piped _ _ _).trans ((dcFrame_piped _ _ _ _ _).trans h2)
  exact .ite ((countDropped_piped _ _ _).trans h3) ((modChain_piped _ _ _).trans ((zoneCheck_piped _ _).trans h3))

/-! ### A sample leaves the chain, and passes the time-domain triggers. -/

theorem noteSat_piped (s : State) (p mask : Nat) : Piped (s.noteSat p mask) s :=
  .ite (.refl s) ((setErr_piped _ _ _).trans (setReg_quiet _ _ _ _).piped)

theorem pushFifo_piped (s : State) (p : Nat) (c : ChainSample) : Piped (s.pushFifo p c) s :=
  .ite (.refl s) (.ite (modChain_piped s p _) ((setErr_piped _ _ _).trans ((count_quiet _ _ _).piped.trans (modChain_piped s p _))))

theorem tdDisarm_piped (s : State) (p n sample : Nat) : Piped (s.tdDisarm p n sample) s := by
  unfold State.tdDisarm
  exact (modUnit_piped _ _ _ _).trans ((tdSet_piped _ _ _ _ _).trans (.ite (addChange_piped s p _ _ _) (.refl s)))

theorem tdUnit_piped (s : State) (p n : Nat) (c : ChainSample) : Piped (s.tdUnit p n c) s := by
  unfold State.tdUnit
  extract_lets k type win dir comp t h u window sum full r wouldFire s1 a b s2 holds s3 hyst level off s4 s5 s6
  have h1 : Piped s1 s := .ite (count_quiet s _ _).piped (.refl s)
  have h2 : Piped s2 s := modUnit_piped s p n _
  have h3 : Piped s3 s := (tdSet_piped _ _ _ _ _).trans h2
  have h4 : Piped s4 s := .ite ((addOcc_piped _ _ _).trans ((count_quiet _ _ _).piped.trans h2)) h2
  have h5 : Piped s5 s := (tdSet_piped _ _ _ _ _).trans h4
  have h6 : Piped s6 s := (tdSet_piped _ _ _ _ _).trans h4
  refine .ite (.refl s) (.ite ((tdDisarm_piped _ _ _ _).trans h1) (.ite (.ite (.ite ?_ h3) h2) (.ite (.ite ?_ h5) (.ite (.ite ?_ h6) h4))))
  · exact (addChange_piped _ _ _ _ _).trans h3
  · exact (addChange_piped _ _ _ _ _).trans h5
  · exact (addChange_piped _ _ _ _ _).trans h6

theorem tdEval_piped (s : State) (p : Nat) (c : ChainSample) : Piped (s.tdEval p c) s :=
  .ite (.foldl (fun u n => tdUnit_piped u p n c) _ s) (countDropped_piped s _ _)

theorem pushOutput_piped (s : State) (p : Nat) (out : ChainSample) : Piped (s.pushOutput p out) s :=
  (countDropped_piped _ _ _).trans ((tdEval_piped _ _ _).trans ((pushFifo_piped _ _ _).trans (modChain_piped s p _)))

theorem emitOutput_piped (s : State) (p : Nat) (x : StageIn) : Piped (s.emitOutput p x) s := by
  unfold State.emitOutput
  extract_lets k label v marks at0 src s1 s2 s3 s4
  have h1 : Piped s1 s := noteSat_piped s _ _
  have h2 : Piped s2 s := .ite ((modPage_quiet _ _ _).piped.trans h1) h1
  exact (pushOutput_piped _ _ _).trans ((modChain_piped _ _ _).trans ((showMarks_piped _ _ _).trans h2))

theorem emitReady_piped (s : State) (p n : Nat) : Piped (s.emitReady p n) s := by
  induction n generalizing s with
  | zero => exact .refl s
  | succ n ih =>
    unfold State.emitReady
    dsimp only
    split
    · exact .refl s
    · exact .ite (.refl s) ((ih _).trans (emitOutput_piped s p _))

/-! ### A sample passes the insets. -/

theorem insetSat_piped (s : State) (p k : Nat) (clip : Bool) : Piped (s.insetSat p k clip) s :=
  .ite ((setErr_piped _ _ _).trans (setReg_quiet _ _ _ _).piped) (.refl s)

theorem insetRecord_piped (s : State) (p k : Nat) (t : Task) (cfg : Word) : Piped (s.insetRecord p k t cfg) s :=
  (addReady_piped _ _ _).trans (modInset_piped s p k _)

theorem insetChunk_piped (s : State) (p k : Nat) (cfg : Word) (label : Nat) (v : Int × Int) (marks : Nat) :
    Piped (s.insetChunk p k cfg label v marks) s := by
  unfold State.insetChunk
  split
  · exact modInset_piped s p k _
  · exact .ite ((insetRecord_piped _ _ _ _ _).trans (modInset_piped s p k _)) (modInset_piped s p k _)

theorem insetEmit_piped (s : State) (p k : Nat) (cfg : Word) (x : StageIn) : Piped (s.insetEmit p k cfg x) s := by
  unfold State.insetEmit
  exact (modInset_piped _ _ _ _).trans ((showMarks_piped _ _ _).trans ((insetChunk_piped _ _ _ _ _ _ _).trans (insetSat_piped s p k _)))

theorem insetReady_piped (s : State) (p k : Nat) (cfg : Word) (n : Nat) : Piped (s.insetReady p k cfg n) s := by
  induction n generalizing s with
  | zero => exact .refl s
  | succ n ih =>
    unfold State.insetReady
    dsimp only
    split
    · exact .refl s
    · exact .ite (.refl s) ((ih _).trans (insetEmit_piped s p k cfg _))

theorem insetFeed_piped (s : State) (p k : Nat) (mid : List StageIn) : Piped (s.insetFeed p k mid) s := by
  unfold State.insetFeed
  extract_lets b cfg i lead new r s1 s2
  have h2 : Piped s2 s := (insetReady_piped _ _ _ _ _).trans ((modInset_piped _ _ _ _).trans (insetSat_piped s p k _))
  exact .ite ((modInset_piped _ _ _ _).trans h2) h2

theorem insetsFeed_piped (s : State) (p : Nat) (mid : List StageIn) : Piped (s.insetsFeed p mid) s :=
  .ite (.foldl (fun u k => insetFeed_piped u p k mid) _ s) (countDropped_piped s _ _)

/-- What a chain makes of its input reaches nothing outside chains, insets and triggers. -/
theorem chainRun_piped (s : State) (p : Nat) : Piped (s.chainRun p) s := by
  unfold State.chainRun
  extract_lets g b c lim mixed z mid r s1 s2 s3 s4 s5 s6
  have h2 : Piped s2 s := (modChain_piped _ _ _).trans ((dropRaw_piped _ _ _).trans (dropRaw_piped s _ _))
  have h4 : Piped s4 s := (emitReady_piped _ _ _).trans ((noteSat_piped _ _ _).trans h2)
  have h6 : Piped s6 s := (insetsFeed_piped _ _ _).trans (.ite h4 ((modChain_piped _ _ _).trans h4))
  refine .ite (.refl s) ?_
  split
  · exact .ite ((insetsFeed_piped _ _ _).trans h6) h6
  · exact h6

/-! ### A sub-ADC that fails (R111). -/

/-- A block fault sets its bit of PG_ERR and leaves the block's registers. -/
theorem faultBlock_marks (s : State) {key bit : Nat} (hkey : key ≠ keyFLT) (hbit : bit < 32) :
    wbit ((s.faultBlock key bit).page key).err bit = true ∧ ∀ off, (s.faultBlock key bit).reg key off = s.reg key off := by
  unfold State.faultBlock
  extract_lets u v w
  have hu : wbit (u.page key).err bit = true ∧ ∀ off, u.reg key off = s.reg key off :=
    ⟨wbit_setErr s key hbit, reg_setErr (hkey := hkey) s⟩
  have hv : (v.page key).err = (u.page key).err ∧ (v.page key).regs = (u.page key).regs := by
    unfold v State.failOp
    refine ⟨?_, regs_endOp ..⟩
    cases hop : (u.page key).op with
    | none => unfold State.endOp; rw [hop]
    | some op => rw [page_endOp_same hop]
  have hw : wbit ((w.logPage key 2 codeFAULT 0 2 (w.page key).err.toNat).page key).err bit = true ∧
      ∀ off, (w.logPage key 2 codeFAULT 0 2 (w.page key).err.toNat).reg key off = s.reg key off := by
    have hpage := page_logPage w key 2 codeFAULT 0 2 (w.page key).err.toNat hkey
    have hwpage : (w.page key).err = (v.page key).err ∧ (w.page key).regs = (v.page key).regs := by
      unfold w
      rw [page_irqBit_same, page_enter_same]
      exact ⟨rfl, rfl⟩
    refine ⟨by rw [hpage, hwpage.1, hv.1]; exact hu.1, fun off => ?_⟩
    rw [reg_congr hpage, ← hu.2 off]
    unfold State.reg
    rw [hwpage.2, hv.2]
  split
  · exact hw
  · exact hw
  · exact hw
  · exact hw
  · exact hu

theorem keyADC_ne_keyFLT {c : Nat} : keyADC c ≠ keyFLT := by
  unfold keyADC keyFLT keyOf
  omega

/-! ### The events of a converter. -/

theorem conv_modConv (s : State) (c : Nat) (f : Conv → Conv) : (s.modConv c f).conv c = f (s.conv c) := mget_mput_same _ _ _ _

theorem conv_of_convs {t s : State} (h : t.convs = s.convs) (c : Nat) : t.conv c = s.conv c := by
  unfold State.conv
  rw [h]

/-- A converter whose field reads a state that no pattern stands behind is in it. -/
theorem convState_of_rf {s : State} {c n : Nat} (h : s.rf (keyADC c) Reg.ADC_STAT.CONV_STATE = n) (hn : n ≠ convPATTERN) : s.convState c = n := by
  unfold State.convState
  rw [h]
  exact if_neg fun h => hn h.1

theorem rf_convState_convDown (s : State) (c n : Nat) (hn : n < 16) : (s.convDown c n).rf (keyADC c) Reg.ADC_STAT.CONV_STATE = n := by
  unfold State.convDown State.updateLocked
  have h1 : (s.convEnter c n).rf (keyADC c) Reg.ADC_STAT.CONV_STATE = n := (rf_wf_same s _ n (by decide) (by decide)).trans (Nat.mod_eq_of_lt hn)
  extract_lets s1 s2 s3
  have h2 : s2.rf (keyADC c) Reg.ADC_STAT.CONV_STATE = n := (rf_wb_apart (.inr (.inr (by decide))) _ _).trans h1
  have h3 : s3.rf (keyADC c) Reg.ADC_STAT.CONV_STATE = n := by
    unfold s3
    split
    · exact (rf_wb_apart (.inr (.inr (by decide))) _ _).trans h2
    · exact h2
  exact (rf_wb_apart (.inr (.inr (by decide))) _ _).trans h3

theorem frameMissing_nextFrame (s : State) (c f : Nat) : ((s.frameMissing c f).conv c).nextFrame = (s.conv c).nextFrame := by
  unfold State.frameMissing
  extract_lets q s1 rid
  split
  · rfl
  · have hq : Quiet ((s1.enter rid .fault).irqBit rid irqFAULT) (s.modConv c fun v => { v with lost := true }) :=
      (irqBit_quiet _ _ _).trans ((enter_quiet _ _ _).trans (logPage_quiet _ _ _ _ _ _ _))
    rw [conv_of_convs (hq.piped.convs), conv_modConv]

theorem countBy_quiet (s : State) (key : Nat) (f : RegField) (n : Nat) : Quiet (s.countBy key f n) s := rfl

/-- A frame released moves the next one to release on. -/
theorem exec_frameRelease {s : State} {conv : Fin 5}
    (h : s.convState conv = convSTREAMING ∨ s.convState conv = convPATTERN ∨ s.fedBy conv (32 * (s.conv conv).nextFrame) ≠ []) :
    ∃ t, exec (.frameRelease conv () ()) s = .next t ∧ (t.conv conv).nextFrame = (s.conv conv).nextFrame + 1 := by
  have hgo : ¬((!(decide (s.convState conv = convSTREAMING) || decide (s.convState conv = convPATTERN)) &&
      (s.fedBy conv (32 * (s.conv conv).nextFrame)).isEmpty) = true) := by
    obtain h | h | h := h <;> simp [h]
  change ∃ t, execFrameRelease conv () () s = .next t ∧ _
  unfold execFrameRelease
  extract_lets c f fed streaming s1 got stale held got' missing codes s2 s3 clipped s4 s5 runs s6 s7
  have h2 : (s2.conv c).nextFrame = f + 1 := congrArg Conv.nextFrame (conv_modConv s1 c _)
  have h3 : (s3.conv c).nextFrame = f + 1 := by
    unfold s3
    split
    · exact (frameMissing_nextFrame s2 c f).trans h2
    · exact h2
  have h5 : Piped s5 s3 := .ite (countBy_quiet _ _ _ _).piped ((setErr_piped _ _ _).trans (countBy_quiet _ _ _ _).piped)
  have h6 : Piped s6 s5 := .foldl (fun u p => dcFrame_piped u p true f codes) _ _
  have h7 : Piped s7 s6 := .foldl (fun u p => chainInput_piped u p c f codes runs) _ _
  have hrun : Piped (fed.foldl (fun s p => s.chainRun p) s7) s7 := .foldl (fun u p => chainRun_piped u p) _ _
  refine ⟨_, if_neg hgo, ?_⟩
  have hconv := conv_of_convs (hrun.trans (h7.trans (h6.trans h5))).convs c
  exact (congrArg Conv.nextFrame hconv).trans h3

theorem exec_sclkLock {s : State} {conv : Fin 5} (hconv : s.noConv conv = false) (hst : s.convState conv = convCLOCKING) :
    ∃ t, exec (.sclkLock conv) s = .next t ∧ t.convState conv = convFRAME_ALIGN := by
  refine ⟨_, if_pos ⟨hst, by rw [hconv]; rfl⟩, convState_of_rf ?_ (by decide)⟩
  unfold State.updateLocked
  exact (rf_wb_apart (.inr (.inr (by decide))) _ _).trans ((rf_wb_apart (.inr (.inr (by decide))) _ _).trans
    (rf_wf_same s _ _ (by decide) (by decide)))

theorem exec_sclkLockLost {s : State} {conv : Fin 5} (hconv : s.noConv conv = false)
    (hst : s.convState conv = convSTREAMING ∨ s.convState conv = convPATTERN) :
    ∃ t, exec (.sclkLockLost conv) s = .next t ∧ t.convState conv = convCLOCKING :=
  ⟨_, if_pos ⟨hst, by rw [hconv]; rfl⟩, convState_of_rf (rf_convState_convDown s _ _ (by decide)) (by decide)⟩

theorem exec_sampleGroupLaunch {s : State} {conv : Fin 5} (codes : List Nat) (hconv : s.noConv conv = false)
    (hst : s.convState conv = convSTREAMING ∨ s.convState conv = convPATTERN) :
    ∃ t, exec (.sampleGroupLaunch conv codes) s = .next t ∧ (t.conv conv).nextLaunch = (s.conv conv).nextLaunch + 5 ∧
      (t.conv conv).frames.length = (s.conv conv).frames.length + 5 := by
  have hgo : ¬((s.convState conv ≠ convSTREAMING ∧ s.convState conv ≠ convPATTERN) ∨ s.noConv conv = true) := by
    rw [hconv]
    rintro (⟨h1, h2⟩ | h)
    · exact hst.elim h1 h2
    · exact Bool.noConfusion h
  change ∃ t, execSampleGroupLaunch conv codes s = .next t ∧ _
  unfold execSampleGroupLaunch
  extract_lets c f s1 cs s2 s3
  have h3 : s3.conv c = s2.conv c := rfl
  have h2 := conv_modConv s1 c fun v => { v with frames := v.frames ++ toFrames f cs, nextLaunch := f + 5, prbs := v.prbs + codes.length }
  refine ⟨_, if_neg hgo, congrArg Conv.nextLaunch (h3.trans h2), (congrArg (·.frames.length) (h3.trans h2)).trans ?_⟩
  exact (List.length_append).trans (congrArg _ (by rw [toFrames, List.length_map, List.length_range]))

theorem exec_adcCfgWrite {s : State} {who : Issuer} {conv : Fin 5} (value : BitVec 32) (h : s.honours who (keyADC conv)) :
    ∃ t, exec (.adcCfgWrite who conv value) s = .next t ∧ t.rf (keyADC conv) Reg.ADC_CFG.ALIGN_SHIFT = wget value 4 0 ∧
      t.rf (keyADC conv) Reg.ADC_CFG.PHASE = wget value 7 7 := by
  change ∃ t, execAdcCfgWrite who conv value s = .next t ∧ _
  unfold execAdcCfgWrite
  extract_lets key c pat role badRole
  have hkey : s.honours who key := h
  rw [write_of_honours hkey]
  extract_lets badPat old w w1 w2 streaming s1 s2
  have hw : wget w 4 0 = wget value 4 0 ∧ wget w 7 7 = wget value 7 7 :=
    ⟨(wget_wset _ _ (by decide) (by decide)).trans (Nat.mod_eq_of_lt (Nat.mod_lt _ (by decide))),
      (wget_wset_above _ _ (by decide) (by decide) (by decide)).trans
        ((wget_wset _ _ (by decide) (by decide)).trans (Nat.mod_eq_of_lt (Nat.mod_lt _ (by decide))))⟩
  have hlow {hi lo : Nat} (hl : lo ≤ hi) (hh : hi < 8) : wget w2 hi lo = wget w hi lo := by
    have h1 : wget w1 hi lo = wget w hi lo := by
      unfold w1
      split
      · rfl
      · exact wget_wset_below _ _ (by decide) (by decide) hl (by omega)
    unfold w2
    split
    · exact h1
    · exact (wget_wset_below _ _ (by decide) (by decide) hl (by omega)).trans h1
  have h1 : s1.reg key 0x100 = w2 := by
    change (s.setReg key 0x100 w2).reg key 0x100 = w2
    exact State.reg_setReg ..
  have h2 : s2.reg key 0x100 = w2 := by
    unfold s2
    split
    · exact (reg_setErr (hkey := keyADC_ne_keyFLT) s1 0x100).trans h1
    · exact h1
  generalize ht : (if streaming = true ∧ s2.rf key Reg.ADC_CFG.PATTERN ≠ 0 then s2.convEnter c convPATTERN else s2) = t
  have h3 : t.reg key 0x100 = w2 := by
    rw [← ht]
    split
    · exact (reg_wf_other s2 key Reg.ADC_STAT.CONV_STATE convPATTERN (by decide)).trans h2
    · exact h2
  refine ⟨t, rfl, ?_, ?_⟩
  · exact (congrArg (wget · 4 0) h3).trans ((hlow (by decide) (by decide)).trans hw.1)
  · exact (congrArg (wget · 7 7) h3).trans ((hlow (by decide) (by decide)).trans hw.2)

theorem exec_adcTempUpdate {s : State} {conv : Fin 5} (temp : BitVec 16) (hconv : s.noConv conv = false) :
    ∃ t, exec (.adcTempUpdate conv temp) s = .next t ∧ t.rf (keyADC conv) Reg.ADC_TEMP.TEMP = temp.toNat := by
  change ∃ t, execAdcTempUpdate conv temp s = .next t ∧ _
  unfold execAdcTempUpdate
  extract_lets c s1 s2 d surveyed due
  have h1 : s1.rf (keyADC c) Reg.ADC_TEMP.TEMP = temp.toNat :=
    (rf_wf_same s _ _ (by decide) (by decide)).trans (Nat.mod_eq_of_lt temp.isLt)
  have h2 : s2.rf (keyADC c) Reg.ADC_TEMP.TEMP = temp.toNat := by
    unfold s2
    split
    · exact (congrArg (wget · 15 0) (reg_setErr (hkey := keyADC_ne_keyFLT) s1 _)).trans h1
    · exact h1
  have hsvy : keySVY ≠ keyADC c := by
    unfold keySVY keyADC keyOf
    omega
  rw [if_neg (by rw [hconv]; decide), ← apply_ite Host.Outcome.next]
  refine ⟨_, rfl, ?_⟩
  split
  · rw [rf_irqBit, rf_wf_apart (.inl hsvy)]
    exact h2
  · exact h2

/-- A sub-ADC that fails is marked, and its block is in FAULT if it was ACTIVE. -/
theorem exec_subadcFault {s : State} {conv : Fin 5} (k : Fin 64) (hconv : s.noConv conv = false) :
    ∃ t, exec (.subadcFault conv k) s = .next t ∧ wbit (t.page (keyADC conv)).err 17 = true ∧
      wbit (t.reg (keyADC conv) (0x120 + 4 * (k.val / 32))) (k.val % 32) = true ∧
      ((s.page (keyADC conv)).st = .active → (t.page (keyADC conv)).st = .fault) := by
  change ∃ t, execSubadcFault conv k s = .next t ∧ _
  unfold execSubadcFault
  extract_lets key off again s1
  rw [if_neg (by rw [hconv]; decide)]
  have hflt : key ≠ keyFLT := keyADC_ne_keyFLT
  have hst : (s1.page key).st = (s.page key).st := by
    unfold s1 State.setReg
    rw [State.page_modPage]
  have hmark : wbit (s1.reg key off) (k.val % 32) = true := by
    rw [State.reg_setReg]
    exact wbit_or_word _ (Nat.mod_lt _ (by decide))
  refine ⟨_, rfl, ?_⟩
  split
  · next hagain =>
    refine ⟨wbit_setErr _ _ (by decide), ?_, fun hactive => ?_⟩
    · rw [reg_setErr (hkey := hflt)]
      exact hmark
    · rw [of_decide_eq_true hagain] at hactive
      exact absurd hactive (by decide)
  · obtain ⟨herr, hreg⟩ := faultBlock_marks s1 (bit := 17) hflt (by decide)
    have hkept := convFault_steady (l := 2) (s1.faultBlock key 17) conv
    have hpage : sysPage 2 key := by
      unfold sysPage key keyADC keyOf
      omega
    have hoff : ((s1.faultBlock key 17).convFault conv).reg key off = (s1.faultBlock key 17).reg key off := by
      refine hkept.reg key off ?_
      unfold sysReg off key keyADC keyOf
      omega
    refine ⟨hkept.err hpage herr, ?_, fun hactive => ?_⟩
    · exact (congrArg (wbit · _) (hoff.trans (hreg off))).trans hmark
    · exact (hkept.get hpage Page.st).trans (faultBlock_active (hst.trans hactive) (by decide)).1

/-- An alignment that ends at once gives its peak. -/
theorem alignDone_effect {s : State} {c : Nat} {a : AlignRun} {op : Op} (halign : (s.conv c).align = some a) (hop : (s.page (keyADC c)).op = some op)
    (hsusp : op.suspended = false) (hfree : (s.page (keyADC c)).resReady = false) (ha1 : op.a1 % 2 = 0) :
    ((s.alignDone c).page (keyADC c)).cmdStat = cmdStatWord op.tag phaseDONE 0 codeOK ∧
      ((s.alignDone c).page (keyADC c)).res[3]? = some (word a.corrPpm) := by
  unfold State.alignDone
  dsimp only
  rw [halign, hop]
  dsimp only
  have hdone (r : List Word) := page_doneWith_same (s := s.modConv c fun v => { v with align := none }) hop hsusp hfree r
  split
  · rw [hdone]
    exact ⟨rfl, rfl⟩
  · rw [hdone]
    exact ⟨rfl, rfl⟩

theorem exec_align {s : State} {who : Issuer} {conv : Fin 5} {tag : Nat} (shift fracFs gainMdb : Int) (corrPpm : Nat)
    (ht : s.takes who (keyADC conv)) (hfree : (s.page (keyADC conv)).resReady = false) (href : (s.page (keyADC conv)).a0.toNat % 8 < 5)
    (hother : (s.page (keyADC conv)).a0.toNat % 8 ≠ conv.val) (hfeeds : s.feeds conv ≠ none)
    (hsame : s.feeds ((s.page (keyADC conv)).a0.toNat % 8) = s.feeds conv) (hlocked : s.convLocked conv = true)
    (hlocked' : s.convLocked ((s.page (keyADC conv)).a0.toNat % 8) = true) (ha1 : (s.page (keyADC conv)).a1.toNat % 2 = 0) :
    ∃ t, exec (.align who conv tag shift fracFs gainMdb { ppm := corrPpm, now := true }) s = .next t ∧
      (t.page (keyADC conv)).cmdStat = cmdStatWord tag phaseDONE 0 codeOK ∧ (t.page (keyADC conv)).res[3]? = some (word corrPpm) := by
  change ∃ t, execAlign who conv tag shift fracFs gainMdb { ppm := corrPpm, now := true } s = .next t ∧ _
  unfold execAlign
  extract_lets key c
  rw [command_of_takes (key := key) ht]
  generalize hlatch : s.latch key 0x0100 tag = op
  have hop0 : op.a0 = (s.page key).a0.toNat := by rw [← hlatch]; rfl
  have hop1 : op.a1 = (s.page key).a1.toNat := by rw [← hlatch]; rfl
  have htag : cmdStatWord op.tag phaseDONE 0 codeOK = cmdStatWord tag phaseDONE 0 codeOK := by
    rw [← hlatch]
    exact cmdStatWord_tag_mod ..
  have hopsusp : op.suspended = false := by rw [← hlatch]; rfl
  dsimp only
  rw [if_neg (by rw [hop0]; exact hother), if_neg (by rw [hop0]; exact Nat.not_lt.2 (Nat.le_of_lt_succ href)),
      if_neg (by rw [hop0]; exact fun h => h.elim (fun h => h hsame) hfeeds),
    if_neg (by rw [hop0, show s.convLocked c = true from hlocked, show s.convLocked ((s.page key).a0.toNat % 8)
        = true from hlocked']; decide), if_pos rfl]
  refine ⟨_, rfl, ?_⟩
  rw [← htag]
  generalize hv : ((s.accept key op).modConv c fun v =>
    { v with align := some { shift := shift, fracFs := fracFs, gainMdb := gainMdb, corrPpm := corrPpm } }) = v
  have halign : (v.conv c).align = some { shift := shift, fracFs := fracFs, gainMdb := gainMdb, corrPpm := corrPpm } := by
    rw [← hv, conv_modConv]
  have hpage : v.page key = (s.accept key op).page key := by
    rw [← hv]
    rfl
  refine alignDone_effect (s := v) (a := ⟨shift, fracFs, gainMdb, corrPpm⟩) halign ?_ hopsusp ?_ (by rw [hop1]; exact ha1)
  · exact congrArg Page.op (hpage.trans (page_accept_same s key op))
  · exact (congrArg Page.resReady (hpage.trans (page_accept_same s key op))).trans hfree

/-- Settles O11: a frame passes chains, insets and triggers without a trace on its converter, and a converter that goes down keeps the marks of its sub-ADCs. -/
theorem converterEventsComplete : Obligations.ConverterEventsComplete := by
  unfold Obligations.ConverterEventsComplete
  exact ⟨fun s conv hconv hst => exec_sclkLock hconv hst,
    fun s conv hconv hst => exec_sclkLockLost hconv hst,
    fun s conv codes hconv hst => exec_sampleGroupLaunch codes hconv hst,
    fun s conv h => exec_frameRelease h,
    fun s who conv value h => exec_adcCfgWrite value h,
    fun s conv temp hconv => exec_adcTempUpdate temp hconv,
    fun s conv k hconv => exec_subadcFault k hconv,
    fun s who conv tag shift fracFs gainMdb corrPpm ht hfree href hother hfeeds hsame hlocked hlocked' ha1 =>
      exec_align shift fracFs gainMdb corrPpm ht hfree href hother hfeeds hsame hlocked hlocked' ha1⟩

end Sys2Proof.Machine

namespace Sys2Proof.Machine

/-! ### What a spectrum reaches (R140-R163): its engine, the graticule, triggers and records, not the chain's own page. -/

/-- From `s` to `t` the chain's page, the frame that comes next and the words still in use for old frames are as they were. -/
structure Framed (p : Nat) (t s : State) : Prop where
  page : t.page (keyDDC p) = s.page (keyDDC p)
  next : (t.engine p).nextStart = (s.engine p).nextStart
  old : (t.engine p).old = (s.engine p).old

section
variable {p : Nat}

theorem Framed.refl (s : State) : Framed p s s := ⟨rfl, rfl, rfl⟩

theorem Framed.trans {t u s : State} (h1 : Framed p t u) (h2 : Framed p u s) : Framed p t s :=
  ⟨h1.page.trans h2.page, h1.next.trans h2.next, h1.old.trans h2.old⟩

theorem Framed.ite {c : Prop} [Decidable c] {a b s : State} (ha : Framed p a s) (hb : Framed p b s) : Framed p (if c then a else b) s := by
  split
  · exact ha
  · exact hb

theorem Framed.foldl {α : Type} {f : State → α → State} (h : ∀ s x, Framed p (f s x) s) (xs : List α) (s : State) : Framed p (xs.foldl f s) s := by
  induction xs generalizing s with
  | nil => exact .refl s
  | cons x xs ih => exact (ih (f s x)).trans (h s x)

theorem Framed.of_engines {t s : State} (hpage : t.page (keyDDC p) = s.page (keyDDC p)) (h : t.engines = s.engines) : Framed p t s := by
  have he : t.engine p = s.engine p := by
    unfold State.engine
    rw [h]
  exact ⟨hpage, congrArg Engine.nextStart he, congrArg Engine.old he⟩

theorem Quiet.framed {t s : State} (h : Quiet t s) (hpage : t.page (keyDDC p) = s.page (keyDDC p)) : Framed p t s :=
  .of_engines hpage (h.get State.engines)

theorem modPage_framed (s : State) {key : Nat} (f : Page → Page) (h : keyDDC p ≠ key) : Framed p (s.modPage key f) s :=
  (modPage_quiet s key f).framed (State.page_modPage_other _ _ h)

theorem setReg_framed (s : State) {key : Nat} (off : Nat) (w : Word) (h : keyDDC p ≠ key) : Framed p (s.setReg key off w) s := modPage_framed s _ h

theorem wf_framed (s : State) {key : Nat} (f : RegField) (v : Nat) (h : keyDDC p ≠ key) : Framed p (s.wf key f v) s := setReg_framed s _ _ h

theorem count_framed (s : State) {key : Nat} (f : RegField) (h : keyDDC p ≠ key) : Framed p (s.count key f) s := wf_framed s f _ h

theorem countBy_framed (s : State) {key : Nat} (f : RegField) (n : Nat) (h : keyDDC p ≠ key) : Framed p (s.countBy key f n) s := wf_framed s f _ h

theorem countDropped_framed (s : State) {key : Nat} (n : Nat) (h : keyDDC p ≠ key) : Framed p (s.countDropped key n) s :=
  .ite (modPage_framed s _ h) (.refl s)

theorem showMarks_framed (s : State) {key : Nat} (marks : Nat) (h : keyDDC p ≠ key) : Framed p (s.showMarks key marks) s :=
  .ite (.refl s) (modPage_framed s _ h)

theorem irqBit_framed (s : State) {key : Nat} (i : Nat) (h : keyDDC p ≠ key) : Framed p (s.irqBit key i) s :=
  (irqBit_quiet s key i).framed (page_irqBit_other s i h)

theorem keyPipe_ne_keyFLT (n : Nat) : keyPipe p n ≠ keyFLT := by
  unfold keyPipe keyFLT keyOf
  omega

theorem setErr_framed (s : State) {key : Nat} (i : Nat) (h : keyDDC p ≠ key) : Framed p (s.setErr key i) s :=
  (setErr_quiet s key i).framed (page_setErr_other s i h (keyPipe_ne_keyFLT 0))

theorem engine_modEngine (s : State) (p : Nat) (f : Engine → Engine) : (s.modEngine p f).engine p = f (s.engine p) := mget_mput_same _ _ _ _

/-- A change of the engine that is not one of its grid. -/
theorem modEngine_framed (s : State) {f : Engine → Engine} (hnext : ∀ e, (f e).nextStart = e.nextStart) (hold : ∀ e, (f e).old = e.old) :
    Framed p (s.modEngine p f) s :=
  ⟨rfl, by rw [engine_modEngine, hnext], by rw [engine_modEngine, hold]⟩

theorem modGrat_framed (s : State) (q : Nat) (f : Grat → Grat) : Framed p (s.modGrat q f) s := .of_engines rfl rfl
theorem modTrig_framed (s : State) (q : Nat) (f : Trig → Trig) : Framed p (s.modTrig q f) s := .of_engines rfl rfl
theorem modCapture_framed (s : State) (q : Nat) (f : Capture → Capture) : Framed p (s.modCapture q f) s := .of_engines rfl rfl

theorem modAcc_framed (s : State) (q time : Nat) (f : GrtAcc → GrtAcc) : Framed p (s.modAcc q time f) s := .of_engines rfl rfl
theorem addHits_framed (s : State) (q time : Nat) (ups : List (Nat × Nat)) (flags : Nat) : Framed p (s.addHits q time ups flags) s :=
  .of_engines rfl rfl

/-- The pages of a pipeline are its chain's only where they are the first. -/
theorem keyDDC_ne_keyPipe {n : Nat} (h0 : n ≠ 0) : keyDDC p ≠ keyPipe p n := by
  unfold keyDDC keyPipe keyOf
  omega

theorem grtSpectrum_framed (s : State) (frame time marks : Nat) (bins : List Int) : Framed p (s.grtSpectrum p frame time marks bins).1 s := by
  have hk : keyDDC p ≠ keyGRT p := keyDDC_ne_keyPipe (by decide)
  unfold State.grtSpectrum
  extract_lets none_ s1 ups rare
  have h1 : Framed p s1 s := .ite ((modGrat_framed _ _ _).trans (wf_framed s _ _ hk)) (.refl s)
  split
  · exact countDropped_framed s _ hk
  · split
    · split
      · exact (irqBit_framed _ _ hk).trans (wf_framed s _ _ hk)
      · exact .refl s
    · split
      · dsimp only
        exact (modAcc_framed _ _ _ _).trans h1
      · split
        · exact h1
        · exact (addHits_framed _ _ _ _ _).trans h1

theorem slotClear_framed (s : State) (m label : Nat) : Framed p (s.slotClear p m label) s := by
  unfold State.slotClear
  exact (modTrig_framed _ _ _).trans ((wf_framed _ _ _ (keyDDC_ne_keyPipe (by decide))).trans (.ite (modTrig_framed s _ _) (.refl s)))

theorem slotEval_framed (s : State) (m c : Nat) (bins : List Int) (rare : List Bool) : Framed p (s.slotEval p m c bins rare) s := by
  have hk : keyDDC p ≠ keyCTR p := keyDDC_ne_keyPipe (by decide)
  unfold State.slotEval
  extract_lets k mode out kk first was run fires high' wasHigh s1 s2 s3 s4
  have h3 : Framed p s3 s := (modTrig_framed _ _ _).trans ((wf_framed _ _ _ hk).trans (wf_framed s _ _ hk))
  have h4 : Framed p s4 s := .ite ((modTrig_framed _ _ _).trans h3) h3
  exact .ite ((modTrig_framed _ _ _).trans ((count_framed _ _ hk).trans h4)) h4

theorem contourEval_framed (s : State) (c marks : Nat) (bins : List Int) (rare : List Bool) : Framed p (s.contourEval p c marks bins rare) s := by
  have hk : keyDDC p ≠ keyCTR p := keyDDC_ne_keyPipe (by decide)
  unfold State.contourEval
  extract_lets k en bad good clean s1 s2
  have h1 : Framed p s1 s := .ite (.refl s) ((Framed.foldl (fun u m => slotClear_framed u m c) _ _).trans (setErr_framed s _ hk))
  have h2 : Framed p s2 s := (Framed.foldl (fun u m => slotEval_framed u m c bins rare) _ _).trans h1
  exact .ite (countDropped_framed s _ hk) (.ite (.ite (.refl s)
    ((Framed.foldl (fun u m => slotClear_framed u m c) _ _).trans (countBy_framed s _ _ hk))) (.ite ((irqBit_framed _ _ hk).trans h2) h2))

theorem traceSpectrum_framed (s : State) (time marks : Nat) (bins : List Bin) : Framed p (s.traceSpectrum p time marks bins) s :=
  .ite (countDropped_framed s _ (keyDDC_ne_keyPipe (by decide))) (.ite (.refl s) (.ite (modCapture_framed s _ _) (modCapture_framed s _ _)))

theorem queueRecord_framed (s : State) (plane : Nat) (r : Record) : Framed p (s.queueRecord p plane r) s := by
  have hk : keyDDC p ≠ (if plane = 0 then keyFFT p else if plane = 1 then keyRED p else keyGRT p) := by
    split
    · exact keyDDC_ne_keyPipe (by decide)
    · split
      · exact keyDDC_ne_keyPipe (by decide)
      · exact keyDDC_ne_keyPipe (by decide)
  unfold State.queueRecord
  exact (modCapture_framed _ _ _).trans (.ite (modPage_framed s _ hk) (.refl s))

theorem closeSpectrum_framed (s : State) : Framed p (s.closeSpectrum p) s := by
  unfold State.closeSpectrum
  split
  · exact .refl s
  · exact (queueRecord_framed _ _ _).trans (modEngine_framed s (by intro; rfl) (by intro; rfl))

theorem emitGroup_framed (s : State) (ws : List (Nat × Word)) (all : List (List Bin)) (g : SpecGroup) : Framed p (s.emitGroup p ws all g) s := by
  unfold State.emitGroup
  extract_lets f format bins part body pad r0 tag r s1
  have h1 : Framed p s1 s := modEngine_framed s (by intro; rfl) (by intro; rfl)
  exact .ite ((closeSpectrum_framed _).trans h1) h1

theorem flushGroup_framed (s : State) (ws : List (Nat × Word)) : Framed p (s.flushGroup p ws) s := by
  unfold State.flushGroup
  split
  · exact emitGroup_framed s _ _ _
  · exact .refl s

theorem groupFrame_framed (s : State) (ws : List (Nat × Word)) (frame next six marks src flatId : Nat) (bins : List Bin) :
    Framed p (s.groupFrame p ws frame next six marks src flatId bins) s := by
  unfold State.groupFrame
  extract_lets k num s1 g
  have h1 : Framed p s1 s := by
    unfold s1
    split
    · exact .ite (.refl s) (flushGroup_framed s _)
    · exact .refl s
  exact .ite (.refl s) (.ite ((modEngine_framed _ (by intro; rfl) (by intro; rfl)).trans h1) ((emitGroup_framed _ _ _ _).trans h1))

/-- A frame that is delivered leaves its chain's page, and the frames to come. -/
theorem deliverFrame_framed (s : State) (ws : List (Nat × Word)) (start : Nat) (xs : List (Int × Int))
    : Framed p (s.deliverFrame p ws start xs) s := by
  have hk : keyDDC p ≠ keyFFT p := keyDDC_ne_keyPipe (by decide)
  unfold State.deliverFrame
  extract_lets k n lp marks marks' stale spec sat marks'' tbl flatEn flatId s1 s2 s3 out s4 s5 s6 step frame nextFrame centre logs g s7 s8
  have h1 : Framed p s1 s := setReg_framed s _ _ hk
  have h2 : Framed p s2 s := .ite ((setErr_framed _ _ hk).trans h1) h1
  have h3 : Framed p s3 s := .ite ((setErr_framed _ _ hk).trans h2) h2
  have h4 : Framed p s4 s := by
    refine .ite ((count_framed _ _ hk).trans h3) ((modEngine_framed _ (by intro; rfl) (by intro; rfl)).trans ?_)
    exact (setReg_framed _ _ _ hk).trans ((setReg_framed _ _ _ hk).trans h3)
  have h5 : Framed p s5 s := (showMarks_framed _ _ hk).trans h4
  have h6 : Framed p s6 s := .ite ((modEngine_framed _ (by intro; rfl) (by intro; rfl)).trans ((irqBit_framed _ _ hk).trans h5)) h5
  have h8 : Framed p s8 s :=
    (traceSpectrum_framed _ _ _ _).trans ((contourEval_framed _ _ _ _ _).trans ((grtSpectrum_framed _ _ _ _ _).trans h6))
  exact .ite h6 ((groupFrame_framed _ _ _ _ _ _ _ _ _).trans h8)

end

/-! ### What an apply leaves of what waits for an index. -/

theorem Quiet.pend {t s : State} (h : Quiet t s) : t.pend = s.pend := h.get State.pend

theorem mirrorGang_quiet (s : State) (p : Nat) : Quiet (s.mirrorGang p) s := by
  unfold State.mirrorGang
  split
  · exact .ite (.refl s) (Quiet.foldl (fun u _ => modPage_quiet u _ _) _ s)
  · exact .refl s

theorem refreshFft_quiet (s : State) (p : Nat) : Quiet (s.refreshFft p) s := by
  unfold State.refreshFft
  extract_lets k m was old s1 s2 rate s3
  have h3 : Quiet s3 s := rfl
  exact .ite ((setErr_quiet _ _ _).trans h3) h3

theorem refreshGrt_quiet (s : State) (p : Nat) : Quiet (s.refreshGrt p) s := by
  unfold State.refreshGrt
  extract_lets k m was s1
  have h1 : Quiet s1 s := rfl
  exact .ite ((setErr_quiet _ _ _).trans h1) h1

theorem refreshGrt_raised (s : State) (p : Nat) : Raised (s.refreshGrt p) s := by
  unfold State.refreshGrt
  extract_lets k m was s1
  have h1 : Raised s1 s := (wb_raised _ _ _ _).trans (wf_raised _ _ _ _)
  exact .ite ((setErr_raised _ _ _).trans h1) h1

theorem refreshLatency_quiet (s : State) (p : Nat) : Quiet (s.refreshLatency p) s := by
  unfold State.refreshLatency
  exact (Quiet.foldl (fun u _ => setReg_quiet u _ _ _) _ _).trans rfl

theorem refreshPipe_quiet (s : State) (p : Nat) : Quiet (s.refreshPipe p) s := by
  unfold State.refreshPipe
  exact (refreshLatency_quiet _ _).trans ((refreshGrt_quiet _ _).trans ((refreshFft_quiet _ _).trans rfl))

/-- A record queued changes its plane's page, and the queue of records. -/
theorem queueRecord_eq (s : State) (p plane : Nat) (r : Record) : ∃ u f, s.queueRecord p plane r = u.modCapture p f ∧ Quiet u s := by
  unfold State.queueRecord
  exact ⟨_, _, rfl, .ite (modPage_quiet s _ _) (.refl s)⟩

theorem queueRecord_pend (s : State) (p plane : Nat) (r : Record) : (s.queueRecord p plane r).pend = s.pend := by
  obtain ⟨u, f, h, hu⟩ := queueRecord_eq s p plane r
  rw [h]
  exact hu.pend

theorem queueRecord_grats (s : State) (p plane : Nat) (r : Record) : (s.queueRecord p plane r).grats = s.grats := by
  obtain ⟨u, f, h, hu⟩ := queueRecord_eq s p plane r
  rw [h]
  exact hu.get State.grats

theorem closeSpectrum_pend (s : State) (p : Nat) : (s.closeSpectrum p).pend = s.pend := by
  unfold State.closeSpectrum
  split
  · rfl
  · exact queueRecord_pend _ _ _ _

theorem emitGroup_pend (s : State) (p : Nat) (ws : List (Nat × Word)) (all : List (List Bin)) (g : SpecGroup) :
    (s.emitGroup p ws all g).pend = s.pend := by
  unfold State.emitGroup
  extract_lets f format bins part body pad r0 tag r s1
  split
  · exact closeSpectrum_pend s1 _
  · rfl

theorem flushGroup_pend (s : State) (p : Nat) (ws : List (Nat × Word)) : (s.flushGroup p ws).pend = s.pend := by
  unfold State.flushGroup
  split
  · exact emitGroup_pend s _ _ _ _
  · rfl

theorem switchGrid_pend (s : State) (p a : Nat) (ws : List (Nat × Word)) : (s.switchGrid p a ws).pend = s.pend :=
  (closeSpectrum_pend _ _).trans (flushGroup_pend s _ _)

theorem slotClear_pend (s : State) (p m label : Nat) : (s.slotClear p m label).pend = s.pend := by
  unfold State.slotClear
  extract_lets k s1
  have h1 : s1.pend = s.pend := by
    unfold s1
    split <;> rfl
  exact h1

theorem slotsClear_pend (s : State) (p label : Nat) : (s.slotsClear p label).pend = s.pend :=
  foldl_kept (g := State.pend) (fun u m => slotClear_pend u p m label) _ s

theorem slotsFit_quiet (s : State) (p : Nat) : Quiet (s.slotsFit p) s := .ite (setErr_quiet _ _ _) (.refl s)

/-- Words of a transform that take effect leave what waits for an index. -/
theorem fftApply_pend (s : State) (p : Nat) (a : PendApply) : (s.fftApply p a).pend = s.pend := by
  unfold State.fftApply
  extract_lets k old s1 s2 s3 s4
  have h1 : s1.pend = s.pend := (mirrorGang_quiet _ _).pend
  have h2 : s2.pend = s.pend := by
    unfold s2
    split
    · exact h1
    · split
      · exact h1
      · exact (switchGrid_pend _ _ _ _).trans h1
  have h3 : s3.pend = s.pend := (slotsFit_quiet _ _).pend.trans ((slotsClear_pend _ _ _).trans h2)
  have h4 : s4.pend = s.pend := (refreshPipe_quiet _ _).pend.trans h3
  split
  · split
    · exact h4
    · exact (refreshPipe_quiet _ _).pend.trans h4
  · exact h4

theorem setCfg_quiet (s : State) (key n : Nat) : Quiet (s.setCfg key n) s := by
  unfold State.setCfg
  split
  · exact wf_quiet _ _ _ _
  · exact .refl s

theorem pendOf_clearPend (s : State) (key : Nat) : (s.clearPend key).pendOf key = none := mfind_mdel_same _ _

theorem pendOf_of_pend {t s : State} (h : t.pend = s.pend) (key : Nat) : t.pendOf key = s.pendOf key := by
  unfold State.pendOf
  rw [h]

/-- An index shown stays while only registers elsewhere, flags and the end of an operation change. -/
theorem six3_of_regs {t s : State} {key off : Nat} (h : ∀ o, off ≤ o → o ≤ off + 8 → t.reg key o = s.reg key o) :
    t.six3 key off = s.six3 key off := by
  unfold State.six3
  rw [h _ (by omega) (by omega), h _ (by omega) (by omega), h _ (by omega) (by omega)]

/-! ### The commands. -/

theorem cfgField_keyFFT (pipe : Fin 6) : cfgField (keyFFT pipe) = some Reg.FFT_STAT.CFG_STATE := by
  revert pipe
  decide

theorem cfgField_keyGRT (pipe : Fin 6) : cfgField (keyGRT pipe) = some Reg.GRT_STAT.CFG_STATE := by
  revert pipe
  decide

theorem setPend_raised (s : State) (key due : Nat) (byOp : Bool) : Raised (s.setPend key due byOp) s := .congr (.refl s) rfl rfl

/-- A commit that is taken waits for its index. -/
theorem commitAt_effect {s : State} {key : Nat} {op : Op} {check : State → Option (Nat × Nat)} (hahead : s.six + 4096 ≤ op.sixArg)
    (halign : op.sixArg % 32 = 0) (hcheck : check s = none) :
    ((s.commitAt key op check).pendOf key).map (·.due) = some op.sixArg ∧
      ((s.commitAt key op check).page key).cmdStat = cmdStatWord op.tag phaseRUNNING 0 codeOK := by
  have heq : s.commitAt key op check = ((s.accept key op).setPend key op.sixArg true).setCfg key 1 := by
    unfold State.commitAt
    rw [if_neg (by omega), if_neg (by omega), hcheck]
  rw [heq]
  have hraised : Raised (((s.accept key op).setPend key op.sixArg true).setCfg key 1) (s.accept key op) := by
    unfold State.setCfg
    split
    · exact (wf_raised _ _ _ _).trans (setPend_raised _ _ _ _)
    · exact setPend_raised _ _ _ _
  refine ⟨?_, ?_⟩
  · rw [pendOf_of_pend (setCfg_quiet _ _ _).pend]
    exact congrArg (Option.map _) (mfind_mput_same _ _ _)
  · refine (hraised.get key (·.cmdStat)).trans ?_
    change ((s.accept key op).page key).cmdStat = _
    rw [page_accept_same]

theorem exec_fftCommitAt {s : State} {who : Issuer} {pipe : Fin 6} {tag : Nat} (ht : s.takes who (keyFFT pipe))
    (hahead : s.six + 4096 ≤ (s.latch (keyFFT pipe) 0x0100 tag).sixArg) (halign : (s.latch (keyFFT pipe) 0x0100 tag).sixArg % 32 = 0)
    (hcheck : s.fftCheck pipe = none) :
    ∃ t, exec (.fftCommitAt who pipe tag) s = .next t ∧
      (t.pendOf (keyFFT pipe)).map (·.due) = some (s.latch (keyFFT pipe) 0x0100 tag).sixArg ∧
      (t.page (keyFFT pipe)).cmdStat = cmdStatWord tag phaseRUNNING 0 codeOK := by
  obtain ⟨hpend, hstat⟩ := commitAt_effect (check := fun s => s.fftCheck pipe) hahead halign hcheck
  exact ⟨_, congrArg Host.Outcome.next (command_of_takes ht _ _ _), hpend, hstat.trans (cmdStatWord_tag_mod ..)⟩

theorem endCommit_regs (s : State) (key due j off : Nat) : (s.endCommit key due).reg j off = s.reg j off :=
  reg_of_regs ((endCommit_ended s key due).get j (·.regs)) off

/-- The index of a commit that takes effect is shown, and none waits any more. -/
theorem fftTake_effect (s : State) (pipe : Fin 6) {a : PendApply} (hempty : a.empty = false) (hdue : a.due < 2 ^ 72) :
    (s.fftTake pipe a).pendOf (keyFFT pipe) = none ∧ (s.fftTake pipe a).six3 (keyFFT pipe) 0x130 = a.due := by
  unfold State.fftTake
  extract_lets key s1
  rw [if_neg (by rw [hempty]; decide)]
  have hcfg : ((s1.showFlat pipe).setSix3 key 0x130 a.due).setCfg key 0 =
      ((s1.showFlat pipe).setSix3 key 0x130 a.due).wf key Reg.FFT_STAT.CFG_STATE 0 := by
    unfold State.setCfg
    rw [cfgField_keyFFT]
  refine ⟨?_, ?_⟩
  · have hquiet := (endCommit_quiet ((((s1.showFlat pipe).setSix3 key 0x130 a.due).setCfg key 0).irqBit key 16) key a.due).trans
      ((irqBit_quiet _ _ _).trans ((setCfg_quiet _ _ _).trans ((setSix3_quiet _ _ _ _).trans (setReg_quiet s1 _ _ _))))
    rw [pendOf_of_pend (hquiet.pend.trans (fftApply_pend _ _ _))]
    exact pendOf_clearPend _ _
  · rw [hcfg]
    refine (six3_of_regs fun o _ ho => ?_).trans (six3_setSix3 (s1.showFlat pipe) key 0x130 a.due hdue)
    rw [endCommit_regs, reg_of_regs (regs_irqBit ..), reg_wf_other]
    have hoff : Reg.FFT_STAT.CFG_STATE.off = 0x118 := rfl
    omega

theorem exec_fftApply {s : State} {pipe : Fin 6} {a : PendApply} (hpend : s.pendOf (keyFFT pipe) = some a) (hempty : a.empty = false)
    (hdue : a.due < 2 ^ 72) :
    ∃ t, exec (.fftApply pipe) s = .next t ∧ t.pendOf (keyFFT pipe) = none ∧ t.six3 (keyFFT pipe) 0x130 = a.due := by
  refine ⟨s.fftTake pipe a, ?_, fftTake_effect s pipe hempty hdue⟩
  change execFftApply pipe s = _
  unfold execFftApply
  dsimp only
  rw [hpend]

/-- The step from frame to frame is that of the chain's applied words. -/
theorem Framed.frameStep {p : Nat} {t s : State} (h : Framed p t s) (ws : List (Nat × Word)) : t.frameStep p ws = s.frameStep p ws := by
  have hbonded : t.bonded p = s.bonded p := congrArg (fun n => decide (n ≠ 0)) (rf_congr h.page Reg.DDC_STAT.BONDED)
  have hdecim : t.decim p = s.decim p := by
    unfold State.decim State.af State.areg
    rw [h.page]
  unfold State.frameStep State.wordsThin State.labelP
  rw [hbonded, hdecim]

theorem exec_spectrum {s : State} {pipe : Fin 6} {ws : List (Nat × Word)} {last : Nat} (hactive : s.isActive (keyFFT pipe) = true)
    (hgang : s.gangedSecond pipe = false) (hws : ws = s.fftWords pipe (s.engine pipe).nextStart)
    (hlast : last = (s.engine pipe).nextStart + (wordsN pipe ws - 1) * s.labelP pipe) (hthere : last < (s.chain pipe).nextLabel)
    (hwhole : (s.frameInputs pipe (s.engine pipe).nextStart last).length = wordsN pipe ws) (hold : (s.engine pipe).old = []) :
    ∃ t, exec (.spectrum pipe () ()) s = .next t ∧ (t.engine pipe).nextStart = (s.engine pipe).nextStart + s.frameStep pipe ws := by
  subst hws hlast
  change ∃ t, execSpectrum pipe () () s = .next t ∧ _
  unfold execSpectrum
  extract_lets p start ws last xs whole s1 next s2 from0
  have hgo : whole = true := decide_eq_true hwhole
  have h1 : Framed p s1 s := by
    unfold s1
    rw [if_pos hgo]
    exact deliverFrame_framed s ws start xs
  have hnext : next = start + s.frameStep p ws := by
    unfold next
    rw [if_pos hgo, h1.frameStep]
  have h2 : (s2.engine p).nextStart = next := by
    unfold s2 State.switchDue
    rw [engine_modEngine, h1.old, hold]
    exact congrArg Engine.nextStart (engine_modEngine s1 p _)
  have hgo1 : ¬((!s.isActive (keyFFT p) || s.gangedSecond p) = true) := by
    rw [hactive, hgang]
    decide
  refine ⟨_, (if_neg hgo1).trans (if_neg (Nat.not_le.2 hthere)), ?_⟩
  exact h2.trans hnext

theorem grat_modGrat (s : State) (p : Nat) (f : Grat → Grat) : (s.modGrat p f).grat p = f (s.grat p) := mget_mput_same _ _ _ _

theorem grat_of_grats {t s : State} (h : t.grats = s.grats) (p : Nat) : t.grat p = s.grat p := by
  unfold State.grat
  rw [h]

theorem exec_grtTick {s : State} {pipe : Fin 6} (hactive : s.isActive (keyGRT pipe) = true) (hacc : s.accState pipe = accACC) :
    ∃ t, exec (.grtTick pipe) s = .next t ∧ (t.grat pipe).nextTick = (s.grat pipe).nextTick + 4096000 := by
  have hgo : ¬((!s.isActive (keyGRT pipe) || decide (s.accState pipe ≠ accACC)) = true) := by
    rw [hactive, hacc]
    decide
  refine ⟨_, if_neg hgo, ?_⟩
  unfold State.grtTick
  rw [grat_modGrat]
  rfl

/-- Ticks decay what persists, and leave the intervals, the readout and CLEAR. -/
structure IntervalKept (p : Nat) (t s : State) : Prop where
  pages : t.pages = s.pages
  guest : t.guest = s.guest
  next : (t.grat p).next = (s.grat p).next
  readout : (t.grat p).readout = (s.grat p).readout
  clear : (t.grat p).clearNext = (s.grat p).clearNext

theorem ticksTo_kept (s : State) (p six : Nat) : IntervalKept p (s.ticksTo p six) s := by
  unfold State.ticksTo
  extract_lets n
  split
  next h =>
    clear h
    generalize List.range n = xs
    induction xs generalizing s with
    | nil => exact ⟨rfl, rfl, rfl, rfl, rfl⟩
    | cons x xs ih =>
      obtain ⟨hpages, hguest, hnext, hreadout, hclear⟩ := ih (s.grtTick p)
      have htick : (s.grtTick p).grat p = _ := grat_modGrat s p _
      exact ⟨hpages, hguest, hnext.trans (by rw [htick]), hreadout.trans (by rw [htick]),
        hclear.trans (by rw [htick])⟩
  next => exact ⟨rfl, rfl, rfl, rfl, rfl⟩

theorem exec_grtFrameBoundary {s : State} {pipe : Fin 6} {b : Nat} (hactive : s.isActive (keyGRT pipe) = true)
    (hb : (s.grat pipe).boundary = some b) (hreadout : (s.grat pipe).readout = none) (hclear : (s.grat pipe).clearNext = false) :
    ∃ t, exec (.grtFrameBoundary pipe) s = .next t ∧ (t.grat pipe).cur = (s.grat pipe).next ∧ (t.grat pipe).openSix = b ∧
      (t.grat pipe).readout.isSome = s.ab (keyGRT pipe) Reg.GRT_CFG.OUT_EN ∧
      t.rf (keyGRT pipe) Reg.GRT_MAP_SEL.APPLIED = s.rf (keyGRT pipe) Reg.GRT_MAP_SEL.BANK := by
  refine ⟨s.grtBoundary pipe, if_pos hactive, ?_⟩
  unfold State.grtBoundary
  rw [hb]
  dsimp -zeta only
  extract_lets k s1 next merge f out s3 s4
  obtain ⟨hpages, hguest, hnext, hread, hclr⟩ := ticksTo_kept (s.advanceTo b) pipe b
  have hpage : s1.page k = s.page k := page_congr hpages hguest k
  have hnone : (s1.grat pipe).readout = none := hread.trans hreadout
  have hmerge : ¬(merge = true) := by
    unfold merge
    rw [hnone]
    exact Bool.false_ne_true
  have h3 : s3 = s1.modGrat pipe fun g =>
      { g with readout := if out then some f else g.readout, last := some f, cur := g.next, next := GrtAcc.empty,
               boundary := next, openSix := b, intervals := 1 } := if_neg hmerge
  have hgrat : s4.grat pipe = { s1.grat pipe with
      readout := if out then some f else (s1.grat pipe).readout, last := some f, cur := (s1.grat pipe).next, next := GrtAcc.empty,
      boundary := next, openSix := b, intervals := 1 } := by
    change s3.grat pipe = _
    rw [h3, grat_modGrat]
  have hpage3 : s3.page k = s.page k := by
    rw [h3]
    exact hpage
  rw [if_neg (by rw [hgrat]; exact Bool.not_eq_true _ ▸ hclr.trans hclear)]
  refine ⟨by rw [hgrat]; exact hnext, by rw [hgrat], ?_, ?_⟩
  · have hout : out = s.ab (keyGRT pipe) Reg.GRT_CFG.OUT_EN := by
      unfold out State.ab State.af State.areg
      rw [hpage]
    rw [hgrat, hnone, ← hout]
    cases out <;> rfl
  · have hbit : s3.rf k Reg.GRT_MAP_SEL.BANK = s.rf k Reg.GRT_MAP_SEL.BANK := rf_congr hpage3 _
    refine (rf_wf_same s3 k _ (by decide) (by decide)).trans ?_
    rw [hbit]
    exact Nat.mod_eq_of_lt (bitsOf_lt _ _ _)

theorem exec_grtReadoutDone {s : State} {pipe : Fin 6} {f : GrtFrame} (h : (s.grat pipe).readout = some f) :
    ∃ t, exec (.grtReadoutDone pipe) s = .next t ∧ (t.grat pipe).readout = none ∧ wbit (t.page (keyGRT pipe)).irq 17 = true := by
  change ∃ t, execGrtReadoutDone pipe s = .next t ∧ _
  unfold execGrtReadoutDone
  extract_lets p
  rw [show (s.grat p).readout = some f from h]
  dsimp -zeta only
  extract_lets r map s1
  refine ⟨_, rfl, ?_, wbit_irq_irqBit _ _ (by decide)⟩
  have hquiet : Quiet (((s1.queueRecord p 2 r).count (keyGRT p) Reg.GRT_FRAMES).irqBit (keyGRT p) 17) (s1.queueRecord p 2 r) :=
    (irqBit_quiet _ _ _).trans (count_quiet _ _ _)
  rw [grat_of_grats ((hquiet.get State.grats).trans (queueRecord_grats s1 p 2 r)), grat_modGrat]

theorem exec_clear {s : State} {who : Issuer} {pipe : Fin 6} {tag : Nat} (ht : s.takes who (keyGRT pipe)) (hgang : s.gangedSecond pipe = false)
    (hactive : s.isActive (keyGRT pipe) = true) :
    ∃ t, exec (.clear who pipe tag) s = .next t ∧ (t.grat pipe).clearNext = true ∧
      (t.page (keyGRT pipe)).cmdStat = cmdStatWord tag phaseRUNNING 0 codeOK := by
  change ∃ t, execClear who pipe tag s = .next t ∧ _
  unfold execClear
  extract_lets key
  rw [command_of_takes (key := key) ht, if_neg (by rw [hgang]; decide), if_pos hactive]
  refine ⟨_, rfl, by rw [grat_modGrat], ?_⟩
  change ((s.accept key (s.latch key 0x0100 tag)).page key).cmdStat = _
  rw [page_accept_same]
  exact cmdStatWord_tag_mod ..

/-- The pages of two pipelines are the same only where pipeline and page are. -/
theorem keyPipe_inj {p q n m : Nat} (hn : n < 16) (hm : m < 16) (h : keyPipe p n = keyPipe q m) : p = q ∧ n = m := by
  unfold keyPipe keyOf at h
  omega

/-- The partner of a gang takes the words of the governing pipeline, whose own stay. -/
theorem mirrorGang_applied (s : State) {p m : Nat} (hm : m < 16) :
    ((s.mirrorGang p).page (keyPipe p m)).applied = (s.page (keyPipe p m)).applied := by
  unfold State.mirrorGang
  split
  next q hq =>
    clear hq
    split
    · rfl
    next hsecond =>
      clear hsecond
      generalize hns : [0, 2, 3, 4, 5, 6, 7] = ns
      have hlt : ∀ n ∈ ns, n < 16 := by
        rw [← hns]
        decide
      clear hns
      induction ns generalizing s with
      | nil => rfl
      | cons n ns ih =>
        refine (ih _ fun k hk => hlt k (List.mem_cons_of_mem _ hk)).trans ?_
        by_cases h : keyPipe p m = keyPipe q n
        · obtain ⟨hpq, hmn⟩ := keyPipe_inj hm (hlt n List.mem_cons_self) h
          subst hpq hmn
          unfold State.applyWords
          rw [State.page_modPage]
        · unfold State.applyWords
          rw [State.page_modPage_other _ _ h]
  next => rfl

/-- Words of a graticule that take effect are its applied words. -/
theorem grtApply_applied (s : State) (p : Nat) (a : PendApply) (at0 : Nat) :
    ((s.grtApply p a at0).page (keyGRT p)).applied = a.words ∧ (s.grtApply p a at0).pend = s.pend := by
  unfold State.grtApply
  extract_lets k clears s1 s2 s3
  have h1 : (s1.page k).applied = a.words ∧ s1.pend = s.pend := by
    refine ⟨(mirrorGang_applied (m := 5) _ (by decide)).trans ?_, (mirrorGang_quiet _ _).pend⟩
    exact congrArg Page.applied (State.page_modPage _ _ _)
  have h3 : (s3.page k).applied = a.words ∧ s3.pend = s.pend := by
    have h2 : (s2.page k).applied = a.words ∧ s2.pend = s.pend := by
      unfold s2
      split
      · exact h1
      · exact h1
    unfold s3
    split
    · exact h2
    · exact h2
  exact ⟨((refreshGrt_raised s3 p).get k (·.applied)).trans h3.1, (refreshGrt_quiet _ _).pend.trans h3.2⟩

theorem exec_grtApply {s : State} {pipe : Fin 6} {a : PendApply} (hpend : s.pendOf (keyGRT pipe) = some a)
    (hactive : s.isActive (keyGRT pipe) = false)
    (hdue : a.due ≤ ceilTo (s.af (keyGRT pipe) Reg.GRT_FRAME_PERIOD.US * sixPerUs) a.due) :
    ∃ t, exec (.grtApply pipe) s = .next t ∧ t.pendOf (keyGRT pipe) = none ∧
      t.areg (keyGRT pipe) 0x100 = a.word (keyGRT pipe) 0x100 := by
  change ∃ t, execGrtApply pipe s = .next t ∧ _
  unfold execGrtApply
  extract_lets p key
  rw [show s.pendOf key = some a from hpend]
  dsimp -zeta only
  extract_lets go at0 s1
  have hat : at0 = ceilTo (s.af key Reg.GRT_FRAME_PERIOD.US * sixPerUs) a.due := if_neg fun h => by
    rw [show s.isActive key = false from hactive] at h
    exact Bool.noConfusion h.2
  have h1 : s1 = s := if_neg fun h => by
    rw [show s.isActive key = false from hactive] at h
    exact Bool.noConfusion h.1
  refine ⟨_, if_neg (by rw [hat]; exact Nat.not_lt.2 hdue), ?_⟩
  rw [h1]
  unfold go
  obtain ⟨happlied, hpends⟩ := grtApply_applied ((s.advanceTo at0).clearPend key) p a at0
  generalize ((s.advanceTo at0).clearPend key).grtApply p a at0 = u at happlied hpends
  refine ⟨?_, ?_⟩
  · rw [pendOf_of_pend (((endCommit_quiet _ _ _).trans ((irqBit_quiet _ _ _).trans (setCfg_quiet _ _ _))).pend.trans hpends)]
    exact pendOf_clearPend _ _
  · have hraised : Raised ((u.setCfg key 0).irqBit key 16) u := by
      refine (irqBit_raised _ _ _).trans ?_
      unfold State.setCfg
      split
      · exact wf_raised _ _ _ _
      · exact .refl u
    have hwords := ((endCommit_ended ((u.setCfg key 0).irqBit key 16) key at0).get key (·.applied)).trans
      ((hraised.get key (·.applied)).trans happlied)
    exact congrArg (fun ws => mget (regReset key) ws 0x100) hwords

theorem exec_grtMapSelWrite {s : State} {who : Issuer} {pipe : Fin 6} (value : BitVec 32) (h : s.honours who (keyGRT pipe)) :
    ∃ t, exec (.grtMapSelWrite who pipe value) s = .next t ∧ t.rf (keyGRT pipe) Reg.GRT_MAP_SEL.BANK = wget value 0 0 := by
  refine ⟨_, congrArg Host.Outcome.next (write_of_honours h _ _ _), ?_⟩
  exact (rf_wf_same s _ _ (by decide) (by decide)).trans (Nat.mod_eq_of_lt (bitsOf_lt _ _ _))

/-- Settles O14: what a frame delivers leaves the chain's page, from which the next frame's start is taken. -/
theorem transformAndGraticuleComplete : Obligations.TransformAndGraticuleComplete := by
  unfold Obligations.TransformAndGraticuleComplete
  exact ⟨fun s who pipe tag ht hahead halign hcheck => exec_fftCommitAt ht hahead halign hcheck,
    fun s pipe a hpend hempty hdue => exec_fftApply hpend hempty hdue,
    fun s pipe ws last hactive hgang hws hlast hthere hwhole hold => exec_spectrum hactive hgang hws hlast hthere hwhole hold,
    fun s pipe hactive hacc => exec_grtTick hactive hacc,
    fun s pipe b hactive hb hreadout hclear => exec_grtFrameBoundary hactive hb hreadout hclear,
    fun s pipe f h => exec_grtReadoutDone h,
    fun s who pipe tag ht hgang hactive => exec_clear ht hgang hactive,
    fun s pipe a hpend _ hactive hdue => exec_grtApply hpend hactive hdue,
    fun s who pipe value h => exec_grtMapSelWrite value h⟩

end Sys2Proof.Machine

namespace Sys2Proof.Machine

/-! ### A chain's words take effect (R140, R147): what waits for an index stays while the capture writer closes its epoch. -/

theorem ite_pend {c : Prop} [Decidable c] {a b s : State} (ha : a.pend = s.pend) (hb : b.pend = s.pend) :
    (if c then a else b).pend = s.pend := by
  split
  · exact ha
  · exact hb

theorem writeMem_pend (s : State) (a : Nat) (bs : List Byte) : (s.writeMem a bs).pend = s.pend := (writeMem_stored s a bs).get State.pend

theorem modCapture_pend (s : State) (p : Nat) (f : Capture → Capture) : (s.modCapture p f).pend = s.pend := rfl

theorem setPair_quiet (s : State) (key off v : Nat) : Quiet (s.setPair key off v) s := rfl

theorem refreshCap_quiet (s : State) (p : Nat) : Quiet (s.refreshCap p) s := by
  unfold State.refreshCap
  exact (wf_quiet _ _ _ _).trans ((wf_quiet _ _ _ _).trans (setPair_quiet _ _ _ _))

theorem ite_writeMem_pend {c : Prop} [Decidable c] (s : State) (a : Nat) (bs : List Byte) : (if c then s.writeMem a bs else s).pend = s.pend :=
  ite_pend (writeMem_pend s a bs) rfl

theorem writeSheet_pend (s : State) (p n : Nat) (h : Sheet) : (s.writeSheet p n h).pend = s.pend := writeMem_pend s _ _

theorem endEpoch_pend (s : State) (p : Nat) : (s.endEpoch p).pend = s.pend := ite_pend (writeMem_pend s _ _) rfl

theorem closeGap_pend (s : State) (p label : Nat) : (s.closeGap p label).pend = s.pend := by
  unfold State.closeGap
  split
  · rfl
  · extract_lets lp lost s1 task s2
    have h2 : s2.pend = s.pend := ite_pend rfl rfl
    exact ite_pend h2 h2

theorem beginEpoch_pend (s : State) (p label : Nat) : (s.beginEpoch p label).pend = s.pend := closeGap_pend s p label

theorem epochIfOwed_pend (s : State) (p label : Nat) : (s.epochIfOwed p label).pend = s.pend := ite_pend (beginEpoch_pend s p label) rfl

theorem unprotected_pend (s : State) (p i : Nat) :
    (match (s.capture p).sheets[i]? with
      | some h => s.writeSheet p (s.rf (keyCAP p) Reg.CAP_SHEET_HEAD + i) h
      | none => s).pend = s.pend := by
  split
  · exact writeSheet_pend s _ _ _
  · rfl

theorem unprotect_pend (s : State) (p : Nat) : (s.unprotect p).pend = s.pend := by
  unfold State.unprotect
  extract_lets i s1 s2
  have h1 : s1.pend = s.pend := modCapture_pend s p _
  clear_value i s1
  have h2 : s2.pend = s1.pend := unprotected_pend s1 p i
  clear_value s2
  exact ((refreshCap_quiet _ _).trans (count_quiet _ _ _)).pend.trans (h2.trans h1)

theorem overwrite_pend (s : State) (p w fuel : Nat) : (s.overwrite p w fuel).pend = s.pend := by
  induction fuel generalizing s with
  | zero => rfl
  | succ n ih => exact ite_pend ((ih _).trans (unprotect_pend s p)) rfl

theorem missSheet_pend (s : State) (p : Nat) : (s.missSheet p).pend = s.pend := by
  unfold State.missSheet
  exact (modCapture_pend _ _ _).trans (count_quiet _ _ _).pend

theorem appendSheet_pend (s : State) (p : Nat) (h : Sheet) : (s.appendSheet p h).pend = s.pend := by
  unfold State.appendSheet
  extract_lets k n h' s1
  have h1 : s1.pend = s.pend := modCapture_pend s p _
  clear_value s1
  refine ite_pend (missSheet_pend s p) ?_
  exact (refreshCap_quiet _ _).pend.trans ((writeSheet_pend _ _ _ _).trans ((wf_quiet _ _ _ _).pend.trans h1))

theorem chunkSheet_pend (s : State) (p w label : Nat) : (s.chunkSheet p w label).pend = s.pend := ite_pend (appendSheet_pend s p _) rfl

theorem storeSample_pend (s : State) (p w : Nat) (c : ChainSample) : (s.storeSample p w c).pend = s.pend := by
  unfold State.storeSample
  extract_lets k fmt l slot ri rq marks marks' s1 acc first m s2 mag lo hi s3 sum n s4
  have h1 : s1.pend = s.pend := ite_pend (writeMem_pend s _ _) (writeMem_pend s _ _)
  clear_value s1
  have h2 : s2.pend = s.pend := (writeMem_pend s1 _ _).trans h1
  clear_value s2
  have h3 : s3.pend = s.pend := (ite_writeMem_pend s2 _ _).trans h2
  clear_value s3
  have h4 : s4.pend = s.pend := (ite_writeMem_pend s3 _ _).trans h3
  clear_value s4
  exact (modCapture_pend _ _ _).trans h4

theorem writerStop_pend (s : State) (p label : Nat) : (s.writerStop p label).pend = s.pend := by
  unfold State.writerStop
  extract_lets k s1 s2
  have h2 : s2.pend = s.pend := endEpoch_pend s p
  have hlogged : Quiet ((s2.irqBit k 18).setErrLogged k 16) s2 :=
    .trans (.ite (logPage_quiet _ _ _ _ _ _ _) (setErr_quiet _ _ _)) (irqBit_quiet s2 k 18)
  exact hlogged.pend.trans h2

theorem writeSample_pend (s : State) (p : Nat) (c : ChainSample) : (s.writeSample p c).pend = s.pend := by
  unfold State.writeSample
  extract_lets k s1 w s2 s3 s4
  have h1 : s1.pend = s.pend := epochIfOwed_pend s p c.label
  have h2 : s2.pend = s.pend := ite_pend ((overwrite_pend s1 p w _).trans h1) h1
  have h4 : s4.pend = s.pend := (setPair_quiet _ _ _ _).pend.trans ((storeSample_pend s2 p w c).trans h2)
  clear_value s4
  exact ite_pend h1 (ite_pend ((writerStop_pend s2 p _).trans h2) ((refreshCap_quiet _ _).pend.trans ((chunkSheet_pend s4 p w _).trans h4)))

theorem pauseEnd_pend (s : State) (p : Nat) : (s.pauseEnd p).pend = s.pend := ite_pend (endEpoch_pend s p) rfl

theorem countDropped_pend (s : State) (key n : Nat) : (s.countDropped key n).pend = s.pend := ite_pend rfl rfl

theorem captureSample_pend (s : State) (p : Nat) : (s.captureSample p).pend = s.pend := by
  unfold State.captureSample
  split
  · rfl
  next c rest _ =>
    extract_lets s1 early
    split
    · refine ite_pend (writeSample_pend s1 p c) ?_
      exact (countDropped_pend _ _ _).trans (pauseEnd_pend s1 p)
    · exact ite_pend (countDropped_pend s1 _ _) (writeSample_pend s1 p c)

theorem capNewEpoch_pend (s : State) (p : Nat) : (s.capNewEpoch p).pend = s.pend :=
  ite_pend ((endEpoch_pend _ _).trans (foldl_kept (g := State.pend) (fun u _ => captureSample_pend u p) _ s)) rfl

theorem ddcRefresh_quiet (s : State) (p : Nat) : Quiet (s.ddcRefresh p) s := by
  unfold State.ddcRefresh
  extract_lets s1
  have h1 : Quiet s1 s := (mirrorGang_quiet _ _).trans (refreshPipe_quiet s p)
  split
  · exact .ite ((refreshPipe_quiet _ _).trans h1) h1
  · exact h1

theorem abandonFrames_pend (s : State) (p a n : Nat) : (s.abandonFrames p a n).pend = s.pend := ite_pend rfl rfl

/-- The words of a chain that take effect leave what waits for an index. -/
theorem ddcApply_pend (s : State) (p a : Nat) (ws : List (Nat × Word)) : (s.ddcApply p a ws).1.pend = s.pend := by
  unfold State.ddcApply
  extract_lets k kind n gain running tuned s1 s2 s3
  have h1 : s1.pend = s.pend := ite_pend ((closeSpectrum_pend _ _).trans (flushGroup_pend s _ _)) rfl
  have h2 : s2.pend = s.pend := (ite_pend (s := s1) (capNewEpoch_pend s1 p) rfl).trans h1
  clear_value s1 kind s2
  split
  · exact (abandonFrames_pend _ _ _ _).trans ((ddcRefresh_quiet _ _).pend.trans h2)
  · exact (ddcRefresh_quiet _ _).pend.trans h2
  · split
    · exact (ddcRefresh_quiet _ _).pend.trans h2
    · exact (ddcRefresh_quiet _ _).pend.trans h2
  · exact (ddcRefresh_quiet _ _).pend.trans h2

theorem cfgField_keyDDC (pipe : Fin 6) : cfgField (keyDDC pipe) = some Reg.DDC_STAT.CFG_STATE := by
  revert pipe
  decide

theorem ddcTake_effect (s : State) (pipe : Fin 6) {a : PendApply} (hempty : a.empty = false) (hdue : a.due < 2 ^ 72) :
    (s.ddcTake pipe a).pendOf (keyDDC pipe) = none ∧ (s.ddcTake pipe a).six3 (keyDDC pipe) 0x12C = a.due := by
  unfold State.ddcTake
  extract_lets key r s1
  rw [if_neg (by rw [hempty]; decide)]
  have hcfg : s1 = (r.1.setSix3 key 0x12C a.due).wf key Reg.DDC_STAT.CFG_STATE r.2 := by
    unfold s1 State.setCfg
    rw [cfgField_keyDDC]
  refine ⟨?_, ?_⟩
  · have hquiet : Quiet ((s1.irqBit key 16).endCommit key a.due) r.1 := by
      rw [hcfg]
      exact (endCommit_quiet _ _ _).trans ((irqBit_quiet _ _ _).trans ((wf_quiet _ _ _ _).trans (setSix3_quiet r.1 _ _ _)))
    rw [pendOf_of_pend (hquiet.pend.trans (ddcApply_pend _ _ _ _))]
    exact pendOf_clearPend _ _
  · refine (six3_of_regs fun o ho _ => ?_).trans (six3_setSix3 r.1 key 0x12C a.due hdue)
    rw [endCommit_regs, reg_of_regs (regs_irqBit ..), hcfg, reg_wf_other]
    have hoff : Reg.DDC_STAT.CFG_STATE.off = 0x11C := rfl
    omega

theorem exec_ddcApply {s : State} {pipe : Fin 6} {a : PendApply} (hpend : s.pendOf (keyDDC pipe) = some a) (hempty : a.empty = false)
    (hdue : a.due < 2 ^ 72) :
    ∃ t, exec (.ddcApply pipe) s = .next t ∧ t.pendOf (keyDDC pipe) = none ∧ t.six3 (keyDDC pipe) 0x12C = a.due := by
  refine ⟨s.ddcTake pipe a, ?_, ddcTake_effect s pipe hempty hdue⟩
  change execDdcApply pipe s = _
  unfold execDdcApply
  rw [hpend]

/-! ### The words of insets take effect: the enables shown are those of the commit. -/

/-- From `s` to `t` what waits for an index and the applied enables of the insets are as they were. -/
def EnablesKept (p : Nat) (t s : State) : Prop := t.pend = s.pend ∧ t.areg (keyINS p) 0x100 = s.areg (keyINS p) 0x100

section
variable {p : Nat}

theorem EnablesKept.refl (s : State) : EnablesKept p s s := ⟨rfl, rfl⟩

theorem EnablesKept.trans {t u s : State} (h1 : EnablesKept p t u) (h2 : EnablesKept p u s) : EnablesKept p t s :=
  ⟨h1.1.trans h2.1, h1.2.trans h2.2⟩

theorem EnablesKept.ite {c : Prop} [Decidable c] {a b s : State} (ha : EnablesKept p a s) (hb : EnablesKept p b s) :
    EnablesKept p (if c then a else b) s := by
  split
  · exact ha
  · exact hb

theorem EnablesKept.foldl {α : Type} {f : State → α → State} (h : ∀ s x, EnablesKept p (f s x) s) (xs : List α) (s : State) :
    EnablesKept p (xs.foldl f s) s := by
  induction xs generalizing s with
  | nil => exact .refl s
  | cons x xs ih => exact (ih (f s x)).trans (h s x)

theorem modInset_enablesKept (s : State) (k : Nat) (f : Inset → Inset) : EnablesKept p (s.modInset p k f) s := ⟨rfl, rfl⟩

theorem insetStart_enablesKept (s : State) (k a : Nat) : EnablesKept p (s.insetStart p k a) s := modInset_enablesKept s k _

theorem areg_setAreg_other (s : State) (key : Nat) {off off' : Nat} (w : Word) (h : off' ≠ off) :
    (s.setAreg key off w).areg key off' = s.areg key off' := by
  unfold State.areg State.setAreg
  rw [State.page_modPage]
  exact mget_mput_other _ _ _ h

theorem setInsWords_enablesKept (s : State) (k : Nat) (ws : List Word) : EnablesKept p (s.setInsWords p k ws) s :=
  .foldl (f := fun s j => s.setAreg (keyINS p) (0x400 + 0x10 * k + 4 * j) (nth 0 ws j))
    (fun u j => ⟨rfl, areg_setAreg_other u (keyINS p) _ (by omega)⟩) _ s

theorem insetChange_enablesKept (s : State) (k a : Nat) (old new : List Word) : EnablesKept p (s.insetChange p k a old new) s := by
  unfold State.insetChange
  extract_lets s1 r a' fork
  have h1 : EnablesKept p s1 s := setInsWords_enablesKept s k new
  have hfork (u : State) (x : Bool) : EnablesKept p (fork u x) u := modInset_enablesKept u k _
  refine .ite ((modInset_enablesKept _ _ _).trans (setInsWords_enablesKept s k old)) (.ite h1 ?_)
  split
  · exact (insetStart_enablesKept _ _ _).trans h1
  · exact (hfork _ _).trans ((modInset_enablesKept _ _ _).trans h1)
  · exact (hfork _ _).trans ((modInset_enablesKept _ _ _).trans h1)
  · exact (hfork _ _).trans h1

theorem insShow_effect (s : State) : (s.insShow p).pend = s.pend ∧ (s.insShow p).reg (keyINS p) 0x124 = s.areg (keyINS p) 0x100 := by
  refine ⟨rfl, ?_⟩
  unfold State.insShow
  extract_lets k s1
  rw [reg_setReg_other _ _ _ (by decide), reg_setReg_other _ _ _ (by decide)]
  unfold s1
  rw [reg_setReg_other _ _ _ (by decide), State.reg_setReg]

theorem applyWords_areg (s : State) (key off : Nat) (a : PendApply) : (s.applyWords key a.words).areg key off = a.word key off := by
  unfold State.areg State.applyWords
  rw [State.page_modPage]
  rfl

theorem setSix3_reg_other (s : State) (key : Nat) {off off' : Nat} (six : Nat) (h : off' ≠ off ∧ off' ≠ off + 4 ∧ off' ≠ off + 8) :
    (s.setSix3 key off six).reg key off' = s.reg key off' := by
  unfold State.setSix3
  rw [reg_setReg_other _ _ _ h.2.2, reg_setReg_other _ _ _ h.2.1, reg_setReg_other _ _ _ h.1]

/-- One inset as its enable and its words change: it stops, starts, or changes over. -/
def State.switchInset (s : State) (p : Nat) (was now : List Nat) (due : Nat) (x : Nat × List Word) : State :=
  let new := s.insWords p x.1
  if !now.contains x.1 then
    (if was.contains x.1 then s.modInset p x.1 fun i => { i with stopAt := some due, target := none } else s)
  else if !was.contains x.1 then s.insetStart p x.1 due
  else s.insetChange p x.1 due x.2 new

theorem switchInset_enablesKept (s : State) (was now : List Nat) (due : Nat) (x : Nat × List Word) :
    EnablesKept p (s.switchInset p was now due x) s :=
  .ite (.ite (modInset_enablesKept s _ _) (.refl s)) (.ite (insetStart_enablesKept s _ _) (insetChange_enablesKept s _ _ _ _))

/-- Every inset is switched in turn from the words that are applied, and then the enables are shown. -/
theorem insApply_eq (s : State) (a : PendApply) : ∃ (was now : List Nat) (olds : List (Nat × List Word)),
    s.insApply p a = ((olds.foldl (fun s x => s.switchInset p was now a.due x) (s.applyWords (keyINS p) a.words)).insShow p).setSix3
      (keyINS p) 0x118 a.due := ⟨_, _, _, rfl⟩

theorem insApply_effect (s : State) (a : PendApply) :
    (s.insApply p a).pend = s.pend ∧ (s.insApply p a).reg (keyINS p) 0x124 = a.word (keyINS p) 0x100 := by
  obtain ⟨was, now, olds, heq⟩ := insApply_eq (p := p) s a
  rw [heq]
  have h1 : (s.applyWords (keyINS p) a.words).pend = s.pend := rfl
  have h2 := applyWords_areg s (keyINS p) 0x100 a
  generalize s.applyWords (keyINS p) a.words = u at h1 h2
  have h3 : EnablesKept p (olds.foldl (fun s x => s.switchInset p was now a.due x) u) u :=
    .foldl (fun v x => switchInset_enablesKept v was now a.due x) olds u
  generalize olds.foldl (fun s x => s.switchInset p was now a.due x) u = v at h3
  obtain ⟨hpend, hshow⟩ := insShow_effect (p := p) v
  exact ⟨(setSix3_quiet _ _ _ _).pend.trans (hpend.trans (h3.1.trans h1)),
      (setSix3_reg_other _ _ a.due (by decide)).trans (hshow.trans (h3.2.trans h2))⟩

end

theorem exec_insApply {s : State} {pipe : Fin 6} {a : PendApply} (hpend : s.pendOf (keyINS pipe) = some a) (hempty : a.empty = false) :
    ∃ t, exec (.insApply pipe) s = .next t ∧ t.pendOf (keyINS pipe) = none ∧ t.reg (keyINS pipe) 0x124 = a.word (keyINS pipe) 0x100 := by
  refine ⟨s.insTake pipe a, ?_, ?_⟩
  · change execInsApply pipe s = _
    unfold execInsApply
    dsimp only
    rw [hpend]
  · unfold State.insTake
    extract_lets key
    rw [if_neg (by rw [hempty]; decide)]
    obtain ⟨hkept, hreg⟩ := insApply_effect (p := pipe) ((s.advanceTo a.due).clearPend key) a
    generalize ((s.advanceTo a.due).clearPend key).insApply pipe a = u at hkept hreg
    refine ⟨?_, ?_⟩
    · rw [pendOf_of_pend (((endCommit_quiet _ _ _).trans (irqBit_quiet _ _ _)).pend.trans hkept)]
      exact pendOf_clearPend _ _
    · rw [endCommit_regs, reg_of_regs (regs_irqBit ..)]
      exact hreg

/-! ### The other commands. -/

theorem exec_ddcCommitAt {s : State} {who : Issuer} {pipe : Fin 6} {tag : Nat} (ht : s.takes who (keyDDC pipe))
    (hahead : s.six + 4096 ≤ (s.latch (keyDDC pipe) 0x0100 tag).sixArg) (halign : (s.latch (keyDDC pipe) 0x0100 tag).sixArg % 32 = 0)
    (hxf : s.crossfading pipe = false) (hcheck : s.ddcCheck pipe = none) :
    ∃ t, exec (.ddcCommitAt who pipe tag) s = .next t ∧
      (t.pendOf (keyDDC pipe)).map (·.due) = some (s.latch (keyDDC pipe) 0x0100 tag).sixArg ∧
      (t.page (keyDDC pipe)).cmdStat = cmdStatWord tag phaseRUNNING 0 codeOK := by
  obtain ⟨hpend, hstat⟩ := commitAt_effect (check := fun s => s.ddcCheck pipe) (key := keyDDC pipe) hahead halign hcheck
  refine ⟨_, congrArg Host.Outcome.next ((command_of_takes ht _ _ _).trans (if_neg ?_)), hpend, hstat.trans (cmdStatWord_tag_mod ..)⟩
  rw [hxf]
  decide

theorem exec_insCommitAt {s : State} {who : Issuer} {pipe : Fin 6} {tag : Nat} (ht : s.takes who (keyINS pipe))
    (hahead : s.six + 4096 ≤ (s.latch (keyINS pipe) 0x0100 tag).sixArg) (halign : (s.latch (keyINS pipe) 0x0100 tag).sixArg % 32 = 0)
    (hcheck : s.insCheck pipe = none) :
    ∃ t, exec (.insCommitAt who pipe tag) s = .next t ∧
      (t.pendOf (keyINS pipe)).map (·.due) = some (s.latch (keyINS pipe) 0x0100 tag).sixArg ∧
      (t.page (keyINS pipe)).cmdStat = cmdStatWord tag phaseRUNNING 0 codeOK := by
  obtain ⟨hpend, hstat⟩ := commitAt_effect (check := fun s => s.insCheck pipe) (key := keyINS pipe) hahead halign hcheck
  have hnote (late : Bool) : (if late then s else s.noteOffender pipe) = s := by
    unfold State.noteOffender
    rw [hcheck]
    exact ite_self s
  refine ⟨_, congrArg Host.Outcome.next ((command_of_takes ht _ _ _).trans ?_), hpend, hstat.trans (cmdStatWord_tag_mod ..)⟩
  dsimp only
  rw [hnote]

theorem chain_modChain (s : State) (p : Nat) (f : Chain → Chain) : (s.modChain p f).chain p = f (s.chain p) := mget_mput_same _ _ _ _

theorem exec_chainClean {s : State} {pipe : Fin 6} (hwant : (s.chain pipe).wantClean = true) (hseen : (s.chain pipe).cleanSeen = true) :
    ∃ t, exec (.chainClean pipe) s = .next t ∧ (t.chain pipe).wantClean = false ∧ wbit (t.page (keyDDC pipe)).irq 18 = true := by
  refine ⟨_, if_pos (by rw [hwant, hseen]; rfl), ?_, wbit_irq_irqBit _ _ (by decide)⟩
  refine ((irqBit_quiet _ _ _).get fun u => (u.chain pipe).wantClean).trans ?_
  change ((s.modChain pipe fun c => { c with wantClean := false, cleanSeen := false }).chain pipe).wantClean = false
  rw [chain_modChain]

theorem exec_chainXfadeDone {s : State} {pipe : Fin 6} (hxf : s.crossfading pipe = true) (hleft : (s.chain pipe).xfLeft = 0)
    (htarget : (s.chain pipe).target = none) :
    ∃ t, exec (.xfadeDone pipe none) s = .next t ∧ t.rf (keyDDC pipe) Reg.DDC_STAT.CFG_STATE = 0 ∧
      wbit (t.page (keyDDC pipe)).irq 17 = true := by
  have hkept : ((s.irqBit (keyDDC pipe) 17).chain pipe).target = none :=
    ((irqBit_quiet s _ _).get fun u => (u.chain pipe).target).trans htarget
  have heq : s.chainXfDone pipe = (s.irqBit (keyDDC pipe) 17).wf (keyDDC pipe) Reg.DDC_STAT.CFG_STATE 0 := by
    unfold State.chainXfDone
    extract_lets k s1 s2
    rw [if_neg (by rw [hxf, hleft]; decide), show (s1.chain pipe).target = none from hkept]
    unfold State.setCfg
    rw [cfgField_keyDDC]
  refine ⟨_, congrArg Host.Outcome.next heq, rf_wf_same _ _ _ (by decide) (by decide), ?_⟩
  exact (wf_raised _ _ _ _).irq (wbit_irq_irqBit s _ (by decide))

theorem inset_modInset (s : State) (p k : Nat) (f : Inset → Inset) : (s.modInset p k f).inset p k = f (s.inset p k) := mget_mput_same _ _ _ _

theorem exec_insetXfadeDone {s : State} {pipe : Fin 6} {n : Fin 64} (hleft : (s.inset pipe n).xfLeft = 0) (hat : (s.inset pipe n).xfAt ≠ 0)
    (htarget : (s.inset pipe n).target = none) :
    ∃ t, exec (.xfadeDone pipe (some n)) s = .next t ∧ (t.inset pipe n).xfAt = 0 ∧ wbit (t.page (keyINS pipe)).irq 17 = true := by
  have heq : s.insetXfDone pipe n =
      (s.modInset pipe n fun i => { i with xfAt := 0, target := none }).irqBit (keyINS pipe) 17 := by
    unfold State.insetXfDone
    dsimp only
    rw [if_neg (by rintro (h | h); exacts [h hleft, hat h]), htarget]
  refine ⟨_, congrArg Host.Outcome.next heq, ?_, wbit_irq_irqBit _ _ (by decide)⟩
  refine ((irqBit_quiet _ _ _).get fun u => (u.inset pipe n).xfAt).trans ?_
  change ((s.modInset pipe n fun i => { i with xfAt := 0, target := none }).inset pipe n).xfAt = 0
  rw [inset_modInset]

theorem exec_dcCfgWrite {s : State} {who : Issuer} {pipe : Fin 6} {value : BitVec 32} (h : s.honours who (keyDDC pipe))
    (hshift : 10 ≤ wget value 4 0 ∧ wget value 4 0 ≤ 26) :
    ∃ t, exec (.dcCfgWrite who pipe value) s = .next t ∧ t.rf (keyDDC pipe) Reg.DDC_DC_CFG.SHIFT = wget value 4 0 ∧
      t.rf (keyDDC pipe) Reg.DDC_DC_CFG.FREEZE = wget value 8 8 := by
  change ∃ t, execDcCfgWrite who pipe value s = .next t ∧ _
  unfold execDcCfgWrite
  extract_lets key sh
  rw [write_of_honours (key := key) h]
  have hrf (u : State) (f : Chain → Chain) (g : RegField) : (u.modChain pipe f).rf (keyDDC pipe) g = u.rf (keyDDC pipe) g := rfl
  refine ⟨_, rfl, ?_, ?_⟩
  · dsimp only
    rw [hrf, if_pos hshift]
    exact (rf_wf_same _ _ _ (by decide) (by decide)).trans (Nat.mod_eq_of_lt (bitsOf_lt _ _ _))
  · dsimp only
    rw [hrf, if_pos hshift]
    refine (rf_wf_apart (.inr (.inr (by decide))) _ _).trans ?_
    exact (rf_wf_same s _ _ (by decide) (by decide)).trans (Nat.mod_eq_of_lt (bitsOf_lt _ _ _))

/-- Settles O13: what a commit puts in force, and the writer's epoch that it may end, leave what waits elsewhere and the indices shown. -/
theorem chainAndInsetsComplete : Obligations.ChainAndInsetsComplete := by
  unfold Obligations.ChainAndInsetsComplete
  exact ⟨fun s who pipe tag ht hahead halign hxf hcheck => exec_ddcCommitAt ht hahead halign hxf hcheck,
    fun s who pipe tag ht hahead halign hcheck => exec_insCommitAt ht hahead halign hcheck,
    fun s pipe a hpend hempty hdue => exec_ddcApply hpend hempty hdue,
    fun s pipe a hpend hempty => exec_insApply hpend hempty,
    fun s pipe hwant hseen => exec_chainClean hwant hseen,
    fun s pipe hxf hleft htarget => exec_chainXfadeDone hxf hleft htarget,
    fun s pipe n hleft hat htarget => exec_insetXfadeDone hleft hat htarget,
    fun s who pipe value h hshift => exec_dcCfgWrite h hshift⟩

end Sys2Proof.Machine

namespace Sys2Proof.Machine

/-! ### Streams and their ports (R451-R456). -/

theorem stream_task {s : State} {task : Nat} {x : Stream} (h : s.stream task = some x) : x.task = task := by
  unfold State.stream at h
  split at h
  · split at h
    · next htask => exact Option.some.inj h ▸ htask
    · cases h
  · cases h

/-- A stream that changes, but for its task. -/
theorem stream_modStream {s : State} {task : Nat} {x : Stream} {f : Stream → Stream} (h : s.stream task = some x) (hf : (f x).task = x.task) :
    (s.modStream task f).stream task = some (f x) := by
  unfold State.modStream
  rw [h]
  unfold State.stream
  rw [mfind_mput_same]
  exact if_pos (hf.trans (stream_task h))

theorem port_index {x : Stream} {i : Nat} {p : StreamPort} (h : x.port i = some p) : p.index = i :=
  of_decide_eq_true (List.find?_some (p := fun p : StreamPort => decide (p.index = i)) h)

/-- The port that changes, in a list of ports, but for its index. -/
theorem find_port_map {ports : List StreamPort} {i : Nat} {p : StreamPort} {f : StreamPort → StreamPort}
    (h : ports.find? (fun p => decide (p.index = i)) = some p) (hf : ∀ p, (f p).index = p.index) :
    (ports.map fun p => if p.index = i then f p else p).find? (fun p => decide (p.index = i)) = some (f p) := by
  induction ports with
  | nil => cases h
  | cons q qs ih =>
    rw [List.map_cons]
    by_cases hq : q.index = i
    · rw [List.find?_cons_of_pos (by exact decide_eq_true hq)] at h
      rw [if_pos hq, List.find?_cons_of_pos (by rw [hf, hq]; exact decide_eq_true rfl), Option.some.inj h]
    · rw [List.find?_cons_of_neg (by rw [decide_eq_true_iff]; exact hq)] at h
      rw [if_neg hq, List.find?_cons_of_neg (by rw [decide_eq_true_iff]; exact hq)]
      exact ih h

theorem portOf_modPort {s : State} {task i : Nat} {x : Stream} {p : StreamPort} {f : StreamPort → StreamPort} (h : s.stream task = some x)
    (hp : x.port i = some p) (hf : ∀ p, (f p).index = p.index) : (s.modPort task i f).portOf task i = some (f p) := by
  unfold State.portOf State.modPort
  rw [stream_modStream h rfl]
  exact find_port_map hp hf

theorem modStream_out (s : State) (task : Nat) (f : Stream → Stream) : (s.modStream task f).out = s.out := by
  unfold State.modStream
  split
  · rfl
  · rfl

theorem modRec_out (s : State) (task i seq : Nat) (f : StreamRec → StreamRec) : (s.modRec task i seq f).out = s.out := modStream_out s _ _

theorem payUnit_out (s : State) (task i n : Nat) (free : Bool) : (s.payUnit task i n free).out = s.out := by
  unfold State.payUnit
  split
  · rfl
  · extract_lets k s1 l
    have h1 : s1.out = s.out := by
      unfold s1
      split
      · rfl
      · exact modStream_out s _ _
    exact h1

theorem modRing_out (s : State) (n : Nat) (f : Ring → Ring) : (s.modRing n f).out = s.out := by
  unfold State.modRing
  extract_lets was s1 now
  split
  · rfl
  · rfl

/-- A piece of a record that has its place in the buffer of an open ring goes there. -/
theorem hostTransfer_writes {s : State} {x : Stream} {p : StreamPort} {r : StreamRec} {addr lg pos skip : Nat}
    (hbuffer : (s.ring (dDEST_ID (s.streamDesc x.task))).buffer = some (addr, lg))
    (hring : (s.ring (dDEST_ID (s.streamDesc x.task))).st = .open0 ∧ (s.ring (dDEST_ID (s.streamDesc x.task))).offsets = [] ∧
      (s.ring (dDEST_ID (s.streamDesc x.task))).entries = [])
    (hperst : s.perst = false) (hplace : r.place = some (pos, skip)) (hfits : r.bytes.length ≤ 2 ^ lg) :
    Output.hostWrite (addr + pos % 2 ^ lg + r.sent) (((r.bytes.drop r.sent).take 4096).map some) ∈ (s.hostTransfer x p r).out := by
  obtain ⟨hst, hoffsets, hentries⟩ := hring
  unfold State.hostTransfer
  dsimp only
  rw [hbuffer]
  dsimp only
  rw [hplace, hoffsets, hentries, if_neg]
  · have hemit (u : State) (o : Output) : o ∈ (u.emit o).out := List.mem_append_right _ List.mem_cons_self
    split
    · rw [modRing_out, payUnit_out, modRec_out]
      exact hemit _ _
    · rw [payUnit_out, modRec_out]
      exact hemit _ _
  · rintro (h | h | h)
    · exact h hst
    · rw [hperst] at h
      exact Bool.noConfusion h
    · change pos + 2 ^ lg < pos + r.bytes.length at h
      omega

theorem exec_streamTransfer {s : State} {task : BitVec 32} {port : Fin 32} {x : Stream} {p : StreamPort} {r : StreamRec} {rest : List StreamRec}
    {addr lg pos : Nat} (hx : (s.modPort task.toNat port fun p => fillBucket p s.six).stream task.toNat = some x)
    (hp : x.port port = some p) (htodo : p.todo = r :: rest) (hgrant : 0 ≤ p.bucket ∧ p.grant ≠ 0)
    (hpath : (s.modPort task.toNat port fun p => fillBucket p s.six).recordPath x.task = .clear) (hdest : x.dest = destHOST)
    (hwrites : Output.hostWrite (addr + pos % 2 ^ lg + r.sent) (((r.bytes.drop r.sent).take 4096).map some) ∈
      ((s.modPort task.toNat port fun p => fillBucket p s.six).hostTransfer x p r).out) :
    ∃ t, exec (.streamTransfer task port) s = .next t ∧
      Output.hostWrite (addr + pos % 2 ^ lg + r.sent) (((r.bytes.drop r.sent).take 4096).map some) ∈ t.out := by
  refine ⟨_, ?_, hwrites⟩
  change execStreamTransfer task port s = _
  unfold execStreamTransfer
  dsimp only
  generalize s.modPort task.toNat port (fun p => fillBucket p s.six) = u at hx hpath
  rw [hx]
  dsimp only
  rw [hp]
  dsimp only
  rw [htodo]
  dsimp only
  rw [if_neg, if_pos hdest]
  have hbucket : decide (p.bucket < 0) = false := decide_eq_false (by omega)
  have hsome : decide (p.grant = 0) = false := decide_eq_false hgrant.2
  rw [hbucket, hsome, hpath, Bool.or_self, Bool.and_false]
  decide

/-- A stream that is not closing stays. -/
theorem dropClosed_open {s : State} {task : Nat} {x : Stream} (h : s.stream task = some x) (hopen : x.closing = false) : s.dropClosed task = s := by
  unfold State.dropClosed
  rw [h]
  exact if_neg fun hc => Bool.noConfusion (hopen.symm.trans hc.1)

theorem exec_recordTaken {s : State} {task : BitVec 32} {port : Fin 32} {x : Stream} {p : StreamPort} {r : StreamRec}
    (hx : s.stream task.toNat = some x) (hopen : x.closing = false) (hp : x.port port = some p)
    (hr : p.queue.find? (fun r => s.isTaken x.task x.dest r) = some r) (hfrom : r.from0 = .none) :
    ∃ t, exec (.recordTaken task port) s = .next t ∧ (t.portOf task.toNat port).map (·.queue) = some (p.queue.erase r) := by
  have htask := stream_task hx
  refine ⟨s.modPort task.toNat port fun p => { p with queue := p.queue.erase r }, ?_, ?_⟩
  · change execRecordTaken task port s = _
    unfold execRecordTaken
    rw [hx]
    dsimp only
    rw [hp]
    dsimp only
    rw [hr, htask]
    dsimp only
    rw [hfrom]
    refine congrArg Host.Outcome.next (dropClosed_open (stream_modStream hx ?_) hopen)
    rfl
  · rw [portOf_modPort hx hp (by intro; rfl)]
    rfl

/-! ### Drives (R462-R469). -/

theorem drive_modDrive {s : State} {d : Nat} {v : Drive} (h : s.drive d = some v) (f : Drive → Drive) : (s.modDrive d f).drive d = some (f v) := by
  unfold State.modDrive
  rw [h]
  exact mfind_mput_same _ _ _

theorem modDrive_writes (s : State) (d : Nat) (f : Drive → Drive) : (s.modDrive d f).writes = s.writes := by
  unfold State.modDrive
  split
  · rfl
  · rfl

theorem modDrive_nviBit (s : State) (d : Nat) (f : Drive → Drive) (off e : Nat) : (s.modDrive d f).nviBit off e = s.nviBit off e := by
  unfold State.modDrive
  split
  · rfl
  · rfl

theorem refreshDrive_quiet (s : State) (d : Nat) : Quiet (s.refreshDrive d) s := setReg_quiet s _ _ _

theorem nviMark_quiet (s : State) (off d : Nat) (b : Bool) : Quiet (s.nviMark off d b) s := setReg_quiet s _ _ _

theorem nviMark_raised (s : State) (off d : Nat) (b : Bool) : Raised (s.nviMark off d b) s := setReg_raised s _ _ _

theorem drive_of_quiet {t s : State} (h : Quiet t s) (d : Nat) : t.drive d = s.drive d := h.get (·.drive d)

theorem nviBit_nviMark_same (s : State) (off : Nat) {d : Nat} (hd : d < 32) (b : Bool) : (s.nviMark off d b).nviBit off d = b := by
  unfold State.nviBit State.nviMark
  rw [State.reg_setReg]
  have h := wget_wset (s.reg keyNVI off) (boolNat b) (hi := d) (lo := d) hd (le_refl d)
  rw [show d + 1 - d = 1 by omega] at h
  unfold wget bitsOf at h
  rw [show d + 1 - d = 1 by omega] at h
  unfold wbit nbit
  rw [show (wset (s.reg keyNVI off) d d (boolNat b)).toNat / 2 ^ d % 2 = boolNat b % 2 from h]
  cases b <;> rfl

theorem nviBit_setReg_other (s : State) {off o : Nat} (w : Word) (d : Nat) (h : o ≠ off) : (s.setReg keyNVI off w).nviBit o d = s.nviBit o d := by
  unfold State.nviBit
  rw [reg_setReg_other _ _ _ h]

theorem nviBit_of_regs {t s : State} (h : (t.page keyNVI).regs = (s.page keyNVI).regs) (o d : Nat) : t.nviBit o d = s.nviBit o d := by
  unfold State.nviBit
  rw [reg_of_regs h]

/-- Where no write is held, none is issued again. -/
theorem reissueHeld_none {s : State} (d : Nat) (h : s.writes.all (fun e => !e.2.held) = true) : s.reissueHeld d = s := by
  have hnone : (s.writes.filter fun e => decide (e.2.drive = d) && e.2.held) = [] := by
    rw [List.filter_eq_nil_iff]
    intro e he hheld
    have hnot := List.all_eq_true.1 h e he
    rw [Bool.and_eq_true] at hheld
    rw [hheld.2] at hnot
    exact Bool.noConfusion hnot
  unfold State.reissueHeld
  rw [hnone]
  rfl

theorem modRec_writes (s : State) (task i seq : Nat) (f : StreamRec → StreamRec) : (s.modRec task i seq f).writes = s.writes := by
  unfold State.modRec State.modPort State.modStream
  split
  · rfl
  · rfl

theorem exec_nvmeCompletion {s : State} {slot : Fin 1008} {w : NvmeWrite} (hw : mfind s.writes slot = some w)
    (hall : s.writes.all (fun e => !e.2.held) = true) (hheld : w.held = false) :
    ∃ t, exec (.nvmeCompletion slot true) s = .next t ∧ mfind t.writes slot = none := by
  change ∃ t, execNvmeCompletion slot true s = .next t ∧ _
  unfold execNvmeCompletion
  split
  next h =>
    rw [hw] at h
    cases h
  next w' h =>
  obtain rfl : w = w' := Option.some.inj (hw.symm.trans h)
  rw [if_neg (by rw [hheld]; decide)]
  extract_lets i s1 s2 s3
  rw [if_pos rfl]
  have h1 : s1.writes = s.writes := by
    unfold s1
    split
    · split
      · exact modDrive_writes s _ _
      · rfl
    · rfl
  have h3 : s3.writes = mdel s.writes slot := by
    refine (foldl_kept (g := State.writes) (fun u q => modRec_writes u w.task w.drive q _) w.seqs s2).trans ?_
    exact congrArg (mdel · slot.val) h1
  have hall3 : s3.writes.all (fun e => !e.2.held) = true := by
    rw [h3, mdel_eq_filter, List.all_eq_true]
    intro e he
    exact List.all_eq_true.1 hall e (List.mem_filter.1 he).1
  refine ⟨_, rfl, ?_⟩
  rw [reissueHeld_none _ hall3, (refreshDrive_quiet s3 _).get State.writes]
  exact (congrArg (mfind · slot.val) h3).trans (mfind_mdel_same _ _)

theorem exec_nvmeWriteTimeout {s : State} {slot : Fin 1008} {w : NvmeWrite} (hw : mfind s.writes slot = some w) (hheld : w.held = false)
    (htries : w.tries < 3) :
    ∃ t, exec (.nvmeWriteTimeout slot) s = .next t ∧ (mfind t.writes w.slot).map (·.tries) = some (w.tries + 1) := by
  refine ⟨(s.advanceTo (w.issuedAt + 5000 * sixPerMs)).writeFailed w, ?_, ?_⟩
  · change execNvmeWriteTimeout slot s = _
    unfold execNvmeWriteTimeout
    rw [hw]
    exact if_neg (by rw [hheld]; decide)
  · unfold State.writeFailed
    extract_lets s1 s2
    rw [if_neg (by omega)]
    split
    · exact congrArg (Option.map _) (mfind_mput_same _ _ _)
    · exact congrArg (Option.map _) (mfind_mput_same _ _ _)

theorem exec_apertureRead {s : State} (prp : Bool) {slot : Fin 1008} (offset : BitVec 20) (len : Fin 4097) {w : NvmeWrite}
    (hw : mfind s.writes slot = some w) :
    ∃ t, exec (.apertureRead prp slot offset len) s = .next t ∧
      t.out = s.out ++ [.pcieReply ((List.range len).map fun i => (if prp then s.prpList w else w.bytes).getD (offset.toNat + i) 0)] := by
  refine ⟨s.emit _, ?_, rfl⟩
  change execApertureRead prp slot offset len s = _
  unfold execApertureRead
  dsimp only
  rw [hw]

/-! ### The queues and stores of drives. -/

/-- An operation that has been accepted ends DONE, whatever it did to the registers of its page. -/
theorem cmdStat_doneOp {s u : State} {key : Nat} {op : Op} (h : Raised u (s.accept key op)) :
    ((u.doneOp key).page key).cmdStat = cmdStatWord op.tag phaseDONE 0 codeOK := by
  have hop : (u.page key).op = some op := by
    refine (h.get key (·.op)).trans ?_
    change ((s.accept key op).page key).op = _
    rw [page_accept_same]
  change ((u.endOp key phaseDONE codeOK 0).page key).cmdStat = _
  rw [page_endOp_same hop]

/-- What a register of the drives' page reads after the command that changed it ends. -/
theorem nviBit_doneOp (s : State) (o d : Nat) : (s.doneOp keyNVI).nviBit o d = s.nviBit o d := nviBit_of_regs (regs_endOp ..) o d

theorem nviBit_refreshDrive (s : State) (e : Nat) {o : Nat} (d : Nat) (ho : o < 0x400) : (s.refreshDrive e).nviBit o d = s.nviBit o d := by
  unfold State.refreshDrive
  exact nviBit_setReg_other s _ d (by omega)

/-- The drive that a record of its first queue pair registers. -/
def newDrive (b : List Byte) : Drive :=
  { nsid := u32At b 0x20, lbaLog2 := byteAt b 0x24, mdtsLog2 := byteAt b 0x25, lbas := u64At b 0x28, queues := [queueOf b], nextQueue := 0,
    storeId := 0, wrap := false, gens := [], nextExt := 0 }

/-- The first queue pair of a drive registers it. -/
theorem addQueue_accepted {s u : State} {op : Op} {d : Nat} {v : Drive} (hd : d < 32) (hu : Raised u (s.accept keyNVI op)) (hwrites : u.writes = [])
    (hdrive : u.drive d = some v) :
    ((((u.nviMark nviDRIVES d true).reissueHeld d).refreshDrive d).doneOp keyNVI).drive d = some v ∧
      ((((u.nviMark nviDRIVES d true).reissueHeld d).refreshDrive d).doneOp keyNVI).nviBit nviDRIVES d = true ∧
      (((((u.nviMark nviDRIVES d true).reissueHeld d).refreshDrive d).doneOp keyNVI).page keyNVI).cmdStat =
        cmdStatWord op.tag phaseDONE 0 codeOK := by
  have hnone : (u.nviMark nviDRIVES d true).writes.all (fun e => !e.2.held) = true := by
    rw [(nviMark_quiet u _ _ _).get State.writes]
    change u.writes.all _ = true
    rw [hwrites]
    rfl
  rw [reissueHeld_none _ hnone]
  refine ⟨?_, ?_, cmdStat_doneOp ((setReg_raised _ _ _ _).trans ((nviMark_raised _ _ _ _).trans hu))⟩
  · rw [drive_of_quiet ((doneOp_quiet _ _).trans ((refreshDrive_quiet _ _).trans (nviMark_quiet u _ _ _)))]
    exact hdrive
  · rw [nviBit_doneOp, nviBit_refreshDrive _ _ _ (by decide)]
    exact nviBit_nviMark_same u _ hd true

theorem exec_addQueue {s : State} {who : Issuer} {tag : Nat} {b : List Byte} (ht : s.takes who keyNVI) (hdrives : s.drives = [])
    (hwrites : s.writes = []) (hd : byteAt b 0 < 32) (hqid : (queueOf b).qid ≠ 0)
    (hsizes : 2 ≤ (queueOf b).sqEntries ∧ (queueOf b).sqEntries ≤ 256 ∧ 2 ≤ (queueOf b).cqEntries ∧ (queueOf b).cqEntries ≤ 256)
    (halign : (queueOf b).sqOffset % 4096 = 0 ∧ (queueOf b).cqOffset % 4096 = 0) (hlba : byteAt b 0x24 = 9 ∨ byteAt b 0x24 = 12)
    (hmdts : 17 ≤ byteAt b 0x25 ∧ byteAt b 0x25 ≤ 30) (hranges : (queueOf b).ranges.all inQueueMemory = true)
    (hapart : overlaps ((queueOf b).sqOffset, 64 * (queueOf b).sqEntries) ((queueOf b).cqOffset, 16 * (queueOf b).cqEntries) = false) :
    ∃ t, exec (.addQueue who tag (some b)) s = .next t ∧ (t.drive (byteAt b 0)).map (·.queues) = some [queueOf b] ∧
      t.nviBit nviDRIVES (byteAt b 0) = true ∧ (t.page keyNVI).cmdStat = cmdStatWord tag phaseDONE 0 codeOK := by
  have hnone : s.drive (byteAt b 0) = none := by
    unfold State.drive
    rw [hdrives]
    rfl
  obtain ⟨hsq, hsq', hcq, hcq'⟩ := hsizes
  have hfree : (queueOf b).ranges.any (fun r => !inQueueMemory r || ([] : List (Nat × Nat)).any (overlaps r)) = false := by
    rw [List.any_eq_false]
    intro r hr
    rw [List.all_eq_true.1 hranges r hr]
    exact Bool.false_ne_true
  change ∃ t, execAddQueue who tag (some b) s = .next t ∧ _
  unfold execAddQueue
  rw [command_of_takes ht]
  dsimp only
  have hnone' : (s.accept keyNVI (s.latch keyNVI 0x0100 tag)).drive (byteAt b 0) = none := hnone
  rw [hnone, hnone', if_neg, hdrives, if_neg]
  · obtain ⟨hdrive, hbit, hstat⟩ := addQueue_accepted (s := s) (op := s.latch keyNVI 0x0100 tag) (d := byteAt b 0) (v := newDrive b)
      (u := ({ s.accept keyNVI (s.latch keyNVI 0x0100 tag) with
        drives := mput (s.accept keyNVI (s.latch keyNVI 0x0100 tag)).drives (byteAt b 0) (newDrive b) } : State))
      hd (.congr (.refl _) rfl rfl) hwrites (mfind_mput_same _ _ _)
    exact ⟨_, rfl, congrArg (Option.map (·.queues)) hdrive, hbit, hstat.trans (cmdStatWord_tag_mod ..)⟩
  · rw [List.flatMap_nil, hfree, hapart]
    exact Bool.false_ne_true
  · rintro (h | h | h | h | h | h | h | h | h | h | h | h)
    · omega
    · exact hqid h
    · omega
    · omega
    · omega
    · omega
    · exact h halign.1
    · exact h halign.2
    · omega
    · omega
    · omega
    · exact Bool.false_ne_true h

theorem modDrive_raised (s : State) (d : Nat) (f : Drive → Drive) : Raised (s.modDrive d f) s := by
  unfold State.modDrive
  split
  · exact .congr (.refl _) rfl rfl
  · exact .refl _

theorem latch_a0 (s : State) (key opcode tag : Nat) : (s.latch key opcode tag).a0 = (s.page key).a0.toNat := rfl
theorem latch_a1 (s : State) (key opcode tag : Nat) : (s.latch key opcode tag).a1 = (s.page key).a1.toNat := rfl
theorem latch_a2 (s : State) (key opcode tag : Nat) : (s.latch key opcode tag).a2 = (s.page key).a2.toNat := rfl
theorem latch_a3 (s : State) (key opcode tag : Nat) : (s.latch key opcode tag).a3 = (s.page key).a3.toNat := rfl

/-- A drive gone from the list has no queues. -/
theorem drive_mdel (s : State) (d : Nat) : ({ s with drives := mdel s.drives d } : State).drive d = none := mfind_mdel_same _ _

theorem exec_removeQueue {s : State} {who : Issuer} {tag : Nat} {v : Drive} (ht : s.takes who keyNVI)
    (hv : s.drive (s.page keyNVI).a0.toNat = some v)
    (hany : v.queues.any (fun q => decide (q.qid = (s.page keyNVI).a1.toNat)) = true) (hunused : s.driveUsed (s.page keyNVI).a0.toNat = false) :
    ∃ t, exec (.removeQueue who tag) s = .next t ∧
      (t.drive (s.page keyNVI).a0.toNat).elim [] (·.queues) = v.queues.filter (fun q => decide (q.qid ≠ (s.page keyNVI).a1.toNat)) ∧
      (t.page keyNVI).cmdStat = cmdStatWord tag phaseDONE 0 codeOK := by
  change ∃ t, execRemoveQueue who tag s = .next t ∧ _
  unfold execRemoveQueue
  rw [command_of_takes ht, ← latch_a0 s keyNVI 0x0101 tag, ← latch_a1 s keyNVI 0x0101 tag] at *
  have htag := cmdStatWord_tag_mod tag phaseDONE 0 codeOK
  rw [← latch_tag s keyNVI 0x0101 tag] at htag
  rw [← htag]
  generalize s.latch keyNVI 0x0101 tag = op at *
  have hall : v.queues.all (fun q => decide (q.qid ≠ op.a1)) = false := by
    obtain ⟨q, hq, hid⟩ := List.any_eq_true.1 hany
    rw [List.all_eq_false]
    exact ⟨q, hq, fun h => of_decide_eq_true h (of_decide_eq_true hid)⟩
  have hv' : (s.accept keyNVI op).drive op.a0 = some v := hv
  rw [hv]
  dsimp only
  rw [hall, hunused, if_neg Bool.false_ne_true, if_neg Bool.false_ne_true]
  split
  next hempty =>
    refine ⟨_, rfl, ?_, cmdStat_doneOp (s := s) ?_⟩
    · rw [drive_of_quiet ((doneOp_quiet _ _).trans ((refreshDrive_quiet _ _).trans ((nviMark_quiet _ _ _ _).trans (nviMark_quiet _ _ _ _)))),
        drive_mdel]
      exact (List.isEmpty_iff.1 hempty).symm
    · exact (setReg_raised _ _ _ _).trans ((nviMark_raised _ _ _ _).trans ((nviMark_raised _ _ _ _).trans (.congr (.refl _) rfl rfl)))
  next hsome =>
    refine ⟨_, rfl, ?_, cmdStat_doneOp (s := s) ?_⟩
    · rw [drive_of_quiet ((doneOp_quiet _ _).trans (refreshDrive_quiet _ _)), drive_modDrive hv']
      rfl
    · exact (setReg_raised _ _ _ _).trans (modDrive_raised _ _ _)

theorem exec_storeInit {s : State} {who : Issuer} {tag : Nat} {v : Drive} (ht : s.takes who keyNVI)
    (hv : s.drive ((s.page keyNVI).a0.toNat % 32) = some v) (hgood : s.nviBit nviFAILED ((s.page keyNVI).a0.toNat % 32) = false)
    (hunused : s.driveUsed ((s.page keyNVI).a0.toNat % 32) = false)
    (hmember : (s.page keyNVI).a3.toNat % 256 ≠ 0 ∧ (s.page keyNVI).a3.toNat % 256 ≤ 32 ∧
      (s.page keyNVI).a3.toNat / 256 % 256 < (s.page keyNVI).a3.toNat % 256) (hblocks : 2 ≤ v.blocks) :
    ∃ t, exec (.storeInit who tag true) s = .next t ∧
      (t.drive ((s.page keyNVI).a0.toNat % 32)).map (fun v => (v.storeId, v.wrap, v.gens)) =
        some ((s.page keyNVI).a1.toNat + (s.page keyNVI).a2.toNat * 2 ^ 32, wbit (s.page keyNVI).a3 16, []) ∧
      (t.page keyNVI).cmdStat = cmdStatWord tag phaseDONE 0 codeOK := by
  change ∃ t, execStoreInit who tag true s = .next t ∧ _
  unfold execStoreInit
  rw [command_of_takes ht]
  rw [← latch_a0 s keyNVI 0x0102 tag] at *
  rw [← latch_a1 s keyNVI 0x0102 tag, ← latch_a2 s keyNVI 0x0102 tag]
  rw [← latch_a3 s keyNVI 0x0102 tag] at hmember
  rw [← cmdStatWord_tag_mod tag phaseDONE 0 codeOK, ← latch_tag s keyNVI 0x0102 tag,
    show wbit (s.page keyNVI).a3 16 = nbit (s.latch keyNVI 0x0102 tag).a3 16 from rfl]
  generalize s.latch keyNVI 0x0102 tag = op at *
  have hrange : ¬(op.a3 % 256 = 0 ∨ 32 < op.a3 % 256 ∨ op.a3 % 256 ≤ op.a3 / 256 % 256 ∨ v.blocks < 2) := by
    obtain ⟨hn, hle, hmem⟩ := hmember
    rintro (h | h | h | h)
    · exact hn h
    · exact absurd hle (by omega)
    · exact absurd hmem (by omega)
    · omega
  dsimp only
  rw [hv]
  dsimp only
  rw [hgood, hunused, if_neg Bool.false_ne_true, if_neg Bool.false_ne_true, if_neg hrange, if_neg (by decide)]
  refine ⟨_, rfl, ?_, cmdStat_doneOp (s := s) ?_⟩
  · rw [drive_of_quiet (doneOp_quiet _ _), drive_modDrive (v := v)]
    · rfl
    · rw [drive_of_quiet ((nviMark_quiet _ _ _ _).trans (nviMark_quiet _ _ _ _))]
      exact hv
  · exact (modDrive_raised _ _ _).trans ((nviMark_raised _ _ _ _).trans ((nviMark_raised _ _ _ _).trans (.congr (.refl _) rfl rfl)))

theorem exec_storeMount {s : State} {who : Issuer} {tag : Nat} {v : Drive} {b : List Byte} (last : Option (List Byte)) (headers : List (List Byte))
    (ht : s.takes who keyNVI) (hv : s.drive ((s.page keyNVI).a0.toNat % 32) = some v)
    (hgood : s.nviBit nviFAILED ((s.page keyNVI).a0.toNat % 32) = false) (hunused : s.driveUsed ((s.page keyNVI).a0.toNat % 32) = false)
    (hb : superblockOk b = true) :
    ∃ t, exec (.storeMount who tag (some b) last headers) s = .next t ∧
      (t.drive ((s.page keyNVI).a0.toNat % 32)).map (fun v => (v.storeId, v.wrap)) = some (u64At b 8, decide (byteAt b 0x1C = 1)) ∧
      t.nviBit nviMOUNTED ((s.page keyNVI).a0.toNat % 32) = true := by
  have hfind : ([some b, last].filterMap id).find? superblockOk = some b := List.find?_cons_of_pos hb
  change ∃ t, execStoreMount who tag (some b) last headers s = .next t ∧ _
  unfold execStoreMount
  rw [command_of_takes ht]
  dsimp only [latch_a0]
  rw [hv]
  dsimp only
  rw [hgood, hunused, if_neg Bool.false_ne_true, if_neg Bool.false_ne_true, hfind]
  dsimp only
  refine ⟨_, rfl, ?_, ?_⟩
  · rw [drive_of_quiet ((doneWith_quiet _ _ _).trans ((nviMark_quiet _ _ _ _).trans (nviMark_quiet _ _ _ _))),
      drive_modDrive (s := s.accept keyNVI (s.latch keyNVI 0x0103 tag)) hv]
    rfl
  · rw [nviBit_of_regs (regs_doneWith ..)]
    refine (nviBit_setReg_other _ _ _ (by decide)).trans ?_
    exact nviBit_nviMark_same _ _ (Nat.mod_lt _ (by decide)) true

/-- Settles O26. -/
theorem streamsAndDrivesComplete : Obligations.StreamsAndDrivesComplete := by
  unfold Obligations.StreamsAndDrivesComplete
  refine ⟨?_, ?_, ?_, ?_, ?_, ?_, ?_, ?_, ?_, ?_, ?_⟩
  · intro s task x hx hnone
    refine ⟨{ s with readyRecs := s.readyRecs.erase x }, ?_, rfl, rfl⟩
    change execStreamRecordReady task s = _
    unfold execStreamRecordReady
    rw [hx]
    dsimp only
    rw [hnone]
    rfl
  · intro s u task x hx hsome hu
    refine ⟨{ u with readyRecs := u.readyRecs.erase x }, ?_, rfl, rfl⟩
    change execStreamRecordReady task s = _
    unfold execStreamRecordReady
    rw [hx]
    dsimp only
    rw [← Option.not_isSome, hsome, if_neg (by decide), hu]
  · rintro s u task port x p r rest addr lg pos skip rfl hx hp htodo hgrant hpath hdest hbuffer hring hperst hplace hfits
    exact exec_streamTransfer hx hp htodo hgrant hpath hdest (hostTransfer_writes hbuffer hring hperst hplace hfits)
  · intro s task port x p r hx hopen hp hr hfrom
    exact exec_recordTaken hx hopen hp hr hfrom
  · intro s slot w hw hall hheld
    exact exec_nvmeCompletion hw hall hheld
  · intro s slot w hw hheld htries
    exact exec_nvmeWriteTimeout hw hheld htries
  · intro s prp slot offset len w hw
    exact exec_apertureRead prp offset len hw
  · rintro s who tag b ht ⟨hdrives, hwrites⟩ hd hqid hsizes halign hlba hmdts hranges hapart
    exact exec_addQueue ht hdrives hwrites hd hqid hsizes halign hlba hmdts hranges hapart
  · rintro s who tag _ v ht rfl hv hany hunused
    exact exec_removeQueue ht hv hany hunused
  · rintro s who tag _ v ht rfl hv hgood hunused hmember hblocks
    exact exec_storeInit ht hv hgood hunused hmember hblocks
  · rintro s who tag _ v b last headers ht rfl hv hgood hunused hb
    exact exec_storeMount last headers ht hv hgood hunused hb

end Sys2Proof.Machine

namespace Sys2Proof.Machine

/-! ### Link ends that are fenced, and regions that are isolated: the system pages stay (R419, R586). -/

section
variable {l : Nat}

theorem not_sysReg_end {k o : Nat} (h : 0x3F0 ≤ k % 1024) (ho : o ≠ 0x100) : ¬ sysReg l k o := by
  unfold sysReg keyMOD keySEC keyFLT keyPWR keyOf
  omega

theorem modLink_steady (s : State) (key : Nat) (f : LinkEnd → LinkEnd) : Steady l (s.modLink key f) s := .of_page fun _ => rfl

theorem finishNp_steady (s : State) (key : Nat) (e : TagEntry) (status : Nat) : Steady l (s.finishNp key e status) s := by
  unfold State.finishNp
  dsimp only
  split
  · exact .of_page fun _ => rfl
  · exact modLink_steady s _ _

theorem refreshLink_steady (s : State) {key : Nat} (h : ∀ o, o ≠ 0x100 → ¬ sysReg l key o) : Steady l (s.refreshLink key) s :=
  (setReg_steady _ _ (h _ (by decide))).trans (wf_steady s Reg.BXE_TAGS.IN_FLIGHT _ (h _ (by decide)))

theorem fence_steady (s : State) {key : Nat} (h : ∀ o, o ≠ 0x100 → ¬ sysReg l key o) : Steady l (s.fence key) s := by
  unfold State.fence
  extract_lets e nps posted s1 s2
  have h2 : Steady l s2 s := (Steady.foldl (fun u e _ => finishNp_steady u key e 2) s1).trans (modLink_steady s _ _)
  exact .ite (.refl s) ((refreshLink_steady _ h).trans ((setErr_steady _ _ _).trans
    ((countBy_steady _ _ _ (h _ (by decide))).trans h2)))

theorem endKey_page (i : Nat) (hi : i < 14) : 0x3F0 ≤ endKey i % 1024 := by
  revert i
  decide

theorem regionEnds_page {r k : Nat} (h : k ∈ regionEnds r) : 0x3F0 ≤ k % 1024 := by
  obtain ⟨i, hi, rfl⟩ := List.mem_map.1 (List.mem_filter.1 h).1
  exact endKey_page i (List.mem_range.1 hi)

theorem fenceRegion_steady (s : State) (r : Nat) : Steady l (s.fenceRegion r) s :=
  .foldl (fun u _ hk => fence_steady u fun _ => not_sysReg_end (regionEnds_page hk)) s

theorem holdOutputs_steady (s : State) (r : Nat) : Steady l (s.holdOutputs r) s := by
  unfold State.holdOutputs
  extract_lets o s1 s2
  have h1 : Steady l s1 s := .ite (.of_page fun _ => rfl) (.refl s)
  have h2 : Steady l s2 s1 := by
    refine .foldl (fun u k _ => ?_) s1
    exact .ite (.of_page fun _ => rfl) (.refl u)
  exact .congr (h2.trans h1) rfl rfl

theorem askSafe_steady (s : State) (cause : Nat) : Steady l (s.askSafe cause) s := .of_page fun _ => rfl

end

/-! ### Maps of bits in a field. -/

theorem putBit_lt {w i m : Nat} (b : Bool) (hw : w < 2 ^ m) (hi : i < m) : putBit w i b < 2 ^ m := by
  unfold putBit
  rw [setBits_eq]
  have he : 2 ^ m = 2 ^ (m - 1 - i) * (2 ^ (i + 1 - i) * 2 ^ i) := by
    rw [← Nat.pow_add, ← Nat.pow_add]
    congr 1
    omega
  have hone : 2 ^ (i + 1 - i) = 2 := by rw [Nat.add_sub_cancel_left, Nat.pow_one]
  rw [he] at hw ⊢
  rw [hone] at hw ⊢
  have hn : 0 < 2 ^ i := Nat.two_pow_pos _
  have hq : w / 2 ^ i / 2 < 2 ^ (m - 1 - i) := by
    rw [Nat.div_div_eq_div_mul, Nat.div_lt_iff_lt_mul (by omega), Nat.mul_comm (2 ^ i)]
    exact hw
  have hr := Nat.mod_lt w hn
  generalize w / 2 ^ i / 2 = q at *
  have hb : (if b = true then 1 else 0) % 2 < 2 := Nat.mod_lt _ (by decide)
  generalize (if b = true then 1 else 0) % 2 = v at *
  calc (q * 2 + v) * 2 ^ i + w % 2 ^ i < (q * 2 + v + 1) * 2 ^ i := by rw [Nat.add_mul _ 1, Nat.one_mul]; omega
    _ ≤ (2 ^ (m - 1 - i) * 2) * 2 ^ i := Nat.mul_le_mul_right _ (by omega)
    _ = 2 ^ (m - 1 - i) * (2 * 2 ^ i) := Nat.mul_assoc _ _ _

theorem nbit_putBit (w i : Nat) (b : Bool) : nbit (putBit w i b) i = b := by
  have h := bitsOf_setBits w i i (if b then 1 else 0)
  unfold bitsOf at h
  rw [Nat.add_sub_cancel_left, Nat.pow_one] at h
  unfold nbit putBit
  rw [h]
  cases b <;> rfl

/-- A bit put into a map reads back. -/
theorem nbit_rf_putBit (s : State) (key : Nat) {f : RegField} {i : Nat} (b : Bool) (hh : f.hi < 32) (hi : i < f.hi + 1 - f.lo) :
    nbit ((s.wf key f (putBit (s.rf key f) i b)).rf key f) i = b := by
  have hlt : putBit (s.rf key f) i b < 2 ^ (f.hi + 1 - f.lo) := putBit_lt b (bitsOf_lt _ _ _) hi
  rw [rf_wf_same _ _ _ hh (by omega), Nat.mod_eq_of_lt hlt]
  exact nbit_putBit _ _ _

/-! ### A region that is isolated. -/

theorem Steady.isolated {l : Nat} {t s : State} (h : Steady l t s) (r : Nat) : t.isolated r = s.isolated r := by
  unfold State.isolated
  rw [h.rf (.inr (.inr (.inl ⟨rfl, rfl⟩)))]

theorem not_sysPage_keyOf (r : Nat) : ¬ sysPage 2 (keyOf (r + 1) 0) := by
  unfold sysPage keyMOD keySEC keyFLT keyPWR keyOf
  omega

/-- A region other than H is isolated; of the system pages FLT_STAT alone changes, and flags are raised. -/
theorem isolateRegion_effect (s : State) {r : Nat} (h0 : r ≠ 0) (h8 : r < 8) :
    (s.isolateRegion r).isolated r = true ∧ (∀ k o, sysReg 2 k o → k ≠ keyFLT → (s.isolateRegion r).reg k o = s.reg k o) ∧
      ∀ k i, sysPage 2 k → wbit (s.page k).err i = true → wbit ((s.isolateRegion r).page k).err i = true := by
  unfold State.isolateRegion
  extract_lets s1 s2 s3 rid s4 s5 s6
  rw [if_neg h0]
  split
  next h => exact ⟨h, fun _ _ _ _ => rfl, fun _ _ _ => id⟩
  have h1 : Steady 2 s1 s := fenceRegion_steady s r
  have h2 : s2.isolated r = true := nbit_rf_putBit s1 keyFLT true (by decide) h8
  have h3 : s3.isolated r = true := by
    unfold s3
    split
    · unfold State.isolated
      rw [rf_wf_apart (.inr (.inr (by decide)))]
      exact h2
    · exact h2
  have hflt (u : State) (f : RegField) (v : Nat) : (∀ k o, sysReg 2 k o → k ≠ keyFLT → (u.wf keyFLT f v).reg k o = u.reg k o) ∧
      Raised (u.wf keyFLT f v) u :=
    ⟨fun k o _ hk => reg_congr (State.page_modPage_other u _ hk) o, wf_raised u keyFLT f v⟩
  have hflt3 : (∀ k o, sysReg 2 k o → k ≠ keyFLT → s3.reg k o = s1.reg k o) ∧ Raised s3 s1 := by
    have hflt2 := hflt s1 Reg.FLT_STAT.ISOLATED (putBit (s1.rf keyFLT Reg.FLT_STAT.ISOLATED) r true)
    unfold s3
    split
    · have hnext := hflt s2 Reg.FLT_STAT.STATE 1
      exact ⟨fun k o hk hne => (hnext.1 k o hk hne).trans (hflt2.1 k o hk hne), hnext.2.trans hflt2.2⟩
    · exact hflt2
  have h4 : Steady 2 s4 s3 := by
    obtain ⟨q, rfl⟩ : ∃ q, r = q + 1 := ⟨r - 1, by omega⟩
    exact (irqBit_steady _ _ _).trans (enter_steady s3 _ (not_sysPage_keyOf q))
  have h5 : Steady 2 s5 s4 := (irqBit_steady _ _ _).trans (logPage_steady _ _ _ _ _ _ _)
  have h6 : Steady 2 s6 s5 := .ite (holdOutputs_steady _ _) (convFault_steady _ _)
  have hend : Steady 2 (if s6.isolated 1 = true ∧ s6.isolated 2 = true then s6.askSafe 5 else s6) s3 :=
    .trans (.ite (askSafe_steady s6 5) (.refl s6)) (h6.trans (h5.trans h4))
  refine ⟨?_, fun k o hk hne => ?_, fun k i hk hi => ?_⟩
  · exact (hend.isolated r).trans h3
  · exact (hend.reg k o hk).trans ((hflt3.1 k o hk hne).trans (h1.reg k o hk))
  · exact hend.err hk (hflt3.2.err (h1.err hk hi))


/-! ### Pages that go down, and domains that switch: below level 2 only MOD, SEC, FLT and PWR are kept. -/

/-- A page other than those of MOD, SEC, FLT and PWR. -/
def Outer (k : Nat) : Prop := k ≠ keyMOD ∧ k ≠ keySEC ∧ k ≠ keyFLT ∧ k ≠ keyPWR

theorem Outer.reg {k o : Nat} (h : Outer k) : ¬ sysReg 1 k o := by
  unfold Outer at h
  unfold sysReg
  omega

theorem Outer.page {k : Nat} (h : Outer k) : ¬ sysPage 1 k := by
  unfold Outer at h
  unfold sysPage
  omega

theorem outer_of_ge {k : Nat} (h : 8 ≤ k) : Outer k := by
  unfold Outer keyMOD keySEC keyFLT keyPWR keyOf
  omega

theorem outer_keyPHN : Outer keyPHN := by
  unfold Outer
  decide

theorem outer_keyDSP : Outer keyDSP := outer_of_ge (by decide)

theorem outer_chanKey (c : Nat) : Outer (chanKey c) := by
  apply outer_of_ge
  unfold chanKey keyOf
  split
  · omega
  · split <;> omega

theorem modPage_steady1 (s : State) {key : Nat} (f : Page → Page) (h : Outer key) : Steady 1 (s.modPage key f) s := by
  have hother {k : Nat} (hk : k ≠ key) := State.page_modPage_other s f hk
  refine ⟨fun k o hk => reg_congr (hother ?_) o, fun k hk => ⟨_, _, _, hother ?_, fun _ => id, fun _ => id⟩⟩
  · rintro rfl
    exact h.reg hk
  · rintro rfl
    exact h.page hk

theorem linkEnter_steady (s : State) {key : Nat} (m timeout : Nat) (h : Outer key) : Steady 1 (s.linkEnter key m timeout) s :=
  (modLink_steady _ _ _).trans (wf_steady s _ _ h.reg)

theorem framesStop_steady {l : Nat} (s : State) (key : Nat) : Steady l (s.framesStop key) s := by
  unfold State.framesStop
  split
  · exact .ite (convDown_steady s _ _) (.refl s)
  · exact .ite (modConv_steady s _ _) (.refl s)

theorem linkDown_steady (s : State) {key : Nat} (h : Outer key) : Steady 1 (s.linkDown key) s :=
  .ite (.refl s) ((framesStop_steady _ _).trans ((wb_steady _ _ _ h.reg).trans ((linkEnter_steady _ _ _ h).trans
    (fence_steady s fun _ _ => h.reg))))

theorem chanCancel_steady (s : State) (c : Nat) : Steady 1 (s.chanCancel c) s := by
  have h := outer_chanKey c
  have h1 : Steady 1 (s.modChan c fun _ => DmaChan.init) s := .of_page fun _ => rfl
  have h2 : Steady 1 ((s.modChan c fun _ => DmaChan.init).setShadow c none) s := (wb_steady _ _ _ h.reg).trans (.congr h1 rfl rfl)
  have h3 : Steady 1 (((s.modChan c fun _ => DmaChan.init).setShadow c none).setAct c none) s :=
    (setReg_steady _ _ h.reg).trans ((setReg_steady _ _ h.reg).trans h2)
  exact (setReg_steady _ _ h.reg).trans ((wf_steady _ _ _ h.reg).trans ((wb_steady _ _ _ h.reg).trans h3))

theorem cancelGroup_steady (s : State) (key : Nat) : Steady 1 (s.cancelGroup key) s := .foldl (fun u c _ => chanCancel_steady u c) s

theorem retire_steady (s : State) (addr : Nat) : Steady 1 (s.retire addr) s :=
  (irqBit_steady _ _ _).trans ((setReg_steady _ _ outer_keyDSP.reg).trans ((setReg_steady _ _ outer_keyDSP.reg).trans
    (setReg_steady s _ outer_keyDSP.reg)))

theorem retireAll_steady (s : State) : Steady 1 s.retireAll s := by
  unfold State.retireAll
  extract_lets s1
  have h1 : Steady 1 s1 s := by
    unfold s1
    split
    · exact .congr (retire_steady s _) rfl rfl
    · exact .refl s
  exact .congr ((Steady.foldl (fun u a _ => retire_steady u a) s1).trans h1) rfl rfl

theorem setOut_steady (s : State) (o m : Nat) : Steady 1 (s.setOut o m) s := wf_steady s _ _ outer_keyDSP.reg

theorem dspReset_steady (s : State) : Steady 1 s.dspReset s :=
  (retireAll_steady _).trans ((setOut_steady _ _ _).trans ((setOut_steady _ _ _).trans (.of_page fun _ => rfl)))

theorem refreshCmp_steady (s : State) (m : Nat) : Steady 1 (s.refreshCmp m) s := by
  have h : Outer (keyCMP m) := outer_of_ge (by unfold keyCMP keyOf; omega)
  unfold State.refreshCmp
  dsimp only
  split
  · exact setReg_steady s _ h.reg
  · exact (wf_steady _ _ _ h.reg).trans ((wf_steady _ _ _ h.reg).trans (wb_steady s _ _ h.reg))

theorem cmpDrop_steady (s : State) (m : Nat) : Steady 1 (s.cmpDrop m) s := (refreshCmp_steady _ _).trans (.of_page fun _ => rfl)

theorem closePhoin_steady (s : State) : Steady 1 s.closePhoin s :=
  .ite ((irqBit_steady _ _ _).trans ((modPhn_steady _ _).trans (wb_steady s _ _ outer_keyPHN.reg))) (.refl s)

theorem syncOff_steady (s : State) : Steady 1 s.syncOff s :=
  (wf_steady _ _ _ outer_keyPHN.reg).trans ((wb_steady _ _ _ outer_keyPHN.reg).trans (.of_page fun _ => rfl))

theorem modTrig_steady (s : State) (p : Nat) (f : Trig → Trig) : Steady 1 (s.modTrig p f) s := .of_page fun _ => rfl

theorem resetHook_steady (s : State) {key : Nat} (h : Outer key) : Steady 1 (s.resetHook key) s := by
  unfold State.resetHook
  extract_lets p r m
  split
  · exact modChain_steady s _ _
  · exact .of_page fun _ => rfl
  · exact .of_page fun _ => rfl
  · exact .of_page fun _ => rfl
  · exact .of_page fun _ => rfl
  · exact .of_page fun _ => rfl
  · have htrigs : Steady 1 (s.each (List.range 3) fun s j => s.modTrig (3 * r + j) fun t => { t with events := Trig.init.events }) s :=
      .foldl (fun u j _ => modTrig_steady u _ _) s
    exact .congr htrigs rfl rfl
  · exact .of_page fun _ => rfl
  · exact .of_page fun _ => rfl
  · exact modConv_steady s _ _
  · exact .of_page fun _ => rfl
  · exact cmpDrop_steady s _
  · exact cancelGroup_steady s _
  · exact .of_page fun _ => rfl
  · exact dspReset_steady s
  · exact linkDown_steady s h
  · exact closePhoin_steady s
  · exact .congr (syncOff_steady s) rfl rfl
  · exact .of_page fun _ => rfl
  · exact .refl s

theorem pageDown_steady (s : State) {key : Nat} (h : Outer key) : Steady 1 (s.pageDown key) s := by
  unfold State.pageDown
  extract_lets s1 s2
  have h1 : Steady 1 s1 s := .congr ((resetHook_steady _ h).trans (endOp_steady s _ _ _ h.page)) rfl rfl
  have h2 : Steady 1 s2 s := .ite ((irqBit_steady _ _ _).trans ((wb_steady _ _ _ h.reg).trans h1)) h1
  exact (enter_steady _ _ h.page).trans h2

theorem powerReset_steady (s : State) {key : Nat} (h : Outer key) : Steady 1 (s.powerReset key) s :=
  (modPage_steady1 _ _ h).trans (.congr (resetHook_steady s h) rfl rfl)

theorem outer_domainPages {d k : Nat} (hd : d < 30) (h : k ∈ domainPages d) : Outer k := by
  have hall : ∀ d < 30, ∀ k ∈ domainPages d, k = 1 ∨ k = 4 ∨ 8 ≤ k := by decide
  obtain rfl | rfl | h8 := hall d hd k h
  · exact outer_keyPHN
  · unfold Outer
    decide
  · exact outer_of_ge h8

/-! ### A fault of a page. -/

theorem faultBlock_steady {l : Nat} (s : State) {key : Nat} (bit : Nat) (h : ¬ sysPage l key) : Steady l (s.faultBlock key bit) s := by
  unfold State.faultBlock
  extract_lets s1 s2 s3
  have h1 : Steady l s1 s := setErr_steady s _ _
  have hfault : Steady l (s3.logPage key 2 codeFAULT 0 2 (s3.page key).err.toNat) s :=
    (logPage_steady _ _ _ _ _ _ _).trans ((irqBit_steady _ _ _).trans ((enter_steady _ _ h).trans ((endOp_steady _ _ _ _ h).trans h1)))
  split
  · exact hfault
  · exact hfault
  · exact hfault
  · exact hfault
  · exact h1

theorem setPoison_steady (s : State) (line : Nat) (b : Bool) : Steady 1 (s.setPoison line b) s := .of_page fun _ => rfl

theorem writeMem_steady (s : State) (a : Nat) (bs : List Byte) : Steady 1 (s.writeMem a bs) s := by
  unfold State.writeMem
  extract_lets s1 first
  exact .trans (.foldl (fun u i _ => .ite (setPoison_steady u _ _) (.refl u)) s1) (.of_page fun _ => rfl)

theorem spoilOutput_steady (s : State) (j : CmpJob) : Steady 1 (s.spoilOutput j) s := by
  unfold State.spoilOutput
  extract_lets c s1
  exact .ite (.trans (.foldl (fun u i _ => writeMem_steady u _ _) s1) (.of_page fun _ => rfl)) (.refl s)

theorem cmpAbort_steady (s : State) (m : Nat) : Steady 1 (s.cmpAbort m) s := by
  unfold State.cmpAbort
  extract_lets s1
  refine .congr (?_ : Steady 1 s1 s) rfl rfl
  unfold s1
  split
  · exact spoilOutput_steady s _
  · exact .refl s

theorem modCapture_steady (s : State) (p : Nat) (f : Capture → Capture) : Steady 1 (s.modCapture p f) s := .of_page fun _ => rfl

theorem endEpoch_steady (s : State) (p : Nat) : Steady 1 (s.endEpoch p) s := by
  unfold State.endEpoch
  extract_lets wc open_ s1 span
  exact (modCapture_steady _ _ _).trans (.ite (writeMem_steady s _ _) (.refl s))

theorem pauseEnd_steady (s : State) (p : Nat) : Steady 1 (s.pauseEnd p) s :=
  .ite ((modCapture_steady _ _ _).trans (endEpoch_steady s p)) (.refl s)

theorem capPause_steady (s : State) (p reason : Nat) : Steady 1 (s.capPause p reason) s := by
  unfold State.capPause
  extract_lets s1
  have h1 : Steady 1 s1 s := (modCapture_steady _ _ _).trans (wf_steady s _ _ (plain_keyPipe p 6 (by decide)).reg)
  exact .ite (.ite h1 ((pauseEnd_steady _ _).trans h1)) (pauseEnd_steady s p)

theorem enterFault_steady (s : State) {key : Nat} (bit : Nat) (h : Outer key) : Steady 1 (s.enterFault key bit) s := by
  unfold State.enterFault
  extract_lets was s1
  have h1 : Steady 1 s1 s := faultBlock_steady s bit h.page
  refine .ite h1 ?_
  split
  · exact (convFault_steady _ _).trans h1
  · exact (convFault_steady _ _).trans h1
  · exact (cancelGroup_steady _ _).trans h1
  · exact (cmpAbort_steady _ _).trans h1
  · exact .congr ((syncOff_steady _).trans h1) rfl rfl
  · exact .congr h1 rfl rfl
  · exact (capPause_steady _ _ _).trans h1
  · exact .congr h1 rfl rfl

end Sys2Proof.Machine

namespace Sys2Proof.Machine

/-! ### The input supply (R563, R566, R570). -/

theorem coldBase_power (s : State) : s.coldBase.power.failed = s.power.failed ∧ s.coldBase.power.thermal = s.power.thermal := by
  have hloads : ∃ t : State, s.coldBase = (t.each flashFields fun t x => t.wf x.1 x.2 (s.rf x.1 x.2)) ∧
      t.power.failed = s.power.failed ∧ t.power.thermal = s.power.thermal := ⟨_, rfl, rfl, rfl⟩
  obtain ⟨t, hload, hfailed, hthermal⟩ := hloads
  obtain ⟨-, -, hpower⟩ := flashFields_kept s t
  rw [hload, hpower]
  exact ⟨hfailed, hthermal⟩

/-- A key found in a list of keys with their values. -/
theorem mget_map_mem {α : Type} (d : Nat → α) {xs : List Nat} (f : Nat → α) {k : Nat} (h : k ∈ xs) : mget d (xs.map fun k => (k, f k)) k = f k := by
  induction xs with
  | nil => cases h
  | cons x xs ih =>
    rw [List.map_cons]
    unfold mget
    split
    · next hx => rw [hx]
    · next hx => exact ih ((List.mem_cons.1 h).resolve_left hx)

theorem keyMOD_mem_allKeys : keyMOD ∈ allKeys := by
  unfold allKeys
  rw [List.mem_filter, List.mem_range]
  decide

theorem phase_setPhase (s : State) {m : Nat} (hm : m < 16) : (s.setPhase m).phase = m :=
  (rf_wf_same s _ _ (by decide) (by decide)).trans (Nat.mod_eq_of_lt hm)

/-- A page without power. -/
def Page.switchedOff (p : Page) : Page := { p with st := .off }

/-- Registers of MOD in a table of pages that keeps them. -/
theorem rf_pagesOf (t : State) {keys : List Nat} (h : keyMOD ∈ keys) (g : Nat → Page) (hg : (g keyMOD).regs = (t.page keyMOD).regs) (f : RegField) :
    ({ t with pages := keys.map fun k => (k, g k) } : State).rf keyMOD f = t.rf keyMOD f := by
  have hpage : ({ t with pages := keys.map fun k => (k, g k) } : State).page keyMOD = g keyMOD := mget_map_mem _ g h
  exact rf_of_regs ((congrArg Page.regs hpage).trans hg) _

/-- With the module off every page is OFF, and the phase is 0. -/
theorem goOff_effect (s : State) : s.goOff.phase = 0 ∧ s.goOff.power.failed = s.power.failed ∧ s.goOff.power.thermal = s.power.thermal := by
  have hphase : (s.coldBase.setPhase 0).phase = 0 := phase_setPhase _ (by decide)
  have hpower : (s.coldBase.setPhase 0).power = s.coldBase.power := State.wf_power ..
  obtain ⟨hfailed, hthermal⟩ := coldBase_power s
  rw [← hpower] at hfailed hthermal
  unfold State.goOff
  generalize s.coldBase.setPhase 0 = t at *
  have hmem := keyMOD_mem_allKeys
  generalize allKeys = keys at *
  exact ⟨(rf_pagesOf t hmem (fun k => (t.page k).switchedOff) rfl _).trans hphase, hfailed, hthermal⟩

/-- A power failure takes the module off, with its cause noted; the key store and the fused key stay. -/
theorem powerFail_effect {s : State} (cause last : Nat) (hphase : s.phase ≠ 0) (hok : s.rb keyMOD Reg.MOD_STAT.POWER_FAIL = false) :
    (s.powerFail cause last).phase = 0 ∧ (s.powerFail cause last).power.failed = true ∧
      (s.powerFail cause last).power.thermal = decide (cause = 4) ∧ (s.powerFail cause last).keyStore = s.keyStore ∧
      (s.powerFail cause last).power.fused = s.power.fused := by
  have hkeeps := State.powerFail_keeps s cause last
  refine and_assoc.1 (and_assoc.1 ⟨?_, hkeeps.keys rfl, hkeeps.fused⟩)
  unfold State.powerFail
  extract_lets s1 s2 s3 s4
  rw [if_neg]
  · obtain ⟨hoff, hfailed, hthermal⟩ := goOff_effect (s4.modPower fun p => { p with failed := true, thermal := decide (cause = 4) })
    exact ⟨⟨hoff, hfailed⟩, hthermal⟩
  · rintro (h | h)
    · exact hphase h
    · rw [hok] at h
      exact Bool.false_ne_true h

theorem exec_vinStart {s : State} (hphase : s.phase = 0) (hcool : s.power.thermal = false) :
    ∃ t, exec .vinStart s = .next t ∧ t.phase = 1 ∧ t.rf keyMOD Reg.MOD_STAT.LAST_RESET = (if s.power.failed then 3 else 0) ∧
      t.power.failed = false ∧ t.keyStore = s.keyStore := by
  obtain ⟨hstep, hlast⟩ := coldStart_step (s.setPhase 1) (if s.power.failed then 3 else 0)
  obtain ⟨hkeys, -, -⟩ := coldStart_kept (s.setPhase 1) (if s.power.failed then 3 else 0)
  refine ⟨_, congrArg Host.Outcome.next (if_pos ⟨hphase, by rw [hcool]; rfl⟩), hstep, hlast.trans ?_, rfl, hkeys⟩
  cases s.power.failed <;> rfl

/-! ### Domains that switch (R559-R561). -/

section
variable {s : State} {d : Nat}

/-- Of the registers of PWR a domain's switch changes its bit and the count. -/
theorem switchDomain_effect (s : State) (hd : d < 30) (on : Bool) :
    (s.switchDomain d on).domainOn d = on ∧
      (s.switchDomain d on).rf keyPWR Reg.PWR_SWITCHES = satInc 0xFFFFFFFF (s.rf keyPWR Reg.PWR_SWITCHES) ∧
      (s.switchDomain d on).rf keyPWR Reg.PWR_TRIPPED.MAP = s.rf keyPWR Reg.PWR_TRIPPED.MAP := by
  have hcount : (s.domainBit d on).rf keyPWR Reg.PWR_SWITCHES = s.rf keyPWR Reg.PWR_SWITCHES := rf_wf_apart (by decide) _ _
  refine ⟨?_, ?_, ?_⟩
  · unfold State.domainOn State.switchDomain State.count
    rw [rf_wf_apart (by decide)]
    exact nbit_rf_putBit s keyPWR on (by decide) hd
  · unfold State.switchDomain State.count
    rw [rf_wf_same _ _ _ (by decide) (by decide), hcount]
    have hlt : s.rf keyPWR Reg.PWR_SWITCHES < 2 ^ 32 := bitsOf_lt _ _ _
    refine Nat.mod_eq_of_lt (b := 2 ^ 32) ?_
    unfold satInc
    split
    next h => exact Nat.lt_of_le_of_lt h (by decide)
    next => exact hlt
  · unfold State.switchDomain State.count
    rw [rf_wf_apart (by decide)]
    exact rf_wf_apart (by decide) _ _

theorem sysReg_keyPWR (o : Nat) : sysReg 1 keyPWR o := .inr (.inr (.inr (.inl ⟨le_refl 1, rfl⟩)))

/-- A domain that is on goes down: its pages first, then its bit. -/
theorem domainDown_effect (hd : d < 30) (hon : s.domainOn d = true) :
    ∃ u, s.domainDown d = u.switchDomain d false ∧ Steady 1 u s :=
  ⟨_, if_pos hon, .foldl (fun v _ hk => pageDown_steady v (outer_domainPages hd hk)) s⟩

theorem exec_domainOffTimer {domain : Fin 30} (hready : s.ready = true) (hon : s.domainOn domain = true)
    (hneed : s.domainNeeded domain = false) :
    ∃ t, exec (.domainOffTimer domain) s = .next t ∧ t.domainOn domain = false ∧
      t.rf keyPWR Reg.PWR_SWITCHES = satInc 0xFFFFFFFF (s.rf keyPWR Reg.PWR_SWITCHES) := by
  refine ⟨s.domainDown domain, congrArg Host.Outcome.next (if_pos ⟨hready, hon, by rw [hneed]; rfl⟩), ?_⟩
  obtain ⟨u, hdown, hu⟩ := domainDown_effect domain.isLt hon
  obtain ⟨hoff, hcount, -⟩ := switchDomain_effect u domain.isLt false
  rw [hdown]
  exact ⟨hoff, hcount.trans (by rw [hu.rf (sysReg_keyPWR _)])⟩

theorem exec_domainOnDone {domain : Fin 30} (hready : s.ready = true) (hoff : s.domainOn domain = false)
    (hneed : s.domainNeeded domain = true) (htrip : nbit (s.rf keyPWR Reg.PWR_TRIPPED.MAP) domain = false) :
    ∃ t, exec (.domainOnDone domain) s = .next t ∧ t.domainOn domain = true := by
  refine ⟨s.domainUp domain, congrArg Host.Outcome.next (if_pos ⟨hready, hneed, by rw [htrip]; rfl⟩), ?_⟩
  unfold State.domainUp
  rw [hoff, if_neg (by decide)]
  exact (switchDomain_effect _ domain.isLt true).1

/-- A domain that trips: its pages are in FAULT and down, its bit is cleared, and the trip is shown. -/
theorem tripped_effect (hd : d < 30) (hon : s.domainOn d = true) :
    let u := (((s.wf keyPWR Reg.PWR_TRIPPED.MAP (putBit (s.rf keyPWR Reg.PWR_TRIPPED.MAP) d true)).setErr keyPWR 16).logPower 0 d).each
      (domainPages d) fun s k => s.enterFault k (cellBit (blockOf k))
    (u.domainDown d).domainOn d = false ∧ nbit ((u.domainDown d).rf keyPWR Reg.PWR_TRIPPED.MAP) d = true ∧
      wbit ((u.domainDown d).page keyPWR).err 16 = true := by
  extract_lets u
  let s1 := s.wf keyPWR Reg.PWR_TRIPPED.MAP (putBit (s.rf keyPWR Reg.PWR_TRIPPED.MAP) d true)
  have hpage : sysPage 1 keyPWR := .inr (.inr (.inr (.inl ⟨le_refl 1, rfl⟩)))
  have hu : Steady 1 u (s1.setErr keyPWR 16) :=
    .trans (.foldl (fun v _ hk => enterFault_steady v _ (outer_domainPages hd hk)) _) (logPage_steady _ _ _ _ _ _ _)
  have hregs {f : RegField} : u.rf keyPWR f = s1.rf keyPWR f := (hu.trans (setErr_steady s1 _ _)).rf (sysReg_keyPWR _)
  have honu : u.domainOn d = true := by
    unfold State.domainOn at hon ⊢
    rw [hregs, rf_wf_apart (by decide)]
    exact hon
  obtain ⟨v, hdown, hv⟩ := domainDown_effect hd honu
  obtain ⟨hoff, -, htrips⟩ := switchDomain_effect v hd false
  rw [hdown]
  refine ⟨hoff, ?_, ?_⟩
  · rw [htrips, hv.rf (sysReg_keyPWR _), hregs]
    exact nbit_rf_putBit s keyPWR true (by decide) hd
  · exact ((count_raised _ _ _).trans (wf_raised v _ _ _)).err (hv.err hpage (hu.err hpage (wbit_setErr s1 keyPWR (by decide))))

theorem exec_domainTrip {domain : Fin 30} (hon : s.domainOn domain = true) :
    ∃ t, exec (.domainTrip domain) s = .next t ∧ t.domainOn domain = false ∧ nbit (t.rf keyPWR Reg.PWR_TRIPPED.MAP) domain = true ∧
      wbit (t.page keyPWR).err 16 = true ∧ (domain.val < 10 → t.isolated (3 + domain.val % 5) = true) := by
  obtain ⟨hoff, htrip, herr⟩ := tripped_effect domain.isLt hon
  change ∃ t, execDomainTrip domain s = .next t ∧ _
  unfold execDomainTrip
  extract_lets d s1 s2 s3 s4
  have hd := domain.isLt
  rw [if_neg (by rw [hon]; decide)]
  split
  next hregion =>
    have h0 : domainRegion d ≠ 0 ∧ domainRegion d < 8 := by
      unfold domainRegion
      split
      · omega
      · split
        · decide
        · split
          · decide
          · split
            · omega
            · omega
    obtain ⟨hisolated, hregs, herrs⟩ := isolateRegion_effect s4 h0.1 h0.2
    have hreg : (s4.isolateRegion (domainRegion d)).reg keyPWR = s4.reg keyPWR :=
      funext fun o => hregs keyPWR o (.inr (.inr (.inr (.inl ⟨by decide, rfl⟩)))) (by decide)
    refine ⟨_, rfl, ?_, ?_, herrs keyPWR 16 (.inr (.inr (.inr (.inl ⟨by decide, rfl⟩)))) herr, fun hlow => ?_⟩
    · unfold State.domainOn State.rf at hoff ⊢
      rw [hreg]
      exact hoff
    · unfold State.rf at htrip ⊢
      rw [hreg]
      exact htrip
    · have hr : domainRegion d = 3 + d % 5 := if_pos hlow
      rw [hr] at hisolated ⊢
      exact hisolated
  next hregion =>
    have hhigh : ¬ domain.val < 10 := fun h => hregion (.inl h)
    split
    · exact ⟨_, rfl, hoff, htrip, herr, fun h => absurd h hhigh⟩
    · exact ⟨_, rfl, hoff, htrip, herr, fun h => absurd h hhigh⟩

end

/-! ### Start-up and the supply's readings (R562, R564). -/

theorem rb_irqBit (s : State) (key i j : Nat) (f : RegField) : (s.irqBit key i).rb j f = s.rb j f := by
  unfold State.rb
  rw [rf_irqBit]

theorem exec_startupStep_one {s : State} {maddr : Fin 8} (hsafe : s.isSafe = false) (hrec : s.inRecovery = false) (hphase : s.phase = 1)
    (hporst : s.power.porst = false) : ∃ t, exec (.startupStep maddr) s = .next t ∧ t.phase = 2 ∧ t.power.maddr = maddr := by
  change ∃ t, execStartupStep maddr s = .next t ∧ _
  unfold execStartupStep
  rw [hsafe, hrec, if_neg (by decide), hphase, hporst]
  exact ⟨_, rfl, phase_setPhase _ (by decide), congrArg Power.maddr (State.wf_power ..)⟩

theorem becomeReady_effect (s : State) : s.becomeReady.ready = true ∧ wbit (s.becomeReady.page keyMOD).irq 16 = true := by
  unfold State.becomeReady State.ready
  extract_lets s1
  refine ⟨?_, wbit_irq_irqBit _ _ (by decide)⟩
  rw [rb_irqBit]
  refine (rb_wb_apart (by decide) _ _).trans (rb_wb_same _ _ _ (by decide) (by decide))

theorem exec_startupStep_ten {s : State} {maddr : Fin 8} (hsafe : s.isSafe = false) (hrec : s.inRecovery = false) (hphase : s.phase = 10) :
    ∃ t, exec (.startupStep maddr) s = .next t ∧ t.phase = 11 ∧ t.ready = true ∧ wbit (t.page keyMOD).irq 16 = true := by
  obtain ⟨hready, hirq⟩ := becomeReady_effect s
  change ∃ t, execStartupStep maddr s = .next t ∧ _
  unfold execStartupStep
  rw [hsafe, hrec, if_neg (by decide), hphase]
  refine ⟨_, rfl, phase_setPhase _ (by decide), ?_, (wf_raised _ _ _ _).irq hirq⟩
  unfold State.setPhase State.ready
  rw [rb_wf_apart (by decide)]
  exact hready

theorem exec_startupTimeout {s : State} {region : Fin 8} (hphase : 1 ≤ s.phase ∧ s.phase < 10) (hrec : s.inRecovery = false) (hr : region ≠ 0) :
    ∃ t, exec (.startupTimeout region) s = .next t ∧ t.isolated region = true ∧ t.rb keyMOD Reg.MOD_STAT.DEGRADED = true := by
  have h0 : region.val ≠ 0 := fun h => hr (Fin.ext h)
  obtain ⟨hisolated, -, -⟩ := isolateRegion_effect s h0 region.isLt
  have hgo : ¬(s.phase = 0 ∨ 10 ≤ s.phase ∨ s.inRecovery = true) := by
    rw [hrec]
    rintro (h | h | h)
    · omega
    · omega
    · exact Bool.false_ne_true h
  refine ⟨_, (if_neg hgo).trans (if_neg hr), ?_, rb_wb_same _ _ _ (by decide) (by decide)⟩
  unfold State.isolated at hisolated ⊢
  rw [rf_wb_apart (by decide)]
  exact hisolated

theorem exec_startupTimeout_hub {s : State} (hphase : 1 ≤ s.phase ∧ s.phase < 10) (hrec : s.inRecovery = false) (hnone : s.safeReq = none) :
    ∃ t, exec (.startupTimeout 0) s = .next t ∧ t.safeReq = some 1 := by
  have hgo : ¬(s.phase = 0 ∨ 10 ≤ s.phase ∨ s.inRecovery = true) := by
    rw [hrec]
    rintro (h | h | h)
    · omega
    · omega
    · exact Bool.false_ne_true h
  refine ⟨_, (if_neg hgo).trans (if_pos rfl), ?_⟩
  unfold State.askSafe
  rw [hnone]
  rfl

/-- An error that is set leaves the other errors of its page. -/
theorem wbit_or_word_other (w : Word) {i j : Nat} (hi : i < 32) (h : j ≠ i) : wbit (w ||| word (2 ^ i)) j = wbit w j := by
  have hlt : 2 ^ i < 2 ^ 32 := Nat.pow_lt_pow_right (by decide) hi
  have hbit : (w.toNat ||| 2 ^ i).testBit j = w.toNat.testBit j := by
    rw [Nat.testBit_or, Nat.testBit_two_pow_of_ne h.symm, Bool.or_false]
  rw [Nat.testBit_eq_decide_div_mod_eq, Nat.testBit_eq_decide_div_mod_eq] at hbit
  unfold wbit nbit word
  rw [BitVec.toNat_or, BitVec.toNat_ofNat, Nat.mod_eq_of_lt hlt]
  exact hbit

theorem wbit_setErr_other (s : State) {key bit i : Nat} (hkey : key ≠ keyFLT) (hbit : bit < 32) (h : i ≠ bit) :
    wbit ((s.setErr key bit).page key).err i = wbit (s.page key).err i := by
  unfold State.setErr
  split
  · rfl
  · obtain ⟨irq, hpage⟩ := page_setErrFlag s key bit
    rw [page_logPage _ _ _ _ _ _ _ hkey, hpage]
    exact wbit_or_word_other _ hbit h

theorem wbit_setErr_if (s : State) {key bit : Nat} (hbit : bit < 32) (c : Prop) [Decidable c] :
    wbit ((if c then s.setErr key bit else s).page key).err bit = (wbit (s.page key).err bit || decide c) := by
  by_cases hc : c
  · rw [if_pos hc, wbit_setErr s key hbit, decide_eq_true hc, Bool.or_true]
  · rw [if_neg hc, decide_eq_false hc, Bool.or_false]

theorem wbit_setErr_if_other (s : State) {key bit i : Nat} (hkey : key ≠ keyFLT) (hbit : bit < 32) (h : i ≠ bit) (c : Prop) [Decidable c] :
    wbit ((if c then s.setErr key bit else s).page key).err i = wbit (s.page key).err i := by
  by_cases hc : c
  · rw [if_pos hc, wbit_setErr_other s hkey hbit h]
  · rw [if_neg hc]

theorem reg_setErr_if (s : State) {key bit : Nat} (hkey : key ≠ keyFLT) (c : Prop) [Decidable c] (f : RegField) :
    (if c then s.setErr key bit else s).rf key f = s.rf key f := by
  split
  · unfold State.rf
    rw [reg_setErr (hkey := hkey)]
  · rfl

theorem err_wf (s : State) (key : Nat) (f : RegField) (v : Nat) : ((s.wf key f v).page key).err = (s.page key).err := by
  unfold State.wf State.setReg
  rw [State.page_modPage]

theorem exec_pwrVinRefresh {s : State} {vin current power peak : BitVec 16} (hmgmt : s.power.mgmtUntil ≤ s.six) :
    ∃ t, exec (.pwrVinRefresh vin current power peak) s = .next t ∧ t.rf keyPWR Reg.PWR_VIN.LO = vin.toNat ∧
      t.rf keyPWR Reg.PWR_VIN.HI = current.toNat ∧ t.rf keyPWR Reg.PWR_PIN.LO = power.toNat ∧ t.rf keyPWR Reg.PWR_PIN.HI = peak.toNat ∧
      wbit (t.page keyPWR).err 17 = (wbit (s.page keyPWR).err 17 || decide (3400 ≤ vin.toNat ∧ vin.toNat < 3600)) ∧
      wbit (t.page keyPWR).err 18 = (wbit (s.page keyPWR).err 18 || decide (7500 < vin.toNat)) := by
  have hflt : keyPWR ≠ keyFLT := by decide
  change ∃ t, execPwrVinRefresh vin current power peak s = .next t ∧ _
  unfold execPwrVinRefresh
  rw [if_neg (Nat.not_lt.2 hmgmt)]
  extract_lets v s1 s2 s3
  have herr : (s2.page keyPWR).err = (s.page keyPWR).err :=
    (err_wf _ _ _ _).trans ((err_wf _ _ _ _).trans ((err_wf _ _ _ _).trans (err_wf _ _ _ _)))
  have hregs (f : RegField) : (if 7500 < v then s3.setErr keyPWR 18 else s3).rf keyPWR f = s2.rf keyPWR f :=
    (reg_setErr_if s3 hflt _ f).trans (reg_setErr_if s2 hflt _ f)
  have hvin : s2.rf keyPWR Reg.PWR_VIN.LO = vin.toNat ∧ s2.rf keyPWR Reg.PWR_VIN.HI = current.toNat := by
    refine ⟨(rf_wf_apart (by decide) _ _).trans ((rf_wf_apart (by decide) _ _).trans ((rf_wf_apart (by decide) _ _).trans
      (rf_wf_same _ _ _ (by decide) (by decide)))) |>.trans (Nat.mod_eq_of_lt vin.isLt), ?_⟩
    exact ((rf_wf_apart (by decide) _ _).trans ((rf_wf_apart (by decide) _ _).trans
      (rf_wf_same _ _ _ (by decide) (by decide)))).trans (Nat.mod_eq_of_lt current.isLt)
  have hpin : s2.rf keyPWR Reg.PWR_PIN.LO = power.toNat ∧ s2.rf keyPWR Reg.PWR_PIN.HI = peak.toNat :=
    ⟨((rf_wf_apart (by decide) _ _).trans (rf_wf_same _ _ _ (by decide) (by decide))).trans (Nat.mod_eq_of_lt power.isLt),
      (rf_wf_same _ _ _ (by decide) (by decide)).trans (Nat.mod_eq_of_lt peak.isLt)⟩
  refine ⟨_, rfl, (hregs _).trans hvin.1, (hregs _).trans hvin.2, (hregs _).trans hpin.1, (hregs _).trans hpin.2, ?_, ?_⟩
  · rw [wbit_setErr_if_other s3 hflt (by decide) (by decide), wbit_setErr_if s2 (by decide), herr]
  · rw [wbit_setErr_if s3 (by decide), wbit_setErr_if_other s2 hflt (by decide) (by decide), herr]

/-- Settles O32. -/
theorem supplyCommandsTakeEffect : Obligations.SupplyCommandsTakeEffect := by
  unfold Obligations.SupplyCommandsTakeEffect
  refine ⟨?_, ?_, ?_, ?_, ?_, ?_, ?_, ?_, ?_, ?_, ?_, ?_, ?_, ?_, ?_⟩
  · intro s hphase hcool
    exact exec_vinStart hphase hcool
  · intro s hphase hhot
    exact ⟨s, congrArg Host.Outcome.next (if_neg fun h => by rw [hhot] at h; exact Bool.false_ne_true h.2), rfl⟩
  · intro s last hphase
    exact ⟨_, congrArg Host.Outcome.next (if_pos hphase), rfl, hphase⟩
  · intro s last hphase hok
    exact ⟨_, congrArg Host.Outcome.next (if_neg hphase), powerFail_effect 2 last hphase hok⟩
  · intro s last hphase hok
    exact ⟨_, rfl, powerFail_effect 3 last hphase hok⟩
  · intro s last hphase hok
    exact ⟨_, rfl, powerFail_effect 1 last hphase hok⟩
  · intro s last hphase hok
    exact ⟨_, rfl, powerFail_effect 4 last hphase hok⟩
  · intro s domain hready hon hneed
    exact exec_domainOffTimer hready hon hneed
  · intro s domain hready hoff hneed htrip
    exact exec_domainOnDone hready hoff hneed htrip
  · intro s domain hon
    exact exec_domainTrip hon
  · intro s maddr hsafe hrec hphase hporst
    exact exec_startupStep_one hsafe hrec hphase hporst
  · intro s maddr hsafe hrec hphase
    exact exec_startupStep_ten hsafe hrec hphase
  · intro s region hphase hrec hr
    exact exec_startupTimeout hphase hrec hr
  · intro s hphase hrec hnone
    exact exec_startupTimeout_hub hphase hrec hnone
  · intro s vin current power peak hmgmt
    exact exec_pwrVinRefresh hmgmt

end Sys2Proof.Machine

namespace Sys2Proof.Machine

/-! ### The states of a link end (R391-R396). -/

theorem farEnd_ne (port : Fin 14) : farEnd (endKey port) ≠ endKey port := by
  revert port
  decide

theorem linkState_linkEnter_same (s : State) (key timeout : Nat) {m : Nat} (hm : m < 16) : (s.linkEnter key m timeout).linkState key = m :=
  (rf_wf_same s _ _ (by decide) (by decide)).trans (Nat.mod_eq_of_lt hm)

theorem linkState_linkEnter_other (s : State) {key k : Nat} (m timeout : Nat) (h : k ≠ key) :
    (s.linkEnter key m timeout).linkState k = s.linkState k := rf_wf_apart (.inl h.symm) s _

theorem linkState_modLink (s : State) (key k : Nat) (f : LinkEnd → LinkEnd) : (s.modLink key f).linkState k = s.linkState k := rfl

theorem linkState_of_regs {t s : State} {k : Nat} (h : (t.page k).regs = (s.page k).regs) : t.linkState k = s.linkState k := rf_of_regs h _

theorem link_modLink_same (s : State) (key : Nat) (f : LinkEnd → LinkEnd) : (s.modLink key f).link key = f (s.link key) := mget_mput_same _ _ _ _

theorem link_modLink_other (s : State) {key k : Nat} (f : LinkEnd → LinkEnd) (h : k ≠ key) : (s.modLink key f).link k = s.link k :=
  mget_mput_other _ _ _ h

theorem link_of_quiet {t s : State} (h : Quiet t s) (k : Nat) : t.link k = s.link k := h.get (·.link k)

theorem link_linkEnter_other (s : State) {key k : Nat} (m timeout : Nat) (h : k ≠ key) : (s.linkEnter key m timeout).link k = s.link k :=
  (link_modLink_other _ _ h).trans (link_of_quiet (setReg_quiet s _ _ _) k)

/-- A link end that enters a state changes its timeout alone. -/
theorem link_linkEnter_same (s : State) (key m timeout : Nat) :
    (s.linkEnter key m timeout).link key = { s.link key with deadline := s.six + timeout } :=
  link_modLink_same (s.wf key Reg.BXE_STAT.LINK_STATE m) key fun l => { l with deadline := s.six + timeout }

theorem reg_linkEnter_other (s : State) (key m timeout : Nat) {off : Nat} (h : off ≠ 0x100) :
    (s.linkEnter key m timeout).reg key off = s.reg key off := by
  change (s.wf key Reg.BXE_STAT.LINK_STATE m).reg key off = _
  exact reg_wf_other s key _ m h

/-! ### A link end becomes ACTIVE. -/

theorem linkState_doneOp (s : State) (key k : Nat) : (s.doneOp key).linkState k = s.linkState k := linkState_of_regs (regs_endOp ..)

theorem linkActive_effect (s : State) (key : Nat) :
    (s.linkActive key).linkState key = linkACTIVE ∧ (∀ k, k ≠ key → (s.linkActive key).linkState k = s.linkState k) ∧
      (∀ k, k ≠ key → (s.linkActive key).link k = s.link k) ∧
      (s.linkActive key).link key = { s.link key with deadline := s.six, flitAt := s.six, ackAt := s.six } := by
  let u := (s.linkEnter key linkACTIVE 0).modLink key fun l => { l with flitAt := s.six, ackAt := s.six }
  have hu : u.linkState key = linkACTIVE ∧ (∀ k, k ≠ key → u.linkState k = s.linkState k) ∧ (∀ k, k ≠ key → u.link k = s.link k) ∧
      u.link key = { s.link key with deadline := s.six, flitAt := s.six, ackAt := s.six } := by
    refine ⟨linkState_linkEnter_same s key 0 (by decide), fun k hk => linkState_linkEnter_other s linkACTIVE 0 hk, fun k hk => ?_, ?_⟩
    · exact (link_modLink_other _ _ hk).trans (link_linkEnter_other s _ _ hk)
    · refine (link_modLink_same _ _ _).trans ?_
      rw [link_linkEnter_same]
      rfl
  have hdone : (u.doneOp key).linkState key = linkACTIVE ∧ (∀ k, k ≠ key → (u.doneOp key).linkState k = s.linkState k) ∧
      (∀ k, k ≠ key → (u.doneOp key).link k = s.link k) ∧
      (u.doneOp key).link key = { s.link key with deadline := s.six, flitAt := s.six, ackAt := s.six } := by
    obtain ⟨hstate, hstates, hlinks, hlink⟩ := hu
    refine ⟨(linkState_doneOp ..).trans hstate, fun k hk => (linkState_doneOp ..).trans (hstates k hk), fun k hk => ?_, ?_⟩
    · exact (link_of_quiet (doneOp_quiet u key) k).trans (hlinks k hk)
    · exact (link_of_quiet (doneOp_quiet u key) key).trans hlink
  have hactive : s.linkActive key = u ∨ s.linkActive key = u.doneOp key := by
    unfold State.linkActive
    extract_lets
    split
    · split
      · exact .inr rfl
      · exact .inl rfl
    · exact .inl rfl
  obtain h | h := hactive
  · rw [h]
    exact hu
  · rw [h]
    exact hdone

/-! ### A link end that fails. -/

theorem endKeys_page (port : Fin 14) : 0x3F0 ≤ endKey port % 1024 ∧ 0x3F0 ≤ farEnd (endKey port) % 1024 := by
  revert port
  decide

theorem not_sysPage_end {k l : Nat} (h : 0x3F0 ≤ k % 1024) : ¬ sysPage l k := by
  unfold sysPage keyMOD keySEC keyFLT keyPWR keyOf
  omega

theorem sysReg_end {k : Nat} (h : 0x3F0 ≤ k % 1024) : sysReg 2 k 0x100 := .inr (.inr (.inr (.inr (.inr ⟨le_refl 2, h, rfl⟩))))

theorem Steady.linkState {t s : State} (h : Steady 2 t s) {k : Nat} (hk : 0x3F0 ≤ k % 1024) : t.linkState k = s.linkState k := h.rf (sysReg_end hk)

/-- A link end that fails is in FAULT, and the others are as they were. -/
theorem linkFaultEnd_effect (s : State) {key : Nat} (h : 0x3F0 ≤ key % 1024) :
    (s.linkFaultEnd key).linkState key = linkFAULT ∧
      ∀ k, 0x3F0 ≤ k % 1024 → k ≠ key → (s.linkFaultEnd key).linkState k = s.linkState k := by
  unfold State.linkFaultEnd
  split
  next hfault => exact ⟨hfault, fun _ _ _ => rfl⟩
  next =>
    extract_lets op s1
    have h1 (k : Nat) : s1.linkState k = s.linkState k := by
      unfold s1
      cases op with
      | none => rfl
      | some o =>
        dsimp only
        split
        · exact linkState_of_regs (regs_endOp ..)
        · rfl
    have htail (u : State) : Steady 2 (((u.faultBlock key 21).fence key).framesStop key) u :=
      (framesStop_steady _ _).trans ((fence_steady _ fun _ => not_sysReg_end h).trans (faultBlock_steady u 21 (not_sysPage_end h)))
    refine ⟨((htail _).linkState h).trans (linkState_linkEnter_same s1 key 0 (by decide)), fun k hk hne => ?_⟩
    exact ((htail _).linkState hk).trans ((linkState_linkEnter_other s1 linkFAULT 0 hne).trans (h1 k))

theorem linkFault_effect (s : State) {key : Nat} (h : 0x3F0 ≤ key % 1024) (hfar : 0x3F0 ≤ farEnd key % 1024) (hne : farEnd key ≠ key) :
    (s.linkFault key).linkState key = linkFAULT :=
  ((linkFaultEnd_effect _ hfar).2 key h hne.symm).trans (linkFaultEnd_effect s h).1

/-! ### The commands of a link end. -/

section
variable {s : State} {port : Fin 14}

theorem exec_linkPowerOn (hst : (s.page (endKey port)).st ≠ .off ∧ (s.page (farEnd (endKey port))).st ≠ .off)
    (hen : (s.page (endKey port)).enable = true ∧ (s.page (farEnd (endKey port))).enable = true)
    (hdown : s.linkState (endKey port) = linkDOWN ∧ s.linkState (farEnd (endKey port)) = linkDOWN) :
    ∃ t, exec (.linkPowerOn port) s = .next t ∧ t.linkState (endKey port) = linkSB_INIT ∧ t.linkState (farEnd (endKey port)) = linkSB_INIT := by
  change ∃ t, execLinkPowerOn port s = .next t ∧ _
  unfold execLinkPowerOn
  extract_lets key far up
  have hup : (up key && up far && decide (s.linkState key = linkDOWN) && decide (s.linkState far = linkDOWN)) = true := by
    have h1 : up key = true := by
      unfold up
      rw [hen.1, decide_eq_true hst.1]
      rfl
    have h2 : up far = true := by
      unfold up
      rw [hen.2, decide_eq_true hst.2]
      rfl
    rw [h1, h2, decide_eq_true hdown.1, decide_eq_true hdown.2]
    rfl
  rw [if_pos hup]
  refine ⟨_, rfl, ?_, linkState_linkEnter_same _ _ _ (by decide)⟩
  exact (linkState_linkEnter_other _ _ _ (farEnd_ne port).symm).trans (linkState_linkEnter_same _ _ _ (by decide))

theorem exec_sidebandInitDone (h : s.linkState (endKey port) = linkSB_INIT) :
    ∃ t, exec (.sidebandInitDone port) s = .next t ∧ t.linkState (endKey port) = linkMB_INIT :=
  ⟨_, congrArg Host.Outcome.next (if_pos h), linkState_linkEnter_same _ _ _ (by decide)⟩

theorem exec_mbInitDone (h : s.linkState (endKey port) = linkMB_INIT) :
    ∃ t, exec (.mbInitDone port []) s = .next t ∧ t.linkState (endKey port) = linkMB_TRAIN :=
  ⟨_, if_pos h, linkState_linkEnter_same _ _ _ (by decide)⟩

theorem exec_mbTrainDone (h : s.linkState (endKey port) = linkMB_TRAIN) :
    ∃ t, exec (.mbTrainDone port) s = .next t ∧ t.linkState (endKey port) = linkLINK_INIT ∧ (t.link (endKey port)).tseq = 0 ∧
      (t.link (endKey port)).accepted = 0 ∧ t.reg (endKey port) Reg.BXE_SLOT.off = 0 := by
  change ∃ t, execMbTrainDone port s = .next t ∧ _
  unfold execMbTrainDone
  extract_lets key src s1 s2
  rw [if_pos h]
  have h1 := link_modLink_same s key fun l =>
    { LinkEnd.init with token := l.token, retrains := l.retrains, tags := l.tags.filter (·.quarantined), paramLeft := 16,
                        flitAt := s.six, ackAt := s.six }
  have hlink : (s2.linkEnter key linkLINK_INIT sixPerMs).link key = { s1.link key with deadline := s2.six + sixPerMs } :=
    link_linkEnter_same s2 key _ _
  refine ⟨_, rfl, linkState_linkEnter_same _ _ _ (by decide), ?_, ?_, ?_⟩
  · exact (congrArg LinkEnd.tseq hlink).trans (congrArg LinkEnd.tseq h1)
  · exact (congrArg LinkEnd.accepted hlink).trans (congrArg LinkEnd.accepted h1)
  · unfold s2
    refine (reg_linkEnter_other _ _ _ _ (by decide)).trans ?_
    refine (reg_setReg_other _ key _ (by decide)).trans ((reg_wf_other _ key Reg.BXE_TAGS.IN_FLIGHT (off' := Reg.BXE_SLOT.off)
        _ (by decide)).trans ?_)
    exact State.reg_setReg ..

/-- Training that ends keeps what the partner has told of its link. -/
theorem linkInitDone_link {α : Type} (s : State) (key : Nat) (f : LinkEnd → α)
    (h : ∀ (l : LinkEnd) (d a b : Nat) (x : List (List Byte)) (n : Nat),
      f { l with deadline := d } = f l ∧ f { l with deadline := d, flitAt := a, ackAt := b } = f l ∧ f { l with lnk := x, smpTx := n, smp :=
          [] } = f l) :
    f ((s.linkInitDone key).link key) = f (s.link key) := by
  unfold State.linkInitDone
  extract_lets l mine
  split
  · unfold State.linkAlign
    split
    · extract_lets s1
      have h1 : f (s1.link key) = f (s.link key) := (congrArg f (link_linkEnter_same s key linkALIGN sixPerMs)).trans (h _ _ 0 0 [] 0).1
      split
      · exact (congrArg f (link_modLink_same s1 key _)).trans ((h _ 0 0 0 _ 0).2.2.trans h1)
      · exact h1
    · exact (congrArg f (linkActive_effect s key).2.2.2).trans (h _ _ _ _ [] 0).2.1
  · rfl

theorem exec_paramReceive {b : List Byte} (hstate : s.linkState (endKey port) = linkLINK_INIT) (hparam : (s.link (endKey port)).paramOk = false)
    (hfind : (s.link (endKey port)).lnkIn.find? (fun b => decide (byteAt b 0 = 2)) = some b) (hgood : paramGood (endKey port) b = true) :
    ∃ t, exec (.paramReceive port) s = .next t ∧ (t.link (endKey port)).paramOk = true ∧
      (t.link (endKey port)).advert = [u16At b 6, u16At b 8, u16At b 10] := by
  change ∃ t, execParamReceive port s = .next t ∧ _
  unfold execParamReceive
  extract_lets key l
  rw [hfind]
  dsimp -zeta only
  extract_lets s1 s2 s3
  have hgo : ¬(s1.linkState key ≠ linkLINK_INIT ∨ l.paramOk = true) := by
    rw [not_or, not_not]
    exact ⟨hstate, by rw [hparam]; decide⟩
  rw [if_neg hgo, if_neg (by rw [hgood]; decide)]
  have h2 := link_modLink_same s1 key fun l => { l with paramOk := true, advert := [u16At b 6, u16At b 8, u16At b 10] }
  have hquiet : Quiet (s3.refreshLink key) s2 := (setReg_quiet _ _ _ _).trans ((setReg_quiet _ _ _ _).trans (setReg_quiet s2 _ _ _))
  have hlink : (s3.refreshLink key).link key = s2.link key := link_of_quiet hquiet key
  refine ⟨_, rfl, ?_, ?_⟩
  · exact (linkInitDone_link _ key LinkEnd.paramOk fun _ _ _ _ _ _ => ⟨rfl, rfl, rfl⟩).trans
      ((congrArg LinkEnd.paramOk hlink).trans (congrArg LinkEnd.paramOk h2))
  · exact (linkInitDone_link _ key LinkEnd.advert fun _ _ _ _ _ _ => ⟨rfl, rfl, rfl⟩).trans
      ((congrArg LinkEnd.advert hlink).trans (congrArg LinkEnd.advert h2))

/-- The first frame after alignment changes its converter alone. -/
theorem frameAligned_effect (s : State) (c first k : Nat) (hk : 0x3F0 ≤ k % 1024) :
    (s.frameAligned c first).linkState k = s.linkState k ∧ (s.frameAligned c first).link k = s.link k := by
  unfold State.frameAligned
  extract_lets st s1
  have hsteady : Steady 2 s1 s :=
    (wb_steady _ _ _ (not_sysReg_keyADC c (by decide))).trans ((wb_steady _ _ _ (not_sysReg_keyADC c (by decide))).trans
      (wf_steady s _ _ (not_sysReg_keyADC c (by decide))))
  have hquiet : Quiet s1 s := (setReg_quiet _ _ _ _).trans ((setReg_quiet _ _ _ _).trans (setReg_quiet s _ _ _))
  split
  · exact ⟨((modConv_steady s1 c _).trans hsteady).linkState hk, link_of_quiet hquiet k⟩
  · exact ⟨rfl, rfl⟩

theorem exec_alignFlit {b : List Byte} (hstate : s.linkState (endKey port) = linkALIGN)
    (hfind : (s.link (endKey port)).lnkIn.find? (fun b => decide (byteAt b 0 = 3)) = some b) :
    ∃ t, exec (.alignFlit port) s = .next t ∧ t.linkState (endKey port) = linkACTIVE ∧ (t.link (endKey port)).smpRx = 4 * u16At b 2 := by
  change ∃ t, execAlignFlit port s = .next t ∧ _
  unfold execAlignFlit
  extract_lets key l
  rw [hfind]
  dsimp -zeta only
  extract_lets s1 first s2 s3 s4
  have hgo : ¬(s1.linkState key ≠ linkALIGN ∧ s1.linkState key ≠ linkACTIVE) := fun h => h.1 hstate
  rw [if_neg hgo]
  have hlink2 := link_modLink_same s1 key fun l =>
    { l with smpRx := 4 * u16At b 2, smpFrame := (first : Int) - 5 * u16At b 2, smpLost := 0 }
  have h2 : (s2.link key).smpRx = 4 * u16At b 2 := congrArg LinkEnd.smpRx hlink2
  obtain ⟨hactive, -, -, hlink⟩ := linkActive_effect s2 key
  have h3 : s3.linkState key = linkACTIVE ∧ (s3.link key).smpRx = 4 * u16At b 2 := by
    unfold s3
    rw [if_pos (show s2.linkState key = linkALIGN from hstate)]
    exact ⟨hactive, (congrArg LinkEnd.smpRx hlink).trans h2⟩
  have h4 : s4.linkState key = linkACTIVE ∧ (s4.link key).smpRx = 4 * u16At b 2 := by
    unfold s4
    split
    · obtain ⟨-, hstates, hlinks, -⟩ := linkActive_effect s3 (farEnd key)
      exact ⟨(hstates key (farEnd_ne port).symm).trans h3.1, (congrArg LinkEnd.smpRx (hlinks key (farEnd_ne port).symm)).trans h3.2⟩
    · exact h3
  refine ⟨_, rfl, ?_⟩
  split
  next c _ =>
    obtain ⟨hstates, hlinks⟩ := frameAligned_effect s4 c first key (endKeys_page port).1
    exact ⟨hstates.trans h4.1, (congrArg LinkEnd.smpRx hlinks).trans h4.2⟩
  next => exact h4

theorem exec_linkStateTimeout (h : s.linkState (endKey port) = linkLINK_INIT ∨ s.linkState (endKey port) = linkRETRAIN) :
    ∃ t, exec (.linkStateTimeout port) s = .next t ∧ t.linkState (endKey port) = linkFAULT := by
  obtain ⟨hkey, hfar⟩ := endKeys_page port
  refine ⟨_, if_pos ?_, linkFault_effect _ hkey hfar (farEnd_ne port)⟩
  obtain h | h := h
  · exact .inr (.inr (.inl h))
  · exact .inr (.inr (.inr (.inr h)))

theorem exec_retrain {who : Issuer} {tag : Nat} (ht : s.takes who (endKey port)) (hstate : s.linkState (endKey port) = linkFAULT) :
    ∃ t, exec (.retrain who port tag) s = .next t ∧ t.linkState (endKey port) = linkMB_INIT ∧ t.linkState (farEnd (endKey port)) = linkMB_INIT := by
  change ∃ t, execRetrain who port tag s = .next t ∧ _
  unfold execRetrain
  extract_lets key
  rw [command_of_takes (key := key) ht, if_neg (by rw [hstate]; decide), if_pos hstate]
  refine ⟨_, rfl, ?_, linkState_linkEnter_same _ _ _ (by decide)⟩
  exact (linkState_linkEnter_other _ _ _ (farEnd_ne port).symm).trans (linkState_linkEnter_same _ _ _ (by decide))

/-- A link that has trained aligns where it carries samples, and is ACTIVE otherwise; its slots stay. -/
theorem linkAlign_effect (s : State) (key : Nat) :
    (s.linkAlign key).linkState key = (if s.linkSamples key = true then linkALIGN else linkACTIVE) ∧
      ((s.linkAlign key).link key).rxSlot = (s.link key).rxSlot := by
  unfold State.linkAlign
  split
  next =>
    extract_lets s1
    have h1 : s1.linkState key = linkALIGN ∧ (s1.link key).rxSlot = (s.link key).rxSlot :=
      ⟨linkState_linkEnter_same s key _ (by decide), (congrArg LinkEnd.rxSlot (link_linkEnter_same s key _ _)).trans rfl⟩
    split
    · exact ⟨h1.1, (congrArg LinkEnd.rxSlot (link_modLink_same s1 key _)).trans h1.2⟩
    · exact h1
  next =>
    obtain ⟨hstate, -, -, hlink⟩ := linkActive_effect s key
    exact ⟨hstate, (congrArg LinkEnd.rxSlot hlink).trans rfl⟩

theorem exec_retrainDone (hstate : s.linkState (endKey port) = linkRETRAIN) :
    ∃ t, exec (.retrainDone port []) s = .next t ∧
      t.linkState (endKey port) = (if s.linkSamples (endKey port) = true then linkALIGN else linkACTIVE) ∧ (t.link (endKey port)).rxSlot = 0 := by
  change ∃ t, execRetrainDone port [] s = .next t ∧ _
  unfold execRetrainDone
  extract_lets key
  rw [if_pos hstate]
  rw [show s.replaceLanes key (laneList key []) = some s from rfl]
  dsimp -zeta only
  extract_lets s1 s2 s3
  have h1 : (s1.link key).rxSlot = 0 := congrArg LinkEnd.rxSlot (link_modLink_same s key _)
  have h3 : Quiet s3 s1 := .trans (.ite (.refl s2) (setReg_quiet s2 _ _ _)) (setReg_quiet s1 _ _ _)
  have hsamples : s3.linkSamples key = s.linkSamples key := h3.get (·.linkSamples key)
  obtain ⟨halign, hslot⟩ := linkAlign_effect s3 key
  rw [hsamples] at halign
  exact ⟨_, rfl, halign, hslot.trans ((congrArg LinkEnd.rxSlot (link_of_quiet h3 key)).trans h1)⟩

/-- A repair that is asked for is shown. -/
theorem requestRepair_effect (s : State) (key lane : Nat) (byOp hard : Bool) :
    ((s.requestRepair key lane byOp hard).link key).repair = some
        { lane := lane, token := (s.link key).token % 65536, slot := (s.link key).rxSlot + repairAhead key, acked := false, byOp := byOp,
            hard := hard } ∧
      (s.requestRepair key lane byOp hard).rb key Reg.BXE_STAT.REPAIR_PENDING = true := by
  unfold State.requestRepair
  extract_lets l w s1
  have hlink : ((s1.wb key Reg.BXE_STAT.REPAIR_PENDING true).link key) = s1.link key := link_of_quiet (setReg_quiet s1 _ _ _) key
  have hpending : (s1.wb key Reg.BXE_STAT.REPAIR_PENDING true).rb key Reg.BXE_STAT.REPAIR_PENDING = true :=
    rb_wb_same s1 key true (by decide) (by decide)
  have h1 : (s1.link key).repair = some { lane := lane, token := l.token % 65536, slot := w, acked := false, byOp := byOp, hard := hard } :=
    congrArg LinkEnd.repair (link_modLink_same s key _)
  generalize s1.wb key Reg.BXE_STAT.REPAIR_PENDING true = u at *
  exact ⟨(congrArg LinkEnd.repair hlink).trans h1, hpending⟩

theorem exec_repair {who : Issuer} {tag : Nat} (ht : s.takes who (endKey port)) (hstate : s.linkState (endKey port) = linkACTIVE)
    (hnone : (s.link (endKey port)).repair = none) (hlow : (s.page (endKey port)).a0.toNat % 128 < 64)
    (hmap : s.rmapRx (endKey port) ((s.page (endKey port)).a0.toNat % 128) < 128) :
    ∃ t, exec (.repair who port tag) s = .next t ∧
      (t.link (endKey port)).repair.map (·.lane) = some ((s.page (endKey port)).a0.toNat % 128) ∧
      t.rb (endKey port) Reg.BXE_STAT.REPAIR_PENDING = true := by
  change ∃ t, execRepair who port tag s = .next t ∧ _
  unfold execRepair
  extract_lets key
  rw [command_of_takes (key := key) ht, ← latch_a0 s key 0x0101 tag] at *
  generalize s.latch key 0x0101 tag = op at *
  extract_lets lane
  rw [if_neg (fun h => absurd h.1 (Nat.not_le.2 hlow)), if_neg (not_not.2 hstate), if_neg (by rw [hnone]; decide), if_neg (Nat.not_le.2 hmap)]
  obtain ⟨hrepair, hpending⟩ := requestRepair_effect (s.accept key op) key lane true false
  exact ⟨_, rfl, (congrArg (Option.map Repair.lane) hrepair).trans rfl, hpending⟩

end

theorem exec_linkFault (s : State) (link : Fin 7) :
    ∃ t, exec (.linkFault link) s = .next t ∧
      t.linkState (if link.val < 4 then keyOf (3 + link.val) 0x3F0 else keyOf 0 (0x3F0 + (link.val - 4))) = linkFAULT ∧
      t.isolated (if link.val < 4 then 3 + link.val else if link.val = 4 then 7 else link.val - 4) = true := by
  have hends : ∀ link : Fin 7, 0x3F0 ≤ (if link.val < 4 then keyOf (3 + link.val) 0x3F0 else keyOf 0 (0x3F0 + (link.val - 4))) % 1024 ∧
      0x3F0 ≤ farEnd (if link.val < 4 then keyOf (3 + link.val) 0x3F0 else keyOf 0 (0x3F0 + (link.val - 4))) % 1024 ∧
      farEnd (if link.val < 4 then keyOf (3 + link.val) 0x3F0 else keyOf 0 (0x3F0 + (link.val - 4))) ≠
        (if link.val < 4 then keyOf (3 + link.val) 0x3F0 else keyOf 0 (0x3F0 + (link.val - 4))) := by decide
  have hregion : ∀ link : Fin 7, (if link.val < 4 then 3 + link.val else if link.val = 4 then 7 else link.val - 4) ≠ 0 ∧
      (if link.val < 4 then 3 + link.val else if link.val = 4 then 7 else link.val - 4) < 8 := by decide
  obtain ⟨hkey, hfar, hne⟩ := hends link
  obtain ⟨h0, h8⟩ := hregion link
  change ∃ t, execLinkFault link s = .next t ∧ _
  unfold execLinkFault
  extract_lets key far
  obtain ⟨hisolated, hregs, -⟩ := isolateRegion_effect (s.linkFault key) h0 h8
  refine ⟨_, rfl, ?_, hisolated⟩
  have hpage : 0x3F0 ≤ key % 1024 := hkey
  have hflt : key ≠ keyFLT := by
    intro h
    rw [h] at hpage
    exact absurd hpage (by decide)
  exact (congrArg (wget · 3 0) (hregs key 0x100 (sysReg_end hkey) hflt)).trans (linkFault_effect s hkey hfar hne)

/-- Settles O22. -/
theorem linkStatesComplete : Obligations.LinkStatesComplete := by
  unfold Obligations.LinkStatesComplete
  refine ⟨?_, ?_, ?_, ?_, ?_, ?_, ?_, ?_, ?_, ?_, ?_⟩
  · intro s port hst hen hdown
    exact exec_linkPowerOn hst hen hdown
  · intro s port h
    exact exec_sidebandInitDone h
  · intro s port h
    exact exec_mbInitDone h
  · intro s port h
    exact exec_mbTrainDone h
  · intro s port b hstate hparam hfind hgood
    exact exec_paramReceive hstate hparam hfind hgood
  · intro s port b hstate hfind
    exact exec_alignFlit hstate hfind
  · intro s port h
    exact exec_linkStateTimeout h
  · intro s who port tag ht hstate
    exact exec_retrain ht hstate
  · intro s port hstate
    exact exec_retrainDone hstate
  · intro s who port tag ht hstate hnone hlow hmap
    exact exec_repair ht hstate hnone hlow hmap
  · intro s link
    exact exec_linkFault s link

end Sys2Proof.Machine

namespace Sys2Proof.Machine

/-! ### Flits sent (R378-R383). -/

/-- A flit sent takes a slot. -/
theorem sendFlit_link (s : State) (key n : Nat) (sample : Bool) (f : Flit) :
    ((s.sendFlit key n sample f).link key).txSlot = (s.link key).txSlot + 1 ∧ ((s.sendFlit key n sample f).link key).resend = (s.link key).resend ∧
      ((s.sendFlit key n sample f).link key).tseq = (s.link key).tseq := by
  unfold State.sendFlit
  extract_lets l nak rk rv lh b s1 s2 s3
  have h1 : s1.link key = s.link key := link_of_quiet (.ite (setReg_quiet s _ _ _) (.refl s)) key
  have h2 := link_modLink_same s1 key fun l => { l with nakDue := false, rk := if nak then l.rk else (l.rk + 1) % 4, txSlot := l.txSlot + 1 }
  rw [h1] at h2
  have h3 : (s3.setReg key Reg.BXE_SLOT.off (word (s3.link key).txSlot)).link key = s2.link key := link_of_quiet (setReg_quiet s3 _ _ _) key
  have h := h3.trans h2
  exact ⟨(congrArg LinkEnd.txSlot h).trans rfl, (congrArg LinkEnd.resend h).trans rfl, (congrArg LinkEnd.tseq h).trans rfl⟩

/-- A new sequenced flit takes the next TSEQ and a slot. -/
theorem sendNew_link (s : State) (key : Nat) (f : Flit) :
    ((s.sendNew key f).link key).tseq = (s.link key).tseq + 1 ∧ ((s.sendNew key f).link key).txSlot = (s.link key).txSlot + 1 := by
  unfold State.sendNew
  extract_lets l s1
  have h1 := link_modLink_same s key fun l =>
    { l with tseq := l.tseq + 1, unacked := l.unacked ++ [(l.tseq, f)], ackAt := if l.unacked.isEmpty then s.six else l.ackAt }
  obtain ⟨hslot, -, htseq⟩ := sendFlit_link s1 key l.tseq false f
  exact ⟨htseq.trans (congrArg LinkEnd.tseq h1), hslot.trans (congrArg (·.txSlot + 1) h1)⟩

theorem refreshLink_link (s : State) (key k : Nat) : (s.refreshLink key).link k = s.link k :=
  link_of_quiet ((setReg_quiet _ _ _ _).trans (setReg_quiet s _ _ _)) k

theorem sendPacket_link {s : State} {key i : Nat} {p : TxPacket} (h : (s.link key).tx[i]? = some p) :
    ((s.sendPacket key i).link key).tseq = (s.link key).tseq + 1 ∧ ((s.sendPacket key i).link key).txSlot = (s.link key).txSlot + 1 := by
  unfold State.sendPacket
  rw [h]
  dsimp -zeta only
  extract_lets l tag bytes rest f tags s1
  have h1 := link_modLink_same s key fun l =>
    { l with tags := tags, used := setNth l.used (p.vc - 1) (nth 0 l.used (p.vc - 1) + 1),
             tx := if rest.isEmpty then l.tx.eraseIdx i else l.tx.set i { p with tag := tag, started := true, bytes := rest } }
  obtain ⟨htseq, hslot⟩ := sendNew_link (s1.refreshLink key) key f
  rw [refreshLink_link] at htseq hslot
  exact ⟨htseq.trans (congrArg (·.tseq + 1) h1), hslot.trans (congrArg (·.txSlot + 1) h1)⟩

/-- The packet chosen is one that waits. -/
theorem pickPacket_waits {s : State} {key i : Nat} (h : s.pickPacket key = some i) : ∃ p, (s.link key).tx[i]? = some p := by
  unfold State.pickPacket at h
  have hok := List.find?_some h
  cases hp : (s.link key).tx[i]? with
  | none =>
    rw [hp] at hok
    cases hok
  | some p => exact ⟨p, rfl⟩

section
variable {s : State} {port : Fin 14}

theorem exec_flitTransmit_resend {n : Nat} {f : Flit} {rest : List (Nat × Flit)} (hruns : s.linkRuns (endKey port) = true)
    (hsmp : (s.link (endKey port)).smp = []) (hresend : (s.link (endKey port)).resend = (n, f) :: rest) :
    ∃ t, exec (.flitTransmit port) s = .next t ∧ (t.link (endKey port)).resend = rest ∧
      (t.link (endKey port)).tseq = (s.link (endKey port)).tseq ∧ (t.link (endKey port)).txSlot = (s.link (endKey port)).txSlot + 1 := by
  change ∃ t, execFlitTransmit port s = .next t ∧ _
  unfold execFlitTransmit
  extract_lets key l nop
  have hnone : (if s.linkState key = linkACTIVE ∧ s.rb key Reg.BXE_STAT.SMP_TX = true then l.smp else []) = [] := by
    rw [show l.smp = [] from hsmp, ite_self]
  rw [if_neg (by rw [hruns]; decide), hnone, show l.resend = (n, f) :: rest from hresend]
  dsimp only
  have h1 := link_modLink_same s key fun l => { l with resend := rest }
  obtain ⟨hslot, hrest, htseq⟩ := sendFlit_link (s.modLink key fun l => { l with resend := rest }) key n false f
  exact ⟨_, rfl, hrest.trans (congrArg LinkEnd.resend h1), htseq.trans ((congrArg LinkEnd.tseq h1).trans rfl),
    hslot.trans ((congrArg (·.txSlot + 1) h1).trans rfl)⟩

theorem exec_flitTransmit_packet {i : Nat} (hstate : s.linkState (endKey port) = linkACTIVE) (hsmp : (s.link (endKey port)).smp = [])
    (hresend : (s.link (endKey port)).resend = []) (hlnk : (s.link (endKey port)).lnk = []) (hparam : (s.link (endKey port)).paramLeft = 0)
    (hroom : (s.link (endKey port)).unacked.length < replayCap (endKey port)) (hpick : s.pickPacket (endKey port) = some i) :
    ∃ t, exec (.flitTransmit port) s = .next t ∧ (t.link (endKey port)).tseq = (s.link (endKey port)).tseq + 1 ∧
      (t.link (endKey port)).txSlot = (s.link (endKey port)).txSlot + 1 := by
  obtain ⟨p, hp⟩ := pickPacket_waits hpick
  change ∃ t, execFlitTransmit port s = .next t ∧ _
  unfold execFlitTransmit
  extract_lets key l nop
  have hruns : s.linkRuns key = true := decide_eq_true (.inr (.inr hstate))
  have hnone : (if s.linkState key = linkACTIVE ∧ s.rb key Reg.BXE_STAT.SMP_TX = true then l.smp else []) = [] := by
    rw [show l.smp = [] from hsmp, ite_self]
  have hinit : ¬((s.linkState key = linkLINK_INIT ∧ (!l.paramOk) = true) ∨ 0 < l.paramLeft) := by
    rw [show l.paramLeft = 0 from hparam, show s.linkState key = linkACTIVE from hstate]
    rintro (h | h)
    · exact absurd h.1 (by decide)
    · exact absurd h (by decide)
  rw [if_neg (by rw [hruns]; decide), hnone, show l.resend = [] from hresend]
  dsimp only
  rw [if_neg (Nat.not_le.2 hroom), if_neg hinit, show l.lnk = [] from hlnk]
  dsimp only
  rw [if_pos (show s.linkState key = linkACTIVE from hstate), show s.pickPacket key = some i from hpick]
  exact ⟨_, rfl, sendPacket_link hp⟩

/-! ### Flits received. -/

/-- What a flit's return value changes: nothing of what the link has received. -/
theorem takeReturn_link {b : List Byte} (s : State) (key : Nat) (h : byteAt b 0 / 64 ≠ 0) :
    ((s.takeReturn key b).link key).inbox = (s.link key).inbox ∧ ((s.takeReturn key b).link key).accepted = (s.link key).accepted ∧
      ((s.takeReturn key b).link key).rxSlot = (s.link key).rxSlot := by
  unfold State.takeReturn
  extract_lets rk rv
  rw [if_neg h, refreshLink_link, link_modLink_same]
  exact ⟨rfl, rfl, rfl⟩

/-- A packet of one flit reaches the inbox. -/
theorem acceptSeq_link {b : List Byte} (s : State) (key : Nat) (hvc : flitVc b = 1) (hstart : nbit (byteAt b 0) 3 = true)
    (hend : nbit (byteAt b 0) 4 = true) :
    ((s.acceptSeq key b).link key).inbox = (s.link key).inbox ++ [(1, 1, (b.drop 2).take 60)] ∧
      ((s.acceptSeq key b).link key).accepted = (s.link key).accepted + 1 ∧ ((s.acceptSeq key b).link key).rxSlot = (s.link key).rxSlot := by
  unfold State.acceptSeq
  extract_lets vc body s1
  have h1 := link_modLink_same s key fun l => { l with accepted := l.accepted + 1, nakUntil := none }
  have hvc1 : vc = 1 := hvc
  rw [if_neg (by rw [hvc1]; decide), link_modLink_same, hstart, hend, if_pos rfl, if_pos rfl, h1, hvc1]
  exact ⟨rfl, rfl, rfl⟩

/-- A packet of one flit that is received reaches the inbox and is accepted. -/
theorem acceptFlit_link {b : List Byte} {u : State} {key n : Nat} {inbox : List (Nat × Nat × List Byte)} {accepted slot : Nat}
    (hvc : flitVc b = 1) (hstart : nbit (byteAt b 0) 3 = true) (hend : nbit (byteAt b 0) 4 = true) (hreturn : byteAt b 0 / 64 ≠ 0)
    (hu : (u.link key).inbox = inbox ∧ (u.link key).accepted = accepted ∧ (u.link key).rxSlot = slot) :
    ((u.acceptFlit key false n b).link key).inbox = inbox ++ [(1, 1, (b.drop 2).take 60)] ∧
      ((u.acceptFlit key false n b).link key).accepted = accepted + 1 ∧ ((u.acceptFlit key false n b).link key).rxSlot = slot := by
  obtain ⟨rfl, rfl, rfl⟩ := hu
  unfold State.acceptFlit
  extract_lets u1
  have h0 := link_modLink_same u key fun l => { l with flitAt := u.six }
  obtain ⟨hinbox, haccepted, hslot⟩ := takeReturn_link (u.modLink key fun l => { l with flitAt := u.six }) key hreturn
  rw [if_neg (by decide), if_neg (fun h => by rw [hvc] at h; exact absurd h.1 (by decide))]
  obtain ⟨hinbox2, haccepted2, hslot2⟩ := acceptSeq_link u1 key hvc hstart hend
  rw [hinbox2, haccepted2, hslot2]
  rw [h0] at hinbox haccepted hslot
  exact ⟨congrArg (· ++ _) hinbox, congrArg (· + 1) haccepted, hslot⟩

theorem exec_flitReceive {bytes : List Byte} (hruns : s.linkRuns (endKey port) = true) (hlen : bytes.length = 64)
    (hhits : s.flitHits (endKey port) bytes = [(false, (s.link (endKey port)).accepted)]) (hvc : flitVc bytes = 1)
    (hmarks : nbit (byteAt bytes 0) 3 = true ∧ nbit (byteAt bytes 0) 4 = true) (hreturn : byteAt bytes 0 / 64 ≠ 0) :
    ∃ t, exec (.flitReceive port bytes []) s = .next t ∧
      (t.link (endKey port)).inbox = (s.link (endKey port)).inbox ++ [(1, 1, (bytes.drop 2).take 60)] ∧
      (t.link (endKey port)).accepted = (s.link (endKey port)).accepted + 1 ∧ (t.link (endKey port)).rxSlot = (s.link (endKey port)).rxSlot + 1 := by
  change ∃ t, execFlitReceive port bytes [] s = .next t ∧ _
  unfold execFlitReceive
  extract_lets key b module s1 flags hit s2
  have hb : b = bytes := by
    unfold b
    rw [List.take_append_of_le_length (le_of_eq hlen.symm), List.take_of_length_le (le_of_eq hlen)]
  have hs1 : s1.flitHits key b = [(false, (s.link key).accepted)] := by
    rw [hb]
    refine Eq.trans ?_ hhits
    have hlink := link_modLink_same s key fun l => { l with rxSlot := l.rxSlot + 1 }
    unfold State.flitHits State.flitSeeds
    dsimp only
    rw [hlink]
    rfl
  have hhit : hit = some (false, (s.link key).accepted) := by
    unfold hit
    rw [hs1]
    dsimp only
    rw [hb, hvc]
    rfl
  rw [if_neg (by rw [hruns]; decide), hhit]
  dsimp only
  have hflags : flags = [] := rfl
  rw [hflags, hb]
  refine ⟨_, rfl, ?_⟩
  have hs2 : (s2.link key).inbox = (s.link key).inbox ∧ (s2.link key).accepted = (s.link key).accepted ∧
      (s2.link key).rxSlot = (s.link key).rxSlot + 1 := by
    have h2 := link_modLink_same s1 key fun l => { l with hard := l.hard.filter fun x => decide (x.1 / 64 ≠ module) }
    have h1 := link_modLink_same s key fun l => { l with rxSlot := l.rxSlot + 1 }
    unfold s2
    rw [h2, h1]
    exact ⟨rfl, rfl, rfl⟩
  exact acceptFlit_link hvc hmarks.1 hmarks.2 hreturn hs2

theorem exec_replayTimeout {f : Nat × Flit} {rest : List (Nat × Flit)} (hruns : s.linkRuns (endKey port) = true)
    (hunacked : (s.link (endKey port)).unacked = f :: rest) (hfirst : (s.link (endKey port)).replayFrom ≠ f.1)
    (hlimit : 1 < s.rf (endKey port) Reg.BXE_THRESH1.REPLAY_LIMIT) :
    ∃ t, exec (.replayTimeout port) s = .next t ∧
      (t.link (endKey port)).resend = (s.link (endKey port)).unacked.filter (fun x => decide (f.1 ≤ x.1)) ∧
      (t.link (endKey port)).replayRow = 1 := by
  change ∃ t, execReplayTimeout port s = .next t ∧ _
  unfold execReplayTimeout
  extract_lets key
  rw [if_neg (by rw [hruns]; decide), show (s.link key).unacked = f :: rest from hunacked]
  dsimp only
  refine ⟨_, rfl, ?_⟩
  generalize hu : s.advanceTo ((s.link key).ackAt + if linkWide key = true then 8192 else 16384) = u
  have hlink : u.link key = s.link key := by rw [← hu]; rfl
  have hregs : u.rf key Reg.BXE_THRESH1.REPLAY_LIMIT = s.rf key Reg.BXE_THRESH1.REPLAY_LIMIT := by rw [← hu]; rfl
  unfold State.replay
  extract_lets l row u1 u2
  have hrow : row = 1 := if_neg fun h => hfirst ((congrArg LinkEnd.replayFrom hlink).symm.trans h)
  have hlimit2 : u2.rf key Reg.BXE_THRESH1.REPLAY_LIMIT = s.rf key Reg.BXE_THRESH1.REPLAY_LIMIT :=
    (rf_wf_apart (.inr (.inl (by decide))) u1 _).trans hregs
  have h1 := link_modLink_same u key fun l =>
    { l with resend := l.unacked.filter fun x => decide (f.1 ≤ x.1), replayFrom := f.1, replayRow := row, ackAt := u.six }
  have h2 : u2.link key = u1.link key := link_of_quiet (setReg_quiet u1 _ _ _) key
  rw [if_neg (by rw [hlimit2, hrow]; exact Nat.not_le.2 hlimit), h2.trans h1, hlink, hrow, ← hunacked]
  exact ⟨rfl, rfl⟩

/-! ### Lanes repaired (R387-R389). -/

theorem wget_wbit_clear {w : Word} {i : Nat} (h : wbit w i = false) : wget w i i ≠ 1 := by
  unfold wbit nbit at h
  unfold wget bitsOf
  rw [Nat.add_sub_cancel_left, Nat.pow_one]
  exact fun h1 => Bool.noConfusion (h.symm.trans (beq_iff_eq.2 h1))

theorem exec_repairMessage_req {lane token : Nat} {slotW : BitVec 32} (hstate : s.linkState (endKey port) = linkACTIVE) (hlane : lane < 128)
    (hspare : wbit (s.reg (endKey port) (0x11C + 4 * (lane / 64))) (8 * (lane % 64 / 16) + 7) = false) :
    ∃ t, exec (.repairMessage port 1 lane token slotW) s = .next t ∧
      (t.link (endKey port)).granted.map (fun g => (g.lane, g.token, g.slot)) = some (lane, token % 65536, slotW.toNat) ∧
      t.out = s.out ++ [.sideband (endKey port) 2 lane (token % 65536) slotW.toNat] := by
  change ∃ t, execRepairMessage port 1 lane token slotW s = .next t ∧ _
  unfold execRepairMessage
  rw [Nat.mod_eq_of_lt hlane]
  extract_lets key l lane' tx
  have htx : tx ≠ 1 := wget_wbit_clear hspare
  rw [if_pos rfl, if_neg (not_or.2 ⟨not_not.2 hstate, htx⟩)]
  have hlink := link_modLink_same s key fun l =>
    { l with granted := some { lane := lane', token := token % 65536, slot := slotW.toNat, acked := true, byOp := false, hard := false } }
  exact ⟨_, rfl, (congrArg (fun l : LinkEnd => l.granted.map (fun g => (g.lane, g.token, g.slot))) hlink).trans rfl, rfl⟩

theorem exec_repairMessage_ack (lane : Nat) (slotW : BitVec 32) {r : Repair} (hr : (s.link (endKey port)).repair = some r)
    (htoken : r.token < 65536) :
    ∃ t, exec (.repairMessage port 2 lane r.token slotW) s = .next t ∧ (t.link (endKey port)).repair = some { r with acked := true } := by
  change ∃ t, execRepairMessage port 2 lane r.token slotW s = .next t ∧ _
  unfold execRepairMessage
  extract_lets key l lane' tx
  rw [if_neg (by decide), if_neg (by decide), show l.repair = some r from hr]
  dsimp only
  rw [if_neg (not_not.2 (Nat.mod_eq_of_lt htoken).symm), if_pos rfl]
  exact ⟨_, rfl, congrArg LinkEnd.repair (link_modLink_same s key _)⟩

theorem exec_repairAckDeadline {r : Repair} (hr : (s.link (endKey port)).repair = some r) (hacked : r.acked = false) :
    ∃ t, exec (.repairAckDeadline port) s = .next t ∧
      (t.link (endKey port)).repair.map (fun x => (x.lane, x.token, x.acked)) = some (r.lane, (s.link (endKey port)).token % 65536, false) := by
  change ∃ t, execRepairAckDeadline port s = .next t ∧ _
  unfold execRepairAckDeadline
  extract_lets key
  rw [show (s.link key).repair = some r from hr]
  dsimp -zeta only
  rw [if_neg (by rw [hacked]; decide)]
  extract_lets s1
  obtain ⟨hrepair, -⟩ := requestRepair_effect (s1.emit (.sideband key 4 r.lane r.token r.slot)) key r.lane r.byOp r.hard
  have h1 := link_modLink_same s key fun l => { l with rxSlot := max l.rxSlot (r.slot - repairDue key) }
  have htoken : ((s1.emit (.sideband key 4 r.lane r.token r.slot)).link key).token = (s.link key).token := (congrArg LinkEnd.token h1).trans rfl
  rw [htoken] at hrepair
  exact ⟨_, rfl, (congrArg (Option.map fun x : Repair => (x.lane, x.token, x.acked)) hrepair).trans rfl⟩

/-- A repair that has ended leaves none, and shows none. -/
theorem repairEnds_effect (s : State) (key : Nat) :
    ((s.repairEnds key).link key).repair = none ∧ ((s.repairEnds key).link key).repairNext = (s.link key).repairNext ∧
      (s.repairEnds key).rb key Reg.BXE_STAT.REPAIR_PENDING = false := by
  unfold State.repairEnds
  have hlink : ((s.modLink key fun l => { l with repair := none }).wb key Reg.BXE_STAT.REPAIR_PENDING false).link key =
      { s.link key with repair := none } :=
    (link_of_quiet (setReg_quiet _ _ _ _) key).trans (link_modLink_same s key fun l => { l with repair := none })
  exact ⟨congrArg LinkEnd.repair hlink, (congrArg LinkEnd.repairNext hlink).trans rfl, rb_wb_same _ _ _ (by decide) (by decide)⟩

theorem exec_repairSwitch {r : Repair} (hgranted : (s.link (endKey port)).granted = none) (hr : (s.link (endKey port)).repair = some r)
    (hacked : r.acked = true) (hby : r.byOp = false) (hnext : (s.link (endKey port)).repairNext = []) :
    ∃ t, exec (.repairSwitch port) s = .next t ∧ (t.link (endKey port)).repair = none ∧
      t.rb (endKey port) Reg.BXE_STAT.REPAIR_PENDING = false ∧ wbit (t.page (endKey port)).irq 16 = true := by
  change ∃ t, execRepairSwitch port s = .next t ∧ _
  unfold execRepairSwitch
  extract_lets key s0
  have hs0 : s0 = s := by
    unfold s0
    rw [show (s.link key).granted = none from hgranted]
  rw [hs0, show (s.link key).repair = some r from hr]
  dsimp -zeta only
  extract_lets s1 s2 s3 s4 s5
  rw [if_neg (by rw [hacked]; decide), if_neg (by rw [hby]; decide)]
  have hflt : key ≠ keyFLT := by
    have hpage := (endKeys_page port).1
    intro h
    rw [show endKey port = keyFLT from h] at hpage
    exact absurd hpage (by decide)
  obtain ⟨hnone, hlist, hshown⟩ := repairEnds_effect s1 key
  have hquiet : Quiet s4 (s1.repairEnds key) :=

        (logPage_quiet _ _ _ _ _ _ _).trans ((irqBit_quiet _ _ _).trans ((setErr_quiet _ _ _).trans ((setReg_quiet _ _ _ _).trans (setReg_quiet _ _ _ _))))
  have h5 := link_modLink_same s4 key fun l => { l with hard := l.hard.filter fun x => decide (x.1 ≠ r.lane) }
  rw [link_of_quiet hquiet key] at h5
  have hempty : (s5.link key).repairNext = [] := by
    have h1 := link_modLink_same s key fun l => { l with rxSlot := max l.rxSlot r.slot }
    exact (congrArg LinkEnd.repairNext h5).trans (hlist.trans ((congrArg LinkEnd.repairNext h1).trans hnext))
  have hdone : s5.nextRepair key = s5 := by
    unfold State.nextRepair
    rw [hempty]
  rw [hdone]
  refine ⟨_, rfl, (congrArg LinkEnd.repair h5).trans hnone, ?_, ?_⟩
  · have hregs : s4.rb key Reg.BXE_STAT.REPAIR_PENDING = s2.rb key Reg.BXE_STAT.REPAIR_PENDING := by
      unfold State.rb State.rf
      rw [reg_congr (page_logPage s3 key 0 0 0 10 _ hflt), reg_of_regs (regs_irqBit (s2.setErr key 16) key 16 key), reg_setErr (hkey := hflt)]
    refine hregs.trans ?_
    unfold State.rb at hshown ⊢
    rw [show s2.rf key Reg.BXE_STAT.REPAIR_PENDING = (s1.repairEnds key).rf key Reg.BXE_STAT.REPAIR_PENDING from
      (rf_wf_apart (.inr (.inl (by decide))) _ _).trans (rf_setReg_apart _ _ (.inr fun h => by change 0x114 + 4 * (r.lane / 64) = 0x100 at h; omega))]
    exact hshown
  · exact (logPage_raised s3 key 0 0 0 10 _).irq (wbit_irq_irqBit _ _ (by decide))

theorem exec_errorWindow_second : ∃ t, exec (.errorWindow port true) s = .next t ∧ (t.link (endKey port)).retrains = 0 ∧
    (t.link (endKey port)).mismatch = [] := by
  change ∃ t, execErrorWindow port true s = .next t ∧ _
  unfold execErrorWindow
  extract_lets key s1 lanes s2 s3 s4 s5
  rw [if_pos rfl]
  have h := link_modLink_same s3 key fun l => { l with retrains := 0, mismatch := [] }
  exact ⟨_, rfl, congrArg LinkEnd.retrains h, congrArg LinkEnd.mismatch h⟩

theorem exec_errorWindow_milli : ∃ t, exec (.errorWindow port false) s = .next t ∧ (t.link (endKey port)).bad = 0 := by
  change ∃ t, execErrorWindow port false s = .next t ∧ _
  unfold execErrorWindow
  extract_lets key s1 lanes s2 s3 s4 s5
  rw [if_neg (by decide)]
  exact ⟨_, rfl, congrArg LinkEnd.bad (link_modLink_same s5 key fun l => { l with bad := 0 })⟩

/-! ### A retrain of both ends (R390). -/

theorem regs_setErr {s : State} {key bit k : Nat} (hk : k ≠ keyFLT) : ((s.setErr key bit).page k).regs = (s.page k).regs := by
  unfold State.setErr
  split
  · rfl
  · rw [page_logPage _ _ _ _ _ _ _ hk, regs_setErrFlag]

/-- A retrain of one end: its state, its count, and what of the other end stays. -/
theorem retrainEnd_effect (s : State) {key : Nat} (h : 0x3F0 ≤ key % 1024) :
    (s.retrainEnd key).linkState key = linkRETRAIN ∧ ((s.retrainEnd key).link key).retrains = (s.link key).retrains + 1 ∧
      (∀ k, 0x3F0 ≤ k % 1024 → k ≠ key → (s.retrainEnd key).linkState k = s.linkState k ∧ (s.retrainEnd key).link k = s.link k) ∧
      ∀ k, k ≠ keyFLT → (s.retrainEnd key).rf k Reg.BXE_THRESH1.RETRAIN_LIMIT = s.rf k Reg.BXE_THRESH1.RETRAIN_LIMIT := by
  unfold State.retrainEnd
  extract_lets s1 s2 s3
  have h3 : Quiet s3 s2 ∧ Steady 2 s3 s2 ∧ ∀ k, (s3.page k).regs = (s2.page k).regs := by
    unfold s3
    split
    · split
      · exact ⟨endOp_quiet .., endOp_steady _ _ _ _ (not_sysPage_end h), regs_endOp s2 key _ _ _⟩
      · exact ⟨.refl _, .refl _, fun _ => rfl⟩
    · exact ⟨.refl _, .refl _, fun _ => rfl⟩
  obtain ⟨hquiet3, hsteady3, hregs3⟩ := h3
  have hsteady1 : Steady 2 s1 (s.linkEnter key linkRETRAIN 819200) :=
    (setErr_steady _ _ _).trans (count_steady _ _ (not_sysReg_end h (by decide)))
  have hstate3 (k : Nat) (hk : 0x3F0 ≤ k % 1024) : s3.linkState k = (s.linkEnter key linkRETRAIN 819200).linkState k :=
    (hsteady3.linkState hk).trans (hsteady1.linkState hk)
  have hquiet1 : Quiet s1 (s.linkEnter key linkRETRAIN 819200) := (setErr_quiet _ _ _).trans (setReg_quiet _ _ _ _)
  have hend : Quiet ((s3.wb key Reg.BXE_STAT.REPAIR_PENDING false).irqBit key 17) s2 :=
    (irqBit_quiet _ _ _).trans ((setReg_quiet _ _ _ _).trans hquiet3)
  have hlink2 := link_modLink_same s1 key fun l =>
    { l with smp := [], retrains := l.retrains + 1, smpLost := 0, repair := none, repairNext := [], granted := none, hard := [] }
  have hlink1 : s1.link key = { s.link key with deadline := s.six + 819200 } :=
    (link_of_quiet hquiet1 key).trans (link_linkEnter_same s key _ _)
  refine ⟨?_, ?_, fun k hk hne => ⟨?_, ?_⟩, fun k hk => ?_⟩
  · refine (linkState_of_regs (regs_irqBit ..)).trans ?_
    refine (rf_wb_apart (.inr (.inr (by decide))) _ _).trans ?_
    exact (hstate3 key h).trans (linkState_linkEnter_same s key _ (by decide))
  · exact (congrArg LinkEnd.retrains ((link_of_quiet hend key).trans hlink2)).trans (congrArg (·.retrains + 1) hlink1)
  · refine (linkState_of_regs (regs_irqBit ..)).trans ((rf_wb_apart (.inl hne.symm) _ _).trans ?_)
    exact (hstate3 k hk).trans (linkState_linkEnter_other s _ _ hne)
  · exact (link_of_quiet hend k).trans ((link_modLink_other s1 _ hne).trans ((link_of_quiet hquiet1 k).trans (link_linkEnter_other s _ _ hne)))
  · refine (rf_irqBit ..).trans ((rf_wb_apart (.inr (.inl (by decide))) _ _).trans ((rf_of_regs (hregs3 k) _).trans ?_))
    refine (rf_of_regs (regs_setErr hk) _).trans ((rf_wf_apart (.inr (.inl (by decide))) _ _).trans ?_)
    exact rf_wf_apart (.inr (.inl (by decide))) s _

/-- Frames that stop leave the link ends. -/
theorem framesStop_effect (s : State) (key k : Nat) (hk : 0x3F0 ≤ k % 1024) :
    (s.framesStop key).linkState k = s.linkState k ∧ (s.framesStop key).link k = s.link k ∧
      (s.framesStop key).rf k Reg.BXE_THRESH1.RETRAIN_LIMIT = s.rf k Reg.BXE_THRESH1.RETRAIN_LIMIT := by
  refine ⟨(framesStop_steady s key).linkState hk, ?_⟩
  have hne (c : Nat) : keyADC c ≠ k := by
    unfold keyADC keyOf
    omega
  have hdown (c n : Nat) : (s.convDown c n).link k = s.link k ∧
      (s.convDown c n).rf k Reg.BXE_THRESH1.RETRAIN_LIMIT = s.rf k Reg.BXE_THRESH1.RETRAIN_LIMIT := by
    unfold State.convDown State.updateLocked
    extract_lets s1 s2 s3
    have h2 : Quiet s2 s := (setReg_quiet _ _ _ _).trans (setReg_quiet s _ _ _)
    have h2f : s2.rf k Reg.BXE_THRESH1.RETRAIN_LIMIT = s.rf k Reg.BXE_THRESH1.RETRAIN_LIMIT :=
      (rf_wb_apart (.inl (hne c)) _ _).trans (rf_wf_apart (.inl (hne c)) s _)
    have h3 : Quiet s3 s2 := .ite (setReg_quiet s2 _ _ _) (.refl s2)
    have h3f : s3.rf k Reg.BXE_THRESH1.RETRAIN_LIMIT = s2.rf k Reg.BXE_THRESH1.RETRAIN_LIMIT := by
      unfold s3
      split
      · exact rf_wb_apart (.inl (hne c)) _ _
      · rfl
    exact ⟨link_of_quiet ((setReg_quiet s3 _ _ _).trans (h3.trans h2)) k, (rf_wb_apart (.inl (hne c)) _ _).trans (h3f.trans h2f)⟩
  unfold State.framesStop
  split
  · split
    · exact hdown _ _
    · exact ⟨rfl, rfl⟩
  · split
    · exact ⟨rfl, rfl⟩
    · exact ⟨rfl, rfl⟩

theorem exec_noFlitTimeout (hstate : s.linkState (endKey port) = linkACTIVE)
    (hlimit : (s.link (endKey port)).retrains + 1 < s.rf (endKey port) Reg.BXE_THRESH1.RETRAIN_LIMIT) :
    ∃ t, exec (.noFlitTimeout port) s = .next t ∧ t.linkState (endKey port) = linkRETRAIN ∧ t.linkState (farEnd (endKey port)) = linkRETRAIN := by
  obtain ⟨hkey, hfar⟩ := endKeys_page port
  have hne := farEnd_ne port
  refine ⟨_, if_pos hstate, ?_⟩
  generalize hu : s.advanceTo ((s.link (endKey port)).flitAt + 81920) = u
  have hustate : u.linkState (endKey port) = linkACTIVE := by rw [← hu]; exact hstate
  have hulimit : (u.link (endKey port)).retrains + 1 < u.rf (endKey port) Reg.BXE_THRESH1.RETRAIN_LIMIT := by rw [← hu]; exact hlimit
  generalize endKey port = key at *
  have hflt : key ≠ keyFLT := by
    rintro rfl
    exact absurd hkey (by decide)
  unfold State.retrain
  extract_lets v
  obtain ⟨hstate1, hcount1, -, hlimits1⟩ := retrainEnd_effect u hkey
  obtain ⟨hstate2, -, hothers2, hlimits2⟩ := retrainEnd_effect (u.retrainEnd key) hfar
  obtain ⟨hv, hvlink, hvlimit⟩ := framesStop_effect ((u.retrainEnd key).retrainEnd (farEnd key)) key key hkey
  obtain ⟨hvfar, -, -⟩ := framesStop_effect ((u.retrainEnd key).retrainEnd (farEnd key)) key (farEnd key) hfar
  obtain ⟨hstatekey, hlinkkey⟩ := hothers2 key hkey hne.symm
  have hcount : (v.link key).retrains = (u.link key).retrains + 1 := (congrArg LinkEnd.retrains (hvlink.trans hlinkkey)).trans hcount1
  have hlim : v.rf key Reg.BXE_THRESH1.RETRAIN_LIMIT = u.rf key Reg.BXE_THRESH1.RETRAIN_LIMIT :=
    hvlimit.trans ((hlimits2 key hflt).trans (hlimits1 key hflt))
  rw [if_neg (not_not.2 hustate), if_neg (by rw [hlim, hcount]; exact Nat.not_le.2 hulimit)]
  exact ⟨hv.trans (hstatekey.trans hstate1), hvfar.trans hstate2⟩

end

/-- Settles O21. -/
theorem linkFlitsAndRepairsComplete : Obligations.LinkFlitsAndRepairsComplete := by
  unfold Obligations.LinkFlitsAndRepairsComplete
  refine ⟨?_, ?_, ?_, ?_, ?_, ?_, ?_, ?_, ?_, ?_, ?_⟩
  · intro s port bytes hruns hlen hhits hvc hmarks hreturn
    exact exec_flitReceive hruns hlen hhits hvc hmarks hreturn
  · intro s port n f rest hruns hsmp hresend
    exact exec_flitTransmit_resend hruns hsmp hresend
  · intro s port i hstate hsmp hresend hlnk hparam hroom hpick
    exact exec_flitTransmit_packet hstate hsmp hresend hlnk hparam hroom hpick
  · intro s port f rest hruns hunacked hfirst hlimit
    exact exec_replayTimeout hruns hunacked hfirst hlimit
  · intro s port lane token slotW hstate hlane hspare
    exact exec_repairMessage_req hstate hlane hspare
  · intro s port lane slotW r hr htoken
    exact exec_repairMessage_ack lane slotW hr htoken
  · intro s port r hr hacked
    exact exec_repairAckDeadline hr hacked
  · intro s port r hgranted hr hacked hby hnext
    exact exec_repairSwitch hgranted hr hacked hby hnext
  · intro s port
    exact exec_errorWindow_second
  · intro s port
    exact exec_errorWindow_milli
  · intro s port hstate hlimit
    exact exec_noFlitTimeout hstate hlimit

end Sys2Proof.Machine

namespace Sys2Proof.Machine

/-! ### Tasks that have ended stay as they ended (R284, R310). -/

theorem task_id {s : State} {id : Nat} {k : Task} (h : s.task id = some k) : k.id = id := by
  unfold State.task at h
  split at h
  · split at h
    · next hid => exact Option.some.inj h ▸ hid
    · cases h
  · cases h

theorem task_of_tasks {t s : State} (h : t.phn.tasks = s.phn.tasks) (id : Nat) : t.task id = s.task id := by
  unfold State.task State.taskAt
  rw [h]

theorem task_setTask_same (s : State) (x : Task) : (s.setTask x).task x.id = some x := by
  have hat : (s.setTask x).taskAt (x.id % 4096) = some x := mfind_mput_same _ _ _
  unfold State.task
  rw [hat]
  exact if_pos rfl

/-- Another task, where the slot is the task's own. -/
theorem task_setTask_other {s : State} {x o : Task} {id : Nat} (ho : s.task x.id = some o) (hid : id ≠ x.id) {k : Task}
    (hk : s.task id = some k) : (s.setTask x).task id = some k := by
  have hslot : id % 4096 ≠ x.id % 4096 := by
    intro h
    unfold State.task at ho hk
    rw [h] at hk
    cases hat : s.taskAt (x.id % 4096) with
    | none =>
      rw [hat] at hk
      cases hk
    | some y =>
      rw [hat] at ho hk
      dsimp only at ho hk
      split at ho
      · next h1 =>
        split at hk
        · next h2 => exact hid (h2.symm.trans h1)
        · cases hk
      · cases ho
  have hat : (s.setTask x).taskAt (id % 4096) = s.taskAt (id % 4096) := mfind_mput_other _ _ hslot
  unfold State.task
  rw [hat]
  exact hk

/-- From `s` to `t` every task that is no longer live keeps its state, code and sub-reason. -/
def EndsKept (t s : State) : Prop :=
  ∀ id k, s.task id = some k → k.st.live = false → ∃ k', t.task id = some k' ∧ k'.st = k.st ∧ k'.code = k.code ∧ k'.sub = k.sub

theorem EndsKept.of_tasks {t s : State} (h : t.phn.tasks = s.phn.tasks) : EndsKept t s :=
  fun id k hk _ => ⟨k, (task_of_tasks h id).trans hk, rfl, rfl, rfl⟩

theorem EndsKept.of_phn {t s : State} (h : t.phn = s.phn) : EndsKept t s := .of_tasks (congrArg Phoin.tasks h)

theorem EndsKept.of_keeps {m k r : Bool} {t s : State} (h : Keeps m k r true t s) : EndsKept t s := .of_phn (h.phn rfl)

theorem EndsKept.refl (s : State) : EndsKept s s := .of_phn rfl

theorem EndsKept.trans {t u s : State} (h1 : EndsKept t u) (h2 : EndsKept u s) : EndsKept t s := by
  intro id k hk hlive
  obtain ⟨k', hk', hst, hcode, hsub⟩ := h2 id k hk hlive
  obtain ⟨k2, hk2, hst2, hcode2, hsub2⟩ := h1 id k' hk' (hst ▸ hlive)
  exact ⟨k2, hk2, hst2.trans hst, hcode2.trans hcode, hsub2.trans hsub⟩

theorem EndsKept.ite {c : Prop} [Decidable c] {a b s : State} (ha : EndsKept a s) (hb : EndsKept b s) : EndsKept (if c then a else b) s := by
  split
  · exact ha
  · exact hb

theorem EndsKept.foldl {α : Type} {f : State → α → State} (h : ∀ s x, EndsKept (f s x) s) (xs : List α) (s : State) :
    EndsKept (xs.foldl f s) s := by
  induction xs generalizing s with
  | nil => exact .refl s
  | cons x xs ih => exact (ih (f s x)).trans (h s x)

/-- A task written over itself, as it ended if it has ended. -/
theorem setTask_ends {s : State} {x o : Task} (ho : s.task x.id = some o)
    (h : o.st.live = false → x.st = o.st ∧ x.code = o.code ∧ x.sub = o.sub) : EndsKept (s.setTask x) s := by
  intro id k hk hlive
  by_cases hid : id = x.id
  · subst hid
    obtain rfl := Option.some.inj (ho.symm.trans hk)
    exact ⟨x, task_setTask_same s x, h hlive⟩
  · exact ⟨k, task_setTask_other ho hid hk, rfl, rfl, rfl⟩

/-- A task changed in what is neither its number nor how it ended. -/
theorem modTask_ends (s : State) (id : Nat) {f : Task → Task} (h : ∀ k, (f k).id = k.id ∧ (f k).st = k.st ∧ (f k).code = k.code ∧ (f k).sub = k.sub) :
    EndsKept (s.modTask id f) s := by
  unfold State.modTask
  split
  next k hk =>
    obtain ⟨hid, hst, hcode, hsub⟩ := h k
    exact setTask_ends (o := k) (by rw [hid, task_id hk]; exact hk) fun _ => ⟨hst, hcode, hsub⟩
  next => exact .refl s

theorem modPhn_ends (s : State) {f : Phoin → Phoin} (h : (f s.phn).tasks = s.phn.tasks) : EndsKept (s.modPhn f) s := .of_tasks h

theorem putRing1_ends (s : State) (r : Ring1) : EndsKept (s.putRing1 r) s := by
  unfold State.putRing1
  extract_lets s1
  exact (EndsKept.of_keeps (State.sendMsix_keeps _ _)).trans (.of_tasks rfl)

theorem putNotice_ends (s : State) (n : Notice) : EndsKept (s.putNotice n) s := by
  unfold State.putNotice
  split
  · exact (EndsKept.of_keeps (State.count_keeps _ _ _)).trans (modPhn_ends s rfl)
  · exact .ite (putRing1_ends s _) (modPhn_ends s rfl)

theorem notify_ends (s : State) (task cause six detail0 : Nat) : EndsKept (s.notify task cause six detail0) s :=
  .ite (modPhn_ends s rfl) (putNotice_ends s _)

/-! ### Streams that close. -/

theorem closeTask_ends (s : State) (task : Nat) : EndsKept (s.modTask task fun t => { t with closed := true }) s :=
  modTask_ends s task fun _ => ⟨rfl, rfl, rfl, rfl⟩

theorem dropClosed_ends (s : State) (task : Nat) : EndsKept (s.dropClosed task) s := by
  unfold State.dropClosed
  split
  · exact .refl s
  · refine .ite ?_ (.refl s)
    extract_lets s1 s2 s3
    have h1 : EndsKept s1 s := .ite (.of_keeps (State.modRing_keeps _ _ _)) (.refl s)
    have h2 : EndsKept s2 s1 := .ite (.foldl (fun u d => .of_keeps (State.nvmeFlush_keeps u d)) _ _) (.refl s1)
    have h3 : EndsKept s3 s2 := .of_phn rfl
    exact (EndsKept.of_keeps (State.refreshStr_keeps _)).trans
      ((closeTask_ends _ _).trans (h3.trans (h2.trans h1)))

theorem closeStream_ends (s : State) (task reason code sub : Nat) (accepts : State → Nat → Nat → Bool) :
    EndsKept (s.closeStream task reason code sub accepts) s := by
  unfold State.closeStream
  split
  · exact .trans (.of_phn rfl) (closeTask_ends s task)
  · refine .ite (.refl s) ?_
    extract_lets s1 left s2 keep left2 s3 s4 s5
    have h1 : EndsKept s1 s := .ite (.of_keeps (State.takeAll_keeps _ _ _)) (.refl s)
    have h2 : EndsKept s2 s := .trans (.of_phn rfl) h1
    have h4 : EndsKept s4 s :=
      (EndsKept.of_keeps (State.streamBench_keeps _ _ _)).trans ((EndsKept.of_keeps (State.modStream_keeps _ _ _)).trans h2)
    have h5 : EndsKept s5 s := (EndsKept.of_keeps (State.modStream_keeps _ _ _)).trans h4
    split
    · exact h4
    · exact (dropClosed_ends _ _).trans ((EndsKept.foldl (fun u i => .of_keeps (State.putOnPort_keeps u _ i _)) _ _).trans h5)

/-! ### Places that are given and given up. -/

/-- A verdict that places the task of this number, if it places one. -/
def Verdict.Of (id : Nat) : Verdict → Prop
  | .fits x => x.id = id
  | .exceeds _ _ => True

/-- A choice of a stack for the task of this number, if there is one. -/
def stackOf (id : Nat) : Except (Nat × Nat) Task → Prop
  | .ok x => x.id = id
  | .error _ => True

theorem rest_of (e : Env) (t : Task) (core : Option Nat) (keep : List Grant) : (e.rest t core keep).Of t.id := by
  unfold Env.rest
  extract_lets d eth gs away g kept own named n r hub reg cores
  clear_value hub reg
  split
  · exact trivial
  · split
    · exact trivial
    · split
      · exact trivial
      · split
        · exact trivial
        · split
          · exact trivial
          · cases hub with
              | none => exact trivial
              | some a =>
                cases reg with
                | none => exact trivial
                | some b => exact rfl

theorem onStack_of (e : Env) (t : Task) (m : Nat) : stackOf t.id (e.onStack t m) := by
  unfold Env.onStack
  extract_lets
  split
  · exact trivial
  · split
    · exact trivial
    · split
      · exact trivial
      · exact rfl

theorem hbms_of (e : Env) (t : Task) (region : Nat) : stackOf t.id (e.hbms t region) := by
  unfold Env.hbms
  split
  · exact onStack_of e t _
  · split
    next x hx =>
      have h := onStack_of e t (2 * region)
      rw [hx] at h
      exact h
    next =>
      split
      next x hx =>
        have h := onStack_of e t (2 * region + 1)
        rw [hx] at h
        exact h
      next => exact trivial

theorem finish_of (e : Env) (t : Task) (region : Nat) (core : Option Nat) (keep : List Grant) : (e.finish t region core keep).Of t.id := by
  have h := hbms_of e t region
  unfold Env.finish
  split
  next => exact trivial
  next x hx =>
    rw [hx] at h
    have hid : x.id = t.id := h
    rw [← hid]
    exact rest_of e x core keep

theorem tryPicks_of (e : Env) (keep : List Grant) {id : Nat} {xs : List Task} (hxs : ∀ y ∈ xs, y.id = id) (bad : Option (Nat × Nat)) :
    (e.tryPicks keep xs bad).Of id := by
  induction xs generalizing bad with
  | nil =>
    cases bad with
    | none => exact trivial
    | some c => exact trivial
  | cons y ys ih =>
    have h := finish_of e y (y.pipes.headD 0 / 3) none keep
    rw [hxs y List.mem_cons_self] at h
    rw [Env.tryPicks]
    split
    next x hx =>
      rw [hx] at h
      exact h
    next => exact ih (fun z hz => hxs z (List.mem_cons_of_mem _ hz)) _

theorem all_ite {α : Type} {p : α → Bool} {c : Prop} [Decidable c] {a b : Option α} (ha : a.all p = true) (hb : b.all p = true) :
    (if c then a else b).all p = true := by
  split
  · exact ha
  · exact hb

theorem pick_of {e : Env} {t x : Task} {ps : List Nat} (h : e.pick t ps = some x) : x.id = t.id := by
  have hall : (e.pick t ps).all (fun x => decide (x.id = t.id)) = true := by
    unfold Env.pick
    extract_lets
    split
    · rfl
    · split
      · rfl
      · split
        · rfl
        · exact all_ite rfl (all_ite rfl (decide_eq_true rfl))
  rw [h] at hall
  exact of_decide_eq_true hall

/-- A task that is given a place keeps its number. -/
theorem place_of (e : Env) (t : Task) (keep : List Grant) : (e.place t keep).Of t.id := by
  unfold Env.place
  extract_lets bare d picks core
  split
  · split
    · exact rest_of e _ none keep
    · exact trivial
  · split
    · split
      · exact trivial
      · refine tryPicks_of e keep (fun y hy => ?_) none
        obtain ⟨ps, -, hpick⟩ := List.mem_filterMap.1 hy
        exact (pick_of hpick).trans rfl
    · exact finish_of e bare _ core keep

theorem place_id {e : Env} {t x : Task} {keep : List Grant} (h : e.place t keep = .fits x) : x.id = t.id := by
  have hof := place_of e t keep
  rw [h] at hof
  exact hof

/-- A task whose memory is dropped is in the state it was in, and so are the others. -/
theorem dropMemory_ends (s : State) (id : Nat) :
    EndsKept (s.dropMemory id) s ∧ ∀ k, s.task id = some k → ∃ k', (s.dropMemory id).task id = some k' ∧ k'.st = k.st := by
  unfold State.dropMemory
  cases ht : s.task id with
  | none => exact ⟨.refl s, fun k hk => nomatch hk⟩
  | some t =>
    dsimp -zeta only
    extract_lets slot s1 s2
    have h2 : s2.phn.tasks = s.phn.tasks := rfl
    have hid : t.id = id := task_id ht
    have htask : s2.task t.id = some t := (task_of_tasks h2 _).trans (hid.symm ▸ ht)
    have hends := setTask_ends (o := t) (s := s2)
      (x := { t with hasMem := false, pieces := [], grants := t.grants.filter (fun g => decide (g.cls ≠ 3)), memLost := true })
    refine ⟨(hends htask fun _ => ⟨rfl, rfl, rfl⟩).trans (.of_tasks h2), fun k hk => ?_⟩
    obtain rfl := Option.some.inj hk
    have hsame := task_setTask_same s2
      { t with hasMem := false, pieces := [], grants := t.grants.filter (fun g => decide (g.cls ≠ 3)), memLost := true }
    exact ⟨_, (congrArg _ hid.symm).trans hsame, rfl⟩

/-- A task that is live is placed. -/
theorem commitPlace_ends {s : State} {x o : Task} (ho : s.task x.id = some o) (hlive : o.st.live = true) : EndsKept (s.commitPlace x) s := by
  unfold State.commitPlace
  extract_lets moved s1 y s2 s3 
  obtain ⟨h1, o1, ho1, hlive1⟩ : EndsKept s1 s ∧ ∃ o1, s1.task x.id = some o1 ∧ o1.st.live = true := by
    by_cases hm : moved = true
    · rw [show s1 = s.dropMemory x.id from if_pos hm]
      obtain ⟨hends, hst⟩ := dropMemory_ends s x.id
      obtain ⟨o1, ho1, hst⟩ := hst o ho
      exact ⟨hends, o1, ho1, hst ▸ hlive⟩
    · rw [show s1 = s from if_neg hm]
      exact ⟨.refl s, o, ho, hlive⟩
  have h2 : EndsKept (s1.setTask y) s := (setTask_ends (x := y) ho1 fun h => nomatch h.symm.trans hlive1).trans h1
  have h3 : EndsKept s2 s :=
    (EndsKept.of_keeps (State.bumpEpoch_keeps _)).trans ((EndsKept.of_keeps (State.takeRings_keeps _ _)).trans h2)
  have h4 : EndsKept s3 s := .ite h3 ((EndsKept.of_keeps (State.openStream_keeps _ _ _)).trans h3)
  exact (EndsKept.of_keeps (State.refreshPhn_keeps _)).trans ((EndsKept.of_keeps (State.refreshInputs_keeps _ _)).trans h4)

theorem readmitOne_ends (s : State) (id : Nat) : EndsKept (s.readmitOne id) s := by
  unfold State.readmitOne
  split
  · exact .refl s
  next t ht =>
    split
    · exact .refl s
    next hsus =>
      split
      next x hx =>
        have hst : t.st = .suspended := Decidable.not_not.1 fun h => hsus (.inl h)
        have hid : x.id = id := (place_id hx).trans (task_id ht)
        refine .ite (.refl s) ((notify_ends _ _ _ _ _).trans (commitPlace_ends (o := t) ?_ (hst ▸ rfl)))
        exact (congrArg s.task hid).trans ht
      next => exact .refl s

theorem readmit_ends (s : State) : EndsKept s.readmit s := .foldl readmitOne_ends _ s

theorem leavePipes_ends (s : State) (t : Task) : EndsKept (s.leavePipes t) s := by
  unfold State.leavePipes
  extract_lets others rest keep gone s1 red s2 s3 pass
  have h1 : EndsKept s1 s := .foldl (fun u k => .of_keeps (State.stopPage_keeps u k)) _ s
  have h2 : EndsKept s2 s :=
    .ite h1 (.ite ((EndsKept.of_keeps (State.applyAll_keeps _ _)).trans h1)
      (.ite ((EndsKept.of_keeps (State.applyAll_keeps _ _)).trans h1) h1))
  have h3 : EndsKept s3 s := .ite ((EndsKept.of_keeps (State.applyAll_keeps _ _)).trans h2) h2
  split
  · exact .ite (.trans (.foldl (fun u p => .of_keeps (State.disconnect_keeps u p)) _ _) h3) h3
  · exact (modTask_ends s3 _ (f := fun y => { y with grants := pass ++ y.grants }) fun _ => ⟨rfl, rfl, rfl, rfl⟩).trans h3

/-- A task that fails has failed with its code, whatever then follows of the release of its place. -/
theorem giveUp_task (s : State) (t : Task) {st : TaskState} (hst : st.live = false) (why : Nat) :
    ∃ k, (s.giveUp t st why).task t.id = some k ∧ k.st = st ∧ k.code = t.code ∧ k.sub = t.sub := by
  unfold State.giveUp
  extract_lets s1 s2 s3 s4 s5 s6 s7
  have h3 : s3.task t.id = some { t with st := st, why := why } := task_setTask_same s2 { t with st := st, why := why }
  have h4 : EndsKept s4 s3 := (EndsKept.of_keeps (State.dropRings_keeps _ _ _)).trans (leavePipes_ends _ _)
  have h5 : EndsKept s5 s4 := .ite (.of_keeps (State.coresRelease_keeps _ _)) (.refl s4)
  have h6 : EndsKept s6 s5 := .ite (.of_keeps (State.releaseDisplay_keeps _)) (.refl s5)
  have h7 : EndsKept s7 s6 := by
    change EndsKept (s6.modTask t.id _) s6
    exact modTask_ends s6 t.id fun _ => ⟨rfl, rfl, rfl, rfl⟩
  have h8 : EndsKept ((s7.refreshInputs (dCHANNEL t.desc)).bumpEpoch) s7 :=
    (EndsKept.of_keeps (State.bumpEpoch_keeps _)).trans (.of_keeps (State.refreshInputs_keeps _ _))
  have h := h8.trans (h7.trans (h6.trans (h5.trans h4)))
  clear_value s2 s7
  exact h t.id _ h3 hst

/-- A live task that fails has failed with its code and sub-reason (R310). -/
theorem failTask_task {s : State} {id : Nat} {t : Task} (ht : s.task id = some t) (hlive : t.st.live = true) (code sub : Nat) :
    ∃ k, (s.failTask id code sub).task id = some k ∧ k.st = .failed ∧ k.code = code ∧ k.sub = sub := by
  unfold State.failTask State.endTask
  rw [ht]
  dsimp -zeta only
  rw [hlive, if_neg (show ¬(!true) = true from Bool.false_ne_true)]
  extract_lets s1 s2 src1 src2 s3 reason s4 s5
  obtain ⟨k, hk, hst, hcode, hsub⟩ := giveUp_task s1 { t with code := code, sub := sub } (st := .failed) rfl 0
  have hid : t.id = id := task_id ht
  have h2 : EndsKept s2 (s1.giveUp { t with code := code, sub := sub } .failed 0) := .of_keeps (State.repoint_keeps _ _ _)
  clear_value s2
  have h3 : EndsKept s3 s2 := .of_tasks rfl
  clear_value s3
  have h4 : EndsKept s4 s3 := closeStream_ends _ _ _ _ _ _
  have h5 : EndsKept s5 s4 := .ite (notify_ends _ _ _ _ _) (.ite (notify_ends _ _ _ _ _) (.refl s4))
  have h6 : EndsKept s5.readmit.refreshPhn s5 := (EndsKept.of_keeps (State.refreshPhn_keeps _)).trans (readmit_ends s5)
  have h := h6.trans (h5.trans (h4.trans (h3.trans h2)))
  clear_value s5
  obtain ⟨k', hk', hst', hcode', hsub'⟩ := h id k ((congrArg _ hid.symm).trans hk) (hst ▸ rfl)
  exact ⟨k', hk', hst'.trans hst, hcode'.trans hcode, hsub'.trans hsub⟩

/-- A flow that fails fails the live task of its stream (R492). -/
theorem flowFailed_task {s : State} {task : Nat} (hlive : (s.task task).any (·.st.live) = true) (port code sub : Nat) :
    ((s.flowFailed task port code sub).task task).map (fun k => (k.st, k.code, k.sub)) = some (.failed, code, sub) := by
  obtain ⟨t, ht, hlive⟩ := (Option.any_eq_true _ _).1 hlive
  unfold State.flowFailed
  extract_lets s1 s2
  have h1 : s1.task task = some t := (task_of_tasks (congrArg Phoin.tasks ((State.modFlow_keeps s task port _).phn rfl)) _).trans ht
  obtain ⟨k, hk, hst, hcode, hsub⟩ := failTask_task h1 hlive code sub
  have h2 : EndsKept ((s2.modPort task port fun p => { p with queue := [] }).dropClosed task) s2 :=
    (dropClosed_ends _ _).trans (.of_keeps (State.modPort_keeps _ _ _ _))
  obtain ⟨k', hk', hst', hcode', hsub'⟩ := h2 task k hk (hst ▸ rfl)
  rw [hk', Option.map_some, hst', hcode', hsub', hst, hcode, hsub]

/-! ### The flows of LSA (R487-R492). -/

/-- The flow of a task's stream at a port; the stream is closing or not. -/
def FlowIs (s : State) (task port : Nat) (closing : Bool) (f : Flow) : Prop :=
  ∃ x p, s.stream task = some x ∧ x.port port = some p ∧ x.closing = closing ∧ p.flow = f

theorem FlowIs.get {s : State} {task port : Nat} {closing : Bool} {f : Flow} (h : FlowIs s task port closing f) {α : Type} (g : Flow → α) :
    (s.portOf task port).map (fun p => g p.flow) = some (g f) := by
  obtain ⟨x, p, hx, hp, -, rfl⟩ := h
  rw [State.portOf, hx, Option.bind_some, hp, Option.map_some]

theorem FlowIs.of_streams {s t : State} {task port : Nat} {closing : Bool} {f : Flow} (h : FlowIs s task port closing f)
    (hs : t.streams = s.streams) : FlowIs t task port closing f := by
  obtain ⟨x, p, hx, hp, hc, hf⟩ := h
  refine ⟨x, p, ?_, hp, hc, hf⟩
  rw [← hx, State.stream, State.stream, hs]

theorem FlowIs.of_portOf {s : State} {task port : Nat} {p : StreamPort} (h : s.portOf task port = some p) :
    ∃ closing, FlowIs s task port closing p.flow := by
  obtain ⟨x, hx, hp⟩ := Option.bind_eq_some_iff.1 h
  exact ⟨x.closing, x, p, hx, hp, rfl, rfl⟩

theorem FlowIs.modPort {s : State} {task port : Nat} {closing : Bool} {f f' : Flow} (h : FlowIs s task port closing f)
    {g : StreamPort → StreamPort} (hg : ∀ p, (g p).index = p.index) (hf : ∀ p, p.flow = f → (g p).flow = f') :
    FlowIs (s.modPort task port g) task port closing f' := by
  obtain ⟨x, p, hx, hp, hc, hflow⟩ := h
  exact ⟨_, g p, stream_modStream hx rfl, find_port_map hp hg, hc, hf p hflow⟩

theorem FlowIs.modFlow {s : State} {task port : Nat} {closing : Bool} {f : Flow} (h : FlowIs s task port closing f) (g : Flow → Flow) :
    FlowIs (s.modFlow task port g) task port closing (g f) :=
  h.modPort (fun _ => rfl) fun _ hp => congrArg g hp

theorem FlowIs.modRec {s : State} {task port : Nat} {closing : Bool} {f : Flow} (h : FlowIs s task port closing f) (seq : Nat)
    (g : StreamRec → StreamRec) : FlowIs (s.modRec task port seq g) task port closing f :=
  h.modPort (fun _ => rfl) fun _ hp => hp

theorem FlowIs.foldl {α : Type} {g : State → α → State} {task port : Nat} {closing : Bool} {f : Flow}
    (hg : ∀ s a, FlowIs s task port closing f → FlowIs (g s a) task port closing f) (xs : List α) {s : State}
    (h : FlowIs s task port closing f) : FlowIs (xs.foldl g s) task port closing f := by
  induction xs generalizing s with
  | nil => exact h
  | cons a xs ih => exact ih (hg s a h)

/-- A flow whose stream is not closing does not close. -/
theorem closeFlow_open {s : State} {task port : Nat} {f : Flow} (h : FlowIs s task port false f) : s.closeFlow task port = s := by
  obtain ⟨x, p, hx, hp, hc, -⟩ := h
  unfold State.closeFlow
  rw [hx]
  dsimp only
  rw [hp]
  exact if_neg fun hcl => Bool.noConfusion (hc.symm.trans hcl.1)

theorem FlowIs.dropClosed {s : State} {task port : Nat} {f : Flow} (h : FlowIs s task port false f) : FlowIs (s.dropClosed task)
    task port false f := by
  have hsame : s.dropClosed task = s := by
    obtain ⟨x, p, hx, hp, hc, -⟩ := h
    exact dropClosed_open hx hc
  rw [hsame]
  exact h

theorem refreshFlows_streams (s : State) : s.refreshFlows.streams = s.streams := rfl

/-- A datagram that the flow takes. -/
theorem lsaReceive_takes {s : State} {port type : Nat} {b : List Byte} {x : Stream} {p : StreamPort} (h : s.takesLsa port type b x p)
    (k : State → Stream → StreamPort → State) : s.lsaReceive port type b k = k s x p := by
  obtain ⟨hx, hp, hdest, hprof, hup, hmagic, hversion, htype, hport, hlength, hcheck⟩ := h
  unfold State.lsaReceive
  dsimp only
  rw [hx]
  dsimp only
  rw [hp]
  dsimp only
  rw [if_neg, if_neg]
  · rintro (h | h | h | h | h | ⟨h, -⟩)
    · exact h hmagic
    · exact h hversion
    · exact h htype
    · exact h hport
    · exact h hlength
    · exact h hcheck
  · rintro (h | h | h)
    · exact h hdest
    · rw [hprof] at h
      exact Bool.noConfusion h
    · rw [hup] at h
      exact Bool.noConfusion h

theorem takesLsa_flow {s : State} {port type : Nat} {b : List Byte} {x : Stream} {p : StreamPort} (h : s.takesLsa port type b x p) :
    FlowIs s x.task port x.closing p.flow := by
  obtain ⟨hx, hp, -⟩ := h
  exact ⟨x, p, (congrArg s.stream (stream_task hx)).trans hx, hp, rfl, rfl⟩

theorem lsaAccept_effect {s : State} {port : Fin 4} {payload : List (BitVec 8)} {x : Stream} {p : StreamPort}
    (h : s.takesLsa port 2 payload x p) (hst : p.flow.st = .opening) :
    ∃ t, exec (.lsaAccept port payload) s = .next t ∧ (t.portOf x.task port).map (·.flow.st) = some .open0 ∧
      (t.portOf x.task port).map (·.flow.rwnd) = some (beAt payload 16 4 * 1024) := by
  have hflow := (takesLsa_flow h).modFlow fun f => { f with st := .open0, heardAt := s.six, rwnd := beAt payload 16 4 * 1024 }
  refine ⟨s.modFlow x.task port fun f => { f with st := .open0, heardAt := s.six, rwnd := beAt payload 16 4 * 1024 }, ?_,
    hflow.get (·.st), hflow.get (·.rwnd)⟩
  change execLsaAccept port payload s = _
  unfold execLsaAccept
  rw [lsaReceive_takes h]
  exact congrArg Host.Outcome.next (if_pos hst)

/-- An acknowledgement of all that a flow has sent. -/
theorem lsaAck_all {s : State} {task port cum sack : Nat} {f : Flow} (h : FlowIs s task port false f)
    (hall : f.unacked.all (fun y => ackedBy cum sack y.psn) = true) (rwnd : Nat) :
    ∃ f', FlowIs (s.lsaAck task port cum sack rwnd) task port false f' ∧ f'.unacked = [] ∧ f'.heardAt = s.six := by
  obtain ⟨x, p, hx, hp, hc, rfl⟩ := h
  have hleft : p.flow.unacked.filter (fun y => !ackedBy cum sack y.psn) = [] := by
    refine List.filter_eq_nil_iff.2 fun y hy hn => ?_
    rw [List.all_eq_true.1 hall y hy] at hn
    exact Bool.noConfusion hn
  unfold State.lsaAck
  rw [hx, Option.bind_some, hp]
  dsimp -zeta only
  rw [hleft]
  extract_lets acked left left2 s1 s2 s3
  have h0 : FlowIs s task port false p.flow := ⟨x, p, hx, hp, hc, rfl⟩
  have h1 := (h0.modFlow fun f =>
    { f with heardAt := s.six, rwnd := rwnd * 1024, rto := if f.st = .stalled then s.profRto port (s.profOf task) else f.rto,
             st := if f.st = .stalled then .open0 else f.st }).modFlow fun f => { f with unacked := left2 }
  have h2 := h1.foldl (g := fun s (x : LsaPacket) => s.modRec task port x.seq fun r => { r with open0 := r.open0 - 1 })
    (fun u y hu => hu.modRec y.seq _) (acked.filter fun x => decide (0 < x.load))
  have h3 : FlowIs s3 task port false _ := h2
  rw [closeFlow_open h3]
  exact ⟨_, h3, rfl, rfl⟩

theorem lsaAck_effect {s : State} {port : Fin 4} {payload : List (BitVec 8)} {x : Stream} {p : StreamPort}
    (h : s.takesLsa port 4 payload x p) (hst : p.flow.st = .open0) (hclosing : x.closing = false)
    (hall : p.flow.unacked.all (fun y => ackedBy (beAt payload 16 4) (beAt payload 20 8) y.psn) = true) :
    ∃ t, exec (.lsaAck port payload) s = .next t ∧ (t.portOf x.task port).map (·.flow.unacked) = some [] ∧
      (t.portOf x.task port).map (·.flow.heardAt) = some s.six := by
  have hflow := takesLsa_flow h
  rw [hclosing] at hflow
  obtain ⟨f', hf', hunacked, hheard⟩ :=
    lsaAck_all (hflow.of_streams (t := s.count (keyETH port) Reg.ETH_RX_ACKS) rfl) hall (beAt payload 28 4)
  refine ⟨_, ?_, (hf'.get (·.unacked)).trans (congrArg some hunacked), (hf'.get (·.heardAt)).trans (congrArg some hheard)⟩
  change execLsaAck port payload s = _
  unfold execLsaAck
  rw [lsaReceive_takes h]
  exact congrArg Host.Outcome.next (if_pos (.inl hst))

theorem lsaClosed_effect {s : State} {port : Fin 4} {payload : List (BitVec 8)} {x : Stream} {p : StreamPort}
    (h : s.takesLsa port 6 payload x p) (hst : p.flow.st = .closing) (hclosing : x.closing = false) :
    ∃ t, exec (.lsaClosed port payload) s = .next t ∧ (t.portOf x.task port).map (·.flow.st) = some .closed := by
  have hflow := takesLsa_flow h
  rw [hclosing] at hflow
  have hend := (hflow.modFlow fun f => { f with st := .closed }).dropClosed.of_streams (refreshFlows_streams _)
  refine ⟨_, ?_, hend.get (·.st)⟩
  change execLsaClosed port payload s = _
  unfold execLsaClosed
  rw [lsaReceive_takes h]
  exact congrArg Host.Outcome.next (if_pos hst)

theorem lsaReset_effect {s : State} {port : Fin 4} {payload : List (BitVec 8)} {x : Stream} {p : StreamPort}
    (h : s.takesLsa port 7 payload x p) : exec (.lsaReset port payload) s = .next (s.flowFailed x.task port codeFAULT 0x02) :=
  congrArg Host.Outcome.next (lsaReceive_takes h fun s t _ => s.flowFailed t.task port codeFAULT 0x02)

theorem modFlow_only (s : State) (task port : Nat) (f : Flow → Flow) : s.modFlow task port f = { s with streams :=
    (s.modFlow task port f).streams } := by
  unfold State.modFlow State.modPort State.modStream
  split
  · rfl
  · rfl

@[simp] theorem modFlow_six (s : State) (task port : Nat) (f : Flow → Flow) : (s.modFlow task port f).six = s.six :=
  (congrArg State.six (modFlow_only s task port f)).trans rfl

@[simp] theorem modFlow_out (s : State) (task port : Nat) (f : Flow → Flow) : (s.modFlow task port f).out = s.out :=
  (congrArg State.out (modFlow_only s task port f)).trans rfl

theorem advanceTo_streams (s : State) (six : Nat) : (s.advanceTo six).streams = s.streams := rfl

theorem advanceTo_stream (s : State) (six task : Nat) : (s.advanceTo six).stream task = s.stream task := rfl

theorem advanceTo_task (s : State) (six id : Nat) : (s.advanceTo six).task id = s.task id := rfl

theorem advanceTo_out (s : State) (six : Nat) : (s.advanceTo six).out = s.out := rfl

theorem length_emitted (s : State) (o : Output) : (s.emit o).out.length = s.out.length + 1 := List.length_append

theorem modFlow_sendOpen {s : State} {task port : Nat} {c : Bool} {f : Flow} (h : FlowIs s task port c f) (g : Flow → Flow) :
    FlowIs ((s.modFlow task port g).sendOpen task port) task port c (g f) ∧
      ((s.modFlow task port g).sendOpen task port).six = s.six ∧ ((s.modFlow task port g).sendOpen task port).out.length = s.out.length + 1 :=
  ⟨(h.modFlow g).of_streams rfl, modFlow_six s task port g,
    (length_emitted _ _).trans (congrArg (fun o : List Output => o.length + 1) (modFlow_out s task port g))⟩

theorem modFlow_sendClose {s : State} {task port : Nat} {c : Bool} {f : Flow} (h : FlowIs s task port c f) (g : Flow → Flow) :
    FlowIs ((s.modFlow task port g).sendClose task port) task port c (g f) ∧
      ((s.modFlow task port g).sendClose task port).six = s.six ∧ ((s.modFlow task port g).sendClose task port).out.length = s.out.length + 1 := by
  have h1 := h.modFlow g
  obtain ⟨x, p, hx, hp, -⟩ := id h1
  unfold State.sendClose
  rw [hx, Option.bind_some, hp]
  exact ⟨h1.of_streams rfl, modFlow_six s task port g,
    (length_emitted _ _).trans (congrArg (fun o : List Output => o.length + 1) (modFlow_out s task port g))⟩

theorem lsaOpenRepeat_effect {s : State} {task : BitVec 32} {port : Fin 4} {p : StreamPort} (hp : s.portOf task.toNat port = some p)
    (hst : p.flow.st = .opening) :
    ∃ t, exec (.lsaOpenRepeat task port) s = .next t ∧ (t.portOf task.toNat port).map (·.flow.sinceAt) = some t.six ∧
      t.out.length = s.out.length + 1 := by
  obtain ⟨c, hflow⟩ := FlowIs.of_portOf hp
  have heffect (u : State) (hs : u.streams = s.streams) (ho : u.out = s.out) (t : State)
      (ht : t = (u.modFlow task.toNat port fun f => { f with sinceAt := u.six }).sendOpen task.toNat port) :
      (t.portOf task.toNat port).map (·.flow.sinceAt) = some t.six ∧ t.out.length = s.out.length + 1 := by
    obtain ⟨h1, hsix, hout⟩ := modFlow_sendOpen (hflow.of_streams hs) fun f => { f with sinceAt := u.six }
    rw [ht]
    exact ⟨(h1.get (·.sinceAt)).trans (congrArg some hsix.symm), ho ▸ hout⟩
  refine ⟨_, ?_, heffect (s.advanceTo (p.flow.sinceAt + 10 * sixPerMs)) (advanceTo_streams _ _) (advanceTo_out _ _) _ rfl⟩
  change execLsaOpenRepeat task port s = _
  unfold execLsaOpenRepeat
  rw [show (s.stream task.toNat).bind (·.port port) = some p from hp]
  exact if_pos hst

theorem lsaRtoExpiry_closing {s : State} {task : BitVec 32} {port : Fin 4} {p : StreamPort} (psn : BitVec 32)
    (hp : s.portOf task.toNat port = some p) (hst : p.flow.st = .closing) :
    ∃ t, exec (.lsaRtoExpiry task port psn) s = .next t ∧ (t.portOf task.toNat port).map (·.flow.heardAt) = some t.six ∧
      t.out.length = s.out.length + 1 := by
  obtain ⟨c, hflow⟩ := FlowIs.of_portOf hp
  have heffect (u : State) (hs : u.streams = s.streams) (ho : u.out = s.out) (t : State)
      (ht : t = (u.modFlow task.toNat port fun f => { f with heardAt := u.six }).sendClose task.toNat port) :
      (t.portOf task.toNat port).map (·.flow.heardAt) = some t.six ∧ t.out.length = s.out.length + 1 := by
    obtain ⟨h1, hsix, hout⟩ := modFlow_sendClose (hflow.of_streams hs) fun f => { f with heardAt := u.six }
    rw [ht]
    exact ⟨(h1.get (·.heardAt)).trans (congrArg some hsix.symm), ho ▸ hout⟩
  refine ⟨_, ?_, heffect (s.advanceTo (p.flow.heardAt + p.flow.rto * sixPerUs)) (advanceTo_streams _ _) (advanceTo_out _ _) _ rfl⟩
  change execLsaRtoExpiry task port psn s = _
  unfold execLsaRtoExpiry
  rw [show (s.stream task.toNat).bind (·.port port) = some p from hp]
  exact if_pos hst

/-- What is found first is found by a narrower search that it passes. -/
theorem find?_narrower {α : Type} {p q : α → Bool} (hqp : ∀ z, q z = true → p z = true) {y : α} (hq : q y = true) {xs : List α}
    (h : xs.find? p = some y) : xs.find? q = some y := by
  induction xs with
  | nil => cases h
  | cons x xs ih =>
    cases hx : p x with
    | true =>
      rw [List.find?_cons_of_pos hx] at h
      rw [Option.some.inj h, List.find?_cons_of_pos hq]
    | false =>
      rw [List.find?_cons_of_neg (by rw [hx]; exact Bool.false_ne_true)] at h
      rw [List.find?_cons_of_neg fun hn => Bool.noConfusion (hx.symm.trans (hqp x hn))]
      exact ih h

/-- A packet that goes again on a port that is up. -/
theorem retransmit_out {s : State} {task port : Nat} {p : StreamPort} {y : LsaPacket} (hp : s.portOf task port = some p)
    (hy : p.flow.unacked.find? (fun x => decide (x.psn = y.psn)) = some y) (hup : s.ethUp port = true) :
    (s.retransmit task port y.psn).out = s.out ++ [.ethFrame port (s.profOf task) y.bytes] := by
  unfold State.retransmit
  rw [show (s.stream task).bind (·.port port) = some p from hp]
  dsimp only
  rw [hy]
  dsimp only
  rw [hup, if_neg (show ¬(!true) = true from Bool.false_ne_true), modFlow_out]
  rfl

theorem lsaRtoExpiry_open {s : State} {task : BitVec 32} {port : Fin 4} {p : StreamPort} {psn : BitVec 32} {y : LsaPacket}
    (hp : s.portOf task.toNat port = some p) (hst : p.flow.st = .open0) (hup : s.ethUp port = true)
    (hy : p.flow.unacked.find? (fun y => decide (y.psn % 2 ^ 32 = psn.toNat)) = some y) :
    ∃ t, exec (.lsaRtoExpiry task port psn) s = .next t ∧ t.out = s.out ++ [.ethFrame port (s.profOf task.toNat) y.bytes] := by
  have hpsn : y.psn % 2 ^ 32 = psn.toNat := of_decide_eq_true (List.find?_some (p := fun y : LsaPacket => decide (y.psn % 2 ^ 32 = psn.toNat)) hy)
  have hfirst : p.flow.unacked.find? (fun x => decide (x.psn = y.psn)) = some y :=
    find?_narrower (fun z hz => decide_eq_true ((congrArg (· % 2 ^ 32) (of_decide_eq_true hz)).trans hpsn)) (decide_eq_true rfl) hy
  have hout := retransmit_out (s := s.advanceTo (y.sentAt + p.flow.rto * sixPerUs)) (task := task.toNat) hp hfirst hup
  refine ⟨State.modFlow _ task.toNat port fun f => { f with rto := if f.st = .stalled then min 100000 (2 * f.rto) else f.rto }, ?_,
    (modFlow_out _ _ _ _).trans hout⟩
  change execLsaRtoExpiry task port psn s = _
  unfold execLsaRtoExpiry
  rw [show (s.stream task.toNat).bind (·.port port) = some p from hp]
  dsimp only
  have hother : ¬p.flow.st = .closing := by
    rw [hst]
    exact FlowState.noConfusion
  rw [if_neg hother, hy]

theorem lsaDeadTimeout_effect {s : State} {task : BitVec 32} {port : Fin 4} {p : StreamPort} (hp : s.portOf task.toNat port = some p)
    (hst : p.flow.st = .open0) (hunacked : p.flow.unacked ≠ []) :
    ∃ t, exec (.lsaDeadTimeout task port) s = .next t ∧ (t.portOf task.toNat port).map (·.flow.st) = some .stalled ∧
      wbit (t.page (keyETH port)).err 17 = true := by
  obtain ⟨c, hflow⟩ := FlowIs.of_portOf hp
  have hsome : p.flow.unacked.isEmpty = false := List.isEmpty_eq_false_iff.2 hunacked
  have heffect (u : State) (hs : u.streams = s.streams) (t : State)
      (ht : t = (u.modFlow task.toNat port fun f => { f with st := .stalled, sinceAt := u.six }).setErr (keyETH port) 17) :
      (t.portOf task.toNat port).map (·.flow.st) = some .stalled ∧ wbit (t.page (keyETH port)).err 17 = true := by
    have h1 := (hflow.of_streams hs).modFlow fun f => { f with st := .stalled, sinceAt := u.six }
    rw [ht]
    exact ⟨(h1.of_streams ((setErr_quiet _ (keyETH port) 17).get (·.streams))).get (·.st), wbit_setErr _ _ (by decide)⟩
  refine ⟨_, ?_, heffect (s.advanceTo (p.flow.heardAt + s.profDead port (s.profOf task.toNat) * sixPerMs)) (advanceTo_streams _ _) _ rfl⟩
  change execLsaDeadTimeout task port s = _
  unfold execLsaDeadTimeout
  rw [show (s.stream task.toNat).bind (·.port port) = some p from hp]
  dsimp only
  rw [hsome, if_pos ⟨.inr hst, rfl⟩]

theorem lsaFailTimeout_effect {s : State} {task : BitVec 32} {port : Fin 4} {p : StreamPort} (hp : s.portOf task.toNat port = some p)
    (hst : p.flow.st = .stalled) :
    exec (.lsaFailTimeout task port) s =
      .next ((s.advanceTo (p.flow.sinceAt + s.profFail port (s.profOf task.toNat)
          * 1000 * sixPerMs)).flowFailed task.toNat port codeTIMEOUT 0x01) := by
  change execLsaFailTimeout task port s = _
  unfold execLsaFailTimeout
  rw [show (s.stream task.toNat).bind (·.port port) = some p from hp]
  exact if_pos hst

/-- A packet that a port's stream sends. -/
theorem sendVita_effect {s : State} {task port : Nat} {x : Stream} {p : StreamPort} (hx : s.stream task = some x) (hp : x.port port = some p)
    (seq load : Nat) (vita : List Byte) :
    (∃ x' p', (s.sendVita task port seq load vita).stream task = some x' ∧ x'.port port = some p') ∧
      (s.sendVita task port seq load vita).six = s.six ∧ (s.sendVita task port seq load vita).out.length = s.out.length + 1 := by
  unfold State.sendVita
  extract_lets prof s1
  have hx1 : s1.stream task = some x := hx
  have hout1 : s1.out = s.out := rfl
  have hsix1 : s1.six = s.six := rfl
  clear_value s1
  split
  · rw [hx1, Option.bind_some, hp]
    dsimp -zeta only
    extract_lets body y s2
    have h2 : FlowIs s2 task port x.closing _ := FlowIs.modFlow ⟨x, p, hx1, hp, rfl, rfl⟩ _
    obtain ⟨x', p', hx', hp', -⟩ := h2.of_streams (t := s2.emit (.ethFrame port prof y.bytes)) rfl
    refine ⟨⟨x', p', hx', hp'⟩, (modFlow_six s1 task port _).trans hsix1, (length_emitted _ _).trans ?_⟩
    exact congrArg (fun o : List Output => o.length + 1) ((modFlow_out s1 task port _).trans hout1)
  · exact ⟨⟨x, p, hx1, hp⟩, hsix1, (length_emitted _ _).trans (congrArg (fun o : List Output => o.length + 1) hout1)⟩

theorem modPort_only (s : State) (task port : Nat) (f : StreamPort → StreamPort) :
    s.modPort task port f = { s with streams := (s.modPort task port f).streams } := by
  unfold State.modPort State.modStream
  split
  · rfl
  · rfl

theorem sendContext_effect {s : State} {task port : Nat} {x : Stream} {p : StreamPort} (hx : s.stream task = some x) (hp : x.port port = some p)
    (seq six : Nat) (body : List Byte) (changed : Bool) :
    ((s.sendContext task p seq six body changed).portOf task port).map (·.contextAt) = some s.six ∧
      (s.sendContext task p seq six body changed).six = s.six ∧
      (s.sendContext task p seq six body changed).out.length = s.out.length + 1 := by
  unfold State.sendContext
  rw [port_index hp]
  extract_lets prof vita
  obtain ⟨⟨x', p', hx', hp'⟩, hsix, hout⟩ := sendVita_effect hx hp seq 0 vita
  generalize s.sendVita task port seq 0 vita = u at hx' hsix hout
  refine ⟨?_, (congrArg State.six (modPort_only u task port _)).trans hsix, (congrArg (fun v => v.out.length)
      (modPort_only u task port _)).trans hout⟩
  rw [portOf_modPort hx' hp' (by intro; rfl)]
  rfl

theorem contextTimer_effect {s : State} {task : BitVec 32} {port : Fin 4} {p : StreamPort} (hp : s.portOf task.toNat port = some p)
    (hst : p.flow.st = .open0) (hcontext : p.context ≠ []) (hasks : s.profFlag port (s.profOf task.toNat) 4 = true) (hup : s.ethUp port = true) :
    ∃ t, exec (.contextTimer task port) s = .next t ∧ (t.portOf task.toNat port).map (·.contextAt) = some t.six ∧
      t.out.length = s.out.length + 1 := by
  obtain ⟨x, hx, hport⟩ := Option.bind_eq_some_iff.1 hp
  have heffect (u : State) (hu : u.streams = s.streams) (hout : u.out = s.out) (seq six : Nat) :
      ((u.sendContext task.toNat p seq six p.context false).portOf task.toNat port).map (·.contextAt) =
          some (u.sendContext task.toNat p seq six p.context false).six ∧
        (u.sendContext task.toNat p seq six p.context false).out.length = s.out.length + 1 := by
    have hux : u.stream task.toNat = some x := by rw [← hx, State.stream, State.stream, hu]
    obtain ⟨hat, hsix, hlen⟩ := sendContext_effect hux hport seq six p.context false
    exact ⟨hat.trans (congrArg some hsix.symm), hlen.trans (congrArg (fun o : List Output => o.length + 1) hout)⟩
  obtain ⟨seq, hexec⟩ : ∃ seq, exec (.contextTimer task port) s = .next ((s.advanceTo (p.contextAt + 1000 * sixPerMs)).sendContext task.toNat p seq
      (s.advanceTo (p.contextAt + 1000 * sixPerMs)).six p.context false) := by
    apply Exists.intro
    change execContextTimer task port s = _
    unfold execContextTimer
    rw [show (s.stream task.toNat).bind (·.port port) = some p from hp]
    dsimp only
    rw [hst]
    exact if_pos ⟨hasks, hcontext, hup, Bool.or_true _⟩
  exact ⟨_, hexec, heffect _ (advanceTo_streams _ _) (advanceTo_out _ _) seq _⟩

theorem unknownFrame_effect {s : State} {port : Fin 4} (hup : s.ethUp port = true) :
    ∃ t, exec (.unknownFrame port) s = .next t ∧ t.rf (keyETH port) Reg.ETH_RX_DROP = satInc 0xFFFFFFFF (s.rf (keyETH port) Reg.ETH_RX_DROP) := by
  refine ⟨s.ethDrop port, congrArg Host.Outcome.next (if_pos hup), ?_⟩
  refine (rf_wf_same s (keyETH port) _ (by decide) (by decide)).trans (Nat.mod_eq_of_lt ?_)
  have hbelow : s.rf (keyETH port) Reg.ETH_RX_DROP < 2 ^ 32 := bitsOf_lt _ _ _
  change satInc 0xFFFFFFFF (s.rf (keyETH port) Reg.ETH_RX_DROP) < 2 ^ 32
  unfold satInc
  split
  · omega
  · omega

/-! ### Playback (R497-R501). -/

theorem playback_modPlayback (s : State) (k : Task) (f : Playback → Playback) : (s.modPlayback k f).playback k = f (s.playback k) :=
  mget_mput_same _ _ _ _

/-- The payload of a record that is neither encrypted nor compressed. -/
theorem openPayload_plain {s : State} {k : Task} {record : List Byte} (h : nbit (u32At record 4) 9 = false ∧ nbit (u32At record 4) 10 = false) :
    s.openPayload k record = some (s, record.drop 64) := by
  unfold State.openPayload
  dsimp only
  rw [h.1, h.2]
  rfl

theorem feed_effect (s : State) (k : Task) (kind seq : Nat) (payload : List Byte) :
    ((s.feed k kind seq payload).playback k).nextSeq = seq + 1 ∧
      ((s.feed k kind seq payload).playback k).samples.length = (s.playback k).samples.length + u32At payload 0x10 := by
  unfold State.feed
  extract_lets p n period first iq gap
  rw [playback_modPlayback]
  refine ⟨rfl, ?_⟩
  rw [List.length_append, List.length_map, List.length_range]

theorem playbackRecord_effect {s : State} {task streamId : BitVec 32} {record : List (BitVec 8)} {k : Task}
    (hk : s.task task.toNat = some k) (htype : dTYPE k.desc = 5) (hst : k.st = .running) (hkind : dSRC_KIND k.desc = 2)
    (hhead : 64 ≤ record.length) (hlength : record.length = 64 + u32At record 0x38)
    (hmagic : u16At record 0 = 0x474C ∧ byteAt record 2 = 1 ∧ byteAt record 3 = 1)
    (hcheck : u32At record 0x3C = crc32cFrom (Nat.xor streamId.toNat (u64At record 0x30 % 2 ^ 32)) (record.take 0x3C ++ record.drop 64))
    (hseq : (s.playback k).nextSeq ≤ u64At record 0x30) (hplain : nbit (u32At record 4) 9 = false ∧ nbit (u32At record 4) 10 = false) :
    exec (.playbackRecord task streamId record) s = .next (s.feed k 1 (u64At record 0x30) (record.drop 64)) := by
  obtain ⟨hmark, hversion, hiq⟩ := hmagic
  change execPlaybackRecord task streamId record s = _
  unfold execPlaybackRecord
  rw [hk]
  dsimp only
  rw [if_neg, hkind, if_neg, if_pos rfl, openPayload_plain hplain, hiq, hplain.1, ← hcheck]
  · have hgood : (decide (64 ≤ record.length) && decide (u16At record 0 = 0x474C ∧ byteAt record 2 = 1) &&
        decide (record.length = 64 + u32At record 0x38) && decide (u32At record 0x3C = u32At record 0x3C)) = true := by
      rw [decide_eq_true hhead, decide_eq_true ⟨hmark, hversion⟩, decide_eq_true hlength, decide_eq_true rfl]
      rfl
    rw [hgood, Bool.not_true, if_neg Bool.false_ne_true, if_neg (Nat.not_lt.2 hseq), if_neg fun h => h.1 rfl]
    rfl
  · rintro ⟨h, -⟩
    exact absurd h (by decide)
  · rintro (h | h)
    · exact h htype
    · exact h hst

theorem fedPipes_of_phn {t s : State} (h : t.phn = s.phn) (id : Nat) : t.fedPipes id = s.fedPipes id := by
  unfold State.fedPipes State.holdingTasks
  rw [h]

theorem playbackRelease_effect {s : State} {task : BitVec 32} {k : Task} {y : Nat × Int × Int} {rest : List (Nat × Int × Int)}
    (hk : s.task task.toNat = some k) (htype : dTYPE k.desc = 5) (hst : k.st = .running) (hsamples : (s.playback k).samples = y :: rest)
    (hfed : s.fedPipes k.id = []) : ∃ t, exec (.playbackRelease task) s = .next t ∧ (t.playback k).samples = rest := by
  obtain ⟨label, i, q⟩ := y
  obtain ⟨u, f, g, hexec, hu, hf⟩ : ∃ (u : State) (f : Playback → Playback) (g : State → Nat → State),
      exec (.playbackRelease task) s = .next ((u.modPlayback k f).each ((u.modPlayback k f).fedPipes k.id) g) ∧ u.phn = s.phn ∧
        ∀ p, (f p).samples = rest := by
    refine ⟨if dPACE k.desc = 0 then s.advanceTo (k.startedAt + (label - (s.playback k).base.getD label)) else s,
      fun p => { p with samples := rest, gaps := p.gaps.filter fun g => decide (g ≠ label) },
      fun u pipe => u.playInto pipe label i q (if (s.playback k).gaps.contains label then markGAP else 0), ?_, ?_, fun _ => rfl⟩
    · change execPlaybackRelease task s = _
      unfold execPlaybackRelease
      rw [hk]
      dsimp only
      rw [if_neg, hsamples]
      · rintro (h | h)
        · exact h htype
        · exact h hst
    · split
      · rfl
      · rfl
  have hfedu : (u.modPlayback k f).fedPipes k.id = [] := (fedPipes_of_phn (t := u.modPlayback k f) hu k.id).trans hfed
  refine ⟨_, hexec, ?_⟩
  rw [hfedu]
  exact (congrArg Playback.samples (playback_modPlayback u k f)).trans (hf _)

/-- Settles O27: a datagram goes to its flow, a failed flow fails its task whatever its release then does, and a record joins the feed. -/
theorem ethernetAndPlaybackComplete : Obligations.EthernetAndPlaybackComplete := by
  unfold Obligations.EthernetAndPlaybackComplete
  refine ⟨?_, ?_, ?_, ?_, ?_, ?_, ?_, ?_, ?_, ?_, ?_, ?_, ?_⟩
  · intro s port payload x p h hst
    exact lsaAccept_effect h hst
  · intro s port payload x p h hst hclosing hall
    exact lsaAck_effect h hst hclosing hall
  · intro s port payload x p h hst hclosing
    exact lsaClosed_effect h hst hclosing
  · intro s port payload x p h
    exact ⟨_, lsaReset_effect h, fun hlive => flowFailed_task hlive port codeFAULT 0x02, rfl, rfl⟩
  · intro s task port p hp hst
    exact lsaOpenRepeat_effect hp hst
  · intro s task port p psn y hp hst hup hy
    exact lsaRtoExpiry_open hp hst hup hy
  · intro s task port p psn hp hst
    exact lsaRtoExpiry_closing psn hp hst
  · intro s task port p hp hst hunacked
    exact lsaDeadTimeout_effect hp hst hunacked
  · intro s task port p hp hst
    refine ⟨_, lsaFailTimeout_effect hp hst, fun hlive => ?_, rfl⟩
    rw [← advanceTo_task s (p.flow.sinceAt + s.profFail port (s.profOf task.toNat) * 1000 * sixPerMs)] at hlive
    exact flowFailed_task hlive port codeTIMEOUT 0x01
  · intro s task port p hp hst hcontext hasks hup
    exact contextTimer_effect hp hst hcontext hasks hup
  · intro s port hup
    exact unknownFrame_effect hup
  · intro s task streamId record k hk htype hst hkind hhead hlength hmagic hcheck hseq hplain
    obtain ⟨hnext, hsamples⟩ := feed_effect s k 1 (u64At record 0x30) (record.drop 64)
    exact ⟨_, playbackRecord_effect hk htype hst hkind hhead hlength hmagic hcheck hseq hplain, hnext, hsamples⟩
  · intro s task k y rest hk htype hst hsamples hfed
    exact playbackRelease_effect hk htype hst hsamples hfed

end Sys2Proof.Machine

namespace Sys2Proof.Machine

/-! ### What the place of a task, a stream or a migration leaves of SEC and of the power state (R572-R579, R586). -/

/-- From `s` to `t` the power state and SEC_STAT stay, and no operation of SEC begins. -/
structure SecKept (t s : State) : Prop where
  power : t.power = s.power
  stat : t.reg keySEC 0x100 = s.reg keySEC 0x100
  idle : (s.page keySEC).op = none → (t.page keySEC).op = none

namespace SecKept

theorem refl (s : State) : SecKept s s := ⟨rfl, rfl, id⟩

theorem trans {t u s : State} (h1 : SecKept t u) (h2 : SecKept u s) : SecKept t s :=
  ⟨h1.power.trans h2.power, h1.stat.trans h2.stat, fun h => h1.idle (h2.idle h)⟩

/-- Nothing of SEC's page or of the power state changes. -/
theorem of_page {t s : State} (hp : t.power = s.power) (h : t.page keySEC = s.page keySEC) : SecKept t s :=
  ⟨hp, reg_congr h 0x100, fun hi => h.symm ▸ hi⟩

/-- A state with the same pages and power state keeps as much. -/
theorem congr {t u s : State} (h : SecKept u s) (hpages : t.pages = u.pages) (hguest : t.guest = u.guest) (hpower : t.power = u.power) :
    SecKept t s := .trans (.of_page hpower (page_congr hpages hguest keySEC)) h

theorem of_steady {l : Nat} {t s : State} (h : Steady l t s) (hq : Quiet t s) : SecKept t s where
  power := hq.get (·.power)
  stat := h.reg keySEC 0x100 (.inr (.inl rfl))
  idle hi := (h.get (k := keySEC) (.inr (.inl rfl)) (·.op)).trans hi

theorem ite {p : Prop} [Decidable p] {a b s : State} (ha : SecKept a s) (hb : SecKept b s) : SecKept (if p then a else b) s := by
  split
  · exact ha
  · exact hb

theorem foldl {α : Type} {f : State → α → State} (h : ∀ s x, SecKept (f s x) s) {xs : List α} {s : State} : SecKept (xs.foldl f s) s := by
  induction xs generalizing s with
  | nil => exact .refl s
  | cons x xs ih => exact ih.trans (h s x)

theorem foldl_mem {α : Type} {f : State → α → State} {xs : List α} (h : ∀ s, ∀ x ∈ xs, SecKept (f s x) s) {s : State} :
    SecKept (xs.foldl f s) s := by
  induction xs generalizing s with
  | nil => exact .refl s
  | cons x xs ih => exact (ih fun u y hy => h u y (List.mem_cons_of_mem _ hy)).trans (h s x List.mem_cons_self)

theorem each {α : Type} {f : State → α → State} (h : ∀ s x, SecKept (f s x) s) {xs : List α} {s : State} : SecKept (s.each xs f) s := foldl h

end SecKept

/-- A page that changes, but for its registers, and on which no operation begins. -/
theorem modPage_secKept (s : State) (key : Nat) {f : Page → Page} (h : ∀ p, (f p).regs = p.regs ∧ (p.op = none → (f p).op = none)) :
    SecKept (s.modPage key f) s := by
  by_cases hk : keySEC = key
  · obtain ⟨hregs, hop⟩ := h (s.page key)
    refine ⟨rfl, reg_of_regs ?_ _, fun hi => ?_⟩
    · rw [hk, State.page_modPage]
      exact hregs
    · rw [hk] at hi ⊢
      rw [State.page_modPage]
      exact hop hi
  · exact .of_page rfl (State.page_modPage_other s f hk)

theorem setReg_secKept (s : State) {key off : Nat} (w : Word) (h : key ≠ keySEC ∨ off ≠ 0x100) : SecKept (s.setReg key off w) s := by
  have hst := setReg_raised s key off w keySEC
  obtain ⟨err, irq, regs, hpage, -⟩ := hst
  refine ⟨rfl, ?_, fun hi => (congrArg Page.op hpage).trans hi⟩
  by_cases hk : keySEC = key
  · subst hk
    exact reg_setReg_other s _ w (h.resolve_left fun hn => hn rfl).symm
  · exact reg_congr (State.page_modPage_other s _ hk) _

theorem wf_secKept (s : State) {key : Nat} {f : RegField} (v : Nat) (h : key ≠ keySEC ∨ f.off ≠ 0x100) : SecKept (s.wf key f v) s :=
  setReg_secKept s _ h

theorem wb_secKept (s : State) {key : Nat} {f : RegField} (b : Bool) (h : key ≠ keySEC ∨ f.off ≠ 0x100) : SecKept (s.wb key f b) s :=
  setReg_secKept s _ h

theorem count_secKept (s : State) {key : Nat} {f : RegField} (h : key ≠ keySEC ∨ f.off ≠ 0x100) : SecKept (s.count key f) s :=
  setReg_secKept s _ h

theorem countBy_secKept (s : State) {key : Nat} {f : RegField} (n : Nat) (h : key ≠ keySEC ∨ f.off ≠ 0x100) : SecKept (s.countBy key f n) s :=
  setReg_secKept s _ h

theorem pipe_ne_sec (p n : Nat) : keyPipe p n ≠ keySEC := by
  unfold keyPipe keySEC keyOf
  omega

theorem chanKey_ne_sec (c : Nat) : chanKey c ≠ keySEC := by
  unfold chanKey keyOf keySEC
  split
  · unfold keyOf
    omega
  · split
    · unfold keyOf
      omega
    · unfold keyOf
      omega

theorem off_ne_sec {r p : Nat} (h : p < 5 ∨ 5 < p ∨ 1 ≤ r) : keyOf r p ≠ keySEC := by
  unfold keySEC keyOf
  omega

theorem sendMsix_secKept (s : State) (v : Nat) : SecKept (s.sendMsix v) s :=
  .ite (.congr (.refl s) rfl rfl rfl) (.congr (.refl s) rfl rfl rfl)

theorem irqBit_secKept (s : State) (key i : Nat) : SecKept (s.irqBit key i) s :=
  .of_steady (l := 0) (irqBit_steady s key i) (irqBit_quiet s key i)

theorem setErr_secKept (s : State) (key bit : Nat) : SecKept (s.setErr key bit) s :=
  .of_steady (l := 0) (setErr_steady s key bit) (setErr_quiet s key bit)

theorem logPage_secKept (s : State) (key level code sub kind detail : Nat) : SecKept (s.logPage key level code sub kind detail) s :=
  .of_steady (l := 0) (logPage_steady s key level code sub kind detail) (logPage_quiet s key level code sub kind detail)

theorem endOp_secKept (s : State) (key phase code sub : Nat) : SecKept (s.endOp key phase code sub) s := by
  unfold State.endOp
  split
  · exact .refl s
  · exact (irqBit_secKept _ _ _).trans (modPage_secKept s key fun _ => ⟨rfl, fun _ => rfl⟩)

theorem emit_secKept (s : State) (o : Output) : SecKept (s.emit o) s := by
  unfold State.emit
  exact .congr (.refl _) rfl rfl rfl

theorem doneOp_secKept (s : State) (key : Nat) : SecKept (s.doneOp key) s := by
  unfold State.doneOp
  exact endOp_secKept _ _ _ _ _

theorem addReady_secKept (s : State) (src : RecSource) (r : Record) : SecKept (s.addReady src r) s := by
  unfold State.addReady
  exact .congr (.refl _) rfl rfl rfl

theorem refreshHold_secKept (s : State) : SecKept (s.refreshHold) s := by
  unfold State.refreshHold
  extract_lets
  exact .trans (wf_secKept _ _ (.inl (by decide))) (wb_secKept _ _ (.inl (by decide)))

theorem modPhn_secKept (s : State) (f : Phoin → Phoin) : SecKept (s.modPhn f) s := by
  unfold State.modPhn
  exact .congr (.refl _) rfl rfl rfl

theorem setTask_secKept (s : State) (t : Task) : SecKept (s.setTask t) s := by
  unfold State.setTask
  exact modPhn_secKept _ _

theorem modTask_secKept (s : State) (id : Nat) (f : Task → Task) : SecKept (s.modTask id f) s := by
  unfold State.modTask
  split
  · exact setTask_secKept _ _
  · exact .refl _

theorem putRing1_secKept (s : State) (r : Ring1) : SecKept (s.putRing1 r) s := by
  unfold State.putRing1
  extract_lets s1
  have h1 : SecKept s1 s := emit_secKept _ _
  exact .trans (sendMsix_secKept _ _) (.trans (modPhn_secKept _ _) h1)

theorem putNotice_secKept (s : State) (n : Notice) : SecKept (s.putNotice n) s := by
  unfold State.putNotice
  split
  · exact .trans (count_secKept _ (.inl (by decide))) (modPhn_secKept _ _)
  · exact .ite (putRing1_secKept _ _) (modPhn_secKept _ _)

theorem notify_secKept (s : State) (task cause six detail0 : Nat) : SecKept (s.notify task cause six detail0) s := by
  unfold State.notify
  extract_lets
  exact .ite (modPhn_secKept _ _) (putNotice_secKept _ _)

theorem attempt_secKept (s : State) (m : Migration) (goal : List Task) : SecKept (s.attempt m goal) s := by
  unfold State.attempt
  extract_lets _ _ _ s4
  have h4 : SecKept s4 s := modPhn_secKept _ _
  exact .trans (.foldl fun _ _ => .trans (notify_secKept _ _ _ _ _) (modTask_secKept _ _ _)) h4

theorem noteFailed_secKept (s : State) (m : Migration) (id : Nat) : SecKept (s.noteFailed m id) s := by
  unfold State.noteFailed
  exact modPhn_secKept _ _

theorem beginFrom_secKept (s : State) (ms : List Migration) : SecKept (s.beginFrom ms) s := by
  induction ms generalizing s with
  | nil => exact modPhn_secKept _ _
  | cons m rest ih =>
    unfold State.beginFrom
    split
    · exact ih s
    · split
      · exact modPhn_secKept _ _
      · split
        · exact .trans (ih _) (noteFailed_secKept _ _ _)
        · exact .trans (attempt_secKept _ _ _) (modPhn_secKept _ _)

theorem closePhoin_secKept (s : State) : SecKept (s.closePhoin) s := by
  unfold State.closePhoin
  exact .ite (.trans (irqBit_secKept _ _ _) (.trans (modPhn_secKept _ _) (wb_secKept _ _ (.inl (by decide))))) (.refl _)

theorem refreshPhn_secKept (s : State) : SecKept (s.refreshPhn) s := by
  unfold State.refreshPhn
  exact .trans (wb_secKept _ _ (.inl (by decide))) (wf_secKept _ _ (.inl (by decide)))

theorem completeAt_secKept (s : State) (opcode tag six : Nat) (a : Answer) : SecKept (s.completeAt opcode tag six a) s := by
  unfold State.completeAt
  extract_lets _ s2 s3 s4 s5
  have h2 : SecKept s2 s := count_secKept _ (.inl (by decide))
  have h3 : SecKept s3 s := .ite (.trans (count_secKept _ (.inl (by decide))) h2) h2
  have h4 : SecKept s4 s := .trans (refreshPhn_secKept _) h3
  have h5 : SecKept s5 s := .trans (putRing1_secKept _ _) h4
  exact .trans (.foldl fun _ _ => putNotice_secKept _ _) (.trans (modPhn_secKept _ _) h5)

theorem closeRings_secKept (s : State) : SecKept (s.closeRings) s := by
  unfold State.closeRings
  extract_lets s1
  have h1 : SecKept s1 s := closePhoin_secKept _
  split
  · exact .ite (.trans (doneOp_secKept _ _) h1) h1
  · exact h1

theorem completeHeld_secKept (s : State) (h : HeldCmd) (a : Answer) : SecKept (s.completeHeld h a) s := by
  unfold State.completeHeld
  extract_lets s1
  have h1 : SecKept s1 s := .trans (completeAt_secKept _ _ _ _ _) (modPhn_secKept _ _)
  split
  · exact .ite (.trans (closeRings_secKept _) h1) h1
  · exact h1

theorem modRing_secKept (s : State) (n : Nat) (f : Ring → Ring) : SecKept (s.modRing n f) s := by
  unfold State.modRing
  extract_lets _ s2
  have h2 : SecKept s2 s := .congr (.refl _) rfl rfl rfl
  exact .ite h2 (.trans (setReg_secKept _ _ (.inl (by decide))) h2)

theorem modDrive_secKept (s : State) (d : Nat) (f : Drive → Drive) : SecKept (s.modDrive d f) s := by
  unfold State.modDrive
  split
  · exact .congr (.refl _) rfl rfl rfl
  · exact .refl _

theorem ringSq_secKept (s : State) (d i : Nat) : SecKept (s.ringSq d i) s := by
  unfold State.ringSq
  split
  · exact .refl _
  · split
    · exact .refl _
    · extract_lets _ s2
      have h2 : SecKept s2 s := modDrive_secKept _ _ _
      exact .trans (emit_secKept _ _) h2

theorem nvmeIssue_secKept {s : State} {d opcode block blocks slot : Nat} {t : Nat × State} (h : s.nvmeIssue d opcode block blocks slot = some t) :
    SecKept t.2 s := by
  unfold State.nvmeIssue at h
  split at h
  · cases h
  · split at h
    · cases h
    · cases h
      exact .trans (ringSq_secKept _ _ _) (emit_secKept _ _)

theorem nvmeFlush_secKept (s : State) (d : Nat) : SecKept (s.nvmeFlush d) s := by
  unfold State.nvmeFlush
  split
  next h => exact nvmeIssue_secKept h
  next => exact .refl s

theorem refreshFlows_secKept (s : State) : SecKept (s.refreshFlows) s := by
  unfold State.refreshFlows
  exact .foldl fun _ _ => by
    extract_lets
    exact wf_secKept _ _ (.inr (by decide))

theorem refreshStr_secKept (s : State) : SecKept (s.refreshStr) s := by
  unfold State.refreshStr
  extract_lets s1 _ _ s4 _ s6
  have h1 : SecKept s1 s := wf_secKept _ _ (.inl (by decide))
  have h4 : SecKept s4 s := .trans (setReg_secKept _ _ (.inl (by decide))) h1
  have h6 : SecKept s6 s := .trans (setReg_secKept _ _ (.inl (by decide))) h4
  exact .trans (refreshFlows_secKept _) (.trans (.foldl fun _ _ => setReg_secKept _ _ (.inl (by decide))) h6)

theorem dropClosed_secKept (s : State) (task : Nat) : SecKept (s.dropClosed task) s := by
  unfold State.dropClosed
  split
  · exact .refl _
  · refine .ite ?_ ?_
    · extract_lets s1 s2 s4
      have h1 : SecKept s1 s := .ite (modRing_secKept _ _ _) (.refl _)
      have h2 : SecKept s2 s := .ite (.trans (.foldl fun _ _ => nvmeFlush_secKept _ _) h1) h1
      have h4 : SecKept s4 s := .congr (u := s2) h2 rfl rfl rfl
      exact .trans (refreshStr_secKept _) (.trans (modTask_secKept _ _ _) h4)
    · exact .refl _

theorem modStream_secKept (s : State) (task : Nat) (f : Stream → Stream) : SecKept (s.modStream task f) s := by
  unfold State.modStream
  split
  · exact .congr (.refl _) rfl rfl rfl
  · exact .refl _

theorem modPort_secKept (s : State) (task i : Nat) (f : StreamPort → StreamPort) : SecKept (s.modPort task i f) s := by
  unfold State.modPort
  exact modStream_secKept _ _ _

theorem putOnPort_secKept (s : State) (task i : Nat) (r : StreamRec) : SecKept (s.putOnPort task i r) s := by
  unfold State.putOnPort
  split
  · exact .refl _
  · extract_lets
    exact modPort_secKept _ _ _ _

theorem streamBench_secKept (s : State) (task six : Nat) : SecKept (s.streamBench task six) s := by
  unfold State.streamBench
  split
  · exact .refl _
  · extract_lets
    refine .ite ?_ ?_
    · exact .refl _
    · extract_lets
      exact modStream_secKept _ _ _

theorem compressOn_secKept (s : State) (n level : Nat) (payload : List Byte) : SecKept (s.compressOn n level payload).1 s := by
  unfold State.compressOn
  extract_lets out
  split
  · exact .trans (setErr_secKept _ _ _) (count_secKept _ (.inr (by decide)))
  · exact count_secKept _ (.inr (by decide))

theorem takeRecord_secKept {s t : State} {task : Nat} {x : Ready} (h : s.takeRecord task x = some t) : SecKept t s := by
  unfold State.takeRecord at h
  split at h
  · cases h
  · extract_lets +onlyGivenNames d r plain wants at h
    split at h
    · cases h
    · split at h
      · cases h
      · split at h
        rename_i s1 flags payload hfrom
        have h1 : SecKept s1 s := by
          split at hfrom
          · split at hfrom
            next n _ =>
              have hc := compressOn_secKept s n (dCOMP_LEVEL d) r.payload
              split at hfrom
              · next e =>
                rw [e] at hc
                cases hfrom
                exact hc
              · next e =>
                rw [e] at hc
                cases hfrom
                exact hc
            next =>
              cases hfrom
              exact .refl s
          · cases hfrom
            exact .refl s
        clear hfrom
        dsimp only at h
        split at h
        · cases h
        · split at h
          · cases h
          · cases h
            exact .trans (putOnPort_secKept _ _ _ _) (.trans (modPort_secKept _ _ _ _) (.trans (modStream_secKept _ _ _)
              (.trans (streamBench_secKept _ _ _) h1)))

theorem takeAll_secKept (s : State) (task : Nat) (all : List Ready) : SecKept (s.takeAll task all) s := by
  induction all generalizing s with
  | nil => exact .refl s
  | cons x rest ih =>
    unfold State.takeAll
    split
    · split
      next h => exact .trans (ih _) (.congr (takeRecord_secKept h) rfl rfl rfl)
      next => exact .refl s
    · exact ih s

theorem closeStream_secKept (s : State) (task reason code sub : Nat) (accepts : State → Nat → Nat → Bool)
    : SecKept (s.closeStream task reason code sub accepts) s := by
  unfold State.closeStream
  split
  · extract_lets s1
    have h1 : SecKept s1 s := modTask_secKept _ _ _
    exact .congr (u := s1) h1 rfl rfl rfl
  · refine .ite ?_ ?_
    · exact .refl _
    · extract_lets s2 _ s4 _ _ s7 s8 s12
      have h2 : SecKept s2 s := .ite (takeAll_secKept _ _ _) (.refl _)
      have h4 : SecKept s4 s := .congr (u := s2) h2 rfl rfl rfl
      have h7 : SecKept s7 s := .trans (modStream_secKept _ _ _) h4
      have h8 : SecKept s8 s := .trans (streamBench_secKept _ _ _) h7
      have h12 : SecKept s12 s := .trans (modStream_secKept _ _ _) h8
      split
      · exact h8
      · exact .trans (dropClosed_secKept _ _) (.trans (.foldl fun _ _ => putOnPort_secKept _ _ _ _) h12)

theorem modCapture_secKept (s : State) (p : Nat) (f : Capture → Capture) : SecKept (s.modCapture p f) s := by
  unfold State.modCapture
  exact .congr (.refl _) rfl rfl rfl

theorem setPoison_secKept (s : State) (line : Nat) (b : Bool) : SecKept (s.setPoison line b) s := by
  unfold State.setPoison
  exact .congr (.refl _) rfl rfl rfl

theorem writeMem_secKept (s : State) (a : Nat) (bs : List Byte) : SecKept (s.writeMem a bs) s := by
  unfold State.writeMem
  extract_lets s1 first
  exact .trans (.foldl fun _ _ => .ite (setPoison_secKept _ _ _) (.refl _)) (.congr (.refl s) rfl rfl rfl)

theorem endEpoch_secKept (s : State) (p : Nat) : SecKept (s.endEpoch p) s := by
  unfold State.endEpoch
  extract_lets _ _ s3
  have h3 : SecKept s3 s := .ite (writeMem_secKept _ _ _) (.refl _)
  exact .trans (modCapture_secKept _ _ _) h3

theorem wrEnter_secKept (s : State) (p n : Nat) : SecKept (s.wrEnter p n) s := by
  unfold State.wrEnter
  exact wf_secKept _ _ (.inr (by decide))

theorem capStop_secKept (s : State) (p : Nat) : SecKept (s.capStop p) s := by
  unfold State.capStop
  exact .ite (.refl _) (.trans (modCapture_secKept _ _ _) (.trans (wrEnter_secKept _ _ _) (endEpoch_secKept _ _)))

theorem setPair_secKept (s : State) {key : Nat} (off v : Nat) (h : key ≠ keySEC ∨ (off ≠ 0x100 ∧ off + 4 ≠ 0x100))
    : SecKept (s.setPair key off v) s := by
  unfold State.setPair
  exact .trans (setReg_secKept _ _ (h.imp_right And.right)) (setReg_secKept _ _ (h.imp_right And.left))

theorem refreshCap_secKept (s : State) (p : Nat) : SecKept (s.refreshCap p) s := by
  unfold State.refreshCap
  extract_lets _ s2 s3
  have h2 : SecKept s2 s := setPair_secKept _ _ _ (.inl (pipe_ne_sec _ _))
  have h3 : SecKept s3 s := .trans (wb_secKept _ _ (.inr (by decide))) h2
  exact .trans (wf_secKept _ _ (.inr (by decide))) h3

theorem advanceHead_secKept (s : State) (p : Nat) : SecKept (s.advanceHead p) s := by
  unfold State.advanceHead
  extract_lets _ _ s3
  have h3 : SecKept s3 s := .trans (refreshCap_secKept _ _) (.trans (wf_secKept _ _ (.inr (by decide))) (modCapture_secKept _ _ _))
  exact .ite (.trans (modCapture_secKept _ _ _) h3) h3

theorem releaseAt_secKept (s : State) (p i : Nat) : SecKept (s.releaseAt p i) s := by
  unfold State.releaseAt
  split
  · exact .trans (advanceHead_secKept _ _) (modCapture_secKept _ _ _)
  · exact .refl _

theorem sheetCut_secKept (s : State) (p : Nat) : SecKept (s.sheetCut p) s := by
  unfold State.sheetCut
  extract_lets _ _ s4
  split
  · exact .refl _
  · split
    · exact .refl _
    · refine .ite ?_ ?_
      · exact .refl _
      · extract_lets _ _ _ _ _ _ s10 s11 s12
        refine .ite ?_ ?_
        · have h4 : SecKept s4 s := modCapture_secKept _ _ _
          exact .trans (releaseAt_secKept _ _ _) (.trans (setErr_secKept _ _ _) h4)
        · have h10 : SecKept s10 s := modCapture_secKept _ _ _
          have h11 : SecKept s11 s := .trans (addReady_secKept _ _ _) h10
          have h12 : SecKept s12 s := .ite (.trans (addReady_secKept _ _ _) h11) h11
          exact .ite (.trans (addReady_secKept _ _ _) h12) h12

theorem writeSheet_secKept (s : State) (p n : Nat) (h : Sheet) : SecKept (s.writeSheet p n h) s := by
  unfold State.writeSheet
  exact writeMem_secKept _ _ _

theorem sheetReady_secKept (s : State) (p : Nat) : SecKept (s.sheetReady p) s := by
  unfold State.sheetReady
  extract_lets
  split
  · exact .refl _
  · split
    · exact .refl _
    · extract_lets _ s3
      have h3 : SecKept s3 s := modCapture_secKept _ _ _
      exact .trans (irqBit_secKept _ _ _) (.trans (writeSheet_secKept _ _ _ _) h3)

theorem drainSheets_secKept (s : State) (p : Nat) : SecKept (s.drainSheets p) s := by
  unfold State.drainSheets
  extract_lets s1 _ s3
  have h1 : SecKept s1 s := capStop_secKept _ _
  have h3 : SecKept s3 s := .trans (.foldl fun _ _ => sheetReady_secKept _ _) h1
  exact .trans (.foldl fun _ _ => sheetCut_secKept _ _) h3

theorem wrapBy_secKept (s : State) {key : Nat} (f : RegField) (n : Nat) (h : key ≠ keySEC) : SecKept (s.wrapBy key f n) s := by
  unfold State.wrapBy
  exact wf_secKept _ _ (.inl h)

theorem bumpEpoch_secKept (s : State) : SecKept (s.bumpEpoch) s := by
  unfold State.bumpEpoch
  exact wrapBy_secKept _ _ _ (by decide)

theorem mcEnter_secKept (s : State) (n st : Nat) : SecKept (s.mcEnter n st) s := by
  unfold State.mcEnter
  exact wf_secKept _ _ (.inl (off_ne_sec (by omega)))

theorem modCore_secKept (s : State) (n : Nat) (f : Core → Core) : SecKept (s.modCore n f) s := by
  unfold State.modCore
  exact .congr (.refl _) rfl rfl rfl

theorem coresRelease_secKept (s : State) (t : Task) : SecKept (s.coresRelease t) s := by
  unfold State.coresRelease
  split
  · exact .refl _
  · exact .foldl fun u _ => by
      refine .ite ?_ ?_
      · extract_lets s2
        have h2 : SecKept s2 u := .ite (.trans (irqBit_secKept _ _ _) (.trans (mcEnter_secKept _ _ _) (modCore_secKept _ _ _))) (.refl _)
        exact .trans (modCore_secKept _ _ _) (.trans (setReg_secKept _ _ (.inr (by decide))) h2)
      · exact .refl _

theorem enter_secKept (s : State) (key : Nat) (st : BlockState) : SecKept (s.enter key st) s := by
  unfold State.enter
  exact .ite (.refl _) (.trans (irqBit_secKept _ _ _) (modPage_secKept _ _ fun _ => ⟨rfl, id⟩))

theorem chanEnter_secKept (s : State) (c n : Nat) : SecKept (s.chanEnter c n) s := by
  unfold State.chanEnter
  extract_lets _ s2
  have h2 : SecKept s2 s := wf_secKept _ _ (.inl (chanKey_ne_sec c))
  exact .trans (setReg_secKept _ _ (.inl (chanKey_ne_sec c))) h2

theorem modChan_secKept (s : State) (c : Nat) (f : DmaChan → DmaChan) : SecKept (s.modChan c f) s := by
  unfold State.modChan
  exact .congr (.refl _) rfl rfl rfl

theorem setAct_secKept (s : State) (c : Nat) (d : Option ChanDesc) : SecKept (s.setAct c d) s := by
  unfold State.setAct
  extract_lets
  exact setPair_secKept _ _ _ (.inl (chanKey_ne_sec c))

theorem setDbPend_secKept (s : State) (c : Nat) (b : Bool) : SecKept (s.setDbPend c b) s := by
  unfold State.setDbPend
  exact wb_secKept _ _ (.inl (chanKey_ne_sec c))

theorem setShadow_secKept (s : State) (c : Nat) (d : Option ChanDesc) : SecKept (s.setShadow c d) s := by
  unfold State.setShadow
  exact .trans (wb_secKept _ _ (.inl (chanKey_ne_sec c))) (modChan_secKept _ _ _)

theorem chanCancel_secKept (s : State) (c : Nat) : SecKept (s.chanCancel c) s := by
  unfold State.chanCancel
  exact .trans (chanEnter_secKept _ _ _) (.trans (setDbPend_secKept _ _ _) (.trans (setAct_secKept _ _ _) (.trans (setShadow_secKept _ _ _)
      (modChan_secKept _ _ _))))

theorem cancelGroup_secKept (s : State) (key : Nat) : SecKept (s.cancelGroup key) s := by
  unfold State.cancelGroup
  exact .foldl fun _ _ => chanCancel_secKept _ _

theorem modCmp_secKept (s : State) (n : Nat) (f : CmpEngine → CmpEngine) : SecKept (s.modCmp n f) s := by
  unfold State.modCmp
  exact .congr (.refl _) rfl rfl rfl

theorem refreshCmp_secKept (s : State) (n : Nat) : SecKept (s.refreshCmp n) s := by
  unfold State.refreshCmp
  extract_lets
  split
  · exact setReg_secKept _ _ (.inr (by decide))
  · exact .trans (wf_secKept _ _ (.inr (by decide))) (.trans (wf_secKept _ _ (.inr (by decide))) (wb_secKept _ _ (.inr (by decide))))

theorem cmpDrop_secKept (s : State) (n : Nat) : SecKept (s.cmpDrop n) s := by
  unfold State.cmpDrop
  exact .trans (refreshCmp_secKept _ _) (modCmp_secKept _ _ _)

theorem modEngine_secKept (s : State) (p : Nat) (f : Engine → Engine) : SecKept (s.modEngine p f) s := by
  unfold State.modEngine
  exact .congr (.refl _) rfl rfl rfl

theorem queueRecord_secKept (s : State) (p plane : Nat) (r : Record) : SecKept (s.queueRecord p plane r) s := by
  unfold State.queueRecord
  extract_lets _ _ s3
  have h3 : SecKept s3 s := .ite (modPage_secKept _ _ fun _ => ⟨rfl, id⟩) (.refl _)
  exact .trans (modCapture_secKept _ _ _) h3

theorem closeSpectrum_secKept (s : State) (p : Nat) : SecKept (s.closeSpectrum p) s := by
  unfold State.closeSpectrum
  split
  · exact .refl _
  · extract_lets
    exact .trans (queueRecord_secKept _ _ _ _) (modEngine_secKept _ _ _)

theorem emitGroup_secKept (s : State) (p : Nat) (ws : List (Nat × Word)) (all : List (List Bin)) (g : SpecGroup)
    : SecKept (s.emitGroup p ws all g) s := by
  unfold State.emitGroup
  extract_lets _ _ _ _ _ _ _ _ _ s10
  have h10 : SecKept s10 s := modEngine_secKept _ _ _
  exact .ite (.trans (closeSpectrum_secKept _ _) h10) h10

theorem flushGroup_secKept (s : State) (p : Nat) (ws : List (Nat × Word)) : SecKept (s.flushGroup p ws) s := by
  unfold State.flushGroup
  split
  · exact emitGroup_secKept _ _ _ _ _
  · exact .refl _

theorem fftStop_secKept (s : State) (p : Nat) : SecKept (s.fftStop p) s := by
  unfold State.fftStop
  extract_lets
  exact .trans (closeSpectrum_secKept _ _) (flushGroup_secKept _ _ _)

theorem accEnter_secKept (s : State) (p n : Nat) : SecKept (s.accEnter p n) s := by
  unfold State.accEnter
  exact wf_secKept _ _ (.inr (by decide))

theorem modGrat_secKept (s : State) (p : Nat) (f : Grat → Grat) : SecKept (s.modGrat p f) s := by
  unfold State.modGrat
  exact .congr (.refl _) rfl rfl rfl

theorem grtStop_secKept (s : State) (p : Nat) : SecKept (s.grtStop p) s := by
  unfold State.grtStop
  exact .trans (modGrat_secKept _ _ _) (accEnter_secKept _ _ _)

theorem modTrig_secKept (s : State) (p : Nat) (f : Trig → Trig) : SecKept (s.modTrig p f) s := by
  unfold State.modTrig
  exact .congr (.refl _) rfl rfl rfl

theorem setEvent_secKept (s : State) (p e : Nat) (v : Event) : SecKept (s.setEvent p e v) s := by
  unfold State.setEvent
  exact modTrig_secKept _ _ _

theorem addChange_secKept (s : State) (p src sample : Nat) (on : Bool) : SecKept (s.addChange p src sample on) s := by
  unfold State.addChange
  exact modTrig_secKept _ _ _

theorem slotClear_secKept (s : State) (p m label : Nat) : SecKept (s.slotClear p m label) s := by
  unfold State.slotClear
  extract_lets _ s2 s3
  have h2 : SecKept s2 s := .ite (addChange_secKept _ _ _ _ _) (.refl _)
  have h3 : SecKept s3 s := .trans (wf_secKept _ _ (.inl (pipe_ne_sec _ _))) h2
  exact .trans (modTrig_secKept _ _ _) h3

theorem slotsClear_secKept (s : State) (p label : Nat) : SecKept (s.slotsClear p label) s := by
  unfold State.slotsClear
  exact .foldl fun _ _ => slotClear_secKept _ _ _ _

theorem modUnit_secKept (s : State) (p n : Nat) (f : TdUnit → TdUnit) : SecKept (s.modUnit p n f) s := by
  unfold State.modUnit
  exact modTrig_secKept _ _ _

theorem tdSet_secKept (s : State) (p n : Nat) (met unarmed : Bool) : SecKept (s.tdSet p n met unarmed) s := by
  unfold State.tdSet
  extract_lets _ s2
  have h2 : SecKept s2 s := wf_secKept _ _ (.inl (pipe_ne_sec _ _))
  exact .trans (wf_secKept _ _ (.inl (pipe_ne_sec _ _))) h2

theorem tdDisarm_secKept (s : State) (p n sample : Nat) : SecKept (s.tdDisarm p n sample) s := by
  unfold State.tdDisarm
  extract_lets s1
  have h1 : SecKept s1 s := .ite (addChange_secKept _ _ _ _ _) (.refl _)
  exact .trans (modUnit_secKept _ _ _ _) (.trans (tdSet_secKept _ _ _ _ _) h1)

theorem traceBegin_secKept (s : State) (p : Nat) (on : Bool) : SecKept (s.traceBegin p on) s := by
  unfold State.traceBegin
  extract_lets
  exact modCapture_secKept _ _ _

theorem stopHook_secKept (s : State) (key : Nat) : SecKept (s.stopHook key) s := by
  unfold State.stopHook
  extract_lets
  split
  · exact fftStop_secKept _ _
  · exact grtStop_secKept _ _
  · exact capStop_secKept _ _
  · exact traceBegin_secKept _ _ _
  · exact slotsClear_secKept _ _ _
  · exact .foldl fun _ _ => tdDisarm_secKept _ _ _ _
  · exact .foldl fun _ _ => by
      extract_lets
      exact .foldl fun _ _ => setEvent_secKept _ _ _ _
  · exact cmpDrop_secKept _ _
  · exact cancelGroup_secKept _ _
  · exact .refl _

theorem stopPage_secKept (s : State) (key : Nat) : SecKept (s.stopPage key) s := by
  unfold State.stopPage
  extract_lets s1
  have h1 : SecKept s1 s := .ite (.trans (enter_secKept _ _ _) (stopHook_secKept _ _)) (.refl _)
  exact .trans (modPage_secKept _ _ fun _ => ⟨rfl, id⟩) h1

theorem idleGroups_secKept (s : State) (t : Task) (keep : List Nat) : SecKept (s.idleGroups t keep) s := by
  unfold State.idleGroups
  extract_lets
  exact .foldl fun _ _ => stopPage_secKept _ _

theorem dropRings_secKept (s : State) (t : Task) (keep : List Nat) : SecKept (s.dropRings t keep) s := by
  unfold State.dropRings
  extract_lets s1
  have h1 : SecKept s1 s := idleGroups_secKept _ _ _
  refine .trans (.foldl fun u n => ?_) h1
  exact .ite (.congr (.refl u) rfl rfl rfl) (.refl u)

theorem refreshSrc_secKept (s : State) : SecKept (s.refreshSrc) s := by
  unfold State.refreshSrc
  exact .foldl fun _ _ => wf_secKept _ _ (.inr (by decide))

theorem disconnect_secKept (s : State) (p : Nat) : SecKept (s.disconnect p) s := by
  unfold State.disconnect
  exact .trans (refreshSrc_secKept _) (.trans (wb_secKept _ _ (.inr (by decide))) (.trans (wb_secKept _ _ (.inr (by decide)))
      (.congr (.refl _) rfl rfl rfl)))

theorem modRot_secKept (s : State) (f : Rotation → Rotation) : SecKept (s.modRot f) s := by
  unfold State.modRot
  exact .congr (.refl _) rfl rfl rfl

theorem chooseH_secKept (s : State) : SecKept (s.chooseH) s := by
  unfold State.chooseH
  exact .ite (modRot_secKept _ _) (modRot_secKept _ _)

theorem rotWake_secKept (s : State) : SecKept (s.rotWake) s := by
  unfold State.rotWake
  exact .ite (chooseH_secKept _) (.refl _)

theorem leaveMigration_secKept (s : State) (id : Nat) : SecKept (s.leaveMigration id) s := by
  unfold State.leaveMigration
  extract_lets _ s2 s4
  have h2 : SecKept s2 s := modPhn_secKept _ _
  split
  · exact h2
  · extract_lets _ _ s6
    refine .ite ?_ ?_
    · have h4 : SecKept s4 s := .trans (rotWake_secKept _) h2
      have h6 : SecKept s6 s := .trans (.foldl fun _ _ => .trans (disconnect_secKept _ _) (.foldl fun _ _ => stopPage_secKept _ _)) h4
      exact .trans (modPhn_secKept _ _) h6
    · exact .trans (modPhn_secKept _ _) h2

theorem applyWords_secKept (s : State) (key : Nat) (ws : List (Nat × Word)) : SecKept (s.applyWords key ws) s := by
  unfold State.applyWords
  exact modPage_secKept _ _ fun _ => ⟨rfl, id⟩

theorem mirrorGang_secKept (s : State) (p : Nat) : SecKept (s.mirrorGang p) s := by
  unfold State.mirrorGang
  split
  · exact .ite (.refl _) (.foldl fun _ _ => applyWords_secKept _ _ _)
  · exact .refl _

theorem ctrApply_secKept (s : State) (p : Nat) (a : PendApply) : SecKept (s.ctrApply p a) s := by
  unfold State.ctrApply
  extract_lets _ _ s3
  have h3 : SecKept s3 s := applyWords_secKept _ _ _
  exact .trans (mirrorGang_secKept _ _) (.trans (.foldl fun _ _ => slotClear_secKept _ _ _ _) h3)

theorem modInset_secKept (s : State) (p k : Nat) (f : Inset → Inset) : SecKept (s.modInset p k f) s := by
  unfold State.modInset
  exact .congr (.refl _) rfl rfl rfl

theorem insetStart_secKept (s : State) (p k a : Nat) : SecKept (s.insetStart p k a) s := by
  unfold State.insetStart
  extract_lets
  exact modInset_secKept _ _ _ _

theorem setAreg_secKept (s : State) (key off : Nat) (w : Word) : SecKept (s.setAreg key off w) s := by
  unfold State.setAreg
  exact modPage_secKept _ _ fun _ => ⟨rfl, id⟩

theorem setInsWords_secKept (s : State) (p k : Nat) (ws : List Word) : SecKept (s.setInsWords p k ws) s := by
  unfold State.setInsWords
  exact .foldl fun _ _ => setAreg_secKept _ _ _ _

theorem insetChange_secKept (s : State) (p k a : Nat) (old new : List Word) : SecKept (s.insetChange p k a old new) s := by
  unfold State.insetChange
  refine .ite ?_ ?_
  · exact .trans (modInset_secKept _ _ _ _) (setInsWords_secKept _ _ _ _)
  · refine .ite (setInsWords_secKept _ _ _ _) ?_
    extract_lets s1 r a' fork
    have h1 : SecKept s1 s := setInsWords_secKept _ _ _ _
    have hfork (u : State) (xfade : Bool) : SecKept (fork u xfade) u := modInset_secKept _ _ _ _
    split
    · exact .trans (insetStart_secKept _ _ _ _) h1
    · exact .trans (hfork _ _) (.trans (modInset_secKept _ _ _ _) h1)
    · exact .trans (hfork _ _) (.trans (modInset_secKept _ _ _ _) h1)
    · exact .trans (hfork _ _) h1

theorem setSix3_secKept (s : State) {key : Nat} (off six : Nat) (h : key ≠ keySEC) : SecKept (s.setSix3 key off six) s := by
  unfold State.setSix3
  exact .trans (setReg_secKept _ _ (.inl h)) (.trans (setReg_secKept _ _ (.inl h)) (setReg_secKept _ _ (.inl h)))

theorem insShow_secKept (s : State) (p : Nat) : SecKept (s.insShow p) s := by
  unfold State.insShow
  extract_lets _ s2
  have h2 : SecKept s2 s := .trans (setReg_secKept _ _ (.inr (by decide))) (setReg_secKept _ _ (.inr (by decide)))
  exact .trans (setReg_secKept _ _ (.inr (by decide))) (.trans (setReg_secKept _ _ (.inr (by decide))) h2)

theorem insApply_secKept (s : State) (p : Nat) (a : PendApply) : SecKept (s.insApply p a) s := by
  unfold State.insApply
  extract_lets _ _ _ _ s5 s6
  have h5 : SecKept s5 s := applyWords_secKept _ _ _
  have h6 : SecKept s6 s := .trans (.foldl fun _ _ => by
    extract_lets
    exact .ite (.ite (modInset_secKept _ _ _ _) (.refl _)) (.ite (insetStart_secKept _ _ _ _) (insetChange_secKept _ _ _ _ _ _))) h5
  exact .trans (setSix3_secKept _ _ _ (pipe_ne_sec _ _)) (.trans (insShow_secKept _ _) h6)

theorem restartPlanes_secKept (s : State) (p : Nat) (a : PendApply) : SecKept (s.restartPlanes p a) s := by
  unfold State.restartPlanes
  extract_lets
  exact .foldl fun u _ => by
    refine .ite ?_ ?_
    · extract_lets s3
      have h3 : SecKept s3 u := .trans (wf_secKept _ _ (.inl (pipe_ne_sec _ _))) (wf_secKept _ _ (.inl (pipe_ne_sec _ _)))
      exact .trans (modCapture_secKept _ _ _) h3
    · exact .refl _

theorem stagePatch_secKept (s : State) {x : Patch} (h : x.key ≠ keySEC) : SecKept (s.stagePatch x) s := by
  unfold State.stagePatch
  exact setReg_secKept _ _ (.inl h)

theorem refreshLatency_secKept (s : State) (p : Nat) : SecKept (s.refreshLatency p) s := by
  unfold State.refreshLatency
  extract_lets s1 s2
  have h1 : SecKept s1 s := setReg_secKept _ _ (.inr (by decide))
  have h2 : SecKept s2 s := .trans (setReg_secKept _ _ (.inr (by decide))) h1
  exact .trans (.foldl fun _ _ => by
    extract_lets
    exact setReg_secKept _ _ (.inl (off_ne_sec (by omega)))) h2

theorem trgApply_secKept (s : State) (r : Nat) (a : PendApply) : SecKept (s.trgApply r a) s := by
  unfold State.trgApply
  extract_lets _ _ _ _ s5 s6 s7
  have h5 : SecKept s5 s := applyWords_secKept _ _ _
  have h6 : SecKept s6 s := .ite h5 (.trans (emit_secKept _ _) h5)
  have h7 : SecKept s7 s := .trans (.foldl fun _ _ => by
    extract_lets
    exact setEvent_secKept _ _ _ _) h6
  exact .trans (.foldl fun _ _ => refreshLatency_secKept _ _) h7

theorem ttrApply_secKept (s : State) (p : Nat) (a : PendApply) : SecKept (s.ttrApply p a) s := by
  unfold State.ttrApply
  extract_lets _ _ s3
  have h3 : SecKept s3 s := applyWords_secKept _ _ _
  exact .trans (mirrorGang_secKept _ _) (.trans (.foldl fun _ _ => tdDisarm_secKept _ _ _ _) h3)

theorem applyPatches_secKept (s : State) (key : Nat) {xs : List Patch} (h : ∀ x ∈ xs, x.key ≠ keySEC) : SecKept (s.applyPatches key xs) s := by
  unfold State.applyPatches
  extract_lets ys p a s4 active s7
  have h4 : SecKept s4 s := .foldl_mem fun _ x hx => stagePatch_secKept _ (h x (List.mem_filter.1 hx).1)
  refine .ite ?_ ?_
  · exact .refl _
  · split
    · exact .ite (.trans (insApply_secKept _ _ _) h4) (.trans (insShow_secKept _ _) (.trans (applyWords_secKept _ _ _) h4))
    · exact .ite (.trans (ctrApply_secKept _ _ _) h4) (.trans (applyWords_secKept _ _ _) h4)
    · exact .ite (.trans (ttrApply_secKept _ _ _) h4) (.trans (applyWords_secKept _ _ _) h4)
    · exact .trans (trgApply_secKept _ _ _) h4
    · have h7 : SecKept s7 s := .trans (applyWords_secKept _ _ _) (.trans (restartPlanes_secKept _ _ _) h4)
      exact .ite (.trans (traceBegin_secKept _ _ _) h7) h7
    · exact .trans (applyWords_secKept _ _ _) h4

theorem applyAll_secKept (s : State) {xs : List Patch} (h : ∀ x ∈ xs, x.key ≠ keySEC) : SecKept (s.applyAll xs) s := by
  unfold State.applyAll
  exact .foldl fun _ _ => applyPatches_secKept _ _ h

theorem clearPatches_ne_sec (t : Task) : ∀ x ∈ clearPatches t, x.key ≠ keySEC := by
  intro x hx
  unfold clearPatches at hx
  obtain hx | hx := List.mem_append.1 hx
  · unfold insetEnables at hx
    obtain ⟨m, -, rfl⟩ := List.mem_map.1 hx
    exact pipe_ne_sec _ _
  · obtain ⟨m, -, hx⟩ := List.mem_flatMap.1 hx
    split at hx
    · rw [List.mem_singleton.1 hx]
      exact pipe_ne_sec _ _
    · split at hx
      · rw [List.mem_singleton.1 hx]
        exact pipe_ne_sec _ _
      · split at hx
        · rw [List.mem_singleton.1 hx]
          exact off_ne_sec (.inr (.inr (by omega)))
        · cases hx

theorem leavePipes_secKept (s : State) (t : Task) : SecKept (s.leavePipes t) s := by
  unfold State.leavePipes
  extract_lets _ _ _ _ s5 red s8 s9
  have h5 : SecKept s5 s := .foldl fun _ _ => stopPage_secKept _ _
  have hred (y : Patch) (hy : y.key = red) : ∀ x ∈ [y], x.key ≠ keySEC := by
    rintro x hx
    rw [List.mem_singleton.1 hx, hy]
    exact pipe_ne_sec _ _
  have h8 : SecKept s8 s := .ite h5 (.ite (.trans (applyAll_secKept _ (hred _ rfl)) h5) (.ite (.trans (applyAll_secKept _ (hred _ rfl)) h5) h5))
  have h9 : SecKept s9 s := .ite (.trans (applyAll_secKept _ (clearPatches_ne_sec t)) h8) h8
  split
  · exact .ite (.trans (.foldl fun _ _ => disconnect_secKept _ _) h9) h9
  · exact .trans (modTask_secKept _ _ _) h9

theorem pauseEnd_secKept (s : State) (p : Nat) : SecKept (s.pauseEnd p) s := by
  unfold State.pauseEnd
  exact .ite (.trans (modCapture_secKept _ _ _) (endEpoch_secKept _ _)) (.refl _)

theorem capPause_secKept (s : State) (p reason : Nat) : SecKept (s.capPause p reason) s := by
  unfold State.capPause
  refine .ite ?_ ?_
  · extract_lets s1
    have h1 : SecKept s1 s := .trans (modCapture_secKept _ _ _) (wrEnter_secKept _ _ _)
    exact .ite h1 (.trans (pauseEnd_secKept _ _) h1)
  · exact pauseEnd_secKept _ _

theorem repoint_secKept (s : State) (task : Nat) (f : RecSource → RecSource) : SecKept (s.repoint task f) s := by
  unfold State.repoint
  extract_lets s1
  have h1 : SecKept s1 s := .congr (.refl _) rfl rfl rfl
  exact .trans (modStream_secKept _ _ _) h1

theorem park_secKept (s : State) (t : Task) : SecKept (s.park t) s := by
  unfold State.park
  extract_lets _ _ s3 _ _ s6 s7
  refine .ite ?_ ?_
  · exact .refl _
  · have h3 : SecKept s3 s := .ite (.trans (pauseEnd_secKept _ _) (capPause_secKept _ _ _)) (.refl _)
    have h6 : SecKept s6 s := .trans (modPhn_secKept _ _) h3
    have h7 : SecKept s7 s := .trans (modCapture_secKept _ _ _) h6
    exact .trans (repoint_secKept _ _ _) h7

theorem setPend_secKept (s : State) (key due : Nat) (byOp : Bool) : SecKept (s.setPend key due byOp) s := by
  unfold State.setPend
  exact .congr (.refl _) rfl rfl rfl

theorem clearPend_secKept (s : State) (key : Nat) : SecKept (s.clearPend key) s := by
  unfold State.clearPend
  exact .congr (.refl _) rfl rfl rfl

theorem pendInput_secKept (s : State) (c : Nat) (w : Word) : SecKept (s.pendInput c w) s := by
  unfold State.pendInput
  extract_lets _ s2
  refine .ite ?_ ?_
  · exact .refl _
  · have h2 : SecKept s2 s := setReg_secKept _ _ (.inl (off_ne_sec (.inr (.inr (by omega)))))
    exact .ite (.trans (setPend_secKept _ _ _ _) h2) (.ite (.trans (clearPend_secKept _ _) h2) h2)

theorem modConv_secKept (s : State) (c : Nat) (f : Conv → Conv) : SecKept (s.modConv c f) s := by
  unfold State.modConv
  exact .congr (.refl _) rfl rfl rfl

theorem setAdcCfg_secKept (s : State) (c : Nat) (w : Word) : SecKept (s.setAdcCfg c w) s := by
  unfold State.setAdcCfg
  extract_lets
  exact .trans (modConv_secKept _ _ _) (setReg_secKept _ _ (.inl (off_ne_sec (by omega))))

theorem setAdcField_secKept (s : State) (c : Nat) (f : RegField) (v : Nat) : SecKept (s.setAdcField c f v) s := by
  unfold State.setAdcField
  exact setAdcCfg_secKept _ _ _

theorem refreshInput_secKept (s : State) (c : Nat) : SecKept (s.refreshInput c) s := by
  unfold State.refreshInput
  extract_lets _ _ _ s4 s5
  have h4 : SecKept s4 s := .ite (.refl _) (.trans (setAdcField_secKept _ _ _ _) (setAdcField_secKept _ _ _ _))
  have h5 : SecKept s5 s := .trans (pendInput_secKept _ _ _) h4
  split
  · exact .ite (.congr (u := s5) h5 rfl rfl rfl) h5
  · exact h5

theorem refreshInputs_secKept (s : State) (ch : Nat) : SecKept (s.refreshInputs ch) s := by
  unfold State.refreshInputs
  exact .foldl fun _ _ => refreshInput_secKept _ _

theorem retire_secKept (s : State) (addr : Nat) : SecKept (s.retire addr) s := by
  unfold State.retire
  extract_lets s1
  have h1 : SecKept s1 s := setReg_secKept _ _ (.inl (by decide))
  exact .trans (irqBit_secKept _ _ _) (.trans (setReg_secKept _ _ (.inl (by decide))) (.trans (setReg_secKept _ _ (.inl (by decide))) h1))

theorem retireAll_secKept (s : State) : SecKept (s.retireAll) s := by
  unfold State.retireAll
  extract_lets s1 s3
  have h1 : SecKept s1 s := by
    unfold s1
    split
    · extract_lets s2
      have h2 : SecKept s2 s := retire_secKept _ _
      exact .congr (u := s2) h2 rfl rfl rfl
    · exact .refl _
  have h3 : SecKept s3 s := .trans (.foldl fun _ _ => retire_secKept _ _) h1
  exact .congr (u := s3) h3 rfl rfl rfl

theorem retireIfOff_secKept (s : State) : SecKept (s.retireIfOff) s := by
  unfold State.retireIfOff
  exact .ite (retireAll_secKept _) (.refl _)

theorem stageDsp_secKept (s : State) (ws : List (Nat × Word)) (byOp : Bool) : SecKept (s.stageDsp ws byOp) s := by
  unfold State.stageDsp
  extract_lets s1
  have h1 : SecKept s1 s := by
    unfold s1
    split
    · extract_lets
      exact .ite (.congr (.refl _) rfl rfl rfl) (.refl _)
    · exact .refl _
  exact .congr (u := s1) h1 rfl rfl rfl

theorem releaseDisplay_secKept (s : State) : SecKept (s.releaseDisplay) s := by
  unfold State.releaseDisplay
  extract_lets
  exact .trans (retireIfOff_secKept _) (stageDsp_secKept _ _ _)

theorem giveUp_secKept (s : State) (t : Task) (st : TaskState) (why : Nat) : SecKept (s.giveUp t st why) s := by
  unfold State.giveUp
  extract_lets s1 s2 s3 s4 s5 s6 s7
  have h1 : SecKept s1 s := leaveMigration_secKept _ _
  have h2 : SecKept s2 s := .ite (.trans (park_secKept _ _) h1) h1
  have h3 : SecKept s3 s := .trans (setTask_secKept _ _) h2
  have h4 : SecKept s4 s := .trans (dropRings_secKept _ _ _) (.trans (leavePipes_secKept _ _) h3)
  have h5 : SecKept s5 s := .ite (.trans (coresRelease_secKept _ _) h4) h4
  have h6 : SecKept s6 s := .ite (.trans (releaseDisplay_secKept _) h5) h5
  have h7 : SecKept s7 s := .trans (modTask_secKept _ _ _) h6
  exact .trans (bumpEpoch_secKept _) (.trans (refreshInputs_secKept _ _) h7)

theorem dropMemory_secKept (s : State) (id : Nat) : SecKept (s.dropMemory id) s := by
  unfold State.dropMemory
  split
  · exact .refl _
  · extract_lets _ s2 s3
    have h2 : SecKept s2 s := modPhn_secKept _ _
    have h3 : SecKept s3 s := .congr (u := s2) h2 rfl rfl rfl
    exact .trans (setTask_secKept _ _) h3

theorem sendLsa_secKept (s : State) (task port type : Nat) (body : List Byte) : SecKept (s.sendLsa task port type body) s := by
  unfold State.sendLsa
  exact emit_secKept _ _

theorem sendOpen_secKept (s : State) (task port : Nat) : SecKept (s.sendOpen task port) s := by
  unfold State.sendOpen
  extract_lets
  exact sendLsa_secKept _ _ _ _ _

theorem setPorts_secKept (s : State) (task : Nat) (grants : List (Nat × Nat)) : SecKept (s.setPorts task grants) s := by
  unfold State.setPorts
  split
  · exact .refl _
  · extract_lets _ _ s3 _ _ s6
    have h3 : SecKept s3 s := modStream_secKept _ _ _
    have h6 : SecKept s6 s := .trans (.foldl fun _ _ => .trans (sendOpen_secKept _ _ _) (modPort_secKept _ _ _ _)) h3
    exact .trans (refreshStr_secKept _) h6

theorem openStream_secKept (s : State) (t : Task) (grants : List (Nat × Nat)) : SecKept (s.openStream t grants) s := by
  unfold State.openStream
  refine .ite ?_ ?_
  · exact setPorts_secKept _ _ _
  · extract_lets _ s2 s3
    have h2 : SecKept s2 s := .congr (.refl _) rfl rfl rfl
    have h3 : SecKept s3 s := .ite (.trans (modRing_secKept _ _ _) h2) h2
    exact .trans (setPorts_secKept _ _ _) h3

theorem wantEpoch_secKept (s : State) (p : Nat) : SecKept (s.wantEpoch p) s := by
  unfold State.wantEpoch
  exact modCapture_secKept _ _ _

theorem capStart_secKept (s : State) (p : Nat) : SecKept (s.capStart p) s := by
  unfold State.capStart
  exact .trans (modCapture_secKept _ _ _) (.trans (wantEpoch_secKept _ _) (wrEnter_secKept _ _ _))

theorem modChain_secKept (s : State) (p : Nat) (f : Chain → Chain) : SecKept (s.modChain p f) s := by
  unfold State.modChain
  exact .congr (.refl _) rfl rfl rfl

theorem chainBlank_secKept (s : State) (p a : Nat) : SecKept (s.chainBlank p a) s := by
  unfold State.chainBlank
  extract_lets
  exact modChain_secKept _ _ _

theorem chainZero_secKept (s : State) (p a : Nat) : SecKept (s.chainZero p a) s := by
  unfold State.chainZero
  exact .trans (modChain_secKept _ _ _) (chainBlank_secKept _ _ _)

theorem dropEst_secKept (s : State) (p : Nat) : SecKept (s.dropEst p) s := by
  unfold State.dropEst
  exact .ite (.refl _) (.trans (setReg_secKept _ _ (.inr (by decide))) (modChain_secKept _ _ _))

theorem loadNco_secKept (s : State) (p a : Nat) : SecKept (s.loadNco p a) s := by
  unfold State.loadNco
  exact modChain_secKept _ _ _

theorem chainStart_secKept (s : State) (p : Nat) : SecKept (s.chainStart p) s := by
  unfold State.chainStart
  extract_lets _ s2
  have h2 : SecKept s2 s := .trans (loadNco_secKept _ _ _) (.trans (chainZero_secKept _ _ _) (dropEst_secKept _ _))
  exact .ite (.trans (modEngine_secKept _ _ _) h2) h2

theorem modCrc_secKept (s : State) (key : Nat) (f : CrcUnit → CrcUnit) : SecKept (s.modCrc key f) s := by
  unfold State.modCrc
  exact .congr (.refl _) rfl rfl rfl

theorem refreshCrc_secKept (s : State) (key : Nat) : SecKept (s.refreshCrc key) s := by
  unfold State.refreshCrc
  extract_lets
  exact .trans (wb_secKept _ _ (.inr (by decide))) (setReg_secKept _ _ (.inr (by decide)))

theorem crcLoad_secKept (s : State) (key : Nat) : SecKept (s.crcLoad key) s := by
  unfold State.crcLoad
  extract_lets s1
  have h1 : SecKept s1 s := modCrc_secKept _ _ _
  exact .trans (refreshCrc_secKept _ _) (.trans (setPair_secKept _ _ _ (.inr (by decide))) h1)

theorem fftStart_secKept (s : State) (p : Nat) : SecKept (s.fftStart p) s := by
  unfold State.fftStart
  exact modEngine_secKept _ _ _

theorem grtStart_secKept (s : State) (p : Nat) : SecKept (s.grtStart p) s := by
  unfold State.grtStart
  exact .trans (modGrat_secKept _ _ _) (accEnter_secKept _ _ _)

theorem insStart_secKept (s : State) (p : Nat) : SecKept (s.insStart p) s := by
  unfold State.insStart
  exact .trans (insShow_secKept _ _) (.foldl fun _ _ => insetStart_secKept _ _ _ _)

theorem startHook_secKept (s : State) (key : Nat) : SecKept (s.startHook key) s := by
  unfold State.startHook
  extract_lets
  split
  · exact chainStart_secKept _ _
  · exact insStart_secKept _ _
  · exact fftStart_secKept _ _
  · exact grtStart_secKept _ _
  · exact capStart_secKept _ _
  · exact traceBegin_secKept _ _ _
  · exact crcLoad_secKept _ _
  · exact .refl _

theorem startPage_secKept (s : State) (key : Nat) : SecKept (s.startPage key) s := by
  unfold State.startPage
  exact .ite (.refl _) (.trans (enter_secKept _ _ _) (.trans (startHook_secKept _ _) (modPage_secKept _ _ fun _ => ⟨rfl, id⟩)))

theorem takeRings_secKept (s : State) (t : Task) : SecKept (s.takeRings t) s := by
  unfold State.takeRings
  extract_lets _ _ s3
  have h3 : SecKept s3 s := .foldl fun _ _ => startPage_secKept _ _
  exact .trans (.foldl fun _ _ => modRing_secKept _ _ _) h3

theorem commitPlace_secKept (s : State) (t : Task) : SecKept (s.commitPlace t) s := by
  unfold State.commitPlace
  extract_lets _ s2 _ s4 s5
  have h2 : SecKept s2 s := .ite (dropMemory_secKept _ _) (.refl _)
  have h4 : SecKept s4 s := .trans (bumpEpoch_secKept _) (.trans (takeRings_secKept _ _) (.trans (setTask_secKept _ _) h2))
  have h5 : SecKept s5 s := .ite h4 (.trans (openStream_secKept _ _ _) h4)
  exact .trans (refreshPhn_secKept _) (.trans (refreshInputs_secKept _ _) h5)

theorem readmitOne_secKept (s : State) (id : Nat) : SecKept (s.readmitOne id) s := by
  unfold State.readmitOne
  split
  · exact .refl _
  · refine .ite ?_ ?_
    · exact .refl _
    · split
      · exact .ite (.refl _) (.trans (notify_secKept _ _ _ _ _) (commitPlace_secKept _ _))
      · exact .refl _

theorem readmit_secKept (s : State) : SecKept (s.readmit) s := by
  unfold State.readmit
  exact .foldl fun _ _ => readmitOne_secKept _ _

theorem endTask_secKept (s : State) (id : Nat) (st : TaskState) (code sub : Nat) : SecKept (s.endTask id st code sub) s := by
  unfold State.endTask
  split
  · exact .refl _
  · refine .ite ?_ ?_
    · exact .refl _
    · extract_lets s1 s2 s3 _ s5 _ s7 s8
      have h1 : SecKept s1 s := .ite (drainSheets_secKept _ _) (.refl _)
      have h2 : SecKept s2 s := .trans (repoint_secKept _ _ _) (.trans (giveUp_secKept _ _ _ _) h1)
      have h3 : SecKept s3 s := .trans (modPhn_secKept _ _) h2
      have h5 : SecKept s5 s := .congr (u := s3) h3 rfl rfl rfl
      have h7 : SecKept s7 s := .trans (closeStream_secKept _ _ _ _ _ _) h5
      have h8 : SecKept s8 s := .ite (.trans (notify_secKept _ _ _ _ _) h7) (.ite (.trans (notify_secKept _ _ _ _ _) h7) h7)
      exact .trans (refreshPhn_secKept _) (.trans (readmit_secKept _) h8)

theorem report_secKept (s : State) (e : List Byte) (r : Report) (a : Answer) : SecKept (s.report e r a).1 s := by
  unfold State.report
  split
  · exact .refl s
  · extract_lets b
    split
    · exact .refl s
    · exact emit_secKept _ _

theorem suspendTask_secKept (s : State) (id why : Nat) : SecKept (s.suspendTask id why) s := by
  unfold State.suspendTask
  split
  · exact .refl _
  · refine .ite ?_ ?_
    · exact dropMemory_secKept _ _
    · extract_lets s1 s2
      have h1 : SecKept s1 s := giveUp_secKept _ _ _ _
      have h2 : SecKept s2 s := .trans (refreshStr_secKept _) (.trans (modStream_secKept _ _ _) h1)
      exact .ite h2 (.trans (notify_secKept _ _ _ _ _) h2)

theorem changeOwner_secKept (s : State) (key : Nat) (o : Owner) : SecKept (s.changeOwner key o) s := by
  unfold State.changeOwner
  exact .ite (.refl _) (modPage_secKept _ _ fun _ => ⟨rfl, id⟩)

theorem cancelOp_secKept (s : State) (key : Nat) : SecKept (s.cancelOp key) s := by
  unfold State.cancelOp
  exact endOp_secKept _ _ _ _ _

theorem setOut_secKept (s : State) (o n : Nat) : SecKept (s.setOut o n) s := by
  unfold State.setOut
  exact wf_secKept _ _ (.inl (by decide))

theorem dspReset_secKept (s : State) : SecKept (s.dspReset) s := by
  unfold State.dspReset
  exact .trans (retireAll_secKept _) (.trans (setOut_secKept _ _ _) (.trans (setOut_secKept _ _ _) (.congr (.refl _) rfl rfl rfl)))

theorem modLink_secKept (s : State) (key : Nat) (f : LinkEnd → LinkEnd) : SecKept (s.modLink key f) s := by
  unfold State.modLink
  exact .congr (.refl _) rfl rfl rfl

theorem finishNp_secKept (s : State) (key : Nat) (e : TagEntry) (status : Nat) : SecKept (s.finishNp key e status) s := by
  unfold State.finishNp
  extract_lets
  split
  · exact emit_secKept _ _
  · exact modLink_secKept _ _ _

theorem refreshLink_secKept (s : State) (key : Nat) : SecKept (s.refreshLink key) s := by
  unfold State.refreshLink
  extract_lets _ _ s3
  have h3 : SecKept s3 s := wf_secKept _ _ (.inr (by decide))
  exact .trans (setReg_secKept _ _ (.inr (by decide))) h3

theorem fence_secKept (s : State) (key : Nat) : SecKept (s.fence key) s := by
  unfold State.fence
  extract_lets _ _ _ s4 s5
  refine .ite ?_ ?_
  · exact .refl _
  · have h4 : SecKept s4 s := modLink_secKept _ _ _
    have h5 : SecKept s5 s := .trans (.foldl fun _ _ => finishNp_secKept _ _ _ _) h4
    exact .trans (refreshLink_secKept _ _) (.trans (setErr_secKept _ _ _) (.trans (countBy_secKept _ _ (.inr (by decide))) h5))

theorem convEnter_secKept (s : State) (c n : Nat) : SecKept (s.convEnter c n) s := by
  unfold State.convEnter
  exact wf_secKept _ _ (.inr (by decide))

theorem updateLocked_secKept (s : State) (c : Nat) : SecKept (s.updateLocked c) s := by
  unfold State.updateLocked
  exact wb_secKept _ _ (.inr (by decide))

theorem convDown_secKept (s : State) (c n : Nat) : SecKept (s.convDown c n) s := by
  unfold State.convDown
  extract_lets s1 s2 s3
  have h1 : SecKept s1 s := convEnter_secKept _ _ _
  have h2 : SecKept s2 s := .trans (wb_secKept _ _ (.inr (by decide))) h1
  have h3 : SecKept s3 s := .ite (.trans (wb_secKept _ _ (.inr (by decide))) h2) h2
  exact .trans (updateLocked_secKept _ _) h3

theorem framesStop_secKept (s : State) (key : Nat) : SecKept (s.framesStop key) s := by
  unfold State.framesStop
  split
  · exact .ite (convDown_secKept _ _ _) (.refl _)
  · exact .ite (modConv_secKept _ _ _) (.refl _)

theorem linkEnter_secKept (s : State) {key : Nat} (n timeout : Nat) (h : key ≠ keySEC) : SecKept (s.linkEnter key n timeout) s := by
  unfold State.linkEnter
  exact .trans (modLink_secKept _ _ _) (wf_secKept _ _ (.inl h))

theorem linkDown_secKept (s : State) {key : Nat} (h : key ≠ keySEC) : SecKept (s.linkDown key) s := by
  unfold State.linkDown
  exact .ite (.refl _) (.trans (framesStop_secKept _ _) (.trans (wb_secKept _ _ (.inl h)) (.trans (linkEnter_secKept _ _ _ h) (fence_secKept _ _))))

theorem modTb_secKept (s : State) (f : TimeBase → TimeBase) : SecKept (s.modTb f) s := by
  unfold State.modTb
  exact .congr (.refl _) rfl rfl rfl

theorem syncOff_secKept (s : State) : SecKept (s.syncOff) s := by
  unfold State.syncOff
  exact .trans (refreshHold_secKept _) (modTb_secKept _ _)

theorem resetHook_secKept (s : State) (key : Nat) : SecKept (s.resetHook key) s := by
  unfold State.resetHook
  extract_lets
  split
  · exact modChain_secKept _ _ _
  · exact .congr (.refl _) rfl rfl rfl
  · exact .congr (.refl _) rfl rfl rfl
  · exact .congr (.refl _) rfl rfl rfl
  · exact modTrig_secKept _ _ _
  · exact modTrig_secKept _ _ _
  · exact .congr (.foldl fun _ _ => modTrig_secKept _ _ _) rfl rfl rfl
  · exact modCapture_secKept _ _ _
  · exact modCapture_secKept _ _ _
  · exact modConv_secKept _ _ _
  · exact .congr (.refl _) rfl rfl rfl
  · exact cmpDrop_secKept _ _
  · exact cancelGroup_secKept _ _
  · exact .congr (.refl _) rfl rfl rfl
  · exact dspReset_secKept _
  · next hblock =>
    refine linkDown_secKept _ fun hk => ?_
    rw [hk] at hblock
    exact absurd hblock (by decide)
  · exact closePhoin_secKept _
  · exact .trans (modTb_secKept _ _) (syncOff_secKept _)
  · exact .congr (.refl _) rfl rfl rfl
  · exact .refl _

/-- What passes a filter reads as before. -/
theorem mget_filter {α : Type} (d : Nat → α) {q : Nat × α → Bool} {k : Nat} (h : ∀ v, q (k, v) = true) (xs : List (Nat × α)) :
    mget d (xs.filter q) k = mget d xs k := by
  induction xs with
  | nil => rfl
  | cons x xs ih =>
    obtain ⟨a, v⟩ := x
    by_cases hk : k = a
    · subst hk
      rw [List.filter_cons_of_pos (h v), mget, mget, if_pos rfl, if_pos rfl]
    · rw [mget, if_neg hk]
      cases hq : q (a, v) with
      | true => rw [List.filter_cons_of_pos hq, mget, if_neg hk, ih]
      | false => rw [List.filter_cons_of_neg (by rw [hq]; exact Bool.false_ne_true), ih]

/-- SEC_STAT is among the registers that show the module's state, which a reset of their block leaves. -/
theorem sec_stat_shows : (readOnly keySEC 0x100 && shows keySEC 0x100) = true := by decide

theorem softReset_secKept (s : State) (key : Nat) : SecKept (s.softReset key) s := by
  unfold State.softReset
  refine .ite (.refl _) ?_
  extract_lets s1 s2 old s3
  have h2 : SecKept s2 s := .congr (u := s1) (.trans (clearPend_secKept _ _) (.trans (resetHook_secKept _ _) (cancelOp_secKept _ _))) rfl rfl rfl
  refine .trans ?_ h2
  clear_value s2
  by_cases hk : keySEC = key
  · subst hk
    rw [if_neg (by decide)]
    refine ⟨rfl, ?_, fun _ => ?_⟩
    · unfold State.reg
      rw [State.page_modPage]
      exact mget_filter _ (fun _ => sec_stat_shows) _
    · rw [State.page_modPage, State.page_modPage]
      rfl
  · have hother (f : Page → Page) (u : State) : SecKept (u.modPage key f) u := .of_page rfl (State.page_modPage_other u f hk)
    exact .ite (.trans (hother _ _) (hother _ _)) (.trans (hother _ _) (hother _ _))

theorem reservePage_secKept (s : State) (key : Nat) : SecKept (s.reservePage key) s := by
  unfold State.reservePage
  extract_lets _ s2
  have h2 : SecKept s2 s := .trans (softReset_secKept _ _) (stopPage_secKept _ _)
  exact .trans (changeOwner_secKept _ _ _) (.trans (modPage_secKept _ _ fun _ => ⟨rfl, id⟩) h2)

theorem surveyFails_secKept (s : State) (code sub : Nat) : SecKept (s.surveyFails code sub) s := by
  unfold State.surveyFails
  split
  · exact .ite (.refl _) (.congr (.refl _) rfl rfl rfl)
  · exact .refl _

theorem takePlace_secKept (s : State) (t y2 : Task) : SecKept (s.takePlace t y2) s := by
  unfold State.takePlace
  refine .ite (.trans (commitPlace_secKept _ _) (dropRings_secKept _ _ _))
    (.ite (.trans (commitPlace_secKept _ _) ?_) (.trans (bumpEpoch_secKept _) ?_))
  · exact .trans (modTask_secKept _ _ _)
      (.trans (dropRings_secKept _ _ _) (coresRelease_secKept _ _))
  · exact .trans (takeRings_secKept _ _)
      (.trans (setTask_secKept _ _) (idleGroups_secKept _ _ _))

theorem takeKeys_secKept (s : State) (keys : List Nat) : SecKept (s.takeKeys keys) s := by
  unfold State.takeKeys
  extract_lets s1 s3
  have h1 : SecKept s1 s := .foldl fun _ _ => by
    split
    · exact takePlace_secKept _ _ _
    · exact suspendTask_secKept _ _ _
  have h3 : SecKept s3 s := by
    unfold s3
    split
    · exact .ite (.trans (surveyFails_secKept _ _ _) h1) h1
    · exact h1
  exact .trans (.foldl fun _ _ => reservePage_secKept _ _) h3

theorem finishHeld_secKept (s : State) : SecKept s.finishHeld s := by
  unfold State.finishHeld
  split
  · exact .refl s
  next h _ =>
    extract_lets busy moving s1 s2
    have h1 : SecKept s1 s := modPhn_secKept _ _
    have h2 : SecKept s2 s := .ite (.trans (suspendTask_secKept _ _ _) h1) (.trans (endTask_secKept _ _ _ _ _) h1)
    have hend {u : State} (hu : SecKept u s) (a : Answer) : SecKept (u.completeHeld h a) s := .trans (completeHeld_secKept _ _ _) hu
    refine .ite (.ite (.refl s) (hend h2 _)) (.ite (.refl s) ?_)
    split
    · exact .ite (hend h1 _) (.ite (hend h1 _) (hend (.trans (report_secKept _ _ _ _) h1) _))
    · exact .ite (.ite (hend h1 _) (hend (.trans (takeKeys_secKept _ _) h1) _)) (hend (.trans (report_secKept _ _ _ _) h1) _)

/-- Where no activation of SEC's is under way. -/
theorem beginNext_secKept {s : State} (h : s.activating = false) : SecKept s.beginNext s := by
  unfold State.beginNext
  rw [h, if_neg Bool.false_ne_true]
  exact .trans (finishHeld_secKept _) (.ite (.refl s) (beginFrom_secKept _ _))

theorem failTask_secKept (s : State) (id code sub : Nat) : SecKept (s.failTask id code sub) s := by
  unfold State.failTask
  exact endTask_secKept _ _ _ _ _

theorem logSecurity_secKept (s : State) : SecKept s.logSecurity s := .trans (logPage_secKept _ _ _ _ _ _ _) (.congr (.refl s) rfl rfl rfl)

end Sys2Proof.Machine

namespace Sys2Proof.Machine

/-! ### Firmware banks, and what SEC_STAT shows of them (R572, R573). -/

theorem fwBank_setBank_same (s : State) (b : Bool) (image : List Byte) : (s.setBank b image).fwBank b = image := by
  cases b
  · rfl
  · rfl

theorem fwBank_setBank_other (s : State) (b : Bool) (image : List Byte) : (s.setBank (!b) image).fwBank b = s.fwBank b := by
  cases b
  · rfl
  · rfl

theorem fwBank_of_power {t s : State} (h : t.power = s.power) (b : Bool) : t.fwBank b = s.fwBank b := by
  unfold State.fwBank
  rw [h]

theorem fwBank_image (s : State) (i : Option (List Byte)) (b : Bool) : (s.modPower fun p => { p with image := i }).fwBank b = s.fwBank b := rfl

theorem power_refreshOther (s : State) : s.refreshOther.power = s.power := rfl

theorem power_setUpdate (s : State) (n : Nat) : (s.setUpdate n).power = s.power := rfl

/-- The banks, once programming has been taken up. -/
theorem fwBank_taken (s : State) (n : Nat) (i : Option (List Byte)) (b : Bool) :
    ((s.refreshOther.setUpdate n).modPower fun p => { p with image := i }).fwBank b = s.fwBank b :=
  (fwBank_image _ i b).trans (fwBank_of_power ((power_setUpdate _ n).trans (power_refreshOther s)) b)

theorem rf_setUpdate_same (s : State) {n : Nat} (h : n < 16) : (s.setUpdate n).rf keySEC Reg.SEC_STAT.UPDATE = n :=
  (rf_wf_same s keySEC n (by decide) (by decide)).trans (Nat.mod_eq_of_lt h)

theorem runBank_setUpdate (s : State) (n : Nat) : (s.setUpdate n).runBank = s.runBank := rb_wf_apart (by decide) s n

theorem runBank_of_stat {t s : State} (h : t.reg keySEC 0x100 = s.reg keySEC 0x100) : t.runBank = s.runBank := by
  unfold State.runBank State.rb State.rf
  rw [show t.reg keySEC Reg.SEC_STAT.BANK.off = s.reg keySEC Reg.SEC_STAT.BANK.off from h]

/-- What bank is valid is shown beside the bank that runs. -/
theorem rf_refreshOther (s : State) {g : RegField} (h : Apart keySEC Reg.SEC_STAT.OTHER_VALID keySEC g) (hoff : g.off ≠ 0x104 ∧
    g.off ≠ Reg.SEC_FW_OTHER.off) :
    s.refreshOther.rf keySEC g = s.rf keySEC g := by
  unfold State.refreshOther
  extract_lets b ok
  rw [rf_setReg_apart _ _ (.inr hoff.2.symm)]
  exact rf_wf_apart h s _

theorem op_setReg (s : State) (key off : Nat) (w : Word) (j : Nat) : ((s.setReg key off w).page j).op = (s.page j).op := by
  obtain ⟨err, irq, regs, hpage, -⟩ := setReg_raised s key off w j
  exact (congrArg Page.op hpage).trans rfl

theorem fwWrite_effect {s : State} {who : Issuer} {tag : Nat} (image : List Byte) (ht : s.takes who keySEC)
    (hlength : 512 < (s.page keySEC).a2.toNat ∧ (s.page keySEC).a2.toNat ≤ fwBankBytes) :
    ∃ t, exec (.fwWrite who tag (some image)) s = .next t ∧ t.power.image = some (image.take (s.page keySEC).a2.toNat) ∧
      t.rf keySEC Reg.SEC_STAT.UPDATE = 1 ∧ t.fwBank (!s.runBank) = [] ∧ t.fwBank s.runBank = s.fwBank s.runBank := by
  change ∃ t, execFwWrite who tag (some image) s = .next t ∧ _
  unfold execFwWrite
  rw [command_of_takes ht, ← latch_a2 s keySEC 0x0100 tag] at *
  generalize s.latch keySEC 0x0100 tag = op at *
  have hfits : ¬(op.a2 ≤ 512 ∨ fwBankBytes < op.a2) := by omega
  rw [if_neg hfits]
  refine ⟨_, rfl, rfl, ?_, ?_, ?_⟩
  · exact (rf_modPower _ _ _ _).trans (rf_setUpdate_same _ (by decide))
  · exact (fwBank_taken _ _ _ _).trans (fwBank_setBank_same _ _ _)
  · exact (fwBank_taken _ _ _ _).trans (fwBank_setBank_other (s.accept keySEC op) s.runBank [])

theorem fwFault_of_stat {t s : State} (h : t.reg keySEC 0x100 = s.reg keySEC 0x100) (hguest : t.guest = s.guest)
    (hfused : t.power.fused = s.power.fused)
    (image : List Byte) : t.fwFault image = s.fwFault image := by
  unfold State.fwFault State.fwGood State.svnMin State.rf
  rw [hguest, hfused, show t.reg keySEC Reg.SEC_STAT.SVN_MIN.off = s.reg keySEC Reg.SEC_STAT.SVN_MIN.off from h]

/-- What programming leaves of the page, when the image is taken out. -/
theorem progressed_page (s : State) (f : Power → Power) (n : Nat) :
    ∃ w, ((s.modPower f).progressTo keySEC n).page keySEC = { s.page keySEC with progress := w } := ⟨_, State.page_modPage _ _ _⟩

theorem fwWriteDone_good {s : State} {i : List Byte} (himage : s.power.image = some i) (hop : s.secOp = some 0x0100) (hgood : s.fwFault i = none) :
    ∃ t, exec (.fwWriteDone true) s = .next t ∧ t.fwBank (!s.runBank) = i ∧ t.rf keySEC Reg.SEC_STAT.UPDATE = 2 ∧ t.power.image = none ∧
      (t.page keySEC).op = none := by
  change ∃ t, execFwWriteDone true s = .next t ∧ _
  unfold execFwWriteDone
  rw [himage]
  dsimp -zeta only
  rw [hop, if_neg (show ¬(some 0x0100 : Option Nat) ≠ some 0x0100 from fun h => h rfl)]
  extract_lets s1
  have hstat : s1.reg keySEC 0x100 = s.reg keySEC 0x100 := by
    obtain ⟨w, hpage⟩ := progressed_page s (fun p => { p with image := none }) (ceilDiv i.length 1024)
    exact reg_of_regs ((congrArg Page.regs hpage).trans rfl) _
  have himage1 : s1.power.image = none := rfl
  have hfault : s1.fwFault i = none := (fwFault_of_stat hstat rfl rfl i).trans hgood
  clear_value s1
  rw [if_pos rfl, hfault, runBank_of_stat hstat]
  have hpower : (((s1.setBank (!s.runBank) i).refreshOther.setUpdate 2).doneOp keySEC).power = (s1.setBank (!s.runBank) i).power :=
    (doneOp_quiet _ keySEC).get (·.power)
  refine ⟨_, rfl, (fwBank_of_power hpower _).trans (fwBank_setBank_same _ _ _), ?_, ?_, op_endOp _ _ _ _ _⟩
  · exact (rf_endOp _ _ _ _ _ _ _).trans (rf_setUpdate_same _ (by decide))
  · rw [hpower, ← himage1]
    cases s.runBank
    · rfl
    · rfl

theorem fwWriteDone_bad {s : State} {i : List Byte} {op : Op} (himage : s.power.image = some i) (hop : (s.page keySEC).op = some op)
    (hopcode : op.opcode = 0x0100) :
    ∃ t, exec (.fwWriteDone false) s = .next t ∧ t.power.image = none ∧ t.rf keySEC Reg.SEC_STAT.UPDATE = 0 ∧ (t.page keySEC).op = none ∧
      (t.page keySEC).cmdStat = cmdStatWord op.tag phaseFAILED 0x01 codeINTEGRITY := by
  have hsec : s.secOp = some 0x0100 := by
    rw [State.secOp, hop, Option.map_some, hopcode]
  change ∃ t, execFwWriteDone false s = .next t ∧ _
  unfold execFwWriteDone
  rw [himage]
  dsimp -zeta only
  rw [hsec, if_neg (show ¬(some 0x0100 : Option Nat) ≠ some 0x0100 from fun h => h rfl)]
  extract_lets s1
  have hop1 : (s1.page keySEC).op = some op := by
    obtain ⟨w, hpage⟩ := progressed_page s (fun p => { p with image := none }) (ceilDiv i.length 1024)
    exact ((congrArg Page.op hpage).trans rfl).trans hop
  have himage1 : s1.power.image = none := rfl
  clear_value s1
  rw [if_neg Bool.false_ne_true]
  refine ⟨_, rfl, ?_, ?_, op_endOp _ _ _ _ _, ?_⟩
  · exact ((failOp_quiet _ keySEC _ _).get (·.power.image)).trans himage1
  · exact (rf_endOp _ _ _ _ _ _ _).trans (rf_setUpdate_same _ (by decide))
  · exact cmdStat_endOp _ _ _ _ _ ((op_setReg _ _ _ _ _).trans hop1)

theorem fwActivate_effect {s : State} {who : Issuer} (tag : Nat) (ht : s.takes who keySEC) (hother : s.rb keySEC Reg.SEC_STAT.OTHER_VALID = true)
    (hrecovery : s.inRecovery = false) :
    ∃ t, exec (.fwActivate who tag) s = .next t ∧ t.rf keySEC Reg.SEC_STAT.UPDATE = 3 ∧ (t.page keySEC).op = some (s.latch keySEC 0x0101 tag) := by
  change ∃ t, execFwActivate who tag s = .next t ∧ _
  unfold execFwActivate
  rw [command_of_takes ht, hother, hrecovery]
  have hpage (u : State) : (u.activateHold false).page keySEC = u.page keySEC := by
    unfold State.activateHold
    split
    · unfold State.refreshHold
      extract_lets load cause
      exact (State.page_modPage_other _ _ (by decide)).trans (State.page_modPage_other _ _ (by decide))
    · rfl
  refine ⟨_, rfl, ?_, ?_⟩
  · exact (rf_of_regs (congrArg Page.regs (hpage _)) _).trans (rf_setUpdate_same _ (by decide))
  · refine (congrArg Page.op (hpage _)).trans ((op_setReg _ _ _ _ _).trans ?_)
    rw [page_accept_same]

theorem fwRatchet_effect {s : State} {who : Issuer} (tag : Nat) (ht : s.takes who keySEC) (hrecovery : s.inRecovery = false) :
    ∃ t, exec (.fwRatchet who tag) s = .next t ∧ t.svnMin = max s.svnMin (s.rf keySEC Reg.SEC_STAT.SVN) ∧ (t.page keySEC).op = none := by
  change ∃ t, execFwRatchet who tag s = .next t ∧ _
  unfold execFwRatchet
  rw [command_of_takes ht, hrecovery, if_neg Bool.false_ne_true]
  extract_lets svn s1 s2
  refine ⟨_, rfl, ?_, op_endOp _ _ _ _ _⟩
  have hmax : max s.svnMin svn < 2 ^ 8 := Nat.max_lt.2 ⟨bitsOf_lt _ _ _, bitsOf_lt _ _ _⟩
  have h1 : s1.svnMin = max s.svnMin svn := (rf_wf_same _ keySEC _ (by decide) (by decide)).trans (Nat.mod_eq_of_lt hmax)
  have h2 : s2.svnMin = max s.svnMin svn := (rf_refreshOther s1 (by decide) (by decide)).trans h1
  refine (rf_endOp _ _ _ _ _ _ _).trans ?_
  split
  · exact h2
  · exact (rf_wf_apart (by decide) s2 0).trans h2

/-! ### Activation (R573). -/

theorem boolNat_eq_one (b : Bool) : decide (boolNat b = 1) = b := by
  cases b
  · rfl
  · rfl

/-- The newer boot record is the one in force. -/
theorem preferred_bootA {s : State} {n : Nat} {b : Bool} (ha : s.power.bootA = some (n, boolNat b)) (hb : ∀ y, s.power.bootB = some y → y.1 < n) :
    s.preferred = b := by
  unfold State.preferred
  rw [ha]
  cases hy : s.power.bootB with
  | none => exact boolNat_eq_one b
  | some y =>
    dsimp only
    rw [if_neg (Nat.lt_asymm (hb y hy))]
    exact boolNat_eq_one b

theorem preferred_bootB {s : State} {n : Nat} {b : Bool} (hb : s.power.bootB = some (n, boolNat b)) (ha : ∀ x, s.power.bootA = some x → x.1 < n) :
    s.preferred = b := by
  unfold State.preferred
  rw [hb]
  cases hx : s.power.bootA with
  | none => exact boolNat_eq_one b
  | some x =>
    dsimp only
    rw [if_pos (ha x hx)]
    exact boolNat_eq_one b

/-- The boot record that is written last is the one in force. -/
theorem preferred_commitBoot (s : State) (b : Bool) : (s.commitBoot b).preferred = b := by
  unfold State.commitBoot
  extract_lets sa sb rec0
  by_cases hle : sa ≤ sb
  · have hpower : (s.modPower fun p => if sa ≤ sb then { p with bootA := rec0 } else { p with bootB := rec0 }).power =
        { s.power with bootA := rec0 } := if_pos hle
    refine preferred_bootA (n := max sa sb + 1) (congrArg Power.bootA hpower) fun y hy => ?_
    have hsb : sb = y.1 := congrArg (fun o : Option (Nat × Nat) => match o with | some x => x.1 | none => 0)
        ((congrArg Power.bootB hpower).symm.trans hy)
    omega
  · have hpower : (s.modPower fun p => if sa ≤ sb then { p with bootA := rec0 } else { p with bootB := rec0 }).power =
        { s.power with bootB := rec0 } := if_neg hle
    refine preferred_bootB (n := max sa sb + 1) (congrArg Power.bootB hpower) fun x hx => ?_
    have hsa : sa = x.1 := congrArg (fun o : Option (Nat × Nat) => match o with | some x => x.1 | none => 0)
        ((congrArg Power.bootA hpower).symm.trans hx)
    omega

theorem commitBoot_keeps_hold (s : State) (b : Bool) : (s.commitBoot b).power.holdAt = s.power.holdAt := by
  unfold State.commitBoot
  extract_lets sa sb rec0
  change (if sa ≤ sb then _ else _ : Power).holdAt = _
  split
  · rfl
  · rfl

theorem preferred_of_boot {t s : State} (ha : t.power.bootA = s.power.bootA) (hb : t.power.bootB = s.power.bootB) : t.preferred = s.preferred := by
  unfold State.preferred
  rw [ha, hb]

/-- The end of an activation, however its operation ends: the hold is released, and what follows touches neither SEC_STAT nor the banks. -/
theorem activateEnd_effect {s : State} {h n : Nat} (hhold : s.power.holdAt = some h) (hn : n < 16) (phase code sub : Nat) :
    let t := s.activateEnd n fun s => s.endOp keySEC phase code sub
    t.power = { s.power with holdAt := none } ∧ t.rf keySEC Reg.SEC_STAT.UPDATE = n ∧ t.runBank = s.runBank ∧ (t.page keySEC).op = none := by
  have hrelease : s.activateRelease.power = { s.power with holdAt := none } ∧ s.activateRelease.runBank = s.runBank := by
    unfold State.activateRelease
    rw [hhold]
    exact ⟨(refreshHold_secKept _).power, runBank_of_stat (refreshHold_secKept _).stat⟩
  obtain ⟨hpower, hbank⟩ := hrelease
  unfold State.activateEnd
  generalize s.activateRelease = u at hpower hbank
  have hop : (((u.setUpdate n).endOp keySEC phase code sub).page keySEC).op = none := op_endOp _ _ _ _ _
  have hidle : ((u.setUpdate n).endOp keySEC phase code sub).activating = false := by
    rw [State.activating, hop]
  have hkept := beginNext_secKept hidle
  have hended := endOp_secKept (u.setUpdate n) keySEC phase code sub
  dsimp only
  refine ⟨hkept.power.trans (hended.power.trans hpower), ?_, ?_, hkept.idle hop⟩
  · refine Eq.trans ?_ (rf_setUpdate_same u hn)
    unfold State.rf
    exact congrArg (fun w => wget w _ _) (hkept.stat.trans hended.stat)
  · exact (runBank_of_stat (hkept.stat.trans hended.stat)).trans ((runBank_setUpdate u n).trans hbank)

theorem runBank_advanceTo (s : State) (six : Nat) : (s.advanceTo six).runBank = s.runBank := rfl

theorem power_advanceTo (s : State) (six : Nat) : (s.advanceTo six).power = s.power := rfl

theorem activateTimeout_effect {s : State} {h : Nat} (hhold : s.power.holdAt = some h) (hop : s.secOp = some 0x0101) :
    ∃ t, exec .activateTimeout s = .next t ∧ t.power.holdAt = none ∧ t.rf keySEC Reg.SEC_STAT.UPDATE = 2 ∧ t.runBank = s.runBank ∧
      (t.page keySEC).op = none := by
  have hexec (u : State) (hu : u.power.holdAt = some h) (hbank : u.runBank = s.runBank) :
      let t := u.activateEnd 2 fun s => s.failOp keySEC codeFAULT 0x04
      t.power.holdAt = none ∧ t.rf keySEC Reg.SEC_STAT.UPDATE = 2 ∧ t.runBank = s.runBank ∧ (t.page keySEC).op = none := by
    obtain ⟨hpower, hupdate, hrun, hidle⟩ := activateEnd_effect hu (n := 2) (by decide) phaseFAILED codeFAULT 0x04
    exact ⟨congrArg Power.holdAt hpower, hupdate, hrun.trans hbank, hidle⟩
  refine ⟨_, ?_, hexec (s.advanceTo (h + 40 * sixPerMs)) ((congrArg Power.holdAt (power_advanceTo _ _)).trans hhold) (runBank_advanceTo _ _)⟩
  change execActivateTimeout s = _
  unfold execActivateTimeout
  rw [hhold]
  dsimp only
  rw [hop, if_neg fun h => h rfl]

/-- An image that runs: SEC_STAT shows its bank. -/
theorem runBank_runImage (s : State) (b fallback : Bool) : (s.runImage b fallback).runBank = b := by
  unfold State.runImage
  extract_lets i s1
  have h1 : s1.runBank = b := (rb_wf_apart (by decide) _ _).trans (rb_wb_same _ keySEC b (by decide) (by decide))
  have h2 (u : State) (w : Word) : (u.setReg keyMOD Reg.MOD_FW.off w).runBank = u.runBank := by
    unfold State.runBank State.rb
    rw [rf_setReg_apart _ _ (.inl (by decide))]
  have h3 (u : State) : u.refreshOther.runBank = u.runBank := by
    unfold State.runBank State.rb
    rw [rf_refreshOther u (by decide) (by decide)]
  exact (h3 _).trans ((h2 _ _).trans h1)

theorem runBank_loadPhnVer (s : State) : s.loadPhnVer.runBank = s.runBank := by
  unfold State.loadPhnVer
  conv => lhs; unfold State.runBank State.rb
  rw [rf_setReg_apart _ _ (.inl (by decide))]
  rfl

theorem runBank_commitBoot (s : State) (b : Bool) : (s.commitBoot b).runBank = s.runBank := rfl

theorem power_loadPhnVer (s : State) : s.loadPhnVer.power = s.power := rfl

theorem power_loaded (s : State) (b : Bool) : (s.runImage b false).loadPhnVer.power = s.power := (power_loadPhnVer _).trans rfl

theorem newImageTakeover_effect {s : State} (hop : s.secOp = some 0x0101) (hhold : s.power.holdAt.isSome = true) :
    ∃ t, exec .newImageTakeover s = .next t ∧ t.runBank = !s.runBank ∧ t.power.holdAt = none ∧ (t.page keySEC).op = none ∧
      t.preferred = !s.runBank := by
  obtain ⟨h, hhold⟩ := Option.isSome_iff_exists.1 hhold
  change ∃ t, execNewImageTakeover s = .next t ∧ _
  unfold execNewImageTakeover
  rw [hop, hhold, if_neg (show ¬((some 0x0101 : Option Nat) ≠ some 0x0101 ∨ (some h).isNone = true) from
    fun hn => hn.elim (fun h => h rfl) fun h => Bool.noConfusion h)]
  extract_lets s1 s2
  have h1 : s1.runBank = !s.runBank ∧ s1.preferred = !s.runBank ∧ s1.power.holdAt = some h :=
    ⟨(runBank_commitBoot _ _).trans ((runBank_loadPhnVer _).trans (runBank_runImage s _ _)), preferred_commitBoot _ _,
      (commitBoot_keeps_hold _ _).trans ((congrArg Power.holdAt (power_loaded s _)).trans hhold)⟩
  obtain ⟨hrun, hpref, hhold1⟩ := h1
  have h2 : SecKept s2 s1 := .trans (logPage_secKept _ _ _ _ _ _ _) (logSecurity_secKept _)
  obtain ⟨hpower, -, hrun2, hidle⟩ := activateEnd_effect (s := s2) ((congrArg Power.holdAt h2.power).trans hhold1) (n := 0) (by decide)
    phaseDONE codeOK 0
  have hbootA : s2.power.bootA = s1.power.bootA := congrArg Power.bootA h2.power
  have hbootB : s2.power.bootB = s1.power.bootB := congrArg Power.bootB h2.power
  refine ⟨_, rfl, hrun2.trans ((runBank_of_stat h2.stat).trans hrun), congrArg Power.holdAt hpower, hidle, ?_⟩
  refine (preferred_of_boot (s := s1) ?_ ?_).trans hpref
  · exact (congrArg Power.bootA hpower).trans hbootA
  · exact (congrArg Power.bootB hpower).trans hbootB

/-- Settles O34: a bank is written, checked, taken over and ratcheted, and the end of an activation leaves what it set whatever waited. -/
theorem firmwareCommandsTakeEffect : Obligations.FirmwareCommandsTakeEffect := by
  unfold Obligations.FirmwareCommandsTakeEffect
  refine ⟨?_, ?_, ?_, ?_, ?_, ?_, ?_⟩
  · intro s who tag image ht hlength
    exact fwWrite_effect image ht hlength
  · intro s i himage hop hgood
    exact fwWriteDone_good himage hop hgood
  · intro s i op himage hop hopcode
    exact fwWriteDone_bad himage hop hopcode
  · intro s who tag ht hother hrecovery
    exact fwActivate_effect tag ht hother hrecovery
  · intro s hop hhold
    exact newImageTakeover_effect hop hhold
  · intro s h hhold hop
    exact activateTimeout_effect hhold hop
  · intro s who tag ht hrecovery
    exact fwRatchet_effect tag ht hrecovery

end Sys2Proof.Machine

namespace Sys2Proof.Machine

/-! ### What streams that close leave of MOD, SEC and FLT (R461, R588). -/

theorem not_sysReg_of_ge {k o : Nat} (h : 8 ≤ k) : ¬ sysReg 0 k o := by
  unfold sysReg keyMOD keySEC keyFLT keyOf
  omega

theorem ge_keyETH (p : Nat) : 8 ≤ keyETH p := by
  unfold keyETH keyOf
  omega

theorem ge_keyCMP (n : Nat) : 8 ≤ keyCMP n := by
  unfold keyCMP keyOf
  omega

theorem ge_keyMEM (m : Nat) : 8 ≤ keyMEM m := by
  unfold keyMEM keyOf
  omega

/-- What keeps PWR's page as well keeps the others. -/
theorem Steady.lower {t s : State} (h : Steady 1 t s) : Steady 0 t s := by
  refine ⟨fun k o hk => h.reg k o ?_, fun k hk => h.page k ?_⟩
  · unfold sysReg at hk ⊢
    omega
  · unfold sysPage at hk ⊢
    omega

theorem steady_foldl {l : Nat} {α : Type} {f : State → α → State} (h : ∀ s x, Steady l (f s x) s) {xs : List α} {s : State} :
    Steady l (xs.foldl f s) s := .foldl (fun s x _ => h s x) s

theorem sendMsix_steady (s : State) (v : Nat) : Steady 0 (s.sendMsix v) s := .ite (.of_page fun _ => rfl) (.of_page fun _ => rfl)

/-- An answer that is a next state, and otherwise the state as it is. -/
theorem orStay_steady {o : Res} {s : State} (h : ∀ t, o = .next t → Steady 0 t s) : Steady 0 (orStay o s) s := by
  unfold orStay
  split
  · exact h _ rfl
  · exact .refl s

theorem emit_steady (s : State) (o : Output) : Steady 0 (s.emit o) s := by
  unfold State.emit
  exact .congr (.refl _) rfl rfl

theorem setTask_steady (s : State) (t : Task) : Steady 0 (s.setTask t) s := .of_page fun _ => rfl

theorem modTask_steady (s : State) (id : Nat) (f : Task → Task) : Steady 0 (s.modTask id f) s := by
  unfold State.modTask
  split
  · exact setTask_steady _ _
  · exact .refl _

theorem modRing_steady (s : State) (n : Nat) (f : Ring → Ring) : Steady 0 (s.modRing n f) s := by
  unfold State.modRing
  extract_lets _ s2
  have h2 : Steady 0 s2 s := .congr (.refl _) rfl rfl
  exact .ite h2 (.trans (setReg_steady _ _ (not_sysReg_of_ge (by decide))) h2)

theorem modDrive_steady (s : State) (d : Nat) (f : Drive → Drive) : Steady 0 (s.modDrive d f) s := by
  unfold State.modDrive
  split
  · exact .congr (.refl _) rfl rfl
  · exact .refl _

theorem ringSq_steady (s : State) (d i : Nat) : Steady 0 (s.ringSq d i) s := by
  unfold State.ringSq
  split
  · exact .refl _
  · split
    · exact .refl _
    · extract_lets _ s2
      have h2 : Steady 0 s2 s := modDrive_steady _ _ _
      exact .trans (emit_steady _ _) h2

theorem nvmeIssue_steady {s : State} {d opcode block blocks slot : Nat} {t : Nat × State} (h : s.nvmeIssue d opcode block blocks slot = some t) :
    Steady 0 t.2 s := by
  unfold State.nvmeIssue at h
  split at h
  · cases h
  · split at h
    · cases h
    · cases h
      exact .trans (ringSq_steady _ _ _) (emit_steady _ _)

theorem nvmeFlush_steady (s : State) (d : Nat) : Steady 0 (s.nvmeFlush d) s := by
  unfold State.nvmeFlush
  split
  next h => exact nvmeIssue_steady h
  next => exact .refl s

theorem refreshFlows_steady (s : State) : Steady 0 (s.refreshFlows) s := by
  unfold State.refreshFlows
  exact steady_foldl fun _ _ => by
    extract_lets
    exact wf_steady _ _ _ (not_sysReg_of_ge (ge_keyETH _))

theorem refreshStr_steady (s : State) : Steady 0 (s.refreshStr) s := by
  unfold State.refreshStr
  extract_lets s1 _ _ s4 _ s6
  have h1 : Steady 0 s1 s := wf_steady _ _ _ (not_sysReg_of_ge (by decide))
  have h4 : Steady 0 s4 s := .trans (setReg_steady _ _ (not_sysReg_of_ge (by decide))) h1
  have h6 : Steady 0 s6 s := .trans (setReg_steady _ _ (not_sysReg_of_ge (by decide))) h4
  exact .trans (refreshFlows_steady _) (.trans (steady_foldl fun _ _ => setReg_steady _ _ (not_sysReg_of_ge (by decide))) h6)

theorem dropClosed_steady (s : State) (task : Nat) : Steady 0 (s.dropClosed task) s := by
  unfold State.dropClosed
  split
  · exact .refl _
  · refine .ite ?_ ?_
    · extract_lets s1 s2 s4
      have h1 : Steady 0 s1 s := .ite (modRing_steady _ _ _) (.refl _)
      have h2 : Steady 0 s2 s := .ite (.trans (steady_foldl fun _ _ => nvmeFlush_steady _ _) h1) h1
      have h4 : Steady 0 s4 s := .congr (u := s2) h2 rfl rfl
      exact .trans (refreshStr_steady _) (.trans (modTask_steady _ _ _) h4)
    · exact .refl _

theorem modStream_steady (s : State) (task : Nat) (f : Stream → Stream) : Steady 0 (s.modStream task f) s := by
  unfold State.modStream
  split
  · exact .congr (.refl _) rfl rfl
  · exact .refl _

theorem modPort_steady (s : State) (task i : Nat) (f : StreamPort → StreamPort) : Steady 0 (s.modPort task i f) s := by
  unfold State.modPort
  exact modStream_steady _ _ _

theorem putOnPort_steady (s : State) (task i : Nat) (r : StreamRec) : Steady 0 (s.putOnPort task i r) s := by
  unfold State.putOnPort
  split
  · exact .refl _
  · extract_lets
    exact modPort_steady _ _ _ _

theorem streamBench_steady (s : State) (task six : Nat) : Steady 0 (s.streamBench task six) s := by
  unfold State.streamBench
  split
  · exact .refl _
  · extract_lets
    refine .ite ?_ ?_
    · exact .refl _
    · extract_lets
      exact modStream_steady _ _ _

theorem compressOn_steady (s : State) (n level : Nat) (payload : List Byte) : Steady 0 (s.compressOn n level payload).1 s := by
  unfold State.compressOn
  extract_lets out
  split
  · exact .trans (setErr_steady _ _ _) (count_steady _ _ (not_sysReg_of_ge (ge_keyCMP n)))
  · exact count_steady _ _ (not_sysReg_of_ge (ge_keyCMP n))

theorem takeRecord_steady {s t : State} {task : Nat} {x : Ready} (h : s.takeRecord task x = some t) : Steady 0 t s := by
  unfold State.takeRecord at h
  split at h
  · cases h
  · extract_lets +onlyGivenNames d r plain wants at h
    split at h
    · cases h
    · split at h
      · cases h
      · split at h
        rename_i s1 flags payload hfrom
        have h1 : Steady 0 s1 s := by
          split at hfrom
          · split at hfrom
            next n _ =>
              have hc := compressOn_steady s n (dCOMP_LEVEL d) r.payload
              split at hfrom
              · next e =>
                rw [e] at hc
                cases hfrom
                exact hc
              · next e =>
                rw [e] at hc
                cases hfrom
                exact hc
            next =>
              cases hfrom
              exact .refl s
          · cases hfrom
            exact .refl s
        clear hfrom
        dsimp only at h
        split at h
        · cases h
        · split at h
          · cases h
          · cases h
            exact .trans (putOnPort_steady _ _ _ _) (.trans (modPort_steady _ _ _ _) (.trans (modStream_steady _ _ _)
              (.trans (streamBench_steady _ _ _) h1)))

theorem takeAll_steady (s : State) (task : Nat) (all : List Ready) : Steady 0 (s.takeAll task all) s := by
  induction all generalizing s with
  | nil => exact .refl s
  | cons x rest ih =>
    unfold State.takeAll
    split
    · split
      next h => exact .trans (ih _) (.congr (takeRecord_steady h) rfl rfl)
      next => exact .refl s
    · exact ih s

theorem closeStream_steady (s : State) (task reason code sub : Nat) (accepts : State → Nat → Nat → Bool) :
    Steady 0 (s.closeStream task reason code sub accepts) s := by
  unfold State.closeStream
  split
  · exact .congr (modTask_steady s task _) rfl rfl
  · refine .ite (.refl s) ?_
    extract_lets s1 _ s2 _ _ s3 s4 s5
    have h1 : Steady 0 s1 s := .ite (takeAll_steady _ _ _) (.refl _)
    have h2 : Steady 0 s2 s := .congr h1 rfl rfl
    have h4 : Steady 0 s4 s := .trans (streamBench_steady _ _ _) (.trans (modStream_steady _ _ _) h2)
    have h5 : Steady 0 s5 s := .trans (modStream_steady _ _ _) h4
    split
    · exact h4
    · exact .trans (dropClosed_steady _ _) (.trans (steady_foldl fun _ _ => putOnPort_steady _ _ _ _) h5)

theorem modStack_steady (s : State) (m : Nat) (f : Stack → Stack) : Steady 0 (s.modStack m f) s := by
  unfold State.modStack
  exact .congr (.refl _) rfl rfl

theorem ringFault_steady (s : State) (n : Nat) : Steady 0 (s.ringFault n) s :=
  .trans (logPage_steady _ _ _ _ _ _ _) (.congr (.trans (irqBit_steady _ _ _) (.trans (setErr_steady _ _ _)
    (.trans (setReg_steady _ _ (not_sysReg_of_ge (by decide))) (modRing_steady _ _ _)))) rfl rfl)

theorem ringMessage_steady (s : State) (n : Nat) : Steady 0 (s.ringMessage n) s := by
  unfold State.ringMessage
  extract_lets
  refine .ite ?_ ?_
  · exact .refl _
  · extract_lets
    exact .ite (.trans (sendMsix_steady _ _) (modRing_steady _ _ _)) (modRing_steady _ _ _)

theorem holeAccess_steady (s : State) (m u : Nat) : Steady 0 (s.holeAccess m u) s := by
  unfold State.holeAccess
  extract_lets _ s2
  have h2 : Steady 0 s2 s := .trans (setErr_steady _ _ _) (count_steady _ _ (not_sysReg_of_ge (ge_keyMEM _)))
  exact .ite h2 (.trans (logPage_steady _ _ _ _ _ _ _) (.trans (modStack_steady _ _ _) h2))

theorem storeMem_steady (s : State) (u : Nat) (bs : List (Byte × Bool)) : Steady 0 (s.storeMem u bs) s := by
  have hwrite (v : State) (a : Nat) (xs : List Byte) : Steady 0 (v.writeMem a xs) v := (writeMem_steady v a xs).lower
  have hpoison (v : State) (a : Nat) (b : Bool) : Steady 0 (v.setPoison a b) v := (setPoison_steady v a b).lower
  unfold State.storeMem
  refine .ite ?_ ?_
  · exact .trans (steady_foldl fun v _ => .ite (hpoison v _ _) (.refl v)) (hwrite s _ _)
  · refine steady_foldl fun v i => ?_
    dsimp only
    exact .ite (.ite (.trans (hpoison _ _ _) (hwrite v _ _)) (hwrite v _ _)) (holeAccess_steady v _ _)

theorem ringWrite_steady (s : State) (r : Ring) (a : Nat) (bs : List Byte) : Steady 0 (s.ringWrite r a bs) s := by
  unfold State.ringWrite
  exact .ite (emit_steady _ _) (storeMem_steady _ _ _)

theorem execRingProduce_steady {ring : Fin 32768} {ok : Bool} {s t : State} (h : execRingProduce ring ok s = .next t) : Steady 0 t s := by
  unfold execRingProduce at h
  extract_lets +onlyGivenNames n r at h
  split at h
  · cases h
    exact .refl s
  · split at h
    · cases h
      exact .refl s
    · dsimp only at h
      split at h
      · cases h
        exact .ite (.refl s) (modRing_steady _ _ _)
      · split at h
        · cases h
          exact .refl s
        · split at h
          · cases h
            exact ringFault_steady _ _
          · cases h
            exact .trans (ringMessage_steady _ _) (.trans (modRing_steady _ _ _) (ringWrite_steady _ _ _ _))

theorem modRec_steady (s : State) (task i seq : Nat) (f : StreamRec → StreamRec) : Steady 0 (s.modRec task i seq f) s := by
  unfold State.modRec
  exact modPort_steady _ _ _ _

theorem payUnit_steady (s : State) (task i n : Nat) (free : Bool) : Steady 0 (s.payUnit task i n free) s := by
  unfold State.payUnit
  split
  · exact .refl _
  · extract_lets _ s2 _ s4
    have h2 : Steady 0 s2 s := .ite (.refl _) (modPort_steady _ _ _ _)
    have h4 : Steady 0 s4 s := .trans (setReg_steady _ _ (not_sysReg_of_ge (by decide))) h2
    exact .congr (u := s4) h4 rfl rfl

theorem recordWaits_steady (s : State) (task i : Nat) : Steady 0 (s.recordWaits task i) s := by
  unfold State.recordWaits
  split
  · exact .refl _
  · split
    · exact .refl _
    · split
      · exact .ite (.refl _) (.trans (modPort_steady _ _ _ _) (count_steady _ _ (not_sysReg_of_ge (by decide))))
      · exact .refl _

theorem modFlow_steady (s : State) (task i : Nat) (f : Flow → Flow) : Steady 0 (s.modFlow task i f) s := by
  unfold State.modFlow
  exact modPort_steady _ _ _ _

theorem sendVita_steady (s : State) (task i seq load : Nat) (vita : List Byte) : Steady 0 (s.sendVita task i seq load vita) s := by
  unfold State.sendVita
  extract_lets _ s2
  have h2 : Steady 0 s2 s := count_steady _ _ (not_sysReg_of_ge (ge_keyETH _))
  refine .ite ?_ ?_
  · split
    · exact h2
    · extract_lets _ _ s5
      have h5 : Steady 0 s5 s := .trans (modFlow_steady _ _ _ _) h2
      exact .trans (emit_steady _ _) h5
  · exact .trans (emit_steady _ _) h2

theorem sendContext_steady (s : State) (task : Nat) (p : StreamPort) (seq six : Nat) (body : List Byte) (changed : Bool)
    : Steady 0 (s.sendContext task p seq six body changed) s := by
  unfold State.sendContext
  extract_lets
  exact .trans (modPort_steady _ _ _ _) (sendVita_steady _ _ _ _ _ _)

theorem ethTransfer_steady (s : State) (t : Stream) (p : StreamPort) (r : StreamRec) : Steady 0 (s.ethTransfer t p r) s := by
  unfold State.ethTransfer
  extract_lets _ _ _ _ s5 s6 _ s8
  refine .ite ?_ ?_
  · exact recordWaits_steady _ _ _
  · refine .ite ?_ ?_
    · exact recordWaits_steady _ _ _
    · refine .ite ?_ ?_
      · exact sendContext_steady _ _ _ _ _ _ _
      · have h5 : Steady 0 s5 s := sendVita_steady _ _ _ _ _ _
        have h6 : Steady 0 s6 s := .trans (modPort_steady _ _ _ _) h5
        have h8 : Steady 0 s8 s := .trans (modRec_steady _ _ _ _ _) h6
        exact .trans (payUnit_steady _ _ _ _ _) h8

theorem hostTransfer_steady (s : State) (t : Stream) (p : StreamPort) (r : StreamRec) : Steady 0 (s.hostTransfer t p r) s := by
  unfold State.hostTransfer
  extract_lets
  split
  · exact recordWaits_steady _ _ _
  · extract_lets _ _ _ _ _ s11 s13 s14 _
    refine .ite ?_ ?_
    · exact recordWaits_steady _ _ _
    · have h11 : Steady 0 s11 s := emit_steady _ _
      have h13 : Steady 0 s13 s := .trans (modRec_steady _ _ _ _ _) h11
      have h14 : Steady 0 s14 s := .trans (payUnit_steady _ _ _ _ _) h13
      refine .ite ?_ ?_
      · exact .trans (modRing_steady _ _ _) h14
      · exact h14

theorem refreshDrive_steady (s : State) (d : Nat) : Steady 0 (s.refreshDrive d) s := by
  unfold State.refreshDrive
  extract_lets
  exact setReg_steady _ _ (not_sysReg_of_ge (by decide))

theorem nvmeWrite_steady {s t : State} {task d block : Nat} {bytes : List Byte} {seqs : List Nat} (h : s.nvmeWrite task d block bytes seqs = some t) :
    Steady 0 t s := by
  unfold State.nvmeWrite at h
  split at h
  · cases h
  · split at h
    · cases h
    · split at h
      · cases h
      · split at h
        · cases h
        next e =>
          cases h
          exact .trans (refreshDrive_steady _ _) (.congr (nvmeIssue_steady e) rfl rfl)

theorem claimExtent_steady {s u : State} {t : Stream} {p : StreamPort} {v : Drive} {e : Nat} (h : s.claimExtent t p v e = some u) :
    Steady 0 u s := by
  unfold State.claimExtent at h
  dsimp only at h
  split at h
  · cases h
  next hw =>
    cases h
    exact .trans (modPort_steady _ _ _ _) (.trans (modDrive_steady _ _ _) (nvmeWrite_steady hw))

theorem reassign_steady (s : State) (task : Nat) (rs : List StreamRec) : Steady 0 (s.reassign task rs) s := by
  induction rs generalizing s with
  | nil => exact .refl s
  | cons r rest ih =>
    unfold State.reassign
    dsimp only
    split
    · exact ih s
    · split
      · exact .refl s
      · split
        · exact .refl s
        · exact .trans (ih _) (.trans (putOnPort_steady _ _ _ _) (modPort_steady _ _ _ _))

theorem leaveSet_steady (s : State) (task d : Nat) : Steady 0 (s.leaveSet task d) s := by
  unfold State.leaveSet
  split
  · exact .refl _
  · split
    · exact .refl _
    · extract_lets s1
      have h1 : Steady 0 s1 s := modStream_steady _ _ _
      exact .trans (refreshStr_steady _) (.trans (reassign_steady _ _ _) h1)

theorem nviMark_steady (s : State) (off d : Nat) (b : Bool) : Steady 0 (s.nviMark off d b) s := by
  unfold State.nviMark
  exact setReg_steady _ _ (not_sysReg_of_ge (by decide))

theorem storeFull_steady (s : State) (d : Nat) : Steady 0 (s.storeFull d) s := by
  unfold State.storeFull
  extract_lets s1
  have h1 : Steady 0 s1 s := .trans (setErr_steady _ _ _) (nviMark_steady _ _ _ _)
  exact .trans (steady_foldl fun _ _ => by
    split
    · exact .ite (leaveSet_steady _ _ _) (.refl _)
    · exact .refl _) h1

theorem nvmeTransfer_steady (s : State) (t : Stream) (p : StreamPort) (v : Drive) : Steady 0 (s.nvmeTransfer t p v) s := by
  have hclaim (e : Nat) : Steady 0 ((s.claimExtent t p v e).getD (s.recordWaits t.task p.index)) s := by
    cases h : s.claimExtent t p v e with
    | none => exact recordWaits_steady _ _ _
    | some u => exact claimExtent_steady h
  have hfull : Steady 0 ((s.recordWaits t.task p.index).storeFull p.index) s := .trans (storeFull_steady _ _) (recordWaits_steady _ _ _)
  unfold State.nvmeTransfer
  extract_lets +onlyGivenNames d
  split
  · split
    · extract_lets +onlyGivenNames all total tail n parts bytes bytes2
      clear_value bytes2 parts n
      split
      · exact .refl s
      · split
        · exact recordWaits_steady _ _ _
        next hw =>
          exact .trans (payUnit_steady _ _ _ _ _) (.trans (steady_foldl fun _ _ => modRec_steady _ _ _ _ _)
            (.trans (modPort_steady _ _ _ _) (nvmeWrite_steady hw)))
    · split
      · exact hclaim _
      · exact hfull
  · split
    · exact hclaim _
    · exact hfull

theorem execStreamTransfer_steady {task : BitVec 32} {port : Fin 32} {s t : State} (h : execStreamTransfer task port s = .next t) : Steady 0 t s := by
  unfold execStreamTransfer at h
  extract_lets +onlyGivenNames s1 at h
  have h1 : Steady 0 s1 s := modPort_steady _ _ _ _
  clear_value s1
  split at h
  · cases h
    exact h1
  · split at h
    · cases h
      exact h1
    · split at h
      · cases h
        exact h1
      · split at h
        · cases h
          exact h1
        · split at h
          · cases h
            exact .trans (hostTransfer_steady _ _ _ _) h1
          · split at h
            · cases h
              exact .trans (ethTransfer_steady _ _ _ _) h1
            · split at h
              · cases h
                exact .trans (nvmeTransfer_steady _ _ _ _) h1
              · cases h
                exact .trans (recordWaits_steady _ _ _) h1

theorem flushStream_steady (s : State) (task : Nat) : Steady 0 (s.flushStream task) s := by
  unfold State.flushStream
  split
  · exact .refl s
  · refine steady_foldl fun u i => ?_
    extract_lets s1
    have h1 : Steady 0 s1 u := steady_foldl fun _ _ => orStay_steady fun _ => execStreamTransfer_steady
    exact .ite (.trans (steady_foldl fun _ _ => orStay_steady fun _ => execRingProduce_steady) h1) h1

theorem closeAll_steady (s : State) (reason code : Nat) : Steady 0 (s.closeAll reason code) s := by
  unfold State.closeAll
  extract_lets
  exact .trans (steady_foldl fun _ _ => flushStream_steady _ _) (steady_foldl fun _ _ => closeStream_steady _ _ _ _ _ _)

end Sys2Proof.Machine

namespace Sys2Proof.Machine

/-! ### Planes and management cores (R585-R587). -/

/-- An entry of the log leaves the registers of FLT that count none. -/
theorem reg_logRaw (s : State) (e : LogEntry) {o : Nat} (h : o ≠ 0x104 ∧ o ≠ 0x108 ∧ o ≠ 0x10c ∧ o ≠ 0x110) :
    (s.logRaw e).reg keyFLT o = s.reg keyFLT o := by
  obtain ⟨hhead, holdest, hlost, hcount⟩ := h
  unfold State.logRaw
  extract_lets +onlyGivenNames m e2 full s1 s2 s3
  have h2 : s2.reg keyFLT o = s.reg keyFLT o := reg_setReg_other s1 _ _ hhead
  have h3 : s3.reg keyFLT o = s.reg keyFLT o := by
    unfold s3
    split
    · exact (reg_setReg_other _ _ _ holdest).trans ((reg_setReg_other s2 _ _ hlost).trans h2)
    · exact h2
  clear_value s3
  extract_lets +onlyGivenNames src s4 s5
  have h4 : s4.reg keyFLT o = s.reg keyFLT o := by
    unfold s4
    split
    · exact (reg_setReg_other s3 _ _ hcount).trans h3
    · exact h3
  clear_value s4
  have h5 : s5.reg keyFLT o = s.reg keyFLT o := by
    unfold s5
    split
    · exact (reg_of_regs (regs_irqBit s4 keyFLT 16 keyFLT) o).trans h4
    · exact h4
  split
  · exact h5
  · exact h5

theorem reg_logPage (s : State) (key level code sub kind detail : Nat) {o : Nat} (h : o ≠ 0x104 ∧ o ≠ 0x108 ∧ o ≠ 0x10c ∧ o ≠ 0x110) :
    (s.logPage key level code sub kind detail).reg keyFLT o = s.reg keyFLT o := by
  have hraw (u : State) (e : LogEntry) := reg_logRaw u e h
  change (s.log1 _).reg keyFLT o = _
  unfold State.log1
  extract_lets full s1 s2
  split
  · exact (hraw s2 _).trans ((reg_of_regs (regs_setErrFlag s1 keyFLT errLOG_LOST keyFLT) o).trans (hraw s _))
  · exact hraw s _

theorem planeFailure_effect {s : State} (plane : Fin 2) (hin : s.rf keyFLT Reg.FLT_PLANES.PLANE_OUT = 0) :
    ∃ t, exec (.planeFailure plane) s = .next t ∧ nbit (t.rf keyFLT Reg.FLT_PLANES.PLANE_OUT) plane = true ∧
      plane.val ∈ t.power.planeTests ∧ t.safeReq = s.safeReq := by
  let s1 := s.wf keyFLT Reg.FLT_PLANES.PLANE_OUT (putBit (s.rf keyFLT Reg.FLT_PLANES.PLANE_OUT) plane true)
  have hout : nbit (s1.rf keyFLT Reg.FLT_PLANES.PLANE_OUT) plane = true := nbit_rf_putBit s keyFLT true (by decide) plane.isLt
  have hfault : s1.hubFault.rf keyFLT Reg.FLT_PLANES.PLANE_OUT = s1.rf keyFLT Reg.FLT_PLANES.PLANE_OUT := by
    unfold State.rf
    rw [State.hubFault, reg_logPage _ _ _ _ _ _ _ (by decide)]
  have hin0 : ¬nbit (s.rf keyFLT Reg.FLT_PLANES.PLANE_OUT) plane = true := by
    rw [hin, nbit, Nat.zero_div]
    exact Bool.false_ne_true
  refine ⟨s1.hubFault.modPower fun p => { p with planeTests := p.planeTests ++ [plane.val] }, ?_, ?_, ?_, ?_⟩
  · change execPlaneFailure plane s = _
    unfold execPlaneFailure
    dsimp only
    rw [if_neg hin0, if_neg fun h => h hin]
  · rw [rf_modPower, hfault]
    exact hout
  · exact List.mem_append_right _ List.mem_cons_self
  · exact (logPage_quiet s1 keyFLT 2 codeFAULT 0 2 _).get (·.safeReq)

theorem planeSelftest_effect {s : State} {plane : Fin 2} (hdue : s.power.planeTests.contains plane.val = true) :
    ∃ t, exec (.planeSelftest plane true) s = .next t ∧ nbit (t.rf keyFLT Reg.FLT_PLANES.PLANE_OUT) plane = false ∧
      t.power.planeTests.contains plane.val = false := by
  let s1 := s.modPower fun p => { p with planeTests := p.planeTests.filter fun x => decide (x ≠ plane.val) }
  refine ⟨s1.wf keyFLT Reg.FLT_PLANES.PLANE_OUT (putBit (s1.rf keyFLT Reg.FLT_PLANES.PLANE_OUT) plane false), ?_, ?_, ?_⟩
  · change execPlaneSelftest plane true s = _
    unfold execPlaneSelftest
    rw [hdue]
    rfl
  · exact nbit_rf_putBit s1 keyFLT false (by decide) plane.isLt
  · refine Bool.eq_false_iff.2 fun h => ?_
    exact of_decide_eq_true (List.mem_filter.1 (List.contains_iff_mem.1 h)).2 rfl

/-- The management cores restart: they answer again from the time given. -/
theorem mismatch_power (s : State) (m : Nat) :
    let t := (s.modPower fun p => { p with mismatches := p.mismatches ++ [s.six], mgmtUntil := m }).refreshMismatch.hubFault
    t.power.mgmtUntil = m ∧ t.six = s.six := by
  have hquiet (u : State) : Quiet u.hubFault u := logPage_quiet u keyFLT 2 codeFAULT 0 2 _
  exact ⟨(hquiet _).get (·.power.mgmtUntil), (hquiet _).get (·.six)⟩

theorem lockstepMismatch_effect (s : State) :
    ∃ t, exec .lockstepMismatch s = .next t ∧ t.power.mgmtUntil = s.six + 20 * sixPerMs ∧ t.six = s.six := by
  have hasked (u : State) (p : Prop) [Decidable p] : (if p then u.askSafe 4 else u).power = u.power ∧ (if p then u.askSafe 4 else u).six = u.six := by
    split
    · exact ⟨rfl, rfl⟩
    · exact ⟨rfl, rfl⟩
  obtain ⟨hmgmt, hsix⟩ := mismatch_power s (s.six + 20 * sixPerMs)
  exact ⟨_, rfl, (congrArg Power.mgmtUntil (hasked _ _).1).trans hmgmt, (hasked _ _).2.trans hsix⟩

/-! ### A checkpoint answers what waited. -/

theorem zeroise_checkpoint (s : State) : s.zeroise.power.checkpoint = s.power.checkpoint := by
  unfold State.zeroise
  extract_lets src s1 s2
  have h2 : s2.power.checkpoint = s.power.checkpoint := (setErr_quiet _ keySEC 17).get (·.power.checkpoint)
  exact (congrArg Power.checkpoint (logSecurity_secKept s2).power).trans h2

theorem openDebug_checkpoint (s : State) : s.openDebug.power.checkpoint = s.power.checkpoint := by
  unfold State.openDebug
  extract_lets s1 ids
  have h1 : s1.power.checkpoint = s.power.checkpoint := zeroise_checkpoint s
  have hfail : SecKept (s1.each ids fun s id => s.failTask id codePROTECT 0x0D) s1 := .each fun _ _ => failTask_secKept _ _ _ _
  exact (congrArg Power.checkpoint hfail.power).trans h1

theorem answerMsg_checkpoint (s : State) (m : MctpMsg) : (s.answerMsg m).power.checkpoint = s.power.checkpoint := by
  cases m
  case debugOpen =>
    unfold State.answerMsg
    dsimp only
    split
    · rfl
    · exact openDebug_checkpoint s
  case getSensor id =>
    unfold State.answerMsg
    dsimp only
    split
    · rfl
    · rfl
  case getStateSensors id =>
    unfold State.answerMsg
    dsimp only
    split
    · rfl
    · rfl
  case pollEvent =>
    unfold State.answerMsg
    dsimp only
    split
    · rfl
    · rfl
  case writeBank bank image =>
    unfold State.answerMsg
    dsimp only
    split
    · cases bank
      · rfl
      · rfl
    · rfl
  all_goals rfl

theorem checkpoint_effect {s : State} (hrun : s.power.mgmtUntil ≤ s.six) :
    ∃ t, exec .checkpoint s = .next t ∧ t.power.checkpoint = s.six ∧ t.power.deferred = [] := by
  have hanswered (ms : List MctpMsg) (u : State) : (u.each ms State.answerMsg).power.checkpoint = u.power.checkpoint := by
    induction ms generalizing u with
    | nil => rfl
    | cons m ms ih => exact (ih _).trans (answerMsg_checkpoint u m)
  have hchecked (u : State) : u.answerDeferred.power.checkpoint = u.power.checkpoint ∧ u.answerDeferred.power.deferred = [] :=
    ⟨hanswered _ u, rfl⟩
  obtain ⟨hpoint, hnone⟩ := hchecked (s.modPower fun p => { p with checkpoint := s.six }).refreshMismatch
  refine ⟨_, ?_, hpoint, hnone⟩
  change execCheckpoint s = _
  unfold execCheckpoint
  exact if_neg (Nat.not_lt.2 hrun)

/-! ### Automatic resets, recovery and the log (R588-R592). -/

/-- A reset of a block leaves the times of the automatic resets. -/
theorem resetHook_faultSix (s : State) (key : Nat) : (s.resetHook key).phn.faultSix = s.phn.faultSix := by
  have hkeeps {m k r : Bool} {t : State} (h : Keeps m k r true t s) : t.phn.faultSix = s.phn.faultSix := congrArg Phoin.faultSix (h.phn rfl)
  unfold State.resetHook
  extract_lets p r m
  split
  · rfl
  · rfl
  · rfl
  · rfl
  · rfl
  · rfl
  · exact congrArg Phoin.faultSix ((foldl_keeps (m := true) (k := true) (r := true) (p := true)
      (f := fun s j => s.modTrig (3 * r + j) fun t => { t with events := Trig.init.events }) (xs := List.range 3) (s := s)
      fun u j => State.modTrig_keeps u _ _).phn rfl)
  · rfl
  · rfl
  · rfl
  · rfl
  · exact hkeeps (State.cmpDrop_keeps s _)
  · exact hkeeps (State.cancelGroup_keeps s _)
  · rfl
  · exact hkeeps (State.dspReset_keeps s)
  · exact hkeeps (State.linkDown_keeps s _)
  · unfold State.closePhoin
    split
    · exact (irqBit_quiet _ keyPHN 16).get (·.phn.faultSix)
    · rfl
  · exact congrArg Phoin.faultSix ((State.syncOff_keeps s).phn rfl)
  · rfl
  · rfl

/-- A block in FAULT that is reset is in RESET. -/
theorem softReset_effect {s : State} {key : Nat} (hst : (s.page key).st = .fault) :
    ((s.softReset key).page key).st = .reset ∧ (s.softReset key).phn.faultSix = s.phn.faultSix := by
  unfold State.softReset
  rw [if_neg (by rw [hst]; decide)]
  extract_lets s1 s2 old s3
  have h2 : s2.phn.faultSix = s.phn.faultSix := (resetHook_faultSix (s.cancelOp key) key).trans ((cancelOp_quiet s key).get (·.phn.faultSix))
  have h3 : (s3.page key).st = .reset := by
    unfold s3
    rw [State.page_modPage]
    rfl
  clear_value s2
  split
  · exact ⟨by rw [State.page_modPage]; exact h3, h2⟩
  · exact ⟨by rw [State.page_modPage]; exact h3, h2⟩

theorem faultAutoReset_effect {s : State} {key : Fin 8192} (hpage : (s.page key).st = .fault ∧ (s.page key).owner = .phoin)
    (hsticky : s.phn.sticky.contains key.val = false) (hiso : s.isolated (keyRegion key) = false) (hfirst : mfind s.phn.faultSix key = none) :
    ∃ t, exec (.faultAutoReset key) s = .next t ∧ (t.page key).st = .reset ∧ mfind t.phn.faultSix key = some s.six := by
  obtain ⟨hst, howner⟩ := hpage
  let s1 := s.modPhn fun p => { p with faultSix := mput p.faultSix key s.six }
  obtain ⟨hreset, hsix⟩ := softReset_effect (s := s1) (key := key) hst
  refine ⟨s1.softReset key, ?_, hreset, ?_⟩
  · change execFaultAutoReset key s = _
    unfold execFaultAutoReset
    dsimp only
    rw [hst, howner, hsticky, hiso, hfirst, if_neg]
    · rfl
    · rintro (h | h | h | h)
      · exact h rfl
      · exact h rfl
      · exact Bool.noConfusion h
      · exact Bool.noConfusion h
  · rw [hsix]
    exact mfind_mput_same _ _ _

theorem recoverComplete_failed {s : State} {op : Op} (hop : (s.page keyFLT).op = some op) (hopcode : op.opcode = 0x0102) :
    ∃ t, exec (.recoverComplete false) s = .next t ∧ (t.page keyFLT).op = none ∧
      (t.page keyFLT).cmdStat = cmdStatWord op.tag phaseFAILED 0x03 codeFAULT ∧ t.isolated op.a0 = s.isolated op.a0 := by
  let u := s.logPage keyFLT 0 codeFAULT 0x03 4 (op.a0 + codeFAULT * 256)
  have hu : Steady 0 u s := logPage_steady s keyFLT 0 codeFAULT 0x03 4 (op.a0 + codeFAULT * 256)
  have hopu : (u.page keyFLT).op = some op := (hu.get (.inr (.inr (.inl rfl))) (·.op)).trans hop
  refine ⟨u.failOp keyFLT codeFAULT 0x03, ?_, op_endOp _ _ _ _ _, cmdStat_endOp _ _ _ _ _ hopu, ?_⟩
  · change execRecoverComplete false s = _
    unfold execRecoverComplete
    rw [hop]
    dsimp only
    rw [if_neg fun h => h hopcode]
    rfl
  · unfold State.isolated
    rw [show u.failOp keyFLT codeFAULT 0x03 = u.endOp keyFLT phaseFAILED codeFAULT 0x03 from rfl, rf_endOp]
    exact congrArg (nbit · op.a0) (hu.rf (.inr (.inr (.inl ⟨rfl, rfl⟩))))

/-- Both logs are as they were. -/
def LogsSame (t s : State) : Prop := t.log = s.log ∧ t.flashLog = s.flashLog

theorem LogsSame.trans {t u s : State} (h1 : LogsSame t u) (h2 : LogsSame u s) : LogsSame t s := ⟨h1.1.trans h2.1, h1.2.trans h2.2⟩

theorem LogsSame.ite {p : Prop} [Decidable p] {a b s : State} (ha : LogsSame a s) (hb : LogsSame b s) : LogsSame (if p then a else b) s := by
  split
  · exact ha
  · exact hb

theorem pageMessage_logsSame (s : State) (key : Nat) : LogsSame (s.pageMessage key) s := by
  unfold State.pageMessage
  refine .ite ?_ ⟨rfl, rfl⟩
  split
  · exact .ite ⟨rfl, rfl⟩ ⟨rfl, rfl⟩
  · exact ⟨rfl, rfl⟩

theorem irqBit_logsSame (s : State) (key i : Nat) : LogsSame (s.irqBit key i) s :=
  .ite (.trans (pageMessage_logsSame _ key) ⟨rfl, rfl⟩) ⟨rfl, rfl⟩

theorem doneWith_logsSame (s : State) (key : Nat) (r : List Word) : LogsSame (s.doneWith key r) s := by
  have hwritten : LogsSame (s.writeResult key r) s := .trans (irqBit_logsSame _ _ _) ⟨rfl, rfl⟩
  have hdone (u : State) : LogsSame (u.doneOp key) u := by
    unfold State.doneOp State.endOp
    split
    · exact ⟨rfl, rfl⟩
    · exact .trans (irqBit_logsSame _ _ _) ⟨rfl, rfl⟩
  unfold State.doneWith
  split
  · exact ⟨rfl, rfl⟩
  · exact .ite ⟨rfl, rfl⟩ ((hdone _).trans hwritten)

/-- An entry that is read is the result of its command. -/
theorem doneWith_entry {s : State} {op : Op} (hfree : (s.page keyFLT).resReady = false) (hsus : op.suspended = false) (e : LogEntry) :
    let t := (s.accept keyFLT op).doneWith keyFLT e.words
    (t.page keyFLT).res.take 8 = e.words ∧ (t.page keyFLT).resReady = true ∧ t.log = s.log ∧ t.flashLog = s.flashLog := by
  have hop : ((s.accept keyFLT op).page keyFLT).op = some op := by rw [page_accept_same]
  have hfree1 : ((s.accept keyFLT op).page keyFLT).resReady = false := by rw [page_accept_same]; exact hfree
  dsimp only
  rw [page_doneWith_same hop hsus hfree1]
  obtain ⟨hlog, hflash⟩ := doneWith_logsSame (s.accept keyFLT op) keyFLT e.words
  refine ⟨?_, rfl, hlog, hflash⟩
  have hlength : e.words.length = 8 := by
    rw [LogEntry.words, List.length_map, List.length_range]
  rw [List.take_take, Nat.min_self, ← hlength, List.take_left]

theorem readLog_effect {s : State} {who : Issuer} {tag : Nat} {e : LogEntry} (ht : s.takes who keyFLT)
    (he : s.log.find? (fun e => decide (e.entry = (s.page keyFLT).a0.toNat)) = some e) :
    exec (.readLog who tag) s = .next ((s.accept keyFLT (s.latch keyFLT 0x0100 tag)).doneWith keyFLT e.words) := by
  change execReadLog who tag s = _
  unfold execReadLog
  rw [command_of_takes ht, latch_a0, he]

theorem readFlashLog_effect {s : State} {who : Issuer} {tag : Nat} {e : LogEntry} (ht : s.takes who keyFLT)
    (he : s.flashLog.reverse[(s.page keyFLT).a0.toNat]? = some e) :
    exec (.readFlashLog who tag) s = .next ((s.accept keyFLT (s.latch keyFLT 0x0101 tag)).doneWith keyFLT e.words) := by
  change execReadFlashLog who tag s = _
  unfold execReadFlashLog
  rw [command_of_takes ht, latch_a0, he]

/-- What neither the instant nor the collector's list touches. -/
theorem pageHolders_advanced (s : State) (six : Nat) (held : List LogEntry) (key : Nat) :
    ({ s.advanceTo six with held := held } : State).pageHolders key = s.pageHolders key := rfl

theorem isSafe_advanced (s : State) (six : Nat) (held : List LogEntry) : ({ s.advanceTo six with held := held } : State).isSafe = s.isSafe := rfl

theorem collectorRelease_effect {s : State} {e : LogEntry} (hheld : s.held = [e]) (hsafe : s.isSafe = true) (hnone : s.pageHolders e.pageKey = []) :
    ∃ t, exec .collectorRelease s = .next t ∧ t.held = [] := by
  have hentry (u : State) (hu : u.pageHolders e.pageKey = []) (hs : u.isSafe = true) : u.releaseEntry e = u := by
    unfold State.releaseEntry
    rw [hu]
    exact if_pos hs
  have heffect (u : State) (hu : u.pageHolders e.pageKey = []) (hs : u.isSafe = true) (due : LogEntry → Bool) (hheld : u.held = []) :
      (u.each (e :: ([] : List LogEntry).filter due) State.releaseEntry).held = [] := by
    change (u.releaseEntry e).held = []
    rw [hentry u hu hs, hheld]
  change ∃ t, execCollectorRelease s = .next t ∧ _
  unfold execCollectorRelease
  rw [hheld, show releaseOrder [e] = [e] from rfl]
  refine ⟨_, rfl, heffect _ ((pageHolders_advanced _ _ _ _).trans hnone) ((isSafe_advanced _ _ _).trans hsafe) _ ?_⟩
  refine List.filter_eq_nil_iff.2 fun x hx h => ?_
  rw [show (s.advanceTo (e.six + collectorHold)).held = [e] from hheld] at hx
  rw [List.mem_singleton.1 hx, decide_eq_false fun h => h rfl, Bool.and_false] at h
  exact Bool.noConfusion h

/-! ### Recovery of a region (R589). -/

theorem sysPage_keyFLT (l : Nat) : sysPage l keyFLT := .inr (.inr (.inl rfl))

theorem outer_region {r k : Nat} (hr : 1 ≤ r) (h : k ∈ allRegionKeys r) : Outer k := by
  obtain ⟨hk, -⟩ := List.mem_filter.1 h
  obtain ⟨n, -, rfl⟩ := List.mem_map.1 hk
  apply outer_of_ge
  unfold keyOf
  omega

theorem outer_regionEnd {r k : Nat} (h : k ∈ regionEnds r) : Outer k := by
  obtain ⟨hk, -⟩ := List.mem_filter.1 h
  obtain ⟨l, hl, rfl⟩ := List.mem_map.1 hk
  have hends : ∀ l < 14, 8 ≤ endKey l := by decide
  exact outer_of_ge (hends l (List.mem_range.1 hl))

theorem switchDomain_steady (s : State) (d : Nat) (on : Bool) : Steady 0 (s.switchDomain d on) s := by
  have hpwr {o : Nat} : ¬ sysReg 0 keyPWR o := by
    unfold sysReg keyMOD keySEC keyFLT keyPWR keyOf
    omega
  exact (count_steady _ _ hpwr).trans (wf_steady s _ _ hpwr)

theorem domainDown_steady (s : State) {d : Nat} (hd : d < 30) : Steady 0 (s.domainDown d) s :=
  .ite ((switchDomain_steady _ _ _).trans (.foldl (fun u _ hk => (pageDown_steady u (outer_domainPages hd hk)).lower) s)) (.refl s)

theorem domainUp_steady (s : State) {d : Nat} (hd : d < 30) : Steady 0 (s.domainUp d) s :=
  .ite (.refl s) ((switchDomain_steady _ _ _).trans (.foldl (fun u _ hk => (powerReset_steady u (outer_domainPages hd hk)).lower) s))

theorem restartRegion_steady (s : State) {r : Nat} (hr : 1 ≤ r) : Steady 0 (s.restartRegion r) s := by
  unfold State.restartRegion
  extract_lets ds s1 s2 s3
  have hds {d : Nat} (h : d ∈ ds) : d < 30 := List.mem_range.1 (List.mem_filter.1 h).1
  have h1 : Steady 0 s1 s :=
    (Steady.foldl (fun u _ h => domainUp_steady u (hds h)) _).trans (.foldl (fun u _ h => domainDown_steady u (hds h)) s)
  have h2 : Steady 0 s2 s1 := .foldl (fun u k hk => .ite
    ((enter_steady _ _ (outer_region hr hk).page).trans (powerReset_steady u (outer_region hr hk))).lower (.refl u)) s1
  have h3 : Steady 0 s3 s2 := .foldl (fun u k hk =>
    ((modPage_steady1 _ _ (outer_regionEnd hk)).trans (linkDown_steady u (outer_regionEnd hk))).lower) s2
  have h4 : Steady 0 (s3.convEnter (r - 3) convCLOCKING) s3 := wf_steady s3 _ _ (not_sysReg_keyADC _ (by decide))
  exact .ite (h4.trans (h3.trans (h2.trans h1))) (h3.trans (h2.trans h1))

theorem recover_effect {s : State} {who : Issuer} (tag : Nat) (ht : s.takes who keyFLT)
    (hregion : 1 ≤ (s.page keyFLT).a0.toNat ∧ (s.page keyFLT).a0.toNat < 8) (hsafe : s.isSafe = false)
    (hiso : s.isolated (s.page keyFLT).a0.toNat = true) :
    ∃ t, exec (.recover who tag) s = .next t ∧ (t.page keyFLT).op = some (s.latch keyFLT 0x0102 tag) := by
  change ∃ t, execRecover who tag s = .next t ∧ _
  unfold execRecover
  rw [command_of_takes ht, ← latch_a0 s keyFLT 0x0102 tag] at *
  generalize s.latch keyFLT 0x0102 tag = op at *
  obtain ⟨hpos, hlt⟩ := hregion
  dsimp only
  rw [if_neg (show ¬8 ≤ op.a0 by omega), hsafe, if_neg Bool.false_ne_true, hiso, if_neg (show ¬((!true) = true ∨ op.a0 = 0) from
    fun h => h.elim (fun h => Bool.noConfusion h) fun h => by omega)]
  refine ⟨_, rfl, ((restartRegion_steady _ hpos).get (sysPage_keyFLT 0) (·.op)).trans ?_⟩
  rw [page_accept_same]

/-! ### Safe state (R587). -/

theorem safePark_steady (s : State) : Steady 0 s.safePark s := by
  unfold State.safePark
  extract_lets s1 s2
  have h1 : Steady 0 s1 s := steady_foldl fun u m => wf_steady u _ _ (not_sysReg_of_ge (ge_keyMEM m))
  have h2 : Steady 0 s2 s := .trans (steady_foldl fun u o => (setOut_steady u o _).lower) h1
  exact (Steady.foldl (fun u d hd => domainDown_steady u (List.mem_range.1 (List.mem_filter.1 hd).1)) s2).trans h2

theorem safeInputs_steady (s : State) : Steady 0 s.safeInputs s := by
  unfold State.safeInputs
  extract_lets s1
  have h1 : Steady 0 s1 s := steady_foldl fun u c => afeSet_steady u _ _ _ _ _ _
  exact (holdOutputs_steady _ _).trans ((holdOutputs_steady _ _).trans h1)

theorem safeStateEntry_effect {s : State} {cause : Nat} (hreq : s.safeReq = some cause) (hsafe : s.isSafe = false) (hphase : s.phase ≠ 0) :
    ∃ t, exec .safeStateEntry s = .next t ∧ t.isSafe = true ∧ t.ready = false ∧ t.rb keyFLT Reg.FLT_STAT.FAULT_N = true ∧
      wbit (t.page keyFLT).irq 18 = true := by
  change ∃ t, execSafeStateEntry s = .next t ∧ _
  unfold execSafeStateEntry
  rw [hreq]
  dsimp -zeta only
  rw [hsafe, if_neg (show ¬(false = true ∨ s.phase = 0) from fun h => h.elim Bool.false_ne_true hphase)]
  extract_lets s1 s2 s3
  have hflags : s2.isSafe = true ∧ s2.ready = false ∧ s2.rb keyFLT Reg.FLT_STAT.FAULT_N = true := by
    have hstate : s1.rf keyFLT Reg.FLT_STAT.STATE = 2 := rf_wf_same _ keyFLT 2 (by decide) (by decide)
    refine ⟨?_, rb_wb_same s1 keyMOD false (by decide) (by decide), ?_⟩
    · unfold State.isSafe
      rw [show s2.rf keyFLT Reg.FLT_STAT.STATE = s1.rf keyFLT Reg.FLT_STAT.STATE from rf_wf_apart (by decide) s1 _, hstate]
      rfl
    · exact (rb_wb_apart (by decide) s1 _).trans ((rb_wf_apart (by decide) _ _).trans (rb_wb_same s keyFLT true (by decide) (by decide)))
  have h3 : Steady 0 s3 s2 := (irqBit_steady _ _ _).trans (logPage_steady _ _ _ _ _ _ _)
  have hirq : wbit (s3.page keyFLT).irq 18 = true := wbit_irq_irqBit _ keyFLT (by decide)
  clear_value s3
  have hend : Steady 0 ((s3.safeInputs.closeAll 3 codeFAULT).safePark) s3 :=
    (safePark_steady _).trans ((closeAll_steady _ _ _).trans (safeInputs_steady s3))
  have hall := hend.trans h3
  obtain ⟨hs, hr, hf⟩ := hflags
  refine ⟨_, rfl, ?_, ?_, ?_, hend.irq (sysPage_keyFLT 0) hirq⟩
  · refine Eq.trans ?_ hs
    unfold State.isSafe
    rw [hall.rf (.inr (.inr (.inl ⟨rfl, rfl⟩)))]
  · exact (hall.rb (.inl rfl)).trans hr
  · exact (hall.rb (.inr (.inr (.inl ⟨rfl, rfl⟩)))).trans hf

/-- Settles O37: planes, management cores, resets and the log at once; recovery and safe state keep what FLT and MOD show. -/
theorem availabilityCommandsTakeEffect : Obligations.AvailabilityCommandsTakeEffect := by
  unfold Obligations.AvailabilityCommandsTakeEffect
  refine ⟨?_, ?_, ?_, ?_, ?_, ?_, ?_, ?_, ?_, ?_, ?_⟩
  · intro s plane hin
    exact planeFailure_effect plane hin
  · intro s plane hdue
    exact planeSelftest_effect hdue
  · intro s
    exact lockstepMismatch_effect s
  · intro s hrun
    exact checkpoint_effect hrun
  · intro s key hpage hsticky hiso hfirst
    exact faultAutoReset_effect hpage hsticky hiso hfirst
  · intro s who tag ht hregion hsafe hiso
    exact recover_effect tag ht hregion hsafe hiso
  · intro s op hop hopcode
    exact recoverComplete_failed hop hopcode
  · intro s who tag e ht hfree he
    obtain ⟨hres, hready, hlog, -⟩ := doneWith_entry (op := s.latch keyFLT 0x0100 tag) hfree rfl e
    exact ⟨_, readLog_effect ht he, hres, hready, hlog⟩
  · intro s who tag e ht hfree he
    obtain ⟨hres, hready, -, hflash⟩ := doneWith_entry (op := s.latch keyFLT 0x0101 tag) hfree rfl e
    exact ⟨_, readFlashLog_effect ht he, hres, hready, hflash⟩
  · intro s e hheld hsafe hnone
    exact collectorRelease_effect hheld hsafe hnone
  · intro s cause hreq hsafe hphase
    exact safeStateEntry_effect hreq hsafe hphase

end Sys2Proof.Machine
